-- ==== Sys2Proof/Word.lean ====
section
/-! DEFINITION. The plain data types every file uses: a byte, a 32-bit word, a table of values by number, a request of a unit to
its network interface, and what a self-test of the memories finds. -/
namespace Sys2Proof

/-- One byte of memory. -/
abbrev Byte := BitVec 8

/-- One 32-bit CSR, packet or record word (R4, R5). -/
abbrev Word := BitVec 32

/-- A table of values by number, in one canonical form: numbers strictly rising, and no entry equal to
what an unlisted number holds (`Tab.get` and `Tab.set` of `Sys2Proof/Machine/Ops.lean`). -/
abbrev Tab (α : Type) := List (Nat × α)

/-- A request of a unit at the injection arbiter of its NI (R239, R242, R249): its requester index, OP, LEN (0 means 32 words), SIZE,
the address and the write data, each byte with its poison. -/
structure NiReq where
  req : Fin 15
  op : BitVec 3
  len : BitVec 5
  size : BitVec 3
  addr : BitVec 40
  data : List (Byte × Bool)
deriving DecidableEq, Repr

/-- What BIST found in Bedding (R61): faults that a spare repairs, each by its address and as a column line or not, and units that no
repair saves, by class and instance. -/
structure BistFound where
  repairs : List (BitVec 40 × Bool)
  failed : List (BitVec 8 × BitVec 10)
deriving DecidableEq, Repr

end Sys2Proof
end

