-- ==== Sys2Proof/Syntax.lean ====
section
/-! DEFINITION. The commands of the SH9680: one constructor per row of spec/opcode_table.json, in its order. A command
that an arbiter or a unit of the device decides by itself carries no operand for that choice; what only the outside
of the device knows (a pin, a measured power, a received frame) is an operand. -/
namespace Sys2Proof

/-- A command of the block: a write or read of one of its registers, a Dvorys packet, an event on a pin, a link or a
clock, or a step of one of its own engines. -/
inductive Instr where
  /-- REGISTER_WRITE (R6) -/
  | registerWrite (req : Fin 14) (cls : BitVec 8) (sel : BitVec 10) (offset : BitVec 10) (value : Word)
  /-- JOURNAL_GRANT (R27) -/
  | journalGrant
  /-- LOST (R439) -/
  | lost (cls : BitVec 8)
  /-- SQ_TAIL_DOORBELL (R33) -/
  | sqTailDoorbell (fn : Fin 16) (index : BitVec 12)
  /-- CQ_HEAD_DOORBELL (R34) -/
  | cqHeadDoorbell (fn : Fin 16) (index : BitVec 12)
  /-- RING_DISABLE (R36) -/
  | ringDisable (fn : Fin 16)
  /-- QUIESCED (R36) -/
  | quiesced (fn : Fin 16)
  /-- FLR (R36) -/
  | flr (fn : Fin 16)
  /-- IRQ_COAL_TIMER (R35) -/
  | irqCoalTimer (fn : Fin 16)
  /-- BAD_OPCODE (R38) -/
  | badOpcode (fn : Fin 16)
  /-- NOP (R44) -/
  | nop (fn : Fin 16)
  /-- IDENTIFY (R44) -/
  | identify (fn : Fin 16)
  /-- MODE_GET (R44) -/
  | modeGet (fn : Fin 16)
  /-- MODE_SET (R47) -/
  | modeSet (fn : Fin 16)
  /-- EVENT_SUBSCRIBE (R49) -/
  | eventSubscribe (fn : Fin 16)
  /-- FN_GRANT (R46) -/
  | fnGrant (fn : Fin 16)
  /-- DIAG_WINDOW (R48) -/
  | diagWindow (fn : Fin 16)
  /-- ABORT (R50) -/
  | abort (fn : Fin 16)
  /-- LR_SAFE_POINT_STOP (R50) -/
  | lrSafePointStop (op : BitVec 16) (units : Nat)
  /-- ENUMERATE (R44) -/
  | enumerate (fn : Fin 16)
  /-- REG_READ (R44) -/
  | regRead (fn : Fin 16)
  /-- REG_WRITE (R39) -/
  | regWrite (fn : Fin 16)
  /-- REG_MODIFY (R44) -/
  | regModify (fn : Fin 16)
  /-- REG_BLOCK (R44) -/
  | regBlock (fn : Fin 16)
  /-- REG_BLOCK_DONE (R44) -/
  | regBlockDone (op : BitVec 16)
  /-- COMMIT (R44) -/
  | commit (fn : Fin 16)
  /-- COMMIT_STATE (R44) -/
  | commitState (fn : Fin 16)
  /-- FENCE_UNIT (R396) -/
  | fenceUnit (fn : Fin 16)
  /-- FENCE_UNIT_DONE (R396) -/
  | fenceUnitDone (op : BitVec 16)
  /-- UNFENCE_UNIT (R396) -/
  | unfenceUnit (fn : Fin 16)
  /-- UNFENCE_UNIT_DONE (R397) -/
  | unfenceUnitDone (op : BitVec 16)
  /-- ACCOUNT_SET (R214) -/
  | accountSet (fn : Fin 16)
  /-- ACCOUNT_READ (R214) -/
  | accountRead (fn : Fin 16)
  /-- PLAN (R213) -/
  | plan (fn : Fin 16)
  /-- LEDGER_SET (R214) -/
  | ledgerSet (fn : Fin 16)
  /-- METER_CALIBRATE (R199) -/
  | meterCalibrate (fn : Fin 16)
  /-- METER_CALIBRATE_DONE (R199) -/
  | meterCalibrateDone (op : BitVec 16) (ok : Bool) (constants : List (BitVec 16 × BitVec 16))
  /-- QUEUE_SET (R194) -/
  | queueSet (fn : Fin 16)
  /-- TASK_POST (R176) -/
  | taskPost (fn : Fin 16)
  /-- TASK_POST_RETRY (R43) -/
  | taskPostRetry (fn : Fin 16)
  /-- KEYSTONE_SET (R194) -/
  | keystoneSet (fn : Fin 16)
  /-- KEYSTONE_READ (R194) -/
  | keystoneRead (fn : Fin 16)
  /-- QUEUE_STATS (R194) -/
  | queueStats (fn : Fin 16)
  /-- VAULT_SET (R235) -/
  | vaultSet (fn : Fin 16)
  /-- VSTREAM_SET (R235) -/
  | vstreamSet (fn : Fin 16)
  /-- VAULT_TRIGGER (R235) -/
  | vaultTrigger (fn : Fin 16)
  /-- VAULT_EXPORT (R227) -/
  | vaultExport (fn : Fin 16)
  /-- EXPORT_DONE (R227) -/
  | exportDone (op : BitVec 16)
  /-- TALLY_SET (R235) -/
  | tallySet (fn : Fin 16)
  /-- TEMPLATE_LOAD (R235) -/
  | templateLoad (fn : Fin 16)
  /-- VAULT_STATUS (R235) -/
  | vaultStatus (fn : Fin 16)
  /-- TB_READ (R371) -/
  | tbRead (fn : Fin 16)
  /-- TB_STEP (R371) -/
  | tbStep (fn : Fin 16)
  /-- SERVO_SET (R371) -/
  | servoSet (fn : Fin 16)
  /-- SERVO_OFFSET (R371) -/
  | servoOffset (fn : Fin 16)
  /-- TDD_EDGE_SET (R371) -/
  | tddEdgeSet (fn : Fin 16)
  /-- PTP_PORT_SET (R371) -/
  | ptpPortSet (fn : Fin 16)
  /-- MEM_READ (R44) -/
  | memRead (fn : Fin 16)
  /-- MEM_WRITE (R44) -/
  | memWrite (fn : Fin 16)
  /-- MEM_COPY (R44) -/
  | memCopy (fn : Fin 16)
  /-- MEM_COPY_DONE (R44) -/
  | memCopyDone (op : BitVec 16)
  /-- SPALL_READ (R303) -/
  | spallRead (fn : Fin 16)
  /-- PAGE_RETIRE (R300) -/
  | pageRetire (fn : Fin 16)
  /-- PAGE_RETIRE_DONE (R300) -/
  | pageRetireDone (op : BitVec 16)
  /-- CHANNEL_EVACUATE (R301) -/
  | channelEvacuate (fn : Fin 16)
  /-- EVACUATE_PAGE_MOVE (R301) -/
  | evacuatePageMove (op : BitVec 16)
  /-- EVACUATED (R301) -/
  | evacuated (op : BitVec 16)
  /-- SCRUB_SET (R303) -/
  | scrubSet (fn : Fin 16)
  /-- DATA_RING_SET (R45) -/
  | dataRingSet (fn : Fin 16)
  /-- QUAD_PROTOCOL_SET (R324) -/
  | quadProtocolSet (fn : Fin 16)
  /-- LANE_SET (R324) -/
  | laneSet (fn : Fin 16)
  /-- LANE_RECAL (R312) -/
  | laneRecal (fn : Fin 16)
  /-- LANE_STATUS (R324) -/
  | laneStatus (fn : Fin 16)
  /-- AHNENT_SET (R324) -/
  | ahnentSet (fn : Fin 16)
  /-- MAC_SET (R353) -/
  | macSet (fn : Fin 16)
  /-- FLOW_WRITE (R353) -/
  | flowWrite (fn : Fin 16)
  /-- PROTECT_SET (R323) -/
  | protectSet (fn : Fin 16)
  /-- IMAGE_STAGE (R51) -/
  | imageStage (fn : Fin 16)
  /-- IMAGE_STAGE_DONE (R51) -/
  | imageStageDone (op : BitVec 16)
  /-- IMAGE_VERIFY (R62) -/
  | imageVerify (fn : Fin 16)
  /-- IMAGE_VERIFY_DONE (R62) -/
  | imageVerifyDone (op : BitVec 16)
  /-- IMAGE_ACTIVATE (R52) -/
  | imageActivate (fn : Fin 16)
  /-- DVORYS_SWITCH (R52) -/
  | dvorysSwitch (op : BitVec 16) (pass : Bool) (micros : Word)
  /-- IMAGE_FLASH_WRITE (R51) -/
  | imageFlashWrite (fn : Fin 16)
  /-- IMAGE_FLASH_WRITE_DONE (R51) -/
  | imageFlashWriteDone (op : BitVec 16)
  /-- IMAGE_STATUS (R44) -/
  | imageStatus (fn : Fin 16)
  /-- COUNTER_SELECT (R401) -/
  | counterSelect (fn : Fin 16)
  /-- COUNTER_READ (R403) -/
  | counterRead (fn : Fin 16)
  /-- COLLECT_START (R404) -/
  | collectStart (fn : Fin 16)
  /-- COLLECT_DONE (R405) -/
  | collectDone (op : BitVec 16)
  /-- TRACE_SET (R407) -/
  | traceSet (fn : Fin 16)
  /-- JOURNAL_READ (R44) -/
  | journalRead (fn : Fin 16)
  /-- PAIR_MISMATCH (R53) -/
  | pairMismatch (executing : Bool) (words : Nat) (member : BitVec 10)
  /-- PAIR_RELOAD_DONE (R391) -/
  | pairReloadDone (pass : Bool)
  /-- MODE_REQ (R58) -/
  | modeReq (req : Fin 14) (target : BitVec 3)
  /-- MODE_TRANSITION_DONE (R56) -/
  | modeTransitionDone
  /-- BANKED_WFI_TIMEOUT (R65) -/
  | bankedWfiTimeout
  /-- BANKED_ENTRY (R65) -/
  | bankedEntry
  /-- POWER_ON_RESET (R418) -/
  | powerOnReset
  /-- RESET_N_LOW (R418) -/
  | resetNLow
  /-- RESET_N_RISE (R60) -/
  | resetNRise (pins : BitVec 3)
  /-- SOFT_RESET (R418) -/
  | softReset (req : Fin 14) (value : Word)
  /-- THERMAL_RESET (R418) -/
  | thermalReset
  /-- DROOP_RESET (R418) -/
  | droopReset
  /-- INTERNAL_FOOTING_END (R418) -/
  | internalFootingEnd (pins : BitVec 3)
  /-- FUSE_READ_DONE (R60) -/
  | fuseReadDone
  /-- BEDDING_DONE (R61) -/
  | beddingDone (found : BistFound) (coreFail : Bool)
  /-- BOOT_IMAGE_CHECK (R62) -/
  | bootImageCheck (source : Fin 3)
  /-- BOOT_PUSH (R384) -/
  | bootPush (req : Fin 14) (value : Word)
  /-- TIMING_LOCK (R356) -/
  | timingLock
  /-- BULK_TRAINED (R286) -/
  | bulkTrained (found : List (Bool × Bool × BitVec 3 × Nat))
  /-- BULK_FILLED (R294) -/
  | bulkFilled
  /-- AVS_CAL (R416) -/
  | avsCal
  /-- METERS_CAL (R199) -/
  | metersCal (constants : List (BitVec 16 × BitVec 16))
  /-- LANES_CAL (R308) -/
  | lanesCal
  /-- COMMIT_ARRIVE (R90) -/
  | commitArrive (req : Fin 14) (tx : Bool) (sel : BitVec 10) (value : Word)
  /-- COMMIT_LOCK (R92) -/
  | commitLock (ch : Fin 1024)
  /-- SYMBOL_BOUNDARY (R69) -/
  | symbolBoundary (ch : Fin 1024)
  /-- FFT_SYMBOL_ARRIVE (R81) -/
  | fftSymbolArrive (ch : Fin 1024)
  /-- FFT_TRANSFORM_DONE (R74) -/
  | fftTransformDone (engine : Fin 32)
  /-- GRID_WRITES_ACKED (R77) -/
  | gridWritesAcked (ch : Fin 512)
  /-- HEADER_WRITE_ACKED (R78) -/
  | headerWriteAcked (ch : Fin 512)
  /-- RX_WINDOW_CLOSE (R336) -/
  | rxWindowClose (ch : Fin 512)
  /-- PRACH_OCCASION (R83) -/
  | prachOccasion (ch : Fin 512)
  /-- TX_GRID_READ (R84) -/
  | txGridRead (ch : Fin 512)
  /-- TX_GRID_READ_DONE (R84) -/
  | txGridReadDone (ch : Fin 512)
  /-- PA_ENABLE_CHANGE (R87) -/
  | paEnableChange (ch : Fin 512)
  /-- FFT_CLEAR_MAX (R81) -/
  | fftClearMax (req : Fin 14) (sel : BitVec 10)
  /-- FFT_CLEAR_DROPS (R81) -/
  | fftClearDrops (req : Fin 14) (sel : BitVec 10)
  /-- VMAC (R134) -/
  | vmac (core : Fin 192) (mac : Fin 2)
  /-- VMSU (R134) -/
  | vmsu (core : Fin 192) (mac : Fin 2)
  /-- VMUL (R134) -/
  | vmul (core : Fin 192) (mac : Fin 2)
  /-- VCMAC_L (R135) -/
  | vcmacL (core : Fin 192) (mac : Fin 2)
  /-- VCMAC_H (R135) -/
  | vcmacH (core : Fin 192) (mac : Fin 2)
  /-- VCMACJ_L (R135) -/
  | vcmacjL (core : Fin 192) (mac : Fin 2)
  /-- VCMACJ_H (R135) -/
  | vcmacjH (core : Fin 192) (mac : Fin 2)
  /-- VACLR (R134) -/
  | vaclr (core : Fin 192) (mac : Fin 2)
  /-- VALD (R134) -/
  | vald (core : Fin 192) (mac : Fin 2)
  /-- VAMOV (R134) -/
  | vamov (core : Fin 192) (mac : Fin 2)
  /-- VARED (R134) -/
  | vared (core : Fin 192) (mac : Fin 2)
  /-- VEXT (R111) -/
  | vext (core : Fin 192) (mac : Fin 2)
  /-- VEXTS (R111) -/
  | vexts (core : Fin 192) (mac : Fin 2)
  /-- VEXTR (R111) -/
  | vextr (core : Fin 192) (mac : Fin 2)
  /-- VEXTRS (R111) -/
  | vextrs (core : Fin 192) (mac : Fin 2)
  /-- VADD (R134) -/
  | vadd (core : Fin 192) (mac : Fin 2)
  /-- VADDS (R134) -/
  | vadds (core : Fin 192) (mac : Fin 2)
  /-- VSUB (R134) -/
  | vsub (core : Fin 192) (mac : Fin 2)
  /-- VSUBS (R134) -/
  | vsubs (core : Fin 192) (mac : Fin 2)
  /-- VMULQ (R134) -/
  | vmulq (core : Fin 192) (mac : Fin 2)
  /-- VSHR (R134) -/
  | vshr (core : Fin 192) (mac : Fin 2)
  /-- VSHL (R134) -/
  | vshl (core : Fin 192) (mac : Fin 2)
  /-- VSHLS (R134) -/
  | vshls (core : Fin 192) (mac : Fin 2)
  /-- VAND (R134) -/
  | vand (core : Fin 192) (mac : Fin 2)
  /-- VOR (R134) -/
  | vor (core : Fin 192) (mac : Fin 2)
  /-- VXOR (R134) -/
  | vxor (core : Fin 192) (mac : Fin 2)
  /-- VMAX (R134) -/
  | vmax (core : Fin 192) (mac : Fin 2)
  /-- VMIN (R134) -/
  | vmin (core : Fin 192) (mac : Fin 2)
  /-- VABS (R134) -/
  | vabs (core : Fin 192) (mac : Fin 2)
  /-- VNEG (R134) -/
  | vneg (core : Fin 192) (mac : Fin 2)
  /-- VCONJ (R134) -/
  | vconj (core : Fin 192) (mac : Fin 2)
  /-- VSWAPIQ (R134) -/
  | vswapiq (core : Fin 192) (mac : Fin 2)
  /-- VCMPGT (R134) -/
  | vcmpgt (core : Fin 192) (mac : Fin 2)
  /-- VCMPEQ (R134) -/
  | vcmpeq (core : Fin 192) (mac : Fin 2)
  /-- VSEL (R134) -/
  | vsel (core : Fin 192) (mac : Fin 2)
  /-- VALIGN (R134) -/
  | valign (core : Fin 192) (mac : Fin 2)
  /-- VBCAST (R134) -/
  | vbcast (core : Fin 192) (mac : Fin 2)
  /-- VMOV (R134) -/
  | vmov (core : Fin 192) (mac : Fin 2)
  /-- VNOP (R129) -/
  | vnop (core : Fin 192) (mac : Fin 2)
  /-- VLD (R136) -/
  | vld (core : Fin 192)
  /-- VST (R136) -/
  | vst (core : Fin 192)
  /-- VLDST (R136) -/
  | vldst (core : Fin 192)
  /-- VLDBC (R136) -/
  | vldbc (core : Fin 192)
  /-- LDW (R136) -/
  | ldw (core : Fin 192)
  /-- LDH (R136) -/
  | ldh (core : Fin 192)
  /-- LDHU (R136) -/
  | ldhu (core : Fin 192)
  /-- STW (R136) -/
  | stw (core : Fin 192)
  /-- STH (R136) -/
  | sth (core : Fin 192)
  /-- CMUQ (R122) -/
  | cmuq (core : Fin 192)
  /-- AADD (R106) -/
  | aadd (core : Fin 192)
  /-- LNOP (R129) -/
  | lnop (core : Fin 192)
  /-- SADD (R137) -/
  | sadd (core : Fin 192)
  /-- SSUB (R137) -/
  | ssub (core : Fin 192)
  /-- SMUL (R137) -/
  | smul (core : Fin 192)
  /-- SAND (R137) -/
  | sand (core : Fin 192)
  /-- SOR (R137) -/
  | sor (core : Fin 192)
  /-- SXOR (R137) -/
  | sxor (core : Fin 192)
  /-- SSHL (R137) -/
  | sshl (core : Fin 192)
  /-- SSHR (R137) -/
  | sshr (core : Fin 192)
  /-- SSHRU (R137) -/
  | sshru (core : Fin 192)
  /-- SSLT (R137) -/
  | sslt (core : Fin 192)
  /-- SSLTU (R137) -/
  | ssltu (core : Fin 192)
  /-- SMIN (R137) -/
  | smin (core : Fin 192)
  /-- SMAX (R137) -/
  | smax (core : Fin 192)
  /-- SADDI (R137) -/
  | saddi (core : Fin 192)
  /-- SMOVI (R137) -/
  | smovi (core : Fin 192)
  /-- SMOVHI (R137) -/
  | smovhi (core : Fin 192)
  /-- MOVM (R137) -/
  | movm (core : Fin 192)
  /-- MOVLC (R137) -/
  | movlc (core : Fin 192)
  /-- MOVL (R137) -/
  | movl (core : Fin 192)
  /-- MOVP (R137) -/
  | movp (core : Fin 192)
  /-- MOVA (R137) -/
  | mova (core : Fin 192)
  /-- MOVB (R137) -/
  | movb (core : Fin 192)
  /-- MOVS (R137) -/
  | movs (core : Fin 192)
  /-- SATCLR (R137) -/
  | satclr (core : Fin 192)
  /-- BEQ (R132) -/
  | beq (core : Fin 192)
  /-- BNE (R132) -/
  | bne (core : Fin 192)
  /-- BLT (R132) -/
  | blt (core : Fin 192)
  /-- BGE (R132) -/
  | bge (core : Fin 192)
  /-- J (R132) -/
  | j (core : Fin 192)
  /-- JAL (R137) -/
  | jal (core : Fin 192)
  /-- JR (R137) -/
  | jr (core : Fin 192)
  /-- BPANY (R137) -/
  | bpany (core : Fin 192)
  /-- BPNONE (R137) -/
  | bpnone (core : Fin 192)
  /-- CSTEP (R115) -/
  | cstep (core : Fin 192)
  /-- REP (R138) -/
  | rep (core : Fin 192)
  /-- CTURN (R115) -/
  | cturn (core : Fin 192)
  /-- TAKE (R116) -/
  | take (core : Fin 192)
  /-- TAKE_WAKE (R116) -/
  | takeWake (core : Fin 192)
  /-- DONE (R117) -/
  | done (core : Fin 192)
  /-- FENCE (R109) -/
  | fence (core : Fin 192)
  /-- TRAP (R120) -/
  | trap (core : Fin 192)
  /-- CMUW (R122) -/
  | cmuw (core : Fin 192)
  /-- SNOP (R129) -/
  | snop (core : Fin 192)
  /-- ILLEGAL (R120) -/
  | illegal (core : Fin 192)
  /-- REMOTE_LOAD_RETURN (R108) -/
  | remoteLoadReturn (core : Fin 192)
  /-- STORE_ACK (R108) -/
  | storeAck (core : Fin 192)
  /-- HANG (R121) -/
  | hang (core : Fin 192)
  /-- HALT_REQ (R112) -/
  | haltReq (req : Fin 14) (sel : BitVec 10) (value : Word)
  /-- CORE_HALT (R112) -/
  | coreHalt (core : Fin 192)
  /-- STEP (R112) -/
  | step (req : Fin 14) (sel : BitVec 10)
  /-- CORE_EN_WRITE (R118) -/
  | coreEnWrite (req : Fin 14) (sel : BitVec 10) (value : Word)
  /-- CMU_COMMAND_START (R122) -/
  | cmuCommandStart (course : Fin 24)
  /-- MATMUL (R123) -/
  | matmul (course : Fin 24)
  /-- MATMUL_H (R123) -/
  | matmulH (course : Fin 24)
  /-- GRAM (R123) -/
  | gram (course : Fin 24)
  /-- CHOL (R123) -/
  | chol (course : Fin 24)
  /-- TRSV_L (R123) -/
  | trsvL (course : Fin 24)
  /-- TRSV_LH (R123) -/
  | trsvLh (course : Fin 24)
  /-- CHOL_SOLVE (R123) -/
  | cholSolve (course : Fin 24)
  /-- CMU_NO_OPERATION (R122) -/
  | cmuNoOperation (course : Fin 24)
  /-- CMU_STATUS_WRITE (R122) -/
  | cmuStatusWrite (course : Fin 24)
  /-- LDPC_DECODE (R153) -/
  | ldpcDecode (engine : Fin 16)
  /-- LDPC_ENCODE (R163) -/
  | ldpcEncode (engine : Fin 8)
  /-- CRC (R164) -/
  | crc (engine : Fin 8)
  /-- POLAR_DECODE (R165) -/
  | polarDecode (engine : Fin 4)
  /-- POLAR_ENCODE (R165) -/
  | polarEncode (engine : Fin 4)
  /-- TURBO_DECODE (R166) -/
  | turboDecode (engine : Fin 4)
  /-- TURBO_ENCODE (R167) -/
  | turboEncode (engine : Fin 4)
  /-- HARQ_COMBINE (R160) -/
  | harqCombine (engine : Fin 8)
  /-- JOB_TYPE_MISMATCH (R145) -/
  | jobTypeMismatch (engine : Fin 40)
  /-- JOB_END (R147) -/
  | jobEnd (engine : Fin 40)
  /-- ENGINE_HANG (R170) -/
  | engineHang (engine : Fin 40)
  /-- ENGINE_RESET_DONE (R170) -/
  | engineResetDone (engine : Fin 40)
  /-- TAKE_EN_WRITE (R144) -/
  | takeEnWrite (req : Fin 14) (cls : Fin 5) (sel : BitVec 10) (value : Word)
  /-- UCODE_LOAD_DONE (R172) -/
  | ucodeLoadDone (engine : Fin 40)
  /-- UCODE_SWITCH (R172) -/
  | ucodeSwitch (engine : Fin 40) (pass : Bool) (micros : Word)
  /-- DQUEUE_POST (R176) -/
  | dqueuePost (req : Fin 14) (queue : Fin 256) (value : Word)
  /-- POST_ACCEPT (R178) -/
  | postAccept
  /-- POST_READ (R176) -/
  | postRead (req : Fin 14) (queue : Fin 256)
  /-- KEYSTONE_SET_COUNT (R180) -/
  | keystoneSetCount (req : Fin 14) (block : Fin 32) (value : Word)
  /-- KEYSTONE_SET_RELOAD (R180) -/
  | keystoneSetReload (req : Fin 14) (block : Fin 32) (value : Word)
  /-- KEYSTONE_DEC (R180) -/
  | keystoneDec (req : Fin 14) (block : Fin 32) (value : Word)
  /-- TELLER_FILL (R184) -/
  | tellerFill
  /-- SLOT_AGE_RECLAIM (R188) -/
  | slotAgeReclaim (unit : Fin 232)
  /-- TASK_COMPLETION (R189) -/
  | taskCompletion (index : BitVec 14) (cause : BitVec 4)
  /-- DISP_CANCEL (R192) -/
  | dispCancel (req : Fin 14) (value : Word)
  /-- DQUEUE_CLR_MAX (R6) -/
  | dqueueClrMax (req : Fin 14) (sel : BitVec 10)
  /-- DQUEUE_CLR_HIST (R6) -/
  | dqueueClrHist (req : Fin 14) (sel : BitVec 10)
  /-- TELLER_CLR_HIST (R6) -/
  | tellerClrHist (req : Fin 14) (sel : BitVec 10)
  /-- METER_STEP (R198) -/
  | meterStep (units : List Nat) (others : List Nat)
  /-- METER_FAULT (R199) -/
  | meterFault (point : Fin 48) (range : Bool)
  /-- METER_REFERENCE_CHECK (R199) -/
  | meterReferenceCheck (point : Fin 48) (within : Bool)
  /-- PERIOD_CLOSE (R208) -/
  | periodClose (actual nominal : Nat) (grid : Bool)
  /-- ADJUST (R202) -/
  | adjust (req : Fin 14) (sel : BitVec 10) (value : Word)
  /-- ACCOUNT_CLR_STATS (R6) -/
  | accountClrStats (req : Fin 14) (sel : BitVec 10)
  /-- DOMAIN_PARK (R210) -/
  | domainPark (domain : Fin 78)
  /-- DOMAIN_UNPARK (R210) -/
  | domainUnpark (domain : Fin 78)
  /-- LEAF_GRANT (R220) -/
  | leafGrant
  /-- LEAF_WRITE_DONE (R220) -/
  | leafWriteDone
  /-- VAULT_ENABLE (R219) -/
  | vaultEnable (req : Fin 14) (sel : BitVec 10) (value : Word)
  /-- VAULT_GEOMETRY_WRITE (R219) -/
  | vaultGeometryWrite (req : Fin 14) (sel : BitVec 10) (which : Fin 3) (value : Word)
  /-- TRIGGER (R224) -/
  | trigger (req : Fin 14) (sel : BitVec 10) (value : Word)
  /-- PIN_TRIGGER (R224) -/
  | pinTrigger (pin : Fin 32) (rising : Bool)
  /-- TRIGGER_GRANT (R225) -/
  | triggerGrant
  /-- REGION_RELEASE (R226) -/
  | regionRelease (req : Fin 14) (sel : BitVec 10) (value : Word)
  /-- TALLY_AGC_BLOCK (R229) -/
  | tallyAgcBlock (detector : Fin 32)
  /-- TALLY_DETECTION (R231) -/
  | tallyDetection (detector : Fin 32)
  /-- TALLY_SYMBOL (R233) -/
  | tallySymbol (detector : Fin 32)
  /-- TALLY_RECORD_ACKED (R234) -/
  | tallyRecordAcked (detector : Fin 32)
  /-- TPL_DATA (R235) -/
  | tplData (req : Fin 14) (sel : BitVec 10) (value : Word)
  /-- NI_INJECT (R249) -/
  | niInject (ni : Fin 64) (req : Option (Fin 15)) (more : Bool) (op : BitVec 3) (len : BitVec 5 × BitVec 3) (addr : BitVec 40)
    (data : List (Byte × Bool))
  /-- PACKET_EJECT (R245) -/
  | packetEject (ni : Fin 64) (src : BitVec 8) (cls : BitVec 2) (headerGood : Bool)
  /-- RESPONSE_ARRIVE (R241) -/
  | responseArrive (ni : Fin 64) (port : Fin 4) (txn : BitVec 10) (latency : Nat)
  /-- LINK_REPLAY (R251) -/
  | linkReplay (router : Fin 256) (dir : Fin 4)
  /-- LINK_FAILED (R252) -/
  | linkFailed (router : Fin 256) (dir : Fin 4)
  /-- NI_LINK_DOWN (R252) -/
  | niLinkDown (ni : Fin 64) (plane : Fin 4) (position : Fin 64) (dir : Fin 4)
  /-- DETOUR (R252) -/
  | detour (ni : Fin 64) (plane : Fin 4) (position : Fin 64) (dir : Fin 4)
  /-- TXN_TIMEOUT (R251) -/
  | txnTimeout (ni : Fin 64) (port : Fin 4) (txn : BitVec 10)
  /-- FENCE_REQ (R254) -/
  | fenceReq (req : Fin 14) (ni : Fin 64) (port : BitVec 2)
  /-- UNFENCE_REQ (R257) -/
  | unfenceReq (req : Fin 14) (ni : Fin 64) (port : BitVec 2)
  /-- NI_FENCE (R255) -/
  | niFence (ni : Fin 64)
  /-- DRAIN_DONE (R255) -/
  | drainDone (dest : BitVec 8) (ni : Fin 64)
  /-- FORCE_DRAIN (R256) -/
  | forceDrain (dest : BitVec 8)
  /-- NI_UNFENCE (R257) -/
  | niUnfence (ni : Fin 64)
  /-- EPOCH_FLIP (R250) -/
  | epochFlip (req : Fin 14) (sel : BitVec 10)
  /-- COPY (R258) -/
  | copy (req : Fin 14) (sel : BitVec 10)
  /-- COPY_DONE (R258) -/
  | copyDone (ni : Fin 64)
  /-- ROUTE_HI_WRITE (R250) -/
  | routeHiWrite (req : Fin 14) (sel : BitVec 10) (value : Word)
  /-- IN_SERVICE_WRITE (R259) -/
  | inServiceWrite (req : Fin 14) (sel : BitVec 10) (value : Word)
  /-- LINK_EN_WRITE (R259) -/
  | linkEnWrite (req : Fin 14) (sel : BitVec 10) (value : Word)
  /-- LINK_RETRAIN_DONE (R259) -/
  | linkRetrainDone (router : Fin 256) (dir : Fin 4) (pass : Bool)
  /-- NI_CLR_HIST (R260) -/
  | niClrHist (req : Fin 14) (sel : BitVec 10)
  /-- NI_CLR_BYTES (R260) -/
  | niClrBytes (req : Fin 14) (sel : BitVec 10)
  /-- START (R264) -/
  | start (req : Fin 14) (sel : BitVec 10)
  /-- DMA_ABORT (R264) -/
  | dmaAbort (req : Fin 14) (sel : BitVec 10)
  /-- RESUME (R279) -/
  | resume (req : Fin 14) (sel : BitVec 10)
  /-- DMA_END (R265) -/
  | dmaEnd (ch : Fin 128)
  /-- MOVE (R268) -/
  | move (ch : Fin 128)
  /-- MOVEC (R270) -/
  | movec (ch : Fin 128)
  /-- LOOP (R271) -/
  | loop (ch : Fin 128)
  /-- ENDLOOP (R271) -/
  | endloop (ch : Fin 128)
  /-- WAIT_EVENT (R272) -/
  | waitEvent (ch : Fin 128)
  /-- WAIT_REQ (R272) -/
  | waitReq (ch : Fin 128)
  /-- WAIT_TIME (R272) -/
  | waitTime (ch : Fin 128)
  /-- WAIT_KEY (R272) -/
  | waitKey (ch : Fin 128)
  /-- DMA_WAIT_MET (R272) -/
  | dmaWaitMet (ch : Fin 128)
  /-- SIGNAL_EVENT (R274) -/
  | signalEvent (ch : Fin 128)
  /-- SIGNAL_KEY (R274) -/
  | signalKey (ch : Fin 128)
  /-- SIGNAL_JOURNAL (R274) -/
  | signalJournal (ch : Fin 128)
  /-- SIGNAL_IRQ (R274) -/
  | signalIrq (ch : Fin 128)
  /-- SIGNAL_RING (R275) -/
  | signalRing (ch : Fin 128)
  /-- SETPTR_SET (R267) -/
  | setptrSet (ch : Fin 128)
  /-- SETPTR_ADD (R267) -/
  | setptrAdd (ch : Fin 128)
  /-- SETPTR_LOAD (R267) -/
  | setptrLoad (ch : Fin 128)
  /-- DMA_NOP (R265) -/
  | dmaNop (ch : Fin 128)
  /-- BAD_OP (R266) -/
  | badOp (ch : Fin 128)
  /-- PACED_BURST (R269) -/
  | pacedBurst (ch : Fin 128) (withdrawn : Bool)
  /-- DMA_WRITE_ACK (R274) -/
  | dmaWriteAck (ch : Fin 128)
  /-- BUS_ERROR (R278) -/
  | busError (engine : Fin 4)
  /-- DMA_FETCH_RETURN (R277) -/
  | dmaFetchReturn (ch : Fin 128)
  /-- EVENT_SET (R272) -/
  | eventSet (req : Fin 14) (sel : BitVec 10) (word : Fin 2) (value : Word)
  /-- EVENT_CLR (R272) -/
  | eventClr (req : Fin 14) (sel : BitVec 10) (word : Fin 2) (value : Word)
  /-- REQ_SW_WRITE (R273) -/
  | reqSwWrite (req : Fin 14) (sel : BitVec 10) (word : Fin 2) (value : Word)
  /-- REG_HI_WRITE (R267) -/
  | regHiWrite (req : Fin 14) (sel : BitVec 10) (value : Word)
  /-- DATA_RING_HEAD (R275) -/
  | dataRingHead (fn : Fin 16) (ring : Fin 64) (value : BitVec 16)
  /-- SCRUB_READ (R295) -/
  | scrubRead (scrubber : Fin 44)
  /-- SCRUB_REWRITE (R296) -/
  | scrubRewrite (scrubber : Fin 44)
  /-- REPAIRED (R299) -/
  | repaired (entry : Fin 256)
  /-- RAW_READ (R302) -/
  | rawRead (req : Fin 14) (cls : BitVec 8) (sel : BitVec 10) (skip : Bool)
  /-- RAW_WRITE (R302) -/
  | rawWrite (req : Fin 14) (cls : BitVec 8) (sel : BitVec 10) (skip : Bool)
  /-- DECODED_READ (R302) -/
  | decodedRead (req : Fin 14) (cls : BitVec 8) (sel : BitVec 10) (skip : Bool)
  /-- CLR_COUNTS (R302) -/
  | clrCounts (req : Fin 14) (cls : BitVec 8) (sel : BitVec 10)
  /-- CLR_ERASE (R290) -/
  | clrErase (req : Fin 14) (cls : BitVec 8) (sel : BitVec 10)
  /-- PROTO_WRITE (R308) -/
  | protoWrite (req : Fin 14) (sel : BitVec 10) (value : Word)
  /-- SWITCHED (R308) -/
  | switched (quad : Fin 12)
  /-- RECAL_GO (R312) -/
  | recalGo (req : Fin 14) (sel : BitVec 10) (value : Word)
  /-- RECAL_DONE (R312) -/
  | recalDone (lane : Fin 48) (line : Bool)
  /-- ADAPT_WINDOW (R311) -/
  | adaptWindow (lane : Fin 48) (levels : List Nat) (transitions : Nat) (spoiled : Bool)
  /-- TX_EN_WRITE (R320) -/
  | txEnWrite (req : Fin 14) (sel : BitVec 10) (value : Word)
  /-- AHNENT_TX_MULTIFRAME (R316) -/
  | ahnentTxMultiframe (lane : Fin 48)
  /-- AHNENT_RX_MULTIFRAME (R317) -/
  | ahnentRxMultiframe (lane : Fin 48) (blocks : List (BitVec 66))
  /-- AHNENT_TRAIN_DONE (R320) -/
  | ahnentTrainDone (lane : Fin 48) (rx : Bool)
  /-- AHNENT_ALIGN_TIMEOUT (R320) -/
  | ahnentAlignTimeout (lane : Fin 48)
  /-- IDLE_ENTER (R321) -/
  | idleEnter (lane : Fin 48)
  /-- IDLE_EXIT (R321) -/
  | idleExit (lane : Fin 48)
  /-- AHNENT_RX_IDLE (R322) -/
  | ahnentRxIdle (lane : Fin 48)
  /-- USER_CW (R319) -/
  | userCw (req : Fin 14) (sel : BitVec 10) (value : Word)
  /-- AHNENT_ACTIVE_WRITE (R323) -/
  | ahnentActiveWrite (req : Fin 14) (sel : BitVec 10) (value : Word)
  /-- RX_CW_READ (R319) -/
  | rxCwRead (req : Fin 14) (sel : BitVec 10) (lane : Fin 4)
  /-- MAC_FRAME_RX (R328) -/
  | macFrameRx (mac : Fin 24) (frame : List Byte) (sub : BitVec 20) (corrected : Nat) (uncorrected : Nat)
  /-- RX_DESC_DONE (R343) -/
  | rxDescDone (ring : Fin 256)
  /-- MAC_TX_GRANT (R346) -/
  | macTxGrant (mac : Fin 24) (sub : BitVec 20)
  /-- MAC_TX_DONE (R344) -/
  | macTxDone (mac : Fin 24)
  /-- PAUSE_EXPIRE (R348) -/
  | pauseExpire (mac : Fin 24) (state : Fin 9)
  /-- PAUSE_BREAK (R349) -/
  | pauseBreak (mac : Fin 24) (state : Fin 9)
  /-- PAUSE_BREAK_END (R349) -/
  | pauseBreakEnd (mac : Fin 24) (state : Fin 9)
  /-- PFC_XOFF (R350) -/
  | pfcXoff (mac : Fin 24) (prio : Fin 8)
  /-- PFC_REPEAT (R350) -/
  | pfcRepeat (mac : Fin 24) (prio : Fin 8)
  /-- MAC_LINK_LOSS (R351) -/
  | macLinkLoss (mac : Fin 24) (localFault : Bool) (remoteFault : Bool)
  /-- ETH_RING_TAIL (R341) -/
  | ethRingTail (req : Fin 14) (sel : BitVec 10) (bar4 : Option (Fin 16)) (value : Word)
  /-- FLOW_DATA_WRITE (R331) -/
  | flowDataWrite (req : Fin 14) (sel : BitVec 10) (w : Fin 8) (value : Word)
  /-- FLOW_CLR_STATS (R6) -/
  | flowClrStats (req : Fin 14) (sel : BitVec 10) (value : Word)
  /-- MAC_ACTIVE_WRITE (R351) -/
  | macActiveWrite (req : Fin 14) (sel : BitVec 10) (value : Word)
  /-- STEP_GO (R361) -/
  | stepGo (req : Fin 14) (sel : BitVec 10) (value : Word)
  /-- FRAME_OFFSET_WRITE (R361) -/
  | frameOffsetWrite (req : Fin 14) (sel : BitVec 10) (sfn : Bool) (value : Word)
  /-- OFFSET_GO (R363) -/
  | offsetGo (req : Fin 14) (sel : BitVec 10) (value : Word)
  /-- PPS_IN_EDGE (R362) -/
  | ppsInEdge (sub : BitVec 10)
  /-- SERVO_HOLDOVER (R363) -/
  | servoHoldover (tb : Fin 4)
  /-- SERVO_SOURCE_WRITE (R363) -/
  | servoSourceWrite (req : Fin 14) (sel : BitVec 10) (value : Word)
  /-- REF_LOST (R364) -/
  | refLost
  /-- REF_RESTORED (R364) -/
  | refRestored
  /-- EDGE_PUSH (R369) -/
  | edgePush (req : Fin 14) (sel : BitVec 10) (value : Word)
  /-- TDD_EDGE_FIRE (R369) -/
  | tddEdgeFire (pin : Fin 16)
  /-- CLR_QUEUE (R369) -/
  | clrQueue (req : Fin 14) (sel : BitVec 10) (value : Word)
  /-- PPS_OUT_RISE (R370) -/
  | ppsOutRise
  /-- PPS_OUT_FALL (R370) -/
  | ppsOutFall
  /-- TIME_SEC_LO_READ (R356) -/
  | timeSecLoRead (req : Fin 14) (sel : BitVec 10)
  /-- CREDIT_LO_READ (R203) -/
  | creditLoRead (req : Fin 14) (sel : BitVec 10)
  /-- BAR0_READ (R379) -/
  | bar0Read (offset : BitVec 28) (dwords : Nat)
  /-- BAR0_WRITE (R379) -/
  | bar0Write (offset : BitVec 28) (dwords : List (Word × BitVec 4))
  /-- BAR2_READ (R380) -/
  | bar2Read (offset : BitVec 36) (bytes : Nat)
  /-- BAR2_WRITE (R380) -/
  | bar2Write (offset : BitVec 36) (data : List Byte) (ep : Bool)
  /-- MSIX_SEND (R381) -/
  | msixSend (vector : Fin 2048)
  /-- MSIX_ALLOCATION_WRITE (R381) -/
  | msixAllocationWrite (req : Fin 14) (sel : BitVec 10) (value : Word)
  /-- PCIE_READ_COMPLETION (R382) -/
  | pcieReadCompletion (fn : Fin 16) (addr : BitVec 64) (data : List Byte) (ep : Bool)
  /-- CPL_TIMEOUT (R383) -/
  | cplTimeout (fn : Fin 16) (addr : BitVec 64) (kind : Fin 3)
  /-- PERST_N_LOW (R375) -/
  | perstNLow
  /-- PCIE_LINK_UP (R375) -/
  | pcieLinkUp (speed : BitVec 3) (width : BitVec 5)
  /-- PCIE_LINK_DOWN (R375) -/
  | pcieLinkDown
  /-- CORE_FAULT (R389) -/
  | coreFault (core : Fin 192)
  /-- ENGINE_FAULT (R390) -/
  | engineFault (engine : Fin 40)
  /-- UNIT_PARITY (R393) -/
  | unitParity (entry : Fin 9) (index : Nat) (again : Bool)
  /-- FAULT_CLR_MAX (R6) -/
  | faultClrMax (req : Fin 14)
  /-- FAULT_CLR_COUNTS (R6) -/
  | faultClrCounts (req : Fin 14)
  /-- CNT_SEL_WRITE (R401) -/
  | cntSelWrite (req : Fin 14) (cls : BitVec 8) (sel : BitVec 10) (counter : Fin 8) (value : Word)
  /-- CNT_CLR (R401) -/
  | cntClr (req : Fin 14) (cls : BitVec 8) (sel : BitVec 10) (value : Word)
  /-- COLLECT_SWEEP (R405) -/
  | collectSweep (late : Bool)
  /-- SAMPLE_RING_WRITE (R406) -/
  | sampleRingWrite (course : Fin 24)
  /-- MARK (R407) -/
  | mark (req : Fin 14) (value : Word)
  /-- TRACE_ENABLE (R407) -/
  | traceEnable (req : Fin 14) (value : Word)
  /-- TRACE_PACKET_SEND (R407) -/
  | tracePacketSend
  /-- REF_MISSING (R412) -/
  | refMissing
  /-- ROOT_REF_RESTORED (R412) -/
  | rootRefRestored
  /-- AVS_UPDATE (R416) -/
  | avsUpdate (millivolts : Nat)
  /-- AVS_ALARM (R417) -/
  | avsAlarm (domain : Fin 78)
  /-- AVS_SETTLED (R417) -/
  | avsSettled (domain : Fin 78)
  /-- POWERED_OFF (R414) -/
  | poweredOff (domain : Fin 78)
  /-- POWER_UP_GRANT (R415) -/
  | powerUpGrant (monitorsPass : Bool)
  /-- POWERED_UP (R414) -/
  | poweredUp (domain : Fin 78)
  /-- KEEP_RUN_WRITE (R21) -/
  | keepRunWrite (req : Fin 14) (sel : BitVec 10) (value : Word)
  /-- KEEP_CORE_WFI (R65) -/
  | keepCoreWfi (core : Fin 8)
  /-- COURSE_FENCE_ALLOWANCE (R396) -/
  | courseFenceAllowance (course : Fin 24)
  /-- TDD_OUT_SLOT_START (R368) -/
  | tddOutSlotStart (pin : Fin 16)
  /-- PERST_N_HIGH (R375) -/
  | perstNHigh
  /-- PCIE_CONFIG_WRITE (R376) -/
  | pcieConfigWrite (fn : Fin 16) (bme : Bool) (msixEn : Bool) (timeout : BitVec 4) (ats : Bool)
  /-- BAR4_RING_PAGE_WRITE (R31) -/
  | bar4RingPageWrite (fn : Fin 16) (offset : BitVec 16) (value : Word)
  /-- ATS_INVALIDATION (R377) -/
  | atsInvalidation (page : BitVec 64) (bytes : Nat)
  /-- MAC_LINK_UP (R352) -/
  | macLinkUp (mac : Fin 24)
  /-- CDR_LOSS (R311) -/
  | cdrLoss (lane : Fin 48)
  /-- FAULT_STATE_DISAGREEMENT (R394) -/
  | faultStateDisagreement
  /-- VDD_IO18_LOW (R425) -/
  | vddIo18Low
deriving DecidableEq, Repr

end Sys2Proof
end

