-- ==== Sys2Proof/Decode.lean ====
section
/-! DEFINITION. The commands that words spell. spec/opcode_table.json gives no row of this block any bits: its commands are
register accesses, packets read from the rings, events at pins and links, and steps of the device's own engines. What a
word read by the device means (a packet, a DMA instruction, a bundle, a CMU command) is decoded by the command that reads
it. -/
namespace Sys2Proof

/-- The command spelt by `w`: none, since no row of the table gives bits. -/
def decodeTableWord (_nbits _w : Nat) : Option Instr := none

end Sys2Proof
end

