-- ==== Sys2Proof/Machine/Regs.lean ====
section
/-! DEFINITION. The register tables of spec/: for every CSR class (R14) its registers, their fields, types (R6) and
Reset values (R11), and one name for every field (`Reg.<CLASS>.<REGISTER>_<FIELD>`). -/
namespace Sys2Proof.Machine

/-- The field types of R6. -/
inductive FieldTy | rw | ro | wo | w1c | w1s | rws
deriving DecidableEq, Repr

/-- One field of a register: its type, its bits [msb:lsb] and its Reset value. -/
structure FieldDef where
  ty : FieldTy
  msb : Nat
  lsb : Nat
  reset : Nat
deriving DecidableEq, Repr

/-- One register (or `count` registers `stride` bytes apart): its offset, the modes whose codes (R54) are set in
`modes` accept writes, its fields. -/
structure RegDef where
  off : Nat
  stride : Nat
  count : Nat
  modes : Nat
  fields : List FieldDef
deriving DecidableEq, Repr

/-- A field of a class, by class number, register offset and bits. -/
structure Field where
  cls : Nat
  off : Nat
  msb : Nat
  lsb : Nat
deriving DecidableEq, Repr

/-- Modes Raising, Service, Witness, Thrift and Mending (the "common modes"). -/
abbrev commonModes : Nat := 124

/-! Class 0x00 SYS, chapter 03/18. -/
namespace Reg.SYS
/-- Class number (R14). -/
abbrev cls : Nat := 0x00
abbrev MODE_CODE : Field := ⟨0x00, 0x000, 2, 0⟩
abbrev MODE_TRANSITION : Field := ⟨0x00, 0x000, 3, 3⟩
abbrev MODE_TARGET : Field := ⟨0x00, 0x000, 6, 4⟩
abbrev MODE_RETURN_MODE : Field := ⟨0x00, 0x000, 10, 8⟩
abbrev MODE_CAUSE : Field := ⟨0x00, 0x000, 19, 16⟩
abbrev MODE_REQ_TARGET : Field := ⟨0x00, 0x004, 2, 0⟩
abbrev MODE_RESULT_RESULT : Field := ⟨0x00, 0x008, 1, 0⟩
abbrev MODE_RESULT_REQUESTER : Field := ⟨0x00, 0x008, 5, 2⟩
abbrev MODE_RESULT_TARGET : Field := ⟨0x00, 0x008, 10, 8⟩
abbrev MODE_RESULT_DECISIONS : Field := ⟨0x00, 0x008, 31, 16⟩
abbrev RAISE_STATUS_DVORYS_UP : Field := ⟨0x00, 0x00C, 0, 0⟩
abbrev RAISE_STATUS_TIMING_LOCK : Field := ⟨0x00, 0x00C, 1, 1⟩
abbrev RAISE_STATUS_AVS_CAL : Field := ⟨0x00, 0x00C, 2, 2⟩
abbrev RAISE_STATUS_METERS_CAL : Field := ⟨0x00, 0x00C, 3, 3⟩
abbrev RAISE_STATUS_BULK_TRAINED : Field := ⟨0x00, 0x00C, 4, 4⟩
abbrev RAISE_STATUS_BULK_FILLED : Field := ⟨0x00, 0x00C, 5, 5⟩
abbrev RAISE_STATUS_LANES_CAL : Field := ⟨0x00, 0x00C, 6, 6⟩
abbrev RAISE_STATUS_PCIE_UP : Field := ⟨0x00, 0x00C, 7, 7⟩
abbrev RAISE_STATUS_READY : Field := ⟨0x00, 0x00C, 8, 8⟩
abbrev BOOT_STATUS_BOOT_MODE : Field := ⟨0x00, 0x010, 1, 0⟩
abbrev BOOT_STATUS_BIST_RAN : Field := ⟨0x00, 0x010, 2, 2⟩
abbrev BOOT_STATUS_BIST_FAIL : Field := ⟨0x00, 0x010, 3, 3⟩
abbrev BOOT_STATUS_SLOT_USED : Field := ⟨0x00, 0x010, 4, 4⟩
abbrev BOOT_STATUS_FROM_HOST : Field := ⟨0x00, 0x010, 5, 5⟩
abbrev BOOT_STATUS_SLOT_A_RESULT : Field := ⟨0x00, 0x010, 8, 6⟩
abbrev BOOT_STATUS_SLOT_B_RESULT : Field := ⟨0x00, 0x010, 11, 9⟩
abbrev BOOT_STATUS_HOST_RESULT : Field := ⟨0x00, 0x010, 14, 12⟩
abbrev BOOT_STATUS_WAITING_HOST : Field := ⟨0x00, 0x010, 15, 15⟩
abbrev MENDING_CAUSE_FENCED_COUNT : Field := ⟨0x00, 0x014, 7, 0⟩
abbrev MENDING_CAUSE_LAST_CLASS : Field := ⟨0x00, 0x014, 15, 8⟩
abbrev MENDING_CAUSE_LAST_SELECTOR : Field := ⟨0x00, 0x014, 25, 16⟩
abbrev MENDING_CAUSE_AUTO : Field := ⟨0x00, 0x014, 26, 26⟩
abbrev FAULT_STATUS_RECOVERING : Field := ⟨0x00, 0x040, 0, 0⟩
abbrev FAULT_STATUS_IN_PROGRESS : Field := ⟨0x00, 0x040, 7, 4⟩
abbrev FAULT_STATUS_OVER_BOUND : Field := ⟨0x00, 0x040, 31, 16⟩
abbrev FAULT_LAST_CODE : Field := ⟨0x00, 0x044, 4, 0⟩
abbrev FAULT_LAST_CLASS : Field := ⟨0x00, 0x044, 15, 8⟩
abbrev FAULT_LAST_SELECTOR : Field := ⟨0x00, 0x044, 25, 16⟩
abbrev FAULT_DETECT_LO_DETECT : Field := ⟨0x00, 0x048, 31, 0⟩
abbrev FAULT_DETECT_HI_DETECT : Field := ⟨0x00, 0x04C, 31, 0⟩
abbrev FAULT_DURATION_DURATION : Field := ⟨0x00, 0x050, 31, 0⟩
abbrev FAULT_MAX_MAX : Field := ⟨0x00, 0x054, 31, 0⟩
abbrev FAULT_CLEAR_CLR_MAX : Field := ⟨0x00, 0x058, 0, 0⟩
abbrev FAULT_CLEAR_CLR_COUNTS : Field := ⟨0x00, 0x058, 1, 1⟩
abbrev FAULT_COUNT_COUNT (k : Nat) : Field := ⟨0x00, 0x080 + 0x4 * k, 31, 0⟩
end Reg.SYS

/-- The registers of class 0x00 SYS. -/
def regsSYS : List RegDef :=
  [⟨0x000, 0, 1, 252, [⟨.ro, 2, 0, 2⟩, ⟨.ro, 3, 3, 0⟩, ⟨.ro, 6, 4, 2⟩, ⟨.ro, 10, 8, 3⟩, ⟨.ro, 19, 16, 0⟩]⟩,
   ⟨0x004, 0, 1, commonModes, [⟨.wo, 2, 0, 0⟩]⟩,
   ⟨0x008, 0, 1, 252, [⟨.ro, 1, 0, 0⟩, ⟨.ro, 5, 2, 0⟩, ⟨.ro, 10, 8, 0⟩, ⟨.ro, 31, 16, 0⟩]⟩,
   ⟨0x00C, 0, 1, 252, [⟨.ro, 0, 0, 0⟩, ⟨.ro, 1, 1, 0⟩, ⟨.ro, 2, 2, 0⟩, ⟨.ro, 3, 3, 0⟩, ⟨.ro, 4, 4, 0⟩, ⟨.ro, 5, 5, 0⟩, ⟨.ro, 6, 6, 0⟩, ⟨.ro, 7, 7, 0⟩, ⟨.ro, 8, 8, 0⟩]⟩,
   ⟨0x010, 0, 1, 252, [⟨.ro, 1, 0, 0⟩, ⟨.ro, 2, 2, 0⟩, ⟨.ro, 3, 3, 0⟩, ⟨.ro, 4, 4, 0⟩, ⟨.ro, 5, 5, 0⟩, ⟨.ro, 8, 6, 0⟩, ⟨.ro, 11, 9, 0⟩, ⟨.ro, 14, 12, 0⟩, ⟨.ro, 15, 15, 0⟩]⟩,
   ⟨0x014, 0, 1, 252, [⟨.ro, 7, 0, 0⟩, ⟨.ro, 15, 8, 0⟩, ⟨.ro, 25, 16, 0⟩, ⟨.ro, 26, 26, 0⟩]⟩,
   ⟨0x040, 0, 1, 252, [⟨.ro, 0, 0, 0⟩, ⟨.ro, 7, 4, 0⟩, ⟨.ro, 31, 16, 0⟩]⟩,
   ⟨0x044, 0, 1, 252, [⟨.ro, 4, 0, 0⟩, ⟨.ro, 15, 8, 0⟩, ⟨.ro, 25, 16, 0⟩]⟩,
   ⟨0x048, 0, 1, 252, [⟨.ro, 31, 0, 0⟩]⟩,
   ⟨0x04C, 0, 1, 252, [⟨.ro, 31, 0, 0⟩]⟩,
   ⟨0x050, 0, 1, 252, [⟨.ro, 31, 0, 0⟩]⟩,
   ⟨0x054, 0, 1, 252, [⟨.ro, 31, 0, 0⟩]⟩] ++
  [⟨0x058, 0, 1, commonModes, [⟨.wo, 0, 0, 0⟩, ⟨.wo, 1, 1, 0⟩]⟩,
   ⟨0x080, 4, 14, 252, [⟨.ro, 31, 0, 0⟩]⟩]

/-! Class 0x01 JOURNAL, chapter 01. -/
namespace Reg.JOURNAL
/-- Class number (R14). -/
abbrev cls : Nat := 0x01
abbrev CTL_ENABLE : Field := ⟨0x01, 0x000, 0, 0⟩
abbrev CTL_IRQ_EN : Field := ⟨0x01, 0x000, 1, 1⟩
abbrev CTL_IRQ_LEVEL : Field := ⟨0x01, 0x000, 23, 8⟩
abbrev BASE_LO_BASE_LO : Field := ⟨0x01, 0x004, 31, 0⟩
abbrev BASE_HI_BASE_HI : Field := ⟨0x01, 0x008, 7, 0⟩
abbrev SIZE_LOG2_ENTRIES : Field := ⟨0x01, 0x00C, 4, 0⟩
abbrev WR_INDEX_WR_INDEX : Field := ⟨0x01, 0x010, 16, 0⟩
abbrev RD_INDEX_RD_INDEX : Field := ⟨0x01, 0x014, 16, 0⟩
abbrev STATUS_LAP : Field := ⟨0x01, 0x018, 0, 0⟩
abbrev STATUS_OVERRUN : Field := ⟨0x01, 0x018, 1, 1⟩
abbrev STATUS_OVERRUN_COUNT : Field := ⟨0x01, 0x018, 31, 16⟩
end Reg.JOURNAL

/-- The registers of class 0x01 JOURNAL. -/
def regsJOURNAL : List RegDef :=
  [⟨0x000, 0, 1, commonModes, [⟨.rw, 0, 0, 1⟩, ⟨.rw, 1, 1, 0⟩, ⟨.rw, 23, 8, 0x100⟩]⟩,
   ⟨0x004, 0, 1, commonModes, [⟨.rw, 31, 0, 0x3F00000⟩]⟩,
   ⟨0x008, 0, 1, commonModes, [⟨.rw, 7, 0, 0⟩]⟩,
   ⟨0x00C, 0, 1, commonModes, [⟨.rw, 4, 0, 0x10⟩]⟩,
   ⟨0x010, 0, 1, 252, [⟨.ro, 16, 0, 0⟩]⟩,
   ⟨0x014, 0, 1, commonModes, [⟨.rw, 16, 0, 0⟩]⟩,
   ⟨0x018, 0, 1, commonModes, [⟨.ro, 0, 0, 0⟩, ⟨.w1c, 1, 1, 0⟩, ⟨.ro, 31, 16, 0⟩]⟩]

/-! Class 0x02 CLK, chapter 20. -/
namespace Reg.CLK
/-- Class number (R14). -/
abbrev cls : Nat := 0x02
abbrev CTL_SPREAD : Field := ⟨0x02, 0x000, 1, 0⟩
abbrev STATUS_ROOT_LOCK : Field := ⟨0x02, 0x004, 0, 0⟩
abbrev STATUS_TIMING_LOCK : Field := ⟨0x02, 0x004, 1, 1⟩
abbrev STATUS_BULK_LOCK : Field := ⟨0x02, 0x004, 2, 2⟩
abbrev STATUS_REF_PRESENT : Field := ⟨0x02, 0x004, 3, 3⟩
abbrev STATUS_SPREAD_NOW : Field := ⟨0x02, 0x004, 5, 4⟩
abbrev RESET_REQ_KEY : Field := ⟨0x02, 0x008, 15, 0⟩
abbrev RESET_CAUSE_CAUSE : Field := ⟨0x02, 0x00C, 4, 0⟩
abbrev AVS_CTL_EN : Field := ⟨0x02, 0x010, 0, 0⟩
abbrev AVS_CTL_MARGIN : Field := ⟨0x02, 0x010, 7, 4⟩
abbrev AVS_CTL_ADDR : Field := ⟨0x02, 0x010, 30, 24⟩
abbrev AVS_STATUS_VOUT_MV : Field := ⟨0x02, 0x014, 9, 0⟩
abbrev AVS_STATUS_ALARMS : Field := ⟨0x02, 0x014, 31, 16⟩
end Reg.CLK

/-- The registers of class 0x02 CLK. -/
def regsCLK : List RegDef :=
  [⟨0x000, 0, 1, commonModes, [⟨.rw, 1, 0, 2⟩]⟩,
   ⟨0x004, 0, 1, commonModes, [⟨.ro, 0, 0, 0⟩, ⟨.ro, 1, 1, 0⟩, ⟨.ro, 2, 2, 0⟩, ⟨.ro, 3, 3, 0⟩, ⟨.ro, 5, 4, 0⟩]⟩,
   ⟨0x008, 0, 1, 252, [⟨.wo, 15, 0, 0⟩]⟩,
   ⟨0x00C, 0, 1, 252, [⟨.w1c, 4, 0, 1⟩]⟩,
   ⟨0x010, 0, 1, commonModes, [⟨.rw, 0, 0, 1⟩, ⟨.rw, 7, 4, 3⟩, ⟨.rw, 30, 24, 0x40⟩]⟩,
   ⟨0x014, 0, 1, commonModes, [⟨.ro, 9, 0, 0x2EE⟩, ⟨.ro, 31, 16, 0⟩]⟩]

/-! Class 0x03 PWR, chapter 20. -/
namespace Reg.PWR
/-- Class number (R14). -/
abbrev cls : Nat := 0x03
abbrev CTL_PARK_INHIBIT : Field := ⟨0x03, 0x000, 0, 0⟩
abbrev STATUS_STATE : Field := ⟨0x03, 0x004, 2, 0⟩
abbrev STATUS_FENCED : Field := ⟨0x03, 0x004, 3, 3⟩
abbrev STATUS_AVS_OK : Field := ⟨0x03, 0x004, 4, 4⟩
abbrev STATUS_CYCLES : Field := ⟨0x03, 0x004, 31, 16⟩
abbrev PARKS_PARKS : Field := ⟨0x03, 0x008, 31, 0⟩
end Reg.PWR

/-- The registers of class 0x03 PWR. -/
def regsPWR : List RegDef :=
  [⟨0x000, 0, 1, commonModes, [⟨.rw, 0, 0, 0⟩]⟩,
   ⟨0x004, 0, 1, commonModes, [⟨.ro, 2, 0, 3⟩, ⟨.ro, 3, 3, 0⟩, ⟨.ro, 4, 4, 0⟩, ⟨.ro, 31, 16, 0⟩]⟩,
   ⟨0x008, 0, 1, commonModes, [⟨.ro, 31, 0, 0⟩]⟩]

/-! Class 0x38 MORTAR_NI, chapter 11. -/
namespace Reg.MORTAR_NI
/-- Class number (R14). -/
abbrev cls : Nat := 0x38
abbrev CTL_EPOCH_FLIP : Field := ⟨0x38, 0x000, 0, 0⟩
abbrev CTL_COPY : Field := ⟨0x38, 0x000, 1, 1⟩
abbrev CTL_PAIR_HOLD_EN : Field := ⟨0x38, 0x000, 2, 2⟩
abbrev STATUS_EPOCH_CUR : Field := ⟨0x38, 0x004, 0, 0⟩
abbrev STATUS_COPY_BUSY : Field := ⟨0x38, 0x004, 1, 1⟩
abbrev STATUS_OLD_CLEAR : Field := ⟨0x38, 0x004, 2, 2⟩
abbrev STATUS_HOLDING : Field := ⟨0x38, 0x004, 3, 3⟩
abbrev STATUS_OUTSTANDING : Field := ⟨0x38, 0x004, 27, 16⟩
abbrev ROUTE_SEL_ENTRY : Field := ⟨0x38, 0x008, 7, 0⟩
abbrev ROUTE_SEL_BANK : Field := ⟨0x38, 0x008, 8, 8⟩
abbrev ROUTE_LO_ROUTE_LO : Field := ⟨0x38, 0x00C, 31, 0⟩
abbrev ROUTE_HI_ROUTE_HI : Field := ⟨0x38, 0x010, 7, 0⟩
abbrev ROUTE_HI_HOPS : Field := ⟨0x38, 0x010, 12, 8⟩
abbrev ROUTE_HI_INVALID : Field := ⟨0x38, 0x010, 13, 13⟩
abbrev FENCE_FENCED (k : Nat) : Field := ⟨0x38, 0x020 + 0x4 * k, 31, 0⟩
abbrev FENCE_REQ_PORT : Field := ⟨0x38, 0x040, 1, 0⟩
abbrev FENCE_REQ_FENCE : Field := ⟨0x38, 0x040, 8, 8⟩
abbrev FENCE_REQ_UNFENCE : Field := ⟨0x38, 0x040, 9, 9⟩
abbrev PORT_STATUS_PORTS : Field := ⟨0x38, 0x044, 31, 0⟩
abbrev DRAIN_LIMIT_LIMIT : Field := ⟨0x38, 0x048, 15, 0⟩
abbrev TXN_LIMIT_LIMIT : Field := ⟨0x38, 0x04C, 15, 0⟩
abbrev LATE_RESP_COUNT : Field := ⟨0x38, 0x050, 31, 0⟩
abbrev STAT_CFG_REQ : Field := ⟨0x38, 0x060, 3, 0⟩
abbrev STAT_CFG_UNIT : Field := ⟨0x38, 0x060, 12, 8⟩
abbrev LAT_HIST_BIN (k : Nat) : Field := ⟨0x38, 0x064 + 0x4 * k, 31, 0⟩
abbrev CLEAR_CLR_HIST : Field := ⟨0x38, 0x084, 0, 0⟩
abbrev CLEAR_CLR_BYTES : Field := ⟨0x38, 0x084, 1, 1⟩
abbrev INJ_LO_COUNT (k : Nat) : Field := ⟨0x38, 0x0A0 + 0x10 * k, 31, 0⟩
abbrev INJ_HI_COUNT (k : Nat) : Field := ⟨0x38, 0x0A4 + 0x10 * k, 15, 0⟩
abbrev EJ_LO_COUNT (k : Nat) : Field := ⟨0x38, 0x0A8 + 0x10 * k, 31, 0⟩
abbrev EJ_HI_COUNT (k : Nat) : Field := ⟨0x38, 0x0AC + 0x10 * k, 15, 0⟩
end Reg.MORTAR_NI

/-- The registers of class 0x38 MORTAR_NI. -/
def regsMORTAR_NI : List RegDef :=
  [⟨0x000, 0, 1, commonModes, [⟨.wo, 0, 0, 0⟩, ⟨.wo, 1, 1, 0⟩, ⟨.rw, 2, 2, 1⟩]⟩,
   ⟨0x004, 0, 1, 252, [⟨.ro, 0, 0, 0⟩, ⟨.ro, 1, 1, 0⟩, ⟨.ro, 2, 2, 1⟩, ⟨.ro, 3, 3, 0⟩, ⟨.ro, 27, 16, 0⟩]⟩,
   ⟨0x008, 0, 1, commonModes, [⟨.rw, 7, 0, 0⟩, ⟨.rw, 8, 8, 0⟩]⟩,
   ⟨0x00C, 0, 1, commonModes, [⟨.rw, 31, 0, 0⟩]⟩,
   ⟨0x010, 0, 1, commonModes, [⟨.rw, 7, 0, 0⟩, ⟨.rw, 12, 8, 0⟩, ⟨.ro, 13, 13, 0⟩]⟩,
   ⟨0x020, 4, 8, 252, [⟨.ro, 31, 0, 0⟩]⟩,
   ⟨0x040, 0, 1, commonModes, [⟨.wo, 1, 0, 0⟩, ⟨.wo, 8, 8, 0⟩, ⟨.wo, 9, 9, 0⟩]⟩,
   ⟨0x044, 0, 1, commonModes, [⟨.ro, 31, 0, 0⟩]⟩,
   ⟨0x048, 0, 1, commonModes, [⟨.rw, 15, 0, 0xA0⟩]⟩,
   ⟨0x04C, 0, 1, commonModes, [⟨.rw, 15, 0, 0x14⟩]⟩,
   ⟨0x050, 0, 1, commonModes, [⟨.ro, 31, 0, 0⟩]⟩,
   ⟨0x060, 0, 1, commonModes, [⟨.rw, 3, 0, 0⟩, ⟨.rw, 12, 8, 3⟩]⟩] ++
  [⟨0x064, 4, 8, commonModes, [⟨.ro, 31, 0, 0⟩]⟩,
   ⟨0x084, 0, 1, commonModes, [⟨.wo, 0, 0, 0⟩, ⟨.wo, 1, 1, 0⟩]⟩,
   ⟨0x0A0, 16, 4, 252, [⟨.ro, 31, 0, 0⟩]⟩,
   ⟨0x0A4, 16, 4, 252, [⟨.ro, 15, 0, 0⟩]⟩,
   ⟨0x0A8, 16, 4, 252, [⟨.ro, 31, 0, 0⟩]⟩,
   ⟨0x0AC, 16, 4, 252, [⟨.ro, 15, 0, 0⟩]⟩]

/-! Class 0x39 ROUTER, chapter 11. -/
namespace Reg.ROUTER
/-- Class number (R14). -/
abbrev cls : Nat := 0x39
abbrev CTL_IN_SERVICE : Field := ⟨0x39, 0x000, 0, 0⟩
abbrev CTL_LINK_EN : Field := ⟨0x39, 0x000, 4, 1⟩
abbrev CTL_REPLAY_LIMIT : Field := ⟨0x39, 0x000, 11, 8⟩
abbrev STATUS_EPOCH0 : Field := ⟨0x39, 0x004, 15, 0⟩
abbrev STATUS_EPOCH1 : Field := ⟨0x39, 0x004, 31, 16⟩
abbrev LINK_STATUS_LINKS : Field := ⟨0x39, 0x008, 7, 0⟩
abbrev REPLAYS_COUNT : Field := ⟨0x39, 0x00C, 31, 0⟩
abbrev VC_DEPTH_DEPTH : Field := ⟨0x39, 0x010, 15, 0⟩
end Reg.ROUTER

/-- The registers of class 0x39 ROUTER. -/
def regsROUTER : List RegDef :=
  [⟨0x000, 0, 1, commonModes, [⟨.rw, 0, 0, 1⟩, ⟨.rw, 4, 1, 0xF⟩, ⟨.rw, 11, 8, 4⟩]⟩,
   ⟨0x004, 0, 1, commonModes, [⟨.ro, 15, 0, 0⟩, ⟨.ro, 31, 16, 0⟩]⟩,
   ⟨0x008, 0, 1, commonModes, [⟨.ro, 7, 0, 0⟩]⟩,
   ⟨0x00C, 0, 1, commonModes, [⟨.ro, 31, 0, 0⟩]⟩,
   ⟨0x010, 0, 1, commonModes, [⟨.rw, 15, 0, 0⟩]⟩]

/-! Class 0x48 TREASURY, chapter 13. -/
namespace Reg.TREASURY
/-- Class number (R14). -/
abbrev cls : Nat := 0x48
abbrev CTL_ERASE_EN : Field := ⟨0x48, 0x000, 0, 0⟩
abbrev STATUS_ERASED : Field := ⟨0x48, 0x004, 0, 0⟩
abbrev STATUS_ERASED_COL : Field := ⟨0x48, 0x004, 4, 1⟩
abbrev STATUS_ROWS_LEFT : Field := ⟨0x48, 0x004, 17, 8⟩
abbrev STATUS_COLS_LEFT : Field := ⟨0x48, 0x004, 27, 18⟩
abbrev STATUS_REPAIRING : Field := ⟨0x48, 0x004, 28, 28⟩
abbrev CE_COUNT_COUNT : Field := ⟨0x48, 0x008, 31, 0⟩
abbrev UE_COUNT_COUNT : Field := ⟨0x48, 0x00C, 31, 0⟩
abbrev COL_CE_COUNT (k : Nat) : Field := ⟨0x48, 0x010 + 0x4 * k, 31, 0⟩
abbrev CLEAR_CLR_COUNTS : Field := ⟨0x48, 0x038, 0, 0⟩
abbrev CLEAR_CLR_ERASE : Field := ⟨0x48, 0x038, 1, 1⟩
abbrev SCRUB_PERIOD_MS : Field := ⟨0x48, 0x040, 15, 0⟩
abbrev SCRUB_FAST_FAST_MS : Field := ⟨0x48, 0x044, 15, 0⟩
abbrev SCRUB_FAST_FAST_EN : Field := ⟨0x48, 0x044, 16, 16⟩
abbrev SCRUB_STATUS_PASSES : Field := ⟨0x48, 0x048, 31, 0⟩
abbrev TEST_ADDR_LO_ADDR_LO : Field := ⟨0x48, 0x300, 31, 0⟩
abbrev TEST_ADDR_HI_ADDR_HI : Field := ⟨0x48, 0x304, 7, 0⟩
abbrev TEST_DATA_DATA (k : Nat) : Field := ⟨0x48, 0x308 + 0x4 * k, 31, 0⟩
abbrev TEST_CHECK_CHECK : Field := ⟨0x48, 0x318, 31, 0⟩
abbrev TEST_CTL_OP : Field := ⟨0x48, 0x31C, 1, 0⟩
abbrev TEST_CTL_SCRUB_SKIP : Field := ⟨0x48, 0x31C, 8, 8⟩
abbrev TEST_RESULT_OUTCOME : Field := ⟨0x48, 0x320, 2, 0⟩
abbrev TEST_RESULT_COLUMN : Field := ⟨0x48, 0x320, 6, 3⟩
abbrev TEST_SYND_SYND : Field := ⟨0x48, 0x324, 31, 0⟩
end Reg.TREASURY

/-- The registers of class 0x48 TREASURY. -/
def regsTREASURY : List RegDef :=
  [⟨0x000, 0, 1, commonModes, [⟨.rw, 0, 0, 1⟩]⟩,
   ⟨0x004, 0, 1, commonModes, [⟨.ro, 0, 0, 0⟩, ⟨.ro, 4, 1, 0⟩, ⟨.ro, 17, 8, 0x20⟩, ⟨.ro, 27, 18, 0x10⟩, ⟨.ro, 28, 28, 0⟩]⟩,
   ⟨0x008, 0, 1, commonModes, [⟨.ro, 31, 0, 0⟩]⟩,
   ⟨0x00C, 0, 1, commonModes, [⟨.ro, 31, 0, 0⟩]⟩,
   ⟨0x010, 4, 10, commonModes, [⟨.ro, 31, 0, 0⟩]⟩,
   ⟨0x038, 0, 1, commonModes, [⟨.wo, 0, 0, 0⟩, ⟨.wo, 1, 1, 0⟩]⟩,
   ⟨0x040, 0, 1, commonModes, [⟨.rw, 15, 0, 0x64⟩]⟩,
   ⟨0x044, 0, 1, commonModes, [⟨.rw, 15, 0, 0xA⟩, ⟨.rw, 16, 16, 0⟩]⟩,
   ⟨0x048, 0, 1, commonModes, [⟨.ro, 31, 0, 0⟩]⟩,
   ⟨0x300, 0, 1, commonModes, [⟨.rw, 31, 0, 0⟩]⟩,
   ⟨0x304, 0, 1, commonModes, [⟨.rw, 7, 0, 0⟩]⟩,
   ⟨0x308, 4, 4, commonModes, [⟨.rw, 31, 0, 0⟩]⟩] ++
  [⟨0x318, 0, 1, commonModes, [⟨.rw, 31, 0, 0⟩]⟩,
   ⟨0x31C, 0, 1, commonModes, [⟨.wo, 1, 0, 0⟩, ⟨.rw, 8, 8, 0⟩]⟩,
   ⟨0x320, 0, 1, commonModes, [⟨.ro, 2, 0, 0⟩, ⟨.ro, 6, 3, 0⟩]⟩,
   ⟨0x324, 0, 1, commonModes, [⟨.ro, 31, 0, 0⟩]⟩]

/-! Class 0x49 BULK, chapter 13. -/
namespace Reg.BULK
/-- Class number (R14). -/
abbrev cls : Nat := 0x49
abbrev CTL_ERASE_EN : Field := ⟨0x49, 0x000, 0, 0⟩
abbrev CTL_AUTO_RETIRE : Field := ⟨0x49, 0x000, 1, 1⟩
abbrev STATUS_X8 : Field := ⟨0x49, 0x004, 0, 0⟩
abbrev STATUS_TRAINED : Field := ⟨0x49, 0x004, 1, 1⟩
abbrev STATUS_FILLED : Field := ⟨0x49, 0x004, 2, 2⟩
abbrev STATUS_ERASED : Field := ⟨0x49, 0x004, 3, 3⟩
abbrev STATUS_ERASED_COL : Field := ⟨0x49, 0x004, 7, 4⟩
abbrev STATUS_RANKS : Field := ⟨0x49, 0x004, 10, 8⟩
abbrev STATUS_EVACUATED : Field := ⟨0x49, 0x004, 11, 11⟩
abbrev STATUS_RETIRED : Field := ⟨0x49, 0x004, 24, 16⟩
abbrev CAPACITY_MB : Field := ⟨0x49, 0x008, 31, 0⟩
abbrev CE_COUNT_COUNT : Field := ⟨0x49, 0x00C, 31, 0⟩
abbrev UE_COUNT_COUNT : Field := ⟨0x49, 0x010, 31, 0⟩
abbrev COL_CE_COUNT (k : Nat) : Field := ⟨0x49, 0x014 + 0x4 * k, 31, 0⟩
abbrev CLEAR_CLR_COUNTS : Field := ⟨0x49, 0x03C, 0, 0⟩
abbrev CLEAR_CLR_ERASE : Field := ⟨0x49, 0x03C, 1, 1⟩
abbrev SCRUB_PERIOD_MIN : Field := ⟨0x49, 0x040, 15, 0⟩
abbrev SCRUB_FAST_FAST_MIN : Field := ⟨0x49, 0x044, 15, 0⟩
abbrev SCRUB_FAST_FAST_EN : Field := ⟨0x49, 0x044, 16, 16⟩
abbrev SCRUB_STATUS_PASSES : Field := ⟨0x49, 0x048, 31, 0⟩
abbrev ILV_MODE : Field := ⟨0x49, 0x050, 1, 0⟩
abbrev ILV_MAP : Field := ⟨0x49, 0x050, 9, 2⟩
abbrev ILV_SPLIT : Field := ⟨0x49, 0x050, 10, 10⟩
abbrev MIG_PTR_LO_ADDR_LO : Field := ⟨0x49, 0x054, 31, 0⟩
abbrev MIG_PTR_HI_ADDR_HI : Field := ⟨0x49, 0x058, 7, 0⟩
abbrev RET_SEL_ENTRY : Field := ⟨0x49, 0x060, 7, 0⟩
abbrev RET_DATA_PAGE : Field := ⟨0x49, 0x064, 23, 0⟩
abbrev RET_DATA_RESERVE : Field := ⟨0x49, 0x064, 31, 24⟩
abbrev TEST_ADDR_LO_ADDR_LO : Field := ⟨0x49, 0x300, 31, 0⟩
abbrev TEST_ADDR_HI_ADDR_HI : Field := ⟨0x49, 0x304, 7, 0⟩
abbrev TEST_DATA_DATA (k : Nat) : Field := ⟨0x49, 0x308 + 0x4 * k, 31, 0⟩
abbrev TEST_CHECK_CHECK : Field := ⟨0x49, 0x318, 31, 0⟩
abbrev TEST_CTL_OP : Field := ⟨0x49, 0x31C, 1, 0⟩
abbrev TEST_CTL_SCRUB_SKIP : Field := ⟨0x49, 0x31C, 8, 8⟩
abbrev TEST_RESULT_OUTCOME : Field := ⟨0x49, 0x320, 2, 0⟩
abbrev TEST_RESULT_COLUMN : Field := ⟨0x49, 0x320, 6, 3⟩
abbrev TEST_SYND_SYND : Field := ⟨0x49, 0x324, 31, 0⟩
end Reg.BULK

/-- The registers of class 0x49 BULK. -/
def regsBULK : List RegDef :=
  [⟨0x000, 0, 1, commonModes, [⟨.rw, 0, 0, 1⟩, ⟨.rw, 1, 1, 0⟩]⟩,
   ⟨0x004, 0, 1, commonModes, [⟨.ro, 0, 0, 0⟩, ⟨.ro, 1, 1, 0⟩, ⟨.ro, 2, 2, 0⟩, ⟨.ro, 3, 3, 0⟩, ⟨.ro, 7, 4, 0⟩, ⟨.ro, 10, 8, 0⟩, ⟨.ro, 11, 11, 0⟩, ⟨.ro, 24, 16, 0⟩]⟩,
   ⟨0x008, 0, 1, commonModes, [⟨.ro, 31, 0, 0⟩]⟩,
   ⟨0x00C, 0, 1, commonModes, [⟨.ro, 31, 0, 0⟩]⟩,
   ⟨0x010, 0, 1, commonModes, [⟨.ro, 31, 0, 0⟩]⟩,
   ⟨0x014, 4, 10, commonModes, [⟨.ro, 31, 0, 0⟩]⟩,
   ⟨0x03C, 0, 1, commonModes, [⟨.wo, 0, 0, 0⟩, ⟨.wo, 1, 1, 0⟩]⟩,
   ⟨0x040, 0, 1, commonModes, [⟨.rw, 15, 0, 0xF0⟩]⟩,
   ⟨0x044, 0, 1, commonModes, [⟨.rw, 15, 0, 0x1E⟩, ⟨.rw, 16, 16, 0⟩]⟩,
   ⟨0x048, 0, 1, commonModes, [⟨.ro, 31, 0, 0⟩]⟩,
   ⟨0x050, 0, 1, 252, [⟨.ro, 1, 0, 0⟩, ⟨.ro, 9, 2, 0xE4⟩, ⟨.ro, 10, 10, 0⟩]⟩,
   ⟨0x054, 0, 1, commonModes, [⟨.ro, 31, 0, 0⟩]⟩] ++
  [⟨0x058, 0, 1, commonModes, [⟨.ro, 7, 0, 0⟩]⟩,
   ⟨0x060, 0, 1, commonModes, [⟨.rw, 7, 0, 0⟩]⟩,
   ⟨0x064, 0, 1, commonModes, [⟨.ro, 23, 0, 0⟩, ⟨.ro, 31, 24, 0⟩]⟩,
   ⟨0x300, 0, 1, commonModes, [⟨.rw, 31, 0, 0⟩]⟩,
   ⟨0x304, 0, 1, commonModes, [⟨.rw, 7, 0, 0⟩]⟩,
   ⟨0x308, 4, 4, commonModes, [⟨.rw, 31, 0, 0⟩]⟩,
   ⟨0x318, 0, 1, commonModes, [⟨.rw, 31, 0, 0⟩]⟩,
   ⟨0x31C, 0, 1, commonModes, [⟨.wo, 1, 0, 0⟩, ⟨.rw, 8, 8, 0⟩]⟩,
   ⟨0x320, 0, 1, commonModes, [⟨.ro, 2, 0, 0⟩, ⟨.ro, 6, 3, 0⟩]⟩,
   ⟨0x324, 0, 1, commonModes, [⟨.ro, 31, 0, 0⟩]⟩]

/-! Class 0x4A SPALL, chapter 13. -/
namespace Reg.SPALL
/-- Class number (R14). -/
abbrev cls : Nat := 0x4A
abbrev CTL_THRESH : Field := ⟨0x4A, 0x000, 3, 0⟩
abbrev CTL_WINDOW : Field := ⟨0x4A, 0x000, 15, 8⟩
abbrev CTL_AUTO_REPAIR : Field := ⟨0x4A, 0x000, 16, 16⟩
abbrev STATUS_USED : Field := ⟨0x4A, 0x004, 8, 0⟩
abbrev STATUS_HARD : Field := ⟨0x4A, 0x004, 24, 16⟩
abbrev DROPPED_COUNT : Field := ⟨0x4A, 0x008, 31, 0⟩
abbrev SEL_ENTRY : Field := ⟨0x4A, 0x00C, 7, 0⟩
abbrev ENTRY_WORD (k : Nat) : Field := ⟨0x4A, 0x010 + 0x4 * k, 31, 0⟩
end Reg.SPALL

/-- The registers of class 0x4A SPALL. -/
def regsSPALL : List RegDef :=
  [⟨0x000, 0, 1, commonModes, [⟨.rw, 3, 0, 3⟩, ⟨.rw, 15, 8, 0x18⟩, ⟨.rw, 16, 16, 1⟩]⟩,
   ⟨0x004, 0, 1, commonModes, [⟨.ro, 8, 0, 0⟩, ⟨.ro, 24, 16, 0⟩]⟩,
   ⟨0x008, 0, 1, commonModes, [⟨.ro, 31, 0, 0⟩]⟩,
   ⟨0x00C, 0, 1, commonModes, [⟨.rw, 7, 0, 0⟩]⟩,
   ⟨0x010, 4, 4, 252, [⟨.ro, 31, 0, 0⟩]⟩]

/-! Class 0x63 PINS, chapter 20. -/
namespace Reg.PINS
/-- Class number (R14). -/
abbrev cls : Nat := 0x63
abbrev SLEW_SLEW : Field := ⟨0x63, 0x000, 15, 0⟩
abbrev DRIVE_DRIVE : Field := ⟨0x63, 0x004, 15, 0⟩
abbrev GPIO_OUT_OUT : Field := ⟨0x63, 0x010, 31, 0⟩
abbrev GPIO_OE_OE : Field := ⟨0x63, 0x014, 31, 0⟩
abbrev GPIO_IN_IN : Field := ⟨0x63, 0x018, 31, 0⟩
end Reg.PINS

/-- The registers of class 0x63 PINS. -/
def regsPINS : List RegDef :=
  [⟨0x000, 0, 1, commonModes, [⟨.rw, 15, 0, 0x1155⟩]⟩,
   ⟨0x004, 0, 1, commonModes, [⟨.rw, 15, 0, 0x5555⟩]⟩,
   ⟨0x010, 0, 1, commonModes, [⟨.rw, 31, 0, 0⟩]⟩,
   ⟨0x014, 0, 1, commonModes, [⟨.rw, 31, 0, 0⟩]⟩,
   ⟨0x018, 0, 1, commonModes, [⟨.ro, 31, 0, 0⟩]⟩]

/-! Class 0x68 PCIE, chapter 17. -/
namespace Reg.PCIE
/-- Class number (R14). -/
abbrev cls : Nat := 0x68
abbrev CTL_HOSTWIN_FN : Field := ⟨0x68, 0x000, 3, 0⟩
abbrev CTL_ATS_EN : Field := ⟨0x68, 0x000, 4, 4⟩
abbrev HOSTWIN_LO_LO : Field := ⟨0x68, 0x004, 31, 0⟩
abbrev HOSTWIN_HI_HI : Field := ⟨0x68, 0x008, 31, 0⟩
abbrev STATUS_LINK_UP : Field := ⟨0x68, 0x00C, 0, 0⟩
abbrev STATUS_SPEED : Field := ⟨0x68, 0x00C, 3, 1⟩
abbrev STATUS_WIDTH : Field := ⟨0x68, 0x00C, 8, 4⟩
abbrev APER_EN (k : Nat) : Field := ⟨0x68, 0x040 + 0x8 * k, 0, 0⟩
abbrev APER_BASE_LO (k : Nat) : Field := ⟨0x68, 0x040 + 0x8 * k, 31, 21⟩
abbrev APER_HI_BASE_HI (k : Nat) : Field := ⟨0x68, 0x044 + 0x8 * k, 7, 0⟩
abbrev BOOT_PUSH_LEN : Field := ⟨0x68, 0x0C0, 24, 0⟩
abbrev BOOT_PUSH_GO : Field := ⟨0x68, 0x0C0, 31, 31⟩
abbrev JOURNAL_IRQ_VECTOR : Field := ⟨0x68, 0x0C4, 10, 0⟩
abbrev UR_SENT_COUNT : Field := ⟨0x68, 0x0D0, 31, 0⟩
abbrev CA_SENT_COUNT : Field := ⟨0x68, 0x0D4, 31, 0⟩
abbrev EP_SENT_COUNT : Field := ⟨0x68, 0x0D8, 31, 0⟩
abbrev EP_RCVD_COUNT : Field := ⟨0x68, 0x0DC, 31, 0⟩
abbrev CPL_TIMEOUT_COUNT : Field := ⟨0x68, 0x0E0, 31, 0⟩
abbrev LINK_DOWNS_COUNT : Field := ⟨0x68, 0x0E4, 31, 0⟩
abbrev BAR0_PARTIAL_COUNT : Field := ⟨0x68, 0x0E8, 31, 0⟩
end Reg.PCIE

/-- The registers of class 0x68 PCIE. -/
def regsPCIE : List RegDef :=
  [⟨0x000, 0, 1, commonModes, [⟨.rw, 3, 0, 0⟩, ⟨.rw, 4, 4, 0⟩]⟩,
   ⟨0x004, 0, 1, commonModes, [⟨.rw, 31, 0, 0⟩]⟩,
   ⟨0x008, 0, 1, commonModes, [⟨.rw, 31, 0, 0⟩]⟩,
   ⟨0x00C, 0, 1, commonModes, [⟨.ro, 0, 0, 0⟩, ⟨.ro, 3, 1, 0⟩, ⟨.ro, 8, 4, 0⟩]⟩,
   ⟨0x040, 8, 16, commonModes, [⟨.rw, 0, 0, 1⟩, ⟨.rw, 31, 21, 0⟩]⟩,
   ⟨0x044, 8, 16, commonModes, [⟨.rw, 7, 0, 0⟩]⟩,
   ⟨0x0C0, 0, 1, commonModes, [⟨.wo, 24, 0, 0⟩, ⟨.wo, 31, 31, 0⟩]⟩,
   ⟨0x0C4, 0, 1, commonModes, [⟨.rw, 10, 0, 0⟩]⟩,
   ⟨0x0D0, 0, 1, commonModes, [⟨.ro, 31, 0, 0⟩]⟩,
   ⟨0x0D4, 0, 1, commonModes, [⟨.ro, 31, 0, 0⟩]⟩,
   ⟨0x0D8, 0, 1, commonModes, [⟨.ro, 31, 0, 0⟩]⟩,
   ⟨0x0DC, 0, 1, commonModes, [⟨.ro, 31, 0, 0⟩]⟩] ++
  [⟨0x0E0, 0, 1, commonModes, [⟨.ro, 31, 0, 0⟩]⟩,
   ⟨0x0E4, 0, 1, commonModes, [⟨.ro, 31, 0, 0⟩]⟩,
   ⟨0x0E8, 0, 1, commonModes, [⟨.ro, 31, 0, 0⟩]⟩]

/-! Class 0x69 PCIE_FN, chapter 17. -/
namespace Reg.PCIE_FN
/-- Class number (R14). -/
abbrev cls : Nat := 0x69
abbrev MSIX_MSIX_BASE : Field := ⟨0x69, 0x000, 10, 0⟩
abbrev MSIX_MSIX_COUNT : Field := ⟨0x69, 0x000, 27, 16⟩
abbrev STATUS_BME : Field := ⟨0x69, 0x004, 0, 0⟩
abbrev STATUS_MSIX_EN : Field := ⟨0x69, 0x004, 1, 1⟩
abbrev STATUS_FLR_BUSY : Field := ⟨0x69, 0x004, 2, 2⟩
end Reg.PCIE_FN

/-- The registers of class 0x69 PCIE_FN. -/
def regsPCIE_FN : List RegDef :=
  [⟨0x000, 0, 1, commonModes, [⟨.rw, 10, 0, 0⟩, ⟨.rw, 27, 16, 0⟩]⟩,
   ⟨0x004, 0, 1, commonModes, [⟨.ro, 0, 0, 0⟩, ⟨.ro, 1, 1, 0⟩, ⟨.ro, 2, 2, 0⟩]⟩]

/-! Class 0x70 DVORYS, chapter 02. -/
namespace Reg.DVORYS
/-- Class number (R14). -/
abbrev cls : Nat := 0x70
abbrev PAIR_STATUS_ROLE : Field := ⟨0x70, 0x000, 1, 0⟩
abbrev PAIR_STATUS_IMAGE_SLOT : Field := ⟨0x70, 0x000, 2, 2⟩
abbrev PAIR_STATUS_VERSION : Field := ⟨0x70, 0x000, 31, 8⟩
abbrev SWITCH_COUNT_COUNT : Field := ⟨0x70, 0x004, 31, 0⟩
abbrev MISMATCH_COUNT_COUNT : Field := ⟨0x70, 0x008, 31, 0⟩
abbrev BAR0_CTL_OPEN : Field := ⟨0x70, 0x00C, 0, 0⟩
abbrev BAR0_BLOCKED_COUNT : Field := ⟨0x70, 0x010, 31, 0⟩
end Reg.DVORYS

/-- The registers of class 0x70 DVORYS. -/
def regsDVORYS : List RegDef :=
  [⟨0x000, 0, 1, 252, [⟨.ro, 1, 0, 0⟩, ⟨.ro, 2, 2, 0⟩, ⟨.ro, 31, 8, 0⟩]⟩,
   ⟨0x004, 0, 1, 252, [⟨.ro, 31, 0, 0⟩]⟩,
   ⟨0x008, 0, 1, 252, [⟨.ro, 31, 0, 0⟩]⟩,
   ⟨0x00C, 0, 1, commonModes, [⟨.rw, 0, 0, 1⟩]⟩,
   ⟨0x010, 0, 1, 252, [⟨.ro, 31, 0, 0⟩]⟩]

/-! Class 0x71 KEEP, chapter 02. -/
namespace Reg.KEEP
/-- Class number (R14). -/
abbrev cls : Nat := 0x71
abbrev CTL_RUN : Field := ⟨0x71, 0x000, 0, 0⟩
abbrev BOOT_LO_BOOT_LO : Field := ⟨0x71, 0x004, 31, 0⟩
abbrev BOOT_HI_BOOT_HI : Field := ⟨0x71, 0x008, 7, 0⟩
abbrev STATUS_RUNNING : Field := ⟨0x71, 0x00C, 0, 0⟩
abbrev STATUS_WFI : Field := ⟨0x71, 0x00C, 1, 1⟩
abbrev STATUS_TRAPPED : Field := ⟨0x71, 0x00C, 2, 2⟩
end Reg.KEEP

/-- The registers of class 0x71 KEEP. -/
def regsKEEP : List RegDef :=
  [⟨0x000, 0, 1, commonModes, [⟨.rw, 0, 0, 0⟩]⟩,
   ⟨0x004, 0, 1, commonModes, [⟨.rw, 31, 0, 0⟩]⟩,
   ⟨0x008, 0, 1, commonModes, [⟨.rw, 7, 0, 0⟩]⟩,
   ⟨0x00C, 0, 1, 252, [⟨.ro, 0, 0, 0⟩, ⟨.ro, 1, 1, 0⟩, ⟨.ro, 2, 2, 0⟩]⟩]

/-! Class 0x10 COURSE, chapter 05/13/19. -/
namespace Reg.COURSE
/-- Class number (R14). -/
abbrev cls : Nat := 0x10
abbrev SAMP_CTL_EN : Field := ⟨0x10, 0x040, 0, 0⟩
abbrev SAMP_CTL_MODE : Field := ⟨0x10, 0x040, 1, 1⟩
abbrev SAMP_CTL_EVENT : Field := ⟨0x10, 0x040, 11, 2⟩
abbrev SAMP_CTL_CORES : Field := ⟨0x10, 0x040, 19, 12⟩
abbrev SAMP_PERIOD_N : Field := ⟨0x10, 0x044, 23, 0⟩
abbrev SAMP_BASE_LO_BASE_LO : Field := ⟨0x10, 0x048, 31, 0⟩
abbrev SAMP_BASE_HI_BASE_HI : Field := ⟨0x10, 0x04C, 7, 0⟩
abbrev SAMP_CFG_LOG2 : Field := ⟨0x10, 0x050, 4, 0⟩
abbrev SAMP_WR_WR : Field := ⟨0x10, 0x054, 20, 0⟩
abbrev SAMP_RD_RD : Field := ⟨0x10, 0x058, 20, 0⟩
abbrev SAMP_LOST_COUNT : Field := ⟨0x10, 0x05C, 31, 0⟩
abbrev MEM_CTL_ERASE_EN : Field := ⟨0x10, 0x100, 0, 0⟩
abbrev MEM_STATUS_ERASED : Field := ⟨0x10, 0x104, 0, 0⟩
abbrev MEM_STATUS_ERASED_COL : Field := ⟨0x10, 0x104, 4, 1⟩
abbrev MEM_STATUS_ROWS_LEFT : Field := ⟨0x10, 0x104, 17, 8⟩
abbrev MEM_STATUS_COLS_LEFT : Field := ⟨0x10, 0x104, 27, 18⟩
abbrev MEM_STATUS_REPAIRING : Field := ⟨0x10, 0x104, 28, 28⟩
abbrev MEM_CE_COUNT_COUNT : Field := ⟨0x10, 0x108, 31, 0⟩
abbrev MEM_UE_COUNT_COUNT : Field := ⟨0x10, 0x10C, 31, 0⟩
abbrev MEM_COL_CE_COUNT (k : Nat) : Field := ⟨0x10, 0x110 + 0x4 * k, 31, 0⟩
abbrev MEM_CLEAR_CLR_COUNTS : Field := ⟨0x10, 0x138, 0, 0⟩
abbrev MEM_CLEAR_CLR_ERASE : Field := ⟨0x10, 0x138, 1, 1⟩
abbrev MEM_SCRUB_PERIOD_MS : Field := ⟨0x10, 0x140, 15, 0⟩
abbrev MEM_SCRUB_FAST_FAST_MS : Field := ⟨0x10, 0x144, 15, 0⟩
abbrev MEM_SCRUB_FAST_FAST_EN : Field := ⟨0x10, 0x144, 16, 16⟩
abbrev MEM_SCRUB_STATUS_PASSES : Field := ⟨0x10, 0x148, 31, 0⟩
abbrev TEST_ADDR_LO_ADDR_LO : Field := ⟨0x10, 0x300, 31, 0⟩
abbrev TEST_ADDR_HI_ADDR_HI : Field := ⟨0x10, 0x304, 7, 0⟩
abbrev TEST_DATA_DATA (k : Nat) : Field := ⟨0x10, 0x308 + 0x4 * k, 31, 0⟩
abbrev TEST_CHECK_CHECK : Field := ⟨0x10, 0x318, 31, 0⟩
abbrev TEST_CTL_OP : Field := ⟨0x10, 0x31C, 1, 0⟩
abbrev TEST_CTL_SCRUB_SKIP : Field := ⟨0x10, 0x31C, 8, 8⟩
abbrev TEST_RESULT_OUTCOME : Field := ⟨0x10, 0x320, 2, 0⟩
abbrev TEST_RESULT_COLUMN : Field := ⟨0x10, 0x320, 6, 3⟩
abbrev TEST_SYND_SYND : Field := ⟨0x10, 0x324, 31, 0⟩
abbrev CTL_CORE_EN : Field := ⟨0x10, 0x000, 7, 0⟩
abbrev STATUS_BUSY : Field := ⟨0x10, 0x004, 7, 0⟩
abbrev STATUS_WAITING : Field := ⟨0x10, 0x004, 15, 8⟩
abbrev STATUS_HALTED : Field := ⟨0x10, 0x004, 23, 16⟩
abbrev STATUS_PARKED : Field := ⟨0x10, 0x004, 24, 24⟩
abbrev STATUS_FENCED : Field := ⟨0x10, 0x004, 25, 25⟩
end Reg.COURSE

/-- The registers of class 0x10 COURSE. -/
def regsCOURSE : List RegDef :=
  [⟨0x040, 0, 1, commonModes, [⟨.rw, 0, 0, 0⟩, ⟨.rw, 1, 1, 0⟩, ⟨.rw, 11, 2, 0x11⟩, ⟨.rw, 19, 12, 0xFF⟩]⟩,
   ⟨0x044, 0, 1, commonModes, [⟨.rw, 23, 0, 0x10000⟩]⟩,
   ⟨0x048, 0, 1, commonModes, [⟨.rw, 31, 0, 0⟩]⟩,
   ⟨0x04C, 0, 1, commonModes, [⟨.rw, 7, 0, 0⟩]⟩,
   ⟨0x050, 0, 1, commonModes, [⟨.rw, 4, 0, 0xA⟩]⟩,
   ⟨0x054, 0, 1, commonModes, [⟨.ro, 20, 0, 0⟩]⟩,
   ⟨0x058, 0, 1, commonModes, [⟨.rw, 20, 0, 0⟩]⟩,
   ⟨0x05C, 0, 1, commonModes, [⟨.ro, 31, 0, 0⟩]⟩,
   ⟨0x100, 0, 1, commonModes, [⟨.rw, 0, 0, 1⟩]⟩,
   ⟨0x104, 0, 1, commonModes, [⟨.ro, 0, 0, 0⟩, ⟨.ro, 4, 1, 0⟩, ⟨.ro, 17, 8, 0x190⟩, ⟨.ro, 27, 18, 0x150⟩, ⟨.ro, 28, 28, 0⟩]⟩,
   ⟨0x108, 0, 1, commonModes, [⟨.ro, 31, 0, 0⟩]⟩,
   ⟨0x10C, 0, 1, commonModes, [⟨.ro, 31, 0, 0⟩]⟩] ++
  [⟨0x110, 4, 10, commonModes, [⟨.ro, 31, 0, 0⟩]⟩,
   ⟨0x138, 0, 1, commonModes, [⟨.wo, 0, 0, 0⟩, ⟨.wo, 1, 1, 0⟩]⟩,
   ⟨0x140, 0, 1, commonModes, [⟨.rw, 15, 0, 0x64⟩]⟩,
   ⟨0x144, 0, 1, commonModes, [⟨.rw, 15, 0, 0xA⟩, ⟨.rw, 16, 16, 0⟩]⟩,
   ⟨0x148, 0, 1, commonModes, [⟨.ro, 31, 0, 0⟩]⟩,
   ⟨0x300, 0, 1, commonModes, [⟨.rw, 31, 0, 0⟩]⟩,
   ⟨0x304, 0, 1, commonModes, [⟨.rw, 7, 0, 0⟩]⟩,
   ⟨0x308, 4, 4, commonModes, [⟨.rw, 31, 0, 0⟩]⟩,
   ⟨0x318, 0, 1, commonModes, [⟨.rw, 31, 0, 0⟩]⟩,
   ⟨0x31C, 0, 1, commonModes, [⟨.wo, 1, 0, 0⟩, ⟨.rw, 8, 8, 0⟩]⟩,
   ⟨0x320, 0, 1, commonModes, [⟨.ro, 2, 0, 0⟩, ⟨.ro, 6, 3, 0⟩]⟩,
   ⟨0x324, 0, 1, commonModes, [⟨.ro, 31, 0, 0⟩]⟩] ++
  [⟨0x000, 0, 1, commonModes, [⟨.rw, 7, 0, 0xFF⟩]⟩,
   ⟨0x004, 0, 1, 252, [⟨.ro, 7, 0, 0⟩, ⟨.ro, 15, 8, 0xFF⟩, ⟨.ro, 23, 16, 0⟩, ⟨.ro, 24, 24, 0⟩, ⟨.ro, 25, 25, 0⟩]⟩]

/-! Class 0x20 DISP, chapter 08. -/
namespace Reg.DISP
/-- Class number (R14). -/
abbrev cls : Nat := 0x20
abbrev CTL_ENABLE : Field := ⟨0x20, 0x000, 0, 0⟩
abbrev CTL_RETRY_LIMIT : Field := ⟨0x20, 0x000, 2, 1⟩
abbrev CTL_SLOT_AGE : Field := ⟨0x20, 0x000, 15, 8⟩
abbrev STATUS_RESIDENT : Field := ⟨0x20, 0x004, 14, 0⟩
abbrev STATUS_RESIDENT_MAX : Field := ⟨0x20, 0x004, 30, 16⟩
abbrev POST_HELD_HELD : Field := ⟨0x20, 0x008, 13, 0⟩
abbrev DLCLK_LO_DLCLK : Field := ⟨0x20, 0x00C, 31, 0⟩
abbrev DLCLK_HI_DLCLK : Field := ⟨0x20, 0x010, 31, 0⟩
abbrev CANCEL_INDEX : Field := ⟨0x20, 0x014, 13, 0⟩
abbrev CANCEL_RESULT_RESULT : Field := ⟨0x20, 0x018, 1, 0⟩
abbrev COMPLETED_COUNT : Field := ⟨0x20, 0x020, 31, 0⟩
abbrev FAILED_COUNT : Field := ⟨0x20, 0x024, 31, 0⟩
abbrev REDISPATCHED_COUNT : Field := ⟨0x20, 0x028, 31, 0⟩
end Reg.DISP

/-- The registers of class 0x20 DISP. -/
def regsDISP : List RegDef :=
  [⟨0x000, 0, 1, commonModes, [⟨.rw, 0, 0, 1⟩, ⟨.rw, 2, 1, 1⟩, ⟨.rw, 15, 8, 0⟩]⟩,
   ⟨0x004, 0, 1, 252, [⟨.ro, 14, 0, 0⟩, ⟨.ro, 30, 16, 0⟩]⟩,
   ⟨0x008, 0, 1, 252, [⟨.ro, 13, 0, 0⟩]⟩,
   ⟨0x00C, 0, 1, 252, [⟨.ro, 31, 0, 0⟩]⟩,
   ⟨0x010, 0, 1, 252, [⟨.ro, 31, 0, 0⟩]⟩,
   ⟨0x014, 0, 1, 120, [⟨.wo, 13, 0, 0⟩]⟩,
   ⟨0x018, 0, 1, commonModes, [⟨.ro, 1, 0, 0⟩]⟩,
   ⟨0x020, 0, 1, 252, [⟨.ro, 31, 0, 0⟩]⟩,
   ⟨0x024, 0, 1, 252, [⟨.ro, 31, 0, 0⟩]⟩,
   ⟨0x028, 0, 1, 252, [⟨.ro, 31, 0, 0⟩]⟩]

/-! Class 0x21 DQUEUE, chapter 08. -/
namespace Reg.DQUEUE
/-- Class number (R14). -/
abbrev cls : Nat := 0x21
abbrev CTL_ENABLE : Field := ⟨0x21, 0x000, 0, 0⟩
abbrev CTL_KIND : Field := ⟨0x21, 0x000, 3, 1⟩
abbrev CTL_PRIO : Field := ⟨0x21, 0x000, 5, 4⟩
abbrev CTL_TX_WORK : Field := ⟨0x21, 0x000, 6, 6⟩
abbrev POOL_COURSE_COURSES : Field := ⟨0x21, 0x004, 23, 0⟩
abbrev POOL_CORE_CORES : Field := ⟨0x21, 0x008, 7, 0⟩
abbrev POOL_ENGINE_ENGINES : Field := ⟨0x21, 0x00C, 15, 0⟩
abbrev LIMIT_MAX_TASKS : Field := ⟨0x21, 0x010, 14, 0⟩
abbrev HIST_CFG_UNIT : Field := ⟨0x21, 0x014, 4, 0⟩
abbrev DEPTH_WAITING : Field := ⟨0x21, 0x020, 14, 0⟩
abbrev DEPTH_READY : Field := ⟨0x21, 0x020, 30, 16⟩
abbrev MAX_DEPTH_MAX_READY : Field := ⟨0x21, 0x024, 14, 0⟩
abbrev MAX_DEPTH_MAX_RESIDENT : Field := ⟨0x21, 0x024, 30, 16⟩
abbrev STATE_DEFERRED : Field := ⟨0x21, 0x028, 0, 0⟩
abbrev LATE_COUNT : Field := ⟨0x21, 0x02C, 31, 0⟩
abbrev DROPPED_COUNT : Field := ⟨0x21, 0x030, 31, 0⟩
abbrev FAILED_COUNT : Field := ⟨0x21, 0x034, 31, 0⟩
abbrev COMPLETED_COUNT : Field := ⟨0x21, 0x038, 31, 0⟩
abbrev CLEAR_CLR_MAX : Field := ⟨0x21, 0x03C, 0, 0⟩
abbrev CLEAR_CLR_HIST : Field := ⟨0x21, 0x03C, 1, 1⟩
abbrev HIST_BIN (k : Nat) : Field := ⟨0x21, 0x040 + 0x4 * k, 31, 0⟩
abbrev POST_DESC : Field := ⟨0x21, 0x200, 25, 0⟩
end Reg.DQUEUE

/-- The registers of class 0x21 DQUEUE. -/
def regsDQUEUE : List RegDef :=
  [⟨0x000, 0, 1, commonModes, [⟨.rw, 0, 0, 0⟩, ⟨.rw, 3, 1, 0⟩, ⟨.rw, 5, 4, 0⟩, ⟨.rw, 6, 6, 0⟩]⟩,
   ⟨0x004, 0, 1, commonModes, [⟨.rw, 23, 0, 0xFFFFFF⟩]⟩,
   ⟨0x008, 0, 1, commonModes, [⟨.rw, 7, 0, 0xFF⟩]⟩,
   ⟨0x00C, 0, 1, commonModes, [⟨.rw, 15, 0, 0xFFFF⟩]⟩,
   ⟨0x010, 0, 1, commonModes, [⟨.rw, 14, 0, 0x4000⟩]⟩,
   ⟨0x014, 0, 1, commonModes, [⟨.rw, 4, 0, 9⟩]⟩,
   ⟨0x020, 0, 1, 252, [⟨.ro, 14, 0, 0⟩, ⟨.ro, 30, 16, 0⟩]⟩,
   ⟨0x024, 0, 1, 252, [⟨.ro, 14, 0, 0⟩, ⟨.ro, 30, 16, 0⟩]⟩,
   ⟨0x028, 0, 1, 252, [⟨.ro, 0, 0, 0⟩]⟩,
   ⟨0x02C, 0, 1, 252, [⟨.ro, 31, 0, 0⟩]⟩,
   ⟨0x030, 0, 1, 252, [⟨.ro, 31, 0, 0⟩]⟩,
   ⟨0x034, 0, 1, 252, [⟨.ro, 31, 0, 0⟩]⟩] ++
  [⟨0x038, 0, 1, 252, [⟨.ro, 31, 0, 0⟩]⟩,
   ⟨0x03C, 0, 1, commonModes, [⟨.wo, 0, 0, 0⟩, ⟨.wo, 1, 1, 0⟩]⟩,
   ⟨0x040, 4, 8, 252, [⟨.ro, 31, 0, 0⟩]⟩,
   ⟨0x200, 0, 1, 120, [⟨.wo, 25, 0, 0⟩]⟩]

/-! Class 0x22 KEYSTONE, chapter 08. -/
namespace Reg.KEYSTONE
/-- Class number (R14). -/
abbrev cls : Nat := 0x22
abbrev STATE_PAIR (k : Nat) : Field := ⟨0x22, 0x000 + 0x4 * k, 31, 0⟩
abbrev SET_COUNT_COUNTER : Field := ⟨0x22, 0x300, 7, 0⟩
abbrev SET_COUNT_VALUE : Field := ⟨0x22, 0x300, 19, 8⟩
abbrev SET_COUNT_CLEAR_FLAGS : Field := ⟨0x22, 0x300, 20, 20⟩
abbrev SET_RELOAD_COUNTER : Field := ⟨0x22, 0x304, 7, 0⟩
abbrev SET_RELOAD_VALUE : Field := ⟨0x22, 0x304, 19, 8⟩
abbrev DEC_COUNTER : Field := ⟨0x22, 0x308, 7, 0⟩
abbrev DEC_FAIL : Field := ⟨0x22, 0x308, 8, 8⟩
abbrev RD_SEL_COUNTER : Field := ⟨0x22, 0x30C, 7, 0⟩
abbrev RD_DATA_COUNT : Field := ⟨0x22, 0x310, 11, 0⟩
abbrev RD_DATA_FAIL : Field := ⟨0x22, 0x310, 12, 12⟩
abbrev RD_DATA_UNDERFLOW : Field := ⟨0x22, 0x310, 13, 13⟩
abbrev RD_DATA_RELOAD : Field := ⟨0x22, 0x310, 27, 16⟩
end Reg.KEYSTONE

/-- The registers of class 0x22 KEYSTONE. -/
def regsKEYSTONE : List RegDef :=
  [⟨0x000, 4, 128, 252, [⟨.ro, 31, 0, 0⟩]⟩,
   ⟨0x300, 0, 1, commonModes, [⟨.wo, 7, 0, 0⟩, ⟨.wo, 19, 8, 0⟩, ⟨.wo, 20, 20, 0⟩]⟩,
   ⟨0x304, 0, 1, commonModes, [⟨.wo, 7, 0, 0⟩, ⟨.wo, 19, 8, 0⟩]⟩,
   ⟨0x308, 0, 1, commonModes, [⟨.wo, 7, 0, 0⟩, ⟨.wo, 8, 8, 0⟩]⟩,
   ⟨0x30C, 0, 1, commonModes, [⟨.rw, 7, 0, 0⟩]⟩,
   ⟨0x310, 0, 1, 252, [⟨.ro, 11, 0, 0⟩, ⟨.ro, 12, 12, 0⟩, ⟨.ro, 13, 13, 0⟩, ⟨.ro, 27, 16, 0⟩]⟩]

/-! Class 0x23 TELLER, chapter 08. -/
namespace Reg.TELLER
/-- Class number (R14). -/
abbrev cls : Nat := 0x23
abbrev STATUS_ENTRIES : Field := ⟨0x23, 0x000, 1, 0⟩
abbrev STATUS_ELIGIBLE : Field := ⟨0x23, 0x000, 2, 2⟩
abbrev STATUS_HEAD : Field := ⟨0x23, 0x000, 29, 16⟩
abbrev TASKS_COUNT : Field := ⟨0x23, 0x004, 31, 0⟩
abbrev RECLAIMS_COUNT : Field := ⟨0x23, 0x008, 31, 0⟩
abbrev BUSY_LO_BUSY_LO : Field := ⟨0x23, 0x00C, 31, 0⟩
abbrev BUSY_HI_BUSY_HI : Field := ⟨0x23, 0x010, 15, 0⟩
abbrev HIST_CFG_UNIT : Field := ⟨0x23, 0x014, 4, 0⟩
abbrev CLEAR_CLR_HIST : Field := ⟨0x23, 0x018, 1, 1⟩
abbrev HIST_BIN (k : Nat) : Field := ⟨0x23, 0x040 + 0x4 * k, 31, 0⟩
end Reg.TELLER

/-- The registers of class 0x23 TELLER. -/
def regsTELLER : List RegDef :=
  [⟨0x000, 0, 1, 252, [⟨.ro, 1, 0, 0⟩, ⟨.ro, 2, 2, 0⟩, ⟨.ro, 29, 16, 0⟩]⟩,
   ⟨0x004, 0, 1, 252, [⟨.ro, 31, 0, 0⟩]⟩,
   ⟨0x008, 0, 1, 252, [⟨.ro, 31, 0, 0⟩]⟩,
   ⟨0x00C, 0, 1, 252, [⟨.ro, 31, 0, 0⟩]⟩,
   ⟨0x010, 0, 1, 252, [⟨.ro, 15, 0, 0⟩]⟩,
   ⟨0x014, 0, 1, commonModes, [⟨.rw, 4, 0, 9⟩]⟩,
   ⟨0x018, 0, 1, commonModes, [⟨.wo, 1, 1, 0⟩]⟩,
   ⟨0x040, 4, 8, 252, [⟨.ro, 31, 0, 0⟩]⟩]

/-! Class 0x28 LEDGER, chapter 09. -/
namespace Reg.LEDGER
/-- Class number (R14). -/
abbrev cls : Nat := 0x28
abbrev CTL_PERIOD : Field := ⟨0x28, 0x000, 2, 0⟩
abbrev CTL_ADMIT_EN : Field := ⟨0x28, 0x000, 3, 3⟩
abbrev CTL_PARK_EN : Field := ⟨0x28, 0x000, 4, 4⟩
abbrev CTL_STRETCH_EN : Field := ⟨0x28, 0x000, 5, 5⟩
abbrev CTL_PARK_DELAY : Field := ⟨0x28, 0x000, 15, 8⟩
abbrev CTL_THRIFT_PARK_DELAY : Field := ⟨0x28, 0x000, 23, 16⟩
abbrev HARD_CEIL_LIMIT : Field := ⟨0x28, 0x004, 15, 0⟩
abbrev HARD_CEIL_WINDOW : Field := ⟨0x28, 0x004, 23, 16⟩
abbrev THRIFT_CEIL_CEIL : Field := ⟨0x28, 0x008, 31, 0⟩
abbrev THRIFT_RESERVE_RESERVE : Field := ⟨0x28, 0x00C, 31, 0⟩
abbrev STATUS_THRIFT_ACTIVE : Field := ⟨0x28, 0x010, 0, 0⟩
abbrev STATUS_LEVEL : Field := ⟨0x28, 0x010, 4, 1⟩
abbrev STATUS_RECONCILING : Field := ⟨0x28, 0x010, 5, 5⟩
abbrev PERIOD_NUM_COUNT : Field := ⟨0x28, 0x014, 31, 0⟩
abbrev DEV_CREDIT_LO_DEV_CREDIT : Field := ⟨0x28, 0x018, 31, 0⟩
abbrev DEV_CREDIT_HI_DEV_CREDIT : Field := ⟨0x28, 0x01C, 31, 0⟩
abbrev LAST_TOTAL_LAST_TOTAL : Field := ⟨0x28, 0x020, 31, 0⟩
abbrev STRETCH_US_STRETCH_US : Field := ⟨0x28, 0x024, 31, 0⟩
abbrev OPP_PERMIT_PERMIT : Field := ⟨0x28, 0x028, 2, 0⟩
abbrev OPP_ACCOUNT_VAULT : Field := ⟨0x28, 0x02C, 5, 0⟩
abbrev OPP_ACCOUNT_SCRUB_ONCHIP : Field := ⟨0x28, 0x02C, 13, 8⟩
abbrev OPP_ACCOUNT_SCRUB_BULK : Field := ⟨0x28, 0x02C, 21, 16⟩
end Reg.LEDGER

/-- The registers of class 0x28 LEDGER. -/
def regsLEDGER : List RegDef :=
  [⟨0x000, 0, 1, commonModes, [⟨.rw, 2, 0, 3⟩, ⟨.rw, 3, 3, 1⟩, ⟨.rw, 4, 4, 1⟩, ⟨.rw, 5, 5, 1⟩, ⟨.rw, 15, 8, 4⟩, ⟨.rw, 23, 16, 0⟩]⟩,
   ⟨0x004, 0, 1, commonModes, [⟨.rw, 15, 0, 0x834⟩, ⟨.rw, 23, 16, 0xA⟩]⟩,
   ⟨0x008, 0, 1, commonModes, [⟨.rw, 31, 0, 0x7270E00⟩]⟩,
   ⟨0x00C, 0, 1, commonModes, [⟨.rw, 31, 0, 0⟩]⟩,
   ⟨0x010, 0, 1, 252, [⟨.ro, 0, 0, 0⟩, ⟨.ro, 4, 1, 0⟩, ⟨.ro, 5, 5, 0⟩]⟩,
   ⟨0x014, 0, 1, 252, [⟨.ro, 31, 0, 0⟩]⟩,
   ⟨0x018, 0, 1, 252, [⟨.ro, 31, 0, 0⟩]⟩,
   ⟨0x01C, 0, 1, 252, [⟨.ro, 31, 0, 0⟩]⟩,
   ⟨0x020, 0, 1, 252, [⟨.ro, 31, 0, 0⟩]⟩,
   ⟨0x024, 0, 1, 252, [⟨.ro, 31, 0, 0⟩]⟩,
   ⟨0x028, 0, 1, 252, [⟨.ro, 2, 0, 7⟩]⟩,
   ⟨0x02C, 0, 1, commonModes, [⟨.rw, 5, 0, 0⟩, ⟨.rw, 13, 8, 0⟩, ⟨.rw, 21, 16, 0⟩]⟩]

/-! Class 0x29 METER, chapter 09. -/
namespace Reg.METER
/-- Class number (R14). -/
abbrev cls : Nat := 0x29
abbrev CTL_MODE : Field := ⟨0x29, 0x000, 1, 0⟩
abbrev CTL_OWNER : Field := ⟨0x29, 0x000, 13, 8⟩
abbrev ENERGY_LO_ENERGY : Field := ⟨0x29, 0x004, 31, 0⟩
abbrev ENERGY_HI_ENERGY : Field := ⟨0x29, 0x008, 31, 0⟩
abbrev STEP_STEP_MITES : Field := ⟨0x29, 0x00C, 23, 0⟩
abbrev PERIOD_PERIOD_MITES : Field := ⟨0x29, 0x010, 31, 0⟩
abbrev CAL_GAIN_GAIN : Field := ⟨0x29, 0x014, 15, 0⟩
abbrev CAL_OFFSET_OFFSET : Field := ⟨0x29, 0x018, 15, 0⟩
abbrev STATUS_CAL_DONE : Field := ⟨0x29, 0x01C, 0, 0⟩
abbrev STATUS_CALIBRATING : Field := ⟨0x29, 0x01C, 1, 1⟩
abbrev STATUS_FAULT : Field := ⟨0x29, 0x01C, 2, 2⟩
abbrev STATUS_SUBSTITUTING : Field := ⟨0x29, 0x01C, 3, 3⟩
abbrev STATUS_FAULT_SEEN : Field := ⟨0x29, 0x01C, 4, 4⟩
end Reg.METER

/-- The registers of class 0x29 METER. -/
def regsMETER : List RegDef :=
  [⟨0x000, 0, 1, commonModes, [⟨.rw, 1, 0, 0⟩, ⟨.rw, 13, 8, 0⟩]⟩,
   ⟨0x004, 0, 1, 252, [⟨.ro, 31, 0, 0⟩]⟩,
   ⟨0x008, 0, 1, 252, [⟨.ro, 31, 0, 0⟩]⟩,
   ⟨0x00C, 0, 1, 252, [⟨.ro, 23, 0, 0⟩]⟩,
   ⟨0x010, 0, 1, 252, [⟨.ro, 31, 0, 0⟩]⟩,
   ⟨0x014, 0, 1, commonModes, [⟨.rw, 15, 0, 0⟩]⟩,
   ⟨0x018, 0, 1, commonModes, [⟨.rw, 15, 0, 0⟩]⟩,
   ⟨0x01C, 0, 1, commonModes, [⟨.ro, 0, 0, 0⟩, ⟨.ro, 1, 1, 0⟩, ⟨.ro, 2, 2, 0⟩, ⟨.ro, 3, 3, 0⟩, ⟨.w1c, 4, 4, 0⟩]⟩]

/-! Class 0x2A ACCOUNT, chapter 09. -/
namespace Reg.ACCOUNT
/-- Class number (R14). -/
abbrev cls : Nat := 0x2A
abbrev MINT_MINT : Field := ⟨0x2A, 0x000, 31, 0⟩
abbrev CEIL_CEIL : Field := ⟨0x2A, 0x004, 31, 0⟩
abbrev RESERVE_RESERVE : Field := ⟨0x2A, 0x008, 31, 0⟩
abbrev ALLOW_ALLOW_HI : Field := ⟨0x2A, 0x00C, 5, 0⟩
abbrev ALLOW_ALLOW_LO : Field := ⟨0x2A, 0x00C, 13, 8⟩
abbrev POLICY_SPREAD_EN : Field := ⟨0x2A, 0x010, 0, 0⟩
abbrev CLEAR_CLR_STATS : Field := ⟨0x2A, 0x014, 0, 0⟩
abbrev ADJUST_ADJUST : Field := ⟨0x2A, 0x018, 31, 0⟩
abbrev CREDIT_LO_BOOK : Field := ⟨0x2A, 0x040, 31, 0⟩
abbrev CREDIT_HI_BOOK : Field := ⟨0x2A, 0x044, 31, 0⟩
abbrev OUTSTANDING_LO_BOOK : Field := ⟨0x2A, 0x048, 31, 0⟩
abbrev OUTSTANDING_HI_BOOK : Field := ⟨0x2A, 0x04C, 31, 0⟩
abbrev MINTED_LO_BOOK : Field := ⟨0x2A, 0x050, 31, 0⟩
abbrev MINTED_HI_BOOK : Field := ⟨0x2A, 0x054, 31, 0⟩
abbrev DRAWN_LO_BOOK : Field := ⟨0x2A, 0x058, 31, 0⟩
abbrev DRAWN_HI_BOOK : Field := ⟨0x2A, 0x05C, 31, 0⟩
abbrev ACCRUED_LO_BOOK : Field := ⟨0x2A, 0x060, 31, 0⟩
abbrev ACCRUED_HI_BOOK : Field := ⟨0x2A, 0x064, 31, 0⟩
abbrev PERIOD_DRAW_MITES : Field := ⟨0x2A, 0x068, 31, 0⟩
abbrev OVERDRAFT_MITES : Field := ⟨0x2A, 0x06C, 31, 0⟩
abbrev ADMITTED_COUNT : Field := ⟨0x2A, 0x070, 31, 0⟩
abbrev DEFERRED_COUNT : Field := ⟨0x2A, 0x074, 31, 0⟩
abbrev SHED_COUNT : Field := ⟨0x2A, 0x078, 31, 0⟩
abbrev REDUCED_COUNT : Field := ⟨0x2A, 0x07C, 31, 0⟩
abbrev OVERDRAFTS_COUNT : Field := ⟨0x2A, 0x080, 31, 0⟩
abbrev FORFEIT_MITES : Field := ⟨0x2A, 0x084, 31, 0⟩
end Reg.ACCOUNT

/-- The registers of class 0x2A ACCOUNT. -/
def regsACCOUNT : List RegDef :=
  [⟨0x000, 0, 1, commonModes, [⟨.rw, 31, 0, 0xFFFFFFFF⟩]⟩,
   ⟨0x004, 0, 1, commonModes, [⟨.rw, 31, 0, 0xFFFFFFFF⟩]⟩,
   ⟨0x008, 0, 1, commonModes, [⟨.rw, 31, 0, 0⟩]⟩,
   ⟨0x00C, 0, 1, commonModes, [⟨.rw, 5, 0, 0x3F⟩, ⟨.rw, 13, 8, 4⟩]⟩,
   ⟨0x010, 0, 1, commonModes, [⟨.rw, 0, 0, 1⟩]⟩,
   ⟨0x014, 0, 1, commonModes, [⟨.wo, 0, 0, 0⟩]⟩,
   ⟨0x018, 0, 1, commonModes, [⟨.wo, 31, 0, 0⟩]⟩,
   ⟨0x040, 0, 1, 252, [⟨.ro, 31, 0, 0⟩]⟩,
   ⟨0x044, 0, 1, 252, [⟨.ro, 31, 0, 0⟩]⟩,
   ⟨0x048, 0, 1, 252, [⟨.ro, 31, 0, 0⟩]⟩,
   ⟨0x04C, 0, 1, 252, [⟨.ro, 31, 0, 0⟩]⟩,
   ⟨0x050, 0, 1, 252, [⟨.ro, 31, 0, 0⟩]⟩] ++
  [⟨0x054, 0, 1, 252, [⟨.ro, 31, 0, 0⟩]⟩,
   ⟨0x058, 0, 1, 252, [⟨.ro, 31, 0, 0⟩]⟩,
   ⟨0x05C, 0, 1, 252, [⟨.ro, 31, 0, 0⟩]⟩,
   ⟨0x060, 0, 1, 252, [⟨.ro, 31, 0, 0⟩]⟩,
   ⟨0x064, 0, 1, 252, [⟨.ro, 31, 0, 0⟩]⟩,
   ⟨0x068, 0, 1, 252, [⟨.ro, 31, 0, 0⟩]⟩,
   ⟨0x06C, 0, 1, 252, [⟨.ro, 31, 0, 0⟩]⟩,
   ⟨0x070, 0, 1, 252, [⟨.ro, 31, 0, 0⟩]⟩,
   ⟨0x074, 0, 1, 252, [⟨.ro, 31, 0, 0⟩]⟩,
   ⟨0x078, 0, 1, 252, [⟨.ro, 31, 0, 0⟩]⟩,
   ⟨0x07C, 0, 1, 252, [⟨.ro, 31, 0, 0⟩]⟩,
   ⟨0x080, 0, 1, 252, [⟨.ro, 31, 0, 0⟩]⟩] ++
  [⟨0x084, 0, 1, 252, [⟨.ro, 31, 0, 0⟩]⟩]

/-! Class 0x78 COLLECT, chapter 19. -/
namespace Reg.COLLECT
/-- Class number (R14). -/
abbrev cls : Nat := 0x78
abbrev STATUS_RUNNING : Field := ⟨0x78, 0x000, 0, 0⟩
abbrev RECORDS_COUNT : Field := ⟨0x78, 0x004, 31, 0⟩
abbrev LATE_SWEEPS_COUNT : Field := ⟨0x78, 0x008, 31, 0⟩
abbrev XS_DEV_LO_XS : Field := ⟨0x78, 0x010, 31, 0⟩
abbrev XS_DEV_HI_XS : Field := ⟨0x78, 0x014, 31, 0⟩
abbrev XS_TCNT_LO_XS : Field := ⟨0x78, 0x018, 31, 0⟩
abbrev XS_TCNT_HI_XS : Field := ⟨0x78, 0x01C, 31, 0⟩
end Reg.COLLECT

/-- The registers of class 0x78 COLLECT. -/
def regsCOLLECT : List RegDef :=
  [⟨0x000, 0, 1, 252, [⟨.ro, 0, 0, 0⟩]⟩,
   ⟨0x004, 0, 1, 252, [⟨.ro, 31, 0, 0⟩]⟩,
   ⟨0x008, 0, 1, 252, [⟨.ro, 31, 0, 0⟩]⟩,
   ⟨0x010, 0, 1, 252, [⟨.ro, 31, 0, 0⟩]⟩,
   ⟨0x014, 0, 1, 252, [⟨.ro, 31, 0, 0⟩]⟩,
   ⟨0x018, 0, 1, 252, [⟨.ro, 31, 0, 0⟩]⟩,
   ⟨0x01C, 0, 1, 252, [⟨.ro, 31, 0, 0⟩]⟩]

/-! Class 0x79 TRACE, chapter 19. -/
namespace Reg.TRACE
/-- Class number (R14). -/
abbrev cls : Nat := 0x79
abbrev CTL_EN : Field := ⟨0x79, 0x000, 0, 0⟩
abbrev CTL_SRC : Field := ⟨0x79, 0x000, 4, 1⟩
abbrev CTL_MIN_SEV : Field := ⟨0x79, 0x000, 6, 5⟩
abbrev COURSES_COURSES : Field := ⟨0x79, 0x004, 23, 0⟩
abbrev MARK_VALUE : Field := ⟨0x79, 0x008, 31, 0⟩
abbrev STATUS_LEVEL : Field := ⟨0x79, 0x00C, 11, 0⟩
abbrev LOST_COUNT : Field := ⟨0x79, 0x010, 31, 0⟩
end Reg.TRACE

/-- The registers of class 0x79 TRACE. -/
def regsTRACE : List RegDef :=
  [⟨0x000, 0, 1, commonModes, [⟨.rw, 0, 0, 0⟩, ⟨.rw, 4, 1, 0⟩, ⟨.rw, 6, 5, 0⟩]⟩,
   ⟨0x004, 0, 1, commonModes, [⟨.rw, 23, 0, 0⟩]⟩,
   ⟨0x008, 0, 1, commonModes, [⟨.wo, 31, 0, 0⟩]⟩,
   ⟨0x00C, 0, 1, commonModes, [⟨.ro, 11, 0, 0⟩]⟩,
   ⟨0x010, 0, 1, commonModes, [⟨.ro, 31, 0, 0⟩]⟩]

/-! Class 0x60 TB, chapter 16. -/
namespace Reg.TB
/-- Class number (R14). -/
abbrev cls : Nat := 0x60
abbrev TIME_SEC_LO_SEC_LO : Field := ⟨0x60, 0x000, 31, 0⟩
abbrev TIME_SEC_HI_SEC_HI : Field := ⟨0x60, 0x004, 15, 0⟩
abbrev TIME_NS_NS : Field := ⟨0x60, 0x008, 29, 0⟩
abbrev TIME_FRAC_FRAC : Field := ⟨0x60, 0x00C, 15, 0⟩
abbrev XSTAMP_LO_XSTAMP : Field := ⟨0x60, 0x010, 31, 0⟩
abbrev XSTAMP_HI_XSTAMP : Field := ⟨0x60, 0x014, 31, 0⟩
abbrev STEP_SEC_LO_SEC_LO : Field := ⟨0x60, 0x018, 31, 0⟩
abbrev STEP_SEC_HI_SEC_HI : Field := ⟨0x60, 0x01C, 15, 0⟩
abbrev STEP_SEC_HI_NEG : Field := ⟨0x60, 0x01C, 30, 30⟩
abbrev STEP_SEC_HI_SET : Field := ⟨0x60, 0x01C, 31, 31⟩
abbrev STEP_NS_NS : Field := ⟨0x60, 0x020, 29, 0⟩
abbrev STEP_GO_FRAC : Field := ⟨0x60, 0x024, 15, 0⟩
abbrev FRAME_OFFSET_FRAME_OFFSET : Field := ⟨0x60, 0x028, 31, 0⟩
abbrev GRID_CFG_SFN_OFFSET : Field := ⟨0x60, 0x02C, 9, 0⟩
abbrev SERVO_CTL_SOURCE : Field := ⟨0x60, 0x030, 1, 0⟩
abbrev SERVO_CTL_STEP_EN : Field := ⟨0x60, 0x030, 2, 2⟩
abbrev SERVO_CTL_FREQ_REF : Field := ⟨0x60, 0x030, 5, 4⟩
abbrev SERVO_CTL_SYNCE_LANE : Field := ⟨0x60, 0x030, 13, 8⟩
abbrev SERVO_KP_KP : Field := ⟨0x60, 0x034, 15, 0⟩
abbrev SERVO_KI_KI : Field := ⟨0x60, 0x038, 15, 0⟩
abbrev SERVO_LIMIT_LIMIT : Field := ⟨0x60, 0x03C, 17, 0⟩
abbrev SERVO_THRESH_STEP_THRESH : Field := ⟨0x60, 0x040, 15, 0⟩
abbrev SERVO_THRESH_LOCK_NS : Field := ⟨0x60, 0x040, 31, 16⟩
abbrev SERVO_HOLD_HOLD_MS : Field := ⟨0x60, 0x044, 15, 0⟩
abbrev OFFSET_NS_NS : Field := ⟨0x60, 0x048, 31, 0⟩
abbrev OFFSET_FRAC_FRAC : Field := ⟨0x60, 0x04C, 15, 0⟩
abbrev OFFSET_GO_STEP_OK : Field := ⟨0x60, 0x050, 0, 0⟩
abbrev SERVO_STATUS_STATE : Field := ⟨0x60, 0x054, 1, 0⟩
abbrev SERVO_STATUS_REF_LOST : Field := ⟨0x60, 0x054, 2, 2⟩
abbrev SERVO_FREQ_FREQ : Field := ⟨0x60, 0x058, 31, 0⟩
abbrev SERVO_LAST_E : Field := ⟨0x60, 0x05C, 31, 0⟩
abbrev PPS_IN_DELAY_DELAY : Field := ⟨0x60, 0x060, 31, 0⟩
abbrev PPS_OUT_EN : Field := ⟨0x60, 0x064, 0, 0⟩
abbrev PPS_OUT_WIDTH_US : Field := ⟨0x60, 0x064, 23, 4⟩
abbrev PPS_OUT_OFFSET_OFFSET : Field := ⟨0x60, 0x068, 31, 0⟩
abbrev GRID_SYMBOL (k : Nat) : Field := ⟨0x60, 0x070 + 0x4 * k, 20, 0⟩
abbrev GRID_SUBFRAME (k : Nat) : Field := ⟨0x60, 0x070 + 0x4 * k, 24, 21⟩
abbrev PPS_EDGES_COUNT : Field := ⟨0x60, 0x080, 31, 0⟩
abbrev PPS_REJECTED_COUNT : Field := ⟨0x60, 0x084, 31, 0⟩
abbrev STEPS_COUNT : Field := ⟨0x60, 0x088, 31, 0⟩
end Reg.TB

/-- The registers of class 0x60 TB. -/
def regsTB : List RegDef :=
  [⟨0x000, 0, 1, 252, [⟨.ro, 31, 0, 0⟩]⟩,
   ⟨0x004, 0, 1, 252, [⟨.ro, 15, 0, 0⟩]⟩,
   ⟨0x008, 0, 1, 252, [⟨.ro, 29, 0, 0⟩]⟩,
   ⟨0x00C, 0, 1, 252, [⟨.ro, 15, 0, 0⟩]⟩,
   ⟨0x010, 0, 1, 252, [⟨.ro, 31, 0, 0⟩]⟩,
   ⟨0x014, 0, 1, 252, [⟨.ro, 31, 0, 0⟩]⟩,
   ⟨0x018, 0, 1, commonModes, [⟨.rw, 31, 0, 0⟩]⟩,
   ⟨0x01C, 0, 1, commonModes, [⟨.rw, 15, 0, 0⟩, ⟨.rw, 30, 30, 0⟩, ⟨.rw, 31, 31, 0⟩]⟩,
   ⟨0x020, 0, 1, commonModes, [⟨.rw, 29, 0, 0⟩]⟩,
   ⟨0x024, 0, 1, commonModes, [⟨.wo, 15, 0, 0⟩]⟩,
   ⟨0x028, 0, 1, commonModes, [⟨.rw, 31, 0, 0⟩]⟩,
   ⟨0x02C, 0, 1, commonModes, [⟨.rw, 9, 0, 0⟩]⟩] ++
  [⟨0x030, 0, 1, commonModes, [⟨.rw, 1, 0, 0⟩, ⟨.rw, 2, 2, 1⟩, ⟨.rw, 5, 4, 0⟩, ⟨.rw, 13, 8, 0⟩]⟩,
   ⟨0x034, 0, 1, commonModes, [⟨.rw, 15, 0, 0xB3⟩]⟩,
   ⟨0x038, 0, 1, commonModes, [⟨.rw, 15, 0, 0x4D⟩]⟩,
   ⟨0x03C, 0, 1, commonModes, [⟨.rw, 17, 0, 0x186A0⟩]⟩,
   ⟨0x040, 0, 1, commonModes, [⟨.rw, 15, 0, 0x3E8⟩, ⟨.rw, 31, 16, 0x32⟩]⟩,
   ⟨0x044, 0, 1, commonModes, [⟨.rw, 15, 0, 0x5DC⟩]⟩,
   ⟨0x048, 0, 1, commonModes, [⟨.rw, 31, 0, 0⟩]⟩,
   ⟨0x04C, 0, 1, commonModes, [⟨.rw, 15, 0, 0⟩]⟩,
   ⟨0x050, 0, 1, commonModes, [⟨.wo, 0, 0, 0⟩]⟩,
   ⟨0x054, 0, 1, 252, [⟨.ro, 1, 0, 0⟩, ⟨.ro, 2, 2, 0⟩]⟩,
   ⟨0x058, 0, 1, 252, [⟨.ro, 31, 0, 0⟩]⟩,
   ⟨0x05C, 0, 1, 252, [⟨.ro, 31, 0, 0⟩]⟩] ++
  [⟨0x060, 0, 1, commonModes, [⟨.rw, 31, 0, 0⟩]⟩,
   ⟨0x064, 0, 1, commonModes, [⟨.rw, 0, 0, 0⟩, ⟨.rw, 23, 4, 0x186A0⟩]⟩,
   ⟨0x068, 0, 1, commonModes, [⟨.rw, 31, 0, 0⟩]⟩,
   ⟨0x070, 4, 4, 252, [⟨.ro, 20, 0, 0⟩, ⟨.ro, 24, 21, 0⟩]⟩,
   ⟨0x080, 0, 1, 252, [⟨.ro, 31, 0, 0⟩]⟩,
   ⟨0x084, 0, 1, 252, [⟨.ro, 31, 0, 0⟩]⟩,
   ⟨0x088, 0, 1, 252, [⟨.ro, 31, 0, 0⟩]⟩]

/-! Class 0x61 PTP_PORT, chapter 16. -/
namespace Reg.PTP_PORT
/-- Class number (R14). -/
abbrev cls : Nat := 0x61
abbrev CTL_TB : Field := ⟨0x61, 0x000, 1, 0⟩
abbrev CTL_ONE_STEP : Field := ⟨0x61, 0x000, 2, 2⟩
abbrev TX_ASYM_ASYM : Field := ⟨0x61, 0x004, 31, 0⟩
abbrev RX_ASYM_ASYM : Field := ⟨0x61, 0x008, 31, 0⟩
abbrev LAT_TX_LAT : Field := ⟨0x61, 0x00C, 15, 0⟩
abbrev LAT_RX_LAT : Field := ⟨0x61, 0x00C, 31, 16⟩
abbrev ONE_STEP_FRAMES_COUNT : Field := ⟨0x61, 0x010, 31, 0⟩
end Reg.PTP_PORT

/-- The registers of class 0x61 PTP_PORT. -/
def regsPTP_PORT : List RegDef :=
  [⟨0x000, 0, 1, commonModes, [⟨.rw, 1, 0, 0⟩, ⟨.rw, 2, 2, 0⟩]⟩,
   ⟨0x004, 0, 1, commonModes, [⟨.rw, 31, 0, 0⟩]⟩,
   ⟨0x008, 0, 1, commonModes, [⟨.rw, 31, 0, 0⟩]⟩,
   ⟨0x00C, 0, 1, commonModes, [⟨.ro, 15, 0, 0⟩, ⟨.ro, 31, 16, 0⟩]⟩,
   ⟨0x010, 0, 1, commonModes, [⟨.ro, 31, 0, 0⟩]⟩]

/-! Class 0x62 TDD_OUT, chapter 16. -/
namespace Reg.TDD_OUT
/-- Class number (R14). -/
abbrev cls : Nat := 0x62
abbrev CTL_TB : Field := ⟨0x62, 0x000, 1, 0⟩
abbrev CTL_MU : Field := ⟨0x62, 0x000, 4, 2⟩
abbrev CTL_INVERT : Field := ⟨0x62, 0x000, 5, 5⟩
abbrev CTL_QUIET_LEVEL : Field := ⟨0x62, 0x000, 6, 6⟩
abbrev OFFSET_OFFSET : Field := ⟨0x62, 0x004, 31, 0⟩
abbrev CLEAR_CLR_QUEUE : Field := ⟨0x62, 0x008, 0, 0⟩
abbrev EDGE_SEC_SEC : Field := ⟨0x62, 0x00C, 31, 0⟩
abbrev EDGE_TC_TC : Field := ⟨0x62, 0x010, 30, 0⟩
abbrev EDGE_PERIOD_PERIOD : Field := ⟨0x62, 0x014, 31, 0⟩
abbrev EDGE_COUNT_COUNT : Field := ⟨0x62, 0x018, 15, 0⟩
abbrev EDGE_PUSH_LEVEL : Field := ⟨0x62, 0x01C, 0, 0⟩
abbrev STATUS_QUEUED : Field := ⟨0x62, 0x040, 4, 0⟩
abbrev STATUS_LEVEL : Field := ⟨0x62, 0x040, 5, 5⟩
abbrev STATUS_PIN : Field := ⟨0x62, 0x040, 6, 6⟩
abbrev STATUS_QUIET : Field := ⟨0x62, 0x040, 7, 7⟩
abbrev MISSED_COUNT : Field := ⟨0x62, 0x044, 31, 0⟩
abbrev DROPS_COUNT : Field := ⟨0x62, 0x048, 31, 0⟩
end Reg.TDD_OUT

/-- The registers of class 0x62 TDD_OUT. -/
def regsTDD_OUT : List RegDef :=
  [⟨0x000, 0, 1, commonModes, [⟨.rw, 1, 0, 0⟩, ⟨.rw, 4, 2, 0⟩, ⟨.rw, 5, 5, 0⟩, ⟨.rw, 6, 6, 0⟩]⟩,
   ⟨0x004, 0, 1, commonModes, [⟨.rw, 31, 0, 0⟩]⟩,
   ⟨0x008, 0, 1, commonModes, [⟨.wo, 0, 0, 0⟩]⟩,
   ⟨0x00C, 0, 1, commonModes, [⟨.rw, 31, 0, 0⟩]⟩,
   ⟨0x010, 0, 1, commonModes, [⟨.rw, 30, 0, 0⟩]⟩,
   ⟨0x014, 0, 1, commonModes, [⟨.rw, 31, 0, 0⟩]⟩,
   ⟨0x018, 0, 1, commonModes, [⟨.rw, 15, 0, 0⟩]⟩,
   ⟨0x01C, 0, 1, commonModes, [⟨.wo, 0, 0, 0⟩]⟩,
   ⟨0x040, 0, 1, 252, [⟨.ro, 4, 0, 0⟩, ⟨.ro, 5, 5, 0⟩, ⟨.ro, 6, 6, 0⟩, ⟨.ro, 7, 7, 1⟩]⟩,
   ⟨0x044, 0, 1, 252, [⟨.ro, 31, 0, 0⟩]⟩,
   ⟨0x048, 0, 1, 252, [⟨.ro, 31, 0, 0⟩]⟩]

/-! Class 0x08 STRM_RX, chapter 04. -/
namespace Reg.STRM_RX
/-- Class number (R14). -/
abbrev cls : Nat := 0x08
abbrev CTL_ENABLE : Field := ⟨0x08, 0x000, 0, 0⟩
abbrev CTL_TB : Field := ⟨0x08, 0x000, 2, 1⟩
abbrev CTL_MU : Field := ⟨0x08, 0x000, 5, 3⟩
abbrev CTL_CP_EXT : Field := ⟨0x08, 0x000, 6, 6⟩
abbrev CTL_PROC : Field := ⟨0x08, 0x000, 7, 7⟩
abbrev CTL_FREQ_DOMAIN : Field := ⟨0x08, 0x000, 8, 8⟩
abbrev CTL_FFT_SIZE : Field := ⟨0x08, 0x000, 12, 9⟩
abbrev CTL_COMMIT_SLOT : Field := ⟨0x08, 0x000, 13, 13⟩
abbrev CTL_AGC_EN : Field := ⟨0x08, 0x000, 14, 14⟩
abbrev CTL_PHASE_COMP : Field := ⟨0x08, 0x000, 15, 15⟩
abbrev CTL_LTE_DC : Field := ⟨0x08, 0x000, 16, 16⟩
abbrev LINK_LANE : Field := ⟨0x08, 0x004, 5, 0⟩
abbrev LINK_STREAM : Field := ⟨0x08, 0x004, 9, 6⟩
abbrev TIME_OFFSET_TIME_OFFSET : Field := ⟨0x08, 0x008, 31, 0⟩
abbrev GAIN_GAIN_QDB : Field := ⟨0x08, 0x00C, 9, 0⟩
abbrev NCO_FREQ_NCO_FREQ : Field := ⟨0x08, 0x010, 31, 0⟩
abbrev LO_CORR_LO_CORR : Field := ⟨0x08, 0x014, 31, 0⟩
abbrev F0_UPCONV_F0 : Field := ⟨0x08, 0x018, 31, 0⟩
abbrev FFT_CFG_FFT_SEL : Field := ⟨0x08, 0x01C, 4, 0⟩
abbrev FFT_CFG_FFT_SHIFT : Field := ⟨0x08, 0x01C, 13, 10⟩
abbrev FFT_CFG_FFT_OFFSET : Field := ⟨0x08, 0x01C, 25, 14⟩
abbrev PRB_GRID_PRBS : Field := ⟨0x08, 0x020, 8, 0⟩
abbrev PRB_PRB_FIRST : Field := ⟨0x08, 0x020, 17, 9⟩
abbrev PRB_PRB_COUNT : Field := ⟨0x08, 0x020, 26, 18⟩
abbrev PRB_MANT : Field := ⟨0x08, 0x020, 31, 27⟩
abbrev GRID_BASE_LO_BASE_LO : Field := ⟨0x08, 0x024, 31, 0⟩
abbrev GRID_BASE_HI_BASE_HI : Field := ⟨0x08, 0x028, 7, 0⟩
abbrev GRID_GEOM_SYM_STRIDE : Field := ⟨0x08, 0x02C, 15, 0⟩
abbrev GRID_GEOM_GRID_SLOTS : Field := ⟨0x08, 0x02C, 23, 16⟩
abbrev KEYSIG_SYM_MASK (k : Nat) : Field := ⟨0x08, 0x030 + 0x4 * k, 13, 0⟩
abbrev KEYSIG_KEY_INDEX (k : Nat) : Field := ⟨0x08, 0x030 + 0x4 * k, 26, 14⟩
abbrev KEYSIG_ROT_LOG2 (k : Nat) : Field := ⟨0x08, 0x030 + 0x4 * k, 29, 27⟩
abbrev KEYSIG_EN (k : Nat) : Field := ⟨0x08, 0x030 + 0x4 * k, 31, 31⟩
abbrev PATTERN_CTL_PATTERN_LEN : Field := ⟨0x08, 0x040, 5, 0⟩
abbrev COMMIT_GO : Field := ⟨0x08, 0x060, 0, 0⟩
abbrev COMMIT_TARGET_TARGET : Field := ⟨0x08, 0x064, 20, 0⟩
abbrev COMMIT_TARGET_EN : Field := ⟨0x08, 0x064, 31, 31⟩
abbrev COMMIT_STATE_STATE : Field := ⟨0x08, 0x068, 1, 0⟩
abbrev COMMIT_STATE_LOCKED : Field := ⟨0x08, 0x068, 2, 2⟩
abbrev COMMIT_STATE_QUEUED : Field := ⟨0x08, 0x068, 3, 3⟩
abbrev COMMIT_STATE_LATE : Field := ⟨0x08, 0x068, 4, 4⟩
abbrev COMMIT_STATE_COMMIT_NUM : Field := ⟨0x08, 0x068, 31, 16⟩
abbrev APPLIED_SYMBOL_SYMBOL : Field := ⟨0x08, 0x06C, 20, 0⟩
abbrev STATUS_RUNNING : Field := ⟨0x08, 0x070, 0, 0⟩
abbrev STATUS_IN_GAP : Field := ⟨0x08, 0x070, 1, 1⟩
abbrev STATUS_PA_ON : Field := ⟨0x08, 0x070, 2, 2⟩
abbrev GAIN_NOW_GAIN_QDB : Field := ⟨0x08, 0x074, 9, 0⟩
abbrev EVENTS_FFT_DROP : Field := ⟨0x08, 0x078, 0, 0⟩
abbrev EVENTS_INPUT_GAP : Field := ⟨0x08, 0x078, 1, 1⟩
abbrev EVENTS_SAT : Field := ⟨0x08, 0x078, 2, 2⟩
abbrev EVENTS_WRITE_ERR : Field := ⟨0x08, 0x078, 3, 3⟩
abbrev EVENTS_POISON_READ : Field := ⟨0x08, 0x078, 4, 4⟩
abbrev EVENTS_COMMIT_LATE : Field := ⟨0x08, 0x078, 5, 5⟩
abbrev PATTERN_MASK_EVEN (k : Nat) : Field := ⟨0x08, 0x100 + 0x4 * k, 13, 0⟩
abbrev PATTERN_MASK_ODD (k : Nat) : Field := ⟨0x08, 0x100 + 0x4 * k, 29, 16⟩
abbrev AGC_CTL_TARGET : Field := ⟨0x08, 0x080, 7, 0⟩
abbrev AGC_CTL_STEP : Field := ⟨0x08, 0x080, 13, 8⟩
abbrev AGC_CTL_HYST : Field := ⟨0x08, 0x080, 17, 14⟩
abbrev AGC_CTL_WINDOW : Field := ⟨0x08, 0x080, 21, 18⟩
abbrev AGC_LIM_FLOOR : Field := ⟨0x08, 0x084, 9, 0⟩
abbrev AGC_LIM_CEIL : Field := ⟨0x08, 0x084, 25, 16⟩
abbrev PRACH_CTL_EN : Field := ⟨0x08, 0x088, 0, 0⟩
abbrev PRACH_CTL_PR_FFT : Field := ⟨0x08, 0x088, 3, 1⟩
abbrev PRACH_CTL_DECIM : Field := ⟨0x08, 0x088, 10, 4⟩
abbrev PRACH_CTL_BINS : Field := ⟨0x08, 0x088, 21, 11⟩
abbrev PRACH_CTL_REPS : Field := ⟨0x08, 0x088, 25, 22⟩
abbrev PRACH_TIME_PERIOD : Field := ⟨0x08, 0x08C, 7, 0⟩
abbrev PRACH_TIME_SLOT_OFFSET : Field := ⟨0x08, 0x08C, 15, 8⟩
abbrev PRACH_TIME_START : Field := ⟨0x08, 0x08C, 31, 16⟩
abbrev PRACH_NCO_PRACH_NCO : Field := ⟨0x08, 0x090, 31, 0⟩
abbrev PRACH_BASE_LO_BASE_LO : Field := ⟨0x08, 0x094, 31, 0⟩
abbrev PRACH_BASE_HI_BASE_HI : Field := ⟨0x08, 0x098, 7, 0⟩
abbrev PRACH_KEY_KEY_INDEX : Field := ⟨0x08, 0x09C, 12, 0⟩
abbrev PRACH_KEY_KEY_EN : Field := ⟨0x08, 0x09C, 13, 13⟩
abbrev PRACH_KEY_ROT_LOG2 : Field := ⟨0x08, 0x09C, 16, 14⟩
abbrev PRACH_KEY_BUFS : Field := ⟨0x08, 0x09C, 31, 24⟩
end Reg.STRM_RX

/-- The registers of class 0x08 STRM_RX. -/
def regsSTRM_RX : List RegDef :=
  [⟨0x000, 0, 1, commonModes, [⟨.rws, 0, 0, 0⟩, ⟨.rws, 2, 1, 0⟩, ⟨.rws, 5, 3, 0⟩, ⟨.rws, 6, 6, 0⟩, ⟨.rws, 7, 7, 0⟩, ⟨.rws, 8, 8, 0⟩, ⟨.rws, 12, 9, 7⟩, ⟨.rws, 13, 13, 0⟩, ⟨.rws, 14, 14, 0⟩, ⟨.rws, 15, 15, 0⟩, ⟨.rws, 16, 16, 0⟩]⟩,
   ⟨0x004, 0, 1, commonModes, [⟨.rws, 5, 0, 0⟩, ⟨.rws, 9, 6, 0⟩]⟩,
   ⟨0x008, 0, 1, commonModes, [⟨.rws, 31, 0, 0⟩]⟩,
   ⟨0x00C, 0, 1, commonModes, [⟨.rws, 9, 0, 0⟩]⟩,
   ⟨0x010, 0, 1, commonModes, [⟨.rws, 31, 0, 0⟩]⟩,
   ⟨0x014, 0, 1, commonModes, [⟨.rw, 31, 0, 0⟩]⟩,
   ⟨0x018, 0, 1, commonModes, [⟨.rws, 31, 0, 0⟩]⟩,
   ⟨0x01C, 0, 1, commonModes, [⟨.rws, 4, 0, 0⟩, ⟨.rws, 13, 10, 6⟩, ⟨.rws, 25, 14, 0⟩]⟩,
   ⟨0x020, 0, 1, commonModes, [⟨.rws, 8, 0, 0x111⟩, ⟨.rws, 17, 9, 0⟩, ⟨.rws, 26, 18, 0x111⟩, ⟨.rws, 31, 27, 9⟩]⟩,
   ⟨0x024, 0, 1, commonModes, [⟨.rws, 31, 0, 0⟩]⟩,
   ⟨0x028, 0, 1, commonModes, [⟨.rws, 7, 0, 0⟩]⟩,
   ⟨0x02C, 0, 1, commonModes, [⟨.rws, 15, 0, 0x1DE⟩, ⟨.rws, 23, 16, 2⟩]⟩] ++
  [⟨0x030, 4, 4, commonModes, [⟨.rws, 13, 0, 0⟩, ⟨.rws, 26, 14, 0⟩, ⟨.rws, 29, 27, 0⟩, ⟨.rws, 31, 31, 0⟩]⟩,
   ⟨0x040, 0, 1, commonModes, [⟨.rws, 5, 0, 1⟩]⟩,
   ⟨0x060, 0, 1, commonModes, [⟨.wo, 0, 0, 0⟩]⟩,
   ⟨0x064, 0, 1, commonModes, [⟨.rw, 20, 0, 0⟩, ⟨.rw, 31, 31, 0⟩]⟩,
   ⟨0x068, 0, 1, 252, [⟨.ro, 1, 0, 0⟩, ⟨.ro, 2, 2, 0⟩, ⟨.ro, 3, 3, 0⟩, ⟨.ro, 4, 4, 0⟩, ⟨.ro, 31, 16, 0⟩]⟩,
   ⟨0x06C, 0, 1, 252, [⟨.ro, 20, 0, 0⟩]⟩,
   ⟨0x070, 0, 1, 252, [⟨.ro, 0, 0, 0⟩, ⟨.ro, 1, 1, 0⟩, ⟨.ro, 2, 2, 0⟩]⟩,
   ⟨0x074, 0, 1, 252, [⟨.ro, 9, 0, 0⟩]⟩,
   ⟨0x078, 0, 1, commonModes, [⟨.w1c, 0, 0, 0⟩, ⟨.w1c, 1, 1, 0⟩, ⟨.w1c, 2, 2, 0⟩, ⟨.w1c, 3, 3, 0⟩, ⟨.w1c, 4, 4, 0⟩, ⟨.w1c, 5, 5, 0⟩]⟩,
   ⟨0x100, 4, 20, commonModes, [⟨.rws, 13, 0, 0x3FFF⟩, ⟨.rws, 29, 16, 0x3FFF⟩]⟩,
   ⟨0x080, 0, 1, commonModes, [⟨.rws, 7, 0, 0xB8⟩, ⟨.rws, 13, 8, 4⟩, ⟨.rws, 17, 14, 2⟩, ⟨.rws, 21, 18, 4⟩]⟩,
   ⟨0x084, 0, 1, commonModes, [⟨.rws, 9, 0, 0x340⟩, ⟨.rws, 25, 16, 0x60⟩]⟩] ++
  [⟨0x088, 0, 1, commonModes, [⟨.rws, 0, 0, 0⟩, ⟨.rws, 3, 1, 3⟩, ⟨.rws, 10, 4, 1⟩, ⟨.rws, 21, 11, 0x347⟩, ⟨.rws, 25, 22, 1⟩]⟩,
   ⟨0x08C, 0, 1, commonModes, [⟨.rws, 7, 0, 1⟩, ⟨.rws, 15, 8, 0⟩, ⟨.rws, 31, 16, 0⟩]⟩,
   ⟨0x090, 0, 1, commonModes, [⟨.rws, 31, 0, 0⟩]⟩,
   ⟨0x094, 0, 1, commonModes, [⟨.rws, 31, 0, 0⟩]⟩,
   ⟨0x098, 0, 1, commonModes, [⟨.rws, 7, 0, 0⟩]⟩,
   ⟨0x09C, 0, 1, commonModes, [⟨.rws, 12, 0, 0⟩, ⟨.rws, 13, 13, 0⟩, ⟨.rws, 16, 14, 0⟩, ⟨.rws, 31, 24, 2⟩]⟩]

/-! Class 0x09 STRM_TX, chapter 04. -/
namespace Reg.STRM_TX
/-- Class number (R14). -/
abbrev cls : Nat := 0x09
abbrev CTL_ENABLE : Field := ⟨0x09, 0x000, 0, 0⟩
abbrev CTL_TB : Field := ⟨0x09, 0x000, 2, 1⟩
abbrev CTL_MU : Field := ⟨0x09, 0x000, 5, 3⟩
abbrev CTL_CP_EXT : Field := ⟨0x09, 0x000, 6, 6⟩
abbrev CTL_PROC : Field := ⟨0x09, 0x000, 7, 7⟩
abbrev CTL_FREQ_DOMAIN : Field := ⟨0x09, 0x000, 8, 8⟩
abbrev CTL_FFT_SIZE : Field := ⟨0x09, 0x000, 12, 9⟩
abbrev CTL_COMMIT_SLOT : Field := ⟨0x09, 0x000, 13, 13⟩
abbrev CTL_AGC_EN : Field := ⟨0x09, 0x000, 14, 14⟩
abbrev CTL_PHASE_COMP : Field := ⟨0x09, 0x000, 15, 15⟩
abbrev CTL_LTE_DC : Field := ⟨0x09, 0x000, 16, 16⟩
abbrev LINK_LANE : Field := ⟨0x09, 0x004, 5, 0⟩
abbrev LINK_STREAM : Field := ⟨0x09, 0x004, 9, 6⟩
abbrev TIME_OFFSET_TIME_OFFSET : Field := ⟨0x09, 0x008, 31, 0⟩
abbrev GAIN_GAIN_QDB : Field := ⟨0x09, 0x00C, 9, 0⟩
abbrev NCO_FREQ_NCO_FREQ : Field := ⟨0x09, 0x010, 31, 0⟩
abbrev LO_CORR_LO_CORR : Field := ⟨0x09, 0x014, 31, 0⟩
abbrev F0_UPCONV_F0 : Field := ⟨0x09, 0x018, 31, 0⟩
abbrev FFT_CFG_FFT_SEL : Field := ⟨0x09, 0x01C, 4, 0⟩
abbrev FFT_CFG_FFT_SHIFT : Field := ⟨0x09, 0x01C, 13, 10⟩
abbrev FFT_CFG_FFT_OFFSET : Field := ⟨0x09, 0x01C, 25, 14⟩
abbrev PRB_GRID_PRBS : Field := ⟨0x09, 0x020, 8, 0⟩
abbrev PRB_PRB_FIRST : Field := ⟨0x09, 0x020, 17, 9⟩
abbrev PRB_PRB_COUNT : Field := ⟨0x09, 0x020, 26, 18⟩
abbrev PRB_MANT : Field := ⟨0x09, 0x020, 31, 27⟩
abbrev GRID_BASE_LO_BASE_LO : Field := ⟨0x09, 0x024, 31, 0⟩
abbrev GRID_BASE_HI_BASE_HI : Field := ⟨0x09, 0x028, 7, 0⟩
abbrev GRID_GEOM_SYM_STRIDE : Field := ⟨0x09, 0x02C, 15, 0⟩
abbrev GRID_GEOM_GRID_SLOTS : Field := ⟨0x09, 0x02C, 23, 16⟩
abbrev KEYSIG_SYM_MASK (k : Nat) : Field := ⟨0x09, 0x030 + 0x4 * k, 13, 0⟩
abbrev KEYSIG_KEY_INDEX (k : Nat) : Field := ⟨0x09, 0x030 + 0x4 * k, 26, 14⟩
abbrev KEYSIG_ROT_LOG2 (k : Nat) : Field := ⟨0x09, 0x030 + 0x4 * k, 29, 27⟩
abbrev KEYSIG_EN (k : Nat) : Field := ⟨0x09, 0x030 + 0x4 * k, 31, 31⟩
abbrev PATTERN_CTL_PATTERN_LEN : Field := ⟨0x09, 0x040, 5, 0⟩
abbrev COMMIT_GO : Field := ⟨0x09, 0x060, 0, 0⟩
abbrev COMMIT_TARGET_TARGET : Field := ⟨0x09, 0x064, 20, 0⟩
abbrev COMMIT_TARGET_EN : Field := ⟨0x09, 0x064, 31, 31⟩
abbrev COMMIT_STATE_STATE : Field := ⟨0x09, 0x068, 1, 0⟩
abbrev COMMIT_STATE_LOCKED : Field := ⟨0x09, 0x068, 2, 2⟩
abbrev COMMIT_STATE_QUEUED : Field := ⟨0x09, 0x068, 3, 3⟩
abbrev COMMIT_STATE_LATE : Field := ⟨0x09, 0x068, 4, 4⟩
abbrev COMMIT_STATE_COMMIT_NUM : Field := ⟨0x09, 0x068, 31, 16⟩
abbrev APPLIED_SYMBOL_SYMBOL : Field := ⟨0x09, 0x06C, 20, 0⟩
abbrev STATUS_RUNNING : Field := ⟨0x09, 0x070, 0, 0⟩
abbrev STATUS_IN_GAP : Field := ⟨0x09, 0x070, 1, 1⟩
abbrev STATUS_PA_ON : Field := ⟨0x09, 0x070, 2, 2⟩
abbrev GAIN_NOW_GAIN_QDB : Field := ⟨0x09, 0x074, 9, 0⟩
abbrev EVENTS_FFT_DROP : Field := ⟨0x09, 0x078, 0, 0⟩
abbrev EVENTS_INPUT_GAP : Field := ⟨0x09, 0x078, 1, 1⟩
abbrev EVENTS_SAT : Field := ⟨0x09, 0x078, 2, 2⟩
abbrev EVENTS_WRITE_ERR : Field := ⟨0x09, 0x078, 3, 3⟩
abbrev EVENTS_POISON_READ : Field := ⟨0x09, 0x078, 4, 4⟩
abbrev EVENTS_COMMIT_LATE : Field := ⟨0x09, 0x078, 5, 5⟩
abbrev PATTERN_MASK_EVEN (k : Nat) : Field := ⟨0x09, 0x100 + 0x4 * k, 13, 0⟩
abbrev PATTERN_MASK_ODD (k : Nat) : Field := ⟨0x09, 0x100 + 0x4 * k, 29, 16⟩
abbrev TX_LEAD_LEAD : Field := ⟨0x09, 0x080, 23, 0⟩
abbrev RAMP_RAMP_NS : Field := ⟨0x09, 0x084, 11, 0⟩
abbrev RAMP_RAMP_EN : Field := ⟨0x09, 0x084, 12, 12⟩
abbrev PA_TIMING_PA_LEAD_NS : Field := ⟨0x09, 0x088, 15, 0⟩
abbrev PA_TIMING_PA_LAG_NS : Field := ⟨0x09, 0x088, 31, 16⟩
abbrev PA_OUT_AHNENT_PA : Field := ⟨0x09, 0x08C, 0, 0⟩
abbrev PA_OUT_PIN_EN : Field := ⟨0x09, 0x08C, 1, 1⟩
abbrev PA_OUT_PIN : Field := ⟨0x09, 0x08C, 5, 2⟩
end Reg.STRM_TX

/-- The registers of class 0x09 STRM_TX. -/
def regsSTRM_TX : List RegDef :=
  [⟨0x000, 0, 1, commonModes, [⟨.rws, 0, 0, 0⟩, ⟨.rws, 2, 1, 0⟩, ⟨.rws, 5, 3, 0⟩, ⟨.rws, 6, 6, 0⟩, ⟨.rws, 7, 7, 0⟩, ⟨.rws, 8, 8, 0⟩, ⟨.rws, 12, 9, 7⟩, ⟨.rws, 13, 13, 0⟩, ⟨.ro, 14, 14, 0⟩, ⟨.rws, 15, 15, 0⟩, ⟨.ro, 16, 16, 0⟩]⟩,
   ⟨0x004, 0, 1, commonModes, [⟨.rws, 5, 0, 0⟩, ⟨.rws, 9, 6, 0⟩]⟩,
   ⟨0x008, 0, 1, commonModes, [⟨.rws, 31, 0, 0⟩]⟩,
   ⟨0x00C, 0, 1, commonModes, [⟨.rws, 9, 0, 0⟩]⟩,
   ⟨0x010, 0, 1, commonModes, [⟨.rws, 31, 0, 0⟩]⟩,
   ⟨0x014, 0, 1, commonModes, [⟨.rw, 31, 0, 0⟩]⟩,
   ⟨0x018, 0, 1, commonModes, [⟨.rws, 31, 0, 0⟩]⟩,
   ⟨0x01C, 0, 1, commonModes, [⟨.rws, 4, 0, 0⟩, ⟨.rws, 13, 10, 6⟩, ⟨.rws, 25, 14, 0⟩]⟩,
   ⟨0x020, 0, 1, commonModes, [⟨.rws, 8, 0, 0x111⟩, ⟨.rws, 17, 9, 0⟩, ⟨.rws, 26, 18, 0x111⟩, ⟨.rws, 31, 27, 9⟩]⟩,
   ⟨0x024, 0, 1, commonModes, [⟨.rws, 31, 0, 0⟩]⟩,
   ⟨0x028, 0, 1, commonModes, [⟨.rws, 7, 0, 0⟩]⟩,
   ⟨0x02C, 0, 1, commonModes, [⟨.rws, 15, 0, 0x1DE⟩, ⟨.rws, 23, 16, 2⟩]⟩] ++
  [⟨0x030, 4, 4, commonModes, [⟨.rws, 13, 0, 0⟩, ⟨.rws, 26, 14, 0⟩, ⟨.rws, 29, 27, 0⟩, ⟨.rws, 31, 31, 0⟩]⟩,
   ⟨0x040, 0, 1, commonModes, [⟨.rws, 5, 0, 1⟩]⟩,
   ⟨0x060, 0, 1, commonModes, [⟨.wo, 0, 0, 0⟩]⟩,
   ⟨0x064, 0, 1, commonModes, [⟨.rw, 20, 0, 0⟩, ⟨.rw, 31, 31, 0⟩]⟩,
   ⟨0x068, 0, 1, 252, [⟨.ro, 1, 0, 0⟩, ⟨.ro, 2, 2, 0⟩, ⟨.ro, 3, 3, 0⟩, ⟨.ro, 4, 4, 0⟩, ⟨.ro, 31, 16, 0⟩]⟩,
   ⟨0x06C, 0, 1, 252, [⟨.ro, 20, 0, 0⟩]⟩,
   ⟨0x070, 0, 1, 252, [⟨.ro, 0, 0, 0⟩, ⟨.ro, 1, 1, 0⟩, ⟨.ro, 2, 2, 0⟩]⟩,
   ⟨0x074, 0, 1, 252, [⟨.ro, 9, 0, 0⟩]⟩,
   ⟨0x078, 0, 1, commonModes, [⟨.w1c, 0, 0, 0⟩, ⟨.w1c, 1, 1, 0⟩, ⟨.w1c, 2, 2, 0⟩, ⟨.w1c, 3, 3, 0⟩, ⟨.w1c, 4, 4, 0⟩, ⟨.w1c, 5, 5, 0⟩]⟩,
   ⟨0x100, 4, 20, commonModes, [⟨.rws, 13, 0, 0x3FFF⟩, ⟨.rws, 29, 16, 0x3FFF⟩]⟩,
   ⟨0x080, 0, 1, commonModes, [⟨.rws, 23, 0, 0xC00⟩]⟩,
   ⟨0x084, 0, 1, commonModes, [⟨.rws, 11, 0, 0x3E8⟩, ⟨.rws, 12, 12, 1⟩]⟩] ++
  [⟨0x088, 0, 1, commonModes, [⟨.rws, 15, 0, 0x3E8⟩, ⟨.rws, 31, 16, 0x1F4⟩]⟩,
   ⟨0x08C, 0, 1, commonModes, [⟨.rws, 0, 0, 0⟩, ⟨.rws, 1, 1, 0⟩, ⟨.rws, 5, 2, 0⟩]⟩]

/-! Class 0x0A FFT, chapter 04. -/
namespace Reg.FFT
/-- Class number (R14). -/
abbrev cls : Nat := 0x0A
abbrev STATUS_DEPTH : Field := ⟨0x0A, 0x000, 3, 0⟩
abbrev STATUS_MAX_DEPTH : Field := ⟨0x0A, 0x000, 7, 4⟩
abbrev DROPS_DROPS : Field := ⟨0x0A, 0x004, 31, 0⟩
abbrev CLEAR_CLR_MAX : Field := ⟨0x0A, 0x008, 0, 0⟩
abbrev CLEAR_CLR_DROPS : Field := ⟨0x0A, 0x008, 1, 1⟩
end Reg.FFT

/-- The registers of class 0x0A FFT. -/
def regsFFT : List RegDef :=
  [⟨0x000, 0, 1, 252, [⟨.ro, 3, 0, 0⟩, ⟨.ro, 7, 4, 0⟩]⟩,
   ⟨0x004, 0, 1, 252, [⟨.ro, 31, 0, 0⟩]⟩,
   ⟨0x008, 0, 1, commonModes, [⟨.wo, 0, 0, 0⟩, ⟨.wo, 1, 1, 0⟩]⟩]

/-! Class 0x0B FE, chapter 04. -/
namespace Reg.FE
/-- Class number (R14). -/
abbrev cls : Nat := 0x0B
abbrev STATUS_RX_ENABLED : Field := ⟨0x0B, 0x000, 6, 0⟩
abbrev STATUS_TX_ENABLED : Field := ⟨0x0B, 0x000, 14, 8⟩
abbrev STATUS_IDLE : Field := ⟨0x0B, 0x000, 16, 16⟩
end Reg.FE

/-- The registers of class 0x0B FE. -/
def regsFE : List RegDef :=
  [⟨0x000, 0, 1, 252, [⟨.ro, 6, 0, 0⟩, ⟨.ro, 14, 8, 0⟩, ⟨.ro, 16, 16, 1⟩]⟩]

/-! Class 0x50 LANEQ, chapter 14. -/
namespace Reg.LANEQ
/-- Class number (R14). -/
abbrev cls : Nat := 0x50
abbrev PROTO_PROTOCOL : Field := ⟨0x50, 0x000, 0, 0⟩
abbrev PROTO_RATE : Field := ⟨0x50, 0x000, 2, 1⟩
abbrev STATUS_PLL_LOCK : Field := ⟨0x50, 0x004, 0, 0⟩
abbrev STATUS_CAL_DONE : Field := ⟨0x50, 0x004, 1, 1⟩
abbrev STATUS_SWITCHING : Field := ⟨0x50, 0x004, 2, 2⟩
abbrev STATUS_HELD : Field := ⟨0x50, 0x004, 3, 3⟩
end Reg.LANEQ

/-- The registers of class 0x50 LANEQ. -/
def regsLANEQ : List RegDef :=
  [⟨0x000, 0, 1, commonModes, [⟨.rw, 0, 0, 0⟩, ⟨.rw, 2, 1, 1⟩]⟩,
   ⟨0x004, 0, 1, 252, [⟨.ro, 0, 0, 0⟩, ⟨.ro, 1, 1, 0⟩, ⟨.ro, 2, 2, 0⟩, ⟨.ro, 3, 3, 0⟩]⟩]

/-! Class 0x51 LANE, chapter 14. -/
namespace Reg.LANE
/-- Class number (R14). -/
abbrev cls : Nat := 0x51
abbrev CTL_TX_EN : Field := ⟨0x51, 0x000, 0, 0⟩
abbrev CTL_RX_EN : Field := ⟨0x51, 0x000, 1, 1⟩
abbrev CTL_TX_INV : Field := ⟨0x51, 0x000, 2, 2⟩
abbrev CTL_RX_INV : Field := ⟨0x51, 0x000, 3, 3⟩
abbrev CTL_LOOPBACK : Field := ⟨0x51, 0x000, 4, 4⟩
abbrev CTL_ADAPT_EN : Field := ⟨0x51, 0x000, 5, 5⟩
abbrev TXFIR_PRE : Field := ⟨0x51, 0x004, 3, 0⟩
abbrev TXFIR_MAIN : Field := ⟨0x51, 0x004, 13, 8⟩
abbrev TXFIR_POST : Field := ⟨0x51, 0x004, 20, 16⟩
abbrev RXEQ_CTLE : Field := ⟨0x51, 0x008, 3, 0⟩
abbrev GATE_MIN_LEVEL : Field := ⟨0x51, 0x00C, 11, 0⟩
abbrev GATE_MIN_TRANS : Field := ⟨0x51, 0x00C, 27, 16⟩
abbrev PRBS_TX_PRBS : Field := ⟨0x51, 0x010, 0, 0⟩
abbrev PRBS_RX_CHECK : Field := ⟨0x51, 0x010, 1, 1⟩
abbrev RECAL_GO : Field := ⟨0x51, 0x014, 0, 0⟩
abbrev STATUS_SIGNAL : Field := ⟨0x51, 0x040, 0, 0⟩
abbrev STATUS_CDR_LOCK : Field := ⟨0x51, 0x040, 1, 1⟩
abbrev STATUS_RECAL_BUSY : Field := ⟨0x51, 0x040, 2, 2⟩
abbrev STATUS_IDLE : Field := ⟨0x51, 0x040, 3, 3⟩
abbrev EQ_NOW_CTLE : Field := ⟨0x51, 0x044, 3, 0⟩
abbrev DFE_TAPS (k : Nat) : Field := ⟨0x51, 0x048 + 0x4 * k, 31, 0⟩
abbrev ADAPT_UPDATES_COUNT : Field := ⟨0x51, 0x054, 31, 0⟩
abbrev ADAPT_HELD_COUNT : Field := ⟨0x51, 0x058, 31, 0⟩
abbrev PRBS_ERR_COUNT : Field := ⟨0x51, 0x05C, 31, 0⟩
end Reg.LANE

/-- The registers of class 0x51 LANE. -/
def regsLANE : List RegDef :=
  [⟨0x000, 0, 1, commonModes, [⟨.rw, 0, 0, 0⟩, ⟨.rw, 1, 1, 0⟩, ⟨.rw, 2, 2, 0⟩, ⟨.rw, 3, 3, 0⟩, ⟨.rw, 4, 4, 0⟩, ⟨.rw, 5, 5, 1⟩]⟩,
   ⟨0x004, 0, 1, commonModes, [⟨.rw, 3, 0, 4⟩, ⟨.rw, 13, 8, 0x34⟩, ⟨.rw, 20, 16, 7⟩]⟩,
   ⟨0x008, 0, 1, commonModes, [⟨.rw, 3, 0, 8⟩]⟩,
   ⟨0x00C, 0, 1, commonModes, [⟨.rw, 11, 0, 0x100⟩, ⟨.rw, 27, 16, 0x400⟩]⟩,
   ⟨0x010, 0, 1, commonModes, [⟨.rw, 0, 0, 0⟩, ⟨.rw, 1, 1, 0⟩]⟩,
   ⟨0x014, 0, 1, commonModes, [⟨.wo, 0, 0, 0⟩]⟩,
   ⟨0x040, 0, 1, 252, [⟨.ro, 0, 0, 0⟩, ⟨.ro, 1, 1, 0⟩, ⟨.ro, 2, 2, 0⟩, ⟨.ro, 3, 3, 0⟩]⟩,
   ⟨0x044, 0, 1, 252, [⟨.ro, 3, 0, 0⟩]⟩,
   ⟨0x048, 4, 3, 252, [⟨.ro, 31, 0, 0⟩]⟩,
   ⟨0x054, 0, 1, 252, [⟨.ro, 31, 0, 0⟩]⟩,
   ⟨0x058, 0, 1, 252, [⟨.ro, 31, 0, 0⟩]⟩,
   ⟨0x05C, 0, 1, 252, [⟨.ro, 31, 0, 0⟩]⟩]

/-! Class 0x52 AHNENT, chapter 14. -/
namespace Reg.AHNENT
/-- Class number (R14). -/
abbrev cls : Nat := 0x52
abbrev CTL_FEC_EN : Field := ⟨0x52, 0x000, 0, 0⟩
abbrev CTL_IDLE_EN : Field := ⟨0x52, 0x000, 1, 1⟩
abbrev CTL_RX_IDLE_OK : Field := ⟨0x52, 0x000, 2, 2⟩
abbrev TIMING_TRAIN_US : Field := ⟨0x52, 0x004, 15, 0⟩
abbrev TIMING_RETRAIN_US : Field := ⟨0x52, 0x004, 31, 16⟩
abbrev IDLE_CFG_IDLE_MIN : Field := ⟨0x52, 0x008, 7, 0⟩
abbrev IDLE_CFG_CW_LEAD_MF : Field := ⟨0x52, 0x008, 12, 8⟩
abbrev USER_CW_LANE : Field := ⟨0x52, 0x00C, 1, 0⟩
abbrev USER_CW_STREAM : Field := ⟨0x52, 0x00C, 5, 2⟩
abbrev USER_CW_ARG : Field := ⟨0x52, 0x00C, 31, 16⟩
abbrev PROTECT_WORK : Field := ⟨0x52, 0x010, 5, 0⟩
abbrev PROTECT_PROT : Field := ⟨0x52, 0x010, 13, 8⟩
abbrev PROTECT_EN : Field := ⟨0x52, 0x010, 16, 16⟩
abbrev PROTECT_ACTIVE : Field := ⟨0x52, 0x010, 17, 17⟩
abbrev STREAM_SLOTS (k : Nat) : Field := ⟨0x52, 0x100 + 0x4 * k, 4, 0⟩
abbrev STREAM_IQW (k : Nat) : Field := ⟨0x52, 0x100 + 0x4 * k, 11, 8⟩
abbrev STREAM_EN (k : Nat) : Field := ⟨0x52, 0x100 + 0x4 * k, 12, 12⟩
abbrev LANE_STATUS_RX_STATE (k : Nat) : Field := ⟨0x52, 0x040 + 0x4 * k, 2, 0⟩
abbrev LANE_STATUS_TX_STATE (k : Nat) : Field := ⟨0x52, 0x040 + 0x4 * k, 6, 4⟩
abbrev LANE_STATUS_MFN (k : Nat) : Field := ⟨0x52, 0x040 + 0x4 * k, 15, 8⟩
abbrev LANE_STATUS_CW_QUEUE (k : Nat) : Field := ⟨0x52, 0x040 + 0x4 * k, 21, 16⟩
abbrev HDR_ERR_COUNT : Field := ⟨0x52, 0x050, 31, 0⟩
abbrev FEC_CORR_COUNT : Field := ⟨0x52, 0x054, 31, 0⟩
abbrev FEC_UNCORR_COUNT : Field := ⟨0x52, 0x058, 31, 0⟩
abbrev CW_LATE_COUNT : Field := ⟨0x52, 0x05C, 31, 0⟩
abbrev IDLE_LATE_COUNT : Field := ⟨0x52, 0x060, 31, 0⟩
abbrev CW_UNKNOWN_COUNT : Field := ⟨0x52, 0x064, 31, 0⟩
abbrev RX_CW_LOST_COUNT : Field := ⟨0x52, 0x068, 31, 0⟩
abbrev RX_CW_VALID (k : Nat) : Field := ⟨0x52, 0x070 + 0x4 * k, 0, 0⟩
abbrev RX_CW_STREAM (k : Nat) : Field := ⟨0x52, 0x070 + 0x4 * k, 7, 4⟩
abbrev RX_CW_ARG (k : Nat) : Field := ⟨0x52, 0x070 + 0x4 * k, 31, 16⟩
end Reg.AHNENT

/-- The registers of class 0x52 AHNENT. -/
def regsAHNENT : List RegDef :=
  [⟨0x000, 0, 1, commonModes, [⟨.rw, 0, 0, 0⟩, ⟨.rw, 1, 1, 0⟩, ⟨.rw, 2, 2, 1⟩]⟩,
   ⟨0x004, 0, 1, commonModes, [⟨.rw, 15, 0, 0xC8⟩, ⟨.rw, 31, 16, 0x3E8⟩]⟩,
   ⟨0x008, 0, 1, commonModes, [⟨.rw, 7, 0, 0xA⟩, ⟨.rw, 12, 8, 8⟩]⟩,
   ⟨0x00C, 0, 1, commonModes, [⟨.wo, 1, 0, 0⟩, ⟨.wo, 5, 2, 0⟩, ⟨.wo, 31, 16, 0⟩]⟩,
   ⟨0x010, 0, 1, commonModes, [⟨.rw, 5, 0, 0⟩, ⟨.rw, 13, 8, 0⟩, ⟨.rw, 16, 16, 0⟩, ⟨.rw, 17, 17, 0⟩]⟩,
   ⟨0x100, 4, 64, commonModes, [⟨.rw, 4, 0, 5⟩, ⟨.rw, 11, 8, 0⟩, ⟨.rw, 12, 12, 0⟩]⟩,
   ⟨0x040, 4, 4, 252, [⟨.ro, 2, 0, 0⟩, ⟨.ro, 6, 4, 0⟩, ⟨.ro, 15, 8, 0⟩, ⟨.ro, 21, 16, 0⟩]⟩,
   ⟨0x050, 0, 1, 252, [⟨.ro, 31, 0, 0⟩]⟩,
   ⟨0x054, 0, 1, 252, [⟨.ro, 31, 0, 0⟩]⟩,
   ⟨0x058, 0, 1, 252, [⟨.ro, 31, 0, 0⟩]⟩,
   ⟨0x05C, 0, 1, 252, [⟨.ro, 31, 0, 0⟩]⟩,
   ⟨0x060, 0, 1, 252, [⟨.ro, 31, 0, 0⟩]⟩] ++
  [⟨0x064, 0, 1, 252, [⟨.ro, 31, 0, 0⟩]⟩,
   ⟨0x068, 0, 1, 252, [⟨.ro, 31, 0, 0⟩]⟩,
   ⟨0x070, 4, 4, 252, [⟨.ro, 0, 0, 0⟩, ⟨.ro, 7, 4, 0⟩, ⟨.ro, 31, 16, 0⟩]⟩]

/-! Class 0x11 SETT, chapter 05. -/
namespace Reg.SETT
/-- Class number (R14). -/
abbrev cls : Nat := 0x11
abbrev CTL_HALT_REQ : Field := ⟨0x11, 0x000, 0, 0⟩
abbrev CTL_STEP : Field := ⟨0x11, 0x000, 1, 1⟩
abbrev CTL_WDOG_EN : Field := ⟨0x11, 0x000, 2, 2⟩
abbrev STATUS_STATE : Field := ⟨0x11, 0x004, 2, 0⟩
abbrev STATUS_COBBLE : Field := ⟨0x11, 0x004, 3, 3⟩
abbrev STATUS_ROT : Field := ⟨0x11, 0x004, 7, 4⟩
abbrev STATUS_TASK : Field := ⟨0x11, 0x004, 29, 16⟩
abbrev PC_PC : Field := ⟨0x11, 0x008, 15, 0⟩
abbrev EXC_CAUSE : Field := ⟨0x11, 0x00C, 7, 0⟩
abbrev EXC_NEW : Field := ⟨0x11, 0x00C, 8, 8⟩
abbrev EXC_COUNT : Field := ⟨0x11, 0x00C, 31, 16⟩
abbrev EXC_PC_EXC_PC : Field := ⟨0x11, 0x010, 15, 0⟩
abbrev EXC_ADDR_LO_ADDR_LO : Field := ⟨0x11, 0x014, 31, 0⟩
abbrev EXC_ADDR_HI_ADDR_HI : Field := ⟨0x11, 0x018, 7, 0⟩
abbrev EXC_INFO_REP_LEFT : Field := ⟨0x11, 0x01C, 13, 0⟩
abbrev EXC_INFO_SLOT : Field := ⟨0x11, 0x01C, 15, 14⟩
abbrev EXC_INFO_TRAP_CODE : Field := ⟨0x11, 0x01C, 31, 18⟩
abbrev FLAGS_OV : Field := ⟨0x11, 0x020, 7, 0⟩
abbrev FLAGS_SAT : Field := ⟨0x11, 0x020, 8, 8⟩
abbrev WDOG_LIMIT : Field := ⟨0x11, 0x024, 15, 0⟩
abbrev DBG_SEL_REG : Field := ⟨0x11, 0x028, 7, 0⟩
abbrev DBG_SEL_WORD : Field := ⟨0x11, 0x028, 13, 8⟩
abbrev DBG_DATA_DATA : Field := ⟨0x11, 0x02C, 31, 0⟩
end Reg.SETT

/-- The registers of class 0x11 SETT. -/
def regsSETT : List RegDef :=
  [⟨0x000, 0, 1, commonModes, [⟨.rw, 0, 0, 0⟩, ⟨.wo, 1, 1, 0⟩, ⟨.rw, 2, 2, 1⟩]⟩,
   ⟨0x004, 0, 1, 252, [⟨.ro, 2, 0, 0⟩, ⟨.ro, 3, 3, 0⟩, ⟨.ro, 7, 4, 0⟩, ⟨.ro, 29, 16, 0⟩]⟩,
   ⟨0x008, 0, 1, 252, [⟨.ro, 15, 0, 0⟩]⟩,
   ⟨0x00C, 0, 1, commonModes, [⟨.ro, 7, 0, 0⟩, ⟨.w1c, 8, 8, 0⟩, ⟨.ro, 31, 16, 0⟩]⟩,
   ⟨0x010, 0, 1, 252, [⟨.ro, 15, 0, 0⟩]⟩,
   ⟨0x014, 0, 1, 252, [⟨.ro, 31, 0, 0⟩]⟩,
   ⟨0x018, 0, 1, 252, [⟨.ro, 7, 0, 0⟩]⟩,
   ⟨0x01C, 0, 1, 252, [⟨.ro, 13, 0, 0⟩, ⟨.ro, 15, 14, 0⟩, ⟨.ro, 31, 18, 0⟩]⟩,
   ⟨0x020, 0, 1, 252, [⟨.ro, 7, 0, 0⟩, ⟨.ro, 8, 8, 0⟩]⟩,
   ⟨0x024, 0, 1, commonModes, [⟨.rw, 15, 0, 0x4B⟩]⟩,
   ⟨0x028, 0, 1, commonModes, [⟨.rw, 7, 0, 0⟩, ⟨.rw, 13, 8, 0⟩]⟩,
   ⟨0x02C, 0, 1, 252, [⟨.ro, 31, 0, 0⟩]⟩]

/-! Class 0x12 CMU, chapter 05. -/
namespace Reg.CMU
/-- Class number (R14). -/
abbrev cls : Nat := 0x12
abbrev STATUS_DEPTH : Field := ⟨0x12, 0x000, 23, 0⟩
abbrev STATUS_BUSY : Field := ⟨0x12, 0x000, 24, 24⟩
abbrev ERRORS_ADDR : Field := ⟨0x12, 0x004, 0, 0⟩
abbrev ERRORS_NONPD : Field := ⟨0x12, 0x004, 1, 1⟩
abbrev ERRORS_SAT : Field := ⟨0x12, 0x004, 2, 2⟩
abbrev ERRORS_POISON : Field := ⟨0x12, 0x004, 3, 3⟩
abbrev JOBS_JOBS : Field := ⟨0x12, 0x008, 31, 0⟩
end Reg.CMU

/-- The registers of class 0x12 CMU. -/
def regsCMU : List RegDef :=
  [⟨0x000, 0, 1, 252, [⟨.ro, 23, 0, 0⟩, ⟨.ro, 24, 24, 0⟩]⟩,
   ⟨0x004, 0, 1, commonModes, [⟨.w1c, 0, 0, 0⟩, ⟨.w1c, 1, 1, 0⟩, ⟨.w1c, 2, 2, 0⟩, ⟨.w1c, 3, 3, 0⟩]⟩,
   ⟨0x008, 0, 1, 252, [⟨.ro, 31, 0, 0⟩]⟩]

/-! Class 0x18 LDPC_DEC, chapter 07. -/
namespace Reg.LDPC_DEC
/-- Class number (R14). -/
abbrev cls : Nat := 0x18
abbrev CTL_TAKE_EN : Field := ⟨0x18, 0x000, 0, 0⟩
abbrev CTL_WDOG_EN : Field := ⟨0x18, 0x000, 1, 1⟩
abbrev STATUS_STATE : Field := ⟨0x18, 0x004, 1, 0⟩
abbrev STATUS_SLOT : Field := ⟨0x18, 0x004, 3, 2⟩
abbrev STATUS_BANK : Field := ⟨0x18, 0x004, 4, 4⟩
abbrev STATUS_LOADING : Field := ⟨0x18, 0x004, 5, 5⟩
abbrev STATUS_PARKED : Field := ⟨0x18, 0x004, 6, 6⟩
abbrev STATUS_FENCED : Field := ⟨0x18, 0x004, 7, 7⟩
abbrev STATUS_TASK : Field := ⟨0x18, 0x004, 29, 16⟩
abbrev UCODE_VER_VALID : Field := ⟨0x18, 0x008, 0, 0⟩
abbrev UCODE_VER_VERSION : Field := ⟨0x18, 0x008, 31, 8⟩
abbrev UCODE_ALT_VALID : Field := ⟨0x18, 0x00C, 0, 0⟩
abbrev UCODE_ALT_VERSION : Field := ⟨0x18, 0x00C, 31, 8⟩
abbrev WDOG_LIMIT : Field := ⟨0x18, 0x010, 15, 0⟩
abbrev ERRORS_ADDR : Field := ⟨0x18, 0x014, 0, 0⟩
abbrev ERRORS_MEMERR : Field := ⟨0x18, 0x014, 1, 1⟩
abbrev ERRORS_TYPE : Field := ⟨0x18, 0x014, 2, 2⟩
abbrev ERRORS_POISON : Field := ⟨0x18, 0x014, 3, 3⟩
abbrev ERRORS_HANG : Field := ⟨0x18, 0x014, 4, 4⟩
abbrev ERRORS_UCODE_FAIL : Field := ⟨0x18, 0x014, 5, 5⟩
abbrev JOBS_COUNT : Field := ⟨0x18, 0x018, 31, 0⟩
abbrev ITER_SUM_COUNT : Field := ⟨0x18, 0x01C, 31, 0⟩
abbrev CAPPED_COUNT : Field := ⟨0x18, 0x020, 31, 0⟩
abbrev CRC_FAIL_COUNT : Field := ⟨0x18, 0x024, 31, 0⟩
end Reg.LDPC_DEC

/-- The registers of class 0x18 LDPC_DEC. -/
def regsLDPC_DEC : List RegDef :=
  [⟨0x000, 0, 1, commonModes, [⟨.rw, 0, 0, 1⟩, ⟨.rw, 1, 1, 1⟩]⟩,
   ⟨0x004, 0, 1, 252, [⟨.ro, 1, 0, 0⟩, ⟨.ro, 3, 2, 0⟩, ⟨.ro, 4, 4, 0⟩, ⟨.ro, 5, 5, 0⟩, ⟨.ro, 6, 6, 0⟩, ⟨.ro, 7, 7, 0⟩, ⟨.ro, 29, 16, 0⟩]⟩,
   ⟨0x008, 0, 1, 252, [⟨.ro, 0, 0, 1⟩, ⟨.ro, 31, 8, 0⟩]⟩,
   ⟨0x00C, 0, 1, 252, [⟨.ro, 0, 0, 0⟩, ⟨.ro, 31, 8, 0⟩]⟩,
   ⟨0x010, 0, 1, commonModes, [⟨.rw, 15, 0, 0x4B⟩]⟩,
   ⟨0x014, 0, 1, commonModes, [⟨.w1c, 0, 0, 0⟩, ⟨.w1c, 1, 1, 0⟩, ⟨.w1c, 2, 2, 0⟩, ⟨.w1c, 3, 3, 0⟩, ⟨.w1c, 4, 4, 0⟩, ⟨.w1c, 5, 5, 0⟩]⟩,
   ⟨0x018, 0, 1, 252, [⟨.ro, 31, 0, 0⟩]⟩,
   ⟨0x01C, 0, 1, 252, [⟨.ro, 31, 0, 0⟩]⟩,
   ⟨0x020, 0, 1, 252, [⟨.ro, 31, 0, 0⟩]⟩,
   ⟨0x024, 0, 1, 252, [⟨.ro, 31, 0, 0⟩]⟩]

/-! Class 0x19 LDPC_ENC, chapter 07. -/
namespace Reg.LDPC_ENC
/-- Class number (R14). -/
abbrev cls : Nat := 0x19
abbrev CTL_TAKE_EN : Field := ⟨0x19, 0x000, 0, 0⟩
abbrev CTL_WDOG_EN : Field := ⟨0x19, 0x000, 1, 1⟩
abbrev STATUS_STATE : Field := ⟨0x19, 0x004, 1, 0⟩
abbrev STATUS_SLOT : Field := ⟨0x19, 0x004, 3, 2⟩
abbrev STATUS_BANK : Field := ⟨0x19, 0x004, 4, 4⟩
abbrev STATUS_LOADING : Field := ⟨0x19, 0x004, 5, 5⟩
abbrev STATUS_PARKED : Field := ⟨0x19, 0x004, 6, 6⟩
abbrev STATUS_FENCED : Field := ⟨0x19, 0x004, 7, 7⟩
abbrev STATUS_TASK : Field := ⟨0x19, 0x004, 29, 16⟩
abbrev UCODE_VER_VALID : Field := ⟨0x19, 0x008, 0, 0⟩
abbrev UCODE_VER_VERSION : Field := ⟨0x19, 0x008, 31, 8⟩
abbrev UCODE_ALT_VALID : Field := ⟨0x19, 0x00C, 0, 0⟩
abbrev UCODE_ALT_VERSION : Field := ⟨0x19, 0x00C, 31, 8⟩
abbrev WDOG_LIMIT : Field := ⟨0x19, 0x010, 15, 0⟩
abbrev ERRORS_ADDR : Field := ⟨0x19, 0x014, 0, 0⟩
abbrev ERRORS_MEMERR : Field := ⟨0x19, 0x014, 1, 1⟩
abbrev ERRORS_TYPE : Field := ⟨0x19, 0x014, 2, 2⟩
abbrev ERRORS_POISON : Field := ⟨0x19, 0x014, 3, 3⟩
abbrev ERRORS_HANG : Field := ⟨0x19, 0x014, 4, 4⟩
abbrev ERRORS_UCODE_FAIL : Field := ⟨0x19, 0x014, 5, 5⟩
abbrev JOBS_COUNT : Field := ⟨0x19, 0x018, 31, 0⟩
abbrev ITER_SUM_COUNT : Field := ⟨0x19, 0x01C, 31, 0⟩
abbrev CAPPED_COUNT : Field := ⟨0x19, 0x020, 31, 0⟩
abbrev CRC_FAIL_COUNT : Field := ⟨0x19, 0x024, 31, 0⟩
end Reg.LDPC_ENC

/-- The registers of class 0x19 LDPC_ENC. -/
def regsLDPC_ENC : List RegDef :=
  [⟨0x000, 0, 1, commonModes, [⟨.rw, 0, 0, 1⟩, ⟨.rw, 1, 1, 1⟩]⟩,
   ⟨0x004, 0, 1, 252, [⟨.ro, 1, 0, 0⟩, ⟨.ro, 3, 2, 0⟩, ⟨.ro, 4, 4, 0⟩, ⟨.ro, 5, 5, 0⟩, ⟨.ro, 6, 6, 0⟩, ⟨.ro, 7, 7, 0⟩, ⟨.ro, 29, 16, 0⟩]⟩,
   ⟨0x008, 0, 1, 252, [⟨.ro, 0, 0, 1⟩, ⟨.ro, 31, 8, 0⟩]⟩,
   ⟨0x00C, 0, 1, 252, [⟨.ro, 0, 0, 0⟩, ⟨.ro, 31, 8, 0⟩]⟩,
   ⟨0x010, 0, 1, commonModes, [⟨.rw, 15, 0, 0x4B⟩]⟩,
   ⟨0x014, 0, 1, commonModes, [⟨.w1c, 0, 0, 0⟩, ⟨.w1c, 1, 1, 0⟩, ⟨.w1c, 2, 2, 0⟩, ⟨.w1c, 3, 3, 0⟩, ⟨.w1c, 4, 4, 0⟩, ⟨.w1c, 5, 5, 0⟩]⟩,
   ⟨0x018, 0, 1, 252, [⟨.ro, 31, 0, 0⟩]⟩,
   ⟨0x01C, 0, 1, 252, [⟨.ro, 31, 0, 0⟩]⟩,
   ⟨0x020, 0, 1, 252, [⟨.ro, 31, 0, 0⟩]⟩,
   ⟨0x024, 0, 1, 252, [⟨.ro, 31, 0, 0⟩]⟩]

/-! Class 0x1A POLAR, chapter 07. -/
namespace Reg.POLAR
/-- Class number (R14). -/
abbrev cls : Nat := 0x1A
abbrev CTL_TAKE_EN : Field := ⟨0x1A, 0x000, 0, 0⟩
abbrev CTL_WDOG_EN : Field := ⟨0x1A, 0x000, 1, 1⟩
abbrev STATUS_STATE : Field := ⟨0x1A, 0x004, 1, 0⟩
abbrev STATUS_SLOT : Field := ⟨0x1A, 0x004, 3, 2⟩
abbrev STATUS_BANK : Field := ⟨0x1A, 0x004, 4, 4⟩
abbrev STATUS_LOADING : Field := ⟨0x1A, 0x004, 5, 5⟩
abbrev STATUS_PARKED : Field := ⟨0x1A, 0x004, 6, 6⟩
abbrev STATUS_FENCED : Field := ⟨0x1A, 0x004, 7, 7⟩
abbrev STATUS_TASK : Field := ⟨0x1A, 0x004, 29, 16⟩
abbrev UCODE_VER_VALID : Field := ⟨0x1A, 0x008, 0, 0⟩
abbrev UCODE_VER_VERSION : Field := ⟨0x1A, 0x008, 31, 8⟩
abbrev UCODE_ALT_VALID : Field := ⟨0x1A, 0x00C, 0, 0⟩
abbrev UCODE_ALT_VERSION : Field := ⟨0x1A, 0x00C, 31, 8⟩
abbrev WDOG_LIMIT : Field := ⟨0x1A, 0x010, 15, 0⟩
abbrev ERRORS_ADDR : Field := ⟨0x1A, 0x014, 0, 0⟩
abbrev ERRORS_MEMERR : Field := ⟨0x1A, 0x014, 1, 1⟩
abbrev ERRORS_TYPE : Field := ⟨0x1A, 0x014, 2, 2⟩
abbrev ERRORS_POISON : Field := ⟨0x1A, 0x014, 3, 3⟩
abbrev ERRORS_HANG : Field := ⟨0x1A, 0x014, 4, 4⟩
abbrev ERRORS_UCODE_FAIL : Field := ⟨0x1A, 0x014, 5, 5⟩
abbrev JOBS_COUNT : Field := ⟨0x1A, 0x018, 31, 0⟩
abbrev ITER_SUM_COUNT : Field := ⟨0x1A, 0x01C, 31, 0⟩
abbrev CAPPED_COUNT : Field := ⟨0x1A, 0x020, 31, 0⟩
abbrev CRC_FAIL_COUNT : Field := ⟨0x1A, 0x024, 31, 0⟩
end Reg.POLAR

/-- The registers of class 0x1A POLAR. -/
def regsPOLAR : List RegDef :=
  [⟨0x000, 0, 1, commonModes, [⟨.rw, 0, 0, 1⟩, ⟨.rw, 1, 1, 1⟩]⟩,
   ⟨0x004, 0, 1, 252, [⟨.ro, 1, 0, 0⟩, ⟨.ro, 3, 2, 0⟩, ⟨.ro, 4, 4, 0⟩, ⟨.ro, 5, 5, 0⟩, ⟨.ro, 6, 6, 0⟩, ⟨.ro, 7, 7, 0⟩, ⟨.ro, 29, 16, 0⟩]⟩,
   ⟨0x008, 0, 1, 252, [⟨.ro, 0, 0, 1⟩, ⟨.ro, 31, 8, 0⟩]⟩,
   ⟨0x00C, 0, 1, 252, [⟨.ro, 0, 0, 0⟩, ⟨.ro, 31, 8, 0⟩]⟩,
   ⟨0x010, 0, 1, commonModes, [⟨.rw, 15, 0, 0x4B⟩]⟩,
   ⟨0x014, 0, 1, commonModes, [⟨.w1c, 0, 0, 0⟩, ⟨.w1c, 1, 1, 0⟩, ⟨.w1c, 2, 2, 0⟩, ⟨.w1c, 3, 3, 0⟩, ⟨.w1c, 4, 4, 0⟩, ⟨.w1c, 5, 5, 0⟩]⟩,
   ⟨0x018, 0, 1, 252, [⟨.ro, 31, 0, 0⟩]⟩,
   ⟨0x01C, 0, 1, 252, [⟨.ro, 31, 0, 0⟩]⟩,
   ⟨0x020, 0, 1, 252, [⟨.ro, 31, 0, 0⟩]⟩,
   ⟨0x024, 0, 1, 252, [⟨.ro, 31, 0, 0⟩]⟩]

/-! Class 0x1B TURBO, chapter 07. -/
namespace Reg.TURBO
/-- Class number (R14). -/
abbrev cls : Nat := 0x1B
abbrev CTL_TAKE_EN : Field := ⟨0x1B, 0x000, 0, 0⟩
abbrev CTL_WDOG_EN : Field := ⟨0x1B, 0x000, 1, 1⟩
abbrev STATUS_STATE : Field := ⟨0x1B, 0x004, 1, 0⟩
abbrev STATUS_SLOT : Field := ⟨0x1B, 0x004, 3, 2⟩
abbrev STATUS_BANK : Field := ⟨0x1B, 0x004, 4, 4⟩
abbrev STATUS_LOADING : Field := ⟨0x1B, 0x004, 5, 5⟩
abbrev STATUS_PARKED : Field := ⟨0x1B, 0x004, 6, 6⟩
abbrev STATUS_FENCED : Field := ⟨0x1B, 0x004, 7, 7⟩
abbrev STATUS_TASK : Field := ⟨0x1B, 0x004, 29, 16⟩
abbrev UCODE_VER_VALID : Field := ⟨0x1B, 0x008, 0, 0⟩
abbrev UCODE_VER_VERSION : Field := ⟨0x1B, 0x008, 31, 8⟩
abbrev UCODE_ALT_VALID : Field := ⟨0x1B, 0x00C, 0, 0⟩
abbrev UCODE_ALT_VERSION : Field := ⟨0x1B, 0x00C, 31, 8⟩
abbrev WDOG_LIMIT : Field := ⟨0x1B, 0x010, 15, 0⟩
abbrev ERRORS_ADDR : Field := ⟨0x1B, 0x014, 0, 0⟩
abbrev ERRORS_MEMERR : Field := ⟨0x1B, 0x014, 1, 1⟩
abbrev ERRORS_TYPE : Field := ⟨0x1B, 0x014, 2, 2⟩
abbrev ERRORS_POISON : Field := ⟨0x1B, 0x014, 3, 3⟩
abbrev ERRORS_HANG : Field := ⟨0x1B, 0x014, 4, 4⟩
abbrev ERRORS_UCODE_FAIL : Field := ⟨0x1B, 0x014, 5, 5⟩
abbrev JOBS_COUNT : Field := ⟨0x1B, 0x018, 31, 0⟩
abbrev ITER_SUM_COUNT : Field := ⟨0x1B, 0x01C, 31, 0⟩
abbrev CAPPED_COUNT : Field := ⟨0x1B, 0x020, 31, 0⟩
abbrev CRC_FAIL_COUNT : Field := ⟨0x1B, 0x024, 31, 0⟩
end Reg.TURBO

/-- The registers of class 0x1B TURBO. -/
def regsTURBO : List RegDef :=
  [⟨0x000, 0, 1, commonModes, [⟨.rw, 0, 0, 1⟩, ⟨.rw, 1, 1, 1⟩]⟩,
   ⟨0x004, 0, 1, 252, [⟨.ro, 1, 0, 0⟩, ⟨.ro, 3, 2, 0⟩, ⟨.ro, 4, 4, 0⟩, ⟨.ro, 5, 5, 0⟩, ⟨.ro, 6, 6, 0⟩, ⟨.ro, 7, 7, 0⟩, ⟨.ro, 29, 16, 0⟩]⟩,
   ⟨0x008, 0, 1, 252, [⟨.ro, 0, 0, 1⟩, ⟨.ro, 31, 8, 0⟩]⟩,
   ⟨0x00C, 0, 1, 252, [⟨.ro, 0, 0, 0⟩, ⟨.ro, 31, 8, 0⟩]⟩,
   ⟨0x010, 0, 1, commonModes, [⟨.rw, 15, 0, 0x4B⟩]⟩,
   ⟨0x014, 0, 1, commonModes, [⟨.w1c, 0, 0, 0⟩, ⟨.w1c, 1, 1, 0⟩, ⟨.w1c, 2, 2, 0⟩, ⟨.w1c, 3, 3, 0⟩, ⟨.w1c, 4, 4, 0⟩, ⟨.w1c, 5, 5, 0⟩]⟩,
   ⟨0x018, 0, 1, 252, [⟨.ro, 31, 0, 0⟩]⟩,
   ⟨0x01C, 0, 1, 252, [⟨.ro, 31, 0, 0⟩]⟩,
   ⟨0x020, 0, 1, 252, [⟨.ro, 31, 0, 0⟩]⟩,
   ⟨0x024, 0, 1, 252, [⟨.ro, 31, 0, 0⟩]⟩]

/-! Class 0x1C HARQ, chapter 07. -/
namespace Reg.HARQ
/-- Class number (R14). -/
abbrev cls : Nat := 0x1C
abbrev CTL_TAKE_EN : Field := ⟨0x1C, 0x000, 0, 0⟩
abbrev CTL_WDOG_EN : Field := ⟨0x1C, 0x000, 1, 1⟩
abbrev STATUS_STATE : Field := ⟨0x1C, 0x004, 1, 0⟩
abbrev STATUS_SLOT : Field := ⟨0x1C, 0x004, 3, 2⟩
abbrev STATUS_BANK : Field := ⟨0x1C, 0x004, 4, 4⟩
abbrev STATUS_LOADING : Field := ⟨0x1C, 0x004, 5, 5⟩
abbrev STATUS_PARKED : Field := ⟨0x1C, 0x004, 6, 6⟩
abbrev STATUS_FENCED : Field := ⟨0x1C, 0x004, 7, 7⟩
abbrev STATUS_TASK : Field := ⟨0x1C, 0x004, 29, 16⟩
abbrev UCODE_VER_VALID : Field := ⟨0x1C, 0x008, 0, 0⟩
abbrev UCODE_VER_VERSION : Field := ⟨0x1C, 0x008, 31, 8⟩
abbrev UCODE_ALT_VALID : Field := ⟨0x1C, 0x00C, 0, 0⟩
abbrev UCODE_ALT_VERSION : Field := ⟨0x1C, 0x00C, 31, 8⟩
abbrev WDOG_LIMIT : Field := ⟨0x1C, 0x010, 15, 0⟩
abbrev ERRORS_ADDR : Field := ⟨0x1C, 0x014, 0, 0⟩
abbrev ERRORS_MEMERR : Field := ⟨0x1C, 0x014, 1, 1⟩
abbrev ERRORS_TYPE : Field := ⟨0x1C, 0x014, 2, 2⟩
abbrev ERRORS_POISON : Field := ⟨0x1C, 0x014, 3, 3⟩
abbrev ERRORS_HANG : Field := ⟨0x1C, 0x014, 4, 4⟩
abbrev ERRORS_UCODE_FAIL : Field := ⟨0x1C, 0x014, 5, 5⟩
abbrev JOBS_COUNT : Field := ⟨0x1C, 0x018, 31, 0⟩
abbrev ITER_SUM_COUNT : Field := ⟨0x1C, 0x01C, 31, 0⟩
abbrev CAPPED_COUNT : Field := ⟨0x1C, 0x020, 31, 0⟩
abbrev CRC_FAIL_COUNT : Field := ⟨0x1C, 0x024, 31, 0⟩
abbrev CTX_BASE_LO_BASE_LO : Field := ⟨0x1C, 0x040, 31, 0⟩
abbrev CTX_BASE_HI_BASE_HI : Field := ⟨0x1C, 0x044, 7, 0⟩
abbrev CTX_CFG_LOG2_CTX : Field := ⟨0x1C, 0x048, 3, 0⟩
end Reg.HARQ

/-- The registers of class 0x1C HARQ. -/
def regsHARQ : List RegDef :=
  [⟨0x000, 0, 1, commonModes, [⟨.rw, 0, 0, 1⟩, ⟨.rw, 1, 1, 1⟩]⟩,
   ⟨0x004, 0, 1, 252, [⟨.ro, 1, 0, 0⟩, ⟨.ro, 3, 2, 0⟩, ⟨.ro, 4, 4, 0⟩, ⟨.ro, 5, 5, 0⟩, ⟨.ro, 6, 6, 0⟩, ⟨.ro, 7, 7, 0⟩, ⟨.ro, 29, 16, 0⟩]⟩,
   ⟨0x008, 0, 1, 252, [⟨.ro, 0, 0, 1⟩, ⟨.ro, 31, 8, 0⟩]⟩,
   ⟨0x00C, 0, 1, 252, [⟨.ro, 0, 0, 0⟩, ⟨.ro, 31, 8, 0⟩]⟩,
   ⟨0x010, 0, 1, commonModes, [⟨.rw, 15, 0, 0x4B⟩]⟩,
   ⟨0x014, 0, 1, commonModes, [⟨.w1c, 0, 0, 0⟩, ⟨.w1c, 1, 1, 0⟩, ⟨.w1c, 2, 2, 0⟩, ⟨.w1c, 3, 3, 0⟩, ⟨.w1c, 4, 4, 0⟩, ⟨.w1c, 5, 5, 0⟩]⟩,
   ⟨0x018, 0, 1, 252, [⟨.ro, 31, 0, 0⟩]⟩,
   ⟨0x01C, 0, 1, 252, [⟨.ro, 31, 0, 0⟩]⟩,
   ⟨0x020, 0, 1, 252, [⟨.ro, 31, 0, 0⟩]⟩,
   ⟨0x024, 0, 1, 252, [⟨.ro, 31, 0, 0⟩]⟩,
   ⟨0x040, 0, 1, commonModes, [⟨.rw, 31, 0, 0⟩]⟩,
   ⟨0x044, 0, 1, commonModes, [⟨.rw, 7, 0, 0⟩]⟩] ++
  [⟨0x048, 0, 1, commonModes, [⟨.rw, 3, 0, 0xF⟩]⟩]

/-! Class 0x30 VAULT, chapter 10. -/
namespace Reg.VAULT
/-- Class number (R14). -/
abbrev cls : Nat := 0x30
abbrev CTL_EN : Field := ⟨0x30, 0x000, 0, 0⟩
abbrev CTL_SUM_EN : Field := ⟨0x30, 0x000, 1, 1⟩
abbrev BASE_LO_BASE_LO : Field := ⟨0x30, 0x004, 31, 0⟩
abbrev BASE_HI_BASE_HI : Field := ⟨0x30, 0x008, 7, 0⟩
abbrev LENGTH_UNITS : Field := ⟨0x30, 0x00C, 16, 0⟩
abbrev TRIG_CFG_PRE : Field := ⟨0x30, 0x010, 15, 0⟩
abbrev TRIG_CFG_POST : Field := ⟨0x30, 0x010, 31, 16⟩
abbrev TRIG_SRC_CMD_EN : Field := ⟨0x30, 0x014, 0, 0⟩
abbrev TRIG_SRC_PIN_EN : Field := ⟨0x30, 0x014, 1, 1⟩
abbrev TRIG_SRC_PIN : Field := ⟨0x30, 0x014, 6, 2⟩
abbrev TRIG_SRC_PIN_FALL : Field := ⟨0x30, 0x014, 7, 7⟩
abbrev TRIG_SRC_SUM_EN : Field := ⟨0x30, 0x014, 8, 8⟩
abbrev TRIG_SRC_TALLY_EN : Field := ⟨0x30, 0x014, 9, 9⟩
abbrev TRIG_SRC_HOLDOFF : Field := ⟨0x30, 0x014, 31, 16⟩
abbrev SUM_TRIG_LEVEL : Field := ⟨0x30, 0x018, 7, 0⟩
abbrev SUM_TRIG_BLOCKS : Field := ⟨0x30, 0x018, 16, 8⟩
abbrev TRIGGER_TAG : Field := ⟨0x30, 0x040, 31, 0⟩
abbrev REGION_RELEASE_REGION : Field := ⟨0x30, 0x044, 3, 0⟩
abbrev WR_LEAF_WR_LEAF : Field := ⟨0x30, 0x050, 25, 0⟩
abbrev STATUS_RUNNING : Field := ⟨0x30, 0x054, 0, 0⟩
abbrev STATUS_THINNED : Field := ⟨0x30, 0x054, 1, 1⟩
abbrev STATUS_GEOM_PENDING : Field := ⟨0x30, 0x054, 2, 2⟩
abbrev STATUS_FULL : Field := ⟨0x30, 0x054, 3, 3⟩
abbrev STATUS_EXPORTING : Field := ⟨0x30, 0x054, 4, 4⟩
abbrev STATUS_FREE : Field := ⟨0x30, 0x054, 31, 16⟩
abbrev LEAVES_LO_COUNT : Field := ⟨0x30, 0x058, 31, 0⟩
abbrev LEAVES_HI_COUNT : Field := ⟨0x30, 0x05C, 31, 0⟩
abbrev DROPPED_COUNT : Field := ⟨0x30, 0x060, 31, 0⟩
abbrev TRIG_COUNT_COUNT : Field := ⟨0x30, 0x064, 31, 0⟩
abbrev TRIG_REFUSED_COUNT : Field := ⟨0x30, 0x068, 31, 0⟩
abbrev SUM_MASK_MASK (k : Nat) : Field := ⟨0x30, 0x080 + 0x4 * k, 31, 0⟩
abbrev RGN_STATE (k : Nat) : Field := ⟨0x30, 0x100 + 0x20 * k, 1, 0⟩
abbrev RGN_SOURCE (k : Nat) : Field := ⟨0x30, 0x100 + 0x20 * k, 7, 2⟩
abbrev RGN_EXPORTING (k : Nat) : Field := ⟨0x30, 0x100 + 0x20 * k, 8, 8⟩
abbrev RGN_START_START (k : Nat) : Field := ⟨0x30, 0x104 + 0x20 * k, 25, 0⟩
abbrev RGN_COUNT_COUNT (k : Nat) : Field := ⟨0x30, 0x108 + 0x20 * k, 25, 0⟩
abbrev RGN_T_LO_T (k : Nat) : Field := ⟨0x30, 0x10C + 0x20 * k, 31, 0⟩
abbrev RGN_T_HI_T (k : Nat) : Field := ⟨0x30, 0x110 + 0x20 * k, 31, 0⟩
abbrev RGN_TAG_TAG (k : Nat) : Field := ⟨0x30, 0x114 + 0x20 * k, 31, 0⟩
abbrev RGN_GAPS_GAPS (k : Nat) : Field := ⟨0x30, 0x118 + 0x20 * k, 31, 0⟩
end Reg.VAULT

/-- The registers of class 0x30 VAULT. -/
def regsVAULT : List RegDef :=
  [⟨0x000, 0, 1, commonModes, [⟨.rw, 0, 0, 0⟩, ⟨.rw, 1, 1, 0⟩]⟩,
   ⟨0x004, 0, 1, commonModes, [⟨.rw, 31, 0, 0⟩]⟩,
   ⟨0x008, 0, 1, commonModes, [⟨.rw, 7, 0, 1⟩]⟩,
   ⟨0x00C, 0, 1, commonModes, [⟨.rw, 16, 0, 0⟩]⟩,
   ⟨0x010, 0, 1, commonModes, [⟨.rw, 15, 0, 0x2710⟩, ⟨.rw, 31, 16, 0x1388⟩]⟩,
   ⟨0x014, 0, 1, commonModes, [⟨.rw, 0, 0, 1⟩, ⟨.rw, 1, 1, 0⟩, ⟨.rw, 6, 2, 0⟩, ⟨.rw, 7, 7, 0⟩, ⟨.rw, 8, 8, 0⟩, ⟨.rw, 9, 9, 0⟩, ⟨.rw, 31, 16, 0x64⟩]⟩,
   ⟨0x018, 0, 1, commonModes, [⟨.rw, 7, 0, 0xFF⟩, ⟨.rw, 16, 8, 1⟩]⟩,
   ⟨0x040, 0, 1, commonModes, [⟨.wo, 31, 0, 0⟩]⟩,
   ⟨0x044, 0, 1, commonModes, [⟨.wo, 3, 0, 0⟩]⟩,
   ⟨0x050, 0, 1, 252, [⟨.ro, 25, 0, 0⟩]⟩,
   ⟨0x054, 0, 1, 252, [⟨.ro, 0, 0, 0⟩, ⟨.ro, 1, 1, 0⟩, ⟨.ro, 2, 2, 0⟩, ⟨.ro, 3, 3, 0⟩, ⟨.ro, 4, 4, 0⟩, ⟨.ro, 31, 16, 0xFFFF⟩]⟩,
   ⟨0x058, 0, 1, 252, [⟨.ro, 31, 0, 0⟩]⟩] ++
  [⟨0x05C, 0, 1, 252, [⟨.ro, 31, 0, 0⟩]⟩,
   ⟨0x060, 0, 1, 252, [⟨.ro, 31, 0, 0⟩]⟩,
   ⟨0x064, 0, 1, 252, [⟨.ro, 31, 0, 0⟩]⟩,
   ⟨0x068, 0, 1, 252, [⟨.ro, 31, 0, 0⟩]⟩,
   ⟨0x080, 4, 16, commonModes, [⟨.rw, 31, 0, 0⟩]⟩,
   ⟨0x100, 32, 16, 252, [⟨.ro, 1, 0, 0⟩, ⟨.ro, 7, 2, 0⟩, ⟨.ro, 8, 8, 0⟩]⟩,
   ⟨0x104, 32, 16, 252, [⟨.ro, 25, 0, 0⟩]⟩,
   ⟨0x108, 32, 16, 252, [⟨.ro, 25, 0, 0⟩]⟩,
   ⟨0x10C, 32, 16, 252, [⟨.ro, 31, 0, 0⟩]⟩,
   ⟨0x110, 32, 16, 252, [⟨.ro, 31, 0, 0⟩]⟩,
   ⟨0x114, 32, 16, 252, [⟨.ro, 31, 0, 0⟩]⟩,
   ⟨0x118, 32, 16, 252, [⟨.ro, 31, 0, 0⟩]⟩]

/-! Class 0x31 VSTREAM, chapter 10. -/
namespace Reg.VSTREAM
/-- Class number (R14). -/
abbrev cls : Nat := 0x31
abbrev CTL_EN : Field := ⟨0x31, 0x000, 0, 0⟩
abbrev CTL_CHANNEL : Field := ⟨0x31, 0x000, 9, 1⟩
abbrev CAP_BLOCKS_FIRST : Field := ⟨0x31, 0x004, 10, 0⟩
abbrev CAP_BLOCKS_COUNT : Field := ⟨0x31, 0x004, 26, 16⟩
abbrev STATUS_RUNNING : Field := ⟨0x31, 0x008, 0, 0⟩
abbrev LEAVES_COUNT : Field := ⟨0x31, 0x00C, 31, 0⟩
abbrev DROPPED_COUNT : Field := ⟨0x31, 0x010, 31, 0⟩
end Reg.VSTREAM

/-- The registers of class 0x31 VSTREAM. -/
def regsVSTREAM : List RegDef :=
  [⟨0x000, 0, 1, commonModes, [⟨.rw, 0, 0, 0⟩, ⟨.rw, 9, 1, 0⟩]⟩,
   ⟨0x004, 0, 1, commonModes, [⟨.rw, 10, 0, 0⟩, ⟨.rw, 26, 16, 0⟩]⟩,
   ⟨0x008, 0, 1, 252, [⟨.ro, 0, 0, 0⟩]⟩,
   ⟨0x00C, 0, 1, 252, [⟨.ro, 31, 0, 0⟩]⟩,
   ⟨0x010, 0, 1, 252, [⟨.ro, 31, 0, 0⟩]⟩]

/-! Class 0x32 TALLY, chapter 10. -/
namespace Reg.TALLY
/-- Class number (R14). -/
abbrev cls : Nat := 0x32
abbrev CTL_EN : Field := ⟨0x32, 0x000, 0, 0⟩
abbrev CTL_CHANNEL : Field := ⟨0x32, 0x000, 9, 1⟩
abbrev CTL_TEMPLATE : Field := ⟨0x32, 0x000, 15, 10⟩
abbrev CTL_MOD : Field := ⟨0x32, 0x000, 17, 16⟩
abbrev CTL_HARD : Field := ⟨0x32, 0x000, 18, 18⟩
abbrev CTL_HDR_EN : Field := ⟨0x32, 0x000, 19, 19⟩
abbrev CTL_TRIG_VAULT : Field := ⟨0x32, 0x000, 20, 20⟩
abbrev RATE_DECIM : Field := ⟨0x32, 0x004, 6, 0⟩
abbrev RATE_SPS : Field := ⟨0x32, 0x004, 11, 8⟩
abbrev NCO_FREQ_NCO_FREQ : Field := ⟨0x32, 0x008, 31, 0⟩
abbrev DETECT_THRESH : Field := ⟨0x32, 0x00C, 15, 0⟩
abbrev DETECT_MARGIN : Field := ⟨0x32, 0x00C, 20, 16⟩
abbrev AGC_TARGET : Field := ⟨0x32, 0x010, 7, 0⟩
abbrev AGC_STEP : Field := ⟨0x32, 0x010, 13, 8⟩
abbrev AGC_BLOCK : Field := ⟨0x32, 0x010, 17, 14⟩
abbrev AGC_LIM_FLOOR : Field := ⟨0x32, 0x014, 9, 0⟩
abbrev AGC_LIM_CEIL : Field := ⟨0x32, 0x014, 25, 16⟩
abbrev FRAME_PILOT_PERIOD : Field := ⟨0x32, 0x018, 7, 0⟩
abbrev FRAME_LENGTH : Field := ⟨0x32, 0x018, 23, 8⟩
abbrev OUT_BASE_LO_BASE_LO : Field := ⟨0x32, 0x01C, 31, 0⟩
abbrev OUT_BASE_HI_BASE_HI : Field := ⟨0x32, 0x020, 7, 0⟩
abbrev OUT_CFG_SLOTS : Field := ⟨0x32, 0x024, 7, 0⟩
abbrev OUT_CFG_SLOT_KB : Field := ⟨0x32, 0x024, 23, 8⟩
abbrev REC_BASE_LO_BASE_LO : Field := ⟨0x32, 0x028, 31, 0⟩
abbrev REC_BASE_HI_BASE_HI : Field := ⟨0x32, 0x02C, 7, 0⟩
abbrev REC_CFG_LOG2_RECS : Field := ⟨0x32, 0x030, 3, 0⟩
abbrev KEY_KEY_INDEX : Field := ⟨0x32, 0x034, 12, 0⟩
abbrev KEY_KEY_EN : Field := ⟨0x32, 0x034, 13, 13⟩
abbrev STATUS_STATE : Field := ⟨0x32, 0x038, 1, 0⟩
abbrev STATUS_FROZEN : Field := ⟨0x32, 0x038, 2, 2⟩
abbrev STATUS_GAIN_QDB : Field := ⟨0x32, 0x038, 25, 16⟩
abbrev REC_WR_INDEX : Field := ⟨0x32, 0x03C, 15, 0⟩
abbrev REC_WR_LAPS : Field := ⟨0x32, 0x03C, 31, 16⟩
abbrev DETECTS_COUNT : Field := ⟨0x32, 0x040, 31, 0⟩
abbrev COMPLETE_COUNT : Field := ⟨0x32, 0x044, 31, 0⟩
abbrev SUPERSEDED_COUNT : Field := ⟨0x32, 0x048, 31, 0⟩
abbrev MISSED_COUNT : Field := ⟨0x32, 0x04C, 31, 0⟩
abbrev HDR_FAIL_COUNT : Field := ⟨0x32, 0x050, 31, 0⟩
abbrev TRUNCATED_COUNT : Field := ⟨0x32, 0x054, 31, 0⟩
abbrev TPL_ADDR_TEMPLATE : Field := ⟨0x32, 0x060, 5, 0⟩
abbrev TPL_ADDR_SAMPLE : Field := ⟨0x32, 0x060, 25, 16⟩
abbrev TPL_LEN_LEN : Field := ⟨0x32, 0x064, 10, 0⟩
abbrev TPL_DATA_I : Field := ⟨0x32, 0x068, 7, 0⟩
abbrev TPL_DATA_Q : Field := ⟨0x32, 0x068, 15, 8⟩
end Reg.TALLY

/-- The registers of class 0x32 TALLY. -/
def regsTALLY : List RegDef :=
  [⟨0x000, 0, 1, commonModes, [⟨.rw, 0, 0, 0⟩, ⟨.rw, 9, 1, 0⟩, ⟨.rw, 15, 10, 0⟩, ⟨.rw, 17, 16, 1⟩, ⟨.rw, 18, 18, 0⟩, ⟨.rw, 19, 19, 1⟩, ⟨.rw, 20, 20, 0⟩]⟩,
   ⟨0x004, 0, 1, commonModes, [⟨.rw, 6, 0, 1⟩, ⟨.rw, 11, 8, 4⟩]⟩,
   ⟨0x008, 0, 1, commonModes, [⟨.rw, 31, 0, 0⟩]⟩,
   ⟨0x00C, 0, 1, commonModes, [⟨.rw, 15, 0, 0x8000⟩, ⟨.rw, 20, 16, 0xC⟩]⟩,
   ⟨0x010, 0, 1, commonModes, [⟨.rw, 7, 0, 0xB8⟩, ⟨.rw, 13, 8, 8⟩, ⟨.rw, 17, 14, 4⟩]⟩,
   ⟨0x014, 0, 1, commonModes, [⟨.rw, 9, 0, 0x340⟩, ⟨.rw, 25, 16, 0x60⟩]⟩,
   ⟨0x018, 0, 1, commonModes, [⟨.rw, 7, 0, 0⟩, ⟨.rw, 23, 8, 0x100⟩]⟩,
   ⟨0x01C, 0, 1, commonModes, [⟨.rw, 31, 0, 0⟩]⟩,
   ⟨0x020, 0, 1, commonModes, [⟨.rw, 7, 0, 0⟩]⟩,
   ⟨0x024, 0, 1, commonModes, [⟨.rw, 7, 0, 4⟩, ⟨.rw, 23, 8, 0x10⟩]⟩,
   ⟨0x028, 0, 1, commonModes, [⟨.rw, 31, 0, 0⟩]⟩,
   ⟨0x02C, 0, 1, commonModes, [⟨.rw, 7, 0, 0⟩]⟩] ++
  [⟨0x030, 0, 1, commonModes, [⟨.rw, 3, 0, 8⟩]⟩,
   ⟨0x034, 0, 1, commonModes, [⟨.rw, 12, 0, 0⟩, ⟨.rw, 13, 13, 0⟩]⟩,
   ⟨0x038, 0, 1, 252, [⟨.ro, 1, 0, 0⟩, ⟨.ro, 2, 2, 0⟩, ⟨.ro, 25, 16, 0x60⟩]⟩,
   ⟨0x03C, 0, 1, 252, [⟨.ro, 15, 0, 0⟩, ⟨.ro, 31, 16, 0⟩]⟩,
   ⟨0x040, 0, 1, 252, [⟨.ro, 31, 0, 0⟩]⟩,
   ⟨0x044, 0, 1, 252, [⟨.ro, 31, 0, 0⟩]⟩,
   ⟨0x048, 0, 1, 252, [⟨.ro, 31, 0, 0⟩]⟩,
   ⟨0x04C, 0, 1, 252, [⟨.ro, 31, 0, 0⟩]⟩,
   ⟨0x050, 0, 1, 252, [⟨.ro, 31, 0, 0⟩]⟩,
   ⟨0x054, 0, 1, 252, [⟨.ro, 31, 0, 0⟩]⟩,
   ⟨0x060, 0, 1, commonModes, [⟨.rw, 5, 0, 0⟩, ⟨.rw, 25, 16, 0⟩]⟩,
   ⟨0x064, 0, 1, commonModes, [⟨.rw, 10, 0, 0x10⟩]⟩] ++
  [⟨0x068, 0, 1, commonModes, [⟨.wo, 7, 0, 0⟩, ⟨.wo, 15, 8, 0⟩]⟩]

/-! Class 0x40 DMA, chapter 12. -/
namespace Reg.DMA
/-- Class number (R14). -/
abbrev cls : Nat := 0x40
abbrev CTL_EN : Field := ⟨0x40, 0x000, 0, 0⟩
abbrev STATUS_STOPPED : Field := ⟨0x40, 0x004, 0, 0⟩
abbrev STATUS_ERR : Field := ⟨0x40, 0x004, 1, 1⟩
abbrev STATUS_ERR_COUNT : Field := ⟨0x40, 0x004, 31, 16⟩
abbrev ERR_ADDR_LO_ADDR_LO : Field := ⟨0x40, 0x008, 31, 0⟩
abbrev ERR_ADDR_HI_ADDR_HI : Field := ⟨0x40, 0x00C, 7, 0⟩
abbrev ERR_INFO_MSTATUS : Field := ⟨0x40, 0x010, 1, 0⟩
abbrev ERR_INFO_ACCESS : Field := ⟨0x40, 0x010, 3, 2⟩
abbrev ERR_INFO_CHANNEL : Field := ⟨0x40, 0x010, 10, 4⟩
abbrev ERR_INFO_CH_VALID : Field := ⟨0x40, 0x010, 11, 11⟩
abbrev EVENT_SET_FLAGS (k : Nat) : Field := ⟨0x40, 0x020 + 0x4 * k, 31, 0⟩
abbrev EVENT_CLR_FLAGS (k : Nat) : Field := ⟨0x40, 0x028 + 0x4 * k, 31, 0⟩
abbrev REQ_SW_LEVEL (k : Nat) : Field := ⟨0x40, 0x040 + 0x4 * k, 31, 0⟩
abbrev REQ_STATE_ASSERTED (k : Nat) : Field := ⟨0x40, 0x048 + 0x4 * k, 31, 0⟩
abbrev EVENT_OVERRUN_COUNT : Field := ⟨0x40, 0x050, 31, 0⟩
abbrev REQ_SRC_KIND (k : Nat) : Field := ⟨0x40, 0x100 + 0x4 * k, 2, 0⟩
abbrev REQ_SRC_INDEX (k : Nat) : Field := ⟨0x40, 0x100 + 0x4 * k, 13, 8⟩
abbrev RING_LO_BASE_LO (k : Nat) : Field := ⟨0x40, 0x200 + 0x10 * k, 31, 0⟩
abbrev RING_HI_BASE_HI (k : Nat) : Field := ⟨0x40, 0x204 + 0x10 * k, 31, 0⟩
abbrev RING_CFG_LOG2 (k : Nat) : Field := ⟨0x40, 0x208 + 0x10 * k, 4, 0⟩
abbrev RING_CFG_FN (k : Nat) : Field := ⟨0x40, 0x208 + 0x10 * k, 11, 8⟩
abbrev RING_CFG_VECTOR (k : Nat) : Field := ⟨0x40, 0x208 + 0x10 * k, 26, 16⟩
abbrev RING_CFG_PHASE (k : Nat) : Field := ⟨0x40, 0x208 + 0x10 * k, 31, 31⟩
abbrev RING_PTR_TAIL (k : Nat) : Field := ⟨0x40, 0x20C + 0x10 * k, 15, 0⟩
abbrev RING_PTR_HEAD (k : Nat) : Field := ⟨0x40, 0x20C + 0x10 * k, 31, 16⟩
end Reg.DMA

/-- The registers of class 0x40 DMA. -/
def regsDMA : List RegDef :=
  [⟨0x000, 0, 1, commonModes, [⟨.rw, 0, 0, 1⟩]⟩,
   ⟨0x004, 0, 1, commonModes, [⟨.ro, 0, 0, 0⟩, ⟨.w1c, 1, 1, 0⟩, ⟨.ro, 31, 16, 0⟩]⟩,
   ⟨0x008, 0, 1, 252, [⟨.ro, 31, 0, 0⟩]⟩,
   ⟨0x00C, 0, 1, 252, [⟨.ro, 7, 0, 0⟩]⟩,
   ⟨0x010, 0, 1, 252, [⟨.ro, 1, 0, 0⟩, ⟨.ro, 3, 2, 0⟩, ⟨.ro, 10, 4, 0⟩, ⟨.ro, 11, 11, 0⟩]⟩,
   ⟨0x020, 4, 2, commonModes, [⟨.w1s, 31, 0, 0⟩]⟩,
   ⟨0x028, 4, 2, commonModes, [⟨.w1c, 31, 0, 0⟩]⟩,
   ⟨0x040, 4, 2, commonModes, [⟨.rw, 31, 0, 0⟩]⟩,
   ⟨0x048, 4, 2, 252, [⟨.ro, 31, 0, 0⟩]⟩,
   ⟨0x050, 0, 1, 252, [⟨.ro, 31, 0, 0⟩]⟩,
   ⟨0x100, 4, 64, commonModes, [⟨.rw, 2, 0, 0⟩, ⟨.rw, 13, 8, 0⟩]⟩,
   ⟨0x200, 16, 16, commonModes, [⟨.rw, 31, 0, 0⟩]⟩] ++
  [⟨0x204, 16, 16, commonModes, [⟨.rw, 31, 0, 0⟩]⟩,
   ⟨0x208, 16, 16, commonModes, [⟨.rw, 4, 0, 0⟩, ⟨.rw, 11, 8, 0⟩, ⟨.rw, 26, 16, 0⟩, ⟨.ro, 31, 31, 1⟩]⟩,
   ⟨0x20C, 16, 16, 252, [⟨.ro, 15, 0, 0⟩, ⟨.ro, 31, 16, 0⟩]⟩]

/-! Class 0x41 DMA_CH, chapter 12. -/
namespace Reg.DMA_CH
/-- Class number (R14). -/
abbrev cls : Nat := 0x41
abbrev CTL_START : Field := ⟨0x41, 0x000, 0, 0⟩
abbrev CTL_ABORT : Field := ⟨0x41, 0x000, 1, 1⟩
abbrev CTL_RESUME : Field := ⟨0x41, 0x000, 2, 2⟩
abbrev PC_LO_PC_LO : Field := ⟨0x41, 0x004, 31, 0⟩
abbrev PC_HI_PC_HI : Field := ⟨0x41, 0x008, 7, 0⟩
abbrev STATUS_STATE : Field := ⟨0x41, 0x00C, 2, 0⟩
abbrev STATUS_CODE : Field := ⟨0x41, 0x00C, 6, 3⟩
abbrev STATUS_WAIT_KIND : Field := ⟨0x41, 0x00C, 9, 7⟩
abbrev STATUS_DEPTH : Field := ⟨0x41, 0x00C, 12, 10⟩
abbrev STATUS_KEY_MARK : Field := ⟨0x41, 0x00C, 13, 13⟩
abbrev PROGRESS_BYTES : Field := ⟨0x41, 0x010, 27, 0⟩
abbrev REG_SEL_REG : Field := ⟨0x41, 0x014, 4, 0⟩
abbrev REG_LO_VALUE_LO : Field := ⟨0x41, 0x018, 31, 0⟩
abbrev REG_HI_VALUE_HI : Field := ⟨0x41, 0x01C, 7, 0⟩
abbrev BYTES_LO_COUNT : Field := ⟨0x41, 0x020, 31, 0⟩
abbrev BYTES_HI_COUNT : Field := ⟨0x41, 0x024, 15, 0⟩
abbrev BURSTS_COUNT : Field := ⟨0x41, 0x028, 31, 0⟩
abbrev WITHDRAWN_COUNT : Field := ⟨0x41, 0x02C, 31, 0⟩
end Reg.DMA_CH

/-- The registers of class 0x41 DMA_CH. -/
def regsDMA_CH : List RegDef :=
  [⟨0x000, 0, 1, commonModes, [⟨.wo, 0, 0, 0⟩, ⟨.wo, 1, 1, 0⟩, ⟨.wo, 2, 2, 0⟩]⟩,
   ⟨0x004, 0, 1, commonModes, [⟨.rw, 31, 0, 0⟩]⟩,
   ⟨0x008, 0, 1, commonModes, [⟨.rw, 7, 0, 0⟩]⟩,
   ⟨0x00C, 0, 1, commonModes, [⟨.ro, 2, 0, 0⟩, ⟨.ro, 6, 3, 0⟩, ⟨.ro, 9, 7, 0⟩, ⟨.ro, 12, 10, 0⟩, ⟨.w1c, 13, 13, 0⟩]⟩,
   ⟨0x010, 0, 1, 252, [⟨.ro, 27, 0, 0⟩]⟩,
   ⟨0x014, 0, 1, commonModes, [⟨.rw, 4, 0, 0⟩]⟩,
   ⟨0x018, 0, 1, commonModes, [⟨.rw, 31, 0, 0⟩]⟩,
   ⟨0x01C, 0, 1, commonModes, [⟨.rw, 7, 0, 0⟩]⟩,
   ⟨0x020, 0, 1, 252, [⟨.ro, 31, 0, 0⟩]⟩,
   ⟨0x024, 0, 1, 252, [⟨.ro, 15, 0, 0⟩]⟩,
   ⟨0x028, 0, 1, 252, [⟨.ro, 31, 0, 0⟩]⟩,
   ⟨0x02C, 0, 1, 252, [⟨.ro, 31, 0, 0⟩]⟩]

/-! Class 0x58 MAC, chapter 15. -/
namespace Reg.MAC
/-- Class number (R14). -/
abbrev cls : Nat := 0x58
abbrev CFG_EN : Field := ⟨0x58, 0x000, 0, 0⟩
abbrev CFG_SPEED : Field := ⟨0x58, 0x000, 3, 1⟩
abbrev CFG_FIRST_LANE : Field := ⟨0x58, 0x000, 9, 4⟩
abbrev CFG_RS528 : Field := ⟨0x58, 0x000, 10, 10⟩
abbrev CFG_PROMISC : Field := ⟨0x58, 0x000, 11, 11⟩
abbrev CFG_PAUSE_EN : Field := ⟨0x58, 0x000, 12, 12⟩
abbrev CFG_PFC_EN : Field := ⟨0x58, 0x000, 13, 13⟩
abbrev CFG_PFC_PRIO : Field := ⟨0x58, 0x000, 23, 16⟩
abbrev ADDR_LO_ADDR_LO : Field := ⟨0x58, 0x004, 31, 0⟩
abbrev ADDR_HI_ADDR_HI : Field := ⟨0x58, 0x008, 15, 0⟩
abbrev FRAME_MAX_LEN : Field := ⟨0x58, 0x00C, 13, 0⟩
abbrev DEFAULT_RING : Field := ⟨0x58, 0x010, 7, 0⟩
abbrev DEFAULT_EN : Field := ⟨0x58, 0x010, 8, 8⟩
abbrev PAUSE_WD_LIMIT : Field := ⟨0x58, 0x014, 15, 0⟩
abbrev PAUSE_WD_BREAK : Field := ⟨0x58, 0x014, 31, 16⟩
abbrev XOFF_GEN_EN : Field := ⟨0x58, 0x018, 7, 0⟩
abbrev XOFF_XOFF_LEVEL : Field := ⟨0x58, 0x018, 19, 8⟩
abbrev XON_XON_LEVEL : Field := ⟨0x58, 0x01C, 11, 0⟩
abbrev XON_QUANTA : Field := ⟨0x58, 0x01C, 31, 16⟩
abbrev ECPRI_PORT_PORT : Field := ⟨0x58, 0x020, 15, 0⟩
abbrev PROTECT_WORK : Field := ⟨0x58, 0x024, 4, 0⟩
abbrev PROTECT_PROT : Field := ⟨0x58, 0x024, 12, 8⟩
abbrev PROTECT_EN : Field := ⟨0x58, 0x024, 16, 16⟩
abbrev PROTECT_ACTIVE : Field := ⟨0x58, 0x024, 17, 17⟩
abbrev STATUS_LINK_UP : Field := ⟨0x58, 0x040, 0, 0⟩
abbrev STATUS_LOCAL_FAULT : Field := ⟨0x58, 0x040, 1, 1⟩
abbrev STATUS_REMOTE_FAULT : Field := ⟨0x58, 0x040, 2, 2⟩
abbrev STATUS_LINK_PAUSED : Field := ⟨0x58, 0x040, 3, 3⟩
abbrev STATUS_PAUSED : Field := ⟨0x58, 0x040, 15, 8⟩
abbrev STATUS_BREAK : Field := ⟨0x58, 0x040, 23, 16⟩
abbrev STATUS_LINK_BREAK : Field := ⟨0x58, 0x040, 24, 24⟩
abbrev RX_FRAMES_COUNT : Field := ⟨0x58, 0x044, 31, 0⟩
abbrev RX_FCS_ERR_COUNT : Field := ⟨0x58, 0x048, 31, 0⟩
abbrev RX_LENGTH_COUNT : Field := ⟨0x58, 0x04C, 31, 0⟩
abbrev RX_UNMATCHED_COUNT : Field := ⟨0x58, 0x050, 31, 0⟩
abbrev RX_NO_DESC_COUNT : Field := ⟨0x58, 0x054, 31, 0⟩
abbrev RX_PAUSE_COUNT : Field := ⟨0x58, 0x058, 31, 0⟩
abbrev TX_FRAMES_COUNT : Field := ⟨0x58, 0x05C, 31, 0⟩
abbrev TX_POISON_COUNT : Field := ⟨0x58, 0x060, 31, 0⟩
abbrev TX_OVERSIZE_COUNT : Field := ⟨0x58, 0x064, 31, 0⟩
abbrev FEC_CORR_COUNT : Field := ⟨0x58, 0x068, 31, 0⟩
abbrev FEC_UNCORR_COUNT : Field := ⟨0x58, 0x06C, 31, 0⟩
abbrev WD_BREAKS_COUNT : Field := ⟨0x58, 0x070, 31, 0⟩
abbrev PAUSE_SENT_COUNT : Field := ⟨0x58, 0x074, 31, 0⟩
end Reg.MAC

/-- The registers of class 0x58 MAC. -/
def regsMAC : List RegDef :=
  [⟨0x000, 0, 1, commonModes, [⟨.rw, 0, 0, 0⟩, ⟨.rw, 3, 1, 1⟩, ⟨.rw, 9, 4, 0⟩, ⟨.rw, 10, 10, 1⟩, ⟨.rw, 11, 11, 0⟩, ⟨.rw, 12, 12, 1⟩, ⟨.rw, 13, 13, 0⟩, ⟨.rw, 23, 16, 0xFF⟩]⟩,
   ⟨0x004, 0, 1, commonModes, [⟨.rw, 31, 0, 0⟩]⟩,
   ⟨0x008, 0, 1, commonModes, [⟨.rw, 15, 0, 0⟩]⟩,
   ⟨0x00C, 0, 1, commonModes, [⟨.rw, 13, 0, 0x2580⟩]⟩,
   ⟨0x010, 0, 1, commonModes, [⟨.rw, 7, 0, 0⟩, ⟨.rw, 8, 8, 0⟩]⟩,
   ⟨0x014, 0, 1, commonModes, [⟨.rw, 15, 0, 0x32⟩, ⟨.rw, 31, 16, 0xA⟩]⟩,
   ⟨0x018, 0, 1, commonModes, [⟨.rw, 7, 0, 0⟩, ⟨.rw, 19, 8, 0x10⟩]⟩,
   ⟨0x01C, 0, 1, commonModes, [⟨.rw, 11, 0, 0x40⟩, ⟨.rw, 31, 16, 0xFFFF⟩]⟩,
   ⟨0x020, 0, 1, commonModes, [⟨.rw, 15, 0, 0⟩]⟩,
   ⟨0x024, 0, 1, commonModes, [⟨.rw, 4, 0, 0⟩, ⟨.rw, 12, 8, 0⟩, ⟨.rw, 16, 16, 0⟩, ⟨.rw, 17, 17, 0⟩]⟩,
   ⟨0x040, 0, 1, 252, [⟨.ro, 0, 0, 0⟩, ⟨.ro, 1, 1, 0⟩, ⟨.ro, 2, 2, 0⟩, ⟨.ro, 3, 3, 0⟩, ⟨.ro, 15, 8, 0⟩, ⟨.ro, 23, 16, 0⟩, ⟨.ro, 24, 24, 0⟩]⟩,
   ⟨0x044, 0, 1, 252, [⟨.ro, 31, 0, 0⟩]⟩] ++
  [⟨0x048, 0, 1, 252, [⟨.ro, 31, 0, 0⟩]⟩,
   ⟨0x04C, 0, 1, 252, [⟨.ro, 31, 0, 0⟩]⟩,
   ⟨0x050, 0, 1, 252, [⟨.ro, 31, 0, 0⟩]⟩,
   ⟨0x054, 0, 1, 252, [⟨.ro, 31, 0, 0⟩]⟩,
   ⟨0x058, 0, 1, 252, [⟨.ro, 31, 0, 0⟩]⟩,
   ⟨0x05C, 0, 1, 252, [⟨.ro, 31, 0, 0⟩]⟩,
   ⟨0x060, 0, 1, 252, [⟨.ro, 31, 0, 0⟩]⟩,
   ⟨0x064, 0, 1, 252, [⟨.ro, 31, 0, 0⟩]⟩,
   ⟨0x068, 0, 1, 252, [⟨.ro, 31, 0, 0⟩]⟩,
   ⟨0x06C, 0, 1, 252, [⟨.ro, 31, 0, 0⟩]⟩,
   ⟨0x070, 0, 1, 252, [⟨.ro, 31, 0, 0⟩]⟩,
   ⟨0x074, 0, 1, 252, [⟨.ro, 31, 0, 0⟩]⟩]

/-! Class 0x59 FLOW, chapter 15. -/
namespace Reg.FLOW
/-- Class number (R14). -/
abbrev cls : Nat := 0x59
abbrev SEL_SEL : Field := ⟨0x59, 0x000, 10, 0⟩
abbrev DATA_WORD (k : Nat) : Field := ⟨0x59, 0x010 + 0x4 * k, 31, 0⟩
abbrev STAT_COUNT (k : Nat) : Field := ⟨0x59, 0x040 + 0x4 * k, 31, 0⟩
abbrev CLR_CLR_STATS : Field := ⟨0x59, 0x054, 0, 0⟩
end Reg.FLOW

/-- The registers of class 0x59 FLOW. -/
def regsFLOW : List RegDef :=
  [⟨0x000, 0, 1, commonModes, [⟨.rw, 10, 0, 0⟩]⟩,
   ⟨0x010, 4, 8, commonModes, [⟨.rw, 31, 0, 0⟩]⟩,
   ⟨0x040, 4, 5, 252, [⟨.ro, 31, 0, 0⟩]⟩,
   ⟨0x054, 0, 1, commonModes, [⟨.wo, 0, 0, 0⟩]⟩]

/-! Class 0x5A ETH_RING, chapter 15. -/
namespace Reg.ETH_RING
/-- Class number (R14). -/
abbrev cls : Nat := 0x5A
abbrev CTL_EN : Field := ⟨0x5A, 0x000, 0, 0⟩
abbrev CTL_MAC : Field := ⟨0x5A, 0x000, 5, 1⟩
abbrev CTL_PRIO : Field := ⟨0x5A, 0x000, 8, 6⟩
abbrev CTL_LOG2 : Field := ⟨0x5A, 0x000, 12, 9⟩
abbrev CTL_IRQ_EN : Field := ⟨0x5A, 0x000, 13, 13⟩
abbrev CTL_KEY_EN : Field := ⟨0x5A, 0x000, 14, 14⟩
abbrev BASE_LO_BASE_LO : Field := ⟨0x5A, 0x004, 31, 0⟩
abbrev BASE_HI_BASE_HI : Field := ⟨0x5A, 0x008, 7, 0⟩
abbrev IRQ_FN : Field := ⟨0x5A, 0x00C, 3, 0⟩
abbrev IRQ_VECTOR : Field := ⟨0x5A, 0x00C, 14, 4⟩
abbrev IRQ_COAL_COUNT : Field := ⟨0x5A, 0x00C, 23, 16⟩
abbrev KEY_KEY_INDEX : Field := ⟨0x5A, 0x010, 12, 0⟩
abbrev TAIL_TAIL : Field := ⟨0x5A, 0x014, 15, 0⟩
abbrev HEAD_HEAD : Field := ⟨0x5A, 0x018, 15, 0⟩
abbrev STATUS_RUNNING : Field := ⟨0x5A, 0x01C, 0, 0⟩
abbrev STATUS_LEN_PENDING : Field := ⟨0x5A, 0x01C, 1, 1⟩
abbrev FRAMES_COUNT : Field := ⟨0x5A, 0x020, 31, 0⟩
abbrev DISCARDS_COUNT : Field := ⟨0x5A, 0x024, 31, 0⟩
end Reg.ETH_RING

/-- The registers of class 0x5A ETH_RING. -/
def regsETH_RING : List RegDef :=
  [⟨0x000, 0, 1, commonModes, [⟨.rw, 0, 0, 0⟩, ⟨.rw, 5, 1, 0⟩, ⟨.rw, 8, 6, 0⟩, ⟨.rw, 12, 9, 8⟩, ⟨.rw, 13, 13, 0⟩, ⟨.rw, 14, 14, 0⟩]⟩,
   ⟨0x004, 0, 1, commonModes, [⟨.rw, 31, 0, 0⟩]⟩,
   ⟨0x008, 0, 1, commonModes, [⟨.rw, 7, 0, 0⟩]⟩,
   ⟨0x00C, 0, 1, commonModes, [⟨.rw, 3, 0, 0⟩, ⟨.rw, 14, 4, 0⟩, ⟨.rw, 23, 16, 1⟩]⟩,
   ⟨0x010, 0, 1, commonModes, [⟨.rw, 12, 0, 0⟩]⟩,
   ⟨0x014, 0, 1, commonModes, [⟨.rw, 15, 0, 0⟩]⟩,
   ⟨0x018, 0, 1, 252, [⟨.ro, 15, 0, 0⟩]⟩,
   ⟨0x01C, 0, 1, 252, [⟨.ro, 0, 0, 0⟩, ⟨.ro, 1, 1, 0⟩]⟩,
   ⟨0x020, 0, 1, 252, [⟨.ro, 31, 0, 0⟩]⟩,
   ⟨0x024, 0, 1, 252, [⟨.ro, 31, 0, 0⟩]⟩]

/-- Registers every window has: GRP_MEMBER (R15, R18) and the counter bank (R401). -/
def regsCommon : List RegDef :=
  [⟨0x380, 4, 8, commonModes, [⟨.rw, 9, 0, 0⟩, ⟨.rw, 16, 16, 0⟩]⟩,
   ⟨0x3A0, 0, 1, commonModes, [⟨.wo, 7, 0, 0⟩, ⟨.rw, 8, 8, 0⟩]⟩,
   ⟨0x3A4, 0, 1, commonModes, [⟨.w1c, 7, 0, 0⟩]⟩,
   ⟨0x3C0, 8, 8, 252, [⟨.ro, 31, 0, 0⟩]⟩,
   ⟨0x3C4, 8, 8, 252, [⟨.ro, 15, 0, 0⟩]⟩]

/-- GRP_MEMBER and GRP_MEMBER_HI, in classes marked for group use only (R15). -/
def regsGroup : List RegDef :=
  [⟨0x370, 0, 1, commonModes, [⟨.rw, 31, 0, 0⟩]⟩,
   ⟨0x374, 0, 1, commonModes, [⟨.rw, 31, 0, 0⟩]⟩]

/-- One row of the class table of R14. -/
structure ClassDef where
  cls : Nat
  count : Nat
  group : Bool
deriving DecidableEq, Repr

/-- The CSR classes of the SH9680-FX (R14). -/
def classTable : List ClassDef :=
  [⟨0x00, 1, false⟩, ⟨0x01, 1, false⟩, ⟨0x02, 1, false⟩, ⟨0x03, 78, true⟩, ⟨0x38, 64, true⟩, ⟨0x39, 256, true⟩, ⟨0x48, 16, true⟩, ⟨0x49, 4, true⟩, ⟨0x4A, 1, false⟩, ⟨0x63, 1, false⟩] ++
  [⟨0x68, 1, false⟩, ⟨0x69, 16, true⟩, ⟨0x70, 2, false⟩, ⟨0x71, 8, true⟩, ⟨0x10, 24, true⟩, ⟨0x20, 1, false⟩, ⟨0x21, 256, true⟩, ⟨0x22, 32, false⟩, ⟨0x23, 192, true⟩, ⟨0x28, 1, false⟩] ++
  [⟨0x29, 48, true⟩, ⟨0x2A, 64, true⟩, ⟨0x78, 1, false⟩, ⟨0x79, 1, false⟩, ⟨0x60, 4, false⟩, ⟨0x61, 24, true⟩, ⟨0x62, 16, true⟩, ⟨0x08, 512, true⟩, ⟨0x09, 512, true⟩, ⟨0x0A, 32, true⟩] ++
  [⟨0x0B, 8, true⟩, ⟨0x50, 12, true⟩, ⟨0x51, 48, true⟩, ⟨0x52, 12, true⟩, ⟨0x11, 192, true⟩, ⟨0x12, 24, true⟩, ⟨0x18, 16, true⟩, ⟨0x19, 8, true⟩, ⟨0x1A, 4, true⟩, ⟨0x1B, 4, true⟩] ++
  [⟨0x1C, 8, true⟩, ⟨0x30, 1, false⟩, ⟨0x31, 128, true⟩, ⟨0x32, 32, true⟩, ⟨0x40, 4, false⟩, ⟨0x41, 128, true⟩, ⟨0x58, 24, true⟩, ⟨0x59, 1, false⟩, ⟨0x5A, 512, true⟩]

/-- The registers a class has of its own. -/
def classRegs (cls : Nat) : List RegDef :=
  match cls with
  | 0x00 => regsSYS
  | 0x01 => regsJOURNAL
  | 0x02 => regsCLK
  | 0x03 => regsPWR
  | 0x38 => regsMORTAR_NI
  | 0x39 => regsROUTER
  | 0x48 => regsTREASURY
  | 0x49 => regsBULK
  | 0x4A => regsSPALL
  | 0x63 => regsPINS
  | 0x68 => regsPCIE
  | 0x69 => regsPCIE_FN
  | 0x70 => regsDVORYS
  | 0x71 => regsKEEP
  | 0x10 => regsCOURSE
  | 0x20 => regsDISP
  | 0x21 => regsDQUEUE
  | 0x22 => regsKEYSTONE
  | 0x23 => regsTELLER
  | 0x28 => regsLEDGER
  | 0x29 => regsMETER
  | 0x2A => regsACCOUNT
  | 0x78 => regsCOLLECT
  | 0x79 => regsTRACE
  | 0x60 => regsTB
  | 0x61 => regsPTP_PORT
  | 0x62 => regsTDD_OUT
  | 0x08 => regsSTRM_RX
  | 0x09 => regsSTRM_TX
  | 0x0A => regsFFT
  | 0x0B => regsFE
  | 0x50 => regsLANEQ
  | 0x51 => regsLANE
  | 0x52 => regsAHNENT
  | 0x11 => regsSETT
  | 0x12 => regsCMU
  | 0x18 => regsLDPC_DEC
  | 0x19 => regsLDPC_ENC
  | 0x1A => regsPOLAR
  | 0x1B => regsTURBO
  | 0x1C => regsHARQ
  | 0x30 => regsVAULT
  | 0x31 => regsVSTREAM
  | 0x32 => regsTALLY
  | 0x40 => regsDMA
  | 0x41 => regsDMA_CH
  | 0x58 => regsMAC
  | 0x59 => regsFLOW
  | 0x5A => regsETH_RING
  | _ => []

end Sys2Proof.Machine
end

