-- ==== Sys2Proof/Config.lean ====
section
/-! DEFINITION. What one implementation fixes and what the spec leaves open: constants with no body, so that no proof can
see a value of them. DESIGN CHOICE, safe: a claim holds for every value of each (log entries 12 to 16, 64). -/
namespace Sys2Proof.Config

/-- Silicon revision of IDENTIFY (R44), not given (log entry 13). -/
opaque siliconRevision : Word

/-- RESULT1 of an ACCEPTED reply (R42): advisory, left to the device within limits that `estimateUs` of
Sys2Proof/Machine/Ops.lean applies. By opcode and free-value count (log entry 14). -/
opaque estimate : Nat → Nat → Nat

/-- Fused keys, revocation, minimum security version (R62), written at manufacture: slot programmed, slot revoked (log entry 13). -/
opaque keyProgrammed : Nat → Bool
opaque keyRevoked : Nat → Bool
opaque minSecVersion : Nat

/-- SHA-384 over bytes (R62); the algorithm is a standard the spec names and does not give (log entry 15). -/
opaque sha384 : List Byte → List Byte

/-- ECDSA P-384 verification of a signature over a digest against the key of a slot (R62), as `sha384`. -/
opaque ecdsaVerifies : Nat → List Byte → List Byte → Bool

/-- Manufacturing calibration of a metering point, GAIN and OFFSET, fused, which the model brings into the bounds of R199 (log
entry 13). -/
opaque fuseGain : Nat → BitVec 16
opaque fuseOffset : Nat → BitVec 16

/-- A fresh value that the spec leaves open, by the count of values taken (log entry 12). -/
opaque freeBits : Nat → Nat → Nat

/-- The multiplier of a gain beyond what Q4.12 holds (R72), by the gain in 0.25 dB (log entry 64). -/
opaque gainBeyond : Int → Nat

/-- Coefficients of the low-pass filter of R83 and R228 in Q1.31, by decimation factor and place: the spec bounds ripple and
attenuation and gives no coefficient (log entry 65). -/
opaque filterTap : Nat → Nat → BitVec 32

/-- Shift coefficients V of TS 38.212 tables 5.3.2-2 and 5.3.2-3, which the spec names and does not give: base graph 2 or 1, set
index, row, column; none where the base graph has no entry (log entry 16). -/
opaque ldpcShift : Bool → Nat → Nat → Nat → Option Nat

/-- The polar sequence Q_0 … Q_1023 of TS 38.212 table 5.3.1.2-1, and the interleaving pattern of table 5.3.1.1-1, as
`ldpcShift`. -/
opaque polarSequence : Nat → Nat
opaque polarInterleaver : Nat → Nat

/-- f1 and f2 of the turbo interleaver, TS 36.212 table 5.1.3-3, by block-size index, as `ldpcShift`. -/
opaque qpp : Nat → Nat × Nat

/-- The paths that survive successive-cancellation list decoding (R165), whose metric arithmetic the spec does not give: list
size, input LLRs by position (none: a bit known to be 0), the kind of each position (0 frozen, 1 information, 2 parity check), and
the number of the path; its information bits and its metric. -/
opaque polarPaths : Nat → List (Option Int) → List Nat → Nat → List Bool × Nat

/-- The part of a per-event energy that calibration trims (R25, R169, R201): event, metering point, its GAIN and OFFSET
(log entry 13). -/
opaque energyTrim : Nat → Nat → Word → Nat

end Sys2Proof.Config
end

