-- ==== Sys2Proof/Machine/State.lean ====
section
/-! DEFINITION. The state of the SH9680: everything spec/ gives the machine, as plain data, the reasons a step can stop,
and the state right after reset. Registers that software reads or writes whole have their home in `csr`, each under
its own class, instance and offset (R14, R17); an offset not listed there holds its Reset value (R11,
`Sys2Proof/Machine/Regs.lean`). What a register shows of a unit's own working state is kept here as data of its own type and
formed at the read (`csrView` of `Sys2Proof/Machine/Views.lean`). -/
namespace Sys2Proof.Machine

/-! ## Modes (chapter 03) -/

/-- The eight modes of R54, by code 0-7. -/
inductive Mode | footing | bedding | raising | service | witness | thrift | mending | banked
deriving DecidableEq, Repr

/-- The mode controller (R56-R59, R64): the mode in force, the transition in progress with its requester and the
Dvorys operation that waits for it, the mode Mending returns to, the cause of the last transition, and a move to
Mending that waits for a transition to end (R59). -/
structure ModeCtl where
  mode : Mode
  target : Option Mode
  returnMode : Mode
  cause : Nat
  requester : Nat
  opId : Option (BitVec 16)
  mendingCause : Option Nat
  bankedGated : Bool
  lastRequester : Nat
deriving DecidableEq, Repr

/-- Who made a fence (R61, R389-R391, R396). -/
inductive FenceOrigin | bist | command | auto
deriving DecidableEq, Repr

/-- How far a fence has come: waiting for running work (R396 step 2), draining (R255), off or simply fenced, powering
up again, or waiting for its UNFENCE (R414). -/
inductive FencePhase | waiting | draining | drained | done | powerQueued | powering | refilled
deriving DecidableEq, Repr

/-- One fenced unit: its class and instance, who fenced it, how far the fence has come, whether an UNFENCE_UNIT
waits for it, whether a fault met its power-up (R415), and DEVCLK when it was made (R396). -/
structure Fence where
  cls : Nat
  inst : Nat
  origin : FenceOrigin
  phase : FencePhase
  unfenceWaits : Bool
  faultMet : Bool
  since : Nat
deriving DecidableEq, Repr

/-! ## The event journal (chapter 01) -/

/-- One event as a unit posts it (R27, R439). -/
structure JEvent where
  cls : Nat
  inst : Nat
  event : Nat
  sev : Nat
  detail : Word
deriving DecidableEq, Repr

/-- The journal's own state: the 4-entry class FIFOs, the class counts of events not written, the class granted last,
the instance granted last in each class, and the AON buffer of Banked with its count (R27, R30, R439). -/
structure Journal where
  fifo : Tab (List JEvent)
  lost : Tab Nat
  lastCls : Nat
  lastInst : Tab Nat
  aon : List (JEvent × BitVec 64)
  aonLost : Nat
deriving DecidableEq, Repr

/-! ## Dvorys (chapter 02) -/

/-- A function's ring page (R31-R36): its ring registers, doorbells, the PHASE of the CQ pass, the completions not
signalled yet, DEVCLK at the first of them, and whether the pair is quiescing. -/
structure RingPage where
  sqBase : BitVec 64
  cqBase : BitVec 64
  enable : Bool
  sqTreasury : Bool
  cqTreasury : Bool
  quiesced : Bool
  stalledBp : Bool
  sqHead : BitVec 12
  cqTail : BitVec 12
  sqTail : BitVec 12
  cqHead : BitVec 12
  phase : Bool
  vector : BitVec 11
  irqEn : Bool
  coalCount : BitVec 8
  coalTime : BitVec 8
  coalSince : Nat
  unsignalled : Nat
  quiescing : Bool
deriving DecidableEq, Repr

/-- What a long-running operation does (the LR rows of R44). -/
inductive LrKind
  | modeSet | regBlock | commitNotify | fenceUnit | unfenceUnit | meterCal | vaultExport | memCopy | pageRetire
  | evacuate | quadSwitch | laneRecal | imageStage | imageVerify | imageActivate | flashWrite | collect
deriving DecidableEq, Repr

/-- One entry of the operation table (R42): OP_ID, the ring, TAG, SEQUENCE and INTERRUPT of its packet, its target and
parameter words, how much is done, whether it is being aborted (R50) or has lost its ring (R36), and SQ_HEAD after its packet was
taken. -/
structure LrOp where
  opId : BitVec 16
  fn : Nat
  tag : Word
  seq : BitVec 16
  intr : Bool
  kind : LrKind
  cls : Nat
  sel : Nat
  params : List Word
  progress : Nat
  aborting : Bool
  mute : Bool
  head : BitVec 12
deriving DecidableEq, Repr

/-- A function's grants and subscription (R46, R49). -/
structure FnState where
  groups : BitVec 16
  classes : BitVec 256
  subOn : Bool
  subSev : Nat
  subClasses : BitVec 256
  subTag : Word
  undelivered : Nat
deriving DecidableEq, Repr

/-- The staging area of R51: empty, staging, staged (not verified) or verified, and the image's type and length. -/
inductive StageState | empty | staging | staged | verified
deriving DecidableEq, Repr

/-- The image state Dvorys keeps (R51, R52, R62): staging area, boot slot. -/
structure Images where
  stage : StageState
  type : Nat
  length : Nat
  bootSlot : Nat
deriving DecidableEq, Repr

/-- Dvorys: the 16 ring pages, the ring granted last (R41), the operation table and the last OP_ID given, grants and
subscriptions, and the images. -/
structure Dvorys where
  pages : Tab RingPage
  lastRing : Nat
  ops : List LrOp
  lastOp : BitVec 16
  fns : Tab FnState
  images : Images
  spi : Tab (List Byte)
  heldPacket : Tab Bool
deriving DecidableEq, Repr

/-! ## Dispatcher (chapter 08) -/

/-- The states of a resident task. -/
inductive TaskSt | waiting | ready | slotted | running
deriving DecidableEq, Repr

/-- A resident descriptor (R175, R176): its fields, its queue, deadline key and post sequence, its state and release
mark, earlier re-dispatches, the unit that holds it, its allowance, the DEVCLK of its placement and of its turning
READY, its accrual in 1/256 mite (R201), and whether its ESTIMATE stands debited. -/
structure Task where
  queue : Nat
  target : BitVec 16
  grade : Nat
  idempotent : Bool
  lateDrop : Bool
  failSkip : Bool
  optional : Bool
  waitEn : Bool
  doneEn : Bool
  arg : BitVec 40
  account : Nat
  waitKey : Nat
  doneKey : Nat
  noDeadline : Bool
  estimate : Nat
  key : Int
  seq : Nat
  st : TaskSt
  mark : Bool
  redispatches : Nat
  unit : Nat
  allowance : Nat
  placedAt : Nat
  readyAt : Nat
  accrual : Nat
  debited : Bool
deriving DecidableEq, Repr

/-- A keystone (R180): COUNT, RELOAD and the two sticky bits; its waiters are the WAITING tasks that name it and the
DMA channels of R272. -/
structure Keystone where
  count : BitVec 12
  reload : BitVec 12
  fail : Bool
  underflow : Bool
deriving DecidableEq, Repr

/-- An access of a requester that stands at the post port (R176, R177): a POST write with its queue and its descriptor's address, and
the DMA channel that waits at it; or a read of POST behind one. -/
structure HeldPost where
  queue : Nat
  addr : Nat
  order : Nat
  read : Bool
  chan : Option Nat
deriving DecidableEq, Repr

/-- The dispatcher (R175-R196). Slots are numbered as R184 numbers the fill requesters, 0-231. `dmaWait` lists the DMA
channels that wait on a keystone (R272), `dmaRel` holds 1 or 2 for a channel released clean or with the mark;
`takeSince` holds DEVCLK + 1 at the start of a core's TAKE wait, `deferHead` the index + 1 of a queue's
deferred head, `reports` the cause code + 1 of a completion on its way to the dispatcher (R189). -/
structure Disp where
  tasks : Tab Task
  postSeq : Nat
  dlclk : Nat
  slots : Tab (List Nat)
  held : Tab (List HeldPost)
  heldOrder : Nat
  lastIndex : Tab Nat
  cancelResult : Tab Nat
  keystones : Tab Keystone
  lastPost : Nat
  lastFill : Nat
  takeSince : Tab Nat
  dmaWait : Tab (List Nat)
  dmaRel : Tab Nat
  deferHead : Tab Nat
  reports : Tab Nat
deriving DecidableEq, Repr

/-! ## Energy ledger (chapter 09) -/

/-- An account's books in 1/256 mite, modulo 2^64 (R202), with the lowest CREDIT of the period (R205), what the period
has charged, whether its first overdraft of the period is journalled, what the open period has
charged or accrued, and the owner and spread charges of the open and of the last closed period (R213). -/
structure Account where
  credit : BitVec 64
  outstanding : BitVec 64
  minted : BitVec 64
  drawn : BitVec 64
  accrued : BitVec 64
  minCredit : Int
  periodDraw : Nat
  spreadBase : Nat
  overdraftPosted : Bool
  periodAll : Nat
  staticNow : Nat
  staticLast : Nat
deriving DecidableEq, Repr

/-- A metering point (R198-R201): ENERGY in mites and the fraction of a mite carried (in 2^-14), the energy of the
open period, the mean step of the last one (in 2^-14 mite), MODE and OWNER in effect, the constants METER_CALIBRATE found,
the unchanged readings counted. -/
structure Meter where
  energy : BitVec 64
  frac : Nat
  period : Nat
  steps : Nat
  meanStep : Nat
  modeNow : Nat
  ownerNow : Nat
  lastRaw : Nat
  stuck : Nat
  newCal : Option (BitVec 16 × BitVec 16)
deriving DecidableEq, Repr

/-- The ledger (R197-R216): books, points, DEV_CREDIT, the PERIOD code in effect, the step totals of the last 255 steps, the hold
of the stretch level during a recovery (R212), the events counted in the open step by unit, task and event, and by unit, account and
event for tasks trued up in it (R201), and an entry to or exit from Thrift that waits for the next period start (R57). `stepAt` is
DEVCLK + 1 at the last step close (R198). Periods (R200): where the one in progress began on DEVCLK, or its end in TB_0 grid time
once TB_0 runs, its actual length in 1/625 Tc, and those that steps of TB_0 ended and that are not closed yet (actual and nominal
length). Parking (R210, R211): DEVCLK + 1 when a domain was last not idle, and the domains whose unpark request is held. -/
structure Ledger where
  accounts : Tab Account
  meters : Tab Meter
  devCredit : BitVec 64
  periodNow : Nat
  thriftExhausted : Bool
  window : List Nat
  hold : Bool
  late : Tab Nat
  thriftAsk : Option Bool
  counts : Tab Nat
  stepAt : Nat
  periodFrom : Nat
  periodEnd : Option Int
  periodLen : Nat
  closes : List (Nat × Nat)
  busyAt : Tab Nat
  unparks : List Nat
deriving DecidableEq, Repr

/-! ## Mortar (chapter 11) -/

/-- A route-table entry (R245). -/
structure Route where
  route : BitVec 40
  hops : BitVec 5
  invalid : Bool
deriving DecidableEq, Repr

/-- An outstanding transaction (R241): its source NI, port and TXN, its destination port, the route epoch it left under, and the
requester it belongs to. -/
structure Txn where
  ni : Nat
  port : Nat
  txn : Nat
  dest : Nat
  epoch : Bool
  req : Nat
deriving DecidableEq, Repr

/-- Where a flit stands (R246): leaving an NI, in the buffer of input 0 N, 1 E, 2 S, 3 W or 4 local of a router, or ejected at an NI. -/
inductive Place
  | out (ni : Nat)
  | buf (router input : Nat)
  | ejected (ni : Nat)
deriving DecidableEq, Repr

/-- What a flit carries besides its way (R242-R244): a request header; a response; up to two words of data with their INDEX and LAST;
a snoop-plane packet by TYPE and payload, its header and payload flit taken together. -/
inductive Load
  | request (cls op len size addr : Nat)
  | response (status words : Nat)
  | data (index : Nat) (words : List (List (BitVec 8 × Bool))) (last : Bool)
  | snoop (type payload : Nat)
deriving DecidableEq, Repr

/-- A flit on Mortar (R238, R242-R246): where it stands, plane and VC, SRC and DEST, EPOCH, the hops that remain, TXN, and its load. -/
structure Flit where
  place : Place
  plane : Nat
  vc : Nat
  src : Nat
  dest : Nat
  epoch : Bool
  route : List Nat
  txn : Nat
  load : Load
deriving DecidableEq, Repr

/-- A destination port (R255): FENCED, DRAINING, DRAINED and FORCED, the NIs that have sent DRAIN_DONE and those whose DRAIN_DONE it
holds. -/
structure Port where
  fenced : Bool
  draining : Bool
  drained : Bool
  forced : Bool
  sentFrom : List Nat
  doneFrom : List Nat
deriving DecidableEq, Repr

/-- What a request to the fence controller asks for. -/
inductive FcKind | fence | unfence | force
deriving DecidableEq, Repr

/-- A request to the fence controller (R254): requester 0 fault manager, 1 power sequencer, 2 FENCE_REQ writes; and the destination. -/
structure FcReq where
  req : Nat
  kind : FcKind
  dest : Nat
deriving DecidableEq, Repr

/-- Mortar (R238-R262). Route entries are numbered (NI × 2 + bank) × 256 + entry; byte and latency counts NI × 256 + requester × 16 + n.
Transactions outstanding; flits, in order of arrival where they stand; requests waiting at each NI's arbiter (R249); status and data
of the last request completed for requester NI × 16 + requester; the next TXN of port NI × 4 + port; the requester each NI granted last;
request headers that read host memory and wait for the host. By router and input the VC, and by router and output the input, granted last
(R246); by 4 × router + direction the consecutive replays (R251) and the links in retraining; VC_DEPTH as routers took it into effect (R259).
The controller's request, those that wait and the requester taken last (R254); `fencers` lists, per destination, the requesters of its
fence (R254, R257), `forcing` the destinations of FORCE_DRAINs under way with the transactions ended (R256). `detours` lists the LINK_DOWNs
an NI has received and waits for OLD_CLEAR with (R252). -/
structure Mortar where
  routes : Tab Route
  txns : List Txn
  flits : List Flit
  waiting : Tab (List NiReq)
  results : Tab (Nat × List (BitVec 8 × Bool))
  nextTxns : Tab Nat
  lastInj : Tab Nat
  hostWait : List Flit
  lastVc : Tab Nat
  lastIn : Tab Nat
  replays : Tab Nat
  training : List Nat
  depth : Tab Word
  ports : Tab Port
  fc : Option FcReq
  fcQueue : List FcReq
  fcLast : Nat
  fencers : Tab (List Nat)
  forcing : Tab Nat
  hist : Tab Nat
  bytes : Tab Nat
  detours : Tab (List Nat)
deriving DecidableEq, Repr

/-! ## Memory (chapter 13) -/

/-- A spall entry (R297). -/
structure Spall where
  addr : Nat
  column : Nat
  st : Nat
  count : Nat
  rewritten : Bool
  memory : Nat
  first : Word
  last : Word
deriving DecidableEq, Repr

/-- What the memories hold beside their words (R284-R303): spall entries, retirement entries of channel c at
256c + n as (page, reserve page), spare rows and column lines set, the scrubbers' positions with the word each has
read and not yet rewritten, and the evacuation in progress. Scrubber numbers: 0-15 TREASURY, 16-39 COURSE, 40-43
BULK. -/
structure MemSys where
  spall : Tab Spall
  retired : Tab (Nat × Nat)
  repairs : List (Nat × Bool)
  scrubAt : Tab Nat
  scrubHeld : Tab Nat
  staleWrite : List Nat
  ilvOld : Option (Nat × Nat)
  migPtr : Nat
  capacity : Nat
  evacCh : Option Nat
deriving DecidableEq, Repr

/-! ## Host attachment (chapter 17) -/

/-- An MSI-X vector (R381). -/
structure MsixVec where
  addr : BitVec 64
  data : Word
  masked : Bool
  pending : Bool
deriving DecidableEq, Repr

/-- How the host answers device reads of a 16-byte word of its memory (R382, R383): with data, with EP set, with Unsupported Request
or Completer Abort, or not at all. -/
inductive HostAnswer | data | poison | ur | ca | silent
deriving DecidableEq, Repr

/-- The completion the endpoint last returned for a host read (R379, R380): 0 successful, 1 Unsupported Request, 2 Completer Abort; its
bytes, each with the EP bit of the packet that carries it. -/
structure HostReply where
  status : Nat
  data : List (BitVec 8 × Bool)
deriving DecidableEq, Repr

/-- The endpoint (R374-R386): vectors, the allocation in effect per function, the translation cache as (page, size, translation), newest
first; per function the completion timeout of Device Control 2 and the ATS enable; the host's answers by bus address / 16; the last
reply to a host read; PERST_N; whether the link trains. -/
structure Pcie where
  vecs : Tab MsixVec
  alloc : Tab (Nat × Nat)
  atc : List (Nat × Nat × Nat)
  devCtl2 : Tab (Nat × Bool)
  answers : Tab HostAnswer
  reply : HostReply
  perstN : Bool
  training : Bool
deriving DecidableEq, Repr

/-! ## Faults, counters, clocks (chapters 18-20) -/

/-- A recovery in progress: the fault's code and unit, and DEVCLK at detection (R387, R399). -/
structure Recovery where
  code : Nat
  cls : Nat
  inst : Nat
  since : Nat
deriving DecidableEq, Repr

/-- The fault manager (R387-R399). -/
structure Faults where
  recoveries : List Recovery
  held : Bool
deriving DecidableEq, Repr

/-- A collector operation (R404, R405); `since` is TCNT at its first sweep. -/
structure Collect where
  list : Nat
  count : Nat
  out : Nat
  period : Nat
  since : Nat
  sweep : Nat
  written : Nat
  failed : Bool
deriving DecidableEq, Repr

/-- Counters, sampling and trace (R400-R408). Sample buffers and ring geometry in effect (base,
entries) by Course, trigger counts by core; the trace FIFO
as packets of 16-bit words, newest last; packets dropped and not yet told, and those of the tally period; words sent since the last SYNC; the packet last
sent. -/
structure Observe where
  sampBuf : Tab (List (List Word))
  sampSeq : Tab Nat
  sampCount : Tab Nat
  sampGeo : Tab (Nat × Nat)
  collect : Option Collect
  fifo : List (List Nat)
  lost : Nat
  lostNow : Nat
  sinceSync : Nat
  sent : List Nat
deriving DecidableEq, Repr

/-- Clocks, power and pins (R409-R421): BOOT_MODE as sampled, the level of RESET_N, whether Tj holds Footing, the domain
the sequencer ramps, the domains waiting for power-up and the one granted last, VDD_IO18 low, a Footing that a power-on reset began,
the fuse read under way after the sampling of BOOT_MODE (R60), REF missing (R412), the domains that skip 1 cycle in 2 (R417), and the
pads driven from outside, DEVCLK at which a new depth of the spread takes effect (R410), and at which Footing began (R418). -/
structure Power where
  bootPins : BitVec 3
  resetN : Bool
  hot : Bool
  ramping : Option Nat
  waitingUp : List Nat
  lastDomain : Nat
  ioLow : Bool
  por : Bool
  fusing : Bool
  refGone : Bool
  skips : List Nat
  gpioPads : Word
  spreadAt : Option Nat
  footAt : Nat
deriving DecidableEq, Repr

/-! ## Time bases (chapter 16) -/

/-- A time base (R356, R357): seconds, nanoseconds, the fraction of a nanosecond with its 32 hidden bits, and what is left
of the increment below them (kept exactly, in units of the increment's divisor); the servo's integral I and the FREQ in
effect, in 2^-24 ppb; samples below LOCK_NS in a row; DEVCLK of the last sample; the stamp of the last accepted PPS_IN
edge; whether PPS_OUT is high for it and since when. -/
structure TimeBase where
  sec : BitVec 48
  ns : Nat
  frac : BitVec 48
  rem : Nat
  integral : Int
  freq : Int
  run : Nat
  lastSample : Nat
  lastPps : Option Nat
  ppsHigh : Option Nat
  ppsLast : Option Nat
deriving DecidableEq, Repr

/-- An edge entry of a TDD_OUT pin (R369): its time in Tc, LEVEL, PERIOD and COUNT. -/
structure Edge where
  t : Int
  level : Bool
  period : Nat
  count : Nat
deriving DecidableEq, Repr

/-- A TDD_OUT pin (R368, R369): its edge queue in push order, SCHED, and the slot of its grid it was last in. -/
structure TddPin where
  queue : List Edge
  sched : Bool
  slot : Option Nat
deriving DecidableEq, Repr

/-- Time (R356-R370, R400): the time bases, the phase of the TIME clock within a REF cycle, TCNT, pins, the DLCLK count at
which the mode last stopped holding outputs quiet, and since when the timing reference is valid again. -/
structure Time where
  tbs : Tab TimeBase
  phase : Nat
  tcnt : BitVec 64
  pins : Tab TddPin
  quietEnd : Nat
  ppsOut : Bool
deriving DecidableEq, Repr

/-! ## Stream channels (chapter 04) -/

/-- A symbol in a channel's hands: its 21-bit number, slot_count, whether it is a PRACH repetition and which, whether it
failed, whether its blocks stand in the grid, gain and frequency in effect, its samples or bins, the setting in effect when it was
taken, the SAMP cycle (4 Tc of DLCLK) from which it asks for its engine, and the capture slots that take it, each with its CAP_BLOCKS (R218). -/
structure SymJob where
  sym : Nat
  slot : Nat
  prach : Bool
  rep : Nat
  fail : Bool
  written : Bool
  gain : Nat
  freq : Nat
  data : List (Int × Int)
  eff : Tab Word
  due : Nat
  caps : List (Nat × Word)
deriving DecidableEq, Repr

/-- A committed set (R90-R93): the RWS registers by offset, the target symbol, the operations to be told. -/
structure CommitSet where
  words : Tab Word
  target : Option Nat
  ops : List (BitVec 16)
deriving DecidableEq, Repr

/-- A PRACH occasion under way (R83): slot_count of its slot, its settings, the samples still to pass before its sequence, the
repetition at hand, and the samples taken and not yet used, after both NCOs, with those substituted. -/
structure Prach where
  slot : Nat
  eff : Tab Word
  skip : Nat
  rep : Nat
  got : List (Int × Int)
  miss : List Bool
deriving DecidableEq, Repr

/-- A block a flow has placed (R80): symbol, PRB, its bytes, and whether its write succeeded. -/
structure Placed where
  sym : Nat
  prb : Nat
  blk : List (BitVec 8)
  ok : Bool
deriving DecidableEq, Repr

/-- A stream channel (R69-R94), numbered as R81 numbers the requesters: STRM_RX[c] at c, STRM_TX[c] at 512 + c. `eff` is the
in-effect copy by offset; `pend`, `locked` and `queued` the waiting sets (R92); `lockDone` says that the lock point of the
coming hand-over has passed; `lo`, `loNext`, `loAfter` LO_CORR in effect and written (R91). `cur` is the symbol in force and
`startAt` its start in Tc, `waiting` the wait for the first boundary of a new timing, `resume` the DLCLK count from which a
boundary after a step counts, 0 without a step (`bySlot`: a slot start, after Banked), `stopped` a transmit channel held quiet (R55,
R57). Then gain and the AGC's measurement (`agcOn`: of whole slots), the
NCO phase and that of PRACH_NCO, received samples by stamp (2^-16 ns; none: a zero that counts as missing), the tail of the last
symbol's samples (processed, with those substituted, receive; the start of
the useful part, transmit), slot headers in hand as (slot_count, SYM_DONE, SYM_FAIL), newest first, once-a-slot marks, symbols on
their way to the engine, through
grid and header writes, the PRACH occasions under way and the slot_counts of those that have failed, and what a transmit channel last began
to read, reads, holds ready and sends. `paHold` is the DLCLK count up to which PA-enable stays
asserted after a run's end (R87, R88), `fhPlaced` lists blocks placed by a flow (R80), `fhOpen` the symbols begun whose windows
are open, `fhClosed` the symbol whose window closed last (R336), `fhFrom` the boundary (Tc) from
which the channel runs in its grid; the samples the CP of the symbol in progress has gained (`cpAdj`), those of all symbols (`drift`) since
DLCLK was `driftBase` ahead of the time base (R358). -/
structure Strm where
  eff : Tab Word
  pend : Option CommitSet
  locked : Bool
  queued : Option CommitSet
  lockDone : Bool
  lo : Word
  loNext : Option Word
  loAfter : Option Word
  cur : Option Nat
  startAt : Int
  waiting : Bool
  resume : Nat
  bySlot : Bool
  stopped : Bool
  gain : Int
  agcOn : Bool
  agcSum : Nat
  agcN : Nat
  agcSlots : Nat
  phase : Nat
  prPhase : Nat
  inBuf : List (Nat × Option (Int × Int))
  tail : List (Int × Int)
  tailMiss : List Bool
  headers : List (Nat × Nat × Nat)
  satSlot : Bool
  errSlot : Bool
  toFft : List SymJob
  writing : List SymJob
  headed : List SymJob
  prach : List Prach
  prFail : List Nat
  readSym : Option Nat
  reading : List SymJob
  ready : List SymJob
  out : List (Int × Int)
  outTaken : Nat
  runPos : Option Nat
  paHold : Nat
  fhPlaced : List Placed
  fhOpen : List SymJob
  fhClosed : Option Nat
  fhFrom : Int
  driftBase : Int
  drift : Int
  cpAdj : Int
deriving DecidableEq, Repr

/-- Stream channels by requester number, the FFT queues (R81) by engine as (requester, symbol), the requester whose symbol each engine
took last, and by 16 × lane + stream the PA-enable and ramp words announced ahead, as (effect sample, CW_OP), newest first (R319). -/
structure Streams where
  ch : Tab Strm
  fft : Tab (List (Nat × SymJob))
  fftLast : Tab Nat
  told : Tab (List (Nat × Nat))
deriving DecidableEq, Repr

/-! ## Lanes and Ahnent (chapter 14) -/

/-- A control word in a lane's queue (R319): stream, operation, the effect sample (of the count of samples its stream has
sent) or, for USER, the argument. -/
structure CtlWord where
  stream : Nat
  op : Nat
  effect : Nat
  arg : Nat
deriving DecidableEq, Repr

/-- An Ahnent lane (R313-R322): states entered at (DEVCLK), MFN sent and expected, runs of good and failed headers, valid sync
headers in a row and the last 64 invalid ones as bits, whether IDLE_ENTER was received, multiframes left before transmit idle, the word queue, the USER words received,
the scramblers, transmit FIFOs and sample counts per stream, and the last multiframe sent (32 blocks). -/
structure AhnLane where
  txSince : Nat
  rxSince : Nat
  mfnTx : Nat
  mfnRx : Nat
  good : Nat
  bad : Nat
  syncRun : Nat
  syncHist : Nat
  idleWarned : Bool
  idleIn : Option Nat
  words : List CtlWord
  rxWords : List (Nat × Nat)
  scrTx : Nat
  scrRx : Nat
  fifo : Tab (List (Int × Int))
  sentCount : Tab Nat
  lastSent : List (BitVec 66)
deriving DecidableEq, Repr

/-- Lanes: Ahnent lanes, PROTO writes held per quad (R308), DEVCLK + 1 at which a recalibration began per lane and whether an idle gap of
2 µs has come since (R312), the TXFIR in effect per lane (R310), FEC losses of the open tally period per quad, the ACTIVE selection to take at the next multiframe per quad, and words of
a stream's transmit path that wait for a full queue per lane (R319). -/
structure Lanes where
  ahn : Tab AhnLane
  held : Tab (Option Nat)
  recal : Tab Nat
  fecLost : Tab Nat
  switchTo : Tab (Option Bool)
  waitingWords : Tab (List CtlWord)
  gap : Tab Bool
  fir : Tab Word
deriving DecidableEq, Repr


/-! ## Sett cores and Course matrix units (chapters 05, 06) -/

/-- A write of one architectural register of R103, with the bits it writes. `vx` is VAn as VEXT, VAMOV and VARED read it,
which inside a REP run lags the accumulator by the latencies of R131; outside a run the two are equal. -/
inductive RegWrite
  | v (n : Nat) (x m : BitVec 512) | va (n : Nat) (x m : BitVec 1280) | vx (n : Nat) (x m : BitVec 1280)
  | s (n : Nat) (x m : Word) | a (n : Nat) (x : BitVec 40) | m (n : Nat) (x : Word) | b (n : Nat) (x : BitVec 40)
  | l (n : Nat) (x : BitVec 24) | p (n : Nat) (x m : Word) | lc (x : Word) | rot (x : BitVec 4)
  | ov (x m : BitVec 8) | sat (x : Bool)
deriving DecidableEq, Repr

/-- What a load does with its data: VLD and VLDST, VLDBC, LDW, LDH, LDHU. -/
inductive LoadKind | vec | bcast | word | half | halfu
deriving DecidableEq, Repr

/-- A load of a bundle: address, bytes, destination register and predicate. -/
structure CoreLoad where
  addr : Nat
  len : Nat
  kind : LoadKind
  dst : Nat
  mask : Word
deriving DecidableEq, Repr

/-- What the scalar/branch slot does beside writing registers. -/
inductive SbAct
  | next | branch (i : Nat) | cstep | cturn (i : Nat) | rep (count : Nat) | endTask (status : Bool) | fence
deriving DecidableEq, Repr

/-- An exception raised by a slot: cause, slot, address, TRAP's immediate. -/
structure CoreExc where
  cause : Nat
  slot : Nat
  addr : Nat
  trap : Nat
deriving DecidableEq, Repr

/-- The bundle in execution: the slot whose turn it is, and what the slots before it will do at retirement (R130: no slot sees
what another writes): writes with their latencies, the load, stores as runs of bytes, exceptions, the address of a CMU
command, MACs and the LS slot's address. -/
structure Stage where
  slot : Nat
  writes : List (Nat × RegWrite)
  load : Option CoreLoad
  stores : List (List (Nat × List Byte))
  excs : List CoreExc
  act : SbAct
  cmuq : Option Nat
  macs : Nat
  daddr : Nat
deriving DecidableEq, Repr

/-- A REP run (R112, R138): iterations left, the number of the next one, and results in flight with the iteration at which
each lands. -/
structure RepRun where
  left : Nat
  iter : Nat
  flights : List (Nat × RegWrite)
deriving DecidableEq, Repr

/-- How a task ends: by DONE or TAKE with a status, or by an exception with its cause of R120. -/
inductive Ending | done (failed : Bool) | exc (cause : Nat)
deriving DecidableEq, Repr

/-- A Sett core: the registers of R103; PC, mode, the running task and the last one; the bundle in execution, whether it waits
for a remote load, a CMU queue, or acknowledgements (FENCE); the REP run; posted stores outstanding, oldest first, and the
first that failed; how the task ends; halted and stepping; the bundle fetched for execution and those prefetched after it, each
with its offset and whether it read as poison (R101). -/
structure Core where
  v : Tab (BitVec 512)
  va : Tab (BitVec 1280)
  vx : Tab (BitVec 1280)
  s : Tab Word
  a : Tab (BitVec 40)
  m : Tab Word
  b : Tab (BitVec 40)
  l : Tab (BitVec 24)
  p : Tab Word
  lc : Word
  rot : BitVec 4
  ov : BitVec 8
  sat : Bool
  pc : BitVec 16
  cobble : Bool
  task : Option Nat
  lastTask : Nat
  stage : Stage
  remote : Bool
  waiting : Bool
  fenceHold : Bool
  rep : Option RepRun
  stores : List (List (Nat × List Byte))
  storeErr : Option Nat
  ending : Option Ending
  halted : Bool
  stepping : Bool
  fetched : Option (Nat × Nat × Bool)
  ahead : List (Nat × Nat × Bool)
deriving DecidableEq, Repr

/-- The command a CMU executes: the core that submitted it, its words, whether its results are written, and what its status
record will say: ADDR, NONPD, SAT, POISON, EXP, PIVOT. -/
structure CmuRun where
  core : Nat
  words : List Word
  computed : Bool
  addr : Bool
  nonpd : Bool
  sat : Bool
  poison : Bool
  exp : Nat
  pivot : Nat
deriving DecidableEq, Repr

/-- A Course matrix unit: the queue of each core, the core served last, the command in execution, and the cores with a
completed command that reported ADDR and that no CMUW has met yet. -/
structure Cmu where
  queues : Tab (List (List Word))
  last : Nat
  cur : Option CmuRun
  addrErr : Tab Bool
deriving DecidableEq, Repr

/-- The Sett cores by number 0-191 and the CMUs by Course. -/
structure Sett where
  cores : Tab Core
  cmus : Tab Cmu
deriving DecidableEq, Repr


/-! ## Coding engines (chapter 07) -/

/-- A job in an engine's hands: its task, the 4 words of its status record but for CYCLES, where the record goes (none where it
cannot be written), whether the job is reported failed, whether it names a CRC, whether it erased poisoned input. -/
structure EngJob where
  task : Nat
  words : List Word
  st : Option Nat
  failed : Bool
  named : Bool
  erased : Bool
deriving DecidableEq, Repr

/-- An engine, numbered as R184 numbers it: its job (outputs written, record not yet), the job abandoned by a HANG, the IMAGE_ACTIVATE
that loads or waits to switch with the staged image's type, length and version, whether the load has ended, and the accesses a job
still makes before its watchdog expires. -/
structure Engine where
  job : Option EngJob
  hung : Option Nat
  act : Option (BitVec 16)
  image : Option (Nat × Nat × Nat)
  loaded : Bool
  left : Option Nat
deriving DecidableEq, Repr

/-- The coding engines by fill requester index 192-231 (R184). -/
structure Engines where
  eng : Tab Engine
deriving DecidableEq, Repr


/-! ## Witness (chapter 10) -/

/-- A leaf forming or formed (R220, R221): requester (VSTREAM s: s; summary of STRM_RX[c]: 128 + c), TYPE, MANT, UNIT_BYTES,
channel, time base, MU, symbol and block of the first unit, its boundary in Tc, gain, ROW_MASK, slot_count, whether it
started in a thinned period, its units in order, each byte with its poison, and whether a summary row of it was formed from a poisoned
block. -/
structure Leaf where
  src : Nat
  type : Nat
  mant : Nat
  unitBytes : Nat
  channel : Nat
  tb : Nat
  mu : Nat
  sym : Nat
  first : Nat
  startTc : Nat
  gain : Nat
  rows : Nat
  slot : Nat
  thin : Bool
  units : List (List (BitVec 8 × Bool))
  poison : Bool
deriving DecidableEq, Repr

/-- A leaf of the ring: its write stamp, requester, sequence number, and whether it stands written in bulk memory. -/
structure RingLeaf where
  stamp : Nat
  src : Nat
  seq : Nat
  written : Bool
deriving DecidableEq, Repr

/-- A leaf in the staging buffer: where it goes, its place in the ring, its sequence number, requester and bytes. -/
structure Staged where
  addr : Nat
  pos : Nat
  seq : Nat
  src : Nat
  bytes : List (BitVec 8 × Bool)
deriving DecidableEq, Repr

/-- The Vault (R217–R227). `base` and `len` (leaves) are the geometry in effect, `pendGeom` a pending one; `wr` the writer's
position, `fresh` the streams whose next leaf carries no GAP; VSTREAM settings in effect and writes waiting for a slot start
as (DLCLK, CTL, CAP_BLOCKS); forming leaves, one for each slot, and formed ones by requester; the requester granted last; staged leaves
in order; the ring; windows of regions not free; triggers waiting as (source, TAG), the source granted
last, DEVCLK + 1 of each source's last accepted trigger; THINNED; drops of the open period; releases that wait for an
export; channels a word of whose next symbol was found bad on its way into WIT (R291, R293). -/
structure Vault where
  base : Nat
  len : Nat
  pendGeom : Bool
  wr : Nat
  seq : BitVec 64
  fresh : List Nat
  vsEff : Tab (Word × Word)
  vsPend : Tab (List (Nat × Word × Word))
  forming : Tab (List Leaf)
  formed : Tab (List Leaf)
  lastLeaf : Nat
  staged : List Staged
  ring : Tab RingLeaf
  windows : Tab (Nat × Nat)
  trig : List (Nat × Word)
  lastSrc : Nat
  lastTrig : Tab Nat
  thinned : Bool
  periodDrops : Nat
  relWait : List Nat
  upset : List Nat
deriving DecidableEq, Repr

/-- A reception (R231–R233): its peak's sample number and power, what its record will say, the registers latched, the
template, output slot, next symbol, equaliser C and Et with h = C / Et (a pilot is h with Et = 1), header bits, the data
symbols it has (none until known), symbols taken and written, hard bits not yet a byte, whether the slot is full. -/
structure Recep where
  p : Nat
  power : Int
  rho : Nat
  freq : Nat
  stamp : Nat
  tc : Nat
  ctl : Word
  rate : Word
  frame : Word
  outLo : Word
  outHi : Word
  outCfg : Word
  template : Nat
  slot : Nat
  k : Nat
  h : Int × Int
  hd : Nat
  hdr : List Bool
  total : Option Nat
  data : Nat
  written : Nat
  bits : List Bool
  bytes : Nat
  full : Bool
deriving DecidableEq, Repr

/-- A peak search under way (R230): where it opened, and of the best sample so far its number, C, C1, C2, Et, Ex, Tc and the
gain. -/
structure Peak where
  opened : Nat
  p : Nat
  c : Int × Int
  c1 : Int × Int
  c2 : Int × Int
  et : Nat
  ex : Nat
  tc : Nat
  gain : Int
  template : Nat
  len : Nat
deriving DecidableEq, Repr

/-- A Tally detector (R228–R234): channel samples since the last detector sample, those in the filter's span, the NCO phase, the detector samples waiting
with their Tc, those processed (newest first, after the fast AGC), how many have been, gain, the AGC block so far, the search, the
sample before which crossings are ignored, the reception, the next output slot, and records with their outputs not yet acknowledged. -/
structure Tally where
  acc : Nat
  win : List (Int × Int)
  phase : Nat
  queue : List (Nat × Int × Int)
  hist : List (Int × Int)
  n : Nat
  gain : Int
  blkSum : Nat
  blkN : Nat
  search : Option Peak
  blank : Nat
  rx : Option Recep
  nextSlot : Nat
  acks : Nat
deriving DecidableEq, Repr

/-- Witness: the Vault, the detectors, and the 64 shared templates as TPL_LEN by template and samples by
1,024 × template + sample. -/
structure Witness where
  vault : Vault
  tally : Tab Tally
  tplLen : Tab Nat
  tpl : Tab (Int × Int)
deriving DecidableEq, Repr

/-! ## DMA (chapter 12) -/

/-- A response a channel still awaits: the bytes written, and whether they count in PROGRESS of the MOVE at hand (R278). -/
structure DmaOut where
  len : Nat
  current : Bool
deriving DecidableEq, Repr

/-- A DMA channel (R263–R279): pointers, the circular pairs in effect and pending as (CBASE, CLEN), the time target, the loop stack
(count, start), top first; the offset at which the MOVE at PC goes on (none: not begun); writes not yet acknowledged, oldest
first; whether its event wait has been given a flag; the instruction it waits at or is in the middle of. PC, PROGRESS and STATUS have their home in the registers. -/
structure DmaCh where
  ptr : Tab Nat
  circ : Tab (Nat × Nat)
  pend : Tab (Nat × Nat)
  tsec : Nat
  ttc : Nat
  loops : List (Nat × Nat)
  mv : Option Nat
  outs : List DmaOut
  met : Bool
  cur : Option Nat
deriving DecidableEq, Repr

/-- A response other than OK, not yet acted on (R278): channel, access (0 read, 1 write, 2 fetch), address, Mortar status. -/
structure DmaErr where
  ch : Nat
  access : Nat
  addr : Nat
  status : Nat
deriving DecidableEq, Repr

/-- The DMA engines: channels by global index, each engine's prefetched lines oldest first (address, bytes with poison), its
errors not yet acted on, the waiter granted last per event flag, the channel granted last per engine (R276) and per engine that holds data rings (R275), and SEQ by data
ring. -/
structure Dma where
  ch : Tab DmaCh
  lines : Tab (List (Nat × List (BitVec 8 × Bool)))
  errs : Tab (List DmaErr)
  lastWaiter : Tab Nat
  lastIssue : Tab Nat
  lastEntry : Tab Nat
  ringSeq : Tab (BitVec 16)
deriving DecidableEq, Repr

/-! ## Ethernet (chapter 15) -/

/-- A received frame whose descriptors are to be written back (R343, R345): the NI, their
slots with words 2–6, HEAD once they are written, and whether the frame is discarded. -/
structure RxDone where
  ni : Nat
  descs : List (Nat × List Word)
  head : Nat
  discard : Bool
deriving DecidableEq, Repr

/-- A ring's own state (R341, R342): LOG2 in effect, the next descriptor an RX frame takes, frames
to be written back, completions not signalled yet, frames discarded in the open tally period. -/
structure EthRing where
  log2 : Nat
  next : Nat
  done : List RxDone
  unsignalled : Nat
  discards : Nat
deriving DecidableEq, Repr

/-- A frame being sent (R344, R347): its bytes without FCS, whether it holds poison, where it came from (0 the flow engine, 1 + n ring
n), its descriptors' slots with their TS_REQ, HEAD once they are written back, the stamp (2^-16 ns). -/
structure TxFrame where
  bytes : List (BitVec 8)
  poison : Bool
  src : Nat
  slots : List (Nat × Bool)
  head : Nat
  stamp : Nat
deriving DecidableEq, Repr

/-- A message of the flow engine that waits for its MAC (R338): the MAC its entry names, its priority, its bytes. -/
structure FlowMsg where
  mac : Nat
  pcp : Nat
  bytes : List (BitVec 8)
deriving DecidableEq, Repr

/-- A pause state (R348, R349): when it ends and since when it lasts (DEVCLK); none when not paused. A watchdog break's end. -/
structure Pause where
  until_ : Option Nat
  since : Nat
  breakEnd : Option Nat
deriving DecidableEq, Repr

/-- A MAC's own state (R346–R350): the requester granted last, the frame being sent, the last frame put on the wire (with FCS), and
per priority whether the far end is held off and DEVCLK of the last PFC frame. -/
structure MacSt where
  last : Nat
  tx : Option TxFrame
  sent : List (BitVec 8)
  xoff : Tab Nat
deriving DecidableEq, Repr

/-- Ethernet: flow words at 8 × entry + word, counters at 5 × entry + (ON_TIME, EARLY, LATE, CORRUPT, SEQ_ERR), the last accepted
sequence byte + 1 per RX entry, the next one per TX entry, entries that were late in the open tally period; rings by selector;
MACs; pause states at 9 × MAC + state (0–7 priorities, 8 the link); messages waiting; RoE samples gathered per TX entry, with the
number of the first. -/
structure Eth where
  flow : Tab Word
  stats : Tab Word
  seqRx : Tab Nat
  seqTx : Tab Nat
  late : List Nat
  rings : Tab EthRing
  macs : Tab MacSt
  pauses : Tab Pause
  queue : List FlowMsg
  roe : Tab (Nat × List (Int × Int))
deriving DecidableEq, Repr


/-! ## The whole state -/

/-- The state of the block. -/
structure State where
  /-- Commands waiting, first in first out. -/
  pending : List Instr
  /-- Registers by address within CSR space (R17): class × 2^20 + instance × 2^10 + offset. -/
  csr : Tab Word
  /-- Values the CSR hub holds for one requester (R21): selections, held low words and latched high words, at requester × 2^28 + CSR address. -/
  hold : Tab Word
  /-- The word a read last returned to each requester of R21. -/
  returned : Tab Word
  /-- Data bytes of the on-chip memories at their internal addresses (R16) and of bulk channel c at 2^40 + c × 2^37 + channel-local address (R286). -/
  mem : List Host.Cell
  /-- The four Ashlar check bytes of the 16-byte word at address w (R287), at (w / 16) × 4 + k for check byte k. -/
  chk : List Host.Cell
  /-- Host memory as the device's own requests reach it, by bus address (R377). -/
  host : List Host.Cell
  /-- DEVCLK (R26). -/
  devclk : BitVec 64
  /-- The mode controller. -/
  modes : ModeCtl
  /-- The units now fenced. -/
  fences : List Fence
  /-- The event journal's queues. -/
  journal : Journal
  /-- The rings and what Dvorys keeps. -/
  dvorys : Dvorys
  /-- The dispatcher, keystones and slots. -/
  disp : Disp
  /-- The energy ledger. -/
  ledger : Ledger
  /-- The on-chip network. -/
  mortar : Mortar
  /-- Spall table, retirement, scrubbers, evacuation. -/
  memSys : MemSys
  /-- The PCIe endpoint. -/
  pcie : Pcie
  /-- The fault manager. -/
  faults : Faults
  /-- Sampling, collector and trace. -/
  observe : Observe
  /-- Pins, supplies and the power sequencer. -/
  power : Power
  /-- The model's own counter of values the spec leaves open that have been taken; no register of the device. -/
  free : Nat
  /-- Time bases, TCNT, TDD_OUT pins. -/
  time : Time
  /-- Stream channels and FFT engines. -/
  streams : Streams
  /-- Serial lanes and the Ahnent link. -/
  lanes : Lanes
  /-- Sett cores and Course matrix units. -/
  sett : Sett
  /-- Coding engines. -/
  engines : Engines
  /-- Witness: the Vault and Tally. -/
  witness : Witness
  /-- The DMA engines and their channels. -/
  dma : Dma
  /-- Ethernet MACs, flows and rings. -/
  eth : Eth
deriving DecidableEq, Repr

/-- Why a step stops with a fault: no reason is left. The spec gives every command an effect, and where it leaves a value open the
machine goes on with a free one. -/
inductive Fault
deriving DecidableEq, Repr

/-- Why a command has no meaning. -/
inductive Refusal where
  /-- An arm of `exec` whose meaning is not written yet. Safe: the machine stops. -/
  | notModelled (mnemonic : String)
deriving DecidableEq, Repr

def ModeCtl.reset : ModeCtl where
  mode := .raising
  target := none
  returnMode := .service
  cause := 0
  requester := 0
  opId := none
  mendingCause := none
  bankedGated := false
  lastRequester := 9

def Journal.reset : Journal where
  fifo := []
  lost := []
  lastCls := 255
  lastInst := []
  aon := []
  aonLost := 0

/-- Reset values of a ring page (chapter 02, "Ring registers in BAR4"). -/
def RingPage.reset : RingPage where
  sqBase := 0
  cqBase := 0
  enable := false
  sqTreasury := false
  cqTreasury := false
  quiesced := true
  stalledBp := false
  sqHead := 0
  cqTail := 0
  sqTail := 0
  cqHead := 0
  phase := true
  vector := 0
  irqEn := false
  coalCount := 1
  coalTime := 0
  coalSince := 0
  unsignalled := 0
  quiescing := false

/-- A VF's grant table starts empty (R46), a subscription off (R49). -/
def FnState.reset : FnState where
  groups := 0
  classes := 0
  subOn := false
  subSev := 0
  subClasses := 0
  subTag := 0
  undelivered := 0

def Images.reset : Images where
  stage := .empty
  type := 0
  length := 0
  bootSlot := 0

def Dvorys.reset : Dvorys where
  pages := []
  lastRing := 15
  ops := []
  lastOp := 0
  fns := []
  images := .reset
  spi := []
  heldPacket := []

def Keystone.reset : Keystone where
  count := 0
  reload := 0
  fail := false
  underflow := false

def Disp.reset : Disp where
  tasks := []
  postSeq := 0
  dlclk := 0
  slots := []
  held := []
  heldOrder := 0
  lastIndex := []
  cancelResult := []
  keystones := []
  lastPost := 13
  lastFill := 231
  takeSince := []
  dmaWait := []
  dmaRel := []
  deferHead := []
  reports := []

def Account.reset : Account where
  credit := 0
  outstanding := 0
  minted := 0
  drawn := 0
  accrued := 0
  minCredit := 0
  periodDraw := 0
  spreadBase := 0
  overdraftPosted := false
  periodAll := 0
  staticNow := 0
  staticLast := 0

/-- Reset MODE of metering point p (R197). -/
def meterResetMode (p : Nat) : Nat :=
  if p < 32 then 1 else if p < 37 then 0 else 2

def Meter.reset (p : Nat) : Meter where
  energy := 0
  frac := 0
  period := 0
  steps := 0
  meanStep := 0
  modeNow := meterResetMode p
  ownerNow := 0
  lastRaw := 0
  stuck := 0
  newCal := none

def Ledger.reset : Ledger where
  accounts := []
  meters := []
  devCredit := 0
  periodNow := 3
  thriftExhausted := false
  window := []
  hold := false
  late := []
  thriftAsk := none
  counts := []
  stepAt := 0
  periodFrom := 0
  periodEnd := none
  periodLen := 1228800000
  closes := []
  busyAt := []
  unparks := []

def Port.reset : Port where
  fenced := false
  draining := false
  drained := false
  forced := false
  sentFrom := []
  doneFrom := []

def Mortar.reset : Mortar where
  routes := []
  txns := []
  flits := []
  waiting := []
  results := []
  nextTxns := []
  lastInj := []
  hostWait := []
  lastVc := []
  lastIn := []
  replays := []
  training := []
  depth := []
  ports := []
  fc := none
  fcQueue := []
  fcLast := 2
  fencers := []
  forcing := []
  hist := []
  bytes := []
  detours := []

def MemSys.reset : MemSys where
  spall := []
  retired := []
  repairs := []
  scrubAt := []
  scrubHeld := []
  staleWrite := []
  ilvOld := none
  migPtr := 0
  capacity := 0
  evacCh := none

def MsixVec.reset : MsixVec where
  addr := 0
  data := 0
  masked := true
  pending := false

def Pcie.reset : Pcie where
  vecs := []
  alloc := []
  atc := []
  devCtl2 := []
  answers := []
  reply := ⟨0, []⟩
  perstN := true
  training := true

def Faults.reset : Faults where
  recoveries := []
  held := false

def Observe.reset : Observe where
  sampBuf := []
  sampSeq := []
  sampCount := []
  sampGeo := []
  collect := none
  fifo := []
  lost := 0
  lostNow := 0
  sinceSync := 0
  sent := []

def Power.reset : Power where
  bootPins := 0
  resetN := true
  hot := false
  ramping := none
  waitingUp := []
  lastDomain := 77
  ioLow := false
  por := false
  fusing := false
  refGone := false
  skips := []
  gpioPads := 0
  spreadAt := none
  footAt := 0

def TimeBase.reset : TimeBase where
  sec := 0
  ns := 0
  frac := 0
  rem := 0
  integral := 0
  freq := 0
  run := 0
  lastSample := 0
  lastPps := none
  ppsHigh := none
  ppsLast := none

def TddPin.reset : TddPin where
  queue := []
  sched := false
  slot := none

def Time.reset : Time where
  tbs := []
  phase := 0
  tcnt := 0
  pins := []
  quietEnd := 0
  ppsOut := false

def Strm.reset : Strm where
  eff := []
  pend := none
  locked := false
  queued := none
  lockDone := false
  lo := 0
  loNext := none
  loAfter := none
  cur := none
  startAt := 0
  waiting := false
  resume := 0
  bySlot := false
  stopped := false
  gain := 0
  agcOn := false
  agcSum := 0
  agcN := 0
  agcSlots := 0
  phase := 0
  prPhase := 0
  inBuf := []
  tail := []
  tailMiss := []
  headers := []
  satSlot := false
  errSlot := false
  toFft := []
  writing := []
  headed := []
  prach := []
  prFail := []
  readSym := none
  reading := []
  ready := []
  out := []
  outTaken := 0
  runPos := none
  paHold := 0
  fhPlaced := []
  fhOpen := []
  fhClosed := none
  fhFrom := 0
  driftBase := 0
  drift := 0
  cpAdj := 0

def Streams.reset : Streams where
  ch := []
  fft := []
  fftLast := []
  told := []

def AhnLane.reset : AhnLane where
  txSince := 0
  rxSince := 0
  mfnTx := 0
  mfnRx := 0
  good := 0
  bad := 0
  syncRun := 0
  syncHist := 0
  idleWarned := false
  idleIn := none
  words := []
  rxWords := []
  scrTx := 0
  scrRx := 0
  fifo := []
  sentCount := []
  lastSent := []

def Lanes.reset : Lanes where
  ahn := []
  held := []
  recal := []
  fecLost := []
  switchTo := []
  waitingWords := []
  gap := []
  fir := []


def Stage.reset : Stage where
  slot := 0
  writes := []
  load := none
  stores := []
  excs := []
  act := .next
  cmuq := none
  macs := 0
  daddr := 0

def Core.reset : Core where
  v := []
  va := []
  vx := []
  s := []
  a := []
  m := []
  b := []
  l := []
  p := []
  lc := 0
  rot := 0
  ov := 0
  sat := false
  pc := 0
  cobble := false
  task := none
  lastTask := 0
  stage := .reset
  remote := false
  waiting := false
  fenceHold := false
  rep := none
  stores := []
  storeErr := none
  ending := none
  halted := false
  stepping := false
  fetched := none
  ahead := []

def Cmu.reset : Cmu where
  queues := []
  last := 7
  cur := none
  addrErr := []

def Sett.reset : Sett where
  cores := []
  cmus := []


def Engine.reset : Engine where
  job := none
  hung := none
  act := none
  image := none
  loaded := false
  left := none

def Engines.reset : Engines where
  eng := []


/-- The ring base of the Reset column: BASE_HI 0x01. -/
def Vault.reset : Vault where
  base := 0x0100000000
  len := 0
  pendGeom := false
  wr := 0
  seq := 0
  fresh := []
  vsEff := []
  vsPend := []
  forming := []
  formed := []
  lastLeaf := 639
  staged := []
  ring := []
  windows := []
  trig := []
  lastSrc := 34
  lastTrig := []
  thinned := false
  periodDrops := 0
  relWait := []
  upset := []

/-- GAIN_QDB resets to 0x060. -/
def Tally.reset : Tally where
  acc := 0
  win := []
  phase := 0
  queue := []
  hist := []
  n := 0
  gain := 96
  blkSum := 0
  blkN := 0
  search := none
  blank := 0
  rx := none
  nextSlot := 0
  acks := 0

def Witness.reset : Witness where
  vault := .reset
  tally := []
  tplLen := []
  tpl := []

def DmaCh.reset : DmaCh where
  ptr := []
  circ := []
  pend := []
  tsec := 0
  ttc := 0
  loops := []
  mv := none
  outs := []
  met := false
  cur := none

def Dma.reset : Dma where
  ch := []
  lines := []
  errs := []
  lastWaiter := []
  lastIssue := []
  lastEntry := []
  ringSeq := []

/-- LOG2 of a ring resets to 8. -/
def EthRing.reset : EthRing where
  log2 := 8
  next := 0
  done := []
  unsignalled := 0
  discards := 0

def MacSt.reset : MacSt where
  last := 256
  tx := none
  sent := []
  xoff := []

def Pause.reset : Pause where
  until_ := none
  since := 0
  breakEnd := none

def Eth.reset : Eth where
  flow := []
  stats := []
  seqRx := []
  seqTx := []
  late := []
  rings := []
  macs := []
  pauses := []
  queue := []
  roe := []


/-- The machine right after reset: the moment Bedding completes and Raising is entered, when every field of every
register holds its Reset value (R11, R61; SYS.MODE.CODE resets to 2, Raising, R54). Memory lists nothing, the queue is
empty. Values the spec does not give are named in notes/assumptions. -/
def State.reset : State where
  pending := []
  csr := []
  hold := []
  returned := []
  mem := []
  chk := []
  host := []
  devclk := 0
  modes := ModeCtl.reset
  fences := []
  journal := Journal.reset
  dvorys := Dvorys.reset
  disp := Disp.reset
  ledger := Ledger.reset
  mortar := Mortar.reset
  memSys := MemSys.reset
  pcie := Pcie.reset
  faults := Faults.reset
  observe := Observe.reset
  power := Power.reset
  free := 0
  time := Time.reset
  streams := Streams.reset
  lanes := Lanes.reset
  sett := Sett.reset
  engines := Engines.reset
  witness := Witness.reset
  dma := Dma.reset
  eth := Eth.reset

end Sys2Proof.Machine
end

