-- ==== Sys2Proof/Machine/Ops.lean ====
section
/-! DEFINITION. The named operations every meaning is written over: tables, registers, the journal, arbiters, interrupts,
rings, fences and faults. -/
namespace Sys2Proof.Machine

/-! ## Tables -/

/-- What a table lists under a number. -/
def tfind {α : Type} : Tab α → Nat → Option α
  | [], _ => none
  | (j, v) :: r, k => if j = k then some v else tfind r k

/-- What a number holds: its entry, or `d` where none is listed. -/
def tget {α : Type} (d : α) (t : Tab α) (k : Nat) : α := (tfind t k).getD d

/-- A table with one entry set. -/
def tins {α : Type} : Tab α → Nat → α → Tab α
  | [], k, v => [(k, v)]
  | (j, w) :: r, k, v =>
    if j = k then (k, v) :: r else if k < j then (k, v) :: (j, w) :: r else (j, w) :: tins r k v

/-- A table without the entry of one number. -/
def tdel {α : Type} (t : Tab α) (k : Nat) : Tab α := t.filter (fun p => p.1 != k)

/-- A table in which number `k` holds `v`; an entry equal to the default `d` is not listed. -/
def tset {α : Type} [DecidableEq α] (d : α) (t : Tab α) (k : Nat) (v : α) : Tab α :=
  if v = d then tdel t k else tins t k v

/-- The canonical form of a table: numbers strictly rising, no entry equal to the default. -/
abbrev Tab.wf {α : Type} [DecidableEq α] (d : α) (t : Tab α) : Prop :=
  t.Pairwise (fun p q => p.1 < q.1) ∧ ∀ p ∈ t, p.2 ≠ d

/-- The canonical form of memory: an unlisted byte reads as zero (R61, R294). -/
abbrev Memory.wf (m : List Host.Cell) : Prop := Tab.wf (0 : Byte) m

/-! ## Numbers -/

/-- Bits [msb:lsb] of a word as a number. -/
def wordField (w : Word) (msb lsb : Nat) : Nat := (w.toNat / 2 ^ lsb) % 2 ^ (msb + 1 - lsb)

/-- A word with bits [msb:lsb] replaced. -/
def putField (w : Word) (msb lsb v : Nat) : Word :=
  BitVec.ofNat 32 (w.toNat - wordField w msb lsb * 2 ^ lsb + (v % 2 ^ (msb + 1 - lsb)) * 2 ^ lsb)

/-- Bit `k` of a number. -/
def bitOf (n k : Nat) : Bool := n / 2 ^ k % 2 == 1

def b2n (b : Bool) : Nat := if b then 1 else 0

/-- A signed reading of the low `w` bits of a number. -/
def signedOf (w n : Nat) : Int :=
  let m := n % 2 ^ w
  if m < 2 ^ (w - 1) then (m : Int) else (m : Int) - (2 ^ w : Nat)

/-- A number reduced to `w` bits of two's complement. -/
def toBits (w : Nat) (i : Int) : Nat := (i % ((2 ^ w : Nat) : Int)).toNat

/-- A value held within [lo, hi]. -/
def clampInt (lo hi i : Int) : Int := if i < lo then lo else if hi < i then hi else i

/-- A count that saturates at `m`. -/
def satAdd (m a b : Nat) : Nat := min m (a + b)

def allOnes32 : Nat := 0xFFFFFFFF

/-! ## Arbiters (R29) -/

/-- The grant of R29 among `n` requesters: the first that asks, in ascending index order with wrap-around, after the
last granted. -/
def rrPick (n last : Nat) (asks : Nat → Bool) : Option Nat :=
  ((List.range n).map (fun i => (last + 1 + i) % n)).find? asks

/-! ## Registers (R5, R6, R11, R14-R17) -/

/-- Where a register lies in CSR space (R17), less its base. -/
def csrKey (cls inst off : Nat) : Nat := cls * 0x100000 + inst * 0x400 + off

/-- The row of the class table of R14. -/
def classDef (cls : Nat) : Option ClassDef := classTable.find? (fun c => c.cls == cls)

/-- Whether an instance exists (R14). -/
def instPresent (cls inst : Nat) : Bool := match classDef cls with
  | some c => decide (inst < c.count)
  | none => false

/-- Whether a class is marked for group use (R14). -/
def classGroup (cls : Nat) : Bool := match classDef cls with
  | some c => c.group
  | none => false

/-- Whether a register definition covers an offset. -/
def RegDef.covers (r : RegDef) (off : Nat) : Bool :=
  if r.count ≤ 1 then off == r.off
  else decide (r.off ≤ off) && ((off - r.off) % r.stride == 0) && decide ((off - r.off) / r.stride < r.count)

/-- The register at an offset of a class: its own, GRP_MEMBER in a class of group use, or the counter bank (R15). -/
def findReg (cls off : Nat) : Option RegDef :=
  match (classRegs cls).find? (fun r => r.covers off) with
  | some r => some r
  | none =>
    match (if classGroup cls then regsGroup else []).find? (fun r => r.covers off) with
    | some r => some r
    | none => regsCommon.find? (fun r => r.covers off)

/-- Credits of VC_DEPTH at reset: the buffers of R238. -/
def vcDepthReset (plane : Nat) : Nat :=
  if plane = 0 then 0x4444 else if plane = 2 then 0x88 else 0x44

/-- Reset values that depend on the instance or that are given outside the Reset column (R197, R238, R381). -/
def resetSpecial (cls inst off : Nat) : Option Nat :=
  if cls = Reg.METER.cls then
    if off = 0 then some (meterResetMode inst)
    else if off = 0x014 then some (0x3000 + (Config.fuseGain inst).toNat % 0x2001)
    else if off = 0x018 then some (((Config.fuseOffset inst).toNat % 4001 + 63536) % 65536)
    else none
  else if cls = Reg.ROUTER.cls ∧ off = 0x010 then some (vcDepthReset (inst / 64))
  else if cls = Reg.PCIE_FN.cls ∧ off = 0 then
    some (if inst = 0 then 64 * 0x10000 else (64 + 128 * (inst - 1)) + 128 * 0x10000)
  else if cls = Reg.PCIE.cls ∧ 0x044 ≤ off ∧ off < 0x0C0 ∧ off % 8 = 4 then some ((off - 0x044) / 8)
  else none

/-- The Reset value of a register (R11). -/
def resetWord (cls inst off : Nat) : Word :=
  match resetSpecial cls inst off with
  | some n => BitVec.ofNat 32 n
  | none =>
    match findReg cls off with
    | some r => BitVec.ofNat 32 (r.fields.foldl (fun a f => a + f.reset * 2 ^ f.lsb) 0)
    | none => 0

/-- The word a register holds. -/
def State.reg (s : State) (cls inst off : Nat) : Word := tget (resetWord cls inst off) s.csr (csrKey cls inst off)

/-- A register given a word. -/
def State.setReg (s : State) (cls inst off : Nat) (w : Word) : State :=
  { s with csr := tset (resetWord cls inst off) s.csr (csrKey cls inst off) w }

/-- The value of a field, as a number. -/
def State.fld (s : State) (f : Field) (i : Nat) : Nat := wordField (s.reg f.cls i f.off) f.msb f.lsb

/-- A field given a value, taken modulo its width. -/
def State.setFld (s : State) (f : Field) (i v : Nat) : State :=
  s.setReg f.cls i f.off (putField (s.reg f.cls i f.off) f.msb f.lsb v)

/-- Whether a field is not zero. -/
def State.bit (s : State) (f : Field) (i : Nat) : Bool := s.fld f i != 0

/-- A field increased, wrapping. -/
def State.addFld (s : State) (f : Field) (i n : Nat) : State := s.setFld f i (s.fld f i + n)

/-- A field increased, saturating at its width. -/
def State.satFld (s : State) (f : Field) (i n : Nat) : State :=
  s.setFld f i (min (2 ^ (f.msb + 1 - f.lsb) - 1) (s.fld f i + n))

/-- A field raised to at least `n`. -/
def State.maxFld (s : State) (f : Field) (i n : Nat) : State := s.setFld f i (max (s.fld f i) n)

/-- A value of up to 64 bits written to a low and a high register. -/
def State.setPair (s : State) (lo hi : Field) (i n : Nat) : State :=
  (s.setFld lo i (n % 2 ^ 32)).setFld hi i (n / 2 ^ 32)

/-- The value of a low and a high register together. -/
def State.pair (s : State) (lo hi : Field) (i : Nat) : Nat := s.fld lo i + 2 ^ 32 * s.fld hi i

/-- Where the hub holds a value for one requester. -/
def holdKey (req cls inst off : Nat) : Nat := req * 0x10000000 + csrKey cls inst off

/-- A value the hub holds for one requester. -/
def State.heldFor (s : State) (req cls inst off : Nat) : Word := tget 0 s.hold (holdKey req cls inst off)

/-- The hub made to hold a value for one requester. -/
def State.holdFor (s : State) (req cls inst off : Nat) (w : Word) : State :=
  { s with hold := tset 0 s.hold (holdKey req cls inst off) w }

/-- A read's word returned to a requester. -/
def State.giveBack (s : State) (req : Nat) (w : Word) : State := { s with returned := tset 0 s.returned req w }

/-- The next value the spec leaves open, of `w` bits, and the state that has taken it. -/
def State.takeFree (s : State) (w : Nat) : Nat × State :=
  (Config.freeBits s.free w % 2 ^ w, { s with free := s.free + 1 })

/-! ## Modes (R54, R64) -/

/-- Mode codes of R54. -/
def Mode.code : Mode → Nat
  | .footing => 0 | .bedding => 1 | .raising => 2 | .service => 3
  | .witness => 4 | .thrift => 5 | .mending => 6 | .banked => 7

def Mode.ofCode : Nat → Option Mode
  | 0 => some .footing | 1 => some .bedding | 2 => some .raising | 3 => some .service
  | 4 => some .witness | 5 => some .thrift | 6 => some .mending | 7 => some .banked
  | _ => none

/-- The modes whose behaviour is in force: Mending carries on its return mode's (R64). -/
def State.actsAs (s : State) : Mode :=
  if s.modes.mode = .mending then s.modes.returnMode else s.modes.mode

/-! ## Power and fences (R20, R413, R414) -/

/-- The CODE domain of a coding engine (R142): LDPC_DEC 2d and 2d + 1, LDPC_ENC d and HARQ d lie in CODE[d], POLAR k in
CODE[k], TURBO k in CODE[4 + k]. -/
def codeDomain (cls inst : Nat) : Nat :=
  if cls = 0x18 then inst / 2 else if cls = 0x1B then 4 + inst else inst

/-- The power domain of an instance (R413), where it lies in one that can leave the on state. -/
def domainOf (cls inst : Nat) : Option Nat :=
  if cls = 0x10 ∨ cls = 0x12 then some (4 + inst)
  else if cls = 0x11 then some (4 + inst / 8)
  else if 0x18 ≤ cls ∧ cls ≤ 0x1C then some (28 + codeDomain cls inst)
  else if cls = 0x0A then some (36 + inst / 4)
  else if cls = 0x0B then some (36 + inst)
  else if cls = 0x08 ∨ cls = 0x09 then some (36 + inst / 64)
  else if cls = 0x30 ∨ cls = 0x31 ∨ cls = 0x32 then some 44
  else if cls = 0x49 then some (45 + inst)
  else if cls = 0x50 ∨ cls = 0x52 then some (49 + inst)
  else if cls = 0x51 then some (49 + inst / 4)
  else if cls = 0x58 ∨ cls = 0x61 then some (49 + inst / 2)
  else if cls = 0x68 ∨ cls = 0x69 then some 61
  else if cls = 0x48 then some (62 + inst)
  else none

/-- PWR.STATUS.STATE of a domain: 0 off, 1 ramping, 2 filling, 3 on, 4 parked, 5 retention, 6 draining, 7 powering
down. -/
def State.domState (s : State) (d : Nat) : Nat := s.fld Reg.PWR.STATUS_STATE d

/-- Whether an instance's power domain counts as powered (R20): not off, ramping or powering down. -/
def State.powered (s : State) (cls inst : Nat) : Bool :=
  match domainOf cls inst with
  | none => true
  | some d => let st := s.domState d; st != 0 && st != 1 && st != 7

/-- Whether the fence of one unit covers an instance: a Course's cores and CMU, a quad's lanes and Ahnent port, and the
unit itself. -/
def Fence.hits (f : Fence) (cls inst : Nat) : Bool :=
  (f.cls == cls && f.inst == inst) ||
  (f.cls == 0x10 && ((cls == 0x11 && inst / 8 == f.inst) || (cls == 0x12 && inst == f.inst))) ||
  (f.cls == 0x50 && ((cls == 0x51 && inst / 4 == f.inst) || (cls == 0x52 && inst == f.inst))) ||
  (f.cls == 0x58 && cls == 0x61 && inst == f.inst)

/-- Whether an instance is fenced: a commanded fence that still waits for running work lets its unit go on (R396). -/
def State.fencedUnit (s : State) (cls inst : Nat) : Bool := s.fences.any (fun f => f.phase != .waiting && f.hits cls inst)

/-- Whether an instance runs: powered, not fenced, its domain neither parked nor at retention. -/
def State.running (s : State) (cls inst : Nat) : Bool :=
  s.powered cls inst && !s.fencedUnit cls inst &&
  match domainOf cls inst with
  | none => true
  | some d => s.domState d != 4 && s.domState d != 5

/-! ## Counter banks (R401, R402) -/

/-- Whether the counters of an instance count: not while its domain is off, parked or banked (R401). -/
def State.countsNow (s : State) (cls inst : Nat) : Bool :=
  match domainOf cls inst with
  | some d => s.domState d != 0 && s.domState d != 4 && s.domState d != 5
  | none => true

/-- Adds `n` occurrences of an event to every counter of an instance that selects it. -/
def State.countEvent (s : State) (cls inst ev n : Nat) : State :=
  if !s.countsNow cls inst then s else
  (List.range 8).foldl (fun s k =>
    let sel := s.reg cls inst (0x380 + 4 * k)
    if wordField sel 9 0 = ev ∧ wordField sel 16 16 = 1 ∧ wordField (s.reg cls inst 0x3A0) 8 8 = 0 ∧ ev ≠ 0 then
      let v := (s.reg cls inst (0x3C0 + 8 * k)).toNat + 2 ^ 32 * (s.reg cls inst (0x3C4 + 8 * k)).toNat + n
      let s := (s.setReg cls inst (0x3C0 + 8 * k) (BitVec.ofNat 32 (v % 2 ^ 32))).setReg cls inst (0x3C4 + 8 * k)
        (BitVec.ofNat 32 (v % 2 ^ 48 / 2 ^ 32))
      if v < 2 ^ 48 then s
      else
        let o := s.reg cls inst 0x3A4
        s.setReg cls inst 0x3A4 (o ||| BitVec.ofNat 32 (2 ^ k))
    else s) s

/-- Events that count clock cycles (R402). The phase of the spread that paces the clocks is open (R410). -/
def cycleEvent (cls ev : Nat) : Bool :=
  ev == 1 || (cls == 0x10 && ev == 0x10) || (cls == 0x11 && (ev == 0x12 || ev == 0x14 || ev == 0x15)) ||
  (decide (0x18 ≤ cls) && decide (cls ≤ 0x1C) && ev == 0x11) || (cls == 0x21 && ev == 0x13) ||
  (cls == 0x38 && (ev == 0x11 || ev == 0x12))

/-- A value of a register of an instance that the spec leaves open at the read. -/
def State.openAt (s : State) (cls inst off : Nat) : Nat := Config.freeBits s.free (2 ^ 40 * s.devclk.toNat + csrKey cls inst off)

/-- What counter k of an instance holds (R401): a count of cycles is a free value. -/
def State.counter (s : State) (cls inst k : Nat) : Nat :=
  if cycleEvent cls (wordField (s.reg cls inst (0x380 + 4 * k)) 9 0) then s.openAt cls inst (0x3C0 + 8 * k) % 2 ^ 48
  else (s.reg cls inst (0x3C0 + 8 * k)).toNat + 2 ^ 32 * ((s.reg cls inst (0x3C4 + 8 * k)).toNat % 2 ^ 16)

/-! ## The journal (R26-R30, R439) -/

/-- A class counts an event that was not written (R439). -/
def State.countLost (s : State) (cls inst : Nat) : State :=
  let l := tset 0 s.journal.lost cls (satAdd allOnes32 (tget 0 s.journal.lost cls) 1)
  ({ s with journal := { s.journal with lost := l } }).countEvent cls inst 6 1

/-- A unit posts an event: into its class's 4-entry FIFO; counted when the FIFO is full or JOURNAL.CTL.ENABLE is 0
(R439); in Banked held in the AON buffer for SYS, CLK and PWR and counted for every other class (R30). -/
def State.post (s : State) (cls inst event sev detail : Nat) : State :=
  let e : JEvent := ⟨cls, inst, event, sev, BitVec.ofNat 32 detail⟩
  if s.modes.mode = .banked then
    if cls = 0 ∨ cls = 2 ∨ cls = 3 then
      if s.journal.aon.length < 16 then
        { s with journal := { s.journal with aon := s.journal.aon ++ [(e, s.devclk)] } }
      else { s with journal := { s.journal with aonLost := satAdd allOnes32 s.journal.aonLost 1 } }
    else s.countLost cls inst
  else
    let q := tget [] s.journal.fifo cls
    if s.fld Reg.JOURNAL.CTL_ENABLE 0 = 1 ∧ q.length < 4 then
      ({ s with journal := { s.journal with fifo := tset [] s.journal.fifo cls (q ++ [e]) } }).countEvent cls inst 5 1
    else s.countLost cls inst

/-! ## Interrupts (R381) -/

/-- The allocation of vectors in effect for a function: MSIX_BASE and MSIX_COUNT. -/
def State.msixAlloc (s : State) (fn : Nat) : Nat × Nat :=
  tget (s.fld Reg.PCIE_FN.MSIX_MSIX_BASE fn, s.fld Reg.PCIE_FN.MSIX_MSIX_COUNT fn) s.pcie.alloc fn

/-- MSIX_COUNT as it acts: 0 as 1, above 2,048 as 2,048. -/
def msixCount (n : Nat) : Nat := if n = 0 then 1 else min n 2048

/-- The physical vector that vector `v` of a function names. -/
def State.physVector (s : State) (fn v : Nat) : Nat :=
  let (b, n) := s.msixAlloc fn
  (b + v % msixCount n) % 2048

/-- Raises vector `v` of a function: its pending bit is set, and MSIX_SEND sends the message once it can be sent; a raise
in FLR is discarded. -/
def State.raise (s : State) (fn v : Nat) : State :=
  if s.bit Reg.PCIE_FN.STATUS_FLR_BUSY fn then s
  else
    let p := s.physVector fn v
    let x := tget MsixVec.reset s.pcie.vecs p
    { s with pcie := { s.pcie with vecs := tset MsixVec.reset s.pcie.vecs p { x with pending := true } } }

/-- Whether a request on behalf of a function can be sent to the host (R375, R376). -/
def State.hostUp (s : State) (fn : Nat) : Bool :=
  s.bit Reg.PCIE.STATUS_LINK_UP 0 && s.bit Reg.PCIE_FN.STATUS_BME fn && !s.bit Reg.PCIE_FN.STATUS_FLR_BUSY fn

/-! ## Bytes -/

/-- The byte an address holds; an unlisted one reads as zero (R61, R294). -/
def mread (m : List Host.Cell) (a : Nat) : Byte := tget 0 m a

def mwrite (m : List Host.Cell) (a : Nat) (b : Byte) : List Host.Cell := tset 0 m a b

def mreads (m : List Host.Cell) (a n : Nat) : List Byte := (List.range n).map (fun i => mread m (a + i))

/-- Bytes written at rising addresses. -/
def mwrites (m : List Host.Cell) (a : Nat) : List Byte → List Host.Cell
  | [] => m
  | b :: r => mwrites (mwrite m a b) (a + 1) r

/-- Little-endian (R4): the number some bytes spell, and the bytes of a number. -/
def leNat : List Byte → Nat
  | [] => 0
  | b :: r => b.toNat + 256 * leNat r

def leBytes : Nat → Nat → List Byte
  | 0, _ => []
  | n + 1, v => BitVec.ofNat 8 v :: leBytes n (v / 256)

def wordsToBytes (ws : List Word) : List Byte := ws.flatMap (fun w => leBytes 4 w.toNat)

/-! ## Completion rings (R34, R37, R381) -/

/-- A function's ring page. -/
def State.page (s : State) (fn : Nat) : RingPage := tget RingPage.reset s.dvorys.pages fn

def State.setPage (s : State) (fn : Nat) (p : RingPage) : State :=
  { s with dvorys := { s.dvorys with pages := tset RingPage.reset s.dvorys.pages fn p } }

def State.fnState (s : State) (fn : Nat) : FnState := tget FnState.reset s.dvorys.fns fn

def State.setFnState (s : State) (fn : Nat) (f : FnState) : State :=
  { s with dvorys := { s.dvorys with fns := tset FnState.reset s.dvorys.fns fn f } }

/-- Events still owed on a ring: E of R35. -/
def State.eventsOwed (s : State) (fn : Nat) : Nat :=
  (s.dvorys.ops.filter (fun o => o.fn == fn && !o.mute)).length

/-- Free slots of a completion ring (R34). DEDUCED: CQ_TAIL = CQ_HEAD leaves all 4,095 usable slots free, so one slot of the 4,096
always stays unused and the count is (head - tail - 1) mod 4,096 (log entry 32). -/
def RingPage.cqFree (p : RingPage) : Nat := (p.cqHead.toNat + 4095 - p.cqTail.toNat + 4096) % 4096

/-- Where a ring stands (R31): a Treasury ring takes base bits [25:18], a host ring takes bits [11:0] as zero. -/
def ringBase (base : BitVec 64) (treasury : Bool) : Nat :=
  if treasury then 2 ^ 18 * (base.toNat / 2 ^ 18 % 2 ^ 8) else 2 ^ 12 * (base.toNat / 2 ^ 12)

/-! ## The Ashlar code (R287, R291) -/

/-- Multiplication by α in GF(2^8) with x^8 + x^4 + x^3 + x^2 + 1. -/
def gfX (a : Nat) : Nat := if a < 128 then 2 * a else (2 * a) ^^^ 0x11D

def gfXn : Nat → Nat → Nat
  | 0, a => a
  | n + 1, a => gfXn n (gfX a)

/-- Product in GF(2^8), over the low eight bits of `b`. -/
def gfMul (a b : Nat) : Nat :=
  (List.range 8).foldl (fun r k => if bitOf b k then r ^^^ gfXn k a else r) 0

/-- c(1) and c(α) of a list of symbols, highest power first. -/
def syndromes (sym : List Nat) : Nat × Nat :=
  (sym.foldl (· ^^^ ·) 0, sym.foldl (fun a x => gfX a ^^^ x) 0)

/-- The two check symbols of eight data symbols (R287): 0xF4 is the inverse of α + 1. -/
def checkSymbols (d : List Nat) : Nat × Nat :=
  let (a, b) := syndromes (d ++ [0, 0])
  let s8 := gfMul (a ^^^ b) 0xF4
  (s8, a ^^^ s8)

/-- Symbol `j` (0 low byte, 1 high byte) of every data column. -/
def dataSymbols (bytes : List Byte) (j : Nat) : List Nat :=
  (List.range 8).map (fun i => (bytes.getD (2 * i + j) 0).toNat)

/-- The four check bytes of a 16-byte word; poison adds 0x0303_0101 (R291). -/
def checkBytes (bytes : List Byte) (poison : Bool) : List Byte :=
  let (a8, a9) := checkSymbols (dataSymbols bytes 0)
  let (b8, b9) := checkSymbols (dataSymbols bytes 1)
  let x := if poison then 1 else 0
  let y := if poison then 3 else 0
  [BitVec.ofNat 8 (a8 ^^^ x), BitVec.ofNat 8 (b8 ^^^ x), BitVec.ofNat 8 (a9 ^^^ y), BitVec.ofNat 8 (b9 ^^^ y)]

/-- The 16 data bytes of the word at a 16-byte aligned number. -/
def State.wordAt (s : State) (k : Nat) : List Byte := mreads s.mem k 16

def State.checkAt (s : State) (k : Nat) : List Byte := mreads s.chk (k / 4) 4

/-- A whole word stored with its check bits; `poison` stores it poisoned. -/
def State.storeWord (s : State) (k : Nat) (bytes : List Byte) (poison : Bool) : State :=
  let bytes := (List.range 16).map (fun i => bytes.getD i 0)
  { s with mem := mwrites s.mem k bytes, chk := mwrites s.chk (k / 4) (checkBytes bytes poison) }

end Sys2Proof.Machine
end

