-- ==== Sys2Proof/Machine/RingOps.lean ====
section
/-! DEFINITION. What Dvorys writes into completion rings (R34, R35, R37, R42, R49) and the operation table of
long-running packets (R42, R50). -/
namespace Sys2Proof.Machine

/-- Status codes of R37. -/
inductive Status
  | ok | accepted | badOpcode | badTarget | badLength | denied | busy | fenced | unitFault | poisoned
  | imageRejected | decodeError | modeForbids | aborted
deriving DecidableEq, Repr

def Status.code : Status → Nat
  | .ok => 0x0000 | .accepted => 0x0001 | .badOpcode => 0x0010 | .badTarget => 0x0011 | .badLength => 0x0012
  | .denied => 0x0013 | .busy => 0x0020 | .fenced => 0x0021 | .unitFault => 0x0030 | .poisoned => 0x0031
  | .imageRejected => 0x0032 | .decodeError => 0x0033 | .modeForbids => 0x0040 | .aborted => 0x0050

/-- Whether a ring stands in memory Dvorys can reach: Treasury, or the host while requests can be sent (R376). -/
def State.ringUp (s : State) (fn : Nat) (treasury : Bool) : Bool := treasury || s.hostUp fn

/-- Four 16-byte words stored with their check bits. -/
def State.storeSlot (s : State) (a : Nat) (bytes : List Byte) : State :=
  (List.range 4).foldl (fun s k => s.storeWord (a + 16 * k) ((bytes.drop (16 * k)).take 16) false) s

/-- One 64-byte slot written at CQ_TAIL, with PHASE in bit 31 of its first word; CQ_TAIL advances, and PHASE inverts
on the wrap (R34, R37). A slot for a host ring that cannot be reached is not written (R376). -/
def State.cqSlot (s : State) (fn : Nat) (w0 : Nat) (rest : List Word) : State :=
  let p := s.page fn
  let first : Word := BitVec.ofNat 32 (w0 % 2 ^ 31 + 2 ^ 31 * b2n p.phase)
  let words := (List.range 16).map (fun i => if i = 0 then first else rest.getD (i - 1) 0)
  let a := ringBase p.cqBase p.cqTreasury + 64 * p.cqTail.toNat
  let s := if p.cqTreasury then s.storeSlot a (wordsToBytes words)
    else if s.hostUp fn then { s with host := mwrites s.host a (wordsToBytes words) }
    else s
  s.setPage fn { p with cqTail := p.cqTail + 1, phase := if p.cqTail = 4095 then !p.phase else p.phase }

/-- The ring's interrupt after a completion: at once for INTERRUPT, else when COAL_COUNT completions are unsignalled
(0 acts as 1); IRQ_EN gates both. -/
def State.signalRing (s : State) (fn : Nat) (now : Bool) : State :=
  let p := s.page fn
  let n := p.unsignalled + 1
  if p.irqEn && (now || decide (max 1 p.coalCount.toNat ≤ n)) then
    (s.setPage fn { p with unsignalled := 0 }).raise fn p.vector.toNat
  else s.setPage fn { p with unsignalled := n, coalSince := if n = 1 then s.devclk.toNat else p.coalSince }

/-- A reply, event or notification (R37): STATUS, flags, TAG, SEQUENCE with SQ_HEAD, DETAIL, results. -/
def State.answer (s : State) (fn : Nat) (flags : Nat) (st : Status) (tag : Word) (seq : BitVec 16) (head : BitVec 12) (detail : Nat)
    (results : List Word) (intr : Bool) : State :=
  let w2 : Word := BitVec.ofNat 32 (seq.toNat + 2 ^ 16 * head.toNat)
  let s := s.cqSlot fn (st.code + 2 ^ 16 * (min 12 results.length) + 2 ^ 20 * flags)
    (tag :: w2 :: BitVec.ofNat 32 detail :: results.take 12)
  s.signalRing fn intr

/-- A notification (R49): delivered when the ring has at least 3 + E free slots, else counted and dropped. DESIGN CHOICE: it answers
no packet, so its SEQUENCE is 0 and its SQ_HEAD the ring's as it stands (log entry 21). -/
def State.notify (s : State) (fn : Nat) (entry : List Word) : State :=
  let f := s.fnState fn
  let p := s.page fn
  if p.enable ∧ 3 + s.eventsOwed fn ≤ p.cqFree then
    let s := s.answer fn 2 .ok f.subTag 0 p.sqHead f.undelivered entry false
    s.setFnState fn { s.fnState fn with undelivered := 0 }
  else s.setFnState fn { f with undelivered := f.undelivered + 1 }

/-! ## Long-running operations -/

def State.findOp (s : State) (op : BitVec 16) (k : LrKind) : Option LrOp :=
  s.dvorys.ops.find? (fun o => o.opId == op && o.kind == k)

def State.dropOp (s : State) (op : BitVec 16) : State :=
  { s with dvorys := { s.dvorys with ops := s.dvorys.ops.filter (fun o => o.opId != op) } }

/-- An operation's entry replaced. -/
def State.setOp (s : State) (o : LrOp) : State :=
  let l := s.dvorys.ops.map (fun x => if x.opId = o.opId then o else x)
  { s with dvorys := { s.dvorys with ops := l } }

/-- An operation ends: its event goes to the ring of its packet (R42), unless an FLR took the ring away (R36). -/
def State.endOp (s : State) (o : LrOp) (st : Status) (detail : Nat) (results : List Word) : State :=
  let s := s.dropOp o.opId
  if o.mute then s else s.answer o.fn 1 st o.tag o.seq o.head detail results o.intr

/-- The next OP_ID: unique among operations in progress (R42). -/
def State.nextOpId (s : State) : BitVec 16 :=
  let c := (List.range 257).map (fun i => s.dvorys.lastOp + BitVec.ofNat 16 (i + 1))
  (c.find? (fun x => !s.dvorys.ops.any (fun o => o.opId == x))).getD (s.dvorys.lastOp + 1)

/-- RESULT1 of ACCEPTED: advisory, never 0 and never above the operation's stated bound (R42). -/
def estimateUs (bound opcode n : Nat) : Nat := 1 + Config.estimate opcode n % (max 1 bound)

end Sys2Proof.Machine
end

