-- ==== Sys2Proof/Machine/FaultOps.lean ====
section
/-! DEFINITION. The fault manager's record of faults and recoveries (R387, R388, R394, R399), the stretch level (R212),
fences and their share in the mode (R59, R64, R395), and the fence controller's queue (R254). -/
namespace Sys2Proof.Machine

/-- The stretch level changed and journalled (R212). -/
def State.setLevel (s : State) (n : Nat) : State :=
  if s.fld Reg.LEDGER.STATUS_LEVEL 0 = n then s
  else (s.setFld Reg.LEDGER.STATUS_LEVEL 0 n).post 0x28 0 0x001 1 n

/-- FAULT_STATUS and the ledger's hold follow the recoveries in progress (R212, R387). -/
def State.syncRecoveries (s : State) : State :=
  let n := s.faults.recoveries.length
  let s := (s.setFld Reg.SYS.FAULT_STATUS_RECOVERING 0 (min 1 n)).setFld Reg.SYS.FAULT_STATUS_IN_PROGRESS 0 (min 15 n)
  { s with ledger := { s.ledger with hold := decide (0 < n) } }

/-- Severity of SYS event FAULT (R399). -/
def faultSeverity (code : Nat) : Nat := if [2, 3, 4, 5, 6, 8, 10, 12, 13].contains code then 3 else 1

/-- A recovery's end: DURATION and MAX, RECOVERED, or in its place OVER_BOUND past 40 µs, 4,000 DEVCLK counts (R388, R399; DEDUCED, log
entry 85). -/
def State.recovered (s : State) (r : Recovery) : State :=
  let dur := min allOnes32 (s.devclk.toNat - r.since)
  let s := { s with faults := { s.faults with recoveries := s.faults.recoveries.erase r } }
  let s := (s.setFld Reg.SYS.FAULT_DURATION_DURATION 0 dur).maxFld Reg.SYS.FAULT_MAX_MAX 0 dur
  let d := r.code + (min (2 ^ 27 - 1) dur) * 2 ^ 5
  let s := if dur ≤ 4000 then s.post 0 0 0x011 0 d
    else (s.satFld Reg.SYS.FAULT_STATUS_OVER_BOUND 0 1).post 0 0 0x012 3 d
  s.syncRecoveries

/-- Whether two faults concern one unit, or for a link fault one Mortar plane (R394). -/
def sameUnit (r : Recovery) (code cls inst : Nat) : Bool :=
  (r.cls == cls && r.inst == inst) || (code == 5 && r.code == 5 && r.inst / 64 == inst / 64)

/-- The fault manager receives a fault (R387): counts it, records and journals it, drops the stretch level (R212), counts
it under code 13 too when it meets a running recovery of its unit (R394), and, for the codes whose recovery is not at
once, opens a recovery. PCIE_ERROR has none (R388). -/
def State.reportFault (s : State) (code cls inst : Nat) (alsoDouble : Bool := false) : State :=
  let dbl := alsoDouble || s.faults.recoveries.any (fun r => sameUnit r code cls inst)
  let s := s.addFld (Reg.SYS.FAULT_COUNT_COUNT code) 0 1
  let s := if dbl then s.addFld (Reg.SYS.FAULT_COUNT_COUNT 13) 0 1 else s
  let s := ((s.setFld Reg.SYS.FAULT_LAST_CODE 0 code).setFld Reg.SYS.FAULT_LAST_CLASS 0 cls).setFld
    Reg.SYS.FAULT_LAST_SELECTOR 0 inst
  let s := s.setPair Reg.SYS.FAULT_DETECT_LO_DETECT Reg.SYS.FAULT_DETECT_HI_DETECT 0 s.devclk.toNat
  let s := s.post 0 0 0x010 (faultSeverity code) (code + cls * 2 ^ 5 + 2 ^ 13 * inst)
  let s := if dbl then s.post 0 0 0x013 3 code else s
  if code = 7 then s
  else
    let s := s.setLevel 0
    let r : Recovery := ⟨code, cls, inst, s.devclk.toNat⟩
    let s := ({ s with faults := { s.faults with recoveries := r :: s.faults.recoveries } }).syncRecoveries
    if [0, 1, 8, 9, 11].contains code then s.recovered r else s

/-- An error reported through AER by the endpoint: its event and the PCIe-error fault (R386, R387). -/
def State.aer (s : State) (bit : Nat) : State := (s.post 0x68 0 0x003 2 bit).reportFault 7 0x68 0

/-- Ends the open recovery of a unit, where there is one. -/
def State.endRecovery (s : State) (code cls inst : Nat) : State :=
  match s.faults.recoveries.find? (fun r => r.code == code && r.cls == cls && r.inst == inst) with
  | some r => s.recovered r
  | none => s

/-! ## Fences and Mending (R59, R64, R389-R397) -/

/-- The domain a fenced unit owns (R413, R414): a Course, bank, channel or quad its own, an engine's CODE domain. -/
def fenceDomain (cls inst : Nat) : Option Nat :=
  if cls = 0x10 ∨ cls = 0x48 ∨ cls = 0x49 ∨ cls = 0x50 ∨ (0x18 ≤ cls ∧ cls ≤ 0x1C) then domainOf cls inst else none

/-- Whether every engine of CODE domain `d` is fenced (R171, R414). -/
def State.codeAllFenced (s : State) (d : Nat) : Bool :=
  (List.range 2).all (fun k => s.fencedUnit 0x18 (2 * d + k)) && s.fencedUnit 0x19 d && s.fencedUnit 0x1C d &&
  (if d < 4 then s.fencedUnit 0x1A d else s.fencedUnit 0x1B (d - 4))

/-- Whether a domain's unit is fenced as PWR.STATUS.FENCED shows it. -/
def State.domainFenced (s : State) (d : Nat) : Bool :=
  if 28 ≤ d ∧ d < 36 then s.codeAllFenced (d - 28)
  else s.fences.any (fun f => f.phase != .waiting && fenceDomain f.cls f.inst == some d)

/-- MENDING_CAUSE.FENCED_COUNT and the FENCED bits follow the fences. -/
def State.syncFences (s : State) : State :=
  let s := s.setFld Reg.SYS.MENDING_CAUSE_FENCED_COUNT 0 s.fences.length
  (List.range 78).foldl (fun s d =>
    let b := b2n (s.domainFenced d)
    if s.fld Reg.PWR.STATUS_FENCED d = b then s else s.setFld Reg.PWR.STATUS_FENCED d b) s

/-- A unit fenced: recorded with its origin; a fault that meets a fence already there becomes its cause (R397). -/
def State.addFence (s : State) (cls inst : Nat) (o : FenceOrigin) (ph : FencePhase) : State :=
  let old := s.fences.find? (fun f => f.cls == cls && f.inst == inst)
  let f : Fence := match old with
    | some f => { f with origin := if o = .auto then .auto else f.origin }
    | none => ⟨cls, inst, o, ph, false, false, s.devclk.toNat⟩
  let s := { s with fences := f :: s.fences.filter (fun g => !(g.cls == cls && g.inst == inst)) }
  let s := ((s.setFld Reg.SYS.MENDING_CAUSE_LAST_CLASS 0 cls).setFld Reg.SYS.MENDING_CAUSE_LAST_SELECTOR 0 inst).setFld
    Reg.SYS.MENDING_CAUSE_AUTO 0 (b2n (o != .command))
  s.syncFences

def State.fenceOf (s : State) (cls inst : Nat) : Option Fence :=
  s.fences.find? (fun f => f.cls == cls && f.inst == inst)

def State.setFence (s : State) (f : Fence) : State :=
  let l := s.fences.map (fun g => if g.cls = f.cls ∧ g.inst = f.inst then f else g)
  ({ s with fences := l }).syncFences

/-- A decision of the mode controller recorded in MODE_RESULT: result 1 done, 2 refused, 3 in progress. -/
def State.modeDecision (s : State) (result requester target : Nat) : State :=
  (((s.setFld Reg.SYS.MODE_RESULT_RESULT 0 result).setFld Reg.SYS.MODE_RESULT_REQUESTER 0 requester).setFld
    Reg.SYS.MODE_RESULT_TARGET 0 target).addFld Reg.SYS.MODE_RESULT_DECISIONS 0 1

/-- The device enters Mending from the mode it is in (R64). -/
def State.toMending (s : State) (cause : Nat) : State :=
  let m := { s.modes with mode := .mending, returnMode := s.modes.mode, target := none, cause := cause, opId := none,
                          mendingCause := none, bankedGated := false }
  { s with modes := m }

/-- A request for Banked whose transition is abandoned (R59): MODE_RESULT shows it refused, and a MODE_SET gets its event. -/
def State.refuseBanked (s : State) (op : Option (BitVec 16)) : State :=
  let s := if s.fld Reg.SYS.MODE_RESULT_RESULT 0 = 3 then s.setFld Reg.SYS.MODE_RESULT_RESULT 0 2 else s
  match op.bind (fun i => s.findOp i .modeSet) with
  | some o => s.endOp o .modeForbids 6 []
  | none => s

/-- Stream channels stopped on the way into a Banked that is abandoned start again as after one (R66): at the first slot start 64
SAMP cycles on. DEDUCED (log entry 33). -/
def State.unbank (s : State) : State :=
  let f (x : Strm) : Strm := if x.waiting && x.bySlot then { x with resume := s.disp.dlclk + 256 } else x
  { s with streams := { s.streams with ch := s.streams.ch.map (fun e => (e.1, f e.2)) } }

/-- The move to Mending that a fence asks for (R59, R64): at once from Service, Witness or Thrift; after a transition in
progress, one out of Banked too, except one into Banked, which is abandoned and its requester refused; none in Raising, Banked or
Mending, nor once the fault manager is held (R394). DESIGN CHOICE: MODE_RESULT tells the decisions on requests for a mode, and a move
to Mending, whichever index of R58 asks for it, leaves it as it stands (log entry 33). -/
def State.askMending (s : State) (cause : Nat) : State :=
  if s.faults.held then s
  else match s.modes.mode with
  | .service | .witness | .thrift =>
    match s.modes.target with
    | none => s.toMending cause
    | some .banked =>
      if s.domState 44 = 5 then { s with modes := { s.modes with mendingCause := some cause } }
      else ((s.toMending cause).unbank).refuseBanked s.modes.opId
    | some _ => { s with modes := { s.modes with mendingCause := some cause } }
  | .raising | .banked =>
    match s.modes.target with
    | some _ => { s with modes := { s.modes with mendingCause := some cause } }
    | none => s
  | _ => s

/-- The last fence gone, the device returns to RETURN_MODE at once (R64, R56). -/
def State.checkReturn (s : State) : State :=
  if s.modes.mode = .mending ∧ s.fences.isEmpty ∧ !s.faults.held then
    let m := { s.modes with mode := s.modes.returnMode, cause := 6 }
    let s := { s with modes := m }
    if s.modes.mode = .service ∨ s.modes.mode = .witness then
      (s.setFld Reg.DVORYS.BAR0_CTL_OPEN 0 0).setFld Reg.DVORYS.BAR0_CTL_OPEN 1 0
    else s
  else s

/-- A unit's fence lifted. -/
def State.liftFence (s : State) (cls inst : Nat) : State :=
  (({ s with fences := s.fences.filter (fun g => !(g.cls == cls && g.inst == inst)) }).syncFences).checkReturn

/-! ## The fence controller (R254-R257) -/

/-- The destination ID of a unit's port (R239), for units Mortar fences. -/
def unitDest (cls inst : Nat) : Option Nat :=
  if cls = 0x10 then some (inst * 4)
  else if cls = 0x48 then some ((32 + inst) * 4)
  else if cls = 0x49 then some ((52 + inst) * 4)
  else none

def State.port (s : State) (d : Nat) : Port := tget Port.reset s.mortar.ports d

def State.setPort (s : State) (d : Nat) (p : Port) : State :=
  { s with mortar := { s.mortar with ports := tset Port.reset s.mortar.ports d p } }

end Sys2Proof.Machine
end

