-- ==== Sys2Proof/Machine/MeshOps.lean ====
section
/-! DEFINITION. Mortar's routes, links and flits: what MemOps and the units ask of the network (R238-R246, R252-R259). -/
namespace Sys2Proof.Machine

/-! ## Routes (R245, R250) -/

/-- The XY route from one NI to another: E or W hops first, then N or S (R239, R245). -/
def xyHops (ni dst : Nat) : List Nat :=
  let x := ni % 8; let y := ni / 8; let x' := dst % 8; let y' := dst / 8
  List.replicate (x' - x) 1 ++ List.replicate (x - x') 3 ++ List.replicate (y' - y) 2 ++ List.replicate (y - y') 0

def packHops : List Nat → Nat
  | [] => 0
  | h :: r => h % 4 + 4 * packHops r

def unpackHops : Nat → Nat → List Nat
  | 0, _ => []
  | n + 1, r => r % 4 :: unpackHops n (r / 4)

/-- A route that takes the XY way, as both banks hold after Bedding. -/
def resetRoute (ni entry : Nat) : Route :=
  let h := xyHops ni (entry % 64)
  ⟨BitVec.ofNat 40 (packHops h), BitVec.ofNat 5 h.length, false⟩

/-- Hops that count: at most 20 (R245). -/
def routeHops (r : Route) : List Nat := unpackHops (min 20 r.hops.toNat) r.route.toNat

/-- One step over the mesh, none off its edge. -/
def meshStep (p d : Nat) : Option Nat :=
  let x := p % 8; let y := p / 8
  if d = 0 then (if y = 0 then none else some (p - 8))
  else if d = 1 then (if x = 7 then none else some (p + 1))
  else if d = 2 then (if y = 7 then none else some (p + 8))
  else (if x = 0 then none else some (p - 1))

/-- Where a list of hops ends. -/
def walk : Nat → List Nat → Option Nat
  | p, [] => some p
  | p, d :: r => match meshStep p d with
    | some q => walk q r
    | none => none

def routeKey (ni bank entry : Nat) : Nat := (ni * 2 + bank) * 256 + entry

def State.route (s : State) (ni bank entry : Nat) : Route :=
  tget (resetRoute ni entry) s.mortar.routes (routeKey ni bank entry)

def State.setRoute (s : State) (ni bank entry : Nat) (r : Route) : State :=
  { s with mortar := { s.mortar with routes := tset (resetRoute ni entry) s.mortar.routes (routeKey ni bank entry) r } }

/-- A route as it is stored when it is written: INVALID when it steps off the mesh (R245). -/
def checkedRoute (ni : Nat) (r : Route) : Route := { r with invalid := (walk ni (routeHops r)).isNone }

/-- The fence bit of one NI for a destination (FENCE0-FENCE7). -/
def State.niFenced (s : State) (ni d : Nat) : Bool :=
  bitOf (s.reg Reg.MORTAR_NI.cls ni (0x020 + 4 * (d / 32))).toNat (d % 32)

def State.setNiFence (s : State) (ni d : Nat) (b : Bool) : State :=
  let w := s.reg Reg.MORTAR_NI.cls ni (0x020 + 4 * (d / 32))
  s.setReg Reg.MORTAR_NI.cls ni (0x020 + 4 * (d / 32)) (putField w (d % 32) (d % 32) (b2n b))

/-- The epoch an NI routes by (R250). -/
def State.epochOf (s : State) (ni : Nat) : Bool := s.bit Reg.MORTAR_NI.STATUS_EPOCH_CUR ni

/-- The entry of the active bank of an NI for a plane and a destination NI. -/
def State.entry (s : State) (ni plane dst : Nat) : Route :=
  s.route ni (s.fld Reg.MORTAR_NI.STATUS_EPOCH_CUR ni) (64 * plane + dst)

/-! ## Links and routers (R239, R245, R251, R252, R259) -/

/-- LINK_STATUS of direction `d` of a router: 0 up, 1 replaying, 2 failed, 3 disabled. -/
def State.linkState (s : State) (r d : Nat) : Nat := wordField (s.reg Reg.ROUTER.cls r 0x008) (2 * d + 1) (2 * d)

def State.setLink (s : State) (r d v : Nat) : State :=
  s.setReg Reg.ROUTER.cls r 0x008 (putField (s.reg Reg.ROUTER.cls r 0x008) (2 * d + 1) (2 * d) v)

/-- Opposite direction. -/
def opposite (d : Nat) : Nat := (d + 2) % 4

/-- The router at the far end of a link, on the same plane. -/
def farRouter (r d : Nat) : Option Nat := (meshStep (r % 64) d).map (fun p => r / 64 * 64 + p)

/-- Whether a link takes flits: neither failed nor disabled, and not in retraining (R259). -/
def State.linkOpen (s : State) (r d : Nat) : Bool := decide (s.linkState r d < 2) && !s.mortar.training.contains (4 * r + d)

/-- Flits of one VC that a router's input holds (R238). -/
def vcBuffer (plane : Nat) : Nat := if plane = 2 then 8 else 4

/-- Credits of a VC of a router as in effect; above the buffer they act as the buffer. -/
def State.credits (s : State) (r v : Nat) : Nat :=
  min (vcBuffer (r / 64)) (wordField (tget (BitVec.ofNat 32 (vcDepthReset (r / 64))) s.mortar.depth r) (4 * v + 3) (4 * v))

/-- The diversion rule of R252: the hops that replace hop `d` at position `p`. -/
def divertHop (p d : Nat) : List Nat :=
  if d = 1 ∨ d = 3 then (if p / 8 = 7 then [0, d, 2] else [2, d, 0])
  else (if p % 8 = 7 then [3, d, 1] else [1, d, 3])

/-- Removes the first adjacent pair of opposite directions, where one stands. -/
def cancelPair : List Nat → Option (List Nat)
  | a :: b :: r => if b = opposite a then some r else (cancelPair (b :: r)).map (a :: ·)
  | _ => none

def cancelPairs : Nat → List Nat → List Nat
  | 0, l => l
  | n + 1, l => match cancelPair l with
    | some r => cancelPairs n r
    | none => l

/-- The remaining route of a packet at a router after diversion (R252): the hop over a failed link is replaced, opposite pairs go, the
first 20 hops stay; `n` bounds how often one router diverts a packet. -/
def State.divert (s : State) (r : Nat) : Nat → List Nat → List Nat
  | _, [] => []
  | 0, l => l
  | n + 1, d :: l => if s.linkState r d = 2 then s.divert r n ((cancelPairs 12 (divertHop (r % 64) d ++ l)).take 20) else d :: l

/-- Where a packet of a plane and VC at position `p` comes to in the network as it stands; none where it would wait: at a router out of
service, a VC without credits, a link that takes no flits, the mesh's edge. `n` bounds the routers passed. -/
def State.carry (s : State) (plane vc : Nat) : Nat → Nat → List Nat → Option Nat
  | 0, _, _ => none
  | n + 1, p, l =>
    let r := 64 * plane + p
    if s.fld Reg.ROUTER.CTL_IN_SERVICE r = 0 ∨ s.credits r vc = 0 then none
    else
      match s.divert r 3 l with
      | [] => some p
      | d :: l => if s.linkOpen r d then (meshStep p d).bind (fun q => s.carry plane vc n q l) else none

/-- Whether a packet of a plane and VC gets from one NI to another by the active route. -/
def State.reaches (s : State) (plane vc ni dst : Nat) : Bool :=
  let r := s.entry ni plane dst
  !r.invalid && s.carry plane vc 64 ni (routeHops r) == some dst

/-- Whether a memory request gets to a destination NI and its response back: a read asks for the request, response and read data ways,
a write for those of request, write data and response (R241). -/
def State.carries (s : State) (wr : Bool) (ni dst : Nat) : Bool :=
  s.reaches 0 0 ni dst && (if wr then s.reaches 2 0 ni dst && s.reaches 1 1 dst ni else s.reaches 2 1 dst ni && s.reaches 1 0 dst ni)

/-! ## Flits (R238, R242-R245) -/

/-- The buffer entries a flit takes: a snoop-plane packet is a header flit and a payload flit (R244). -/
def Flit.size (f : Flit) : Nat := match f.load with
  | .snoop _ _ => 2
  | _ => 1

/-- The header of R242-R244 as it stands on the wires: of a request, a response or a snoop packet; of data its sideband. -/
def Flit.header (f : Flit) : Nat :=
  let hop := f.route.length
  let way := packHops f.route
  let e := b2n f.epoch
  match f.load with
  | .request cls op len size addr =>
    f.dest + 2 ^ 8 * f.src + 2 ^ 16 * cls + 2 ^ 18 * e + 2 ^ 19 * hop + 2 ^ 24 * way + 2 ^ 64 * f.txn + 2 ^ 74 * op + 2 ^ 77 * len +
      2 ^ 82 * size + 2 ^ 85 * addr
  | .response status words =>
    f.dest + 2 ^ 8 * f.src + 2 ^ 16 * f.vc + 2 ^ 18 * e + 2 ^ 19 * hop + 2 ^ 24 * way + 2 ^ 64 * f.txn + 2 ^ 74 * status + 2 ^ 77 * words
  | .data index words last =>
    way + 2 ^ 40 * hop + 2 ^ 45 * e + 2 ^ 46 * f.vc + 2 ^ 47 * f.txn + 2 ^ 57 * index + 2 ^ 61 * (2 ^ words.length - 1) + 2 ^ 63 * b2n last +
      2 ^ 64 * f.src
  | .snoop type _ => f.dest + 2 ^ 8 * e + 2 ^ 9 * hop + 2 ^ 14 * way + 2 ^ 54 * type + 2 ^ 58 * f.vc

def State.setFlits (s : State) (l : List Flit) : State := { s with mortar := { s.mortar with flits := l } }

/-- A flit injected at an NI by its active route entry for the plane (R245); with an INVALID entry nothing is sent. -/
def State.sendFlit (s : State) (ni plane vc src dest txn : Nat) (load : Load) : State :=
  let r := s.entry ni plane (dest / 4)
  if r.invalid then s
  else
    let f : Flit := ⟨.out ni, plane, vc, src, dest, s.epochOf ni, routeHops r, txn, load⟩
    (s.setFlits (s.mortar.flits ++ [f])).countEvent 0x38 ni 0x010 f.size

/-! ## The fence controller (R254-R257) -/

/-- Snoop-plane TYPE of a controller's packet (R244). -/
def FcKind.type : FcKind → Nat
  | .fence => 8
  | .unfence => 9
  | .force => 12

/-- NI 63's requester 3 sends a management packet to every NI in ascending order (R244, R252, R255). -/
def State.sendAll (s : State) (type payload : Nat) : State :=
  let s := (List.range 64).foldl (fun s ni => s.sendFlit 63 3 1 252 (4 * ni) 0 (.snoop type payload)) s
  { s with mortar := { s.mortar with lastInj := tset 15 s.mortar.lastInj 63 3 } }

/-- The controller begins a request: its packets set out, and the port of a FENCE shows DRAINING. -/
def State.fcBegin (s : State) (q : FcReq) : State :=
  let p := s.port q.dest
  let s := match q.kind with
    | .fence => s.setPort q.dest { p with fenced := true, draining := !p.drained, sentFrom := [], doneFrom := [] }
    | .unfence => s
    | .force => { s with mortar := { s.mortar with forcing := tins s.mortar.forcing q.dest 0 } }
  s.sendAll q.kind.type q.dest

/-- The controller takes its next request when it handles none, by R29 over requesters 0-2. -/
def State.fcAdvance (s : State) : State :=
  match s.mortar.fc with
  | some _ => s
  | none =>
    match rrPick 3 s.mortar.fcLast (fun r => s.mortar.fcQueue.any (fun q => q.req == r)) with
    | none => s
    | some r =>
      match s.mortar.fcQueue.find? (fun q => q.req == r) with
      | none => s
      | some q =>
        State.fcBegin { s with mortar := { s.mortar with fc := some q, fcQueue := s.mortar.fcQueue.erase q, fcLast := r } } q

/-- A request reaches the controller. -/
def State.fcAsk (s : State) (q : FcReq) : State :=
  State.fcAdvance { s with mortar := { s.mortar with fcQueue := s.mortar.fcQueue ++ [q] } }

/-- Requesters of the fence of a destination. -/
def State.fencersOf (s : State) (d : Nat) : List Nat := tget [] s.mortar.fencers d

def State.setFencers (s : State) (d : Nat) (l : List Nat) : State :=
  { s with mortar := { s.mortar with fencers := tset [] s.mortar.fencers d l } }

/-- A FENCE asked for: one of a destination already fenced or draining joins its sequence (R254). -/
def State.askFence (s : State) (req d : Nat) : State :=
  let who := s.fencersOf d
  let s := s.setFencers d (if who.contains req then who else who ++ [req])
  if who.isEmpty then s.fcAsk ⟨req, .fence, d⟩ else s

/-- An UNFENCE asked for (R257): nothing fences the destination any more, and a drain under way is abandoned at once. -/
def State.askUnfence (s : State) (req d : Nat) : State :=
  let s := (s.setFencers d []).setPort d { s.port d with draining := false }
  s.fcAsk ⟨req, .unfence, d⟩

end Sys2Proof.Machine
end

