-- ==== Sys2Proof/Machine/MemOps.lean ====
section
/-! DEFINITION. Memory as units reach it: address decoding (R16, R18, R240), routes (R245), the bulk interleave (R286,
R300, R301), the Ashlar decoder with erasures and counts (R288-R292), the spall table (R297), and reads and writes of
bytes over Mortar (R241). -/
namespace Sys2Proof.Machine

/-! ## Addresses -/

/-- The targets of R16. -/
inductive Region
  | treasury (bank : Nat) | course (n : Nat) | sett (core : Nat) | csr | bulk (ch local_ : Nat) | host | unmapped
deriving DecidableEq, Repr

/-- Channels of an interleave MODE (R286). -/
def ilvChannels (mode : Nat) : Nat := 4 - mode

/-- Channel index and channel-local address of A = a − 0x01_0000_0000 under a MODE (R286). -/
def ilvSplit (mode A : Nat) : Nat × Nat :=
  let g := A / 256
  let lo := A % 256
  if mode = 0 then ((A / 2 ^ 8 % 4) ^^^ (A / 2 ^ 16 % 4) ^^^ (A / 2 ^ 24 % 4), g / 4 * 256 + lo)
  else if mode = 1 then (g % 3, g / 3 * 256 + lo)
  else if mode = 2 then ((A / 2 ^ 8 % 2) ^^^ (A / 2 ^ 16 % 2) ^^^ (A / 2 ^ 24 % 2), g / 2 * 256 + lo)
  else (0, A)

/-- MODE and MAP now in force for an offset A: below MIG_PTR of an incomplete evacuation the old map, else the new
one (R301). -/
def State.ilvAt (s : State) (A : Nat) : Nat × Nat :=
  match s.memSys.ilvOld with
  | some old => if A < s.memSys.migPtr then old else (s.fld Reg.BULK.ILV_MODE 0, s.fld Reg.BULK.ILV_MAP 0)
  | none => (s.fld Reg.BULK.ILV_MODE 0, s.fld Reg.BULK.ILV_MAP 0)

/-- Channel and channel-local address of an offset A. -/
def State.bulkPlace (s : State) (A : Nat) : Nat × Nat :=
  let (mode, map) := s.ilvAt A
  let (k, loc) := ilvSplit mode A
  (map / 4 ^ k % 4, loc)

def bulkBase : Nat := 0x0100000000

/-- The region an internal address lies in (R16); bulk memory above the installed capacity is unmapped once filled. -/
def State.region (s : State) (a : Nat) : Region :=
  if a < 0x04000000 then .treasury (a / 2 ^ 22)
  else if a < 0x40000000 then .unmapped
  else if a < 0x40000000 + 24 * 0x400000 then .course ((a - 0x40000000) / 0x400000)
  else if a < 0x60000000 then .unmapped
  else if a < 0x60000000 + 192 * 0x100000 then
    let o := (a - 0x60000000) % 0x100000
    if o < 0x30000 ∨ (0x80000 ≤ o ∧ o < 0x90000) then .sett ((a - 0x60000000) / 0x100000) else .unmapped
  else if a < 0x80000000 then .unmapped
  else if a < 0x90000000 then .csr
  else if a < bulkBase then .unmapped
  else if a < 0x4100000000 then
    if s.fld Reg.SYS.RAISE_STATUS_BULK_FILLED 0 = 1 ∧ s.memSys.capacity ≤ a - bulkBase then .unmapped
    else
      let (c, l) := s.bulkPlace (a - bulkBase)
      .bulk c l
  else if a < 0x8000000000 then .unmapped
  else if a < 0x10000000000 then .host
  else .unmapped

/-- The stored place of channel-local byte `l` of channel `c`: a retired page stands in its reserve page, past the
channel's capacity (R285, R300). -/
def State.bulkKey (s : State) (c l : Nat) : Nat :=
  let pg := l / 4096
  let hit := (List.range 256).find? (fun n =>
    match tfind s.memSys.retired (256 * c + (255 - n)) with
    | some (p, _) => p == pg
    | none => false)
  let phys := match hit with
    | some n => 2 ^ 20 * s.fld Reg.BULK.CAPACITY_MB c + (tget (0, 0) s.memSys.retired (256 * c + (255 - n))).2 * 4096 + l % 4096
    | none => l
  2 ^ 40 + 2 ^ 37 * c + phys

/-- The stored place of an internal address in memory. -/
def State.memKey (s : State) (a : Nat) : Nat :=
  match s.region a with
  | .bulk c l => s.bulkKey c l
  | _ => a

/-- The destination ID of an address (R240). -/
def State.destOf (s : State) (a : Nat) : Option Nat :=
  match s.region a with
  | .treasury b => some ((32 + b) * 4)
  | .course n => some (n * 4)
  | .sett c => some (c / 8 * 4)
  | .csr =>
    let o := a % 0x10000000
    let cls := o / 2 ^ 20
    let off := o % 2 ^ 10
    if (cls = 0x21 ∧ off = 0x200) ∨ (cls = 0x22 ∧ off = 0x308) then some (62 * 4 + 2) else some (62 * 4 + 1)
  | .bulk c _ => some ((52 + c) * 4)
  | .host => some ((58 + a / 2 ^ 12 % 2) * 4)
  | .unmapped => none

/-! ## Status of an access (R241) -/

inductive BusStatus | ok | decodeError | fenced | targetError
deriving DecidableEq, Repr

def BusStatus.code : BusStatus → Nat
  | .ok => 0 | .decodeError => 1 | .fenced => 2 | .targetError => 3

/-- The ports of keep cores, Dvorys and DMA engines (R239): the initiators that reach CSR space (R21) and program memory (R98). -/
def reachesAll (ni port : Nat) : Bool := ni == 62 || ni == 63 || (decide (58 ≤ ni ∧ ni ≤ 61) && port == 1)

/-- The status a read, or a write (`wr`), of a unit behind a port completes with: an unmapped address is never injected (R240); bulk
memory answers FENCED until filled (R63) and while its channel refills (R294); a fenced destination, or a drained source port, FENCED
(R255); an invalid entry of the planes the request takes DECODE_ERROR; one that ends elsewhere, or on whose way out or back a packet stays
(R246, R259, R261), TARGET_ERROR, the latter for want of a response (R251; DESIGN CHOICE, log entry 10); a host request that cannot be
sent TARGET_ERROR (R375, R376); CSR space for a unit that is no requester of R21 DECODE_ERROR. Program memory is reached by keep cores, DMA
engines and Dvorys alone (R98, R101); R98 names no status for the others, whose request the model has refused by its target: TARGET_ERROR
(DESIGN CHOICE, log entry 55). -/
def State.access (s : State) (wr : Bool) (ni port a : Nat) : BusStatus :=
  if bulkBase ≤ a ∧ a < 0x4100000000 ∧ s.fld Reg.SYS.RAISE_STATUS_BULK_FILLED 0 = 0 then .fenced
  else
    match s.destOf a with
    | none => .decodeError
    | some d =>
      if (s.port (ni * 4 + port)).drained then .fenced
      else if s.niFenced ni d then .fenced
      else if (if wr then [0, 2] else [0]).any (fun p => (s.entry ni p (d / 4)).invalid) then .decodeError
      else if !s.carries wr ni (d / 4) then .targetError
      else
        match s.region a with
        | .bulk c _ => if s.fld Reg.BULK.STATUS_FILLED c = 0 then .fenced else .ok
        | .host => if s.hostUp (s.fld Reg.PCIE.CTL_HOSTWIN_FN 0) then .ok else .targetError
        | .csr => if reachesAll ni port then .ok else .decodeError
        | .sett _ => if reachesAll ni port ∨ (a - 0x60000000) % 0x100000 < 0x80000 then .ok else .targetError
        | _ => .ok

/-! ## The Ashlar decoder (R288-R291) -/

/-- What a word decodes to (R288). -/
inductive Decoded | clean | corrected (col : Nat) | uncorrectable | poison
deriving DecidableEq, Repr

/-- Whether an outcome delivers poison. -/
def Decoded.bad : Decoded → Bool
  | .uncorrectable => true | .poison => true | _ => false

/-- What one codeword alone shows. -/
inductive CwResult | clean | points (i : Nat) | nowhere
deriving DecidableEq, Repr

/-- R288 on the syndromes of one codeword. -/
def cwResult (s0 s1 : Nat) : CwResult :=
  if s0 = 0 ∧ s1 = 0 then .clean
  else if s0 = 0 ∨ s1 = 0 then .nowhere
  else match (List.range 10).find? (fun k => gfXn k s0 == s1) with
    | some k => .points (9 - k)
    | none => .nowhere

/-- The joint-column rule of R288, with a column marked erased under R290. -/
def jointRule (e : Option Nat) (p q : Nat × Nat) : Decoded :=
  if p = (2, 1) ∧ q = (2, 1) then .poison
  else
    match e with
    | some c =>
      if p.2 = gfXn (9 - c) p.1 ∧ q.2 = gfXn (9 - c) q.1 then
        (if p.1 = 0 ∧ q.1 = 0 then .clean else .corrected c)
      else .uncorrectable
    | none =>
      match cwResult p.1 p.2, cwResult q.1 q.2 with
      | .clean, .clean => .clean
      | .points i, .points j => if i = j then .corrected i else .uncorrectable
      | .clean, .points i => .corrected i
      | .points i, .clean => .corrected i
      | _, _ => .uncorrectable

/-- The symbols of codeword `j` of a stored word. -/
def codeSymbols (data chk : List Byte) (j : Nat) : List Nat :=
  dataSymbols data j ++ [(chk.getD j 0).toNat, (chk.getD (2 + j) 0).toNat]

/-- Syndromes of both codewords, the outcome, and the data bytes as the decoder sends them on. -/
def decodeWord (e : Option Nat) (data chk : List Byte) : (Nat × Nat) × (Nat × Nat) × Decoded × List Byte :=
  let p := syndromes (codeSymbols data chk 0)
  let q := syndromes (codeSymbols data chk 1)
  let o := jointRule e p q
  let fixed := match o with
    | .corrected c => (List.range 16).map (fun i =>
        if i / 2 = c then BitVec.ofNat 8 ((data.getD i 0).toNat ^^^ (if i % 2 = 0 then p.1 else q.1)) else data.getD i 0)
    | _ => data
  (p, q, o, fixed)

/-- A memory by its controller's registers: class, instance, and the offsets of CTL, STATUS, CE_COUNT, UE_COUNT,
COL_CE0 and CLEAR there (COURSE holds TREASURY's at plus 0x100). -/
structure MemUnit where
  cls : Nat
  inst : Nat
  ctl : Nat
  ce : Nat
  ue : Nat
  col : Nat
  stErased : Nat
deriving DecidableEq, Repr

/-- The memory whose controller serves a stored place. -/
def memUnitOf (k : Nat) : MemUnit :=
  if 2 ^ 40 ≤ k then ⟨0x49, (k - 2 ^ 40) / 2 ^ 37, 0, 0x00C, 0x010, 0x014, 3⟩
  else if k < 0x04000000 then ⟨0x48, k / 2 ^ 22, 0, 0x008, 0x00C, 0x010, 0⟩
  else if k < 0x60000000 then ⟨0x10, (k - 0x40000000) / 0x400000, 0x100, 0x108, 0x10C, 0x110, 0⟩
  else ⟨0x10, (k - 0x60000000) / 0x100000 / 8, 0x100, 0x108, 0x10C, 0x110, 0⟩

/-- STATUS of a memory lies at 0x004, or at 0x104 for a Course. -/
def MemUnit.st (m : MemUnit) : Nat := m.ctl + 4

/-- The column marked erased in a memory (R290). -/
def State.erasedCol (s : State) (m : MemUnit) : Option Nat :=
  let w := s.reg m.cls m.inst m.st
  if wordField w m.stErased m.stErased = 1 then some (wordField w (m.stErased + 4) (m.stErased + 1)) else none

/-- The word stored at place `k` as its controller decodes it. -/
def State.decodeAt (s : State) (k : Nat) : (Nat × Nat) × (Nat × Nat) × Decoded × List Byte :=
  decodeWord (s.erasedCol (memUnitOf k)) (s.wordAt k) (s.checkAt k)

/-! ## The spall table (R297, R298) -/

/-- MEMORY code and word address of a spall entry for a stored place. -/
def spallAddr (k : Nat) : Nat × Nat :=
  if 2 ^ 40 ≤ k then (4 + (k - 2 ^ 40) / 2 ^ 37, (k - 2 ^ 40) % 2 ^ 37)
  else if k < 0x04000000 then (0, k)
  else if k < 0x60000000 then (1, k)
  else if (k - 0x60000000) % 0x100000 < 0x80000 then (2, k) else (3, k)

/-- The channel-local page that a reserve page of a channel stands for (R300). -/
def State.pageIn (s : State) (c r : Nat) : Option Nat :=
  match s.memSys.retired.find? (fun x => x.1 / 256 == c && x.2.2 == r) with
  | some (n, p, _) => if s.memSys.retired.any (fun x => x.1 / 256 == c && decide (n < x.1) && x.2.1 == p) then none else some p
  | none => none

/-- MEMORY and word address of a stored place as the spall table names it: a word of a reserve page in use bears the channel-local address
of the page it stands for (R297, R300). DEDUCED (log entry 76). -/
def State.spallPlace (s : State) (k : Nat) : Nat × Nat :=
  let (m, a) := spallAddr k
  let top := 2 ^ 20 * s.fld Reg.BULK.CAPACITY_MB (m - 4)
  if m < 4 ∨ a < top then (m, a)
  else match s.pageIn (m - 4) ((a - top) / 4096) with
    | some p => (m, p * 4096 + a % 4096)
    | none => (m, a)

def emptySpall : Spall := ⟨0, 0, 0, 0, false, 0, 0, 0⟩

def State.spallAt (s : State) (n : Nat) : Spall := tget emptySpall s.memSys.spall n

def State.setSpall (s : State) (n : Nat) (e : Spall) : State :=
  { s with memSys := { s.memSys with spall := tset emptySpall s.memSys.spall n e } }

/-- SPALL.STATUS follows the table. -/
def State.syncSpall (s : State) : State :=
  let l := s.memSys.spall.filter (fun p => p.2.st != 0)
  (s.setFld Reg.SPALL.STATUS_USED 0 l.length).setFld Reg.SPALL.STATUS_HARD 0 (l.filter (fun p => p.2.st != 1)).length

/-- DEVCLK[47:16], the stamp of spall entries. -/
def State.spallStamp (s : State) : Word := BitVec.ofNat 32 (s.devclk.toNat / 2 ^ 16)

/-- CTL.THRESH, 0 acting as 1; CTL.WINDOW hours, 0 acting as 1, in units of 2^16 DEVCLK counts. -/
def State.spallThresh (s : State) : Nat := max 1 (s.fld Reg.SPALL.CTL_THRESH 0)

def State.spallWindow (s : State) : Nat := max 1 (s.fld Reg.SPALL.CTL_WINDOW 0) * 360000000000

/-! ## Page retirement (R300) -/

/-- Reserve pages a channel has used; STATUS.RETIRED. -/
def State.retiredCount (s : State) (c : Nat) : Nat := (s.memSys.retired.filter (fun p => p.1 / 256 == c)).length

/-- A channel-local page retired (R300): copied, corrected, to the next reserve page; `none` with the pool full. -/
def State.retirePage (s : State) (c page : Nat) : Option (Nat × State) :=
  let n := s.retiredCount c
  if 256 ≤ n then none
  else
    let src := fun w : Nat => s.bulkKey c (page * 4096 + 16 * w)
    let dst := 2 ^ 40 + 2 ^ 37 * c + 2 ^ 20 * s.fld Reg.BULK.CAPACITY_MB c + n * 4096
    let s := (List.range 256).foldl (fun s w =>
      let (_, _, o, d) := s.decodeAt (src w)
      s.storeWord (dst + 16 * w) d o.bad) s
    let s := { s with memSys := { s.memSys with retired := tins s.memSys.retired (256 * c + n) (page, n) } }
    let s := s.setFld Reg.BULK.STATUS_RETIRED c (n + 1)
    some (n, s.post 0x49 c 0x003 0 (page % 2 ^ 24 + 2 ^ 24 * n))

/-- HARD bulk entries of a retired page become RETIRED (R300). -/
def State.spallRetired (s : State) (c page : Nat) : State :=
  ((List.range 256).foldl (fun s n =>
    let e := s.spallAt n
    if e.st = 2 ∧ e.memory = 4 + c ∧ e.addr / 4096 = page then s.setSpall n { e with st := 4 } else s) s).syncSpall

/-- The page of a HARD bulk entry retired, where AUTO_RETIRE asks for it and the pool has a page (R300). -/
def State.autoRetire (s : State) (e : Spall) : State :=
  if 4 ≤ e.memory ∧ s.bit Reg.BULK.CTL_AUTO_RETIRE (e.memory - 4) then
    match s.retirePage (e.memory - 4) (e.addr / 4096) with
    | some (_, s) => s.spallRetired (e.memory - 4) (e.addr / 4096)
    | none => s
  else s

/-- An entry that reaches THRESH becomes HARD and is journalled (R298); a bulk one may be retired at once (R300). -/
def State.spallHarden (s : State) (n : Nat) : State :=
  let e := s.spallAt n
  if e.st = 1 ∧ s.spallThresh ≤ e.count then ((s.setSpall n { e with st := 2 }).post 0x4A 0 0x001 1 n).autoRetire e else s

/-- A correction of a word, other than one confined to an erased column, reaches the spall table (R297). -/
def State.spallNote (s : State) (k col : Nat) : State :=
  let (m, a) := s.spallPlace k
  let now := s.spallStamp
  let used := s.memSys.spall
  match used.find? (fun p => p.2.st != 0 && p.2.memory == m && p.2.addr == a) with
  | some (n, e) =>
    if s.spallWindow < 2 ^ 16 * (s.devclk.toNat / 2 ^ 16 - e.first.toNat) then
      ((s.setSpall n { e with count := 1, first := now, last := now, rewritten := false, column := col }).spallHarden n).syncSpall
    else if e.rewritten then
      ((s.setSpall n { e with count := min 15 (e.count + 1), last := now, rewritten := false, column := col }).spallHarden n).syncSpall
    else s.setSpall n { e with last := now, column := col }
  | none =>
    let e : Spall := ⟨a, col, 1, 1, false, m, now, now⟩
    match (List.range 256).find? (fun n => (s.spallAt n).st == 0) with
    | some n => ((s.setSpall n e).spallHarden n).syncSpall
    | none =>
      let soft := (List.range 256).filter (fun n => (s.spallAt n).st == 1)
      match soft.foldl (fun b n => match b with
          | none => some n
          | some x => if (s.spallAt n).last.toNat < (s.spallAt x).last.toNat then some n else some x) (none : Option Nat) with
      | some n => ((s.setSpall n e).spallHarden n).syncSpall
      | none => s.addFld Reg.SPALL.DROPPED_COUNT 0 1

/-! ## Spares (R284, R299) -/

/-- The bank of an on-chip place: of Treasury, of a Course store, or of a core's window, whose program memory is one bank behind its
sixteen data banks. Banks lie one after the other: DESIGN CHOICE (log entry 76). -/
def bankOf (a : Nat) : Nat :=
  let o := a - 0x60000000
  if a < 0x04000000 then a / 0x400000
  else if a < 0x60000000 then a / 0x40000
  else o / 0x100000 * 17 + (if 0x80000 ≤ o % 0x100000 then 16 else o % 0x100000 / 0x3000)

/-- Whether two on-chip places lie in one bank. -/
def sameBank (a b : Nat) : Bool := memUnitOf a == memUnitOf b && (decide (a < 0x60000000) == decide (b < 0x60000000)) && bankOf a == bankOf b

/-- Spare rows, or column lines, of the bank of a place. -/
def bankSpares (a : Nat) (column : Bool) : Nat :=
  if a < 0x04000000 then (if column then 16 else 32) else if a < 0x60000000 then (if column then 4 else 8) else 2

/-- Whether the bank of a place has a spare left. -/
def State.spareLeft (s : State) (a : Nat) (column : Bool) : Bool :=
  decide ((s.memSys.repairs.filter (fun r => r.2 == column && sameBank r.1 a)).length < bankSpares a column)

/-- A spare set for a place, and counted in its memory's STATUS. -/
def State.takeSpare (s : State) (a : Nat) (column : Bool) : State :=
  let m := memUnitOf a
  let (hi, lo) := if column then (27, 18) else (17, 8)
  let w := s.reg m.cls m.inst m.st
  let s := s.setReg m.cls m.inst m.st (putField w hi lo (wordField w hi lo - 1))
  { s with memSys := { s.memSys with repairs := s.memSys.repairs ++ [(a, column)] } }

/-- The words of memory that hold anything but fill. -/
def State.heldWords (s : State) : List Nat :=
  (s.mem.map (fun c : Host.Cell => c.1 / 16 * 16) ++ s.chk.map (fun c : Host.Cell => c.1 / 4 * 16)).eraseDups

/-- A row, or a column line, of the bank of a place copied, corrected, to its spare: what its corrections confined to that row or column
are is gone (R299). A row is 4 KB: DESIGN CHOICE (log entry 76). -/
def State.copySpare (s : State) (a col : Nat) (column : Bool) : State :=
  (s.heldWords.filter (fun k => sameBank k a && (column || k / 4096 == a / 4096))).foldl (fun s k =>
    let (_, _, o, d) := s.decodeAt k
    match o with
    | .corrected c => if !column || c == col then s.storeWord k d false else s
    | _ => s) s

/-! ## Counting (R289, R290) -/

/-- The erasure rule of R290 after a correction confined to `col`. -/
def State.eraseCheck (s : State) (m : MemUnit) (col : Nat) : State :=
  let n := (s.reg m.cls m.inst (m.col + 4 * col)).toNat
  let ce := (s.reg m.cls m.inst m.ce).toNat
  if wordField (s.reg m.cls m.inst m.ctl) 0 0 = 1 ∧ (s.erasedCol m).isNone ∧ 64 ≤ n ∧ 3 * ce ≤ 4 * n then
    let w := s.reg m.cls m.inst m.st
    let w := putField (putField w m.stErased m.stErased 1) (m.stErased + 4) (m.stErased + 1) col
    let s := s.setReg m.cls m.inst m.st w
    if m.cls = 0x10 then s.post 0x10 m.inst 0x010 1 col else s.post m.cls m.inst 0x001 1 col
  else s

/-- What a controller's decode of a word it read does besides sending the word on: corrections and uncorrectable words
count and are reported (R289, R387); a correction outside an erased column feeds the spall table. -/
def State.noteDecode (s : State) (k : Nat) (o : Decoded) : State :=
  let m := memUnitOf k
  match o with
  | .corrected c =>
    let erased := s.erasedCol m == some c
    let s := s.setReg m.cls m.inst m.ce (s.reg m.cls m.inst m.ce + 1)
    let n := (s.reg m.cls m.inst (m.col + 4 * c)).toNat
    let s := s.setReg m.cls m.inst (m.col + 4 * c) (BitVec.ofNat 32 (satAdd allOnes32 n 1))
    let s := s.eraseCheck m c
    let s := if erased then s else s.spallNote k c
    s.reportFault 0 m.cls m.inst
  | .uncorrectable =>
    let s := (s.setReg m.cls m.inst m.ue (s.reg m.cls m.inst m.ue + 1)).countEvent m.cls m.inst 0x003 1
    let a := (s.spallPlace k).2 / 16 % 2 ^ 32
    let s := if m.cls = 0x10 then s.post 0x10 m.inst 0x011 2 a else s.post m.cls m.inst 0x002 2 a
    s.reportFault 1 m.cls m.inst
  | _ => s

/-! ## Reads and writes of memory -/

/-- A word of memory as a demand read delivers it: 16 bytes and whether they are poison, with the read's counts. -/
def State.readWord (s : State) (k : Nat) : List Byte × Bool × State :=
  let (_, _, o, d) := s.decodeAt k
  (d, o.bad, s.noteDecode k o)

/-- One byte of memory as a reader sees it, corrected; this reads without counting. -/
def State.peek (s : State) (a : Nat) : Byte :=
  let k := s.memKey a
  let (_, _, _, d) := s.decodeAt (k / 16 * 16)
  d.getD (k % 16) 0

/-- Bytes written into one word from byte `o` on (R291): a full word replaces it, a partial write merges, and the merged
word is poison when the old word was poison or uncorrectable, or the new bytes are. -/
def State.mergeWord (s : State) (k o : Nat) (bytes : List Byte) (poison : Bool) : State :=
  let s := if s.memSys.scrubHeld.any (fun p => p.2 == k) ∧ !s.memSys.staleWrite.contains k then
      { s with memSys := { s.memSys with staleWrite := k :: s.memSys.staleWrite } } else s
  if o = 0 ∧ bytes.length = 16 then s.storeWord k bytes poison
  else
    let (_, _, dec, d) := s.decodeAt k
    let new := (List.range 16).map (fun i => if o ≤ i ∧ i < o + bytes.length then bytes.getD (i - o) 0 else d.getD i 0)
    s.storeWord k new (poison || dec.bad)

/-- The addresses of the 16-byte words that `n` bytes at `a` touch. -/
def wordsOf (a n : Nat) : List Nat :=
  if n = 0 then [] else (List.range ((a + n - 1) / 16 - a / 16 + 1)).map (fun i => (a / 16 + i) * 16)

/-- Bytes read from memory (not host), each with its poison, with the counts of the reads. -/
def State.readMem (s : State) (a n : Nat) : List (Byte × Bool) × State :=
  let (l, s) := (wordsOf a n).foldl (fun acc w =>
    let (d, p, s) := acc.2.readWord (acc.2.memKey w)
    (acc.1 ++ (List.range 16).filterMap (fun i =>
      if a ≤ w + i ∧ w + i < a + n then some (d.getD i 0, p) else none), s)) (([] : List (Byte × Bool)), s)
  (l, s)

/-- Bytes written to memory (not host). -/
def State.writeMem (s : State) (a : Nat) (bytes : List (Byte × Bool)) : State :=
  (wordsOf a bytes.length).foldl (fun s w =>
    let part := (bytes.drop (w - a)).take (if w < a then 16 - (a - w) else 16)
    s.mergeWord (s.memKey w) (if w < a then a - w else 0) (part.map (·.1)) (part.any (·.2))) s

/-- The bus address of an address in the host window (R377). Host memory is kept by bus address before translation. -/
def State.hostAddr (s : State) (a : Nat) : Nat :=
  let b := (s.pair Reg.PCIE.HOSTWIN_LO_LO Reg.PCIE.HOSTWIN_HI_HI 0) / 4096 * 4096
  (b + (a - 0x8000000000)) % 2 ^ 64

/-- With ATS enabled for the HOSTWIN function, a page not in the 512-entry cache gets a translation from the host, 4 KB to 1 GB
large (R377). -/
def State.atsFill (s : State) (a : Nat) : State :=
  let bus := s.hostAddr a
  let on := s.bit Reg.PCIE.CTL_ATS_EN 0 && (tget (0, false) s.pcie.devCtl2 (s.fld Reg.PCIE.CTL_HOSTWIN_FN 0)).2
  if on ∧ !s.pcie.atc.any (fun e => decide (e.1 ≤ bus) && decide (bus < e.1 + e.2.1)) then
    let (k, s) := s.takeFree 5
    let (t, s) := s.takeFree 64
    let size := 4096 * 2 ^ (k % 19)
    let e := (bus / size * size, size, t / size * size)
    { s with pcie := { s.pcie with atc := (e :: s.pcie.atc).take 512 } }
  else s

/-- Host memory as a device read receives it (R382, R383): EP delivers every word of the completion as poison; Unsupported Request,
Completer Abort and no completion end the read with TARGET_ERROR; each is counted and reported through AER. -/
def State.hostRead (s : State) (a n : Nat) : BusStatus × List (Byte × Bool) × State :=
  let ws := (List.range ((a + n - 1) / 16 - a / 16 + 1)).map (a / 16 + ·)
  let has (x : HostAnswer) : Bool := ws.any (fun w => tget HostAnswer.data s.pcie.answers w == x)
  let none_ : List (Byte × Bool) := List.replicate n (0, false)
  if has .ur then (.targetError, none_, s.aer 20)
  else if has .ca then (.targetError, none_, s.aer 15)
  else if has .silent then (.targetError, none_, (s.addFld Reg.PCIE.CPL_TIMEOUT_COUNT 0 1).aer 14)
  else
    let l := (List.range n).map (fun i =>
      (mread s.host (a + i), tget HostAnswer.data s.pcie.answers ((a + i) / 16) == .poison))
    (.ok, l, if has .poison then (s.addFld Reg.PCIE.EP_RCVD_COUNT 0 1).aer 12 else s)

/-- A write to host memory; one that carries a poisoned word is sent with EP set (R382). -/
def State.hostWrite (s : State) (a : Nat) (bytes : List (Byte × Bool)) : State :=
  let s := if bytes.any (·.2) then (s.addFld Reg.PCIE.EP_SENT_COUNT 0 1).aer 12 else s
  { s with host := mwrites s.host a (bytes.map (·.1)) }

/-- A read of `n` bytes at an internal address by a unit behind a port. -/
def State.busRead (s : State) (ni port a n : Nat) : BusStatus × List (Byte × Bool) × State :=
  match s.access false ni port a with
  | .ok =>
    match s.region a with
    | .host => (s.atsFill a).hostRead (s.hostAddr a) n
    | _ =>
      let (l, s) := s.readMem a n
      (.ok, l, s)
  | e => (e, List.replicate n (0, false), s)

/-- A write of bytes at an internal address by a unit behind a port. -/
def State.busWrite (s : State) (ni port a : Nat) (bytes : List (Byte × Bool)) : BusStatus × State :=
  match s.access true ni port a with
  | .ok =>
    match s.region a with
    | .host => (.ok, (s.atsFill a).hostWrite (s.hostAddr a) bytes)
    | _ => (.ok, s.writeMem a bytes)
  | e => (e, s)

/-- A run of bytes cut at 256-byte lines, the finest grain of the address map (R286): (address, bytes). -/
def lines {α : Type} (a : Nat) : Nat → List α → List (Nat × List α)
  | 0, _ => []
  | n + 1, l =>
    if l.isEmpty then []
    else
      let k := 256 - a % 256
      (a, l.take k) :: lines (a + k) n (l.drop k)

/-- A write of any length, line by line; the first status other than OK (R268). -/
def State.busPut (s : State) (ni port a : Nat) (bytes : List (Byte × Bool)) : BusStatus × State :=
  (lines a (bytes.length / 256 + 2) bytes).foldl (fun acc p =>
    let (st, s) := acc.2.busWrite ni port p.1 p.2
    (if acc.1 = .ok then st else acc.1, s)) (BusStatus.ok, s)

/-- A read of any length, line by line. -/
def State.busGet (s : State) (ni port a n : Nat) : BusStatus × List (Byte × Bool) × State :=
  (lines a (n / 256 + 2) (List.replicate n ())).foldl (fun acc p =>
    let (st, l, s) := acc.2.2.busRead ni port p.1 p.2.length
    (if acc.1 = .ok then st else acc.1, acc.2.1 ++ l, s)) (BusStatus.ok, [], s)

/-- The 16-byte words of bytes read at an address that hold poison. -/
def poisonWords (a : Nat) (l : List (Byte × Bool)) : Nat :=
  (((List.range l.length).filter (fun i => (l.getD i (0, false)).2)).map (fun i => (a + i) / 16)).dedup.length

/-- An instance receives bytes as their consumer: poisoned words count in its bank (R402). In the model every correction and every
uncorrectable word is found by a memory's controller, as nothing changes a word on its way; what a consumer counts is POISON_IN (log
entry 76). -/
def State.took (s : State) (cls inst a : Nat) (l : List (Byte × Bool)) : State :=
  if poisonWords a l = 0 then s else s.countEvent cls inst 0x004 (poisonWords a l)

/-- A read of any length by a consumer. -/
def State.unitGet (s : State) (cls inst ni port a n : Nat) : BusStatus × List (Byte × Bool) × State :=
  let (st, l, s) := s.busGet ni port a n
  (st, l, s.took cls inst a l)

/-- Clean bytes for a write. -/
def clean (l : List Byte) : List (Byte × Bool) := l.map (fun b => (b, false))

/-- Memory filled with zero over a range of stored places (R61, R294). -/
def State.fillZero (s : State) (k n : Nat) : State :=
  { s with
    mem := s.mem.filter (fun c => !(decide (k ≤ c.1) && decide (c.1 < k + n)))
    chk := s.chk.filter (fun c => !(decide (k / 4 ≤ c.1) && decide (c.1 < (k + n) / 4))) }

end Sys2Proof.Machine
end

