-- ==== Sys2Proof/Machine/LedgerOps.lean ====
section
/-! DEFINITION. The ledger's books (R201-R206, R211): every operation on an account keeps R203, and applies itself to the
Thrift device account. -/
namespace Sys2Proof.Machine

def State.account (s : State) (a : Nat) : Account := tget Account.reset s.ledger.accounts a

def State.setAccount (s : State) (a : Nat) (x : Account) : State :=
  { s with ledger := { s.ledger with accounts := tset Account.reset s.ledger.accounts a x } }

/-- An amount of 1/256 mites as a book value. -/
def book (i : Int) : BitVec 64 := BitVec.ofInt 64 i

/-- One movement of an account's books: to CREDIT, OUTSTANDING, MINTED, DRAWN, ACCRUED, with the lowest CREDIT kept. -/
def Account.move (x : Account) (credit outst mint draw accr : Int) : Account :=
  let c := x.credit + book credit
  { x with
    credit := c
    outstanding := x.outstanding + book outst
    minted := x.minted + book mint
    drawn := x.drawn + book draw
    accrued := x.accrued + book accr
    minCredit := min x.minCredit c.toInt }

/-- A domain unparked, with the PARK event of a Course (R127, R210). -/
def State.unpark (s : State) (d : Nat) : State :=
  if s.fld Reg.PWR.STATUS_STATE d = 4 then
    let s := s.setFld Reg.PWR.STATUS_STATE d 3
    if 4 ≤ d ∧ d < 28 then s.post 0x10 (d - 4) 0x001 0 0 else s
  else s

/-- Unpark requests held in Thrift are granted once DEV_CREDIT stands at THRIFT_RESERVE or above, or Thrift is over (R211). -/
def State.grantUnparks (s : State) : State :=
  if s.bit Reg.LEDGER.STATUS_THRIFT_ACTIVE 0 && decide (s.ledger.devCredit.toInt < 256 * (s.fld Reg.LEDGER.THRIFT_RESERVE_RESERVE 0 : Int))
  then s
  else s.ledger.unparks.foldl State.unpark { s with ledger := { s.ledger with unparks := [] } }

/-- DEV_CREDIT moved, in Thrift (R211). -/
def State.devMove (s : State) (i : Int) : State :=
  if s.bit Reg.LEDGER.STATUS_THRIFT_ACTIVE 0 then
    let d := s.ledger.devCredit + book i
    let s := { s with ledger := { s.ledger with devCredit := d } }
    if d.toInt < 0 ∧ !s.ledger.thriftExhausted then
      ({ s with ledger := { s.ledger with thriftExhausted := true } }).post 0x28 0 0x003 1
        (s.fld Reg.LEDGER.PERIOD_NUM_COUNT 0)
    else s
  else s

/-- charge(a, x) of R201, `x` in 1/256 mite; `spread` marks a share of mode-2 energy, which is no part of W[a], `late` a task's
energy after its true-up, which is no owner charge (R213). -/
def State.charge (s : State) (a : Nat) (x : Nat) (spread late : Bool := false) : State :=
  let y := (s.account a).move (-(x : Int)) 0 0 x 0
  let y := { y with
    periodDraw := y.periodDraw + x
    spreadBase := if spread then y.spreadBase else y.spreadBase + x
    periodAll := y.periodAll + x
    staticNow := if late then y.staticNow else y.staticNow + x }
  (s.setAccount a y).devMove (-(x : Int))

/-- The debit of an ESTIMATE at an admission or a G0 placement (R205). -/
def State.debit (s : State) (a est : Nat) : State :=
  (s.setAccount a ((s.account a).move (-(256 * est : Int)) (256 * est) 0 0 0)).devMove (-(256 * est : Int))

/-- A true-up of R206: the estimate replaced by the accrual (in 1/256 mite). -/
def State.trueUp (s : State) (a est accr : Nat) : State :=
  let y := (s.account a).move (256 * est - accr : Int) (-(256 * est : Int)) 0 accr (-(accr : Int))
  let y := { y with periodDraw := y.periodDraw + accr, spreadBase := y.spreadBase + accr }
  let s := (s.setAccount a y).devMove (256 * est - accr : Int)
  if accr < 256 * est then s.grantUnparks else s

/-- Energy accrued to a task of an account (R201 mode 1). -/
def State.accrue (s : State) (a x : Nat) : State :=
  let y := (s.account a).move 0 0 0 0 x
  s.setAccount a { y with periodAll := y.periodAll + x }

/-- The mint of R202, of `amount` 1/256 mites below the ceiling. -/
def State.mint (s : State) (a amount : Nat) : State :=
  let x := s.account a
  let ceil : Int := 256 * (s.fld Reg.ACCOUNT.CEIL_CEIL a : Int)
  let added := max 0 (min (x.credit.toInt + amount) ceil - x.credit.toInt)
  let forfeit := ((amount : Int) - added).toNat / 256
  let y := x.move added 0 added 0 0
  let s := (s.setAccount a { y with minCredit := y.credit.toInt }).setFld Reg.ACCOUNT.FORFEIT_MITES a (min allOnes32 forfeit)
  if 0 < forfeit then s.post 0x2A a 0x002 0 (min allOnes32 forfeit) else s

/-- ADJUST: signed mites added to CREDIT and MINTED in one grant (R202). -/
def State.adjust (s : State) (a : Nat) (v : Int) : State :=
  s.setAccount a ((s.account a).move (256 * v) 0 (256 * v) 0 0)

/-- Signed mites of an amount of 1/256 mites, clamped to 32 bits. -/
def clampMites (i : Int) : Nat := toBits 32 (clampInt (-(2 ^ 31)) (2 ^ 31 - 1) (i / 256))

/-- A G0 debit; when it leaves CREDIT below zero OVERDRAFTS counts, and the first of the period is journalled (R205). -/
def State.debitG0 (s : State) (a est : Nat) : State :=
  let s := s.debit a est
  let x := s.account a
  if x.credit.toInt < 0 then
    let s := s.addFld Reg.ACCOUNT.OVERDRAFTS_COUNT a 1
    if x.overdraftPosted then s
    else (s.setAccount a { x with overdraftPosted := true }).post 0x2A a 0x001 1 (clampMites x.credit.toInt)
  else s

/-- The ledger's answers (R185). -/
inductive Answer | granted (allowance : Nat) | defer | shed
deriving DecidableEq, Repr

/-- The answer of R205 for grades 1-3, by the account's books as they stand. -/
def State.ledgerAnswer (s : State) (a grade est : Nat) (optional : Bool) : Answer :=
  if s.fld Reg.LEDGER.CTL_ADMIT_EN 0 = 0 then .granted 63
  else
    let thrift := s.bit Reg.LEDGER.STATUS_THRIFT_ACTIVE 0
    let c := (s.account a).credit.toInt - 256 * est
    let devc := s.ledger.devCredit.toInt - 256 * est
    let reserve : Int := 256 * (s.fld Reg.ACCOUNT.RESERVE_RESERVE a : Int)
    let tres : Int := 256 * (s.fld Reg.LEDGER.THRIFT_RESERVE_RESERVE 0 : Int)
    let low := decide (c < reserve) || (thrift && decide (devc < tres))
    let devOk (r : Int) : Bool := !thrift || decide (r ≤ devc)
    let hi := s.fld Reg.ACCOUNT.ALLOW_ALLOW_HI a
    let lo := s.fld Reg.ACCOUNT.ALLOW_ALLOW_LO a
    let no : Answer := if optional then .shed else .defer
    if grade = 1 then (if 0 ≤ c ∧ devOk 0 then .granted hi else .defer)
    else if grade = 2 then
      if 0 ≤ c ∧ devOk 0 then (if low ∧ optional then .shed else if low then .granted lo else .granted hi) else no
    else if !low ∧ devOk tres then .granted hi
    else no

/-- A request with its counts; on ADMIT the estimate is debited. -/
def State.ask (s : State) (a grade est : Nat) (optional : Bool) : Answer × State :=
  let r := s.ledgerAnswer a grade est optional
  match r with
  | .granted al =>
    let low := s.fld Reg.LEDGER.CTL_ADMIT_EN 0 = 1 ∧ grade = 2 ∧
      ((s.account a).credit.toInt - 256 * est < 256 * (s.fld Reg.ACCOUNT.RESERVE_RESERVE a : Int) ∨
       (s.bit Reg.LEDGER.STATUS_THRIFT_ACTIVE 0 = true ∧
        s.ledger.devCredit.toInt - 256 * est < 256 * (s.fld Reg.LEDGER.THRIFT_RESERVE_RESERVE 0 : Int)))
    let s := (s.debit a est).addFld Reg.ACCOUNT.ADMITTED_COUNT a 1
    (.granted al, if low then s.addFld Reg.ACCOUNT.REDUCED_COUNT a 1 else s)
  | .defer => (.defer, s.addFld Reg.ACCOUNT.DEFERRED_COUNT a 1)
  | .shed => (.shed, s.addFld Reg.ACCOUNT.SHED_COUNT a 1)

/-- One event's energy in fJ as a point's calibration trims it: within the bounds R25 and R169 give. Events: 0 a MAC, 1 an LDPC
information bit and iteration, 2 a buffer LLR read, 3 a HARQ position or LLR, 4 an encoder's output bit, 5 a turbo information bit
and iteration, 6 a unit of polar decoding, 7 a bit of a CRC. -/
def State.eventEnergy (s : State) (p e : Nat) : Nat :=
  let (nominal, tol) := [(220, 20), (550, 50), (60, 10), (1100, 100), (50, 10), (3800, 400), (900, 100), (20, 5)].getD e (0, 0)
  nominal - tol + Config.energyTrim e p (s.reg Reg.METER.cls p Reg.METER.CAL_GAIN_GAIN.off) % (2 * tol + 1)

/-- Work of a unit counted in the open metering step (R201): unit, task, event. -/
def actKey (u i e : Nat) : Nat := (u * 2 ^ 14 + i) * 8 + e

def State.countAct (s : State) (u i e n : Nat) : State :=
  let k := actKey u i e
  { s with ledger := { s.ledger with counts := tset 0 s.ledger.counts k (tget 0 s.ledger.counts k + n) } }

/-- A trued-up task's work in the open step becomes its account's (R201): keyed by unit and account. -/
def State.lateActs (s : State) (u i a : Nat) : State :=
  let mine := s.ledger.counts.filter (fun x => x.1 / 8 == u * 2 ^ 14 + i)
  let late := mine.foldl (fun l x =>
    let k := (u * 64 + a) * 8 + x.1 % 8
    tset 0 l k (tget 0 l k + x.2)) s.ledger.late
  { s with ledger := { s.ledger with counts := s.ledger.counts.filter (fun x => x.1 / 8 != u * 2 ^ 14 + i), late := late } }

def State.meter (s : State) (p : Nat) : Meter := tget (Meter.reset p) s.ledger.meters p

def State.setMeter (s : State) (p : Nat) (m : Meter) : State :=
  { s with ledger := { s.ledger with meters := tset (Meter.reset p) s.ledger.meters p m } }

/-- MINT × (actual ÷ nominal length), truncated to 1/256 mite (R200). -/
def mintAmount (mint actual nominal : Nat) : Nat := 256 * mint * actual / max 1 nominal

end Sys2Proof.Machine
end

