-- ==== Sys2Proof/Machine/DispOps.lean ====
section
/-! DEFINITION. The dispatcher's operations: keystones (R180-R182), acceptance (R176), placement (R183-R186), reclaim
(R188), completion (R189-R191) and the start of a task (R116, R144). -/
namespace Sys2Proof.Machine

def State.task (s : State) (i : Nat) : Option Task := tfind s.disp.tasks i

def State.putTask (s : State) (i : Nat) (t : Task) : State :=
  { s with disp := { s.disp with tasks := tins s.disp.tasks i t } }

def State.delTask (s : State) (i : Nat) : State :=
  { s with disp := { s.disp with tasks := tdel s.disp.tasks i } }

def State.slot (s : State) (u : Nat) : List Nat := tget [] s.disp.slots u

/-- Class and instance of a fill requester of R184. -/
def unitOf (u : Nat) : Nat × Nat :=
  if u < 192 then (0x11, u) else if u < 208 then (0x18, u - 192) else if u < 216 then (0x19, u - 208)
  else if u < 220 then (0x1A, u - 216) else if u < 224 then (0x1B, u - 220) else (0x1C, u - 224)

/-- Fill requester index of a unit. -/
def unitIndex (cls inst : Nat) : Nat :=
  if cls = 0x11 then inst else if cls = 0x18 then 192 + inst else if cls = 0x19 then 208 + inst
  else if cls = 0x1A then 216 + inst else if cls = 0x1B then 220 + inst else 224 + inst

/-- A slot's entries set, with what TELLER.STATUS shows. -/
def State.setSlot (s : State) (u : Nat) (l : List Nat) : State :=
  let s := { s with disp := { s.disp with slots := tset [] s.disp.slots u l } }
  if u < 192 then
    (s.setFld Reg.TELLER.STATUS_ENTRIES u l.length).setFld Reg.TELLER.STATUS_HEAD u (l.headD 0)
  else s

/-- READY task of a queue with the smallest key, then post sequence: the queue's head (R184). -/
def State.headOf (s : State) (q : Nat) : Option (Nat × Task) :=
  (s.disp.tasks.filter (fun p => p.2.queue == q && p.2.st == .ready)).foldl (fun b p => match b with
    | none => some p
    | some x => if p.2.key < x.2.key ∨ (p.2.key = x.2.key ∧ p.2.seq < x.2.seq) then some p else some x) none

/-- DEPTH, MAX_DEPTH and RESIDENT follow the resident tasks; a queue whose head is no longer the deferred one is no longer
DEFERRED. -/
def State.syncQueue (s : State) (q : Nat) : State :=
  let w := (s.disp.tasks.filter (fun p => p.2.queue == q && p.2.st == .waiting)).length
  let r := (s.disp.tasks.filter (fun p => p.2.queue == q && p.2.st == .ready)).length
  let s := (s.setFld Reg.DQUEUE.DEPTH_WAITING q w).setFld Reg.DQUEUE.DEPTH_READY q r
  let s := (s.maxFld Reg.DQUEUE.MAX_DEPTH_MAX_READY q r).maxFld Reg.DQUEUE.MAX_DEPTH_MAX_RESIDENT q (w + r)
  let s := if s.bit Reg.DQUEUE.STATE_DEFERRED q && (((s.headOf q).map (·.1 + 1)).getD 0 != tget 0 s.disp.deferHead q) then
      s.setFld Reg.DQUEUE.STATE_DEFERRED q 0 else s
  let n := s.disp.tasks.length
  (s.setFld Reg.DISP.STATUS_RESIDENT 0 n).maxFld Reg.DISP.STATUS_RESIDENT_MAX 0 n

def State.key (s : State) (k : Nat) : Keystone := tget Keystone.reset s.disp.keystones k

def State.setKey (s : State) (k : Nat) (x : Keystone) : State :=
  { s with disp := { s.disp with keystones := tset Keystone.reset s.disp.keystones k x } }

def State.keyIsZero (s : State) (k : Nat) : Bool := (s.key k).count.toNat == 0

/-- A credit change of account `a` (R185, R206): the heads it had deferred are asked again; one that raises DEV_CREDIT in
Thrift reaches every deferred head (R211). -/
def State.creditChange (s : State) (a : Nat) (all : Bool) : State :=
  (List.range 256).foldl (fun s q =>
    if s.bit Reg.DQUEUE.STATE_DEFERRED q then
      match s.headOf q with
      | some (_, t) => if all ∨ t.account = a then s.setFld Reg.DQUEUE.STATE_DEFERRED q 0 else s
      | none => s.setFld Reg.DQUEUE.STATE_DEFERRED q 0
    else s) s

/-- Histogram bin of an interval of `c` CMD cycles under UNIT: bin 0 below U, bin b up to 2^b U, bin 7 from 64 U. -/
def histBin (unit c : Nat) : Nat :=
  let n := c / 2 ^ unit
  if n = 0 then 0 else if n < 2 then 1 else if n < 4 then 2 else if n < 8 then 3 else if n < 16 then 4
  else if n < 32 then 5 else if n < 64 then 6 else 7

/-- Completion causes of R189. -/
inductive Cause | success | task | job | hang | unit | late | shed | skip | cancel | witness
deriving DecidableEq, Repr

def Cause.code : Cause → Nat
  | .success => 0 | .task => 1 | .job => 2 | .hang => 3 | .unit => 4
  | .late => 5 | .shed => 6 | .skip => 7 | .cancel => 8 | .witness => 9

def Cause.ofCode (n : Nat) : Cause :=
  if n = 0 then .success else if n = 1 then .task else if n = 2 then .job else if n = 3 then .hang else .unit

/-- A completion report sent to the dispatcher (R189). -/
def State.report (s : State) (i : Nat) (c : Cause) : State :=
  { s with disp := { s.disp with reports := tset 0 s.disp.reports i (c.code + 1) } }

/-- Steps 1, 4 (its decrement answered) and 5 of R189 for a task that completes with a cause: counts, journal, slot
freed. -/
def State.closeTask (s : State) (i : Nat) (t : Task) (c : Cause) : List (Nat × Bool) × State :=
  let s := s.addFld Reg.DISP.COMPLETED_COUNT 0 1
  let s := if c = .success then s else s.addFld Reg.DISP.FAILED_COUNT 0 1
  let s := s.addFld Reg.DQUEUE.COMPLETED_COUNT t.queue 1
  let dropped := c == .late || c == .shed || c == .witness
  let s := if dropped then (s.addFld Reg.DQUEUE.DROPPED_COUNT t.queue 1).post 0x21 t.queue 0x001 1 (i + 2 ^ 14 * c.code)
    else if c = .cancel then (s.addFld Reg.DQUEUE.FAILED_COUNT t.queue 1).post 0x21 t.queue 0x002 0 i
    else if c = .success then s
    else (s.addFld Reg.DQUEUE.FAILED_COUNT t.queue 1).post 0x20 0 0x001 2 (i + 2 ^ 14 * c.code)
  let s := (s.delTask i).syncQueue t.queue
  (if t.doneEn then [(t.doneKey, c != .success)] else [], s)

/-- Waiters of a keystone in post-sequence order (R182). -/
def State.waiters (s : State) (k : Nat) : List (Nat × Task) :=
  (s.disp.tasks.filter (fun p => p.2.st == .waiting && p.2.waitKey == k)).insertionSort (fun a b => a.2.seq ≤ b.2.seq)

/-- One task released with a mark (R182, R191): READY, or completed with SKIP. -/
def State.releaseTask (s : State) (i : Nat) (t : Task) (mark : Bool) : List (Nat × Bool) × State :=
  if mark && t.failSkip then s.closeTask i t .skip
  else ([], (s.putTask i { t with st := .ready, mark := mark, readyAt := s.devclk.toNat }).syncQueue t.queue)

/-- Releases the waiters of a keystone, tasks and DMA channels, with a mark (R182, R272), and reloads it (R180). -/
def State.release (s : State) (k : Nat) (mark : Bool) : List (Nat × Bool) × State :=
  let ws := s.waiters k
  let chans := tget [] s.disp.dmaWait k
  let x := s.key k
  let s := s.setKey k { x with count := x.reload, fail := false }
  let s := if mark then s.post 0x22 (k / 256) 0x002 1 (k + 2 ^ 16 * min 0xFFFF (ws.length + chans.length)) else s
  let (rel, s) := ((chans.foldl (fun r c => tset 0 r c (if mark then 2 else 1)) s.disp.dmaRel), s)
  let s := { s with disp := { s.disp with dmaRel := rel, dmaWait := tdel s.disp.dmaWait k } }
  ws.foldl (fun acc p =>
    let (d, s) := acc.2.releaseTask p.1 p.2 mark
    (acc.1 ++ d, s)) ([], s)

/-- One decrement with a mark (R180). -/
def State.decOnce (s : State) (k : Nat) (m : Bool) : List (Nat × Bool) × State :=
  let x := s.key k
  if x.count = 0 then ([], (s.setKey k { x with underflow := true }).post 0x22 (k / 256) 0x001 2 k)
  else if x.count = 1 then
    let mark := x.fail || m
    (s.setKey k { x with count := 0 }).release k mark
  else ([], s.setKey k { x with count := x.count - 1, fail := x.fail || m })

/-- Decrements one after another, with those that skipped tasks add (R189, R191); each of those frees a resident slot, so
`fuel` of the resident tasks and the work at hand suffices. -/
def State.decAll : Nat → List (Nat × Bool) → State → State
  | 0, _, s => s
  | _, [], s => s
  | n + 1, (k, m) :: r, s =>
    let (more, s) := s.decOnce k m
    State.decAll n (r ++ more) s

/-- Decrements taken in order, with everything they release. -/
def State.decKeys (s : State) (l : List (Nat × Bool)) : State :=
  State.decAll (s.disp.tasks.length + l.length + 1) l s

/-- A decrement of keystone `k` with mark `m`. -/
def State.decKey (s : State) (k : Nat) (m : Bool) : State := s.decKeys [(k % 8192, m)]

/-- SET_COUNT of R180. -/
def State.setCount (s : State) (k v : Nat) (clear : Bool) : State :=
  let x := s.key k
  let x := if clear then { x with fail := false, underflow := false } else x
  let s := s.setKey k { x with count := BitVec.ofNat 12 v }
  if v % 4096 = 0 ∧ (!(s.waiters k).isEmpty ∨ !(tget [] s.disp.dmaWait k).isEmpty) then
    let (d, s) := s.release k x.fail
    s.decKeys d
  else s

def State.setReload (s : State) (k v : Nat) : State :=
  s.setKey k { s.key k with reload := BitVec.ofNat 12 v }

/-! ## Acceptance (R175-R179) -/

/-- LIMIT.MAX_TASKS as it acts. -/
def State.queueLimit (s : State) (q : Nat) : Nat :=
  let n := s.fld Reg.DQUEUE.LIMIT_MAX_TASKS q
  if n = 0 ∨ 16384 < n then 16384 else n

/-- What a requester has at the post port, oldest first. -/
def State.posts (s : State) (r : Nat) : List HeldPost := tget [] s.disp.held r

/-- Whether a DMA channel waits at a POST write of its own (R177). -/
def State.postStands (s : State) (c : Nat) : Bool := (s.posts (10 + c / 32)).any (fun h => h.chan == some c)

/-- Whether a queue and the resident slots have room (R177). -/
def State.postRoom (s : State) (q : Nat) : Bool :=
  decide ((s.disp.tasks.filter (fun p => p.2.queue == q && (p.2.st == .waiting || p.2.st == .ready))).length
    < s.queueLimit q) && decide (s.disp.tasks.length < 16384)

/-- Lowest-numbered free resident slot: tasks are listed by rising index. -/
def freeSlot : List Nat → Nat → Nat
  | [], n => n
  | i :: r, n => if i = n then freeSlot r (n + 1) else n

/-- The deadline key of R179, given the deadline's time base as seconds S and Tc T. -/
def deadlineKey (dlclk dlSec dlTc S T : Nat) : Int :=
  dlclk + signedOf 32 (dlSec + 2 ^ 32 - S % 2 ^ 32) * 1966080000 + ((dlTc : Int) - T)

/-- A descriptor's 16 words accepted into a queue: the resident slot it takes and the state (R175, R176, R182). -/
def State.accept (s : State) (q : Nat) (w : List Word) (tb : Nat → Nat × Nat) : Nat × State :=
  let f (i msb lsb : Nat) : Nat := wordField (w.getD i 0) msb lsb
  let i := freeSlot (s.disp.tasks.map (·.1)) 0
  let nd := f 6 2 2 == 1
  let (S, T) := tb (f 6 1 0)
  let key : Int := if nd then 2 ^ 63 - 1 else deadlineKey s.disp.dlclk (f 5 31 0) (f 4 30 0) S T
  let wait := f 0 22 22 == 1
  let k := f 3 12 0
  let t : Task := {
    queue := q, target := BitVec.ofNat 16 (f 0 15 0), grade := f 0 17 16, idempotent := f 0 18 18 == 1,
    lateDrop := f 0 19 19 == 1, failSkip := f 0 20 20 == 1, optional := f 0 21 21 == 1, waitEn := wait,
    doneEn := f 0 23 23 == 1, arg := BitVec.ofNat 40 (f 1 31 0 + 2 ^ 32 * f 2 7 0), account := f 2 13 8,
    waitKey := k, doneKey := f 3 28 16, noDeadline := nd, estimate := f 7 31 0, key := key,
    seq := s.disp.postSeq, st := .waiting, mark := false, redispatches := 0, unit := 0, allowance := 0,
    placedAt := 0, readyAt := 0, accrual := 0, debited := false }
  let s := (({ s with disp := { s.disp with postSeq := s.disp.postSeq + 1 } }).putTask i t).countEvent 0x21 q 0x010 1
  if wait && !s.keyIsZero k then (i, s.syncQueue q)
  else
    let (d, s) := s.releaseTask i t (wait && (s.key k).fail)
    (i, s.decKeys d)

/-! ## Units and placement (R183-R186) -/

/-- Whether a commanded fence of a unit waits for its running work: the unit takes no new work (R171, R396). -/
def State.fenceAsked (s : State) (cls inst : Nat) : Bool := s.fences.any (fun f => f.phase == .waiting && f.hits cls inst)

/-- Whether unit `u` may take entries (R183); a core is enabled and not halted, an engine has TAKE_EN. -/
def State.eligible (s : State) (u : Nat) : Bool :=
  let (cls, inst) := unitOf u
  s.running cls inst && !s.fenceAsked cls inst &&
  (if cls = 0x11 then
    bitOf (s.fld Reg.COURSE.CTL_CORE_EN (inst / 8)) (inst % 8) && !s.bit Reg.SETT.CTL_HALT_REQ inst
   else wordField (s.reg cls inst 0x000) 0 0 == 1)

/-- Whether queue `q`'s pool contains unit `u` (R183). -/
def State.inPool (s : State) (q u : Nat) : Bool :=
  let (cls, inst) := unitOf u
  let kind := s.fld Reg.DQUEUE.CTL_KIND q
  if cls = 0x11 then
    kind == 0 && bitOf (s.fld Reg.DQUEUE.POOL_COURSE_COURSES q) (inst / 8) &&
      bitOf (s.fld Reg.DQUEUE.POOL_CORE_CORES q) (inst % 8)
  else kind == cls - 0x17 && bitOf (s.fld Reg.DQUEUE.POOL_ENGINE_ENGINES q) inst

/-- The best candidate for a unit (R184): the head of an enabled queue not DEFERRED whose pool holds it, by PRIO, key and
post sequence. -/
def State.candidate (s : State) (u : Nat) : Option (Nat × Task) :=
  (List.range 256).foldl (fun b q =>
    if s.bit Reg.DQUEUE.CTL_ENABLE q && !s.bit Reg.DQUEUE.STATE_DEFERRED q && s.inPool q u then
      match s.headOf q with
      | none => b
      | some p =>
        match b with
        | none => some p
        | some x =>
          let a := s.fld Reg.DQUEUE.CTL_PRIO q
          let c := s.fld Reg.DQUEUE.CTL_PRIO x.2.queue
          if c < a ∨ (a = c ∧ (p.2.key < x.2.key ∨ (p.2.key = x.2.key ∧ p.2.seq < x.2.seq))) then some p else some x
    else b) none

/-- Whether unit `u` requests a fill and a candidate stands for it. -/
def State.asksFill (s : State) (u : Nat) : Bool :=
  s.bit Reg.DISP.CTL_ENABLE 0 && s.modes.mode != .banked && s.modes.target != some .banked &&
  s.eligible u && decide ((s.slot u).length < 2) && (s.candidate u).isSome

/-- The entry of task `i` placed in a slot with its allowance; the unit's domain is idle no more (R210). -/
def State.placeEntry (s : State) (u i : Nat) (t : Task) (allow : Nat) : State :=
  let t := { t with st := .slotted, unit := u, allowance := allow, placedAt := s.devclk.toNat, debited := true }
  let s := (((s.putTask i t).setSlot u (s.slot u ++ [i])).syncQueue t.queue).countEvent 0x21 t.queue 0x011 1
  match domainOf (unitOf u).1 (unitOf u).2 with
  | some d => { s with ledger := { s.ledger with busyAt := tset 0 s.ledger.busyAt d (s.devclk.toNat + 1) } }
  | none => s

/-- What is done with the best candidate of a granted unit (R184-R186, R193). -/
def State.place (s : State) (u i : Nat) (t : Task) : State :=
  let done (c : Cause) (s : State) : State :=
    let (d, s) := s.closeTask i t c
    s.decKeys d
  let late := decide (t.key ≤ (s.disp.dlclk : Int)) && !t.noDeadline
  if s.bit Reg.DQUEUE.CTL_TX_WORK t.queue ∧ s.actsAs = .witness ∧ s.modes.target = none then done .witness s
  else if late ∧ t.lateDrop then done .late s
  else
    let lateCount (s : State) : State := if late then s.addFld Reg.DQUEUE.LATE_COUNT t.queue 1 else s
    if t.grade = 0 then (lateCount (s.debitG0 t.account t.estimate)).placeEntry u i t 63
    else
      match s.ask t.account t.grade t.estimate t.optional with
      | (.granted a, s) => (lateCount s).placeEntry u i t a
      | (.defer, s) => (({ s with disp := { s.disp with deferHead := tset 0 s.disp.deferHead t.queue (i + 1) } }).setFld Reg.DQUEUE.STATE_DEFERRED t.queue 1).countEvent 0x21 t.queue 0x012 1
      | (.shed, s) => done .shed s

/-- A slot entry returned to READY (R188): it keeps key and post sequence, and its estimate is refunded. -/
def State.reclaim (s : State) (u i : Nat) : State :=
  match s.task i with
  | none => s.setSlot u ((s.slot u).filter (· != i))
  | some t =>
    let s := s.setSlot u ((s.slot u).filter (· != i))
    let s := if u < 192 then s.addFld Reg.TELLER.RECLAIMS_COUNT u 1 else s
    let before := s.ledger.devCredit.toInt
    let s := if t.debited then s.trueUp t.account t.estimate 0 else s
    let s := if t.debited then s.creditChange t.account (decide (before < s.ledger.devCredit.toInt)) else s
    let t := { t with st := .ready, allowance := 0, debited := false, readyAt := s.devclk.toNat }
    (s.putTask i t).syncQueue t.queue

/-- Every entry of a unit's slot reclaimed. -/
def State.reclaimAll (s : State) (u : Nat) : State := (s.slot u).foldl (fun s i => s.reclaim u i) s

/-- The head entry of a unit's slot starts (TAKE or job start). -/
def State.startHead (s : State) (u : Nat) : Option (Nat × Task × State) :=
  match s.slot u with
  | [] => none
  | i :: r =>
    match s.task i with
    | none => none
    | some t =>
      let t := { t with st := .running }
      let s := (s.putTask i t).setSlot u r
      let b := histBin (s.fld Reg.DQUEUE.HIST_CFG_UNIT t.queue) ((s.devclk.toNat - t.readyAt) * 8)
      let s := s.satFld (Reg.DQUEUE.HIST_BIN b) t.queue 1
      some (i, t, if u < 192 then s.addFld Reg.TELLER.TASKS_COUNT u 1 else s)

/-- A completion report for a task that ran (R189, R190): its true-up takes its accrual as it stands, and its work in the open step
is left to its account (R201). -/
def State.complete (s : State) (i : Nat) (c : Cause) : State :=
  match s.task i with
  | none => s
  | some t =>
    let x := t.accrual
    let before := s.ledger.devCredit.toInt
    let s := if t.debited then s.trueUp t.account t.estimate x else s
    let s := s.creditChange t.account (decide (before < s.ledger.devCredit.toInt))
    let s := s.lateActs t.unit i t.account
    if (c = .hang ∨ c = .unit) ∧ t.idempotent ∧ t.redispatches < s.fld Reg.DISP.CTL_RETRY_LIMIT 0 then
      let s := s.addFld Reg.DISP.REDISPATCHED_COUNT 0 1
      let n := t.redispatches + 1
      let s := s.post 0x20 0 0x002 1 (i + 2 ^ 14 * c.code + 2 ^ 18 * n)
      let t := { t with st := .ready, redispatches := n, allowance := 0, accrual := 0, debited := false, readyAt := s.devclk.toNat }
      (s.putTask i t).syncQueue t.queue
    else
      let (d, s) := s.closeTask i t c
      s.decKeys d

/-- A task that did not run completes with a cause (LATE, SHED, SKIP, CANCEL, WITNESS). -/
def State.drop (s : State) (i : Nat) (t : Task) (c : Cause) : State :=
  let (d, s) := s.closeTask i t c
  s.decKeys d

/-- The tasks a unit has taken that have not been completed yet. -/
def State.takenBy (s : State) (u : Nat) : List Nat :=
  (s.disp.tasks.filter (fun p => p.2.st == .running && p.2.unit == u)).map Prod.fst

/-- The task a unit runs. -/
def State.runningOn (s : State) (u : Nat) : Option (Nat × Task) :=
  s.disp.tasks.find? (fun p => p.2.st == .running && p.2.unit == u)

end Sys2Proof.Machine
end

