-- ==== Sys2Proof/Machine/SysOps.lean ====
section
/-! DEFINITION. The trace FIFO (R407), journal writing (R27, R30, R49), resets (R418), and the mode controller's decisions
(R56-R58). -/
namespace Sys2Proof.Machine

/-! ## Trace port (R407) -/

/-- FIFO words in use. -/
def fifoWords (l : List (List Nat)) : Nat := (l.map List.length).sum

/-- Words as the trace port's little-endian 16-bit words. -/
def halves (ws : List Word) : List Nat := ws.flatMap (fun w => [w.toNat % 2 ^ 16, w.toNat / 2 ^ 16])

/-- A LOST packet joins the FIFO as soon as it fits. -/
def State.traceLost (s : State) : State :=
  let lost := s.observe.lost
  if 0 < lost ∧ 3 ≤ 2048 - fifoWords s.observe.fifo then
    { s with observe := { s.observe with fifo := s.observe.fifo ++ [[5 + 2 * 16, lost % 2 ^ 16, lost / 2 ^ 16 % 2 ^ 16]], lost := 0 } }
  else s

/-- A packet offered to the 4 KB FIFO; one that does not fit is dropped and counted, and a LOST packet follows as soon as it fits. -/
def State.tracePush (s : State) (type : Nat) (payload : List Nat) : State :=
  let room := 2048 - fifoWords s.observe.fifo
  let s := if payload.length + 1 ≤ room ∧ s.observe.lost = 0 then
      { s with observe := { s.observe with fifo := s.observe.fifo ++ [(type + payload.length * 16) :: payload] } }
    else (({ s with observe := { s.observe with lost := s.observe.lost + 1, lostNow := s.observe.lostNow + 1 } }).addFld
      Reg.TRACE.LOST_COUNT 0 1).traceLost
  s.setFld Reg.TRACE.STATUS_LEVEL 0 (fifoWords s.observe.fifo)

/-- LOST, once per tally period with any packet dropped (R408). -/
def State.tracePeriod (s : State) : State :=
  if s.observe.lostNow = 0 then s
  else ({ s with observe := { s.observe with lostNow := 0 } }).post 0x79 0 0x001 1 s.observe.lostNow

/-- Whether a source of the trace port sends: EN and its SRC bit. -/
def State.traceOn (s : State) (src : Nat) : Bool :=
  s.bit Reg.TRACE.CTL_EN 0 && bitOf (s.fld Reg.TRACE.CTL_SRC 0) src

/-! ## The journal ring (R30) -/

/-- LOG2_ENTRIES as it acts. -/
def State.journalLog2 (s : State) : Nat := min 16 (max 8 (s.fld Reg.JOURNAL.SIZE_LOG2_ENTRIES 0))

/-- Unread entries. -/
def State.journalUnread (s : State) : Nat :=
  let m := 2 ^ (s.journalLog2 + 1)
  (s.fld Reg.JOURNAL.WR_INDEX_WR_INDEX 0 + m - s.fld Reg.JOURNAL.RD_INDEX_RD_INDEX 0 % m) % m

/-- The four words of an entry. -/
def journalEntry (e : JEvent) (stamp : BitVec 64) (lap : Bool) : List Word :=
  [BitVec.ofNat 32 stamp.toNat, BitVec.ofNat 32 (stamp.toNat / 2 ^ 32),
   BitVec.ofNat 32 (e.cls % 2 ^ 8 + e.inst % 2 ^ 10 * 2 ^ 8 + 2 ^ 18 * (e.event % 2 ^ 11) + 2 ^ 29 * b2n lap + 2 ^ 30 * (e.sev % 4)),
   e.detail]

/-- Base of the journal ring: bits below the ring's size are taken as zero. -/
def State.journalBase (s : State) : Nat :=
  let size := 16 * 2 ^ s.journalLog2
  (s.fld Reg.JOURNAL.BASE_LO_BASE_LO 0 + 2 ^ 32 * s.fld Reg.JOURNAL.BASE_HI_BASE_HI 0) / size * size

/-- One entry written to the ring with a stamp: overwriting the oldest unread one when the ring is full, raising the
journal interrupt at IRQ_LEVEL, copied to subscribers (R49) and to the trace port (R407). -/
def State.journalWrite (s : State) (e : JEvent) (stamp : BitVec 64) : State :=
  let L := s.journalLog2
  let wr := s.fld Reg.JOURNAL.WR_INDEX_WR_INDEX 0
  let full := s.journalUnread == 2 ^ L
  let entry := journalEntry e stamp (bitOf wr L)
  let a := s.journalBase + 16 * (wr % 2 ^ L)
  let s := (s.busWrite 63 1 a (clean (wordsToBytes entry))).2
  let s := if full then
      let s := s.setFld Reg.JOURNAL.RD_INDEX_RD_INDEX 0 ((s.fld Reg.JOURNAL.RD_INDEX_RD_INDEX 0 + 1) % 2 ^ (L + 1))
      (s.setFld Reg.JOURNAL.STATUS_OVERRUN 0 1).satFld Reg.JOURNAL.STATUS_OVERRUN_COUNT 0 1
    else s
  let wr := (wr + 1) % 2 ^ (L + 1)
  let s := (s.setFld Reg.JOURNAL.WR_INDEX_WR_INDEX 0 wr).setFld Reg.JOURNAL.STATUS_LAP 0 (wr / 2 ^ L)
  let s := if s.bit Reg.JOURNAL.CTL_IRQ_EN 0 ∧ s.fld Reg.JOURNAL.CTL_IRQ_LEVEL 0 ≤ s.journalUnread then
      s.raise 0 (s.fld Reg.PCIE.JOURNAL_IRQ_VECTOR 0) else s
  let s := (List.range 16).foldl (fun s fn =>
    let f := s.fnState fn
    if f.subOn && decide (f.subSev ≤ e.sev) && f.subClasses.getLsbD e.cls then s.notify fn entry else s) s
  if s.traceOn 0 && decide (s.fld Reg.TRACE.CTL_MIN_SEV 0 ≤ e.sev) then s.tracePush 1 (halves entry) else s

/-! ## Resets (R418) -/

/-- Footing from a reset source: every register, fence and memory goes; DEVCLK and RESET_CAUSE keep their values, and the
outside world (the commands waiting, host memory, the flash, pin levels) is untouched. RESET_CAUSE gains `bits`. -/
def State.toFooting (s : State) (bits : Nat) : State :=
  let cause := s.reg Reg.CLK.cls 0 0x00C ||| BitVec.ofNat 32 bits
  let r := { State.reset with
    pending := s.pending
    host := s.host
    devclk := s.devclk
    free := s.free
    modes := { ModeCtl.reset with mode := .footing }
    dvorys := { Dvorys.reset with spi := s.dvorys.spi, images := { Images.reset with bootSlot := s.dvorys.images.bootSlot } }
    pcie := { Pcie.reset with perstN := s.pcie.perstN, training := false }
    power := {
      s.power with
      ramping := none
      waitingUp := []
      lastDomain := 77
      fusing := false
      skips := []
      spreadAt := none
      footAt := s.devclk.toNat } }
  let r := r.setReg Reg.CLK.cls 0 0x00C cause
  (List.range 77).foldl (fun r d => r.setFld Reg.PWR.STATUS_STATE (d + 1) 0) r

/-- Domains powered in Bedding (R54): AON, CMD, CTRL, MESH, and all COURSE, CODE, FE, WIT and TREASURY domains. -/
def beddingDomain (d : Nat) : Bool := decide (d ≤ 44) || decide (62 ≤ d)

/-! ## The mode controller (R56-R58) -/

/-- Whether a transition is allowed (R56). `viaSet` says that a MODE_SET asks. -/
def modeAllowed (frm to_ : Mode) (ready viaSet : Bool) : Bool :=
  match frm, to_ with
  | .raising, .service | .raising, .witness | .raising, .thrift => ready
  | .service, .witness | .service, .thrift | .witness, .service | .witness, .thrift
  | .thrift, .service | .thrift, .witness => true
  | .service, .banked | .witness, .banked | .thrift, .banked => true
  | .banked, .service | .banked, .witness | .banked, .thrift => viaSet
  | _, _ => false

/-! ## On the way into Banked (R65) -/

/-- Whether step 2 of R65 is done: no task and no job runs. -/
def State.workDone (s : State) : Bool :=
  (List.range 232).all (fun u => (s.runningOn u).isNone) &&
  s.engines.eng.all (fun e => e.2.job.isNone && e.2.hung.isNone)

/-- Whether a keep core runs and does not wait for interrupt. -/
def State.keepAwake (s : State) (k : Nat) : Bool := s.bit Reg.KEEP.STATUS_RUNNING k && !s.bit Reg.KEEP.STATUS_WFI k

/-- The BANKED interrupt of a keep core (R65 step 3): a running core has it from the end of step 2 until the transition ends. -/
def State.bankedIrq (s : State) (k : Nat) : Bool :=
  s.modes.target == some .banked && s.workDone && s.bit Reg.KEEP.STATUS_RUNNING k

/-- Whether step 4 of R65 has begun: no core that has the interrupt is still awake, but for those clock-gated after the timeout. -/
def State.banking (s : State) : Bool :=
  s.modes.target == some .banked && s.workDone &&
    (s.modes.bankedGated || !(List.range 8).any (fun k => s.bankedIrq k && s.keepAwake k))

/-- Modes in which a request for the mode in force completes at once (R56). -/
def modeIdle (m : Mode) : Bool := m == .service || m == .witness || m == .thrift || m == .banked

/-- A transition starts; where it moves the device ceiling, that happens at the next period start (R57). -/
def State.startTransition (s : State) (to_ : Mode) (req : Nat) (op : Option (BitVec 16)) : State :=
  let m := { s.modes with target := some to_, requester := req, opId := op, lastRequester := req }
  let s := { s with modes := m }
  if to_ = .banked then s
  else
    let on := to_ == .thrift
    let ask := if s.bit Reg.LEDGER.STATUS_THRIFT_ACTIVE 0 = on then none else some on
    { s with ledger := { s.ledger with thriftAsk := ask } }

/-- Decision on a request (R56, R58): `none` refused, `some false` done at once, `some true` a transition starts. -/
def State.modeVerdict (s : State) (to_ : Option Mode) (viaSet : Bool) : Option Bool :=
  match s.modes.target, to_ with
  | some _, _ => none
  | _, none => none
  | none, some t =>
    if t = s.modes.mode ∧ modeIdle t then some false
    else if s.faults.held then none
    else if modeAllowed s.modes.mode t (s.bit Reg.SYS.RAISE_STATUS_READY 0) viaSet then some true
    else none

/-- RAISE_STATUS.READY: bits 0-6 all set. -/
def State.syncReady (s : State) : State :=
  s.setFld Reg.SYS.RAISE_STATUS_READY 0 (b2n ((s.reg Reg.SYS.cls 0 0x00C).toNat % 128 == 127))

end Sys2Proof.Machine
end

