-- ==== Sys2Proof/Machine/CsrOps.lean ====
section
/-! DEFINITION. How a CSR write reaches instances (R10, R14-R20): selectors, groups, power and fences, modes, and the
storing of a word by field type (R6, R7, R9). -/
namespace Sys2Proof.Machine

/-- GRP_MEMBER's offsets, served whatever the instance's state (R15). -/
def isGrpOff (off : Nat) : Bool := decide (0x370 ≤ off) && decide (off < 0x378)

/-- The instances of a class, in ascending order. -/
def instances (cls : Nat) : List Nat := match classDef cls with
  | some c => List.range c.count
  | none => []

/-- The members of a group (0-63) of a class: present, powered, not fenced, with their GRP_MEMBER bit set (R19, R20). -/
def State.groupMembers (s : State) (cls g : Nat) : List Nat :=
  if classGroup cls then
    (instances cls).filter (fun i => s.powered cls i && !s.fencedUnit cls i &&
      bitOf (s.reg cls i (0x370 + 4 * (g / 32))).toNat (g % 32))
  else []

/-- The instances a selector names for a write (R17, R19, R20). -/
def State.writeTargets (s : State) (cls sel off : Nat) : List Nat :=
  if sel < 0x200 then
    if instPresent cls sel && ((classGroup cls && isGrpOff off) || cls == 0x03 ||
      (s.powered cls sel && !s.fencedUnit cls sel)) then [sel] else []
  else if sel < 0x240 then s.groupMembers cls (sel - 0x200)
  else if sel = 0x3FF ∧ classGroup cls then
    (instances cls).filter (fun i => s.powered cls i && !s.fencedUnit cls i)
  else []

/-- The instance a selector names for a read: the single instance, powered (R20), or the lowest member (R19). -/
def State.readTarget (s : State) (cls sel off : Nat) : Option Nat :=
  if sel < 0x200 then
    if instPresent cls sel && ((classGroup cls && isGrpOff off) || cls == 0x03 || s.powered cls sel) then some sel
    else none
  else (s.writeTargets cls sel off).head?

/-- Whether the register at an offset accepts writes in the mode in force (R10). An offset that holds no register
accepts and changes nothing. -/
def State.modeTakes (s : State) (cls off : Nat) : Bool :=
  match findReg cls off with
  | some r => bitOf r.modes s.modes.mode.code
  | none => true

/-- A word stored by field type (R6, R9): RW and RWS fields take their bits, W1C bits written 1 clear, W1S bits written 1
set, RO, WO and reserved bits keep. -/
def storeFields : List FieldDef → Word → Word → Word
  | [], w, _ => w
  | f :: r, w, v =>
    let x := wordField v f.msb f.lsb
    let o := wordField w f.msb f.lsb
    let n := match f.ty with
      | .rw | .rws => x
      | .w1c => o &&& (2 ^ (f.msb + 1 - f.lsb) - 1 - x)
      | .w1s => o ||| x
      | .ro | .wo => o
    storeFields r (putField w f.msb f.lsb n) v

/-- The register at an offset of one instance stores a word. -/
def State.storeReg (s : State) (cls inst off : Nat) (v : Word) : State :=
  match findReg cls off with
  | some r => s.setReg cls inst off (storeFields r.fields (s.reg cls inst off) v)
  | none => s

/-- A write with a selector: one member write after another in ascending order (R19), none in a mode the register does
not list (R10). -/
def State.eachMember (s : State) (cls sel off : Nat) (f : State → Nat → State) : State :=
  if s.modeTakes cls off then (s.writeTargets cls sel off).foldl f s else s

/-- Whether the hub carries out an access of a requester: in Banked only the BAR0 window reaches it (R54, R66). -/
def State.hubTakes (s : State) (req : Nat) : Bool := s.modes.mode != .banked || req == 9

/-- A write that the hub carries out for a requester. -/
def State.hubEach (s : State) (req cls sel off : Nat) (f : State → Nat → State) : State :=
  if s.hubTakes req then s.eachMember cls sel off f else s

end Sys2Proof.Machine
end

