-- ==== Sys2Proof/Machine/Flags.lean ====
section
/-! DEFINITION. The lanes of the Sett vector registers (R104), and the arithmetic that sets OV and SAT: accumulation with
two's-complement wrap (R110), extraction (R111), saturation to int16 (R134). Every right shift truncates toward minus
infinity. -/
namespace Sys2Proof.Machine

/-- Bits [msb:lsb] of an instruction word held as a number. -/
def bits (n msb lsb : Nat) : Nat := n / 2 ^ lsb % 2 ^ (msb + 1 - lsb)

/-! ## Lanes (R104) -/

/-- Lane i of a vector register as int16. -/
def lane (x : BitVec 512) (i : Nat) : Int := (x.extractLsb' (16 * i) 16).toInt

/-- Lane i of an accumulator as a 40-bit two's-complement value. -/
def accLane (x : BitVec 1280) (i : Nat) : Int := (x.extractLsb' (40 * i) 40).toInt

/-- A number with its lanes of `w` bits at 0, w, 2w … -/
def joinLanes (w : Nat) : List Int → Nat
  | [] => 0
  | x :: r => toBits w x + 2 ^ w * joinLanes w r

/-- A vector register from 32 lane values, each taken modulo 2^16. -/
def ofLanes (f : Nat → Int) : BitVec 512 := BitVec.ofNat 512 (joinLanes 16 ((List.range 32).map f))

/-- An accumulator from 32 lane values, each taken modulo 2^40 (the wrap of R110). -/
def ofAccLanes (f : Nat → Int) : BitVec 1280 := BitVec.ofNat 1280 (joinLanes 40 ((List.range 32).map f))

/-- The bits of the lanes a predicate mask selects (R133). -/
def vMask (p : Word) : BitVec 512 := ofLanes (fun i => if p.getLsbD i then -1 else 0)

def vaMask (p : Word) : BitVec 1280 := ofAccLanes (fun i => if p.getLsbD i then -1 else 0)

/-- A predicate mask limited to lanes `lo` to `lo + 15`, for the .L and .H forms. -/
def halfMask (p : Word) (lo : Nat) : Word :=
  BitVec.ofNat 32 ((List.range 32).foldl (fun a i => if decide (lo ≤ i) && decide (i < lo + 16) && p.getLsbD i then a + 2 ^ i else a) 0)

/-! ## OV (R110) -/

/-- Whether a sum cannot be held in 40 bits. -/
def over40 (x : Int) : Bool := decide (x < -(2 ^ 39)) || decide (2 ^ 39 - 1 < x)

/-- Whether one of the selected lanes overflows. -/
def anyOver (p : Word) (f : Nat → Int) : Bool := (List.range 32).any (fun i => p.getLsbD i && over40 (f i))

/-! ## SAT (R111, R134) -/

def sat16 (x : Int) : Int := clampInt (-32768) 32767 x

def over16 (x : Int) : Bool := decide (x < -32768) || decide (32767 < x)

/-- Whether one of the selected lanes saturates. -/
def anySat (p : Word) (f : Nat → Int) : Bool := (List.range 32).any (fun i => p.getLsbD i && over16 (f i))

/-- floor(x / 2^sh), a shift above 31 acting as 31 (R111). -/
def shiftDown (x : Int) (sh : Nat) : Int := x / 2 ^ min 31 sh

end Sys2Proof.Machine
end

