-- ==== Sys2Proof/Machine/Operands.lean ====
section
/-! DEFINITION. The operand forms of the Sett instruction set: register reads with the Cobble rotation (R103, R115, R139), the
fields of the four slots (R128, R134, R136, R137), post-modify addressing (R106), predicates (R133), what one slot
writes (R130), and register writes as they land. -/
namespace Sys2Proof.Machine

def State.core (s : State) (c : Nat) : Core := tget Core.reset s.sett.cores c

def State.setCore (s : State) (c : Nat) (k : Core) : State :=
  { s with sett := { s.sett with cores := tset Core.reset s.sett.cores c k } }

/-! ## Registers -/

/-- The physical register of V16-V31 or S16-S31 in Cobble mode (R115). -/
def Core.phys (k : Core) (n : Nat) : Nat :=
  if k.cobble ∧ 16 ≤ n then 16 + (n + 16 - k.rot.toNat) % 16 else n

def Core.rV (k : Core) (n : Nat) : BitVec 512 := tget 0 k.v (k.phys n)
def Core.rS (k : Core) (n : Nat) : Word := tget 0 k.s (k.phys n)
def Core.rVA (k : Core) (n : Nat) : BitVec 1280 := tget 0 k.va (n % 8)
def Core.rVX (k : Core) (n : Nat) : BitVec 1280 := tget 0 k.vx (n % 8)
def Core.rA (k : Core) (n : Nat) : BitVec 40 := tget 0 k.a (n % 16)
def Core.rM (k : Core) (n : Nat) : Word := tget 0 k.m (n % 16)
def Core.rB (k : Core) (n : Nat) : BitVec 40 := tget 0 k.b (n % 8)
def Core.rL (k : Core) (n : Nat) : BitVec 24 := tget 0 k.l (n % 8)

/-- P0 reads as all ones (R103). -/
def Core.rP (k : Core) (n : Nat) : Word := if n % 8 = 0 then 0xFFFFFFFF else tget 0 k.p (n % 8)

/-- The bits of `x` where `m` has them, else those of `old`. -/
def merge {w : Nat} (old x m : BitVec w) : BitVec w := (old &&& ~~~m) ||| (x &&& m)

/-- A register write as it lands; writes of P0 are ignored (R103). -/
def Core.put (k : Core) : RegWrite → Core
  | .v n x m => { k with v := tset 0 k.v n (merge (tget 0 k.v n) x m) }
  | .va n x m => { k with va := tset 0 k.va n (merge (tget 0 k.va n) x m) }
  | .vx n x m => { k with vx := tset 0 k.vx n (merge (tget 0 k.vx n) x m) }
  | .s n x m => { k with s := tset 0 k.s n (merge (tget 0 k.s n) x m) }
  | .a n x => { k with a := tset 0 k.a n x }
  | .m n x => { k with m := tset 0 k.m n x }
  | .b n x => { k with b := tset 0 k.b n x }
  | .l n x => { k with l := tset 0 k.l n x }
  | .p n x m => if n = 0 then k else { k with p := tset 0 k.p n (merge (tget 0 k.p n) x m) }
  | .lc x => { k with lc := x }
  | .rot x => { k with rot := x }
  | .ov x m => { k with ov := merge k.ov x m }
  | .sat x => { k with sat := x }

def Core.putAll (k : Core) (l : List (Nat × RegWrite)) : Core := l.foldl (fun k w => k.put w.2) k

/-! ## Slots (R128) -/

/-- The word of a slot within a bundle: MAC0, MAC1, LS, SB. -/
def slotWord (b slot : Nat) : Nat :=
  if slot = 0 then bits b 127 98 else if slot = 1 then bits b 97 68 else if slot = 2 then bits b 67 28 else bits b 27 0

/-- The opcode field of a slot's word. -/
def slotOp (w slot : Nat) : Nat := if slot ≤ 1 then bits w 29 24 else if slot = 2 then bits w 39 34 else bits w 27 22

/-- Fields of a MAC slot (R134): D, A, B, P, IMM. -/
def macD (w : Nat) : Nat := bits w 23 19
def macA (w : Nat) : Nat := bits w 18 14
def macB (w : Nat) : Nat := bits w 13 9
def macP (w : Nat) : Nat := bits w 8 6
def macImm (w : Nat) : Nat := bits w 5 0

/-- Fields of the LS slot (R136): R, An, Mm, MOD, P, and VLDST's Vs, Ak, Mj, MODk, P. -/
def lsR (w : Nat) : Nat := bits w 33 29
def lsA (w : Nat) : Nat := bits w 28 25
def lsM (w : Nat) : Nat := bits w 24 21
def lsMod (w : Nat) : Bool := bits w 20 20 == 1
def lsP (w : Nat) : Nat := bits w 19 17
def lsVs (w : Nat) : Nat := bits w 19 15
def lsAk (w : Nat) : Nat := bits w 14 11
def lsMj (w : Nat) : Nat := bits w 10 7
def lsModk (w : Nat) : Bool := bits w 6 6 == 1
def lsPk (w : Nat) : Nat := bits w 5 3

/-- Fields of the SB slot (R137): D, A, B and a branch target. -/
def sbD (w : Nat) : Nat := bits w 21 17
def sbA (w : Nat) : Nat := bits w 16 12
def sbB (w : Nat) : Nat := bits w 11 7
def sbTarget (w : Nat) : Nat := bits w 11 0

/-! ## Addressing (R106) -/

/-- A[n] after its update by M[m]. -/
def Core.postMod (k : Core) (n m : Nat) : BitVec 40 :=
  let t := k.rA n + (k.rM m).signExtend 40
  let L := (k.rL n).zeroExtend 40
  if n ≤ 7 ∧ k.rL n ≠ 0 then
    if (k.rB n).toNat + (k.rL n).toNat ≤ t.toNat then t - L
    else if t.toNat < (k.rB n).toNat then t + L
    else t
  else t

/-- The write of An that an LS form with its MOD bit makes. -/
def Core.postWrite (k : Core) (md : Bool) (n m : Nat) : List (Nat × RegWrite) :=
  if md then [(1, .a n (k.postMod n m))] else []

/-- The runs of bytes that a store of 64 bytes writes under a predicate (R133): the bytes of each selected lane. -/
def storeRuns (a : Nat) (x : BitVec 512) (p : Word) : List (Nat × List Byte) :=
  if p = 0xFFFFFFFF then [(a, leBytes 64 x.toNat)]
  else (List.range 32).filterMap (fun i => if p.getLsbD i then some (a + 2 * i, leBytes 2 (x.toNat / 2 ^ (16 * i) % 65536)) else none)

/-! ## Legality (R129, R130, R136, R139) -/

/-- The registers a slot writes, as (class, number): V 0, VA 1, S 2, A 3, M 4, B 5, L 6, P 7, LC 8. P0, OV and SAT are
not counted (R130). -/
def Core.slotWrites (k : Core) (w slot : Nat) : List (Nat × Nat) :=
  let op := slotOp w slot
  if slot ≤ 1 then
    if op = 0x3F then []
    else if op ≤ 0x0B then [(1, macD w % 8)]
    else if op = 0x21 ∨ op = 0x22 then (if macD w % 8 = 0 then [] else [(7, macD w % 8)])
    else [(0, k.phys (macD w))]
  else if slot = 2 then
    let an := if lsMod w ∨ op = 0x0B then [(3, lsA w)] else []
    if op = 0x3F then []
    else if op = 0x01 ∨ op = 0x04 then an ++ [(0, k.phys (lsR w))]
    else if op = 0x03 then an ++ (if lsModk w then [(3, lsAk w)] else []) ++ [(0, k.phys (lsR w))]
    else if 0x05 ≤ op ∧ op ≤ 0x07 then an ++ [(2, k.phys (lsR w))]
    else an
  else if op ≤ 0x10 ∨ op = 0x17 ∨ op = 0x1E then [(2, k.phys (sbD w))]
  else if op = 0x11 then [(4, sbD w % 16)]
  else if op = 0x12 then [(8, 0)]
  else if op = 0x13 then [(6, sbD w % 8)]
  else if op = 0x14 then (if sbD w % 8 = 0 then [] else [(7, sbD w % 8)])
  else if op = 0x15 then [(3, sbD w % 16)]
  else if op = 0x16 then [(5, sbD w % 8)]
  else []

/-- Whether a slot's word is an instruction in a mode: a listed opcode, held in the Cobble space in Cobble mode (column C),
CSTEP and CTURN in Cobble mode only, VLDST not with An = Ak and both MOD bits. -/
def wordLegal (cobble : Bool) (w slot : Nat) : Bool :=
  let op := slotOp w slot
  if op = 0x3F then true
  else if slot ≤ 1 then
    decide (1 ≤ op) && decide (op ≤ 0x26) && !(cobble && [0x06, 0x07, 0x0B, 0x0E, 0x0F, 0x24].contains op)
  else if slot = 2 then
    decide (1 ≤ op) && decide (op ≤ 0x0B) && !(cobble && op == 0x04) &&
    !(op == 0x03 && lsA w == lsAk w && lsMod w && lsModk w)
  else
    decide (1 ≤ op) && decide (op ≤ 0x29) && !(cobble && (op == 0x1E || op == 0x1F)) &&
    !(!cobble && (op == 0x22 || op == 0x24))

/-- Whether two MAC slots are a .L and a .H form that may write one accumulator (R130). -/
def halvesPair (a b : Nat) : Bool :=
  ([0x04, 0x06].contains a && [0x05, 0x07].contains b) || ([0x05, 0x07].contains a && [0x04, 0x06].contains b)

/-- Whether slot `j` writes a register that an earlier slot `i` writes, against R130. -/
def Core.slotsClash (k : Core) (b i j : Nat) : Bool :=
  let wi := slotWord b i
  let wj := slotWord b j
  (k.slotWrites wj j).any (fun r => (k.slotWrites wi i).contains r) &&
  !(j == 1 && halvesPair (slotOp wi 0) (slotOp wj 1))

/-- The slot for which a bundle is ILLEGAL, the lowest that is (R141), or none. -/
def Core.illegalSlot (k : Core) (b : Nat) : Option Nat :=
  (List.range 4).find? (fun j => !wordLegal k.cobble (slotWord b j) j || (List.range j).any (fun i => k.slotsClash b i j))

/-- Instructions that may not follow REP (R113): branches, REP, CSTEP, CTURN, TAKE, DONE, FENCE, CMUQ, CMUW, TRAP. -/
def repForbids (b : Nat) : Bool :=
  slotOp (slotWord b 2) 2 == 0x0A ||
  (let op := slotOp (slotWord b 3) 3
   (decide (0x19 ≤ op) && decide (op ≤ 0x29)))

end Sys2Proof.Machine
end

