-- ==== Sys2Proof/Machine/TimeOps.lean ====
section
/-! DEFINITION. Time bases (R356, R357), the frame grid (R360), DLCLK and TCNT (R179, R400), and the level of the TDD_OUT
pins (R368). A stamp is a count of 2^-16 ns. -/
namespace Sys2Proof.Machine

/-- Tc in one second. -/
def tcSecond : Nat := 1966080000

/-- Stamp units in one second. -/
def stampSecond : Nat := 65536000000000

def State.tb (s : State) (n : Nat) : TimeBase := tget TimeBase.reset s.time.tbs n

def State.setTb (s : State) (n : Nat) (b : TimeBase) : State :=
  { s with time := { s.time with tbs := tset TimeBase.reset s.time.tbs n b } }

/-- Whether the timing PLL has locked: the time bases run (R356). -/
def State.timeRuns (s : State) : Bool := s.bit Reg.SYS.RAISE_STATUS_TIMING_LOCK 0

/-- The shown time as a stamp: seconds, ns and the 16-bit fraction. -/
def TimeBase.stamp (b : TimeBase) : Nat := b.sec.toNat * stampSecond + b.ns * 65536 + b.frac.toNat / 2 ^ 32

/-- Truncated Tc of a stamp (R360). -/
def stampTc (x : Nat) : Nat := x * 3 / 100000

def TimeBase.tc (b : TimeBase) : Nat := stampTc b.stamp

/-- The smallest stamp whose truncated Tc is `k` (R359). -/
def tcStamp (k : Nat) : Nat := (k * 100000 + 2) / 3

/-- A time base advanced by a count of 2^-48 ns. -/
def TimeBase.advance (b : TimeBase) (x : Nat) : TimeBase :=
  let f := b.frac.toNat + x
  let n := b.ns + f / 2 ^ 48
  { b with frac := BitVec.ofNat 48 f, ns := n % 10 ^ 9, sec := b.sec + BitVec.ofNat 48 (n / 10 ^ 9) }

/-- Divisor of the exact increment: 8 Tc × (1 + FREQ × 2^-10 ppb) is a whole number of 2^-48 ns over it. -/
def incDiv : Nat := 3 * 10 ^ 9 * 2 ^ 10

/-- `k` TIME cycles of a time base whose increment is steered by `f` (2^-10 ppb; 0 for TB_0), R357. -/
def TimeBase.cycles (b : TimeBase) (k : Nat) (f : Int) : TimeBase :=
  let x := (800000 * 2 ^ 32 * k * ((10 ^ 9 * 2 ^ 10 : Int) + f)).toNat + b.rem
  { b.advance (x / incDiv) with rem := x % incDiv }

/-- FREQ of a servo in 2^-10 ppb, signed. -/
def State.servoFreq (s : State) (n : Nat) : Int := signedOf 32 (s.fld Reg.TB.SERVO_FREQ_FREQ n)

/-- TIME cycles in one REF cycle of 10 ns are 2.4576 × (1 + FREQ of TB_0): the divisor of the phase kept. -/
def phaseDiv : Nat := 625 * 10 ^ 9 * 2 ^ 10

/-- One REF cycle of time: the TIME cycles that fall in it advance the time bases, DLCLK and TCNT. -/
def State.timeTick (s : State) : State :=
  if s.timeRuns then
    let p := s.time.phase + (1536 * ((10 ^ 9 * 2 ^ 10 : Int) + s.servoFreq 0)).toNat
    let k := p / phaseDiv
    let s := { s with time := { s.time with phase := p % phaseDiv, tcnt := s.time.tcnt + BitVec.ofNat 64 k } }
    let s := { s with disp := { s.disp with dlclk := (s.disp.dlclk + 8 * k) % 2 ^ 64 } }
    (List.range 4).foldl (fun s n => s.setTb n ((s.tb n).cycles k (if n = 0 then 0 else s.servoFreq n))) s
  else s

/-- Seconds and Tc of a time base as deadlines read them (R179). -/
def State.secTc (s : State) (n : Nat) : Nat × Nat :=
  let x := (s.tb n).stamp
  (x / stampSecond, stampTc (x % stampSecond))

/-! ## The frame grid (R360) -/

/-- Start of normal-CP symbol `l` of a subframe. -/
def symStart (mu l : Nat) : Nat := l * 140288 / 2 ^ mu + 1024 * ((l + 7 * 2 ^ mu - 1) / (7 * 2 ^ mu))

/-- Start of extended-CP symbol `l` of a subframe. -/
def symStartExt (mu l : Nat) : Nat := l * 163840 / 2 ^ mu

def startOf (mu : Nat) (ext : Bool) (l : Nat) : Nat := if ext then symStartExt mu l else symStart mu l

def slotSymbols (ext : Bool) : Nat := if ext then 12 else 14

/-- The symbol in force at `q` Tc into a subframe. -/
def symbolAt (mu : Nat) (ext : Bool) (q : Nat) : Nat :=
  ((List.range (slotSymbols ext * 2 ^ mu)).filter (fun l => decide (startOf mu ext l ≤ q))).length - 1

/-- Frames, subframe, and symbol of the subframe at a grid time `u` (Tc, signed), with the Tc since its start and until its
end. -/
structure GridAt where
  frame : Int
  subframe : Nat
  l : Nat
  since : Nat
  left : Nat
deriving DecidableEq, Repr

def gridAt (mu : Nat) (ext : Bool) (u : Int) : GridAt :=
  let r := (u % 19660800).toNat
  let q := r % 1966080
  let l := symbolAt mu ext q
  ⟨u / 19660800, r / 1966080, l, q - startOf mu ext l, startOf mu ext (l + 1) - q⟩

/-- MU as it acts. -/
def muOf (m : Nat) : Nat := min 3 m

/-- The symbol-number encoding of "Stream Channels": [3:0] symbol, [10:4] slot in frame, [20:11] SFN. -/
def symCode (mu : Nat) (ext : Bool) (sfnOffset : Nat) (g : GridAt) : Nat :=
  let n := slotSymbols ext
  g.l % n + (g.subframe * 2 ^ mu + g.l / n) * 2 ^ 4 + ((g.frame + sfnOffset) % 1024).toNat * 2 ^ 11

/-- Grid time of a time base: t − FRAME_OFFSET. -/
def State.gridTime (s : State) (n : Nat) : Int :=
  ((s.tb n).tc : Int) - signedOf 32 (s.fld Reg.TB.FRAME_OFFSET_FRAME_OFFSET n)

/-- GRID0–GRID3: the normal-CP grid of a MU; 0 before TIMING_LOCK (R356). -/
def State.gridWord (s : State) (n mu : Nat) : Word :=
  if s.timeRuns then
    let g := gridAt mu false (s.gridTime n)
    BitVec.ofNat 32 (symCode mu false (s.fld Reg.TB.GRID_CFG_SFN_OFFSET n) g + 2 ^ 21 * g.subframe)
  else 0

/-! ## TDD_OUT pins (R368) -/

def State.pin (s : State) (p : Nat) : TddPin := tget TddPin.reset s.time.pins p

def State.setPin (s : State) (p : Nat) (x : TddPin) : State :=
  { s with time := { s.time with pins := tset TddPin.reset s.time.pins p x } }

def State.strm (s : State) (c : Nat) : Strm := tget Strm.reset s.streams.ch c

def State.setStrm (s : State) (c : Nat) (x : Strm) : State :=
  { s with streams := { s.streams with ch := tset Strm.reset s.streams.ch c x } }

/-- Class and instance of a stream channel by requester number (R81). -/
def strmUnit (c : Nat) : Nat × Nat := if c < 512 then (0x08, c) else (0x09, c - 512)

/-- A field of a channel as in effect (R89). -/
def State.sfld (s : State) (c : Nat) (f : Field) : Nat :=
  let (cls, inst) := strmUnit c
  wordField (tget (resetWord cls inst f.off) (s.strm c).eff f.off) f.msb f.lsb

def State.sbit (s : State) (c : Nat) (f : Field) : Bool := s.sfld c f != 0

/-- Whether some STRM_TX channel's PA-enable names a pin (R87). -/
def State.paOnPin (s : State) (p : Nat) : Bool :=
  (s.streams.ch.filter (fun e => decide (512 ≤ e.1))).any (fun e =>
    s.bit Reg.STRM_TX.STATUS_PA_ON (e.1 - 512) && s.sbit e.1 Reg.STRM_TX.PA_OUT_PIN_EN &&
      s.sfld e.1 Reg.STRM_TX.PA_OUT_PIN == p)

/-- L of a pin, before INVERT: SCHED or a PA-enable. -/
def State.pinLevel (s : State) (p : Nat) : Bool := (s.pin p).sched || s.paOnPin p

/-- TDD_OUT.STATUS follows the pin: low in Footing and Bedding, QUIET_LEVEL while quiet, else L XOR INVERT. -/
def State.syncPin (s : State) (p : Nat) : State :=
  let l := s.pinLevel p
  let q := s.bit Reg.TDD_OUT.STATUS_QUIET p
  let driven := if s.modes.mode = .footing ∨ s.modes.mode = .bedding then false
    else if q then s.bit Reg.TDD_OUT.CTL_QUIET_LEVEL p else xor l (s.bit Reg.TDD_OUT.CTL_INVERT p)
  ((s.setFld Reg.TDD_OUT.STATUS_QUEUED p (s.pin p).queue.length).setFld Reg.TDD_OUT.STATUS_LEVEL p (b2n l)).setFld
    Reg.TDD_OUT.STATUS_PIN p (b2n driven)

/-- Whether the mode holds transmit outputs quiet (R55, R57, R368): in Raising, Witness and Banked, and from the acceptance of
a transition into Witness; a transition out of Witness ends it. -/
def State.quietMode (s : State) : Bool :=
  match s.modes.target with
  | some .witness => true
  | some .thrift | some .service => s.modes.mode == .raising || s.modes.mode == .banked
  | _ =>
    let m := s.actsAs
    m == .raising || m == .witness || m == .banked || m == .footing || m == .bedding

/-- Every pin quiet at once, as Raising and Banked hold them. -/
def State.quietPins (s : State) : State :=
  (List.range 16).foldl (fun s p => (s.setFld Reg.TDD_OUT.STATUS_QUIET p 1).syncPin p) s

/-! ## Edge entries (R369) -/

/-- Time of a pin's time base, less OFFSET, in Tc. -/
def State.pinTime (s : State) (p : Nat) : Int :=
  ((s.tb (s.fld Reg.TDD_OUT.CTL_TB p)).tc : Int) - signedOf 32 (s.fld Reg.TDD_OUT.OFFSET_OFFSET p)

/-- An entry after it has fired at a time `now`, with the occurrences skipped: none when it is used up. -/
def Edge.fired (e : Edge) (now : Int) : Option Edge × Nat :=
  if e.period = 0 then (none, 0)
  else
    let p : Int := max 8 e.period
    let k := if e.t + p ≤ now then ((now - e.t) / p).toNat else 0
    (if e.count = 1 then none else some { e with t := e.t + p * (k + 1), count := e.count - 1 }, k)

/-- Every entry of a pin that is due fires, in time order and then push order; skipped repeats count in MISSED. -/
def State.fireEdges (s : State) (p : Nat) : State :=
  if s.timeRuns then
    let now := s.pinTime p
    let x := s.pin p
    let due := (x.queue.filter (fun e => decide (e.t ≤ now))).insertionSort (fun a b => a.t ≤ b.t)
    if due.isEmpty then s
    else
      let sched := (due.getLast?.map (·.level)).getD x.sched
      let missed := (due.map (fun e => (e.fired now).2)).sum
      let queue := x.queue.filterMap (fun e => if e.t ≤ now then (e.fired now).1 else some e)
      let s := s.setPin p { x with queue := queue, sched := sched }
      let s := if 0 < missed then
          (s.addFld Reg.TDD_OUT.MISSED_COUNT p missed).post 0x62 p 0x002 1 (min allOnes32 missed) else s
      s.syncPin p
  else s

/-- A push (R369): the entry formed from the registers as they stand; dropped, counted and journalled when the queue holds
16. Seconds above bit 31 are those of the time base. -/
def State.pushEdge (s : State) (p : Nat) (level : Bool) : State :=
  let x := s.pin p
  if 16 ≤ x.queue.length then (s.addFld Reg.TDD_OUT.DROPS_COUNT p 1).post 0x62 p 0x001 2 0
  else
    let hi := (s.tb (s.fld Reg.TDD_OUT.CTL_TB p)).sec.toNat / 2 ^ 32
    let sec := s.fld Reg.TDD_OUT.EDGE_SEC_SEC p + 2 ^ 32 * hi
    let e : Edge := ⟨(sec * tcSecond + s.fld Reg.TDD_OUT.EDGE_TC_TC p : Nat), level,
      s.fld Reg.TDD_OUT.EDGE_PERIOD_PERIOD p, s.fld Reg.TDD_OUT.EDGE_COUNT_COUNT p⟩
    ((s.setPin p { x with queue := x.queue ++ [e] }).syncPin p).fireEdges p

/-- The first tick of TB_0 from which an output that the mode held quiet may start: 64 SAMP cycles after the mode stopped
holding it (R57, R368). -/
def State.quietOver (s : State) : Bool := decide (s.time.quietEnd + 256 ≤ s.disp.dlclk)

/-! ## Tally periods (R200) -/

/-- Nominal tally period in µs by PERIOD code. -/
def periodUs (code : Nat) : Nat := [125, 250, 500, 1000, 2000, 5000, 10000].getD (min 6 code) 10000

/-- Its length in Tc. -/
def periodTc (code : Nat) : Nat := periodUs code * 196608 / 100

/-- Tc of a frame. -/
def frameTc : Nat := 19660800

/-- A new period starts at a grid time of TB_0 and ends at `stop`; a new PERIOD code takes effect where that is a frame start. -/
def State.periodStarts (s : State) (at_ : Int) (stop : Nat → Int) : State :=
  let code := s.fld Reg.LEDGER.CTL_PERIOD 0
  let s := if at_ % (frameTc : Int) = 0 ∧ code ≠ s.ledger.periodNow then
      ({ s with ledger := { s.ledger with periodNow := code } }).post 0x28 0 0x002 0 code else s
  let e := stop (periodTc s.ledger.periodNow)
  { s with ledger := { s.ledger with periodEnd := some e, periodLen := 625 * (e - at_).toNat } }

/-- The next grid point after a grid time. -/
def nextGrid (u : Int) (len : Nat) : Int := (u / len + 1) * len

/-- The first grid point at or after a grid time. -/
def thisGrid (u : Int) (len : Nat) : Int := -(-u / len) * len

/-- A period that has come to its end on the grid of TB_0, or on DEVCLK before TB_0 runs: its actual and nominal length, and the next
one begun. -/
def State.periodOver (s : State) : Option (Nat × Nat × State) :=
  let nominal := 625 * periodTc s.ledger.periodNow
  match s.ledger.periodEnd with
  | none =>
    if s.ledger.periodFrom + 100000 ≤ s.devclk.toNat then
      some (nominal, nominal, { s with ledger := { s.ledger with periodFrom := s.ledger.periodFrom + 100000 } })
    else none
  | some e =>
    if e ≤ s.gridTime 0 then some (s.ledger.periodLen, nominal, s.periodStarts e (fun len => e + len)) else none

/-- Periods that have come to their end join those to be closed. -/
def State.periodsOver : Nat → State → State
  | 0, s => s
  | n + 1, s => match s.periodOver with
    | some (a, m, s) => State.periodsOver n { s with ledger := { s.ledger with closes := s.ledger.closes ++ [(a, m)] } }
    | none => s

/-- What of the period in progress has passed, in 1/625 Tc; a REF cycle of 10 ns is 12,288 of them. -/
def State.periodPassed (s : State) : Nat :=
  match s.ledger.periodEnd with
  | none => 12288 * (s.devclk.toNat - s.ledger.periodFrom)
  | some e => ((s.ledger.periodLen : Int) - 625 * (e - s.gridTime 0)).toNat

/-- TB_0 starts (R200): the period in progress runs until the first grid point at or after now. -/
def State.periodLocked (s : State) : State :=
  let u := s.gridTime 0
  let e := thisGrid u (periodTc s.ledger.periodNow)
  { s with ledger := { s.ledger with periodEnd := some e, periodLen := s.periodPassed + 625 * (e - u).toNat } }

/-- TB_0 stepped: the period in progress, of which `passed` has passed, is closed at the step, and the next one runs to the next grid
point of the stepped time base. -/
def State.periodStepped (s : State) (passed : Nat) : State :=
  let s := { s with ledger := { s.ledger with closes := s.ledger.closes ++ [(passed, 625 * periodTc s.ledger.periodNow)] } }
  s.periodStarts (s.gridTime 0) (nextGrid (s.gridTime 0))

/-- The grid of TB_0 moved by FRAME_OFFSET: the period in progress runs on to the first grid point at or after now. DESIGN CHOICE (log
entry 20). -/
def State.periodMoved (s : State) (passed : Nat) : State :=
  let u := s.gridTime 0
  let e := thisGrid u (periodTc s.ledger.periodNow)
  { s with ledger := { s.ledger with periodEnd := some e, periodLen := passed + 625 * (e - u).toNat } }

end Sys2Proof.Machine
end

