-- ==== Sys2Proof/Machine/SettOps.lean ====
section
/-! DEFINITION. The operations of a Sett core: program fetch (R98, R101), the turn of each slot, what a slot leaves for
retirement, retirement (R108, R109, R130), REP runs (R112, R113, R138), exceptions (R119, R120, R141), task start and
end (R116-R118), sampling (R406). Outside a REP run the interlock of R131 hides every latency, so results are written
at retirement; inside a run each lands its latency later. -/
namespace Sys2Proof.Machine

/-- First address of a core's window (R16). -/
def coreBase (c : Nat) : Nat := 0x60000000 + c * 0x100000

/-- Where a data address of core `c` lies: its own local data, program memory, unmapped or CSR space, or elsewhere. -/
inductive Where | local_ | prog | bad | far
deriving DecidableEq, Repr

def State.whereIs (s : State) (c a : Nat) : Where :=
  match s.region a with
  | .sett d => if 0x80000 ≤ (a - 0x60000000) % 0x100000 then .prog else if d = c then .local_ else .far
  | .unmapped | .csr => .bad
  | _ => .far

/-- The exceptions a data access raises before it is made: MISALIGN (R107), DECODE, PROG_ACCESS (R101, R120), and inside a
REP run REP_NONLOCAL (R113). -/
def State.accessExcs (s : State) (c a size : Nat) : List CoreExc :=
  (if a % size = 0 then [] else [CoreExc.mk 0x02 2 a 0]) ++
  match s.whereIs c a with
  | .prog => [CoreExc.mk 0x06 2 a 0]
  | .bad => [CoreExc.mk 0x04 2 a 0]
  | .far => if (s.core c).rep.isSome then [CoreExc.mk 0x07 2 a 0] else []
  | .local_ => []

/-! ## Program fetch -/

/-- Where the bundle at a byte offset of a core's program memory stands. -/
def bundleAddr (c : Nat) (pc : Nat) : Nat := coreBase c + 0x80000 + pc % 0x10000

/-- The bundle at an offset as one little-endian number (R128), and whether it reads as poison. -/
def State.bundleAt (s : State) (c pc : Nat) : Nat × Bool :=
  let (_, _, o, d) := s.decodeAt (bundleAddr c pc)
  (leNat d, o.bad)

/-- The copy of a bundle that a core has prefetched. -/
def Core.aheadAt (k : Core) (pc : Nat) : Option (Nat × Bool) := (k.ahead.find? (fun x => x.1 == pc)).map Prod.snd

/-- A bundle that may have been prefetched: its copy where memory still holds the same; where a write has changed it since, R101
lets the patch be missed or take effect, by a free value. -/
def State.patched (s : State) (c pc n : Nat) : Nat × Bool :=
  let m := s.bundleAt c pc
  match (s.core c).aheadAt pc with
  | some x => if x = m ∨ Config.freeBits s.free n % 2 = 0 then m else x
  | none => m

/-- The bundle in execution at a core's PC (R101): once a slot of it has been read, and on every iteration of a REP run, as it was
fetched; a REP run repeats the bundle its REP was checked against. -/
def State.bundleNow (s : State) (c : Nat) : Nat × Bool :=
  let k := s.core c
  let pc := k.pc.toNat
  let again := k.stage.slot ≠ 0 ∨ k.rep.isSome
  match k.fetched with
  | some f => if f.1 = pc ∧ again then f.2 else if k.rep.isSome then (k.aheadAt pc).getD (s.bundleAt c pc) else s.patched c pc 0
  | none => if k.rep.isSome then (k.aheadAt pc).getD (s.bundleAt c pc) else if again then s.bundleAt c pc else s.patched c pc 0

/-- The bundle after the one in execution, as the core has prefetched it. -/
def State.bundleNext (s : State) (c : Nat) : Nat × Bool :=
  let pc := ((s.core c).pc.toNat + 16) % 0x10000
  ((s.core c).aheadAt pc).getD (s.bundleAt c pc)

/-- A bundle is fetched for execution, and up to 4 bundles after it are prefetched (R101): how many is free, which matters only for
those that a write changes. -/
def State.fetch (s : State) (c : Nat) : State :=
  let k := s.core c
  let pc := k.pc.toNat
  let at_ (i : Nat) : Nat := (pc + 16 * i) % 0x10000
  let s' := s.setCore c { k with
    fetched := some (pc, s.bundleNow c)
    ahead := if k.rep.isSome then k.ahead else [1, 2, 3, 4].map (fun i => (at_ i, s.patched c (at_ i) i)) }
  { s' with free := s.free + 1 }

/-! ## Task start (R116, R118) -/

/-- Whether a core may start a task: its Course runs, it is neither halted nor asked to halt, and CORE_EN has its bit. -/
def State.mayStart (s : State) (c : Nat) : Bool :=
  s.eligible c && !(s.core c).halted

/-- S1 at a task's start: grade, idempotent, failure mark. -/
def taskFlags (t : Task) : Word := BitVec.ofNat 32 (t.grade % 4 + 4 * b2n t.idempotent + 8 * b2n t.mark)

/-- A task begins: A0, S0, S1, the mode and ROT are set; every other register keeps its value (R105, R114). -/
def Core.begin_ (k : Core) (i : Nat) (t : Task) : Core :=
  let k := ((k.put (.a 0 t.arg)).put (.s 0 (BitVec.ofNat 32 i) 0xFFFFFFFF)).put (.s 1 (taskFlags t) 0xFFFFFFFF)
  { k with pc := BitVec.ofNat 16 (t.target.toNat / 16 * 16), cobble := t.target.toNat % 2 == 1, rot := 0,
           task := some i, lastTask := i, stage := .reset, remote := false, waiting := false, fenceHold := false,
           rep := none, ending := none, fetched := none, ahead := [] }

/-- A TAKE wait ends: its length enters TELLER's histogram. -/
def State.endTakeWait (s : State) (c : Nat) : State :=
  let t0 := tget 0 s.disp.takeSince c
  if t0 = 0 then s
  else
    let b := histBin (s.fld Reg.TELLER.HIST_CFG_UNIT c) ((s.devclk.toNat + 1 - t0) * 8)
    ({ s with disp := { s.disp with takeSince := tset 0 s.disp.takeSince c 0 } }).satFld (Reg.TELLER.HIST_BIN b) c 1

/-- TAKE with no task running: the head entry of the slot starts, or the core waits. -/
def State.takeNext (s : State) (c : Nat) : State :=
  let wait (s : State) : State :=
    if tget 0 s.disp.takeSince c = 0 then
      { s with disp := { s.disp with takeSince := tset 0 s.disp.takeSince c (s.devclk.toNat + 1) } } else s
  if s.mayStart c then
    match s.startHead c with
    | some (i, t, s) => ((s.setCore c ((s.core c).begin_ i t)).endTakeWait c).countEvent 0x11 c 0x016 1
    | none => wait s
  else wait s

/-! ## The Course matrix unit's queues (R122) -/

def State.cmu (s : State) (n : Nat) : Cmu := tget Cmu.reset s.sett.cmus n

def State.setCmu (s : State) (n : Nat) (x : Cmu) : State :=
  { s with sett := { s.sett with cmus := tset Cmu.reset s.sett.cmus n x } }

/-- Commands of core `k` of a Course queued or executing. -/
def Cmu.depth (x : Cmu) (k : Nat) : Nat :=
  (tget [] x.queues k).length + match x.cur with
    | some r => if r.core = k then 1 else 0
    | none => 0

/-- CMU.STATUS follows the queues. -/
def State.syncCmu (s : State) (n : Nat) : State :=
  let x := s.cmu n
  let d := (List.range 8).foldl (fun a k => a + x.depth k * 8 ^ k) 0
  (s.setFld Reg.CMU.STATUS_DEPTH n d).setFld Reg.CMU.STATUS_BUSY n (b2n x.cur.isSome)

/-! ## Task end (R117, R119) -/

/-- The exception registers and event of R119, R120, R127. A posted store that failed is reported in place of a cause with a
higher code (R120). -/
def State.recordExc (s : State) (c : Nat) (e : CoreExc) (left : Nat) : Nat × State :=
  let k := s.core c
  let e := match k.storeErr with
    | some a => if 0x09 < e.cause then CoreExc.mk 0x09 2 a 0 else e
    | none => e
  let s := s.setCore c { k with storeErr := none }
  let pc := if k.rep.isSome then (k.pc.toNat + 0xFFF0) % 0x10000 else k.pc.toNat
  let s := ((s.setFld Reg.SETT.EXC_CAUSE c e.cause).setFld Reg.SETT.EXC_NEW c 1).satFld Reg.SETT.EXC_COUNT c 1
  let s := (s.setFld Reg.SETT.EXC_PC_EXC_PC c pc).setPair Reg.SETT.EXC_ADDR_LO_ADDR_LO Reg.SETT.EXC_ADDR_HI_ADDR_HI c e.addr
  let s := ((s.setFld Reg.SETT.EXC_INFO_REP_LEFT c left).setFld Reg.SETT.EXC_INFO_SLOT c e.slot).setFld
    Reg.SETT.EXC_INFO_TRAP_CODE c e.trap
  let s := if e.cause = 0x08 then s.post 0x11 c 0x002 3 (pc * 256) else s.post 0x11 c 0x001 2 (e.cause + pc * 256)
  (e.cause, s)

/-- The task of a core is reported with a cause, and the core then acts as TAKE. A store of the task that failed after its exception
was recorded is reported nowhere (R120). -/
def State.reportTask (s : State) (c : Nat) (why : Cause) : State :=
  let k := s.core c
  let s := s.setCore c { k with task := none, ending := none, stage := .reset, remote := false, waiting := false,
                                fenceHold := false, rep := none, stepping := false, storeErr := none }
  let s := match k.task with
    | some i => s.report i why
    | none => s
  s.takeNext c

/-- An ending task is reported once its stores are acknowledged, and one that ended by DONE once its CMU commands have
completed as well (R117, R119): a completed command that reported ADDR raises CMU_ERR (R124), a store that failed STORE_ERR. -/
def State.tryEnd (s : State) (c : Nat) : State :=
  let k := s.core c
  match k.ending with
  | none => s
  | some e =>
    if !k.stores.isEmpty then s
    else match e with
      | .exc 0x08 => s.reportTask c .hang
      | .exc _ => s.reportTask c .task
      | .done failed =>
        let x := s.cmu (c / 8)
        if x.depth (c % 8) ≠ 0 then s
        else if tget false x.addrErr (c % 8) then
          let s := s.setCmu (c / 8) { x with addrErr := tset false x.addrErr (c % 8) false }
          (s.recordExc c ⟨0x0B, 3, 0, 0⟩ 0).2.reportTask c .task
        else if k.storeErr.isSome then
          (s.recordExc c ⟨0x09, 2, k.storeErr.getD 0, 0⟩ 0).2.reportTask c .task
        else s.reportTask c (if failed then .task else .success)

/-- A write put among others in order of landing, before those of its own cycle. -/
def landInto (x : Nat × RegWrite) : List (Nat × RegWrite) → List (Nat × RegWrite)
  | [] => [x]
  | y :: r => if x.1 ≤ y.1 then x :: y :: r else y :: landInto x r

/-- Results in flight in the order they land: by landing cycle, and by issue within a cycle (R138). -/
def inOrder (l : List (Nat × RegWrite)) : List (Nat × RegWrite) := l.foldr landInto []

/-- An exception (R119, R141): the bundle retires nothing, results of earlier iterations land, and the task is failed once its
stores are acknowledged. -/
def State.raiseExc (s : State) (c : Nat) (e : CoreExc) : State :=
  let k := s.core c
  let left := match k.rep with
    | some r => r.left
    | none => 0
  let k := match k.rep with
    | some r => k.putAll (inOrder r.flights)
    | none => k
  let (cause, s) := (s.setCore c k).recordExc c e left
  let k := s.core c
  (s.setCore c { k with ending := some (.exc cause), stage := .reset, remote := false, waiting := false, fenceHold := false,
                        rep := none }).tryEnd c

/-- The exception recorded for a bundle: the lowest cause, then the lowest slot (R141). -/
def firstExc : List CoreExc → Option CoreExc
  | [] => none
  | e :: r =>
    match firstExc r with
    | none => some e
    | some f => if f.cause < e.cause ∨ (f.cause = e.cause ∧ f.slot < e.slot) then some f else some e

/-! ## Sampling (R406) -/

/-- A record of the bundle that retires. LATENCY is a count of CORE cycles, which the model does not time: a free value. -/
def State.sampleRecord (s : State) (c pc event daddr left : Nat) (inRep : Bool) (lat : Nat) : List Word :=
  let k := s.core c
  let n := c / 8
  [BitVec.ofNat 32 (pc + 2 ^ 16 * (c % 8) + 2 ^ 19 * b2n inRep + 2 ^ 20 * b2n k.cobble + 2 ^ 21 * event),
   BitVec.ofNat 32 daddr, BitVec.ofNat 32 (daddr / 2 ^ 32 % 256 + 2 ^ 16 * k.lastTask),
   BitVec.ofNat 32 (lat + 2 ^ 16 * (left % 2 ^ 14)),
   BitVec.ofNat 32 s.time.tcnt.toNat, BitVec.ofNat 32 (s.time.tcnt.toNat / 2 ^ 32),
   BitVec.ofNat 32 (tget 0 s.observe.sampSeq n), 0]

/-- Records dropped (R406). -/
def State.sampleLost (s : State) (n : Nat) : State := (s.addFld Reg.COURSE.SAMP_LOST_COUNT n 1).countEvent 0x10 n 0x011 1

/-- A retired bundle counts the trigger of its core; at the Nth occurrence it is recorded. -/
def State.sample (s : State) (c pc : Nat) (hits : List (Nat × Nat)) (daddr left : Nat) (inRep : Bool) : State :=
  let n := c / 8
  if s.bit Reg.COURSE.SAMP_CTL_EN n ∧ bitOf (s.fld Reg.COURSE.SAMP_CTL_CORES n) (c % 8) then
    let ev := if s.fld Reg.COURSE.SAMP_CTL_MODE n = 1 then 0x010 else s.fld Reg.COURSE.SAMP_CTL_EVENT n
    -- occurrences counted in cycles are as open as the cycles are
    let (cycles, s) := if cycleEvent 0x11 ev && ev != 0x015 then s.takeFree 16 else (0, s)
    let h := ((hits.filter (fun p => p.1 == ev)).map (·.2)).sum + cycles
    let N := max 1 (s.fld Reg.COURSE.SAMP_PERIOD_N n)
    let t := tget 0 s.observe.sampCount c + h
    let s := { s with observe := { s.observe with sampCount := tset 0 s.observe.sampCount c (t % N) } }
    if t < N then s
    else
      let (lat, s) := s.takeFree 16
      let rec_ := s.sampleRecord c pc ev daddr left inRep lat
      let s := { s with observe := { s.observe with sampSeq := tset 0 s.observe.sampSeq n ((tget 0 s.observe.sampSeq n + 1) % 2 ^ 32) } }
      let buf := tget [] s.observe.sampBuf n
      if buf.length < 64 then { s with observe := { s.observe with sampBuf := tset [] s.observe.sampBuf n (buf ++ [rec_]) } }
      else s.sampleLost n
  else s

/-! ## Retirement -/

/-- The register writes that a load's data makes (R133, R136). -/
def CoreLoad.results (l : CoreLoad) (bytes : List Byte) : List RegWrite :=
  let w := leNat (bytes.take 4)
  match l.kind with
  | .vec => [.v l.dst (BitVec.ofNat 512 (leNat bytes)) (vMask l.mask)]
  | .bcast => [.v l.dst (BitVec.ofNat 512 (joinLanes 32 (List.replicate 16 (w : Int)))) (vMask l.mask)]
  | .word => [.s l.dst (BitVec.ofNat 32 w) 0xFFFFFFFF]
  | .half => [.s l.dst (BitVec.ofInt 32 (signedOf 16 w)) 0xFFFFFFFF]
  | .halfu => [.s l.dst (BitVec.ofNat 32 (w % 65536)) 0xFFFFFFFF]

/-- Stores leave the core: those to its own local data memory are made, the others are posted (R108). -/
def State.doStores (s : State) (c : Nat) (l : List (List (Nat × List Byte))) : State :=
  l.foldl (fun s runs =>
    match runs with
    | [] => s
    | (a, _) :: _ =>
      if s.whereIs c a = .local_ then runs.foldl (fun s r => s.writeMem r.1 (clean r.2)) s
      else
        let k := s.core c
        s.setCore c { k with stores := k.stores ++ [runs] }) s

/-- Results that land up to iteration `i`, and those still in flight. -/
def landed (i : Nat) (l : List (Nat × RegWrite)) : List (Nat × RegWrite) × List (Nat × RegWrite) :=
  (l.filter (fun w => decide (w.1 ≤ i)), l.filter (fun w => decide (i < w.1)))

/-- The core's registers, PC and run after a bundle with these writes (latency, write) retires. `held` says that a remote load
held its retirement, by which time its other results have landed. -/
def Core.advance (k : Core) (ws : List (Nat × RegWrite)) (act : SbAct) (held : Bool) : Core :=
  let pc (n : Nat) : BitVec 16 := BitVec.ofNat 16 n
  let p := k.pc.toNat
  match k.rep with
  | some r =>
    let fl := r.flights ++ ws.map (fun w => (r.iter + w.1, w.2))
    if r.left ≤ 1 then { k.putAll (inOrder fl) with rep := none, pc := pc (p + 16) }
    else
      let (now, later) := landed (r.iter + 1) fl
      { k.putAll now with rep := some ⟨r.left - 1, r.iter + 1, later⟩ }
  | none =>
    match act with
    | .rep 0 => { k.putAll ws with pc := pc (p + 32) }
    | .rep n =>
      let fl := ws.map (fun w => (if held then 0 else w.1 - 1, w.2))
      let (now, later) := landed 0 fl
      { k.putAll now with rep := some ⟨n, 0, later⟩, pc := pc (p + 16) }
    | .next | .fence => { k.putAll ws with pc := pc (p + 16) }
    | .branch i => { k.putAll ws with pc := pc (16 * i) }
    | .cstep => { k.putAll ws with pc := pc (p + 16), rot := k.rot + 1 }
    | .cturn i =>
      let k' := k.putAll ws
      { k' with lc := k.lc - 1, rot := k.rot + 1, pc := if k.lc - 1 = 0 then pc (p + 16) else pc (16 * i) }
    | .endTask _ => k.putAll ws

/-- The 16 words of the CMU command at an address of a core's own local data memory; at any other address R122 states no result,
and they are free. -/
def State.cmuWords (s : State) (c a : Nat) : List Word × State :=
  if s.whereIs c a = .local_ then
    let bytes : List Byte := (s.readMem a 64).1.map Prod.fst
    ((List.range 16).map (fun j => BitVec.ofNat 32 (leNat ((bytes.drop (4 * j)).take 4))), s)
  else
    let (x, s) := s.takeFree 512
    ((List.range 16).map (fun j => BitVec.ofNat 32 (x / 2 ^ (32 * j))), s)

/-- A bundle retires with the data of its load. -/
def State.retire (s : State) (c : Nat) (loaded : List RegWrite) (held : Bool) : State :=
  let k := s.core c
  let st := k.stage
  let left := match k.rep with
    | some r => r.left - 1
    | none => 0
  let ws := st.writes ++ loaded.map (fun w => (4, w))
  let k' := { k.advance ws st.act held with stage := .reset, remote := false, waiting := false }
  let k' := if k'.stepping ∧ k'.rep.isNone then { k' with stepping := false } else k'
  let s := (s.setCore c k').doStores c st.stores
  let s := match st.cmuq with
    | some a =>
      let (words, s) := s.cmuWords c a
      let x := s.cmu (c / 8)
      (s.setCmu (c / 8) { x with queues := tset [] x.queues (c % 8) (tget [] x.queues (c % 8) ++ [words]) }).syncCmu (c / 8)
    | none => s
  let s := (s.countEvent 0x11 c 0x010 1).countEvent 0x11 c 0x011 st.macs
  let s := match k.task with
    | some i => if st.macs = 0 then s else s.countAct c i 0 st.macs
    | none => s
  let s := s.sample c k.pc.toNat ([(0x010, 1), (0x011, st.macs)] ++ if held then [(0x013, 1)] else []) st.daddr left k.rep.isSome
  match st.act with
  | .fence =>
    let k := s.core c
    s.setCore c { k with fenceHold := !k.stores.isEmpty }
  | .endTask b =>
    let k := s.core c
    (s.setCore c { k with ending := some (.done b) }).tryEnd c
  | _ => s

/-- A load from the own local data memory, and the 64 bytes of a CMU command there. -/
def State.localRead (s : State) (c a n : Nat) : List (Byte × Bool) × State :=
  let (l, s) := s.readMem a n
  (l, s.took 0x11 c a l)

/-- A bundle whose command for the CMU is read as poison raises POISON; else what `go` says. -/
def State.cmuqPoison (s : State) (c a : Nat) (go : State → State) : State :=
  if s.whereIs c a = .local_ ∧ (s.readMem a 64).1.any (·.2) then
    (s.took 0x11 c a (s.readMem a 64).1).raiseExc c ⟨0x03, 2, a, 0⟩
  else go s

/-- The last slot of a bundle has been read: it retires, raises its exception, or waits for a remote load. -/
def State.finishBundle (s : State) (c : Nat) : State :=
  let k := s.core c
  let st := k.stage
  match firstExc st.excs with
  | some e => if e.cause ≤ 2 then s.raiseExc c e else
    -- POISON, and a remote load's DECODE and FENCED, have lower codes than the causes that are left (R120)
    match st.load with
    | some l =>
      match s.whereIs c l.addr with
      | .local_ =>
        let (bytes, s) := s.localRead c l.addr l.len
        s.raiseExc c (if bytes.any (·.2) then ⟨0x03, 2, l.addr, 0⟩ else e)
      | .far => if k.rep.isSome then s.raiseExc c e else (s.setCore c { k with remote := true }).countEvent 0x11 c 0x013 1
      | _ => s.raiseExc c e
    | none =>
      match st.cmuq with
      | some a => s.cmuqPoison c a (fun s => s.raiseExc c e)
      | none => s.raiseExc c e
  | none =>
    match st.load with
    | some l =>
      if s.whereIs c l.addr = .local_ then
        let (bytes, s) := s.localRead c l.addr l.len
        if bytes.any (·.2) then s.raiseExc c ⟨0x03, 2, l.addr, 0⟩
        else s.retire c (l.results (bytes.map (·.1))) false
      else (s.setCore c { k with remote := true }).countEvent 0x11 c 0x013 1
    | none =>
      match st.cmuq with
      | some a => s.cmuqPoison c a (fun s => s.retire c [] false)
      | none => s.retire c [] false

/-! ## The turn of a slot -/

/-- Whether a core may issue its next bundle: inside a REP run always; otherwise not while it is halted (unless stepping), asked
to halt, or held by FENCE (R109, R112). -/
def State.mayIssue (s : State) (c : Nat) : Bool :=
  let k := s.core c
  k.rep.isSome || (!k.fenceHold && (k.stepping || (!k.halted && !s.bit Reg.SETT.CTL_HALT_REQ c)))

/-- The bundle of a core whose turn it is at a slot: a task runs, nothing holds it, and the bundle is legal. -/
def State.slotDue (s : State) (c slot : Nat) : Option Nat :=
  let k := s.core c
  if s.running 0x11 c ∧ k.task.isSome ∧ k.ending.isNone ∧ !k.remote ∧ k.stage.slot = slot ∧ (slot ≠ 0 ∨ s.mayIssue c) then
    let (b, _) := s.bundleNow c
    if (k.illegalSlot b).isNone then some b else none
  else none

/-- What a slot leaves for retirement. -/
structure SlotOut where
  writes : List (Nat × RegWrite) := []
  load : Option CoreLoad := none
  stores : List (List (Nat × List Byte)) := []
  excs : List CoreExc := []
  act : SbAct := .next
  cmuq : Option Nat := none
  macs : Nat := 0
  daddr : Nat := 0

/-- A slot's part joined to the bundle in execution. SATCLR of the SB slot comes before what other slots set: flag results of one
bundle are ORed (R130). -/
def Stage.add (st : Stage) (o : SlotOut) (slot : Nat) : Stage :=
  { slot := slot + 1, writes := if slot = 3 then o.writes ++ st.writes else st.writes ++ o.writes, load := if slot = 2 then o.load else st.load,
    stores := st.stores ++ o.stores, excs := st.excs ++ o.excs, act := if slot = 3 then o.act else st.act,
    cmuq := if slot = 2 then o.cmuq else st.cmuq, macs := st.macs + o.macs, daddr := if slot = 2 then o.daddr else st.daddr }

/-- A slot has been read; the first to be read fetches the bundle. -/
def State.stageSlot (s : State) (c slot : Nat) (o : SlotOut) : State :=
  let s := if slot = 0 then s.fetch c else s
  let k := s.core c
  s.setCore c { k with stage := k.stage.add o slot, waiting := false }

/-- A MAC slot's turn with opcode `op`. A bundle that reads as poison raises POISON at its issue (R120). -/
def State.macOp (s : State) (c m op : Nat) (f : Core → Nat → SlotOut) : State :=
  match s.slotDue c m with
  | none => s
  | some b =>
    let w := slotWord b m
    if slotOp w m ≠ op then s
    else if m = 0 ∧ (s.bundleNow c).2 then
      (s.countEvent 0x11 c 0x004 1).raiseExc c ⟨0x03, 0, bundleAddr c (s.core c).pc.toNat, 0⟩
    else s.stageSlot c m (f (s.core c) w)

/-- The LS slot's turn with opcode `op`. -/
def State.lsOp (s : State) (c op : Nat) (f : Core → Nat → SlotOut) : State :=
  match s.slotDue c 2 with
  | none => s
  | some b =>
    let w := slotWord b 2
    if slotOp w 2 = op then s.stageSlot c 2 (f (s.core c) w) else s

/-- The SB slot's turn with opcode `op`: its part joins the bundle, which then retires. -/
def State.sbOp (s : State) (c op : Nat) (f : Core → Nat → SlotOut) : State :=
  match s.slotDue c 3 with
  | none => s
  | some b =>
    let w := slotWord b 3
    if slotOp w 3 = op then (s.stageSlot c 3 (f (s.core c) w)).finishBundle c else s

end Sys2Proof.Machine
end

