-- ==== Sys2Proof/Machine/SettScalar.lean ====
section
/-! DEFINITION. The load/store slot (R136) and the scalar/branch slot (R137) of a Sett core: one meaning per instruction. -/
namespace Sys2Proof.Machine

/-! ## Load/store forms -/

/-- A load of `size` bytes at An. -/
def loadForm (s : State) (c : Nat) (k : Core) (w size : Nat) (kind : LoadKind) (dst : Nat) (mask : Word) : SlotOut :=
  let a := (k.rA (lsA w)).toNat
  { writes := k.postWrite (lsMod w) (lsA w) (lsM w), load := some ⟨a, size, kind, dst, mask⟩,
    excs := s.accessExcs c a size, daddr := a }

/-- A store of runs of bytes at An. -/
def storeForm (s : State) (c : Nat) (k : Core) (w size : Nat) (runs : List (Nat × List Byte)) : SlotOut :=
  let a := (k.rA (lsA w)).toNat
  { writes := k.postWrite (lsMod w) (lsA w) (lsM w), stores := [runs], excs := s.accessExcs c a size, daddr := a }

/-- VLD: 64-byte load, merged under P. -/
def execVld (core : Fin 192) (s : State) : Host.Outcome State Fault Refusal :=
  .next (s.lsOp core 0x01 (fun k w => loadForm s core k w 64 .vec (k.phys (lsR w)) (k.rP (lsP w))))

/-- VST: 64-byte store of the lanes selected by P. -/
def execVst (core : Fin 192) (s : State) : Host.Outcome State Fault Refusal :=
  .next (s.lsOp core 0x02 (fun k w =>
    storeForm s core k w 64 (storeRuns (k.rA (lsA w)).toNat (k.rV (lsR w)) (k.rP (lsP w)))))

/-- VLDST: one load and one store, both addresses from the old registers; P predicates the store only; the faults of both are
checked before either access. -/
def execVldst (core : Fin 192) (s : State) : Host.Outcome State Fault Refusal :=
  .next (s.lsOp core 0x03 (fun k w =>
    let o := loadForm s core k w 64 .vec (k.phys (lsR w)) 0xFFFFFFFF
    let a := (k.rA (lsAk w)).toNat
    { o with
      writes := o.writes ++ k.postWrite (lsModk w) (lsAk w) (lsMj w)
      stores := [storeRuns a (k.rV (lsVs w)) (k.rP (lsPk w))]
      excs := o.excs ++ s.accessExcs core a 64 }))

/-- VLDBC: 4-byte load to every int32 element, merged under P. -/
def execVldbc (core : Fin 192) (s : State) : Host.Outcome State Fault Refusal :=
  .next (s.lsOp core 0x04 (fun k w => loadForm s core k w 4 .bcast (k.phys (lsR w)) (k.rP (lsP w))))

def execLdw (core : Fin 192) (s : State) : Host.Outcome State Fault Refusal :=
  .next (s.lsOp core 0x05 (fun k w => loadForm s core k w 4 .word (k.phys (lsR w)) 0))

def execLdh (core : Fin 192) (s : State) : Host.Outcome State Fault Refusal :=
  .next (s.lsOp core 0x06 (fun k w => loadForm s core k w 2 .half (k.phys (lsR w)) 0))

def execLdhu (core : Fin 192) (s : State) : Host.Outcome State Fault Refusal :=
  .next (s.lsOp core 0x07 (fun k w => loadForm s core k w 2 .halfu (k.phys (lsR w)) 0))

def execStw (core : Fin 192) (s : State) : Host.Outcome State Fault Refusal :=
  .next (s.lsOp core 0x08 (fun k w =>
    storeForm s core k w 4 [((k.rA (lsA w)).toNat, leBytes 4 (k.rS (lsR w)).toNat)]))

/-- STH: store of Ss[15:0]. -/
def execSth (core : Fin 192) (s : State) : Host.Outcome State Fault Refusal :=
  .next (s.lsOp core 0x09 (fun k w =>
    storeForm s core k w 2 [((k.rA (lsA w)).toNat, leBytes 2 (k.rS (lsR w)).toNat)]))

/-- Whether a core's turn is the LS slot with opcode `op`; the slot's word. -/
def State.lsTurn (s : State) (c op : Nat) : Option Nat :=
  match s.slotDue c 2 with
  | none => none
  | some b => if slotOp (slotWord b 2) 2 = op then some (slotWord b 2) else none

/-- CMUQ (R122): the 64-byte command at An goes to the core's CMU queue; it stalls while the queue is full. An address outside
the core's own local data memory, of which R122 states no result, gives a free command. -/
def execCmuq (core : Fin 192) (s : State) : Host.Outcome State Fault Refusal :=
  match s.lsTurn core 0x0A with
  | none => .next s
  | some w =>
    let k := s.core core
    let a := (k.rA (lsA w)).toNat
    let excs := s.accessExcs core a 64
    if excs.isEmpty ∧ 4 ≤ (s.cmu (core.val / 8)).depth (core.val % 8) then .next (s.setCore core { k with waiting := true })
    else .next (s.stageSlot core 2 { writes := k.postWrite (lsMod w) (lsA w) (lsM w), excs := excs, cmuq := some a, daddr := a })

/-- AADD: post-modify only; MOD is ignored. -/
def execAadd (core : Fin 192) (s : State) : Host.Outcome State Fault Refusal :=
  .next (s.lsOp core 0x0B (fun k w => { writes := k.postWrite true (lsA w) (lsM w) }))

def execLnop (core : Fin 192) (s : State) : Host.Outcome State Fault Refusal :=
  .next (s.lsOp core 0x3F (fun _ _ => {}))

/-! ## Scalar forms -/

/-- Sd = x. -/
def scalarOut (k : Core) (w lat : Nat) (x : Word) : SlotOut := { writes := [(lat, .s (k.phys (sbD w)) x 0xFFFFFFFF)] }

/-- Sd = Sa op Sb. -/
def scalar2 (k : Core) (w lat : Nat) (f : Word → Word → Word) : SlotOut :=
  scalarOut k w lat (f (k.rS (sbA w)) (k.rS (sbB w)))

/-- The shift count of R137: Sb[4:0]. -/
def shiftCount (b : Word) : Nat := b.toNat % 32

def execSadd (core : Fin 192) (s : State) : Host.Outcome State Fault Refusal :=
  .next (s.sbOp core 0x01 (fun k w => scalar2 k w 1 (fun a b => a + b)))

def execSsub (core : Fin 192) (s : State) : Host.Outcome State Fault Refusal :=
  .next (s.sbOp core 0x02 (fun k w => scalar2 k w 1 (fun a b => a - b)))

def execSmul (core : Fin 192) (s : State) : Host.Outcome State Fault Refusal :=
  .next (s.sbOp core 0x03 (fun k w => scalar2 k w 2 (fun a b => a * b)))

def execSand (core : Fin 192) (s : State) : Host.Outcome State Fault Refusal :=
  .next (s.sbOp core 0x04 (fun k w => scalar2 k w 1 (fun a b => a &&& b)))

def execSor (core : Fin 192) (s : State) : Host.Outcome State Fault Refusal :=
  .next (s.sbOp core 0x05 (fun k w => scalar2 k w 1 (fun a b => a ||| b)))

def execSxor (core : Fin 192) (s : State) : Host.Outcome State Fault Refusal :=
  .next (s.sbOp core 0x06 (fun k w => scalar2 k w 1 (fun a b => a ^^^ b)))

def execSshl (core : Fin 192) (s : State) : Host.Outcome State Fault Refusal :=
  .next (s.sbOp core 0x07 (fun k w => scalar2 k w 1 (fun a b => a <<< shiftCount b)))

def execSshr (core : Fin 192) (s : State) : Host.Outcome State Fault Refusal :=
  .next (s.sbOp core 0x08 (fun k w => scalar2 k w 1 (fun a b => a.sshiftRight (shiftCount b))))

def execSshru (core : Fin 192) (s : State) : Host.Outcome State Fault Refusal :=
  .next (s.sbOp core 0x09 (fun k w => scalar2 k w 1 (fun a b => a >>> shiftCount b)))

def execSslt (core : Fin 192) (s : State) : Host.Outcome State Fault Refusal :=
  .next (s.sbOp core 0x0A (fun k w => scalar2 k w 1 (fun a b => if a.slt b then 1 else 0)))

def execSsltu (core : Fin 192) (s : State) : Host.Outcome State Fault Refusal :=
  .next (s.sbOp core 0x0B (fun k w => scalar2 k w 1 (fun a b => if a.ult b then 1 else 0)))

def execSmin (core : Fin 192) (s : State) : Host.Outcome State Fault Refusal :=
  .next (s.sbOp core 0x0C (fun k w => scalar2 k w 1 (fun a b => if a.slt b then a else b)))

def execSmax (core : Fin 192) (s : State) : Host.Outcome State Fault Refusal :=
  .next (s.sbOp core 0x0D (fun k w => scalar2 k w 1 (fun a b => if a.slt b then b else a)))

/-- SADDI: [11:0] is a signed imm12. -/
def execSaddi (core : Fin 192) (s : State) : Host.Outcome State Fault Refusal :=
  .next (s.sbOp core 0x0E (fun k w => scalarOut k w 1 (k.rS (sbA w) + (BitVec.ofNat 12 w).signExtend 32)))

/-- SMOVI: [15:0] sign-extended. -/
def execSmovi (core : Fin 192) (s : State) : Host.Outcome State Fault Refusal :=
  .next (s.sbOp core 0x0F (fun k w => scalarOut k w 1 ((BitVec.ofNat 16 w).signExtend 32)))

/-- SMOVHI: Sd[31:16] = [15:0]; Sd[15:0] kept. -/
def execSmovhi (core : Fin 192) (s : State) : Host.Outcome State Fault Refusal :=
  .next (s.sbOp core 0x10 (fun k w =>
    { writes := [(1, .s (k.phys (sbD w)) (BitVec.ofNat 32 (2 ^ 16 * bits w 15 0)) 0xFFFF0000)] }))

/-! ## Moves -/

def execMovm (core : Fin 192) (s : State) : Host.Outcome State Fault Refusal :=
  .next (s.sbOp core 0x11 (fun k w => { writes := [(1, .m (sbD w % 16) (k.rS (sbA w)))] }))

def execMovlc (core : Fin 192) (s : State) : Host.Outcome State Fault Refusal :=
  .next (s.sbOp core 0x12 (fun k w => { writes := [(1, .lc (k.rS (sbA w)))] }))

/-- MOVL: L = Sa[23:0]. -/
def execMovl (core : Fin 192) (s : State) : Host.Outcome State Fault Refusal :=
  .next (s.sbOp core 0x13 (fun k w => { writes := [(1, .l (sbD w % 8) ((k.rS (sbA w)).truncate 24))] }))

def execMovp (core : Fin 192) (s : State) : Host.Outcome State Fault Refusal :=
  .next (s.sbOp core 0x14 (fun k w => { writes := [(1, .p (sbD w % 8) (k.rS (sbA w)) 0xFFFFFFFF)] }))

/-- Sb[7:0] × 2^32 + Sa. -/
def pairAddr (k : Core) (w : Nat) : BitVec 40 := BitVec.ofNat 40 (2 ^ 32 * (k.rS (sbB w)).toNat + (k.rS (sbA w)).toNat)

def execMova (core : Fin 192) (s : State) : Host.Outcome State Fault Refusal :=
  .next (s.sbOp core 0x15 (fun k w => { writes := [(1, .a (sbD w % 16) (pairAddr k w))] }))

def execMovb (core : Fin 192) (s : State) : Host.Outcome State Fault Refusal :=
  .next (s.sbOp core 0x16 (fun k w => { writes := [(1, .b (sbD w % 8) (pairAddr k w))] }))

/-- What MOVS reads: by source class [11:8], at source index [16:12]; a source index of 16-31 is rotated as R139 says. -/
def movsRead (k : Core) (w : Nat) : Word :=
  let n := k.phys (sbA w)
  let c := bits w 11 8
  if c = 0 then k.rM n
  else if c = 1 then k.lc
  else if c = 2 then (k.rL n).zeroExtend 32
  else if c = 3 then k.rP n
  else if c = 4 then (k.rA n).truncate 32
  else if c = 5 then BitVec.ofNat 32 ((k.rA n).toNat / 2 ^ 32)
  else if c = 6 then (k.rB n).truncate 32
  else if c = 7 then BitVec.ofNat 32 ((k.rB n).toNat / 2 ^ 32)
  else if c = 8 then BitVec.ofNat 32 (k.ov.toNat + 256 * b2n k.sat)
  else if c = 9 then k.rot.zeroExtend 32
  else 0

def execMovs (core : Fin 192) (s : State) : Host.Outcome State Fault Refusal :=
  .next (s.sbOp core 0x17 (fun k w => scalarOut k w 1 (movsRead k w)))

/-- SATCLR: SAT = 0. -/
def execSatclr (core : Fin 192) (s : State) : Host.Outcome State Fault Refusal :=
  .next (s.sbOp core 0x18 (fun _ _ => { writes := [(3, .sat false)] }))

/-! ## Branches (R132) -/

/-- A compare branch: Sa in [21:17], Sb in [16:12]. -/
def compareBranch (k : Core) (w : Nat) (f : Word → Word → Bool) : SlotOut :=
  { act := if f (k.rS (sbD w)) (k.rS (sbA w)) then .branch (sbTarget w) else .next }

def execBeq (core : Fin 192) (s : State) : Host.Outcome State Fault Refusal :=
  .next (s.sbOp core 0x19 (fun k w => compareBranch k w (fun a b => a == b)))

def execBne (core : Fin 192) (s : State) : Host.Outcome State Fault Refusal :=
  .next (s.sbOp core 0x1A (fun k w => compareBranch k w (fun a b => a != b)))

def execBlt (core : Fin 192) (s : State) : Host.Outcome State Fault Refusal :=
  .next (s.sbOp core 0x1B (fun k w => compareBranch k w (fun a b => a.slt b)))

def execBge (core : Fin 192) (s : State) : Host.Outcome State Fault Refusal :=
  .next (s.sbOp core 0x1C (fun k w => compareBranch k w (fun a b => !a.slt b)))

def execJ (core : Fin 192) (s : State) : Host.Outcome State Fault Refusal :=
  .next (s.sbOp core 0x1D (fun _ w => { act := .branch (sbTarget w) }))

/-- JAL: Sd = byte offset of the next bundle. -/
def execJal (core : Fin 192) (s : State) : Host.Outcome State Fault Refusal :=
  .next (s.sbOp core 0x1E (fun k w =>
    { scalarOut k w 1 (BitVec.ofNat 32 ((k.pc.toNat + 16) % 0x10000)) with act := .branch (sbTarget w) }))

/-- JR: branch to bundle Sa[15:4]. -/
def execJr (core : Fin 192) (s : State) : Host.Outcome State Fault Refusal :=
  .next (s.sbOp core 0x1F (fun k w => { act := .branch (bits (k.rS (sbA w)).toNat 15 4) }))

/-- BPANY: Pp in [21:19]. -/
def execBpany (core : Fin 192) (s : State) : Host.Outcome State Fault Refusal :=
  .next (s.sbOp core 0x20 (fun k w => { act := if k.rP (bits w 21 19) ≠ 0 then .branch (sbTarget w) else .next }))

def execBpnone (core : Fin 192) (s : State) : Host.Outcome State Fault Refusal :=
  .next (s.sbOp core 0x21 (fun k w => { act := if k.rP (bits w 21 19) = 0 then .branch (sbTarget w) else .next }))

/-- CSTEP: ROT advances by 1 (R115). -/
def execCstep (core : Fin 192) (s : State) : Host.Outcome State Fault Refusal :=
  .next (s.sbOp core 0x22 (fun _ _ => { act := .cstep }))

/-- CTURN: LC − 1, ROT + 1, branch while LC ≠ 0 (R115). -/
def execCturn (core : Fin 192) (s : State) : Host.Outcome State Fault Refusal :=
  .next (s.sbOp core 0x24 (fun _ w => { act := .cturn (sbTarget w) }))

/-! ## REP, tasks, fences -/

/-- REP (R112, R113, R138): the count is the immediate, or LC, above 16,383 acting as 16,383. A bundle it may not repeat raises
ILLEGAL here. -/
def execRep (core : Fin 192) (s : State) : Host.Outcome State Fault Refusal :=
  .next (s.sbOp core 0x23 (fun k w =>
    let n := if bits w 14 14 = 1 then min 16383 k.lc.toNat else bits w 13 0
    let (next, poison) := s.bundleNext core
    { act := .rep n
      excs := if !poison && repForbids next then [⟨0x01, 3, 0, 0⟩] else [] }))

/-- TAKE executed while a task runs acts as DONE with status 0 (R117). -/
def execTake (core : Fin 192) (s : State) : Host.Outcome State Fault Refusal :=
  .next (s.sbOp core 0x25 (fun _ _ => { act := .endTask false }))

/-- DONE Sa (R117): status Sa[0]. -/
def execDone (core : Fin 192) (s : State) : Host.Outcome State Fault Refusal :=
  .next (s.sbOp core 0x26 (fun k w => { act := .endTask ((k.rS (sbA w)).getLsbD 0) }))

/-- FENCE (R109): no bundle issues until every outstanding store is acknowledged. -/
def execFence (core : Fin 192) (s : State) : Host.Outcome State Fault Refusal :=
  .next (s.sbOp core 0x27 (fun _ _ => { act := .fence }))

/-- TRAP (R120): its immediate goes to EXC_INFO. -/
def execTrap (core : Fin 192) (s : State) : Host.Outcome State Fault Refusal :=
  .next (s.sbOp core 0x28 (fun _ w => { excs := [⟨0x0A, 3, 0, bits w 13 0⟩] }))

/-- CMUW #k (R122, R124): holds until at most k of the core's commands remain; k above 3 completes at once. A completed command
that reported ADDR raises CMU_ERR. -/
def execCmuw (core : Fin 192) (s : State) : Host.Outcome State Fault Refusal :=
  match s.slotDue core 3 with
  | none => .next s
  | some b =>
    let w := slotWord b 3
    if slotOp w 3 ≠ 0x29 then .next s
    else
      let n := core.val / 8
      let x := s.cmu n
      let j := core.val % 8
      if 4 ≤ bits w 2 0 then .next ((s.stageSlot core 3 {}).finishBundle core)
      else if bits w 2 0 < x.depth j then .next (s.setCore core { s.core core with waiting := true })
      else if tget false x.addrErr j then
        let s := s.setCmu n { x with addrErr := tset false x.addrErr j false }
        .next ((s.stageSlot core 3 { excs := [⟨0x0B, 3, 0, 0⟩] }).finishBundle core)
      else .next ((s.stageSlot core 3 {}).finishBundle core)

def execSnop (core : Fin 192) (s : State) : Host.Outcome State Fault Refusal :=
  .next (s.sbOp core 0x3F (fun _ _ => {}))

/-! ## What ends, holds and starts a core -/

/-- TAKE_WAKE (R116): a core in TAKE wait starts the task at the head of its slot. -/
def execTakeWake (core : Fin 192) (s : State) : Host.Outcome State Fault Refusal :=
  if (s.core core).task.isNone then .next (s.takeNext core) else .next s

/-- ILLEGAL (R120, R129, R130): the bundle at the core's PC is illegal; one that reads as poison raises POISON, whatever its bits
would decode to (R292). -/
def execIllegal (core : Fin 192) (s : State) : Host.Outcome State Fault Refusal :=
  let k := s.core core
  if s.running 0x11 core ∧ k.task.isSome ∧ k.ending.isNone ∧ !k.remote ∧ k.stage.slot = 0 ∧ s.mayIssue core then
    let (b, poison) := s.bundleNow core
    match k.illegalSlot b with
    | some j =>
      let s := if poison then s.countEvent 0x11 core 0x004 1 else s
      .next (s.raiseExc core (if poison then ⟨0x03, 0, bundleAddr core k.pc.toNat, 0⟩ else ⟨0x01, j, 0, 0⟩))
    | none => .next s
  else .next s

/-- A remote load's data: from the own Course's store directly, from elsewhere over Mortar (R98, R108). -/
def State.remoteRead (s : State) (c a n : Nat) : BusStatus × List (Byte × Bool) × State :=
  if s.region a = .course (c / 8) then
    let (l, s) := s.readMem a n
    (.ok, l, s)
  else s.busGet (c / 8) 0 a n

/-- The exception of a remote load's answer (R120). -/
def loadExc (a : Nat) (st : BusStatus) (poison : Bool) : List CoreExc :=
  match st with
  | .ok => if poison then [⟨0x03, 2, a, 0⟩] else []
  | .decodeError => [⟨0x04, 2, a, 0⟩]
  | .fenced => [⟨0x05, 2, a, 0⟩]
  | .targetError => [⟨0x0C, 2, a, 0⟩]

/-- REMOTE_LOAD_RETURN (R108): the held bundle retires, or raises the lowest of its causes, the load's among them (R120, R141). A
store of the core to the same 64-byte block goes first (R109). -/
def execRemoteLoadReturn (core : Fin 192) (s : State) : Host.Outcome State Fault Refusal :=
  let k := s.core core
  match k.stage.load with
  | none => .next s
  | some l =>
    if !k.remote ∨ !s.running 0x11 core ∨ k.stores.any (fun r => r.any (fun x => x.1 / 64 == l.addr / 64)) then .next s
    else
      let (st, bytes, s) := s.remoteRead core l.addr l.len
      let s := s.took 0x11 core l.addr bytes
      match firstExc (loadExc l.addr st (bytes.any (·.2)) ++ k.stage.excs) with
      | some e => .next (s.raiseExc core e)
      | none => .next (s.retire core (l.results (bytes.map (·.1))) true)

/-- STORE_ACK (R108, R120): the oldest outstanding store reaches its target and is acknowledged; the first failing address is
kept for STORE_ERR. -/
def execStoreAck (core : Fin 192) (s : State) : Host.Outcome State Fault Refusal :=
  let k := s.core core
  match k.stores with
  | [] => .next s
  | runs :: rest =>
    let c : Nat := core
    let (bad, s) := runs.foldl (fun (acc : Option Nat × State) r =>
      if acc.2.region r.1 = .course (c / 8) then (acc.1, acc.2.writeMem r.1 (clean r.2))
      else
        let (st, s) := acc.2.busPut (c / 8) 0 r.1 (clean r.2)
        (if acc.1.isNone ∧ st ≠ .ok then some r.1 else acc.1, s)) (none, s)
    let k := s.core core
    let k := { k with stores := rest, storeErr := if k.storeErr.isNone then bad else k.storeErr,
                      fenceHold := k.fenceHold && !rest.isEmpty }
    .next ((s.setCore core k).tryEnd core)

/-- HANG (R121): the watchdog's count of cycles without retirement reaches its limit; the bundle in progress is discarded. A halted
core counts as neither idle nor hung, and each REP iteration retires. -/
def execHang (core : Fin 192) (s : State) : Host.Outcome State Fault Refusal :=
  let k := s.core core
  if s.running 0x11 core ∧ k.task.isSome ∧ s.bit Reg.SETT.CTL_WDOG_EN core ∧ !k.halted ∧ k.rep.isNone ∧
      k.ending ≠ some (.exc 0x08) then
    .next ((s.reportFault 2 0x11 core).raiseExc core ⟨0x08, 0, 0, 0⟩)
  else .next s

/-! ## Halting and enabling -/

/-- A write of SETT.CTL: HALT_REQ and WDOG_EN take their values; a clear HALT_REQ resumes; STEP counts while halted. -/
def State.settCtl (s : State) (c : Nat) (v : Word) : State :=
  let s := s.storeReg 0x11 c 0x000 v
  let k := s.core c
  if wordField v 0 0 = 0 then s.setCore c { k with halted := false, stepping := false }
  else if wordField v 1 1 = 1 ∧ k.halted then s.setCore c { k with stepping := true }
  else s

/-- HALT_REQ: a write of SETT.CTL. -/
def execHaltReq (req : Fin 14) (sel : BitVec 10) (value : Word) (s : State) : Host.Outcome State Fault Refusal :=
  .next (s.hubEach req 0x11 sel.toNat 0x000 (fun s c => s.settCtl c value))

/-- STEP: a write of SETT.CTL with STEP and HALT_REQ 1 and WDOG_EN as it stands. -/
def execStep (req : Fin 14) (sel : BitVec 10) (s : State) : Host.Outcome State Fault Refusal :=
  .next (s.hubEach req 0x11 sel.toNat 0x000 (fun s c =>
    s.settCtl c (BitVec.ofNat 32 (3 + 4 * s.fld Reg.SETT.CTL_WDOG_EN c))))

/-- CORE_HALT (R112): a core asked to halt does so at a bundle boundary, outside any REP run; its slot entries are reclaimed. -/
def execCoreHalt (core : Fin 192) (s : State) : Host.Outcome State Fault Refusal :=
  let k := s.core core
  if s.bit Reg.SETT.CTL_HALT_REQ core ∧ !k.halted ∧ s.running 0x11 core ∧ k.stage.slot = 0 ∧ !k.remote ∧ k.rep.isNone then
    .next ((s.setCore core { k with halted := true, fetched := none, ahead := [] }).reclaimAll core)
  else .next s

/-- A write of COURSE.CTL: entries of cores whose bit is 0 are reclaimed (R118, R188). -/
def State.coreEnWrite (s : State) (n : Nat) (v : Word) : State :=
  let s := s.storeReg 0x10 n 0x000 v
  (List.range 8).foldl (fun s k => if bitOf v.toNat k then s else s.reclaimAll (8 * n + k)) s

/-- CORE_EN_WRITE. -/
def execCoreEnWrite (req : Fin 14) (sel : BitVec 10) (value : Word) (s : State) : Host.Outcome State Fault Refusal :=
  .next (s.hubEach req 0x10 sel.toNat 0x000 (fun s n => s.coreEnWrite n value))

end Sys2Proof.Machine
end

