-- ==== Sys2Proof/Machine/SignalOps.lean ====
section
/-! DEFINITION. The sample arithmetic of stream channels, Tally and the Ahnent link: rotators (R73), gain (R72), block floating
point (R76), the transform (R74), CRC-8 (R314), the scrambler (R313) and RS(248,240) (R318). Samples are pairs of
signed integers. -/
namespace Sys2Proof.Machine

/-- A complex sample, I and Q. -/
abbrev Sample := Int × Int

def clamp16 (x : Int) : Int := clampInt (-32768) 32767 x

/-- Whether clamping to 16 bits changes a value. -/
def clips16 (x : Int) : Bool := decide (x < -32768) || decide (32767 < x)

/-! ## Rotators -/

/-- π in units of 2^-64. -/
def piQ : Int := 57952155664616982739

/-- Taylor terms of the cosine (`k` odd factors first) or sine of φ (2^-64), accumulated from term `t`. -/
def trigTerms : Nat → Nat → Int → Int → Int
  | 0, _, _, _ => 0
  | n + 1, k, sq, t => t + trigTerms n (k + 2) sq (-(t * sq / 2 ^ 64) / ((k + 1) * (k + 2) : Nat))

def cosT (φ : Int) : Int := trigTerms 16 0 (φ * φ / 2 ^ 64) (2 ^ 64)

def sinT (φ : Int) : Int := trigTerms 16 1 (φ * φ / 2 ^ 64) φ

/-- cos and sin of 2π·p/q in units of 2^-64, exact at the quadrants and elsewhere to far below 2^-40. -/
def cisQ (p q : Nat) : Int × Int :=
  let r := p % max 1 q
  let k := 4 * r / max 1 q
  let φ := piQ * (4 * r % max 1 q : Nat) / (2 * max 1 q : Nat)
  let (c, s) := if 4 * r % max 1 q = 0 then ((2 ^ 64 : Int), (0 : Int)) else (cosT φ, sinT φ)
  if k = 0 then (c, s) else if k = 1 then (-s, c) else if k = 2 then (-c, -s) else (s, -c)

/-- A coefficient in Q1.15, truncated: one bit before the point, so that 1.0 is held exactly. -/
def q15 (x : Int) : Int := x / 2 ^ 49

/-- A sample multiplied by a Q1.15 coefficient pair, shifted right by 15, truncated and clamped (R73). -/
def rotate (c : Int × Int) (x : Sample) : Sample :=
  (clamp16 ((x.1 * c.1 - x.2 * c.2) / 2 ^ 15), clamp16 ((x.1 * c.2 + x.2 * c.1) / 2 ^ 15))

/-- Whether the rotation of a sample saturates. -/
def rotClips (c : Int × Int) (x : Sample) : Bool :=
  clips16 ((x.1 * c.1 - x.2 * c.2) / 2 ^ 15) || clips16 ((x.1 * c.2 + x.2 * c.1) / 2 ^ 15)

/-- The NCO over samples from a phase with a frequency word: rotated samples, the next phase, whether one saturated.
`down` selects e^(−j…) (R73). -/
def nco (down : Bool) (f : Nat) : Nat → List Sample → List Sample × Nat × Bool
  | ph, [] => ([], ph, false)
  | ph, x :: r =>
    let (c, s) := cisQ ph (2 ^ 32)
    let k := (q15 c, q15 (if down then -s else s))
    let (l, p, b) := nco down f ((ph + f) % 2 ^ 32) r
    (rotate k x :: l, p, b || rotClips k x)

/-! ## Gain (R72) -/

/-- Whether G^80 ≤ 4096^80 × 10^g. -/
def gainBelow (g : Int) (G : Nat) : Bool :=
  if 0 ≤ g then decide (G ^ 80 ≤ 4096 ^ 80 * 10 ^ g.toNat) else decide (G ^ 80 * 10 ^ (-g).toNat ≤ 4096 ^ 80)

/-- The largest number below 2^n (from `lo`) that satisfies a downward-closed test. -/
def bisect (p : Nat → Bool) : Nat → Nat → Nat
  | 0, lo => lo
  | n + 1, lo => if p (lo + 2 ^ n) then bisect p n (lo + 2 ^ n) else bisect p n lo

/-- The linear multiplier of `g` quarter-dB in Q4.12, truncated; open where Q4.12 cannot hold it. -/
def gainQ (g : Int) : Nat :=
  let G := bisect (gainBelow g) 17 0
  if G < 65536 then G else Config.gainBeyond g % 65536

def applyGain (G : Nat) (x : Sample) : Sample := (clamp16 (x.1 * G / 4096), clamp16 (x.2 * G / 4096))

def gainClips (G : Nat) (x : Sample) : Bool := clips16 (x.1 * G / 4096) || clips16 (x.2 * G / 4096)

/-- Power in quarter-dB below full scale of `n` samples whose squares sum to `sum`: ⌊40·log10(sum / (n·32768²))⌋,
−480 for silence. -/
def powerQdb (sum n : Nat) : Int :=
  if sum = 0 ∨ n = 0 then -480
  else
    let d := n * 32768 ^ 2
    ((bisect (fun k => decide (d ^ 40 * 10 ^ k ≤ sum ^ 40 * 10 ^ 480)) 10 0 : Nat) : Int) - 480

/-- The AGC step (R72): the gain after a measured power. -/
def agcStep (target step hyst floor_ ceil g p : Int) : Int :=
  let err := target - p
  let g := if hyst < err then g + min err step else if err < -hyst then g - min (-err) step else g
  clampInt floor_ ceil g

/-- ⌊40·log10(num / den)⌋ of a positive fraction above 10^-50, in quarter-dB. -/
def quarterDb (num den : Nat) : Int :=
  ((bisect (fun k => decide (den ^ 40 * 10 ^ k ≤ num ^ 40 * 10 ^ 2000)) 12 0 : Nat) : Int) - 2000

/-- Free samples, one per index: what the spec leaves open of a filter's output (R83). -/
def freeSamples (seed n : Nat) : List Sample :=
  (List.range n).map (fun i => (signedOf 16 (Config.freeBits seed (2 * i)), signedOf 16 (Config.freeBits seed (2 * i + 1))))

/-- Samples the filter of R83 weighs for one output. -/
def filterSpan (d : Nat) : Nat := 64 * d

/-- One output of the low-pass filter of R83 for a factor `d`: a fixed weighted sum of the samples in its span. The spec bounds ripple and
attenuation; the weights are open constants, the rounding is free within one bit, and silence stays silence (log entry 65). -/
def filterOut (d seed i : Nat) (win : List Sample) : Sample :=
  if win.all (· == ((0 : Int), (0 : Int))) then (0, 0)
  else
    let w := win.mapIdx (fun k x => (x.1 * (Config.filterTap d k).toInt, x.2 * (Config.filterTap d k).toInt))
    (clamp16 ((w.map (·.1)).sum / 2 ^ 31 + (((Config.freeBits seed (2 * i) % 3 : Nat) : Int) - 1)),
     clamp16 ((w.map (·.2)).sum / 2 ^ 31 + (((Config.freeBits seed (2 * i + 1) % 3 : Nat) : Int) - 1)))

/-- Samples filtered and decimated as they come, each with its Tc: outputs, the samples since the last one, and the samples in the span,
newest first. -/
def decimate (d seed : Nat) : Nat → List Sample → List (Nat × Int × Int) → List (Nat × Int × Int) × Nat × List Sample
  | acc, win, [] => ([], acc, win)
  | acc, win, x :: r =>
    let win := ((x.2.1, x.2.2) :: win).take (filterSpan d)
    if d ≤ acc + 1 then
      let (o, a, w) := decimate d seed 0 win r
      let y := filterOut d seed r.length win
      ((x.1, y.1, y.2) :: o, a, w)
    else decimate d seed (acc + 1) win r

/-- A PRACH repetition of `n` outputs filtered and decimated (R83): the span is centred on each output's sample. -/
def decimateBlock (d seed n : Nat) (xs : List Sample) : List Sample :=
  let pad := List.replicate (filterSpan d / 2) ((0 : Int), (0 : Int))
  let l := pad ++ xs ++ pad
  (List.range n).map (fun i => filterOut d seed i ((l.drop (i * d)).take (filterSpan d)))

/-! ## Angles (R232) -/

/-- Quadrant of a vector, counted from the positive real axis. -/
def quadrant (z : Int × Int) : Nat :=
  if 0 < z.1 ∧ 0 ≤ z.2 then 0 else if z.1 ≤ 0 ∧ 0 < z.2 then 1 else if z.1 < 0 ∧ z.2 ≤ 0 then 2 else 3

/-- ⌊angle × 2^48⌋ in turns of a vector other than zero, in (−1/2, 1/2]. -/
def turns48 (z : Int × Int) : Int :=
  let below (k : Nat) : Bool :=
    let qk := k / 2 ^ 46
    let q := quadrant z
    if qk < q then true else if q < qk then false
    else
      let (c, s) := cisQ k (2 ^ 48)
      decide (s * z.1 ≤ c * z.2)
  let x := bisect below 48 0
  if z.2 = 0 ∧ z.1 < 0 then 2 ^ 47 else if x < 2 ^ 47 then (x : Int) else (x : Int) - 2 ^ 48

/-! ## Block floating point (R76) -/

/-- Bits of a number, most significant of `w` first. -/
def bitsMsb : Nat → Nat → List Bool
  | 0, _ => []
  | w + 1, v => bitOf v w :: bitsMsb w v

def bitsToNat (l : List Bool) : Nat := l.foldl (fun a b => 2 * a + b2n b) 0

/-- Bytes of a bit stream, most significant bit first; `n` bytes. -/
def packBytes : Nat → List Bool → List Byte
  | 0, _ => []
  | n + 1, l => BitVec.ofNat 8 (bitsToNat ((l.take 8) ++ List.replicate (8 - l.length) false)) :: packBytes n (l.drop 8)

def unpackBits (l : List Byte) : List Bool := l.flatMap (fun b => bitsMsb 8 b.toNat)

/-- MANT as it acts. -/
def mantW (m : Nat) : Nat := if m < 7 then 7 else if 16 < m then 16 else m

/-- The exponent of a block of components. -/
def bfpExp (mant : Nat) (cs : List Int) : Nat :=
  let m := (cs.map (fun c => if 0 ≤ c then c.toNat else (-c - 1).toNat)).foldl max 0
  ((List.range 17).find? (fun e => decide (m / 2 ^ e < 2 ^ (mant - 1)))).getD 16

/-- A block of 12 samples, compressed: 1 + 3 × MANT bytes. -/
def bfpPack (mant : Nat) (xs : List Sample) : List Byte :=
  let cs := ((List.range 12).map (fun i => xs.getD i (0, 0))).flatMap (fun x => [x.1, x.2])
  let e := bfpExp mant cs
  BitVec.ofNat 8 e :: packBytes (3 * mant) (cs.flatMap (fun c => bitsMsb mant (toBits mant (c / 2 ^ e))))

/-- A list cut into pieces of `n`, at most `k` of them. -/
def chunks {α : Type} (n : Nat) : Nat → List α → List (List α)
  | 0, _ => []
  | k + 1, l => if l.isEmpty then [] else l.take n :: chunks n k (l.drop n)

/-- A block decompressed: 12 samples, with whether one was clamped. -/
def bfpUnpack (mant : Nat) (bytes : List Byte) : List Sample × Bool :=
  let e := (bytes.getD 0 0).toNat % 16
  let raw := (List.range 24).map (fun i =>
    signedOf mant (bitsToNat (((unpackBits (bytes.drop 1)).drop (mant * i)).take mant)) * 2 ^ e)
  let cs := raw.map clamp16
  ((List.range 12).map (fun i => (cs.getD (2 * i) 0, cs.getD (2 * i + 1) 0)), raw.any clips16)

/-- Samples as blocks of 12, the last padded with zeros. -/
def bfpBlocks (mant : Nat) (xs : List Sample) : List Byte := (chunks 12 xs.length xs).flatMap (bfpPack mant)

/-! ## The transform (R74, R84) -/

/-- FFT_SIZE codes. -/
def fftSize (code : Nat) : Nat := [128, 256, 512, 1024, 1536, 2048, 3072, 4096].getD (min 7 code) 4096

/-- One bin of the transform of `x` with the sign of the direction, shifted right by `shift`, before its error. -/
def dftBin (inverse : Bool) (xs : List Sample) (k shift : Nat) : Int × Int :=
  let n := xs.length
  let (re, im, _) := xs.foldl (fun (a : Int × Int × Nat) x =>
    let (c, s) := cisQ (a.2.2 * k) n
    let s := if inverse then s else -s
    (a.1 + x.1 * c - x.2 * s, a.2.1 + x.1 * s + x.2 * c, a.2.2 + 1)) ((0 : Int), (0 : Int), 0)
  (re / 2 ^ (64 + shift), im / 2 ^ (64 + shift))

/-- A free error of at most `d` in either direction. -/
def freeErr (seed k d : Nat) : Int := ((Config.freeBits seed k % (2 * d + 1) : Nat) : Int) - d

/-- The transform with the error R74 allows, 2 LSB a component, free within it: `seed` counts the free values taken. -/
def transform (inverse : Bool) (seed shift : Nat) (xs : List Sample) : List Sample :=
  (List.range xs.length).map (fun k =>
    let (re, im) := dftBin inverse xs k shift
    (clamp16 (re + freeErr seed (2 * k) 2), clamp16 (im + freeErr seed (2 * k + 1) 2)))

/-- Whether a transform saturates before its free error. -/
def transformClips (inverse : Bool) (shift : Nat) (xs : List Sample) : Bool :=
  (List.range xs.length).any (fun k => let (re, im) := dftBin inverse xs k shift; clips16 re || clips16 im)

/-! ## The summary code (R222) -/

/-- The code byte of a block's components, with the error of one code that R222 allows. -/
def summaryCode (xs : List Sample) (poisoned : Bool) (err : Int) : Nat :=
  let e := (xs.map (fun x => (x.1 * x.1 + x.2 * x.2).toNat)).sum
  if e = 0 ∨ poisoned then 0 else (clampInt 0 255 (powerQdb e 12 + 256 + err)).toNat

/-! ## The Ahnent line code -/

/-- CRC-8 with x^8 + x^2 + x + 1 from 0xFF over `n` bits taken from bit 0 (R314). -/
def crc8 : Nat → Nat → Nat → Nat
  | 0, _, c => c
  | n + 1, v, c =>
    let fb := (c / 128 % 2) ^^^ (v % 2)
    crc8 n (v / 2) ((2 * c % 256) ^^^ (if fb = 1 then 7 else 0))

/-- The self-synchronous scrambler x^58 + x^39 + 1 over `n` bits from bit 0: the line bits, and the last 58 line bits
(newest in bit 0). -/
def scramble : Nat → Nat → Nat → Nat × Nat
  | 0, _, st => (0, st)
  | n + 1, v, st =>
    let b := (v % 2) ^^^ (st / 2 ^ 38 % 2) ^^^ (st / 2 ^ 57 % 2)
    let (r, e) := scramble n (v / 2) ((2 * st + b) % 2 ^ 58)
    (b + 2 * r, e)

def descramble : Nat → Nat → Nat → Nat × Nat
  | 0, _, st => (0, st)
  | n + 1, v, st =>
    let b := (v % 2) ^^^ (st / 2 ^ 38 % 2) ^^^ (st / 2 ^ 57 % 2)
    let (r, e) := descramble n (v / 2) ((2 * st + v % 2) % 2 ^ 58)
    (b + 2 * r, e)

/-! ## RS(248,240) (R318) -/

/-- Multiplicative inverse in GF(2^8): a^254. -/
def gfInv (a : Nat) : Nat :=
  let a2 := gfMul a a; let a4 := gfMul a2 a2; let a8 := gfMul a4 a4; let a16 := gfMul a8 a8
  let a32 := gfMul a16 a16; let a64 := gfMul a32 a32; let a128 := gfMul a64 a64
  gfMul a2 (gfMul a4 (gfMul a8 (gfMul a16 (gfMul a32 (gfMul a64 a128)))))

/-- Value at a point of a polynomial given highest power first. -/
def gfEval (p : List Nat) (x : Nat) : Nat := p.foldl (fun a c => gfMul a x ^^^ c) 0

/-- Polynomial product, lowest power first. -/
def gfPolyMul (a b : List Nat) : List Nat :=
  (List.range (a.length + b.length - 1)).map (fun k =>
    (List.range (k + 1)).foldl (fun s i => s ^^^ gfMul (a.getD i 0) (b.getD (k - i) 0)) 0)

/-- ∏(x − α^i), i = 0–7, highest power first. -/
def rsGen : List Nat := ((List.range 8).foldl (fun p i => gfPolyMul p [gfXn i 1, 1]) [1]).reverse

/-- The eight parity bytes of 240 data bytes. -/
def rsParity (data : List Nat) : List Nat :=
  data.foldl (fun r d =>
    let fb := d ^^^ r.headD 0
    (List.range 8).map (fun i => (if i = 7 then 0 else r.getD (i + 1) 0) ^^^ gfMul fb (rsGen.getD (i + 1) 0))) (List.replicate 8 0)

/-- Syndromes S0–S7 of a codeword. -/
def rsSyndromes (w : List Nat) : List Nat := (List.range 8).map (fun i => gfEval w (gfXn i 1))

/-- One step of Berlekamp and Massey: (locator, previous locator, L, m, b) with the syndromes up to `n`. -/
def bmStep (s : List Nat) (st : List Nat × List Nat × Nat × Nat × Nat) (n : Nat) : List Nat × List Nat × Nat × Nat × Nat :=
  let (c, b, l, m, bb) := st
  let d := (List.range (l + 1)).foldl (fun a i => a ^^^ gfMul (c.getD i 0) (s.getD (n - i) 0)) 0
  if d = 0 then (c, b, l, m + 1, bb)
  else
    let k := gfMul d (gfInv bb)
    let sub := (List.range (max c.length (b.length + m))).map (fun i =>
      c.getD i 0 ^^^ (if m ≤ i then gfMul k (b.getD (i - m) 0) else 0))
    if 2 * l ≤ n then (sub, c, n + 1 - l, 1, d) else (sub, b, l, m + 1, bb)

/-- A received codeword of 248 bytes decoded: the corrected word and the bytes corrected, or none beyond four. -/
def rsDecode (w : List Nat) : Option (List Nat × Nat) :=
  let s := rsSyndromes w
  if s.all (· == 0) then some (w, 0)
  else
    let (c, _, l, _, _) := (List.range 8).foldl (bmStep s) ([1], [1], 0, 1, 1)
    let pos := (List.range 248).filter (fun j => gfEval c.reverse (gfInv (gfXn (247 - j) 1)) == 0)
    if 4 < l ∨ pos.length ≠ l then none
    else
      let omega := (gfPolyMul s c).take 8
      let deriv := (List.range c.length).map (fun i => if i % 2 = 0 then c.getD (i + 1) 0 else 0)
      let fix := w.mapIdx (fun j x =>
        if pos.contains j then
          let xi := gfInv (gfXn (247 - j) 1)
          x ^^^ gfMul (gfXn (247 - j) 1) (gfMul (gfEval omega.reverse xi) (gfInv (gfEval deriv.reverse xi)))
        else x)
      if (rsSyndromes fix).all (· == 0) then some (fix, l) else none

end Sys2Proof.Machine
end

