-- ==== Sys2Proof/Machine/Cmu.lean ====
section
/-! DEFINITION. The Course matrix unit (R122-R125): its arbiter, its commands, and their status records. Products, factors and
solves are computed exactly; where R123 allows CHOL and the solves an error of some LSB, the error is a free value within
that bound. -/
namespace Sys2Proof.Machine

/-- A complex integer. -/
abbrev Cx := Int × Int

def cxMul (a b : Cx) : Cx := (a.1 * b.1 - a.2 * b.2, a.1 * b.2 + a.2 * b.1)
def cxConj (a : Cx) : Cx := (a.1, -a.2)
def cxAdd (a b : Cx) : Cx := (a.1 + b.1, a.2 + b.2)
def cxSub (a b : Cx) : Cx := (a.1 - b.1, a.2 - b.2)
def cxScale (n : Int) (a : Cx) : Cx := (n * a.1, n * a.2)
def cxSum (l : List Cx) : Cx := l.foldl cxAdd (0, 0)

/-! ## Command fields (R122) -/

/-- A field of a command's word. -/
def CmuRun.f (r : CmuRun) (w msb lsb : Nat) : Nat := wordField (r.words.getD w 0) msb lsb

def CmuRun.op (r : CmuRun) : Nat := r.f 0 3 0
/-- M, N, K: 1-32, 0 acting as 32; the fields hold up to 63, of which values above 32 act as 32. -/
def dim32 (n : Nat) : Nat := if n = 0 then 32 else min 32 n
def CmuRun.M (r : CmuRun) : Nat := dim32 (r.f 0 9 4)
def CmuRun.N (r : CmuRun) : Nat := dim32 (r.f 0 15 10)
def CmuRun.K (r : CmuRun) : Nat := dim32 (r.f 0 21 16)

/-- The address of element (i, j) of matrix A, B or C, whose words begin at word `w`. -/
def CmuRun.elem (r : CmuRun) (w i j : Nat) : Nat :=
  (r.f w 31 2 * 4 + 2 ^ 32 * r.f (w + 1) 7 0 + i * (r.f (w + 1) 31 18 * 4) + 4 * j) % 2 ^ 40

/-- The status record's address. -/
def CmuRun.st (r : CmuRun) : Nat := r.f 9 31 4 * 16 + 2 ^ 32 * r.f 10 7 0

/-- Index pairs of an n × m matrix. -/
def pairs (n m : Nat) : List (Nat × Nat) := (List.range n).flatMap (fun i => (List.range m).map (fun j => (i, j)))

/-- Whether an address lies where the CMU of a Course may go (R124). -/
def State.cmuMay (s : State) (n a : Nat) : Bool :=
  match s.region a with
  | .course m => m == n
  | .sett c => c / 8 == n && decide ((a - 0x60000000) % 0x100000 < 0x80000)
  | _ => false

/-- The elements a command reads and writes, as (matrix word, i, j). -/
def CmuRun.touches (r : CmuRun) : List (Nat × Nat × Nat) :=
  let at_ (w : Nat) (l : List (Nat × Nat)) := l.map (fun p => (w, p.1, p.2))
  let low (n : Nat) := (pairs n n).filter (fun p => decide (p.2 ≤ p.1))
  if r.op = 0 then at_ 1 (pairs r.M r.K) ++ at_ 3 (pairs r.K r.N) ++ at_ 5 (pairs r.M r.N)
  else if r.op = 1 then at_ 1 (pairs r.M r.K) ++ at_ 3 (pairs r.N r.K) ++ at_ 5 (pairs r.M r.N)
  else if r.op = 2 then at_ 1 (pairs r.K r.N) ++ at_ 5 (pairs r.N r.N)
  else if r.op = 3 then at_ 1 (low r.N) ++ at_ 5 (pairs r.N r.N)
  else if r.op ≤ 6 then at_ 1 (low r.N) ++ at_ 3 (pairs r.N r.K) ++ at_ 5 (pairs r.N r.K)
  else []

/-- Whether every operand, result and status address of a command lies inside (R124). -/
def State.cmuInside (s : State) (n : Nat) (r : CmuRun) : Bool :=
  s.cmuMay n r.st && r.touches.all (fun t => s.cmuMay n (r.elem t.1 t.2.1 t.2.2))

/-! ## Elements -/

/-- An element as it stands in memory, and whether it is poison. -/
def State.elemAt (s : State) (a : Nat) : Cx × Bool :=
  let l := (s.readMem a 4).1
  let b := l.map (·.1)
  ((signedOf 16 (leNat (b.take 2)), signedOf 16 (leNat (b.drop 2))), l.any (·.2))

/-- A matrix read whole: rows of elements. -/
def State.matrix (s : State) (r : CmuRun) (w n m : Nat) : List (List (Cx × Bool)) :=
  (List.range n).map (fun i => (List.range m).map (fun j => s.elemAt (r.elem w i j)))

def mget (l : List (List (Cx × Bool))) (i j : Nat) : Cx := ((l.getD i []).getD j ((0, 0), false)).1
def mbad (l : List (List (Cx × Bool))) (i j : Nat) : Bool := ((l.getD i []).getD j ((0, 0), false)).2

/-- An element of C written. -/
def State.putElem (s : State) (a : Nat) (x : Cx) (poison : Bool) : State :=
  s.writeMem a ((leBytes 2 (toBits 16 x.1) ++ leBytes 2 (toBits 16 x.2)).map (fun b => (b, poison)))

def State.putMatrix (s : State) (r : CmuRun) (n m : Nat) (f : Nat → Nat → Cx) (bad : Nat → Nat → Bool) : State :=
  (pairs n m).foldl (fun s p => s.putElem (r.elem 5 p.1 p.2) (f p.1 p.2) (bad p.1 p.2)) s

/-! ## Products (R123) -/

/-- A 40-bit lane with two's-complement wrap (R110). -/
def wrap40 (x : Int) : Int := signedOf 40 (toBits 40 x)

/-- Extraction of one lane: the value and whether a saturating extract clamped. -/
def cmuExtract (r : CmuRun) (x : Int) : Int × Bool :=
  let t := shiftDown (wrap40 x) (r.f 0 26 22)
  if r.f 0 27 27 = 1 then (sat16 t, over16 t) else (signedOf 16 (toBits 16 t), false)

/-- A command computed, with what its record will say. -/
def State.cmuDone (s : State) (n : Nat) (r : CmuRun) : State :=
  let x := s.cmu n
  s.setCmu n { x with cur := some { r with computed := true } }

/-- A product with exact sums `f`, dependencies on poison `bad`, and ACC where allowed. -/
def State.cmuProduct (s : State) (n : Nat) (r : CmuRun) (rows cols : Nat) (f : Nat → Nat → Cx) (bad : Nat → Nat → Bool) : State :=
  let acc := r.f 0 28 28 == 1
  let old := if acc then s.matrix r 5 rows cols else []
  let sum (i j : Nat) : Cx :=
    let c := if acc then cxScale (2 ^ r.f 0 26 22) (mget old i j) else (0, 0)
    cxAdd (f i j) c
  let ext (i j : Nat) : Cx := ((cmuExtract r (sum i j).1).1, (cmuExtract r (sum i j).2).1)
  let sat := (pairs rows cols).any (fun p => (cmuExtract r (sum p.1 p.2).1).2 || (cmuExtract r (sum p.1 p.2).2).2)
  let badC (i j : Nat) : Bool := bad i j || (acc && mbad old i j)
  let poison := (pairs rows cols).any (fun p => badC p.1 p.2)
  (s.putMatrix r rows cols ext badC).cmuDone n { r with sat := sat, poison := poison }

/-- A row of `a` times a row of `b`: Σ_k a(i,k)·g(b(j,k)). -/
def rowDot (K : Nat) (a b : Nat → Cx) : Cx := cxSum ((List.range K).map (fun k => cxMul (a k) (b k)))

/-! ## Factors and solves (R123), exactly -/

/-- One step of fraction-free elimination of a Hermitian matrix: pivot `k`, the pivot before it, the minors so far. -/
def elimStep (n k : Nat) (prev : Int) (w : Nat → Nat → Cx) : List (List Cx) :=
  (List.range n).map (fun i => (List.range n).map (fun j =>
    if k < i ∧ k < j then
      let d := cxSub (cxScale (w k k).1 (w i j)) (cxMul (w i k) (w k j))
      (d.1 / prev, d.2 / prev)
    else w i j))

def tab2 (l : List (List Cx)) (i j : Nat) : Cx := (l.getD i []).getD j (0, 0)

/-- Column minors w(i, j) of a Hermitian matrix after j eliminations, and the index of the first pivot at or below zero. -/
def elimAll : Nat → Nat → Nat → Int → List (List Cx) → List (List Cx) × Option Nat
  | 0, _, _, _, w => (w, none)
  | m + 1, n, k, prev, w =>
    let p := (tab2 w k k).1
    if p ≤ 0 then (w, some k) else elimAll m n (k + 1) p (elimStep n k prev (tab2 w))

/-- floor of sign(w)·√(w²·num / den), truncated toward zero: "the exact scaled value truncated". -/
def scaledRoot (w : Int) (num den : Nat) : Int :=
  let r : Int := (Nat.sqrt (w.natAbs * w.natAbs * num / max 1 den) : Nat)
  if w < 0 then -r else r

/-- The smallest E from `e` on such that every component, of square `n / d`, is below 2^E. -/
def leastExp (below : Nat → Bool) : Nat → Nat → Nat
  | 0, e => e
  | m + 1, e => if below e then e else leastExp below m (e + 1)

/-- CHOL of an n × n Hermitian matrix given by its lower triangle: L as int16 scaled by 2^(15 − E), for any E, the least E that
holds its columns, and the index of the first pivot at or below zero, whose column and those after it are not in L. -/
def cholesky (n : Nat) (a : Nat → Nat → Cx) : (Nat → Nat → Nat → Cx) × Nat × Option Nat :=
  let full := (List.range n).map (fun i => (List.range n).map (fun j =>
    if j < i then a i j else if i = j then ((a i i).1, 0) else cxConj (a j i)))
  let (w, bad) := elimAll n n 0 1 full
  -- L(i,j) = w(i,j) / √(m(j)·m(j − 1)), m(j) = w(j,j), m(−1) = 1
  let den (j : Nat) : Nat := ((tab2 w j j).1 * (if j = 0 then 1 else (tab2 w (j - 1) (j - 1)).1)).toNat
  let good := bad.getD n
  let low := (pairs n n).filter (fun p => decide (p.2 ≤ p.1 ∧ p.2 < good))
  let below (E : Nat) : Bool := low.all (fun p =>
    let x := tab2 w p.1 p.2
    decide (x.1.natAbs * x.1.natAbs < 4 ^ E * den p.2) && decide (x.2.natAbs * x.2.natAbs < 4 ^ E * den p.2))
  let E := leastExp below 20 0
  let L (E i j : Nat) : Cx :=
    if i < j ∨ good ≤ j then (0, 0)
    else (scaledRoot (tab2 w i j).1 (4 ^ 15) (4 ^ E * den j), scaledRoot (tab2 w i j).2 (4 ^ 15) (4 ^ E * den j))
  (L, E, bad)

/-- Forward substitution for one right-hand side, exactly: x_i as numerators over the product D of |l_kk|² so far. `l i j` is
lower triangular. -/
def forwardSolve (l : Nat → Nat → Cx) (b : Nat → Cx) : Nat → List (Cx × Int) × Int
  | 0 => ([], 1)
  | i + 1 =>
    let (xs, D) := forwardSolve l b i
    let d := l i i
    let q := d.1 * d.1 + d.2 * d.2
    let s := cxSum ((List.range i).map (fun j =>
      let (x, Dj) := xs.getD j ((0, 0), 1)
      cxScale (D / Dj) (cxMul (l i j) x)))
    let x := cxMul (cxSub (cxScale D (b i)) s) (cxConj d)
    (xs ++ [(x, D * q)], D * q)

/-- X of l·X = B as numerators over one denominator; 0 where a diagonal element is zero. -/
def solveLower (n m : Nat) (l : Nat → Nat → Cx) (b : Nat → Nat → Cx) : (Nat → Nat → Cx) × Int :=
  let cols := (List.range m).map (fun c => forwardSolve l (fun i => b i c) n)
  let D : Int := (cols.getD 0 ([], 1)).2
  (fun i c =>
    let (x, Di) := ((cols.getD c ([], 1)).1).getD i ((0, 0), 1)
    if Di = 0 then (0, 0) else cxScale (D / Di) x, D)

/-- X of U·X = B for U upper triangular: rows and columns reversed. -/
def solveUpper (n m : Nat) (u : Nat → Nat → Cx) (b : Nat → Nat → Cx) : (Nat → Nat → Cx) × Int :=
  let (x, D) := solveLower n m (fun i j => u (n - 1 - i) (n - 1 - j)) (fun i c => b (n - 1 - i) c)
  (fun i c => x (n - 1 - i) c, D)

/-- X = num / den brought to int16 with an exponent: the value num/den·2^(15 − lexp) normalised so that the largest component is
16,384 or more; `none` where X is zero or has no value. -/
def normalise (n m : Nat) (x : Nat → Nat → Cx) (den lexp : Int) : Option ((Nat → Nat → Cx) × Int) :=
  let all_ := (pairs n m).flatMap (fun p => [(x p.1 p.2).1.natAbs, (x p.1 p.2).2.natAbs])
  let top := all_.foldl max 0
  if top = 0 ∨ den ≤ 0 then none
  else
    let d := den.toNat
    -- top/den in [2^(e-1), 2^e), e offset by 4096
    let e : Int := (leastExp (fun k => decide (top * 2 ^ 4096 < 2 ^ k * d)) 8192 0 : Nat) - 4096
    let sc (v : Int) : Int :=
      let r : Int := if e ≤ 15 then (v.natAbs * 2 ^ (15 - e).toNat / d : Nat) else (v.natAbs / (d * 2 ^ (e - 15).toNat) : Nat)
      if v < 0 then -r else r
    some (fun i j => (sc (x i j).1, sc (x i j).2), e + 15 - lexp)

/-- Components moved by a free error of at most `d` LSB (R123). -/
def nearly (seed m d : Nat) (f : Nat → Nat → Cx) (i j : Nat) : Cx :=
  (sat16 ((f i j).1 + freeErr seed (2 * (i * m + j)) d), sat16 ((f i j).2 + freeErr seed (2 * (i * m + j) + 1) d))

/-- Components that the spec leaves open: int16 free values. -/
def freeCx (seed m i j : Nat) : Cx :=
  (signedOf 16 (Config.freeBits seed (2 * (i * m + j))), signedOf 16 (Config.freeBits seed (2 * (i * m + j) + 1)))

/-- A normalised matrix keeps a component of magnitude 16,384 or more whatever the free errors are (R123). -/
def keepPeak (n m : Nat) (exact x : Nat → Nat → Cx) : Nat → Nat → Cx :=
  let big (v : Int) : Bool := decide (16384 ≤ v.natAbs)
  let fine := (pairs n m).any (fun p => big (x p.1 p.2).1 || big (x p.1 p.2).2)
  let pick (e v : Int) : Int := if !fine && big e then e else v
  fun i j => (pick (exact i j).1 (x i j).1, pick (exact i j).2 (x i j).2)

/-- CHOL as the unit leaves it: L within 3 LSB, its exponent, the first bad pivot. The value put in the place of a bad pivot is not
given: the columns from it on are free, and so is E, which cannot be below what the columns before it need. -/
def State.unitChol (s : State) (n : Nat) (a : Nat → Nat → Cx) : ((Nat → Nat → Cx) × Int × Option Nat) × State :=
  let (L, E, bad) := cholesky n a
  let s' := { s with free := s.free + 1 }
  match bad with
  | none => ((keepPeak n n (L E) (fun i j => if i < j then (0, 0) else nearly s.free n 3 (L E) i j), E, none), s')
  | some k =>
    let E' := E + Config.freeBits s.free 9999 % (128 - E)
    let x (i j : Nat) : Cx := if i < j then (0, 0) else if j < k then nearly s.free n 3 (L E') i j else freeCx s.free n i j
    let peak (i j : Nat) : Cx := if j < k then L E' i j else if i = n - 1 ∧ j = k then (16384, 0) else (0, 0)
    ((keepPeak n n peak x, if k = 0 then signedOf 8 (Config.freeBits s.free 9999) else E', some k), s')

/-- A solve as the unit leaves it: X within 4 LSB with its exponent; free where it has no value or is zero everywhere. -/
def State.unitSolve (s : State) (n m : Nat) (x : Nat → Nat → Cx) (den lexp : Int) : ((Nat → Nat → Cx) × Int) × State :=
  let s' := { s with free := s.free + 1 }
  match normalise n m x den lexp with
  | some (f, e) => ((keepPeak n m f (nearly s.free m 4 f), e), s')
  | none =>
    if den = 0 then ((freeCx s.free m, signedOf 8 (Config.freeBits s.free 9999)), s')
    else ((nearly s.free m 4 (fun _ _ => (0, 0)), signedOf 8 (Config.freeBits s.free 9999)), s')

/-! ## The commands -/

/-- The command in execution, not computed yet, with opcode `op`. -/
def State.cmuTurn (s : State) (n op : Nat) : Option CmuRun :=
  match (s.cmu n).cur with
  | some r => if r.op = op ∧ !r.computed ∧ s.running 0x12 n then some r else none
  | none => none

/-- The poisoned 16-byte words that a command reads. -/
def State.cmuPoison (s : State) (r : CmuRun) : Nat :=
  let ins := r.touches.filter (fun t => t.1 != 5 || (decide (r.op ≤ 2) && r.f 0 28 28 == 1))
  (((ins.map (fun t => r.elem t.1 t.2.1 t.2.2)).filter (fun a => (s.elemAt a).2)).map (· / 16)).dedup.length

/-- A command with an address outside writes nothing but its record, with ADDR (R124); else `f` computes it. -/
def State.cmuCommand (s : State) (n op : Nat) (f : CmuRun → State) : State :=
  match s.cmuTurn n op with
  | none => s
  | some r => if s.cmuInside n r then (f r).countEvent 0x12 n 0x004 (s.cmuPoison r) else s.cmuDone n { r with addr := true }

/-- CMU_COMMAND_START (R122): the arbiter of R29 chooses the next command among the core queues. -/
def execCmuCommandStart (course : Fin 24) (s : State) : Host.Outcome State Fault Refusal :=
  let x := s.cmu course
  if x.cur.isSome ∨ !s.running 0x12 course then .next s
  else
    match rrPick 8 x.last (fun k => !(tget [] x.queues k).isEmpty) with
    | none => .next s
    | some k =>
      match tget [] x.queues k with
      | [] => .next s
      | w :: r =>
        let x := { x with queues := tset [] x.queues k r, last := k, cur := some ⟨k, w, false, false, false, false, false, 0, 0⟩ }
        .next ((s.setCmu course x).syncCmu course)

/-- MATMUL: C = A·B. -/
def execMatmul (course : Fin 24) (s : State) : Host.Outcome State Fault Refusal :=
  .next (s.cmuCommand course 0 (fun r =>
    let a := s.matrix r 1 r.M r.K
    let b := s.matrix r 3 r.K r.N
    s.cmuProduct course r r.M r.N (fun i j => rowDot r.K (mget a i) (fun k => mget b k j))
      (fun i j => (List.range r.K).any (fun k => mbad a i k || mbad b k j))))

/-- MATMUL_H: C = A·B^H. -/
def execMatmulH (course : Fin 24) (s : State) : Host.Outcome State Fault Refusal :=
  .next (s.cmuCommand course 1 (fun r =>
    let a := s.matrix r 1 r.M r.K
    let b := s.matrix r 3 r.N r.K
    s.cmuProduct course r r.M r.N (fun i j => rowDot r.K (mget a i) (fun k => cxConj (mget b j k)))
      (fun i j => (List.range r.K).any (fun k => mbad a i k || mbad b j k))))

/-- GRAM: C = A^H·A + DIAG·I; the upper triangle is the conjugate of the lower. -/
def execGram (course : Fin 24) (s : State) : Host.Outcome State Fault Refusal :=
  .next (s.cmuCommand course 2 (fun r =>
    let a := s.matrix r 1 r.K r.N
    let d : Int := signedOf 32 (r.f 7 31 0)
    let g (i j : Nat) : Cx :=
      cxAdd (rowDot r.K (fun k => cxConj (mget a k i)) (fun k => mget a k j)) (if i = j then (d, 0) else (0, 0))
    let acc := r.f 0 28 28 == 1
    let old := if acc then s.matrix r 5 r.N r.N else []
    let sum (i j : Nat) : Cx := cxAdd (g i j) (if acc then cxScale (2 ^ r.f 0 26 22) (mget old i j) else (0, 0))
    let low (i j : Nat) : Cx := ((cmuExtract r (sum i j).1).1, (cmuExtract r (sum i j).2).1)
    let conj16 (x : Cx) : Cx := (x.1, signedOf 16 (toBits 16 (-x.2)))
    let out (i j : Nat) : Cx := if j ≤ i then low i j else conj16 (low j i)
    let bad1 (i j : Nat) : Bool := (List.range r.K).any (fun k => mbad a k i || mbad a k j) || (acc && mbad old i j)
    let bad (i j : Nat) : Bool := if j ≤ i then bad1 i j else bad1 j i
    let lows := (pairs r.N r.N).filter (fun p => decide (p.2 ≤ p.1))
    let sat := lows.any (fun p => (cmuExtract r (sum p.1 p.2).1).2 || (cmuExtract r (sum p.1 p.2).2).2)
    (s.putMatrix r r.N r.N out bad).cmuDone course
      { r with sat := sat, poison := lows.any (fun p => bad1 p.1 p.2) }))

/-- Whether any element read is poison: every output of a factor or solve depends on every operand through the common
exponent. -/
def anyBad (l : List (List (Cx × Bool))) (lower : Bool) : Bool :=
  (List.range l.length).any (fun i => (List.range l.length).any (fun j => (!lower || decide (j ≤ i)) && mbad l i j))

/-- CHOL: A = L·L^H, L to C with the strict upper triangle zero. -/
def execChol (course : Fin 24) (s : State) : Host.Outcome State Fault Refusal :=
  .next (s.cmuCommand course 3 (fun r =>
    let a := s.matrix r 1 r.N r.N
    let ((L, E, bad), s) := s.unitChol r.N (mget a)
    let p := anyBad a true
    (s.putMatrix r r.N r.N L (fun i j => p && decide (j ≤ i))).cmuDone course
      { r with nonpd := bad.isSome, poison := p, exp := toBits 8 E, pivot := bad.getD 0 }))

/-- A triangular solve from A and B to C with exponent L_EXP of L. -/
def State.cmuSolve (s : State) (n : Nat) (r : CmuRun) (upper : Bool) : State :=
  let a := s.matrix r 1 r.N r.N
  let b := s.matrix r 3 r.N r.K
  let le : Int := signedOf 8 (r.f 8 7 0)
  let (x, D) := if upper then solveUpper r.N r.K (fun i j => cxConj (mget a j i)) (mget b)
    else solveLower r.N r.K (mget a) (mget b)
  let ((X, e), s) := s.unitSolve r.N r.K x D le
  let p := anyBad a true || b.any (fun l => l.any (·.2))
  (s.putMatrix r r.N r.K X (fun _ _ => p)).cmuDone n { r with poison := p, exp := toBits 8 e }

/-- TRSV_L: L·X = B. -/
def execTrsvL (course : Fin 24) (s : State) : Host.Outcome State Fault Refusal :=
  .next (s.cmuCommand course 4 (fun r => s.cmuSolve course r false))

/-- TRSV_LH: L^H·X = B. -/
def execTrsvLh (course : Fin 24) (s : State) : Host.Outcome State Fault Refusal :=
  .next (s.cmuCommand course 5 (fun r => s.cmuSolve course r true))

/-- CHOL_SOLVE: CHOL of A into the internal buffer, then TRSV_L and TRSV_LH on B; X to C, whose exponent is reported. -/
def execCholSolve (course : Fin 24) (s : State) : Host.Outcome State Fault Refusal :=
  .next (s.cmuCommand course 6 (fun r =>
    let a := s.matrix r 1 r.N r.N
    let b := s.matrix r 3 r.N r.K
    let ((L, E, bad), s) := s.unitChol r.N (mget a)
    let (y, Dy) := solveLower r.N r.K L (mget b)
    let ((Y, ey), s) := s.unitSolve r.N r.K y Dy E
    let (x, Dx) := solveUpper r.N r.K (fun i j => cxConj (L j i)) Y
    -- Y stands for Y·2^(ey − 15)
    let ((X, e), s) := s.unitSolve r.N r.K x Dx E
    let p := anyBad a true || b.any (fun l => l.any (·.2))
    (s.putMatrix r r.N r.K X (fun _ _ => p)).cmuDone course
      { r with nonpd := bad.isSome, poison := p, exp := toBits 8 (e + ey - 15), pivot := bad.getD 0 }))

/-- CMU_NO_OPERATION: an OP of 7-15 writes its record with DONE only. -/
def execCmuNoOperation (course : Fin 24) (s : State) : Host.Outcome State Fault Refusal :=
  match (s.cmu course).cur with
  | some r =>
    if 7 ≤ r.op ∧ !r.computed ∧ s.running 0x12 course then .next (s.cmuDone course { r with addr := !s.cmuMay course r.st })
    else .next s
  | none => .next s

/-- The status record of R124; CYCLES is a time, a free value. -/
def CmuRun.record (r : CmuRun) (cycles : Nat) : List Byte :=
  wordsToBytes [BitVec.ofNat 32 (1 + 2 * b2n r.addr + 4 * b2n r.nonpd + 8 * b2n r.sat + 16 * b2n r.poison + r.exp % 256 * 2 ^ 8 +
    2 ^ 16 * (cycles % 2 ^ 16)), r.words.getD 11 0, BitVec.ofNat 32 (r.pivot % 64), 0]

/-- CMU_STATUS_WRITE: the record is written, unless its address lies outside, and the command completes (R122, R124, R127). -/
def execCmuStatusWrite (course : Fin 24) (s : State) : Host.Outcome State Fault Refusal :=
  let x := s.cmu course
  match x.cur with
  | none => .next s
  | some r =>
    if !r.computed ∨ !s.running 0x12 course then .next s
    else
      let (cyc, s) := s.takeFree 16
      let s := if s.cmuMay course r.st then s.writeMem r.st (clean (r.record cyc)) else s
      let errs := if r.addr then tset false x.addrErr r.core true else x.addrErr
      let s := (s.setCmu course { x with cur := none, addrErr := errs }).syncCmu course
      let s := s.addFld Reg.CMU.JOBS_JOBS course 1
      let mark (b : Bool) (f : Field) (event sev detail : Nat) (s : State) : State :=
        if b then (s.setFld f course 1).post 0x12 course event sev detail else s
      let s := mark r.addr Reg.CMU.ERRORS_ADDR 0x001 2 r.core s
      let s := mark r.poison Reg.CMU.ERRORS_POISON 0x002 2 r.core s
      let s := mark r.nonpd Reg.CMU.ERRORS_NONPD 0x003 0 (r.core + r.pivot % 64 * 2 ^ 8) s
      let s := if r.sat then s.setFld Reg.CMU.ERRORS_SAT course 1 else s
      .next (s.tryEnd (8 * course.val + r.core))

end Sys2Proof.Machine
end

