-- ==== Sys2Proof/Machine/DmaOps.lean ====
section
/-! DEFINITION. DMA channels as their registers and events act on them: START, ABORT, RESUME (R264, R279), SETPTR (R267), event
flags and request lines (R272, R273), data rings (R275), the bus-error stop (R278). -/
namespace Sys2Proof.Machine

def State.dch (s : State) (c : Nat) : DmaCh := tget DmaCh.reset s.dma.ch c

def State.setDch (s : State) (c : Nat) (x : DmaCh) : State :=
  let s := { s with dma := { s.dma with ch := tset DmaCh.reset s.dma.ch c x } }
  if s.fld Reg.DMA_CH.STATUS_DEPTH c = x.loops.length then s else s.setFld Reg.DMA_CH.STATUS_DEPTH c x.loops.length

/-- STATE codes of R263. -/
abbrev dmaIdle : Nat := 0
abbrev dmaRunning : Nat := 1
abbrev dmaWaiting : Nat := 2
abbrev dmaHalted : Nat := 3
abbrev dmaStopped : Nat := 4

def State.dmaState (s : State) (c : Nat) : Nat := s.fld Reg.DMA_CH.STATUS_STATE c

/-- STATE and CODE of a channel, and STOPPED of its engine. -/
def State.setDmaState (s : State) (c st code : Nat) : State :=
  let s := (s.setFld Reg.DMA_CH.STATUS_STATE c st).setFld Reg.DMA_CH.STATUS_CODE c code
  let e := c / 32
  s.setFld Reg.DMA.STATUS_STOPPED e (b2n ((List.range 32).any (fun k => s.dmaState (32 * e + k) == dmaStopped)))

def State.dmaPc (s : State) (c : Nat) : Nat := s.pair Reg.DMA_CH.PC_LO_PC_LO Reg.DMA_CH.PC_HI_PC_HI c

def State.setDmaPc (s : State) (c a : Nat) : State :=
  s.setPair Reg.DMA_CH.PC_LO_PC_LO Reg.DMA_CH.PC_HI_PC_HI c (a % 2 ^ 40)

/-- An instruction at an address as the engine's buffer holds it: 64 bits and whether they came as poison. -/
def State.dmaFetched (s : State) (e pc : Nat) : Option (Nat × Bool) :=
  match (tget [] s.dma.lines e).find? (fun l => l.1 == pc / 64 * 64) with
  | some l =>
    let b := (l.2.drop (pc % 64)).take 8
    some (leNat (b.map Prod.fst), b.any Prod.snd)
  | none => none

/-- The instruction at a channel's PC: the one in progress, else the one the buffer holds clean. On the way into Banked a channel stops at
an instruction boundary (R65 step 4): only a MOVE begun goes on. -/
def State.dmaInstr (s : State) (c : Nat) : Option Nat :=
  if s.banking && (s.dch c).mv.isNone then none
  else match (s.dch c).cur, s.dmaFetched (c / 32) (s.dmaPc c) with
  | some w, _ => some w
  | none, some (w, false) => some w
  | _, _ => none

/-- Bits [msb:lsb] of an instruction. -/
def dmaBits (w msb lsb : Nat) : Nat := w / 2 ^ lsb % 2 ^ (msb + 1 - lsb)

/-- A channel waits, with its WAIT_KIND. -/
def State.dmaWait (s : State) (c kind : Nat) : State :=
  let s := s.setDch c { s.dch c with cur := s.dmaInstr c }
  (s.setDmaState c dmaWaiting 0).setFld Reg.DMA_CH.STATUS_WAIT_KIND c kind

/-- A program error halts a channel, PC at the failing instruction (R266, R283). -/
def State.dmaHalt (s : State) (c code : Nat) : State :=
  ((s.setDch c { s.dch c with mv := none, cur := none }).setDmaState c dmaHalted code).post 0x41 c 0x001 2 (code + s.dmaPc c / 16 % 2 ^ 28 * 2 ^ 4)

/-- A channel's keystone wait withdrawn. -/
def State.leaveKey (s : State) (c : Nat) : State :=
  let w := s.disp.dmaWait.filterMap (fun p => let l := p.2.filter (· != c); if l.isEmpty then none else some (p.1, l))
  { s with disp := { s.disp with dmaWait := w, dmaRel := tset 0 s.disp.dmaRel c 0 } }

/-! ## Transfers (R268-R270) -/

/-- The pending pair of a pointer copied into effect. -/
def DmaCh.takePair (x : DmaCh) (k : Nat) : DmaCh :=
  match tfind x.pend k with
  | some p => { x with circ := tset (0, 0) x.circ k p, pend := tdel x.pend k }
  | none => x

/-- A transfer under way: source and destination as they stand, the offset, and the circular pairs as the transfer has left them. -/
structure DmaMove where
  src : Nat
  dst : Nat
  off : Nat
  x : DmaCh
deriving DecidableEq, Repr

/-- Where a pointer wraps, when it does (R270). -/
def DmaCh.wrapAt (x : DmaCh) (circ : Bool) (p : Nat) : Option Nat :=
  let (b, l) := tget (0, 0) x.circ p
  if circ && decide (p < 4) && l != 0 then some (b + l) else none

/-- An address advanced by `n`, and the pairs: at the wrap point it goes on at CBASE, the pending pair taken where the pointer is
to be written back. -/
def DmaCh.advance (x : DmaCh) (circ back : Bool) (p a n : Nat) : Nat × DmaCh :=
  if x.wrapAt circ p = some (a + n) then
    let x := if back then x.takePair p else x
    ((tget (0, 0) x.circ p).1, x)
  else ((a + n) % 2 ^ 40, x)

/-- The bytes of the next transaction: at most 512, none across 4 KB or a wrap. -/
def DmaMove.chunk (m : DmaMove) (w left : Nat) : Nat :=
  let circ := dmaBits w 63 60 == 2
  let toEnd (p a : Nat) : Nat :=
    match m.x.wrapAt circ p with
    | some z => if a < z then z - a else left
    | none => left
  min (min (min 512 left) (min (4096 - m.src % 4096) (4096 - m.dst % 4096)))
    (min (toEnd (dmaBits w 59 57) m.src) (toEnd (dmaBits w 56 54) m.dst))

def DmaMove.step (m : DmaMove) (w n : Nat) : DmaMove :=
  let circ := dmaBits w 63 60 == 2
  let (a, x) := m.x.advance circ (dmaBits w 53 53 == 1) (dmaBits w 59 57) m.src n
  let (d, x) := x.advance circ (dmaBits w 52 52 == 1) (dmaBits w 56 54) m.dst n
  ⟨a, d, m.off + n, x⟩

/-- A transfer brought to an offset already done. -/
def DmaMove.skip (w lim : Nat) : Nat → DmaMove → DmaMove
  | 0, m => m
  | k + 1, m => if lim ≤ m.off then m else DmaMove.skip w lim k (m.step w (m.chunk w (lim - m.off)))

/-- A channel's registers with its circular pairs as they stand: a MOVE under way has copied a pending pair where its pointer wrapped
(R270). -/
def State.dmaLive (s : State) (c : Nat) : DmaCh :=
  let x := s.dch c
  match x.mv, x.cur with
  | some n, some w =>
    let m := DmaMove.skip w n n ⟨tget 0 x.ptr (dmaBits w 59 57), tget 0 x.ptr (dmaBits w 56 54), 0, x⟩
    { x with circ := m.x.circ, pend := m.x.pend }
  | _, _ => x

/-! ## Commands (R264, R279) -/

/-- START: PC taken with bits [2:0] zero. -/
def State.dmaStart (s : State) (c : Nat) : State :=
  if s.dmaState c = dmaIdle ∨ s.dmaState c = dmaHalted then
    let s := s.setDmaPc c (s.dmaPc c / 8 * 8)
    (s.setDch c { s.dch c with loops := [], mv := none, met := false, cur := none }).setDmaState c dmaRunning 0
  else s

/-- ABORT, at an instruction boundary; an idle channel has none to abort. -/
def State.dmaAbort (s : State) (c : Nat) : State :=
  if s.dmaState c = dmaIdle then s
  else
    ((s.setDch c { s.dmaLive c with mv := none, met := false, cur := none }).leaveKey c).setDmaState c dmaIdle 6

/-- RESUME of a STOPPED channel: a MOVE goes on at PROGRESS; bytes beyond it that are still to be acknowledged count no more. -/
def State.dmaResume (s : State) (c : Nat) : State :=
  if s.dmaState c = dmaStopped then
    let x := s.dch c
    let x := { x with
      mv := x.mv.map (fun _ => s.fld Reg.DMA_CH.PROGRESS_BYTES c)
      outs := x.outs.map (fun o => { o with current := false }) }
    (s.setDch c x).setDmaState c dmaRunning 0
  else s

/-- A write of DMA_CH.CTL: START, ABORT, RESUME in the order of their bits. -/
def State.dmaCtl (s : State) (c : Nat) (v : Word) : State :=
  let s := if wordField v 0 0 = 1 then s.dmaStart c else s
  let s := if wordField v 1 1 = 1 then s.dmaAbort c else s
  if wordField v 2 2 = 1 then s.dmaResume c else s

/-! ## Registers of a channel (R267) -/

/-- What REG_SEL shows of a register: 0–17 as SETPTR REG, 18–21 loop counts and 22–25 loop starts of depth 1–4, else 0. -/
def State.dmaReg (s : State) (c r : Nat) : Nat :=
  let x := s.dmaLive c
  let loop (d : Nat) : Nat × Nat := if d < x.loops.length then x.loops.getD (x.loops.length - 1 - d) (0, 0) else (0, 0)
  if r < 8 then tget 0 x.ptr r
  else if r < 12 then (tget (0, 0) x.circ (r - 8)).1
  else if r < 16 then (tget (0, 0) x.circ (r - 12)).2
  else if r = 16 then x.tsec else if r = 17 then x.ttc
  else if r < 22 then (loop (r - 18)).1 else if r < 26 then (loop (r - 22)).2 else 0

/-- A value stored in a register, truncated to its width; a write of a circular register goes to its pending copy. -/
def DmaCh.store (x : DmaCh) (r v : Nat) : DmaCh :=
  let pend (k : Nat) : Nat × Nat := tget (tget (0, 0) x.circ k) x.pend k
  if r < 8 then { x with ptr := tset 0 x.ptr r (v % 2 ^ 40) }
  else if r < 12 then { x with pend := tins x.pend (r - 8) (v % 2 ^ 40, (pend (r - 8)).2) }
  else if r < 16 then { x with pend := tins x.pend (r - 12) ((pend (r - 12)).1, v % 2 ^ 28) }
  else if r = 16 then { x with tsec := v % 2 ^ 32 }
  else { x with ttc := v % 2 ^ 31 }

/-- SETPTR SET, and LOAD: a pointer of a pair takes its pending pair. -/
def DmaCh.set (x : DmaCh) (r v : Nat) : DmaCh := if r < 4 then (x.store r v).takePair r else x.store r v

/-- SETPTR ADD with a signed value; TTC corrects once into TSEC. -/
def DmaCh.add (x : DmaCh) (r : Nat) (old : Nat) (v : Int) : DmaCh :=
  let n : Int := (old : Int) + v
  if r = 17 then
    if 1966080000 ≤ n then { x with ttc := toBits 31 (n - 1966080000), tsec := (x.tsec + 1) % 2 ^ 32 }
    else if n < 0 then { x with ttc := toBits 31 (n + 1966080000), tsec := (x.tsec + 2 ^ 32 - 1) % 2 ^ 32 }
    else x.store r (toBits 31 n)
  else x.store r (toBits 40 n)

/-- A write of REG_HI by a requester: the held REG_LO and these bits, in IDLE, HALTED or STOPPED. -/
def State.regHiWrite (s : State) (req c : Nat) (v : Word) : State :=
  let st := s.dmaState c
  let r := wordField (s.heldFor req 0x41 c 0x014) 4 0
  if (st = dmaIdle ∨ st = dmaHalted ∨ st = dmaStopped) ∧ r < 18 then
    s.setDch c ((s.dch c).set r ((s.heldFor req 0x41 c 0x018).toNat + 2 ^ 32 * wordField v 7 0))
  else s

/-! ## Request lines and waits (R272, R273) -/

/-- Slots of a data ring: LOG2 of 1–7 acts as 8, above 16 as 16; none when disabled. -/
def State.ringSlots (s : State) (n : Nat) : Nat :=
  let l := s.fld (Reg.DMA.RING_CFG_LOG2 (n % 16)) (n / 16)
  if l = 0 then 0 else 2 ^ min 16 (max 8 l)

/-- Entries a data ring holds. -/
def State.ringHeld (s : State) (n : Nat) : Nat :=
  let k := max 1 (s.ringSlots n)
  (s.fld (Reg.DMA.RING_PTR_TAIL (n % 16)) (n / 16) + k - s.fld (Reg.DMA.RING_PTR_HEAD (n % 16)) (n / 16) % k) % k

def State.ringFull (s : State) (n : Nat) : Bool := s.ringSlots n == 0 || s.ringHeld n + 1 == s.ringSlots n

/-- The level of request line `n` of an engine. -/
def State.dmaLine (s : State) (e n : Nat) : Bool :=
  let k := s.fld (Reg.DMA.REQ_SRC_KIND n) e
  let i := s.fld (Reg.DMA.REQ_SRC_INDEX n) e
  if k = 0 then bitOf (s.fld (Reg.DMA.REQ_SW_LEVEL (n / 32)) e) (n % 32)
  else if k = 1 then i < 32 && bitOf (s.fld Reg.PINS.GPIO_IN_IN 0) i
  else if k = 2 then i < 16 && s.pinLevel i
  else if k = 3 then s.ringSlots i != 0 && decide (s.ringSlots i ≤ 4 * (s.ringSlots i - 1 - s.ringHeld i))
  else false

/-- Whether a flag is set. -/
def State.dmaFlag (s : State) (n : Nat) : Bool := bitOf (s.fld (Reg.DMA.EVENT_SET_FLAGS (n % 64 / 32)) (n / 64)) (n % 32)

def State.putFlag (s : State) (n : Nat) (b : Bool) : State :=
  s.setReg 0x40 (n / 64) (0x020 + 4 * (n % 64 / 32)) (putField (s.reg 0x40 (n / 64) (0x020 + 4 * (n % 64 / 32))) (n % 32) (n % 32) (b2n b))

/-- Channels that wait on an event flag and have not been given one. -/
def State.flagWaiters (s : State) (n : Nat) : List Nat :=
  (List.range 128).filter (fun c => s.dmaState c == dmaWaiting && s.fld Reg.DMA_CH.STATUS_WAIT_KIND c == 0 && !(s.dch c).met &&
    match (s.dch c).cur with
    | some w => dmaBits w 7 0 == n
    | none => false)

/-- A flag set (R272, R274): one that is set already counts; with waiters it satisfies one, by R29 over channels. -/
def State.setFlag (s : State) (n : Nat) : State :=
  if s.dmaFlag n then s.addFld Reg.DMA.EVENT_OVERRUN_COUNT (n / 64) 1
  else
    let ws := s.flagWaiters n
    match rrPick 128 (tget 127 s.dma.lastWaiter n) (fun c => ws.contains c) with
    | none => s.putFlag n true
    | some c => ({ s with dma := { s.dma with lastWaiter := tset 127 s.dma.lastWaiter n c } }).setDch c { s.dch c with met := true }

/-- A write of EVENT_SET: each flag written 1, in ascending order. -/
def State.eventSet (s : State) (e w : Nat) (v : Word) : State :=
  (List.range 32).foldl (fun s b => if bitOf v.toNat b then s.setFlag (64 * e + 32 * w + b) else s) s

/-- A write of EVENT_CLR. -/
def State.eventClr (s : State) (e w : Nat) (v : Word) : State :=
  (List.range 32).foldl (fun s b => if bitOf v.toNat b then s.putFlag (64 * e + 32 * w + b) false else s) s

/-- Whether a time base is at or past a channel's target (R272): seconds compared modulo 2^32. -/
def State.timeReached (s : State) (c tb : Nat) : Bool :=
  let x := s.dch c
  let t := (s.tb tb).stamp
  let d : Int := signedOf 32 (t / stampSecond + 2 ^ 32 - x.tsec)
  s.timeRuns && decide ((tcStamp x.ttc : Int) ≤ d * stampSecond + (t % stampSecond : Nat))

/-! ## Data rings (R275) -/

/-- One entry written to a data ring with a room: 28 bytes and the word the device forms. A host that cannot be reached
answers with TARGET_ERROR: none. -/
def State.ringWrite (s : State) (n c : Nat) (bytes : List (Byte × Bool)) : Option State :=
  let e := n / 16
  let k := n % 16
  let fn := s.fld (Reg.DMA.RING_CFG_FN k) e
  if !s.hostUp fn then none
  else
    let tail := s.fld (Reg.DMA.RING_PTR_TAIL k) e
    let seq := tget 0 s.dma.ringSeq n
    let ph := s.fld (Reg.DMA.RING_CFG_PHASE k) e
    let w7 := seq.toNat + 2 ^ 16 * c + 2 ^ 31 * ph
    let a := (s.fld (Reg.DMA.RING_LO_BASE_LO k) e + 2 ^ 32 * s.fld (Reg.DMA.RING_HI_BASE_HI k) e) / 32 * 32 + 32 * tail
    let s := s.hostWrite (a % 2 ^ 64) (bytes.take 28 ++ clean (leBytes 4 w7))
    let next := (tail + 1) % max 1 (s.ringSlots n)
    let s := s.setFld (Reg.DMA.RING_PTR_TAIL k) e next
    let s := if next = 0 then s.setFld (Reg.DMA.RING_CFG_PHASE k) e (1 - ph) else s
    let s := { s with dma := { s.dma with ringSeq := tset 0 s.dma.ringSeq n (seq + 1) } }
    some (s.raise fn (s.fld (Reg.DMA.RING_CFG_VECTOR k) e))

/-- A ring configured (R275): TAIL, HEAD and SEQ 0, PHASE 1. -/
def State.ringReset (s : State) (n : Nat) : State :=
  let s := (s.setFld (Reg.DMA.RING_PTR_TAIL (n % 16)) (n / 16) 0).setFld (Reg.DMA.RING_PTR_HEAD (n % 16)) (n / 16) 0
  let s := s.setFld (Reg.DMA.RING_CFG_PHASE (n % 16)) (n / 16) 1
  { s with dma := { s.dma with ringSeq := tset 0 s.dma.ringSeq n 0 } }

/-- A host write of a ring's head, by its owner (R275). -/
def State.ringHead (s : State) (fn n v : Nat) : State :=
  if s.ringSlots n ≠ 0 ∧ s.fld (Reg.DMA.RING_CFG_FN (n % 16)) (n / 16) = fn then
    s.setFld (Reg.DMA.RING_PTR_HEAD (n % 16)) (n / 16) v
  else s

/-! ## The stop (R278) -/

/-- A response other than OK recorded against its engine. -/
def State.dmaErr (s : State) (c access a status : Nat) : State :=
  let e := c / 32
  { s with dma := { s.dma with errs := tset [] s.dma.errs e (tget [] s.dma.errs e ++ [⟨c, access, a, status⟩]) } }

/-- One channel stopped: a wait already satisfied lies behind the PC; any other is evaluated afresh. -/
def State.dmaStop (s : State) (c : Nat) : State :=
  let x := s.dch c
  let rel := tget 0 s.disp.dmaRel c
  let s := if x.met ∨ 0 < rel then s.setDmaPc c (s.dmaPc c + 8) else s
  let s := if rel = 2 then s.setFld Reg.DMA_CH.STATUS_KEY_MARK c 1 else s
  let x := s.dch c
  ((s.setDch c { x with met := false, cur := if x.mv.isSome then x.cur else none }).leaveKey c).setDmaState c dmaStopped 7

/-- A bus error of an engine: the first stops every RUNNING or WAITING channel and is recorded; one while channels are stopped
only counts. -/
def State.dmaBusError (s : State) (e : Nat) (r : DmaErr) : State :=
  let stopped := s.bit Reg.DMA.STATUS_STOPPED e
  let s := (s.setFld Reg.DMA.STATUS_ERR e 1).satFld Reg.DMA.STATUS_ERR_COUNT e 1
  if stopped then s
  else
    let on := (List.range 32).filter (fun k => let st := s.dmaState (32 * e + k); st == dmaRunning || st == dmaWaiting)
    let s := on.foldl (fun s k => s.dmaStop (32 * e + k)) s
    let s := s.setPair Reg.DMA.ERR_ADDR_LO_ADDR_LO Reg.DMA.ERR_ADDR_HI_ADDR_HI e r.addr
    let wr := r.access == 1
    let info := r.status + r.access * 2 ^ 2 + (if wr then r.ch else 0) * 2 ^ 4 + b2n wr * 2 ^ 11
    let s := s.setReg 0x40 e 0x010 (BitVec.ofNat 32 info)
    s.post 0x40 e 0x001 2 (info + 2 ^ 12 * on.length)

end Sys2Proof.Machine
end

