-- ==== Sys2Proof/Machine/EngineOps.lean ====
section
/-! DEFINITION. The coding algorithms of chapter 07: CRCs, LDPC (R150-R154, R158, R163), HARQ codes (R159), LTE turbo (R162,
R166, R167), polar (R165). Tables of TS 38.212 and TS 36.212 that the spec names and does not give are constants of
`Sys2Proof.Config`; short ones are written out. PRESUMED, unsafe: the short codes and patterns (log entry 17). -/
namespace Sys2Proof.Machine

/-! ## CRCs (R164) -/

/-- Length and generator (below the leading term) of a CRC: CRC24A, CRC24B, CRC16, CRC24C, CRC11, CRC6. -/
def crcPoly (n : Nat) : Nat × Nat :=
  if n = 1 then (24, 0x800063) else if n = 2 then (16, 0x1021) else if n = 3 then (24, 0xB2B117)
  else if n = 4 then (11, 0x621) else if n = 5 then (6, 0x21) else (24, 0x864CFB)

/-- The remainder of bits, the shift register starting at zero; its first bit p0 at bit L − 1. -/
def crcOf (p : Nat × Nat) (bs : List Bool) : Nat :=
  bs.foldl (fun r b =>
    let top := bitOf r (p.1 - 1) != b
    let r := (2 * r) % 2 ^ p.1
    if top then r ^^^ p.2 else r) 0

/-- The CRC a job's CRC field names (R151): 1 CRC24B, 2 CRC24A, 3 CRC16. -/
def namedCrc (n : Nat) : Nat × Nat := crcPoly (if n = 1 then 1 else if n = 2 then 0 else 2)

/-- Whether the last L bits are the CRC of those before. -/
def crcPasses (p : Nat × Nat) (bs : List Bool) : Bool :=
  decide (p.1 < bs.length) && crcOf p (bs.take (bs.length - p.1)) == bitsToNat (bs.drop (bs.length - p.1))

/-- Bits packed most significant first, zero-padded to 16 bytes (R154). -/
def packOut (bs : List Bool) : List Byte :=
  let n := (bs.length + 127) / 128 * 16
  packBytes n (bs ++ List.replicate (8 * n - bs.length) false)

/-! ## LDPC (R150-R154) -/

/-- Lifting size by index; 51-63 act as 50. -/
def zcOf (lift : Nat) : Nat :=
  let l := min 50 lift
  if l ≤ 14 then l + 2 else if l ≤ 22 then 18 + 2 * (l - 15) else if l ≤ 30 then 36 + 4 * (l - 23)
  else if l ≤ 38 then 72 + 8 * (l - 31) else if l ≤ 46 then 144 + 16 * (l - 39) else 288 + 32 * (l - 47)

def oddPart : Nat → Nat → Nat
  | 0, n => n
  | k + 1, n => if n % 2 = 0 then oddPart k (n / 2) else n

/-- The set of TS 38.212 table 5.3.2-1 that contains Zc: 2, 3, 5, … 15 times powers of two. -/
def setOf (zc : Nat) : Nat := (oddPart 9 zc - 1) / 2

/-- A code of the job: base graph 2?, Zc. -/
structure Ldpc where
  bg2 : Bool
  zc : Nat
deriving DecidableEq, Repr

def Ldpc.kb (c : Ldpc) : Nat := if c.bg2 then 10 else 22
def Ldpc.layers (c : Ldpc) : Nat := if c.bg2 then 42 else 46
def Ldpc.cols (c : Ldpc) : Nat := c.kb + c.layers
def Ldpc.K (c : Ldpc) : Nat := c.kb * c.zc
def Ldpc.N (c : Ldpc) : Nat := (c.cols - 2) * c.zc

/-- The entries of a base-graph row, by ascending column: column and shift modulo Zc. -/
def Ldpc.row (c : Ldpc) (r : Nat) : List (Nat × Nat) :=
  (List.range c.cols).filterMap (fun j => (Config.ldpcShift c.bg2 (setOf c.zc) r j).map (fun v => (j, v % c.zc)))

/-- The variables of check row `i` of a layer. -/
def Ldpc.vars (c : Ldpc) (l i : Nat) : List Nat := (c.row l).map (fun e => e.1 * c.zc + (i + e.2) % c.zc)

def satTo (m x : Int) : Int := clampInt (-m) m x

/-- One check row of R153: new C2V values and posteriors of its variables, given t. -/
def checkRow (offset scale : Nat) (t : List Int) : List (Int × Int) :=
  let mags := t.map Int.natAbs
  let min1 := mags.foldl min 100000
  let at1 := (mags.findIdx? (· == min1)).getD 0
  let min2 := ((List.range mags.length).filter (· != at1)).foldl (fun a i => min a (mags.getD i 0)) 100000
  let neg := t.foldl (fun b x => if x < 0 then !b else b) false
  (List.range t.length).map (fun i =>
    let x := t.getD i 0
    let m := if i = at1 then min2 else min1
    let m := (m - offset) * scale / 8
    let c2v := satTo 127 (if neg != decide (x < 0) then -(m : Int) else m)
    (c2v, satTo 511 (x + c2v)))

/-- Decoder memory: posteriors Q and the C2V messages by (layer × Zc + row) × 68 + position in the row. -/
structure LdpcMem where
  q : Array Int
  c2v : Array Int

def Ldpc.layer (c : Ldpc) (offset scale l : Nat) (m : LdpcMem) : LdpcMem :=
  (List.range c.zc).foldl (fun m i =>
    let vs := c.vars l i
    let key := (l * c.zc + i) * 68
    let t := (List.range vs.length).map (fun e => satTo 511 (m.q.getD (vs.getD e 0) 0 - m.c2v.getD (key + e) 0))
    let res := checkRow offset scale t
    (List.range vs.length).foldl (fun m e =>
      let (c2v, q) := res.getD e (0, 0)
      ⟨m.q.setIfInBounds (vs.getD e 0) q, m.c2v.setIfInBounds (key + e) c2v⟩) m) m

/-- Whether the hard decisions satisfy every parity row (R154). -/
def Ldpc.synd (c : Ldpc) (q : Array Int) : Bool :=
  (List.range c.layers).all (fun l => (List.range c.zc).all (fun i =>
    (c.vars l i).foldl (fun b v => if q.getD v 0 < 0 then !b else b) false == false))

/-- Iterations until the syndrome is zero with ET_EN, or LIMIT: iterations run, the syndrome check after the last, memory. -/
def Ldpc.iterate (c : Ldpc) (offset scale : Nat) (et : Bool) : Nat → Nat → LdpcMem → Nat × Bool × LdpcMem
  | 0, n, m => (n, c.synd m.q, m)
  | k + 1, n, m =>
    let m := (List.range c.layers).foldl (fun m l => c.layer offset scale l m) m
    let ok := c.synd m.q
    if (ok && et) || k = 0 then (n + 1, ok, m) else c.iterate offset scale et k (n + 1) m

/-- Whether codeword variable `v` is a filler one. -/
def Ldpc.filler (c : Ldpc) (F v : Nat) : Bool := decide (c.K - min F c.K ≤ v) && decide (v < c.K)

/-- Posteriors before the first iteration (R152). -/
def Ldpc.load (c : Ldpc) (F ncb : Nat) (llr : Nat → Int) : Array Int :=
  ((List.range (c.cols * c.zc)).map (fun v =>
    if c.filler F v then (511 : Int) else if v < 2 * c.zc then 0
    else if v - 2 * c.zc < ncb then llr (v - 2 * c.zc) else 0)).toArray

/-- QUALITY (R148): decisions differing in sign from a nonzero channel LLR. -/
def Ldpc.quality (c : Ldpc) (F ncb : Nat) (llr : Nat → Int) (q : Array Int) : Nat :=
  ((List.range (c.cols * c.zc)).filter (fun v =>
    !c.filler F v && decide (2 * c.zc ≤ v) && decide (v - 2 * c.zc < ncb) &&
    (let x := llr (v - 2 * c.zc)
     x != 0 && (decide (x < 0) != decide (q.getD v 0 < 0))))).length

/-! ## Rate matching of LDPC (R158, R163) -/

/-- k0 by redundancy version. -/
def Ldpc.k0 (c : Ldpc) (ncb rv : Nat) : Nat :=
  let f := if c.bg2 then [0, 13, 25, 43].getD rv 0 else [0, 17, 33, 56].getD rv 0
  f * ncb / c.N * c.zc

/-- Whether a circular-buffer position is a filler position, K − F − 2Zc to K − 2Zc − 1. -/
def Ldpc.fillerPos (c : Ldpc) (F p : Nat) : Bool :=
  decide ((c.K : Int) - F - 2 * c.zc ≤ p) && decide ((p : Int) < c.K - 2 * c.zc)

/-- The positions of `e` consecutive bits from `p` modulo `ncb`, leaving out those that `skip` names; none when every position is
left out. -/
def walkBuffer (ncb : Nat) (skip : Nat → Bool) (p e : Nat) : List Nat :=
  let ring := (List.range ncb).map (fun i => (p + i) % ncb)
  let live := ring.filter (fun x => !skip x)
  if live.isEmpty then [] else (List.range e).map (fun i => live.getD (i % live.length) 0)

/-- The inverse of the bit interleaver: element i·C + j of the result is element i + j·QM of the received LLRs, C = ⌊E/QM⌋; the
last E mod QM follow in order. -/
def deinterleave {α : Type} (d : α) (qm : Nat) (l : List α) : List α :=
  let a := l.toArray
  let C := l.length / qm
  (List.range (qm * C)).map (fun n => a.getD (n / C + n % C * qm) d) ++ l.drop (qm * C)

/-- The bit interleaver of TS 38.212 clause 5.4.2.2. -/
def interleave {α : Type} (d : α) (qm : Nat) (l : List α) : List α :=
  let a := l.toArray
  let C := l.length / qm
  (List.range (qm * C)).map (fun n => a.getD (n % qm * C + n / qm) d) ++ l.drop (qm * C)

/-- A solution of linear equations over GF(2): each row a number whose bit `j` is the coefficient of unknown j and whose bit `n` is
the right side. -/
def gf2Solve (n : Nat) (rows : List Nat) : Nat :=
  let (done, _) := (List.range n).foldl (fun (acc : List (Nat × Nat) × List Nat) col =>
    match acc.2.find? (fun r => bitOf r col) with
    | none => acc
    | some p =>
      let red (r : Nat) : Nat := if bitOf r col then r ^^^ p else r
      (acc.1.map (fun x => (x.1, red x.2)) ++ [(col, p)], (acc.2.erase p).map red)) ([], rows)
  done.foldl (fun a x => if bitOf x.2 n then a + 2 ^ x.1 else a) 0

/-- The codeword of information bits c (K of them, filler as 0): parity bits w with H × [c w] = 0 (TS 38.212 clause 5.3.2). -/
def Ldpc.encode (c : Ldpc) (info : Array Bool) : List Bool :=
  let nP := c.layers * c.zc
  let rows := (List.range c.layers).flatMap (fun l => (List.range c.zc).map (fun i =>
    (c.vars l i).foldl (fun a v => if v < c.K then (if info.getD v false then a ^^^ 2 ^ nP else a) else a ^^^ 2 ^ (v - c.K)) 0))
  let w := gf2Solve nP rows
  (List.range c.K).map (fun v => info.getD v false) ++ (List.range nP).map (fun j => bitOf w j)

/-! ## HARQ codes (R159) -/

def harqLevel (m : Nat) : Int := [0, 4, 10, 18, 30, 48, 76, 120].getD m 0
def harqThreshold (m : Nat) : Nat := [0, 2, 7, 14, 24, 39, 62, 98].getD m 0

def harqCompress (x : Int) : Nat :=
  let m := (List.range 8).foldl (fun b m => if harqThreshold m ≤ x.natAbs then m else b) 0
  if m = 0 then 0 else m + (if x < 0 then 8 else 0)

def harqDecompress (code : Nat) : Int := let v := harqLevel (code % 8); if 8 ≤ code then -v else v

/-- An int8 LLR, −128 read as −127 (R152). -/
def llr8 (b : Byte) : Int := max (-127) (signedOf 8 b.toNat)

/-! ## LTE turbo (R162, R166, R167) -/

/-- Block size by index. -/
def turboK (i : Nat) : Nat :=
  let i := min 187 i
  if i < 60 then 40 + 8 * i else if i < 92 then 528 + 16 * (i - 60) else if i < 124 then 1056 + 32 * (i - 92)
  else 2112 + 64 * (i - 124)

def turboRows (K : Nat) : Nat := (K + 4 + 31) / 32

/-- Inter-column permutation of TS 36.212 table 5.1.4-1: the five bits of the column number reversed. -/
def turboCol (c : Nat) : Nat := (List.range 5).foldl (fun a k => if bitOf c k then a + 2 ^ (4 - k) else a) 0

/-- What stands at circular-buffer position `p` of 3Kπ: an array (0 systematic, 1, 2 parity) and an index, or a dummy bit. -/
def turboPos (K p : Nat) : Option (Nat × Nat) :=
  let R := turboRows K
  let kp := 32 * R
  let nd := kp - (K + 4)
  let (a, k) := if p < kp then (0, p) else (1 + (p - kp) % 2, (p - kp) / 2)
  let y := if a = 2 then (turboCol (k / R) + 32 * (k % R) + 1) % kp else k % R * 32 + turboCol (k / R)
  if y < nd then none else some (a, y - nd)

/-- NULL positions: dummy bits and the filler bits of the systematic and first parity arrays. -/
def turboNull (K F p : Nat) : Bool := match turboPos K p with
  | none => decide (p < 3 * 32 * turboRows K)
  | some (a, i) => decide (3 * 32 * turboRows K ≤ p) == false && decide (a < 2) && decide (i < F)

def turboK0 (K ncb rv : Nat) : Nat :=
  let R := turboRows K
  R * (2 * ((ncb + 8 * R - 1) / (8 * R)) * rv + 2)

/-- One step of a constituent encoder of 8 states (g0 = 1 + D² + D³, g1 = 1 + D + D³): next state and parity. The state holds D in
bit 0. -/
def rscStep (st : Nat) (u : Bool) : Nat × Bool :=
  let s1 := bitOf st 0; let s2 := bitOf st 1; let s3 := bitOf st 2
  let a := u ^^ s2 ^^ s3
  (b2n a + 2 * b2n s1 + 4 * b2n s2, a ^^ s1 ^^ s3)

/-- The bit that steers a state towards zero (trellis termination). -/
def rscTail (st : Nat) : Bool := bitOf st 1 ^^ bitOf st 2

def rscRun : Nat → List Bool → List Bool × Nat
  | st, [] => ([], st)
  | st, u :: r =>
    let (n, z) := rscStep st u
    let (l, e) := rscRun n r
    (z :: l, e)

/-- The three tail steps: (x, z) pairs. -/
def rscTails : Nat → Nat → List (Bool × Bool)
  | 0, _ => []
  | k + 1, st =>
    let u := rscTail st
    let (n, z) := rscStep st u
    (u, z) :: rscTails k n

/-- The internal interleaver: position π(i) of K. -/
def qppAt (kidx i : Nat) : Nat :=
  let (f1, f2) := Config.qpp kidx
  (f1 * i + f2 * i * i) % turboK kidx

/-- Arrays d0, d1, d2 of K + 4 bits, tails in the order of clause 5.1.3.2.2. -/
def turboEncode (kidx : Nat) (c : Array Bool) : List Bool × List Bool × List Bool :=
  let K := turboK kidx
  let x := (List.range K).map (fun i => c.getD i false)
  let (z, e) := rscRun 0 x
  let x' := (List.range K).map (fun i => c.getD (qppAt kidx i) false)
  let (z', e') := rscRun 0 x'
  let t := rscTails 3 e
  let t' := rscTails 3 e'
  let g (l : List (Bool × Bool)) (i : Nat) := l.getD i (false, false)
  (x ++ [(g t 0).1, (g t 1).2, (g t' 0).1, (g t' 1).2],
   z ++ [(g t 0).2, (g t 2).1, (g t' 0).2, (g t' 2).1],
   z' ++ [(g t 1).1, (g t 2).2, (g t' 1).1, (g t' 2).2])

/-- Below every metric that occurs. -/
def noPath : Int := -(2 ^ 60)

/-- A forward or backward metric step over the 8 states: `br st u` is the branch metric. -/
def mapForward (br : Nat → Bool → Int) (al : List Int) : List Int :=
  (List.range 8).map (fun n =>
    (List.range 8).foldl (fun b st => [false, true].foldl (fun b u =>
      if (rscStep st u).1 = n then max b (al.getD st noPath + br st u) else b) b) noPath)

def mapBackward (br : Nat → Bool → Int) (be : List Int) : List Int :=
  (List.range 8).map (fun st =>
    [false, true].foldl (fun b u => max b (be.getD (rscStep st u).1 noPath + br st u)) noPath)

/-- Max-log-MAP over one constituent code: posteriors of the first `K` bits, from input LLRs and parity LLRs of K + 3 positions;
`forced` positions are 0 (R166). -/
def maxLogMap (K : Nat) (inp par : Array Int) (forced : Nat → Bool) : List Int :=
  let br (k st : Nat) (u : Bool) : Int :=
    if u && forced k then noPath
    else (if u then 0 else inp.getD k 0) + (if (rscStep st u).2 then 0 else par.getD k 0)
  let start := [0] ++ List.replicate 7 noPath
  let alphas := (List.range (K + 3)).foldl (fun (acc : Array (List Int)) k =>
    acc.push (mapForward (br k) (acc.getD k []))) #[start]
  let betas := ((List.range (K + 3)).reverse).foldl (fun (acc : List (List Int)) k =>
    mapBackward (br k) (acc.headD []) :: acc) [start]
  let betas := betas.toArray
  (List.range K).map (fun k =>
    let best (u : Bool) : Int := (List.range 8).foldl (fun b st =>
      max b ((alphas.getD k []).getD st noPath + br k st u + (betas.getD (k + 1) []).getD (rscStep st u).1 noPath)) noPath
    best false - best true)

/-- Received LLRs of a turbo block: arrays of K + 4. -/
structure TurboIn where
  d0 : Array Int
  d1 : Array Int
  d2 : Array Int

/-- One full iteration: from the a-priori values of the first decoder to the posteriors in information order and the next a-priori
values. -/
def turboIter (kidx F : Nat) (d : TurboIn) (la : Array Int) : List Int × Array Int :=
  let K := turboK kidx
  let ext (post : List Int) (ch ap : Nat → Int) (forced : Nat → Bool) : List Int :=
    (List.range K).map (fun k => if forced k then 0 else (post.getD k 0 - ch k - ap k) * 3 / 4)
  let f1 (k : Nat) : Bool := decide (k < F)
  let in1 := ((List.range K).map (fun k => d.d0.getD k 0 + la.getD k 0) ++
    [d.d0.getD K 0, d.d2.getD K 0, d.d1.getD (K + 1) 0]).toArray
  let par1 := ((List.range K).map (fun k => d.d1.getD k 0) ++ [d.d1.getD K 0, d.d0.getD (K + 1) 0, d.d2.getD (K + 1) 0]).toArray
  let post1 := maxLogMap K in1 par1 f1
  let e1 := (ext post1 (fun k => d.d0.getD k 0) (fun k => la.getD k 0) f1).toArray
  let pi (k : Nat) : Nat := qppAt kidx k
  let f2 (k : Nat) : Bool := f1 (pi k)
  let in2 := ((List.range K).map (fun k => d.d0.getD (pi k) 0 + e1.getD (pi k) 0) ++
    [d.d0.getD (K + 2) 0, d.d2.getD (K + 2) 0, d.d1.getD (K + 3) 0]).toArray
  let par2 := ((List.range K).map (fun k => d.d2.getD k 0) ++ [d.d1.getD (K + 2) 0, d.d0.getD (K + 3) 0, d.d2.getD (K + 3) 0]).toArray
  let post2 := maxLogMap K in2 par2 f2
  let e2 := ext post2 (fun k => d.d0.getD (pi k) 0) (fun k => e1.getD (pi k) 0) f2
  let back (l : List Int) : Array Int := (List.range K).foldl (fun a k => a.setIfInBounds (pi k) (l.getD k 0)) (Array.replicate K 0)
  ((back post2).toList, back e2)

/-- Iterations with the early stop of R166: iterations run and the posteriors. -/
def turboRun (kidx F : Nat) (d : TurboIn) (stop : List Int → Bool) : Nat → Nat → Array Int → Nat × List Int
  | 0, n, _ => (n, [])
  | k + 1, n, la =>
    let (post, la) := turboIter kidx F d la
    if stop post || k = 0 then (n + 1, post) else turboRun kidx F d stop k (n + 1) la

/-! ## Polar (R165) -/

def ceilLog2 (n : Nat) : Nat := if n ≤ 1 then 0 else Nat.log2 (n - 1) + 1

/-- n of TS 38.212 clause 5.3.1 for K bits in E. -/
def polarLog (K E nmax : Nat) : Nat :=
  let c := ceilLog2 E
  let n1 := if 8 * E ≤ 9 * 2 ^ (c - 1) ∧ 16 * K < 9 * E then c - 1 else c
  max (min (min n1 (ceilLog2 (8 * K))) nmax) 5

/-- Sub-block interleaver of table 5.4.1.1-1; identity where `on` is off. -/
def polarJ (on : Bool) (N n : Nat) : Nat :=
  let P := [0, 1, 2, 4, 3, 5, 6, 7, 8, 16, 9, 17, 10, 18, 11, 19, 12, 20, 13, 21, 14, 22, 15, 23, 24, 25, 26, 28, 27, 29, 30, 31]
  if on then P.getD (32 * n / N) 0 * (N / 32) + n % (N / 32) else n

/-- Rate-matching mode: 0 repeat, 1 puncture, 2 shorten. -/
def polarMode (K E N : Nat) : Nat := if N ≤ E then 0 else if 16 * K ≤ 7 * E then 1 else 2

def popCount (n : Nat) : Nat := ((List.range 16).filter (fun k => bitOf n k)).length

/-- The kind of each position: 0 frozen, 1 information, 2 parity check (clauses 5.3.1.2, 5.4.1.1). -/
def polarKinds (sub : Bool) (K E N nPc nWm : Nat) : List Nat :=
  let mode := polarMode K E N
  let frozen : List Nat :=
    if mode = 0 then []
    else if mode = 1 then
      (List.range (N - E)).map (polarJ sub N) ++
      List.range (if 3 * N ≤ 4 * E then (3 * N - 2 * E + 3) / 4 else (9 * N - 4 * E + 15) / 16)
    else ((List.range (N - E)).map (fun i => polarJ sub N (E + i)))
  let seq := ((List.range 1024).map Config.polarSequence).filter (fun q => decide (q < N))
  let cand := seq.filter (fun q => !frozen.contains q)
  let qi := cand.drop (cand.length - (K + nPc))
  let low := qi.take (nPc - nWm)
  let rest := qi.drop nPc
  let wmin := (rest.map popCount).foldl min 100
  let best := ((rest.filter (fun q => popCount q == wmin)).reverse).take nWm
  let pc := low ++ best
  (List.range N).map (fun i => if pc.contains i then 2 else if qi.contains i then 1 else 0)

/-- u of clause 5.3.1.2 from the information bits. -/
def polarU : List Nat → List Bool → List Bool → List Bool
  | [], _, _ => []
  | kd :: r, c, y =>
    let y := y.drop 1 ++ y.take 1
    if kd = 0 then false :: polarU r c y
    else if kd = 2 then y.headD false :: polarU r c y
    else
      let u := c.headD false
      u :: polarU r (c.drop 1) ((y.headD false ^^ u) :: y.drop 1)

/-- d = u·G, G the n-fold Kronecker power. -/
def polarTransform : Nat → List Bool → List Bool
  | 0, u => u
  | n + 1, u =>
    let h := u.length / 2
    let a := u.take h
    let b := u.drop h
    polarTransform n (List.zipWith xor a b) ++ polarTransform n b

/-- The coded-bit interleaver of clause 5.4.1.3 as source index of each output. -/
def triangle (E : Nat) : List Nat :=
  let T := ((List.range 400).find? (fun t => decide (2 * E ≤ t * (t + 1)))).getD 0
  let start (i : Nat) : Nat := i * T - i * (i - 1) / 2
  (List.range T).flatMap (fun j => (List.range (T - j)).filterMap (fun i =>
    let k := start i + j
    if k < E then some k else none))

/-- A scheme of R165: CRC (as `crcPoly` names it), nmax, and which interleavers are on. -/
structure Polar where
  crc : Option Nat
  nmax : Nat
  inputIl : Bool
  subIl : Bool
  codedIl : Bool
  pc : Bool
deriving DecidableEq, Repr

def polarScheme (scheme A : Nat) : Polar :=
  if scheme = 0 then ⟨some 3, 9, true, false, false, false⟩
  else if scheme = 1 then ⟨if A < 12 then none else if A ≤ 19 then some 5 else some 4, 10, false, true, true, true⟩
  else if scheme = 2 then ⟨some 3, 9, true, true, false, false⟩
  else ⟨none, 10, false, false, false, false⟩

def Polar.len (p : Polar) : Nat := match p.crc with
  | some n => (crcPoly n).1
  | none => 0

/-- CRC bits of a payload: for DCI over 24 ones and the payload, the last 16 XOR RNTI. -/
def polarCrc (scheme rnti : Nat) (p : Polar) (a : List Bool) : List Bool :=
  match p.crc with
  | none => []
  | some n =>
    let (L, g) := crcPoly n
    let r := crcOf (L, g) ((if scheme = 0 then List.replicate 24 true else []) ++ a)
    bitsMsb L (if scheme = 0 then r ^^^ rnti else r)

/-- Source indices of the input interleaver (clause 5.3.1.1); past its 164 entries none is given. -/
def polarInput (on : Bool) (K : Nat) : List Nat :=
  if on then ((List.range 164).map Config.polarInterleaver).filterMap (fun x => if 164 - K ≤ x then some (x - (164 - K)) else none)
  else List.range K

/-- Parity-check bits of UCI (clause 6.3.1.3.1): number and how many by row weight. -/
def polarPc (p : Polar) (K E : Nat) : Nat × Nat :=
  if p.pc && decide (18 ≤ K) && decide (K ≤ 25) then (3, if 192 + K < E + 3 then 1 else 0) else (0, 0)

/-- Rate matching of N coded bits to E (clauses 5.4.1.1-5.4.1.3). -/
def polarMatch (p : Polar) (K E N : Nat) (d : List Bool) : List Bool :=
  let da := d.toArray
  let y := ((List.range N).map (fun n => da.getD (polarJ p.subIl N n) false)).toArray
  let mode := polarMode K E N
  let e := ((List.range E).map (fun k =>
    y.getD (if mode = 0 then k % N else if mode = 1 then k + N - E else k) false)).toArray
  if p.codedIl then (triangle E).map (fun k => e.getD k false) else e.toList

/-- LLRs of the N coded bits from E received ones: repeated ones summed, punctured ones 0, shortened ones known to be 0. -/
def polarRecover (p : Polar) (K E N : Nat) (llr : List Int) : List (Option Int) :=
  let a := llr.toArray
  let e : Array Int := if p.codedIl then
      ((triangle E).zip (List.range E)).foldl (fun r x => r.setIfInBounds x.1 (a.getD x.2 0)) (Array.replicate E 0)
    else a
  let mode := polarMode K E N
  let y (n : Nat) : Option Int :=
    if mode = 0 then some ((((List.range E).filter (fun k => k % N == n)).map (fun k => e.getD k 0)).sum)
    else if mode = 1 then some (if n < N - E then 0 else e.getD (n - (N - E)) 0)
    else if n < E then some (e.getD n 0) else none
  let ya := ((List.range N).map y).toArray
  ((List.range N).foldl (fun r n => r.setIfInBounds (polarJ p.subIl N n) (ya.getD n (some 0)))
    (Array.replicate N (some 0 : Option Int))).toList

/-- The paths of a list decoder with LIST paths: each a word whose frozen positions are 0 and whose parity-check bits follow from its
information bits; which words, and their metrics, is left to the decoder (R165). -/
def polarList (n : Nat) (llr : List (Option Int)) (kinds : List Nat) : List (List Bool × Nat) :=
  (List.range n).map (fun k =>
    let (c, metric) := Config.polarPaths n llr kinds k
    (polarU kinds c (List.replicate 5 false), metric))

end Sys2Proof.Machine
end

