-- ==== Sys2Proof/Machine/WitOps.lean ====
section
/-! DEFINITION. Witness: leaves, the ring, regions and triggers of the Vault (R217-R227), and the sample work of the Tally
detectors (R228-R234). -/
namespace Sys2Proof.Machine

/-- A setting in a unit of 100 µs as DEVCLK counts. -/
def per100us (n : Nat) : Nat := n * 10000

/-! ## Geometry and regions (R219, R225) -/

/-- Leaves that LENGTH names. -/
def State.lengthLeaves (s : State) : Nat := min 98304 (s.fld Reg.VAULT.LENGTH_UNITS 0) * 512

/-- Ring base that BASE_HI:BASE_LO names. -/
def State.vaultBase (s : State) : Nat :=
  2 ^ 21 * ((s.fld Reg.VAULT.BASE_LO_BASE_LO 0 + 2 ^ 32 * s.fld Reg.VAULT.BASE_HI_BASE_HI 0) / 2 ^ 21)

def State.vault (s : State) : Vault := s.witness.vault

def State.setVault (s : State) (v : Vault) : State := { s with witness := { s.witness with vault := v } }

def State.rgnState (s : State) (r : Nat) : Nat := s.fld (Reg.VAULT.RGN_STATE r) 0

def State.rgnsFree (s : State) : Bool := (List.range 16).all (fun r => s.rgnState r == 0)

/-- The geometry of the registers taken into effect: the writer at leaf 0 of a ring that holds no leaf yet. -/
def State.applyGeometry (s : State) : State :=
  s.setVault { s.vault with base := s.vaultBase, len := s.lengthLeaves, pendGeom := false, wr := 0, ring := [] }

/-- Whether a region's window holds a stamp. -/
def State.inWindow (s : State) (r stamp : Nat) : Bool :=
  s.rgnState r != 0 && match tfind s.vault.windows r with
  | some (lo, hi) => decide (lo ≤ stamp) && decide (stamp < hi)
  | none => false

/-- Whether a leaf is protected: a region that is not free holds it. -/
def State.protectedLeaf (s : State) (x : RingLeaf) : Bool := (List.range 16).any (fun r => s.inWindow r x.stamp)

/-- The first leaf from `pos` on that is not protected; `fuel` counts the leaves still to look at. -/
def State.freePlace (s : State) : Nat → Nat → Option Nat
  | 0, _ => none
  | n + 1, pos =>
    match tfind s.vault.ring pos with
    | some x => if s.protectedLeaf x then s.freePlace n ((pos + 1) % max 1 s.vault.len) else some pos
    | none => some pos

/-- The place the writer takes, none when every leaf is protected or the ring is empty. -/
def State.nextPlace (s : State) : Option Nat :=
  if s.vault.len = 0 then none else s.freePlace (min s.vault.len (s.vault.ring.length + 1)) s.vault.wr

/-- Leaves of the ring that a region holds, oldest first, as (place, leaf). -/
def State.heldBy (s : State) (r : Nat) : List (Nat × RingLeaf) :=
  (s.vault.ring.filter (fun p => s.inWindow r p.2.stamp)).insertionSort (fun a b => a.2.seq ≤ b.2.seq)

/-- A region freezes (R225): COUNT is final, and it is journalled. -/
def State.freezeRgn (s : State) (r : Nat) : State :=
  (s.setFld (Reg.VAULT.RGN_STATE r) 0 2).post 0x30 0 0x003 0 (r + s.fld (Reg.VAULT.RGN_COUNT_COUNT r) 0 % 2 ^ 28 * 2 ^ 4)

/-- Whether a region's window has closed by a stamp. -/
def State.windowOver (s : State) (r stamp : Nat) : Bool := match tfind s.vault.windows r with
  | some (_, hi) => decide (hi ≤ stamp)
  | none => false

/-- Regions whose window closes at or before a leaf grant's stamp freeze. -/
def State.freezeAt (s : State) (stamp : Nat) : State :=
  (List.range 16).foldl (fun s r =>
    if s.rgnState r = 1 ∧ s.windowOver r stamp then s.freezeRgn r else s) s

/-- A region freed. -/
def State.freeRgn (s : State) (r : Nat) : State :=
  let s := s.setFld (Reg.VAULT.RGN_STATE r) 0 0
  s.setVault { s.vault with windows := tdel s.vault.windows r, relWait := s.vault.relWait.filter (· != r) }

/-- REGION_RELEASE (R226): at once, or when the export in progress has written its event. -/
def State.releaseRgn (s : State) (r : Nat) : State :=
  if s.rgnState r = 0 then s
  else if s.bit (Reg.VAULT.RGN_EXPORTING r) 0 then s.setVault { s.vault with relWait := r :: s.vault.relWait }
  else s.freeRgn r

/-! ## Drops (R220) -/

/-- A leaf of a requester dropped: counted, its next leaf marked, counted in the open regions. -/
def State.dropLeaf (s : State) (src : Nat) : State :=
  let s := s.addFld Reg.VAULT.DROPPED_COUNT 0 1
  let s := if src < 128 then s.addFld Reg.VSTREAM.DROPPED_COUNT src 1 else s
  let s := (List.range 16).foldl (fun s r => if s.rgnState r = 1 then s.addFld (Reg.VAULT.RGN_GAPS_GAPS r) 0 1 else s) s
  s.setVault { s.vault with fresh := s.vault.fresh.filter (· != src), periodDrops := s.vault.periodDrops + 1 }

/-- FULL rises (R220, R237). -/
def State.vaultFull (s : State) : State :=
  if s.bit Reg.VAULT.STATUS_FULL 0 then s else (s.setFld Reg.VAULT.STATUS_FULL 0 1).post 0x30 0 0x004 2 0

/-! ## Forming leaves (R218, R220-R223) -/

/-- Whether full-rate capture is held back now (R223): the permit is read in Service, Thrift and Mending whose return mode is
not Witness. -/
def State.thinsNow (s : State) : Bool :=
  s.vault.thinned && (s.modes.mode == .service || s.modes.mode == .thrift || (s.modes.mode == .mending && s.actsAs != .witness))

/-- A tally period begins (R223, R237): drops of the last one are journalled; the permit is read. -/
def State.vaultPeriod (s : State) : State :=
  let n := s.vault.periodDrops
  let s := if 0 < n then s.post 0x30 0 0x005 1 (min allOnes32 n) else s
  let reads := s.modes.mode == .service || s.modes.mode == .thrift || (s.modes.mode == .mending && s.actsAs != .witness)
  s.setVault { s.vault with periodDrops := 0, thinned := reads && !bitOf (s.fld Reg.LEDGER.OPP_PERMIT_PERMIT 0) 0 }

/-- A forming leaf is complete: it asks for its grant, or is skipped in a thinned period (R223). Summary rows formed while the writer
stands (EN 0, R222) make leaves that are not written; DESIGN CHOICE: they count as no drops, the GAP of R219 marks them (log entry 72). -/
def State.closeLeaf (s : State) (x : Leaf) : State :=
  let s := s.setVault { s.vault with forming := tset [] s.vault.forming x.src ((tget [] s.vault.forming x.src).erase x) }
  if !s.bit Reg.VAULT.CTL_EN 0 then s
  else if x.thin then s.dropLeaf x.src
  else s.setVault { s.vault with formed := tset [] s.vault.formed x.src (tget [] s.vault.formed x.src ++ [x]) }

/-- What the units of one symbol of a channel have in common. -/
structure UnitHead where
  type : Nat
  mant : Nat
  unitBytes : Nat
  channel : Nat
  tb : Nat
  mu : Nat
  sym : Nat
  startTc : Nat
  gain : Nat
  slot : Nat
deriving DecidableEq, Repr

/-- Whether a forming leaf takes units of a symbol: those of one channel, slot and form. -/
def Leaf.takes (x : Leaf) (h : UnitHead) : Bool :=
  x.slot == h.slot && x.channel == h.channel && x.mant == h.mant && x.unitBytes == h.unitBytes && x.type == h.type && x.mu == h.mu &&
    x.tb == h.tb

/-- One unit joins the forming leaf of a requester that takes it, else a leaf of its own; a full one is closed at once. `first` is
the unit's block index, `bad` says that it is a summary row formed from a poisoned block. -/
def State.addUnit (s : State) (src : Nat) (h : UnitHead) (first : Nat) (u : List (Byte × Bool)) (bad : Bool) : State :=
  let mine := tget [] s.vault.forming src
  let x : Leaf := (mine.find? (·.takes h)).getD
    ⟨src, h.type, h.mant, h.unitBytes, h.channel, h.tb, h.mu, h.sym, first, h.startTc, h.gain, 0, h.slot, decide (src < 128) && s.thinsNow, [],
      false⟩
  let y := { x with
    units := x.units ++ [u]
    rows := if bitOf x.rows (h.sym % 16) then x.rows else x.rows + 2 ^ (h.sym % 16)
    poison := x.poison || bad }
  let s := s.setVault { s.vault with forming := tset [] s.vault.forming src (mine.erase x ++ [y]) }
  if 4032 < (y.units.length + 1) * h.unitBytes then s.closeLeaf y else s

/-- A command, pin, summary or Tally trigger waits for its grant (R224). -/
def State.raiseTrigger (s : State) (src : Nat) (tag : Word) : State :=
  s.setVault { s.vault with trig := s.vault.trig ++ [(src, tag)] }

/-- A write of TRIGGER. -/
def State.commandTrigger (s : State) (tag : Word) : State :=
  if s.bit Reg.VAULT.TRIG_SRC_CMD_EN 0 then s.raiseTrigger 0 tag else s

/-- The codes of a symbol's blocks (R222); `bad` names the poisoned one. -/
def summaryCodes (mant seed : Nat) (bad : Option Nat) (blocks : List (List Byte)) : List Nat :=
  blocks.mapIdx (fun i b => summaryCode (bfpUnpack mant b).1 (bad == some i) (freeErr seed i 1))

/-- A row: one byte a block, padded with zeros to a multiple of 16. -/
def summaryBytes (codes : List Nat) : List (Byte × Bool) :=
  clean (codes.map (BitVec.ofNat 8) ++ List.replicate ((16 - codes.length % 16) % 16) 0)

/-- Codes at or above the trigger's level. -/
def State.hotCodes (s : State) (codes : List Nat) : Nat :=
  (codes.filter (fun c => decide (s.fld Reg.VAULT.SUM_TRIG_LEVEL 0 ≤ c))).length

/-- The summary trigger of R224 for a row. -/
def State.summaryTrigger (s : State) (codes : List Nat) : State :=
  let need : Nat := s.fld Reg.VAULT.SUM_TRIG_BLOCKS 0
  let need : Nat := if need = 0 then 1 else need
  if s.bit Reg.VAULT.TRIG_SRC_SUM_EN 0 && decide (need ≤ s.hotCodes codes) then s.raiseTrigger 2 0 else s

/-- A summary row of a processed symbol (R222), and the summary trigger. -/
def State.summaryRow (s : State) (h : UnitHead) (bad : Option Nat) (blocks : List (List Byte)) : State :=
  let codes := summaryCodes h.mant s.free bad blocks
  let row := summaryBytes codes
  let s := ({ s with free := s.free + 1 }).addUnit (128 + h.channel) { h with type := 2, mant := 0, unitBytes := row.length } 0 row bad.isSome
  s.summaryTrigger codes

/-- The capture slots that take a symbol of a channel, each with its CAP_BLOCKS (R218). -/
def State.capsOf (s : State) (c : Nat) : List (Nat × Word) :=
  s.vault.vsEff.filterMap (fun e => if wordField e.2.1 0 0 = 1 ∧ wordField e.2.1 9 1 = c then some (e.1, e.2.2) else none)

/-- Which of `n` blocks of a channel, if any, arrives in WIT poisoned; which one an error met is open. -/
def State.takeUpset (s : State) (c n : Nat) : Option Nat × State :=
  if s.vault.upset.contains c then
    let (x, s) := s.takeFree 16
    (some (x % max 1 n), s.setVault { s.vault with upset := s.vault.upset.erase c })
  else (none, s)

/-- The blocks of one symbol that a capture slot takes: those in [FIRST, FIRST + COUNT), or all with COUNT 0 (R218). -/
def State.captureUnits (s : State) (h : UnitHead) (blocks : List (List Byte)) (bad : Option Nat) (e : Nat × Word) : State :=
  let first := wordField e.2 10 0
  let count := wordField e.2 26 16
  (List.range blocks.length).foldl (fun s i =>
    if count = 0 ∨ (first ≤ i ∧ i < first + count) then
      s.addUnit e.1 h i ((blocks.getD i []).map (fun b => (b, bad == some i))) false
    else s) s

/-- The blocks of a symbol as step 6 of R71 forms them reach Witness (R217): the capture slots `caps` that named its channel as it began
or was received take them while EN is 1 (R218), the summary plane while SUM_EN is 1 (R222). -/
def State.witBlocks (s : State) (h : UnitHead) (caps : List (Nat × Word)) (bytes : List Byte) : State :=
  let blocks := chunks h.unitBytes bytes.length bytes
  if blocks.isEmpty ∨ !s.running 0x30 0 then s
  else
    let (bad, s) := s.takeUpset h.channel blocks.length
    let s := if s.bit Reg.VAULT.CTL_EN 0 then caps.foldl (fun s e => s.captureUnits h blocks bad e) s else s
    if s.bit Reg.VAULT.CTL_SUM_EN 0 ∧ bitOf (s.fld (Reg.VAULT.SUM_MASK_MASK (h.channel / 32)) 0) (h.channel % 32) then
      s.summaryRow h bad blocks
    else s

/-- Leaves of a channel that began in another slot than `slot` are written. -/
def State.witSlotEnd (s : State) (c slot : Nat) (pending : Nat → Bool) : State :=
  (s.vault.forming.flatMap (·.2)).foldl (fun s x => if x.channel = c ∧ x.slot ≠ slot ∧ !pending x.slot then s.closeLeaf x else s) s

/-- A write of VSTREAM.CTL or CAP_BLOCKS waits for a slot start of the channel it names (R218). -/
def State.vstreamWrite (s : State) (i : Nat) : State :=
  let e := (s.disp.dlclk, s.reg 0x31 i 0x000, s.reg 0x31 i 0x004)
  s.setVault { s.vault with vsPend := tset [] s.vault.vsPend i (tget [] s.vault.vsPend i ++ [e]) }

/-- A slot of a channel starts: settings written 64 SAMP cycles, 256 Tc, or more ago take effect, for symbols from here on; those on
their way keep the setting they met (`SymJob.caps`). -/
def State.witSlotStart (s : State) (c : Nat) : State :=
  s.vault.vsPend.foldl (fun s p =>
    let due (e : Nat × Word × Word) : Bool := decide (e.1 + 256 ≤ s.disp.dlclk) && wordField e.2.1 9 1 == c
    match p.2.reverse.find? due with
    | none => s
    | some e =>
      let rest := (p.2.reverse.takeWhile (fun x => !due x)).reverse
      let was := (tget (0, 0) s.vault.vsEff p.1).1
      let v := s.vault
      let s := s.setVault { v with
        vsEff := tset (0, 0) v.vsEff p.1 (e.2.1, e.2.2)
        vsPend := tset [] v.vsPend p.1 rest
        fresh := if wordField was 0 0 = 0 then v.fresh.filter (· != p.1) else v.fresh }
      s.setFld Reg.VSTREAM.STATUS_RUNNING p.1 (wordField e.2.1 0 0)) s

/-! ## The leaf as written (R221) -/

/-- The 4,096 bytes of a leaf at its grant. -/
def leafBytes (x : Leaf) (gap : Bool) (stamp seq : Nat) : List (Byte × Bool) :=
  let units := x.units.flatMap id
  let w (n : Nat) : Word := BitVec.ofNat 32 n
  let hdr := wordsToBytes [
    w (x.type + b2n gap * 2 ^ 2 + b2n (x.poison || units.any (·.2)) * 2 ^ 3 + x.mant * 2 ^ 4 + x.units.length * 2 ^ 9 + 2 ^ 18 * x.unitBytes),
    w (x.channel + (if x.src < 128 then x.src else 0x7F) * 2 ^ 9 + 2 ^ 16 * x.tb + 2 ^ 18 * x.mu),
    w (x.sym % 2 ^ 21 + 2 ^ 21 * x.first), w (x.startTc / tcSecond), w (x.startTc % tcSecond),
    w stamp, w (stamp / 2 ^ 32), w (x.gain % 2 ^ 10 + 2 ^ 16 * x.rows), w seq, w (seq / 2 ^ 32), 0, 0, 0, 0, 0, 0]
  clean hdr ++ units ++ List.replicate (4032 - units.length) (0, false)

/-- A granted leaf (R220, R225): regions freeze, the leaf is dropped where its share of the buffer is full (448 leaves, 64
for summary) or no place is left, else it takes its place, stamp and sequence number and joins the open regions. -/
def State.grantLeaf (s : State) (x : Leaf) : State :=
  let stamp := s.devclk.toNat
  let s := s.freezeAt stamp
  let summary (n : Nat) : Bool := decide (128 ≤ n)
  let used := (s.vault.staged.filter (fun e => summary e.src == summary x.src)).length
  if (if summary x.src then 64 else 448) ≤ used then s.dropLeaf x.src
  else
    match s.nextPlace with
    | none => s.vaultFull.dropLeaf x.src
    | some pos =>
      let v := s.vault
      let seq := v.seq.toNat
      let s := s.setVault { v with
        seq := v.seq + 1
        wr := (pos + 1) % v.len
        fresh := x.src :: v.fresh.filter (· != x.src)
        ring := tins v.ring pos ⟨stamp, x.src, seq, false⟩
        staged := v.staged ++ [⟨v.base + 4096 * pos, pos, seq, x.src, leafBytes x (!v.fresh.contains x.src) stamp seq⟩] }
      let s := (List.range 16).foldl (fun s r =>
        if s.rgnState r = 1 ∧ s.inWindow r stamp then
          let s := if s.fld (Reg.VAULT.RGN_COUNT_COUNT r) 0 = 0 then s.setFld (Reg.VAULT.RGN_START_START r) 0 pos else s
          s.addFld (Reg.VAULT.RGN_COUNT_COUNT r) 0 1
        else s) s
      if s.vault.wr = 0 ∧ s.vault.pendGeom ∧ s.rgnsFree then s.applyGeometry else s

/-! ## Triggers (R224, R225) -/

/-- A trigger refused: counted and journalled. -/
def State.refuseTrigger (s : State) (src why : Nat) : State :=
  (s.addFld Reg.VAULT.TRIG_REFUSED_COUNT 0 1).post 0x30 0 0x002 1 (src + why * 2 ^ 6)

/-- A granted trigger, stamped with DEVCLK, opens the lowest free region or is refused. -/
def State.grantTrigger (s : State) (src : Nat) (tag : Word) : State :=
  let T := s.devclk.toNat
  let last := tget 0 s.vault.lastTrig src
  if 0 < last ∧ T - (last - 1) < per100us (s.fld Reg.VAULT.TRIG_SRC_HOLDOFF 0) then s.refuseTrigger src 0
  else
    match (List.range 16).find? (fun r => s.rgnState r == 0) with
    | none => s.refuseTrigger src 1
    | some r =>
      let lo := T - per100us (s.fld Reg.VAULT.TRIG_CFG_PRE 0)
      let hi := T + per100us (s.fld Reg.VAULT.TRIG_CFG_POST 0)
      let v := s.vault
      let s := s.setVault { v with windows := tins v.windows r (lo, hi), lastTrig := tset 0 v.lastTrig src (T + 1) }
      let s := ((s.setFld (Reg.VAULT.RGN_STATE r) 0 1).setFld (Reg.VAULT.RGN_SOURCE r) 0 src).setFld (Reg.VAULT.RGN_EXPORTING r) 0 0
      let held := s.heldBy r
      let s := s.setFld (Reg.VAULT.RGN_START_START r) 0 ((held.head?.map Prod.fst).getD s.vault.wr)
      let s := (s.setFld (Reg.VAULT.RGN_COUNT_COUNT r) 0 held.length).setFld (Reg.VAULT.RGN_GAPS_GAPS r) 0 0
      let s := (s.setPair (Reg.VAULT.RGN_T_LO_T r) (Reg.VAULT.RGN_T_HI_T r) 0 T).setFld (Reg.VAULT.RGN_TAG_TAG r) 0 tag.toNat
      let s := (s.addFld Reg.VAULT.TRIG_COUNT_COUNT 0 1).post 0x30 0 0x001 0 (src + r * 2 ^ 6)
      if hi = T then s.freezeRgn r else s

/-- The trigger arbiter's next grant. -/
def State.triggerStep (s : State) : State :=
  match rrPick 35 s.vault.lastSrc (fun k => s.vault.trig.any (fun t => t.1 == k)) with
  | none => s
  | some k =>
    match s.vault.trig.find? (fun t => t.1 == k) with
    | none => s
    | some t => (s.setVault { s.vault with trig := s.vault.trig.erase t, lastSrc := k }).grantTrigger t.1 t.2

/-- GPIO levels after the filter (R419, R420): a pad driven by GPIO_OE reads back GPIO_OUT, the others what drives them from
outside; a selected edge of the trigger's pin raises it (R224). -/
def State.gpioLevel (s : State) (p : Nat) (b : Bool) : State :=
  let w := (s.reg 0x63 0 0x018).toNat
  if bitOf w p = b then s
  else
    let s := s.setReg 0x63 0 0x018 (putField (s.reg 0x63 0 0x018) p p (b2n b))
    if s.bit Reg.VAULT.TRIG_SRC_PIN_EN 0 ∧ s.fld Reg.VAULT.TRIG_SRC_PIN 0 = p ∧ (s.bit Reg.VAULT.TRIG_SRC_PIN_FALL 0 = !b) then
      s.raiseTrigger 1 0
    else s

/-! ## Tally (R228-R234) -/

def State.tally (s : State) (d : Nat) : Tally := tget Tally.reset s.witness.tally d

def State.setTally (s : State) (d : Nat) (t : Tally) : State :=
  { s with witness := { s.witness with tally := tset Tally.reset s.witness.tally d t } }

/-- TPL_LEN of a template as it acts: 16 to 1,024. -/
def tplLenActs (n : Nat) : Nat := if n < 16 then 16 else min n 1024

def State.tplLen (s : State) (k : Nat) : Nat := tget 16 s.witness.tplLen k

/-- The samples of a template as the table stands. -/
def State.template (s : State) (k : Nat) : List Sample :=
  (List.range (tplLenActs (s.tplLen k))).map (fun i => tget (0, 0) s.witness.tpl (1024 * k + i))

/-- DECIM in effect: latched during a reception. -/
def State.tallyDecim (s : State) (d : Nat) : Nat :=
  max 1 (match (s.tally d).rx with
    | some r => wordField r.rate 6 0
    | none => s.fld Reg.TALLY.RATE_DECIM d)

/-- Frequency of the detector NCO: NCO_FREQ plus the offset of the reception (R232). -/
def State.tallyFreq (s : State) (d : Nat) : Nat :=
  (s.fld Reg.TALLY.NCO_FREQ_NCO_FREQ d + (match (s.tally d).rx with | some r => r.freq | none => 0)) % 2 ^ 32

/-- Channel samples, each with its Tc, reach a detector: its NCO, its filter and decimation (R228 steps 1 and 2). -/
def State.tallyFeed (s : State) (d : Nat) (xs : List (Nat × Int × Int)) : State :=
  let t := s.tally d
  let (ys, ph, _) := nco true (s.tallyFreq d) t.phase (xs.map (·.2))
  let (out, acc, win) := decimate (s.tallyDecim d) s.free t.acc t.win ((xs.zip ys).map (fun p => (p.1.1, p.2.1, p.2.2)))
  ({ s with free := s.free + 1 }).setTally d { t with acc := acc, win := win, phase := ph, queue := t.queue ++ out }

/-- A channel's samples, after gain and NCO, reach every detector on it (R217). -/
def State.tallySamples (s : State) (c : Nat) (xs : List (Nat × Int × Int)) : State :=
  (List.range 32).foldl (fun s d =>
    if s.bit Reg.TALLY.CTL_EN d ∧ s.fld Reg.TALLY.CTL_CHANNEL d = c ∧ s.running 0x32 d then s.tallyFeed d xs else s) s

/-- Σ x·conj(t) over pairs. -/
def correlate (xs ts : List Sample) : Int × Int :=
  (xs.zip ts).foldl (fun a p => (a.1 + p.1.1 * p.2.1 + p.1.2 * p.2.2, a.2 + p.1.2 * p.2.1 - p.1.1 * p.2.2)) (0, 0)

def energy (xs : List Sample) : Nat := (xs.map (fun x => (x.1 * x.1 + x.2 * x.2).toNat)).sum

def mag2 (z : Int × Int) : Nat := (z.1 * z.1 + z.2 * z.2).toNat

/-- What the correlator sees at the newest sample (R230). -/
def State.correlateNow (s : State) (d : Nat) (t : Tally) (tc : Nat) : Peak :=
  let k := s.fld Reg.TALLY.CTL_TEMPLATE d
  let ts := s.template k
  let L := ts.length
  let D := (L + 1) / 2
  let h := t.hist.take L
  let xs := List.replicate (L - h.length) ((0, 0) : Sample) ++ h.reverse
  let c1 := correlate (xs.take D) (ts.take D)
  let c2 := correlate (xs.drop D) (ts.drop D)
  ⟨t.n - 1, t.n - 1, (c1.1 + c2.1, c1.2 + c2.2), c1, c2, energy ts, energy xs, tc, t.gain, k, L⟩

/-- Samples between two correlations (R236): ⌈(fs / DECIM) / 30.72 MHz⌉. -/
def State.corrStride (s : State) (d fs : Nat) : Nat := (fs + s.tallyDecim d * 30720000 - 1) / (s.tallyDecim d * 30720000)

/-- A detector sample processed: the fast AGC's gain, the AGC block, the correlation (R229, R230). On a channel with FREQ_DOMAIN no
crossing counts: its zero input makes no detections (R236). -/
def State.tallySample (s : State) (d fs : Nat) (t : Tally) (x : Nat × Int × Int) : Tally :=
  let y := applyGain (gainQ t.gain) (x.2.1, x.2.2)
  let t := { t with
    hist := (y :: t.hist).take 1088
    n := t.n + 1
    blkSum := t.blkSum + (y.1 * y.1 + y.2 * y.2).toNat
    blkN := t.blkN + 1 }
  let i := t.n - 1
  if i % max 1 (s.corrStride d fs) ≠ 0 then t
  else
    match t.search with
    | some b =>
      if i < b.opened + 8 then
        let c := s.correlateNow d t x.1
        if mag2 b.c < mag2 c.c then { t with search := some { c with opened := b.opened } } else t
      else t
    | none =>
      if i < t.blank ∨ s.sbit (s.fld Reg.TALLY.CTL_CHANNEL d) Reg.STRM_RX.CTL_FREQ_DOMAIN then t
      else
        let c := s.correlateNow d t x.1
        if s.fld Reg.TALLY.DETECT_THRESH d * c.et * c.ex ≤ mag2 c.c * 65536 then { t with search := some c } else t

/-- SPS latched by a reception, 0 acting as 1. -/
def Recep.sps (r : Recep) : Nat := max 1 (wordField r.rate 11 8)

/-- What is due at the newest sample: 1 a symbol, 2 the end of an AGC block, 3 a detection, 0 nothing. -/
def State.tallyDue (s : State) (d : Nat) (t : Tally) : Nat :=
  let sym := match t.rx with
    | some r => decide (r.p + (r.k + 1) * r.sps < t.n)
    | none => false
  if sym then 1
  else if 2 ^ min 10 (s.fld Reg.TALLY.AGC_BLOCK d) ≤ t.blkN then 2
  else match t.search with
    | some b => if b.p + 8 < t.n then 3 else 0
    | none => 0

/-- Samples waiting are processed up to the first at which something is due. -/
def State.tallyRun (s : State) (d fs : Nat) : List (Nat × Int × Int) → Tally → Tally
  | [], t => { t with queue := [] }
  | x :: r, t =>
    if s.tallyDue d t ≠ 0 then { t with queue := x :: r } else s.tallyRun d fs r (s.tallySample d fs t x)

/-- A detector brought up to its next event; `fs` is its channel's sample rate. -/
def State.tallyAdvance (s : State) (d fs : Nat) : State :=
  let t := s.tally d
  s.setTally d (s.tallyRun d fs t.queue t)

/-- AGC limits and target. -/
def State.tallyClamp (s : State) (d : Nat) (g : Int) : Int :=
  clampInt (signedOf 10 (s.fld Reg.TALLY.AGC_LIM_FLOOR d)) (signedOf 10 (s.fld Reg.TALLY.AGC_LIM_CEIL d)) g

/-- The end of an AGC block (R229). -/
def State.tallyAgc (s : State) (d : Nat) : State :=
  let t := s.tally d
  let p := powerQdb t.blkSum t.blkN
  let err := signedOf 8 (s.fld Reg.TALLY.AGC_TARGET d) - p
  let step : Int := s.fld Reg.TALLY.AGC_STEP d
  let g := if 0 < err then t.gain + min err step else if err < 0 then t.gain - min (-err) step else t.gain
  s.setTally d { t with gain := if t.rx.isSome then t.gain else s.tallyClamp d g, blkSum := 0, blkN := 0 }

/-- A Tally write: a failed one has no effect the spec gives. -/
def State.tallyPut (s : State) (a : Nat) (bytes : List Byte) : State := (s.busPut 56 0 (a % 2 ^ 40) (clean bytes)).2

/-- Where an output slot lies, and its bytes. -/
def Recep.slotAt (r : Recep) : Nat × Nat :=
  let len := max 1 (wordField r.outCfg 23 8) * 1024
  ((r.outLo.toNat + 2 ^ 32 * wordField r.outHi 7 0) / 16 * 16 + r.slot * len, len)

/-- Hard bits left over written as a last byte, padded with zeros. -/
def State.flushBits (s : State) (r : Recep) : State :=
  if r.bits.isEmpty then s else s.tallyPut (r.slotAt.1 + r.bytes) (packBytes 1 r.bits)

/-- The record of a reception or of a missed overlap (R234), at the next index; answers the index. -/
def State.tallyRecord (s : State) (d : Nat) (words : List Word) : Nat × State :=
  let n := 2 ^ max 4 (s.fld Reg.TALLY.REC_CFG_LOG2_RECS d)
  let i := s.fld Reg.TALLY.REC_WR_INDEX d
  let base := (s.fld Reg.TALLY.REC_BASE_LO_BASE_LO d + 2 ^ 32 * s.fld Reg.TALLY.REC_BASE_HI_BASE_HI d) / 32 * 32
  let s := s.tallyPut (base + 32 * (i % n)) (wordsToBytes words)
  let next := (i % n + 1) % n
  let s := s.setFld Reg.TALLY.REC_WR_INDEX d next
  (i % n, if next = 0 then s.addFld Reg.TALLY.REC_WR_LAPS d 1 else s)

/-- The eight words of a record. -/
def recordWords (outcome mod template symbols stamp tc : Nat) (power : Int) (rho freq hdr slot : Nat) : List Word :=
  let w (n : Nat) : Word := BitVec.ofNat 32 n
  [w (outcome + mod * 2 ^ 3 + template * 2 ^ 8 + 2 ^ 16 * (symbols % 2 ^ 16)), w stamp, w (stamp / 2 ^ 32), w (tc / tcSecond),
   w (tc % tcSecond), w (toBits 16 power + 2 ^ 16 * rho), w freq, w (hdr % 2 ^ 24 + 2 ^ 24 * slot)]

/-- Header bits as a number, bit i of weight 2^i. -/
def hdrValue (l : List Bool) : Nat := (l.mapIdx (fun i b => b2n b * 2 ^ i)).sum

/-- A reception ends (R231, R233, R234): 0 COMPLETE, 1 SUPERSEDED, 3 HDR_FAIL, 4 TRUNCATED. -/
def State.endReception (s : State) (d : Nat) (r : Recep) (outcome : Nat) : State :=
  let s := s.flushBits r
  let (i, s) := s.tallyRecord d (recordWords outcome (wordField r.ctl 17 16) r.template r.written r.stamp r.tc r.power r.rho r.freq
    (hdrValue (r.hdr.take 24)) r.slot)
  let t := s.tally d
  let s := s.setTally d { t with rx := none, acks := if outcome = 0 ∨ outcome = 4 then t.acks + 1 else t.acks }
  if outcome = 0 then s.addFld Reg.TALLY.COMPLETE_COUNT d 1
  else if outcome = 1 then (s.addFld Reg.TALLY.SUPERSEDED_COUNT d 1).post 0x32 d 0x001 0 i
  else if outcome = 3 then (s.addFld Reg.TALLY.HDR_FAIL_COUNT d 1).post 0x32 d 0x002 0 i
  else s.addFld Reg.TALLY.TRUNCATED_COUNT d 1

/-- P_in of a peak (R230); open for a peak without any correlation. -/
def State.peakPower (s : State) (b : Peak) : Int × State :=
  if mag2 b.c = 0 ∨ b.et = 0 then
    let (x, s) := s.takeFree 16
    (signedOf 16 x, s)
  else (quarterDb (mag2 b.c) (2 ^ 30 * (b.et * b.len)) - b.gain, s)

/-- RHO of a peak, open where its divisor is zero. -/
def State.peakRho (s : State) (b : Peak) : Nat × State :=
  if b.et * b.ex = 0 then s.takeFree 16 else (min 0xFFFF (mag2 b.c * 65536 / (b.et * b.ex)), s)

/-- F of R232 for a decimation, open where either half shows nothing. -/
def State.peakFreq (s : State) (b : Peak) (dec : Nat) : Nat × State :=
  let z := (b.c2.1 * b.c1.1 + b.c2.2 * b.c1.2, b.c2.2 * b.c1.1 - b.c2.1 * b.c1.2)
  if z = (0, 0) then s.takeFree 32 else (toBits 32 (turns48 z / (2 ^ 16 * ((b.len + 1) / 2 * dec) : Nat)), s)

/-- A reception starts at a peak (R231): latched registers, the next output slot, offset, gain, the Vault trigger. -/
def State.startReception (s : State) (d : Nat) (b : Peak) (power : Int) (rho : Nat) : State :=
  let (freq, s) := s.peakFreq b (max 1 (s.fld Reg.TALLY.RATE_DECIM d))
  let w (o : Nat) : Word := s.reg 0x32 d o
  let t := s.tally d
  let slots := max 1 (wordField (w 0x024) 7 0)
  let hdrEn := wordField (w 0x000) 19 19 == 1
  let r : Recep := ⟨b.p, power, rho, freq, s.devclk.toNat, b.tc, w 0x000, w 0x004, w 0x018, w 0x01C, w 0x020, w 0x024,
    b.template, t.nextSlot % slots, 0, b.c, b.et, [], if hdrEn then none else some (wordField (w 0x018) 23 8), 0, 0, [], 0, false⟩
  let g := s.tallyClamp d (signedOf 8 (s.fld Reg.TALLY.AGC_TARGET d) - power)
  let ahead := (t.n - 1 - b.p + t.queue.length) * max 1 (s.fld Reg.TALLY.RATE_DECIM d) + t.acc
  let s := s.setTally d { t with rx := some r, gain := g, nextSlot := (t.nextSlot % slots + 1) % slots, phase := (t.phase + ahead * freq) % 2 ^ 32 }
  let s := if s.bit Reg.VAULT.TRIG_SRC_TALLY_EN 0 ∧ s.bit Reg.TALLY.CTL_TRIG_VAULT d then s.raiseTrigger (3 + d) (BitVec.ofNat 32 d) else s
  if r.total = some 0 then s.endReception d r 0 else s

/-- A detection is decided (R230, R231). -/
def State.tallyDetect (s : State) (d : Nat) (b : Peak) : State :=
  let s := (s.setTally d { s.tally d with search := none, blank := b.p + b.len }).addFld Reg.TALLY.DETECTS_COUNT d 1
  let (power, s) := s.peakPower b
  let (rho, s) := s.peakRho b
  match (s.tally d).rx with
  | none => s.startReception d b power rho
  | some r =>
    if r.power + 2 * (min 30 (s.fld Reg.TALLY.DETECT_MARGIN d) : Nat) ≤ power then
      (s.endReception d r 1).startReception d b power rho
    else
      ((s.tallyRecord d (recordWords 2 (wordField r.ctl 17 16) b.template 0 s.devclk.toNat b.tc power rho 0 0 0)).2).addFld
        Reg.TALLY.MISSED_COUNT d 1

/-! ## Symbols (R233) -/

/-- Whether a bit decided by the sign of a value is 1; a value of zero leaves it open. -/
def signBit (seed i : Nat) (v : Int) : Bool := if v = 0 then bitOf (Config.freeBits seed i) 0 else decide (v < 0)

/-- Bits of 8PSK by phase in steps of π/4. -/
def psk8 : List (List Bool) :=
  [[false, false, false], [false, false, true], [false, true, true], [false, true, false],
   [true, true, false], [true, true, true], [true, false, true], [true, false, false]]

/-- The nearest 8PSK phase to a point, open for zero. -/
def nearest8 (seed : Nat) (z : Int × Int) : Nat :=
  if z = (0, 0) then Config.freeBits seed 0 % 8
  else
    let a := z.1.natAbs
    let b := z.2.natAbs
    let k := if (a + b) ^ 2 < 2 * a ^ 2 then 0 else if (a + b) ^ 2 < 2 * b ^ 2 then 2 else 1
    if 0 ≤ z.1 ∧ 0 ≤ z.2 then k else if z.1 < 0 ∧ 0 ≤ z.2 then 4 - k else if z.1 < 0 then 4 + k else (8 - k) % 8

/-- Minimum-distance bits of y = num / den, den > 0, in units of 8,192, for a MOD. -/
def hardBits (mod seed : Nat) (num : Int × Int) (den : Nat) : List Bool :=
  if mod = 0 then [signBit seed 0 (num.1 + num.2)]
  else if mod = 1 then [signBit seed 0 num.1, signBit seed 1 num.2]
  else if mod = 2 then psk8.getD (nearest8 seed num) []
  else
    let out (i : Nat) (v : Int) : Bool :=
      if 10 * v.natAbs ^ 2 = 4 * 8192 ^ 2 * den ^ 2 then bitOf (Config.freeBits seed i) 0
      else decide (4 * 8192 ^ 2 * den ^ 2 < 10 * v.natAbs ^ 2)
    [signBit seed 0 num.1, signBit seed 1 num.2, out 2 num.1, out 3 num.2]

/-- CRC-8 with x^8 + x^2 + x + 1 from zero over bits in order. -/
def crc8Bits (l : List Bool) : Nat :=
  l.foldl (fun c b => let fb := decide (128 ≤ c) != b; (2 * c % 256) ^^^ (if fb then 7 else 0)) 0

/-- A component as it is written: which neighbour an inexact value becomes, and one outside 16 bits, is left open. -/
def outComponent (seed i : Nat) (num : Int) (den : Nat) : Int :=
  let q := num / (den : Int)
  let q := if num % (den : Int) = 0 then q else q + b2n (bitOf (Config.freeBits seed i) 0)
  if clips16 q then signedOf 16 (Config.freeBits seed (i + 2)) else q

/-- A data symbol of a reception, y = num / den, written to the output slot. -/
def State.dataSymbol (s : State) (r : Recep) (num : Int × Int) (den : Nat) : Recep × State :=
  let seed := s.free
  let s := { s with free := s.free + 1 }
  let (a, len) := r.slotAt
  let num := if den = 0 then (signedOf 16 (Config.freeBits seed 8), signedOf 16 (Config.freeBits seed 9)) else num
  let den := max 1 den
  if wordField r.ctl 18 18 = 1 then
    let b := hardBits (wordField r.ctl 17 16) seed num den
    if 8 * len < 8 * r.bytes + r.bits.length + b.length then ({ r with data := r.data + 1, full := true }, s)
    else
      let all := r.bits ++ b
      let k := all.length / 8
      let s := if k = 0 then s else s.tallyPut (a + r.bytes) (packBytes k all)
      ({ r with data := r.data + 1, written := r.written + 1, bits := all.drop (8 * k), bytes := r.bytes + k }, s)
  else if len < r.bytes + 4 then ({ r with data := r.data + 1, full := true }, s)
  else
    let v := toBits 16 (outComponent seed 0 num.1 den) + 2 ^ 16 * toBits 16 (outComponent seed 1 num.2 den)
    ({ r with data := r.data + 1, written := r.written + 1, bytes := r.bytes + 4 }, s.tallyPut (a + r.bytes) (leBytes 4 v))

/-- A reception after one more symbol: kept, or ended when its data are complete. -/
def State.keepReception (s : State) (d : Nat) (r : Recep) : State :=
  if r.total = some r.data then s.endReception d r (if r.full then 4 else 0)
  else s.setTally d { s.tally d with rx := some r }

/-- Symbol k of a reception taken from the detector's samples. -/
def State.tallySymbol (s : State) (d : Nat) (r : Recep) : State :=
  let t := s.tally d
  let x := t.hist.getD (t.n - 1 - (r.p + (r.k + 1) * r.sps)) (0, 0)
  let per := wordField r.frame 7 0
  let pilot := per != 0 && r.k % (per + 1) == 0
  let r := { r with k := r.k + 1 }
  if pilot then s.setTally d { t with rx := some { r with h := x, hd := 1 } }
  else
    let num := ((8192 * r.hd : Nat) * (x.1 * r.h.1 + x.2 * r.h.2), (8192 * r.hd : Nat) * (x.2 * r.h.1 - x.1 * r.h.2))
    let den := mag2 r.h
    if wordField r.ctl 19 19 = 1 ∧ r.hdr.length < 32 then
      let bit := if den = 0 then bitOf (Config.freeBits s.free 0) 0 else decide (num.1 < 0)
      let s := if den = 0 then { s with free := s.free + 1 } else s
      let r := { r with hdr := r.hdr ++ [bit] }
      if r.hdr.length < 32 then s.setTally d { s.tally d with rx := some r }
      else if crc8Bits ((r.hdr.take 24).reverse) = hdrValue (r.hdr.drop 24) then
        s.keepReception d { r with total := some (hdrValue (r.hdr.take 16)) }
      else s.endReception d r 3
    else
      let (r, s) := s.dataSymbol r num den
      s.keepReception d r

/-- A write of TPL_DATA (R235): one template sample, and SAMPLE advances. -/
def State.tplData (s : State) (d : Nat) (v : Word) : State :=
  let k := 1024 * s.fld Reg.TALLY.TPL_ADDR_TEMPLATE d + s.fld Reg.TALLY.TPL_ADDR_SAMPLE d
  let x : Sample := (signedOf 8 (wordField v 7 0), signedOf 8 (wordField v 15 8))
  let s := { s with witness := { s.witness with tpl := tset (0, 0) s.witness.tpl k x } }
  s.setFld Reg.TALLY.TPL_ADDR_SAMPLE d (s.fld Reg.TALLY.TPL_ADDR_SAMPLE d + 1)

/-- A write of TPL_LEN sets the length of template TPL_ADDR.TEMPLATE. -/
def State.tplLenWrite (s : State) (d n : Nat) : State :=
  { s with witness := { s.witness with tplLen := tset 16 s.witness.tplLen (s.fld Reg.TALLY.TPL_ADDR_TEMPLATE d) (n % 2048) } }

end Sys2Proof.Machine
end

