-- ==== Sys2Proof/Machine/StreamOps.lean ====
section
/-! DEFINITION. Stream channels: timing (R69, R70), commits (R90-R95), the receive and transmit paths (R71-R88) up to memory,
the FFT queues (R81), control words and the sample FIFOs of Ahnent streams (R316, R319), and what a step of a time base
does to its channels (R361). -/
namespace Sys2Proof.Machine

/-! ## Settings in effect -/

/-- A field of a committed set or of a job's setting. -/
def effFld (c : Nat) (eff : Tab Word) (f : Field) : Nat :=
  let (cls, inst) := strmUnit c
  wordField (tget (resetWord cls inst f.off) eff f.off) f.msb f.lsb

def isTx (c : Nat) : Bool := decide (512 ≤ c)

/-- Signed fields. -/
def State.sInt (s : State) (c : Nat) (f : Field) : Int := signedOf (f.msb + 1 - f.lsb) (s.sfld c f)

/-- Instance of a channel in its class. -/
def strmInst (c : Nat) : Nat := c % 512

/-- A status field of a channel, at the same offset for both kinds. -/
def strmField (c : Nat) (f : Field) : Field := { f with cls := (strmUnit c).1 }

def State.setS (s : State) (c : Nat) (f : Field) (v : Nat) : State := s.setFld (strmField c f) (strmInst c) v

def State.getS (s : State) (c : Nat) (f : Field) : Nat := s.fld (strmField c f) (strmInst c)

/-- An event of R97 with a sticky bit. -/
def State.strmEvent (s : State) (c : Nat) (f : Field) (event sev sym : Nat) : State :=
  (s.setS c f 1).post (strmUnit c).1 (strmInst c) event sev (sym % 2 ^ 21)

/-- SAT (R97): the sticky bit, journalled once a slot. -/
def State.strmSat (s : State) (c sym : Nat) : State :=
  let s := s.setS c Reg.STRM_RX.EVENTS_SAT 1
  let x := s.strm c
  if x.satSlot then s else (s.setStrm c { x with satSlot := true }).post (strmUnit c).1 (strmInst c) 0x006 0 sym

/-- Numerology, extended CP and FFT size in effect. -/
def State.chMu (s : State) (c : Nat) : Nat := muOf (s.sfld c Reg.STRM_RX.CTL_MU)
def State.chExt (s : State) (c : Nat) : Bool := s.sbit c Reg.STRM_RX.CTL_CP_EXT
def State.chSize (s : State) (c : Nat) : Nat := fftSize (s.sfld c Reg.STRM_RX.CTL_FFT_SIZE)

/-- Whether a channel runs: ENABLE in effect, its slice powered and not fenced (R68). -/
def State.chRuns (s : State) (c : Nat) : Bool :=
  s.timeRuns && s.sbit c Reg.STRM_RX.CTL_ENABLE && s.running (strmUnit c).1 (strmInst c)

/-- Samples in a span of Tc: fs = N × 15 kHz × 2^MU (R69). -/
def State.samplesIn (s : State) (c tc : Nat) : Nat := tc * s.chSize c * 2 ^ s.chMu c / 131072

/-- Tc in a number of samples, rounded up. -/
def State.tcOf (s : State) (c n : Nat) : Nat := (n * 131072 + s.chSize c * 2 ^ s.chMu c - 1) / (s.chSize c * 2 ^ s.chMu c)

/-- CP samples of symbol `l` of a subframe (R69). DEDUCED: R69 counts the prefix in samples, N/64 more for a long one, and R360 the
boundaries in Tc, 1,024 more: the two agree only at MU = 1. CP insertion and the phase term of R75 go by R69, the windows by the
boundaries of R360 (log entry 64). -/
def cpSamples (n mu : Nat) (ext : Bool) (l : Nat) : Nat :=
  if ext then n / 4 else 9 * n / 128 + (if l = 0 ∨ l = 7 * 2 ^ mu then n / 64 else 0)

/-- The grid of a channel, `d` Tc from now: the time base's grid moved by TIME_OFFSET (R69). -/
def State.chGrid (s : State) (c : Nat) (d : Int) : GridAt :=
  gridAt (s.chMu c) (s.chExt c) (s.gridTime (s.sfld c Reg.STRM_RX.CTL_TB) - s.sInt c Reg.STRM_RX.TIME_OFFSET_TIME_OFFSET + d)

def State.chCode (s : State) (c : Nat) (g : GridAt) : Nat :=
  symCode (s.chMu c) (s.chExt c) (s.fld Reg.TB.GRID_CFG_SFN_OFFSET (s.sfld c Reg.STRM_RX.CTL_TB)) g

/-- Time of the channel's time base in Tc. -/
def State.chTc (s : State) (c : Nat) : Nat := (s.tb (s.sfld c Reg.STRM_RX.CTL_TB)).tc

def codeSym (k : Nat) : Nat := k % 16
def codeSlot (k : Nat) : Nat := k / 16 % 128
def codeSfn (k : Nat) : Nat := k / 2048

/-- slot_count of R70. -/
def slotCount (mu code : Nat) : Nat := codeSfn code * (10 * 2 ^ mu) + codeSlot code

/-- Whether the TDD pattern makes a symbol active (R70). -/
def patternActive (c : Nat) (eff : Tab Word) (code : Nat) : Bool :=
  let len := effFld c eff Reg.STRM_RX.PATTERN_CTL_PATTERN_LEN
  let len := if len = 0 then 1 else min 40 len
  let p := slotCount (muOf (effFld c eff Reg.STRM_RX.CTL_MU)) code % len
  let m := if p % 2 = 0 then effFld c eff (Reg.STRM_RX.PATTERN_MASK_EVEN (p / 2))
    else effFld c eff (Reg.STRM_RX.PATTERN_MASK_ODD (p / 2))
  bitOf m (codeSym code)

def State.chActive (s : State) (c code : Nat) : Bool := patternActive c (s.strm c).eff code

/-- FE.STATUS of every slice: channels enabled in effect; IDLE when none is and no engine of the slice is named by any
enabled channel. -/
def State.syncSlice (s : State) (f : Nat) : State :=
  let on := s.streams.ch.filter (fun e => s.sbit e.1 Reg.STRM_RX.CTL_ENABLE)
  let rx := (on.filter (fun e => decide (e.1 < 512) && e.1 / 64 == f)).length
  let tx := (on.filter (fun e => isTx e.1 && (e.1 - 512) / 64 == f)).length
  let named := on.any (fun e => s.sfld e.1 Reg.STRM_RX.FFT_CFG_FFT_SEL / 4 == f)
  ((s.setFld Reg.FE.STATUS_RX_ENABLED f rx).setFld Reg.FE.STATUS_TX_ENABLED f tx).setFld Reg.FE.STATUS_IDLE f
    (b2n (rx + tx == 0 && !named))

/-! ## Ahnent streams (R316, R319) -/

def State.ahn (s : State) (l : Nat) : AhnLane := tget AhnLane.reset s.lanes.ahn l

def State.setAhn (s : State) (l : Nat) (x : AhnLane) : State :=
  let s := { s with lanes := { s.lanes with ahn := tset AhnLane.reset s.lanes.ahn l x } }
  (s.setFld (Reg.AHNENT.LANE_STATUS_MFN (l % 4)) (l / 4) x.mfnTx).setFld (Reg.AHNENT.LANE_STATUS_CW_QUEUE (l % 4)) (l / 4)
    x.words.length

/-- A lane's transmit or receive state: 0 DOWN, 1 TRAIN, 2 ALIGN, 3 UP, 4 IDLE. -/
def State.txState (s : State) (l : Nat) : Nat := s.fld (Reg.AHNENT.LANE_STATUS_TX_STATE (l % 4)) (l / 4)
def State.rxState (s : State) (l : Nat) : Nat := s.fld (Reg.AHNENT.LANE_STATUS_RX_STATE (l % 4)) (l / 4)

/-- Whether a lane's transmitter has been in electrical idle for 2 µs of a recalibration (R312). -/
def State.inGap (s : State) (l : Nat) : Bool :=
  s.bit Reg.LANE.STATUS_IDLE l && s.bit Reg.LANE.STATUS_RECAL_BUSY l &&
    decide (200 ≤ s.devclk.toNat - max (s.ahn l).txSince (tget 0 s.lanes.recal l - 1))

/-- A transmit state begins (R320); STATUS.IDLE follows it, and an idle gap that ends is noted for R312. -/
def State.setTxState (s : State) (l n : Nat) : State :=
  let s := if s.inGap l then { s with lanes := { s.lanes with gap := tset false s.lanes.gap l true } } else s
  ((s.setFld (Reg.AHNENT.LANE_STATUS_TX_STATE (l % 4)) (l / 4) n).setFld Reg.LANE.STATUS_IDLE l (b2n (n == 0 || n == 4))).setAhn l
    { s.ahn l with txSince := s.devclk.toNat }

def State.setRxState (s : State) (l n : Nat) : State :=
  (s.setFld (Reg.AHNENT.LANE_STATUS_RX_STATE (l % 4)) (l / 4) n).setAhn l { s.ahn l with rxSince := s.devclk.toNat }

/-- SLOTS of a stream as it acts; IQW, whose 4 bits hold 16 as 0 (its reset), below 12 as 12; EN. -/
def State.ahnSlots (s : State) (l st : Nat) : Nat := max 1 (s.fld (Reg.AHNENT.STREAM_SLOTS (16 * (l % 4) + st)) (l / 4))
def State.ahnIqw (s : State) (l st : Nat) : Nat :=
  let n := s.fld (Reg.AHNENT.STREAM_IQW (16 * (l % 4) + st)) (l / 4)
  if n = 0 then 16 else max 12 n
def State.ahnEn (s : State) (l st : Nat) : Bool := s.bit (Reg.AHNENT.STREAM_EN (16 * (l % 4) + st)) (l / 4)

/-- STRM_TX channels that name a stream of a lane. -/
def State.namers (s : State) (l st : Nat) : List Nat :=
  (s.streams.ch.map (·.1)).filter (fun c => isTx c && s.sfld c Reg.STRM_RX.LINK_LANE == l && s.sfld c Reg.STRM_RX.LINK_STREAM == st)

/-- STRM_TX channels that send to a stream of a lane (R85). -/
def State.sendersTo (s : State) (l st : Nat) : List Nat :=
  (s.namers l st).filter (fun c => s.chRuns c && !s.sbit c Reg.STRM_RX.CTL_FREQ_DOMAIN)

/-- Samples of a channel due by now and not yet taken, the sample its CP gained (R358) among them; one that waits for a boundary sends
zeros at its rate (R91, R361). -/
def State.outDue (s : State) (c : Nat) : Nat :=
  let x := s.strm c
  let n := s.samplesIn c ((s.chTc c : Int) - x.startAt).toNat - x.outTaken
  if x.waiting then n else min x.out.length (n + x.cpAdj.toNat)

/-- The samples due by now of every channel of a stream summed into its transmit FIFO (R85, R317); discarded while the lane
does not send (R325); beyond 64 × SLOTS samples the oldest drop, counted as SAT. -/
def State.pullStream (s : State) (l st : Nat) : State :=
  let cs := s.sendersTo l st
  match cs with
  | [] => s
  | c0 :: _ =>
    let n := cs.foldl (fun m c => min m (s.outDue c)) (s.outDue c0)
    let sum := (List.range n).map (fun i => cs.foldl (fun (a : Sample) c =>
      let y := (s.strm c).out.getD i (0, 0)
      (a.1 + y.1, a.2 + y.2)) ((0, 0) : Sample))
    let s := cs.foldl (fun s c =>
      let x := s.strm c
      s.setStrm c { x with out := x.out.drop n, outTaken := x.outTaken + n }) s
    let x := s.ahn l
    if s.txState l = 2 ∨ s.txState l = 3 then
      let f := tget [] x.fifo st ++ sum
      let cap := 64 * s.ahnSlots l st
      let excess := f.length - cap
      let s := if 0 < excess then cs.foldl (fun s c => s.strmSat c ((s.strm c).cur.getD 0)) s else s
      s.setAhn l { s.ahn l with fifo := tset [] (s.ahn l).fifo st (f.drop excess) }
    else
      s.setAhn l { x with fifo := tset [] x.fifo st [] }

/-- The next sample a stream will be given, in the count of samples it sends. -/
def State.nextSample (s : State) (l st : Nat) : Nat :=
  tget 0 (s.ahn l).sentCount st + (tget [] (s.ahn l).fifo st).length

/-- When a word takes effect, in samples of its stream from the next multiframe on: IDLE_ENTER at once, USER in the next multiframe. -/
def State.wordAhead (s : State) (l : Nat) (w : CtlWord) : Nat :=
  if w.op = 5 then 0 else if w.op = 6 then s.ahnSlots l w.stream else w.effect - tget 0 (s.ahn l).sentCount w.stream

/-- Order of a lane's queue (R319): by effect time, counted in multiframes of the words' own streams, then by stream index. -/
def State.wordBefore (s : State) (l : Nat) (a b : CtlWord) : Bool :=
  let x := s.wordAhead l a * s.ahnSlots l b.stream
  let y := s.wordAhead l b * s.ahnSlots l a.stream
  decide (x < y) || (x == y && decide (a.stream < b.stream))

/-- A control word into a lane's 32-entry queue, or waiting before a full one (R319). -/
def State.pushWord (s : State) (l : Nat) (w : CtlWord) : State :=
  let x := s.ahn l
  if x.words.length < 32 then
    let ahead := x.words.takeWhile (fun v => !s.wordBefore l w v)
    s.setAhn l { x with words := ahead ++ w :: x.words.drop ahead.length }
  else { s with lanes := { s.lanes with waitingWords := tset [] s.lanes.waitingWords l (tget [] s.lanes.waitingWords l ++ [w]) } }

/-- The head of a lane's queue sent: the oldest word that waits before the full queue takes its place in the order (R319). -/
def State.popWord (s : State) (l : Nat) : State :=
  let s := s.setAhn l { s.ahn l with words := (s.ahn l).words.drop 1 }
  match tget [] s.lanes.waitingWords l with
  | w :: r => ({ s with lanes := { s.lanes with waitingWords := tset [] s.lanes.waitingWords l r } }).pushWord l w
  | [] => s

/-- Samples of a stream in `n` multiframes, rounded up, at the rate of the channels that send it; SLOTS of them in each where none does. -/
def State.mfSamples (s : State) (l st n period : Nat) : Nat :=
  match s.sendersTo l st with
  | c :: _ => (n * (s.chSize c * 2 ^ s.chMu c) * 15000 * period + (10 ^ 14 - 1)) / 10 ^ 14
  | [] => n * s.ahnSlots l st

/-- Whether a lane takes control words: an Ahnent lane. -/
def State.takesWords (s : State) (l : Nat) : Bool := decide (l < 48) && s.fld Reg.LANEQ.PROTO_PROTOCOL (l / 4) == 1

/-- What the words told so far say at a sample: the operation of the last one effective by then, else `off`. -/
def State.toldAt (s : State) (key sample off : Nat) : Nat :=
  (((tget [] s.streams.told key).find? (fun e => decide (e.1 ≤ sample))).map (·.2)).getD off

/-- A PA-enable or ramp word told with its effect sample; the last 8 of a stream or channel are remembered. -/
def State.tell (s : State) (key l st op effect : Nat) : State :=
  let old := tget [] s.streams.told key
  let later := old.takeWhile (fun e => decide (effect < e.1))
  let new := (later ++ (effect, op) :: old.drop later.length).take 8
  ({ s with streams := { s.streams with told := tset [] s.streams.told key new } }).pushWord l ⟨st, op, effect, 0⟩

/-- Where words told are kept: PA-enable by stream (R85), ramps by channel; and what holds while none is. -/
def toldKey (c l st op : Nat) : Nat × Nat := if op ≤ 2 then (16 * l + st, 2) else (1024 + c, 4)

/-- A control word of a stream channel at its event, where none told ahead has said it: effective at the next sample of its stream. -/
def State.chWord (s : State) (c op : Nat) : State :=
  let l := s.sfld c Reg.STRM_RX.LINK_LANE
  let st := s.sfld c Reg.STRM_RX.LINK_STREAM
  if s.takesWords l then
    let s := s.pullStream l st
    let (key, off) := toldKey c l st op
    if s.toldAt key (s.nextSample l st + 1) off = op then s else s.tell key l st op (s.nextSample l st)
  else s

/-! ## Commits (R90-R95) -/

/-- Offsets of the RWS registers of a channel. -/
def rwsOffsets (c : Nat) : List Nat :=
  [0x000, 0x004, 0x008, 0x00C, 0x010, 0x018, 0x01C, 0x020, 0x024, 0x028, 0x02C, 0x030, 0x034, 0x038, 0x03C, 0x040] ++
  (if isTx c then [0x080, 0x084, 0x088, 0x08C] else [0x080, 0x084, 0x088, 0x08C, 0x090, 0x094, 0x098, 0x09C]) ++
  (List.range 20).map (fun k => 0x100 + 4 * k)

/-- The whole shadow set as it stands (R90). -/
def State.shadowSet (s : State) (c : Nat) : Tab Word :=
  let (cls, inst) := strmUnit c
  (rwsOffsets c).foldl (fun t o => tset (resetWord cls inst o) t o (s.reg cls inst o)) []

/-- Tc until the next hand-over point (R91) and the symbol that begins there. -/
def State.handOver (s : State) (c : Nat) : Nat × Nat :=
  let g := s.chGrid c 0
  if s.sbit c Reg.STRM_RX.CTL_COMMIT_SLOT then
    let n := slotSymbols (s.chExt c)
    let d := startOf (s.chMu c) (s.chExt c) ((g.l / n + 1) * n) - startOf (s.chMu c) (s.chExt c) g.l - g.since
    (d, s.chCode c (s.chGrid c d))
  else (g.left, s.chCode c (s.chGrid c g.left))

/-- COMMIT_STATE follows the waiting sets. -/
def State.syncCommit (s : State) (c : Nat) : State :=
  let x := s.strm c
  let st := if x.pend.isSome ∨ x.queued.isSome then 1 else if s.getS c Reg.STRM_RX.COMMIT_STATE_STATE = 0 then 0 else 2
  ((s.setS c Reg.STRM_RX.COMMIT_STATE_STATE st).setS c Reg.STRM_RX.COMMIT_STATE_LOCKED (b2n x.locked)).setS c
    Reg.STRM_RX.COMMIT_STATE_QUEUED (b2n x.queued.isSome)

/-- Whether a waiting set may apply at the symbol `code`. -/
def CommitSet.fits (k : CommitSet) (slotWise : Bool) (code : Nat) : Bool :=
  match k.target with
  | none => true
  | some t => if slotWise then t / 16 == code / 16 else t == code

/-- The lock point of the coming hand-over (R92). -/
def State.lockPoint (s : State) (c : Nat) : State :=
  let x := s.strm c
  let (_, code) := s.handOver c
  let ok := match x.pend with
    | some k => k.fits (s.sbit c Reg.STRM_RX.CTL_COMMIT_SLOT) code
    | none => false
  (s.setStrm c { x with lockDone := true, locked := x.locked || ok }).syncCommit c

/-- The target of a commit that arrives now (R93): none without EN, `some none` when the first occurrence of TARGET does not
lie 64 SAMP cycles to 5.12 s ahead. -/
def State.commitTarget (s : State) (c : Nat) : Option (Option Nat) :=
  let (cls, inst) := strmUnit c
  let w := s.reg cls inst 0x064
  if wordField w 31 31 = 0 then none
  else
    let t := wordField w 20 0
    let mu := s.chMu c
    let n := slotSymbols (s.chExt c)
    let t := if s.sbit c Reg.STRM_RX.CTL_COMMIT_SLOT then t / 16 * 16 else t
    if n ≤ codeSym t ∨ 10 * 2 ^ mu ≤ codeSlot t ∨ !s.timeRuns then some none
    else
      let g := s.chGrid c 0
      let now := ((g.frame + s.fld Reg.TB.GRID_CFG_SFN_OFFSET (s.sfld c Reg.STRM_RX.CTL_TB)) % 1024).toNat * 19660800 + g.subframe * 1966080 +
        startOf mu (s.chExt c) g.l + g.since
      let sl := codeSlot t
      let at_ := codeSfn t * 19660800 + sl / 2 ^ mu * 1966080 + startOf mu (s.chExt c) (sl % 2 ^ mu * n + codeSym t)
      let d := (at_ + 1024 * 19660800 - now) % (1024 * 19660800)
      if 256 ≤ d ∧ d ≤ 10066329600 then some (some t) else some none

/-- A commit arrives at a channel (R90-R93), with the operations to be told. LATE tells of the last targeted commit, so one without a
target leaves it. DESIGN CHOICE: the symbol in DETAIL of COMMIT_LATE is the one in force at arrival, not the target (log entry 67). -/
def State.commitArrive (s : State) (c : Nat) (ops : List (BitVec 16)) : State :=
  let x := s.strm c
  let near := if s.timeRuns then
      let (d, _) := s.handOver c
      decide (d < 256) || (decide (d = 256) && x.pend.isSome)
    else false
  let s := if near && !x.lockDone then s.lockPoint c else s
  let s := s.setS c Reg.STRM_RX.COMMIT_STATE_COMMIT_NUM (s.getS c Reg.STRM_RX.COMMIT_STATE_COMMIT_NUM + 1)
  let (target, late) := match s.commitTarget c with
    | none => (none, false)
    | some (some t) => (some t, false)
    | some none => (none, true)
  let s := if late || target.isSome then s.setS c Reg.STRM_RX.COMMIT_STATE_LATE (b2n late) else s
  let s := if late then s.strmEvent c Reg.STRM_RX.EVENTS_COMMIT_LATE 0x005 1 ((s.strm c).cur.getD 0) else s
  let x := s.strm c
  let old (k : Option CommitSet) := (k.map (·.ops)).getD []
  let k (more : List (BitVec 16)) : CommitSet := ⟨s.shadowSet c, target, more ++ ops⟩
  let x := if x.locked then { x with queued := some (k (old x.queued)) } else { x with pend := some (k (old x.pend)) }
  (s.setStrm c x).syncCommit c

/-- One member of a COMMIT with NOTIFY_APPLIED has applied: the operation's params are the members named and not yet
applied, then (member, symbol) of the lowest and of the highest; its event follows the last (R44). -/
def State.commitTold (s : State) (c code : Nat) (op : BitVec 16) : State :=
  match s.findOp op .commitNotify with
  | none => s
  | some o =>
    let m := strmInst c
    let w (i : Nat) := (o.params.getD i 0).toNat
    let lo := if o.progress = 0 ∨ m < w 1 then (m, code) else (w 1, w 2)
    let hi := if o.progress = 0 ∨ w 3 < m then (m, code) else (w 3, w 4)
    let n := o.progress + 1
    let o := { o with progress := n, params := [o.params.getD 0 0, BitVec.ofNat 32 lo.1, BitVec.ofNat 32 lo.2, BitVec.ofNat 32 hi.1, BitVec.ofNat 32 hi.2] }
    if w 0 ≤ n then s.endOp o .ok 0 [BitVec.ofNat 32 n, BitVec.ofNat 32 lo.2, BitVec.ofNat 32 hi.2] else s.setOp o

/-- Gain as it acts: −192 to 96 quarter-dB. -/
def gainClamp (g : Int) : Int := clampInt (-192) 96 g

/-- Input found missing (R82): IN_GAP, and INPUT_GAP when it rises. -/
def State.inputGap (s : State) (c sym : Nat) : State :=
  if s.getS c Reg.STRM_RX.STATUS_IN_GAP = 1 then s
  else (s.strmEvent c Reg.STRM_RX.EVENTS_INPUT_GAP 0x002 1 sym).setS c Reg.STRM_RX.STATUS_IN_GAP 1

/-- Whether a receive channel's lane delivers nothing: no lane, or an Ahnent lane whose receiver is neither UP nor IDLE (R82). -/
def State.noInput (s : State) (c : Nat) : Bool :=
  let l := s.sfld c Reg.STRM_RX.LINK_LANE
  decide (48 ≤ l) || (s.takesWords l && s.rxState l != 3 && s.rxState l != 4)

/-- The locked set applies at a symbol (R91, R94): every field at once; ENABLE coming into effect starts the phases, and the gain where
AGC_EN was not in effect already; the AGC measures whole slots; a
change of timing waits for the first boundary of the new timing. -/
def State.applySet (s : State) (c : Nat) (k : CommitSet) (code : Nat) : State :=
  let x := s.strm c
  let was := s.sbit c Reg.STRM_RX.CTL_ENABLE
  let agcWas := s.sbit c Reg.STRM_RX.CTL_AGC_EN && !isTx c
  let timing (e : Tab Word) := (effFld c e Reg.STRM_RX.CTL_TB, muOf (effFld c e Reg.STRM_RX.CTL_MU),
    effFld c e Reg.STRM_RX.CTL_CP_EXT, effFld c e Reg.STRM_RX.TIME_OFFSET_TIME_OFFSET)
  let moved := timing x.eff != timing k.words
  let startOld := (s.chTc c : Int) - (s.chGrid c 0).since
  let s := s.setStrm c { x with eff := k.words, pend := x.queued, queued := none, locked := false }
  let now := s.sbit c Reg.STRM_RX.CTL_ENABLE
  let agc := s.sbit c Reg.STRM_RX.CTL_AGC_EN && !isTx c
  let x := s.strm c
  let x := if now && !was then { x with
      phase := 0, prPhase := 0, runPos := none, tail := [], tailMiss := [], ready := [], stopped := s.quietMode
      headers := if x.toFft.isEmpty && x.writing.isEmpty && (s.streams.fft.all (fun e => e.2.all (fun q => q.1 != c))) then [] else x.headers
      lo := s.reg (strmUnit c).1 (strmInst c) 0x014 }
    else x
  let x := if agcWas && agc then x else { x with gain := gainClamp (signedOf 10 (s.sfld c Reg.STRM_RX.GAIN_GAIN_QDB)) }
  let x := if agc && now && (!agcWas || !was) then { x with agcOn := codeSym code == 0, agcSum := 0, agcN := 0, agcSlots := 0 } else x
  let grid := s.chGrid c 0
  let coincide := decide ((s.chTc c : Int) - grid.since = startOld)
  let from_ := if now && !was then (s.chTc c : Int) - grid.since else x.fhFrom
  let s := s.setStrm c { x with waiting := moved && !coincide, fhFrom := from_ }
  let s := if now && !was && !isTx c && !s.sbit c Reg.STRM_RX.CTL_FREQ_DOMAIN && s.noInput c then s.inputGap c code else s
  let s := s.setS c Reg.STRM_RX.APPLIED_SYMBOL_SYMBOL code
  let s := (s.setS c Reg.STRM_RX.STATUS_RUNNING (b2n now)).setS c Reg.STRM_RX.GAIN_NOW_GAIN_QDB (toBits 10 (s.strm c).gain)
  let s := if k.ops.isEmpty then s else s.post (strmUnit c).1 (strmInst c) 0x007 0 code
  let s := k.ops.foldl (fun s o => s.commitTold c code o) s
  (List.range 8).foldl State.syncSlice (s.syncCommit c)

/-! ## Keystones and memory -/

/-- Index rotation of R78: 5–7 act as 4. -/
def rotate2 (log2 k : Nat) : Nat := k % 2 ^ (min 4 log2)

/-- KEYSIG decrements of a symbol (R78), in order KEYSIG0–KEYSIG3. -/
def State.keysigs (s : State) (c : Nat) (j : SymJob) (mark : Bool) : State :=
  (List.range 4).foldl (fun s i =>
    if effFld c j.eff (Reg.STRM_RX.KEYSIG_EN i) = 1 ∧ bitOf (effFld c j.eff (Reg.STRM_RX.KEYSIG_SYM_MASK i)) (codeSym j.sym) then
      s.decKey (effFld c j.eff (Reg.STRM_RX.KEYSIG_KEY_INDEX i) + rotate2 (effFld c j.eff (Reg.STRM_RX.KEYSIG_ROT_LOG2 i)) j.slot) mark
    else s) s

/-- NI and port of a slice (R239). -/
def slicePort (c : Nat) : Nat × Nat := let f := strmInst c / 64; (48 + f / 2, f % 2)

/-- Address of the slot header of a slot (R77). -/
def gridHeader (c : Nat) (eff : Tab Word) (slot : Nat) : Nat :=
  let n := if effFld c eff Reg.STRM_RX.CTL_CP_EXT = 1 then 12 else 14
  let area := 16 + n * effFld c eff Reg.STRM_RX.GRID_GEOM_SYM_STRIDE * 16
  let base := (effFld c eff Reg.STRM_RX.GRID_BASE_LO_BASE_LO + 2 ^ 32 * effFld c eff Reg.STRM_RX.GRID_BASE_HI_BASE_HI) / 16 * 16
  (base + slot % max 1 (effFld c eff Reg.STRM_RX.GRID_GEOM_GRID_SLOTS) * area) % 2 ^ 40

/-- Address of a symbol's blocks. -/
def gridSymbol (c : Nat) (eff : Tab Word) (slot sym : Nat) : Nat :=
  (gridHeader c eff slot + 16 + sym * effFld c eff Reg.STRM_RX.GRID_GEOM_SYM_STRIDE * 16) % 2 ^ 40

/-- Bytes padded with zeros to a multiple of 16. -/
def pad16 (l : List Byte) : List Byte := l ++ List.replicate ((16 - l.length % 16) % 16) 0

/-- WRITE_ERR: the sticky bit, journalled once a slot. -/
def State.writeErr (s : State) (c sym : Nat) : State :=
  let s := s.setS c Reg.STRM_RX.EVENTS_WRITE_ERR 1
  let x := s.strm c
  if x.errSlot then s else (s.setStrm c { x with errSlot := true }).post (strmUnit c).1 (strmInst c) 0x003 2 sym

/-- A channel's write: whether it succeeded. -/
def State.chPut (s : State) (c a sym : Nat) (bytes : List Byte) : Bool × State :=
  let (ni, p) := slicePort c
  let (st, s) := s.busPut ni p a (clean bytes)
  if st = .ok then (true, s) else (false, s.writeErr c sym)

/-- A symbol's blocks issued to the grid; it then waits for their acknowledgement. -/
def State.gridWrite (s : State) (c : Nat) (j : SymJob) (blocks : List Byte) : State :=
  let (ok, s) := if blocks.isEmpty then (true, s)
    else s.chPut c (gridSymbol c j.eff j.slot (codeSym j.sym)) j.sym (pad16 blocks)
  let x := s.strm c
  s.setStrm c { x with writing := x.writing ++ [{ j with fail := j.fail || !ok, written := ok, data := [] }] }

/-- The four words of a slot header (R77). -/
def slotHeader (mu sym gain done fail freq : Nat) : List Byte :=
  wordsToBytes [BitVec.ofNat 32 (codeSfn sym + codeSlot sym * 2 ^ 10 + 2 ^ 17 * mu), BitVec.ofNat 32 (gain % 2 ^ 10),
    BitVec.ofNat 32 (done % 2 ^ 14 + 2 ^ 16 * (fail % 2 ^ 14)), BitVec.ofNat 32 freq]

def setBit (n k : Nat) : Nat := if bitOf n k then n else n + 2 ^ k

/-- PRACH buffer of an occasion (R83): address and the bytes of one repetition. -/
def prachBuf (c : Nat) (eff : Tab Word) (slot : Nat) : Nat × Nat :=
  let f := effFld c eff
  let size := fftSize (f Reg.STRM_RX.PRACH_CTL_PR_FFT)
  let bins := min size (f Reg.STRM_RX.PRACH_CTL_BINS)
  let rep := (bins + 11) / 12 * (1 + 3 * mantW (f Reg.STRM_RX.PRB_MANT))
  let len := 16 + (max 1 (f Reg.STRM_RX.PRACH_CTL_REPS) * rep + 15) / 16 * 16
  let base := (f Reg.STRM_RX.PRACH_BASE_LO_BASE_LO + 2 ^ 32 * f Reg.STRM_RX.PRACH_BASE_HI_BASE_HI) / 16 * 16
  ((base + slot / max 1 (f Reg.STRM_RX.PRACH_TIME_PERIOD) % max 1 (f Reg.STRM_RX.PRACH_KEY_BUFS) * len) % 2 ^ 40, rep)

/-! ## The bin map (R75) -/

/-- The bin of carrier subcarrier `i`. -/
def binOf (n prbs : Nat) (ltedc : Bool) (i : Nat) : Nat :=
  ((i : Int) - 6 * prbs + (if ltedc && decide (6 * prbs ≤ i) then 1 else 0)) % (n : Int) |>.toNat

/-- Frequency word of the upconversion term of TS 38.211 clause 5.4 at a symbol, as turns p/q: f0 × (t_start + N_CP·Tc).
PRESUMED, unsafe (log entry 66). -/
def upconvTurns (c : Nat) (eff : Tab Word) (sym : Nat) : Nat × Nat :=
  let mu := muOf (effFld c eff Reg.STRM_RX.CTL_MU)
  let ext := effFld c eff Reg.STRM_RX.CTL_CP_EXT == 1
  let n := fftSize (effFld c eff Reg.STRM_RX.CTL_FFT_SIZE)
  let l := codeSlot sym % 2 ^ mu * slotSymbols ext + codeSym sym
  let t := startOf mu ext l + cpSamples n mu ext l * 131072 / (n * 2 ^ mu)
  (effFld c eff Reg.STRM_RX.F0_UPCONV_F0 * 100 * t, tcSecond)

/-- A rotation of a bin, done only when it is not by zero turns. -/
def turnBin (up : Bool) (p q : Nat) (x : Sample) : Sample :=
  if p % max 1 q = 0 then x
  else
    let (a, b) := cisQ p q
    rotate (q15 a, q15 (if up then b else -b)) x

/-- The PRBs of a received symbol from its bins (R74, R75): slope removed, mapped, phase compensated, packed. -/
def rxBlocks (c : Nat) (j : SymJob) (bins : List Sample) : List Byte :=
  let f := effFld c j.eff
  let n := bins.length
  let off := f Reg.STRM_RX.FFT_CFG_FFT_OFFSET
  let (up, uq) := upconvTurns c j.eff j.sym
  let at_ (i : Nat) : Sample :=
    let k := binOf n (f Reg.STRM_RX.PRB_GRID_PRBS) (f Reg.STRM_RX.CTL_LTE_DC == 1) i
    let x := turnBin true (k * off) n (bins.getD k (0, 0))
    if f Reg.STRM_RX.CTL_PHASE_COMP = 1 then turnBin true up uq x else x
  let first := f Reg.STRM_RX.PRB_PRB_FIRST
  (List.range (f Reg.STRM_RX.PRB_PRB_COUNT)).flatMap (fun p =>
    bfpPack (mantW (f Reg.STRM_RX.PRB_MANT)) ((List.range 12).map (fun i => at_ (12 * (first + p) + i))))

/-- The bins of a symbol to be sent from its PRBs' subcarriers, in order from PRB_FIRST (R84). DESIGN CHOICE: where two subcarriers
share a bin (12 × GRID_PRBS > N, R96), the later one's value is sent (log entry 67). -/
def txBins (c : Nat) (j : SymJob) (subs : List Sample) : List Sample :=
  let f := effFld c j.eff
  let n := fftSize (f Reg.STRM_RX.CTL_FFT_SIZE)
  let first := 12 * f Reg.STRM_RX.PRB_PRB_FIRST
  let (up, uq) := upconvTurns c j.eff j.sym
  let t := subs.mapIdx (fun i x => (binOf n (f Reg.STRM_RX.PRB_GRID_PRBS) false (first + i),
    if f Reg.STRM_RX.CTL_PHASE_COMP = 1 then turnBin false up uq x else x))
  let tab := t.foldl (fun (m : Tab Sample) p => tset (0, 0) m p.1 p.2) []
  (List.range n).map (fun k => tget (0, 0) tab k)

/-! ## FFT queues (R81) -/

def State.fftQueue (s : State) (e : Nat) : List (Nat × SymJob) := tget [] s.streams.fft e

def State.setFft (s : State) (e : Nat) (q : List (Nat × SymJob)) : State :=
  let s := { s with streams := { s.streams with fft := tset [] s.streams.fft e q } }
  (s.setFld Reg.FFT.STATUS_DEPTH e q.length).maxFld Reg.FFT.STATUS_MAX_DEPTH e q.length

/-- A repetition of a PRACH occasion done with: whether it failed counts for the occasion, whose header follows the last one. -/
def State.prachDone (s : State) (c : Nat) (j : SymJob) (fail : Bool) : State :=
  let x := s.strm c
  let bad := fail || x.prFail.contains j.slot
  let rest := x.prFail.filter (· != j.slot)
  if j.rep + 1 = max 1 (effFld c j.eff Reg.STRM_RX.PRACH_CTL_REPS) then
    s.setStrm c { x with prFail := rest, writing := x.writing ++ [{ j with fail := bad, data := [] }] }
  else s.setStrm c { x with prFail := if bad then j.slot :: rest else rest }

/-- A symbol dropped at an engine: FFT_DROP of the channel and the engine, its counts; a received symbol goes on without
blocks to its header (R77), one to be sent is remembered as dropped until its boundary (R84). -/
def State.dropSymbol (s : State) (e c : Nat) (j : SymJob) : State :=
  let s := (s.satFld Reg.FFT.DROPS_DROPS e 1).post 0x0A e 0x001 1 c
  let s := s.strmEvent c Reg.STRM_RX.EVENTS_FFT_DROP 0x001 1 j.sym
  let x := s.strm c
  if isTx c then s.setStrm c { x with ready := x.ready ++ [{ j with fail := true, data := [] }] }
  else if j.prach then s.prachDone c j true
  else s.setStrm c { x with writing := x.writing ++ [{ j with fail := true, data := [] }] }

/-- A repetition's bins kept, centred on DC (R83), packed and written. -/
def State.prachWrite (s : State) (c : Nat) (j : SymJob) (bins : List Sample) : State :=
  let f := effFld c j.eff
  let n := bins.length
  let keep := min n (f Reg.STRM_RX.PRACH_CTL_BINS)
  let l := (List.range keep).map (fun i => bins.getD ((((i : Int) - keep / 2) % (n : Int)).toNat) (0, 0))
  let (a, rep) := prachBuf c j.eff j.slot
  let blocks := bfpBlocks (mantW (f Reg.STRM_RX.PRB_MANT)) l
  let last := j.rep + 1 = max 1 (f Reg.STRM_RX.PRACH_CTL_REPS)
  let (ok, s) := s.chPut c (a + 16 + j.rep * rep) j.sym (if last then pad16 blocks else blocks)
  s.prachDone c j (j.fail || !ok)

/-- The PRACH occasions under way end unfinished, in failure: a step, the end of ENABLE or Banked stopped the samples. DEDUCED from R77
and R361, which end a symbol so (log entry 67). -/
def State.endPrach (s : State) (c : Nat) : State :=
  let x := s.strm c
  let job (p : Prach) : SymJob :=
    let spf := 10 * 2 ^ muOf (effFld c p.eff Reg.STRM_RX.CTL_MU)
    ⟨p.slot / spf * 2048 + p.slot % spf * 16, p.slot, true, 0, true, true, toBits 10 x.gain, 0, [], p.eff, 0, []⟩
  s.setStrm c { x with prach := [], writing := x.writing ++ x.prach.map job, prFail := x.prFail.filter (fun k => !(x.prach.any (·.slot == k))) }

/-! ## What Witness takes (R217) -/

/-- Boundary of a symbol of a channel in its time base, in Tc: the latest one up to now (R221). -/
def State.symStartTc (s : State) (c : Nat) (eff : Tab Word) (code : Nat) : Nat :=
  let mu := muOf (effFld c eff Reg.STRM_RX.CTL_MU)
  let ext := effFld c eff Reg.STRM_RX.CTL_CP_EXT == 1
  let tb := effFld c eff Reg.STRM_RX.CTL_TB
  let off := signedOf 32 (effFld c eff Reg.STRM_RX.TIME_OFFSET_TIME_OFFSET)
  let g := gridAt mu ext (s.gridTime tb - off)
  let now := ((g.frame + s.fld Reg.TB.GRID_CFG_SFN_OFFSET tb) % 1024).toNat * 19660800 + g.subframe * 1966080 + startOf mu ext g.l + g.since
  let sl := codeSlot code
  let at_ := codeSfn code * 19660800 + sl / 2 ^ mu * 1966080 + startOf mu ext (sl % 2 ^ mu * slotSymbols ext + codeSym code)
  (s.tb tb).tc - (now + 1024 * 19660800 - at_) % (1024 * 19660800)

/-- A symbol's blocks reach Witness. -/
def State.toWitness (s : State) (c : Nat) (j : SymJob) (blocks : List Byte) : State :=
  let f := effFld c j.eff
  let mant := mantW (f Reg.STRM_RX.PRB_MANT)
  s.witBlocks ⟨if f Reg.STRM_RX.CTL_FREQ_DOMAIN = 1 then 0 else f Reg.STRM_RX.CTL_PROC, mant, 1 + 3 * mant, c, f Reg.STRM_RX.CTL_TB, muOf (f Reg.STRM_RX.CTL_MU), j.sym,
    s.symStartTc c j.eff j.sym, j.gain, j.slot⟩ j.caps blocks

/-- The leaves of ended slots of a channel: none while a symbol of the slot is still on its way
through its engine or its reception window is open (R80). -/
def State.witClose (s : State) (c : Nat) : State :=
  let slot := match (s.strm c).cur with
    | some code => slotCount (s.chMu c) code
    | none => 0
  let on := (s.strm c).toFft.map (·.slot) ++ (s.strm c).fhOpen.map (·.slot) ++
    s.streams.fft.flatMap (fun e => (e.2.filter (fun q => q.1 == c)).map (fun q => q.2.slot))
  s.witSlotEnd c slot (fun k => on.contains k)

/-! ## The receive path at a boundary (R71-R74, R79, R82) -/

/-- Samples received in [start, stop), with their stamps, in the order they came. -/
def State.received (s : State) (c : Nat) (start stop : Int) : List (Nat × Option Sample) :=
  (s.strm c).inBuf.filter (fun e => decide (tcStamp start.toNat ≤ e.1) && decide (e.1 < tcStamp stop.toNat))

/-- Places for samples in order: each in the sample time of its stamp, or just after the one before it. -/
def placeSamples (idx : Nat → Nat) : Nat → List (Nat × Option Sample) → List (Nat × Option Sample)
  | _, [] => []
  | next, e :: r => (max next (idx e.1), e.2) :: placeSamples idx (max next (idx e.1) + 1) r

/-- Samples of the symbol in [start, stop), `len` of them; `none` where one is missing. The stamps of an Ahnent lane are uneven by up to
a sample (R316, R317): while no more than one of `len` is absent its samples fill the symbol in order, and the value of a last
place left over is open (log entry 65); a sample more than `len` is one of the prefix, and is discarded (R358); else a sample stands in the sample time of its stamp, a repeated one in place of the first. A lane in IDLE delivers zeros (R322). -/
def State.gather (s : State) (c : Nat) (start stop : Int) (len : Nat) : List (Option Sample) :=
  let mine := s.received c start stop
  let lane := s.sfld c Reg.STRM_RX.LINK_LANE
  if s.takesWords lane ∧ len ≤ mine.length + 1 then
    (((mine.map (·.2)).drop (mine.length - len)) ++ (freeSamples s.free 1).map some).take len
  else
    let rate := s.chSize c * 2 ^ s.chMu c
    let idx (st : Nat) : Nat := (st - tcStamp start.toNat) * 3 * rate / (131072 * 100000)
    let tab := if s.takesWords lane then placeSamples idx 0 mine else (mine.map (fun e => (idx e.1, e.2))).reverse
    let idle : Option Sample := if lane < 48 ∧ s.rxState lane = 4 then some (0, 0) else none
    (List.range len).map (fun i => ((tab.find? (fun e => e.1 == i)).bind (·.2)).orElse (fun _ => idle))

/-- Samples after both NCOs go to the PRACH occasions under way (R83). -/
def State.prachTake (s : State) (c : Nat) (ys : List Sample) (miss : List Bool) : State :=
  let x := s.strm c
  let F := s.sfld c Reg.STRM_RX.PRACH_NCO_PRACH_NCO
  if x.prach.isEmpty then s.setStrm c { x with prPhase := (x.prPhase + ys.length * F) % 2 ^ 32 }
  else
    let (zs, ph, clip) := nco true F x.prPhase ys
    let take (p : Prach) : Prach :=
      { p with skip := p.skip - zs.length, got := p.got ++ zs.drop p.skip, miss := p.miss ++ miss.drop p.skip }
    let s := s.setStrm c { x with prPhase := ph, prach := x.prach.map take }
    if clip then s.strmSat c (x.cur.getD 0) else s

/-- The symbol that ends at this boundary is taken through gain and NCO, and, when it is active, on to the engine or, in
the time-domain pass, straight to the grid. -/
def State.rxSymbol (s : State) (c : Nat) (stop : Int) : State :=
  let x := s.strm c
  match x.cur with
  | none => s
  | some code =>
    let len := ((s.samplesIn c (stop - x.startAt).toNat : Int) + min 0 x.cpAdj).toNat
    let raw := s.gather c x.startAt stop len
    let marked := (s.received c x.startAt stop).any (fun e => e.2.isNone)
    let s := { s with free := s.free + 1 }
    let miss := raw.map (·.isNone)
    let G := gainQ x.gain
    let vals := raw.map (fun o => o.getD (0, 0))
    let F := (s.sfld c Reg.STRM_RX.NCO_FREQ_NCO_FREQ + x.lo.toNat) % 2 ^ 32
    let post := vals.map (applyGain G)
    let (ys, ph, clip) := nco true F x.phase post
    let from_ := x.startAt.toNat
    let span := s.chSize c * 2 ^ s.chMu c
    let s := s.tallySamples c (ys.mapIdx (fun i y => (from_ + i * 131072 / span, y.1, y.2)))
    let s := if clip || vals.any (gainClips G) then s.strmSat c code else s
    let s := s.prachTake c ys miss
    let gap := miss.any id
    let s := if marked then s
      else (if gap then s.inputGap c code else s).setS c Reg.STRM_RX.STATUS_IN_GAP (b2n ((miss.drop (len - 2)).all id && gap))
    let x := s.strm c
    let n := s.chSize c
    let off := s.sfld c Reg.STRM_RX.FFT_CFG_FFT_OFFSET
    let hist := x.tail ++ ys
    let histMiss := x.tailMiss ++ miss
    let need := n + off
    let win := (List.replicate (need - hist.length) ((0, 0) : Sample) ++ hist.drop (hist.length - need)).take n
    let missWin := ((List.replicate (need - hist.length) false ++ histMiss.drop (hist.length - need)).take n).any id
    let keep := s.strm c
    let slot := slotCount (s.chMu c) code
    let pass := s.sbit c Reg.STRM_RX.CTL_PROC
    let j : SymJob := ⟨code, slot, false, 0, if pass then gap else missWin, false, toBits 10 x.gain, F, win, x.eff, s.disp.dlclk / 4, s.capsOf c⟩
    let pw := (post.map (fun y => (y.1 * y.1 + y.2 * y.2).toNat)).sum
    let s := s.setStrm c { keep with
      phase := ph
      tail := hist.drop (hist.length - 8192)
      tailMiss := histMiss.drop (hist.length - 8192)
      inBuf := x.inBuf.filter (fun e => decide (tcStamp stop.toNat ≤ e.1))
      agcSum := if x.agcOn then x.agcSum + pw else 0
      agcN := if x.agcOn then x.agcN + post.length else 0 }
    if s.chActive c code then
      if pass then
        let blocks := bfpBlocks (mantW (s.sfld c Reg.STRM_RX.PRB_MANT)) ys
        (s.gridWrite c { j with data := [] } blocks).toWitness c j blocks
      else
        let y := s.strm c
        s.setStrm c { y with toFft := y.toFft ++ [j] }
    else s

/-- A symbol of a channel whose samples come as frequency-domain blocks: Tally sees zeros (R236). -/
def State.freqSymbol (s : State) (c : Nat) (stop : Int) : State :=
  let x := s.strm c
  match x.cur with
  | none => s
  | some _ =>
    let from_ := x.startAt.toNat
    let span := s.chSize c * 2 ^ s.chMu c
    s.tallySamples c ((List.range (s.samplesIn c (stop - x.startAt).toNat)).map (fun i => (from_ + i * 131072 / span, 0, 0)))

/-- The AGC at a slot boundary (R72): it measures whole slots of a channel that runs. -/
def State.agcSlot (s : State) (c : Nat) : State :=
  let x := s.strm c
  if s.sbit c Reg.STRM_RX.CTL_AGC_EN ∧ s.chRuns c ∧ !x.waiting ∧ !isTx c then
    if !x.agcOn then s.setStrm c { x with agcOn := true, agcSum := 0, agcN := 0, agcSlots := 0 }
    else
    let n := x.agcSlots + 1
    if max 1 (s.sfld c Reg.STRM_RX.AGC_CTL_WINDOW) ≤ n then
      let p := powerQdb x.agcSum x.agcN
      let g := agcStep (s.sInt c Reg.STRM_RX.AGC_CTL_TARGET) (s.sfld c Reg.STRM_RX.AGC_CTL_STEP) (s.sfld c Reg.STRM_RX.AGC_CTL_HYST)
        (s.sInt c Reg.STRM_RX.AGC_LIM_FLOOR) (s.sInt c Reg.STRM_RX.AGC_LIM_CEIL) x.gain p
      (s.setStrm c { x with gain := g, agcSum := 0, agcN := 0, agcSlots := 0 }).setS c Reg.STRM_RX.GAIN_NOW_GAIN_QDB (toBits 10 g)
    else s.setStrm c { x with agcSlots := n }
  else s.setStrm c { x with agcOn := false, agcSum := 0, agcN := 0, agcSlots := 0 }

/-! ## The transmit path at a boundary (R84-R88) -/

/-- Samples of a transmit ramp: ⌊RAMP_NS × fs / 10^9⌋; none with FREQ_DOMAIN. -/
def State.rampLen (s : State) (c : Nat) : Nat :=
  if s.sbit c Reg.STRM_TX.RAMP_RAMP_EN && !s.sbit c Reg.STRM_RX.CTL_FREQ_DOMAIN then
    min 4000 (max 250 (s.sfld c Reg.STRM_TX.RAMP_RAMP_NS)) * (s.chSize c * 15000 * 2 ^ s.chMu c) / 10 ^ 9
  else 0

/-- w(n) of R86 in Q1.15, truncated. -/
def rampW (L n : Nat) : Int := (2 ^ 64 - (cisQ (2 * n + 1) (4 * max 1 L)).1) / 2 ^ 50

def scaleW (w : Int) (x : Sample) : Sample := (x.1 * w / 2 ^ 15, x.2 * w / 2 ^ 15)

/-- The envelope of a run at sample `n` of it: up over the first L; `m` samples into the ramp-down, the smaller of both. -/
def envelope (L n : Nat) (down : Option Nat) : Int :=
  let up : Int := if n < L then rampW L n else 2 ^ 15
  match down with
  | none => up
  | some m => if m < L then min up (rampW L (L - 1 - m)) else 0

/-- Tc of a number of ns. -/
def nsTc (n : Nat) : Nat := n * 196608 / 100000

/-- PA-enable held for PA_LAG_NS after a transmit channel's output stops where it stands (R88, R361). -/
def State.holdPa (s : State) (c : Nat) : State :=
  if s.bit Reg.STRM_TX.STATUS_PA_ON (strmInst c) then
    s.setStrm c { s.strm c with paHold := s.disp.dlclk + nsTc (s.sfld c Reg.STRM_TX.PA_TIMING_PA_LAG_NS) }
  else s

/-- The run a channel was sending, if any, ends now (R86-R88): its ramp-down is told, and PA-enable is held for it and PA_LAG_NS; a
hard stop has no ramp-down. -/
def State.endRun (s : State) (c : Nat) (hard : Bool) : State :=
  if hard then s.holdPa c
  else if (s.strm c).runPos.isSome then
    let L := s.rampLen c
    let s := if 0 < L then s.chWord c 4 else s
    s.setStrm c { s.strm c with paHold := s.disp.dlclk + nsTc (s.sfld c Reg.STRM_TX.PA_TIMING_PA_LAG_NS) + s.tcOf c L }
  else s

/-- Samples of a channel from a base: NCO, gain and envelope; they are what it sends from now on. -/
def State.txOut (s : State) (c code : Nat) (base : List Sample) (env : Nat → Int) : State :=
  let x := s.strm c
  let F := (s.sfld c Reg.STRM_RX.NCO_FREQ_NCO_FREQ + x.lo.toNat) % 2 ^ 32
  let G := gainQ x.gain
  let (ys, ph, clip) := nco false F x.phase base
  let s := if clip || ys.any (gainClips G) then s.strmSat c code else s
  let zs := (ys.map (applyGain G)).mapIdx (fun i y => let w := env i; if w = 2 ^ 15 then y else scaleW w y)
  let y := s.strm c
  s.setStrm c { y with phase := ph, out := zs, outTaken := 0 }

/-- A symbol whose CP is a sample longer or shorter (R358): its first sample is repeated or dropped. -/
def stretchCp (a : Int) (l : List Sample) : List Sample := if 0 < a then l.take 1 ++ l else if a < 0 then l.drop 1 else l

/-- An active symbol starts: its samples where they are ready, else zeros with FFT_DROP, told once a symbol (R84, R97). -/
def State.txActive (s : State) (c code : Nat) (cp len : Nat) : State :=
  let x := s.strm c
  let L := s.rampLen c
  let unit := strmUnit c
  let s := match x.ready.find? (fun j => j.sym == code) with
    | some j => (if j.fail && j.data.isEmpty then s.countEvent unit.1 unit.2 0x011 1 else s).countEvent unit.1 unit.2 0x010 1
    | none => ((s.strmEvent c Reg.STRM_RX.EVENTS_FFT_DROP 0x001 1 code).countEvent unit.1 unit.2 0x010 1).countEvent unit.1 unit.2 0x011 1
  let data := match x.ready.find? (fun j => j.sym == code) with
    | some j => if s.sbit c Reg.STRM_RX.CTL_PROC || j.data.isEmpty then j.data else j.data.drop (j.data.length - cp) ++ j.data
    | none => []
  let data := (data ++ List.replicate (len - data.length) (0, 0)).take len
  let pos := x.runPos.getD 0
  let s := if x.runPos.isNone ∧ 0 < L then s.chWord c 3 else s
  let y := s.strm c
  (s.setStrm c { y with
    runPos := some (pos + (stretchCp y.cpAdj data).length)
    ready := y.ready.filter (fun j => j.sym != code)
    tail := (data.drop cp).take L }).txOut c code (stretchCp y.cpAdj data) (fun i => envelope L (pos + i) none)

/-- No active symbol starts: zeros, after the ramp-down of a run that ends here. -/
def State.txIdle (s : State) (c code len : Nat) (hard : Bool) : State :=
  let x := s.strm c
  let L := s.rampLen c
  let pos := x.runPos.getD 0
  let t := if hard ∨ x.runPos.isNone then [] else x.tail
  let len := ((len : Int) + x.cpAdj).toNat
  let s := s.endRun c hard
  let y := s.strm c
  (s.setStrm c { y with runPos := none, tail := [], ready := y.ready.filter (fun j => j.sym != code) }).txOut c code
    ((t ++ List.replicate (len - t.length) (0, 0)).take len) (fun i => if t.isEmpty then 2 ^ 15 else envelope L (pos + i) (some i))

/-- The symbol that starts now is sent: CP insertion, NCO, gain and ramp, or zeros with the ramp-down of a run that ended. -/
def State.txSymbol (s : State) (c code : Nat) (g : GridAt) (hardStop : Bool) : State :=
  let n := s.chSize c
  let cp := cpSamples n (s.chMu c) (s.chExt c) g.l
  if s.chActive c code && !(s.strm c).stopped then s.txActive c code cp (cp + n) else s.txIdle c code (cp + n) hardStop

/-- Whether a transmit channel has an active symbol `d` Tc from now. -/
def State.runAt (s : State) (c d : Nat) : Bool :=
  s.chRuns c && !(s.strm c).stopped && !(s.strm c).waiting && s.chActive c (s.chCode c (s.chGrid c d))

/-- PA-enable wanted `d` Tc from now (R87): a run sent holds it, one that will be active within PA_LEAD, or has been less than the ramp
and PA_LAG before, asks for it. -/
def State.paAt (s : State) (c d : Nat) : Bool :=
  let back := min d (nsTc (s.sfld c Reg.STRM_TX.PA_TIMING_PA_LAG_NS) + s.tcOf c (s.rampLen c))
  let span := back + nsTc (s.sfld c Reg.STRM_TX.PA_TIMING_PA_LEAD_NS)
  decide (s.disp.dlclk + d < (s.strm c).paHold) || (d == 0 && (s.strm c).runPos.isSome) ||
  (List.range (span / 8192 + 2)).any (fun k => s.runAt c (d - back + min span (8192 * k)))

/-- PA-enable wanted now. -/
def State.paWanted (s : State) (c : Nat) : Bool := s.paAt c 0

/-! ## Steps and grid moves (R361) -/

/-- A channel halts where it stands, until a boundary it waits for: a transmit channel sends zeros, a receive channel discards. -/
def State.chHalt (s : State) (c : Nat) : State :=
  let g := s.chGrid c 0
  s.setStrm c { s.strm c with
    cur := some (s.chCode c g)
    startAt := (s.chTc c : Int) - g.since
    outTaken := s.samplesIn c g.since
    waiting := true
    lockDone := false
    out := []
    tail := []
    tailMiss := []
    ready := []
    runPos := none
    inBuf := [] }

/-- A stream channel stops on the way into Banked (R65 step 4), at a slot start; on the way out it waits for its first slot start 64
SAMP cycles on (R66). -/
def State.bankChannel (s : State) (c : Nat) : State :=
  let s := (if isTx c then s.holdPa c else s.endPrach c).chHalt c
  s.setStrm c { s.strm c with bySlot := true }

/-- What a step or a grid move does to one channel of the time base: the symbol in progress of a receive channel ends in
failure, a transmit channel sends zeros; both resume at the first boundary 64 SAMP cycles on. -/
def State.chStep (s : State) (c : Nat) : State :=
  let x := s.strm c
  let s := match x.cur with
    | some code =>
      if s.chRuns c ∧ !isTx c ∧ !x.waiting ∧ !s.sbit c Reg.STRM_RX.CTL_FREQ_DOMAIN ∧ s.chActive c code then
        let j : SymJob := ⟨code, slotCount (s.chMu c) code, false, 0, true, false, toBits 10 x.gain,
          (s.sfld c Reg.STRM_RX.NCO_FREQ_NCO_FREQ + x.lo.toNat) % 2 ^ 32, [], x.eff, 0, []⟩
        s.setStrm c { x with writing := x.writing ++ [j] }
      else s
    | none => s
  let y := s.strm c
  let s := s.setStrm c { y with fhOpen := [], fhClosed := none, fhPlaced := [], writing := y.writing ++ y.fhOpen.map (fun j => { j with fail := true }) }
  let s := (if isTx c then s.holdPa c else s.endPrach c).chHalt c
  s.setStrm c { s.strm c with resume := s.disp.dlclk + 256, agcOn := false }

/-- A discontinuity of a time base reaches its channels and its TDD_OUT pins. -/
def State.gridMoved (s : State) (n : Nat) : State :=
  let s := (s.streams.ch.map (·.1)).foldl (fun s c => if s.sfld c Reg.STRM_RX.CTL_TB = n then s.chStep c else s) s
  (List.range 16).foldl (fun s p => if s.fld Reg.TDD_OUT.CTL_TB p = n then s.fireEdges p else s) s

end Sys2Proof.Machine
end

