-- ==== Sys2Proof/Machine/LaneOps.lean ====
section
/-! DEFINITION. Ahnent lanes: building and taking a multiframe (R313-R319), bring-up and loss (R320), electrical idle (R321, R322),
protection (R323), and quad switches (R308). -/
namespace Sys2Proof.Machine

/-- Ethernet (0) or Ahnent (1); RATE. -/
def State.quadProto (s : State) (q : Nat) : Nat := s.fld Reg.LANEQ.PROTO_PROTOCOL q
def State.quadRate (s : State) (q : Nat) : Nat := s.fld Reg.LANEQ.PROTO_RATE q

/-- Whether a quad has finished R308 and the mode lets its lanes send (R309). -/
def State.quadReady (s : State) (q : Nat) : Bool :=
  s.bit Reg.LANEQ.STATUS_PLL_LOCK q && !s.bit Reg.LANEQ.STATUS_SWITCHING q && s.running 0x50 q &&
    s.modes.mode != .banked && s.modes.mode != .footing && s.modes.mode != .bedding

/-- Nominal multiframe period in 10^-5 ns (R306). -/
def State.mfPeriod (s : State) (q : Nat) : Nat := if s.quadRate q = 3 then 3754667 else 8192000

/-! ## Delivery and protection (R317, R323) -/

/-- The protection pair of a quad (R323): working and protection lane when enabled. -/
def State.protPair (s : State) (q : Nat) : Option (Nat × Nat) :=
  if s.bit Reg.AHNENT.PROTECT_EN q then some (s.fld Reg.AHNENT.PROTECT_WORK q, s.fld Reg.AHNENT.PROTECT_PROT q) else none

/-- The lane whose channels a receiving lane delivers to: itself, or the working lane of its pair when it is the active
one; none for the inactive one (R323). -/
def State.deliverAs (s : State) (l : Nat) : Option Nat :=
  match s.protPair (l / 4) with
  | some (w, p) =>
    if l = w ∨ l = p then (if (s.bit Reg.AHNENT.PROTECT_ACTIVE (l / 4)) = (l == p) then some w else none) else some l
  | none => some l

/-- Receive channels that name a stream of a lane. -/
def State.receiversOf (s : State) (l st : Nat) : List Nat :=
  (s.streams.ch.map (·.1)).filter (fun c => !isTx c && s.sfld c Reg.STRM_RX.LINK_LANE == l && s.sfld c Reg.STRM_RX.LINK_STREAM == st)

/-- Samples delivered to a stream's channels, sample k stamped t_h + k/fs (R317); `none` is a zero that counts as missing: IN_GAP rises
with it and ends with the next sample that is there (R82). -/
def State.deliver (s : State) (l st : Nat) (xs : List (Option Sample)) : State :=
  (s.receiversOf l st).foldl (fun s c =>
    let t := (s.tb (s.sfld c Reg.STRM_RX.CTL_TB)).stamp
    let rate := s.chSize c * 2 ^ s.chMu c
    let x := s.strm c
    let s := s.setStrm c { x with inBuf := x.inBuf ++ xs.mapIdx (fun k y => (t + k * (131072 * 100000) / (3 * rate), y)) }
    if !s.chRuns c ∨ x.waiting ∨ s.sbit c Reg.STRM_RX.CTL_FREQ_DOMAIN then s
    else if xs.any (·.isNone) then s.inputGap c (x.cur.getD 0)
    else if xs.isEmpty then s else s.setS c Reg.STRM_RX.STATUS_IN_GAP 0) s

/-- Delivery moves to the other lane of a pair when the active one is lost and the other is UP (R323); the recovery of the
lane loss ends with the device's own part (R387, R388). -/
def State.protectSwitch (s : State) (l : Nat) : State :=
  let q := l / 4
  let s := match s.protPair q with
    | some (w, p) =>
      let act := s.bit Reg.AHNENT.PROTECT_ACTIVE q
      let other := if act then w else p
      if (if act then p else w) = l ∧ other < 48 ∧ s.rxState other = 3 then
        (s.setFld Reg.AHNENT.PROTECT_ACTIVE q (b2n !act)).post 0x52 q 0x003 1 other
      else s
    | none => s
  s.endRecovery 6 0x51 l

/-- A lane's streams stop: every channel it delivers to misses its input from now on (R82). -/
def State.cutStreams (s : State) (l : Nat) : State :=
  match s.deliverAs l with
  | some w => (List.range 16).foldl (fun s st => s.deliver w st [none]) s
  | none => s

/-- A receiver that leaves UP or IDLE other than by a loss: its streams stop, and delivery moves where the pair's other lane is UP. -/
def State.rxDown (s : State) (l : Nat) : State :=
  if s.rxState l = 3 ∨ s.rxState l = 4 then ((s.cutStreams l).setRxState l 0).protectSwitch l
  else if s.rxState l = 0 then s else s.setRxState l 0

/-! ## Quads (R306, R308) -/

/-- A lane starts bring-up, or goes DOWN, as its controls stand (R308, R320). -/
def State.laneUpdate (s : State) (l : Nat) : State :=
  let q := l / 4
  if s.quadProto q = 1 then
    let tx := s.bit Reg.LANE.CTL_TX_EN l && s.quadReady q
    let rx := tx && s.bit Reg.LANE.CTL_RX_EN l
    let s := if !tx then (if s.txState l = 0 then s else s.setTxState l 0) else if s.txState l = 0 then s.setTxState l 1 else s
    if !rx then s.rxDown l else if s.rxState l = 0 then s.setRxState l 1 else s
  else
    let idle := !(s.bit Reg.LANE.CTL_TX_EN l && s.quadReady q)
    ((s.setFld (Reg.AHNENT.LANE_STATUS_TX_STATE (l % 4)) q 0).setFld (Reg.AHNENT.LANE_STATUS_RX_STATE (l % 4)) q 0).setFld
      Reg.LANE.STATUS_IDLE l (b2n idle)

/-- A switch begins (R308 steps 1-3): every lane in electrical idle and its streams stopped, the PLL relocking. -/
def State.startSwitch (s : State) (q proto : Nat) : State :=
  let s := s.setReg 0x50 q 0x000 (BitVec.ofNat 32 (proto % 8))
  let s := ((s.setFld Reg.LANEQ.STATUS_SWITCHING q 1).setFld Reg.LANEQ.STATUS_PLL_LOCK q 0).setFld Reg.LANEQ.STATUS_CAL_DONE q 0
  (List.range 4).foldl (fun s k => ((s.setTxState (4 * q + k) 0).rxDown (4 * q + k)).setFld Reg.LANE.STATUS_CDR_LOCK (4 * q + k) 0) s

/-- A write of PROTO: a switch, or held while one is in progress, a later write replacing it (R308). -/
def State.protoWrite (s : State) (q : Nat) (v : Word) : State :=
  if s.bit Reg.LANEQ.STATUS_SWITCHING q then
    ({ s with lanes := { s.lanes with held := tset none s.lanes.held q (some (wordField v 2 0)) } }).setFld Reg.LANEQ.STATUS_HELD q 1
  else s.startSwitch q (wordField v 2 0)

/-- A write of RECAL: GO starts R312 unless it runs. -/
def State.recalGo (s : State) (l : Nat) (v : Word) : State :=
  if wordField v 0 0 = 1 ∧ !s.bit Reg.LANE.STATUS_RECAL_BUSY l then
    ({ s with lanes := { s.lanes with recal := tset 0 s.lanes.recal l (s.devclk.toNat + 1), gap := tset false s.lanes.gap l false } }).setFld Reg.LANE.STATUS_RECAL_BUSY l 1
  else s

/-! ## Transmit equaliser (R310) -/

/-- PRE, MAIN and POST of a TXFIR word as they act, in 1/64 of the full driver: POST at most 24, MAIN at least 24 and at most what PRE and
POST leave of 63. -/
def firTaps (w : Word) : Nat × Nat × Nat :=
  let pre := wordField w 3 0
  let post := min 24 (wordField w 20 16)
  (pre, min (max 24 (wordField w 13 8)) (63 - pre - post), post)

/-- y[n] of R310 from x[n-1], x[n] and x[n+1] in thirds of ±1: the level in 1/192 of the full driver. -/
def firLevel (taps : Nat × Nat × Nat) (before x after : Int) : Int :=
  -(taps.1 : Int) * after + (taps.2.1 : Int) * x - (taps.2.2 : Int) * before

/-- Levels of a run of symbols, but for its first and last, whose neighbours are in other runs. -/
def firLevels (taps : Nat × Nat × Nat) : List Int → List Int
  | a :: b :: c :: r => firLevel taps a b c :: firLevels taps (b :: c :: r)
  | _ => []

/-- Symbols of bits in sending order, in thirds of ±1: NRZ, or PAM4 with the Gray mapping of IEEE 802.3 Clause 120, the first bit of a pair the
most significant (R313). -/
def lineSymbols (pam4 : Bool) : List Bool → List Int
  | a :: b :: r =>
    if pam4 then (if a then (if b then 1 else 3) else if b then -1 else -3) :: lineSymbols pam4 r
    else (if a then 3 else -3) :: lineSymbols pam4 (b :: r)
  | [a] => if pam4 then [] else [if a then 3 else -3]
  | [] => []

/-- The TXFIR setting in effect on a lane; the Reset column's until a window boundary has taken another. -/
def State.firNow (s : State) (l : Nat) : Word := tget (resetWord 0x51 l 0x004) s.lanes.fir l

/-- A 4,096-UI window boundary of a lane: TXFIR as written takes effect (R310). -/
def State.takeFir (s : State) (l : Nat) : State :=
  { s with lanes := { s.lanes with fir := tset (resetWord 0x51 l 0x004) s.lanes.fir l (s.reg 0x51 l 0x004) } }

/-- The levels at the pins of a lane over the multiframe it sent last; 0 throughout in electrical idle. -/
def State.txLevels (s : State) (l : Nat) : List Int :=
  let bits := (s.ahn l).lastSent.flatMap (fun b => (List.range 66).map b.getLsbD)
  let y := firLevels (firTaps (s.firNow l)) (lineSymbols (s.quadRate (l / 4) == 3) bits)
  if s.bit Reg.LANE.STATUS_IDLE l then y.map (fun _ => 0) else y

/-! ## Building a multiframe -/

/-- A component in a container: shifted to IQW bits and clamped (R317). -/
def toContainer (w : Nat) (x : Int) : Int := clampInt (-(2 ^ (w - 1) : Nat)) ((2 ^ (w - 1) : Nat) - 1) (x / 2 ^ (16 - w))

def containerClips (w : Nat) (x : Int) : Bool :=
  let y := x / 2 ^ (16 - w)
  decide (y < -(2 ^ (w - 1) : Nat)) || decide ((2 ^ (w - 1) : Nat) ≤ y)

/-- One stream's container, its SHORT bit, and the lane after it (R315-R317). -/
def State.container (s : State) (l st : Nat) : List Bool × Bool × State :=
  let s := s.pullStream l st
  let x := s.ahn l
  let n := s.ahnSlots l st
  let w := s.ahnIqw l st
  let f := tget [] x.fifo st
  let short := decide (f.length < 2 * n)
  let k := if short then n - 1 else n
  let take := (List.range k).map (fun i => f.getD i (0, 0))
  let bits := (take ++ List.replicate (n - k) ((0, 0) : Sample)).flatMap (fun y =>
    bitsMsb w (toBits w (toContainer w y.1)) ++ bitsMsb w (toBits w (toContainer w y.2)))
  let s := if take.any (fun y => containerClips w y.1 || containerClips w y.2) then
      (s.sendersTo l st).foldl (fun s c => s.strmSat c ((s.strm c).cur.getD 0)) s else s
  let x := s.ahn l
  (bits, short, s.setAhn l { x with
    fifo := tset [] x.fifo st (f.drop k)
    sentCount := tset 0 x.sentCount st (tget 0 x.sentCount st + k) })

/-- Bits as a number, bit 0 first. -/
def bitsLsb (l : List Bool) : Nat := l.foldr (fun b a => b2n b + 2 * a) 0

/-- Bytes of a stream, bit 8j the most significant bit of byte j (R318). -/
def streamBytes (n : Nat) (l : List Bool) : List Nat := (packBytes n l).map (·.toNat)

/-- CW_LEAD_MF as it acts. -/
def State.cwLead (s : State) (q : Nat) : Nat := max 1 (s.fld Reg.AHNENT.IDLE_CFG_CW_LEAD_MF q)

/-- The head control word, when its header is this one (R319): (CW_STREAM, CW_OP, CW_ARG) and the lane after it. `k0` is the first sample of
each stream in this multiframe, `short` its SHORT bits. A word whose effect sample lies in this multiframe or before it is late and goes with
CW_ARG = 0; one whose sample lies more than CW_LEAD_MF multiframes on waits. -/
def State.headWord (s : State) (l : Nat) (k0 : Nat → Nat) (short : Nat) : (Nat × Nat × Nat) × State :=
  let q := l / 4
  match (s.ahn l).words with
  | [] => ((0, 0, 0), s)
  | w :: _ =>
    let k := k0 w.stream
    let user := w.op == 5 || w.op == 6
    if !user && decide (k + s.mfSamples l w.stream (s.cwLead q + 1) (s.mfPeriod q) ≤ w.effect) then ((0, 0, 0), s)
    else
      let late := !user && decide (w.effect + b2n (bitOf short w.stream) < k + s.ahnSlots l w.stream)
      let s := s.popWord l
      let s := if late then
          (s.addFld Reg.AHNENT.CW_LATE_COUNT q 1).post 0x52 q 0x005 1 (l % 4 + w.stream * 4 + w.op * 64) else s
      ((w.stream, w.op, if user then w.arg % 2 ^ 16 else if late then 0 else w.effect - k), s)

/-- Header payload of R314. -/
def headerPayload (mfn short stream op arg : Nat) : Nat :=
  let v := 0x4B + mfn % 256 * 2 ^ 8 + 2 ^ 16 * (short % 2 ^ 16) + 2 ^ 32 * (stream % 16) + 2 ^ 36 * (op % 16) + 2 ^ 40 * (arg % 2 ^ 16)
  v + 2 ^ 56 * crc8 56 v 0xFF

/-- Polarity: every bit of a block on NRZ, the first of each pair on PAM4 (R306, R313). -/
def invertBlock (pam4 : Bool) (b : BitVec 66) : BitVec 66 :=
  b ^^^ BitVec.ofNat 66 (if pam4 then (2 ^ 66 - 1) / 3 else 2 ^ 66 - 1)

/-- Payloads scrambled in turn; sync headers are not (R313). -/
def scrambleBlocks : List Nat → Bool → Nat → List (BitVec 66) × Nat
  | [], _, st => ([], st)
  | p :: r, hdr, st =>
    let (v, st) := scramble 64 p st
    let (l, e) := scrambleBlocks r false st
    (BitVec.ofNat 66 ((if hdr then 2 else 1) + 4 * v) :: l, e)

/-- The 31 data payloads of a container bit stream, with FEC parity in bits 1,920–1,983 (R315, R318). -/
def bodyPayloads (fec : Bool) (bits : List Bool) : List Nat :=
  let cap := if fec then 1920 else 1984
  let b := (bits ++ List.replicate (cap - bits.length) false).take cap
  let b := if fec then b ++ (rsParity (streamBytes 240 b)).flatMap (bitsMsb 8) else b
  (List.range 31).map (fun k => bitsLsb ((b.drop (64 * k)).take 64))

/-- Tc of a number of multiframes. -/
def State.mfTc (s : State) (q n : Nat) : Nat := n * s.mfPeriod q * 196608 / 10000000000

/-- How far ahead events are told: the lead of R319, with room for two multiframes. -/
def State.tellAhead (s : State) (q : Nat) : Nat := s.mfTc q (s.cwLead q + 2)

/-- The first sample of a stream whose nominal time is `d` Tc or more from now, as channel `c` times it (R319). -/
def State.effectSample (s : State) (l st c d : Nat) : Nat :=
  let t := ((s.chTc c : Int) - (s.strm c).startAt).toNat
  let rate := s.chSize c * 2 ^ s.chMu c
  s.nextSample l st + (((t + d) * rate + 131071) / 131072 - t * rate / 131072)

/-- A change of `want` within the horizon, not told yet, is told with its effect sample: `on` and `off` are the operations, `c` a channel
that times the stream. -/
def State.foretell (s : State) (l st c key on off : Nat) (want : Nat → Bool) : State :=
  let H := s.tellAhead (l / 4)
  let op := if want H then on else off
  if s.toldAt key (s.nextSample l st + 2 ^ 40) off = op then s
  else
    let d := if want 0 = want H then 0 else bisect (fun k => decide (k ≤ H) && want k != want H) 24 0 + 1
    s.tell key l st op (s.effectSample l st c d)

/-- PA-enable and ramps that will change within the lead of a lane's words are told (R319): PA-enable by stream, the OR of its channels
(R85), where one of them has AHNENT_PA; ramps by channel. -/
def State.announce (s : State) (l : Nat) : State :=
  ((List.range 16).filter (s.ahnEn l)).foldl (fun s st =>
    match s.sendersTo l st with
    | [] => s
    | c :: r =>
      let cs := s.namers l st
      let s := if cs.any (fun d => s.sbit d Reg.STRM_TX.PA_OUT_AHNENT_PA) then
          s.foretell l st c (16 * l + st) 1 2 (fun d => cs.any (fun k => s.paAt k d)) else s
      (c :: r).foldl (fun s k => if 0 < s.rampLen k then s.foretell l st k (1024 + k) 3 4 (s.runAt k) else s) s) s

/-- The multiframe a lane sends now. DESIGN CHOICE: the spec gives no format for the "idle control block" of R55; in Witness a lane goes
on sending multiframes, whose containers hold zeros (log entry 33). -/
def State.sendMultiframe (s : State) (l : Nat) : State :=
  let q := l / 4
  let s := s.announce l
  let sts := (List.range 16).filter (s.ahnEn l)
  let count := (s.ahn l).sentCount
  let (bits, short, s) := sts.foldl (fun (acc : List Bool × Nat × State) st =>
    let (b, sh, s) := acc.2.2.container l st
    (acc.1 ++ b, acc.2.1 + b2n sh * 2 ^ st, s)) (([] : List Bool), 0, s)
  let ((ws, wo, wa), s) := s.headWord l (tget 0 count) short
  let x := s.ahn l
  let (blocks, scr) := scrambleBlocks (headerPayload x.mfnTx short ws wo wa :: bodyPayloads (s.bit Reg.AHNENT.CTL_FEC_EN q) bits) true x.scrTx
  let blocks := if s.bit Reg.LANE.CTL_TX_INV l then blocks.map (invertBlock (s.quadRate q == 3)) else blocks
  s.setAhn l { x with lastSent := blocks, scrTx := scr }

/-! ## Taking a multiframe -/

def descrambleBlocks : List (BitVec 66) → Nat → List Nat × Nat
  | [], st => ([], st)
  | b :: r, st =>
    let (v, st) := descramble 64 (b.toNat / 4) st
    let (l, e) := descrambleBlocks r st
    (v :: l, e)

def validSync (b : BitVec 66) : Bool := b.toNat % 4 == 1 || b.toNat % 4 == 2

/-- Bits of a number, bit 0 first. -/
def bitsOfLsb : Nat → Nat → List Bool
  | 0, _ => []
  | n + 1, v => (v % 2 == 1) :: bitsOfLsb n (v / 2)

/-- Received samples of one container (R317). -/
def unContainer (w n : Nat) (bits : List Bool) : List Sample :=
  (List.range n).map (fun i =>
    let c (j : Nat) : Int := signedOf w (bitsToNat ((bits.drop ((2 * i + j) * w)).take w)) * 2 ^ (16 - w)
    (c 0, c 1))

/-- Zero samples for the time a lane spent in IDLE, delivered as received (R322). -/
def State.fillIdle (s : State) (l src : Nat) : State :=
  let since := (s.ahn src).rxSince
  (List.range 16).foldl (fun s st =>
    (s.receiversOf l st).foldl (fun s c =>
      let t := (s.tb (s.sfld c Reg.STRM_RX.CTL_TB)).stamp
      let rate := s.chSize c * 2 ^ s.chMu c
      let x := s.strm c
      let from_ := max (t - (s.devclk.toNat - since) * 655360) (tcStamp x.startAt.toNat)
      let n := (t - from_) * 3 * rate / (131072 * 100000)
      s.setStrm c { x with inBuf := x.inBuf ++ (List.range n).map (fun k => (from_ + k * (131072 * 100000) / (3 * rate), some (0, 0))) }) s) s

/-- A loss takes the receiver from UP or IDLE to ALIGN (R320): LINK_DOWN, a lane-loss fault, protection. -/
def State.ahnLoss (s : State) (l : Nat) (mflock : Bool) : State :=
  let s := s.cutStreams l
  let s := s.setAhn l { s.ahn l with good := 0, bad := 0, syncRun := 0, syncHist := 0, idleWarned := false }
  let s := (s.setRxState l 2).post 0x52 (l / 4) 0x001 2 (l % 4 + 4 * b2n mflock)
  (s.reportFault 6 0x51 l).protectSwitch l

/-- A received control word (R319): USER into the FIFO of 16, IDLE_ENTER noted, unknown operations counted. -/
def State.takeWord (s : State) (l stream op arg : Nat) : State :=
  let q := l / 4
  let x := s.ahn l
  if op = 6 then
    if x.rxWords.length < 16 then s.setAhn l { x with rxWords := x.rxWords ++ [(stream, arg)] }
    else s.addFld Reg.AHNENT.RX_CW_LOST_COUNT q 1
  else if op = 5 then s.setAhn l { x with idleWarned := true }
  else if 7 ≤ op then s.addFld Reg.AHNENT.CW_UNKNOWN_COUNT q 1
  else s

/-- Samples of a multiframe delivered by the containers as this end is configured; one that could not be corrected delivers zeros that
count as missing (R318), in every slot: its SHORT bits are not to be trusted. DEDUCED (log entry 70). -/
def State.takeBody (s : State) (l src short : Nat) (bits : List Bool) (bad : Bool) : State :=
  ((List.range 16).filter (s.ahnEn src)).foldl (fun (acc : Nat × State) st =>
    let s := acc.2
    let n := s.ahnSlots src st
    let w := s.ahnIqw src st
    let ys := if bad then List.replicate n none else (unContainer w (if bitOf short st then n - 1 else n) (bits.drop acc.1)).map some
    (acc.1 + n * 2 * w, s.deliver l st ys)) (0, s) |>.2

/-- A received multiframe in ALIGN, UP or IDLE (R317-R322): block lock comes first, then 4 headers in a row; a lane at a rate that Ahnent
does not have never locks (R325). -/
def State.takeMultiframe (s : State) (l : Nat) (blocks : List (BitVec 66)) : State :=
  let q := l / 4
  let x := s.ahn l
  let st := s.rxState l
  let blocks := (List.range 32).map (fun i => blocks.getD i 0)
  let blocks := if s.bit Reg.LANE.CTL_RX_INV l then blocks.map (invertBlock (s.quadRate q == 3)) else blocks
  let (run, hist, lost) := blocks.foldl (fun (a : Nat × Nat × Bool) b =>
    let h := (2 * a.2.1 + b2n !validSync b) % 2 ^ 64
    (if validSync b then a.1 + 1 else 0, h, a.2.2 || decide (16 ≤ ((List.range 64).filter (bitOf h)).length))) (x.syncRun, x.syncHist, false)
  let (pay, scr) := descrambleBlocks blocks x.scrRx
  let h := pay.getD 0 0
  let fecOn := s.bit Reg.AHNENT.CTL_FEC_EN q
  let bits := (pay.drop 1).flatMap (bitsOfLsb 64)
  let dec := if fecOn then rsDecode (streamBytes 248 bits) else none
  let fecBad := fecOn && dec.isNone
  let body := match dec with
    | some (w, _) => (w.take 240).flatMap (bitsMsb 8)
    | none => bits
  let crcOk := h % 256 == 0x4B && crc8 56 h 0xFF == h / 2 ^ 56
  let mfn := h / 2 ^ 8 % 256
  let want := if st = 4 then
      (x.mfnRx + ((s.devclk.toNat - x.rxSince) * 1000000 + s.mfPeriod q / 2) / s.mfPeriod q) % 256 else x.mfnRx
  let good := crcOk && !fecBad
  let bad := if good then 0 else x.bad + 1
  let runs := if good ∧ 64 ≤ x.syncRun then (if mfn = want then x.good + 1 else 1) else 0
  let s := s.setAhn l { x with scrRx := scr, syncRun := min 64 run, syncHist := hist, good := runs, bad := bad,
                               mfnRx := (if good then mfn + 1 else x.mfnRx + 1) % 256 }
  let deliverNow (s : State) : State :=
    match s.deliverAs l with
    | none => s
    | some w => s.takeBody w l (if crcOk then h / 2 ^ 16 % 2 ^ 16 else 0) body fecBad
  let counts (s : State) : State :=
    let s := if fecBad then
        let s := s.addFld Reg.AHNENT.FEC_UNCORR_COUNT q 1
        { s with lanes := { s.lanes with fecLost := tset 0 s.lanes.fecLost q (tget 0 s.lanes.fecLost q + 1) } }
      else match dec with
        | some (_, n) => if 0 < n then s.addFld Reg.AHNENT.FEC_CORR_COUNT q 1 else s
        | none => s
    if !crcOk && !fecBad then s.addFld Reg.AHNENT.HDR_ERR_COUNT q 1 else s
  let word (s : State) : State := if good then s.takeWord l (h / 2 ^ 32 % 16) (h / 2 ^ 36 % 16) (h / 2 ^ 40 % 2 ^ 16) else s
  if st = 2 then
    if 64 ≤ run ∧ 4 ≤ runs ∧ (s.quadRate q = 1 ∨ s.quadRate q = 3) then
      let s := ((s.setRxState l 3).setFld Reg.LANE.STATUS_CDR_LOCK l 1).post 0x52 q 0x002 0 (l % 4)
      if s.txState l = 2 then s.setTxState l 3 else s
    else s
  else if st = 3 then
    if lost then s.ahnLoss l false
    else if 4 ≤ bad then (counts s).ahnLoss l true
    else word (deliverNow (counts s))
  else if st = 4 then
    if good && mfn == want then
      let s := match s.deliverAs l with
        | some w => s.fillIdle w l
        | none => s
      word (deliverNow (s.setRxState l 3))
    else s.ahnLoss l true
  else s

/-- A lane begins to send: samples that were due before are gone (R321, R325). -/
def State.txBegin (s : State) (l n : Nat) : State :=
  (((List.range 16).filter (s.ahnEn l)).foldl (fun s st => s.pullStream l st) s).setTxState l n

/-! ## Electrical idle (R321) -/

/-- Whether a transmit channel of a lane is active, ramps or has a word queued within the next `w` Tc. -/
def State.laneNeeds (s : State) (l w : Nat) : Bool :=
  !(s.ahn l).words.isEmpty ||
  (s.streams.ch.map (·.1)).any (fun c => isTx c && s.chRuns c && s.sfld c Reg.STRM_RX.LINK_LANE == l &&
    (s.bit Reg.STRM_TX.STATUS_PA_ON (c - 512) || !(s.strm c).tail.isEmpty ||
      (!(s.strm c).stopped && (List.range (w / 8192 + 2)).any (fun k => s.chActive c (s.chCode c (s.chGrid c (min w (8192 * k))))))))

end Sys2Proof.Machine
end

