-- ==== Sys2Proof/Machine/EthOps.lean ====
section
/-! DEFINITION. Ethernet: parsing and lookup (R329-R331), checksums (R339, R340), fronthaul messages and RoE packets (R334-R338),
rings (R341-R345), pause and PFC (R348-R350), protection (R351). PRESUMED, unsafe: layouts the spec names by standard
(log entry 25). -/
namespace Sys2Proof.Machine

/-! ## Bytes of a frame -/

/-- The number `n` bytes at `i` spell, most significant first; bytes past the end read as zero. -/
def beAt (l : List Byte) (i : Nat) : Nat → Nat
  | 0 => 0
  | n + 1 => 256 * beAt l i n + (l.getD (i + n) 0).toNat

/-- `n` bytes of a number, most significant first. -/
def beBytes (n v : Nat) : List Byte := (leBytes n v).reverse

/-- Bytes put over a list at `i`. -/
def putAt (l : List Byte) (i : Nat) (b : List Byte) : List Byte := l.take i ++ b ++ l.drop (i + b.length)

/-- CRC-32 of IEEE 802.3 over one byte. -/
def crc32Byte (c b : Nat) : Nat :=
  (List.range 8).foldl (fun c _ => if c % 2 = 1 then (c / 2) ^^^ 0xEDB88320 else c / 2) (c ^^^ b)

def crc32 (l : List Byte) : Nat := (l.foldl (fun c b => crc32Byte c b.toNat) 0xFFFFFFFF) ^^^ 0xFFFFFFFF

/-- The frame check sequence as it is sent. -/
def fcs (l : List Byte) : List Byte := leBytes 4 (crc32 l)

/-- One's-complement sum of 16-bit words, folded; an odd last byte is padded with zero. -/
def onesSum : List Byte → Nat
  | [] => 0
  | [a] => a.toNat * 256
  | a :: b :: r => a.toNat * 256 + b.toNat + onesSum r

def fold16 (n : Nat) : Nat :=
  let n := n % 65536 + n / 65536
  let n := n % 65536 + n / 65536
  n % 65536 + n / 65536

/-! ## The parser (R329) -/

/-- What follows the layers: eCPRI with message type, PC_ID and SEQ_ID; RoE with subType, flowID, length, orderingInfo; other. -/
inductive Upper
  | ecpri (type pcId seqId : Nat) | roe (sub flow len order : Nat) | other
deriving DecidableEq, Repr

/-- A parsed frame: outermost tag (if any), where the network layer begins, L3, L4, where L4 begins, the two checksum verdicts,
where the upper header begins, and what it is; whether it is PTP and where its message begins. -/
structure Parsed where
  tci : Option Nat
  net : Nat
  l3 : Nat
  l4 : Nat
  l4At : Nat
  ipOk : Bool
  l4Ok : Bool
  at_ : Nat
  upper : Upper
  ptp : Option Nat
deriving DecidableEq, Repr

/-- eCPRI at an offset; PC_ID and SEQ_ID for message types 0 and 2. -/
def parseEcpri (l : List Byte) (i : Nat) : Upper :=
  let t := beAt l (i + 1) 1
  if t = 0 ∨ t = 2 then .ecpri t (beAt l (i + 4) 2) (beAt l (i + 6) 2) else .ecpri t 0 0

/-- Checksum of L4 with its pseudo-header: addresses, protocol, length. -/
def l4Sum (addrs : List Byte) (proto : Nat) (body : List Byte) : Nat :=
  fold16 (onesSum addrs + proto + body.length + onesSum body)

/-- Bytes of L4 as its IP length gives them, within the frame. -/
def l4Body (l : List Byte) (net l3 l4At : Nat) : List Byte :=
  let stop := if l3 = 1 then net + beAt l (net + 2) 2 else net + 40 + beAt l (net + 4) 2
  (l.take stop).drop l4At

def ipAddrs (l : List Byte) (net l3 : Nat) : List Byte := if l3 = 1 then (l.drop (net + 12)).take 8 else (l.drop (net + 8)).take 32

/-- Verdict on the L4 checksum (R339). -/
def l4Good (l : List Byte) (net l3 l4 l4At : Nat) : Bool :=
  let field := beAt l (l4At + (if l4 = 1 then 6 else 16)) 2
  if l4 = 1 ∧ field = 0 then l3 == 1
  else l4Sum (ipAddrs l net l3) (if l4 = 1 then 17 else 6) (l4Body l net l3 l4At) == 0xFFFF

/-- A frame without its FCS parsed; `port` is MAC.ECPRI_PORT. -/
def parseFrame (l : List Byte) (port : Nat) : Parsed :=
  let e0 := beAt l 12 2
  let tag1 := e0 == 0x88A8 || e0 == 0x8100
  let e1 := beAt l 16 2
  let tag2 := tag1 && e1 == 0x8100
  let net := if tag2 then 22 else if tag1 then 18 else 14
  let et := beAt l (net - 2) 2
  let tci := if tag1 then some (beAt l 14 2) else none
  let base : Parsed := ⟨tci, net, 0, 0, 0, false, false, net, .other, none⟩
  let withL4 (l3 proto at_ : Nat) (ipOk : Bool) : Parsed :=
    let l4 := if proto = 17 then 1 else if proto = 6 then 2 else 0
    let p := { base with l3 := l3, ipOk := ipOk, at_ := at_ }
    if l4 = 0 then p
    else
      let p := { p with l4 := l4, l4At := at_, l4Ok := l4Good l net l3 l4 at_ }
      let dst := beAt l (at_ + 2) 2
      if l4 = 1 ∧ port ≠ 0 ∧ dst = port then { p with at_ := at_ + 8, upper := parseEcpri l (at_ + 8) }
      else if l4 = 1 ∧ (dst = 319 ∨ dst = 320) then { p with ptp := some (at_ + 8) } else p
  if et = 0xAEFE then { base with upper := parseEcpri l net }
  else if et = 0xFC3D then { base with upper := .roe (beAt l net 1) (beAt l (net + 1) 1) (beAt l (net + 2) 2) (beAt l (net + 4) 4) }
  else if et = 0x0800 then
    let hl := beAt l net 1 % 16 * 4
    let ok := fold16 (onesSum ((l.drop net).take hl)) == 0xFFFF
    let frag := beAt l (net + 6) 2 % 0x4000
    if frag ≠ 0 then { base with l3 := 1, ipOk := ok } else withL4 1 (beAt l (net + 9) 1) (net + hl) ok
  else if et = 0x86DD then withL4 2 (beAt l (net + 6) 1) (net + 40) false
  else if et = 0x88F7 then { base with ptp := some net }
  else base

/-- VID of the outermost tag, 0 without one. -/
def Parsed.vid (p : Parsed) : Nat := p.tci.getD 0 % 4096

/-! ## Inserting checksums (R340) -/

/-- The IPv4 header checksum of a frame written anew. -/
def putIpCsum (l : List Byte) (p : Parsed) : List Byte :=
  if p.l3 = 1 ∧ p.l4 ≠ 0 then
    let z := putAt l (p.net + 10) [0, 0]
    putAt z (p.net + 10) (beBytes 2 (0xFFFF - fold16 (onesSum ((z.drop p.net).take (beAt l p.net 1 % 16 * 4)))))
  else l

/-- The UDP or TCP checksum of a frame written anew; a UDP checksum of 0 is sent as 0xFFFF. -/
def putL4Csum (l : List Byte) (p : Parsed) : List Byte :=
  if p.l4 = 0 then l
  else
    let at_ := p.l4At + (if p.l4 = 1 then 6 else 16)
    let z := putAt l at_ [0, 0]
    let c := 0xFFFF - l4Sum (ipAddrs z p.net p.l3) (if p.l4 = 1 then 17 else 6) (l4Body z p.net p.l3 p.l4At)
    putAt z at_ (beBytes 2 (if p.l4 = 1 ∧ c = 0 then 0xFFFF else c))

/-- The IP and UDP length fields of a flow-built frame, and its checksums (R338 step 4). -/
def finishIp (l : List Byte) (port : Nat) : List Byte :=
  let p := parseFrame l port
  let l := if p.l3 = 1 then putAt l (p.net + 2) (beBytes 2 (l.length - p.net))
    else if p.l3 = 2 then putAt l (p.net + 4) (beBytes 2 (l.length - p.net - 40)) else l
  let l := if p.l4 = 1 then putAt l (p.l4At + 4) (beBytes 2 (l.length - p.l4At)) else l
  putL4Csum (putIpCsum l p) p

/-! ## The flow table (R330-R333) -/

def State.flowWord (s : State) (e w : Nat) : Word := tget 0 s.eth.flow (8 * e + w)

def State.flowFld (s : State) (e w msb lsb : Nat) : Nat := wordField (s.flowWord e w) msb lsb

def State.setFlowWord (s : State) (e w : Nat) (v : Word) : State :=
  { s with eth := { s.eth with flow := tset 0 s.eth.flow (8 * e + w) v } }

/-- A counter of an entry: 0 ON_TIME, 1 EARLY, 2 LATE, 3 CORRUPT, 4 SEQ_ERR. -/
def State.flowCount (s : State) (e k n : Nat) : State :=
  { s with eth := { s.eth with stats := tset 0 s.eth.stats (5 * e + k) (tget 0 s.eth.stats (5 * e + k) + BitVec.ofNat 32 n) } }

/-- LATE counted, and marked for the tally period's event. -/
def State.flowLate (s : State) (e n : Nat) : State :=
  let s := s.flowCount e 2 n
  if s.eth.late.contains e then s else { s with eth := { s.eth with late := s.eth.late ++ [e] } }

def State.flowClear (s : State) (e : Nat) : State :=
  { s with eth := { s.eth with stats := (List.range 5).foldl (fun t k => tset 0 t (5 * e + k) 0) s.eth.stats } }

/-- Entries with any nonzero word, in order: all others are not VALID. -/
def State.flowEntries (s : State) : List Nat := (s.eth.flow.map (fun p => p.1 / 8)).eraseDups

/-- The MAC that sends for a named MAC: the ACTIVE member of the protection pair whose WORK it is (R351). -/
def State.activeMac (s : State) (w : Nat) : Nat :=
  match (List.range 24).find? (fun h => s.bit Reg.MAC.PROTECT_EN h && s.fld Reg.MAC.PROTECT_WORK h == w) with
  | some h => if s.bit Reg.MAC.PROTECT_ACTIVE h then s.fld Reg.MAC.PROTECT_PROT h else w
  | none => w

/-- Whether frames of a MAC count for entries of MAC `w`: itself, or the other member of a pair that names it WORK. -/
def State.macMatches (s : State) (m w : Nat) : Bool :=
  m == w || (List.range 24).any (fun h => s.bit Reg.MAC.PROTECT_EN h && s.fld Reg.MAC.PROTECT_WORK h == w && s.fld Reg.MAC.PROTECT_PROT h == m)

/-- Whether an RX entry's KIND fits a frame; RoE of a subType that some entry names is of that entry's kind only. -/
def State.kindFits (s : State) (e : Nat) (u : Upper) : Bool :=
  let k := s.flowFld e 7 29 27
  match u with
  | .ecpri t _ _ => if t = 0 then k == 0 else k == 1
  | .roe sub _ _ _ =>
    if k = 2 ∨ k = 3 then s.flowFld e 0 25 18 == sub
    else k == 4 && !s.flowEntries.any (fun f => s.flowFld f 7 31 30 == 2 && (s.flowFld f 7 29 27 == 2 || s.flowFld f 7 29 27 == 3) &&
      s.flowFld f 0 25 18 == sub)
  | .other => k == 6

def Upper.key : Upper → Nat
  | .ecpri _ pc _ => pc
  | .roe _ f _ _ => f
  | .other => 0

/-- The lowest-numbered RX entry that matches (R330): VALID is bit 31 and DIR bit 30 of word 7. -/
def State.flowLookup (s : State) (m : Nat) (p : Parsed) : Option Nat :=
  s.flowEntries.find? (fun e =>
    s.flowFld e 7 31 30 == 2 && s.macMatches m (s.flowFld e 0 4 0) && (s.flowFld e 0 5 5 == 1 || s.flowFld e 0 17 6 == p.vid) &&
    s.kindFits e p.upper && ((p.upper.key ^^^ s.flowFld e 1 15 0) &&& s.flowFld e 1 31 16) == 0)

/-- Whether an entry delivers to a ring. -/
def State.flowToRing (s : State) (e : Nat) : Bool :=
  let k := s.flowFld e 7 29 27
  s.flowFld e 2 9 9 == 1 || k == 1 || k == 4 || k == 6

/-- IQ_WIDTH as it acts. -/
def iqWidth (n : Nat) : Nat := if n = 0 then 16 else max 7 n

/-- The lowest-numbered valid RX entry that targets a channel (R336). -/
def State.entryOf (s : State) (c : Nat) : Option Nat :=
  s.flowEntries.find? (fun e => s.flowFld e 7 31 30 == 2 && !s.flowToRing e && s.flowFld e 2 8 0 == c)

/-- The lowest-numbered TX entry of a channel (R333). -/
def State.txEntryOf (s : State) (c : Nat) : Option Nat :=
  s.flowEntries.find? (fun e => s.flowFld e 7 31 30 == 3 && s.flowFld e 0 8 0 == c)

/-- NI of the ring engine of a MAC (R239). -/
def macNi (m : Nat) : Nat := 60 + m / 12

/-- MAX_LEN as it acts. -/
def State.maxLen (s : State) (m : Nat) : Nat := min 9600 (max 64 (s.fld Reg.MAC.FRAME_MAX_LEN m))

/-! ## Fronthaul receive (R334-R337) -/

/-- One section of a message: symbol after the message's, first PRB, blocks as exponent and mantissas of a width. -/
structure Section where
  sym : Nat
  start : Nat
  width : Nat
  blocks : List (List Byte)
deriving DecidableEq, Repr

/-- The sections of a U-plane message (R334 check 5): none when a section has rb set or PRBs beyond the payload. `head` is the
entry's width and method when it is static. -/
def parseSections (head : Option (Nat × Nat)) (grid : Nat) : Nat → Nat → List Byte → Option (List Section)
  | 0, _, _ => some []
  | n + 1, sym, l =>
    if l.length < 4 then some []
    else
      let h := beAt l 0 4
      let sym := if bitOf h 18 then sym + 1 else sym
      let (w, m, l2) := match head with
        | some (w, m) => (w, m, l.drop 4)
        | none => (iqWidth (beAt l 4 1 / 16), beAt l 4 1 % 16, l.drop 6)
      let start := h / 256 % 1024
      let num := if h % 256 = 0 then grid - start else h % 256
      let size := 3 * w + (if m = 0 then 0 else 1)
      if bitOf h 19 ∨ l2.length < num * size then none
      else
        let bs := (chunks size num l2).map (fun b => if m = 0 then (0 : Byte) :: b else b)
        match parseSections head grid n sym (l2.drop (num * size)) with
        | some r => some (⟨sym, start, w, bs⟩ :: r)
        | none => none

/-- Boundary of a symbol code of a channel in Tc of its time base: the occurrence nearest to the present. -/
def State.symNear (s : State) (c code : Nat) : Int :=
  let mu := s.chMu c
  let ext := s.chExt c
  let tb := s.sfld c Reg.STRM_RX.CTL_TB
  let g := s.chGrid c 0
  let H : Int := 1024 * 19660800
  let now : Int := (((g.frame + s.fld Reg.TB.GRID_CFG_SFN_OFFSET tb) % 1024).toNat * 19660800 + g.subframe * 1966080 +
    startOf mu ext g.l + g.since : Nat)
  let sl := codeSlot code
  let at_ : Int := (codeSfn code * 19660800 + sl / 2 ^ mu * 1966080 + startOf mu ext (sl % 2 ^ mu * slotSymbols ext + codeSym code) : Nat)
  let d := (at_ - now) % H
  (s.chTc c : Int) + (if d ≤ H / 2 then d else d - H)

/-- The SFN a message's frameId means (R335): of those equal to it modulo 256, the nearest to the current one, the earlier on a
tie. -/
def nearSfn (cur id : Nat) : Nat :=
  let d := (id + 1024 - cur % 256) % 256
  if d < 128 then (cur + d) % 1024 else (cur + 1024 + d - 256) % 1024

/-- A message's or sample's stamp, taken in a MAC's time base, in a channel's (2^-16 ns). -/
def State.toChannelTime (s : State) (c tb stamp : Nat) : Int :=
  ((s.tb (s.sfld c Reg.STRM_RX.CTL_TB)).stamp : Int) + ((stamp : Int) - (s.tb tb).stamp)

/-- Whether a stamp lies at or after a Tc count, exactly. -/
def atOrAfter (stamp tc : Int) : Bool := decide (100000 * tc ≤ 3 * stamp)

/-- A block as the channel places it (R80): bit for bit where width and gain leave it, else decompressed, scaled and compressed
anew; with the power of its samples and whether one was clamped. -/
def State.fhBlock (s : State) (c w : Nat) (b : List Byte) : List Byte × Nat × Bool :=
  let x := s.strm c
  let mant := mantW (s.sfld c Reg.STRM_RX.PRB_MANT)
  let (ys, cl) := bfpUnpack w b
  if w = mant ∧ x.gain = 0 then (b, energy ys, false)
  else
    let G := gainQ x.gain
    let zs := ys.map (applyGain G)
    (bfpPack mant zs, energy zs, cl || ys.any (gainClips G))

/-- One block placed in the grid; in that of a time-domain channel, whose own symbols come over it, as written (R354). -/
def State.fhPlace (s : State) (c code prb w : Nat) (b : List Byte) : State :=
  let first := s.sfld c Reg.STRM_RX.PRB_PRB_FIRST
  if first ≤ prb ∧ prb < first + s.sfld c Reg.STRM_RX.PRB_PRB_COUNT then
    let (blk, pw, cl) := s.fhBlock c w b
    let s := if cl then s.strmSat c code else s
    let x := s.strm c
    let size := 1 + 3 * mantW (s.sfld c Reg.STRM_RX.PRB_MANT)
    let a := gridSymbol c x.eff (slotCount (s.chMu c) code) (codeSym code) + (prb - first) * size
    let (ok, s) := s.chPut c (a % 2 ^ 40) code blk
    let y := s.strm c
    let rest := y.fhPlaced.filter (fun p => !(p.sym == code && p.prb == prb))
    if !s.sbit c Reg.STRM_RX.CTL_FREQ_DOMAIN then s else s.setStrm c { y with
      agcSum := if y.agcOn then y.agcSum + pw else 0
      agcN := if y.agcOn then y.agcN + 12 else 0
      fhPlaced := rest ++ [⟨code, prb, blk, ok⟩] }
  else s

/-- Symbol `k` after a symbol code. -/
def State.symAfter (s : State) (c code k : Nat) : Nat :=
  let n := slotSymbols (s.chExt c)
  let t := codeSym code + k
  let spf := 10 * 2 ^ s.chMu c
  let sl := codeSlot code + t / n
  t % n + sl % spf * 16 + (codeSfn code + sl / spf) % 1024 * 2048

/-- A U-plane message of an entry reaches its channel (R334-R336): `l` is the frame from its eCPRI header on, `stamp` its arrival
in the time base `tb`. Its PRBs are placed in active symbols of a channel that runs (R70, R80), with FREQ_DOMAIN in effect or not (R354). -/
def State.uPlane (s : State) (e tb stamp : Nat) (l : List Byte) : State :=
  let c := s.flowFld e 2 8 0
  let size := beAt l 2 2
  let body := (l.drop 4).take size
  let seq := beAt body 2 2
  let u := body.drop 4
  let h := beAt u 0 4
  let head := if s.flowFld e 2 16 16 = 1 then some (iqWidth (s.flowFld e 2 13 10), s.flowFld e 2 15 14) else none
  let secs := parseSections head (s.sfld c Reg.STRM_RX.PRB_GRID_PRBS) u.length 0 (u.drop 4)
  if beAt l 0 1 / 16 ≠ 1 ∨ beAt l 0 1 % 2 ≠ 0 ∨ l.length - 4 < size ∨ seq % 256 ≠ 0x80 ∨ h / 2 ^ 28 ≠ 1 then s.flowCount e 3 1
  else
    match secs with
    | none => s.flowCount e 3 1
    | some secs =>
      let last := tget 0 s.eth.seqRx e
      let s := if 0 < last ∧ (last - 1 + 1) % 256 ≠ seq / 256 then s.flowCount e 4 1 else s
      let s := { s with eth := { s.eth with seqRx := tset 0 s.eth.seqRx e (seq / 256 + 1) } }
      let sfn := nearSfn (codeSfn (s.chCode c (s.chGrid c 0))) (h / 2 ^ 16 % 256)
      let slot := h / 2 ^ 12 % 16 * 2 ^ s.chMu c + h / 2 ^ 6 % 64
      let code := h % 16 + slot % 128 * 16 + sfn * 2048
      let t := s.toChannelTime c tb stamp
      let (opens, closes) := match s.entryOf c with
        | some f => (signedOf 32 (s.flowWord f 3).toNat, signedOf 32 (s.flowWord f 4).toNat)
        | none => (0, 0)
      let inWin (k : Nat) : Bool :=
        let B := s.symNear c k
        atOrAfter t (B + opens) && !atOrAfter t (B + closes)
      if !atOrAfter t (s.symNear c code + opens) then s.flowCount e 1 1
      else if atOrAfter t (s.symNear c code + closes) then s.flowLate e 1
      else
        let s := s.flowCount e 0 1
        if !s.chRuns c then s
        else secs.foldl (fun s x =>
          let k := s.symAfter c code x.sym
          if (x.sym = 0 ∨ inWin k) ∧ s.chActive c k then
            (List.range x.blocks.length).foldl (fun s i => s.fhPlace c k (x.start + i) x.width (x.blocks.getD i [])) s
          else s) s

/-- A channel's samples in 1,024 frames, and the number within them at its time base's present (R337). -/
def State.cycleNow (s : State) (c : Nat) : Nat × Nat :=
  let tb := s.sfld c Reg.STRM_RX.CTL_TB
  let H : Int := 1024 * 19660800
  let t := (s.gridTime tb + (s.fld Reg.TB.GRID_CFG_SFN_OFFSET tb : Int) * 19660800) % H
  let rate := s.chSize c * 2 ^ s.chMu c
  (1024 * 19660800 * rate / 131072, t.toNat * rate / 131072)

/-- The Tc at which sample `k` of the cycle starts, nearest to the present, in units of Tc / rate; and its stamp, rounded up. -/
def State.sampleStamp (s : State) (c k : Nat) : Int × Nat :=
  let tb := s.sfld c Reg.STRM_RX.CTL_TB
  let H : Int := 1024 * 19660800
  let t := (s.gridTime tb + (s.fld Reg.TB.GRID_CFG_SFN_OFFSET tb : Int) * 19660800) % H
  let rate : Int := (s.chSize c * 2 ^ s.chMu c : Nat)
  let d := (k * 131072 - t * rate) % (H * rate)
  let d := if d ≤ H * rate / 2 then d else d - H * rate
  let a := (s.tb tb).tc * rate + d
  (a / rate, ((a * 100000 + 3 * rate - 1) / (3 * rate)).toNat)

/-- Whether a sample's symbol has begun its FFT window by an arrival (R337). -/
def State.fftWindowBegun (s : State) (c : Nat) (at_ arrival : Int) : Bool :=
  let g := s.chGrid c (at_ - s.chTc c)
  let stop := at_ + g.left
  atOrAfter arrival (stop - s.tcOf c (s.chSize c + s.sfld c Reg.STRM_RX.FFT_CFG_FFT_OFFSET))

/-- Components of a width from a bit stream, most significant bit first, shifted to 16 bits. -/
def roeComponent (w : Nat) (bits : List Bool) (i : Nat) : Int :=
  let v := signedOf w (bitsToNat ((bits.drop i).take w))
  if w ≤ 16 then v * 2 ^ (16 - w) else v

/-- The samples of an RoE payload (R337). -/
def roeSamples (kind w n off bf : Nat) (l : List Byte) : List Sample :=
  let bits := unpackBits l
  if kind = 2 then
    (List.range (min n (bits.length / (2 * w)))).map (fun i => (roeComponent w bits (2 * w * i), roeComponent w bits (2 * w * i + w)))
  else
    (List.range (l.length / bf)).map (fun i => (roeComponent w bits (8 * bf * i + off), roeComponent w bits (8 * bf * i + off + w)))

/-- Lanes a MAC claims: its block, by SPEED and the RATE of the quad that holds FIRST_LANE (R327): (first, count, RATE). -/
def State.macLanes (s : State) (m : Nat) : Nat × Nat × Nat :=
  let sp := min 5 (s.fld Reg.MAC.CFG_SPEED m)
  let f := s.fld Reg.MAC.CFG_FIRST_LANE m
  let (n, r) := match sp with
    | 0 => (1, 0)
    | 1 => (1, 1)
    | 2 => (1, 2)
    | 3 => if s.quadRate (f / 4) = 2 then (2, 2) else (4, 1)
    | 4 => (4, 2)
    | _ => (8, 2)
  (f, n, r)

def State.macHasLane (s : State) (m l : Nat) : Bool :=
  let (f, n, _) := s.macLanes m
  decide (f ≤ l) && decide (l < f + n)

/-- An RoE packet reaches its channel's input (R337). -/
def State.roePacket (s : State) (e tb stamp order : Nat) (payload : List Byte) : State :=
  let c := s.flowFld e 2 8 0
  if s.sbit c Reg.STRM_RX.CTL_FREQ_DOMAIN ∨ !s.macHasLane (s.flowFld e 0 4 0) (s.sfld c Reg.STRM_RX.LINK_LANE) then s
  else
    let n := max 1 (s.flowFld e 5 15 0)
    let xs := roeSamples (s.flowFld e 7 29 27) (iqWidth (s.flowFld e 2 13 10)) n (s.flowFld e 6 15 0) (max 1 (s.flowFld e 6 31 16)) payload
    let (cyc, _) := s.cycleNow c
    let arrival := s.toChannelTime c tb stamp
    let placed := xs.mapIdx (fun i y =>
      let (at_, st) := s.sampleStamp c ((order * n + i) % max 1 cyc)
      (s.fftWindowBegun c at_ arrival, st, y))
    let late := (placed.filter (fun p => p.1)).length
    let s := if 0 < late then s.flowLate e late else s
    let x := s.strm c
    s.setStrm c { x with inBuf := x.inBuf ++ (placed.filter (fun p => !p.1)).map (fun p => (p.2.1, some p.2.2)) }

/-! ## Fronthaul transmit (R338) -/

/-- The template of a TX entry, read through the ring engine; poison reads as zero. -/
def State.flowTemplate (s : State) (e : Nat) : List Byte × State :=
  let a := (s.flowFld e 2 31 0 + 2 ^ 32 * s.flowFld e 3 7 0) / 16 * 16
  let (_, l, s) := s.unitGet 0x59 0 (macNi (s.flowFld e 0 13 9 % 24)) 0 a (max 1 (s.flowFld e 3 15 8))
  (l.map (fun b => if b.2 then 0 else b.1), s)

/-- A message queued for the MAC of an entry (R338), or counted when it is longer than MAX_LEN (R354). -/
def State.queueMsg (s : State) (e : Nat) (bytes : List Byte) : State :=
  let m := s.flowFld e 0 13 9
  if 24 ≤ m then s
  else if s.maxLen m < bytes.length + 4 then s.addFld Reg.MAC.TX_OVERSIZE_COUNT m 1
  else { s with eth := { s.eth with queue := s.eth.queue ++ [⟨m, s.flowFld e 0 16 14, bytes⟩] } }

/-- The U-plane messages of a symbol's blocks. -/
def State.flowSend (s : State) (c : Nat) (j : SymJob) (blocks : List (List Byte)) : State :=
  match s.txEntryOf c with
  | none => s
  | some e =>
    if s.flowFld e 7 29 27 ≠ 0 ∨ (s.strm c).stopped then s
    else
      let (tpl, s) := s.flowTemplate e
      let m := s.flowFld e 0 13 9 % 24
      let f := effFld c j.eff
      let mant := mantW (f Reg.STRM_RX.PRB_MANT)
      let static := s.flowFld e 3 16 16 == 1
      let extra := tpl.length + 12 + (if static then 0 else 2) + 4
      let room := max 1 ((s.maxLen m - extra) / (1 + 3 * mant))
      let per := if s.flowFld e 1 24 16 = 0 then room else s.flowFld e 1 24 16
      let first := f Reg.STRM_RX.PRB_PRB_FIRST
      let mu := muOf (f Reg.STRM_RX.CTL_MU)
      let pcs := chunks per blocks.length blocks
      (List.range pcs.length).foldl (fun s i =>
        let bs := pcs.getD i []
        let start := first + per * i
        let whole := start == first && decide (first + bs.length = f Reg.STRM_RX.PRB_GRID_PRBS) && decide (255 < bs.length)
        let sec := 2 ^ 20 * (i % 4096) + start % 1024 * 2 ^ 8 + (if whole then 0 else bs.length % 256)
        let slot := codeSlot j.sym
        let u := 2 ^ 24 * (1 * 2 ^ 7 + 1 * 2 ^ 4) + 2 ^ 16 * (codeSfn j.sym % 256) + 2 ^ 12 * (slot / 2 ^ mu) + slot % 2 ^ mu * 2 ^ 6 + codeSym j.sym
        let seq := tget 0 s.eth.seqTx e
        let pay := beBytes 2 (s.flowFld e 1 15 0) ++ beBytes 2 (seq * 256 + 0x80) ++ beBytes 4 u ++ beBytes 4 sec ++
          (if static then [] else beBytes 2 (mant % 16 * 16 * 256 + 1 * 256)) ++ bs.flatMap id
        let t := putAt tpl (tpl.length - 2) (beBytes 2 pay.length)
        let s := { s with eth := { s.eth with seqTx := tset 0 s.eth.seqTx e ((seq + 1) % 256) } }
        s.queueMsg e (finishIp (t ++ pay) (s.fld Reg.MAC.ECPRI_PORT_PORT m))) s

/-- A basic frame of `bf` bytes with one 32-bit sample at a bit offset (KIND 3). -/
def basicFrame (bf off : Nat) (x : Sample) : List Byte :=
  let bits := bitsMsb 16 (toBits 16 x.1) ++ bitsMsb 16 (toBits 16 x.2)
  packBytes bf (((List.replicate off false ++ bits) ++ List.replicate (8 * bf) false).take (8 * bf))

/-- RoE packets of SAMPLES samples as they become complete; `fuel` counts the packets still possible. -/
def State.roeDrain (s : State) (e : Nat) : Nat → State
  | 0 => s
  | k + 1 =>
    let n := max 1 (s.flowFld e 5 15 0)
    let (i, xs) := tget (0, []) s.eth.roe e
    if xs.length < n then s
    else
      let (tpl, s) := s.flowTemplate e
      let m := s.flowFld e 0 13 9 % 24
      let ys := xs.take n
      let pay := if s.flowFld e 7 29 27 = 2 then
          packBytes (4 * n) (ys.flatMap (fun x => bitsMsb 16 (toBits 16 x.1) ++ bitsMsb 16 (toBits 16 x.2)))
        else ys.flatMap (basicFrame (max 1 (s.flowFld e 6 31 16)) (s.flowFld e 6 15 0))
      let t := putAt tpl (tpl.length - 7) (beBytes 1 (s.flowFld e 1 7 0) ++ beBytes 2 pay.length ++ beBytes 4 (i / n))
      let s := { s with eth := { s.eth with roe := tset (0, []) s.eth.roe e (i + n, xs.drop n) } }
      (s.queueMsg e (finishIp (t ++ pay) (s.fld Reg.MAC.ECPRI_PORT_PORT m))).roeDrain e k

/-- Number of a symbol's first sample in the cycle of 1,024 frames. -/
def State.cyclePos (s : State) (c code : Nat) : Nat :=
  let mu := s.chMu c
  let ext := s.chExt c
  let sl := codeSlot code
  (codeSfn code * 19660800 + sl / 2 ^ mu * 1966080 + startOf mu ext (sl % 2 ^ mu * slotSymbols ext + codeSym code)) *
    (s.chSize c * 2 ^ mu) / 131072

/-- A sent symbol's samples, the first of them number `k` of the cycle, into the packets of the channel's RoE entry (R338). -/
def State.roeSend (s : State) (c k : Nat) (xs : List Sample) : State :=
  match s.txEntryOf c with
  | none => s
  | some e =>
    let kind := s.flowFld e 7 29 27
    if (kind ≠ 2 ∧ kind ≠ 3) ∨ (s.strm c).stopped ∨ !s.macHasLane (s.flowFld e 0 13 9) (s.sfld c Reg.STRM_RX.LINK_LANE) then s
    else
      let n := max 1 (s.flowFld e 5 15 0)
      let (i, old) := tget (0, []) s.eth.roe e
      let (i, all) := if i + old.length = k ∧ !old.isEmpty then (i, old ++ xs) else
        let skip := (n - k % n) % n
        (k + skip, xs.drop skip)
      ({ s with eth := { s.eth with roe := tset (0, []) s.eth.roe e (i, all) } }).roeDrain e (all.length / n + 1)

/-! ## Rings (R341-R345) -/

def State.ethRing (s : State) (r : Nat) : EthRing := tget EthRing.reset s.eth.rings r

def State.setEthRing (s : State) (r : Nat) (x : EthRing) : State :=
  { s with eth := { s.eth with rings := tset EthRing.reset s.eth.rings r x } }

/-- LOG2 as it acts. -/
def ethLog2 (n : Nat) : Nat := max 6 n

/-- Slots of a ring with the length in effect. -/
def State.ethSlots (s : State) (r : Nat) : Nat := 2 ^ ethLog2 (s.ethRing r).log2

def State.ethHead (s : State) (r : Nat) : Nat := s.fld Reg.ETH_RING.HEAD_HEAD r

/-- Address of a slot. -/
def State.ethSlot (s : State) (r i : Nat) : Nat :=
  ((s.fld Reg.ETH_RING.BASE_LO_BASE_LO r + 2 ^ 32 * s.fld Reg.ETH_RING.BASE_HI_BASE_HI r) / 32 * 32 + 32 * i) % 2 ^ 40

/-- Slots from an index up to, not including, TAIL. -/
def State.ethAvail (s : State) (r i : Nat) : Nat :=
  let n := s.ethSlots r
  (s.fld Reg.ETH_RING.TAIL_TAIL r % n + n - i % n) % n

/-- A write of ETH_RING.CTL: LOG2 waits for the device pointer's wrap while EN is 1 (R342). -/
def State.ethCtl (s : State) (r : Nat) (v : Word) : State :=
  let was := s.bit Reg.ETH_RING.CTL_EN r
  let s := s.storeReg 0x5A r 0x000 v
  let l := s.fld Reg.ETH_RING.CTL_LOG2 r
  let s := s.setFld Reg.ETH_RING.STATUS_RUNNING r (wordField v 0 0)
  if was then s.setFld Reg.ETH_RING.STATUS_LEN_PENDING r (b2n (ethLog2 l != ethLog2 (s.ethRing r).log2))
  else (s.setEthRing r { s.ethRing r with log2 := l }).setFld Reg.ETH_RING.STATUS_LEN_PENDING r 0

/-- The device pointer after a slot: at a wrap the new length takes effect. -/
def State.ethNext (s : State) (r i : Nat) : Nat × State :=
  let n := s.ethSlots r
  if i + 1 < n then (i + 1, s)
  else (0, (s.setEthRing r { s.ethRing r with log2 := s.fld Reg.ETH_RING.CTL_LOG2 r }).setFld Reg.ETH_RING.STATUS_LEN_PENDING r 0)

/-- HEAD moved past slots, the vector under COAL_COUNT, the keystone (R341). -/
def State.ethComplete (s : State) (r head : Nat) (frame : Bool) : State :=
  let s := s.setFld Reg.ETH_RING.HEAD_HEAD r head
  let s := if frame then s.addFld Reg.ETH_RING.FRAMES_COUNT r 1 else s
  let x := s.ethRing r
  let n := x.unsignalled + 1
  let s := if s.bit Reg.ETH_RING.CTL_IRQ_EN r && decide (max 1 (s.fld Reg.ETH_RING.IRQ_COAL_COUNT r) ≤ n) then
      (s.setEthRing r { x with unsignalled := 0 }).raise (s.fld Reg.ETH_RING.IRQ_FN r) (s.fld Reg.ETH_RING.IRQ_VECTOR r)
    else s.setEthRing r { x with unsignalled := n }
  if s.bit Reg.ETH_RING.CTL_KEY_EN r then s.decKey (s.fld Reg.ETH_RING.KEY_KEY_INDEX r) false else s

/-- A ring's frame discarded: counted, and for the tally period's event. -/
def State.ethDiscard (s : State) (r : Nat) : State :=
  (s.addFld Reg.ETH_RING.DISCARDS_COUNT r 1).setEthRing r { s.ethRing r with discards := (s.ethRing r).discards + 1 }

/-- The 8 words of a descriptor at an address; poison reads as zero; none where the read fails. -/
def State.readDesc (s : State) (r ni a : Nat) : Option (List Word) × State :=
  let (st, l, s) := s.unitGet 0x5A r ni 0 a 32
  if st = .ok then
    let bs := l.map (fun b => if b.2 then 0 else b.1)
    (some ((List.range 8).map (fun k => BitVec.ofNat 32 (leNat ((bs.drop (4 * k)).take 4)))), s)
  else (none, s)

/-- The descriptor of a slot. -/
def State.ethDesc (s : State) (ni r i : Nat) : Option (List Word) × State := s.readDesc r ni (s.ethSlot r i)

/-- Buffer of a descriptor. -/
def descBuf (d : List Word) : Nat := (wordField (d.getD 0 0) 31 4 * 16 + 2 ^ 32 * wordField (d.getD 1 0) 7 0) % 2 ^ 40

/-- What fills an RX frame's buffers came to: its descriptors in order as (slot, bytes), whether they sufficed, whether an access
failed, and the next descriptor. -/
structure Filled where
  used : List (Nat × Nat)
  complete : Bool
  failed : Bool
  next : Nat
deriving DecidableEq, Repr

/-- A frame's bytes written into buffers from a slot on (R343); `fuel` counts the descriptors available. -/
def State.ethFill (s : State) (ni r : Nat) : Nat → Nat → List Byte → List (Nat × Nat) → Filled × State
  | 0, i, l, used => (⟨used, l.isEmpty && !used.isEmpty, false, i⟩, s)
  | n + 1, i, l, used =>
    if l.isEmpty ∧ !used.isEmpty then (⟨used, true, false, i⟩, s)
    else
      match s.ethDesc ni r i with
      | (none, s) => (⟨used, false, true, i⟩, s)
      | (some d, s) =>
        let cap := max 64 (wordField (d.getD 2 0) 15 4 * 16)
        let part := l.take cap
        let (st, s) := s.busPut ni 0 (descBuf d) (clean part)
        let (j, s) := s.ethNext r i
        if st = .ok then s.ethFill ni r n j (l.drop cap) (used ++ [(i, part.length)])
        else (⟨used ++ [(i, part.length)], false, true, j⟩, s)

/-- A frame for an RX ring (R343, R345): `info` are the fields of word 2 above bit 19 and word 3, `stamp` its words 4–6, `bad` says
that its FCS is bad. -/
def State.toRing (s : State) (m r : Nat) (l : List Byte) (info : Nat) (w3 : Word) (stamp : List Word) (bad : Bool) : State :=
  if !s.bit Reg.ETH_RING.CTL_EN r then s.ethDiscard r
  else
    let ni := macNi m
    let start := (s.ethRing r).next
    let avail := s.ethAvail r start
    if avail = 0 then (s.addFld Reg.MAC.RX_NO_DESC_COUNT m 1).ethDiscard r
    else
      let (f, s) := s.ethFill ni r avail start l []
      if f.failed ∧ f.used.isEmpty then s.ethDiscard r
      else
        let discard := bad || !f.complete
        let k := f.used.length
        let descs := f.used.mapIdx (fun i u =>
          let w2 := u.2 + 2 ^ 16 * b2n (i == 0) + 2 ^ 17 * b2n (i + 1 == k) + 2 ^ 18 * b2n discard + 2 ^ 19 * b2n bad + 2 ^ 20 * info
          (u.1, BitVec.ofNat 32 w2 :: w3 :: (if i = 0 then stamp else [0, 0, 0])))
        let s := if discard then
            (if bad ∨ f.failed then s else s.addFld Reg.MAC.RX_NO_DESC_COUNT m 1).ethDiscard r else s
        let x := s.ethRing r
        s.setEthRing r { x with next := f.next, done := x.done ++ [⟨ni, descs, f.next, discard⟩] }

/-- Stamp words 4–6 of a descriptor. -/
def stampWords (st : Nat) : List Word :=
  let sec := st / stampSecond
  let r := st % stampSecond
  [BitVec.ofNat 32 (r / 65536), BitVec.ofNat 32 (r % 65536 + sec % 65536 * 65536), BitVec.ofNat 32 (sec / 65536)]

/-! ## Pause (R348, R349) -/

def State.pause (s : State) (m k : Nat) : Pause := tget Pause.reset s.eth.pauses (9 * m + k)

/-- A pause state with what STATUS shows of it; `k` 0–7 priorities, 8 the link. -/
def State.setPause (s : State) (m k : Nat) (x : Pause) : State :=
  let s := { s with eth := { s.eth with pauses := tset Pause.reset s.eth.pauses (9 * m + k) x } }
  let w := s.reg 0x58 m 0x040
  let pb := if k = 8 then 3 else 8 + k
  s.setReg 0x58 m 0x040 (putField (putField w pb pb (b2n x.until_.isSome)) (16 + k) (16 + k) (b2n x.breakEnd.isSome))

/-- Speed of a MAC in Gbit/s. -/
def State.macGbps (s : State) (m : Nat) : Nat := [10, 25, 50, 100, 200, 400].getD (min 5 (s.fld Reg.MAC.CFG_SPEED m)) 400

/-- DEVCLK counts of a pause time of `q` quanta, rounded up. -/
def State.quantaTime (s : State) (m q : Nat) : Nat := (q * 512 + s.macGbps m * 10 - 1) / (s.macGbps m * 10)

/-- What has run out by now of a pause state: the break, and a pause that its watchdog has not ended. -/
def State.pauseNow (s : State) (m k : Nat) : Pause :=
  let x := s.pause m k
  let now := s.devclk.toNat
  let past (t : Option Nat) : Bool := t.any (fun n => decide (n ≤ now))
  let limit := min 10000 (max 1 (s.fld Reg.MAC.PAUSE_WD_LIMIT m)) * 10000
  let x := if past x.breakEnd then { x with breakEnd := none } else x
  if past x.until_ && x.until_.any (fun n => decide (n < x.since + limit)) then { x with until_ := none } else x

/-- The watchdog of a pause state (R349): past its limit the pause ends and a break begins. -/
def State.pauseWatch (s : State) (m k : Nat) : State :=
  let x := s.pauseNow m k
  let limit := min 10000 (max 1 (s.fld Reg.MAC.PAUSE_WD_LIMIT m)) * 10000
  if x.until_.isSome ∧ x.since + limit ≤ s.devclk.toNat then
    let s := s.setPause m k { x with until_ := none, breakEnd := some (s.devclk.toNat + max 1 (s.fld Reg.MAC.PAUSE_WD_BREAK m) * 10000) }
    (s.addFld Reg.MAC.WD_BREAKS_COUNT m 1).post 0x58 m 0x003 1 (if k = 8 then 0xFF else k)
  else s

/-- A pause time for one state: none during a break, which an expired limit begins first; 0 ends it; a later one replaces the
rest. -/
def State.pauseFor (s : State) (m k q : Nat) : State :=
  let s := s.pauseWatch m k
  let x := s.pauseNow m k
  if x.breakEnd.isSome then s.setPause m k x
  else if q = 0 then s.setPause m k { x with until_ := none }
  else
    let now := s.devclk.toNat
    s.setPause m k { x with until_ := some (now + s.quantaTime m q), since := if x.until_.isSome then x.since else now }

/-- A received MAC control frame (R348): counted, and obeyed where CFG says. -/
def State.macControl (s : State) (m : Nat) (l : List Byte) : State :=
  let op := beAt l 14 2
  if op = 0x0001 then
    let s := s.addFld Reg.MAC.RX_PAUSE_COUNT m 1
    if s.bit Reg.MAC.CFG_PAUSE_EN m then s.pauseFor m 8 (beAt l 16 2) else s
  else if op = 0x0101 then
    let s := s.addFld Reg.MAC.RX_PAUSE_COUNT m 1
    if s.bit Reg.MAC.CFG_PFC_EN m then
      (List.range 8).foldl (fun s p =>
        if bitOf (beAt l 16 2) p && bitOf (s.fld Reg.MAC.CFG_PFC_PRIO m) p then s.pauseFor m p (beAt l (18 + 2 * p) 2) else s) s
    else s
  else s

/-- Whether frames of a priority wait. -/
def State.paused (s : State) (m p : Nat) : Bool := (s.pause m 8).until_.isSome || (s.pause m p).until_.isSome

/-! ## Sending -/

def State.macSt (s : State) (m : Nat) : MacSt := tget MacSt.reset s.eth.macs m

def State.setMacSt (s : State) (m : Nat) (x : MacSt) : State :=
  { s with eth := { s.eth with macs := tset MacSt.reset s.eth.macs m x } }

/-- Station address of a MAC, most significant byte first. -/
def State.macAddr (s : State) (m : Nat) : List Byte := beBytes 6 (s.fld Reg.MAC.ADDR_LO_ADDR_LO m + 2 ^ 32 * s.fld Reg.MAC.ADDR_HI_ADDR_HI m)

/-- A frame padded to the shortest length, without FCS. -/
def padFrame (l : List Byte) : List Byte := l ++ List.replicate (60 - l.length) 0

/-- A PFC frame for one priority, or with PFC_EN = 0 an 802.3x pause frame, with a time, put on the wire (R350). -/
def State.sendPause (s : State) (m p q : Nat) : State :=
  let head := [0x01, 0x80, 0xC2, 0x00, 0x00, 0x01] ++ s.macAddr m ++ beBytes 2 0x8808
  let body := if s.bit Reg.MAC.CFG_PFC_EN m then
      beBytes 2 0x0101 ++ beBytes 2 (2 ^ p) ++ (List.range 8).flatMap (fun i => beBytes 2 (if i = p then q else 0))
    else beBytes 2 0x0001 ++ beBytes 2 q
  let f := padFrame (head ++ body)
  (s.setMacSt m { s.macSt m with sent := f ++ fcs f }).addFld Reg.MAC.PAUSE_SENT_COUNT m 1

/-- RX rings a priority's watch takes in (R350): all enabled ones with PFC_EN = 0. -/
def State.watched (s : State) (m p : Nat) : List Nat :=
  (List.range 256).filter (fun r => s.bit Reg.ETH_RING.CTL_EN r && (!s.bit Reg.MAC.CFG_PFC_EN m || s.fld Reg.ETH_RING.CTL_PRIO r == p))

/-- Free descriptors of an RX ring. -/
def State.freeDescs (s : State) (r : Nat) : Nat := s.ethAvail r (s.ethRing r).next

/-! ## Link and protection (R327, R351) -/

/-- Whether the mode lets lanes carry more than training (R54, R309): not in Raising or Banked. -/
def State.lanesOpen (s : State) : Bool := s.modes.mode != .raising && s.modes.mode != .banked

/-- Whether a MAC may send or receive: on, linked, not fenced. -/
def State.macUp (s : State) (m : Nat) : Bool :=
  s.bit Reg.MAC.CFG_EN m && s.bit Reg.MAC.STATUS_LINK_UP m && s.running 0x58 m && s.lanesOpen

/-- Whether a MAC's lanes let it reach link up: enabled, every lane in a ready Ethernet quad at the RATE, and none claimed by an
enabled MAC of a lower number. -/
def State.macCanLink (s : State) (m : Nat) : Bool :=
  let (f, n, r) := s.macLanes m
  s.bit Reg.MAC.CFG_EN m && s.running 0x58 m && s.lanesOpen && decide (f + n ≤ 48) && (n != 8 || f % 8 == 0) &&
  (List.range n).all (fun k =>
    let l := f + k
    s.quadProto (l / 4) == 0 && s.quadRate (l / 4) == r && s.quadReady (l / 4) && s.bit Reg.LANE.CTL_TX_EN l &&
    !(List.range m).any (fun h => s.bit Reg.MAC.CFG_EN h && s.macHasLane h l))

/-- ACTIVE of the pair held by MAC `h` moved (R351). -/
def State.macProtectSwitch (s : State) (h : Nat) (b : Bool) : State :=
  if s.bit Reg.MAC.PROTECT_ACTIVE h = b then s
  else
    let s := s.setFld Reg.MAC.PROTECT_ACTIVE h (b2n b)
    s.post 0x58 h 0x005 1 (if b then s.fld Reg.MAC.PROTECT_PROT h else s.fld Reg.MAC.PROTECT_WORK h)

/-- A MAC's link goes down: its active pairs move to the other member where that is up. -/
def State.macDown (s : State) (m : Nat) : State :=
  if s.bit Reg.MAC.STATUS_LINK_UP m then
    let s := (s.setFld Reg.MAC.STATUS_LINK_UP m 0).post 0x58 m 0x001 2 0
    (List.range 24).foldl (fun s h =>
      if s.bit Reg.MAC.PROTECT_EN h then
        let b := s.bit Reg.MAC.PROTECT_ACTIVE h
        let cur := if b then s.fld Reg.MAC.PROTECT_PROT h else s.fld Reg.MAC.PROTECT_WORK h
        let oth := if b then s.fld Reg.MAC.PROTECT_WORK h else s.fld Reg.MAC.PROTECT_PROT h
        if cur = m ∧ oth < 24 ∧ s.bit Reg.MAC.STATUS_LINK_UP oth then s.macProtectSwitch h (!b) else s
      else s) s
  else s

/-- A link whose MAC no longer meets R327 goes down. -/
def State.macsCheck (s : State) : State :=
  (List.range 24).foldl (fun s m => if s.bit Reg.MAC.STATUS_LINK_UP m ∧ !s.macCanLink m then s.macDown m else s) s

/-- A write of MAC.PROTECT, single instances only. -/
def State.macProtectWrite (s : State) (h : Nat) (v : Word) : State :=
  let b := wordField v 17 17 == 1
  (s.storeReg 0x58 h 0x024 (putField v 17 17 (s.fld Reg.MAC.PROTECT_ACTIVE h))).macProtectSwitch h b

/-- FLOW event LATE and ETH_RING event NO_DESC of the tally period that ends (R355). -/
def State.ethPeriod (s : State) : State :=
  let s := s.eth.late.foldl (fun s e => s.post 0x59 0 0x001 1 e) s
  let s := s.eth.rings.foldl (fun s r =>
    if 0 < r.2.discards then (s.post 0x5A r.1 0x001 1 r.2.discards).setEthRing r.1 { s.ethRing r.1 with discards := 0 } else s) s
  { s with eth := { s.eth with late := [] } }

end Sys2Proof.Machine
end

