-- ==== Sys2Proof/Machine/FenceOps.lean ====
section
/-! DEFINITION. How a unit's fence goes forward (R171, R254–R257, R389–R397, R414): waiting for running work, draining, drained, off. -/
namespace Sys2Proof.Machine

def State.eng (s : State) (u : Nat) : Engine := tget Engine.reset s.engines.eng u

def State.setEng (s : State) (u : Nat) (e : Engine) : State :=
  { s with engines := { eng := tset Engine.reset s.engines.eng u e } }

/-- A field of the engine block in the class of engine `u`. -/
def engField (u : Nat) (f : Field) : Field := { f with cls := (unitOf u).1 }

def State.setE (s : State) (u : Nat) (f : Field) (v : Nat) : State := s.setFld (engField u f) (unitOf u).2 v
def State.getE (s : State) (u : Nat) (f : Field) : Nat := s.fld (engField u f) (unitOf u).2
def State.addE (s : State) (u : Nat) (f : Field) (n : Nat) : State := s.addFld (engField u f) (unitOf u).2 n

/-- The teller and job slots of a unit: a Course's cores, or the engine. -/
def slotsOf (cls inst : Nat) : List Nat :=
  if cls = 0x10 then (List.range 8).map (8 * inst + ·) else if 0x18 ≤ cls ∧ cls ≤ 0x1C then [unitIndex cls inst] else []

/-- Whether work of a unit still runs. -/
def State.unitBusy (s : State) (cls inst : Nat) : Bool := (slotsOf cls inst).any (fun u => (s.runningOn u).isSome)

def State.setPhase (s : State) (cls inst : Nat) (p : FencePhase) : State :=
  match s.fenceOf cls inst with
  | some f => s.setFence { f with phase := p }
  | none => s

/-- Abandoned tasks reported with cause UNIT (R389 step 4, R390), but those whose report is already on its way. -/
def State.abandon (s : State) (u : Nat) : State :=
  (s.takenBy u).foldl (fun s i => if tget 0 s.disp.reports i = 0 then s.complete i .unit else s) s

/-- The recoveries of faults in a unit's parts end (R387 codes 3 and 4). -/
def State.endUnitRecoveries (s : State) (cls inst : Nat) : State :=
  let mine (r : Recovery) : Bool :=
    (r.code == 3 && cls == 0x10 && (r.cls == 0x11 && r.inst / 8 == inst || r.cls == 0x12 && r.inst == inst)) ||
    (r.code == 4 && r.cls == cls && r.inst == inst)
  (s.faults.recoveries.filter mine).foldl (fun s r => s.recovered r) s

/-- DRAINED reached by a unit's fence: abandoned work is reported, its recovery ends, and the domain may go off. -/
def State.unitDrained (s : State) (cls inst : Nat) : State :=
  match s.fenceOf cls inst with
  | some f =>
    if f.phase = .draining then
      let s := (slotsOf cls inst).foldl State.abandon (s.setPhase cls inst .drained)
      s.endUnitRecoveries cls inst
    else s
  | none => s

/-- A port has reached DRAINED: the fence of its unit goes on (R255 step 5). -/
def State.portDrained (s : State) (d : Nat) : State :=
  s.fences.foldl (fun s f => if unitDest f.cls f.inst = some d then s.unitDrained f.cls f.inst else s) s

/-- An engine stopped: its job and its reset are forgotten, its job reported with cause UNIT. -/
def State.stopEngine (s : State) (cls inst : Nat) : State :=
  let u := unitIndex cls inst
  let e := s.eng u
  let s := (s.setEng u { e with job := none, hung := none }).setE u Reg.LDPC_DEC.STATUS_STATE 0
  s.abandon u

/-- The fence of a unit begins to stop it: a Course, bank or channel drains at its Mortar port; an engine is fenced, and its CODE
domain goes off with its last engine; a quad or MAC stops its links. `req` is the requester of R254. -/
def State.beginDrain (s : State) (cls inst req : Nat) : State :=
  let s := (slotsOf cls inst).foldl State.reclaimAll s
  match unitDest cls inst with
  | some d =>
    let s := (s.setPhase cls inst .draining).setFld Reg.PWR.STATUS_STATE ((fenceDomain cls inst).getD 0) 6
    let s := s.askFence req d
    if (s.port d).drained then s.unitDrained cls inst else s
  | none =>
    if 0x18 ≤ cls ∧ cls ≤ 0x1C then
      let s := (s.setPhase cls inst .draining).stopEngine cls inst
      let s := (s.setPhase cls inst .done).endUnitRecoveries cls inst
      let d := codeDomain cls inst
      if s.codeAllFenced d then
        let mates := s.fences.filter (fun f => 0x18 ≤ f.cls && f.cls ≤ 0x1C && codeDomain f.cls f.inst == d)
        (mates.foldl (fun s f => s.setPhase f.cls f.inst .drained) s).setFld Reg.PWR.STATUS_STATE (28 + d) 6
      else s
    else if cls = 0x50 then
      let s := (s.setPhase cls inst .drained).setFld Reg.PWR.STATUS_STATE (49 + inst) 6
      let s := (List.range 4).foldl (fun s k =>
        ((s.setTxState (4 * inst + k) 0).rxDown (4 * inst + k)).setFld Reg.LANE.STATUS_CDR_LOCK (4 * inst + k) 0) s
      (List.range 24).foldl (fun s m => if s.macCanLink m then s else s.macDown m) s
    else (s.setPhase cls inst .done).macDown inst

/-- A commanded fence accepted (R396, R171): the unit takes no new work; running work may end first. A unit fenced already keeps its
sequence. -/
def State.startFence (s : State) (cls inst : Nat) : State :=
  match s.fenceOf cls inst with
  | some _ => s
  | none =>
    let s := s.addFence cls inst .command .waiting
    let s := (slotsOf cls inst).foldl State.reclaimAll s
    let s := if s.unitBusy cls inst then s else s.beginDrain cls inst 1
    s.askMending 4

/-- The fault manager fences a unit (R389, R390): at once, or as the cause of the sequence already under way (R397); one that meets
a power-up lets it complete and then goes down again (R415). It fences nothing once held by R394. -/
def State.autoFence (s : State) (cls inst : Nat) : State :=
  if s.faults.held then s
  else
    match s.fenceOf cls inst with
    | some f =>
      let s := s.addFence cls inst .auto f.phase
      (match f.phase with
        | .waiting => s.beginDrain cls inst 0
        | .powerQueued | .powering | .refilled => s.setFence { f with origin := .auto, faultMet := true }
        | _ => s).askMending 5
    | none =>
      let s := s.addFence cls inst .auto .waiting
      (s.beginDrain cls inst 0).askMending 5

/-- Fences that waited for running work and find none go on. -/
def State.settleFences (s : State) : State :=
  s.fences.foldl (fun s f => if f.phase = .waiting ∧ !s.unitBusy f.cls f.inst then s.beginDrain f.cls f.inst 1 else s) s

/-! ## Requests for a mode (R56–R58, R65) -/

/-- A transition accepted: the transmit quiet may end with it (R57), and on the way into Banked the slots give their entries back
(R65). -/
def State.beginMode (s : State) (to_ : Mode) (req : Nat) (op : Option (BitVec 16)) : State :=
  let t := s.startTransition to_ req op
  let t := if s.quietMode && !t.quietMode then { t with time := { t.time with quietEnd := t.disp.dlclk } } else t
  if to_ = .banked then (List.range 232).foldl State.reclaimAll t else t

end Sys2Proof.Machine
end

