-- ==== Sys2Proof/Machine/Dispatcher.lean ====
section
/-! DEFINITION. The commands of the dispatcher, keystones and teller slots (R175-R196). -/
namespace Sys2Proof.Machine

/-! ## Posting (R176-R178) -/

/-- Modes in which POST writes count: Service, Witness, Thrift, Mending (R177). -/
def State.postMode (s : State) : Bool :=
  s.modes.mode == .service || s.modes.mode == .witness || s.modes.mode == .thrift || s.modes.mode == .mending

/-- Whether a descriptor's address lies in Treasury or a Course store (R176). -/
def State.descriptorPlace (s : State) (a : Nat) : Bool :=
  match s.region a with
  | .treasury _ => true
  | .course _ => true
  | _ => false

def State.setPosts (s : State) (r : Nat) (l : List HeldPost) : State :=
  { s with disp := { s.disp with held := tset [] s.disp.held r l } }

/-- A POST write reaches the post port with address bits [31:6] (R176); it stands there, behind its requester's earlier ones, until
it is granted. -/
def State.postWrite (s : State) (req queue : Nat) (v : Word) : State :=
  if s.postMode then
    let s' := s.setPosts req (s.posts req ++ [⟨queue, v.toNat % 2 ^ 26 * 64, s.disp.heldOrder, false, none⟩])
    { s' with disp := { s'.disp with heldOrder := s.disp.heldOrder + 1 } }
  else s

/-- DQUEUE_POST (R176). -/
def execDqueuePost (req : Fin 14) (queue : Fin 256) (value : Word) (s : State) : Host.Outcome State Fault Refusal :=
  .next (s.postWrite req queue value)

/-- Words of bytes, little-endian. -/
def bytesToWords (n : Nat) (l : List Byte) : List Word :=
  (List.range n).map (fun i => BitVec.ofNat 32 (leNat ((l.drop (4 * i)).take 4)))

/-- Reads of POST that stand before a requester's next post are answered. -/
def State.answerReads (s : State) (r : Nat) : State :=
  let l := s.posts r
  let rest := l.dropWhile (·.read)
  if rest.length < l.length then (s.setPosts r rest).giveBack r (BitVec.ofNat 32 (tget 0 s.disp.lastIndex r)) else s

/-- A rejected post (R176, R196): its write completes with DECODE_ERROR, a bus error for a DMA channel (R18). -/
def State.rejectPost (s : State) (r : Nat) (h : HeldPost) : State :=
  let s := s.post 0x20 0 0x003 2 r
  match h.chan with
  | some c =>
    let x := s.dch c
    (s.setDch c { x with outs := x.outs.dropLast }).dmaErr c 1 (0x80000000 + 0x21 * 2 ^ 20 + h.queue * 2 ^ 10 + 0x200)
      BusStatus.decodeError.code
  | none => s

/-- A granted post (R176): its descriptor read from NI 62; accepted, or rejected when it lies elsewhere or its read fails. -/
def State.grantPost (s : State) (r : Nat) (h : HeldPost) : State :=
  let s' := s.setPosts r ((s.posts r).drop 1)
  let s := { s' with disp := { s'.disp with lastPost := r } }
  let s :=
    if s.descriptorPlace h.addr then
      let (st, bytes, s) := s.busRead 62 2 h.addr 64
      let s := s.took 0x20 0 h.addr bytes
      if st = .ok ∧ !bytes.any (·.2) then
        let (i, s) := s.accept h.queue (bytesToWords 16 (bytes.map (·.1))) s.secTc
        { s with disp := { s.disp with lastIndex := tset 0 s.disp.lastIndex r i } }
      else s.rejectPost r h
    else s.rejectPost r h
  s.answerReads r

/-- The post that a requester has first at the post port. -/
def State.firstPost (s : State) (r : Nat) : Option HeldPost := (s.posts r).head?

/-- Whether a requester's first post has room (R177). -/
def State.postAsks (s : State) (r : Nat) : Bool := match s.firstPost r with
  | some h => s.postRoom h.queue
  | none => false

/-- POST_READ (R176): the index accepted last from the same requester, whatever the queue; behind a post of its requester it
waits. -/
def execPostRead (req : Fin 14) (queue : Fin 256) (s : State) : Host.Outcome State Fault Refusal :=
  if (s.posts req).isEmpty then .next (s.giveBack req (BitVec.ofNat 32 (tget 0 s.disp.lastIndex req)))
  else .next (s.setPosts req (s.posts req ++ [⟨queue, 0, s.disp.heldOrder, true, none⟩]))

/-! ## Keystones (R180, R181) -/

/-- A write of KEYSTONE.SET_COUNT. -/
def State.keySetCount (s : State) (block : Nat) (v : Word) : State :=
  s.setCount (block * 256 + wordField v 7 0) (wordField v 19 8) (wordField v 20 20 == 1)

def execKeystoneSetCount (req : Fin 14) (block : Fin 32) (value : Word) (s : State) : Host.Outcome State Fault Refusal :=
  .next (s.hubEach req 0x22 block 0x300 (fun s b => s.keySetCount b value))

def execKeystoneSetReload (req : Fin 14) (block : Fin 32) (value : Word) (s : State) : Host.Outcome State Fault Refusal :=
  .next (s.hubEach req 0x22 block 0x304 (fun s b => s.setReload (b * 256 + wordField value 7 0) (wordField value 19 8)))

/-- A write of KEYSTONE.DEC at the post port. -/
def State.keyDecWrite (s : State) (req block : Nat) (v : Word) : State :=
  s.hubEach req 0x22 block 0x308 (fun s b => s.decKey (b * 256 + wordField v 7 0) (wordField v 8 8 == 1))

def execKeystoneDec (req : Fin 14) (block : Fin 32) (value : Word) (s : State) : Host.Outcome State Fault Refusal :=
  .next (s.keyDecWrite req block value)

/-! ## Placement, reclaim, completion -/

/-- TELLER_FILL (R184): the next unit that asks is granted and its best candidate placed. -/
def execTellerFill (s : State) : Host.Outcome State Fault Refusal :=
  match rrPick 232 s.disp.lastFill s.asksFill with
  | none => .next s
  | some u =>
    let s := { s with disp := { s.disp with lastFill := u } }
    match s.candidate u with
    | some (i, t) => .next (s.place u i t)
    | none => .next s

/-- SLOT_AGE_RECLAIM (R188): entries older than SLOT_AGE µs of a unit that runs another task. -/
def execSlotAgeReclaim (unit : Fin 232) (s : State) : Host.Outcome State Fault Refusal :=
  let age := s.fld Reg.DISP.CTL_SLOT_AGE 0
  if 0 < age ∧ (s.runningOn unit).isSome then
    .next ((s.slot unit).foldl (fun s i =>
      match s.task i with
      | some t => if age * 100 < s.devclk.toNat - t.placedAt then s.reclaim unit i else s
      | none => s) s)
  else .next s

/-- TASK_COMPLETION (R189): the report of a task that ran, with its cause, reaches the dispatcher. A HANG's recovery ends with it (R387), and a fence
that waited for it goes on (R396). -/
def execTaskCompletion (index : BitVec 14) (cause : BitVec 4) (s : State) : Host.Outcome State Fault Refusal :=
  let i := index.toNat
  if tget 0 s.disp.reports i ≠ cause.toNat + 1 then .next s
  else
    let s := { s with disp := { s.disp with reports := tset 0 s.disp.reports i 0 } }
    let hung := match s.task i with
      | some t => if Cause.ofCode cause.toNat = .hang ∧ t.unit < 192 then some t.unit else none
      | none => none
    let s := s.complete i (Cause.ofCode cause.toNat)
    let s := match hung with
      | some u => s.endRecovery 2 0x11 u
      | none => s
    .next s.settleFences

/-- A write of DISP.CANCEL (R192), in the modes it is accepted. -/
def State.cancelWrite (s : State) (req : Nat) (v : Word) : State :=
  if s.postMode then
    let i := wordField v 13 0
    let note (s : State) (n : Nat) : State := { s with disp := { s.disp with cancelResult := tset 0 s.disp.cancelResult req n } }
    match s.task i with
    | some t => if t.st = .waiting ∨ t.st = .ready then (note s 1).drop i t .cancel else note s 2
    | none => note s 2
  else s

def execDispCancel (req : Fin 14) (value : Word) (s : State) : Host.Outcome State Fault Refusal :=
  .next (s.cancelWrite req value)

/-! ## Clears -/

def State.dqueueClear (s : State) (q : Nat) (v : Word) : State :=
  let s := if wordField v 0 0 = 1 then (s.setReg 0x21 q 0x024 0) else s
  if wordField v 1 1 = 1 then (List.range 8).foldl (fun s b => s.setReg 0x21 q (0x040 + 4 * b) 0) s else s

def execDqueueClrMax (req : Fin 14) (sel : BitVec 10) (s : State) : Host.Outcome State Fault Refusal :=
  .next (s.hubEach req 0x21 sel.toNat 0x03C (fun s q => s.dqueueClear q 1))

def execDqueueClrHist (req : Fin 14) (sel : BitVec 10) (s : State) : Host.Outcome State Fault Refusal :=
  .next (s.hubEach req 0x21 sel.toNat 0x03C (fun s q => s.dqueueClear q 2))

def State.tellerClear (s : State) (c : Nat) (v : Word) : State :=
  if wordField v 1 1 = 1 then (List.range 8).foldl (fun s b => s.setReg 0x23 c (0x040 + 4 * b) 0) s else s

def execTellerClrHist (req : Fin 14) (sel : BitVec 10) (s : State) : Host.Outcome State Fault Refusal :=
  .next (s.hubEach req 0x23 sel.toNat 0x018 (fun s c => s.tellerClear c 2))

end Sys2Proof.Machine
end

