-- ==== Sys2Proof/Machine/Engines.lean ====
section
/-! DEFINITION. The coding engines' jobs (R144-R174): one meaning per job type over shared operations, their end, the watchdog and
the microcode banks. A job row takes the head entry of the engine's slot, reads everything, writes its outputs and
leaves its status record to JOB_END. -/
namespace Sys2Proof.Machine

def State.engPost (s : State) (u event sev detail : Nat) : State := s.post (unitOf u).1 (unitOf u).2 event sev detail

/-! ## Accesses (R142, R146) -/

/-- The NI of an engine's CODE domain. -/
def engNi (u : Nat) : Nat := 24 + codeDomain (unitOf u).1 (unitOf u).2

/-- Whether an address lies in Treasury, a Course store or installed bulk memory. -/
def State.engMay (s : State) (a : Nat) : Bool := match s.region a with
  | .treasury _ | .course _ | .bulk _ _ => true
  | _ => false

/-- An access of an engine's job begins: none more once its watchdog expires (R170). -/
def State.engBeat (s : State) (u : Nat) : Bool × State :=
  let e := s.eng u
  match e.left with
  | none => (true, s)
  | some 0 => (false, s)
  | some (n + 1) => (true, s.setEng u { e with left := some n })

/-- A read by an engine, which stops at the first access that completes with an error (R146). -/
def State.engGet (s : State) (u a n : Nat) : Bool × List (Byte × Bool) × State :=
  (lines a (n / 256 + 2) (List.replicate n ())).foldl (fun acc p =>
    if acc.1 then
      let (go, s) := acc.2.2.engBeat u
      if go then
        let (st, l, s) := s.busRead (engNi u) 0 p.1 p.2.length
        (st == .ok, acc.2.1 ++ l, s.took (unitOf u).1 (unitOf u).2 p.1 l)
      else (false, acc.2.1, s)
    else acc) (true, [], s)

/-- A write by an engine, which stops at the first access that completes with an error. -/
def State.engPut (s : State) (u a : Nat) (bytes : List (Byte × Bool)) : Bool × State :=
  (lines a (bytes.length / 256 + 2) bytes).foldl (fun acc p =>
    if acc.1 then
      let (go, s) := acc.2.engBeat u
      if go then
        let (st, s) := s.busWrite (engNi u) 0 p.1 p.2
        (st == .ok, s)
      else (false, s)
    else acc) (true, s)

/-! ## Results -/

/-- What a job ends with: the fields of its status record (R148), whether it names a CRC, erased poisoned input, or is an encoding
or CRC job, and its activity for the ledger as events of R169 with their counts (R147). -/
structure JobRes where
  st : Option Nat := none
  crcOk : Bool := false
  synd : Bool := false
  poison : Bool := false
  addr : Bool := false
  memerr : Bool := false
  type : Bool := false
  capped : Bool := false
  iters : Nat := 0
  limit : Nat := 0
  tag : Word := 0
  quality : Nat := 0
  result : Nat := 0
  named : Bool := false
  erased : Bool := false
  encoder : Bool := false
  acts : List (Nat × Nat) := []

def JobRes.failed (r : JobRes) : Bool := r.addr || r.memerr || r.type || (r.encoder && r.poison)

/-- The status record but for CYCLES. -/
def JobRes.words (r : JobRes) : List Word :=
  [BitVec.ofNat 32 (1 + 2 * b2n r.crcOk + 4 * b2n r.synd + 8 * b2n r.poison + 16 * b2n r.addr + 32 * b2n r.memerr +
    64 * b2n r.type + 128 * b2n r.capped + r.iters % 64 * 2 ^ 8 + 2 ^ 14 * (r.limit % 64)), r.tag,
   BitVec.ofNat 32 (2 ^ 16 * min 65535 r.quality), BitVec.ofNat 32 (min allOnes32 r.result)]

/-- A 40-bit address in descriptor words `i` and `i + 1`, bits [3:0] taken as 0. -/
def jobAddr (w : List Word) (i : Nat) : Nat := wordField (w.getD i 0) 31 4 * 16 + 2 ^ 32 * wordField (w.getD (i + 1) 0) 7 0

def jobFld (w : List Word) (i msb lsb : Nat) : Nat := wordField (w.getD i 0) msb lsb

/-- Whether the engine may take the head entry of its slot (R144). -/
def State.engMayTake (s : State) (u : Nat) : Bool :=
  let e := s.eng u
  s.running (unitOf u).1 (unitOf u).2 && e.job.isNone && e.hung.isNone && !e.loaded && s.getE u Reg.LDPC_DEC.CTL_TAKE_EN == 1 &&
  !s.fenceAsked (unitOf u).1 (unitOf u).2

/-- The job-type code of the head entry of a slot. -/
def State.headJob (s : State) (u : Nat) : Option Nat :=
  match s.slot u with
  | [] => none
  | i :: _ => (s.task i).map (fun t => t.target.toNat % 256)

/-- The results of a job left to JOB_END, and its activity counted. -/
def State.engKeep (s : State) (u i : Nat) (r : JobRes) : State :=
  let s := r.acts.foldl (fun s x => s.countAct u i x.1 x.2) s
  let e := s.eng u
  s.setEng u { e with job := some ⟨i, r.words, r.st, r.failed, r.named && !r.crcOk, r.erased⟩ }

/-- The head entry taken and its 64-byte descriptor read: `f` runs the job on its words with the entry's allowance. A poisoned
descriptor word reads as zero (R292). An unmapped argument pointer gives ADDR (R195); there, and where the descriptor cannot be
read, no status address is known. The task's index, and what its job ends with. -/
def State.beginJob (s : State) (u : Nat) (f : List Word → Nat → State → JobRes × State) : Option (Nat × JobRes × State) :=
  match s.startHead u with
  | none => none
  | some (i, t, s) =>
    let s := (s.setE u Reg.LDPC_DEC.STATUS_STATE 1).setE u Reg.LDPC_DEC.STATUS_TASK i
    let s := s.countEvent (unitOf u).1 (unitOf u).2 0x010 1
    if s.region (t.arg.toNat / 64 * 64) = .unmapped then some (i, { addr := true }, s)
    else
      let (ok, bytes, s) := s.engGet u (t.arg.toNat / 64 * 64) 64
      if ok then
        let bs := bytes.map (fun b => if b.2 then (0 : Byte) else b.1)
        let w := (List.range 16).map (fun j => BitVec.ofNat 32 (leNat ((bs.drop (4 * j)).take 4)))
        some (i, f w t.allowance s)
      else some (i, { memerr := true }, s)

/-- A job runs up to its status record, which JOB_END writes. -/
def State.takeJob (s : State) (u : Nat) (f : List Word → Nat → State → JobRes × State) : State :=
  match s.beginJob u f with
  | none => s
  | some (i, r, s) => s.engKeep u i r

/-- A job row of engine `u` for job type `type`. -/
def State.jobRow (s : State) (u type : Nat) (f : List Word → Nat → State → JobRes × State) : State :=
  if s.engMayTake u ∧ s.headJob u = some type then s.takeJob u f else s

/-- A job whose descriptor addresses are checked first (R146): if one fails only the record is written, with ADDR. -/
def State.checked (s : State) (st : Nat) (tag : Word) (addrs : List Nat) (f : State → JobRes × State) : JobRes × State :=
  if s.engMay st ∧ addrs.all s.engMay then
    let (r, s) := f s
    ({ r with st := some st, tag := tag }, s)
  else ({ st := if s.engMay st then some st else none, tag := tag, addr := true }, s)

/-- LIMIT of R149. -/
def iterLimit (cap allowance : Nat) : Nat := min (max 1 cap) (max 1 allowance)

/-- LLRs of int8 input: a poisoned byte is an erasure (R155). -/
def llrs (l : List (Byte × Bool)) : List Int := l.map (fun b => if b.2 then 0 else llr8 b.1)

/-- LLRs of a stored 4-bit half (R157, R159). -/
def halfLlrs (l : List (Byte × Bool)) : List Int := l.flatMap (fun b =>
  if b.2 then [0, 0] else [harqDecompress (b.1.toNat % 16), harqDecompress (b.1.toNat / 16)])

/-- Input bits, packed as in R154. -/
def bitsIn (n : Nat) (l : List (Byte × Bool)) : List Bool := (unpackBits (l.map (·.1))).take n

/-! ## Decoders -/

/-- LDPC_DECODE (R151-R154). -/
def State.ldpcDecode (u : Nat) (w : List Word) (allow : Nat) (s : State) : JobRes × State :=
  s.checked (jobAddr w 6) (w.getD 8 0) [jobAddr w 2, jobAddr w 4] (fun s =>
    let c : Ldpc := ⟨jobFld w 0 1 1 == 1, zcOf (jobFld w 0 7 2)⟩
    let ncb := if jobFld w 1 15 0 = 0 then c.N else jobFld w 1 15 0
    let F := min (jobFld w 1 31 16) c.K
    let half := jobFld w 0 0 0 == 1
    let (ok, bytes, s) := s.engGet u (jobAddr w 2) (if half then (ncb + 1) / 2 else ncb)
    let cap := max 1 (jobFld w 0 13 8)
    let limit := iterLimit cap allow
    if !ok then ({ memerr := true, poison := bytes.any (·.2), limit := limit }, s)
    else
      let ll := (if half then halfLlrs bytes else llrs bytes).toArray
      let llr (p : Nat) : Int := ll.getD p 0
      let scale := if jobFld w 0 24 21 = 0 then 8 else jobFld w 0 24 21
      let m : LdpcMem := ⟨c.load F ncb llr, Array.replicate (c.layers * c.zc * 68) 0⟩
      let (n, synd, m) := c.iterate (jobFld w 0 20 17) scale (jobFld w 0 14 14 == 1) limit 0 m
      let out := (List.range (c.K - F)).map (fun v => decide (m.q.getD v 0 < 0))
      let crc := jobFld w 0 16 15
      let (wok, s) := s.engPut u (jobAddr w 4) (clean (packOut out))
      let poison := bytes.any (·.2)
      let early := synd && jobFld w 0 14 14 == 1
      ({ crcOk := crc != 0 && crcPasses (namedCrc crc) out, synd := synd, poison := poison, memerr := !wok,
         capped := decide (limit < cap) && decide (n = limit) && !early, iters := n, limit := limit,
         quality := c.quality F ncb llr m.q, named := crc != 0, erased := poison, acts := [(1, (c.K - F) * n), (2, ncb)] }, s))

def execLdpcDecode (engine : Fin 16) (s : State) : Host.Outcome State Fault Refusal :=
  .next (s.jobRow (192 + engine) 0x01 (State.ldpcDecode (192 + engine)))

/-- TURBO_DECODE (R166). -/
def State.turboDecode (u : Nat) (w : List Word) (allow : Nat) (s : State) : JobRes × State :=
  s.checked (jobAddr w 6) (w.getD 8 0) [jobAddr w 2, jobAddr w 4] (fun s =>
    let kidx := min 187 (jobFld w 0 7 0)
    let K := turboK kidx
    let F := jobFld w 1 15 0
    let S := 16 * ((K + 4 + 15) / 16)
    let (ok, bytes, s) := s.engGet u (jobAddr w 2) (2 * S + K + 4)
    let cap := max 1 (jobFld w 0 11 8)
    let limit := iterLimit cap allow
    if !ok then ({ memerr := true, poison := bytes.any (·.2), limit := limit }, s)
    else
      let ll := (llrs bytes).toArray
      let arr (i : Nat) : Array Int := ((List.range (K + 4)).map (fun k => ll.getD (i * S + k) 0)).toArray
      let crc := let n := jobFld w 0 14 13; if n = 3 then 0 else n
      let hard (post : List Int) : List Bool := (post.map (fun x => decide (x < 0))).drop F
      let passes (post : List Int) : Bool := crc != 0 && crcPasses (namedCrc crc) (hard post)
      let et := jobFld w 0 12 12 == 1
      let (n, post) := turboRun kidx F ⟨arr 0, arr 1, arr 2⟩ (fun p => et && passes p) limit 0 (Array.replicate K 0)
      let (wok, s) := s.engPut u (jobAddr w 4) (clean (packOut (hard post)))
      let poison := bytes.any (·.2)
      ({ crcOk := passes post, poison := poison, memerr := !wok,
         capped := decide (limit < cap) && decide (n = limit) && !(et && passes post), iters := n, limit := limit,
         named := crc != 0, erased := poison, acts := [(5, (K - F) * n)] }, s))

def execTurboDecode (engine : Fin 4) (s : State) : Host.Outcome State Fault Refusal :=
  .next (s.jobRow (220 + engine) 0x06 (State.turboDecode (220 + engine)))

/-- Payload and CRC bits of a decoded path: the information bits of u, with the input interleaver undone. -/
def polarBits (p : Polar) (K : Nat) (kinds : List Nat) (u : List Bool) : List Bool :=
  let c' := ((u.zip kinds).filter (fun x => x.2 == 1)).map (·.1)
  let src := polarInput p.inputIl K
  ((src.zip c').foldl (fun (r : Array Bool) x => r.setIfInBounds x.1 x.2) (Array.replicate K false)).toList

/-- POLAR_DECODE (R165): the best-metric path whose CRC passes, else the best-metric path. -/
def State.polarDecode (u : Nat) (w : List Word) (_allow : Nat) (s : State) : JobRes × State :=
  s.checked (jobAddr w 6) (w.getD 8 0) [jobAddr w 2, jobAddr w 4] (fun s =>
    let scheme := jobFld w 0 1 0
    let A := jobFld w 1 10 0
    let E := jobFld w 1 31 16
    let p := polarScheme scheme A
    let K := A + p.len
    let N := 2 ^ polarLog K E p.nmax
    let (nPc, nWm) := polarPc p K E
    let (ok, bytes, s) := s.engGet u (jobAddr w 2) E
    if !ok then ({ memerr := true, poison := bytes.any (·.2) }, s)
    else
      let kinds := polarKinds p.subIl K E N nPc nWm
      let paths := polarList (2 ^ jobFld w 0 3 2) (polarRecover p K E N (llrs bytes)) kinds
      let seen := paths.map (fun x =>
        let b := polarBits p K kinds x.1
        (b.take A, x.2, p.crc.isSome && polarCrc scheme (jobFld w 0 31 16) p (b.take A) == b.drop A))
      let best (l : List (List Bool × Nat × Bool)) : Option (List Bool × Nat × Bool) :=
        l.foldl (fun b x => match b with
          | none => some x
          | some y => if x.2.1 < y.2.1 then some x else some y) none
      let pick := match best (seen.filter (·.2.2)) with
        | some x => some x
        | none => best seen
      let (out, metric, good) := pick.getD ([], 0, false)
      let (wok, s) := s.engPut u (jobAddr w 4) (clean (packOut out))
      let poison := bytes.any (·.2)
      ({ crcOk := good, poison := poison, memerr := !wok, result := metric, named := p.crc.isSome, erased := poison,
         acts := [(6, N * polarLog K E p.nmax * 2 ^ jobFld w 0 3 2)] }, s))

def execPolarDecode (engine : Fin 4) (s : State) : Host.Outcome State Fault Refusal :=
  .next (s.jobRow (216 + engine) 0x04 (State.polarDecode (216 + engine)))

/-! ## Encoders and CRC -/

/-- Output of an encoder: poison on every word where an input word was (R163). -/
def encOut (poison : Bool) (bs : List Bool) : List (Byte × Bool) := (packOut bs).map (fun b => (b, poison))

/-- The CRC appended to input bits: 0 none, else as R151. -/
def addCrc (n : Nat) (bs : List Bool) : List Bool :=
  if n = 0 then bs else bs ++ bitsMsb (namedCrc n).1 (crcOf (namedCrc n) bs)

def crcLen (n : Nat) : Nat := if n = 0 then 0 else (namedCrc n).1

/-- LDPC_ENCODE (R163). Buffer positions beyond N, which NCB above N reaches, hold bits the spec does not give: free values. -/
def State.ldpcEncode (u : Nat) (w : List Word) (_allow : Nat) (s : State) : JobRes × State :=
  s.checked (jobAddr w 8) (w.getD 10 0) [jobAddr w 4, jobAddr w 6] (fun s =>
    let c : Ldpc := ⟨jobFld w 0 1 1 == 1, zcOf (jobFld w 0 7 2)⟩
    let ncb := if jobFld w 1 15 0 = 0 then c.N else jobFld w 1 15 0
    let F := min (jobFld w 1 31 16) c.K
    let qm := max 1 (jobFld w 0 13 10)
    let crc := jobFld w 0 15 14
    let len := c.K - F - crcLen crc
    let (ok, bytes, s) := s.engGet u (jobAddr w 4) ((len + 7) / 8)
    if !ok then ({ memerr := true, encoder := true }, s)
    else
      let info := addCrc crc (bitsIn len bytes)
      let d := (c.encode info.toArray).toArray
      let seed := s.free
      let bit (p : Nat) : Bool :=
        if p < c.N then d.getD (p + 2 * c.zc) false else Config.freeBits seed p % 2 == 1
      let e := (walkBuffer ncb (c.fillerPos F) (c.k0 ncb (jobFld w 0 9 8)) (jobFld w 2 23 0)).map bit
      let s := { s with free := s.free + 1 }
      let poison := bytes.any (·.2)
      let (wok, s) := s.engPut u (jobAddr w 6) (encOut poison (interleave false qm e))
      ({ poison := poison, memerr := !wok, encoder := true, acts := [(4, e.length)] }, s))

def execLdpcEncode (engine : Fin 8) (s : State) : Host.Outcome State Fault Refusal :=
  .next (s.jobRow (208 + engine) 0x02 (State.ldpcEncode (208 + engine)))

/-- TURBO_ENCODE (R167). -/
def State.turboEncodeJob (u : Nat) (w : List Word) (_allow : Nat) (s : State) : JobRes × State :=
  s.checked (jobAddr w 8) (w.getD 10 0) [jobAddr w 4, jobAddr w 6] (fun s =>
    let kidx := min 187 (jobFld w 0 7 0)
    let K := turboK kidx
    let F := jobFld w 1 31 0
    let crc := jobFld w 0 15 14
    let len := K - F - crcLen crc
    let (ok, bytes, s) := s.engGet u (jobAddr w 4) ((len + 7) / 8)
    if !ok then ({ memerr := true, encoder := true }, s)
    else
      let info := addCrc crc (bitsIn len bytes)
      let c := (List.replicate (min F K) false ++ info).toArray
      let (d0, d1, d2) := turboEncode kidx c
      let da := [d0.toArray, d1.toArray, d2.toArray]
      let kw := 96 * turboRows K
      let ncb := if jobFld w 3 15 0 = 0 then kw else jobFld w 3 15 0
      let seed := s.free
      let bit (p : Nat) : Bool :=
        if p < kw then
          match turboPos K p with
          | some (a, i) => (da.getD a #[]).getD i false
          | none => false
        else Config.freeBits seed p % 2 == 1
      let e := (walkBuffer ncb (turboNull K F) (turboK0 K ncb (jobFld w 0 17 16) % max 1 ncb) (jobFld w 2 23 0)).map bit
      let s := { s with free := s.free + 1 }
      let poison := bytes.any (·.2)
      let (wok, s) := s.engPut u (jobAddr w 6) (encOut poison e)
      ({ poison := poison, memerr := !wok, encoder := true, acts := [(4, e.length)] }, s))

def execTurboEncode (engine : Fin 4) (s : State) : Host.Outcome State Fault Refusal :=
  .next (s.jobRow (220 + engine) 0x07 (State.turboEncodeJob (220 + engine)))

/-- POLAR_ENCODE (R165). -/
def State.polarEncode (u : Nat) (w : List Word) (_allow : Nat) (s : State) : JobRes × State :=
  s.checked (jobAddr w 6) (w.getD 8 0) [jobAddr w 2, jobAddr w 4] (fun s =>
    let scheme := jobFld w 0 1 0
    let A := jobFld w 1 10 0
    let E := jobFld w 1 31 16
    let p := polarScheme scheme A
    let K := A + p.len
    let n := polarLog K E p.nmax
    let (nPc, nWm) := polarPc p K E
    let (ok, bytes, s) := s.engGet u (jobAddr w 2) ((A + 7) / 8)
    if !ok then ({ memerr := true, encoder := true }, s)
    else
      let a := bitsIn A bytes
      let c := (a ++ polarCrc scheme (jobFld w 0 31 16) p a).toArray
      let c' := (polarInput p.inputIl K).map (fun i => c.getD i false)
      let x := polarU (polarKinds p.subIl K E (2 ^ n) nPc nWm) c' (List.replicate 5 false)
      let poison := bytes.any (·.2)
      let (wok, s) := s.engPut u (jobAddr w 4) (encOut poison (polarMatch p K E (2 ^ n) (polarTransform n x)))
      ({ poison := poison, memerr := !wok, encoder := true }, s))

def execPolarEncode (engine : Fin 4) (s : State) : Host.Outcome State Fault Refusal :=
  .next (s.jobRow (216 + engine) 0x05 (State.polarEncode (216 + engine)))

/-- The bits of the segments of a CRC job, whether one was poisoned, and whether every read succeeded; `more` bits are read after
the last. -/
def State.segBits (s : State) (u : Nat) : List (Nat × Nat) → Nat → List Bool × List Bool × Bool × Bool × State
  | [], _ => ([], [], false, true, s)
  | [(a, n)], more =>
    let (ok, l, s) := s.engGet u a ((n + more + 7) / 8)
    let bs := unpackBits (l.map (·.1))
    (bs.take n, (bs.drop n).take more, l.any (·.2), ok, s)
  | (a, n) :: r, more =>
    let (ok, l, s) := s.engGet u a ((n + 7) / 8)
    if ok then
      let (bs, tail, p, ok', s) := s.segBits u r more
      (bitsIn n l ++ bs, tail, l.any (·.2) || p, ok', s)
    else ([], [], l.any (·.2), false, s)

/-- CRC (R164). -/
def State.crcJob (u : Nat) (w : List Word) (_allow : Nat) (s : State) : JobRes × State :=
  s.checked (jobAddr w 3) (w.getD 5 0) [jobAddr w 1] (fun s =>
    let p := crcPoly (if 6 ≤ jobFld w 0 2 0 then 0 else jobFld w 0 2 0)
    let check := jobFld w 0 3 3 == 1
    let segs := max 1 (jobFld w 0 15 8)
    let (ok, l, s) := s.engGet u (jobAddr w 1) (8 * segs)
    if !ok then ({ memerr := true, encoder := true, named := check }, s)
    else
      let bytes := l.map (fun b => if b.2 then (0 : Byte) else b.1)
      let list := (List.range segs).map (fun i =>
        let e := (bytes.drop (8 * i)).take 8
        let lo := leNat (e.take 4)
        let hi := leNat (e.drop 4)
        (lo / 16 * 16 + 2 ^ 32 * (hi % 256), hi / 256))
      if !list.all (fun x => s.engMay x.1) then ({ addr := true, encoder := true, named := check }, s)
      else
        let (bs, tail, bad, ok, s) := s.segBits u list (if check then p.1 else 0)
        let poison := bad || l.any (·.2)
        let r := crcOf p bs
        ({ crcOk := check && !poison && bitsToNat tail == r && ok, poison := poison, memerr := !ok, result := if ok then r else 0,
           encoder := true, named := check, acts := [(7, bs.length)] }, s))

def execCrc (engine : Fin 8) (s : State) : Host.Outcome State Fault Refusal :=
  .next (s.jobRow (208 + engine) 0x03 (State.crcJob (208 + engine)))

/-! ## HARQ (R156-R162) -/

/-- Address of context record `i` of a HARQ unit. -/
def State.ctxAddr (s : State) (inst i : Nat) : Nat :=
  let base := s.fld Reg.HARQ.CTX_BASE_LO_BASE_LO inst / 32 * 32 + 2 ^ 32 * s.fld Reg.HARQ.CTX_BASE_HI_BASE_HI inst
  base + 32 * (i % 2 ^ s.fld Reg.HARQ.CTX_CFG_LOG2_CTX inst)

/-- Half `h` of code block `c` of a context record (R157). -/
def halfAddr (rec_ : List Word) (c h : Nat) : Nat :=
  (wordField (rec_.getD 0 0) 31 6 * 64 + 2 ^ 32 * wordField (rec_.getD 1 0) 7 0 +
    64 * (c * wordField (rec_.getD 2 0) 19 0 + h * wordField (rec_.getD 3 0) 19 0)) % 2 ^ 40

/-- HARQ_COMBINE (R157-R162). -/
def State.harqCombine (u : Nat) (w : List Word) (_allow : Nat) (s : State) : JobRes × State :=
  let inst := (unitOf u).2
  let ctx := s.ctxAddr inst (jobFld w 2 14 0)
  s.checked (jobAddr w 8) (w.getD 10 0) [jobAddr w 4, jobAddr w 6, ctx] (fun s =>
    let (ok, l, s) := s.engGet u ctx 32
    if !ok then ({ memerr := true }, s)
    else if l.any (·.2) then ({ memerr := true, poison := true }, s)
    else
      let bytes := l.map (·.1)
      let rec_ := (List.range 8).map (fun j => BitVec.ofNat 32 (leNat ((bytes.drop (4 * j)).take 4)))
      let turbo := jobFld w 0 0 0 == 1
      let c : Ldpc := ⟨jobFld w 0 1 1 == 1, zcOf (jobFld w 0 7 2)⟩
      let K := turboK (jobFld w 0 15 8)
      let full := if turbo then 96 * turboRows K else c.N
      let ncb := if jobFld w 1 15 0 = 0 then full else jobFld w 1 15 0
      let F := jobFld w 1 31 16
      let E := jobFld w 3 23 0
      let src := jobFld w 0 23 22
      let dst := jobFld w 0 25 24
      let cb := jobFld w 2 22 15
      let n := (ncb + 1) / 2
      let srcA := halfAddr rec_ cb (src - 1)
      let dstA := halfAddr rec_ cb dst
      let stored := src == 1 || src == 2
      if (stored && !s.engMay srcA) || (decide (dst < 2) && !s.engMay dstA) then ({ addr := true }, s)
      else
        let (ok1, half, s) := if stored then s.engGet u srcA n else (true, [], s)
        let (ok2, rx, s) := if E = 0 ∨ !ok1 then (true, [], s) else s.engGet u (jobAddr w 4) E
        if !(ok1 && ok2) then ({ memerr := true, poison := half.any (·.2) || rx.any (·.2) }, s)
        else
          let null (p : Nat) : Bool := if turbo then turboNull K F p else c.fillerPos F p
          let k0 := if turbo then turboK0 K ncb (jobFld w 0 17 16) % max 1 ncb else c.k0 ncb (jobFld w 0 17 16)
          let x := llrs rx
          let x := if turbo then x else deinterleave 0 (max 1 (jobFld w 0 21 18)) x
          let old := (halfLlrs half).toArray
          let acc0 : Array Int := ((List.range ncb).map (fun p => old.getD p 0)).toArray
          let acc := ((walkBuffer ncb null k0 E).zip x).foldl (fun (a : Array Int) px =>
            a.setIfInBounds px.1 (satTo 127 (a.getD px.1 0 + px.2))) acc0
          let val (p : Nat) : Int := if null p then 0 else acc.getD p 0
          let poison := half.any (·.2) || rx.any (·.2)
          let i8 (v : Int) : Byte := BitVec.ofInt 8 v
          let S := 16 * ((K + 4 + 15) / 16)
          let (wok, s) :=
            if jobFld w 0 26 26 = 0 then (true, s)
            else if turbo then
              let inv : Array Int := (List.range (min ncb (96 * turboRows K))).foldl (fun a p => match turboPos K p with
                | some (k, i) => a.setIfInBounds (k * S + i) (val p)
                | none => a) (Array.replicate (3 * S) 0)
              (List.range 3).foldl (fun r k =>
                if r.1 then r.2.engPut u (jobAddr w 6 + k * S) (clean ((List.range (K + 4)).map (fun i => i8 (inv.getD (k * S + i) 0))))
                else r) (true, s)
            else s.engPut u (jobAddr w 6) (clean ((List.range ncb).map (fun p => i8 (val p))))
          let (wok, s) :=
            if wok && decide (dst < 2) then
              s.engPut u dstA (clean ((List.range ((n + 63) / 64 * 64)).map (fun i =>
                let code (p : Nat) : Nat := if p < ncb then harqCompress (val p) else 0
                BitVec.ofNat 8 (code (2 * i) + 16 * code (2 * i + 1)))))
            else (wok, s)
          ({ poison := poison, memerr := !wok, erased := poison, acts := [(3, ncb + E)] }, s))

def execHarqCombine (engine : Fin 8) (s : State) : Host.Outcome State Fault Refusal :=
  .next (s.jobRow (224 + engine) 0x08 (State.harqCombine (224 + engine)))

/-! ## Type mismatch, end, watchdog -/

/-- Job types an engine class executes (R145). -/
def jobTypes (cls : Nat) : List Nat :=
  if cls = 0x18 then [1] else if cls = 0x19 then [2, 3] else if cls = 0x1A then [4, 5] else if cls = 0x1B then [6, 7] else [8]

/-- Where a job type's descriptor holds its status address and TAG; none for codes that name no type. -/
def jobStWord (type : Nat) : Option (Nat × Nat) :=
  if type = 2 ∨ type = 7 ∨ type = 8 then some (8, 10) else if type = 3 then some (3, 5)
  else if type = 1 ∨ (4 ≤ type ∧ type ≤ 6) then some (6, 8) else none

/-- The job of a type its engine does not execute (R145): only the status record is written, with TYPE. -/
def State.mismatch (ty : Nat) (w : List Word) (_allow : Nat) (s : State) : JobRes × State :=
  match jobStWord ty with
  | none => ({ type := true }, s)
  | some (i, t) =>
    if s.engMay (jobAddr w i) then ({ type := true, st := some (jobAddr w i), tag := w.getD t 0 }, s)
    else ({ type := true, addr := true, tag := w.getD t 0 }, s)

/-- JOB_TYPE_MISMATCH (R145). -/
def execJobTypeMismatch (engine : Fin 40) (s : State) : Host.Outcome State Fault Refusal :=
  let u := 192 + engine.val
  match s.headJob u with
  | none => .next s
  | some ty =>
    if !s.engMayTake u ∨ (jobTypes (unitOf u).1).contains ty then .next s
    else .next (s.takeJob u (State.mismatch ty))

/-- At a job boundary an engine whose new microcode has been loaded runs its self-test (R172); else it is idle. -/
def State.engIdle (s : State) (u : Nat) : State := s.setE u Reg.LDPC_DEC.STATUS_STATE (if (s.eng u).loaded then 2 else 0)

/-- JOB_END (R147): the status record, the counters and events of R148, R174 and R402, the report. -/
def execJobEnd (engine : Fin 40) (s : State) : Host.Outcome State Fault Refusal :=
  let u := 192 + engine.val
  let e := s.eng u
  match e.job with
  | none => .next s
  | some j =>
    if !s.running (unitOf u).1 (unitOf u).2 then .next s
    else
      let (cyc, s) := s.takeFree 16
      let ws := j.words
      let ws := [ws.getD 0 0, ws.getD 1 0, BitVec.ofNat 32 ((ws.getD 2 0).toNat + cyc), ws.getD 3 0]
      let (ok, s) := match j.st with
        | some a => s.engPut u a (clean (wordsToBytes ws))
        | none => (true, s)
      let w0 := (ws.getD 0 0).toNat
      let failed := j.failed || !ok
      let set (b : Bool) (f : Field) (s : State) : State := if b then s.setE u f 1 else s
      let s := set (bitOf w0 4 || !ok || (j.st.isNone && bitOf w0 5)) Reg.LDPC_DEC.ERRORS_ADDR s
      let s := set (bitOf w0 5 || !ok) Reg.LDPC_DEC.ERRORS_MEMERR s
      let s := set (bitOf w0 6) Reg.LDPC_DEC.ERRORS_TYPE s
      let s := set (bitOf w0 3) Reg.LDPC_DEC.ERRORS_POISON s
      let s := s.addE u Reg.LDPC_DEC.JOBS_COUNT 1
      let s := s.addE u Reg.LDPC_DEC.ITER_SUM_COUNT (w0 / 2 ^ 8 % 64)
      let s := if (unitOf u).1 = 0x18 ∨ (unitOf u).1 = 0x1B then s.countEvent (unitOf u).1 (unitOf u).2 0x012 (w0 / 2 ^ 8 % 64) else s
      let s := if bitOf w0 7 then s.addE u Reg.LDPC_DEC.CAPPED_COUNT 1 else s
      let s := if j.named then s.addE u Reg.LDPC_DEC.CRC_FAIL_COUNT 1 else s
      let s := if failed then s.engPost u 0x001 2 (j.task + 2 ^ 14 * (w0 / 2 ^ 3 % 16)) else s
      let s := if j.erased then s.engPost u 0x003 1 j.task else s
      let s := s.setEng u { s.eng u with job := none }
      .next ((s.engIdle u).report j.task (if failed then .job else .success))

/-- The watchdog expires in the job of a task: the engine resets itself (R170). -/
def State.engHung (s : State) (u i : Nat) : State :=
  let s := s.setEng u { s.eng u with job := none, hung := some i, left := none }
  ((s.setE u Reg.LDPC_DEC.STATUS_STATE 3).setE u Reg.LDPC_DEC.ERRORS_HANG 1).engPost u 0x002 3 i

/-- What an engine runs for a job type (R145). -/
def engRun (u ty : Nat) : List Word → Nat → State → JobRes × State :=
  if (jobTypes (unitOf u).1).contains ty then
    (if ty = 1 then State.ldpcDecode u else if ty = 2 then State.ldpcEncode u else if ty = 3 then State.crcJob u
    else if ty = 4 then State.polarDecode u else if ty = 5 then State.polarEncode u else if ty = 6 then State.turboDecode u
    else if ty = 7 then State.turboEncodeJob u else State.harqCombine u)
  else State.mismatch ty

/-- ENGINE_HANG (R170): the job is abandoned without its status record, and the engine resets itself. A job whose outputs are not
all written yet hangs after a number of accesses that the spec does not bound: a free value; what it wrote before stands. -/
def execEngineHang (engine : Fin 40) (s : State) : Host.Outcome State Fault Refusal :=
  let u := 192 + engine.val
  let e := s.eng u
  if s.getE u Reg.LDPC_DEC.CTL_WDOG_EN = 0 ∨ !s.running (unitOf u).1 (unitOf u).2 then .next s
  else
    match e.job with
    | some j => .next (s.engHung u j.task)
    | none =>
      match s.headJob u with
      | none => .next s
      | some ty =>
        if s.engMayTake u then
          let (n, s) := s.takeFree 24
          match (s.setEng u { e with left := some n }).beginJob u (engRun u ty) with
          | some (i, _, s) => .next (s.engHung u i)
          | none => .next s
        else .next s

/-- ENGINE_RESET_DONE (R170): the engine is back, and the job is reported failed with cause HANG. -/
def execEngineResetDone (engine : Fin 40) (s : State) : Host.Outcome State Fault Refusal :=
  let u := 192 + engine.val
  let e := s.eng u
  match e.hung with
  | none => .next s
  | some i =>
    if !s.running (unitOf u).1 (unitOf u).2 then .next s
    else .next (((s.setEng u { e with hung := none }).engIdle u).report i .hang)

/-- A write of an engine's CTL: with TAKE_EN 0 the entries of its slot are reclaimed (R144, R188). -/
def State.engCtl (s : State) (cls inst : Nat) (v : Word) : State :=
  let s := s.storeReg cls inst 0x000 v
  if wordField v 0 0 = 0 then s.reclaimAll (unitIndex cls inst) else s

/-- TAKE_EN_WRITE: class 0x18 + cls. -/
def execTakeEnWrite (req : Fin 14) (cls : Fin 5) (sel : BitVec 10) (value : Word) (s : State) : Host.Outcome State Fault Refusal :=
  .next (s.hubEach req (0x18 + cls) sel.toNat 0x000 (fun s i => s.engCtl (0x18 + cls) i value))

/-! ## Microcode (R172) -/

/-- Image type of an engine class: 1-5 in class order. -/
def engImageType (cls : Nat) : Nat := cls - 0x17

/-- Whether the copied image can run on the engine: its type matches and its body fits the bank. -/
def imageFits (cls type length : Nat) : Bool := type == engImageType cls && decide (length ≤ 131072)

/-- UCODE_LOAD_DONE: the staged image stands in the inactive bank, whose version UCODE_ALT shows; an engine without a job begins its
self-test from it. An image of another type is copied all the same, and one too long for the bank leaves no whole image there. -/
def execUcodeLoadDone (engine : Fin 40) (s : State) : Host.Outcome State Fault Refusal :=
  let u := 192 + engine.val
  let e := s.eng u
  match e.image with
  | none => .next s
  | some (_, len, ver) =>
    if e.loaded ∨ !s.running (unitOf u).1 (unitOf u).2 then .next s
    else
      let s := (s.setEng u { e with loaded := true }).setE u Reg.LDPC_DEC.STATUS_LOADING 0
      let s := (s.setE u Reg.LDPC_DEC.UCODE_ALT_VERSION ver).setE u Reg.LDPC_DEC.UCODE_ALT_VALID (b2n (decide (len ≤ 131072)))
      .next (if e.job.isNone ∧ e.hung.isNone then s.engIdle u else s)

/-- UCODE_SWITCH, the end of the self-test: at a job boundary the self-test runs from the new bank; when it passes the banks exchange roles, otherwise the
active bank is kept. The event is written. -/
def execUcodeSwitch (engine : Fin 40) (pass : Bool) (micros : Word) (s : State) : Host.Outcome State Fault Refusal :=
  let u := 192 + engine.val
  let e := s.eng u
  match e.image with
  | none => .next s
  | some (ty, len, ver) =>
    if !e.loaded ∨ e.job.isSome ∨ e.hung.isSome ∨ !s.running (unitOf u).1 (unitOf u).2 then .next s
    else
      let s := (s.setEng u { e with image := none, loaded := false, act := none }).setE u Reg.LDPC_DEC.STATUS_STATE 0
      let tell (st : Status) (detail : Nat) (r : List Word) (s : State) : State := match e.act with
        | some op => match s.findOp op .imageActivate with
          | some o => s.endOp o st detail r
          | none => s
        | none => s
      if pass ∧ imageFits (unitOf u).1 ty len then
        let old := s.getE u Reg.LDPC_DEC.UCODE_VER_VERSION
        let s := (s.setE u Reg.LDPC_DEC.UCODE_VER_VERSION ver).setE u Reg.LDPC_DEC.UCODE_ALT_VERSION old
        let s := s.setE u Reg.LDPC_DEC.UCODE_ALT_VALID 1
        let s := s.setE u Reg.LDPC_DEC.STATUS_BANK (1 - s.getE u Reg.LDPC_DEC.STATUS_BANK)
        let s := s.engPost u 0x004 0 (2 ^ 14 * (ver / 2 ^ 16 % 256))
        .next (tell .ok 0 [BitVec.ofNat 32 (ver * 256), micros] s)
      else
        let s := (s.setE u Reg.LDPC_DEC.ERRORS_UCODE_FAIL 1).engPost u 0x005 2 0
        .next (tell .unitFault 0 [0, 0] s)

end Sys2Proof.Machine
end

