-- ==== Sys2Proof/Machine/Eth.lean ====
section
/-! DEFINITION. The commands of Ethernet ports, rings and fronthaul flows (R327-R355), and a reception window's close (R336). -/
namespace Sys2Proof.Machine

/-! ## Receive -/

/-- A stamp as a port's asymmetry and latency correct it (R366), in units of 2^-16 ns. -/
def State.portStamp (s : State) (m : Nat) (sub : Nat) (lat asym : Field) (rx : Bool) : Nat :=
  let c : Int := (s.tb (s.fld Reg.PTP_PORT.CTL_TB m)).stamp + sub
  let l : Int := s.fld lat m * 4096
  ((if rx then c - l else c + l) + signedOf 32 (s.fld asym m)).toNat

/-- A frame without its FCS delivered as its lookup says (R330): to its entry's ring or channel, else to the default ring, else
discarded. A frame with a bad FCS reaches rings only (R345). -/
def State.deliverFrame (s : State) (m stamp : Nat) (l : List Byte) (bad : Bool) : State :=
  let p := parseFrame l (s.fld Reg.MAC.ECPRI_PORT_PORT m)
  let tb := s.fld Reg.PTP_PORT.CTL_TB m
  let info (hit : Nat) := p.l3 + b2n p.ipOk * 4 + p.l4 * 8 + b2n p.l4Ok * 32 + hit * 64
  let tci := 2 ^ 16 * p.tci.getD 0
  match s.flowLookup m p with
  | some e =>
    if s.flowToRing e then
      s.toRing m (s.flowFld e 2 8 0 % 256) l (info 1) (BitVec.ofNat 32 (e + tci)) (stampWords stamp) bad
    else if bad then s
    else
      match p.upper with
      | .ecpri _ _ _ => s.uPlane e tb stamp (l.drop p.at_)
      | .roe _ _ len order => s.roePacket e tb stamp order ((l.drop (p.net + 8)).take len)
      | .other => s
  | none =>
    if s.bit Reg.MAC.DEFAULT_EN m then
      s.toRing m (s.fld Reg.MAC.DEFAULT_RING m) l (info 0) (BitVec.ofNat 32 tci) (stampWords stamp) bad
    else if bad then s else s.addFld Reg.MAC.RX_UNMATCHED_COUNT m 1

/-- Whether a destination address is accepted (R328). -/
def State.takesAddr (s : State) (m : Nat) (l : List Byte) : Bool :=
  s.bit Reg.MAC.CFG_PROMISC m || (l.getD 0 0).toNat % 2 == 1 || l.take 6 == s.macAddr m

/-- MAC_FRAME_RX (R328): a frame, from destination address to FCS, has reached a MAC `sub` × 2^-16 ns after the present tick;
its codewords were corrected or not. -/
def execMacFrameRx (mac : Fin 24) (frame : List Byte) (sub : BitVec 20) (corrected uncorrected : Nat) (s : State) :
    Host.Outcome State Fault Refusal :=
  let m := mac.val
  if !s.macUp m then .next s
  else
    let s := (s.addFld Reg.MAC.FEC_CORR_COUNT m corrected).addFld Reg.MAC.FEC_UNCORR_COUNT m uncorrected
    let n := frame.length
    if n < 64 ∨ s.maxLen m < n then .next (s.addFld Reg.MAC.RX_LENGTH_COUNT m 1)
    else
      let l := frame.take (n - 4)
      let good := frame.drop (n - 4) == fcs l
      let stamp := s.portStamp m sub.toNat Reg.PTP_PORT.LAT_RX_LAT Reg.PTP_PORT.RX_ASYM_ASYM true
      if !good then
        let s := s.addFld Reg.MAC.RX_FCS_ERR_COUNT m 1
        .next (if s.takesAddr m l && beAt l 12 2 != 0x8808 then s.deliverFrame m stamp l true else s)
      else if beAt l 12 2 = 0x8808 then .next (((s.addFld Reg.MAC.RX_FRAMES_COUNT m 1).countEvent 0x58 m 0x010 n).macControl m l)
      else if s.takesAddr m l then .next (((s.addFld Reg.MAC.RX_FRAMES_COUNT m 1).countEvent 0x58 m 0x010 n).deliverFrame m stamp l false)
      else .next s

/-- RX_DESC_DONE (R343): the oldest frame's descriptors are written back, words 2–6 and then word 7. -/
def execRxDescDone (ring : Fin 256) (s : State) : Host.Outcome State Fault Refusal :=
  let r := ring.val
  let x := s.ethRing r
  match x.done with
  | [] => .next s
  | d :: rest =>
    let s := d.descs.foldl (fun s q =>
      let a := s.ethSlot r q.1
      let (_, s) := s.busPut d.ni 0 (a + 8) (clean (wordsToBytes q.2))
      (s.busPut d.ni 0 (a + 28) (clean (wordsToBytes [0x80000000]))).2) (s.setEthRing r { x with done := rest })
    .next (s.ethComplete r d.head (!d.discard))

/-! ## Transmit -/

/-- Descriptors of a TX ring from a slot to the one with EOP (R344), with the slot after it; none when TAIL does not cover its
EOP; a descriptor that cannot be read ends the frame as `false`. `fuel` counts the slots handed over. -/
def State.txScan (s : State) (ni r : Nat) : Nat → Nat → List (Nat × List Word) → Option (Bool × List (Nat × List Word) × Nat) × State
  | 0, _, _ => (none, s)
  | n + 1, i, acc =>
    match s.ethDesc ni r i with
    | (none, s) =>
      let (j, s) := s.ethNext r i
      (some (false, acc, j), s)
    | (some d, s) =>
      let (j, s) := s.ethNext r i
      if wordField (d.getD 2 0) 17 17 = 1 then (some (true, acc ++ [(i, d)], j), s)
      else s.txScan ni r n j (acc ++ [(i, d)])

def State.txNext (s : State) (r : Nat) : Option (Bool × List (Nat × List Word) × Nat) × State :=
  let i := (s.ethRing r).next
  s.txScan (macNi (s.fld Reg.ETH_RING.CTL_MAC r % 24)) r (s.ethAvail r i) i []

/-- The flow engine's next message for a MAC. -/
def State.flowHead (s : State) (m : Nat) : Option FlowMsg := s.eth.queue.find? (fun q => s.activeMac q.mac == m)

/-- Whether a requester of a MAC's transmitter asks (R346): 0 the flow engine, 1 + n ring n. While Witness holds transmit outputs quiet
the flow engine's messages, which STRM_TX channels sourced, wait (R55). DESIGN CHOICE: they are not discarded (log entry 27). -/
def State.macAsks (s : State) (m k : Nat) : Bool :=
  if k = 0 then match s.flowHead m with
    | some q => !s.paused m q.pcp && !(s.actsAs == .witness && s.quietMode)
    | none => false
  else
    let r := 255 + k
    s.bit Reg.ETH_RING.CTL_EN r && s.activeMac (s.fld Reg.ETH_RING.CTL_MAC r) == m && !s.paused m (s.fld Reg.ETH_RING.CTL_PRIO r) &&
      (s.txNext r).1.isSome

/-- The bytes of a frame's buffers, and whether one is poisoned or could not be read. -/
def State.txBytes (s : State) (m ni : Nat) (ds : List (Nat × List Word)) : List Byte × Bool × State :=
  ds.foldl (fun acc d =>
    let n := wordField (d.2.getD 2 0) 15 0
    if n = 0 then acc
    else
      let (st, l, s) := acc.2.2.unitGet 0x58 m ni 0 (descBuf d.2) n
      (acc.1 ++ l.map (·.1), acc.2.1 || st != .ok || l.any (·.2), s)) (([] : List Byte), false, s)

/-- A one-step Sync (R367), and the checksums its descriptor asks for (R340). -/
def State.finishFrame (s : State) (m stamp : Nat) (flags : Word) (l : List Byte) : List Byte × State :=
  let p := parseFrame l (s.fld Reg.MAC.ECPRI_PORT_PORT m)
  let ipSum := wordField flags 18 18 == 1
  let l4Sum := wordField flags 19 19 == 1
  let (l, s) := match p.ptp with
    | some a =>
      if s.bit Reg.PTP_PORT.CTL_ONE_STEP m ∧ beAt l a 1 % 16 = 0 ∧ !bitOf (beAt l (a + 6) 1) 1 then
        let ns := stamp % stampSecond / 65536
        let l := putAt l (a + 34) (beBytes 6 (stamp / stampSecond) ++ beBytes 4 ns)
        let l := putAt l (a + 8) (beBytes 8 (beAt l (a + 8) 8 + stamp % 65536))
        (if p.l3 = 1 ∧ p.l4 = 1 ∧ !l4Sum then putAt l (p.l4At + 6) [0, 0] else l, s.addFld Reg.PTP_PORT.ONE_STEP_FRAMES_COUNT m 1)
      else (l, s)
    | none => (l, s)
  let l := if ipSum then putIpCsum l p else l
  (if l4Sum then putL4Csum l p else l, s)

/-- Descriptors of a TX frame written back (R344): words 4–6 where TS_REQ asked, then word 7. -/
def State.txWriteBack (s : State) (ni r stamp : Nat) (slots : List (Nat × Bool)) (aborted : Bool) : State :=
  slots.foldl (fun s q =>
    let a := s.ethSlot r q.1
    let s := if q.2 then (s.busPut ni 0 (a + 16) (clean (wordsToBytes (stampWords stamp)))).2 else s
    (s.busPut ni 0 (a + 28) (clean (wordsToBytes [if aborted then 0xC0000000 else 0x80000000]))).2) s

/-- A TX ring granted: its next frame begins, or is dropped where it is too long or its descriptors cannot be read. -/
def State.grantRing (s : State) (m r stamp : Nat) : State :=
  let ni := macNi (s.fld Reg.ETH_RING.CTL_MAC r % 24)
  match s.txNext r with
  | (none, s) => s
  | (some (ok, ds, next), s) =>
    let s := s.setEthRing r { s.ethRing r with next := next }
    if !ok then (s.ethDiscard r).setFld Reg.ETH_RING.HEAD_HEAD r next
    else
      let (l, bad, s) := s.txBytes m ni ds
      let slots := ds.map (fun d => (d.1, wordField (d.2.getD 2 0) 20 20 == 1))
      if s.maxLen m < l.length + 4 then
        ((s.txWriteBack ni r 0 (slots.map (fun q => (q.1, false))) true).addFld Reg.MAC.TX_OVERSIZE_COUNT m 1).ethComplete r next true
      else
        let flags := match ds with
          | d :: _ => d.2.getD 2 0
          | [] => 0
        let (l, s) := s.finishFrame m stamp flags l
        s.setMacSt m { s.macSt m with tx := some ⟨padFrame l, bad, r - 255, slots, next, stamp⟩ }

/-- MAC_TX_GRANT (R346): the transmitter is free and takes the next frame, whose stamp point lies `sub` × 2^-16 ns after the
present tick. -/
def execMacTxGrant (mac : Fin 24) (sub : BitVec 20) (s : State) : Host.Outcome State Fault Refusal :=
  let m := mac.val
  let x := s.macSt m
  if !s.macUp m ∨ x.tx.isSome then .next s
  else
    match rrPick 257 x.last (fun k => s.macAsks m k) with
    | none => .next s
    | some k =>
      let s := s.setMacSt m { x with last := k }
      let stamp := s.portStamp m sub.toNat Reg.PTP_PORT.LAT_TX_LAT Reg.PTP_PORT.TX_ASYM_ASYM false
      if k = 0 then
        match s.flowHead m with
        | some q =>
          let s := { s with eth := { s.eth with queue := s.eth.queue.erase q } }
          .next (s.setMacSt m { s.macSt m with tx := some ⟨padFrame q.bytes, false, 0, [], 0, stamp⟩ })
        | none => .next s
      else .next (s.grantRing m (255 + k) stamp)

/-- MAC_TX_DONE (R344): the frame has left the MAC, with its FCS inverted when it held poison (R347). -/
def execMacTxDone (mac : Fin 24) (s : State) : Host.Outcome State Fault Refusal :=
  let m := mac.val
  let x := s.macSt m
  match x.tx with
  | none => .next s
  | some f =>
    let check := if f.poison then (fcs f.bytes).map (fun b => b ^^^ 0xFF) else fcs f.bytes
    let s := (s.setMacSt m { x with tx := none, sent := f.bytes ++ check }).addFld Reg.MAC.TX_FRAMES_COUNT m 1
    let s := s.countEvent 0x58 m 0x011 (f.bytes.length + 4)
    let s := if f.poison then
        (s.addFld Reg.MAC.TX_POISON_COUNT m 1).post 0x58 m 0x004 2 (if f.src = 0 then 0x1FF else f.src - 1)
      else s
    if f.src = 0 then .next s
    else
      let r := 255 + f.src
      .next ((s.txWriteBack (macNi (s.fld Reg.ETH_RING.CTL_MAC r % 24)) r f.stamp f.slots f.poison).ethComplete r f.head true)

/-! ## Pause and PFC -/

/-- PAUSE_EXPIRE (R348): the pause time has run out. -/
def execPauseExpire (mac : Fin 24) (state : Fin 9) (s : State) : Host.Outcome State Fault Refusal :=
  let x := s.pause mac state
  match x.until_ with
  | some t => if t ≤ s.devclk.toNat then .next (s.setPause mac state { x with until_ := none }) else .next s
  | none => .next s

/-- PAUSE_BREAK (R349). -/
def execPauseBreak (mac : Fin 24) (state : Fin 9) (s : State) : Host.Outcome State Fault Refusal :=
  .next (s.pauseWatch mac state)

/-- PAUSE_BREAK_END (R349). -/
def execPauseBreakEnd (mac : Fin 24) (state : Fin 9) (s : State) : Host.Outcome State Fault Refusal :=
  let x := s.pause mac state
  match x.breakEnd with
  | some t => if t ≤ s.devclk.toNat then .next (s.setPause mac state { x with breakEnd := none }) else .next s
  | none => .next s

/-- Whether a watched ring of a priority is below XOFF_LEVEL. -/
def State.ringsLow (s : State) (m p : Nat) : Bool :=
  (s.watched m p).any (fun r => decide (s.freeDescs r < s.fld Reg.MAC.XOFF_XOFF_LEVEL m))

/-- Whether every watched ring of a priority is at or above XON_LEVEL. -/
def State.ringsHigh (s : State) (m p : Nat) : Bool :=
  (s.watched m p).all (fun r => decide (s.fld Reg.MAC.XON_XON_LEVEL m ≤ s.freeDescs r))

/-- A MAC's record of DEVCLK + 1 at which it last held a priority off; 0 when it does not. -/
def State.setXoff (s : State) (m p n : Nat) : State :=
  s.setMacSt m { s.macSt m with xoff := tset 0 (s.macSt m).xoff p n }

/-- PFC_XOFF (R350): the far end is held off, or let go with time 0. -/
def execPfcXoff (mac : Fin 24) (prio : Fin 8) (s : State) : Host.Outcome State Fault Refusal :=
  let m := mac.val
  let off := tget 0 (s.macSt m).xoff prio
  if !s.macUp m ∨ !bitOf (s.fld Reg.MAC.XOFF_GEN_EN m) prio then .next s
  else if off = 0 ∧ s.ringsLow m prio then
    .next ((s.sendPause m prio (s.fld Reg.MAC.XON_QUANTA m)).setXoff m prio (s.devclk.toNat + 1))
  else if off ≠ 0 ∧ s.ringsHigh m prio then .next ((s.sendPause m prio 0).setXoff m prio 0)
  else .next s

/-- PFC_REPEAT (R350): half the time sent has gone by and a ring is still low. -/
def execPfcRepeat (mac : Fin 24) (prio : Fin 8) (s : State) : Host.Outcome State Fault Refusal :=
  let m := mac.val
  let off := tget 0 (s.macSt m).xoff prio
  let q := s.fld Reg.MAC.XON_QUANTA m
  if s.macUp m && bitOf (s.fld Reg.MAC.XOFF_GEN_EN m) prio && off != 0 && s.ringsLow m prio &&
      decide (off - 1 + s.quantaTime m (q / 2) ≤ s.devclk.toNat) then
    .next ((s.sendPause m prio q).setXoff m prio (s.devclk.toNat + 1))
  else .next s

/-! ## Links and protection -/

/-- MAC_LINK_LOSS (R351): loss of block lock or alignment, or local fault; the fault manager's part is over at once (R388). -/
def execMacLinkLoss (mac : Fin 24) (localFault remoteFault : Bool) (s : State) : Host.Outcome State Fault Refusal :=
  let m := mac.val
  if s.bit Reg.MAC.STATUS_LINK_UP m then
    let s := (s.setFld Reg.MAC.STATUS_LOCAL_FAULT m (b2n localFault)).setFld Reg.MAC.STATUS_REMOTE_FAULT m (b2n remoteFault)
    .next (((s.reportFault 6 0x58 m).macDown m).endRecovery 6 0x58 m)
  else .next s

/-- MAC_LINK_UP (R352): block lock and alignment are reached; the path latencies measured show in LAT (R366). -/
def execMacLinkUp (mac : Fin 24) (s : State) : Host.Outcome State Fault Refusal :=
  let m := mac.val
  if s.bit Reg.MAC.STATUS_LINK_UP m ∨ !s.macCanLink m then .next s
  else
    let (first, lanes, _) := s.macLanes m
    let s := (List.range lanes).foldl (fun s k =>
      (s.setFld Reg.LANE.STATUS_SIGNAL (first + k) 1).setFld Reg.LANE.STATUS_CDR_LOCK (first + k) 1) s
    let (n, s) := s.takeFree 32
    let s := (s.setFld Reg.PTP_PORT.LAT_TX_LAT m n).setFld Reg.PTP_PORT.LAT_RX_LAT m (n / 2 ^ 16)
    let s := ((s.setFld Reg.MAC.STATUS_LINK_UP m 1).setFld Reg.MAC.STATUS_LOCAL_FAULT m 0).setFld Reg.MAC.STATUS_REMOTE_FAULT m 0
    .next (s.post 0x58 m 0x002 0 (s.fld Reg.MAC.CFG_SPEED m))

/-- A write of a ring's TAIL (R341). -/
def State.tailWrite (s : State) (r : Nat) (v : Word) : State := s.setFld Reg.ETH_RING.TAIL_TAIL r (wordField v 15 0)

/-- A function's write of a ring's TAIL through BAR4: another function's is ignored. -/
def State.tailBar4 (s : State) (fn r : Nat) (v : Word) : State :=
  if s.fld Reg.ETH_RING.IRQ_FN r = fn then s.tailWrite r v else s

/-- ETH_RING_TAIL (R341): through the ring's CSR, or by a function through BAR4. -/
def execEthRingTail (req : Fin 14) (sel : BitVec 10) (bar4 : Option (Fin 16)) (value : Word) (s : State) :
    Host.Outcome State Fault Refusal :=
  match bar4 with
  | some fn => .next (s.tailBar4 fn (sel.toNat % 512) value)
  | none => .next (s.hubEach req 0x5A sel.toNat 0x014 (fun s r => s.tailWrite r value))

/-- The entry a requester's SEL names. -/
def State.flowSel (s : State) (req : Nat) : Nat := wordField (s.heldFor req 0x59 0 0x000) 10 0

/-- FLOW_DATA_WRITE (R331). -/
def execFlowDataWrite (req : Fin 14) (sel : BitVec 10) (w : Fin 8) (value : Word) (s : State) : Host.Outcome State Fault Refusal :=
  .next (s.hubEach req 0x59 sel.toNat (0x010 + 4 * w) (fun s _ => s.setFlowWord (s.flowSel req) w value))

/-- FLOW_CLR_STATS. -/
def execFlowClrStats (req : Fin 14) (sel : BitVec 10) (value : Word) (s : State) : Host.Outcome State Fault Refusal :=
  .next (s.hubEach req 0x59 sel.toNat 0x054 (fun s _ => if wordField value 0 0 = 1 then s.flowClear (s.flowSel req) else s))

/-- MAC_ACTIVE_WRITE (R351): single instances only. -/
def execMacActiveWrite (req : Fin 14) (sel : BitVec 10) (value : Word) (s : State) : Host.Outcome State Fault Refusal :=
  if sel.toNat < 0x200 then .next (s.hubEach req 0x58 sel.toNat 0x024 (fun s m => s.macProtectWrite m value)) else .next s

/-! ## Reception windows (R336, R80) -/

/-- A symbol's window closes, with the settings it began with: PRBs not placed are zero-filled, the symbol waits for its
acknowledgements, Witness takes its blocks whatever became of their writes (R217). -/
def State.closeWindow (s : State) (c : Nat) (j : SymJob) : State :=
  let x := s.strm c
  let f := effFld c j.eff
  let first := f Reg.STRM_RX.PRB_PRB_FIRST
  let n := f Reg.STRM_RX.PRB_PRB_COUNT
  let size := 1 + 3 * mantW (f Reg.STRM_RX.PRB_MANT)
  let mine := x.fhPlaced.filter (fun p => p.sym == j.sym)
  let zero : List Byte := List.replicate size 0
  let base := gridSymbol c j.eff j.slot (codeSym j.sym)
  let blk (i : Nat) : Option (List Byte) := (mine.find? (fun p => p.prb == first + i)).map (·.blk)
  let (ok, s) := (List.range n).foldl (fun acc i =>
    match blk i with
    | some _ => acc
    | none =>
      let (ok, s) := acc.2.chPut c ((base + i * size) % 2 ^ 40) j.sym zero
      (acc.1 && ok, s)) (mine.all (·.ok), s)
  let pad := (16 - n * size % 16) % 16
  let (ok2, s) := if pad = 0 then (true, s) else s.chPut c ((base + n * size) % 2 ^ 40) j.sym (List.replicate pad 0)
  let missing := (List.range n).any (fun i => (blk i).isNone)
  let good := ok && ok2
  let j := { j with fail := missing || !good, written := good }
  let y := s.strm c
  let s := s.setStrm c { y with
    writing := y.writing ++ [j]
    fhPlaced := y.fhPlaced.filter (fun p => p.sym != j.sym) }
  (s.toWitness c j ((List.range n).flatMap (fun i => (blk i).getD zero))).witClose c

/-- Whether the window of a symbol that has begun has closed by now: WIN_CLOSE after its boundary; without an entry at the next one. -/
def State.windowClosed (s : State) (c : Nat) (j : SymJob) : Bool :=
  match s.entryOf c with
  | some e => decide (s.symNear c j.sym + signedOf 32 (s.flowWord e 4).toNat ≤ s.chTc c)
  | none => (s.strm c).cur != some j.sym

/-- The symbol that has not begun and whose window closes before it does, if one has closed last by now: WIN_CLOSE is negative. -/
def State.closedAhead (s : State) (c : Nat) : Option Nat :=
  match s.entryOf c with
  | some e =>
    let w := signedOf 32 (s.flowWord e 4).toNat
    let code := s.chCode c (s.chGrid c (-w))
    if w < 0 ∧ (s.strm c).startAt < s.symNear c code then some code else none
  | none => none

/-- RX_WINDOW_CLOSE (R336): the window of the oldest symbol begun that is over closes, also of a channel that a commit has stopped or
taken out of FREQ_DOMAIN since; else that of a symbol still to begin. -/
def execRxWindowClose (ch : Fin 512) (s : State) : Host.Outcome State Fault Refusal :=
  let c := ch.val
  let x := s.strm c
  match x.fhOpen.find? (s.windowClosed c) with
  | some j => .next ((s.setStrm c { x with fhOpen := x.fhOpen.erase j, fhClosed := some j.sym }).closeWindow c j)
  | none =>
    match s.closedAhead c with
    | none => .next s
    | some code =>
      if !s.chRuns c ∨ !s.sbit c Reg.STRM_RX.CTL_FREQ_DOMAIN ∨ x.waiting ∨ x.fhClosed = some code ∨ s.symNear c code < x.fhFrom then .next s
      else
        let s := s.setStrm c { x with fhClosed := some code }
        let j : SymJob := ⟨code, slotCount (s.chMu c) code, false, 0, false, false, toBits 10 x.gain,
          (s.sfld c Reg.STRM_RX.NCO_FREQ_NCO_FREQ + x.lo.toNat) % 2 ^ 32, [], x.eff, 0, s.capsOf c⟩
        .next (if s.chActive c code then s.closeWindow c j else s)

end Sys2Proof.Machine
end

