-- ==== Sys2Proof/Machine/Lanes.lean ====
section
/-! DEFINITION. The commands of lanes and the Ahnent link (R306-R326). -/
namespace Sys2Proof.Machine

/-- LANES_CAL (R308): analog calibration of all 12 quads ends. -/
def execLanesCal (s : State) : Host.Outcome State Fault Refusal :=
  if s.bit Reg.SYS.RAISE_STATUS_LANES_CAL 0 then .next s
  else
    let s := (List.range 12).foldl (fun s q => (s.setFld Reg.LANEQ.STATUS_PLL_LOCK q 1).setFld Reg.LANEQ.STATUS_CAL_DONE q 1) s
    let s := (s.setFld Reg.SYS.RAISE_STATUS_LANES_CAL 0 1).syncReady
    .next ((List.range 48).foldl State.laneUpdate s)

/-- SWITCHED (R308 steps 4 and 5): the event of QUAD_PROTOCOL_SET once the last of its quads (parameters: quads to end, 65,536
added to one whose write is held) has ended, then a held write, else bring-up. -/
def execSwitched (quad : Fin 12) (s : State) : Host.Outcome State Fault Refusal :=
  let q := quad.val
  if s.bit Reg.LANEQ.STATUS_SWITCHING q then
    let s := ((s.setFld Reg.LANEQ.STATUS_SWITCHING q 0).setFld Reg.LANEQ.STATUS_PLL_LOCK q 1).setFld Reg.LANEQ.STATUS_CAL_DONE q 1
    let proto := (s.reg 0x50 q 0x000).toNat % 8
    let s := s.post 0x50 q 0x001 0 proto
    let ops := s.dvorys.ops.filter (fun o => o.kind == .quadSwitch)
    let s := ops.foldl (fun s o =>
      let l := o.params.filterMap (fun w => if w.toNat = q then none else if w.toNat = q + 65536 then some (BitVec.ofNat 32 q) else some w)
      if l.isEmpty then s.endOp o .ok 0 [BitVec.ofNat 32 proto] else s.setOp { o with params := l }) s
    match tget none s.lanes.held q with
    | some v =>
      let s := ({ s with lanes := { s.lanes with held := tset none s.lanes.held q none } }).setFld Reg.LANEQ.STATUS_HELD q 0
      .next (s.startSwitch q v)
    | none => .next ((List.range 4).foldl (fun s k => s.laneUpdate (4 * q + k)) s)
  else .next s

/-- RECAL_GO (R312). -/
def execRecalGo (req : Fin 14) (sel : BitVec 10) (value : Word) (s : State) : Host.Outcome State Fault Refusal :=
  .next (s.hubEach req 0x51 sel.toNat 0x014 (fun s l => s.recalGo l value))

/-- RECAL_DONE (R312): on an Ahnent lane the line part is done only in an idle gap of at least 2 µs; with none it is deferred once 1 s has
passed. `line` says that it is done. -/
def execRecalDone (lane : Fin 48) (line : Bool) (s : State) : Host.Outcome State Fault Refusal :=
  let l := lane.val
  let may := s.quadProto (l / 4) == 0 || tget false s.lanes.gap l || s.inGap l
  let ran := s.devclk.toNat + 1 - tget 0 s.lanes.recal l
  if s.bit Reg.LANE.STATUS_RECAL_BUSY l ∧ line = may ∧ (line = true ∨ 100000000 ≤ ran) then
    let r := if line then 3 else 5
    let us := ran / 100
    let s := ({ s with lanes := { s.lanes with recal := tset 0 s.lanes.recal l 0 } }).setFld Reg.LANE.STATUS_RECAL_BUSY l 0
    let s := s.post 0x51 l 0x002 0 r
    let ops := s.dvorys.ops.filter (fun o => o.kind == .laneRecal && o.params.contains (BitVec.ofNat 32 l))
    .next (ops.foldl (fun s o =>
      let rest := o.params.filter (· != BitVec.ofNat 32 l)
      if rest.isEmpty then s.endOp o .ok 0 [BitVec.ofNat 32 r, BitVec.ofNat 32 us] else s.setOp { o with params := rest }) s)
  else .next s

/-- ADAPT_WINDOW (R311): a window of 4,096 UI with the symbols decided at each level and the changes between them; `spoiled`
marks one that overlaps electrical idle, a training burst or loss of CDR lock. The updates themselves are left open. Its boundary is that
of R310 too: TXFIR takes effect. DESIGN CHOICE (log entry 71). -/
def execAdaptWindow (lane : Fin 48) (levels : List Nat) (transitions : Nat) (spoiled : Bool) (s : State) :
    Host.Outcome State Fault Refusal :=
  let l := lane.val
  let s := s.takeFir l
  if s.bit Reg.LANE.CTL_ADAPT_EN l then
    let pam4 := decide (2 ≤ s.quadRate (l / 4))
    let n := (List.range (if pam4 then 4 else 2)).map (fun i => levels.getD i 0)
    let ok := n.all (fun k => decide (s.fld Reg.LANE.GATE_MIN_LEVEL l ≤ k)) && decide (s.fld Reg.LANE.GATE_MIN_TRANS l ≤ transitions) &&
      !spoiled && s.bit Reg.LANE.STATUS_CDR_LOCK l && s.rxState l != 4
    if ok then
      let (c, s) := s.takeFree 4
      let (t, s) := s.takeFree 96
      let s := s.setFld Reg.LANE.EQ_NOW_CTLE l c
      let s := (List.range 3).foldl (fun s k => s.setFld (Reg.LANE.DFE_TAPS k) l (t / 2 ^ (32 * k))) s
      .next (s.addFld Reg.LANE.ADAPT_UPDATES_COUNT l 1)
    else .next (s.addFld Reg.LANE.ADAPT_HELD_COUNT l 1)
  else .next (s.setFld Reg.LANE.EQ_NOW_CTLE l (s.fld Reg.LANE.RXEQ_CTLE l))

/-- With ADAPT_EN = 0 the CTLE takes RXEQ.CTLE (R311). -/
def State.holdEq (s : State) (l : Nat) : State :=
  if s.bit Reg.LANE.CTL_ADAPT_EN l then s else s.setFld Reg.LANE.EQ_NOW_CTLE l (s.fld Reg.LANE.RXEQ_CTLE l)

/-- A write of LANE.CTL, of which TX_EN starts bring-up or takes the lane DOWN (R320), and with it the MAC that claims it (R327). -/
def State.laneCtl (s : State) (l : Nat) (v : Word) : State := (((s.storeReg 0x51 l 0x000 v).holdEq l).laneUpdate l).macsCheck

/-- A write of LANE.RXEQ. -/
def State.rxeqWrite (s : State) (l : Nat) (v : Word) : State := (s.storeReg 0x51 l 0x008 v).holdEq l

/-- A write of LANE.PRBS (R310): the bit errors that RX_CHECK has counted until now are a free value. -/
def State.prbsWrite (s : State) (l : Nat) (v : Word) : State :=
  (if s.fld Reg.LANE.PRBS_RX_CHECK l = 1 then s.setFld Reg.LANE.PRBS_ERR_COUNT l (s.openAt 0x51 l 0x05C % 2 ^ 32) else s).storeReg
    0x51 l 0x010 v

def execTxEnWrite (req : Fin 14) (sel : BitVec 10) (value : Word) (s : State) : Host.Outcome State Fault Refusal :=
  .next (s.hubEach req 0x51 sel.toNat 0x000 (fun s l => s.laneCtl l value))

/-- AHNENT_TX_MULTIFRAME (R314-R316, R321): a multiframe start. MFN counts through idle; the protection lane sends what the
working lane sends (R323); PRBS31 takes the place of data with TX_PRBS. -/
def execAhnentTxMultiframe (lane : Fin 48) (s : State) : Host.Outcome State Fault Refusal :=
  let l := lane.val
  let st := s.txState l
  if s.quadProto (l / 4) ≠ 1 ∨ !s.quadReady (l / 4) then .next s
  else
    let x := s.ahn l
    let x1 : AhnLane := { x with idleIn := x.idleIn.map (· - 1) }
    let s := s.setAhn l x1
    let stop := x.idleIn == some 0
    let s := if stop then (s.setTxState l 4).setAhn l { (s.setTxState l 4).ahn l with idleIn := none } else s
    let s := if (st = 2 ∨ st = 3) ∧ !stop ∧ s.modes.mode ≠ .raising ∧ !s.bit Reg.LANE.PRBS_TX_PRBS l then
        (match s.protPair (l / 4) with
        | some (w, p) =>
          if l = p ∧ l ≠ w then s.setAhn l { s.ahn l with lastSent := (s.ahn w).lastSent, mfnTx := ((s.ahn w).mfnTx + 255) % 256 }
          else s.sendMultiframe l
        | none => s.sendMultiframe l)
      else s
    .next (s.setAhn l { s.ahn l with mfnTx := ((s.ahn l).mfnTx + 1) % 256 })

/-- AHNENT_RX_MULTIFRAME (R317): 32 blocks as the lane pins carried them; the lane's own with LOOPBACK. -/
def execAhnentRxMultiframe (lane : Fin 48) (blocks : List (BitVec 66)) (s : State) : Host.Outcome State Fault Refusal :=
  let l := lane.val
  let q := l / 4
  if s.quadProto q ≠ 1 ∨ !s.quadReady q then .next s
  else
    let s := match tget none s.lanes.switchTo q with
      | some b =>
        let s := { s with lanes := { s.lanes with switchTo := tset none s.lanes.switchTo q none } }
        let old := s.bit Reg.AHNENT.PROTECT_ACTIVE q
        let s := s.setFld Reg.AHNENT.PROTECT_ACTIVE q (b2n b)
        if old = b then s
        else s.post 0x52 q 0x003 1 (if b then s.fld Reg.AHNENT.PROTECT_PROT q else s.fld Reg.AHNENT.PROTECT_WORK q)
      | none => s
    .next (s.takeMultiframe l (if s.bit Reg.LANE.CTL_LOOPBACK l then (s.ahn l).lastSent else blocks))

/-- AHNENT_TRAIN_DONE (R320): TRAIN_US after TRAIN began, transmit or receive. In Raising a lane sends nothing but training (R54), so its
transmit side stays in TRAIN. -/
def execAhnentTrainDone (lane : Fin 48) (rx : Bool) (s : State) : Host.Outcome State Fault Refusal :=
  let l := lane.val
  let us := max 1 (s.fld Reg.AHNENT.TIMING_TRAIN_US (l / 4))
  let x := s.ahn l
  if rx then
    if s.rxState l = 1 ∧ us * 100 ≤ s.devclk.toNat - x.rxSince then
      let s := (s.setFld Reg.LANE.STATUS_SIGNAL l 1).setFld Reg.LANE.STATUS_CDR_LOCK l 1
      .next ((s.setAhn l { x with good := 0, bad := 0, syncRun := 0, syncHist := 0 }).setRxState l 2)
    else .next s
  else if s.txState l = 1 ∧ s.modes.mode ≠ .raising ∧ us * 100 ≤ s.devclk.toNat - x.txSince then
    .next (s.txBegin l (if s.rxState l = 3 ∨ s.rxState l = 4 then 3 else 2))
  else .next s

/-- AHNENT_ALIGN_TIMEOUT (R320): a direction not UP within RETRAIN_US of ALIGN trains again, each by its own time. -/
def execAhnentAlignTimeout (lane : Fin 48) (s : State) : Host.Outcome State Fault Refusal :=
  let l := lane.val
  let us := max 1 (s.fld Reg.AHNENT.TIMING_RETRAIN_US (l / 4))
  let due (since : Nat) : Bool := decide (us * 100 ≤ s.devclk.toNat - since)
  let rx := s.rxState l == 2 && due (s.ahn l).rxSince
  let tx := s.txState l == 2 && due (s.ahn l).txSince
  let s := if rx then s.setRxState l 1 else s
  .next (if tx then s.setTxState l 1 else s)

/-- IDLE_ENTER (R321): the conditions hold; IDLE_ENTER goes in the next header, idle begins two multiframes later. -/
def execIdleEnter (lane : Fin 48) (s : State) : Host.Outcome State Fault Refusal :=
  let l := lane.val
  let q := l / 4
  let x := s.ahn l
  let w := nsTc (max 1 (s.fld Reg.AHNENT.IDLE_CFG_IDLE_MIN q) * 100 + 64) + s.mfTc q (s.cwLead q + 2)
  if s.bit Reg.AHNENT.CTL_IDLE_EN q ∧ (s.txState l = 2 ∨ s.txState l = 3) ∧ x.idleIn = none ∧ !s.laneNeeds l w then
    .next (s.setAhn l { x with words := x.words ++ [⟨0, 5, 0, 1⟩], idleIn := some 2 })
  else .next s

/-- IDLE_EXIT (R321): a need within CW_LEAD_MF + 1 multiframes; one that is there already is late. In Witness a quad with IDLE_EN stays
idle (R55). -/
def execIdleExit (lane : Fin 48) (s : State) : Host.Outcome State Fault Refusal :=
  let l := lane.val
  let q := l / 4
  if s.txState l = 4 ∧ s.quadReady q ∧ !(s.actsAs == .witness && s.quietMode && s.bit Reg.AHNENT.CTL_IDLE_EN q) ∧ s.laneNeeds l (s.mfTc q (s.cwLead q + 1)) then
    let late := s.laneNeeds l 0
    let s := if late then s.addFld Reg.AHNENT.IDLE_LATE_COUNT q 1 else s
    .next (s.txBegin l 3)
  else .next s

/-- AHNENT_RX_IDLE (R322): the receiver finds electrical idle. -/
def execAhnentRxIdle (lane : Fin 48) (s : State) : Host.Outcome State Fault Refusal :=
  let l := lane.val
  if s.rxState l = 3 then
    if (s.ahn l).idleWarned ∧ s.bit Reg.AHNENT.CTL_RX_IDLE_OK (l / 4) then
      .next ((s.setAhn l { s.ahn l with idleWarned := false }).setRxState l 4)
    else .next (s.ahnLoss l false)
  else .next s

/-- A write of USER_CW, of a single instance (R319): the word is due in the next multiframe. -/
def State.userCw (s : State) (q : Nat) (v : Word) : State :=
  s.pushWord (4 * q + wordField v 1 0) ⟨wordField v 5 2, 6, 0, wordField v 31 16⟩

def execUserCw (req : Fin 14) (sel : BitVec 10) (value : Word) (s : State) : Host.Outcome State Fault Refusal :=
  if sel.toNat < 0x200 then .next (s.hubEach req 0x52 sel.toNat 0x00C (fun s q => s.userCw q value)) else .next s

/-- A write of PROTECT, of a single instance (R323): ACTIVE is taken at the next multiframe. -/
def State.protectWrite (s : State) (q : Nat) (v : Word) : State :=
  let act := s.fld Reg.AHNENT.PROTECT_ACTIVE q
  let s := s.storeReg 0x52 q 0x010 (putField v 17 17 act)
  if wordField v 17 17 = act then s
  else { s with lanes := { s.lanes with switchTo := tset none s.lanes.switchTo q (some (wordField v 17 17 == 1)) } }

def execAhnentActiveWrite (req : Fin 14) (sel : BitVec 10) (value : Word) (s : State) : Host.Outcome State Fault Refusal :=
  if sel.toNat < 0x200 then .next (s.hubEach req 0x52 sel.toNat 0x010 (fun s q => s.protectWrite q value)) else .next s

/-- The word a read of RX_CWl returns: the oldest received USER word, or VALID = 0. -/
def State.rxCwWord (s : State) (l : Nat) : Word :=
  match (s.ahn l).rxWords with
  | [] => 0
  | (st, a) :: _ => BitVec.ofNat 32 (1 + st * 16 + 2 ^ 16 * a)

/-- The read removes the entry it returns. -/
def State.rxCwPop (s : State) (l : Nat) : State := s.setAhn l { s.ahn l with rxWords := (s.ahn l).rxWords.drop 1 }

/-- RX_CW_READ (R319): single instances only. -/
def execRxCwRead (req : Fin 14) (sel : BitVec 10) (lane : Fin 4) (s : State) : Host.Outcome State Fault Refusal :=
  if sel.toNat < 0x200 then
    match s.readTarget 0x52 sel.toNat (0x070 + 4 * lane) with
    | some q => .next ((s.rxCwPop (4 * q + lane)).giveBack req (s.rxCwWord (4 * q + lane)))
    | none => .next (s.giveBack req 0)
  else .next (s.giveBack req 0)

/-- CDR_LOSS (R311): adaptation windows are discarded until lock returns; an Ahnent lane that was UP is lost. -/
def execCdrLoss (lane : Fin 48) (s : State) : Host.Outcome State Fault Refusal :=
  let l := lane.val
  if s.bit Reg.LANE.STATUS_CDR_LOCK l then
    let s := (s.setFld Reg.LANE.STATUS_CDR_LOCK l 0).post 0x51 l 0x001 2 0
    .next (if s.quadProto (l / 4) = 1 ∧ s.rxState l = 3 then s.ahnLoss l false else s)
  else .next s

end Sys2Proof.Machine
end

