-- ==== Sys2Proof/Machine/Memory.lean ====
section
/-! DEFINITION. The memory controllers' own steps: scrubbing (R295, R296), live repair (R299), retirement and evacuation
(R300, R301), checker test windows (R302), and the clearing of counts and erasure marks. -/
namespace Sys2Proof.Machine

/-! ## Scrubbing -/

/-- First stored place and length of scrubber `n`'s memory: TREASURY banks 0-15, Courses 16-39 (the Course store and the
eight cores' windows), BULK channels 40-43 with their reserve pool. -/
def State.scrubRange (s : State) (n : Nat) : List (Nat × Nat) :=
  if n < 16 then [(n * 0x400000, 0x400000)]
  else if n < 40 then
    (0x40000000 + (n - 16) * 0x400000, 0x400000) ::
    (List.range 8).flatMap (fun k =>
      let b := 0x60000000 + (8 * (n - 16) + k) * 0x100000
      [(b, 0x30000), (b + 0x80000, 0x10000)])
  else [(2 ^ 40 + 2 ^ 37 * (n - 40), 2 ^ 20 * (s.fld Reg.BULK.CAPACITY_MB (n - 40) + 1))]

/-- Words of a list of ranges, and the place of word `i`. -/
def rangeWords (l : List (Nat × Nat)) : Nat := (l.map (fun r => r.2 / 16)).sum

def rangePlace : List (Nat × Nat) → Nat → Nat
  | [], _ => 0
  | r :: t, i => if i < r.2 / 16 then r.1 + 16 * i else rangePlace t (i - r.2 / 16)

/-- Class, instance and SCRUB_STATUS offset of a scrubber's memory. -/
def scrubUnit (n : Nat) : Nat × Nat × Nat :=
  if n < 16 then (0x48, n, 0x048) else if n < 40 then (0x10, n - 16, 0x148) else (0x49, n - 40, 0x048)

/-- Whether a scrubber runs: SCRUB_PERIOD not 0, its memory powered, not in Banked (R296). -/
def State.scrubOn (s : State) (n : Nat) : Bool :=
  let (cls, i, off) := scrubUnit n
  wordField (s.reg cls i (off - 8)) 15 0 != 0 && s.running cls i && s.modes.mode != .banked &&
  (n < 40 || s.bit Reg.BULK.STATUS_FILLED (n - 40))

/-- The stored place a test window names: a TREASURY or COURSE address, a channel-local BULK address, taken modulo the
memory from its base when it lies outside; a retired page stands in its reserve page (R300). -/
def State.testPlace (s : State) (cls i : Nat) : Nat :=
  let a := ((s.reg cls i 0x300).toNat + 2 ^ 32 * wordField (s.reg cls i 0x304) 7 0) / 16 * 16
  if cls = 0x48 then i * 0x400000 + a % 0x400000
  else if cls = 0x49 then
    let size := 2 ^ 20 * (s.fld Reg.BULK.CAPACITY_MB i)
    s.bulkKey i (if size = 0 then 0 else a % size)
  else
    match s.region a with
    | .sett c => if c / 8 = i then a else 0x40000000 + i * 0x400000 + a % 0x400000
    | .course n => if n = i then a else 0x40000000 + i * 0x400000 + a % 0x400000
    | _ => 0x40000000 + i * 0x400000 + a % 0x400000

/-- Whether the test window of a memory makes the scrubber skip a place (R302). -/
def State.scrubSkips (s : State) (n k : Nat) : Bool :=
  let (cls, i, _) := scrubUnit n
  wordField (s.reg cls i 0x31C) 8 8 == 1 && s.testPlace cls i == k

/-- SCRUB_READ (R295): a scrubber reads and decodes the next word of its pass, counting what it finds; a word to rewrite
is held until SCRUB_REWRITE. -/
def execScrubRead (scrubber : Fin 44) (s : State) : Host.Outcome State Fault Refusal :=
  let n := scrubber.val
  if !s.scrubOn n ∨ tget 0 s.memSys.scrubHeld n ≠ 0 then .next s
  else
    let r := s.scrubRange n
    let i := tget 0 s.memSys.scrubAt n
    let k := rangePlace r i
    let i' := if i + 1 < rangeWords r then i + 1 else 0
    let (cls, inst, off) := scrubUnit n
    let s := { s with memSys := { s.memSys with scrubAt := tset 0 s.memSys.scrubAt n i' } }
    let s := if i' = 0 then s.setReg cls inst off (s.reg cls inst off + 1) else s
    if s.scrubSkips n k then .next s
    else
      let (_, _, o, _) := s.decodeAt k
      let s := s.noteDecode k o
      match o with
      | .corrected _ | .uncorrectable =>
        .next { s with memSys := { s.memSys with
          scrubHeld := tset 0 s.memSys.scrubHeld n (k + 1), staleWrite := s.memSys.staleWrite.filter (· != k) } }
      | _ => .next s

/-- REWRITTEN of a word's spall entry (R297). -/
def State.spallRewritten (s : State) (k : Nat) : State :=
  let (m, a) := s.spallPlace k
  match s.memSys.spall.find? (fun p => p.2.st != 0 && p.2.memory == m && p.2.addr == a) with
  | some (n, e) => s.setSpall n { e with rewritten := true }
  | none => s

/-- SCRUB_REWRITE (R295, R296): a corrected word is rewritten corrected, an uncorrectable one as poison, unless a demand
write to the word came between. -/
def execScrubRewrite (scrubber : Fin 44) (s : State) : Host.Outcome State Fault Refusal :=
  let h := tget 0 s.memSys.scrubHeld scrubber
  if h = 0 then .next s
  else
    let k := h - 1
    let m := { s.memSys with
      scrubHeld := tset 0 s.memSys.scrubHeld scrubber 0, staleWrite := s.memSys.staleWrite.filter (· != k) }
    let stale := s.memSys.staleWrite.contains k
    let s := { s with memSys := m }
    if stale then .next s
    else
      let (_, _, o, d) := s.decodeAt k
      match o with
      | .corrected _ => .next ((s.storeWord k d false).spallRewritten k)
      | .uncorrectable => .next ((s.storeWord k d true).spallRewritten k)
      | _ => .next s

/-! ## Live repair (R299) -/

/-- REPAIRED (R299): a HARD on-chip entry's row, or its column line when another HARD entry of the bank lies in another row of the line,
is copied to a spare of the bank; with no such spare left the entry is UNREPAIRABLE. A core's bank does not freeze in a REP run. -/
def execRepaired (entry : Fin 256) (s : State) : Host.Outcome State Fault Refusal :=
  let e := s.spallAt entry
  let repRun := 2 ≤ e.memory && (tget Core.reset s.sett.cores ((e.addr - 0x60000000) / 0x100000)).rep.isSome
  if e.st = 2 ∧ e.memory < 4 ∧ s.bit Reg.SPALL.CTL_AUTO_REPAIR 0 ∧ repRun = false then
    let column := s.memSys.spall.any (fun p => p.1 != entry.val && p.2.st == 2 && p.2.memory < 4 && sameBank p.2.addr e.addr &&
      p.2.column == e.column && p.2.addr / 4096 != e.addr / 4096)
    if s.spareLeft e.addr column then
      let s := (s.takeSpare e.addr column).copySpare e.addr e.column column
      .next (((s.setSpall entry { e with st := 3 }).syncSpall).post 0x4A 0 0x002 0 (entry.val + 256 * b2n column))
    else .next (((s.setSpall entry { e with st := 5 }).syncSpall).post 0x4A 0 0x003 2 entry.val)
  else .next s

/-! ## Test windows (R302) -/

/-- Data words 0-3 of a list of 16 bytes into TEST_DATA. -/
def State.setTestData (s : State) (cls i : Nat) (d : List Byte) : State :=
  (List.range 4).foldl (fun s k => s.setReg cls i (0x308 + 4 * k) (BitVec.ofNat 32 (leNat ((d.drop (4 * k)).take 4)))) s

/-- OP 1: the stored 160 bits, neither decoded nor counted. -/
def State.rawRead (s : State) (cls i : Nat) : State :=
  let k := s.testPlace cls i
  (s.setTestData cls i (s.wordAt k)).setReg cls i 0x318 (BitVec.ofNat 32 (leNat (s.checkAt k)))

/-- OP 2: 160 bits stored exactly as written. -/
def State.rawWrite (s : State) (cls i : Nat) : State :=
  let k := s.testPlace cls i
  let d := (List.range 4).flatMap (fun j => leBytes 4 (s.reg cls i (0x308 + 4 * j)).toNat)
  { s with
    mem := mwrites s.mem k d
    chk := mwrites s.chk (k / 4) (leBytes 4 (s.reg cls i 0x318).toNat) }

/-- Outcome codes of TEST_RESULT. -/
def Decoded.code : Decoded → Nat
  | .clean => 0 | .corrected _ => 1 | .uncorrectable => 2 | .poison => 3

/-- OP 3: the word decoded as a demand read, counted, with its outcome and syndromes. -/
def State.decodedRead (s : State) (cls i : Nat) : State :=
  let k := s.testPlace cls i
  let (p, q, o, d) := s.decodeAt k
  let s := s.noteDecode k o
  let s := s.setTestData cls i d
  let col := match o with
    | .corrected c => c
    | _ => 0
  let s := s.setReg cls i 0x320 (BitVec.ofNat 32 (o.code + col * 8))
  s.setReg cls i 0x324 (BitVec.ofNat 32 (p.1 + p.2 * 2 ^ 8 + 2 ^ 16 * q.1 + 2 ^ 24 * q.2))

/-- A write of TEST_CTL: SCRUB_SKIP stored, one access started. -/
def State.testOp (s : State) (cls i op : Nat) (skip : Bool) : State :=
  let s := s.setReg cls i 0x31C (BitVec.ofNat 32 (256 * b2n skip))
  if op = 1 then s.rawRead cls i else if op = 2 then s.rawWrite cls i else if op = 3 then s.decodedRead cls i else s

/-- Whether a class has a test window, which takes single selectors only. -/
def hasTest (cls sel : Nat) : Bool := (cls == 0x48 || cls == 0x10 || cls == 0x49) && decide (sel < 0x200)

/-- RAW_READ (R302). -/
def execRawRead (req : Fin 14) (cls : BitVec 8) (sel : BitVec 10) (skip : Bool) (s : State) :
    Host.Outcome State Fault Refusal :=
  if hasTest cls.toNat sel.toNat then .next (s.hubEach req cls.toNat sel.toNat 0x31C (fun s i => s.testOp cls.toNat i 1 skip))
  else .next s

/-- RAW_WRITE (R302). -/
def execRawWrite (req : Fin 14) (cls : BitVec 8) (sel : BitVec 10) (skip : Bool) (s : State) :
    Host.Outcome State Fault Refusal :=
  if hasTest cls.toNat sel.toNat then .next (s.hubEach req cls.toNat sel.toNat 0x31C (fun s i => s.testOp cls.toNat i 2 skip))
  else .next s

/-- DECODED_READ (R302). -/
def execDecodedRead (req : Fin 14) (cls : BitVec 8) (sel : BitVec 10) (skip : Bool) (s : State) :
    Host.Outcome State Fault Refusal :=
  if hasTest cls.toNat sel.toNat then .next (s.hubEach req cls.toNat sel.toNat 0x31C (fun s i => s.testOp cls.toNat i 3 skip))
  else .next s

/-- The memory a class and instance hold, as its controller's registers place it. -/
def memUnit (cls i : Nat) : MemUnit :=
  if cls = 0x49 then ⟨0x49, i, 0, 0x00C, 0x010, 0x014, 3⟩
  else if cls = 0x48 then ⟨0x48, i, 0, 0x008, 0x00C, 0x010, 0⟩
  else ⟨0x10, i, 0x100, 0x108, 0x10C, 0x110, 0⟩

/-- Offset of a memory's CLEAR register. -/
def clearOff (cls : Nat) : Nat := if cls = 0x49 then 0x03C else if cls = 0x48 then 0x038 else 0x138

/-- CE_COUNT, UE_COUNT and COL_CE0-9 to 0. -/
def State.clrCounts (s : State) (cls i : Nat) : State :=
  let m := memUnit cls i
  let s := (s.setReg cls i m.ce 0).setReg cls i m.ue 0
  (List.range 10).foldl (fun s k => s.setReg cls i (m.col + 4 * k) 0) s

/-- The erasure mark cleared (R290). -/
def State.clrErase (s : State) (cls i : Nat) : State :=
  let m := memUnit cls i
  let w := s.reg cls i m.st
  s.setReg cls i m.st (putField (putField w m.stErased m.stErased 0) (m.stErased + 4) (m.stErased + 1) 0)

def isMemCls (cls : Nat) : Bool := cls == 0x48 || cls == 0x10 || cls == 0x49

/-- CLR_COUNTS (R302). -/
def execClrCounts (req : Fin 14) (cls : BitVec 8) (sel : BitVec 10) (s : State) : Host.Outcome State Fault Refusal :=
  if isMemCls cls.toNat then
    .next (s.hubEach req cls.toNat sel.toNat (clearOff cls.toNat) (fun s i => s.clrCounts cls.toNat i))
  else .next s

/-- CLR_ERASE (R290). -/
def execClrErase (req : Fin 14) (cls : BitVec 8) (sel : BitVec 10) (s : State) : Host.Outcome State Fault Refusal :=
  if isMemCls cls.toNat then
    .next (s.hubEach req cls.toNat sel.toNat (clearOff cls.toNat) (fun s i => s.clrErase cls.toNat i))
  else .next s

/-! ## Retirement and evacuation (R300, R301) -/

/-- Capacity below which bulk addresses are mapped, for a MODE and MAP (R286). -/
def State.ilvCapacity (s : State) (mode map : Nat) : Nat :=
  let n := ilvChannels mode
  let caps := (List.range n).map (fun k => s.fld Reg.BULK.CAPACITY_MB (map / 4 ^ k % 4))
  2 ^ 20 * (n * (caps.foldl min (caps.headD 0)))

/-- MAP of ascending channels. -/
def packMap : List Nat → Nat
  | [] => 0
  | c :: r => c + 4 * packMap r

/-- MIG_PTR shown in every BULK instance. -/
def State.setMigPtr (s : State) (p : Nat) : State :=
  let s := { s with memSys := { s.memSys with migPtr := p } }
  s.setPair Reg.BULK.MIG_PTR_LO_ADDR_LO Reg.BULK.MIG_PTR_HI_ADDR_HI 0 (bulkBase + p)

/-- CHANNEL_EVACUATE's start (R301): the next MODE without the channel, the capacity falls at once, the old map stays in
force below MIG_PTR. A channel already being evacuated resumes; evacuating the last channel leaves no capacity. -/
def State.startEvacuation (s : State) (c : Nat) : State :=
  if s.memSys.evacCh = some c ∧ s.memSys.ilvOld.isSome then s
  else
    let mode := s.fld Reg.BULK.ILV_MODE 0
    let map := s.fld Reg.BULK.ILV_MAP 0
    let chans := ((List.range (ilvChannels mode)).map (fun k => map / 4 ^ k % 4))
    let rest := chans.filter (· != c)
    if rest.isEmpty then
      let s := { s with memSys := { s.memSys with capacity := 0, evacCh := some c, ilvOld := none } }
      s.setMigPtr 0
    else
      let mode' := if chans.contains c then mode + 1 else mode
      let map' := packMap rest
      let cap := min s.memSys.capacity (s.ilvCapacity mode' map')
      let s := { s with memSys := { s.memSys with ilvOld := some (mode, map), capacity := cap, evacCh := some c } }
      let s := ((s.setFld Reg.BULK.ILV_MODE 0 mode').setFld Reg.BULK.ILV_MAP 0 map').setFld Reg.BULK.ILV_SPLIT 0 1
      s.setMigPtr cap

/-- One 4 KB page below MIG_PTR moved to its place under the new map; MIG_PTR falls by a page (R301). -/
def State.movePage (s : State) : State :=
  let p := s.memSys.migPtr - 4096
  let old := (List.range 256).map (fun w =>
    let (_, _, o, d) := s.decodeAt (s.memKey (bulkBase + p + 16 * w))
    (d, o.bad))
  let s := s.setMigPtr p
  (List.range 256).foldl (fun s w =>
    let x := old.getD w ([], false)
    s.storeWord (s.memKey (bulkBase + p + 16 * w)) x.1 x.2) s

end Sys2Proof.Machine
end

