-- ==== Sys2Proof/Machine/Mortar.lean ====
section
/-! DEFINITION. Mortar's steps: injection, the way over the mesh, responses, replay and detour, fences, epochs and router
reconfiguration (R238-R262). What a target does with a request stands in `Mesh.lean`. -/
namespace Sys2Proof.Machine

/-! ## Transactions (R241, R248-R251, R260) -/

def State.setTxns (s : State) (l : List Txn) : State := { s with mortar := { s.mortar with txns := l } }

/-- Transactions outstanding at an NI. -/
def State.niTxns (s : State) (ni : Nat) : List Txn := s.mortar.txns.filter (fun t => t.ni == ni)

/-- Whether a pair is held (R250): transactions toward the destination still outstanding under the other epoch. -/
def State.pairHeld (s : State) (ni dest : Nat) : Bool :=
  s.bit Reg.MORTAR_NI.CTL_PAIR_HOLD_EN ni &&
  (s.niTxns ni).any (fun t => t.dest == dest && t.epoch != s.epochOf ni)

/-- The port of a requester of an NI, none where the NI has no such requester (R142, R239). -/
def niPort (ni req : Nat) : Option Nat :=
  if ni < 24 then (if req ≤ 8 then some 0 else none)
  else if ni < 32 then (if req ≤ 4 then some 0 else none)
  else if ni < 48 then none
  else if ni < 52 then (if req ≤ 1 then some req else none)
  else if ni < 56 then (if req = 0 then some 0 else none)
  else if ni < 58 then (if req ≤ 1 ∨ req = 2 ∧ ni = 56 then some 0 else none)
  else if ni < 62 then (if req ≤ 1 then some req else none)
  else if ni = 62 then (if req ≤ 7 then some 0 else if req = 8 then some 2 else none)
  else if req ≤ 1 then some 0
  else if req = 2 then some 1
  else none

/-- The next TXN of a source port: values count up and skip those in use (R241). -/
def State.nextTxn (s : State) (ni port : Nat) : Option Nat :=
  let base := tget 0 s.mortar.nextTxns (ni * 4 + port)
  ((List.range 1024).map (fun i => (base + i) % 1024)).find? (fun n =>
    !s.mortar.txns.any (fun t => t.ni == ni && t.port == port && t.txn == n))

/-- Whether a request carries write data (R241, R242): WRITE and WRITE_PARTIAL, and LOCKED or MESSAGE where data come with it. -/
def reqWrites (q : NiReq) : Bool := q.op == 1 || q.op == 2 || (decide (3 ≤ q.op.toNat) && !q.data.isEmpty)

/-- CLASS of a request toward an address (R242). -/
def State.classOf (s : State) (q : NiReq) : Nat :=
  if q.op = 4 then 1 else if q.op = 3 then 3 else if s.region q.addr.toNat = .csr then 2 else 0

/-- What an NI does with a waiting request: it completes here with a STATUS, its pair is held, its port has no TXN left, or it goes to a
destination port with a TXN. -/
inductive NiVerdict
  | here (status : Nat)
  | held
  | full
  | go (dest txn : Nat)
deriving DecidableEq, Repr

/-- R240, R241, R245, R250, R255: an unmapped address or an invalid entry of the planes the request takes is DECODE_ERROR, a fenced
destination or a drained port FENCED, a pair outstanding under the other epoch held. -/
def State.niVerdict (s : State) (ni port : Nat) (q : NiReq) : NiVerdict :=
  match s.destOf q.addr.toNat with
  | none => .here 1
  | some d =>
    if s.region q.addr.toNat = .csr ∧ !reachesAll ni port then .here 1
    else if (s.port (ni * 4 + port)).drained ∨ s.niFenced ni d then .here 2
    else if (s.entry ni 0 (d / 4)).invalid ∨ (reqWrites q ∧ (s.entry ni 2 (d / 4)).invalid) then .here 1
    else if s.pairHeld ni d then .held
    else match s.nextTxn ni port with
      | none => .full
      | some n => .go d n

/-- The request of a requester that comes first at an NI's arbiter. -/
def State.niHead (s : State) (ni req : Nat) : Option NiReq := (tget [] s.mortar.waiting ni).find? (fun q => q.req.val == req)

/-- MORTAR_NI.STATUS follows the outstanding transactions and the requests held (R250). -/
def State.syncNi (s : State) (ni : Nat) : State :=
  let l := s.niTxns ni
  let held := (List.range 15).any (fun k => match s.niHead ni k with
    | some q => s.niVerdict ni ((niPort ni k).getD 0) q == .held
    | none => false)
  let s := s.setFld Reg.MORTAR_NI.STATUS_OUTSTANDING ni l.length
  let s := s.setFld Reg.MORTAR_NI.STATUS_HOLDING ni (b2n held)
  s.setFld Reg.MORTAR_NI.STATUS_OLD_CLEAR ni (b2n (l.all (fun t => t.epoch == s.epochOf ni)))

/-- The count of STAT_CFG at NI, requester and plane: n = 2 plane for bytes injected, 2 plane + 1 for bytes ejected. -/
def byteKey (ni req n : Nat) : Nat := ni * 256 + req * 16 + n

/-- Bytes counted for a requester on a plane (R260), modulo 2^48. -/
def State.countBytes (s : State) (ni req n b : Nat) : State :=
  let k := byteKey ni req n
  { s with mortar := { s.mortar with bytes := tset 0 s.mortar.bytes k ((tget 0 s.mortar.bytes k + b) % 2 ^ 48) } }

/-- Status and data of a completed request, for its requester. -/
def State.giveResult (s : State) (ni req status : Nat) (data : List (Byte × Bool)) : State :=
  { s with mortar := { s.mortar with results := tset (0, []) s.mortar.results (16 * ni + req) (status, data) } }

/-- The data flits of some words, two to a flit, INDEX from `i` on (R238, R243). -/
def dataFlits (i : Nat) : Nat → List (List (Byte × Bool)) → List Load
  | 0, _ => []
  | n + 1, l => if l.isEmpty then [] else .data i (l.take 2) (decide (l.length ≤ 2)) :: dataFlits (i + 1) n (l.drop 2)

/-- Words sent on the data plane by an NI toward a destination. -/
def State.sendData (s : State) (ni vc src dest txn : Nat) (words : List (List (Byte × Bool))) : State :=
  (dataFlits 0 16 words).foldl (fun s d => s.sendFlit ni 2 vc src dest txn d) s

/-- The words of a request's write data: LEN of them, one for WRITE_PARTIAL. -/
def reqWords (q : NiReq) : List (List (Byte × Bool)) :=
  let n := if q.op = 2 then 1 else if q.len = 0 then 32 else q.len.toNat
  if reqWrites q then (chunks 16 n (q.data ++ List.replicate (16 * n - q.data.length) (0, false))).take n else []

/-- A granted request leaves (R241, R245, R249): it is outstanding from now on, its header goes out on the request plane, its data
after it on the data plane. -/
def State.niSend (s : State) (ni port : Nat) (q : NiReq) (d n : Nat) : State :=
  let s := { s with mortar := { s.mortar with
    txns := s.mortar.txns ++ [(⟨ni, port, n, d, s.epochOf ni, q.req.val⟩ : Txn)]
    nextTxns := tset 0 s.mortar.nextTxns (ni * 4 + port) ((n + 1) % 1024) } }
  let c := s.classOf q
  let s := s.sendFlit ni 0 c (4 * ni + port) d n (.request c q.op.toNat q.len.toNat q.size.toNat q.addr.toNat)
  let s := s.countBytes ni q.req 0 16
  let w := reqWords q
  if w.isEmpty then s else (s.sendData ni 0 (4 * ni + port) d n w).countBytes ni q.req 4 (16 * w.length)

/-- The requester that an NI's arbiter grants (R249, R29): held and stalled ones wait. -/
def State.niTurn (s : State) (ni : Nat) : Option (Nat × NiReq) :=
  (rrPick 16 (tget 15 s.mortar.lastInj ni) (fun k => match s.niHead ni k, niPort ni k with
    | some q, some p => match s.niVerdict ni p q with
      | .here _ | .go _ _ => true
      | _ => false
    | _, _ => false)).bind (fun k => (s.niHead ni k).map (fun q => (k, q)))

/-- Requests reach the arbiter of an NI; only its own requesters make any. -/
def State.niArrive (s : State) (ni : Nat) (l : List NiReq) : State :=
  let mine := l.filter (fun q => (niPort ni q.req).isSome)
  { s with mortar := { s.mortar with waiting := tset [] s.mortar.waiting ni (tget [] s.mortar.waiting ni ++ mine) } }

/-- The grant of a waiting request. -/
def State.niGrant (s : State) (ni k : Nat) (q : NiReq) : State :=
  let port := (niPort ni k).getD 0
  let v := s.niVerdict ni port q
  let s := { s with mortar := { s.mortar with
    waiting := tset [] s.mortar.waiting ni ((tget [] s.mortar.waiting ni).erase q)
    lastInj := tset 15 s.mortar.lastInj ni k } }
  match v with
  | .here st => s.giveResult ni k st []
  | .go d n => s.niSend ni port q d n
  | _ => s

/-- NI_INJECT (R249): a request, of LEN and SIZE `len`, or with `req` none no new one, reaches an NI's arbiter, and it grants one of those
that wait; with `more` another one reaches it before it does. -/
def execNiInject (ni : Fin 64) (req : Option (Fin 15)) (more : Bool) (op : BitVec 3) (len : BitVec 5 × BitVec 3) (addr : BitVec 40)
    (data : List (Byte × Bool)) (s : State) : Host.Outcome State Fault Refusal :=
  let s := s.niArrive ni (req.toList.map (fun r => ⟨r, op, len.1, len.2, addr, data⟩))
  match if more then none else s.niTurn ni with
  | none => .next (s.syncNi ni)
  | some (k, q) => .next ((s.niGrant ni k q).syncNi ni)

/-- An update of an NI's table, fences or epoch passes the arbiter as requester 15 (R249). -/
def State.niUpdate (s : State) (ni : Nat) : State :=
  { s with mortar := { s.mortar with lastInj := tset 15 s.mortar.lastInj ni 15 } }

/-! ## Ends of transactions and drains (R251, R255, R256) -/

/-- Whether an NI has transactions outstanding toward a destination. -/
def State.towards (s : State) (ni d : Nat) : Bool := (s.niTxns ni).any (fun t => t.dest == d)

/-- Whether a port's own unit still has transactions outstanding. -/
def State.ownTxns (s : State) (d : Nat) : Bool := (s.niTxns (d / 4)).any (fun t => t.port == d % 4)

/-- A fenced NI with nothing outstanding toward a draining port sends its DRAIN_DONE, once (R255 step 3). -/
def State.drainReport (s : State) (ni d : Nat) : State :=
  let p := s.port d
  if p.draining ∧ s.niFenced ni d ∧ !s.towards ni d ∧ !p.sentFrom.contains ni then
    let s := (s.setPort d { p with sentFrom := p.sentFrom ++ [ni] }).sendFlit ni 3 1 (4 * ni) d 0 (.snoop 10 (d + 2 ^ 8 * ni))
    (s.niUpdate ni).countBytes ni 15 6 16
  else s

/-- A port that drains is DRAINED once it holds 64 DRAIN_DONEs and has no transaction of its own left (R255 step 4); a FORCE_DRAIN under
way ends it its own way. -/
def State.drainSettle (s : State) (d : Nat) : State :=
  let p := s.port d
  if p.draining ∧ p.doneFrom.length = 64 ∧ !s.ownTxns d ∧ (tfind s.mortar.forcing d).isNone then
    ((s.setPort d { p with draining := false, drained := true }).post 0x38 (d / 4) 0x001 0 d).portDrained d
  else s

/-- A transaction ends at its source with a STATUS and its read data. -/
def State.endTxn (s : State) (t : Txn) (status : Nat) (data : List (Byte × Bool)) : State :=
  let s := (s.setTxns (s.mortar.txns.erase t)).giveResult t.ni t.req status data
  ((s.syncNi t.ni).drainReport t.ni t.dest).drainSettle (4 * t.ni + t.port)

/-! ## The mesh (R245, R246, R252, R259, R261) -/

/-- Whether two flits stand in one queue: one place, plane and VC. -/
def Flit.sameQueue (f g : Flit) : Bool := f.place == g.place && f.plane == g.plane && f.vc == g.vc

/-- The flits at the head of their queue, in the order they came. -/
def headFlits (l : List Flit) : List Flit := l.foldl (fun acc f => if acc.any f.sameQueue then acc else acc ++ [f]) []

/-- Where a flit goes next, with the hops that remain then (R245): into its own router, over the link of its next hop, or, with HOP = 0,
out to its NI; none where the link takes no flits. -/
def State.flitNext (s : State) (f : Flit) : Option (Place × List Nat) := match f.place with
  | .out ni => some (.buf (64 * f.plane + ni) 4, f.route)
  | .buf r _ => match f.route with
    | [] => some (.ejected (r % 64), [])
    | d :: l => if s.linkOpen r d then (farRouter r d).map (fun q => (.buf q (opposite d), l)) else none
  | .ejected _ => none

/-- Entries of a router's input buffer in use by a VC. -/
def State.occupied (s : State) (p : Place) (plane vc : Nat) : Nat :=
  ((s.mortar.flits.filter (fun f => f.place == p && f.plane == plane && f.vc == vc)).map Flit.size).sum

/-- Whether a flit can leave (R246, R259): it holds a credit at a router in service; an NI takes what is ejected to it. -/
def State.mayMove (s : State) (f : Flit) : Bool := match s.flitNext f with
  | some (.buf r i, _) =>
    s.bit Reg.ROUTER.CTL_IN_SERVICE r && decide (s.occupied (.buf r i) f.plane f.vc + f.size ≤ s.credits r f.vc)
  | some _ => true
  | none => false

/-- Number of the input a flit stands at, of the output it asks for. -/
def Flit.inKey (f : Flit) : Nat := match f.place with
  | .buf r i => 8 * r + i
  | .out ni => 8 * (64 * f.plane + ni) + 5
  | .ejected _ => 0

def Flit.outKey (f : Flit) : Nat := match f.place with
  | .buf r _ => 8 * r + (f.route.headD 4)
  | _ => f.inKey

/-- The flits that move in one MESH cycle (R246): each input offers one VC of those that can leave, each output takes one input, both by
R29. -/
def State.movers (s : State) : List Flit :=
  let can := (headFlits s.mortar.flits).filter s.mayMove
  let offers := can.filter (fun f =>
    rrPick 4 (tget 3 s.mortar.lastVc f.inKey) (fun v => can.any (fun g => g.inKey == f.inKey && g.vc == v)) == some f.vc)
  offers.filter (fun f => match f.place with
    | .buf _ i =>
      rrPick 5 (tget 4 s.mortar.lastIn f.outKey) (fun k => offers.any (fun g => g.outKey == f.outKey && g.inKey % 8 == k)) == some i
    | _ => true)

/-- A transaction that FORCE_DRAIN ends is answered FENCED (R256). -/
def State.forceAt (s : State) (ni d : Nat) : State :=
  let gone (t : Txn) : Bool := t.ni == ni && (t.dest == d || (ni == d / 4 && t.port == d % 4))
  let l := s.mortar.txns.filter gone
  let s := (l.foldl (fun s t => s.endTxn t 2 []) s).niUpdate ni
  { s with mortar := { s.mortar with forcing := s.mortar.forcing.map (fun x => if x.1 = d then (x.1, x.2 + l.length) else x) } }

/-- A flit ejects (R245, R261): at the wrong NI a response or data flit is discarded and journalled, a management packet discarded; a
FORCE_DRAIN acts; the rest waits for its unit. -/
def State.eject (s : State) (ni : Nat) (f : Flit) : State :=
  match f.load with
  | .snoop 12 d => if f.dest / 4 = ni then s.forceAt ni d else s
  | .snoop _ _ => if f.dest / 4 = ni then s.setFlits (s.mortar.flits ++ [f]) else s
  | .request _ _ _ _ _ => s.setFlits (s.mortar.flits ++ [f])
  | _ => if f.dest / 4 = ni then s.setFlits (s.mortar.flits ++ [f]) else s.post 0x38 ni 0x004 2 (f.src + 2 ^ 8)

/-- A flit that has passed a link without an error ends the replays of that link (R251). -/
def State.linkPassed (s : State) (r d : Nat) : State :=
  let s := { s with mortar := { s.mortar with replays := tset 0 s.mortar.replays (4 * r + d) 0 } }
  if s.linkState r d = 1 then s.setLink r d 0 else s

/-- One flit moves. -/
def State.moveFlit (s : State) (f : Flit) : State :=
  match s.flitNext f with
  | none => s
  | some (p, l) =>
    let s := { s with mortar := { s.mortar with
      flits := s.mortar.flits.erase f
      lastVc := tset 3 s.mortar.lastVc f.inKey f.vc
      lastIn := match f.place with
        | .buf _ i => tset 4 s.mortar.lastIn f.outKey i
        | _ => s.mortar.lastIn } }
    let s := match f.place, f.route with
      | Place.buf r _, d :: _ => (s.countEvent 0x39 r 0x010 f.size).linkPassed r d
      | Place.buf r _, [] => s.countEvent 0x39 r 0x010 f.size
      | _, _ => s
    match p with
    | Place.buf r _ => s.setFlits (s.mortar.flits ++ [{ f with place := p, route := s.divert r 3 l }])
    | Place.ejected ni => s.eject ni { f with place := p, route := l }
    | Place.out _ => s

/-- The controller is free for its next request once NI 63 has sent its packets (R254). -/
def State.fcFinish (s : State) : State :=
  match s.mortar.fc with
  | none => s
  | some q =>
    if s.mortar.flits.any (fun f => f.place == .out 63 && f.load == .snoop q.kind.type q.dest) then s
    else State.fcAdvance { s with mortar := { s.mortar with fc := none } }

/-- A FORCE_DRAIN whose packets have all acted sets DRAINED and FORCED, unless the drain was abandoned (R256, R257). -/
def State.forceFinish (s : State) : State :=
  s.mortar.forcing.foldl (fun s x =>
    let d := x.1
    if !s.mortar.fc.any (fun q => q.kind == .force && q.dest == d) && !s.mortar.flits.any (fun f => f.load == .snoop 12 d) then
      let s := { s with mortar := { s.mortar with forcing := tdel s.mortar.forcing d } }
      let p := s.port d
      if p.draining then
        ((s.setPort d { p with draining := false, drained := true, forced := true }).post 0x38 (d / 4) 0x002 2
          (d + 2 ^ 16 * min 0xFFFF x.2)).portDrained d
      else s
    else s) s

/-- One MESH cycle: the flits that can move do. -/
def State.meshCycle (s : State) : State := ((s.movers.foldl State.moveFlit s).fcFinish).forceFinish

/-- Whether nothing in the network would change by itself. -/
def State.meshStill (s : State) : Bool := s.movers.isEmpty && s.mortar.fc.isNone && s.mortar.forcing.isEmpty

/-- MESH cycles until something asked for has come about, or nothing moves any more; at most `n`. -/
def State.meshRun (goal : State → Bool) : Nat → State → State
  | 0, s => s
  | n + 1, s => if goal s || s.meshStill then s else meshRun goal n s.meshCycle

/-- The network runs until something has come about. A command that says a packet has come to its end stands for the time this took:
DESIGN CHOICE, log entry 10. -/
def State.meshUntil (s : State) (goal : State → Bool) : State := State.meshRun goal (4096 + 64 * s.mortar.flits.length) s

/-- The first flit ejected at an NI that meets a condition. -/
def State.ejectedAt (s : State) (ni : Nat) (p : Flit → Bool) : Option Flit :=
  s.mortar.flits.find? (fun f => f.place == .ejected ni && p f)

def State.takeFlit (s : State) (f : Flit) : State := s.setFlits (s.mortar.flits.erase f)

/-! ## Responses and timeouts (R241, R243, R251) -/

/-- The data flits of a transaction that stand ejected at an NI, on a data VC. -/
def State.dataAt (s : State) (ni vc src dest txn : Nat) : List Flit :=
  s.mortar.flits.filter (fun f => f.place == .ejected ni && f.plane == 2 && f.vc == vc && f.src == src && f.dest == dest && f.txn == txn)

def Load.words : Load → List (List (Byte × Bool))
  | .data _ l _ => l
  | _ => []

def Load.index : Load → Nat
  | .data i _ _ => i
  | _ => 0

/-- The words of data flits by INDEX (R243). -/
def wordsInOrder (l : List Flit) : List (List (Byte × Bool)) :=
  (l.insertionSort (fun f g => f.load.index ≤ g.load.index)).flatMap (·.load.words)

/-- A response for a TXN of a port, ejected with all the words it counts. -/
def State.responseAt (s : State) (ni port txn : Nat) : Option (Flit × Nat × List Flit) :=
  let isOne (f : Flit) : Option (Nat × Nat) := match f.load with
    | .response st w => if f.dest == 4 * ni + port && f.txn == txn then some (st, w) else none
    | _ => none
  (s.ejectedAt ni (fun f => (isOne f).isSome)).bind (fun f =>
    match isOne f with
    | some (st, w) =>
      let l := s.dataAt ni 1 f.src f.dest txn
      if (wordsInOrder l).length < w then none else some (f, st, l)
    | none => none)

/-- Latency histogram: bin of `c` MESH cycles with U = 2^UNIT (R260). -/
def State.countLatency (s : State) (ni req c : Nat) : State :=
  let k := byteKey ni req (histBin (s.fld Reg.MORTAR_NI.STAT_CFG_UNIT ni) c)
  { s with mortar := { s.mortar with hist := tset 0 s.mortar.hist k (satAdd allOnes32 (tget 0 s.mortar.hist k) 1) } }

/-- RESPONSE_ARRIVE (R241): a response reaches its source with its read data and completes its transaction; one for a completed
transaction is discarded and counted in LATE_RESP (R251). -/
def execResponseArrive (ni : Fin 64) (port : Fin 4) (txn : BitVec 10) (latency : Nat) (s : State) :
    Host.Outcome State Fault Refusal :=
  let s := s.meshUntil (fun s => (s.responseAt ni port txn.toNat).isSome)
  match s.responseAt ni port txn.toNat with
  | none => .next s
  | some (f, st, l) =>
    let s := (l ++ [f]).foldl State.takeFlit s
    match s.mortar.txns.find? (fun t => t.ni == ni.val && t.port == port.val && t.txn == txn.toNat) with
    | none => .next (s.addFld Reg.MORTAR_NI.LATE_RESP_COUNT ni 1)
    | some t =>
      let data := (wordsInOrder l).flatten
      let s := s.countBytes ni t.req 3 16
      let s := if data.isEmpty then s else s.countBytes ni t.req 5 data.length
      .next ((s.countLatency ni t.req latency).endTxn t st data)

/-- TXN_TIMEOUT (R251): a transaction outstanding longer than TXN_LIMIT completes with TARGET_ERROR; a TXN_LIMIT of 0
disables it. What travels for it goes on its way. -/
def execTxnTimeout (ni : Fin 64) (port : Fin 4) (txn : BitVec 10) (s : State) : Host.Outcome State Fault Refusal :=
  match s.mortar.txns.find? (fun t => t.ni == ni.val && t.port == port.val && t.txn == txn.toNat) with
  | none => .next s
  | some t =>
    if s.fld Reg.MORTAR_NI.TXN_LIMIT_LIMIT ni = 0 then .next s
    else .next ((s.endTxn t 3 []).post 0x38 ni 0x005 2 (t.dest + t.txn * 2 ^ 8))

/-- The write data of a request goes with it: discarded where the request is (log entry 10). -/
def State.dropData (s : State) (f : Flit) : State :=
  s.setFlits (s.mortar.flits.filter (fun g => !(g.plane == 2 && g.vc == 0 && g.src == f.src && g.txn == f.txn && g.dest == f.dest)))

/-- A packet whose header parity is bad: discarded, journalled with its SRC, a parity fault handled at once (R251, R387, R393). -/
def State.badHeader (s : State) (ni : Nat) (f : Flit) : State :=
  let s := (((s.takeFlit f).dropData f).post 0x38 ni 0x004 2 f.src).reportFault 12 0x38 ni
  s.endRecovery 12 0x38 ni

/-! ## Replay and detour (R251, R252) -/

/-- LINK_REPLAY (R251): a flit that failed its link CRC, and those after it, stay with the upstream router to be sent again; replays are
counted, and in a row until a flit passes. -/
def execLinkReplay (router : Fin 256) (dir : Fin 4) (s : State) : Host.Outcome State Fault Refusal :=
  if s.linkState router dir = 2 ∨ s.linkState router dir = 3 then .next s
  else
    let k := 4 * router.val + dir.val
    let s := { s with mortar := { s.mortar with replays := tset 0 s.mortar.replays k (tget 0 s.mortar.replays k + 1) } }
    .next ((s.setLink router dir 1).addFld Reg.ROUTER.REPLAYS_COUNT router 1)

/-- The fault manager's LINK_DOWN of a failed link: what each NI is told (plane, position, direction). -/
def linkCode (plane pos d : Nat) : Nat := pos + d * 64 + plane * 256

/-- Every packet that waits at a router for a failed link is diverted (R252). -/
def State.divertAt (s : State) (r : Nat) : State :=
  s.setFlits (s.mortar.flits.map (fun f => match f.place with
    | .buf q _ => if q = r then { f with route := s.divert r 3 f.route } else f
    | _ => f))

/-- LINK_FAILED (R251, R252): after REPLAY_LIMIT consecutive failed replays (0 acts as 1) the link is FAILED in both directions on that
plane and waiting packets are diverted; the router reports it to the fault manager, which sends LINK_DOWN to every NI. A second failed
link on the plane is a double fault (R394). -/
def execLinkFailed (router : Fin 256) (dir : Fin 4) (s : State) : Host.Outcome State Fault Refusal :=
  if s.linkState router dir = 2 ∨ tget 0 s.mortar.replays (4 * router.val + dir.val) < max 1 (s.fld Reg.ROUTER.CTL_REPLAY_LIMIT router) then .next s
  else
    match farRouter router dir with
    | none => .next s
    | some far =>
      let plane := router.val / 64
      let dbl := (List.range 64).any (fun p => (List.range 4).any (fun d => s.linkState (64 * plane + p) d == 2))
      let s := (s.setLink router dir 2).setLink far (opposite dir) 2
      let s := { s with mortar := { s.mortar with
        replays := tset 0 (tset 0 s.mortar.replays (4 * router.val + dir.val) 0) (4 * far + opposite dir) 0
        training := s.mortar.training.filter (fun k => k != 4 * router.val + dir.val && k != 4 * far + opposite dir) } }
      let s := (s.divertAt router).divertAt far
      let s := (s.post 0x39 router 0x001 3 dir).reportFault 5 0x39 router dbl
      .next (s.sendAll 11 (linkCode plane (router.val % 64) dir))

/-- The rest of a route at its first use of a failed link (position `lp`, direction `ld`, or its other direction), with
the hop replaced and opposite pairs of the remaining route removed; a longer route keeps its first 20 hops. -/
def divertRoute (lp ld : Nat) : Nat → List Nat → Option (List Nat)
  | _, [] => none
  | p, d :: r =>
    if (p = lp ∧ d = ld) ∨ (meshStep p d = some lp ∧ d = opposite ld) then
      some (cancelPairs 12 (divertHop p d ++ r))
    else match meshStep p d with
      | some q => (divertRoute lp ld q r).map (d :: ·)
      | none => none

/-- A route entry after a detour, unchanged where it does not use the link. -/
def detourRoute (ni lp ld : Nat) (r : Route) : Route :=
  match divertRoute lp ld ni (routeHops r) with
  | some h =>
    let h := h.take 20
    checkedRoute ni ⟨BitVec.ofNat 40 (packHops h), BitVec.ofNat 5 h.length, false⟩
  | none => r

/-- The first management packet of a TYPE ejected at an NI, with its payload. -/
def State.snoopAt (s : State) (ni type : Nat) (p : Nat → Bool) : Option (Flit × Nat) :=
  (s.mortar.flits.findSome? (fun f => match f.place, f.load with
    | .ejected n, .snoop t v => if n = ni ∧ t = type ∧ p v then some (f, v) else none
    | _, _ => none))

/-- The network runs until an NI has such a packet; the NI takes it, 16 bytes of the management path (R260). -/
def State.takeSnoop (s : State) (ni type : Nat) (p : Nat → Bool) : Option Nat × State :=
  let s := s.meshUntil (fun s => (s.snoopAt ni type p).isSome)
  match s.snoopAt ni type p with
  | some (f, v) => (some v, ((s.takeFlit f).countBytes ni 15 7 16))
  | none => (none, s)

/-- NI_LINK_DOWN (R252): an NI receives the LINK_DOWN of a failed link and waits for OLD_CLEAR. -/
def execNiLinkDown (ni : Fin 64) (plane : Fin 4) (position : Fin 64) (dir : Fin 4) (s : State) :
    Host.Outcome State Fault Refusal :=
  let c := linkCode plane position dir
  match s.takeSnoop ni 11 (· == c) with
  | (some _, s) => .next { s with mortar := { s.mortar with detours := tset [] s.mortar.detours ni (tget [] s.mortar.detours ni ++ [c]) } }
  | (none, s) => .next s

/-- The inactive bank made a copy of the active one. -/
def State.copyBank (s : State) (ni : Nat) : State :=
  let b := s.fld Reg.MORTAR_NI.STATUS_EPOCH_CUR ni
  (List.range 256).foldl (fun s e => s.setRoute ni (1 - b) e (s.route ni b e)) s

/-- EPOCH_CUR inverted (R250). -/
def State.flipEpoch (s : State) (ni : Nat) : State :=
  ((s.setFld Reg.MORTAR_NI.STATUS_EPOCH_CUR ni (1 - s.fld Reg.MORTAR_NI.STATUS_EPOCH_CUR ni)).niUpdate ni).syncNi ni

/-- DETOUR (R252): with OLD_CLEAR the NI copies its bank, diverts the routes of that plane that use the link, and flips;
the last NI to flip posts DETOUR, and the recovery ends when no pair is held any more. -/
def execDetour (ni : Fin 64) (plane : Fin 4) (position : Fin 64) (dir : Fin 4) (s : State) :
    Host.Outcome State Fault Refusal :=
  let c := linkCode plane position dir
  let q := tget [] s.mortar.detours ni
  if q.contains c ∧ s.fld Reg.MORTAR_NI.STATUS_OLD_CLEAR ni = 1 then
    let s := s.copyBank ni
    let b := 1 - s.fld Reg.MORTAR_NI.STATUS_EPOCH_CUR ni
    let s := (List.range 64).foldl (fun s d =>
      let e := 64 * plane.val + d
      s.setRoute ni b e (detourRoute ni position dir (s.route ni b e))) s
    let s := s.flipEpoch ni
    let s := { s with mortar := { s.mortar with detours := tset [] s.mortar.detours ni (q.erase c) } }
    let left := (List.range 64).any (fun n => (tget [] s.mortar.detours n).contains c) || s.mortar.flits.any (fun f => f.load == .snoop 11 c)
    .next (if left then s else
      let s := s.post 0x38 ni 0x003 1 c
      match s.faults.recoveries.find? (fun r => r.code == 5 && r.inst / 64 == plane.val) with
      | some r => s.recovered r
      | none => s)
  else .next s

/-! ## Fences (R254-R257) -/

/-- FENCE_REQ (R254): a write of FENCE_REQ.FENCE requests a fence of one port of the NI, joined to one under way. -/
def execFenceReq (req : Fin 14) (ni : Fin 64) (port : BitVec 2) (s : State) : Host.Outcome State Fault Refusal :=
  .next (s.hubEach req 0x38 ni.val 0x040 (fun s i => s.askFence 2 (4 * i + port.toNat)))

/-- UNFENCE through FENCE_REQ (R257): only a fence that FENCE_REQ alone made is lifted or, while it drains, abandoned. -/
def State.reqUnfence (s : State) (d : Nat) : State :=
  if s.fencersOf d = [2] then s.askUnfence 2 d else s

/-- UNFENCE_REQ (R257): a write of FENCE_REQ.UNFENCE. -/
def execUnfenceReq (req : Fin 14) (ni : Fin 64) (port : BitVec 2) (s : State) : Host.Outcome State Fault Refusal :=
  .next (s.hubEach req 0x38 ni.val 0x040 (fun s i => s.reqUnfence (4 * i + port.toNat)))

/-- NI_FENCE (R255 steps 2-3): an NI receives a FENCE, sets its bit, and reports at once when nothing is outstanding toward the port. -/
def execNiFence (ni : Fin 64) (s : State) : Host.Outcome State Fault Refusal :=
  match s.takeSnoop ni 8 (fun _ => true) with
  | (some d, s) => .next (((s.setNiFence ni d true).niUpdate ni).drainReport ni d)
  | (none, s) => .next s

/-- DRAIN_DONE (R255 step 4): the port's NI receives the DRAIN_DONE of an NI; at 64 with its own transactions done the port is
DRAINED. One that comes to a port that drains no more has no effect. -/
def execDrainDone (dest : BitVec 8) (ni : Fin 64) (s : State) : Host.Outcome State Fault Refusal :=
  let d := dest.toNat
  match s.takeSnoop (d / 4) 10 (· == d + 2 ^ 8 * ni.val) with
  | (none, s) => .next s
  | (some _, s) =>
    let p := s.port d
    if p.draining then
      let l := if p.doneFrom.contains ni.val then p.doneFrom else p.doneFrom ++ [ni.val]
      .next ((s.setPort d { p with doneFrom := l }).drainSettle d)
    else .next s

/-- FORCE_DRAIN (R256): DRAIN_LIMIT expires with a drain open: the controller is asked for FORCE_DRAIN in its turn (R254), and its
packets go out until every NI has ended its transactions toward the port and those of the port itself with FENCED. -/
def execForceDrain (dest : BitVec 8) (s : State) : Host.Outcome State Fault Refusal :=
  let d := dest.toNat
  if (s.port d).draining then
    let asked := (tfind s.mortar.forcing d).isSome || s.mortar.fcQueue.any (fun q => q.kind == .force && q.dest == d)
    let s := if asked then s else s.fcAsk ⟨(s.fencersOf d).headD 0, .force, d⟩
    .next (s.meshUntil (fun s => !(s.port d).draining))
  else .next s

/-- NI_UNFENCE (R257): an NI receives an UNFENCE and clears its bit; after the last the port stands open, unless it is fenced anew. -/
def execNiUnfence (ni : Fin 64) (s : State) : Host.Outcome State Fault Refusal :=
  match s.takeSnoop ni 9 (fun _ => true) with
  | (some d, s) =>
    let s := (s.setNiFence ni d false).niUpdate ni
    let last := !s.mortar.flits.any (fun f => f.load == .snoop 9 d) && (s.fencersOf d).isEmpty
    let stale (f : Flit) : Bool := match f.load with
      | .snoop 10 v => v % 256 == d
      | _ => false
    .next (if last then (s.setFlits (s.mortar.flits.filter (fun f => !stale f))).setPort d Port.reset else s)
  | (none, s) => .next s

/-! ## Epochs, banks, routers (R250, R258-R260) -/

/-- EPOCH_FLIP (R250): a write of CTL.EPOCH_FLIP. -/
def execEpochFlip (req : Fin 14) (sel : BitVec 10) (s : State) : Host.Outcome State Fault Refusal :=
  .next (s.hubEach req 0x38 sel.toNat 0x000 State.flipEpoch)

/-- The copy of the active bank starts, through requester 15. -/
def State.startCopy (s : State) (ni : Nat) : State := (s.setFld Reg.MORTAR_NI.STATUS_COPY_BUSY ni 1).niUpdate ni

/-- COPY (R258): a write of CTL.COPY starts the copy, 256 MESH cycles long. -/
def execCopy (req : Fin 14) (sel : BitVec 10) (s : State) : Host.Outcome State Fault Refusal :=
  .next (s.hubEach req 0x38 sel.toNat 0x000 State.startCopy)

/-- COPY_DONE (R258): the copy ends. -/
def execCopyDone (ni : Fin 64) (s : State) : Host.Outcome State Fault Refusal :=
  if s.bit Reg.MORTAR_NI.STATUS_COPY_BUSY ni then
    .next ((s.copyBank ni).setFld Reg.MORTAR_NI.STATUS_COPY_BUSY ni 0)
  else .next s

/-- ROUTE_SEL's bank and entry: bank 0 is the active one. -/
def State.routeSel (s : State) (ni : Nat) : Nat × Nat :=
  let cur := s.fld Reg.MORTAR_NI.STATUS_EPOCH_CUR ni
  (if s.bit Reg.MORTAR_NI.ROUTE_SEL_BANK ni then 1 - cur else cur, s.fld Reg.MORTAR_NI.ROUTE_SEL_ENTRY ni)

/-- A write of ROUTE_HI stores the requester's held ROUTE_LO with it (R250, R245). -/
def State.writeRouteHi (s : State) (req ni : Nat) (v : Word) : State :=
  let (b, e) := s.routeSel ni
  let lo := (s.heldFor req 0x38 ni 0x00C).toNat
  (s.setRoute ni b e (checkedRoute ni ⟨BitVec.ofNat 40 (lo + 2 ^ 32 * wordField v 7 0), BitVec.ofNat 5 (wordField v 12 8), false⟩)).niUpdate ni

/-- ROUTE_HI_WRITE (R250). -/
def execRouteHiWrite (req : Fin 14) (sel : BitVec 10) (value : Word) (s : State) : Host.Outcome State Fault Refusal :=
  .next (s.hubEach req 0x38 sel.toNat 0x010 (fun s i => s.writeRouteHi req i value))

/-- LINK_STATUS after LINK_EN applies: a disabled direction shows 3; one enabled again retrains, shown replaying until its test flits
end. -/
def State.applyLinkEn (s : State) (r : Nat) : State :=
  (List.range 4).foldl (fun s d =>
    let en := bitOf (s.fld Reg.ROUTER.CTL_LINK_EN r) d
    let k := 4 * r + d
    if !en then
      State.setLink { s with mortar := { s.mortar with training := s.mortar.training.filter (· != k) } } r d 3
    else if s.linkState r d = 3 then
      State.setLink { s with mortar := { s.mortar with training := s.mortar.training ++ [k] } } r d 1
    else s) s

/-- A write of ROUTER.CTL (R259): LINK_EN acts while IN_SERVICE is 1, and with VC_DEPTH at its return to 1. -/
def State.writeRouterCtl (s : State) (r : Nat) (v : Word) : State :=
  let was := s.bit Reg.ROUTER.CTL_IN_SERVICE r
  let s := s.storeReg 0x39 r 0x000 v
  if s.bit Reg.ROUTER.CTL_IN_SERVICE r then
    let s := if was then s
      else { s with mortar := { s.mortar with depth := tset (BitVec.ofNat 32 (vcDepthReset (r / 64))) s.mortar.depth r (s.reg 0x39 r 0x010) } }
    s.applyLinkEn r
  else s

/-- IN_SERVICE_WRITE (R259). -/
def execInServiceWrite (req : Fin 14) (sel : BitVec 10) (value : Word) (s : State) : Host.Outcome State Fault Refusal :=
  .next (s.hubEach req 0x39 sel.toNat 0x000 (fun s r => s.writeRouterCtl r value))

/-- LINK_EN_WRITE (R259): a write that leaves IN_SERVICE at 1. -/
def execLinkEnWrite (req : Fin 14) (sel : BitVec 10) (value : Word) (s : State) : Host.Outcome State Fault Refusal :=
  .next (s.hubEach req 0x39 sel.toNat 0x000 (fun s r => s.writeRouterCtl r value))

/-- LINK_RETRAIN_DONE (R259, R396): the 1,024 test flits end; the direction shows up when all passed, else failed. -/
def execLinkRetrainDone (router : Fin 256) (dir : Fin 4) (pass : Bool) (s : State) : Host.Outcome State Fault Refusal :=
  let k := 4 * router.val + dir.val
  if s.mortar.training.contains k then
    .next (State.setLink { s with mortar := { s.mortar with training := s.mortar.training.filter (· != k) } } router dir (if pass then 0 else 2))
  else .next s

/-- All latency histograms of an NI to 0. -/
def State.clrNiHist (s : State) (ni : Nat) : State :=
  { s with mortar := { s.mortar with hist := s.mortar.hist.filter (fun p => p.1 / 256 != ni) } }

/-- All byte counts of an NI to 0. -/
def State.clrNiBytes (s : State) (ni : Nat) : State :=
  { s with mortar := { s.mortar with bytes := s.mortar.bytes.filter (fun p => p.1 / 256 != ni) } }

/-- NI_CLR_HIST (R260). -/
def execNiClrHist (req : Fin 14) (sel : BitVec 10) (s : State) : Host.Outcome State Fault Refusal :=
  .next (s.hubEach req 0x38 sel.toNat 0x084 State.clrNiHist)

/-- NI_CLR_BYTES (R260). -/
def execNiClrBytes (req : Fin 14) (sel : BitVec 10) (s : State) : Host.Outcome State Fault Refusal :=
  .next (s.hubEach req 0x38 sel.toNat 0x084 State.clrNiBytes)

end Sys2Proof.Machine
end

