-- ==== Sys2Proof/Machine/Time.lean ====
section
/-! DEFINITION. The commands of the time bases, TDD_OUT and PPS_OUT (R356-R373). -/
namespace Sys2Proof.Machine

/-- A servo's state, journalled when it changes (R373). -/
def State.servoState (s : State) (n st : Nat) : State :=
  if s.fld Reg.TB.SERVO_STATUS_STATE n = st then s
  else (s.setFld Reg.TB.SERVO_STATUS_STATE n st).post 0x60 n 0x002 (if st = 3 then 2 else 0) st

/-- SOURCE as it stands takes effect: 1 and 2 set ACQUIRING, 0 and 3 FREE (R362, R363). -/
def State.servoBegin (s : State) (n : Nat) : State :=
  let src := s.fld Reg.TB.SERVO_CTL_SOURCE n
  if src = 1 ∨ src = 2 then (s.setTb n { s.tb n with run := 0, lastSample := s.devclk.toNat }).servoState n 1 else s.servoState n 0

/-- TIMING_LOCK (R356): the timing PLL locks; every time base, DLCLK and TCNT start from 0. -/
def execTimingLock (s : State) : Host.Outcome State Fault Refusal :=
  if s.timeRuns then .next s
  else
    let s := ((s.setFld Reg.SYS.RAISE_STATUS_TIMING_LOCK 0 1).setFld Reg.CLK.STATUS_TIMING_LOCK 0 1).syncReady
    let f (n : Nat) (s : State) : State :=
      let b := s.tb n
      s.setTb n { b with sec := 0, ns := 0, frac := 0, rem := 0, lastPps := none, lastSample := s.devclk.toNat }
    let s := (List.range 4).foldl (fun s n => (f n s).servoBegin n) s
    .next ({ s with time := { s.time with phase := 0, tcnt := 0 }, disp := { s.disp with dlclk := 0 } }).periodLocked

/-! ## Steps (R361) -/

/-- A time base's time moved to a stamp, its hidden bits as `hide`; STEPS counts, the step is journalled, and everything that
reads the time base meets the discontinuity, the tally period in progress among them for TB_0 (R200). -/
def State.stepTo (s : State) (n : Nat) (stamp : Int) (servo : Bool) : State :=
  let b := s.tb n
  let old := b.stamp
  let new := (stamp % (2 ^ 48 * stampSecond : Nat)).toNat
  let d : Int := stamp - old
  let hidden := b.frac.toNat % 2 ^ 32
  let s := if n = 0 then State.periodsOver 1000 s else s
  let passed := s.periodPassed
  let s := s.setTb n { b with
    sec := BitVec.ofNat 48 (new / stampSecond)
    ns := new % stampSecond / 65536
    frac := BitVec.ofNat 48 (2 ^ 32 * (new % 65536) + hidden)
    lastPps := b.lastPps.map (fun p => ((p : Int) + d).toNat) }
  let s := s.addFld Reg.TB.STEPS_COUNT n 1
  let ns := toBits 31 (clampInt (-(2 ^ 30)) (2 ^ 30 - 1) (d / 65536))
  let s := (s.post 0x60 n 0x001 1 (b2n servo + 2 * ns)).gridMoved n
  if n = 0 then s.periodStepped passed else s

/-- STEP_GO (R361, R356): the step registers as they stand, with the written fraction; NEG counts only without SET. -/
def State.stepGo (s : State) (n : Nat) (v : Word) : State :=
  if s.timeRuns then
    let sec := s.fld Reg.TB.STEP_SEC_LO_SEC_LO n + 2 ^ 32 * s.fld Reg.TB.STEP_SEC_HI_SEC_HI n
    let x := sec * stampSecond + s.fld Reg.TB.STEP_NS_NS n * 65536 + wordField v 15 0
    let now : Int := (s.tb n).stamp
    if s.bit Reg.TB.STEP_SEC_HI_SET n then s.stepTo n x false
    else if s.bit Reg.TB.STEP_SEC_HI_NEG n then s.stepTo n (now - x) false
    else s.stepTo n (now + x) false
  else s

def execStepGo (req : Fin 14) (sel : BitVec 10) (value : Word) (s : State) : Host.Outcome State Fault Refusal :=
  .next (s.hubEach req 0x60 sel.toNat 0x024 (fun s n => s.stepGo n value))

/-- A write of FRAME_OFFSET (0x028) or GRID_CFG (0x02C): a grid move of at least 1 Tc is a discontinuity. -/
def State.gridWrite2 (s : State) (n off : Nat) (v : Word) : State :=
  let old := (s.reg 0x60 n off)
  let s := if n = 0 ∧ s.timeRuns then State.periodsOver 1000 s else s
  let passed := s.periodPassed
  let s := s.storeReg 0x60 n off v
  if s.reg 0x60 n off = old ∨ !s.timeRuns then s
  else
    let s := s.gridMoved n
    if n = 0 ∧ off = 0x028 then s.periodMoved passed else s

/-- FRAME_OFFSET_WRITE (R361): a write of FRAME_OFFSET, or with `sfn` of SFN_OFFSET. -/
def execFrameOffsetWrite (req : Fin 14) (sel : BitVec 10) (sfn : Bool) (value : Word) (s : State) :
    Host.Outcome State Fault Refusal :=
  let off := if sfn then 0x02C else 0x028
  .next (s.hubEach req 0x60 sel.toNat off (fun s n => s.gridWrite2 n off value))

/-! ## Servos (R362, R363) -/

/-- LIMIT as it acts, in 2^-24 ppb: the pull range of R357 bounds it. -/
def State.servoLimit (s : State) (n : Nat) : Int :=
  2 ^ 24 * (min (s.fld Reg.TB.SERVO_LIMIT_LIMIT n) (if n = 0 then 100000 else 200000) : Nat)

/-- One offset sample `e`, in 2^-16 ns (R363). -/
def State.servoSample (s : State) (n : Nat) (e : Int) (stepOk : Bool) : State :=
  if s.timeRuns then
    let s := s.setFld Reg.TB.SERVO_LAST_E n (toBits 32 (clampInt (-(2 ^ 31)) (2 ^ 31 - 1) (e / 256)))
    let s := s.setTb n { s.tb n with lastSample := s.devclk.toNat }
    let s := if s.fld Reg.TB.SERVO_STATUS_STATE n = 3 then s.servoState n 1 else s
    let mag := e.natAbs
    if s.bit Reg.TB.SERVO_CTL_STEP_EN n ∧ s.fld Reg.TB.SERVO_THRESH_STEP_THRESH n * 65536 ≤ mag ∧
        (s.fld Reg.TB.SERVO_CTL_SOURCE n = 2 ∨ stepOk) then
      let s := s.stepTo n (((s.tb n).stamp : Int) - e) true
      (s.setTb n { s.tb n with run := 0 }).servoState n 1
    else
      let b := s.tb n
      let lim := s.servoLimit n
      let i := clampInt (-lim) lim (b.integral - s.fld Reg.TB.SERVO_KI_KI n * e)
      let f := clampInt (-lim) lim (i - s.fld Reg.TB.SERVO_KP_KP n * e)
      let lock := s.fld Reg.TB.SERVO_THRESH_LOCK_NS n * 65536
      let run := if mag < lock then b.run + 1 else 0
      let s := s.setTb n { b with integral := i, freq := f, run := run }
      let s := s.setFld Reg.TB.SERVO_FREQ_FREQ n (toBits 32 (f / 2 ^ 14))
      let s := if 4 ≤ run then s.servoState n 2 else s
      if s.fld Reg.TB.SERVO_STATUS_STATE n = 2 ∧ 4 * lock ≤ mag then s.servoState n 1 else s
  else s

/-- OFFSET_GO (R362): ignored with any other SOURCE. -/
def State.offsetGo (s : State) (n : Nat) (v : Word) : State :=
  if s.fld Reg.TB.SERVO_CTL_SOURCE n = 1 then
    s.servoSample n (signedOf 32 (s.fld Reg.TB.OFFSET_NS_NS n) * 65536 + s.fld Reg.TB.OFFSET_FRAC_FRAC n) (wordField v 0 0 == 1)
  else s

def execOffsetGo (req : Fin 14) (sel : BitVec 10) (value : Word) (s : State) : Host.Outcome State Fault Refusal :=
  .next (s.hubEach req 0x60 sel.toNat 0x050 (fun s n => s.offsetGo n value))

/-- The nearest whole second to a stamp, half-way taking the earlier (R362). -/
def nearestSecond (x : Int) : Int := (x + stampSecond / 2 - 1) / stampSecond * stampSecond

/-- PPS_IN_EDGE (R362): an edge `sub`/64 ns into the present REF cycle; every time base with SOURCE = 2 stamps it. -/
def execPpsInEdge (sub : BitVec 10) (s : State) : Host.Outcome State Fault Refusal :=
  .next ((List.range 4).foldl (fun s n =>
    if s.fld Reg.TB.SERVO_CTL_SOURCE n = 2 ∧ s.timeRuns then
      let b := s.tb n
      let st := b.stamp / 1024 * 1024 + sub.toNat * 1024
      let early := match b.lastPps with
        | some p => decide ((st : Int) - p < stampSecond / 2)
        | none => false
      if early then s.addFld Reg.TB.PPS_REJECTED_COUNT n 1
      else
        let s := (s.setTb n { b with lastPps := some st }).addFld Reg.TB.PPS_EDGES_COUNT n 1
        let x : Int := (st : Int) - signedOf 32 (s.fld Reg.TB.PPS_IN_DELAY_DELAY n) * 256
        s.servoSample n (x - nearestSecond x) true
    else s) s)

/-- SERVO_HOLDOVER (R363): HOLD_MS without a sample; a time-base holdover fault (R387). -/
def execServoHoldover (tb : Fin 4) (s : State) : Host.Outcome State Fault Refusal :=
  let src := s.fld Reg.TB.SERVO_CTL_SOURCE tb
  let st := s.fld Reg.TB.SERVO_STATUS_STATE tb
  if (src = 1 ∨ src = 2) ∧ st ≠ 3 ∧ s.timeRuns ∧
      max 1 (s.fld Reg.TB.SERVO_HOLD_HOLD_MS tb) * 100000 ≤ s.devclk.toNat - (s.tb tb).lastSample then
    .next ((s.servoState tb 3).reportFault 9 0x60 tb)
  else .next s

/-- A write of SERVO_CTL: a SOURCE other than the one it holds sets the state, from TIMING_LOCK on (R356, R363; the procedure "Retune a
servo" says that the same value does not). -/
def State.servoCtl (s : State) (n : Nat) (v : Word) : State :=
  let old := s.fld Reg.TB.SERVO_CTL_SOURCE n
  let v := if n = 0 then v else putField v 5 4 0
  let s := s.storeReg 0x60 n 0x030 v
  let src := s.fld Reg.TB.SERVO_CTL_SOURCE n
  if !s.timeRuns ∨ src = old then s
  else (s.setTb n { s.tb n with lastPps := none }).servoBegin n

def execServoSourceWrite (req : Fin 14) (sel : BitVec 10) (value : Word) (s : State) : Host.Outcome State Fault Refusal :=
  .next (s.hubEach req 0x60 sel.toNat 0x030 (fun s n => s.servoCtl n value))

/-! ## The timing reference (R364) -/

/-- REF_LOST (R364): a clock-loss fault; the PLL continues at its last frequency. -/
def execRefLost (s : State) : Host.Outcome State Fault Refusal :=
  if s.bit Reg.TB.SERVO_STATUS_REF_LOST 0 then .next s
  else
    let s := (s.setFld Reg.TB.SERVO_STATUS_REF_LOST 0 1).post 0x60 0 0x003 3 (s.fld Reg.TB.SERVO_CTL_FREQ_REF 0)
    .next (s.reportFault 8 0x60 0)

/-- Whether the chosen reference can be there: SyncE needs a locked lane of an Ethernet quad (R364, R372). -/
def State.refThere (s : State) : Bool :=
  let l := s.fld Reg.TB.SERVO_CTL_SYNCE_LANE 0
  s.fld Reg.TB.SERVO_CTL_FREQ_REF 0 != 2 || (decide (l < 48) && s.fld Reg.LANEQ.PROTO_PROTOCOL (l / 4) == 0 && s.bit Reg.LANE.STATUS_CDR_LOCK l)

/-- REF_RESTORED (R364): after 1 s of valid reference. -/
def execRefRestored (s : State) : Host.Outcome State Fault Refusal :=
  if s.bit Reg.TB.SERVO_STATUS_REF_LOST 0 && s.refThere then
    .next ((s.setFld Reg.TB.SERVO_STATUS_REF_LOST 0 0).post 0x60 0 0x004 0 (s.fld Reg.TB.SERVO_CTL_FREQ_REF 0))
  else .next s

/-! ## TDD_OUT and PPS_OUT (R368-R370) -/

/-- EDGE_PUSH (R369). -/
def execEdgePush (req : Fin 14) (sel : BitVec 10) (value : Word) (s : State) : Host.Outcome State Fault Refusal :=
  .next (s.hubEach req 0x62 sel.toNat 0x01C (fun s p => s.pushEdge p (wordField value 0 0 == 1)))

/-- TDD_EDGE_FIRE (R369). -/
def execTddEdgeFire (pin : Fin 16) (s : State) : Host.Outcome State Fault Refusal := .next (s.fireEdges pin)

/-- A write of TDD_OUT.CLEAR: the queue empties, SCHED stays. -/
def State.clrQueue (s : State) (p : Nat) (v : Word) : State :=
  if wordField v 0 0 = 1 then (s.setPin p { s.pin p with queue := [] }).syncPin p else s

def execClrQueue (req : Fin 14) (sel : BitVec 10) (value : Word) (s : State) : Host.Outcome State Fault Refusal :=
  .next (s.hubEach req 0x62 sel.toNat 0x008 (fun s p => s.clrQueue p value))

/-- TDD_OUT_SLOT_START (R368): the pin reaches a slot start of its time base and CTL.MU: it goes quiet when the mode wants it,
and drives L again from the first slot start 64 SAMP cycles after the mode lets it. -/
def execTddOutSlotStart (pin : Fin 16) (s : State) : Host.Outcome State Fault Refusal :=
  let p := pin.val
  if s.timeRuns then
    let n := s.fld Reg.TDD_OUT.CTL_TB p
    let mu := muOf (s.fld Reg.TDD_OUT.CTL_MU p)
    let code := symCode mu false (s.fld Reg.TB.GRID_CFG_SFN_OFFSET n) (gridAt mu false (s.gridTime n)) / 16
    let x := s.pin p
    if x.slot = some code then .next s
    else
      let s := s.setPin p { x with slot := some code }
      if s.quietMode then .next ((s.setFld Reg.TDD_OUT.STATUS_QUIET p 1).syncPin p)
      else if s.bit Reg.TDD_OUT.STATUS_QUIET p ∧ s.quietOver then .next ((s.setFld Reg.TDD_OUT.STATUS_QUIET p 0).syncPin p)
      else .next s
  else .next s

/-- The time base that drives PPS_OUT: the lowest-numbered with EN (R370). -/
def State.ppsDriver (s : State) : Option Nat := (List.range 4).find? (fun n => s.bit Reg.TB.PPS_OUT_EN n)

/-- Second and Tc into it of PPS_OUT's driver, its offset taken off. -/
def State.ppsTime (s : State) (n : Nat) : Int × Nat :=
  let x : Int := (s.tb n).tc - signedOf 32 (s.fld Reg.TB.PPS_OUT_OFFSET_OFFSET n)
  (x / tcSecond, (x % tcSecond).toNat)

/-- PPS_OUT_RISE (R370): the first REF cycle at or after a whole second plus the offset, 20 Tc wide. -/
def execPpsOutRise (s : State) : Host.Outcome State Fault Refusal :=
  match s.ppsDriver with
  | none => .next s
  | some n =>
    let (k, r) := s.ppsTime n
    let b := s.tb n
    if !s.timeRuns ∨ 20 ≤ r ∨ b.ppsLast = some k.toNat then .next s
    else .next (({ s with time := { s.time with ppsOut := true } }).setTb n { b with ppsLast := some k.toNat, ppsHigh := some s.devclk.toNat })

/-- PPS_OUT_FALL (R370): WIDTH_US after it rose, or when no time base drives it. -/
def execPpsOutFall (s : State) : Host.Outcome State Fault Refusal :=
  if !s.time.ppsOut then .next s
  else
    match s.ppsDriver with
    | none => .next { s with time := { s.time with ppsOut := false } }
    | some n =>
      let w := max 1 (s.fld Reg.TB.PPS_OUT_WIDTH_US n) * 100
      match (s.tb n).ppsHigh with
      | some t0 => if w ≤ s.devclk.toNat - t0 then .next { s with time := { s.time with ppsOut := false } } else .next s
      | none => .next { s with time := { s.time with ppsOut := false } }

/-! ## The latched read (R356) -/

/-- The six words of a read of a time base, all taken in one TIME cycle: 0 before TIMING_LOCK. -/
def State.tbWords (s : State) (n : Nat) : List Word :=
  if s.timeRuns then
    let b := s.tb n
    [BitVec.ofNat 32 b.sec.toNat, BitVec.ofNat 32 (b.sec.toNat / 2 ^ 32), BitVec.ofNat 32 b.ns,
      BitVec.ofNat 32 (b.frac.toNat / 2 ^ 32), BitVec.ofNat 32 s.devclk.toNat, BitVec.ofNat 32 (s.devclk.toNat / 2 ^ 32)]
  else List.replicate 6 0

/-- A read of TIME_SEC_LO latches the other five words for its requester. -/
def State.tbLatch (s : State) (req n : Nat) : State :=
  (List.range 5).foldl (fun s i => s.holdFor req 0x60 n (4 * (i + 1)) ((s.tbWords n).getD (i + 1) 0)) s

def execTimeSecLoRead (req : Fin 14) (sel : BitVec 10) (s : State) : Host.Outcome State Fault Refusal :=
  match s.readTarget 0x60 sel.toNat 0x000 with
  | some n => .next ((s.tbLatch req n).giveBack req ((s.tbWords n).getD 0 0))
  | none => .next (s.giveBack req 0)

end Sys2Proof.Machine
end

