-- ==== Sys2Proof/Machine/Witness.lean ====
section
/-! DEFINITION. The commands of the Vault and of Tally (R217-R237). -/
namespace Sys2Proof.Machine

/-! ## The Vault -/

/-- The source whose leaf the buffer takes next (R29). -/
def State.leafTurn (s : State) : Option Nat := rrPick 640 s.vault.lastLeaf (fun k => !(tget [] s.vault.formed k).isEmpty)

/-- LEAF_GRANT (R220): the arbiter grants one formed leaf; requester s is VSTREAM[s], 128 + c the summary of STRM_RX[c]. -/
def execLeafGrant (s : State) : Host.Outcome State Fault Refusal :=
  if !s.running 0x30 0 ∨ s.modes.mode = .banked then .next s
  else
    match s.leafTurn with
    | none => .next s
    | some k =>
      match tget [] s.vault.formed k with
      | [] => .next s
      | x :: r =>
        .next ((s.setVault { s.vault with formed := tset [] s.vault.formed k r, lastLeaf := k }).grantLeaf x)

/-- LEAF_WRITE_DONE (R220): the oldest staged leaf's write completes; even sequence numbers go through NI 56, odd ones through
NI 57. A failed write drops the leaf. -/
def execLeafWriteDone (s : State) : Host.Outcome State Fault Refusal :=
  match s.vault.staged with
  | [] => .next s
  | e :: r =>
    let s := s.setVault { s.vault with staged := r }
    let (st, s) := s.busPut (56 + e.seq % 2) 0 e.addr e.bytes
    let here := match tfind s.vault.ring e.pos with
      | some x => x.seq == e.seq
      | none => false
    if st = .ok then
      let s := if e.src < 128 then s.addFld Reg.VSTREAM.LEAVES_COUNT e.src 1 else s
      let s := s.setFld Reg.VAULT.STATUS_FULL 0 0
      .next (if here then
        match tfind s.vault.ring e.pos with
        | some x => s.setVault { s.vault with ring := tins s.vault.ring e.pos { x with written := true } }
        | none => s
      else s)
    else
      let s := if here then s.setVault { s.vault with ring := tdel s.vault.ring e.pos } else s
      let s := (List.range 16).foldl (fun s r =>
        if s.rgnState r = 1 then s.setFld (Reg.VAULT.RGN_COUNT_COUNT r) 0 (s.heldBy r).length else s) s
      .next (s.dropLeaf e.src)

/-- A write of VAULT.CTL (R219): EN 0 to 1 resumes at WR_LEAF, or at leaf 0 when a pending geometry applies; forming leaves
end with EN, and every stream's next leaf carries GAP. -/
def State.vaultCtl (s : State) (v : Word) : State :=
  let was := s.bit Reg.VAULT.CTL_EN 0
  let s := s.storeReg 0x30 0 0x000 v
  let now := s.bit Reg.VAULT.CTL_EN 0
  if now && !was then
    let s := if s.vault.pendGeom && s.rgnsFree then s.applyGeometry else s
    s.setVault { s.vault with fresh := [] }
  else if was && !now then s.setVault { s.vault with forming := [], formed := [] }
  else s

/-- VAULT_ENABLE (R219). -/
def execVaultEnable (req : Fin 14) (sel : BitVec 10) (value : Word) (s : State) : Host.Outcome State Fault Refusal :=
  .next (s.hubEach req 0x30 sel.toNat 0x000 (fun s _ => s.vaultCtl value))

/-- A write of BASE_LO, BASE_HI or LENGTH (R219): pending while the writer runs or a region is not free, else at once. -/
def State.geometryWrite (s : State) (off : Nat) (v : Word) : State :=
  let s := s.storeReg 0x30 0 off v
  if !s.bit Reg.VAULT.CTL_EN 0 && s.rgnsFree then s.applyGeometry else s.setVault { s.vault with pendGeom := true }

/-- VAULT_GEOMETRY_WRITE (R219): `which` is 0 BASE_LO, 1 BASE_HI, 2 LENGTH. -/
def execVaultGeometryWrite (req : Fin 14) (sel : BitVec 10) (which : Fin 3) (value : Word) (s : State) :
    Host.Outcome State Fault Refusal :=
  let off := 4 + 4 * which.val
  .next (s.hubEach req 0x30 sel.toNat off (fun s _ => s.geometryWrite off value))

/-- TRIGGER (R224): any write raises a command trigger. -/
def execTrigger (req : Fin 14) (sel : BitVec 10) (value : Word) (s : State) : Host.Outcome State Fault Refusal :=
  .next (s.hubEach req 0x30 sel.toNat 0x040 (fun s _ => s.commandTrigger value))

/-- PIN_TRIGGER (R224, R419): a GPIO input takes a new level from outside. A pad that GPIO_OE drives against it shows a level
that is not specified (R420). -/
def execPinTrigger (pin : Fin 32) (rising : Bool) (s : State) : Host.Outcome State Fault Refusal :=
  let p := pin.val
  let s := { s with power := { s.power with gpioPads := putField s.power.gpioPads p p (b2n rising) } }
  if bitOf (s.fld Reg.PINS.GPIO_OE_OE 0) p then
    if bitOf (s.fld Reg.PINS.GPIO_OUT_OUT 0) p = rising then .next s
    else
      let (x, s) := s.takeFree 1
      .next (s.gpioLevel p (x == 1))
  else .next (s.gpioLevel p rising)

/-- TRIGGER_GRANT (R224, R225). -/
def execTriggerGrant (s : State) : Host.Outcome State Fault Refusal :=
  if s.running 0x30 0 then .next s.triggerStep else .next s

/-- REGION_RELEASE (R226). -/
def execRegionRelease (req : Fin 14) (sel : BitVec 10) (value : Word) (s : State) : Host.Outcome State Fault Refusal :=
  .next (s.hubEach req 0x30 sel.toNat 0x044 (fun s _ => s.releaseRgn (wordField value 3 0)))

/-! ## Tally -/

/-- The sample rate of a detector's channel in Hz. -/
def State.tallyFs (s : State) (d : Nat) : Nat :=
  let c := s.fld Reg.TALLY.CTL_CHANNEL d
  s.chSize c * 15000 * 2 ^ s.chMu c

/-- A detector brought up to its next event; none where it is off. -/
def State.tallyEvent (s : State) (d : Nat) : Nat × State :=
  if s.bit Reg.TALLY.CTL_EN d && s.running 0x32 d then
    let s := s.tallyAdvance d (s.tallyFs d)
    (s.tallyDue d (s.tally d), s)
  else (0, s)

/-- TALLY_AGC_BLOCK (R229). -/
def execTallyAgcBlock (detector : Fin 32) (s : State) : Host.Outcome State Fault Refusal :=
  let (e, s) := s.tallyEvent detector
  if e = 2 then .next (s.tallyAgc detector) else .next s

/-- TALLY_DETECTION (R230, R231): eight samples after a peak the detection is decided. -/
def execTallyDetection (detector : Fin 32) (s : State) : Host.Outcome State Fault Refusal :=
  let (e, s) := s.tallyEvent detector
  match (s.tally detector).search with
  | some b => if e = 3 then .next (s.tallyDetect detector b) else .next s
  | none => .next s

/-- TALLY_SYMBOL (R233). -/
def execTallySymbol (detector : Fin 32) (s : State) : Host.Outcome State Fault Refusal :=
  let (e, s) := s.tallyEvent detector
  match (s.tally detector).rx with
  | some r => if e = 1 then .next (s.tallySymbol detector r) else .next s
  | none => .next s

/-- TALLY_RECORD_ACKED (R234): a COMPLETE or TRUNCATED record and its outputs are acknowledged; with KEY_EN its keystone is
decremented. -/
def execTallyRecordAcked (detector : Fin 32) (s : State) : Host.Outcome State Fault Refusal :=
  let t := s.tally detector
  if t.acks = 0 then .next s
  else
    let s := s.setTally detector { t with acks := t.acks - 1 }
    if s.bit Reg.TALLY.KEY_KEY_EN detector then .next (s.decKey (s.fld Reg.TALLY.KEY_KEY_INDEX detector) false) else .next s

/-- TPL_DATA (R235): single instances only. -/
def execTplData (req : Fin 14) (sel : BitVec 10) (value : Word) (s : State) : Host.Outcome State Fault Refusal :=
  if sel.toNat < 0x200 then .next (s.hubEach req 0x32 sel.toNat 0x068 (fun s d => s.tplData d value)) else .next s

end Sys2Proof.Machine
end

