-- ==== Sys2Proof/Machine/Views.lean ====
section
/-! DEFINITION. What a CSR read returns (R5, R17–R21): the word a register holds, or what it shows of a unit's state; latched
high words and the selections a requester holds. -/
namespace Sys2Proof.Machine

def w32 (n : Nat) : Word := BitVec.ofNat 32 n

/-- The low and high words of a 64-bit value. -/
def loWord (n : Nat) : Word := w32 (n % 2 ^ 32)
def hiWord (n : Nat) : Word := w32 (n / 2 ^ 32)

/-- SYS.MODE. -/
def State.modeWord (s : State) : Word :=
  let m := s.modes
  w32 (m.mode.code + b2n m.target.isSome * 8 + (m.target.getD m.mode).code * 16 + m.returnMode.code * 256 + 2 ^ 16 * m.cause)

/-- SETT.STATUS.STATE. -/
def State.settState (s : State) (c : Nat) : Nat :=
  let k := s.core c
  if s.fencedUnit 0x11 c then 6
  else if s.domState (4 + c / 8) = 4 then 5
  else if k.halted then 2
  else if k.task.isNone then 0
  else if k.waiting then 4
  else if k.rep.isSome then 3 else 1

/-- SETT.DBG_DATA of a halted core: the register DBG_SEL names. -/
def State.debugWord (s : State) (c : Nat) : Word :=
  let k := s.core c
  let r := s.fld Reg.SETT.DBG_SEL_REG c
  let n := s.fld Reg.SETT.DBG_SEL_WORD c
  let part (words x : Nat) : Word := if n < words then w32 (x / 2 ^ (32 * n) % 2 ^ 32) else 0
  if !k.halted then 0
  else if r < 0x20 then part 16 (tget 0 k.v r).toNat
  else if r < 0x28 then part 40 (tget 0 k.va (r - 0x20)).toNat
  else if r < 0x40 then 0
  else if r < 0x60 then part 1 (tget 0 k.s (r - 0x40)).toNat
  else if r < 0x70 then part 2 (tget 0 k.a (r - 0x60)).toNat
  else if r < 0x80 then part 1 (tget 0 k.m (r - 0x70)).toNat
  else if r < 0x88 then part 2 (tget 0 k.b (r - 0x80)).toNat
  else if r < 0x90 then part 1 (tget 0 k.l (r - 0x88)).toNat
  else if r < 0x98 then part 1 (k.rP (r - 0x90)).toNat
  else if r = 0x98 then part 1 k.lc.toNat
  else if r = 0x99 then part 1 k.rot.toNat else 0

/-- The registers of a core that show its state. -/
def State.settView (s : State) (c off : Nat) : Option Word :=
  let k := s.core c
  if off = 0x004 then some (w32 (s.settState c + b2n k.cobble * 8 + k.rot.toNat * 16 + 2 ^ 16 * k.lastTask))
  else if off = 0x008 then some (w32 k.pc.toNat)
  else if off = 0x020 then some (w32 (k.ov.toNat + b2n k.sat * 256))
  else if off = 0x02C then some (s.debugWord c) else none

/-- COURSE.STATUS. -/
def State.courseStatus (s : State) (n : Nat) : Word :=
  let f (p : Nat → Bool) : Nat := ((List.range 8).map (fun k => b2n (p (8 * n + k)) * 2 ^ k)).sum
  w32 (f (fun c => (s.core c).task.isSome) + f (fun c => s.settState c == 0) * 2 ^ 8 + 2 ^ 16 * f (fun c => (s.core c).halted) +
    2 ^ 24 * b2n (s.domState (4 + n) == 4) + 2 ^ 25 * b2n (s.fencedUnit 0x10 n))

/-- An engine's STATUS: SLOT, PARKED and FENCED beside what the register holds. -/
def State.engStatus (s : State) (cls i : Nat) : Word :=
  let w := putField (s.reg cls i 0x004) 3 2 (s.slot (unitIndex cls i)).length
  let w := putField w 6 6 (b2n (s.domState (28 + codeDomain cls i) == 4))
  putField w 7 7 (b2n (s.fencedUnit cls i))

def keyWord (x : Keystone) : Nat := x.count.toNat + 2 ^ 12 * b2n x.fail + 2 ^ 13 * b2n x.underflow

/-- The keystone registers (R180): STATE pairs with WAITERS, RD_DATA of the requester's RD_SEL. -/
def State.keyView (s : State) (req b off : Nat) : Option Word :=
  let half (k : Nat) : Nat :=
    keyWord (s.key k) + 2 ^ 15 * b2n (!(s.waiters k).isEmpty || !(tget [] s.disp.dmaWait k).isEmpty)
  if off < 0x200 then some (w32 (half (256 * b + off / 2) + 2 ^ 16 * half (256 * b + off / 2 + 1)))
  else if off = 0x30C then some (s.heldFor req 0x22 b 0x30C)
  else if off = 0x310 then
    let x := s.key (256 * b + wordField (s.heldFor req 0x22 b 0x30C) 7 0)
    some (w32 (keyWord x + 2 ^ 16 * x.reload.toNat))
  else none

/-- An account's books at 0x040–0x067, 1/256 mite (R202). -/
def State.bookView (s : State) (a off : Nat) : Option Word :=
  if 0x040 ≤ off ∧ off < 0x068 then
    let x := s.account a
    let b := [x.credit, x.outstanding, x.minted, x.drawn, x.accrued].getD ((off - 0x040) / 8) 0
    some (if off % 8 = 0 then loWord b.toNat else hiWord b.toNat)
  else none

/-- PORT_STATUS of an NI. -/
def State.portWord (s : State) (ni : Nat) : Word :=
  w32 (((List.range 4).map (fun p =>
    let x := s.port (4 * ni + p)
    (b2n x.fenced + 2 * b2n x.draining + 4 * b2n x.drained + 8 * b2n x.forced) * 2 ^ (8 * p))).sum)

/-- The registers of an NI that show its tables and counts (R245, R255, R260). -/
def State.niView (s : State) (ni off : Nat) : Option Word :=
  let (b, e) := s.routeSel ni
  let r := s.route ni b e
  let q := s.fld Reg.MORTAR_NI.STAT_CFG_REQ ni
  if off = 0x00C then some (loWord r.route.toNat)
  else if off = 0x010 then some (w32 (r.route.toNat / 2 ^ 32 + r.hops.toNat * 2 ^ 8 + 2 ^ 13 * b2n r.invalid))
  else if off = 0x044 then some (s.portWord ni)
  else if 0x064 ≤ off ∧ off < 0x084 then some (w32 (tget 0 s.mortar.hist (byteKey ni q ((off - 0x064) / 4))))
  else if 0x0A0 ≤ off ∧ off < 0x0E0 then
    let v := tget 0 s.mortar.bytes (byteKey ni q (2 * ((off - 0x0A0) / 16) + off / 8 % 2))
    some (if off % 8 = 0 then loWord v else hiWord (v % 2 ^ 48))
  else none

/-- BULK: the retirement entry RET_SEL names; ILV and MIG_PTR are one for all channels. -/
def State.bulkView (s : State) (req c off : Nat) : Option Word :=
  if off = 0x060 then some (s.heldFor req 0x49 c 0x060)
  else if off = 0x064 then
    let x := tget (0, 0) s.memSys.retired (256 * c + wordField (s.heldFor req 0x49 c 0x060) 7 0)
    some (w32 (x.1 % 2 ^ 24 + 2 ^ 24 * x.2))
  else if off = 0x050 ∨ off = 0x054 ∨ off = 0x058 then some (s.reg 0x49 0 off)
  else none

/-- The four words of a spall entry (R297). -/
def spallWords (e : Spall) : List Word :=
  [loWord e.addr, w32 (e.addr / 2 ^ 32 % 2 ^ 8 + e.column * 2 ^ 8 + 2 ^ 12 * e.st + 2 ^ 15 * e.count + 2 ^ 19 * b2n e.rewritten +
    2 ^ 20 * e.memory), e.first, e.last]

def State.spallView (s : State) (req off : Nat) : Option Word :=
  let sel := wordField (s.heldFor req 0x4A 0 0x00C) 7 0
  if off = 0x00C then some (s.heldFor req 0x4A 0 0x00C)
  else if 0x010 ≤ off ∧ off < 0x020 then some ((spallWords (s.spallAt sel)).getD ((off - 0x010) / 4) 0)
  else none

/-- VAULT: writer, STATUS and the sequence count. -/
def State.vaultView (s : State) (off : Nat) : Option Word :=
  let v := s.vault
  if off = 0x050 then some (w32 v.wr)
  else if off = 0x054 then
    let w := putField (s.reg 0x30 0 0x054) 0 0 (s.fld Reg.VAULT.CTL_EN 0)
    let w := putField (putField w 1 1 (b2n s.thinsNow)) 2 2 (b2n v.pendGeom)
    some (putField w 31 16 ((List.range 16).map (fun r => b2n (s.rgnState r == 0) * 2 ^ r)).sum)
  else if off = 0x058 then some (loWord v.seq.toNat)
  else if off = 0x05C then some (hiWord v.seq.toNat)
  else none

/-- TALLY: STATUS, and the length of the template TPL_ADDR names. -/
def State.tallyView (s : State) (d off : Nat) : Option Word :=
  let t := s.tally d
  if off = 0x038 then
    let st := if s.fld Reg.TALLY.CTL_EN d = 0 then 0 else if t.rx.isSome then 2 else 1
    some (w32 (st + b2n t.rx.isSome * 4 + 2 ^ 16 * toBits 10 t.gain))
  else if off = 0x064 then some (w32 (s.tplLen (s.fld Reg.TALLY.TPL_ADDR_TEMPLATE d)))
  else none

/-- DMA: EVENT_CLR reads as EVENT_SET, REQ_STATE shows the request lines. -/
def State.dmaView (s : State) (e off : Nat) : Option Word :=
  if off = 0x028 ∨ off = 0x02C then some (s.reg 0x40 e (off - 8))
  else if off = 0x048 ∨ off = 0x04C then
    some (w32 ((List.range 32).map (fun k => b2n (s.dmaLine e (32 * ((off - 0x048) / 4) + k)) * 2 ^ k)).sum)
  else none

/-- DMA_CH: the register the requester's REG_SEL names (R267). -/
def State.dmaChView (s : State) (req c off : Nat) : Option Word :=
  let v := s.dmaReg c (wordField (s.heldFor req 0x41 c 0x014) 4 0)
  if off = 0x014 then some (s.heldFor req 0x41 c 0x014)
  else if off = 0x018 then some (loWord v)
  else if off = 0x01C then some (hiWord v)
  else none

/-- FLOW: the entry the requester's SEL names. -/
def State.flowView (s : State) (req off : Nat) : Option Word :=
  let e := s.flowSel req
  if off = 0x000 then some (s.heldFor req 0x59 0 0x000)
  else if 0x010 ≤ off ∧ off < 0x030 then some (s.flowWord e ((off - 0x010) / 4))
  else if 0x040 ≤ off ∧ off < 0x054 then some (tget 0 s.eth.stats (5 * e + (off - 0x040) / 4))
  else none

/-- Whether a requester's post is held (R177): POST writes without room, or for Dvorys a TASK_POST that holds its ring. -/
def State.postHeld (s : State) (r : Nat) : Bool :=
  (match s.posts r with
   | h :: _ => !s.postRoom h.queue
   | [] => false) || (r == 8 && s.dvorys.heldPacket.any Prod.snd)

/-- DISP: DLCLK, the posts held, the requester's CANCEL_RESULT. -/
def State.dispView (s : State) (req off : Nat) : Option Word :=
  if off = 0x008 then
    some (w32 ((List.range 14).map (fun r => b2n (s.postHeld r) * 2 ^ r)).sum)
  else if off = 0x00C then some (loWord s.disp.dlclk)
  else if off = 0x010 then some (hiWord s.disp.dlclk)
  else if off = 0x018 then some (w32 (tget 0 s.disp.cancelResult req))
  else none

/-- COLLECT: the cross-stamp of DEVCLK and TCNT (R400). -/
def State.collectView (s : State) (off : Nat) : Option Word :=
  if off = 0x010 then some (loWord s.devclk.toNat) else if off = 0x014 then some (hiWord s.devclk.toNat)
  else if off = 0x018 then some (loWord s.time.tcnt.toNat) else if off = 0x01C then some (hiWord s.time.tcnt.toNat)
  else none

/-- ROUTER.STATUS (R250): the packets in the router's buffers by epoch. -/
def State.routerStatus (s : State) (i : Nat) : Word :=
  let l := s.mortar.flits.filter (fun f => match f.place with
    | .buf r _ => r == i
    | _ => false)
  w32 ((l.filter (fun f => !f.epoch)).length + 2 ^ 16 * (l.filter (fun f => f.epoch)).length)

/-- What a register shows that is no stored word; `none` where the stored word is read. -/
def State.viewWord (s : State) (req cls i off : Nat) : Option Word :=
  if 0x3C0 ≤ off then
    (let n := s.counter cls i ((off - 0x3C0) / 8)
     some (if off % 8 = 0 then loWord n else hiWord n))
  else if cls = 0x39 then (if off = 0x004 then some (s.routerStatus i) else none)
  else if cls = 0x51 then
    (if off = 0x05C ∧ s.fld Reg.LANE.PRBS_RX_CHECK i = 1 then some (w32 (s.openAt cls i off)) else none)
  else if cls = 0x23 ∧ (off = 0x00C ∨ off = 0x010) then some (w32 (s.openAt cls i off))
  else if cls = 0x00 then (if off = 0x000 then some s.modeWord else none)
  else if cls = 0x10 then (if off = 0x004 then some (s.courseStatus i) else none)
  else if cls = 0x11 then s.settView i off
  else if 0x18 ≤ cls ∧ cls ≤ 0x1C then (if off = 0x004 then some (s.engStatus cls i) else none)
  else if cls = 0x20 then s.dispView req off
  else if cls = 0x21 then (if off = 0x200 then some (w32 (tget 0 s.disp.lastIndex req)) else none)
  else if cls = 0x22 then s.keyView req i off
  else if cls = 0x23 then (if off = 0x000 then some (putField (s.reg cls i off) 2 2 (b2n (s.bit Reg.CLK.STATUS_ROOT_LOCK 0 && s.eligible i))) else none)
  else if cls = 0x28 then
    (if off = 0x018 then some (loWord s.ledger.devCredit.toNat)
     else if off = 0x01C then some (hiWord s.ledger.devCredit.toNat) else none)
  else if cls = 0x29 then
    (if off = 0x004 then some (loWord (s.meter i).energy.toNat)
     else if off = 0x008 then some (hiWord (s.meter i).energy.toNat) else none)
  else if cls = 0x2A then s.bookView i off
  else if cls = 0x30 then s.vaultView off
  else if cls = 0x32 then s.tallyView i off
  else if cls = 0x38 then s.niView i off
  else if cls = 0x40 then s.dmaView i off
  else if cls = 0x41 then s.dmaChView req i off
  else if cls = 0x49 then s.bulkView req i off
  else if cls = 0x4A then s.spallView req off
  else if cls = 0x52 then (if 0x070 ≤ off ∧ off < 0x080 then some (s.rxCwWord (4 * i + (off - 0x070) / 4)) else none)
  else if cls = 0x59 then s.flowView req off
  else if cls = 0x60 then
    (if off < 0x018 then some ((s.tbWords i).getD (off / 4) 0)
     else if 0x070 ≤ off ∧ off < 0x080 then some (s.gridWord i ((off - 0x070) / 4)) else none)
  else if cls = 0x70 then (if off = 0x00C then some (s.reg 0x70 0 off) else none)
  else if cls = 0x78 then s.collectView off
  else none

/-- The word an instance's register shows to a requester. -/
def State.shown (s : State) (req cls i off : Nat) : Word := (s.viewWord req cls i off).getD (s.reg cls i off)

/-- The high words a read of a low word latches for its requester. -/
def latchedBy (cls off : Nat) : List Nat :=
  if 0x3C0 ≤ off then (if off % 8 = 0 then [off + 4] else [])
  else if cls = 0x00 then (if off = 0x048 then [0x04C] else [])
  else if cls = 0x20 then (if off = 0x00C then [0x010] else [])
  else if cls = 0x23 then (if off = 0x00C then [0x010] else [])
  else if cls = 0x28 then (if off = 0x018 then [0x01C] else [])
  else if cls = 0x29 then (if off = 0x004 then [0x008] else [])
  else if cls = 0x2A then (if off = 0x040 then (List.range 9).map (fun k => 0x044 + 4 * k) else [])
  else if cls = 0x30 then (if off = 0x058 then [0x05C] else [])
  else if cls = 0x38 then (if 0x0A0 ≤ off ∧ off < 0x0E0 ∧ off % 8 = 0 then [off + 4] else [])
  else if cls = 0x41 then (if off = 0x020 then [0x024] else [])
  else if cls = 0x60 then (if off = 0x000 then [0x004, 0x008, 0x00C, 0x010, 0x014] else [])
  else if cls = 0x78 then (if off = 0x010 then [0x014, 0x018, 0x01C] else [])
  else []

/-- The low word whose read latches a register, where it is one read from a latch. -/
def latchOf (cls off : Nat) : Option Nat :=
  ([off - 4, 0x000, 0x010, 0x040].filter (fun l => decide (l < off))).find? (fun l => (latchedBy cls l).contains off)

/-- One CSR read of one instance: a latched register gives the requester's latch; a low word latches; a read of RX_CW removes
the entry it returns (R319). -/
def State.readOne (s : State) (req cls i off : Nat) : Word × State :=
  match latchOf cls off with
  | some _ => (s.heldFor req cls i off, s)
  | none =>
    let w := s.shown req cls i off
    let s' := (latchedBy cls off).foldl (fun t h => t.holdFor req cls i h (s.shown req cls i h)) s
    (w, if cls = 0x52 ∧ 0x070 ≤ off ∧ off < 0x080 then s'.rxCwPop (4 * i + (off - 0x070) / 4) else s')

/-- Registers that take writes of single instances only: a group or broadcast write is ignored (R112, R176, R235, R254, R302, R319,
R351). -/
def singleOnly (cls off : Nat) : Bool :=
  (cls == 0x21 && off == 0x200) || (cls == 0x11 && (off == 0x028 || off == 0x02C)) ||
  (cls == 0x38 && off == 0x040) ||
  ((cls == 0x48 || cls == 0x10 || cls == 0x49) && decide (0x300 ≤ off) && decide (off < 0x328)) ||
  (cls == 0x52 && (off == 0x00C || off == 0x010 || (decide (0x070 ≤ off) && decide (off < 0x080)))) ||
  (cls == 0x32 && decide (0x060 ≤ off) && decide (off < 0x06C)) ||
  (cls == 0x58 && off == 0x024)

/-- A CSR read with a selector (R17, R19, R20): the single instance, or the lowest member; else 0. RX_CW and POST read 0 through a
group (R176, R319). -/
def State.csrRead (s : State) (req cls sel off : Nat) : Word × State :=
  if 0x200 ≤ sel ∧ ((cls = 0x52 ∧ 0x070 ≤ off ∧ off < 0x080) ∨ (cls = 0x21 ∧ off = 0x200)) then (0, s)
  else match s.readTarget cls sel off with
    | some i => s.readOne req cls i off
    | none => (0, s)

end Sys2Proof.Machine
end

