-- ==== Sys2Proof/Machine/ImageOps.lean ====
section
/-! DEFINITION. Firmware images (R51, R62): the checks of a header and body, staging, and the start of Dvorys after boot. -/
namespace Sys2Proof.Machine

/-- A little-endian field of an image. -/
def imgField (l : List Byte) (off n : Nat) : Nat := leNat ((l.drop off).take n)

/-- VERSION [31:8] of an image: major, minor, patch. -/
def imgVersion (l : List Byte) : Nat := imgField l 0x008 4 / 256

/-- BODY_LENGTH of an image. -/
def imgBody (l : List Byte) : Nat := imgField l 0x014 4

/-- The checks of R62 in order on an image of a type: a result code of SYS.BOOT_STATUS, 1 verified. -/
def imageResult (type : Nat) (l : List Byte) : Nat :=
  let n := imgBody l
  let k := imgField l 0x010 4
  if imgField l 0 4 ≠ 0x53489680 ∨ imgField l 4 4 ≠ type ∨ n % 16 ≠ 0 ∨ 16776704 < n then 2
  else if 4 ≤ k ∨ !Config.keyProgrammed k then 3
  else if Config.keyRevoked k then 4
  else
    let d := Config.sha384 (l.take 0x20 ++ (l.drop 512).take n)
    if d ≠ (l.drop 0x20).take 48 then 5
    else if !Config.ecdsaVerifies k d ((l.drop 0x50).take 96) then 6
    else if imgField l 0x00C 4 < Config.minSecVersion then 7
    else 1

/-- DETAIL of IMAGE_REJECTED for a result code. -/
def rejectDetail (r : Nat) : Nat :=
  if r = 2 then 4 else if r = 3 then 3 else if r = 4 then 5 else if r = 5 then 1 else if r = 6 then 2 else 6

/-- The boot staging area in Treasury, and the live-update staging area at the top of installed bulk memory. -/
def bootArea : Nat := 0x02000000

def State.stagingArea (s : State) : Nat := bulkBase - 0x1000000 + s.memSys.capacity

/-- Bytes of an internal address range as a unit reads them. -/
def State.bytesAt (s : State) (a n : Nat) : List Byte × State :=
  let (l, s) := s.readMem a n
  (l.map Prod.fst, s)

def State.images (s : State) : Images := s.dvorys.images

def State.setImages (s : State) (x : Images) : State := { s with dvorys := { s.dvorys with images := x } }

/-- The bytes of an SPI slot. -/
def State.spiSlot (s : State) (k : Nat) : List Byte := tget [] s.dvorys.spi k

/-- The active Dvorys pair. -/
def State.activePair (s : State) : Nat := if s.fld Reg.DVORYS.PAIR_STATUS_ROLE 1 = 2 then 1 else 0

/-- Dvorys starts from a verified image (R61, R62): DVORYS[0] active, DVORYS[1] standby, rings served. -/
def State.dvorysUp (s : State) (slot version : Nat) (host : Bool) : State :=
  let pair (s : State) (p role : Nat) : State :=
    ((s.setFld Reg.DVORYS.PAIR_STATUS_ROLE p role).setFld Reg.DVORYS.PAIR_STATUS_IMAGE_SLOT p slot).setFld
      Reg.DVORYS.PAIR_STATUS_VERSION p version
  let s := pair (pair s 0 2) 1 1
  let s := (s.setFld Reg.SYS.BOOT_STATUS_SLOT_USED 0 slot).setFld Reg.SYS.BOOT_STATUS_FROM_HOST 0 (b2n host)
  (s.setFld Reg.SYS.RAISE_STATUS_DVORYS_UP 0 1).syncReady

/-- The boot ROM's sources not yet tried, in the order of R60: SPI slots 0 and 1. -/
def State.bootSources (s : State) : List Nat :=
  let m := s.fld Reg.SYS.BOOT_STATUS_BOOT_MODE 0
  let b := s.images.bootSlot
  let all := if m = 0 then [b, 1 - b] else if m = 1 then [0] else if m = 2 then [1] else []
  all.filter (fun k => s.fld (if k = 0 then Reg.SYS.BOOT_STATUS_SLOT_A_RESULT else Reg.SYS.BOOT_STATUS_SLOT_B_RESULT) 0 == 0)

/-- Whether the boot ROM still looks for an image. -/
def State.booting (s : State) : Bool := s.modes.mode == .raising && !s.bit Reg.SYS.RAISE_STATUS_DVORYS_UP 0

/-- A candidate from an SPI slot copied to the boot staging area and checked (R62). -/
def State.bootSlotCheck (s : State) (k : Nat) : State :=
  let l := s.spiSlot k
  let s := s.writeMem bootArea (clean (l.take 0x1000000))
  let r := imageResult 0 l
  let s := s.setFld (if k = 0 then Reg.SYS.BOOT_STATUS_SLOT_A_RESULT else Reg.SYS.BOOT_STATUS_SLOT_B_RESULT) 0 r
  if r = 1 then s.dvorysUp k (imgVersion l) false
  else if s.bootSources.isEmpty then s.setFld Reg.SYS.BOOT_STATUS_WAITING_HOST 0 1 else s

/-- A write of PCIE.BOOT_PUSH (R384): the staging area verified as it stands. -/
def State.bootPush (s : State) (v : Word) : State :=
  if s.bit Reg.SYS.BOOT_STATUS_WAITING_HOST 0 ∧ wordField v 31 31 = 1 then
    let (l, s) := s.bytesAt bootArea (min 0x1000000 (wordField v 24 0))
    let r := imageResult 0 l
    let s := s.setFld Reg.SYS.BOOT_STATUS_HOST_RESULT 0 r
    if r = 1 then (s.setFld Reg.SYS.BOOT_STATUS_WAITING_HOST 0 0).dvorysUp 0 (imgVersion l) true else s
  else s

end Sys2Proof.Machine
end

