-- ==== Sys2Proof/Machine/Journal.lean ====
section
/-! DEFINITION. The journal arbiter and the classes' LOST entries (R27, R30, R439). -/
namespace Sys2Proof.Machine

/-- The event of a class that R27 grants: round robin over its instances after the one granted last, in FIFO order
within one instance. DESIGN CHOICE: the class's LOST entry, selector 0x3FF, stands in that round as instance 1023, and events of
one instance keep their order (log entry 42). -/
def classPick (last : Nat) (q : List JEvent) : Option JEvent :=
  match rrPick 1024 last (fun i => q.any (fun e => e.inst == i)) with
  | some i => q.find? (fun e => e.inst == i)
  | none => none

/-- JOURNAL_GRANT (R27): the arbiter grants one class's event, stamps it and writes it; nothing with no event queued, with
JOURNAL.CTL.ENABLE = 0 or in Banked. DESIGN CHOICE: events in a class FIFO when ENABLE becomes 0, or Banked is entered, stay queued and
are written once posting is possible again; R439 counts only those that occur meanwhile (log entry 42). -/
def execJournalGrant (s : State) : Host.Outcome State Fault Refusal :=
  if s.modes.mode = .banked ∨ s.fld Reg.JOURNAL.CTL_ENABLE 0 = 0 then .next s
  else
    match rrPick 256 s.journal.lastCls (fun c => !(tget [] s.journal.fifo c).isEmpty) with
    | none => .next s
    | some c =>
      let q := tget [] s.journal.fifo c
      match classPick (tget 1023 s.journal.lastInst c) q with
      | none => .next s
      | some e =>
        let j := { s.journal with
          fifo := tset [] s.journal.fifo c (q.erase e)
          lastCls := c
          lastInst := tset 1023 s.journal.lastInst c e.inst }
        .next (({ s with journal := j }).journalWrite e s.devclk)

/-- LOST (R439): a class whose FIFO has room again posts one LOST entry with its count, which restarts. -/
def execLost (cls : BitVec 8) (s : State) : Host.Outcome State Fault Refusal :=
  let c := cls.toNat
  let n := tget 0 s.journal.lost c
  let q := tget [] s.journal.fifo c
  if n = 0 ∨ 4 ≤ q.length ∨ s.fld Reg.JOURNAL.CTL_ENABLE 0 = 0 ∨ s.modes.mode = .banked then .next s
  else
    let j := { s.journal with
      fifo := tset [] s.journal.fifo c (q ++ [⟨c, 0x3FF, 0x7FF, 1, BitVec.ofNat 32 n⟩])
      lost := tset 0 s.journal.lost c 0 }
    .next { s with journal := j }

end Sys2Proof.Machine
end

