-- ==== Sys2Proof/Machine/Ledger.lean ====
section
/-! DEFINITION. Metering steps, meter faults, tally periods, ADJUST and parking (R197-R212). -/
namespace Sys2Proof.Machine

/-- Corrected energy of one step: P_raw × GAIN + OFFSET × 2^14 in units of 2^-14 mite, a mite being the energy of
1 mW over 1 µs; never below zero. -/
def State.stepEnergy (s : State) (p raw : Nat) : Nat :=
  (raw * s.fld Reg.METER.CAL_GAIN_GAIN p + 2 ^ 14 * signedOf 16 (s.fld Reg.METER.CAL_OFFSET_OFFSET p) : Int).toNat

/-- The metering point of a unit (R197): its Course, or its CODE domain. -/
def pointOfUnit (u : Nat) : Nat := match unitOf u with
  | (cls, inst) => if cls = 0x11 then inst / 8 else 24 + codeDomain cls inst

/-- Accounts that take mode-2 shares. -/
def State.spreadAccounts (s : State) : List Nat := (List.range 64).filter (fun a => s.bit Reg.ACCOUNT.POLICY_SPREAD_EN a)

/-- Constants a METER_CALIBRATE found take effect from the first step that opens after its event (R199). -/
def State.takeCal (s : State) (p : Nat) : State :=
  match (s.meter p).newCal with
  | some c =>
    ((s.setMeter p { s.meter p with newCal := none }).setFld Reg.METER.CAL_GAIN_GAIN p c.1.toNat).setFld
      Reg.METER.CAL_OFFSET_OFFSET p c.2.toNat
  | none => s

/-- The domains of a metering point that can be parked or powered off (R197). -/
def pointDomains (p : Nat) : List Nat :=
  if p < 32 then [4 + p]
  else if p < 36 then [36 + 2 * (p - 32), 37 + 2 * (p - 32)]
  else if p = 36 then [44]
  else if p = 37 then (List.range 16).map (62 + ·)
  else if p < 42 then [45 + (p - 38)]
  else if p < 45 then (List.range 4).map (fun k => 49 + 4 * (p - 42) + k)
  else if p = 45 then [61] else []

/-- Whether a point's domains are powered and not parked (R199). -/
def State.pointOn (s : State) (p : Nat) : Bool := (pointDomains p).all (fun d => s.domState d == 3)

/-- What was counted under one key, as energy of a point in fJ. -/
def State.keyEnergy (s : State) (p : Nat) (l : Tab Nat) (k : Nat) : Nat :=
  ((l.filter (fun x => x.1 / 8 == k)).map (fun x => x.2 * s.eventEnergy p (x.1 % 8))).sum

/-- The activity of a point's units in the step that closes (R201): the task, or for one already trued up its account (`true`), with
the energy in 1/256 mite; a mite is 10^6 fJ. -/
def State.pointActs (s : State) (p : Nat) : List (Nat × Bool × Nat) :=
  let keys (l : Tab Nat) (w : Nat) : List Nat := ((l.map (fun x => x.1 / 8)).eraseDups).filter (fun k => pointOfUnit (k / w) == p)
  (keys s.ledger.counts (2 ^ 14)).map (fun k => (k % 2 ^ 14, false, s.keyEnergy p s.ledger.counts k * 256 / 10 ^ 6)) ++
  (keys s.ledger.late 64).map (fun k => (k % 64, true, s.keyEnergy p s.ledger.late k * 256 / 10 ^ 6))

/-- The step of one point (R198, R199, R201): its energy added, the fraction carried, and charged by the MODE in effect.
A point in fault reports the mean step of the last closed period. OWNER as written takes effect with the next step. -/
def State.meterPoint (s : State) (p raw : Nat) : State :=
  let m := s.meter p
  let sub := s.bit Reg.METER.STATUS_FAULT p
  let tot := m.frac + if sub then m.meanStep else s.stepEnergy p raw
  let e := tot / 2 ^ 14
  let owner := m.ownerNow
  let m := { m with
    energy := m.energy + BitVec.ofNat 64 e
    frac := tot % 2 ^ 14
    period := m.period + e
    steps := m.steps + 1
    lastRaw := raw
    stuck := if raw ≠ m.lastRaw then 0 else if s.pointOn p then m.stuck + 1 else m.stuck
    ownerNow := s.fld Reg.METER.CTL_OWNER p }
  let s := (s.setMeter p m).setFld Reg.METER.STEP_STEP_MITES p (min (2 ^ 24 - 1) e)
  let s := (s.setFld Reg.METER.STATUS_SUBSTITUTING p (b2n sub)).takeCal p
  if m.modeNow = 2 then s
  else if m.modeNow = 1 then
    let act := s.pointActs p
    let sum := (act.map (fun x => x.2.2)).sum
    let scale (a : Nat) : Nat := if 256 * e < sum then a * (256 * e) / sum else a
    let s := act.foldl (fun s x =>
      let a := scale x.2.2
      if x.2.1 then s.charge x.1 a false true
      else
        match s.task x.1 with
        | some t => (s.putTask x.1 { t with accrual := t.accrual + a }).accrue t.account a
        | none => s.charge owner a) s
    s.charge owner (256 * e - (act.map (fun x => scale x.2.2)).sum)
  else s.charge owner (256 * e)

/-- The stretch level after a step with the last WINDOW step totals (R212); held at 0 during a fault recovery. -/
def State.stretchStep (s : State) (total : Nat) : State :=
  let w := max 1 (s.fld Reg.LEDGER.HARD_CEIL_WINDOW 0)
  let win := (total :: s.ledger.window).take 255
  let s := { s with ledger := { s.ledger with window := win } }
  let level := s.fld Reg.LEDGER.STATUS_LEVEL 0
  let s := if 0 < level then s.addFld Reg.LEDGER.STRETCH_US_STRETCH_US 0 1 else s
  if s.fld Reg.LEDGER.CTL_STRETCH_EN 0 = 0 ∨ s.ledger.hold then s
  else
    let limit := max 1 (s.fld Reg.LEDGER.HARD_CEIL_LIMIT 0) * w * 100
    let wn := (win.take w).sum
    if limit < wn ∧ level < 8 then s.setLevel (level + 1)
    else if wn * 32 ≤ limit * 31 ∧ 0 < level then s.setLevel (level - 1)
    else s

/-- METER_STEP (R198): a step closes at a DEVCLK value that is a multiple of 100, once: every point's energy is added and charged, and
the stretch level adjusted. `units` are the uncorrected powers in mW of points 0–31, the Courses and CODE domains, `others` those of
points 32–47. -/
def execMeterStep (units others : List Nat) (s : State) : Host.Outcome State Fault Refusal :=
  if s.devclk.toNat % 100 ≠ 0 ∨ s.ledger.stepAt = s.devclk.toNat + 1 then .next s
  else
    let before := (List.range 48).map (fun p => (s.meter p).energy)
    let s := (List.range 48).foldl (fun s p => s.meterPoint p (if p < 32 then units.getD p 0 else others.getD (p - 32) 0)) s
    let total := ((List.range 48).map (fun p => ((s.meter p).energy - before.getD p 0).toNat)).sum
    .next (({ s with ledger := { s.ledger with counts := [], late := [], stepAt := s.devclk.toNat + 1 } }).stretchStep total)

/-- A point goes into meter fault (R199): FAULT and FAULT_SEEN set, journalled with its cause, reported. -/
def State.meterFault (s : State) (p cause : Nat) : State :=
  let s := (s.setFld Reg.METER.STATUS_FAULT p 1).setFld Reg.METER.STATUS_FAULT_SEEN p 1
  (s.post 0x29 p 0x001 3 (p + cause * 2 ^ 6)).reportFault 11 0x29 p

/-- METER_FAULT (R199): a reading unchanged for 1,024 steps, or (`range`) a step above twice the rated maximum. -/
def execMeterFault (point : Fin 48) (range : Bool) (s : State) : Host.Outcome State Fault Refusal :=
  if s.bit Reg.METER.STATUS_FAULT point then .next s
  else if range then .next (s.meterFault point 1)
  else if 1024 ≤ (s.meter point).stuck then .next (s.meterFault point 0)
  else .next s

/-- METER_REFERENCE_CHECK (R199): the check of every 100 ms; a disagreement above 6 % is a fault. -/
def execMeterReferenceCheck (point : Fin 48) (within : Bool) (s : State) : Host.Outcome State Fault Refusal :=
  if within ∨ s.bit Reg.METER.STATUS_FAULT point then .next s else .next (s.meterFault point 2)

/-- Steps 1 and 2 of R208: each mode-2 point's period energy spread by the accounts' own energy, the rest to the owner. -/
def State.spreadPeriod (s : State) : List (Nat × Nat) :=
  let sp := s.spreadAccounts
  let w := sp.map (fun a => (a, (s.account a).spreadBase))
  let t := (w.map (·.2)).sum
  (List.range 48).flatMap (fun p =>
    let m := s.meter p
    if m.modeNow = 2 then
      if t = 0 then [(m.ownerNow, 256 * m.period)]
      else
        let sh := w.map (fun x => (x.1, 256 * m.period * x.2 / t))
        sh ++ [(m.ownerNow, 256 * m.period - (sh.map (·.2)).sum)]
    else [])

/-- Step 3 of R208 for one account: its spread charges, its statistics latched, its mint, its deferred heads asked
again. -/
def State.reconcile (s : State) (shares : List (Nat × Nat)) (actual nominal a : Nat) : State :=
  let s := (shares.filter (fun x => x.1 == a)).foldl (fun s x => s.charge a x.2 true) s
  let x := s.account a
  let s := s.setFld Reg.ACCOUNT.PERIOD_DRAW_MITES a (min allOnes32 (x.periodDraw / 256))
  let s := s.setFld Reg.ACCOUNT.OVERDRAFT_MITES a (clampMites x.minCredit)
  let s := s.setAccount a { x with
    periodDraw := 0, spreadBase := 0, overdraftPosted := false, periodAll := 0, staticNow := 0, staticLast := x.staticNow }
  (s.mint a (mintAmount (s.fld Reg.ACCOUNT.MINT_MINT a) actual nominal)).creditChange a false

/-- Whether consumer i of R209 has its permit. -/
def State.permits (s : State) : Nat :=
  let ok (f : Field) : Bool :=
    let a := s.fld f 0
    decide (256 * (s.fld Reg.ACCOUNT.RESERVE_RESERVE a : Int) ≤ (s.account a).credit.toInt) &&
    (!s.bit Reg.LEDGER.STATUS_THRIFT_ACTIVE 0 ||
      decide (256 * (s.fld Reg.LEDGER.THRIFT_RESERVE_RESERVE 0 : Int) ≤ s.ledger.devCredit.toInt))
  b2n (ok Reg.LEDGER.OPP_ACCOUNT_VAULT) + 2 * b2n (ok Reg.LEDGER.OPP_ACCOUNT_SCRUB_ONCHIP) +
    4 * b2n (ok Reg.LEDGER.OPP_ACCOUNT_SCRUB_BULK)

/-- The Thrift device account at a period start (R211, R57): entered or left as asked, DEV_CREDIT set afresh, which may be below 0 at
once (R216); every deferred head is asked again, and held unpark requests are granted where it allows. -/
def State.thriftPeriod (s : State) : State :=
  let s := match s.ledger.thriftAsk with
    | some b => ({ s with ledger := { s.ledger with thriftAsk := none } }).setFld Reg.LEDGER.STATUS_THRIFT_ACTIVE 0 (b2n b)
    | none => s
  if s.bit Reg.LEDGER.STATUS_THRIFT_ACTIVE 0 then
    let out := ((List.range 64).map (fun a => (s.account a).outstanding.toInt)).sum
    let d := book (256 * (s.fld Reg.LEDGER.THRIFT_CEIL_CEIL 0 : Int) - out)
    let s := { s with ledger := { s.ledger with devCredit := d, thriftExhausted := false } }
    ((s.devMove 0).creditChange 0 true).grantUnparks
  else s.grantUnparks

/-- A meter's period closed: PERIOD, the mean step kept, MODE taking effect (R197, R199). -/
def State.closeMeter (s : State) (p : Nat) : State :=
  let m := s.meter p
  let mode := s.fld Reg.METER.CTL_MODE p
  let s := s.setFld Reg.METER.PERIOD_PERIOD_MITES p (min allOnes32 m.period)
  s.setMeter p { m with
    period := 0, steps := 0, meanStep := 2 ^ 14 * m.period / max 1 m.steps, modeNow := if mode = 3 then 0 else mode }

/-- AHNENT event FEC_UNCORR of a tally period with any (R326). -/
def State.fecPeriod (s : State) : State :=
  let s := s.lanes.fecLost.foldl (fun s p => s.post 0x52 p.1 0x004 1 p.2) s
  { s with lanes := { s.lanes with fecLost := [] } }

/-- R208 for a closed period that minted MINT × actual ÷ nominal length: spread, reconciliation of accounts 0-63 in order, mint,
the Thrift account, permits. -/
def State.closePeriod (s : State) (actual nominal : Nat) : State :=
  let shares := s.spreadPeriod
  let total := ((List.range 48).map (fun p => (s.meter p).period)).sum
  let s := (s.setFld Reg.LEDGER.LAST_TOTAL_LAST_TOTAL 0 (min allOnes32 total)).addFld Reg.LEDGER.PERIOD_NUM_COUNT 0 1
  let s := (List.range 48).foldl State.closeMeter s
  let s := (List.range 64).foldl (fun s a => s.reconcile shares actual nominal a) s
  let s := s.thriftPeriod.fecPeriod
  (s.setFld Reg.LEDGER.OPP_PERMIT_PERMIT 0 s.permits).vaultPeriod.ethPeriod.tracePeriod

/-- The oldest period that has come to its end, with its actual and nominal length, and the state without it. -/
def State.periodDue (s : State) : Option (Nat × Nat × State) :=
  match s.ledger.closes with
  | (a, n) :: r => some (a, n, { s with ledger := { s.ledger with closes := r } })
  | [] => s.periodOver

/-- PERIOD_CLOSE (R200, R208): the oldest period that has come to its end, of this actual and nominal length, is closed; `grid` says
whether periods end on the grid of TB_0, or on DEVCLK before TB_0 runs. -/
def execPeriodClose (actual nominal : Nat) (grid : Bool) (s : State) : Host.Outcome State Fault Refusal :=
  match s.periodDue with
  | some (a, n, t) =>
    if a = actual ∧ n = nominal ∧ s.ledger.periodEnd.isSome = grid then .next (t.closePeriod a n) else .next s
  | none => .next s

/-- ADJUST (R202): a write of ACCOUNT.ADJUST. -/
def execAdjust (req : Fin 14) (sel : BitVec 10) (value : Word) (s : State) : Host.Outcome State Fault Refusal :=
  .next (s.hubEach req 0x2A sel.toNat 0x018 (fun s a => s.adjust a value.toInt))

/-- The account's statistics counters at 0x070-0x084. -/
def State.clrAccount (s : State) (a : Nat) : State :=
  [0x070, 0x074, 0x078, 0x07C, 0x080, 0x084].foldl (fun s o => s.setReg 0x2A a o 0) s

/-- ACCOUNT_CLR_STATS (R6): ACCOUNT.CLEAR.CLR_STATS. -/
def execAccountClrStats (req : Fin 14) (sel : BitVec 10) (s : State) : Host.Outcome State Fault Refusal :=
  .next (s.hubEach req 0x2A sel.toNat 0x014 State.clrAccount)

/-- Whether a commit is pending on a channel of an FE slice. -/
def State.slicePending (s : State) (f : Nat) : Bool :=
  s.streams.ch.any (fun e => e.1 % 512 / 64 == f && e.2.pend.isSome)

/-- Whether a COURSE, CODE or FE domain is idle (R102, R143, R210). -/
def State.domainIdle (s : State) (d : Nat) : Bool :=
  if 4 ≤ d ∧ d < 28 then
    (List.range 8).all (fun k => (s.slot (8 * (d - 4) + k)).isEmpty && (s.core (8 * (d - 4) + k)).task.isNone &&
      !(s.core (8 * (d - 4) + k)).halted && (s.cmu (d - 4)).depth k == 0)
  else if 28 ≤ d ∧ d < 36 then
    (List.range 232).all (fun u => u < 192 || pointOfUnit u != 24 + (d - 28) ||
      ((s.slot u).isEmpty && (s.runningOn u).isNone && wordField (s.reg (unitOf u).1 (unitOf u).2 0x004) 1 0 == 0 &&
        wordField (s.reg (unitOf u).1 (unitOf u).2 0x004) 5 5 == 0))
  else decide (36 ≤ d) && decide (d < 44) && wordField (s.reg 0x0B (d - 36) 0x000) 16 16 == 1 && !s.slicePending (d - 36)

/-- How long a domain must have been idle before it is parked, in µs (R210). -/
def State.parkDelay (s : State) : Nat :=
  if s.bit Reg.LEDGER.STATUS_THRIFT_ACTIVE 0 then s.fld Reg.LEDGER.CTL_THRIFT_PARK_DELAY 0 else s.fld Reg.LEDGER.CTL_PARK_DELAY 0

/-- Whether the ledger may park a domain (R210): on, not inhibited, PARK_EN set, not being fenced, idle and continuously so for the
delay. -/
def State.mayPark (s : State) (d : Nat) : Bool :=
  s.bit Reg.LEDGER.CTL_PARK_EN 0 && !s.bit Reg.PWR.CTL_PARK_INHIBIT d && s.domState d == 3 && !s.bit Reg.PWR.STATUS_FENCED d &&
  s.domainIdle d && decide (tget 0 s.ledger.busyAt d + 100 * s.parkDelay ≤ s.devclk.toNat + 1)

/-- Domains that are not idle now (R210): their idleness begins later. -/
def State.noteBusy (s : State) : State :=
  { s with ledger := { s.ledger with busyAt := (List.range 44).foldl (fun l d =>
      if 4 ≤ d ∧ !s.domainIdle d then tset 0 l d (s.devclk.toNat + 1) else l) s.ledger.busyAt } }

/-- DOMAIN_PARK (R210): an idle domain parks, with the PARK event of a Course (R127). -/
def execDomainPark (domain : Fin 78) (s : State) : Host.Outcome State Fault Refusal :=
  if s.mayPark domain then
    let s := (s.setFld Reg.PWR.STATUS_STATE domain 4).addFld Reg.PWR.PARKS_PARKS domain 1
    .next (if 4 ≤ domain.val ∧ domain.val < 28 then s.post 0x10 (domain - 4) 0x001 0 1 else s)
  else .next s

/-- The parked domain that a queue's pool asks for (R184): the lowest-numbered one of its units, while none of its eligible units has
room. -/
def State.queueUnparks (s : State) (q : Nat) : Option Nat :=
  let us := (List.range 232).filter (s.inPool q)
  if us.any (fun u => s.eligible u && decide ((s.slot u).length < 2)) then none
  else (List.range 78).find? (fun d => s.domState d == 4 && us.any (fun u => domainOf (unitOf u).1 (unitOf u).2 == some d))

/-- The READY heads that ask for a parked domain (R184): of enabled queues not DEFERRED. -/
def State.unparkHeads (s : State) (d : Nat) : List Task :=
  (List.range 256).filterMap (fun q =>
    if s.bit Reg.DQUEUE.CTL_ENABLE q && !s.bit Reg.DQUEUE.STATE_DEFERRED q then
      match s.headOf q with
      | some (_, t) => if s.queueUnparks q = some d then some t else none
      | none => none
    else none)

/-- DOMAIN_UNPARK (R184, R210, R211): a parked domain that a READY head asks for, or an FE slice with a commit pending, is unparked; in
Thrift requests of heads below G0 alone are held while DEV_CREDIT is below THRIFT_RESERVE. -/
def execDomainUnpark (domain : Fin 78) (s : State) : Host.Outcome State Fault Refusal :=
  if s.domState domain = 4 then
    if 36 ≤ domain.val then (if s.slicePending (domain - 36) then .next (s.unpark domain) else .next s)
    else
      let heads := s.unparkHeads domain
      let poor := s.bit Reg.LEDGER.STATUS_THRIFT_ACTIVE 0 &&
        decide (s.ledger.devCredit.toInt < 256 * (s.fld Reg.LEDGER.THRIFT_RESERVE_RESERVE 0 : Int))
      if heads.isEmpty then .next s
      else if poor && heads.all (fun t => t.grade != 0) then
        .next (if s.ledger.unparks.contains domain.val then s
          else { s with ledger := { s.ledger with unparks := s.ledger.unparks ++ [domain.val] } })
      else .next (s.unpark domain)
  else .next s

end Sys2Proof.Machine
end

