-- ==== Sys2Proof/Machine/Sett.lean ====
section
/-! DEFINITION. The MAC slot of a Sett core (R134, R135): one meaning per instruction, over the forms of R134. Each takes its turn
in the bundle at the core's PC (`State.macOp`). -/
namespace Sys2Proof.Machine

/-! ## Forms -/

/-- A write of accumulator lanes: seen by accumulating instructions after 1 bundle, by extracts and moves after 3 (R131). -/
def accOut (d : Nat) (x : BitVec 1280) (p : Word) (ov : List (Nat × RegWrite)) (macs : Nat) : SlotOut :=
  { writes := [(1, .va (d % 8) x (vaMask p)), (3, .vx (d % 8) x (vaMask p))] ++ ov, macs := macs }

/-- OV[d] set when a selected lane overflowed; accumulating never clears it (R110). -/
def ovSet (d : Nat) (b : Bool) : List (Nat × RegWrite) :=
  if b then [(3, .ov (BitVec.ofNat 8 (2 ^ (d % 8))) (BitVec.ofNat 8 (2 ^ (d % 8))))] else []

/-- OV[d] given a value, whatever the predicate (R133). -/
def ovPut (d : Nat) (b : Bool) : List (Nat × RegWrite) :=
  [(3, .ov (if b then BitVec.ofNat 8 (2 ^ (d % 8)) else 0) (BitVec.ofNat 8 (2 ^ (d % 8))))]

/-- VAd.lane i += f i on the selected lanes (R110). -/
def accumulate (k : Core) (w : Nat) (p : Word) (f : Nat → Int) : SlotOut :=
  let d := macD w
  let sum (i : Nat) : Int := accLane (k.rVA d) i + f i
  accOut d (ofAccLanes sum) p (ovSet d (anyOver p sum)) 32

/-- VAd.lane i = f i on the selected lanes, OV[d] cleared. -/
def loadAcc (w : Nat) (p : Word) (f : Nat → Int) (macs : Nat) : SlotOut :=
  accOut (macD w) (ofAccLanes f) p (ovPut (macD w) false) macs

/-- Real and imaginary terms of a complex product, of a × conj(b) where `conj` (R135). -/
def cTerm (a b : BitVec 512) (conj : Bool) (i : Nat) : Int :=
  let j := i / 2
  let ar := lane a (2 * j); let ai := lane a (2 * j + 1)
  let br := lane b (2 * j); let bi := lane b (2 * j + 1)
  if conj then (if i % 2 = 0 then ar * br + ai * bi else ai * br - ar * bi)
  else (if i % 2 = 0 then ar * br - ai * bi else ar * bi + ai * br)

/-- The complex accumulate forms of R135: lanes `lo` to `lo + 15`. -/
def cmac (k : Core) (w lo : Nat) (conj : Bool) : SlotOut :=
  accumulate k w (halfMask (k.rP (macP w)) lo) (cTerm (k.rV (macA w)) (k.rV (macB w)) conj)

/-- Vd.lane i = f i on the selected lanes; `sat` saturates and sets SAT. -/
def vecOut (k : Core) (w lat : Nat) (p : Word) (sat : Bool) (f : Nat → Int) (macs : Nat := 0) : SlotOut :=
  let x := ofLanes (fun i => if sat then sat16 (f i) else f i)
  { writes := [(lat, .v (k.phys (macD w)) x (vMask p))] ++ (if sat && anySat p f then [(3, .sat true)] else []), macs := macs }

/-- The predicate of a MAC slot. -/
def macPred (k : Core) (w : Nat) : Word := k.rP (macP w)

/-- A two-source vector instruction on lanes. -/
def vec2 (k : Core) (w : Nat) (sat : Bool) (f : Int → Int → Int) (macs : Nat := 0) : SlotOut :=
  vecOut k w 2 (macPred k w) sat (fun i => f (lane (k.rV (macA w)) i) (lane (k.rV (macB w)) i)) macs

/-- A one-source vector instruction on lanes, with the lane's number. -/
def vec1 (k : Core) (w : Nat) (sat : Bool) (f : Nat → Int → Int) : SlotOut :=
  vecOut k w 2 (macPred k w) sat (fun i => f i (lane (k.rV (macA w)) i))

/-- The extracts of R111. -/
def extract (k : Core) (w sh : Nat) (sat : Bool) : SlotOut :=
  vecOut k w 3 (macPred k w) sat (fun i => shiftDown (accLane (k.rVX (macA w)) i) sh)

/-- A bitwise instruction: whole registers, merged under the predicate. -/
def vecBits (k : Core) (w : Nat) (f : BitVec 512 → BitVec 512 → BitVec 512) : SlotOut :=
  { writes := [(2, .v (k.phys (macD w)) (f (k.rV (macA w)) (k.rV (macB w))) (vMask (macPred k w)))] }

/-- A compare into a predicate: bits disabled by Pp keep their value; P0 takes no write (R134). -/
def vecCompare (k : Core) (w : Nat) (f : Int → Int → Bool) : SlotOut :=
  let x := (List.range 32).foldl (fun a i =>
    if f (lane (k.rV (macA w)) i) (lane (k.rV (macB w)) i) then a + 2 ^ i else a) 0
  { writes := [(2, .p (macD w % 8) (BitVec.ofNat 32 x) (macPred k w))] }

/-! ## Accumulators -/

/-- VMAC: VAd.lane i += a_i × b_i. -/
def execVmac (core : Fin 192) (mac : Fin 2) (s : State) : Host.Outcome State Fault Refusal :=
  .next (s.macOp core mac 0x01 (fun k w =>
    accumulate k w (macPred k w) (fun i => lane (k.rV (macA w)) i * lane (k.rV (macB w)) i)))

/-- VMSU: VAd.lane i −= a_i × b_i. -/
def execVmsu (core : Fin 192) (mac : Fin 2) (s : State) : Host.Outcome State Fault Refusal :=
  .next (s.macOp core mac 0x02 (fun k w =>
    accumulate k w (macPred k w) (fun i => -(lane (k.rV (macA w)) i * lane (k.rV (macB w)) i))))

/-- VMUL: VAd.lane i = a_i × b_i; OV[d] ← 0. -/
def execVmul (core : Fin 192) (mac : Fin 2) (s : State) : Host.Outcome State Fault Refusal :=
  .next (s.macOp core mac 0x03 (fun k w =>
    loadAcc w (macPred k w) (fun i => lane (k.rV (macA w)) i * lane (k.rV (macB w)) i) 32))

/-- VCMAC.L: complex elements 0-7 (R135). -/
def execVcmacL (core : Fin 192) (mac : Fin 2) (s : State) : Host.Outcome State Fault Refusal :=
  .next (s.macOp core mac 0x04 (fun k w => cmac k w 0 false))

/-- VCMAC.H: complex elements 8-15. -/
def execVcmacH (core : Fin 192) (mac : Fin 2) (s : State) : Host.Outcome State Fault Refusal :=
  .next (s.macOp core mac 0x05 (fun k w => cmac k w 16 false))

/-- VCMACJ.L: elements 0-7 of a × conj(b). -/
def execVcmacjL (core : Fin 192) (mac : Fin 2) (s : State) : Host.Outcome State Fault Refusal :=
  .next (s.macOp core mac 0x06 (fun k w => cmac k w 0 true))

/-- VCMACJ.H: elements 8-15 of a × conj(b). -/
def execVcmacjH (core : Fin 192) (mac : Fin 2) (s : State) : Host.Outcome State Fault Refusal :=
  .next (s.macOp core mac 0x07 (fun k w => cmac k w 16 true))

/-- VACLR: lanes = 0; OV[d] ← 0. -/
def execVaclr (core : Fin 192) (mac : Fin 2) (s : State) : Host.Outcome State Fault Refusal :=
  .next (s.macOp core mac 0x08 (fun k w => loadAcc w (macPred k w) (fun _ => 0) 0))

/-- VALD: lane i = a_i << sh, sh above 24 acting as 24; OV[d] ← 0. -/
def execVald (core : Fin 192) (mac : Fin 2) (s : State) : Host.Outcome State Fault Refusal :=
  .next (s.macOp core mac 0x09 (fun k w =>
    loadAcc w (macPred k w) (fun i => lane (k.rV (macA w)) i * 2 ^ min 24 (macImm w % 32)) 0))

/-- VAMOV: copy; OV[d] ← 0. -/
def execVamov (core : Fin 192) (mac : Fin 2) (s : State) : Host.Outcome State Fault Refusal :=
  .next (s.macOp core mac 0x0A (fun k w => loadAcc w (macPred k w) (fun i => accLane (k.rVX (macA w)) i) 0))

/-- The exact sums of VARED by lane: even and odd lanes, or all lanes. -/
def redSum (x : BitVec 1280) (all_ : Bool) (i : Nat) : Int :=
  let half (o : Nat) : Int := ((List.range 16).map (fun j => accLane x (2 * j + o))).sum
  if all_ then (if i = 0 then half 0 + half 1 else 0)
  else if i = 0 then half 0 else if i = 1 then half 1 else 0

/-- VARED: sums into lanes 0 and 1, other lanes 0; OV[d] is OV[a], or set by a sum that 40 bits cannot hold. -/
def execVared (core : Fin 192) (mac : Fin 2) (s : State) : Host.Outcome State Fault Refusal :=
  .next (s.macOp core mac 0x0B (fun k w =>
    let p := macPred k w
    let f := redSum (k.rVX (macA w)) (macImm w % 2 == 1)
    let d := macD w % 8
    let ov := k.ov.getLsbD (macA w % 8) || anyOver p f
    { writes := [(4, .va d (ofAccLanes f) (vaMask p)), (4, .vx d (ofAccLanes f) (vaMask p))] ++ ovPut d ov }))

/-! ## Extracts -/

/-- VEXT: plain extract with an immediate shift. -/
def execVext (core : Fin 192) (mac : Fin 2) (s : State) : Host.Outcome State Fault Refusal :=
  .next (s.macOp core mac 0x0C (fun k w => extract k w (macImm w % 32) false))

/-- VEXTS: saturating extract with an immediate shift. -/
def execVexts (core : Fin 192) (mac : Fin 2) (s : State) : Host.Outcome State Fault Refusal :=
  .next (s.macOp core mac 0x0D (fun k w => extract k w (macImm w % 32) true))

/-- VEXTR: plain extract, the shift taken unsigned from Sb. -/
def execVextr (core : Fin 192) (mac : Fin 2) (s : State) : Host.Outcome State Fault Refusal :=
  .next (s.macOp core mac 0x0E (fun k w => extract k w (k.rS (macB w)).toNat false))

/-- VEXTRS: saturating extract, the shift taken unsigned from Sb. -/
def execVextrs (core : Fin 192) (mac : Fin 2) (s : State) : Host.Outcome State Fault Refusal :=
  .next (s.macOp core mac 0x0F (fun k w => extract k w (k.rS (macB w)).toNat true))

/-! ## Vectors -/

def execVadd (core : Fin 192) (mac : Fin 2) (s : State) : Host.Outcome State Fault Refusal :=
  .next (s.macOp core mac 0x10 (fun k w => vec2 k w false (fun a b => a + b)))

def execVadds (core : Fin 192) (mac : Fin 2) (s : State) : Host.Outcome State Fault Refusal :=
  .next (s.macOp core mac 0x11 (fun k w => vec2 k w true (fun a b => a + b)))

def execVsub (core : Fin 192) (mac : Fin 2) (s : State) : Host.Outcome State Fault Refusal :=
  .next (s.macOp core mac 0x12 (fun k w => vec2 k w false (fun a b => a - b)))

def execVsubs (core : Fin 192) (mac : Fin 2) (s : State) : Host.Outcome State Fault Refusal :=
  .next (s.macOp core mac 0x13 (fun k w => vec2 k w true (fun a b => a - b)))

/-- VMULQ: (a_i × b_i) >> 15, saturating. -/
def execVmulq (core : Fin 192) (mac : Fin 2) (s : State) : Host.Outcome State Fault Refusal :=
  .next (s.macOp core mac 0x14 (fun k w => vec2 k w true (fun a b => a * b / 2 ^ 15) 32))

/-- VSHR: arithmetic right shift by IMM[3:0]. -/
def execVshr (core : Fin 192) (mac : Fin 2) (s : State) : Host.Outcome State Fault Refusal :=
  .next (s.macOp core mac 0x15 (fun k w => vec1 k w false (fun _ a => a / 2 ^ (macImm w % 16))))

def execVshl (core : Fin 192) (mac : Fin 2) (s : State) : Host.Outcome State Fault Refusal :=
  .next (s.macOp core mac 0x16 (fun k w => vec1 k w false (fun _ a => a * 2 ^ (macImm w % 16))))

def execVshls (core : Fin 192) (mac : Fin 2) (s : State) : Host.Outcome State Fault Refusal :=
  .next (s.macOp core mac 0x17 (fun k w => vec1 k w true (fun _ a => a * 2 ^ (macImm w % 16))))

def execVand (core : Fin 192) (mac : Fin 2) (s : State) : Host.Outcome State Fault Refusal :=
  .next (s.macOp core mac 0x18 (fun k w => vecBits k w (fun a b => a &&& b)))

def execVor (core : Fin 192) (mac : Fin 2) (s : State) : Host.Outcome State Fault Refusal :=
  .next (s.macOp core mac 0x19 (fun k w => vecBits k w (fun a b => a ||| b)))

def execVxor (core : Fin 192) (mac : Fin 2) (s : State) : Host.Outcome State Fault Refusal :=
  .next (s.macOp core mac 0x1A (fun k w => vecBits k w (fun a b => a ^^^ b)))

def execVmax (core : Fin 192) (mac : Fin 2) (s : State) : Host.Outcome State Fault Refusal :=
  .next (s.macOp core mac 0x1B (fun k w => vec2 k w false max))

def execVmin (core : Fin 192) (mac : Fin 2) (s : State) : Host.Outcome State Fault Refusal :=
  .next (s.macOp core mac 0x1C (fun k w => vec2 k w false min))

/-- VABS: |a|, saturating; −32,768 gives 32,767. -/
def execVabs (core : Fin 192) (mac : Fin 2) (s : State) : Host.Outcome State Fault Refusal :=
  .next (s.macOp core mac 0x1D (fun k w => vec1 k w true (fun _ a => if a < 0 then -a else a)))

def execVneg (core : Fin 192) (mac : Fin 2) (s : State) : Host.Outcome State Fault Refusal :=
  .next (s.macOp core mac 0x1E (fun k w => vec1 k w true (fun _ a => -a)))

/-- VCONJ: odd lanes negated, saturating. -/
def execVconj (core : Fin 192) (mac : Fin 2) (s : State) : Host.Outcome State Fault Refusal :=
  .next (s.macOp core mac 0x1F (fun k w => vec1 k w true (fun i a => if i % 2 = 1 then -a else a)))

/-- VSWAPIQ: lanes 2j and 2j + 1 swapped. -/
def execVswapiq (core : Fin 192) (mac : Fin 2) (s : State) : Host.Outcome State Fault Refusal :=
  .next (s.macOp core mac 0x20 (fun k w =>
    vecOut k w 2 (macPred k w) false (fun i => lane (k.rV (macA w)) (if i % 2 = 0 then i + 1 else i - 1))))

def execVcmpgt (core : Fin 192) (mac : Fin 2) (s : State) : Host.Outcome State Fault Refusal :=
  .next (s.macOp core mac 0x21 (fun k w => vecCompare k w (fun a b => decide (b < a))))

def execVcmpeq (core : Fin 192) (mac : Fin 2) (s : State) : Host.Outcome State Fault Refusal :=
  .next (s.macOp core mac 0x22 (fun k w => vecCompare k w (fun a b => a == b)))

/-- VSEL: lane i = bit i of Pp ? a_i : b_i; its P field is a selector, not a predicate (R133). -/
def execVsel (core : Fin 192) (mac : Fin 2) (s : State) : Host.Outcome State Fault Refusal :=
  .next (s.macOp core mac 0x23 (fun k w =>
    vecOut k w 2 0xFFFFFFFF false (fun i =>
      if (macPred k w).getLsbD i then lane (k.rV (macA w)) i else lane (k.rV (macB w)) i)))

/-- VALIGN: lane i = W[i + k], W the lanes of Va followed by those of Vb, k = IMM[4:0]. -/
def execValign (core : Fin 192) (mac : Fin 2) (s : State) : Host.Outcome State Fault Refusal :=
  .next (s.macOp core mac 0x24 (fun k w =>
    vecOut k w 2 (macPred k w) false (fun i =>
      let j := i + macImm w % 32
      if j < 32 then lane (k.rV (macA w)) j else lane (k.rV (macB w)) (j - 32))))

/-- VBCAST: every int32 element = Sa. -/
def execVbcast (core : Fin 192) (mac : Fin 2) (s : State) : Host.Outcome State Fault Refusal :=
  .next (s.macOp core mac 0x25 (fun k w =>
    vecOut k w 2 (macPred k w) false (fun i => ((k.rS (macA w)).toNat / 2 ^ (16 * (i % 2)) : Nat))))

/-- VMOV: copy. -/
def execVmov (core : Fin 192) (mac : Fin 2) (s : State) : Host.Outcome State Fault Refusal :=
  .next (s.macOp core mac 0x26 (fun k w => vec1 k w false (fun _ a => a)))

/-- VNOP (R129). -/
def execVnop (core : Fin 192) (mac : Fin 2) (s : State) : Host.Outcome State Fault Refusal :=
  .next (s.macOp core mac 0x3F (fun _ _ => {}))

end Sys2Proof.Machine
end

