-- ==== Sys2Proof/Machine/Hub.lean ====
section
/-! DEFINITION. What a CSR write does (R6–R10, R17–R21): most registers store the word by field type; the others act. -/
namespace Sys2Proof.Machine

/-! ## Counter banks (R401) -/

/-- A counter set to zero. -/
def State.clrCounter (s : State) (cls i k : Nat) : State :=
  (s.setReg cls i (0x3C0 + 8 * k) 0).setReg cls i (0x3C4 + 8 * k) 0

/-- A write of CNT_SELk: a new EVENT clears the counter. -/
def State.cntSelWrite (s : State) (cls i off : Nat) (v : Word) : State :=
  let old := wordField (s.reg cls i off) 9 0
  let s := s.storeReg cls i off v
  if wordField (s.reg cls i off) 9 0 = old then s else s.clrCounter cls i ((off - 0x380) / 4)

/-- A write of CNT_CTL: CLR, and FREEZE stored. -/
def State.cntCtlWrite (s : State) (cls i : Nat) (v : Word) : State :=
  (List.range 8).foldl (fun s k => if bitOf v.toNat k then s.clrCounter cls i k else s) (s.storeReg cls i 0x3A0 v)

/-! ## SYS, JOURNAL, CLK (R56–R58, R30, R399, R418) -/

/-- MODE_REQ of a keep core (R56, R58). -/
def State.modeReq (s : State) (req : Nat) (v : Word) : State :=
  let t := Mode.ofCode (wordField v 2 0)
  let r := 2 + req
  match s.modeVerdict t false with
  | none => s.modeDecision 2 r (wordField v 2 0)
  | some false => s.modeDecision 1 r (wordField v 2 0)
  | some true => (s.modeDecision 3 r (wordField v 2 0)).beginMode (t.getD .service) r none

/-- SYS.FAULT_CLEAR. -/
def State.faultClear (s : State) (v : Word) : State :=
  let s := if wordField v 0 0 = 1 then
      (s.setFld Reg.SYS.FAULT_MAX_MAX 0 0).setFld Reg.SYS.FAULT_STATUS_OVER_BOUND 0 0 else s
  if wordField v 1 1 = 1 then (List.range 14).foldl (fun s k => s.setFld (Reg.SYS.FAULT_COUNT_COUNT k) 0 0) s else s

def State.sysWrite (s : State) (req off : Nat) (v : Word) : State :=
  if off = 0x004 then (if req < 8 then s.modeReq req v else s)
  else if off = 0x058 then s.faultClear v
  else s.storeReg 0x00 0 off v

/-- Both journal indices reduced modulo 2^(LOG2_ENTRIES + 1) and LAP as WR_INDEX's top bit (R30): what a write of SIZE leaves.
DEDUCED: a ring made larger again counts on from the reduced indices (log entry 42). -/
def State.journalFit (s : State) : State :=
  let L := s.journalLog2
  let wr := s.fld Reg.JOURNAL.WR_INDEX_WR_INDEX 0 % 2 ^ (L + 1)
  ((s.setFld Reg.JOURNAL.WR_INDEX_WR_INDEX 0 wr).setFld Reg.JOURNAL.RD_INDEX_RD_INDEX 0
    (s.fld Reg.JOURNAL.RD_INDEX_RD_INDEX 0 % 2 ^ (L + 1))).setFld Reg.JOURNAL.STATUS_LAP 0 (wr / 2 ^ L)

/-- JOURNAL: BASE and SIZE keep while ENABLE is 1; RD_INDEX holds one bit above the ring's size; clearing OVERRUN clears its
count (R30). -/
def State.journalRegWrite (s : State) (off : Nat) (v : Word) : State :=
  if (off = 0x004 ∨ off = 0x008 ∨ off = 0x00C) ∧ s.fld Reg.JOURNAL.CTL_ENABLE 0 = 1 then s
  else if off = 0x014 then s.setFld Reg.JOURNAL.RD_INDEX_RD_INDEX 0 (v.toNat % 2 ^ (s.journalLog2 + 1))
  else
    let s := s.storeReg 0x01 0 off v
    if off = 0x00C then s.journalFit
    else if off = 0x018 ∧ wordField v 1 1 = 1 then s.setFld Reg.JOURNAL.STATUS_OVERRUN_COUNT 0 0 else s

/-- CLK: RESET_REQ with its key puts the device in Footing (R418). -/
def State.clkWrite (s : State) (off : Nat) (v : Word) : State :=
  if off = 0x008 then (if wordField v 15 0 = 0xD1A5 then s.toFooting 4 else s)
  else s.storeReg 0x02 0 off v

/-! ## The rest, by class -/

def State.dispWrite (s : State) (req off : Nat) (v : Word) : State :=
  if off = 0x014 then s.cancelWrite req v else s.storeReg 0x20 0 off v

def State.queueWrite (s : State) (req q off : Nat) (v : Word) : State :=
  if off = 0x03C then s.dqueueClear q v
  else if off = 0x200 then s.postWrite req q v
  else s.storeReg 0x21 q off v

def State.keyWrite (s : State) (req b off : Nat) (v : Word) : State :=
  if off = 0x300 then s.keySetCount b v
  else if off = 0x304 then s.setReload (b * 256 + wordField v 7 0) (wordField v 19 8)
  else if off = 0x308 then s.decKey (b * 256 + wordField v 7 0) (wordField v 8 8 == 1)
  else if off = 0x30C then s.holdFor req 0x22 b 0x30C (w32 (wordField v 7 0))
  else s.storeReg 0x22 b off v

def State.accountWrite (s : State) (a off : Nat) (v : Word) : State :=
  if off = 0x014 then (if wordField v 0 0 = 1 then s.clrAccount a else s)
  else if off = 0x018 then s.adjust a v.toInt
  else s.storeReg 0x2A a off v

/-- MORTAR_NI (R250, R254, R257, R258, R260): FENCE_REQ with both bits, or neither, has no effect. -/
def State.niWrite (s : State) (req ni off : Nat) (v : Word) : State :=
  if off = 0x000 then
    let s := s.storeReg 0x38 ni 0x000 v
    let s := if wordField v 0 0 = 1 then s.flipEpoch ni else s
    (if wordField v 1 1 = 1 then s.startCopy ni else s).syncNi ni
  else if off = 0x00C then s.holdFor req 0x38 ni 0x00C v
  else if off = 0x010 then s.writeRouteHi req ni v
  else if off = 0x040 then
    let d := 4 * ni + wordField v 1 0
    if wordField v 9 8 = 1 then s.askFence 2 d else if wordField v 9 8 = 2 then s.reqUnfence d else s
  else if off = 0x084 then
    let s := if wordField v 0 0 = 1 then s.clrNiHist ni else s
    if wordField v 1 1 = 1 then s.clrNiBytes ni else s
  else s.storeReg 0x38 ni off v

/-- The memory controllers' CLEAR and TEST_CTL (R290, R302), and RET_SEL. -/
def State.memCtlWrite (s : State) (req cls i off : Nat) (v : Word) : State :=
  if off = clearOff cls then
    let s := if wordField v 0 0 = 1 then s.clrCounts cls i else s
    if wordField v 1 1 = 1 then s.clrErase cls i else s
  else if off = 0x31C then s.testOp cls i (wordField v 1 0) (wordField v 8 8 == 1)
  else if cls = 0x49 ∧ off = 0x060 then s.holdFor req 0x49 i 0x060 (w32 (wordField v 7 0))
  else s.storeReg cls i off v

/-- The sample ring's base and entries of a Course as written. -/
def State.sampGeoReg (s : State) (n : Nat) : Nat × Nat :=
  ((s.fld Reg.COURSE.SAMP_BASE_LO_BASE_LO n + 2 ^ 32 * s.fld Reg.COURSE.SAMP_BASE_HI_BASE_HI n) / 32 * 32,
    2 ^ min 20 (max 6 (s.fld Reg.COURSE.SAMP_CFG_LOG2 n)))

/-- The geometry in effect (R406, R270). -/
def State.sampGeo (s : State) (n : Nat) : Nat × Nat := tget (s.sampGeoReg n) s.observe.sampGeo n

/-- A write of SAMP_BASE or SAMP_CFG: while EN is 1 it takes effect at WR's next wrap. -/
def State.sampGeoWrite (s : State) (n off : Nat) (v : Word) : State :=
  let now := s.sampGeo n
  let s := s.storeReg 0x10 n off v
  let t := if s.bit Reg.COURSE.SAMP_CTL_EN n then tins s.observe.sampGeo n now else tdel s.observe.sampGeo n
  { s with observe := { s.observe with sampGeo := t } }

def State.courseWrite (s : State) (req n off : Nat) (v : Word) : State :=
  if off = 0x000 then s.coreEnWrite n v
  else if off = 0x048 ∨ off = 0x04C ∨ off = 0x050 then s.sampGeoWrite n off v
  else s.memCtlWrite req 0x10 n off v

/-- PCIE_FN.MSIX (R381): at once while MSI-X Enable is 0, else at the function's next FLR. -/
def State.msixAllocWrite (s : State) (fn : Nat) (v : Word) : State :=
  let now := s.msixAlloc fn
  let s := s.storeReg 0x69 fn 0x000 v
  let t := if s.bit Reg.PCIE_FN.STATUS_MSIX_EN fn then tins s.pcie.alloc fn now else tdel s.pcie.alloc fn
  { s with pcie := { s.pcie with alloc := t } }

/-- KEEP.CTL: a core leaves reset, or is held in it. -/
def State.keepRunWrite (s : State) (k : Nat) (v : Word) : State :=
  let was := s.bit Reg.KEEP.CTL_RUN k
  let s := s.storeReg 0x71 k 0x000 v
  if s.bit Reg.KEEP.CTL_RUN k = was then s
  else s.setReg 0x71 k 0x00C (w32 (wordField v 0 0))

/-- LO_CORR (R91): written 64 SAMP cycles, 256 Tc, or more before a symbol boundary it takes effect there, else at the one after. -/
def State.loWrite (s : State) (c : Nat) (v : Word) : State :=
  let (cls, i) := strmUnit c
  let s := s.storeReg cls i 0x014 v
  let x := s.strm c
  s.setStrm c (if !s.chRuns c then { x with lo := v, loNext := none, loAfter := none }
    else if (s.chGrid c 0).left < 256 then { x with loAfter := some v } else { x with loNext := some v, loAfter := none })

def State.strmWrite (s : State) (c off : Nat) (v : Word) : State :=
  let (cls, i) := strmUnit c
  if off = 0x014 then s.loWrite c v
  else if off = 0x060 then (if wordField v 0 0 = 1 then s.commitArrive c [] else s)
  else s.storeReg cls i off v

def State.fftClear (s : State) (e : Nat) (v : Word) : State :=
  let s := if wordField v 0 0 = 1 then s.setFld Reg.FFT.STATUS_MAX_DEPTH e 0 else s
  if wordField v 1 1 = 1 then s.setFld Reg.FFT.DROPS_DROPS e 0 else s

def State.tbWrite (s : State) (n off : Nat) (v : Word) : State :=
  if off = 0x024 then s.stepGo n v
  else if off = 0x028 ∨ off = 0x02C then s.gridWrite2 n off v
  else if off = 0x030 then s.servoCtl n v
  else if off = 0x050 then s.offsetGo n v
  else s.storeReg 0x60 n off v

def State.tddWrite (s : State) (p off : Nat) (v : Word) : State :=
  if off = 0x000 then (s.storeReg 0x62 p off v).syncPin p
  else if off = 0x008 then s.clrQueue p v
  else if off = 0x01C then s.pushEdge p (wordField v 0 0 == 1)
  else s.storeReg 0x62 p off v

def State.vaultWrite (s : State) (off : Nat) (v : Word) : State :=
  if off = 0x000 then s.vaultCtl v
  else if off = 0x004 ∨ off = 0x008 ∨ off = 0x00C then s.geometryWrite off v
  else if off = 0x040 then s.commandTrigger v
  else if off = 0x044 then s.releaseRgn (wordField v 3 0)
  else s.storeReg 0x30 0 off v

def State.vsWrite (s : State) (i off : Nat) (v : Word) : State :=
  let s := s.storeReg 0x31 i off v
  if off = 0x000 ∨ off = 0x004 then s.vstreamWrite i else s

def State.tallyWrite (s : State) (d off : Nat) (v : Word) : State :=
  if off = 0x064 then s.tplLenWrite d (wordField v 10 0)
  else if off = 0x068 then s.tplData d v
  else s.storeReg 0x32 d off v

/-- GPIO_OUT and GPIO_OE: a driven pad takes its output level, until an outside edge against it (R420, log entry 74). -/
def State.gpioWrite (s : State) (off : Nat) (v : Word) : State :=
  let s := s.storeReg 0x63 0 off v
  if off = 0x010 ∨ off = 0x014 then
    (List.range 32).foldl (fun s p =>
      let pad := bitOf s.power.gpioPads.toNat p
      if bitOf (s.fld Reg.PINS.GPIO_OE_OE 0) p then
        s.gpioLevel p (bitOf (s.fld Reg.PINS.GPIO_OUT_OUT 0) p)
      else s.gpioLevel p pad) s
  else s

def State.dmaWrite (s : State) (e off : Nat) (v : Word) : State :=
  if off = 0x004 then
    let s := s.storeReg 0x40 e off v
    if wordField v 1 1 = 1 then s.setFld Reg.DMA.STATUS_ERR_COUNT e 0 else s
  else if off = 0x020 ∨ off = 0x024 then s.eventSet e ((off - 0x020) / 4) v
  else if off = 0x028 ∨ off = 0x02C then s.eventClr e ((off - 0x028) / 4) v
  else s.storeReg 0x40 e off v

def State.dmaChWrite (s : State) (req c off : Nat) (v : Word) : State :=
  if off = 0x000 then s.dmaCtl c v
  else if off = 0x004 ∨ off = 0x008 then
    (if s.dmaState c = dmaIdle ∨ s.dmaState c = dmaHalted then s.storeReg 0x41 c off v else s)
  else if off = 0x014 then s.holdFor req 0x41 c 0x014 (w32 (wordField v 4 0))
  else if off = 0x018 then s.holdFor req 0x41 c 0x018 v
  else if off = 0x01C then s.regHiWrite req c v
  else s.storeReg 0x41 c off v

def State.macWrite (s : State) (m off : Nat) (v : Word) : State :=
  if off = 0x000 then (s.storeReg 0x58 m off v).macsCheck
  else if off = 0x024 then s.macProtectWrite m v
  else s.storeReg 0x58 m off v

def State.flowWrite (s : State) (req off : Nat) (v : Word) : State :=
  if off = 0x000 then s.holdFor req 0x59 0 0x000 (w32 (wordField v 10 0))
  else if 0x010 ≤ off ∧ off < 0x030 then s.setFlowWord (s.flowSel req) ((off - 0x010) / 4) v
  else if off = 0x054 then (if wordField v 0 0 = 1 then s.flowClear (s.flowSel req) else s)
  else s.storeReg 0x59 0 off v

/-- A SYNC packet: TCNT and DEVCLK (R407). -/
def State.traceSync (s : State) : State :=
  let t := s.time.tcnt.toNat
  let d := s.devclk.toNat
  let s := s.tracePush 15 (halves [loWord t, hiWord t, loWord d, hiWord d])
  { s with observe := { s.observe with sinceSync := 0 } }

/-- TRACE: the 0 to 1 of EN sends a SYNC; a write of MARK emits a MARK. -/
def State.traceWrite (s : State) (off : Nat) (v : Word) : State :=
  if off = 0x000 then
    let was := s.bit Reg.TRACE.CTL_EN 0
    let s := s.storeReg 0x79 0 off v
    if s.bit Reg.TRACE.CTL_EN 0 && !was then s.traceSync else s
  else if off = 0x008 then
    (if s.traceOn 3 then
      let t := s.time.tcnt.toNat
      s.tracePush 4 (halves [v, loWord t, hiWord t]) else s)
  else s.storeReg 0x79 0 off v

/-- A write of one instance's register. -/
def State.writeOne (s : State) (req cls i off : Nat) (v : Word) : State :=
  if 0x380 ≤ off ∧ off < 0x3A0 then s.cntSelWrite cls i off v
  else if off = 0x3A0 then s.cntCtlWrite cls i v
  else if 0x370 ≤ off ∧ off < 0x400 then s.storeReg cls i off v
  else if cls = 0x00 then s.sysWrite req off v
  else if cls = 0x01 then s.journalRegWrite off v
  else if cls = 0x02 then s.clkWrite off v
  else if cls = 0x08 then s.strmWrite i off v
  else if cls = 0x09 then s.strmWrite (512 + i) off v
  else if cls = 0x0A then (if off = 0x008 then s.fftClear i v else s.storeReg cls i off v)
  else if cls = 0x10 then s.courseWrite req i off v
  else if cls = 0x11 then (if off = 0x000 then s.settCtl i v else s.storeReg cls i off v)
  else if 0x18 ≤ cls ∧ cls ≤ 0x1C then (if off = 0x000 then s.engCtl cls i v else s.storeReg cls i off v)
  else if cls = 0x20 then s.dispWrite req off v
  else if cls = 0x21 then s.queueWrite req i off v
  else if cls = 0x22 then s.keyWrite req i off v
  else if cls = 0x23 then (if off = 0x018 then s.tellerClear i v else s.storeReg cls i off v)
  else if cls = 0x2A then s.accountWrite i off v
  else if cls = 0x30 then s.vaultWrite off v
  else if cls = 0x31 then s.vsWrite i off v
  else if cls = 0x32 then s.tallyWrite i off v
  else if cls = 0x38 then s.niWrite req i off v
  else if cls = 0x39 then (if off = 0x000 then s.writeRouterCtl i v else s.storeReg cls i off v)
  else if cls = 0x40 then s.dmaWrite i off v
  else if cls = 0x41 then s.dmaChWrite req i off v
  else if cls = 0x48 ∨ cls = 0x49 then s.memCtlWrite req cls i off v
  else if cls = 0x4A then (if off = 0x00C then s.holdFor req 0x4A 0 0x00C (w32 (wordField v 7 0)) else s.storeReg cls i off v)
  else if cls = 0x50 then (if off = 0x000 then (s.protoWrite i v).macsCheck else s.storeReg cls i off v)
  else if cls = 0x51 then
    (if off = 0x000 then s.laneCtl i v else if off = 0x008 then s.rxeqWrite i v else if off = 0x010 then s.prbsWrite i v else if off = 0x014 then s.recalGo i v else s.storeReg cls i off v)
  else if cls = 0x52 then
    (if off = 0x00C then s.userCw i v else if off = 0x010 then s.protectWrite i v else s.storeReg cls i off v)
  else if cls = 0x58 then s.macWrite i off v
  else if cls = 0x59 then s.flowWrite req off v
  else if cls = 0x5A then
    (if off = 0x000 then s.ethCtl i v else if off = 0x014 then s.tailWrite i v else s.storeReg cls i off v)
  else if cls = 0x60 then s.tbWrite i off v
  else if cls = 0x62 then s.tddWrite i off v
  else if cls = 0x63 then s.gpioWrite off v
  else if cls = 0x68 then (if off = 0x0C0 then s.bootPush v else s.storeReg cls i off v)
  else if cls = 0x69 then (if off = 0x000 then s.msixAllocWrite i v else s.storeReg cls i off v)
  else if cls = 0x70 then (if off = 0x00C then (s.storeReg 0x70 0 off v).storeReg 0x70 1 off v else s.storeReg cls i off v)
  else if cls = 0x71 then (if off = 0x000 then s.keepRunWrite i v else s.storeReg cls i off v)
  else if cls = 0x79 then s.traceWrite off v
  else s.storeReg cls i off v

/-- A CSR write with a selector: one member write after another (R19), in the modes the register lists (R10). -/
def State.csrWrite (s : State) (req cls sel off : Nat) (v : Word) : State :=
  if 0x200 ≤ sel ∧ singleOnly cls off then s
  else s.hubEach req cls sel off (fun s i => s.writeOne req cls i off v)

/-! ## Accesses by the hub's requesters (R17, R21, R268) -/

/-- The registers at an address in CSR space, read word by word through the hub. -/
def State.csrReadBytes (s : State) (req a n : Nat) : List (Byte × Bool) × State :=
  (List.range ((n + 3) / 4)).foldl (fun acc k =>
    let o := a % 0x10000000 / 4 * 4 + 4 * k
    let (w, s) := acc.2.csrRead req (o / 2 ^ 20) (o / 2 ^ 10 % 2 ^ 10) (o % 2 ^ 10)
    (acc.1 ++ clean (leBytes 4 w.toNat), s)) ([], s)

/-- The registers at an address in CSR space, written word by word through the hub; a poisoned word as zero (R292). -/
def State.csrWriteBytes (s : State) (req a : Nat) (l : List (Byte × Bool)) : State :=
  (List.range ((l.length + 3) / 4)).foldl (fun s k =>
    let o := a % 0x10000000 / 4 * 4 + 4 * k
    let b := (l.drop (4 * k)).take 4
    let v := if b.any Prod.snd then 0 else leNat (b.map Prod.fst)
    s.csrWrite req (o / 2 ^ 20) (o / 2 ^ 10 % 2 ^ 10) (o % 2 ^ 10) (w32 v)) s

/-- A read at an internal address by requester `req` behind a port: CSR space word by word through the hub, other memory over
Mortar. -/
def State.reqRead (s : State) (req ni port a n : Nat) : BusStatus × List (Byte × Bool) × State :=
  match s.region a, s.access false ni port a with
  | .csr, .ok =>
    let (l, s) := s.csrReadBytes req a n
    (.ok, l, s)
  | .csr, st => (st, List.replicate n (0, false), s)
  | _, _ => s.busGet ni port a n

/-- A write at an internal address by requester `req`; poisoned bytes reach a register as zero (R292). -/
def State.reqWrite (s : State) (req ni port a : Nat) (l : List (Byte × Bool)) : BusStatus × State :=
  match s.region a, s.access true ni port a with
  | .csr, .ok => (.ok, s.csrWriteBytes req a l)
  | .csr, st => (st, s)
  | _, _ => s.busPut ni port a l

/-! ## Commands -/

/-- REGISTER_WRITE (R6, R7, R9, R10, R17–R20). -/
def execRegisterWrite (req : Fin 14) (cls : BitVec 8) (sel offset : BitVec 10) (value : Word) (s : State) :
    Host.Outcome State Fault Refusal :=
  .next (s.csrWrite req cls.toNat sel.toNat (offset.toNat / 4 * 4) value)

/-- CREDIT_LO_READ (R202): latches every book of the account. -/
def execCreditLoRead (req : Fin 14) (sel : BitVec 10) (s : State) : Host.Outcome State Fault Refusal :=
  let (w, s) := s.csrRead req 0x2A sel.toNat 0x040
  .next (s.giveBack req w)

/-- CNT_SEL_WRITE (R401). -/
def execCntSelWrite (req : Fin 14) (cls : BitVec 8) (sel : BitVec 10) (counter : Fin 8) (value : Word) (s : State) :
    Host.Outcome State Fault Refusal :=
  .next (s.csrWrite req cls.toNat sel.toNat (0x380 + 4 * counter) value)

/-- CNT_CLR (R401): a write of CNT_CTL. -/
def execCntClr (req : Fin 14) (cls : BitVec 8) (sel : BitVec 10) (value : Word) (s : State) : Host.Outcome State Fault Refusal :=
  .next (s.csrWrite req cls.toNat sel.toNat 0x3A0 value)

/-- MODE_REQ (R58). -/
def execModeReq (req : Fin 14) (target : BitVec 3) (s : State) : Host.Outcome State Fault Refusal :=
  .next (s.csrWrite req 0x00 0 0x004 (w32 target.toNat))

/-- FAULT_CLR_MAX (R6): SYS.FAULT_CLEAR with CLR_MAX. -/
def execFaultClrMax (req : Fin 14) (s : State) : Host.Outcome State Fault Refusal := .next (s.csrWrite req 0x00 0 0x058 1)

/-- FAULT_CLR_COUNTS (R6): SYS.FAULT_CLEAR with CLR_COUNTS. -/
def execFaultClrCounts (req : Fin 14) (s : State) : Host.Outcome State Fault Refusal := .next (s.csrWrite req 0x00 0 0x058 2)

/-- BOOT_PUSH (R384). -/
def execBootPush (req : Fin 14) (value : Word) (s : State) : Host.Outcome State Fault Refusal :=
  .next (s.csrWrite req 0x68 0 0x0C0 value)

/-- SOFT_RESET (R418): a write of CLK.RESET_REQ. -/
def execSoftReset (req : Fin 14) (value : Word) (s : State) : Host.Outcome State Fault Refusal :=
  .next (s.csrWrite req 0x02 0 0x008 value)

/-- KEEP_RUN_WRITE (R21): a write of KEEP.CTL. -/
def execKeepRunWrite (req : Fin 14) (sel : BitVec 10) (value : Word) (s : State) : Host.Outcome State Fault Refusal :=
  .next (s.csrWrite req 0x71 sel.toNat 0x000 value)

/-- KEEP_CORE_WFI (R65): a running keep core waits for interrupt. -/
def execKeepCoreWfi (core : Fin 8) (s : State) : Host.Outcome State Fault Refusal :=
  if s.bit Reg.KEEP.STATUS_RUNNING core then .next (s.setFld Reg.KEEP.STATUS_WFI core 1) else .next s

/-- MSIX_ALLOCATION_WRITE (R381). -/
def execMsixAllocationWrite (req : Fin 14) (sel : BitVec 10) (value : Word) (s : State) : Host.Outcome State Fault Refusal :=
  .next (s.csrWrite req 0x69 sel.toNat 0x000 value)

/-- PROTO_WRITE (R308): a write of LANEQ.PROTO. -/
def execProtoWrite (req : Fin 14) (sel : BitVec 10) (value : Word) (s : State) : Host.Outcome State Fault Refusal :=
  .next (s.csrWrite req 0x50 sel.toNat 0x000 value)

/-- MARK (R407): a write of TRACE.MARK. -/
def execMark (req : Fin 14) (value : Word) (s : State) : Host.Outcome State Fault Refusal :=
  .next (s.csrWrite req 0x79 0 0x008 value)

/-- TRACE_ENABLE (R407): a write of TRACE.CTL. -/
def execTraceEnable (req : Fin 14) (value : Word) (s : State) : Host.Outcome State Fault Refusal :=
  .next (s.csrWrite req 0x79 0 0x000 value)

end Sys2Proof.Machine
end

