-- ==== Sys2Proof/Machine/Dma.lean ====
section
/-! DEFINITION. DMA channel programs (R263–R283): instructions, moves over memory and CSR space, waits, signals, the program
buffer and the bus-error stop. -/
namespace Sys2Proof.Machine

/-- The NI of an engine; its port is 1 (R239). -/
def dmaNi (c : Nat) : Nat := 58 + c / 32

/-- Whether an engine still issues for its channels: not held by an error it has not acted on (R278), and in a mode in which DMA
runs (R280). -/
def State.dmaOn (s : State) (c : Nat) : Bool :=
  (tget [] s.dma.errs (c / 32)).isEmpty && s.running 0x40 (c / 32) && s.modes.mode != .banked && s.modes.mode != .footing &&
  s.modes.mode != .bedding

/-- Whether a channel may issue: what is in progress completes with CTL.EN = 0, nothing new begins (R280). -/
def State.dmaMay (s : State) (c : Nat) : Bool :=
  s.dmaOn c && (s.bit Reg.DMA.CTL_EN (c / 32) || (s.dch c).mv.isSome || (s.dch c).cur.isSome)

/-- The check of an instruction at decode (R266): the code of the program error it is. -/
def State.dmaCheck (s : State) (c w : Nat) : Option Nat :=
  let op := dmaBits w 63 60
  let x := s.dch c
  let off (p : Nat) : Bool := tget 0 x.ptr p % 16 != 0
  if op = 1 ∨ op = 2 then
    (if dmaBits w 27 0 ≠ 0 ∧ (dmaBits w 3 0 ≠ 0 ∨ off (dmaBits w 59 57) ∨ off (dmaBits w 56 54)) then some 2 else none)
  else if op = 3 then (if 4 ≤ x.loops.length then some 4 else none)
  else if op = 4 then (if x.loops.isEmpty then some 4 else none)
  else if op = 5 then (if 4 ≤ dmaBits w 59 57 then some 3 else none)
  else if op = 6 then
    (if 5 ≤ dmaBits w 59 57 then some 3 else if dmaBits w 59 57 = 4 ∧ off (dmaBits w 10 8) then some 2 else none)
  else if op = 7 then
    (if 18 ≤ dmaBits w 59 55 ∨ dmaBits w 54 53 = 3 then some 3
     else if dmaBits w 54 53 = 2 ∧ off (dmaBits w 2 0) then some 2 else none)
  else if 8 ≤ op ∧ op ≤ 14 then some 3
  else none

/-- The instruction a RUNNING channel is at, checked. -/
def State.dmaAt (s : State) (c : Nat) : Option Nat :=
  match s.dmaMay c && s.dmaState c == dmaRunning, s.dmaInstr c with
  | true, some w => if s.dmaCheck c w = none then some w else none
  | _, _ => none

/-- Whether an instruction is a paced transfer under way. -/
def State.dmaPaced (s : State) (c w : Nat) : Bool :=
  (dmaBits w 63 60 == 1 || dmaBits w 63 60 == 2) && dmaBits w 51 51 == 1 && dmaBits w 27 0 != 0 && (s.dch c).mv.isSome

/-- Whether a channel asks for its engine's issue path (R276): not while it waits at a POST write (R177), a SIGNAL not before its
earlier writes are acknowledged (R274), a paced transfer while its line is asserted (R269). -/
def State.dmaAsks (s : State) (c : Nat) : Bool :=
  !s.postStands c &&
  (match s.dmaAt c with
   | some w =>
     if dmaBits w 63 60 = 6 then (s.dch c).outs.isEmpty
     else if s.dmaPaced c w then s.dmaLine (c / 32) (dmaBits w 50 45) else true
   | none =>
     s.dmaMay c && s.dmaState c == dmaWaiting && s.fld Reg.DMA_CH.STATUS_WAIT_KIND c == 5 &&
       (match s.dmaInstr c with
        | some w => s.dmaPaced c w && s.dmaLine (c / 32) (dmaBits w 50 45)
        | none => false))

/-- Whether the arbiter of an engine's issue path is at a channel (R29, R276). -/
def State.dmaTurn (s : State) (c : Nat) : Bool :=
  rrPick 32 (tget 31 s.dma.lastIssue (c / 32)) (fun k => s.dmaAsks (32 * (c / 32) + k)) == some (c % 32)

/-- The issue path granted to a channel. -/
def State.dmaGranted (s : State) (c : Nat) : State :=
  { s with dma := { s.dma with lastIssue := tset 31 s.dma.lastIssue (c / 32) (c % 32) } }

/-- The instruction a channel issues next, at its turn. -/
def State.dmaReady (s : State) (c : Nat) : Option Nat := if s.dmaTurn c then s.dmaAt c else none

/-- On to another instruction. -/
def State.dmaGoto (s : State) (c pc : Nat) : State :=
  (s.setDch c { s.dch c with cur := none, met := false, mv := none }).setDmaPc c pc

/-- On to the next instruction. -/
def State.dmaNext (s : State) (c : Nat) : State := s.dmaGoto c (s.dmaPc c + 8)

/-- A waiting channel goes on behind its WAIT. -/
def State.dmaPass (s : State) (c : Nat) : State := (s.setDmaState c dmaRunning 0).dmaNext c

/-- Runs `f` on the checked instruction of a channel when it is of OP `op` and KIND or MODE `ok` admits it; else nothing. -/
def State.dmaDo (s : State) (c op : Nat) (ok : Nat → Bool) (f : State → Nat → State) : State :=
  match s.dmaReady c with
  | some w => if dmaBits w 63 60 = op ∧ ok w = true then f (s.dmaGranted c) w else s
  | none => s

/-! ## Accesses -/

/-- A read by a channel. -/
def State.dmaRead (s : State) (c a n : Nat) : BusStatus × List (Byte × Bool) × State :=
  let (st, l, s) := s.reqRead (10 + c / 32) (dmaNi c) 1 a n
  (st, l, s.took 0x41 c a l)

/-- A POST write that a channel has just made is marked as its own. -/
def State.tagPost (s : State) (r c : Nat) : State :=
  s.setPosts r ((s.posts r).zipIdx.map (fun h => if h.2 + 1 = (s.posts r).length then { h.1 with chan := some c } else h.1))

/-- A write by a channel. -/
def State.dmaPut (s : State) (c a : Nat) (l : List (Byte × Bool)) : BusStatus × State :=
  let r := 10 + c / 32
  let (st, s') := s.reqWrite r (dmaNi c) 1 a l
  (st, if (s.posts r).length < (s'.posts r).length then s'.tagPost r c else s')

/-- Whether an access covers a DQUEUE.POST. -/
def coversPost (a n : Nat) : Bool :=
  decide (a / 2 ^ 20 = 0x80000000 / 2 ^ 20 + 0x21) && decide (a % 2 ^ 10 ≤ 0x200) && decide (0x200 < a % 2 ^ 10 + n)

/-- BYTES (R278's table): bytes written, 48 bits. -/
def State.dmaCount (s : State) (c n : Nat) : State :=
  s.setPair Reg.DMA_CH.BYTES_LO_COUNT Reg.DMA_CH.BYTES_HI_COUNT c
    ((s.pair Reg.DMA_CH.BYTES_LO_COUNT Reg.DMA_CH.BYTES_HI_COUNT c + n) % 2 ^ 48)

/-- The oldest write of a channel acknowledged (R268, R278); a POST write, the youngest, not while it stands at the post port. -/
def State.dmaAck (s : State) (c : Nat) : State :=
  let x := s.dch c
  match x.outs with
  | [] => s
  | o :: r =>
    if r.isEmpty && s.postStands c then s else
    let s := s.setDch c { x with outs := r }
    let s := s.dmaCount c o.len
    if o.current then s.addFld Reg.DMA_CH.PROGRESS_BYTES c o.len else s

/-- A write issued: a channel holds at most 64 outstanding, an engine 256 (R276), so an older one is acknowledged first. -/
def State.dmaIssued (s : State) (c n : Nat) (current : Bool) : State :=
  let e := c / 32
  let total := ((List.range 32).map (fun k => (s.dch (32 * e + k)).outs.length)).sum
  let s := if 64 ≤ (s.dch c).outs.length then s.dmaAck c
    else if 256 ≤ total then
      match (c :: (List.range 32).map (32 * e + ·)).find? (fun k => !(s.dch k).outs.isEmpty) with
      | some k => s.dmaAck k
      | none => s
    else s
  s.setDch c { s.dch c with outs := (s.dch c).outs ++ [⟨n, current⟩] }

/-! ## MOVE and MOVEC (R268–R270) -/

/-- Transactions of a transfer up to offset `to`, a read and a write each; false where a response was not OK. It stops for now behind
a POST write that stands, and before a read of POST while one of its engine does (R176, R177). -/
def State.dmaCopy (c w lim : Nat) : Nat → DmaMove → State → Bool × DmaMove × State
  | 0, m, s => (true, m, s)
  | k + 1, m, s =>
    if lim ≤ m.off then (true, m, s)
    else
      let n := m.chunk w (lim - m.off)
      if coversPost m.src n && !(s.posts (10 + c / 32)).isEmpty then (true, m, s) else
      let (st, l, s) := s.dmaRead c m.src n
      if st ≠ .ok then (false, m, s.dmaErr c 0 m.src st.code)
      else
        let (st, s) := s.dmaPut c m.dst (l.take n)
        if st ≠ .ok then (false, m, s.dmaErr c 1 m.dst st.code)
        else if s.postStands c then (true, m.step w n, s.dmaIssued c n true)
        else State.dmaCopy c w lim k (m.step w n) (s.dmaIssued c n true)

/-- A MOVE begun: PROGRESS 0, earlier writes count in it no more. -/
def State.dmaBegin (s : State) (c w : Nat) : State :=
  let x := s.dch c
  if x.mv.isSome then s
  else
    let s := s.setFld Reg.DMA_CH.PROGRESS_BYTES c 0
    s.setDch c { x with mv := some 0, cur := some w, outs := x.outs.map (fun o => { o with current := false }) }

/-- The MOVE at hand taken on for at most `most` bytes; at its end the pointers are written back and the channel goes on. -/
def State.dmaTransfer (s : State) (c w most : Nat) : State :=
  let s := s.dmaBegin c w
  let x := s.dch c
  let len := dmaBits w 27 0
  let from_ := x.mv.getD 0
  let sp := dmaBits w 59 57
  let dp := dmaBits w 56 54
  let m := DmaMove.skip w from_ from_ ⟨tget 0 x.ptr sp, tget 0 x.ptr dp, 0, x⟩
  let lim := min len (from_ + most)
  let (ok, m, s) := State.dmaCopy c w lim (lim - from_) m s
  let x := s.dch c
  let s := s.setDch c { x with mv := some m.off }
  if ok && m.off == len then
    let ptr := if dmaBits w 53 53 = 1 then tset 0 x.ptr sp m.src else x.ptr
    let ptr := if dmaBits w 52 52 = 1 then tset 0 ptr dp m.dst else ptr
    let s := s.setDch c { s.dch c with ptr := if len = 0 then x.ptr else ptr, circ := m.x.circ, pend := m.x.pend }
    s.dmaNext c
  else s

/-- MOVE and MOVEC: an unpaced transfer, or the start of a paced one (R269). -/
def State.dmaMove (s : State) (c w : Nat) : State :=
  if dmaBits w 51 51 = 1 ∧ dmaBits w 27 0 ≠ 0 then s.dmaBegin c w else s.dmaTransfer c w (2 ^ 28)

/-- The bytes of a burst: 16 × 2^BURST, BURST of 10–15 acting as 9. -/
def burstBytes (w : Nat) : Nat := 16 * 2 ^ (if 10 ≤ dmaBits w 44 41 then 9 else dmaBits w 44 41)

/-- A burst of a paced transfer: begun when the request line is asserted, and then done in full; else the channel waits. -/
def State.dmaBurst (s : State) (c : Nat) (withdrawn : Bool) : State :=
  let wait := s.dmaState c == dmaWaiting && s.fld Reg.DMA_CH.STATUS_WAIT_KIND c == 5
  match !s.postStands c && s.dmaMay c && (s.dmaState c == dmaRunning || wait) && (s.dch c).mv.isSome, s.dmaInstr c with
  | true, some w =>
    if !(dmaBits w 51 51 == 1) || (s.dmaCheck c w).isSome then s
    else if s.dmaLine (c / 32) (dmaBits w 50 45) then
      if !s.dmaTurn c then s else
      let s := ((s.dmaGranted c).setDmaState c dmaRunning 0).addFld Reg.DMA_CH.BURSTS_COUNT c 1
      let s := if withdrawn then s.addFld Reg.DMA_CH.WITHDRAWN_COUNT c 1 else s
      s.dmaTransfer c w (burstBytes w)
    else if wait then s else s.dmaWait c 5
  | _, _ => s

/-! ## WAIT (R272) -/

/-- A keystone's release of a channel: KEY_MARK with the mark, and with FAIL_HALT the halt behind the WAIT. -/
def State.dmaReleased (s : State) (c w : Nat) (mark : Bool) : State :=
  let s := s.dmaPass c
  if mark then
    let s := s.setFld Reg.DMA_CH.STATUS_KEY_MARK c 1
    if dmaBits w 13 13 = 1 then s.dmaHalt c 5 else s
  else s

def State.dmaWaitKey (s : State) (c w : Nat) : State :=
  let k := dmaBits w 12 0
  if (s.key k).count = 0 then s.dmaReleased c w (s.key k).fail
  else
    let s := { s with disp := { s.disp with dmaWait := tset [] s.disp.dmaWait k (tget [] s.disp.dmaWait k ++ [c]) } }
    s.dmaWait c 3

/-- The condition a WAITING channel waits for met: it goes on, or halts; a ring with room and an asserted line let it go on with
its instruction. -/
def State.dmaMet (s : State) (c : Nat) : State :=
  if s.dmaState c ≠ dmaWaiting ∨ !s.dmaOn c then s
  else
    let x := s.dch c
    let w := x.cur.getD 0
    match s.fld Reg.DMA_CH.STATUS_WAIT_KIND c with
    | 0 => if x.met then s.dmaPass c else s
    | 1 => if s.dmaLine (c / 32) (dmaBits w 5 0) then s.dmaPass c else s
    | 2 => if s.timeReached c (dmaBits w 1 0) then s.dmaPass c else s
    | 3 =>
      let r := tget 0 s.disp.dmaRel c
      if r = 0 then s
      else ({ s with disp := { s.disp with dmaRel := tset 0 s.disp.dmaRel c 0 } }).dmaReleased c w (r == 2)
    | 4 => if s.ringFull (dmaBits w 5 0) then s else s.setDmaState c dmaRunning 0
    | 5 => if s.dmaLine (c / 32) (dmaBits w 50 45) then s.setDmaState c dmaRunning 0 else s
    | _ => s

/-! ## SIGNAL (R274, R275) -/

/-- A SIGNAL takes effect once every earlier write of its channel is acknowledged. -/
def State.dmaSignal (s : State) (c kind : Nat) (f : State → Nat → State) : State :=
  if (s.dch c).outs.isEmpty then s.dmaDo c 6 (fun w => dmaBits w 59 57 == kind) f else s

/-- Whether a channel is at the SIGNAL RING of data ring `n`, every earlier write of it acknowledged. -/
def State.dataRingAsks (s : State) (n c : Nat) : Bool :=
  (s.dch c).outs.isEmpty &&
  match s.dmaReady c with
  | some w => dmaBits w 63 60 == 6 && dmaBits w 59 57 == 4 && dmaBits w 5 0 == n
  | none => false

/-- The data ring that the instruction at a channel names. -/
def State.dmaRingAt (s : State) (c : Nat) : Nat := dmaBits ((s.dmaInstr c).getD 0) 5 0

/-- Whether the arbiter of the engine that holds a data ring is at a channel (R29, R275). -/
def State.dataRingTurn (s : State) (n c : Nat) : Bool := rrPick 128 (tget 127 s.dma.lastEntry (n / 16)) (s.dataRingAsks n) == some c

/-- SIGNAL RING: the entry written, or the channel waits before a full ring. -/
def State.dmaSignalRing (s : State) (c w : Nat) : State :=
  let n := dmaBits w 5 0
  if s.ringFull n then s.dmaWait c 4
  else
    let p := dmaBits w 10 8
    let a := tget 0 (s.dch c).ptr p
    let (st, l, s) := s.dmaRead c a 32
    if st ≠ .ok then s.dmaErr c 0 a st.code
    else
      match s.ringWrite n c l with
      | none =>
        let b := (s.fld (Reg.DMA.RING_LO_BASE_LO (n % 16)) (n / 16) + 2 ^ 32 * s.fld (Reg.DMA.RING_HI_BASE_HI (n % 16)) (n / 16)) / 32 * 32 +
          32 * s.fld (Reg.DMA.RING_PTR_TAIL (n % 16)) (n / 16)
        s.dmaErr c 1 (b % 2 ^ 40) BusStatus.targetError.code
      | some s =>
        let s := { s with dma := { s.dma with lastEntry := tset 127 s.dma.lastEntry (n / 16) c } }
        let x := s.dch c
        let s := if dmaBits w 11 11 = 1 then s.setDch c { x with ptr := tset 0 x.ptr p ((tget 0 x.ptr p + 32) % 2 ^ 40) } else s
        (s.dmaCount c 32).dmaNext c

/-! ## SETPTR (R267) -/

def State.dmaSetPtr (s : State) (c mode : Nat) (f : State → Nat → Nat → State) : State :=
  s.dmaDo c 7 (fun w => dmaBits w 54 53 == mode) (fun s w => f s (dmaBits w 59 55) w)

def State.dmaLoad (s : State) (c r w : Nat) : State :=
  let a := tget 0 (s.dch c).ptr (dmaBits w 2 0)
  let (st, l, s) := s.dmaRead c a 16
  if st ≠ .ok then s.dmaErr c 0 a st.code
  else
    let v := if (l.take 16).any Prod.snd then 0 else leNat ((l.take 8).map Prod.fst)
    (s.setDch c ((s.dch c).set r v)).dmaNext c

/-! ## The program buffer (R277) -/

/-- The line of a channel's PC fetched into its engine's buffer; a word that came as poison halts the channel. -/
def State.dmaFetch (s : State) (c : Nat) : State :=
  if !(s.dmaMay c && s.dmaState c == dmaRunning && (s.dch c).cur.isNone) then s
  else
    let e := c / 32
    let pc := s.dmaPc c
    match s.dmaFetched e pc with
    | some (_, bad) => if bad then s.dmaHalt c 8 else s
    | none =>
      let a := pc / 64 * 64
      let (st, l, s) := s.dmaRead c a 64
      if st ≠ .ok then s.dmaErr c 2 a st.code
      else
        let old := tget [] s.dma.lines e
        let s := { s with dma := { s.dma with lines := tset [] s.dma.lines e (old.drop (old.length - 63) ++ [(a, l.take 64)]) } }
        match s.dmaFetched e pc with
        | some (_, true) => s.dmaHalt c 8
        | _ => s

/-! ## Commands -/

/-- START (R264): a write of DMA_CH.CTL. -/
def execStart (req : Fin 14) (sel : BitVec 10) (s : State) : Host.Outcome State Fault Refusal :=
  .next (s.csrWrite req 0x41 sel.toNat 0x000 1)

/-- DMA_ABORT (R264). -/
def execDmaAbort (req : Fin 14) (sel : BitVec 10) (s : State) : Host.Outcome State Fault Refusal :=
  .next (s.csrWrite req 0x41 sel.toNat 0x000 2)

/-- RESUME (R279). -/
def execResume (req : Fin 14) (sel : BitVec 10) (s : State) : Host.Outcome State Fault Refusal :=
  .next (s.csrWrite req 0x41 sel.toNat 0x000 4)

/-- END (R265, R283). -/
def execDmaEnd (ch : Fin 128) (s : State) : Host.Outcome State Fault Refusal :=
  .next (s.dmaDo ch 0 (fun _ => true) (fun s _ =>
    ((s.setDch ch { s.dch ch with cur := none }).setDmaState ch dmaIdle 1).post 0x41 ch 0x002 0 (s.dmaPc ch / 16 % 2 ^ 28 * 2 ^ 4)))

/-- MOVE (R268). -/
def execMove (ch : Fin 128) (s : State) : Host.Outcome State Fault Refusal :=
  .next (s.dmaDo ch 1 (fun w => dmaBits w 51 51 == 0 || (s.dch ch).mv.isNone) (fun s w => s.dmaMove ch w))

/-- MOVEC (R270). -/
def execMovec (ch : Fin 128) (s : State) : Host.Outcome State Fault Refusal :=
  .next (s.dmaDo ch 2 (fun w => dmaBits w 51 51 == 0 || (s.dch ch).mv.isNone) (fun s w => s.dmaMove ch w))

/-- LOOP (R271). -/
def execLoop (ch : Fin 128) (s : State) : Host.Outcome State Fault Refusal :=
  .next (s.dmaDo ch 3 (fun _ => true) (fun s w =>
    let n := dmaBits w 31 0
    let pc := s.dmaPc ch
    if n = 0 then s.dmaGoto ch (pc + 8 * (dmaBits w 51 36 + 2))
    else (s.setDch ch { s.dch ch with loops := (n, (pc + 8) % 2 ^ 40) :: (s.dch ch).loops }).dmaNext ch))

/-- ENDLOOP (R271). -/
def execEndloop (ch : Fin 128) (s : State) : Host.Outcome State Fault Refusal :=
  .next (s.dmaDo ch 4 (fun _ => true) (fun s _ =>
    match (s.dch ch).loops with
    | (n, a) :: r =>
      if n = 1 then (s.setDch ch { s.dch ch with loops := r }).dmaNext ch
      else (s.setDch ch { s.dch ch with loops := (n - 1, a) :: r }).dmaGoto ch a
    | [] => s))

/-- WAIT EVENT (R272). -/
def execWaitEvent (ch : Fin 128) (s : State) : Host.Outcome State Fault Refusal :=
  .next (s.dmaDo ch 5 (fun w => dmaBits w 59 57 == 0) (fun s w =>
    let n := dmaBits w 7 0
    if s.dmaFlag n then (s.putFlag n false).dmaNext ch else s.dmaWait ch 0))

/-- WAIT REQ (R272). -/
def execWaitReq (ch : Fin 128) (s : State) : Host.Outcome State Fault Refusal :=
  .next (s.dmaDo ch 5 (fun w => dmaBits w 59 57 == 1) (fun s w =>
    if s.dmaLine (ch / 32) (dmaBits w 5 0) then s.dmaNext ch else s.dmaWait ch 1))

/-- WAIT TIME (R272). -/
def execWaitTime (ch : Fin 128) (s : State) : Host.Outcome State Fault Refusal :=
  .next (s.dmaDo ch 5 (fun w => dmaBits w 59 57 == 2) (fun s w =>
    if s.timeReached ch (dmaBits w 1 0) then s.dmaNext ch else s.dmaWait ch 2))

/-- WAIT KEY (R272). -/
def execWaitKey (ch : Fin 128) (s : State) : Host.Outcome State Fault Refusal :=
  .next (s.dmaDo ch 5 (fun w => dmaBits w 59 57 == 3) (fun s w => s.dmaWaitKey ch w))

/-- DMA_WAIT_MET (R272, R275). -/
def execDmaWaitMet (ch : Fin 128) (s : State) : Host.Outcome State Fault Refusal := .next (s.dmaMet ch)

/-- SIGNAL EVENT (R274). -/
def execSignalEvent (ch : Fin 128) (s : State) : Host.Outcome State Fault Refusal :=
  .next (s.dmaSignal ch 0 (fun s w => (s.setFlag (dmaBits w 7 0)).dmaNext ch))

/-- SIGNAL KEY (R274). -/
def execSignalKey (ch : Fin 128) (s : State) : Host.Outcome State Fault Refusal :=
  .next (s.dmaSignal ch 1 (fun s w => (s.decKey (dmaBits w 12 0) (dmaBits w 13 13 == 1)).dmaNext ch))

/-- SIGNAL JOURNAL (R274). -/
def execSignalJournal (ch : Fin 128) (s : State) : Host.Outcome State Fault Refusal :=
  .next (s.dmaSignal ch 2 (fun s w => (s.post 0x41 ch 0x010 0 (dmaBits w 31 0)).dmaNext ch))

/-- SIGNAL IRQ (R274, R381). -/
def execSignalIrq (ch : Fin 128) (s : State) : Host.Outcome State Fault Refusal :=
  .next (s.dmaSignal ch 3 (fun s w => (s.raise (dmaBits w 3 0) (dmaBits w 14 4)).dmaNext ch))

/-- SIGNAL RING (R275): of the channels that signal one ring, the one at which the holding engine's arbiter is. -/
def execSignalRing (ch : Fin 128) (s : State) : Host.Outcome State Fault Refusal :=
  .next (if s.ringFull (s.dmaRingAt ch) || s.dataRingTurn (s.dmaRingAt ch) ch then s.dmaSignal ch 4 (fun s w => s.dmaSignalRing ch w) else s)

/-- SETPTR SET (R267). -/
def execSetptrSet (ch : Fin 128) (s : State) : Host.Outcome State Fault Refusal :=
  .next (s.dmaSetPtr ch 0 (fun s r w => (s.setDch ch ((s.dch ch).set r (dmaBits w 39 0))).dmaNext ch))

/-- SETPTR ADD (R267). -/
def execSetptrAdd (ch : Fin 128) (s : State) : Host.Outcome State Fault Refusal :=
  .next (s.dmaSetPtr ch 1 (fun s r w =>
    (s.setDch ch ((s.dch ch).add r (s.dmaReg ch r) (signedOf 40 (dmaBits w 39 0)))).dmaNext ch))

/-- SETPTR LOAD (R267, R292). -/
def execSetptrLoad (ch : Fin 128) (s : State) : Host.Outcome State Fault Refusal :=
  .next (s.dmaSetPtr ch 2 (fun s r w => s.dmaLoad ch r w))

/-- NOP (R265). -/
def execDmaNop (ch : Fin 128) (s : State) : Host.Outcome State Fault Refusal :=
  .next (s.dmaDo ch 15 (fun _ => true) (fun s _ => s.dmaNext ch))

/-- BAD_OP (R266): an instruction that fails its check halts its channel. -/
def execBadOp (ch : Fin 128) (s : State) : Host.Outcome State Fault Refusal :=
  .next (match s.dmaMay ch && s.dmaState ch == dmaRunning, s.dmaInstr ch with
    | true, some w => (match s.dmaCheck ch w with
      | some code => s.dmaHalt ch code
      | none => s)
    | _, _ => s)

/-- PACED_BURST (R269); `withdrawn` says whether the request falls while the burst runs. -/
def execPacedBurst (ch : Fin 128) (withdrawn : Bool) (s : State) : Host.Outcome State Fault Refusal :=
  .next (s.dmaBurst ch withdrawn)

/-- DMA_WRITE_ACK (R274, R278). -/
def execDmaWriteAck (ch : Fin 128) (s : State) : Host.Outcome State Fault Refusal := .next (s.dmaAck ch)

/-- BUS_ERROR (R278): the engine acts on its oldest response other than OK. -/
def execBusError (engine : Fin 4) (s : State) : Host.Outcome State Fault Refusal :=
  .next (match tget [] s.dma.errs engine with
    | r :: l => ({ s with dma := { s.dma with errs := tset [] s.dma.errs engine l } }).dmaBusError engine r
    | [] => s)

/-- DMA_FETCH_RETURN (R277, R266). -/
def execDmaFetchReturn (ch : Fin 128) (s : State) : Host.Outcome State Fault Refusal := .next (s.dmaFetch ch)

/-- EVENT_SET (R272): a write of DMA.EVENT_SET0/1. -/
def execEventSet (req : Fin 14) (sel : BitVec 10) (word : Fin 2) (value : Word) (s : State) : Host.Outcome State Fault Refusal :=
  .next (s.csrWrite req 0x40 sel.toNat (0x020 + 4 * word) value)

/-- EVENT_CLR (R272). -/
def execEventClr (req : Fin 14) (sel : BitVec 10) (word : Fin 2) (value : Word) (s : State) : Host.Outcome State Fault Refusal :=
  .next (s.csrWrite req 0x40 sel.toNat (0x028 + 4 * word) value)

/-- REQ_SW_WRITE (R273). -/
def execReqSwWrite (req : Fin 14) (sel : BitVec 10) (word : Fin 2) (value : Word) (s : State) : Host.Outcome State Fault Refusal :=
  .next (s.csrWrite req 0x40 sel.toNat (0x040 + 4 * word) value)

/-- REG_HI_WRITE (R267). -/
def execRegHiWrite (req : Fin 14) (sel : BitVec 10) (value : Word) (s : State) : Host.Outcome State Fault Refusal :=
  .next (s.csrWrite req 0x41 sel.toNat 0x01C value)

/-- DATA_RING_HEAD (R275): the owner's write of a ring's head. -/
def execDataRingHead (fn : Fin 16) (ring : Fin 64) (value : BitVec 16) (s : State) : Host.Outcome State Fault Refusal :=
  .next (s.ringHead fn ring value.toNat)

end Sys2Proof.Machine
end

