-- ==== Sys2Proof/Machine/Streams.lean ====
section
/-! DEFINITION. The commands of stream channels and FFT engines (R68-R97). -/
namespace Sys2Proof.Machine

/-- A write of COMMIT with selector: GO = 1 commits each member in ascending order (R95). -/
def State.commitWrite (s : State) (cls sel : Nat) (v : Word) (ops : List (BitVec 16)) : State :=
  s.eachMember cls sel 0x060 (fun s i =>
    if wordField v 0 0 = 1 then s.commitArrive (if cls = 0x09 then 512 + i else i) ops else s)

/-- COMMIT_ARRIVE (R90). -/
def execCommitArrive (req : Fin 14) (tx : Bool) (sel : BitVec 10) (value : Word) (s : State) :
    Host.Outcome State Fault Refusal :=
  .next (if s.hubTakes req then s.commitWrite (if tx then 0x09 else 0x08) sel.toNat value [] else s)

/-- COMMIT_LOCK (R92): 64 SAMP cycles, 256 Tc, before the hand-over point. -/
def execCommitLock (ch : Fin 1024) (s : State) : Host.Outcome State Fault Refusal :=
  if s.timeRuns ∧ !(s.strm ch).lockDone ∧ (s.handOver ch).1 ≤ 256 then .next (s.lockPoint ch) else .next s

/-- The waiting set that applies at a hand-over to `code`, if any: the locked one; one whose lock point went by unmarked; at
the resume after a step any pending set (R361). -/
def Strm.applies (x : Strm) (slotWise stepped : Bool) (code : Nat) : Option CommitSet :=
  match x.pend with
  | some k => if x.locked || stepped || (!x.lockDone && k.fits slotWise code) then some k else none
  | none => none

/-- A transmit channel held quiet from its next slot start, and let go from the first slot start 64 SAMP cycles after the
mode lets it (R55, R57). -/
def State.txQuiet (s : State) (c code : Nat) : State :=
  let x := s.strm c
  if codeSym code = 0 then
    if s.quietMode then s.setStrm c { x with stopped := true }
    else if x.stopped ∧ s.quietOver then s.setStrm c { x with stopped := false }
    else s
  else s

/-- A PRACH occasion opens at the start of its slot (R83), beside those still under way; its sequence starts with the first sample at
or after START. DEDUCED: the settings of that moment serve the whole occasion (log entry 81). -/
def State.openPrach (s : State) (c code : Nat) : State :=
  let x := s.strm c
  let k := slotCount (s.chMu c) code
  let per := max 1 (s.sfld c Reg.STRM_RX.PRACH_TIME_PERIOD)
  if s.sbit c Reg.STRM_RX.PRACH_CTL_EN ∧ !s.sbit c Reg.STRM_RX.CTL_FREQ_DOMAIN ∧ codeSym code = 0 ∧
      k % per = s.sfld c Reg.STRM_RX.PRACH_TIME_SLOT_OFFSET then
    let skip := (s.sfld c Reg.STRM_RX.PRACH_TIME_START * 64 * s.chSize c * 2 ^ s.chMu c + 131071) / 131072
    s.setStrm c { x with prach := x.prach ++ [⟨k, x.eff, skip, 0, [], []⟩] }
  else s

/-- A symbol of a channel with FREQ_DOMAIN begins: its window is open until it closes, unless it has closed already (R336). -/
def State.openWindow (s : State) (c code : Nat) : State :=
  let x := s.strm c
  let closed := match x.fhClosed with
    | some f => decide (x.startAt ≤ s.symNear c f)
    | none => false
  if s.chActive c code && !closed then
    let j : SymJob := ⟨code, slotCount (s.chMu c) code, false, 0, false, false, toBits 10 x.gain,
      (s.sfld c Reg.STRM_RX.NCO_FREQ_NCO_FREQ + x.lo.toNat) % 2 ^ 32, [], x.eff, 0, s.capsOf c⟩
    s.setStrm c { x with fhOpen := x.fhOpen ++ [j] }
  else s

/-- The symbol that ends at a boundary is handed on: its samples received, or those sent counted for RoE and the lane. -/
def State.endSymbol (s : State) (c : Nat) (start : Int) : State :=
  let x := s.strm c
  if !s.chRuns c then s
  else if isTx c then
    let s := if x.waiting || s.sbit c Reg.STRM_RX.CTL_FREQ_DOMAIN then s else s.roeSend c (s.cyclePos c (x.cur.getD 0)) x.out
    s.pullStream (s.sfld c Reg.STRM_RX.LINK_LANE) (s.sfld c Reg.STRM_RX.LINK_STREAM)
  else if x.waiting then s
  else if s.sbit c Reg.STRM_RX.CTL_FREQ_DOMAIN then s.freqSymbol c start
  else s.rxSymbol c start

/-- The samples that the CP of the symbol beginning gains or loses (R358): samples move at the SAMP rate of TB_0, boundaries fall where
the channel's time base has them, and each sample of drift between the two is taken up by one symbol. `fresh`: the count starts here. -/
def State.cpDrift (s : State) (c : Nat) (fresh : Bool) : State :=
  let x := s.strm c
  let ahead : Int := (s.disp.dlclk : Int) - s.chTc c
  if fresh then s.setStrm c { x with driftBase := ahead, drift := 0, cpAdj := 0 }
  else
    let q := Int.tdiv ((ahead - x.driftBase) * (s.chSize c * 2 ^ s.chMu c : Nat)) 131072
    let a := Int.sign (q - x.drift)
    s.setStrm c { x with drift := x.drift + a, cpAdj := a }

/-- Time base and sample rate of a channel. -/
def State.chRate (s : State) (c : Nat) : Nat × Nat := (s.sfld c Reg.STRM_RX.CTL_TB, s.chSize c * 2 ^ s.chMu c)

/-- LO_CORR, the wait and the settings at a boundary to symbol `code` (R91): what applies, applies. -/
def State.takeSettings (s : State) (c code : Nat) (start : Int) : State :=
  let y := s.strm c
  let stepped := y.waiting && y.resume != 0
  let s := s.setStrm c { y with lo := y.loNext.getD y.lo, loNext := y.loAfter, loAfter := none, waiting := false, bySlot := false, resume := 0,
                                startAt := start, cur := some code, fhFrom := if y.waiting then start else y.fhFrom }
  let slotWise := s.sbit c Reg.STRM_RX.CTL_COMMIT_SLOT
  if !slotWise ∨ codeSym code = 0 ∨ y.waiting then
    let k := (s.strm c).applies slotWise stepped code
    let s := s.setStrm c { s.strm c with lockDone := false }
    match k with
    | some k => s.applySet c k code
    | none => s
  else s

/-- The symbol that begins is started on a transmit channel; `hard` says that a commit stopped its output at this boundary (R88). -/
def State.txStart (s : State) (c code : Nat) (g : GridAt) (hard : Bool) : State :=
  let s := s.txQuiet c code
  if !s.chRuns c then
    let s := if hard then s.holdPa c else s
    s.setStrm c { s.strm c with out := [], outTaken := 0, tail := [], runPos := none, ready := [] }
  else if s.sbit c Reg.STRM_RX.CTL_FREQ_DOMAIN then
    if s.chActive c code && !(s.strm c).stopped then s.setStrm c { s.strm c with runPos := some 0, out := [] }
    else
      let s := s.endRun c hard
      s.setStrm c { s.strm c with runPos := none, out := [] }
  else if (s.strm c).waiting then
    let s := s.txIdle c code (s.chSize c) hard
    s.setStrm c { s.strm c with outTaken := s.samplesIn c g.since, out := List.replicate (s.samplesIn c g.since) ((0 : Int), (0 : Int)) ++ (s.strm c).out }
  else s.txSymbol c code g hard

/-- The symbol that begins is started on a receive channel. -/
def State.rxStart (s : State) (c code : Nat) : State :=
  let s := (if codeSym code = 0 then s.witSlotStart c else s).witClose c
  if s.chRuns c && !(s.strm c).waiting then
    let s := s.openPrach c code
    if s.sbit c Reg.STRM_RX.CTL_FREQ_DOMAIN then s.openWindow c code else s
  else if s.chRuns c then s else s.endPrach c

/-- The boundary itself, at symbol `code` of the grid `g` (R69, R91): the symbol that ends is handed on, commits apply, the
symbol that begins starts; on the way into Banked the channel stops at a slot start (R65 step 4). -/
def State.boundary (s : State) (c code : Nat) (g : GridAt) : State :=
  let start : Int := (s.chTc c : Int) - g.since
  let retimed := (s.strm c).waiting && (s.strm c).resume == 0
  let s := s.endSymbol c start
  let s := if codeSym code = 0 then
      let s := s.agcSlot c
      s.setStrm c { s.strm c with satSlot := false, errSlot := false }
    else s
  let ran := s.chRuns c
  let wasActive := ran && s.chActive c code
  let rate := s.chRate c
  let fresh := !ran || (s.strm c).waiting
  let s := s.takeSettings c code start
  let s := s.cpDrift c (fresh || s.chRate c != rate)
  let g2 := s.chGrid c 0
  let code2 := s.chCode c g2
  let s := s.setStrm c { s.strm c with cur := some code2, startAt := (s.chTc c : Int) - g2.since }
  let s := if retimed then s.setS c Reg.STRM_RX.APPLIED_SYMBOL_SYMBOL code2 else s
  let hard := (ran && !s.chRuns c) || (wasActive && !(s.strm c).waiting && !s.chActive c code2)
  let s := if isTx c then s.txStart c code2 g2 hard else s.rxStart c code2
  if s.banking ∧ codeSym code2 = 0 ∧ s.chRuns c then s.bankChannel c else s

/-- A boundary that a waiting channel lets pass. -/
def State.passBoundary (s : State) (c code : Nat) (g : GridAt) : State :=
  let s := s.endSymbol c ((s.chTc c : Int) - g.since)
  s.setStrm c { s.strm c with cur := some code, startAt := (s.chTc c : Int) - g.since, outTaken := s.samplesIn c g.since, out := [] }

/-- SYMBOL_BOUNDARY (R69): the channel's grid has reached a new symbol. -/
def execSymbolBoundary (ch : Fin 1024) (s : State) : Host.Outcome State Fault Refusal :=
  let c := ch.val
  let g := s.chGrid c 0
  let code := s.chCode c g
  let x := s.strm c
  if !s.timeRuns ∨ !s.running (strmUnit c).1 (strmInst c) ∨ x.cur = some code then .next s
  else if x.waiting ∧ (s.disp.dlclk < x.resume ∨ (x.bySlot ∧ (codeSym code ≠ 0 ∨ s.banking))) then .next (s.passBoundary c code g)
  else .next (s.boundary c code g)

/-- Whether a channel's next symbol asks for engine `e`, and since which SAMP cycle. -/
def State.fftAsks (s : State) (e c : Nat) : Option Nat :=
  match (s.strm c).toFft with
  | j :: _ => if effFld c j.eff Reg.STRM_RX.FFT_CFG_FFT_SEL = e then some j.due else none
  | [] => none

/-- The channel whose symbol an engine takes next: the one that asked first, and of those in one cycle the one that R29 grants. -/
def State.fftGrant (s : State) (e : Nat) : Option Nat :=
  let l := (s.streams.ch.map (·.1)).filterMap (fun c => (s.fftAsks e c).map (fun d => (c, d)))
  match (l.map (·.2)).min? with
  | none => none
  | some first => rrPick 1024 (tget 1023 s.streams.fftLast e) (fun c => l.contains (c, first))

/-- FFT_SYMBOL_ARRIVE (R81): the channel's next symbol, once its turn has come, joins its engine's queue, or is dropped when the engine
holds 8 or its slice is off or fenced. -/
def execFftSymbolArrive (ch : Fin 1024) (s : State) : Host.Outcome State Fault Refusal :=
  let c := ch.val
  let x := s.strm c
  match x.toFft with
  | [] => .next s
  | j :: r =>
    let e := effFld c j.eff Reg.STRM_RX.FFT_CFG_FFT_SEL
    if s.fftGrant e ≠ some c then .next s
    else
    let s := s.setStrm c { x with toFft := r }
    let s := { s with streams := { s.streams with fftLast := tset 1023 s.streams.fftLast e c } }
    let q := s.fftQueue e
    if !s.powered 0x0A e ∨ s.fencedUnit 0x0A e ∨ 8 ≤ q.length then
      .next (if isTx c then s.dropSymbol e c j else (s.dropSymbol e c j).witClose c)
    else .next (s.setFft e (q ++ [(c, j)]))

/-- FFT_TRANSFORM_DONE (R74): the symbol at the head of an engine's queue is transformed; its result goes to the grid, to the
PRACH buffer, or back to its transmit channel, which has no use for it once its boundary has passed (R84). -/
def execFftTransformDone (engine : Fin 32) (s : State) : Host.Outcome State Fault Refusal :=
  match s.fftQueue engine with
  | [] => .next s
  | (c, j) :: r =>
    if !s.running 0x0A engine then .next s
    else
      let s := s.setFft engine r
      let shift := min 12 (effFld c j.eff Reg.STRM_RX.FFT_CFG_FFT_SHIFT)
      let seed := s.free
      let s := { s with free := s.free + 1 }
      let y := transform (isTx c) seed shift j.data
      let s := if transformClips (isTx c) shift j.data then s.strmSat c j.sym else s
      if isTx c then
        let x := s.strm c
        .next (if x.startAt < s.symNear c j.sym then s.setStrm c { x with ready := x.ready ++ [{ j with data := y }] } else s)
      else if j.prach then .next (s.prachWrite c j y)
      else
        let blocks := rxBlocks c j y
        .next (((s.gridWrite c j blocks).toWitness c j blocks).witClose c)

/-- SYM_DONE and SYM_FAIL of a slot so far. Symbols of more than one slot can be on their way, so each keeps its own. -/
def Strm.headerOf (x : Strm) (slot : Nat) : Nat × Nat :=
  ((x.headers.find? (fun h => h.1 == slot)).map (·.2)).getD (0, 0)

/-- GRID_WRITES_ACKED (R77): every write of the oldest symbol in hand is acknowledged; its header is written. -/
def execGridWritesAcked (ch : Fin 512) (s : State) : Host.Outcome State Fault Refusal :=
  let c := ch.val
  let x := s.strm c
  match x.writing with
  | [] => .next s
  | j :: r =>
    let mu := muOf (effFld c j.eff Reg.STRM_RX.CTL_MU)
    if j.prach then
      let (ok, s) := (s.setStrm c { x with writing := r }).chPut c (prachBuf c j.eff j.slot).1 j.sym
        (slotHeader mu j.sym j.gain (b2n j.fail) 0 j.freq)
      let y := s.strm c
      .next (s.setStrm c { y with headed := y.headed ++ [{ j with fail := j.fail || !ok }] })
    else
      let (d, f) := x.headerOf j.slot
      let done := if j.written then setBit d (codeSym j.sym) else d
      let failed := if j.fail then setBit f (codeSym j.sym) else f
      let s := s.setStrm c { x with writing := r, headers := ((j.slot, done, failed) :: x.headers.filter (fun h => h.1 != j.slot)).take 16 }
      let (ok, s) := s.chPut c (gridHeader c j.eff j.slot) j.sym (slotHeader mu j.sym j.gain done failed j.freq)
      let y := s.strm c
      .next (s.setStrm c { y with headed := y.headed ++ [{ j with fail := j.fail || !ok }] })

/-- HEADER_WRITE_ACKED (R78): the symbol's keystones are decremented, marked when it failed. DEDUCED: the occasion count that rotates
PRACH_KEY is the ⌊slot_count / PERIOD⌋ by which R83 numbers the buffers (log entry 67). -/
def execHeaderWriteAcked (ch : Fin 512) (s : State) : Host.Outcome State Fault Refusal :=
  let c := ch.val
  let x := s.strm c
  match x.headed with
  | [] => .next s
  | j :: r =>
    let s := s.setStrm c { x with headed := r }
    if j.prach then
      if effFld c j.eff Reg.STRM_RX.PRACH_KEY_KEY_EN = 1 then
        let occ := j.slot / max 1 (effFld c j.eff Reg.STRM_RX.PRACH_TIME_PERIOD)
        .next (s.decKey (effFld c j.eff Reg.STRM_RX.PRACH_KEY_KEY_INDEX + rotate2 (effFld c j.eff Reg.STRM_RX.PRACH_KEY_ROT_LOG2) occ) j.fail)
      else .next s
    else
      let s := s.countEvent 0x08 c 0x010 1
      let s := if j.fail then s.countEvent 0x08 c 0x011 1 else s
      .next (s.keysigs c j j.fail)

/-- PRACH_OCCASION (R83): the samples of a repetition of the oldest occasion are complete; filtered and decimated they go to the
engine. -/
def execPrachOccasion (ch : Fin 512) (s : State) : Host.Outcome State Fault Refusal :=
  let c := ch.val
  let x := s.strm c
  match x.prach with
  | [] => .next s
  | p :: r =>
    let f := effFld c p.eff
    let n := fftSize (f Reg.STRM_RX.PRACH_CTL_PR_FFT)
    let d := max 1 (f Reg.STRM_RX.PRACH_CTL_DECIM)
    if p.got.length < n * d ∨ !s.chRuns c then .next s
    else
      let spf := 10 * 2 ^ muOf (f Reg.STRM_RX.CTL_MU)
      let code := p.slot / spf * 2048 + p.slot % spf * 16
      let j : SymJob := ⟨code, p.slot, true, p.rep, (p.miss.take (n * d)).any id, true, toBits 10 x.gain,
        (f Reg.STRM_RX.NCO_FREQ_NCO_FREQ + x.lo.toNat) % 2 ^ 32, decimateBlock d s.free n (p.got.take (n * d)), p.eff, s.disp.dlclk / 4, []⟩
      let next := if p.rep + 1 < max 1 (f Reg.STRM_RX.PRACH_CTL_REPS) then
          [{ p with rep := p.rep + 1, got := p.got.drop (n * d), miss := p.miss.drop (n * d) }] else []
      .next (({ s with free := s.free + 1 }).setStrm c { x with toFft := x.toFft ++ [j], prach := next ++ r })

/-- TX_GRID_READ (R84): LEAD × 64 Tc before a boundary the symbol's PRBs begin to be read; poisoned PRBs are zeros. -/
def execTxGridRead (ch : Fin 512) (s : State) : Host.Outcome State Fault Refusal :=
  let c := 512 + ch.val
  let x := s.strm c
  let code := s.chCode c (s.chGrid c (64 * s.sfld c Reg.STRM_TX.TX_LEAD_LEAD))
  if !s.chRuns c ∨ x.waiting ∨ x.stopped ∨ !s.chActive c code ∨ x.readSym = some code then .next s
  else
    let mant := mantW (s.sfld c Reg.STRM_RX.PRB_MANT)
    let time := s.sbit c Reg.STRM_RX.CTL_PROC && !s.sbit c Reg.STRM_RX.CTL_FREQ_DOMAIN
    let n := s.chSize c
    let l := codeSlot code % 2 ^ s.chMu c * slotSymbols (s.chExt c) + codeSym code
    let prbs := if time then (n + cpSamples n (s.chMu c) (s.chExt c) l + 11) / 12 else s.sfld c Reg.STRM_RX.PRB_PRB_COUNT
    let slot := slotCount (s.chMu c) code
    let (ni, p) := slicePort c
    let (_, bytes, s) := s.unitGet 0x09 ch ni p (gridSymbol c x.eff slot (codeSym code)) (prbs * (1 + 3 * mant))
    let blocks := chunks (1 + 3 * mant) prbs bytes
    let bad := blocks.any (fun b => b.any (·.2))
    let un := blocks.map (fun b => if b.any (·.2) then (List.replicate 12 ((0 : Int), (0 : Int)), false) else bfpUnpack mant (b.map (·.1)))
    let s := if bad then s.strmEvent c Reg.STRM_RX.EVENTS_POISON_READ 0x004 2 code else s
    let freq := s.sbit c Reg.STRM_RX.CTL_FREQ_DOMAIN
    let s := if un.any (·.2) && !freq then s.strmSat c code else s
    let raw : List Sample := blocks.flatMap (fun b => b.map (fun y => if b.any (·.2) then (0, 0) else ((y.1.toNat : Int), 0)))
    let j : SymJob := ⟨code, slot, false, 0, bad, true, 0, 0, if freq then raw else un.flatMap (·.1), x.eff, s.disp.dlclk / 4, []⟩
    let y := s.strm c
    .next (s.setStrm c { y with readSym := some code, reading := y.reading ++ [j] })

/-- TX_GRID_READ_DONE (R84): the last PRB is in: keystones are decremented; the symbol goes to the engine, is ready as it is
(time-domain pass), or is handed to the channel's flow, which takes it at once (FREQ_DOMAIN). -/
def execTxGridReadDone (ch : Fin 512) (s : State) : Host.Outcome State Fault Refusal :=
  let c := 512 + ch.val
  let x := s.strm c
  match x.reading with
  | [] => .next s
  | j :: r =>
    let s := (s.setStrm c { x with reading := r }).keysigs c j false
    let y := s.strm c
    if effFld c j.eff Reg.STRM_RX.CTL_FREQ_DOMAIN = 1 then
      let size := 1 + 3 * mantW (effFld c j.eff Reg.STRM_RX.PRB_MANT)
      .next (s.flowSend c j (chunks size (j.data.length / size) (j.data.map (fun y => BitVec.ofInt 8 y.1))))
    else if effFld c j.eff Reg.STRM_RX.CTL_PROC = 1 then .next (if y.startAt < s.symNear c j.sym then s.setStrm c { y with ready := y.ready ++ [j] } else s)
    else .next (s.setStrm c { y with toFft := y.toFft ++ [{ j with data := txBins c j j.data, due := s.disp.dlclk / 4 }] })

/-- PA_ENABLE_CHANGE (R87): a channel's PA-enable asserts or deasserts at its lead or lag time; a change of the stream's
PA-enable is sent as a control word, a named pin follows. -/
def execPaEnableChange (ch : Fin 512) (s : State) : Host.Outcome State Fault Refusal :=
  let c := 512 + ch.val
  let on := s.paWanted c
  if s.bit Reg.STRM_TX.STATUS_PA_ON ch = on then .next s
  else
    let others := ((s.namers (s.sfld c Reg.STRM_RX.LINK_LANE) (s.sfld c Reg.STRM_RX.LINK_STREAM)).filter (· != c)).any
      (fun d => s.bit Reg.STRM_TX.STATUS_PA_ON (d - 512))
    let s := s.setFld Reg.STRM_TX.STATUS_PA_ON ch (b2n on)
    let s := if s.sbit c Reg.STRM_TX.PA_OUT_AHNENT_PA && !others then s.chWord c (if on then 1 else 2) else s
    .next (if s.sbit c Reg.STRM_TX.PA_OUT_PIN_EN then s.syncPin (s.sfld c Reg.STRM_TX.PA_OUT_PIN) else s)

/-- FFT_CLEAR_MAX: FFT.CLEAR.CLR_MAX sets MAX_DEPTH to 0. -/
def execFftClearMax (req : Fin 14) (sel : BitVec 10) (s : State) : Host.Outcome State Fault Refusal :=
  .next (s.hubEach req 0x0A sel.toNat 0x008 (fun s i => s.setFld Reg.FFT.STATUS_MAX_DEPTH i 0))

/-- FFT_CLEAR_DROPS: FFT.CLEAR.CLR_DROPS sets DROPS to 0. -/
def execFftClearDrops (req : Fin 14) (sel : BitVec 10) (s : State) : Host.Outcome State Fault Refusal :=
  .next (s.hubEach req 0x0A sel.toNat 0x008 (fun s i => s.setFld Reg.FFT.DROPS_DROPS i 0))

end Sys2Proof.Machine
end

