-- ==== Sys2Proof/Machine/PacketOps.lean ====
section
/-! DEFINITION. How Dvorys takes a packet from a submission ring, checks it and answers it (R31–R43, R46, R47), and how it reaches
registers and memory for it (R39, R40). -/
namespace Sys2Proof.Machine

/-- A packet: the function whose ring holds it, its header and its parameter words. -/
structure Packet where
  fn : Nat
  op : Nat
  barrier : Bool
  intr : Bool
  ver : Nat
  tag : Word
  target : Word
  pw : Nat
  seq : BitVec 16
  params : List Word
deriving DecidableEq, Repr

def Packet.cls (p : Packet) : Nat := wordField p.target 7 0
def Packet.sel (p : Packet) : Nat := wordField p.target 17 8

/-- A parameter word; one not carried reads as zero. -/
def Packet.w (p : Packet) (i : Nat) : Word := p.params.getD i 0

/-- Slots a packet of `n` parameter words occupies (R32). -/
def packetSlots (n : Nat) : Nat := 1 + (n + 3) / 16

/-- A read by the active Dvorys pair, requester 8 of the hub. -/
def State.pairRead (s : State) (a n : Nat) : BusStatus × List (Byte × Bool) × State :=
  let (st, l, s) := s.reqRead 8 63 0 a n
  (st, l, s.took 0x70 s.activePair a l)

/-- Sixteen words of a submission slot; a poisoned 16-byte word is taken as zero (R292). -/
def State.sqSlot (s : State) (fn k : Nat) : List Word × State :=
  let p := s.page fn
  let a := ringBase p.sqBase p.sqTreasury + 64 * (k % 4096)
  if p.sqTreasury then
    let (_, l, s) := s.unitGet 0x70 s.activePair 63 0 a 64
    (bytesToWords 16 (l.map (fun b => if b.2 then 0 else b.1)), s)
  else
    let (_, l, s) := s.hostRead a 64
    let s := s.took 0x70 s.activePair a l
    (bytesToWords 16 (l.map (fun b => if b.2 then 0 else b.1)), s)

/-- The words of `n` slots from slot `k` on. -/
def State.sqWords (s : State) (fn k : Nat) : Nat → List Word × State
  | 0 => ([], s)
  | n + 1 =>
    let (l, s') := s.sqWords fn k n
    let (m, s'') := s'.sqSlot fn (k + n)
    (l ++ m, s'')

/-- The packet at a ring's SQ_HEAD. -/
def State.packetAt (s : State) (fn : Nat) : Packet × State :=
  let h := (s.page fn).sqHead.toNat
  let n := wordField ((s.sqSlot fn h).1.getD 3 0) 11 0
  let (l, s) := s.sqWords fn h (packetSlots n)
  let w (i : Nat) : Word := l.getD i 0
  (⟨fn, wordField (w 0) 15 0, wordField (w 0) 16 16 == 1, wordField (w 0) 17 17 == 1, wordField (w 0) 31 24, w 1, w 2,
    wordField (w 3) 11 0, BitVec.ofNat 16 (wordField (w 3) 31 16), (l.drop 4).take (wordField (w 3) 11 0)⟩, s)

/-- Whether an active pair serves rings (R47): Dvorys is up and a pair is active. -/
def State.serves (s : State) : Bool :=
  s.bit Reg.SYS.RAISE_STATUS_DVORYS_UP 0 && s.modes.mode != .footing && s.modes.mode != .bedding &&
  (s.fld Reg.DVORYS.PAIR_STATUS_ROLE 0 == 2 || s.fld Reg.DVORYS.PAIR_STATUS_ROLE 1 == 2)

/-- Whether a ring asks to be served (R41): enabled, readable, a whole packet below the tail (R33), room for its completions (R35),
no BARRIER that waits, not held by back-pressure (R43). -/
def State.ringAsks (s : State) (fn : Nat) : Bool :=
  let p := s.page fn
  let l := (s.sqSlot fn p.sqHead.toNat).1
  p.enable && !p.quiescing && s.ringUp fn p.sqTreasury &&
  decide (packetSlots (wordField (l.getD 3 0) 11 0) ≤ (p.sqTail - p.sqHead).toNat) && decide (2 + s.eventsOwed fn ≤ p.cqFree) &&
  (wordField (l.getD 0 0) 16 16 == 0 || s.eventsOwed fn == 0) && !tget false s.dvorys.heldPacket fn

/-- The ring Dvorys serves next (R41). -/
def State.nextRing (s : State) : Option Nat := if s.serves then rrPick 16 s.dvorys.lastRing s.ringAsks else none

/-- SQ_HEAD past a packet (R33). -/
def State.passSlots (s : State) (fn n : Nat) : State :=
  s.setPage fn { s.page fn with sqHead := (s.page fn).sqHead + BitVec.ofNat 12 n }

/-- A packet taken by a grant of R41: SQ_HEAD past it, and its ring the last granted. -/
def State.takeSlots (s : State) (fn n : Nat) : State :=
  let s := s.passSlots fn n
  { s with dvorys := { s.dvorys with lastRing := fn } }

/-- The reply of a packet. -/
def State.reply (s : State) (p : Packet) (st : Status) (detail : Nat) (results : List Word) : State :=
  s.answer p.fn 0 st p.tag p.seq (s.page p.fn).sqHead detail results p.intr

def State.replyOk (s : State) (p : Packet) (results : List Word) : State := s.reply p .ok 0 results

/-! ## The opcode tables (R44) -/

/-- What an opcode may target. -/
inductive OpTarget
  | device | anyClass | enumerated | rws | classes (l : List Nat) | activated
deriving DecidableEq, Repr

/-- A row: range of PARAM_WORDS, PF only, long-running, target. -/
structure OpRow where
  code : Nat
  lo : Nat
  hi : Nat
  pf : Bool
  lr : Bool
  target : OpTarget
deriving DecidableEq, Repr

def fenceClasses : List Nat := [0x10, 0x18, 0x19, 0x1A, 0x1B, 0x1C, 0x48, 0x49, 0x50, 0x58]

def opRows0 : List OpRow :=
  [⟨0x0001, 0, 0, false, false, .device⟩, ⟨0x0002, 0, 0, false, false, .device⟩, ⟨0x0003, 0, 0, false, false, .device⟩,
   ⟨0x0004, 1, 1, true, true, .device⟩, ⟨0x0005, 1, 9, false, false, .device⟩, ⟨0x0006, 2, 10, true, false, .device⟩,
   ⟨0x0007, 1, 1, true, false, .device⟩, ⟨0x0008, 1, 1, false, false, .device⟩]

def opRows1 : List OpRow :=
  [⟨0x1001, 1, 1, false, false, .enumerated⟩, ⟨0x1002, 1, 1, false, false, .anyClass⟩, ⟨0x1003, 2, 13, false, false, .anyClass⟩,
   ⟨0x1004, 3, 3, false, false, .anyClass⟩, ⟨0x1005, 3, 3, false, true, .anyClass⟩, ⟨0x1006, 1, 1, false, false, .rws⟩,
   ⟨0x1007, 0, 0, false, false, .rws⟩, ⟨0x1008, 0, 0, true, true, .classes fenceClasses⟩,
   ⟨0x1009, 0, 0, true, true, .classes fenceClasses⟩]

def opRows2 : List OpRow :=
  [⟨0x2001, 1, 8, false, false, .classes [0x2A]⟩, ⟨0x2002, 0, 0, false, false, .classes [0x2A]⟩,
   ⟨0x2003, 1, 1, false, false, .classes [0x28, 0x2A]⟩, ⟨0x2004, 1, 4, false, false, .classes [0x28]⟩,
   ⟨0x2005, 0, 0, false, true, .classes [0x29]⟩]

def opRows3 : List OpRow :=
  [⟨0x3001, 1, 8, false, false, .classes [0x21]⟩, ⟨0x3002, 16, 16, false, false, .classes [0x21]⟩,
   ⟨0x3003, 2, 2, false, false, .classes [0x22]⟩, ⟨0x3004, 1, 1, false, false, .classes [0x22]⟩,
   ⟨0x3005, 0, 0, false, false, .classes [0x21, 0x23]⟩]

def opRows4 : List OpRow :=
  [⟨0x4001, 1, 12, false, false, .classes [0x30]⟩, ⟨0x4002, 1, 6, false, false, .classes [0x31]⟩,
   ⟨0x4003, 0, 1, false, false, .classes [0x30]⟩, ⟨0x4004, 6, 6, false, true, .classes [0x30]⟩,
   ⟨0x4005, 1, 10, false, false, .classes [0x32]⟩, ⟨0x4006, 2, 1026, false, false, .classes [0x32]⟩,
   ⟨0x4007, 0, 0, false, false, .classes [0x30]⟩]

def opRows5 : List OpRow :=
  [⟨0x5001, 0, 0, false, false, .classes [0x60]⟩, ⟨0x5002, 4, 4, false, false, .classes [0x60]⟩,
   ⟨0x5003, 1, 6, false, false, .classes [0x60]⟩, ⟨0x5004, 3, 3, false, false, .classes [0x60]⟩,
   ⟨0x5005, 2, 8, false, false, .classes [0x62]⟩, ⟨0x5006, 1, 4, false, false, .classes [0x61]⟩]

def opRows6 : List OpRow :=
  [⟨0x6001, 3, 3, false, false, .device⟩, ⟨0x6002, 3, 14, false, false, .device⟩, ⟨0x6003, 5, 5, false, true, .device⟩,
   ⟨0x6004, 1, 1, false, false, .classes [0x4A]⟩, ⟨0x6005, 2, 2, false, true, .classes [0x49]⟩,
   ⟨0x6006, 1, 1, false, true, .classes [0x49]⟩, ⟨0x6007, 1, 2, false, false, .classes [0x48, 0x49]⟩,
   ⟨0x6008, 6, 6, false, false, .device⟩]

def opRows7 : List OpRow :=
  [⟨0x7001, 1, 1, false, true, .classes [0x50]⟩, ⟨0x7002, 1, 6, false, false, .classes [0x51]⟩,
   ⟨0x7003, 0, 0, false, true, .classes [0x51]⟩, ⟨0x7004, 0, 0, false, false, .classes [0x51]⟩,
   ⟨0x7005, 1, 8, false, false, .classes [0x52]⟩, ⟨0x7006, 1, 10, false, false, .classes [0x58]⟩,
   ⟨0x7007, 2, 9, false, false, .classes [0x59]⟩, ⟨0x7008, 2, 2, false, false, .classes [0x58, 0x52]⟩]

def opRows8 : List OpRow :=
  [⟨0x8001, 5, 5, true, true, .device⟩, ⟨0x8002, 1, 1, true, true, .device⟩, ⟨0x8003, 0, 0, true, true, .activated⟩,
   ⟨0x8004, 2, 2, true, true, .device⟩, ⟨0x8005, 1, 1, true, false, .device⟩]

def opRows9 : List OpRow :=
  [⟨0x9001, 2, 2, false, false, .anyClass⟩, ⟨0x9002, 1, 1, false, false, .anyClass⟩, ⟨0x9003, 4, 4, false, true, .classes [0x78]⟩,
   ⟨0x9004, 1, 4, false, false, .classes [0x79]⟩, ⟨0x9005, 1, 1, false, false, .classes [0x01]⟩]

def opRows : List OpRow :=
  opRows0 ++ opRows1 ++ opRows2 ++ opRows3 ++ opRows4 ++ opRows5 ++ opRows6 ++ opRows7 ++ opRows8 ++ opRows9

def opRow (code : Nat) : Option OpRow := opRows.find? (fun r => r.code == code)

/-! ## The checks of R38 -/

/-- Whether a function is granted an opcode (R46): NOP, IDENTIFY and MODE_GET always; the PF everything; the device as a whole is no
class of R14 and needs the group alone. -/
def State.granted (s : State) (p : Packet) : Bool :=
  let f := s.fnState p.fn
  p.fn == 0 || (p.op == 0x0001 || p.op == 0x0002 || p.op == 0x0003) ||
  (f.groups.getLsbD (p.op / 2 ^ 12) && (p.cls == 0xFF || f.classes.getLsbD p.cls))

/-- Whether an opcode is accepted in the mode in force (R47). -/
def State.modeServes (s : State) (op : Nat) : Bool :=
  op == 0x0004 ||
  match s.modes.mode with
  | .raising => op != 0x3002
  | .banked => op == 0x0001 || op == 0x0002 || op == 0x0003
  | _ => true

/-- Whether a selector names a present instance, or a group or broadcast of a class marked for group use. -/
def selectorOk (cls sel : Nat) : Bool :=
  if sel < 0x200 then instPresent cls sel else (decide (sel < 0x240) || sel == 0x3FF) && classGroup cls

/-- Check 5. -/
def targetOk (r : OpRow) (cls sel : Nat) : Bool :=
  match r.target with
  | .device => cls == 0xFF && sel == 0
  | .anyClass => (classDef cls).isSome && selectorOk cls sel
  | .enumerated => (classDef cls).isSome && sel == 0
  | .rws => (cls == 0x08 || cls == 0x09) && selectorOk cls sel
  | .classes l => l.contains cls && selectorOk cls sel && (r.code != 0x3002 || decide (sel < 0x200))
  | .activated => (cls == 0x70 && sel == 0x3FF) || (decide (0x18 ≤ cls) && decide (cls ≤ 0x1C) && decide (sel < 0x200) && instPresent cls sel)

/-- Offset k of a register access that starts at a parameter word: low bits and the window's end as R44 says. -/
def offAt (w : Word) (k : Nat) : Nat := (wordField w 9 0 / 4 * 4 + 4 * k) % 0x400

/-- Words a REG_READ or MEM_READ returns: 0 acts as 1, above 12 as 12. -/
def readCount (n : Nat) : Nat := if n = 0 then 1 else min n 12

/-- Check 6: whether a single-instance target is out of reach. -/
def State.outOfReach (s : State) (p : Packet) : Bool :=
  let cls := p.cls
  let i := p.sel
  let n := if p.op = 0x1002 then readCount (wordField (p.w 0) 27 16) else if p.op = 0x1003 then p.pw - 1 else 1
  let grp := (p.op == 0x1002 || p.op == 0x1003 || p.op == 0x1004) && classGroup cls &&
    (List.range n).all (fun k => isGrpOff (offAt (p.w 0) k))
  if cls = 0xFF ∨ 0x200 ≤ i ∨ cls = 0x03 ∨ p.op = 0x1008 ∨ p.op = 0x1009 ∨ grp then false
  else !s.powered cls i || (s.fencedUnit cls i && p.op != 0x1002)

/-- Opcodes that touch bulk memory whatever their parameters, those of its staging area, PAGE_RETIRE and CHANNEL_EVACUATE: FENCED until
it is filled (R47). -/
def State.bulkShut (s : State) (p : Packet) : Bool :=
  ((decide (0x8001 ≤ p.op) && decide (p.op ≤ 0x8004)) || p.op == 0x6005 || p.op == 0x6006) &&
  !s.bit Reg.SYS.RAISE_STATUS_BULK_FILLED 0

/-- Instances a selector names, fenced and unpowered ones too: one, the members of a group by GRP_MEMBER, or all. -/
def State.named (s : State) (cls sel : Nat) : List Nat :=
  if sel < 0x200 then [sel]
  else (instances cls).filter (fun i =>
    sel == 0x3FF || bitOf (s.reg cls i (0x370 + 4 * ((sel - 0x200) / 32))).toNat ((sel - 0x200) % 32))

/-- Instances an operation in progress works on: those it keeps in its parameters, or those its target names. -/
def LrOp.units (o : LrOp) (s : State) : List Nat :=
  match o.kind with
  | .fenceUnit | .unfenceUnit | .meterCal | .evacuate | .laneRecal => o.params.map (·.toNat)
  | .quadSwitch => o.params.map (fun w => w.toNat % 65536)
  | .pageRetire => (o.params.drop 2).map (·.toNat)
  | .modeSet | .regBlock | .commitNotify | .vaultExport | .memCopy | .imageStage | .imageVerify | .imageActivate | .flashWrite
  | .collect => s.named o.cls o.sel

/-- Whether a target has an operation in progress (check 7): the same target, or one that shares an instance with it (R397).
DEDUCED: class 0xFF is one target (log entry 22). -/
def State.targetBusy (s : State) (cls sel : Nat) : Bool :=
  s.dvorys.ops.any (fun o => o.cls == cls && (o.sel == sel || (s.named cls sel).any (o.units s).contains))

/-- Whether a packet is long-running: COMMIT is with NOTIFY_APPLIED. -/
def Packet.long (p : Packet) (r : OpRow) : Bool := r.lr || (p.op == 0x1006 && wordField (p.w 0) 0 0 == 1)

/-- The first check of R38 that fails: its status and DETAIL. -/
def State.refusal (s : State) (p : Packet) : Option (Status × Nat) :=
  match (if p.ver = 1 then opRow p.op else none) with
  | none => some (.badOpcode, p.op)
  | some r =>
    if p.pw < r.lo ∨ r.hi < p.pw then some (.badLength, p.pw)
    else if !s.granted p ∨ (r.pf ∧ p.fn ≠ 0) then some (.denied, p.fn)
    else if !s.modeServes p.op then some (.modeForbids, s.modes.mode.code)
    else if !targetOk r p.cls p.sel then some (.badTarget, p.target.toNat)
    else if s.outOfReach p ∨ s.bulkShut p then some (.fenced, p.sel)
    else if p.long r ∧ 256 ≤ s.dvorys.ops.length then some (.busy, 2)
    else if p.long r ∧ s.targetBusy p.cls p.sel then some (.busy, 3)
    else none

/-- A packet row: the packet of the ring served next is of opcode `op`; it is taken, and refused or executed. -/
def State.packetRow (s : State) (fn op : Nat) (f : State → Packet → State) : State :=
  if s.nextRing = some fn then
    let (p, t) := s.packetAt fn
    if p.ver = 1 ∧ p.op = op then
      let t := t.takeSlots fn (packetSlots p.pw)
      match t.refusal p with
      | some (st, detail) => t.reply p st detail []
      | none => f t p
    else s
  else s

/-! ## Long-running packets (R42) -/

/-- Upper bound in µs on RESULT1 of ACCEPTED, where the manual bounds the operation (R36, R56, R199, R300, R301, R308, R312, R396, R415). -/
def lrBound (op : Nat) : Nat :=
  if op = 0x0004 then 1000 else if op = 0x1008 then 50 else if op = 0x1009 then 35 else if op = 0x2005 then 2000
  else if op = 0x6005 then 10000 else if op = 0x7001 then 20000 else if op = 0x7003 then 1100000
  else if op = 0x8002 then 20000 else if op = 0x8003 then 300 else if op = 0x8004 then 10000000 else 2 ^ 32 - 1

/-- ACCEPTED: the operation enters the table; its OP_ID and estimate, and what else the reply carries. -/
def State.acceptOp (s : State) (p : Packet) (kind : LrKind) (params : List Word) (more : List Word) : LrOp × State :=
  let id := s.nextOpId
  let o : LrOp := ⟨id, p.fn, p.tag, p.seq, p.intr, kind, p.cls, p.sel, params, 0, false, false, (s.page p.fn).sqHead⟩
  let s := { s with dvorys := { s.dvorys with lastOp := id, ops := s.dvorys.ops ++ [o] } }
  (o, s.reply p .accepted 0 ([w32 id.toNat, w32 (estimateUs (lrBound p.op) p.op (p.w 4).toNat)] ++ more))

/-! ## Registers as Dvorys reaches them (R39, R40) -/

/-- The members a target names for a sequence of writes. -/
def State.members (s : State) (p : Packet) : List Nat := if p.sel < 0x200 then [p.sel] else s.writeTargets p.cls p.sel 0

/-- One write to one member. -/
def State.dvWrite (s : State) (p : Packet) (i off : Nat) (v : Word) : State :=
  if 0x200 ≤ p.sel ∧ singleOnly p.cls off then s else s.csrWrite 8 p.cls i off v

/-- A sequence of (offset, word) writes, the whole of it per member in ascending order (R39). -/
def State.dvWrites (s : State) (p : Packet) (l : List (Nat × Word)) : State :=
  (s.members p).foldl (fun s i => l.foldl (fun s x => s.dvWrite p i x.1 x.2) s) s

/-- Words to consecutive registers from `base` on. -/
def wordsAt (base : Nat) (l : List Word) : List (Nat × Word) := l.mapIdx (fun k w => (base + 4 * k, w))

/-- PROTECT as PROTECT_SET writes it, ACTIVE kept (R323, R351). -/
def State.protectWord (s : State) (p : Packet) : Word :=
  let act := if p.cls = 0x58 then s.fld Reg.MAC.PROTECT_ACTIVE p.sel else s.fld Reg.AHNENT.PROTECT_ACTIVE p.sel
  w32 ((p.w 0).toNat % 64 + wordField (p.w 1) 5 0 * 2 ^ 8 + 2 ^ 16 * wordField (p.w 1) 8 8 + 2 ^ 17 * act)

/-- The writes a configuration packet makes to each member, in order (R39, R194, R214, R235, R303, R323, R324, R351, R353, R371,
R407). -/
def State.configWrites (s : State) (p : Packet) : List (Nat × Word) :=
  let op := p.op
  if op = 0x1003 then (p.params.drop 1).mapIdx (fun k w => (offAt (p.w 0) k, w))
  else if op = 0x3003 then
    [(0x300, w32 (wordField (p.w 0) 7 0 + wordField (p.w 1) 11 0 * 2 ^ 8 + 2 ^ 20 * wordField (p.w 1) 31 31))]
  else if op = 0x4006 then
    [(0x060, w32 (wordField (p.w 0) 5 0)), (0x064, w32 (wordField (p.w 1) 10 0))] ++ (p.params.drop 2).map (fun w => (0x068, w))
  else if op = 0x7007 then (0x000, p.w 0) :: wordsAt 0x010 (p.params.drop 1)
  else if op = 0x7008 then [(if p.cls = 0x58 then 0x024 else 0x010, s.protectWord p)]
  else if op = 0x5003 then wordsAt 0x030 p.params
  else if op = 0x5002 then wordsAt 0x018 p.params
  else if op = 0x5004 then wordsAt 0x048 p.params
  else if op = 0x6007 then wordsAt 0x040 p.params
  else if op = 0x9001 then [(0x380 + 4 * wordField (p.w 0) 2 0, p.w 1)]
  else wordsAt 0x000 p.params

/-- Whether some member's write to an offset of a list is ignored for the mode in force (R10). -/
def State.modeBars (s : State) (p : Packet) (offs : List Nat) : Bool :=
  !(s.members p).isEmpty && offs.any (fun o => !s.modeTakes p.cls o)

/-- The reply of a packet that wrote registers: MODE_FORBIDS where a write was ignored for the mode (R10), else OK. -/
def State.replyWritten (s : State) (p : Packet) (barred : Bool) (results : List Word) : State :=
  if barred then s.reply p .modeForbids s.modes.mode.code results else s.replyOk p results

/-- A configuration packet carried out and answered (R39). DEDUCED: where only some of its writes are ignored for the mode, the others
stand (log entry 22). -/
def State.configure (s : State) (p : Packet) : State :=
  (s.dvWrites p (s.configWrites p)).replyWritten p (s.modeBars p ((s.configWrites p).map Prod.fst)) []

/-- Reads of the target, offset after offset; zeros where it names no instance. -/
def State.dvReads (s : State) (p : Packet) (offs : List Nat) : List Word × State :=
  offs.foldl (fun acc o =>
    let (w, s) := acc.2.csrRead 8 p.cls p.sel o
    (acc.1 ++ [w], s)) (([] : List Word), s)

/-- A packet answered with registers of its target. -/
def State.replyRegs (s : State) (p : Packet) (offs : List Nat) : State :=
  let (l, s) := s.dvReads p offs
  s.replyOk p l

/-! ## Memory as Dvorys reaches it -/

/-- A 40-bit address from two parameter words. -/
def addr40 (lo hi : Word) : Nat := lo.toNat + 2 ^ 32 * (hi.toNat % 2 ^ 8)

/-- The instance FENCED names for an address: the bank or bulk channel. -/
def State.memInstance (s : State) (a : Nat) : Nat :=
  match s.region a with
  | .treasury b => b
  | .course n => n
  | .sett c => c / 8
  | .bulk c _ => c
  | _ => 0

/-- The status of a Mortar status other than OK on an address (R37, R44). -/
def busAnswer (st : BusStatus) : Status :=
  match st with
  | .decodeError => .decodeError
  | .fenced => .fenced
  | _ => .unitFault

/-- A member list as an operation keeps it. -/
def memberWords (l : List Nat) : List Word := l.map w32

/-! ## PLAN (R213) -/

/-- Projected draws of N periods for the accounts and tasks in scope, in 1/256 mite. -/
def State.planDraws (s : State) (n : Nat) (inScope : Nat → Bool) : List Nat :=
  let accts := ((List.range 64).filter inScope).map s.account
  let base := (accts.map (·.staticLast)).sum
  let len := 625 * periodTc s.ledger.periodNow
  let whole := max 1 (if s.ledger.periodEnd.isSome then s.ledger.periodLen else len)
  let left := whole - s.periodPassed
  let p0 := (accts.map (·.periodAll)).sum + base * left / whole
  let due (t : Task) : Option (Nat × Nat) :=
    let est := 256 * t.estimate
    match t.st with
    | .running => some (0, est - t.accrual)
    | .ready | .slotted => some (0, est)
    | .waiting =>
      if t.noDeadline then none
      else
        let d : Int := 625 * (t.key - s.disp.dlclk)
        some (if d < left then 0 else 1 + ((d - left) / (len : Int)).toNat, est)
  let l := (s.disp.tasks.filter (fun x => inScope x.2.account)).filterMap (fun x => due x.2)
  (List.range n).map (fun i => (if i = 0 then p0 else base) + ((l.filter (fun x => x.1 == i)).map Prod.snd).sum)

/-! ## Commits (R44, R90) -/

/-- COMMIT.GO written to every member; the commit number of the lowest. -/
def State.packetCommit (s : State) (p : Packet) (ops : List (BitVec 16)) : Nat × State :=
  let l := s.members p
  let s := l.foldl (fun s i => s.commitWrite p.cls i 1 ops) s
  match l.head? with
  | some i => (s.getS (if p.cls = 0x09 then 512 + i else i) Reg.STRM_RX.COMMIT_STATE_COMMIT_NUM, s)
  | none => (0, s)

/-! ## Unfencing (R397, R414, R415) -/

/-- A fence's unit is to come back: its domain powered up when it is off; else its refill is done and its port asked to open. A
sequence still under way is waited for. -/
def State.startUnfence (s : State) (cls inst : Nat) : State :=
  match s.fenceOf cls inst with
  | none => s
  | some f =>
    if f.phase = .done then
      match fenceDomain cls inst with
      | some d =>
        if s.domState d = 0 ∨ s.domState d = 1 then
          let s := s.setFence { f with phase := .powerQueued, unfenceWaits := false }
          if s.power.waitingUp.contains d ∨ s.power.ramping = some d then s
          else { s with power := { s.power with waitingUp := s.power.waitingUp ++ [d] } }
        else if s.domState d = 6 ∨ s.domState d = 7 then s.setFence { f with unfenceWaits := true }
        else
          let s := s.setFence { f with phase := .refilled, unfenceWaits := false }
          match unitDest cls inst with
          | some dest => if (s.fencersOf dest).isEmpty then s else s.askUnfence 1 dest
          | none => s
      | none => s.setFence { f with phase := .refilled, unfenceWaits := false }
    else if f.phase = .waiting ∨ f.phase = .draining ∨ f.phase = .drained then s.setFence { f with unfenceWaits := true }
    else s

end Sys2Proof.Machine
end

