-- ==== Sys2Proof/Machine/Packets.lean ====
section
/-! DEFINITION. The packets of the submission rings (R38–R53): a row takes the packet at the head of the ring that is served next, if
it is of its opcode, checks it and carries it out. -/
namespace Sys2Proof.Machine

/-! ## Group 0x0: system and modes -/

/-- BAD_OPCODE (R38): an opcode of no table, or a header of another version. -/
def execBadOpcode (fn : Fin 16) (s : State) : Host.Outcome State Fault Refusal :=
  if s.nextRing = some fn.val then
    let (p, t) := s.packetAt fn
    if p.ver = 1 ∧ (opRow p.op).isSome then .next s
    else
      let t := t.takeSlots fn (packetSlots p.pw)
      .next (t.reply p .badOpcode p.op [])
  else .next s

/-- NOP. -/
def execNop (fn : Fin 16) (s : State) : Host.Outcome State Fault Refusal := .next (s.packetRow fn 0x0001 (fun s p => s.replyOk p []))

/-- IDENTIFY. -/
def execIdentify (fn : Fin 16) (s : State) : Host.Outcome State Fault Refusal :=
  .next (s.packetRow fn 0x0002 (fun s p => s.replyOk p
    [0x9680, Config.siliconRevision, w32 (s.fld Reg.DVORYS.PAIR_STATUS_VERSION s.activePair), w32 s.activePair,
      w32 s.images.bootSlot, w32 p.fn]))

/-- MODE_GET. -/
def execModeGet (fn : Fin 16) (s : State) : Host.Outcome State Fault Refusal :=
  .next (s.packetRow fn 0x0003 (fun s p => s.replyOk p [w32 s.modes.mode.code, w32 (b2n s.modes.target.isSome)]))

/-- MODE_SET (R47, R56, R58): ACCEPTED, then the mode controller's decision as requester 1. -/
def State.modeSet (s : State) (p : Packet) : State :=
  let t := Mode.ofCode (wordField (p.w 0) 2 0)
  let (o, s) := s.acceptOp p .modeSet p.params []
  match s.modeVerdict t true with
  | none => (s.modeDecision 2 1 (wordField (p.w 0) 2 0)).endOp o .modeForbids s.modes.mode.code []
  | some false => (s.modeDecision 1 1 (wordField (p.w 0) 2 0)).endOp o .ok 0 [w32 s.modes.mode.code]
  | some true => (s.modeDecision 3 1 (wordField (p.w 0) 2 0)).beginMode (t.getD .service) 1 (some o.opId)

def execModeSet (fn : Fin 16) (s : State) : Host.Outcome State Fault Refusal := .next (s.packetRow fn 0x0004 State.modeSet)

/-- A class bitmap with its first words replaced by those a packet carries. -/
def putBitmap (old : BitVec 256) (l : List Word) : BitVec 256 :=
  BitVec.ofNat 256 ((List.range 8).map (fun k => (l.getD k (w32 (old.toNat / 2 ^ (32 * k) % 2 ^ 32))).toNat * 2 ^ (32 * k))).sum

/-- EVENT_SUBSCRIBE (R49). -/
def State.subscribe (s : State) (p : Packet) : State :=
  let f := s.fnState p.fn
  (s.setFnState p.fn { f with
    subSev := wordField (p.w 0) 1 0, subOn := wordField (p.w 0) 8 8 == 1, subTag := p.tag,
    subClasses := putBitmap f.subClasses (p.params.drop 1) }).replyOk p []

def execEventSubscribe (fn : Fin 16) (s : State) : Host.Outcome State Fault Refusal := .next (s.packetRow fn 0x0005 State.subscribe)

/-- FN_GRANT (R46): the group mask, and of the class bitmap the words carried; a function that is no VF gets nothing. -/
def State.fnGrant (s : State) (p : Packet) : State :=
  let n := (p.w 0).toNat
  let s := s.replyOk p []
  if 1 ≤ n ∧ n ≤ 15 then
    let f := s.fnState n
    s.setFnState n { f with groups := BitVec.ofNat 16 (p.w 1).toNat, classes := putBitmap f.classes (p.params.drop 2) }
  else s

def execFnGrant (fn : Fin 16) (s : State) : Host.Outcome State Fault Refusal := .next (s.packetRow fn 0x0006 State.fnGrant)

/-- BAR0_CTL.OPEN, one value in both instances. -/
def State.setDiag (s : State) (v : Nat) : State := (s.setFld Reg.DVORYS.BAR0_CTL_OPEN 0 v).setFld Reg.DVORYS.BAR0_CTL_OPEN 1 v

/-- DIAG_WINDOW (R48). -/
def State.diagWindow (s : State) (p : Packet) : State :=
  (s.setDiag (wordField (p.w 0) 0 0)).replyOk p [w32 (s.fld Reg.DVORYS.BAR0_CTL_OPEN 0)]

def execDiagWindow (fn : Fin 16) (s : State) : Host.Outcome State Fault Refusal := .next (s.packetRow fn 0x0007 State.diagWindow)

/-- The operations marked (A) in R44. -/
def LrKind.abortable : LrKind → Bool
  | .regBlock | .vaultExport | .memCopy | .evacuate | .imageStage | .collect => true
  | .modeSet | .commitNotify | .fenceUnit | .unfenceUnit | .meterCal | .pageRetire | .quadSwitch | .laneRecal
  | .imageVerify | .imageActivate | .flashWrite => false

/-- ABORT (R50). -/
def State.abortOp (s : State) (p : Packet) : State :=
  match s.dvorys.ops.find? (fun o => o.opId.toNat == (p.w 0).toNat) with
  | none => s.replyOk p [0]
  | some o => if o.kind.abortable then (s.setOp { o with aborting := true }).replyOk p [1] else s.replyOk p [2]

def execAbort (fn : Fin 16) (s : State) : Host.Outcome State Fault Refusal := .next (s.packetRow fn 0x0008 State.abortOp)

/-! ## Group 0x1: configuration, commit, enumeration -/

/-- ENUMERATE: count, group use, presence of 320 instances from the first. -/
def State.enumerate (s : State) (p : Packet) : State :=
  let n := (instances p.cls).length
  let first := (p.w 0).toNat / 32 * 32
  s.replyOk p ([w32 n, w32 (b2n (classGroup p.cls))] ++ (List.range 10).map (fun k =>
    w32 ((List.range 32).map (fun j => b2n (decide (first + 32 * k + j < n)) * 2 ^ j)).sum))

def execEnumerate (fn : Fin 16) (s : State) : Host.Outcome State Fault Refusal := .next (s.packetRow fn 0x1001 State.enumerate)

/-- REG_READ. -/
def State.regRead (s : State) (p : Packet) : State :=
  s.replyRegs p ((List.range (readCount (wordField (p.w 0) 27 16))).map (offAt (p.w 0)))

def execRegRead (fn : Fin 16) (s : State) : Host.Outcome State Fault Refusal := .next (s.packetRow fn 0x1002 State.regRead)

/-- REG_WRITE (R39). -/
def execRegWrite (fn : Fin 16) (s : State) : Host.Outcome State Fault Refusal := .next (s.packetRow fn 0x1003 State.configure)

/-- REG_MODIFY: one locked pair per member; the old value of the lowest. -/
def State.regModify (s : State) (p : Packet) : State :=
  let off := offAt (p.w 0) 0
  let barred := s.modeBars p [off]
  let (olds, s) := (s.members p).foldl (fun acc i =>
    let (w, s) := if 0x200 ≤ p.sel ∧ singleOnly p.cls off then (0, acc.2) else acc.2.csrRead 8 p.cls i off
    (acc.1 ++ [w], s.dvWrite p i off ((w &&& ~~~(p.w 1)) ||| (p.w 2 &&& p.w 1)))) (([] : List Word), s)
  s.replyWritten p barred [olds.headD 0]

def execRegModify (fn : Fin 16) (s : State) : Host.Outcome State Fault Refusal := .next (s.packetRow fn 0x1004 State.regModify)

/-- REG_BLOCK begins. -/
def execRegBlock (fn : Fin 16) (s : State) : Host.Outcome State Fault Refusal :=
  .next (s.packetRow fn 0x1005 (fun s p => (s.acceptOp p .regBlock p.params []).2))

/-- COMMIT (R44, R90): the commit number in the reply; with NOTIFY_APPLIED an operation that ends when the last member named has
applied, at once where none is named. -/
def State.commitPacket (s : State) (p : Packet) : State :=
  if wordField (p.w 0) 0 0 = 1 then
    let id := s.nextOpId
    let n := (s.members p).length
    let o : LrOp := ⟨id, p.fn, p.tag, p.seq, p.intr, .commitNotify, p.cls, p.sel, [w32 n], 0, false, false, (s.page p.fn).sqHead⟩
    let s := { s with dvorys := { s.dvorys with lastOp := id, ops := s.dvorys.ops ++ [o] } }
    let (num, s) := s.packetCommit p [id]
    let s := s.reply p .accepted 0 [w32 id.toNat, w32 (estimateUs (lrBound p.op) p.op 0), w32 num]
    if n = 0 then s.endOp o .ok 0 [0, 0, 0] else s
  else
    let (num, s) := s.packetCommit p []
    s.replyOk p [w32 num]

def execCommit (fn : Fin 16) (s : State) : Host.Outcome State Fault Refusal := .next (s.packetRow fn 0x1006 State.commitPacket)

/-- COMMIT_STATE. -/
def State.commitStatePacket (s : State) (p : Packet) : State :=
  let (l, s) := s.dvReads p [0x068, 0x06C]
  s.replyOk p [w32 (wordField (l.headD 0) 1 0), w32 (wordField (l.headD 0) 31 16), l.getD 1 0]

def execCommitState (fn : Fin 16) (s : State) : Host.Outcome State Fault Refusal :=
  .next (s.packetRow fn 0x1007 State.commitStatePacket)

/-- FENCE_UNIT (R171, R396): every unit named begins its fence. -/
def State.fencePacket (s : State) (p : Packet) : State :=
  let l := s.members p
  let (_, s) := s.acceptOp p .fenceUnit (memberWords l) []
  l.foldl (fun s i => s.startFence p.cls i) s

def execFenceUnit (fn : Fin 16) (s : State) : Host.Outcome State Fault Refusal := .next (s.packetRow fn 0x1008 State.fencePacket)

/-- Units an UNFENCE_UNIT names: a group reaches its fenced members too, by their GRP_MEMBER. -/
def State.fencedMembers (s : State) (p : Packet) : List Nat :=
  if p.sel < 0x200 then [p.sel] else (s.named p.cls p.sel).filter (fun i => (s.fenceOf p.cls i).isSome)

/-- UNFENCE_UNIT (R397): OK with no effect where nothing is fenced. -/
def State.unfencePacket (s : State) (p : Packet) : State :=
  let l := s.fencedMembers p
  let (o, s) := s.acceptOp p .unfenceUnit (memberWords l) []
  if l.all (fun i => (s.fenceOf p.cls i).isNone) then s.endOp o .ok 0 []
  else l.foldl (fun s i => s.startUnfence p.cls i) s

def execUnfenceUnit (fn : Fin 16) (s : State) : Host.Outcome State Fault Refusal := .next (s.packetRow fn 0x1009 State.unfencePacket)

/-! ## Group 0x2: ledger (R214) -/

def execAccountSet (fn : Fin 16) (s : State) : Host.Outcome State Fault Refusal := .next (s.packetRow fn 0x2001 State.configure)

/-- ACCOUNT_READ: one latched read (R203). -/
def execAccountRead (fn : Fin 16) (s : State) : Host.Outcome State Fault Refusal :=
  .next (s.packetRow fn 0x2002 (fun s p => s.replyRegs p ((List.range 8).map (fun k => 0x040 + 4 * k))))

/-- PLAN (R213), for the lowest account of a group; zeros where it has none. -/
def State.plan (s : State) (p : Packet) : State :=
  let n := readCount (p.w 0).toNat
  let l := if p.cls = 0x28 then s.planDraws n (fun _ => true)
    else match s.readTarget 0x2A p.sel 0x000 with
      | some a => s.planDraws n (· == a)
      | none => List.replicate n 0
  s.replyOk p (l.map (fun x => w32 (min allOnes32 (x / 256))))

def execPlan (fn : Fin 16) (s : State) : Host.Outcome State Fault Refusal := .next (s.packetRow fn 0x2003 State.plan)

def execLedgerSet (fn : Fin 16) (s : State) : Host.Outcome State Fault Refusal := .next (s.packetRow fn 0x2004 State.configure)

/-- METER_CALIBRATE (R199). -/
def State.calibrate (s : State) (p : Packet) : State :=
  let l := s.members p
  let (o, s) := s.acceptOp p .meterCal (memberWords l) []
  if l.isEmpty then s.endOp o .ok 0 [0, 0] else l.foldl (fun s i => s.setFld Reg.METER.STATUS_CALIBRATING i 1) s

def execMeterCalibrate (fn : Fin 16) (s : State) : Host.Outcome State Fault Refusal := .next (s.packetRow fn 0x2005 State.calibrate)

/-! ## Group 0x3: dispatcher (R194) -/

def execQueueSet (fn : Fin 16) (s : State) : Host.Outcome State Fault Refusal := .next (s.packetRow fn 0x3001 State.configure)

/-- A TASK_POST accepted: its descriptor's index (R176). -/
def State.postTask (s : State) (p : Packet) : State :=
  let (i, s) := s.accept p.sel ((List.range 16).map p.w) s.secTc
  { s.replyOk p [w32 i] with disp := { (s.replyOk p [w32 i]).disp with lastPost := 8, lastIndex := tset 0 s.disp.lastIndex 8 i } }

/-- The requesters of R178 that contend: those whose first post has room, and Dvorys with a held TASK_POST that has. -/
def State.postContends (s : State) (r : Nat) : Bool :=
  s.postAsks r || (r == 8 && s.serves &&
    (List.range 16).any (fun fn => tget false s.dvorys.heldPacket fn && s.postRoom (s.packetAt fn).1.sel))

/-- Whether a TASK_POST that asks now is granted: R178's arbiter, with Dvorys as requester 8. -/
def State.taskPostTurn (s : State) : Bool :=
  rrPick 14 s.disp.lastPost (fun r => r == 8 || s.postContends r) == some 8

/-- TASK_POST (R43, R176, R178): taken when its queue has room and the arbiter grants it, else held with its ring. -/
def execTaskPost (fn : Fin 16) (s : State) : Host.Outcome State Fault Refusal :=
  let p := (s.packetAt fn).1
  if s.nextRing = some fn.val ∧ p.ver = 1 ∧ p.op = 0x3002 ∧ s.refusal p = none ∧
      !(s.postRoom p.sel && s.taskPostTurn) then
    let s := s.setPage fn { s.page fn with stalledBp := true }
    .next { s with dvorys := { s.dvorys with heldPacket := tset false s.dvorys.heldPacket fn true, lastRing := fn } }
  else .next (s.packetRow fn 0x3002 State.postTask)

/-- Whether a ring's held TASK_POST is granted: Dvorys answers, posts are accepted, there is room, and R178's arbiter is at it. -/
def State.retryTurn (s : State) (fn : Nat) : Bool :=
  tget false s.dvorys.heldPacket fn && s.serves && s.postMode && s.postRoom (s.packetAt fn).1.sel && s.taskPostTurn

/-- A ring's held TASK_POST accepted. Its ring stays out of the arbitration of R41, so the ring granted last is unchanged. -/
def State.retryPost (s : State) (fn : Nat) : State :=
  let (p, t) := s.packetAt fn
  let t := t.passSlots fn (packetSlots p.pw)
  let t := t.setPage fn { t.page fn with stalledBp := false }
  ({ t with dvorys := { t.dvorys with heldPacket := tset false t.dvorys.heldPacket fn false } }).postTask p

/-- TASK_POST_RETRY (R43): a held post accepted once there is room. -/
def execTaskPostRetry (fn : Fin 16) (s : State) : Host.Outcome State Fault Refusal :=
  .next (if s.retryTurn fn then s.retryPost fn else s)

/-- POST_ACCEPT (R178): the arbiter grants one requester whose queue has room; a TASK_POST that stands is Dvorys' where it has no
POST write, of the lowest-numbered ring first (DESIGN CHOICE, log entry 49). -/
def execPostAccept (s : State) : Host.Outcome State Fault Refusal :=
  if s.postMode then
    match rrPick 14 s.disp.lastPost s.postContends with
    | some r =>
      match s.postAsks r, s.firstPost r with
      | true, some h => .next (s.grantPost r h)
      | _, _ =>
        match (List.range 16).find? s.retryTurn with
        | some fn => .next (s.retryPost fn)
        | none => .next s
    | none => .next s
  else .next s

def execKeystoneSet (fn : Fin 16) (s : State) : Host.Outcome State Fault Refusal := .next (s.packetRow fn 0x3003 State.configure)

/-- KEYSTONE_READ: RD_SEL written and RD_DATA read as one locked pair. -/
def execKeystoneRead (fn : Fin 16) (s : State) : Host.Outcome State Fault Refusal :=
  .next (s.packetRow fn 0x3004 (fun s p => (s.dvWrites p [(0x30C, p.w 0)]).replyRegs p [0x310]))

/-- HIST0–HIST7 of a queue or a teller. -/
def histOffsets : List Nat := (List.range 8).map (fun k => 0x040 + 4 * k)

def execQueueStats (fn : Fin 16) (s : State) : Host.Outcome State Fault Refusal :=
  .next (s.packetRow fn 0x3005 (fun s p => s.replyRegs p
    (if p.cls = 0x21 then [0x020, 0x024] ++ histOffsets ++ [0x02C, 0x030] else [0x000, 0x004, 0x00C, 0x010] ++ histOffsets)))

/-! ## Group 0x4: Witness (R227, R235) -/

def execVaultSet (fn : Fin 16) (s : State) : Host.Outcome State Fault Refusal := .next (s.packetRow fn 0x4001 State.configure)

def execVstreamSet (fn : Fin 16) (s : State) : Host.Outcome State Fault Refusal := .next (s.packetRow fn 0x4002 State.configure)

/-- The trigger arbiter run until it has granted a command's trigger. -/
def State.untilGranted : Nat → State → State
  | 0, s => s
  | n + 1, s => if s.vault.trig.any (fun t => t.1 == 0) then State.untilGranted n s.triggerStep else s

/-- VAULT_TRIGGER (R224, R235): T of its trigger; with command triggers disabled none is stamped and the words are open. -/
def State.triggerPacket (s : State) (p : Packet) : State :=
  if s.bit Reg.VAULT.TRIG_SRC_CMD_EN 0 then
    let s := s.commandTrigger (p.w 0)
    let s := State.untilGranted s.vault.trig.length s
    s.replyOk p [loWord s.devclk.toNat, hiWord s.devclk.toNat]
  else
    let (x, s) := s.takeFree 64
    s.replyOk p [loWord x, hiWord x]

def execVaultTrigger (fn : Fin 16) (s : State) : Host.Outcome State Fault Refusal := .next (s.packetRow fn 0x4003 State.triggerPacket)

/-- VAULT_EXPORT (R227): begins on a region that is not free. -/
def State.exportPacket (s : State) (p : Packet) : State :=
  let r := wordField (p.w 0) 3 0
  let (o, s) := s.acceptOp p .vaultExport p.params []
  if s.rgnState r = 0 then (s.post 0x30 0 0x006 0 r).endOp o .ok 0 [0, w32 (wordField (p.w 1) 25 0)]
  else (s.setFld (Reg.VAULT.RGN_EXPORTING r) 0 1).setFld Reg.VAULT.STATUS_EXPORTING 0 1

def execVaultExport (fn : Fin 16) (s : State) : Host.Outcome State Fault Refusal := .next (s.packetRow fn 0x4004 State.exportPacket)

def execTallySet (fn : Fin 16) (s : State) : Host.Outcome State Fault Refusal := .next (s.packetRow fn 0x4005 State.configure)

/-- TEMPLATE_LOAD: its registers take single instances only, so a group is left as it is. -/
def execTemplateLoad (fn : Fin 16) (s : State) : Host.Outcome State Fault Refusal := .next (s.packetRow fn 0x4006 State.configure)

def execVaultStatus (fn : Fin 16) (s : State) : Host.Outcome State Fault Refusal :=
  .next (s.packetRow fn 0x4007 (fun s p =>
    let (l, s) := s.dvReads p [0x050, 0x054, 0x058, 0x05C, 0x060, 0x064, 0x068]
    s.replyOk p (l ++ [w32 s.vault.len])))

/-! ## Group 0x5: time (R371) -/

/-- TB_READ: the latched read, seconds [47:32] first. -/
def execTbRead (fn : Fin 16) (s : State) : Host.Outcome State Fault Refusal :=
  .next (s.packetRow fn 0x5001 (fun s p =>
    let (l, s) := s.dvReads p [0x000, 0x004, 0x008, 0x00C, 0x010, 0x014]
    s.replyOk p (l.getD 1 0 :: l.headD 0 :: l.drop 2)))

def execTbStep (fn : Fin 16) (s : State) : Host.Outcome State Fault Refusal := .next (s.packetRow fn 0x5002 State.configure)

def execServoSet (fn : Fin 16) (s : State) : Host.Outcome State Fault Refusal := .next (s.packetRow fn 0x5003 State.configure)

def execServoOffset (fn : Fin 16) (s : State) : Host.Outcome State Fault Refusal := .next (s.packetRow fn 0x5004 State.configure)

def execTddEdgeSet (fn : Fin 16) (s : State) : Host.Outcome State Fault Refusal := .next (s.packetRow fn 0x5005 State.configure)

def execPtpPortSet (fn : Fin 16) (s : State) : Host.Outcome State Fault Refusal := .next (s.packetRow fn 0x5006 State.configure)

/-! ## Group 0x6: memory (R44, R45, R303) -/

/-- DETAIL of an access that failed at `a`, whose address stands in parameter word `w`, after `n` words. -/
def State.busDetail (s : State) (st : BusStatus) (a w n : Nat) : Nat :=
  match st with
  | .decodeError => w
  | .fenced => s.memInstance a
  | _ => n

/-- MEM_READ: poisoned words come back as zero with their bits in DETAIL. -/
def State.memReadPacket (s : State) (p : Packet) : State :=
  let a := addr40 (p.w 0) (p.w 1) / 4 * 4
  let n := readCount (p.w 2).toNat
  let (st, l, s) := s.pairRead a (4 * n)
  if st = .ok then
    let part (k : Nat) := (l.drop (4 * k)).take 4
    let bad (k : Nat) : Bool := (part k).any Prod.snd
    let words := (List.range n).map (fun k => if bad k then (0 : Word) else w32 (leNat ((part k).map Prod.fst)))
    let d := ((List.range n).map (fun k => b2n (bad k) * 2 ^ k)).sum
    s.reply p (if d = 0 then .ok else .poisoned) d words
  else s.reply p (busAnswer st) (s.busDetail st a 0 0) []

def execMemRead (fn : Fin 16) (s : State) : Host.Outcome State Fault Refusal := .next (s.packetRow fn 0x6001 State.memReadPacket)

/-- Lines written until one fails: status, words written, state. -/
def State.putWords (s : State) : List (Nat × List (Byte × Bool)) → Nat → BusStatus × Nat × State
  | [], n => (.ok, n, s)
  | (a, l) :: r, n =>
    let (st, s) := s.reqWrite 8 63 0 a l
    if st = .ok then s.putWords r (n + l.length / 4) else (st, n, s)

/-- MEM_WRITE; a word that meets a register whose heading does not list the mode is answered MODE_FORBIDS (R10). -/
def State.memWritePacket (s : State) (p : Packet) : State :=
  let a := addr40 (p.w 0) (p.w 1) / 4 * 4
  let barred := match s.region a with
    | .csr => (List.range (p.pw - 2)).any (fun k =>
      let o := a % 0x10000000 + 4 * k
      !s.modeTakes (o / 2 ^ 20) (o % 2 ^ 10) && !(s.writeTargets (o / 2 ^ 20) (o / 2 ^ 10 % 2 ^ 10) (o % 2 ^ 10)).isEmpty)
    | _ => false
  let (st, n, s) := s.putWords (lines a 4 (clean (wordsToBytes (p.params.drop 2)))) 0
  if st = .ok then s.replyWritten p barred [] else s.reply p (busAnswer st) (s.busDetail st a 0 n) []

def execMemWrite (fn : Fin 16) (s : State) : Host.Outcome State Fault Refusal := .next (s.packetRow fn 0x6002 State.memWritePacket)

/-- MEM_COPY begins. -/
def execMemCopy (fn : Fin 16) (s : State) : Host.Outcome State Fault Refusal :=
  .next (s.packetRow fn 0x6003 (fun s p => (s.acceptOp p .memCopy p.params []).2))

/-- SPALL_READ (R303): SEL, then the entry, as one locked sequence. -/
def execSpallRead (fn : Fin 16) (s : State) : Host.Outcome State Fault Refusal :=
  .next (s.packetRow fn 0x6004 (fun s p => (s.dvWrites p [(0x00C, p.w 0)]).replyRegs p [0x010, 0x014, 0x018, 0x01C]))

/-- PAGE_RETIRE begins (R300). -/
def execPageRetire (fn : Fin 16) (s : State) : Host.Outcome State Fault Refusal :=
  .next (s.packetRow fn 0x6005 (fun s p => (s.acceptOp p .pageRetire (p.params ++ memberWords (s.members p)) []).2))

/-- CHANNEL_EVACUATE begins (R301), a group's channels one after another. -/
def State.evacuatePacket (s : State) (p : Packet) : State :=
  let l := s.members p
  let (o, s) := s.acceptOp p .evacuate (memberWords l) []
  match l with
  | [] => s.endOp o .ok 0 [0]
  | c :: _ => s.startEvacuation c

def execChannelEvacuate (fn : Fin 16) (s : State) : Host.Outcome State Fault Refusal :=
  .next (s.packetRow fn 0x6006 State.evacuatePacket)

def execScrubSet (fn : Fin 16) (s : State) : Host.Outcome State Fault Refusal := .next (s.packetRow fn 0x6007 State.configure)

/-- The register writes of DATA_RING_SET (R45, R275): ring n of engine n ÷ 16. -/
def State.ringWrites (s : State) (p : Packet) : State :=
  let n := wordField (p.w 0) 5 0
  let o := 0x200 + 0x10 * (n % 16)
  let cfg := w32 (wordField (p.w 3) 4 0 + wordField (p.w 4) 3 0 * 2 ^ 8 + 2 ^ 16 * wordField (p.w 5) 10 0)
  ((s.csrWrite 8 0x40 (n / 16) o (p.w 1)).csrWrite 8 0x40 (n / 16) (o + 4) (p.w 2)).csrWrite 8 0x40 (n / 16) (o + 8) cfg

/-- DATA_RING_SET (R45, R275). -/
def State.dataRingSet (s : State) (p : Packet) : State := ((s.ringWrites p).ringReset (wordField (p.w 0) 5 0)).replyOk p []

def execDataRingSet (fn : Fin 16) (s : State) : Host.Outcome State Fault Refusal := .next (s.packetRow fn 0x6008 State.dataRingSet)

/-! ## Group 0x7: lanes and links (R324, R353) -/

/-- QUAD_PROTOCOL_SET (R308): PROTO written to every quad; 65,536 marks a quad whose write is held. -/
def State.quadPacket (s : State) (p : Packet) : State :=
  let l := s.members p
  let ps := l.map (fun q => w32 (q + 65536 * b2n (s.bit Reg.LANEQ.STATUS_SWITCHING q)))
  let (o, s) := s.acceptOp p .quadSwitch ps []
  if l.isEmpty then s.endOp o .ok 0 [0] else l.foldl (fun s q => s.dvWrite p q 0x000 (p.w 0)) s

def execQuadProtocolSet (fn : Fin 16) (s : State) : Host.Outcome State Fault Refusal := .next (s.packetRow fn 0x7001 State.quadPacket)

def execLaneSet (fn : Fin 16) (s : State) : Host.Outcome State Fault Refusal := .next (s.packetRow fn 0x7002 State.configure)

/-- LANE_RECAL (R312). -/
def State.recalPacket (s : State) (p : Packet) : State :=
  let l := s.members p
  let (o, s) := s.acceptOp p .laneRecal (memberWords l) []
  if l.isEmpty then s.endOp o .ok 0 [0, 0] else l.foldl (fun s i => s.dvWrite p i 0x014 1) s

def execLaneRecal (fn : Fin 16) (s : State) : Host.Outcome State Fault Refusal := .next (s.packetRow fn 0x7003 State.recalPacket)

def execLaneStatus (fn : Fin 16) (s : State) : Host.Outcome State Fault Refusal :=
  .next (s.packetRow fn 0x7004 (fun s p => s.replyRegs p ((List.range 8).map (fun k => 0x040 + 4 * k))))

def execAhnentSet (fn : Fin 16) (s : State) : Host.Outcome State Fault Refusal := .next (s.packetRow fn 0x7005 State.configure)

def execMacSet (fn : Fin 16) (s : State) : Host.Outcome State Fault Refusal := .next (s.packetRow fn 0x7006 State.configure)

def execFlowWrite (fn : Fin 16) (s : State) : Host.Outcome State Fault Refusal := .next (s.packetRow fn 0x7007 State.configure)

/-- PROTECT_SET (R323, R351): one write of PROTECT. -/
def execProtectSet (fn : Fin 16) (s : State) : Host.Outcome State Fault Refusal := .next (s.packetRow fn 0x7008 State.configure)

/-! ## Group 0x8: firmware images (R51, R52, R172) -/

/-- IMAGE_STAGE begins: the staging area holds no whole image until it ends. -/
def State.stagePacket (s : State) (p : Packet) : State :=
  let (_, s) := s.acceptOp p .imageStage p.params []
  s.setImages { s.images with stage := .staging, type := (p.w 0).toNat }

def execImageStage (fn : Fin 16) (s : State) : Host.Outcome State Fault Refusal := .next (s.packetRow fn 0x8001 State.stagePacket)

/-- IMAGE_VERIFY begins. -/
def execImageVerify (fn : Fin 16) (s : State) : Host.Outcome State Fault Refusal :=
  .next (s.packetRow fn 0x8002 (fun s p => (s.acceptOp p .imageVerify p.params []).2))

/-- The verified image: type, body length, version; a type that fits nothing while none is verified. -/
def State.verifiedImage (s : State) : Nat × Nat × Nat :=
  if s.images.stage = .verified then
    let l := (s.bytesAt s.stagingArea 512).1
    (s.images.type, imgBody l, imgVersion l)
  else (255, 0, 0)

/-- IMAGE_ACTIVATE (R51, R52, R172): a standby pair, or one engine's inactive bank, begins to load; BUSY without a standby pair. -/
def State.activatePacket (s : State) (p : Packet) : State :=
  if p.cls = 0x70 then
    let other := 1 - s.activePair
    if s.fld Reg.DVORYS.PAIR_STATUS_ROLE other = 1 then
      let (_, s) := s.acceptOp p .imageActivate [] []
      s.setFld Reg.DVORYS.PAIR_STATUS_ROLE other 3
    else s.reply p .busy 1 []
  else
    let u := unitIndex p.cls p.sel
    let (o, s) := s.acceptOp p .imageActivate [] []
    (s.setEng u { s.eng u with act := some o.opId, image := some s.verifiedImage, loaded := false }).setE u Reg.LDPC_DEC.STATUS_LOADING 1

def execImageActivate (fn : Fin 16) (s : State) : Host.Outcome State Fault Refusal := .next (s.packetRow fn 0x8003 State.activatePacket)

/-- IMAGE_FLASH_WRITE begins. -/
def execImageFlashWrite (fn : Fin 16) (s : State) : Host.Outcome State Fault Refusal :=
  .next (s.packetRow fn 0x8004 (fun s p => (s.acceptOp p .flashWrite p.params []).2))

/-- IMAGE_STATUS: six words, whose meaning R44 leaves open. -/
def execImageStatus (fn : Fin 16) (s : State) : Host.Outcome State Fault Refusal :=
  .next (s.packetRow fn 0x8005 (fun s p =>
    let (x, s) := s.takeFree 192
    s.replyOk p ((List.range 6).map (fun k => w32 (x / 2 ^ (32 * k) % 2 ^ 32)))))

/-! ## Group 0x9: counters and diagnostics (R400–R407) -/

/-- COUNTER_SELECT: word 1 to CNT_SELk, k = word 0 [2:0]. -/
def execCounterSelect (fn : Fin 16) (s : State) : Host.Outcome State Fault Refusal := .next (s.packetRow fn 0x9001 State.configure)

/-- One counter through the readout path (R403): count, overflow bit; zero where the instance is off or fenced. -/
def State.readCounter (s : State) (cls i k : Nat) : Nat × Bool × Bool :=
  if s.powered cls i && !s.fencedUnit cls i then
    (s.counter cls i k, bitOf (s.reg cls i 0x3A4).toNat k, false)
  else (0, false, true)

/-- COUNTER_READ: the counters of the four lowest mask bits, of one instance or a group's lowest. -/
def State.counterPacket (s : State) (p : Packet) : State :=
  let ks := ((List.range 8).filter (fun k => bitOf (p.w 0).toNat k)).take 4
  let read (k : Nat) : List Word :=
    let (n, o, _) := match s.readTarget p.cls p.sel 0x3C0 with
      | some i => s.readCounter p.cls i k
      | none => (0, false, true)
    [loWord n, w32 (n / 2 ^ 32 + 2 ^ 31 * b2n o), loWord s.time.tcnt.toNat]
  s.replyOk p (ks.flatMap read)

def execCounterRead (fn : Fin 16) (s : State) : Host.Outcome State Fault Refusal := .next (s.packetRow fn 0x9002 State.counterPacket)

/-- COLLECT_START (R404). -/
def State.collectPacket (s : State) (p : Packet) : State :=
  let (_, s) := s.acceptOp p .collect p.params []
  let c : Collect := {
    list := addr40 (p.w 0) (p.w 1) / 8 * 8, count := max 1 (wordField (p.w 1) 31 16), out := addr40 (p.w 2) (p.w 3) / 16 * 16,
    period := wordField (p.w 3) 31 16, since := 0, sweep := 0, written := 0, failed := false }
  ({ s with observe := { s.observe with collect := some c } }).setFld Reg.COLLECT.STATUS_RUNNING 0 1

def execCollectStart (fn : Fin 16) (s : State) : Host.Outcome State Fault Refusal := .next (s.packetRow fn 0x9003 State.collectPacket)

def execTraceSet (fn : Fin 16) (s : State) : Host.Outcome State Fault Refusal := .next (s.packetRow fn 0x9004 State.configure)

/-- JOURNAL_READ: three entries from a slot on, as Dvorys reads them in memory. -/
def State.journalPacket (s : State) (p : Packet) : State :=
  let n := 2 ^ s.journalLog2
  let (l, s) := (List.range 3).foldl (fun acc k =>
    let (_, b, s) := acc.2.unitGet 0x70 s.activePair 63 0 (s.journalBase + 16 * (((p.w 0).toNat + k) % n)) 16
    (acc.1 ++ b, s)) (([] : List (Byte × Bool)), s)
  let bad (k : Nat) : Bool := ((l.drop (4 * k)).take 4).any Prod.snd
  let words := (List.range 12).map (fun k => if bad k then (0 : Word) else w32 (leNat (((l.drop (4 * k)).take 4).map Prod.fst)))
  let d := ((List.range 12).map (fun k => b2n (bad k) * 2 ^ k)).sum
  s.reply p (if d = 0 then .ok else .poisoned) d words

def execJournalRead (fn : Fin 16) (s : State) : Host.Outcome State Fault Refusal := .next (s.packetRow fn 0x9005 State.journalPacket)

end Sys2Proof.Machine
end

