-- ==== Sys2Proof/Machine/LongOps.lean ====
section
/-! DEFINITION. How long-running operations go on and end (R42, R44, R50–R53, R199, R227, R300, R301, R391, R396, R397, R404,
R405). -/
namespace Sys2Proof.Machine

/-- DETAIL of ABORTED: the fraction done, in 1/65,536 (R37). -/
def fractionDone (done total : Nat) : Nat := if total = 0 then 0 else min 65535 (done * 65536 / total)

/-- The operation of a kind that may go on to its end: in progress and not being aborted. -/
def State.liveOp (s : State) (op : BitVec 16) (k : LrKind) : Option LrOp := (s.findOp op k).filter (fun o => !o.aborting)

def LrOp.w (o : LrOp) (i : Nat) : Word := o.params.getD i 0

/-- Members an operation keeps from parameter `k` on. -/
def LrOp.members (o : LrOp) (k : Nat) : List Nat := (o.params.drop k).map (·.toNat)

/-! ## REG_BLOCK (R44) -/

/-- The pair count of REG_BLOCK. DESIGN CHOICE: R44 gives it up to 65,535 and no width, so word 2 [15:0] is taken (log entry 45). -/
def blockCount (o : LrOp) : Nat := wordField (o.w 2) 15 0

/-- Up to `n` pairs applied; the status that ends the operation early, or MODE_FORBIDS where the mode ignored a write (R10).
DEDUCED: such a pair counts as applied and the list goes on (log entry 22). -/
def State.blockRun : Nat → LrOp → State → Option Status × LrOp × State
  | 0, o, s => (none, o, s)
  | n + 1, o, s =>
    let (st, l, s) := s.pairRead (addr40 (o.w 0) (o.w 1) / 8 * 8 + 8 * o.progress) 8
    if st ≠ .ok then (some (busAnswer st), o, s)
    else if l.any Prod.snd then (some .poisoned, o, s)
    else
      let ws := bytesToWords 2 (l.map Prod.fst)
      let off := offAt (ws.headD 0) 0
      let barred := !s.modeTakes o.cls off && !(s.writeTargets o.cls o.sel off).isEmpty
      let s := s.csrWrite 8 o.cls o.sel off (ws.getD 1 0)
      let (st, o, s) := State.blockRun n { o with progress := o.progress + 1 } s
      (if barred && st.isNone then some .modeForbids else st, o, s)

/-- DETAIL of an event by its status: the mode code of MODE_FORBIDS, else 0. -/
def State.modeDetail (s : State) (st : Status) : Nat := if st = .modeForbids then s.modes.mode.code else 0

def execRegBlockDone (op : BitVec 16) (s : State) : Host.Outcome State Fault Refusal :=
  match s.liveOp op .regBlock with
  | none => .next s
  | some o =>
    let (e, o, s) := State.blockRun (blockCount o) o s
    .next (s.endOp o (e.getD .ok) (s.modeDetail (e.getD .ok)) [w32 o.progress])

/-! ## MEM_COPY (R44) -/

def copyLength (o : LrOp) : Nat := (o.w 4).toNat / 16 * 16

/-- Up to `n` steps of 4 KB copied, poison with the data; the error and DETAIL that end the copy early. -/
def State.copyRun : Nat → LrOp → State → Option (Status × Nat) × LrOp × State
  | 0, o, s => (none, o, s)
  | n + 1, o, s =>
    let k := min 4096 (copyLength o - o.progress)
    if k = 0 then (none, o, s)
    else
      let src := addr40 (o.w 0) (o.w 1) / 16 * 16 + o.progress
      let dst := addr40 (o.w 2) (o.w 3) / 16 * 16 + o.progress
      let (st, l, s) := s.pairRead src k
      if st ≠ .ok then (some (busAnswer st, s.busDetail st src 0 0), o, s)
      else
        let (st, s) := s.reqWrite 8 63 0 dst l
        if st ≠ .ok then (some (busAnswer st, s.busDetail st dst 2 0), o, s)
        else State.copyRun n { o with progress := o.progress + k } s

def execMemCopyDone (op : BitVec 16) (s : State) : Host.Outcome State Fault Refusal :=
  match s.liveOp op .memCopy with
  | none => .next s
  | some o =>
    let (e, o, s) := State.copyRun (copyLength o / 4096 + 1) o s
    let (st, d) := e.getD (.ok, 0)
    .next (s.endOp o st d [w32 o.progress])

/-! ## Fences (R396, R397) -/

/-- FENCE_UNIT_DONE: every unit named is fenced to the end of its sequence. -/
def execFenceUnitDone (op : BitVec 16) (s : State) : Host.Outcome State Fault Refusal :=
  match s.findOp op .fenceUnit with
  | none => .next s
  | some o =>
    let done (i : Nat) : Bool := match s.fenceOf o.cls i with
      | some f => f.phase != .waiting && f.phase != .draining && f.phase != .drained
      | none => true
    if (o.members 0).all done then .next (s.endOp o .ok 0 []) else .next s

/-- Whether an unfenced unit's fence may lift: refilled, its port open again. -/
def State.mayLift (s : State) (f : Fence) : Bool :=
  f.phase == .refilled && (match unitDest f.cls f.inst with
    | some d => (s.fencersOf d).isEmpty && !(s.port d).fenced && !(s.port d).drained
    | none => true)

/-- UNFENCE_UNIT_DONE: the units whose way is clear lose their fences; the event follows the last, UNIT_FAULT where a fault met a
power-up and the unit is off again (R397). -/
def execUnfenceUnitDone (op : BitVec 16) (s : State) : Host.Outcome State Fault Refusal :=
  match s.findOp op .unfenceUnit with
  | none => .next s
  | some o =>
    let step (acc : State × Bool × Bool) (i : Nat) : State × Bool × Bool :=
      let (s, left, fault) := acc
      match s.fenceOf o.cls i with
      | none => acc
      | some f =>
        if s.mayLift f then (s.liftFence o.cls i, left, fault)
        else if f.faultMet && f.phase == .done then (s.setFence { f with faultMet := false }, left, true)
        else if f.phase == .done && !f.unfenceWaits then (s, left, true)
        else (s, true, fault)
    let (s, left, fault) := (o.members 0).foldl step (s, false, false)
    if left then .next s else .next (s.endOp o (if fault then .unitFault else .ok) 0 [])

/-! ## Meters (R199) -/

/-- METER_CALIBRATE_DONE: the constants wait for the next step to open; a failure is a meter fault. -/
def execMeterCalibrateDone (op : BitVec 16) (ok : Bool) (constants : List (BitVec 16 × BitVec 16)) (s : State) :
    Host.Outcome State Fault Refusal :=
  match s.findOp op .meterCal with
  | none => .next s
  | some o =>
    let l := o.members 0
    let s := l.foldl (fun s p => s.setFld Reg.METER.STATUS_CALIBRATING p 0) s
    if ok then
      let s := (l.zip constants).foldl (fun s x =>
        let s := s.setMeter x.1 { s.meter x.1 with newCal := some x.2, stuck := 0 }
        ((s.setFld Reg.METER.STATUS_CAL_DONE x.1 1).setFld Reg.METER.STATUS_FAULT x.1 0).post 0x29 x.1 0x002 0 x.2.1.toNat) s
      let c := constants.headD (0, 0)
      .next (s.endOp o .ok 0 [w32 c.1.toNat, w32 c.2.toNat])
    else .next ((l.foldl (fun s p => s.meterFault p 3) s).endOp o .unitFault 0 [])

/-! ## VAULT_EXPORT (R227) -/

def exportRegion (o : LrOp) : Nat := wordField (o.w 0) 3 0

/-- Leaves still to be copied, in ring order, as (offset, place, leaf); the progress of the operation counts leaves copied, its seventh
parameter the offset that follows the last. -/
def State.exportLeft (s : State) (o : LrOp) : List (Nat × Nat × RingLeaf) :=
  let r := exportRegion o
  let start := s.fld (Reg.VAULT.RGN_START_START r) 0
  let len := max 1 s.vault.len
  let from_ := if o.params.length ≤ 6 then wordField (o.w 1) 25 0 else (o.w 6).toNat
  let filter := wordField (o.w 0) 10 9
  let limit := wordField (o.w 4) 25 0
  let all := (s.heldBy r).map (fun x => ((x.1 + len - start) % len, x.1, x.2))
  let all := all.filter (fun x => decide (from_ ≤ x.1) &&
    (if filter = 1 then decide (128 ≤ x.2.2.src) else if filter = 2 then decide (x.2.2.src < 128) else true))
  if limit = 0 then all else all.take (limit - o.progress)

/-- One leaf copied to its place at the destination; whether both accesses completed. -/
def State.exportLeaf (s : State) (o : LrOp) (x : Nat × Nat × RingLeaf) : Bool × LrOp × State :=
  let ni := 56 + x.2.2.seq % 2
  let (st, l, s) := s.unitGet 0x30 0 ni 0 (s.vault.base + 4096 * x.2.1) 4096
  let a := ((o.w 2).toNat + 2 ^ 32 * (o.w 3).toNat) / 16 * 16 + 4096 * o.progress
  let o' := { o with progress := o.progress + 1, params := o.params.take 6 ++ [w32 (x.1 + 1)] }
  if st ≠ .ok then (false, o, s)
  else if wordField (o.w 5) 0 0 = 1 then
    let (st, s) := s.busPut ni 0 (a % 2 ^ 40) l
    if st = .ok then (true, o', s) else (false, o, s)
  else if s.hostUp o.fn then
    (true, o', s.hostWrite a l)
  else (false, o, s)

/-- Up to `n` leaves copied; whether an access failed. -/
def State.exportRun (s : State) (o : LrOp) (n : Nat) : Bool × LrOp × State :=
  ((s.exportLeft o).take n).foldl (fun acc x =>
    if acc.1 then acc
    else
      let (ok, o, s) := acc.2.2.exportLeaf acc.2.1 x
      (!ok, o, s)) (false, o, s)

/-- The export's event, journal entry and release (R226, R227). -/
def State.endExport (s : State) (o : LrOp) (st : Status) (detail : Nat) : State :=
  let r := exportRegion o
  let code := match st with
    | .ok => 0
    | .aborted => 1
    | _ => 2
  let next := if o.params.length ≤ 6 then w32 (wordField (o.w 1) 25 0) else o.w 6
  let s := ((s.setFld (Reg.VAULT.RGN_EXPORTING r) 0 0).setFld Reg.VAULT.STATUS_EXPORTING 0 0).post 0x30 0 0x006 0 (r + code * 2 ^ 4)
  let s := s.endOp o st detail [w32 o.progress, next]
  if s.vault.relWait.contains r ∨ (wordField (o.w 0) 8 8 = 1 ∧ st = .ok) then s.freeRgn r else s

/-- EXPORT_DONE: every leaf written is copied; the region's window must have closed, or the leaf limit be reached. -/
def execExportDone (op : BitVec 16) (s : State) : Host.Outcome State Fault Refusal :=
  match s.liveOp op .vaultExport with
  | none => .next s
  | some o =>
    let r := exportRegion o
    let left := s.exportLeft o
    let limit := wordField (o.w 4) 25 0
    let full := decide (0 < limit) && decide (limit ≤ o.progress + left.length)
    if (s.rgnState r = 1 ∧ !full) ∨ left.any (fun x => !x.2.2.written) then .next s
    else
      let (bad, o, s) := s.exportRun o left.length
      .next (s.endExport o (if bad then .unitFault else .ok) 0)

/-! ## Bulk memory (R300, R301) -/

/-- PAGE_RETIRE_DONE: the page moved in every channel named; the index of the last. -/
def execPageRetireDone (op : BitVec 16) (s : State) : Host.Outcome State Fault Refusal :=
  match s.findOp op .pageRetire with
  | none => .next s
  | some o =>
    let page := addr40 (o.w 0) (o.w 1) / 4096
    let (st, n, s) := (o.members 2).foldl (fun acc c =>
      match acc.2.2.retirePage c page with
      | some (k, s) => (acc.1, k, s.spallRetired c page)
      | none => (Status.unitFault, allOnes32, acc.2.2)) (Status.ok, 0, s)
    .next (s.endOp o st 0 [w32 (if st = .ok then n else allOnes32)])

/-- EVACUATE_PAGE_MOVE. -/
def execEvacuatePageMove (op : BitVec 16) (s : State) : Host.Outcome State Fault Refusal :=
  match s.liveOp op .evacuate with
  | none => .next s
  | some o =>
    if s.memSys.ilvOld.isSome ∧ 4096 ≤ s.memSys.migPtr then .next (s.movePage.setOp { o with progress := o.progress + 1 })
    else .next s

/-- A channel's evacuation ends: its retirement entries go, EVACUATED is set, the staging area is empty. -/
def State.evacuatedCh (s : State) (c : Nat) : State :=
  let s := { s with memSys := { s.memSys with
    retired := s.memSys.retired.filter (fun x => x.1 / 256 != c), ilvOld := none, evacCh := none } }
  let s := ((s.setFld Reg.BULK.STATUS_EVACUATED c 1).setFld Reg.BULK.STATUS_RETIRED c 0).setFld Reg.BULK.ILV_SPLIT 0 0
  s.setImages { s.images with stage := .empty }

/-- EVACUATED: MIG_PTR has reached the base; a group goes on with its next channel. -/
def execEvacuated (op : BitVec 16) (s : State) : Host.Outcome State Fault Refusal :=
  match s.liveOp op .evacuate with
  | none => .next s
  | some o =>
    if s.memSys.migPtr < 4096 ∨ s.memSys.ilvOld.isNone then
      match o.members 0 with
      | [] => .next (s.endOp o .ok 0 [w32 o.progress])
      | c :: r =>
        let s := s.evacuatedCh c
        match r with
        | [] => .next (s.endOp o .ok 0 [w32 o.progress])
        | d :: _ => .next ((s.setOp { o with params := memberWords r }).startEvacuation d)
    else .next s

/-! ## Images (R51, R52, R62) -/

/-- Bytes staged: at most the 16 MB of the area. -/
def stageLength (o : LrOp) : Nat := min 0x1000000 (o.w 4).toNat

/-- IMAGE_STAGE_DONE: the image stands in the staging area. A host source that cannot be reached, or an area that cannot be written,
is a UNIT_FAULT. The two result words are open (R44 names none). -/
def execImageStageDone (op : BitVec 16) (s : State) : Host.Outcome State Fault Refusal :=
  match s.liveOp op .imageStage with
  | none => .next s
  | some o =>
    let n := stageLength o
    let src := (o.w 1).toNat % 4
    let (st, bytes, s) := if src = 1 ∨ src = 2 then
        (BusStatus.ok, clean ((s.spiSlot (src - 1)).take n ++ List.replicate (n - (s.spiSlot (src - 1)).length) 0xFF), s)
      else if !s.hostUp o.fn then (BusStatus.targetError, [], s)
      else s.hostRead ((o.w 2).toNat + 2 ^ 32 * (o.w 3).toNat) n
    let (st, s) := if st = .ok then s.busPut 63 0 s.stagingArea bytes else (st, s)
    let (x, s) := s.takeFree 64
    if st = .ok then
      .next ((s.setImages { s.images with stage := .staged, length := n }).endOp o .ok 0 [loWord x, hiWord x])
    else .next ((s.setImages { s.images with stage := .empty }).endOp o .unitFault 0 [loWord x, hiWord x])

/-- IMAGE_VERIFY_DONE: the checks of R62 on the staged image. The result word of OK is open. -/
def execImageVerifyDone (op : BitVec 16) (s : State) : Host.Outcome State Fault Refusal :=
  match s.findOp op .imageVerify with
  | none => .next s
  | some o =>
    if s.images.stage = .staged ∨ s.images.stage = .verified then
      let (l, s) := s.bytesAt s.stagingArea s.images.length
      let r := imageResult s.images.type l
      if r = 1 then
        let (x, s) := s.takeFree 32
        .next ((s.setImages { s.images with stage := .verified }).endOp o .ok 0 [w32 x])
      else .next ((s.setImages { s.images with stage := .staged }).endOp o .imageRejected (rejectDetail r) [])
    else .next (s.endOp o .imageRejected 4 [])

/-- A pair loaded with the image the other pair runs (R52, R53). -/
def State.reloadPair (s : State) (p : Nat) : State :=
  (s.setFld Reg.DVORYS.PAIR_STATUS_VERSION p (s.fld Reg.DVORYS.PAIR_STATUS_VERSION (1 - p))).setFld Reg.DVORYS.PAIR_STATUS_IMAGE_SLOT p
    (s.fld Reg.DVORYS.PAIR_STATUS_IMAGE_SLOT (1 - p))

/-- DVORYS_SWITCH (R52): with a verified image whose self-test passes the roles are exchanged; else the standby pair is reloaded with
the running image. DESIGN CHOICE: an image run from the staging area stands in no SPI slot, and IMAGE_SLOT stays as it was (log
entry 29). -/
def execDvorysSwitch (op : BitVec 16) (pass : Bool) (micros : Word) (s : State) : Host.Outcome State Fault Refusal :=
  match (s.findOp op .imageActivate).filter (fun o => o.cls == 0x70) with
  | none => .next s
  | some o =>
    let old := s.activePair
    let new := 1 - old
    let (ty, _, ver) := s.verifiedImage
    if pass ∧ ty = 0 ∧ s.fld Reg.DVORYS.PAIR_STATUS_ROLE new = 3 then
      let s := ((s.setFld Reg.DVORYS.PAIR_STATUS_ROLE new 2).setFld Reg.DVORYS.PAIR_STATUS_ROLE old 1).setFld
        Reg.DVORYS.PAIR_STATUS_VERSION new ver
      .next ((s.satFld Reg.DVORYS.SWITCH_COUNT_COUNT new 1).endOp o .ok 0 [w32 (ver * 256), micros])
    else
      let s := if s.fld Reg.DVORYS.PAIR_STATUS_ROLE new = 3 then (s.reloadPair new).setFld Reg.DVORYS.PAIR_STATUS_ROLE new 1 else s
      .next (s.endOp o .unitFault 0 [0, 0])

/-- IMAGE_FLASH_WRITE_DONE (R51): the staged image stands in the SPI slot, which may become the boot slot. The result word is
open. -/
def execImageFlashWriteDone (op : BitVec 16) (s : State) : Host.Outcome State Fault Refusal :=
  match s.findOp op .flashWrite with
  | none => .next s
  | some o =>
    let (x, s) := s.takeFree 32
    if s.images.stage = .staged ∨ s.images.stage = .verified then
      let k := wordField (o.w 1) 0 0
      let (l, s) := s.bytesAt s.stagingArea s.images.length
      let s := { s with dvorys := { s.dvorys with spi := tset [] s.dvorys.spi k l } }
      let s := if wordField (o.w 1) 1 1 = 1 then s.setImages { s.images with bootSlot := k } else s
      .next (s.endOp o .ok 0 [w32 x])
    else .next (s.endOp o .unitFault 0 [w32 x])

/-! ## The collector (R404, R405) -/

/-- Entries of the list as (class, selector, mask); an entry that cannot be read names nothing. -/
def State.collectList (s : State) (c : Collect) : List (Nat × Nat × Nat) × State :=
  (List.range c.count).foldl (fun acc k =>
    let (_, l, s) := acc.2.unitGet 0x78 0 63 0 (c.list + 8 * k) 8
    let w := if l.any Prod.snd then (0 : Word) else w32 (leNat ((l.take 4).map Prod.fst))
    (acc.1 ++ [(wordField w 7 0, wordField w 17 8, wordField w 25 18)], s)) (([] : List (Nat × Nat × Nat)), s)

/-- The reads of a sweep: (class, selector, counter), in order. -/
def sweepReads (l : List (Nat × Nat × Nat)) : List (Nat × Nat × Nat) :=
  l.flatMap (fun e => ((List.range 8).filter (bitOf e.2.2)).map (fun k => (e.1, e.2.1, k)))

/-- A counter record. -/
def State.counterRecord (s : State) (e : Nat × Nat × Nat) : List Word :=
  let (n, ovf, off) := match s.readTarget e.1 e.2.1 0x3C0 with
    | some i => s.readCounter e.1 i e.2.2
    | none => (0, false, true)
  let t := s.time.tcnt.toNat
  [loWord n, w32 (n / 2 ^ 32 + 2 ^ 16 * b2n ovf + 2 ^ 17 * e.2.2 + 2 ^ 20 * b2n off), loWord t,
    w32 (e.1 + e.2.1 * 2 ^ 8 + 2 ^ 18 * (t / 2 ^ 32 % 2 ^ 14))]

/-- A cross-stamp record. -/
def State.crossRecord (s : State) (sweep : Nat) : List Word :=
  let d := s.devclk.toNat
  let t := s.time.tcnt.toNat
  [loWord d, w32 (d / 2 ^ 32 % 2 ^ 16 + 2 ^ 30), loWord t, w32 (sweep % 2 ^ 18 + 2 ^ 18 * (t / 2 ^ 32 % 2 ^ 14))]

/-- One record written and sent to the trace port; none after a write that failed. -/
def State.putRecord (s : State) (c : Collect) (a : Nat) (ws : List Word) : Collect × State :=
  if c.failed then (c, s)
  else
    let (st, s) := s.busPut 63 0 a (clean (wordsToBytes ws))
    if st = .ok then
      let s := s.addFld Reg.COLLECT.RECORDS_COUNT 0 1
      let s := if s.traceOn 1 then s.tracePush 2 (halves ws) else s
      ({ c with written := c.written + 1 }, s)
    else ({ c with failed := true }, s)

/-- A sweep up to `n` counter reads. -/
def State.sweep (s : State) (c : Collect) (n : Nat) : Collect × State :=
  let (l, s) := s.collectList c
  let reads := sweepReads l
  let base := c.out + c.sweep % 2 * (16 * (1 + reads.length))
  let (c, s) := s.putRecord c base (s.crossRecord c.sweep)
  ((reads.take n).mapIdx (fun k e => (k, e))).foldl (fun acc x =>
    acc.2.putRecord acc.1 (base + 16 * (x.1 + 1)) (acc.2.counterRecord x.2)) (c, s)

def State.setCollect (s : State) (c : Option Collect) : State := { s with observe := { s.observe with collect := c } }

/-- Whether a sweep is due: the first at once, the others every PERIOD µs of TCNT from it (R405); a TIME cycle is 100/24,576 µs. -/
def State.sweepDue (s : State) (c : Collect) : Bool :=
  c.sweep == 0 || decide (c.sweep * c.period * 24576 ≤ 100 * (s.time.tcnt.toNat - c.since))

/-- COLLECT_SWEEP: a sweep due runs; `late` says that its predecessor ended after it was due (R405, R408). -/
def execCollectSweep (late : Bool) (s : State) : Host.Outcome State Fault Refusal :=
  match s.observe.collect with
  | none => .next s
  | some c =>
    if c.failed ∨ !s.sweepDue c ∨ (c.period = 0 ∧ 0 < c.sweep) ∨ s.dvorys.ops.any (fun o => o.kind == .collect && o.aborting) then .next s
    else
      let s := if late ∧ 0 < c.sweep then (s.addFld Reg.COLLECT.LATE_SWEEPS_COUNT 0 1).post 0x78 0 0x001 1 c.sweep else s
      let c := if c.sweep = 0 then { c with since := s.time.tcnt.toNat } else c
      let (c, s) := s.sweep c (8 * c.count)
      .next (s.setCollect (some { c with sweep := c.sweep + 1 }))

/-- The collector stops with its event. -/
def State.endCollect (s : State) (o : LrOp) (c : Collect) (st : Status) (detail : Nat) : State :=
  ((s.setCollect none).setFld Reg.COLLECT.STATUS_RUNNING 0 0).endOp o st detail [w32 c.written]

/-- COLLECT_DONE: after the one sweep of PERIOD 0, or a record that could not be written. -/
def execCollectDone (op : BitVec 16) (s : State) : Host.Outcome State Fault Refusal :=
  match s.liveOp op .collect, s.observe.collect with
  | some o, some c =>
    if c.failed then .next (s.endCollect o c .unitFault 0)
    else if c.period = 0 ∧ 0 < c.sweep then .next (s.endCollect o c .ok 0)
    else .next s
  | _, _ => .next s

/-! ## ABORT (R50) -/

/-- LR_SAFE_POINT_STOP: an operation being aborted goes on by `units` (pairs, 4 KB, leaves, pages, counter reads) to its safe point
and ends with ABORTED. -/
def execLrSafePointStop (op : BitVec 16) (units : Nat) (s : State) : Host.Outcome State Fault Refusal :=
  match s.dvorys.ops.find? (fun o => o.opId == op && o.aborting) with
  | none => .next s
  | some o =>
    match o.kind with
    | .regBlock =>
      let (e, o', s) := State.blockRun (min units (blockCount o - o.progress)) o s
      let e := e.filter (· != .modeForbids)
      .next (s.endOp o' (e.getD .aborted) (if e.isSome then 0 else fractionDone o'.progress (blockCount o)) [w32 o'.progress])
    | .memCopy =>
      let (e, o', s) := State.copyRun units o s
      let (st, d) := e.getD (.aborted, fractionDone o'.progress (copyLength o))
      .next (s.endOp o' st d [w32 o'.progress])
    | .vaultExport =>
      let ready := (s.exportLeft o).takeWhile (fun x => x.2.2.written)
      let n := min units ready.length
      let (bad, o', s) := s.exportRun o n
      .next (s.endExport o' (if bad then .unitFault else .aborted) (if bad then 0 else fractionDone o'.progress (o'.progress + (s.exportLeft o').length)))
    | .evacuate =>
      let n := min units (s.memSys.migPtr / 4096)
      let s := (List.range n).foldl (fun s _ => if s.memSys.ilvOld.isSome then s.movePage else s) s
      let k := o.progress + n
      .next (s.endOp o .aborted (fractionDone k (k + s.memSys.migPtr / 4096)) [w32 k])
    | .imageStage =>
      let (x, s) := s.takeFree 64
      .next ((s.setImages { s.images with stage := .empty }).endOp o .aborted (fractionDone units (stageLength o)) [loWord x, hiWord x])
    | .collect =>
      match s.observe.collect with
      | some c =>
        let (l, _) := s.collectList c
        let total := (sweepReads l).length
        let (c, s) := if units = 0 then (c, s) else s.sweep c units
        .next (s.endCollect o c .aborted (if c.period = 0 then fractionDone (min units total) total else 0))
      | none => .next (s.endOp o .aborted 0 [0])
    | .modeSet | .commitNotify | .fenceUnit | .unfenceUnit | .meterCal | .pageRetire | .quadSwitch | .laneRecal
    | .imageVerify | .imageActivate | .flashWrite => .next s

/-! ## Pair mismatch (R53, R391, R394) -/

/-- Opcodes that `State.configWrites` gives the writes of. -/
def configOps : List Nat :=
  [0x1003, 0x2001, 0x2004, 0x3001, 0x3003, 0x4001, 0x4002, 0x4005, 0x4006, 0x5002, 0x5003, 0x5004, 0x5005, 0x5006, 0x6007, 0x7002,
    0x7005, 0x7006, 0x7007, 0x7008, 0x9001, 0x9004]

/-- The register writes of a packet to one member, in order, each with the number of parameter words it carries. DEDUCED: an offset,
address or counter number only says where a write goes and is not counted, KEYSTONE_SET and PROTECT_SET carry both their words in one
write, REG_MODIFY its mask and value (log entry 44). -/
def State.packetSteps (s : State) (p : Packet) (i : Nat) : List (Nat × Nat × Word) :=
  let op := p.op
  if configOps.contains op then (s.configWrites p).map (fun x => (if op = 0x3003 ∨ op = 0x7008 then 2 else 1, x))
  else if op = 0x1004 then
    let off := offAt (p.w 0) 0
    let w := (s.csrRead 8 p.cls i off).1
    [(2, off, (w &&& ~~~(p.w 1)) ||| (p.w 2 &&& p.w 1))]
  else if op = 0x1006 then [(1, 0x060, 1)]
  else if op = 0x3004 then [(1, 0x30C, p.w 0)]
  else if op = 0x6004 then [(1, 0x00C, p.w 0)]
  else if op = 0x7001 then [(1, 0x000, p.w 0)]
  else []

/-- The writes, of those listed, that the first `n` parameter words make; how many words they carry. -/
def grantedSteps : List (Nat × Nat × Word) → Nat → List (Nat × Word) × Nat
  | [], _ => ([], 0)
  | (k, x) :: r, n =>
    if k ≤ n then
      let (l, m) := grantedSteps r (n - k)
      (x :: l, k + m)
    else ([], 0)

/-- One member's writes up to a mismatch, after `n` parameter words; how many words they carry. -/
def State.partMember (s : State) (p : Packet) (n i : Nat) : Nat × State :=
  let (l, k) := grantedSteps (s.packetSteps p i) n
  (k, l.foldl (fun s x => s.dvWrite p i x.1 x.2) s)

/-- The writes of a packet up to a mismatch (R53): on one instance those of its first `n` parameter words; on a group the whole
sequence of every member before `m`, and that part of member `m`. MEM_WRITE stores its first `n` data words; DATA_RING_SET writes
BASE_LO, BASE_HI and, of its last three words, the ring's configuration. DIAG_WINDOW's word is written whole. -/
def State.partWrites (s : State) (p : Packet) (n m : Nat) : Nat × List Word × State :=
  if p.op = 0x6002 then
    let k := min n (p.pw - 2)
    (k, [], (s.putWords (lines (addr40 (p.w 0) (p.w 1) / 4 * 4) 4 (clean (wordsToBytes ((p.params.drop 2).take k)))) 0).2.2)
  else if p.op = 0x6008 then
    let r := wordField (p.w 0) 5 0
    let o := 0x200 + 0x10 * (r % 16)
    let t := if 1 ≤ n then s.csrWrite 8 0x40 (r / 16) o (p.w 1) else s
    let t := if 2 ≤ n then t.csrWrite 8 0x40 (r / 16) (o + 4) (p.w 2) else t
    if 5 ≤ n then (5, [], (s.ringWrites p).ringReset r) else (min n 2, [], t)
  else if p.op = 0x0007 then
    if 1 ≤ n then (1, [], s.setDiag (wordField (p.w 0) 0 0)) else (0, [], s)
  else if p.sel < 0x200 then
    let (k, s) := s.partMember p n p.sel
    (k, [], s)
  else
    let l := s.members p
    let before := l.filter (fun i => decide (i < m))
    let s := before.foldl (fun s i => (s.partMember p allOnes32 i).2) s
    let s := if l.contains m then (s.partMember p n m).2 else s
    (before.length, [w32 m], s)

/-- The packet in execution at a mismatch: completed with UNIT_FAULT, the writes granted so far standing. -/
def State.cutPacket (s : State) (n m : Nat) : State :=
  match s.nextRing with
  | none => s
  | some fn =>
    let (p, t) := s.packetAt fn
    if p.op = 0x3002 ∧ !s.postRoom p.sel then s
    else
      let t := t.takeSlots fn (packetSlots p.pw)
      match t.refusal p with
      | some (st, d) => t.reply p st d []
      | none =>
        let (k, r, t) := t.partWrites p n m
        t.reply p .unitFault k r

/-- PAIR_MISMATCH: the active pair fails and is fenced (R391); `executing` says that a packet was in execution, `words` of it
granted, on a group for `member`. The standby pair takes over at once; with none in standby the pair is reset and
reloaded, and rings wait (R394). -/
def execPairMismatch (executing : Bool) (words : Nat) (member : BitVec 10) (s : State) : Host.Outcome State Fault Refusal :=
  let a := s.activePair
  let b := 1 - a
  if s.fld Reg.DVORYS.PAIR_STATUS_ROLE a ≠ 2 then .next s
  else
    let s := s.satFld Reg.DVORYS.MISMATCH_COUNT_COUNT a 1
    let spare := decide (s.fld Reg.DVORYS.PAIR_STATUS_ROLE b = 1)
    let s := s.reportFault 10 0x70 a (!spare)
    let s := if executing then s.cutPacket words member.toNat else s
    let s := s.setFld Reg.DVORYS.PAIR_STATUS_ROLE a 0
    if spare then
      let s := (s.setFld Reg.DVORYS.PAIR_STATUS_ROLE b 2).satFld Reg.DVORYS.SWITCH_COUNT_COUNT b 1
      let s := if s.faults.held then s else (s.addFence 0x70 a .auto .done).askMending 5
      .next (s.endRecovery 10 0x70 a)
    else .next s

/-- PAIR_RELOAD_DONE (R53, R391): the failed pair, reloaded with the running image, has its self-test; on a pass it returns as standby
and its fence lifts, or, where no pair is active, it serves again. -/
def execPairReloadDone (pass : Bool) (s : State) : Host.Outcome State Fault Refusal :=
  match (List.range 2).find? (fun p => s.fld Reg.DVORYS.PAIR_STATUS_ROLE p == 0) with
  | none => .next s
  | some p =>
    if !pass ∨ !s.bit Reg.SYS.RAISE_STATUS_DVORYS_UP 0 then .next s
    else
      let none_ := s.fld Reg.DVORYS.PAIR_STATUS_ROLE (1 - p) ≠ 2
      let s := if none_ then s else s.reloadPair p
      let s := s.setFld Reg.DVORYS.PAIR_STATUS_ROLE p (if none_ then 2 else 1)
      let s := if none_ then s.endRecovery 10 0x70 p else s
      .next (if (s.fenceOf 0x70 p).isSome then s.liftFence 0x70 p else s)

end Sys2Proof.Machine
end

