-- ==== Sys2Proof/Machine/Mesh.lean ====
section
/-! DEFINITION. What the target of a Mortar request does with it, and its response (R241-R243, R245, R248, R251, R261). -/
namespace Sys2Proof.Machine

/-- A target answers a request (R241, R243): read data on data VC 1, then the response, VC 0 of a read, 1 of any other. -/
def State.respond (s : State) (ni : Nat) (f : Flit) (status : Nat) (words : List (List (Byte × Bool))) : State :=
  let read := match f.load with
    | .request _ op _ _ _ => op == 0
    | _ => false
  (s.sendData ni 1 f.dest f.src f.txn words).sendFlit ni 1 (if read then 0 else 1) f.dest f.src f.txn (.response status words.length)

/-- Bytes that SIZE of WRITE_PARTIAL names (R242). -/
def partialBytes (size : Nat) : Nat := if size < 4 then 2 ^ size else 16

/-- The hub's requester behind a source ID (R21, R239): of NI 62 and the DMA engines the requester whose transaction it is. -/
def State.hubReqOf (s : State) (f : Flit) : Nat :=
  let ni := f.src / 4
  let req := ((s.mortar.txns.find? (fun t => t.ni == ni && t.port == f.src % 4 && t.txn == f.txn)).map (·.req)).getD 0
  if ni = 62 then req else if ni = 63 then 8 else 10 + (ni - 58)

/-- What a target does with a request (R242, R291): READ and WRITE of LEN whole words, WRITE_PARTIAL of SIZE bytes at ADDR[3:0] within one
word; OP 5-7 are TARGET_ERROR; bulk memory not filled is FENCED (R241). LOCKED reads, or writes where data come with it, as one access of a
locked pair does; a MESSAGE, for which the spec gives no unit an effect, is answered OK (both DESIGN CHOICE, log entry 10). -/
def State.serve (s : State) (f : Flit) (data : List (List (Byte × Bool))) : Nat × List (List (Byte × Bool)) × State :=
  match f.load with
  | .request _ op len size addr =>
    let n := if len = 0 then 32 else len
    let a := addr / 16 * 16
    let o := addr % 16
    let bytes := if op = 2 then ((data.flatten.drop o).take (partialBytes size)) else data.flatten
    let at_ := if op = 2 then addr else a
    if 5 ≤ op then (3, [], s)
    else if op = 4 then (0, [], s)
    else
      let reads := op == 0 || (op == 3 && data.isEmpty)
      let memory : Nat × List (List (Byte × Bool)) × State :=
        if reads then
          let (l, s) := s.readMem a (16 * n)
          (0, chunks 16 n l, s)
        else (0, [], s.writeMem at_ bytes)
      match s.region addr with
      | .treasury _ | .course _ => memory
      | .sett _ =>
        if 0x80000 ≤ (addr - 0x60000000) % 0x100000 ∧ !reachesAll (f.src / 4) (f.src % 4) then (3, [], s) else memory
      | .bulk c _ =>
        if s.fld Reg.SYS.RAISE_STATUS_BULK_FILLED 0 = 0 ∨ s.fld Reg.BULK.STATUS_FILLED c = 0 then (2, [], s) else memory
      | .csr =>
        if reads then
          let (l, s) := s.csrReadBytes (s.hubReqOf f) a (16 * n)
          (0, chunks 16 n l, s)
        else (0, [], s.csrWriteBytes (s.hubReqOf f) at_ bytes)
      | .host => if reads then (0, [], s) else (0, [], (s.atsFill at_).hostWrite (s.hostAddr at_) bytes)
      | .unmapped => (1, [], s)
  | _ => (3, [], s)

/-- Words of write data that a request brings. -/
def Load.brings : Load → Nat
  | .request _ op len _ _ => if op = 1 then (if len = 0 then 32 else len) else if op = 2 then 1 else 0
  | _ => 0

/-- The oldest request of a SRC and CLASS ejected at an NI, once its write data are there too unless the NI is the wrong one (R248): a
target takes the requests of a pair in the order they came. LOCKED and MESSAGE requests bring the data that stand there. -/
def State.requestAt (s : State) (ni src cls : Nat) : Option (Flit × List Flit) :=
  (s.ejectedAt ni (fun f => f.plane == 0 && f.src == src && f.vc == cls)).bind (fun f =>
    let l := s.dataAt ni 0 f.src f.dest f.txn
    if f.dest / 4 = ni ∧ (wordsInOrder l).length < f.load.brings then none else some (f, l))

/-- Whether a request reads host memory, for which the endpoint sends a read to the host (R376, R377). -/
def State.readsHost (s : State) (f : Flit) : Bool := match f.load with
  | .request _ op _ _ addr => op == 0 && decide (s.region addr = .host)
  | _ => false

/-- Whether a request is for host memory that cannot be reached (R375, R376). -/
def State.hostShut (s : State) (f : Flit) : Bool := match f.load with
  | .request _ _ _ _ addr => decide (s.region addr = .host) && !s.hostUp (s.fld Reg.PCIE.CTL_HOSTWIN_FN 0)
  | _ => false

/-- A request taken at its NI (R245, R261): another NI than its own answers TARGET_ERROR; a read of host memory waits for the host. -/
def State.takeRequest (s : State) (ni : Nat) (f : Flit) (l : List Flit) : State :=
  let s := (l ++ [f]).foldl State.takeFlit s
  if f.dest / 4 ≠ ni then (s.dropData f).respond ni f 3 []
  else if s.hostShut f then s.respond ni f 3 []
  else if s.readsHost f then
    let a := match f.load with
      | .request _ _ _ _ a => a
      | _ => 0
    let s := s.atsFill a
    { s with mortar := { s.mortar with hostWait := s.mortar.hostWait ++ [f] } }
  else
    let (st, w, s) := s.serve f (wordsInOrder l)
    s.respond ni f st w

/-- PACKET_EJECT (R245, R248, R251, R261): the oldest request of a SRC and CLASS ejects and is taken; one whose header parity is bad is
discarded and journalled, and its transaction ends by TXN_TIMEOUT. -/
def execPacketEject (ni : Fin 64) (src : BitVec 8) (cls : BitVec 2) (headerGood : Bool) (s : State) :
    Host.Outcome State Fault Refusal :=
  let s := s.meshUntil (fun s => (s.requestAt ni src.toNat cls.toNat).isSome)
  match s.requestAt ni src.toNat cls.toNat with
  | none => .next s
  | some (f, l) => .next (if headerGood then s.takeRequest ni f l else s.badHeader ni f)

end Sys2Proof.Machine
end

