-- ==== Sys2Proof/Machine/Host.lean ====
section
/-! DEFINITION. What the host does to the device: ring pages and doorbells (R31–R36), BAR accesses (R378–R380), interrupts (R381), function
resets, and the link (R374–R386). -/
namespace Sys2Proof.Machine

/-- Whether the PCIe link can train: from Raising on (R375). -/
def State.linkMode (s : State) : Bool := s.modes.mode != .footing && s.modes.mode != .bedding

/-- Whether an access of the host reaches the device: from Raising on, while the data link is active (R375). -/
def State.hostReach (s : State) : Bool := s.linkMode && s.bit Reg.PCIE.STATUS_LINK_UP 0

/-- Whether ring registers accept writes: from Raising to Mending. -/
def State.pageTakes (s : State) : Bool := s.hostReach && s.modes.mode != .banked

/-! ## Ring pages -/

/-- The SQ_TAIL doorbell (R33, R34, R67). -/
def State.sqTailWrite (s : State) (fn : Nat) (v : BitVec 12) : State :=
  if s.hostReach then s.setPage fn { s.page fn with sqTail := v } else s

/-- The CQ_HEAD doorbell (R34). -/
def State.cqHeadWrite (s : State) (fn : Nat) (v : BitVec 12) : State :=
  if s.hostReach then s.setPage fn { s.page fn with cqHead := v } else s

/-- A function's abortable operations asked to stop; with `mute` every operation of it loses its ring (R36). -/
def State.stopRingOps (s : State) (fn : Nat) (mute : Bool) : State :=
  let l := s.dvorys.ops.map (fun o =>
    if o.fn = fn ∧ !o.mute then { o with aborting := o.aborting || o.kind.abortable, mute := mute } else o)
  { s with dvorys := { s.dvorys with ops := l, heldPacket := tset false s.dvorys.heldPacket fn false } }

/-- RING_CTL written (R31, R36): ENABLE from 1 to 0 starts quiescing; the memory selections keep while ENABLE is 1. -/
def State.ringCtlWrite (s : State) (fn : Nat) (v : Word) : State :=
  let p := s.page fn
  if p.enable then
    if wordField v 0 0 = 1 then s
    else (s.setPage fn { p with enable := false, quiescing := true, stalledBp := false }).stopRingOps fn false
  else
    s.setPage fn { p with enable := wordField v 0 0 == 1, sqTreasury := wordField v 1 1 == 1, cqTreasury := wordField v 2 2 == 1,
                          quiesced := p.quiesced && wordField v 0 0 == 0 }

def execSqTailDoorbell (fn : Fin 16) (index : BitVec 12) (s : State) : Host.Outcome State Fault Refusal :=
  .next (s.sqTailWrite fn index)

def execCqHeadDoorbell (fn : Fin 16) (index : BitVec 12) (s : State) : Host.Outcome State Fault Refusal :=
  .next (s.cqHeadWrite fn index)

/-- RING_DISABLE (R36): ENABLE written 0. -/
def execRingDisable (fn : Fin 16) (s : State) : Host.Outcome State Fault Refusal :=
  .next (if s.pageTakes && (s.page fn).enable then s.ringCtlWrite fn 0 else s)

/-- QUIESCED (R36 steps 4 and 5): nothing is owed any more; indices and doorbells return to 0, the next pass of the CQ has PHASE 1. It
also ends a function-level reset under way. -/
def execQuiesced (fn : Fin 16) (s : State) : Host.Outcome State Fault Refusal :=
  if s.bit Reg.PCIE_FN.STATUS_FLR_BUSY fn then .next (s.setFld Reg.PCIE_FN.STATUS_FLR_BUSY fn 0)
  else
    let p := s.page fn
    if p.quiescing ∧ s.eventsOwed fn = 0 then
      .next (s.setPage fn { p with
        quiescing := false, quiesced := !p.enable, sqHead := 0, cqTail := 0, sqTail := 0, cqHead := 0, phase := true })
    else .next s

/-- The physical vectors a function owns. -/
def State.fnVectors (s : State) (fn : Nat) : List Nat :=
  (List.range (msixCount (s.msixAlloc fn).2)).map (s.physVector fn)

def State.vec (s : State) (p : Nat) : MsixVec := tget MsixVec.reset s.pcie.vecs p

def State.setVec (s : State) (p : Nat) (v : MsixVec) : State :=
  { s with pcie := { s.pcie with vecs := tset MsixVec.reset s.pcie.vecs p v } }

/-- A function reset (R36, R381): its ring page, owed events, vectors and configuration go; the vector allocation last written takes
effect. -/
def State.resetFn (s : State) (fn : Nat) : State :=
  let s := (s.stopRingOps fn true).setPage fn RingPage.reset
  let s := (s.fnVectors fn).foldl (fun s p => s.setVec p MsixVec.reset) s
  let s := { s with pcie := { s.pcie with alloc := tdel s.pcie.alloc fn, devCtl2 := tdel s.pcie.devCtl2 fn } }
  (s.setFld Reg.PCIE_FN.STATUS_BME fn 0).setFld Reg.PCIE_FN.STATUS_MSIX_EN fn 0

/-- FLR (R36, R375, R381): the function reset; FLR_BUSY until QUIESCED. -/
def execFlr (fn : Fin 16) (s : State) : Host.Outcome State Fault Refusal :=
  if s.hostReach then .next (((s.resetFn fn).setFld Reg.PCIE_FN.STATUS_FLR_BUSY fn 1).post 0x68 0 0x004 0 fn) else .next s

/-- IRQ_COAL_TIMER (R35): COAL_TIME µs after the first unsignalled completion. -/
def execIrqCoalTimer (fn : Fin 16) (s : State) : Host.Outcome State Fault Refusal :=
  let p := s.page fn
  if p.irqEn ∧ p.coalTime ≠ 0 ∧ 0 < p.unsignalled ∧ p.coalSince + 100 * p.coalTime.toNat ≤ s.devclk.toNat then
    .next ((s.setPage fn { p with unsignalled := 0 }).raise fn p.vector.toNat)
  else .next s

/-- A half of a 64-bit register written. -/
def putHalf (x : BitVec 64) (hi : Bool) (v : Word) : BitVec 64 :=
  BitVec.ofNat 64 (if hi then x.toNat % 2 ^ 32 + 2 ^ 32 * v.toNat else 2 ^ 32 * (x.toNat / 2 ^ 32) + v.toNat)

/-- An MSI-X table entry's word written; entries at or above the function's count ignore it (R381). -/
def State.msixTableWrite (s : State) (fn off : Nat) (v : Word) : State :=
  let n := (off - 0x8000) / 16
  if n < msixCount (s.msixAlloc fn).2 then
    let p := s.physVector fn n
    let x := s.vec p
    s.setVec p (match off / 4 % 4 with
      | 0 => { x with addr := putHalf x.addr false v }
      | 1 => { x with addr := putHalf x.addr true v }
      | 2 => { x with data := v }
      | _ => { x with masked := wordField v 0 0 == 1 })
  else s

/-- A write of a word of a function's BAR4 (R31, R275, R341, R378, R381). -/
def State.bar4Write (s : State) (fn off : Nat) (v : Word) : State :=
  let p := s.page fn
  if 0x8000 ≤ off then s.msixTableWrite fn off v
  else if off = 0x100 then s.sqTailWrite fn (BitVec.ofNat 12 v.toNat)
  else if off = 0x104 then s.cqHeadWrite fn (BitVec.ofNat 12 v.toNat)
  else if 0x200 ≤ off ∧ off < 0x300 then s.ringHead fn ((off - 0x200) / 4) (wordField v 15 0)
  else if 0x400 ≤ off ∧ off < 0x800 then s.tailBar4 fn ((off - 0x400) / 4) v
  else if 0x800 ≤ off ∧ off < 0xC00 then s.tailBar4 fn (256 + (off - 0x800) / 4) v
  else if !s.pageTakes then s
  else if off = 0x010 then s.ringCtlWrite fn v
  else if off = 0x020 then
    s.setPage fn { p with
      vector := BitVec.ofNat 11 (wordField v 10 0), irqEn := wordField v 11 11 == 1,
      coalCount := BitVec.ofNat 8 (wordField v 23 16), coalTime := BitVec.ofNat 8 (wordField v 31 24) }
  else if p.enable then s
  else if off = 0x000 ∨ off = 0x004 then s.setPage fn { p with sqBase := putHalf p.sqBase (off == 0x004) v }
  else if off = 0x008 ∨ off = 0x00C then s.setPage fn { p with cqBase := putHalf p.cqBase (off == 0x00C) v }
  else s

def execBar4RingPageWrite (fn : Fin 16) (offset : BitVec 16) (value : Word) (s : State) : Host.Outcome State Fault Refusal :=
  if s.hostReach then .next (s.bar4Write fn (offset.toNat / 4 * 4) value) else .next s

/-! ## BAR0 (R48, R379) -/

/-- A blocked access counted, saturating. -/
def State.bar0Blocked (s : State) : State :=
  (s.satFld Reg.DVORYS.BAR0_BLOCKED_COUNT 0 1).satFld Reg.DVORYS.BAR0_BLOCKED_COUNT 1 1

def State.setReply (s : State) (status : Nat) (l : List (Byte × Bool)) : State :=
  { s with pcie := { s.pcie with reply := ⟨status, l⟩ } }

/-- Where dword `k` of an access at window offset `o` lies: class, selector, offset (R17, R378). -/
def bar0At (o k : Nat) : Nat × Nat × Nat :=
  let a := (o / 4 * 4 + 4 * k) % 2 ^ 28
  (a / 2 ^ 20, a / 2 ^ 10 % 2 ^ 10, a % 2 ^ 10)

/-- BAR0_READ (R379): single CSR reads in ascending order; zeros while the window is closed. -/
def execBar0Read (offset : BitVec 28) (dwords : Nat) (s : State) : Host.Outcome State Fault Refusal :=
  if !s.hostReach then .next s
  else if s.bit Reg.DVORYS.BAR0_CTL_OPEN 0 then
    let (l, s) := (List.range dwords).foldl (fun acc k =>
      let (c, i, o) := bar0At offset.toNat k
      let (w, s) := acc.2.csrRead 9 c i o
      (acc.1 ++ leBytes 4 w.toNat, s)) (([] : List Byte), s)
    .next ((s.setReply 0 (clean l)).giveBack 9 (w32 (leNat (l.drop (4 * (dwords - 1))))))
  else .next ((s.bar0Blocked.setReply 0 (List.replicate (4 * dwords) (0, false))).giveBack 9 0)

/-- BAR0_WRITE (R379): a dword whose byte enables are not all set is ignored and counted. -/
def execBar0Write (offset : BitVec 28) (dwords : List (Word × BitVec 4)) (s : State) : Host.Outcome State Fault Refusal :=
  if !s.hostReach then .next s
  else if s.bit Reg.DVORYS.BAR0_CTL_OPEN 0 then
    .next ((List.range dwords.length).foldl (fun s k =>
      let (v, be) := dwords.getD k (0, 0)
      let (c, i, o) := bar0At offset.toNat k
      if be = 15 then s.csrWrite 9 c i o v else s.addFld Reg.PCIE.BAR0_PARTIAL_COUNT 0 1) s)
  else .next s.bar0Blocked

/-! ## BAR2 (R380, R382) -/

/-- The internal address of a BAR2 offset, through an enabled aperture. -/
def State.aperture (s : State) (x : Nat) : Option Nat :=
  let k := x / 2 ^ 32 % 16
  let lo := s.reg 0x68 0 (0x040 + 8 * k)
  if wordField lo 0 0 = 1 then
    some (2 ^ 32 * wordField (s.reg 0x68 0 (0x044 + 8 * k)) 7 0 + 2 ^ 21 * wordField lo 31 21 + x % 2 ^ 32)
  else none

/-- How a BAR2 access of `n` bytes is answered: 0 with its address, 1 Unsupported Request outside Treasury and bulk memory or
through a disabled aperture, 2 Completer Abort where Mortar answers FENCED or TARGET_ERROR. -/
def State.bar2Check (s : State) (wr : Bool) (x n : Nat) : Nat × Nat :=
  match s.aperture x with
  | none => (1, 0)
  | some a =>
    let l := (wordsOf a n).map (fun w =>
      match s.region w with
      | .treasury _ | .bulk _ _ =>
        match s.access wr (58 + w / 2 ^ 12 % 2) 0 w with
        | .ok => 0
        | .decodeError => 1
        | _ => 2
      | _ => 1)
    (if l.contains 1 then 1 else if l.contains 2 then 2 else 0, a)

/-- A BAR2 access refused: counted and reported. -/
def State.bar2Refuse (s : State) (k : Nat) : State :=
  if k = 1 then (s.addFld Reg.PCIE.UR_SENT_COUNT 0 1).aer 20 else (s.addFld Reg.PCIE.CA_SENT_COUNT 0 1).aer 15

/-- The bytes of a read as its completions carry them, cut at the 64-byte boundaries: each with EP when it holds poison; how many do. -/
def epPackets (a : Nat) : Nat → List (Byte × Bool) → List (Byte × Bool) × Nat
  | 0, _ => ([], 0)
  | n + 1, l =>
    if l.isEmpty then ([], 0)
    else
      let k := 64 - a % 64
      let h := l.take k
      let bad := h.any (·.2)
      let (r, c) := epPackets (a + k) n (l.drop k)
      (h.map (fun b => (b.1, bad)) ++ r, b2n bad + c)

def execBar2Read (offset : BitVec 36) (bytes : Nat) (s : State) : Host.Outcome State Fault Refusal :=
  if !s.hostReach then .next s
  else
    let (k, a) := s.bar2Check false offset.toNat bytes
    if k ≠ 0 then .next ((s.bar2Refuse k).setReply k [])
    else
      let (_, l, s) := s.unitGet 0x68 0 (58 + a / 2 ^ 12 % 2) 0 a bytes
      let (l, n) := epPackets a (bytes / 64 + 2) l
      let s := (List.range n).foldl (fun s _ => (s.addFld Reg.PCIE.EP_SENT_COUNT 0 1).aer 12) s
      .next (s.setReply 0 l)

/-- BAR2_WRITE: a write received with EP set is counted and stores poison (R382, R292). -/
def execBar2Write (offset : BitVec 36) (data : List Byte) (ep : Bool) (s : State) : Host.Outcome State Fault Refusal :=
  if !s.hostReach then .next s
  else
    let (k, a) := s.bar2Check true offset.toNat data.length
    if k ≠ 0 then .next (s.bar2Refuse k)
    else
      let s := if ep then (s.addFld Reg.PCIE.EP_RCVD_COUNT 0 1).aer 12 else s
      .next (s.busPut (58 + a / 2 ^ 12 % 2) 0 a (data.map (fun b => (b, ep)))).2

/-! ## Interrupts (R381) -/

/-- Whether a vector's message can be sent: unmasked, and a function that owns it has MSI-X enabled and reaches the host. -/
def State.vecSendable (s : State) (p : Nat) : Bool :=
  !(s.vec p).masked && (List.range 16).any (fun fn =>
    s.bit Reg.PCIE_FN.STATUS_MSIX_EN fn && s.hostUp fn && (s.fnVectors fn).contains p)

/-- MSIX_SEND: the message of a pending vector is a write of its data to its address. -/
def execMsixSend (vector : Fin 2048) (s : State) : Host.Outcome State Fault Refusal :=
  let x := s.vec vector
  if x.pending ∧ s.vecSendable vector then
    .next { s.setVec vector { x with pending := false } with host := mwrites s.host x.addr.toNat (leBytes 4 x.data.toNat) }
  else .next s

/-! ## Completions of the host (R382, R383) -/

/-- The Mortar request whose read went out to the host from the HOSTWIN function at a bus address. -/
def State.hostRequest (s : State) (fn a : Nat) : Option Flit :=
  if s.fld Reg.PCIE.CTL_HOSTWIN_FN 0 = fn then
    s.mortar.hostWait.find? (fun f => match f.load with
      | .request _ _ _ _ addr => s.hostAddr (addr / 16 * 16) == a
      | _ => false)
  else none

/-- It ends: its NI answers with a status and the words that came. -/
def State.hostAnswer (s : State) (f : Flit) (status : Nat) (words : List (List (Byte × Bool))) : State :=
  let s := { s with mortar := { s.mortar with hostWait := s.mortar.hostWait.erase f } }
  s.respond (f.dest / 4) f status words

/-- Every read sent out to the host ends with TARGET_ERROR: the link is gone (R375). -/
def State.hostGone (s : State) : State := s.mortar.hostWait.foldl (fun s f => s.hostAnswer f 3 []) s

/-- How the host answers reads of some bytes from now on. -/
def State.setAnswers (s : State) (a n : Nat) (x : HostAnswer) : State :=
  let l := (List.range ((a + n - 1) / 16 - a / 16 + 1)).foldl (fun t w => tset HostAnswer.data t (a / 16 + w) x) s.pcie.answers
  { s with pcie := { s.pcie with answers := l } }

/-- PCIE_READ_COMPLETION: a read sent out on Mortar ends with the data, counted and reported when it carries EP; without one it is
what the host holds for device reads of these bytes. -/
def execPcieReadCompletion (fn : Fin 16) (addr : BitVec 64) (data : List Byte) (ep : Bool) (s : State) :
    Host.Outcome State Fault Refusal :=
  match s.hostRequest fn addr.toNat with
  | some f =>
    let s := s.hostAnswer f 0 (chunks 16 32 (data.map (fun b => (b, ep))))
    .next (if ep then (s.addFld Reg.PCIE.EP_RCVD_COUNT 0 1).aer 12 else s)
  | none =>
    if data.isEmpty then .next s
    else
      .next (({ s with host := mwrites s.host addr.toNat data }).setAnswers addr.toNat data.length (if ep then .poison else .data))

/-- CPL_TIMEOUT (R383): a read ends with TARGET_ERROR, after no completion within the timeout (0), Unsupported Request (1) or
Completer Abort (2); without a read sent out on Mortar, so will device reads of the word at the address. -/
def execCplTimeout (fn : Fin 16) (addr : BitVec 64) (kind : Fin 3) (s : State) : Host.Outcome State Fault Refusal :=
  match s.hostRequest fn addr.toNat with
  | some f =>
    let s := s.hostAnswer f 3 []
    .next (if kind = 0 then (s.addFld Reg.PCIE.CPL_TIMEOUT_COUNT 0 1).aer 14 else if kind = 1 then s.aer 20 else s.aer 15)
  | none => .next (s.setAnswers addr.toNat 1 (if kind = 0 then .silent else if kind = 1 then .ur else .ca))

/-- ATS_INVALIDATION (R377): entries that meet the range go. -/
def execAtsInvalidation (page : BitVec 64) (bytes : Nat) (s : State) : Host.Outcome State Fault Refusal :=
  .next { s with pcie := { s.pcie with
    atc := s.pcie.atc.filter (fun e => !(decide (e.1 < page.toNat + bytes) && decide (page.toNat < e.1 + e.2.1))) } }

/-! ## The link (R374, R375) -/

/-- PCIE_CONFIG_WRITE (R376, R381, R383): Bus Master Enable, MSI-X Enable, the completion timeout and the ATS enable of a function. -/
def execPcieConfigWrite (fn : Fin 16) (bme msixEn : Bool) (timeout : BitVec 4) (ats : Bool) (s : State) :
    Host.Outcome State Fault Refusal :=
  if s.hostReach then
    let s := (s.setFld Reg.PCIE_FN.STATUS_BME fn (b2n bme)).setFld Reg.PCIE_FN.STATUS_MSIX_EN fn (b2n msixEn)
    .next { s with pcie := { s.pcie with devCtl2 := tset (0, false) s.pcie.devCtl2 fn (timeout.toNat, ats) } }
  else .next s

/-- PCIE_LINK_UP: training, begun with PERST_N high from Raising on, reaches L0. -/
def execPcieLinkUp (speed : BitVec 3) (width : BitVec 5) (s : State) : Host.Outcome State Fault Refusal :=
  if s.pcie.training ∧ s.pcie.perstN ∧ s.linkMode then
    let s := { s with pcie := { s.pcie with training := false } }
    let s := ((s.setFld Reg.PCIE.STATUS_LINK_UP 0 1).setFld Reg.PCIE.STATUS_SPEED 0 speed.toNat).setFld Reg.PCIE.STATUS_WIDTH 0 width.toNat
    let s := if s.modes.mode = .raising then s.setFld Reg.SYS.RAISE_STATUS_PCIE_UP 0 1 else s
    .next (s.post 0x68 0 0x002 0 (speed.toNat + width.toNat * 2 ^ 4))
  else .next s

/-- PCIE_LINK_DOWN: link loss with PERST_N high; reads sent out end, and the link trains again. -/
def execPcieLinkDown (s : State) : Host.Outcome State Fault Refusal :=
  if s.bit Reg.PCIE.STATUS_LINK_UP 0 ∧ s.pcie.perstN then
    let s := ((s.setFld Reg.PCIE.STATUS_LINK_UP 0 0).addFld Reg.PCIE.LINK_DOWNS_COUNT 0 1).hostGone
    let s := { s with pcie := { s.pcie with training := true } }
    .next ((s.post 0x68 0 0x001 3 0).reportFault 7 0x68 0)
  else .next s

/-- A class's registers at their Reset values, GRP_MEMBER excepted. -/
def State.resetClass (s : State) (cls : Nat) (insts : List Nat) : State :=
  { s with csr := s.csr.filter (fun e =>
      !(e.1 / 0x100000 == cls && insts.contains (e.1 / 0x400 % 0x400) && !isGrpOff (e.1 % 0x400))) }

/-- PERST_N_LOW (R375, R414): the PCIE domain resets and goes off; every function is reset as by FLR; the rest goes on. -/
def execPerstNLow (s : State) : Host.Outcome State Fault Refusal :=
  if s.pcie.perstN then
    let s := if s.bit Reg.PCIE.STATUS_LINK_UP 0 then s.post 0x68 0 0x001 3 0 else s
    let s := (List.range 16).foldl (fun s fn => (s.resetFn fn).post 0x68 0 0x004 0 fn) s
    let s := (s.resetClass 0x68 [0]).resetClass 0x69 (List.range 16)
    let s := { s with pcie := { s.pcie with perstN := false, training := false, alloc := [], atc := [] } }.hostGone
    .next (if s.linkMode then (s.setFld Reg.PWR.STATUS_STATE 61 0).post 0x03 61 0x001 0 61 else s)
  else .next s

/-- PERST_N_HIGH (R375): the domain comes back, and the link trains from Raising on. -/
def execPerstNHigh (s : State) : Host.Outcome State Fault Refusal :=
  if s.pcie.perstN then .next s
  else
    let s := { s with pcie := { s.pcie with perstN := true, training := s.linkMode } }
    .next (if s.linkMode then
      ((s.setFld Reg.PWR.STATUS_STATE 61 3).addFld Reg.PWR.STATUS_CYCLES 61 1).post 0x03 61 0x002 0 61 else s)

end Sys2Proof.Machine
end

