-- ==== Sys2Proof/Machine/Modes.lean ====
section
/-! DEFINITION. How a mode change ends, Banked (R54–R59, R64–R67), and the way from a reset source to Raising (R60–R63, R418). -/
namespace Sys2Proof.Machine

/-! ## Banked (R65, R66) -/

/-- Domains that Banked takes to retention voltage: all but AON, CMD and PCIE. -/
def retained (d : Nat) : Bool := d != 0 && d != 1 && d != 61

/-- Domains in state `from_` taken to `to_`. -/
def State.moveDomains (s : State) (p : Nat → Bool) (to_ : Nat) : State :=
  (List.range 78).foldl (fun s d => if retained d && p (s.domState d) then s.setFld Reg.PWR.STATUS_STATE d to_ else s) s

/-- Whether a DMA channel is in the middle of an instruction other than a wait (R280). -/
def State.dmaBusy (s : State) (c : Nat) : Bool := (s.dch c).mv.isSome || !(s.dch c).outs.isEmpty

/-- BANKED_WFI_TIMEOUT (R65 step 3): the keep cores still running are clock-gated where they stand. -/
def execBankedWfiTimeout (s : State) : Host.Outcome State Fault Refusal :=
  if (List.range 8).any (fun k => s.bankedIrq k && s.keepAwake k) then
    .next { s with modes := { s.modes with bankedGated := true } }
  else .next s

/-- Whether every stream channel has stopped at its slot start, and nothing it took before is still on its way. -/
def State.channelsStopped (s : State) : Bool :=
  s.streams.ch.all (fun e => (!s.chRuns e.1 || (e.2.waiting && e.2.bySlot)) && e.2.toFft.isEmpty && e.2.writing.isEmpty && e.2.headed.isEmpty) &&
  s.streams.fft.all (fun q => q.2.isEmpty || !s.running 0x0A q.1)

/-- Whether the Vault has written the leaves it had in hand. -/
def State.vaultStopped (s : State) : Bool := s.vault.forming.isEmpty && s.vault.formed.isEmpty && s.vault.staged.isEmpty

/-- BANKED_ENTRY (R65 steps 4 and 5): DMA channels, stream channels and the Vault have stopped; lanes go idle, the domains go to
retention voltage. -/
def execBankedEntry (s : State) : Host.Outcome State Fault Refusal :=
  if s.banking ∧ s.domState 44 ≠ 5 ∧ !(List.range 128).any s.dmaBusy ∧ s.channelsStopped ∧ s.vaultStopped then
    let s := s.setVault { s.vault with fresh := [] }
    let s := (List.range 24).foldl State.macDown s
    let s := (List.range 48).foldl (fun s l => ((s.setTxState l 0).setRxState l 0).setFld Reg.LANE.STATUS_CDR_LOCK l 0) s
    .next (s.quietPins.moveDomains (fun st => st == 3 || st == 4) 5)
  else .next s

/-- What Banked stopped goes on (R66). -/
def State.wakeUp (s : State) : State :=
  let s := s.moveDomains (· == 5) 3
  let s := { s with memSys := { s.memSys with
    scrubAt := s.memSys.scrubAt.filter (fun e => decide (40 ≤ e.1))
    scrubHeld := s.memSys.scrubHeld.filter (fun e => decide (40 ≤ e.1)) } }
  let s := (s.streams.ch.map Prod.fst).foldl (fun s c => s.setStrm c { s.strm c with waiting := true, bySlot := true, resume := s.disp.dlclk + 256 }) s
  (List.range 48).foldl State.laneUpdate s

/-- The AON buffer written with its own stamps before any other entry; what it could not hold joins the count of SYS (R30). -/
def State.writeAon (s : State) : State :=
  let l := s.journal.aon
  let n := s.journal.aonLost
  let s := { s with journal := { s.journal with aon := [], aonLost := 0 } }
  let s := if s.fld Reg.JOURNAL.CTL_ENABLE 0 = 1 then l.foldl (fun s e => s.journalWrite e.1 e.2) s
    else l.foldl (fun s e => s.countLost e.1.cls e.1.inst) s
  { s with journal := { s.journal with lost := tset 0 s.journal.lost 0 (satAdd allOnes32 (tget 0 s.journal.lost 0) n) } }

/-! ## The end of a transition (R56–R59) -/

/-- Whether every part of the transition in progress is done (R57, R65). -/
def State.transitionReady (s : State) (t : Mode) : Bool :=
  let m := s.modes.mode
  let tx := ((s.streams.ch.map Prod.fst).filter (fun c => isTx c && s.chRuns c))
  let pins := (List.range 16).map (fun p => s.bit Reg.TDD_OUT.STATUS_QUIET p)
  if s.faults.held then false
  else if t = .banked then s.domState 44 == 5
  else if m = .raising ∨ m = .banked then true
  else
    (t != .witness || m == .witness || (tx.all (fun c => (s.strm c).stopped) && pins.all id)) &&
    (m != .witness || t == .witness || (tx.all (fun c => !(s.strm c).stopped) && pins.all (!·))) &&
    s.ledger.thriftAsk.isNone

/-- The mode changes: the BAR0 window closes on the way into Service and Witness (R48); a quiet that ends starts its 64 cycles. -/
def State.enterMode (s : State) (t : Mode) : State :=
  let m := { s.modes with
    mode := t, target := none, opId := none, mendingCause := none, bankedGated := false, cause := if s.modes.requester = 1 then 2 else 3 }
  let r := { s with modes := m }
  let r := if s.quietMode && !r.quietMode then { r with time := { r.time with quietEnd := r.disp.dlclk } } else r
  if t = .service ∨ t = .witness then (r.setFld Reg.DVORYS.BAR0_CTL_OPEN 0 0).setFld Reg.DVORYS.BAR0_CTL_OPEN 1 0 else r

/-- The cause of the Mending that a transition's end leads to, if any (R59, R61, R64). -/
def State.mendingAfter (s : State) : Option Nat :=
  if s.fences.isEmpty then none
  else
    let auto := if s.fences.all (fun f => f.origin == .command) then 4 else 5
    if s.modes.mode = .raising then some auto else s.modes.mendingCause

/-- A transition into Banked abandoned by a fence (R59). -/
def State.abandonBanked (s : State) (cause : Nat) : State :=
  ((s.toMending cause).wakeUp).refuseBanked s.modes.opId

/-- MODE_TRANSITION_DONE (R56): CODE takes the target, TRANSITION clears, the request completes; Mending follows where a fence
waits for it. -/
def execModeTransitionDone (s : State) : Host.Outcome State Fault Refusal :=
  match s.modes.target with
  | none => .next s
  | some t =>
    if !s.transitionReady t then .next s
    else if t = .banked ∧ s.modes.mendingCause.isSome then .next (s.abandonBanked (s.modes.mendingCause.getD 5))
    else
      let next := s.mendingAfter
      let op := s.modes.opId
      let was := s.modes.mode
      let s := if was = .banked then s.wakeUp else s
      let s := s.enterMode t
      let s := if was = .banked then s.writeAon else s
      let s := if s.fld Reg.SYS.MODE_RESULT_RESULT 0 = 3 then s.setFld Reg.SYS.MODE_RESULT_RESULT 0 1 else s
      let s := match op.bind (fun i => s.findOp i .modeSet) with
        | some o => s.endOp o .ok 0 [w32 t.code]
        | none => s
      .next (match next with
        | some c => if t = .banked then s else s.toMending c
        | none => s)

/-! ## Reset sources (R418, R425) -/

/-- POWER_ON_RESET: DEVCLK and RESET_CAUSE reset too. -/
def execPowerOnReset (s : State) : Host.Outcome State Fault Refusal :=
  let r := (s.toFooting 0).setReg Reg.CLK.cls 0 0x00C 1
  .next { r with devclk := 0, power := { r.power with
    por := true, resetN := false, hot := false, ioLow := false, refGone := false } }

/-- RESET_N_LOW, after its filter (R419). -/
def execResetNLow (s : State) : Host.Outcome State Fault Refusal :=
  if s.power.resetN then
    let r := s.toFooting 2
    .next { r with power := { r.power with resetN := false } }
  else .next s

/-- THERMAL_RESET: Footing lasts until Tj has fallen. -/
def execThermalReset (s : State) : Host.Outcome State Fault Refusal :=
  let r := s.toFooting 8
  .next { r with power := { r.power with hot := true } }

/-- DROOP_RESET. -/
def execDroopReset (s : State) : Host.Outcome State Fault Refusal := .next (s.toFooting 16)

/-- VDD_IO18_LOW (R425): held in Footing until the next rising edge of RESET_N. -/
def execVddIo18Low (s : State) : Host.Outcome State Fault Refusal :=
  let r := s.toFooting 0
  .next { r with power := { r.power with ioLow := true } }

/-- BOOT_MODE sampled; the fuse read starts (R60). -/
def State.sampleBoot (s : State) (pins : BitVec 3) : State := { s with power := { s.power with bootPins := pins, fusing := true } }

/-- RESET_N_RISE (R60): in Footing BOOT_MODE is sampled, unless Tj still holds it. -/
def execResetNRise (pins : BitVec 3) (s : State) : Host.Outcome State Fault Refusal :=
  if s.power.resetN then .next s
  else
    let s := { s with power := { s.power with resetN := true, ioLow := false } }
    .next (if s.modes.mode = .footing ∧ !s.power.hot then s.sampleBoot pins else s)

/-- INTERNAL_FOOTING_END (R418): the end of Footing from SOFT, THERMAL or DROOP, not before 10 µs, acts as a rising edge of RESET_N. -/
def execInternalFootingEnd (pins : BitVec 3) (s : State) : Host.Outcome State Fault Refusal :=
  if s.modes.mode = .footing ∧ s.power.resetN ∧ !s.power.ioLow ∧ !s.power.fusing ∧ s.power.footAt + 1000 ≤ s.devclk.toNat then
    .next ({ s with power := { s.power with hot := false } }.sampleBoot pins)
  else .next s

/-! ## Bedding and Raising (R60–R63) -/

/-- FUSE_READ_DONE (R26, R54, R60): Bedding, with its domains on; DEVCLK is zero when the Footing of a power-on reset ends. -/
def execFuseReadDone (s : State) : Host.Outcome State Fault Refusal :=
  if s.modes.mode = .footing ∧ s.power.fusing then
    let s := { s with
      modes := { s.modes with mode := .bedding, cause := 1 }
      devclk := if s.power.por then 0 else s.devclk
      power := { s.power with fusing := false, por := false } }
    let s := { s with ledger := { s.ledger with periodFrom := s.devclk.toNat } }
    .next ((List.range 78).foldl (fun s d => if beddingDomain d then s.setFld Reg.PWR.STATUS_STATE d 3 else s) s)
  else .next s

/-- A unit BIST fences (R61): its fence stands, and its Mortar port where it has one. -/
def State.bistFence (s : State) (cls inst : Nat) : State :=
  if [0x10, 0x18, 0x19, 0x1A, 0x1B, 0x1C, 0x48, 0x49, 0x50, 0x58].contains cls ∧ instPresent cls inst then
    let s := s.addFence cls inst .bist .done
    match unitDest cls inst with
    | some d =>
      let s := (List.range 64).foldl (fun s ni => s.setNiFence ni d true) s
      let s := s.setPort d { Port.reset with fenced := true, drained := true }
      { s with mortar := { s.mortar with fencers := tset [] s.mortar.fencers d [0] } }
    | none => s
  else s

/-- The state as Bedding leaves it: the Reset column, with what survives a reset and what stands outside the device. -/
def State.bedded (s : State) : State :=
  let r := { State.reset with
    pending := s.pending
    host := s.host
    devclk := s.devclk
    free := s.free
    modes := ModeCtl.reset
    dvorys := s.dvorys
    ledger := { Ledger.reset with periodFrom := s.ledger.periodFrom }
    pcie := { Pcie.reset with perstN := s.pcie.perstN, training := s.pcie.perstN, answers := s.pcie.answers }
    power := s.power }
  let r := r.setReg Reg.CLK.cls 0 0x00C (s.reg Reg.CLK.cls 0 0x00C)
  let r := r.setFld Reg.SYS.BOOT_STATUS_BOOT_MODE 0 (s.power.bootPins.toNat % 4)
  let r := r.setFld Reg.SYS.BOOT_STATUS_BIST_RAN 0 (s.power.bootPins.toNat / 4)
  if s.pcie.perstN then r else r.setFld Reg.PWR.STATUS_STATE 61 0

/-- A fault that BIST repairs with a spare (R61). -/
def State.bistRepair (s : State) (a : Nat) (column : Bool) : State :=
  if a < 2 ^ 40 ∧ s.spareLeft a column then s.takeSpare a column else s

/-- BEDDING_DONE (R61): BIST has run when its pin asked for it: spares have repaired what it `found` and they repair, the units that fail
are fenced; a failure in CMD, CTRL or MESH leaves the device in Bedding. A spare that BIST used stays
counted as used, though the Reset column shows all of them. DEDUCED (log entry 39). -/
def execBeddingDone (found : BistFound) (coreFail : Bool) (s : State) : Host.Outcome State Fault Refusal :=
  if s.modes.mode ≠ .bedding ∨ s.bit Reg.SYS.BOOT_STATUS_BIST_FAIL 0 then .next s
  else
    let bist := decide (4 ≤ s.power.bootPins.toNat)
    if bist && coreFail then .next (s.setFld Reg.SYS.BOOT_STATUS_BIST_FAIL 0 1)
    else
      let r := if bist then found.repairs.foldl (fun s x => s.bistRepair x.1.toNat x.2) s.bedded else s.bedded
      if bist && !found.failed.isEmpty then
        .next ((found.failed.foldl (fun s x => s.bistFence x.1.toNat x.2.toNat) r).setFld Reg.SYS.BOOT_STATUS_BIST_FAIL 0 1)
      else .next r

/-- BOOT_IMAGE_CHECK (R60, R62): the next source of the boot order is checked; with none left the host is waited for. -/
def execBootImageCheck (source : Fin 3) (s : State) : Host.Outcome State Fault Refusal :=
  if !s.booting ∨ s.bit Reg.SYS.BOOT_STATUS_WAITING_HOST 0 then .next s
  else
    match s.bootSources with
    | k :: _ => if k = source.val then .next (s.bootSlotCheck k) else .next s
    | [] => if source = 2 then .next (s.setFld Reg.SYS.BOOT_STATUS_WAITING_HOST 0 1) else .next s

/-- Whether a step of Raising is due: Raising, its bit still 0, and with `up` Dvorys serving rings. -/
def State.raiseDue (s : State) (f : Field) (up : Bool) : Bool :=
  s.modes.mode == .raising && !s.bit f 0 && (!up || s.bit Reg.SYS.RAISE_STATUS_DVORYS_UP 0)

/-- BULK_TRAINED (R285, R286): by channel whether it is populated, X8, ranks and capacity in MB without the reserve pool. -/
def execBulkTrained (found : List (Bool × Bool × BitVec 3 × Nat)) (s : State) : Host.Outcome State Fault Refusal :=
  if s.raiseDue Reg.SYS.RAISE_STATUS_BULK_TRAINED true then
    let at_ (c : Nat) := found.getD c (false, false, 0, 0)
    let l := (List.range 4).filter (fun c => (at_ c).1)
    let s := l.foldl (fun s c =>
      let (_, x8, ranks, mb) := at_ c
      (((s.setFld Reg.BULK.STATUS_TRAINED c 1).setFld Reg.BULK.STATUS_X8 c (b2n x8)).setFld Reg.BULK.STATUS_RANKS c ranks.toNat).setFld
        Reg.BULK.CAPACITY_MB c mb) s
    let s := if l.isEmpty then s else
      (s.setFld Reg.BULK.ILV_MODE 0 (4 - l.length)).setFld Reg.BULK.ILV_MAP 0 (packMap l)
    let small := (l.map (fun c => s.fld Reg.BULK.CAPACITY_MB c)).min?.getD 0
    let s := { s with memSys := { s.memSys with capacity := 2 ^ 20 * (l.length * small) } }
    .next (((s.setFld Reg.SYS.RAISE_STATUS_BULK_TRAINED 0 1).setFld Reg.CLK.STATUS_BULK_LOCK 0 1).syncReady)
  else .next s

/-- BULK_FILLED (R63, R294): every trained channel holds zero with valid check bits. -/
def execBulkFilled (s : State) : Host.Outcome State Fault Refusal :=
  if s.raiseDue Reg.SYS.RAISE_STATUS_BULK_FILLED true ∧ s.bit Reg.SYS.RAISE_STATUS_BULK_TRAINED 0 then
    let s := (List.range 4).foldl (fun s c =>
      if s.bit Reg.BULK.STATUS_TRAINED c then (s.fillZero (2 ^ 40 + 2 ^ 37 * c) (2 ^ 37)).setFld Reg.BULK.STATUS_FILLED c 1 else s) s
    .next ((s.setFld Reg.SYS.RAISE_STATUS_BULK_FILLED 0 1).syncReady)
  else .next s

/-- AVS_CAL (R416). -/
def execAvsCal (s : State) : Host.Outcome State Fault Refusal :=
  if s.raiseDue Reg.SYS.RAISE_STATUS_AVS_CAL false then .next ((s.setFld Reg.SYS.RAISE_STATUS_AVS_CAL 0 1).syncReady) else .next s

/-- METERS_CAL (R199): the constants of the 48 points as refined in Raising; a point with none given keeps its fused ones. -/
def execMetersCal (constants : List (BitVec 16 × BitVec 16)) (s : State) : Host.Outcome State Fault Refusal :=
  if s.raiseDue Reg.SYS.RAISE_STATUS_METERS_CAL true then
    let s := (List.range (min 48 constants.length)).foldl (fun s p =>
      let (g, o) := constants.getD p (0, 0)
      (s.setFld Reg.METER.CAL_GAIN_GAIN p g.toNat).setFld Reg.METER.CAL_OFFSET_OFFSET p o.toNat) s
    let s := (List.range 48).foldl (fun s p => s.setFld Reg.METER.STATUS_CAL_DONE p 1) s
    .next ((s.setFld Reg.SYS.RAISE_STATUS_METERS_CAL 0 1).syncReady)
  else .next s

end Sys2Proof.Machine
end

