-- ==== Sys2Proof/Machine/Faults.lean ====
section
/-! DEFINITION. Faults the fault manager acts on (R387–R394) and the allowance of a commanded fence (R396). -/
namespace Sys2Proof.Machine

/-- A core fault: its Course is fenced (R389). -/
def State.coreFault (s : State) (c : Nat) : State := (s.reportFault 3 0x11 c).autoFence 0x10 (c / 8)

/-- An engine fault: the engine is fenced (R390). -/
def State.engineFault (s : State) (u : Nat) : State :=
  let (cls, inst) := unitOf u
  (s.reportFault 4 cls inst).autoFence cls inst

/-- CORE_FAULT (R121, R389): a core that ended its task with HANG and has not reached TAKE wait 2 µs later. -/
def execCoreFault (core : Fin 192) (s : State) : Host.Outcome State Fault Refusal :=
  let k := s.core core
  let late := (s.faults.recoveries.filter (fun r => r.code == 2 && r.cls == 0x11 && r.inst == core.val)).all
    (fun r => decide (r.since + 200 ≤ s.devclk.toNat))
  if s.running 0x11 core ∧ k.ending = some (.exc 0x08) ∧ late then
    .next (s.coreFault core)
  else .next s

/-- ENGINE_FAULT (R390): an engine not back from its reset. -/
def execEngineFault (engine : Fin 40) (s : State) : Host.Outcome State Fault Refusal :=
  let u := 192 + engine.val
  if (s.eng u).hung.isSome ∧ s.running (unitOf u).1 (unitOf u).2 then .next (s.engineFault u) else .next s

/-- COURSE_FENCE_ALLOWANCE (R396 step 2): after 50 µs the tasks still running are abandoned and the drain begins. -/
def execCourseFenceAllowance (course : Fin 24) (s : State) : Host.Outcome State Fault Refusal :=
  match s.fenceOf 0x10 course with
  | some f => if f.phase = .waiting ∧ f.since + 5000 ≤ s.devclk.toNat then .next (s.beginDrain 0x10 course 1) else .next s
  | none => .next s

/-! ## Parity of control entries (R393) -/

/-- A parity fault whose handling is at once. -/
def State.parityFault (s : State) (cls inst : Nat) : State := (s.reportFault 12 cls inst).endRecovery 12 cls inst

/-- A slot entry: discarded, its task READY again. -/
def State.slotParity (s : State) (u : Nat) : State :=
  let s := if u < 192 then s.parityFault 0x23 u else s.parityFault (unitOf u).1 (unitOf u).2
  match s.slot u with
  | i :: _ => s.reclaim u i
  | [] => s

/-- Opcodes whose packets access registers at the CSR hub. -/
def hubOps : List Nat :=
  configOps ++ [0x1002, 0x1004, 0x1005, 0x1006, 0x1007, 0x2002, 0x3004, 0x3005, 0x4003, 0x4007, 0x5001, 0x6004, 0x7001, 0x7004, 0x9002]

/-- A CSR hub queue: the access of a requester completes with TARGET_ERROR and reads zero; a packet of Dvorys that accesses registers ends
UNIT_FAULT with nothing acted on. -/
def State.hubParity (s : State) (req : Nat) : State :=
  let s := s.parityFault 0x00 0
  if req = 8 then
    match s.nextRing with
    | some fn =>
      let (p, s) := s.packetAt fn
      if hubOps.contains p.op then (s.takeSlots fn (packetSlots p.pw)).reply p .unitFault 0 [] else s
    | none => s
  else if req < 14 then s.giveBack req 0 else s

/-- A journal FIFO: its oldest entry is discarded and counted. -/
def State.fifoParity (s : State) (cls : Nat) : State :=
  let s := s.parityFault 0x01 0
  match tget [] s.journal.fifo cls with
  | e :: r => ({ s with journal := { s.journal with fifo := tset [] s.journal.fifo cls r } }).countLost cls e.inst
  | [] => s

/-- The prefetch line of a DMA channel's PC: fetched again; on a refetch (`again`) a bus error. -/
def State.lineParity (s : State) (c : Nat) (again : Bool) : State :=
  let e := c / 32
  let a := s.dmaPc c / 64 * 64
  let s := s.parityFault 0x40 e
  let s := { s with dma := { s.dma with lines := tset [] s.dma.lines e ((tget [] s.dma.lines e).filter (fun l => l.1 != a)) } }
  if again then s.dmaErr c 2 a BusStatus.targetError.code else s

/-- A resident descriptor: its task completes with cause UNIT, not re-dispatched, wherever it stands. -/
def State.descriptorParity (s : State) (i : Nat) : State :=
  let s := s.parityFault 0x20 0
  match s.task i with
  | some t =>
    let s := (List.range 232).foldl (fun s u => if (s.slot u).contains i then s.setSlot u ((s.slot u).filter (· != i)) else s) s
    (s.putTask i { t with idempotent := false }).complete i .unit
  | none => s

/-- Whether the domain of a core or engine is on. -/
def State.unitOn (s : State) (u : Nat) : Bool :=
  match domainOf (unitOf u).1 (unitOf u).2 with
  | some d => s.domState d != 0
  | none => true

/-- A keystone: COUNT takes RELOAD, FAIL is set. -/
def State.keyParity (s : State) (k : Nat) : State :=
  let s := s.parityFault 0x22 (k / 256)
  s.setKey k { s.key k with count := (s.key k).reload, fail := true }

/-- UNIT_PARITY (R393), by entry: 0 the head entry of slot `index`; 1 the hub queue of requester `index`; 2 the journal FIFO of class
`index`; 3 the prefetch line of DMA channel `index`, on a refetch with `again`; 4 resident descriptor `index`; 5 keystone `index`;
6 core (below 192) or engine; 7 a Mortar header at NI `index`; 8 an entry that carries samples of STRM_RX[index] on to Witness, whose
word becomes poison (R291, R293). -/
def execUnitParity (entry : Fin 9) (index : Nat) (again : Bool) (s : State) : Host.Outcome State Fault Refusal :=
  .next (match entry.val with
    | 0 => if index < 232 then s.slotParity index else s
    | 1 => s.hubParity index
    | 2 => s.fifoParity index
    | 3 => if index < 128 then s.lineParity index again else s
    | 4 => s.descriptorParity index
    | 5 => if index < 8192 then s.keyParity index else s
    | 6 => if !s.unitOn index then s else if index < 192 then s.coreFault index else if index < 232 then s.engineFault index else s
    | 8 => if index < 512 then s.setVault { s.vault with upset := s.vault.upset ++ [index] } else s
    | _ =>
      match s.ejectedAt index (fun f => f.plane == 0) with
      | some f => s.badHeader index f
      | none => s)

/-- FAULT_STATE_DISAGREEMENT (R394): a double fault; the device keeps its mode and the fault manager fences nothing more until the next
reset. -/
def execFaultStateDisagreement (s : State) : Host.Outcome State Fault Refusal :=
  let s := s.addFld (Reg.SYS.FAULT_COUNT_COUNT 13) 0 1
  let s := ((s.setFld Reg.SYS.FAULT_LAST_CODE 0 13).setFld Reg.SYS.FAULT_LAST_CLASS 0 0).setFld Reg.SYS.FAULT_LAST_SELECTOR 0 0
  let s := s.setPair Reg.SYS.FAULT_DETECT_LO_DETECT Reg.SYS.FAULT_DETECT_HI_DETECT 0 s.devclk.toNat
  let s := ((s.post 0 0 0x010 3 13).post 0 0 0x013 3 13).setLevel 0
  .next { s with faults := { s.faults with held := true } }

end Sys2Proof.Machine
end

