-- ==== Sys2Proof/Machine/Power.lean ====
section
/-! DEFINITION. The power sequencer, the core voltage and the loss of REF (R412–R417, R421). -/
namespace Sys2Proof.Machine

/-! ## Power-down (R414) -/

/-- The instances in a domain that can be powered off, with their class. -/
def domainUnits (d : Nat) : List (Nat × List Nat) :=
  if 4 ≤ d ∧ d < 28 then
    let n := d - 4
    [(0x10, [n]), (0x11, (List.range 8).map (8 * n + ·)), (0x12, [n])]
  else if 28 ≤ d ∧ d < 36 then
    let c := d - 28
    [(0x18, [2 * c, 2 * c + 1]), (0x19, [c]), (0x1C, [c])] ++ (if c < 4 then [(0x1A, [c])] else [(0x1B, [c - 4])])
  else if 49 ≤ d ∧ d < 61 then
    let q := d - 49
    [(0x50, [q]), (0x51, (List.range 4).map (4 * q + ·)), (0x52, [q]), (0x58, [2 * q, 2 * q + 1]), (0x61, [2 * q, 2 * q + 1])]
  else if 62 ≤ d ∧ d < 78 then [(0x48, [d - 62])]
  else []

/-- A Course's own state gone. -/
def State.clearCourse (s : State) (n : Nat) : State :=
  let mine (e : Nat) : Bool := e / 8 != n
  { s with
    sett := { cores := s.sett.cores.filter (fun e => mine e.1), cmus := tdel s.sett.cmus n }
    observe := { s.observe with
      sampBuf := tdel s.observe.sampBuf n
      sampSeq := tdel s.observe.sampSeq n
      sampCount := s.observe.sampCount.filter (fun e => mine e.1)
      sampGeo := tdel s.observe.sampGeo n }
    memSys := { s.memSys with scrubAt := tdel s.memSys.scrubAt (16 + n), scrubHeld := tdel s.memSys.scrubHeld (16 + n) } }

/-- The engines of a CODE domain gone; a microcode activation under way ends with UNIT_FAULT. -/
def State.clearCode (s : State) (c : Nat) : State :=
  let us := (List.range 40).map (192 + ·) |>.filter (fun u => codeDomain (unitOf u).1 (unitOf u).2 == c)
  us.foldl (fun s u =>
    let s := match ((s.eng u).act.bind (fun i => s.findOp i .imageActivate)) with
      | some o => s.endOp o .unitFault 0 []
      | none => s
    { s with engines := { eng := tdel s.engines.eng u } }) s

/-- A quad's lanes and MACs gone. -/
def State.clearQuad (s : State) (q : Nat) : State :=
  let lane (e : Nat) : Bool := e / 4 != q
  let mac (e : Nat) : Bool := e / 2 != q
  { s with
    lanes := {
      ahn := s.lanes.ahn.filter (fun e => lane e.1)
      held := tdel s.lanes.held q
      recal := s.lanes.recal.filter (fun e => lane e.1)
      fecLost := tdel s.lanes.fecLost q
      switchTo := tdel s.lanes.switchTo q
      waitingWords := s.lanes.waitingWords.filter (fun e => lane e.1)
      gap := s.lanes.gap.filter (fun e => lane e.1)
      fir := s.lanes.fir.filter (fun e => lane e.1) }
    eth := { s.eth with
      macs := s.eth.macs.filter (fun e => mac e.1)
      pauses := s.eth.pauses.filter (fun e => mac (e.1 / 9)) } }

/-- A bulk channel's registers and retirement entries at their Reset values (R11) but for the interleave, which UNFENCE_UNIT leaves as it
is, and what its training finds again. -/
def State.clearBulk (s : State) (c : Nat) : State :=
  let keep (o : Nat) : Bool := o == 0x008 || (decide (0x050 ≤ o) && decide (o < 0x05C)) || isGrpOff o || o == 0x004
  let sel (k : Nat) : Bool := (List.range 16).any (fun r => k == holdKey r 0x49 c 0x060)
  let s := { s with csr := s.csr.filter (fun e => !(e.1 / 0x100000 == 0x49 && e.1 / 0x400 % 0x400 == c) || keep (e.1 % 0x400)) }
  let s := { s with
    hold := s.hold.filter (fun e => !sel e.1)
    memSys := { s.memSys with
      scrubAt := tdel s.memSys.scrubAt (40 + c), scrubHeld := tdel s.memSys.scrubHeld (40 + c)
      retired := s.memSys.retired.filter (fun e => e.1 / 256 != c) } }
  let s := (s.setFld Reg.BULK.STATUS_EVACUATED c 0).setFld Reg.BULK.STATUS_RETIRED c 0
  ((s.setFld Reg.BULK.STATUS_FILLED c 0).setFld Reg.BULK.STATUS_ERASED c 0).setFld Reg.BULK.STATUS_ERASED_COL c 0

/-- Everything a domain holds goes to its Reset value with its power (R11, R414); GRP_MEMBER is kept. -/
def State.clearDomain (s : State) (d : Nat) : State :=
  let s := (domainUnits d).foldl (fun s x => s.resetClass x.1 x.2) s
  if 4 ≤ d ∧ d < 28 then s.clearCourse (d - 4)
  else if 28 ≤ d ∧ d < 36 then s.clearCode (d - 28)
  else if 45 ≤ d ∧ d < 49 then s.clearBulk (d - 45)
  else if 49 ≤ d ∧ d < 61 then s.clearQuad (d - 49)
  else if 62 ≤ d ∧ d < 78 then
    { s with memSys := { s.memSys with scrubAt := tdel s.memSys.scrubAt (d - 62), scrubHeld := tdel s.memSys.scrubHeld (d - 62) } }
  else s

/-- The fences whose unit owns a domain. -/
def State.fencesIn (s : State) (d : Nat) : List Fence := s.fences.filter (fun f => fenceDomain f.cls f.inst == some d)

/-- A domain joins those that wait for power-up (R415). -/
def State.queuePower (s : State) (d : Nat) : State :=
  if s.power.waitingUp.contains d then s else { s with power := { s.power with waitingUp := s.power.waitingUp ++ [d] } }

/-- POWERED_OFF (R414): with its fences drained the domain is off; an UNFENCE_UNIT that waited queues its power-up (R397, R415). -/
def execPoweredOff (domain : Fin 78) (s : State) : Host.Outcome State Fault Refusal :=
  let d := domain.val
  let l := s.fencesIn d
  if s.domState d = 6 ∧ !l.isEmpty ∧ l.all (fun f => f.phase == .drained) then
    let s := ((s.clearDomain d).setFld Reg.PWR.STATUS_STATE d 0).setFld Reg.PWR.STATUS_AVS_OK d 0
    let s := s.post 0x03 d 0x001 0 d
    let s := l.foldl (fun s f =>
      s.setFence { f with phase := if f.unfenceWaits then .powerQueued else .done, unfenceWaits := false }) s
    .next (if l.any (·.unfenceWaits) then s.queuePower d else s)
  else .next s

/-! ## Power-up (R414, R415) -/

/-- POWER_UP_GRANT: the sequencer ramps one domain at a time; its monitors are checked at the present voltage. -/
def execPowerUpGrant (monitorsPass : Bool) (s : State) : Host.Outcome State Fault Refusal :=
  match s.power.ramping, rrPick 78 s.power.lastDomain s.power.waitingUp.contains with
  | none, some d =>
    let s := { s with power := { s.power with ramping := some d, lastDomain := d, waitingUp := s.power.waitingUp.erase d } }
    let s := (s.setFld Reg.PWR.STATUS_STATE d 1).setFld Reg.PWR.STATUS_AVS_OK d (b2n monitorsPass)
    .next ((s.fencesIn d).foldl (fun s f => if f.phase = .powerQueued then s.setFence { f with phase := .powering } else s) s)
  | _, _ => .next s

/-- Both microcode banks of a CODE domain's engines reloaded from the running image (R171), whose version they then show: that of the
active pair's image (DESIGN CHOICE, log entry 29). -/
def State.reloadCode (s : State) (c : Nat) : State :=
  let ver := s.fld Reg.DVORYS.PAIR_STATUS_VERSION s.activePair
  ((List.range 40).map (192 + ·) |>.filter (fun u => codeDomain (unitOf u).1 (unitOf u).2 == c)).foldl (fun s u =>
    ((s.setE u Reg.LDPC_DEC.UCODE_VER_VERSION ver).setE u Reg.LDPC_DEC.UCODE_ALT_VERSION ver).setE u Reg.LDPC_DEC.UCODE_ALT_VALID 1) s

/-- The memories of a domain refilled with zero and valid check bits, or its microcode reloaded (R11, R171, R294). -/
def State.refill (s : State) (d : Nat) : State :=
  if 28 ≤ d ∧ d < 36 then s.reloadCode (d - 28) else
  if 4 ≤ d ∧ d < 28 then
    let n := d - 4
    (List.range 8).foldl (fun s k => s.fillZero (0x60000000 + (8 * n + k) * 0x100000) 0x100000) (s.fillZero (0x40000000 + n * 0x400000) 0x400000)
  else if 45 ≤ d ∧ d < 49 then (s.fillZero (2 ^ 40 + 2 ^ 37 * (d - 45)) (2 ^ 37)).setFld Reg.BULK.STATUS_FILLED (d - 45) 1
  else if 62 ≤ d ∧ d < 78 then s.fillZero ((d - 62) * 0x400000) 0x400000
  else s

/-- One fence once its domain is up: down again where a fault met the power-up, else on to UNFENCE (R414, R415). -/
def State.upFence (s : State) (f : Fence) : State :=
  if f.phase = .powering then
    if f.faultMet then s.setFence { f with phase := .drained }
    else
      let s := s.setFence { f with phase := .refilled }
      match unitDest f.cls f.inst with
      | some dest => if (s.fencersOf dest).isEmpty then s else s.askUnfence 1 dest
      | none => s
  else s

/-- POWERED_UP: refilled, remaps rebuilt; a Course's CORE_EN is 0 (R396), a quad goes through R308. A fault met on the way takes the
domain down again. -/
def execPoweredUp (domain : Fin 78) (s : State) : Host.Outcome State Fault Refusal :=
  let d := domain.val
  if s.power.ramping = some d ∧ s.bit Reg.PWR.STATUS_AVS_OK d then
    let l := s.fencesIn d
    let s := { s with power := { s.power with ramping := none } }
    let s := (s.refill d).addFld Reg.PWR.STATUS_CYCLES d 1
    let s := if 4 ≤ d ∧ d < 28 then s.setFld Reg.COURSE.CTL_CORE_EN (d - 4) 0 else s
    let s := (s.setFld Reg.PWR.STATUS_STATE d 3).post 0x03 d 0x002 0 d
    let s := l.foldl State.upFence s
    let s := if 49 ≤ d ∧ d < 61 then s.startSwitch (d - 49) ((s.reg 0x50 (d - 49) 0).toNat % 8) else s
    if l.any (fun f => f.faultMet && f.phase == .powering) then
      let s := s.setFld Reg.PWR.STATUS_STATE d 6
      .next ((s.fencesIn d).foldl (fun s f => s.setFence { f with phase := .drained }) s)
    else .next s
  else .next s

/-! ## Voltage (R416, R417) -/

/-- Whether a domain's monitors count: powered and not parked. -/
def State.monitored (s : State) (d : Nat) : Bool := s.domState d == 3

/-- AVS_UPDATE (R416): the lowest voltage, in 5 mV steps from 550 to 750 mV, at which every monitor passes with its margin; 750 mV with
EN = 0. -/
def execAvsUpdate (millivolts : Nat) (s : State) : Host.Outcome State Fault Refusal :=
  let mv := if s.bit Reg.CLK.AVS_CTL_EN 0 then min 750 (max 550 ((millivolts + 4) / 5 * 5)) else 750
  let s := s.setFld Reg.CLK.AVS_STATUS_VOUT_MV 0 mv
  .next ((List.range 78).foldl (fun s d =>
    if s.monitored d ∧ !s.power.skips.contains d then s.setFld Reg.PWR.STATUS_AVS_OK d 1 else s) s)

/-- AVS_ALARM (R417): counted and journalled; the domain skips 1 cycle in 2. -/
def execAvsAlarm (domain : Fin 78) (s : State) : Host.Outcome State Fault Refusal :=
  if s.monitored domain then
    let s := (s.addFld Reg.CLK.AVS_STATUS_ALARMS 0 1).setFld Reg.PWR.STATUS_AVS_OK domain 0
    let k := s.power.skips
    .next (({ s with power := { s.power with skips := if k.contains domain.val then k else k ++ [domain.val] } }).post 0x02 0 0x003 1 domain)
  else .next s

/-- AVS_SETTLED (R416, R417): the regulator has settled: the skip rate ends, and the monitors of the domain that ramps pass. -/
def execAvsSettled (domain : Fin 78) (s : State) : Host.Outcome State Fault Refusal :=
  if s.power.skips.contains domain.val ∨ s.power.ramping = some domain.val then
    .next (({ s with power := { s.power with skips := s.power.skips.erase domain.val } }).setFld Reg.PWR.STATUS_AVS_OK domain 1)
  else .next s

/-! ## REF (R412) -/

/-- REF_MISSING: no edge for 100 ns. DEVCLK goes on, one count per 96 root cycles. -/
def execRefMissing (s : State) : Host.Outcome State Fault Refusal :=
  if s.power.refGone then .next s
  else .next ((({ s with power := { s.power with refGone := true } }).setFld Reg.CLK.STATUS_REF_PRESENT 0 0).post 0x02 0 0x001 3 0)

/-- ROOT_REF_RESTORED: REF has run for 1 ms. -/
def execRootRefRestored (s : State) : Host.Outcome State Fault Refusal :=
  if s.power.refGone then
    .next ((({ s with power := { s.power with refGone := false } }).setFld Reg.CLK.STATUS_REF_PRESENT 0 1).post 0x02 0 0x002 0 0)
  else .next s

end Sys2Proof.Machine
end

