-- ==== Sys2Proof/Machine/Observe.lean ====
section
/-! DEFINITION. How sample records reach their ring (R406) and trace packets the port (R407), and a REF cycle of time. -/
namespace Sys2Proof.Machine

/-- A record's words 0–7 as the trace port carries them, the Course number in an extra word (R407). -/
def State.traceSample (s : State) (n : Nat) (r : List Word) : State :=
  if s.traceOn 2 && bitOf (s.fld Reg.TRACE.COURSES_COURSES 0) n then s.tracePush 3 (halves r ++ [n]) else s

/-- SAMPLE_RING_WRITE (R406): the oldest record of a Course goes to slot WR mod 2^LOG2, or is dropped when the ring is full or the
write fails; a geometry written while EN was 1 takes effect at the wrap. -/
def execSampleRingWrite (course : Fin 24) (s : State) : Host.Outcome State Fault Refusal :=
  let n := course.val
  match tget [] s.observe.sampBuf n with
  | [] => .next s
  | r :: rest =>
    if !s.running 0x10 n then .next s
    else
      let s := { s with observe := { s.observe with sampBuf := tset [] s.observe.sampBuf n rest } }
      let (base, size) := s.sampGeo n
      let wr := s.fld Reg.COURSE.SAMP_WR_WR n
      if (wr + 2 ^ 21 - s.fld Reg.COURSE.SAMP_RD_RD n) % 2 ^ 21 = size then .next (s.sampleLost n)
      else
        let (st, s) := s.busPut n 0 (base + 32 * (wr % size)) (clean (wordsToBytes r))
        if st ≠ .ok then .next (s.sampleLost n)
        else
          let s := s.setFld Reg.COURSE.SAMP_WR_WR n (wr + 1)
          let s := if (wr + 1) % size = 0 then { s with observe := { s.observe with sampGeo := tdel s.observe.sampGeo n } } else s
          .next (s.traceSample n r)

/-- TRACE_PACKET_SEND (R407): the oldest packet leaves the FIFO; after every 4,096 words a SYNC goes next; a LOST packet
that now fits joins the FIFO. -/
def execTracePacketSend (s : State) : Host.Outcome State Fault Refusal :=
  match s.bit Reg.TRACE.CTL_EN 0, s.observe.fifo with
  | true, p :: rest =>
    let n := s.observe.sinceSync + p.length
    let t := s.time.tcnt.toNat
    let d := s.devclk.toNat
    let sync := (15 + 8 * 16) :: halves [loWord t, hiWord t, loWord d, hiWord d]
    let o := if 4096 ≤ n then { s.observe with fifo := sync :: rest, sinceSync := 0, sent := p }
      else { s.observe with fifo := rest, sinceSync := n, sent := p }
    let s := ({ s with observe := o }).traceLost
    .next (s.setFld Reg.TRACE.STATUS_LEVEL 0 (fifoWords s.observe.fifo))
  | _, _ => .next s

/-! ## Time -/

/-- What the root PLL does in a REF cycle from Raising on: with REF there, ROOT_LOCK and REF_PRESENT show it; a depth of the spread other
than the one in effect comes into effect at the next start of the 31.5 kHz triangle (±5 %), whose phase is open (R410, R412; DEDUCED, log
entry 38). -/
def State.rootCycle (s : State) : State :=
  if !s.linkMode then s
  else
    let s := if s.power.refGone ∨ s.bit Reg.CLK.STATUS_REF_PRESENT 0 then s
      else (s.setFld Reg.CLK.STATUS_REF_PRESENT 0 1).setFld Reg.CLK.STATUS_ROOT_LOCK 0 1
    let want := min 2 (s.fld Reg.CLK.CTL_SPREAD 0)
    if s.fld Reg.CLK.STATUS_SPREAD_NOW 0 = want then { s with power := { s.power with spreadAt := none } }
    else
      match s.power.spreadAt with
      | none =>
        let (n, s) := s.takeFree 12
        { s with power := { s.power with spreadAt := some (s.devclk.toNat + n % 3342) } }
      | some t =>
        if t ≤ s.devclk.toNat then
          ({ s with power := { s.power with spreadAt := none } }).setFld Reg.CLK.STATUS_SPREAD_NOW 0 want
        else s

/-- One REF cycle: DEVCLK counts (R26, R412), the time bases, DLCLK and TCNT advance (R356, R357, R179, R400); the root PLL shows itself;
the idleness of domains is timed (R210), and Mortar goes on 16 MESH cycles (R246). -/
def State.refCycle (s : State) : State :=
  State.meshRun (fun _ => false) 16 ({ s.timeTick with devclk := s.devclk + 1 }).rootCycle.noteBusy

end Sys2Proof.Machine
end

