-- ==== Sys2Proof/Machine/Dispatch.lean ====
section
/-! DEFINITION. The meaning of every command: one arm per constructor of Instr, each one call of its own meaning. -/
namespace Sys2Proof.Machine

def exec (i : Instr) (s : State) : Host.Outcome State Fault Refusal :=
  match i with
  | .registerWrite req cls sel offset value => Sys2Proof.Machine.execRegisterWrite req cls sel offset value s
  | .journalGrant => Sys2Proof.Machine.execJournalGrant s
  | .lost cls => Sys2Proof.Machine.execLost cls s
  | .sqTailDoorbell fn index => Sys2Proof.Machine.execSqTailDoorbell fn index s
  | .cqHeadDoorbell fn index => Sys2Proof.Machine.execCqHeadDoorbell fn index s
  | .ringDisable fn => Sys2Proof.Machine.execRingDisable fn s
  | .quiesced fn => Sys2Proof.Machine.execQuiesced fn s
  | .flr fn => Sys2Proof.Machine.execFlr fn s
  | .irqCoalTimer fn => Sys2Proof.Machine.execIrqCoalTimer fn s
  | .badOpcode fn => Sys2Proof.Machine.execBadOpcode fn s
  | .nop fn => Sys2Proof.Machine.execNop fn s
  | .identify fn => Sys2Proof.Machine.execIdentify fn s
  | .modeGet fn => Sys2Proof.Machine.execModeGet fn s
  | .modeSet fn => Sys2Proof.Machine.execModeSet fn s
  | .eventSubscribe fn => Sys2Proof.Machine.execEventSubscribe fn s
  | .fnGrant fn => Sys2Proof.Machine.execFnGrant fn s
  | .diagWindow fn => Sys2Proof.Machine.execDiagWindow fn s
  | .abort fn => Sys2Proof.Machine.execAbort fn s
  | .lrSafePointStop op units => Sys2Proof.Machine.execLrSafePointStop op units s
  | .enumerate fn => Sys2Proof.Machine.execEnumerate fn s
  | .regRead fn => Sys2Proof.Machine.execRegRead fn s
  | .regWrite fn => Sys2Proof.Machine.execRegWrite fn s
  | .regModify fn => Sys2Proof.Machine.execRegModify fn s
  | .regBlock fn => Sys2Proof.Machine.execRegBlock fn s
  | .regBlockDone op => Sys2Proof.Machine.execRegBlockDone op s
  | .commit fn => Sys2Proof.Machine.execCommit fn s
  | .commitState fn => Sys2Proof.Machine.execCommitState fn s
  | .fenceUnit fn => Sys2Proof.Machine.execFenceUnit fn s
  | .fenceUnitDone op => Sys2Proof.Machine.execFenceUnitDone op s
  | .unfenceUnit fn => Sys2Proof.Machine.execUnfenceUnit fn s
  | .unfenceUnitDone op => Sys2Proof.Machine.execUnfenceUnitDone op s
  | .accountSet fn => Sys2Proof.Machine.execAccountSet fn s
  | .accountRead fn => Sys2Proof.Machine.execAccountRead fn s
  | .plan fn => Sys2Proof.Machine.execPlan fn s
  | .ledgerSet fn => Sys2Proof.Machine.execLedgerSet fn s
  | .meterCalibrate fn => Sys2Proof.Machine.execMeterCalibrate fn s
  | .meterCalibrateDone op ok constants => Sys2Proof.Machine.execMeterCalibrateDone op ok constants s
  | .queueSet fn => Sys2Proof.Machine.execQueueSet fn s
  | .taskPost fn => Sys2Proof.Machine.execTaskPost fn s
  | .taskPostRetry fn => Sys2Proof.Machine.execTaskPostRetry fn s
  | .keystoneSet fn => Sys2Proof.Machine.execKeystoneSet fn s
  | .keystoneRead fn => Sys2Proof.Machine.execKeystoneRead fn s
  | .queueStats fn => Sys2Proof.Machine.execQueueStats fn s
  | .vaultSet fn => Sys2Proof.Machine.execVaultSet fn s
  | .vstreamSet fn => Sys2Proof.Machine.execVstreamSet fn s
  | .vaultTrigger fn => Sys2Proof.Machine.execVaultTrigger fn s
  | .vaultExport fn => Sys2Proof.Machine.execVaultExport fn s
  | .exportDone op => Sys2Proof.Machine.execExportDone op s
  | .tallySet fn => Sys2Proof.Machine.execTallySet fn s
  | .templateLoad fn => Sys2Proof.Machine.execTemplateLoad fn s
  | .vaultStatus fn => Sys2Proof.Machine.execVaultStatus fn s
  | .tbRead fn => Sys2Proof.Machine.execTbRead fn s
  | .tbStep fn => Sys2Proof.Machine.execTbStep fn s
  | .servoSet fn => Sys2Proof.Machine.execServoSet fn s
  | .servoOffset fn => Sys2Proof.Machine.execServoOffset fn s
  | .tddEdgeSet fn => Sys2Proof.Machine.execTddEdgeSet fn s
  | .ptpPortSet fn => Sys2Proof.Machine.execPtpPortSet fn s
  | .memRead fn => Sys2Proof.Machine.execMemRead fn s
  | .memWrite fn => Sys2Proof.Machine.execMemWrite fn s
  | .memCopy fn => Sys2Proof.Machine.execMemCopy fn s
  | .memCopyDone op => Sys2Proof.Machine.execMemCopyDone op s
  | .spallRead fn => Sys2Proof.Machine.execSpallRead fn s
  | .pageRetire fn => Sys2Proof.Machine.execPageRetire fn s
  | .pageRetireDone op => Sys2Proof.Machine.execPageRetireDone op s
  | .channelEvacuate fn => Sys2Proof.Machine.execChannelEvacuate fn s
  | .evacuatePageMove op => Sys2Proof.Machine.execEvacuatePageMove op s
  | .evacuated op => Sys2Proof.Machine.execEvacuated op s
  | .scrubSet fn => Sys2Proof.Machine.execScrubSet fn s
  | .dataRingSet fn => Sys2Proof.Machine.execDataRingSet fn s
  | .quadProtocolSet fn => Sys2Proof.Machine.execQuadProtocolSet fn s
  | .laneSet fn => Sys2Proof.Machine.execLaneSet fn s
  | .laneRecal fn => Sys2Proof.Machine.execLaneRecal fn s
  | .laneStatus fn => Sys2Proof.Machine.execLaneStatus fn s
  | .ahnentSet fn => Sys2Proof.Machine.execAhnentSet fn s
  | .macSet fn => Sys2Proof.Machine.execMacSet fn s
  | .flowWrite fn => Sys2Proof.Machine.execFlowWrite fn s
  | .protectSet fn => Sys2Proof.Machine.execProtectSet fn s
  | .imageStage fn => Sys2Proof.Machine.execImageStage fn s
  | .imageStageDone op => Sys2Proof.Machine.execImageStageDone op s
  | .imageVerify fn => Sys2Proof.Machine.execImageVerify fn s
  | .imageVerifyDone op => Sys2Proof.Machine.execImageVerifyDone op s
  | .imageActivate fn => Sys2Proof.Machine.execImageActivate fn s
  | .dvorysSwitch op pass micros => Sys2Proof.Machine.execDvorysSwitch op pass micros s
  | .imageFlashWrite fn => Sys2Proof.Machine.execImageFlashWrite fn s
  | .imageFlashWriteDone op => Sys2Proof.Machine.execImageFlashWriteDone op s
  | .imageStatus fn => Sys2Proof.Machine.execImageStatus fn s
  | .counterSelect fn => Sys2Proof.Machine.execCounterSelect fn s
  | .counterRead fn => Sys2Proof.Machine.execCounterRead fn s
  | .collectStart fn => Sys2Proof.Machine.execCollectStart fn s
  | .collectDone op => Sys2Proof.Machine.execCollectDone op s
  | .traceSet fn => Sys2Proof.Machine.execTraceSet fn s
  | .journalRead fn => Sys2Proof.Machine.execJournalRead fn s
  | .pairMismatch executing words member => Sys2Proof.Machine.execPairMismatch executing words member s
  | .pairReloadDone pass => Sys2Proof.Machine.execPairReloadDone pass s
  | .modeReq req target => Sys2Proof.Machine.execModeReq req target s
  | .modeTransitionDone => Sys2Proof.Machine.execModeTransitionDone s
  | .bankedWfiTimeout => Sys2Proof.Machine.execBankedWfiTimeout s
  | .bankedEntry => Sys2Proof.Machine.execBankedEntry s
  | .powerOnReset => Sys2Proof.Machine.execPowerOnReset s
  | .resetNLow => Sys2Proof.Machine.execResetNLow s
  | .resetNRise pins => Sys2Proof.Machine.execResetNRise pins s
  | .softReset req value => Sys2Proof.Machine.execSoftReset req value s
  | .thermalReset => Sys2Proof.Machine.execThermalReset s
  | .droopReset => Sys2Proof.Machine.execDroopReset s
  | .internalFootingEnd pins => Sys2Proof.Machine.execInternalFootingEnd pins s
  | .fuseReadDone => Sys2Proof.Machine.execFuseReadDone s
  | .beddingDone found coreFail => Sys2Proof.Machine.execBeddingDone found coreFail s
  | .bootImageCheck source => Sys2Proof.Machine.execBootImageCheck source s
  | .bootPush req value => Sys2Proof.Machine.execBootPush req value s
  | .timingLock => Sys2Proof.Machine.execTimingLock s
  | .bulkTrained found => Sys2Proof.Machine.execBulkTrained found s
  | .bulkFilled => Sys2Proof.Machine.execBulkFilled s
  | .avsCal => Sys2Proof.Machine.execAvsCal s
  | .metersCal constants => Sys2Proof.Machine.execMetersCal constants s
  | .lanesCal => Sys2Proof.Machine.execLanesCal s
  | .commitArrive req tx sel value => Sys2Proof.Machine.execCommitArrive req tx sel value s
  | .commitLock ch => Sys2Proof.Machine.execCommitLock ch s
  | .symbolBoundary ch => Sys2Proof.Machine.execSymbolBoundary ch s
  | .fftSymbolArrive ch => Sys2Proof.Machine.execFftSymbolArrive ch s
  | .fftTransformDone engine => Sys2Proof.Machine.execFftTransformDone engine s
  | .gridWritesAcked ch => Sys2Proof.Machine.execGridWritesAcked ch s
  | .headerWriteAcked ch => Sys2Proof.Machine.execHeaderWriteAcked ch s
  | .rxWindowClose ch => Sys2Proof.Machine.execRxWindowClose ch s
  | .prachOccasion ch => Sys2Proof.Machine.execPrachOccasion ch s
  | .txGridRead ch => Sys2Proof.Machine.execTxGridRead ch s
  | .txGridReadDone ch => Sys2Proof.Machine.execTxGridReadDone ch s
  | .paEnableChange ch => Sys2Proof.Machine.execPaEnableChange ch s
  | .fftClearMax req sel => Sys2Proof.Machine.execFftClearMax req sel s
  | .fftClearDrops req sel => Sys2Proof.Machine.execFftClearDrops req sel s
  | .vmac core mac => Sys2Proof.Machine.execVmac core mac s
  | .vmsu core mac => Sys2Proof.Machine.execVmsu core mac s
  | .vmul core mac => Sys2Proof.Machine.execVmul core mac s
  | .vcmacL core mac => Sys2Proof.Machine.execVcmacL core mac s
  | .vcmacH core mac => Sys2Proof.Machine.execVcmacH core mac s
  | .vcmacjL core mac => Sys2Proof.Machine.execVcmacjL core mac s
  | .vcmacjH core mac => Sys2Proof.Machine.execVcmacjH core mac s
  | .vaclr core mac => Sys2Proof.Machine.execVaclr core mac s
  | .vald core mac => Sys2Proof.Machine.execVald core mac s
  | .vamov core mac => Sys2Proof.Machine.execVamov core mac s
  | .vared core mac => Sys2Proof.Machine.execVared core mac s
  | .vext core mac => Sys2Proof.Machine.execVext core mac s
  | .vexts core mac => Sys2Proof.Machine.execVexts core mac s
  | .vextr core mac => Sys2Proof.Machine.execVextr core mac s
  | .vextrs core mac => Sys2Proof.Machine.execVextrs core mac s
  | .vadd core mac => Sys2Proof.Machine.execVadd core mac s
  | .vadds core mac => Sys2Proof.Machine.execVadds core mac s
  | .vsub core mac => Sys2Proof.Machine.execVsub core mac s
  | .vsubs core mac => Sys2Proof.Machine.execVsubs core mac s
  | .vmulq core mac => Sys2Proof.Machine.execVmulq core mac s
  | .vshr core mac => Sys2Proof.Machine.execVshr core mac s
  | .vshl core mac => Sys2Proof.Machine.execVshl core mac s
  | .vshls core mac => Sys2Proof.Machine.execVshls core mac s
  | .vand core mac => Sys2Proof.Machine.execVand core mac s
  | .vor core mac => Sys2Proof.Machine.execVor core mac s
  | .vxor core mac => Sys2Proof.Machine.execVxor core mac s
  | .vmax core mac => Sys2Proof.Machine.execVmax core mac s
  | .vmin core mac => Sys2Proof.Machine.execVmin core mac s
  | .vabs core mac => Sys2Proof.Machine.execVabs core mac s
  | .vneg core mac => Sys2Proof.Machine.execVneg core mac s
  | .vconj core mac => Sys2Proof.Machine.execVconj core mac s
  | .vswapiq core mac => Sys2Proof.Machine.execVswapiq core mac s
  | .vcmpgt core mac => Sys2Proof.Machine.execVcmpgt core mac s
  | .vcmpeq core mac => Sys2Proof.Machine.execVcmpeq core mac s
  | .vsel core mac => Sys2Proof.Machine.execVsel core mac s
  | .valign core mac => Sys2Proof.Machine.execValign core mac s
  | .vbcast core mac => Sys2Proof.Machine.execVbcast core mac s
  | .vmov core mac => Sys2Proof.Machine.execVmov core mac s
  | .vnop core mac => Sys2Proof.Machine.execVnop core mac s
  | .vld core => Sys2Proof.Machine.execVld core s
  | .vst core => Sys2Proof.Machine.execVst core s
  | .vldst core => Sys2Proof.Machine.execVldst core s
  | .vldbc core => Sys2Proof.Machine.execVldbc core s
  | .ldw core => Sys2Proof.Machine.execLdw core s
  | .ldh core => Sys2Proof.Machine.execLdh core s
  | .ldhu core => Sys2Proof.Machine.execLdhu core s
  | .stw core => Sys2Proof.Machine.execStw core s
  | .sth core => Sys2Proof.Machine.execSth core s
  | .cmuq core => Sys2Proof.Machine.execCmuq core s
  | .aadd core => Sys2Proof.Machine.execAadd core s
  | .lnop core => Sys2Proof.Machine.execLnop core s
  | .sadd core => Sys2Proof.Machine.execSadd core s
  | .ssub core => Sys2Proof.Machine.execSsub core s
  | .smul core => Sys2Proof.Machine.execSmul core s
  | .sand core => Sys2Proof.Machine.execSand core s
  | .sor core => Sys2Proof.Machine.execSor core s
  | .sxor core => Sys2Proof.Machine.execSxor core s
  | .sshl core => Sys2Proof.Machine.execSshl core s
  | .sshr core => Sys2Proof.Machine.execSshr core s
  | .sshru core => Sys2Proof.Machine.execSshru core s
  | .sslt core => Sys2Proof.Machine.execSslt core s
  | .ssltu core => Sys2Proof.Machine.execSsltu core s
  | .smin core => Sys2Proof.Machine.execSmin core s
  | .smax core => Sys2Proof.Machine.execSmax core s
  | .saddi core => Sys2Proof.Machine.execSaddi core s
  | .smovi core => Sys2Proof.Machine.execSmovi core s
  | .smovhi core => Sys2Proof.Machine.execSmovhi core s
  | .movm core => Sys2Proof.Machine.execMovm core s
  | .movlc core => Sys2Proof.Machine.execMovlc core s
  | .movl core => Sys2Proof.Machine.execMovl core s
  | .movp core => Sys2Proof.Machine.execMovp core s
  | .mova core => Sys2Proof.Machine.execMova core s
  | .movb core => Sys2Proof.Machine.execMovb core s
  | .movs core => Sys2Proof.Machine.execMovs core s
  | .satclr core => Sys2Proof.Machine.execSatclr core s
  | .beq core => Sys2Proof.Machine.execBeq core s
  | .bne core => Sys2Proof.Machine.execBne core s
  | .blt core => Sys2Proof.Machine.execBlt core s
  | .bge core => Sys2Proof.Machine.execBge core s
  | .j core => Sys2Proof.Machine.execJ core s
  | .jal core => Sys2Proof.Machine.execJal core s
  | .jr core => Sys2Proof.Machine.execJr core s
  | .bpany core => Sys2Proof.Machine.execBpany core s
  | .bpnone core => Sys2Proof.Machine.execBpnone core s
  | .cstep core => Sys2Proof.Machine.execCstep core s
  | .rep core => Sys2Proof.Machine.execRep core s
  | .cturn core => Sys2Proof.Machine.execCturn core s
  | .take core => Sys2Proof.Machine.execTake core s
  | .takeWake core => Sys2Proof.Machine.execTakeWake core s
  | .done core => Sys2Proof.Machine.execDone core s
  | .fence core => Sys2Proof.Machine.execFence core s
  | .trap core => Sys2Proof.Machine.execTrap core s
  | .cmuw core => Sys2Proof.Machine.execCmuw core s
  | .snop core => Sys2Proof.Machine.execSnop core s
  | .illegal core => Sys2Proof.Machine.execIllegal core s
  | .remoteLoadReturn core => Sys2Proof.Machine.execRemoteLoadReturn core s
  | .storeAck core => Sys2Proof.Machine.execStoreAck core s
  | .hang core => Sys2Proof.Machine.execHang core s
  | .haltReq req sel value => Sys2Proof.Machine.execHaltReq req sel value s
  | .coreHalt core => Sys2Proof.Machine.execCoreHalt core s
  | .step req sel => Sys2Proof.Machine.execStep req sel s
  | .coreEnWrite req sel value => Sys2Proof.Machine.execCoreEnWrite req sel value s
  | .cmuCommandStart course => Sys2Proof.Machine.execCmuCommandStart course s
  | .matmul course => Sys2Proof.Machine.execMatmul course s
  | .matmulH course => Sys2Proof.Machine.execMatmulH course s
  | .gram course => Sys2Proof.Machine.execGram course s
  | .chol course => Sys2Proof.Machine.execChol course s
  | .trsvL course => Sys2Proof.Machine.execTrsvL course s
  | .trsvLh course => Sys2Proof.Machine.execTrsvLh course s
  | .cholSolve course => Sys2Proof.Machine.execCholSolve course s
  | .cmuNoOperation course => Sys2Proof.Machine.execCmuNoOperation course s
  | .cmuStatusWrite course => Sys2Proof.Machine.execCmuStatusWrite course s
  | .ldpcDecode engine => Sys2Proof.Machine.execLdpcDecode engine s
  | .ldpcEncode engine => Sys2Proof.Machine.execLdpcEncode engine s
  | .crc engine => Sys2Proof.Machine.execCrc engine s
  | .polarDecode engine => Sys2Proof.Machine.execPolarDecode engine s
  | .polarEncode engine => Sys2Proof.Machine.execPolarEncode engine s
  | .turboDecode engine => Sys2Proof.Machine.execTurboDecode engine s
  | .turboEncode engine => Sys2Proof.Machine.execTurboEncode engine s
  | .harqCombine engine => Sys2Proof.Machine.execHarqCombine engine s
  | .jobTypeMismatch engine => Sys2Proof.Machine.execJobTypeMismatch engine s
  | .jobEnd engine => Sys2Proof.Machine.execJobEnd engine s
  | .engineHang engine => Sys2Proof.Machine.execEngineHang engine s
  | .engineResetDone engine => Sys2Proof.Machine.execEngineResetDone engine s
  | .takeEnWrite req cls sel value => Sys2Proof.Machine.execTakeEnWrite req cls sel value s
  | .ucodeLoadDone engine => Sys2Proof.Machine.execUcodeLoadDone engine s
  | .ucodeSwitch engine pass micros => Sys2Proof.Machine.execUcodeSwitch engine pass micros s
  | .dqueuePost req queue value => Sys2Proof.Machine.execDqueuePost req queue value s
  | .postAccept => Sys2Proof.Machine.execPostAccept s
  | .postRead req queue => Sys2Proof.Machine.execPostRead req queue s
  | .keystoneSetCount req block value => Sys2Proof.Machine.execKeystoneSetCount req block value s
  | .keystoneSetReload req block value => Sys2Proof.Machine.execKeystoneSetReload req block value s
  | .keystoneDec req block value => Sys2Proof.Machine.execKeystoneDec req block value s
  | .tellerFill => Sys2Proof.Machine.execTellerFill s
  | .slotAgeReclaim unit => Sys2Proof.Machine.execSlotAgeReclaim unit s
  | .taskCompletion index cause => Sys2Proof.Machine.execTaskCompletion index cause s
  | .dispCancel req value => Sys2Proof.Machine.execDispCancel req value s
  | .dqueueClrMax req sel => Sys2Proof.Machine.execDqueueClrMax req sel s
  | .dqueueClrHist req sel => Sys2Proof.Machine.execDqueueClrHist req sel s
  | .tellerClrHist req sel => Sys2Proof.Machine.execTellerClrHist req sel s
  | .meterStep units others => Sys2Proof.Machine.execMeterStep units others s
  | .meterFault point range => Sys2Proof.Machine.execMeterFault point range s
  | .meterReferenceCheck point within => Sys2Proof.Machine.execMeterReferenceCheck point within s
  | .periodClose actual nominal grid => Sys2Proof.Machine.execPeriodClose actual nominal grid s
  | .adjust req sel value => Sys2Proof.Machine.execAdjust req sel value s
  | .accountClrStats req sel => Sys2Proof.Machine.execAccountClrStats req sel s
  | .domainPark domain => Sys2Proof.Machine.execDomainPark domain s
  | .domainUnpark domain => Sys2Proof.Machine.execDomainUnpark domain s
  | .leafGrant => Sys2Proof.Machine.execLeafGrant s
  | .leafWriteDone => Sys2Proof.Machine.execLeafWriteDone s
  | .vaultEnable req sel value => Sys2Proof.Machine.execVaultEnable req sel value s
  | .vaultGeometryWrite req sel which value => Sys2Proof.Machine.execVaultGeometryWrite req sel which value s
  | .trigger req sel value => Sys2Proof.Machine.execTrigger req sel value s
  | .pinTrigger pin rising => Sys2Proof.Machine.execPinTrigger pin rising s
  | .triggerGrant => Sys2Proof.Machine.execTriggerGrant s
  | .regionRelease req sel value => Sys2Proof.Machine.execRegionRelease req sel value s
  | .tallyAgcBlock detector => Sys2Proof.Machine.execTallyAgcBlock detector s
  | .tallyDetection detector => Sys2Proof.Machine.execTallyDetection detector s
  | .tallySymbol detector => Sys2Proof.Machine.execTallySymbol detector s
  | .tallyRecordAcked detector => Sys2Proof.Machine.execTallyRecordAcked detector s
  | .tplData req sel value => Sys2Proof.Machine.execTplData req sel value s
  | .niInject ni req more op len addr data => Sys2Proof.Machine.execNiInject ni req more op len addr data s
  | .packetEject ni src cls headerGood => Sys2Proof.Machine.execPacketEject ni src cls headerGood s
  | .responseArrive ni port txn latency => Sys2Proof.Machine.execResponseArrive ni port txn latency s
  | .linkReplay router dir => Sys2Proof.Machine.execLinkReplay router dir s
  | .linkFailed router dir => Sys2Proof.Machine.execLinkFailed router dir s
  | .niLinkDown ni plane position dir => Sys2Proof.Machine.execNiLinkDown ni plane position dir s
  | .detour ni plane position dir => Sys2Proof.Machine.execDetour ni plane position dir s
  | .txnTimeout ni port txn => Sys2Proof.Machine.execTxnTimeout ni port txn s
  | .fenceReq req ni port => Sys2Proof.Machine.execFenceReq req ni port s
  | .unfenceReq req ni port => Sys2Proof.Machine.execUnfenceReq req ni port s
  | .niFence ni => Sys2Proof.Machine.execNiFence ni s
  | .drainDone dest ni => Sys2Proof.Machine.execDrainDone dest ni s
  | .forceDrain dest => Sys2Proof.Machine.execForceDrain dest s
  | .niUnfence ni => Sys2Proof.Machine.execNiUnfence ni s
  | .epochFlip req sel => Sys2Proof.Machine.execEpochFlip req sel s
  | .copy req sel => Sys2Proof.Machine.execCopy req sel s
  | .copyDone ni => Sys2Proof.Machine.execCopyDone ni s
  | .routeHiWrite req sel value => Sys2Proof.Machine.execRouteHiWrite req sel value s
  | .inServiceWrite req sel value => Sys2Proof.Machine.execInServiceWrite req sel value s
  | .linkEnWrite req sel value => Sys2Proof.Machine.execLinkEnWrite req sel value s
  | .linkRetrainDone router dir pass => Sys2Proof.Machine.execLinkRetrainDone router dir pass s
  | .niClrHist req sel => Sys2Proof.Machine.execNiClrHist req sel s
  | .niClrBytes req sel => Sys2Proof.Machine.execNiClrBytes req sel s
  | .start req sel => Sys2Proof.Machine.execStart req sel s
  | .dmaAbort req sel => Sys2Proof.Machine.execDmaAbort req sel s
  | .resume req sel => Sys2Proof.Machine.execResume req sel s
  | .dmaEnd ch => Sys2Proof.Machine.execDmaEnd ch s
  | .move ch => Sys2Proof.Machine.execMove ch s
  | .movec ch => Sys2Proof.Machine.execMovec ch s
  | .loop ch => Sys2Proof.Machine.execLoop ch s
  | .endloop ch => Sys2Proof.Machine.execEndloop ch s
  | .waitEvent ch => Sys2Proof.Machine.execWaitEvent ch s
  | .waitReq ch => Sys2Proof.Machine.execWaitReq ch s
  | .waitTime ch => Sys2Proof.Machine.execWaitTime ch s
  | .waitKey ch => Sys2Proof.Machine.execWaitKey ch s
  | .dmaWaitMet ch => Sys2Proof.Machine.execDmaWaitMet ch s
  | .signalEvent ch => Sys2Proof.Machine.execSignalEvent ch s
  | .signalKey ch => Sys2Proof.Machine.execSignalKey ch s
  | .signalJournal ch => Sys2Proof.Machine.execSignalJournal ch s
  | .signalIrq ch => Sys2Proof.Machine.execSignalIrq ch s
  | .signalRing ch => Sys2Proof.Machine.execSignalRing ch s
  | .setptrSet ch => Sys2Proof.Machine.execSetptrSet ch s
  | .setptrAdd ch => Sys2Proof.Machine.execSetptrAdd ch s
  | .setptrLoad ch => Sys2Proof.Machine.execSetptrLoad ch s
  | .dmaNop ch => Sys2Proof.Machine.execDmaNop ch s
  | .badOp ch => Sys2Proof.Machine.execBadOp ch s
  | .pacedBurst ch withdrawn => Sys2Proof.Machine.execPacedBurst ch withdrawn s
  | .dmaWriteAck ch => Sys2Proof.Machine.execDmaWriteAck ch s
  | .busError engine => Sys2Proof.Machine.execBusError engine s
  | .dmaFetchReturn ch => Sys2Proof.Machine.execDmaFetchReturn ch s
  | .eventSet req sel word value => Sys2Proof.Machine.execEventSet req sel word value s
  | .eventClr req sel word value => Sys2Proof.Machine.execEventClr req sel word value s
  | .reqSwWrite req sel word value => Sys2Proof.Machine.execReqSwWrite req sel word value s
  | .regHiWrite req sel value => Sys2Proof.Machine.execRegHiWrite req sel value s
  | .dataRingHead fn ring value => Sys2Proof.Machine.execDataRingHead fn ring value s
  | .scrubRead scrubber => Sys2Proof.Machine.execScrubRead scrubber s
  | .scrubRewrite scrubber => Sys2Proof.Machine.execScrubRewrite scrubber s
  | .repaired entry => Sys2Proof.Machine.execRepaired entry s
  | .rawRead req cls sel skip => Sys2Proof.Machine.execRawRead req cls sel skip s
  | .rawWrite req cls sel skip => Sys2Proof.Machine.execRawWrite req cls sel skip s
  | .decodedRead req cls sel skip => Sys2Proof.Machine.execDecodedRead req cls sel skip s
  | .clrCounts req cls sel => Sys2Proof.Machine.execClrCounts req cls sel s
  | .clrErase req cls sel => Sys2Proof.Machine.execClrErase req cls sel s
  | .protoWrite req sel value => Sys2Proof.Machine.execProtoWrite req sel value s
  | .switched quad => Sys2Proof.Machine.execSwitched quad s
  | .recalGo req sel value => Sys2Proof.Machine.execRecalGo req sel value s
  | .recalDone lane line => Sys2Proof.Machine.execRecalDone lane line s
  | .adaptWindow lane levels transitions spoiled => Sys2Proof.Machine.execAdaptWindow lane levels transitions spoiled s
  | .txEnWrite req sel value => Sys2Proof.Machine.execTxEnWrite req sel value s
  | .ahnentTxMultiframe lane => Sys2Proof.Machine.execAhnentTxMultiframe lane s
  | .ahnentRxMultiframe lane blocks => Sys2Proof.Machine.execAhnentRxMultiframe lane blocks s
  | .ahnentTrainDone lane rx => Sys2Proof.Machine.execAhnentTrainDone lane rx s
  | .ahnentAlignTimeout lane => Sys2Proof.Machine.execAhnentAlignTimeout lane s
  | .idleEnter lane => Sys2Proof.Machine.execIdleEnter lane s
  | .idleExit lane => Sys2Proof.Machine.execIdleExit lane s
  | .ahnentRxIdle lane => Sys2Proof.Machine.execAhnentRxIdle lane s
  | .userCw req sel value => Sys2Proof.Machine.execUserCw req sel value s
  | .ahnentActiveWrite req sel value => Sys2Proof.Machine.execAhnentActiveWrite req sel value s
  | .rxCwRead req sel lane => Sys2Proof.Machine.execRxCwRead req sel lane s
  | .macFrameRx mac frame sub corrected uncorrected => Sys2Proof.Machine.execMacFrameRx mac frame sub corrected uncorrected s
  | .rxDescDone ring => Sys2Proof.Machine.execRxDescDone ring s
  | .macTxGrant mac sub => Sys2Proof.Machine.execMacTxGrant mac sub s
  | .macTxDone mac => Sys2Proof.Machine.execMacTxDone mac s
  | .pauseExpire mac state => Sys2Proof.Machine.execPauseExpire mac state s
  | .pauseBreak mac state => Sys2Proof.Machine.execPauseBreak mac state s
  | .pauseBreakEnd mac state => Sys2Proof.Machine.execPauseBreakEnd mac state s
  | .pfcXoff mac prio => Sys2Proof.Machine.execPfcXoff mac prio s
  | .pfcRepeat mac prio => Sys2Proof.Machine.execPfcRepeat mac prio s
  | .macLinkLoss mac localFault remoteFault => Sys2Proof.Machine.execMacLinkLoss mac localFault remoteFault s
  | .ethRingTail req sel bar4 value => Sys2Proof.Machine.execEthRingTail req sel bar4 value s
  | .flowDataWrite req sel w value => Sys2Proof.Machine.execFlowDataWrite req sel w value s
  | .flowClrStats req sel value => Sys2Proof.Machine.execFlowClrStats req sel value s
  | .macActiveWrite req sel value => Sys2Proof.Machine.execMacActiveWrite req sel value s
  | .stepGo req sel value => Sys2Proof.Machine.execStepGo req sel value s
  | .frameOffsetWrite req sel sfn value => Sys2Proof.Machine.execFrameOffsetWrite req sel sfn value s
  | .offsetGo req sel value => Sys2Proof.Machine.execOffsetGo req sel value s
  | .ppsInEdge sub => Sys2Proof.Machine.execPpsInEdge sub s
  | .servoHoldover tb => Sys2Proof.Machine.execServoHoldover tb s
  | .servoSourceWrite req sel value => Sys2Proof.Machine.execServoSourceWrite req sel value s
  | .refLost => Sys2Proof.Machine.execRefLost s
  | .refRestored => Sys2Proof.Machine.execRefRestored s
  | .edgePush req sel value => Sys2Proof.Machine.execEdgePush req sel value s
  | .tddEdgeFire pin => Sys2Proof.Machine.execTddEdgeFire pin s
  | .clrQueue req sel value => Sys2Proof.Machine.execClrQueue req sel value s
  | .ppsOutRise => Sys2Proof.Machine.execPpsOutRise s
  | .ppsOutFall => Sys2Proof.Machine.execPpsOutFall s
  | .timeSecLoRead req sel => Sys2Proof.Machine.execTimeSecLoRead req sel s
  | .creditLoRead req sel => Sys2Proof.Machine.execCreditLoRead req sel s
  | .bar0Read offset dwords => Sys2Proof.Machine.execBar0Read offset dwords s
  | .bar0Write offset dwords => Sys2Proof.Machine.execBar0Write offset dwords s
  | .bar2Read offset bytes => Sys2Proof.Machine.execBar2Read offset bytes s
  | .bar2Write offset data ep => Sys2Proof.Machine.execBar2Write offset data ep s
  | .msixSend vector => Sys2Proof.Machine.execMsixSend vector s
  | .msixAllocationWrite req sel value => Sys2Proof.Machine.execMsixAllocationWrite req sel value s
  | .pcieReadCompletion fn addr data ep => Sys2Proof.Machine.execPcieReadCompletion fn addr data ep s
  | .cplTimeout fn addr kind => Sys2Proof.Machine.execCplTimeout fn addr kind s
  | .perstNLow => Sys2Proof.Machine.execPerstNLow s
  | .pcieLinkUp speed width => Sys2Proof.Machine.execPcieLinkUp speed width s
  | .pcieLinkDown => Sys2Proof.Machine.execPcieLinkDown s
  | .coreFault core => Sys2Proof.Machine.execCoreFault core s
  | .engineFault engine => Sys2Proof.Machine.execEngineFault engine s
  | .unitParity entry index again => Sys2Proof.Machine.execUnitParity entry index again s
  | .faultClrMax req => Sys2Proof.Machine.execFaultClrMax req s
  | .faultClrCounts req => Sys2Proof.Machine.execFaultClrCounts req s
  | .cntSelWrite req cls sel counter value => Sys2Proof.Machine.execCntSelWrite req cls sel counter value s
  | .cntClr req cls sel value => Sys2Proof.Machine.execCntClr req cls sel value s
  | .collectSweep late => Sys2Proof.Machine.execCollectSweep late s
  | .sampleRingWrite course => Sys2Proof.Machine.execSampleRingWrite course s
  | .mark req value => Sys2Proof.Machine.execMark req value s
  | .traceEnable req value => Sys2Proof.Machine.execTraceEnable req value s
  | .tracePacketSend => Sys2Proof.Machine.execTracePacketSend s
  | .refMissing => Sys2Proof.Machine.execRefMissing s
  | .rootRefRestored => Sys2Proof.Machine.execRootRefRestored s
  | .avsUpdate millivolts => Sys2Proof.Machine.execAvsUpdate millivolts s
  | .avsAlarm domain => Sys2Proof.Machine.execAvsAlarm domain s
  | .avsSettled domain => Sys2Proof.Machine.execAvsSettled domain s
  | .poweredOff domain => Sys2Proof.Machine.execPoweredOff domain s
  | .powerUpGrant monitorsPass => Sys2Proof.Machine.execPowerUpGrant monitorsPass s
  | .poweredUp domain => Sys2Proof.Machine.execPoweredUp domain s
  | .keepRunWrite req sel value => Sys2Proof.Machine.execKeepRunWrite req sel value s
  | .keepCoreWfi core => Sys2Proof.Machine.execKeepCoreWfi core s
  | .courseFenceAllowance course => Sys2Proof.Machine.execCourseFenceAllowance course s
  | .tddOutSlotStart pin => Sys2Proof.Machine.execTddOutSlotStart pin s
  | .perstNHigh => Sys2Proof.Machine.execPerstNHigh s
  | .pcieConfigWrite fn bme msixEn timeout ats => Sys2Proof.Machine.execPcieConfigWrite fn bme msixEn timeout ats s
  | .bar4RingPageWrite fn offset value => Sys2Proof.Machine.execBar4RingPageWrite fn offset value s
  | .atsInvalidation page bytes => Sys2Proof.Machine.execAtsInvalidation page bytes s
  | .macLinkUp mac => Sys2Proof.Machine.execMacLinkUp mac s
  | .cdrLoss lane => Sys2Proof.Machine.execCdrLoss lane s
  | .faultStateDisagreement => Sys2Proof.Machine.execFaultStateDisagreement s
  | .vddIo18Low => Sys2Proof.Machine.execVddIo18Low s

end Sys2Proof.Machine
end

