-- ==== Sys2Proof/Safety.lean ====
section
/-! DEFINITION. What counts as a safe run, and the facts about a state that every step keeps, in the terms the claims use. -/
namespace Sys2Proof.Machine

/-- The books of an account agree (R203): MINTED − DRAWN = CREDIT + OUTSTANDING, modulo 2^64. -/
def Account.balanced (x : Account) : Prop := x.minted - x.drawn = x.credit + x.outstanding

/-- R203 in every account. -/
def State.booksOk (s : State) : Prop := ∀ a, (s.account a).balanced

/-- Every table of bytes is in its canonical form: the on-chip and bulk memories, their check bytes, and host memory. -/
def State.memOk (s : State) : Prop := Memory.wf s.mem ∧ Memory.wf s.chk ∧ Memory.wf s.host

/-- The register table lists each address once, in rising order. -/
def State.regsOk (s : State) : Prop := s.csr.Pairwise (fun p q => p.1 < q.1)

/-- A safe step: the machine goes on. -/
def State.goesOn (s : State) : Prop := ∃ t, step s = .next t

end Sys2Proof.Machine
end

