-- ==== Sys2Proof/Certificates/Slice0/Obligations.lean ====
section
/-! DEFINITION. The statements about the model, each named by what it states, and the terms they are written in. -/

namespace Sys2Proof.Claims

open Sys2Proof.Machine

/-- The fields of a register lie in its 32 bits, each with its low bit at or below its high bit, and no two share a bit. -/
def apart (fs : List FieldDef) : Prop :=
  (∀ f ∈ fs, f.lsb ≤ f.msb ∧ f.msb < 32) ∧ fs.Pairwise (fun f g => f.msb < g.lsb ∨ g.msb < f.lsb)

/-- A class whose registers only store: no write of one has an action of its own. -/
def plainClass (cls : Nat) : Bool :=
  !([0x00, 0x01, 0x02, 0x08, 0x09, 0x0A, 0x10, 0x11, 0x18, 0x19, 0x1A, 0x1B, 0x1C, 0x20, 0x21, 0x22, 0x23, 0x2A, 0x30, 0x31, 0x32,
    0x38, 0x39, 0x40, 0x41, 0x48, 0x49, 0x4A, 0x50, 0x51, 0x52, 0x58, 0x59, 0x5A, 0x60, 0x62, 0x63, 0x68, 0x69, 0x70, 0x71,
    0x79] : List Nat).contains cls

end Sys2Proof.Claims

section

open Sys2Proof Sys2Proof.Machine

/-- For every state `s`, command `c` and list `rest`: a step of `s` with the queue `c :: rest` is `exec c` of `s` with the queue
`rest`. Every other statement about `exec` reaches a run through this one. -/
def Obligations.StepRunsFrontCommand : Prop :=
  ∀ (s : State) (c : Instr) (rest : List Instr),
    step { s with pending := c :: rest } = exec c { s with pending := rest }

end

section

open Sys2Proof Sys2Proof.Machine

/-- The model's choice (log entry 2): on an empty queue a step is one cycle of REF. It answers a next state in which DEVCLK is one
more and the queue is still empty. Where Mortar has no flit, no fence request and no forced drain under way, memory, check bytes, host
memory, the books, the mode, the fences, the cores, Mortar and every register but CLK.STATUS are as before, and CLK.STATUS too before
Raising; from Raising on, with REF there, ROOT_LOCK and REF_PRESENT are 1 after the cycle if REF_PRESENT was 0. -/
def Obligations.IdleStepCountsDevclk : Prop :=
  ∀ s : State, s.pending = [] → ∃ t, step s = .next t ∧ t.devclk = s.devclk + 1 ∧ t.pending = [] ∧
    (s.mortar.flits = [] → s.mortar.fc = none → s.mortar.forcing = [] →
      t.mem = s.mem ∧ t.chk = s.chk ∧ t.host = s.host ∧ t.ledger.accounts = s.ledger.accounts ∧ t.modes = s.modes ∧
      t.fences = s.fences ∧ t.sett = s.sett ∧ t.mortar = s.mortar ∧
      (∀ c i o, csrKey c i o ≠ csrKey Reg.CLK.cls 0 0x004 → t.reg c i o = s.reg c i o) ∧
      (s.linkMode = false → t.csr = s.csr) ∧
      (s.linkMode = true → s.power.refGone = false → s.fld Reg.CLK.STATUS_REF_PRESENT 0 = 0 →
        t.fld Reg.CLK.STATUS_REF_PRESENT 0 = 1 ∧ t.fld Reg.CLK.STATUS_ROOT_LOCK 0 = 1))

end

section

open Sys2Proof Sys2Proof.Machine

/-- For every command and state: where `exec` answers a next state, the waiting commands are those that waited before. -/
def Obligations.QueueUntouched : Prop :=
  ∀ (c : Instr) (s t : State), exec c s = .next t → t.pending = s.pending

end

section

open Sys2Proof Sys2Proof.Machine

/-- For every state whose byte tables (memory, check bytes, host memory) list rising addresses and nothing that reads as an
unlisted byte does, and whose register table lists rising addresses: where a step answers a next state, the same holds of it.
Equal memories are thus equal data in every state a run from such a state reaches. -/
def Obligations.CanonicalFormKept : Prop :=
  ∀ s t : State, s.memOk ∧ s.regsOk → step s = .next t → t.memOk ∧ t.regsOk

end

section

open Sys2Proof Sys2Proof.Machine

/-- R203. For every state in which every account's books agree, MINTED − DRAWN = CREDIT + OUTSTANDING modulo 2^64: where a step
answers a next state, they agree in it, whatever command ran. -/
def Obligations.BooksAlwaysAgree : Prop :=
  ∀ s t : State, (∀ a, (s.account a).minted - (s.account a).drawn = (s.account a).credit + (s.account a).outstanding) →
    step s = .next t → ∀ a, (t.account a).minted - (t.account a).drawn = (t.account a).credit + (t.account a).outstanding

end

section

open Sys2Proof Sys2Proof.Machine

/-- The state after reset meets what the two invariants assume: canonical tables, and books that agree in every account. -/
def Obligations.ResetMeetsInvariants : Prop :=
  State.reset.memOk ∧ State.reset.regsOk ∧ State.reset.booksOk ∧ State.reset.pending = []

end

section

open Sys2Proof Sys2Proof.Machine

/-- R26: DEVCLK is reset only by power-on reset. For every command other than POWER_ON_RESET and FUSE_READ_DONE, a next state has
the DEVCLK of the state before; FUSE_READ_DONE, in Footing with the fuse read under way, leads to Bedding and leaves DEVCLK too unless the
Footing is a power-on reset's, and then it is zero (elsewhere it does nothing); POWER_ON_RESET leads to Footing with DEVCLK 0 and
RESET_CAUSE.POR alone.
(It counts in idle steps.)
Shown to complete with its own effect, under these hypotheses alone: fuseReadDone, powerOnReset. -/
def Obligations.DevclkResetOnlyByPowerOn : Prop :=
  (∀ (c : Instr) (s t : State), c ≠ .powerOnReset → c ≠ .fuseReadDone → exec c s = .next t → t.devclk = s.devclk) ∧
  (∀ s : State, s.modes.mode = .footing → s.power.fusing = true → ∃ t, exec .fuseReadDone s = .next t ∧ t.modes.mode = .bedding ∧
    t.power.fusing = false ∧ t.devclk = if s.power.por then 0 else s.devclk) ∧
  (∀ s : State, s.modes.mode ≠ .footing ∨ s.power.fusing = false → exec .fuseReadDone s = .next s) ∧
  (∀ s : State, ∃ t, exec .powerOnReset s = .next t ∧ t.devclk = 0 ∧ t.modes.mode = .footing ∧ t.reg 0x02 0 0x00C = 1)

end

section

open Sys2Proof Sys2Proof.Machine

/-- The spec stops the block on no command: for every command and every state, `exec` answers a next state, never a fault or a
refusal. -/
def Obligations.NoCommandStops : Prop :=
  ∀ (c : Instr) (s : State), ∃ t, exec c s = .next t

end

section

open Sys2Proof Sys2Proof.Machine

/-- R29, of the arbiter every chapter uses, with `n` requesters and a last-granted index `last` below `n`: it grants nobody
exactly when nobody asks; and when it grants `k`, `k` asks, and no requester asks that stands nearer after `last` than `k`
does, counting upwards with wrap-around. With the pointer at the highest index, index 0 wins when it asks. -/
def Obligations.ArbiterIsRoundRobin : Prop :=
  (∀ (n last : Nat) (asks : Nat → Bool), last < n → (rrPick n last asks = none ↔ ∀ k, k < n → asks k = false)) ∧
  (∀ (n last k : Nat) (asks : Nat → Bool), last < n → rrPick n last asks = some k →
    k < n ∧ asks k = true ∧ ∀ j, j < n → asks j = true → (k + n - last - 1) % n ≤ (j + n - last - 1) % n) ∧
  (∀ (n : Nat) (asks : Nat → Bool), 0 < n → asks 0 = true → rrPick n (n - 1) asks = some 0)

end

section

open Sys2Proof Sys2Proof.Machine

/-- R6, for every register definition whose fields lie in the word and apart from each other: after a word `v` is stored over
`w`, a field of type RW or RWS holds `v`'s bits, an RO or WO field is as before, a W1C field has lost exactly the bits that `v`
has at 1, a W1S field has gained exactly those, and a bit of no field is as before. -/
def Obligations.FieldTypesDecideTheStore : Prop :=
  ∀ (fs : List FieldDef) (w v : Word), Claims.apart fs →
    (∀ f ∈ fs, f.ty = .rw ∨ f.ty = .rws → wordField (storeFields fs w v) f.msb f.lsb = wordField v f.msb f.lsb) ∧
    (∀ f ∈ fs, f.ty = .ro ∨ f.ty = .wo → wordField (storeFields fs w v) f.msb f.lsb = wordField w f.msb f.lsb) ∧
    (∀ f ∈ fs, f.ty = .w1c → ∀ k, f.lsb ≤ k → k ≤ f.msb →
      (storeFields fs w v).getLsbD k = (w.getLsbD k && !v.getLsbD k)) ∧
    (∀ f ∈ fs, f.ty = .w1s → ∀ k, f.lsb ≤ k → k ≤ f.msb →
      (storeFields fs w v).getLsbD k = (w.getLsbD k || v.getLsbD k)) ∧
    (∀ k, (∀ f ∈ fs, k < f.lsb ∨ f.msb < k) → (storeFields fs w v).getLsbD k = w.getLsbD k)

end

section

open Sys2Proof Sys2Proof.Machine

/-- The register table of the model is well formed: for every register it lists, the fields lie within 32 bits and no two of them
share a bit. This is what the statement on field types assumes, and it makes reserved bits (R9) bits of no field. -/
def Obligations.RegisterFieldsApart : Prop :=
  ∀ (cls off : Nat) (r : RegDef), findReg cls off = some r → Claims.apart r.fields

end

section

open Sys2Proof Sys2Proof.Machine

/-- R10: a register write, by any requester and with any selector, to a register whose heading does not list the mode in force
answers a next state in which nothing at all has changed. -/
def Obligations.ModeForbidsRegisterWrite : Prop :=
  ∀ (req : Fin 14) (cls : BitVec 8) (sel offset : BitVec 10) (value : Word) (s : State) (r : RegDef),
    findReg cls.toNat (offset.toNat / 4 * 4) = some r → bitOf r.modes s.modes.mode.code = false →
    exec (.registerWrite req cls sel offset value) s = .next s

end

section

open Sys2Proof Sys2Proof.Machine

/-- R19 and R20, for a selector 0x200 + g of a class with groups: the write of a register that has no action of its own per
group answers the state that the member writes leave, one after another, each at an instance that is present, powered, not
fenced and has its GRP_MEMBER bit for g set before the write; the instances rise; and an instance that is none of them keeps
the register. The single selector of an absent, unpowered or fenced instance changes nothing. -/
def Obligations.GroupWriteReachesItsMembers : Prop :=
  (∀ (req : Fin 14) (cls : BitVec 8) (g : Fin 64) (off : BitVec 10) (v : Word) (s : State),
    classGroup cls.toNat = true → singleOnly cls.toNat (off.toNat / 4 * 4) = false →
    s.modes.mode ≠ .banked → s.modeTakes cls.toNat (off.toNat / 4 * 4) = true →
    exec (.registerWrite req cls (BitVec.ofNat 10 (0x200 + g.val)) off v) s =
      .next ((s.groupMembers cls.toNat g).foldl (fun t i => t.writeOne req cls.toNat i (off.toNat / 4 * 4) v) s)) ∧
  (∀ (cls g i : Nat) (s : State), i ∈ s.groupMembers cls g ↔ classGroup cls = true ∧ i ∈ instances cls ∧
    s.powered cls i = true ∧ s.fencedUnit cls i = false ∧ bitOf (s.reg cls i (0x370 + 4 * (g / 32))).toNat (g % 32) = true) ∧
  (∀ (cls g : Nat) (s : State), (s.groupMembers cls g).Pairwise (· < ·)) ∧
  (∀ (req : Fin 14) (cls : BitVec 8) (sel off : BitVec 10) (v : Word) (s : State), sel.toNat < 0x200 →
    cls.toNat ≠ 0x03 → isGrpOff (off.toNat / 4 * 4) = false →
    (instPresent cls.toNat sel.toNat = false ∨ s.powered cls.toNat sel.toNat = false ∨ s.fencedUnit cls.toNat sel.toNat = true) →
    exec (.registerWrite req cls sel off v) s = .next s)

end

section

open Sys2Proof Sys2Proof.Machine

/-- R66 with R20: in Banked only the BAR0 window issues CSR accesses. A register write by any other requester changes nothing
there. -/
def Obligations.BankedHubIsClosed : Prop :=
  ∀ (req : Fin 14) (cls : BitVec 8) (sel offset : BitVec 10) (value : Word) (s : State),
    s.modes.mode = .banked → req.val ≠ 9 → exec (.registerWrite req cls sel offset value) s = .next s

end

section

open Sys2Proof Sys2Proof.Machine

/-- A write with a single selector to a present, powered, unfenced instance, outside Banked or by BAR0, in a mode that the register
lists, of a register that only stores (LEDGER, METER, PWR, PTP_PORT, COLLECT, HARQ base registers and the like: a class whose
writes have no action): the next state holds the word stored by field type there, and every register at another address, all of
memory and every field of the state beside the registers are as before.
Shown to complete with its own effect, under these hypotheses alone: registerWrite. -/
def Obligations.PlainRegisterWriteStores : Prop :=
  ∀ (req : Fin 14) (cls : BitVec 8) (sel off : BitVec 10) (v : Word) (s : State) (r : RegDef),
    Claims.plainClass cls.toNat = true → off.toNat % 4 = 0 → off.toNat < 0x380 → sel.toNat < 0x200 →
    instPresent cls.toNat sel.toNat = true → s.powered cls.toNat sel.toNat = true →
    s.fencedUnit cls.toNat sel.toNat = false → s.hubTakes req = true → findReg cls.toNat off.toNat = some r →
    bitOf r.modes s.modes.mode.code = true →
    ∃ t, exec (.registerWrite req cls sel off v) s = .next t ∧
      t.reg cls.toNat sel.toNat off.toNat = storeFields r.fields (s.reg cls.toNat sel.toNat off.toNat) v ∧
      (∀ c i o, csrKey c i o ≠ csrKey cls.toNat sel.toNat off.toNat → t.reg c i o = s.reg c i o) ∧
      { t with csr := s.csr } = s

end

namespace Sys2Proof.Claims

open Sys2Proof.Machine

/-- The turn of slot `j` (MAC0 0, MAC1 1, LS 2, SB 3) of core `c` with opcode `op`: a task runs on the core, nothing holds it, the
bundle at its PC is legal and reads without poison, its earlier slots have been read, and `w` is the slot's word in it (R128). -/
def Turn (s : State) (c j op w : Nat) : Prop :=
  ∃ b, s.slotDue c j = some b ∧ slotWord b j = w ∧ slotOp w j = op ∧ (s.bundleNow c).2 = false

/-- Lane i of the first and the second source of a MAC slot's word, and of its accumulator source as extracts and moves see it. -/
def srcA (k : Core) (w i : Nat) : Int := lane (k.rV (macA w)) i
def srcB (k : Core) (w i : Nat) : Int := lane (k.rV (macB w)) i
def accA (k : Core) (w i : Nat) : Int := accLane (k.rVX (macA w)) i

/-- Bit i of the predicate that a MAC slot's word names (R133). -/
def pred (k : Core) (w i : Nat) : Bool := (k.rP (macP w)).getLsbD i

/-- A row of R134 with a vector destination: the command, its opcode, its latency (R131), its count of MACs, and the exact value
of lane i. -/
structure LaneRow where
  cmd : Fin 192 → Fin 2 → Instr
  op : Nat
  lat : Nat
  macs : Nat
  val : Core → Nat → Nat → Int

/-- The rows whose lanes take the value modulo 2^16. -/
def wrapRows : List LaneRow :=
  [⟨.vadd, 0x10, 2, 0, fun k w i => srcA k w i + srcB k w i⟩,
   ⟨.vsub, 0x12, 2, 0, fun k w i => srcA k w i - srcB k w i⟩,
   ⟨.vshr, 0x15, 2, 0, fun k w i => srcA k w i / 2 ^ (w % 16)⟩,
   ⟨.vshl, 0x16, 2, 0, fun k w i => srcA k w i * 2 ^ (w % 16)⟩,
   ⟨.vmax, 0x1B, 2, 0, fun k w i => max (srcA k w i) (srcB k w i)⟩,
   ⟨.vmin, 0x1C, 2, 0, fun k w i => min (srcA k w i) (srcB k w i)⟩,
   ⟨.vswapiq, 0x20, 2, 0, fun k w i => srcA k w (if i % 2 = 0 then i + 1 else i - 1)⟩,
   ⟨.valign, 0x24, 2, 0, fun k w i => if i + w % 32 < 32 then srcA k w (i + w % 32) else srcB k w (i + w % 32 - 32)⟩,
   ⟨.vbcast, 0x25, 2, 0, fun k w i => ((k.rS (macA w)).toNat / 2 ^ (16 * (i % 2)) : Nat)⟩,
   ⟨.vmov, 0x26, 2, 0, fun k w i => srcA k w i⟩,
   ⟨.vext, 0x0C, 3, 0, fun k w i => accA k w i / 2 ^ (w % 32)⟩,
   ⟨.vextr, 0x0E, 3, 0, fun k w i => accA k w i / 2 ^ min 31 (k.rS (macB w)).toNat⟩]

/-- The rows whose lanes saturate to int16 and set SAT. -/
def satRows : List LaneRow :=
  [⟨.vadds, 0x11, 2, 0, fun k w i => srcA k w i + srcB k w i⟩,
   ⟨.vsubs, 0x13, 2, 0, fun k w i => srcA k w i - srcB k w i⟩,
   ⟨.vmulq, 0x14, 2, 32, fun k w i => srcA k w i * srcB k w i / 2 ^ 15⟩,
   ⟨.vshls, 0x17, 2, 0, fun k w i => srcA k w i * 2 ^ (w % 16)⟩,
   ⟨.vabs, 0x1D, 2, 0, fun k w i => |srcA k w i|⟩,
   ⟨.vneg, 0x1E, 2, 0, fun k w i => -srcA k w i⟩,
   ⟨.vconj, 0x1F, 2, 0, fun k w i => if i % 2 = 1 then -srcA k w i else srcA k w i⟩,
   ⟨.vexts, 0x0D, 3, 0, fun k w i => accA k w i / 2 ^ (w % 32)⟩,
   ⟨.vextrs, 0x0F, 3, 0, fun k w i => accA k w i / 2 ^ min 31 (k.rS (macB w)).toNat⟩]

/-- The real and imaginary products of R135 for lane i, of a × b or of a × conj(b). -/
def cplx (k : Core) (w : Nat) (conj : Bool) (i : Nat) : Int :=
  let ar := srcA k w (i / 2 * 2)
  let ai := srcA k w (i / 2 * 2 + 1)
  let br := srcB k w (i / 2 * 2)
  let bi := srcB k w (i / 2 * 2 + 1)
  if i % 2 = 0 then (if conj then ar * br + ai * bi else ar * br - ai * bi)
  else (if conj then ai * br - ar * bi else ar * bi + ai * br)

/-- A row of R134 that accumulates: the command, its opcode, the first of its lanes and how many it has, and the term of lane i. -/
structure AccRow where
  cmd : Fin 192 → Fin 2 → Instr
  op : Nat
  first : Nat
  count : Nat
  term : Core → Nat → Nat → Int

def accRows : List AccRow :=
  [⟨.vmac, 0x01, 0, 32, fun k w i => srcA k w i * srcB k w i⟩,
   ⟨.vmsu, 0x02, 0, 32, fun k w i => -(srcA k w i * srcB k w i)⟩,
   ⟨.vcmacL, 0x04, 0, 16, fun k w i => cplx k w false i⟩,
   ⟨.vcmacH, 0x05, 16, 16, fun k w i => cplx k w false i⟩,
   ⟨.vcmacjL, 0x06, 0, 16, fun k w i => cplx k w true i⟩,
   ⟨.vcmacjH, 0x07, 16, 16, fun k w i => cplx k w true i⟩]

/-- The rows that load an accumulator and clear its OV bit. -/
def accLoadRows : List LaneRow :=
  [⟨.vmul, 0x03, 1, 32, fun k w i => srcA k w i * srcB k w i⟩,
   ⟨.vaclr, 0x08, 1, 0, fun _ _ _ => 0⟩,
   ⟨.vald, 0x09, 1, 0, fun k w i => srcA k w i * 2 ^ min 24 (w % 32)⟩,
   ⟨.vamov, 0x0A, 1, 0, fun k w i => accA k w i⟩]

/-- Whether an exact value fits a 40-bit lane. -/
def fits40 (x : Int) : Prop := -(2 ^ 39) ≤ x ∧ x ≤ 2 ^ 39 - 1

/-- A value as a two's-complement number of `n` bits. -/
def wrapped (n : Nat) (x : Int) : Int := (BitVec.ofInt n x).toInt

/-- The 40-bit mask bit of an accumulator's lane. -/
def laneBits (m : BitVec 1280) (i : Nat) : BitVec 40 := m.extractLsb' (40 * i) 40

end Sys2Proof.Claims

section

open Sys2Proof Sys2Proof.Machine

/-- For VADD, VSUB, VSHR, VSHL, VMAX, VMIN, VSWAPIQ, VALIGN, VBCAST, VMOV, VEXT and VEXTR, in either MAC slot of any core at the
slot's turn: the command answers the next state in which the bundle in execution has gained exactly one write, at the
instruction's latency, of the physical register that the D field names, under the mask of the lanes its predicate selects; lane i
of the value written is the exact result of R134 (R111 for the extracts, whose shift above 31 acts as 31) modulo 2^16. SAT and OV
are not written. Nothing else in the machine changes: `stageSlot` changes the bundle in execution and what the core has fetched.
Shown to complete with its own effect, under these hypotheses alone: vadd, vsub, vshr, vshl, vmax, vmin, vswapiq, valign, vbcast, vmov,
vext, vextr. -/
def Obligations.SettWrappingVectorLanes : Prop :=
  ∀ r ∈ Claims.wrapRows, ∀ (c : Fin 192) (m : Fin 2) (s : State) (w : Nat), Claims.Turn s c m r.op w →
    ∃ x, exec (r.cmd c m) s = .next (s.stageSlot c m
        { writes := [(r.lat, .v ((s.core c).phys (macD w)) x (vMask ((s.core c).rP (macP w))))], macs := r.macs }) ∧
      ∀ i, i < 32 → lane x i = Claims.wrapped 16 (r.val (s.core c) w i)

end

section

open Sys2Proof Sys2Proof.Machine

/-- For VADDS, VSUBS, VMULQ, VSHLS, VABS, VNEG, VCONJ, VEXTS and VEXTRS, in either MAC slot of any core at the slot's turn: the
command answers the next state in which the bundle has gained a write of the D field's physical register under the predicate's
mask, whose lane i is the exact result of R134 held within −32,768 and 32,767; it has gained a write of 1 to SAT exactly when
some lane that the predicate selects lies outside (a disabled lane never sets SAT, R133); and nothing else.
Shown to complete with its own effect, under these hypotheses alone: vadds, vsubs, vmulq, vshls, vabs, vneg, vconj, vexts, vextrs. -/
def Obligations.SettSaturatingVectorLanes : Prop :=
  ∀ r ∈ Claims.satRows, ∀ (c : Fin 192) (m : Fin 2) (s : State) (w : Nat), Claims.Turn s c m r.op w →
    ∃ x sat, exec (r.cmd c m) s = .next (s.stageSlot c m
        { writes := (r.lat, .v ((s.core c).phys (macD w)) x (vMask ((s.core c).rP (macP w)))) :: sat, macs := r.macs }) ∧
      (∀ i, i < 32 → lane x i = max (-32768) (min 32767 (r.val (s.core c) w i))) ∧
      ((∃ i, i < 32 ∧ Claims.pred (s.core c) w i = true ∧
          (r.val (s.core c) w i < -32768 ∨ 32767 < r.val (s.core c) w i)) → sat = [(3, .sat true)]) ∧
      ((∀ i, i < 32 → Claims.pred (s.core c) w i = true →
          -32768 ≤ r.val (s.core c) w i ∧ r.val (s.core c) w i ≤ 32767) → sat = [])

end

section

open Sys2Proof Sys2Proof.Machine

/-- VAND, VOR and VXOR write Vd with the bitwise result under the predicate; VCMPGT and VCMPEQ write predicate Pd, bit i being the
signed comparison of lane i, under the mask of Pp (so a bit disabled by Pp keeps its value); VSEL writes every lane of Vd, lane i
from Va where bit i of Pp is 1 and from Vb where it is 0; VNOP adds nothing to the bundle. Nothing else changes.
Shown to complete with its own effect, under these hypotheses alone: vand, vor, vxor, vcmpgt, vcmpeq, vsel, vnop. -/
def Obligations.SettBitwiseCompareSelect : Prop :=
  ∀ (c : Fin 192) (m : Fin 2) (s : State) (w : Nat),
    (∀ r ∈ ([(.vand, 0x18, fun a b => a &&& b), (.vor, 0x19, fun a b => a ||| b), (.vxor, 0x1A, fun a b => a ^^^ b)] :
        List ((Fin 192 → Fin 2 → Instr) × Nat × (BitVec 512 → BitVec 512 → BitVec 512))),
      Claims.Turn s c m r.2.1 w → exec (r.1 c m) s = .next (s.stageSlot c m
        { writes := [(2, .v ((s.core c).phys (macD w)) (r.2.2 ((s.core c).rV (macA w)) ((s.core c).rV (macB w)))
            (vMask ((s.core c).rP (macP w))))] })) ∧
    (∀ r ∈ ([(.vcmpgt, 0x21, fun a b => decide (b < a)), (.vcmpeq, 0x22, fun a b => decide (a = b))] :
        List ((Fin 192 → Fin 2 → Instr) × Nat × (Int → Int → Bool))),
      Claims.Turn s c m r.2.1 w → ∃ x : Word, exec (r.1 c m) s = .next (s.stageSlot c m
        { writes := [(2, .p (macD w % 8) x ((s.core c).rP (macP w)))] }) ∧
        ∀ i, i < 32 → x.getLsbD i = r.2.2 (Claims.srcA (s.core c) w i) (Claims.srcB (s.core c) w i)) ∧
    (Claims.Turn s c m 0x23 w → ∃ x, exec (.vsel c m) s = .next (s.stageSlot c m
        { writes := [(2, .v ((s.core c).phys (macD w)) x (vMask 0xFFFFFFFF))] }) ∧
        ∀ i, i < 32 → lane x i = if Claims.pred (s.core c) w i = true then Claims.srcA (s.core c) w i
          else Claims.srcB (s.core c) w i) ∧
    (Claims.Turn s c m 0x3F w → exec (.vnop c m) s = .next (s.stageSlot c m {}))

end

section

open Sys2Proof Sys2Proof.Machine

/-- For VMAC, VMSU and the four VCMAC forms, in either MAC slot of any core at the slot's turn: the command answers the next state in
which the bundle has gained 32 MACs and the two writes of VAd (seen by accumulating instructions after 1 bundle, by extracts and
moves after 3), whose lane i is old lane i plus the exact term, modulo 2^40; the lanes written are those of the form that the
predicate selects, and no others; OV[d] is set exactly when the exact sum of one of them cannot be held in 40 bits, and is never
cleared. Nothing else changes.
Shown to complete with its own effect, under these hypotheses alone: vmac, vmsu, vcmacL, vcmacH, vcmacjL, vcmacjH. -/
def Obligations.SettAccumulate : Prop :=
  ∀ r ∈ Claims.accRows, ∀ (c : Fin 192) (m : Fin 2) (s : State) (w : Nat), Claims.Turn s c m r.op w →
    let k := s.core c
    let d := macD w % 8
    let sum (i : Nat) : Int := accLane (k.rVA d) i + r.term k w i
    let on (i : Nat) : Prop := r.first ≤ i ∧ i < r.first + r.count ∧ Claims.pred k w i = true
    ∃ x mask ov, exec (r.cmd c m) s = .next (s.stageSlot c m
        { writes := [(1, .va d x mask), (3, .vx d x mask)] ++ ov, macs := 32 }) ∧
      (∀ i, i < 32 → accLane x i = Claims.wrapped 40 (sum i)) ∧
      (∀ i, i < 32 → (on i → Claims.laneBits mask i = BitVec.allOnes 40) ∧ (¬ on i → Claims.laneBits mask i = 0)) ∧
      ((∃ i, i < 32 ∧ on i ∧ ¬ Claims.fits40 (sum i)) → ov = [(3, .ov (BitVec.ofNat 8 (2 ^ d)) (BitVec.ofNat 8 (2 ^ d)))]) ∧
      ((∀ i, i < 32 → on i → Claims.fits40 (sum i)) → ov = [])

end

section

open Sys2Proof Sys2Proof.Machine

/-- At the slot's turn: VMUL, VACLR, VALD (shift above 24 acting as 24) and VAMOV write VAd's selected lanes with the exact value
modulo 2^40 and clear OV[d] whatever the predicate selects. VARED writes lane 0 with the sum of the even lanes and lane 1 with that
of the odd lanes, or lane 0 with the sum of all (IMM[0] = 1), other lanes zero, at latency 4; OV[d] becomes 1 when OV[a] is 1 or a
selected sum cannot be held in 40 bits, and 0 otherwise. Nothing else changes.
Shown to complete with its own effect, under these hypotheses alone: vared, vmul, vaclr, vald, vamov. -/
def Obligations.SettAccumulatorLoads : Prop :=
  (∀ r ∈ Claims.accLoadRows, ∀ (c : Fin 192) (m : Fin 2) (s : State) (w : Nat), Claims.Turn s c m r.op w →
    ∃ x, exec (r.cmd c m) s = .next (s.stageSlot c m
        { writes := [(1, .va (macD w % 8) x (vaMask ((s.core c).rP (macP w)))), (3, .vx (macD w % 8) x (vaMask ((s.core c).rP (macP w)))),
            (3, .ov 0 (BitVec.ofNat 8 (2 ^ (macD w % 8))))], macs := r.macs }) ∧
      ∀ i, i < 32 → accLane x i = Claims.wrapped 40 (r.val (s.core c) w i)) ∧
  (∀ (c : Fin 192) (m : Fin 2) (s : State) (w : Nat), Claims.Turn s c m 0x0B w →
    let k := s.core c
    let half (o : Nat) : Int := ((List.range 16).map (fun j => Claims.accA k w (2 * j + o))).sum
    let sum (i : Nat) : Int :=
      if w % 2 = 1 then (if i = 0 then half 0 + half 1 else 0) else if i = 0 then half 0 else if i = 1 then half 1 else 0
    ∃ x ov, exec (.vared c m) s = .next (s.stageSlot c m
        { writes := [(4, .va (macD w % 8) x (vaMask (k.rP (macP w)))), (4, .vx (macD w % 8) x (vaMask (k.rP (macP w)))),
            (3, .ov ov (BitVec.ofNat 8 (2 ^ (macD w % 8))))] }) ∧
      (∀ i, i < 32 → accLane x i = Claims.wrapped 40 (sum i)) ∧
      ((k.ov.getLsbD (macA w % 8) = true ∨ ∃ i, i < 32 ∧ Claims.pred k w i = true ∧ ¬ Claims.fits40 (sum i)) →
        ov = BitVec.ofNat 8 (2 ^ (macD w % 8))) ∧
      (k.ov.getLsbD (macA w % 8) = false ∧ (∀ i, i < 32 → Claims.pred k w i = true → Claims.fits40 (sum i)) → ov = 0))

end

section

open Sys2Proof Sys2Proof.Machine

/-- R133 and R103, of a register write as it lands: in the vector register written, lane i takes the value's lane where the
predicate's bit i is 1 and keeps its own where it is 0; the same holds of an accumulator's 40-bit lanes; every other vector
register and accumulator is as before. A write of predicate register 0 changes nothing, and P0 reads as all ones in every state
of a core. -/
def Obligations.SettWritesMergeByLane : Prop :=
  (∀ (k : Core) (n j : Nat) (x : BitVec 512) (p : Word),
    (∀ i, i < 32 → lane (tget 0 (k.put (.v n x (vMask p))).v n) i =
      if p.getLsbD i = true then lane x i else lane (tget 0 k.v n) i) ∧
    (j ≠ n → tget 0 (k.put (.v n x (vMask p))).v j = tget 0 k.v j)) ∧
  (∀ (k : Core) (n j : Nat) (x : BitVec 1280) (p : Word),
    (∀ i, i < 32 → accLane (tget 0 (k.put (.va n x (vaMask p))).va n) i =
      if p.getLsbD i = true then accLane x i else accLane (tget 0 k.va n) i) ∧
    (j ≠ n → tget 0 (k.put (.va n x (vaMask p))).va j = tget 0 k.va j)) ∧
  (∀ (k : Core) (x m : Word), k.put (.p 0 x m) = k ∧ k.rP 0 = 0xFFFFFFFF)

end

namespace Sys2Proof.Claims

open Sys2Proof.Machine

/-- The address an LS slot's word names: An as it stands before the post-modify (R106). -/
def lsAddr (k : Core) (w : Nat) : Nat := (k.rA (lsA w)).toNat

/-- A load of R136: command, opcode, size in bytes, kind, and the predicate under which it merges. -/
structure LoadRow where
  cmd : Fin 192 → Instr
  op : Nat
  size : Nat
  kind : LoadKind
  mask : Core → Nat → Word

def loadRows : List LoadRow :=
  [⟨.vld, 0x01, 64, .vec, fun k w => k.rP (lsP w)⟩, ⟨.vldbc, 0x04, 4, .bcast, fun k w => k.rP (lsP w)⟩,
   ⟨.ldw, 0x05, 4, .word, fun _ _ => 0⟩, ⟨.ldh, 0x06, 2, .half, fun _ _ => 0⟩, ⟨.ldhu, 0x07, 2, .halfu, fun _ _ => 0⟩]

/-- The register writes that the load of the bundle in execution makes, from the core's own local data. -/
def loadedWrites (s : State) (c : Nat) : List (Nat × RegWrite) :=
  match (s.core c).stage.load with
  | none => []
  | some l => (l.results ((s.readMem l.addr l.len).1.map (·.1))).map (fun x => (4, x))

/-- The bundle in execution raises nothing, submits no CMU command, and its load, if any, reads unpoisoned own local data. -/
def CleanBundle (s : State) (c : Nat) : Prop :=
  (s.core c).stage.excs = [] ∧ (s.core c).stage.cmuq = none ∧
  ∀ l, (s.core c).stage.load = some l → s.whereIs c l.addr = .local_ ∧ (s.readMem l.addr l.len).1.any (·.2) = false

/-- The stores of the bundle in execution that leave the core over Mortar: those outside its own local data (R108). -/
def farStores (s : State) (c : Nat) : List (List (Nat × List Byte)) :=
  (s.core c).stage.stores.filter (fun runs => match runs with
    | [] => false
    | (a, _) :: _ => decide (s.whereIs c a ≠ .local_))

/-- A row of R137 that only writes registers and moves the PC: the command, its opcode, the writes with their latencies, and the
PC after it. -/
structure ScalarRow where
  cmd : Fin 192 → Instr
  op : Nat
  writes : Core → Nat → List (Nat × RegWrite)
  pc : Core → Nat → BitVec 16

/-- Sa and Sb of a scalar instruction, and the write of Sd. -/
def sa (k : Core) (w : Nat) : Word := k.rS (sbA w)
def sb (k : Core) (w : Nat) : Word := k.rS (sbB w)
def sd (lat : Nat) (x : Core → Nat → Word) (k : Core) (w : Nat) : List (Nat × RegWrite) :=
  [(lat, .s (k.phys (sbD w)) (x k w) 0xFFFFFFFF)]

/-- The PC of the next bundle, and of a branch's target bundle. -/
def nextPc (k : Core) (_ : Nat) : BitVec 16 := k.pc + 16
def target (_ : Core) (w : Nat) : BitVec 16 := BitVec.ofNat 16 (16 * (w % 2 ^ 12))

/-- Sb[7:0] × 2^32 + Sa. -/
def wideAddr (k : Core) (w : Nat) : BitVec 40 := BitVec.ofNat 40 (2 ^ 32 * (sb k w).toNat + (sa k w).toNat)

/-- What MOVS reads, by source class (R137); index 16-31 is rotated as R139 says. -/
def movsSource (k : Core) (w : Nat) : Word :=
  match w / 2 ^ 8 % 16 with
  | 0 => k.rM (k.phys (sbA w))
  | 1 => k.lc
  | 2 => (k.rL (k.phys (sbA w))).zeroExtend 32
  | 3 => k.rP (k.phys (sbA w))
  | 4 => (k.rA (k.phys (sbA w))).truncate 32
  | 5 => ((k.rA (k.phys (sbA w))) >>> 32).truncate 32
  | 6 => (k.rB (k.phys (sbA w))).truncate 32
  | 7 => ((k.rB (k.phys (sbA w))) >>> 32).truncate 32
  | 8 => BitVec.ofNat 32 (k.ov.toNat + if k.sat then 256 else 0)
  | 9 => k.rot.zeroExtend 32
  | _ => 0

def arithmeticRows : List ScalarRow :=
  [⟨.sadd, 0x01, sd 1 (fun k w => sa k w + sb k w), nextPc⟩,
   ⟨.ssub, 0x02, sd 1 (fun k w => sa k w - sb k w), nextPc⟩,
   ⟨.smul, 0x03, sd 2 (fun k w => sa k w * sb k w), nextPc⟩,
   ⟨.sand, 0x04, sd 1 (fun k w => sa k w &&& sb k w), nextPc⟩,
   ⟨.sor, 0x05, sd 1 (fun k w => sa k w ||| sb k w), nextPc⟩,
   ⟨.sxor, 0x06, sd 1 (fun k w => sa k w ^^^ sb k w), nextPc⟩,
   ⟨.sshl, 0x07, sd 1 (fun k w => sa k w <<< ((sb k w).toNat % 32)), nextPc⟩,
   ⟨.sshr, 0x08, sd 1 (fun k w => (sa k w).sshiftRight ((sb k w).toNat % 32)), nextPc⟩,
   ⟨.sshru, 0x09, sd 1 (fun k w => sa k w >>> ((sb k w).toNat % 32)), nextPc⟩,
   ⟨.sslt, 0x0A, sd 1 (fun k w => if (sa k w).toInt < (sb k w).toInt then 1 else 0), nextPc⟩,
   ⟨.ssltu, 0x0B, sd 1 (fun k w => if (sa k w).toNat < (sb k w).toNat then 1 else 0), nextPc⟩,
   ⟨.smin, 0x0C, sd 1 (fun k w => if (sa k w).toInt < (sb k w).toInt then sa k w else sb k w), nextPc⟩,
   ⟨.smax, 0x0D, sd 1 (fun k w => if (sa k w).toInt < (sb k w).toInt then sb k w else sa k w), nextPc⟩,
   ⟨.saddi, 0x0E, sd 1 (fun k w => sa k w + (BitVec.ofNat 12 w).signExtend 32), nextPc⟩,
   ⟨.smovi, 0x0F, sd 1 (fun _ w => (BitVec.ofNat 16 w).signExtend 32), nextPc⟩,
   ⟨.smovhi, 0x10, fun k w => [(1, .s (k.phys (sbD w)) (BitVec.ofNat 32 (2 ^ 16 * (w % 2 ^ 16))) 0xFFFF0000)], nextPc⟩]

def moveRows : List ScalarRow :=
  [⟨.movm, 0x11, fun k w => [(1, .m (sbD w % 16) (sa k w))], nextPc⟩,
   ⟨.movlc, 0x12, fun k w => [(1, .lc (sa k w))], nextPc⟩,
   ⟨.movl, 0x13, fun k w => [(1, .l (sbD w % 8) ((sa k w).truncate 24))], nextPc⟩,
   ⟨.movp, 0x14, fun k w => [(1, .p (sbD w % 8) (sa k w) 0xFFFFFFFF)], nextPc⟩,
   ⟨.mova, 0x15, fun k w => [(1, .a (sbD w % 16) (wideAddr k w))], nextPc⟩,
   ⟨.movb, 0x16, fun k w => [(1, .b (sbD w % 8) (wideAddr k w))], nextPc⟩,
   ⟨.movs, 0x17, sd 1 movsSource, nextPc⟩,
   ⟨.satclr, 0x18, fun _ _ => [(3, .sat false)], nextPc⟩,
   ⟨.snop, 0x3F, fun _ _ => [], nextPc⟩]

/-- The compare branches take Sa from the D field and Sb from the A field. -/
def branchRows : List ScalarRow :=
  [⟨.beq, 0x19, fun _ _ => [], fun k w => if k.rS (sbD w) = k.rS (sbA w) then target k w else nextPc k w⟩,
   ⟨.bne, 0x1A, fun _ _ => [], fun k w => if k.rS (sbD w) = k.rS (sbA w) then nextPc k w else target k w⟩,
   ⟨.blt, 0x1B, fun _ _ => [], fun k w => if (k.rS (sbD w)).toInt < (k.rS (sbA w)).toInt then target k w else nextPc k w⟩,
   ⟨.bge, 0x1C, fun _ _ => [], fun k w => if (k.rS (sbD w)).toInt < (k.rS (sbA w)).toInt then nextPc k w else target k w⟩,
   ⟨.j, 0x1D, fun _ _ => [], target⟩,
   ⟨.jal, 0x1E, sd 1 (fun k _ => (k.pc + 16).zeroExtend 32), target⟩,
   ⟨.jr, 0x1F, fun _ _ => [], fun k w => BitVec.ofNat 16 ((sa k w).toNat % 2 ^ 16 / 16 * 16)⟩,
   ⟨.bpany, 0x20, fun _ _ => [], fun k w => if k.rP (w / 2 ^ 19 % 8) = 0 then nextPc k w else target k w⟩,
   ⟨.bpnone, 0x21, fun _ _ => [], fun k w => if k.rP (w / 2 ^ 19 % 8) = 0 then target k w else nextPc k w⟩]

/-- What a bundle that retires leaves of its core: the writes `ws` landed, the stores outside the own local data joined to the
outstanding ones, the next bundle unread; PC, ROT and LC are stated beside it. -/
def retired (s : State) (c : Nat) (ws : List (Nat × RegWrite)) : Core :=
  { (s.core c).putAll ws with
      stage := .reset, remote := false, waiting := false, stepping := false
      stores := (s.core c).stores ++ farStores s c }

/-- Every piece of state that no bundle touches when it retires: all but the register table, memory, the cores and CMUs, the
journal, sampling, the memory system, the count of free values, and what the report of a corrected word in a load changes (the
fault manager's recoveries and the stretch level's hold). -/
def besideCores (s t : State) : Prop :=
  t.pending = s.pending ∧ t.disp = s.disp ∧ t.hold = s.hold ∧ t.returned = s.returned ∧ t.devclk = s.devclk ∧ t.modes = s.modes ∧
  t.fences = s.fences ∧ t.dvorys = s.dvorys ∧ t.mortar = s.mortar ∧ t.pcie = s.pcie ∧
  t.power = s.power ∧ t.time = s.time ∧ t.streams = s.streams ∧ t.lanes = s.lanes ∧
  t.engines = s.engines ∧ t.witness = s.witness ∧ t.dma = s.dma ∧ t.eth = s.eth ∧ t.host = s.host

end Sys2Proof.Claims

section

open Sys2Proof Sys2Proof.Machine

/-- At the LS slot's turn: each load joins its access at the old An to the bundle, with its size, kind, destination and predicate;
VST, STW and STH join their bytes at the old An (VST those of the lanes its predicate selects); VLDST both, the predicate for the
store only, and the exceptions of both; AADD only the post-modify; LNOP nothing; CMUQ its command's address, or it waits while four
of the core's commands are queued or executing. Each post-modifies An where MOD is 1. A misaligned address, program memory, unmapped
or CSR space raise MISALIGN (2), PROG_ACCESS (6) and DECODE (4), slot 2, before any access. Nothing else changes.
Shown to complete with its own effect, under these hypotheses alone: vst, stw, sth, vldst, cmuq, aadd, lnop, vld, vldbc, ldw, ldh, ldhu. -/
def Obligations.SettLoadStoreSlot : Prop :=
  ∀ (c : Fin 192) (s : State) (w : Nat),
    let k := s.core c
    let a := Claims.lsAddr k w
    let post := if w / 2 ^ 20 % 2 = 1 then [(1, RegWrite.a (lsA w) (k.postMod (lsA w) (lsM w)))] else []
    (∀ r ∈ Claims.loadRows, Claims.Turn s c 2 r.op w → exec (r.cmd c) s = .next (s.stageSlot c 2
      { writes := post, load := some ⟨a, r.size, r.kind, k.phys (lsR w), r.mask k w⟩, excs := s.accessExcs c a r.size, daddr := a })) ∧
    (Claims.Turn s c 2 0x02 w → exec (.vst c) s = .next (s.stageSlot c 2
      { writes := post, stores := [storeRuns a (k.rV (lsR w)) (k.rP (lsP w))], excs := s.accessExcs c a 64, daddr := a })) ∧
    (Claims.Turn s c 2 0x08 w → exec (.stw c) s = .next (s.stageSlot c 2
      { writes := post, stores := [[(a, leBytes 4 (k.rS (lsR w)).toNat)]], excs := s.accessExcs c a 4, daddr := a })) ∧
    (Claims.Turn s c 2 0x09 w → exec (.sth c) s = .next (s.stageSlot c 2
      { writes := post, stores := [[(a, leBytes 2 (k.rS (lsR w)).toNat)]], excs := s.accessExcs c a 2, daddr := a })) ∧
    (Claims.Turn s c 2 0x03 w →
      let b := (k.rA (lsAk w)).toNat
      exec (.vldst c) s = .next (s.stageSlot c 2
        { writes := post ++ if w / 2 ^ 6 % 2 = 1 then [(1, .a (lsAk w) (k.postMod (lsAk w) (lsMj w)))] else []
          load := some ⟨a, 64, .vec, k.phys (lsR w), 0xFFFFFFFF⟩, stores := [storeRuns b (k.rV (lsVs w)) (k.rP (lsPk w))]
          excs := s.accessExcs c a 64 ++ s.accessExcs c b 64, daddr := a })) ∧
    (Claims.Turn s c 2 0x0A w →
      exec (.cmuq c) s = if s.accessExcs c a 64 = [] ∧ 4 ≤ (s.cmu (c.val / 8)).depth (c.val % 8)
        then .next (s.setCore c { k with waiting := true })
        else .next (s.stageSlot c 2 { writes := post, excs := s.accessExcs c a 64, cmuq := some a, daddr := a })) ∧
    (Claims.Turn s c 2 0x0B w → exec (.aadd c) s = .next (s.stageSlot c 2
      { writes := [(1, .a (lsA w) (k.postMod (lsA w) (lsM w)))] })) ∧
    (Claims.Turn s c 2 0x3F w → exec (.lnop c) s = .next (s.stageSlot c 2 {})) ∧
    (∀ n, (⟨0x02, 2, a, 0⟩ ∈ s.accessExcs c a n ↔ a % n ≠ 0)) ∧
    (∀ n, a % n = 0 → s.whereIs c a = .local_ → s.accessExcs c a n = []) ∧
    (∀ n, a % n = 0 → s.whereIs c a = .prog → s.accessExcs c a n = [⟨0x06, 2, a, 0⟩]) ∧
    (∀ n, a % n = 0 → s.whereIs c a = .bad → s.accessExcs c a n = [⟨0x04, 2, a, 0⟩])

end

section

open Sys2Proof Sys2Proof.Machine

/-- R106, with t = (An + sign-extended Mm) mod 2^40: for A8 to A15, and for A0 to A7 whose L is 0, the new An is t; for A0 to A7
with L ≠ 0, where t is at or above B + L (an exact sum) it is t − L, where t is below B it is t + L, each modulo 2^40, and else t.
The worked examples of R106 follow: with B0 = 0x60001000 and L0 = 0x600, 0x60001580 + 0x100 gives 0x60001080, and
0x60001080 − 0x100 gives 0x60001580. -/
def Obligations.SettPostModify : Prop :=
  (∀ (k : Core) (n m : Nat), n < 16 →
    let t := ((k.rA n).toInt + (k.rM m).toInt) % 2 ^ 40
    let B : Int := (k.rB n).toNat
    let L : Int := (k.rL n).toNat
    ((k.postMod n m).toNat : Int) =
      if 7 < n ∨ L = 0 then t else if B + L ≤ t then (t - L) % 2 ^ 40 else if t < B then (t + L) % 2 ^ 40 else t) ∧
  (∀ k : Core, k.rB 0 = 0x60001000 → k.rL 0 = 0x600 →
    (k.rA 0 = 0x60001580 → ∀ m, k.rM m = 0x100 → k.postMod 0 m = 0x60001080) ∧
    (k.rA 0 = 0x60001080 → ∀ m, k.rM m = -0x100 → k.postMod 0 m = 0x60001580))

end

section

open Sys2Proof Sys2Proof.Machine

/-- For every scalar arithmetic, move and branch instruction of R137 and SNOP, at the SB slot's turn outside a REP run, in a bundle
that raises nothing, submits no CMU command and whose load (if any) reads its own local data without poison: the command answers a
next state in which exactly the registers written by this slot, by the slots before it and by the load have their new values; the
PC is the target's for a branch taken and that of the next bundle else; the stores outside the own local data have joined the
outstanding ones; the next bundle is unread. Every other core is unchanged, and so is the rest of the machine but the register
table's counters, memory the bundle stored to or read, the count of its MACs, the journal and sampling; memory itself where the bundle neither loads nor
stores.
Shown to complete with its own effect, under these hypotheses alone: sadd, ssub, smul, sand, sor, sxor, sshl, sshr, sshru, sslt, ssltu,
smin, smax, saddi, smovi, smovhi, movm, movlc, movl, movp, mova, movb, movs, satclr, snop, beq, bne, blt, bge, j, jal, jr, bpany, bpnone. -/
def Obligations.SettScalarBundleRetires : Prop :=
  ∀ r ∈ Claims.arithmeticRows ++ Claims.moveRows ++ Claims.branchRows, ∀ (c : Fin 192) (s : State) (w : Nat),
    Claims.Turn s c 3 r.op w → (s.core c).rep = none → Claims.CleanBundle s c →
    ∃ t, exec (r.cmd c) s = .next t ∧
      t.core c = { Claims.retired s c (r.writes (s.core c) w ++ (s.core c).stage.writes ++ Claims.loadedWrites s c) with
        pc := r.pc (s.core c) w } ∧
      (∀ j, j ≠ c.val → t.core j = s.core j) ∧ Claims.besideCores s t ∧
      ((s.core c).stage.load = none → t.faults = s.faults ∧ ((s.core c).stage.macs = 0 → t.ledger = s.ledger)) ∧
      ((s.core c).stage.stores = [] → t.mem = s.mem ∧ t.chk = s.chk)

end

section

open Sys2Proof Sys2Proof.Machine

/-- Outside a run, in a clean bundle at the SB slot's turn. CSTEP: the writes land, ROT + 1 mod 16, next bundle. CTURN: LC − 1
mod 2^32, ROT + 1, the target while LC is not 0 after it. FENCE: the writes land, and no bundle issues while the core has
outstanding stores. REP over a bundle it may repeat: a count of 0 (the immediate, or LC held to 16,383) skips the bundle; else the PC
goes to the bundle, which is to run count times. REP over a bundle that R113 forbids raises ILLEGAL in slot 3 at the REP. Inside a
run, SNOP's bundle: before the last iteration the PC stays, and exactly the results whose latency has passed land; after the last
all land, in the order of the iterations they are due in, and the PC goes on.
Shown to complete with its own effect, under these hypotheses alone: cstep, cturn, fence, rep, snop. -/
def Obligations.SettLoopsAndFence : Prop :=
  ∀ (c : Fin 192) (s : State) (w : Nat), Claims.CleanBundle s c →
    let k := s.core c
    let ws := k.stage.writes ++ Claims.loadedWrites s c
    let count := if w / 2 ^ 14 % 2 = 1 then min 16383 k.lc.toNat else w % 2 ^ 14
    let following := s.bundleNext c
    (k.rep = none → Claims.Turn s c 3 0x22 w → ∃ t, exec (.cstep c) s = .next t ∧
      t.core c = { Claims.retired s c ws with pc := k.pc + 16, rot := k.rot + 1 }) ∧
    (k.rep = none → Claims.Turn s c 3 0x24 w → (∀ x ∈ ws, ∀ y, x.2 ≠ .lc y) → ∃ t, exec (.cturn c) s = .next t ∧
      t.core c = { Claims.retired s c ws with
        pc := if k.lc = 1 then k.pc + 16 else Claims.target k w, rot := k.rot + 1, lc := k.lc - 1 }) ∧
    (k.rep = none → Claims.Turn s c 3 0x27 w → ∃ t, exec (.fence c) s = .next t ∧
      t.core c = { Claims.retired s c ws with
        pc := k.pc + 16, fenceHold := !(k.stores ++ Claims.farStores s c).isEmpty }) ∧
    (k.rep = none → Claims.Turn s c 3 0x23 w → (following.2 = true ∨ repForbids following.1 = false) → count = 0 →
      ∃ t, exec (.rep c) s = .next t ∧ t.core c = { Claims.retired s c ws with pc := k.pc + 32 }) ∧
    (k.rep = none → Claims.Turn s c 3 0x23 w → (following.2 = true ∨ repForbids following.1 = false) → 0 < count →
      ∃ t u later, exec (.rep c) s = .next t ∧ t.core c = { u with pc := k.pc + 16, rep := some ⟨count, 0, later⟩ } ∧
        u = { Claims.retired s c (ws.filter (fun x => decide (x.1 ≤ 1))) with stepping := k.stepping } ∧
        later = (ws.filter (fun x => decide (1 < x.1))).map (fun x => (x.1 - 1, x.2))) ∧
    (k.rep = none → Claims.Turn s c 3 0x23 w → following.2 = false → repForbids following.1 = true →
      ∃ v : State, exec (.rep c) s = .next (v.raiseExc c ⟨0x01, 3, 0, 0⟩) ∧ v.mem = s.mem ∧ v.csr = s.csr ∧
        (v.core c).pc = k.pc ∧ (v.core c).s = k.s ∧ (v.core c).a = k.a ∧ (v.core c).v = k.v) ∧
    (∀ r, k.rep = some r → Claims.Turn s c 3 0x3F w → 2 ≤ r.left → ∃ t, exec (.snop c) s = .next t ∧
      let all := r.flights ++ ws.map (fun x => (r.iter + x.1, x.2))
      t.core c = { Claims.retired s c (all.filter (fun x => decide (x.1 ≤ r.iter + 1))) with
        stepping := k.stepping, rep := some ⟨r.left - 1, r.iter + 1, all.filter (fun x => decide (r.iter + 1 < x.1))⟩ }) ∧
    (∀ r, k.rep = some r → Claims.Turn s c 3 0x3F w → r.left ≤ 1 → ∃ t, exec (.snop c) s = .next t ∧
      t.core c = { Claims.retired s c (inOrder (r.flights ++ ws.map (fun x => (r.iter + x.1, x.2)))) with
        pc := k.pc + 16, rep := none }) ∧
    (∀ l, (inOrder l).Perm l ∧ (inOrder l).Pairwise (fun x y => x.1 ≤ y.1))

end

namespace Sys2Proof.Claims

open Sys2Proof.Machine

/-- A register write of a requester reaches exactly one instance: the hub takes it, the register's heading lists the mode in force,
and the selector names instance `i` alone, present, powered and not fenced (R10, R17, R20, R66). -/
def Hits (s : State) (req : Fin 14) (cls sel off i : Nat) : Prop :=
  s.hubTakes req = true ∧ s.modeTakes cls off = true ∧ s.writeTargets cls sel off = [i]

/-- A core that runs a task and whose slots may be read: neither at a remote load's hold nor at the task's end. -/
def Busy (s : State) (c : Nat) : Prop :=
  s.running 0x11 c = true ∧ (s.core c).task.isSome = true ∧ (s.core c).ending = none ∧ (s.core c).remote = false

end Sys2Proof.Claims

section

open Sys2Proof Sys2Proof.Machine

/-- In a clean bundle at the SB slot's turn outside a run: DONE ends the task with status Sa[0], TAKE with status 0: the bundle's
writes land, the PC stays, and the end is tried. An end waits while a store is outstanding, and an end by DONE while a CMU command
of the core is queued or executing; then the task is reported with SUCCESS or TASK. TRAP raises its exception with its immediate.
CMUW #k passes at once for k above 3, waits while more than k commands are left, raises CMU_ERR once where a completed command
reported ADDR, and passes else. A TRAP beside a remote load waits for it, since POISON, DECODE and FENCED come first. An exception records its cause, the bundle's PC, the address and the slot, sets NEW, changes no
register of the core, and ends the task.
Shown to complete with its own effect, under these hypotheses alone: done, take, trap, cmuw. -/
def Obligations.SettTaskEndsAndTraps : Prop :=
  ∀ (c : Fin 192) (s : State),
    let k := s.core c
    let ws := k.stage.writes ++ Claims.loadedWrites s c
    (∀ w, k.rep = none → Claims.CleanBundle s c → Claims.Turn s c 3 0x26 w → ∃ u : State, exec (.done c) s = .next (u.tryEnd c) ∧
      u.core c = { Claims.retired s c ws with ending := some (.done ((Claims.sa k w).getLsbD 0)) }) ∧
    (∀ w, k.rep = none → Claims.CleanBundle s c → Claims.Turn s c 3 0x25 w → ∃ u : State, exec (.take c) s = .next (u.tryEnd c) ∧
      u.core c = { Claims.retired s c ws with ending := some (.done false) }) ∧
    (∀ w, Claims.CleanBundle s c → Claims.Turn s c 3 0x28 w → ∃ u : State,
      exec (.trap c) s = .next (u.raiseExc c ⟨0x0A, 3, 0, w % 2 ^ 14⟩) ∧
      u.core c = (s.stageSlot c 3 { excs := [⟨0x0A, 3, 0, w % 2 ^ 14⟩] }).core c ∧
      (k.stage.load = none → u = s.stageSlot c 3 { excs := [⟨0x0A, 3, 0, w % 2 ^ 14⟩] })) ∧
    (∀ w l, k.rep = none → k.stage.excs = [] → k.stage.load = some l → s.whereIs c l.addr = .far → Claims.Turn s c 3 0x28 w →
      ∃ t, exec (.trap c) s = .next t ∧ (t.core c).remote = true ∧ (t.core c).ending = none) ∧
    (∀ w, Claims.Turn s c 3 0x29 w →
      let x := s.cmu (c.val / 8)
      let j := c.val % 8
      (4 ≤ w % 8 ∨ x.depth j ≤ w % 8 ∧ tget false x.addrErr j = false →
        exec (.cmuw c) s = .next ((s.stageSlot c 3 {}).finishBundle c)) ∧
      (w % 8 < 4 → w % 8 < x.depth j → exec (.cmuw c) s = .next (s.setCore c { k with waiting := true })) ∧
      (w % 8 < 4 → x.depth j ≤ w % 8 → tget false x.addrErr j = true → exec (.cmuw c) s =
        .next (((s.setCmu (c.val / 8) { x with addrErr := tset false x.addrErr j false }).stageSlot c 3
          { excs := [⟨0x0B, 3, 0, 0⟩] }).finishBundle c))) ∧
    (∀ e, k.ending = some e → k.stores ≠ [] → s.tryEnd c = s) ∧
    (∀ f, k.ending = some (.done f) → k.stores = [] → (s.cmu (c.val / 8)).depth (c.val % 8) ≠ 0 → s.tryEnd c = s) ∧
    (∀ f, k.ending = some (.done f) → k.stores = [] → (s.cmu (c.val / 8)).depth (c.val % 8) = 0 →
      tget false (s.cmu (c.val / 8)).addrErr (c.val % 8) = false → k.storeErr = none →
      s.tryEnd c = s.reportTask c (if f then .task else .success)) ∧
    (∀ e : CoreExc, e.cause < 256 → e.slot < 4 → e.addr < 2 ^ 40 → k.storeErr = none → k.rep = none →
      ∃ u : State, s.raiseExc c e = u.tryEnd c ∧ u.fld Reg.SETT.EXC_CAUSE c = e.cause ∧ u.fld Reg.SETT.EXC_NEW c = 1 ∧
        u.fld Reg.SETT.EXC_PC_EXC_PC c = k.pc.toNat ∧
        u.pair Reg.SETT.EXC_ADDR_LO_ADDR_LO Reg.SETT.EXC_ADDR_HI_ADDR_HI c = e.addr ∧
        u.fld Reg.SETT.EXC_INFO_SLOT c = e.slot ∧
        u.core c = { k with ending := some (.exc e.cause), stage := .reset, remote := false, waiting := false, fenceHold := false })

end

section

open Sys2Proof Sys2Proof.Machine

/-- TAKE_WAKE of an idle core that may start, with an entry at its slot's head: A0 takes the argument, S0 the index, S1 grade,
idempotent and mark, PC, Cobble mode and ROT as R105 and R114 say; every other register stands. ILLEGAL at an illegal bundle raises
ILLEGAL in the lowest slot at fault, or POISON where the bundle reads as poison. REMOTE_LOAD_RETURN raises DECODE, FENCED or TARGET
by the status, POISON for a poisoned byte, the lowest cause where the bundle has one of its own too, and else retires the bundle with the
data. STORE_ACK takes the oldest store to its
target. HANG reports fault 2 and raises HANG. HALT_REQ and STEP write SETT.CTL; CORE_HALT halts a core asked to, between bundles,
and its slot entries are reclaimed; CORE_EN_WRITE reclaims the entries of the cores it disables.
Shown to complete with its own effect, under these hypotheses alone: takeWake, illegal, remoteLoadReturn, storeAck, hang, haltReq, step,
coreHalt, coreEnWrite. -/
def Obligations.SettCoreEvents : Prop :=
  (∀ (c : Fin 192) (s u : State) (i : Nat) (t : Task), (s.core c).task = none → s.mayStart c = true →
    s.startHead c = some (i, t, u) → ∃ z, exec (.takeWake c) s = .next z ∧
      z.core c = { s.core c with
        a := tset 0 (s.core c).a 0 t.arg
        s := tset 0 (tset 0 (s.core c).s 0 (BitVec.ofNat 32 i)) 1
          (BitVec.ofNat 32 (t.grade % 4 + (if t.idempotent then 4 else 0) + if t.mark then 8 else 0))
        pc := BitVec.ofNat 16 (t.target.toNat / 16 * 16), cobble := decide (t.target.toNat % 2 = 1), rot := 0
        task := some i, lastTask := i, stage := .reset, remote := false, waiting := false, fenceHold := false
        rep := none, ending := none, fetched := none, ahead := [] }) ∧
  (∀ (c : Fin 192) (s : State) (j : Nat), Claims.Busy s c → (s.core c).stage.slot = 0 → s.mayIssue c = true →
    (s.core c).illegalSlot (s.bundleNow c).1 = some j →
    exec (.illegal c) s = .next (if (s.bundleNow c).2
      then (s.countEvent 0x11 c 0x004 1).raiseExc c ⟨0x03, 0, bundleAddr c (s.core c).pc.toNat, 0⟩
      else s.raiseExc c ⟨0x01, j, 0, 0⟩)) ∧
  (∀ (c : Fin 192) (s u : State) (l : CoreLoad) (st : BusStatus) (bytes : List (Byte × Bool)),
    s.running 0x11 c = true → (s.core c).remote = true → (s.core c).stage.load = some l →
    (∀ r ∈ (s.core c).stores, ∀ x ∈ r, x.1 / 64 ≠ l.addr / 64) → s.remoteRead c l.addr l.len = (st, bytes, u) →
    let v := u.took 0x11 c l.addr bytes
    ((s.core c).stage.excs = [] → exec (.remoteLoadReturn c) s = .next (match st with
      | .decodeError => v.raiseExc c ⟨0x04, 2, l.addr, 0⟩
      | .fenced => v.raiseExc c ⟨0x05, 2, l.addr, 0⟩
      | .targetError => v.raiseExc c ⟨0x0C, 2, l.addr, 0⟩
      | .ok => if bytes.any (·.2) then v.raiseExc c ⟨0x03, 2, l.addr, 0⟩
        else v.retire c (l.results (bytes.map (·.1))) true)) ∧
    ((s.core c).stage.excs ≠ [] → ∃ e ∈ loadExc l.addr st (bytes.any (·.2)) ++ (s.core c).stage.excs,
      exec (.remoteLoadReturn c) s = .next (v.raiseExc c e) ∧
      ∀ x ∈ loadExc l.addr st (bytes.any (·.2)) ++ (s.core c).stage.excs, e.cause ≤ x.cause)) ∧
  (∀ (c : Fin 192) (s : State) (runs : List (Nat × List Byte)) (rest : List (List (Nat × List Byte))),
    (s.core c).stores = runs :: rest → ∃ u : State, ∃ bad, exec (.storeAck c) s = .next (u.tryEnd c) ∧
      u.core c = { s.core c with
        stores := rest, fenceHold := (s.core c).fenceHold && !rest.isEmpty
        storeErr := if (s.core c).storeErr = none then bad else (s.core c).storeErr } ∧
      ((∀ x ∈ runs, s.region x.1 = .course (c.val / 8)) →
        bad = none ∧ u.mem = (runs.foldl (fun v x => v.writeMem x.1 (clean x.2)) s).mem)) ∧
  (∀ (c : Fin 192) (s : State), s.running 0x11 c = true → (s.core c).task.isSome = true → s.bit Reg.SETT.CTL_WDOG_EN c = true →
    (s.core c).halted = false → (s.core c).rep = none → (s.core c).ending ≠ some (.exc 0x08) →
    exec (.hang c) s = .next ((s.reportFault 2 0x11 c).raiseExc c ⟨0x08, 0, 0, 0⟩)) ∧
  (∀ (req : Fin 14) (sel : BitVec 10) (v : Word) (s : State) (i : Nat), Claims.Hits s req 0x11 sel.toNat 0x000 i →
    ∃ t, exec (.haltReq req sel v) s = .next t ∧ t.fld Reg.SETT.CTL_HALT_REQ i = v.toNat % 2 ∧
      t.fld Reg.SETT.CTL_WDOG_EN i = v.toNat / 4 % 2 ∧
      t.core i = { s.core i with
        halted := decide (v.toNat % 2 = 1) && (s.core i).halted
        stepping := decide (v.toNat % 2 = 1) && ((s.core i).stepping || (decide (v.toNat / 2 % 2 = 1) && (s.core i).halted)) }) ∧
  (∀ (req : Fin 14) (sel : BitVec 10) (s : State) (i : Nat), Claims.Hits s req 0x11 sel.toNat 0x000 i →
    ∃ t, exec (.step req sel) s = .next t ∧ t.fld Reg.SETT.CTL_HALT_REQ i = 1 ∧
      t.fld Reg.SETT.CTL_WDOG_EN i = s.fld Reg.SETT.CTL_WDOG_EN i ∧
      t.core i = { s.core i with stepping := (s.core i).stepping || (s.core i).halted }) ∧
  (∀ (c : Fin 192) (s : State), s.bit Reg.SETT.CTL_HALT_REQ c = true → (s.core c).halted = false → s.running 0x11 c = true →
    (s.core c).stage.slot = 0 → (s.core c).remote = false → (s.core c).rep = none →
    exec (.coreHalt c) s = .next ((s.setCore c { s.core c with halted := true, fetched := none, ahead := [] }).reclaimAll c)) ∧
  (∀ (req : Fin 14) (sel : BitVec 10) (v : Word) (s : State) (n : Nat), Claims.Hits s req 0x10 sel.toNat 0x000 n →
    exec (.coreEnWrite req sel v) s = .next
      (((List.range 8).filter (fun j => !v.getLsbD j)).foldl (fun u j => u.reclaimAll (8 * n + j)) (s.storeReg 0x10 n 0x000 v)))

end

namespace Sys2Proof.Claims

open Sys2Proof.Machine

/-- The CMU of a Course executes command `r`, not computed yet, whose OP is `op`, and every address of it lies inside (R124). -/
def CmuRuns (s : State) (n op : Nat) (r : CmuRun) : Prop :=
  (s.cmu n).cur = some r ∧ r.op = op ∧ r.computed = false ∧ s.running 0x12 n = true ∧ s.cmuInside n r = true

/-- Element (i, j) of the matrix whose words begin at word `w` of a command, as it reads in memory, real and imaginary part. -/
def elemRe (s : State) (r : CmuRun) (w i j : Nat) : Int := (s.elemAt (r.elem w i j)).1.1
def elemIm (s : State) (r : CmuRun) (w i j : Nat) : Int := (s.elemAt (r.elem w i j)).1.2
def elemBad (s : State) (r : CmuRun) (w i j : Nat) : Bool := (s.elemAt (r.elem w i j)).2

/-- A sum over k below K. -/
def sumTo (K : Nat) (f : Nat → Int) : Int := ((List.range K).map f).sum

/-- An exact sum brought to an output component (R110, R111): 40-bit wrap, shift down, then clamped or its low 16 bits. -/
def cmuOut (r : CmuRun) (x : Int) : Int :=
  let t := wrapped 40 x / 2 ^ r.f 0 26 22
  if r.f 0 27 27 = 1 then max (-32768) (min 32767 t) else wrapped 16 t

/-- A command's end `t` with the poisoned words it read counted (R401). -/
def counted (s : State) (n : Nat) (r : CmuRun) (t : State) : State := t.countEvent 0x12 n 0x004 (s.cmuPoison r)

/-- The matrix C that a product leaves, rows × cols, with components `re` and `im` before extraction. -/
def CmuProduct (s : State) (n : Nat) (cmd : Instr) (r : CmuRun) (rows cols : Nat) (re im : Nat → Nat → Int)
    (bad : Nat → Nat → Bool) : Prop :=
  ∃ C badC sat, exec cmd s = .next (counted s n r ((s.putMatrix r rows cols C badC).cmuDone n
      { r with sat := sat, poison := (pairs rows cols).any (fun p => bad p.1 p.2) })) ∧
    ∀ i j, i < rows → j < cols → C i j = (cmuOut r (re i j), cmuOut r (im i j)) ∧ badC i j = bad i j

end Sys2Proof.Claims

section

open Sys2Proof Sys2Proof.Machine

/-- For a command in execution whose addresses all lie inside, with ACC 0: MATMUL leaves in C the extracted exact sums
Σ_k A(i,k)·B(k,j), MATMUL_H those of A(i,k)·conj B(j,k). GRAM leaves Σ_k conj A(k,i)·A(k,j) plus DIAG on the real diagonal, in its lower
triangle, and above the diagonal the conjugate of the lower element bit for bit. An element whose sum read a poisoned operand is
written as poison, and the record says so. Memory changes by C's elements alone, the command is computed, and the poisoned words it
read are counted.
Shown to complete with its own effect, under these hypotheses alone: matmul, matmulH, gram. -/
def Obligations.CmuProductsAreExact : Prop :=
  (∀ (n : Fin 24) (s : State) (r : CmuRun), Claims.CmuRuns s n 0 r → r.f 0 28 28 = 0 →
    Claims.CmuProduct s n (.matmul n) r r.M r.N
      (fun i j => Claims.sumTo r.K (fun k => Claims.elemRe s r 1 i k * Claims.elemRe s r 3 k j
        - Claims.elemIm s r 1 i k * Claims.elemIm s r 3 k j))
      (fun i j => Claims.sumTo r.K (fun k => Claims.elemRe s r 1 i k * Claims.elemIm s r 3 k j
        + Claims.elemIm s r 1 i k * Claims.elemRe s r 3 k j))
      (fun i j => (List.range r.K).any (fun k => Claims.elemBad s r 1 i k || Claims.elemBad s r 3 k j))) ∧
  (∀ (n : Fin 24) (s : State) (r : CmuRun), Claims.CmuRuns s n 1 r → r.f 0 28 28 = 0 →
    Claims.CmuProduct s n (.matmulH n) r r.M r.N
      (fun i j => Claims.sumTo r.K (fun k => Claims.elemRe s r 1 i k * Claims.elemRe s r 3 j k
        + Claims.elemIm s r 1 i k * Claims.elemIm s r 3 j k))
      (fun i j => Claims.sumTo r.K (fun k => Claims.elemIm s r 1 i k * Claims.elemRe s r 3 j k
        - Claims.elemRe s r 1 i k * Claims.elemIm s r 3 j k))
      (fun i j => (List.range r.K).any (fun k => Claims.elemBad s r 1 i k || Claims.elemBad s r 3 j k))) ∧
  (∀ (n : Fin 24) (s : State) (r : CmuRun), Claims.CmuRuns s n 2 r → r.f 0 28 28 = 0 →
    ∃ C bad sat poison, exec (.gram n) s =
        .next (Claims.counted s n r ((s.putMatrix r r.N r.N C bad).cmuDone n { r with sat := sat, poison := poison })) ∧
      (∀ i j, i < r.N → j ≤ i → C i j =
        (Claims.cmuOut r (Claims.sumTo r.K (fun k => Claims.elemRe s r 1 k i * Claims.elemRe s r 1 k j
            + Claims.elemIm s r 1 k i * Claims.elemIm s r 1 k j) + if i = j then (BitVec.ofNat 32 (r.f 7 31 0)).toInt else 0),
          Claims.cmuOut r (Claims.sumTo r.K (fun k => Claims.elemRe s r 1 k i * Claims.elemIm s r 1 k j
            - Claims.elemIm s r 1 k i * Claims.elemRe s r 1 k j)))) ∧
      (∀ i j, i < r.N → j < i → C j i = ((C i j).1, Claims.wrapped 16 (-(C i j).2))) ∧
      (∀ i j, i < r.N → j ≤ i → bad i j = (List.range r.K).any (fun k => Claims.elemBad s r 1 k i || Claims.elemBad s r 1 k j)))

end

section

open Sys2Proof Sys2Proof.Machine

/-- CMU_COMMAND_START takes the oldest command of the core that the arbiter of R29 grants. CHOL writes L with its strict upper triangle
zero; NONPD says whether a pivot was at or below zero. TRSV_L, TRSV_LH and CHOL_SOLVE write X. All four leave the rest of memory and
mark the command computed. Any of the seven with an address outside writes nothing and has ADDR in its record. An OP of 7-15 only
waits for its record. CMU_STATUS_WRITE writes the 16-byte record (unless its address lies outside), frees the unit, counts a job, and
sets ADDR in CMU.ERRORS where the record has it.
Shown to complete with its own effect, under these hypotheses alone: cmuCommandStart, chol, trsvL, trsvLh, cholSolve, matmul, matmulH, gram,
cmuNoOperation, cmuStatusWrite. -/
def Obligations.CmuCommandsComplete : Prop :=
  (∀ (n : Fin 24) (s : State) (k : Nat) (w : List Word) (rest : List (List Word)), (s.cmu n).cur = none → s.running 0x12 n = true →
    rrPick 8 (s.cmu n).last (fun k => !(tget [] (s.cmu n).queues k).isEmpty) = some k → tget [] (s.cmu n).queues k = w :: rest →
    ∃ t, exec (.cmuCommandStart n) s = .next t ∧ t.cmu n = { s.cmu n with
      queues := tset [] (s.cmu n).queues k rest, last := k, cur := some ⟨k, w, false, false, false, false, false, 0, 0⟩ } ∧
      t.mem = s.mem ∧ t.fld Reg.CMU.STATUS_BUSY n = 1) ∧
  (∀ (n : Fin 24) (s : State) (r : CmuRun), Claims.CmuRuns s n 3 r → ∃ (u : State) (L : Nat → Nat → Cx) (bad : Nat → Nat → Bool)
      (q : CmuRun), exec (.chol n) s = .next (Claims.counted s n r ((u.putMatrix r r.N r.N L bad).cmuDone n q)) ∧
      { u with free := s.free } = s ∧
      q.addr = r.addr ∧ q.st = r.st ∧ ∀ i j, i < j → L i j = (0, 0)) ∧
  (∀ (n : Fin 24) (s : State) (r : CmuRun), ∀ x ∈ ([(.trsvL n, 4), (.trsvLh n, 5), (.cholSolve n, 6)] : List (Instr × Nat)),
    Claims.CmuRuns s n x.2 r → ∃ (u : State) (X : Nat → Nat → Cx) (bad : Bool) (q : CmuRun),
      exec x.1 s = .next (Claims.counted s n r ((u.putMatrix r r.N r.K X (fun _ _ => bad)).cmuDone n q)) ∧
      { u with free := s.free } = s ∧
      q.addr = r.addr ∧ q.st = r.st ∧ q.poison = bad) ∧
  (∀ (n : Fin 24) (s : State) (r : CmuRun),
    ∀ x ∈ ([(.matmul n, 0), (.matmulH n, 1), (.gram n, 2), (.chol n, 3), (.trsvL n, 4), (.trsvLh n, 5), (.cholSolve n, 6)] :
      List (Instr × Nat)),
    (s.cmu n).cur = some r → r.op = x.2 → r.computed = false → s.running 0x12 n = true → s.cmuInside n r = false →
    exec x.1 s = .next (s.setCmu n { s.cmu n with cur := some { r with addr := true, computed := true } })) ∧
  (∀ (n : Fin 24) (s : State) (r : CmuRun), (s.cmu n).cur = some r → 7 ≤ r.op → r.computed = false → s.running 0x12 n = true →
    exec (.cmuNoOperation n) s = .next (s.setCmu n { s.cmu n with cur := some { r with addr := !s.cmuMay n r.st, computed := true } })) ∧
  (∀ (n : Fin 24) (s : State) (r : CmuRun), (s.cmu n).cur = some r → r.computed = true → s.running 0x12 n = true →
    ∃ t cycles, exec (.cmuStatusWrite n) s = .next t ∧ (t.cmu n).cur = none ∧ (t.cmu n).queues = (s.cmu n).queues ∧
      t.mem = (if s.cmuMay n r.st then s.writeMem r.st (clean (r.record cycles)) else s).mem ∧
      t.fld Reg.CMU.JOBS_JOBS n = (s.fld Reg.CMU.JOBS_JOBS n + 1) % 2 ^ 32 ∧
      (r.addr = true → t.fld Reg.CMU.ERRORS_ADDR n = 1) ∧ (r.poison = true → t.fld Reg.CMU.ERRORS_POISON n = 1) ∧
      (r.nonpd = true → t.fld Reg.CMU.ERRORS_NONPD n = 1) ∧ (r.sat = true → t.fld Reg.CMU.ERRORS_SAT n = 1))

end

namespace Sys2Proof.Claims

open Sys2Proof.Machine

/-- The words of a descriptor as read: a poisoned byte reads as zero (R292). -/
def descriptorWords (l : List (Byte × Bool)) : List Word :=
  let b := l.map (fun x => if x.2 then (0 : Byte) else x.1)
  (List.range 16).map (fun j => BitVec.ofNat 32 (leNat ((b.drop (4 * j)).take 4)))

/-- Command `c` of engine `u`, by its fill requester index, runs `job` on the head entry of job type `code`. -/
def RunsJob (c : Instr) (u code : Nat) (job : Nat → List Word → Nat → State → JobRes × State) : Prop :=
  ∀ (s : State) (i : Nat) (t : Task) (a v : State) (ok : Bool) (bytes : List (Byte × Bool)),
    s.engMayTake u = true → s.headJob u = some code → s.startHead u = some (i, t, a) →
    let at_ := t.arg.toNat / 64 * 64
    let b := ((a.setE u Reg.LDPC_DEC.STATUS_STATE 1).setE u Reg.LDPC_DEC.STATUS_TASK i).countEvent (unitOf u).1 (unitOf u).2 0x010 1
    (b.region at_ = .unmapped → exec c s = .next (b.engKeep u i { addr := true })) ∧
    (b.region at_ ≠ .unmapped → b.engGet u at_ 64 = (ok, bytes, v) → exec c s = .next (if ok
      then (job u (descriptorWords bytes) t.allowance v).2.engKeep u i (job u (descriptorWords bytes) t.allowance v).1
      else v.engKeep u i { memerr := true }))

/-- A job whose descriptor holds the status address at word `st`, TAG at word `tag` and other addresses at the words `others` makes no
access when one of them is not allowed: its record has ADDR, and is written only where the status address is allowed. -/
def ChecksAddresses (job : Nat → List Word → Nat → State → JobRes × State) (st tag : Nat) (others : List Nat) : Prop :=
  ∀ (u : Nat) (w : List Word) (allow : Nat) (s : State),
    (∃ x ∈ st :: others, s.engMay (jobAddr w x) = false) →
    (job u w allow s).1.addr = true ∧ (job u w allow s).1.tag = w.getD tag 0 ∧
      (job u w allow s).1.st = (if s.engMay (jobAddr w st) = true then some (jobAddr w st) else none) ∧ (job u w allow s).2 = s

end Sys2Proof.Claims

section

open Sys2Proof Sys2Proof.Machine

/-- For each of the eight job types and every engine of its class that may take an entry, whose slot's head names that type: the command
answers the next state in which the engine is BUSY with the task, counts a job taken, and holds the outcome: of the job run on the words
of the 64-byte descriptor at the argument pointer (bits [5:0] as zero) with the allowance of the entry; MEMERR where the descriptor
cannot be read; ADDR where the pointer is unmapped. A job
with an address in its descriptor outside Treasury, the Course stores and bulk memory makes no access: its record has ADDR, and none
is written where the status address itself is not allowed.
Shown to complete with its own effect, under these hypotheses alone: ldpcDecode, ldpcEncode, crc, polarDecode, polarEncode, turboDecode,
turboEncode, harqCombine. -/
def Obligations.EngineJobsRun : Prop :=
  (∀ e : Fin 16, Claims.RunsJob (.ldpcDecode e) (192 + e) 0x01 State.ldpcDecode) ∧
  (∀ e : Fin 8, Claims.RunsJob (.ldpcEncode e) (208 + e) 0x02 State.ldpcEncode) ∧
  (∀ e : Fin 8, Claims.RunsJob (.crc e) (208 + e) 0x03 State.crcJob) ∧
  (∀ e : Fin 4, Claims.RunsJob (.polarDecode e) (216 + e) 0x04 State.polarDecode) ∧
  (∀ e : Fin 4, Claims.RunsJob (.polarEncode e) (216 + e) 0x05 State.polarEncode) ∧
  (∀ e : Fin 4, Claims.RunsJob (.turboDecode e) (220 + e) 0x06 State.turboDecode) ∧
  (∀ e : Fin 4, Claims.RunsJob (.turboEncode e) (220 + e) 0x07 State.turboEncodeJob) ∧
  (∀ e : Fin 8, Claims.RunsJob (.harqCombine e) (224 + e) 0x08 State.harqCombine) ∧
  Claims.ChecksAddresses State.ldpcDecode 6 8 [2, 4] ∧ Claims.ChecksAddresses State.ldpcEncode 8 10 [4, 6] ∧
  Claims.ChecksAddresses State.crcJob 3 5 [1] ∧ Claims.ChecksAddresses State.polarDecode 6 8 [2, 4] ∧
  Claims.ChecksAddresses State.polarEncode 6 8 [2, 4] ∧ Claims.ChecksAddresses State.turboDecode 6 8 [2, 4] ∧
  Claims.ChecksAddresses State.turboEncodeJob 8 10 [4, 6] ∧ Claims.ChecksAddresses State.harqCombine 8 10 [4, 6] ∧
  (∀ (s : State) (a : Nat), s.engMay a = true ↔
    (∃ b, s.region a = .treasury b) ∨ (∃ n, s.region a = .course n) ∨ ∃ c l, s.region a = .bulk c l)

end

section

open Sys2Proof Sys2Proof.Machine

/-- JOB_END writes the record, counts the job and reports it, failed where the record, or its write, says so. JOB_TYPE_MISMATCH takes
the entry and leaves TYPE for the record. ENGINE_HANG abandons the job, one whose outputs stand or one taken just now, without a record,
sets HANG, posts the event with the task; ENGINE_RESET_DONE reports it with cause HANG. An engine at a job boundary is idle (STATE 0), or
tests its new microcode (2). TAKE_EN_WRITE with 0 reclaims the slot's entries. UCODE_LOAD_DONE ends LOADING and shows the image's version
as the inactive bank's, valid where it fits the bank. UCODE_SWITCH that passes exchanges banks and
versions; one that fails, or whose image does not fit, keeps the bank and sets UCODE_FAIL.
Shown to complete with its own effect, under these hypotheses alone: jobEnd, jobTypeMismatch, engineHang, engineResetDone, takeEnWrite,
ucodeLoadDone, ucodeSwitch. -/
def Obligations.EngineEventsComplete : Prop :=
  (∀ (e : Fin 40) (s : State) (j : EngJob), (s.eng (192 + e.val)).job = some j →
    s.running (unitOf (192 + e.val)).1 (unitOf (192 + e.val)).2 = true →
    ∃ (v : State) (ok : Bool), exec (.jobEnd e) s = .next (v.report j.task (if j.failed || !ok then .job else .success)) ∧
      (v.eng (192 + e.val)).job = none ∧ v.getE (192 + e.val) Reg.LDPC_DEC.STATUS_STATE = (if (s.eng (192 + e.val)).loaded then 2 else 0) ∧
      v.getE (192 + e.val) Reg.LDPC_DEC.JOBS_COUNT = (s.getE (192 + e.val) Reg.LDPC_DEC.JOBS_COUNT + 1) % 2 ^ 32 ∧
      (j.st = none → ok = true ∧ v.mem = s.mem)) ∧
  (∀ (e : Fin 40) (s : State) (ty : Nat), s.headJob (192 + e.val) = some ty → s.engMayTake (192 + e.val) = true →
    ty ∉ jobTypes (unitOf (192 + e.val)).1 → ∃ (f : List Word → Nat → State → JobRes × State),
      exec (.jobTypeMismatch e) s = .next (s.takeJob (192 + e.val) f) ∧
      ∀ w a v, (f w a v).1.type = true ∧ (f w a v).2 = v ∧ ∀ x, (f w a v).1.st = some x → v.engMay x = true) ∧
  (∀ (e : Fin 40) (s : State) (j : EngJob), (s.eng (192 + e.val)).job = some j →
    s.getE (192 + e.val) Reg.LDPC_DEC.CTL_WDOG_EN ≠ 0 → s.running (unitOf (192 + e.val)).1 (unitOf (192 + e.val)).2 = true →
    ∃ v : State, exec (.engineHang e) s = .next (v.engPost (192 + e.val) 0x002 3 j.task) ∧
      v.eng (192 + e.val) = { s.eng (192 + e.val) with job := none, hung := some j.task, left := none } ∧ v.mem = s.mem ∧
      v.getE (192 + e.val) Reg.LDPC_DEC.STATUS_STATE = 3 ∧ v.getE (192 + e.val) Reg.LDPC_DEC.ERRORS_HANG = 1) ∧
  (∀ (e : Fin 40) (s : State) (i ty : Nat) (rest : List Nat), s.slot (192 + e.val) = i :: rest → s.headJob (192 + e.val) = some ty →
    s.engMayTake (192 + e.val) = true → s.getE (192 + e.val) Reg.LDPC_DEC.CTL_WDOG_EN ≠ 0 →
    ∃ v : State, exec (.engineHang e) s = .next (v.engPost (192 + e.val) 0x002 3 i) ∧
      (v.eng (192 + e.val)).job = none ∧ (v.eng (192 + e.val)).hung = some i ∧
      v.getE (192 + e.val) Reg.LDPC_DEC.STATUS_STATE = 3 ∧ v.getE (192 + e.val) Reg.LDPC_DEC.ERRORS_HANG = 1) ∧
  (∀ (e : Fin 40) (s : State) (i : Nat), (s.eng (192 + e.val)).hung = some i →
    s.running (unitOf (192 + e.val)).1 (unitOf (192 + e.val)).2 = true →
    ∃ v : State, exec (.engineResetDone e) s = .next (v.report i .hang) ∧ (v.eng (192 + e.val)).hung = none ∧
      v.getE (192 + e.val) Reg.LDPC_DEC.STATUS_STATE = (if (s.eng (192 + e.val)).loaded then 2 else 0) ∧ v.mem = s.mem) ∧
  (∀ (req : Fin 14) (cls : Fin 5) (sel : BitVec 10) (v : Word) (s : State) (i : Nat),
    Claims.Hits s req (0x18 + cls) sel.toNat 0x000 i →
    exec (.takeEnWrite req cls sel v) s = .next (if v.getLsbD 0 = false
      then (s.storeReg (0x18 + cls) i 0x000 v).reclaimAll (unitIndex (0x18 + cls) i) else s.storeReg (0x18 + cls) i 0x000 v)) ∧
  (∀ (e : Fin 40) (s : State) (ty len ver : Nat), (s.eng (192 + e.val)).image = some (ty, len, ver) →
    (s.eng (192 + e.val)).loaded = false → s.running (unitOf (192 + e.val)).1 (unitOf (192 + e.val)).2 = true →
    ∃ t, exec (.ucodeLoadDone e) s = .next t ∧ t.eng (192 + e.val) = { s.eng (192 + e.val) with loaded := true } ∧
      t.getE (192 + e.val) Reg.LDPC_DEC.STATUS_LOADING = 0 ∧
      (ver < 2 ^ 24 → t.getE (192 + e.val) Reg.LDPC_DEC.UCODE_ALT_VERSION = ver) ∧
      t.getE (192 + e.val) Reg.LDPC_DEC.UCODE_ALT_VALID = (if len ≤ 131072 then 1 else 0) ∧
      ((s.eng (192 + e.val)).job = none → (s.eng (192 + e.val)).hung = none →
        t.getE (192 + e.val) Reg.LDPC_DEC.STATUS_STATE = 2)) ∧
  (∀ (e : Fin 40) (pass : Bool) (us : Word) (s : State) (ty len ver : Nat), (s.eng (192 + e.val)).image = some (ty, len, ver) →
    (s.eng (192 + e.val)).loaded = true → (s.eng (192 + e.val)).job = none → (s.eng (192 + e.val)).hung = none →
    s.running (unitOf (192 + e.val)).1 (unitOf (192 + e.val)).2 = true →
    ∃ t, exec (.ucodeSwitch e pass us) s = .next t ∧
      t.eng (192 + e.val) = { s.eng (192 + e.val) with image := none, loaded := false, act := none } ∧
      t.getE (192 + e.val) Reg.LDPC_DEC.STATUS_STATE = 0 ∧
      (pass = true → imageFits (unitOf (192 + e.val)).1 ty len = true → ver < 2 ^ 24 →
        t.getE (192 + e.val) Reg.LDPC_DEC.UCODE_VER_VERSION = ver ∧
        t.getE (192 + e.val) Reg.LDPC_DEC.UCODE_ALT_VERSION = s.getE (192 + e.val) Reg.LDPC_DEC.UCODE_VER_VERSION ∧
        t.getE (192 + e.val) Reg.LDPC_DEC.STATUS_BANK = 1 - s.getE (192 + e.val) Reg.LDPC_DEC.STATUS_BANK) ∧
      (pass = false ∨ imageFits (unitOf (192 + e.val)).1 ty len = false →
        t.getE (192 + e.val) Reg.LDPC_DEC.ERRORS_UCODE_FAIL = 1 ∧
        t.getE (192 + e.val) Reg.LDPC_DEC.UCODE_VER_VERSION = s.getE (192 + e.val) Reg.LDPC_DEC.UCODE_VER_VERSION))

end

section

open Sys2Proof Sys2Proof.Machine

/-- LEAF_GRANT outside Banked, with the Vault running and the arbiter's grant at a source whose oldest formed leaf is x, while every
region is free and no geometry waits. Where the source's share of the buffer is full (448 leaves, 64 for summaries) or the ring has no
place, the leaf is dropped, counted and leaves no trace in ring, numbering or buffer. Else it takes the place at WR_LEAF, whose old
leaf it replaces, is stamped with DEVCLK and numbered with the running number, its 4,096 bytes wait in the buffer at base + 4,096 ×
place, and the writer goes on to the next place of the ring. LEAF_WRITE_DONE takes the oldest buffered leaf out; a write that
succeeds marks it written, one that fails takes it from the ring.
Shown to complete with its own effect, under these hypotheses alone: leafGrant, leafWriteDone. -/
def Obligations.VaultLeafGrants : Prop :=
  (∀ (s : State) (k : Nat) (x : Leaf) (r : List Leaf), s.running 0x30 0 = true → s.modes.mode ≠ .banked → s.leafTurn = some k →
    tget [] s.vault.formed k = x :: r → s.rgnsFree = true → s.vault.pendGeom = false → x.src = k →
    let used := (s.vault.staged.filter (fun e => decide (128 ≤ e.src) == decide (128 ≤ k))).length
    ∃ t, exec .leafGrant s = .next t ∧ tget [] t.vault.formed k = r ∧ t.vault.lastLeaf = k ∧ t.mem = s.mem ∧
      ((if 128 ≤ k then 64 else 448) ≤ used ∨ s.vault.len = 0 →
        t.vault.ring = s.vault.ring ∧ t.vault.seq = s.vault.seq ∧ t.vault.staged = s.vault.staged ∧ t.vault.wr = s.vault.wr ∧
        t.fld Reg.VAULT.DROPPED_COUNT 0 = (s.fld Reg.VAULT.DROPPED_COUNT 0 + 1) % 2 ^ 32) ∧
      (used < (if 128 ≤ k then 64 else 448) → 0 < s.vault.len →
        t.vault.ring = tins s.vault.ring s.vault.wr ⟨s.devclk.toNat, k, s.vault.seq.toNat, false⟩ ∧
        t.vault.seq = s.vault.seq + 1 ∧ t.vault.wr = (s.vault.wr + 1) % s.vault.len ∧
        t.fld Reg.VAULT.DROPPED_COUNT 0 = s.fld Reg.VAULT.DROPPED_COUNT 0 ∧
        ∃ bytes, t.vault.staged = s.vault.staged ++
          [⟨s.vault.base + 4096 * s.vault.wr, s.vault.wr, s.vault.seq.toNat, k, bytes⟩] ∧
          ((x.units.flatMap id).length ≤ 4032 → bytes.length = 4096))) ∧
  (∀ (s : State) (e : Staged) (r : List Staged) (st : BusStatus) (u : State), s.vault.staged = e :: r →
    (s.setVault { s.vault with staged := r }).busPut (56 + e.seq % 2) 0 e.addr e.bytes = (st, u) →
    ∃ t, exec .leafWriteDone s = .next t ∧ t.vault.staged = r ∧ t.mem = u.mem ∧
      ∀ x, tfind s.vault.ring e.pos = some x → x.seq = e.seq →
        (st = .ok → tfind t.vault.ring e.pos = some { x with written := true }) ∧
        (st ≠ .ok → t.vault.ring = tdel s.vault.ring e.pos ∧
          t.fld Reg.VAULT.DROPPED_COUNT 0 = (s.fld Reg.VAULT.DROPPED_COUNT 0 + 1) % 2 ^ 32))

end

section

open Sys2Proof Sys2Proof.Machine

/-- VAULT_ENABLE 0 to 1 keeps the writer's place (or starts the pending geometry while no region is held) and every source's next leaf
carries GAP; 1 to 0 ends the forming leaves. A geometry write while the writer stands and every region is free takes effect at once,
writer at leaf 0; else it is pending. TRIGGER raises a trigger with its tag where CMD_EN is set. A GPIO edge of the trigger's pin
raises one. TRIGGER_GRANT within the hold-off of the source, or with no region free, is refused and counted; else the lowest free
region opens with the source, tag and DEVCLK, a window from PRE before to POST after in 100 µs, and the leaves the ring holds in it.
REGION_RELEASE frees a region, or waits for its export.
Shown to complete with its own effect, under these hypotheses alone: vaultEnable, vaultGeometryWrite, trigger, pinTrigger, triggerGrant,
regionRelease. -/
def Obligations.VaultTriggersAndRegions : Prop :=
  (∀ (req : Fin 14) (sel : BitVec 10) (v : Word) (s : State), Claims.Hits s req 0x30 sel.toNat 0x000 0 →
    ∃ t, exec (.vaultEnable req sel v) s = .next t ∧ t.fld Reg.VAULT.CTL_EN 0 = v.toNat % 2 ∧ t.mem = s.mem ∧
      (s.fld Reg.VAULT.CTL_EN 0 = 0 → v.toNat % 2 = 1 → t.vault.fresh = [] ∧
        (s.vault.pendGeom = false → t.vault.wr = s.vault.wr ∧ t.vault.ring = s.vault.ring)) ∧
      (s.fld Reg.VAULT.CTL_EN 0 = 1 → v.toNat % 2 = 0 → t.vault.forming = [] ∧ t.vault.formed = [] ∧
        t.vault.ring = s.vault.ring ∧ t.vault.staged = s.vault.staged)) ∧
  (∀ (req : Fin 14) (sel : BitVec 10) (which : Fin 3) (v : Word) (s : State), Claims.Hits s req 0x30 sel.toNat (4 + 4 * which.val) 0 →
    let u := s.storeReg 0x30 0 (4 + 4 * which.val) v
    ∃ t, exec (.vaultGeometryWrite req sel which v) s = .next t ∧ t.csr = u.csr ∧ t.mem = s.mem ∧
      (s.fld Reg.VAULT.CTL_EN 0 = 0 ∧ s.rgnsFree = true → t.vault.wr = 0 ∧ t.vault.ring = [] ∧ t.vault.pendGeom = false ∧
        t.vault.len = u.lengthLeaves ∧ t.vault.base = u.vaultBase) ∧
      (s.fld Reg.VAULT.CTL_EN 0 = 1 ∨ s.rgnsFree = false → t.vault = { s.vault with pendGeom := true })) ∧
  (∀ (req : Fin 14) (sel : BitVec 10) (v : Word) (s : State), Claims.Hits s req 0x30 sel.toNat 0x040 0 →
    exec (.trigger req sel v) s = .next (if s.fld Reg.VAULT.TRIG_SRC_CMD_EN 0 = 1
      then s.setVault { s.vault with trig := s.vault.trig ++ [(0, v)] } else s)) ∧
  (∀ (pin : Fin 32) (rising : Bool) (s : State), bitOf (s.fld Reg.PINS.GPIO_OE_OE 0) pin = false →
    (s.reg 0x63 0 0x018).getLsbD pin ≠ rising → ∃ t, exec (.pinTrigger pin rising) s = .next t ∧
      t.power.gpioPads.getLsbD pin = rising ∧ (t.reg 0x63 0 0x018).getLsbD pin = rising ∧
      t.vault.trig = s.vault.trig ++ (if s.fld Reg.VAULT.TRIG_SRC_PIN_EN 0 = 1 ∧ s.fld Reg.VAULT.TRIG_SRC_PIN 0 = pin.val ∧
        (s.fld Reg.VAULT.TRIG_SRC_PIN_FALL 0 = if rising then 0 else 1) then [(1, 0)] else [])) ∧
  (∀ (s : State) (k : Nat) (x : Nat × Word), s.running 0x30 0 = true →
    rrPick 35 s.vault.lastSrc (fun k => s.vault.trig.any (fun t => t.1 == k)) = some k →
    s.vault.trig.find? (fun t => t.1 == k) = some x →
    let T := s.devclk.toNat
    let early := 0 < tget 0 s.vault.lastTrig k ∧
      T - (tget 0 s.vault.lastTrig k - 1) < 10000 * s.fld Reg.VAULT.TRIG_SRC_HOLDOFF 0
    ∃ t, exec .triggerGrant s = .next t ∧ t.vault.trig = s.vault.trig.erase x ∧ t.vault.lastSrc = k ∧ t.mem = s.mem ∧
      (early ∨ (∀ r, r < 16 → s.rgnState r ≠ 0) →
        t.fld Reg.VAULT.TRIG_REFUSED_COUNT 0 = (s.fld Reg.VAULT.TRIG_REFUSED_COUNT 0 + 1) % 2 ^ 32 ∧
        t.vault.windows = s.vault.windows ∧ ∀ r, r < 16 → t.rgnState r = s.rgnState r) ∧
      (¬ early → k < 64 → ∀ r, r < 16 → s.rgnState r = 0 → (∀ j, j < r → s.rgnState j ≠ 0) →
        t.fld Reg.VAULT.TRIG_COUNT_COUNT 0 = (s.fld Reg.VAULT.TRIG_COUNT_COUNT 0 + 1) % 2 ^ 32 ∧
        t.vault.windows = tins s.vault.windows r
          (T - 10000 * s.fld Reg.VAULT.TRIG_CFG_PRE 0, T + 10000 * s.fld Reg.VAULT.TRIG_CFG_POST 0) ∧
        t.fld (Reg.VAULT.RGN_SOURCE r) 0 = k ∧ t.fld (Reg.VAULT.RGN_TAG_TAG r) 0 = x.2.toNat ∧
        t.pair (Reg.VAULT.RGN_T_LO_T r) (Reg.VAULT.RGN_T_HI_T r) 0 = T ∧ t.fld (Reg.VAULT.RGN_GAPS_GAPS r) 0 = 0 ∧
        t.rgnState r = (if s.fld Reg.VAULT.TRIG_CFG_POST 0 = 0 then 2 else 1))) ∧
  (∀ (req : Fin 14) (sel : BitVec 10) (v : Word) (s : State), Claims.Hits s req 0x30 sel.toNat 0x044 0 →
    let r := v.toNat % 16
    ∃ t, exec (.regionRelease req sel v) s = .next t ∧ t.vault.ring = s.vault.ring ∧
      (s.fld (Reg.VAULT.RGN_EXPORTING r) 0 = 0 → t.rgnState r = 0) ∧
      (s.rgnState r ≠ 0 → s.fld (Reg.VAULT.RGN_EXPORTING r) 0 = 1 →
        t.rgnState r = s.rgnState r ∧ t.vault.relWait = r :: s.vault.relWait))

end

section

open Sys2Proof Sys2Proof.Machine

/-- Where the end of an AGC block is the detector's next event, TALLY_AGC_BLOCK starts the next block and, unless a reception runs,
moves the gain towards the target by at most STEP within its limits. Where a detection is, TALLY_DETECTION closes the search, blanks
the template's length from the peak and counts the detection. Where a symbol is, TALLY_SYMBOL takes the sample of the reception's
next symbol; a pilot becomes the equaliser. TALLY_RECORD_ACKED takes one acknowledged record off and decrements the keystone where
KEY_EN. TPL_DATA (single instances) stores one sample of the addressed template and SAMPLE advances.
Shown to complete with its own effect, under these hypotheses alone: tallyAgcBlock, tallyDetection, tallySymbol, tallyRecordAcked, tplData. -/
def Obligations.TallyEventsComplete : Prop :=
  (∀ (d : Fin 32) (s u : State), s.tallyEvent d = (2, u) →
    let t := u.tally d
    let err : Int := (BitVec.ofNat 8 (u.fld Reg.TALLY.AGC_TARGET d)).toInt - powerQdb t.blkSum t.blkN
    let step : Int := u.fld Reg.TALLY.AGC_STEP d
    exec (.tallyAgcBlock d) s = .next (u.setTally d { t with
      blkSum := 0, blkN := 0
      gain := if t.rx.isSome then t.gain else u.tallyClamp d (t.gain + max (-step) (min step err)) })) ∧
  (∀ (d : Fin 32) (s u : State) (b : Peak), s.tallyEvent d = (3, u) → (u.tally d).search = some b →
    ∃ t, exec (.tallyDetection d) s = .next t ∧ (t.tally d).search = none ∧ (t.tally d).blank = b.p + b.len ∧
      t.fld Reg.TALLY.DETECTS_COUNT d = (u.fld Reg.TALLY.DETECTS_COUNT d + 1) % 2 ^ 32) ∧
  (∀ (d : Fin 32) (s u : State) (r : Recep), s.tallyEvent d = (1, u) → (u.tally d).rx = some r →
    exec (.tallySymbol d) s = .next (u.tallySymbol d r) ∧
    (wordField r.frame 7 0 ≠ 0 → r.k % (wordField r.frame 7 0 + 1) = 0 → u.tallySymbol d r = u.setTally d { u.tally d with
      rx := some { r with k := r.k + 1, hd := 1
                          h := (u.tally d).hist.getD ((u.tally d).n - 1 - (r.p + (r.k + 1) * r.sps)) (0, 0) } })) ∧
  (∀ (d : Fin 32) (s : State), 0 < (s.tally d).acks →
    let u := s.setTally d { s.tally d with acks := (s.tally d).acks - 1 }
    exec (.tallyRecordAcked d) s = .next (if s.fld Reg.TALLY.KEY_KEY_EN d = 1
      then u.decKey (s.fld Reg.TALLY.KEY_KEY_INDEX d) false else u)) ∧
  (∀ (req : Fin 14) (sel : BitVec 10) (v : Word) (s : State) (d : Nat), sel.toNat < 0x200 → Claims.Hits s req 0x32 sel.toNat 0x068 d →
    ∃ t, exec (.tplData req sel v) s = .next t ∧
      tget (0, 0) t.witness.tpl (1024 * s.fld Reg.TALLY.TPL_ADDR_TEMPLATE d + s.fld Reg.TALLY.TPL_ADDR_SAMPLE d) =
        ((BitVec.ofNat 8 v.toNat).toInt, (BitVec.ofNat 8 (v.toNat / 2 ^ 8)).toInt) ∧
      t.fld Reg.TALLY.TPL_ADDR_SAMPLE d = (s.fld Reg.TALLY.TPL_ADDR_SAMPLE d + 1) % 1024 ∧
      t.fld Reg.TALLY.TPL_ADDR_TEMPLATE d = s.fld Reg.TALLY.TPL_ADDR_TEMPLATE d)

end

section

open Sys2Proof Sys2Proof.Machine

/-- COMMIT_ARRIVE with GO at one channel: the whole shadow set joins the channel, as its pending set, or as the queued one where the
channel has a locked set; what is in effect stays; COMMIT_NUM counts it, and LATE says of one with a target whether this lies outside
the window of R93.
COMMIT_LOCK within 256 Tc of a hand-over point not yet marked: the pending set is locked where it fits the symbol that begins there.
SYMBOL_BOUNDARY of a channel that neither waits for a resume nor has this symbol: where a hand-over point is (each symbol, or each slot
with COMMIT_SLOT), the set that applies is in effect with every field, else what was in effect stays.
Shown to complete with its own effect, under these hypotheses alone: commitArrive, commitLock, symbolBoundary. -/
def Obligations.CommitsApplyWhole : Prop :=
  (∀ (req : Fin 14) (tx : Bool) (sel : BitVec 10) (v : Word) (s : State) (i : Nat),
    Claims.Hits s req (if tx then 0x09 else 0x08) sel.toNat 0x060 i → v.getLsbD 0 = true →
    let c := if tx then 512 + i else i
    ∃ t, exec (.commitArrive req tx sel v) s = .next t ∧ (t.strm c).eff = (s.strm c).eff ∧
      t.getS c Reg.STRM_RX.COMMIT_STATE_COMMIT_NUM = (s.getS c Reg.STRM_RX.COMMIT_STATE_COMMIT_NUM + 1) % 2 ^ 16 ∧
      (s.commitTarget c = none → t.getS c Reg.STRM_RX.COMMIT_STATE_LATE = s.getS c Reg.STRM_RX.COMMIT_STATE_LATE) ∧
      (∀ x, s.commitTarget c = some x → (t.getS c Reg.STRM_RX.COMMIT_STATE_LATE = 1 ↔ x = none)) ∧
      ((t.strm c).locked = false → (t.strm c).queued = (s.strm c).queued ∧
        ∃ k, (t.strm c).pend = some k ∧ k.words = s.shadowSet c) ∧
      ((t.strm c).locked = true → (t.strm c).pend = (s.strm c).pend ∧
        ∃ k, (t.strm c).queued = some k ∧ k.words = s.shadowSet c)) ∧
  (∀ (ch : Fin 1024) (s : State), s.timeRuns = true → (s.strm ch).lockDone = false → (s.handOver ch).1 ≤ 256 →
    ∃ t, exec (.commitLock ch) s = .next t ∧ (t.strm ch).lockDone = true ∧ (t.strm ch).eff = (s.strm ch).eff ∧
      (t.strm ch).pend = (s.strm ch).pend ∧
      ((t.strm ch).locked = true ↔ (s.strm ch).locked = true ∨
        ∃ k, (s.strm ch).pend = some k ∧ k.fits (s.sbit ch Reg.STRM_RX.CTL_COMMIT_SLOT) (s.handOver ch).2 = true) ∧
      (t.getS ch Reg.STRM_RX.COMMIT_STATE_LOCKED = 1 ↔ (t.strm ch).locked = true)) ∧
  (∀ (ch : Fin 1024) (s : State), s.timeRuns = true → s.running (strmUnit ch).1 (strmInst ch) = true →
    (s.strm ch).waiting = false → (s.strm ch).cur ≠ some (s.chCode ch (s.chGrid ch 0)) →
    let code := s.chCode ch (s.chGrid ch 0)
    let slotWise := s.sbit ch Reg.STRM_RX.CTL_COMMIT_SLOT
    ∃ t, exec (.symbolBoundary ch) s = .next t ∧
      (slotWise = false ∨ codeSym code = 0 → (t.strm ch).lockDone = false ∧ (t.strm ch).eff =
        match (s.strm ch).applies slotWise false code with
        | some k => k.words
        | none => (s.strm ch).eff) ∧
      (slotWise = true → codeSym code ≠ 0 → (t.strm ch).eff = (s.strm ch).eff ∧ (t.strm ch).pend = (s.strm ch).pend))

end

section

open Sys2Proof Sys2Proof.Machine

/-- Each event of a stream channel or FFT engine that is due takes its oldest symbol one stage on, and leaves the others in order. The
symbol that asked its engine first joins the queue, DEPTH and MAX_DEPTH following, or is dropped and counted when 8 wait there; the head
of a queue is transformed and goes back to its transmit channel before its boundary, or its blocks are written. A symbol whose grid writes are acknowledged has its header
written, with SYM_DONE or SYM_FAIL of its slot set for it; one whose header is acknowledged leaves, and keystones change only
where KEYSIG or PRACH_KEY names one. A PRACH repetition's samples go to the engine; a transmit symbol is read once, then goes to the engine
with its bins placed, or is ready as it is. PA_ON follows what R87 wants. CLR_MAX and CLR_DROPS zero their fields.
Shown to complete with its own effect, under these hypotheses alone: fftSymbolArrive, fftTransformDone, gridWritesAcked, headerWriteAcked,
prachOccasion, txGridRead, txGridReadDone, paEnableChange, fftClearMax, fftClearDrops. -/
def Obligations.SymbolsPassOn : Prop :=
  (∀ (ch : Fin 1024) (s : State) (j : SymJob) (r : List SymJob), (s.strm ch).toFft = j :: r →
    let e := effFld ch j.eff Reg.STRM_RX.FFT_CFG_FFT_SEL
    let q := s.fftQueue e
    s.fftGrant e = some ch.val → ∃ t, exec (.fftSymbolArrive ch) s = .next t ∧ (t.strm ch).toFft = r ∧
      (s.powered 0x0A e = true → s.fencedUnit 0x0A e = false → q.length < 8 → t.fftQueue e = q ++ [(ch.val, j)] ∧
        t.fld Reg.FFT.STATUS_DEPTH e = q.length + 1 ∧
        t.fld Reg.FFT.STATUS_MAX_DEPTH e = max (s.fld Reg.FFT.STATUS_MAX_DEPTH e) (q.length + 1)) ∧
      (8 ≤ q.length → t.fftQueue e = q ∧ t.fld Reg.FFT.DROPS_DROPS e = min (2 ^ 32 - 1) (s.fld Reg.FFT.DROPS_DROPS e + 1) ∧
        t.getS ch Reg.STRM_RX.EVENTS_FFT_DROP = 1 ∧
        (ch.val < 512 → j.prach = false → (t.strm ch).writing = (s.strm ch).writing ++ [{ j with fail := true, data := [] }]) ∧
        (512 ≤ ch.val → (t.strm ch).ready = (s.strm ch).ready ++ [{ j with fail := true, data := [] }]))) ∧
  (∀ (s : State) (e c : Nat), s.fftGrant e = some c → ∃ d, s.fftAsks e c = some d ∧ ∀ c' d', s.fftAsks e c' = some d' → d ≤ d') ∧
  (∀ (engine : Fin 32) (s : State) (c : Nat) (j : SymJob) (r : List (Nat × SymJob)), s.fftQueue engine = (c, j) :: r →
    s.running 0x0A engine = true → ∃ t, exec (.fftTransformDone engine) s = .next t ∧ t.fftQueue engine = r ∧
      (512 ≤ c → (t.strm c).ready = if (s.strm c).startAt < s.symNear c j.sym then (s.strm c).ready ++
        [{ j with data := transform true s.free (min 12 (effFld c j.eff Reg.STRM_RX.FFT_CFG_FFT_SHIFT)) j.data }]
        else (s.strm c).ready) ∧
      (c < 512 → j.prach = false → ∃ ok : Bool, (t.strm c).writing = (s.strm c).writing ++
        [{ j with fail := j.fail || !ok, written := ok, data := [] }])) ∧
  (∀ (ch : Fin 512) (s : State) (j : SymJob) (r : List SymJob), (s.strm ch).writing = j :: r →
    ∃ (t : State) (ok : Bool), exec (.gridWritesAcked ch) s = .next t ∧ (t.strm ch).writing = r ∧
      (t.strm ch).headed = (s.strm ch).headed ++ [{ j with fail := j.fail || !ok }] ∧
      (j.prach = false → ∀ k,
        bitOf ((t.strm ch).headerOf j.slot).1 k = (bitOf ((s.strm ch).headerOf j.slot).1 k || j.written && k == codeSym j.sym) ∧
        bitOf ((t.strm ch).headerOf j.slot).2 k = (bitOf ((s.strm ch).headerOf j.slot).2 k || j.fail && k == codeSym j.sym))) ∧
  (∀ (ch : Fin 512) (s : State) (j : SymJob) (r : List SymJob), (s.strm ch).headed = j :: r →
    ∃ t, exec (.headerWriteAcked ch) s = .next t ∧ (t.strm ch).headed = r ∧
      (j.prach = true → effFld ch j.eff Reg.STRM_RX.PRACH_KEY_KEY_EN = 1 →
        t = (s.setStrm ch { s.strm ch with headed := r }).decKey (effFld ch j.eff Reg.STRM_RX.PRACH_KEY_KEY_INDEX +
          rotate2 (effFld ch j.eff Reg.STRM_RX.PRACH_KEY_ROT_LOG2)
            (j.slot / max 1 (effFld ch j.eff Reg.STRM_RX.PRACH_TIME_PERIOD))) j.fail) ∧
      (j.prach = false → (∀ i, i < 4 → effFld ch j.eff (Reg.STRM_RX.KEYSIG_EN i) = 0) → t.disp = s.disp) ∧
      (j.prach = false → ∃ u : State, u.disp = s.disp ∧ t = u.keysigs ch j j.fail)) ∧
  (∀ (ch : Fin 512) (s : State) (p : Prach) (r : List Prach), (s.strm ch).prach = p :: r → s.chRuns ch = true →
    let need := fftSize (effFld ch p.eff Reg.STRM_RX.PRACH_CTL_PR_FFT) * max 1 (effFld ch p.eff Reg.STRM_RX.PRACH_CTL_DECIM)
    need ≤ p.got.length →
    ∃ (t : State) (j : SymJob), exec (.prachOccasion ch) s = .next t ∧ (t.strm ch).toFft = (s.strm ch).toFft ++ [j] ∧
      j.prach = true ∧ j.slot = p.slot ∧ j.rep = p.rep ∧ j.eff = p.eff ∧ j.fail = (p.miss.take need).any id ∧
      (t.strm ch).prach = (if p.rep + 1 < max 1 (effFld ch p.eff Reg.STRM_RX.PRACH_CTL_REPS)
        then [{ p with rep := p.rep + 1, got := p.got.drop need, miss := p.miss.drop need }] else []) ++ r) ∧
  (∀ (ch : Fin 512) (s : State),
    let c := 512 + ch.val
    let code := s.chCode c (s.chGrid c (64 * s.sfld c Reg.STRM_TX.TX_LEAD_LEAD))
    s.chRuns c = true → (s.strm c).waiting = false → (s.strm c).stopped = false → s.chActive c code = true →
    (s.strm c).readSym ≠ some code → ∃ (t : State) (j : SymJob), exec (.txGridRead ch) s = .next t ∧
      (t.strm c).readSym = some code ∧ (t.strm c).reading = (s.strm c).reading ++ [j] ∧ j.sym = code ∧ j.prach = false ∧
      j.eff = (s.strm c).eff) ∧
  (∀ (ch : Fin 512) (s : State) (j : SymJob) (r : List SymJob),
    let c := 512 + ch.val
    (s.strm c).reading = j :: r → ∃ t, exec (.txGridReadDone ch) s = .next t ∧
      (effFld c j.eff Reg.STRM_RX.CTL_FREQ_DOMAIN = 0 → (t.strm c).reading = r ∧
        (effFld c j.eff Reg.STRM_RX.CTL_PROC = 1 → (t.strm c).toFft = (s.strm c).toFft ∧
          (t.strm c).ready = if (s.strm c).startAt < s.symNear c j.sym then (s.strm c).ready ++ [j] else (s.strm c).ready) ∧
        (effFld c j.eff Reg.STRM_RX.CTL_PROC = 0 → (t.strm c).ready = (s.strm c).ready ∧
          (t.strm c).toFft = (s.strm c).toFft ++ [{ j with data := txBins c j j.data, due := s.disp.dlclk / 4 }])) ∧
      (effFld c j.eff Reg.STRM_RX.CTL_FREQ_DOMAIN = 1 →
        t = ((s.setStrm c { s.strm c with reading := r }).keysigs c j false).flowSend c j
          (chunks (1 + 3 * mantW (effFld c j.eff Reg.STRM_RX.PRB_MANT))
            (j.data.length / (1 + 3 * mantW (effFld c j.eff Reg.STRM_RX.PRB_MANT))) (j.data.map (fun y => BitVec.ofInt 8 y.1))))) ∧
  (∀ (ch : Fin 512) (s : State), s.bit Reg.STRM_TX.STATUS_PA_ON ch ≠ s.paWanted (512 + ch.val) →
    ∃ t, exec (.paEnableChange ch) s = .next t ∧ t.bit Reg.STRM_TX.STATUS_PA_ON ch = s.paWanted (512 + ch.val) ∧
      (∀ d : Fin 512, d ≠ ch → t.bit Reg.STRM_TX.STATUS_PA_ON d = s.bit Reg.STRM_TX.STATUS_PA_ON d) ∧ t.mem = s.mem) ∧
  (∀ (req : Fin 14) (sel : BitVec 10) (s : State) (i : Nat), Claims.Hits s req 0x0A sel.toNat 0x008 i →
    exec (.fftClearMax req sel) s = .next (s.setFld Reg.FFT.STATUS_MAX_DEPTH i 0) ∧
    exec (.fftClearDrops req sel) s = .next (s.setFld Reg.FFT.DROPS_DROPS i 0))

end

section

open Sys2Proof Sys2Proof.Machine

/-- TIMING_LOCK starts every time base, DLCLK and TCNT from 0, with the servos as SOURCE says. A step moves one time base to the given time (SET), forward or back (NEG),
counts once and keeps its hidden bits; a sample makes I and FREQ the clamped values of R363, or steps by −e and leaves both where a
step is due. OFFSET_GO is a sample where SOURCE is 1. Each time base with SOURCE 2 counts a PPS edge as accepted, or as rejected within
half a second of the last one. HOLD_MS without a sample is HOLDOVER with FREQ kept; a new SOURCE of 1 or 2 is ACQUIRING, of 0 or 3 FREE,
once the time bases run. A FRAME_OFFSET or SFN_OFFSET write stores its word, and is a discontinuity where it changes it; on TB_0 the tally
periods that are over are taken first, and the one in progress runs on. REF_LOST follows the reference. A read
of TIME_SEC_LO returns the seconds and latches the other five words for its requester alone.
Shown to complete with its own effect, under these hypotheses alone: timingLock, stepGo, frameOffsetWrite, offsetGo, ppsInEdge,
servoHoldover, servoSourceWrite, refLost, refRestored, timeSecLoRead. -/
def Obligations.TimeBasesStepAndSteer : Prop :=
  (∀ s : State, s.timeRuns = false → ∃ t, exec .timingLock s = .next t ∧ t.timeRuns = true ∧ t.disp.dlclk = 0 ∧ t.time.tcnt = 0 ∧
    (∀ n, n < 4 → (t.tb n).stamp = 0 ∧ t.fld Reg.TB.SERVO_STATUS_STATE n =
      if s.fld Reg.TB.SERVO_CTL_SOURCE n = 1 ∨ s.fld Reg.TB.SERVO_CTL_SOURCE n = 2 then 1 else 0) ∧
    t.devclk = s.devclk ∧ t.mem = s.mem) ∧
  (∀ (req : Fin 14) (sel : BitVec 10) (v : Word) (s : State) (n : Nat), Claims.Hits s req 0x60 sel.toNat 0x024 n → s.timeRuns = true →
    let x : Nat := (s.fld Reg.TB.STEP_SEC_LO_SEC_LO n + 2 ^ 32 * s.fld Reg.TB.STEP_SEC_HI_SEC_HI n) * stampSecond +
      s.fld Reg.TB.STEP_NS_NS n * 65536 + v.toNat % 2 ^ 16
    let new : Int := if s.fld Reg.TB.STEP_SEC_HI_SET n = 1 then x
      else if s.fld Reg.TB.STEP_SEC_HI_NEG n = 1 then ((s.tb n).stamp : Int) - x else ((s.tb n).stamp : Int) + x
    ∃ t, exec (.stepGo req sel v) s = .next t ∧ ((t.tb n).stamp : Int) = new % (2 ^ 48 * stampSecond : Nat) ∧
      (t.tb n).frac.toNat % 2 ^ 32 = (s.tb n).frac.toNat % 2 ^ 32 ∧ (∀ m, m ≠ n → t.tb m = s.tb m) ∧
      t.fld Reg.TB.STEPS_COUNT n = (s.fld Reg.TB.STEPS_COUNT n + 1) % 2 ^ 32) ∧
  (∀ (req : Fin 14) (sel : BitVec 10) (sfn : Bool) (v : Word) (s : State) (n : Nat),
    let off := if sfn then 0x02C else 0x028
    Claims.Hits s req 0x60 sel.toNat off n → ∃ t, exec (.frameOffsetWrite req sel sfn v) s = .next t ∧
      t.reg 0x60 n off = (s.storeReg 0x60 n off v).reg 0x60 n off ∧ t.time.tbs = s.time.tbs ∧
      (n ≠ 0 ∨ s.timeRuns = false →
        (s.timeRuns = false ∨ (s.storeReg 0x60 n off v).reg 0x60 n off = s.reg 0x60 n off → t = s.storeReg 0x60 n off v) ∧
        (s.timeRuns = true → (s.storeReg 0x60 n off v).reg 0x60 n off ≠ s.reg 0x60 n off →
          t = (s.storeReg 0x60 n off v).gridMoved n)) ∧
      (n = 0 → s.timeRuns = true → t.mem = s.mem ∧ t.devclk = s.devclk ∧
        let p := State.periodsOver 1000 s
        ((s.storeReg 0x60 0 off v).reg 0x60 0 off = s.reg 0x60 0 off → t = p.storeReg 0x60 0 off v) ∧
        ((s.storeReg 0x60 0 off v).reg 0x60 0 off ≠ s.reg 0x60 0 off → sfn = true → t = (p.storeReg 0x60 0 off v).gridMoved 0) ∧
        ((s.storeReg 0x60 0 off v).reg 0x60 0 off ≠ s.reg 0x60 0 off → sfn = false →
          t = ((p.storeReg 0x60 0 off v).gridMoved 0).periodMoved p.periodPassed))) ∧
  (∀ (req : Fin 14) (sel : BitVec 10) (v : Word) (s : State) (n : Nat), Claims.Hits s req 0x60 sel.toNat 0x050 n →
    s.fld Reg.TB.SERVO_CTL_SOURCE n = 1 → exec (.offsetGo req sel v) s = .next (s.servoSample n
      (signedOf 32 (s.fld Reg.TB.OFFSET_NS_NS n) * 65536 + s.fld Reg.TB.OFFSET_FRAC_FRAC n) (v.getLsbD 0))) ∧
  (∀ (n : Fin 4) (e : Int) (ok : Bool) (s : State), s.timeRuns = true →
    let t := s.servoSample n e ok
    let lim := s.servoLimit n
    let I := clampInt (-lim) lim ((s.tb n).integral - s.fld Reg.TB.SERVO_KI_KI n * e)
    let F := clampInt (-lim) lim (I - s.fld Reg.TB.SERVO_KP_KP n * e)
    (s.fld Reg.TB.SERVO_CTL_STEP_EN n = 1 ∧ s.fld Reg.TB.SERVO_THRESH_STEP_THRESH n * 65536 ≤ e.natAbs ∧
        (s.fld Reg.TB.SERVO_CTL_SOURCE n = 2 ∨ ok = true) →
      ((t.tb n).stamp : Int) = (((s.tb n).stamp : Int) - e) % (2 ^ 48 * stampSecond : Nat) ∧ (t.tb n).integral = (s.tb n).integral ∧
        (t.tb n).freq = (s.tb n).freq ∧ (t.tb n).run = 0 ∧ t.fld Reg.TB.SERVO_STATUS_STATE n = 1) ∧
    (¬ (s.fld Reg.TB.SERVO_CTL_STEP_EN n = 1 ∧ s.fld Reg.TB.SERVO_THRESH_STEP_THRESH n * 65536 ≤ e.natAbs ∧
        (s.fld Reg.TB.SERVO_CTL_SOURCE n = 2 ∨ ok = true)) →
      (t.tb n).stamp = (s.tb n).stamp ∧ (t.tb n).integral = I ∧ (t.tb n).freq = F ∧
        (t.tb n).run = (if e.natAbs < s.fld Reg.TB.SERVO_THRESH_LOCK_NS n * 65536 then (s.tb n).run + 1 else 0) ∧
        (4 ≤ (t.tb n).run → t.fld Reg.TB.SERVO_STATUS_STATE n = 2))) ∧
  (∀ (sub : BitVec 10) (s : State), ∃ t, exec (.ppsInEdge sub) s = .next t ∧ t.mem = s.mem ∧
    ∀ n, n < 4 → s.fld Reg.TB.SERVO_CTL_SOURCE n = 2 → s.timeRuns = true →
      let st := (s.tb n).stamp / 1024 * 1024 + sub.toNat * 1024
      let early := ∃ p, (s.tb n).lastPps = some p ∧ (st : Int) - p < stampSecond / 2
      (early → t.fld Reg.TB.PPS_REJECTED_COUNT n = (s.fld Reg.TB.PPS_REJECTED_COUNT n + 1) % 2 ^ 32 ∧
        t.fld Reg.TB.PPS_EDGES_COUNT n = s.fld Reg.TB.PPS_EDGES_COUNT n ∧ t.tb n = s.tb n) ∧
      (¬ early → t.fld Reg.TB.PPS_EDGES_COUNT n = (s.fld Reg.TB.PPS_EDGES_COUNT n + 1) % 2 ^ 32 ∧
        t.fld Reg.TB.PPS_REJECTED_COUNT n = s.fld Reg.TB.PPS_REJECTED_COUNT n)) ∧
  (∀ (n : Fin 4) (s : State), s.timeRuns = true → s.fld Reg.TB.SERVO_CTL_SOURCE n = 1 ∨ s.fld Reg.TB.SERVO_CTL_SOURCE n = 2 →
    s.fld Reg.TB.SERVO_STATUS_STATE n ≠ 3 →
    max 1 (s.fld Reg.TB.SERVO_HOLD_HOLD_MS n) * 100000 ≤ s.devclk.toNat - (s.tb n).lastSample →
    ∃ t, exec (.servoHoldover n) s = .next t ∧ t.fld Reg.TB.SERVO_STATUS_STATE n = 3 ∧
      t.fld Reg.TB.SERVO_FREQ_FREQ n = s.fld Reg.TB.SERVO_FREQ_FREQ n ∧ t.time = s.time) ∧
  (∀ (req : Fin 14) (sel : BitVec 10) (v : Word) (s : State) (n : Nat), Claims.Hits s req 0x60 sel.toNat 0x030 n →
    ∃ t, exec (.servoSourceWrite req sel v) s = .next t ∧ t.fld Reg.TB.SERVO_CTL_SOURCE n = v.toNat % 4 ∧
      (n ≠ 0 → t.fld Reg.TB.SERVO_CTL_FREQ_REF n = 0) ∧
      (v.toNat % 4 = s.fld Reg.TB.SERVO_CTL_SOURCE n →
        t.fld Reg.TB.SERVO_STATUS_STATE n = s.fld Reg.TB.SERVO_STATUS_STATE n ∧ t.time = s.time) ∧
      (s.timeRuns = false → t.fld Reg.TB.SERVO_STATUS_STATE n = s.fld Reg.TB.SERVO_STATUS_STATE n ∧ t.time = s.time) ∧
      (s.timeRuns = true → v.toNat % 4 ≠ s.fld Reg.TB.SERVO_CTL_SOURCE n → t.fld Reg.TB.SERVO_STATUS_STATE n =
        if v.toNat % 4 = 1 ∨ v.toNat % 4 = 2 then 1 else 0)) ∧
  (∀ s : State, s.fld Reg.TB.SERVO_STATUS_REF_LOST 0 = 0 → ∃ t, exec .refLost s = .next t ∧
    t.fld Reg.TB.SERVO_STATUS_REF_LOST 0 = 1 ∧ t.time = s.time) ∧
  (∀ s : State, s.fld Reg.TB.SERVO_STATUS_REF_LOST 0 = 1 → s.refThere = true → ∃ t, exec .refRestored s = .next t ∧
    t.fld Reg.TB.SERVO_STATUS_REF_LOST 0 = 0 ∧ t.time = s.time) ∧
  (∀ (req : Fin 14) (sel : BitVec 10) (s : State) (n : Nat), s.readTarget 0x60 sel.toNat 0x000 = some n →
    ∃ t, exec (.timeSecLoRead req sel) s = .next t ∧ tget 0 t.returned req = (s.tbWords n).getD 0 0 ∧
      (∀ i, 1 ≤ i → i ≤ 5 → t.heldFor req 0x60 n (4 * i) = (s.tbWords n).getD i 0) ∧
      (∀ r : Fin 14, r ≠ req → ∀ o, o < 0x400 → t.heldFor r 0x60 n o = s.heldFor r 0x60 n o) ∧ t.time = s.time ∧ t.csr = s.csr)

end

section

open Sys2Proof Sys2Proof.Machine

/-- A push to a full queue of 16 is dropped and counted; else the entry formed from the registers joins the queue, and what is due fires.
TDD_EDGE_FIRE with an entry due: every entry left lies ahead of now, those that lay ahead stay as they were, and SCHED is the level of
the latest entry due. CLEAR empties the queue and keeps SCHED. At a slot start the pin is quiet where the mode wants it, and drives again
where the mode has let it go for 64 SAMP cycles. PPS_OUT rises for the lowest time base with EN, within 20 Tc of its whole second, once a
second, and falls WIDTH_US later or when none drives it.
Shown to complete with its own effect, under these hypotheses alone: edgePush, tddEdgeFire, clrQueue, tddOutSlotStart, ppsOutRise,
ppsOutFall. -/
def Obligations.EdgesFireInOrder : Prop :=
  (∀ (req : Fin 14) (sel : BitVec 10) (v : Word) (s : State) (p : Nat), Claims.Hits s req 0x62 sel.toNat 0x01C p →
    ∃ t, exec (.edgePush req sel v) s = .next t ∧
      (16 ≤ (s.pin p).queue.length → t.pin p = s.pin p ∧
        t.fld Reg.TDD_OUT.DROPS_COUNT p = (s.fld Reg.TDD_OUT.DROPS_COUNT p + 1) % 2 ^ 32) ∧
      ((s.pin p).queue.length < 16 → ∃ e : Edge, e.level = v.getLsbD 0 ∧ e.period = s.fld Reg.TDD_OUT.EDGE_PERIOD_PERIOD p ∧
        e.count = s.fld Reg.TDD_OUT.EDGE_COUNT_COUNT p ∧
        e.t = ((s.fld Reg.TDD_OUT.EDGE_SEC_SEC p + 2 ^ 32 * ((s.tb (s.fld Reg.TDD_OUT.CTL_TB p)).sec.toNat / 2 ^ 32)) * tcSecond +
          s.fld Reg.TDD_OUT.EDGE_TC_TC p : Nat) ∧
        (s.timeRuns = false ∨ s.pinTime p < e.t ∧ (∀ x ∈ (s.pin p).queue, s.pinTime p < x.t) →
          t.pin p = { s.pin p with queue := (s.pin p).queue ++ [e] }) ∧
        (s.timeRuns = true → e.t ≤ s.pinTime p → (∀ x ∈ (s.pin p).queue, x.t < e.t) → (t.pin p).sched = e.level))) ∧
  (∀ (pin : Fin 16) (s : State), s.timeRuns = true → (∃ e ∈ (s.pin pin).queue, e.t ≤ s.pinTime pin) →
    ∃ t, exec (.tddEdgeFire pin) s = .next t ∧ (∀ e ∈ (t.pin pin).queue, s.pinTime pin < e.t) ∧
      (∀ e ∈ (s.pin pin).queue, s.pinTime pin < e.t → e ∈ (t.pin pin).queue) ∧
      (∀ e ∈ (s.pin pin).queue, e.t ≤ s.pinTime pin →
        (∀ x ∈ (s.pin pin).queue, x.t ≤ s.pinTime pin → x = e ∨ x.t < e.t) → (t.pin pin).sched = e.level) ∧
      (∀ q : Fin 16, q ≠ pin → t.pin q = s.pin q) ∧ t.mem = s.mem) ∧
  (∀ (req : Fin 14) (sel : BitVec 10) (v : Word) (s : State) (p : Nat), Claims.Hits s req 0x62 sel.toNat 0x008 p → v.getLsbD 0 = true →
    ∃ t, exec (.clrQueue req sel v) s = .next t ∧ t.pin p = { s.pin p with queue := [] } ∧
      t.fld Reg.TDD_OUT.STATUS_QUEUED p = 0) ∧
  (∀ (pin : Fin 16) (s : State), s.timeRuns = true →
    let n := s.fld Reg.TDD_OUT.CTL_TB pin
    let mu := muOf (s.fld Reg.TDD_OUT.CTL_MU pin)
    let code := symCode mu false (s.fld Reg.TB.GRID_CFG_SFN_OFFSET n) (gridAt mu false (s.gridTime n)) / 16
    (s.pin pin).slot ≠ some code → ∃ t, exec (.tddOutSlotStart pin) s = .next t ∧ t.pin pin = { s.pin pin with slot := some code } ∧
      t.fld Reg.TDD_OUT.STATUS_QUIET pin = (if s.quietMode = true then 1 else if s.quietOver = true then 0
        else s.fld Reg.TDD_OUT.STATUS_QUIET pin)) ∧
  (∀ (s : State) (n : Nat), s.ppsDriver = some n → s.timeRuns = true → (s.ppsTime n).2 < 20 →
    (s.tb n).ppsLast ≠ some (s.ppsTime n).1.toNat → ∃ t, exec .ppsOutRise s = .next t ∧ t.time.ppsOut = true ∧
      (t.tb n).ppsHigh = some s.devclk.toNat ∧ (t.tb n).ppsLast = some (s.ppsTime n).1.toNat ∧ (t.tb n).stamp = (s.tb n).stamp ∧
      t.csr = s.csr) ∧
  (∀ (s : State), s.time.ppsOut = true → (s.ppsDriver = none ∨ ∃ n t0, s.ppsDriver = some n ∧ (s.tb n).ppsHigh = some t0 ∧
      max 1 (s.fld Reg.TB.PPS_OUT_WIDTH_US n) * 100 ≤ s.devclk.toNat - t0) →
    exec .ppsOutFall s = .next { s with time := { s.time with ppsOut := false } })

end

section

open Sys2Proof Sys2Proof.Machine

/-- Each lane or link event that is due has its effect. LANES_CAL locks every quad; SWITCHED ends a switch, or starts the held one. RECAL
runs, and ends where the line part can be done, or 1 s on without it. A clean adaptation window updates, a spoiled one is held, with
ADAPT_EN 0 the setting is RXEQ's; at its boundary TXFIR takes effect. TX_EN and RX_EN bring an
Ahnent lane from DOWN to TRAIN, or take it DOWN; TRAIN ends in ALIGN, but for sending in Raising; a direction in ALIGN past RETRAIN_US trains
again, each by its own time. A transmit multiframe counts
MFN, sends 32 blocks where the lane sends, and the protection lane sends the working lane's. A received one takes ALIGN to UP after 64
valid headers and 4 good multiframes running at an Ahnent rate, and only then; it leaves DOWN and TRAIN alone. IDLE_ENTER queues its word and idle begins two
multiframes on; IDLE_EXIT is UP again, late where needed already; electrical idle is IDLE only when announced, else a loss to ALIGN, as
is CDR loss of an UP lane. USER words queue in order and are read in order; ACTIVE is taken at the next multiframe.
Shown to complete with its own effect, under these hypotheses alone: lanesCal, switched, recalGo, recalDone, adaptWindow, txEnWrite,
ahnentTxMultiframe, ahnentRxMultiframe, ahnentTrainDone, ahnentAlignTimeout, idleEnter, idleExit, ahnentRxIdle, userCw, ahnentActiveWrite,
rxCwRead, cdrLoss. -/
def Obligations.LanesAndLinkEvents : Prop :=
  (∀ s : State, s.fld Reg.SYS.RAISE_STATUS_LANES_CAL 0 = 0 → ∃ t, exec .lanesCal s = .next t ∧
    t.fld Reg.SYS.RAISE_STATUS_LANES_CAL 0 = 1 ∧ (∀ q, q < 12 → t.fld Reg.LANEQ.STATUS_PLL_LOCK q = 1 ∧
      t.fld Reg.LANEQ.STATUS_CAL_DONE q = 1) ∧ t.mem = s.mem) ∧
  (∀ (q : Fin 12) (s : State), s.fld Reg.LANEQ.STATUS_SWITCHING q = 1 → ∃ t, exec (.switched q) s = .next t ∧
    tget none t.lanes.held q = none ∧
    (tget none s.lanes.held q = none → t.fld Reg.LANEQ.STATUS_SWITCHING q = 0 ∧ t.fld Reg.LANEQ.STATUS_PLL_LOCK q = 1 ∧
      t.fld Reg.LANEQ.STATUS_CAL_DONE q = 1 ∧ t.reg 0x50 q 0x000 = s.reg 0x50 q 0x000) ∧
    (∀ v, tget none s.lanes.held q = some v → t.fld Reg.LANEQ.STATUS_SWITCHING q = 1 ∧ t.fld Reg.LANEQ.STATUS_PLL_LOCK q = 0 ∧
      t.fld Reg.LANEQ.STATUS_HELD q = 0 ∧ (t.reg 0x50 q 0x000).toNat = v % 8)) ∧
  (∀ (req : Fin 14) (sel : BitVec 10) (v : Word) (s : State) (l : Nat), Claims.Hits s req 0x51 sel.toNat 0x014 l → v.getLsbD 0 = true →
    s.fld Reg.LANE.STATUS_RECAL_BUSY l = 0 → ∃ t, exec (.recalGo req sel v) s = .next t ∧
      t.fld Reg.LANE.STATUS_RECAL_BUSY l = 1 ∧ tget 0 t.lanes.recal l = s.devclk.toNat + 1 ∧ t.lanes.ahn = s.lanes.ahn) ∧
  (∀ (lane : Fin 48) (s : State), s.fld Reg.LANE.STATUS_RECAL_BUSY lane = 1 →
    let line := s.quadProto (lane / 4) = 0 ∨ tget false s.lanes.gap lane = true ∨ s.inGap lane = true
    let late := 100000000 ≤ s.devclk.toNat + 1 - tget 0 s.lanes.recal lane
    (line ∨ late → ∃ t, exec (.recalDone lane (decide line)) s = .next t ∧ t.fld Reg.LANE.STATUS_RECAL_BUSY lane = 0 ∧
      tget 0 t.lanes.recal lane = 0) ∧
    (¬ line → ¬ late → ∀ b, exec (.recalDone lane b) s = .next s)) ∧
  (∀ (lane : Fin 48) (levels : List Nat) (trans : Nat) (spoiled : Bool) (s : State),
    let good := (∀ i, i < (if 2 ≤ s.quadRate (lane / 4) then 4 else 2) → s.fld Reg.LANE.GATE_MIN_LEVEL lane ≤ levels.getD i 0) ∧
      s.fld Reg.LANE.GATE_MIN_TRANS lane ≤ trans ∧ spoiled = false ∧ s.fld Reg.LANE.STATUS_CDR_LOCK lane = 1 ∧ s.rxState lane ≠ 4
    ∃ t, exec (.adaptWindow lane levels trans spoiled) s = .next t ∧ t.firNow lane = s.reg 0x51 lane 0x004 ∧
      (s.fld Reg.LANE.CTL_ADAPT_EN lane = 0 → t.fld Reg.LANE.EQ_NOW_CTLE lane = s.fld Reg.LANE.RXEQ_CTLE lane) ∧
      (s.fld Reg.LANE.CTL_ADAPT_EN lane = 1 → good →
        t.fld Reg.LANE.ADAPT_UPDATES_COUNT lane = (s.fld Reg.LANE.ADAPT_UPDATES_COUNT lane + 1) % 2 ^ 32 ∧
        t.fld Reg.LANE.ADAPT_HELD_COUNT lane = s.fld Reg.LANE.ADAPT_HELD_COUNT lane) ∧
      (s.fld Reg.LANE.CTL_ADAPT_EN lane = 1 → ¬ good → t = (s.takeFir lane).addFld Reg.LANE.ADAPT_HELD_COUNT lane 1)) ∧
  (∀ (req : Fin 14) (sel : BitVec 10) (v : Word) (s : State) (l : Nat), Claims.Hits s req 0x51 sel.toNat 0x000 l →
    let u := s.storeReg 0x51 l 0x000 v
    ∃ t, exec (.txEnWrite req sel v) s = .next t ∧ (s.quadProto (l / 4) = 1 →
      (u.fld Reg.LANE.CTL_TX_EN l = 0 ∨ s.quadReady (l / 4) = false → t.txState l = 0 ∧ t.rxState l = 0) ∧
      (u.fld Reg.LANE.CTL_TX_EN l = 1 → s.quadReady (l / 4) = true →
        t.txState l = (if s.txState l = 0 then 1 else s.txState l) ∧
        t.rxState l = (if u.fld Reg.LANE.CTL_RX_EN l = 0 then 0 else if s.rxState l = 0 then 1 else s.rxState l)))) ∧
  (∀ (lane : Fin 48) (s : State), s.quadProto (lane / 4) = 1 → s.quadReady (lane / 4) = true →
    let sends := (s.txState lane = 2 ∨ s.txState lane = 3) ∧ (s.ahn lane).idleIn ≠ some 0 ∧ s.fld Reg.LANE.PRBS_TX_PRBS lane = 0 ∧
      s.modes.mode ≠ .raising
    ∃ t, exec (.ahnentTxMultiframe lane) s = .next t ∧
      ((s.ahn lane).idleIn = some 0 → t.txState lane = 4) ∧
      (¬ sends → (t.ahn lane).lastSent = (s.ahn lane).lastSent ∧ (t.ahn lane).mfnTx = ((s.ahn lane).mfnTx + 1) % 256) ∧
      (sends → s.protPair (lane / 4) = none →
        (t.ahn lane).lastSent.length = 32 ∧ (t.ahn lane).mfnTx = ((s.ahn lane).mfnTx + 1) % 256) ∧
      (∀ w p, sends → s.protPair (lane / 4) = some (w, p) → lane.val = p → p ≠ w →
        (t.ahn lane).lastSent = (s.ahn w).lastSent ∧ (t.ahn lane).mfnTx = (((s.ahn w).mfnTx + 255) % 256 + 1) % 256)) ∧
  (∀ (lane : Fin 48) (blocks : List (BitVec 66)) (s : State), s.quadProto (lane / 4) = 1 → s.quadReady (lane / 4) = true →
    ∃ t, exec (.ahnentRxMultiframe lane blocks) s = .next t ∧ tget none t.lanes.switchTo (lane / 4) = none ∧
      (s.rxState lane < 2 → t.rxState lane = s.rxState lane ∧ ∀ b, tget none s.lanes.switchTo (lane / 4) = some b →
        t.fld Reg.AHNENT.PROTECT_ACTIVE (lane / 4) = b2n b) ∧
      (s.rxState lane = 2 → t.rxState lane =
        if 64 ≤ (t.ahn lane).syncRun ∧ 4 ≤ (t.ahn lane).good ∧ (s.quadRate (lane / 4) = 1 ∨ s.quadRate (lane / 4) = 3) then 3 else 2) ∧
      (s.rxState lane = 3 ∨ s.rxState lane = 4 → t.rxState lane = 3 ∨ t.rxState lane = 2)) ∧
  (∀ (lane : Fin 48) (rx : Bool) (s : State),
    let us := max 1 (s.fld Reg.AHNENT.TIMING_TRAIN_US (lane / 4)) * 100
    (rx = true → s.rxState lane = 1 → us ≤ s.devclk.toNat - (s.ahn lane).rxSince →
      ∃ t, exec (.ahnentTrainDone lane rx) s = .next t ∧ t.rxState lane = 2 ∧ t.fld Reg.LANE.STATUS_CDR_LOCK lane = 1 ∧
        t.fld Reg.LANE.STATUS_SIGNAL lane = 1 ∧ t.txState lane = s.txState lane) ∧
    (rx = false → s.txState lane = 1 → us ≤ s.devclk.toNat - (s.ahn lane).txSince →
      (s.modes.mode ≠ .raising → ∃ t, exec (.ahnentTrainDone lane rx) s = .next t ∧ t.rxState lane = s.rxState lane ∧
        t.txState lane = if s.rxState lane = 3 ∨ s.rxState lane = 4 then 3 else 2) ∧
      (s.modes.mode = .raising → exec (.ahnentTrainDone lane rx) s = .next s))) ∧
  (∀ (lane : Fin 48) (s : State),
    let us := max 1 (s.fld Reg.AHNENT.TIMING_RETRAIN_US (lane / 4)) * 100
    ∃ t, exec (.ahnentAlignTimeout lane) s = .next t ∧
      t.rxState lane = (if s.rxState lane = 2 ∧ us ≤ s.devclk.toNat - (s.ahn lane).rxSince then 1 else s.rxState lane) ∧
      t.txState lane = (if s.txState lane = 2 ∧ us ≤ s.devclk.toNat - (s.ahn lane).txSince then 1 else s.txState lane)) ∧
  (∀ (lane : Fin 48) (s : State), s.fld Reg.AHNENT.CTL_IDLE_EN (lane / 4) = 1 → s.txState lane = 2 ∨ s.txState lane = 3 →
    (s.ahn lane).idleIn = none →
    s.laneNeeds lane (nsTc (max 1 (s.fld Reg.AHNENT.IDLE_CFG_IDLE_MIN (lane / 4)) * 100 + 64) +
      s.mfTc (lane / 4) (s.cwLead (lane / 4) + 2)) = false →
    ∃ t, exec (.idleEnter lane) s = .next t ∧ (t.ahn lane).words = (s.ahn lane).words ++ [⟨0, 5, 0, 1⟩] ∧
      (t.ahn lane).idleIn = some 2 ∧ t.txState lane = s.txState lane) ∧
  (∀ (lane : Fin 48) (s : State), s.txState lane = 4 → s.quadReady (lane / 4) = true →
    ¬ (s.actsAs = .witness ∧ s.quietMode = true ∧ s.fld Reg.AHNENT.CTL_IDLE_EN (lane / 4) = 1) →
    s.laneNeeds lane (s.mfTc (lane / 4) (s.cwLead (lane / 4) + 1)) = true → ∃ t, exec (.idleExit lane) s = .next t ∧
      t.txState lane = 3 ∧ t.fld Reg.AHNENT.IDLE_LATE_COUNT (lane / 4) =
        (s.fld Reg.AHNENT.IDLE_LATE_COUNT (lane / 4) + (if s.laneNeeds lane 0 then 1 else 0)) % 2 ^ 32) ∧
  (∀ (lane : Fin 48) (s : State), s.rxState lane = 3 → ∃ t, exec (.ahnentRxIdle lane) s = .next t ∧ t.rxState lane =
    (if (s.ahn lane).idleWarned = true ∧ s.fld Reg.AHNENT.CTL_RX_IDLE_OK (lane / 4) = 1 then 4 else 2)) ∧
  (∀ (req : Fin 14) (sel : BitVec 10) (v : Word) (s : State) (q : Nat), sel.toNat < 0x200 → Claims.Hits s req 0x52 sel.toNat 0x00C q →
    let l := 4 * q + wordField v 1 0
    let w : CtlWord := ⟨wordField v 5 2, 6, 0, wordField v 31 16⟩
    ∃ t, exec (.userCw req sel v) s = .next t ∧
      ((s.ahn l).words.length < 32 → (t.ahn l).words = (s.ahn l).words ++ [w] ∧ t.lanes.waitingWords = s.lanes.waitingWords) ∧
      (32 ≤ (s.ahn l).words.length → t.ahn l = s.ahn l ∧
        tget [] t.lanes.waitingWords l = tget [] s.lanes.waitingWords l ++ [w])) ∧
  (∀ (req : Fin 14) (sel : BitVec 10) (v : Word) (s : State) (q : Nat), sel.toNat < 0x200 → Claims.Hits s req 0x52 sel.toNat 0x010 q →
    ∃ t, exec (.ahnentActiveWrite req sel v) s = .next t ∧
      t.fld Reg.AHNENT.PROTECT_ACTIVE q = s.fld Reg.AHNENT.PROTECT_ACTIVE q ∧ t.lanes.ahn = s.lanes.ahn ∧
      (wordField v 17 17 ≠ s.fld Reg.AHNENT.PROTECT_ACTIVE q → tget none t.lanes.switchTo q = some (v.getLsbD 17))) ∧
  (∀ (req : Fin 14) (sel : BitVec 10) (lane : Fin 4) (s : State) (q : Nat), sel.toNat < 0x200 →
    s.readTarget 0x52 sel.toNat (0x070 + 4 * lane) = some q → ∃ t, exec (.rxCwRead req sel lane) s = .next t ∧
      (t.ahn (4 * q + lane)).rxWords = (s.ahn (4 * q + lane)).rxWords.drop 1 ∧
      tget 0 t.returned req = (match (s.ahn (4 * q + lane)).rxWords with
        | [] => 0
        | (st, a) :: _ => BitVec.ofNat 32 (1 + st * 16 + 2 ^ 16 * a))) ∧
  (∀ (lane : Fin 48) (s : State), s.fld Reg.LANE.STATUS_CDR_LOCK lane = 1 → ∃ t, exec (.cdrLoss lane) s = .next t ∧
    t.fld Reg.LANE.STATUS_CDR_LOCK lane = 0 ∧
    t.rxState lane = (if s.quadProto (lane / 4) = 1 ∧ s.rxState lane = 3 then 2 else s.rxState lane))

end

namespace Sys2Proof.Claims

open Sys2Proof.Machine

/-- The energy of a point's step in 2^-14 mite with what the last one carried: its own, or the mean step where it is in fault. -/
def stepTotal (s : State) (p raw : Nat) : Nat :=
  if s.fld Reg.METER.STATUS_FAULT p = 1 then (s.meter p).frac + (s.meter p).meanStep
  else (s.meter p).frac + s.stepEnergy p raw

/-- The mites that count on in account `a` at a period's close where `amount` 1/256 mites are due: none above its ceiling. -/
def minted (s : State) (a amount : Nat) : Int :=
  max 0 (min ((s.account a).credit.toInt + amount) (256 * (s.fld Reg.ACCOUNT.CEIL_CEIL a : Int)) - (s.account a).credit.toInt)

/-- The period that PERIOD_CLOSE closes, with its actual and nominal length: the oldest that waits, else the one that is over now. -/
def closing (s : State) : Option (Nat × Nat) :=
  match s.ledger.closes with
  | x :: _ => some x
  | [] => s.periodOver.map (fun x => (x.1, x.2.1))

end Sys2Proof.Claims

section

open Sys2Proof Sys2Proof.Machine

/-- At a multiple of 100 of DEVCLK, once, METER_STEP adds each of the 48 points' step energy in whole mites to its ENERGY and period and carries the fraction; with every
point in mode 0, an account's DRAWN rises by 256 for each mite of the points whose OWNER
in effect it is, and by nothing else. METER_FAULT and a failed
reference check set FAULT and FAULT_SEEN; a check that passes changes nothing. PERIOD_CLOSE does nothing for a period that is not the oldest one over, else it counts the period, shows and clears each
point's energy, and, where no point spreads (mode 2), credits each of the 64 accounts with its MINT for the period's length up to its
ceiling, MINTED alike, and opens its statistics anew. ADJUST moves CREDIT and MINTED of one account by the signed mites. CLR_STATS zeroes the
statistics counters. An idle domain parks and counts it; a parked one is on again for a commit of its FE slice, or for a READY head unless Thrift's reserve holds
the request, which is kept.
Shown to complete with its own effect, under these hypotheses alone: meterStep, meterFault, meterReferenceCheck, periodClose, adjust,
accountClrStats, domainPark, domainUnpark. -/
def Obligations.LedgerStepsAndPeriods : Prop :=
  (∀ (units others : List Nat) (s : State), s.devclk.toNat % 100 ≠ 0 ∨ s.ledger.stepAt = s.devclk.toNat + 1 →
    exec (.meterStep units others) s = .next s) ∧
  (∀ (units others : List Nat) (s : State), s.devclk.toNat % 100 = 0 → s.ledger.stepAt ≠ s.devclk.toNat + 1 →
    let raw := (fun p => if p < 32 then units.getD p 0 else others.getD (p - 32) 0)
    ∃ t, exec (.meterStep units others) s = .next t ∧ t.mem = s.mem ∧ t.ledger.stepAt = s.devclk.toNat + 1 ∧
    (∀ p, p < 48 → let x := Claims.stepTotal s p (raw p)
      (t.meter p).energy = (s.meter p).energy + BitVec.ofNat 64 (x / 2 ^ 14) ∧ (t.meter p).frac = x % 2 ^ 14 ∧
      (t.meter p).period = (s.meter p).period + x / 2 ^ 14 ∧ (t.meter p).steps = (s.meter p).steps + 1 ∧
      t.fld Reg.METER.STEP_STEP_MITES p = min (2 ^ 24 - 1) (x / 2 ^ 14)) ∧
    ((∀ p, p < 48 → (s.meter p).modeNow = 0) → ∀ a, (t.account a).drawn = (s.account a).drawn + BitVec.ofNat 64
      (256 * ((List.range 48).map (fun p => if (s.meter p).ownerNow = a
        then Claims.stepTotal s p (raw p) / 2 ^ 14 else 0)).sum))) ∧
  (∀ (p : Fin 48) (range : Bool) (s : State), s.fld Reg.METER.STATUS_FAULT p = 0 → range = true ∨ 1024 ≤ (s.meter p).stuck →
    ∃ t, exec (.meterFault p range) s = .next t ∧ t.fld Reg.METER.STATUS_FAULT p = 1 ∧ t.fld Reg.METER.STATUS_FAULT_SEEN p = 1 ∧
      t.meter p = s.meter p) ∧
  (∀ (p : Fin 48) (within : Bool) (s : State), s.fld Reg.METER.STATUS_FAULT p = 0 →
    ∃ t, exec (.meterReferenceCheck p within) s = .next t ∧ t.fld Reg.METER.STATUS_FAULT p = (if within then 0 else 1) ∧
      (within = true → t = s)) ∧
  (∀ (actual nominal : Nat) (grid : Bool) (s : State), Claims.closing s ≠ some (actual, nominal) →
    exec (.periodClose actual nominal grid) s = .next s) ∧
  (∀ (actual nominal : Nat) (s : State), Claims.closing s = some (actual, nominal) →
    ∃ t, exec (.periodClose actual nominal s.ledger.periodEnd.isSome) s = .next t ∧
    t.ledger.closes = s.ledger.closes.drop 1 ∧
    t.fld Reg.LEDGER.PERIOD_NUM_COUNT 0 = (s.fld Reg.LEDGER.PERIOD_NUM_COUNT 0 + 1) % 2 ^ 32 ∧
    (∀ p, p < 48 → (t.meter p).period = 0 ∧ (t.meter p).steps = 0 ∧ (t.meter p).energy = (s.meter p).energy ∧
      t.fld Reg.METER.PERIOD_PERIOD_MITES p = min (2 ^ 32 - 1) (s.meter p).period) ∧
    (∀ a, a < 64 → (t.account a).periodDraw = 0 ∧ (t.account a).overdraftPosted = false ∧
      (t.account a).outstanding = (s.account a).outstanding) ∧
    ((∀ p, p < 48 → (s.meter p).modeNow ≠ 2) → ∀ a, a < 64 →
      let x := Claims.minted s a (256 * s.fld Reg.ACCOUNT.MINT_MINT a * actual / max 1 nominal)
      (t.account a).credit = (s.account a).credit + BitVec.ofInt 64 x ∧ (t.account a).minted = (s.account a).minted + BitVec.ofInt 64 x ∧
        (t.account a).drawn = (s.account a).drawn)) ∧
  (∀ (req : Fin 14) (sel : BitVec 10) (v : Word) (s : State) (a : Nat), Claims.Hits s req 0x2A sel.toNat 0x018 a →
    ∃ t, exec (.adjust req sel v) s = .next t ∧ (t.account a).credit = (s.account a).credit + BitVec.ofInt 64 (256 * v.toInt) ∧
      (t.account a).minted = (s.account a).minted + BitVec.ofInt 64 (256 * v.toInt) ∧ (t.account a).drawn = (s.account a).drawn ∧
      (t.account a).outstanding = (s.account a).outstanding ∧ (∀ b, b ≠ a → t.account b = s.account b) ∧ t.csr = s.csr) ∧
  (∀ (req : Fin 14) (sel : BitVec 10) (s : State) (a : Nat), Claims.Hits s req 0x2A sel.toNat 0x014 a →
    ∃ t, exec (.accountClrStats req sel) s = .next t ∧ (∀ k, k < 6 → t.reg 0x2A a (0x070 + 4 * k) = 0) ∧ t.ledger = s.ledger ∧
      (∀ c i o, (∀ k, k < 6 → csrKey c i o ≠ csrKey 0x2A a (0x070 + 4 * k)) → t.reg c i o = s.reg c i o)) ∧
  (∀ (d : Fin 78) (s : State), s.mayPark d = true → ∃ t, exec (.domainPark d) s = .next t ∧ t.domState d = 4 ∧
    t.fld Reg.PWR.PARKS_PARKS d = (s.fld Reg.PWR.PARKS_PARKS d + 1) % 2 ^ 32 ∧ t.mem = s.mem) ∧
  (∀ (d : Fin 78) (s : State), s.domState d = 4 →
    let rich := s.fld Reg.LEDGER.STATUS_THRIFT_ACTIVE 0 = 0 ∨
      256 * (s.fld Reg.LEDGER.THRIFT_RESERVE_RESERVE 0 : Int) ≤ s.ledger.devCredit.toInt ∨ ∃ x ∈ s.unparkHeads d, x.grade = 0
    (36 ≤ d.val ∧ s.slicePending (d - 36) = true ∨ d.val < 36 ∧ s.unparkHeads d ≠ [] ∧ rich →
      ∃ t, exec (.domainUnpark d) s = .next t ∧ t.domState d = 3 ∧ t.mem = s.mem) ∧
    (d.val < 36 → s.unparkHeads d ≠ [] → ¬ rich → ∃ t, exec (.domainUnpark d) s = .next t ∧ d.val ∈ t.ledger.unparks ∧
      t.csr = s.csr ∧ t.mem = s.mem) ∧
    (36 ≤ d.val ∧ s.slicePending (d - 36) = false ∨ d.val < 36 ∧ s.unparkHeads d = [] → exec (.domainUnpark d) s = .next s))

end

section

open Sys2Proof Sys2Proof.Machine

/-- A POST write stands behind its requester's earlier ones; POST_ACCEPT grants the arbiter's choice, the oldest post of its requester or a
held TASK_POST: a descriptor elsewhere than in Treasury or a Course store
is rejected with its event, a good one takes the lowest free resident slot in its queue with the next post number, waiting where its
keystone is not zero, else READY; the index is what the requester reads back, at once or behind its posts. A keystone's decrement takes one off, keeps a failure mark, notes an
underflow, and at the last one reloads the count and releases its one waiter READY with the mark. TELLER_FILL places the best candidate of the
unit granted: a grade 0 task is debited and slotted with allowance 63. Aged entries of a busy unit return to READY. The report of a
success frees its slot and counts. CANCEL completes a task that has not been placed, and answers 2 for any other.
Shown to complete with its own effect, under these hypotheses alone: dqueuePost, postAccept, postRead, keystoneSetCount, keystoneSetReload,
keystoneDec, tellerFill, slotAgeReclaim, taskCompletion, dispCancel, dqueueClrMax, dqueueClrHist, tellerClrHist. -/
def Obligations.DispatcherKeepsItsTasks : Prop :=
  (∀ (req : Fin 14) (q : Fin 256) (v : Word) (s : State), s.postMode = true →
    exec (.dqueuePost req q v) s = .next { s with disp := { s.disp with
      held := tset [] s.disp.held req (s.posts req ++ [⟨q, v.toNat % 2 ^ 26 * 64, s.disp.heldOrder, false, none⟩]),
      heldOrder := s.disp.heldOrder + 1 } }) ∧
  (∀ (s : State) (r : Nat) (h : HeldPost), s.postMode = true → s.firstPost r = some h → s.postRoom h.queue = true →
    rrPick 14 s.disp.lastPost s.postContends = some r →
    let a : State := { s with disp := { s.disp with held := tset [] s.disp.held r ((s.posts r).drop 1), lastPost := r } }
    ∃ t, exec .postAccept s = .next t ∧ t.posts r = ((s.posts r).drop 1).dropWhile (·.read) ∧ t.disp.lastPost = r ∧
      (s.descriptorPlace h.addr = false → t.disp.tasks = s.disp.tasks ∧ t.disp.postSeq = s.disp.postSeq ∧
        t.disp.lastIndex = s.disp.lastIndex ∧ (h.chan = none → t = (a.post 0x20 0 0x003 2 r).answerReads r)) ∧
      (∀ (bytes : List (Byte × Bool)) (u : State), s.descriptorPlace h.addr = true → a.busRead 62 2 h.addr 64 = (.ok, bytes, u) →
        bytes.any (·.2) = false →
        let w := bytesToWords 16 (bytes.map (·.1))
        let i := freeSlot (s.disp.tasks.map (·.1)) 0
        let waits := wordField (w.getD 0 0) 22 22 = 1 ∧ s.keyIsZero (wordField (w.getD 3 0) 12 0) = false
        tget 0 t.disp.lastIndex r = i ∧ t.disp.postSeq = s.disp.postSeq + 1 ∧
        (waits ∨ wordField (w.getD 0 0) 22 22 = 0 → ∃ x, t.task i = some x ∧ x.queue = h.queue ∧ x.seq = s.disp.postSeq ∧
          x.grade = wordField (w.getD 0 0) 17 16 ∧ x.account = wordField (w.getD 2 0) 13 8 ∧ x.estimate = (w.getD 7 0).toNat ∧
          (waits → x.st = .waiting) ∧ (¬ waits → x.st = .ready)))) ∧
  (∀ (s : State) (fn : Nat), s.postMode = true → rrPick 14 s.disp.lastPost s.postContends = some 8 → s.postAsks 8 = false →
    (List.range 16).find? s.retryTurn = some fn → exec .postAccept s = .next (s.retryPost fn)) ∧
  (∀ (req : Fin 14) (q : Fin 256) (s : State),
    (s.posts req = [] → exec (.postRead req q) s = .next (s.giveBack req (BitVec.ofNat 32 (tget 0 s.disp.lastIndex req)))) ∧
    (s.posts req ≠ [] → exec (.postRead req q) s =
      .next (s.setPosts req (s.posts req ++ [⟨q, 0, s.disp.heldOrder, true, none⟩])))) ∧
  (∀ (req : Fin 14) (b : Fin 32) (v : Word) (s : State) (i : Nat),
    let k := i * 256 + v.toNat % 256
    (Claims.Hits s req 0x22 b 0x300 i → ∃ t, exec (.keystoneSetCount req b v) s = .next t ∧
      (wordField v 19 8 ≠ 0 ∨ s.waiters k = [] ∧ tget [] s.disp.dmaWait k = [] →
        t = s.setKey k { s.key k with count := BitVec.ofNat 12 (wordField v 19 8),
                                      fail := (s.key k).fail && !v.getLsbD 20, underflow := (s.key k).underflow && !v.getLsbD 20 })) ∧
    (Claims.Hits s req 0x22 b 0x304 i → exec (.keystoneSetReload req b v) s =
      .next (s.setKey k { s.key k with reload := BitVec.ofNat 12 (wordField v 19 8) })) ∧
    (Claims.Hits s req 0x22 b 0x308 i → ∃ t, exec (.keystoneDec req b v) s = .next t ∧
      let x := s.key k
      (x.count = 0 → t.key k = { x with underflow := true }) ∧
      (1 < x.count.toNat → t = s.setKey k { x with count := x.count - 1, fail := x.fail || v.getLsbD 8 }) ∧
      (x.count = 1 → s.waiters k = [] → t.key k = { x with count := x.reload, fail := false } ∧ t.disp.tasks = s.disp.tasks) ∧
      (∀ j w, x.count = 1 → s.waiters k = [(j, w)] → s.task j = some w → w.failSkip = false →
        t.key k = { x with count := x.reload, fail := false } ∧
        t.task j = some { w with st := .ready, mark := x.fail || v.getLsbD 8, readyAt := s.devclk.toNat }))) ∧
  (∀ (s : State) (u i : Nat) (x : Task), rrPick 232 s.disp.lastFill s.asksFill = some u → s.candidate u = some (i, x) →
    ∃ t, exec .tellerFill s = .next t ∧
      t = ({ s with disp := { s.disp with lastFill := u } } : State).place u i x ∧
      (x.grade = 0 → (s.bit Reg.DQUEUE.CTL_TX_WORK x.queue = false ∨ s.actsAs ≠ .witness ∨ s.modes.target ≠ none) →
        (x.noDeadline = true ∨ (s.disp.dlclk : Int) < x.key ∨ x.lateDrop = false) →
        t.disp.lastFill = u ∧ t.slot u = s.slot u ++ [i] ∧
        t.task i = some { x with st := .slotted, unit := u, allowance := 63, placedAt := s.devclk.toNat, debited := true } ∧
        (t.account x.account).credit = (s.account x.account).credit - BitVec.ofNat 64 (256 * x.estimate) ∧
        (t.account x.account).outstanding = (s.account x.account).outstanding + BitVec.ofNat 64 (256 * x.estimate))) ∧
  (∀ (u : Fin 232) (s : State) (i : Nat) (x : Task), 0 < s.fld Reg.DISP.CTL_SLOT_AGE 0 → (s.runningOn u).isSome = true →
    s.slot u = [i] → s.task i = some x → ∃ t, exec (.slotAgeReclaim u) s = .next t ∧
      (s.fld Reg.DISP.CTL_SLOT_AGE 0 * 100 < s.devclk.toNat - x.placedAt → t.slot u = [] ∧
        t.task i = some { x with st := .ready, allowance := 0, debited := false, readyAt := s.devclk.toNat }) ∧
      (s.devclk.toNat - x.placedAt ≤ s.fld Reg.DISP.CTL_SLOT_AGE 0 * 100 → t = s)) ∧
  (∀ (i : BitVec 14) (s : State) (x : Task), tget 0 s.disp.reports i.toNat = 1 → s.task i.toNat = some x →
    x.doneEn = false → s.fences = [] → ∃ t, exec (.taskCompletion i 0) s = .next t ∧ t.task i.toNat = none ∧
      tget 0 t.disp.reports i.toNat = 0 ∧ t.fld Reg.DISP.COMPLETED_COUNT 0 = (s.fld Reg.DISP.COMPLETED_COUNT 0 + 1) % 2 ^ 32 ∧
      t.fld Reg.DISP.FAILED_COUNT 0 = s.fld Reg.DISP.FAILED_COUNT 0 ∧ t.disp.keystones = s.disp.keystones) ∧
  (∀ (req : Fin 14) (v : Word) (s : State), s.postMode = true → ∃ t, exec (.dispCancel req v) s = .next t ∧
    let i := wordField v 13 0
    (∀ x, s.task i = some x → x.st = .waiting ∨ x.st = .ready → x.doneEn = false →
      t.task i = none ∧ tget 0 t.disp.cancelResult req = 1 ∧ t.disp.keystones = s.disp.keystones) ∧
    (s.task i = none ∨ (∃ x, s.task i = some x ∧ x.st ≠ .waiting ∧ x.st ≠ .ready) →
      t = { s with disp := { s.disp with cancelResult := tset 0 s.disp.cancelResult req 2 } })) ∧
  (∀ (req : Fin 14) (sel : BitVec 10) (s : State) (i : Nat),
    (Claims.Hits s req 0x21 sel.toNat 0x03C i → exec (.dqueueClrMax req sel) s = .next (s.setReg 0x21 i 0x024 0) ∧
      ∃ t, exec (.dqueueClrHist req sel) s = .next t ∧ (∀ b, b < 8 → t.reg 0x21 i (0x040 + 4 * b) = 0) ∧ t.disp = s.disp) ∧
    (Claims.Hits s req 0x23 sel.toNat 0x018 i →
      ∃ t, exec (.tellerClrHist req sel) s = .next t ∧ (∀ b, b < 8 → t.reg 0x23 i (0x040 + 4 * b) = 0) ∧ t.disp = s.disp))

end

section

open Sys2Proof Sys2Proof.Machine

/-- NI_INJECT: the arbiter's choice among the requests waiting at an NI leaves them. A sole request to an unmapped address ends with
DECODE_ERROR, to a fenced port with FENCED; where its pair is held it waits and HOLDING shows it; else, by valid routes, it is one transaction
more, with the first number of its port not in use, and its header flit, with its data flits, sets out by the active bank's routes. PACKET_EJECT
takes the oldest request of its SRC and CLASS, once the network has brought it: at the wrong NI it is answered TARGET_ERROR, with a bad
header discarded, a read of host memory waits for the host, any other is served: OP 5-7 TARGET_ERROR, an unmapped address DECODE_ERROR, a read
of memory its LEN words, a write stored. The answer leaves for its source by the response plane. A response takes its transaction away and gives
its requester status and data, one for none counts in LATE_RESP; TXN_TIMEOUT ends it with TARGET_ERROR where TXN_LIMIT is not 0. CLR_HIST and
CLR_BYTES zero the counts of their NI alone.
Shown to complete with its own effect, under these hypotheses alone: niInject, packetEject, responseArrive, txnTimeout, niClrHist,
niClrBytes. -/
def Obligations.TransactionsRunTheirCourse : Prop :=
  (∀ (ni : Fin 64) (req : Option (Fin 15)) (op : BitVec 3) (n : BitVec 5 × BitVec 3) (addr : BitVec 40) (data : List (Byte × Bool)) (s : State),
    let u := s.niArrive ni (req.toList.map (fun r => ⟨r, op, n.1, n.2, addr, data⟩))
    exec (.niInject ni req true op n addr data) s = .next (u.syncNi ni) ∧
    (u.niTurn ni = none → exec (.niInject ni req false op n addr data) s = .next (u.syncNi ni)) ∧
    (∀ k q, u.niTurn ni = some (k, q) → ∃ t, exec (.niInject ni req false op n addr data) s = .next t ∧ t.mem = s.mem ∧
      tget 15 t.mortar.lastInj ni = k ∧ tget [] t.mortar.waiting ni = (tget [] u.mortar.waiting ni).erase q)) ∧
  (∀ (ni : Fin 64) (q : NiReq) (p : Nat) (s : State),
    let inject := Instr.niInject ni (some q.req) false q.op (q.len, q.size) q.addr q.data
    niPort ni q.req = some p → tget [] s.mortar.waiting ni = [] →
    (s.destOf q.addr.toNat = none → ∃ t, exec inject s = .next t ∧
      tget (0, []) t.mortar.results (16 * ni + q.req) = (1, []) ∧ t.mortar.txns = s.mortar.txns ∧ t.mortar.flits = s.mortar.flits) ∧
    (∀ d, s.destOf q.addr.toNat = some d → ¬ (s.region q.addr.toNat = .csr ∧ reachesAll ni p = false) →
      ((s.port (ni * 4 + p)).drained = true ∨ s.niFenced ni d = true → ∃ t, exec inject s = .next t ∧
        tget (0, []) t.mortar.results (16 * ni + q.req) = (2, []) ∧ t.mortar.txns = s.mortar.txns ∧ t.mortar.flits = s.mortar.flits) ∧
      ((s.port (ni * 4 + p)).drained = false → s.niFenced ni d = false → (s.entry ni 0 (d / 4)).invalid = false →
        (reqWrites q = true → (s.entry ni 2 (d / 4)).invalid = false) →
        (s.pairHeld ni d = true → ∃ t, exec inject s = .next t ∧ tget [] t.mortar.waiting ni = [q] ∧
          t.fld Reg.MORTAR_NI.STATUS_HOLDING ni = 1 ∧ t.mortar.txns = s.mortar.txns ∧ t.mortar.flits = s.mortar.flits) ∧
        (∀ n, s.pairHeld ni d = false → s.nextTxn ni p = some n →
          n < 1024 ∧ (∀ x ∈ s.mortar.txns, x.ni = ni.val → x.port = p → x.txn ≠ n) ∧
          ∃ t, exec inject s = .next t ∧ t.mem = s.mem ∧
            t.mortar.txns = s.mortar.txns ++ [⟨ni, p, n, d, s.epochOf ni, q.req⟩] ∧
            t.mortar.flits = s.mortar.flits ++
              ⟨.out ni, 0, s.classOf q, 4 * ni + p, d, s.epochOf ni, routeHops (s.entry ni 0 (d / 4)), n,
                .request (s.classOf q) q.op.toNat q.len.toNat q.size.toNat q.addr.toNat⟩ ::
              (dataFlits 0 16 (reqWords q)).map (fun l =>
                ⟨.out ni, 2, 0, 4 * ni + p, d, s.epochOf ni, routeHops (s.entry ni 2 (d / 4)), n, l⟩))))) ∧
  (∀ (ni : Fin 64) (src : BitVec 8) (cls : BitVec 2) (good : Bool) (s : State),
    let u := s.meshUntil (fun s => (s.requestAt ni src.toNat cls.toNat).isSome)
    (u.requestAt ni src.toNat cls.toNat = none → exec (.packetEject ni src cls good) s = .next u) ∧
    (∀ f l, u.requestAt ni src.toNat cls.toNat = some (f, l) →
      let v := (l ++ [f]).foldl State.takeFlit u
      ∃ t, exec (.packetEject ni src cls good) s = .next t ∧
        (good = false → t.mortar.txns = u.mortar.txns ∧ t.mem = u.mem) ∧
        (good = true → f.dest / 4 ≠ ni.val → t = (v.dropData f).respond ni f 3 []) ∧
        (good = true → f.dest / 4 = ni.val → v.hostShut f = true → t = v.respond ni f 3 []) ∧
        (good = true → f.dest / 4 = ni.val → v.hostShut f = false → v.readsHost f = true →
          t.mortar.hostWait = u.mortar.hostWait ++ [f]) ∧
        (good = true → f.dest / 4 = ni.val → v.hostShut f = false → v.readsHost f = false →
          ∃ st w r, v.serve f (wordsInOrder l) = (st, w, r) ∧ t = r.respond ni f st w))) ∧
  (∀ (f : Flit) (cls op len size addr : Nat) (data : List (List (Byte × Bool))) (s : State), f.load = .request cls op len size addr →
    (5 ≤ op → s.serve f data = (3, [], s)) ∧
    (op < 4 → s.region addr = .unmapped → s.serve f data = (1, [], s)) ∧
    ((∃ b, s.region addr = .treasury b) ∨ (∃ c, s.region addr = .course c) →
      (op = 0 → ∃ (l : List (List (Byte × Bool))) (u : State), s.serve f data = (0, l, u) ∧
        l.length = (if len = 0 then 32 else len) ∧ (∀ w ∈ l, w.length = 16) ∧ u.mem = s.mem) ∧
      (op = 1 → s.serve f data = (0, [], s.writeMem (addr / 16 * 16) data.flatten)) ∧
      (op = 2 → s.serve f data = (0, [], s.writeMem addr ((data.flatten.drop (addr % 16)).take (partialBytes size)))))) ∧
  (∀ (ni : Nat) (f : Flit) (status : Nat) (words : List (List (Byte × Bool))) (s : State), (s.entry ni 1 (f.src / 4)).invalid = false →
    ∃ g ∈ (s.respond ni f status words).mortar.flits, g.place = .out ni ∧ g.plane = 1 ∧ g.dest = f.src ∧ g.txn = f.txn ∧
      g.load = .response status words.length) ∧
  (∀ (ni : Fin 64) (port : Fin 4) (txn : BitVec 10) (latency : Nat) (s : State),
    let u := s.meshUntil (fun s => (s.responseAt ni port txn.toNat).isSome)
    let hit (s : State) := s.mortar.txns.find? (fun t => t.ni == ni.val && t.port == port.val && t.txn == txn.toNat)
    (u.responseAt ni port txn.toNat = none → exec (.responseArrive ni port txn latency) s = .next u) ∧
    (∀ f st l, u.responseAt ni port txn.toNat = some (f, st, l) →
      (hit u = none → exec (.responseArrive ni port txn latency) s =
        .next (((l ++ [f]).foldl State.takeFlit u).addFld Reg.MORTAR_NI.LATE_RESP_COUNT ni 1)) ∧
      (∀ x, hit u = some x → ∃ t, exec (.responseArrive ni port txn latency) s = .next t ∧
        t.mortar.txns = u.mortar.txns.erase x ∧
        tget (0, []) t.mortar.results (16 * x.ni + x.req) = (st, (wordsInOrder l).flatten) ∧ t.mem = u.mem ∧
        t.fld Reg.MORTAR_NI.LATE_RESP_COUNT ni = u.fld Reg.MORTAR_NI.LATE_RESP_COUNT ni)) ∧
    (∀ x, hit s = some x → s.fld Reg.MORTAR_NI.TXN_LIMIT_LIMIT ni ≠ 0 → ∃ t, exec (.txnTimeout ni port txn) s = .next t ∧
      t.mortar.txns = s.mortar.txns.erase x ∧ tget (0, []) t.mortar.results (16 * x.ni + x.req) = (3, []) ∧ t.mem = s.mem) ∧
    (hit s = none ∨ s.fld Reg.MORTAR_NI.TXN_LIMIT_LIMIT ni = 0 → exec (.txnTimeout ni port txn) s = .next s)) ∧
  (∀ (req : Fin 14) (sel : BitVec 10) (s : State) (i : Nat), Claims.Hits s req 0x38 sel.toNat 0x084 i →
    (∃ t, exec (.niClrHist req sel) s = .next t ∧ t.mortar.bytes = s.mortar.bytes ∧ t.csr = s.csr ∧
      ∀ k, tget 0 t.mortar.hist k = if k / 256 = i then 0 else tget 0 s.mortar.hist k) ∧
    (∃ t, exec (.niClrBytes req sel) s = .next t ∧ t.mortar.hist = s.mortar.hist ∧ t.csr = s.csr ∧
      ∀ k, tget 0 t.mortar.bytes k = if k / 256 = i then 0 else tget 0 s.mortar.bytes k))

end

section

open Sys2Proof Sys2Proof.Machine

/-- A replay counts and shows; a link with REPLAY_LIMIT replays in a row is failed in both directions and a LINK_DOWN sets out for every NI; an
NI that receives it keeps it, and, clear of old packets, flips to a bank that is the old one with that plane's routes diverted, the old bank
as it was. EPOCH_FLIP inverts the epoch; COPY ends with the inactive bank equal to the active one; ROUTE_HI writes one entry, marked where it
leaves the mesh, and no other. LINK_EN acts while IN_SERVICE; retraining ends up or failed. A FENCE request is queued with the controller or
is what it handles; an NI that receives a FENCE sets its bit and, with nothing outstanding toward the port, reports; a drain ends when
all 64 NIs have reported and the port's own transactions are done. DRAIN_LIMIT asks the controller for FORCE_DRAIN, by which each NI ends its
transactions toward or of the port with FENCED; after the last the port is DRAINED and FORCED. UNFENCE clears the bits NI by NI and the port is
open after the last.
Shown to complete with its own effect, under these hypotheses alone: linkReplay, linkFailed, niLinkDown, detour, fenceReq, fence,
unfenceReq, niFence, niUnfence, drainDone, forceDrain, epochFlip, copy, copyDone, routeHiWrite, inServiceWrite, linkEnWrite,
linkRetrainDone. -/
def Obligations.LinksRoutesAndFences : Prop :=
  (∀ (r : Fin 256) (d : Fin 4) (s : State), s.linkState r d ≠ 2 → s.linkState r d ≠ 3 → ∃ t, exec (.linkReplay r d) s = .next t ∧
    t.linkState r d = 1 ∧ (∀ e : Fin 4, e ≠ d → t.linkState r e = s.linkState r e) ∧
    t.fld Reg.ROUTER.REPLAYS_COUNT r = (s.fld Reg.ROUTER.REPLAYS_COUNT r + 1) % 2 ^ 32 ∧
    tget 0 t.mortar.replays (4 * r + d) = tget 0 s.mortar.replays (4 * r + d) + 1 ∧ t.mortar.flits = s.mortar.flits) ∧
  (∀ (r : Fin 256) (d : Fin 4) (s : State) (far : Nat), s.linkState r d ≠ 2 → farRouter r d = some far →
    (tget 0 s.mortar.replays (4 * r + d) < max 1 (s.fld Reg.ROUTER.CTL_REPLAY_LIMIT r) → exec (.linkFailed r d) s = .next s) ∧
    (max 1 (s.fld Reg.ROUTER.CTL_REPLAY_LIMIT r) ≤ tget 0 s.mortar.replays (4 * r + d) →
      ∃ t, exec (.linkFailed r d) s = .next t ∧ t.linkState r d = 2 ∧ t.linkState far (opposite d) = 2 ∧
        (∀ ni, ni < 64 → (s.entry 63 3 ni).invalid = false → ∃ f ∈ t.mortar.flits, f.place = .out 63 ∧ f.dest = 4 * ni ∧
          f.load = .snoop 11 (linkCode (r.val / 64) (r.val % 64) d)) ∧
        t.mortar.routes = s.mortar.routes)) ∧
  (∀ (ni : Fin 64) (plane : Fin 4) (pos : Fin 64) (d : Fin 4) (s : State),
    let c := linkCode plane pos d
    let q := tget [] s.mortar.detours ni
    (∀ u, s.takeSnoop ni 11 (· == c) = (none, u) → exec (.niLinkDown ni plane pos d) s = .next u) ∧
    (∀ v u, s.takeSnoop ni 11 (· == c) = (some v, u) → ∃ t, exec (.niLinkDown ni plane pos d) s = .next t ∧
      tget [] t.mortar.detours ni = tget [] u.mortar.detours ni ++ [c] ∧ t.mortar.routes = u.mortar.routes ∧ t.csr = u.csr) ∧
    (c ∈ q → s.fld Reg.MORTAR_NI.STATUS_OLD_CLEAR ni = 1 → ∃ t, exec (.detour ni plane pos d) s = .next t ∧
      let b := s.fld Reg.MORTAR_NI.STATUS_EPOCH_CUR ni
      t.fld Reg.MORTAR_NI.STATUS_EPOCH_CUR ni = 1 - b ∧ tget [] t.mortar.detours ni = q.erase c ∧
      ∀ e, e < 256 → t.route ni b e = s.route ni b e ∧
        t.route ni (1 - b) e = if e / 64 = plane.val then detourRoute ni pos d (s.route ni b e) else s.route ni b e)) ∧
  (∀ (req : Fin 14) (ni : Fin 64) (p : BitVec 2) (s : State), Claims.Hits s req 0x38 ni.val 0x040 ni →
    let d := 4 * ni.val + p.toNat
    (∃ t, exec (.fenceReq req ni p) s = .next t ∧ 2 ∈ t.fencersOf d ∧ (∀ x ∈ s.fencersOf d, x ∈ t.fencersOf d) ∧
      (s.fencersOf d = [] → ⟨2, .fence, d⟩ ∈ t.mortar.fcQueue ∨ t.mortar.fc = some ⟨2, .fence, d⟩) ∧
      (s.fencersOf d ≠ [] → t.mortar.fcQueue = s.mortar.fcQueue ∧ t.mortar.fc = s.mortar.fc)) ∧
    (∃ t, exec (.unfenceReq req ni p) s = .next t ∧ (s.fencersOf d ≠ [2] → t = s) ∧
      (s.fencersOf d = [2] → t.fencersOf d = [] ∧
        (⟨2, .unfence, d⟩ ∈ t.mortar.fcQueue ∨ t.mortar.fc = some ⟨2, .unfence, d⟩)))) ∧
  (∀ (ni : Fin 64) (s u : State) (d : Nat),
    (s.takeSnoop ni 8 (fun _ => true) = (none, u) → exec (.niFence ni) s = .next u) ∧
    (s.takeSnoop ni 9 (fun _ => true) = (none, u) → exec (.niUnfence ni) s = .next u) ∧
    (s.takeSnoop ni 8 (fun _ => true) = (some d, u) → d < 256 → ∃ t, exec (.niFence ni) s = .next t ∧ t.niFenced ni d = true ∧
      ((u.port d).draining = true → u.towards ni d = false → ni.val ∈ (t.port d).sentFrom)) ∧
    (s.takeSnoop ni 9 (fun _ => true) = (some d, u) → d < 256 → ∃ t, exec (.niUnfence ni) s = .next t ∧ t.niFenced ni d = false ∧
      ((∀ f ∈ u.mortar.flits, f.load ≠ .snoop 9 d) → u.fencersOf d = [] → t.port d = Port.reset) ∧
      ((∃ f ∈ u.mortar.flits, f.load = .snoop 9 d) ∨ u.fencersOf d ≠ [] → t.mortar.ports = u.mortar.ports))) ∧
  (∀ (dest : BitVec 8) (ni : Fin 64) (s u : State), let d := dest.toNat
    (s.takeSnoop (d / 4) 10 (· == d + 2 ^ 8 * ni.val) = (none, u) → exec (.drainDone dest ni) s = .next u) ∧
    (∀ v, s.takeSnoop (d / 4) 10 (· == d + 2 ^ 8 * ni.val) = (some v, u) →
      let p := u.port d
      let l := if ni.val ∈ p.doneFrom then p.doneFrom else p.doneFrom ++ [ni.val]
      (p.draining = false → exec (.drainDone dest ni) s = .next u) ∧
      (p.draining = true → ∃ t, exec (.drainDone dest ni) s = .next t ∧ (t.port d).doneFrom = l ∧
        ((t.port d).drained = true ↔
          p.drained = true ∨ l.length = 64 ∧ u.ownTxns d = false ∧ tfind u.mortar.forcing d = none)))) ∧
  (∀ (dest : BitVec 8) (s : State), let d := dest.toNat
    ((s.port d).draining = false → exec (.forceDrain dest) s = .next s) ∧
    ((s.port d).draining = true → ∃ u : State, exec (.forceDrain dest) s = .next (u.meshUntil (fun s => !(s.port d).draining)) ∧
      ((tfind u.mortar.forcing d).isSome = true ∨ ∃ q : FcReq, q.kind = .force ∧ q.dest = d ∧ q ∈ u.mortar.fcQueue))) ∧
  (∀ (ni d : Nat) (s : State) (x : Txn), x ∈ (s.forceAt ni d).mortar.txns ↔ x ∈ s.mortar.txns ∧
    ¬ (x.ni = ni ∧ (x.dest = d ∨ ni = d / 4 ∧ x.port = d % 4))) ∧
  (∀ (d n : Nat) (s : State), s.mortar.forcing = [(d, n)] → s.mortar.fc = none → (∀ f ∈ s.mortar.flits, f.load ≠ .snoop 12 d) →
    (s.port d).draining = true →
    (s.forceFinish.port d).drained = true ∧ (s.forceFinish.port d).forced = true ∧ (s.forceFinish.port d).draining = false) ∧
  (∀ (req : Fin 14) (sel : BitVec 10) (s : State) (i : Nat), Claims.Hits s req 0x38 sel.toNat 0x000 i →
    (∃ t, exec (.epochFlip req sel) s = .next t ∧
      t.fld Reg.MORTAR_NI.STATUS_EPOCH_CUR i = 1 - s.fld Reg.MORTAR_NI.STATUS_EPOCH_CUR i ∧
      t.mortar = (s.niUpdate i).mortar) ∧
    exec (.copy req sel) s = .next ((s.setFld Reg.MORTAR_NI.STATUS_COPY_BUSY i 1).niUpdate i)) ∧
  (∀ (ni : Fin 64) (s : State), s.fld Reg.MORTAR_NI.STATUS_COPY_BUSY ni = 1 → ∃ t, exec (.copyDone ni) s = .next t ∧
    t.fld Reg.MORTAR_NI.STATUS_COPY_BUSY ni = 0 ∧
    let b := s.fld Reg.MORTAR_NI.STATUS_EPOCH_CUR ni
    ∀ e, e < 256 → t.route ni (1 - b) e = s.route ni b e ∧ t.route ni b e = s.route ni b e) ∧
  (∀ (req : Fin 14) (sel : BitVec 10) (v : Word) (s : State) (i : Nat), Claims.Hits s req 0x38 sel.toNat 0x010 i →
    ∃ t, exec (.routeHiWrite req sel v) s = .next t ∧ t.route i (s.routeSel i).1 (s.routeSel i).2 =
      checkedRoute i ⟨BitVec.ofNat 40 ((s.heldFor req 0x38 i 0x00C).toNat + 2 ^ 32 * wordField v 7 0),
        BitVec.ofNat 5 (wordField v 12 8), false⟩ ∧
      ∀ n b e, n < 64 → b < 2 → e < 256 → (n, b, e) ≠ (i, s.routeSel i) → t.route n b e = s.route n b e) ∧
  (∀ (req : Fin 14) (sel : BitVec 10) (v : Word) (s : State) (r : Nat), Claims.Hits s req 0x39 sel.toNat 0x000 r →
    let u := s.storeReg 0x39 r 0x000 v
    ∃ t, exec (.inServiceWrite req sel v) s = .next t ∧ exec (.linkEnWrite req sel v) s = .next t ∧
      (s.fld Reg.ROUTER.CTL_IN_SERVICE r = 0 → u.fld Reg.ROUTER.CTL_IN_SERVICE r = 1 →
        tget (BitVec.ofNat 32 (vcDepthReset (r / 64))) t.mortar.depth r = s.reg 0x39 r 0x010) ∧
      ∀ d, d < 4 → t.linkState r d = if u.fld Reg.ROUTER.CTL_IN_SERVICE r = 0 then s.linkState r d
        else if bitOf (u.fld Reg.ROUTER.CTL_LINK_EN r) d = false then 3 else if s.linkState r d = 3 then 1 else s.linkState r d) ∧
  (∀ (r : Fin 256) (d : Fin 4) (pass : Bool) (s : State),
    (4 * r.val + d.val ∈ s.mortar.training → ∃ t, exec (.linkRetrainDone r d pass) s = .next t ∧
      t.linkState r d = (if pass then 0 else 2) ∧ (∀ e : Fin 4, e ≠ d → t.linkState r e = s.linkState r e) ∧
      4 * r.val + d.val ∉ t.mortar.training) ∧
    (4 * r.val + d.val ∉ s.mortar.training → exec (.linkRetrainDone r d pass) s = .next s))

end

namespace Sys2Proof.Claims

open Sys2Proof.Machine

/-- A stored word with column `c` changed by `x` in its low byte and `y` in its high byte: columns 0-7 are data, 8 and 9 check bytes. -/
def flipColumn (c : Nat) (x y : Byte) (data chk : List Byte) : List Byte × List Byte :=
  ((List.range 16).map (fun i => data.getD i 0 ^^^ (if i = 2 * c then x else if i = 2 * c + 1 then y else 0)),
   (List.range 4).map (fun i => chk.getD i 0 ^^^ (if 16 + i = 2 * c then x else if 16 + i = 2 * c + 1 then y else 0)))

end Sys2Proof.Claims

section

open Sys2Proof Sys2Proof.Machine

/-- For every 16 data bytes: with the check bytes of R287 the word decodes CLEAN, with or without an erased column; with those of R291 it
decodes POISON, with syndromes 0x02 and 0x01 in both codewords; and whatever two bytes, not both zero, are added to one of its ten columns,
it decodes CORRECTED at that column and the data sent on are the data stored. With a column marked erased, an error in that column is still
corrected and one in any other column is UNCORRECTABLE. -/
def Obligations.AshlarCorrectsOneColumn : Prop :=
  ∀ data : List Byte, data.length = 16 →
    (∀ e, (decodeWord e data (checkBytes data false)).2.2 = (.clean, data)) ∧
    (∀ e, decodeWord e data (checkBytes data true) = ((2, 1), (2, 1), .poison, data)) ∧
    (∀ (c : Fin 10) (x y : Byte), x ≠ 0 ∨ y ≠ 0 →
      let w := Claims.flipColumn c x y data (checkBytes data false)
      (decodeWord none w.1 w.2).2.2 = (.corrected c, data) ∧ (decodeWord (some c) w.1 w.2).2.2 = (.corrected c, data) ∧
      ∀ d : Fin 10, d ≠ c → (decodeWord (some d) w.1 w.2).2.2.1 = .uncorrectable)

end

section

open Sys2Proof Sys2Proof.Machine

/-- SCRUB_READ of a running scrubber with nothing held takes one word and moves on, leaving memory but for reserve pages of a channel with
AUTO_RETIRE: a corrected or uncorrectable word, not skipped, is held. SCRUB_REWRITE lets it go, and unless a demand write came between the place then decodes CLEAN with the corrected data, or
POISON where it was uncorrectable; nothing else of memory changes. REPAIRED of a HARD on-chip entry takes one spare of its bank, every word
decoding to the same data as before, or with none left the entry is UNREPAIRABLE; a core's bank waits for the end of a REP run. RAW_READ shows the 160 stored bits, RAW_WRITE stores 160 bits at the place and changes no other byte,
DECODED_READ shows outcome, column, syndromes and decoded data. CLR_COUNTS zeroes the twelve counts, CLR_ERASE ends the mark.
Shown to complete with its own effect, under these hypotheses alone: scrubRead, scrubRewrite, repaired, rawRead, rawWrite, decodedRead,
clrCounts, clrErase. -/
def Obligations.ScrubRepairAndTest : Prop :=
  (∀ (n : Fin 44) (s : State), s.scrubOn n = true → tget 0 s.memSys.scrubHeld n = 0 →
    let i := tget 0 s.memSys.scrubAt n
    let k := rangePlace (s.scrubRange n) i
    let c := (k - 2 ^ 40) / 2 ^ 37
    ∃ t, exec (.scrubRead n) s = .next t ∧
      (k < 2 ^ 40 ∨ s.fld Reg.BULK.CTL_AUTO_RETIRE c = 0 → t.mem = s.mem ∧ t.chk = s.chk) ∧
      (∀ a, a < 2 ^ 40 + 2 ^ 37 * c + 2 ^ 20 * s.fld Reg.BULK.CAPACITY_MB c → mread t.mem a = mread s.mem a) ∧
      tget 0 t.memSys.scrubAt n = (if i + 1 < rangeWords (s.scrubRange n) then i + 1 else 0) ∧
      (s.scrubSkips n k = false → tget 0 t.memSys.scrubHeld n = match (s.decodeAt k).2.2.1 with
        | .corrected _ | .uncorrectable => k + 1
        | _ => 0) ∧
      (s.scrubSkips n k = true → tget 0 t.memSys.scrubHeld n = 0)) ∧
  (∀ (n : Fin 44) (s : State) (k : Nat), tget 0 s.memSys.scrubHeld n = k + 1 → ∃ t, exec (.scrubRewrite n) s = .next t ∧
    tget 0 t.memSys.scrubHeld n = 0 ∧ (∀ a, a < k ∨ k + 16 ≤ a → mread t.mem a = mread s.mem a) ∧
    (k ∈ s.memSys.staleWrite → t.mem = s.mem ∧ t.chk = s.chk) ∧
    (k ∉ s.memSys.staleWrite →
      (∀ c, (s.decodeAt k).2.2.1 = .corrected c → (t.decodeAt k).2.2 = (.clean, (s.decodeAt k).2.2.2)) ∧
      ((s.decodeAt k).2.2.1 = .uncorrectable → (t.decodeAt k).2.2 = (.poison, s.wordAt k)) ∧
      ((s.decodeAt k).2.2.1 = .clean ∨ (s.decodeAt k).2.2.1 = .poison → t.mem = s.mem ∧ t.chk = s.chk))) ∧
  (∀ (n : Fin 256) (s : State),
    let e := s.spallAt n
    let m := memUnitOf e.addr
    let rows (u : State) := wordField (u.reg m.cls m.inst m.st) 17 8
    let cols (u : State) := wordField (u.reg m.cls m.inst m.st) 27 18
    let inRep := 2 ≤ e.memory ∧ (tget Core.reset s.sett.cores ((e.addr - 0x60000000) / 0x100000)).rep.isSome = true
    e.st = 2 → e.memory < 4 → e.addr < 2 ^ 32 → s.fld Reg.SPALL.CTL_AUTO_REPAIR 0 = 1 →
    (inRep → exec (.repaired n) s = .next s) ∧
    (¬ inRep → ∃ t, exec (.repaired n) s = .next t ∧ (∀ k, k % 16 = 0 → (t.decodeAt k).2.2.2 = (s.decodeAt k).2.2.2) ∧
      ∃ line : Bool,
        (s.spareLeft e.addr line = true ∧ t.spallAt n = { e with st := 3 } ∧
          t.memSys.repairs = s.memSys.repairs ++ [(e.addr, line)] ∧
          rows t = rows s - (if line then 0 else 1) ∧ cols t = cols s - (if line then 1 else 0)) ∨
        (s.spareLeft e.addr line = false ∧ t.spallAt n = { e with st := 5 } ∧ rows t = rows s ∧ cols t = cols s ∧
          t.memSys.repairs = s.memSys.repairs ∧ t.mem = s.mem))) ∧
  (∀ (req : Fin 14) (cls : BitVec 8) (sel : BitVec 10) (skip : Bool) (s : State) (i : Nat),
    hasTest cls.toNat sel.toNat = true → Claims.Hits s req cls.toNat sel.toNat 0x31C i →
    let k := s.testPlace cls.toNat i
    (∃ t, exec (.rawRead req cls sel skip) s = .next t ∧ t.mem = s.mem ∧ t.chk = s.chk ∧
      (∀ j, j < 4 → t.reg cls.toNat i (0x308 + 4 * j) = BitVec.ofNat 32 (leNat (((s.wordAt k).drop (4 * j)).take 4))) ∧
      t.reg cls.toNat i 0x318 = BitVec.ofNat 32 (leNat (s.checkAt k)) ∧
      t.reg cls.toNat i 0x31C = (if skip then 0x100 else 0)) ∧
    (∃ t, exec (.rawWrite req cls sel skip) s = .next t ∧
      t.wordAt k = (List.range 4).flatMap (fun j => leBytes 4 (s.reg cls.toNat i (0x308 + 4 * j)).toNat) ∧
      t.checkAt k = leBytes 4 (s.reg cls.toNat i 0x318).toNat ∧
      (∀ a, a < k ∨ k + 16 ≤ a → mread t.mem a = mread s.mem a) ∧
      (∀ a, a < k / 4 ∨ k / 4 + 4 ≤ a → mread t.chk a = mread s.chk a)) ∧
    (∃ t, exec (.decodedRead req cls sel skip) s = .next t ∧
      (k < 2 ^ 40 ∨ s.fld Reg.BULK.CTL_AUTO_RETIRE ((k - 2 ^ 40) / 2 ^ 37) = 0 → t.mem = s.mem ∧ t.chk = s.chk) ∧
      let (p, q, o, d) := s.decodeAt k
      (∀ j, j < 4 → t.reg cls.toNat i (0x308 + 4 * j) = BitVec.ofNat 32 (leNat ((d.drop (4 * j)).take 4))) ∧
      wordField (t.reg cls.toNat i 0x320) 2 0 = (match o with
        | .clean => 0 | .corrected _ => 1 | .uncorrectable => 2 | .poison => 3) ∧
      (∀ c, o = .corrected c → wordField (t.reg cls.toNat i 0x320) 31 3 = c) ∧
      t.reg cls.toNat i 0x324 = BitVec.ofNat 32 (p.1 + p.2 * 2 ^ 8 + 2 ^ 16 * q.1 + 2 ^ 24 * q.2))) ∧
  (∀ (req : Fin 14) (cls : BitVec 8) (sel : BitVec 10) (s : State) (i : Nat), isMemCls cls.toNat = true →
    Claims.Hits s req cls.toNat sel.toNat (clearOff cls.toNat) i →
    let m := memUnit cls.toNat i
    (∃ t, exec (.clrCounts req cls sel) s = .next t ∧ t.reg m.cls i m.ce = 0 ∧ t.reg m.cls i m.ue = 0 ∧
      (∀ c, c < 10 → t.reg m.cls i (m.col + 4 * c) = 0) ∧ t.erasedCol m = s.erasedCol m ∧ t.mem = s.mem) ∧
    (∃ t, exec (.clrErase req cls sel) s = .next t ∧ t.erasedCol m = none ∧ t.reg m.cls i m.ce = s.reg m.cls i m.ce ∧
      t.mem = s.mem ∧ t.memSys = s.memSys))

end

section

open Sys2Proof Sys2Proof.Machine

/-- Outside Banked with the journal enabled, JOURNAL_GRANT takes the event that the class and then the instance arbiter grant out of its FIFO,
and only that; the write index advances by one modulo twice the ring, LAP its top bit; in a full ring the oldest unread entry is overwritten and
OVERRUN counts it. An entry is four words: DEVCLK low and high, class, instance, event, lap and severity, DETAIL. LOST: a class with lost
events and room posts one entry with their number, and the count starts again.
Shown to complete with its own effect, under these hypotheses alone: journalGrant, lost. -/
def Obligations.JournalKeepsOrder : Prop :=
  (∀ (s : State) (c : Nat) (e : JEvent), s.modes.mode ≠ .banked → s.fld Reg.JOURNAL.CTL_ENABLE 0 = 1 →
    rrPick 256 s.journal.lastCls (fun c => !(tget [] s.journal.fifo c).isEmpty) = some c →
    classPick (tget 1023 s.journal.lastInst c) (tget [] s.journal.fifo c) = some e →
    let m := 2 ^ (s.journalLog2 + 1)
    ∃ t, exec .journalGrant s = .next t ∧ t.journal.lastCls = c ∧ tget 1023 t.journal.lastInst c = e.inst ∧
      t.fld Reg.JOURNAL.WR_INDEX_WR_INDEX 0 = (s.fld Reg.JOURNAL.WR_INDEX_WR_INDEX 0 + 1) % m ∧
      (s.journalUnread = 2 ^ s.journalLog2 → t.fld Reg.JOURNAL.STATUS_OVERRUN 0 = 1 ∧
        t.fld Reg.JOURNAL.RD_INDEX_RD_INDEX 0 = (s.fld Reg.JOURNAL.RD_INDEX_RD_INDEX 0 + 1) % m ∧
        t.fld Reg.JOURNAL.STATUS_OVERRUN_COUNT 0 = min (2 ^ 16 - 1) (s.fld Reg.JOURNAL.STATUS_OVERRUN_COUNT 0 + 1)) ∧
      (s.journalUnread ≠ 2 ^ s.journalLog2 →
        t.fld Reg.JOURNAL.RD_INDEX_RD_INDEX 0 = s.fld Reg.JOURNAL.RD_INDEX_RD_INDEX 0)) ∧
  (∀ (e : JEvent) (stamp : BitVec 64) (lap : Bool), e.cls < 2 ^ 8 → e.inst < 2 ^ 10 → e.event < 2 ^ 11 → e.sev < 4 →
    let w := journalEntry e stamp lap
    w.length = 4 ∧ (w.getD 0 0).toNat + 2 ^ 32 * (w.getD 1 0).toNat = stamp.toNat ∧ wordField (w.getD 2 0) 7 0 = e.cls ∧
      wordField (w.getD 2 0) 17 8 = e.inst ∧ wordField (w.getD 2 0) 28 18 = e.event ∧ wordField (w.getD 2 0) 29 29 = b2n lap ∧
      wordField (w.getD 2 0) 31 30 = e.sev ∧ w.getD 3 0 = e.detail) ∧
  (∀ (cls : BitVec 8) (s : State), tget 0 s.journal.lost cls.toNat ≠ 0 → (tget [] s.journal.fifo cls.toNat).length < 4 →
    s.fld Reg.JOURNAL.CTL_ENABLE 0 = 1 → s.modes.mode ≠ .banked → ∃ t, exec (.lost cls) s = .next t ∧
      tget [] t.journal.fifo cls.toNat = tget [] s.journal.fifo cls.toNat ++
        [⟨cls.toNat, 0x3FF, 0x7FF, 1, BitVec.ofNat 32 (tget 0 s.journal.lost cls.toNat)⟩] ∧
      tget 0 t.journal.lost cls.toNat = 0 ∧ t.csr = s.csr ∧ t.mem = s.mem)

end

section

open Sys2Proof Sys2Proof.Machine

/-- A frame reaching a MAC that is up: a length outside 64 to MAX_LEN, a bad FCS, another station's address, or no flow entry and no default
ring, each ends as R328 and R330 count it; an accepted frame adds 1 to RX_FRAMES. RX_DESC_DONE writes back the oldest frame: HEAD moves on,
FRAMES counts it. A free transmitter takes the next requester that asks, round-robin, the flow engine's message first out of its queue;
a frame that has left carries its FCS, inverted where it held poison, and counts. TAIL is taken as written, from BAR4 by the ring's function
alone; DATAw sets one word of the selected entry; CLR_STATS zeroes that entry's counts; the window of the oldest symbol begun that is over closes once, with the
settings the symbol began with, and one whose block is missing or failed to be written is marked; a window that closes ahead of its symbol likewise. What becomes of
an unaccepted frame's other counts is the model's reading (log entry 24).
Shown to complete with its own effect, under these hypotheses alone: macFrameRx, rxDescDone, macTxGrant, macTxDone, ethRingTail,
flowDataWrite, flowClrStats, rxWindowClose. -/
def Obligations.FramesAndRings : Prop :=
  (∀ (m : Fin 24) (l check : List Byte) (sub : BitVec 20) (c u : Nat) (s : State), s.macUp m = true → check.length = 4 →
    let n := l.length + 4
    ∃ t, exec (.macFrameRx m (l ++ check) sub c u) s = .next t ∧
      t.fld Reg.MAC.FEC_CORR_COUNT m = (s.fld Reg.MAC.FEC_CORR_COUNT m + c) % 2 ^ 32 ∧
      t.fld Reg.MAC.FEC_UNCORR_COUNT m = (s.fld Reg.MAC.FEC_UNCORR_COUNT m + u) % 2 ^ 32 ∧
      (n < 64 ∨ s.maxLen m < n → t.fld Reg.MAC.RX_LENGTH_COUNT m = (s.fld Reg.MAC.RX_LENGTH_COUNT m + 1) % 2 ^ 32 ∧
        t.fld Reg.MAC.RX_FRAMES_COUNT m = s.fld Reg.MAC.RX_FRAMES_COUNT m ∧ t.mem = s.mem ∧ t.eth = s.eth) ∧
      (64 ≤ n → n ≤ s.maxLen m → check ≠ fcs l →
        t.fld Reg.MAC.RX_FCS_ERR_COUNT m = (s.fld Reg.MAC.RX_FCS_ERR_COUNT m + 1) % 2 ^ 32 ∧
        t.fld Reg.MAC.RX_FRAMES_COUNT m = s.fld Reg.MAC.RX_FRAMES_COUNT m ∧
        (s.takesAddr m l = false ∨ beAt l 12 2 = 0x8808 → t.mem = s.mem ∧ t.eth = s.eth)) ∧
      (64 ≤ n → n ≤ s.maxLen m → check = fcs l → beAt l 12 2 ≠ 0x8808 → s.takesAddr m l = false →
        t.fld Reg.MAC.RX_FRAMES_COUNT m = s.fld Reg.MAC.RX_FRAMES_COUNT m ∧ t.mem = s.mem ∧ t.eth = s.eth) ∧
      (64 ≤ n → n ≤ s.maxLen m → check = fcs l → beAt l 12 2 = 0x8808 ∨ s.takesAddr m l = true →
        t.fld Reg.MAC.RX_FRAMES_COUNT m = (s.fld Reg.MAC.RX_FRAMES_COUNT m + 1) % 2 ^ 32) ∧
      (64 ≤ n → n ≤ s.maxLen m → check = fcs l → beAt l 12 2 ≠ 0x8808 → s.takesAddr m l = true →
        s.flowLookup m (parseFrame l (s.fld Reg.MAC.ECPRI_PORT_PORT m)) = none → s.fld Reg.MAC.DEFAULT_EN m = 0 →
        t.fld Reg.MAC.RX_UNMATCHED_COUNT m = (s.fld Reg.MAC.RX_UNMATCHED_COUNT m + 1) % 2 ^ 32 ∧ t.mem = s.mem ∧ t.eth = s.eth)) ∧
  (∀ (r : Fin 256) (s : State) (d : RxDone) (rest : List RxDone), (s.ethRing r).done = d :: rest → ∃ t, exec (.rxDescDone r) s = .next t ∧
    (t.ethRing r).done = rest ∧ t.fld Reg.ETH_RING.HEAD_HEAD r = d.head % 2 ^ 16 ∧
    t.fld Reg.ETH_RING.FRAMES_COUNT r = (s.fld Reg.ETH_RING.FRAMES_COUNT r + (if d.discard then 0 else 1)) % 2 ^ 32 ∧
    t.fld Reg.ETH_RING.TAIL_TAIL r = s.fld Reg.ETH_RING.TAIL_TAIL r) ∧
  (∀ (m : Fin 24) (sub : BitVec 20) (s : State) (k : Nat), s.macUp m = true → (s.macSt m).tx = none →
    rrPick 257 (s.macSt m).last (fun j => s.macAsks m j) = some k →
    ∃ t, exec (.macTxGrant m sub) s = .next t ∧ (t.macSt m).last = k ∧
      (k ≠ 0 → t.eth.queue = s.eth.queue) ∧
      (∀ q, k = 0 → s.flowHead m = some q → t.eth.queue = s.eth.queue.erase q ∧
        ∃ f, (t.macSt m).tx = some f ∧ f.bytes = padFrame q.bytes ∧ f.poison = false ∧ f.src = 0)) ∧
  (∀ (m : Fin 24) (s : State) (f : TxFrame), (s.macSt m).tx = some f → ∃ t, exec (.macTxDone m) s = .next t ∧ (t.macSt m).tx = none ∧
    (t.macSt m).sent = f.bytes ++ (if f.poison then (fcs f.bytes).map (fun b => ~~~b) else fcs f.bytes) ∧
    t.fld Reg.MAC.TX_FRAMES_COUNT m = (s.fld Reg.MAC.TX_FRAMES_COUNT m + 1) % 2 ^ 32 ∧
    t.fld Reg.MAC.TX_POISON_COUNT m = (s.fld Reg.MAC.TX_POISON_COUNT m + (if f.poison then 1 else 0)) % 2 ^ 32 ∧
    (∀ r : Fin 512, f.src ≠ 0 → r.val = 255 + f.src → t.fld Reg.ETH_RING.HEAD_HEAD r = f.head % 2 ^ 16)) ∧
  (∀ (req : Fin 14) (sel : BitVec 10) (fn : Fin 16) (v : Word) (s : State),
    let r := sel.toNat % 512
    ∃ t, exec (.ethRingTail req sel (some fn) v) s = .next t ∧
      (s.fld Reg.ETH_RING.IRQ_FN r ≠ fn.val → t = s) ∧
      (s.fld Reg.ETH_RING.IRQ_FN r = fn.val → t.fld Reg.ETH_RING.TAIL_TAIL r = v.toNat % 2 ^ 16 ∧
        t.fld Reg.ETH_RING.HEAD_HEAD r = s.fld Reg.ETH_RING.HEAD_HEAD r ∧ t.mem = s.mem ∧ t.eth = s.eth)) ∧
  (∀ (req : Fin 14) (sel : BitVec 10) (v : Word) (s : State) (r : Nat), Claims.Hits s req 0x5A sel.toNat 0x014 r →
    ∃ t, exec (.ethRingTail req sel none v) s = .next t ∧ t.fld Reg.ETH_RING.TAIL_TAIL r = v.toNat % 2 ^ 16 ∧
      t.mem = s.mem ∧ t.eth = s.eth) ∧
  (∀ (req : Fin 14) (sel : BitVec 10) (w : Fin 8) (v : Word) (s : State) (i : Nat),
    Claims.Hits s req 0x59 sel.toNat (0x010 + 4 * w.val) i →
    ∃ t, exec (.flowDataWrite req sel w v) s = .next t ∧ t.mem = s.mem ∧ t.csr = s.csr ∧
      ∀ e, ∀ j : Fin 8, t.flowWord e j = if e = s.flowSel req ∧ j = w then v else s.flowWord e j) ∧
  (∀ (req : Fin 14) (sel : BitVec 10) (v : Word) (s : State) (i : Nat), Claims.Hits s req 0x59 sel.toNat 0x054 i →
    ∃ t, exec (.flowClrStats req sel v) s = .next t ∧ t.eth.flow = s.eth.flow ∧
      ∀ k, tget 0 t.eth.stats k = if v.getLsbD 0 = true ∧ k / 5 = s.flowSel req then 0 else tget 0 s.eth.stats k) ∧
  (∀ (c : Fin 512) (s : State),
    let x := s.strm c
    (∀ k : SymJob, x.fhOpen.find? (s.windowClosed c) = some k → ∃ t, exec (.rxWindowClose c) s = .next t ∧
      (t.strm c).fhClosed = some k.sym ∧ (t.strm c).fhOpen = x.fhOpen.erase k ∧
      ∃ j : SymJob, (t.strm c).writing = x.writing ++ [j] ∧ j.sym = k.sym ∧ j.eff = k.eff ∧
        (((∃ i, i < effFld c k.eff Reg.STRM_RX.PRB_PRB_COUNT ∧
          ∀ p ∈ x.fhPlaced, p.sym = k.sym → p.prb ≠ effFld c k.eff Reg.STRM_RX.PRB_PRB_FIRST + i) ∨
          ∃ p ∈ x.fhPlaced, p.sym = k.sym ∧ p.ok = false) → j.fail = true) ∧
        ∀ p, p ∈ (t.strm c).fhPlaced ↔ p ∈ x.fhPlaced ∧ p.sym ≠ k.sym) ∧
    (x.fhOpen.find? (s.windowClosed c) = none →
      (s.closedAhead c = none → exec (.rxWindowClose c) s = .next s) ∧
      (∀ code, s.closedAhead c = some code → s.chRuns c = true → s.sbit c Reg.STRM_RX.CTL_FREQ_DOMAIN = true → x.waiting = false →
        x.fhClosed ≠ some code → x.fhFrom ≤ s.symNear c code →
        ∃ t, exec (.rxWindowClose c) s = .next t ∧ (t.strm c).fhClosed = some code ∧
          (s.chActive c code = false → (t.strm c).writing = x.writing ∧ t.mem = s.mem) ∧
          (s.chActive c code = true → ∃ j : SymJob, (t.strm c).writing = x.writing ++ [j] ∧ j.sym = code ∧
            ((∃ i, i < s.sfld c Reg.STRM_RX.PRB_PRB_COUNT ∧
              ∀ p ∈ x.fhPlaced, p.sym = code → p.prb ≠ s.sfld c Reg.STRM_RX.PRB_PRB_FIRST + i) → j.fail = true) ∧
            ∀ p, p ∈ (t.strm c).fhPlaced ↔ p ∈ x.fhPlaced ∧ p.sym ≠ code))))

end

section

open Sys2Proof Sys2Proof.Machine

/-- A pause state whose time has run out, or whose break has ended, is over; one that lasts LIMIT × 0.1 ms ends, a break of BREAK × 0.1 ms
begins and WD_BREAKS counts it. With its bit of GEN_EN, a priority whose ring is below XOFF_LEVEL has one frame sent and is held off, is
sent again once half the time has gone by, and is let go when every ring is at XON_LEVEL. Link loss takes LINK_UP to 0 and shows the two
fault bits; a MAC whose lanes are as R327 asks comes up. A write of PROTECT moves ACTIVE to bit 17.
Shown to complete with its own effect, under these hypotheses alone: pauseExpire, pauseBreak, pauseBreakEnd, pfcXoff, pfcRepeat,
macLinkLoss, macLinkUp, macActiveWrite. -/
def Obligations.PauseAndMacLinks : Prop :=
  (∀ (m : Fin 24) (k : Fin 9) (s : State) (u : Nat), (s.pause m k).until_ = some u →
    (u ≤ s.devclk.toNat → ∃ t, exec (.pauseExpire m k) s = .next t ∧ (t.pause m k).until_ = none ∧
      (t.pause m k).breakEnd = (s.pause m k).breakEnd ∧ ∀ j : Fin 9, j ≠ k → t.pause m j = s.pause m j) ∧
    (s.devclk.toNat < u → exec (.pauseExpire m k) s = .next s) ∧
    let lim := (s.pause m k).since + min 10000 (max 1 (s.fld Reg.MAC.PAUSE_WD_LIMIT m)) * 10000
    (lim ≤ s.devclk.toNat → u < lim → exec (.pauseBreak m k) s = .next s) ∧
    (lim ≤ s.devclk.toNat → lim ≤ u →
      ∃ t, exec (.pauseBreak m k) s = .next t ∧ (t.pause m k).until_ = none ∧
        (t.pause m k).breakEnd = some (s.devclk.toNat + max 1 (s.fld Reg.MAC.PAUSE_WD_BREAK m) * 10000) ∧
        t.fld Reg.MAC.WD_BREAKS_COUNT m = (s.fld Reg.MAC.WD_BREAKS_COUNT m + 1) % 2 ^ 32 ∧
        ∀ j : Fin 9, j ≠ k → t.pause m j = s.pause m j)) ∧
  (∀ (m : Fin 24) (k : Fin 9) (s : State) (u : Nat), (s.pause m k).breakEnd = some u → u ≤ s.devclk.toNat →
    ∃ t, exec (.pauseBreakEnd m k) s = .next t ∧ (t.pause m k).breakEnd = none ∧ (t.pause m k).until_ = (s.pause m k).until_) ∧
  (∀ (m : Fin 24) (p : Fin 8) (s : State), s.macUp m = true → bitOf (s.fld Reg.MAC.XOFF_GEN_EN m) p = true →
    let off := tget 0 (s.macSt m).xoff p
    let q := s.fld Reg.MAC.XON_QUANTA m
    let low := ∃ r ∈ s.watched m p, s.freeDescs r < s.fld Reg.MAC.XOFF_XOFF_LEVEL m
    let high := ∀ r ∈ s.watched m p, s.fld Reg.MAC.XON_XON_LEVEL m ≤ s.freeDescs r
    ∃ t, exec (.pfcXoff m p) s = .next t ∧
      (off = 0 → low → tget 0 (t.macSt m).xoff p = s.devclk.toNat + 1 ∧
        t.fld Reg.MAC.PAUSE_SENT_COUNT m = (s.fld Reg.MAC.PAUSE_SENT_COUNT m + 1) % 2 ^ 32) ∧
      (off ≠ 0 → high → tget 0 (t.macSt m).xoff p = 0 ∧
        t.fld Reg.MAC.PAUSE_SENT_COUNT m = (s.fld Reg.MAC.PAUSE_SENT_COUNT m + 1) % 2 ^ 32) ∧
      (off = 0 → ¬ low → t = s) ∧ (off ≠ 0 → ¬ high → t = s) ∧
    ∃ w, exec (.pfcRepeat m p) s = .next w ∧
      (off ≠ 0 → low → off - 1 + s.quantaTime m (q / 2) ≤ s.devclk.toNat → tget 0 (w.macSt m).xoff p = s.devclk.toNat + 1 ∧
        w.fld Reg.MAC.PAUSE_SENT_COUNT m = (s.fld Reg.MAC.PAUSE_SENT_COUNT m + 1) % 2 ^ 32 ∧ (w.macSt m).tx = (s.macSt m).tx) ∧
      (s.devclk.toNat < off - 1 + s.quantaTime m (q / 2) → w = s)) ∧
  (∀ (m : Fin 24) (lf rf : Bool) (s : State), s.fld Reg.MAC.STATUS_LINK_UP m = 1 → ∃ t, exec (.macLinkLoss m lf rf) s = .next t ∧
    t.fld Reg.MAC.STATUS_LINK_UP m = 0 ∧ t.fld Reg.MAC.STATUS_LOCAL_FAULT m = b2n lf ∧ t.fld Reg.MAC.STATUS_REMOTE_FAULT m = b2n rf ∧
    t.mem = s.mem ∧ t.eth = s.eth ∧
    ∀ h : Fin 24, h ≠ m → t.fld Reg.MAC.STATUS_LINK_UP h = s.fld Reg.MAC.STATUS_LINK_UP h) ∧
  (∀ (m : Fin 24) (s : State), s.fld Reg.MAC.STATUS_LINK_UP m = 0 → s.macCanLink m = true →
    ∃ t, exec (.macLinkUp m) s = .next t ∧ t.fld Reg.MAC.STATUS_LINK_UP m = 1 ∧ t.fld Reg.MAC.STATUS_LOCAL_FAULT m = 0 ∧
      t.fld Reg.MAC.STATUS_REMOTE_FAULT m = 0 ∧ t.mem = s.mem ∧ t.eth = s.eth ∧
      ∀ h : Fin 24, h ≠ m → t.fld Reg.MAC.STATUS_LINK_UP h = s.fld Reg.MAC.STATUS_LINK_UP h) ∧
  (∀ (req : Fin 14) (sel : BitVec 10) (v : Word) (s : State) (h : Nat), Claims.Hits s req 0x58 sel.toNat 0x024 h → sel.toNat < 0x200 →
    ∃ t, exec (.macActiveWrite req sel v) s = .next t ∧ t.fld Reg.MAC.PROTECT_ACTIVE h = v.toNat / 2 ^ 17 % 2 ∧
      t.fld Reg.MAC.PROTECT_WORK h = v.toNat % 2 ^ 5 ∧ t.fld Reg.MAC.PROTECT_PROT h = v.toNat / 2 ^ 8 % 2 ^ 5 ∧ t.eth = s.eth)

end

section

open Sys2Proof Sys2Proof.Machine

/-- A read of CREDIT_LO returns the low word and latches, for the requester alone, every other word of the five books. A write that changes
EVENT, or a CLR bit, zeroes that counter and no other. A MODE_REQ of a keep core is answered in MODE_RESULT as refused, done or started;
any other requester's has no effect. The clears of FAULT_CLEAR do one thing each. BOOT_PUSH acts only while the boot ROM waits for
the host, on the staged bytes. The key 0xD1A5 puts the device in Footing with DEVCLK and the causes kept, SOFT added; any other word does
nothing. A keep core's RUN decides RUNNING; a running core may wait. MSI-X allocation is in effect at once or stays until an FLR. PROTO
switches or is held. MARK and the rise of EN put their packet in the trace FIFO. That LOST must be 0 and the FIFO have room are premises.
Shown to complete with its own effect, under these hypotheses alone: creditLoRead, cntSelWrite, cntClr, modeReq, faultClrMax,
faultClrCounts, bootPush, softReset, keepRunWrite, keepCoreWfi, msixAllocationWrite, protoWrite, mark, traceEnable. -/
def Obligations.RegistersThatAct : Prop :=
  (∀ (req : Fin 14) (sel : BitVec 10) (s : State) (a : Nat), s.readTarget 0x2A sel.toNat 0x040 = some a →
    let x := s.account a
    let books := [x.credit, x.outstanding, x.minted, x.drawn, x.accrued]
    ∃ t, exec (.creditLoRead req sel) s = .next t ∧ t.ledger = s.ledger ∧ t.csr = s.csr ∧
      tget 0 t.returned req = loWord x.credit.toNat ∧
      (∀ k, k < 5 → t.heldFor req 0x2A a (0x044 + 8 * k) = hiWord (books.getD k 0).toNat ∧
        (k ≠ 0 → t.heldFor req 0x2A a (0x040 + 8 * k) = loWord (books.getD k 0).toNat)) ∧
      ∀ r : Fin 14, r ≠ req → ∀ k, k < 10 → t.heldFor r 0x2A a (0x040 + 4 * k) = s.heldFor r 0x2A a (0x040 + 4 * k)) ∧
  (∀ (req : Fin 14) (cls : BitVec 8) (sel : BitVec 10) (k : Fin 8) (v : Word) (s : State) (i : Nat),
    Claims.Hits s req cls.toNat sel.toNat (0x380 + 4 * k.val) i →
    ∃ t, exec (.cntSelWrite req cls sel k v) s = .next t ∧
      wordField (t.reg cls.toNat i (0x380 + 4 * k.val)) 9 0 = v.toNat % 2 ^ 10 ∧
      wordField (t.reg cls.toNat i (0x380 + 4 * k.val)) 16 16 = v.toNat / 2 ^ 16 % 2 ∧
      let same := wordField v 9 0 = wordField (s.reg cls.toNat i (0x380 + 4 * k.val)) 9 0
      ∀ j, j < 8 → t.reg cls.toNat i (0x3C0 + 8 * j) = (if j = k.val ∧ ¬ same then 0 else s.reg cls.toNat i (0x3C0 + 8 * j)) ∧
        t.reg cls.toNat i (0x3C4 + 8 * j) = (if j = k.val ∧ ¬ same then 0 else s.reg cls.toNat i (0x3C4 + 8 * j))) ∧
  (∀ (req : Fin 14) (cls : BitVec 8) (sel : BitVec 10) (v : Word) (s : State) (i : Nat), Claims.Hits s req cls.toNat sel.toNat 0x3A0 i →
    ∃ t, exec (.cntClr req cls sel v) s = .next t ∧ ∀ j, j < 8 →
      t.reg cls.toNat i (0x3C0 + 8 * j) = (if v.getLsbD j then 0 else s.reg cls.toNat i (0x3C0 + 8 * j)) ∧
      t.reg cls.toNat i (0x3C4 + 8 * j) = (if v.getLsbD j then 0 else s.reg cls.toNat i (0x3C4 + 8 * j))) ∧
  (∀ (req : Fin 14) (target : BitVec 3) (s : State), Claims.Hits s req 0 0 0x004 0 → ∃ t, exec (.modeReq req target) s = .next t ∧
    (8 ≤ req.val → t = s) ∧
    (req.val < 8 → t.fld Reg.SYS.MODE_RESULT_REQUESTER 0 = 2 + req.val ∧ t.fld Reg.SYS.MODE_RESULT_TARGET 0 = target.toNat ∧
      t.fld Reg.SYS.MODE_RESULT_DECISIONS 0 = (s.fld Reg.SYS.MODE_RESULT_DECISIONS 0 + 1) % 2 ^ 16 ∧ t.modes.mode = s.modes.mode ∧
      t.fld Reg.SYS.MODE_RESULT_RESULT 0 = (match s.modeVerdict (Mode.ofCode target.toNat) false with
        | none => 2
        | some false => 1
        | some true => 3) ∧
      t.modes.target = (if s.modeVerdict (Mode.ofCode target.toNat) false = some true then Mode.ofCode target.toNat
        else s.modes.target))) ∧
  (∀ (req : Fin 14) (s : State), Claims.Hits s req 0 0 0x058 0 →
    (∃ t, exec (.faultClrMax req) s = .next t ∧ t.fld Reg.SYS.FAULT_MAX_MAX 0 = 0 ∧ t.fld Reg.SYS.FAULT_STATUS_OVER_BOUND 0 = 0 ∧
      ∀ k : Fin 14, t.fld (Reg.SYS.FAULT_COUNT_COUNT k) 0 = s.fld (Reg.SYS.FAULT_COUNT_COUNT k) 0) ∧
    (∃ t, exec (.faultClrCounts req) s = .next t ∧ t.fld Reg.SYS.FAULT_MAX_MAX 0 = s.fld Reg.SYS.FAULT_MAX_MAX 0 ∧
      ∀ k : Fin 14, t.fld (Reg.SYS.FAULT_COUNT_COUNT k) 0 = 0)) ∧
  (∀ (req : Fin 14) (v : Word) (s : State), Claims.Hits s req 0x68 0 0x0C0 0 →
    let l := (s.bytesAt bootArea (min (2 ^ 24) (v.toNat % 2 ^ 25))).1
    ∃ t, exec (.bootPush req v) s = .next t ∧
      (s.fld Reg.SYS.BOOT_STATUS_WAITING_HOST 0 = 0 ∨ v.getLsbD 31 = false → t = s) ∧
      (s.fld Reg.SYS.BOOT_STATUS_WAITING_HOST 0 = 1 → v.getLsbD 31 = true →
        t.fld Reg.SYS.BOOT_STATUS_HOST_RESULT 0 = imageResult 0 l ∧
        (imageResult 0 l = 1 → t.fld Reg.SYS.RAISE_STATUS_DVORYS_UP 0 = 1 ∧ t.fld Reg.SYS.BOOT_STATUS_WAITING_HOST 0 = 0 ∧
          t.fld Reg.SYS.BOOT_STATUS_FROM_HOST 0 = 1) ∧
        (imageResult 0 l ≠ 1 → t.fld Reg.SYS.BOOT_STATUS_WAITING_HOST 0 = 1 ∧
          t.fld Reg.SYS.RAISE_STATUS_DVORYS_UP 0 = s.fld Reg.SYS.RAISE_STATUS_DVORYS_UP 0))) ∧
  (∀ (req : Fin 14) (v : Word) (s : State), Claims.Hits s req 0x02 0 0x008 0 → ∃ t, exec (.softReset req v) s = .next t ∧
    (v.toNat % 2 ^ 16 ≠ 0xD1A5 → t = s) ∧
    (v.toNat % 2 ^ 16 = 0xD1A5 → t.modes.mode = .footing ∧ t.devclk = s.devclk ∧ t.pending = s.pending ∧
      t.reg 0x02 0 0x00C = s.reg 0x02 0 0x00C ||| 4 ∧ t.mem = State.reset.mem ∧ t.faults = State.reset.faults ∧
      ∀ d : Fin 77, t.fld Reg.PWR.STATUS_STATE (d.val + 1) = 0)) ∧
  (∀ (req : Fin 14) (sel : BitVec 10) (v : Word) (s : State) (k : Nat), Claims.Hits s req 0x71 sel.toNat 0x000 k →
    ∃ t, exec (.keepRunWrite req sel v) s = .next t ∧ t.fld Reg.KEEP.CTL_RUN k = v.toNat % 2 ∧
      t.reg 0x71 k 0x00C = if v.toNat % 2 = s.fld Reg.KEEP.CTL_RUN k then s.reg 0x71 k 0x00C else BitVec.ofNat 32 (v.toNat % 2)) ∧
  (∀ (k : Fin 8) (s : State), ∃ t, exec (.keepCoreWfi k) s = .next t ∧
    (s.fld Reg.KEEP.STATUS_RUNNING k = 1 → t.fld Reg.KEEP.STATUS_WFI k = 1) ∧
    (s.fld Reg.KEEP.STATUS_RUNNING k = 0 → t = s) ∧
    ∀ j : Fin 8, j ≠ k → t.fld Reg.KEEP.STATUS_WFI j = s.fld Reg.KEEP.STATUS_WFI j) ∧
  (∀ (req : Fin 14) (sel : BitVec 10) (v : Word) (s : State) (fn : Nat), Claims.Hits s req 0x69 sel.toNat 0x000 fn →
    ∃ t, exec (.msixAllocationWrite req sel v) s = .next t ∧ t.fld Reg.PCIE_FN.MSIX_MSIX_BASE fn = v.toNat % 2 ^ 11 ∧
      t.fld Reg.PCIE_FN.MSIX_MSIX_COUNT fn = v.toNat / 2 ^ 16 % 2 ^ 12 ∧
      t.msixAlloc fn = if s.bit Reg.PCIE_FN.STATUS_MSIX_EN fn then s.msixAlloc fn
        else (v.toNat % 2 ^ 11, v.toNat / 2 ^ 16 % 2 ^ 12)) ∧
  (∀ (req : Fin 14) (sel : BitVec 10) (v : Word) (s : State) (q : Nat), Claims.Hits s req 0x50 sel.toNat 0x000 q →
    ∃ t, exec (.protoWrite req sel v) s = .next t ∧ t.fld Reg.LANEQ.STATUS_SWITCHING q = 1 ∧
      (s.fld Reg.LANEQ.STATUS_SWITCHING q = 0 → (t.reg 0x50 q 0x000).toNat = v.toNat % 8 ∧ t.fld Reg.LANEQ.STATUS_PLL_LOCK q = 0 ∧
        t.fld Reg.LANEQ.STATUS_CAL_DONE q = 0) ∧
      (s.fld Reg.LANEQ.STATUS_SWITCHING q = 1 → t.reg 0x50 q 0x000 = s.reg 0x50 q 0x000 ∧
        tget none t.lanes.held q = some (v.toNat % 8) ∧ t.fld Reg.LANEQ.STATUS_HELD q = 1)) ∧
  (∀ (req : Fin 14) (v : Word) (s : State), Claims.Hits s req 0x79 0 0x008 0 → s.observe.lost = 0 →
    fifoWords s.observe.fifo + 7 ≤ 2048 → ∃ t, exec (.mark req v) s = .next t ∧
      t.observe.fifo = s.observe.fifo ++ (if s.traceOn 3 then
        [(4 + 6 * 16) :: halves [v, loWord s.time.tcnt.toNat, hiWord s.time.tcnt.toNat]] else [])) ∧
  (∀ (req : Fin 14) (v : Word) (s : State), Claims.Hits s req 0x79 0 0x000 0 → s.observe.lost = 0 →
    fifoWords s.observe.fifo + 9 ≤ 2048 → ∃ t, exec (.traceEnable req v) s = .next t ∧ t.fld Reg.TRACE.CTL_EN 0 = v.toNat % 2 ∧
      t.observe.fifo = s.observe.fifo ++ (if v.toNat % 2 = 1 ∧ s.fld Reg.TRACE.CTL_EN 0 = 0 then
        [(15 + 8 * 16) :: halves [loWord s.time.tcnt.toNat, hiWord s.time.tcnt.toNat, loWord s.devclk.toNat,
          hiWord s.devclk.toNat]] else []))

end

namespace Sys2Proof.Claims

open Sys2Proof.Machine

/-- A channel is granted its engine's issue path at its instruction `w`, of OP `op`, whose checks it passes. -/
def Due (s : State) (c op w : Nat) : Prop := s.dmaReady c = some w ∧ dmaBits w 63 60 = op

/-- A channel runs on at the next instruction. -/
def RunsOn (c : Nat) (s t : State) : Prop := t.dmaPc c = (s.dmaPc c + 8) % 2 ^ 40 ∧ t.dmaState c = dmaRunning

/-- A channel waits at its instruction for a kind of condition. -/
def WaitsFor (c kind : Nat) (s t : State) : Prop :=
  t.dmaState c = dmaWaiting ∧ t.fld Reg.DMA_CH.STATUS_WAIT_KIND c = kind ∧ t.dmaPc c = s.dmaPc c

/-- Where a pointer stands after `n` bytes that do not pass its wrap point: at CBASE, the pending one where the pointer is written
back, when it has reached CBASE + CLEN; else at the sum. -/
def ptrAfter (x : DmaCh) (circ back : Bool) (p a n : Nat) : Nat :=
  if x.wrapAt circ p = some (a + n) then
    match if back then tfind x.pend p else none with
    | some q => q.1
    | none => (tget (0, 0) x.circ p).1
  else (a + n) % 2 ^ 40

/-- A transfer of `n` bytes from or to address `a` is one transaction for its pointer: 512 bytes, no 4 KB boundary, no wrap inside. -/
def OnePiece (x : DmaCh) (circ : Bool) (p a n : Nat) : Prop :=
  n ≤ 512 ∧ a % 4096 + n ≤ 4096 ∧ ∀ z, x.wrapAt circ p = some z → z ≤ a ∨ a + n ≤ z

end Sys2Proof.Claims

section

open Sys2Proof Sys2Proof.Machine

/-- At its turn of the engine's issue arbiter: END goes to IDLE. MOVE and MOVEC of no bytes change nothing but the PC; of one transaction outside CSR space they write what was read, and
the pointers named by SI and DI end past it, at CBASE where they reach the wrap; a paced one begins at byte 0. LOOP pushes COUNT and the
next address, or skips BODY; ENDLOOP pops at 1, else branches. A WAIT whose condition holds goes on, consuming an event flag; else it waits
with its kind. With its writes acknowledged, a SIGNAL sets its flag, decrements its keystone, posts, raises, or writes one ring entry at
its turn of the ring's arbiter, and goes on; before a full ring it waits. SETPTR SET, ADD and LOAD give the register its value. NOP goes on. A failed check halts.
Shown to complete with its own effect, under these hypotheses alone: dmaEnd, move, movec, loop, endloop, waitEvent, waitReq, waitTime,
waitKey, signalEvent, signalKey, signalJournal, signalIrq, signalRing, setptrSet, setptrAdd, setptrLoad, dmaNop, badOp. -/
def Obligations.ChannelInstructions : Prop :=
  (∀ (c : Fin 128) (s : State) (w : Nat), Claims.Due s c 0 w → ∃ t, exec (.dmaEnd c) s = .next t ∧ t.dmaState c = dmaIdle ∧
    t.fld Reg.DMA_CH.STATUS_CODE c = 1 ∧ t.dmaPc c = s.dmaPc c ∧ t.mem = s.mem) ∧
  (∀ (c : Fin 128) (s : State) (w op : Nat), op = 1 ∨ op = 2 → Claims.Due s c op w → (s.dch c).mv = none →
    let sp := dmaBits w 59 57
    let dp := dmaBits w 56 54
    let si := dmaBits w 53 53 == 1
    let di := dmaBits w 52 52 == 1
    let n := dmaBits w 27 0
    let x := s.dch c
    let src := tget 0 x.ptr sp
    let dst := tget 0 x.ptr dp
    let b := (s.dmaGranted c).dmaBegin c w
    ∃ t, (if op = 1 then exec (.move c) s else exec (.movec c) s) = .next t ∧
      (n = 0 → Claims.RunsOn c s t ∧ t.mem = s.mem ∧ (t.dch c).ptr = x.ptr) ∧
      (n ≠ 0 → dmaBits w 51 51 = 1 → t.dmaPc c = s.dmaPc c ∧ t.dmaState c = dmaRunning ∧ (t.dch c).mv = some 0 ∧
        t.fld Reg.DMA_CH.PROGRESS_BYTES c = 0 ∧ t.mem = s.mem) ∧
      (∀ (l : List (Byte × Bool)) (u v : State), n ≠ 0 → dmaBits w 51 51 = 0 → sp ≠ dp →
        Claims.OnePiece x (op == 2) sp src n → Claims.OnePiece x (op == 2) dp dst n → s.region src ≠ .csr → s.region dst ≠ .csr →
        b.dmaRead c src n = (.ok, l, u) → u.dmaPut c dst (l.take n) = (.ok, v) →
        Claims.RunsOn c s t ∧ t.mem = v.mem ∧
        (∀ p, p < 8 → tget 0 (t.dch c).ptr p =
          if p = sp ∧ si = true then Claims.ptrAfter x (op == 2) si sp src n
          else if p = dp ∧ di = true then Claims.ptrAfter x (op == 2) di dp dst n else tget 0 x.ptr p)) ∧
      (∀ (st : BusStatus) (l : List (Byte × Bool)) (u : State), n ≠ 0 → dmaBits w 51 51 = 0 →
        Claims.OnePiece x (op == 2) sp src n → Claims.OnePiece x (op == 2) dp dst n → s.region src ≠ .csr →
        b.dmaRead c src n = (st, l, u) → st ≠ .ok → t.dmaPc c = s.dmaPc c ∧
        tget [] t.dma.errs (c.val / 32) = tget [] s.dma.errs (c.val / 32) ++ [⟨c, 0, src, st.code⟩])) ∧
  (∀ (c : Fin 128) (s : State) (w : Nat), Claims.Due s c 3 w → ∃ t, exec (.loop c) s = .next t ∧ t.dmaState c = dmaRunning ∧
    (dmaBits w 31 0 ≠ 0 → Claims.RunsOn c s t ∧
      (t.dch c).loops = (dmaBits w 31 0, (s.dmaPc c + 8) % 2 ^ 40) :: (s.dch c).loops) ∧
    (dmaBits w 31 0 = 0 → t.dmaPc c = (s.dmaPc c + 8 * (dmaBits w 51 36 + 2)) % 2 ^ 40 ∧ (t.dch c).loops = (s.dch c).loops)) ∧
  (∀ (c : Fin 128) (s : State) (w n a : Nat) (r : List (Nat × Nat)), Claims.Due s c 4 w → (s.dch c).loops = (n, a) :: r →
    ∃ t, exec (.endloop c) s = .next t ∧ t.dmaState c = dmaRunning ∧
      (n = 1 → Claims.RunsOn c s t ∧ (t.dch c).loops = r) ∧
      (n ≠ 1 → t.dmaPc c = a % 2 ^ 40 ∧ (t.dch c).loops = (n - 1, a) :: r)) ∧
  (∀ (c : Fin 128) (s : State) (w : Nat), Claims.Due s c 5 w →
    (dmaBits w 59 57 = 0 → ∃ t, exec (.waitEvent c) s = .next t ∧
      (s.dmaFlag (dmaBits w 7 0) = true → Claims.RunsOn c s t ∧ t.dmaFlag (dmaBits w 7 0) = false) ∧
      (s.dmaFlag (dmaBits w 7 0) = false → Claims.WaitsFor c 0 s t)) ∧
    (dmaBits w 59 57 = 1 → ∃ t, exec (.waitReq c) s = .next t ∧
      (s.dmaLine (c.val / 32) (dmaBits w 5 0) = true → Claims.RunsOn c s t) ∧
      (s.dmaLine (c.val / 32) (dmaBits w 5 0) = false → Claims.WaitsFor c 1 s t)) ∧
    (dmaBits w 59 57 = 2 → ∃ t, exec (.waitTime c) s = .next t ∧
      (s.timeReached c (dmaBits w 1 0) = true → Claims.RunsOn c s t) ∧
      (s.timeReached c (dmaBits w 1 0) = false → Claims.WaitsFor c 2 s t)) ∧
    (dmaBits w 59 57 = 3 → ∃ t, exec (.waitKey c) s = .next t ∧
      let k := s.key (dmaBits w 12 0)
      (k.count ≠ 0 → Claims.WaitsFor c 3 s t ∧ c.val ∈ tget [] t.disp.dmaWait (dmaBits w 12 0)) ∧
      (k.count = 0 → t.dmaPc c = (s.dmaPc c + 8) % 2 ^ 40 ∧ (k.fail = true → t.fld Reg.DMA_CH.STATUS_KEY_MARK c = 1) ∧
        (k.fail = true ∧ dmaBits w 13 13 = 1 → t.dmaState c = dmaHalted ∧ t.fld Reg.DMA_CH.STATUS_CODE c = 5) ∧
        (¬ (k.fail = true ∧ dmaBits w 13 13 = 1) → t.dmaState c = dmaRunning)))) ∧
  (∀ (c : Fin 128) (s : State) (w : Nat), Claims.Due s c 6 w → (s.dch c).outs = [] →
    (dmaBits w 59 57 = 0 → ∃ t, exec (.signalEvent c) s = .next t ∧ Claims.RunsOn c s t ∧
      let n := dmaBits w 7 0
      (s.dmaFlag n = true → t.dmaFlag n = true ∧
        t.fld Reg.DMA.EVENT_OVERRUN_COUNT (n / 64) = (s.fld Reg.DMA.EVENT_OVERRUN_COUNT (n / 64) + 1) % 2 ^ 32) ∧
      (s.dmaFlag n = false → s.flagWaiters n = [] → t.dmaFlag n = true) ∧
      (s.dmaFlag n = false → s.flagWaiters n ≠ [] → t.dmaFlag n = false ∧ ∃ d ∈ s.flagWaiters n, (t.dch d).met = true)) ∧
    (dmaBits w 59 57 = 1 → ∃ t, exec (.signalKey c) s = .next t ∧ Claims.RunsOn c s t ∧
      ∀ k, t.key k = (s.decKey (dmaBits w 12 0) (dmaBits w 13 13 == 1)).key k) ∧
    (dmaBits w 59 57 = 2 → ∃ t, exec (.signalJournal c) s = .next t ∧ Claims.RunsOn c s t ∧
      t.journal = (s.post 0x41 c 0x010 0 (dmaBits w 31 0)).journal) ∧
    (dmaBits w 59 57 = 3 → ∃ t, exec (.signalIrq c) s = .next t ∧ Claims.RunsOn c s t ∧
      t.pcie = (s.raise (dmaBits w 3 0) (dmaBits w 14 4)).pcie) ∧
    (dmaBits w 59 57 = 4 → ∃ t, exec (.signalRing c) s = .next t ∧
      let n := dmaBits w 5 0
      let p := dmaBits w 10 8
      let a := tget 0 (s.dch c).ptr p
      (s.ringFull n = true → Claims.WaitsFor c 4 s t ∧ t.host = s.host) ∧
      (s.ringFull n = false → s.dataRingTurn n c = false → t = s) ∧
      (∀ (l : List (Byte × Bool)) (u : State), s.ringFull n = false → s.dataRingTurn n c = true → s.region a ≠ .csr →
        (s.dmaGranted c).dmaRead c a 32 = (.ok, l, u) →
        u.hostUp (s.fld (Reg.DMA.RING_CFG_FN (n % 16)) (n / 16)) = true → Claims.RunsOn c s t ∧
        t.fld (Reg.DMA.RING_PTR_TAIL (n % 16)) (n / 16) =
          (s.fld (Reg.DMA.RING_PTR_TAIL (n % 16)) (n / 16) + 1) % s.ringSlots n ∧
        tget 0 t.dma.ringSeq n = tget 0 s.dma.ringSeq n + 1 ∧
        tget 0 (t.dch c).ptr p = if dmaBits w 11 11 = 1 then (a + 32) % 2 ^ 40 else a))) ∧
  (∀ (c : Fin 128) (s : State) (w : Nat), Claims.Due s c 7 w →
    let r := dmaBits w 59 55
    let v := dmaBits w 39 0
    let x := s.dch c
    (dmaBits w 54 53 = 0 → ∃ t, exec (.setptrSet c) s = .next t ∧ Claims.RunsOn c s t ∧
      (r < 8 → t.dmaReg c r = v) ∧ (r = 16 → t.dmaReg c r = v % 2 ^ 32) ∧ (r = 17 → t.dmaReg c r = v % 2 ^ 31) ∧
      (8 ≤ r → r < 16 → (t.dch c).circ = x.circ ∧ ∃ q, tfind (t.dch c).pend (r % 4) = some q ∧
        (r < 12 → q.1 = v) ∧ (12 ≤ r → q.2 = v % 2 ^ 28)) ∧
      ∀ j, j < 18 → j ≠ r → j < 8 ∨ 16 ≤ j → t.dmaReg c j = s.dmaReg c j) ∧
    (dmaBits w 54 53 = 1 → ∃ t, exec (.setptrAdd c) s = .next t ∧ Claims.RunsOn c s t ∧
      let sum : Int := (s.dmaReg c r : Int) + signedOf 40 v
      (r < 8 → (t.dmaReg c r : Int) = sum % 2 ^ 40) ∧ (r = 16 → (t.dmaReg c r : Int) = sum % 2 ^ 32) ∧
      (r = 17 → 1966080000 ≤ sum → (t.dmaReg c 17 : Int) = (sum - 1966080000) % 2 ^ 31 ∧ t.dmaReg c 16 = (x.tsec + 1) % 2 ^ 32) ∧
      (r = 17 → sum < 0 → (t.dmaReg c 17 : Int) = (sum + 1966080000) % 2 ^ 31 ∧
        t.dmaReg c 16 = (x.tsec + 2 ^ 32 - 1) % 2 ^ 32) ∧
      (r = 17 → 0 ≤ sum → sum < 1966080000 → (t.dmaReg c 17 : Int) = sum ∧ t.dmaReg c 16 = x.tsec)) ∧
    (dmaBits w 54 53 = 2 → ∃ t, exec (.setptrLoad c) s = .next t ∧
      let a := tget 0 x.ptr (dmaBits w 2 0)
      ∀ (l : List (Byte × Bool)) (u : State), s.region a ≠ .csr → (s.dmaGranted c).dmaRead c a 16 = (.ok, l, u) → Claims.RunsOn c s t ∧
        (r < 8 → t.dmaReg c r = if (l.take 16).any Prod.snd then 0 else leNat ((l.take 8).map Prod.fst) % 2 ^ 40))) ∧
  (∀ (c : Fin 128) (s : State) (w : Nat), Claims.Due s c 15 w → ∃ t, exec (.dmaNop c) s = .next t ∧ Claims.RunsOn c s t ∧
    t.mem = s.mem) ∧
  (∀ (c : Fin 128) (s : State) (w code : Nat), s.dmaMay c = true → s.dmaState c = dmaRunning → s.dmaInstr c = some w →
    s.dmaCheck c w = some code → ∃ t, exec (.badOp c) s = .next t ∧ t.dmaState c = dmaHalted ∧
      t.fld Reg.DMA_CH.STATUS_CODE c = code ∧ t.dmaPc c = s.dmaPc c ∧ t.mem = s.mem)

end

section

open Sys2Proof Sys2Proof.Machine

/-- START runs an idle or halted channel from its PC with its low bits cleared; ABORT takes any but an idle one to IDLE, out of every
keystone's list; RESUME runs a stopped one, a MOVE at PROGRESS. A paced burst runs when its line is asserted and the issue arbiter is at its channel,
and is counted; a running channel whose line is not asserted waits. A met condition lets a waiting channel go on. The oldest write acknowledged counts its bytes, a POST write
not while it stands at the post port. A line fetched is held as read, and a
poisoned word halts; a failed one is a bus error. The first bus error stops every running or waiting channel of the engine and no other, and is
recorded; a later one only counts. EVENT_SET, EVENT_CLR, REQ_SW, REG_HI and a ring's owner's head write set what they name.
Shown to complete with its own effect, under these hypotheses alone: start, dmaAbort, resume, pacedBurst, dmaWaitMet, dmaWriteAck,
dmaFetchReturn, busError, eventSet, eventClr, reqSwWrite, regHiWrite, dataRingHead. -/
def Obligations.DmaEngineEvents : Prop :=
  (∀ (req : Fin 14) (sel : BitVec 10) (s : State) (c : Nat), Claims.Hits s req 0x41 sel.toNat 0x000 c →
    (∃ t, exec (.start req sel) s = .next t ∧
      (s.dmaState c = dmaIdle ∨ s.dmaState c = dmaHalted → t.dmaState c = dmaRunning ∧ t.dmaPc c = s.dmaPc c / 8 * 8 ∧
        (t.dch c).loops = [] ∧ (t.dch c).ptr = (s.dch c).ptr) ∧
      (s.dmaState c ≠ dmaIdle → s.dmaState c ≠ dmaHalted → t = s)) ∧
    (∃ t, exec (.dmaAbort req sel) s = .next t ∧ (s.dmaState c = dmaIdle → t = s) ∧
      (s.dmaState c ≠ dmaIdle → t.dmaState c = dmaIdle ∧ t.fld Reg.DMA_CH.STATUS_CODE c = 6 ∧ (t.dch c).mv = none ∧
        ∀ k, c ∉ tget [] t.disp.dmaWait k)) ∧
    (∃ t, exec (.resume req sel) s = .next t ∧ (s.dmaState c ≠ dmaStopped → t = s) ∧
      (s.dmaState c = dmaStopped → t.dmaState c = dmaRunning ∧ t.dmaPc c = s.dmaPc c ∧
        (t.dch c).mv = (s.dch c).mv.map (fun _ => s.fld Reg.DMA_CH.PROGRESS_BYTES c)))) ∧
  (∀ (c : Fin 128) (withdrawn : Bool) (s : State) (w : Nat), s.dmaMay c = true → s.dmaInstr c = some w → s.dmaCheck c w = none →
    (s.dch c).mv.isSome = true → dmaBits w 51 51 = 1 → s.postStands c = false →
    (s.dmaState c = dmaRunning → s.dmaLine (c.val / 32) (dmaBits w 50 45) = false → ∃ t, exec (.pacedBurst c withdrawn) s = .next t ∧
      Claims.WaitsFor c 5 s t ∧ (t.dch c).mv = (s.dch c).mv ∧ t.mem = s.mem) ∧
    (s.dmaLine (c.val / 32) (dmaBits w 50 45) = true → s.dmaTurn c = false → exec (.pacedBurst c withdrawn) s = .next s) ∧
    (s.dmaLine (c.val / 32) (dmaBits w 50 45) = true → s.dmaTurn c = true →
      s.dmaState c = dmaRunning ∨ s.dmaState c = dmaWaiting ∧ s.fld Reg.DMA_CH.STATUS_WAIT_KIND c = 5 →
      let size := 16 * 2 ^ (if 10 ≤ dmaBits w 44 41 then 9 else dmaBits w 44 41)
      ∃ u : State, exec (.pacedBurst c withdrawn) s = .next (u.dmaTransfer c w size) ∧ u.dma = (s.dmaGranted c).dma ∧ u.mem = s.mem ∧
        u.fld Reg.DMA_CH.BURSTS_COUNT c = (s.fld Reg.DMA_CH.BURSTS_COUNT c + 1) % 2 ^ 32 ∧
        u.fld Reg.DMA_CH.WITHDRAWN_COUNT c = (s.fld Reg.DMA_CH.WITHDRAWN_COUNT c + b2n withdrawn) % 2 ^ 32)) ∧
  (∀ (c : Fin 128) (s : State), s.dmaState c = dmaWaiting → s.dmaOn c = true →
    let kind := s.fld Reg.DMA_CH.STATUS_WAIT_KIND c
    let w := (s.dch c).cur.getD 0
    ∃ t, exec (.dmaWaitMet c) s = .next t ∧
      (kind = 0 → ((s.dch c).met = true → Claims.RunsOn c s t) ∧ ((s.dch c).met = false → t = s)) ∧
      (kind = 1 → (s.dmaLine (c.val / 32) (dmaBits w 5 0) = true → Claims.RunsOn c s t) ∧
        (s.dmaLine (c.val / 32) (dmaBits w 5 0) = false → t = s)) ∧
      (kind = 2 → (s.timeReached c (dmaBits w 1 0) = true → Claims.RunsOn c s t) ∧
        (s.timeReached c (dmaBits w 1 0) = false → t = s)) ∧
      (kind = 3 → let r := tget 0 s.disp.dmaRel c
        (r = 0 → t = s) ∧ (r ≠ 0 → t.dmaPc c = (s.dmaPc c + 8) % 2 ^ 40 ∧ tget 0 t.disp.dmaRel c = 0) ∧
        (r = 2 → t.fld Reg.DMA_CH.STATUS_KEY_MARK c = 1 ∧
          t.dmaState c = if dmaBits w 13 13 = 1 then dmaHalted else dmaRunning)) ∧
      (kind = 4 → (s.ringFull (dmaBits w 5 0) = false → t.dmaState c = dmaRunning ∧ t.dmaPc c = s.dmaPc c) ∧
        (s.ringFull (dmaBits w 5 0) = true → t = s))) ∧
  (∀ (c : Fin 128) (s : State) (o : DmaOut) (r : List DmaOut), (s.dch c).outs = o :: r →
    (r = [] ∧ s.postStands c = true → exec (.dmaWriteAck c) s = .next s) ∧ (r ≠ [] ∨ s.postStands c = false →
    ∃ t, exec (.dmaWriteAck c) s = .next t ∧ (t.dch c).outs = r ∧ t.mem = s.mem ∧
    t.pair Reg.DMA_CH.BYTES_LO_COUNT Reg.DMA_CH.BYTES_HI_COUNT c =
      (s.pair Reg.DMA_CH.BYTES_LO_COUNT Reg.DMA_CH.BYTES_HI_COUNT c + o.len) % 2 ^ 48 ∧
    t.fld Reg.DMA_CH.PROGRESS_BYTES c = (s.fld Reg.DMA_CH.PROGRESS_BYTES c + (if o.current then o.len else 0)) % 2 ^ 28)) ∧
  (∀ (c : Fin 128) (s : State) (st : BusStatus) (l : List (Byte × Bool)) (u : State), s.dmaMay c = true → s.dmaState c = dmaRunning →
    (s.dch c).cur = none → s.dmaFetched (c.val / 32) (s.dmaPc c) = none →
    let a := s.dmaPc c / 64 * 64
    s.region a ≠ .csr → s.dmaRead c a 64 = (st, l, u) →
    let b := ((l.take 64).drop (s.dmaPc c % 64)).take 8
    ∃ t, exec (.dmaFetchReturn c) s = .next t ∧ t.dmaPc c = s.dmaPc c ∧
      (st ≠ .ok → tget [] t.dma.errs (c.val / 32) = tget [] s.dma.errs (c.val / 32) ++ [⟨c, 2, a, st.code⟩]) ∧
      (st = .ok → t.dmaFetched (c.val / 32) (s.dmaPc c) = some (leNat (b.map Prod.fst), b.any Prod.snd)) ∧
      (st = .ok → b.any Prod.snd = true → t.dmaState c = dmaHalted ∧ t.fld Reg.DMA_CH.STATUS_CODE c = 8) ∧
      (st = .ok → b.any Prod.snd = false → t.dmaState c = dmaRunning)) ∧
  (∀ (e : Fin 4) (s : State) (r : DmaErr) (l : List DmaErr), tget [] s.dma.errs e = r :: l →
    ∃ t, exec (.busError e) s = .next t ∧ tget [] t.dma.errs e = l ∧ t.fld Reg.DMA.STATUS_ERR e = 1 ∧
      t.fld Reg.DMA.STATUS_ERR_COUNT e = min (2 ^ 16 - 1) (s.fld Reg.DMA.STATUS_ERR_COUNT e + 1) ∧
      (∀ c : Fin 128, c.val / 32 ≠ e.val → t.dmaState c = s.dmaState c) ∧
      (s.fld Reg.DMA.STATUS_STOPPED e = 1 → ∀ c : Fin 128, t.dmaState c = s.dmaState c) ∧
      (s.fld Reg.DMA.STATUS_STOPPED e = 0 →
        t.fld Reg.DMA.ERR_ADDR_LO_ADDR_LO e = r.addr % 2 ^ 32 ∧ t.fld Reg.DMA.ERR_ADDR_HI_ADDR_HI e = r.addr / 2 ^ 32 % 2 ^ 8 ∧
        ∀ c : Fin 128, c.val / 32 = e.val →
          (s.dmaState c = dmaRunning ∨ s.dmaState c = dmaWaiting → t.dmaState c = dmaStopped ∧ t.fld Reg.DMA_CH.STATUS_CODE c = 7) ∧
          (s.dmaState c ≠ dmaRunning → s.dmaState c ≠ dmaWaiting → t.dmaState c = s.dmaState c))) ∧
  (∀ (req : Fin 14) (sel : BitVec 10) (w : Fin 2) (v : Word) (s : State) (e : Nat),
    (Claims.Hits s req 0x40 sel.toNat (0x020 + 4 * w.val) e → ∃ t, exec (.eventSet req sel w v) s = .next t ∧ t.mem = s.mem ∧
      ∀ b : Fin 32, let n := 64 * e + 32 * w.val + b.val
        (v.getLsbD b = true → s.dmaFlag n = true ∨ s.flagWaiters n = [] → t.dmaFlag n = true) ∧
        (v.getLsbD b = false → t.dmaFlag n = s.dmaFlag n)) ∧
    (Claims.Hits s req 0x40 sel.toNat (0x028 + 4 * w.val) e → ∃ t, exec (.eventClr req sel w v) s = .next t ∧ t.mem = s.mem ∧
      ∀ b : Fin 32, let n := 64 * e + 32 * w.val + b.val
        t.dmaFlag n = (s.dmaFlag n && !v.getLsbD b)) ∧
    (Claims.Hits s req 0x40 sel.toNat (0x040 + 4 * w.val) e → ∃ t, exec (.reqSwWrite req sel w v) s = .next t ∧
      t.reg 0x40 e (0x040 + 4 * w.val) = v ∧ t.dma = s.dma ∧ t.mem = s.mem)) ∧
  (∀ (req : Fin 14) (sel : BitVec 10) (v : Word) (s : State) (c : Nat), Claims.Hits s req 0x41 sel.toNat 0x01C c →
    let r := (s.heldFor req 0x41 c 0x014).toNat % 32
    let st := s.dmaState c
    ∃ t, exec (.regHiWrite req sel v) s = .next t ∧
      (st = dmaRunning ∨ st = dmaWaiting ∨ 18 ≤ r → t = s) ∧
      (st = dmaIdle ∨ st = dmaHalted ∨ st = dmaStopped → r < 8 →
        t.dmaReg c r = ((s.heldFor req 0x41 c 0x018).toNat + 2 ^ 32 * v.toNat) % 2 ^ 40)) ∧
  (∀ (fn : Fin 16) (n : Fin 64) (v : BitVec 16) (s : State), ∃ t, exec (.dataRingHead fn n v) s = .next t ∧
    (s.ringSlots n = 0 ∨ s.fld (Reg.DMA.RING_CFG_FN (n.val % 16)) (n.val / 16) ≠ fn.val → t = s) ∧
    (s.ringSlots n ≠ 0 → s.fld (Reg.DMA.RING_CFG_FN (n.val % 16)) (n.val / 16) = fn.val →
      t.fld (Reg.DMA.RING_PTR_HEAD (n.val % 16)) (n.val / 16) = v.toNat ∧
      t.fld (Reg.DMA.RING_PTR_TAIL (n.val % 16)) (n.val / 16) = s.fld (Reg.DMA.RING_PTR_TAIL (n.val % 16)) (n.val / 16)))

end

namespace Sys2Proof.Claims

open Sys2Proof.Machine

/-- The packet rows and their opcodes (R44). -/
def PacketOf (c : Instr) (fn : Fin 16) (op : Nat) : Prop :=
  (c, op) ∈ [(Instr.nop fn, 0x0001), (.identify fn, 0x0002), (.modeGet fn, 0x0003), (.modeSet fn, 0x0004), (.eventSubscribe fn, 0x0005),
    (.fnGrant fn, 0x0006), (.diagWindow fn, 0x0007), (.abort fn, 0x0008)] ∨
  (c, op) ∈ [(Instr.enumerate fn, 0x1001), (.regRead fn, 0x1002), (.regWrite fn, 0x1003), (.regModify fn, 0x1004), (.regBlock fn, 0x1005),
    (.commit fn, 0x1006), (.commitState fn, 0x1007), (.fenceUnit fn, 0x1008), (.unfenceUnit fn, 0x1009)] ∨
  (c, op) ∈ [(Instr.accountSet fn, 0x2001), (.accountRead fn, 0x2002), (.plan fn, 0x2003), (.ledgerSet fn, 0x2004),
    (.meterCalibrate fn, 0x2005)] ∨
  (c, op) ∈ [(Instr.queueSet fn, 0x3001), (.taskPost fn, 0x3002), (.keystoneSet fn, 0x3003), (.keystoneRead fn, 0x3004),
    (.queueStats fn, 0x3005)] ∨
  (c, op) ∈ [(Instr.vaultSet fn, 0x4001), (.vstreamSet fn, 0x4002), (.vaultTrigger fn, 0x4003), (.vaultExport fn, 0x4004),
    (.tallySet fn, 0x4005), (.templateLoad fn, 0x4006), (.vaultStatus fn, 0x4007)] ∨
  (c, op) ∈ [(Instr.tbRead fn, 0x5001), (.tbStep fn, 0x5002), (.servoSet fn, 0x5003), (.servoOffset fn, 0x5004), (.tddEdgeSet fn, 0x5005),
    (.ptpPortSet fn, 0x5006)] ∨
  (c, op) ∈ [(Instr.memRead fn, 0x6001), (.memWrite fn, 0x6002), (.memCopy fn, 0x6003), (.spallRead fn, 0x6004), (.pageRetire fn, 0x6005),
    (.channelEvacuate fn, 0x6006), (.scrubSet fn, 0x6007), (.dataRingSet fn, 0x6008)] ∨
  (c, op) ∈ [(Instr.quadProtocolSet fn, 0x7001), (.laneSet fn, 0x7002), (.laneRecal fn, 0x7003), (.laneStatus fn, 0x7004),
    (.ahnentSet fn, 0x7005), (.macSet fn, 0x7006), (.flowWrite fn, 0x7007), (.protectSet fn, 0x7008)] ∨
  (c, op) ∈ [(Instr.imageStage fn, 0x8001), (.imageVerify fn, 0x8002), (.imageActivate fn, 0x8003), (.imageFlashWrite fn, 0x8004),
    (.imageStatus fn, 0x8005), (.counterSelect fn, 0x9001), (.counterRead fn, 0x9002), (.collectStart fn, 0x9003), (.traceSet fn, 0x9004),
    (.journalRead fn, 0x9005)]

/-- Dvorys serves the ring of `fn` next, its head is packet `p`, of opcode `op`, and `u` is the state that has taken it. -/
def Taken (s : State) (fn : Fin 16) (op : Nat) (p : Packet) (u : State) : Prop :=
  s.nextRing = some fn.val ∧ (s.packetAt fn).1 = p ∧ p.ver = 1 ∧ p.op = op ∧
  u = (s.packetAt fn).2.takeSlots fn (packetSlots p.pw)

/-- A packet taken that passes every check. -/
def Ready (s : State) (fn : Fin 16) (op : Nat) (p : Packet) (u : State) : Prop := Taken s fn op p u ∧ u.refusal p = none

/-- The writes a packet makes: the whole sequence per member of its target, in ascending order. -/
def written (u : State) (p : Packet) (l : List (Nat × Word)) : State :=
  (if p.sel < 0x200 then [p.sel] else u.writeTargets p.cls p.sel 0).foldl (fun s i =>
    l.foldl (fun s x => if 0x200 ≤ p.sel ∧ singleOnly p.cls x.1 = true then s else s.csrWrite 8 p.cls i x.1 x.2) s) u

/-- A packet that has written registers and left state `v`, answered: OK, or MODE_FORBIDS with the mode where a member's register at one of
`offs` takes no write in the mode in force (R10). -/
def endedAt (u v : State) (p : Packet) (offs : List Nat) (results : List Word) : State :=
  if (if p.sel < 0x200 then [p.sel] else u.writeTargets p.cls p.sel 0) ≠ [] ∧ ∃ o ∈ offs, u.modeTakes p.cls o = false then
    v.reply p .modeForbids v.modes.mode.code results
  else v.replyOk p results

/-- A packet that writes a list of registers, carried out and answered. -/
def wrote (u : State) (p : Packet) (l : List (Nat × Word)) : State := endedAt u (written u p l) p (l.map Prod.fst) []

/-- A packet answered OK with reads of its target. -/
def answered (u : State) (p : Packet) (offs : List Nat) : State :=
  let r := u.dvReads p offs
  r.2.replyOk p r.1

end Sys2Proof.Claims

section

open Sys2Proof Sys2Proof.Machine

/-- Every packet row but for the ring served next does nothing. A packet at its head that fails a check is taken and gets that check's
reply, whatever its row; an opcode of no table, or another version, gets BAD_OPCODE. The checks come in order: opcode, length, grant, mode, target.
A reply of at most 12 results is one 64-byte slot at CQ_TAIL, with PHASE, STATUS, TAG, SEQUENCE, SQ_HEAD and DETAIL; CQ_TAIL moves on and
PHASE inverts at the wrap; with INTERRUPT the ring's vector is raised. An accepted operation enters the table under an OP_ID none in it has.
A TASK_POST without room, or while the post arbiter is at another requester, is held, its ring with it; TASK_POST_RETRY takes it when it has
room, posts are accepted and the arbiter is at Dvorys, and leaves the rings' round robin as it was (R43, R178).
Shown to complete with its own effect, under these hypotheses alone: badOpcode, taskPost, taskPostRetry. -/
def Obligations.PacketsAreCheckedAndAnswered : Prop :=
  (∀ (c : Instr) (fn : Fin 16) (op : Nat) (s : State), Claims.PacketOf c fn op →
    (s.nextRing ≠ some fn.val → exec c s = .next s) ∧
    (∀ (p : Packet) (u : State) (st : Status) (d : Nat), Claims.Taken s fn op p u → u.refusal p = some (st, d) →
      (op = 0x3002 → s.refusal p = some (st, d)) → exec c s = .next (u.reply p st d []))) ∧
  (∀ (fn : Fin 16) (s : State), s.nextRing = some fn.val →
    let p := (s.packetAt fn).1
    p.ver ≠ 1 ∨ opRow p.op = none →
      exec (.badOpcode fn) s = .next (((s.packetAt fn).2.takeSlots fn (packetSlots p.pw)).reply p .badOpcode p.op [])) ∧
  (∀ (s : State) (p : Packet), (p.ver ≠ 1 ∨ opRow p.op = none → s.refusal p = some (.badOpcode, p.op)) ∧
    ∀ r, p.ver = 1 → opRow p.op = some r →
      (p.pw < r.lo ∨ r.hi < p.pw → s.refusal p = some (.badLength, p.pw)) ∧
      (r.lo ≤ p.pw → p.pw ≤ r.hi →
        (s.granted p = false ∨ r.pf = true ∧ p.fn ≠ 0 → s.refusal p = some (.denied, p.fn)) ∧
        (s.granted p = true → (r.pf = true → p.fn = 0) →
          (s.modeServes p.op = false → s.refusal p = some (.modeForbids, s.modes.mode.code)) ∧
          (s.modeServes p.op = true → targetOk r p.cls p.sel = false → s.refusal p = some (.badTarget, p.target.toNat))))) ∧
  (∀ (u : State) (p : Packet) (st : Status) (d : Nat) (l : List Word), l.length ≤ 12 →
    let g := u.page p.fn
    let t := u.reply p st d l
    (t.page p.fn).cqTail = g.cqTail + 1 ∧ (t.page p.fn).phase = (if g.cqTail = 4095 then !g.phase else g.phase) ∧ t.csr = u.csr ∧
    (g.cqTreasury = false → t.mem = u.mem ∧ t.host = if u.hostUp p.fn then
      mwrites u.host (ringBase g.cqBase false + 64 * g.cqTail.toNat) (wordsToBytes
        (BitVec.ofNat 32 (st.code + 2 ^ 16 * l.length + 2 ^ 31 * b2n g.phase) :: p.tag ::
          BitVec.ofNat 32 (p.seq.toNat + 2 ^ 16 * g.sqHead.toNat) :: BitVec.ofNat 32 d :: l ++
          List.replicate (12 - l.length) 0)) else u.host) ∧
    (g.irqEn = true → p.intr = true → t.pcie = (u.raise p.fn g.vector.toNat).pcie)) ∧
  (∀ (u : State) (p : Packet) (k : LrKind) (params more : List Word),
    let r := u.acceptOp p k params more
    r.2.dvorys.ops = u.dvorys.ops ++ [r.1] ∧ r.1.opId = u.nextOpId ∧ r.1.kind = k ∧ r.1.fn = p.fn ∧ r.1.tag = p.tag ∧
    (r.2.page p.fn).cqTail = (u.page p.fn).cqTail + 1 ∧
    (u.dvorys.ops.length ≤ 256 → ∀ o ∈ u.dvorys.ops, o.opId ≠ r.1.opId)) ∧
  (∀ (fn : Fin 16) (p : Packet) (s u : State), Claims.Taken s fn 0x3002 p u → s.refusal p = none →
    (s.postRoom p.sel = false ∨ s.taskPostTurn = false → ∃ t, exec (.taskPost fn) s = .next t ∧ (t.page fn).stalledBp = true ∧
      tget false t.dvorys.heldPacket fn = true ∧ (t.page fn).sqHead = (s.page fn).sqHead ∧ t.dvorys.lastRing = fn ∧ t.disp = s.disp) ∧
    (s.postRoom p.sel = true → s.taskPostTurn = true → u.refusal p = none → ∃ t, exec (.taskPost fn) s = .next t ∧
      (let r := u.accept p.sel ((List.range 16).map p.w) u.secTc
       t.disp = { r.2.disp with lastPost := 8, lastIndex := tset 0 r.2.disp.lastIndex 8 r.1 }) ∧
      (t.page fn).cqTail = (u.page fn).cqTail + 1)) ∧
  (∀ (fn : Fin 16) (s : State), tget false s.dvorys.heldPacket fn = true →
    let p := (s.packetAt fn).1
    let turn := s.serves && s.postMode && s.postRoom p.sel && s.taskPostTurn
    ∃ t, exec (.taskPostRetry fn) s = .next t ∧ (turn = false → t = s) ∧
      (turn = true → tget false t.dvorys.heldPacket fn = false ∧ (t.page fn).stalledBp = false ∧ t.disp.lastPost = 8 ∧
        t.dvorys.lastRing = s.dvorys.lastRing ∧ (t.page fn).sqHead = (s.page fn).sqHead + BitVec.ofNat 12 (packetSlots p.pw)))

end

section

open Sys2Proof Sys2Proof.Machine

/-- A configuration packet that passes the checks writes its parameter words to consecutive registers from its own first offset, the whole
sequence for each member of its target in ascending order, and is answered OK without results, or MODE_FORBIDS with the mode where a register
it names takes no write in the mode in force (R10). REG_WRITE starts at the offset it names;
KEYSTONE_SET writes SET_COUNT's one word; TEMPLATE_LOAD writes address, length and then each word to the data register; FLOW_WRITE selects its
entry and writes its words in order; PROTECT_SET writes one word with ACTIVE as it stands; COUNTER_SELECT writes one selection.
Shown to complete with its own effect, under these hypotheses alone: accountSet, ledgerSet, queueSet, vaultSet, vstreamSet, tallySet,
tbStep, servoSet, servoOffset, tddEdgeSet, ptpPortSet, scrubSet, laneSet, ahnentSet, macSet, traceSet, regWrite, keystoneSet, templateLoad,
flowWrite, protectSet, counterSelect, regModify, dataRingSet. -/
def Obligations.ConfigurationPacketsWriteRegisters : Prop :=
  (∀ (fn : Fin 16) (c : Instr) (op base : Nat) (p : Packet) (s u : State), Claims.Ready s fn op p u →
    (c, op, base) ∈ [(Instr.accountSet fn, 0x2001, 0x000), (.ledgerSet fn, 0x2004, 0x000), (.queueSet fn, 0x3001, 0x000),
      (.vaultSet fn, 0x4001, 0x000), (.vstreamSet fn, 0x4002, 0x000), (.tallySet fn, 0x4005, 0x000), (.tbStep fn, 0x5002, 0x018),
      (.servoSet fn, 0x5003, 0x030), (.servoOffset fn, 0x5004, 0x048), (.tddEdgeSet fn, 0x5005, 0x000), (.ptpPortSet fn, 0x5006, 0x000),
      (.scrubSet fn, 0x6007, 0x040), (.laneSet fn, 0x7002, 0x000), (.ahnentSet fn, 0x7005, 0x000), (.macSet fn, 0x7006, 0x000),
      (.traceSet fn, 0x9004, 0x000)] →
    exec c s = .next (Claims.wrote u p (wordsAt base p.params))) ∧
  (∀ (fn : Fin 16) (p : Packet) (s u : State), Claims.Ready s fn 0x1003 p u → exec (.regWrite fn) s = .next (Claims.wrote u p
    ((p.params.drop 1).mapIdx (fun k w => (((p.w 0).toNat % 2 ^ 10 / 4 * 4 + 4 * k) % 0x400, w))))) ∧
  (∀ (fn : Fin 16) (p : Packet) (s u : State), Claims.Ready s fn 0x3003 p u → exec (.keystoneSet fn) s = .next (Claims.wrote u p
    [(0x300, BitVec.ofNat 32 ((p.w 0).toNat % 2 ^ 8 + 2 ^ 8 * ((p.w 1).toNat % 2 ^ 12) + 2 ^ 20 * ((p.w 1).toNat / 2 ^ 31)))])) ∧
  (∀ (fn : Fin 16) (p : Packet) (s u : State), Claims.Ready s fn 0x4006 p u → exec (.templateLoad fn) s = .next (Claims.wrote u p
    ([(0x060, BitVec.ofNat 32 ((p.w 0).toNat % 2 ^ 6)), (0x064, BitVec.ofNat 32 ((p.w 1).toNat % 2 ^ 11))] ++
      (p.params.drop 2).map (fun w => (0x068, w))))) ∧
  (∀ (fn : Fin 16) (p : Packet) (s u : State), Claims.Ready s fn 0x7007 p u → exec (.flowWrite fn) s = .next (Claims.wrote u p
    ((0x000, p.w 0) :: wordsAt 0x010 (p.params.drop 1)))) ∧
  (∀ (fn : Fin 16) (p : Packet) (s u : State), Claims.Ready s fn 0x7008 p u → ∃ v : Word, exec (.protectSet fn) s = .next (Claims.wrote u p
    [(if p.cls = 0x58 then 0x024 else 0x010, v)]) ∧ v.toNat % 2 ^ 6 = (p.w 0).toNat % 2 ^ 6 ∧
      v.toNat / 2 ^ 8 % 2 ^ 6 = (p.w 1).toNat % 2 ^ 6 ∧ v.toNat / 2 ^ 16 % 2 = (p.w 1).toNat / 2 ^ 8 % 2 ∧
      v.toNat / 2 ^ 17 = if p.cls = 0x58 then u.fld Reg.MAC.PROTECT_ACTIVE p.sel else u.fld Reg.AHNENT.PROTECT_ACTIVE p.sel) ∧
  (∀ (fn : Fin 16) (p : Packet) (s u : State), Claims.Ready s fn 0x9001 p u → exec (.counterSelect fn) s = .next (Claims.wrote u p
    [(0x380 + 4 * ((p.w 0).toNat % 8), p.w 1)])) ∧
  (∀ (fn : Fin 16) (p : Packet) (s u : State), Claims.Ready s fn 0x1004 p u → p.sel < 0x200 →
    let off := (p.w 0).toNat % 2 ^ 10 / 4 * 4 % 0x400
    let r := u.csrRead 8 p.cls p.sel off
    exec (.regModify fn) s = .next (Claims.endedAt u (r.2.csrWrite 8 p.cls p.sel off ((r.1 &&& ~~~(p.w 1)) ||| (p.w 2 &&& p.w 1)))
      p [off] [r.1])) ∧
  (∀ (fn : Fin 16) (p : Packet) (s u : State), Claims.Ready s fn 0x6008 p u →
    let n := (p.w 0).toNat % 64
    ∃ t, exec (.dataRingSet fn) s = .next t ∧ tget 0 t.dma.ringSeq n = 0 ∧ t.fld (Reg.DMA.RING_CFG_PHASE (n % 16)) (n / 16) = 1 ∧
      t.fld (Reg.DMA.RING_PTR_TAIL (n % 16)) (n / 16) = 0 ∧ t.fld (Reg.DMA.RING_PTR_HEAD (n % 16)) (n / 16) = 0 ∧
      (u.modeTakes 0x40 (0x208 + 0x10 * (n % 16)) = true → u.hubTakes 8 = true →
        u.writeTargets 0x40 (n / 16) (0x208 + 0x10 * (n % 16)) = [n / 16] →
        t.fld (Reg.DMA.RING_CFG_LOG2 (n % 16)) (n / 16) = (p.w 3).toNat % 2 ^ 5 ∧
        t.fld (Reg.DMA.RING_CFG_FN (n % 16)) (n / 16) = (p.w 4).toNat % 2 ^ 4 ∧
        t.fld (Reg.DMA.RING_CFG_VECTOR (n % 16)) (n / 16) = (p.w 5).toNat % 2 ^ 11))

end

section

open Sys2Proof Sys2Proof.Machine

/-- REG_READ answers with its count of consecutive registers, 0 acting as 1 and above 12 as 12; the other reading packets with the registers
their row names. IDENTIFY, MODE_GET and ENUMERATE answer from the machine; MEM_READ with the words at its address, a poisoned one as zero with
its bit in DETAIL, or with the status of the failed access; COUNTER_READ with three words for each of the four lowest counters of its
mask, a count of cycles being open (log entry 11); PLAN with its count of draws in mites, none above 32 bits; JOURNAL_READ with twelve words;
IMAGE_STATUS with six, which are open (log entry 30).
Shown to complete with its own effect, under these hypotheses alone: accountRead, laneStatus, queueStats, regRead, keystoneRead, spallRead,
tbRead, commitState, vaultStatus, nop, identify, modeGet, enumerate, memRead, counterRead, plan, journalRead, imageStatus. -/
def Obligations.ReadingPacketsAnswer : Prop :=
  (∀ (fn : Fin 16) (c : Instr) (op : Nat) (offs : List Nat) (p : Packet) (s u : State), Claims.Ready s fn op p u →
    (c, op, offs) ∈ [(Instr.accountRead fn, 0x2002, [0x040, 0x044, 0x048, 0x04C, 0x050, 0x054, 0x058, 0x05C]),
      (.laneStatus fn, 0x7004, [0x040, 0x044, 0x048, 0x04C, 0x050, 0x054, 0x058, 0x05C]),
      (.queueStats fn, 0x3005, if p.cls = 0x21 then
        [0x020, 0x024, 0x040, 0x044, 0x048, 0x04C, 0x050, 0x054, 0x058, 0x05C, 0x02C, 0x030] else
        [0x000, 0x004, 0x00C, 0x010, 0x040, 0x044, 0x048, 0x04C, 0x050, 0x054, 0x058, 0x05C]),
      (.regRead fn, 0x1002, (List.range (if (p.w 0).toNat / 2 ^ 16 % 2 ^ 12 = 0 then 1 else min ((p.w 0).toNat / 2 ^ 16 % 2 ^ 12) 12)).map
        (fun k => ((p.w 0).toNat % 2 ^ 10 / 4 * 4 + 4 * k) % 0x400))] →
    exec c s = .next (Claims.answered u p offs)) ∧
  (∀ (fn : Fin 16) (p : Packet) (s u : State), Claims.Ready s fn 0x3004 p u →
    exec (.keystoneRead fn) s = .next (Claims.answered (Claims.written u p [(0x30C, p.w 0)]) p [0x310])) ∧
  (∀ (fn : Fin 16) (p : Packet) (s u : State), Claims.Ready s fn 0x6004 p u →
    exec (.spallRead fn) s = .next (Claims.answered (Claims.written u p [(0x00C, p.w 0)]) p [0x010, 0x014, 0x018, 0x01C])) ∧
  (∀ (fn : Fin 16) (p : Packet) (s u : State), Claims.Ready s fn 0x5001 p u →
    let r := u.dvReads p [0x000, 0x004, 0x008, 0x00C, 0x010, 0x014]
    exec (.tbRead fn) s = .next (r.2.replyOk p (r.1.getD 1 0 :: r.1.headD 0 :: r.1.drop 2))) ∧
  (∀ (fn : Fin 16) (p : Packet) (s u : State), Claims.Ready s fn 0x1007 p u →
    let r := u.dvReads p [0x068, 0x06C]
    exec (.commitState fn) s = .next (r.2.replyOk p [BitVec.ofNat 32 ((r.1.headD 0).toNat % 4),
      BitVec.ofNat 32 ((r.1.headD 0).toNat / 2 ^ 16), r.1.getD 1 0])) ∧
  (∀ (fn : Fin 16) (p : Packet) (s u : State), Claims.Ready s fn 0x4007 p u →
    let r := u.dvReads p [0x050, 0x054, 0x058, 0x05C, 0x060, 0x064, 0x068]
    exec (.vaultStatus fn) s = .next (r.2.replyOk p (r.1 ++ [BitVec.ofNat 32 r.2.vault.len]))) ∧
  (∀ (fn : Fin 16) (p : Packet) (s u : State), Claims.Ready s fn 0x0001 p u → exec (.nop fn) s = .next (u.replyOk p [])) ∧
  (∀ (fn : Fin 16) (p : Packet) (s u : State), Claims.Ready s fn 0x0002 p u → ∃ l : List Word, exec (.identify fn) s = .next (u.replyOk p l) ∧
    l.length = 6 ∧ l.getD 0 0 = 0x9680 ∧ l.getD 3 0 = BitVec.ofNat 32 u.activePair ∧
    l.getD 4 0 = BitVec.ofNat 32 u.images.bootSlot ∧ l.getD 5 0 = BitVec.ofNat 32 fn) ∧
  (∀ (fn : Fin 16) (p : Packet) (s u : State), Claims.Ready s fn 0x0003 p u →
    exec (.modeGet fn) s = .next (u.replyOk p [BitVec.ofNat 32 u.modes.mode.code, if u.modes.target = none then 0 else 1])) ∧
  (∀ (fn : Fin 16) (p : Packet) (s u : State), Claims.Ready s fn 0x1001 p u → ∃ l : List Word,
    exec (.enumerate fn) s = .next (u.replyOk p l) ∧ l.length = 12 ∧ l.getD 0 0 = BitVec.ofNat 32 (instances p.cls).length ∧
    l.getD 1 0 = BitVec.ofNat 32 (b2n (classGroup p.cls)) ∧ ∀ i, i < 320 → (l.getD (2 + i / 32) 0).getLsbD (i % 32) =
      decide ((p.w 0).toNat / 32 * 32 + i < (instances p.cls).length)) ∧
  (∀ (fn : Fin 16) (p : Packet) (s u v : State) (st : BusStatus) (l : List (Byte × Bool)), Claims.Ready s fn 0x6001 p u →
    let n := if (p.w 2).toNat = 0 then 1 else min (p.w 2).toNat 12
    let a := ((p.w 0).toNat + 2 ^ 32 * ((p.w 1).toNat % 2 ^ 8)) / 4 * 4
    u.pairRead a (4 * n) = (st, l, v) →
    (st = .decodeError → exec (.memRead fn) s = .next (v.reply p .decodeError 0 [])) ∧
    (st = .targetError → exec (.memRead fn) s = .next (v.reply p .unitFault 0 [])) ∧
    (st = .fenced → exec (.memRead fn) s = .next (v.reply p .fenced (v.memInstance a) [])) ∧
    (st = .ok → ∃ (ws : List Word) (d : Nat), exec (.memRead fn) s = .next (v.reply p (if d = 0 then .ok else .poisoned) d ws) ∧
      ws.length = n ∧ d < 2 ^ n ∧ ∀ k, k < n →
        let b := (l.drop (4 * k)).take 4
        d.testBit k = b.any Prod.snd ∧
        ws.getD k 0 = if b.any Prod.snd then 0 else BitVec.ofNat 32 (leNat (b.map Prod.fst)))) ∧
  (∀ (fn : Fin 16) (p : Packet) (s u : State) (i : Nat), Claims.Ready s fn 0x9002 p u → u.readTarget p.cls p.sel 0x3C0 = some i →
    u.powered p.cls i = true → u.fencedUnit p.cls i = false →
    let ks := ((List.range 8).filter (fun k => (p.w 0).getLsbD k)).take 4
    ∃ count : Nat → Nat, (∀ k, cycleEvent p.cls ((u.reg p.cls i (0x380 + 4 * k)).toNat % 2 ^ 10) = false →
      count k = (u.reg p.cls i (0x3C0 + 8 * k)).toNat + 2 ^ 32 * ((u.reg p.cls i (0x3C4 + 8 * k)).toNat % 2 ^ 16)) ∧
    exec (.counterRead fn) s = .next (u.replyOk p (ks.flatMap (fun k => [BitVec.ofNat 32 (count k),
      BitVec.ofNat 32 (count k / 2 ^ 32 + 2 ^ 31 * ((u.reg p.cls i 0x3A4).toNat / 2 ^ k % 2)),
      loWord u.time.tcnt.toNat])))) ∧
  (∀ (fn : Fin 16) (p : Packet) (s u : State), Claims.Ready s fn 0x2003 p u → ∃ l : List Word,
    exec (.plan fn) s = .next (u.replyOk p l) ∧
    l.length = (if (p.w 0).toNat = 0 then 1 else min (p.w 0).toNat 12) ∧
    (p.cls = 0x28 → l = (u.planDraws l.length (fun _ => true)).map (fun x => BitVec.ofNat 32 (min 0xFFFFFFFF (x / 256))))) ∧
  (∀ (fn : Fin 16) (p : Packet) (s u : State), Claims.Ready s fn 0x9005 p u → ∃ (ws : List Word) (d : Nat) (v : State),
    exec (.journalRead fn) s = .next (v.reply p (if d = 0 then .ok else .poisoned) d ws) ∧ ws.length = 12 ∧
    ∀ k, k < 12 → d.testBit k = true → ws.getD k 0 = 0) ∧
  (∀ (fn : Fin 16) (p : Packet) (s u : State), Claims.Ready s fn 0x8005 p u → ∃ (ws : List Word) (v : State),
    exec (.imageStatus fn) s = .next (v.replyOk p ws) ∧ ws.length = 6 ∧ v.csr = u.csr ∧ v.mem = u.mem ∧ v.dvorys = u.dvorys)

end

section

open Sys2Proof Sys2Proof.Machine

/-- Each packet that passes its checks acts and is answered. DIAG_WINDOW sets both pairs' windows and returns the old setting; FN_GRANT and
EVENT_SUBSCRIBE store their masks; ABORT marks an abortable operation; COMMIT commits each member; MEM_WRITE stores its words;
VAULT_TRIGGER raises a trigger; the long-running rows enter the table of operations and begin: fences, calibration, export, copies,
evacuation, protocol switch, recalibration, images, the collector. Where they name no member they end at once.
Shown to complete with its own effect, under these hypotheses alone: modeSet, eventSubscribe, fnGrant, diagWindow, abort, commit, fenceUnit,
unfenceUnit, meterCalibrate, vaultTrigger, vaultExport, memWrite, regBlock, memCopy, imageVerify, imageFlashWrite, pageRetire,
channelEvacuate, quadProtocolSet, laneRecal, imageStage, imageActivate, collectStart. -/
def Obligations.ActingPacketsAct : Prop :=
  (∀ (fn : Fin 16) (p : Packet) (s u : State), Claims.Ready s fn 0x0004 p u →
    let m := Mode.ofCode ((p.w 0).toNat % 8)
    let v := (u.acceptOp p .modeSet p.params []).2
    ∃ t, exec (.modeSet fn) s = .next t ∧ t.fld Reg.SYS.MODE_RESULT_REQUESTER 0 = 1 ∧ t.modes.mode = u.modes.mode ∧
      (v.modeVerdict m true = none → t.fld Reg.SYS.MODE_RESULT_RESULT 0 = 2 ∧ (t.page fn).cqTail = (u.page fn).cqTail + 2) ∧
      (v.modeVerdict m true = some false → t.fld Reg.SYS.MODE_RESULT_RESULT 0 = 1 ∧ (t.page fn).cqTail = (u.page fn).cqTail + 2) ∧
      (v.modeVerdict m true = some true → t.fld Reg.SYS.MODE_RESULT_RESULT 0 = 3 ∧ t.modes.target = m ∧
        t.modes.opId = some u.nextOpId ∧ t.dvorys.ops = v.dvorys.ops)) ∧
  (∀ (fn : Fin 16) (p : Packet) (s u : State), Claims.Ready s fn 0x0005 p u → ∃ t, exec (.eventSubscribe fn) s = .next t ∧
    let f := t.fnState fn
    f.subSev = (p.w 0).toNat % 4 ∧ f.subOn = (p.w 0).getLsbD 8 ∧ f.subTag = p.tag ∧ t.csr = u.csr) ∧
  (∀ (fn : Fin 16) (p : Packet) (s u : State), Claims.Ready s fn 0x0006 p u →
    let n := (p.w 0).toNat
    ∃ t, exec (.fnGrant fn) s = .next t ∧
      (1 ≤ n → n ≤ 15 → (t.fnState n).groups = BitVec.ofNat 16 (p.w 1).toNat ∧ ∀ k, k < 8 → k + 2 < p.pw → p.params.length = p.pw →
        ∀ b, b < 32 → (t.fnState n).classes.getLsbD (32 * k + b) = (p.w (k + 2)).getLsbD b) ∧
      ∀ m, m ≠ n → t.fnState m = u.fnState m) ∧
  (∀ (fn : Fin 16) (p : Packet) (s u : State), Claims.Ready s fn 0x0007 p u → ∃ v : State, exec (.diagWindow fn) s =
      .next (v.replyOk p [BitVec.ofNat 32 (u.fld Reg.DVORYS.BAR0_CTL_OPEN 0)]) ∧
    ∀ k, k < 2 → v.fld Reg.DVORYS.BAR0_CTL_OPEN k = (p.w 0).toNat % 2) ∧
  (∀ (fn : Fin 16) (p : Packet) (s u : State), Claims.Ready s fn 0x0008 p u →
    ((∀ o ∈ u.dvorys.ops, o.opId.toNat ≠ (p.w 0).toNat) → exec (.abort fn) s = .next (u.replyOk p [0])) ∧
    ∀ o, u.dvorys.ops.find? (fun x => x.opId.toNat == (p.w 0).toNat) = some o →
      (o.kind.abortable = true → exec (.abort fn) s = .next ((u.setOp { o with aborting := true }).replyOk p [1])) ∧
      (o.kind.abortable = false → exec (.abort fn) s = .next (u.replyOk p [2]))) ∧
  (∀ (fn : Fin 16) (p : Packet) (s u : State), Claims.Ready s fn 0x1006 p u →
    ∃ t, exec (.commit fn) s = .next t ∧ ((p.w 0).toNat % 2 = 0 → p.sel < 0x200 →
      let c := if p.cls = 0x09 then 512 + p.sel else p.sel
      let v := u.commitWrite p.cls p.sel 1 []
      t = v.replyOk p [BitVec.ofNat 32 (v.getS c Reg.STRM_RX.COMMIT_STATE_COMMIT_NUM)])) ∧
  (∀ (fn : Fin 16) (p : Packet) (s u : State), Claims.Ready s fn 0x1008 p u → ∃ t, exec (.fenceUnit fn) s = .next t ∧
    ∀ i ∈ u.members p, (t.fenceOf p.cls i).isSome = true) ∧
  (∀ (fn : Fin 16) (p : Packet) (s u : State), Claims.Ready s fn 0x1009 p u → ∃ t, exec (.unfenceUnit fn) s = .next t ∧
    ((∀ i ∈ u.fencedMembers p, u.fenceOf p.cls i = none) → (t.page fn).cqTail = (u.page fn).cqTail + 2 ∧ t.fences = u.fences) ∧
    (∀ f, p.sel < 0x200 → u.fenceOf p.cls p.sel = some f → f.phase = .waiting →
      ∃ g, t.fenceOf p.cls p.sel = some g ∧ g.unfenceWaits = true)) ∧
  (∀ (fn : Fin 16) (p : Packet) (s u : State), Claims.Ready s fn 0x2005 p u → ∃ t, exec (.meterCalibrate fn) s = .next t ∧
    (∀ i : Fin 48, i.val ∈ u.members p → t.fld Reg.METER.STATUS_CALIBRATING i = 1) ∧
    (u.members p ≠ [] → t.dvorys.ops = (u.acceptOp p .meterCal (memberWords (u.members p)) []).2.dvorys.ops) ∧
    (u.members p = [] → (t.page fn).cqTail = (u.page fn).cqTail + 2)) ∧
  (∀ (fn : Fin 16) (p : Packet) (s u : State), Claims.Ready s fn 0x4003 p u →
    ∃ t, exec (.vaultTrigger fn) s = .next t ∧ (t.page fn).cqTail = (u.page fn).cqTail + 1 ∧
      (u.fld Reg.VAULT.TRIG_SRC_CMD_EN 0 = 0 → t.vault = u.vault)) ∧
  (∀ (fn : Fin 16) (p : Packet) (s u : State), Claims.Ready s fn 0x4004 p u →
    let r := (p.w 0).toNat % 16
    ∃ t, exec (.vaultExport fn) s = .next t ∧
      (u.rgnState r = 0 → (t.page fn).cqTail = (u.page fn).cqTail + 2) ∧
      (u.rgnState r ≠ 0 → t.fld Reg.VAULT.STATUS_EXPORTING 0 = 1 ∧ t.fld (Reg.VAULT.RGN_EXPORTING r) 0 = 1 ∧
        t.dvorys.ops = (u.acceptOp p .vaultExport p.params []).2.dvorys.ops)) ∧
  (∀ (fn : Fin 16) (p : Packet) (s u : State), Claims.Ready s fn 0x6002 p u →
    let a := ((p.w 0).toNat + 2 ^ 32 * ((p.w 1).toNat % 2 ^ 8)) / 4 * 4
    let l := wordsToBytes (p.params.drop 2)
    let reg (k : Nat) : Nat × Nat × Nat := ((a % 2 ^ 28 + 4 * k) / 2 ^ 20, (a % 2 ^ 28 + 4 * k) / 2 ^ 10 % 2 ^ 10, (a % 2 ^ 28 + 4 * k) % 2 ^ 10)
    ∃ t, exec (.memWrite fn) s = .next t ∧ ∀ v, a % 256 + l.length ≤ 256 → l ≠ [] → u.reqWrite 8 63 0 a (clean l) = (.ok, v) →
      let barred := u.region a = .csr ∧ ∃ k, k < p.pw - 2 ∧ u.modeTakes (reg k).1 (reg k).2.2 = false ∧
        u.writeTargets (reg k).1 (reg k).2.1 (reg k).2.2 ≠ []
      (barred → t = v.reply p .modeForbids v.modes.mode.code []) ∧ (¬ barred → t = v.replyOk p [])) ∧
  (∀ (fn : Fin 16) (c : Instr) (op : Nat) (k : LrKind) (p : Packet) (s u : State), Claims.Ready s fn op p u →
    (c, op, k) ∈ [(Instr.regBlock fn, 0x1005, LrKind.regBlock), (.memCopy fn, 0x6003, .memCopy), (.imageVerify fn, 0x8002, .imageVerify),
      (.imageFlashWrite fn, 0x8004, .flashWrite)] → exec c s = .next (u.acceptOp p k p.params []).2) ∧
  (∀ (fn : Fin 16) (p : Packet) (s u : State), Claims.Ready s fn 0x6005 p u →
    exec (.pageRetire fn) s = .next (u.acceptOp p .pageRetire (p.params ++ (u.members p).map (BitVec.ofNat 32)) []).2) ∧
  (∀ (fn : Fin 16) (p : Packet) (s u : State), Claims.Ready s fn 0x6006 p u →
    let v := (u.acceptOp p .evacuate ((u.members p).map (BitVec.ofNat 32)) []).2
    ∃ t, exec (.channelEvacuate fn) s = .next t ∧ (u.members p = [] → (t.page fn).cqTail = (u.page fn).cqTail + 2) ∧
      ∀ c l, u.members p = c :: l → t = v.startEvacuation c) ∧
  (∀ (fn : Fin 16) (p : Packet) (s u : State), Claims.Ready s fn 0x7001 p u → p.sel < 0x200 →
    let held := b2n (u.bit Reg.LANEQ.STATUS_SWITCHING p.sel)
    exec (.quadProtocolSet fn) s = .next ((u.acceptOp p .quadSwitch [BitVec.ofNat 32 (p.sel + 65536 * held)] []).2.csrWrite 8 p.cls p.sel
      0x000 (p.w 0))) ∧
  (∀ (fn : Fin 16) (p : Packet) (s u : State), Claims.Ready s fn 0x7003 p u → p.sel < 0x200 →
    exec (.laneRecal fn) s = .next ((u.acceptOp p .laneRecal [BitVec.ofNat 32 p.sel] []).2.csrWrite 8 p.cls p.sel 0x014 1)) ∧
  (∀ (fn : Fin 16) (p : Packet) (s u : State), Claims.Ready s fn 0x8001 p u → ∃ t, exec (.imageStage fn) s = .next t ∧
    t.images.stage = .staging ∧ t.images.type = (p.w 0).toNat ∧
    t.dvorys.ops = (u.acceptOp p .imageStage p.params []).2.dvorys.ops) ∧
  (∀ (fn : Fin 16) (p : Packet) (s u : State), Claims.Ready s fn 0x8003 p u → ∃ t, exec (.imageActivate fn) s = .next t ∧
    (p.cls = 0x70 → u.fld Reg.DVORYS.PAIR_STATUS_ROLE (1 - u.activePair) = 1 →
      t.fld Reg.DVORYS.PAIR_STATUS_ROLE (1 - u.activePair) = 3) ∧
    (p.cls = 0x70 → u.fld Reg.DVORYS.PAIR_STATUS_ROLE (1 - u.activePair) ≠ 1 → t = u.reply p .busy 1 []) ∧
    (p.cls ≠ 0x70 → (t.eng (unitIndex p.cls p.sel)).act = some u.nextOpId ∧
      (t.eng (unitIndex p.cls p.sel)).image = some (u.acceptOp p .imageActivate [] []).2.verifiedImage)) ∧
  (∀ (fn : Fin 16) (p : Packet) (s u : State), Claims.Ready s fn 0x9003 p u → ∃ t, exec (.collectStart fn) s = .next t ∧
    t.fld Reg.COLLECT.STATUS_RUNNING 0 = 1 ∧ t.dvorys.ops = (u.acceptOp p .collect p.params []).2.dvorys.ops ∧
    ∃ c, t.observe.collect = some c ∧ c.list = ((p.w 0).toNat + 2 ^ 32 * ((p.w 1).toNat % 2 ^ 8)) / 8 * 8 ∧
      c.count = max 1 ((p.w 1).toNat / 2 ^ 16) ∧ c.out = ((p.w 2).toNat + 2 ^ 32 * ((p.w 3).toNat % 2 ^ 8)) / 16 * 16 ∧
      c.period = (p.w 3).toNat / 2 ^ 16 ∧ c.since = 0 ∧ c.sweep = 0 ∧ c.written = 0 ∧ c.failed = false)

end

namespace Sys2Proof.Claims

open Sys2Proof.Machine

/-- An operation has left the table, and its event stands in the completion ring of its packet. -/
def Ended (o : LrOp) (s t : State) : Prop :=
  (∀ x ∈ t.dvorys.ops, x.opId ≠ o.opId) ∧ (o.mute = false → (t.page o.fn).cqTail = (s.page o.fn).cqTail + 1)

end Sys2Proof.Claims

section

open Sys2Proof Sys2Proof.Machine

/-- An operation that may end leaves the table and one event is written: REG_BLOCK and MEM_COPY when nothing is left or an access fails (REG_BLOCK
with MODE_FORBIDS where the mode in force ignored a write: R10, log entry 22),
fences when every unit has come to the end of its sequence or its fence may lift, calibration with its constants in place or as a meter fault,
an export with its region released from it, page retirement with its index, evacuation, the image operations with the staging area as they
leave it, the collector stopped. An operation being aborted ends with ABORTED; those that cannot be aborted go on. A mismatch takes the active
pair offline, the standby pair taking over where there is one; a reload that passes brings the pair back with the running
image's version, as a failed switch does the standby pair.
Shown to complete with its own effect, under these hypotheses alone: regBlockDone, memCopyDone, fenceUnitDone, unfenceUnitDone,
meterCalibrateDone, exportDone, pageRetireDone, evacuatePageMove, evacuated, imageStageDone, imageVerifyDone, dvorysSwitch,
imageFlashWriteDone, collectDone, lrSafePointStop, pairMismatch, pairReloadDone. -/
def Obligations.LongOperationsEnd : Prop :=
  (∀ (op : BitVec 16) (s : State) (o : LrOp), s.liveOp op .regBlock = some o →
    let n := (o.w 2).toNat % 2 ^ 16
    let a := ((o.w 0).toNat + 2 ^ 32 * ((o.w 1).toNat % 2 ^ 8)) / 8 * 8 + 8 * o.progress
    (n = 0 → exec (.regBlockDone op) s = .next (s.endOp o .ok 0 [BitVec.ofNat 32 o.progress])) ∧
    (∀ (l : List (Byte × Bool)) (u : State), n ≠ 0 → s.pairRead a 8 = (.ok, l, u) → l.any Prod.snd = true →
      exec (.regBlockDone op) s = .next (u.endOp o .poisoned 0 [BitVec.ofNat 32 o.progress])) ∧
    (∀ (l : List (Byte × Bool)) (u : State), n = 1 → s.pairRead a 8 = (.ok, l, u) → l.any Prod.snd = false →
      let ws := bytesToWords 2 (l.map Prod.fst)
      let off := (ws.headD 0).toNat % 2 ^ 10 / 4 * 4
      let barred := u.modeTakes o.cls off = false ∧ u.writeTargets o.cls o.sel off ≠ []
      let v := u.csrWrite 8 o.cls o.sel off (ws.getD 1 0)
      exec (.regBlockDone op) s = .next (v.endOp { o with progress := o.progress + 1 } (if barred then .modeForbids else .ok)
        (if barred then v.modes.mode.code else 0) [BitVec.ofNat 32 (o.progress + 1)])) ∧
    ∃ t, exec (.regBlockDone op) s = .next t) ∧
  (∀ (op : BitVec 16) (s : State) (o : LrOp), s.liveOp op .memCopy = some o → o.progress = 0 →
    let n := (o.w 4).toNat / 16 * 16
    let src := ((o.w 0).toNat + 2 ^ 32 * ((o.w 1).toNat % 2 ^ 8)) / 16 * 16
    let dst := ((o.w 2).toNat + 2 ^ 32 * ((o.w 3).toNat % 2 ^ 8)) / 16 * 16
    ∃ t, exec (.memCopyDone op) s = .next t ∧ (n = 0 → t = s.endOp o .ok 0 [0]) ∧
      (∀ (l : List (Byte × Bool)) (u v : State), 0 < n → n ≤ 4096 → s.pairRead src n = (.ok, l, u) →
        u.reqWrite 8 63 0 dst l = (.ok, v) → t = v.endOp { o with progress := n } .ok 0 [BitVec.ofNat 32 n])) ∧
  (∀ (op : BitVec 16) (s : State) (o : LrOp), s.findOp op .fenceUnit = some o →
    let done := ∀ i ∈ o.members 0, ∀ f, s.fenceOf o.cls i = some f → f.phase ≠ .waiting ∧ f.phase ≠ .draining ∧ f.phase ≠ .drained
    (done → exec (.fenceUnitDone op) s = .next (s.endOp o .ok 0 [])) ∧ (¬ done → exec (.fenceUnitDone op) s = .next s)) ∧
  (∀ (op : BitVec 16) (s : State) (o : LrOp) (i : Nat) (f : Fence), s.findOp op .unfenceUnit = some o → o.members 0 = [i] →
    s.fenceOf o.cls i = some f →
    (s.mayLift f = true → exec (.unfenceUnitDone op) s = .next ((s.liftFence o.cls i).endOp o .ok 0 [])) ∧
    (f.phase = .powering ∨ f.phase = .powerQueued → exec (.unfenceUnitDone op) s = .next s) ∧
    (f.phase = .done → f.faultMet = true → ∃ t, exec (.unfenceUnitDone op) s = .next t ∧ Claims.Ended o s t ∧
      (t.fenceOf o.cls i).isSome = true)) ∧
  (∀ (op : BitVec 16) (ok : Bool) (l : List (BitVec 16 × BitVec 16)) (s : State) (o : LrOp), s.findOp op .meterCal = some o →
    ∃ t, exec (.meterCalibrateDone op ok l) s = .next t ∧ Claims.Ended o s t ∧
      ∀ i : Fin 48, i.val ∈ o.members 0 → t.fld Reg.METER.STATUS_CALIBRATING i = 0 ∧
        (ok = false → t.fld Reg.METER.STATUS_FAULT i = 1) ∧
        (ok = true → o.members 0 = [i.val] → ∀ x, l = [x] → t.fld Reg.METER.STATUS_CAL_DONE i = 1 ∧
          t.fld Reg.METER.STATUS_FAULT i = 0 ∧ (t.meter i).newCal = some x)) ∧
  (∀ (op : BitVec 16) (s : State) (o : LrOp), s.liveOp op .vaultExport = some o →
    let r := exportRegion o
    let limit := (o.w 4).toNat % 2 ^ 26
    let ready := (s.rgnState r ≠ 1 ∨ 0 < limit ∧ limit ≤ o.progress + (s.exportLeft o).length) ∧
      ∀ x ∈ s.exportLeft o, x.2.2.written = true
    (¬ ready → exec (.exportDone op) s = .next s) ∧
    (ready → ∃ t, exec (.exportDone op) s = .next t ∧ Claims.Ended o s t ∧ t.fld Reg.VAULT.STATUS_EXPORTING 0 = 0 ∧
      t.fld (Reg.VAULT.RGN_EXPORTING r) 0 = 0)) ∧
  (∀ (op : BitVec 16) (s : State) (o : LrOp) (c : Nat), s.findOp op .pageRetire = some o → o.members 2 = [c] →
    let page := ((o.w 0).toNat + 2 ^ 32 * ((o.w 1).toNat % 2 ^ 8)) / 4096
    (∀ k u, s.retirePage c page = some (k, u) →
      exec (.pageRetireDone op) s = .next ((u.spallRetired c page).endOp o .ok 0 [BitVec.ofNat 32 k])) ∧
    (s.retirePage c page = none → exec (.pageRetireDone op) s = .next (s.endOp o .unitFault 0 [0xFFFFFFFF]))) ∧
  (∀ (op : BitVec 16) (s : State) (o : LrOp), s.liveOp op .evacuate = some o →
    (∃ t, exec (.evacuatePageMove op) s = .next t ∧
      (s.memSys.ilvOld.isSome = true → 4096 ≤ s.memSys.migPtr → t.memSys.migPtr = s.memSys.migPtr - 4096 ∧
        t.dvorys.ops.length = s.dvorys.ops.length) ∧
      (s.memSys.ilvOld = none ∨ s.memSys.migPtr < 4096 → t = s)) ∧
    (∃ t, exec (.evacuated op) s = .next t ∧
      (s.memSys.ilvOld.isSome = true → 4096 ≤ s.memSys.migPtr → t = s) ∧
      (∀ c : Fin 4, s.memSys.migPtr < 4096 ∨ s.memSys.ilvOld = none → o.members 0 = [c.val] → Claims.Ended o s t ∧
        t.fld Reg.BULK.STATUS_EVACUATED c = 1 ∧ t.fld Reg.BULK.STATUS_RETIRED c = 0 ∧ t.images.stage = .empty ∧
        t.memSys.ilvOld = none))) ∧
  (∀ (op : BitVec 16) (s : State) (o : LrOp), s.liveOp op .imageStage = some o →
    let src := (o.w 1).toNat % 4
    ∃ t, exec (.imageStageDone op) s = .next t ∧ Claims.Ended o s t ∧ (t.images.stage = .staged ∨ t.images.stage = .empty) ∧
      (t.images.stage = .staged → t.images.length = min (2 ^ 24) (o.w 4).toNat) ∧
      (src = 0 ∨ src = 3 → s.hostUp o.fn = false → t.images.stage = .empty)) ∧
  (∀ (op : BitVec 16) (s : State) (o : LrOp), s.findOp op .imageVerify = some o →
    let l := (s.bytesAt s.stagingArea s.images.length).1
    ∃ t, exec (.imageVerifyDone op) s = .next t ∧ Claims.Ended o s t ∧
      (s.images.stage = .staged ∨ s.images.stage = .verified →
        t.images.stage = if imageResult s.images.type l = 1 then .verified else .staged) ∧
      (s.images.stage = .empty ∨ s.images.stage = .staging → t = s.endOp o .imageRejected 4 [])) ∧
  (∀ (op : BitVec 16) (pass : Bool) (us : Word) (s : State) (o : LrOp), s.findOp op .imageActivate = some o → o.cls = 0x70 →
    let a := s.activePair
    let b := 1 - s.activePair
    ∃ t, exec (.dvorysSwitch op pass us) s = .next t ∧ Claims.Ended o s t ∧ (s.fld Reg.DVORYS.PAIR_STATUS_ROLE b = 3 →
      (pass = true → s.verifiedImage.1 = 0 → t.fld Reg.DVORYS.PAIR_STATUS_ROLE b = 2 ∧ t.fld Reg.DVORYS.PAIR_STATUS_ROLE a = 1) ∧
      (pass = false ∨ s.verifiedImage.1 ≠ 0 → t.fld Reg.DVORYS.PAIR_STATUS_ROLE b = 1 ∧
        t.fld Reg.DVORYS.PAIR_STATUS_ROLE a = s.fld Reg.DVORYS.PAIR_STATUS_ROLE a ∧
        t.fld Reg.DVORYS.PAIR_STATUS_VERSION b = s.fld Reg.DVORYS.PAIR_STATUS_VERSION a))) ∧
  (∀ (op : BitVec 16) (s : State) (o : LrOp), s.findOp op .flashWrite = some o →
    let k := (o.w 1).toNat % 2
    ∃ t, exec (.imageFlashWriteDone op) s = .next t ∧ Claims.Ended o s t ∧
      (s.images.stage = .empty ∨ s.images.stage = .staging → t.dvorys.spi = s.dvorys.spi) ∧
      (s.images.stage = .staged ∨ s.images.stage = .verified →
        t.spiSlot k = ((s.takeFree 32).2.bytesAt s.stagingArea s.images.length).1 ∧ t.spiSlot (1 - k) = s.spiSlot (1 - k) ∧
        t.images.bootSlot = if (o.w 1).getLsbD 1 then k else s.images.bootSlot)) ∧
  (∀ (op : BitVec 16) (s : State) (o : LrOp) (c : Collect), s.liveOp op .collect = some o → s.observe.collect = some c →
    (c.failed = true ∨ c.period = 0 ∧ 0 < c.sweep → ∃ t, exec (.collectDone op) s = .next t ∧ Claims.Ended o s t ∧
      t.observe.collect = none ∧ t.fld Reg.COLLECT.STATUS_RUNNING 0 = 0) ∧
    (c.failed = false → c.period ≠ 0 ∨ c.sweep = 0 → exec (.collectDone op) s = .next s)) ∧
  (∀ (op : BitVec 16) (units : Nat) (s : State) (o : LrOp), s.dvorys.ops.find? (fun x => x.opId == op && x.aborting) = some o →
    (o.kind.abortable = false → exec (.lrSafePointStop op units) s = .next s) ∧
    (o.kind = .imageStage → ∃ t, exec (.lrSafePointStop op units) s = .next t ∧ Claims.Ended o s t ∧ t.images.stage = .empty) ∧
    (o.kind = .collect → s.observe.collect.isSome = true → ∃ t, exec (.lrSafePointStop op units) s = .next t ∧ Claims.Ended o s t ∧
      t.observe.collect = none) ∧
    (o.kind = .vaultExport → ∃ t, exec (.lrSafePointStop op units) s = .next t ∧ Claims.Ended o s t ∧
      t.fld Reg.VAULT.STATUS_EXPORTING 0 = 0) ∧
    (o.kind = .evacuate → ∃ t, exec (.lrSafePointStop op units) s = .next t ∧ Claims.Ended o s t) ∧
    (o.kind = .memCopy → exec (.lrSafePointStop op 0) s = .next (s.endOp o .aborted (fractionDone o.progress (copyLength o))
      [BitVec.ofNat 32 o.progress])) ∧
    (o.kind = .regBlock → exec (.lrSafePointStop op 0) s = .next (s.endOp o .aborted (fractionDone o.progress (blockCount o))
      [BitVec.ofNat 32 o.progress]))) ∧
  (∀ (words : Nat) (m : BitVec 10) (s : State),
    let a := s.activePair
    let b := 1 - s.activePair
    s.fld Reg.DVORYS.PAIR_STATUS_ROLE a = 2 → ∃ t, exec (.pairMismatch false words m) s = .next t ∧
      t.fld Reg.DVORYS.PAIR_STATUS_ROLE a = 0 ∧
      t.fld Reg.DVORYS.MISMATCH_COUNT_COUNT a = min (2 ^ 32 - 1) (s.fld Reg.DVORYS.MISMATCH_COUNT_COUNT a + 1) ∧
      (s.fld Reg.DVORYS.PAIR_STATUS_ROLE b = 1 → t.fld Reg.DVORYS.PAIR_STATUS_ROLE b = 2 ∧
        (s.faults.held = false → (t.fenceOf 0x70 a).isSome = true)) ∧
      (s.fld Reg.DVORYS.PAIR_STATUS_ROLE b ≠ 1 → t.fld Reg.DVORYS.PAIR_STATUS_ROLE b = s.fld Reg.DVORYS.PAIR_STATUS_ROLE b)) ∧
  (∀ (s : State) (p : Fin 2), s.fld Reg.DVORYS.PAIR_STATUS_ROLE p = 0 → s.fld Reg.DVORYS.PAIR_STATUS_ROLE (1 - p.val) ≠ 0 →
    exec (.pairReloadDone false) s = .next s ∧
    (s.fld Reg.SYS.RAISE_STATUS_DVORYS_UP 0 = 1 → ∃ t, exec (.pairReloadDone true) s = .next t ∧
      t.fld Reg.DVORYS.PAIR_STATUS_ROLE p = (if s.fld Reg.DVORYS.PAIR_STATUS_ROLE (1 - p.val) = 2 then 1 else 2) ∧
      (s.fld Reg.DVORYS.PAIR_STATUS_ROLE (1 - p.val) = 2 →
        t.fld Reg.DVORYS.PAIR_STATUS_VERSION p = s.fld Reg.DVORYS.PAIR_STATUS_VERSION (1 - p.val)) ∧
      t.fenceOf 0x70 p = none))

end

section

open Sys2Proof Sys2Proof.Machine

/-- From Raising on, with the link up, a doorbell stores its index. Ring registers take writes while the ring is off, none in Banked. Disabling a ring starts to
quiesce it; when nothing is owed its indices are 0 and PHASE is 1. A function reset gives its page its reset values, silences its operations and
leaves other pages. The BAR0 window reads and writes CSRs when open, else only counts; a partial dword is counted. BAR2 answers through an
aperture, or counts the refusal. A pending, sendable vector's message is its data at its address. The host's answers are what later reads
find; an invalidation removes what it meets. The link goes up, down, and with PERST_N. Where no Mortar read of the address is out, an answer sets what
device reads find, else it ends that read with its response: that is the model's reading (log entry 35).
Shown to complete with its own effect, under these hypotheses alone: sqTailDoorbell, cqHeadDoorbell, bar4RingPageWrite, ringDisable,
quiesced, flr, irqCoalTimer, bar0Read, bar0Write, bar2Read, bar2Write, msixSend, pcieReadCompletion, cplTimeout, atsInvalidation,
pcieConfigWrite, pcieLinkUp, pcieLinkDown, perstNLow, perstNHigh. -/
def Obligations.TheHostActs : Prop :=
  (∀ (fn : Fin 16) (v : BitVec 12) (s : State), (∃ t, exec (.sqTailDoorbell fn v) s = .next t ∧
      (s.hostReach = false → t = s) ∧ (s.hostReach = true → (t.page fn).sqTail = v ∧ (t.page fn).sqHead = (s.page fn).sqHead ∧
        t.csr = s.csr ∧ ∀ f : Fin 16, f ≠ fn → t.page f = s.page f)) ∧
    (∃ t, exec (.cqHeadDoorbell fn v) s = .next t ∧
      (s.hostReach = false → t = s) ∧ (s.hostReach = true → (t.page fn).cqHead = v ∧ (t.page fn).cqTail = (s.page fn).cqTail ∧
        t.csr = s.csr ∧ ∀ f : Fin 16, f ≠ fn → t.page f = s.page f))) ∧
  (∀ (fn : Fin 16) (off : BitVec 16) (v : Word) (s : State),
    ∃ t, exec (.bar4RingPageWrite fn off v) s = .next t ∧
      (s.hostReach = false → t = s) ∧ (s.modes.mode = .banked → off.toNat < 0x028 → t = s) ∧
      (s.pageTakes = true → (s.page fn).enable = true → off.toNat < 0x010 → t = s) ∧
      (s.pageTakes = true → (s.page fn).enable = false →
        (off = 0x000 → (t.page fn).sqBase = BitVec.ofNat 64 (2 ^ 32 * ((s.page fn).sqBase.toNat / 2 ^ 32) + v.toNat)) ∧
        (off = 0x004 → (t.page fn).sqBase = BitVec.ofNat 64 ((s.page fn).sqBase.toNat % 2 ^ 32 + 2 ^ 32 * v.toNat)) ∧
        (off = 0x008 → (t.page fn).cqBase = BitVec.ofNat 64 (2 ^ 32 * ((s.page fn).cqBase.toNat / 2 ^ 32) + v.toNat)) ∧
        (off = 0x00C → (t.page fn).cqBase = BitVec.ofNat 64 ((s.page fn).cqBase.toNat % 2 ^ 32 + 2 ^ 32 * v.toNat)) ∧
        (off = 0x010 → (t.page fn).enable = v.getLsbD 0 ∧ (t.page fn).sqTreasury = v.getLsbD 1 ∧
          (t.page fn).cqTreasury = v.getLsbD 2)) ∧
      (s.pageTakes = true → off = 0x020 → (t.page fn).vector.toNat = v.toNat % 2 ^ 11 ∧ (t.page fn).irqEn = v.getLsbD 11)) ∧
  (∀ (fn : Fin 16) (s : State), ∃ t, exec (.ringDisable fn) s = .next t ∧
    (s.pageTakes = true → (s.page fn).enable = true → (t.page fn).enable = false ∧ (t.page fn).quiescing = true ∧
      (∀ o ∈ t.dvorys.ops, o.fn = fn.val → o.mute = false → o.kind.abortable = true → o.aborting = true) ∧
      t.dvorys.ops.length = s.dvorys.ops.length) ∧
    (s.pageTakes = false ∨ (s.page fn).enable = false → t = s)) ∧
  (∀ (fn : Fin 16) (s : State), ∃ t, exec (.quiesced fn) s = .next t ∧
    (s.fld Reg.PCIE_FN.STATUS_FLR_BUSY fn = 1 → t.fld Reg.PCIE_FN.STATUS_FLR_BUSY fn = 0) ∧
    (s.fld Reg.PCIE_FN.STATUS_FLR_BUSY fn = 0 → (s.page fn).quiescing = true → s.eventsOwed fn = 0 →
      let p := t.page fn
      p.quiescing = false ∧ p.sqHead = 0 ∧ p.cqTail = 0 ∧ p.sqTail = 0 ∧ p.cqHead = 0 ∧ p.phase = true ∧
        ((s.page fn).enable = false → p.quiesced = true)) ∧
    (s.fld Reg.PCIE_FN.STATUS_FLR_BUSY fn = 0 → (s.page fn).quiescing = false ∨ s.eventsOwed fn ≠ 0 → t = s)) ∧
  (∀ (fn : Fin 16) (s : State), ∃ t, exec (.flr fn) s = .next t ∧ (s.hostReach = false → t = s) ∧
    (s.hostReach = true → t.page fn = RingPage.reset ∧ t.fld Reg.PCIE_FN.STATUS_FLR_BUSY fn = 1 ∧
      t.fld Reg.PCIE_FN.STATUS_BME fn = 0 ∧ t.fld Reg.PCIE_FN.STATUS_MSIX_EN fn = 0 ∧ t.mem = s.mem ∧
      (∀ o ∈ t.dvorys.ops, o.fn = fn.val → o.mute = true) ∧ ∀ f : Fin 16, f ≠ fn → t.page f = s.page f)) ∧
  (∀ (fn : Fin 16) (s : State),
    let p := s.page fn
    let due := p.irqEn = true ∧ p.coalTime ≠ 0 ∧ 0 < p.unsignalled ∧ p.coalSince + 100 * p.coalTime.toNat ≤ s.devclk.toNat
    ∃ t, exec (.irqCoalTimer fn) s = .next t ∧ (¬ due → t = s) ∧
      (due → (t.page fn).unsignalled = 0 ∧ t.pcie = (s.raise fn p.vector.toNat).pcie)) ∧
  (∀ (off : BitVec 28) (v : Word) (be : BitVec 4) (s : State), s.hostReach = true →
    let a := off.toNat / 4 * 4
    let cls := a / 2 ^ 20
    let sel := a / 2 ^ 10 % 2 ^ 10
    let o := a % 2 ^ 10
    (s.fld Reg.DVORYS.BAR0_CTL_OPEN 0 = 1 →
      (∃ t, exec (.bar0Read off 1) s = .next t ∧ tget 0 t.returned 9 = (s.csrRead 9 cls sel o).1 ∧
        t.pcie.reply = ⟨0, clean (leBytes 4 (s.csrRead 9 cls sel o).1.toNat)⟩) ∧
      (be = 15 → exec (.bar0Write off [(v, be)]) s = .next (s.csrWrite 9 cls sel o v)) ∧
      (be ≠ 15 → exec (.bar0Write off [(v, be)]) s = .next (s.addFld Reg.PCIE.BAR0_PARTIAL_COUNT 0 1))) ∧
    (s.fld Reg.DVORYS.BAR0_CTL_OPEN 0 = 0 →
      (∃ t, exec (.bar0Read off 1) s = .next t ∧ tget 0 t.returned 9 = 0 ∧ t.dvorys = s.dvorys ∧
        t.fld Reg.DVORYS.BAR0_BLOCKED_COUNT 0 = min (2 ^ 32 - 1) (s.fld Reg.DVORYS.BAR0_BLOCKED_COUNT 0 + 1)) ∧
      (∃ t, exec (.bar0Write off [(v, be)]) s = .next t ∧
        t.fld Reg.DVORYS.BAR0_BLOCKED_COUNT 0 = min (2 ^ 32 - 1) (s.fld Reg.DVORYS.BAR0_BLOCKED_COUNT 0 + 1) ∧
        t.mem = s.mem ∧ t.disp = s.disp ∧ t.modes = s.modes))) ∧
  (∀ (off : BitVec 36) (n : Nat) (data : List Byte) (s : State), s.hostReach = true →
    ((s.bar2Check false off.toNat n).1 = 1 → ∃ t, exec (.bar2Read off n) s = .next t ∧ t.pcie.reply = ⟨1, []⟩ ∧
      t.fld Reg.PCIE.UR_SENT_COUNT 0 = (s.fld Reg.PCIE.UR_SENT_COUNT 0 + 1) % 2 ^ 32 ∧ t.mem = s.mem) ∧
    ((s.bar2Check false off.toNat n).1 = 0 → ∃ (t : State) (l : List (Byte × Bool)), exec (.bar2Read off n) s = .next t ∧
      t.pcie.reply = ⟨0, l⟩ ∧
      let a := (s.bar2Check false off.toNat n).2
      l.map Prod.fst = ((s.unitGet 0x68 0 (58 + a / 2 ^ 12 % 2) 0 a n).2.1.take (64 * (n / 64 + 2) - a % 64)).map Prod.fst) ∧
    ((s.bar2Check true off.toNat data.length).1 = 0 →
      let a := (s.bar2Check true off.toNat data.length).2
      exec (.bar2Write off data false) s = .next (s.busPut (58 + a / 2 ^ 12 % 2) 0 a (clean data)).2) ∧
    ((s.bar2Check true off.toNat data.length).1 = 2 → ∀ ep, ∃ t, exec (.bar2Write off data ep) s = .next t ∧ t.mem = s.mem ∧
      t.fld Reg.PCIE.CA_SENT_COUNT 0 = (s.fld Reg.PCIE.CA_SENT_COUNT 0 + 1) % 2 ^ 32)) ∧
  (∀ (k : Fin 2048) (s : State),
    let go := (s.vec k).pending = true ∧ s.vecSendable k = true
    ∃ t, exec (.msixSend k) s = .next t ∧ (¬ go → t = s) ∧
      (go → (t.vec k).pending = false ∧ t.host = mwrites s.host (s.vec k).addr.toNat (leBytes 4 (s.vec k).data.toNat) ∧
        ∀ j : Fin 2048, j ≠ k → t.vec j = s.vec j)) ∧
  (∀ (fn : Fin 16) (a : BitVec 64) (data : List Byte) (ep : Bool) (kind : Fin 3) (s : State),
    (s.hostRequest fn a.toNat = none → data ≠ [] → ∃ t, exec (.pcieReadCompletion fn a data ep) s = .next t ∧
      t.host = mwrites s.host a.toNat data ∧
      tget HostAnswer.data t.pcie.answers (a.toNat / 16) = (if ep then HostAnswer.poison else HostAnswer.data)) ∧
    (s.hostRequest fn a.toNat = none → ∃ t, exec (.cplTimeout fn a kind) s = .next t ∧ t.host = s.host ∧
      tget HostAnswer.data t.pcie.answers (a.toNat / 16) =
        (if kind = 0 then HostAnswer.silent else if kind = 1 then HostAnswer.ur else HostAnswer.ca)) ∧
    (∀ x, s.hostRequest fn a.toNat = some x →
      let u := { s with mortar := { s.mortar with hostWait := s.mortar.hostWait.erase x } }
      exec (.pcieReadCompletion fn a data false) s = .next (u.respond (x.dest / 4) x 0 (chunks 16 32 (data.map (fun b => (b, false))))) ∧
      ∃ t, exec (.cplTimeout fn a 0) s = .next t ∧ t.mortar = (u.respond (x.dest / 4) x 3 []).mortar ∧
        t.fld Reg.PCIE.CPL_TIMEOUT_COUNT 0 = (s.fld Reg.PCIE.CPL_TIMEOUT_COUNT 0 + 1) % 2 ^ 32)) ∧
  (∀ (page : BitVec 64) (n : Nat) (s : State), ∃ t, exec (.atsInvalidation page n) s = .next t ∧ t.csr = s.csr ∧
    ∀ e, e ∈ t.pcie.atc ↔ e ∈ s.pcie.atc ∧ ¬ (e.1 < page.toNat + n ∧ page.toNat < e.1 + e.2.1)) ∧
  (∀ (fn : Fin 16) (bme en : Bool) (tmo : BitVec 4) (ats : Bool) (s : State), s.hostReach = true →
    ∃ t, exec (.pcieConfigWrite fn bme en tmo ats) s = .next t ∧ t.fld Reg.PCIE_FN.STATUS_BME fn = b2n bme ∧
      t.fld Reg.PCIE_FN.STATUS_MSIX_EN fn = b2n en ∧ tget (0, false) t.pcie.devCtl2 fn = (tmo.toNat, ats)) ∧
  (∀ (speed : BitVec 3) (width : BitVec 5) (s : State), s.pcie.training = true → s.pcie.perstN = true → s.linkMode = true →
    ∃ t, exec (.pcieLinkUp speed width) s = .next t ∧ t.fld Reg.PCIE.STATUS_LINK_UP 0 = 1 ∧
      t.fld Reg.PCIE.STATUS_SPEED 0 = speed.toNat ∧ t.fld Reg.PCIE.STATUS_WIDTH 0 = width.toNat ∧ t.pcie.training = false ∧
      (s.modes.mode = .raising → t.fld Reg.SYS.RAISE_STATUS_PCIE_UP 0 = 1)) ∧
  (∀ s : State, s.fld Reg.PCIE.STATUS_LINK_UP 0 = 1 → s.pcie.perstN = true → ∃ t, exec .pcieLinkDown s = .next t ∧
    t.fld Reg.PCIE.STATUS_LINK_UP 0 = 0 ∧ t.pcie.training = true ∧ t.mem = s.mem ∧
    t.fld Reg.PCIE.LINK_DOWNS_COUNT 0 = (s.fld Reg.PCIE.LINK_DOWNS_COUNT 0 + 1) % 2 ^ 32) ∧
  (∀ s : State, s.pcie.perstN = true → s.linkMode = true → ∃ t, exec .perstNLow s = .next t ∧ t.pcie.perstN = false ∧
    t.fld Reg.PCIE.STATUS_LINK_UP 0 = 0 ∧ t.fld Reg.PWR.STATUS_STATE 61 = 0 ∧ t.mem = s.mem ∧
    ∀ fn : Fin 16, t.page fn = RingPage.reset ∧ t.fld Reg.PCIE_FN.STATUS_BME fn = 0) ∧
  (∀ s : State, s.pcie.perstN = false → s.linkMode = true → ∃ t, exec .perstNHigh s = .next t ∧ t.pcie.perstN = true ∧
    t.pcie.training = true ∧ t.fld Reg.PWR.STATUS_STATE 61 = 3)

end

section

open Sys2Proof Sys2Proof.Machine

/-- A transition that is ready takes CODE to its target and ends; a fence that waited makes it Mending, or abandons a Banked under way. Entry
into Banked waits for its parts, stream channels stopped at their slot starts and the Vault done with its leaves among them, then takes the domains
to retention. Every reset source leads to Footing with its bit in RESET_CAUSE and
DEVCLK kept; a rise of RESET_N, or Footing's own end, not before 10 µs, samples BOOT_MODE and reads the fuses. Bedding ends in Raising at the reset state with
BOOT_MODE shown, or stays there when BIST fails in the core. The boot ROM records each source's result and starts Dvorys from the first
verified, else waits for the host. Each step of Raising sets its bit once, and does its work. A step that is not due does nothing.
Shown to complete with its own effect, under these hypotheses alone: modeTransitionDone, bankedWfiTimeout, bankedEntry, resetNLow,
thermalReset, droopReset, vddIo18Low, resetNRise, internalFootingEnd, beddingDone, bootImageCheck, bulkTrained, bulkFilled, avsCal,
metersCal. -/
def Obligations.ModesAndBringUp : Prop :=
  (∀ s : State,
    (s.modes.target = none → exec .modeTransitionDone s = .next s) ∧
    (∀ m, s.modes.target = some m → s.transitionReady m = false → exec .modeTransitionDone s = .next s) ∧
    (∀ m, s.modes.target = some m → s.transitionReady m = true → ∃ t, exec .modeTransitionDone s = .next t ∧ t.modes.target = none ∧
      (m = .banked → ∀ c, s.modes.mendingCause = some c → t.modes.mode = .mending ∧ t.modes.returnMode = s.modes.mode) ∧
      (m = .banked → s.modes.mendingCause = none → t.modes.mode = .banked) ∧
      (m ≠ .banked → s.mendingAfter = none → t.modes.mode = m) ∧
      (m ≠ .banked → ∀ c, s.mendingAfter = some c → t.modes.mode = .mending ∧ t.modes.returnMode = m ∧ t.modes.cause = c) ∧
      (m ≠ .banked ∨ s.modes.mendingCause = none → s.fld Reg.SYS.MODE_RESULT_RESULT 0 = 3 →
        t.fld Reg.SYS.MODE_RESULT_RESULT 0 = 1) ∧
      (m = .banked → s.modes.mendingCause.isSome = true → s.fld Reg.SYS.MODE_RESULT_RESULT 0 = 3 →
        t.fld Reg.SYS.MODE_RESULT_RESULT 0 = 2))) ∧
  (∀ s : State,
    let due := s.modes.target = some .banked ∧ s.workDone = true ∧ ∃ k, k < 8 ∧ s.keepAwake k = true
    ∃ t, exec .bankedWfiTimeout s = .next t ∧ (due → t.modes.bankedGated = true ∧ t.csr = s.csr) ∧ (¬ due → t = s)) ∧
  (∀ s : State,
    let ready := s.modes.target = some .banked ∧ s.domState 44 ≠ 5 ∧ s.workDone = true ∧
      (s.modes.bankedGated = true ∨ ∀ k, k < 8 → s.keepAwake k = false) ∧ (∀ c, c < 128 → s.dmaBusy c = false) ∧
      s.channelsStopped = true ∧ s.vaultStopped = true
    (¬ ready → exec .bankedEntry s = .next s) ∧
    (ready → (∀ e ∈ s.streams.ch, s.chRuns e.1 = true → e.2.waiting = true ∧ e.2.bySlot = true) ∧
      ∃ t, exec .bankedEntry s = .next t ∧ t.mem = s.mem ∧ t.modes = s.modes ∧
      (∀ d, d < 78 → t.domState d = if retained d = true ∧ (s.domState d = 3 ∨ s.domState d = 4) then 5 else s.domState d) ∧
      t.vault.forming = [] ∧ t.vault.formed = [] ∧ t.vault.staged = [] ∧
      ∀ l : Fin 48, t.fld Reg.LANE.STATUS_CDR_LOCK l = 0)) ∧
  (∀ s : State,
    (∃ t, exec .resetNLow s = .next t ∧ (s.power.resetN = false → t = s) ∧ (s.power.resetN = true → t.modes.mode = .footing ∧
      t.power.resetN = false ∧ t.devclk = s.devclk ∧ t.reg 0x02 0 0x00C = s.reg 0x02 0 0x00C ||| 2)) ∧
    (∃ t, exec .thermalReset s = .next t ∧ t.modes.mode = .footing ∧ t.power.hot = true ∧ t.devclk = s.devclk ∧
      t.reg 0x02 0 0x00C = s.reg 0x02 0 0x00C ||| 8) ∧
    (∃ t, exec .droopReset s = .next t ∧ t.modes.mode = .footing ∧ t.devclk = s.devclk ∧
      t.reg 0x02 0 0x00C = s.reg 0x02 0 0x00C ||| 16) ∧
    (∃ t, exec .vddIo18Low s = .next t ∧ t.modes.mode = .footing ∧ t.power.ioLow = true ∧ t.devclk = s.devclk ∧
      t.reg 0x02 0 0x00C = s.reg 0x02 0 0x00C)) ∧
  (∀ (pins : BitVec 3) (s : State),
    (∃ t, exec (.resetNRise pins) s = .next t ∧ (s.power.resetN = true → t = s) ∧ (s.power.resetN = false →
      t.power.resetN = true ∧ t.power.ioLow = false ∧ t.modes = s.modes ∧
      (s.modes.mode = .footing → s.power.hot = false → t.power.bootPins = pins ∧ t.power.fusing = true))) ∧
    (let due := s.modes.mode = .footing ∧ s.power.resetN = true ∧ s.power.ioLow = false ∧ s.power.fusing = false ∧
       s.power.footAt + 1000 ≤ s.devclk.toNat
     ∃ t, exec (.internalFootingEnd pins) s = .next t ∧ (¬ due → t = s) ∧
       (due → t.power.hot = false ∧ t.power.bootPins = pins ∧ t.power.fusing = true))) ∧
  (∀ (found : BistFound) (coreFail : Bool) (s : State),
    let bist := 4 ≤ s.power.bootPins.toNat
    (s.modes.mode ≠ .bedding → exec (.beddingDone found coreFail) s = .next s) ∧
    (s.modes.mode = .bedding → s.fld Reg.SYS.BOOT_STATUS_BIST_FAIL 0 = 0 →
      ∃ t, exec (.beddingDone found coreFail) s = .next t ∧ t.devclk = s.devclk ∧ t.host = s.host ∧
        (bist → coreFail = true → t.modes.mode = .bedding ∧ t.fld Reg.SYS.BOOT_STATUS_BIST_FAIL 0 = 1) ∧
        (¬ bist ∨ coreFail = false → t.modes.mode = .raising ∧ t.mem = State.reset.mem ∧
          t.fld Reg.SYS.BOOT_STATUS_BOOT_MODE 0 = s.power.bootPins.toNat % 4 ∧ t.reg 0x02 0 0x00C = s.reg 0x02 0 0x00C ∧
          t.fld Reg.SYS.BOOT_STATUS_BIST_FAIL 0 = if bist ∧ found.failed ≠ [] then 1 else 0))) ∧
  (∀ (src : Fin 3) (s : State), s.booting = true → s.fld Reg.SYS.BOOT_STATUS_WAITING_HOST 0 = 0 →
    ∃ t, exec (.bootImageCheck src) s = .next t ∧
      (s.bootSources = [] → src = 2 → t.fld Reg.SYS.BOOT_STATUS_WAITING_HOST 0 = 1) ∧
      (∀ k l, s.bootSources = k :: l → (k ≠ src.val → t = s) ∧ (k = src.val →
        let r := imageResult 0 (s.spiSlot k)
        t.fld (if k = 0 then Reg.SYS.BOOT_STATUS_SLOT_A_RESULT else Reg.SYS.BOOT_STATUS_SLOT_B_RESULT) 0 = r ∧
        (r = 1 → t.fld Reg.SYS.RAISE_STATUS_DVORYS_UP 0 = 1 ∧ t.fld Reg.DVORYS.PAIR_STATUS_ROLE 0 = 2 ∧
          t.fld Reg.DVORYS.PAIR_STATUS_ROLE 1 = 1) ∧
        (r ≠ 1 → t.fld Reg.SYS.RAISE_STATUS_DVORYS_UP 0 = s.fld Reg.SYS.RAISE_STATUS_DVORYS_UP 0)))) ∧
  (∀ (found : List (Bool × Bool × BitVec 3 × Nat)) (s : State),
    (s.raiseDue Reg.SYS.RAISE_STATUS_BULK_TRAINED true = false → exec (.bulkTrained found) s = .next s) ∧
    (s.raiseDue Reg.SYS.RAISE_STATUS_BULK_TRAINED true = true → ∃ t, exec (.bulkTrained found) s = .next t ∧
      t.fld Reg.SYS.RAISE_STATUS_BULK_TRAINED 0 = 1 ∧ t.fld Reg.CLK.STATUS_BULK_LOCK 0 = 1 ∧ t.mem = s.mem ∧
      ∀ c : Fin 4, (found.getD c (false, false, 0, 0)).1 = true → t.fld Reg.BULK.STATUS_TRAINED c = 1 ∧
        t.fld Reg.BULK.STATUS_RANKS c = (found.getD c (false, false, 0, 0)).2.2.1.toNat)) ∧
  (∀ s : State, s.raiseDue Reg.SYS.RAISE_STATUS_BULK_FILLED true = true → s.fld Reg.SYS.RAISE_STATUS_BULK_TRAINED 0 = 1 →
    ∃ t, exec .bulkFilled s = .next t ∧ t.fld Reg.SYS.RAISE_STATUS_BULK_FILLED 0 = 1 ∧
      ∀ c : Fin 4, s.fld Reg.BULK.STATUS_TRAINED c = 1 → t.fld Reg.BULK.STATUS_FILLED c = 1 ∧
        ∀ a, a < 2 ^ 37 → mread t.mem (2 ^ 40 + 2 ^ 37 * c.val + a) = 0) ∧
  (∀ s : State, (s.raiseDue Reg.SYS.RAISE_STATUS_AVS_CAL false = true → ∃ t, exec .avsCal s = .next t ∧
      t.fld Reg.SYS.RAISE_STATUS_AVS_CAL 0 = 1 ∧ t.mem = s.mem) ∧
    (s.raiseDue Reg.SYS.RAISE_STATUS_AVS_CAL false = false → exec .avsCal s = .next s)) ∧
  (∀ (l : List (BitVec 16 × BitVec 16)) (s : State), s.raiseDue Reg.SYS.RAISE_STATUS_METERS_CAL true = true →
    ∃ t, exec (.metersCal l) s = .next t ∧ t.fld Reg.SYS.RAISE_STATUS_METERS_CAL 0 = 1 ∧
      ∀ p : Fin 48, t.fld Reg.METER.STATUS_CAL_DONE p = 1 ∧ (p.val < l.length →
        t.fld Reg.METER.CAL_GAIN_GAIN p = (l.getD p (0, 0)).1.toNat ∧
        t.fld Reg.METER.CAL_OFFSET_OFFSET p = (l.getD p (0, 0)).2.toNat) ∧
      (l.length ≤ p.val → t.fld Reg.METER.CAL_GAIN_GAIN p = s.fld Reg.METER.CAL_GAIN_GAIN p))

end

section

open Sys2Proof Sys2Proof.Machine

/-- A core still not at TAKE wait 2 µs after its HANG, or an engine not back from its reset, is counted as a fault and, unless the manager is held,
fenced; so is one whose own entry has a parity fault. Another parity fault is counted under code 12 and
handled by its entry: the slot entry is taken back, an access reads zero, a journal entry is discarded, a prefetch line forgotten, a
keystone takes RELOAD with FAIL, a packet with its data is discarded, samples on the way to Witness become poison. After the allowance of
50 µs a waiting Course goes on. A disagreement is counted and holds
the manager; the mode stays. A drained domain goes off; one domain at a time ramps, is refilled with zero and comes up, or goes down again
where a fault met it. AVS holds VOUT within 550 to 750 mV; an alarm is counted and its domain skips until the regulator settles. The
loss of REF and its return show in REF_PRESENT.
Shown to complete with its own effect, under these hypotheses alone: coreFault, engineFault, unitParity, courseFenceAllowance,
faultStateDisagreement, poweredOff, powerUpGrant, poweredUp, avsUpdate, avsAlarm, avsSettled, refMissing, rootRefRestored. -/
def Obligations.FaultsAndPower : Prop :=
  (∀ (core : Fin 192) (s : State),
    let due := s.running 0x11 core = true ∧ (s.core core).ending = some (.exc 0x08) ∧
      ∀ r ∈ s.faults.recoveries, r.code = 2 → r.cls = 0x11 → r.inst = core.val → r.since + 200 ≤ s.devclk.toNat
    ∃ t, exec (.coreFault core) s = .next t ∧ (¬ due → t = s) ∧ (due →
      t.fld (Reg.SYS.FAULT_COUNT_COUNT 3) 0 = (s.fld (Reg.SYS.FAULT_COUNT_COUNT 3) 0 + 1) % 2 ^ 32 ∧
      (s.faults.held = false → (t.fenceOf 0x10 (core.val / 8)).isSome = true) ∧ (s.faults.held = true → t.fences = s.fences))) ∧
  (∀ (e : Fin 40) (s : State),
    let u := unitOf (192 + e.val)
    (s.eng (192 + e.val)).hung.isSome = true → s.running u.1 u.2 = true → ∃ t, exec (.engineFault e) s = .next t ∧
      t.fld (Reg.SYS.FAULT_COUNT_COUNT 4) 0 = (s.fld (Reg.SYS.FAULT_COUNT_COUNT 4) 0 + 1) % 2 ^ 32 ∧
      (s.faults.held = false → (t.fenceOf u.1 u.2).isSome = true)) ∧
  (∀ (i : Nat) (again : Bool) (s : State),
    let counted (t : State) : Prop := t.fld (Reg.SYS.FAULT_COUNT_COUNT 12) 0 = (s.fld (Reg.SYS.FAULT_COUNT_COUNT 12) 0 + 1) % 2 ^ 32
    (i < 232 → ∃ t, exec (.unitParity 0 i again) s = .next t ∧ counted t ∧ ∀ j l, s.slot i = j :: l → j ∉ t.slot i) ∧
    (i ≠ 8 → i < 14 → ∃ t, exec (.unitParity 1 i again) s = .next t ∧ counted t ∧ tget 0 t.returned i = 0) ∧
    (i ≠ 0 → i ≠ 0x28 → ∃ t, exec (.unitParity 2 i again) s = .next t ∧ counted t ∧
      tget [] t.journal.fifo i = (tget [] s.journal.fifo i).tail) ∧
    (i < 128 → ∃ t, exec (.unitParity 3 i again) s = .next t ∧ counted t ∧ t.dmaFetched (i / 32) (s.dmaPc i) = none ∧
      tget [] t.dma.errs (i / 32) = tget [] s.dma.errs (i / 32) ++
        (if again then [⟨i, 2, s.dmaPc i / 64 * 64, BusStatus.targetError.code⟩] else [])) ∧
    (∃ t, exec (.unitParity 4 i again) s = .next t ∧ counted t ∧ t.mem = s.mem) ∧
    (i < 8192 → ∃ t, exec (.unitParity 5 i again) s = .next t ∧ counted t ∧ (t.key i).count = (s.key i).reload ∧
      (t.key i).fail = true ∧ (t.key i).reload = (s.key i).reload) ∧
    (i < 232 → s.unitOn i = false → exec (.unitParity 6 i again) s = .next s) ∧
    (i < 232 → s.unitOn i = true → ∃ t, exec (.unitParity 6 i again) s = .next t ∧
      let k := if i < 192 then 3 else 4
      t.fld (Reg.SYS.FAULT_COUNT_COUNT k) 0 = (s.fld (Reg.SYS.FAULT_COUNT_COUNT k) 0 + 1) % 2 ^ 32 ∧
      (s.faults.held = false → (t.fenceOf (if i < 192 then 0x10 else (unitOf i).1)
        (if i < 192 then i / 8 else (unitOf i).2)).isSome = true)) ∧
    (∀ f, s.ejectedAt i (fun f => f.plane == 0) = some f → ∃ t, exec (.unitParity 7 i again) s = .next t ∧ counted t ∧
      t.mortar.flits = ((s.takeFlit f).dropData f).mortar.flits) ∧
    (i < 512 → ∃ t, exec (.unitParity 8 i again) s = .next t ∧ t.vault.upset = s.vault.upset ++ [i] ∧ t.csr = s.csr ∧
      t.mem = s.mem)) ∧
  (∀ (n : Fin 24) (s : State), ∃ t, exec (.courseFenceAllowance n) s = .next t ∧
    (s.fenceOf 0x10 n = none → t = s) ∧
    (∀ f, s.fenceOf 0x10 n = some f → (f.phase ≠ .waiting ∨ s.devclk.toNat < f.since + 5000 → t = s) ∧
      (f.phase = .waiting → f.since + 5000 ≤ s.devclk.toNat → ∃ g, t.fenceOf 0x10 n = some g ∧ (g.phase = .draining ∨ g.phase = .drained)))) ∧
  (∀ s : State, ∃ t, exec .faultStateDisagreement s = .next t ∧ t.faults.held = true ∧ t.modes = s.modes ∧ t.mem = s.mem ∧
    t.fences = s.fences ∧ t.fld (Reg.SYS.FAULT_COUNT_COUNT 13) 0 = (s.fld (Reg.SYS.FAULT_COUNT_COUNT 13) 0 + 1) % 2 ^ 32 ∧
    t.fld Reg.SYS.FAULT_LAST_CODE 0 = 13) ∧
  (∀ (d : Fin 78) (s : State),
    let l := s.fencesIn d
    let due := s.domState d = 6 ∧ l ≠ [] ∧ ∀ f ∈ l, f.phase = .drained
    ∃ t, exec (.poweredOff d) s = .next t ∧ (¬ due → t = s) ∧
      (due → t.domState d = 0 ∧ (∀ f ∈ t.fencesIn d, f.phase = .done ∨ f.phase = .powerQueued) ∧
        ((∃ f ∈ l, f.unfenceWaits = true) → d.val ∈ t.power.waitingUp))) ∧
  (∀ (pass : Bool) (s : State) (d : Nat), s.power.ramping = none → rrPick 78 s.power.lastDomain s.power.waitingUp.contains = some d →
    ∃ t, exec (.powerUpGrant pass) s = .next t ∧ t.power.ramping = some d ∧ t.domState d = 1 ∧
      t.fld Reg.PWR.STATUS_AVS_OK d = b2n pass ∧ t.power.waitingUp = s.power.waitingUp.erase d) ∧
  (∀ (pass : Bool) (s : State), s.power.ramping ≠ none → exec (.powerUpGrant pass) s = .next s) ∧
  (∀ (d : Fin 78) (s : State), s.power.ramping = some d.val → s.fld Reg.PWR.STATUS_AVS_OK d = 1 →
    let met := ∃ f ∈ s.fencesIn d, f.faultMet = true ∧ f.phase = .powering
    ∃ t, exec (.poweredUp d) s = .next t ∧ t.power.ramping = none ∧
      t.fld Reg.PWR.STATUS_CYCLES d = (s.fld Reg.PWR.STATUS_CYCLES d + 1) % 2 ^ 16 ∧
      (¬ met → t.domState d = 3) ∧ (met → t.domState d = 6) ∧
      (4 ≤ d.val → d.val < 28 → t.fld Reg.COURSE.CTL_CORE_EN (d.val - 4) = 0 ∧
        ∀ a, a < 0x400000 → mread t.mem (0x40000000 + (d.val - 4) * 0x400000 + a) = 0)) ∧
  (∀ (mv : Nat) (s : State), ∃ t, exec (.avsUpdate mv) s = .next t ∧
    550 ≤ t.fld Reg.CLK.AVS_STATUS_VOUT_MV 0 ∧ t.fld Reg.CLK.AVS_STATUS_VOUT_MV 0 ≤ 750 ∧
    t.fld Reg.CLK.AVS_STATUS_VOUT_MV 0 % 5 = 0 ∧
    (s.fld Reg.CLK.AVS_CTL_EN 0 = 0 → t.fld Reg.CLK.AVS_STATUS_VOUT_MV 0 = 750) ∧
    ∀ d : Fin 78, s.domState d = 3 → d.val ∉ s.power.skips → t.fld Reg.PWR.STATUS_AVS_OK d = 1) ∧
  (∀ (d : Fin 78) (s : State),
    (s.domState d = 3 → ∃ t, exec (.avsAlarm d) s = .next t ∧ t.fld Reg.PWR.STATUS_AVS_OK d = 0 ∧ d.val ∈ t.power.skips ∧
      t.fld Reg.CLK.AVS_STATUS_ALARMS 0 = (s.fld Reg.CLK.AVS_STATUS_ALARMS 0 + 1) % 2 ^ 16) ∧
    (s.domState d ≠ 3 → exec (.avsAlarm d) s = .next s) ∧
    (d.val ∈ s.power.skips ∨ s.power.ramping = some d.val → ∃ t, exec (.avsSettled d) s = .next t ∧
      t.fld Reg.PWR.STATUS_AVS_OK d = 1 ∧ t.power.skips = s.power.skips.erase d.val)) ∧
  (∀ s : State, (s.power.refGone = false → ∃ t, exec .refMissing s = .next t ∧ t.power.refGone = true ∧
      t.fld Reg.CLK.STATUS_REF_PRESENT 0 = 0 ∧ t.devclk = s.devclk) ∧
    (s.power.refGone = true → ∃ t, exec .rootRefRestored s = .next t ∧ t.power.refGone = false ∧
      t.fld Reg.CLK.STATUS_REF_PRESENT 0 = 1 ∧ t.devclk = s.devclk))

end

section

open Sys2Proof Sys2Proof.Machine

/-- A sweep that is due (the first at once, each PERIOD µs after it: log entry 75), of a collector that is not failed nor being aborted, is counted, and writes a cross-stamp and one record for each counter
of the list, unless a write fails; a late one is counted. The oldest sample record of a running Course leaves its buffer: into slot WR
modulo the ring's size, WR moving on, or lost when the ring is full or the write fails. The oldest trace packet leaves the FIFO; after 4,096
words a SYNC stands in front, and a LOST packet with the count of packets dropped joins as soon as it fits. Where nothing is due, nothing happens.
Shown to complete with its own effect, under these hypotheses alone: collectSweep, sampleRingWrite, tracePacketSend. -/
def Obligations.CollectorSamplesAndTrace : Prop :=
  (∀ (late : Bool) (s : State) (c : Collect), s.observe.collect = some c →
    let due := c.sweep = 0 ∨ c.sweep * c.period * 24576 ≤ 100 * (s.time.tcnt.toNat - c.since)
    let stops := c.failed = true ∨ ¬ due ∨ c.period = 0 ∧ 0 < c.sweep ∨ ∃ o ∈ s.dvorys.ops, o.kind = .collect ∧ o.aborting = true
    (stops → exec (.collectSweep late) s = .next s) ∧
    (¬ stops → ∃ (t : State) (d : Collect), exec (.collectSweep late) s = .next t ∧ t.observe.collect = some d ∧
      d.sweep = c.sweep + 1 ∧ d.list = c.list ∧ d.count = c.count ∧ d.out = c.out ∧ d.period = c.period ∧
      d.since = (if c.sweep = 0 then s.time.tcnt.toNat else c.since) ∧
      (late = false → d.failed = false → d.written = c.written + 1 + ((sweepReads (s.collectList c).1).take (8 * c.count)).length) ∧
      (late = true → 0 < c.sweep → t.fld Reg.COLLECT.LATE_SWEEPS_COUNT 0 = (s.fld Reg.COLLECT.LATE_SWEEPS_COUNT 0 + 1) % 2 ^ 32))) ∧
  (∀ (late : Bool) (s : State), s.observe.collect = none → exec (.collectSweep late) s = .next s) ∧
  (∀ (n : Fin 24) (s : State) (r : List Word) (rest : List (List Word)), tget [] s.observe.sampBuf n = r :: rest →
    let b : State := { s with observe := { s.observe with sampBuf := tset [] s.observe.sampBuf n rest } }
    let g := s.sampGeo n
    let wr := s.fld Reg.COURSE.SAMP_WR_WR n
    let full := (wr + 2 ^ 21 - s.fld Reg.COURSE.SAMP_RD_RD n) % 2 ^ 21 = g.2
    (s.running 0x10 n = false → exec (.sampleRingWrite n) s = .next s) ∧
    (s.running 0x10 n = true → ∃ t, exec (.sampleRingWrite n) s = .next t ∧ tget [] t.observe.sampBuf n = rest ∧
      (full → t = b.sampleLost n) ∧
      (∀ u, ¬ full → b.busPut n 0 (g.1 + 32 * (wr % g.2)) (clean (wordsToBytes r)) = (.ok, u) →
        t.fld Reg.COURSE.SAMP_WR_WR n = (wr + 1) % 2 ^ 21 ∧ t.mem = u.mem ∧
        ((wr + 1) % g.2 = 0 → t.sampGeo n = t.sampGeoReg n)) ∧
      (∀ st u, ¬ full → b.busPut n 0 (g.1 + 32 * (wr % g.2)) (clean (wordsToBytes r)) = (st, u) → st ≠ .ok →
        t = u.sampleLost n))) ∧
  (∀ (s : State) (p : List Nat) (rest : List (List Nat)), s.observe.fifo = p :: rest →
    (s.fld Reg.TRACE.CTL_EN 0 = 0 → exec .tracePacketSend s = .next s) ∧
    (s.fld Reg.TRACE.CTL_EN 0 = 1 → ∃ t, exec .tracePacketSend s = .next t ∧ t.observe.sent = p ∧
      let sync := 4096 ≤ s.observe.sinceSync + p.length
      let left := if sync then ((15 + 8 * 16) :: halves [loWord s.time.tcnt.toNat, hiWord s.time.tcnt.toNat, loWord s.devclk.toNat,
        hiWord s.devclk.toNat]) :: rest else rest
      let n := s.observe.lost
      t.observe.sinceSync = (if sync then 0 else s.observe.sinceSync + p.length) ∧
      (n = 0 ∨ 2045 < (left.map List.length).sum → t.observe.fifo = left ∧ t.observe.lost = n) ∧
      (0 < n → (left.map List.length).sum ≤ 2045 → t.observe.lost = 0 ∧
        t.observe.fifo = left ++ [[5 + 2 * 16, n % 2 ^ 16, n / 2 ^ 16 % 2 ^ 16]])))

end
end

