-- ==== Sys2Proof/Laws/Table.lean ====
section
/-! SUPPORT. Laws of the tables every part of the state is held in: what an entry reads as after a write, and that each
operation keeps the canonical form. -/
namespace Sys2Proof.Machine

variable {α : Type}

theorem tfind_tins_self (t : Tab α) (k : Nat) (v : α) : tfind (tins t k v) k = some v := by
  induction t with
  | nil => simp [tins, tfind]
  | cons p r ih =>
    obtain ⟨j, w⟩ := p
    simp only [tins]
    split
    · simp [tfind]
    · split
      · simp [tfind]
      · simp [tfind, *]

theorem tfind_tins_other (t : Tab α) {k j : Nat} (v : α) (h : j ≠ k) : tfind (tins t k v) j = tfind t j := by
  induction t with
  | nil => simp [tins, tfind, h.symm]
  | cons p r ih =>
    obtain ⟨i, w⟩ := p
    simp only [tins]
    split
    · subst_vars; simp [tfind, h.symm]
    · split
      · simp [tfind, h.symm]
      · simp only [tfind, ih]

theorem tfind_none_of_absent (t : Tab α) (k : Nat) (h : ∀ p ∈ t, p.1 ≠ k) : tfind t k = none := by
  induction t with
  | nil => rfl
  | cons p r ih =>
    obtain ⟨j, w⟩ := p
    have hj : j ≠ k := h (j, w) (by simp)
    simp only [tfind, hj, if_false]
    exact ih (fun q hq => h q (by simp [hq]))

theorem tfind_tdel_self (t : Tab α) (k : Nat) : tfind (tdel t k) k = none := by
  apply tfind_none_of_absent
  intro p hp
  simpa using (List.mem_filter.mp hp).2

theorem tfind_tdel_other (t : Tab α) {k j : Nat} (h : j ≠ k) : tfind (tdel t k) j = tfind t j := by
  induction t with
  | nil => rfl
  | cons p r ih =>
    obtain ⟨i, w⟩ := p
    by_cases hi : i = k
    · subst hi
      simp only [tdel, List.filter, bne_self_eq_false, tfind, Ne.symm h, if_false] at ih ⊢
      exact ih
    · have hb : (i != k) = true := by simpa using hi
      simp only [tdel, List.filter, hb, tfind] at ih ⊢
      rw [ih]

/-- A read after a write of the same entry. -/
theorem tget_tset_self [DecidableEq α] (d : α) (t : Tab α) (k : Nat) (v : α) : tget d (tset d t k v) k = v := by
  unfold tset tget
  split
  · rename_i h
    simp [tfind_tdel_self, h]
  · simp [tfind_tins_self]

/-- A write leaves every other entry alone, whatever default it is read with. -/
theorem tget_tset_other [DecidableEq α] (d e : α) (t : Tab α) {k j : Nat} (v : α) (h : j ≠ k) :
    tget e (tset d t k v) j = tget e t j := by
  unfold tset tget
  split
  · rw [tfind_tdel_other t h]
  · rw [tfind_tins_other t v h]

theorem mem_tins {t : Tab α} {k : Nat} {v : α} {p : Nat × α} (h : p ∈ tins t k v) : p = (k, v) ∨ p ∈ t := by
  induction t with
  | nil => simpa [tins] using h
  | cons q r ih =>
    obtain ⟨j, w⟩ := q
    simp only [tins] at h
    split at h
    · rcases List.mem_cons.mp h with h | h <;> simp [h]
    · split at h
      · rcases List.mem_cons.mp h with h | h <;> simp [h]
      · rcases List.mem_cons.mp h with h | h
        · simp [h]
        · rcases ih h with h | h <;> simp [h]

theorem tins_sorted {t : Tab α} (h : t.Pairwise (fun p q => p.1 < q.1)) (k : Nat) (v : α) :
    (tins t k v).Pairwise (fun p q => p.1 < q.1) := by
  induction t with
  | nil => simp [tins]
  | cons q r ih =>
    obtain ⟨j, w⟩ := q
    rw [List.pairwise_cons] at h
    simp only [tins]
    split
    · rename_i e
      rw [List.pairwise_cons]
      exact ⟨fun p hp => e ▸ h.1 p hp, h.2⟩
    · split
      · rename_i e
        refine List.pairwise_cons.mpr ⟨fun p hp => ?_, List.pairwise_cons.mpr h⟩
        rcases List.mem_cons.mp hp with hp | hp
        · subst hp; exact e
        · exact lt_trans e (h.1 p hp)
      · refine List.pairwise_cons.mpr ⟨fun p hp => ?_, ih h.2⟩
        rcases mem_tins hp with hp | hp
        · subst hp; simp only; omega
        · exact h.1 p hp

theorem tdel_sorted {t : Tab α} (h : t.Pairwise (fun p q => p.1 < q.1)) (k : Nat) :
    (tdel t k).Pairwise (fun p q => p.1 < q.1) := h.filter _

theorem tset_sorted [DecidableEq α] (d : α) {t : Tab α} (h : t.Pairwise (fun p q => p.1 < q.1)) (k : Nat) (v : α) :
    (tset d t k v).Pairwise (fun p q => p.1 < q.1) := by
  unfold tset
  split
  · exact tdel_sorted h k
  · exact tins_sorted h k v

/-- A write keeps the canonical form. -/
theorem tset_wf [DecidableEq α] {d : α} {t : Tab α} (h : Tab.wf d t) (k : Nat) (v : α) : Tab.wf d (tset d t k v) := by
  refine ⟨tset_sorted d h.1 k v, fun p hp => ?_⟩
  unfold tset at hp
  split at hp
  · exact h.2 p (List.mem_filter.mp hp).1
  · rename_i hv
    rcases mem_tins hp with hp | hp
    · subst hp; exact hv
    · exact h.2 p hp

theorem filter_wf [DecidableEq α] {d : α} {t : Tab α} (h : Tab.wf d t) (f : Nat × α → Bool) : Tab.wf d (t.filter f) :=
  ⟨h.1.filter f, fun p hp => h.2 p (List.mem_filter.mp hp).1⟩

theorem empty_wf [DecidableEq α] (d : α) : Tab.wf d ([] : Tab α) := ⟨List.Pairwise.nil, by simp⟩

/-- In the canonical form, tables that read the same everywhere are the same data. -/
theorem tab_ext [DecidableEq α] {d : α} : ∀ {t u : Tab α}, Tab.wf d t → Tab.wf d u → (∀ k, tget d t k = tget d u k) → t = u := by
  intro t
  induction t with
  | nil =>
    intro u _ hu h
    cases u with
    | nil => rfl
    | cons q r =>
      obtain ⟨j, w⟩ := q
      have := h j
      simp [tget, tfind] at this
      exact absurd this.symm (hu.2 (j, w) (by simp))
  | cons p s ih =>
    intro u ht hu h
    obtain ⟨i, v⟩ := p
    have hs := List.pairwise_cons.mp ht.1
    cases u with
    | nil =>
      have := h i
      simp [tget, tfind] at this
      exact absurd this (ht.2 (i, v) (by simp))
    | cons q r =>
      obtain ⟨j, w⟩ := q
      have hr := List.pairwise_cons.mp hu.1
      have absent {t : Tab α} {k : Nat} (hk : ∀ p ∈ t, k < p.1) : tfind t k = none :=
        tfind_none_of_absent t k (fun p hp => (Nat.ne_of_lt (hk p hp)).symm)
      have hij : i = j := by
        rcases Nat.lt_trichotomy i j with hlt | heq | hgt
        · have := h i
          rw [tget, tget, tfind, tfind, if_pos rfl, if_neg (by omega),
            absent (fun p hp => lt_trans hlt (hr.1 p hp))] at this
          exact absurd this (ht.2 (i, v) (by simp))
        · exact heq
        · have := h j
          rw [tget, tget, tfind, tfind, if_pos rfl, if_neg (by omega),
            absent (fun p hp => lt_trans hgt (hs.1 p hp))] at this
          exact absurd this.symm (hu.2 (j, w) (by simp))
      subst hij
      have hv : v = w := by simpa [tget, tfind] using h i
      subst hv
      congr 1
      refine ih ⟨hs.2, fun p hp => ht.2 p (by simp [hp])⟩ ⟨hr.2, fun p hp => hu.2 p (by simp [hp])⟩ (fun k => ?_)
      by_cases hk : i = k
      · subst hk
        rw [tget, tget, absent hs.1, absent hr.1]
      · have := h k
        simpa [tget, tfind, hk] using this

end Sys2Proof.Machine
end

