-- ==== Sys2Proof/Laws/Reads.lean ====
section
/-! SUPPORT. What is read after a write: the numbered things of the machine, its registers and its fields. -/
namespace Sys2Proof.Machine

/-! ## Numbered things -/

@[simp] theorem State.page_setPage_self (s : State) (fn : Nat) (p : RingPage) : (s.setPage fn p).page fn = p :=
  tget_tset_self _ _ _ _

theorem State.page_setPage_other (s : State) {fn j : Nat} (p : RingPage) (h : j ≠ fn) : (s.setPage fn p).page j = s.page j :=
  tget_tset_other _ _ _ _ h

@[simp] theorem State.fnState_setFnState_self (s : State) (fn : Nat) (f : FnState) : (s.setFnState fn f).fnState fn = f :=
  tget_tset_self _ _ _ _

theorem State.fnState_setFnState_other (s : State) {fn j : Nat} (f : FnState) (h : j ≠ fn) : (s.setFnState fn f).fnState j = s.fnState j :=
  tget_tset_other _ _ _ _ h

@[simp] theorem State.port_setPort_self (s : State) (d : Nat) (p : Port) : (s.setPort d p).port d = p :=
  tget_tset_self _ _ _ _

theorem State.port_setPort_other (s : State) {d j : Nat} (p : Port) (h : j ≠ d) : (s.setPort d p).port j = s.port j :=
  tget_tset_other _ _ _ _ h

@[simp] theorem State.spallAt_setSpall_self (s : State) (n : Nat) (e : Spall) : (s.setSpall n e).spallAt n = e :=
  tget_tset_self _ _ _ _

theorem State.spallAt_setSpall_other (s : State) {n j : Nat} (e : Spall) (h : j ≠ n) : (s.setSpall n e).spallAt j = s.spallAt j :=
  tget_tset_other _ _ _ _ h

@[simp] theorem State.account_setAccount_self (s : State) (a : Nat) (x : Account) : (s.setAccount a x).account a = x :=
  tget_tset_self _ _ _ _

theorem State.account_setAccount_other (s : State) {a j : Nat} (x : Account) (h : j ≠ a) : (s.setAccount a x).account j = s.account j :=
  tget_tset_other _ _ _ _ h

@[simp] theorem State.meter_setMeter_self (s : State) (p : Nat) (m : Meter) : (s.setMeter p m).meter p = m :=
  tget_tset_self _ _ _ _

theorem State.meter_setMeter_other (s : State) {p j : Nat} (m : Meter) (h : j ≠ p) : (s.setMeter p m).meter j = s.meter j :=
  tget_tset_other _ _ _ _ h

@[simp] theorem State.key_setKey_self (s : State) (k : Nat) (x : Keystone) : (s.setKey k x).key k = x :=
  tget_tset_self _ _ _ _

theorem State.key_setKey_other (s : State) {k j : Nat} (x : Keystone) (h : j ≠ k) : (s.setKey k x).key j = s.key j :=
  tget_tset_other _ _ _ _ h

@[simp] theorem State.tb_setTb_self (s : State) (n : Nat) (b : TimeBase) : (s.setTb n b).tb n = b :=
  tget_tset_self _ _ _ _

theorem State.tb_setTb_other (s : State) {n j : Nat} (b : TimeBase) (h : j ≠ n) : (s.setTb n b).tb j = s.tb j :=
  tget_tset_other _ _ _ _ h

@[simp] theorem State.pin_setPin_self (s : State) (p : Nat) (x : TddPin) : (s.setPin p x).pin p = x :=
  tget_tset_self _ _ _ _

theorem State.pin_setPin_other (s : State) {p j : Nat} (x : TddPin) (h : j ≠ p) : (s.setPin p x).pin j = s.pin j :=
  tget_tset_other _ _ _ _ h

@[simp] theorem State.strm_setStrm_self (s : State) (c : Nat) (x : Strm) : (s.setStrm c x).strm c = x :=
  tget_tset_self _ _ _ _

theorem State.strm_setStrm_other (s : State) {c j : Nat} (x : Strm) (h : j ≠ c) : (s.setStrm c x).strm j = s.strm j :=
  tget_tset_other _ _ _ _ h

@[simp] theorem State.tally_setTally_self (s : State) (d : Nat) (t : Tally) : (s.setTally d t).tally d = t :=
  tget_tset_self _ _ _ _

theorem State.tally_setTally_other (s : State) {d j : Nat} (t : Tally) (h : j ≠ d) : (s.setTally d t).tally j = s.tally j :=
  tget_tset_other _ _ _ _ h

@[simp] theorem State.ethRing_setEthRing_self (s : State) (r : Nat) (x : EthRing) : (s.setEthRing r x).ethRing r = x :=
  tget_tset_self _ _ _ _

theorem State.ethRing_setEthRing_other (s : State) {r j : Nat} (x : EthRing) (h : j ≠ r) : (s.setEthRing r x).ethRing j = s.ethRing j :=
  tget_tset_other _ _ _ _ h

@[simp] theorem State.macSt_setMacSt_self (s : State) (m : Nat) (x : MacSt) : (s.setMacSt m x).macSt m = x :=
  tget_tset_self _ _ _ _

theorem State.macSt_setMacSt_other (s : State) {m j : Nat} (x : MacSt) (h : j ≠ m) : (s.setMacSt m x).macSt j = s.macSt j :=
  tget_tset_other _ _ _ _ h

@[simp] theorem State.core_setCore_self (s : State) (c : Nat) (k : Core) : (s.setCore c k).core c = k :=
  tget_tset_self _ _ _ _

theorem State.core_setCore_other (s : State) {c j : Nat} (k : Core) (h : j ≠ c) : (s.setCore c k).core j = s.core j :=
  tget_tset_other _ _ _ _ h

@[simp] theorem State.cmu_setCmu_self (s : State) (n : Nat) (x : Cmu) : (s.setCmu n x).cmu n = x :=
  tget_tset_self _ _ _ _

theorem State.cmu_setCmu_other (s : State) {n j : Nat} (x : Cmu) (h : j ≠ n) : (s.setCmu n x).cmu j = s.cmu j :=
  tget_tset_other _ _ _ _ h

@[simp] theorem State.eng_setEng_self (s : State) (u : Nat) (e : Engine) : (s.setEng u e).eng u = e :=
  tget_tset_self _ _ _ _

theorem State.eng_setEng_other (s : State) {u j : Nat} (e : Engine) (h : j ≠ u) : (s.setEng u e).eng j = s.eng j :=
  tget_tset_other _ _ _ _ h

@[simp] theorem State.vec_setVec_self (s : State) (p : Nat) (v : MsixVec) : (s.setVec p v).vec p = v :=
  tget_tset_self _ _ _ _

theorem State.vec_setVec_other (s : State) {p j : Nat} (v : MsixVec) (h : j ≠ p) : (s.setVec p v).vec j = s.vec j :=
  tget_tset_other _ _ _ _ h

@[simp] theorem State.task_putTask_self (s : State) (i : Nat) (t : Task) : (s.putTask i t).task i = some t :=
  tfind_tins_self _ _ _

theorem State.task_putTask_other (s : State) {i j : Nat} (t : Task) (h : j ≠ i) : (s.putTask i t).task j = s.task j :=
  tfind_tins_other _ _ h

@[simp] theorem State.task_delTask_self (s : State) (i : Nat) : (s.delTask i).task i = none := tfind_tdel_self _ _

theorem State.task_delTask_other (s : State) {i j : Nat} (h : j ≠ i) : (s.delTask i).task j = s.task j :=
  tfind_tdel_other _ h

/-! ## Registers -/

@[simp] theorem State.reg_setReg_self (s : State) (cls inst off : Nat) (w : Word) :
    (s.setReg cls inst off w).reg cls inst off = w := tget_tset_self _ _ _ _

theorem State.reg_setReg_other (s : State) {cls inst off c i o : Nat} (w : Word) (h : csrKey c i o ≠ csrKey cls inst off) :
    (s.setReg cls inst off w).reg c i o = s.reg c i o := tget_tset_other _ _ _ _ h

/-- Registers of the address space have their own places. -/
theorem csrKey_inj {c i o c' i' o' : Nat} (hi : i < 1024) (ho : o < 1024) (hi' : i' < 1024) (ho' : o' < 1024)
    (h : csrKey c i o = csrKey c' i' o') : c = c' ∧ i = i' ∧ o = o' := by
  unfold csrKey at h
  omega

@[simp] theorem State.heldFor_holdFor_self (s : State) (req cls inst off : Nat) (w : Word) :
    (s.holdFor req cls inst off w).heldFor req cls inst off = w := tget_tset_self _ _ _ _

/-! ## Fields -/

/-- The number that `putField` makes of a word. -/
theorem putField_toNat (w : Word) {m l : Nat} (v : Nat) (hl : l ≤ m) (hm : m < 32) :
    (putField w m l v).toNat = 2 ^ (m + 1) * (w.toNat / 2 ^ (m + 1)) + 2 ^ l * (v % 2 ^ (m + 1 - l)) + w.toNat % 2 ^ l := by
  have e : 2 ^ (m + 1) = 2 ^ l * 2 ^ (m + 1 - l) := by rw [← Nat.pow_add]; congr 1; omega
  have hw : w.toNat = 2 ^ (m + 1) * (w.toNat / 2 ^ (m + 1)) + 2 ^ l * (w.toNat / 2 ^ l % 2 ^ (m + 1 - l)) + w.toNat % 2 ^ l := by
    have h1 := Nat.div_add_mod w.toNat (2 ^ l)
    have h2 := Nat.div_add_mod (w.toNat / 2 ^ l) (2 ^ (m + 1 - l))
    rw [Nat.div_div_eq_div_mul, ← e] at h2
    calc w.toNat = 2 ^ l * (w.toNat / 2 ^ l) + w.toNat % 2 ^ l := h1.symm
      _ = _ := by
        conv => lhs; rw [← h2]
        rw [Nat.mul_add, ← Nat.mul_assoc, ← e]
  have hv : v % 2 ^ (m + 1 - l) < 2 ^ (m + 1 - l) := Nat.mod_lt _ (Nat.two_pow_pos _)
  have hlo : w.toNat % 2 ^ l < 2 ^ l := Nat.mod_lt _ (Nat.two_pow_pos _)
  have hlt : 2 ^ (m + 1) * (w.toNat / 2 ^ (m + 1)) + 2 ^ l * (v % 2 ^ (m + 1 - l)) + w.toNat % 2 ^ l < 2 ^ 32 := by
    have h3 : 2 ^ l * (v % 2 ^ (m + 1 - l)) + w.toNat % 2 ^ l < 2 ^ (m + 1) := by
      rw [e]
      calc _ < 2 ^ l * (v % 2 ^ (m + 1 - l)) + 2 ^ l := by omega
        _ = 2 ^ l * (v % 2 ^ (m + 1 - l) + 1) := by rw [Nat.mul_add, Nat.mul_one]
        _ ≤ _ := Nat.mul_le_mul_left _ hv
    have e32 : 2 ^ 32 = 2 ^ (m + 1) * 2 ^ (31 - m) := by rw [← Nat.pow_add]; congr 1; omega
    have h4 : w.toNat / 2 ^ (m + 1) < 2 ^ (31 - m) := by
      rw [Nat.div_lt_iff_lt_mul (Nat.two_pow_pos _), Nat.mul_comm, ← e32]
      exact w.isLt
    rw [e32]
    calc _ < 2 ^ (m + 1) * (w.toNat / 2 ^ (m + 1)) + 2 ^ (m + 1) := by omega
      _ = 2 ^ (m + 1) * (w.toNat / 2 ^ (m + 1) + 1) := by rw [Nat.mul_add, Nat.mul_one]
      _ ≤ _ := Nat.mul_le_mul_left _ h4
  unfold putField wordField
  rw [BitVec.toNat_ofNat, Nat.mod_eq_of_lt]
  · rw [Nat.mul_comm _ (2 ^ l), Nat.mul_comm _ (2 ^ l)]
    omega
  · rw [Nat.mul_comm _ (2 ^ l), Nat.mul_comm _ (2 ^ l)]
    omega

/-- A field reads as what was put into it. -/
theorem wordField_putField_self (w : Word) {m l : Nat} (v : Nat) (hl : l ≤ m) (hm : m < 32) :
    wordField (putField w m l v) m l = v % 2 ^ (m + 1 - l) := by
  have e : 2 ^ (m + 1) = 2 ^ l * 2 ^ (m + 1 - l) := by rw [← Nat.pow_add]; congr 1; omega
  have hlo : w.toNat % 2 ^ l < 2 ^ l := Nat.mod_lt _ (Nat.two_pow_pos _)
  rw [wordField, putField_toNat w v hl hm, e, Nat.mul_assoc, ← Nat.mul_add,
    Nat.mul_add_div (Nat.two_pow_pos _), Nat.div_eq_of_lt hlo, Nat.add_zero, Nat.mul_add_mod,
    Nat.mod_eq_of_lt (Nat.mod_lt _ (Nat.two_pow_pos _))]

/-- A field above or below another reads as before. -/
theorem wordField_putField_other (w : Word) {m l m' l' : Nat} (v : Nat) (hl : l ≤ m) (hm : m < 32) (hl' : l' ≤ m')
    (hd : m' < l ∨ m < l') : wordField (putField w m l v) m' l' = wordField w m' l' := by
  have e : 2 ^ (m + 1) = 2 ^ l * 2 ^ (m + 1 - l) := by rw [← Nat.pow_add]; congr 1; omega
  have hlo : w.toNat % 2 ^ l < 2 ^ l := Nat.mod_lt _ (Nat.two_pow_pos _)
  have hv : v % 2 ^ (m + 1 - l) < 2 ^ (m + 1 - l) := Nat.mod_lt _ (Nat.two_pow_pos _)
  have hp := putField_toNat w v hl hm
  unfold wordField
  obtain hd | hd := hd
  · have hmod (n : Nat) : n / 2 ^ l' % 2 ^ (m' + 1 - l') = n % 2 ^ l / 2 ^ l' % 2 ^ (m' + 1 - l') := by
      have e' : 2 ^ l = 2 ^ l' * 2 ^ (m' + 1 - l') * 2 ^ (l - (m' + 1)) := by
        rw [← Nat.pow_add, ← Nat.pow_add]; congr 1; omega
      rw [e', Nat.mul_assoc, Nat.mod_mul_right_div_self, Nat.mod_mul_right_mod]
    rw [hmod, hmod w.toNat, hp, e, Nat.mul_assoc, ← Nat.mul_add, Nat.mul_add_mod, Nat.mod_mod]
  · have hdiv (n : Nat) : n / 2 ^ l' = n / 2 ^ (m + 1) / 2 ^ (l' - (m + 1)) := by
      rw [Nat.div_div_eq_div_mul, ← Nat.pow_add]; congr 2; omega
    have h3 : 2 ^ l * (v % 2 ^ (m + 1 - l)) + w.toNat % 2 ^ l < 2 ^ (m + 1) := by
      rw [e]
      calc _ < 2 ^ l * (v % 2 ^ (m + 1 - l)) + 2 ^ l := by omega
        _ = 2 ^ l * (v % 2 ^ (m + 1 - l) + 1) := by rw [Nat.mul_add, Nat.mul_one]
        _ ≤ _ := Nat.mul_le_mul_left _ hv
    rw [hdiv, hdiv w.toNat, hp, Nat.add_assoc, Nat.mul_add_div (Nat.two_pow_pos _), Nat.div_eq_of_lt h3, Nat.add_zero]

/-- Fields of one register: the one written reads as what was written, modulo its width. -/
theorem State.fld_setFld_self (s : State) (f : Field) (i v : Nat) (hl : f.lsb ≤ f.msb) (hm : f.msb < 32) :
    (s.setFld f i v).fld f i = v % 2 ^ (f.msb + 1 - f.lsb) := by
  simp only [State.fld, State.setFld, State.reg_setReg_self]
  exact wordField_putField_self _ _ hl hm

/-- A field of the same register beside the one written. -/
theorem State.fld_setFld_beside (s : State) (f g : Field) (i v : Nat) (hl : f.lsb ≤ f.msb) (hm : f.msb < 32)
    (hl' : g.lsb ≤ g.msb) (hc : g.cls = f.cls) (ho : g.off = f.off) (hd : g.msb < f.lsb ∨ f.msb < g.lsb) :
    (s.setFld f i v).fld g i = s.fld g i := by
  simp only [State.fld, State.setFld, hc, ho, State.reg_setReg_self]
  exact wordField_putField_other _ _ hl hm hl' hd

/-- A field of another register. -/
theorem State.fld_setFld_other (s : State) (f g : Field) (i j v : Nat) (h : csrKey g.cls j g.off ≠ csrKey f.cls i f.off) :
    (s.setFld f i v).fld g j = s.fld g j := by
  simp only [State.fld, State.setFld, State.reg_setReg_other s _ h]

/-- A field of another register than the one written. -/
theorem State.fld_setReg_other (s : State) (cls inst off : Nat) (w : Word) (g : Field) (j : Nat)
    (h : csrKey g.cls j g.off ≠ csrKey cls inst off) : (s.setReg cls inst off w).fld g j = s.fld g j := by
  simp only [State.fld, State.reg_setReg_other s _ h]

end Sys2Proof.Machine
end

