-- ==== Sys2Proof/Laws/State.lean ====
section
/-! SUPPORT. What each update of the state leaves as it was: one lemma per field per update. -/
namespace Sys2Proof.Machine

/-! ### setReg -/

@[simp] theorem State.setReg_pending (s : State) (cls inst off : Nat) (w : Word) : (s.setReg cls inst off w).pending = s.pending := rfl
@[simp] theorem State.setReg_hold (s : State) (cls inst off : Nat) (w : Word) : (s.setReg cls inst off w).hold = s.hold := rfl
@[simp] theorem State.setReg_returned (s : State) (cls inst off : Nat) (w : Word) : (s.setReg cls inst off w).returned = s.returned := rfl
@[simp] theorem State.setReg_mem (s : State) (cls inst off : Nat) (w : Word) : (s.setReg cls inst off w).mem = s.mem := rfl
@[simp] theorem State.setReg_chk (s : State) (cls inst off : Nat) (w : Word) : (s.setReg cls inst off w).chk = s.chk := rfl
@[simp] theorem State.setReg_host (s : State) (cls inst off : Nat) (w : Word) : (s.setReg cls inst off w).host = s.host := rfl
@[simp] theorem State.setReg_devclk (s : State) (cls inst off : Nat) (w : Word) : (s.setReg cls inst off w).devclk = s.devclk := rfl
@[simp] theorem State.setReg_modes (s : State) (cls inst off : Nat) (w : Word) : (s.setReg cls inst off w).modes = s.modes := rfl
@[simp] theorem State.setReg_fences (s : State) (cls inst off : Nat) (w : Word) : (s.setReg cls inst off w).fences = s.fences := rfl
@[simp] theorem State.setReg_journal (s : State) (cls inst off : Nat) (w : Word) : (s.setReg cls inst off w).journal = s.journal := rfl
@[simp] theorem State.setReg_dvorys (s : State) (cls inst off : Nat) (w : Word) : (s.setReg cls inst off w).dvorys = s.dvorys := rfl
@[simp] theorem State.setReg_disp (s : State) (cls inst off : Nat) (w : Word) : (s.setReg cls inst off w).disp = s.disp := rfl
@[simp] theorem State.setReg_ledger (s : State) (cls inst off : Nat) (w : Word) : (s.setReg cls inst off w).ledger = s.ledger := rfl
@[simp] theorem State.setReg_mortar (s : State) (cls inst off : Nat) (w : Word) : (s.setReg cls inst off w).mortar = s.mortar := rfl
@[simp] theorem State.setReg_memSys (s : State) (cls inst off : Nat) (w : Word) : (s.setReg cls inst off w).memSys = s.memSys := rfl
@[simp] theorem State.setReg_pcie (s : State) (cls inst off : Nat) (w : Word) : (s.setReg cls inst off w).pcie = s.pcie := rfl
@[simp] theorem State.setReg_faults (s : State) (cls inst off : Nat) (w : Word) : (s.setReg cls inst off w).faults = s.faults := rfl
@[simp] theorem State.setReg_observe (s : State) (cls inst off : Nat) (w : Word) : (s.setReg cls inst off w).observe = s.observe := rfl
@[simp] theorem State.setReg_power (s : State) (cls inst off : Nat) (w : Word) : (s.setReg cls inst off w).power = s.power := rfl
@[simp] theorem State.setReg_free (s : State) (cls inst off : Nat) (w : Word) : (s.setReg cls inst off w).free = s.free := rfl
@[simp] theorem State.setReg_time (s : State) (cls inst off : Nat) (w : Word) : (s.setReg cls inst off w).time = s.time := rfl
@[simp] theorem State.setReg_streams (s : State) (cls inst off : Nat) (w : Word) : (s.setReg cls inst off w).streams = s.streams := rfl
@[simp] theorem State.setReg_lanes (s : State) (cls inst off : Nat) (w : Word) : (s.setReg cls inst off w).lanes = s.lanes := rfl
@[simp] theorem State.setReg_sett (s : State) (cls inst off : Nat) (w : Word) : (s.setReg cls inst off w).sett = s.sett := rfl
@[simp] theorem State.setReg_engines (s : State) (cls inst off : Nat) (w : Word) : (s.setReg cls inst off w).engines = s.engines := rfl
@[simp] theorem State.setReg_witness (s : State) (cls inst off : Nat) (w : Word) : (s.setReg cls inst off w).witness = s.witness := rfl
@[simp] theorem State.setReg_dma (s : State) (cls inst off : Nat) (w : Word) : (s.setReg cls inst off w).dma = s.dma := rfl
@[simp] theorem State.setReg_eth (s : State) (cls inst off : Nat) (w : Word) : (s.setReg cls inst off w).eth = s.eth := rfl

/-! ### setFld -/

@[simp] theorem State.setFld_pending (s : State) (f : Field) (i v : Nat) : (s.setFld f i v).pending = s.pending := rfl
@[simp] theorem State.setFld_hold (s : State) (f : Field) (i v : Nat) : (s.setFld f i v).hold = s.hold := rfl
@[simp] theorem State.setFld_returned (s : State) (f : Field) (i v : Nat) : (s.setFld f i v).returned = s.returned := rfl
@[simp] theorem State.setFld_mem (s : State) (f : Field) (i v : Nat) : (s.setFld f i v).mem = s.mem := rfl
@[simp] theorem State.setFld_chk (s : State) (f : Field) (i v : Nat) : (s.setFld f i v).chk = s.chk := rfl
@[simp] theorem State.setFld_host (s : State) (f : Field) (i v : Nat) : (s.setFld f i v).host = s.host := rfl
@[simp] theorem State.setFld_devclk (s : State) (f : Field) (i v : Nat) : (s.setFld f i v).devclk = s.devclk := rfl
@[simp] theorem State.setFld_modes (s : State) (f : Field) (i v : Nat) : (s.setFld f i v).modes = s.modes := rfl
@[simp] theorem State.setFld_fences (s : State) (f : Field) (i v : Nat) : (s.setFld f i v).fences = s.fences := rfl
@[simp] theorem State.setFld_journal (s : State) (f : Field) (i v : Nat) : (s.setFld f i v).journal = s.journal := rfl
@[simp] theorem State.setFld_dvorys (s : State) (f : Field) (i v : Nat) : (s.setFld f i v).dvorys = s.dvorys := rfl
@[simp] theorem State.setFld_disp (s : State) (f : Field) (i v : Nat) : (s.setFld f i v).disp = s.disp := rfl
@[simp] theorem State.setFld_ledger (s : State) (f : Field) (i v : Nat) : (s.setFld f i v).ledger = s.ledger := rfl
@[simp] theorem State.setFld_mortar (s : State) (f : Field) (i v : Nat) : (s.setFld f i v).mortar = s.mortar := rfl
@[simp] theorem State.setFld_memSys (s : State) (f : Field) (i v : Nat) : (s.setFld f i v).memSys = s.memSys := rfl
@[simp] theorem State.setFld_pcie (s : State) (f : Field) (i v : Nat) : (s.setFld f i v).pcie = s.pcie := rfl
@[simp] theorem State.setFld_faults (s : State) (f : Field) (i v : Nat) : (s.setFld f i v).faults = s.faults := rfl
@[simp] theorem State.setFld_observe (s : State) (f : Field) (i v : Nat) : (s.setFld f i v).observe = s.observe := rfl
@[simp] theorem State.setFld_power (s : State) (f : Field) (i v : Nat) : (s.setFld f i v).power = s.power := rfl
@[simp] theorem State.setFld_free (s : State) (f : Field) (i v : Nat) : (s.setFld f i v).free = s.free := rfl
@[simp] theorem State.setFld_time (s : State) (f : Field) (i v : Nat) : (s.setFld f i v).time = s.time := rfl
@[simp] theorem State.setFld_streams (s : State) (f : Field) (i v : Nat) : (s.setFld f i v).streams = s.streams := rfl
@[simp] theorem State.setFld_lanes (s : State) (f : Field) (i v : Nat) : (s.setFld f i v).lanes = s.lanes := rfl
@[simp] theorem State.setFld_sett (s : State) (f : Field) (i v : Nat) : (s.setFld f i v).sett = s.sett := rfl
@[simp] theorem State.setFld_engines (s : State) (f : Field) (i v : Nat) : (s.setFld f i v).engines = s.engines := rfl
@[simp] theorem State.setFld_witness (s : State) (f : Field) (i v : Nat) : (s.setFld f i v).witness = s.witness := rfl
@[simp] theorem State.setFld_dma (s : State) (f : Field) (i v : Nat) : (s.setFld f i v).dma = s.dma := rfl
@[simp] theorem State.setFld_eth (s : State) (f : Field) (i v : Nat) : (s.setFld f i v).eth = s.eth := rfl

/-! ### addFld -/

@[simp] theorem State.addFld_pending (s : State) (f : Field) (i n : Nat) : (s.addFld f i n).pending = s.pending := rfl
@[simp] theorem State.addFld_hold (s : State) (f : Field) (i n : Nat) : (s.addFld f i n).hold = s.hold := rfl
@[simp] theorem State.addFld_returned (s : State) (f : Field) (i n : Nat) : (s.addFld f i n).returned = s.returned := rfl
@[simp] theorem State.addFld_mem (s : State) (f : Field) (i n : Nat) : (s.addFld f i n).mem = s.mem := rfl
@[simp] theorem State.addFld_chk (s : State) (f : Field) (i n : Nat) : (s.addFld f i n).chk = s.chk := rfl
@[simp] theorem State.addFld_host (s : State) (f : Field) (i n : Nat) : (s.addFld f i n).host = s.host := rfl
@[simp] theorem State.addFld_devclk (s : State) (f : Field) (i n : Nat) : (s.addFld f i n).devclk = s.devclk := rfl
@[simp] theorem State.addFld_modes (s : State) (f : Field) (i n : Nat) : (s.addFld f i n).modes = s.modes := rfl
@[simp] theorem State.addFld_fences (s : State) (f : Field) (i n : Nat) : (s.addFld f i n).fences = s.fences := rfl
@[simp] theorem State.addFld_journal (s : State) (f : Field) (i n : Nat) : (s.addFld f i n).journal = s.journal := rfl
@[simp] theorem State.addFld_dvorys (s : State) (f : Field) (i n : Nat) : (s.addFld f i n).dvorys = s.dvorys := rfl
@[simp] theorem State.addFld_disp (s : State) (f : Field) (i n : Nat) : (s.addFld f i n).disp = s.disp := rfl
@[simp] theorem State.addFld_ledger (s : State) (f : Field) (i n : Nat) : (s.addFld f i n).ledger = s.ledger := rfl
@[simp] theorem State.addFld_mortar (s : State) (f : Field) (i n : Nat) : (s.addFld f i n).mortar = s.mortar := rfl
@[simp] theorem State.addFld_memSys (s : State) (f : Field) (i n : Nat) : (s.addFld f i n).memSys = s.memSys := rfl
@[simp] theorem State.addFld_pcie (s : State) (f : Field) (i n : Nat) : (s.addFld f i n).pcie = s.pcie := rfl
@[simp] theorem State.addFld_faults (s : State) (f : Field) (i n : Nat) : (s.addFld f i n).faults = s.faults := rfl
@[simp] theorem State.addFld_observe (s : State) (f : Field) (i n : Nat) : (s.addFld f i n).observe = s.observe := rfl
@[simp] theorem State.addFld_power (s : State) (f : Field) (i n : Nat) : (s.addFld f i n).power = s.power := rfl
@[simp] theorem State.addFld_free (s : State) (f : Field) (i n : Nat) : (s.addFld f i n).free = s.free := rfl
@[simp] theorem State.addFld_time (s : State) (f : Field) (i n : Nat) : (s.addFld f i n).time = s.time := rfl
@[simp] theorem State.addFld_streams (s : State) (f : Field) (i n : Nat) : (s.addFld f i n).streams = s.streams := rfl
@[simp] theorem State.addFld_lanes (s : State) (f : Field) (i n : Nat) : (s.addFld f i n).lanes = s.lanes := rfl
@[simp] theorem State.addFld_sett (s : State) (f : Field) (i n : Nat) : (s.addFld f i n).sett = s.sett := rfl
@[simp] theorem State.addFld_engines (s : State) (f : Field) (i n : Nat) : (s.addFld f i n).engines = s.engines := rfl
@[simp] theorem State.addFld_witness (s : State) (f : Field) (i n : Nat) : (s.addFld f i n).witness = s.witness := rfl
@[simp] theorem State.addFld_dma (s : State) (f : Field) (i n : Nat) : (s.addFld f i n).dma = s.dma := rfl
@[simp] theorem State.addFld_eth (s : State) (f : Field) (i n : Nat) : (s.addFld f i n).eth = s.eth := rfl

/-! ### satFld -/

@[simp] theorem State.satFld_pending (s : State) (f : Field) (i n : Nat) : (s.satFld f i n).pending = s.pending := rfl
@[simp] theorem State.satFld_hold (s : State) (f : Field) (i n : Nat) : (s.satFld f i n).hold = s.hold := rfl
@[simp] theorem State.satFld_returned (s : State) (f : Field) (i n : Nat) : (s.satFld f i n).returned = s.returned := rfl
@[simp] theorem State.satFld_mem (s : State) (f : Field) (i n : Nat) : (s.satFld f i n).mem = s.mem := rfl
@[simp] theorem State.satFld_chk (s : State) (f : Field) (i n : Nat) : (s.satFld f i n).chk = s.chk := rfl
@[simp] theorem State.satFld_host (s : State) (f : Field) (i n : Nat) : (s.satFld f i n).host = s.host := rfl
@[simp] theorem State.satFld_devclk (s : State) (f : Field) (i n : Nat) : (s.satFld f i n).devclk = s.devclk := rfl
@[simp] theorem State.satFld_modes (s : State) (f : Field) (i n : Nat) : (s.satFld f i n).modes = s.modes := rfl
@[simp] theorem State.satFld_fences (s : State) (f : Field) (i n : Nat) : (s.satFld f i n).fences = s.fences := rfl
@[simp] theorem State.satFld_journal (s : State) (f : Field) (i n : Nat) : (s.satFld f i n).journal = s.journal := rfl
@[simp] theorem State.satFld_dvorys (s : State) (f : Field) (i n : Nat) : (s.satFld f i n).dvorys = s.dvorys := rfl
@[simp] theorem State.satFld_disp (s : State) (f : Field) (i n : Nat) : (s.satFld f i n).disp = s.disp := rfl
@[simp] theorem State.satFld_ledger (s : State) (f : Field) (i n : Nat) : (s.satFld f i n).ledger = s.ledger := rfl
@[simp] theorem State.satFld_mortar (s : State) (f : Field) (i n : Nat) : (s.satFld f i n).mortar = s.mortar := rfl
@[simp] theorem State.satFld_memSys (s : State) (f : Field) (i n : Nat) : (s.satFld f i n).memSys = s.memSys := rfl
@[simp] theorem State.satFld_pcie (s : State) (f : Field) (i n : Nat) : (s.satFld f i n).pcie = s.pcie := rfl
@[simp] theorem State.satFld_faults (s : State) (f : Field) (i n : Nat) : (s.satFld f i n).faults = s.faults := rfl
@[simp] theorem State.satFld_observe (s : State) (f : Field) (i n : Nat) : (s.satFld f i n).observe = s.observe := rfl
@[simp] theorem State.satFld_power (s : State) (f : Field) (i n : Nat) : (s.satFld f i n).power = s.power := rfl
@[simp] theorem State.satFld_free (s : State) (f : Field) (i n : Nat) : (s.satFld f i n).free = s.free := rfl
@[simp] theorem State.satFld_time (s : State) (f : Field) (i n : Nat) : (s.satFld f i n).time = s.time := rfl
@[simp] theorem State.satFld_streams (s : State) (f : Field) (i n : Nat) : (s.satFld f i n).streams = s.streams := rfl
@[simp] theorem State.satFld_lanes (s : State) (f : Field) (i n : Nat) : (s.satFld f i n).lanes = s.lanes := rfl
@[simp] theorem State.satFld_sett (s : State) (f : Field) (i n : Nat) : (s.satFld f i n).sett = s.sett := rfl
@[simp] theorem State.satFld_engines (s : State) (f : Field) (i n : Nat) : (s.satFld f i n).engines = s.engines := rfl
@[simp] theorem State.satFld_witness (s : State) (f : Field) (i n : Nat) : (s.satFld f i n).witness = s.witness := rfl
@[simp] theorem State.satFld_dma (s : State) (f : Field) (i n : Nat) : (s.satFld f i n).dma = s.dma := rfl
@[simp] theorem State.satFld_eth (s : State) (f : Field) (i n : Nat) : (s.satFld f i n).eth = s.eth := rfl

/-! ### setPair -/

@[simp] theorem State.setPair_pending (s : State) (lo hi : Field) (i n : Nat) : (s.setPair lo hi i n).pending = s.pending := rfl
@[simp] theorem State.setPair_hold (s : State) (lo hi : Field) (i n : Nat) : (s.setPair lo hi i n).hold = s.hold := rfl
@[simp] theorem State.setPair_returned (s : State) (lo hi : Field) (i n : Nat) : (s.setPair lo hi i n).returned = s.returned := rfl
@[simp] theorem State.setPair_mem (s : State) (lo hi : Field) (i n : Nat) : (s.setPair lo hi i n).mem = s.mem := rfl
@[simp] theorem State.setPair_chk (s : State) (lo hi : Field) (i n : Nat) : (s.setPair lo hi i n).chk = s.chk := rfl
@[simp] theorem State.setPair_host (s : State) (lo hi : Field) (i n : Nat) : (s.setPair lo hi i n).host = s.host := rfl
@[simp] theorem State.setPair_devclk (s : State) (lo hi : Field) (i n : Nat) : (s.setPair lo hi i n).devclk = s.devclk := rfl
@[simp] theorem State.setPair_modes (s : State) (lo hi : Field) (i n : Nat) : (s.setPair lo hi i n).modes = s.modes := rfl
@[simp] theorem State.setPair_fences (s : State) (lo hi : Field) (i n : Nat) : (s.setPair lo hi i n).fences = s.fences := rfl
@[simp] theorem State.setPair_journal (s : State) (lo hi : Field) (i n : Nat) : (s.setPair lo hi i n).journal = s.journal := rfl
@[simp] theorem State.setPair_dvorys (s : State) (lo hi : Field) (i n : Nat) : (s.setPair lo hi i n).dvorys = s.dvorys := rfl
@[simp] theorem State.setPair_disp (s : State) (lo hi : Field) (i n : Nat) : (s.setPair lo hi i n).disp = s.disp := rfl
@[simp] theorem State.setPair_ledger (s : State) (lo hi : Field) (i n : Nat) : (s.setPair lo hi i n).ledger = s.ledger := rfl
@[simp] theorem State.setPair_mortar (s : State) (lo hi : Field) (i n : Nat) : (s.setPair lo hi i n).mortar = s.mortar := rfl
@[simp] theorem State.setPair_memSys (s : State) (lo hi : Field) (i n : Nat) : (s.setPair lo hi i n).memSys = s.memSys := rfl
@[simp] theorem State.setPair_pcie (s : State) (lo hi : Field) (i n : Nat) : (s.setPair lo hi i n).pcie = s.pcie := rfl
@[simp] theorem State.setPair_faults (s : State) (lo hi : Field) (i n : Nat) : (s.setPair lo hi i n).faults = s.faults := rfl
@[simp] theorem State.setPair_observe (s : State) (lo hi : Field) (i n : Nat) : (s.setPair lo hi i n).observe = s.observe := rfl
@[simp] theorem State.setPair_power (s : State) (lo hi : Field) (i n : Nat) : (s.setPair lo hi i n).power = s.power := rfl
@[simp] theorem State.setPair_free (s : State) (lo hi : Field) (i n : Nat) : (s.setPair lo hi i n).free = s.free := rfl
@[simp] theorem State.setPair_time (s : State) (lo hi : Field) (i n : Nat) : (s.setPair lo hi i n).time = s.time := rfl
@[simp] theorem State.setPair_streams (s : State) (lo hi : Field) (i n : Nat) : (s.setPair lo hi i n).streams = s.streams := rfl
@[simp] theorem State.setPair_lanes (s : State) (lo hi : Field) (i n : Nat) : (s.setPair lo hi i n).lanes = s.lanes := rfl
@[simp] theorem State.setPair_sett (s : State) (lo hi : Field) (i n : Nat) : (s.setPair lo hi i n).sett = s.sett := rfl
@[simp] theorem State.setPair_engines (s : State) (lo hi : Field) (i n : Nat) : (s.setPair lo hi i n).engines = s.engines := rfl
@[simp] theorem State.setPair_witness (s : State) (lo hi : Field) (i n : Nat) : (s.setPair lo hi i n).witness = s.witness := rfl
@[simp] theorem State.setPair_dma (s : State) (lo hi : Field) (i n : Nat) : (s.setPair lo hi i n).dma = s.dma := rfl
@[simp] theorem State.setPair_eth (s : State) (lo hi : Field) (i n : Nat) : (s.setPair lo hi i n).eth = s.eth := rfl

/-! ### holdFor -/

@[simp] theorem State.holdFor_pending (s : State) (req cls inst off : Nat) (w : Word) : (s.holdFor req cls inst off w).pending = s.pending := rfl
@[simp] theorem State.holdFor_csr (s : State) (req cls inst off : Nat) (w : Word) : (s.holdFor req cls inst off w).csr = s.csr := rfl
@[simp] theorem State.holdFor_returned (s : State) (req cls inst off : Nat) (w : Word) : (s.holdFor req cls inst off w).returned = s.returned := rfl
@[simp] theorem State.holdFor_mem (s : State) (req cls inst off : Nat) (w : Word) : (s.holdFor req cls inst off w).mem = s.mem := rfl
@[simp] theorem State.holdFor_chk (s : State) (req cls inst off : Nat) (w : Word) : (s.holdFor req cls inst off w).chk = s.chk := rfl
@[simp] theorem State.holdFor_host (s : State) (req cls inst off : Nat) (w : Word) : (s.holdFor req cls inst off w).host = s.host := rfl
@[simp] theorem State.holdFor_devclk (s : State) (req cls inst off : Nat) (w : Word) : (s.holdFor req cls inst off w).devclk = s.devclk := rfl
@[simp] theorem State.holdFor_modes (s : State) (req cls inst off : Nat) (w : Word) : (s.holdFor req cls inst off w).modes = s.modes := rfl
@[simp] theorem State.holdFor_fences (s : State) (req cls inst off : Nat) (w : Word) : (s.holdFor req cls inst off w).fences = s.fences := rfl
@[simp] theorem State.holdFor_journal (s : State) (req cls inst off : Nat) (w : Word) : (s.holdFor req cls inst off w).journal = s.journal := rfl
@[simp] theorem State.holdFor_dvorys (s : State) (req cls inst off : Nat) (w : Word) : (s.holdFor req cls inst off w).dvorys = s.dvorys := rfl
@[simp] theorem State.holdFor_disp (s : State) (req cls inst off : Nat) (w : Word) : (s.holdFor req cls inst off w).disp = s.disp := rfl
@[simp] theorem State.holdFor_ledger (s : State) (req cls inst off : Nat) (w : Word) : (s.holdFor req cls inst off w).ledger = s.ledger := rfl
@[simp] theorem State.holdFor_mortar (s : State) (req cls inst off : Nat) (w : Word) : (s.holdFor req cls inst off w).mortar = s.mortar := rfl
@[simp] theorem State.holdFor_memSys (s : State) (req cls inst off : Nat) (w : Word) : (s.holdFor req cls inst off w).memSys = s.memSys := rfl
@[simp] theorem State.holdFor_pcie (s : State) (req cls inst off : Nat) (w : Word) : (s.holdFor req cls inst off w).pcie = s.pcie := rfl
@[simp] theorem State.holdFor_faults (s : State) (req cls inst off : Nat) (w : Word) : (s.holdFor req cls inst off w).faults = s.faults := rfl
@[simp] theorem State.holdFor_observe (s : State) (req cls inst off : Nat) (w : Word) : (s.holdFor req cls inst off w).observe = s.observe := rfl
@[simp] theorem State.holdFor_power (s : State) (req cls inst off : Nat) (w : Word) : (s.holdFor req cls inst off w).power = s.power := rfl
@[simp] theorem State.holdFor_free (s : State) (req cls inst off : Nat) (w : Word) : (s.holdFor req cls inst off w).free = s.free := rfl
@[simp] theorem State.holdFor_time (s : State) (req cls inst off : Nat) (w : Word) : (s.holdFor req cls inst off w).time = s.time := rfl
@[simp] theorem State.holdFor_streams (s : State) (req cls inst off : Nat) (w : Word) : (s.holdFor req cls inst off w).streams = s.streams := rfl
@[simp] theorem State.holdFor_lanes (s : State) (req cls inst off : Nat) (w : Word) : (s.holdFor req cls inst off w).lanes = s.lanes := rfl
@[simp] theorem State.holdFor_sett (s : State) (req cls inst off : Nat) (w : Word) : (s.holdFor req cls inst off w).sett = s.sett := rfl
@[simp] theorem State.holdFor_engines (s : State) (req cls inst off : Nat) (w : Word) : (s.holdFor req cls inst off w).engines = s.engines := rfl
@[simp] theorem State.holdFor_witness (s : State) (req cls inst off : Nat) (w : Word) : (s.holdFor req cls inst off w).witness = s.witness := rfl
@[simp] theorem State.holdFor_dma (s : State) (req cls inst off : Nat) (w : Word) : (s.holdFor req cls inst off w).dma = s.dma := rfl
@[simp] theorem State.holdFor_eth (s : State) (req cls inst off : Nat) (w : Word) : (s.holdFor req cls inst off w).eth = s.eth := rfl

/-! ### giveBack -/

@[simp] theorem State.giveBack_pending (s : State) (req : Nat) (w : Word) : (s.giveBack req w).pending = s.pending := rfl
@[simp] theorem State.giveBack_csr (s : State) (req : Nat) (w : Word) : (s.giveBack req w).csr = s.csr := rfl
@[simp] theorem State.giveBack_hold (s : State) (req : Nat) (w : Word) : (s.giveBack req w).hold = s.hold := rfl
@[simp] theorem State.giveBack_mem (s : State) (req : Nat) (w : Word) : (s.giveBack req w).mem = s.mem := rfl
@[simp] theorem State.giveBack_chk (s : State) (req : Nat) (w : Word) : (s.giveBack req w).chk = s.chk := rfl
@[simp] theorem State.giveBack_host (s : State) (req : Nat) (w : Word) : (s.giveBack req w).host = s.host := rfl
@[simp] theorem State.giveBack_devclk (s : State) (req : Nat) (w : Word) : (s.giveBack req w).devclk = s.devclk := rfl
@[simp] theorem State.giveBack_modes (s : State) (req : Nat) (w : Word) : (s.giveBack req w).modes = s.modes := rfl
@[simp] theorem State.giveBack_fences (s : State) (req : Nat) (w : Word) : (s.giveBack req w).fences = s.fences := rfl
@[simp] theorem State.giveBack_journal (s : State) (req : Nat) (w : Word) : (s.giveBack req w).journal = s.journal := rfl
@[simp] theorem State.giveBack_dvorys (s : State) (req : Nat) (w : Word) : (s.giveBack req w).dvorys = s.dvorys := rfl
@[simp] theorem State.giveBack_disp (s : State) (req : Nat) (w : Word) : (s.giveBack req w).disp = s.disp := rfl
@[simp] theorem State.giveBack_ledger (s : State) (req : Nat) (w : Word) : (s.giveBack req w).ledger = s.ledger := rfl
@[simp] theorem State.giveBack_mortar (s : State) (req : Nat) (w : Word) : (s.giveBack req w).mortar = s.mortar := rfl
@[simp] theorem State.giveBack_memSys (s : State) (req : Nat) (w : Word) : (s.giveBack req w).memSys = s.memSys := rfl
@[simp] theorem State.giveBack_pcie (s : State) (req : Nat) (w : Word) : (s.giveBack req w).pcie = s.pcie := rfl
@[simp] theorem State.giveBack_faults (s : State) (req : Nat) (w : Word) : (s.giveBack req w).faults = s.faults := rfl
@[simp] theorem State.giveBack_observe (s : State) (req : Nat) (w : Word) : (s.giveBack req w).observe = s.observe := rfl
@[simp] theorem State.giveBack_power (s : State) (req : Nat) (w : Word) : (s.giveBack req w).power = s.power := rfl
@[simp] theorem State.giveBack_free (s : State) (req : Nat) (w : Word) : (s.giveBack req w).free = s.free := rfl
@[simp] theorem State.giveBack_time (s : State) (req : Nat) (w : Word) : (s.giveBack req w).time = s.time := rfl
@[simp] theorem State.giveBack_streams (s : State) (req : Nat) (w : Word) : (s.giveBack req w).streams = s.streams := rfl
@[simp] theorem State.giveBack_lanes (s : State) (req : Nat) (w : Word) : (s.giveBack req w).lanes = s.lanes := rfl
@[simp] theorem State.giveBack_sett (s : State) (req : Nat) (w : Word) : (s.giveBack req w).sett = s.sett := rfl
@[simp] theorem State.giveBack_engines (s : State) (req : Nat) (w : Word) : (s.giveBack req w).engines = s.engines := rfl
@[simp] theorem State.giveBack_witness (s : State) (req : Nat) (w : Word) : (s.giveBack req w).witness = s.witness := rfl
@[simp] theorem State.giveBack_dma (s : State) (req : Nat) (w : Word) : (s.giveBack req w).dma = s.dma := rfl
@[simp] theorem State.giveBack_eth (s : State) (req : Nat) (w : Word) : (s.giveBack req w).eth = s.eth := rfl

/-! ### setPage -/

@[simp] theorem State.setPage_pending (s : State) (fn : Nat) (p : RingPage) : (s.setPage fn p).pending = s.pending := rfl
@[simp] theorem State.setPage_csr (s : State) (fn : Nat) (p : RingPage) : (s.setPage fn p).csr = s.csr := rfl
@[simp] theorem State.setPage_hold (s : State) (fn : Nat) (p : RingPage) : (s.setPage fn p).hold = s.hold := rfl
@[simp] theorem State.setPage_returned (s : State) (fn : Nat) (p : RingPage) : (s.setPage fn p).returned = s.returned := rfl
@[simp] theorem State.setPage_mem (s : State) (fn : Nat) (p : RingPage) : (s.setPage fn p).mem = s.mem := rfl
@[simp] theorem State.setPage_chk (s : State) (fn : Nat) (p : RingPage) : (s.setPage fn p).chk = s.chk := rfl
@[simp] theorem State.setPage_host (s : State) (fn : Nat) (p : RingPage) : (s.setPage fn p).host = s.host := rfl
@[simp] theorem State.setPage_devclk (s : State) (fn : Nat) (p : RingPage) : (s.setPage fn p).devclk = s.devclk := rfl
@[simp] theorem State.setPage_modes (s : State) (fn : Nat) (p : RingPage) : (s.setPage fn p).modes = s.modes := rfl
@[simp] theorem State.setPage_fences (s : State) (fn : Nat) (p : RingPage) : (s.setPage fn p).fences = s.fences := rfl
@[simp] theorem State.setPage_journal (s : State) (fn : Nat) (p : RingPage) : (s.setPage fn p).journal = s.journal := rfl
@[simp] theorem State.setPage_disp (s : State) (fn : Nat) (p : RingPage) : (s.setPage fn p).disp = s.disp := rfl
@[simp] theorem State.setPage_ledger (s : State) (fn : Nat) (p : RingPage) : (s.setPage fn p).ledger = s.ledger := rfl
@[simp] theorem State.setPage_mortar (s : State) (fn : Nat) (p : RingPage) : (s.setPage fn p).mortar = s.mortar := rfl
@[simp] theorem State.setPage_memSys (s : State) (fn : Nat) (p : RingPage) : (s.setPage fn p).memSys = s.memSys := rfl
@[simp] theorem State.setPage_pcie (s : State) (fn : Nat) (p : RingPage) : (s.setPage fn p).pcie = s.pcie := rfl
@[simp] theorem State.setPage_faults (s : State) (fn : Nat) (p : RingPage) : (s.setPage fn p).faults = s.faults := rfl
@[simp] theorem State.setPage_observe (s : State) (fn : Nat) (p : RingPage) : (s.setPage fn p).observe = s.observe := rfl
@[simp] theorem State.setPage_power (s : State) (fn : Nat) (p : RingPage) : (s.setPage fn p).power = s.power := rfl
@[simp] theorem State.setPage_free (s : State) (fn : Nat) (p : RingPage) : (s.setPage fn p).free = s.free := rfl
@[simp] theorem State.setPage_time (s : State) (fn : Nat) (p : RingPage) : (s.setPage fn p).time = s.time := rfl
@[simp] theorem State.setPage_streams (s : State) (fn : Nat) (p : RingPage) : (s.setPage fn p).streams = s.streams := rfl
@[simp] theorem State.setPage_lanes (s : State) (fn : Nat) (p : RingPage) : (s.setPage fn p).lanes = s.lanes := rfl
@[simp] theorem State.setPage_sett (s : State) (fn : Nat) (p : RingPage) : (s.setPage fn p).sett = s.sett := rfl
@[simp] theorem State.setPage_engines (s : State) (fn : Nat) (p : RingPage) : (s.setPage fn p).engines = s.engines := rfl
@[simp] theorem State.setPage_witness (s : State) (fn : Nat) (p : RingPage) : (s.setPage fn p).witness = s.witness := rfl
@[simp] theorem State.setPage_dma (s : State) (fn : Nat) (p : RingPage) : (s.setPage fn p).dma = s.dma := rfl
@[simp] theorem State.setPage_eth (s : State) (fn : Nat) (p : RingPage) : (s.setPage fn p).eth = s.eth := rfl

/-! ### setFnState -/

@[simp] theorem State.setFnState_pending (s : State) (fn : Nat) (f : FnState) : (s.setFnState fn f).pending = s.pending := rfl
@[simp] theorem State.setFnState_csr (s : State) (fn : Nat) (f : FnState) : (s.setFnState fn f).csr = s.csr := rfl
@[simp] theorem State.setFnState_hold (s : State) (fn : Nat) (f : FnState) : (s.setFnState fn f).hold = s.hold := rfl
@[simp] theorem State.setFnState_returned (s : State) (fn : Nat) (f : FnState) : (s.setFnState fn f).returned = s.returned := rfl
@[simp] theorem State.setFnState_mem (s : State) (fn : Nat) (f : FnState) : (s.setFnState fn f).mem = s.mem := rfl
@[simp] theorem State.setFnState_chk (s : State) (fn : Nat) (f : FnState) : (s.setFnState fn f).chk = s.chk := rfl
@[simp] theorem State.setFnState_host (s : State) (fn : Nat) (f : FnState) : (s.setFnState fn f).host = s.host := rfl
@[simp] theorem State.setFnState_devclk (s : State) (fn : Nat) (f : FnState) : (s.setFnState fn f).devclk = s.devclk := rfl
@[simp] theorem State.setFnState_modes (s : State) (fn : Nat) (f : FnState) : (s.setFnState fn f).modes = s.modes := rfl
@[simp] theorem State.setFnState_fences (s : State) (fn : Nat) (f : FnState) : (s.setFnState fn f).fences = s.fences := rfl
@[simp] theorem State.setFnState_journal (s : State) (fn : Nat) (f : FnState) : (s.setFnState fn f).journal = s.journal := rfl
@[simp] theorem State.setFnState_disp (s : State) (fn : Nat) (f : FnState) : (s.setFnState fn f).disp = s.disp := rfl
@[simp] theorem State.setFnState_ledger (s : State) (fn : Nat) (f : FnState) : (s.setFnState fn f).ledger = s.ledger := rfl
@[simp] theorem State.setFnState_mortar (s : State) (fn : Nat) (f : FnState) : (s.setFnState fn f).mortar = s.mortar := rfl
@[simp] theorem State.setFnState_memSys (s : State) (fn : Nat) (f : FnState) : (s.setFnState fn f).memSys = s.memSys := rfl
@[simp] theorem State.setFnState_pcie (s : State) (fn : Nat) (f : FnState) : (s.setFnState fn f).pcie = s.pcie := rfl
@[simp] theorem State.setFnState_faults (s : State) (fn : Nat) (f : FnState) : (s.setFnState fn f).faults = s.faults := rfl
@[simp] theorem State.setFnState_observe (s : State) (fn : Nat) (f : FnState) : (s.setFnState fn f).observe = s.observe := rfl
@[simp] theorem State.setFnState_power (s : State) (fn : Nat) (f : FnState) : (s.setFnState fn f).power = s.power := rfl
@[simp] theorem State.setFnState_free (s : State) (fn : Nat) (f : FnState) : (s.setFnState fn f).free = s.free := rfl
@[simp] theorem State.setFnState_time (s : State) (fn : Nat) (f : FnState) : (s.setFnState fn f).time = s.time := rfl
@[simp] theorem State.setFnState_streams (s : State) (fn : Nat) (f : FnState) : (s.setFnState fn f).streams = s.streams := rfl
@[simp] theorem State.setFnState_lanes (s : State) (fn : Nat) (f : FnState) : (s.setFnState fn f).lanes = s.lanes := rfl
@[simp] theorem State.setFnState_sett (s : State) (fn : Nat) (f : FnState) : (s.setFnState fn f).sett = s.sett := rfl
@[simp] theorem State.setFnState_engines (s : State) (fn : Nat) (f : FnState) : (s.setFnState fn f).engines = s.engines := rfl
@[simp] theorem State.setFnState_witness (s : State) (fn : Nat) (f : FnState) : (s.setFnState fn f).witness = s.witness := rfl
@[simp] theorem State.setFnState_dma (s : State) (fn : Nat) (f : FnState) : (s.setFnState fn f).dma = s.dma := rfl
@[simp] theorem State.setFnState_eth (s : State) (fn : Nat) (f : FnState) : (s.setFnState fn f).eth = s.eth := rfl

/-! ### dropOp -/

@[simp] theorem State.dropOp_pending (s : State) (op : BitVec 16) : (s.dropOp op).pending = s.pending := rfl
@[simp] theorem State.dropOp_csr (s : State) (op : BitVec 16) : (s.dropOp op).csr = s.csr := rfl
@[simp] theorem State.dropOp_hold (s : State) (op : BitVec 16) : (s.dropOp op).hold = s.hold := rfl
@[simp] theorem State.dropOp_returned (s : State) (op : BitVec 16) : (s.dropOp op).returned = s.returned := rfl
@[simp] theorem State.dropOp_mem (s : State) (op : BitVec 16) : (s.dropOp op).mem = s.mem := rfl
@[simp] theorem State.dropOp_chk (s : State) (op : BitVec 16) : (s.dropOp op).chk = s.chk := rfl
@[simp] theorem State.dropOp_host (s : State) (op : BitVec 16) : (s.dropOp op).host = s.host := rfl
@[simp] theorem State.dropOp_devclk (s : State) (op : BitVec 16) : (s.dropOp op).devclk = s.devclk := rfl
@[simp] theorem State.dropOp_modes (s : State) (op : BitVec 16) : (s.dropOp op).modes = s.modes := rfl
@[simp] theorem State.dropOp_fences (s : State) (op : BitVec 16) : (s.dropOp op).fences = s.fences := rfl
@[simp] theorem State.dropOp_journal (s : State) (op : BitVec 16) : (s.dropOp op).journal = s.journal := rfl
@[simp] theorem State.dropOp_disp (s : State) (op : BitVec 16) : (s.dropOp op).disp = s.disp := rfl
@[simp] theorem State.dropOp_ledger (s : State) (op : BitVec 16) : (s.dropOp op).ledger = s.ledger := rfl
@[simp] theorem State.dropOp_mortar (s : State) (op : BitVec 16) : (s.dropOp op).mortar = s.mortar := rfl
@[simp] theorem State.dropOp_memSys (s : State) (op : BitVec 16) : (s.dropOp op).memSys = s.memSys := rfl
@[simp] theorem State.dropOp_pcie (s : State) (op : BitVec 16) : (s.dropOp op).pcie = s.pcie := rfl
@[simp] theorem State.dropOp_faults (s : State) (op : BitVec 16) : (s.dropOp op).faults = s.faults := rfl
@[simp] theorem State.dropOp_observe (s : State) (op : BitVec 16) : (s.dropOp op).observe = s.observe := rfl
@[simp] theorem State.dropOp_power (s : State) (op : BitVec 16) : (s.dropOp op).power = s.power := rfl
@[simp] theorem State.dropOp_free (s : State) (op : BitVec 16) : (s.dropOp op).free = s.free := rfl
@[simp] theorem State.dropOp_time (s : State) (op : BitVec 16) : (s.dropOp op).time = s.time := rfl
@[simp] theorem State.dropOp_streams (s : State) (op : BitVec 16) : (s.dropOp op).streams = s.streams := rfl
@[simp] theorem State.dropOp_lanes (s : State) (op : BitVec 16) : (s.dropOp op).lanes = s.lanes := rfl
@[simp] theorem State.dropOp_sett (s : State) (op : BitVec 16) : (s.dropOp op).sett = s.sett := rfl
@[simp] theorem State.dropOp_engines (s : State) (op : BitVec 16) : (s.dropOp op).engines = s.engines := rfl
@[simp] theorem State.dropOp_witness (s : State) (op : BitVec 16) : (s.dropOp op).witness = s.witness := rfl
@[simp] theorem State.dropOp_dma (s : State) (op : BitVec 16) : (s.dropOp op).dma = s.dma := rfl
@[simp] theorem State.dropOp_eth (s : State) (op : BitVec 16) : (s.dropOp op).eth = s.eth := rfl

/-! ### setPort -/

@[simp] theorem State.setPort_pending (s : State) (d : Nat) (p : Port) : (s.setPort d p).pending = s.pending := rfl
@[simp] theorem State.setPort_csr (s : State) (d : Nat) (p : Port) : (s.setPort d p).csr = s.csr := rfl
@[simp] theorem State.setPort_hold (s : State) (d : Nat) (p : Port) : (s.setPort d p).hold = s.hold := rfl
@[simp] theorem State.setPort_returned (s : State) (d : Nat) (p : Port) : (s.setPort d p).returned = s.returned := rfl
@[simp] theorem State.setPort_mem (s : State) (d : Nat) (p : Port) : (s.setPort d p).mem = s.mem := rfl
@[simp] theorem State.setPort_chk (s : State) (d : Nat) (p : Port) : (s.setPort d p).chk = s.chk := rfl
@[simp] theorem State.setPort_host (s : State) (d : Nat) (p : Port) : (s.setPort d p).host = s.host := rfl
@[simp] theorem State.setPort_devclk (s : State) (d : Nat) (p : Port) : (s.setPort d p).devclk = s.devclk := rfl
@[simp] theorem State.setPort_modes (s : State) (d : Nat) (p : Port) : (s.setPort d p).modes = s.modes := rfl
@[simp] theorem State.setPort_fences (s : State) (d : Nat) (p : Port) : (s.setPort d p).fences = s.fences := rfl
@[simp] theorem State.setPort_journal (s : State) (d : Nat) (p : Port) : (s.setPort d p).journal = s.journal := rfl
@[simp] theorem State.setPort_dvorys (s : State) (d : Nat) (p : Port) : (s.setPort d p).dvorys = s.dvorys := rfl
@[simp] theorem State.setPort_disp (s : State) (d : Nat) (p : Port) : (s.setPort d p).disp = s.disp := rfl
@[simp] theorem State.setPort_ledger (s : State) (d : Nat) (p : Port) : (s.setPort d p).ledger = s.ledger := rfl
@[simp] theorem State.setPort_memSys (s : State) (d : Nat) (p : Port) : (s.setPort d p).memSys = s.memSys := rfl
@[simp] theorem State.setPort_pcie (s : State) (d : Nat) (p : Port) : (s.setPort d p).pcie = s.pcie := rfl
@[simp] theorem State.setPort_faults (s : State) (d : Nat) (p : Port) : (s.setPort d p).faults = s.faults := rfl
@[simp] theorem State.setPort_observe (s : State) (d : Nat) (p : Port) : (s.setPort d p).observe = s.observe := rfl
@[simp] theorem State.setPort_power (s : State) (d : Nat) (p : Port) : (s.setPort d p).power = s.power := rfl
@[simp] theorem State.setPort_free (s : State) (d : Nat) (p : Port) : (s.setPort d p).free = s.free := rfl
@[simp] theorem State.setPort_time (s : State) (d : Nat) (p : Port) : (s.setPort d p).time = s.time := rfl
@[simp] theorem State.setPort_streams (s : State) (d : Nat) (p : Port) : (s.setPort d p).streams = s.streams := rfl
@[simp] theorem State.setPort_lanes (s : State) (d : Nat) (p : Port) : (s.setPort d p).lanes = s.lanes := rfl
@[simp] theorem State.setPort_sett (s : State) (d : Nat) (p : Port) : (s.setPort d p).sett = s.sett := rfl
@[simp] theorem State.setPort_engines (s : State) (d : Nat) (p : Port) : (s.setPort d p).engines = s.engines := rfl
@[simp] theorem State.setPort_witness (s : State) (d : Nat) (p : Port) : (s.setPort d p).witness = s.witness := rfl
@[simp] theorem State.setPort_dma (s : State) (d : Nat) (p : Port) : (s.setPort d p).dma = s.dma := rfl
@[simp] theorem State.setPort_eth (s : State) (d : Nat) (p : Port) : (s.setPort d p).eth = s.eth := rfl

/-! ### setRoute -/

@[simp] theorem State.setRoute_pending (s : State) (ni bank entry : Nat) (r : Route) : (s.setRoute ni bank entry r).pending = s.pending := rfl
@[simp] theorem State.setRoute_csr (s : State) (ni bank entry : Nat) (r : Route) : (s.setRoute ni bank entry r).csr = s.csr := rfl
@[simp] theorem State.setRoute_hold (s : State) (ni bank entry : Nat) (r : Route) : (s.setRoute ni bank entry r).hold = s.hold := rfl
@[simp] theorem State.setRoute_returned (s : State) (ni bank entry : Nat) (r : Route) : (s.setRoute ni bank entry r).returned = s.returned := rfl
@[simp] theorem State.setRoute_mem (s : State) (ni bank entry : Nat) (r : Route) : (s.setRoute ni bank entry r).mem = s.mem := rfl
@[simp] theorem State.setRoute_chk (s : State) (ni bank entry : Nat) (r : Route) : (s.setRoute ni bank entry r).chk = s.chk := rfl
@[simp] theorem State.setRoute_host (s : State) (ni bank entry : Nat) (r : Route) : (s.setRoute ni bank entry r).host = s.host := rfl
@[simp] theorem State.setRoute_devclk (s : State) (ni bank entry : Nat) (r : Route) : (s.setRoute ni bank entry r).devclk = s.devclk := rfl
@[simp] theorem State.setRoute_modes (s : State) (ni bank entry : Nat) (r : Route) : (s.setRoute ni bank entry r).modes = s.modes := rfl
@[simp] theorem State.setRoute_fences (s : State) (ni bank entry : Nat) (r : Route) : (s.setRoute ni bank entry r).fences = s.fences := rfl
@[simp] theorem State.setRoute_journal (s : State) (ni bank entry : Nat) (r : Route) : (s.setRoute ni bank entry r).journal = s.journal := rfl
@[simp] theorem State.setRoute_dvorys (s : State) (ni bank entry : Nat) (r : Route) : (s.setRoute ni bank entry r).dvorys = s.dvorys := rfl
@[simp] theorem State.setRoute_disp (s : State) (ni bank entry : Nat) (r : Route) : (s.setRoute ni bank entry r).disp = s.disp := rfl
@[simp] theorem State.setRoute_ledger (s : State) (ni bank entry : Nat) (r : Route) : (s.setRoute ni bank entry r).ledger = s.ledger := rfl
@[simp] theorem State.setRoute_memSys (s : State) (ni bank entry : Nat) (r : Route) : (s.setRoute ni bank entry r).memSys = s.memSys := rfl
@[simp] theorem State.setRoute_pcie (s : State) (ni bank entry : Nat) (r : Route) : (s.setRoute ni bank entry r).pcie = s.pcie := rfl
@[simp] theorem State.setRoute_faults (s : State) (ni bank entry : Nat) (r : Route) : (s.setRoute ni bank entry r).faults = s.faults := rfl
@[simp] theorem State.setRoute_observe (s : State) (ni bank entry : Nat) (r : Route) : (s.setRoute ni bank entry r).observe = s.observe := rfl
@[simp] theorem State.setRoute_power (s : State) (ni bank entry : Nat) (r : Route) : (s.setRoute ni bank entry r).power = s.power := rfl
@[simp] theorem State.setRoute_free (s : State) (ni bank entry : Nat) (r : Route) : (s.setRoute ni bank entry r).free = s.free := rfl
@[simp] theorem State.setRoute_time (s : State) (ni bank entry : Nat) (r : Route) : (s.setRoute ni bank entry r).time = s.time := rfl
@[simp] theorem State.setRoute_streams (s : State) (ni bank entry : Nat) (r : Route) : (s.setRoute ni bank entry r).streams = s.streams := rfl
@[simp] theorem State.setRoute_lanes (s : State) (ni bank entry : Nat) (r : Route) : (s.setRoute ni bank entry r).lanes = s.lanes := rfl
@[simp] theorem State.setRoute_sett (s : State) (ni bank entry : Nat) (r : Route) : (s.setRoute ni bank entry r).sett = s.sett := rfl
@[simp] theorem State.setRoute_engines (s : State) (ni bank entry : Nat) (r : Route) : (s.setRoute ni bank entry r).engines = s.engines := rfl
@[simp] theorem State.setRoute_witness (s : State) (ni bank entry : Nat) (r : Route) : (s.setRoute ni bank entry r).witness = s.witness := rfl
@[simp] theorem State.setRoute_dma (s : State) (ni bank entry : Nat) (r : Route) : (s.setRoute ni bank entry r).dma = s.dma := rfl
@[simp] theorem State.setRoute_eth (s : State) (ni bank entry : Nat) (r : Route) : (s.setRoute ni bank entry r).eth = s.eth := rfl

/-! ### setSpall -/

@[simp] theorem State.setSpall_pending (s : State) (n : Nat) (e : Spall) : (s.setSpall n e).pending = s.pending := rfl
@[simp] theorem State.setSpall_csr (s : State) (n : Nat) (e : Spall) : (s.setSpall n e).csr = s.csr := rfl
@[simp] theorem State.setSpall_hold (s : State) (n : Nat) (e : Spall) : (s.setSpall n e).hold = s.hold := rfl
@[simp] theorem State.setSpall_returned (s : State) (n : Nat) (e : Spall) : (s.setSpall n e).returned = s.returned := rfl
@[simp] theorem State.setSpall_mem (s : State) (n : Nat) (e : Spall) : (s.setSpall n e).mem = s.mem := rfl
@[simp] theorem State.setSpall_chk (s : State) (n : Nat) (e : Spall) : (s.setSpall n e).chk = s.chk := rfl
@[simp] theorem State.setSpall_host (s : State) (n : Nat) (e : Spall) : (s.setSpall n e).host = s.host := rfl
@[simp] theorem State.setSpall_devclk (s : State) (n : Nat) (e : Spall) : (s.setSpall n e).devclk = s.devclk := rfl
@[simp] theorem State.setSpall_modes (s : State) (n : Nat) (e : Spall) : (s.setSpall n e).modes = s.modes := rfl
@[simp] theorem State.setSpall_fences (s : State) (n : Nat) (e : Spall) : (s.setSpall n e).fences = s.fences := rfl
@[simp] theorem State.setSpall_journal (s : State) (n : Nat) (e : Spall) : (s.setSpall n e).journal = s.journal := rfl
@[simp] theorem State.setSpall_dvorys (s : State) (n : Nat) (e : Spall) : (s.setSpall n e).dvorys = s.dvorys := rfl
@[simp] theorem State.setSpall_disp (s : State) (n : Nat) (e : Spall) : (s.setSpall n e).disp = s.disp := rfl
@[simp] theorem State.setSpall_ledger (s : State) (n : Nat) (e : Spall) : (s.setSpall n e).ledger = s.ledger := rfl
@[simp] theorem State.setSpall_mortar (s : State) (n : Nat) (e : Spall) : (s.setSpall n e).mortar = s.mortar := rfl
@[simp] theorem State.setSpall_pcie (s : State) (n : Nat) (e : Spall) : (s.setSpall n e).pcie = s.pcie := rfl
@[simp] theorem State.setSpall_faults (s : State) (n : Nat) (e : Spall) : (s.setSpall n e).faults = s.faults := rfl
@[simp] theorem State.setSpall_observe (s : State) (n : Nat) (e : Spall) : (s.setSpall n e).observe = s.observe := rfl
@[simp] theorem State.setSpall_power (s : State) (n : Nat) (e : Spall) : (s.setSpall n e).power = s.power := rfl
@[simp] theorem State.setSpall_free (s : State) (n : Nat) (e : Spall) : (s.setSpall n e).free = s.free := rfl
@[simp] theorem State.setSpall_time (s : State) (n : Nat) (e : Spall) : (s.setSpall n e).time = s.time := rfl
@[simp] theorem State.setSpall_streams (s : State) (n : Nat) (e : Spall) : (s.setSpall n e).streams = s.streams := rfl
@[simp] theorem State.setSpall_lanes (s : State) (n : Nat) (e : Spall) : (s.setSpall n e).lanes = s.lanes := rfl
@[simp] theorem State.setSpall_sett (s : State) (n : Nat) (e : Spall) : (s.setSpall n e).sett = s.sett := rfl
@[simp] theorem State.setSpall_engines (s : State) (n : Nat) (e : Spall) : (s.setSpall n e).engines = s.engines := rfl
@[simp] theorem State.setSpall_witness (s : State) (n : Nat) (e : Spall) : (s.setSpall n e).witness = s.witness := rfl
@[simp] theorem State.setSpall_dma (s : State) (n : Nat) (e : Spall) : (s.setSpall n e).dma = s.dma := rfl
@[simp] theorem State.setSpall_eth (s : State) (n : Nat) (e : Spall) : (s.setSpall n e).eth = s.eth := rfl

/-! ### fillZero -/

@[simp] theorem State.fillZero_pending (s : State) (k n : Nat) : (s.fillZero k n).pending = s.pending := rfl
@[simp] theorem State.fillZero_csr (s : State) (k n : Nat) : (s.fillZero k n).csr = s.csr := rfl
@[simp] theorem State.fillZero_hold (s : State) (k n : Nat) : (s.fillZero k n).hold = s.hold := rfl
@[simp] theorem State.fillZero_returned (s : State) (k n : Nat) : (s.fillZero k n).returned = s.returned := rfl
@[simp] theorem State.fillZero_host (s : State) (k n : Nat) : (s.fillZero k n).host = s.host := rfl
@[simp] theorem State.fillZero_devclk (s : State) (k n : Nat) : (s.fillZero k n).devclk = s.devclk := rfl
@[simp] theorem State.fillZero_modes (s : State) (k n : Nat) : (s.fillZero k n).modes = s.modes := rfl
@[simp] theorem State.fillZero_fences (s : State) (k n : Nat) : (s.fillZero k n).fences = s.fences := rfl
@[simp] theorem State.fillZero_journal (s : State) (k n : Nat) : (s.fillZero k n).journal = s.journal := rfl
@[simp] theorem State.fillZero_dvorys (s : State) (k n : Nat) : (s.fillZero k n).dvorys = s.dvorys := rfl
@[simp] theorem State.fillZero_disp (s : State) (k n : Nat) : (s.fillZero k n).disp = s.disp := rfl
@[simp] theorem State.fillZero_ledger (s : State) (k n : Nat) : (s.fillZero k n).ledger = s.ledger := rfl
@[simp] theorem State.fillZero_mortar (s : State) (k n : Nat) : (s.fillZero k n).mortar = s.mortar := rfl
@[simp] theorem State.fillZero_memSys (s : State) (k n : Nat) : (s.fillZero k n).memSys = s.memSys := rfl
@[simp] theorem State.fillZero_pcie (s : State) (k n : Nat) : (s.fillZero k n).pcie = s.pcie := rfl
@[simp] theorem State.fillZero_faults (s : State) (k n : Nat) : (s.fillZero k n).faults = s.faults := rfl
@[simp] theorem State.fillZero_observe (s : State) (k n : Nat) : (s.fillZero k n).observe = s.observe := rfl
@[simp] theorem State.fillZero_power (s : State) (k n : Nat) : (s.fillZero k n).power = s.power := rfl
@[simp] theorem State.fillZero_free (s : State) (k n : Nat) : (s.fillZero k n).free = s.free := rfl
@[simp] theorem State.fillZero_time (s : State) (k n : Nat) : (s.fillZero k n).time = s.time := rfl
@[simp] theorem State.fillZero_streams (s : State) (k n : Nat) : (s.fillZero k n).streams = s.streams := rfl
@[simp] theorem State.fillZero_lanes (s : State) (k n : Nat) : (s.fillZero k n).lanes = s.lanes := rfl
@[simp] theorem State.fillZero_sett (s : State) (k n : Nat) : (s.fillZero k n).sett = s.sett := rfl
@[simp] theorem State.fillZero_engines (s : State) (k n : Nat) : (s.fillZero k n).engines = s.engines := rfl
@[simp] theorem State.fillZero_witness (s : State) (k n : Nat) : (s.fillZero k n).witness = s.witness := rfl
@[simp] theorem State.fillZero_dma (s : State) (k n : Nat) : (s.fillZero k n).dma = s.dma := rfl
@[simp] theorem State.fillZero_eth (s : State) (k n : Nat) : (s.fillZero k n).eth = s.eth := rfl

/-! ### storeWord -/

@[simp] theorem State.storeWord_pending (s : State) (k : Nat) (bytes : List Byte) (poison : Bool) : (s.storeWord k bytes poison).pending = s.pending := rfl
@[simp] theorem State.storeWord_csr (s : State) (k : Nat) (bytes : List Byte) (poison : Bool) : (s.storeWord k bytes poison).csr = s.csr := rfl
@[simp] theorem State.storeWord_hold (s : State) (k : Nat) (bytes : List Byte) (poison : Bool) : (s.storeWord k bytes poison).hold = s.hold := rfl
@[simp] theorem State.storeWord_returned (s : State) (k : Nat) (bytes : List Byte) (poison : Bool) : (s.storeWord k bytes poison).returned = s.returned := rfl
@[simp] theorem State.storeWord_host (s : State) (k : Nat) (bytes : List Byte) (poison : Bool) : (s.storeWord k bytes poison).host = s.host := rfl
@[simp] theorem State.storeWord_devclk (s : State) (k : Nat) (bytes : List Byte) (poison : Bool) : (s.storeWord k bytes poison).devclk = s.devclk := rfl
@[simp] theorem State.storeWord_modes (s : State) (k : Nat) (bytes : List Byte) (poison : Bool) : (s.storeWord k bytes poison).modes = s.modes := rfl
@[simp] theorem State.storeWord_fences (s : State) (k : Nat) (bytes : List Byte) (poison : Bool) : (s.storeWord k bytes poison).fences = s.fences := rfl
@[simp] theorem State.storeWord_journal (s : State) (k : Nat) (bytes : List Byte) (poison : Bool) : (s.storeWord k bytes poison).journal = s.journal := rfl
@[simp] theorem State.storeWord_dvorys (s : State) (k : Nat) (bytes : List Byte) (poison : Bool) : (s.storeWord k bytes poison).dvorys = s.dvorys := rfl
@[simp] theorem State.storeWord_disp (s : State) (k : Nat) (bytes : List Byte) (poison : Bool) : (s.storeWord k bytes poison).disp = s.disp := rfl
@[simp] theorem State.storeWord_ledger (s : State) (k : Nat) (bytes : List Byte) (poison : Bool) : (s.storeWord k bytes poison).ledger = s.ledger := rfl
@[simp] theorem State.storeWord_mortar (s : State) (k : Nat) (bytes : List Byte) (poison : Bool) : (s.storeWord k bytes poison).mortar = s.mortar := rfl
@[simp] theorem State.storeWord_memSys (s : State) (k : Nat) (bytes : List Byte) (poison : Bool) : (s.storeWord k bytes poison).memSys = s.memSys := rfl
@[simp] theorem State.storeWord_pcie (s : State) (k : Nat) (bytes : List Byte) (poison : Bool) : (s.storeWord k bytes poison).pcie = s.pcie := rfl
@[simp] theorem State.storeWord_faults (s : State) (k : Nat) (bytes : List Byte) (poison : Bool) : (s.storeWord k bytes poison).faults = s.faults := rfl
@[simp] theorem State.storeWord_observe (s : State) (k : Nat) (bytes : List Byte) (poison : Bool) : (s.storeWord k bytes poison).observe = s.observe := rfl
@[simp] theorem State.storeWord_power (s : State) (k : Nat) (bytes : List Byte) (poison : Bool) : (s.storeWord k bytes poison).power = s.power := rfl
@[simp] theorem State.storeWord_free (s : State) (k : Nat) (bytes : List Byte) (poison : Bool) : (s.storeWord k bytes poison).free = s.free := rfl
@[simp] theorem State.storeWord_time (s : State) (k : Nat) (bytes : List Byte) (poison : Bool) : (s.storeWord k bytes poison).time = s.time := rfl
@[simp] theorem State.storeWord_streams (s : State) (k : Nat) (bytes : List Byte) (poison : Bool) : (s.storeWord k bytes poison).streams = s.streams := rfl
@[simp] theorem State.storeWord_lanes (s : State) (k : Nat) (bytes : List Byte) (poison : Bool) : (s.storeWord k bytes poison).lanes = s.lanes := rfl
@[simp] theorem State.storeWord_sett (s : State) (k : Nat) (bytes : List Byte) (poison : Bool) : (s.storeWord k bytes poison).sett = s.sett := rfl
@[simp] theorem State.storeWord_engines (s : State) (k : Nat) (bytes : List Byte) (poison : Bool) : (s.storeWord k bytes poison).engines = s.engines := rfl
@[simp] theorem State.storeWord_witness (s : State) (k : Nat) (bytes : List Byte) (poison : Bool) : (s.storeWord k bytes poison).witness = s.witness := rfl
@[simp] theorem State.storeWord_dma (s : State) (k : Nat) (bytes : List Byte) (poison : Bool) : (s.storeWord k bytes poison).dma = s.dma := rfl
@[simp] theorem State.storeWord_eth (s : State) (k : Nat) (bytes : List Byte) (poison : Bool) : (s.storeWord k bytes poison).eth = s.eth := rfl

/-! ### setAccount -/

@[simp] theorem State.setAccount_pending (s : State) (a : Nat) (x : Account) : (s.setAccount a x).pending = s.pending := rfl
@[simp] theorem State.setAccount_csr (s : State) (a : Nat) (x : Account) : (s.setAccount a x).csr = s.csr := rfl
@[simp] theorem State.setAccount_hold (s : State) (a : Nat) (x : Account) : (s.setAccount a x).hold = s.hold := rfl
@[simp] theorem State.setAccount_returned (s : State) (a : Nat) (x : Account) : (s.setAccount a x).returned = s.returned := rfl
@[simp] theorem State.setAccount_mem (s : State) (a : Nat) (x : Account) : (s.setAccount a x).mem = s.mem := rfl
@[simp] theorem State.setAccount_chk (s : State) (a : Nat) (x : Account) : (s.setAccount a x).chk = s.chk := rfl
@[simp] theorem State.setAccount_host (s : State) (a : Nat) (x : Account) : (s.setAccount a x).host = s.host := rfl
@[simp] theorem State.setAccount_devclk (s : State) (a : Nat) (x : Account) : (s.setAccount a x).devclk = s.devclk := rfl
@[simp] theorem State.setAccount_modes (s : State) (a : Nat) (x : Account) : (s.setAccount a x).modes = s.modes := rfl
@[simp] theorem State.setAccount_fences (s : State) (a : Nat) (x : Account) : (s.setAccount a x).fences = s.fences := rfl
@[simp] theorem State.setAccount_journal (s : State) (a : Nat) (x : Account) : (s.setAccount a x).journal = s.journal := rfl
@[simp] theorem State.setAccount_dvorys (s : State) (a : Nat) (x : Account) : (s.setAccount a x).dvorys = s.dvorys := rfl
@[simp] theorem State.setAccount_disp (s : State) (a : Nat) (x : Account) : (s.setAccount a x).disp = s.disp := rfl
@[simp] theorem State.setAccount_mortar (s : State) (a : Nat) (x : Account) : (s.setAccount a x).mortar = s.mortar := rfl
@[simp] theorem State.setAccount_memSys (s : State) (a : Nat) (x : Account) : (s.setAccount a x).memSys = s.memSys := rfl
@[simp] theorem State.setAccount_pcie (s : State) (a : Nat) (x : Account) : (s.setAccount a x).pcie = s.pcie := rfl
@[simp] theorem State.setAccount_faults (s : State) (a : Nat) (x : Account) : (s.setAccount a x).faults = s.faults := rfl
@[simp] theorem State.setAccount_observe (s : State) (a : Nat) (x : Account) : (s.setAccount a x).observe = s.observe := rfl
@[simp] theorem State.setAccount_power (s : State) (a : Nat) (x : Account) : (s.setAccount a x).power = s.power := rfl
@[simp] theorem State.setAccount_free (s : State) (a : Nat) (x : Account) : (s.setAccount a x).free = s.free := rfl
@[simp] theorem State.setAccount_time (s : State) (a : Nat) (x : Account) : (s.setAccount a x).time = s.time := rfl
@[simp] theorem State.setAccount_streams (s : State) (a : Nat) (x : Account) : (s.setAccount a x).streams = s.streams := rfl
@[simp] theorem State.setAccount_lanes (s : State) (a : Nat) (x : Account) : (s.setAccount a x).lanes = s.lanes := rfl
@[simp] theorem State.setAccount_sett (s : State) (a : Nat) (x : Account) : (s.setAccount a x).sett = s.sett := rfl
@[simp] theorem State.setAccount_engines (s : State) (a : Nat) (x : Account) : (s.setAccount a x).engines = s.engines := rfl
@[simp] theorem State.setAccount_witness (s : State) (a : Nat) (x : Account) : (s.setAccount a x).witness = s.witness := rfl
@[simp] theorem State.setAccount_dma (s : State) (a : Nat) (x : Account) : (s.setAccount a x).dma = s.dma := rfl
@[simp] theorem State.setAccount_eth (s : State) (a : Nat) (x : Account) : (s.setAccount a x).eth = s.eth := rfl

/-! ### setMeter -/

@[simp] theorem State.setMeter_pending (s : State) (p : Nat) (m : Meter) : (s.setMeter p m).pending = s.pending := rfl
@[simp] theorem State.setMeter_csr (s : State) (p : Nat) (m : Meter) : (s.setMeter p m).csr = s.csr := rfl
@[simp] theorem State.setMeter_hold (s : State) (p : Nat) (m : Meter) : (s.setMeter p m).hold = s.hold := rfl
@[simp] theorem State.setMeter_returned (s : State) (p : Nat) (m : Meter) : (s.setMeter p m).returned = s.returned := rfl
@[simp] theorem State.setMeter_mem (s : State) (p : Nat) (m : Meter) : (s.setMeter p m).mem = s.mem := rfl
@[simp] theorem State.setMeter_chk (s : State) (p : Nat) (m : Meter) : (s.setMeter p m).chk = s.chk := rfl
@[simp] theorem State.setMeter_host (s : State) (p : Nat) (m : Meter) : (s.setMeter p m).host = s.host := rfl
@[simp] theorem State.setMeter_devclk (s : State) (p : Nat) (m : Meter) : (s.setMeter p m).devclk = s.devclk := rfl
@[simp] theorem State.setMeter_modes (s : State) (p : Nat) (m : Meter) : (s.setMeter p m).modes = s.modes := rfl
@[simp] theorem State.setMeter_fences (s : State) (p : Nat) (m : Meter) : (s.setMeter p m).fences = s.fences := rfl
@[simp] theorem State.setMeter_journal (s : State) (p : Nat) (m : Meter) : (s.setMeter p m).journal = s.journal := rfl
@[simp] theorem State.setMeter_dvorys (s : State) (p : Nat) (m : Meter) : (s.setMeter p m).dvorys = s.dvorys := rfl
@[simp] theorem State.setMeter_disp (s : State) (p : Nat) (m : Meter) : (s.setMeter p m).disp = s.disp := rfl
@[simp] theorem State.setMeter_mortar (s : State) (p : Nat) (m : Meter) : (s.setMeter p m).mortar = s.mortar := rfl
@[simp] theorem State.setMeter_memSys (s : State) (p : Nat) (m : Meter) : (s.setMeter p m).memSys = s.memSys := rfl
@[simp] theorem State.setMeter_pcie (s : State) (p : Nat) (m : Meter) : (s.setMeter p m).pcie = s.pcie := rfl
@[simp] theorem State.setMeter_faults (s : State) (p : Nat) (m : Meter) : (s.setMeter p m).faults = s.faults := rfl
@[simp] theorem State.setMeter_observe (s : State) (p : Nat) (m : Meter) : (s.setMeter p m).observe = s.observe := rfl
@[simp] theorem State.setMeter_power (s : State) (p : Nat) (m : Meter) : (s.setMeter p m).power = s.power := rfl
@[simp] theorem State.setMeter_free (s : State) (p : Nat) (m : Meter) : (s.setMeter p m).free = s.free := rfl
@[simp] theorem State.setMeter_time (s : State) (p : Nat) (m : Meter) : (s.setMeter p m).time = s.time := rfl
@[simp] theorem State.setMeter_streams (s : State) (p : Nat) (m : Meter) : (s.setMeter p m).streams = s.streams := rfl
@[simp] theorem State.setMeter_lanes (s : State) (p : Nat) (m : Meter) : (s.setMeter p m).lanes = s.lanes := rfl
@[simp] theorem State.setMeter_sett (s : State) (p : Nat) (m : Meter) : (s.setMeter p m).sett = s.sett := rfl
@[simp] theorem State.setMeter_engines (s : State) (p : Nat) (m : Meter) : (s.setMeter p m).engines = s.engines := rfl
@[simp] theorem State.setMeter_witness (s : State) (p : Nat) (m : Meter) : (s.setMeter p m).witness = s.witness := rfl
@[simp] theorem State.setMeter_dma (s : State) (p : Nat) (m : Meter) : (s.setMeter p m).dma = s.dma := rfl
@[simp] theorem State.setMeter_eth (s : State) (p : Nat) (m : Meter) : (s.setMeter p m).eth = s.eth := rfl

/-! ### putTask -/

@[simp] theorem State.putTask_pending (s : State) (i : Nat) (t : Task) : (s.putTask i t).pending = s.pending := rfl
@[simp] theorem State.putTask_csr (s : State) (i : Nat) (t : Task) : (s.putTask i t).csr = s.csr := rfl
@[simp] theorem State.putTask_hold (s : State) (i : Nat) (t : Task) : (s.putTask i t).hold = s.hold := rfl
@[simp] theorem State.putTask_returned (s : State) (i : Nat) (t : Task) : (s.putTask i t).returned = s.returned := rfl
@[simp] theorem State.putTask_mem (s : State) (i : Nat) (t : Task) : (s.putTask i t).mem = s.mem := rfl
@[simp] theorem State.putTask_chk (s : State) (i : Nat) (t : Task) : (s.putTask i t).chk = s.chk := rfl
@[simp] theorem State.putTask_host (s : State) (i : Nat) (t : Task) : (s.putTask i t).host = s.host := rfl
@[simp] theorem State.putTask_devclk (s : State) (i : Nat) (t : Task) : (s.putTask i t).devclk = s.devclk := rfl
@[simp] theorem State.putTask_modes (s : State) (i : Nat) (t : Task) : (s.putTask i t).modes = s.modes := rfl
@[simp] theorem State.putTask_fences (s : State) (i : Nat) (t : Task) : (s.putTask i t).fences = s.fences := rfl
@[simp] theorem State.putTask_journal (s : State) (i : Nat) (t : Task) : (s.putTask i t).journal = s.journal := rfl
@[simp] theorem State.putTask_dvorys (s : State) (i : Nat) (t : Task) : (s.putTask i t).dvorys = s.dvorys := rfl
@[simp] theorem State.putTask_ledger (s : State) (i : Nat) (t : Task) : (s.putTask i t).ledger = s.ledger := rfl
@[simp] theorem State.putTask_mortar (s : State) (i : Nat) (t : Task) : (s.putTask i t).mortar = s.mortar := rfl
@[simp] theorem State.putTask_memSys (s : State) (i : Nat) (t : Task) : (s.putTask i t).memSys = s.memSys := rfl
@[simp] theorem State.putTask_pcie (s : State) (i : Nat) (t : Task) : (s.putTask i t).pcie = s.pcie := rfl
@[simp] theorem State.putTask_faults (s : State) (i : Nat) (t : Task) : (s.putTask i t).faults = s.faults := rfl
@[simp] theorem State.putTask_observe (s : State) (i : Nat) (t : Task) : (s.putTask i t).observe = s.observe := rfl
@[simp] theorem State.putTask_power (s : State) (i : Nat) (t : Task) : (s.putTask i t).power = s.power := rfl
@[simp] theorem State.putTask_free (s : State) (i : Nat) (t : Task) : (s.putTask i t).free = s.free := rfl
@[simp] theorem State.putTask_time (s : State) (i : Nat) (t : Task) : (s.putTask i t).time = s.time := rfl
@[simp] theorem State.putTask_streams (s : State) (i : Nat) (t : Task) : (s.putTask i t).streams = s.streams := rfl
@[simp] theorem State.putTask_lanes (s : State) (i : Nat) (t : Task) : (s.putTask i t).lanes = s.lanes := rfl
@[simp] theorem State.putTask_sett (s : State) (i : Nat) (t : Task) : (s.putTask i t).sett = s.sett := rfl
@[simp] theorem State.putTask_engines (s : State) (i : Nat) (t : Task) : (s.putTask i t).engines = s.engines := rfl
@[simp] theorem State.putTask_witness (s : State) (i : Nat) (t : Task) : (s.putTask i t).witness = s.witness := rfl
@[simp] theorem State.putTask_dma (s : State) (i : Nat) (t : Task) : (s.putTask i t).dma = s.dma := rfl
@[simp] theorem State.putTask_eth (s : State) (i : Nat) (t : Task) : (s.putTask i t).eth = s.eth := rfl

/-! ### delTask -/

@[simp] theorem State.delTask_pending (s : State) (i : Nat) : (s.delTask i).pending = s.pending := rfl
@[simp] theorem State.delTask_csr (s : State) (i : Nat) : (s.delTask i).csr = s.csr := rfl
@[simp] theorem State.delTask_hold (s : State) (i : Nat) : (s.delTask i).hold = s.hold := rfl
@[simp] theorem State.delTask_returned (s : State) (i : Nat) : (s.delTask i).returned = s.returned := rfl
@[simp] theorem State.delTask_mem (s : State) (i : Nat) : (s.delTask i).mem = s.mem := rfl
@[simp] theorem State.delTask_chk (s : State) (i : Nat) : (s.delTask i).chk = s.chk := rfl
@[simp] theorem State.delTask_host (s : State) (i : Nat) : (s.delTask i).host = s.host := rfl
@[simp] theorem State.delTask_devclk (s : State) (i : Nat) : (s.delTask i).devclk = s.devclk := rfl
@[simp] theorem State.delTask_modes (s : State) (i : Nat) : (s.delTask i).modes = s.modes := rfl
@[simp] theorem State.delTask_fences (s : State) (i : Nat) : (s.delTask i).fences = s.fences := rfl
@[simp] theorem State.delTask_journal (s : State) (i : Nat) : (s.delTask i).journal = s.journal := rfl
@[simp] theorem State.delTask_dvorys (s : State) (i : Nat) : (s.delTask i).dvorys = s.dvorys := rfl
@[simp] theorem State.delTask_ledger (s : State) (i : Nat) : (s.delTask i).ledger = s.ledger := rfl
@[simp] theorem State.delTask_mortar (s : State) (i : Nat) : (s.delTask i).mortar = s.mortar := rfl
@[simp] theorem State.delTask_memSys (s : State) (i : Nat) : (s.delTask i).memSys = s.memSys := rfl
@[simp] theorem State.delTask_pcie (s : State) (i : Nat) : (s.delTask i).pcie = s.pcie := rfl
@[simp] theorem State.delTask_faults (s : State) (i : Nat) : (s.delTask i).faults = s.faults := rfl
@[simp] theorem State.delTask_observe (s : State) (i : Nat) : (s.delTask i).observe = s.observe := rfl
@[simp] theorem State.delTask_power (s : State) (i : Nat) : (s.delTask i).power = s.power := rfl
@[simp] theorem State.delTask_free (s : State) (i : Nat) : (s.delTask i).free = s.free := rfl
@[simp] theorem State.delTask_time (s : State) (i : Nat) : (s.delTask i).time = s.time := rfl
@[simp] theorem State.delTask_streams (s : State) (i : Nat) : (s.delTask i).streams = s.streams := rfl
@[simp] theorem State.delTask_lanes (s : State) (i : Nat) : (s.delTask i).lanes = s.lanes := rfl
@[simp] theorem State.delTask_sett (s : State) (i : Nat) : (s.delTask i).sett = s.sett := rfl
@[simp] theorem State.delTask_engines (s : State) (i : Nat) : (s.delTask i).engines = s.engines := rfl
@[simp] theorem State.delTask_witness (s : State) (i : Nat) : (s.delTask i).witness = s.witness := rfl
@[simp] theorem State.delTask_dma (s : State) (i : Nat) : (s.delTask i).dma = s.dma := rfl
@[simp] theorem State.delTask_eth (s : State) (i : Nat) : (s.delTask i).eth = s.eth := rfl

/-! ### setKey -/

@[simp] theorem State.setKey_pending (s : State) (k : Nat) (x : Keystone) : (s.setKey k x).pending = s.pending := rfl
@[simp] theorem State.setKey_csr (s : State) (k : Nat) (x : Keystone) : (s.setKey k x).csr = s.csr := rfl
@[simp] theorem State.setKey_hold (s : State) (k : Nat) (x : Keystone) : (s.setKey k x).hold = s.hold := rfl
@[simp] theorem State.setKey_returned (s : State) (k : Nat) (x : Keystone) : (s.setKey k x).returned = s.returned := rfl
@[simp] theorem State.setKey_mem (s : State) (k : Nat) (x : Keystone) : (s.setKey k x).mem = s.mem := rfl
@[simp] theorem State.setKey_chk (s : State) (k : Nat) (x : Keystone) : (s.setKey k x).chk = s.chk := rfl
@[simp] theorem State.setKey_host (s : State) (k : Nat) (x : Keystone) : (s.setKey k x).host = s.host := rfl
@[simp] theorem State.setKey_devclk (s : State) (k : Nat) (x : Keystone) : (s.setKey k x).devclk = s.devclk := rfl
@[simp] theorem State.setKey_modes (s : State) (k : Nat) (x : Keystone) : (s.setKey k x).modes = s.modes := rfl
@[simp] theorem State.setKey_fences (s : State) (k : Nat) (x : Keystone) : (s.setKey k x).fences = s.fences := rfl
@[simp] theorem State.setKey_journal (s : State) (k : Nat) (x : Keystone) : (s.setKey k x).journal = s.journal := rfl
@[simp] theorem State.setKey_dvorys (s : State) (k : Nat) (x : Keystone) : (s.setKey k x).dvorys = s.dvorys := rfl
@[simp] theorem State.setKey_ledger (s : State) (k : Nat) (x : Keystone) : (s.setKey k x).ledger = s.ledger := rfl
@[simp] theorem State.setKey_mortar (s : State) (k : Nat) (x : Keystone) : (s.setKey k x).mortar = s.mortar := rfl
@[simp] theorem State.setKey_memSys (s : State) (k : Nat) (x : Keystone) : (s.setKey k x).memSys = s.memSys := rfl
@[simp] theorem State.setKey_pcie (s : State) (k : Nat) (x : Keystone) : (s.setKey k x).pcie = s.pcie := rfl
@[simp] theorem State.setKey_faults (s : State) (k : Nat) (x : Keystone) : (s.setKey k x).faults = s.faults := rfl
@[simp] theorem State.setKey_observe (s : State) (k : Nat) (x : Keystone) : (s.setKey k x).observe = s.observe := rfl
@[simp] theorem State.setKey_power (s : State) (k : Nat) (x : Keystone) : (s.setKey k x).power = s.power := rfl
@[simp] theorem State.setKey_free (s : State) (k : Nat) (x : Keystone) : (s.setKey k x).free = s.free := rfl
@[simp] theorem State.setKey_time (s : State) (k : Nat) (x : Keystone) : (s.setKey k x).time = s.time := rfl
@[simp] theorem State.setKey_streams (s : State) (k : Nat) (x : Keystone) : (s.setKey k x).streams = s.streams := rfl
@[simp] theorem State.setKey_lanes (s : State) (k : Nat) (x : Keystone) : (s.setKey k x).lanes = s.lanes := rfl
@[simp] theorem State.setKey_sett (s : State) (k : Nat) (x : Keystone) : (s.setKey k x).sett = s.sett := rfl
@[simp] theorem State.setKey_engines (s : State) (k : Nat) (x : Keystone) : (s.setKey k x).engines = s.engines := rfl
@[simp] theorem State.setKey_witness (s : State) (k : Nat) (x : Keystone) : (s.setKey k x).witness = s.witness := rfl
@[simp] theorem State.setKey_dma (s : State) (k : Nat) (x : Keystone) : (s.setKey k x).dma = s.dma := rfl
@[simp] theorem State.setKey_eth (s : State) (k : Nat) (x : Keystone) : (s.setKey k x).eth = s.eth := rfl

/-! ### report -/

@[simp] theorem State.report_pending (s : State) (i : Nat) (c : Cause) : (s.report i c).pending = s.pending := rfl
@[simp] theorem State.report_csr (s : State) (i : Nat) (c : Cause) : (s.report i c).csr = s.csr := rfl
@[simp] theorem State.report_hold (s : State) (i : Nat) (c : Cause) : (s.report i c).hold = s.hold := rfl
@[simp] theorem State.report_returned (s : State) (i : Nat) (c : Cause) : (s.report i c).returned = s.returned := rfl
@[simp] theorem State.report_mem (s : State) (i : Nat) (c : Cause) : (s.report i c).mem = s.mem := rfl
@[simp] theorem State.report_chk (s : State) (i : Nat) (c : Cause) : (s.report i c).chk = s.chk := rfl
@[simp] theorem State.report_host (s : State) (i : Nat) (c : Cause) : (s.report i c).host = s.host := rfl
@[simp] theorem State.report_devclk (s : State) (i : Nat) (c : Cause) : (s.report i c).devclk = s.devclk := rfl
@[simp] theorem State.report_modes (s : State) (i : Nat) (c : Cause) : (s.report i c).modes = s.modes := rfl
@[simp] theorem State.report_fences (s : State) (i : Nat) (c : Cause) : (s.report i c).fences = s.fences := rfl
@[simp] theorem State.report_journal (s : State) (i : Nat) (c : Cause) : (s.report i c).journal = s.journal := rfl
@[simp] theorem State.report_dvorys (s : State) (i : Nat) (c : Cause) : (s.report i c).dvorys = s.dvorys := rfl
@[simp] theorem State.report_ledger (s : State) (i : Nat) (c : Cause) : (s.report i c).ledger = s.ledger := rfl
@[simp] theorem State.report_mortar (s : State) (i : Nat) (c : Cause) : (s.report i c).mortar = s.mortar := rfl
@[simp] theorem State.report_memSys (s : State) (i : Nat) (c : Cause) : (s.report i c).memSys = s.memSys := rfl
@[simp] theorem State.report_pcie (s : State) (i : Nat) (c : Cause) : (s.report i c).pcie = s.pcie := rfl
@[simp] theorem State.report_faults (s : State) (i : Nat) (c : Cause) : (s.report i c).faults = s.faults := rfl
@[simp] theorem State.report_observe (s : State) (i : Nat) (c : Cause) : (s.report i c).observe = s.observe := rfl
@[simp] theorem State.report_power (s : State) (i : Nat) (c : Cause) : (s.report i c).power = s.power := rfl
@[simp] theorem State.report_free (s : State) (i : Nat) (c : Cause) : (s.report i c).free = s.free := rfl
@[simp] theorem State.report_time (s : State) (i : Nat) (c : Cause) : (s.report i c).time = s.time := rfl
@[simp] theorem State.report_streams (s : State) (i : Nat) (c : Cause) : (s.report i c).streams = s.streams := rfl
@[simp] theorem State.report_lanes (s : State) (i : Nat) (c : Cause) : (s.report i c).lanes = s.lanes := rfl
@[simp] theorem State.report_sett (s : State) (i : Nat) (c : Cause) : (s.report i c).sett = s.sett := rfl
@[simp] theorem State.report_engines (s : State) (i : Nat) (c : Cause) : (s.report i c).engines = s.engines := rfl
@[simp] theorem State.report_witness (s : State) (i : Nat) (c : Cause) : (s.report i c).witness = s.witness := rfl
@[simp] theorem State.report_dma (s : State) (i : Nat) (c : Cause) : (s.report i c).dma = s.dma := rfl
@[simp] theorem State.report_eth (s : State) (i : Nat) (c : Cause) : (s.report i c).eth = s.eth := rfl

/-! ### setTb -/

@[simp] theorem State.setTb_pending (s : State) (n : Nat) (b : TimeBase) : (s.setTb n b).pending = s.pending := rfl
@[simp] theorem State.setTb_csr (s : State) (n : Nat) (b : TimeBase) : (s.setTb n b).csr = s.csr := rfl
@[simp] theorem State.setTb_hold (s : State) (n : Nat) (b : TimeBase) : (s.setTb n b).hold = s.hold := rfl
@[simp] theorem State.setTb_returned (s : State) (n : Nat) (b : TimeBase) : (s.setTb n b).returned = s.returned := rfl
@[simp] theorem State.setTb_mem (s : State) (n : Nat) (b : TimeBase) : (s.setTb n b).mem = s.mem := rfl
@[simp] theorem State.setTb_chk (s : State) (n : Nat) (b : TimeBase) : (s.setTb n b).chk = s.chk := rfl
@[simp] theorem State.setTb_host (s : State) (n : Nat) (b : TimeBase) : (s.setTb n b).host = s.host := rfl
@[simp] theorem State.setTb_devclk (s : State) (n : Nat) (b : TimeBase) : (s.setTb n b).devclk = s.devclk := rfl
@[simp] theorem State.setTb_modes (s : State) (n : Nat) (b : TimeBase) : (s.setTb n b).modes = s.modes := rfl
@[simp] theorem State.setTb_fences (s : State) (n : Nat) (b : TimeBase) : (s.setTb n b).fences = s.fences := rfl
@[simp] theorem State.setTb_journal (s : State) (n : Nat) (b : TimeBase) : (s.setTb n b).journal = s.journal := rfl
@[simp] theorem State.setTb_dvorys (s : State) (n : Nat) (b : TimeBase) : (s.setTb n b).dvorys = s.dvorys := rfl
@[simp] theorem State.setTb_disp (s : State) (n : Nat) (b : TimeBase) : (s.setTb n b).disp = s.disp := rfl
@[simp] theorem State.setTb_ledger (s : State) (n : Nat) (b : TimeBase) : (s.setTb n b).ledger = s.ledger := rfl
@[simp] theorem State.setTb_mortar (s : State) (n : Nat) (b : TimeBase) : (s.setTb n b).mortar = s.mortar := rfl
@[simp] theorem State.setTb_memSys (s : State) (n : Nat) (b : TimeBase) : (s.setTb n b).memSys = s.memSys := rfl
@[simp] theorem State.setTb_pcie (s : State) (n : Nat) (b : TimeBase) : (s.setTb n b).pcie = s.pcie := rfl
@[simp] theorem State.setTb_faults (s : State) (n : Nat) (b : TimeBase) : (s.setTb n b).faults = s.faults := rfl
@[simp] theorem State.setTb_observe (s : State) (n : Nat) (b : TimeBase) : (s.setTb n b).observe = s.observe := rfl
@[simp] theorem State.setTb_power (s : State) (n : Nat) (b : TimeBase) : (s.setTb n b).power = s.power := rfl
@[simp] theorem State.setTb_free (s : State) (n : Nat) (b : TimeBase) : (s.setTb n b).free = s.free := rfl
@[simp] theorem State.setTb_streams (s : State) (n : Nat) (b : TimeBase) : (s.setTb n b).streams = s.streams := rfl
@[simp] theorem State.setTb_lanes (s : State) (n : Nat) (b : TimeBase) : (s.setTb n b).lanes = s.lanes := rfl
@[simp] theorem State.setTb_sett (s : State) (n : Nat) (b : TimeBase) : (s.setTb n b).sett = s.sett := rfl
@[simp] theorem State.setTb_engines (s : State) (n : Nat) (b : TimeBase) : (s.setTb n b).engines = s.engines := rfl
@[simp] theorem State.setTb_witness (s : State) (n : Nat) (b : TimeBase) : (s.setTb n b).witness = s.witness := rfl
@[simp] theorem State.setTb_dma (s : State) (n : Nat) (b : TimeBase) : (s.setTb n b).dma = s.dma := rfl
@[simp] theorem State.setTb_eth (s : State) (n : Nat) (b : TimeBase) : (s.setTb n b).eth = s.eth := rfl

/-! ### setPin -/

@[simp] theorem State.setPin_pending (s : State) (p : Nat) (x : TddPin) : (s.setPin p x).pending = s.pending := rfl
@[simp] theorem State.setPin_csr (s : State) (p : Nat) (x : TddPin) : (s.setPin p x).csr = s.csr := rfl
@[simp] theorem State.setPin_hold (s : State) (p : Nat) (x : TddPin) : (s.setPin p x).hold = s.hold := rfl
@[simp] theorem State.setPin_returned (s : State) (p : Nat) (x : TddPin) : (s.setPin p x).returned = s.returned := rfl
@[simp] theorem State.setPin_mem (s : State) (p : Nat) (x : TddPin) : (s.setPin p x).mem = s.mem := rfl
@[simp] theorem State.setPin_chk (s : State) (p : Nat) (x : TddPin) : (s.setPin p x).chk = s.chk := rfl
@[simp] theorem State.setPin_host (s : State) (p : Nat) (x : TddPin) : (s.setPin p x).host = s.host := rfl
@[simp] theorem State.setPin_devclk (s : State) (p : Nat) (x : TddPin) : (s.setPin p x).devclk = s.devclk := rfl
@[simp] theorem State.setPin_modes (s : State) (p : Nat) (x : TddPin) : (s.setPin p x).modes = s.modes := rfl
@[simp] theorem State.setPin_fences (s : State) (p : Nat) (x : TddPin) : (s.setPin p x).fences = s.fences := rfl
@[simp] theorem State.setPin_journal (s : State) (p : Nat) (x : TddPin) : (s.setPin p x).journal = s.journal := rfl
@[simp] theorem State.setPin_dvorys (s : State) (p : Nat) (x : TddPin) : (s.setPin p x).dvorys = s.dvorys := rfl
@[simp] theorem State.setPin_disp (s : State) (p : Nat) (x : TddPin) : (s.setPin p x).disp = s.disp := rfl
@[simp] theorem State.setPin_ledger (s : State) (p : Nat) (x : TddPin) : (s.setPin p x).ledger = s.ledger := rfl
@[simp] theorem State.setPin_mortar (s : State) (p : Nat) (x : TddPin) : (s.setPin p x).mortar = s.mortar := rfl
@[simp] theorem State.setPin_memSys (s : State) (p : Nat) (x : TddPin) : (s.setPin p x).memSys = s.memSys := rfl
@[simp] theorem State.setPin_pcie (s : State) (p : Nat) (x : TddPin) : (s.setPin p x).pcie = s.pcie := rfl
@[simp] theorem State.setPin_faults (s : State) (p : Nat) (x : TddPin) : (s.setPin p x).faults = s.faults := rfl
@[simp] theorem State.setPin_observe (s : State) (p : Nat) (x : TddPin) : (s.setPin p x).observe = s.observe := rfl
@[simp] theorem State.setPin_power (s : State) (p : Nat) (x : TddPin) : (s.setPin p x).power = s.power := rfl
@[simp] theorem State.setPin_free (s : State) (p : Nat) (x : TddPin) : (s.setPin p x).free = s.free := rfl
@[simp] theorem State.setPin_streams (s : State) (p : Nat) (x : TddPin) : (s.setPin p x).streams = s.streams := rfl
@[simp] theorem State.setPin_lanes (s : State) (p : Nat) (x : TddPin) : (s.setPin p x).lanes = s.lanes := rfl
@[simp] theorem State.setPin_sett (s : State) (p : Nat) (x : TddPin) : (s.setPin p x).sett = s.sett := rfl
@[simp] theorem State.setPin_engines (s : State) (p : Nat) (x : TddPin) : (s.setPin p x).engines = s.engines := rfl
@[simp] theorem State.setPin_witness (s : State) (p : Nat) (x : TddPin) : (s.setPin p x).witness = s.witness := rfl
@[simp] theorem State.setPin_dma (s : State) (p : Nat) (x : TddPin) : (s.setPin p x).dma = s.dma := rfl
@[simp] theorem State.setPin_eth (s : State) (p : Nat) (x : TddPin) : (s.setPin p x).eth = s.eth := rfl

/-! ### setStrm -/

@[simp] theorem State.setStrm_pending (s : State) (c : Nat) (x : Strm) : (s.setStrm c x).pending = s.pending := rfl
@[simp] theorem State.setStrm_csr (s : State) (c : Nat) (x : Strm) : (s.setStrm c x).csr = s.csr := rfl
@[simp] theorem State.setStrm_hold (s : State) (c : Nat) (x : Strm) : (s.setStrm c x).hold = s.hold := rfl
@[simp] theorem State.setStrm_returned (s : State) (c : Nat) (x : Strm) : (s.setStrm c x).returned = s.returned := rfl
@[simp] theorem State.setStrm_mem (s : State) (c : Nat) (x : Strm) : (s.setStrm c x).mem = s.mem := rfl
@[simp] theorem State.setStrm_chk (s : State) (c : Nat) (x : Strm) : (s.setStrm c x).chk = s.chk := rfl
@[simp] theorem State.setStrm_host (s : State) (c : Nat) (x : Strm) : (s.setStrm c x).host = s.host := rfl
@[simp] theorem State.setStrm_devclk (s : State) (c : Nat) (x : Strm) : (s.setStrm c x).devclk = s.devclk := rfl
@[simp] theorem State.setStrm_modes (s : State) (c : Nat) (x : Strm) : (s.setStrm c x).modes = s.modes := rfl
@[simp] theorem State.setStrm_fences (s : State) (c : Nat) (x : Strm) : (s.setStrm c x).fences = s.fences := rfl
@[simp] theorem State.setStrm_journal (s : State) (c : Nat) (x : Strm) : (s.setStrm c x).journal = s.journal := rfl
@[simp] theorem State.setStrm_dvorys (s : State) (c : Nat) (x : Strm) : (s.setStrm c x).dvorys = s.dvorys := rfl
@[simp] theorem State.setStrm_disp (s : State) (c : Nat) (x : Strm) : (s.setStrm c x).disp = s.disp := rfl
@[simp] theorem State.setStrm_ledger (s : State) (c : Nat) (x : Strm) : (s.setStrm c x).ledger = s.ledger := rfl
@[simp] theorem State.setStrm_mortar (s : State) (c : Nat) (x : Strm) : (s.setStrm c x).mortar = s.mortar := rfl
@[simp] theorem State.setStrm_memSys (s : State) (c : Nat) (x : Strm) : (s.setStrm c x).memSys = s.memSys := rfl
@[simp] theorem State.setStrm_pcie (s : State) (c : Nat) (x : Strm) : (s.setStrm c x).pcie = s.pcie := rfl
@[simp] theorem State.setStrm_faults (s : State) (c : Nat) (x : Strm) : (s.setStrm c x).faults = s.faults := rfl
@[simp] theorem State.setStrm_observe (s : State) (c : Nat) (x : Strm) : (s.setStrm c x).observe = s.observe := rfl
@[simp] theorem State.setStrm_power (s : State) (c : Nat) (x : Strm) : (s.setStrm c x).power = s.power := rfl
@[simp] theorem State.setStrm_free (s : State) (c : Nat) (x : Strm) : (s.setStrm c x).free = s.free := rfl
@[simp] theorem State.setStrm_time (s : State) (c : Nat) (x : Strm) : (s.setStrm c x).time = s.time := rfl
@[simp] theorem State.setStrm_lanes (s : State) (c : Nat) (x : Strm) : (s.setStrm c x).lanes = s.lanes := rfl
@[simp] theorem State.setStrm_sett (s : State) (c : Nat) (x : Strm) : (s.setStrm c x).sett = s.sett := rfl
@[simp] theorem State.setStrm_engines (s : State) (c : Nat) (x : Strm) : (s.setStrm c x).engines = s.engines := rfl
@[simp] theorem State.setStrm_witness (s : State) (c : Nat) (x : Strm) : (s.setStrm c x).witness = s.witness := rfl
@[simp] theorem State.setStrm_dma (s : State) (c : Nat) (x : Strm) : (s.setStrm c x).dma = s.dma := rfl
@[simp] theorem State.setStrm_eth (s : State) (c : Nat) (x : Strm) : (s.setStrm c x).eth = s.eth := rfl

/-! ### setVault -/

@[simp] theorem State.setVault_pending (s : State) (v : Vault) : (s.setVault v).pending = s.pending := rfl
@[simp] theorem State.setVault_csr (s : State) (v : Vault) : (s.setVault v).csr = s.csr := rfl
@[simp] theorem State.setVault_hold (s : State) (v : Vault) : (s.setVault v).hold = s.hold := rfl
@[simp] theorem State.setVault_returned (s : State) (v : Vault) : (s.setVault v).returned = s.returned := rfl
@[simp] theorem State.setVault_mem (s : State) (v : Vault) : (s.setVault v).mem = s.mem := rfl
@[simp] theorem State.setVault_chk (s : State) (v : Vault) : (s.setVault v).chk = s.chk := rfl
@[simp] theorem State.setVault_host (s : State) (v : Vault) : (s.setVault v).host = s.host := rfl
@[simp] theorem State.setVault_devclk (s : State) (v : Vault) : (s.setVault v).devclk = s.devclk := rfl
@[simp] theorem State.setVault_modes (s : State) (v : Vault) : (s.setVault v).modes = s.modes := rfl
@[simp] theorem State.setVault_fences (s : State) (v : Vault) : (s.setVault v).fences = s.fences := rfl
@[simp] theorem State.setVault_journal (s : State) (v : Vault) : (s.setVault v).journal = s.journal := rfl
@[simp] theorem State.setVault_dvorys (s : State) (v : Vault) : (s.setVault v).dvorys = s.dvorys := rfl
@[simp] theorem State.setVault_disp (s : State) (v : Vault) : (s.setVault v).disp = s.disp := rfl
@[simp] theorem State.setVault_ledger (s : State) (v : Vault) : (s.setVault v).ledger = s.ledger := rfl
@[simp] theorem State.setVault_mortar (s : State) (v : Vault) : (s.setVault v).mortar = s.mortar := rfl
@[simp] theorem State.setVault_memSys (s : State) (v : Vault) : (s.setVault v).memSys = s.memSys := rfl
@[simp] theorem State.setVault_pcie (s : State) (v : Vault) : (s.setVault v).pcie = s.pcie := rfl
@[simp] theorem State.setVault_faults (s : State) (v : Vault) : (s.setVault v).faults = s.faults := rfl
@[simp] theorem State.setVault_observe (s : State) (v : Vault) : (s.setVault v).observe = s.observe := rfl
@[simp] theorem State.setVault_power (s : State) (v : Vault) : (s.setVault v).power = s.power := rfl
@[simp] theorem State.setVault_free (s : State) (v : Vault) : (s.setVault v).free = s.free := rfl
@[simp] theorem State.setVault_time (s : State) (v : Vault) : (s.setVault v).time = s.time := rfl
@[simp] theorem State.setVault_streams (s : State) (v : Vault) : (s.setVault v).streams = s.streams := rfl
@[simp] theorem State.setVault_lanes (s : State) (v : Vault) : (s.setVault v).lanes = s.lanes := rfl
@[simp] theorem State.setVault_sett (s : State) (v : Vault) : (s.setVault v).sett = s.sett := rfl
@[simp] theorem State.setVault_engines (s : State) (v : Vault) : (s.setVault v).engines = s.engines := rfl
@[simp] theorem State.setVault_dma (s : State) (v : Vault) : (s.setVault v).dma = s.dma := rfl
@[simp] theorem State.setVault_eth (s : State) (v : Vault) : (s.setVault v).eth = s.eth := rfl

/-! ### setTally -/

@[simp] theorem State.setTally_pending (s : State) (d : Nat) (t : Tally) : (s.setTally d t).pending = s.pending := rfl
@[simp] theorem State.setTally_csr (s : State) (d : Nat) (t : Tally) : (s.setTally d t).csr = s.csr := rfl
@[simp] theorem State.setTally_hold (s : State) (d : Nat) (t : Tally) : (s.setTally d t).hold = s.hold := rfl
@[simp] theorem State.setTally_returned (s : State) (d : Nat) (t : Tally) : (s.setTally d t).returned = s.returned := rfl
@[simp] theorem State.setTally_mem (s : State) (d : Nat) (t : Tally) : (s.setTally d t).mem = s.mem := rfl
@[simp] theorem State.setTally_chk (s : State) (d : Nat) (t : Tally) : (s.setTally d t).chk = s.chk := rfl
@[simp] theorem State.setTally_host (s : State) (d : Nat) (t : Tally) : (s.setTally d t).host = s.host := rfl
@[simp] theorem State.setTally_devclk (s : State) (d : Nat) (t : Tally) : (s.setTally d t).devclk = s.devclk := rfl
@[simp] theorem State.setTally_modes (s : State) (d : Nat) (t : Tally) : (s.setTally d t).modes = s.modes := rfl
@[simp] theorem State.setTally_fences (s : State) (d : Nat) (t : Tally) : (s.setTally d t).fences = s.fences := rfl
@[simp] theorem State.setTally_journal (s : State) (d : Nat) (t : Tally) : (s.setTally d t).journal = s.journal := rfl
@[simp] theorem State.setTally_dvorys (s : State) (d : Nat) (t : Tally) : (s.setTally d t).dvorys = s.dvorys := rfl
@[simp] theorem State.setTally_disp (s : State) (d : Nat) (t : Tally) : (s.setTally d t).disp = s.disp := rfl
@[simp] theorem State.setTally_ledger (s : State) (d : Nat) (t : Tally) : (s.setTally d t).ledger = s.ledger := rfl
@[simp] theorem State.setTally_mortar (s : State) (d : Nat) (t : Tally) : (s.setTally d t).mortar = s.mortar := rfl
@[simp] theorem State.setTally_memSys (s : State) (d : Nat) (t : Tally) : (s.setTally d t).memSys = s.memSys := rfl
@[simp] theorem State.setTally_pcie (s : State) (d : Nat) (t : Tally) : (s.setTally d t).pcie = s.pcie := rfl
@[simp] theorem State.setTally_faults (s : State) (d : Nat) (t : Tally) : (s.setTally d t).faults = s.faults := rfl
@[simp] theorem State.setTally_observe (s : State) (d : Nat) (t : Tally) : (s.setTally d t).observe = s.observe := rfl
@[simp] theorem State.setTally_power (s : State) (d : Nat) (t : Tally) : (s.setTally d t).power = s.power := rfl
@[simp] theorem State.setTally_free (s : State) (d : Nat) (t : Tally) : (s.setTally d t).free = s.free := rfl
@[simp] theorem State.setTally_time (s : State) (d : Nat) (t : Tally) : (s.setTally d t).time = s.time := rfl
@[simp] theorem State.setTally_streams (s : State) (d : Nat) (t : Tally) : (s.setTally d t).streams = s.streams := rfl
@[simp] theorem State.setTally_lanes (s : State) (d : Nat) (t : Tally) : (s.setTally d t).lanes = s.lanes := rfl
@[simp] theorem State.setTally_sett (s : State) (d : Nat) (t : Tally) : (s.setTally d t).sett = s.sett := rfl
@[simp] theorem State.setTally_engines (s : State) (d : Nat) (t : Tally) : (s.setTally d t).engines = s.engines := rfl
@[simp] theorem State.setTally_dma (s : State) (d : Nat) (t : Tally) : (s.setTally d t).dma = s.dma := rfl
@[simp] theorem State.setTally_eth (s : State) (d : Nat) (t : Tally) : (s.setTally d t).eth = s.eth := rfl

/-! ### setFlowWord -/

@[simp] theorem State.setFlowWord_pending (s : State) (e w : Nat) (v : Word) : (s.setFlowWord e w v).pending = s.pending := rfl
@[simp] theorem State.setFlowWord_csr (s : State) (e w : Nat) (v : Word) : (s.setFlowWord e w v).csr = s.csr := rfl
@[simp] theorem State.setFlowWord_hold (s : State) (e w : Nat) (v : Word) : (s.setFlowWord e w v).hold = s.hold := rfl
@[simp] theorem State.setFlowWord_returned (s : State) (e w : Nat) (v : Word) : (s.setFlowWord e w v).returned = s.returned := rfl
@[simp] theorem State.setFlowWord_mem (s : State) (e w : Nat) (v : Word) : (s.setFlowWord e w v).mem = s.mem := rfl
@[simp] theorem State.setFlowWord_chk (s : State) (e w : Nat) (v : Word) : (s.setFlowWord e w v).chk = s.chk := rfl
@[simp] theorem State.setFlowWord_host (s : State) (e w : Nat) (v : Word) : (s.setFlowWord e w v).host = s.host := rfl
@[simp] theorem State.setFlowWord_devclk (s : State) (e w : Nat) (v : Word) : (s.setFlowWord e w v).devclk = s.devclk := rfl
@[simp] theorem State.setFlowWord_modes (s : State) (e w : Nat) (v : Word) : (s.setFlowWord e w v).modes = s.modes := rfl
@[simp] theorem State.setFlowWord_fences (s : State) (e w : Nat) (v : Word) : (s.setFlowWord e w v).fences = s.fences := rfl
@[simp] theorem State.setFlowWord_journal (s : State) (e w : Nat) (v : Word) : (s.setFlowWord e w v).journal = s.journal := rfl
@[simp] theorem State.setFlowWord_dvorys (s : State) (e w : Nat) (v : Word) : (s.setFlowWord e w v).dvorys = s.dvorys := rfl
@[simp] theorem State.setFlowWord_disp (s : State) (e w : Nat) (v : Word) : (s.setFlowWord e w v).disp = s.disp := rfl
@[simp] theorem State.setFlowWord_ledger (s : State) (e w : Nat) (v : Word) : (s.setFlowWord e w v).ledger = s.ledger := rfl
@[simp] theorem State.setFlowWord_mortar (s : State) (e w : Nat) (v : Word) : (s.setFlowWord e w v).mortar = s.mortar := rfl
@[simp] theorem State.setFlowWord_memSys (s : State) (e w : Nat) (v : Word) : (s.setFlowWord e w v).memSys = s.memSys := rfl
@[simp] theorem State.setFlowWord_pcie (s : State) (e w : Nat) (v : Word) : (s.setFlowWord e w v).pcie = s.pcie := rfl
@[simp] theorem State.setFlowWord_faults (s : State) (e w : Nat) (v : Word) : (s.setFlowWord e w v).faults = s.faults := rfl
@[simp] theorem State.setFlowWord_observe (s : State) (e w : Nat) (v : Word) : (s.setFlowWord e w v).observe = s.observe := rfl
@[simp] theorem State.setFlowWord_power (s : State) (e w : Nat) (v : Word) : (s.setFlowWord e w v).power = s.power := rfl
@[simp] theorem State.setFlowWord_free (s : State) (e w : Nat) (v : Word) : (s.setFlowWord e w v).free = s.free := rfl
@[simp] theorem State.setFlowWord_time (s : State) (e w : Nat) (v : Word) : (s.setFlowWord e w v).time = s.time := rfl
@[simp] theorem State.setFlowWord_streams (s : State) (e w : Nat) (v : Word) : (s.setFlowWord e w v).streams = s.streams := rfl
@[simp] theorem State.setFlowWord_lanes (s : State) (e w : Nat) (v : Word) : (s.setFlowWord e w v).lanes = s.lanes := rfl
@[simp] theorem State.setFlowWord_sett (s : State) (e w : Nat) (v : Word) : (s.setFlowWord e w v).sett = s.sett := rfl
@[simp] theorem State.setFlowWord_engines (s : State) (e w : Nat) (v : Word) : (s.setFlowWord e w v).engines = s.engines := rfl
@[simp] theorem State.setFlowWord_witness (s : State) (e w : Nat) (v : Word) : (s.setFlowWord e w v).witness = s.witness := rfl
@[simp] theorem State.setFlowWord_dma (s : State) (e w : Nat) (v : Word) : (s.setFlowWord e w v).dma = s.dma := rfl

/-! ### setEthRing -/

@[simp] theorem State.setEthRing_pending (s : State) (r : Nat) (x : EthRing) : (s.setEthRing r x).pending = s.pending := rfl
@[simp] theorem State.setEthRing_csr (s : State) (r : Nat) (x : EthRing) : (s.setEthRing r x).csr = s.csr := rfl
@[simp] theorem State.setEthRing_hold (s : State) (r : Nat) (x : EthRing) : (s.setEthRing r x).hold = s.hold := rfl
@[simp] theorem State.setEthRing_returned (s : State) (r : Nat) (x : EthRing) : (s.setEthRing r x).returned = s.returned := rfl
@[simp] theorem State.setEthRing_mem (s : State) (r : Nat) (x : EthRing) : (s.setEthRing r x).mem = s.mem := rfl
@[simp] theorem State.setEthRing_chk (s : State) (r : Nat) (x : EthRing) : (s.setEthRing r x).chk = s.chk := rfl
@[simp] theorem State.setEthRing_host (s : State) (r : Nat) (x : EthRing) : (s.setEthRing r x).host = s.host := rfl
@[simp] theorem State.setEthRing_devclk (s : State) (r : Nat) (x : EthRing) : (s.setEthRing r x).devclk = s.devclk := rfl
@[simp] theorem State.setEthRing_modes (s : State) (r : Nat) (x : EthRing) : (s.setEthRing r x).modes = s.modes := rfl
@[simp] theorem State.setEthRing_fences (s : State) (r : Nat) (x : EthRing) : (s.setEthRing r x).fences = s.fences := rfl
@[simp] theorem State.setEthRing_journal (s : State) (r : Nat) (x : EthRing) : (s.setEthRing r x).journal = s.journal := rfl
@[simp] theorem State.setEthRing_dvorys (s : State) (r : Nat) (x : EthRing) : (s.setEthRing r x).dvorys = s.dvorys := rfl
@[simp] theorem State.setEthRing_disp (s : State) (r : Nat) (x : EthRing) : (s.setEthRing r x).disp = s.disp := rfl
@[simp] theorem State.setEthRing_ledger (s : State) (r : Nat) (x : EthRing) : (s.setEthRing r x).ledger = s.ledger := rfl
@[simp] theorem State.setEthRing_mortar (s : State) (r : Nat) (x : EthRing) : (s.setEthRing r x).mortar = s.mortar := rfl
@[simp] theorem State.setEthRing_memSys (s : State) (r : Nat) (x : EthRing) : (s.setEthRing r x).memSys = s.memSys := rfl
@[simp] theorem State.setEthRing_pcie (s : State) (r : Nat) (x : EthRing) : (s.setEthRing r x).pcie = s.pcie := rfl
@[simp] theorem State.setEthRing_faults (s : State) (r : Nat) (x : EthRing) : (s.setEthRing r x).faults = s.faults := rfl
@[simp] theorem State.setEthRing_observe (s : State) (r : Nat) (x : EthRing) : (s.setEthRing r x).observe = s.observe := rfl
@[simp] theorem State.setEthRing_power (s : State) (r : Nat) (x : EthRing) : (s.setEthRing r x).power = s.power := rfl
@[simp] theorem State.setEthRing_free (s : State) (r : Nat) (x : EthRing) : (s.setEthRing r x).free = s.free := rfl
@[simp] theorem State.setEthRing_time (s : State) (r : Nat) (x : EthRing) : (s.setEthRing r x).time = s.time := rfl
@[simp] theorem State.setEthRing_streams (s : State) (r : Nat) (x : EthRing) : (s.setEthRing r x).streams = s.streams := rfl
@[simp] theorem State.setEthRing_lanes (s : State) (r : Nat) (x : EthRing) : (s.setEthRing r x).lanes = s.lanes := rfl
@[simp] theorem State.setEthRing_sett (s : State) (r : Nat) (x : EthRing) : (s.setEthRing r x).sett = s.sett := rfl
@[simp] theorem State.setEthRing_engines (s : State) (r : Nat) (x : EthRing) : (s.setEthRing r x).engines = s.engines := rfl
@[simp] theorem State.setEthRing_witness (s : State) (r : Nat) (x : EthRing) : (s.setEthRing r x).witness = s.witness := rfl
@[simp] theorem State.setEthRing_dma (s : State) (r : Nat) (x : EthRing) : (s.setEthRing r x).dma = s.dma := rfl

/-! ### setMacSt -/

@[simp] theorem State.setMacSt_pending (s : State) (m : Nat) (x : MacSt) : (s.setMacSt m x).pending = s.pending := rfl
@[simp] theorem State.setMacSt_csr (s : State) (m : Nat) (x : MacSt) : (s.setMacSt m x).csr = s.csr := rfl
@[simp] theorem State.setMacSt_hold (s : State) (m : Nat) (x : MacSt) : (s.setMacSt m x).hold = s.hold := rfl
@[simp] theorem State.setMacSt_returned (s : State) (m : Nat) (x : MacSt) : (s.setMacSt m x).returned = s.returned := rfl
@[simp] theorem State.setMacSt_mem (s : State) (m : Nat) (x : MacSt) : (s.setMacSt m x).mem = s.mem := rfl
@[simp] theorem State.setMacSt_chk (s : State) (m : Nat) (x : MacSt) : (s.setMacSt m x).chk = s.chk := rfl
@[simp] theorem State.setMacSt_host (s : State) (m : Nat) (x : MacSt) : (s.setMacSt m x).host = s.host := rfl
@[simp] theorem State.setMacSt_devclk (s : State) (m : Nat) (x : MacSt) : (s.setMacSt m x).devclk = s.devclk := rfl
@[simp] theorem State.setMacSt_modes (s : State) (m : Nat) (x : MacSt) : (s.setMacSt m x).modes = s.modes := rfl
@[simp] theorem State.setMacSt_fences (s : State) (m : Nat) (x : MacSt) : (s.setMacSt m x).fences = s.fences := rfl
@[simp] theorem State.setMacSt_journal (s : State) (m : Nat) (x : MacSt) : (s.setMacSt m x).journal = s.journal := rfl
@[simp] theorem State.setMacSt_dvorys (s : State) (m : Nat) (x : MacSt) : (s.setMacSt m x).dvorys = s.dvorys := rfl
@[simp] theorem State.setMacSt_disp (s : State) (m : Nat) (x : MacSt) : (s.setMacSt m x).disp = s.disp := rfl
@[simp] theorem State.setMacSt_ledger (s : State) (m : Nat) (x : MacSt) : (s.setMacSt m x).ledger = s.ledger := rfl
@[simp] theorem State.setMacSt_mortar (s : State) (m : Nat) (x : MacSt) : (s.setMacSt m x).mortar = s.mortar := rfl
@[simp] theorem State.setMacSt_memSys (s : State) (m : Nat) (x : MacSt) : (s.setMacSt m x).memSys = s.memSys := rfl
@[simp] theorem State.setMacSt_pcie (s : State) (m : Nat) (x : MacSt) : (s.setMacSt m x).pcie = s.pcie := rfl
@[simp] theorem State.setMacSt_faults (s : State) (m : Nat) (x : MacSt) : (s.setMacSt m x).faults = s.faults := rfl
@[simp] theorem State.setMacSt_observe (s : State) (m : Nat) (x : MacSt) : (s.setMacSt m x).observe = s.observe := rfl
@[simp] theorem State.setMacSt_power (s : State) (m : Nat) (x : MacSt) : (s.setMacSt m x).power = s.power := rfl
@[simp] theorem State.setMacSt_free (s : State) (m : Nat) (x : MacSt) : (s.setMacSt m x).free = s.free := rfl
@[simp] theorem State.setMacSt_time (s : State) (m : Nat) (x : MacSt) : (s.setMacSt m x).time = s.time := rfl
@[simp] theorem State.setMacSt_streams (s : State) (m : Nat) (x : MacSt) : (s.setMacSt m x).streams = s.streams := rfl
@[simp] theorem State.setMacSt_lanes (s : State) (m : Nat) (x : MacSt) : (s.setMacSt m x).lanes = s.lanes := rfl
@[simp] theorem State.setMacSt_sett (s : State) (m : Nat) (x : MacSt) : (s.setMacSt m x).sett = s.sett := rfl
@[simp] theorem State.setMacSt_engines (s : State) (m : Nat) (x : MacSt) : (s.setMacSt m x).engines = s.engines := rfl
@[simp] theorem State.setMacSt_witness (s : State) (m : Nat) (x : MacSt) : (s.setMacSt m x).witness = s.witness := rfl
@[simp] theorem State.setMacSt_dma (s : State) (m : Nat) (x : MacSt) : (s.setMacSt m x).dma = s.dma := rfl

/-! ### setCore -/

@[simp] theorem State.setCore_pending (s : State) (c : Nat) (k : Core) : (s.setCore c k).pending = s.pending := rfl
@[simp] theorem State.setCore_csr (s : State) (c : Nat) (k : Core) : (s.setCore c k).csr = s.csr := rfl
@[simp] theorem State.setCore_hold (s : State) (c : Nat) (k : Core) : (s.setCore c k).hold = s.hold := rfl
@[simp] theorem State.setCore_returned (s : State) (c : Nat) (k : Core) : (s.setCore c k).returned = s.returned := rfl
@[simp] theorem State.setCore_mem (s : State) (c : Nat) (k : Core) : (s.setCore c k).mem = s.mem := rfl
@[simp] theorem State.setCore_chk (s : State) (c : Nat) (k : Core) : (s.setCore c k).chk = s.chk := rfl
@[simp] theorem State.setCore_host (s : State) (c : Nat) (k : Core) : (s.setCore c k).host = s.host := rfl
@[simp] theorem State.setCore_devclk (s : State) (c : Nat) (k : Core) : (s.setCore c k).devclk = s.devclk := rfl
@[simp] theorem State.setCore_modes (s : State) (c : Nat) (k : Core) : (s.setCore c k).modes = s.modes := rfl
@[simp] theorem State.setCore_fences (s : State) (c : Nat) (k : Core) : (s.setCore c k).fences = s.fences := rfl
@[simp] theorem State.setCore_journal (s : State) (c : Nat) (k : Core) : (s.setCore c k).journal = s.journal := rfl
@[simp] theorem State.setCore_dvorys (s : State) (c : Nat) (k : Core) : (s.setCore c k).dvorys = s.dvorys := rfl
@[simp] theorem State.setCore_disp (s : State) (c : Nat) (k : Core) : (s.setCore c k).disp = s.disp := rfl
@[simp] theorem State.setCore_ledger (s : State) (c : Nat) (k : Core) : (s.setCore c k).ledger = s.ledger := rfl
@[simp] theorem State.setCore_mortar (s : State) (c : Nat) (k : Core) : (s.setCore c k).mortar = s.mortar := rfl
@[simp] theorem State.setCore_memSys (s : State) (c : Nat) (k : Core) : (s.setCore c k).memSys = s.memSys := rfl
@[simp] theorem State.setCore_pcie (s : State) (c : Nat) (k : Core) : (s.setCore c k).pcie = s.pcie := rfl
@[simp] theorem State.setCore_faults (s : State) (c : Nat) (k : Core) : (s.setCore c k).faults = s.faults := rfl
@[simp] theorem State.setCore_observe (s : State) (c : Nat) (k : Core) : (s.setCore c k).observe = s.observe := rfl
@[simp] theorem State.setCore_power (s : State) (c : Nat) (k : Core) : (s.setCore c k).power = s.power := rfl
@[simp] theorem State.setCore_free (s : State) (c : Nat) (k : Core) : (s.setCore c k).free = s.free := rfl
@[simp] theorem State.setCore_time (s : State) (c : Nat) (k : Core) : (s.setCore c k).time = s.time := rfl
@[simp] theorem State.setCore_streams (s : State) (c : Nat) (k : Core) : (s.setCore c k).streams = s.streams := rfl
@[simp] theorem State.setCore_lanes (s : State) (c : Nat) (k : Core) : (s.setCore c k).lanes = s.lanes := rfl
@[simp] theorem State.setCore_engines (s : State) (c : Nat) (k : Core) : (s.setCore c k).engines = s.engines := rfl
@[simp] theorem State.setCore_witness (s : State) (c : Nat) (k : Core) : (s.setCore c k).witness = s.witness := rfl
@[simp] theorem State.setCore_dma (s : State) (c : Nat) (k : Core) : (s.setCore c k).dma = s.dma := rfl
@[simp] theorem State.setCore_eth (s : State) (c : Nat) (k : Core) : (s.setCore c k).eth = s.eth := rfl

/-! ### setCmu -/

@[simp] theorem State.setCmu_pending (s : State) (n : Nat) (x : Cmu) : (s.setCmu n x).pending = s.pending := rfl
@[simp] theorem State.setCmu_csr (s : State) (n : Nat) (x : Cmu) : (s.setCmu n x).csr = s.csr := rfl
@[simp] theorem State.setCmu_hold (s : State) (n : Nat) (x : Cmu) : (s.setCmu n x).hold = s.hold := rfl
@[simp] theorem State.setCmu_returned (s : State) (n : Nat) (x : Cmu) : (s.setCmu n x).returned = s.returned := rfl
@[simp] theorem State.setCmu_mem (s : State) (n : Nat) (x : Cmu) : (s.setCmu n x).mem = s.mem := rfl
@[simp] theorem State.setCmu_chk (s : State) (n : Nat) (x : Cmu) : (s.setCmu n x).chk = s.chk := rfl
@[simp] theorem State.setCmu_host (s : State) (n : Nat) (x : Cmu) : (s.setCmu n x).host = s.host := rfl
@[simp] theorem State.setCmu_devclk (s : State) (n : Nat) (x : Cmu) : (s.setCmu n x).devclk = s.devclk := rfl
@[simp] theorem State.setCmu_modes (s : State) (n : Nat) (x : Cmu) : (s.setCmu n x).modes = s.modes := rfl
@[simp] theorem State.setCmu_fences (s : State) (n : Nat) (x : Cmu) : (s.setCmu n x).fences = s.fences := rfl
@[simp] theorem State.setCmu_journal (s : State) (n : Nat) (x : Cmu) : (s.setCmu n x).journal = s.journal := rfl
@[simp] theorem State.setCmu_dvorys (s : State) (n : Nat) (x : Cmu) : (s.setCmu n x).dvorys = s.dvorys := rfl
@[simp] theorem State.setCmu_disp (s : State) (n : Nat) (x : Cmu) : (s.setCmu n x).disp = s.disp := rfl
@[simp] theorem State.setCmu_ledger (s : State) (n : Nat) (x : Cmu) : (s.setCmu n x).ledger = s.ledger := rfl
@[simp] theorem State.setCmu_mortar (s : State) (n : Nat) (x : Cmu) : (s.setCmu n x).mortar = s.mortar := rfl
@[simp] theorem State.setCmu_memSys (s : State) (n : Nat) (x : Cmu) : (s.setCmu n x).memSys = s.memSys := rfl
@[simp] theorem State.setCmu_pcie (s : State) (n : Nat) (x : Cmu) : (s.setCmu n x).pcie = s.pcie := rfl
@[simp] theorem State.setCmu_faults (s : State) (n : Nat) (x : Cmu) : (s.setCmu n x).faults = s.faults := rfl
@[simp] theorem State.setCmu_observe (s : State) (n : Nat) (x : Cmu) : (s.setCmu n x).observe = s.observe := rfl
@[simp] theorem State.setCmu_power (s : State) (n : Nat) (x : Cmu) : (s.setCmu n x).power = s.power := rfl
@[simp] theorem State.setCmu_free (s : State) (n : Nat) (x : Cmu) : (s.setCmu n x).free = s.free := rfl
@[simp] theorem State.setCmu_time (s : State) (n : Nat) (x : Cmu) : (s.setCmu n x).time = s.time := rfl
@[simp] theorem State.setCmu_streams (s : State) (n : Nat) (x : Cmu) : (s.setCmu n x).streams = s.streams := rfl
@[simp] theorem State.setCmu_lanes (s : State) (n : Nat) (x : Cmu) : (s.setCmu n x).lanes = s.lanes := rfl
@[simp] theorem State.setCmu_engines (s : State) (n : Nat) (x : Cmu) : (s.setCmu n x).engines = s.engines := rfl
@[simp] theorem State.setCmu_witness (s : State) (n : Nat) (x : Cmu) : (s.setCmu n x).witness = s.witness := rfl
@[simp] theorem State.setCmu_dma (s : State) (n : Nat) (x : Cmu) : (s.setCmu n x).dma = s.dma := rfl
@[simp] theorem State.setCmu_eth (s : State) (n : Nat) (x : Cmu) : (s.setCmu n x).eth = s.eth := rfl

/-! ### setEng -/

@[simp] theorem State.setEng_pending (s : State) (u : Nat) (e : Engine) : (s.setEng u e).pending = s.pending := rfl
@[simp] theorem State.setEng_csr (s : State) (u : Nat) (e : Engine) : (s.setEng u e).csr = s.csr := rfl
@[simp] theorem State.setEng_hold (s : State) (u : Nat) (e : Engine) : (s.setEng u e).hold = s.hold := rfl
@[simp] theorem State.setEng_returned (s : State) (u : Nat) (e : Engine) : (s.setEng u e).returned = s.returned := rfl
@[simp] theorem State.setEng_mem (s : State) (u : Nat) (e : Engine) : (s.setEng u e).mem = s.mem := rfl
@[simp] theorem State.setEng_chk (s : State) (u : Nat) (e : Engine) : (s.setEng u e).chk = s.chk := rfl
@[simp] theorem State.setEng_host (s : State) (u : Nat) (e : Engine) : (s.setEng u e).host = s.host := rfl
@[simp] theorem State.setEng_devclk (s : State) (u : Nat) (e : Engine) : (s.setEng u e).devclk = s.devclk := rfl
@[simp] theorem State.setEng_modes (s : State) (u : Nat) (e : Engine) : (s.setEng u e).modes = s.modes := rfl
@[simp] theorem State.setEng_fences (s : State) (u : Nat) (e : Engine) : (s.setEng u e).fences = s.fences := rfl
@[simp] theorem State.setEng_journal (s : State) (u : Nat) (e : Engine) : (s.setEng u e).journal = s.journal := rfl
@[simp] theorem State.setEng_dvorys (s : State) (u : Nat) (e : Engine) : (s.setEng u e).dvorys = s.dvorys := rfl
@[simp] theorem State.setEng_disp (s : State) (u : Nat) (e : Engine) : (s.setEng u e).disp = s.disp := rfl
@[simp] theorem State.setEng_ledger (s : State) (u : Nat) (e : Engine) : (s.setEng u e).ledger = s.ledger := rfl
@[simp] theorem State.setEng_mortar (s : State) (u : Nat) (e : Engine) : (s.setEng u e).mortar = s.mortar := rfl
@[simp] theorem State.setEng_memSys (s : State) (u : Nat) (e : Engine) : (s.setEng u e).memSys = s.memSys := rfl
@[simp] theorem State.setEng_pcie (s : State) (u : Nat) (e : Engine) : (s.setEng u e).pcie = s.pcie := rfl
@[simp] theorem State.setEng_faults (s : State) (u : Nat) (e : Engine) : (s.setEng u e).faults = s.faults := rfl
@[simp] theorem State.setEng_observe (s : State) (u : Nat) (e : Engine) : (s.setEng u e).observe = s.observe := rfl
@[simp] theorem State.setEng_power (s : State) (u : Nat) (e : Engine) : (s.setEng u e).power = s.power := rfl
@[simp] theorem State.setEng_free (s : State) (u : Nat) (e : Engine) : (s.setEng u e).free = s.free := rfl
@[simp] theorem State.setEng_time (s : State) (u : Nat) (e : Engine) : (s.setEng u e).time = s.time := rfl
@[simp] theorem State.setEng_streams (s : State) (u : Nat) (e : Engine) : (s.setEng u e).streams = s.streams := rfl
@[simp] theorem State.setEng_lanes (s : State) (u : Nat) (e : Engine) : (s.setEng u e).lanes = s.lanes := rfl
@[simp] theorem State.setEng_sett (s : State) (u : Nat) (e : Engine) : (s.setEng u e).sett = s.sett := rfl
@[simp] theorem State.setEng_witness (s : State) (u : Nat) (e : Engine) : (s.setEng u e).witness = s.witness := rfl
@[simp] theorem State.setEng_dma (s : State) (u : Nat) (e : Engine) : (s.setEng u e).dma = s.dma := rfl
@[simp] theorem State.setEng_eth (s : State) (u : Nat) (e : Engine) : (s.setEng u e).eth = s.eth := rfl

/-! ### setTxns -/

@[simp] theorem State.setTxns_pending (s : State) (l : List Txn) : (s.setTxns l).pending = s.pending := rfl
@[simp] theorem State.setTxns_csr (s : State) (l : List Txn) : (s.setTxns l).csr = s.csr := rfl
@[simp] theorem State.setTxns_hold (s : State) (l : List Txn) : (s.setTxns l).hold = s.hold := rfl
@[simp] theorem State.setTxns_returned (s : State) (l : List Txn) : (s.setTxns l).returned = s.returned := rfl
@[simp] theorem State.setTxns_mem (s : State) (l : List Txn) : (s.setTxns l).mem = s.mem := rfl
@[simp] theorem State.setTxns_chk (s : State) (l : List Txn) : (s.setTxns l).chk = s.chk := rfl
@[simp] theorem State.setTxns_host (s : State) (l : List Txn) : (s.setTxns l).host = s.host := rfl
@[simp] theorem State.setTxns_devclk (s : State) (l : List Txn) : (s.setTxns l).devclk = s.devclk := rfl
@[simp] theorem State.setTxns_modes (s : State) (l : List Txn) : (s.setTxns l).modes = s.modes := rfl
@[simp] theorem State.setTxns_fences (s : State) (l : List Txn) : (s.setTxns l).fences = s.fences := rfl
@[simp] theorem State.setTxns_journal (s : State) (l : List Txn) : (s.setTxns l).journal = s.journal := rfl
@[simp] theorem State.setTxns_dvorys (s : State) (l : List Txn) : (s.setTxns l).dvorys = s.dvorys := rfl
@[simp] theorem State.setTxns_disp (s : State) (l : List Txn) : (s.setTxns l).disp = s.disp := rfl
@[simp] theorem State.setTxns_ledger (s : State) (l : List Txn) : (s.setTxns l).ledger = s.ledger := rfl
@[simp] theorem State.setTxns_memSys (s : State) (l : List Txn) : (s.setTxns l).memSys = s.memSys := rfl
@[simp] theorem State.setTxns_pcie (s : State) (l : List Txn) : (s.setTxns l).pcie = s.pcie := rfl
@[simp] theorem State.setTxns_faults (s : State) (l : List Txn) : (s.setTxns l).faults = s.faults := rfl
@[simp] theorem State.setTxns_observe (s : State) (l : List Txn) : (s.setTxns l).observe = s.observe := rfl
@[simp] theorem State.setTxns_power (s : State) (l : List Txn) : (s.setTxns l).power = s.power := rfl
@[simp] theorem State.setTxns_free (s : State) (l : List Txn) : (s.setTxns l).free = s.free := rfl
@[simp] theorem State.setTxns_time (s : State) (l : List Txn) : (s.setTxns l).time = s.time := rfl
@[simp] theorem State.setTxns_streams (s : State) (l : List Txn) : (s.setTxns l).streams = s.streams := rfl
@[simp] theorem State.setTxns_lanes (s : State) (l : List Txn) : (s.setTxns l).lanes = s.lanes := rfl
@[simp] theorem State.setTxns_sett (s : State) (l : List Txn) : (s.setTxns l).sett = s.sett := rfl
@[simp] theorem State.setTxns_engines (s : State) (l : List Txn) : (s.setTxns l).engines = s.engines := rfl
@[simp] theorem State.setTxns_witness (s : State) (l : List Txn) : (s.setTxns l).witness = s.witness := rfl
@[simp] theorem State.setTxns_dma (s : State) (l : List Txn) : (s.setTxns l).dma = s.dma := rfl
@[simp] theorem State.setTxns_eth (s : State) (l : List Txn) : (s.setTxns l).eth = s.eth := rfl

/-! ### setImages -/

@[simp] theorem State.setImages_pending (s : State) (x : Images) : (s.setImages x).pending = s.pending := rfl
@[simp] theorem State.setImages_csr (s : State) (x : Images) : (s.setImages x).csr = s.csr := rfl
@[simp] theorem State.setImages_hold (s : State) (x : Images) : (s.setImages x).hold = s.hold := rfl
@[simp] theorem State.setImages_returned (s : State) (x : Images) : (s.setImages x).returned = s.returned := rfl
@[simp] theorem State.setImages_mem (s : State) (x : Images) : (s.setImages x).mem = s.mem := rfl
@[simp] theorem State.setImages_chk (s : State) (x : Images) : (s.setImages x).chk = s.chk := rfl
@[simp] theorem State.setImages_host (s : State) (x : Images) : (s.setImages x).host = s.host := rfl
@[simp] theorem State.setImages_devclk (s : State) (x : Images) : (s.setImages x).devclk = s.devclk := rfl
@[simp] theorem State.setImages_modes (s : State) (x : Images) : (s.setImages x).modes = s.modes := rfl
@[simp] theorem State.setImages_fences (s : State) (x : Images) : (s.setImages x).fences = s.fences := rfl
@[simp] theorem State.setImages_journal (s : State) (x : Images) : (s.setImages x).journal = s.journal := rfl
@[simp] theorem State.setImages_disp (s : State) (x : Images) : (s.setImages x).disp = s.disp := rfl
@[simp] theorem State.setImages_ledger (s : State) (x : Images) : (s.setImages x).ledger = s.ledger := rfl
@[simp] theorem State.setImages_mortar (s : State) (x : Images) : (s.setImages x).mortar = s.mortar := rfl
@[simp] theorem State.setImages_memSys (s : State) (x : Images) : (s.setImages x).memSys = s.memSys := rfl
@[simp] theorem State.setImages_pcie (s : State) (x : Images) : (s.setImages x).pcie = s.pcie := rfl
@[simp] theorem State.setImages_faults (s : State) (x : Images) : (s.setImages x).faults = s.faults := rfl
@[simp] theorem State.setImages_observe (s : State) (x : Images) : (s.setImages x).observe = s.observe := rfl
@[simp] theorem State.setImages_power (s : State) (x : Images) : (s.setImages x).power = s.power := rfl
@[simp] theorem State.setImages_free (s : State) (x : Images) : (s.setImages x).free = s.free := rfl
@[simp] theorem State.setImages_time (s : State) (x : Images) : (s.setImages x).time = s.time := rfl
@[simp] theorem State.setImages_streams (s : State) (x : Images) : (s.setImages x).streams = s.streams := rfl
@[simp] theorem State.setImages_lanes (s : State) (x : Images) : (s.setImages x).lanes = s.lanes := rfl
@[simp] theorem State.setImages_sett (s : State) (x : Images) : (s.setImages x).sett = s.sett := rfl
@[simp] theorem State.setImages_engines (s : State) (x : Images) : (s.setImages x).engines = s.engines := rfl
@[simp] theorem State.setImages_witness (s : State) (x : Images) : (s.setImages x).witness = s.witness := rfl
@[simp] theorem State.setImages_dma (s : State) (x : Images) : (s.setImages x).dma = s.dma := rfl
@[simp] theorem State.setImages_eth (s : State) (x : Images) : (s.setImages x).eth = s.eth := rfl

/-! ### setCollect -/

@[simp] theorem State.setCollect_pending (s : State) (c : Option Collect) : (s.setCollect c).pending = s.pending := rfl
@[simp] theorem State.setCollect_csr (s : State) (c : Option Collect) : (s.setCollect c).csr = s.csr := rfl
@[simp] theorem State.setCollect_hold (s : State) (c : Option Collect) : (s.setCollect c).hold = s.hold := rfl
@[simp] theorem State.setCollect_returned (s : State) (c : Option Collect) : (s.setCollect c).returned = s.returned := rfl
@[simp] theorem State.setCollect_mem (s : State) (c : Option Collect) : (s.setCollect c).mem = s.mem := rfl
@[simp] theorem State.setCollect_chk (s : State) (c : Option Collect) : (s.setCollect c).chk = s.chk := rfl
@[simp] theorem State.setCollect_host (s : State) (c : Option Collect) : (s.setCollect c).host = s.host := rfl
@[simp] theorem State.setCollect_devclk (s : State) (c : Option Collect) : (s.setCollect c).devclk = s.devclk := rfl
@[simp] theorem State.setCollect_modes (s : State) (c : Option Collect) : (s.setCollect c).modes = s.modes := rfl
@[simp] theorem State.setCollect_fences (s : State) (c : Option Collect) : (s.setCollect c).fences = s.fences := rfl
@[simp] theorem State.setCollect_journal (s : State) (c : Option Collect) : (s.setCollect c).journal = s.journal := rfl
@[simp] theorem State.setCollect_dvorys (s : State) (c : Option Collect) : (s.setCollect c).dvorys = s.dvorys := rfl
@[simp] theorem State.setCollect_disp (s : State) (c : Option Collect) : (s.setCollect c).disp = s.disp := rfl
@[simp] theorem State.setCollect_ledger (s : State) (c : Option Collect) : (s.setCollect c).ledger = s.ledger := rfl
@[simp] theorem State.setCollect_mortar (s : State) (c : Option Collect) : (s.setCollect c).mortar = s.mortar := rfl
@[simp] theorem State.setCollect_memSys (s : State) (c : Option Collect) : (s.setCollect c).memSys = s.memSys := rfl
@[simp] theorem State.setCollect_pcie (s : State) (c : Option Collect) : (s.setCollect c).pcie = s.pcie := rfl
@[simp] theorem State.setCollect_faults (s : State) (c : Option Collect) : (s.setCollect c).faults = s.faults := rfl
@[simp] theorem State.setCollect_power (s : State) (c : Option Collect) : (s.setCollect c).power = s.power := rfl
@[simp] theorem State.setCollect_free (s : State) (c : Option Collect) : (s.setCollect c).free = s.free := rfl
@[simp] theorem State.setCollect_time (s : State) (c : Option Collect) : (s.setCollect c).time = s.time := rfl
@[simp] theorem State.setCollect_streams (s : State) (c : Option Collect) : (s.setCollect c).streams = s.streams := rfl
@[simp] theorem State.setCollect_lanes (s : State) (c : Option Collect) : (s.setCollect c).lanes = s.lanes := rfl
@[simp] theorem State.setCollect_sett (s : State) (c : Option Collect) : (s.setCollect c).sett = s.sett := rfl
@[simp] theorem State.setCollect_engines (s : State) (c : Option Collect) : (s.setCollect c).engines = s.engines := rfl
@[simp] theorem State.setCollect_witness (s : State) (c : Option Collect) : (s.setCollect c).witness = s.witness := rfl
@[simp] theorem State.setCollect_dma (s : State) (c : Option Collect) : (s.setCollect c).dma = s.dma := rfl
@[simp] theorem State.setCollect_eth (s : State) (c : Option Collect) : (s.setCollect c).eth = s.eth := rfl

/-! ### setVec -/

@[simp] theorem State.setVec_pending (s : State) (p : Nat) (v : MsixVec) : (s.setVec p v).pending = s.pending := rfl
@[simp] theorem State.setVec_csr (s : State) (p : Nat) (v : MsixVec) : (s.setVec p v).csr = s.csr := rfl
@[simp] theorem State.setVec_hold (s : State) (p : Nat) (v : MsixVec) : (s.setVec p v).hold = s.hold := rfl
@[simp] theorem State.setVec_returned (s : State) (p : Nat) (v : MsixVec) : (s.setVec p v).returned = s.returned := rfl
@[simp] theorem State.setVec_mem (s : State) (p : Nat) (v : MsixVec) : (s.setVec p v).mem = s.mem := rfl
@[simp] theorem State.setVec_chk (s : State) (p : Nat) (v : MsixVec) : (s.setVec p v).chk = s.chk := rfl
@[simp] theorem State.setVec_host (s : State) (p : Nat) (v : MsixVec) : (s.setVec p v).host = s.host := rfl
@[simp] theorem State.setVec_devclk (s : State) (p : Nat) (v : MsixVec) : (s.setVec p v).devclk = s.devclk := rfl
@[simp] theorem State.setVec_modes (s : State) (p : Nat) (v : MsixVec) : (s.setVec p v).modes = s.modes := rfl
@[simp] theorem State.setVec_fences (s : State) (p : Nat) (v : MsixVec) : (s.setVec p v).fences = s.fences := rfl
@[simp] theorem State.setVec_journal (s : State) (p : Nat) (v : MsixVec) : (s.setVec p v).journal = s.journal := rfl
@[simp] theorem State.setVec_dvorys (s : State) (p : Nat) (v : MsixVec) : (s.setVec p v).dvorys = s.dvorys := rfl
@[simp] theorem State.setVec_disp (s : State) (p : Nat) (v : MsixVec) : (s.setVec p v).disp = s.disp := rfl
@[simp] theorem State.setVec_ledger (s : State) (p : Nat) (v : MsixVec) : (s.setVec p v).ledger = s.ledger := rfl
@[simp] theorem State.setVec_mortar (s : State) (p : Nat) (v : MsixVec) : (s.setVec p v).mortar = s.mortar := rfl
@[simp] theorem State.setVec_memSys (s : State) (p : Nat) (v : MsixVec) : (s.setVec p v).memSys = s.memSys := rfl
@[simp] theorem State.setVec_faults (s : State) (p : Nat) (v : MsixVec) : (s.setVec p v).faults = s.faults := rfl
@[simp] theorem State.setVec_observe (s : State) (p : Nat) (v : MsixVec) : (s.setVec p v).observe = s.observe := rfl
@[simp] theorem State.setVec_power (s : State) (p : Nat) (v : MsixVec) : (s.setVec p v).power = s.power := rfl
@[simp] theorem State.setVec_free (s : State) (p : Nat) (v : MsixVec) : (s.setVec p v).free = s.free := rfl
@[simp] theorem State.setVec_time (s : State) (p : Nat) (v : MsixVec) : (s.setVec p v).time = s.time := rfl
@[simp] theorem State.setVec_streams (s : State) (p : Nat) (v : MsixVec) : (s.setVec p v).streams = s.streams := rfl
@[simp] theorem State.setVec_lanes (s : State) (p : Nat) (v : MsixVec) : (s.setVec p v).lanes = s.lanes := rfl
@[simp] theorem State.setVec_sett (s : State) (p : Nat) (v : MsixVec) : (s.setVec p v).sett = s.sett := rfl
@[simp] theorem State.setVec_engines (s : State) (p : Nat) (v : MsixVec) : (s.setVec p v).engines = s.engines := rfl
@[simp] theorem State.setVec_witness (s : State) (p : Nat) (v : MsixVec) : (s.setVec p v).witness = s.witness := rfl
@[simp] theorem State.setVec_dma (s : State) (p : Nat) (v : MsixVec) : (s.setVec p v).dma = s.dma := rfl
@[simp] theorem State.setVec_eth (s : State) (p : Nat) (v : MsixVec) : (s.setVec p v).eth = s.eth := rfl

/-! ### setReply -/

@[simp] theorem State.setReply_pending (s : State) (status : Nat) (l : List (Byte × Bool)) : (s.setReply status l).pending = s.pending := rfl
@[simp] theorem State.setReply_csr (s : State) (status : Nat) (l : List (Byte × Bool)) : (s.setReply status l).csr = s.csr := rfl
@[simp] theorem State.setReply_hold (s : State) (status : Nat) (l : List (Byte × Bool)) : (s.setReply status l).hold = s.hold := rfl
@[simp] theorem State.setReply_returned (s : State) (status : Nat) (l : List (Byte × Bool)) : (s.setReply status l).returned = s.returned := rfl
@[simp] theorem State.setReply_mem (s : State) (status : Nat) (l : List (Byte × Bool)) : (s.setReply status l).mem = s.mem := rfl
@[simp] theorem State.setReply_chk (s : State) (status : Nat) (l : List (Byte × Bool)) : (s.setReply status l).chk = s.chk := rfl
@[simp] theorem State.setReply_host (s : State) (status : Nat) (l : List (Byte × Bool)) : (s.setReply status l).host = s.host := rfl
@[simp] theorem State.setReply_devclk (s : State) (status : Nat) (l : List (Byte × Bool)) : (s.setReply status l).devclk = s.devclk := rfl
@[simp] theorem State.setReply_modes (s : State) (status : Nat) (l : List (Byte × Bool)) : (s.setReply status l).modes = s.modes := rfl
@[simp] theorem State.setReply_fences (s : State) (status : Nat) (l : List (Byte × Bool)) : (s.setReply status l).fences = s.fences := rfl
@[simp] theorem State.setReply_journal (s : State) (status : Nat) (l : List (Byte × Bool)) : (s.setReply status l).journal = s.journal := rfl
@[simp] theorem State.setReply_dvorys (s : State) (status : Nat) (l : List (Byte × Bool)) : (s.setReply status l).dvorys = s.dvorys := rfl
@[simp] theorem State.setReply_disp (s : State) (status : Nat) (l : List (Byte × Bool)) : (s.setReply status l).disp = s.disp := rfl
@[simp] theorem State.setReply_ledger (s : State) (status : Nat) (l : List (Byte × Bool)) : (s.setReply status l).ledger = s.ledger := rfl
@[simp] theorem State.setReply_mortar (s : State) (status : Nat) (l : List (Byte × Bool)) : (s.setReply status l).mortar = s.mortar := rfl
@[simp] theorem State.setReply_memSys (s : State) (status : Nat) (l : List (Byte × Bool)) : (s.setReply status l).memSys = s.memSys := rfl
@[simp] theorem State.setReply_faults (s : State) (status : Nat) (l : List (Byte × Bool)) : (s.setReply status l).faults = s.faults := rfl
@[simp] theorem State.setReply_observe (s : State) (status : Nat) (l : List (Byte × Bool)) : (s.setReply status l).observe = s.observe := rfl
@[simp] theorem State.setReply_power (s : State) (status : Nat) (l : List (Byte × Bool)) : (s.setReply status l).power = s.power := rfl
@[simp] theorem State.setReply_free (s : State) (status : Nat) (l : List (Byte × Bool)) : (s.setReply status l).free = s.free := rfl
@[simp] theorem State.setReply_time (s : State) (status : Nat) (l : List (Byte × Bool)) : (s.setReply status l).time = s.time := rfl
@[simp] theorem State.setReply_streams (s : State) (status : Nat) (l : List (Byte × Bool)) : (s.setReply status l).streams = s.streams := rfl
@[simp] theorem State.setReply_lanes (s : State) (status : Nat) (l : List (Byte × Bool)) : (s.setReply status l).lanes = s.lanes := rfl
@[simp] theorem State.setReply_sett (s : State) (status : Nat) (l : List (Byte × Bool)) : (s.setReply status l).sett = s.sett := rfl
@[simp] theorem State.setReply_engines (s : State) (status : Nat) (l : List (Byte × Bool)) : (s.setReply status l).engines = s.engines := rfl
@[simp] theorem State.setReply_witness (s : State) (status : Nat) (l : List (Byte × Bool)) : (s.setReply status l).witness = s.witness := rfl
@[simp] theorem State.setReply_dma (s : State) (status : Nat) (l : List (Byte × Bool)) : (s.setReply status l).dma = s.dma := rfl
@[simp] theorem State.setReply_eth (s : State) (status : Nat) (l : List (Byte × Bool)) : (s.setReply status l).eth = s.eth := rfl

end Sys2Proof.Machine
end

