-- ==== Sys2Proof/Laws/Events.lean ====
section
/-! SUPPORT. What posting an event and counting one can do: the journal's FIFOs and the counter banks, and nothing else. -/
namespace Sys2Proof.Machine

/-- What every step of a fold leaves as it was, the fold leaves as it was. -/
theorem foldl_leaves {α β γ : Type} (g : β → γ) {f : β → α → β} (l : List α) (s : β) (h : ∀ s x, x ∈ l → g (f s x) = g s) :
    g (l.foldl f s) = g s := by
  induction l generalizing s with
  | nil => rfl
  | cons x r ih =>
    rw [List.foldl_cons, ih _ (fun s y hy => h s y (List.mem_cons_of_mem _ hy)), h s x List.mem_cons_self]

/-- Counting an event changes registers of the counter banks only (R401). -/
theorem State.countEvent_reg (s : State) (cls inst ev n c i o : Nat) (h : o < 0x3A4) :
    (s.countEvent cls inst ev n).reg c i o = s.reg c i o := by
  unfold State.countEvent
  split
  · rfl
  refine foldl_leaves (fun s : State => s.reg c i o) _ s (fun s k hk => ?_)
  have hk : k < 8 := List.mem_range.mp hk
  have key (o' : Nat) (ho : 0x3A4 ≤ o' % 1024) : csrKey c i o ≠ csrKey cls inst o' := by unfold csrKey; omega
  have k1 : csrKey c i o ≠ csrKey cls inst 0x3A4 := key _ (by decide)
  have k2 : csrKey c i o ≠ csrKey cls inst (0x3C0 + 8 * k) := key _ (by omega)
  have k3 : csrKey c i o ≠ csrKey cls inst (0x3C4 + 8 * k) := key _ (by omega)
  dsimp only
  split
  · split
    · rw [State.reg_setReg_other _ _ k3, State.reg_setReg_other _ _ k2]
    · rw [State.reg_setReg_other _ _ k1, State.reg_setReg_other _ _ k3, State.reg_setReg_other _ _ k2]
  · rfl

theorem State.countEvent_fld (s : State) (cls inst ev n i : Nat) (f : Field) (h : f.off < 0x3A4) :
    (s.countEvent cls inst ev n).fld f i = s.fld f i := by
  simp only [State.fld, State.countEvent_reg s _ _ _ _ _ _ _ h]

theorem State.countLost_fld (s : State) (cls inst i : Nat) (f : Field) (h : f.off < 0x3A4) :
    (s.countLost cls inst).fld f i = s.fld f i := State.countEvent_fld _ _ _ _ _ _ f h

/-- Posting an event changes no register outside the counter banks. -/
theorem State.post_fld (s : State) (cls inst event sev detail i : Nat) (f : Field) (h : f.off < 0x3A4) :
    (s.post cls inst event sev detail).fld f i = s.fld f i := by
  unfold State.post
  dsimp only
  split
  · split
    · split <;> rfl
    · exact State.countLost_fld s _ _ _ f h
  · split
    · exact State.countEvent_fld _ _ _ _ _ _ f h
    · exact State.countLost_fld s _ _ _ f h

/-- What a step of a fold does as a change of the registers alone, the fold does. -/
theorem foldl_csr {α : Type} {f : State → α → State} (l : List α) (s : State) (h : ∀ s x, ∃ r, f s x = { s with csr := r }) :
    ∃ r, l.foldl f s = { s with csr := r } := by
  induction l generalizing s with
  | nil => exact ⟨s.csr, rfl⟩
  | cons x l ih =>
    obtain ⟨r, e⟩ := h s x
    obtain ⟨r', e'⟩ := ih (f s x)
    exact ⟨r', by rw [List.foldl_cons, e', e]⟩

/-- Counting an event changes registers and nothing else. -/
theorem State.countEvent_is (s : State) (cls inst ev n : Nat) : ∃ r, s.countEvent cls inst ev n = { s with csr := r } := by
  unfold State.countEvent
  split
  · exact ⟨s.csr, rfl⟩
  refine foldl_csr _ s (fun s k => ?_)
  dsimp only
  split
  · split <;> exact ⟨_, rfl⟩
  · exact ⟨s.csr, rfl⟩

/-- Posting an event changes registers and the journal's FIFOs, and nothing else. -/
theorem State.post_is (s : State) (cls inst event sev detail : Nat) :
    ∃ r j, s.post cls inst event sev detail = { s with csr := r, journal := j } := by
  have count (s' : State) (j : Journal) (e' : s' = { s with journal := j }) (n : Nat) :
      ∃ r j, s'.countEvent cls inst n 1 = { s with csr := r, journal := j } := by
    obtain ⟨r, e⟩ := s'.countEvent_is cls inst n 1
    exact ⟨r, j, by rw [e, e']⟩
  unfold State.post
  dsimp only
  split
  · split
    · split
      · exact ⟨s.csr, _, rfl⟩
      · exact ⟨s.csr, _, rfl⟩
    · exact count _ _ rfl 6
  · split
    · exact count _ _ rfl 5
    · exact count _ _ rfl 6

@[simp] theorem State.countEvent_pending (s : State) (cls inst ev n : Nat) : (s.countEvent cls inst ev n).pending = s.pending := by
  obtain ⟨r, e⟩ := s.countEvent_is cls inst ev n
  rw [e]

@[simp] theorem State.countEvent_hold (s : State) (cls inst ev n : Nat) : (s.countEvent cls inst ev n).hold = s.hold := by
  obtain ⟨r, e⟩ := s.countEvent_is cls inst ev n
  rw [e]

@[simp] theorem State.countEvent_returned (s : State) (cls inst ev n : Nat) : (s.countEvent cls inst ev n).returned = s.returned := by
  obtain ⟨r, e⟩ := s.countEvent_is cls inst ev n
  rw [e]

@[simp] theorem State.countEvent_mem (s : State) (cls inst ev n : Nat) : (s.countEvent cls inst ev n).mem = s.mem := by
  obtain ⟨r, e⟩ := s.countEvent_is cls inst ev n
  rw [e]

@[simp] theorem State.countEvent_chk (s : State) (cls inst ev n : Nat) : (s.countEvent cls inst ev n).chk = s.chk := by
  obtain ⟨r, e⟩ := s.countEvent_is cls inst ev n
  rw [e]

@[simp] theorem State.countEvent_host (s : State) (cls inst ev n : Nat) : (s.countEvent cls inst ev n).host = s.host := by
  obtain ⟨r, e⟩ := s.countEvent_is cls inst ev n
  rw [e]

@[simp] theorem State.countEvent_devclk (s : State) (cls inst ev n : Nat) : (s.countEvent cls inst ev n).devclk = s.devclk := by
  obtain ⟨r, e⟩ := s.countEvent_is cls inst ev n
  rw [e]

@[simp] theorem State.countEvent_modes (s : State) (cls inst ev n : Nat) : (s.countEvent cls inst ev n).modes = s.modes := by
  obtain ⟨r, e⟩ := s.countEvent_is cls inst ev n
  rw [e]

@[simp] theorem State.countEvent_fences (s : State) (cls inst ev n : Nat) : (s.countEvent cls inst ev n).fences = s.fences := by
  obtain ⟨r, e⟩ := s.countEvent_is cls inst ev n
  rw [e]

@[simp] theorem State.countEvent_journal (s : State) (cls inst ev n : Nat) : (s.countEvent cls inst ev n).journal = s.journal := by
  obtain ⟨r, e⟩ := s.countEvent_is cls inst ev n
  rw [e]

@[simp] theorem State.countEvent_dvorys (s : State) (cls inst ev n : Nat) : (s.countEvent cls inst ev n).dvorys = s.dvorys := by
  obtain ⟨r, e⟩ := s.countEvent_is cls inst ev n
  rw [e]

@[simp] theorem State.countEvent_disp (s : State) (cls inst ev n : Nat) : (s.countEvent cls inst ev n).disp = s.disp := by
  obtain ⟨r, e⟩ := s.countEvent_is cls inst ev n
  rw [e]

@[simp] theorem State.countEvent_ledger (s : State) (cls inst ev n : Nat) : (s.countEvent cls inst ev n).ledger = s.ledger := by
  obtain ⟨r, e⟩ := s.countEvent_is cls inst ev n
  rw [e]

@[simp] theorem State.countEvent_mortar (s : State) (cls inst ev n : Nat) : (s.countEvent cls inst ev n).mortar = s.mortar := by
  obtain ⟨r, e⟩ := s.countEvent_is cls inst ev n
  rw [e]

@[simp] theorem State.countEvent_memSys (s : State) (cls inst ev n : Nat) : (s.countEvent cls inst ev n).memSys = s.memSys := by
  obtain ⟨r, e⟩ := s.countEvent_is cls inst ev n
  rw [e]

@[simp] theorem State.countEvent_pcie (s : State) (cls inst ev n : Nat) : (s.countEvent cls inst ev n).pcie = s.pcie := by
  obtain ⟨r, e⟩ := s.countEvent_is cls inst ev n
  rw [e]

@[simp] theorem State.countEvent_faults (s : State) (cls inst ev n : Nat) : (s.countEvent cls inst ev n).faults = s.faults := by
  obtain ⟨r, e⟩ := s.countEvent_is cls inst ev n
  rw [e]

@[simp] theorem State.countEvent_observe (s : State) (cls inst ev n : Nat) : (s.countEvent cls inst ev n).observe = s.observe := by
  obtain ⟨r, e⟩ := s.countEvent_is cls inst ev n
  rw [e]

@[simp] theorem State.countEvent_power (s : State) (cls inst ev n : Nat) : (s.countEvent cls inst ev n).power = s.power := by
  obtain ⟨r, e⟩ := s.countEvent_is cls inst ev n
  rw [e]

@[simp] theorem State.countEvent_free (s : State) (cls inst ev n : Nat) : (s.countEvent cls inst ev n).free = s.free := by
  obtain ⟨r, e⟩ := s.countEvent_is cls inst ev n
  rw [e]

@[simp] theorem State.countEvent_time (s : State) (cls inst ev n : Nat) : (s.countEvent cls inst ev n).time = s.time := by
  obtain ⟨r, e⟩ := s.countEvent_is cls inst ev n
  rw [e]

@[simp] theorem State.countEvent_streams (s : State) (cls inst ev n : Nat) : (s.countEvent cls inst ev n).streams = s.streams := by
  obtain ⟨r, e⟩ := s.countEvent_is cls inst ev n
  rw [e]

@[simp] theorem State.countEvent_lanes (s : State) (cls inst ev n : Nat) : (s.countEvent cls inst ev n).lanes = s.lanes := by
  obtain ⟨r, e⟩ := s.countEvent_is cls inst ev n
  rw [e]

@[simp] theorem State.countEvent_sett (s : State) (cls inst ev n : Nat) : (s.countEvent cls inst ev n).sett = s.sett := by
  obtain ⟨r, e⟩ := s.countEvent_is cls inst ev n
  rw [e]

@[simp] theorem State.countEvent_engines (s : State) (cls inst ev n : Nat) : (s.countEvent cls inst ev n).engines = s.engines := by
  obtain ⟨r, e⟩ := s.countEvent_is cls inst ev n
  rw [e]

@[simp] theorem State.countEvent_witness (s : State) (cls inst ev n : Nat) : (s.countEvent cls inst ev n).witness = s.witness := by
  obtain ⟨r, e⟩ := s.countEvent_is cls inst ev n
  rw [e]

@[simp] theorem State.countEvent_dma (s : State) (cls inst ev n : Nat) : (s.countEvent cls inst ev n).dma = s.dma := by
  obtain ⟨r, e⟩ := s.countEvent_is cls inst ev n
  rw [e]

@[simp] theorem State.countEvent_eth (s : State) (cls inst ev n : Nat) : (s.countEvent cls inst ev n).eth = s.eth := by
  obtain ⟨r, e⟩ := s.countEvent_is cls inst ev n
  rw [e]

@[simp] theorem State.countLost_pending (s : State) (cls inst : Nat) : (s.countLost cls inst).pending = s.pending :=
  State.countEvent_pending _ _ _ _ _

@[simp] theorem State.post_pending (s : State) (cls inst event sev detail : Nat) :
    (s.post cls inst event sev detail).pending = s.pending := by
  obtain ⟨r, j, e⟩ := s.post_is cls inst event sev detail
  rw [e]

@[simp] theorem State.countLost_hold (s : State) (cls inst : Nat) : (s.countLost cls inst).hold = s.hold :=
  State.countEvent_hold _ _ _ _ _

@[simp] theorem State.post_hold (s : State) (cls inst event sev detail : Nat) :
    (s.post cls inst event sev detail).hold = s.hold := by
  obtain ⟨r, j, e⟩ := s.post_is cls inst event sev detail
  rw [e]

@[simp] theorem State.countLost_returned (s : State) (cls inst : Nat) : (s.countLost cls inst).returned = s.returned :=
  State.countEvent_returned _ _ _ _ _

@[simp] theorem State.post_returned (s : State) (cls inst event sev detail : Nat) :
    (s.post cls inst event sev detail).returned = s.returned := by
  obtain ⟨r, j, e⟩ := s.post_is cls inst event sev detail
  rw [e]

@[simp] theorem State.countLost_mem (s : State) (cls inst : Nat) : (s.countLost cls inst).mem = s.mem :=
  State.countEvent_mem _ _ _ _ _

@[simp] theorem State.post_mem (s : State) (cls inst event sev detail : Nat) :
    (s.post cls inst event sev detail).mem = s.mem := by
  obtain ⟨r, j, e⟩ := s.post_is cls inst event sev detail
  rw [e]

@[simp] theorem State.countLost_chk (s : State) (cls inst : Nat) : (s.countLost cls inst).chk = s.chk :=
  State.countEvent_chk _ _ _ _ _

@[simp] theorem State.post_chk (s : State) (cls inst event sev detail : Nat) :
    (s.post cls inst event sev detail).chk = s.chk := by
  obtain ⟨r, j, e⟩ := s.post_is cls inst event sev detail
  rw [e]

@[simp] theorem State.countLost_host (s : State) (cls inst : Nat) : (s.countLost cls inst).host = s.host :=
  State.countEvent_host _ _ _ _ _

@[simp] theorem State.post_host (s : State) (cls inst event sev detail : Nat) :
    (s.post cls inst event sev detail).host = s.host := by
  obtain ⟨r, j, e⟩ := s.post_is cls inst event sev detail
  rw [e]

@[simp] theorem State.countLost_devclk (s : State) (cls inst : Nat) : (s.countLost cls inst).devclk = s.devclk :=
  State.countEvent_devclk _ _ _ _ _

@[simp] theorem State.post_devclk (s : State) (cls inst event sev detail : Nat) :
    (s.post cls inst event sev detail).devclk = s.devclk := by
  obtain ⟨r, j, e⟩ := s.post_is cls inst event sev detail
  rw [e]

@[simp] theorem State.countLost_modes (s : State) (cls inst : Nat) : (s.countLost cls inst).modes = s.modes :=
  State.countEvent_modes _ _ _ _ _

@[simp] theorem State.post_modes (s : State) (cls inst event sev detail : Nat) :
    (s.post cls inst event sev detail).modes = s.modes := by
  obtain ⟨r, j, e⟩ := s.post_is cls inst event sev detail
  rw [e]

@[simp] theorem State.countLost_fences (s : State) (cls inst : Nat) : (s.countLost cls inst).fences = s.fences :=
  State.countEvent_fences _ _ _ _ _

@[simp] theorem State.post_fences (s : State) (cls inst event sev detail : Nat) :
    (s.post cls inst event sev detail).fences = s.fences := by
  obtain ⟨r, j, e⟩ := s.post_is cls inst event sev detail
  rw [e]

@[simp] theorem State.countLost_dvorys (s : State) (cls inst : Nat) : (s.countLost cls inst).dvorys = s.dvorys :=
  State.countEvent_dvorys _ _ _ _ _

@[simp] theorem State.post_dvorys (s : State) (cls inst event sev detail : Nat) :
    (s.post cls inst event sev detail).dvorys = s.dvorys := by
  obtain ⟨r, j, e⟩ := s.post_is cls inst event sev detail
  rw [e]

@[simp] theorem State.countLost_disp (s : State) (cls inst : Nat) : (s.countLost cls inst).disp = s.disp :=
  State.countEvent_disp _ _ _ _ _

@[simp] theorem State.post_disp (s : State) (cls inst event sev detail : Nat) :
    (s.post cls inst event sev detail).disp = s.disp := by
  obtain ⟨r, j, e⟩ := s.post_is cls inst event sev detail
  rw [e]

@[simp] theorem State.countLost_ledger (s : State) (cls inst : Nat) : (s.countLost cls inst).ledger = s.ledger :=
  State.countEvent_ledger _ _ _ _ _

@[simp] theorem State.post_ledger (s : State) (cls inst event sev detail : Nat) :
    (s.post cls inst event sev detail).ledger = s.ledger := by
  obtain ⟨r, j, e⟩ := s.post_is cls inst event sev detail
  rw [e]

@[simp] theorem State.countLost_mortar (s : State) (cls inst : Nat) : (s.countLost cls inst).mortar = s.mortar :=
  State.countEvent_mortar _ _ _ _ _

@[simp] theorem State.post_mortar (s : State) (cls inst event sev detail : Nat) :
    (s.post cls inst event sev detail).mortar = s.mortar := by
  obtain ⟨r, j, e⟩ := s.post_is cls inst event sev detail
  rw [e]

@[simp] theorem State.countLost_memSys (s : State) (cls inst : Nat) : (s.countLost cls inst).memSys = s.memSys :=
  State.countEvent_memSys _ _ _ _ _

@[simp] theorem State.post_memSys (s : State) (cls inst event sev detail : Nat) :
    (s.post cls inst event sev detail).memSys = s.memSys := by
  obtain ⟨r, j, e⟩ := s.post_is cls inst event sev detail
  rw [e]

@[simp] theorem State.countLost_pcie (s : State) (cls inst : Nat) : (s.countLost cls inst).pcie = s.pcie :=
  State.countEvent_pcie _ _ _ _ _

@[simp] theorem State.post_pcie (s : State) (cls inst event sev detail : Nat) :
    (s.post cls inst event sev detail).pcie = s.pcie := by
  obtain ⟨r, j, e⟩ := s.post_is cls inst event sev detail
  rw [e]

@[simp] theorem State.countLost_faults (s : State) (cls inst : Nat) : (s.countLost cls inst).faults = s.faults :=
  State.countEvent_faults _ _ _ _ _

@[simp] theorem State.post_faults (s : State) (cls inst event sev detail : Nat) :
    (s.post cls inst event sev detail).faults = s.faults := by
  obtain ⟨r, j, e⟩ := s.post_is cls inst event sev detail
  rw [e]

@[simp] theorem State.countLost_observe (s : State) (cls inst : Nat) : (s.countLost cls inst).observe = s.observe :=
  State.countEvent_observe _ _ _ _ _

@[simp] theorem State.post_observe (s : State) (cls inst event sev detail : Nat) :
    (s.post cls inst event sev detail).observe = s.observe := by
  obtain ⟨r, j, e⟩ := s.post_is cls inst event sev detail
  rw [e]

@[simp] theorem State.countLost_power (s : State) (cls inst : Nat) : (s.countLost cls inst).power = s.power :=
  State.countEvent_power _ _ _ _ _

@[simp] theorem State.post_power (s : State) (cls inst event sev detail : Nat) :
    (s.post cls inst event sev detail).power = s.power := by
  obtain ⟨r, j, e⟩ := s.post_is cls inst event sev detail
  rw [e]

@[simp] theorem State.countLost_free (s : State) (cls inst : Nat) : (s.countLost cls inst).free = s.free :=
  State.countEvent_free _ _ _ _ _

@[simp] theorem State.post_free (s : State) (cls inst event sev detail : Nat) :
    (s.post cls inst event sev detail).free = s.free := by
  obtain ⟨r, j, e⟩ := s.post_is cls inst event sev detail
  rw [e]

@[simp] theorem State.countLost_time (s : State) (cls inst : Nat) : (s.countLost cls inst).time = s.time :=
  State.countEvent_time _ _ _ _ _

@[simp] theorem State.post_time (s : State) (cls inst event sev detail : Nat) :
    (s.post cls inst event sev detail).time = s.time := by
  obtain ⟨r, j, e⟩ := s.post_is cls inst event sev detail
  rw [e]

@[simp] theorem State.countLost_streams (s : State) (cls inst : Nat) : (s.countLost cls inst).streams = s.streams :=
  State.countEvent_streams _ _ _ _ _

@[simp] theorem State.post_streams (s : State) (cls inst event sev detail : Nat) :
    (s.post cls inst event sev detail).streams = s.streams := by
  obtain ⟨r, j, e⟩ := s.post_is cls inst event sev detail
  rw [e]

@[simp] theorem State.countLost_lanes (s : State) (cls inst : Nat) : (s.countLost cls inst).lanes = s.lanes :=
  State.countEvent_lanes _ _ _ _ _

@[simp] theorem State.post_lanes (s : State) (cls inst event sev detail : Nat) :
    (s.post cls inst event sev detail).lanes = s.lanes := by
  obtain ⟨r, j, e⟩ := s.post_is cls inst event sev detail
  rw [e]

@[simp] theorem State.countLost_sett (s : State) (cls inst : Nat) : (s.countLost cls inst).sett = s.sett :=
  State.countEvent_sett _ _ _ _ _

@[simp] theorem State.post_sett (s : State) (cls inst event sev detail : Nat) :
    (s.post cls inst event sev detail).sett = s.sett := by
  obtain ⟨r, j, e⟩ := s.post_is cls inst event sev detail
  rw [e]

@[simp] theorem State.countLost_engines (s : State) (cls inst : Nat) : (s.countLost cls inst).engines = s.engines :=
  State.countEvent_engines _ _ _ _ _

@[simp] theorem State.post_engines (s : State) (cls inst event sev detail : Nat) :
    (s.post cls inst event sev detail).engines = s.engines := by
  obtain ⟨r, j, e⟩ := s.post_is cls inst event sev detail
  rw [e]

@[simp] theorem State.countLost_witness (s : State) (cls inst : Nat) : (s.countLost cls inst).witness = s.witness :=
  State.countEvent_witness _ _ _ _ _

@[simp] theorem State.post_witness (s : State) (cls inst event sev detail : Nat) :
    (s.post cls inst event sev detail).witness = s.witness := by
  obtain ⟨r, j, e⟩ := s.post_is cls inst event sev detail
  rw [e]

@[simp] theorem State.countLost_dma (s : State) (cls inst : Nat) : (s.countLost cls inst).dma = s.dma :=
  State.countEvent_dma _ _ _ _ _

@[simp] theorem State.post_dma (s : State) (cls inst event sev detail : Nat) :
    (s.post cls inst event sev detail).dma = s.dma := by
  obtain ⟨r, j, e⟩ := s.post_is cls inst event sev detail
  rw [e]

@[simp] theorem State.countLost_eth (s : State) (cls inst : Nat) : (s.countLost cls inst).eth = s.eth :=
  State.countEvent_eth _ _ _ _ _

@[simp] theorem State.post_eth (s : State) (cls inst event sev detail : Nat) :
    (s.post cls inst event sev detail).eth = s.eth := by
  obtain ⟨r, j, e⟩ := s.post_is cls inst event sev detail
  rw [e]

end Sys2Proof.Machine
end

