-- ==== Sys2Proof/Laws/Keeps.lean ====
section
/-! SUPPORT. What every operation of the device keeps: the canonical form of memory and registers, the books of R203, the queue
of waiting commands and DEVCLK. -/
namespace Sys2Proof.Machine

/-- Memory and registers in canonical form, the books agreeing, DEVCLK at `d`, the queue `q`. -/
structure Keeps (d : BitVec 64) (q : List Instr) (s : State) : Prop where
  mem : s.memOk
  regs : s.regsOk
  books : s.booksOk
  clock : s.devclk = d
  queue : s.pending = q

variable {d : BitVec 64} {q : List Instr} {s t : State}

/-- A change of any other field. -/
theorem Keeps.upd (h : Keeps d q s) (hm : t.mem = s.mem) (hc : t.chk = s.chk) (hh : t.host = s.host) (hr : t.csr = s.csr)
    (ha : t.ledger.accounts = s.ledger.accounts) (hd : t.devclk = s.devclk) (hp : t.pending = s.pending) : Keeps d q t where
  mem := by simpa [State.memOk, hm, hc, hh] using h.mem
  regs := by simpa [State.regsOk, hr] using h.regs
  books := by simpa [State.booksOk, State.account, ha] using h.books
  clock := hd.trans h.clock
  queue := hp.trans h.queue

theorem Keeps.ite {c : Prop} [Decidable c] (hs : Keeps d q s) (ht : Keeps d q t) : Keeps d q (if c then s else t) := by
  split <;> assumption

theorem Keeps.foldl {α : Type} {f : State → α → State} {l : List α} (h : Keeps d q s)
    (hf : ∀ s x, Keeps d q s → Keeps d q (f s x)) : Keeps d q (l.foldl f s) := by
  induction l generalizing s with
  | nil => exact h
  | cons x r ih => exact ih (hf s x h)

/-- A change of fields that hold neither memory, registers, books, queue nor DEVCLK. -/
theorem Keeps.any (h : Keeps d q s) {xhold : Tab Word} {xreturned : Tab Word} {xmodes : ModeCtl} {xfences : List Fence}
    {xjournal : Journal} {xdvorys : Dvorys} {xdisp : Disp} {xledger : Ledger} {xmortar : Mortar} {xmemSys : MemSys} {xpcie :
    Pcie} {xfaults : Faults} {xobserve : Observe} {xpower : Power} {xfree : Nat} {xtime : Time} {xstreams : Streams} {xlanes
    : Lanes} {xsett : Sett} {xengines : Engines} {xwitness : Witness} {xdma : Dma} {xeth : Eth}
    (ha : xledger.accounts = s.ledger.accounts) :
    Keeps d q ⟨s.pending, s.csr, xhold, xreturned, s.mem, s.chk, s.host, s.devclk, xmodes, xfences, xjournal, xdvorys, xdisp,
      xledger, xmortar, xmemSys, xpcie, xfaults, xobserve, xpower, xfree, xtime, xstreams, xlanes, xsett, xengines, xwitness,
      xdma, xeth⟩ :=
  h.upd rfl rfl rfl rfl ha rfl rfl

theorem Keeps.foldl_snd {α β : Type} {f : β × State → α → β × State} {l : List α} {a : β × State} (h : Keeps d q a.2)
    (hf : ∀ b x, Keeps d q b.2 → Keeps d q (f b x).2) : Keeps d q (l.foldl f a).2 := by
  induction l generalizing a with
  | nil => exact h
  | cons x r ih => exact ih (hf a x h)

theorem Keeps.foldl_fst {α β : Type} {f : State × β → α → State × β} {l : List α} {a : State × β} (h : Keeps d q a.1)
    (hf : ∀ b x, Keeps d q b.1 → Keeps d q (f b x).1) : Keeps d q (l.foldl f a).1 := by
  induction l generalizing a with
  | nil => exact h
  | cons x r ih => exact ih (hf a x h)

theorem Keeps.foldl_snd2 {α β γ : Type} {f : β × γ × State → α → β × γ × State} {l : List α} {a : β × γ × State}
    (h : Keeps d q a.2.2) (hf : ∀ b x, Keeps d q b.2.2 → Keeps d q (f b x).2.2) : Keeps d q (l.foldl f a).2.2 := by
  induction l generalizing a with
  | nil => exact h
  | cons x r ih => exact ih (hf a x h)

theorem Keeps.foldl_snd_eq {α β : Type} {f : β × State → α → β × State} {l : List α} {a : β × State} {b : β}
    (h : Keeps d q a.2) (hf : ∀ b x, Keeps d q b.2 → Keeps d q (f b x).2) (e : l.foldl f a = (b, t)) : Keeps d q t := by
  have := Keeps.foldl_snd (l := l) h hf
  rwa [e] at this

theorem Keeps.foldl_fst_eq {α β : Type} {f : State × β → α → State × β} {l : List α} {a : State × β} {b : β}
    (h : Keeps d q a.1) (hf : ∀ b x, Keeps d q b.1 → Keeps d q (f b x).1) (e : l.foldl f a = (t, b)) : Keeps d q t := by
  have := Keeps.foldl_fst (l := l) h hf
  rwa [e] at this

theorem Keeps.foldl_snd2_eq {α β γ : Type} {f : β × γ × State → α → β × γ × State} {l : List α} {a : β × γ × State}
    {b : β} {c : γ} (h : Keeps d q a.2.2) (hf : ∀ b x, Keeps d q b.2.2 → Keeps d q (f b x).2.2)
    (e : l.foldl f a = (b, c, t)) : Keeps d q t := by
  have := Keeps.foldl_snd2 (l := l) h hf
  rwa [e] at this

/-- What holds of the next state of a command's outcome, where it has one. -/
def KeepsOut (d : BitVec 64) (q : List Instr) : Host.Outcome State Fault Refusal → Prop
  | .next t => Keeps d q t
  | _ => False

theorem KeepsOut.next (h : Keeps d q s) : KeepsOut d q (.next s) := h

theorem KeepsOut.ite {c : Prop} [Decidable c] {a b : Host.Outcome State Fault Refusal} (ha : KeepsOut d q a)
    (hb : KeepsOut d q b) : KeepsOut d q (if c then a else b) := by
  split <;> assumption

end Sys2Proof.Machine
end

