-- ==== Sys2Proof/Laws/KeepsOps.lean ====
section
/-! SUPPORT. What operations shared by all families keep (`Keeps`, `KeepsOut`): one lemma a definition. -/
namespace Sys2Proof.Machine

variable {dk : BitVec 64} {qu : List Instr}

/-! ## Ops -/

theorem mwrites_wf (m : List Host.Cell) (h : Memory.wf m) (a : Nat) (l : List Byte) : Memory.wf (mwrites m a l) := by
  induction l generalizing m a with
  | nil => exact h
  | cons b r ih => exact ih _ (tset_wf h a b) _

theorem Keeps.hostWrite {s : State} (h : Keeps dk qu s) (a : Nat) (l : List Byte) :
    Keeps dk qu { s with host := mwrites s.host a l } :=
  ⟨⟨h.mem.1, h.mem.2.1, mwrites_wf _ h.mem.2.2 _ _⟩, h.regs, h.books, h.clock, h.queue⟩


theorem State.setReg_keeps {s : State} (h : Keeps dk qu s) (cls inst off : Nat) (w : Word) :
    Keeps dk qu (State.setReg s cls inst off w) :=
  ⟨h.mem, tset_sorted _ h.regs _ _, h.books, h.clock, h.queue⟩

theorem State.setFld_keeps {s : State} (h : Keeps dk qu s) (f : Field) (i v : Nat) :
    Keeps dk qu (State.setFld s f i v) := by
  unfold State.setFld
  repeat' first
    | (intro)
    | with_reducible assumption
    | with_reducible apply State.setReg_keeps

theorem State.addFld_keeps {s : State} (h : Keeps dk qu s) (f : Field) (i n : Nat) :
    Keeps dk qu (State.addFld s f i n) := by
  unfold State.addFld
  repeat' first
    | (intro)
    | with_reducible assumption
    | with_reducible apply State.setFld_keeps

theorem State.satFld_keeps {s : State} (h : Keeps dk qu s) (f : Field) (i n : Nat) :
    Keeps dk qu (State.satFld s f i n) := by
  unfold State.satFld
  repeat' first
    | (intro)
    | with_reducible assumption
    | with_reducible apply State.setFld_keeps

theorem State.maxFld_keeps {s : State} (h : Keeps dk qu s) (f : Field) (i n : Nat) :
    Keeps dk qu (State.maxFld s f i n) := by
  unfold State.maxFld
  repeat' first
    | (intro)
    | with_reducible assumption
    | with_reducible apply State.setFld_keeps

theorem State.setPair_keeps {s : State} (h : Keeps dk qu s) (lo hi : Field) (i n : Nat) :
    Keeps dk qu (State.setPair s lo hi i n) := by
  unfold State.setPair
  repeat' first
    | (intro)
    | with_reducible assumption
    | with_reducible apply State.setFld_keeps

theorem State.holdFor_keeps {s : State} (h : Keeps dk qu s) (req cls inst off : Nat) (w : Word) :
    Keeps dk qu (State.holdFor s req cls inst off w) := by
  unfold State.holdFor
  repeat' first
    | (intro)
    | with_reducible assumption
    | with_reducible apply Keeps.ite
    | (dsimp only)
    | split
    | (refine Keeps.any ?_ ?_; rotate_left; rfl)

theorem State.giveBack_keeps {s : State} (h : Keeps dk qu s) (req : Nat) (w : Word) :
    Keeps dk qu (State.giveBack s req w) := by
  unfold State.giveBack
  repeat' first
    | (intro)
    | with_reducible assumption
    | with_reducible apply Keeps.ite
    | (dsimp only)
    | split
    | (refine Keeps.any ?_ ?_; rotate_left; rfl)

theorem State.takeFree_keeps {s : State} (h : Keeps dk qu s) (w : Nat) :
    Keeps dk qu (State.takeFree s w).2 := by
  unfold State.takeFree
  repeat' first
    | (intro)
    | with_reducible assumption
    | with_reducible apply Keeps.ite
    | (dsimp only)
    | split
    | (refine Keeps.any ?_ ?_; rotate_left; rfl)

theorem State.takeFree_keeps_eq {s : State} (h : Keeps dk qu s) {w : Nat} {x0 : Nat} {sv : State}
    (eqn : State.takeFree s w = (x0, sv)) : Keeps dk qu sv := by
  have := State.takeFree_keeps h w
  rwa [eqn] at this

theorem State.countEvent_keeps {s : State} (h : Keeps dk qu s) (cls inst ev n : Nat) :
    Keeps dk qu (State.countEvent s cls inst ev n) := by
  unfold State.countEvent
  repeat' first
    | (intro)
    | with_reducible assumption
    | with_reducible apply State.setReg_keeps
    | with_reducible apply Keeps.ite
    | (with_reducible apply Keeps.foldl)

theorem State.countLost_keeps {s : State} (h : Keeps dk qu s) (cls inst : Nat) :
    Keeps dk qu (State.countLost s cls inst) := by
  unfold State.countLost
  repeat' first
    | (intro)
    | with_reducible assumption
    | with_reducible apply State.countEvent_keeps
    | with_reducible apply Keeps.ite
    | (dsimp only)
    | split
    | (refine Keeps.any ?_ ?_; rotate_left; rfl)

theorem State.post_keeps {s : State} (h : Keeps dk qu s) (cls inst event sev detail : Nat) :
    Keeps dk qu (State.post s cls inst event sev detail) := by
  unfold State.post
  repeat' first
    | (intro)
    | with_reducible assumption
    | with_reducible apply State.countEvent_keeps
    | with_reducible apply State.countLost_keeps
    | with_reducible apply Keeps.ite
    | (dsimp only)
    | split
    | (refine Keeps.any ?_ ?_; rotate_left; rfl)

theorem State.raise_keeps {s : State} (h : Keeps dk qu s) (fn v : Nat) :
    Keeps dk qu (State.raise s fn v) := by
  unfold State.raise
  repeat' first
    | (intro)
    | with_reducible assumption
    | with_reducible apply Keeps.ite
    | (dsimp only)
    | split
    | (refine Keeps.any ?_ ?_; rotate_left; rfl)

theorem State.setPage_keeps {s : State} (h : Keeps dk qu s) (fn : Nat) (p : RingPage) :
    Keeps dk qu (State.setPage s fn p) := by
  unfold State.setPage
  repeat' first
    | (intro)
    | with_reducible assumption
    | with_reducible apply Keeps.ite
    | (dsimp only)
    | split
    | (refine Keeps.any ?_ ?_; rotate_left; rfl)

theorem State.setFnState_keeps {s : State} (h : Keeps dk qu s) (fn : Nat) (f : FnState) :
    Keeps dk qu (State.setFnState s fn f) := by
  unfold State.setFnState
  repeat' first
    | (intro)
    | with_reducible assumption
    | with_reducible apply Keeps.ite
    | (dsimp only)
    | split
    | (refine Keeps.any ?_ ?_; rotate_left; rfl)

theorem State.storeWord_keeps {s : State} (h : Keeps dk qu s) (k : Nat) (bytes : List Byte) (poison : Bool) :
    Keeps dk qu (State.storeWord s k bytes poison) :=
  ⟨⟨mwrites_wf _ h.mem.1 _ _, mwrites_wf _ h.mem.2.1 _ _, h.mem.2.2⟩, h.regs, h.books, h.clock, h.queue⟩

/-! ## RingOps -/

theorem State.storeSlot_keeps {s : State} (h : Keeps dk qu s) (a : Nat) (bytes : List Byte) :
    Keeps dk qu (State.storeSlot s a bytes) := by
  unfold State.storeSlot
  repeat' first
    | (intro)
    | with_reducible assumption
    | with_reducible apply State.storeWord_keeps
    | with_reducible apply State.drop_keeps
    | with_reducible apply Keeps.ite
    | (with_reducible apply Keeps.foldl)

theorem State.cqSlot_keeps {s : State} (h : Keeps dk qu s) (fn : Nat) (w0 : Nat) (rest : List Word) :
    Keeps dk qu (State.cqSlot s fn w0 rest) := by
  unfold State.cqSlot
  repeat' first
    | (intro)
    | with_reducible assumption
    | with_reducible apply State.setPage_keeps
    | with_reducible apply State.storeSlot_keeps
    | with_reducible apply Keeps.ite
    | (apply Keeps.hostWrite)

theorem State.signalRing_keeps {s : State} (h : Keeps dk qu s) (fn : Nat) (now : Bool) :
    Keeps dk qu (State.signalRing s fn now) := by
  unfold State.signalRing
  repeat' first
    | (intro)
    | with_reducible assumption
    | with_reducible apply State.raise_keeps
    | with_reducible apply State.setPage_keeps
    | with_reducible apply Keeps.ite

theorem State.answer_keeps {s : State} (h : Keeps dk qu s) (fn : Nat) (flags : Nat) (st : Status) (tag : Word) (seq : BitVec 16) (head : BitVec 12) (detail : Nat) (results : List Word) (intr : Bool) :
    Keeps dk qu (State.answer s fn flags st tag seq head detail results intr) := by
  unfold State.answer
  repeat' first
    | (intro)
    | with_reducible assumption
    | with_reducible apply State.cqSlot_keeps
    | with_reducible apply State.signalRing_keeps

theorem State.notify_keeps {s : State} (h : Keeps dk qu s) (fn : Nat) (entry : List Word) :
    Keeps dk qu (State.notify s fn entry) := by
  unfold State.notify
  repeat' first
    | (intro)
    | with_reducible assumption
    | with_reducible apply State.setFnState_keeps
    | with_reducible apply State.answer_keeps
    | with_reducible apply Keeps.ite

theorem State.dropOp_keeps {s : State} (h : Keeps dk qu s) (op : BitVec 16) :
    Keeps dk qu (State.dropOp s op) := by
  unfold State.dropOp
  repeat' first
    | (intro)
    | with_reducible assumption
    | with_reducible apply Keeps.ite
    | (dsimp only)
    | split
    | (refine Keeps.any ?_ ?_; rotate_left; rfl)

theorem State.setOp_keeps {s : State} (h : Keeps dk qu s) (o : LrOp) :
    Keeps dk qu (State.setOp s o) := by
  unfold State.setOp
  repeat' first
    | (intro)
    | with_reducible assumption
    | with_reducible apply Keeps.ite
    | (dsimp only)
    | split
    | (refine Keeps.any ?_ ?_; rotate_left; rfl)

theorem State.endOp_keeps {s : State} (h : Keeps dk qu s) (o : LrOp) (st : Status) (detail : Nat) (results : List Word) :
    Keeps dk qu (State.endOp s o st detail results) := by
  unfold State.endOp
  repeat' first
    | (intro)
    | with_reducible assumption
    | with_reducible apply State.answer_keeps
    | with_reducible apply State.dropOp_keeps
    | with_reducible apply Keeps.ite

/-! ## FaultOps -/

theorem State.setLevel_keeps {s : State} (h : Keeps dk qu s) (n : Nat) :
    Keeps dk qu (State.setLevel s n) := by
  unfold State.setLevel
  repeat' first
    | (intro)
    | with_reducible assumption
    | with_reducible apply State.setFld_keeps
    | with_reducible apply State.post_keeps
    | with_reducible apply Keeps.ite

theorem State.syncRecoveries_keeps {s : State} (h : Keeps dk qu s)  :
    Keeps dk qu (State.syncRecoveries s) := by
  unfold State.syncRecoveries
  repeat' first
    | (intro)
    | with_reducible assumption
    | with_reducible apply State.setFld_keeps
    | with_reducible apply Keeps.ite
    | (dsimp only)
    | split
    | (refine Keeps.any ?_ ?_; rotate_left; rfl)

theorem State.recovered_keeps {s : State} (h : Keeps dk qu s) (r : Recovery) :
    Keeps dk qu (State.recovered s r) := by
  unfold State.recovered
  repeat' first
    | (intro)
    | with_reducible assumption
    | with_reducible apply State.setFld_keeps
    | with_reducible apply State.satFld_keeps
    | with_reducible apply State.maxFld_keeps
    | with_reducible apply State.post_keeps
    | with_reducible apply State.syncRecoveries_keeps
    | with_reducible apply Keeps.ite
    | (dsimp only)
    | split
    | (refine Keeps.any ?_ ?_; rotate_left; rfl)

theorem State.reportFault_keeps {s : State} (h : Keeps dk qu s) (code cls inst : Nat) (alsoDouble : Bool) :
    Keeps dk qu (State.reportFault s code cls inst alsoDouble) := by
  unfold State.reportFault
  repeat' first
    | (intro)
    | with_reducible assumption
    | with_reducible apply State.setFld_keeps
    | with_reducible apply State.addFld_keeps
    | with_reducible apply State.setPair_keeps
    | with_reducible apply State.post_keeps
    | with_reducible apply State.setLevel_keeps
    | with_reducible apply State.syncRecoveries_keeps
    | with_reducible apply State.recovered_keeps
    | with_reducible apply Keeps.ite
    | (dsimp only)
    | split
    | (refine Keeps.any ?_ ?_; rotate_left; rfl)

theorem State.aer_keeps {s : State} (h : Keeps dk qu s) (bit : Nat) :
    Keeps dk qu (State.aer s bit) := by
  unfold State.aer
  repeat' first
    | (intro)
    | with_reducible assumption
    | with_reducible apply State.post_keeps
    | with_reducible apply State.reportFault_keeps

theorem State.endRecovery_keeps {s : State} (h : Keeps dk qu s) (code cls inst : Nat) :
    Keeps dk qu (State.endRecovery s code cls inst) := by
  unfold State.endRecovery
  repeat' first
    | (intro)
    | with_reducible assumption
    | with_reducible apply State.recovered_keeps
    | with_reducible apply Keeps.ite
    | (dsimp only)
    | split

theorem State.syncFences_keeps {s : State} (h : Keeps dk qu s)  :
    Keeps dk qu (State.syncFences s) := by
  unfold State.syncFences
  repeat' first
    | (intro)
    | with_reducible assumption
    | with_reducible apply State.setFld_keeps
    | with_reducible apply Keeps.ite
    | (with_reducible apply Keeps.foldl)

theorem State.addFence_keeps {s : State} (h : Keeps dk qu s) (cls inst : Nat) (o : FenceOrigin) (ph : FencePhase) :
    Keeps dk qu (State.addFence s cls inst o ph) := by
  unfold State.addFence
  repeat' first
    | (intro)
    | with_reducible assumption
    | with_reducible apply State.setFld_keeps
    | with_reducible apply State.syncFences_keeps
    | with_reducible apply Keeps.ite
    | (dsimp only)
    | split
    | (refine Keeps.any ?_ ?_; rotate_left; rfl)

theorem State.setFence_keeps {s : State} (h : Keeps dk qu s) (f : Fence) :
    Keeps dk qu (State.setFence s f) := by
  unfold State.setFence
  repeat' first
    | (intro)
    | with_reducible assumption
    | with_reducible apply State.syncFences_keeps
    | with_reducible apply Keeps.ite
    | (dsimp only)
    | split
    | (refine Keeps.any ?_ ?_; rotate_left; rfl)

theorem State.modeDecision_keeps {s : State} (h : Keeps dk qu s) (result requester target : Nat) :
    Keeps dk qu (State.modeDecision s result requester target) := by
  unfold State.modeDecision
  repeat' first
    | (intro)
    | with_reducible assumption
    | with_reducible apply State.setFld_keeps
    | with_reducible apply State.addFld_keeps

theorem State.toMending_keeps {s : State} (h : Keeps dk qu s) (cause : Nat) :
    Keeps dk qu (State.toMending s cause) := by
  unfold State.toMending
  repeat' first
    | (intro)
    | with_reducible assumption
    | with_reducible apply Keeps.ite
    | (dsimp only)
    | split
    | (refine Keeps.any ?_ ?_; rotate_left; rfl)

theorem State.refuseBanked_keeps {s : State} (h : Keeps dk qu s) (op : Option (BitVec 16)) :
    Keeps dk qu (State.refuseBanked s op) := by
  unfold State.refuseBanked
  repeat' first
    | (intro)
    | with_reducible assumption
    | with_reducible apply State.setFld_keeps
    | with_reducible apply State.endOp_keeps
    | with_reducible apply State.modeSet_keeps
    | with_reducible apply Keeps.ite
    | (dsimp only)
    | split

theorem State.unbank_keeps {s : State} (h : Keeps dk qu s)  :
    Keeps dk qu (State.unbank s) := by
  unfold State.unbank
  repeat' first
    | (intro)
    | with_reducible assumption
    | with_reducible apply Keeps.ite
    | (dsimp only)
    | split
    | (refine Keeps.any ?_ ?_; rotate_left; rfl)

theorem State.askMending_keeps {s : State} (h : Keeps dk qu s) (cause : Nat) :
    Keeps dk qu (State.askMending s cause) := by
  unfold State.askMending
  repeat' first
    | (intro)
    | with_reducible assumption
    | with_reducible apply State.toMending_keeps
    | with_reducible apply State.refuseBanked_keeps
    | with_reducible apply State.unbank_keeps
    | with_reducible apply Keeps.ite
    | (dsimp only)
    | split
    | (refine Keeps.any ?_ ?_; rotate_left; rfl)

theorem State.checkReturn_keeps {s : State} (h : Keeps dk qu s)  :
    Keeps dk qu (State.checkReturn s) := by
  unfold State.checkReturn
  repeat' first
    | (intro)
    | with_reducible assumption
    | with_reducible apply State.setFld_keeps
    | with_reducible apply Keeps.ite
    | (dsimp only)
    | split
    | (refine Keeps.any ?_ ?_; rotate_left; rfl)

theorem State.liftFence_keeps {s : State} (h : Keeps dk qu s) (cls inst : Nat) :
    Keeps dk qu (State.liftFence s cls inst) := by
  unfold State.liftFence
  repeat' first
    | (intro)
    | with_reducible assumption
    | with_reducible apply State.syncFences_keeps
    | with_reducible apply State.checkReturn_keeps
    | with_reducible apply Keeps.ite
    | (dsimp only)
    | split
    | (refine Keeps.any ?_ ?_; rotate_left; rfl)

theorem State.setPort_keeps {s : State} (h : Keeps dk qu s) (d : Nat) (p : Port) :
    Keeps dk qu (State.setPort s d p) := by
  unfold State.setPort
  repeat' first
    | (intro)
    | with_reducible assumption
    | with_reducible apply Keeps.ite
    | (dsimp only)
    | split
    | (refine Keeps.any ?_ ?_; rotate_left; rfl)

/-! ## MeshOps -/

theorem State.setRoute_keeps {s : State} (h : Keeps dk qu s) (ni bank entry : Nat) (r : Route) :
    Keeps dk qu (State.setRoute s ni bank entry r) := by
  unfold State.setRoute
  repeat' first
    | (intro)
    | with_reducible assumption
    | with_reducible apply Keeps.ite
    | (dsimp only)
    | split
    | (refine Keeps.any ?_ ?_; rotate_left; rfl)

theorem State.setNiFence_keeps {s : State} (h : Keeps dk qu s) (ni d : Nat) (b : Bool) :
    Keeps dk qu (State.setNiFence s ni d b) := by
  unfold State.setNiFence
  repeat' first
    | (intro)
    | with_reducible assumption
    | with_reducible apply State.setReg_keeps

theorem State.setLink_keeps {s : State} (h : Keeps dk qu s) (r d v : Nat) :
    Keeps dk qu (State.setLink s r d v) := by
  unfold State.setLink
  repeat' first
    | (intro)
    | with_reducible assumption
    | with_reducible apply State.setReg_keeps

theorem State.setFlits_keeps {s : State} (h : Keeps dk qu s) (l : List Flit) :
    Keeps dk qu (State.setFlits s l) := by
  unfold State.setFlits
  repeat' first
    | (intro)
    | with_reducible assumption
    | with_reducible apply Keeps.ite
    | (dsimp only)
    | split
    | (refine Keeps.any ?_ ?_; rotate_left; rfl)

theorem State.sendFlit_keeps {s : State} (h : Keeps dk qu s) (ni plane vc src dest txn : Nat) (load : Load) :
    Keeps dk qu (State.sendFlit s ni plane vc src dest txn load) := by
  unfold State.sendFlit
  repeat' first
    | (intro)
    | with_reducible assumption
    | with_reducible apply State.countEvent_keeps
    | with_reducible apply State.setFlits_keeps
    | with_reducible apply Keeps.ite

theorem State.sendAll_keeps {s : State} (h : Keeps dk qu s) (type payload : Nat) :
    Keeps dk qu (State.sendAll s type payload) := by
  unfold State.sendAll
  repeat' first
    | (intro)
    | with_reducible assumption
    | with_reducible apply State.sendFlit_keeps
    | with_reducible apply Keeps.ite
    | (with_reducible apply Keeps.foldl)
    | (with_reducible apply Keeps.foldl_snd)
    | (with_reducible apply Keeps.foldl_snd2)
    | (with_reducible apply Keeps.foldl_fst)
    | (refine Keeps.foldl_snd_eq ?_ ?_ (by with_reducible assumption))
    | (refine Keeps.foldl_snd2_eq ?_ ?_ (by with_reducible assumption))
    | (refine Keeps.foldl_fst_eq ?_ ?_ (by with_reducible assumption))
    | (dsimp only)
    | split
    | (refine Keeps.any ?_ ?_; rotate_left; rfl)

theorem State.fcBegin_keeps {s : State} (h : Keeps dk qu s) (q : FcReq) :
    Keeps dk qu (State.fcBegin s q) := by
  unfold State.fcBegin
  repeat' first
    | (intro)
    | with_reducible assumption
    | with_reducible apply State.setPort_keeps
    | with_reducible apply State.sendAll_keeps
    | with_reducible apply Keeps.ite
    | (dsimp only)
    | split
    | (refine Keeps.any ?_ ?_; rotate_left; rfl)

theorem State.fcAdvance_keeps {s : State} (h : Keeps dk qu s)  :
    Keeps dk qu (State.fcAdvance s) := by
  unfold State.fcAdvance
  repeat' first
    | (intro)
    | with_reducible assumption
    | with_reducible apply State.fcBegin_keeps
    | with_reducible apply Keeps.ite
    | (dsimp only)
    | split
    | (refine Keeps.any ?_ ?_; rotate_left; rfl)

theorem State.fcAsk_keeps {s : State} (h : Keeps dk qu s) (q : FcReq) :
    Keeps dk qu (State.fcAsk s q) := by
  unfold State.fcAsk
  repeat' first
    | (intro)
    | with_reducible assumption
    | with_reducible apply State.fcAdvance_keeps
    | with_reducible apply Keeps.ite
    | (dsimp only)
    | split
    | (refine Keeps.any ?_ ?_; rotate_left; rfl)

theorem State.setFencers_keeps {s : State} (h : Keeps dk qu s) (d : Nat) (l : List Nat) :
    Keeps dk qu (State.setFencers s d l) := by
  unfold State.setFencers
  repeat' first
    | (intro)
    | with_reducible assumption
    | with_reducible apply Keeps.ite
    | (dsimp only)
    | split
    | (refine Keeps.any ?_ ?_; rotate_left; rfl)

theorem State.askFence_keeps {s : State} (h : Keeps dk qu s) (req d : Nat) :
    Keeps dk qu (State.askFence s req d) := by
  unfold State.askFence
  repeat' first
    | (intro)
    | with_reducible assumption
    | with_reducible apply State.fcAsk_keeps
    | with_reducible apply State.setFencers_keeps
    | with_reducible apply Keeps.ite

theorem State.askUnfence_keeps {s : State} (h : Keeps dk qu s) (req d : Nat) :
    Keeps dk qu (State.askUnfence s req d) := by
  unfold State.askUnfence
  repeat' first
    | (intro)
    | with_reducible assumption
    | with_reducible apply State.setPort_keeps
    | with_reducible apply State.fcAsk_keeps
    | with_reducible apply State.setFencers_keeps

/-! ## MemOps -/

theorem State.retirePage_keeps_eq {s : State} (h : Keeps dk qu s) {c page n : Nat} {sv : State}
    (eqn : State.retirePage s c page = some (n, sv)) : Keeps dk qu sv := by
  unfold State.retirePage at eqn
  generalize List.range 256 = words at eqn
  dsimp only at eqn
  split at eqn
  · cases eqn
  · simp only [Option.some.injEq, Prod.mk.injEq] at eqn
    rw [← eqn.2]
    refine State.post_keeps (State.setFld_keeps (Keeps.any (Keeps.foldl h (fun s w h => ?_)) rfl) _ _ _) _ _ _ _ _
    exact State.storeWord_keeps h _ _ _


theorem State.setSpall_keeps {s : State} (h : Keeps dk qu s) (n : Nat) (e : Spall) :
    Keeps dk qu (State.setSpall s n e) := by
  unfold State.setSpall
  repeat' first
    | (intro)
    | with_reducible assumption
    | with_reducible apply Keeps.ite
    | (dsimp only)
    | split
    | (refine Keeps.any ?_ ?_; rotate_left; rfl)

theorem State.syncSpall_keeps {s : State} (h : Keeps dk qu s)  :
    Keeps dk qu (State.syncSpall s) := by
  unfold State.syncSpall
  repeat' first
    | (intro)
    | with_reducible assumption
    | with_reducible apply State.setFld_keeps

theorem State.spallRetired_keeps {s : State} (h : Keeps dk qu s) (c page : Nat) :
    Keeps dk qu (State.spallRetired s c page) := by
  unfold State.spallRetired
  repeat' first
    | (intro)
    | with_reducible assumption
    | with_reducible apply State.setSpall_keeps
    | with_reducible apply State.syncSpall_keeps
    | with_reducible apply Keeps.ite
    | (with_reducible apply Keeps.foldl)

theorem State.autoRetire_keeps {s : State} (h : Keeps dk qu s) (e : Spall) :
    Keeps dk qu (State.autoRetire s e) := by
  unfold State.autoRetire
  split
  · cases e1 : s.retirePage (e.memory - 4) (e.addr / 4096) with
    | none => exact h
    | some p => exact State.spallRetired_keeps (State.retirePage_keeps_eq h e1) _ _
  · exact h

theorem State.spallHarden_keeps {s : State} (h : Keeps dk qu s) (n : Nat) :
    Keeps dk qu (State.spallHarden s n) := by
  unfold State.spallHarden
  repeat' first
    | (intro)
    | with_reducible assumption
    | with_reducible apply State.post_keeps
    | with_reducible apply State.setSpall_keeps
    | with_reducible apply State.autoRetire_keeps
    | with_reducible apply Keeps.ite

theorem State.spallNote_keeps {s : State} (h : Keeps dk qu s) (k col : Nat) :
    Keeps dk qu (State.spallNote s k col) := by
  unfold State.spallNote
  repeat' first
    | (intro)
    | with_reducible assumption
    | with_reducible apply State.addFld_keeps
    | with_reducible apply State.setSpall_keeps
    | with_reducible apply State.syncSpall_keeps
    | with_reducible apply State.spallHarden_keeps
    | with_reducible apply Keeps.ite
    | (with_reducible apply Keeps.foldl)
    | (with_reducible apply Keeps.foldl_snd)
    | (with_reducible apply Keeps.foldl_snd2)
    | (with_reducible apply Keeps.foldl_fst)
    | (refine Keeps.foldl_snd_eq ?_ ?_ (by with_reducible assumption))
    | (refine Keeps.foldl_snd2_eq ?_ ?_ (by with_reducible assumption))
    | (refine Keeps.foldl_fst_eq ?_ ?_ (by with_reducible assumption))
    | (dsimp only)
    | split

theorem State.takeSpare_keeps {s : State} (h : Keeps dk qu s) (a : Nat) (column : Bool) :
    Keeps dk qu (State.takeSpare s a column) := by
  unfold State.takeSpare
  repeat' first
    | (intro)
    | with_reducible assumption
    | with_reducible apply State.setReg_keeps
    | with_reducible apply Keeps.ite
    | (dsimp only)
    | split
    | (refine Keeps.any ?_ ?_; rotate_left; rfl)

theorem State.copySpare_keeps {s : State} (h : Keeps dk qu s) (a col : Nat) (column : Bool) :
    Keeps dk qu (State.copySpare s a col column) := by
  unfold State.copySpare
  repeat' first
    | (intro)
    | with_reducible assumption
    | with_reducible apply State.storeWord_keeps
    | with_reducible apply Keeps.ite
    | (with_reducible apply Keeps.foldl)
    | (with_reducible apply Keeps.foldl_snd)
    | (with_reducible apply Keeps.foldl_snd2)
    | (with_reducible apply Keeps.foldl_fst)
    | (refine Keeps.foldl_snd_eq ?_ ?_ (by with_reducible assumption))
    | (refine Keeps.foldl_snd2_eq ?_ ?_ (by with_reducible assumption))
    | (refine Keeps.foldl_fst_eq ?_ ?_ (by with_reducible assumption))
    | (dsimp only)
    | split

theorem State.eraseCheck_keeps {s : State} (h : Keeps dk qu s) (m : MemUnit) (col : Nat) :
    Keeps dk qu (State.eraseCheck s m col) := by
  unfold State.eraseCheck
  repeat' first
    | (intro)
    | with_reducible assumption
    | with_reducible apply State.setReg_keeps
    | with_reducible apply State.post_keeps
    | with_reducible apply Keeps.ite

theorem State.noteDecode_keeps {s : State} (h : Keeps dk qu s) (k : Nat) (o : Decoded) :
    Keeps dk qu (State.noteDecode s k o) := by
  unfold State.noteDecode
  repeat' first
    | (intro)
    | with_reducible assumption
    | with_reducible apply State.setReg_keeps
    | with_reducible apply State.countEvent_keeps
    | with_reducible apply State.post_keeps
    | with_reducible apply State.reportFault_keeps
    | with_reducible apply State.spallNote_keeps
    | with_reducible apply State.eraseCheck_keeps
    | with_reducible apply Keeps.ite
    | (dsimp only)
    | split

theorem State.readWord_keeps {s : State} (h : Keeps dk qu s) (k : Nat) :
    Keeps dk qu (State.readWord s k).2.2 := by
  unfold State.readWord
  repeat' first
    | (intro)
    | with_reducible assumption
    | with_reducible apply State.noteDecode_keeps

theorem State.readWord_keeps_eq {s : State} (h : Keeps dk qu s) {k : Nat} {x0 : List Byte} {x1 : Bool} {sv : State}
    (eqn : State.readWord s k = (x0, x1, sv)) : Keeps dk qu sv := by
  have := State.readWord_keeps h k
  rwa [eqn] at this

theorem State.mergeWord_keeps {s : State} (h : Keeps dk qu s) (k o : Nat) (bytes : List Byte) (poison : Bool) :
    Keeps dk qu (State.mergeWord s k o bytes poison) := by
  unfold State.mergeWord
  repeat' first
    | (intro)
    | with_reducible assumption
    | with_reducible apply State.storeWord_keeps
    | with_reducible apply Keeps.ite
    | (dsimp only)
    | split
    | (refine Keeps.any ?_ ?_; rotate_left; rfl)

theorem State.readMem_keeps {s : State} (h : Keeps dk qu s) (a n : Nat) :
    Keeps dk qu (State.readMem s a n).2 := by
  unfold State.readMem
  repeat' first
    | (intro)
    | with_reducible assumption
    | with_reducible apply State.readWord_keeps
    | refine State.readWord_keeps_eq ?_ (by with_reducible assumption)
    | with_reducible apply Keeps.ite
    | (with_reducible apply Keeps.foldl)
    | (with_reducible apply Keeps.foldl_snd)

theorem State.readMem_keeps_eq {s : State} (h : Keeps dk qu s) {a n : Nat} {x0 : List (Byte × Bool)} {sv : State}
    (eqn : State.readMem s a n = (x0, sv)) : Keeps dk qu sv := by
  have := State.readMem_keeps h a n
  rwa [eqn] at this

theorem State.writeMem_keeps {s : State} (h : Keeps dk qu s) (a : Nat) (bytes : List (Byte × Bool)) :
    Keeps dk qu (State.writeMem s a bytes) := by
  unfold State.writeMem
  repeat' first
    | (intro)
    | with_reducible assumption
    | with_reducible apply State.mergeWord_keeps
    | with_reducible apply State.drop_keeps
    | with_reducible apply Keeps.ite
    | (with_reducible apply Keeps.foldl)

theorem State.atsFill_keeps {s : State} (h : Keeps dk qu s) (a : Nat) :
    Keeps dk qu (State.atsFill s a) := by
  unfold State.atsFill
  repeat' first
    | (intro)
    | with_reducible assumption
    | with_reducible apply State.takeFree_keeps
    | refine State.takeFree_keeps_eq ?_ (by with_reducible assumption)
    | with_reducible apply Keeps.ite
    | (dsimp only)
    | split
    | (refine Keeps.any ?_ ?_; rotate_left; rfl)

theorem State.hostRead_keeps {s : State} (h : Keeps dk qu s) (a n : Nat) :
    Keeps dk qu (State.hostRead s a n).2.2 := by
  unfold State.hostRead
  repeat' first
    | (intro)
    | with_reducible assumption
    | with_reducible apply State.addFld_keeps
    | with_reducible apply State.aer_keeps
    | with_reducible apply Keeps.ite
    | (dsimp only)
    | split

theorem State.hostRead_keeps_eq {s : State} (h : Keeps dk qu s) {a n : Nat} {x0 : BusStatus} {x1 : List (Byte × Bool)} {sv : State}
    (eqn : State.hostRead s a n = (x0, x1, sv)) : Keeps dk qu sv := by
  have := State.hostRead_keeps h a n
  rwa [eqn] at this

theorem State.hostWrite_keeps {s : State} (h : Keeps dk qu s) (a : Nat) (bytes : List (Byte × Bool)) :
    Keeps dk qu (State.hostWrite s a bytes) := by
  unfold State.hostWrite
  repeat' first
    | (intro)
    | with_reducible assumption
    | with_reducible apply State.addFld_keeps
    | with_reducible apply State.aer_keeps
    | with_reducible apply Keeps.ite
    | (apply Keeps.hostWrite)

theorem State.busRead_keeps {s : State} (h : Keeps dk qu s) (ni port a n : Nat) :
    Keeps dk qu (State.busRead s ni port a n).2.2 := by
  unfold State.busRead
  repeat' first
    | (intro)
    | with_reducible assumption
    | with_reducible apply State.readMem_keeps
    | refine State.readMem_keeps_eq ?_ (by with_reducible assumption)
    | with_reducible apply State.atsFill_keeps
    | with_reducible apply State.hostRead_keeps
    | refine State.hostRead_keeps_eq ?_ (by with_reducible assumption)
    | with_reducible apply Keeps.ite
    | (dsimp only)
    | split

theorem State.busRead_keeps_eq {s : State} (h : Keeps dk qu s) {ni port a n : Nat} {x0 : BusStatus} {x1 : List (Byte × Bool)} {sv : State}
    (eqn : State.busRead s ni port a n = (x0, x1, sv)) : Keeps dk qu sv := by
  have := State.busRead_keeps h ni port a n
  rwa [eqn] at this

theorem State.busWrite_keeps {s : State} (h : Keeps dk qu s) (ni port a : Nat) (bytes : List (Byte × Bool)) :
    Keeps dk qu (State.busWrite s ni port a bytes).2 := by
  unfold State.busWrite
  repeat' first
    | (intro)
    | with_reducible assumption
    | with_reducible apply State.writeMem_keeps
    | with_reducible apply State.atsFill_keeps
    | with_reducible apply State.hostWrite_keeps
    | with_reducible apply Keeps.ite
    | (dsimp only)
    | split

theorem State.busWrite_keeps_eq {s : State} (h : Keeps dk qu s) {ni port a : Nat} {bytes : List (Byte × Bool)} {x0 : BusStatus} {sv : State}
    (eqn : State.busWrite s ni port a bytes = (x0, sv)) : Keeps dk qu sv := by
  have := State.busWrite_keeps h ni port a bytes
  rwa [eqn] at this

theorem State.busPut_keeps {s : State} (h : Keeps dk qu s) (ni port a : Nat) (bytes : List (Byte × Bool)) :
    Keeps dk qu (State.busPut s ni port a bytes).2 := by
  unfold State.busPut
  repeat' first
    | (intro)
    | with_reducible assumption
    | with_reducible apply State.busWrite_keeps
    | refine State.busWrite_keeps_eq ?_ (by with_reducible assumption)
    | with_reducible apply Keeps.ite
    | (with_reducible apply Keeps.foldl)
    | (with_reducible apply Keeps.foldl_snd)

theorem State.busPut_keeps_eq {s : State} (h : Keeps dk qu s) {ni port a : Nat} {bytes : List (Byte × Bool)} {x0 : BusStatus} {sv : State}
    (eqn : State.busPut s ni port a bytes = (x0, sv)) : Keeps dk qu sv := by
  have := State.busPut_keeps h ni port a bytes
  rwa [eqn] at this

theorem State.busGet_keeps {s : State} (h : Keeps dk qu s) (ni port a n : Nat) :
    Keeps dk qu (State.busGet s ni port a n).2.2 := by
  unfold State.busGet
  repeat' first
    | (intro)
    | with_reducible assumption
    | with_reducible apply State.busRead_keeps
    | refine State.busRead_keeps_eq ?_ (by with_reducible assumption)
    | with_reducible apply Keeps.ite
    | (with_reducible apply Keeps.foldl)
    | (with_reducible apply Keeps.foldl_snd)
    | (with_reducible apply Keeps.foldl_snd2)

theorem State.busGet_keeps_eq {s : State} (h : Keeps dk qu s) {ni port a n : Nat} {x0 : BusStatus} {x1 : List (Byte × Bool)} {sv : State}
    (eqn : State.busGet s ni port a n = (x0, x1, sv)) : Keeps dk qu sv := by
  have := State.busGet_keeps h ni port a n
  rwa [eqn] at this

theorem State.took_keeps {s : State} (h : Keeps dk qu s) (cls inst a : Nat) (l : List (Byte × Bool)) :
    Keeps dk qu (State.took s cls inst a l) := by
  unfold State.took
  repeat' first
    | (intro)
    | with_reducible assumption
    | with_reducible apply State.countEvent_keeps
    | with_reducible apply Keeps.ite

theorem State.unitGet_keeps {s : State} (h : Keeps dk qu s) (cls inst ni port a n : Nat) :
    Keeps dk qu (State.unitGet s cls inst ni port a n).2.2 := by
  unfold State.unitGet
  repeat' first
    | (intro)
    | with_reducible assumption
    | with_reducible apply State.busGet_keeps
    | refine State.busGet_keeps_eq ?_ (by with_reducible assumption)
    | with_reducible apply State.took_keeps

theorem State.unitGet_keeps_eq {s : State} (h : Keeps dk qu s) {cls inst ni port a n : Nat} {x0 : BusStatus} {x1 : List (Byte × Bool)} {sv : State}
    (eqn : State.unitGet s cls inst ni port a n = (x0, x1, sv)) : Keeps dk qu sv := by
  have := State.unitGet_keeps h cls inst ni port a n
  rwa [eqn] at this

theorem State.fillZero_keeps {s : State} (h : Keeps dk qu s) (k n : Nat) : Keeps dk qu (State.fillZero s k n) :=
  ⟨⟨filter_wf h.mem.1 _, filter_wf h.mem.2.1 _, h.mem.2.2⟩, h.regs, h.books, h.clock, h.queue⟩

/-! ## LedgerOps -/

/-- A movement of an account that adds as much to MINTED less DRAWN as to CREDIT and OUTSTANDING keeps R203. -/
theorem Account.move_balanced {x : Account} (h : x.balanced) {c o m w a : Int}
    (e : book c + book o = book m - book w) : (x.move c o m w a).balanced := by
  unfold Account.balanced at h ⊢
  simp only [Account.move]
  have : x.minted + book m - (x.drawn + book w) = (x.minted - x.drawn) + (book m - book w) := by ring
  rw [this, h, ← e]
  ring

theorem Account.balanced_congr {x y : Account} (h : x.balanced) (hc : y.credit = x.credit)
    (ho : y.outstanding = x.outstanding) (hm : y.minted = x.minted) (hd : y.drawn = x.drawn) : y.balanced := by
  unfold Account.balanced at h ⊢
  rw [hc, ho, hm, hd, h]

theorem State.setAccount_keeps {s : State} (h : Keeps dk qu s) (a : Nat) (x : Account) (hx : x.balanced) :
    Keeps dk qu (State.setAccount s a x) where
  mem := h.mem
  regs := h.regs
  books := by
    intro b
    by_cases hb : b = a
    · subst hb
      simpa [State.setAccount, State.account, tget_tset_self] using hx
    · have := h.books b
      simpa [State.setAccount, State.account, tget_tset_other _ _ _ _ hb] using this
  clock := h.clock
  queue := h.queue

theorem State.unpark_keeps {s : State} (h : Keeps dk qu s) (d : Nat) :
    Keeps dk qu (State.unpark s d) := by
  unfold State.unpark
  repeat' first
    | (intro)
    | with_reducible assumption
    | with_reducible apply State.setFld_keeps
    | with_reducible apply State.post_keeps
    | with_reducible apply Keeps.ite

theorem State.grantUnparks_keeps {s : State} (h : Keeps dk qu s)  :
    Keeps dk qu (State.grantUnparks s) := by
  unfold State.grantUnparks
  repeat' first
    | (intro)
    | with_reducible assumption
    | with_reducible apply State.unpark_keeps
    | with_reducible apply Keeps.ite
    | (with_reducible apply Keeps.foldl)
    | (with_reducible apply Keeps.foldl_snd)
    | (with_reducible apply Keeps.foldl_snd2)
    | (with_reducible apply Keeps.foldl_fst)
    | (refine Keeps.foldl_snd_eq ?_ ?_ (by with_reducible assumption))
    | (refine Keeps.foldl_snd2_eq ?_ ?_ (by with_reducible assumption))
    | (refine Keeps.foldl_fst_eq ?_ ?_ (by with_reducible assumption))
    | (dsimp only)
    | split
    | (refine Keeps.any ?_ ?_; rotate_left; rfl)

theorem State.devMove_keeps {s : State} (h : Keeps dk qu s) (i : Int) :
    Keeps dk qu (State.devMove s i) := by
  unfold State.devMove
  repeat' first
    | (intro)
    | with_reducible assumption
    | with_reducible apply State.post_keeps
    | with_reducible apply Keeps.ite
    | (dsimp only)
    | split
    | (refine Keeps.any ?_ ?_; rotate_left; rfl)

theorem State.charge_keeps {s : State} (h : Keeps dk qu s) (a x : Nat) (spread late : Bool) :
    Keeps dk qu (State.charge s a x spread late) := by
  have key : ((s.account a).move (-(x : Int)) 0 0 x 0).balanced :=
    Account.move_balanced (h.books a) (by simp [book, BitVec.ofInt_neg])
  unfold State.charge
  generalize (s.account a).move (-(x : Int)) 0 0 x 0 = y at key
  refine State.devMove_keeps (State.setAccount_keeps h _ _ ?_) _
  exact Account.balanced_congr key rfl rfl rfl rfl

theorem State.debit_keeps {s : State} (h : Keeps dk qu s) (a est : Nat) : Keeps dk qu (State.debit s a est) := by
  have key : ((s.account a).move (-(256 * est : Int)) (256 * est) 0 0 0).balanced :=
    Account.move_balanced (h.books a) (by simp [book, ← BitVec.ofInt_add])
  exact State.devMove_keeps (State.setAccount_keeps h _ _ key) _

theorem State.trueUp_keeps {s : State} (h : Keeps dk qu s) (a est accr : Nat) : Keeps dk qu (State.trueUp s a est accr) := by
  have key : ((s.account a).move (256 * est - accr : Int) (-(256 * est : Int)) 0 accr (-(accr : Int))).balanced := by
    refine Account.move_balanced (h.books a) ?_
    have e : (256 * est - accr : Int) + -(256 * est : Int) = 0 - (accr : Int) := by ring
    have f : book (256 * est - accr) + book (-(256 * est : Int)) = book 0 + book (-(accr : Int)) := by
      simp only [book, ← BitVec.ofInt_add]
      congr 1; try omega
    rw [f]
    simp [book, BitVec.ofInt_neg]
  unfold State.trueUp
  generalize (s.account a).move (256 * est - accr : Int) (-(256 * est : Int)) 0 accr (-(accr : Int)) = y at key
  extract_lets y0 y1 s1
  have k : Keeps dk qu s1 := by
    refine State.devMove_keeps (State.setAccount_keeps h _ _ ?_) _
    exact Account.balanced_congr key rfl rfl rfl rfl
  clear_value s1
  exact Keeps.ite (State.grantUnparks_keeps k) k

theorem State.accrue_keeps {s : State} (h : Keeps dk qu s) (a x : Nat) : Keeps dk qu (State.accrue s a x) := by
  have key : ((s.account a).move 0 0 0 0 x).balanced := Account.move_balanced (h.books a) (by simp [book])
  unfold State.accrue
  generalize (s.account a).move 0 0 0 0 x = y at key
  exact State.setAccount_keeps h _ _ (Account.balanced_congr key rfl rfl rfl rfl)

theorem State.mint_keeps {s : State} (h : Keeps dk qu s) (a amount : Nat) : Keeps dk qu (State.mint s a amount) := by
  unfold State.mint
  extract_lets x ceil added forfeit y s'
  have key : y.balanced := Account.move_balanced (h.books a) (by simp [book])
  have k' : Keeps dk qu s' := by
    refine State.setFld_keeps (State.setAccount_keeps h _ _ ?_) _ _ _
    exact Account.balanced_congr key rfl rfl rfl rfl
  clear_value s'
  exact Keeps.ite (State.post_keeps k' _ _ _ _ _) k'

theorem State.adjust_keeps {s : State} (h : Keeps dk qu s) (a : Nat) (v : Int) : Keeps dk qu (State.adjust s a v) := by
  have key : ((s.account a).move (256 * v) 0 (256 * v) 0 0).balanced := Account.move_balanced (h.books a) (by simp [book])
  exact State.setAccount_keeps h _ _ key

theorem State.debitG0_keeps {s : State} (h : Keeps dk qu s) (a est : Nat) : Keeps dk qu (State.debitG0 s a est) := by
  unfold State.debitG0
  extract_lets s' x s''
  have k' : Keeps dk qu s' := State.debit_keeps h a est
  have k'' : Keeps dk qu s'' := State.addFld_keeps k' _ _ _
  have kx : x.balanced := k'.books a
  clear_value s' x s''
  refine Keeps.ite (Keeps.ite k'' (State.post_keeps (State.setAccount_keeps k'' _ _ ?_) _ _ _ _ _)) k'
  exact Account.balanced_congr kx rfl rfl rfl rfl

theorem State.ask_keeps {s : State} (h : Keeps dk qu s) (a grade est : Nat) (optional : Bool) :
    Keeps dk qu (State.ask s a grade est optional).2 := by
  unfold State.ask
  repeat' first
    | (intro)
    | with_reducible assumption
    | with_reducible apply State.addFld_keeps
    | with_reducible apply State.debit_keeps
    | with_reducible apply Keeps.ite
    | (dsimp only)
    | split

theorem State.ask_keeps_eq {s : State} (h : Keeps dk qu s) {a grade est : Nat} {optional : Bool} {x0 : Answer} {sv : State}
    (eqn : State.ask s a grade est optional = (x0, sv)) : Keeps dk qu sv := by
  have := State.ask_keeps h a grade est optional
  rwa [eqn] at this

theorem State.countAct_keeps {s : State} (h : Keeps dk qu s) (u i e n : Nat) :
    Keeps dk qu (State.countAct s u i e n) := by
  unfold State.countAct
  repeat' first
    | (intro)
    | with_reducible assumption
    | with_reducible apply Keeps.ite
    | (dsimp only)
    | split
    | (refine Keeps.any ?_ ?_; rotate_left; rfl)

theorem State.lateActs_keeps {s : State} (h : Keeps dk qu s) (u i a : Nat) :
    Keeps dk qu (State.lateActs s u i a) := by
  unfold State.lateActs
  repeat' first
    | (intro)
    | with_reducible assumption
    | with_reducible apply Keeps.ite
    | (with_reducible apply Keeps.foldl)
    | (with_reducible apply Keeps.foldl_snd)
    | (with_reducible apply Keeps.foldl_snd2)
    | (with_reducible apply Keeps.foldl_fst)
    | (refine Keeps.foldl_snd_eq ?_ ?_ (by with_reducible assumption))
    | (refine Keeps.foldl_snd2_eq ?_ ?_ (by with_reducible assumption))
    | (refine Keeps.foldl_fst_eq ?_ ?_ (by with_reducible assumption))
    | (dsimp only)
    | split
    | (refine Keeps.any ?_ ?_; rotate_left; rfl)

theorem State.setMeter_keeps {s : State} (h : Keeps dk qu s) (p : Nat) (m : Meter) :
    Keeps dk qu (State.setMeter s p m) := by
  unfold State.setMeter
  repeat' first
    | (intro)
    | with_reducible assumption
    | with_reducible apply Keeps.ite
    | (dsimp only)
    | split
    | (refine Keeps.any ?_ ?_; rotate_left; rfl)

/-! ## DispOps -/

theorem State.putTask_keeps {s : State} (h : Keeps dk qu s) (i : Nat) (t : Task) :
    Keeps dk qu (State.putTask s i t) := by
  unfold State.putTask
  repeat' first
    | (intro)
    | with_reducible assumption
    | with_reducible apply Keeps.ite
    | (dsimp only)
    | split
    | (refine Keeps.any ?_ ?_; rotate_left; rfl)

theorem State.delTask_keeps {s : State} (h : Keeps dk qu s) (i : Nat) :
    Keeps dk qu (State.delTask s i) := by
  unfold State.delTask
  repeat' first
    | (intro)
    | with_reducible assumption
    | with_reducible apply Keeps.ite
    | (dsimp only)
    | split
    | (refine Keeps.any ?_ ?_; rotate_left; rfl)

theorem State.setSlot_keeps {s : State} (h : Keeps dk qu s) (u : Nat) (l : List Nat) :
    Keeps dk qu (State.setSlot s u l) := by
  unfold State.setSlot
  repeat' first
    | (intro)
    | with_reducible assumption
    | with_reducible apply State.setFld_keeps
    | with_reducible apply Keeps.ite
    | (dsimp only)
    | split
    | (refine Keeps.any ?_ ?_; rotate_left; rfl)

theorem State.syncQueue_keeps {s : State} (h : Keeps dk qu s) (q : Nat) :
    Keeps dk qu (State.syncQueue s q) := by
  unfold State.syncQueue
  repeat' first
    | (intro)
    | with_reducible assumption
    | with_reducible apply State.setFld_keeps
    | with_reducible apply State.maxFld_keeps
    | with_reducible apply Keeps.ite

theorem State.setKey_keeps {s : State} (h : Keeps dk qu s) (k : Nat) (x : Keystone) :
    Keeps dk qu (State.setKey s k x) := by
  unfold State.setKey
  repeat' first
    | (intro)
    | with_reducible assumption
    | with_reducible apply Keeps.ite
    | (dsimp only)
    | split
    | (refine Keeps.any ?_ ?_; rotate_left; rfl)

theorem State.creditChange_keeps {s : State} (h : Keeps dk qu s) (a : Nat) (all : Bool) :
    Keeps dk qu (State.creditChange s a all) := by
  unfold State.creditChange
  repeat' first
    | (intro)
    | with_reducible assumption
    | with_reducible apply State.setFld_keeps
    | with_reducible apply Keeps.ite
    | (with_reducible apply Keeps.foldl)
    | (with_reducible apply Keeps.foldl_snd)
    | (with_reducible apply Keeps.foldl_snd2)
    | (with_reducible apply Keeps.foldl_fst)
    | (refine Keeps.foldl_snd_eq ?_ ?_ (by with_reducible assumption))
    | (refine Keeps.foldl_snd2_eq ?_ ?_ (by with_reducible assumption))
    | (refine Keeps.foldl_fst_eq ?_ ?_ (by with_reducible assumption))
    | (dsimp only)
    | split

theorem State.report_keeps {s : State} (h : Keeps dk qu s) (i : Nat) (c : Cause) :
    Keeps dk qu (State.report s i c) := by
  unfold State.report
  repeat' first
    | (intro)
    | with_reducible assumption
    | with_reducible apply Keeps.ite
    | (dsimp only)
    | split
    | (refine Keeps.any ?_ ?_; rotate_left; rfl)

theorem State.closeTask_keeps {s : State} (h : Keeps dk qu s) (i : Nat) (t : Task) (c : Cause) :
    Keeps dk qu (State.closeTask s i t c).2 := by
  unfold State.closeTask
  repeat' first
    | (intro)
    | with_reducible assumption
    | with_reducible apply State.addFld_keeps
    | with_reducible apply State.post_keeps
    | with_reducible apply State.delTask_keeps
    | with_reducible apply State.syncQueue_keeps
    | with_reducible apply Keeps.ite

theorem State.closeTask_keeps_eq {s : State} (h : Keeps dk qu s) {i : Nat} {t : Task} {c : Cause} {x0 : List (Nat × Bool)} {sv : State}
    (eqn : State.closeTask s i t c = (x0, sv)) : Keeps dk qu sv := by
  have := State.closeTask_keeps h i t c
  rwa [eqn] at this

theorem State.releaseTask_keeps {s : State} (h : Keeps dk qu s) (i : Nat) (t : Task) (mark : Bool) :
    Keeps dk qu (State.releaseTask s i t mark).2 := by
  unfold State.releaseTask
  repeat' first
    | (intro)
    | with_reducible assumption
    | with_reducible apply State.putTask_keeps
    | with_reducible apply State.syncQueue_keeps
    | with_reducible apply State.closeTask_keeps
    | refine State.closeTask_keeps_eq ?_ (by with_reducible assumption)
    | with_reducible apply Keeps.ite
    | (dsimp only)
    | split

theorem State.releaseTask_keeps_eq {s : State} (h : Keeps dk qu s) {i : Nat} {t : Task} {mark : Bool} {x0 : List (Nat × Bool)} {sv : State}
    (eqn : State.releaseTask s i t mark = (x0, sv)) : Keeps dk qu sv := by
  have := State.releaseTask_keeps h i t mark
  rwa [eqn] at this

theorem State.release_keeps {s : State} (h : Keeps dk qu s) (k : Nat) (mark : Bool) :
    Keeps dk qu (State.release s k mark).2 := by
  unfold State.release
  repeat' first
    | (intro)
    | with_reducible assumption
    | with_reducible apply State.post_keeps
    | with_reducible apply State.setKey_keeps
    | with_reducible apply State.releaseTask_keeps
    | refine State.releaseTask_keeps_eq ?_ (by with_reducible assumption)
    | with_reducible apply State.dmaWait_keeps
    | with_reducible apply Keeps.ite
    | (with_reducible apply Keeps.foldl)
    | (with_reducible apply Keeps.foldl_snd)
    | (with_reducible apply Keeps.foldl_snd2)
    | (with_reducible apply Keeps.foldl_fst)
    | (refine Keeps.foldl_snd_eq ?_ ?_ (by with_reducible assumption))
    | (refine Keeps.foldl_snd2_eq ?_ ?_ (by with_reducible assumption))
    | (refine Keeps.foldl_fst_eq ?_ ?_ (by with_reducible assumption))
    | (dsimp only)
    | split
    | (refine Keeps.any ?_ ?_; rotate_left; rfl)

theorem State.release_keeps_eq {s : State} (h : Keeps dk qu s) {k : Nat} {mark : Bool} {x0 : List (Nat × Bool)} {sv : State}
    (eqn : State.release s k mark = (x0, sv)) : Keeps dk qu sv := by
  have := State.release_keeps h k mark
  rwa [eqn] at this

theorem State.decOnce_keeps {s : State} (h : Keeps dk qu s) (k : Nat) (m : Bool) :
    Keeps dk qu (State.decOnce s k m).2 := by
  unfold State.decOnce
  repeat' first
    | (intro)
    | with_reducible assumption
    | with_reducible apply State.post_keeps
    | with_reducible apply State.setKey_keeps
    | with_reducible apply State.release_keeps
    | refine State.release_keeps_eq ?_ (by with_reducible assumption)
    | with_reducible apply Keeps.ite
    | (dsimp only)
    | split

theorem State.decOnce_keeps_eq {s : State} (h : Keeps dk qu s) {k : Nat} {m : Bool} {x0 : List (Nat × Bool)} {sv : State}
    (eqn : State.decOnce s k m = (x0, sv)) : Keeps dk qu sv := by
  have := State.decOnce_keeps h k m
  rwa [eqn] at this

theorem State.decAll_keeps (n : Nat) (l : List (Nat × Bool)) {s : State} (h : Keeps dk qu s) :
    Keeps dk qu (State.decAll n l s) := by
  induction n generalizing l s with
  | zero => exact h
  | succ n ih =>
    match l with
    | [] => exact h
    | (k, m) :: r => exact ih _ (State.decOnce_keeps h k m)

theorem State.decKeys_keeps {s : State} (h : Keeps dk qu s) (l : List (Nat × Bool)) :
    Keeps dk qu (State.decKeys s l) :=
  State.decAll_keeps _ _ h

theorem State.decKey_keeps {s : State} (h : Keeps dk qu s) (k : Nat) (m : Bool) :
    Keeps dk qu (State.decKey s k m) := by
  unfold State.decKey
  repeat' first
    | (intro)
    | with_reducible assumption
    | with_reducible apply State.decKeys_keeps

theorem State.setCount_keeps {s : State} (h : Keeps dk qu s) (k v : Nat) (clear : Bool) :
    Keeps dk qu (State.setCount s k v clear) := by
  unfold State.setCount
  repeat' first
    | (intro)
    | with_reducible assumption
    | with_reducible apply State.setKey_keeps
    | with_reducible apply State.release_keeps
    | refine State.release_keeps_eq ?_ (by with_reducible assumption)
    | with_reducible apply State.decKeys_keeps
    | with_reducible apply State.dmaWait_keeps
    | with_reducible apply Keeps.ite

theorem State.setReload_keeps {s : State} (h : Keeps dk qu s) (k v : Nat) :
    Keeps dk qu (State.setReload s k v) := by
  unfold State.setReload
  repeat' first
    | (intro)
    | with_reducible assumption
    | with_reducible apply State.setKey_keeps

theorem State.accept_keeps {s : State} (h : Keeps dk qu s) (q : Nat) (w : List Word) (tb : Nat → Nat × Nat) :
    Keeps dk qu (State.accept s q w tb).2 := by
  unfold State.accept
  repeat' first
    | (intro)
    | with_reducible assumption
    | with_reducible apply State.countEvent_keeps
    | with_reducible apply State.putTask_keeps
    | with_reducible apply State.syncQueue_keeps
    | with_reducible apply State.releaseTask_keeps
    | refine State.releaseTask_keeps_eq ?_ (by with_reducible assumption)
    | with_reducible apply State.decKeys_keeps
    | with_reducible apply Keeps.ite
    | (dsimp only)
    | split
    | (refine Keeps.any ?_ ?_; rotate_left; rfl)

theorem State.placeEntry_keeps {s : State} (h : Keeps dk qu s) (u i : Nat) (t : Task) (allow : Nat) :
    Keeps dk qu (State.placeEntry s u i t allow) := by
  unfold State.placeEntry
  repeat' first
    | (intro)
    | with_reducible assumption
    | with_reducible apply State.countEvent_keeps
    | with_reducible apply State.putTask_keeps
    | with_reducible apply State.setSlot_keeps
    | with_reducible apply State.syncQueue_keeps
    | with_reducible apply Keeps.ite
    | (dsimp only)
    | split
    | (refine Keeps.any ?_ ?_; rotate_left; rfl)

theorem State.place_keeps {s : State} (h : Keeps dk qu s) (u i : Nat) (t : Task) :
    Keeps dk qu (State.place s u i t) := by
  unfold State.place
  repeat' first
    | (intro)
    | with_reducible assumption
    | with_reducible apply State.setFld_keeps
    | with_reducible apply State.addFld_keeps
    | with_reducible apply State.countEvent_keeps
    | with_reducible apply State.debitG0_keeps
    | with_reducible apply State.ask_keeps
    | refine State.ask_keeps_eq ?_ (by with_reducible assumption)
    | with_reducible apply State.closeTask_keeps
    | refine State.closeTask_keeps_eq ?_ (by with_reducible assumption)
    | with_reducible apply State.decKeys_keeps
    | with_reducible apply State.placeEntry_keeps
    | with_reducible apply Keeps.ite
    | (dsimp only)
    | split
    | (refine Keeps.any ?_ ?_; rotate_left; rfl)

theorem State.reclaim_keeps {s : State} (h : Keeps dk qu s) (u i : Nat) :
    Keeps dk qu (State.reclaim s u i) := by
  unfold State.reclaim
  repeat' first
    | (intro)
    | with_reducible assumption
    | with_reducible apply State.addFld_keeps
    | with_reducible apply State.trueUp_keeps
    | with_reducible apply State.putTask_keeps
    | with_reducible apply State.setSlot_keeps
    | with_reducible apply State.syncQueue_keeps
    | with_reducible apply State.creditChange_keeps
    | with_reducible apply Keeps.ite
    | (dsimp only)
    | split

theorem State.reclaimAll_keeps {s : State} (h : Keeps dk qu s) (u : Nat) :
    Keeps dk qu (State.reclaimAll s u) := by
  unfold State.reclaimAll
  repeat' first
    | (intro)
    | with_reducible assumption
    | with_reducible apply State.reclaim_keeps
    | with_reducible apply Keeps.ite
    | (with_reducible apply Keeps.foldl)

theorem State.complete_keeps {s : State} (h : Keeps dk qu s) (i : Nat) (c : Cause) :
    Keeps dk qu (State.complete s i c) := by
  unfold State.complete
  repeat' first
    | (intro)
    | with_reducible assumption
    | with_reducible apply State.addFld_keeps
    | with_reducible apply State.post_keeps
    | with_reducible apply State.trueUp_keeps
    | with_reducible apply State.lateActs_keeps
    | with_reducible apply State.putTask_keeps
    | with_reducible apply State.syncQueue_keeps
    | with_reducible apply State.creditChange_keeps
    | with_reducible apply State.closeTask_keeps
    | refine State.closeTask_keeps_eq ?_ (by with_reducible assumption)
    | with_reducible apply State.decKeys_keeps
    | with_reducible apply Keeps.ite
    | (dsimp only)
    | split

theorem State.drop_keeps {s : State} (h : Keeps dk qu s) (i : Nat) (t : Task) (c : Cause) :
    Keeps dk qu (State.drop s i t c) := by
  unfold State.drop
  repeat' first
    | (intro)
    | with_reducible assumption
    | with_reducible apply State.closeTask_keeps
    | refine State.closeTask_keeps_eq ?_ (by with_reducible assumption)
    | with_reducible apply State.decKeys_keeps

/-! ## SysOps -/

theorem Account.reset_balanced : Account.reset.balanced := by unfold Account.balanced; decide


theorem State.traceLost_keeps {s : State} (h : Keeps dk qu s)  :
    Keeps dk qu (State.traceLost s) := by
  unfold State.traceLost
  repeat' first
    | (intro)
    | with_reducible assumption
    | with_reducible apply Keeps.ite
    | (dsimp only)
    | split
    | (refine Keeps.any ?_ ?_; rotate_left; rfl)

theorem State.tracePush_keeps {s : State} (h : Keeps dk qu s) (type : Nat) (payload : List Nat) :
    Keeps dk qu (State.tracePush s type payload) := by
  unfold State.tracePush
  repeat' first
    | (intro)
    | with_reducible assumption
    | with_reducible apply State.setFld_keeps
    | with_reducible apply State.addFld_keeps
    | with_reducible apply State.traceLost_keeps
    | with_reducible apply Keeps.ite
    | (dsimp only)
    | split
    | (refine Keeps.any ?_ ?_; rotate_left; rfl)

theorem State.tracePeriod_keeps {s : State} (h : Keeps dk qu s)  :
    Keeps dk qu (State.tracePeriod s) := by
  unfold State.tracePeriod
  repeat' first
    | (intro)
    | with_reducible assumption
    | with_reducible apply State.post_keeps
    | with_reducible apply Keeps.ite
    | (dsimp only)
    | split
    | (refine Keeps.any ?_ ?_; rotate_left; rfl)

theorem State.journalWrite_keeps {s : State} (h : Keeps dk qu s) (e : JEvent) (stamp : BitVec 64) :
    Keeps dk qu (State.journalWrite s e stamp) := by
  unfold State.journalWrite
  repeat' first
    | (intro)
    | with_reducible assumption
    | with_reducible apply State.setFld_keeps
    | with_reducible apply State.satFld_keeps
    | with_reducible apply State.raise_keeps
    | with_reducible apply State.notify_keeps
    | with_reducible apply State.busWrite_keeps
    | refine State.busWrite_keeps_eq ?_ (by with_reducible assumption)
    | with_reducible apply State.tracePush_keeps
    | with_reducible apply Keeps.ite
    | (with_reducible apply Keeps.foldl)

theorem State.toFooting_keeps {s : State} (h : Keeps dk qu s) (bits : Nat) : Keeps dk qu (State.toFooting s bits) := by
  unfold State.toFooting
  dsimp only
  refine Keeps.foldl (State.setReg_keeps ?_ _ _ _ _) (fun s d h => State.setFld_keeps h _ _ _)
  exact ⟨⟨empty_wf _, empty_wf _, h.mem.2.2⟩, List.Pairwise.nil, fun _ => Account.reset_balanced, h.clock, h.queue⟩

theorem State.startTransition_keeps {s : State} (h : Keeps dk qu s) (to_ : Mode) (req : Nat) (op : Option (BitVec 16)) :
    Keeps dk qu (State.startTransition s to_ req op) := by
  unfold State.startTransition
  repeat' first
    | (intro)
    | with_reducible assumption
    | with_reducible apply Keeps.ite
    | (dsimp only)
    | split
    | (refine Keeps.any ?_ ?_; rotate_left; rfl)

theorem State.syncReady_keeps {s : State} (h : Keeps dk qu s)  :
    Keeps dk qu (State.syncReady s) := by
  unfold State.syncReady
  repeat' first
    | (intro)
    | with_reducible assumption
    | with_reducible apply State.setFld_keeps

/-! ## CsrOps -/

theorem State.storeReg_keeps {s : State} (h : Keeps dk qu s) (cls inst off : Nat) (v : Word) :
    Keeps dk qu (State.storeReg s cls inst off v) := by
  unfold State.storeReg
  repeat' first
    | (intro)
    | with_reducible assumption
    | with_reducible apply State.setReg_keeps
    | with_reducible apply Keeps.ite
    | (dsimp only)
    | split

theorem State.eachMember_keeps {s : State} (h : Keeps dk qu s) (cls sel off : Nat) (f : State → Nat → State)
    (hf : ∀ s i, Keeps dk qu s → Keeps dk qu (f s i)) : Keeps dk qu (State.eachMember s cls sel off f) :=
  Keeps.ite (Keeps.foldl h fun s i h => hf s i h) h

theorem State.hubEach_keeps {s : State} (h : Keeps dk qu s) (req cls sel off : Nat) (f : State → Nat → State)
    (hf : ∀ s i, Keeps dk qu s → Keeps dk qu (f s i)) : Keeps dk qu (State.hubEach s req cls sel off f) :=
  Keeps.ite (State.eachMember_keeps h _ _ _ _ hf) h

/-! ## TimeOps -/

theorem State.setTb_keeps {s : State} (h : Keeps dk qu s) (n : Nat) (b : TimeBase) :
    Keeps dk qu (State.setTb s n b) := by
  unfold State.setTb
  repeat' first
    | (intro)
    | with_reducible assumption
    | with_reducible apply Keeps.ite
    | (dsimp only)
    | split
    | (refine Keeps.any ?_ ?_; rotate_left; rfl)

theorem State.timeTick_keeps {s : State} (h : Keeps dk qu s)  :
    Keeps dk qu (State.timeTick s) := by
  unfold State.timeTick
  repeat' first
    | (intro)
    | with_reducible assumption
    | with_reducible apply State.setTb_keeps
    | with_reducible apply Keeps.ite
    | (with_reducible apply Keeps.foldl)
    | (with_reducible apply Keeps.foldl_snd)
    | (with_reducible apply Keeps.foldl_snd2)
    | (with_reducible apply Keeps.foldl_fst)
    | (refine Keeps.foldl_snd_eq ?_ ?_ (by with_reducible assumption))
    | (refine Keeps.foldl_snd2_eq ?_ ?_ (by with_reducible assumption))
    | (refine Keeps.foldl_fst_eq ?_ ?_ (by with_reducible assumption))
    | (dsimp only)
    | split
    | (refine Keeps.any ?_ ?_; rotate_left; rfl)

theorem State.setPin_keeps {s : State} (h : Keeps dk qu s) (p : Nat) (x : TddPin) :
    Keeps dk qu (State.setPin s p x) := by
  unfold State.setPin
  repeat' first
    | (intro)
    | with_reducible assumption
    | with_reducible apply Keeps.ite
    | (dsimp only)
    | split
    | (refine Keeps.any ?_ ?_; rotate_left; rfl)

theorem State.setStrm_keeps {s : State} (h : Keeps dk qu s) (c : Nat) (x : Strm) :
    Keeps dk qu (State.setStrm s c x) := by
  unfold State.setStrm
  repeat' first
    | (intro)
    | with_reducible assumption
    | with_reducible apply Keeps.ite
    | (dsimp only)
    | split
    | (refine Keeps.any ?_ ?_; rotate_left; rfl)

theorem State.syncPin_keeps {s : State} (h : Keeps dk qu s) (p : Nat) :
    Keeps dk qu (State.syncPin s p) := by
  unfold State.syncPin
  repeat' first
    | (intro)
    | with_reducible assumption
    | with_reducible apply State.setFld_keeps

theorem State.quietPins_keeps {s : State} (h : Keeps dk qu s)  :
    Keeps dk qu (State.quietPins s) := by
  unfold State.quietPins
  repeat' first
    | (intro)
    | with_reducible assumption
    | with_reducible apply State.setFld_keeps
    | with_reducible apply State.syncPin_keeps
    | with_reducible apply Keeps.ite
    | (with_reducible apply Keeps.foldl)

theorem State.fireEdges_keeps {s : State} (h : Keeps dk qu s) (p : Nat) :
    Keeps dk qu (State.fireEdges s p) := by
  unfold State.fireEdges
  repeat' first
    | (intro)
    | with_reducible assumption
    | with_reducible apply State.addFld_keeps
    | with_reducible apply State.post_keeps
    | with_reducible apply State.setPin_keeps
    | with_reducible apply State.syncPin_keeps
    | with_reducible apply Keeps.ite

theorem State.pushEdge_keeps {s : State} (h : Keeps dk qu s) (p : Nat) (level : Bool) :
    Keeps dk qu (State.pushEdge s p level) := by
  unfold State.pushEdge
  repeat' first
    | (intro)
    | with_reducible assumption
    | with_reducible apply State.addFld_keeps
    | with_reducible apply State.post_keeps
    | with_reducible apply State.setPin_keeps
    | with_reducible apply State.syncPin_keeps
    | with_reducible apply State.fireEdges_keeps
    | with_reducible apply Keeps.ite

theorem State.periodStarts_keeps {s : State} (h : Keeps dk qu s) (at_ : Int) (stop : Nat → Int) :
    Keeps dk qu (State.periodStarts s at_ stop) := by
  unfold State.periodStarts
  repeat' first
    | (intro)
    | with_reducible assumption
    | with_reducible apply State.post_keeps
    | with_reducible apply Keeps.ite
    | (dsimp only)
    | split
    | (refine Keeps.any ?_ ?_; rotate_left; rfl)

theorem State.periodLocked_keeps {s : State} (h : Keeps dk qu s)  :
    Keeps dk qu (State.periodLocked s) := by
  unfold State.periodLocked
  repeat' first
    | (intro)
    | with_reducible assumption
    | with_reducible apply Keeps.ite
    | (dsimp only)
    | split
    | (refine Keeps.any ?_ ?_; rotate_left; rfl)

theorem State.periodStepped_keeps {s : State} (h : Keeps dk qu s) (passed : Nat) :
    Keeps dk qu (State.periodStepped s passed) := by
  unfold State.periodStepped
  repeat' first
    | (intro)
    | with_reducible assumption
    | with_reducible apply State.periodStarts_keeps
    | with_reducible apply Keeps.ite
    | (dsimp only)
    | split
    | (refine Keeps.any ?_ ?_; rotate_left; rfl)

theorem State.periodMoved_keeps {s : State} (h : Keeps dk qu s) (passed : Nat) :
    Keeps dk qu (State.periodMoved s passed) := by
  unfold State.periodMoved
  repeat' first
    | (intro)
    | with_reducible assumption
    | with_reducible apply Keeps.ite
    | (dsimp only)
    | split
    | (refine Keeps.any ?_ ?_; rotate_left; rfl)

end Sys2Proof.Machine
end

