-- ==== Sys2Proof/Laws/KeepsUnits.lean ====
section
/-! SUPPORT. What operations of the witness, the streams, the lanes, Ethernet, the DMA engines and the cores keep (`Keeps`, `KeepsOut`): one lemma a definition. -/
namespace Sys2Proof.Machine

variable {dk : BitVec 64} {qu : List Instr}

/-! ## WitOps -/

theorem State.setVault_keeps {s : State} (h : Keeps dk qu s) (v : Vault) :
    Keeps dk qu (State.setVault s v) := by
  unfold State.setVault
  repeat' first
    | (intro)
    | with_reducible assumption
    | with_reducible apply Keeps.ite
    | (dsimp only)
    | split
    | (refine Keeps.any ?_ ?_; rotate_left; rfl)

theorem State.applyGeometry_keeps {s : State} (h : Keeps dk qu s)  :
    Keeps dk qu (State.applyGeometry s) := by
  unfold State.applyGeometry
  repeat' first
    | (intro)
    | with_reducible assumption
    | with_reducible apply State.setVault_keeps

theorem State.freezeRgn_keeps {s : State} (h : Keeps dk qu s) (r : Nat) :
    Keeps dk qu (State.freezeRgn s r) := by
  unfold State.freezeRgn
  repeat' first
    | (intro)
    | with_reducible assumption
    | with_reducible apply State.setFld_keeps
    | with_reducible apply State.post_keeps

theorem State.freezeAt_keeps {s : State} (h : Keeps dk qu s) (stamp : Nat) :
    Keeps dk qu (State.freezeAt s stamp) := by
  unfold State.freezeAt
  repeat' first
    | (intro)
    | with_reducible assumption
    | with_reducible apply State.freezeRgn_keeps
    | with_reducible apply Keeps.ite
    | (with_reducible apply Keeps.foldl)

theorem State.freeRgn_keeps {s : State} (h : Keeps dk qu s) (r : Nat) :
    Keeps dk qu (State.freeRgn s r) := by
  unfold State.freeRgn
  repeat' first
    | (intro)
    | with_reducible assumption
    | with_reducible apply State.setFld_keeps
    | with_reducible apply State.setVault_keeps

theorem State.releaseRgn_keeps {s : State} (h : Keeps dk qu s) (r : Nat) :
    Keeps dk qu (State.releaseRgn s r) := by
  unfold State.releaseRgn
  repeat' first
    | (intro)
    | with_reducible assumption
    | with_reducible apply State.setVault_keeps
    | with_reducible apply State.freeRgn_keeps
    | with_reducible apply Keeps.ite

theorem State.dropLeaf_keeps {s : State} (h : Keeps dk qu s) (src : Nat) :
    Keeps dk qu (State.dropLeaf s src) := by
  unfold State.dropLeaf
  repeat' first
    | (intro)
    | with_reducible assumption
    | with_reducible apply State.addFld_keeps
    | with_reducible apply State.setVault_keeps
    | with_reducible apply Keeps.ite
    | (with_reducible apply Keeps.foldl)

theorem State.vaultFull_keeps {s : State} (h : Keeps dk qu s)  :
    Keeps dk qu (State.vaultFull s) := by
  unfold State.vaultFull
  repeat' first
    | (intro)
    | with_reducible assumption
    | with_reducible apply State.setFld_keeps
    | with_reducible apply State.post_keeps
    | with_reducible apply Keeps.ite

theorem State.vaultPeriod_keeps {s : State} (h : Keeps dk qu s)  :
    Keeps dk qu (State.vaultPeriod s) := by
  unfold State.vaultPeriod
  repeat' first
    | (intro)
    | with_reducible assumption
    | with_reducible apply State.post_keeps
    | with_reducible apply State.setVault_keeps
    | with_reducible apply Keeps.ite

theorem State.closeLeaf_keeps {s : State} (h : Keeps dk qu s) (x : Leaf) :
    Keeps dk qu (State.closeLeaf s x) := by
  unfold State.closeLeaf
  repeat' first
    | (intro)
    | with_reducible assumption
    | with_reducible apply State.setVault_keeps
    | with_reducible apply State.dropLeaf_keeps
    | with_reducible apply Keeps.ite

theorem State.addUnit_keeps {s : State} (h : Keeps dk qu s) (src : Nat) (h : UnitHead) (first : Nat) (u : List (Byte × Bool)) (bad : Bool) :
    Keeps dk qu (State.addUnit s src h first u bad) := by
  unfold State.addUnit
  repeat' first
    | (intro)
    | with_reducible assumption
    | with_reducible apply State.setVault_keeps
    | with_reducible apply State.closeLeaf_keeps
    | with_reducible apply Keeps.ite

theorem State.raiseTrigger_keeps {s : State} (h : Keeps dk qu s) (src : Nat) (tag : Word) :
    Keeps dk qu (State.raiseTrigger s src tag) := by
  unfold State.raiseTrigger
  repeat' first
    | (intro)
    | with_reducible assumption
    | with_reducible apply State.setVault_keeps

theorem State.commandTrigger_keeps {s : State} (h : Keeps dk qu s) (tag : Word) :
    Keeps dk qu (State.commandTrigger s tag) := by
  unfold State.commandTrigger
  repeat' first
    | (intro)
    | with_reducible assumption
    | with_reducible apply State.raiseTrigger_keeps
    | with_reducible apply Keeps.ite

theorem State.summaryTrigger_keeps {s : State} (h : Keeps dk qu s) (codes : List Nat) :
    Keeps dk qu (State.summaryTrigger s codes) := by
  unfold State.summaryTrigger
  repeat' first
    | (intro)
    | with_reducible assumption
    | with_reducible apply State.raiseTrigger_keeps
    | with_reducible apply Keeps.ite

theorem State.summaryRow_keeps {s : State} (h : Keeps dk qu s) (h : UnitHead) (bad : Option Nat) (blocks : List (List Byte)) :
    Keeps dk qu (State.summaryRow s h bad blocks) := by
  unfold State.summaryRow
  repeat' first
    | (intro)
    | with_reducible assumption
    | with_reducible apply State.addUnit_keeps
    | with_reducible apply State.summaryTrigger_keeps
    | with_reducible apply Keeps.ite
    | (dsimp only)
    | split
    | (refine Keeps.any ?_ ?_; rotate_left; rfl)

theorem State.takeUpset_keeps {s : State} (h : Keeps dk qu s) (c n : Nat) :
    Keeps dk qu (State.takeUpset s c n).2 := by
  unfold State.takeUpset
  repeat' first
    | (intro)
    | with_reducible assumption
    | with_reducible apply State.takeFree_keeps
    | refine State.takeFree_keeps_eq ?_ (by with_reducible assumption)
    | with_reducible apply State.setVault_keeps
    | with_reducible apply Keeps.ite
    | (dsimp only)
    | split

theorem State.takeUpset_keeps_eq {s : State} (h : Keeps dk qu s) {c n : Nat} {x0 : Option Nat} {sv : State}
    (eqn : State.takeUpset s c n = (x0, sv)) : Keeps dk qu sv := by
  have := State.takeUpset_keeps h c n
  rwa [eqn] at this

theorem State.captureUnits_keeps {s : State} (h : Keeps dk qu s) (h : UnitHead) (blocks : List (List Byte)) (bad : Option Nat) (e : Nat × Word) :
    Keeps dk qu (State.captureUnits s h blocks bad e) := by
  unfold State.captureUnits
  repeat' first
    | (intro)
    | with_reducible assumption
    | with_reducible apply State.addUnit_keeps
    | with_reducible apply Keeps.ite
    | (with_reducible apply Keeps.foldl)

theorem State.witBlocks_keeps {s : State} (h : Keeps dk qu s) (h : UnitHead) (caps : List (Nat × Word)) (bytes : List Byte) :
    Keeps dk qu (State.witBlocks s h caps bytes) := by
  unfold State.witBlocks
  repeat' first
    | (intro)
    | with_reducible assumption
    | with_reducible apply State.summaryRow_keeps
    | with_reducible apply State.takeUpset_keeps
    | refine State.takeUpset_keeps_eq ?_ (by with_reducible assumption)
    | with_reducible apply State.captureUnits_keeps
    | with_reducible apply Keeps.ite
    | (with_reducible apply Keeps.foldl)

theorem State.witSlotEnd_keeps {s : State} (h : Keeps dk qu s) (c slot : Nat) (pending : Nat → Bool) :
    Keeps dk qu (State.witSlotEnd s c slot pending) := by
  unfold State.witSlotEnd
  repeat' first
    | (intro)
    | with_reducible assumption
    | with_reducible apply State.closeLeaf_keeps
    | with_reducible apply Keeps.ite
    | (with_reducible apply Keeps.foldl)

theorem State.vstreamWrite_keeps {s : State} (h : Keeps dk qu s) (i : Nat) :
    Keeps dk qu (State.vstreamWrite s i) := by
  unfold State.vstreamWrite
  repeat' first
    | (intro)
    | with_reducible assumption
    | with_reducible apply State.setVault_keeps

theorem State.witSlotStart_keeps {s : State} (h : Keeps dk qu s) (c : Nat) :
    Keeps dk qu (State.witSlotStart s c) := by
  unfold State.witSlotStart
  repeat' first
    | (intro)
    | with_reducible assumption
    | with_reducible apply State.setFld_keeps
    | with_reducible apply State.setVault_keeps
    | with_reducible apply Keeps.ite
    | (with_reducible apply Keeps.foldl)
    | (with_reducible apply Keeps.foldl_snd)
    | (with_reducible apply Keeps.foldl_snd2)
    | (with_reducible apply Keeps.foldl_fst)
    | (refine Keeps.foldl_snd_eq ?_ ?_ (by with_reducible assumption))
    | (refine Keeps.foldl_snd2_eq ?_ ?_ (by with_reducible assumption))
    | (refine Keeps.foldl_fst_eq ?_ ?_ (by with_reducible assumption))
    | (dsimp only)
    | split

theorem State.grantLeaf_keeps {s : State} (h : Keeps dk qu s) (x : Leaf) :
    Keeps dk qu (State.grantLeaf s x) := by
  unfold State.grantLeaf
  repeat' first
    | (intro)
    | with_reducible assumption
    | with_reducible apply State.setFld_keeps
    | with_reducible apply State.addFld_keeps
    | with_reducible apply State.setVault_keeps
    | with_reducible apply State.applyGeometry_keeps
    | with_reducible apply State.freezeAt_keeps
    | with_reducible apply State.dropLeaf_keeps
    | with_reducible apply State.vaultFull_keeps
    | with_reducible apply Keeps.ite
    | (with_reducible apply Keeps.foldl)
    | (with_reducible apply Keeps.foldl_snd)
    | (with_reducible apply Keeps.foldl_snd2)
    | (with_reducible apply Keeps.foldl_fst)
    | (refine Keeps.foldl_snd_eq ?_ ?_ (by with_reducible assumption))
    | (refine Keeps.foldl_snd2_eq ?_ ?_ (by with_reducible assumption))
    | (refine Keeps.foldl_fst_eq ?_ ?_ (by with_reducible assumption))
    | (dsimp only)
    | split

theorem State.refuseTrigger_keeps {s : State} (h : Keeps dk qu s) (src why : Nat) :
    Keeps dk qu (State.refuseTrigger s src why) := by
  unfold State.refuseTrigger
  repeat' first
    | (intro)
    | with_reducible assumption
    | with_reducible apply State.addFld_keeps
    | with_reducible apply State.post_keeps

theorem State.grantTrigger_keeps {s : State} (h : Keeps dk qu s) (src : Nat) (tag : Word) :
    Keeps dk qu (State.grantTrigger s src tag) := by
  unfold State.grantTrigger
  repeat' first
    | (intro)
    | with_reducible assumption
    | with_reducible apply State.setFld_keeps
    | with_reducible apply State.addFld_keeps
    | with_reducible apply State.setPair_keeps
    | with_reducible apply State.post_keeps
    | with_reducible apply State.setVault_keeps
    | with_reducible apply State.freezeRgn_keeps
    | with_reducible apply State.refuseTrigger_keeps
    | with_reducible apply Keeps.ite
    | (dsimp only)
    | split

theorem State.triggerStep_keeps {s : State} (h : Keeps dk qu s)  :
    Keeps dk qu (State.triggerStep s) := by
  unfold State.triggerStep
  repeat' first
    | (intro)
    | with_reducible assumption
    | with_reducible apply State.setVault_keeps
    | with_reducible apply State.grantTrigger_keeps
    | with_reducible apply Keeps.ite
    | (dsimp only)
    | split

theorem State.gpioLevel_keeps {s : State} (h : Keeps dk qu s) (p : Nat) (b : Bool) :
    Keeps dk qu (State.gpioLevel s p b) := by
  unfold State.gpioLevel
  repeat' first
    | (intro)
    | with_reducible assumption
    | with_reducible apply State.setReg_keeps
    | with_reducible apply State.raiseTrigger_keeps
    | with_reducible apply Keeps.ite

theorem State.setTally_keeps {s : State} (h : Keeps dk qu s) (d : Nat) (t : Tally) :
    Keeps dk qu (State.setTally s d t) := by
  unfold State.setTally
  repeat' first
    | (intro)
    | with_reducible assumption
    | with_reducible apply Keeps.ite
    | (dsimp only)
    | split
    | (refine Keeps.any ?_ ?_; rotate_left; rfl)

theorem State.tallyFeed_keeps {s : State} (h : Keeps dk qu s) (d : Nat) (xs : List (Nat × Int × Int)) :
    Keeps dk qu (State.tallyFeed s d xs) := by
  unfold State.tallyFeed
  repeat' first
    | (intro)
    | with_reducible assumption
    | with_reducible apply State.setTally_keeps
    | with_reducible apply Keeps.ite
    | (dsimp only)
    | split
    | (refine Keeps.any ?_ ?_; rotate_left; rfl)

theorem State.tallySamples_keeps {s : State} (h : Keeps dk qu s) (c : Nat) (xs : List (Nat × Int × Int)) :
    Keeps dk qu (State.tallySamples s c xs) := by
  unfold State.tallySamples
  repeat' first
    | (intro)
    | with_reducible assumption
    | with_reducible apply State.tallyFeed_keeps
    | with_reducible apply Keeps.ite
    | (with_reducible apply Keeps.foldl)

theorem State.tallyAdvance_keeps {s : State} (h : Keeps dk qu s) (d fs : Nat) :
    Keeps dk qu (State.tallyAdvance s d fs) := by
  unfold State.tallyAdvance
  repeat' first
    | (intro)
    | with_reducible assumption
    | with_reducible apply State.setTally_keeps

theorem State.tallyAgc_keeps {s : State} (h : Keeps dk qu s) (d : Nat) :
    Keeps dk qu (State.tallyAgc s d) := by
  unfold State.tallyAgc
  repeat' first
    | (intro)
    | with_reducible assumption
    | with_reducible apply State.setTally_keeps

theorem State.tallyPut_keeps {s : State} (h : Keeps dk qu s) (a : Nat) (bytes : List Byte) :
    Keeps dk qu (State.tallyPut s a bytes) := by
  unfold State.tallyPut
  repeat' first
    | (intro)
    | with_reducible assumption
    | with_reducible apply State.busPut_keeps

theorem State.flushBits_keeps {s : State} (h : Keeps dk qu s) (r : Recep) :
    Keeps dk qu (State.flushBits s r) := by
  unfold State.flushBits
  repeat' first
    | (intro)
    | with_reducible assumption
    | with_reducible apply State.tallyPut_keeps
    | with_reducible apply Keeps.ite

theorem State.tallyRecord_keeps {s : State} (h : Keeps dk qu s) (d : Nat) (words : List Word) :
    Keeps dk qu (State.tallyRecord s d words).2 := by
  unfold State.tallyRecord
  repeat' first
    | (intro)
    | with_reducible assumption
    | with_reducible apply State.setFld_keeps
    | with_reducible apply State.addFld_keeps
    | with_reducible apply State.tallyPut_keeps
    | with_reducible apply Keeps.ite

theorem State.tallyRecord_keeps_eq {s : State} (h : Keeps dk qu s) {d : Nat} {words : List Word} {x0 : Nat} {sv : State}
    (eqn : State.tallyRecord s d words = (x0, sv)) : Keeps dk qu sv := by
  have := State.tallyRecord_keeps h d words
  rwa [eqn] at this

theorem State.endReception_keeps {s : State} (h : Keeps dk qu s) (d : Nat) (r : Recep) (outcome : Nat) :
    Keeps dk qu (State.endReception s d r outcome) := by
  unfold State.endReception
  repeat' first
    | (intro)
    | with_reducible assumption
    | with_reducible apply State.addFld_keeps
    | with_reducible apply State.post_keeps
    | with_reducible apply State.setTally_keeps
    | with_reducible apply State.flushBits_keeps
    | with_reducible apply State.tallyRecord_keeps
    | refine State.tallyRecord_keeps_eq ?_ (by with_reducible assumption)
    | with_reducible apply Keeps.ite

theorem State.peakPower_keeps {s : State} (h : Keeps dk qu s) (b : Peak) :
    Keeps dk qu (State.peakPower s b).2 := by
  unfold State.peakPower
  repeat' first
    | (intro)
    | with_reducible assumption
    | with_reducible apply State.takeFree_keeps
    | refine State.takeFree_keeps_eq ?_ (by with_reducible assumption)
    | with_reducible apply Keeps.ite
    | (dsimp only)
    | split

theorem State.peakPower_keeps_eq {s : State} (h : Keeps dk qu s) {b : Peak} {x0 : Int} {sv : State}
    (eqn : State.peakPower s b = (x0, sv)) : Keeps dk qu sv := by
  have := State.peakPower_keeps h b
  rwa [eqn] at this

theorem State.peakRho_keeps {s : State} (h : Keeps dk qu s) (b : Peak) :
    Keeps dk qu (State.peakRho s b).2 := by
  unfold State.peakRho
  repeat' first
    | (intro)
    | with_reducible assumption
    | with_reducible apply State.takeFree_keeps
    | refine State.takeFree_keeps_eq ?_ (by with_reducible assumption)
    | with_reducible apply Keeps.ite
    | (dsimp only)
    | split

theorem State.peakRho_keeps_eq {s : State} (h : Keeps dk qu s) {b : Peak} {x0 : Nat} {sv : State}
    (eqn : State.peakRho s b = (x0, sv)) : Keeps dk qu sv := by
  have := State.peakRho_keeps h b
  rwa [eqn] at this

theorem State.peakFreq_keeps {s : State} (h : Keeps dk qu s) (b : Peak) (dec : Nat) :
    Keeps dk qu (State.peakFreq s b dec).2 := by
  unfold State.peakFreq
  repeat' first
    | (intro)
    | with_reducible assumption
    | with_reducible apply State.takeFree_keeps
    | refine State.takeFree_keeps_eq ?_ (by with_reducible assumption)
    | with_reducible apply Keeps.ite
    | (dsimp only)
    | split

theorem State.peakFreq_keeps_eq {s : State} (h : Keeps dk qu s) {b : Peak} {dec : Nat} {x0 : Nat} {sv : State}
    (eqn : State.peakFreq s b dec = (x0, sv)) : Keeps dk qu sv := by
  have := State.peakFreq_keeps h b dec
  rwa [eqn] at this

theorem State.startReception_keeps {s : State} (h : Keeps dk qu s) (d : Nat) (b : Peak) (power : Int) (rho : Nat) :
    Keeps dk qu (State.startReception s d b power rho) := by
  unfold State.startReception
  repeat' first
    | (intro)
    | with_reducible assumption
    | with_reducible apply State.raiseTrigger_keeps
    | with_reducible apply State.setTally_keeps
    | with_reducible apply State.endReception_keeps
    | with_reducible apply State.peakFreq_keeps
    | refine State.peakFreq_keeps_eq ?_ (by with_reducible assumption)
    | with_reducible apply Keeps.ite

theorem State.tallyDetect_keeps {s : State} (h : Keeps dk qu s) (d : Nat) (b : Peak) :
    Keeps dk qu (State.tallyDetect s d b) := by
  unfold State.tallyDetect
  repeat' first
    | (intro)
    | with_reducible assumption
    | with_reducible apply State.addFld_keeps
    | with_reducible apply State.setTally_keeps
    | with_reducible apply State.tallyRecord_keeps
    | refine State.tallyRecord_keeps_eq ?_ (by with_reducible assumption)
    | with_reducible apply State.endReception_keeps
    | with_reducible apply State.peakPower_keeps
    | refine State.peakPower_keeps_eq ?_ (by with_reducible assumption)
    | with_reducible apply State.peakRho_keeps
    | refine State.peakRho_keeps_eq ?_ (by with_reducible assumption)
    | with_reducible apply State.startReception_keeps
    | with_reducible apply Keeps.ite
    | (dsimp only)
    | split

theorem State.dataSymbol_keeps {s : State} (h : Keeps dk qu s) (r : Recep) (num : Int × Int) (den : Nat) :
    Keeps dk qu (State.dataSymbol s r num den).2 := by
  unfold State.dataSymbol
  repeat' first
    | (intro)
    | with_reducible assumption
    | with_reducible apply State.drop_keeps
    | with_reducible apply State.tallyPut_keeps
    | with_reducible apply Keeps.ite
    | (dsimp only)
    | split
    | (refine Keeps.any ?_ ?_; rotate_left; rfl)

theorem State.dataSymbol_keeps_eq {s : State} (h : Keeps dk qu s) {r : Recep} {num : Int × Int} {den : Nat} {x0 : Recep} {sv : State}
    (eqn : State.dataSymbol s r num den = (x0, sv)) : Keeps dk qu sv := by
  have := State.dataSymbol_keeps h r num den
  rwa [eqn] at this

theorem State.keepReception_keeps {s : State} (h : Keeps dk qu s) (d : Nat) (r : Recep) :
    Keeps dk qu (State.keepReception s d r) := by
  unfold State.keepReception
  repeat' first
    | (intro)
    | with_reducible assumption
    | with_reducible apply State.setTally_keeps
    | with_reducible apply State.endReception_keeps
    | with_reducible apply Keeps.ite

theorem State.tallySymbol_keeps {s : State} (h : Keeps dk qu s) (d : Nat) (r : Recep) :
    Keeps dk qu (State.tallySymbol s d r) := by
  unfold State.tallySymbol
  repeat' first
    | (intro)
    | with_reducible assumption
    | with_reducible apply State.drop_keeps
    | with_reducible apply State.setTally_keeps
    | with_reducible apply State.endReception_keeps
    | with_reducible apply State.dataSymbol_keeps
    | refine State.dataSymbol_keeps_eq ?_ (by with_reducible assumption)
    | with_reducible apply State.keepReception_keeps
    | with_reducible apply Keeps.ite
    | (dsimp only)
    | split
    | (refine Keeps.any ?_ ?_; rotate_left; rfl)

theorem State.tplData_keeps {s : State} (h : Keeps dk qu s) (d : Nat) (v : Word) :
    Keeps dk qu (State.tplData s d v) := by
  unfold State.tplData
  repeat' first
    | (intro)
    | with_reducible assumption
    | with_reducible apply State.setFld_keeps
    | with_reducible apply Keeps.ite
    | (dsimp only)
    | split
    | (refine Keeps.any ?_ ?_; rotate_left; rfl)

theorem State.tplLenWrite_keeps {s : State} (h : Keeps dk qu s) (d n : Nat) :
    Keeps dk qu (State.tplLenWrite s d n) := by
  unfold State.tplLenWrite
  repeat' first
    | (intro)
    | with_reducible assumption
    | with_reducible apply Keeps.ite
    | (dsimp only)
    | split
    | (refine Keeps.any ?_ ?_; rotate_left; rfl)

/-! ## StreamOps -/

theorem State.setS_keeps {s : State} (h : Keeps dk qu s) (c : Nat) (f : Field) (v : Nat) :
    Keeps dk qu (State.setS s c f v) := by
  unfold State.setS
  repeat' first
    | (intro)
    | with_reducible assumption
    | with_reducible apply State.setFld_keeps

theorem State.strmEvent_keeps {s : State} (h : Keeps dk qu s) (c : Nat) (f : Field) (event sev sym : Nat) :
    Keeps dk qu (State.strmEvent s c f event sev sym) := by
  unfold State.strmEvent
  repeat' first
    | (intro)
    | with_reducible assumption
    | with_reducible apply State.post_keeps
    | with_reducible apply State.setS_keeps

theorem State.strmSat_keeps {s : State} (h : Keeps dk qu s) (c sym : Nat) :
    Keeps dk qu (State.strmSat s c sym) := by
  unfold State.strmSat
  repeat' first
    | (intro)
    | with_reducible assumption
    | with_reducible apply State.post_keeps
    | with_reducible apply State.setStrm_keeps
    | with_reducible apply State.setS_keeps
    | with_reducible apply Keeps.ite

theorem State.syncSlice_keeps {s : State} (h : Keeps dk qu s) (f : Nat) :
    Keeps dk qu (State.syncSlice s f) := by
  unfold State.syncSlice
  repeat' first
    | (intro)
    | with_reducible assumption
    | with_reducible apply State.setFld_keeps

theorem State.setAhn_keeps {s : State} (h : Keeps dk qu s) (l : Nat) (x : AhnLane) :
    Keeps dk qu (State.setAhn s l x) := by
  unfold State.setAhn
  repeat' first
    | (intro)
    | with_reducible assumption
    | with_reducible apply State.setFld_keeps
    | with_reducible apply Keeps.ite
    | (dsimp only)
    | split
    | (refine Keeps.any ?_ ?_; rotate_left; rfl)

theorem State.setTxState_keeps {s : State} (h : Keeps dk qu s) (l n : Nat) :
    Keeps dk qu (State.setTxState s l n) := by
  unfold State.setTxState
  repeat' first
    | (intro)
    | with_reducible assumption
    | with_reducible apply State.setFld_keeps
    | with_reducible apply State.setAhn_keeps
    | with_reducible apply Keeps.ite
    | (dsimp only)
    | split
    | (refine Keeps.any ?_ ?_; rotate_left; rfl)

theorem State.setRxState_keeps {s : State} (h : Keeps dk qu s) (l n : Nat) :
    Keeps dk qu (State.setRxState s l n) := by
  unfold State.setRxState
  repeat' first
    | (intro)
    | with_reducible assumption
    | with_reducible apply State.setFld_keeps
    | with_reducible apply State.setAhn_keeps

theorem State.pullStream_keeps {s : State} (h : Keeps dk qu s) (l st : Nat) :
    Keeps dk qu (State.pullStream s l st) := by
  unfold State.pullStream
  repeat' first
    | (intro)
    | with_reducible assumption
    | with_reducible apply State.drop_keeps
    | with_reducible apply State.setStrm_keeps
    | with_reducible apply State.strmSat_keeps
    | with_reducible apply State.setAhn_keeps
    | with_reducible apply Keeps.ite
    | (with_reducible apply Keeps.foldl)
    | (with_reducible apply Keeps.foldl_snd)
    | (with_reducible apply Keeps.foldl_snd2)
    | (with_reducible apply Keeps.foldl_fst)
    | (refine Keeps.foldl_snd_eq ?_ ?_ (by with_reducible assumption))
    | (refine Keeps.foldl_snd2_eq ?_ ?_ (by with_reducible assumption))
    | (refine Keeps.foldl_fst_eq ?_ ?_ (by with_reducible assumption))
    | (dsimp only)
    | split

theorem State.pushWord_keeps {s : State} (h : Keeps dk qu s) (l : Nat) (w : CtlWord) :
    Keeps dk qu (State.pushWord s l w) := by
  unfold State.pushWord
  repeat' first
    | (intro)
    | with_reducible assumption
    | with_reducible apply State.drop_keeps
    | with_reducible apply State.setAhn_keeps
    | with_reducible apply Keeps.ite
    | (dsimp only)
    | split
    | (refine Keeps.any ?_ ?_; rotate_left; rfl)

theorem State.popWord_keeps {s : State} (h : Keeps dk qu s) (l : Nat) :
    Keeps dk qu (State.popWord s l) := by
  unfold State.popWord
  repeat' first
    | (intro)
    | with_reducible assumption
    | with_reducible apply State.drop_keeps
    | with_reducible apply State.setAhn_keeps
    | with_reducible apply State.pushWord_keeps
    | with_reducible apply Keeps.ite
    | (dsimp only)
    | split
    | (refine Keeps.any ?_ ?_; rotate_left; rfl)

theorem State.tell_keeps {s : State} (h : Keeps dk qu s) (key l st op effect : Nat) :
    Keeps dk qu (State.tell s key l st op effect) := by
  unfold State.tell
  repeat' first
    | (intro)
    | with_reducible assumption
    | with_reducible apply State.drop_keeps
    | with_reducible apply State.pushWord_keeps
    | with_reducible apply Keeps.ite
    | (dsimp only)
    | split
    | (refine Keeps.any ?_ ?_; rotate_left; rfl)

theorem State.chWord_keeps {s : State} (h : Keeps dk qu s) (c op : Nat) :
    Keeps dk qu (State.chWord s c op) := by
  unfold State.chWord
  repeat' first
    | (intro)
    | with_reducible assumption
    | with_reducible apply State.pullStream_keeps
    | with_reducible apply State.tell_keeps
    | with_reducible apply Keeps.ite

theorem State.syncCommit_keeps {s : State} (h : Keeps dk qu s) (c : Nat) :
    Keeps dk qu (State.syncCommit s c) := by
  unfold State.syncCommit
  repeat' first
    | (intro)
    | with_reducible assumption
    | with_reducible apply State.setS_keeps

theorem State.lockPoint_keeps {s : State} (h : Keeps dk qu s) (c : Nat) :
    Keeps dk qu (State.lockPoint s c) := by
  unfold State.lockPoint
  repeat' first
    | (intro)
    | with_reducible assumption
    | with_reducible apply State.setStrm_keeps
    | with_reducible apply State.syncCommit_keeps

theorem State.commitArrive_keeps {s : State} (h : Keeps dk qu s) (c : Nat) (ops : List (BitVec 16)) :
    Keeps dk qu (State.commitArrive s c ops) := by
  unfold State.commitArrive
  repeat' first
    | (intro)
    | with_reducible assumption
    | with_reducible apply State.setStrm_keeps
    | with_reducible apply State.setS_keeps
    | with_reducible apply State.strmEvent_keeps
    | with_reducible apply State.syncCommit_keeps
    | with_reducible apply State.lockPoint_keeps
    | with_reducible apply Keeps.ite

theorem State.commitTold_keeps {s : State} (h : Keeps dk qu s) (c code : Nat) (op : BitVec 16) :
    Keeps dk qu (State.commitTold s c code op) := by
  unfold State.commitTold
  repeat' first
    | (intro)
    | with_reducible assumption
    | with_reducible apply State.setOp_keeps
    | with_reducible apply State.endOp_keeps
    | with_reducible apply Keeps.ite
    | (dsimp only)
    | split

theorem State.inputGap_keeps {s : State} (h : Keeps dk qu s) (c sym : Nat) :
    Keeps dk qu (State.inputGap s c sym) := by
  unfold State.inputGap
  repeat' first
    | (intro)
    | with_reducible assumption
    | with_reducible apply State.setS_keeps
    | with_reducible apply State.strmEvent_keeps
    | with_reducible apply Keeps.ite

theorem State.applySet_keeps {s : State} (h : Keeps dk qu s) (c : Nat) (k : CommitSet) (code : Nat) :
    Keeps dk qu (State.applySet s c k code) := by
  unfold State.applySet
  repeat' first
    | (intro)
    | with_reducible assumption
    | with_reducible apply State.post_keeps
    | with_reducible apply State.setStrm_keeps
    | with_reducible apply State.setS_keeps
    | with_reducible apply State.syncSlice_keeps
    | with_reducible apply State.syncCommit_keeps
    | with_reducible apply State.commitTold_keeps
    | with_reducible apply State.inputGap_keeps
    | with_reducible apply Keeps.ite
    | (with_reducible apply Keeps.foldl)

theorem State.keysigs_keeps {s : State} (h : Keeps dk qu s) (c : Nat) (j : SymJob) (mark : Bool) :
    Keeps dk qu (State.keysigs s c j mark) := by
  unfold State.keysigs
  repeat' first
    | (intro)
    | with_reducible assumption
    | with_reducible apply State.decKey_keeps
    | with_reducible apply Keeps.ite
    | (with_reducible apply Keeps.foldl)

theorem State.writeErr_keeps {s : State} (h : Keeps dk qu s) (c sym : Nat) :
    Keeps dk qu (State.writeErr s c sym) := by
  unfold State.writeErr
  repeat' first
    | (intro)
    | with_reducible assumption
    | with_reducible apply State.post_keeps
    | with_reducible apply State.setStrm_keeps
    | with_reducible apply State.setS_keeps
    | with_reducible apply Keeps.ite

theorem State.chPut_keeps {s : State} (h : Keeps dk qu s) (c a sym : Nat) (bytes : List Byte) :
    Keeps dk qu (State.chPut s c a sym bytes).2 := by
  unfold State.chPut
  repeat' first
    | (intro)
    | with_reducible assumption
    | with_reducible apply State.busPut_keeps
    | refine State.busPut_keeps_eq ?_ (by with_reducible assumption)
    | with_reducible apply State.writeErr_keeps
    | with_reducible apply Keeps.ite
    | (dsimp only)
    | split

theorem State.chPut_keeps_eq {s : State} (h : Keeps dk qu s) {c a sym : Nat} {bytes : List Byte} {x0 : Bool} {sv : State}
    (eqn : State.chPut s c a sym bytes = (x0, sv)) : Keeps dk qu sv := by
  have := State.chPut_keeps h c a sym bytes
  rwa [eqn] at this

theorem State.gridWrite_keeps {s : State} (h : Keeps dk qu s) (c : Nat) (j : SymJob) (blocks : List Byte) :
    Keeps dk qu (State.gridWrite s c j blocks) := by
  unfold State.gridWrite
  repeat' first
    | (intro)
    | with_reducible assumption
    | with_reducible apply State.setStrm_keeps
    | with_reducible apply State.chPut_keeps
    | refine State.chPut_keeps_eq ?_ (by with_reducible assumption)
    | with_reducible apply Keeps.ite
    | (dsimp only)
    | split

theorem State.setFft_keeps {s : State} (h : Keeps dk qu s) (e : Nat) (q : List (Nat × SymJob)) :
    Keeps dk qu (State.setFft s e q) := by
  unfold State.setFft
  repeat' first
    | (intro)
    | with_reducible assumption
    | with_reducible apply State.setFld_keeps
    | with_reducible apply State.maxFld_keeps
    | with_reducible apply Keeps.ite
    | (dsimp only)
    | split
    | (refine Keeps.any ?_ ?_; rotate_left; rfl)

theorem State.prachDone_keeps {s : State} (h : Keeps dk qu s) (c : Nat) (j : SymJob) (fail : Bool) :
    Keeps dk qu (State.prachDone s c j fail) := by
  unfold State.prachDone
  repeat' first
    | (intro)
    | with_reducible assumption
    | with_reducible apply State.setStrm_keeps
    | with_reducible apply Keeps.ite

theorem State.dropSymbol_keeps {s : State} (h : Keeps dk qu s) (e c : Nat) (j : SymJob) :
    Keeps dk qu (State.dropSymbol s e c j) := by
  unfold State.dropSymbol
  repeat' first
    | (intro)
    | with_reducible assumption
    | with_reducible apply State.satFld_keeps
    | with_reducible apply State.post_keeps
    | with_reducible apply State.setStrm_keeps
    | with_reducible apply State.strmEvent_keeps
    | with_reducible apply State.prachDone_keeps
    | with_reducible apply Keeps.ite

theorem State.prachWrite_keeps {s : State} (h : Keeps dk qu s) (c : Nat) (j : SymJob) (bins : List Sample) :
    Keeps dk qu (State.prachWrite s c j bins) := by
  unfold State.prachWrite
  repeat' first
    | (intro)
    | with_reducible assumption
    | with_reducible apply State.chPut_keeps
    | refine State.chPut_keeps_eq ?_ (by with_reducible assumption)
    | with_reducible apply State.prachDone_keeps

theorem State.endPrach_keeps {s : State} (h : Keeps dk qu s) (c : Nat) :
    Keeps dk qu (State.endPrach s c) := by
  unfold State.endPrach
  repeat' first
    | (intro)
    | with_reducible assumption
    | with_reducible apply State.setStrm_keeps

theorem State.toWitness_keeps {s : State} (h : Keeps dk qu s) (c : Nat) (j : SymJob) (blocks : List Byte) :
    Keeps dk qu (State.toWitness s c j blocks) := by
  unfold State.toWitness
  repeat' first
    | (intro)
    | with_reducible assumption
    | with_reducible apply State.witBlocks_keeps

theorem State.witClose_keeps {s : State} (h : Keeps dk qu s) (c : Nat) :
    Keeps dk qu (State.witClose s c) := by
  unfold State.witClose
  repeat' first
    | (intro)
    | with_reducible assumption
    | with_reducible apply State.witSlotEnd_keeps

theorem State.prachTake_keeps {s : State} (h : Keeps dk qu s) (c : Nat) (ys : List Sample) (miss : List Bool) :
    Keeps dk qu (State.prachTake s c ys miss) := by
  unfold State.prachTake
  repeat' first
    | (intro)
    | with_reducible assumption
    | with_reducible apply State.drop_keeps
    | with_reducible apply State.setStrm_keeps
    | with_reducible apply State.strmSat_keeps
    | with_reducible apply Keeps.ite

theorem State.rxSymbol_keeps {s : State} (h : Keeps dk qu s) (c : Nat) (stop : Int) :
    Keeps dk qu (State.rxSymbol s c stop) := by
  unfold State.rxSymbol
  repeat' first
    | (intro)
    | with_reducible assumption
    | with_reducible apply State.drop_keeps
    | with_reducible apply State.setStrm_keeps
    | with_reducible apply State.tallySamples_keeps
    | with_reducible apply State.setS_keeps
    | with_reducible apply State.strmSat_keeps
    | with_reducible apply State.inputGap_keeps
    | with_reducible apply State.gridWrite_keeps
    | with_reducible apply State.toWitness_keeps
    | with_reducible apply State.prachTake_keeps
    | with_reducible apply Keeps.ite
    | (dsimp only)
    | split
    | (refine Keeps.any ?_ ?_; rotate_left; rfl)

theorem State.freqSymbol_keeps {s : State} (h : Keeps dk qu s) (c : Nat) (stop : Int) :
    Keeps dk qu (State.freqSymbol s c stop) := by
  unfold State.freqSymbol
  repeat' first
    | (intro)
    | with_reducible assumption
    | with_reducible apply State.tallySamples_keeps
    | with_reducible apply Keeps.ite
    | (dsimp only)
    | split

theorem State.agcSlot_keeps {s : State} (h : Keeps dk qu s) (c : Nat) :
    Keeps dk qu (State.agcSlot s c) := by
  unfold State.agcSlot
  repeat' first
    | (intro)
    | with_reducible assumption
    | with_reducible apply State.setStrm_keeps
    | with_reducible apply State.setS_keeps
    | with_reducible apply Keeps.ite

theorem State.holdPa_keeps {s : State} (h : Keeps dk qu s) (c : Nat) :
    Keeps dk qu (State.holdPa s c) := by
  unfold State.holdPa
  repeat' first
    | (intro)
    | with_reducible assumption
    | with_reducible apply State.setStrm_keeps
    | with_reducible apply Keeps.ite

theorem State.endRun_keeps {s : State} (h : Keeps dk qu s) (c : Nat) (hard : Bool) :
    Keeps dk qu (State.endRun s c hard) := by
  unfold State.endRun
  repeat' first
    | (intro)
    | with_reducible assumption
    | with_reducible apply State.setStrm_keeps
    | with_reducible apply State.chWord_keeps
    | with_reducible apply State.holdPa_keeps
    | with_reducible apply Keeps.ite

theorem State.txOut_keeps {s : State} (h : Keeps dk qu s) (c code : Nat) (base : List Sample) (env : Nat → Int) :
    Keeps dk qu (State.txOut s c code base env) := by
  unfold State.txOut
  repeat' first
    | (intro)
    | with_reducible assumption
    | with_reducible apply State.setStrm_keeps
    | with_reducible apply State.strmSat_keeps
    | with_reducible apply Keeps.ite

theorem State.txActive_keeps {s : State} (h : Keeps dk qu s) (c code : Nat) (cp len : Nat) :
    Keeps dk qu (State.txActive s c code cp len) := by
  unfold State.txActive
  repeat' first
    | (intro)
    | with_reducible assumption
    | with_reducible apply State.countEvent_keeps
    | with_reducible apply State.drop_keeps
    | with_reducible apply State.setStrm_keeps
    | with_reducible apply State.strmEvent_keeps
    | with_reducible apply State.chWord_keeps
    | with_reducible apply State.txOut_keeps
    | with_reducible apply Keeps.ite
    | (dsimp only)
    | split

theorem State.txIdle_keeps {s : State} (h : Keeps dk qu s) (c code len : Nat) (hard : Bool) :
    Keeps dk qu (State.txIdle s c code len hard) := by
  unfold State.txIdle
  repeat' first
    | (intro)
    | with_reducible assumption
    | with_reducible apply State.setStrm_keeps
    | with_reducible apply State.endRun_keeps
    | with_reducible apply State.txOut_keeps

theorem State.txSymbol_keeps {s : State} (h : Keeps dk qu s) (c code : Nat) (g : GridAt) (hardStop : Bool) :
    Keeps dk qu (State.txSymbol s c code g hardStop) := by
  unfold State.txSymbol
  repeat' first
    | (intro)
    | with_reducible assumption
    | with_reducible apply State.txActive_keeps
    | with_reducible apply State.txIdle_keeps
    | with_reducible apply Keeps.ite

theorem State.chHalt_keeps {s : State} (h : Keeps dk qu s) (c : Nat) :
    Keeps dk qu (State.chHalt s c) := by
  unfold State.chHalt
  repeat' first
    | (intro)
    | with_reducible assumption
    | with_reducible apply State.setStrm_keeps

theorem State.bankChannel_keeps {s : State} (h : Keeps dk qu s) (c : Nat) :
    Keeps dk qu (State.bankChannel s c) := by
  unfold State.bankChannel
  repeat' first
    | (intro)
    | with_reducible assumption
    | with_reducible apply State.setStrm_keeps
    | with_reducible apply State.endPrach_keeps
    | with_reducible apply State.holdPa_keeps
    | with_reducible apply State.chHalt_keeps
    | with_reducible apply Keeps.ite

theorem State.chStep_keeps {s : State} (h : Keeps dk qu s) (c : Nat) :
    Keeps dk qu (State.chStep s c) := by
  unfold State.chStep
  repeat' first
    | (intro)
    | with_reducible assumption
    | with_reducible apply State.setStrm_keeps
    | with_reducible apply State.endPrach_keeps
    | with_reducible apply State.holdPa_keeps
    | with_reducible apply State.chHalt_keeps
    | with_reducible apply Keeps.ite
    | (dsimp only)
    | split

theorem State.gridMoved_keeps {s : State} (h : Keeps dk qu s) (n : Nat) :
    Keeps dk qu (State.gridMoved s n) := by
  unfold State.gridMoved
  repeat' first
    | (intro)
    | with_reducible assumption
    | with_reducible apply State.fireEdges_keeps
    | with_reducible apply State.chStep_keeps
    | with_reducible apply Keeps.ite
    | (with_reducible apply Keeps.foldl)

/-! ## LaneOps -/

theorem State.deliver_keeps {s : State} (h : Keeps dk qu s) (l st : Nat) (xs : List (Option Sample)) :
    Keeps dk qu (State.deliver s l st xs) := by
  unfold State.deliver
  repeat' first
    | (intro)
    | with_reducible assumption
    | with_reducible apply State.setStrm_keeps
    | with_reducible apply State.setS_keeps
    | with_reducible apply State.inputGap_keeps
    | with_reducible apply Keeps.ite
    | (with_reducible apply Keeps.foldl)

theorem State.protectSwitch_keeps {s : State} (h : Keeps dk qu s) (l : Nat) :
    Keeps dk qu (State.protectSwitch s l) := by
  unfold State.protectSwitch
  repeat' first
    | (intro)
    | with_reducible assumption
    | with_reducible apply State.setFld_keeps
    | with_reducible apply State.post_keeps
    | with_reducible apply State.endRecovery_keeps
    | with_reducible apply Keeps.ite
    | (dsimp only)
    | split

theorem State.cutStreams_keeps {s : State} (h : Keeps dk qu s) (l : Nat) :
    Keeps dk qu (State.cutStreams s l) := by
  unfold State.cutStreams
  repeat' first
    | (intro)
    | with_reducible assumption
    | with_reducible apply State.deliver_keeps
    | with_reducible apply Keeps.ite
    | (with_reducible apply Keeps.foldl)
    | (with_reducible apply Keeps.foldl_snd)
    | (with_reducible apply Keeps.foldl_snd2)
    | (with_reducible apply Keeps.foldl_fst)
    | (refine Keeps.foldl_snd_eq ?_ ?_ (by with_reducible assumption))
    | (refine Keeps.foldl_snd2_eq ?_ ?_ (by with_reducible assumption))
    | (refine Keeps.foldl_fst_eq ?_ ?_ (by with_reducible assumption))
    | (dsimp only)
    | split

theorem State.rxDown_keeps {s : State} (h : Keeps dk qu s) (l : Nat) :
    Keeps dk qu (State.rxDown s l) := by
  unfold State.rxDown
  repeat' first
    | (intro)
    | with_reducible assumption
    | with_reducible apply State.setRxState_keeps
    | with_reducible apply State.protectSwitch_keeps
    | with_reducible apply State.cutStreams_keeps
    | with_reducible apply Keeps.ite

theorem State.laneUpdate_keeps {s : State} (h : Keeps dk qu s) (l : Nat) :
    Keeps dk qu (State.laneUpdate s l) := by
  unfold State.laneUpdate
  repeat' first
    | (intro)
    | with_reducible assumption
    | with_reducible apply State.setFld_keeps
    | with_reducible apply State.setTxState_keeps
    | with_reducible apply State.setRxState_keeps
    | with_reducible apply State.rxDown_keeps
    | with_reducible apply Keeps.ite

theorem State.startSwitch_keeps {s : State} (h : Keeps dk qu s) (q proto : Nat) :
    Keeps dk qu (State.startSwitch s q proto) := by
  unfold State.startSwitch
  repeat' first
    | (intro)
    | with_reducible assumption
    | with_reducible apply State.setReg_keeps
    | with_reducible apply State.setFld_keeps
    | with_reducible apply State.setTxState_keeps
    | with_reducible apply State.rxDown_keeps
    | with_reducible apply Keeps.ite
    | (with_reducible apply Keeps.foldl)

theorem State.protoWrite_keeps {s : State} (h : Keeps dk qu s) (q : Nat) (v : Word) :
    Keeps dk qu (State.protoWrite s q v) := by
  unfold State.protoWrite
  repeat' first
    | (intro)
    | with_reducible assumption
    | with_reducible apply State.setFld_keeps
    | with_reducible apply State.startSwitch_keeps
    | with_reducible apply Keeps.ite
    | (dsimp only)
    | split
    | (refine Keeps.any ?_ ?_; rotate_left; rfl)

theorem State.recalGo_keeps {s : State} (h : Keeps dk qu s) (l : Nat) (v : Word) :
    Keeps dk qu (State.recalGo s l v) := by
  unfold State.recalGo
  repeat' first
    | (intro)
    | with_reducible assumption
    | with_reducible apply State.setFld_keeps
    | with_reducible apply Keeps.ite
    | (dsimp only)
    | split
    | (refine Keeps.any ?_ ?_; rotate_left; rfl)

theorem State.takeFir_keeps {s : State} (h : Keeps dk qu s) (l : Nat) :
    Keeps dk qu (State.takeFir s l) := by
  unfold State.takeFir
  repeat' first
    | (intro)
    | with_reducible assumption
    | with_reducible apply Keeps.ite
    | (dsimp only)
    | split
    | (refine Keeps.any ?_ ?_; rotate_left; rfl)

theorem State.container_keeps {s : State} (h : Keeps dk qu s) (l st : Nat) :
    Keeps dk qu (State.container s l st).2.2 := by
  unfold State.container
  repeat' first
    | (intro)
    | with_reducible assumption
    | with_reducible apply State.drop_keeps
    | with_reducible apply State.strmSat_keeps
    | with_reducible apply State.setAhn_keeps
    | with_reducible apply State.pullStream_keeps
    | with_reducible apply Keeps.ite
    | (with_reducible apply Keeps.foldl)

theorem State.container_keeps_eq {s : State} (h : Keeps dk qu s) {l st : Nat} {x0 : List Bool} {x1 : Bool} {sv : State}
    (eqn : State.container s l st = (x0, x1, sv)) : Keeps dk qu sv := by
  have := State.container_keeps h l st
  rwa [eqn] at this

theorem State.headWord_keeps {s : State} (h : Keeps dk qu s) (l : Nat) (k0 : Nat → Nat) (short : Nat) :
    Keeps dk qu (State.headWord s l k0 short).2 := by
  unfold State.headWord
  repeat' first
    | (intro)
    | with_reducible assumption
    | with_reducible apply State.addFld_keeps
    | with_reducible apply State.post_keeps
    | with_reducible apply State.popWord_keeps
    | with_reducible apply Keeps.ite
    | (dsimp only)
    | split

theorem State.headWord_keeps_eq {s : State} (h : Keeps dk qu s) {l : Nat} {k0 : Nat → Nat} {short : Nat} {x0 : Nat × Nat × Nat}
    {sv : State} (eqn : State.headWord s l k0 short = (x0, sv)) : Keeps dk qu sv := by
  have := State.headWord_keeps h l k0 short
  rwa [eqn] at this

theorem State.foretell_keeps {s : State} (h : Keeps dk qu s) (l st c key on off : Nat) (want : Nat → Bool) :
    Keeps dk qu (State.foretell s l st c key on off want) := by
  unfold State.foretell
  repeat' first
    | (intro)
    | with_reducible assumption
    | with_reducible apply State.tell_keeps
    | with_reducible apply Keeps.ite

theorem State.announce_keeps {s : State} (h : Keeps dk qu s) (l : Nat) :
    Keeps dk qu (State.announce s l) := by
  unfold State.announce
  repeat' first
    | (intro)
    | with_reducible assumption
    | with_reducible apply State.foretell_keeps
    | with_reducible apply Keeps.ite
    | (with_reducible apply Keeps.foldl)
    | (with_reducible apply Keeps.foldl_snd)
    | (with_reducible apply Keeps.foldl_snd2)
    | (with_reducible apply Keeps.foldl_fst)
    | (refine Keeps.foldl_snd_eq ?_ ?_ (by with_reducible assumption))
    | (refine Keeps.foldl_snd2_eq ?_ ?_ (by with_reducible assumption))
    | (refine Keeps.foldl_fst_eq ?_ ?_ (by with_reducible assumption))
    | (dsimp only)
    | split

theorem State.sendMultiframe_keeps {s : State} (h : Keeps dk qu s) (l : Nat) : Keeps dk qu (State.sendMultiframe s l) := by
  unfold State.sendMultiframe
  extract_lets q s0 sts count
  have k0 : Keeps dk qu s0 := State.announce_keeps h l
  split
  rename_i bits short s1 e1
  have k1 : Keeps dk qu s1 := by
    refine Keeps.foldl_snd2_eq k0 ?_ e1
    intro b x hb
    exact State.container_keeps hb l x
  split
  rename_i ws wo wa s2 e2
  have k2 := State.headWord_keeps_eq k1 e2
  extract_lets x
  split
  rename_i blocks scr e3
  clear e3
  exact State.setAhn_keeps k2 _ _

theorem State.fillIdle_keeps {s : State} (h : Keeps dk qu s) (l src : Nat) :
    Keeps dk qu (State.fillIdle s l src) := by
  unfold State.fillIdle
  repeat' first
    | (intro)
    | with_reducible assumption
    | with_reducible apply State.setStrm_keeps
    | with_reducible apply Keeps.ite
    | (with_reducible apply Keeps.foldl)

theorem State.ahnLoss_keeps {s : State} (h : Keeps dk qu s) (l : Nat) (mflock : Bool) :
    Keeps dk qu (State.ahnLoss s l mflock) := by
  unfold State.ahnLoss
  repeat' first
    | (intro)
    | with_reducible assumption
    | with_reducible apply State.post_keeps
    | with_reducible apply State.reportFault_keeps
    | with_reducible apply State.setAhn_keeps
    | with_reducible apply State.setRxState_keeps
    | with_reducible apply State.protectSwitch_keeps
    | with_reducible apply State.cutStreams_keeps

theorem State.takeWord_keeps {s : State} (h : Keeps dk qu s) (l stream op arg : Nat) :
    Keeps dk qu (State.takeWord s l stream op arg) := by
  unfold State.takeWord
  repeat' first
    | (intro)
    | with_reducible assumption
    | with_reducible apply State.addFld_keeps
    | with_reducible apply State.setAhn_keeps
    | with_reducible apply Keeps.ite

theorem State.takeBody_keeps {s : State} (h : Keeps dk qu s) (l src short : Nat) (bits : List Bool) (bad : Bool) :
    Keeps dk qu (State.takeBody s l src short bits bad) := by
  unfold State.takeBody
  repeat' first
    | (intro)
    | with_reducible assumption
    | with_reducible apply State.drop_keeps
    | with_reducible apply State.deliver_keeps
    | with_reducible apply Keeps.ite
    | (with_reducible apply Keeps.foldl)
    | (with_reducible apply Keeps.foldl_snd)

theorem State.takeMultiframe_keeps {s : State} (h : Keeps dk qu s) (l : Nat) (blocks : List (BitVec 66)) :
    Keeps dk qu (State.takeMultiframe s l blocks) := by
  unfold State.takeMultiframe
  extract_lets q x st blocks0 blocks1 fecOn want
  split
  rename_i run hist lost e1
  clear e1
  split
  rename_i pay scr e2
  clear e2
  extract_lets hd bits dec fecBad body crcOk mfn good bad runs s1 deliverNow counts word s2 s3
  have k : Keeps dk qu s1 := State.setAhn_keeps h _ _
  have kd (s : State) (h : Keeps dk qu s) : Keeps dk qu (deliverNow s) := by
    dsimp only [deliverNow]
    split
    · exact h
    · exact State.takeBody_keeps h _ _ _ _ _
  have kc (s : State) (h : Keeps dk qu s) : Keeps dk qu (counts s) := by
    dsimp only [counts]
    clear_value s2 s3 s1 dec fecBad crcOk
    repeat' first
      | with_reducible assumption
      | with_reducible apply State.addFld_keeps
      | with_reducible apply Keeps.ite
      | split
      | (refine Keeps.any ?_ ?_; rotate_left; rfl)
  have kw (s : State) (h : Keeps dk qu s) : Keeps dk qu (word s) := Keeps.ite (State.takeWord_keeps h _ _ _ _) h
  have k2 : Keeps dk qu s2 := State.post_keeps (State.setFld_keeps (State.setRxState_keeps k _ _) _ _ _) _ _ _ _ _
  have k3 : Keeps dk qu s3 := by
    dsimp only [s3]
    split
    · exact State.fillIdle_keeps k _ _
    · exact k
  clear_value s1 s2 s3 deliverNow counts word mfn want good bad runs
  repeat' first
    | with_reducible assumption
    | with_reducible apply kw
    | with_reducible apply kd
    | with_reducible apply kc
    | with_reducible apply State.post_keeps
    | with_reducible apply State.setTxState_keeps
    | with_reducible apply State.setRxState_keeps
    | with_reducible apply State.fillIdle_keeps
    | with_reducible apply State.ahnLoss_keeps
    | with_reducible apply Keeps.ite

theorem State.txBegin_keeps {s : State} (h : Keeps dk qu s) (l n : Nat) :
    Keeps dk qu (State.txBegin s l n) := by
  unfold State.txBegin
  repeat' first
    | (intro)
    | with_reducible assumption
    | with_reducible apply State.setTxState_keeps
    | with_reducible apply State.pullStream_keeps
    | with_reducible apply Keeps.ite
    | (with_reducible apply Keeps.foldl)

/-! ## EthOps -/

theorem State.setFlowWord_keeps {s : State} (h : Keeps dk qu s) (e w : Nat) (v : Word) :
    Keeps dk qu (State.setFlowWord s e w v) := by
  unfold State.setFlowWord
  repeat' first
    | (intro)
    | with_reducible assumption
    | with_reducible apply Keeps.ite
    | (dsimp only)
    | split
    | (refine Keeps.any ?_ ?_; rotate_left; rfl)

theorem State.flowCount_keeps {s : State} (h : Keeps dk qu s) (e k n : Nat) :
    Keeps dk qu (State.flowCount s e k n) := by
  unfold State.flowCount
  repeat' first
    | (intro)
    | with_reducible assumption
    | with_reducible apply Keeps.ite
    | (dsimp only)
    | split
    | (refine Keeps.any ?_ ?_; rotate_left; rfl)

theorem State.flowLate_keeps {s : State} (h : Keeps dk qu s) (e n : Nat) :
    Keeps dk qu (State.flowLate s e n) := by
  unfold State.flowLate
  repeat' first
    | (intro)
    | with_reducible assumption
    | with_reducible apply State.flowCount_keeps
    | with_reducible apply Keeps.ite
    | (dsimp only)
    | split
    | (refine Keeps.any ?_ ?_; rotate_left; rfl)

theorem State.flowClear_keeps {s : State} (h : Keeps dk qu s) (e : Nat) :
    Keeps dk qu (State.flowClear s e) := by
  unfold State.flowClear
  repeat' first
    | (intro)
    | with_reducible assumption
    | with_reducible apply Keeps.ite
    | (with_reducible apply Keeps.foldl)
    | (with_reducible apply Keeps.foldl_snd)
    | (with_reducible apply Keeps.foldl_snd2)
    | (with_reducible apply Keeps.foldl_fst)
    | (refine Keeps.foldl_snd_eq ?_ ?_ (by with_reducible assumption))
    | (refine Keeps.foldl_snd2_eq ?_ ?_ (by with_reducible assumption))
    | (refine Keeps.foldl_fst_eq ?_ ?_ (by with_reducible assumption))
    | (dsimp only)
    | split
    | (refine Keeps.any ?_ ?_; rotate_left; rfl)

theorem State.fhPlace_keeps {s : State} (h : Keeps dk qu s) (c code prb w : Nat) (b : List Byte) :
    Keeps dk qu (State.fhPlace s c code prb w b) := by
  unfold State.fhPlace
  repeat' first
    | (intro)
    | with_reducible assumption
    | with_reducible apply State.setStrm_keeps
    | with_reducible apply State.strmSat_keeps
    | with_reducible apply State.chPut_keeps
    | refine State.chPut_keeps_eq ?_ (by with_reducible assumption)
    | with_reducible apply Keeps.ite

theorem State.uPlane_keeps {s : State} (h : Keeps dk qu s) (e tb stamp : Nat) (l : List Byte) :
    Keeps dk qu (State.uPlane s e tb stamp l) := by
  unfold State.uPlane
  repeat' first
    | (intro)
    | with_reducible assumption
    | with_reducible apply State.drop_keeps
    | with_reducible apply State.flowCount_keeps
    | with_reducible apply State.flowLate_keeps
    | with_reducible apply State.fhPlace_keeps
    | with_reducible apply Keeps.ite
    | (with_reducible apply Keeps.foldl)
    | (with_reducible apply Keeps.foldl_snd)
    | (with_reducible apply Keeps.foldl_snd2)
    | (with_reducible apply Keeps.foldl_fst)
    | (refine Keeps.foldl_snd_eq ?_ ?_ (by with_reducible assumption))
    | (refine Keeps.foldl_snd2_eq ?_ ?_ (by with_reducible assumption))
    | (refine Keeps.foldl_fst_eq ?_ ?_ (by with_reducible assumption))
    | (dsimp only)
    | split
    | (refine Keeps.any ?_ ?_; rotate_left; rfl)

theorem State.roePacket_keeps {s : State} (h : Keeps dk qu s) (e tb stamp order : Nat) (payload : List Byte) :
    Keeps dk qu (State.roePacket s e tb stamp order payload) := by
  unfold State.roePacket
  repeat' first
    | (intro)
    | with_reducible assumption
    | with_reducible apply State.setStrm_keeps
    | with_reducible apply State.flowLate_keeps
    | with_reducible apply Keeps.ite

theorem State.flowTemplate_keeps {s : State} (h : Keeps dk qu s) (e : Nat) :
    Keeps dk qu (State.flowTemplate s e).2 := by
  unfold State.flowTemplate
  repeat' first
    | (intro)
    | with_reducible assumption
    | with_reducible apply State.unitGet_keeps

theorem State.flowTemplate_keeps_eq {s : State} (h : Keeps dk qu s) {e : Nat} {x0 : List Byte} {sv : State}
    (eqn : State.flowTemplate s e = (x0, sv)) : Keeps dk qu sv := by
  have := State.flowTemplate_keeps h e
  rwa [eqn] at this

theorem State.queueMsg_keeps {s : State} (h : Keeps dk qu s) (e : Nat) (bytes : List Byte) :
    Keeps dk qu (State.queueMsg s e bytes) := by
  unfold State.queueMsg
  repeat' first
    | (intro)
    | with_reducible assumption
    | with_reducible apply State.addFld_keeps
    | with_reducible apply Keeps.ite
    | (dsimp only)
    | split
    | (refine Keeps.any ?_ ?_; rotate_left; rfl)

theorem State.flowSend_keeps {s : State} (h : Keeps dk qu s) (c : Nat) (j : SymJob) (blocks : List (List Byte)) :
    Keeps dk qu (State.flowSend s c j blocks) := by
  unfold State.flowSend
  repeat' first
    | (intro)
    | with_reducible assumption
    | with_reducible apply State.flowTemplate_keeps
    | refine State.flowTemplate_keeps_eq ?_ (by with_reducible assumption)
    | with_reducible apply State.queueMsg_keeps
    | with_reducible apply Keeps.ite
    | (with_reducible apply Keeps.foldl)
    | (with_reducible apply Keeps.foldl_snd)
    | (with_reducible apply Keeps.foldl_snd2)
    | (with_reducible apply Keeps.foldl_fst)
    | (refine Keeps.foldl_snd_eq ?_ ?_ (by with_reducible assumption))
    | (refine Keeps.foldl_snd2_eq ?_ ?_ (by with_reducible assumption))
    | (refine Keeps.foldl_fst_eq ?_ ?_ (by with_reducible assumption))
    | (dsimp only)
    | split
    | (refine Keeps.any ?_ ?_; rotate_left; rfl)

theorem State.roeDrain_keeps {s : State} (h : Keeps dk qu s) (e n : Nat) : Keeps dk qu (State.roeDrain s e n) := by
  induction n generalizing s with
  | zero => exact h
  | succ n ih =>
    unfold State.roeDrain
    extract_lets n
    split
    rename_i i xs e1
    clear e1
    refine Keeps.ite h ?_
    split
    rename_i tpl s1 e2
    have k := State.flowTemplate_keeps_eq h e2
    extract_lets m ys pay t s2
    exact ih (State.queueMsg_keeps (Keeps.any k rfl) _ _)

theorem State.roeSend_keeps {s : State} (h : Keeps dk qu s) (c k : Nat) (xs : List Sample) :
    Keeps dk qu (State.roeSend s c k xs) := by
  unfold State.roeSend
  split
  · exact h
  · rename_i e he
    extract_lets kind n i old all skip
    refine Keeps.ite h ?_
    split
    exact State.roeDrain_keeps (Keeps.any h rfl) _ _

theorem State.setEthRing_keeps {s : State} (h : Keeps dk qu s) (r : Nat) (x : EthRing) :
    Keeps dk qu (State.setEthRing s r x) := by
  unfold State.setEthRing
  repeat' first
    | (intro)
    | with_reducible assumption
    | with_reducible apply Keeps.ite
    | (dsimp only)
    | split
    | (refine Keeps.any ?_ ?_; rotate_left; rfl)

theorem State.ethCtl_keeps {s : State} (h : Keeps dk qu s) (r : Nat) (v : Word) :
    Keeps dk qu (State.ethCtl s r v) := by
  unfold State.ethCtl
  repeat' first
    | (intro)
    | with_reducible assumption
    | with_reducible apply State.setFld_keeps
    | with_reducible apply State.storeReg_keeps
    | with_reducible apply State.setEthRing_keeps
    | with_reducible apply Keeps.ite

theorem State.ethNext_keeps {s : State} (h : Keeps dk qu s) (r i : Nat) :
    Keeps dk qu (State.ethNext s r i).2 := by
  unfold State.ethNext
  repeat' first
    | (intro)
    | with_reducible assumption
    | with_reducible apply State.setFld_keeps
    | with_reducible apply State.setEthRing_keeps
    | with_reducible apply Keeps.ite
    | (dsimp only)
    | split

theorem State.ethNext_keeps_eq {s : State} (h : Keeps dk qu s) {r i : Nat} {x0 : Nat} {sv : State}
    (eqn : State.ethNext s r i = (x0, sv)) : Keeps dk qu sv := by
  have := State.ethNext_keeps h r i
  rwa [eqn] at this

theorem State.ethComplete_keeps {s : State} (h : Keeps dk qu s) (r head : Nat) (frame : Bool) :
    Keeps dk qu (State.ethComplete s r head frame) := by
  unfold State.ethComplete
  repeat' first
    | (intro)
    | with_reducible assumption
    | with_reducible apply State.setFld_keeps
    | with_reducible apply State.addFld_keeps
    | with_reducible apply State.raise_keeps
    | with_reducible apply State.decKey_keeps
    | with_reducible apply State.setEthRing_keeps
    | with_reducible apply Keeps.ite

theorem State.ethDiscard_keeps {s : State} (h : Keeps dk qu s) (r : Nat) :
    Keeps dk qu (State.ethDiscard s r) := by
  unfold State.ethDiscard
  repeat' first
    | (intro)
    | with_reducible assumption
    | with_reducible apply State.addFld_keeps
    | with_reducible apply State.setEthRing_keeps

theorem State.readDesc_keeps {s : State} (h : Keeps dk qu s) (r ni a : Nat) :
    Keeps dk qu (State.readDesc s r ni a).2 := by
  unfold State.readDesc
  repeat' first
    | (intro)
    | with_reducible assumption
    | with_reducible apply State.unitGet_keeps
    | refine State.unitGet_keeps_eq ?_ (by with_reducible assumption)
    | with_reducible apply State.drop_keeps
    | with_reducible apply Keeps.ite
    | (dsimp only)
    | split

theorem State.readDesc_keeps_eq {s : State} (h : Keeps dk qu s) {r ni a : Nat} {x0 : Option (List Word)} {sv : State}
    (eqn : State.readDesc s r ni a = (x0, sv)) : Keeps dk qu sv := by
  have := State.readDesc_keeps h r ni a
  rwa [eqn] at this

theorem State.ethDesc_keeps {s : State} (h : Keeps dk qu s) (ni r i : Nat) :
    Keeps dk qu (State.ethDesc s ni r i).2 := by
  unfold State.ethDesc
  repeat' first
    | (intro)
    | with_reducible assumption
    | with_reducible apply State.readDesc_keeps

theorem State.ethDesc_keeps_eq {s : State} (h : Keeps dk qu s) {ni r i : Nat} {x0 : Option (List Word)} {sv : State}
    (eqn : State.ethDesc s ni r i = (x0, sv)) : Keeps dk qu sv := by
  have := State.ethDesc_keeps h ni r i
  rwa [eqn] at this

theorem State.ethFill_keeps {s : State} (h : Keeps dk qu s) (ni r n i : Nat) (l : List Byte) (used : List (Nat × Nat)) :
    Keeps dk qu (State.ethFill s ni r n i l used).2 := by
  induction n generalizing s i l used with
  | zero => exact h
  | succ n ih =>
    unfold State.ethFill
    split
    · exact h
    · split
      · rename_i s1 e
        exact State.ethDesc_keeps_eq h e
      · rename_i d s1 e
        have k := State.ethDesc_keeps_eq h e
        extract_lets cap part
        split
        rename_i st s2 e2
        have k2 := State.busPut_keeps_eq k e2
        split
        rename_i j s3 e3
        have k3 := State.ethNext_keeps_eq k2 e3
        split
        · exact ih k3 _ _ _
        · exact k3

theorem State.toRing_keeps {s : State} (h : Keeps dk qu s) (m r : Nat) (l : List Byte) (info : Nat) (w3 : Word)
    (stamp : List Word) (bad : Bool) : Keeps dk qu (State.toRing s m r l info w3 stamp bad) := by
  unfold State.toRing
  extract_lets ni start avail
  refine Keeps.ite (State.ethDiscard_keeps h _) (Keeps.ite (State.ethDiscard_keeps (State.addFld_keeps h _ _ _) _) ?_)
  split
  rename_i f s1 e
  have k : Keeps dk qu s1 := by
    have := State.ethFill_keeps h ni r avail start l []
    rwa [e] at this
  refine Keeps.ite (State.ethDiscard_keeps k _) ?_
  extract_lets discard kk descs s2 x
  have k2 : Keeps dk qu s2 := by
    refine Keeps.ite (State.ethDiscard_keeps (Keeps.ite k (State.addFld_keeps k _ _ _)) _) k
  exact State.setEthRing_keeps k2 _ _

theorem State.setPause_keeps {s : State} (h : Keeps dk qu s) (m k : Nat) (x : Pause) :
    Keeps dk qu (State.setPause s m k x) := by
  unfold State.setPause
  repeat' first
    | (intro)
    | with_reducible assumption
    | with_reducible apply State.setReg_keeps
    | with_reducible apply Keeps.ite
    | (dsimp only)
    | split
    | (refine Keeps.any ?_ ?_; rotate_left; rfl)

theorem State.pauseWatch_keeps {s : State} (h : Keeps dk qu s) (m k : Nat) :
    Keeps dk qu (State.pauseWatch s m k) := by
  unfold State.pauseWatch
  repeat' first
    | (intro)
    | with_reducible assumption
    | with_reducible apply State.addFld_keeps
    | with_reducible apply State.post_keeps
    | with_reducible apply State.setPause_keeps
    | with_reducible apply Keeps.ite

theorem State.pauseFor_keeps {s : State} (h : Keeps dk qu s) (m k q : Nat) :
    Keeps dk qu (State.pauseFor s m k q) := by
  unfold State.pauseFor
  repeat' first
    | (intro)
    | with_reducible assumption
    | with_reducible apply State.setPause_keeps
    | with_reducible apply State.pauseWatch_keeps
    | with_reducible apply Keeps.ite

theorem State.macControl_keeps {s : State} (h : Keeps dk qu s) (m : Nat) (l : List Byte) :
    Keeps dk qu (State.macControl s m l) := by
  unfold State.macControl
  repeat' first
    | (intro)
    | with_reducible assumption
    | with_reducible apply State.addFld_keeps
    | with_reducible apply State.pauseFor_keeps
    | with_reducible apply Keeps.ite
    | (with_reducible apply Keeps.foldl)

theorem State.setMacSt_keeps {s : State} (h : Keeps dk qu s) (m : Nat) (x : MacSt) :
    Keeps dk qu (State.setMacSt s m x) := by
  unfold State.setMacSt
  repeat' first
    | (intro)
    | with_reducible assumption
    | with_reducible apply Keeps.ite
    | (dsimp only)
    | split
    | (refine Keeps.any ?_ ?_; rotate_left; rfl)

theorem State.sendPause_keeps {s : State} (h : Keeps dk qu s) (m p q : Nat) :
    Keeps dk qu (State.sendPause s m p q) := by
  unfold State.sendPause
  repeat' first
    | (intro)
    | with_reducible assumption
    | with_reducible apply State.addFld_keeps
    | with_reducible apply State.setMacSt_keeps

theorem State.macProtectSwitch_keeps {s : State} (h : Keeps dk qu s) (h : Nat) (b : Bool) :
    Keeps dk qu (State.macProtectSwitch s h b) := by
  unfold State.macProtectSwitch
  repeat' first
    | (intro)
    | with_reducible assumption
    | with_reducible apply State.setFld_keeps
    | with_reducible apply State.post_keeps
    | with_reducible apply Keeps.ite

theorem State.macDown_keeps {s : State} (h : Keeps dk qu s) (m : Nat) :
    Keeps dk qu (State.macDown s m) := by
  unfold State.macDown
  repeat' first
    | (intro)
    | with_reducible assumption
    | with_reducible apply State.setFld_keeps
    | with_reducible apply State.post_keeps
    | with_reducible apply State.macProtectSwitch_keeps
    | with_reducible apply Keeps.ite
    | (with_reducible apply Keeps.foldl)

theorem State.macsCheck_keeps {s : State} (h : Keeps dk qu s)  :
    Keeps dk qu (State.macsCheck s) := by
  unfold State.macsCheck
  repeat' first
    | (intro)
    | with_reducible assumption
    | with_reducible apply State.macDown_keeps
    | with_reducible apply Keeps.ite
    | (with_reducible apply Keeps.foldl)

theorem State.macProtectWrite_keeps {s : State} (h : Keeps dk qu s) (h : Nat) (v : Word) :
    Keeps dk qu (State.macProtectWrite s h v) := by
  unfold State.macProtectWrite
  repeat' first
    | (intro)
    | with_reducible assumption
    | with_reducible apply State.storeReg_keeps
    | with_reducible apply State.macProtectSwitch_keeps

theorem State.ethPeriod_keeps {s : State} (h : Keeps dk qu s)  :
    Keeps dk qu (State.ethPeriod s) := by
  unfold State.ethPeriod
  repeat' first
    | (intro)
    | with_reducible assumption
    | with_reducible apply State.post_keeps
    | with_reducible apply State.setEthRing_keeps
    | with_reducible apply Keeps.ite
    | (with_reducible apply Keeps.foldl)
    | (with_reducible apply Keeps.foldl_snd)
    | (with_reducible apply Keeps.foldl_snd2)
    | (with_reducible apply Keeps.foldl_fst)
    | (refine Keeps.foldl_snd_eq ?_ ?_ (by with_reducible assumption))
    | (refine Keeps.foldl_snd2_eq ?_ ?_ (by with_reducible assumption))
    | (refine Keeps.foldl_fst_eq ?_ ?_ (by with_reducible assumption))
    | (dsimp only)
    | split
    | (refine Keeps.any ?_ ?_; rotate_left; rfl)

/-! ## DmaOps -/

theorem State.setDch_keeps {s : State} (h : Keeps dk qu s) (c : Nat) (x : DmaCh) :
    Keeps dk qu (State.setDch s c x) := by
  unfold State.setDch
  repeat' first
    | (intro)
    | with_reducible assumption
    | with_reducible apply State.setFld_keeps
    | with_reducible apply Keeps.ite
    | (dsimp only)
    | split
    | (refine Keeps.any ?_ ?_; rotate_left; rfl)

theorem State.setDmaState_keeps {s : State} (h : Keeps dk qu s) (c st code : Nat) :
    Keeps dk qu (State.setDmaState s c st code) := by
  unfold State.setDmaState
  repeat' first
    | (intro)
    | with_reducible assumption
    | with_reducible apply State.setFld_keeps

theorem State.setDmaPc_keeps {s : State} (h : Keeps dk qu s) (c a : Nat) :
    Keeps dk qu (State.setDmaPc s c a) := by
  unfold State.setDmaPc
  repeat' first
    | (intro)
    | with_reducible assumption
    | with_reducible apply State.setPair_keeps

theorem State.dmaWait_keeps {s : State} (h : Keeps dk qu s) (c kind : Nat) :
    Keeps dk qu (State.dmaWait s c kind) := by
  unfold State.dmaWait
  repeat' first
    | (intro)
    | with_reducible assumption
    | with_reducible apply State.setFld_keeps
    | with_reducible apply State.setDch_keeps
    | with_reducible apply State.setDmaState_keeps

theorem State.dmaHalt_keeps {s : State} (h : Keeps dk qu s) (c code : Nat) :
    Keeps dk qu (State.dmaHalt s c code) := by
  unfold State.dmaHalt
  repeat' first
    | (intro)
    | with_reducible assumption
    | with_reducible apply State.post_keeps
    | with_reducible apply State.setDch_keeps
    | with_reducible apply State.setDmaState_keeps

theorem State.leaveKey_keeps {s : State} (h : Keeps dk qu s) (c : Nat) :
    Keeps dk qu (State.leaveKey s c) := by
  unfold State.leaveKey
  repeat' first
    | (intro)
    | with_reducible assumption
    | with_reducible apply State.dmaWait_keeps
    | with_reducible apply Keeps.ite
    | (dsimp only)
    | split
    | (refine Keeps.any ?_ ?_; rotate_left; rfl)

theorem State.dmaStart_keeps {s : State} (h : Keeps dk qu s) (c : Nat) :
    Keeps dk qu (State.dmaStart s c) := by
  unfold State.dmaStart
  repeat' first
    | (intro)
    | with_reducible assumption
    | with_reducible apply State.setDch_keeps
    | with_reducible apply State.setDmaState_keeps
    | with_reducible apply State.setDmaPc_keeps
    | with_reducible apply Keeps.ite

theorem State.dmaAbort_keeps {s : State} (h : Keeps dk qu s) (c : Nat) :
    Keeps dk qu (State.dmaAbort s c) := by
  unfold State.dmaAbort
  repeat' first
    | (intro)
    | with_reducible assumption
    | with_reducible apply State.setDch_keeps
    | with_reducible apply State.setDmaState_keeps
    | with_reducible apply State.leaveKey_keeps
    | with_reducible apply Keeps.ite

theorem State.dmaResume_keeps {s : State} (h : Keeps dk qu s) (c : Nat) :
    Keeps dk qu (State.dmaResume s c) := by
  unfold State.dmaResume
  repeat' first
    | (intro)
    | with_reducible assumption
    | with_reducible apply State.setDch_keeps
    | with_reducible apply State.setDmaState_keeps
    | with_reducible apply Keeps.ite

theorem State.dmaCtl_keeps {s : State} (h : Keeps dk qu s) (c : Nat) (v : Word) :
    Keeps dk qu (State.dmaCtl s c v) := by
  unfold State.dmaCtl
  repeat' first
    | (intro)
    | with_reducible assumption
    | with_reducible apply State.dmaStart_keeps
    | with_reducible apply State.dmaAbort_keeps
    | with_reducible apply State.dmaResume_keeps
    | with_reducible apply Keeps.ite

theorem State.regHiWrite_keeps {s : State} (h : Keeps dk qu s) (req c : Nat) (v : Word) :
    Keeps dk qu (State.regHiWrite s req c v) := by
  unfold State.regHiWrite
  repeat' first
    | (intro)
    | with_reducible assumption
    | with_reducible apply State.setDch_keeps
    | with_reducible apply Keeps.ite

theorem State.putFlag_keeps {s : State} (h : Keeps dk qu s) (n : Nat) (b : Bool) :
    Keeps dk qu (State.putFlag s n b) := by
  unfold State.putFlag
  repeat' first
    | (intro)
    | with_reducible assumption
    | with_reducible apply State.setReg_keeps

theorem State.setFlag_keeps {s : State} (h : Keeps dk qu s) (n : Nat) :
    Keeps dk qu (State.setFlag s n) := by
  unfold State.setFlag
  repeat' first
    | (intro)
    | with_reducible assumption
    | with_reducible apply State.addFld_keeps
    | with_reducible apply State.setDch_keeps
    | with_reducible apply State.putFlag_keeps
    | with_reducible apply Keeps.ite
    | (dsimp only)
    | split
    | (refine Keeps.any ?_ ?_; rotate_left; rfl)

theorem State.eventSet_keeps {s : State} (h : Keeps dk qu s) (e w : Nat) (v : Word) :
    Keeps dk qu (State.eventSet s e w v) := by
  unfold State.eventSet
  repeat' first
    | (intro)
    | with_reducible assumption
    | with_reducible apply State.setFlag_keeps
    | with_reducible apply Keeps.ite
    | (with_reducible apply Keeps.foldl)

theorem State.eventClr_keeps {s : State} (h : Keeps dk qu s) (e w : Nat) (v : Word) :
    Keeps dk qu (State.eventClr s e w v) := by
  unfold State.eventClr
  repeat' first
    | (intro)
    | with_reducible assumption
    | with_reducible apply State.putFlag_keeps
    | with_reducible apply Keeps.ite
    | (with_reducible apply Keeps.foldl)

theorem State.ringReset_keeps {s : State} (h : Keeps dk qu s) (n : Nat) :
    Keeps dk qu (State.ringReset s n) := by
  unfold State.ringReset
  repeat' first
    | (intro)
    | with_reducible assumption
    | with_reducible apply State.setFld_keeps
    | with_reducible apply Keeps.ite
    | (dsimp only)
    | split
    | (refine Keeps.any ?_ ?_; rotate_left; rfl)

theorem State.ringHead_keeps {s : State} (h : Keeps dk qu s) (fn n v : Nat) :
    Keeps dk qu (State.ringHead s fn n v) := by
  unfold State.ringHead
  repeat' first
    | (intro)
    | with_reducible assumption
    | with_reducible apply State.setFld_keeps
    | with_reducible apply Keeps.ite

theorem State.dmaErr_keeps {s : State} (h : Keeps dk qu s) (c access a status : Nat) :
    Keeps dk qu (State.dmaErr s c access a status) := by
  unfold State.dmaErr
  repeat' first
    | (intro)
    | with_reducible assumption
    | with_reducible apply Keeps.ite
    | (dsimp only)
    | split
    | (refine Keeps.any ?_ ?_; rotate_left; rfl)

theorem State.dmaStop_keeps {s : State} (h : Keeps dk qu s) (c : Nat) :
    Keeps dk qu (State.dmaStop s c) := by
  unfold State.dmaStop
  repeat' first
    | (intro)
    | with_reducible assumption
    | with_reducible apply State.setFld_keeps
    | with_reducible apply State.setDch_keeps
    | with_reducible apply State.setDmaState_keeps
    | with_reducible apply State.setDmaPc_keeps
    | with_reducible apply State.leaveKey_keeps
    | with_reducible apply Keeps.ite

theorem State.dmaBusError_keeps {s : State} (h : Keeps dk qu s) (e : Nat) (r : DmaErr) :
    Keeps dk qu (State.dmaBusError s e r) := by
  unfold State.dmaBusError
  repeat' first
    | (intro)
    | with_reducible assumption
    | with_reducible apply State.setReg_keeps
    | with_reducible apply State.setFld_keeps
    | with_reducible apply State.satFld_keeps
    | with_reducible apply State.setPair_keeps
    | with_reducible apply State.post_keeps
    | with_reducible apply State.dmaStop_keeps
    | with_reducible apply Keeps.ite
    | (with_reducible apply Keeps.foldl)

/-! ## Operands -/

theorem State.setCore_keeps {s : State} (h : Keeps dk qu s) (c : Nat) (k : Core) :
    Keeps dk qu (State.setCore s c k) := by
  unfold State.setCore
  repeat' first
    | (intro)
    | with_reducible assumption
    | with_reducible apply Keeps.ite
    | (dsimp only)
    | split
    | (refine Keeps.any ?_ ?_; rotate_left; rfl)

/-! ## SettOps -/

theorem State.startHead_keeps_eq {s : State} (h : Keeps dk qu s) {u i : Nat} {x : Task} {sv : State}
    (eqn : State.startHead s u = some (i, x, sv)) : Keeps dk qu sv := by
  unfold State.startHead at eqn
  split at eqn
  · cases eqn
  · split at eqn
    · cases eqn
    · extract_lets t s1 b s2 at eqn
      have k1 : Keeps dk qu s1 := State.setSlot_keeps (State.putTask_keeps h _ _) _ _
      have k2 : Keeps dk qu s2 := State.satFld_keeps k1 _ _ _
      clear_value s1 s2
      simp only [Option.some.injEq, Prod.mk.injEq] at eqn
      rw [← eqn.2.2]
      exact Keeps.ite (State.addFld_keeps k2 _ _ _) k2


theorem State.fetch_keeps {s : State} (h : Keeps dk qu s) (c : Nat) :
    Keeps dk qu (State.fetch s c) := by
  unfold State.fetch
  repeat' first
    | (intro)
    | with_reducible assumption
    | with_reducible apply State.setCore_keeps
    | with_reducible apply Keeps.ite
    | (dsimp only)
    | split
    | (refine Keeps.any ?_ ?_; rotate_left; rfl)

theorem State.endTakeWait_keeps {s : State} (h : Keeps dk qu s) (c : Nat) :
    Keeps dk qu (State.endTakeWait s c) := by
  unfold State.endTakeWait
  repeat' first
    | (intro)
    | with_reducible assumption
    | with_reducible apply State.satFld_keeps
    | with_reducible apply Keeps.ite
    | (dsimp only)
    | split
    | (refine Keeps.any ?_ ?_; rotate_left; rfl)

theorem State.takeNext_keeps {s : State} (h : Keeps dk qu s) (c : Nat) : Keeps dk qu (State.takeNext s c) := by
  unfold State.takeNext
  extract_lets wait
  have kw : ∀ s, Keeps dk qu s → Keeps dk qu (wait s) := fun s h => Keeps.ite (Keeps.any h rfl) h
  clear_value wait
  split
  · split
    · rename_i i t s1 e
      exact State.countEvent_keeps (State.endTakeWait_keeps (State.setCore_keeps (State.startHead_keeps_eq h e) _ _) _) _ _ _ _
    · exact kw s h
  · exact kw s h

theorem State.setCmu_keeps {s : State} (h : Keeps dk qu s) (n : Nat) (x : Cmu) :
    Keeps dk qu (State.setCmu s n x) := by
  unfold State.setCmu
  repeat' first
    | (intro)
    | with_reducible assumption
    | with_reducible apply Keeps.ite
    | (dsimp only)
    | split
    | (refine Keeps.any ?_ ?_; rotate_left; rfl)

theorem State.syncCmu_keeps {s : State} (h : Keeps dk qu s) (n : Nat) :
    Keeps dk qu (State.syncCmu s n) := by
  unfold State.syncCmu
  repeat' first
    | (intro)
    | with_reducible assumption
    | with_reducible apply State.setFld_keeps

theorem State.recordExc_keeps {s : State} (h : Keeps dk qu s) (c : Nat) (e : CoreExc) (left : Nat) :
    Keeps dk qu (State.recordExc s c e left).2 := by
  unfold State.recordExc
  repeat' first
    | (intro)
    | with_reducible assumption
    | with_reducible apply State.setFld_keeps
    | with_reducible apply State.satFld_keeps
    | with_reducible apply State.setPair_keeps
    | with_reducible apply State.post_keeps
    | with_reducible apply State.setCore_keeps
    | with_reducible apply Keeps.ite

theorem State.recordExc_keeps_eq {s : State} (h : Keeps dk qu s) {c : Nat} {e : CoreExc} {left : Nat} {x0 : Nat} {sv : State}
    (eqn : State.recordExc s c e left = (x0, sv)) : Keeps dk qu sv := by
  have := State.recordExc_keeps h c e left
  rwa [eqn] at this

theorem State.reportTask_keeps {s : State} (h : Keeps dk qu s) (c : Nat) (why : Cause) :
    Keeps dk qu (State.reportTask s c why) := by
  unfold State.reportTask
  repeat' first
    | (intro)
    | with_reducible assumption
    | with_reducible apply State.report_keeps
    | with_reducible apply State.setCore_keeps
    | with_reducible apply State.takeNext_keeps
    | with_reducible apply Keeps.ite
    | (dsimp only)
    | split

theorem State.tryEnd_keeps {s : State} (h : Keeps dk qu s) (c : Nat) :
    Keeps dk qu (State.tryEnd s c) := by
  unfold State.tryEnd
  repeat' first
    | (intro)
    | with_reducible assumption
    | with_reducible apply State.setCmu_keeps
    | with_reducible apply State.recordExc_keeps
    | refine State.recordExc_keeps_eq ?_ (by with_reducible assumption)
    | with_reducible apply State.reportTask_keeps
    | with_reducible apply Keeps.ite
    | (dsimp only)
    | split

theorem State.raiseExc_keeps {s : State} (h : Keeps dk qu s) (c : Nat) (e : CoreExc) :
    Keeps dk qu (State.raiseExc s c e) := by
  unfold State.raiseExc
  repeat' first
    | (intro)
    | with_reducible assumption
    | with_reducible apply State.setCore_keeps
    | with_reducible apply State.recordExc_keeps
    | refine State.recordExc_keeps_eq ?_ (by with_reducible assumption)
    | with_reducible apply State.tryEnd_keeps

theorem State.sampleLost_keeps {s : State} (h : Keeps dk qu s) (n : Nat) :
    Keeps dk qu (State.sampleLost s n) := by
  unfold State.sampleLost
  repeat' first
    | (intro)
    | with_reducible assumption
    | with_reducible apply State.addFld_keeps
    | with_reducible apply State.countEvent_keeps

theorem State.sample_keeps {s : State} (h : Keeps dk qu s) (c pc : Nat) (hits : List (Nat × Nat)) (daddr left : Nat) (inRep : Bool) :
    Keeps dk qu (State.sample s c pc hits daddr left inRep) := by
  unfold State.sample
  repeat' first
    | (intro)
    | with_reducible assumption
    | with_reducible apply State.takeFree_keeps
    | refine State.takeFree_keeps_eq ?_ (by with_reducible assumption)
    | with_reducible apply State.sampleLost_keeps
    | with_reducible apply Keeps.ite
    | (dsimp only)
    | split
    | (refine Keeps.any ?_ ?_; rotate_left; rfl)

theorem State.doStores_keeps {s : State} (h : Keeps dk qu s) (c : Nat) (l : List (List (Nat × List Byte))) :
    Keeps dk qu (State.doStores s c l) := by
  unfold State.doStores
  repeat' first
    | (intro)
    | with_reducible assumption
    | with_reducible apply State.writeMem_keeps
    | with_reducible apply State.setCore_keeps
    | with_reducible apply Keeps.ite
    | (with_reducible apply Keeps.foldl)
    | (with_reducible apply Keeps.foldl_snd)
    | (with_reducible apply Keeps.foldl_snd2)
    | (with_reducible apply Keeps.foldl_fst)
    | (refine Keeps.foldl_snd_eq ?_ ?_ (by with_reducible assumption))
    | (refine Keeps.foldl_snd2_eq ?_ ?_ (by with_reducible assumption))
    | (refine Keeps.foldl_fst_eq ?_ ?_ (by with_reducible assumption))
    | (dsimp only)
    | split

theorem State.cmuWords_keeps {s : State} (h : Keeps dk qu s) (c a : Nat) :
    Keeps dk qu (State.cmuWords s c a).2 := by
  unfold State.cmuWords
  repeat' first
    | (intro)
    | with_reducible assumption
    | with_reducible apply State.takeFree_keeps
    | refine State.takeFree_keeps_eq ?_ (by with_reducible assumption)
    | with_reducible apply State.readMem_keeps
    | refine State.readMem_keeps_eq ?_ (by with_reducible assumption)
    | with_reducible apply State.drop_keeps
    | with_reducible apply Keeps.ite
    | (dsimp only)
    | split

theorem State.cmuWords_keeps_eq {s : State} (h : Keeps dk qu s) {c a : Nat} {x0 : List Word} {sv : State}
    (eqn : State.cmuWords s c a = (x0, sv)) : Keeps dk qu sv := by
  have := State.cmuWords_keeps h c a
  rwa [eqn] at this

theorem State.retire_keeps {s : State} (h : Keeps dk qu s) (c : Nat) (loaded : List RegWrite) (held : Bool) :
    Keeps dk qu (State.retire s c loaded held) := by
  unfold State.retire
  repeat' first
    | (intro)
    | with_reducible assumption
    | with_reducible apply State.countEvent_keeps
    | with_reducible apply State.countAct_keeps
    | with_reducible apply State.setCore_keeps
    | with_reducible apply State.setCmu_keeps
    | with_reducible apply State.syncCmu_keeps
    | with_reducible apply State.tryEnd_keeps
    | with_reducible apply State.sample_keeps
    | with_reducible apply State.doStores_keeps
    | with_reducible apply State.cmuWords_keeps
    | refine State.cmuWords_keeps_eq ?_ (by with_reducible assumption)
    | with_reducible apply Keeps.ite
    | (dsimp only)
    | split

theorem State.localRead_keeps {s : State} (h : Keeps dk qu s) (c a n : Nat) :
    Keeps dk qu (State.localRead s c a n).2 := by
  unfold State.localRead
  repeat' first
    | (intro)
    | with_reducible assumption
    | with_reducible apply State.readMem_keeps
    | refine State.readMem_keeps_eq ?_ (by with_reducible assumption)
    | with_reducible apply State.took_keeps

theorem State.localRead_keeps_eq {s : State} (h : Keeps dk qu s) {c a n : Nat} {x0 : List (Byte × Bool)} {sv : State}
    (eqn : State.localRead s c a n = (x0, sv)) : Keeps dk qu sv := by
  have := State.localRead_keeps h c a n
  rwa [eqn] at this

theorem State.cmuqPoison_keeps {s : State} (h : Keeps dk qu s) (c a : Nat) {go : State → State} (hg : Keeps dk qu (go s)) :
    Keeps dk qu (State.cmuqPoison s c a go) := by
  unfold State.cmuqPoison
  exact Keeps.ite (State.raiseExc_keeps (State.took_keeps h _ _ _ _) _ _) hg

theorem State.finishBundle_keeps {s : State} (h : Keeps dk qu s) (c : Nat) :
    Keeps dk qu (State.finishBundle s c) := by
  unfold State.finishBundle
  repeat' first
    | (intro)
    | with_reducible assumption
    | with_reducible apply State.countEvent_keeps
    | with_reducible apply State.setCore_keeps
    | with_reducible apply State.raiseExc_keeps
    | with_reducible apply State.retire_keeps
    | with_reducible apply State.localRead_keeps
    | refine State.localRead_keeps_eq ?_ (by with_reducible assumption)
    | with_reducible apply State.cmuqPoison_keeps
    | with_reducible apply Keeps.ite
    | (dsimp only)
    | split

theorem State.stageSlot_keeps {s : State} (h : Keeps dk qu s) (c slot : Nat) (o : SlotOut) :
    Keeps dk qu (State.stageSlot s c slot o) := by
  unfold State.stageSlot
  repeat' first
    | (intro)
    | with_reducible assumption
    | with_reducible apply State.setCore_keeps
    | with_reducible apply State.fetch_keeps
    | with_reducible apply Keeps.ite

theorem State.macOp_keeps {s : State} (h : Keeps dk qu s) (c m op : Nat) (f : Core → Nat → SlotOut) :
    Keeps dk qu (State.macOp s c m op f) := by
  unfold State.macOp
  repeat' first
    | (intro)
    | with_reducible assumption
    | with_reducible apply State.countEvent_keeps
    | with_reducible apply State.raiseExc_keeps
    | with_reducible apply State.stageSlot_keeps
    | with_reducible apply Keeps.ite
    | (dsimp only)
    | split

theorem State.lsOp_keeps {s : State} (h : Keeps dk qu s) (c op : Nat) (f : Core → Nat → SlotOut) :
    Keeps dk qu (State.lsOp s c op f) := by
  unfold State.lsOp
  repeat' first
    | (intro)
    | with_reducible assumption
    | with_reducible apply State.stageSlot_keeps
    | with_reducible apply Keeps.ite
    | (dsimp only)
    | split

theorem State.sbOp_keeps {s : State} (h : Keeps dk qu s) (c op : Nat) (f : Core → Nat → SlotOut) :
    Keeps dk qu (State.sbOp s c op f) := by
  unfold State.sbOp
  repeat' first
    | (intro)
    | with_reducible assumption
    | with_reducible apply State.finishBundle_keeps
    | with_reducible apply State.stageSlot_keeps
    | with_reducible apply Keeps.ite
    | (dsimp only)
    | split

end Sys2Proof.Machine
end

