-- ==== Sys2Proof/Laws/KeepsSett.lean ====
section
/-! SUPPORT. What commands of the Sett cores, the CMUs and the code engines keep (`Keeps`, `KeepsOut`): one lemma a definition. -/
namespace Sys2Proof.Machine

variable {dk : BitVec 64} {qu : List Instr}

/-! ## Sett -/

theorem execVmac_keeps {s : State} (h : Keeps dk qu s) (core : Fin 192) (mac : Fin 2) :
    KeepsOut dk qu (execVmac core mac s) := by
  unfold execVmac
  repeat' first
    | with_reducible apply KeepsOut.next
    | with_reducible apply KeepsOut.ite
    | (intro)
    | with_reducible assumption
    | with_reducible apply State.macOp_keeps

theorem execVmsu_keeps {s : State} (h : Keeps dk qu s) (core : Fin 192) (mac : Fin 2) :
    KeepsOut dk qu (execVmsu core mac s) := by
  unfold execVmsu
  repeat' first
    | with_reducible apply KeepsOut.next
    | with_reducible apply KeepsOut.ite
    | (intro)
    | with_reducible assumption
    | with_reducible apply State.macOp_keeps

theorem execVmul_keeps {s : State} (h : Keeps dk qu s) (core : Fin 192) (mac : Fin 2) :
    KeepsOut dk qu (execVmul core mac s) := by
  unfold execVmul
  repeat' first
    | with_reducible apply KeepsOut.next
    | with_reducible apply KeepsOut.ite
    | (intro)
    | with_reducible assumption
    | with_reducible apply State.macOp_keeps

theorem execVcmacL_keeps {s : State} (h : Keeps dk qu s) (core : Fin 192) (mac : Fin 2) :
    KeepsOut dk qu (execVcmacL core mac s) := by
  unfold execVcmacL
  repeat' first
    | with_reducible apply KeepsOut.next
    | with_reducible apply KeepsOut.ite
    | (intro)
    | with_reducible assumption
    | with_reducible apply State.macOp_keeps

theorem execVcmacH_keeps {s : State} (h : Keeps dk qu s) (core : Fin 192) (mac : Fin 2) :
    KeepsOut dk qu (execVcmacH core mac s) := by
  unfold execVcmacH
  repeat' first
    | with_reducible apply KeepsOut.next
    | with_reducible apply KeepsOut.ite
    | (intro)
    | with_reducible assumption
    | with_reducible apply State.macOp_keeps

theorem execVcmacjL_keeps {s : State} (h : Keeps dk qu s) (core : Fin 192) (mac : Fin 2) :
    KeepsOut dk qu (execVcmacjL core mac s) := by
  unfold execVcmacjL
  repeat' first
    | with_reducible apply KeepsOut.next
    | with_reducible apply KeepsOut.ite
    | (intro)
    | with_reducible assumption
    | with_reducible apply State.macOp_keeps

theorem execVcmacjH_keeps {s : State} (h : Keeps dk qu s) (core : Fin 192) (mac : Fin 2) :
    KeepsOut dk qu (execVcmacjH core mac s) := by
  unfold execVcmacjH
  repeat' first
    | with_reducible apply KeepsOut.next
    | with_reducible apply KeepsOut.ite
    | (intro)
    | with_reducible assumption
    | with_reducible apply State.macOp_keeps

theorem execVaclr_keeps {s : State} (h : Keeps dk qu s) (core : Fin 192) (mac : Fin 2) :
    KeepsOut dk qu (execVaclr core mac s) := by
  unfold execVaclr
  repeat' first
    | with_reducible apply KeepsOut.next
    | with_reducible apply KeepsOut.ite
    | (intro)
    | with_reducible assumption
    | with_reducible apply State.macOp_keeps

theorem execVald_keeps {s : State} (h : Keeps dk qu s) (core : Fin 192) (mac : Fin 2) :
    KeepsOut dk qu (execVald core mac s) := by
  unfold execVald
  repeat' first
    | with_reducible apply KeepsOut.next
    | with_reducible apply KeepsOut.ite
    | (intro)
    | with_reducible assumption
    | with_reducible apply State.macOp_keeps

theorem execVamov_keeps {s : State} (h : Keeps dk qu s) (core : Fin 192) (mac : Fin 2) :
    KeepsOut dk qu (execVamov core mac s) := by
  unfold execVamov
  repeat' first
    | with_reducible apply KeepsOut.next
    | with_reducible apply KeepsOut.ite
    | (intro)
    | with_reducible assumption
    | with_reducible apply State.macOp_keeps

theorem execVared_keeps {s : State} (h : Keeps dk qu s) (core : Fin 192) (mac : Fin 2) :
    KeepsOut dk qu (execVared core mac s) := by
  unfold execVared
  repeat' first
    | with_reducible apply KeepsOut.next
    | with_reducible apply KeepsOut.ite
    | (intro)
    | with_reducible assumption
    | with_reducible apply State.macOp_keeps

theorem execVext_keeps {s : State} (h : Keeps dk qu s) (core : Fin 192) (mac : Fin 2) :
    KeepsOut dk qu (execVext core mac s) := by
  unfold execVext
  repeat' first
    | with_reducible apply KeepsOut.next
    | with_reducible apply KeepsOut.ite
    | (intro)
    | with_reducible assumption
    | with_reducible apply State.macOp_keeps

theorem execVexts_keeps {s : State} (h : Keeps dk qu s) (core : Fin 192) (mac : Fin 2) :
    KeepsOut dk qu (execVexts core mac s) := by
  unfold execVexts
  repeat' first
    | with_reducible apply KeepsOut.next
    | with_reducible apply KeepsOut.ite
    | (intro)
    | with_reducible assumption
    | with_reducible apply State.macOp_keeps

theorem execVextr_keeps {s : State} (h : Keeps dk qu s) (core : Fin 192) (mac : Fin 2) :
    KeepsOut dk qu (execVextr core mac s) := by
  unfold execVextr
  repeat' first
    | with_reducible apply KeepsOut.next
    | with_reducible apply KeepsOut.ite
    | (intro)
    | with_reducible assumption
    | with_reducible apply State.macOp_keeps

theorem execVextrs_keeps {s : State} (h : Keeps dk qu s) (core : Fin 192) (mac : Fin 2) :
    KeepsOut dk qu (execVextrs core mac s) := by
  unfold execVextrs
  repeat' first
    | with_reducible apply KeepsOut.next
    | with_reducible apply KeepsOut.ite
    | (intro)
    | with_reducible assumption
    | with_reducible apply State.macOp_keeps

theorem execVadd_keeps {s : State} (h : Keeps dk qu s) (core : Fin 192) (mac : Fin 2) :
    KeepsOut dk qu (execVadd core mac s) := by
  unfold execVadd
  repeat' first
    | with_reducible apply KeepsOut.next
    | with_reducible apply KeepsOut.ite
    | (intro)
    | with_reducible assumption
    | with_reducible apply State.macOp_keeps

theorem execVadds_keeps {s : State} (h : Keeps dk qu s) (core : Fin 192) (mac : Fin 2) :
    KeepsOut dk qu (execVadds core mac s) := by
  unfold execVadds
  repeat' first
    | with_reducible apply KeepsOut.next
    | with_reducible apply KeepsOut.ite
    | (intro)
    | with_reducible assumption
    | with_reducible apply State.macOp_keeps

theorem execVsub_keeps {s : State} (h : Keeps dk qu s) (core : Fin 192) (mac : Fin 2) :
    KeepsOut dk qu (execVsub core mac s) := by
  unfold execVsub
  repeat' first
    | with_reducible apply KeepsOut.next
    | with_reducible apply KeepsOut.ite
    | (intro)
    | with_reducible assumption
    | with_reducible apply State.macOp_keeps

theorem execVsubs_keeps {s : State} (h : Keeps dk qu s) (core : Fin 192) (mac : Fin 2) :
    KeepsOut dk qu (execVsubs core mac s) := by
  unfold execVsubs
  repeat' first
    | with_reducible apply KeepsOut.next
    | with_reducible apply KeepsOut.ite
    | (intro)
    | with_reducible assumption
    | with_reducible apply State.macOp_keeps

theorem execVmulq_keeps {s : State} (h : Keeps dk qu s) (core : Fin 192) (mac : Fin 2) :
    KeepsOut dk qu (execVmulq core mac s) := by
  unfold execVmulq
  repeat' first
    | with_reducible apply KeepsOut.next
    | with_reducible apply KeepsOut.ite
    | (intro)
    | with_reducible assumption
    | with_reducible apply State.macOp_keeps

theorem execVshr_keeps {s : State} (h : Keeps dk qu s) (core : Fin 192) (mac : Fin 2) :
    KeepsOut dk qu (execVshr core mac s) := by
  unfold execVshr
  repeat' first
    | with_reducible apply KeepsOut.next
    | with_reducible apply KeepsOut.ite
    | (intro)
    | with_reducible assumption
    | with_reducible apply State.macOp_keeps

theorem execVshl_keeps {s : State} (h : Keeps dk qu s) (core : Fin 192) (mac : Fin 2) :
    KeepsOut dk qu (execVshl core mac s) := by
  unfold execVshl
  repeat' first
    | with_reducible apply KeepsOut.next
    | with_reducible apply KeepsOut.ite
    | (intro)
    | with_reducible assumption
    | with_reducible apply State.macOp_keeps

theorem execVshls_keeps {s : State} (h : Keeps dk qu s) (core : Fin 192) (mac : Fin 2) :
    KeepsOut dk qu (execVshls core mac s) := by
  unfold execVshls
  repeat' first
    | with_reducible apply KeepsOut.next
    | with_reducible apply KeepsOut.ite
    | (intro)
    | with_reducible assumption
    | with_reducible apply State.macOp_keeps

theorem execVand_keeps {s : State} (h : Keeps dk qu s) (core : Fin 192) (mac : Fin 2) :
    KeepsOut dk qu (execVand core mac s) := by
  unfold execVand
  repeat' first
    | with_reducible apply KeepsOut.next
    | with_reducible apply KeepsOut.ite
    | (intro)
    | with_reducible assumption
    | with_reducible apply State.macOp_keeps

theorem execVor_keeps {s : State} (h : Keeps dk qu s) (core : Fin 192) (mac : Fin 2) :
    KeepsOut dk qu (execVor core mac s) := by
  unfold execVor
  repeat' first
    | with_reducible apply KeepsOut.next
    | with_reducible apply KeepsOut.ite
    | (intro)
    | with_reducible assumption
    | with_reducible apply State.macOp_keeps

theorem execVxor_keeps {s : State} (h : Keeps dk qu s) (core : Fin 192) (mac : Fin 2) :
    KeepsOut dk qu (execVxor core mac s) := by
  unfold execVxor
  repeat' first
    | with_reducible apply KeepsOut.next
    | with_reducible apply KeepsOut.ite
    | (intro)
    | with_reducible assumption
    | with_reducible apply State.macOp_keeps

theorem execVmax_keeps {s : State} (h : Keeps dk qu s) (core : Fin 192) (mac : Fin 2) :
    KeepsOut dk qu (execVmax core mac s) := by
  unfold execVmax
  repeat' first
    | with_reducible apply KeepsOut.next
    | with_reducible apply KeepsOut.ite
    | (intro)
    | with_reducible assumption
    | with_reducible apply State.macOp_keeps

theorem execVmin_keeps {s : State} (h : Keeps dk qu s) (core : Fin 192) (mac : Fin 2) :
    KeepsOut dk qu (execVmin core mac s) := by
  unfold execVmin
  repeat' first
    | with_reducible apply KeepsOut.next
    | with_reducible apply KeepsOut.ite
    | (intro)
    | with_reducible assumption
    | with_reducible apply State.macOp_keeps

theorem execVabs_keeps {s : State} (h : Keeps dk qu s) (core : Fin 192) (mac : Fin 2) :
    KeepsOut dk qu (execVabs core mac s) := by
  unfold execVabs
  repeat' first
    | with_reducible apply KeepsOut.next
    | with_reducible apply KeepsOut.ite
    | (intro)
    | with_reducible assumption
    | with_reducible apply State.macOp_keeps

theorem execVneg_keeps {s : State} (h : Keeps dk qu s) (core : Fin 192) (mac : Fin 2) :
    KeepsOut dk qu (execVneg core mac s) := by
  unfold execVneg
  repeat' first
    | with_reducible apply KeepsOut.next
    | with_reducible apply KeepsOut.ite
    | (intro)
    | with_reducible assumption
    | with_reducible apply State.macOp_keeps

theorem execVconj_keeps {s : State} (h : Keeps dk qu s) (core : Fin 192) (mac : Fin 2) :
    KeepsOut dk qu (execVconj core mac s) := by
  unfold execVconj
  repeat' first
    | with_reducible apply KeepsOut.next
    | with_reducible apply KeepsOut.ite
    | (intro)
    | with_reducible assumption
    | with_reducible apply State.macOp_keeps

theorem execVswapiq_keeps {s : State} (h : Keeps dk qu s) (core : Fin 192) (mac : Fin 2) :
    KeepsOut dk qu (execVswapiq core mac s) := by
  unfold execVswapiq
  repeat' first
    | with_reducible apply KeepsOut.next
    | with_reducible apply KeepsOut.ite
    | (intro)
    | with_reducible assumption
    | with_reducible apply State.macOp_keeps

theorem execVcmpgt_keeps {s : State} (h : Keeps dk qu s) (core : Fin 192) (mac : Fin 2) :
    KeepsOut dk qu (execVcmpgt core mac s) := by
  unfold execVcmpgt
  repeat' first
    | with_reducible apply KeepsOut.next
    | with_reducible apply KeepsOut.ite
    | (intro)
    | with_reducible assumption
    | with_reducible apply State.macOp_keeps

theorem execVcmpeq_keeps {s : State} (h : Keeps dk qu s) (core : Fin 192) (mac : Fin 2) :
    KeepsOut dk qu (execVcmpeq core mac s) := by
  unfold execVcmpeq
  repeat' first
    | with_reducible apply KeepsOut.next
    | with_reducible apply KeepsOut.ite
    | (intro)
    | with_reducible assumption
    | with_reducible apply State.macOp_keeps

theorem execVsel_keeps {s : State} (h : Keeps dk qu s) (core : Fin 192) (mac : Fin 2) :
    KeepsOut dk qu (execVsel core mac s) := by
  unfold execVsel
  repeat' first
    | with_reducible apply KeepsOut.next
    | with_reducible apply KeepsOut.ite
    | (intro)
    | with_reducible assumption
    | with_reducible apply State.macOp_keeps

theorem execValign_keeps {s : State} (h : Keeps dk qu s) (core : Fin 192) (mac : Fin 2) :
    KeepsOut dk qu (execValign core mac s) := by
  unfold execValign
  repeat' first
    | with_reducible apply KeepsOut.next
    | with_reducible apply KeepsOut.ite
    | (intro)
    | with_reducible assumption
    | with_reducible apply State.macOp_keeps

theorem execVbcast_keeps {s : State} (h : Keeps dk qu s) (core : Fin 192) (mac : Fin 2) :
    KeepsOut dk qu (execVbcast core mac s) := by
  unfold execVbcast
  repeat' first
    | with_reducible apply KeepsOut.next
    | with_reducible apply KeepsOut.ite
    | (intro)
    | with_reducible assumption
    | with_reducible apply State.macOp_keeps

theorem execVmov_keeps {s : State} (h : Keeps dk qu s) (core : Fin 192) (mac : Fin 2) :
    KeepsOut dk qu (execVmov core mac s) := by
  unfold execVmov
  repeat' first
    | with_reducible apply KeepsOut.next
    | with_reducible apply KeepsOut.ite
    | (intro)
    | with_reducible assumption
    | with_reducible apply State.macOp_keeps

theorem execVnop_keeps {s : State} (h : Keeps dk qu s) (core : Fin 192) (mac : Fin 2) :
    KeepsOut dk qu (execVnop core mac s) := by
  unfold execVnop
  repeat' first
    | with_reducible apply KeepsOut.next
    | with_reducible apply KeepsOut.ite
    | (intro)
    | with_reducible assumption
    | with_reducible apply State.macOp_keeps

/-! ## SettScalar -/

theorem execVld_keeps {s : State} (h : Keeps dk qu s) (core : Fin 192) :
    KeepsOut dk qu (execVld core s) := by
  unfold execVld
  repeat' first
    | with_reducible apply KeepsOut.next
    | with_reducible apply KeepsOut.ite
    | (intro)
    | with_reducible assumption
    | with_reducible apply State.lsOp_keeps

theorem execVst_keeps {s : State} (h : Keeps dk qu s) (core : Fin 192) :
    KeepsOut dk qu (execVst core s) := by
  unfold execVst
  repeat' first
    | with_reducible apply KeepsOut.next
    | with_reducible apply KeepsOut.ite
    | (intro)
    | with_reducible assumption
    | with_reducible apply State.lsOp_keeps

theorem execVldst_keeps {s : State} (h : Keeps dk qu s) (core : Fin 192) :
    KeepsOut dk qu (execVldst core s) := by
  unfold execVldst
  repeat' first
    | with_reducible apply KeepsOut.next
    | with_reducible apply KeepsOut.ite
    | (intro)
    | with_reducible assumption
    | with_reducible apply State.lsOp_keeps

theorem execVldbc_keeps {s : State} (h : Keeps dk qu s) (core : Fin 192) :
    KeepsOut dk qu (execVldbc core s) := by
  unfold execVldbc
  repeat' first
    | with_reducible apply KeepsOut.next
    | with_reducible apply KeepsOut.ite
    | (intro)
    | with_reducible assumption
    | with_reducible apply State.lsOp_keeps

theorem execLdw_keeps {s : State} (h : Keeps dk qu s) (core : Fin 192) :
    KeepsOut dk qu (execLdw core s) := by
  unfold execLdw
  repeat' first
    | with_reducible apply KeepsOut.next
    | with_reducible apply KeepsOut.ite
    | (intro)
    | with_reducible assumption
    | with_reducible apply State.lsOp_keeps

theorem execLdh_keeps {s : State} (h : Keeps dk qu s) (core : Fin 192) :
    KeepsOut dk qu (execLdh core s) := by
  unfold execLdh
  repeat' first
    | with_reducible apply KeepsOut.next
    | with_reducible apply KeepsOut.ite
    | (intro)
    | with_reducible assumption
    | with_reducible apply State.lsOp_keeps

theorem execLdhu_keeps {s : State} (h : Keeps dk qu s) (core : Fin 192) :
    KeepsOut dk qu (execLdhu core s) := by
  unfold execLdhu
  repeat' first
    | with_reducible apply KeepsOut.next
    | with_reducible apply KeepsOut.ite
    | (intro)
    | with_reducible assumption
    | with_reducible apply State.lsOp_keeps

theorem execStw_keeps {s : State} (h : Keeps dk qu s) (core : Fin 192) :
    KeepsOut dk qu (execStw core s) := by
  unfold execStw
  repeat' first
    | with_reducible apply KeepsOut.next
    | with_reducible apply KeepsOut.ite
    | (intro)
    | with_reducible assumption
    | with_reducible apply State.lsOp_keeps

theorem execSth_keeps {s : State} (h : Keeps dk qu s) (core : Fin 192) :
    KeepsOut dk qu (execSth core s) := by
  unfold execSth
  repeat' first
    | with_reducible apply KeepsOut.next
    | with_reducible apply KeepsOut.ite
    | (intro)
    | with_reducible assumption
    | with_reducible apply State.lsOp_keeps

theorem execCmuq_keeps {s : State} (h : Keeps dk qu s) (core : Fin 192) :
    KeepsOut dk qu (execCmuq core s) := by
  unfold execCmuq
  repeat' first
    | with_reducible apply KeepsOut.next
    | with_reducible apply KeepsOut.ite
    | (intro)
    | with_reducible assumption
    | with_reducible apply State.setCore_keeps
    | with_reducible apply State.stageSlot_keeps
    | with_reducible apply State.postWrite_keeps
    | with_reducible apply Keeps.ite
    | (dsimp only)
    | split

theorem execAadd_keeps {s : State} (h : Keeps dk qu s) (core : Fin 192) :
    KeepsOut dk qu (execAadd core s) := by
  unfold execAadd
  repeat' first
    | with_reducible apply KeepsOut.next
    | with_reducible apply KeepsOut.ite
    | (intro)
    | with_reducible assumption
    | with_reducible apply State.lsOp_keeps

theorem execLnop_keeps {s : State} (h : Keeps dk qu s) (core : Fin 192) :
    KeepsOut dk qu (execLnop core s) := by
  unfold execLnop
  repeat' first
    | with_reducible apply KeepsOut.next
    | with_reducible apply KeepsOut.ite
    | (intro)
    | with_reducible assumption
    | with_reducible apply State.lsOp_keeps

theorem execSadd_keeps {s : State} (h : Keeps dk qu s) (core : Fin 192) :
    KeepsOut dk qu (execSadd core s) := by
  unfold execSadd
  repeat' first
    | with_reducible apply KeepsOut.next
    | with_reducible apply KeepsOut.ite
    | (intro)
    | with_reducible assumption
    | with_reducible apply State.sbOp_keeps

theorem execSsub_keeps {s : State} (h : Keeps dk qu s) (core : Fin 192) :
    KeepsOut dk qu (execSsub core s) := by
  unfold execSsub
  repeat' first
    | with_reducible apply KeepsOut.next
    | with_reducible apply KeepsOut.ite
    | (intro)
    | with_reducible assumption
    | with_reducible apply State.sbOp_keeps

theorem execSmul_keeps {s : State} (h : Keeps dk qu s) (core : Fin 192) :
    KeepsOut dk qu (execSmul core s) := by
  unfold execSmul
  repeat' first
    | with_reducible apply KeepsOut.next
    | with_reducible apply KeepsOut.ite
    | (intro)
    | with_reducible assumption
    | with_reducible apply State.sbOp_keeps

theorem execSand_keeps {s : State} (h : Keeps dk qu s) (core : Fin 192) :
    KeepsOut dk qu (execSand core s) := by
  unfold execSand
  repeat' first
    | with_reducible apply KeepsOut.next
    | with_reducible apply KeepsOut.ite
    | (intro)
    | with_reducible assumption
    | with_reducible apply State.sbOp_keeps

theorem execSor_keeps {s : State} (h : Keeps dk qu s) (core : Fin 192) :
    KeepsOut dk qu (execSor core s) := by
  unfold execSor
  repeat' first
    | with_reducible apply KeepsOut.next
    | with_reducible apply KeepsOut.ite
    | (intro)
    | with_reducible assumption
    | with_reducible apply State.sbOp_keeps

theorem execSxor_keeps {s : State} (h : Keeps dk qu s) (core : Fin 192) :
    KeepsOut dk qu (execSxor core s) := by
  unfold execSxor
  repeat' first
    | with_reducible apply KeepsOut.next
    | with_reducible apply KeepsOut.ite
    | (intro)
    | with_reducible assumption
    | with_reducible apply State.sbOp_keeps

theorem execSshl_keeps {s : State} (h : Keeps dk qu s) (core : Fin 192) :
    KeepsOut dk qu (execSshl core s) := by
  unfold execSshl
  repeat' first
    | with_reducible apply KeepsOut.next
    | with_reducible apply KeepsOut.ite
    | (intro)
    | with_reducible assumption
    | with_reducible apply State.sbOp_keeps

theorem execSshr_keeps {s : State} (h : Keeps dk qu s) (core : Fin 192) :
    KeepsOut dk qu (execSshr core s) := by
  unfold execSshr
  repeat' first
    | with_reducible apply KeepsOut.next
    | with_reducible apply KeepsOut.ite
    | (intro)
    | with_reducible assumption
    | with_reducible apply State.sbOp_keeps

theorem execSshru_keeps {s : State} (h : Keeps dk qu s) (core : Fin 192) :
    KeepsOut dk qu (execSshru core s) := by
  unfold execSshru
  repeat' first
    | with_reducible apply KeepsOut.next
    | with_reducible apply KeepsOut.ite
    | (intro)
    | with_reducible assumption
    | with_reducible apply State.sbOp_keeps

theorem execSslt_keeps {s : State} (h : Keeps dk qu s) (core : Fin 192) :
    KeepsOut dk qu (execSslt core s) := by
  unfold execSslt
  repeat' first
    | with_reducible apply KeepsOut.next
    | with_reducible apply KeepsOut.ite
    | (intro)
    | with_reducible assumption
    | with_reducible apply State.sbOp_keeps

theorem execSsltu_keeps {s : State} (h : Keeps dk qu s) (core : Fin 192) :
    KeepsOut dk qu (execSsltu core s) := by
  unfold execSsltu
  repeat' first
    | with_reducible apply KeepsOut.next
    | with_reducible apply KeepsOut.ite
    | (intro)
    | with_reducible assumption
    | with_reducible apply State.sbOp_keeps

theorem execSmin_keeps {s : State} (h : Keeps dk qu s) (core : Fin 192) :
    KeepsOut dk qu (execSmin core s) := by
  unfold execSmin
  repeat' first
    | with_reducible apply KeepsOut.next
    | with_reducible apply KeepsOut.ite
    | (intro)
    | with_reducible assumption
    | with_reducible apply State.sbOp_keeps

theorem execSmax_keeps {s : State} (h : Keeps dk qu s) (core : Fin 192) :
    KeepsOut dk qu (execSmax core s) := by
  unfold execSmax
  repeat' first
    | with_reducible apply KeepsOut.next
    | with_reducible apply KeepsOut.ite
    | (intro)
    | with_reducible assumption
    | with_reducible apply State.sbOp_keeps

theorem execSaddi_keeps {s : State} (h : Keeps dk qu s) (core : Fin 192) :
    KeepsOut dk qu (execSaddi core s) := by
  unfold execSaddi
  repeat' first
    | with_reducible apply KeepsOut.next
    | with_reducible apply KeepsOut.ite
    | (intro)
    | with_reducible assumption
    | with_reducible apply State.sbOp_keeps

theorem execSmovi_keeps {s : State} (h : Keeps dk qu s) (core : Fin 192) :
    KeepsOut dk qu (execSmovi core s) := by
  unfold execSmovi
  repeat' first
    | with_reducible apply KeepsOut.next
    | with_reducible apply KeepsOut.ite
    | (intro)
    | with_reducible assumption
    | with_reducible apply State.sbOp_keeps

theorem execSmovhi_keeps {s : State} (h : Keeps dk qu s) (core : Fin 192) :
    KeepsOut dk qu (execSmovhi core s) := by
  unfold execSmovhi
  repeat' first
    | with_reducible apply KeepsOut.next
    | with_reducible apply KeepsOut.ite
    | (intro)
    | with_reducible assumption
    | with_reducible apply State.sbOp_keeps

theorem execMovm_keeps {s : State} (h : Keeps dk qu s) (core : Fin 192) :
    KeepsOut dk qu (execMovm core s) := by
  unfold execMovm
  repeat' first
    | with_reducible apply KeepsOut.next
    | with_reducible apply KeepsOut.ite
    | (intro)
    | with_reducible assumption
    | with_reducible apply State.sbOp_keeps

theorem execMovlc_keeps {s : State} (h : Keeps dk qu s) (core : Fin 192) :
    KeepsOut dk qu (execMovlc core s) := by
  unfold execMovlc
  repeat' first
    | with_reducible apply KeepsOut.next
    | with_reducible apply KeepsOut.ite
    | (intro)
    | with_reducible assumption
    | with_reducible apply State.sbOp_keeps

theorem execMovl_keeps {s : State} (h : Keeps dk qu s) (core : Fin 192) :
    KeepsOut dk qu (execMovl core s) := by
  unfold execMovl
  repeat' first
    | with_reducible apply KeepsOut.next
    | with_reducible apply KeepsOut.ite
    | (intro)
    | with_reducible assumption
    | with_reducible apply State.sbOp_keeps

theorem execMovp_keeps {s : State} (h : Keeps dk qu s) (core : Fin 192) :
    KeepsOut dk qu (execMovp core s) := by
  unfold execMovp
  repeat' first
    | with_reducible apply KeepsOut.next
    | with_reducible apply KeepsOut.ite
    | (intro)
    | with_reducible assumption
    | with_reducible apply State.sbOp_keeps

theorem execMova_keeps {s : State} (h : Keeps dk qu s) (core : Fin 192) :
    KeepsOut dk qu (execMova core s) := by
  unfold execMova
  repeat' first
    | with_reducible apply KeepsOut.next
    | with_reducible apply KeepsOut.ite
    | (intro)
    | with_reducible assumption
    | with_reducible apply State.sbOp_keeps

theorem execMovb_keeps {s : State} (h : Keeps dk qu s) (core : Fin 192) :
    KeepsOut dk qu (execMovb core s) := by
  unfold execMovb
  repeat' first
    | with_reducible apply KeepsOut.next
    | with_reducible apply KeepsOut.ite
    | (intro)
    | with_reducible assumption
    | with_reducible apply State.sbOp_keeps

theorem execMovs_keeps {s : State} (h : Keeps dk qu s) (core : Fin 192) :
    KeepsOut dk qu (execMovs core s) := by
  unfold execMovs
  repeat' first
    | with_reducible apply KeepsOut.next
    | with_reducible apply KeepsOut.ite
    | (intro)
    | with_reducible assumption
    | with_reducible apply State.sbOp_keeps

theorem execSatclr_keeps {s : State} (h : Keeps dk qu s) (core : Fin 192) :
    KeepsOut dk qu (execSatclr core s) := by
  unfold execSatclr
  repeat' first
    | with_reducible apply KeepsOut.next
    | with_reducible apply KeepsOut.ite
    | (intro)
    | with_reducible assumption
    | with_reducible apply State.sbOp_keeps

theorem execBeq_keeps {s : State} (h : Keeps dk qu s) (core : Fin 192) :
    KeepsOut dk qu (execBeq core s) := by
  unfold execBeq
  repeat' first
    | with_reducible apply KeepsOut.next
    | with_reducible apply KeepsOut.ite
    | (intro)
    | with_reducible assumption
    | with_reducible apply State.sbOp_keeps

theorem execBne_keeps {s : State} (h : Keeps dk qu s) (core : Fin 192) :
    KeepsOut dk qu (execBne core s) := by
  unfold execBne
  repeat' first
    | with_reducible apply KeepsOut.next
    | with_reducible apply KeepsOut.ite
    | (intro)
    | with_reducible assumption
    | with_reducible apply State.sbOp_keeps

theorem execBlt_keeps {s : State} (h : Keeps dk qu s) (core : Fin 192) :
    KeepsOut dk qu (execBlt core s) := by
  unfold execBlt
  repeat' first
    | with_reducible apply KeepsOut.next
    | with_reducible apply KeepsOut.ite
    | (intro)
    | with_reducible assumption
    | with_reducible apply State.sbOp_keeps

theorem execBge_keeps {s : State} (h : Keeps dk qu s) (core : Fin 192) :
    KeepsOut dk qu (execBge core s) := by
  unfold execBge
  repeat' first
    | with_reducible apply KeepsOut.next
    | with_reducible apply KeepsOut.ite
    | (intro)
    | with_reducible assumption
    | with_reducible apply State.sbOp_keeps

theorem execJ_keeps {s : State} (h : Keeps dk qu s) (core : Fin 192) :
    KeepsOut dk qu (execJ core s) := by
  unfold execJ
  repeat' first
    | with_reducible apply KeepsOut.next
    | with_reducible apply KeepsOut.ite
    | (intro)
    | with_reducible assumption
    | with_reducible apply State.sbOp_keeps

theorem execJal_keeps {s : State} (h : Keeps dk qu s) (core : Fin 192) :
    KeepsOut dk qu (execJal core s) := by
  unfold execJal
  repeat' first
    | with_reducible apply KeepsOut.next
    | with_reducible apply KeepsOut.ite
    | (intro)
    | with_reducible assumption
    | with_reducible apply State.sbOp_keeps

theorem execJr_keeps {s : State} (h : Keeps dk qu s) (core : Fin 192) :
    KeepsOut dk qu (execJr core s) := by
  unfold execJr
  repeat' first
    | with_reducible apply KeepsOut.next
    | with_reducible apply KeepsOut.ite
    | (intro)
    | with_reducible assumption
    | with_reducible apply State.sbOp_keeps

theorem execBpany_keeps {s : State} (h : Keeps dk qu s) (core : Fin 192) :
    KeepsOut dk qu (execBpany core s) := by
  unfold execBpany
  repeat' first
    | with_reducible apply KeepsOut.next
    | with_reducible apply KeepsOut.ite
    | (intro)
    | with_reducible assumption
    | with_reducible apply State.sbOp_keeps

theorem execBpnone_keeps {s : State} (h : Keeps dk qu s) (core : Fin 192) :
    KeepsOut dk qu (execBpnone core s) := by
  unfold execBpnone
  repeat' first
    | with_reducible apply KeepsOut.next
    | with_reducible apply KeepsOut.ite
    | (intro)
    | with_reducible assumption
    | with_reducible apply State.sbOp_keeps

theorem execCstep_keeps {s : State} (h : Keeps dk qu s) (core : Fin 192) :
    KeepsOut dk qu (execCstep core s) := by
  unfold execCstep
  repeat' first
    | with_reducible apply KeepsOut.next
    | with_reducible apply KeepsOut.ite
    | (intro)
    | with_reducible assumption
    | with_reducible apply State.sbOp_keeps

theorem execCturn_keeps {s : State} (h : Keeps dk qu s) (core : Fin 192) :
    KeepsOut dk qu (execCturn core s) := by
  unfold execCturn
  repeat' first
    | with_reducible apply KeepsOut.next
    | with_reducible apply KeepsOut.ite
    | (intro)
    | with_reducible assumption
    | with_reducible apply State.sbOp_keeps

theorem execRep_keeps {s : State} (h : Keeps dk qu s) (core : Fin 192) :
    KeepsOut dk qu (execRep core s) := by
  unfold execRep
  repeat' first
    | with_reducible apply KeepsOut.next
    | with_reducible apply KeepsOut.ite
    | (intro)
    | with_reducible assumption
    | with_reducible apply State.sbOp_keeps

theorem execTake_keeps {s : State} (h : Keeps dk qu s) (core : Fin 192) :
    KeepsOut dk qu (execTake core s) := by
  unfold execTake
  repeat' first
    | with_reducible apply KeepsOut.next
    | with_reducible apply KeepsOut.ite
    | (intro)
    | with_reducible assumption
    | with_reducible apply State.sbOp_keeps

theorem execDone_keeps {s : State} (h : Keeps dk qu s) (core : Fin 192) :
    KeepsOut dk qu (execDone core s) := by
  unfold execDone
  repeat' first
    | with_reducible apply KeepsOut.next
    | with_reducible apply KeepsOut.ite
    | (intro)
    | with_reducible assumption
    | with_reducible apply State.sbOp_keeps

theorem execFence_keeps {s : State} (h : Keeps dk qu s) (core : Fin 192) :
    KeepsOut dk qu (execFence core s) := by
  unfold execFence
  repeat' first
    | with_reducible apply KeepsOut.next
    | with_reducible apply KeepsOut.ite
    | (intro)
    | with_reducible assumption
    | with_reducible apply State.sbOp_keeps

theorem execTrap_keeps {s : State} (h : Keeps dk qu s) (core : Fin 192) :
    KeepsOut dk qu (execTrap core s) := by
  unfold execTrap
  repeat' first
    | with_reducible apply KeepsOut.next
    | with_reducible apply KeepsOut.ite
    | (intro)
    | with_reducible assumption
    | with_reducible apply State.sbOp_keeps

theorem execCmuw_keeps {s : State} (h : Keeps dk qu s) (core : Fin 192) :
    KeepsOut dk qu (execCmuw core s) := by
  unfold execCmuw
  repeat' first
    | with_reducible apply KeepsOut.next
    | with_reducible apply KeepsOut.ite
    | (intro)
    | with_reducible assumption
    | with_reducible apply State.setCore_keeps
    | with_reducible apply State.setCmu_keeps
    | with_reducible apply State.finishBundle_keeps
    | with_reducible apply State.stageSlot_keeps
    | with_reducible apply Keeps.ite
    | (dsimp only)
    | split

theorem execSnop_keeps {s : State} (h : Keeps dk qu s) (core : Fin 192) :
    KeepsOut dk qu (execSnop core s) := by
  unfold execSnop
  repeat' first
    | with_reducible apply KeepsOut.next
    | with_reducible apply KeepsOut.ite
    | (intro)
    | with_reducible assumption
    | with_reducible apply State.sbOp_keeps

theorem execTakeWake_keeps {s : State} (h : Keeps dk qu s) (core : Fin 192) :
    KeepsOut dk qu (execTakeWake core s) := by
  unfold execTakeWake
  repeat' first
    | with_reducible apply KeepsOut.next
    | with_reducible apply KeepsOut.ite
    | (intro)
    | with_reducible assumption
    | with_reducible apply State.takeNext_keeps

theorem execIllegal_keeps {s : State} (h : Keeps dk qu s) (core : Fin 192) :
    KeepsOut dk qu (execIllegal core s) := by
  unfold execIllegal
  repeat' first
    | with_reducible apply KeepsOut.next
    | with_reducible apply KeepsOut.ite
    | (intro)
    | with_reducible assumption
    | with_reducible apply State.countEvent_keeps
    | with_reducible apply State.raiseExc_keeps
    | with_reducible apply Keeps.ite
    | (dsimp only)
    | split

theorem State.remoteRead_keeps {s : State} (h : Keeps dk qu s) (c a n : Nat) :
    Keeps dk qu (State.remoteRead s c a n).2.2 := by
  unfold State.remoteRead
  repeat' first
    | (intro)
    | with_reducible assumption
    | with_reducible apply State.readMem_keeps
    | refine State.readMem_keeps_eq ?_ (by with_reducible assumption)
    | with_reducible apply State.busGet_keeps
    | refine State.busGet_keeps_eq ?_ (by with_reducible assumption)
    | with_reducible apply Keeps.ite
    | (dsimp only)
    | split

theorem State.remoteRead_keeps_eq {s : State} (h : Keeps dk qu s) {c a n : Nat} {x0 : BusStatus} {x1 : List (Byte × Bool)} {sv : State}
    (eqn : State.remoteRead s c a n = (x0, x1, sv)) : Keeps dk qu sv := by
  have := State.remoteRead_keeps h c a n
  rwa [eqn] at this

theorem execRemoteLoadReturn_keeps {s : State} (h : Keeps dk qu s) (core : Fin 192) :
    KeepsOut dk qu (execRemoteLoadReturn core s) := by
  unfold execRemoteLoadReturn
  repeat' first
    | with_reducible apply KeepsOut.next
    | with_reducible apply KeepsOut.ite
    | (intro)
    | with_reducible assumption
    | with_reducible apply State.took_keeps
    | with_reducible apply State.raiseExc_keeps
    | with_reducible apply State.retire_keeps
    | with_reducible apply State.remoteRead_keeps
    | refine State.remoteRead_keeps_eq ?_ (by with_reducible assumption)
    | with_reducible apply Keeps.ite
    | (dsimp only)
    | split

theorem execStoreAck_keeps {s : State} (h : Keeps dk qu s) (core : Fin 192) :
    KeepsOut dk qu (execStoreAck core s) := by
  unfold execStoreAck
  repeat' first
    | with_reducible apply KeepsOut.next
    | with_reducible apply KeepsOut.ite
    | (intro)
    | with_reducible assumption
    | with_reducible apply State.writeMem_keeps
    | with_reducible apply State.busPut_keeps
    | refine State.busPut_keeps_eq ?_ (by with_reducible assumption)
    | with_reducible apply State.setCore_keeps
    | with_reducible apply State.tryEnd_keeps
    | with_reducible apply Keeps.ite
    | (with_reducible apply Keeps.foldl)
    | (with_reducible apply Keeps.foldl_snd)
    | (with_reducible apply Keeps.foldl_snd2)
    | (with_reducible apply Keeps.foldl_fst)
    | (refine Keeps.foldl_snd_eq ?_ ?_ (by with_reducible assumption))
    | (refine Keeps.foldl_snd2_eq ?_ ?_ (by with_reducible assumption))
    | (refine Keeps.foldl_fst_eq ?_ ?_ (by with_reducible assumption))
    | (dsimp only)
    | split

theorem execHang_keeps {s : State} (h : Keeps dk qu s) (core : Fin 192) :
    KeepsOut dk qu (execHang core s) := by
  unfold execHang
  repeat' first
    | with_reducible apply KeepsOut.next
    | with_reducible apply KeepsOut.ite
    | (intro)
    | with_reducible assumption
    | with_reducible apply State.reportFault_keeps
    | with_reducible apply State.raiseExc_keeps

theorem State.settCtl_keeps {s : State} (h : Keeps dk qu s) (c : Nat) (v : Word) :
    Keeps dk qu (State.settCtl s c v) := by
  unfold State.settCtl
  repeat' first
    | (intro)
    | with_reducible assumption
    | with_reducible apply State.storeReg_keeps
    | with_reducible apply State.setCore_keeps
    | with_reducible apply Keeps.ite

theorem execHaltReq_keeps {s : State} (h : Keeps dk qu s) (req : Fin 14) (sel : BitVec 10) (value : Word) :
    KeepsOut dk qu (execHaltReq req sel value s) := by
  unfold execHaltReq
  repeat' first
    | with_reducible apply KeepsOut.next
    | with_reducible apply KeepsOut.ite
    | (intro)
    | with_reducible assumption
    | with_reducible apply State.hubEach_keeps
    | with_reducible apply State.settCtl_keeps

theorem execStep_keeps {s : State} (h : Keeps dk qu s) (req : Fin 14) (sel : BitVec 10) :
    KeepsOut dk qu (execStep req sel s) := by
  unfold execStep
  repeat' first
    | with_reducible apply KeepsOut.next
    | with_reducible apply KeepsOut.ite
    | (intro)
    | with_reducible assumption
    | with_reducible apply State.hubEach_keeps
    | with_reducible apply State.settCtl_keeps

theorem execCoreHalt_keeps {s : State} (h : Keeps dk qu s) (core : Fin 192) :
    KeepsOut dk qu (execCoreHalt core s) := by
  unfold execCoreHalt
  repeat' first
    | with_reducible apply KeepsOut.next
    | with_reducible apply KeepsOut.ite
    | (intro)
    | with_reducible assumption
    | with_reducible apply State.reclaimAll_keeps
    | with_reducible apply State.setCore_keeps

theorem State.coreEnWrite_keeps {s : State} (h : Keeps dk qu s) (n : Nat) (v : Word) :
    Keeps dk qu (State.coreEnWrite s n v) := by
  unfold State.coreEnWrite
  repeat' first
    | (intro)
    | with_reducible assumption
    | with_reducible apply State.reclaimAll_keeps
    | with_reducible apply State.storeReg_keeps
    | with_reducible apply Keeps.ite
    | (with_reducible apply Keeps.foldl)

theorem execCoreEnWrite_keeps {s : State} (h : Keeps dk qu s) (req : Fin 14) (sel : BitVec 10) (value : Word) :
    KeepsOut dk qu (execCoreEnWrite req sel value s) := by
  unfold execCoreEnWrite
  repeat' first
    | with_reducible apply KeepsOut.next
    | with_reducible apply KeepsOut.ite
    | (intro)
    | with_reducible assumption
    | with_reducible apply State.hubEach_keeps
    | with_reducible apply State.coreEnWrite_keeps

/-! ## Cmu -/

theorem State.putElem_keeps {s : State} (h : Keeps dk qu s) (a : Nat) (x : Cx) (poison : Bool) :
    Keeps dk qu (State.putElem s a x poison) := by
  unfold State.putElem
  repeat' first
    | (intro)
    | with_reducible assumption
    | with_reducible apply State.writeMem_keeps

theorem State.putMatrix_keeps {s : State} (h : Keeps dk qu s) (r : CmuRun) (n m : Nat) (f : Nat → Nat → Cx) (bad : Nat → Nat → Bool) :
    Keeps dk qu (State.putMatrix s r n m f bad) := by
  unfold State.putMatrix
  repeat' first
    | (intro)
    | with_reducible assumption
    | with_reducible apply State.putElem_keeps
    | with_reducible apply Keeps.ite
    | (with_reducible apply Keeps.foldl)

theorem State.cmuDone_keeps {s : State} (h : Keeps dk qu s) (n : Nat) (r : CmuRun) :
    Keeps dk qu (State.cmuDone s n r) := by
  unfold State.cmuDone
  repeat' first
    | (intro)
    | with_reducible assumption
    | with_reducible apply State.setCmu_keeps

theorem State.cmuProduct_keeps {s : State} (h : Keeps dk qu s) (n : Nat) (r : CmuRun) (rows cols : Nat) (f : Nat → Nat → Cx) (bad : Nat → Nat → Bool) :
    Keeps dk qu (State.cmuProduct s n r rows cols f bad) := by
  unfold State.cmuProduct
  repeat' first
    | (intro)
    | with_reducible assumption
    | with_reducible apply State.putMatrix_keeps
    | with_reducible apply State.cmuDone_keeps

theorem State.unitChol_keeps {s : State} (h : Keeps dk qu s) (n : Nat) (a : Nat → Nat → Cx) :
    Keeps dk qu (State.unitChol s n a).2 := by
  unfold State.unitChol
  repeat' first
    | (intro)
    | with_reducible assumption
    | with_reducible apply Keeps.ite
    | (dsimp only)
    | split
    | (refine Keeps.any ?_ ?_; rotate_left; rfl)

theorem State.unitSolve_keeps {s : State} (h : Keeps dk qu s) (n m : Nat) (x : Nat → Nat → Cx) (den lexp : Int) :
    Keeps dk qu (State.unitSolve s n m x den lexp).2 := by
  unfold State.unitSolve
  repeat' first
    | (intro)
    | with_reducible assumption
    | with_reducible apply Keeps.ite
    | (dsimp only)
    | split
    | (refine Keeps.any ?_ ?_; rotate_left; rfl)

theorem State.cmuCommand_keeps {s : State} (h : Keeps dk qu s) (n op : Nat) (f : CmuRun → State)
    (hf : ∀ r, Keeps dk qu (f r)) : Keeps dk qu (State.cmuCommand s n op f) := by
  unfold State.cmuCommand
  split
  · exact h
  · exact Keeps.ite (State.countEvent_keeps (hf _) _ _ _ _) (State.cmuDone_keeps h _ _)

theorem execCmuCommandStart_keeps {s : State} (h : Keeps dk qu s) (course : Fin 24) :
    KeepsOut dk qu (execCmuCommandStart course s) := by
  unfold execCmuCommandStart
  repeat' first
    | with_reducible apply KeepsOut.next
    | with_reducible apply KeepsOut.ite
    | (intro)
    | with_reducible assumption
    | with_reducible apply State.setCmu_keeps
    | with_reducible apply State.syncCmu_keeps
    | with_reducible apply Keeps.ite
    | (dsimp only)
    | split

theorem execMatmul_keeps {s : State} (h : Keeps dk qu s) (course : Fin 24) :
    KeepsOut dk qu (execMatmul course s) := by
  unfold execMatmul
  repeat' first
    | with_reducible apply KeepsOut.next
    | with_reducible apply KeepsOut.ite
    | (intro)
    | with_reducible assumption
    | with_reducible apply State.cmuProduct_keeps
    | with_reducible apply State.cmuCommand_keeps

theorem execMatmulH_keeps {s : State} (h : Keeps dk qu s) (course : Fin 24) :
    KeepsOut dk qu (execMatmulH course s) := by
  unfold execMatmulH
  repeat' first
    | with_reducible apply KeepsOut.next
    | with_reducible apply KeepsOut.ite
    | (intro)
    | with_reducible assumption
    | with_reducible apply State.cmuProduct_keeps
    | with_reducible apply State.cmuCommand_keeps

theorem execGram_keeps {s : State} (h : Keeps dk qu s) (course : Fin 24) :
    KeepsOut dk qu (execGram course s) := by
  unfold execGram
  repeat' first
    | with_reducible apply KeepsOut.next
    | with_reducible apply KeepsOut.ite
    | (intro)
    | with_reducible assumption
    | with_reducible apply State.putMatrix_keeps
    | with_reducible apply State.cmuDone_keeps
    | with_reducible apply State.cmuCommand_keeps

theorem execChol_keeps {s : State} (h : Keeps dk qu s) (course : Fin 24) :
    KeepsOut dk qu (execChol course s) := by
  unfold execChol
  repeat' first
    | with_reducible apply KeepsOut.next
    | with_reducible apply KeepsOut.ite
    | (intro)
    | with_reducible assumption
    | with_reducible apply State.putMatrix_keeps
    | with_reducible apply State.cmuDone_keeps
    | with_reducible apply State.unitChol_keeps
    | with_reducible apply State.cmuCommand_keeps

theorem State.cmuSolve_keeps {s : State} (h : Keeps dk qu s) (n : Nat) (r : CmuRun) (upper : Bool) :
    Keeps dk qu (State.cmuSolve s n r upper) := by
  unfold State.cmuSolve
  repeat' first
    | (intro)
    | with_reducible assumption
    | with_reducible apply State.putMatrix_keeps
    | with_reducible apply State.cmuDone_keeps
    | with_reducible apply State.unitSolve_keeps

theorem execTrsvL_keeps {s : State} (h : Keeps dk qu s) (course : Fin 24) :
    KeepsOut dk qu (execTrsvL course s) := by
  unfold execTrsvL
  repeat' first
    | with_reducible apply KeepsOut.next
    | with_reducible apply KeepsOut.ite
    | (intro)
    | with_reducible assumption
    | with_reducible apply State.cmuCommand_keeps
    | with_reducible apply State.cmuSolve_keeps

theorem execTrsvLh_keeps {s : State} (h : Keeps dk qu s) (course : Fin 24) :
    KeepsOut dk qu (execTrsvLh course s) := by
  unfold execTrsvLh
  repeat' first
    | with_reducible apply KeepsOut.next
    | with_reducible apply KeepsOut.ite
    | (intro)
    | with_reducible assumption
    | with_reducible apply State.cmuCommand_keeps
    | with_reducible apply State.cmuSolve_keeps

theorem execCholSolve_keeps {s : State} (h : Keeps dk qu s) (course : Fin 24) :
    KeepsOut dk qu (execCholSolve course s) := by
  unfold execCholSolve
  repeat' first
    | with_reducible apply KeepsOut.next
    | with_reducible apply KeepsOut.ite
    | (intro)
    | with_reducible assumption
    | with_reducible apply State.putMatrix_keeps
    | with_reducible apply State.cmuDone_keeps
    | with_reducible apply State.unitChol_keeps
    | with_reducible apply State.unitSolve_keeps
    | with_reducible apply State.cmuCommand_keeps

theorem execCmuNoOperation_keeps {s : State} (h : Keeps dk qu s) (course : Fin 24) :
    KeepsOut dk qu (execCmuNoOperation course s) := by
  unfold execCmuNoOperation
  repeat' first
    | with_reducible apply KeepsOut.next
    | with_reducible apply KeepsOut.ite
    | (intro)
    | with_reducible assumption
    | with_reducible apply State.cmuDone_keeps
    | with_reducible apply Keeps.ite
    | (dsimp only)
    | split

theorem execCmuStatusWrite_keeps {s : State} (h : Keeps dk qu s) (course : Fin 24) :
    KeepsOut dk qu (execCmuStatusWrite course s) := by
  unfold execCmuStatusWrite
  repeat' first
    | with_reducible apply KeepsOut.next
    | with_reducible apply KeepsOut.ite
    | (intro)
    | with_reducible assumption
    | with_reducible apply State.setFld_keeps
    | with_reducible apply State.addFld_keeps
    | with_reducible apply State.takeFree_keeps
    | refine State.takeFree_keeps_eq ?_ (by with_reducible assumption)
    | with_reducible apply State.post_keeps
    | with_reducible apply State.writeMem_keeps
    | with_reducible apply State.setCmu_keeps
    | with_reducible apply State.syncCmu_keeps
    | with_reducible apply State.tryEnd_keeps
    | with_reducible apply Keeps.ite
    | (dsimp only)
    | split

/-! ## FenceOps -/

theorem State.setEng_keeps {s : State} (h : Keeps dk qu s) (u : Nat) (e : Engine) :
    Keeps dk qu (State.setEng s u e) := by
  unfold State.setEng
  repeat' first
    | (intro)
    | with_reducible assumption
    | with_reducible apply Keeps.ite
    | (dsimp only)
    | split
    | (refine Keeps.any ?_ ?_; rotate_left; rfl)

theorem State.setE_keeps {s : State} (h : Keeps dk qu s) (u : Nat) (f : Field) (v : Nat) :
    Keeps dk qu (State.setE s u f v) := by
  unfold State.setE
  repeat' first
    | (intro)
    | with_reducible assumption
    | with_reducible apply State.setFld_keeps

theorem State.addE_keeps {s : State} (h : Keeps dk qu s) (u : Nat) (f : Field) (n : Nat) :
    Keeps dk qu (State.addE s u f n) := by
  unfold State.addE
  repeat' first
    | (intro)
    | with_reducible assumption
    | with_reducible apply State.addFld_keeps

theorem State.setPhase_keeps {s : State} (h : Keeps dk qu s) (cls inst : Nat) (p : FencePhase) :
    Keeps dk qu (State.setPhase s cls inst p) := by
  unfold State.setPhase
  repeat' first
    | (intro)
    | with_reducible assumption
    | with_reducible apply State.setFence_keeps
    | with_reducible apply Keeps.ite
    | (dsimp only)
    | split

theorem State.abandon_keeps {s : State} (h : Keeps dk qu s) (u : Nat) :
    Keeps dk qu (State.abandon s u) := by
  unfold State.abandon
  repeat' first
    | (intro)
    | with_reducible assumption
    | with_reducible apply State.complete_keeps
    | with_reducible apply Keeps.ite
    | (with_reducible apply Keeps.foldl)

theorem State.endUnitRecoveries_keeps {s : State} (h : Keeps dk qu s) (cls inst : Nat) :
    Keeps dk qu (State.endUnitRecoveries s cls inst) := by
  unfold State.endUnitRecoveries
  repeat' first
    | (intro)
    | with_reducible assumption
    | with_reducible apply State.recovered_keeps
    | with_reducible apply Keeps.ite
    | (with_reducible apply Keeps.foldl)

theorem State.unitDrained_keeps {s : State} (h : Keeps dk qu s) (cls inst : Nat) :
    Keeps dk qu (State.unitDrained s cls inst) := by
  unfold State.unitDrained
  repeat' first
    | (intro)
    | with_reducible assumption
    | with_reducible apply State.setPhase_keeps
    | with_reducible apply State.abandon_keeps
    | with_reducible apply State.endUnitRecoveries_keeps
    | with_reducible apply Keeps.ite
    | (with_reducible apply Keeps.foldl)
    | (with_reducible apply Keeps.foldl_snd)
    | (with_reducible apply Keeps.foldl_snd2)
    | (with_reducible apply Keeps.foldl_fst)
    | (refine Keeps.foldl_snd_eq ?_ ?_ (by with_reducible assumption))
    | (refine Keeps.foldl_snd2_eq ?_ ?_ (by with_reducible assumption))
    | (refine Keeps.foldl_fst_eq ?_ ?_ (by with_reducible assumption))
    | (dsimp only)
    | split

theorem State.portDrained_keeps {s : State} (h : Keeps dk qu s) (d : Nat) :
    Keeps dk qu (State.portDrained s d) := by
  unfold State.portDrained
  repeat' first
    | (intro)
    | with_reducible assumption
    | with_reducible apply State.unitDrained_keeps
    | with_reducible apply Keeps.ite
    | (with_reducible apply Keeps.foldl)

theorem State.stopEngine_keeps {s : State} (h : Keeps dk qu s) (cls inst : Nat) :
    Keeps dk qu (State.stopEngine s cls inst) := by
  unfold State.stopEngine
  repeat' first
    | (intro)
    | with_reducible assumption
    | with_reducible apply State.setEng_keeps
    | with_reducible apply State.setE_keeps
    | with_reducible apply State.abandon_keeps

theorem State.beginDrain_keeps {s : State} (h : Keeps dk qu s) (cls inst req : Nat) :
    Keeps dk qu (State.beginDrain s cls inst req) := by
  unfold State.beginDrain
  repeat' first
    | (intro)
    | with_reducible assumption
    | with_reducible apply State.setFld_keeps
    | with_reducible apply State.askFence_keeps
    | with_reducible apply State.reclaimAll_keeps
    | with_reducible apply State.setTxState_keeps
    | with_reducible apply State.rxDown_keeps
    | with_reducible apply State.macDown_keeps
    | with_reducible apply State.setPhase_keeps
    | with_reducible apply State.endUnitRecoveries_keeps
    | with_reducible apply State.unitDrained_keeps
    | with_reducible apply State.stopEngine_keeps
    | with_reducible apply Keeps.ite
    | (with_reducible apply Keeps.foldl)
    | (with_reducible apply Keeps.foldl_snd)
    | (with_reducible apply Keeps.foldl_snd2)
    | (with_reducible apply Keeps.foldl_fst)
    | (refine Keeps.foldl_snd_eq ?_ ?_ (by with_reducible assumption))
    | (refine Keeps.foldl_snd2_eq ?_ ?_ (by with_reducible assumption))
    | (refine Keeps.foldl_fst_eq ?_ ?_ (by with_reducible assumption))
    | (dsimp only)
    | split

theorem State.startFence_keeps {s : State} (h : Keeps dk qu s) (cls inst : Nat) :
    Keeps dk qu (State.startFence s cls inst) := by
  unfold State.startFence
  repeat' first
    | (intro)
    | with_reducible assumption
    | with_reducible apply State.addFence_keeps
    | with_reducible apply State.askMending_keeps
    | with_reducible apply State.reclaimAll_keeps
    | with_reducible apply State.beginDrain_keeps
    | with_reducible apply Keeps.ite
    | (with_reducible apply Keeps.foldl)
    | (with_reducible apply Keeps.foldl_snd)
    | (with_reducible apply Keeps.foldl_snd2)
    | (with_reducible apply Keeps.foldl_fst)
    | (refine Keeps.foldl_snd_eq ?_ ?_ (by with_reducible assumption))
    | (refine Keeps.foldl_snd2_eq ?_ ?_ (by with_reducible assumption))
    | (refine Keeps.foldl_fst_eq ?_ ?_ (by with_reducible assumption))
    | (dsimp only)
    | split

theorem State.autoFence_keeps {s : State} (h : Keeps dk qu s) (cls inst : Nat) :
    Keeps dk qu (State.autoFence s cls inst) := by
  unfold State.autoFence
  repeat' first
    | (intro)
    | with_reducible assumption
    | with_reducible apply State.addFence_keeps
    | with_reducible apply State.setFence_keeps
    | with_reducible apply State.askMending_keeps
    | with_reducible apply State.beginDrain_keeps
    | with_reducible apply Keeps.ite
    | (dsimp only)
    | split

theorem State.settleFences_keeps {s : State} (h : Keeps dk qu s)  :
    Keeps dk qu (State.settleFences s) := by
  unfold State.settleFences
  repeat' first
    | (intro)
    | with_reducible assumption
    | with_reducible apply State.beginDrain_keeps
    | with_reducible apply Keeps.ite
    | (with_reducible apply Keeps.foldl)

theorem State.beginMode_keeps {s : State} (h : Keeps dk qu s) (to_ : Mode) (req : Nat) (op : Option (BitVec 16)) :
    Keeps dk qu (State.beginMode s to_ req op) := by
  unfold State.beginMode
  repeat' first
    | (intro)
    | with_reducible assumption
    | with_reducible apply State.reclaimAll_keeps
    | with_reducible apply State.startTransition_keeps
    | with_reducible apply Keeps.ite
    | (with_reducible apply Keeps.foldl)
    | (with_reducible apply Keeps.foldl_snd)
    | (with_reducible apply Keeps.foldl_snd2)
    | (with_reducible apply Keeps.foldl_fst)
    | (refine Keeps.foldl_snd_eq ?_ ?_ (by with_reducible assumption))
    | (refine Keeps.foldl_snd2_eq ?_ ?_ (by with_reducible assumption))
    | (refine Keeps.foldl_fst_eq ?_ ?_ (by with_reducible assumption))
    | (dsimp only)
    | split
    | (refine Keeps.any ?_ ?_; rotate_left; rfl)

/-! ## Engines -/

theorem State.engPost_keeps {s : State} (h : Keeps dk qu s) (u event sev detail : Nat) :
    Keeps dk qu (State.engPost s u event sev detail) := by
  unfold State.engPost
  repeat' first
    | (intro)
    | with_reducible assumption
    | with_reducible apply State.post_keeps

theorem State.engBeat_keeps {s : State} (h : Keeps dk qu s) (u : Nat) :
    Keeps dk qu (State.engBeat s u).2 := by
  unfold State.engBeat
  repeat' first
    | (intro)
    | with_reducible assumption
    | with_reducible apply State.setEng_keeps
    | with_reducible apply Keeps.ite
    | (dsimp only)
    | split

theorem State.engBeat_keeps_eq {s : State} (h : Keeps dk qu s) {u : Nat} {x0 : Bool} {sv : State}
    (eqn : State.engBeat s u = (x0, sv)) : Keeps dk qu sv := by
  have := State.engBeat_keeps h u
  rwa [eqn] at this

theorem State.engGet_keeps {s : State} (h : Keeps dk qu s) (u a n : Nat) :
    Keeps dk qu (State.engGet s u a n).2.2 := by
  unfold State.engGet
  repeat' first
    | (intro)
    | with_reducible assumption
    | with_reducible apply State.busRead_keeps
    | refine State.busRead_keeps_eq ?_ (by with_reducible assumption)
    | with_reducible apply State.took_keeps
    | with_reducible apply State.engBeat_keeps
    | refine State.engBeat_keeps_eq ?_ (by with_reducible assumption)
    | with_reducible apply Keeps.ite
    | (with_reducible apply Keeps.foldl)
    | (with_reducible apply Keeps.foldl_snd)
    | (with_reducible apply Keeps.foldl_snd2)
    | (with_reducible apply Keeps.foldl_fst)
    | (refine Keeps.foldl_snd_eq ?_ ?_ (by with_reducible assumption))
    | (refine Keeps.foldl_snd2_eq ?_ ?_ (by with_reducible assumption))
    | (refine Keeps.foldl_fst_eq ?_ ?_ (by with_reducible assumption))
    | (dsimp only)
    | split

theorem State.engGet_keeps_eq {s : State} (h : Keeps dk qu s) {u a n : Nat} {x0 : Bool} {x1 : List (Byte × Bool)} {sv : State}
    (eqn : State.engGet s u a n = (x0, x1, sv)) : Keeps dk qu sv := by
  have := State.engGet_keeps h u a n
  rwa [eqn] at this

theorem State.engPut_keeps {s : State} (h : Keeps dk qu s) (u a : Nat) (bytes : List (Byte × Bool)) :
    Keeps dk qu (State.engPut s u a bytes).2 := by
  unfold State.engPut
  repeat' first
    | (intro)
    | with_reducible assumption
    | with_reducible apply State.busWrite_keeps
    | refine State.busWrite_keeps_eq ?_ (by with_reducible assumption)
    | with_reducible apply State.engBeat_keeps
    | refine State.engBeat_keeps_eq ?_ (by with_reducible assumption)
    | with_reducible apply Keeps.ite
    | (with_reducible apply Keeps.foldl)
    | (with_reducible apply Keeps.foldl_snd)
    | (with_reducible apply Keeps.foldl_snd2)
    | (with_reducible apply Keeps.foldl_fst)
    | (refine Keeps.foldl_snd_eq ?_ ?_ (by with_reducible assumption))
    | (refine Keeps.foldl_snd2_eq ?_ ?_ (by with_reducible assumption))
    | (refine Keeps.foldl_fst_eq ?_ ?_ (by with_reducible assumption))
    | (dsimp only)
    | split

theorem State.engPut_keeps_eq {s : State} (h : Keeps dk qu s) {u a : Nat} {bytes : List (Byte × Bool)} {x0 : Bool} {sv : State}
    (eqn : State.engPut s u a bytes = (x0, sv)) : Keeps dk qu sv := by
  have := State.engPut_keeps h u a bytes
  rwa [eqn] at this

theorem State.engKeep_keeps {s : State} (h : Keeps dk qu s) (u i : Nat) (r : JobRes) :
    Keeps dk qu (State.engKeep s u i r) := by
  unfold State.engKeep
  repeat' first
    | (intro)
    | with_reducible assumption
    | with_reducible apply State.countAct_keeps
    | with_reducible apply State.setEng_keeps
    | with_reducible apply Keeps.ite
    | (with_reducible apply Keeps.foldl)

theorem State.beginJob_keeps_eq {s : State} (h : Keeps dk qu s) {u : Nat} {f : List Word → Nat → State → JobRes × State}
    (hf : ∀ w a s, Keeps dk qu s → Keeps dk qu (f w a s).2) {i : Nat} {r : JobRes} {sv : State}
    (eqn : State.beginJob s u f = some (i, r, sv)) : Keeps dk qu sv := by
  unfold State.beginJob at eqn
  split at eqn
  · cases eqn
  · rename_i i t s1 e
    have k := State.startHead_keeps_eq h e
    extract_lets s2 s3 at eqn
    have k3 : Keeps dk qu s3 := State.countEvent_keeps (State.setE_keeps (State.setE_keeps k _ _ _) _ _ _) _ _ _ _
    clear_value s2 s3
    split at eqn
    · simp only [Option.some.injEq, Prod.mk.injEq] at eqn
      exact eqn.2.2 ▸ k3
    · split at eqn
      rename_i ok bytes s4 e4
      have k4 := State.engGet_keeps_eq k3 e4
      split at eqn
      · extract_lets bs w at eqn
        simp only [Option.some.injEq, Prod.mk.injEq] at eqn
        have k5 := hf w t.allowance s4 k4
        rw [eqn.2] at k5
        exact k5
      · simp only [Option.some.injEq, Prod.mk.injEq] at eqn
        exact eqn.2.2 ▸ k4

theorem State.takeJob_keeps {s : State} (h : Keeps dk qu s) (u : Nat) (f : List Word → Nat → State → JobRes × State)
    (hf : ∀ w a s, Keeps dk qu s → Keeps dk qu (f w a s).2) : Keeps dk qu (State.takeJob s u f) := by
  unfold State.takeJob
  split
  · exact h
  · rename_i e
    exact State.engKeep_keeps (State.beginJob_keeps_eq h hf e) _ _ _

theorem State.jobRow_keeps {s : State} (h : Keeps dk qu s) (u type : Nat) (f : List Word → Nat → State → JobRes × State)
    (hf : ∀ w a s, Keeps dk qu s → Keeps dk qu (f w a s).2) : Keeps dk qu (State.jobRow s u type f) :=
  Keeps.ite (State.takeJob_keeps h _ _ hf) h

theorem State.checked_keeps {s : State} (h : Keeps dk qu s) (st : Nat) (tag : Word) (addrs : List Nat)
    (f : State → JobRes × State) (hf : ∀ s, Keeps dk qu s → Keeps dk qu (f s).2) :
    Keeps dk qu (State.checked s st tag addrs f).2 := by
  unfold State.checked
  split
  · exact hf s h
  · exact h

theorem State.ldpcDecode_keeps {s : State} (h : Keeps dk qu s) (u : Nat) (w : List Word) (allow : Nat) :
    Keeps dk qu (State.ldpcDecode u w allow s).2 := by
  unfold State.ldpcDecode
  repeat' first
    | (intro)
    | with_reducible assumption
    | with_reducible apply State.engGet_keeps
    | refine State.engGet_keeps_eq ?_ (by with_reducible assumption)
    | with_reducible apply State.engPut_keeps
    | refine State.engPut_keeps_eq ?_ (by with_reducible assumption)
    | with_reducible apply State.checked_keeps
    | with_reducible apply Keeps.ite
    | (dsimp only)
    | split

theorem State.ldpcDecode_keeps_eq {s : State} (h : Keeps dk qu s) {u : Nat} {w : List Word} {allow : Nat} {x0 : JobRes} {sv : State}
    (eqn : State.ldpcDecode u w allow s = (x0, sv)) : Keeps dk qu sv := by
  have := State.ldpcDecode_keeps h u w allow
  rwa [eqn] at this

theorem execLdpcDecode_keeps {s : State} (h : Keeps dk qu s) (engine : Fin 16) :
    KeepsOut dk qu (execLdpcDecode engine s) := by
  unfold execLdpcDecode
  repeat' first
    | with_reducible apply KeepsOut.next
    | with_reducible apply KeepsOut.ite
    | (intro)
    | with_reducible assumption
    | with_reducible apply State.jobRow_keeps
    | with_reducible apply State.ldpcDecode_keeps

theorem State.turboDecode_keeps {s : State} (h : Keeps dk qu s) (u : Nat) (w : List Word) (allow : Nat) :
    Keeps dk qu (State.turboDecode u w allow s).2 := by
  unfold State.turboDecode
  repeat' first
    | (intro)
    | with_reducible assumption
    | with_reducible apply State.drop_keeps
    | with_reducible apply State.engGet_keeps
    | refine State.engGet_keeps_eq ?_ (by with_reducible assumption)
    | with_reducible apply State.engPut_keeps
    | refine State.engPut_keeps_eq ?_ (by with_reducible assumption)
    | with_reducible apply State.checked_keeps
    | with_reducible apply Keeps.ite
    | (dsimp only)
    | split

theorem State.turboDecode_keeps_eq {s : State} (h : Keeps dk qu s) {u : Nat} {w : List Word} {allow : Nat} {x0 : JobRes} {sv : State}
    (eqn : State.turboDecode u w allow s = (x0, sv)) : Keeps dk qu sv := by
  have := State.turboDecode_keeps h u w allow
  rwa [eqn] at this

theorem execTurboDecode_keeps {s : State} (h : Keeps dk qu s) (engine : Fin 4) :
    KeepsOut dk qu (execTurboDecode engine s) := by
  unfold execTurboDecode
  repeat' first
    | with_reducible apply KeepsOut.next
    | with_reducible apply KeepsOut.ite
    | (intro)
    | with_reducible assumption
    | with_reducible apply State.jobRow_keeps
    | with_reducible apply State.turboDecode_keeps

theorem State.polarDecode_keeps {s : State} (h : Keeps dk qu s) (u : Nat) (w : List Word) (_allow : Nat) :
    Keeps dk qu (State.polarDecode u w _allow s).2 := by
  unfold State.polarDecode
  repeat' first
    | (intro)
    | with_reducible assumption
    | with_reducible apply State.drop_keeps
    | with_reducible apply State.engGet_keeps
    | refine State.engGet_keeps_eq ?_ (by with_reducible assumption)
    | with_reducible apply State.engPut_keeps
    | refine State.engPut_keeps_eq ?_ (by with_reducible assumption)
    | with_reducible apply State.checked_keeps
    | with_reducible apply Keeps.ite
    | (with_reducible apply Keeps.foldl)
    | (with_reducible apply Keeps.foldl_snd)
    | (with_reducible apply Keeps.foldl_snd2)
    | (with_reducible apply Keeps.foldl_fst)
    | (refine Keeps.foldl_snd_eq ?_ ?_ (by with_reducible assumption))
    | (refine Keeps.foldl_snd2_eq ?_ ?_ (by with_reducible assumption))
    | (refine Keeps.foldl_fst_eq ?_ ?_ (by with_reducible assumption))
    | (dsimp only)
    | split

theorem State.polarDecode_keeps_eq {s : State} (h : Keeps dk qu s) {u : Nat} {w : List Word} {_allow : Nat} {x0 : JobRes} {sv : State}
    (eqn : State.polarDecode u w _allow s = (x0, sv)) : Keeps dk qu sv := by
  have := State.polarDecode_keeps h u w _allow
  rwa [eqn] at this

theorem execPolarDecode_keeps {s : State} (h : Keeps dk qu s) (engine : Fin 4) :
    KeepsOut dk qu (execPolarDecode engine s) := by
  unfold execPolarDecode
  repeat' first
    | with_reducible apply KeepsOut.next
    | with_reducible apply KeepsOut.ite
    | (intro)
    | with_reducible assumption
    | with_reducible apply State.jobRow_keeps
    | with_reducible apply State.polarDecode_keeps

theorem State.ldpcEncode_keeps {s : State} (h : Keeps dk qu s) (u : Nat) (w : List Word) (_allow : Nat) :
    Keeps dk qu (State.ldpcEncode u w _allow s).2 := by
  unfold State.ldpcEncode
  repeat' first
    | (intro)
    | with_reducible assumption
    | with_reducible apply State.engGet_keeps
    | refine State.engGet_keeps_eq ?_ (by with_reducible assumption)
    | with_reducible apply State.engPut_keeps
    | refine State.engPut_keeps_eq ?_ (by with_reducible assumption)
    | with_reducible apply State.checked_keeps
    | with_reducible apply Keeps.ite
    | (dsimp only)
    | split
    | (refine Keeps.any ?_ ?_; rotate_left; rfl)

theorem State.ldpcEncode_keeps_eq {s : State} (h : Keeps dk qu s) {u : Nat} {w : List Word} {_allow : Nat} {x0 : JobRes} {sv : State}
    (eqn : State.ldpcEncode u w _allow s = (x0, sv)) : Keeps dk qu sv := by
  have := State.ldpcEncode_keeps h u w _allow
  rwa [eqn] at this

theorem execLdpcEncode_keeps {s : State} (h : Keeps dk qu s) (engine : Fin 8) :
    KeepsOut dk qu (execLdpcEncode engine s) := by
  unfold execLdpcEncode
  repeat' first
    | with_reducible apply KeepsOut.next
    | with_reducible apply KeepsOut.ite
    | (intro)
    | with_reducible assumption
    | with_reducible apply State.jobRow_keeps
    | with_reducible apply State.ldpcEncode_keeps

theorem State.turboEncodeJob_keeps {s : State} (h : Keeps dk qu s) (u : Nat) (w : List Word) (_allow : Nat) :
    Keeps dk qu (State.turboEncodeJob u w _allow s).2 := by
  unfold State.turboEncodeJob
  repeat' first
    | (intro)
    | with_reducible assumption
    | with_reducible apply State.engGet_keeps
    | refine State.engGet_keeps_eq ?_ (by with_reducible assumption)
    | with_reducible apply State.engPut_keeps
    | refine State.engPut_keeps_eq ?_ (by with_reducible assumption)
    | with_reducible apply State.checked_keeps
    | with_reducible apply Keeps.ite
    | (dsimp only)
    | split
    | (refine Keeps.any ?_ ?_; rotate_left; rfl)

theorem State.turboEncodeJob_keeps_eq {s : State} (h : Keeps dk qu s) {u : Nat} {w : List Word} {_allow : Nat} {x0 : JobRes} {sv : State}
    (eqn : State.turboEncodeJob u w _allow s = (x0, sv)) : Keeps dk qu sv := by
  have := State.turboEncodeJob_keeps h u w _allow
  rwa [eqn] at this

theorem execTurboEncode_keeps {s : State} (h : Keeps dk qu s) (engine : Fin 4) :
    KeepsOut dk qu (execTurboEncode engine s) := by
  unfold execTurboEncode
  repeat' first
    | with_reducible apply KeepsOut.next
    | with_reducible apply KeepsOut.ite
    | (intro)
    | with_reducible assumption
    | with_reducible apply State.jobRow_keeps
    | with_reducible apply State.turboEncodeJob_keeps

theorem State.polarEncode_keeps {s : State} (h : Keeps dk qu s) (u : Nat) (w : List Word) (_allow : Nat) :
    Keeps dk qu (State.polarEncode u w _allow s).2 := by
  unfold State.polarEncode
  repeat' first
    | (intro)
    | with_reducible assumption
    | with_reducible apply State.engGet_keeps
    | refine State.engGet_keeps_eq ?_ (by with_reducible assumption)
    | with_reducible apply State.engPut_keeps
    | refine State.engPut_keeps_eq ?_ (by with_reducible assumption)
    | with_reducible apply State.checked_keeps
    | with_reducible apply Keeps.ite
    | (dsimp only)
    | split

theorem State.polarEncode_keeps_eq {s : State} (h : Keeps dk qu s) {u : Nat} {w : List Word} {_allow : Nat} {x0 : JobRes} {sv : State}
    (eqn : State.polarEncode u w _allow s = (x0, sv)) : Keeps dk qu sv := by
  have := State.polarEncode_keeps h u w _allow
  rwa [eqn] at this

theorem execPolarEncode_keeps {s : State} (h : Keeps dk qu s) (engine : Fin 4) :
    KeepsOut dk qu (execPolarEncode engine s) := by
  unfold execPolarEncode
  repeat' first
    | with_reducible apply KeepsOut.next
    | with_reducible apply KeepsOut.ite
    | (intro)
    | with_reducible assumption
    | with_reducible apply State.jobRow_keeps
    | with_reducible apply State.polarEncode_keeps

theorem State.segBits_keeps {s : State} (h : Keeps dk qu s) (u : Nat) (l : List (Nat × Nat)) (more : Nat) :
    Keeps dk qu (State.segBits s u l more).2.2.2.2 := by
  induction l generalizing s with
  | nil => exact h
  | cons p r ih =>
    obtain ⟨a, n⟩ := p
    cases r with
    | nil => exact State.engGet_keeps h _ _ _
    | cons p' r =>
      unfold State.segBits
      split
      rename_i ok l s1 e
      have k := State.engGet_keeps_eq h e
      split
      · exact ih k
      · exact k

theorem State.crcJob_keeps {s : State} (h : Keeps dk qu s) (u : Nat) (w : List Word) (_allow : Nat) :
    Keeps dk qu (State.crcJob u w _allow s).2 := by
  unfold State.crcJob
  refine State.checked_keeps h _ _ _ _ (fun s h => ?_)
  extract_lets p check segs
  split
  rename_i ok l s1 e1
  have k1 := State.engGet_keeps_eq h e1
  split
  · exact k1
  extract_lets bytes list
  clear_value p check segs bytes list
  split
  · exact k1
  split
  rename_i bs tail bad ok2 s2 e2
  have k2 : Keeps dk qu s2 := by
    have := State.segBits_keeps k1 u list (if check then p.1 else 0)
    rwa [e2] at this
  exact k2

theorem State.crcJob_keeps_eq {s : State} (h : Keeps dk qu s) {u : Nat} {w : List Word} {_allow : Nat} {x0 : JobRes} {sv : State}
    (eqn : State.crcJob u w _allow s = (x0, sv)) : Keeps dk qu sv := by
  have := State.crcJob_keeps h u w _allow
  rwa [eqn] at this

theorem execCrc_keeps {s : State} (h : Keeps dk qu s) (engine : Fin 8) :
    KeepsOut dk qu (execCrc engine s) := by
  unfold execCrc
  repeat' first
    | with_reducible apply KeepsOut.next
    | with_reducible apply KeepsOut.ite
    | (intro)
    | with_reducible assumption
    | with_reducible apply State.jobRow_keeps
    | with_reducible apply State.crcJob_keeps

theorem State.harqCombine_keeps {s : State} (h : Keeps dk qu s) (u : Nat) (w : List Word) (_allow : Nat) :
    Keeps dk qu (State.harqCombine u w _allow s).2 := by
  unfold State.harqCombine
  extract_lets inst ctx turbo c K full ncb F E src dst cb n stored null k0 i8 S
  clear_value ctx turbo c K full ncb F E src dst cb n stored null k0 i8 S
  refine State.checked_keeps h _ _ _ _ (fun s h => ?_)
  split
  rename_i ok l s1 e1
  have k1 := State.engGet_keeps_eq h e1
  split
  · exact k1
  split
  · exact k1
  extract_lets bytes rec_ srcA dstA
  clear_value bytes rec_ srcA dstA
  split
  · exact k1
  split
  rename_i ok1 half s2 e2
  have k2 : Keeps dk qu s2 := by
    split at e2
    · exact State.engGet_keeps_eq k1 e2
    · cases e2; exact k1
  split
  rename_i ok2 rx s3 e3
  have k3 : Keeps dk qu s3 := by
    split at e3
    · cases e3; exact k2
    · exact State.engGet_keeps_eq k2 e3
  split
  · exact k3
  extract_lets x x' old acc0 acc val poison
  clear_value x x' old acc0 acc val poison
  split
  rename_i wok s4 e4
  have k4 : Keeps dk qu s4 := by
    split at e4
    · cases e4; exact k3
    · split at e4
      · refine Keeps.foldl_snd_eq k3 (fun b x hb => ?_) e4
        split
        · exact State.engPut_keeps hb _ _ _
        · exact hb
      · exact State.engPut_keeps_eq k3 e4
  split
  rename_i wok2 s5 e5
  split at e5
  · exact State.engPut_keeps_eq k4 e5
  · cases e5; exact k4

theorem State.harqCombine_keeps_eq {s : State} (h : Keeps dk qu s) {u : Nat} {w : List Word} {_allow : Nat} {x0 : JobRes} {sv : State}
    (eqn : State.harqCombine u w _allow s = (x0, sv)) : Keeps dk qu sv := by
  have := State.harqCombine_keeps h u w _allow
  rwa [eqn] at this

theorem execHarqCombine_keeps {s : State} (h : Keeps dk qu s) (engine : Fin 8) :
    KeepsOut dk qu (execHarqCombine engine s) := by
  unfold execHarqCombine
  repeat' first
    | with_reducible apply KeepsOut.next
    | with_reducible apply KeepsOut.ite
    | (intro)
    | with_reducible assumption
    | with_reducible apply State.jobRow_keeps
    | with_reducible apply State.harqCombine_keeps

theorem State.mismatch_keeps {s : State} (h : Keeps dk qu s) (ty : Nat) (w : List Word) (_allow : Nat) :
    Keeps dk qu (State.mismatch ty w _allow s).2 := by
  unfold State.mismatch
  repeat' first
    | (intro)
    | with_reducible assumption
    | with_reducible apply Keeps.ite
    | (dsimp only)
    | split

theorem State.mismatch_keeps_eq {s : State} (h : Keeps dk qu s) {ty : Nat} {w : List Word} {_allow : Nat} {x0 : JobRes} {sv : State}
    (eqn : State.mismatch ty w _allow s = (x0, sv)) : Keeps dk qu sv := by
  have := State.mismatch_keeps h ty w _allow
  rwa [eqn] at this

theorem execJobTypeMismatch_keeps {s : State} (h : Keeps dk qu s) (engine : Fin 40) :
    KeepsOut dk qu (execJobTypeMismatch engine s) := by
  unfold execJobTypeMismatch
  repeat' first
    | with_reducible apply KeepsOut.next
    | with_reducible apply KeepsOut.ite
    | (intro)
    | with_reducible assumption
    | with_reducible apply State.takeJob_keeps
    | with_reducible apply State.mismatch_keeps
    | refine State.mismatch_keeps_eq ?_ (by with_reducible assumption)
    | with_reducible apply Keeps.ite
    | (dsimp only)
    | split

theorem State.engIdle_keeps {s : State} (h : Keeps dk qu s) (u : Nat) :
    Keeps dk qu (State.engIdle s u) := by
  unfold State.engIdle
  repeat' first
    | (intro)
    | with_reducible assumption
    | with_reducible apply State.setE_keeps

theorem execJobEnd_keeps {s : State} (h : Keeps dk qu s) (engine : Fin 40) :
    KeepsOut dk qu (execJobEnd engine s) := by
  unfold execJobEnd
  repeat' first
    | with_reducible apply KeepsOut.next
    | with_reducible apply KeepsOut.ite
    | (intro)
    | with_reducible assumption
    | with_reducible apply State.takeFree_keeps
    | refine State.takeFree_keeps_eq ?_ (by with_reducible assumption)
    | with_reducible apply State.countEvent_keeps
    | with_reducible apply State.report_keeps
    | with_reducible apply State.setEng_keeps
    | with_reducible apply State.setE_keeps
    | with_reducible apply State.addE_keeps
    | with_reducible apply State.engPost_keeps
    | with_reducible apply State.engPut_keeps
    | refine State.engPut_keeps_eq ?_ (by with_reducible assumption)
    | with_reducible apply State.engIdle_keeps
    | with_reducible apply Keeps.ite
    | (dsimp only)
    | split

theorem State.engHung_keeps {s : State} (h : Keeps dk qu s) (u i : Nat) :
    Keeps dk qu (State.engHung s u i) := by
  unfold State.engHung
  repeat' first
    | (intro)
    | with_reducible assumption
    | with_reducible apply State.setEng_keeps
    | with_reducible apply State.setE_keeps
    | with_reducible apply State.engPost_keeps

theorem engRun_keeps {s : State} (h : Keeps dk qu s) (u ty : Nat) (w : List Word) (a : Nat) :
    Keeps dk qu (engRun u ty w a s).2 := by
  unfold engRun
  split
  · split_ifs
    · exact State.ldpcDecode_keeps h _ _ _
    · exact State.ldpcEncode_keeps h _ _ _
    · exact State.crcJob_keeps h _ _ _
    · exact State.polarDecode_keeps h _ _ _
    · exact State.polarEncode_keeps h _ _ _
    · exact State.turboDecode_keeps h _ _ _
    · exact State.turboEncodeJob_keeps h _ _ _
    · exact State.harqCombine_keeps h _ _ _
  · exact State.mismatch_keeps h _ _ _

theorem execEngineHang_keeps {s : State} (h : Keeps dk qu s) (engine : Fin 40) :
    KeepsOut dk qu (execEngineHang engine s) := by
  unfold execEngineHang
  extract_lets u e
  clear_value u
  split
  · exact h
  split
  · exact State.engHung_keeps h _ _
  split
  · exact h
  split
  · split
    rename_i n s1 e1
    have k1 := State.takeFree_keeps_eq h e1
    split
    · rename_i e2
      exact State.engHung_keeps (State.beginJob_keeps_eq (State.setEng_keeps k1 _ _)
        (fun w a s h => engRun_keeps h _ _ _ _) e2) _ _
    · exact k1
  · exact h

theorem execEngineResetDone_keeps {s : State} (h : Keeps dk qu s) (engine : Fin 40) :
    KeepsOut dk qu (execEngineResetDone engine s) := by
  unfold execEngineResetDone
  repeat' first
    | with_reducible apply KeepsOut.next
    | with_reducible apply KeepsOut.ite
    | (intro)
    | with_reducible assumption
    | with_reducible apply State.report_keeps
    | with_reducible apply State.setEng_keeps
    | with_reducible apply State.engIdle_keeps
    | with_reducible apply Keeps.ite
    | (dsimp only)
    | split

theorem State.engCtl_keeps {s : State} (h : Keeps dk qu s) (cls inst : Nat) (v : Word) :
    Keeps dk qu (State.engCtl s cls inst v) := by
  unfold State.engCtl
  repeat' first
    | (intro)
    | with_reducible assumption
    | with_reducible apply State.reclaimAll_keeps
    | with_reducible apply State.storeReg_keeps
    | with_reducible apply Keeps.ite

theorem execTakeEnWrite_keeps {s : State} (h : Keeps dk qu s) (req : Fin 14) (cls : Fin 5) (sel : BitVec 10) (value : Word) :
    KeepsOut dk qu (execTakeEnWrite req cls sel value s) := by
  unfold execTakeEnWrite
  repeat' first
    | with_reducible apply KeepsOut.next
    | with_reducible apply KeepsOut.ite
    | (intro)
    | with_reducible assumption
    | with_reducible apply State.hubEach_keeps
    | with_reducible apply State.engCtl_keeps

theorem execUcodeLoadDone_keeps {s : State} (h : Keeps dk qu s) (engine : Fin 40) :
    KeepsOut dk qu (execUcodeLoadDone engine s) := by
  unfold execUcodeLoadDone
  repeat' first
    | with_reducible apply KeepsOut.next
    | with_reducible apply KeepsOut.ite
    | (intro)
    | with_reducible assumption
    | with_reducible apply State.setEng_keeps
    | with_reducible apply State.setE_keeps
    | with_reducible apply State.engIdle_keeps
    | with_reducible apply Keeps.ite
    | (dsimp only)
    | split

theorem execUcodeSwitch_keeps {s : State} (h : Keeps dk qu s) (engine : Fin 40) (pass : Bool) (micros : Word) :
    KeepsOut dk qu (execUcodeSwitch engine pass micros s) := by
  unfold execUcodeSwitch
  repeat' first
    | with_reducible apply KeepsOut.next
    | with_reducible apply KeepsOut.ite
    | (intro)
    | with_reducible assumption
    | with_reducible apply State.endOp_keeps
    | with_reducible apply State.setEng_keeps
    | with_reducible apply State.setE_keeps
    | with_reducible apply State.engPost_keeps
    | with_reducible apply Keeps.ite
    | (dsimp only)
    | split

end Sys2Proof.Machine
end

