-- ==== Sys2Proof/Laws/KeepsRadio.lean ====
section
/-! SUPPORT. What commands of the witness, the streams, time, the lanes, the ledger, the dispatcher and the journal keep (`Keeps`, `KeepsOut`): one lemma a definition. -/
namespace Sys2Proof.Machine

variable {dk : BitVec 64} {qu : List Instr}

/-! ## Witness -/

theorem execLeafGrant_keeps {s : State} (h : Keeps dk qu s) : KeepsOut dk qu (execLeafGrant s) := by
  unfold execLeafGrant
  split
  · exact h
  cases s.leafTurn with
  | none => exact h
  | some k =>
    dsimp only
    split
    · exact h
    · exact KeepsOut.next (State.grantLeaf_keeps (State.setVault_keeps h _) _)

theorem execLeafWriteDone_keeps {s : State} (h : Keeps dk qu s)  :
    KeepsOut dk qu (execLeafWriteDone s) := by
  unfold execLeafWriteDone
  repeat' first
    | with_reducible apply KeepsOut.next
    | with_reducible apply KeepsOut.ite
    | (intro)
    | with_reducible assumption
    | with_reducible apply State.setFld_keeps
    | with_reducible apply State.addFld_keeps
    | with_reducible apply State.busPut_keeps
    | refine State.busPut_keeps_eq ?_ (by with_reducible assumption)
    | with_reducible apply State.setVault_keeps
    | with_reducible apply State.dropLeaf_keeps
    | with_reducible apply Keeps.ite
    | (with_reducible apply Keeps.foldl)
    | (with_reducible apply Keeps.foldl_snd)
    | (with_reducible apply Keeps.foldl_snd2)
    | (with_reducible apply Keeps.foldl_fst)
    | (refine Keeps.foldl_snd_eq ?_ ?_ (by with_reducible assumption))
    | (refine Keeps.foldl_snd2_eq ?_ ?_ (by with_reducible assumption))
    | (refine Keeps.foldl_fst_eq ?_ ?_ (by with_reducible assumption))
    | (dsimp only)
    | split

theorem State.vaultCtl_keeps {s : State} (h : Keeps dk qu s) (v : Word) :
    Keeps dk qu (State.vaultCtl s v) := by
  unfold State.vaultCtl
  repeat' first
    | (intro)
    | with_reducible assumption
    | with_reducible apply State.storeReg_keeps
    | with_reducible apply State.setVault_keeps
    | with_reducible apply State.applyGeometry_keeps
    | with_reducible apply Keeps.ite

theorem execVaultEnable_keeps {s : State} (h : Keeps dk qu s) (req : Fin 14) (sel : BitVec 10) (value : Word) :
    KeepsOut dk qu (execVaultEnable req sel value s) := by
  unfold execVaultEnable
  repeat' first
    | with_reducible apply KeepsOut.next
    | with_reducible apply KeepsOut.ite
    | (intro)
    | with_reducible assumption
    | with_reducible apply State.hubEach_keeps
    | with_reducible apply State.vaultCtl_keeps

theorem State.geometryWrite_keeps {s : State} (h : Keeps dk qu s) (off : Nat) (v : Word) :
    Keeps dk qu (State.geometryWrite s off v) := by
  unfold State.geometryWrite
  repeat' first
    | (intro)
    | with_reducible assumption
    | with_reducible apply State.storeReg_keeps
    | with_reducible apply State.setVault_keeps
    | with_reducible apply State.applyGeometry_keeps
    | with_reducible apply Keeps.ite

theorem execVaultGeometryWrite_keeps {s : State} (h : Keeps dk qu s) (req : Fin 14) (sel : BitVec 10) (which : Fin 3) (value : Word) :
    KeepsOut dk qu (execVaultGeometryWrite req sel which value s) := by
  unfold execVaultGeometryWrite
  repeat' first
    | with_reducible apply KeepsOut.next
    | with_reducible apply KeepsOut.ite
    | (intro)
    | with_reducible assumption
    | with_reducible apply State.hubEach_keeps
    | with_reducible apply State.geometryWrite_keeps

theorem execTrigger_keeps {s : State} (h : Keeps dk qu s) (req : Fin 14) (sel : BitVec 10) (value : Word) :
    KeepsOut dk qu (execTrigger req sel value s) := by
  unfold execTrigger
  repeat' first
    | with_reducible apply KeepsOut.next
    | with_reducible apply KeepsOut.ite
    | (intro)
    | with_reducible assumption
    | with_reducible apply State.hubEach_keeps
    | with_reducible apply State.commandTrigger_keeps

theorem execPinTrigger_keeps {s : State} (h : Keeps dk qu s) (pin : Fin 32) (rising : Bool) :
    KeepsOut dk qu (execPinTrigger pin rising s) := by
  unfold execPinTrigger
  repeat' first
    | with_reducible apply KeepsOut.next
    | with_reducible apply KeepsOut.ite
    | (intro)
    | with_reducible assumption
    | with_reducible apply State.takeFree_keeps
    | refine State.takeFree_keeps_eq ?_ (by with_reducible assumption)
    | with_reducible apply State.gpioLevel_keeps
    | with_reducible apply Keeps.ite
    | (dsimp only)
    | split
    | (refine Keeps.any ?_ ?_; rotate_left; rfl)

theorem execTriggerGrant_keeps {s : State} (h : Keeps dk qu s)  :
    KeepsOut dk qu (execTriggerGrant s) := by
  unfold execTriggerGrant
  repeat' first
    | with_reducible apply KeepsOut.next
    | with_reducible apply KeepsOut.ite
    | (intro)
    | with_reducible assumption
    | with_reducible apply State.triggerStep_keeps

theorem execRegionRelease_keeps {s : State} (h : Keeps dk qu s) (req : Fin 14) (sel : BitVec 10) (value : Word) :
    KeepsOut dk qu (execRegionRelease req sel value s) := by
  unfold execRegionRelease
  repeat' first
    | with_reducible apply KeepsOut.next
    | with_reducible apply KeepsOut.ite
    | (intro)
    | with_reducible assumption
    | with_reducible apply State.hubEach_keeps
    | with_reducible apply State.releaseRgn_keeps

theorem State.tallyEvent_keeps {s : State} (h : Keeps dk qu s) (d : Nat) :
    Keeps dk qu (State.tallyEvent s d).2 := by
  unfold State.tallyEvent
  repeat' first
    | (intro)
    | with_reducible assumption
    | with_reducible apply State.tallyAdvance_keeps
    | with_reducible apply Keeps.ite
    | (dsimp only)
    | split

theorem State.tallyEvent_keeps_eq {s : State} (h : Keeps dk qu s) {d : Nat} {x0 : Nat} {sv : State}
    (eqn : State.tallyEvent s d = (x0, sv)) : Keeps dk qu sv := by
  have := State.tallyEvent_keeps h d
  rwa [eqn] at this

theorem execTallyAgcBlock_keeps {s : State} (h : Keeps dk qu s) (detector : Fin 32) :
    KeepsOut dk qu (execTallyAgcBlock detector s) := by
  unfold execTallyAgcBlock
  repeat' first
    | with_reducible apply KeepsOut.next
    | with_reducible apply KeepsOut.ite
    | (intro)
    | with_reducible assumption
    | with_reducible apply State.tallyAgc_keeps
    | with_reducible apply State.tallyEvent_keeps

theorem execTallyDetection_keeps {s : State} (h : Keeps dk qu s) (detector : Fin 32) :
    KeepsOut dk qu (execTallyDetection detector s) := by
  unfold execTallyDetection
  repeat' first
    | with_reducible apply KeepsOut.next
    | with_reducible apply KeepsOut.ite
    | (intro)
    | with_reducible assumption
    | with_reducible apply State.tallyDetect_keeps
    | with_reducible apply State.tallyEvent_keeps
    | refine State.tallyEvent_keeps_eq ?_ (by with_reducible assumption)
    | with_reducible apply Keeps.ite
    | (dsimp only)
    | split

theorem execTallySymbol_keeps {s : State} (h : Keeps dk qu s) (detector : Fin 32) :
    KeepsOut dk qu (execTallySymbol detector s) := by
  unfold execTallySymbol
  repeat' first
    | with_reducible apply KeepsOut.next
    | with_reducible apply KeepsOut.ite
    | (intro)
    | with_reducible assumption
    | with_reducible apply State.tallySymbol_keeps
    | with_reducible apply State.tallyEvent_keeps
    | refine State.tallyEvent_keeps_eq ?_ (by with_reducible assumption)
    | with_reducible apply Keeps.ite
    | (dsimp only)
    | split

theorem execTallyRecordAcked_keeps {s : State} (h : Keeps dk qu s) (detector : Fin 32) :
    KeepsOut dk qu (execTallyRecordAcked detector s) := by
  unfold execTallyRecordAcked
  repeat' first
    | with_reducible apply KeepsOut.next
    | with_reducible apply KeepsOut.ite
    | (intro)
    | with_reducible assumption
    | with_reducible apply State.decKey_keeps
    | with_reducible apply State.setTally_keeps

theorem execTplData_keeps {s : State} (h : Keeps dk qu s) (req : Fin 14) (sel : BitVec 10) (value : Word) :
    KeepsOut dk qu (execTplData req sel value s) := by
  unfold execTplData
  repeat' first
    | with_reducible apply KeepsOut.next
    | with_reducible apply KeepsOut.ite
    | (intro)
    | with_reducible assumption
    | with_reducible apply State.hubEach_keeps
    | with_reducible apply State.tplData_keeps

/-! ## Streams -/

theorem State.commitWrite_keeps {s : State} (h : Keeps dk qu s) (cls sel : Nat) (v : Word) (ops : List (BitVec 16)) :
    Keeps dk qu (State.commitWrite s cls sel v ops) := by
  unfold State.commitWrite
  repeat' first
    | (intro)
    | with_reducible assumption
    | with_reducible apply State.eachMember_keeps
    | with_reducible apply State.commitArrive_keeps
    | with_reducible apply Keeps.ite

theorem execCommitArrive_keeps {s : State} (h : Keeps dk qu s) (req : Fin 14) (tx : Bool) (sel : BitVec 10) (value : Word) :
    KeepsOut dk qu (execCommitArrive req tx sel value s) := by
  unfold execCommitArrive
  repeat' first
    | with_reducible apply KeepsOut.next
    | with_reducible apply KeepsOut.ite
    | (intro)
    | with_reducible assumption
    | with_reducible apply State.commitWrite_keeps
    | with_reducible apply Keeps.ite

theorem execCommitLock_keeps {s : State} (h : Keeps dk qu s) (ch : Fin 1024) :
    KeepsOut dk qu (execCommitLock ch s) := by
  unfold execCommitLock
  repeat' first
    | with_reducible apply KeepsOut.next
    | with_reducible apply KeepsOut.ite
    | (intro)
    | with_reducible assumption
    | with_reducible apply State.lockPoint_keeps

theorem State.txQuiet_keeps {s : State} (h : Keeps dk qu s) (c code : Nat) :
    Keeps dk qu (State.txQuiet s c code) := by
  unfold State.txQuiet
  repeat' first
    | (intro)
    | with_reducible assumption
    | with_reducible apply State.setStrm_keeps
    | with_reducible apply Keeps.ite

theorem State.openPrach_keeps {s : State} (h : Keeps dk qu s) (c code : Nat) :
    Keeps dk qu (State.openPrach s c code) := by
  unfold State.openPrach
  repeat' first
    | (intro)
    | with_reducible assumption
    | with_reducible apply State.setStrm_keeps
    | with_reducible apply Keeps.ite

theorem State.openWindow_keeps {s : State} (h : Keeps dk qu s) (c code : Nat) :
    Keeps dk qu (State.openWindow s c code) := by
  unfold State.openWindow
  repeat' first
    | (intro)
    | with_reducible assumption
    | with_reducible apply State.setStrm_keeps
    | with_reducible apply Keeps.ite

theorem State.endSymbol_keeps {s : State} (h : Keeps dk qu s) (c : Nat) (start : Int) :
    Keeps dk qu (State.endSymbol s c start) := by
  unfold State.endSymbol
  repeat' first
    | (intro)
    | with_reducible assumption
    | with_reducible apply State.pullStream_keeps
    | with_reducible apply State.rxSymbol_keeps
    | with_reducible apply State.freqSymbol_keeps
    | with_reducible apply State.roeSend_keeps
    | with_reducible apply Keeps.ite

theorem State.cpDrift_keeps {s : State} (h : Keeps dk qu s) (c : Nat) (fresh : Bool) :
    Keeps dk qu (State.cpDrift s c fresh) := by
  unfold State.cpDrift
  repeat' first
    | (intro)
    | with_reducible assumption
    | with_reducible apply State.setStrm_keeps
    | with_reducible apply Keeps.ite

theorem State.takeSettings_keeps {s : State} (h : Keeps dk qu s) (c code : Nat) (start : Int) :
    Keeps dk qu (State.takeSettings s c code start) := by
  unfold State.takeSettings
  repeat' first
    | (intro)
    | with_reducible assumption
    | with_reducible apply State.setStrm_keeps
    | with_reducible apply State.applySet_keeps
    | with_reducible apply Keeps.ite
    | (dsimp only)
    | split

theorem State.txStart_keeps {s : State} (h : Keeps dk qu s) (c code : Nat) (g : GridAt) (hard : Bool) :
    Keeps dk qu (State.txStart s c code g hard) := by
  unfold State.txStart
  repeat' first
    | (intro)
    | with_reducible assumption
    | with_reducible apply State.setStrm_keeps
    | with_reducible apply State.holdPa_keeps
    | with_reducible apply State.endRun_keeps
    | with_reducible apply State.txIdle_keeps
    | with_reducible apply State.txSymbol_keeps
    | with_reducible apply State.txQuiet_keeps
    | with_reducible apply Keeps.ite

theorem State.rxStart_keeps {s : State} (h : Keeps dk qu s) (c code : Nat) :
    Keeps dk qu (State.rxStart s c code) := by
  unfold State.rxStart
  repeat' first
    | (intro)
    | with_reducible assumption
    | with_reducible apply State.witSlotStart_keeps
    | with_reducible apply State.endPrach_keeps
    | with_reducible apply State.witClose_keeps
    | with_reducible apply State.openPrach_keeps
    | with_reducible apply State.openWindow_keeps
    | with_reducible apply Keeps.ite

theorem State.boundary_keeps {s : State} (h : Keeps dk qu s) (c code : Nat) (g : GridAt) :
    Keeps dk qu (State.boundary s c code g) := by
  unfold State.boundary
  repeat' first
    | (intro)
    | with_reducible assumption
    | with_reducible apply State.setStrm_keeps
    | with_reducible apply State.setS_keeps
    | with_reducible apply State.agcSlot_keeps
    | with_reducible apply State.bankChannel_keeps
    | with_reducible apply State.endSymbol_keeps
    | with_reducible apply State.cpDrift_keeps
    | with_reducible apply State.takeSettings_keeps
    | with_reducible apply State.txStart_keeps
    | with_reducible apply State.rxStart_keeps
    | with_reducible apply Keeps.ite

theorem State.passBoundary_keeps {s : State} (h : Keeps dk qu s) (c code : Nat) (g : GridAt) :
    Keeps dk qu (State.passBoundary s c code g) := by
  unfold State.passBoundary
  repeat' first
    | (intro)
    | with_reducible assumption
    | with_reducible apply State.setStrm_keeps
    | with_reducible apply State.endSymbol_keeps

theorem execSymbolBoundary_keeps {s : State} (h : Keeps dk qu s) (ch : Fin 1024) :
    KeepsOut dk qu (execSymbolBoundary ch s) := by
  unfold execSymbolBoundary
  repeat' first
    | with_reducible apply KeepsOut.next
    | with_reducible apply KeepsOut.ite
    | (intro)
    | with_reducible assumption
    | with_reducible apply State.boundary_keeps
    | with_reducible apply State.passBoundary_keeps

theorem execFftSymbolArrive_keeps {s : State} (h : Keeps dk qu s) (ch : Fin 1024) :
    KeepsOut dk qu (execFftSymbolArrive ch s) := by
  unfold execFftSymbolArrive
  repeat' first
    | with_reducible apply KeepsOut.next
    | with_reducible apply KeepsOut.ite
    | (intro)
    | with_reducible assumption
    | with_reducible apply State.setStrm_keeps
    | with_reducible apply State.setFft_keeps
    | with_reducible apply State.dropSymbol_keeps
    | with_reducible apply State.witClose_keeps
    | with_reducible apply Keeps.ite
    | (dsimp only)
    | split
    | (refine Keeps.any ?_ ?_; rotate_left; rfl)

theorem execFftTransformDone_keeps {s : State} (h : Keeps dk qu s) (engine : Fin 32) :
    KeepsOut dk qu (execFftTransformDone engine s) := by
  unfold execFftTransformDone
  repeat' first
    | with_reducible apply KeepsOut.next
    | with_reducible apply KeepsOut.ite
    | (intro)
    | with_reducible assumption
    | with_reducible apply State.setStrm_keeps
    | with_reducible apply State.strmSat_keeps
    | with_reducible apply State.gridWrite_keeps
    | with_reducible apply State.setFft_keeps
    | with_reducible apply State.prachWrite_keeps
    | with_reducible apply State.toWitness_keeps
    | with_reducible apply State.witClose_keeps
    | with_reducible apply Keeps.ite
    | (dsimp only)
    | split
    | (refine Keeps.any ?_ ?_; rotate_left; rfl)

theorem execGridWritesAcked_keeps {s : State} (h : Keeps dk qu s) (ch : Fin 512) :
    KeepsOut dk qu (execGridWritesAcked ch s) := by
  unfold execGridWritesAcked
  repeat' first
    | with_reducible apply KeepsOut.next
    | with_reducible apply KeepsOut.ite
    | (intro)
    | with_reducible assumption
    | with_reducible apply State.setStrm_keeps
    | with_reducible apply State.chPut_keeps
    | refine State.chPut_keeps_eq ?_ (by with_reducible assumption)
    | with_reducible apply Keeps.ite
    | (dsimp only)
    | split

theorem execHeaderWriteAcked_keeps {s : State} (h : Keeps dk qu s) (ch : Fin 512) :
    KeepsOut dk qu (execHeaderWriteAcked ch s) := by
  unfold execHeaderWriteAcked
  repeat' first
    | with_reducible apply KeepsOut.next
    | with_reducible apply KeepsOut.ite
    | (intro)
    | with_reducible assumption
    | with_reducible apply State.countEvent_keeps
    | with_reducible apply State.decKey_keeps
    | with_reducible apply State.setStrm_keeps
    | with_reducible apply State.keysigs_keeps
    | with_reducible apply Keeps.ite
    | (dsimp only)
    | split

theorem execPrachOccasion_keeps {s : State} (h : Keeps dk qu s) (ch : Fin 512) :
    KeepsOut dk qu (execPrachOccasion ch s) := by
  unfold execPrachOccasion
  repeat' first
    | with_reducible apply KeepsOut.next
    | with_reducible apply KeepsOut.ite
    | (intro)
    | with_reducible assumption
    | with_reducible apply State.drop_keeps
    | with_reducible apply State.setStrm_keeps
    | with_reducible apply Keeps.ite
    | (dsimp only)
    | split
    | (refine Keeps.any ?_ ?_; rotate_left; rfl)

theorem execTxGridRead_keeps {s : State} (h : Keeps dk qu s) (ch : Fin 512) :
    KeepsOut dk qu (execTxGridRead ch s) := by
  unfold execTxGridRead
  repeat' first
    | with_reducible apply KeepsOut.next
    | with_reducible apply KeepsOut.ite
    | (intro)
    | with_reducible assumption
    | with_reducible apply State.unitGet_keeps
    | refine State.unitGet_keeps_eq ?_ (by with_reducible assumption)
    | with_reducible apply State.setStrm_keeps
    | with_reducible apply State.strmEvent_keeps
    | with_reducible apply State.strmSat_keeps
    | with_reducible apply Keeps.ite

theorem execTxGridReadDone_keeps {s : State} (h : Keeps dk qu s) (ch : Fin 512) :
    KeepsOut dk qu (execTxGridReadDone ch s) := by
  unfold execTxGridReadDone
  repeat' first
    | with_reducible apply KeepsOut.next
    | with_reducible apply KeepsOut.ite
    | (intro)
    | with_reducible assumption
    | with_reducible apply State.setStrm_keeps
    | with_reducible apply State.keysigs_keeps
    | with_reducible apply State.flowSend_keeps
    | with_reducible apply Keeps.ite
    | (dsimp only)
    | split

theorem execPaEnableChange_keeps {s : State} (h : Keeps dk qu s) (ch : Fin 512) :
    KeepsOut dk qu (execPaEnableChange ch s) := by
  unfold execPaEnableChange
  repeat' first
    | with_reducible apply KeepsOut.next
    | with_reducible apply KeepsOut.ite
    | (intro)
    | with_reducible assumption
    | with_reducible apply State.setFld_keeps
    | with_reducible apply State.syncPin_keeps
    | with_reducible apply State.chWord_keeps
    | with_reducible apply Keeps.ite

theorem execFftClearMax_keeps {s : State} (h : Keeps dk qu s) (req : Fin 14) (sel : BitVec 10) :
    KeepsOut dk qu (execFftClearMax req sel s) := by
  unfold execFftClearMax
  repeat' first
    | with_reducible apply KeepsOut.next
    | with_reducible apply KeepsOut.ite
    | (intro)
    | with_reducible assumption
    | with_reducible apply State.setFld_keeps
    | with_reducible apply State.hubEach_keeps

theorem execFftClearDrops_keeps {s : State} (h : Keeps dk qu s) (req : Fin 14) (sel : BitVec 10) :
    KeepsOut dk qu (execFftClearDrops req sel s) := by
  unfold execFftClearDrops
  repeat' first
    | with_reducible apply KeepsOut.next
    | with_reducible apply KeepsOut.ite
    | (intro)
    | with_reducible assumption
    | with_reducible apply State.setFld_keeps
    | with_reducible apply State.hubEach_keeps

/-! ## Time -/

theorem State.periodOver_keeps_eq {s : State} (h : Keeps dk qu s) {a m : Nat} {sv : State}
    (eqn : State.periodOver s = some (a, m, sv)) : Keeps dk qu sv := by
  unfold State.periodOver at eqn
  dsimp only at eqn
  split at eqn
  all_goals
    split at eqn
    · simp only [Option.some.injEq, Prod.mk.injEq] at eqn
      rw [← eqn.2.2]
      first
        | exact State.periodStarts_keeps h _ _
        | exact Keeps.any h rfl
    · cases eqn

theorem State.periodsOver_keeps {s : State} (h : Keeps dk qu s) (n : Nat) : Keeps dk qu (State.periodsOver n s) := by
  induction n generalizing s with
  | zero => exact h
  | succ n ih =>
    unfold State.periodsOver
    split
    · rename_i e
      exact ih (Keeps.any (State.periodOver_keeps_eq h e) rfl)
    · exact h


theorem State.servoState_keeps {s : State} (h : Keeps dk qu s) (n st : Nat) :
    Keeps dk qu (State.servoState s n st) := by
  unfold State.servoState
  repeat' first
    | (intro)
    | with_reducible assumption
    | with_reducible apply State.setFld_keeps
    | with_reducible apply State.post_keeps
    | with_reducible apply Keeps.ite

theorem State.servoBegin_keeps {s : State} (h : Keeps dk qu s) (n : Nat) :
    Keeps dk qu (State.servoBegin s n) := by
  unfold State.servoBegin
  repeat' first
    | (intro)
    | with_reducible assumption
    | with_reducible apply State.setTb_keeps
    | with_reducible apply State.servoState_keeps
    | with_reducible apply Keeps.ite

theorem execTimingLock_keeps {s : State} (h : Keeps dk qu s)  :
    KeepsOut dk qu (execTimingLock s) := by
  unfold execTimingLock
  repeat' first
    | with_reducible apply KeepsOut.next
    | with_reducible apply KeepsOut.ite
    | (intro)
    | with_reducible assumption
    | with_reducible apply State.setFld_keeps
    | with_reducible apply State.syncReady_keeps
    | with_reducible apply State.setTb_keeps
    | with_reducible apply State.periodLocked_keeps
    | with_reducible apply State.servoBegin_keeps
    | with_reducible apply Keeps.ite
    | (with_reducible apply Keeps.foldl)
    | (with_reducible apply Keeps.foldl_snd)
    | (with_reducible apply Keeps.foldl_snd2)
    | (with_reducible apply Keeps.foldl_fst)
    | (refine Keeps.foldl_snd_eq ?_ ?_ (by with_reducible assumption))
    | (refine Keeps.foldl_snd2_eq ?_ ?_ (by with_reducible assumption))
    | (refine Keeps.foldl_fst_eq ?_ ?_ (by with_reducible assumption))
    | (dsimp only)
    | split
    | (refine Keeps.any ?_ ?_; rotate_left; rfl)

theorem State.stepTo_keeps {s : State} (h : Keeps dk qu s) (n : Nat) (stamp : Int) (servo : Bool) :
    Keeps dk qu (State.stepTo s n stamp servo) := by
  unfold State.stepTo
  repeat' first
    | (intro)
    | with_reducible assumption
    | with_reducible apply State.addFld_keeps
    | with_reducible apply State.post_keeps
    | with_reducible apply State.setTb_keeps
    | with_reducible apply State.periodStepped_keeps
    | with_reducible apply State.gridMoved_keeps
    | with_reducible apply State.periodsOver_keeps
    | with_reducible apply Keeps.ite

theorem State.stepGo_keeps {s : State} (h : Keeps dk qu s) (n : Nat) (v : Word) :
    Keeps dk qu (State.stepGo s n v) := by
  unfold State.stepGo
  repeat' first
    | (intro)
    | with_reducible assumption
    | with_reducible apply State.stepTo_keeps
    | with_reducible apply Keeps.ite

theorem execStepGo_keeps {s : State} (h : Keeps dk qu s) (req : Fin 14) (sel : BitVec 10) (value : Word) :
    KeepsOut dk qu (execStepGo req sel value s) := by
  unfold execStepGo
  repeat' first
    | with_reducible apply KeepsOut.next
    | with_reducible apply KeepsOut.ite
    | (intro)
    | with_reducible assumption
    | with_reducible apply State.hubEach_keeps
    | with_reducible apply State.stepGo_keeps

theorem State.gridWrite2_keeps {s : State} (h : Keeps dk qu s) (n off : Nat) (v : Word) :
    Keeps dk qu (State.gridWrite2 s n off v) := by
  unfold State.gridWrite2
  repeat' first
    | (intro)
    | with_reducible assumption
    | with_reducible apply State.storeReg_keeps
    | with_reducible apply State.periodMoved_keeps
    | with_reducible apply State.gridMoved_keeps
    | with_reducible apply State.periodsOver_keeps
    | with_reducible apply Keeps.ite

theorem execFrameOffsetWrite_keeps {s : State} (h : Keeps dk qu s) (req : Fin 14) (sel : BitVec 10) (sfn : Bool) (value : Word) :
    KeepsOut dk qu (execFrameOffsetWrite req sel sfn value s) := by
  unfold execFrameOffsetWrite
  repeat' first
    | with_reducible apply KeepsOut.next
    | with_reducible apply KeepsOut.ite
    | (intro)
    | with_reducible assumption
    | with_reducible apply State.hubEach_keeps
    | with_reducible apply State.gridWrite2_keeps

theorem State.servoSample_keeps {s : State} (h : Keeps dk qu s) (n : Nat) (e : Int) (stepOk : Bool) :
    Keeps dk qu (State.servoSample s n e stepOk) := by
  unfold State.servoSample
  repeat' first
    | (intro)
    | with_reducible assumption
    | with_reducible apply State.setFld_keeps
    | with_reducible apply State.setTb_keeps
    | with_reducible apply State.servoState_keeps
    | with_reducible apply State.stepTo_keeps
    | with_reducible apply Keeps.ite

theorem State.offsetGo_keeps {s : State} (h : Keeps dk qu s) (n : Nat) (v : Word) :
    Keeps dk qu (State.offsetGo s n v) := by
  unfold State.offsetGo
  repeat' first
    | (intro)
    | with_reducible assumption
    | with_reducible apply State.servoSample_keeps
    | with_reducible apply Keeps.ite

theorem execOffsetGo_keeps {s : State} (h : Keeps dk qu s) (req : Fin 14) (sel : BitVec 10) (value : Word) :
    KeepsOut dk qu (execOffsetGo req sel value s) := by
  unfold execOffsetGo
  repeat' first
    | with_reducible apply KeepsOut.next
    | with_reducible apply KeepsOut.ite
    | (intro)
    | with_reducible assumption
    | with_reducible apply State.hubEach_keeps
    | with_reducible apply State.offsetGo_keeps

theorem execPpsInEdge_keeps {s : State} (h : Keeps dk qu s) (sub : BitVec 10) :
    KeepsOut dk qu (execPpsInEdge sub s) := by
  unfold execPpsInEdge
  repeat' first
    | with_reducible apply KeepsOut.next
    | with_reducible apply KeepsOut.ite
    | (intro)
    | with_reducible assumption
    | with_reducible apply State.addFld_keeps
    | with_reducible apply State.setTb_keeps
    | with_reducible apply State.servoSample_keeps
    | with_reducible apply Keeps.ite
    | (with_reducible apply Keeps.foldl)

theorem execServoHoldover_keeps {s : State} (h : Keeps dk qu s) (tb : Fin 4) :
    KeepsOut dk qu (execServoHoldover tb s) := by
  unfold execServoHoldover
  repeat' first
    | with_reducible apply KeepsOut.next
    | with_reducible apply KeepsOut.ite
    | (intro)
    | with_reducible assumption
    | with_reducible apply State.reportFault_keeps
    | with_reducible apply State.servoState_keeps

theorem State.servoCtl_keeps {s : State} (h : Keeps dk qu s) (n : Nat) (v : Word) :
    Keeps dk qu (State.servoCtl s n v) := by
  unfold State.servoCtl
  repeat' first
    | (intro)
    | with_reducible assumption
    | with_reducible apply State.storeReg_keeps
    | with_reducible apply State.setTb_keeps
    | with_reducible apply State.servoBegin_keeps
    | with_reducible apply Keeps.ite

theorem execServoSourceWrite_keeps {s : State} (h : Keeps dk qu s) (req : Fin 14) (sel : BitVec 10) (value : Word) :
    KeepsOut dk qu (execServoSourceWrite req sel value s) := by
  unfold execServoSourceWrite
  repeat' first
    | with_reducible apply KeepsOut.next
    | with_reducible apply KeepsOut.ite
    | (intro)
    | with_reducible assumption
    | with_reducible apply State.hubEach_keeps
    | with_reducible apply State.servoCtl_keeps

theorem execRefLost_keeps {s : State} (h : Keeps dk qu s)  :
    KeepsOut dk qu (execRefLost s) := by
  unfold execRefLost
  repeat' first
    | with_reducible apply KeepsOut.next
    | with_reducible apply KeepsOut.ite
    | (intro)
    | with_reducible assumption
    | with_reducible apply State.setFld_keeps
    | with_reducible apply State.post_keeps
    | with_reducible apply State.reportFault_keeps

theorem execRefRestored_keeps {s : State} (h : Keeps dk qu s)  :
    KeepsOut dk qu (execRefRestored s) := by
  unfold execRefRestored
  repeat' first
    | with_reducible apply KeepsOut.next
    | with_reducible apply KeepsOut.ite
    | (intro)
    | with_reducible assumption
    | with_reducible apply State.setFld_keeps
    | with_reducible apply State.post_keeps

theorem execEdgePush_keeps {s : State} (h : Keeps dk qu s) (req : Fin 14) (sel : BitVec 10) (value : Word) :
    KeepsOut dk qu (execEdgePush req sel value s) := by
  unfold execEdgePush
  repeat' first
    | with_reducible apply KeepsOut.next
    | with_reducible apply KeepsOut.ite
    | (intro)
    | with_reducible assumption
    | with_reducible apply State.hubEach_keeps
    | with_reducible apply State.pushEdge_keeps

theorem execTddEdgeFire_keeps {s : State} (h : Keeps dk qu s) (pin : Fin 16) :
    KeepsOut dk qu (execTddEdgeFire pin s) := by
  unfold execTddEdgeFire
  repeat' first
    | with_reducible apply KeepsOut.next
    | with_reducible apply KeepsOut.ite
    | (intro)
    | with_reducible assumption
    | with_reducible apply State.fireEdges_keeps

theorem State.clrQueue_keeps {s : State} (h : Keeps dk qu s) (p : Nat) (v : Word) :
    Keeps dk qu (State.clrQueue s p v) := by
  unfold State.clrQueue
  repeat' first
    | (intro)
    | with_reducible assumption
    | with_reducible apply State.setPin_keeps
    | with_reducible apply State.syncPin_keeps
    | with_reducible apply Keeps.ite

theorem execClrQueue_keeps {s : State} (h : Keeps dk qu s) (req : Fin 14) (sel : BitVec 10) (value : Word) :
    KeepsOut dk qu (execClrQueue req sel value s) := by
  unfold execClrQueue
  repeat' first
    | with_reducible apply KeepsOut.next
    | with_reducible apply KeepsOut.ite
    | (intro)
    | with_reducible assumption
    | with_reducible apply State.hubEach_keeps
    | with_reducible apply State.clrQueue_keeps

theorem execTddOutSlotStart_keeps {s : State} (h : Keeps dk qu s) (pin : Fin 16) :
    KeepsOut dk qu (execTddOutSlotStart pin s) := by
  unfold execTddOutSlotStart
  repeat' first
    | with_reducible apply KeepsOut.next
    | with_reducible apply KeepsOut.ite
    | (intro)
    | with_reducible assumption
    | with_reducible apply State.setFld_keeps
    | with_reducible apply State.setPin_keeps
    | with_reducible apply State.syncPin_keeps

theorem execPpsOutRise_keeps {s : State} (h : Keeps dk qu s)  :
    KeepsOut dk qu (execPpsOutRise s) := by
  unfold execPpsOutRise
  repeat' first
    | with_reducible apply KeepsOut.next
    | with_reducible apply KeepsOut.ite
    | (intro)
    | with_reducible assumption
    | with_reducible apply State.setTb_keeps
    | with_reducible apply Keeps.ite
    | (dsimp only)
    | split
    | (refine Keeps.any ?_ ?_; rotate_left; rfl)

theorem execPpsOutFall_keeps {s : State} (h : Keeps dk qu s)  :
    KeepsOut dk qu (execPpsOutFall s) := by
  unfold execPpsOutFall
  repeat' first
    | with_reducible apply KeepsOut.next
    | with_reducible apply KeepsOut.ite
    | (intro)
    | with_reducible assumption
    | with_reducible apply Keeps.ite
    | (dsimp only)
    | split
    | (refine Keeps.any ?_ ?_; rotate_left; rfl)

theorem State.tbLatch_keeps {s : State} (h : Keeps dk qu s) (req n : Nat) :
    Keeps dk qu (State.tbLatch s req n) := by
  unfold State.tbLatch
  repeat' first
    | (intro)
    | with_reducible assumption
    | with_reducible apply State.holdFor_keeps
    | with_reducible apply Keeps.ite
    | (with_reducible apply Keeps.foldl)

theorem execTimeSecLoRead_keeps {s : State} (h : Keeps dk qu s) (req : Fin 14) (sel : BitVec 10) :
    KeepsOut dk qu (execTimeSecLoRead req sel s) := by
  unfold execTimeSecLoRead
  repeat' first
    | with_reducible apply KeepsOut.next
    | with_reducible apply KeepsOut.ite
    | (intro)
    | with_reducible assumption
    | with_reducible apply State.giveBack_keeps
    | with_reducible apply State.tbLatch_keeps
    | with_reducible apply Keeps.ite
    | (dsimp only)
    | split

/-! ## Lanes -/

theorem execLanesCal_keeps {s : State} (h : Keeps dk qu s)  :
    KeepsOut dk qu (execLanesCal s) := by
  unfold execLanesCal
  repeat' first
    | with_reducible apply KeepsOut.next
    | with_reducible apply KeepsOut.ite
    | (intro)
    | with_reducible assumption
    | with_reducible apply State.setFld_keeps
    | with_reducible apply State.syncReady_keeps
    | with_reducible apply State.laneUpdate_keeps
    | with_reducible apply Keeps.ite
    | (with_reducible apply Keeps.foldl)

theorem execSwitched_keeps {s : State} (h : Keeps dk qu s) (quad : Fin 12) :
    KeepsOut dk qu (execSwitched quad s) := by
  unfold execSwitched
  repeat' first
    | with_reducible apply KeepsOut.next
    | with_reducible apply KeepsOut.ite
    | (intro)
    | with_reducible assumption
    | with_reducible apply State.setFld_keeps
    | with_reducible apply State.post_keeps
    | with_reducible apply State.setOp_keeps
    | with_reducible apply State.endOp_keeps
    | with_reducible apply State.laneUpdate_keeps
    | with_reducible apply State.startSwitch_keeps
    | with_reducible apply Keeps.ite
    | (with_reducible apply Keeps.foldl)
    | (with_reducible apply Keeps.foldl_snd)
    | (with_reducible apply Keeps.foldl_snd2)
    | (with_reducible apply Keeps.foldl_fst)
    | (refine Keeps.foldl_snd_eq ?_ ?_ (by with_reducible assumption))
    | (refine Keeps.foldl_snd2_eq ?_ ?_ (by with_reducible assumption))
    | (refine Keeps.foldl_fst_eq ?_ ?_ (by with_reducible assumption))
    | (dsimp only)
    | split
    | (refine Keeps.any ?_ ?_; rotate_left; rfl)

theorem execRecalGo_keeps {s : State} (h : Keeps dk qu s) (req : Fin 14) (sel : BitVec 10) (value : Word) :
    KeepsOut dk qu (execRecalGo req sel value s) := by
  unfold execRecalGo
  repeat' first
    | with_reducible apply KeepsOut.next
    | with_reducible apply KeepsOut.ite
    | (intro)
    | with_reducible assumption
    | with_reducible apply State.hubEach_keeps
    | with_reducible apply State.recalGo_keeps

theorem execRecalDone_keeps {s : State} (h : Keeps dk qu s) (lane : Fin 48) (line : Bool) :
    KeepsOut dk qu (execRecalDone lane line s) := by
  unfold execRecalDone
  repeat' first
    | with_reducible apply KeepsOut.next
    | with_reducible apply KeepsOut.ite
    | (intro)
    | with_reducible assumption
    | with_reducible apply State.setFld_keeps
    | with_reducible apply State.post_keeps
    | with_reducible apply State.setOp_keeps
    | with_reducible apply State.endOp_keeps
    | with_reducible apply Keeps.ite
    | (with_reducible apply Keeps.foldl)
    | (with_reducible apply Keeps.foldl_snd)
    | (with_reducible apply Keeps.foldl_snd2)
    | (with_reducible apply Keeps.foldl_fst)
    | (refine Keeps.foldl_snd_eq ?_ ?_ (by with_reducible assumption))
    | (refine Keeps.foldl_snd2_eq ?_ ?_ (by with_reducible assumption))
    | (refine Keeps.foldl_fst_eq ?_ ?_ (by with_reducible assumption))
    | (dsimp only)
    | split
    | (refine Keeps.any ?_ ?_; rotate_left; rfl)

theorem execAdaptWindow_keeps {s : State} (h : Keeps dk qu s) (lane : Fin 48) (levels : List Nat) (transitions : Nat) (spoiled : Bool) :
    KeepsOut dk qu (execAdaptWindow lane levels transitions spoiled s) := by
  unfold execAdaptWindow
  repeat' first
    | with_reducible apply KeepsOut.next
    | with_reducible apply KeepsOut.ite
    | (intro)
    | with_reducible assumption
    | with_reducible apply State.setFld_keeps
    | with_reducible apply State.addFld_keeps
    | with_reducible apply State.takeFree_keeps
    | refine State.takeFree_keeps_eq ?_ (by with_reducible assumption)
    | with_reducible apply State.takeFir_keeps
    | with_reducible apply Keeps.ite
    | (with_reducible apply Keeps.foldl)

theorem State.holdEq_keeps {s : State} (h : Keeps dk qu s) (l : Nat) :
    Keeps dk qu (State.holdEq s l) := by
  unfold State.holdEq
  repeat' first
    | (intro)
    | with_reducible assumption
    | with_reducible apply State.setFld_keeps
    | with_reducible apply Keeps.ite

theorem State.laneCtl_keeps {s : State} (h : Keeps dk qu s) (l : Nat) (v : Word) :
    Keeps dk qu (State.laneCtl s l v) := by
  unfold State.laneCtl
  repeat' first
    | (intro)
    | with_reducible assumption
    | with_reducible apply State.storeReg_keeps
    | with_reducible apply State.laneUpdate_keeps
    | with_reducible apply State.macsCheck_keeps
    | with_reducible apply State.holdEq_keeps

theorem State.rxeqWrite_keeps {s : State} (h : Keeps dk qu s) (l : Nat) (v : Word) :
    Keeps dk qu (State.rxeqWrite s l v) := by
  unfold State.rxeqWrite
  repeat' first
    | (intro)
    | with_reducible assumption
    | with_reducible apply State.storeReg_keeps
    | with_reducible apply State.holdEq_keeps

theorem State.prbsWrite_keeps {s : State} (h : Keeps dk qu s) (l : Nat) (v : Word) :
    Keeps dk qu (State.prbsWrite s l v) := by
  unfold State.prbsWrite
  repeat' first
    | (intro)
    | with_reducible assumption
    | with_reducible apply State.setFld_keeps
    | with_reducible apply State.storeReg_keeps
    | with_reducible apply Keeps.ite

theorem execTxEnWrite_keeps {s : State} (h : Keeps dk qu s) (req : Fin 14) (sel : BitVec 10) (value : Word) :
    KeepsOut dk qu (execTxEnWrite req sel value s) := by
  unfold execTxEnWrite
  repeat' first
    | with_reducible apply KeepsOut.next
    | with_reducible apply KeepsOut.ite
    | (intro)
    | with_reducible assumption
    | with_reducible apply State.hubEach_keeps
    | with_reducible apply State.laneCtl_keeps

theorem execAhnentTxMultiframe_keeps {s : State} (h : Keeps dk qu s) (lane : Fin 48) :
    KeepsOut dk qu (execAhnentTxMultiframe lane s) := by
  unfold execAhnentTxMultiframe
  repeat' first
    | with_reducible apply KeepsOut.next
    | with_reducible apply KeepsOut.ite
    | (intro)
    | with_reducible assumption
    | with_reducible apply State.setAhn_keeps
    | with_reducible apply State.setTxState_keeps
    | with_reducible apply State.sendMultiframe_keeps
    | with_reducible apply Keeps.ite
    | (dsimp only)
    | split

theorem execAhnentRxMultiframe_keeps {s : State} (h : Keeps dk qu s) (lane : Fin 48) (blocks : List (BitVec 66)) :
    KeepsOut dk qu (execAhnentRxMultiframe lane blocks s) := by
  unfold execAhnentRxMultiframe
  repeat' first
    | with_reducible apply KeepsOut.next
    | with_reducible apply KeepsOut.ite
    | (intro)
    | with_reducible assumption
    | with_reducible apply State.setFld_keeps
    | with_reducible apply State.post_keeps
    | with_reducible apply State.takeMultiframe_keeps
    | with_reducible apply Keeps.ite
    | (dsimp only)
    | split
    | (refine Keeps.any ?_ ?_; rotate_left; rfl)

theorem execAhnentTrainDone_keeps {s : State} (h : Keeps dk qu s) (lane : Fin 48) (rx : Bool) :
    KeepsOut dk qu (execAhnentTrainDone lane rx s) := by
  unfold execAhnentTrainDone
  repeat' first
    | with_reducible apply KeepsOut.next
    | with_reducible apply KeepsOut.ite
    | (intro)
    | with_reducible assumption
    | with_reducible apply State.setFld_keeps
    | with_reducible apply State.setAhn_keeps
    | with_reducible apply State.setRxState_keeps
    | with_reducible apply State.txBegin_keeps

theorem execAhnentAlignTimeout_keeps {s : State} (h : Keeps dk qu s) (lane : Fin 48) :
    KeepsOut dk qu (execAhnentAlignTimeout lane s) := by
  unfold execAhnentAlignTimeout
  repeat' first
    | with_reducible apply KeepsOut.next
    | with_reducible apply KeepsOut.ite
    | (intro)
    | with_reducible assumption
    | with_reducible apply State.setTxState_keeps
    | with_reducible apply State.setRxState_keeps
    | with_reducible apply Keeps.ite

theorem execIdleEnter_keeps {s : State} (h : Keeps dk qu s) (lane : Fin 48) :
    KeepsOut dk qu (execIdleEnter lane s) := by
  unfold execIdleEnter
  repeat' first
    | with_reducible apply KeepsOut.next
    | with_reducible apply KeepsOut.ite
    | (intro)
    | with_reducible assumption
    | with_reducible apply State.setAhn_keeps

theorem execIdleExit_keeps {s : State} (h : Keeps dk qu s) (lane : Fin 48) :
    KeepsOut dk qu (execIdleExit lane s) := by
  unfold execIdleExit
  repeat' first
    | with_reducible apply KeepsOut.next
    | with_reducible apply KeepsOut.ite
    | (intro)
    | with_reducible assumption
    | with_reducible apply State.addFld_keeps
    | with_reducible apply State.txBegin_keeps
    | with_reducible apply Keeps.ite

theorem execAhnentRxIdle_keeps {s : State} (h : Keeps dk qu s) (lane : Fin 48) :
    KeepsOut dk qu (execAhnentRxIdle lane s) := by
  unfold execAhnentRxIdle
  repeat' first
    | with_reducible apply KeepsOut.next
    | with_reducible apply KeepsOut.ite
    | (intro)
    | with_reducible assumption
    | with_reducible apply State.setAhn_keeps
    | with_reducible apply State.setRxState_keeps
    | with_reducible apply State.ahnLoss_keeps

theorem State.userCw_keeps {s : State} (h : Keeps dk qu s) (q : Nat) (v : Word) :
    Keeps dk qu (State.userCw s q v) := by
  unfold State.userCw
  repeat' first
    | (intro)
    | with_reducible assumption
    | with_reducible apply State.pushWord_keeps

theorem execUserCw_keeps {s : State} (h : Keeps dk qu s) (req : Fin 14) (sel : BitVec 10) (value : Word) :
    KeepsOut dk qu (execUserCw req sel value s) := by
  unfold execUserCw
  repeat' first
    | with_reducible apply KeepsOut.next
    | with_reducible apply KeepsOut.ite
    | (intro)
    | with_reducible assumption
    | with_reducible apply State.hubEach_keeps
    | with_reducible apply State.userCw_keeps

theorem State.protectWrite_keeps {s : State} (h : Keeps dk qu s) (q : Nat) (v : Word) :
    Keeps dk qu (State.protectWrite s q v) := by
  unfold State.protectWrite
  repeat' first
    | (intro)
    | with_reducible assumption
    | with_reducible apply State.storeReg_keeps
    | with_reducible apply Keeps.ite
    | (dsimp only)
    | split
    | (refine Keeps.any ?_ ?_; rotate_left; rfl)

theorem execAhnentActiveWrite_keeps {s : State} (h : Keeps dk qu s) (req : Fin 14) (sel : BitVec 10) (value : Word) :
    KeepsOut dk qu (execAhnentActiveWrite req sel value s) := by
  unfold execAhnentActiveWrite
  repeat' first
    | with_reducible apply KeepsOut.next
    | with_reducible apply KeepsOut.ite
    | (intro)
    | with_reducible assumption
    | with_reducible apply State.hubEach_keeps
    | with_reducible apply State.protectWrite_keeps

theorem State.rxCwPop_keeps {s : State} (h : Keeps dk qu s) (l : Nat) :
    Keeps dk qu (State.rxCwPop s l) := by
  unfold State.rxCwPop
  repeat' first
    | (intro)
    | with_reducible assumption
    | with_reducible apply State.drop_keeps
    | with_reducible apply State.setAhn_keeps

theorem execRxCwRead_keeps {s : State} (h : Keeps dk qu s) (req : Fin 14) (sel : BitVec 10) (lane : Fin 4) :
    KeepsOut dk qu (execRxCwRead req sel lane s) := by
  unfold execRxCwRead
  repeat' first
    | with_reducible apply KeepsOut.next
    | with_reducible apply KeepsOut.ite
    | (intro)
    | with_reducible assumption
    | with_reducible apply State.giveBack_keeps
    | with_reducible apply State.rxCwPop_keeps
    | with_reducible apply Keeps.ite
    | (dsimp only)
    | split

theorem execCdrLoss_keeps {s : State} (h : Keeps dk qu s) (lane : Fin 48) :
    KeepsOut dk qu (execCdrLoss lane s) := by
  unfold execCdrLoss
  repeat' first
    | with_reducible apply KeepsOut.next
    | with_reducible apply KeepsOut.ite
    | (intro)
    | with_reducible assumption
    | with_reducible apply State.setFld_keeps
    | with_reducible apply State.post_keeps
    | with_reducible apply State.ahnLoss_keeps
    | with_reducible apply Keeps.ite

/-! ## Ledger -/

theorem State.takeCal_keeps {s : State} (h : Keeps dk qu s) (p : Nat) :
    Keeps dk qu (State.takeCal s p) := by
  unfold State.takeCal
  repeat' first
    | (intro)
    | with_reducible assumption
    | with_reducible apply State.setFld_keeps
    | with_reducible apply State.setMeter_keeps
    | with_reducible apply Keeps.ite
    | (dsimp only)
    | split

theorem State.meterPoint_keeps {s : State} (h : Keeps dk qu s) (p raw : Nat) :
    Keeps dk qu (State.meterPoint s p raw) := by
  unfold State.meterPoint
  repeat' first
    | (intro)
    | with_reducible assumption
    | with_reducible apply State.setFld_keeps
    | with_reducible apply State.charge_keeps
    | with_reducible apply State.accrue_keeps
    | with_reducible apply State.setMeter_keeps
    | with_reducible apply State.putTask_keeps
    | with_reducible apply State.takeCal_keeps
    | with_reducible apply Keeps.ite
    | (with_reducible apply Keeps.foldl)
    | (with_reducible apply Keeps.foldl_snd)
    | (with_reducible apply Keeps.foldl_snd2)
    | (with_reducible apply Keeps.foldl_fst)
    | (refine Keeps.foldl_snd_eq ?_ ?_ (by with_reducible assumption))
    | (refine Keeps.foldl_snd2_eq ?_ ?_ (by with_reducible assumption))
    | (refine Keeps.foldl_fst_eq ?_ ?_ (by with_reducible assumption))
    | (dsimp only)
    | split

theorem State.stretchStep_keeps {s : State} (h : Keeps dk qu s) (total : Nat) :
    Keeps dk qu (State.stretchStep s total) := by
  unfold State.stretchStep
  repeat' first
    | (intro)
    | with_reducible assumption
    | with_reducible apply State.addFld_keeps
    | with_reducible apply State.setLevel_keeps
    | with_reducible apply Keeps.ite
    | (dsimp only)
    | split
    | (refine Keeps.any ?_ ?_; rotate_left; rfl)

theorem execMeterStep_keeps {s : State} (h : Keeps dk qu s) (units others : List Nat) :
    KeepsOut dk qu (execMeterStep units others s) := by
  unfold execMeterStep
  generalize List.range 48 = points
  split
  · exact h
  extract_lets before s1 total
  have k : Keeps dk qu s1 := by
    refine Keeps.foldl h (fun s p h => ?_)
    exact State.meterPoint_keeps h _ _
  clear_value s1 total
  apply KeepsOut.next
  apply State.stretchStep_keeps
  exact Keeps.any k rfl

theorem State.meterFault_keeps {s : State} (h : Keeps dk qu s) (p cause : Nat) :
    Keeps dk qu (State.meterFault s p cause) := by
  unfold State.meterFault
  repeat' first
    | (intro)
    | with_reducible assumption
    | with_reducible apply State.setFld_keeps
    | with_reducible apply State.post_keeps
    | with_reducible apply State.reportFault_keeps

theorem execMeterFault_keeps {s : State} (h : Keeps dk qu s) (point : Fin 48) (range : Bool) :
    KeepsOut dk qu (execMeterFault point range s) := by
  unfold execMeterFault
  repeat' first
    | with_reducible apply KeepsOut.next
    | with_reducible apply KeepsOut.ite
    | (intro)
    | with_reducible assumption
    | with_reducible apply State.meterFault_keeps

theorem execMeterReferenceCheck_keeps {s : State} (h : Keeps dk qu s) (point : Fin 48) (within : Bool) :
    KeepsOut dk qu (execMeterReferenceCheck point within s) := by
  unfold execMeterReferenceCheck
  repeat' first
    | with_reducible apply KeepsOut.next
    | with_reducible apply KeepsOut.ite
    | (intro)
    | with_reducible assumption
    | with_reducible apply State.meterFault_keeps

theorem State.reconcile_keeps {s : State} (h : Keeps dk qu s) (shares : List (Nat × Nat)) (actual nominal a : Nat) :
    Keeps dk qu (State.reconcile s shares actual nominal a) := by
  unfold State.reconcile
  extract_lets s1 x s2 s3 s4
  have k1 : Keeps dk qu s1 := Keeps.foldl h fun s p h => State.charge_keeps h _ _ _ _
  have k3 : Keeps dk qu s3 := State.setFld_keeps (State.setFld_keeps k1 _ _ _) _ _ _
  have kx : x.balanced := k1.books a
  clear_value s3 x
  have k4 : Keeps dk qu s4 := by
    refine State.setAccount_keeps k3 _ _ ?_
    exact Account.balanced_congr kx rfl rfl rfl rfl
  exact State.creditChange_keeps (State.mint_keeps k4 _ _) _ _

theorem State.thriftPeriod_keeps {s : State} (h : Keeps dk qu s)  :
    Keeps dk qu (State.thriftPeriod s) := by
  unfold State.thriftPeriod
  repeat' first
    | (intro)
    | with_reducible assumption
    | with_reducible apply State.setFld_keeps
    | with_reducible apply State.grantUnparks_keeps
    | with_reducible apply State.devMove_keeps
    | with_reducible apply State.creditChange_keeps
    | with_reducible apply Keeps.ite
    | (dsimp only)
    | split
    | (refine Keeps.any ?_ ?_; rotate_left; rfl)

theorem State.closeMeter_keeps {s : State} (h : Keeps dk qu s) (p : Nat) :
    Keeps dk qu (State.closeMeter s p) := by
  unfold State.closeMeter
  repeat' first
    | (intro)
    | with_reducible assumption
    | with_reducible apply State.setFld_keeps
    | with_reducible apply State.setMeter_keeps

theorem State.fecPeriod_keeps {s : State} (h : Keeps dk qu s)  :
    Keeps dk qu (State.fecPeriod s) := by
  unfold State.fecPeriod
  repeat' first
    | (intro)
    | with_reducible assumption
    | with_reducible apply State.post_keeps
    | with_reducible apply Keeps.ite
    | (with_reducible apply Keeps.foldl)
    | (with_reducible apply Keeps.foldl_snd)
    | (with_reducible apply Keeps.foldl_snd2)
    | (with_reducible apply Keeps.foldl_fst)
    | (refine Keeps.foldl_snd_eq ?_ ?_ (by with_reducible assumption))
    | (refine Keeps.foldl_snd2_eq ?_ ?_ (by with_reducible assumption))
    | (refine Keeps.foldl_fst_eq ?_ ?_ (by with_reducible assumption))
    | (dsimp only)
    | split
    | (refine Keeps.any ?_ ?_; rotate_left; rfl)

theorem State.closePeriod_keeps {s : State} (h : Keeps dk qu s) (actual nominal : Nat) :
    Keeps dk qu (State.closePeriod s actual nominal) := by
  unfold State.closePeriod
  repeat' first
    | (intro)
    | with_reducible assumption
    | with_reducible apply State.setFld_keeps
    | with_reducible apply State.addFld_keeps
    | with_reducible apply State.tracePeriod_keeps
    | with_reducible apply State.vaultPeriod_keeps
    | with_reducible apply State.ethPeriod_keeps
    | with_reducible apply State.reconcile_keeps
    | with_reducible apply State.thriftPeriod_keeps
    | with_reducible apply State.closeMeter_keeps
    | with_reducible apply State.fecPeriod_keeps
    | with_reducible apply Keeps.ite
    | (with_reducible apply Keeps.foldl)

theorem State.periodDue_keeps_eq {s t : State} {a n : Nat} (h : Keeps dk qu s) (e : s.periodDue = some (a, n, t)) :
    Keeps dk qu t := by
  unfold State.periodDue at e
  split at e
  · cases e
    exact Keeps.any h rfl
  · exact State.periodOver_keeps_eq h e

theorem execPeriodClose_keeps {s : State} (h : Keeps dk qu s) (actual nominal : Nat) (grid : Bool) :
    KeepsOut dk qu (execPeriodClose actual nominal grid s) := by
  unfold execPeriodClose
  split
  · rename_i a n t e
    refine KeepsOut.ite (KeepsOut.next (State.closePeriod_keeps (State.periodDue_keeps_eq h e) _ _)) (KeepsOut.next h)
  · exact KeepsOut.next h

theorem execAdjust_keeps {s : State} (h : Keeps dk qu s) (req : Fin 14) (sel : BitVec 10) (value : Word) :
    KeepsOut dk qu (execAdjust req sel value s) := by
  unfold execAdjust
  repeat' first
    | with_reducible apply KeepsOut.next
    | with_reducible apply KeepsOut.ite
    | (intro)
    | with_reducible assumption
    | with_reducible apply State.adjust_keeps
    | with_reducible apply State.hubEach_keeps

theorem State.clrAccount_keeps {s : State} (h : Keeps dk qu s) (a : Nat) :
    Keeps dk qu (State.clrAccount s a) := by
  unfold State.clrAccount
  repeat' first
    | (intro)
    | with_reducible assumption
    | with_reducible apply State.setReg_keeps
    | with_reducible apply Keeps.ite
    | (with_reducible apply Keeps.foldl)

theorem execAccountClrStats_keeps {s : State} (h : Keeps dk qu s) (req : Fin 14) (sel : BitVec 10) :
    KeepsOut dk qu (execAccountClrStats req sel s) := by
  unfold execAccountClrStats
  repeat' first
    | with_reducible apply KeepsOut.next
    | with_reducible apply KeepsOut.ite
    | (intro)
    | with_reducible assumption
    | with_reducible apply State.hubEach_keeps
    | with_reducible apply State.clrAccount_keeps

theorem State.noteBusy_keeps {s : State} (h : Keeps dk qu s)  :
    Keeps dk qu (State.noteBusy s) := by
  unfold State.noteBusy
  repeat' first
    | (intro)
    | with_reducible assumption
    | with_reducible apply Keeps.ite
    | (with_reducible apply Keeps.foldl)
    | (with_reducible apply Keeps.foldl_snd)
    | (with_reducible apply Keeps.foldl_snd2)
    | (with_reducible apply Keeps.foldl_fst)
    | (refine Keeps.foldl_snd_eq ?_ ?_ (by with_reducible assumption))
    | (refine Keeps.foldl_snd2_eq ?_ ?_ (by with_reducible assumption))
    | (refine Keeps.foldl_fst_eq ?_ ?_ (by with_reducible assumption))
    | (dsimp only)
    | split
    | (refine Keeps.any ?_ ?_; rotate_left; rfl)

theorem execDomainPark_keeps {s : State} (h : Keeps dk qu s) (domain : Fin 78) :
    KeepsOut dk qu (execDomainPark domain s) := by
  unfold execDomainPark
  repeat' first
    | with_reducible apply KeepsOut.next
    | with_reducible apply KeepsOut.ite
    | (intro)
    | with_reducible assumption
    | with_reducible apply State.setFld_keeps
    | with_reducible apply State.addFld_keeps
    | with_reducible apply State.post_keeps
    | with_reducible apply Keeps.ite

theorem execDomainUnpark_keeps {s : State} (h : Keeps dk qu s) (domain : Fin 78) :
    KeepsOut dk qu (execDomainUnpark domain s) := by
  unfold execDomainUnpark
  repeat' first
    | with_reducible apply KeepsOut.next
    | with_reducible apply KeepsOut.ite
    | (intro)
    | with_reducible assumption
    | with_reducible apply State.unpark_keeps
    | with_reducible apply Keeps.ite
    | (dsimp only)
    | split
    | (refine Keeps.any ?_ ?_; rotate_left; rfl)

/-! ## Dispatcher -/

theorem State.setPosts_keeps {s : State} (h : Keeps dk qu s) (r : Nat) (l : List HeldPost) :
    Keeps dk qu (State.setPosts s r l) := by
  unfold State.setPosts
  repeat' first
    | (intro)
    | with_reducible assumption
    | with_reducible apply Keeps.ite
    | (dsimp only)
    | split
    | (refine Keeps.any ?_ ?_; rotate_left; rfl)

theorem State.postWrite_keeps {s : State} (h : Keeps dk qu s) (req queue : Nat) (v : Word) :
    Keeps dk qu (State.postWrite s req queue v) := by
  unfold State.postWrite
  repeat' first
    | (intro)
    | with_reducible assumption
    | with_reducible apply State.setPosts_keeps
    | with_reducible apply Keeps.ite
    | (dsimp only)
    | split
    | (refine Keeps.any ?_ ?_; rotate_left; rfl)

theorem execDqueuePost_keeps {s : State} (h : Keeps dk qu s) (req : Fin 14) (queue : Fin 256) (value : Word) :
    KeepsOut dk qu (execDqueuePost req queue value s) := by
  unfold execDqueuePost
  repeat' first
    | with_reducible apply KeepsOut.next
    | with_reducible apply KeepsOut.ite
    | (intro)
    | with_reducible assumption
    | with_reducible apply State.postWrite_keeps

theorem State.answerReads_keeps {s : State} (h : Keeps dk qu s) (r : Nat) :
    Keeps dk qu (State.answerReads s r) := by
  unfold State.answerReads
  repeat' first
    | (intro)
    | with_reducible assumption
    | with_reducible apply State.giveBack_keeps
    | with_reducible apply State.setPosts_keeps
    | with_reducible apply Keeps.ite

theorem State.rejectPost_keeps {s : State} (h : Keeps dk qu s) (r : Nat) (h : HeldPost) :
    Keeps dk qu (State.rejectPost s r h) := by
  unfold State.rejectPost
  repeat' first
    | (intro)
    | with_reducible assumption
    | with_reducible apply State.post_keeps
    | with_reducible apply State.setDch_keeps
    | with_reducible apply State.dmaErr_keeps
    | with_reducible apply Keeps.ite
    | (dsimp only)
    | split

theorem State.grantPost_keeps {s : State} (h : Keeps dk qu s) (r : Nat) (h : HeldPost) :
    Keeps dk qu (State.grantPost s r h) := by
  unfold State.grantPost
  repeat' first
    | (intro)
    | with_reducible assumption
    | with_reducible apply State.busRead_keeps
    | refine State.busRead_keeps_eq ?_ (by with_reducible assumption)
    | with_reducible apply State.took_keeps
    | with_reducible apply State.accept_keeps
    | with_reducible apply State.drop_keeps
    | with_reducible apply State.setPosts_keeps
    | with_reducible apply State.answerReads_keeps
    | with_reducible apply State.rejectPost_keeps
    | with_reducible apply Keeps.ite
    | (dsimp only)
    | split
    | (refine Keeps.any ?_ ?_; rotate_left; rfl)

theorem execPostRead_keeps {s : State} (h : Keeps dk qu s) (req : Fin 14) (queue : Fin 256) :
    KeepsOut dk qu (execPostRead req queue s) := by
  unfold execPostRead
  repeat' first
    | with_reducible apply KeepsOut.next
    | with_reducible apply KeepsOut.ite
    | (intro)
    | with_reducible assumption
    | with_reducible apply State.giveBack_keeps
    | with_reducible apply State.setPosts_keeps

theorem State.keySetCount_keeps {s : State} (h : Keeps dk qu s) (block : Nat) (v : Word) :
    Keeps dk qu (State.keySetCount s block v) := by
  unfold State.keySetCount
  repeat' first
    | (intro)
    | with_reducible assumption
    | with_reducible apply State.setCount_keeps

theorem execKeystoneSetCount_keeps {s : State} (h : Keeps dk qu s) (req : Fin 14) (block : Fin 32) (value : Word) :
    KeepsOut dk qu (execKeystoneSetCount req block value s) := by
  unfold execKeystoneSetCount
  repeat' first
    | with_reducible apply KeepsOut.next
    | with_reducible apply KeepsOut.ite
    | (intro)
    | with_reducible assumption
    | with_reducible apply State.hubEach_keeps
    | with_reducible apply State.keySetCount_keeps

theorem execKeystoneSetReload_keeps {s : State} (h : Keeps dk qu s) (req : Fin 14) (block : Fin 32) (value : Word) :
    KeepsOut dk qu (execKeystoneSetReload req block value s) := by
  unfold execKeystoneSetReload
  repeat' first
    | with_reducible apply KeepsOut.next
    | with_reducible apply KeepsOut.ite
    | (intro)
    | with_reducible assumption
    | with_reducible apply State.setReload_keeps
    | with_reducible apply State.hubEach_keeps

theorem State.keyDecWrite_keeps {s : State} (h : Keeps dk qu s) (req block : Nat) (v : Word) :
    Keeps dk qu (State.keyDecWrite s req block v) := by
  unfold State.keyDecWrite
  repeat' first
    | (intro)
    | with_reducible assumption
    | with_reducible apply State.decKey_keeps
    | with_reducible apply State.hubEach_keeps

theorem execKeystoneDec_keeps {s : State} (h : Keeps dk qu s) (req : Fin 14) (block : Fin 32) (value : Word) :
    KeepsOut dk qu (execKeystoneDec req block value s) := by
  unfold execKeystoneDec
  repeat' first
    | with_reducible apply KeepsOut.next
    | with_reducible apply KeepsOut.ite
    | (intro)
    | with_reducible assumption
    | with_reducible apply State.keyDecWrite_keeps

theorem execTellerFill_keeps {s : State} (h : Keeps dk qu s)  :
    KeepsOut dk qu (execTellerFill s) := by
  unfold execTellerFill
  repeat' first
    | with_reducible apply KeepsOut.next
    | with_reducible apply KeepsOut.ite
    | (intro)
    | with_reducible assumption
    | with_reducible apply State.place_keeps
    | with_reducible apply Keeps.ite
    | (dsimp only)
    | split
    | (refine Keeps.any ?_ ?_; rotate_left; rfl)

theorem execSlotAgeReclaim_keeps {s : State} (h : Keeps dk qu s) (unit : Fin 232) :
    KeepsOut dk qu (execSlotAgeReclaim unit s) := by
  unfold execSlotAgeReclaim
  repeat' first
    | with_reducible apply KeepsOut.next
    | with_reducible apply KeepsOut.ite
    | (intro)
    | with_reducible assumption
    | with_reducible apply State.reclaim_keeps
    | with_reducible apply Keeps.ite
    | (with_reducible apply Keeps.foldl)
    | (with_reducible apply Keeps.foldl_snd)
    | (with_reducible apply Keeps.foldl_snd2)
    | (with_reducible apply Keeps.foldl_fst)
    | (refine Keeps.foldl_snd_eq ?_ ?_ (by with_reducible assumption))
    | (refine Keeps.foldl_snd2_eq ?_ ?_ (by with_reducible assumption))
    | (refine Keeps.foldl_fst_eq ?_ ?_ (by with_reducible assumption))
    | (dsimp only)
    | split

theorem execTaskCompletion_keeps {s : State} (h : Keeps dk qu s) (index : BitVec 14) (cause : BitVec 4) :
    KeepsOut dk qu (execTaskCompletion index cause s) := by
  unfold execTaskCompletion
  repeat' first
    | with_reducible apply KeepsOut.next
    | with_reducible apply KeepsOut.ite
    | (intro)
    | with_reducible assumption
    | with_reducible apply State.endRecovery_keeps
    | with_reducible apply State.complete_keeps
    | with_reducible apply State.settleFences_keeps
    | with_reducible apply Keeps.ite
    | (dsimp only)
    | split
    | (refine Keeps.any ?_ ?_; rotate_left; rfl)

theorem State.cancelWrite_keeps {s : State} (h : Keeps dk qu s) (req : Nat) (v : Word) :
    Keeps dk qu (State.cancelWrite s req v) := by
  unfold State.cancelWrite
  repeat' first
    | (intro)
    | with_reducible assumption
    | with_reducible apply State.drop_keeps
    | with_reducible apply Keeps.ite
    | (dsimp only)
    | split
    | (refine Keeps.any ?_ ?_; rotate_left; rfl)

theorem execDispCancel_keeps {s : State} (h : Keeps dk qu s) (req : Fin 14) (value : Word) :
    KeepsOut dk qu (execDispCancel req value s) := by
  unfold execDispCancel
  repeat' first
    | with_reducible apply KeepsOut.next
    | with_reducible apply KeepsOut.ite
    | (intro)
    | with_reducible assumption
    | with_reducible apply State.cancelWrite_keeps

theorem State.dqueueClear_keeps {s : State} (h : Keeps dk qu s) (q : Nat) (v : Word) :
    Keeps dk qu (State.dqueueClear s q v) := by
  unfold State.dqueueClear
  repeat' first
    | (intro)
    | with_reducible assumption
    | with_reducible apply State.setReg_keeps
    | with_reducible apply Keeps.ite
    | (with_reducible apply Keeps.foldl)

theorem execDqueueClrMax_keeps {s : State} (h : Keeps dk qu s) (req : Fin 14) (sel : BitVec 10) :
    KeepsOut dk qu (execDqueueClrMax req sel s) := by
  unfold execDqueueClrMax
  repeat' first
    | with_reducible apply KeepsOut.next
    | with_reducible apply KeepsOut.ite
    | (intro)
    | with_reducible assumption
    | with_reducible apply State.hubEach_keeps
    | with_reducible apply State.dqueueClear_keeps

theorem execDqueueClrHist_keeps {s : State} (h : Keeps dk qu s) (req : Fin 14) (sel : BitVec 10) :
    KeepsOut dk qu (execDqueueClrHist req sel s) := by
  unfold execDqueueClrHist
  repeat' first
    | with_reducible apply KeepsOut.next
    | with_reducible apply KeepsOut.ite
    | (intro)
    | with_reducible assumption
    | with_reducible apply State.hubEach_keeps
    | with_reducible apply State.dqueueClear_keeps

theorem State.tellerClear_keeps {s : State} (h : Keeps dk qu s) (c : Nat) (v : Word) :
    Keeps dk qu (State.tellerClear s c v) := by
  unfold State.tellerClear
  repeat' first
    | (intro)
    | with_reducible assumption
    | with_reducible apply State.setReg_keeps
    | with_reducible apply Keeps.ite
    | (with_reducible apply Keeps.foldl)

theorem execTellerClrHist_keeps {s : State} (h : Keeps dk qu s) (req : Fin 14) (sel : BitVec 10) :
    KeepsOut dk qu (execTellerClrHist req sel s) := by
  unfold execTellerClrHist
  repeat' first
    | with_reducible apply KeepsOut.next
    | with_reducible apply KeepsOut.ite
    | (intro)
    | with_reducible assumption
    | with_reducible apply State.hubEach_keeps
    | with_reducible apply State.tellerClear_keeps

/-! ## Journal -/

theorem execJournalGrant_keeps {s : State} (h : Keeps dk qu s) : KeepsOut dk qu (execJournalGrant s) := by
  unfold execJournalGrant
  split
  · exact h
  cases rrPick 256 s.journal.lastCls (fun c => !(tget [] s.journal.fifo c).isEmpty) with
  | none => exact h
  | some c =>
    dsimp only
    cases classPick (tget 1023 s.journal.lastInst c) (tget [] s.journal.fifo c) with
    | none => exact h
    | some e => exact KeepsOut.next (State.journalWrite_keeps (Keeps.any h rfl) _ _)

theorem execLost_keeps {s : State} (h : Keeps dk qu s) (cls : BitVec 8) :
    KeepsOut dk qu (execLost cls s) := by
  unfold execLost
  repeat' first
    | with_reducible apply KeepsOut.next
    | with_reducible apply KeepsOut.ite
    | (intro)
    | with_reducible assumption
    | with_reducible apply Keeps.ite
    | (dsimp only)
    | split
    | (refine Keeps.any ?_ ?_; rotate_left; rfl)

end Sys2Proof.Machine
end

