-- ==== Sys2Proof/Laws/KeepsMesh.lean ====
section
/-! SUPPORT. What commands of the Mortar, the memories and Ethernet keep (`Keeps`, `KeepsOut`): one lemma a definition. -/
namespace Sys2Proof.Machine

variable {dk : BitVec 64} {qu : List Instr}

/-! ## Mortar -/

theorem State.setTxns_keeps {s : State} (h : Keeps dk qu s) (l : List Txn) :
    Keeps dk qu (State.setTxns s l) := by
  unfold State.setTxns
  repeat' first
    | (intro)
    | with_reducible assumption
    | with_reducible apply Keeps.ite
    | (dsimp only)
    | split
    | (refine Keeps.any ?_ ?_; rotate_left; rfl)

theorem State.syncNi_keeps {s : State} (h : Keeps dk qu s) (ni : Nat) :
    Keeps dk qu (State.syncNi s ni) := by
  unfold State.syncNi
  repeat' first
    | (intro)
    | with_reducible assumption
    | with_reducible apply State.setFld_keeps

theorem State.countBytes_keeps {s : State} (h : Keeps dk qu s) (ni req n b : Nat) :
    Keeps dk qu (State.countBytes s ni req n b) := by
  unfold State.countBytes
  repeat' first
    | (intro)
    | with_reducible assumption
    | with_reducible apply Keeps.ite
    | (dsimp only)
    | split
    | (refine Keeps.any ?_ ?_; rotate_left; rfl)

theorem State.giveResult_keeps {s : State} (h : Keeps dk qu s) (ni req status : Nat) (data : List (Byte × Bool)) :
    Keeps dk qu (State.giveResult s ni req status data) := by
  unfold State.giveResult
  repeat' first
    | (intro)
    | with_reducible assumption
    | with_reducible apply Keeps.ite
    | (dsimp only)
    | split
    | (refine Keeps.any ?_ ?_; rotate_left; rfl)

theorem State.sendData_keeps {s : State} (h : Keeps dk qu s) (ni vc src dest txn : Nat) (words : List (List (Byte × Bool))) :
    Keeps dk qu (State.sendData s ni vc src dest txn words) := by
  unfold State.sendData
  repeat' first
    | (intro)
    | with_reducible assumption
    | with_reducible apply State.sendFlit_keeps
    | with_reducible apply Keeps.ite
    | (with_reducible apply Keeps.foldl)

theorem State.niSend_keeps {s : State} (h : Keeps dk qu s) (ni port : Nat) (q : NiReq) (d n : Nat) :
    Keeps dk qu (State.niSend s ni port q d n) := by
  unfold State.niSend
  repeat' first
    | (intro)
    | with_reducible assumption
    | with_reducible apply State.sendFlit_keeps
    | with_reducible apply State.countBytes_keeps
    | with_reducible apply State.sendData_keeps
    | with_reducible apply Keeps.ite
    | (dsimp only)
    | split
    | (refine Keeps.any ?_ ?_; rotate_left; rfl)

theorem State.niArrive_keeps {s : State} (h : Keeps dk qu s) (ni : Nat) (l : List NiReq) :
    Keeps dk qu (State.niArrive s ni l) := by
  unfold State.niArrive
  repeat' first
    | (intro)
    | with_reducible assumption
    | with_reducible apply Keeps.ite
    | (dsimp only)
    | split
    | (refine Keeps.any ?_ ?_; rotate_left; rfl)

theorem State.niGrant_keeps {s : State} (h : Keeps dk qu s) (ni k : Nat) (q : NiReq) :
    Keeps dk qu (State.niGrant s ni k q) := by
  unfold State.niGrant
  repeat' first
    | (intro)
    | with_reducible assumption
    | with_reducible apply State.giveResult_keeps
    | with_reducible apply State.niSend_keeps
    | with_reducible apply Keeps.ite
    | (dsimp only)
    | split
    | (refine Keeps.any ?_ ?_; rotate_left; rfl)

theorem execNiInject_keeps {s : State} (h : Keeps dk qu s) (ni : Fin 64) (req : Option (Fin 15)) (more : Bool) (op : BitVec 3)
    (len : BitVec 5 × BitVec 3) (addr : BitVec 40) (data : List (Byte × Bool)) :
    KeepsOut dk qu (execNiInject ni req more op len addr data s) := by
  unfold execNiInject
  repeat' first
    | with_reducible apply KeepsOut.next
    | with_reducible apply KeepsOut.ite
    | (intro)
    | with_reducible assumption
    | with_reducible apply State.syncNi_keeps
    | with_reducible apply State.niArrive_keeps
    | with_reducible apply State.niGrant_keeps
    | with_reducible apply Keeps.ite
    | (dsimp only)
    | split

theorem State.niUpdate_keeps {s : State} (h : Keeps dk qu s) (ni : Nat) :
    Keeps dk qu (State.niUpdate s ni) := by
  unfold State.niUpdate
  repeat' first
    | (intro)
    | with_reducible assumption
    | with_reducible apply Keeps.ite
    | (dsimp only)
    | split
    | (refine Keeps.any ?_ ?_; rotate_left; rfl)

theorem State.drainReport_keeps {s : State} (h : Keeps dk qu s) (ni d : Nat) :
    Keeps dk qu (State.drainReport s ni d) := by
  unfold State.drainReport
  repeat' first
    | (intro)
    | with_reducible assumption
    | with_reducible apply State.setPort_keeps
    | with_reducible apply State.sendFlit_keeps
    | with_reducible apply State.countBytes_keeps
    | with_reducible apply State.niUpdate_keeps
    | with_reducible apply Keeps.ite

theorem State.drainSettle_keeps {s : State} (h : Keeps dk qu s) (d : Nat) :
    Keeps dk qu (State.drainSettle s d) := by
  unfold State.drainSettle
  repeat' first
    | (intro)
    | with_reducible assumption
    | with_reducible apply State.post_keeps
    | with_reducible apply State.setPort_keeps
    | with_reducible apply State.portDrained_keeps
    | with_reducible apply Keeps.ite

theorem State.endTxn_keeps {s : State} (h : Keeps dk qu s) (t : Txn) (status : Nat) (data : List (Byte × Bool)) :
    Keeps dk qu (State.endTxn s t status data) := by
  unfold State.endTxn
  repeat' first
    | (intro)
    | with_reducible assumption
    | with_reducible apply State.setTxns_keeps
    | with_reducible apply State.syncNi_keeps
    | with_reducible apply State.giveResult_keeps
    | with_reducible apply State.drainReport_keeps
    | with_reducible apply State.drainSettle_keeps

theorem State.forceAt_keeps {s : State} (h : Keeps dk qu s) (ni d : Nat) :
    Keeps dk qu (State.forceAt s ni d) := by
  unfold State.forceAt
  repeat' first
    | (intro)
    | with_reducible assumption
    | with_reducible apply State.niUpdate_keeps
    | with_reducible apply State.endTxn_keeps
    | with_reducible apply Keeps.ite
    | (with_reducible apply Keeps.foldl)
    | (with_reducible apply Keeps.foldl_snd)
    | (with_reducible apply Keeps.foldl_snd2)
    | (with_reducible apply Keeps.foldl_fst)
    | (refine Keeps.foldl_snd_eq ?_ ?_ (by with_reducible assumption))
    | (refine Keeps.foldl_snd2_eq ?_ ?_ (by with_reducible assumption))
    | (refine Keeps.foldl_fst_eq ?_ ?_ (by with_reducible assumption))
    | (dsimp only)
    | split
    | (refine Keeps.any ?_ ?_; rotate_left; rfl)

theorem State.eject_keeps {s : State} (h : Keeps dk qu s) (ni : Nat) (f : Flit) :
    Keeps dk qu (State.eject s ni f) := by
  unfold State.eject
  repeat' first
    | (intro)
    | with_reducible assumption
    | with_reducible apply State.post_keeps
    | with_reducible apply State.setFlits_keeps
    | with_reducible apply State.forceAt_keeps
    | with_reducible apply Keeps.ite
    | (dsimp only)
    | split

theorem State.linkPassed_keeps {s : State} (h : Keeps dk qu s) (r d : Nat) :
    Keeps dk qu (State.linkPassed s r d) := by
  unfold State.linkPassed
  repeat' first
    | (intro)
    | with_reducible assumption
    | with_reducible apply State.setLink_keeps
    | with_reducible apply Keeps.ite
    | (dsimp only)
    | split
    | (refine Keeps.any ?_ ?_; rotate_left; rfl)

theorem State.moveFlit_keeps {s : State} (h : Keeps dk qu s) (f : Flit) :
    Keeps dk qu (State.moveFlit s f) := by
  unfold State.moveFlit
  repeat' first
    | (intro)
    | with_reducible assumption
    | with_reducible apply State.countEvent_keeps
    | with_reducible apply State.setFlits_keeps
    | with_reducible apply State.place_keeps
    | with_reducible apply State.eject_keeps
    | with_reducible apply State.linkPassed_keeps
    | with_reducible apply Keeps.ite
    | (dsimp only)
    | split
    | (refine Keeps.any ?_ ?_; rotate_left; rfl)

theorem State.fcFinish_keeps {s : State} (h : Keeps dk qu s)  :
    Keeps dk qu (State.fcFinish s) := by
  unfold State.fcFinish
  repeat' first
    | (intro)
    | with_reducible assumption
    | with_reducible apply State.fcAdvance_keeps
    | with_reducible apply State.place_keeps
    | with_reducible apply Keeps.ite
    | (dsimp only)
    | split
    | (refine Keeps.any ?_ ?_; rotate_left; rfl)

theorem State.forceFinish_keeps {s : State} (h : Keeps dk qu s)  :
    Keeps dk qu (State.forceFinish s) := by
  unfold State.forceFinish
  repeat' first
    | (intro)
    | with_reducible assumption
    | with_reducible apply State.post_keeps
    | with_reducible apply State.setPort_keeps
    | with_reducible apply State.portDrained_keeps
    | with_reducible apply Keeps.ite
    | (with_reducible apply Keeps.foldl)
    | (with_reducible apply Keeps.foldl_snd)
    | (with_reducible apply Keeps.foldl_snd2)
    | (with_reducible apply Keeps.foldl_fst)
    | (refine Keeps.foldl_snd_eq ?_ ?_ (by with_reducible assumption))
    | (refine Keeps.foldl_snd2_eq ?_ ?_ (by with_reducible assumption))
    | (refine Keeps.foldl_fst_eq ?_ ?_ (by with_reducible assumption))
    | (dsimp only)
    | split
    | (refine Keeps.any ?_ ?_; rotate_left; rfl)

theorem State.meshCycle_keeps {s : State} (h : Keeps dk qu s)  :
    Keeps dk qu (State.meshCycle s) := by
  unfold State.meshCycle
  repeat' first
    | (intro)
    | with_reducible assumption
    | with_reducible apply State.moveFlit_keeps
    | with_reducible apply State.fcFinish_keeps
    | with_reducible apply State.forceFinish_keeps
    | with_reducible apply Keeps.ite
    | (with_reducible apply Keeps.foldl)

theorem State.meshRun_keeps {s : State} (h : Keeps dk qu s) (goal : State → Bool) (n : Nat) :
    Keeps dk qu (State.meshRun goal n s) := by
  induction n generalizing s with
  | zero => exact h
  | succ n ih =>
    unfold State.meshRun
    exact Keeps.ite h (ih (State.meshCycle_keeps h))

theorem State.meshUntil_keeps {s : State} (h : Keeps dk qu s) (goal : State → Bool) :
    Keeps dk qu (State.meshUntil s goal) := State.meshRun_keeps h goal _

theorem State.takeFlit_keeps {s : State} (h : Keeps dk qu s) (f : Flit) :
    Keeps dk qu (State.takeFlit s f) := by
  unfold State.takeFlit
  repeat' first
    | (intro)
    | with_reducible assumption
    | with_reducible apply State.setFlits_keeps

theorem State.countLatency_keeps {s : State} (h : Keeps dk qu s) (ni req c : Nat) :
    Keeps dk qu (State.countLatency s ni req c) := by
  unfold State.countLatency
  repeat' first
    | (intro)
    | with_reducible assumption
    | with_reducible apply Keeps.ite
    | (dsimp only)
    | split
    | (refine Keeps.any ?_ ?_; rotate_left; rfl)

theorem execResponseArrive_keeps {s : State} (h : Keeps dk qu s) (ni : Fin 64) (port : Fin 4) (txn : BitVec 10) (latency : Nat) :
    KeepsOut dk qu (execResponseArrive ni port txn latency s) := by
  unfold execResponseArrive
  repeat' first
    | with_reducible apply KeepsOut.next
    | with_reducible apply KeepsOut.ite
    | (intro)
    | with_reducible assumption
    | with_reducible apply State.addFld_keeps
    | with_reducible apply State.countBytes_keeps
    | with_reducible apply State.endTxn_keeps
    | with_reducible apply State.meshUntil_keeps
    | with_reducible apply State.takeFlit_keeps
    | with_reducible apply State.countLatency_keeps
    | with_reducible apply Keeps.ite
    | (with_reducible apply Keeps.foldl)
    | (with_reducible apply Keeps.foldl_snd)
    | (with_reducible apply Keeps.foldl_snd2)
    | (with_reducible apply Keeps.foldl_fst)
    | (refine Keeps.foldl_snd_eq ?_ ?_ (by with_reducible assumption))
    | (refine Keeps.foldl_snd2_eq ?_ ?_ (by with_reducible assumption))
    | (refine Keeps.foldl_fst_eq ?_ ?_ (by with_reducible assumption))
    | (dsimp only)
    | split

theorem execTxnTimeout_keeps {s : State} (h : Keeps dk qu s) (ni : Fin 64) (port : Fin 4) (txn : BitVec 10) :
    KeepsOut dk qu (execTxnTimeout ni port txn s) := by
  unfold execTxnTimeout
  repeat' first
    | with_reducible apply KeepsOut.next
    | with_reducible apply KeepsOut.ite
    | (intro)
    | with_reducible assumption
    | with_reducible apply State.post_keeps
    | with_reducible apply State.endTxn_keeps
    | with_reducible apply Keeps.ite
    | (dsimp only)
    | split

theorem State.dropData_keeps {s : State} (h : Keeps dk qu s) (f : Flit) :
    Keeps dk qu (State.dropData s f) := by
  unfold State.dropData
  repeat' first
    | (intro)
    | with_reducible assumption
    | with_reducible apply State.setFlits_keeps

theorem State.badHeader_keeps {s : State} (h : Keeps dk qu s) (ni : Nat) (f : Flit) :
    Keeps dk qu (State.badHeader s ni f) := by
  unfold State.badHeader
  repeat' first
    | (intro)
    | with_reducible assumption
    | with_reducible apply State.post_keeps
    | with_reducible apply State.reportFault_keeps
    | with_reducible apply State.endRecovery_keeps
    | with_reducible apply State.takeFlit_keeps
    | with_reducible apply State.dropData_keeps

theorem execLinkReplay_keeps {s : State} (h : Keeps dk qu s) (router : Fin 256) (dir : Fin 4) :
    KeepsOut dk qu (execLinkReplay router dir s) := by
  unfold execLinkReplay
  repeat' first
    | with_reducible apply KeepsOut.next
    | with_reducible apply KeepsOut.ite
    | (intro)
    | with_reducible assumption
    | with_reducible apply State.addFld_keeps
    | with_reducible apply State.setLink_keeps
    | with_reducible apply Keeps.ite
    | (dsimp only)
    | split
    | (refine Keeps.any ?_ ?_; rotate_left; rfl)

theorem State.divertAt_keeps {s : State} (h : Keeps dk qu s) (r : Nat) :
    Keeps dk qu (State.divertAt s r) := by
  unfold State.divertAt
  repeat' first
    | (intro)
    | with_reducible assumption
    | with_reducible apply State.setFlits_keeps

theorem execLinkFailed_keeps {s : State} (h : Keeps dk qu s) (router : Fin 256) (dir : Fin 4) :
    KeepsOut dk qu (execLinkFailed router dir s) := by
  unfold execLinkFailed
  repeat' first
    | with_reducible apply KeepsOut.next
    | with_reducible apply KeepsOut.ite
    | (intro)
    | with_reducible assumption
    | with_reducible apply State.post_keeps
    | with_reducible apply State.reportFault_keeps
    | with_reducible apply State.setLink_keeps
    | with_reducible apply State.sendAll_keeps
    | with_reducible apply State.divertAt_keeps
    | with_reducible apply Keeps.ite
    | (dsimp only)
    | split
    | (refine Keeps.any ?_ ?_; rotate_left; rfl)

theorem State.takeSnoop_keeps {s : State} (h : Keeps dk qu s) (ni type : Nat) (p : Nat → Bool) :
    Keeps dk qu (State.takeSnoop s ni type p).2 := by
  unfold State.takeSnoop
  repeat' first
    | (intro)
    | with_reducible assumption
    | with_reducible apply State.countBytes_keeps
    | with_reducible apply State.meshUntil_keeps
    | with_reducible apply State.takeFlit_keeps
    | with_reducible apply Keeps.ite
    | (dsimp only)
    | split

theorem State.takeSnoop_keeps_eq {s : State} (h : Keeps dk qu s) {ni type : Nat} {p : Nat → Bool} {x : Option Nat}
    {sv : State} (eqn : State.takeSnoop s ni type p = (x, sv)) : Keeps dk qu sv := by
  have := State.takeSnoop_keeps h ni type p
  rwa [eqn] at this

theorem execNiLinkDown_keeps {s : State} (h : Keeps dk qu s) (ni : Fin 64) (plane : Fin 4) (position : Fin 64) (dir : Fin 4) :
    KeepsOut dk qu (execNiLinkDown ni plane position dir s) := by
  unfold execNiLinkDown
  repeat' first
    | with_reducible apply KeepsOut.next
    | with_reducible apply KeepsOut.ite
    | (intro)
    | with_reducible assumption
    | with_reducible apply State.takeSnoop_keeps
    | refine State.takeSnoop_keeps_eq ?_ (by with_reducible assumption)
    | with_reducible apply Keeps.ite
    | (dsimp only)
    | split
    | (refine Keeps.any ?_ ?_; rotate_left; rfl)

theorem State.copyBank_keeps {s : State} (h : Keeps dk qu s) (ni : Nat) :
    Keeps dk qu (State.copyBank s ni) := by
  unfold State.copyBank
  repeat' first
    | (intro)
    | with_reducible assumption
    | with_reducible apply State.setRoute_keeps
    | with_reducible apply Keeps.ite
    | (with_reducible apply Keeps.foldl)

theorem State.flipEpoch_keeps {s : State} (h : Keeps dk qu s) (ni : Nat) :
    Keeps dk qu (State.flipEpoch s ni) := by
  unfold State.flipEpoch
  repeat' first
    | (intro)
    | with_reducible assumption
    | with_reducible apply State.setFld_keeps
    | with_reducible apply State.syncNi_keeps
    | with_reducible apply State.niUpdate_keeps

theorem execDetour_keeps {s : State} (h : Keeps dk qu s) (ni : Fin 64) (plane : Fin 4) (position : Fin 64) (dir : Fin 4) :
    KeepsOut dk qu (execDetour ni plane position dir s) := by
  unfold execDetour
  repeat' first
    | with_reducible apply KeepsOut.next
    | with_reducible apply KeepsOut.ite
    | (intro)
    | with_reducible assumption
    | with_reducible apply State.post_keeps
    | with_reducible apply State.recovered_keeps
    | with_reducible apply State.setRoute_keeps
    | with_reducible apply State.copyBank_keeps
    | with_reducible apply State.flipEpoch_keeps
    | with_reducible apply Keeps.ite
    | (with_reducible apply Keeps.foldl)
    | (with_reducible apply Keeps.foldl_snd)
    | (with_reducible apply Keeps.foldl_snd2)
    | (with_reducible apply Keeps.foldl_fst)
    | (refine Keeps.foldl_snd_eq ?_ ?_ (by with_reducible assumption))
    | (refine Keeps.foldl_snd2_eq ?_ ?_ (by with_reducible assumption))
    | (refine Keeps.foldl_fst_eq ?_ ?_ (by with_reducible assumption))
    | (dsimp only)
    | split
    | (refine Keeps.any ?_ ?_; rotate_left; rfl)

theorem execFenceReq_keeps {s : State} (h : Keeps dk qu s) (req : Fin 14) (ni : Fin 64) (port : BitVec 2) :
    KeepsOut dk qu (execFenceReq req ni port s) := by
  unfold execFenceReq
  repeat' first
    | with_reducible apply KeepsOut.next
    | with_reducible apply KeepsOut.ite
    | (intro)
    | with_reducible assumption
    | with_reducible apply State.askFence_keeps
    | with_reducible apply State.hubEach_keeps

theorem State.reqUnfence_keeps {s : State} (h : Keeps dk qu s) (d : Nat) :
    Keeps dk qu (State.reqUnfence s d) := by
  unfold State.reqUnfence
  repeat' first
    | (intro)
    | with_reducible assumption
    | with_reducible apply State.askUnfence_keeps
    | with_reducible apply Keeps.ite

theorem execUnfenceReq_keeps {s : State} (h : Keeps dk qu s) (req : Fin 14) (ni : Fin 64) (port : BitVec 2) :
    KeepsOut dk qu (execUnfenceReq req ni port s) := by
  unfold execUnfenceReq
  repeat' first
    | with_reducible apply KeepsOut.next
    | with_reducible apply KeepsOut.ite
    | (intro)
    | with_reducible assumption
    | with_reducible apply State.hubEach_keeps
    | with_reducible apply State.reqUnfence_keeps

theorem execNiFence_keeps {s : State} (h : Keeps dk qu s) (ni : Fin 64) :
    KeepsOut dk qu (execNiFence ni s) := by
  unfold execNiFence
  repeat' first
    | with_reducible apply KeepsOut.next
    | with_reducible apply KeepsOut.ite
    | (intro)
    | with_reducible assumption
    | with_reducible apply State.setNiFence_keeps
    | with_reducible apply State.niUpdate_keeps
    | with_reducible apply State.drainReport_keeps
    | with_reducible apply State.takeSnoop_keeps
    | refine State.takeSnoop_keeps_eq ?_ (by with_reducible assumption)
    | with_reducible apply Keeps.ite
    | (dsimp only)
    | split

theorem execDrainDone_keeps {s : State} (h : Keeps dk qu s) (dest : BitVec 8) (ni : Fin 64) :
    KeepsOut dk qu (execDrainDone dest ni s) := by
  unfold execDrainDone
  repeat' first
    | with_reducible apply KeepsOut.next
    | with_reducible apply KeepsOut.ite
    | (intro)
    | with_reducible assumption
    | with_reducible apply State.setPort_keeps
    | with_reducible apply State.drainSettle_keeps
    | with_reducible apply State.takeSnoop_keeps
    | refine State.takeSnoop_keeps_eq ?_ (by with_reducible assumption)
    | with_reducible apply Keeps.ite
    | (dsimp only)
    | split

theorem execForceDrain_keeps {s : State} (h : Keeps dk qu s) (dest : BitVec 8) :
    KeepsOut dk qu (execForceDrain dest s) := by
  unfold execForceDrain
  repeat' first
    | with_reducible apply KeepsOut.next
    | with_reducible apply KeepsOut.ite
    | (intro)
    | with_reducible assumption
    | with_reducible apply State.fcAsk_keeps
    | with_reducible apply State.meshUntil_keeps
    | with_reducible apply Keeps.ite

theorem execNiUnfence_keeps {s : State} (h : Keeps dk qu s) (ni : Fin 64) :
    KeepsOut dk qu (execNiUnfence ni s) := by
  unfold execNiUnfence
  repeat' first
    | with_reducible apply KeepsOut.next
    | with_reducible apply KeepsOut.ite
    | (intro)
    | with_reducible assumption
    | with_reducible apply State.setPort_keeps
    | with_reducible apply State.setNiFence_keeps
    | with_reducible apply State.setFlits_keeps
    | with_reducible apply State.niUpdate_keeps
    | with_reducible apply State.takeSnoop_keeps
    | refine State.takeSnoop_keeps_eq ?_ (by with_reducible assumption)
    | with_reducible apply Keeps.ite
    | (dsimp only)
    | split

theorem execEpochFlip_keeps {s : State} (h : Keeps dk qu s) (req : Fin 14) (sel : BitVec 10) :
    KeepsOut dk qu (execEpochFlip req sel s) := by
  unfold execEpochFlip
  repeat' first
    | with_reducible apply KeepsOut.next
    | with_reducible apply KeepsOut.ite
    | (intro)
    | with_reducible assumption
    | with_reducible apply State.hubEach_keeps
    | with_reducible apply State.flipEpoch_keeps

theorem State.startCopy_keeps {s : State} (h : Keeps dk qu s) (ni : Nat) :
    Keeps dk qu (State.startCopy s ni) := by
  unfold State.startCopy
  repeat' first
    | (intro)
    | with_reducible assumption
    | with_reducible apply State.setFld_keeps
    | with_reducible apply State.niUpdate_keeps

theorem execCopy_keeps {s : State} (h : Keeps dk qu s) (req : Fin 14) (sel : BitVec 10) :
    KeepsOut dk qu (execCopy req sel s) := by
  unfold execCopy
  repeat' first
    | with_reducible apply KeepsOut.next
    | with_reducible apply KeepsOut.ite
    | (intro)
    | with_reducible assumption
    | with_reducible apply State.hubEach_keeps
    | with_reducible apply State.startCopy_keeps

theorem execCopyDone_keeps {s : State} (h : Keeps dk qu s) (ni : Fin 64) :
    KeepsOut dk qu (execCopyDone ni s) := by
  unfold execCopyDone
  repeat' first
    | with_reducible apply KeepsOut.next
    | with_reducible apply KeepsOut.ite
    | (intro)
    | with_reducible assumption
    | with_reducible apply State.setFld_keeps
    | with_reducible apply State.copyBank_keeps

theorem State.writeRouteHi_keeps {s : State} (h : Keeps dk qu s) (req ni : Nat) (v : Word) :
    Keeps dk qu (State.writeRouteHi s req ni v) := by
  unfold State.writeRouteHi
  repeat' first
    | (intro)
    | with_reducible assumption
    | with_reducible apply State.setRoute_keeps
    | with_reducible apply State.niUpdate_keeps

theorem execRouteHiWrite_keeps {s : State} (h : Keeps dk qu s) (req : Fin 14) (sel : BitVec 10) (value : Word) :
    KeepsOut dk qu (execRouteHiWrite req sel value s) := by
  unfold execRouteHiWrite
  repeat' first
    | with_reducible apply KeepsOut.next
    | with_reducible apply KeepsOut.ite
    | (intro)
    | with_reducible assumption
    | with_reducible apply State.hubEach_keeps
    | with_reducible apply State.writeRouteHi_keeps

theorem State.applyLinkEn_keeps {s : State} (h : Keeps dk qu s) (r : Nat) :
    Keeps dk qu (State.applyLinkEn s r) := by
  unfold State.applyLinkEn
  repeat' first
    | (intro)
    | with_reducible assumption
    | with_reducible apply State.setLink_keeps
    | with_reducible apply Keeps.ite
    | (with_reducible apply Keeps.foldl)
    | (with_reducible apply Keeps.foldl_snd)
    | (with_reducible apply Keeps.foldl_snd2)
    | (with_reducible apply Keeps.foldl_fst)
    | (refine Keeps.foldl_snd_eq ?_ ?_ (by with_reducible assumption))
    | (refine Keeps.foldl_snd2_eq ?_ ?_ (by with_reducible assumption))
    | (refine Keeps.foldl_fst_eq ?_ ?_ (by with_reducible assumption))
    | (dsimp only)
    | split
    | (refine Keeps.any ?_ ?_; rotate_left; rfl)

theorem State.writeRouterCtl_keeps {s : State} (h : Keeps dk qu s) (r : Nat) (v : Word) :
    Keeps dk qu (State.writeRouterCtl s r v) := by
  unfold State.writeRouterCtl
  repeat' first
    | (intro)
    | with_reducible assumption
    | with_reducible apply State.storeReg_keeps
    | with_reducible apply State.applyLinkEn_keeps
    | with_reducible apply Keeps.ite
    | (dsimp only)
    | split
    | (refine Keeps.any ?_ ?_; rotate_left; rfl)

theorem execInServiceWrite_keeps {s : State} (h : Keeps dk qu s) (req : Fin 14) (sel : BitVec 10) (value : Word) :
    KeepsOut dk qu (execInServiceWrite req sel value s) := by
  unfold execInServiceWrite
  repeat' first
    | with_reducible apply KeepsOut.next
    | with_reducible apply KeepsOut.ite
    | (intro)
    | with_reducible assumption
    | with_reducible apply State.hubEach_keeps
    | with_reducible apply State.writeRouterCtl_keeps

theorem execLinkEnWrite_keeps {s : State} (h : Keeps dk qu s) (req : Fin 14) (sel : BitVec 10) (value : Word) :
    KeepsOut dk qu (execLinkEnWrite req sel value s) := by
  unfold execLinkEnWrite
  repeat' first
    | with_reducible apply KeepsOut.next
    | with_reducible apply KeepsOut.ite
    | (intro)
    | with_reducible assumption
    | with_reducible apply State.hubEach_keeps
    | with_reducible apply State.writeRouterCtl_keeps

theorem execLinkRetrainDone_keeps {s : State} (h : Keeps dk qu s) (router : Fin 256) (dir : Fin 4) (pass : Bool) :
    KeepsOut dk qu (execLinkRetrainDone router dir pass s) := by
  unfold execLinkRetrainDone
  repeat' first
    | with_reducible apply KeepsOut.next
    | with_reducible apply KeepsOut.ite
    | (intro)
    | with_reducible assumption
    | with_reducible apply State.setLink_keeps
    | with_reducible apply Keeps.ite
    | (dsimp only)
    | split
    | (refine Keeps.any ?_ ?_; rotate_left; rfl)

theorem State.clrNiHist_keeps {s : State} (h : Keeps dk qu s) (ni : Nat) :
    Keeps dk qu (State.clrNiHist s ni) := by
  unfold State.clrNiHist
  repeat' first
    | (intro)
    | with_reducible assumption
    | with_reducible apply Keeps.ite
    | (dsimp only)
    | split
    | (refine Keeps.any ?_ ?_; rotate_left; rfl)

theorem State.clrNiBytes_keeps {s : State} (h : Keeps dk qu s) (ni : Nat) :
    Keeps dk qu (State.clrNiBytes s ni) := by
  unfold State.clrNiBytes
  repeat' first
    | (intro)
    | with_reducible assumption
    | with_reducible apply Keeps.ite
    | (dsimp only)
    | split
    | (refine Keeps.any ?_ ?_; rotate_left; rfl)

theorem execNiClrHist_keeps {s : State} (h : Keeps dk qu s) (req : Fin 14) (sel : BitVec 10) :
    KeepsOut dk qu (execNiClrHist req sel s) := by
  unfold execNiClrHist
  repeat' first
    | with_reducible apply KeepsOut.next
    | with_reducible apply KeepsOut.ite
    | (intro)
    | with_reducible assumption
    | with_reducible apply State.hubEach_keeps
    | with_reducible apply State.clrNiHist_keeps

theorem execNiClrBytes_keeps {s : State} (h : Keeps dk qu s) (req : Fin 14) (sel : BitVec 10) :
    KeepsOut dk qu (execNiClrBytes req sel s) := by
  unfold execNiClrBytes
  repeat' first
    | with_reducible apply KeepsOut.next
    | with_reducible apply KeepsOut.ite
    | (intro)
    | with_reducible assumption
    | with_reducible apply State.hubEach_keeps
    | with_reducible apply State.clrNiBytes_keeps

/-! ## Memory -/

theorem execScrubRead_keeps {s : State} (h : Keeps dk qu s) (scrubber : Fin 44) :
    KeepsOut dk qu (execScrubRead scrubber s) := by
  unfold execScrubRead
  repeat' first
    | with_reducible apply KeepsOut.next
    | with_reducible apply KeepsOut.ite
    | (intro)
    | with_reducible assumption
    | with_reducible apply State.setReg_keeps
    | with_reducible apply State.noteDecode_keeps
    | with_reducible apply Keeps.ite
    | (dsimp only)
    | split
    | (refine Keeps.any ?_ ?_; rotate_left; rfl)

theorem State.spallRewritten_keeps {s : State} (h : Keeps dk qu s) (k : Nat) :
    Keeps dk qu (State.spallRewritten s k) := by
  unfold State.spallRewritten
  repeat' first
    | (intro)
    | with_reducible assumption
    | with_reducible apply State.setSpall_keeps
    | with_reducible apply Keeps.ite
    | (dsimp only)
    | split

theorem execScrubRewrite_keeps {s : State} (h : Keeps dk qu s) (scrubber : Fin 44) :
    KeepsOut dk qu (execScrubRewrite scrubber s) := by
  unfold execScrubRewrite
  repeat' first
    | with_reducible apply KeepsOut.next
    | with_reducible apply KeepsOut.ite
    | (intro)
    | with_reducible assumption
    | with_reducible apply State.storeWord_keeps
    | with_reducible apply State.spallRewritten_keeps
    | with_reducible apply Keeps.ite
    | (dsimp only)
    | split
    | (refine Keeps.any ?_ ?_; rotate_left; rfl)

theorem execRepaired_keeps {s : State} (h : Keeps dk qu s) (entry : Fin 256) :
    KeepsOut dk qu (execRepaired entry s) := by
  unfold execRepaired
  repeat' first
    | with_reducible apply KeepsOut.next
    | with_reducible apply KeepsOut.ite
    | (intro)
    | with_reducible assumption
    | with_reducible apply State.post_keeps
    | with_reducible apply State.setSpall_keeps
    | with_reducible apply State.syncSpall_keeps
    | with_reducible apply State.takeSpare_keeps
    | with_reducible apply State.copySpare_keeps

theorem State.setTestData_keeps {s : State} (h : Keeps dk qu s) (cls i : Nat) (d : List Byte) :
    Keeps dk qu (State.setTestData s cls i d) := by
  unfold State.setTestData
  repeat' first
    | (intro)
    | with_reducible assumption
    | with_reducible apply State.setReg_keeps
    | with_reducible apply State.drop_keeps
    | with_reducible apply Keeps.ite
    | (with_reducible apply Keeps.foldl)

theorem State.rawRead_keeps {s : State} (h : Keeps dk qu s) (cls i : Nat) :
    Keeps dk qu (State.rawRead s cls i) := by
  unfold State.rawRead
  repeat' first
    | (intro)
    | with_reducible assumption
    | with_reducible apply State.setReg_keeps
    | with_reducible apply State.setTestData_keeps

theorem State.rawWrite_keeps {s : State} (h : Keeps dk qu s) (cls i : Nat) : Keeps dk qu (State.rawWrite s cls i) :=
  ⟨⟨mwrites_wf _ h.mem.1 _ _, mwrites_wf _ h.mem.2.1 _ _, h.mem.2.2⟩, h.regs, h.books, h.clock, h.queue⟩

theorem State.decodedRead_keeps {s : State} (h : Keeps dk qu s) (cls i : Nat) :
    Keeps dk qu (State.decodedRead s cls i) := by
  unfold State.decodedRead
  repeat' first
    | (intro)
    | with_reducible assumption
    | with_reducible apply State.setReg_keeps
    | with_reducible apply State.noteDecode_keeps
    | with_reducible apply State.setTestData_keeps

theorem State.testOp_keeps {s : State} (h : Keeps dk qu s) (cls i op : Nat) (skip : Bool) :
    Keeps dk qu (State.testOp s cls i op skip) := by
  unfold State.testOp
  repeat' first
    | (intro)
    | with_reducible assumption
    | with_reducible apply State.setReg_keeps
    | with_reducible apply State.rawRead_keeps
    | with_reducible apply State.rawWrite_keeps
    | with_reducible apply State.decodedRead_keeps
    | with_reducible apply Keeps.ite

theorem execRawRead_keeps {s : State} (h : Keeps dk qu s) (req : Fin 14) (cls : BitVec 8) (sel : BitVec 10) (skip : Bool) :
    KeepsOut dk qu (execRawRead req cls sel skip s) := by
  unfold execRawRead
  repeat' first
    | with_reducible apply KeepsOut.next
    | with_reducible apply KeepsOut.ite
    | (intro)
    | with_reducible assumption
    | with_reducible apply State.hubEach_keeps
    | with_reducible apply State.testOp_keeps

theorem execRawWrite_keeps {s : State} (h : Keeps dk qu s) (req : Fin 14) (cls : BitVec 8) (sel : BitVec 10) (skip : Bool) :
    KeepsOut dk qu (execRawWrite req cls sel skip s) := by
  unfold execRawWrite
  repeat' first
    | with_reducible apply KeepsOut.next
    | with_reducible apply KeepsOut.ite
    | (intro)
    | with_reducible assumption
    | with_reducible apply State.hubEach_keeps
    | with_reducible apply State.testOp_keeps

theorem execDecodedRead_keeps {s : State} (h : Keeps dk qu s) (req : Fin 14) (cls : BitVec 8) (sel : BitVec 10) (skip : Bool) :
    KeepsOut dk qu (execDecodedRead req cls sel skip s) := by
  unfold execDecodedRead
  repeat' first
    | with_reducible apply KeepsOut.next
    | with_reducible apply KeepsOut.ite
    | (intro)
    | with_reducible assumption
    | with_reducible apply State.hubEach_keeps
    | with_reducible apply State.testOp_keeps

theorem State.clrCounts_keeps {s : State} (h : Keeps dk qu s) (cls i : Nat) :
    Keeps dk qu (State.clrCounts s cls i) := by
  unfold State.clrCounts
  repeat' first
    | (intro)
    | with_reducible assumption
    | with_reducible apply State.setReg_keeps
    | with_reducible apply Keeps.ite
    | (with_reducible apply Keeps.foldl)

theorem State.clrErase_keeps {s : State} (h : Keeps dk qu s) (cls i : Nat) :
    Keeps dk qu (State.clrErase s cls i) := by
  unfold State.clrErase
  repeat' first
    | (intro)
    | with_reducible assumption
    | with_reducible apply State.setReg_keeps

theorem execClrCounts_keeps {s : State} (h : Keeps dk qu s) (req : Fin 14) (cls : BitVec 8) (sel : BitVec 10) :
    KeepsOut dk qu (execClrCounts req cls sel s) := by
  unfold execClrCounts
  repeat' first
    | with_reducible apply KeepsOut.next
    | with_reducible apply KeepsOut.ite
    | (intro)
    | with_reducible assumption
    | with_reducible apply State.hubEach_keeps
    | with_reducible apply State.clrCounts_keeps

theorem execClrErase_keeps {s : State} (h : Keeps dk qu s) (req : Fin 14) (cls : BitVec 8) (sel : BitVec 10) :
    KeepsOut dk qu (execClrErase req cls sel s) := by
  unfold execClrErase
  repeat' first
    | with_reducible apply KeepsOut.next
    | with_reducible apply KeepsOut.ite
    | (intro)
    | with_reducible assumption
    | with_reducible apply State.hubEach_keeps
    | with_reducible apply State.clrErase_keeps

theorem State.setMigPtr_keeps {s : State} (h : Keeps dk qu s) (p : Nat) :
    Keeps dk qu (State.setMigPtr s p) := by
  unfold State.setMigPtr
  repeat' first
    | (intro)
    | with_reducible assumption
    | with_reducible apply State.setPair_keeps
    | with_reducible apply Keeps.ite
    | (dsimp only)
    | split
    | (refine Keeps.any ?_ ?_; rotate_left; rfl)

theorem State.startEvacuation_keeps {s : State} (h : Keeps dk qu s) (c : Nat) :
    Keeps dk qu (State.startEvacuation s c) := by
  unfold State.startEvacuation
  repeat' first
    | (intro)
    | with_reducible assumption
    | with_reducible apply State.setFld_keeps
    | with_reducible apply State.setMigPtr_keeps
    | with_reducible apply Keeps.ite
    | (dsimp only)
    | split
    | (refine Keeps.any ?_ ?_; rotate_left; rfl)

theorem State.movePage_keeps {s : State} (h : Keeps dk qu s)  :
    Keeps dk qu (State.movePage s) := by
  unfold State.movePage
  repeat' first
    | (intro)
    | with_reducible assumption
    | with_reducible apply State.storeWord_keeps
    | with_reducible apply State.setMigPtr_keeps
    | with_reducible apply Keeps.ite
    | (with_reducible apply Keeps.foldl)

/-! ## Eth -/

theorem State.deliverFrame_keeps {s : State} (h : Keeps dk qu s) (m stamp : Nat) (l : List Byte) (bad : Bool) :
    Keeps dk qu (State.deliverFrame s m stamp l bad) := by
  unfold State.deliverFrame
  repeat' first
    | (intro)
    | with_reducible assumption
    | with_reducible apply State.addFld_keeps
    | with_reducible apply State.drop_keeps
    | with_reducible apply State.uPlane_keeps
    | with_reducible apply State.roePacket_keeps
    | with_reducible apply State.toRing_keeps
    | with_reducible apply Keeps.ite
    | (dsimp only)
    | split

theorem execMacFrameRx_keeps {s : State} (h : Keeps dk qu s) (mac : Fin 24) (frame : List Byte) (sub : BitVec 20) (corrected uncorrected : Nat) :
    KeepsOut dk qu (execMacFrameRx mac frame sub corrected uncorrected s) := by
  unfold execMacFrameRx
  repeat' first
    | with_reducible apply KeepsOut.next
    | with_reducible apply KeepsOut.ite
    | (intro)
    | with_reducible assumption
    | with_reducible apply State.addFld_keeps
    | with_reducible apply State.countEvent_keeps
    | with_reducible apply State.drop_keeps
    | with_reducible apply State.macControl_keeps
    | with_reducible apply State.deliverFrame_keeps
    | with_reducible apply Keeps.ite

theorem execRxDescDone_keeps {s : State} (h : Keeps dk qu s) (ring : Fin 256) :
    KeepsOut dk qu (execRxDescDone ring s) := by
  unfold execRxDescDone
  repeat' first
    | with_reducible apply KeepsOut.next
    | with_reducible apply KeepsOut.ite
    | (intro)
    | with_reducible assumption
    | with_reducible apply State.busPut_keeps
    | refine State.busPut_keeps_eq ?_ (by with_reducible assumption)
    | with_reducible apply State.setEthRing_keeps
    | with_reducible apply State.ethComplete_keeps
    | with_reducible apply Keeps.ite
    | (with_reducible apply Keeps.foldl)
    | (with_reducible apply Keeps.foldl_snd)
    | (with_reducible apply Keeps.foldl_snd2)
    | (with_reducible apply Keeps.foldl_fst)
    | (refine Keeps.foldl_snd_eq ?_ ?_ (by with_reducible assumption))
    | (refine Keeps.foldl_snd2_eq ?_ ?_ (by with_reducible assumption))
    | (refine Keeps.foldl_fst_eq ?_ ?_ (by with_reducible assumption))
    | (dsimp only)
    | split

theorem State.txScan_keeps {s : State} (h : Keeps dk qu s) (ni r n i : Nat) (acc : List (Nat × List Word)) :
    Keeps dk qu (State.txScan s ni r n i acc).2 := by
  induction n generalizing s i acc with
  | zero => exact h
  | succ n ih =>
    unfold State.txScan
    split
    · rename_i s1 e
      have k := State.ethDesc_keeps_eq h e
      exact State.ethNext_keeps k _ _
    · rename_i d s1 e
      have k := State.ethDesc_keeps_eq h e
      split
      rename_i j s2 e2
      have k2 := State.ethNext_keeps_eq k e2
      split
      · exact k2
      · exact ih k2 _ _

theorem State.txNext_keeps {s : State} (h : Keeps dk qu s) (r : Nat) : Keeps dk qu (State.txNext s r).2 :=
  State.txScan_keeps h _ _ _ _ _

theorem State.txNext_keeps_eq {s : State} (h : Keeps dk qu s) {r : Nat} {x0 : Option (Bool × List (Nat × List Word) × Nat)} {sv : State}
    (eqn : State.txNext s r = (x0, sv)) : Keeps dk qu sv := by
  have := State.txNext_keeps h r
  rwa [eqn] at this

theorem State.txBytes_keeps {s : State} (h : Keeps dk qu s) (m ni : Nat) (ds : List (Nat × List Word)) :
    Keeps dk qu (State.txBytes s m ni ds).2.2 := by
  unfold State.txBytes
  repeat' first
    | (intro)
    | with_reducible assumption
    | with_reducible apply State.unitGet_keeps
    | refine State.unitGet_keeps_eq ?_ (by with_reducible assumption)
    | with_reducible apply Keeps.ite
    | (with_reducible apply Keeps.foldl)
    | (with_reducible apply Keeps.foldl_snd)
    | (with_reducible apply Keeps.foldl_snd2)
    | (with_reducible apply Keeps.foldl_fst)
    | (refine Keeps.foldl_snd_eq ?_ ?_ (by with_reducible assumption))
    | (refine Keeps.foldl_snd2_eq ?_ ?_ (by with_reducible assumption))
    | (refine Keeps.foldl_fst_eq ?_ ?_ (by with_reducible assumption))
    | (dsimp only)
    | split

theorem State.txBytes_keeps_eq {s : State} (h : Keeps dk qu s) {m ni : Nat} {ds : List (Nat × List Word)} {x0 : List Byte} {x1 : Bool} {sv : State}
    (eqn : State.txBytes s m ni ds = (x0, x1, sv)) : Keeps dk qu sv := by
  have := State.txBytes_keeps h m ni ds
  rwa [eqn] at this

theorem State.finishFrame_keeps {s : State} (h : Keeps dk qu s) (m stamp : Nat) (flags : Word) (l : List Byte) :
    Keeps dk qu (State.finishFrame s m stamp flags l).2 := by
  unfold State.finishFrame
  repeat' first
    | (intro)
    | with_reducible assumption
    | with_reducible apply State.addFld_keeps
    | with_reducible apply Keeps.ite
    | (dsimp only)
    | split

theorem State.finishFrame_keeps_eq {s : State} (h : Keeps dk qu s) {m stamp : Nat} {flags : Word} {l : List Byte} {x0 : List Byte} {sv : State}
    (eqn : State.finishFrame s m stamp flags l = (x0, sv)) : Keeps dk qu sv := by
  have := State.finishFrame_keeps h m stamp flags l
  rwa [eqn] at this

theorem State.txWriteBack_keeps {s : State} (h : Keeps dk qu s) (ni r stamp : Nat) (slots : List (Nat × Bool)) (aborted : Bool) :
    Keeps dk qu (State.txWriteBack s ni r stamp slots aborted) := by
  unfold State.txWriteBack
  repeat' first
    | (intro)
    | with_reducible assumption
    | with_reducible apply State.busPut_keeps
    | refine State.busPut_keeps_eq ?_ (by with_reducible assumption)
    | with_reducible apply Keeps.ite
    | (with_reducible apply Keeps.foldl)

theorem State.grantRing_keeps {s : State} (h : Keeps dk qu s) (m r stamp : Nat) :
    Keeps dk qu (State.grantRing s m r stamp) := by
  unfold State.grantRing
  repeat' first
    | (intro)
    | with_reducible assumption
    | with_reducible apply State.setFld_keeps
    | with_reducible apply State.addFld_keeps
    | with_reducible apply State.setEthRing_keeps
    | with_reducible apply State.ethComplete_keeps
    | with_reducible apply State.ethDiscard_keeps
    | with_reducible apply State.setMacSt_keeps
    | with_reducible apply State.txNext_keeps
    | refine State.txNext_keeps_eq ?_ (by with_reducible assumption)
    | with_reducible apply State.txBytes_keeps
    | refine State.txBytes_keeps_eq ?_ (by with_reducible assumption)
    | with_reducible apply State.finishFrame_keeps
    | refine State.finishFrame_keeps_eq ?_ (by with_reducible assumption)
    | with_reducible apply State.txWriteBack_keeps
    | with_reducible apply Keeps.ite
    | (dsimp only)
    | split

theorem execMacTxGrant_keeps {s : State} (h : Keeps dk qu s) (mac : Fin 24) (sub : BitVec 20) :
    KeepsOut dk qu (execMacTxGrant mac sub s) := by
  unfold execMacTxGrant
  repeat' first
    | with_reducible apply KeepsOut.next
    | with_reducible apply KeepsOut.ite
    | (intro)
    | with_reducible assumption
    | with_reducible apply State.setMacSt_keeps
    | with_reducible apply State.grantRing_keeps
    | with_reducible apply Keeps.ite
    | (dsimp only)
    | split
    | (refine Keeps.any ?_ ?_; rotate_left; rfl)

theorem execMacTxDone_keeps {s : State} (h : Keeps dk qu s) (mac : Fin 24) :
    KeepsOut dk qu (execMacTxDone mac s) := by
  unfold execMacTxDone
  repeat' first
    | with_reducible apply KeepsOut.next
    | with_reducible apply KeepsOut.ite
    | (intro)
    | with_reducible assumption
    | with_reducible apply State.addFld_keeps
    | with_reducible apply State.countEvent_keeps
    | with_reducible apply State.post_keeps
    | with_reducible apply State.ethComplete_keeps
    | with_reducible apply State.setMacSt_keeps
    | with_reducible apply State.txWriteBack_keeps
    | with_reducible apply Keeps.ite
    | (dsimp only)
    | split

theorem execPauseExpire_keeps {s : State} (h : Keeps dk qu s) (mac : Fin 24) (state : Fin 9) :
    KeepsOut dk qu (execPauseExpire mac state s) := by
  unfold execPauseExpire
  repeat' first
    | with_reducible apply KeepsOut.next
    | with_reducible apply KeepsOut.ite
    | (intro)
    | with_reducible assumption
    | with_reducible apply State.setPause_keeps
    | with_reducible apply Keeps.ite
    | (dsimp only)
    | split

theorem execPauseBreak_keeps {s : State} (h : Keeps dk qu s) (mac : Fin 24) (state : Fin 9) :
    KeepsOut dk qu (execPauseBreak mac state s) := by
  unfold execPauseBreak
  repeat' first
    | with_reducible apply KeepsOut.next
    | with_reducible apply KeepsOut.ite
    | (intro)
    | with_reducible assumption
    | with_reducible apply State.pauseWatch_keeps

theorem execPauseBreakEnd_keeps {s : State} (h : Keeps dk qu s) (mac : Fin 24) (state : Fin 9) :
    KeepsOut dk qu (execPauseBreakEnd mac state s) := by
  unfold execPauseBreakEnd
  repeat' first
    | with_reducible apply KeepsOut.next
    | with_reducible apply KeepsOut.ite
    | (intro)
    | with_reducible assumption
    | with_reducible apply State.setPause_keeps
    | with_reducible apply Keeps.ite
    | (dsimp only)
    | split

theorem State.setXoff_keeps {s : State} (h : Keeps dk qu s) (m p n : Nat) :
    Keeps dk qu (State.setXoff s m p n) := by
  unfold State.setXoff
  repeat' first
    | (intro)
    | with_reducible assumption
    | with_reducible apply State.setMacSt_keeps

theorem execPfcXoff_keeps {s : State} (h : Keeps dk qu s) (mac : Fin 24) (prio : Fin 8) :
    KeepsOut dk qu (execPfcXoff mac prio s) := by
  unfold execPfcXoff
  repeat' first
    | with_reducible apply KeepsOut.next
    | with_reducible apply KeepsOut.ite
    | (intro)
    | with_reducible assumption
    | with_reducible apply State.sendPause_keeps
    | with_reducible apply State.setXoff_keeps

theorem execPfcRepeat_keeps {s : State} (h : Keeps dk qu s) (mac : Fin 24) (prio : Fin 8) :
    KeepsOut dk qu (execPfcRepeat mac prio s) := by
  unfold execPfcRepeat
  repeat' first
    | with_reducible apply KeepsOut.next
    | with_reducible apply KeepsOut.ite
    | (intro)
    | with_reducible assumption
    | with_reducible apply State.sendPause_keeps
    | with_reducible apply State.setXoff_keeps

theorem execMacLinkLoss_keeps {s : State} (h : Keeps dk qu s) (mac : Fin 24) (localFault remoteFault : Bool) :
    KeepsOut dk qu (execMacLinkLoss mac localFault remoteFault s) := by
  unfold execMacLinkLoss
  repeat' first
    | with_reducible apply KeepsOut.next
    | with_reducible apply KeepsOut.ite
    | (intro)
    | with_reducible assumption
    | with_reducible apply State.setFld_keeps
    | with_reducible apply State.reportFault_keeps
    | with_reducible apply State.endRecovery_keeps
    | with_reducible apply State.macDown_keeps

theorem execMacLinkUp_keeps {s : State} (h : Keeps dk qu s) (mac : Fin 24) :
    KeepsOut dk qu (execMacLinkUp mac s) := by
  unfold execMacLinkUp
  repeat' first
    | with_reducible apply KeepsOut.next
    | with_reducible apply KeepsOut.ite
    | (intro)
    | with_reducible assumption
    | with_reducible apply State.setFld_keeps
    | with_reducible apply State.takeFree_keeps
    | refine State.takeFree_keeps_eq ?_ (by with_reducible assumption)
    | with_reducible apply State.post_keeps
    | with_reducible apply Keeps.ite
    | (with_reducible apply Keeps.foldl)

theorem State.tailWrite_keeps {s : State} (h : Keeps dk qu s) (r : Nat) (v : Word) :
    Keeps dk qu (State.tailWrite s r v) := by
  unfold State.tailWrite
  repeat' first
    | (intro)
    | with_reducible assumption
    | with_reducible apply State.setFld_keeps

theorem State.tailBar4_keeps {s : State} (h : Keeps dk qu s) (fn r : Nat) (v : Word) :
    Keeps dk qu (State.tailBar4 s fn r v) := by
  unfold State.tailBar4
  repeat' first
    | (intro)
    | with_reducible assumption
    | with_reducible apply State.tailWrite_keeps
    | with_reducible apply Keeps.ite

theorem execEthRingTail_keeps {s : State} (h : Keeps dk qu s) (req : Fin 14) (sel : BitVec 10) (bar4 : Option (Fin 16)) (value : Word) :
    KeepsOut dk qu (execEthRingTail req sel bar4 value s) := by
  unfold execEthRingTail
  repeat' first
    | with_reducible apply KeepsOut.next
    | with_reducible apply KeepsOut.ite
    | (intro)
    | with_reducible assumption
    | with_reducible apply State.hubEach_keeps
    | with_reducible apply State.tailWrite_keeps
    | with_reducible apply State.tailBar4_keeps
    | with_reducible apply Keeps.ite
    | (dsimp only)
    | split

theorem execFlowDataWrite_keeps {s : State} (h : Keeps dk qu s) (req : Fin 14) (sel : BitVec 10) (w : Fin 8) (value : Word) :
    KeepsOut dk qu (execFlowDataWrite req sel w value s) := by
  unfold execFlowDataWrite
  repeat' first
    | with_reducible apply KeepsOut.next
    | with_reducible apply KeepsOut.ite
    | (intro)
    | with_reducible assumption
    | with_reducible apply State.hubEach_keeps
    | with_reducible apply State.setFlowWord_keeps

theorem execFlowClrStats_keeps {s : State} (h : Keeps dk qu s) (req : Fin 14) (sel : BitVec 10) (value : Word) :
    KeepsOut dk qu (execFlowClrStats req sel value s) := by
  unfold execFlowClrStats
  repeat' first
    | with_reducible apply KeepsOut.next
    | with_reducible apply KeepsOut.ite
    | (intro)
    | with_reducible assumption
    | with_reducible apply State.hubEach_keeps
    | with_reducible apply State.flowClear_keeps
    | with_reducible apply Keeps.ite

theorem execMacActiveWrite_keeps {s : State} (h : Keeps dk qu s) (req : Fin 14) (sel : BitVec 10) (value : Word) :
    KeepsOut dk qu (execMacActiveWrite req sel value s) := by
  unfold execMacActiveWrite
  repeat' first
    | with_reducible apply KeepsOut.next
    | with_reducible apply KeepsOut.ite
    | (intro)
    | with_reducible assumption
    | with_reducible apply State.hubEach_keeps
    | with_reducible apply State.macProtectWrite_keeps

theorem State.closeWindow_keeps {s : State} (h : Keeps dk qu s) (c : Nat) (j : SymJob) :
    Keeps dk qu (State.closeWindow s c j) := by
  unfold State.closeWindow
  repeat' first
    | (intro)
    | with_reducible assumption
    | with_reducible apply State.setStrm_keeps
    | with_reducible apply State.chPut_keeps
    | refine State.chPut_keeps_eq ?_ (by with_reducible assumption)
    | with_reducible apply State.toWitness_keeps
    | with_reducible apply State.witClose_keeps
    | with_reducible apply Keeps.ite
    | (with_reducible apply Keeps.foldl)
    | (with_reducible apply Keeps.foldl_snd)
    | (with_reducible apply Keeps.foldl_snd2)
    | (with_reducible apply Keeps.foldl_fst)
    | (refine Keeps.foldl_snd_eq ?_ ?_ (by with_reducible assumption))
    | (refine Keeps.foldl_snd2_eq ?_ ?_ (by with_reducible assumption))
    | (refine Keeps.foldl_fst_eq ?_ ?_ (by with_reducible assumption))
    | (dsimp only)
    | split

theorem execRxWindowClose_keeps {s : State} (h : Keeps dk qu s) (ch : Fin 512) :
    KeepsOut dk qu (execRxWindowClose ch s) := by
  unfold execRxWindowClose
  repeat' first
    | with_reducible apply KeepsOut.next
    | with_reducible apply KeepsOut.ite
    | (intro)
    | with_reducible assumption
    | with_reducible apply State.setStrm_keeps
    | with_reducible apply State.closeWindow_keeps
    | with_reducible apply Keeps.ite
    | (dsimp only)
    | split

end Sys2Proof.Machine
end

