-- ==== Sys2Proof/Laws/KeepsHub.lean ====
section
/-! SUPPORT. What the CSR hub, the images and the DMA engines keep (`Keeps`, `KeepsOut`): one lemma a definition. -/
namespace Sys2Proof.Machine

variable {dk : BitVec 64} {qu : List Instr}

/-! ## Views -/

theorem State.readOne_keeps {s : State} (h : Keeps dk qu s) (req cls i off : Nat) :
    Keeps dk qu (State.readOne s req cls i off).2 := by
  unfold State.readOne
  repeat' first
    | (intro)
    | with_reducible assumption
    | with_reducible apply State.holdFor_keeps
    | with_reducible apply State.rxCwPop_keeps
    | with_reducible apply Keeps.ite
    | (with_reducible apply Keeps.foldl)
    | (with_reducible apply Keeps.foldl_snd)
    | (with_reducible apply Keeps.foldl_snd2)
    | (with_reducible apply Keeps.foldl_fst)
    | (refine Keeps.foldl_snd_eq ?_ ?_ (by with_reducible assumption))
    | (refine Keeps.foldl_snd2_eq ?_ ?_ (by with_reducible assumption))
    | (refine Keeps.foldl_fst_eq ?_ ?_ (by with_reducible assumption))
    | (dsimp only)
    | split

theorem State.readOne_keeps_eq {s : State} (h : Keeps dk qu s) {req cls i off : Nat} {x0 : Word} {sv : State}
    (eqn : State.readOne s req cls i off = (x0, sv)) : Keeps dk qu sv := by
  have := State.readOne_keeps h req cls i off
  rwa [eqn] at this

theorem State.csrRead_keeps {s : State} (h : Keeps dk qu s) (req cls sel off : Nat) :
    Keeps dk qu (State.csrRead s req cls sel off).2 := by
  unfold State.csrRead
  repeat' first
    | (intro)
    | with_reducible assumption
    | with_reducible apply State.readOne_keeps
    | refine State.readOne_keeps_eq ?_ (by with_reducible assumption)
    | with_reducible apply Keeps.ite
    | (dsimp only)
    | split

theorem State.csrRead_keeps_eq {s : State} (h : Keeps dk qu s) {req cls sel off : Nat} {x0 : Word} {sv : State}
    (eqn : State.csrRead s req cls sel off = (x0, sv)) : Keeps dk qu sv := by
  have := State.csrRead_keeps h req cls sel off
  rwa [eqn] at this

/-! ## ImageOps -/

theorem State.bytesAt_keeps {s : State} (h : Keeps dk qu s) (a n : Nat) :
    Keeps dk qu (State.bytesAt s a n).2 := by
  unfold State.bytesAt
  repeat' first
    | (intro)
    | with_reducible assumption
    | with_reducible apply State.readMem_keeps

theorem State.bytesAt_keeps_eq {s : State} (h : Keeps dk qu s) {a n : Nat} {x0 : List Byte} {sv : State}
    (eqn : State.bytesAt s a n = (x0, sv)) : Keeps dk qu sv := by
  have := State.bytesAt_keeps h a n
  rwa [eqn] at this

theorem State.setImages_keeps {s : State} (h : Keeps dk qu s) (x : Images) :
    Keeps dk qu (State.setImages s x) := by
  unfold State.setImages
  repeat' first
    | (intro)
    | with_reducible assumption
    | with_reducible apply Keeps.ite
    | (dsimp only)
    | split
    | (refine Keeps.any ?_ ?_; rotate_left; rfl)

theorem State.dvorysUp_keeps {s : State} (h : Keeps dk qu s) (slot version : Nat) (host : Bool) :
    Keeps dk qu (State.dvorysUp s slot version host) := by
  unfold State.dvorysUp
  repeat' first
    | (intro)
    | with_reducible assumption
    | with_reducible apply State.setFld_keeps
    | with_reducible apply State.syncReady_keeps

theorem State.bootSlotCheck_keeps {s : State} (h : Keeps dk qu s) (k : Nat) :
    Keeps dk qu (State.bootSlotCheck s k) := by
  unfold State.bootSlotCheck
  repeat' first
    | (intro)
    | with_reducible assumption
    | with_reducible apply State.setFld_keeps
    | with_reducible apply State.writeMem_keeps
    | with_reducible apply State.dvorysUp_keeps
    | with_reducible apply Keeps.ite

theorem State.bootPush_keeps {s : State} (h : Keeps dk qu s) (v : Word) :
    Keeps dk qu (State.bootPush s v) := by
  unfold State.bootPush
  repeat' first
    | (intro)
    | with_reducible assumption
    | with_reducible apply State.setFld_keeps
    | with_reducible apply State.bytesAt_keeps
    | refine State.bytesAt_keeps_eq ?_ (by with_reducible assumption)
    | with_reducible apply State.dvorysUp_keeps
    | with_reducible apply Keeps.ite

/-! ## Hub -/

theorem State.clrCounter_keeps {s : State} (h : Keeps dk qu s) (cls i k : Nat) :
    Keeps dk qu (State.clrCounter s cls i k) := by
  unfold State.clrCounter
  repeat' first
    | (intro)
    | with_reducible assumption
    | with_reducible apply State.setReg_keeps

theorem State.cntSelWrite_keeps {s : State} (h : Keeps dk qu s) (cls i off : Nat) (v : Word) :
    Keeps dk qu (State.cntSelWrite s cls i off v) := by
  unfold State.cntSelWrite
  repeat' first
    | (intro)
    | with_reducible assumption
    | with_reducible apply State.storeReg_keeps
    | with_reducible apply State.clrCounter_keeps
    | with_reducible apply Keeps.ite

theorem State.cntCtlWrite_keeps {s : State} (h : Keeps dk qu s) (cls i : Nat) (v : Word) :
    Keeps dk qu (State.cntCtlWrite s cls i v) := by
  unfold State.cntCtlWrite
  repeat' first
    | (intro)
    | with_reducible assumption
    | with_reducible apply State.storeReg_keeps
    | with_reducible apply State.clrCounter_keeps
    | with_reducible apply Keeps.ite
    | (with_reducible apply Keeps.foldl)

theorem State.modeReq_keeps {s : State} (h : Keeps dk qu s) (req : Nat) (v : Word) :
    Keeps dk qu (State.modeReq s req v) := by
  unfold State.modeReq
  repeat' first
    | (intro)
    | with_reducible assumption
    | with_reducible apply State.modeDecision_keeps
    | with_reducible apply State.beginMode_keeps
    | with_reducible apply Keeps.ite
    | (dsimp only)
    | split

theorem State.faultClear_keeps {s : State} (h : Keeps dk qu s) (v : Word) :
    Keeps dk qu (State.faultClear s v) := by
  unfold State.faultClear
  repeat' first
    | (intro)
    | with_reducible assumption
    | with_reducible apply State.setFld_keeps
    | with_reducible apply Keeps.ite
    | (with_reducible apply Keeps.foldl)

theorem State.sysWrite_keeps {s : State} (h : Keeps dk qu s) (req off : Nat) (v : Word) :
    Keeps dk qu (State.sysWrite s req off v) := by
  unfold State.sysWrite
  repeat' first
    | (intro)
    | with_reducible assumption
    | with_reducible apply State.storeReg_keeps
    | with_reducible apply State.modeReq_keeps
    | with_reducible apply State.faultClear_keeps
    | with_reducible apply Keeps.ite

theorem State.journalFit_keeps {s : State} (h : Keeps dk qu s)  :
    Keeps dk qu (State.journalFit s) := by
  unfold State.journalFit
  repeat' first
    | (intro)
    | with_reducible assumption
    | with_reducible apply State.setFld_keeps

theorem State.journalRegWrite_keeps {s : State} (h : Keeps dk qu s) (off : Nat) (v : Word) :
    Keeps dk qu (State.journalRegWrite s off v) := by
  unfold State.journalRegWrite
  repeat' first
    | (intro)
    | with_reducible assumption
    | with_reducible apply State.setFld_keeps
    | with_reducible apply State.storeReg_keeps
    | with_reducible apply State.journalFit_keeps
    | with_reducible apply Keeps.ite

theorem State.clkWrite_keeps {s : State} (h : Keeps dk qu s) (off : Nat) (v : Word) :
    Keeps dk qu (State.clkWrite s off v) := by
  unfold State.clkWrite
  repeat' first
    | (intro)
    | with_reducible assumption
    | with_reducible apply State.toFooting_keeps
    | with_reducible apply State.storeReg_keeps
    | with_reducible apply Keeps.ite

theorem State.dispWrite_keeps {s : State} (h : Keeps dk qu s) (req off : Nat) (v : Word) :
    Keeps dk qu (State.dispWrite s req off v) := by
  unfold State.dispWrite
  repeat' first
    | (intro)
    | with_reducible assumption
    | with_reducible apply State.storeReg_keeps
    | with_reducible apply State.cancelWrite_keeps
    | with_reducible apply Keeps.ite

theorem State.queueWrite_keeps {s : State} (h : Keeps dk qu s) (req q off : Nat) (v : Word) :
    Keeps dk qu (State.queueWrite s req q off v) := by
  unfold State.queueWrite
  repeat' first
    | (intro)
    | with_reducible assumption
    | with_reducible apply State.storeReg_keeps
    | with_reducible apply State.postWrite_keeps
    | with_reducible apply State.dqueueClear_keeps
    | with_reducible apply Keeps.ite

theorem State.keyWrite_keeps {s : State} (h : Keeps dk qu s) (req b off : Nat) (v : Word) :
    Keeps dk qu (State.keyWrite s req b off v) := by
  unfold State.keyWrite
  repeat' first
    | (intro)
    | with_reducible assumption
    | with_reducible apply State.holdFor_keeps
    | with_reducible apply State.decKey_keeps
    | with_reducible apply State.setReload_keeps
    | with_reducible apply State.storeReg_keeps
    | with_reducible apply State.keySetCount_keeps
    | with_reducible apply Keeps.ite

theorem State.accountWrite_keeps {s : State} (h : Keeps dk qu s) (a off : Nat) (v : Word) :
    Keeps dk qu (State.accountWrite s a off v) := by
  unfold State.accountWrite
  repeat' first
    | (intro)
    | with_reducible assumption
    | with_reducible apply State.adjust_keeps
    | with_reducible apply State.storeReg_keeps
    | with_reducible apply State.clrAccount_keeps
    | with_reducible apply Keeps.ite

theorem State.niWrite_keeps {s : State} (h : Keeps dk qu s) (req ni off : Nat) (v : Word) :
    Keeps dk qu (State.niWrite s req ni off v) := by
  unfold State.niWrite
  repeat' first
    | (intro)
    | with_reducible assumption
    | with_reducible apply State.holdFor_keeps
    | with_reducible apply State.askFence_keeps
    | with_reducible apply State.storeReg_keeps
    | with_reducible apply State.syncNi_keeps
    | with_reducible apply State.flipEpoch_keeps
    | with_reducible apply State.reqUnfence_keeps
    | with_reducible apply State.startCopy_keeps
    | with_reducible apply State.writeRouteHi_keeps
    | with_reducible apply State.clrNiHist_keeps
    | with_reducible apply State.clrNiBytes_keeps
    | with_reducible apply Keeps.ite

theorem State.memCtlWrite_keeps {s : State} (h : Keeps dk qu s) (req cls i off : Nat) (v : Word) :
    Keeps dk qu (State.memCtlWrite s req cls i off v) := by
  unfold State.memCtlWrite
  repeat' first
    | (intro)
    | with_reducible assumption
    | with_reducible apply State.holdFor_keeps
    | with_reducible apply State.storeReg_keeps
    | with_reducible apply State.testOp_keeps
    | with_reducible apply State.clrCounts_keeps
    | with_reducible apply State.clrErase_keeps
    | with_reducible apply Keeps.ite

theorem State.sampGeoWrite_keeps {s : State} (h : Keeps dk qu s) (n off : Nat) (v : Word) :
    Keeps dk qu (State.sampGeoWrite s n off v) := by
  unfold State.sampGeoWrite
  repeat' first
    | (intro)
    | with_reducible assumption
    | with_reducible apply State.storeReg_keeps
    | with_reducible apply Keeps.ite
    | (dsimp only)
    | split
    | (refine Keeps.any ?_ ?_; rotate_left; rfl)

theorem State.courseWrite_keeps {s : State} (h : Keeps dk qu s) (req n off : Nat) (v : Word) :
    Keeps dk qu (State.courseWrite s req n off v) := by
  unfold State.courseWrite
  repeat' first
    | (intro)
    | with_reducible assumption
    | with_reducible apply State.coreEnWrite_keeps
    | with_reducible apply State.memCtlWrite_keeps
    | with_reducible apply State.sampGeoWrite_keeps
    | with_reducible apply Keeps.ite

theorem State.msixAllocWrite_keeps {s : State} (h : Keeps dk qu s) (fn : Nat) (v : Word) :
    Keeps dk qu (State.msixAllocWrite s fn v) := by
  unfold State.msixAllocWrite
  repeat' first
    | (intro)
    | with_reducible assumption
    | with_reducible apply State.storeReg_keeps
    | with_reducible apply Keeps.ite
    | (dsimp only)
    | split
    | (refine Keeps.any ?_ ?_; rotate_left; rfl)

theorem State.keepRunWrite_keeps {s : State} (h : Keeps dk qu s) (k : Nat) (v : Word) :
    Keeps dk qu (State.keepRunWrite s k v) := by
  unfold State.keepRunWrite
  repeat' first
    | (intro)
    | with_reducible assumption
    | with_reducible apply State.setReg_keeps
    | with_reducible apply State.storeReg_keeps
    | with_reducible apply Keeps.ite

theorem State.loWrite_keeps {s : State} (h : Keeps dk qu s) (c : Nat) (v : Word) :
    Keeps dk qu (State.loWrite s c v) := by
  unfold State.loWrite
  repeat' first
    | (intro)
    | with_reducible assumption
    | with_reducible apply State.storeReg_keeps
    | with_reducible apply State.setStrm_keeps

theorem State.strmWrite_keeps {s : State} (h : Keeps dk qu s) (c off : Nat) (v : Word) :
    Keeps dk qu (State.strmWrite s c off v) := by
  unfold State.strmWrite
  repeat' first
    | (intro)
    | with_reducible assumption
    | with_reducible apply State.storeReg_keeps
    | with_reducible apply State.commitArrive_keeps
    | with_reducible apply State.loWrite_keeps
    | with_reducible apply Keeps.ite

theorem State.fftClear_keeps {s : State} (h : Keeps dk qu s) (e : Nat) (v : Word) :
    Keeps dk qu (State.fftClear s e v) := by
  unfold State.fftClear
  repeat' first
    | (intro)
    | with_reducible assumption
    | with_reducible apply State.setFld_keeps
    | with_reducible apply Keeps.ite

theorem State.tbWrite_keeps {s : State} (h : Keeps dk qu s) (n off : Nat) (v : Word) :
    Keeps dk qu (State.tbWrite s n off v) := by
  unfold State.tbWrite
  repeat' first
    | (intro)
    | with_reducible assumption
    | with_reducible apply State.storeReg_keeps
    | with_reducible apply State.stepGo_keeps
    | with_reducible apply State.gridWrite2_keeps
    | with_reducible apply State.offsetGo_keeps
    | with_reducible apply State.servoCtl_keeps
    | with_reducible apply Keeps.ite

theorem State.tddWrite_keeps {s : State} (h : Keeps dk qu s) (p off : Nat) (v : Word) :
    Keeps dk qu (State.tddWrite s p off v) := by
  unfold State.tddWrite
  repeat' first
    | (intro)
    | with_reducible assumption
    | with_reducible apply State.storeReg_keeps
    | with_reducible apply State.syncPin_keeps
    | with_reducible apply State.pushEdge_keeps
    | with_reducible apply State.clrQueue_keeps
    | with_reducible apply Keeps.ite

theorem State.vaultWrite_keeps {s : State} (h : Keeps dk qu s) (off : Nat) (v : Word) :
    Keeps dk qu (State.vaultWrite s off v) := by
  unfold State.vaultWrite
  repeat' first
    | (intro)
    | with_reducible assumption
    | with_reducible apply State.storeReg_keeps
    | with_reducible apply State.releaseRgn_keeps
    | with_reducible apply State.commandTrigger_keeps
    | with_reducible apply State.vaultCtl_keeps
    | with_reducible apply State.geometryWrite_keeps
    | with_reducible apply Keeps.ite

theorem State.vsWrite_keeps {s : State} (h : Keeps dk qu s) (i off : Nat) (v : Word) :
    Keeps dk qu (State.vsWrite s i off v) := by
  unfold State.vsWrite
  repeat' first
    | (intro)
    | with_reducible assumption
    | with_reducible apply State.storeReg_keeps
    | with_reducible apply State.vstreamWrite_keeps
    | with_reducible apply Keeps.ite

theorem State.tallyWrite_keeps {s : State} (h : Keeps dk qu s) (d off : Nat) (v : Word) :
    Keeps dk qu (State.tallyWrite s d off v) := by
  unfold State.tallyWrite
  repeat' first
    | (intro)
    | with_reducible assumption
    | with_reducible apply State.storeReg_keeps
    | with_reducible apply State.tplData_keeps
    | with_reducible apply State.tplLenWrite_keeps
    | with_reducible apply Keeps.ite

theorem State.gpioWrite_keeps {s : State} (h : Keeps dk qu s) (off : Nat) (v : Word) :
    Keeps dk qu (State.gpioWrite s off v) := by
  unfold State.gpioWrite
  repeat' first
    | (intro)
    | with_reducible assumption
    | with_reducible apply State.storeReg_keeps
    | with_reducible apply State.gpioLevel_keeps
    | with_reducible apply Keeps.ite
    | (with_reducible apply Keeps.foldl)

theorem State.dmaWrite_keeps {s : State} (h : Keeps dk qu s) (e off : Nat) (v : Word) :
    Keeps dk qu (State.dmaWrite s e off v) := by
  unfold State.dmaWrite
  repeat' first
    | (intro)
    | with_reducible assumption
    | with_reducible apply State.setFld_keeps
    | with_reducible apply State.storeReg_keeps
    | with_reducible apply State.eventSet_keeps
    | with_reducible apply State.eventClr_keeps
    | with_reducible apply Keeps.ite

theorem State.dmaChWrite_keeps {s : State} (h : Keeps dk qu s) (req c off : Nat) (v : Word) :
    Keeps dk qu (State.dmaChWrite s req c off v) := by
  unfold State.dmaChWrite
  repeat' first
    | (intro)
    | with_reducible assumption
    | with_reducible apply State.holdFor_keeps
    | with_reducible apply State.storeReg_keeps
    | with_reducible apply State.dmaCtl_keeps
    | with_reducible apply State.regHiWrite_keeps
    | with_reducible apply Keeps.ite

theorem State.macWrite_keeps {s : State} (h : Keeps dk qu s) (m off : Nat) (v : Word) :
    Keeps dk qu (State.macWrite s m off v) := by
  unfold State.macWrite
  repeat' first
    | (intro)
    | with_reducible assumption
    | with_reducible apply State.storeReg_keeps
    | with_reducible apply State.macsCheck_keeps
    | with_reducible apply State.macProtectWrite_keeps
    | with_reducible apply Keeps.ite

theorem State.flowWrite_keeps {s : State} (h : Keeps dk qu s) (req off : Nat) (v : Word) :
    Keeps dk qu (State.flowWrite s req off v) := by
  unfold State.flowWrite
  repeat' first
    | (intro)
    | with_reducible assumption
    | with_reducible apply State.holdFor_keeps
    | with_reducible apply State.storeReg_keeps
    | with_reducible apply State.setFlowWord_keeps
    | with_reducible apply State.flowClear_keeps
    | with_reducible apply Keeps.ite

theorem State.traceSync_keeps {s : State} (h : Keeps dk qu s)  :
    Keeps dk qu (State.traceSync s) := by
  unfold State.traceSync
  repeat' first
    | (intro)
    | with_reducible assumption
    | with_reducible apply State.tracePush_keeps
    | with_reducible apply Keeps.ite
    | (dsimp only)
    | split
    | (refine Keeps.any ?_ ?_; rotate_left; rfl)

theorem State.traceWrite_keeps {s : State} (h : Keeps dk qu s) (off : Nat) (v : Word) :
    Keeps dk qu (State.traceWrite s off v) := by
  unfold State.traceWrite
  repeat' first
    | (intro)
    | with_reducible assumption
    | with_reducible apply State.tracePush_keeps
    | with_reducible apply State.storeReg_keeps
    | with_reducible apply State.traceSync_keeps
    | with_reducible apply Keeps.ite

theorem State.writeOne_keeps {s : State} (h : Keeps dk qu s) (req cls i off : Nat) (v : Word) :
    Keeps dk qu (State.writeOne s req cls i off v) := by
  unfold State.writeOne
  repeat' first
    | (intro)
    | with_reducible assumption
    | with_reducible apply State.holdFor_keeps
    | with_reducible apply State.storeReg_keeps
    | with_reducible apply State.protoWrite_keeps
    | with_reducible apply State.recalGo_keeps
    | with_reducible apply State.ethCtl_keeps
    | with_reducible apply State.macsCheck_keeps
    | with_reducible apply State.settCtl_keeps
    | with_reducible apply State.engCtl_keeps
    | with_reducible apply State.laneCtl_keeps
    | with_reducible apply State.rxeqWrite_keeps
    | with_reducible apply State.prbsWrite_keeps
    | with_reducible apply State.userCw_keeps
    | with_reducible apply State.protectWrite_keeps
    | with_reducible apply State.tellerClear_keeps
    | with_reducible apply State.writeRouterCtl_keeps
    | with_reducible apply State.tailWrite_keeps
    | with_reducible apply State.bootPush_keeps
    | with_reducible apply State.cntSelWrite_keeps
    | with_reducible apply State.cntCtlWrite_keeps
    | with_reducible apply State.sysWrite_keeps
    | with_reducible apply State.journalRegWrite_keeps
    | with_reducible apply State.clkWrite_keeps
    | with_reducible apply State.dispWrite_keeps
    | with_reducible apply State.queueWrite_keeps
    | with_reducible apply State.keyWrite_keeps
    | with_reducible apply State.accountWrite_keeps
    | with_reducible apply State.niWrite_keeps
    | with_reducible apply State.memCtlWrite_keeps
    | with_reducible apply State.courseWrite_keeps
    | with_reducible apply State.msixAllocWrite_keeps
    | with_reducible apply State.keepRunWrite_keeps
    | with_reducible apply State.strmWrite_keeps
    | with_reducible apply State.fftClear_keeps
    | with_reducible apply State.tbWrite_keeps
    | with_reducible apply State.tddWrite_keeps
    | with_reducible apply State.vaultWrite_keeps
    | with_reducible apply State.vsWrite_keeps
    | with_reducible apply State.tallyWrite_keeps
    | with_reducible apply State.gpioWrite_keeps
    | with_reducible apply State.dmaWrite_keeps
    | with_reducible apply State.dmaChWrite_keeps
    | with_reducible apply State.macWrite_keeps
    | with_reducible apply State.flowWrite_keeps
    | with_reducible apply State.traceWrite_keeps
    | with_reducible apply Keeps.ite

theorem State.csrWrite_keeps {s : State} (h : Keeps dk qu s) (req cls sel off : Nat) (v : Word) :
    Keeps dk qu (State.csrWrite s req cls sel off v) := by
  unfold State.csrWrite
  repeat' first
    | (intro)
    | with_reducible assumption
    | with_reducible apply State.hubEach_keeps
    | with_reducible apply State.writeOne_keeps
    | with_reducible apply Keeps.ite

theorem State.csrReadBytes_keeps {s : State} (h : Keeps dk qu s) (req a n : Nat) :
    Keeps dk qu (State.csrReadBytes s req a n).2 := by
  unfold State.csrReadBytes
  repeat' first
    | (intro)
    | with_reducible assumption
    | with_reducible apply State.csrRead_keeps
    | refine State.csrRead_keeps_eq ?_ (by with_reducible assumption)
    | with_reducible apply Keeps.ite
    | (with_reducible apply Keeps.foldl)
    | (with_reducible apply Keeps.foldl_snd)

theorem State.csrReadBytes_keeps_eq {s : State} (h : Keeps dk qu s) {req a n : Nat} {x0 : List (Byte × Bool)} {sv : State}
    (eqn : State.csrReadBytes s req a n = (x0, sv)) : Keeps dk qu sv := by
  have := State.csrReadBytes_keeps h req a n
  rwa [eqn] at this

theorem State.csrWriteBytes_keeps {s : State} (h : Keeps dk qu s) (req a : Nat) (l : List (Byte × Bool)) :
    Keeps dk qu (State.csrWriteBytes s req a l) := by
  unfold State.csrWriteBytes
  repeat' first
    | (intro)
    | with_reducible assumption
    | with_reducible apply State.drop_keeps
    | with_reducible apply State.csrWrite_keeps
    | with_reducible apply Keeps.ite
    | (with_reducible apply Keeps.foldl)

theorem State.reqRead_keeps {s : State} (h : Keeps dk qu s) (req ni port a n : Nat) :
    Keeps dk qu (State.reqRead s req ni port a n).2.2 := by
  unfold State.reqRead
  repeat' first
    | (intro)
    | with_reducible assumption
    | with_reducible apply State.busGet_keeps
    | refine State.busGet_keeps_eq ?_ (by with_reducible assumption)
    | with_reducible apply State.csrReadBytes_keeps
    | refine State.csrReadBytes_keeps_eq ?_ (by with_reducible assumption)
    | with_reducible apply Keeps.ite
    | (dsimp only)
    | split

theorem State.reqRead_keeps_eq {s : State} (h : Keeps dk qu s) {req ni port a n : Nat} {x0 : BusStatus} {x1 : List (Byte × Bool)} {sv : State}
    (eqn : State.reqRead s req ni port a n = (x0, x1, sv)) : Keeps dk qu sv := by
  have := State.reqRead_keeps h req ni port a n
  rwa [eqn] at this

theorem State.reqWrite_keeps {s : State} (h : Keeps dk qu s) (req ni port a : Nat) (l : List (Byte × Bool)) :
    Keeps dk qu (State.reqWrite s req ni port a l).2 := by
  unfold State.reqWrite
  repeat' first
    | (intro)
    | with_reducible assumption
    | with_reducible apply State.busPut_keeps
    | refine State.busPut_keeps_eq ?_ (by with_reducible assumption)
    | with_reducible apply State.csrWriteBytes_keeps
    | with_reducible apply Keeps.ite
    | (dsimp only)
    | split

theorem State.reqWrite_keeps_eq {s : State} (h : Keeps dk qu s) {req ni port a : Nat} {l : List (Byte × Bool)} {x0 : BusStatus} {sv : State}
    (eqn : State.reqWrite s req ni port a l = (x0, sv)) : Keeps dk qu sv := by
  have := State.reqWrite_keeps h req ni port a l
  rwa [eqn] at this

theorem execRegisterWrite_keeps {s : State} (h : Keeps dk qu s) (req : Fin 14) (cls : BitVec 8) (sel offset : BitVec 10) (value : Word) :
    KeepsOut dk qu (execRegisterWrite req cls sel offset value s) := by
  unfold execRegisterWrite
  repeat' first
    | with_reducible apply KeepsOut.next
    | with_reducible apply KeepsOut.ite
    | (intro)
    | with_reducible assumption
    | with_reducible apply State.csrWrite_keeps

theorem execCreditLoRead_keeps {s : State} (h : Keeps dk qu s) (req : Fin 14) (sel : BitVec 10) :
    KeepsOut dk qu (execCreditLoRead req sel s) := by
  unfold execCreditLoRead
  repeat' first
    | with_reducible apply KeepsOut.next
    | with_reducible apply KeepsOut.ite
    | (intro)
    | with_reducible assumption
    | with_reducible apply State.giveBack_keeps
    | with_reducible apply State.csrRead_keeps

theorem execCntSelWrite_keeps {s : State} (h : Keeps dk qu s) (req : Fin 14) (cls : BitVec 8) (sel : BitVec 10) (counter : Fin 8) (value : Word) :
    KeepsOut dk qu (execCntSelWrite req cls sel counter value s) := by
  unfold execCntSelWrite
  repeat' first
    | with_reducible apply KeepsOut.next
    | with_reducible apply KeepsOut.ite
    | (intro)
    | with_reducible assumption
    | with_reducible apply State.csrWrite_keeps

theorem execCntClr_keeps {s : State} (h : Keeps dk qu s) (req : Fin 14) (cls : BitVec 8) (sel : BitVec 10) (value : Word) :
    KeepsOut dk qu (execCntClr req cls sel value s) := by
  unfold execCntClr
  repeat' first
    | with_reducible apply KeepsOut.next
    | with_reducible apply KeepsOut.ite
    | (intro)
    | with_reducible assumption
    | with_reducible apply State.csrWrite_keeps

theorem execModeReq_keeps {s : State} (h : Keeps dk qu s) (req : Fin 14) (target : BitVec 3) :
    KeepsOut dk qu (execModeReq req target s) := by
  unfold execModeReq
  repeat' first
    | with_reducible apply KeepsOut.next
    | with_reducible apply KeepsOut.ite
    | (intro)
    | with_reducible assumption
    | with_reducible apply State.csrWrite_keeps

theorem execFaultClrMax_keeps {s : State} (h : Keeps dk qu s) (req : Fin 14) :
    KeepsOut dk qu (execFaultClrMax req s) := by
  unfold execFaultClrMax
  repeat' first
    | with_reducible apply KeepsOut.next
    | with_reducible apply KeepsOut.ite
    | (intro)
    | with_reducible assumption
    | with_reducible apply State.csrWrite_keeps

theorem execFaultClrCounts_keeps {s : State} (h : Keeps dk qu s) (req : Fin 14) :
    KeepsOut dk qu (execFaultClrCounts req s) := by
  unfold execFaultClrCounts
  repeat' first
    | with_reducible apply KeepsOut.next
    | with_reducible apply KeepsOut.ite
    | (intro)
    | with_reducible assumption
    | with_reducible apply State.csrWrite_keeps

theorem execBootPush_keeps {s : State} (h : Keeps dk qu s) (req : Fin 14) (value : Word) :
    KeepsOut dk qu (execBootPush req value s) := by
  unfold execBootPush
  repeat' first
    | with_reducible apply KeepsOut.next
    | with_reducible apply KeepsOut.ite
    | (intro)
    | with_reducible assumption
    | with_reducible apply State.csrWrite_keeps

theorem execSoftReset_keeps {s : State} (h : Keeps dk qu s) (req : Fin 14) (value : Word) :
    KeepsOut dk qu (execSoftReset req value s) := by
  unfold execSoftReset
  repeat' first
    | with_reducible apply KeepsOut.next
    | with_reducible apply KeepsOut.ite
    | (intro)
    | with_reducible assumption
    | with_reducible apply State.csrWrite_keeps

theorem execKeepRunWrite_keeps {s : State} (h : Keeps dk qu s) (req : Fin 14) (sel : BitVec 10) (value : Word) :
    KeepsOut dk qu (execKeepRunWrite req sel value s) := by
  unfold execKeepRunWrite
  repeat' first
    | with_reducible apply KeepsOut.next
    | with_reducible apply KeepsOut.ite
    | (intro)
    | with_reducible assumption
    | with_reducible apply State.csrWrite_keeps

theorem execKeepCoreWfi_keeps {s : State} (h : Keeps dk qu s) (core : Fin 8) :
    KeepsOut dk qu (execKeepCoreWfi core s) := by
  unfold execKeepCoreWfi
  repeat' first
    | with_reducible apply KeepsOut.next
    | with_reducible apply KeepsOut.ite
    | (intro)
    | with_reducible assumption
    | with_reducible apply State.setFld_keeps

theorem execMsixAllocationWrite_keeps {s : State} (h : Keeps dk qu s) (req : Fin 14) (sel : BitVec 10) (value : Word) :
    KeepsOut dk qu (execMsixAllocationWrite req sel value s) := by
  unfold execMsixAllocationWrite
  repeat' first
    | with_reducible apply KeepsOut.next
    | with_reducible apply KeepsOut.ite
    | (intro)
    | with_reducible assumption
    | with_reducible apply State.csrWrite_keeps

theorem execProtoWrite_keeps {s : State} (h : Keeps dk qu s) (req : Fin 14) (sel : BitVec 10) (value : Word) :
    KeepsOut dk qu (execProtoWrite req sel value s) := by
  unfold execProtoWrite
  repeat' first
    | with_reducible apply KeepsOut.next
    | with_reducible apply KeepsOut.ite
    | (intro)
    | with_reducible assumption
    | with_reducible apply State.csrWrite_keeps

theorem execMark_keeps {s : State} (h : Keeps dk qu s) (req : Fin 14) (value : Word) :
    KeepsOut dk qu (execMark req value s) := by
  unfold execMark
  repeat' first
    | with_reducible apply KeepsOut.next
    | with_reducible apply KeepsOut.ite
    | (intro)
    | with_reducible assumption
    | with_reducible apply State.csrWrite_keeps

theorem execTraceEnable_keeps {s : State} (h : Keeps dk qu s) (req : Fin 14) (value : Word) :
    KeepsOut dk qu (execTraceEnable req value s) := by
  unfold execTraceEnable
  repeat' first
    | with_reducible apply KeepsOut.next
    | with_reducible apply KeepsOut.ite
    | (intro)
    | with_reducible assumption
    | with_reducible apply State.csrWrite_keeps

/-! ## Mesh -/

theorem State.respond_keeps {s : State} (h : Keeps dk qu s) (ni : Nat) (f : Flit) (status : Nat) (words : List (List (Byte × Bool))) :
    Keeps dk qu (State.respond s ni f status words) := by
  unfold State.respond
  repeat' first
    | (intro)
    | with_reducible assumption
    | with_reducible apply State.sendFlit_keeps
    | with_reducible apply State.sendData_keeps

theorem State.serve_keeps {s : State} (h : Keeps dk qu s) (f : Flit) (data : List (List (Byte × Bool))) :
    Keeps dk qu (State.serve s f data).2.2 := by
  unfold State.serve
  repeat' first
    | (intro)
    | with_reducible assumption
    | with_reducible apply State.readMem_keeps
    | refine State.readMem_keeps_eq ?_ (by with_reducible assumption)
    | with_reducible apply State.writeMem_keeps
    | with_reducible apply State.atsFill_keeps
    | with_reducible apply State.hostWrite_keeps
    | with_reducible apply State.drop_keeps
    | with_reducible apply State.csrReadBytes_keeps
    | refine State.csrReadBytes_keeps_eq ?_ (by with_reducible assumption)
    | with_reducible apply State.csrWriteBytes_keeps
    | with_reducible apply Keeps.ite
    | (dsimp only)
    | split

theorem State.serve_keeps_eq {s : State} (h : Keeps dk qu s) {f : Flit} {data : List (List (Byte × Bool))} {x0 : Nat} {x1 : List (List (Byte × Bool))} {sv : State}
    (eqn : State.serve s f data = (x0, x1, sv)) : Keeps dk qu sv := by
  have := State.serve_keeps h f data
  rwa [eqn] at this

theorem State.takeRequest_keeps {s : State} (h : Keeps dk qu s) (ni : Nat) (f : Flit) (l : List Flit) :
    Keeps dk qu (State.takeRequest s ni f l) := by
  unfold State.takeRequest
  repeat' first
    | (intro)
    | with_reducible assumption
    | with_reducible apply State.atsFill_keeps
    | with_reducible apply State.takeFlit_keeps
    | with_reducible apply State.dropData_keeps
    | with_reducible apply State.respond_keeps
    | with_reducible apply State.serve_keeps
    | refine State.serve_keeps_eq ?_ (by with_reducible assumption)
    | with_reducible apply Keeps.ite
    | (with_reducible apply Keeps.foldl)
    | (with_reducible apply Keeps.foldl_snd)
    | (with_reducible apply Keeps.foldl_snd2)
    | (with_reducible apply Keeps.foldl_fst)
    | (refine Keeps.foldl_snd_eq ?_ ?_ (by with_reducible assumption))
    | (refine Keeps.foldl_snd2_eq ?_ ?_ (by with_reducible assumption))
    | (refine Keeps.foldl_fst_eq ?_ ?_ (by with_reducible assumption))
    | (dsimp only)
    | split
    | (refine Keeps.any ?_ ?_; rotate_left; rfl)

theorem execPacketEject_keeps {s : State} (h : Keeps dk qu s) (ni : Fin 64) (src : BitVec 8) (cls : BitVec 2) (headerGood : Bool) :
    KeepsOut dk qu (execPacketEject ni src cls headerGood s) := by
  unfold execPacketEject
  repeat' first
    | with_reducible apply KeepsOut.next
    | with_reducible apply KeepsOut.ite
    | (intro)
    | with_reducible assumption
    | with_reducible apply State.meshUntil_keeps
    | with_reducible apply State.badHeader_keeps
    | with_reducible apply State.takeRequest_keeps
    | with_reducible apply Keeps.ite
    | (dsimp only)
    | split

/-! ## Dma -/

theorem State.ringWrite_keeps_eq {s : State} (h : Keeps dk qu s) {n c : Nat} {bytes : List (Byte × Bool)} {sv : State}
    (eqn : State.ringWrite s n c bytes = some sv) : Keeps dk qu sv := by
  unfold State.ringWrite at eqn
  extract_lets e k fn tail seq ph w7 a s1 next s2 s3 dm s4 at eqn
  have k1 : Keeps dk qu s1 := State.hostWrite_keeps h _ _
  have k2 : Keeps dk qu s2 := State.setFld_keeps k1 _ _ _
  have k3 : Keeps dk qu s3 := Keeps.ite (State.setFld_keeps k2 _ _ _) k2
  have k4 : Keeps dk qu s4 := Keeps.any k3 rfl
  clear_value s4
  split at eqn
  · cases eqn
  · rw [← Option.some.inj eqn]
    exact State.raise_keeps k4 _ _


theorem State.dmaGranted_keeps {s : State} (h : Keeps dk qu s) (c : Nat) :
    Keeps dk qu (State.dmaGranted s c) := by
  unfold State.dmaGranted
  repeat' first
    | (intro)
    | with_reducible assumption
    | with_reducible apply Keeps.ite
    | (dsimp only)
    | split
    | (refine Keeps.any ?_ ?_; rotate_left; rfl)

theorem State.dmaGoto_keeps {s : State} (h : Keeps dk qu s) (c pc : Nat) :
    Keeps dk qu (State.dmaGoto s c pc) := by
  unfold State.dmaGoto
  repeat' first
    | (intro)
    | with_reducible assumption
    | with_reducible apply State.setDch_keeps
    | with_reducible apply State.setDmaPc_keeps

theorem State.dmaNext_keeps {s : State} (h : Keeps dk qu s) (c : Nat) :
    Keeps dk qu (State.dmaNext s c) := by
  unfold State.dmaNext
  repeat' first
    | (intro)
    | with_reducible assumption
    | with_reducible apply State.dmaGoto_keeps

theorem State.dmaPass_keeps {s : State} (h : Keeps dk qu s) (c : Nat) :
    Keeps dk qu (State.dmaPass s c) := by
  unfold State.dmaPass
  repeat' first
    | (intro)
    | with_reducible assumption
    | with_reducible apply State.setDmaState_keeps
    | with_reducible apply State.dmaNext_keeps

theorem State.dmaDo_keeps {s : State} (h : Keeps dk qu s) (c op : Nat) (ok : Nat → Bool) (f : State → Nat → State)
    (hf : ∀ s w, Keeps dk qu s → Keeps dk qu (f s w)) : Keeps dk qu (State.dmaDo s c op ok f) := by
  unfold State.dmaDo
  split
  · exact Keeps.ite (hf _ _ (State.dmaGranted_keeps h _)) h
  · exact h

theorem State.dmaRead_keeps {s : State} (h : Keeps dk qu s) (c a n : Nat) :
    Keeps dk qu (State.dmaRead s c a n).2.2 := by
  unfold State.dmaRead
  repeat' first
    | (intro)
    | with_reducible assumption
    | with_reducible apply State.took_keeps
    | with_reducible apply State.reqRead_keeps

theorem State.dmaRead_keeps_eq {s : State} (h : Keeps dk qu s) {c a n : Nat} {x0 : BusStatus} {x1 : List (Byte × Bool)} {sv : State}
    (eqn : State.dmaRead s c a n = (x0, x1, sv)) : Keeps dk qu sv := by
  have := State.dmaRead_keeps h c a n
  rwa [eqn] at this

theorem State.tagPost_keeps {s : State} (h : Keeps dk qu s) (r c : Nat) :
    Keeps dk qu (State.tagPost s r c) := by
  unfold State.tagPost
  repeat' first
    | (intro)
    | with_reducible assumption
    | with_reducible apply State.setPosts_keeps

theorem State.dmaPut_keeps {s : State} (h : Keeps dk qu s) (c a : Nat) (l : List (Byte × Bool)) :
    Keeps dk qu (State.dmaPut s c a l).2 := by
  unfold State.dmaPut
  repeat' first
    | (intro)
    | with_reducible assumption
    | with_reducible apply State.reqWrite_keeps
    | refine State.reqWrite_keeps_eq ?_ (by with_reducible assumption)
    | with_reducible apply State.tagPost_keeps
    | with_reducible apply Keeps.ite

theorem State.dmaPut_keeps_eq {s : State} (h : Keeps dk qu s) {c a : Nat} {l : List (Byte × Bool)} {x0 : BusStatus} {sv : State}
    (eqn : State.dmaPut s c a l = (x0, sv)) : Keeps dk qu sv := by
  have := State.dmaPut_keeps h c a l
  rwa [eqn] at this

theorem State.dmaCount_keeps {s : State} (h : Keeps dk qu s) (c n : Nat) :
    Keeps dk qu (State.dmaCount s c n) := by
  unfold State.dmaCount
  repeat' first
    | (intro)
    | with_reducible assumption
    | with_reducible apply State.setPair_keeps

theorem State.dmaAck_keeps {s : State} (h : Keeps dk qu s) (c : Nat) :
    Keeps dk qu (State.dmaAck s c) := by
  unfold State.dmaAck
  repeat' first
    | (intro)
    | with_reducible assumption
    | with_reducible apply State.addFld_keeps
    | with_reducible apply State.setDch_keeps
    | with_reducible apply State.dmaCount_keeps
    | with_reducible apply Keeps.ite
    | (dsimp only)
    | split

theorem State.dmaIssued_keeps {s : State} (h : Keeps dk qu s) (c n : Nat) (current : Bool) :
    Keeps dk qu (State.dmaIssued s c n current) := by
  unfold State.dmaIssued
  repeat' first
    | (intro)
    | with_reducible assumption
    | with_reducible apply State.setDch_keeps
    | with_reducible apply State.dmaAck_keeps
    | with_reducible apply Keeps.ite
    | (dsimp only)
    | split

theorem State.dmaCopy_keeps {s : State} (h : Keeps dk qu s) (c w lim k : Nat) (m : DmaMove) :
    Keeps dk qu (State.dmaCopy c w lim k m s).2.2 := by
  induction k generalizing s m with
  | zero => exact h
  | succ k ih =>
    unfold State.dmaCopy
    split
    · exact h
    extract_lets n
    split
    · exact h
    split
    rename_i st l s1 e1
    have k1 := State.dmaRead_keeps_eq h e1
    split
    · exact State.dmaErr_keeps k1 _ _ _ _
    split
    rename_i st2 s2 e2
    have k2 := State.dmaPut_keeps_eq k1 e2
    split
    · exact State.dmaErr_keeps k2 _ _ _ _
    split
    · exact State.dmaIssued_keeps k2 _ _ _
    · exact ih (State.dmaIssued_keeps k2 _ _ _) _

theorem State.dmaBegin_keeps {s : State} (h : Keeps dk qu s) (c w : Nat) :
    Keeps dk qu (State.dmaBegin s c w) := by
  unfold State.dmaBegin
  repeat' first
    | (intro)
    | with_reducible assumption
    | with_reducible apply State.setFld_keeps
    | with_reducible apply State.setDch_keeps
    | with_reducible apply Keeps.ite

theorem State.dmaTransfer_keeps {s : State} (h : Keeps dk qu s) (c w most : Nat) :
    Keeps dk qu (State.dmaTransfer s c w most) := by
  unfold State.dmaTransfer
  extract_lets s1 x len from_ sp dp m lim
  have k1 : Keeps dk qu s1 := State.dmaBegin_keeps h _ _
  clear_value s1 x len from_ sp dp m lim
  split
  rename_i ok m2 s2 e2
  have k2 : Keeps dk qu s2 := by
    have := State.dmaCopy_keeps k1 c w lim (lim - from_) m
    rwa [e2] at this
  exact Keeps.ite (State.dmaNext_keeps (State.setDch_keeps (State.setDch_keeps k2 _ _) _ _) _) (State.setDch_keeps k2 _ _)

theorem State.dmaMove_keeps {s : State} (h : Keeps dk qu s) (c w : Nat) :
    Keeps dk qu (State.dmaMove s c w) := by
  unfold State.dmaMove
  repeat' first
    | (intro)
    | with_reducible assumption
    | with_reducible apply State.dmaBegin_keeps
    | with_reducible apply State.dmaTransfer_keeps
    | with_reducible apply Keeps.ite

theorem State.dmaBurst_keeps {s : State} (h : Keeps dk qu s) (c : Nat) (withdrawn : Bool) :
    Keeps dk qu (State.dmaBurst s c withdrawn) := by
  unfold State.dmaBurst
  repeat' first
    | (intro)
    | with_reducible assumption
    | with_reducible apply State.addFld_keeps
    | with_reducible apply State.setDmaState_keeps
    | with_reducible apply State.dmaWait_keeps
    | with_reducible apply State.dmaGranted_keeps
    | with_reducible apply State.dmaTransfer_keeps
    | with_reducible apply Keeps.ite
    | (dsimp only)
    | split

theorem State.dmaReleased_keeps {s : State} (h : Keeps dk qu s) (c w : Nat) (mark : Bool) :
    Keeps dk qu (State.dmaReleased s c w mark) := by
  unfold State.dmaReleased
  repeat' first
    | (intro)
    | with_reducible assumption
    | with_reducible apply State.setFld_keeps
    | with_reducible apply State.dmaHalt_keeps
    | with_reducible apply State.dmaPass_keeps
    | with_reducible apply Keeps.ite

theorem State.dmaWaitKey_keeps {s : State} (h : Keeps dk qu s) (c w : Nat) :
    Keeps dk qu (State.dmaWaitKey s c w) := by
  unfold State.dmaWaitKey
  repeat' first
    | (intro)
    | with_reducible assumption
    | with_reducible apply State.dmaWait_keeps
    | with_reducible apply State.dmaReleased_keeps
    | with_reducible apply Keeps.ite
    | (dsimp only)
    | split
    | (refine Keeps.any ?_ ?_; rotate_left; rfl)

theorem State.dmaMet_keeps {s : State} (h : Keeps dk qu s) (c : Nat) :
    Keeps dk qu (State.dmaMet s c) := by
  unfold State.dmaMet
  repeat' first
    | (intro)
    | with_reducible assumption
    | with_reducible apply State.setDmaState_keeps
    | with_reducible apply State.dmaPass_keeps
    | with_reducible apply State.dmaReleased_keeps
    | with_reducible apply Keeps.ite
    | (dsimp only)
    | split
    | (refine Keeps.any ?_ ?_; rotate_left; rfl)

theorem State.dmaSignal_keeps {s : State} (h : Keeps dk qu s) (c kind : Nat) (f : State → Nat → State)
    (hf : ∀ s w, Keeps dk qu s → Keeps dk qu (f s w)) : Keeps dk qu (State.dmaSignal s c kind f) :=
  Keeps.ite (State.dmaDo_keeps h _ _ _ _ hf) h

theorem State.dmaSignalRing_keeps {s : State} (h : Keeps dk qu s) (c w : Nat) :
    Keeps dk qu (State.dmaSignalRing s c w) := by
  unfold State.dmaSignalRing
  extract_lets n p a
  refine Keeps.ite (State.dmaWait_keeps h _ _) ?_
  split
  rename_i st l s1 e1
  have k1 := State.dmaRead_keeps_eq h e1
  refine Keeps.ite (State.dmaErr_keeps k1 _ _ _ _) ?_
  cases e2 : s1.ringWrite n c l with
  | none => exact State.dmaErr_keeps k1 _ _ _ _
  | some s2 =>
    have k2 := State.ringWrite_keeps_eq k1 e2
    have k3 (m : Dma) : Keeps dk qu { s2 with dma := m } := Keeps.any k2 rfl
    exact State.dmaNext_keeps (State.dmaCount_keeps (Keeps.ite (State.setDch_keeps (k3 _) _ _) (k3 _)) _ _) _

theorem State.dmaSetPtr_keeps {s : State} (h : Keeps dk qu s) (c mode : Nat) (f : State → Nat → Nat → State)
    (hf : ∀ s k w, Keeps dk qu s → Keeps dk qu (f s k w)) : Keeps dk qu (State.dmaSetPtr s c mode f) :=
  State.dmaDo_keeps h _ _ _ _ (fun s _ h => hf s _ _ h)

theorem State.dmaLoad_keeps {s : State} (h : Keeps dk qu s) (c r w : Nat) :
    Keeps dk qu (State.dmaLoad s c r w) := by
  unfold State.dmaLoad
  repeat' first
    | (intro)
    | with_reducible assumption
    | with_reducible apply State.setDch_keeps
    | with_reducible apply State.dmaErr_keeps
    | with_reducible apply State.dmaNext_keeps
    | with_reducible apply State.dmaRead_keeps
    | refine State.dmaRead_keeps_eq ?_ (by with_reducible assumption)
    | with_reducible apply Keeps.ite

theorem State.dmaFetch_keeps {s : State} (h : Keeps dk qu s) (c : Nat) :
    Keeps dk qu (State.dmaFetch s c) := by
  unfold State.dmaFetch
  repeat' first
    | (intro)
    | with_reducible assumption
    | with_reducible apply State.drop_keeps
    | with_reducible apply State.dmaHalt_keeps
    | with_reducible apply State.dmaErr_keeps
    | with_reducible apply State.dmaRead_keeps
    | refine State.dmaRead_keeps_eq ?_ (by with_reducible assumption)
    | with_reducible apply Keeps.ite
    | (dsimp only)
    | split
    | (refine Keeps.any ?_ ?_; rotate_left; rfl)

theorem execStart_keeps {s : State} (h : Keeps dk qu s) (req : Fin 14) (sel : BitVec 10) :
    KeepsOut dk qu (execStart req sel s) := by
  unfold execStart
  repeat' first
    | with_reducible apply KeepsOut.next
    | with_reducible apply KeepsOut.ite
    | (intro)
    | with_reducible assumption
    | with_reducible apply State.csrWrite_keeps

theorem execDmaAbort_keeps {s : State} (h : Keeps dk qu s) (req : Fin 14) (sel : BitVec 10) :
    KeepsOut dk qu (execDmaAbort req sel s) := by
  unfold execDmaAbort
  repeat' first
    | with_reducible apply KeepsOut.next
    | with_reducible apply KeepsOut.ite
    | (intro)
    | with_reducible assumption
    | with_reducible apply State.csrWrite_keeps

theorem execResume_keeps {s : State} (h : Keeps dk qu s) (req : Fin 14) (sel : BitVec 10) :
    KeepsOut dk qu (execResume req sel s) := by
  unfold execResume
  repeat' first
    | with_reducible apply KeepsOut.next
    | with_reducible apply KeepsOut.ite
    | (intro)
    | with_reducible assumption
    | with_reducible apply State.csrWrite_keeps

theorem execDmaEnd_keeps {s : State} (h : Keeps dk qu s) (ch : Fin 128) :
    KeepsOut dk qu (execDmaEnd ch s) := by
  unfold execDmaEnd
  repeat' first
    | with_reducible apply KeepsOut.next
    | with_reducible apply KeepsOut.ite
    | (intro)
    | with_reducible assumption
    | with_reducible apply State.post_keeps
    | with_reducible apply State.setDch_keeps
    | with_reducible apply State.setDmaState_keeps
    | with_reducible apply State.dmaDo_keeps

theorem execMove_keeps {s : State} (h : Keeps dk qu s) (ch : Fin 128) :
    KeepsOut dk qu (execMove ch s) := by
  unfold execMove
  repeat' first
    | with_reducible apply KeepsOut.next
    | with_reducible apply KeepsOut.ite
    | (intro)
    | with_reducible assumption
    | with_reducible apply State.dmaDo_keeps
    | with_reducible apply State.dmaMove_keeps

theorem execMovec_keeps {s : State} (h : Keeps dk qu s) (ch : Fin 128) :
    KeepsOut dk qu (execMovec ch s) := by
  unfold execMovec
  repeat' first
    | with_reducible apply KeepsOut.next
    | with_reducible apply KeepsOut.ite
    | (intro)
    | with_reducible assumption
    | with_reducible apply State.dmaDo_keeps
    | with_reducible apply State.dmaMove_keeps

theorem execLoop_keeps {s : State} (h : Keeps dk qu s) (ch : Fin 128) :
    KeepsOut dk qu (execLoop ch s) := by
  unfold execLoop
  repeat' first
    | with_reducible apply KeepsOut.next
    | with_reducible apply KeepsOut.ite
    | (intro)
    | with_reducible assumption
    | with_reducible apply State.setDch_keeps
    | with_reducible apply State.dmaGoto_keeps
    | with_reducible apply State.dmaNext_keeps
    | with_reducible apply State.dmaDo_keeps
    | with_reducible apply Keeps.ite

theorem execEndloop_keeps {s : State} (h : Keeps dk qu s) (ch : Fin 128) :
    KeepsOut dk qu (execEndloop ch s) := by
  unfold execEndloop
  repeat' first
    | with_reducible apply KeepsOut.next
    | with_reducible apply KeepsOut.ite
    | (intro)
    | with_reducible assumption
    | with_reducible apply State.setDch_keeps
    | with_reducible apply State.dmaGoto_keeps
    | with_reducible apply State.dmaNext_keeps
    | with_reducible apply State.dmaDo_keeps
    | with_reducible apply Keeps.ite
    | (dsimp only)
    | split

theorem execWaitEvent_keeps {s : State} (h : Keeps dk qu s) (ch : Fin 128) :
    KeepsOut dk qu (execWaitEvent ch s) := by
  unfold execWaitEvent
  repeat' first
    | with_reducible apply KeepsOut.next
    | with_reducible apply KeepsOut.ite
    | (intro)
    | with_reducible assumption
    | with_reducible apply State.dmaWait_keeps
    | with_reducible apply State.putFlag_keeps
    | with_reducible apply State.dmaNext_keeps
    | with_reducible apply State.dmaDo_keeps
    | with_reducible apply Keeps.ite

theorem execWaitReq_keeps {s : State} (h : Keeps dk qu s) (ch : Fin 128) :
    KeepsOut dk qu (execWaitReq ch s) := by
  unfold execWaitReq
  repeat' first
    | with_reducible apply KeepsOut.next
    | with_reducible apply KeepsOut.ite
    | (intro)
    | with_reducible assumption
    | with_reducible apply State.dmaWait_keeps
    | with_reducible apply State.dmaNext_keeps
    | with_reducible apply State.dmaDo_keeps
    | with_reducible apply Keeps.ite

theorem execWaitTime_keeps {s : State} (h : Keeps dk qu s) (ch : Fin 128) :
    KeepsOut dk qu (execWaitTime ch s) := by
  unfold execWaitTime
  repeat' first
    | with_reducible apply KeepsOut.next
    | with_reducible apply KeepsOut.ite
    | (intro)
    | with_reducible assumption
    | with_reducible apply State.dmaWait_keeps
    | with_reducible apply State.dmaNext_keeps
    | with_reducible apply State.dmaDo_keeps
    | with_reducible apply Keeps.ite

theorem execWaitKey_keeps {s : State} (h : Keeps dk qu s) (ch : Fin 128) :
    KeepsOut dk qu (execWaitKey ch s) := by
  unfold execWaitKey
  repeat' first
    | with_reducible apply KeepsOut.next
    | with_reducible apply KeepsOut.ite
    | (intro)
    | with_reducible assumption
    | with_reducible apply State.dmaDo_keeps
    | with_reducible apply State.dmaWaitKey_keeps

theorem execDmaWaitMet_keeps {s : State} (h : Keeps dk qu s) (ch : Fin 128) :
    KeepsOut dk qu (execDmaWaitMet ch s) := by
  unfold execDmaWaitMet
  repeat' first
    | with_reducible apply KeepsOut.next
    | with_reducible apply KeepsOut.ite
    | (intro)
    | with_reducible assumption
    | with_reducible apply State.dmaMet_keeps

theorem execSignalEvent_keeps {s : State} (h : Keeps dk qu s) (ch : Fin 128) :
    KeepsOut dk qu (execSignalEvent ch s) := by
  unfold execSignalEvent
  repeat' first
    | with_reducible apply KeepsOut.next
    | with_reducible apply KeepsOut.ite
    | (intro)
    | with_reducible assumption
    | with_reducible apply State.setFlag_keeps
    | with_reducible apply State.dmaNext_keeps
    | with_reducible apply State.dmaSignal_keeps

theorem execSignalKey_keeps {s : State} (h : Keeps dk qu s) (ch : Fin 128) :
    KeepsOut dk qu (execSignalKey ch s) := by
  unfold execSignalKey
  repeat' first
    | with_reducible apply KeepsOut.next
    | with_reducible apply KeepsOut.ite
    | (intro)
    | with_reducible assumption
    | with_reducible apply State.decKey_keeps
    | with_reducible apply State.dmaNext_keeps
    | with_reducible apply State.dmaSignal_keeps

theorem execSignalJournal_keeps {s : State} (h : Keeps dk qu s) (ch : Fin 128) :
    KeepsOut dk qu (execSignalJournal ch s) := by
  unfold execSignalJournal
  repeat' first
    | with_reducible apply KeepsOut.next
    | with_reducible apply KeepsOut.ite
    | (intro)
    | with_reducible assumption
    | with_reducible apply State.post_keeps
    | with_reducible apply State.dmaNext_keeps
    | with_reducible apply State.dmaSignal_keeps

theorem execSignalIrq_keeps {s : State} (h : Keeps dk qu s) (ch : Fin 128) :
    KeepsOut dk qu (execSignalIrq ch s) := by
  unfold execSignalIrq
  repeat' first
    | with_reducible apply KeepsOut.next
    | with_reducible apply KeepsOut.ite
    | (intro)
    | with_reducible assumption
    | with_reducible apply State.raise_keeps
    | with_reducible apply State.dmaNext_keeps
    | with_reducible apply State.dmaSignal_keeps

theorem execSignalRing_keeps {s : State} (h : Keeps dk qu s) (ch : Fin 128) :
    KeepsOut dk qu (execSignalRing ch s) := by
  unfold execSignalRing
  repeat' first
    | with_reducible apply KeepsOut.next
    | with_reducible apply KeepsOut.ite
    | (intro)
    | with_reducible assumption
    | with_reducible apply State.dmaSignal_keeps
    | with_reducible apply State.dmaSignalRing_keeps
    | with_reducible apply Keeps.ite

theorem execSetptrSet_keeps {s : State} (h : Keeps dk qu s) (ch : Fin 128) :
    KeepsOut dk qu (execSetptrSet ch s) := by
  unfold execSetptrSet
  repeat' first
    | with_reducible apply KeepsOut.next
    | with_reducible apply KeepsOut.ite
    | (intro)
    | with_reducible assumption
    | with_reducible apply State.setDch_keeps
    | with_reducible apply State.dmaNext_keeps
    | with_reducible apply State.dmaSetPtr_keeps

theorem execSetptrAdd_keeps {s : State} (h : Keeps dk qu s) (ch : Fin 128) :
    KeepsOut dk qu (execSetptrAdd ch s) := by
  unfold execSetptrAdd
  repeat' first
    | with_reducible apply KeepsOut.next
    | with_reducible apply KeepsOut.ite
    | (intro)
    | with_reducible assumption
    | with_reducible apply State.setDch_keeps
    | with_reducible apply State.dmaNext_keeps
    | with_reducible apply State.dmaSetPtr_keeps

theorem execSetptrLoad_keeps {s : State} (h : Keeps dk qu s) (ch : Fin 128) :
    KeepsOut dk qu (execSetptrLoad ch s) := by
  unfold execSetptrLoad
  repeat' first
    | with_reducible apply KeepsOut.next
    | with_reducible apply KeepsOut.ite
    | (intro)
    | with_reducible assumption
    | with_reducible apply State.dmaSetPtr_keeps
    | with_reducible apply State.dmaLoad_keeps

theorem execDmaNop_keeps {s : State} (h : Keeps dk qu s) (ch : Fin 128) :
    KeepsOut dk qu (execDmaNop ch s) := by
  unfold execDmaNop
  repeat' first
    | with_reducible apply KeepsOut.next
    | with_reducible apply KeepsOut.ite
    | (intro)
    | with_reducible assumption
    | with_reducible apply State.dmaNext_keeps
    | with_reducible apply State.dmaDo_keeps

theorem execBadOp_keeps {s : State} (h : Keeps dk qu s) (ch : Fin 128) :
    KeepsOut dk qu (execBadOp ch s) := by
  unfold execBadOp
  repeat' first
    | with_reducible apply KeepsOut.next
    | with_reducible apply KeepsOut.ite
    | (intro)
    | with_reducible assumption
    | with_reducible apply State.dmaHalt_keeps
    | with_reducible apply Keeps.ite
    | (dsimp only)
    | split

theorem execPacedBurst_keeps {s : State} (h : Keeps dk qu s) (ch : Fin 128) (withdrawn : Bool) :
    KeepsOut dk qu (execPacedBurst ch withdrawn s) := by
  unfold execPacedBurst
  repeat' first
    | with_reducible apply KeepsOut.next
    | with_reducible apply KeepsOut.ite
    | (intro)
    | with_reducible assumption
    | with_reducible apply State.dmaBurst_keeps

theorem execDmaWriteAck_keeps {s : State} (h : Keeps dk qu s) (ch : Fin 128) :
    KeepsOut dk qu (execDmaWriteAck ch s) := by
  unfold execDmaWriteAck
  repeat' first
    | with_reducible apply KeepsOut.next
    | with_reducible apply KeepsOut.ite
    | (intro)
    | with_reducible assumption
    | with_reducible apply State.dmaAck_keeps

theorem execBusError_keeps {s : State} (h : Keeps dk qu s) (engine : Fin 4) :
    KeepsOut dk qu (execBusError engine s) := by
  unfold execBusError
  repeat' first
    | with_reducible apply KeepsOut.next
    | with_reducible apply KeepsOut.ite
    | (intro)
    | with_reducible assumption
    | with_reducible apply State.dmaBusError_keeps
    | with_reducible apply Keeps.ite
    | (dsimp only)
    | split
    | (refine Keeps.any ?_ ?_; rotate_left; rfl)

theorem execDmaFetchReturn_keeps {s : State} (h : Keeps dk qu s) (ch : Fin 128) :
    KeepsOut dk qu (execDmaFetchReturn ch s) := by
  unfold execDmaFetchReturn
  repeat' first
    | with_reducible apply KeepsOut.next
    | with_reducible apply KeepsOut.ite
    | (intro)
    | with_reducible assumption
    | with_reducible apply State.dmaFetch_keeps

theorem execEventSet_keeps {s : State} (h : Keeps dk qu s) (req : Fin 14) (sel : BitVec 10) (word : Fin 2) (value : Word) :
    KeepsOut dk qu (execEventSet req sel word value s) := by
  unfold execEventSet
  repeat' first
    | with_reducible apply KeepsOut.next
    | with_reducible apply KeepsOut.ite
    | (intro)
    | with_reducible assumption
    | with_reducible apply State.csrWrite_keeps

theorem execEventClr_keeps {s : State} (h : Keeps dk qu s) (req : Fin 14) (sel : BitVec 10) (word : Fin 2) (value : Word) :
    KeepsOut dk qu (execEventClr req sel word value s) := by
  unfold execEventClr
  repeat' first
    | with_reducible apply KeepsOut.next
    | with_reducible apply KeepsOut.ite
    | (intro)
    | with_reducible assumption
    | with_reducible apply State.csrWrite_keeps

theorem execReqSwWrite_keeps {s : State} (h : Keeps dk qu s) (req : Fin 14) (sel : BitVec 10) (word : Fin 2) (value : Word) :
    KeepsOut dk qu (execReqSwWrite req sel word value s) := by
  unfold execReqSwWrite
  repeat' first
    | with_reducible apply KeepsOut.next
    | with_reducible apply KeepsOut.ite
    | (intro)
    | with_reducible assumption
    | with_reducible apply State.csrWrite_keeps

theorem execRegHiWrite_keeps {s : State} (h : Keeps dk qu s) (req : Fin 14) (sel : BitVec 10) (value : Word) :
    KeepsOut dk qu (execRegHiWrite req sel value s) := by
  unfold execRegHiWrite
  repeat' first
    | with_reducible apply KeepsOut.next
    | with_reducible apply KeepsOut.ite
    | (intro)
    | with_reducible assumption
    | with_reducible apply State.csrWrite_keeps

theorem execDataRingHead_keeps {s : State} (h : Keeps dk qu s) (fn : Fin 16) (ring : Fin 64) (value : BitVec 16) :
    KeepsOut dk qu (execDataRingHead fn ring value s) := by
  unfold execDataRingHead
  repeat' first
    | with_reducible apply KeepsOut.next
    | with_reducible apply KeepsOut.ite
    | (intro)
    | with_reducible assumption
    | with_reducible apply State.ringHead_keeps

end Sys2Proof.Machine
end

