-- ==== Sys2Proof/Laws/KeepsPackets.lean ====
section
/-! SUPPORT. What command packets and long-running operations keep (`Keeps`, `KeepsOut`): one lemma a definition. -/
namespace Sys2Proof.Machine

variable {dk : BitVec 64} {qu : List Instr}

/-! ## PacketOps -/

theorem State.pairRead_keeps {s : State} (h : Keeps dk qu s) (a n : Nat) :
    Keeps dk qu (State.pairRead s a n).2.2 := by
  unfold State.pairRead
  repeat' first
    | (intro)
    | with_reducible assumption
    | with_reducible apply State.took_keeps
    | with_reducible apply State.reqRead_keeps

theorem State.pairRead_keeps_eq {s : State} (h : Keeps dk qu s) {a n : Nat} {x0 : BusStatus} {x1 : List (Byte × Bool)} {sv : State}
    (eqn : State.pairRead s a n = (x0, x1, sv)) : Keeps dk qu sv := by
  have := State.pairRead_keeps h a n
  rwa [eqn] at this

theorem State.sqSlot_keeps {s : State} (h : Keeps dk qu s) (fn k : Nat) :
    Keeps dk qu (State.sqSlot s fn k).2 := by
  unfold State.sqSlot
  repeat' first
    | (intro)
    | with_reducible assumption
    | with_reducible apply State.hostRead_keeps
    | refine State.hostRead_keeps_eq ?_ (by with_reducible assumption)
    | with_reducible apply State.took_keeps
    | with_reducible apply State.unitGet_keeps
    | refine State.unitGet_keeps_eq ?_ (by with_reducible assumption)
    | with_reducible apply Keeps.ite
    | (dsimp only)
    | split

theorem State.sqSlot_keeps_eq {s : State} (h : Keeps dk qu s) {fn k : Nat} {x0 : List Word} {sv : State}
    (eqn : State.sqSlot s fn k = (x0, sv)) : Keeps dk qu sv := by
  have := State.sqSlot_keeps h fn k
  rwa [eqn] at this

theorem State.sqWords_keeps {s : State} (h : Keeps dk qu s) (fn k n : Nat) : Keeps dk qu (State.sqWords s fn k n).2 := by
  induction n with
  | zero => exact h
  | succ n ih => exact State.sqSlot_keeps ih _ _

theorem State.packetAt_keeps {s : State} (h : Keeps dk qu s) (fn : Nat) : Keeps dk qu (State.packetAt s fn).2 := by
  unfold State.packetAt
  extract_lets hd n
  exact State.sqWords_keeps h _ _ _

theorem State.packetAt_keeps_eq {s : State} (h : Keeps dk qu s) {fn : Nat} {x0 : Packet} {sv : State}
    (eqn : State.packetAt s fn = (x0, sv)) : Keeps dk qu sv := by
  have := State.packetAt_keeps h fn
  rwa [eqn] at this

theorem State.passSlots_keeps {s : State} (h : Keeps dk qu s) (fn n : Nat) :
    Keeps dk qu (State.passSlots s fn n) := by
  unfold State.passSlots
  repeat' first
    | (intro)
    | with_reducible assumption
    | with_reducible apply State.setPage_keeps

theorem State.takeSlots_keeps {s : State} (h : Keeps dk qu s) (fn n : Nat) :
    Keeps dk qu (State.takeSlots s fn n) := by
  unfold State.takeSlots
  repeat' first
    | (intro)
    | with_reducible assumption
    | with_reducible apply State.passSlots_keeps
    | with_reducible apply Keeps.ite
    | (dsimp only)
    | split
    | (refine Keeps.any ?_ ?_; rotate_left; rfl)

theorem State.reply_keeps {s : State} (h : Keeps dk qu s) (p : Packet) (st : Status) (detail : Nat) (results : List Word) :
    Keeps dk qu (State.reply s p st detail results) := by
  unfold State.reply
  repeat' first
    | (intro)
    | with_reducible assumption
    | with_reducible apply State.answer_keeps

theorem State.replyOk_keeps {s : State} (h : Keeps dk qu s) (p : Packet) (results : List Word) :
    Keeps dk qu (State.replyOk s p results) := by
  unfold State.replyOk
  repeat' first
    | (intro)
    | with_reducible assumption
    | with_reducible apply State.reply_keeps

theorem State.packetRow_keeps {s : State} (h : Keeps dk qu s) (fn op : Nat) (f : State → Packet → State)
    (hf : ∀ s p, Keeps dk qu s → Keeps dk qu (f s p)) : Keeps dk qu (State.packetRow s fn op f) := by
  unfold State.packetRow
  split
  · split
    rename_i p t e
    have k := State.packetAt_keeps_eq h e
    refine Keeps.ite ?_ h
    extract_lets t2
    have k2 : Keeps dk qu t2 := State.takeSlots_keeps k _ _
    clear_value t2
    split
    · exact State.reply_keeps k2 _ _ _ _
    · exact hf _ _ k2
  · exact h

theorem State.acceptOp_keeps {s : State} (h : Keeps dk qu s) (p : Packet) (kind : LrKind) (params : List Word) (more : List Word) :
    Keeps dk qu (State.acceptOp s p kind params more).2 := by
  unfold State.acceptOp
  repeat' first
    | (intro)
    | with_reducible assumption
    | with_reducible apply State.reply_keeps
    | with_reducible apply Keeps.ite
    | (dsimp only)
    | split
    | (refine Keeps.any ?_ ?_; rotate_left; rfl)

theorem State.acceptOp_keeps_eq {s : State} (h : Keeps dk qu s) {p : Packet} {kind : LrKind} {params : List Word} {more : List Word} {x0 : LrOp} {sv : State}
    (eqn : State.acceptOp s p kind params more = (x0, sv)) : Keeps dk qu sv := by
  have := State.acceptOp_keeps h p kind params more
  rwa [eqn] at this

theorem State.dvWrite_keeps {s : State} (h : Keeps dk qu s) (p : Packet) (i off : Nat) (v : Word) :
    Keeps dk qu (State.dvWrite s p i off v) := by
  unfold State.dvWrite
  repeat' first
    | (intro)
    | with_reducible assumption
    | with_reducible apply State.csrWrite_keeps
    | with_reducible apply Keeps.ite

theorem State.dvWrites_keeps {s : State} (h : Keeps dk qu s) (p : Packet) (l : List (Nat × Word)) :
    Keeps dk qu (State.dvWrites s p l) := by
  unfold State.dvWrites
  repeat' first
    | (intro)
    | with_reducible assumption
    | with_reducible apply State.dvWrite_keeps
    | with_reducible apply Keeps.ite
    | (with_reducible apply Keeps.foldl)

theorem State.replyWritten_keeps {s : State} (h : Keeps dk qu s) (p : Packet) (barred : Bool) (results : List Word) :
    Keeps dk qu (State.replyWritten s p barred results) := by
  unfold State.replyWritten
  repeat' first
    | (intro)
    | with_reducible assumption
    | with_reducible apply State.reply_keeps
    | with_reducible apply State.replyOk_keeps
    | with_reducible apply Keeps.ite

theorem State.configure_keeps {s : State} (h : Keeps dk qu s) (p : Packet) :
    Keeps dk qu (State.configure s p) := by
  unfold State.configure
  repeat' first
    | (intro)
    | with_reducible assumption
    | with_reducible apply State.dvWrites_keeps
    | with_reducible apply State.replyWritten_keeps

theorem State.dvReads_keeps {s : State} (h : Keeps dk qu s) (p : Packet) (offs : List Nat) :
    Keeps dk qu (State.dvReads s p offs).2 := by
  unfold State.dvReads
  repeat' first
    | (intro)
    | with_reducible assumption
    | with_reducible apply State.csrRead_keeps
    | refine State.csrRead_keeps_eq ?_ (by with_reducible assumption)
    | with_reducible apply Keeps.ite
    | (with_reducible apply Keeps.foldl)
    | (with_reducible apply Keeps.foldl_snd)

theorem State.dvReads_keeps_eq {s : State} (h : Keeps dk qu s) {p : Packet} {offs : List Nat} {x0 : List Word} {sv : State}
    (eqn : State.dvReads s p offs = (x0, sv)) : Keeps dk qu sv := by
  have := State.dvReads_keeps h p offs
  rwa [eqn] at this

theorem State.replyRegs_keeps {s : State} (h : Keeps dk qu s) (p : Packet) (offs : List Nat) :
    Keeps dk qu (State.replyRegs s p offs) := by
  unfold State.replyRegs
  repeat' first
    | (intro)
    | with_reducible assumption
    | with_reducible apply State.replyOk_keeps
    | with_reducible apply State.dvReads_keeps

theorem State.packetCommit_keeps {s : State} (h : Keeps dk qu s) (p : Packet) (ops : List (BitVec 16)) :
    Keeps dk qu (State.packetCommit s p ops).2 := by
  unfold State.packetCommit
  repeat' first
    | (intro)
    | with_reducible assumption
    | with_reducible apply State.commitWrite_keeps
    | with_reducible apply Keeps.ite
    | (with_reducible apply Keeps.foldl)
    | (with_reducible apply Keeps.foldl_snd)
    | (with_reducible apply Keeps.foldl_snd2)
    | (with_reducible apply Keeps.foldl_fst)
    | (refine Keeps.foldl_snd_eq ?_ ?_ (by with_reducible assumption))
    | (refine Keeps.foldl_snd2_eq ?_ ?_ (by with_reducible assumption))
    | (refine Keeps.foldl_fst_eq ?_ ?_ (by with_reducible assumption))
    | (dsimp only)
    | split

theorem State.packetCommit_keeps_eq {s : State} (h : Keeps dk qu s) {p : Packet} {ops : List (BitVec 16)} {x0 : Nat} {sv : State}
    (eqn : State.packetCommit s p ops = (x0, sv)) : Keeps dk qu sv := by
  have := State.packetCommit_keeps h p ops
  rwa [eqn] at this

theorem State.startUnfence_keeps {s : State} (h : Keeps dk qu s) (cls inst : Nat) :
    Keeps dk qu (State.startUnfence s cls inst) := by
  unfold State.startUnfence
  repeat' first
    | (intro)
    | with_reducible assumption
    | with_reducible apply State.setFence_keeps
    | with_reducible apply State.askUnfence_keeps
    | with_reducible apply Keeps.ite
    | (dsimp only)
    | split
    | (refine Keeps.any ?_ ?_; rotate_left; rfl)

/-! ## Packets -/

theorem execBadOpcode_keeps {s : State} (h : Keeps dk qu s) (fn : Fin 16) :
    KeepsOut dk qu (execBadOpcode fn s) := by
  unfold execBadOpcode
  repeat' first
    | with_reducible apply KeepsOut.next
    | with_reducible apply KeepsOut.ite
    | (intro)
    | with_reducible assumption
    | with_reducible apply State.packetAt_keeps
    | refine State.packetAt_keeps_eq ?_ (by with_reducible assumption)
    | with_reducible apply State.takeSlots_keeps
    | with_reducible apply State.reply_keeps

theorem execNop_keeps {s : State} (h : Keeps dk qu s) (fn : Fin 16) :
    KeepsOut dk qu (execNop fn s) := by
  unfold execNop
  repeat' first
    | with_reducible apply KeepsOut.next
    | with_reducible apply KeepsOut.ite
    | (intro)
    | with_reducible assumption
    | with_reducible apply State.replyOk_keeps
    | with_reducible apply State.packetRow_keeps

theorem execIdentify_keeps {s : State} (h : Keeps dk qu s) (fn : Fin 16) :
    KeepsOut dk qu (execIdentify fn s) := by
  unfold execIdentify
  repeat' first
    | with_reducible apply KeepsOut.next
    | with_reducible apply KeepsOut.ite
    | (intro)
    | with_reducible assumption
    | with_reducible apply State.replyOk_keeps
    | with_reducible apply State.packetRow_keeps

theorem execModeGet_keeps {s : State} (h : Keeps dk qu s) (fn : Fin 16) :
    KeepsOut dk qu (execModeGet fn s) := by
  unfold execModeGet
  repeat' first
    | with_reducible apply KeepsOut.next
    | with_reducible apply KeepsOut.ite
    | (intro)
    | with_reducible assumption
    | with_reducible apply State.replyOk_keeps
    | with_reducible apply State.packetRow_keeps

theorem State.modeSet_keeps {s : State} (h : Keeps dk qu s) (p : Packet) :
    Keeps dk qu (State.modeSet s p) := by
  unfold State.modeSet
  repeat' first
    | (intro)
    | with_reducible assumption
    | with_reducible apply State.endOp_keeps
    | with_reducible apply State.modeDecision_keeps
    | with_reducible apply State.beginMode_keeps
    | with_reducible apply State.acceptOp_keeps
    | refine State.acceptOp_keeps_eq ?_ (by with_reducible assumption)
    | with_reducible apply Keeps.ite
    | (dsimp only)
    | split

theorem execModeSet_keeps {s : State} (h : Keeps dk qu s) (fn : Fin 16) :
    KeepsOut dk qu (execModeSet fn s) := by
  unfold execModeSet
  repeat' first
    | with_reducible apply KeepsOut.next
    | with_reducible apply KeepsOut.ite
    | (intro)
    | with_reducible assumption
    | with_reducible apply State.packetRow_keeps
    | with_reducible apply State.modeSet_keeps

theorem State.subscribe_keeps {s : State} (h : Keeps dk qu s) (p : Packet) :
    Keeps dk qu (State.subscribe s p) := by
  unfold State.subscribe
  repeat' first
    | (intro)
    | with_reducible assumption
    | with_reducible apply State.setFnState_keeps
    | with_reducible apply State.drop_keeps
    | with_reducible apply State.replyOk_keeps

theorem execEventSubscribe_keeps {s : State} (h : Keeps dk qu s) (fn : Fin 16) :
    KeepsOut dk qu (execEventSubscribe fn s) := by
  unfold execEventSubscribe
  repeat' first
    | with_reducible apply KeepsOut.next
    | with_reducible apply KeepsOut.ite
    | (intro)
    | with_reducible assumption
    | with_reducible apply State.packetRow_keeps
    | with_reducible apply State.subscribe_keeps

theorem State.fnGrant_keeps {s : State} (h : Keeps dk qu s) (p : Packet) :
    Keeps dk qu (State.fnGrant s p) := by
  unfold State.fnGrant
  repeat' first
    | (intro)
    | with_reducible assumption
    | with_reducible apply State.setFnState_keeps
    | with_reducible apply State.drop_keeps
    | with_reducible apply State.replyOk_keeps
    | with_reducible apply Keeps.ite

theorem execFnGrant_keeps {s : State} (h : Keeps dk qu s) (fn : Fin 16) :
    KeepsOut dk qu (execFnGrant fn s) := by
  unfold execFnGrant
  repeat' first
    | with_reducible apply KeepsOut.next
    | with_reducible apply KeepsOut.ite
    | (intro)
    | with_reducible assumption
    | with_reducible apply State.packetRow_keeps
    | with_reducible apply State.fnGrant_keeps

theorem State.setDiag_keeps {s : State} (h : Keeps dk qu s) (v : Nat) :
    Keeps dk qu (State.setDiag s v) := by
  unfold State.setDiag
  repeat' first
    | (intro)
    | with_reducible assumption
    | with_reducible apply State.setFld_keeps

theorem State.diagWindow_keeps {s : State} (h : Keeps dk qu s) (p : Packet) :
    Keeps dk qu (State.diagWindow s p) := by
  unfold State.diagWindow
  repeat' first
    | (intro)
    | with_reducible assumption
    | with_reducible apply State.replyOk_keeps
    | with_reducible apply State.setDiag_keeps

theorem execDiagWindow_keeps {s : State} (h : Keeps dk qu s) (fn : Fin 16) :
    KeepsOut dk qu (execDiagWindow fn s) := by
  unfold execDiagWindow
  repeat' first
    | with_reducible apply KeepsOut.next
    | with_reducible apply KeepsOut.ite
    | (intro)
    | with_reducible assumption
    | with_reducible apply State.packetRow_keeps
    | with_reducible apply State.diagWindow_keeps

theorem State.abortOp_keeps {s : State} (h : Keeps dk qu s) (p : Packet) :
    Keeps dk qu (State.abortOp s p) := by
  unfold State.abortOp
  repeat' first
    | (intro)
    | with_reducible assumption
    | with_reducible apply State.setOp_keeps
    | with_reducible apply State.replyOk_keeps
    | with_reducible apply Keeps.ite
    | (dsimp only)
    | split

theorem execAbort_keeps {s : State} (h : Keeps dk qu s) (fn : Fin 16) :
    KeepsOut dk qu (execAbort fn s) := by
  unfold execAbort
  repeat' first
    | with_reducible apply KeepsOut.next
    | with_reducible apply KeepsOut.ite
    | (intro)
    | with_reducible assumption
    | with_reducible apply State.packetRow_keeps
    | with_reducible apply State.abortOp_keeps

theorem State.enumerate_keeps {s : State} (h : Keeps dk qu s) (p : Packet) :
    Keeps dk qu (State.enumerate s p) := by
  unfold State.enumerate
  repeat' first
    | (intro)
    | with_reducible assumption
    | with_reducible apply State.replyOk_keeps

theorem execEnumerate_keeps {s : State} (h : Keeps dk qu s) (fn : Fin 16) :
    KeepsOut dk qu (execEnumerate fn s) := by
  unfold execEnumerate
  repeat' first
    | with_reducible apply KeepsOut.next
    | with_reducible apply KeepsOut.ite
    | (intro)
    | with_reducible assumption
    | with_reducible apply State.packetRow_keeps
    | with_reducible apply State.enumerate_keeps

theorem State.regRead_keeps {s : State} (h : Keeps dk qu s) (p : Packet) :
    Keeps dk qu (State.regRead s p) := by
  unfold State.regRead
  repeat' first
    | (intro)
    | with_reducible assumption
    | with_reducible apply State.replyRegs_keeps

theorem execRegRead_keeps {s : State} (h : Keeps dk qu s) (fn : Fin 16) :
    KeepsOut dk qu (execRegRead fn s) := by
  unfold execRegRead
  repeat' first
    | with_reducible apply KeepsOut.next
    | with_reducible apply KeepsOut.ite
    | (intro)
    | with_reducible assumption
    | with_reducible apply State.packetRow_keeps
    | with_reducible apply State.regRead_keeps

theorem execRegWrite_keeps {s : State} (h : Keeps dk qu s) (fn : Fin 16) :
    KeepsOut dk qu (execRegWrite fn s) := by
  unfold execRegWrite
  repeat' first
    | with_reducible apply KeepsOut.next
    | with_reducible apply KeepsOut.ite
    | (intro)
    | with_reducible assumption
    | with_reducible apply State.packetRow_keeps
    | with_reducible apply State.configure_keeps

theorem State.regModify_keeps {s : State} (h : Keeps dk qu s) (p : Packet) :
    Keeps dk qu (State.regModify s p) := by
  unfold State.regModify
  repeat' first
    | (intro)
    | with_reducible assumption
    | with_reducible apply State.csrRead_keeps
    | refine State.csrRead_keeps_eq ?_ (by with_reducible assumption)
    | with_reducible apply State.dvWrite_keeps
    | with_reducible apply State.replyWritten_keeps
    | with_reducible apply Keeps.ite
    | (with_reducible apply Keeps.foldl)
    | (with_reducible apply Keeps.foldl_snd)
    | (with_reducible apply Keeps.foldl_snd2)
    | (with_reducible apply Keeps.foldl_fst)
    | (refine Keeps.foldl_snd_eq ?_ ?_ (by with_reducible assumption))
    | (refine Keeps.foldl_snd2_eq ?_ ?_ (by with_reducible assumption))
    | (refine Keeps.foldl_fst_eq ?_ ?_ (by with_reducible assumption))
    | (dsimp only)
    | split

theorem execRegModify_keeps {s : State} (h : Keeps dk qu s) (fn : Fin 16) :
    KeepsOut dk qu (execRegModify fn s) := by
  unfold execRegModify
  repeat' first
    | with_reducible apply KeepsOut.next
    | with_reducible apply KeepsOut.ite
    | (intro)
    | with_reducible assumption
    | with_reducible apply State.packetRow_keeps
    | with_reducible apply State.regModify_keeps

theorem execRegBlock_keeps {s : State} (h : Keeps dk qu s) (fn : Fin 16) :
    KeepsOut dk qu (execRegBlock fn s) := by
  unfold execRegBlock
  repeat' first
    | with_reducible apply KeepsOut.next
    | with_reducible apply KeepsOut.ite
    | (intro)
    | with_reducible assumption
    | with_reducible apply State.packetRow_keeps
    | with_reducible apply State.acceptOp_keeps

theorem State.commitPacket_keeps {s : State} (h : Keeps dk qu s) (p : Packet) :
    Keeps dk qu (State.commitPacket s p) := by
  unfold State.commitPacket
  repeat' first
    | (intro)
    | with_reducible assumption
    | with_reducible apply State.endOp_keeps
    | with_reducible apply State.reply_keeps
    | with_reducible apply State.replyOk_keeps
    | with_reducible apply State.packetCommit_keeps
    | refine State.packetCommit_keeps_eq ?_ (by with_reducible assumption)
    | with_reducible apply Keeps.ite
    | (dsimp only)
    | split
    | (refine Keeps.any ?_ ?_; rotate_left; rfl)

theorem execCommit_keeps {s : State} (h : Keeps dk qu s) (fn : Fin 16) :
    KeepsOut dk qu (execCommit fn s) := by
  unfold execCommit
  repeat' first
    | with_reducible apply KeepsOut.next
    | with_reducible apply KeepsOut.ite
    | (intro)
    | with_reducible assumption
    | with_reducible apply State.packetRow_keeps
    | with_reducible apply State.commitPacket_keeps

theorem State.commitStatePacket_keeps {s : State} (h : Keeps dk qu s) (p : Packet) :
    Keeps dk qu (State.commitStatePacket s p) := by
  unfold State.commitStatePacket
  repeat' first
    | (intro)
    | with_reducible assumption
    | with_reducible apply State.replyOk_keeps
    | with_reducible apply State.dvReads_keeps

theorem execCommitState_keeps {s : State} (h : Keeps dk qu s) (fn : Fin 16) :
    KeepsOut dk qu (execCommitState fn s) := by
  unfold execCommitState
  repeat' first
    | with_reducible apply KeepsOut.next
    | with_reducible apply KeepsOut.ite
    | (intro)
    | with_reducible assumption
    | with_reducible apply State.packetRow_keeps
    | with_reducible apply State.commitStatePacket_keeps

theorem State.fencePacket_keeps {s : State} (h : Keeps dk qu s) (p : Packet) :
    Keeps dk qu (State.fencePacket s p) := by
  unfold State.fencePacket
  repeat' first
    | (intro)
    | with_reducible assumption
    | with_reducible apply State.startFence_keeps
    | with_reducible apply State.acceptOp_keeps
    | refine State.acceptOp_keeps_eq ?_ (by with_reducible assumption)
    | with_reducible apply Keeps.ite
    | (with_reducible apply Keeps.foldl)

theorem execFenceUnit_keeps {s : State} (h : Keeps dk qu s) (fn : Fin 16) :
    KeepsOut dk qu (execFenceUnit fn s) := by
  unfold execFenceUnit
  repeat' first
    | with_reducible apply KeepsOut.next
    | with_reducible apply KeepsOut.ite
    | (intro)
    | with_reducible assumption
    | with_reducible apply State.packetRow_keeps
    | with_reducible apply State.fencePacket_keeps

theorem State.unfencePacket_keeps {s : State} (h : Keeps dk qu s) (p : Packet) :
    Keeps dk qu (State.unfencePacket s p) := by
  unfold State.unfencePacket
  repeat' first
    | (intro)
    | with_reducible assumption
    | with_reducible apply State.endOp_keeps
    | with_reducible apply State.acceptOp_keeps
    | refine State.acceptOp_keeps_eq ?_ (by with_reducible assumption)
    | with_reducible apply State.startUnfence_keeps
    | with_reducible apply Keeps.ite
    | (with_reducible apply Keeps.foldl)

theorem execUnfenceUnit_keeps {s : State} (h : Keeps dk qu s) (fn : Fin 16) :
    KeepsOut dk qu (execUnfenceUnit fn s) := by
  unfold execUnfenceUnit
  repeat' first
    | with_reducible apply KeepsOut.next
    | with_reducible apply KeepsOut.ite
    | (intro)
    | with_reducible assumption
    | with_reducible apply State.packetRow_keeps
    | with_reducible apply State.unfencePacket_keeps

theorem execAccountSet_keeps {s : State} (h : Keeps dk qu s) (fn : Fin 16) :
    KeepsOut dk qu (execAccountSet fn s) := by
  unfold execAccountSet
  repeat' first
    | with_reducible apply KeepsOut.next
    | with_reducible apply KeepsOut.ite
    | (intro)
    | with_reducible assumption
    | with_reducible apply State.packetRow_keeps
    | with_reducible apply State.configure_keeps

theorem execAccountRead_keeps {s : State} (h : Keeps dk qu s) (fn : Fin 16) :
    KeepsOut dk qu (execAccountRead fn s) := by
  unfold execAccountRead
  repeat' first
    | with_reducible apply KeepsOut.next
    | with_reducible apply KeepsOut.ite
    | (intro)
    | with_reducible assumption
    | with_reducible apply State.packetRow_keeps
    | with_reducible apply State.replyRegs_keeps

theorem State.plan_keeps {s : State} (h : Keeps dk qu s) (p : Packet) :
    Keeps dk qu (State.plan s p) := by
  unfold State.plan
  repeat' first
    | (intro)
    | with_reducible assumption
    | with_reducible apply State.replyOk_keeps

theorem execPlan_keeps {s : State} (h : Keeps dk qu s) (fn : Fin 16) :
    KeepsOut dk qu (execPlan fn s) := by
  unfold execPlan
  repeat' first
    | with_reducible apply KeepsOut.next
    | with_reducible apply KeepsOut.ite
    | (intro)
    | with_reducible assumption
    | with_reducible apply State.packetRow_keeps
    | with_reducible apply State.plan_keeps

theorem execLedgerSet_keeps {s : State} (h : Keeps dk qu s) (fn : Fin 16) :
    KeepsOut dk qu (execLedgerSet fn s) := by
  unfold execLedgerSet
  repeat' first
    | with_reducible apply KeepsOut.next
    | with_reducible apply KeepsOut.ite
    | (intro)
    | with_reducible assumption
    | with_reducible apply State.packetRow_keeps
    | with_reducible apply State.configure_keeps

theorem State.calibrate_keeps {s : State} (h : Keeps dk qu s) (p : Packet) :
    Keeps dk qu (State.calibrate s p) := by
  unfold State.calibrate
  repeat' first
    | (intro)
    | with_reducible assumption
    | with_reducible apply State.setFld_keeps
    | with_reducible apply State.endOp_keeps
    | with_reducible apply State.acceptOp_keeps
    | refine State.acceptOp_keeps_eq ?_ (by with_reducible assumption)
    | with_reducible apply Keeps.ite
    | (with_reducible apply Keeps.foldl)

theorem execMeterCalibrate_keeps {s : State} (h : Keeps dk qu s) (fn : Fin 16) :
    KeepsOut dk qu (execMeterCalibrate fn s) := by
  unfold execMeterCalibrate
  repeat' first
    | with_reducible apply KeepsOut.next
    | with_reducible apply KeepsOut.ite
    | (intro)
    | with_reducible assumption
    | with_reducible apply State.packetRow_keeps
    | with_reducible apply State.calibrate_keeps

theorem execQueueSet_keeps {s : State} (h : Keeps dk qu s) (fn : Fin 16) :
    KeepsOut dk qu (execQueueSet fn s) := by
  unfold execQueueSet
  repeat' first
    | with_reducible apply KeepsOut.next
    | with_reducible apply KeepsOut.ite
    | (intro)
    | with_reducible assumption
    | with_reducible apply State.packetRow_keeps
    | with_reducible apply State.configure_keeps

theorem State.postTask_keeps {s : State} (h : Keeps dk qu s) (p : Packet) :
    Keeps dk qu (State.postTask s p) := by
  unfold State.postTask
  repeat' first
    | (intro)
    | with_reducible assumption
    | with_reducible apply State.accept_keeps
    | with_reducible apply State.replyOk_keeps
    | with_reducible apply Keeps.ite
    | (dsimp only)
    | split
    | (refine Keeps.any ?_ ?_; rotate_left; rfl)

theorem execTaskPost_keeps {s : State} (h : Keeps dk qu s) (fn : Fin 16) :
    KeepsOut dk qu (execTaskPost fn s) := by
  unfold execTaskPost
  repeat' first
    | with_reducible apply KeepsOut.next
    | with_reducible apply KeepsOut.ite
    | (intro)
    | with_reducible assumption
    | with_reducible apply State.setPage_keeps
    | with_reducible apply State.packetAt_keeps
    | refine State.packetAt_keeps_eq ?_ (by with_reducible assumption)
    | with_reducible apply State.packetRow_keeps
    | with_reducible apply State.postTask_keeps
    | with_reducible apply Keeps.ite
    | (dsimp only)
    | split
    | (refine Keeps.any ?_ ?_; rotate_left; rfl)

theorem State.retryPost_keeps {s : State} (h : Keeps dk qu s) (fn : Nat) :
    Keeps dk qu (State.retryPost s fn) := by
  unfold State.retryPost
  repeat' first
    | (intro)
    | with_reducible assumption
    | with_reducible apply State.setPage_keeps
    | with_reducible apply State.packetAt_keeps
    | refine State.packetAt_keeps_eq ?_ (by with_reducible assumption)
    | with_reducible apply State.passSlots_keeps
    | with_reducible apply State.postTask_keeps
    | with_reducible apply Keeps.ite
    | (dsimp only)
    | split
    | (refine Keeps.any ?_ ?_; rotate_left; rfl)

theorem execTaskPostRetry_keeps {s : State} (h : Keeps dk qu s) (fn : Fin 16) :
    KeepsOut dk qu (execTaskPostRetry fn s) := by
  unfold execTaskPostRetry
  repeat' first
    | with_reducible apply KeepsOut.next
    | with_reducible apply KeepsOut.ite
    | (intro)
    | with_reducible assumption
    | with_reducible apply State.retryPost_keeps
    | with_reducible apply Keeps.ite

theorem execPostAccept_keeps {s : State} (h : Keeps dk qu s)  :
    KeepsOut dk qu (execPostAccept s) := by
  unfold execPostAccept
  repeat' first
    | with_reducible apply KeepsOut.next
    | with_reducible apply KeepsOut.ite
    | (intro)
    | with_reducible assumption
    | with_reducible apply State.grantPost_keeps
    | with_reducible apply State.retryPost_keeps
    | with_reducible apply Keeps.ite
    | (dsimp only)
    | split

theorem execKeystoneSet_keeps {s : State} (h : Keeps dk qu s) (fn : Fin 16) :
    KeepsOut dk qu (execKeystoneSet fn s) := by
  unfold execKeystoneSet
  repeat' first
    | with_reducible apply KeepsOut.next
    | with_reducible apply KeepsOut.ite
    | (intro)
    | with_reducible assumption
    | with_reducible apply State.packetRow_keeps
    | with_reducible apply State.configure_keeps

theorem execKeystoneRead_keeps {s : State} (h : Keeps dk qu s) (fn : Fin 16) :
    KeepsOut dk qu (execKeystoneRead fn s) := by
  unfold execKeystoneRead
  repeat' first
    | with_reducible apply KeepsOut.next
    | with_reducible apply KeepsOut.ite
    | (intro)
    | with_reducible assumption
    | with_reducible apply State.packetRow_keeps
    | with_reducible apply State.dvWrites_keeps
    | with_reducible apply State.replyRegs_keeps

theorem execQueueStats_keeps {s : State} (h : Keeps dk qu s) (fn : Fin 16) :
    KeepsOut dk qu (execQueueStats fn s) := by
  unfold execQueueStats
  repeat' first
    | with_reducible apply KeepsOut.next
    | with_reducible apply KeepsOut.ite
    | (intro)
    | with_reducible assumption
    | with_reducible apply State.packetRow_keeps
    | with_reducible apply State.replyRegs_keeps

theorem execVaultSet_keeps {s : State} (h : Keeps dk qu s) (fn : Fin 16) :
    KeepsOut dk qu (execVaultSet fn s) := by
  unfold execVaultSet
  repeat' first
    | with_reducible apply KeepsOut.next
    | with_reducible apply KeepsOut.ite
    | (intro)
    | with_reducible assumption
    | with_reducible apply State.packetRow_keeps
    | with_reducible apply State.configure_keeps

theorem execVstreamSet_keeps {s : State} (h : Keeps dk qu s) (fn : Fin 16) :
    KeepsOut dk qu (execVstreamSet fn s) := by
  unfold execVstreamSet
  repeat' first
    | with_reducible apply KeepsOut.next
    | with_reducible apply KeepsOut.ite
    | (intro)
    | with_reducible assumption
    | with_reducible apply State.packetRow_keeps
    | with_reducible apply State.configure_keeps

theorem State.untilGranted_keeps {s : State} (h : Keeps dk qu s) (n : Nat) : Keeps dk qu (State.untilGranted n s) := by
  induction n generalizing s with
  | zero => exact h
  | succ n ih => exact Keeps.ite (ih (State.triggerStep_keeps h)) h

theorem State.triggerPacket_keeps {s : State} (h : Keeps dk qu s) (p : Packet) :
    Keeps dk qu (State.triggerPacket s p) := by
  unfold State.triggerPacket
  split
  · exact State.replyOk_keeps (State.untilGranted_keeps (State.commandTrigger_keeps h _) _) _ _
  · split
    rename_i x s1 e1
    exact State.replyOk_keeps (State.takeFree_keeps_eq h e1) _ _

theorem execVaultTrigger_keeps {s : State} (h : Keeps dk qu s) (fn : Fin 16) :
    KeepsOut dk qu (execVaultTrigger fn s) := by
  unfold execVaultTrigger
  repeat' first
    | with_reducible apply KeepsOut.next
    | with_reducible apply KeepsOut.ite
    | (intro)
    | with_reducible assumption
    | with_reducible apply State.packetRow_keeps
    | with_reducible apply State.triggerPacket_keeps

theorem State.exportPacket_keeps {s : State} (h : Keeps dk qu s) (p : Packet) :
    Keeps dk qu (State.exportPacket s p) := by
  unfold State.exportPacket
  repeat' first
    | (intro)
    | with_reducible assumption
    | with_reducible apply State.setFld_keeps
    | with_reducible apply State.post_keeps
    | with_reducible apply State.endOp_keeps
    | with_reducible apply State.acceptOp_keeps
    | refine State.acceptOp_keeps_eq ?_ (by with_reducible assumption)
    | with_reducible apply Keeps.ite

theorem execVaultExport_keeps {s : State} (h : Keeps dk qu s) (fn : Fin 16) :
    KeepsOut dk qu (execVaultExport fn s) := by
  unfold execVaultExport
  repeat' first
    | with_reducible apply KeepsOut.next
    | with_reducible apply KeepsOut.ite
    | (intro)
    | with_reducible assumption
    | with_reducible apply State.packetRow_keeps
    | with_reducible apply State.exportPacket_keeps

theorem execTallySet_keeps {s : State} (h : Keeps dk qu s) (fn : Fin 16) :
    KeepsOut dk qu (execTallySet fn s) := by
  unfold execTallySet
  repeat' first
    | with_reducible apply KeepsOut.next
    | with_reducible apply KeepsOut.ite
    | (intro)
    | with_reducible assumption
    | with_reducible apply State.packetRow_keeps
    | with_reducible apply State.configure_keeps

theorem execTemplateLoad_keeps {s : State} (h : Keeps dk qu s) (fn : Fin 16) :
    KeepsOut dk qu (execTemplateLoad fn s) := by
  unfold execTemplateLoad
  repeat' first
    | with_reducible apply KeepsOut.next
    | with_reducible apply KeepsOut.ite
    | (intro)
    | with_reducible assumption
    | with_reducible apply State.packetRow_keeps
    | with_reducible apply State.configure_keeps

theorem execVaultStatus_keeps {s : State} (h : Keeps dk qu s) (fn : Fin 16) :
    KeepsOut dk qu (execVaultStatus fn s) := by
  unfold execVaultStatus
  repeat' first
    | with_reducible apply KeepsOut.next
    | with_reducible apply KeepsOut.ite
    | (intro)
    | with_reducible assumption
    | with_reducible apply State.replyOk_keeps
    | with_reducible apply State.packetRow_keeps
    | with_reducible apply State.dvReads_keeps

theorem execTbRead_keeps {s : State} (h : Keeps dk qu s) (fn : Fin 16) :
    KeepsOut dk qu (execTbRead fn s) := by
  unfold execTbRead
  repeat' first
    | with_reducible apply KeepsOut.next
    | with_reducible apply KeepsOut.ite
    | (intro)
    | with_reducible assumption
    | with_reducible apply State.drop_keeps
    | with_reducible apply State.replyOk_keeps
    | with_reducible apply State.packetRow_keeps
    | with_reducible apply State.dvReads_keeps

theorem execTbStep_keeps {s : State} (h : Keeps dk qu s) (fn : Fin 16) :
    KeepsOut dk qu (execTbStep fn s) := by
  unfold execTbStep
  repeat' first
    | with_reducible apply KeepsOut.next
    | with_reducible apply KeepsOut.ite
    | (intro)
    | with_reducible assumption
    | with_reducible apply State.packetRow_keeps
    | with_reducible apply State.configure_keeps

theorem execServoSet_keeps {s : State} (h : Keeps dk qu s) (fn : Fin 16) :
    KeepsOut dk qu (execServoSet fn s) := by
  unfold execServoSet
  repeat' first
    | with_reducible apply KeepsOut.next
    | with_reducible apply KeepsOut.ite
    | (intro)
    | with_reducible assumption
    | with_reducible apply State.packetRow_keeps
    | with_reducible apply State.configure_keeps

theorem execServoOffset_keeps {s : State} (h : Keeps dk qu s) (fn : Fin 16) :
    KeepsOut dk qu (execServoOffset fn s) := by
  unfold execServoOffset
  repeat' first
    | with_reducible apply KeepsOut.next
    | with_reducible apply KeepsOut.ite
    | (intro)
    | with_reducible assumption
    | with_reducible apply State.packetRow_keeps
    | with_reducible apply State.configure_keeps

theorem execTddEdgeSet_keeps {s : State} (h : Keeps dk qu s) (fn : Fin 16) :
    KeepsOut dk qu (execTddEdgeSet fn s) := by
  unfold execTddEdgeSet
  repeat' first
    | with_reducible apply KeepsOut.next
    | with_reducible apply KeepsOut.ite
    | (intro)
    | with_reducible assumption
    | with_reducible apply State.packetRow_keeps
    | with_reducible apply State.configure_keeps

theorem execPtpPortSet_keeps {s : State} (h : Keeps dk qu s) (fn : Fin 16) :
    KeepsOut dk qu (execPtpPortSet fn s) := by
  unfold execPtpPortSet
  repeat' first
    | with_reducible apply KeepsOut.next
    | with_reducible apply KeepsOut.ite
    | (intro)
    | with_reducible assumption
    | with_reducible apply State.packetRow_keeps
    | with_reducible apply State.configure_keeps

theorem State.memReadPacket_keeps {s : State} (h : Keeps dk qu s) (p : Packet) :
    Keeps dk qu (State.memReadPacket s p) := by
  unfold State.memReadPacket
  repeat' first
    | (intro)
    | with_reducible assumption
    | with_reducible apply State.drop_keeps
    | with_reducible apply State.pairRead_keeps
    | refine State.pairRead_keeps_eq ?_ (by with_reducible assumption)
    | with_reducible apply State.reply_keeps
    | with_reducible apply Keeps.ite

theorem execMemRead_keeps {s : State} (h : Keeps dk qu s) (fn : Fin 16) :
    KeepsOut dk qu (execMemRead fn s) := by
  unfold execMemRead
  repeat' first
    | with_reducible apply KeepsOut.next
    | with_reducible apply KeepsOut.ite
    | (intro)
    | with_reducible assumption
    | with_reducible apply State.packetRow_keeps
    | with_reducible apply State.memReadPacket_keeps

theorem State.putWords_keeps {s : State} (h : Keeps dk qu s) (l : List (Nat × List (Byte × Bool))) (n : Nat) :
    Keeps dk qu (State.putWords s l n).2.2 := by
  induction l generalizing s n with
  | nil => exact h
  | cons p r ih =>
    obtain ⟨a, b⟩ := p
    unfold State.putWords
    split
    rename_i st s1 e1
    have k1 := State.reqWrite_keeps_eq h e1
    split
    · exact ih k1 _
    · exact k1

theorem State.memWritePacket_keeps {s : State} (h : Keeps dk qu s) (p : Packet) :
    Keeps dk qu (State.memWritePacket s p) := by
  unfold State.memWritePacket
  extract_lets a
  split
  rename_i st n s1 e1
  have k1 : Keeps dk qu s1 := by
    have := State.putWords_keeps h (lines a 4 (clean (wordsToBytes (p.params.drop 2)))) 0
    rwa [e1] at this
  exact Keeps.ite (State.replyWritten_keeps k1 _ _ _) (State.reply_keeps k1 _ _ _ _)

theorem execMemWrite_keeps {s : State} (h : Keeps dk qu s) (fn : Fin 16) :
    KeepsOut dk qu (execMemWrite fn s) := by
  unfold execMemWrite
  repeat' first
    | with_reducible apply KeepsOut.next
    | with_reducible apply KeepsOut.ite
    | (intro)
    | with_reducible assumption
    | with_reducible apply State.packetRow_keeps
    | with_reducible apply State.memWritePacket_keeps

theorem execMemCopy_keeps {s : State} (h : Keeps dk qu s) (fn : Fin 16) :
    KeepsOut dk qu (execMemCopy fn s) := by
  unfold execMemCopy
  repeat' first
    | with_reducible apply KeepsOut.next
    | with_reducible apply KeepsOut.ite
    | (intro)
    | with_reducible assumption
    | with_reducible apply State.packetRow_keeps
    | with_reducible apply State.acceptOp_keeps

theorem execSpallRead_keeps {s : State} (h : Keeps dk qu s) (fn : Fin 16) :
    KeepsOut dk qu (execSpallRead fn s) := by
  unfold execSpallRead
  repeat' first
    | with_reducible apply KeepsOut.next
    | with_reducible apply KeepsOut.ite
    | (intro)
    | with_reducible assumption
    | with_reducible apply State.packetRow_keeps
    | with_reducible apply State.dvWrites_keeps
    | with_reducible apply State.replyRegs_keeps

theorem execPageRetire_keeps {s : State} (h : Keeps dk qu s) (fn : Fin 16) :
    KeepsOut dk qu (execPageRetire fn s) := by
  unfold execPageRetire
  repeat' first
    | with_reducible apply KeepsOut.next
    | with_reducible apply KeepsOut.ite
    | (intro)
    | with_reducible assumption
    | with_reducible apply State.packetRow_keeps
    | with_reducible apply State.acceptOp_keeps

theorem State.evacuatePacket_keeps {s : State} (h : Keeps dk qu s) (p : Packet) :
    Keeps dk qu (State.evacuatePacket s p) := by
  unfold State.evacuatePacket
  repeat' first
    | (intro)
    | with_reducible assumption
    | with_reducible apply State.endOp_keeps
    | with_reducible apply State.startEvacuation_keeps
    | with_reducible apply State.acceptOp_keeps
    | refine State.acceptOp_keeps_eq ?_ (by with_reducible assumption)
    | with_reducible apply Keeps.ite
    | (dsimp only)
    | split

theorem execChannelEvacuate_keeps {s : State} (h : Keeps dk qu s) (fn : Fin 16) :
    KeepsOut dk qu (execChannelEvacuate fn s) := by
  unfold execChannelEvacuate
  repeat' first
    | with_reducible apply KeepsOut.next
    | with_reducible apply KeepsOut.ite
    | (intro)
    | with_reducible assumption
    | with_reducible apply State.packetRow_keeps
    | with_reducible apply State.evacuatePacket_keeps

theorem execScrubSet_keeps {s : State} (h : Keeps dk qu s) (fn : Fin 16) :
    KeepsOut dk qu (execScrubSet fn s) := by
  unfold execScrubSet
  repeat' first
    | with_reducible apply KeepsOut.next
    | with_reducible apply KeepsOut.ite
    | (intro)
    | with_reducible assumption
    | with_reducible apply State.packetRow_keeps
    | with_reducible apply State.configure_keeps

theorem State.ringWrites_keeps {s : State} (h : Keeps dk qu s) (p : Packet) :
    Keeps dk qu (State.ringWrites s p) := by
  unfold State.ringWrites
  repeat' first
    | (intro)
    | with_reducible assumption
    | with_reducible apply State.csrWrite_keeps

theorem State.dataRingSet_keeps {s : State} (h : Keeps dk qu s) (p : Packet) :
    Keeps dk qu (State.dataRingSet s p) := by
  unfold State.dataRingSet
  repeat' first
    | (intro)
    | with_reducible assumption
    | with_reducible apply State.ringReset_keeps
    | with_reducible apply State.replyOk_keeps
    | with_reducible apply State.ringWrites_keeps

theorem execDataRingSet_keeps {s : State} (h : Keeps dk qu s) (fn : Fin 16) :
    KeepsOut dk qu (execDataRingSet fn s) := by
  unfold execDataRingSet
  repeat' first
    | with_reducible apply KeepsOut.next
    | with_reducible apply KeepsOut.ite
    | (intro)
    | with_reducible assumption
    | with_reducible apply State.packetRow_keeps
    | with_reducible apply State.dataRingSet_keeps

theorem State.quadPacket_keeps {s : State} (h : Keeps dk qu s) (p : Packet) :
    Keeps dk qu (State.quadPacket s p) := by
  unfold State.quadPacket
  repeat' first
    | (intro)
    | with_reducible assumption
    | with_reducible apply State.endOp_keeps
    | with_reducible apply State.acceptOp_keeps
    | refine State.acceptOp_keeps_eq ?_ (by with_reducible assumption)
    | with_reducible apply State.dvWrite_keeps
    | with_reducible apply Keeps.ite
    | (with_reducible apply Keeps.foldl)

theorem execQuadProtocolSet_keeps {s : State} (h : Keeps dk qu s) (fn : Fin 16) :
    KeepsOut dk qu (execQuadProtocolSet fn s) := by
  unfold execQuadProtocolSet
  repeat' first
    | with_reducible apply KeepsOut.next
    | with_reducible apply KeepsOut.ite
    | (intro)
    | with_reducible assumption
    | with_reducible apply State.packetRow_keeps
    | with_reducible apply State.quadPacket_keeps

theorem execLaneSet_keeps {s : State} (h : Keeps dk qu s) (fn : Fin 16) :
    KeepsOut dk qu (execLaneSet fn s) := by
  unfold execLaneSet
  repeat' first
    | with_reducible apply KeepsOut.next
    | with_reducible apply KeepsOut.ite
    | (intro)
    | with_reducible assumption
    | with_reducible apply State.packetRow_keeps
    | with_reducible apply State.configure_keeps

theorem State.recalPacket_keeps {s : State} (h : Keeps dk qu s) (p : Packet) :
    Keeps dk qu (State.recalPacket s p) := by
  unfold State.recalPacket
  repeat' first
    | (intro)
    | with_reducible assumption
    | with_reducible apply State.endOp_keeps
    | with_reducible apply State.acceptOp_keeps
    | refine State.acceptOp_keeps_eq ?_ (by with_reducible assumption)
    | with_reducible apply State.dvWrite_keeps
    | with_reducible apply Keeps.ite
    | (with_reducible apply Keeps.foldl)

theorem execLaneRecal_keeps {s : State} (h : Keeps dk qu s) (fn : Fin 16) :
    KeepsOut dk qu (execLaneRecal fn s) := by
  unfold execLaneRecal
  repeat' first
    | with_reducible apply KeepsOut.next
    | with_reducible apply KeepsOut.ite
    | (intro)
    | with_reducible assumption
    | with_reducible apply State.packetRow_keeps
    | with_reducible apply State.recalPacket_keeps

theorem execLaneStatus_keeps {s : State} (h : Keeps dk qu s) (fn : Fin 16) :
    KeepsOut dk qu (execLaneStatus fn s) := by
  unfold execLaneStatus
  repeat' first
    | with_reducible apply KeepsOut.next
    | with_reducible apply KeepsOut.ite
    | (intro)
    | with_reducible assumption
    | with_reducible apply State.packetRow_keeps
    | with_reducible apply State.replyRegs_keeps

theorem execAhnentSet_keeps {s : State} (h : Keeps dk qu s) (fn : Fin 16) :
    KeepsOut dk qu (execAhnentSet fn s) := by
  unfold execAhnentSet
  repeat' first
    | with_reducible apply KeepsOut.next
    | with_reducible apply KeepsOut.ite
    | (intro)
    | with_reducible assumption
    | with_reducible apply State.packetRow_keeps
    | with_reducible apply State.configure_keeps

theorem execMacSet_keeps {s : State} (h : Keeps dk qu s) (fn : Fin 16) :
    KeepsOut dk qu (execMacSet fn s) := by
  unfold execMacSet
  repeat' first
    | with_reducible apply KeepsOut.next
    | with_reducible apply KeepsOut.ite
    | (intro)
    | with_reducible assumption
    | with_reducible apply State.packetRow_keeps
    | with_reducible apply State.configure_keeps

theorem execFlowWrite_keeps {s : State} (h : Keeps dk qu s) (fn : Fin 16) :
    KeepsOut dk qu (execFlowWrite fn s) := by
  unfold execFlowWrite
  repeat' first
    | with_reducible apply KeepsOut.next
    | with_reducible apply KeepsOut.ite
    | (intro)
    | with_reducible assumption
    | with_reducible apply State.packetRow_keeps
    | with_reducible apply State.configure_keeps

theorem execProtectSet_keeps {s : State} (h : Keeps dk qu s) (fn : Fin 16) :
    KeepsOut dk qu (execProtectSet fn s) := by
  unfold execProtectSet
  repeat' first
    | with_reducible apply KeepsOut.next
    | with_reducible apply KeepsOut.ite
    | (intro)
    | with_reducible assumption
    | with_reducible apply State.packetRow_keeps
    | with_reducible apply State.configure_keeps

theorem State.stagePacket_keeps {s : State} (h : Keeps dk qu s) (p : Packet) :
    Keeps dk qu (State.stagePacket s p) := by
  unfold State.stagePacket
  repeat' first
    | (intro)
    | with_reducible assumption
    | with_reducible apply State.setImages_keeps
    | with_reducible apply State.acceptOp_keeps

theorem execImageStage_keeps {s : State} (h : Keeps dk qu s) (fn : Fin 16) :
    KeepsOut dk qu (execImageStage fn s) := by
  unfold execImageStage
  repeat' first
    | with_reducible apply KeepsOut.next
    | with_reducible apply KeepsOut.ite
    | (intro)
    | with_reducible assumption
    | with_reducible apply State.packetRow_keeps
    | with_reducible apply State.stagePacket_keeps

theorem execImageVerify_keeps {s : State} (h : Keeps dk qu s) (fn : Fin 16) :
    KeepsOut dk qu (execImageVerify fn s) := by
  unfold execImageVerify
  repeat' first
    | with_reducible apply KeepsOut.next
    | with_reducible apply KeepsOut.ite
    | (intro)
    | with_reducible assumption
    | with_reducible apply State.packetRow_keeps
    | with_reducible apply State.acceptOp_keeps

theorem State.activatePacket_keeps {s : State} (h : Keeps dk qu s) (p : Packet) :
    Keeps dk qu (State.activatePacket s p) := by
  unfold State.activatePacket
  repeat' first
    | (intro)
    | with_reducible assumption
    | with_reducible apply State.setFld_keeps
    | with_reducible apply State.setEng_keeps
    | with_reducible apply State.setE_keeps
    | with_reducible apply State.reply_keeps
    | with_reducible apply State.acceptOp_keeps
    | refine State.acceptOp_keeps_eq ?_ (by with_reducible assumption)
    | with_reducible apply Keeps.ite

theorem execImageActivate_keeps {s : State} (h : Keeps dk qu s) (fn : Fin 16) :
    KeepsOut dk qu (execImageActivate fn s) := by
  unfold execImageActivate
  repeat' first
    | with_reducible apply KeepsOut.next
    | with_reducible apply KeepsOut.ite
    | (intro)
    | with_reducible assumption
    | with_reducible apply State.packetRow_keeps
    | with_reducible apply State.activatePacket_keeps

theorem execImageFlashWrite_keeps {s : State} (h : Keeps dk qu s) (fn : Fin 16) :
    KeepsOut dk qu (execImageFlashWrite fn s) := by
  unfold execImageFlashWrite
  repeat' first
    | with_reducible apply KeepsOut.next
    | with_reducible apply KeepsOut.ite
    | (intro)
    | with_reducible assumption
    | with_reducible apply State.packetRow_keeps
    | with_reducible apply State.acceptOp_keeps

theorem execImageStatus_keeps {s : State} (h : Keeps dk qu s) (fn : Fin 16) :
    KeepsOut dk qu (execImageStatus fn s) := by
  unfold execImageStatus
  repeat' first
    | with_reducible apply KeepsOut.next
    | with_reducible apply KeepsOut.ite
    | (intro)
    | with_reducible assumption
    | with_reducible apply State.takeFree_keeps
    | refine State.takeFree_keeps_eq ?_ (by with_reducible assumption)
    | with_reducible apply State.replyOk_keeps
    | with_reducible apply State.packetRow_keeps

theorem execCounterSelect_keeps {s : State} (h : Keeps dk qu s) (fn : Fin 16) :
    KeepsOut dk qu (execCounterSelect fn s) := by
  unfold execCounterSelect
  repeat' first
    | with_reducible apply KeepsOut.next
    | with_reducible apply KeepsOut.ite
    | (intro)
    | with_reducible assumption
    | with_reducible apply State.packetRow_keeps
    | with_reducible apply State.configure_keeps

theorem State.counterPacket_keeps {s : State} (h : Keeps dk qu s) (p : Packet) :
    Keeps dk qu (State.counterPacket s p) := by
  unfold State.counterPacket
  repeat' first
    | (intro)
    | with_reducible assumption
    | with_reducible apply State.replyOk_keeps

theorem execCounterRead_keeps {s : State} (h : Keeps dk qu s) (fn : Fin 16) :
    KeepsOut dk qu (execCounterRead fn s) := by
  unfold execCounterRead
  repeat' first
    | with_reducible apply KeepsOut.next
    | with_reducible apply KeepsOut.ite
    | (intro)
    | with_reducible assumption
    | with_reducible apply State.packetRow_keeps
    | with_reducible apply State.counterPacket_keeps

theorem State.collectPacket_keeps {s : State} (h : Keeps dk qu s) (p : Packet) :
    Keeps dk qu (State.collectPacket s p) := by
  unfold State.collectPacket
  repeat' first
    | (intro)
    | with_reducible assumption
    | with_reducible apply State.setFld_keeps
    | with_reducible apply State.acceptOp_keeps
    | refine State.acceptOp_keeps_eq ?_ (by with_reducible assumption)
    | with_reducible apply Keeps.ite
    | (dsimp only)
    | split
    | (refine Keeps.any ?_ ?_; rotate_left; rfl)

theorem execCollectStart_keeps {s : State} (h : Keeps dk qu s) (fn : Fin 16) :
    KeepsOut dk qu (execCollectStart fn s) := by
  unfold execCollectStart
  repeat' first
    | with_reducible apply KeepsOut.next
    | with_reducible apply KeepsOut.ite
    | (intro)
    | with_reducible assumption
    | with_reducible apply State.packetRow_keeps
    | with_reducible apply State.collectPacket_keeps

theorem execTraceSet_keeps {s : State} (h : Keeps dk qu s) (fn : Fin 16) :
    KeepsOut dk qu (execTraceSet fn s) := by
  unfold execTraceSet
  repeat' first
    | with_reducible apply KeepsOut.next
    | with_reducible apply KeepsOut.ite
    | (intro)
    | with_reducible assumption
    | with_reducible apply State.packetRow_keeps
    | with_reducible apply State.configure_keeps

theorem State.journalPacket_keeps {s : State} (h : Keeps dk qu s) (p : Packet) :
    Keeps dk qu (State.journalPacket s p) := by
  unfold State.journalPacket
  repeat' first
    | (intro)
    | with_reducible assumption
    | with_reducible apply State.unitGet_keeps
    | refine State.unitGet_keeps_eq ?_ (by with_reducible assumption)
    | with_reducible apply State.drop_keeps
    | with_reducible apply State.reply_keeps
    | with_reducible apply Keeps.ite
    | (with_reducible apply Keeps.foldl)
    | (with_reducible apply Keeps.foldl_snd)

theorem execJournalRead_keeps {s : State} (h : Keeps dk qu s) (fn : Fin 16) :
    KeepsOut dk qu (execJournalRead fn s) := by
  unfold execJournalRead
  repeat' first
    | with_reducible apply KeepsOut.next
    | with_reducible apply KeepsOut.ite
    | (intro)
    | with_reducible assumption
    | with_reducible apply State.packetRow_keeps
    | with_reducible apply State.journalPacket_keeps

/-! ## LongOps -/

theorem State.blockRun_keeps {s : State} (h : Keeps dk qu s) (n : Nat) (o : LrOp) :
    Keeps dk qu (State.blockRun n o s).2.2 := by
  induction n generalizing s o with
  | zero => exact h
  | succ n ih =>
    unfold State.blockRun
    split
    rename_i st l s1 e1
    have k1 := State.pairRead_keeps_eq h e1
    split
    · exact k1
    split
    · exact k1
    · exact ih (State.csrWrite_keeps k1 _ _ _ _ _) _

theorem execRegBlockDone_keeps {s : State} (h : Keeps dk qu s) (op : BitVec 16) :
    KeepsOut dk qu (execRegBlockDone op s) := by
  unfold execRegBlockDone
  repeat' first
    | with_reducible apply KeepsOut.next
    | with_reducible apply KeepsOut.ite
    | (intro)
    | with_reducible assumption
    | with_reducible apply State.endOp_keeps
    | with_reducible apply State.blockRun_keeps
    | with_reducible apply Keeps.ite
    | (dsimp only)
    | split

theorem State.copyRun_keeps {s : State} (h : Keeps dk qu s) (n : Nat) (o : LrOp) :
    Keeps dk qu (State.copyRun n o s).2.2 := by
  induction n generalizing s o with
  | zero => exact h
  | succ n ih =>
    unfold State.copyRun
    extract_lets k src dst
    split
    · exact h
    split
    rename_i st l s1 e1
    have k1 := State.pairRead_keeps_eq h e1
    split
    · exact k1
    split
    rename_i st2 s2 e2
    have k2 := State.reqWrite_keeps_eq k1 e2
    split
    · exact k2
    · exact ih k2 _

theorem execMemCopyDone_keeps {s : State} (h : Keeps dk qu s) (op : BitVec 16) :
    KeepsOut dk qu (execMemCopyDone op s) := by
  unfold execMemCopyDone
  repeat' first
    | with_reducible apply KeepsOut.next
    | with_reducible apply KeepsOut.ite
    | (intro)
    | with_reducible assumption
    | with_reducible apply State.endOp_keeps
    | with_reducible apply State.copyRun_keeps
    | with_reducible apply Keeps.ite
    | (dsimp only)
    | split

theorem execFenceUnitDone_keeps {s : State} (h : Keeps dk qu s) (op : BitVec 16) :
    KeepsOut dk qu (execFenceUnitDone op s) := by
  unfold execFenceUnitDone
  repeat' first
    | with_reducible apply KeepsOut.next
    | with_reducible apply KeepsOut.ite
    | (intro)
    | with_reducible assumption
    | with_reducible apply State.endOp_keeps
    | with_reducible apply Keeps.ite
    | (dsimp only)
    | split

theorem execUnfenceUnitDone_keeps {s : State} (h : Keeps dk qu s) (op : BitVec 16) :
    KeepsOut dk qu (execUnfenceUnitDone op s) := by
  unfold execUnfenceUnitDone
  repeat' first
    | with_reducible apply KeepsOut.next
    | with_reducible apply KeepsOut.ite
    | (intro)
    | with_reducible assumption
    | with_reducible apply State.endOp_keeps
    | with_reducible apply State.setFence_keeps
    | with_reducible apply State.liftFence_keeps
    | with_reducible apply Keeps.ite
    | (with_reducible apply Keeps.foldl)
    | (with_reducible apply Keeps.foldl_snd)
    | (with_reducible apply Keeps.foldl_snd2)
    | (with_reducible apply Keeps.foldl_fst)
    | (refine Keeps.foldl_snd_eq ?_ ?_ (by with_reducible assumption))
    | (refine Keeps.foldl_snd2_eq ?_ ?_ (by with_reducible assumption))
    | (refine Keeps.foldl_fst_eq ?_ ?_ (by with_reducible assumption))
    | (dsimp only)
    | split

theorem execMeterCalibrateDone_keeps {s : State} (h : Keeps dk qu s) (op : BitVec 16) (ok : Bool) (constants : List (BitVec 16 × BitVec 16)) :
    KeepsOut dk qu (execMeterCalibrateDone op ok constants s) := by
  unfold execMeterCalibrateDone
  repeat' first
    | with_reducible apply KeepsOut.next
    | with_reducible apply KeepsOut.ite
    | (intro)
    | with_reducible assumption
    | with_reducible apply State.setFld_keeps
    | with_reducible apply State.post_keeps
    | with_reducible apply State.endOp_keeps
    | with_reducible apply State.setMeter_keeps
    | with_reducible apply State.meterFault_keeps
    | with_reducible apply Keeps.ite
    | (with_reducible apply Keeps.foldl)
    | (with_reducible apply Keeps.foldl_snd)
    | (with_reducible apply Keeps.foldl_snd2)
    | (with_reducible apply Keeps.foldl_fst)
    | (refine Keeps.foldl_snd_eq ?_ ?_ (by with_reducible assumption))
    | (refine Keeps.foldl_snd2_eq ?_ ?_ (by with_reducible assumption))
    | (refine Keeps.foldl_fst_eq ?_ ?_ (by with_reducible assumption))
    | (dsimp only)
    | split

theorem State.exportLeaf_keeps {s : State} (h : Keeps dk qu s) (o : LrOp) (x : Nat × Nat × RingLeaf) :
    Keeps dk qu (State.exportLeaf s o x).2.2 := by
  unfold State.exportLeaf
  repeat' first
    | (intro)
    | with_reducible assumption
    | with_reducible apply State.hostWrite_keeps
    | with_reducible apply State.busPut_keeps
    | refine State.busPut_keeps_eq ?_ (by with_reducible assumption)
    | with_reducible apply State.unitGet_keeps
    | refine State.unitGet_keeps_eq ?_ (by with_reducible assumption)
    | with_reducible apply Keeps.ite
    | (dsimp only)
    | split

theorem State.exportLeaf_keeps_eq {s : State} (h : Keeps dk qu s) {o : LrOp} {x : Nat × Nat × RingLeaf} {x0 : Bool} {x1 : LrOp} {sv : State}
    (eqn : State.exportLeaf s o x = (x0, x1, sv)) : Keeps dk qu sv := by
  have := State.exportLeaf_keeps h o x
  rwa [eqn] at this

theorem State.exportRun_keeps {s : State} (h : Keeps dk qu s) (o : LrOp) (n : Nat) :
    Keeps dk qu (State.exportRun s o n).2.2 := by
  unfold State.exportRun
  repeat' first
    | (intro)
    | with_reducible assumption
    | with_reducible apply State.exportLeaf_keeps
    | refine State.exportLeaf_keeps_eq ?_ (by with_reducible assumption)
    | with_reducible apply Keeps.ite
    | (with_reducible apply Keeps.foldl)
    | (with_reducible apply Keeps.foldl_snd)
    | (with_reducible apply Keeps.foldl_snd2)
    | (with_reducible apply Keeps.foldl_fst)
    | (refine Keeps.foldl_snd_eq ?_ ?_ (by with_reducible assumption))
    | (refine Keeps.foldl_snd2_eq ?_ ?_ (by with_reducible assumption))
    | (refine Keeps.foldl_fst_eq ?_ ?_ (by with_reducible assumption))
    | (dsimp only)
    | split

theorem State.exportRun_keeps_eq {s : State} (h : Keeps dk qu s) {o : LrOp} {n : Nat} {x0 : Bool} {x1 : LrOp} {sv : State}
    (eqn : State.exportRun s o n = (x0, x1, sv)) : Keeps dk qu sv := by
  have := State.exportRun_keeps h o n
  rwa [eqn] at this

theorem State.endExport_keeps {s : State} (h : Keeps dk qu s) (o : LrOp) (st : Status) (detail : Nat) :
    Keeps dk qu (State.endExport s o st detail) := by
  unfold State.endExport
  repeat' first
    | (intro)
    | with_reducible assumption
    | with_reducible apply State.setFld_keeps
    | with_reducible apply State.post_keeps
    | with_reducible apply State.endOp_keeps
    | with_reducible apply State.freeRgn_keeps
    | with_reducible apply Keeps.ite

theorem execExportDone_keeps {s : State} (h : Keeps dk qu s) (op : BitVec 16) :
    KeepsOut dk qu (execExportDone op s) := by
  unfold execExportDone
  repeat' first
    | with_reducible apply KeepsOut.next
    | with_reducible apply KeepsOut.ite
    | (intro)
    | with_reducible assumption
    | with_reducible apply State.exportRun_keeps
    | refine State.exportRun_keeps_eq ?_ (by with_reducible assumption)
    | with_reducible apply State.endExport_keeps
    | with_reducible apply Keeps.ite
    | (dsimp only)
    | split

theorem execPageRetireDone_keeps {s : State} (h : Keeps dk qu s) (op : BitVec 16) :
    KeepsOut dk qu (execPageRetireDone op s) := by
  unfold execPageRetireDone
  split
  · exact h
  · rename_i o e
    extract_lets page
    split
    rename_i st n s1 e1
    have k1 : Keeps dk qu s1 := by
      refine Keeps.foldl_snd2_eq h (fun b x hb => ?_) e1
      cases e2 : b.2.2.retirePage x page with
      | none => exact hb
      | some p =>
        obtain ⟨k, s2⟩ := p
        exact State.spallRetired_keeps (State.retirePage_keeps_eq hb e2) _ _
    exact KeepsOut.next (State.endOp_keeps k1 _ _ _ _)

theorem execEvacuatePageMove_keeps {s : State} (h : Keeps dk qu s) (op : BitVec 16) :
    KeepsOut dk qu (execEvacuatePageMove op s) := by
  unfold execEvacuatePageMove
  repeat' first
    | with_reducible apply KeepsOut.next
    | with_reducible apply KeepsOut.ite
    | (intro)
    | with_reducible assumption
    | with_reducible apply State.setOp_keeps
    | with_reducible apply State.movePage_keeps
    | with_reducible apply Keeps.ite
    | (dsimp only)
    | split

theorem State.evacuatedCh_keeps {s : State} (h : Keeps dk qu s) (c : Nat) :
    Keeps dk qu (State.evacuatedCh s c) := by
  unfold State.evacuatedCh
  repeat' first
    | (intro)
    | with_reducible assumption
    | with_reducible apply State.setFld_keeps
    | with_reducible apply State.setImages_keeps
    | with_reducible apply Keeps.ite
    | (dsimp only)
    | split
    | (refine Keeps.any ?_ ?_; rotate_left; rfl)

theorem execEvacuated_keeps {s : State} (h : Keeps dk qu s) (op : BitVec 16) :
    KeepsOut dk qu (execEvacuated op s) := by
  unfold execEvacuated
  repeat' first
    | with_reducible apply KeepsOut.next
    | with_reducible apply KeepsOut.ite
    | (intro)
    | with_reducible assumption
    | with_reducible apply State.setOp_keeps
    | with_reducible apply State.endOp_keeps
    | with_reducible apply State.startEvacuation_keeps
    | with_reducible apply State.evacuatedCh_keeps
    | with_reducible apply Keeps.ite
    | (dsimp only)
    | split

theorem execImageStageDone_keeps {s : State} (h : Keeps dk qu s) (op : BitVec 16) :
    KeepsOut dk qu (execImageStageDone op s) := by
  unfold execImageStageDone
  repeat' first
    | with_reducible apply KeepsOut.next
    | with_reducible apply KeepsOut.ite
    | (intro)
    | with_reducible assumption
    | with_reducible apply State.takeFree_keeps
    | refine State.takeFree_keeps_eq ?_ (by with_reducible assumption)
    | with_reducible apply State.endOp_keeps
    | with_reducible apply State.hostRead_keeps
    | refine State.hostRead_keeps_eq ?_ (by with_reducible assumption)
    | with_reducible apply State.busPut_keeps
    | refine State.busPut_keeps_eq ?_ (by with_reducible assumption)
    | with_reducible apply State.setImages_keeps
    | with_reducible apply Keeps.ite
    | (dsimp only)
    | split

theorem execImageVerifyDone_keeps {s : State} (h : Keeps dk qu s) (op : BitVec 16) :
    KeepsOut dk qu (execImageVerifyDone op s) := by
  unfold execImageVerifyDone
  repeat' first
    | with_reducible apply KeepsOut.next
    | with_reducible apply KeepsOut.ite
    | (intro)
    | with_reducible assumption
    | with_reducible apply State.takeFree_keeps
    | refine State.takeFree_keeps_eq ?_ (by with_reducible assumption)
    | with_reducible apply State.endOp_keeps
    | with_reducible apply State.bytesAt_keeps
    | refine State.bytesAt_keeps_eq ?_ (by with_reducible assumption)
    | with_reducible apply State.setImages_keeps
    | with_reducible apply Keeps.ite
    | (dsimp only)
    | split

theorem State.reloadPair_keeps {s : State} (h : Keeps dk qu s) (p : Nat) :
    Keeps dk qu (State.reloadPair s p) := by
  unfold State.reloadPair
  repeat' first
    | (intro)
    | with_reducible assumption
    | with_reducible apply State.setFld_keeps

theorem execDvorysSwitch_keeps {s : State} (h : Keeps dk qu s) (op : BitVec 16) (pass : Bool) (micros : Word) :
    KeepsOut dk qu (execDvorysSwitch op pass micros s) := by
  unfold execDvorysSwitch
  repeat' first
    | with_reducible apply KeepsOut.next
    | with_reducible apply KeepsOut.ite
    | (intro)
    | with_reducible assumption
    | with_reducible apply State.setFld_keeps
    | with_reducible apply State.satFld_keeps
    | with_reducible apply State.endOp_keeps
    | with_reducible apply State.reloadPair_keeps
    | with_reducible apply Keeps.ite
    | (dsimp only)
    | split

theorem execImageFlashWriteDone_keeps {s : State} (h : Keeps dk qu s) (op : BitVec 16) :
    KeepsOut dk qu (execImageFlashWriteDone op s) := by
  unfold execImageFlashWriteDone
  repeat' first
    | with_reducible apply KeepsOut.next
    | with_reducible apply KeepsOut.ite
    | (intro)
    | with_reducible assumption
    | with_reducible apply State.takeFree_keeps
    | refine State.takeFree_keeps_eq ?_ (by with_reducible assumption)
    | with_reducible apply State.endOp_keeps
    | with_reducible apply State.bytesAt_keeps
    | refine State.bytesAt_keeps_eq ?_ (by with_reducible assumption)
    | with_reducible apply State.setImages_keeps
    | with_reducible apply Keeps.ite
    | (dsimp only)
    | split
    | (refine Keeps.any ?_ ?_; rotate_left; rfl)

theorem State.collectList_keeps {s : State} (h : Keeps dk qu s) (c : Collect) :
    Keeps dk qu (State.collectList s c).2 := by
  unfold State.collectList
  repeat' first
    | (intro)
    | with_reducible assumption
    | with_reducible apply State.unitGet_keeps
    | refine State.unitGet_keeps_eq ?_ (by with_reducible assumption)
    | with_reducible apply Keeps.ite
    | (with_reducible apply Keeps.foldl)
    | (with_reducible apply Keeps.foldl_snd)

theorem State.collectList_keeps_eq {s : State} (h : Keeps dk qu s) {c : Collect} {x0 : List (Nat × Nat × Nat)} {sv : State}
    (eqn : State.collectList s c = (x0, sv)) : Keeps dk qu sv := by
  have := State.collectList_keeps h c
  rwa [eqn] at this

theorem State.putRecord_keeps {s : State} (h : Keeps dk qu s) (c : Collect) (a : Nat) (ws : List Word) :
    Keeps dk qu (State.putRecord s c a ws).2 := by
  unfold State.putRecord
  repeat' first
    | (intro)
    | with_reducible assumption
    | with_reducible apply State.addFld_keeps
    | with_reducible apply State.busPut_keeps
    | refine State.busPut_keeps_eq ?_ (by with_reducible assumption)
    | with_reducible apply State.tracePush_keeps
    | with_reducible apply Keeps.ite
    | (dsimp only)
    | split

theorem State.putRecord_keeps_eq {s : State} (h : Keeps dk qu s) {c : Collect} {a : Nat} {ws : List Word} {x0 : Collect} {sv : State}
    (eqn : State.putRecord s c a ws = (x0, sv)) : Keeps dk qu sv := by
  have := State.putRecord_keeps h c a ws
  rwa [eqn] at this

theorem State.sweep_keeps {s : State} (h : Keeps dk qu s) (c : Collect) (n : Nat) :
    Keeps dk qu (State.sweep s c n).2 := by
  unfold State.sweep
  repeat' first
    | (intro)
    | with_reducible assumption
    | with_reducible apply State.collectList_keeps
    | refine State.collectList_keeps_eq ?_ (by with_reducible assumption)
    | with_reducible apply State.putRecord_keeps
    | refine State.putRecord_keeps_eq ?_ (by with_reducible assumption)
    | with_reducible apply Keeps.ite
    | (with_reducible apply Keeps.foldl)
    | (with_reducible apply Keeps.foldl_snd)

theorem State.sweep_keeps_eq {s : State} (h : Keeps dk qu s) {c : Collect} {n : Nat} {x0 : Collect} {sv : State}
    (eqn : State.sweep s c n = (x0, sv)) : Keeps dk qu sv := by
  have := State.sweep_keeps h c n
  rwa [eqn] at this

theorem State.setCollect_keeps {s : State} (h : Keeps dk qu s) (c : Option Collect) :
    Keeps dk qu (State.setCollect s c) := by
  unfold State.setCollect
  repeat' first
    | (intro)
    | with_reducible assumption
    | with_reducible apply Keeps.ite
    | (dsimp only)
    | split
    | (refine Keeps.any ?_ ?_; rotate_left; rfl)

theorem execCollectSweep_keeps {s : State} (h : Keeps dk qu s) (late : Bool) :
    KeepsOut dk qu (execCollectSweep late s) := by
  unfold execCollectSweep
  repeat' first
    | with_reducible apply KeepsOut.next
    | with_reducible apply KeepsOut.ite
    | (intro)
    | with_reducible assumption
    | with_reducible apply State.addFld_keeps
    | with_reducible apply State.post_keeps
    | with_reducible apply State.sweep_keeps
    | refine State.sweep_keeps_eq ?_ (by with_reducible assumption)
    | with_reducible apply State.setCollect_keeps
    | with_reducible apply Keeps.ite
    | (dsimp only)
    | split

theorem State.endCollect_keeps {s : State} (h : Keeps dk qu s) (o : LrOp) (c : Collect) (st : Status) (detail : Nat) :
    Keeps dk qu (State.endCollect s o c st detail) := by
  unfold State.endCollect
  repeat' first
    | (intro)
    | with_reducible assumption
    | with_reducible apply State.setFld_keeps
    | with_reducible apply State.endOp_keeps
    | with_reducible apply State.setCollect_keeps

theorem execCollectDone_keeps {s : State} (h : Keeps dk qu s) (op : BitVec 16) :
    KeepsOut dk qu (execCollectDone op s) := by
  unfold execCollectDone
  repeat' first
    | with_reducible apply KeepsOut.next
    | with_reducible apply KeepsOut.ite
    | (intro)
    | with_reducible assumption
    | with_reducible apply State.sweep_keeps
    | refine State.sweep_keeps_eq ?_ (by with_reducible assumption)
    | with_reducible apply State.endCollect_keeps
    | with_reducible apply Keeps.ite
    | (dsimp only)
    | split

theorem execLrSafePointStop_keeps {s : State} (h : Keeps dk qu s) (op : BitVec 16) (units : Nat) :
    KeepsOut dk qu (execLrSafePointStop op units s) := by
  unfold execLrSafePointStop
  repeat' first
    | with_reducible apply KeepsOut.next
    | with_reducible apply KeepsOut.ite
    | (intro)
    | with_reducible assumption
    | with_reducible apply State.takeFree_keeps
    | refine State.takeFree_keeps_eq ?_ (by with_reducible assumption)
    | with_reducible apply State.endOp_keeps
    | with_reducible apply State.movePage_keeps
    | with_reducible apply State.setImages_keeps
    | with_reducible apply State.modeSet_keeps
    | with_reducible apply State.blockRun_keeps
    | with_reducible apply State.copyRun_keeps
    | with_reducible apply State.exportRun_keeps
    | refine State.exportRun_keeps_eq ?_ (by with_reducible assumption)
    | with_reducible apply State.endExport_keeps
    | with_reducible apply State.collectList_keeps
    | refine State.collectList_keeps_eq ?_ (by with_reducible assumption)
    | with_reducible apply State.sweep_keeps
    | refine State.sweep_keeps_eq ?_ (by with_reducible assumption)
    | with_reducible apply State.endCollect_keeps
    | with_reducible apply Keeps.ite
    | (with_reducible apply Keeps.foldl)
    | (with_reducible apply Keeps.foldl_snd)
    | (with_reducible apply Keeps.foldl_snd2)
    | (with_reducible apply Keeps.foldl_fst)
    | (refine Keeps.foldl_snd_eq ?_ ?_ (by with_reducible assumption))
    | (refine Keeps.foldl_snd2_eq ?_ ?_ (by with_reducible assumption))
    | (refine Keeps.foldl_fst_eq ?_ ?_ (by with_reducible assumption))
    | (dsimp only)
    | split

theorem State.partMember_keeps {s : State} (h : Keeps dk qu s) (p : Packet) (n i : Nat) :
    Keeps dk qu (State.partMember s p n i).2 := by
  unfold State.partMember
  repeat' first
    | (intro)
    | with_reducible assumption
    | with_reducible apply State.dvWrite_keeps
    | with_reducible apply Keeps.ite
    | (with_reducible apply Keeps.foldl)

theorem State.partMember_keeps_eq {s : State} (h : Keeps dk qu s) {p : Packet} {n i : Nat} {x0 : Nat} {sv : State}
    (eqn : State.partMember s p n i = (x0, sv)) : Keeps dk qu sv := by
  have := State.partMember_keeps h p n i
  rwa [eqn] at this

theorem State.partWrites_keeps {s : State} (h : Keeps dk qu s) (p : Packet) (n m : Nat) :
    Keeps dk qu (State.partWrites s p n m).2.2 := by
  unfold State.partWrites
  repeat' first
    | (intro)
    | with_reducible assumption
    | with_reducible apply State.drop_keeps
    | with_reducible apply State.ringReset_keeps
    | with_reducible apply State.csrWrite_keeps
    | with_reducible apply State.setDiag_keeps
    | with_reducible apply State.putWords_keeps
    | with_reducible apply State.ringWrites_keeps
    | with_reducible apply State.partMember_keeps
    | refine State.partMember_keeps_eq ?_ (by with_reducible assumption)
    | with_reducible apply Keeps.ite
    | (with_reducible apply Keeps.foldl)
    | (with_reducible apply Keeps.foldl_snd)
    | (with_reducible apply Keeps.foldl_snd2)
    | (with_reducible apply Keeps.foldl_fst)
    | (refine Keeps.foldl_snd_eq ?_ ?_ (by with_reducible assumption))
    | (refine Keeps.foldl_snd2_eq ?_ ?_ (by with_reducible assumption))
    | (refine Keeps.foldl_fst_eq ?_ ?_ (by with_reducible assumption))
    | (dsimp only)
    | split

theorem State.partWrites_keeps_eq {s : State} (h : Keeps dk qu s) {p : Packet} {n m : Nat} {x0 : Nat} {x1 : List Word} {sv : State}
    (eqn : State.partWrites s p n m = (x0, x1, sv)) : Keeps dk qu sv := by
  have := State.partWrites_keeps h p n m
  rwa [eqn] at this

theorem State.cutPacket_keeps {s : State} (h : Keeps dk qu s) (n m : Nat) :
    Keeps dk qu (State.cutPacket s n m) := by
  unfold State.cutPacket
  repeat' first
    | (intro)
    | with_reducible assumption
    | with_reducible apply State.packetAt_keeps
    | refine State.packetAt_keeps_eq ?_ (by with_reducible assumption)
    | with_reducible apply State.takeSlots_keeps
    | with_reducible apply State.reply_keeps
    | with_reducible apply State.partWrites_keeps
    | refine State.partWrites_keeps_eq ?_ (by with_reducible assumption)
    | with_reducible apply Keeps.ite
    | (dsimp only)
    | split

theorem execPairMismatch_keeps {s : State} (h : Keeps dk qu s) (executing : Bool) (words : Nat) (member : BitVec 10) :
    KeepsOut dk qu (execPairMismatch executing words member s) := by
  unfold execPairMismatch
  repeat' first
    | with_reducible apply KeepsOut.next
    | with_reducible apply KeepsOut.ite
    | (intro)
    | with_reducible assumption
    | with_reducible apply State.setFld_keeps
    | with_reducible apply State.satFld_keeps
    | with_reducible apply State.reportFault_keeps
    | with_reducible apply State.endRecovery_keeps
    | with_reducible apply State.addFence_keeps
    | with_reducible apply State.askMending_keeps
    | with_reducible apply State.cutPacket_keeps
    | with_reducible apply Keeps.ite

theorem execPairReloadDone_keeps {s : State} (h : Keeps dk qu s) (pass : Bool) :
    KeepsOut dk qu (execPairReloadDone pass s) := by
  unfold execPairReloadDone
  repeat' first
    | with_reducible apply KeepsOut.next
    | with_reducible apply KeepsOut.ite
    | (intro)
    | with_reducible assumption
    | with_reducible apply State.setFld_keeps
    | with_reducible apply State.endRecovery_keeps
    | with_reducible apply State.liftFence_keeps
    | with_reducible apply State.reloadPair_keeps
    | with_reducible apply Keeps.ite
    | (dsimp only)
    | split

end Sys2Proof.Machine
end

