-- ==== Sys2Proof/Laws/KeepsSystem.lean ====
section
/-! SUPPORT. What commands of the host interface, the modes, faults, power and observation keep (`Keeps`, `KeepsOut`): one lemma a definition. -/
namespace Sys2Proof.Machine

variable {dk : BitVec 64} {qu : List Instr}

/-! ## Host -/

theorem State.sqTailWrite_keeps {s : State} (h : Keeps dk qu s) (fn : Nat) (v : BitVec 12) :
    Keeps dk qu (State.sqTailWrite s fn v) := by
  unfold State.sqTailWrite
  repeat' first
    | (intro)
    | with_reducible assumption
    | with_reducible apply State.setPage_keeps
    | with_reducible apply Keeps.ite

theorem State.cqHeadWrite_keeps {s : State} (h : Keeps dk qu s) (fn : Nat) (v : BitVec 12) :
    Keeps dk qu (State.cqHeadWrite s fn v) := by
  unfold State.cqHeadWrite
  repeat' first
    | (intro)
    | with_reducible assumption
    | with_reducible apply State.setPage_keeps
    | with_reducible apply Keeps.ite

theorem State.stopRingOps_keeps {s : State} (h : Keeps dk qu s) (fn : Nat) (mute : Bool) :
    Keeps dk qu (State.stopRingOps s fn mute) := by
  unfold State.stopRingOps
  repeat' first
    | (intro)
    | with_reducible assumption
    | with_reducible apply Keeps.ite
    | (dsimp only)
    | split
    | (refine Keeps.any ?_ ?_; rotate_left; rfl)

theorem State.ringCtlWrite_keeps {s : State} (h : Keeps dk qu s) (fn : Nat) (v : Word) :
    Keeps dk qu (State.ringCtlWrite s fn v) := by
  unfold State.ringCtlWrite
  repeat' first
    | (intro)
    | with_reducible assumption
    | with_reducible apply State.setPage_keeps
    | with_reducible apply State.stopRingOps_keeps
    | with_reducible apply Keeps.ite

theorem execSqTailDoorbell_keeps {s : State} (h : Keeps dk qu s) (fn : Fin 16) (index : BitVec 12) :
    KeepsOut dk qu (execSqTailDoorbell fn index s) := by
  unfold execSqTailDoorbell
  repeat' first
    | with_reducible apply KeepsOut.next
    | with_reducible apply KeepsOut.ite
    | (intro)
    | with_reducible assumption
    | with_reducible apply State.sqTailWrite_keeps

theorem execCqHeadDoorbell_keeps {s : State} (h : Keeps dk qu s) (fn : Fin 16) (index : BitVec 12) :
    KeepsOut dk qu (execCqHeadDoorbell fn index s) := by
  unfold execCqHeadDoorbell
  repeat' first
    | with_reducible apply KeepsOut.next
    | with_reducible apply KeepsOut.ite
    | (intro)
    | with_reducible assumption
    | with_reducible apply State.cqHeadWrite_keeps

theorem execRingDisable_keeps {s : State} (h : Keeps dk qu s) (fn : Fin 16) :
    KeepsOut dk qu (execRingDisable fn s) := by
  unfold execRingDisable
  repeat' first
    | with_reducible apply KeepsOut.next
    | with_reducible apply KeepsOut.ite
    | (intro)
    | with_reducible assumption
    | with_reducible apply State.ringCtlWrite_keeps
    | with_reducible apply Keeps.ite

theorem execQuiesced_keeps {s : State} (h : Keeps dk qu s) (fn : Fin 16) :
    KeepsOut dk qu (execQuiesced fn s) := by
  unfold execQuiesced
  repeat' first
    | with_reducible apply KeepsOut.next
    | with_reducible apply KeepsOut.ite
    | (intro)
    | with_reducible assumption
    | with_reducible apply State.setFld_keeps
    | with_reducible apply State.setPage_keeps

theorem State.setVec_keeps {s : State} (h : Keeps dk qu s) (p : Nat) (v : MsixVec) :
    Keeps dk qu (State.setVec s p v) := by
  unfold State.setVec
  repeat' first
    | (intro)
    | with_reducible assumption
    | with_reducible apply Keeps.ite
    | (dsimp only)
    | split
    | (refine Keeps.any ?_ ?_; rotate_left; rfl)

theorem State.resetFn_keeps {s : State} (h : Keeps dk qu s) (fn : Nat) :
    Keeps dk qu (State.resetFn s fn) := by
  unfold State.resetFn
  repeat' first
    | (intro)
    | with_reducible assumption
    | with_reducible apply State.setFld_keeps
    | with_reducible apply State.setPage_keeps
    | with_reducible apply State.stopRingOps_keeps
    | with_reducible apply State.setVec_keeps
    | with_reducible apply Keeps.ite
    | (with_reducible apply Keeps.foldl)
    | (with_reducible apply Keeps.foldl_snd)
    | (with_reducible apply Keeps.foldl_snd2)
    | (with_reducible apply Keeps.foldl_fst)
    | (refine Keeps.foldl_snd_eq ?_ ?_ (by with_reducible assumption))
    | (refine Keeps.foldl_snd2_eq ?_ ?_ (by with_reducible assumption))
    | (refine Keeps.foldl_fst_eq ?_ ?_ (by with_reducible assumption))
    | (dsimp only)
    | split
    | (refine Keeps.any ?_ ?_; rotate_left; rfl)

theorem execFlr_keeps {s : State} (h : Keeps dk qu s) (fn : Fin 16) :
    KeepsOut dk qu (execFlr fn s) := by
  unfold execFlr
  repeat' first
    | with_reducible apply KeepsOut.next
    | with_reducible apply KeepsOut.ite
    | (intro)
    | with_reducible assumption
    | with_reducible apply State.setFld_keeps
    | with_reducible apply State.post_keeps
    | with_reducible apply State.resetFn_keeps

theorem execIrqCoalTimer_keeps {s : State} (h : Keeps dk qu s) (fn : Fin 16) :
    KeepsOut dk qu (execIrqCoalTimer fn s) := by
  unfold execIrqCoalTimer
  repeat' first
    | with_reducible apply KeepsOut.next
    | with_reducible apply KeepsOut.ite
    | (intro)
    | with_reducible assumption
    | with_reducible apply State.raise_keeps
    | with_reducible apply State.setPage_keeps

theorem State.msixTableWrite_keeps {s : State} (h : Keeps dk qu s) (fn off : Nat) (v : Word) :
    Keeps dk qu (State.msixTableWrite s fn off v) := by
  unfold State.msixTableWrite
  repeat' first
    | (intro)
    | with_reducible assumption
    | with_reducible apply State.setVec_keeps
    | with_reducible apply Keeps.ite

theorem State.bar4Write_keeps {s : State} (h : Keeps dk qu s) (fn off : Nat) (v : Word) :
    Keeps dk qu (State.bar4Write s fn off v) := by
  unfold State.bar4Write
  repeat' first
    | (intro)
    | with_reducible assumption
    | with_reducible apply State.setPage_keeps
    | with_reducible apply State.ringHead_keeps
    | with_reducible apply State.tailBar4_keeps
    | with_reducible apply State.sqTailWrite_keeps
    | with_reducible apply State.cqHeadWrite_keeps
    | with_reducible apply State.ringCtlWrite_keeps
    | with_reducible apply State.msixTableWrite_keeps
    | with_reducible apply Keeps.ite

theorem execBar4RingPageWrite_keeps {s : State} (h : Keeps dk qu s) (fn : Fin 16) (offset : BitVec 16) (value : Word) :
    KeepsOut dk qu (execBar4RingPageWrite fn offset value s) := by
  unfold execBar4RingPageWrite
  repeat' first
    | with_reducible apply KeepsOut.next
    | with_reducible apply KeepsOut.ite
    | (intro)
    | with_reducible assumption
    | with_reducible apply State.bar4Write_keeps

theorem State.bar0Blocked_keeps {s : State} (h : Keeps dk qu s)  :
    Keeps dk qu (State.bar0Blocked s) := by
  unfold State.bar0Blocked
  repeat' first
    | (intro)
    | with_reducible assumption
    | with_reducible apply State.satFld_keeps

theorem State.setReply_keeps {s : State} (h : Keeps dk qu s) (status : Nat) (l : List (Byte × Bool)) :
    Keeps dk qu (State.setReply s status l) := by
  unfold State.setReply
  repeat' first
    | (intro)
    | with_reducible assumption
    | with_reducible apply Keeps.ite
    | (dsimp only)
    | split
    | (refine Keeps.any ?_ ?_; rotate_left; rfl)

theorem execBar0Read_keeps {s : State} (h : Keeps dk qu s) (offset : BitVec 28) (dwords : Nat) :
    KeepsOut dk qu (execBar0Read offset dwords s) := by
  unfold execBar0Read
  repeat' first
    | with_reducible apply KeepsOut.next
    | with_reducible apply KeepsOut.ite
    | (intro)
    | with_reducible assumption
    | with_reducible apply State.giveBack_keeps
    | with_reducible apply State.drop_keeps
    | with_reducible apply State.csrRead_keeps
    | refine State.csrRead_keeps_eq ?_ (by with_reducible assumption)
    | with_reducible apply State.bar0Blocked_keeps
    | with_reducible apply State.setReply_keeps
    | with_reducible apply Keeps.ite
    | (with_reducible apply Keeps.foldl)
    | (with_reducible apply Keeps.foldl_snd)

theorem execBar0Write_keeps {s : State} (h : Keeps dk qu s) (offset : BitVec 28) (dwords : List (Word × BitVec 4)) :
    KeepsOut dk qu (execBar0Write offset dwords s) := by
  unfold execBar0Write
  repeat' first
    | with_reducible apply KeepsOut.next
    | with_reducible apply KeepsOut.ite
    | (intro)
    | with_reducible assumption
    | with_reducible apply State.addFld_keeps
    | with_reducible apply State.csrWrite_keeps
    | with_reducible apply State.bar0Blocked_keeps
    | with_reducible apply Keeps.ite
    | (with_reducible apply Keeps.foldl)

theorem State.bar2Refuse_keeps {s : State} (h : Keeps dk qu s) (k : Nat) :
    Keeps dk qu (State.bar2Refuse s k) := by
  unfold State.bar2Refuse
  repeat' first
    | (intro)
    | with_reducible assumption
    | with_reducible apply State.addFld_keeps
    | with_reducible apply State.aer_keeps
    | with_reducible apply Keeps.ite

theorem execBar2Read_keeps {s : State} (h : Keeps dk qu s) (offset : BitVec 36) (bytes : Nat) :
    KeepsOut dk qu (execBar2Read offset bytes s) := by
  unfold execBar2Read
  repeat' first
    | with_reducible apply KeepsOut.next
    | with_reducible apply KeepsOut.ite
    | (intro)
    | with_reducible assumption
    | with_reducible apply State.addFld_keeps
    | with_reducible apply State.aer_keeps
    | with_reducible apply State.unitGet_keeps
    | refine State.unitGet_keeps_eq ?_ (by with_reducible assumption)
    | with_reducible apply State.setReply_keeps
    | with_reducible apply State.bar2Refuse_keeps
    | with_reducible apply Keeps.ite
    | (with_reducible apply Keeps.foldl)

theorem execBar2Write_keeps {s : State} (h : Keeps dk qu s) (offset : BitVec 36) (data : List Byte) (ep : Bool) :
    KeepsOut dk qu (execBar2Write offset data ep s) := by
  unfold execBar2Write
  repeat' first
    | with_reducible apply KeepsOut.next
    | with_reducible apply KeepsOut.ite
    | (intro)
    | with_reducible assumption
    | with_reducible apply State.addFld_keeps
    | with_reducible apply State.aer_keeps
    | with_reducible apply State.busPut_keeps
    | refine State.busPut_keeps_eq ?_ (by with_reducible assumption)
    | with_reducible apply State.bar2Refuse_keeps
    | with_reducible apply Keeps.ite

theorem execMsixSend_keeps {s : State} (h : Keeps dk qu s) (vector : Fin 2048) :
    KeepsOut dk qu (execMsixSend vector s) := by
  unfold execMsixSend
  repeat' first
    | with_reducible apply KeepsOut.next
    | with_reducible apply KeepsOut.ite
    | (intro)
    | with_reducible assumption
    | with_reducible apply State.setVec_keeps
    | with_reducible apply Keeps.ite
    | (apply Keeps.hostWrite)

theorem State.hostAnswer_keeps {s : State} (h : Keeps dk qu s) (f : Flit) (status : Nat) (words : List (List (Byte × Bool))) :
    Keeps dk qu (State.hostAnswer s f status words) := by
  unfold State.hostAnswer
  repeat' first
    | (intro)
    | with_reducible assumption
    | with_reducible apply State.respond_keeps
    | with_reducible apply Keeps.ite
    | (dsimp only)
    | split
    | (refine Keeps.any ?_ ?_; rotate_left; rfl)

theorem State.hostGone_keeps {s : State} (h : Keeps dk qu s)  :
    Keeps dk qu (State.hostGone s) := by
  unfold State.hostGone
  repeat' first
    | (intro)
    | with_reducible assumption
    | with_reducible apply State.hostAnswer_keeps
    | with_reducible apply Keeps.ite
    | (with_reducible apply Keeps.foldl)

theorem State.setAnswers_keeps {s : State} (h : Keeps dk qu s) (a n : Nat) (x : HostAnswer) :
    Keeps dk qu (State.setAnswers s a n x) := by
  unfold State.setAnswers
  repeat' first
    | (intro)
    | with_reducible assumption
    | with_reducible apply Keeps.ite
    | (with_reducible apply Keeps.foldl)
    | (with_reducible apply Keeps.foldl_snd)
    | (with_reducible apply Keeps.foldl_snd2)
    | (with_reducible apply Keeps.foldl_fst)
    | (refine Keeps.foldl_snd_eq ?_ ?_ (by with_reducible assumption))
    | (refine Keeps.foldl_snd2_eq ?_ ?_ (by with_reducible assumption))
    | (refine Keeps.foldl_fst_eq ?_ ?_ (by with_reducible assumption))
    | (dsimp only)
    | split
    | (refine Keeps.any ?_ ?_; rotate_left; rfl)

theorem execPcieReadCompletion_keeps {s : State} (h : Keeps dk qu s) (fn : Fin 16) (addr : BitVec 64) (data : List Byte) (ep : Bool) :
    KeepsOut dk qu (execPcieReadCompletion fn addr data ep s) := by
  unfold execPcieReadCompletion
  repeat' first
    | with_reducible apply KeepsOut.next
    | with_reducible apply KeepsOut.ite
    | (intro)
    | with_reducible assumption
    | with_reducible apply State.addFld_keeps
    | with_reducible apply State.aer_keeps
    | with_reducible apply State.hostAnswer_keeps
    | with_reducible apply State.setAnswers_keeps
    | with_reducible apply Keeps.ite
    | (apply Keeps.hostWrite)
    | (dsimp only)
    | split

theorem execCplTimeout_keeps {s : State} (h : Keeps dk qu s) (fn : Fin 16) (addr : BitVec 64) (kind : Fin 3) :
    KeepsOut dk qu (execCplTimeout fn addr kind s) := by
  unfold execCplTimeout
  repeat' first
    | with_reducible apply KeepsOut.next
    | with_reducible apply KeepsOut.ite
    | (intro)
    | with_reducible assumption
    | with_reducible apply State.addFld_keeps
    | with_reducible apply State.aer_keeps
    | with_reducible apply State.hostAnswer_keeps
    | with_reducible apply State.setAnswers_keeps
    | with_reducible apply Keeps.ite
    | (dsimp only)
    | split

theorem execAtsInvalidation_keeps {s : State} (h : Keeps dk qu s) (page : BitVec 64) (bytes : Nat) :
    KeepsOut dk qu (execAtsInvalidation page bytes s) := by
  unfold execAtsInvalidation
  repeat' first
    | with_reducible apply KeepsOut.next
    | with_reducible apply KeepsOut.ite
    | (intro)
    | with_reducible assumption
    | with_reducible apply Keeps.ite
    | (dsimp only)
    | split
    | (refine Keeps.any ?_ ?_; rotate_left; rfl)

theorem execPcieConfigWrite_keeps {s : State} (h : Keeps dk qu s) (fn : Fin 16) (bme msixEn : Bool) (timeout : BitVec 4) (ats : Bool) :
    KeepsOut dk qu (execPcieConfigWrite fn bme msixEn timeout ats s) := by
  unfold execPcieConfigWrite
  repeat' first
    | with_reducible apply KeepsOut.next
    | with_reducible apply KeepsOut.ite
    | (intro)
    | with_reducible assumption
    | with_reducible apply State.setFld_keeps
    | with_reducible apply Keeps.ite
    | (dsimp only)
    | split
    | (refine Keeps.any ?_ ?_; rotate_left; rfl)

theorem execPcieLinkUp_keeps {s : State} (h : Keeps dk qu s) (speed : BitVec 3) (width : BitVec 5) :
    KeepsOut dk qu (execPcieLinkUp speed width s) := by
  unfold execPcieLinkUp
  repeat' first
    | with_reducible apply KeepsOut.next
    | with_reducible apply KeepsOut.ite
    | (intro)
    | with_reducible assumption
    | with_reducible apply State.setFld_keeps
    | with_reducible apply State.post_keeps
    | with_reducible apply Keeps.ite
    | (dsimp only)
    | split
    | (refine Keeps.any ?_ ?_; rotate_left; rfl)

theorem execPcieLinkDown_keeps {s : State} (h : Keeps dk qu s)  :
    KeepsOut dk qu (execPcieLinkDown s) := by
  unfold execPcieLinkDown
  repeat' first
    | with_reducible apply KeepsOut.next
    | with_reducible apply KeepsOut.ite
    | (intro)
    | with_reducible assumption
    | with_reducible apply State.setFld_keeps
    | with_reducible apply State.addFld_keeps
    | with_reducible apply State.post_keeps
    | with_reducible apply State.reportFault_keeps
    | with_reducible apply State.hostGone_keeps
    | with_reducible apply Keeps.ite
    | (dsimp only)
    | split
    | (refine Keeps.any ?_ ?_; rotate_left; rfl)

theorem State.resetClass_keeps {s : State} (h : Keeps dk qu s) (cls : Nat) (insts : List Nat) :
    Keeps dk qu (State.resetClass s cls insts) :=
  ⟨h.mem, List.Pairwise.filter _ h.regs, h.books, h.clock, h.queue⟩

theorem execPerstNLow_keeps {s : State} (h : Keeps dk qu s)  :
    KeepsOut dk qu (execPerstNLow s) := by
  unfold execPerstNLow
  repeat' first
    | with_reducible apply KeepsOut.next
    | with_reducible apply KeepsOut.ite
    | (intro)
    | with_reducible assumption
    | with_reducible apply State.setFld_keeps
    | with_reducible apply State.post_keeps
    | with_reducible apply State.resetFn_keeps
    | with_reducible apply State.hostGone_keeps
    | with_reducible apply State.resetClass_keeps
    | with_reducible apply Keeps.ite
    | (with_reducible apply Keeps.foldl)
    | (with_reducible apply Keeps.foldl_snd)
    | (with_reducible apply Keeps.foldl_snd2)
    | (with_reducible apply Keeps.foldl_fst)
    | (refine Keeps.foldl_snd_eq ?_ ?_ (by with_reducible assumption))
    | (refine Keeps.foldl_snd2_eq ?_ ?_ (by with_reducible assumption))
    | (refine Keeps.foldl_fst_eq ?_ ?_ (by with_reducible assumption))
    | (dsimp only)
    | split
    | (refine Keeps.any ?_ ?_; rotate_left; rfl)

theorem execPerstNHigh_keeps {s : State} (h : Keeps dk qu s)  :
    KeepsOut dk qu (execPerstNHigh s) := by
  unfold execPerstNHigh
  repeat' first
    | with_reducible apply KeepsOut.next
    | with_reducible apply KeepsOut.ite
    | (intro)
    | with_reducible assumption
    | with_reducible apply State.setFld_keeps
    | with_reducible apply State.addFld_keeps
    | with_reducible apply State.post_keeps
    | with_reducible apply Keeps.ite
    | (dsimp only)
    | split
    | (refine Keeps.any ?_ ?_; rotate_left; rfl)

/-! ## Modes -/

theorem Keeps.restart {r : State} (k : Keeps dk qu r) (p : Power) : Keeps 0 qu { r with devclk := 0, power := p } :=
  ⟨k.mem, k.regs, k.books, rfl, k.queue⟩


theorem State.moveDomains_keeps {s : State} (h : Keeps dk qu s) (p : Nat → Bool) (to_ : Nat) :
    Keeps dk qu (State.moveDomains s p to_) := by
  unfold State.moveDomains
  repeat' first
    | (intro)
    | with_reducible assumption
    | with_reducible apply State.setFld_keeps
    | with_reducible apply Keeps.ite
    | (with_reducible apply Keeps.foldl)

theorem execBankedWfiTimeout_keeps {s : State} (h : Keeps dk qu s)  :
    KeepsOut dk qu (execBankedWfiTimeout s) := by
  unfold execBankedWfiTimeout
  repeat' first
    | with_reducible apply KeepsOut.next
    | with_reducible apply KeepsOut.ite
    | (intro)
    | with_reducible assumption
    | with_reducible apply Keeps.ite
    | (dsimp only)
    | split
    | (refine Keeps.any ?_ ?_; rotate_left; rfl)

theorem execBankedEntry_keeps {s : State} (h : Keeps dk qu s)  :
    KeepsOut dk qu (execBankedEntry s) := by
  unfold execBankedEntry
  repeat' first
    | with_reducible apply KeepsOut.next
    | with_reducible apply KeepsOut.ite
    | (intro)
    | with_reducible assumption
    | with_reducible apply State.setFld_keeps
    | with_reducible apply State.quietPins_keeps
    | with_reducible apply State.setVault_keeps
    | with_reducible apply State.setTxState_keeps
    | with_reducible apply State.setRxState_keeps
    | with_reducible apply State.macDown_keeps
    | with_reducible apply State.moveDomains_keeps
    | with_reducible apply Keeps.ite
    | (with_reducible apply Keeps.foldl)

theorem State.wakeUp_keeps {s : State} (h : Keeps dk qu s)  :
    Keeps dk qu (State.wakeUp s) := by
  unfold State.wakeUp
  repeat' first
    | (intro)
    | with_reducible assumption
    | with_reducible apply State.setStrm_keeps
    | with_reducible apply State.laneUpdate_keeps
    | with_reducible apply State.moveDomains_keeps
    | with_reducible apply Keeps.ite
    | (with_reducible apply Keeps.foldl)
    | (with_reducible apply Keeps.foldl_snd)
    | (with_reducible apply Keeps.foldl_snd2)
    | (with_reducible apply Keeps.foldl_fst)
    | (refine Keeps.foldl_snd_eq ?_ ?_ (by with_reducible assumption))
    | (refine Keeps.foldl_snd2_eq ?_ ?_ (by with_reducible assumption))
    | (refine Keeps.foldl_fst_eq ?_ ?_ (by with_reducible assumption))
    | (dsimp only)
    | split
    | (refine Keeps.any ?_ ?_; rotate_left; rfl)

theorem State.writeAon_keeps {s : State} (h : Keeps dk qu s)  :
    Keeps dk qu (State.writeAon s) := by
  unfold State.writeAon
  repeat' first
    | (intro)
    | with_reducible assumption
    | with_reducible apply State.countLost_keeps
    | with_reducible apply State.journalWrite_keeps
    | with_reducible apply Keeps.ite
    | (with_reducible apply Keeps.foldl)
    | (with_reducible apply Keeps.foldl_snd)
    | (with_reducible apply Keeps.foldl_snd2)
    | (with_reducible apply Keeps.foldl_fst)
    | (refine Keeps.foldl_snd_eq ?_ ?_ (by with_reducible assumption))
    | (refine Keeps.foldl_snd2_eq ?_ ?_ (by with_reducible assumption))
    | (refine Keeps.foldl_fst_eq ?_ ?_ (by with_reducible assumption))
    | (dsimp only)
    | split
    | (refine Keeps.any ?_ ?_; rotate_left; rfl)

theorem State.enterMode_keeps {s : State} (h : Keeps dk qu s) (t : Mode) :
    Keeps dk qu (State.enterMode s t) := by
  unfold State.enterMode
  repeat' first
    | (intro)
    | with_reducible assumption
    | with_reducible apply State.setFld_keeps
    | with_reducible apply Keeps.ite
    | (dsimp only)
    | split
    | (refine Keeps.any ?_ ?_; rotate_left; rfl)

theorem State.abandonBanked_keeps {s : State} (h : Keeps dk qu s) (cause : Nat) :
    Keeps dk qu (State.abandonBanked s cause) := by
  unfold State.abandonBanked
  repeat' first
    | (intro)
    | with_reducible assumption
    | with_reducible apply State.toMending_keeps
    | with_reducible apply State.refuseBanked_keeps
    | with_reducible apply State.wakeUp_keeps

theorem execModeTransitionDone_keeps {s : State} (h : Keeps dk qu s)  :
    KeepsOut dk qu (execModeTransitionDone s) := by
  unfold execModeTransitionDone
  repeat' first
    | with_reducible apply KeepsOut.next
    | with_reducible apply KeepsOut.ite
    | (intro)
    | with_reducible assumption
    | with_reducible apply State.setFld_keeps
    | with_reducible apply State.endOp_keeps
    | with_reducible apply State.toMending_keeps
    | with_reducible apply State.modeSet_keeps
    | with_reducible apply State.wakeUp_keeps
    | with_reducible apply State.writeAon_keeps
    | with_reducible apply State.enterMode_keeps
    | with_reducible apply State.abandonBanked_keeps
    | with_reducible apply Keeps.ite
    | (dsimp only)
    | split

theorem execPowerOnReset_keeps {s : State} (h : Keeps dk qu s) : KeepsOut 0 qu (execPowerOnReset s) :=
  Keeps.restart (State.setReg_keeps (State.toFooting_keeps h 0) Reg.CLK.cls 0 0x00C 1) _

theorem execResetNLow_keeps {s : State} (h : Keeps dk qu s)  :
    KeepsOut dk qu (execResetNLow s) := by
  unfold execResetNLow
  repeat' first
    | with_reducible apply KeepsOut.next
    | with_reducible apply KeepsOut.ite
    | (intro)
    | with_reducible assumption
    | with_reducible apply State.toFooting_keeps
    | with_reducible apply Keeps.ite
    | (dsimp only)
    | split
    | (refine Keeps.any ?_ ?_; rotate_left; rfl)

theorem execThermalReset_keeps {s : State} (h : Keeps dk qu s)  :
    KeepsOut dk qu (execThermalReset s) := by
  unfold execThermalReset
  repeat' first
    | with_reducible apply KeepsOut.next
    | with_reducible apply KeepsOut.ite
    | (intro)
    | with_reducible assumption
    | with_reducible apply State.toFooting_keeps
    | with_reducible apply Keeps.ite
    | (dsimp only)
    | split
    | (refine Keeps.any ?_ ?_; rotate_left; rfl)

theorem execDroopReset_keeps {s : State} (h : Keeps dk qu s)  :
    KeepsOut dk qu (execDroopReset s) := by
  unfold execDroopReset
  repeat' first
    | with_reducible apply KeepsOut.next
    | with_reducible apply KeepsOut.ite
    | (intro)
    | with_reducible assumption
    | with_reducible apply State.toFooting_keeps

theorem execVddIo18Low_keeps {s : State} (h : Keeps dk qu s)  :
    KeepsOut dk qu (execVddIo18Low s) := by
  unfold execVddIo18Low
  repeat' first
    | with_reducible apply KeepsOut.next
    | with_reducible apply KeepsOut.ite
    | (intro)
    | with_reducible assumption
    | with_reducible apply State.toFooting_keeps
    | with_reducible apply Keeps.ite
    | (dsimp only)
    | split
    | (refine Keeps.any ?_ ?_; rotate_left; rfl)

theorem State.sampleBoot_keeps {s : State} (h : Keeps dk qu s) (pins : BitVec 3) :
    Keeps dk qu (State.sampleBoot s pins) := by
  unfold State.sampleBoot
  repeat' first
    | (intro)
    | with_reducible assumption
    | with_reducible apply Keeps.ite
    | (dsimp only)
    | split
    | (refine Keeps.any ?_ ?_; rotate_left; rfl)

theorem execResetNRise_keeps {s : State} (h : Keeps dk qu s) (pins : BitVec 3) :
    KeepsOut dk qu (execResetNRise pins s) := by
  unfold execResetNRise
  repeat' first
    | with_reducible apply KeepsOut.next
    | with_reducible apply KeepsOut.ite
    | (intro)
    | with_reducible assumption
    | with_reducible apply State.sampleBoot_keeps
    | with_reducible apply Keeps.ite
    | (dsimp only)
    | split
    | (refine Keeps.any ?_ ?_; rotate_left; rfl)

theorem execInternalFootingEnd_keeps {s : State} (h : Keeps dk qu s) (pins : BitVec 3) :
    KeepsOut dk qu (execInternalFootingEnd pins s) := by
  unfold execInternalFootingEnd
  repeat' first
    | with_reducible apply KeepsOut.next
    | with_reducible apply KeepsOut.ite
    | (intro)
    | with_reducible assumption
    | with_reducible apply State.sampleBoot_keeps
    | with_reducible apply Keeps.ite
    | (dsimp only)
    | split
    | (refine Keeps.any ?_ ?_; rotate_left; rfl)

theorem execFuseReadDone_keeps {s : State} (h : Keeps dk qu s) :
    KeepsOut (if s.modes.mode = .footing ∧ s.power.fusing = true ∧ s.power.por = true then 0 else dk) qu
      (execFuseReadDone s) := by
  unfold execFuseReadDone
  generalize List.range 78 = domains
  by_cases c : s.modes.mode = .footing ∧ s.power.fusing = true
  · rw [if_pos c]
    apply KeepsOut.next
    refine Keeps.foldl ?_ (fun s d h => Keeps.ite (State.setFld_keeps h _ _ _) h)
    refine ⟨h.mem, h.regs, h.books, ?_, h.queue⟩
    simp [c.1, c.2, h.clock]
  · rw [if_neg c, if_neg fun x => c ⟨x.1, x.2.1⟩]
    exact h

theorem State.bistFence_keeps {s : State} (h : Keeps dk qu s) (cls inst : Nat) :
    Keeps dk qu (State.bistFence s cls inst) := by
  unfold State.bistFence
  repeat' first
    | (intro)
    | with_reducible assumption
    | with_reducible apply State.addFence_keeps
    | with_reducible apply State.setPort_keeps
    | with_reducible apply State.setNiFence_keeps
    | with_reducible apply Keeps.ite
    | (with_reducible apply Keeps.foldl)
    | (with_reducible apply Keeps.foldl_snd)
    | (with_reducible apply Keeps.foldl_snd2)
    | (with_reducible apply Keeps.foldl_fst)
    | (refine Keeps.foldl_snd_eq ?_ ?_ (by with_reducible assumption))
    | (refine Keeps.foldl_snd2_eq ?_ ?_ (by with_reducible assumption))
    | (refine Keeps.foldl_fst_eq ?_ ?_ (by with_reducible assumption))
    | (dsimp only)
    | split
    | (refine Keeps.any ?_ ?_; rotate_left; rfl)

theorem State.bedded_keeps {s : State} (h : Keeps dk qu s) : Keeps dk qu (State.bedded s) := by
  unfold State.bedded
  dsimp only
  have k : Keeps dk qu { State.reset with
      pending := s.pending
      host := s.host
      devclk := s.devclk
      free := s.free
      modes := ModeCtl.reset
      dvorys := s.dvorys
      ledger := { Ledger.reset with periodFrom := s.ledger.periodFrom }
      pcie := { Pcie.reset with perstN := s.pcie.perstN, training := s.pcie.perstN, answers := s.pcie.answers }
      power := s.power } :=
    ⟨⟨empty_wf _, empty_wf _, h.mem.2.2⟩, List.Pairwise.nil, fun _ => Account.reset_balanced, h.clock, h.queue⟩
  have k2 (a b c : Nat) (x : Word) := State.setFld_keeps (State.setFld_keeps (State.setReg_keeps k Reg.CLK.cls 0 0x00C x)
    Reg.SYS.BOOT_STATUS_BOOT_MODE 0 a) Reg.SYS.BOOT_STATUS_BIST_RAN 0 b
  exact Keeps.ite (k2 _ _ 0 _) (State.setFld_keeps (k2 _ _ 0 _) _ _ _)

theorem State.bistRepair_keeps {s : State} (h : Keeps dk qu s) (a : Nat) (column : Bool) :
    Keeps dk qu (State.bistRepair s a column) := by
  unfold State.bistRepair
  repeat' first
    | (intro)
    | with_reducible assumption
    | with_reducible apply State.takeSpare_keeps
    | with_reducible apply Keeps.ite

theorem execBeddingDone_keeps {s : State} (h : Keeps dk qu s) (found : BistFound) (coreFail : Bool) :
    KeepsOut dk qu (execBeddingDone found coreFail s) := by
  unfold execBeddingDone
  repeat' first
    | with_reducible apply KeepsOut.next
    | with_reducible apply KeepsOut.ite
    | (intro)
    | with_reducible assumption
    | with_reducible apply State.setFld_keeps
    | with_reducible apply State.bistFence_keeps
    | with_reducible apply State.bedded_keeps
    | with_reducible apply State.bistRepair_keeps
    | with_reducible apply Keeps.ite
    | (with_reducible apply Keeps.foldl)

theorem execBootImageCheck_keeps {s : State} (h : Keeps dk qu s) (source : Fin 3) :
    KeepsOut dk qu (execBootImageCheck source s) := by
  unfold execBootImageCheck
  repeat' first
    | with_reducible apply KeepsOut.next
    | with_reducible apply KeepsOut.ite
    | (intro)
    | with_reducible assumption
    | with_reducible apply State.setFld_keeps
    | with_reducible apply State.bootSlotCheck_keeps
    | with_reducible apply Keeps.ite
    | (dsimp only)
    | split

theorem execBulkTrained_keeps {s : State} (h : Keeps dk qu s) (found : List (Bool × Bool × BitVec 3 × Nat)) :
    KeepsOut dk qu (execBulkTrained found s) := by
  unfold execBulkTrained
  repeat' first
    | with_reducible apply KeepsOut.next
    | with_reducible apply KeepsOut.ite
    | (intro)
    | with_reducible assumption
    | with_reducible apply State.setFld_keeps
    | with_reducible apply State.syncReady_keeps
    | with_reducible apply Keeps.ite
    | (with_reducible apply Keeps.foldl)
    | (with_reducible apply Keeps.foldl_snd)
    | (with_reducible apply Keeps.foldl_snd2)
    | (with_reducible apply Keeps.foldl_fst)
    | (refine Keeps.foldl_snd_eq ?_ ?_ (by with_reducible assumption))
    | (refine Keeps.foldl_snd2_eq ?_ ?_ (by with_reducible assumption))
    | (refine Keeps.foldl_fst_eq ?_ ?_ (by with_reducible assumption))
    | (dsimp only)
    | split
    | (refine Keeps.any ?_ ?_; rotate_left; rfl)

theorem execBulkFilled_keeps {s : State} (h : Keeps dk qu s)  :
    KeepsOut dk qu (execBulkFilled s) := by
  unfold execBulkFilled
  repeat' first
    | with_reducible apply KeepsOut.next
    | with_reducible apply KeepsOut.ite
    | (intro)
    | with_reducible assumption
    | with_reducible apply State.setFld_keeps
    | with_reducible apply State.fillZero_keeps
    | with_reducible apply State.syncReady_keeps
    | with_reducible apply Keeps.ite
    | (with_reducible apply Keeps.foldl)

theorem execAvsCal_keeps {s : State} (h : Keeps dk qu s)  :
    KeepsOut dk qu (execAvsCal s) := by
  unfold execAvsCal
  repeat' first
    | with_reducible apply KeepsOut.next
    | with_reducible apply KeepsOut.ite
    | (intro)
    | with_reducible assumption
    | with_reducible apply State.setFld_keeps
    | with_reducible apply State.syncReady_keeps

theorem execMetersCal_keeps {s : State} (h : Keeps dk qu s) (constants : List (BitVec 16 × BitVec 16)) :
    KeepsOut dk qu (execMetersCal constants s) := by
  unfold execMetersCal
  repeat' first
    | with_reducible apply KeepsOut.next
    | with_reducible apply KeepsOut.ite
    | (intro)
    | with_reducible assumption
    | with_reducible apply State.setFld_keeps
    | with_reducible apply State.syncReady_keeps
    | with_reducible apply Keeps.ite
    | (with_reducible apply Keeps.foldl)

/-! ## Faults -/

theorem State.coreFault_keeps {s : State} (h : Keeps dk qu s) (c : Nat) :
    Keeps dk qu (State.coreFault s c) := by
  unfold State.coreFault
  repeat' first
    | (intro)
    | with_reducible assumption
    | with_reducible apply State.reportFault_keeps
    | with_reducible apply State.autoFence_keeps

theorem State.engineFault_keeps {s : State} (h : Keeps dk qu s) (u : Nat) :
    Keeps dk qu (State.engineFault s u) := by
  unfold State.engineFault
  repeat' first
    | (intro)
    | with_reducible assumption
    | with_reducible apply State.reportFault_keeps
    | with_reducible apply State.autoFence_keeps

theorem execCoreFault_keeps {s : State} (h : Keeps dk qu s) (core : Fin 192) :
    KeepsOut dk qu (execCoreFault core s) := by
  unfold execCoreFault
  repeat' first
    | with_reducible apply KeepsOut.next
    | with_reducible apply KeepsOut.ite
    | (intro)
    | with_reducible assumption
    | with_reducible apply State.coreFault_keeps

theorem execEngineFault_keeps {s : State} (h : Keeps dk qu s) (engine : Fin 40) :
    KeepsOut dk qu (execEngineFault engine s) := by
  unfold execEngineFault
  repeat' first
    | with_reducible apply KeepsOut.next
    | with_reducible apply KeepsOut.ite
    | (intro)
    | with_reducible assumption
    | with_reducible apply State.engineFault_keeps

theorem execCourseFenceAllowance_keeps {s : State} (h : Keeps dk qu s) (course : Fin 24) :
    KeepsOut dk qu (execCourseFenceAllowance course s) := by
  unfold execCourseFenceAllowance
  repeat' first
    | with_reducible apply KeepsOut.next
    | with_reducible apply KeepsOut.ite
    | (intro)
    | with_reducible assumption
    | with_reducible apply State.beginDrain_keeps
    | with_reducible apply Keeps.ite
    | (dsimp only)
    | split

theorem State.parityFault_keeps {s : State} (h : Keeps dk qu s) (cls inst : Nat) :
    Keeps dk qu (State.parityFault s cls inst) := by
  unfold State.parityFault
  repeat' first
    | (intro)
    | with_reducible assumption
    | with_reducible apply State.reportFault_keeps
    | with_reducible apply State.endRecovery_keeps

theorem State.slotParity_keeps {s : State} (h : Keeps dk qu s) (u : Nat) :
    Keeps dk qu (State.slotParity s u) := by
  unfold State.slotParity
  repeat' first
    | (intro)
    | with_reducible assumption
    | with_reducible apply State.reclaim_keeps
    | with_reducible apply State.parityFault_keeps
    | with_reducible apply Keeps.ite
    | (dsimp only)
    | split

theorem State.hubParity_keeps {s : State} (h : Keeps dk qu s) (req : Nat) :
    Keeps dk qu (State.hubParity s req) := by
  unfold State.hubParity
  repeat' first
    | (intro)
    | with_reducible assumption
    | with_reducible apply State.giveBack_keeps
    | with_reducible apply State.packetAt_keeps
    | refine State.packetAt_keeps_eq ?_ (by with_reducible assumption)
    | with_reducible apply State.takeSlots_keeps
    | with_reducible apply State.reply_keeps
    | with_reducible apply State.parityFault_keeps
    | with_reducible apply Keeps.ite
    | (dsimp only)
    | split

theorem State.fifoParity_keeps {s : State} (h : Keeps dk qu s) (cls : Nat) :
    Keeps dk qu (State.fifoParity s cls) := by
  unfold State.fifoParity
  repeat' first
    | (intro)
    | with_reducible assumption
    | with_reducible apply State.countLost_keeps
    | with_reducible apply State.parityFault_keeps
    | with_reducible apply Keeps.ite
    | (dsimp only)
    | split
    | (refine Keeps.any ?_ ?_; rotate_left; rfl)

theorem State.lineParity_keeps {s : State} (h : Keeps dk qu s) (c : Nat) (again : Bool) :
    Keeps dk qu (State.lineParity s c again) := by
  unfold State.lineParity
  repeat' first
    | (intro)
    | with_reducible assumption
    | with_reducible apply State.dmaErr_keeps
    | with_reducible apply State.parityFault_keeps
    | with_reducible apply Keeps.ite
    | (dsimp only)
    | split
    | (refine Keeps.any ?_ ?_; rotate_left; rfl)

theorem State.descriptorParity_keeps {s : State} (h : Keeps dk qu s) (i : Nat) :
    Keeps dk qu (State.descriptorParity s i) := by
  unfold State.descriptorParity
  repeat' first
    | (intro)
    | with_reducible assumption
    | with_reducible apply State.putTask_keeps
    | with_reducible apply State.setSlot_keeps
    | with_reducible apply State.complete_keeps
    | with_reducible apply State.parityFault_keeps
    | with_reducible apply Keeps.ite
    | (with_reducible apply Keeps.foldl)
    | (with_reducible apply Keeps.foldl_snd)
    | (with_reducible apply Keeps.foldl_snd2)
    | (with_reducible apply Keeps.foldl_fst)
    | (refine Keeps.foldl_snd_eq ?_ ?_ (by with_reducible assumption))
    | (refine Keeps.foldl_snd2_eq ?_ ?_ (by with_reducible assumption))
    | (refine Keeps.foldl_fst_eq ?_ ?_ (by with_reducible assumption))
    | (dsimp only)
    | split

theorem State.keyParity_keeps {s : State} (h : Keeps dk qu s) (k : Nat) :
    Keeps dk qu (State.keyParity s k) := by
  unfold State.keyParity
  repeat' first
    | (intro)
    | with_reducible assumption
    | with_reducible apply State.setKey_keeps
    | with_reducible apply State.parityFault_keeps

theorem execUnitParity_keeps {s : State} (h : Keeps dk qu s) (entry : Fin 9) (index : Nat) (again : Bool) :
    KeepsOut dk qu (execUnitParity entry index again s) := by
  unfold execUnitParity
  repeat' first
    | with_reducible apply KeepsOut.next
    | with_reducible apply KeepsOut.ite
    | (intro)
    | with_reducible assumption
    | with_reducible apply State.setVault_keeps
    | with_reducible apply State.badHeader_keeps
    | with_reducible apply State.coreFault_keeps
    | with_reducible apply State.engineFault_keeps
    | with_reducible apply State.slotParity_keeps
    | with_reducible apply State.hubParity_keeps
    | with_reducible apply State.fifoParity_keeps
    | with_reducible apply State.lineParity_keeps
    | with_reducible apply State.descriptorParity_keeps
    | with_reducible apply State.keyParity_keeps
    | with_reducible apply Keeps.ite
    | (dsimp only)
    | split

theorem execFaultStateDisagreement_keeps {s : State} (h : Keeps dk qu s)  :
    KeepsOut dk qu (execFaultStateDisagreement s) := by
  unfold execFaultStateDisagreement
  repeat' first
    | with_reducible apply KeepsOut.next
    | with_reducible apply KeepsOut.ite
    | (intro)
    | with_reducible assumption
    | with_reducible apply State.setFld_keeps
    | with_reducible apply State.addFld_keeps
    | with_reducible apply State.setPair_keeps
    | with_reducible apply State.post_keeps
    | with_reducible apply State.setLevel_keeps
    | with_reducible apply Keeps.ite
    | (dsimp only)
    | split
    | (refine Keeps.any ?_ ?_; rotate_left; rfl)

/-! ## Power -/

theorem State.clearCourse_keeps {s : State} (h : Keeps dk qu s) (n : Nat) :
    Keeps dk qu (State.clearCourse s n) := by
  unfold State.clearCourse
  repeat' first
    | (intro)
    | with_reducible assumption
    | with_reducible apply Keeps.ite
    | (dsimp only)
    | split
    | (refine Keeps.any ?_ ?_; rotate_left; rfl)

theorem State.clearCode_keeps {s : State} (h : Keeps dk qu s) (c : Nat) :
    Keeps dk qu (State.clearCode s c) := by
  unfold State.clearCode
  repeat' first
    | (intro)
    | with_reducible assumption
    | with_reducible apply State.endOp_keeps
    | with_reducible apply Keeps.ite
    | (with_reducible apply Keeps.foldl)
    | (with_reducible apply Keeps.foldl_snd)
    | (with_reducible apply Keeps.foldl_snd2)
    | (with_reducible apply Keeps.foldl_fst)
    | (refine Keeps.foldl_snd_eq ?_ ?_ (by with_reducible assumption))
    | (refine Keeps.foldl_snd2_eq ?_ ?_ (by with_reducible assumption))
    | (refine Keeps.foldl_fst_eq ?_ ?_ (by with_reducible assumption))
    | (dsimp only)
    | split
    | (refine Keeps.any ?_ ?_; rotate_left; rfl)

theorem State.clearQuad_keeps {s : State} (h : Keeps dk qu s) (q : Nat) :
    Keeps dk qu (State.clearQuad s q) := by
  unfold State.clearQuad
  repeat' first
    | (intro)
    | with_reducible assumption
    | with_reducible apply Keeps.ite
    | (dsimp only)
    | split
    | (refine Keeps.any ?_ ?_; rotate_left; rfl)

theorem State.clearBulk_keeps {s : State} (h : Keeps dk qu s) (c : Nat) : Keeps dk qu (State.clearBulk s c) := by
  unfold State.clearBulk
  extract_lets keep sel s1 ms s2 s3
  have k1 : Keeps dk qu s1 := ⟨h.mem, List.Pairwise.filter _ h.regs, h.books, h.clock, h.queue⟩
  have k2 : Keeps dk qu s2 := Keeps.any k1 rfl
  have k3 : Keeps dk qu s3 := State.setFld_keeps (State.setFld_keeps k2 _ _ _) _ _ _
  exact State.setFld_keeps (State.setFld_keeps (State.setFld_keeps k3 _ _ _) _ _ _) _ _ _

theorem State.clearDomain_keeps {s : State} (h : Keeps dk qu s) (d : Nat) :
    Keeps dk qu (State.clearDomain s d) := by
  unfold State.clearDomain
  repeat' first
    | (intro)
    | with_reducible assumption
    | with_reducible apply State.resetClass_keeps
    | with_reducible apply State.clearCourse_keeps
    | with_reducible apply State.clearCode_keeps
    | with_reducible apply State.clearQuad_keeps
    | with_reducible apply State.clearBulk_keeps
    | with_reducible apply Keeps.ite
    | (with_reducible apply Keeps.foldl)
    | (with_reducible apply Keeps.foldl_snd)
    | (with_reducible apply Keeps.foldl_snd2)
    | (with_reducible apply Keeps.foldl_fst)
    | (refine Keeps.foldl_snd_eq ?_ ?_ (by with_reducible assumption))
    | (refine Keeps.foldl_snd2_eq ?_ ?_ (by with_reducible assumption))
    | (refine Keeps.foldl_fst_eq ?_ ?_ (by with_reducible assumption))
    | (dsimp only)
    | split
    | (refine Keeps.any ?_ ?_; rotate_left; rfl)

theorem State.queuePower_keeps {s : State} (h : Keeps dk qu s) (d : Nat) :
    Keeps dk qu (State.queuePower s d) := by
  unfold State.queuePower
  repeat' first
    | (intro)
    | with_reducible assumption
    | with_reducible apply Keeps.ite
    | (dsimp only)
    | split
    | (refine Keeps.any ?_ ?_; rotate_left; rfl)

theorem execPoweredOff_keeps {s : State} (h : Keeps dk qu s) (domain : Fin 78) :
    KeepsOut dk qu (execPoweredOff domain s) := by
  unfold execPoweredOff
  repeat' first
    | with_reducible apply KeepsOut.next
    | with_reducible apply KeepsOut.ite
    | (intro)
    | with_reducible assumption
    | with_reducible apply State.setFld_keeps
    | with_reducible apply State.post_keeps
    | with_reducible apply State.setFence_keeps
    | with_reducible apply State.clearDomain_keeps
    | with_reducible apply State.queuePower_keeps
    | with_reducible apply Keeps.ite
    | (with_reducible apply Keeps.foldl)

theorem execPowerUpGrant_keeps {s : State} (h : Keeps dk qu s) (monitorsPass : Bool) :
    KeepsOut dk qu (execPowerUpGrant monitorsPass s) := by
  unfold execPowerUpGrant
  repeat' first
    | with_reducible apply KeepsOut.next
    | with_reducible apply KeepsOut.ite
    | (intro)
    | with_reducible assumption
    | with_reducible apply State.setFld_keeps
    | with_reducible apply State.setFence_keeps
    | with_reducible apply Keeps.ite
    | (with_reducible apply Keeps.foldl)
    | (with_reducible apply Keeps.foldl_snd)
    | (with_reducible apply Keeps.foldl_snd2)
    | (with_reducible apply Keeps.foldl_fst)
    | (refine Keeps.foldl_snd_eq ?_ ?_ (by with_reducible assumption))
    | (refine Keeps.foldl_snd2_eq ?_ ?_ (by with_reducible assumption))
    | (refine Keeps.foldl_fst_eq ?_ ?_ (by with_reducible assumption))
    | (dsimp only)
    | split
    | (refine Keeps.any ?_ ?_; rotate_left; rfl)

theorem State.reloadCode_keeps {s : State} (h : Keeps dk qu s) (c : Nat) :
    Keeps dk qu (State.reloadCode s c) := by
  unfold State.reloadCode
  repeat' first
    | (intro)
    | with_reducible assumption
    | with_reducible apply State.setE_keeps
    | with_reducible apply Keeps.ite
    | (with_reducible apply Keeps.foldl)

theorem State.refill_keeps {s : State} (h : Keeps dk qu s) (d : Nat) :
    Keeps dk qu (State.refill s d) := by
  unfold State.refill
  repeat' first
    | (intro)
    | with_reducible assumption
    | with_reducible apply State.setFld_keeps
    | with_reducible apply State.fillZero_keeps
    | with_reducible apply State.reloadCode_keeps
    | with_reducible apply Keeps.ite
    | (with_reducible apply Keeps.foldl)

theorem State.upFence_keeps {s : State} (h : Keeps dk qu s) (f : Fence) :
    Keeps dk qu (State.upFence s f) := by
  unfold State.upFence
  repeat' first
    | (intro)
    | with_reducible assumption
    | with_reducible apply State.setFence_keeps
    | with_reducible apply State.askUnfence_keeps
    | with_reducible apply Keeps.ite
    | (dsimp only)
    | split

theorem execPoweredUp_keeps {s : State} (h : Keeps dk qu s) (domain : Fin 78) :
    KeepsOut dk qu (execPoweredUp domain s) := by
  unfold execPoweredUp
  repeat' first
    | with_reducible apply KeepsOut.next
    | with_reducible apply KeepsOut.ite
    | (intro)
    | with_reducible assumption
    | with_reducible apply State.setFld_keeps
    | with_reducible apply State.addFld_keeps
    | with_reducible apply State.post_keeps
    | with_reducible apply State.setFence_keeps
    | with_reducible apply State.startSwitch_keeps
    | with_reducible apply State.refill_keeps
    | with_reducible apply State.upFence_keeps
    | with_reducible apply Keeps.ite
    | (with_reducible apply Keeps.foldl)
    | (with_reducible apply Keeps.foldl_snd)
    | (with_reducible apply Keeps.foldl_snd2)
    | (with_reducible apply Keeps.foldl_fst)
    | (refine Keeps.foldl_snd_eq ?_ ?_ (by with_reducible assumption))
    | (refine Keeps.foldl_snd2_eq ?_ ?_ (by with_reducible assumption))
    | (refine Keeps.foldl_fst_eq ?_ ?_ (by with_reducible assumption))
    | (dsimp only)
    | split
    | (refine Keeps.any ?_ ?_; rotate_left; rfl)

theorem execAvsUpdate_keeps {s : State} (h : Keeps dk qu s) (millivolts : Nat) :
    KeepsOut dk qu (execAvsUpdate millivolts s) := by
  unfold execAvsUpdate
  repeat' first
    | with_reducible apply KeepsOut.next
    | with_reducible apply KeepsOut.ite
    | (intro)
    | with_reducible assumption
    | with_reducible apply State.setFld_keeps
    | with_reducible apply Keeps.ite
    | (with_reducible apply Keeps.foldl)

theorem execAvsAlarm_keeps {s : State} (h : Keeps dk qu s) (domain : Fin 78) :
    KeepsOut dk qu (execAvsAlarm domain s) := by
  unfold execAvsAlarm
  repeat' first
    | with_reducible apply KeepsOut.next
    | with_reducible apply KeepsOut.ite
    | (intro)
    | with_reducible assumption
    | with_reducible apply State.setFld_keeps
    | with_reducible apply State.addFld_keeps
    | with_reducible apply State.post_keeps
    | with_reducible apply Keeps.ite
    | (dsimp only)
    | split
    | (refine Keeps.any ?_ ?_; rotate_left; rfl)

theorem execAvsSettled_keeps {s : State} (h : Keeps dk qu s) (domain : Fin 78) :
    KeepsOut dk qu (execAvsSettled domain s) := by
  unfold execAvsSettled
  repeat' first
    | with_reducible apply KeepsOut.next
    | with_reducible apply KeepsOut.ite
    | (intro)
    | with_reducible assumption
    | with_reducible apply State.setFld_keeps
    | with_reducible apply Keeps.ite
    | (dsimp only)
    | split
    | (refine Keeps.any ?_ ?_; rotate_left; rfl)

theorem execRefMissing_keeps {s : State} (h : Keeps dk qu s)  :
    KeepsOut dk qu (execRefMissing s) := by
  unfold execRefMissing
  repeat' first
    | with_reducible apply KeepsOut.next
    | with_reducible apply KeepsOut.ite
    | (intro)
    | with_reducible assumption
    | with_reducible apply State.setFld_keeps
    | with_reducible apply State.post_keeps
    | with_reducible apply Keeps.ite
    | (dsimp only)
    | split
    | (refine Keeps.any ?_ ?_; rotate_left; rfl)

theorem execRootRefRestored_keeps {s : State} (h : Keeps dk qu s)  :
    KeepsOut dk qu (execRootRefRestored s) := by
  unfold execRootRefRestored
  repeat' first
    | with_reducible apply KeepsOut.next
    | with_reducible apply KeepsOut.ite
    | (intro)
    | with_reducible assumption
    | with_reducible apply State.setFld_keeps
    | with_reducible apply State.post_keeps
    | with_reducible apply Keeps.ite
    | (dsimp only)
    | split
    | (refine Keeps.any ?_ ?_; rotate_left; rfl)

/-! ## Observe -/

theorem State.traceSample_keeps {s : State} (h : Keeps dk qu s) (n : Nat) (r : List Word) :
    Keeps dk qu (State.traceSample s n r) := by
  unfold State.traceSample
  repeat' first
    | (intro)
    | with_reducible assumption
    | with_reducible apply State.tracePush_keeps
    | with_reducible apply Keeps.ite

theorem execSampleRingWrite_keeps {s : State} (h : Keeps dk qu s) (course : Fin 24) :
    KeepsOut dk qu (execSampleRingWrite course s) := by
  unfold execSampleRingWrite
  repeat' first
    | with_reducible apply KeepsOut.next
    | with_reducible apply KeepsOut.ite
    | (intro)
    | with_reducible assumption
    | with_reducible apply State.setFld_keeps
    | with_reducible apply State.busPut_keeps
    | refine State.busPut_keeps_eq ?_ (by with_reducible assumption)
    | with_reducible apply State.sampleLost_keeps
    | with_reducible apply State.traceSample_keeps
    | with_reducible apply Keeps.ite
    | (dsimp only)
    | split
    | (refine Keeps.any ?_ ?_; rotate_left; rfl)

theorem execTracePacketSend_keeps {s : State} (h : Keeps dk qu s)  :
    KeepsOut dk qu (execTracePacketSend s) := by
  unfold execTracePacketSend
  repeat' first
    | with_reducible apply KeepsOut.next
    | with_reducible apply KeepsOut.ite
    | (intro)
    | with_reducible assumption
    | with_reducible apply State.setFld_keeps
    | with_reducible apply State.traceLost_keeps
    | with_reducible apply Keeps.ite
    | (dsimp only)
    | split
    | (refine Keeps.any ?_ ?_; rotate_left; rfl)

theorem State.rootCycle_keeps {s : State} (h : Keeps dk qu s)  :
    Keeps dk qu (State.rootCycle s) := by
  unfold State.rootCycle
  repeat' first
    | (intro)
    | with_reducible assumption
    | with_reducible apply State.setFld_keeps
    | with_reducible apply State.takeFree_keeps
    | refine State.takeFree_keeps_eq ?_ (by with_reducible assumption)
    | with_reducible apply Keeps.ite
    | (dsimp only)
    | split
    | (refine Keeps.any ?_ ?_; rotate_left; rfl)

theorem State.refCycle_keeps {s : State} (h : Keeps dk qu s) : Keeps (dk + 1) qu (State.refCycle s) := by
  have k := State.timeTick_keeps h
  have k1 : Keeps (dk + 1) qu { s.timeTick with devclk := s.devclk + 1 } :=
    ⟨k.mem, k.regs, k.books, by simp [h.clock], k.queue⟩
  exact State.meshRun_keeps (State.noteBusy_keeps (State.rootCycle_keeps k1)) _ _

end Sys2Proof.Machine
end

