-- ==== Sys2Proof/Laws/Memory.lean ====
section
/-! SUPPORT. Memory: a byte read after bytes are written, and the stored places a word takes. -/
namespace Sys2Proof.Machine

/-- Outside the bytes written, memory reads as before. -/
theorem mread_mwrites_outside (m : List Host.Cell) (a : Nat) (l : List Byte) {j : Nat} (h : j < a ∨ a + l.length ≤ j) :
    mread (mwrites m a l) j = mread m j := by
  induction l generalizing m a with
  | nil => rfl
  | cons b r ih =>
    have e := ih (mwrite m a b) (a + 1) (by simp only [List.length_cons] at h; omega)
    rw [show mwrites m a (b :: r) = mwrites (mwrite m a b) (a + 1) r from rfl, e]
    exact tget_tset_other _ _ _ _ (by simp only [List.length_cons] at h; omega)

/-- A byte written reads as written. -/
theorem mread_mwrites_inside (m : List Host.Cell) (a : Nat) (l : List Byte) {i : Nat} (h : i < l.length) :
    mread (mwrites m a l) (a + i) = l[i] := by
  induction l generalizing m a i with
  | nil => simp at h
  | cons b r ih =>
    rw [show mwrites m a (b :: r) = mwrites (mwrite m a b) (a + 1) r from rfl]
    cases i with
    | zero =>
      rw [mread_mwrites_outside _ _ _ (by omega)]
      exact tget_tset_self _ _ _ _
    | succ i =>
      rw [show a + (i + 1) = a + 1 + i by omega]
      exact ih (mwrite m a b) (a + 1) (by simpa using h)

/-- Every list of bytes written keeps the canonical form. -/
theorem mwrites_canonical (m : List Host.Cell) (h : Memory.wf m) (a : Nat) (l : List Byte) : Memory.wf (mwrites m a l) := by
  induction l generalizing m a with
  | nil => exact h
  | cons b r ih => exact ih _ (tset_wf h a b) _

/-- Two memories in the canonical form that read the same at every address are the same data. -/
theorem memory_ext {m n : List Host.Cell} (hm : Memory.wf m) (hn : Memory.wf n) (h : ∀ a, mread m a = mread n a) : m = n :=
  tab_ext hm hn h

end Sys2Proof.Machine
end

