-- ==== Sys2Proof/Laws/Sett.lean ====
section
/-! SUPPORT. Lanes of vector registers and accumulators, and the flags their results set. -/
namespace Sys2Proof.Machine

/-- Lanes joined, the first lowest, fit in their bits. -/
theorem joinLanes_lt (w : Nat) (l : List Int) : joinLanes w l < 2 ^ (w * l.length) := by
  induction l with
  | nil => simp [joinLanes]
  | cons x r ih =>
    have h1 : toBits w x < 2 ^ w := by
      unfold toBits
      have hp : (0 : Int) < ((2 ^ w : Nat) : Int) := by positivity
      have := Int.emod_lt_of_pos x hp
      have := Int.emod_nonneg x (ne_of_gt hp)
      omega
    simp only [joinLanes, List.length_cons, Nat.mul_add, Nat.mul_one, Nat.pow_add]
    rw [Nat.mul_comm (2 ^ (w * r.length))]
    calc _ < 2 ^ w + 2 ^ w * joinLanes w r := by omega
      _ = 2 ^ w * (joinLanes w r + 1) := by ring
      _ ≤ _ := Nat.mul_le_mul_left _ ih

/-- Each lane of a joined word is the lane put there, cut to its width. -/
theorem joinLanes_lane (w : Nat) (l : List Int) (i : Nat) (h : i < l.length) :
    joinLanes w l / 2 ^ (w * i) % 2 ^ w = toBits w l[i] := by
  have tl (x : Int) : toBits w x < 2 ^ w := by
    unfold toBits
    have hp : (0 : Int) < ((2 ^ w : Nat) : Int) := by positivity
    have := Int.emod_lt_of_pos x hp
    have := Int.emod_nonneg x (ne_of_gt hp)
    omega
  induction l generalizing i with
  | nil => simp at h
  | cons x r ih =>
    cases i with
    | zero => simp [joinLanes, Nat.add_mod, Nat.mod_eq_of_lt (tl x)]
    | succ i =>
      simp only [joinLanes, Nat.mul_add, Nat.mul_one, List.getElem_cons_succ]
      rw [Nat.pow_add, Nat.mul_comm (2 ^ (w * i)), ← Nat.div_div_eq_div_mul,
        Nat.add_mul_div_left _ _ (Nat.two_pow_pos w), Nat.div_eq_of_lt (tl x), Nat.zero_add]
      exact ih i (by simpa using h)

theorem ofInt_toNat (w : Nat) (x : Int) : (BitVec.ofInt w x).toNat = toBits w x := by
  simp [toBits, BitVec.toNat_ofInt]

/-- A lane of a vector register built from integers is the integer wrapped to 16 bits. -/
theorem lane_ofLanes (f : Nat → Int) (i : Nat) (h : i < 32) : lane (ofLanes f) i = (BitVec.ofInt 16 (f i)).toInt := by
  unfold lane ofLanes
  congr 1
  apply BitVec.eq_of_toNat_eq
  have := joinLanes_lane 16 ((List.range 32).map f) i (by simpa using h)
  have hl := joinLanes_lt 16 ((List.range 32).map f)
  simp only [List.length_map, List.length_range] at hl
  rw [ofInt_toNat]
  simp only [BitVec.extractLsb'_toNat, BitVec.toNat_ofNat, Nat.shiftRight_eq_div_pow]
  rw [Nat.mod_eq_of_lt hl, this]; simp

/-- A lane of an accumulator built from integers is the integer wrapped to 40 bits. -/
theorem accLane_ofAccLanes (f : Nat → Int) (i : Nat) (h : i < 32) : accLane (ofAccLanes f) i = (BitVec.ofInt 40 (f i)).toInt := by
  unfold accLane ofAccLanes
  congr 1
  apply BitVec.eq_of_toNat_eq
  have := joinLanes_lane 40 ((List.range 32).map f) i (by simpa using h)
  have hl := joinLanes_lt 40 ((List.range 32).map f)
  simp only [List.length_map, List.length_range] at hl
  rw [ofInt_toNat]
  simp only [BitVec.extractLsb'_toNat, BitVec.toNat_ofNat, Nat.shiftRight_eq_div_pow]
  rw [Nat.mod_eq_of_lt hl, this]; simp

/-- Saturation to 16 bits is a bound on both sides. -/
theorem sat16_eq (x : Int) : sat16 x = max (-32768) (min 32767 x) := by
  unfold sat16 clampInt; split_ifs <;> omega

/-- SAT is set by a lane that the predicate enables and whose value lies outside 16 bits. -/
theorem anySat_iff (p : Word) (f : Nat → Int) : anySat p f = true ↔ ∃ i, i < 32 ∧ p.getLsbD i = true ∧ (f i < -32768 ∨ 32767 < f i) := by
  simp [anySat, over16]

theorem foldBits (f : Nat → Bool) (n : Nat) : (List.range n).foldl (fun a i => if f i then a + 2 ^ i else a) 0 < 2 ^ n ∧
   ∀ i, ((List.range n).foldl (fun a i => if f i then a + 2 ^ i else a) 0).testBit i = (decide (i < n) && f i) := by
  induction n with
  | zero => simp
  | succ n ih =>
    obtain ⟨h1, h2⟩ := ih
    rw [List.range_succ, List.foldl_append]
    simp only [List.foldl_cons, List.foldl_nil]
    generalize (List.range n).foldl (fun a i => if f i then a + 2 ^ i else a) 0 = a at *
    cases hf : f n
    · simp only [Bool.false_eq_true, if_false]
      refine ⟨by rw [pow_succ]; omega, fun i => ?_⟩
      rw [h2]
      by_cases hi : i = n
      · subst hi; simp [hf]
      · have : decide (i < n + 1) = decide (i < n) := by simp; omega
        rw [this]
    · simp only [if_true]
      refine ⟨by rw [pow_succ]; omega, fun i => ?_⟩
      rw [Nat.add_comm]
      rcases Nat.lt_trichotomy i n with hi | hi | hi
      · rw [Nat.testBit_two_pow_add_gt hi, h2]; simp [hi, Nat.lt_succ_of_lt hi]
      · subst hi; rw [Nat.testBit_two_pow_add_eq, h2]; simp [hf]
      · rw [Nat.testBit_lt_two_pow (lt_of_lt_of_le (by omega : 2 ^ n + a < 2 ^ (n + 1)) (Nat.pow_le_pow_right (by omega) hi))]
        have : ¬ i < n + 1 := by omega
        simp [this]

/-- A word gathered bit by bit has the bits it was gathered from. -/
theorem foldWord (f : Nat → Bool) (i : Nat) (h : i < 32) :
    (BitVec.ofNat 32 ((List.range 32).foldl (fun a i => if f i then a + 2 ^ i else a) 0)).getLsbD i = f i := by
  rw [BitVec.getLsbD_ofNat, (foldBits f 32).2]; simp [h]

/-- OV is set by a lane that the predicate enables and whose value lies outside 40 bits. -/
theorem anyOver_iff (p : Word) (f : Nat → Int) : anyOver p f = true ↔ ∃ i, i < 32 ∧ p.getLsbD i = true ∧ (f i < -(2 ^ 39) ∨ 2 ^ 39 ≤ f i) := by
  simp only [anyOver, over40, List.any_eq_true, List.mem_range, Bool.and_eq_true, Bool.or_eq_true, decide_eq_true_eq]
  constructor <;> rintro ⟨i, hi, hp, h⟩ <;> exact ⟨i, hi, hp, by omega⟩

/-- The predicate of half the lanes. -/
theorem halfMask_bit (p : Word) (lo i : Nat) (h : i < 32) : (halfMask p lo).getLsbD i = (decide (lo ≤ i) && decide (i < lo + 16) && p.getLsbD i) := by
  unfold halfMask; exact foldWord _ i h

end Sys2Proof.Machine
end

