-- ==== Sys2Proof/WellFormed.lean ====
section
/-! DEFINITION. Which commands the world can send: what the operand types leave open about an event at a pin, a link or a
meter. Commands that only name a unit, or carry a word that software chose, are all well formed: what the device does with
a bad one is its own behaviour. -/
namespace Sys2Proof

/-- Whether an event can happen as the command says. -/
def Instr.wf : Instr → Bool
  | .registerWrite _ _ _ _ _ => true
  | .journalGrant => true
  | .lost _ => true
  | .sqTailDoorbell _ _ => true
  | .cqHeadDoorbell _ _ => true
  | .ringDisable _ => true
  | .quiesced _ => true
  | .flr _ => true
  | .irqCoalTimer _ => true
  | .badOpcode _ => true
  | .nop _ => true
  | .identify _ => true
  | .modeGet _ => true
  | .modeSet _ => true
  | .eventSubscribe _ => true
  | .fnGrant _ => true
  | .diagWindow _ => true
  | .abort _ => true
  | .lrSafePointStop _ _ => true
  | .enumerate _ => true
  | .regRead _ => true
  | .regWrite _ => true
  | .regModify _ => true
  | .regBlock _ => true
  | .regBlockDone _ => true
  | .commit _ => true
  | .commitState _ => true
  | .fenceUnit _ => true
  | .fenceUnitDone _ => true
  | .unfenceUnit _ => true
  | .unfenceUnitDone _ => true
  | .accountSet _ => true
  | .accountRead _ => true
  | .plan _ => true
  | .ledgerSet _ => true
  | .meterCalibrate _ => true
  -- constants with success (R199)
  | .meterCalibrateDone _ ok constants => !ok || !constants.isEmpty
  | .queueSet _ => true
  | .taskPost _ => true
  | .taskPostRetry _ => true
  | .keystoneSet _ => true
  | .keystoneRead _ => true
  | .queueStats _ => true
  | .vaultSet _ => true
  | .vstreamSet _ => true
  | .vaultTrigger _ => true
  | .vaultExport _ => true
  | .exportDone _ => true
  | .tallySet _ => true
  | .templateLoad _ => true
  | .vaultStatus _ => true
  | .tbRead _ => true
  | .tbStep _ => true
  | .servoSet _ => true
  | .servoOffset _ => true
  | .tddEdgeSet _ => true
  | .ptpPortSet _ => true
  | .memRead _ => true
  | .memWrite _ => true
  | .memCopy _ => true
  | .memCopyDone _ => true
  | .spallRead _ => true
  | .pageRetire _ => true
  | .pageRetireDone _ => true
  | .channelEvacuate _ => true
  | .evacuatePageMove _ => true
  | .evacuated _ => true
  | .scrubSet _ => true
  | .dataRingSet _ => true
  | .quadProtocolSet _ => true
  | .laneSet _ => true
  | .laneRecal _ => true
  | .laneStatus _ => true
  | .ahnentSet _ => true
  | .macSet _ => true
  | .flowWrite _ => true
  | .protectSet _ => true
  | .imageStage _ => true
  | .imageStageDone _ => true
  | .imageVerify _ => true
  | .imageVerifyDone _ => true
  | .imageActivate _ => true
  | .dvorysSwitch _ _ _ => true
  | .imageFlashWrite _ => true
  | .imageFlashWriteDone _ => true
  | .imageStatus _ => true
  | .counterSelect _ => true
  | .counterRead _ => true
  | .collectStart _ => true
  | .collectDone _ => true
  | .traceSet _ => true
  | .journalRead _ => true
  | .pairMismatch _ _ _ => true
  | .pairReloadDone _ => true
  | .modeReq _ _ => true
  | .modeTransitionDone => true
  | .bankedWfiTimeout => true
  | .bankedEntry => true
  | .powerOnReset => true
  | .resetNLow => true
  | .resetNRise _ => true
  | .softReset _ _ => true
  | .thermalReset => true
  | .droopReset => true
  | .internalFootingEnd _ => true
  | .fuseReadDone => true
  | .beddingDone _ _ => true
  | .bootImageCheck _ => true
  | .bootPush _ _ => true
  | .timingLock => true
  -- four bulk channels (R285)
  | .bulkTrained found => decide (found.length = 4)
  | .bulkFilled => true
  | .avsCal => true
  -- 48 metering points (R197)
  | .metersCal constants => decide (constants.length = 48)
  | .lanesCal => true
  | .commitArrive _ _ _ _ => true
  | .commitLock _ => true
  | .symbolBoundary _ => true
  | .fftSymbolArrive _ => true
  | .fftTransformDone _ => true
  | .gridWritesAcked _ => true
  | .headerWriteAcked _ => true
  | .rxWindowClose _ => true
  | .prachOccasion _ => true
  | .txGridRead _ => true
  | .txGridReadDone _ => true
  | .paEnableChange _ => true
  | .fftClearMax _ _ => true
  | .fftClearDrops _ _ => true
  | .vmac _ _ => true
  | .vmsu _ _ => true
  | .vmul _ _ => true
  | .vcmacL _ _ => true
  | .vcmacH _ _ => true
  | .vcmacjL _ _ => true
  | .vcmacjH _ _ => true
  | .vaclr _ _ => true
  | .vald _ _ => true
  | .vamov _ _ => true
  | .vared _ _ => true
  | .vext _ _ => true
  | .vexts _ _ => true
  | .vextr _ _ => true
  | .vextrs _ _ => true
  | .vadd _ _ => true
  | .vadds _ _ => true
  | .vsub _ _ => true
  | .vsubs _ _ => true
  | .vmulq _ _ => true
  | .vshr _ _ => true
  | .vshl _ _ => true
  | .vshls _ _ => true
  | .vand _ _ => true
  | .vor _ _ => true
  | .vxor _ _ => true
  | .vmax _ _ => true
  | .vmin _ _ => true
  | .vabs _ _ => true
  | .vneg _ _ => true
  | .vconj _ _ => true
  | .vswapiq _ _ => true
  | .vcmpgt _ _ => true
  | .vcmpeq _ _ => true
  | .vsel _ _ => true
  | .valign _ _ => true
  | .vbcast _ _ => true
  | .vmov _ _ => true
  | .vnop _ _ => true
  | .vld _ => true
  | .vst _ => true
  | .vldst _ => true
  | .vldbc _ => true
  | .ldw _ => true
  | .ldh _ => true
  | .ldhu _ => true
  | .stw _ => true
  | .sth _ => true
  | .cmuq _ => true
  | .aadd _ => true
  | .lnop _ => true
  | .sadd _ => true
  | .ssub _ => true
  | .smul _ => true
  | .sand _ => true
  | .sor _ => true
  | .sxor _ => true
  | .sshl _ => true
  | .sshr _ => true
  | .sshru _ => true
  | .sslt _ => true
  | .ssltu _ => true
  | .smin _ => true
  | .smax _ => true
  | .saddi _ => true
  | .smovi _ => true
  | .smovhi _ => true
  | .movm _ => true
  | .movlc _ => true
  | .movl _ => true
  | .movp _ => true
  | .mova _ => true
  | .movb _ => true
  | .movs _ => true
  | .satclr _ => true
  | .beq _ => true
  | .bne _ => true
  | .blt _ => true
  | .bge _ => true
  | .j _ => true
  | .jal _ => true
  | .jr _ => true
  | .bpany _ => true
  | .bpnone _ => true
  | .cstep _ => true
  | .rep _ => true
  | .cturn _ => true
  | .take _ => true
  | .takeWake _ => true
  | .done _ => true
  | .fence _ => true
  | .trap _ => true
  | .cmuw _ => true
  | .snop _ => true
  | .illegal _ => true
  | .remoteLoadReturn _ => true
  | .storeAck _ => true
  | .hang _ => true
  | .haltReq _ _ _ => true
  | .coreHalt _ => true
  | .step _ _ => true
  | .coreEnWrite _ _ _ => true
  | .cmuCommandStart _ => true
  | .matmul _ => true
  | .matmulH _ => true
  | .gram _ => true
  | .chol _ => true
  | .trsvL _ => true
  | .trsvLh _ => true
  | .cholSolve _ => true
  | .cmuNoOperation _ => true
  | .cmuStatusWrite _ => true
  | .ldpcDecode _ => true
  | .ldpcEncode _ => true
  | .crc _ => true
  | .polarDecode _ => true
  | .polarEncode _ => true
  | .turboDecode _ => true
  | .turboEncode _ => true
  | .harqCombine _ => true
  | .jobTypeMismatch _ => true
  | .jobEnd _ => true
  | .engineHang _ => true
  | .engineResetDone _ => true
  | .takeEnWrite _ _ _ _ => true
  | .ucodeLoadDone _ => true
  | .ucodeSwitch _ _ _ => true
  | .dqueuePost _ _ _ => true
  | .postAccept => true
  | .postRead _ _ => true
  | .keystoneSetCount _ _ _ => true
  | .keystoneSetReload _ _ _ => true
  | .keystoneDec _ _ _ => true
  | .tellerFill => true
  | .slotAgeReclaim _ => true
  | .taskCompletion _ _ => true
  | .dispCancel _ _ => true
  | .dqueueClrMax _ _ => true
  | .dqueueClrHist _ _ => true
  | .tellerClrHist _ _ => true
  -- 48 metering points (R197)
  | .meterStep units others => decide (units.length = 32 ∧ others.length = 16)
  | .meterFault _ _ => true
  | .meterReferenceCheck _ _ => true
  | .periodClose _ _ _ => true
  | .adjust _ _ _ => true
  | .accountClrStats _ _ => true
  | .domainPark _ => true
  | .domainUnpark _ => true
  | .leafGrant => true
  | .leafWriteDone => true
  | .vaultEnable _ _ _ => true
  | .vaultGeometryWrite _ _ _ _ => true
  | .trigger _ _ _ => true
  | .pinTrigger _ _ => true
  | .triggerGrant => true
  | .regionRelease _ _ _ => true
  | .tallyAgcBlock _ => true
  | .tallyDetection _ => true
  | .tallySymbol _ => true
  | .tallyRecordAcked _ => true
  | .tplData _ _ _ => true
  | .niInject _ _ _ _ _ _ _ => true
  | .packetEject _ _ _ _ => true
  | .responseArrive _ _ _ _ => true
  | .linkReplay _ _ => true
  | .linkFailed _ _ => true
  | .niLinkDown _ _ _ _ => true
  | .detour _ _ _ _ => true
  | .txnTimeout _ _ _ => true
  | .fenceReq _ _ _ => true
  | .unfenceReq _ _ _ => true
  | .niFence _ => true
  | .drainDone _ _ => true
  | .forceDrain _ => true
  | .niUnfence _ => true
  | .epochFlip _ _ => true
  | .copy _ _ => true
  | .copyDone _ => true
  | .routeHiWrite _ _ _ => true
  | .inServiceWrite _ _ _ => true
  | .linkEnWrite _ _ _ => true
  | .linkRetrainDone _ _ _ => true
  | .niClrHist _ _ => true
  | .niClrBytes _ _ => true
  | .start _ _ => true
  | .dmaAbort _ _ => true
  | .resume _ _ => true
  | .dmaEnd _ => true
  | .move _ => true
  | .movec _ => true
  | .loop _ => true
  | .endloop _ => true
  | .waitEvent _ => true
  | .waitReq _ => true
  | .waitTime _ => true
  | .waitKey _ => true
  | .dmaWaitMet _ => true
  | .signalEvent _ => true
  | .signalKey _ => true
  | .signalJournal _ => true
  | .signalIrq _ => true
  | .signalRing _ => true
  | .setptrSet _ => true
  | .setptrAdd _ => true
  | .setptrLoad _ => true
  | .dmaNop _ => true
  | .badOp _ => true
  | .pacedBurst _ _ => true
  | .dmaWriteAck _ => true
  | .busError _ => true
  | .dmaFetchReturn _ => true
  | .eventSet _ _ _ _ => true
  | .eventClr _ _ _ _ => true
  | .reqSwWrite _ _ _ _ => true
  | .regHiWrite _ _ _ => true
  | .dataRingHead _ _ _ => true
  | .scrubRead _ => true
  | .scrubRewrite _ => true
  | .repaired _ => true
  | .rawRead _ _ _ _ => true
  | .rawWrite _ _ _ _ => true
  | .decodedRead _ _ _ _ => true
  | .clrCounts _ _ _ => true
  | .clrErase _ _ _ => true
  | .protoWrite _ _ _ => true
  | .switched _ => true
  | .recalGo _ _ _ => true
  | .recalDone _ _ => true
  -- 4,096 UI decided at 2 or 4 levels (R311)
  | .adaptWindow _ levels _ _ => decide (levels.length = 2 ∨ levels.length = 4) && decide (levels.sum = 4096)
  | .txEnWrite _ _ _ => true
  | .ahnentTxMultiframe _ => true
  -- 32 blocks to a multiframe (R314)
  | .ahnentRxMultiframe _ blocks => decide (blocks.length = 32)
  | .ahnentTrainDone _ _ => true
  | .ahnentAlignTimeout _ => true
  | .idleEnter _ => true
  | .idleExit _ => true
  | .ahnentRxIdle _ => true
  | .userCw _ _ _ => true
  | .ahnentActiveWrite _ _ _ => true
  | .rxCwRead _ _ _ => true
  -- a stamp point within one REF cycle, and a frame that ends in its FCS (R328, R366)
  | .macFrameRx _ frame sub _ _ => decide (sub.toNat < 655360) && decide (4 ≤ frame.length)
  | .rxDescDone _ => true
  -- a stamp point within one REF cycle (R366)
  | .macTxGrant _ sub => decide (sub.toNat < 655360)
  | .macTxDone _ => true
  | .pauseExpire _ _ => true
  | .pauseBreak _ _ => true
  | .pauseBreakEnd _ _ => true
  | .pfcXoff _ _ => true
  | .pfcRepeat _ _ => true
  | .macLinkLoss _ _ _ => true
  | .ethRingTail _ _ _ _ => true
  | .flowDataWrite _ _ _ _ => true
  | .flowClrStats _ _ _ => true
  | .macActiveWrite _ _ _ => true
  | .stepGo _ _ _ => true
  | .frameOffsetWrite _ _ _ _ => true
  | .offsetGo _ _ _ => true
  -- an edge within one REF cycle (R362)
  | .ppsInEdge sub => decide (sub.toNat < 640)
  | .servoHoldover _ => true
  | .servoSourceWrite _ _ _ => true
  | .refLost => true
  | .refRestored => true
  | .edgePush _ _ _ => true
  | .tddEdgeFire _ => true
  | .clrQueue _ _ _ => true
  | .ppsOutRise => true
  | .ppsOutFall => true
  | .timeSecLoRead _ _ => true
  | .creditLoRead _ _ => true
  -- whole dwords (R379)
  | .bar0Read offset dwords => decide (1 ≤ dwords) && decide (offset.toNat % 4 = 0)
  -- whole dwords (R379)
  | .bar0Write offset dwords => !dwords.isEmpty && decide (offset.toNat % 4 = 0)
  -- a read request of at most 4,096 bytes (R374)
  | .bar2Read _ bytes => decide (1 ≤ bytes) && decide (bytes ≤ 4096)
  -- a payload of at most 512 bytes (R374)
  | .bar2Write _ data _ => !data.isEmpty && decide (data.length ≤ 512)
  | .msixSend _ => true
  | .msixAllocationWrite _ _ _ => true
  -- a completion carries data (R374)
  | .pcieReadCompletion _ _ data _ => !data.isEmpty && decide (data.length ≤ 4096)
  | .cplTimeout _ _ _ => true
  | .perstNLow => true
  -- rates and widths of R374
  | .pcieLinkUp speed width => decide (1 ≤ speed.toNat ∧ speed.toNat ≤ 5) && [1, 2, 4, 8, 16].contains width.toNat
  | .pcieLinkDown => true
  | .coreFault _ => true
  | .engineFault _ => true
  -- entries of R293 and R393
  | .unitParity entry index _ => decide (index < [232, 14, 256, 128, 16384, 8192, 232, 64, 512].getD entry 0)
  | .faultClrMax _ => true
  | .faultClrCounts _ => true
  | .cntSelWrite _ _ _ _ _ => true
  | .cntClr _ _ _ _ => true
  | .collectSweep _ => true
  | .sampleRingWrite _ => true
  | .mark _ _ => true
  | .traceEnable _ _ => true
  | .tracePacketSend => true
  | .refMissing => true
  | .rootRefRestored => true
  | .avsUpdate _ => true
  | .avsAlarm _ => true
  | .avsSettled _ => true
  | .poweredOff _ => true
  | .powerUpGrant _ => true
  | .poweredUp _ => true
  | .keepRunWrite _ _ _ => true
  | .keepCoreWfi _ => true
  | .courseFenceAllowance _ => true
  | .tddOutSlotStart _ => true
  | .perstNHigh => true
  | .pcieConfigWrite _ _ _ _ _ => true
  -- whole dwords (chapter 02)
  | .bar4RingPageWrite _ offset _ => decide (offset.toNat % 4 = 0)
  -- whole pages (R377)
  | .atsInvalidation page bytes => decide (4096 ≤ bytes) && decide (page.toNat % 4096 = 0)
  | .macLinkUp _ => true
  | .cdrLoss _ => true
  | .faultStateDisagreement => true
  | .vddIo18Low => true

end Sys2Proof
end

