-- ==== Sys2Proof/Tests/Slice0.lean ====
section
/-! SUPPORT. The author's own tests: what WellFormed refuses, states that meet the hypotheses of the statements (`witness_…`), and single
steps whose results the spec gives (`test_…`). -/
namespace Sys2Proof.Tests

set_option Elab.async false

open Sys2Proof Sys2Proof.Machine

/-- A state with register fields set, as (field, instance, value). -/
def fields (l : List (Field × Nat × Nat)) (s : State) : State := l.foldl (fun s x => s.setFld x.1 x.2.1 x.2.2) s

/-- A state in another mode. -/
def inMode (m : Mode) (s : State) : State := { s with modes := { s.modes with mode := m } }

/-- What a command leaves, and whether it has a next state. -/
def after (c : Instr) (s : State) : State :=
  match exec c s with
  | .next t => t
  | _ => s

/-- A bundle from its four slots (R128): MAC0, MAC1, LS, SB. -/
def bundle (m0 m1 ls sb : Nat) : Nat := m0 * 2 ^ 98 + m1 * 2 ^ 68 + ls * 2 ^ 28 + sb

/-- The NOP words of the slots (R134, R136, R137). -/
def vnop : Nat := 0x3F * 2 ^ 24
def lnop : Nat := 0x3F * 2 ^ 34
def snop : Nat := 0x3F * 2 ^ 22

/-- Core 0 with a task, its program memory beginning with a bundle, its slots before `j` read. -/
def coreAt (j b : Nat) : State :=
  let s := State.reset.writeMem (bundleAddr 0 0) (clean (leBytes 16 b))
  s.setCore 0 { Core.reset with task := some 0, stage := { Stage.reset with slot := j } }

/-- Core 0 at slot `j`, whose word is `w`, the other slots NOPs. -/
def slotAt (j w : Nat) : State :=
  coreAt j (if j = 0 then bundle w vnop lnop snop else if j = 1 then bundle vnop w lnop snop
    else if j = 2 then bundle vnop vnop w snop else bundle vnop vnop lnop w)

/-- The opcode field of a slot. -/
def opWord (j op : Nat) : Nat := if j ≤ 1 then op * 2 ^ 24 else if j = 2 then op * 2 ^ 34 else op * 2 ^ 22

def turnIs (s : State) (c j op w : Nat) : Bool :=
  match s.slotDue c j with
  | some b => slotWord b j == w && slotOp w j == op && !(s.bundleNow c).2
  | none => false

theorem turn_of {s : State} {c j op w : Nat} (h : turnIs s c j op w = true) : Claims.Turn s c j op w := by
  unfold turnIs at h
  split at h
  · rename_i b hb
    simp only [Bool.and_eq_true, beq_iff_eq, Bool.not_eq_true'] at h
    exact ⟨b, hb, h.1.1, h.1.2, h.2⟩
  · cases h

theorem pair_of {α β : Type} {x : α × β} {a : α} (h : x.1 = a) : ∃ b, x = (a, b) := ⟨x.2, by rw [← h]⟩

theorem triple_of {α β γ : Type} {x : α × β × γ} {a : α} (h : x.1 = a) : ∃ b c, x = (a, b, c) := ⟨x.2.1, x.2.2, by rw [← h]⟩

theorem some_of {α : Type} {x : Option α} (h : x.isSome = true) : ∃ a, x = some a := Option.isSome_iff_exists.1 h

/-- A resident descriptor: READY, of queue 0, grade 0, account 1, with target `target` and argument `arg`. -/
def aTask (target : BitVec 16) (arg : BitVec 40) : Task where
  queue := 0
  target := target
  grade := 0
  idempotent := true
  lateDrop := false
  failSkip := false
  optional := false
  waitEn := false
  doneEn := false
  arg := arg
  account := 1
  waitKey := 0
  doneKey := 0
  noDeadline := true
  estimate := 10
  key := 0
  seq := 0
  st := .ready
  mark := false
  redispatches := 0
  unit := 0
  allowance := 0
  placedAt := 0
  readyAt := 0
  accrual := 0
  debited := false

/-- Task 5 at the head of a unit's slot. -/
def slotted (u : Nat) (target : BitVec 16) (arg : BitVec 40) (s : State) : State :=
  (s.putTask 5 { aTask target arg with st := .slotted, unit := u, allowance := 63, debited := true }).setSlot u [5]

/-- A state with a change of core 0, and one with a change of CMU 0. -/
def core0 (f : Core → Core) (s : State) : State := s.setCore 0 (f (s.core 0))
def cmu0 (f : Cmu → Cmu) (s : State) : State := s.setCmu 0 (f (s.cmu 0))

/-- Command words for a CMU: OP, M, N, K, then A, B, C at 16 KB steps of Course 0's store with a stride of 32 elements, and the status
address (R123). -/
def cmuWords (op : Nat) : List Word :=
  [BitVec.ofNat 32 (op + 2 ^ 4 * 2 + 2 ^ 10 * 2 + 2 ^ 16 * 2), 0x40000000, 32 * 2 ^ 18, 0x40004000, 32 * 2 ^ 18, 0x40008000, 32 * 2 ^ 18, 0, 0,
   0x4000C000, 0, 7]

/-- A command in execution for core 0. -/
def cmuRun (words : List Word) (computed : Bool) : CmuRun where
  core := 0
  words := words
  computed := computed
  addr := false
  nonpd := false
  sat := false
  poison := false
  exp := 0
  pivot := 0

def cmuAt (words : List Word) (computed : Bool) : State := cmu0 (fun x => { x with cur := some (cmuRun words computed) }) State.reset

/-! ## Well-formed commands: one that each check refuses, beside one it takes -/

theorem test_wf_refuses :
    [Instr.meterCalibrateDone 1 true [], .bulkTrained [], .metersCal [], .meterStep [] [], .unitParity 8 512 false,
     .adaptWindow 0 [4096] 0 false, .adaptWindow 0 [2048, 2047] 0 false, .ahnentRxMultiframe 0 [], .macFrameRx 0 [0, 0, 0] 0 0 0,
     .macFrameRx 0 [0, 0, 0, 0] 0xFFFFF 0 0, .macTxGrant 0 0xFFFFF, .ppsInEdge 640, .bar0Read 0 0, .bar0Read 2 1, .bar0Write 0 [],
     .bar0Write 2 [(0, 15)], .bar2Read 0 0, .bar2Read 0 4097, .bar2Write 0 [] false, .bar2Write 0 (List.replicate 513 0) false,
     .pcieReadCompletion 0 0 [] false, .pcieLinkUp 0 16, .pcieLinkUp 5 3, .unitParity 0 232 false, .bar4RingPageWrite 0 2 0,
     .atsInvalidation 0 4095, .atsInvalidation 1 4096].all (fun c => !c.wf) = true := by decide +kernel

theorem test_wf_takes :
    [Instr.meterCalibrateDone 1 true [(0, 0)], .meterCalibrateDone 1 false [], .bulkTrained (List.replicate 4 (true, true, 1, 0)),
     .metersCal (List.replicate 48 (0, 0)), .meterStep (List.replicate 32 0) (List.replicate 16 0), .unitParity 8 511 false,
     .adaptWindow 0 [2048, 2048] 0 false, .ahnentRxMultiframe 0 (List.replicate 32 0), .macFrameRx 0 [0, 0, 0, 0] 0x9FFFF 0 0,
     .macTxGrant 0 0x9FFFF, .ppsInEdge 639, .bar0Read 4 1, .bar0Write 4 [(0, 15)], .bar2Read 0 4096,
     .bar2Write 0 (List.replicate 512 0) false, .pcieReadCompletion 0 0 [0] false, .pcieLinkUp 5 16, .unitParity 0 231 false,
     .bar4RingPageWrite 0 4 0, .atsInvalidation 4096 4096].all Instr.wf = true := by decide +kernel

/-! ## The whole machine -/

theorem witness_IdleStepCountsDevclk : State.reset.pending = [] := rfl

theorem witness_QueueUntouched : exec .rootRefRestored State.reset = .next (after .rootRefRestored State.reset) := rfl

theorem witness_CanonicalFormKept : State.reset.memOk ∧ State.reset.regsOk ∧ ∃ t, step State.reset = .next t :=
  ⟨by unfold State.memOk Memory.wf; decide +kernel, by unfold State.regsOk; decide +kernel, _, rfl⟩

theorem witness_BooksAlwaysAgree : (∀ a, (State.reset.account a).balanced) ∧ ∃ t, step State.reset = .next t :=
  ⟨fun a => by simp [State.account, State.reset, Ledger.reset, tget, tfind, Account.balanced, Account.reset], _, rfl⟩

/-- In Footing with the fuse read under way, after a power-on reset or another. -/
def fusing (por : Bool) : State :=
  inMode .footing { State.reset with power := { State.reset.power with por := por, fusing := true } }

theorem witness_DevclkResetOnlyByPowerOn :
    (∃ t, exec .lanesCal State.reset = .next t) ∧ (∃ t, exec .fuseReadDone (fusing false) = .next t) ∧
    ((fusing true).modes.mode = .footing ∧ (fusing true).power.fusing = true ∧ (fusing true).power.por = true ∧
      ∃ t, exec .fuseReadDone (fusing true) = .next t) ∧ ∃ t, exec .powerOnReset State.reset = .next t :=
  ⟨⟨_, rfl⟩, ⟨_, rfl⟩, ⟨rfl, rfl, rfl, _, rfl⟩, _, rfl⟩

theorem witness_ArbiterIsRoundRobin :
    rrPick 4 3 (fun _ => false) = none ∧ rrPick 4 3 (fun _ => true) = some 0 ∧ rrPick 4 0 (fun k => k == 0) = some 0 := by
  decide +kernel

/-! ## Registers -/

theorem witness_FieldTypesDecideTheStore : Claims.apart [⟨.rw, 7, 0, 0⟩, ⟨.ro, 15, 8, 0⟩, ⟨.w1c, 16, 16, 0⟩, ⟨.w1s, 31, 31, 0⟩] := by
  unfold Claims.apart; decide +kernel

theorem witness_RegisterFieldsApart : ∃ r, findReg 0x30 0x000 = some r := ⟨_, rfl⟩

theorem witness_ModeForbidsRegisterWrite :
    ∃ r, findReg (0x21 : BitVec 8).toNat ((0x000 : BitVec 10).toNat / 4 * 4) = some r ∧
      bitOf r.modes (inMode .banked State.reset).modes.mode.code = false := ⟨_, rfl, by decide +kernel⟩

/-- Course 3 in group 5. -/
def grouped : State := State.reset.setReg 0x10 3 0x370 0x20

theorem witness_GroupWriteReachesItsMembers :
    (classGroup 0x10 = true ∧ singleOnly 0x10 0x000 = false ∧ grouped.modes.mode ≠ .banked ∧ grouped.modeTakes 0x10 0x000 = true ∧
      grouped.groupMembers 0x10 5 = [3]) ∧
    (isGrpOff 0x000 = false ∧ instPresent 0x10 24 = false ∧ State.reset.powered 0x10 23 = true) := by decide +kernel

theorem witness_BankedHubIsClosed : (inMode .banked State.reset).modes.mode = .banked ∧ (8 : Fin 14).val ≠ 9 := by decide +kernel

theorem witness_PlainRegisterWriteStores :
    ∃ r, findReg 0x28 0x010 = some r ∧ Claims.plainClass 0x28 = true ∧ instPresent 0x28 0 = true ∧ State.reset.powered 0x28 0 = true ∧
      State.reset.fencedUnit 0x28 0 = false ∧ State.reset.hubTakes 9 = true ∧ bitOf r.modes State.reset.modes.mode.code = true :=
  ⟨_, rfl, by decide +kernel⟩

/-! ## Sett cores -/

theorem witness_SettWrappingVectorLanes : ∀ r ∈ Claims.wrapRows, Claims.Turn (slotAt 0 (opWord 0 r.op)) 0 0 r.op (opWord 0 r.op) := by
  have h : Claims.wrapRows.all (fun r => turnIs (slotAt 0 (opWord 0 r.op)) 0 0 r.op (opWord 0 r.op)) = true := by decide +kernel
  exact fun r hr => turn_of (List.all_eq_true.1 h r hr)

theorem witness_SettSaturatingVectorLanes : ∀ r ∈ Claims.satRows, Claims.Turn (slotAt 1 (opWord 1 r.op)) 0 1 r.op (opWord 1 r.op) := by
  have h : Claims.satRows.all (fun r => turnIs (slotAt 1 (opWord 1 r.op)) 0 1 r.op (opWord 1 r.op)) = true := by decide +kernel
  exact fun r hr => turn_of (List.all_eq_true.1 h r hr)

theorem witness_SettBitwiseCompareSelect : ∀ op ∈ [0x18, 0x19, 0x1A, 0x21, 0x22, 0x23, 0x3F],
    Claims.Turn (slotAt 0 (opWord 0 op)) 0 0 op (opWord 0 op) := by
  have h : [0x18, 0x19, 0x1A, 0x21, 0x22, 0x23, 0x3F].all (fun op => turnIs (slotAt 0 (opWord 0 op)) 0 0 op (opWord 0 op)) = true := by
    decide +kernel
  exact fun op ho => turn_of (List.all_eq_true.1 h op ho)

theorem witness_SettAccumulate : ∀ r ∈ Claims.accRows, Claims.Turn (slotAt 0 (opWord 0 r.op)) 0 0 r.op (opWord 0 r.op) := by
  have h : Claims.accRows.all (fun r => turnIs (slotAt 0 (opWord 0 r.op)) 0 0 r.op (opWord 0 r.op)) = true := by decide +kernel
  exact fun r hr => turn_of (List.all_eq_true.1 h r hr)

theorem witness_SettAccumulatorLoads :
    (∀ r ∈ Claims.accLoadRows, Claims.Turn (slotAt 0 (opWord 0 r.op)) 0 0 r.op (opWord 0 r.op)) ∧
    Claims.Turn (slotAt 0 (opWord 0 0x0B)) 0 0 0x0B (opWord 0 0x0B) := by
  have h : Claims.accLoadRows.all (fun r => turnIs (slotAt 0 (opWord 0 r.op)) 0 0 r.op (opWord 0 r.op)) = true := by decide +kernel
  exact ⟨fun r hr => turn_of (List.all_eq_true.1 h r hr), turn_of (by decide +kernel)⟩

theorem witness_SettWritesMergeByLane : (1 : Nat) ≠ 0 ∧ (0 : Nat) < 32 ∧ (31 : Nat) < 32 := by decide

theorem witness_SettLoadStoreSlot :
    (∀ op ∈ [0x01, 0x02, 0x03, 0x04, 0x05, 0x06, 0x07, 0x08, 0x09, 0x0A, 0x0B, 0x3F],
      Claims.Turn (slotAt 2 (opWord 2 op)) 0 2 op (opWord 2 op)) ∧
    (0x60000000 % 64 = 0 ∧ State.reset.whereIs 0 0x60000000 = .local_) ∧
    (0x60080000 % 64 = 0 ∧ State.reset.whereIs 0 0x60080000 = .prog) ∧ State.reset.whereIs 0 0x10000000000 = .bad := by
  have h : [0x01, 0x02, 0x03, 0x04, 0x05, 0x06, 0x07, 0x08, 0x09, 0x0A, 0x0B, 0x3F].all
      (fun op => turnIs (slotAt 2 (opWord 2 op)) 0 2 op (opWord 2 op)) = true := by decide +kernel
  exact ⟨fun op ho => turn_of (List.all_eq_true.1 h op ho), by decide +kernel⟩

/-- The registers of R106's worked examples. -/
def circular (a : BitVec 40) (m : Word) : Core :=
  { Core.reset with a := [(0, a)], b := [(0, 0x60001000)], l := [(0, 0x600)], m := [(2, m)] }

theorem witness_SettPostModify :
    ((circular 0x60001580 0x100).rB 0 = 0x60001000 ∧ (circular 0x60001580 0x100).rL 0 = 0x600 ∧
      (circular 0x60001580 0x100).rA 0 = 0x60001580 ∧ (circular 0x60001580 0x100).rM 2 = 0x100) ∧
    (circular 0x60001080 (-0x100)).rA 0 = 0x60001080 ∧ (circular 0x60001080 (-0x100)).rM 2 = -0x100 := by decide +kernel

/-- R106's two worked examples. -/
theorem test_post_modify : (circular 0x60001580 0x100).postMod 0 2 = 0x60001080 ∧
    (circular 0x60001080 (-0x100)).postMod 0 2 = 0x60001580 := by decide +kernel

/-- A core whose bundle raises nothing, submits no CMU command and loads nothing. -/
theorem clean_of {s : State} {c : Nat} (h : ((s.core c).stage.excs.isEmpty && (s.core c).stage.cmuq.isNone &&
    (s.core c).stage.load.isNone) = true) : Claims.CleanBundle s c := by
  simp only [Bool.and_eq_true, List.isEmpty_iff, Option.isNone_iff_eq_none] at h
  exact ⟨h.1.1, h.1.2, fun l hl => by rw [h.2] at hl; cases hl⟩

theorem coreAt_core (j b : Nat) : (coreAt j b).core 0 = { Core.reset with task := some 0, stage := { Stage.reset with slot := j } } := by
  simp [coreAt, State.setCore, State.core, tget_tset_self]

theorem slotAt_rep (j w : Nat) : ((slotAt j w).core 0).rep = none := by
  simp only [slotAt, coreAt_core]; rfl

theorem slotAt_clean (j w : Nat) : (((slotAt j w).core 0).stage.excs.isEmpty && ((slotAt j w).core 0).stage.cmuq.isNone &&
    ((slotAt j w).core 0).stage.load.isNone) = true := by
  simp only [slotAt, coreAt_core]; rfl

theorem witness_SettScalarBundleRetires : ∀ r ∈ Claims.arithmeticRows ++ Claims.moveRows ++ Claims.branchRows,
    Claims.Turn (slotAt 3 (opWord 3 r.op)) 0 3 r.op (opWord 3 r.op) ∧ ((slotAt 3 (opWord 3 r.op)).core 0).rep = none ∧
      Claims.CleanBundle (slotAt 3 (opWord 3 r.op)) 0 := by
  have h : (Claims.arithmeticRows ++ Claims.moveRows ++ Claims.branchRows).all (fun r =>
      turnIs (slotAt 3 (opWord 3 r.op)) 0 3 r.op (opWord 3 r.op)) = true := by decide +kernel
  exact fun r hr => ⟨turn_of (List.all_eq_true.1 h r hr), slotAt_rep 3 _, clean_of (slotAt_clean 3 _)⟩

/-- Core 0 in Cobble mode at its SB slot. -/
def cobbleAt (w : Nat) : State :=
  let s := slotAt 3 w
  s.setCore 0 { s.core 0 with cobble := true }

/-- Core 0 in a REP run with `n` iterations left. -/
def inRun (n : Nat) : State :=
  let s := slotAt 3 snop
  s.setCore 0 { s.core 0 with rep := some ⟨n, 1, [(2, .s 3 5 0xFFFFFFFF)]⟩ }

/-- REP with count `n` over the bundle whose SB word is `w`. -/
def repOver (n w : Nat) : State :=
  (slotAt 3 (opWord 3 0x23 + n)).writeMem (bundleAddr 0 16) (clean (leBytes 16 (bundle vnop vnop lnop w)))

theorem witness_SettLoopsAndFence :
    (∀ op ∈ [0x22, 0x24, 0x27], Claims.Turn (cobbleAt (opWord 3 op)) 0 3 op (opWord 3 op) ∧
      ((cobbleAt (opWord 3 op)).core 0).rep = none ∧ Claims.CleanBundle (cobbleAt (opWord 3 op)) 0) ∧
    (∀ n ∈ [0, 1, 0x3FFF], Claims.Turn (repOver n snop) 0 3 0x23 (opWord 3 0x23 + n) ∧
      ((repOver n snop).bundleNext 0).2 = false ∧ repForbids ((repOver n snop).bundleNext 0).1 = false) ∧
    (Claims.Turn (repOver 1 (opWord 3 0x1D)) 0 3 0x23 (opWord 3 0x23 + 1) ∧ ((repOver 1 (opWord 3 0x1D)).bundleNext 0).2 = false ∧
      repForbids ((repOver 1 (opWord 3 0x1D)).bundleNext 0).1 = true) ∧
    (∀ n ∈ [0, 1, 2], Claims.Turn (inRun n) 0 3 0x3F snop ∧ ((inRun n).core 0).rep = some ⟨n, 1, [(2, .s 3 5 0xFFFFFFFF)]⟩ ∧
      Claims.CleanBundle (inRun n) 0) := by
  refine ⟨?_, ?_, ⟨turn_of (by decide +kernel), by decide +kernel⟩, ?_⟩ <;> simp only [List.forall_mem_cons, List.not_mem_nil,
    false_imp_iff, implies_true, and_true]
  · exact ⟨⟨turn_of (by decide +kernel), rfl, clean_of rfl⟩, ⟨turn_of (by decide +kernel), rfl, clean_of rfl⟩,
      turn_of (by decide +kernel), rfl, clean_of rfl⟩
  · exact ⟨⟨turn_of (by decide +kernel), by decide +kernel⟩, ⟨turn_of (by decide +kernel), by decide +kernel⟩,
      turn_of (by decide +kernel), by decide +kernel⟩
  · exact ⟨⟨turn_of (by decide +kernel), rfl, clean_of rfl⟩, ⟨turn_of (by decide +kernel), rfl, clean_of rfl⟩,
      turn_of (by decide +kernel), rfl, clean_of rfl⟩

/-- What the slot's instruction adds to the bundle in execution. -/
def stagedBy (c : Instr) (s : State) : List (Nat × RegWrite) := ((after c s).core 0).stage.writes

/-- Core 0 at slot `j` with registers set. -/
def withRegs (j w : Nat) (ws : List RegWrite) : State :=
  let s := slotAt j w
  s.setCore 0 (ws.foldl Core.put (s.core 0))

/-- VADD wraps and VADDS clamps, lane by lane: 32,767 + 1 (R134). -/
theorem test_vadd_wraps : stagedBy (.vadd 0 0) (withRegs 0 (opWord 0 0x10 + 1 * 2 ^ 19 + 2 * 2 ^ 14 + 3 * 2 ^ 9)
    [.v 2 0x7FFF (2 ^ 512 - 1), .v 3 1 (2 ^ 512 - 1)]) = [(2, .v 1 0x8000 (vMask 0xFFFFFFFF))] := by decide +kernel

theorem test_vadds_clamps : stagedBy (.vadds 0 0) (withRegs 0 (opWord 0 0x11 + 1 * 2 ^ 19 + 2 * 2 ^ 14 + 3 * 2 ^ 9)
    [.v 2 0x7FFF (2 ^ 512 - 1), .v 3 1 (2 ^ 512 - 1)]) = [(2, .v 1 0x7FFF (vMask 0xFFFFFFFF)), (3, .sat true)] := by decide +kernel

/-- SADD through a whole bundle: the register is written and PC moves to the next bundle (R130, R137). -/
theorem test_sadd_retires :
    let t := after (.sadd 0) (withRegs 3 (opWord 3 0x01 + 5 * 2 ^ 17 + 6 * 2 ^ 12 + 7 * 2 ^ 7)
      [.s 6 0xFFFFFFFF 0xFFFFFFFF, .s 7 2 0xFFFFFFFF])
    (t.core 0).rS 5 = 1 ∧ (t.core 0).pc = 16 ∧ (t.core 0).stage.slot = 0 := by decide +kernel

/-- BLT compares signed values, D before A (R137): −1 < 1 takes the branch to bundle 9. -/
theorem test_blt_signed :
    let t := after (.blt 0) (withRegs 3 (opWord 3 0x1B + 5 * 2 ^ 17 + 6 * 2 ^ 12 + 9) [.s 5 0xFFFFFFFF 0xFFFFFFFF, .s 6 1 0xFFFFFFFF])
    (t.core 0).pc = 144 := by decide +kernel

/-- Core 0 at TRAP beside a load from a Course's store, which is far. -/
def trapFar : State := core0 (fun k => { k with stage := { k.stage with load := some ⟨0x40000000, 4, .word, 3, 0⟩ } })
  (slotAt 3 (opWord 3 0x28))

theorem witness_SettTaskEndsAndTraps :
    (∀ op ∈ [0x25, 0x26, 0x28], Claims.Turn (slotAt 3 (opWord 3 op)) 0 3 op (opWord 3 op) ∧
      ((slotAt 3 (opWord 3 op)).core 0).rep = none ∧ Claims.CleanBundle (slotAt 3 (opWord 3 op)) 0) ∧
    (∀ k ∈ [0, 3, 4, 7], Claims.Turn (slotAt 3 (opWord 3 0x29 + k)) 0 3 0x29 (opWord 3 0x29 + k) ∧
      ((slotAt 3 (opWord 3 0x29 + k)).cmu 0).depth 0 = 0) ∧
    (let s := cmu0 (fun x => { x with queues := [(0, [[]])] }) (slotAt 3 (opWord 3 0x29))
     Claims.Turn s 0 3 0x29 (opWord 3 0x29) ∧ (s.cmu 0).depth 0 = 1) ∧
    (let s := cmu0 (fun x => { x with addrErr := [(0, true)] }) (slotAt 3 (opWord 3 0x29))
     Claims.Turn s 0 3 0x29 (opWord 3 0x29) ∧ (s.cmu 0).depth 0 = 0 ∧ tget false (s.cmu 0).addrErr 0 = true) ∧
    (let k := (core0 (fun k => { k with ending := some (.done true), stores := [[]] }) State.reset).core 0
     k.ending = some (.done true) ∧ k.stores ≠ []) ∧
    (let s := cmu0 (fun x => { x with queues := [(0, [[]])] }) (core0 (fun k => { k with ending := some (.done true) }) State.reset)
     (s.core 0).ending = some (.done true) ∧ (s.core 0).stores = [] ∧ (s.cmu 0).depth 0 ≠ 0) ∧
    (let s := core0 (fun k => { k with ending := some (.done true) }) State.reset
     (s.core 0).ending = some (.done true) ∧ (s.core 0).stores = [] ∧ (s.cmu 0).depth 0 = 0 ∧ (s.core 0).storeErr = none) ∧
    ((255 : Nat) < 256 ∧ (3 : Nat) < 4 ∧ (2 ^ 40 - 1 : Nat) < 2 ^ 40 ∧ (State.reset.core 0).storeErr = none ∧
      (State.reset.core 0).rep = none) ∧
    (Claims.Turn trapFar 0 3 0x28 (opWord 3 0x28) ∧ (trapFar.core 0).rep = none ∧ (trapFar.core 0).stage.excs = [] ∧
      (trapFar.core 0).stage.load = some ⟨0x40000000, 4, .word, 3, 0⟩ ∧ trapFar.whereIs 0 0x40000000 = .far) := by
  refine ⟨?_, ?_, ⟨turn_of (by decide +kernel), by decide +kernel⟩, ⟨turn_of (by decide +kernel), by decide +kernel⟩,
    by decide +kernel, by decide +kernel, by decide +kernel, by decide +kernel, ⟨turn_of (by decide +kernel), by decide +kernel⟩⟩ <;>
    simp only [List.forall_mem_cons, List.not_mem_nil, false_imp_iff, implies_true, and_true]
  · exact ⟨⟨turn_of (by decide +kernel), slotAt_rep 3 _, clean_of (slotAt_clean 3 _)⟩,
      ⟨turn_of (by decide +kernel), slotAt_rep 3 _, clean_of (slotAt_clean 3 _)⟩,
      turn_of (by decide +kernel), slotAt_rep 3 _, clean_of (slotAt_clean 3 _)⟩
  · exact ⟨⟨turn_of (by decide +kernel), by decide +kernel⟩, ⟨turn_of (by decide +kernel), by decide +kernel⟩,
      ⟨turn_of (by decide +kernel), by decide +kernel⟩, turn_of (by decide +kernel), by decide +kernel⟩

/-- Core 0 may start: CORE_EN of Course 0, and an entry at its slot's head. -/
def startable : State := slotted 0 0x0011 0x1234567890 (fields [(Reg.COURSE.CTL_CORE_EN, 0, 0xFF)] State.reset)

/-- Core 0 at an illegal bundle: opcode 0x3E in the SB slot. -/
def illegalAt : State := coreAt 0 (bundle vnop vnop lnop (opWord 3 0x3E))

/-- Core 0 waiting for a load at an address, as its bundle's LS slot left it. -/
def loadingAt (a : Nat) : State := core0 (fun k => { k with
  remote := true, stage := { k.stage with load := some ⟨a, 4, .word, 3, 0⟩ } }) (slotAt 3 snop)

theorem witness_SettCoreEvents :
    ((startable.core 0).task = none ∧ startable.mayStart 0 = true ∧ ∃ p, startable.startHead 0 = some p) ∧
    (Claims.Busy illegalAt 0 ∧ (illegalAt.core 0).stage.slot = 0 ∧ illegalAt.mayIssue 0 = true ∧
      (illegalAt.core 0).illegalSlot (illegalAt.bundleNow 0).1 = some 3) ∧
    (∀ x ∈ [(0x40000000, BusStatus.ok), (0x10000000, .decodeError)],
      (loadingAt x.1).running 0x11 0 = true ∧ ((loadingAt x.1).core 0).remote = true ∧
      ((loadingAt x.1).core 0).stage.load = some ⟨x.1, 4, .word, 3, 0⟩ ∧ ((loadingAt x.1).core 0).stores = [] ∧
      ((loadingAt x.1).core 0).stage.excs = [] ∧
      ∃ l u, (loadingAt x.1).remoteRead 0 x.1 4 = (x.2, l, u)) ∧
    ((core0 (fun k => { k with stores := [[(0x40000000, [1])]] }) State.reset).core 0).stores = [[(0x40000000, [1])]] ∧
    (let s := fields [(Reg.SETT.CTL_WDOG_EN, 0, 1)] (slotAt 0 vnop)
     s.running 0x11 0 = true ∧ (s.core 0).task.isSome = true ∧ s.bit Reg.SETT.CTL_WDOG_EN 0 = true ∧ (s.core 0).halted = false ∧
       (s.core 0).rep = none ∧ (s.core 0).ending ≠ some (.exc 0x08)) ∧
    Claims.Hits State.reset 9 0x11 191 0x000 191 ∧ Claims.Hits State.reset 9 0x10 23 0x000 23 ∧
    (let s := fields [(Reg.SETT.CTL_HALT_REQ, 0, 1)] (slotAt 0 vnop)
     s.bit Reg.SETT.CTL_HALT_REQ 0 = true ∧ (s.core 0).halted = false ∧ s.running 0x11 0 = true ∧ (s.core 0).stage.slot = 0 ∧
       (s.core 0).remote = false ∧ (s.core 0).rep = none) := by
  simp only [List.forall_mem_cons, List.not_mem_nil, false_imp_iff, implies_true, and_true]
  and_intros <;> first
    | decide +kernel
    | exact some_of (by decide +kernel)
    | exact triple_of (by decide +kernel)

/-- A load that returns to a bundle that also has a TRAP. -/
def loadingBesideTrap : State :=
  core0 (fun k => { k with stage := { k.stage with excs := [⟨0x0A, 3, 0, 1⟩] } }) (loadingAt 0x10000000)

theorem witness_LoadBesideTrap :
    loadingBesideTrap.running 0x11 0 = true ∧ (loadingBesideTrap.core 0).remote = true ∧
    (loadingBesideTrap.core 0).stage.load = some ⟨0x10000000, 4, .word, 3, 0⟩ ∧ (loadingBesideTrap.core 0).stores = [] ∧
    (loadingBesideTrap.core 0).stage.excs ≠ [] ∧ ∃ l u, loadingBesideTrap.remoteRead 0 0x10000000 4 = (.decodeError, l, u) := by
  refine ⟨?_, ?_, ?_, ?_, ?_, triple_of ?_⟩ <;> decide +kernel

/-- TAKE_WAKE: the argument in A0, the index in S0, IDEMPOTENT in S1, the target's bundle in PC, Cobble from bit 0 (R116). -/
theorem test_take_wake : let k := (after (.takeWake 0) startable).core 0
    k.rA 0 = 0x1234567890 ∧ k.rS 0 = 5 ∧ k.rS 1 = 4 ∧ k.pc = 0x10 ∧ k.cobble = true ∧ k.task = some 5 := by decide +kernel

/-! ## Course matrix units -/

theorem cmuRuns_of {s : State} {n op : Nat} {r : CmuRun} (h : decide ((s.cmu n).cur = some r) && r.op == op && !r.computed &&
    s.running 0x12 n && s.cmuInside n r = true) : Claims.CmuRuns s n op r := by
  simp only [Bool.and_eq_true, decide_eq_true_eq, beq_iff_eq, Bool.not_eq_true'] at h
  exact ⟨h.1.1.1.1, h.1.1.1.2, h.1.1.2, h.1.2, h.2⟩

theorem witness_CmuProductsAreExact : ∀ op ∈ [0, 1, 2],
    Claims.CmuRuns (cmuAt (cmuWords op) false) 0 op (cmuRun (cmuWords op) false) ∧ (cmuRun (cmuWords op) false).f 0 28 28 = 0 := by
  simp only [List.forall_mem_cons, List.not_mem_nil, false_imp_iff, implies_true, and_true]
  exact ⟨⟨cmuRuns_of (by decide +kernel), by decide +kernel⟩, ⟨cmuRuns_of (by decide +kernel), by decide +kernel⟩,
    cmuRuns_of (by decide +kernel), by decide +kernel⟩

theorem witness_CmuCommandsComplete :
    (let s := cmu0 (fun x => { x with queues := [(2, [cmuWords 0])] }) State.reset
     (s.cmu 0).cur = none ∧ s.running 0x12 0 = true ∧ rrPick 8 (s.cmu 0).last (fun k => !(tget [] (s.cmu 0).queues k).isEmpty) = some 2 ∧
       tget [] (s.cmu 0).queues 2 = [cmuWords 0]) ∧
    (∀ op ∈ [3, 4, 5, 6], Claims.CmuRuns (cmuAt (cmuWords op) false) 0 op (cmuRun (cmuWords op) false)) ∧
    (let r := cmuRun ((cmuWords 0).set 5 0x40400000) false
     (cmuAt r.words false).cmuInside 0 r = false ∧ r.op = 0 ∧ (cmuAt r.words false).running 0x12 0 = true) ∧
    (∀ op ∈ [7, 15], 7 ≤ (cmuRun (cmuWords op) false).op) ∧
    ((cmuAt (cmuWords 0) true).cmu 0).cur = some (cmuRun (cmuWords 0) true) := by
  refine ⟨by decide +kernel, ?_, by decide +kernel, by decide +kernel, by decide +kernel⟩
  simp only [List.forall_mem_cons, List.not_mem_nil, false_imp_iff, implies_true, and_true]
  exact ⟨cmuRuns_of (by decide +kernel), cmuRuns_of (by decide +kernel), cmuRuns_of (by decide +kernel), cmuRuns_of (by decide +kernel)⟩

/-! ## Coding engines -/

/-- Engine `u` with TAKE_EN set and task 5, of job type `code`, at its slot's head; the descriptor stands at 0x40000000. -/
def jobAtHead (u code : Nat) : State :=
  slotted u (BitVec.ofNat 16 code) 0x40000000 (State.reset.setE u Reg.LDPC_DEC.CTL_TAKE_EN 1)

/-- An engine with its own state. -/
def engineAt (u : Nat) (f : Engine → Engine) : State := State.reset.setEng u (f Engine.reset)

def aJob (st : Option Nat) : EngJob := ⟨5, [0, 0, 0, 7], st, false, false, false⟩

theorem witness_EngineJobsRun :
    (∀ x ∈ [(192, 1), (207, 1), (208, 2), (215, 2), (208, 3), (216, 4), (216, 5), (220, 6), (220, 7), (224, 8), (231, 8)],
      (jobAtHead x.1 x.2).engMayTake x.1 = true ∧ (jobAtHead x.1 x.2).headJob x.1 = some x.2) ∧
    (∀ u ∈ [192, 208, 216, 220, 224], ∃ i t a bytes v, (jobAtHead u 1).startHead u = some (i, t, a) ∧
      ((a.setE u Reg.LDPC_DEC.STATUS_STATE 1).setE u Reg.LDPC_DEC.STATUS_TASK i).engGet u (t.arg.toNat / 64 * 64) 64 =
        (true, bytes, v)) ∧
    (∃ x ∈ [6, 2, 4], State.reset.engMay (jobAddr ((List.replicate 16 0).set 2 0x80000000) x) = false) ∧
    ((∃ b, State.reset.region 0 = .treasury b) ∧ (∃ n, State.reset.region 0x45FFFFFF = .course n) ∧
      ∃ c l, State.reset.region 0x100000000 = .bulk c l) := by
  refine ⟨by decide +kernel, ?_, by decide +kernel, ⟨_, rfl⟩, ⟨_, rfl⟩, ?_⟩
  · intro u hu
    have h : [192, 208, 216, 220, 224].all (fun u => match (jobAtHead u 1).startHead u with
        | some (i, t, a) =>
          (((a.setE u Reg.LDPC_DEC.STATUS_STATE 1).setE u Reg.LDPC_DEC.STATUS_TASK i).engGet u (t.arg.toNat / 64 * 64) 64).1
        | none => false) = true := by decide +kernel
    have := List.all_eq_true.1 h u hu
    split at this
    · rename_i i t a e
      exact ⟨i, t, a, (triple_of this).elim fun b hb => hb.elim fun v hv => ⟨b, v, e, hv⟩⟩
    · cases this
  · have h : (match State.reset.region 0x100000000 with | .bulk _ _ => true | _ => false) = true := by decide +kernel
    split at h
    · exact ⟨_, _, by assumption⟩
    · cases h

theorem witness_EngineEventsComplete :
    (let s := engineAt 192 (fun e => { e with job := some (aJob (some 0x40000000)) })
     (s.eng 192).job = some (aJob (some 0x40000000)) ∧ s.running 0x18 0 = true) ∧
    ((engineAt 231 (fun e => { e with job := some (aJob none) })).eng 231).job = some (aJob none) ∧
    ((jobAtHead 208 1).headJob 208 = some 1 ∧ (jobAtHead 208 1).engMayTake 208 = true ∧ 1 ∉ jobTypes (unitOf 208).1) ∧
    (let s := (engineAt 216 (fun e => { e with job := some (aJob none) })).setE 216 Reg.LDPC_DEC.CTL_WDOG_EN 1
     (s.eng 216).job = some (aJob none) ∧ s.getE 216 Reg.LDPC_DEC.CTL_WDOG_EN ≠ 0 ∧ s.running (unitOf 216).1 (unitOf 216).2 = true) ∧
    (let s := (jobAtHead 192 1).setE 192 Reg.LDPC_DEC.CTL_WDOG_EN 1
     s.slot 192 = [5] ∧ s.headJob 192 = some 1 ∧ s.engMayTake 192 = true ∧ s.getE 192 Reg.LDPC_DEC.CTL_WDOG_EN ≠ 0) ∧
    ((engineAt 220 (fun e => { e with hung := some 5 })).eng 220).hung = some 5 ∧
    (Claims.Hits State.reset 9 0x18 15 0x000 15 ∧ Claims.Hits State.reset 9 0x1C 7 0x000 7 ∧ (0 : Word).getLsbD 0 = false ∧
      (1 : Word).getLsbD 0 = true) ∧
    (let s := engineAt 192 (fun e => { e with image := some (1, 131072, 9) })
     (s.eng 192).image = some (1, 131072, 9) ∧ (s.eng 192).loaded = false ∧ imageFits 0x18 1 131072 = true ∧
       imageFits 0x18 1 131073 = false) ∧
    (let s := engineAt 192 (fun e => { e with image := some (1, 131072, 9), loaded := true })
     (s.eng 192).loaded = true ∧ (s.eng 192).job = none ∧ (s.eng 192).hung = none ∧ s.running 0x18 0 = true) := by
  and_intros <;> decide +kernel

/-- JOB_END frees the engine and counts the job (R147). -/
theorem test_job_end : let s := after (.jobEnd 39) (engineAt 231 (fun e => { e with job := some (aJob none) }))
    (s.eng 231).job = none ∧ s.getE 231 Reg.LDPC_DEC.JOBS_COUNT = 1 ∧ s.getE 231 Reg.LDPC_DEC.STATUS_STATE = 0 := by decide +kernel

/-! ## Witness -/

/-- A formed leaf of VSTREAM 3 with one unit. -/
def aLeaf : Leaf := ⟨3, 1, 9, 28, 0, 0, 1, 0, 0, 0, 0, 0, 0, false, [List.replicate 28 (1, false)], false⟩

/-- The Vault with a ring of `n` leaves, a formed leaf and `staged` in the buffer. -/
def vaultWith (n : Nat) (staged : List Staged) : State := State.reset.setVault
  { Vault.reset with len := n, formed := [(3, [aLeaf])], staged := staged }

def stagedLeaf : Staged := ⟨0x100000000, 0, 0, 3, [(0, false)]⟩

theorem witness_VaultLeafGrants :
    (∀ n ∈ [0, 1], (vaultWith n []).running 0x30 0 = true ∧ (vaultWith n []).modes.mode ≠ .banked ∧ (vaultWith n []).leafTurn = some 3 ∧
      tget [] (vaultWith n []).vault.formed 3 = [aLeaf] ∧ (vaultWith n []).rgnsFree = true ∧ (vaultWith n []).vault.pendGeom = false ∧
      aLeaf.src = 3) ∧
    (let s := vaultWith 1 (List.replicate 448 { stagedLeaf with bytes := [] })
     448 ≤ (s.vault.staged.filter (fun e => decide (128 ≤ e.src) == decide (128 ≤ 3))).length ∧ 0 < s.vault.len) ∧
    (let s := vaultWith 1 (List.replicate 447 { stagedLeaf with bytes := [] })
     (s.vault.staged.filter (fun e => decide (128 ≤ e.src) == decide (128 ≤ 3))).length < 448) ∧
    (let s := (vaultWith 1 [stagedLeaf]).setVault { (vaultWith 1 [stagedLeaf]).vault with ring := [(0, ⟨0, 3, 0, false⟩)] }
     s.vault.staged = [stagedLeaf] ∧ tfind s.vault.ring 0 = some ⟨0, 3, 0, false⟩ ∧
     ∃ st u, (s.setVault { s.vault with staged := [] }).busPut (56 + stagedLeaf.seq % 2) 0 stagedLeaf.addr stagedLeaf.bytes = (st, u)) :=
by
  refine ⟨?_, ?_, ?_, ?_⟩
  · decide +kernel
  · decide +kernel
  · decide +kernel
  · exact ⟨by decide +kernel, by decide +kernel, _, _, Prod.mk.eta.symm⟩

/-- A trigger of the command source waiting, with region 0 taken where `taken`. -/
def triggered (taken : Bool) (last devclk : Nat) : State :=
  let s := fields ([(Reg.VAULT.TRIG_SRC_HOLDOFF, 0, 1)] ++ if taken then [(Reg.VAULT.RGN_STATE 0, 0, 1)] else [])
    { State.reset with devclk := BitVec.ofNat 64 devclk }
  s.setVault { s.vault with trig := [(0, 9)], lastTrig := [(0, last)] }

theorem witness_VaultTriggersAndRegions :
    (Claims.Hits State.reset 9 0x30 0 0x000 0 ∧ State.reset.fld Reg.VAULT.CTL_EN 0 = 0 ∧ State.reset.vault.pendGeom = false ∧
      (fields [(Reg.VAULT.CTL_EN, 0, 1)] State.reset).fld Reg.VAULT.CTL_EN 0 = 1) ∧
    (Claims.Hits State.reset 9 0x30 0 0x004 0 ∧ Claims.Hits State.reset 9 0x30 0 0x00C 0 ∧ State.reset.rgnsFree = true) ∧
    Claims.Hits State.reset 9 0x30 0 0x040 0 ∧
    (bitOf (State.reset.fld Reg.PINS.GPIO_OE_OE 0) 31 = false ∧ (State.reset.reg 0x63 0 0x018).getLsbD 31 ≠ true) ∧
    (∀ x ∈ [(false, 0, 5), (true, 0, 5), (false, 1, 9999), (false, 1, 10000)],
      (triggered x.1 x.2.1 x.2.2).running 0x30 0 = true ∧ rrPick 35 (triggered x.1 x.2.1 x.2.2).vault.lastSrc
        (fun k => (triggered x.1 x.2.1 x.2.2).vault.trig.any (fun t => t.1 == k)) = some 0 ∧
      (triggered x.1 x.2.1 x.2.2).vault.trig.find? (fun t => t.1 == 0) = some (0, 9)) ∧
    (Claims.Hits State.reset 9 0x30 0 0x044 0 ∧ State.reset.fld (Reg.VAULT.RGN_EXPORTING 15) 0 = 0) := by
  and_intros <;> decide +kernel

/-- A trigger within the hold-off is refused at 9,999 DEVCLK cycles after the last one and taken at 10,000 (R225: units of 100 µs). -/
theorem test_holdoff : (after .triggerGrant (triggered false 1 9999)).fld Reg.VAULT.TRIG_REFUSED_COUNT 0 = 1 ∧
    (after .triggerGrant (triggered false 1 10000)).fld Reg.VAULT.TRIG_COUNT_COUNT 0 = 1 := by decide +kernel

/-- Detector 0 on, with its own state. -/
def tallyAt (f : Tally → Tally) : State := (fields [(Reg.TALLY.CTL_EN, 0, 1)] State.reset).setTally 0 (f Tally.reset)

def aPeak : Peak := ⟨0, 4, (1, 0), (0, 0), (0, 0), 1, 1, 0, 0, 0, 16⟩

def aRecep : Recep where
  p := 0
  power := 0
  rho := 0
  freq := 0
  stamp := 0
  tc := 0
  ctl := 0
  rate := 1
  frame := 1
  outLo := 0
  outHi := 0
  outCfg := 0
  template := 0
  slot := 0
  k := 0
  h := (1, 0)
  hd := 1
  hdr := []
  total := none
  data := 0
  written := 0
  bits := []
  bytes := 0
  full := false

theorem witness_TallyEventsComplete :
    ((tallyAt (fun t => { t with blkN := 1024 })).tallyEvent 0).1 = 2 ∧
    (((tallyAt (fun t => { t with search := some aPeak, n := 13 })).tallyEvent 0).1 = 3 ∧
      (((tallyAt (fun t => { t with search := some aPeak, n := 13 })).tallyEvent 0).2.tally 0).search = some aPeak) ∧
    (((tallyAt (fun t => { t with rx := some aRecep, n := 100, hist := List.replicate 100 (1, 0) })).tallyEvent 0).1 = 1 ∧
      wordField aRecep.frame 7 0 ≠ 0 ∧ aRecep.k % (wordField aRecep.frame 7 0 + 1) = 0) ∧
    0 < ((tallyAt (fun t => { t with acks := 1 })).tally 0).acks ∧
    ((31 : BitVec 10).toNat < 0x200 ∧ Claims.Hits State.reset 9 0x32 31 0x068 31) := by
  and_intros <;> decide +kernel

/-! ## Stream channels -/

/-- The timing reference has locked: the time bases run from 0. -/
def timed : State := after .timingLock State.reset

/-- A time base at a given nanosecond of its second 0. -/
def atNs (n ns : Nat) (s : State) : State := s.setTb n { s.tb n with ns := ns }

/-- A stream channel with fields in effect, as (register field, value), and its own state changed. -/
def channel (c : Nat) (l : List (Field × Nat)) (f : Strm → Strm) (s : State) : State :=
  let x := s.strm c
  let d (off : Nat) : Word := resetWord (strmUnit c).1 (strmUnit c).2 off
  s.setStrm c (f { x with eff := l.foldl (fun e p => tset (d p.1.off) e p.1.off
    (putField (tget (d p.1.off) e p.1.off) p.1.msb p.1.lsb p.2)) x.eff })

/-- A symbol in a channel's hands. -/
def aSym (prach : Bool) : SymJob := ⟨0, 0, prach, 0, false, true, 0, 0, [(1, 1)], [], 0, []⟩

/-- A PRACH occasion with samples for a repetition. -/
def aPrach : Prach := ⟨0, [], 0, 0, List.replicate 1024 (0, 0), List.replicate 1024 false⟩

theorem witness_CommitsApplyWhole :
    (Claims.Hits State.reset 9 0x08 511 0x060 511 ∧ Claims.Hits State.reset 9 0x09 511 0x060 511 ∧ (1 : Word).getLsbD 0 = true ∧
      (State.reset.strm 511).locked = false ∧ ((channel 511 [] (fun x => { x with locked := true }) State.reset).strm 511).locked = true) ∧
    (timed.timeRuns = true ∧ (timed.strm 0).lockDone = false ∧ ((atNs 0 71774 timed).handOver 0).1 ≤ 256) ∧
    (timed.running (strmUnit 1023).1 (strmInst 1023) = true ∧ (timed.strm 1023).waiting = false ∧
      (timed.strm 1023).cur ≠ some (timed.chCode 1023 (timed.chGrid 1023 0)) ∧ timed.sbit 1023 Reg.STRM_RX.CTL_COMMIT_SLOT = false ∧
      (channel 1023 [(Reg.STRM_RX.CTL_COMMIT_SLOT, 1)] id timed).sbit 1023 Reg.STRM_RX.CTL_COMMIT_SLOT = true) := by
  and_intros <;> decide +kernel

/-- A commit at a boundary: what was pending is in effect after it, and LATE is 0 (R90, R92). -/
theorem test_commit :
    let s := after (.symbolBoundary 0) (channel 0 [] (fun x => { x with pend := some ⟨[(0x040, 7)], none, []⟩ }) timed)
    (s.strm 0).eff = [(0x040, 7)] ∧ (s.strm 0).pend = none := by decide +kernel

/-- STRM_TX[0] enabled with every symbol of its first slot active. -/
def txActive : State := channel 512 [(Reg.STRM_RX.CTL_ENABLE, 1), (Reg.STRM_RX.PATTERN_CTL_PATTERN_LEN, 1),
  (Reg.STRM_RX.PATTERN_MASK_EVEN 0, 0x3FFF)] id (inMode .service timed)

theorem witness_SymbolsPassOn :
    (let s := channel 5 [] (fun x => { x with toFft := [aSym false] }) State.reset
     (s.strm 5).toFft = [aSym false] ∧ s.fftGrant 0 = some 5 ∧ s.powered 0x0A 0 = true ∧ s.fencedUnit 0x0A 0 = false ∧ (s.fftQueue 0).length < 8 ∧
       8 ≤ ((s.setFft 0 (List.replicate 8 (1, aSym false))).fftQueue 0).length) ∧
    (((State.reset.setFft 31 [(1023, aSym false)]).fftQueue 31) = [(1023, aSym false)] ∧
      (State.reset.setFft 31 [(1023, aSym false)]).running 0x0A 31 = true) ∧
    ((channel 7 [] (fun x => { x with writing := [aSym false] }) State.reset).strm 7).writing = [aSym false] ∧
    (((channel 7 [(Reg.STRM_RX.PRACH_KEY_KEY_EN, 1)] (fun x => { x with headed := [{ aSym true with eff := x.eff }] }) State.reset).strm 7).headed.map
      (fun j => (j.prach, effFld 7 j.eff Reg.STRM_RX.PRACH_KEY_KEY_EN)) = [(true, 1)]) ∧
    (let s := channel 7 [(Reg.STRM_RX.CTL_ENABLE, 1)] (fun x => { x with prach := [aPrach] }) timed
     (s.strm 7).prach = [aPrach] ∧ s.chRuns 7 = true ∧
       fftSize (effFld 7 aPrach.eff Reg.STRM_RX.PRACH_CTL_PR_FFT) * max 1 (effFld 7 aPrach.eff Reg.STRM_RX.PRACH_CTL_DECIM) ≤
         aPrach.got.length) ∧
    (txActive.chRuns 512 = true ∧ (txActive.strm 512).waiting = false ∧ (txActive.strm 512).stopped = false ∧
      txActive.chActive 512 (txActive.chCode 512 (txActive.chGrid 512 (64 * txActive.sfld 512 Reg.STRM_TX.TX_LEAD_LEAD))) = true ∧
      (txActive.strm 512).readSym = none) ∧
    ((channel 513 [] (fun x => { x with reading := [aSym false] }) State.reset).strm 513).reading = [aSym false] ∧
    (txActive.bit Reg.STRM_TX.STATUS_PA_ON 0 ≠ txActive.paWanted 512) ∧ Claims.Hits State.reset 9 0x0A 31 0x008 31 := by
  and_intros <;> decide +kernel

/-! ## Time -/

theorem witness_TimeBasesStepAndSteer :
    State.reset.timeRuns = false ∧ (Claims.Hits State.reset 9 0x60 3 0x024 3 ∧ timed.timeRuns = true) ∧
    (Claims.Hits State.reset 9 0x60 3 0x028 3 ∧ Claims.Hits State.reset 9 0x60 3 0x02C 3) ∧
    (Claims.Hits (fields [(Reg.TB.SERVO_CTL_SOURCE, 3, 1)] State.reset) 9 0x60 3 0x050 3 ∧
      (fields [(Reg.TB.SERVO_CTL_SOURCE, 3, 1)] State.reset).fld Reg.TB.SERVO_CTL_SOURCE 3 = 1) ∧
    (let s := fields [(Reg.TB.SERVO_CTL_STEP_EN, 0, 1), (Reg.TB.SERVO_THRESH_STEP_THRESH, 0, 10), (Reg.TB.SERVO_CTL_SOURCE, 0, 2)] timed
     s.timeRuns = true ∧ s.fld Reg.TB.SERVO_CTL_STEP_EN 0 = 1 ∧ s.fld Reg.TB.SERVO_THRESH_STEP_THRESH 0 * 65536 ≤ (-655360 : Int).natAbs ∧
       s.fld Reg.TB.SERVO_CTL_SOURCE 0 = 2) ∧
    ¬ timed.fld Reg.TB.SERVO_THRESH_STEP_THRESH 0 * 65536 ≤ (200 * 65536 : Int).natAbs ∧
    (let s := fields [(Reg.TB.SERVO_CTL_SOURCE, 0, 2)] timed
     let t := s.setTb 0 { s.tb 0 with lastPps := some 0, sec := 1 }
     s.fld Reg.TB.SERVO_CTL_SOURCE 0 = 2 ∧ (s.tb 0).lastPps = none ∧
       ¬ ((((t.tb 0).stamp / 1024 * 1024 : Nat) : Int) - 0 < stampSecond / 2)) ∧
    (let s := { fields [(Reg.TB.SERVO_CTL_SOURCE, 1, 1), (Reg.TB.SERVO_HOLD_HOLD_MS, 1, 1)] timed with devclk := 100000 }
     s.fld Reg.TB.SERVO_STATUS_STATE 1 ≠ 3 ∧
       max 1 (s.fld Reg.TB.SERVO_HOLD_HOLD_MS 1) * 100000 ≤ s.devclk.toNat - (s.tb 1).lastSample) ∧
    Claims.Hits State.reset 9 0x60 3 0x030 3 ∧
    (State.reset.fld Reg.TB.SERVO_STATUS_REF_LOST 0 = 0 ∧
      (fields [(Reg.TB.SERVO_STATUS_REF_LOST, 0, 1)] State.reset).fld Reg.TB.SERVO_STATUS_REF_LOST 0 = 1 ∧
      (fields [(Reg.TB.SERVO_STATUS_REF_LOST, 0, 1)] State.reset).refThere = true) ∧
    (Claims.Hits timed 9 0x60 0 0x02C 0 ∧ timed.timeRuns = true) ∧
    State.reset.readTarget 0x60 3 0x000 = some 3 := by
  and_intros <;> decide +kernel

/-- R363's worked example: reset gains, an offset of +200 ns, I −60.2 ppb and FREQ −200.0 ppb to one decimal (in 2^-24 ppb). -/
theorem test_servo : let b := (timed.servoSample 0 (200 * 65536) true).tb 0
    (b.integral * 10 + 2 ^ 23) / 2 ^ 24 = -602 ∧ (b.freq * 10 + 2 ^ 23) / 2 ^ 24 = -2000 := by decide +kernel

theorem witness_EdgesFireInOrder :
    (Claims.Hits State.reset 9 0x62 15 0x01C 15 ∧ (State.reset.pin 15).queue.length < 16 ∧
      16 ≤ ((State.reset.setPin 15 ⟨List.replicate 16 ⟨5, true, 0, 1⟩, false, none⟩).pin 15).queue.length) ∧
    (let s := timed.setPin 3 ⟨[⟨0, true, 0, 1⟩, ⟨5, false, 0, 1⟩], false, none⟩
     s.timeRuns = true ∧ (∃ e ∈ (s.pin 3).queue, e.t ≤ s.pinTime 3)) ∧
    (Claims.Hits State.reset 9 0x62 15 0x008 15 ∧ (1 : Word).getLsbD 0 = true) ∧
    ((timed.pin 4).slot = none) ∧
    (let s := fields [(Reg.TB.PPS_OUT_EN, 2, 1)] timed
     s.ppsDriver = some 2 ∧ (s.ppsTime 2).2 < 20 ∧ (s.tb 2).ppsLast ≠ some (s.ppsTime 2).1.toNat) ∧
    (let s : State := { timed with time := { timed.time with ppsOut := true } }
     s.time.ppsOut = true ∧ s.ppsDriver = none) := by
  and_intros <;> decide +kernel

/-- Two entries due at once: both fire, and SCHED is the level of the later (R369). -/
theorem test_edges : let s := after (.tddEdgeFire 3) (timed.setPin 3 ⟨[⟨-1, true, 0, 1⟩, ⟨-2, false, 0, 1⟩, ⟨5, false, 0, 1⟩], false, none⟩)
    (s.pin 3).queue = [⟨5, false, 0, 1⟩] ∧ (s.pin 3).sched = true := by decide +kernel

/-! ## Lanes and the Ahnent link -/

/-- Quad 0 an Ahnent quad that is ready, with lane 0 in a transmit and a receive state, other fields set, and the lane's own state. -/
def ahnent (tx rx : Nat) (l : List (Field × Nat × Nat)) (f : AhnLane → AhnLane) : State :=
  let s := fields ([(Reg.LANEQ.PROTO_PROTOCOL, 0, 1), (Reg.LANEQ.STATUS_PLL_LOCK, 0, 1), (Reg.AHNENT.LANE_STATUS_TX_STATE 0, 0, tx),
    (Reg.AHNENT.LANE_STATUS_RX_STATE 0, 0, rx)] ++ l) (inMode .service timed)
  s.setAhn 0 (f (s.ahn 0))

theorem witness_LanesAndLinkEvents :
    State.reset.fld Reg.SYS.RAISE_STATUS_LANES_CAL 0 = 0 ∧
    (let s := fields [(Reg.LANEQ.STATUS_SWITCHING, 11, 1)] State.reset
     s.fld Reg.LANEQ.STATUS_SWITCHING 11 = 1 ∧ tget none s.lanes.held 11 = none ∧
       tget none ({ s with lanes := { s.lanes with held := [(11, some 9)] } } : State).lanes.held 11 = some 9) ∧
    (Claims.Hits State.reset 9 0x51 47 0x014 47 ∧ (1 : Word).getLsbD 0 = true ∧ State.reset.fld Reg.LANE.STATUS_RECAL_BUSY 47 = 0) ∧
    (let s := fields [(Reg.LANE.STATUS_RECAL_BUSY, 47, 1)] State.reset
     s.fld Reg.LANE.STATUS_RECAL_BUSY 47 = 1 ∧ s.quadProto 11 = 0) ∧
    (let s := fields [(Reg.LANE.STATUS_RECAL_BUSY, 0, 1)] (ahnent 4 3 [(Reg.LANE.STATUS_IDLE, 0, 1)] id)
     s.quadProto 0 = 1 ∧ s.inGap 0 = false ∧ ({ s with devclk := 200 } : State).inGap 0 = true ∧
       100000000 ≤ ({ s with devclk := 100000000 } : State).devclk.toNat + 1 - tget 0 s.lanes.recal 0 ∧
       s.devclk.toNat + 1 - tget 0 s.lanes.recal 0 < 100000000 ∧
       tget false s.lanes.gap 0 = false ∧ tget false ({ s with lanes := { s.lanes with gap := [(0, true)] } } : State).lanes.gap 0 = true) ∧
    (State.reset.fld Reg.LANE.CTL_ADAPT_EN 0 = 1 ∧ (fields [(Reg.LANE.CTL_ADAPT_EN, 0, 0)] State.reset).fld Reg.LANE.CTL_ADAPT_EN 0 = 0 ∧
      (let s := fields [(Reg.LANE.STATUS_CDR_LOCK, 0, 1)] State.reset
       (∀ i, i < (if 2 ≤ s.quadRate 0 then 4 else 2) → s.fld Reg.LANE.GATE_MIN_LEVEL 0 ≤ [1024, 1024, 1024, 1024].getD i 0) ∧
       s.fld Reg.LANE.GATE_MIN_TRANS 0 ≤ 4096 ∧ s.fld Reg.LANE.STATUS_CDR_LOCK 0 = 1 ∧ s.rxState 0 ≠ 4)) ∧
    (Claims.Hits State.reset 9 0x51 0 0x000 0 ∧ (ahnent 0 0 [] id).quadProto 0 = 1 ∧ (ahnent 0 0 [] id).quadReady 0 = true ∧
      State.reset.quadReady 0 = false) ∧
    ((ahnent 3 3 [] id).quadReady 0 = true ∧ (ahnent 3 3 [] id).txState 0 = 3 ∧ ((ahnent 3 3 [] id).ahn 0).idleIn ≠ some 0 ∧
      (ahnent 3 3 [] id).fld Reg.LANE.PRBS_TX_PRBS 0 = 0 ∧ (ahnent 3 3 [] id).protPair 0 = none ∧ (ahnent 3 3 [] id).modes.mode ≠ .raising ∧
      (inMode .raising (ahnent 3 3 [] id)).modes.mode = .raising ∧
      ((ahnent 3 3 [] (fun x => { x with idleIn := some 0 })).ahn 0).idleIn = some 0 ∧
      (ahnent 3 3 [(Reg.AHNENT.PROTECT_EN, 0, 1), (Reg.AHNENT.PROTECT_WORK, 0, 1)] id).protPair 0 = some (1, 0)) ∧
    (∀ r ∈ [0, 1, 2, 3, 4], (ahnent 0 r [] id).rxState 0 = r) ∧
    (let s := { ahnent 1 1 [] id with devclk := 1000000 }
     s.rxState 0 = 1 ∧ s.txState 0 = 1 ∧ max 1 (s.fld Reg.AHNENT.TIMING_TRAIN_US 0) * 100 ≤ s.devclk.toNat - (s.ahn 0).rxSince ∧
       max 1 (s.fld Reg.AHNENT.TIMING_TRAIN_US 0) * 100 ≤ s.devclk.toNat - (s.ahn 0).txSince ∧ s.modes.mode ≠ .raising) ∧
    (let s := { ahnent 2 2 [] id with devclk := 1000000 }
     s.rxState 0 = 2 ∧ max 1 (s.fld Reg.AHNENT.TIMING_RETRAIN_US 0) * 100 ≤ s.devclk.toNat - (s.ahn 0).rxSince) ∧
    (let s := ahnent 3 3 [(Reg.AHNENT.CTL_IDLE_EN, 0, 1)] id
     s.fld Reg.AHNENT.CTL_IDLE_EN 0 = 1 ∧ s.txState 0 = 3 ∧ (s.ahn 0).idleIn = none ∧
       s.laneNeeds 0 (nsTc (max 1 (s.fld Reg.AHNENT.IDLE_CFG_IDLE_MIN 0) * 100 + 64) + s.mfTc 0 (s.cwLead 0 + 2)) = false) ∧
    (let s := ahnent 4 3 [] (fun x => { x with words := [⟨0, 1, 0, 0⟩] })
     s.txState 0 = 4 ∧ s.quadReady 0 = true ∧ s.actsAs ≠ .witness ∧ s.laneNeeds 0 (s.mfTc 0 (s.cwLead 0 + 1)) = true) ∧
    (Claims.Hits State.reset 9 0x52 11 0x00C 11 ∧ Claims.Hits State.reset 9 0x52 11 0x010 11 ∧
      State.reset.readTarget 0x52 11 0x07C = some 11 ∧ (State.reset.ahn 44).words.length < 32 ∧
      32 ≤ ((ahnent 0 0 [] (fun x => { x with words := List.replicate 32 ⟨0, 6, 0, 0⟩ })).ahn 0).words.length) ∧
    (fields [(Reg.LANE.STATUS_CDR_LOCK, 47, 1)] State.reset).fld Reg.LANE.STATUS_CDR_LOCK 47 = 1 := by
  and_intros <;> decide +kernel

/-- A transmit multiframe is 32 blocks and MFN counts on (R313, R314). -/
theorem test_multiframe : let x := (after (.ahnentTxMultiframe 0) (ahnent 3 3 [] id)).ahn 0
    x.lastSent.length = 32 ∧ x.mfnTx = 1 := by decide +kernel

/-! ## The energy ledger -/

/-- Service, the dispatcher on, queue 0 enabled with core 0 in its pool, core 0 enabled, task 5 READY with credit. -/
def ready (t : Task) : State :=
  let s := fields [(Reg.DISP.CTL_ENABLE, 0, 1), (Reg.DQUEUE.CTL_ENABLE, 0, 1), (Reg.DQUEUE.POOL_COURSE_COURSES, 0, 1),
    (Reg.DQUEUE.POOL_CORE_CORES, 0, 1), (Reg.COURSE.CTL_CORE_EN, 0, 1)] (inMode .service State.reset)
  (s.putTask 5 t).setAccount 1 { Account.reset with credit := 25600, minted := 25600 }

/-- The slot of an FE slice, its channel 0 with a commit pending. -/
def commitPends : State := State.reset.setStrm 0 { State.reset.strm 0 with pend := some ⟨[], none, []⟩ }

/-- Every point in one mode. -/
def allMeters (m : Nat) : State :=
  (List.range 48).foldl (fun s p => s.setMeter p { s.meter p with modeNow := m }) State.reset

theorem witness_LedgerStepsAndPeriods :
    (let s := allMeters 0
     (∀ p, p < 48 → (s.meter p).modeNow = 0) ∧ s.devclk.toNat % 100 = 0 ∧ s.ledger.stepAt ≠ s.devclk.toNat + 1) ∧
    ({ State.reset with devclk := 99 } : State).devclk.toNat % 100 ≠ 0 ∧
    (State.reset.fld Reg.METER.STATUS_FAULT 47 = 0 ∧
      1024 ≤ ((State.reset.setMeter 47 { Meter.reset 47 with stuck := 1024 }).meter 47).stuck) ∧
    (Claims.closing State.reset = none ∧
      (let s : State := { allMeters 1 with ledger := { State.reset.ledger with closes := [(3, 4)], meters := (allMeters 1).ledger.meters } }
       Claims.closing s = some (3, 4) ∧ (∀ p, p < 48 → (s.meter p).modeNow ≠ 2)) ∧
      (Claims.closing { State.reset with devclk := 100000 }).isSome = true) ∧
    (Claims.Hits State.reset 9 0x2A 63 0x018 63 ∧ Claims.Hits State.reset 9 0x2A 63 0x014 63) ∧
    (let s := fields [(Reg.LEDGER.CTL_PARK_EN, 0, 1)] { State.reset with devclk := 25500 }
     s.mayPark 4 = true ∧ s.mayPark 27 = true) ∧
    (let s := fields [(Reg.PWR.STATUS_STATE, 4, 4)] (ready (aTask 0 0))
     s.domState 4 = 4 ∧ (s.unparkHeads 4).length = 1 ∧ s.fld Reg.LEDGER.STATUS_THRIFT_ACTIVE 0 = 0) ∧
    (let s := fields [(Reg.PWR.STATUS_STATE, 4, 4), (Reg.LEDGER.STATUS_THRIFT_ACTIVE, 0, 1), (Reg.LEDGER.THRIFT_RESERVE_RESERVE, 0, 1)]
       (ready { aTask 0 0 with grade := 1 })
     s.domState 4 = 4 ∧ (s.unparkHeads 4).map (·.grade) = [1] ∧ s.fld Reg.LEDGER.STATUS_THRIFT_ACTIVE 0 ≠ 0 ∧
       s.ledger.devCredit.toInt < 256 * (s.fld Reg.LEDGER.THRIFT_RESERVE_RESERVE 0 : Int)) ∧
    (let s := fields [(Reg.PWR.STATUS_STATE, 4, 4), (Reg.PWR.STATUS_STATE, 36, 4)] commitPends
     s.domState 4 = 4 ∧ s.unparkHeads 4 = [] ∧ s.domState 36 = 4 ∧ s.slicePending 0 = true ∧ State.reset.slicePending 0 = false) := by
  and_intros <;> decide +kernel

/-- ADJUST by −3 mites: CREDIT and MINTED fall by 768 (R206). -/
theorem test_adjust : let x := (after (.adjust 9 5 (-3)) State.reset).account 5
    x.credit = -768 ∧ x.minted = -768 ∧ x.drawn = 0 := by decide +kernel

/-! ## The dispatcher -/

/-- A POST held for requester 3, of a descriptor at an address. -/
def posted (a : Nat) : State :=
  let s := inMode .service State.reset
  { s with disp := { s.disp with held := [(3, [⟨0, a, 0, false, none⟩])] } }

theorem witness_DispatcherKeepsItsTasks :
    (inMode .service State.reset).postMode = true ∧
    (∀ a ∈ [0x00000000, 0x40000000, 0x60000000], (posted a).postMode = true ∧ (posted a).firstPost 3 = some ⟨0, a, 0, false, none⟩ ∧
      (posted a).postRoom 0 = true ∧ rrPick 14 (posted a).disp.lastPost (posted a).postContends = some 3) ∧
    (let s := fields [(Reg.SYS.RAISE_STATUS_DVORYS_UP, 0, 1), (Reg.DVORYS.PAIR_STATUS_ROLE, 0, 2)] (inMode .service State.reset)
     let s : State := { s with dvorys := { s.dvorys with heldPacket := [(2, true)] } }
     s.postMode = true ∧ rrPick 14 s.disp.lastPost s.postContends = some 8 ∧ s.postAsks 8 = false ∧
       (List.range 16).find? s.retryTurn = some 2) ∧
    ((posted 0x60000000).descriptorPlace 0x60000000 = false ∧ (posted 0x45FFFFC0).descriptorPlace 0x45FFFFC0 = true ∧
      ((posted 0).busRead 62 2 0 64).1 = .ok ∧ ((posted 0).busRead 62 2 0 64).2.1.any (·.2) = false) ∧
    (State.reset.posts 13 = [] ∧ (posted 0).posts 3 ≠ []) ∧
    (Claims.Hits State.reset 9 0x22 31 0x300 31 ∧ Claims.Hits State.reset 9 0x22 31 0x304 31 ∧ Claims.Hits State.reset 9 0x22 31 0x308 31) ∧
    ((State.reset.key 8191).count = 0 ∧ ((State.reset.setKey 8191 ⟨1, 4, false, false⟩).key 8191).count = 1 ∧
      (State.reset.setKey 8191 ⟨1, 4, false, false⟩).waiters 8191 = [] ∧
      (let s := (State.reset.setKey 8191 ⟨1, 4, false, false⟩).putTask 5 { aTask 0 0 with st := .waiting, waitEn := true, waitKey := 8191 }
       s.waiters 8191 = [(5, { aTask 0 0 with st := .waiting, waitEn := true, waitKey := 8191 })])) ∧
    (rrPick 232 (ready (aTask 0 0)).disp.lastFill (ready (aTask 0 0)).asksFill = some 0 ∧
      (ready (aTask 0 0)).candidate 0 = some (5, aTask 0 0)) ∧
    (let s := (fields [(Reg.DISP.CTL_SLOT_AGE, 0, 1)] (slotted 0 0 0 { State.reset with devclk := 101 })).putTask 6
       { aTask 0 0 with st := .running, unit := 0 }
     0 < s.fld Reg.DISP.CTL_SLOT_AGE 0 ∧ (s.runningOn 0).isSome = true ∧ s.slot 0 = [5] ∧ (s.task 5).isSome = true ∧
       s.fld Reg.DISP.CTL_SLOT_AGE 0 * 100 < s.devclk.toNat - 0) ∧
    (let s : State := (ready { aTask 0 0 with st := .running })
     let t : State := { s with disp := { s.disp with reports := [(5, 1)] } }
     tget 0 t.disp.reports (5 : BitVec 14).toNat = 1 ∧ (t.task 5).isSome = true ∧ t.fences = []) ∧
    ((ready (aTask 0 0)).task (wordField 5 13 0) = some (aTask 0 0) ∧ (ready (aTask 0 0)).task (wordField 6 13 0) = none) ∧
    (Claims.Hits State.reset 9 0x21 255 0x03C 255 ∧ Claims.Hits State.reset 9 0x23 191 0x018 191) := by
  and_intros <;> decide +kernel

/-- TELLER_FILL debits the estimate, 10 mites, from the account and slots the task (R185). -/
theorem test_teller_fill : let s := after .tellerFill (ready (aTask 0 0))
    s.slot 0 = [5] ∧ (s.account 1).credit = 23040 ∧ (s.account 1).outstanding = 2560 := by decide +kernel

/-- The last decrement reloads the count and releases the waiter with the failure mark (R180, R181). -/
theorem test_keystone :
    let s := after (.keystoneDec 9 31 0x1FF) ((State.reset.setKey 8191 ⟨1, 4, false, false⟩).putTask 5
      { aTask 0 0 with st := .waiting, waitEn := true, waitKey := 8191 })
    (s.key 8191) = ⟨4, 4, false, false⟩ ∧ (s.task 5).map (fun t => (t.st, t.mark)) = some (.ready, true) := by decide +kernel

/-! ## Mortar -/

/-- The transaction with TXN 9 of NI 3's port 0 toward a destination port, and a state with such transactions. -/
def aTxn (dest : Nat) : Txn := ⟨3, 0, 9, dest, false, 0⟩

def withTxns (l : List Txn) : State := { State.reset with mortar := { State.reset.mortar with txns := l } }

/-- A request of requester 0, for an address. -/
def aReq (op : BitVec 3) (addr : BitVec 40) : NiReq := ⟨0, op, 1, 0, addr, []⟩

/-- A flit ejected at an NI, with TXN 9 from NI 3's port 0, and a network that holds it. -/
def ejected (ni plane vc src dest : Nat) (load : Load) : Flit := ⟨.ejected ni, plane, vc, src, dest, false, [], 9, load⟩

def carrying (f : Flit) (s : State) : State := s.setFlits [f]

/-- The PF's link is up and its bus master on, so that host memory can be reached. -/
def hosted : State := fields [(Reg.PCIE.STATUS_LINK_UP, 0, 1), (Reg.PCIE_FN.STATUS_BME, 0, 1)] State.reset

theorem witness_TransactionsRunTheirCourse :
    (State.reset.niArrive 3 []).niTurn 3 = none ∧
    (State.reset.niArrive 3 [aReq 0 0x40000000]).niTurn 3 = some (0, aReq 0 0x40000000) ∧
    (niPort 3 0 = some 0 ∧ tget [] State.reset.mortar.waiting 3 = [] ∧ State.reset.destOf 0x04000000 = none) ∧
    (State.reset.destOf 0x40000000 = some 0 ∧ State.reset.region 0x40000000 ≠ .csr ∧
      (State.reset.setPort 12 { Port.reset with drained := true }).port (3 * 4 + 0) = { Port.reset with drained := true } ∧
      (State.reset.setNiFence 3 0 true).niFenced 3 0 = true ∧ (State.reset.port 12).drained = false ∧ State.reset.niFenced 3 0 = false ∧
      (State.reset.entry 3 0 0).invalid = false ∧ reqWrites (aReq 1 0x40000000) = true ∧ (State.reset.entry 3 2 0).invalid = false ∧
      State.reset.pairHeld 3 0 = false ∧ State.reset.nextTxn 3 0 = some 0 ∧
      (fields [(Reg.MORTAR_NI.CTL_PAIR_HOLD_EN, 3, 1)] (withTxns [{ aTxn 0 with epoch := true }])).pairHeld 3 0 = true) ∧
    (let f := ejected 0 0 0 12 0 (.request 0 0 1 0 0x40000000)
     (carrying f State.reset).requestAt 0 12 0 = some (f, []) ∧ f.dest / 4 = 0 ∧ (carrying f State.reset).hostShut f = false ∧
       (carrying f State.reset).readsHost f = false ∧ State.reset.requestAt 0 12 0 = none) ∧
    (let f := ejected 1 0 0 12 0 (.request 0 0 1 0 0x40000000)
     (carrying f State.reset).requestAt 1 12 0 = some (f, []) ∧ f.dest / 4 ≠ 1) ∧
    (let f := ejected 58 0 0 12 232 (.request 0 0 1 0 0x8000000000)
     (carrying f State.reset).requestAt 58 12 0 = some (f, []) ∧ f.dest / 4 = 58 ∧ (carrying f State.reset).hostShut f = true ∧
       (carrying f hosted).hostShut f = false ∧ (carrying f hosted).readsHost f = true) ∧
    (State.reset.region 0x04000000 = .unmapped ∧ State.reset.region 0x3FFFFF0 = .treasury 15 ∧
      State.reset.region 0x45FFFFF0 = .course 23) ∧
    (State.reset.entry 0 1 3).invalid = false ∧
    (let f := ejected 3 1 0 0 12 (.response 0 0)
     (carrying f State.reset).responseAt 3 0 9 = some (f, 0, []) ∧ State.reset.responseAt 3 0 9 = none) ∧
    ((withTxns [aTxn 0]).mortar.txns.find? (fun t => t.ni == 3 && t.port == 0 && t.txn == 9) = some (aTxn 0) ∧
      State.reset.mortar.txns = [] ∧ (fields [(Reg.MORTAR_NI.TXN_LIMIT_LIMIT, 3, 1)] State.reset).fld Reg.MORTAR_NI.TXN_LIMIT_LIMIT 3 ≠ 0) ∧
    Claims.Hits State.reset 9 0x38 63 0x084 63 := by
  and_intros <;> decide +kernel

/-- A read that NI 3 injects toward Course 0's store crosses three links of plane 0 and is served at NI 0; its response, with one word
of data, comes back and ends the transaction OK (R239-R243). -/
theorem test_read_over_the_mesh :
    let s := after (.niInject 3 (some 0) false 0 (1, 0) 0x40000000 []) State.reset
    let u := after (.packetEject 0 12 0 true) s
    let v := after (.responseArrive 3 0 0 0) u
    (s.mortar.flits.map (·.route.length) = [3]) ∧ u.mortar.flits.map (·.plane) = [2, 1] ∧ v.mortar.flits = [] ∧ v.mortar.txns = [] ∧
      (tget (9, []) v.mortar.results 48).1 = 0 ∧ (tget (9, []) v.mortar.results 48).2.length = 16 := by decide +kernel

/-- A destination port with its own state, requesters of its fence, and what the controller handles. -/
def portAt (d : Nat) (p : Port) (who : List Nat) (q : Option FcReq) : State :=
  let s := State.reset.setPort d p
  { s with mortar := { s.mortar with fencers := tset [] s.mortar.fencers d who, fc := q } }

/-- A port that drains, `l` its DRAIN_DONEs. -/
def drains (l : List Nat) : Port := { Port.reset with fenced := true, draining := true, doneFrom := l }

/-- What an NI takes of the snoop plane, when a packet of a type and payload stands ejected there. -/
def snooped (ni type payload : Nat) (s : State) : State := carrying (ejected ni 3 0 252 (4 * ni) (.snoop type payload)) s

theorem witness_LinksRoutesAndFences :
    (State.reset.linkState 255 0 ≠ 2 ∧ State.reset.linkState 255 0 ≠ 3 ∧ farRouter 0 1 = some 1 ∧
      tget 0 State.reset.mortar.replays 1 < max 1 (State.reset.fld Reg.ROUTER.CTL_REPLAY_LIMIT 0) ∧
      max 1 ((fields [(Reg.ROUTER.CTL_REPLAY_LIMIT, 0, 1)] State.reset).fld Reg.ROUTER.CTL_REPLAY_LIMIT 0) ≤
        tget 0 ({ State.reset with mortar := { State.reset.mortar with replays := [(1, 1)] } } : State).mortar.replays 1) ∧
    (let c := linkCode 3 62 0
     ((snooped 5 11 c State.reset).takeSnoop 5 11 (· == c)).1 = some c ∧ (State.reset.takeSnoop 5 11 (· == c)).1 = none ∧
     (let s := fields [(Reg.MORTAR_NI.STATUS_OLD_CLEAR, 5, 1)]
        { State.reset with mortar := { State.reset.mortar with detours := [(5, [c])] } }
      c ∈ tget [] s.mortar.detours 5 ∧ s.fld Reg.MORTAR_NI.STATUS_OLD_CLEAR 5 = 1)) ∧
    (Claims.Hits State.reset 9 0x38 63 0x040 63 ∧ State.reset.fencersOf 255 = [] ∧ (portAt 255 Port.reset [2] none).fencersOf 255 = [2] ∧
      (portAt 255 Port.reset [0] none).fencersOf 255 ≠ [2]) ∧
    (((snooped 63 8 13 State.reset).takeSnoop 63 8 (fun _ => true)).1 = some 13 ∧ (State.reset.takeSnoop 63 8 (fun _ => true)).1 = none ∧
      ((snooped 63 9 13 State.reset).takeSnoop 63 9 (fun _ => true)).1 = some 13 ∧ (State.reset.takeSnoop 63 9 (fun _ => true)).1 = none ∧
      (let s := ((snooped 63 8 13 (portAt 13 (drains []) [2] none)).takeSnoop 63 8 (fun _ => true)).2
       (s.port 13).draining = true ∧ s.towards 63 13 = false)) ∧
    (let v := 13 + 2 ^ 8 * 63
     let s := snooped 3 10 v (portAt 13 (drains (List.range 63)) [2] none)
     (s.takeSnoop 3 10 (· == v)).1 = some v ∧ ((s.takeSnoop 3 10 (· == v)).2.port 13).draining = true ∧
       (State.reset.takeSnoop 3 10 (· == v)).1 = none ∧
       ((snooped 3 10 v State.reset).takeSnoop 3 10 (· == v)).1 = some v ∧
       (((snooped 3 10 v State.reset).takeSnoop 3 10 (· == v)).2.port 13).draining = false) ∧
    ((State.reset.port 13).draining = false ∧ ((portAt 13 (drains []) [2] none).port 13).draining = true) ∧
    (let s := portAt 13 (drains []) [2] none
     let s : State := { s with mortar := { s.mortar with forcing := [(13, 2)] } }
     s.mortar.forcing = [(13, 2)] ∧ s.mortar.fc = none ∧ s.mortar.flits = [] ∧ (s.port 13).draining = true) ∧
    (Claims.Hits State.reset 9 0x38 63 0x000 63 ∧ Claims.Hits State.reset 9 0x38 63 0x010 63 ∧ Claims.Hits State.reset 9 0x39 255 0x000 255) ∧
    (fields [(Reg.MORTAR_NI.STATUS_COPY_BUSY, 63, 1)] State.reset).fld Reg.MORTAR_NI.STATUS_COPY_BUSY 63 = 1 ∧
    (1023 ∉ State.reset.mortar.training ∧
      1023 ∈ ({ State.reset with mortar := { State.reset.mortar with training := [1023] } } : State).mortar.training) := by
  and_intros <;> decide +kernel

/-- DRAIN_DONE of the last of 64 NIs sets DRAINED (R255 step 4). -/
theorem test_drained :
    ((after (.drainDone 13 63) (snooped 3 10 (13 + 2 ^ 8 * 63) (portAt 13 (drains (List.range 63)) [2] none))).port 13).drained = true := by
  decide +kernel

/-! ## Memory -/

theorem witness_AshlarCorrectsOneColumn : (List.replicate 16 (0 : Byte)).length = 16 ∧ ((4 : Byte) ≠ 0 ∨ (0 : Byte) ≠ 0) ∧
    (5 : Fin 10) ≠ 3 := by decide

/-- R288's worked example: the zero word with bit 2 of column 3 in error is CORRECTED at column 3; with a bit of column 5's other
codeword in error as well, UNCORRECTABLE. -/
theorem test_ashlar :
    (decodeWord none ((List.replicate 16 0).set 6 4) [0, 0, 0, 0]).2.2 = (.corrected 3, List.replicate 16 0) ∧
    (decodeWord none (((List.replicate 16 0).set 6 4).set 11 1) [0, 0, 0, 0]).2.2.1 = .uncorrectable := by decide +kernel

/-- Treasury bank 0 with one bit of column 3 of its first word in error. -/
def oneBit : State := { State.reset with mem := mwrites State.reset.mem 6 [4] }

theorem witness_ScrubRepairAndTest :
    (State.reset.scrubOn 0 = true ∧ State.reset.scrubOn 39 = true ∧ tget 0 State.reset.memSys.scrubHeld 39 = 0 ∧
      State.reset.scrubSkips 0 0 = false) ∧
    (let s := { oneBit with memSys := { oneBit.memSys with scrubHeld := [(0, 1)] } }
     tget 0 s.memSys.scrubHeld 0 = 0 + 1 ∧ 0 ∉ s.memSys.staleWrite ∧ (s.decodeAt 0).2.2.1 = .corrected 3) ∧
    (let s := fields [(Reg.SPALL.CTL_AUTO_REPAIR, 0, 1)] (State.reset.setSpall 255 ⟨0x40000000, 3, 2, 9, true, 1, 0, 0⟩)
     (s.spallAt 255).st = 2 ∧ (s.spallAt 255).memory < 4 ∧ (s.spallAt 255).addr < 2 ^ 32 ∧ s.fld Reg.SPALL.CTL_AUTO_REPAIR 0 = 1 ∧
       s.spareLeft 0x40000000 false = true ∧
       ({ s with memSys := { s.memSys with repairs := List.replicate 99 (0x40000000, false) } } : State).spareLeft 0x40000000 false = false) ∧
    (let s := State.reset.setSpall 255 ⟨0x60000000, 3, 2, 9, true, 2, 0, 0⟩
     2 ≤ (s.spallAt 255).memory ∧ (tget Core.reset s.sett.cores (((s.spallAt 255).addr - 0x60000000) / 0x100000)).rep.isSome = false ∧
       (tget Core.reset (s.setCore 0 { Core.reset with rep := some ⟨0, 1, []⟩ }).sett.cores 0).rep.isSome = true) ∧
    (hasTest 0x48 15 = true ∧ Claims.Hits State.reset 9 0x48 15 0x31C 15 ∧ hasTest 0x10 23 = true ∧
      Claims.Hits State.reset 9 0x10 23 0x31C 23) ∧
    (isMemCls 0x49 = true ∧ Claims.Hits State.reset 9 0x49 3 0x03C 3 ∧ Claims.Hits State.reset 9 0x10 23 0x138 23 ∧
      Claims.Hits State.reset 9 0x48 15 0x038 15) := by
  and_intros <;> decide +kernel

/-- A scrub pass holds the word in error and writes it back corrected (R295). -/
theorem test_scrub : let s := after (.scrubRewrite 0) (after (.scrubRead 0) oneBit)
    s.mem = [] ∧ s.fld Reg.TREASURY.CE_COUNT_COUNT 0 = 1 := by decide +kernel

/-! ## The journal -/

theorem witness_JournalKeepsOrder :
    (let s := fields [(Reg.JOURNAL.CTL_ENABLE, 0, 1)] State.reset
     let u := { s with journal := { s.journal with fifo := [(255, [⟨255, 1023, 2047, 3, 0⟩])] } }
     u.modes.mode ≠ .banked ∧ u.fld Reg.JOURNAL.CTL_ENABLE 0 = 1 ∧
     rrPick 256 u.journal.lastCls (fun c => !(tget [] u.journal.fifo c).isEmpty) = some 255 ∧
     classPick (tget 1023 u.journal.lastInst 255) (tget [] u.journal.fifo 255) = some ⟨255, 1023, 2047, 3, 0⟩ ∧
     u.journalUnread ≠ 2 ^ u.journalLog2 ∧
     (fields [(Reg.JOURNAL.WR_INDEX_WR_INDEX, 0, 2 ^ u.journalLog2)] u).journalUnread = 2 ^ u.journalLog2) ∧
    (255 < 2 ^ 8 ∧ 1023 < 2 ^ 10 ∧ 2047 < 2 ^ 11 ∧ 3 < 4) ∧
    (let s := fields [(Reg.JOURNAL.CTL_ENABLE, 0, 1)] State.reset
     let u := { s with journal := { s.journal with lost := [(5, 7)] } }
     tget 0 u.journal.lost 5 ≠ 0 ∧ (tget [] u.journal.fifo 5).length < 4 ∧ u.fld Reg.JOURNAL.CTL_ENABLE 0 = 1 ∧
       u.modes.mode ≠ .banked) := by decide +kernel

/-! ## Ethernet -/

/-- MAC `m` sends and receives. -/
def macOn (m : Nat) (s : State) : State := fields [(Reg.MAC.CFG_EN, m, 1), (Reg.MAC.STATUS_LINK_UP, m, 1)] (inMode .service s)

/-- A frame's octets without FCS: a first octet, a type and `n` in all. -/
def octets (first type n : Nat) : List Byte :=
  [BitVec.ofNat 8 first] ++ List.replicate 11 0 ++ beBytes 2 type ++ List.replicate (n - 14) 0

def aFrame (src : Nat) (poison : Bool) : TxFrame := ⟨octets 2 0x800 60, poison, src, [], 7, 0⟩

/-- TX ring 256 of MAC 23 with one whole descriptor (EOP) in Treasury memory. -/
def txRing : State :=
  (fields [(Reg.ETH_RING.CTL_EN, 256, 1), (Reg.ETH_RING.CTL_MAC, 256, 23), (Reg.ETH_RING.TAIL_TAIL, 256, 1)]
    (macOn 23 State.reset)).writeMem 0 (clean (leBytes 32 (2 ^ 81)))

/-- A frequency-domain receive channel in service whose flow entry closes the window 40,000 Tc before a symbol begins. -/
def windowed (l : List (Field × Nat)) : State :=
  ((channel 511 ([(Reg.STRM_RX.CTL_ENABLE, 1), (Reg.STRM_RX.CTL_FREQ_DOMAIN, 1)] ++ l)
    (fun x => { x with fhFrom := -1000000000, startAt := -1000000000 }) (inMode .service timed)).setFlowWord 0 2 511).setFlowWord 0 4
    (BitVec.ofInt 32 (-40000)) |>.setFlowWord 0 7 0x80000000

def windowDue (s : State) (active : Bool) : Bool := match s.closedAhead 511 with
  | some code => (s.strm 511).fhOpen.isEmpty && s.chRuns 511 && s.sbit 511 Reg.STRM_RX.CTL_FREQ_DOMAIN && !(s.strm 511).waiting &&
    (s.strm 511).fhClosed != some code && decide ((s.strm 511).fhFrom ≤ s.symNear 511 code) && s.chActive 511 code == active
  | none => false

/-- A pattern of one slot without an active symbol. -/
def quietSlots : List (Field × Nat) := [(Reg.STRM_RX.PATTERN_CTL_PATTERN_LEN, 1), (Reg.STRM_RX.PATTERN_MASK_EVEN 0, 0)]

theorem witness_FramesAndRings :
    ((macOn 23 State.reset).macUp 23 = true ∧ (fcs (octets 2 0x800 60)).length = 4 ∧
      (octets 2 0x800 59).length + 4 < 64 ∧ 64 ≤ (octets 2 0x800 60).length + 4 ∧
      (fields [(Reg.MAC.FRAME_MAX_LEN, 23, 64)] (macOn 23 State.reset)).maxLen 23 < (octets 2 0x800 61).length + 4 ∧
      (fields [(Reg.MAC.FRAME_MAX_LEN, 23, 64)] (macOn 23 State.reset)).maxLen 23 = (octets 2 0x800 60).length + 4 ∧
      [0, 0, 0, 0] ≠ fcs (octets 2 0x800 60) ∧ (macOn 23 State.reset).takesAddr 23 (octets 2 0x800 60) = false ∧
      (macOn 23 State.reset).takesAddr 23 (octets 1 0x800 60) = true ∧ beAt (octets 1 0x800 60) 12 2 ≠ 0x8808 ∧
      beAt (octets 2 0x8808 60) 12 2 = 0x8808 ∧
      (macOn 23 State.reset).flowLookup 23 (parseFrame (octets 1 0x800 60) ((macOn 23 State.reset).fld Reg.MAC.ECPRI_PORT_PORT 23)) = none ∧
      (macOn 23 State.reset).fld Reg.MAC.DEFAULT_EN 23 = 0) ∧
    (∀ b : Bool, ((State.reset.setEthRing 255 { EthRing.reset with done := [⟨60, [], 1, b⟩] }).ethRing 255).done = [⟨60, [], 1, b⟩]) ∧
    (let s : State := { macOn 23 State.reset with eth := { State.reset.eth with queue := [⟨23, 0, [1]⟩] } }
     s.macUp 23 = true ∧ (s.macSt 23).tx = none ∧ rrPick 257 (s.macSt 23).last (fun j => s.macAsks 23 j) = some 0 ∧
       s.flowHead 23 = some ⟨23, 0, [1]⟩) ∧
    (txRing.macUp 23 = true ∧ (txRing.macSt 23).tx = none ∧ rrPick 257 (txRing.macSt 23).last (fun j => txRing.macAsks 23 j) = some 1) ∧
    (∀ b : Bool, ((State.reset.setMacSt 23 { MacSt.reset with tx := some (aFrame 0 b) }).macSt 23).tx = some (aFrame 0 b) ∧
      ((State.reset.setMacSt 23 { MacSt.reset with tx := some (aFrame 256 b) }).macSt 23).tx = some (aFrame 256 b) ∧
      (511 : Fin 512).val = 255 + (aFrame 256 b).src) ∧
    ((fields [(Reg.ETH_RING.IRQ_FN, 511, 15)] State.reset).fld Reg.ETH_RING.IRQ_FN 511 = 15 ∧ State.reset.fld Reg.ETH_RING.IRQ_FN 511 = 0) ∧
    (Claims.Hits State.reset 9 0x5A 511 0x014 511 ∧ Claims.Hits State.reset 9 0x59 0 0x02C 0 ∧ Claims.Hits State.reset 9 0x59 0 0x054 0) ∧
    (let s := channel 511 [] (fun x => { x with fhOpen := [aSym false] }) State.reset
     (s.strm 511).fhOpen.find? (s.windowClosed 511) = some (aSym false) ∧
       (State.reset.strm 511).fhOpen.find? (State.reset.windowClosed 511) = none ∧ State.reset.closedAhead 511 = none) ∧
    (windowDue (windowed quietSlots) false = true ∧
      let l := [(Reg.STRM_RX.PATTERN_CTL_PATTERN_LEN, 1), (Reg.STRM_RX.PATTERN_MASK_EVEN 0, 0x3FFF), (Reg.STRM_RX.PRB_PRB_COUNT, 1)]
      windowDue (windowed l) true = true ∧ (windowed l).sfld 511 Reg.STRM_RX.PRB_PRB_COUNT = 1) := by
  and_intros <;> decide +kernel

/-- The FCS of a frame of 60 octets 0, as CRC-32 has it: 0x04128908, least significant octet first. -/
theorem test_fcs : fcs (List.replicate 60 0) = [0x08, 0x89, 0x12, 0x04] := by decide +kernel

/-- A frame that has left with poison in it ends in an inverted FCS, and both counters add 1 (R347). -/
theorem test_poisoned_frame :
    let s := after (.macTxDone 0) (State.reset.setMacSt 0 { MacSt.reset with tx := some (aFrame 0 true) })
    (s.macSt 0).sent.length = 64 ∧ s.fld Reg.MAC.TX_FRAMES_COUNT 0 = 1 ∧ s.fld Reg.MAC.TX_POISON_COUNT 0 = 1 := by decide +kernel

/-- A MAC of SPEED 0 on lane 0 of an Ethernet quad whose lane sends. -/
def linkable : State := fields [(Reg.MAC.CFG_EN, 0, 1), (Reg.MAC.CFG_SPEED, 0, 0), (Reg.LANEQ.STATUS_PLL_LOCK, 0, 1), (Reg.LANE.CTL_TX_EN, 0, 1)]
  (inMode .service (State.reset.setReg 0x50 0 0x000 0))

/-- Every RX ring's priority held off below a level: ring 255 alone is on. -/
def lowRing (xoff xon : Nat) : State := fields [(Reg.MAC.XOFF_GEN_EN, 5, 0x80), (Reg.MAC.XOFF_XOFF_LEVEL, 5, xoff),
  (Reg.MAC.XON_XON_LEVEL, 5, xon), (Reg.MAC.CFG_PFC_EN, 5, 1), (Reg.ETH_RING.CTL_EN, 255, 1), (Reg.ETH_RING.CTL_PRIO, 255, 7)]
  (macOn 5 State.reset)

/-- Priority 7 of MAC 5 held off since a DEVCLK. -/
def heldOff (since : Nat) (s : State) : State := s.setMacSt 5 { MacSt.reset with xoff := [(7, since + 1)] }

theorem witness_PauseAndMacLinks :
    (∀ k ∈ [0, 8], let s := State.reset.setPause 23 k ⟨some 5, 0, none⟩
      (s.pause 23 k).until_ = some 5 ∧ s.devclk.toNat < 5 ∧ 5 ≤ ({ s with devclk := 5 } : State).devclk.toNat ∧
      (s.pause 23 k).since + min 10000 (max 1 (s.fld Reg.MAC.PAUSE_WD_LIMIT 23)) * 10000 ≤
        ({ s with devclk := 100000000 } : State).devclk.toNat ∧
      5 < (s.pause 23 k).since + min 10000 (max 1 (s.fld Reg.MAC.PAUSE_WD_LIMIT 23)) * 10000 ∧
      (s.pause 23 k).since + min 10000 (max 1 (s.fld Reg.MAC.PAUSE_WD_LIMIT 23)) * 10000 ≤ 100000000) ∧
    (((State.reset.setPause 23 8 ⟨none, 0, some 0⟩).pause 23 8).breakEnd = some 0) ∧
    ((lowRing 1 0).macUp 5 = true ∧ bitOf ((lowRing 1 0).fld Reg.MAC.XOFF_GEN_EN 5) 7 = true ∧ tget 0 ((lowRing 1 0).macSt 5).xoff 7 = 0 ∧
      255 ∈ (lowRing 1 0).watched 5 7 ∧ (lowRing 1 0).freeDescs 255 < (lowRing 1 0).fld Reg.MAC.XOFF_XOFF_LEVEL 5 ∧
      (∀ r ∈ (lowRing 0 0).watched 5 7, ¬ (lowRing 0 0).freeDescs r < (lowRing 0 0).fld Reg.MAC.XOFF_XOFF_LEVEL 5) ∧
      tget 0 ((heldOff 0 (lowRing 0 0)).macSt 5).xoff 7 ≠ 0 ∧
      (∀ r ∈ (heldOff 0 (lowRing 0 0)).watched 5 7,
        (heldOff 0 (lowRing 0 0)).fld Reg.MAC.XON_XON_LEVEL 5 ≤ (heldOff 0 (lowRing 0 0)).freeDescs r) ∧
      (∃ r ∈ (heldOff 0 (lowRing 1 1)).watched 5 7,
        ¬ (heldOff 0 (lowRing 1 1)).fld Reg.MAC.XON_XON_LEVEL 5 ≤ (heldOff 0 (lowRing 1 1)).freeDescs r) ∧
      (let s : State := { heldOff 0 (lowRing 1 1) with devclk := 4000000000 }
       tget 0 (s.macSt 5).xoff 7 - 1 + s.quantaTime 5 (s.fld Reg.MAC.XON_QUANTA 5 / 2) ≤ s.devclk.toNat)) ∧
    ((macOn 23 State.reset).fld Reg.MAC.STATUS_LINK_UP 23 = 1) ∧
    (linkable.fld Reg.MAC.STATUS_LINK_UP 0 = 0 ∧ linkable.macCanLink 0 = true) ∧
    Claims.Hits State.reset 9 0x58 23 0x024 23 := by
  and_intros <;> decide +kernel
/-! ## Registers that act -/

theorem witness_RegistersThatAct :
    (State.reset.readTarget 0x2A 63 0x040 = some 63) ∧
    (Claims.Hits State.reset 9 0x10 23 0x39C 23 ∧ Claims.Hits State.reset 9 0x78 0 0x380 0) ∧ Claims.Hits State.reset 9 0x10 23 0x3A0 23 ∧
    (Claims.Hits State.reset 7 0 0 0x004 0 ∧ Claims.Hits State.reset 8 0 0 0x004 0 ∧
      State.reset.modeVerdict (Mode.ofCode 7) false = none ∧ (inMode .service State.reset).modeVerdict (Mode.ofCode 3) false = some false ∧
      (inMode .service State.reset).modeVerdict (Mode.ofCode 4) false = some true) ∧
    Claims.Hits State.reset 9 0 0 0x058 0 ∧
    (Claims.Hits State.reset 9 0x68 0 0x0C0 0 ∧ (0x80000000 : Word).getLsbD 31 = true ∧
      (fields [(Reg.SYS.BOOT_STATUS_WAITING_HOST, 0, 1)] State.reset).fld Reg.SYS.BOOT_STATUS_WAITING_HOST 0 = 1) ∧
    (Claims.Hits State.reset 9 0x02 0 0x008 0 ∧ (0xD1A5 : Word).toNat % 2 ^ 16 = 0xD1A5) ∧ Claims.Hits State.reset 9 0x71 7 0x000 7 ∧
    ((fields [(Reg.KEEP.STATUS_RUNNING, 7, 1)] State.reset).fld Reg.KEEP.STATUS_RUNNING 7 = 1 ∧
      State.reset.fld Reg.KEEP.STATUS_RUNNING 7 = 0) ∧
    (Claims.Hits State.reset 9 0x69 15 0x000 15 ∧
      (fields [(Reg.PCIE_FN.STATUS_MSIX_EN, 15, 1)] State.reset).bit Reg.PCIE_FN.STATUS_MSIX_EN 15 = true) ∧
    (Claims.Hits State.reset 9 0x50 11 0x000 11 ∧
      (fields [(Reg.LANEQ.STATUS_SWITCHING, 11, 1)] State.reset).fld Reg.LANEQ.STATUS_SWITCHING 11 = 1 ∧
      (fields [(Reg.LANEQ.STATUS_SWITCHING, 11, 0)] State.reset).fld Reg.LANEQ.STATUS_SWITCHING 11 = 0) ∧
    (Claims.Hits State.reset 9 0x79 0 0x008 0 ∧ State.reset.observe.lost = 0 ∧ fifoWords State.reset.observe.fifo + 7 ≤ 2048 ∧
      (fields [(Reg.TRACE.CTL_EN, 0, 1), (Reg.TRACE.CTL_SRC, 0, 8)] State.reset).traceOn 3 = true) ∧
    (Claims.Hits State.reset 9 0x79 0 0x000 0 ∧ fifoWords State.reset.observe.fifo + 9 ≤ 2048) := by
  and_intros <;> decide +kernel

/-- A keep core's MODE_REQ for Service in Raising with nothing else done is answered, and CODE stays until the transition ends (R56, R58). -/
theorem test_mode_req : let s := after (.modeReq 0 3) State.reset
    s.fld Reg.SYS.MODE_RESULT_DECISIONS 0 = 1 ∧ s.fld Reg.SYS.MODE_RESULT_REQUESTER 0 = 2 ∧ s.modes.mode = .raising := by decide +kernel

/-- The key of SOFT_RESET leads to Footing with SOFT in RESET_CAUSE; another word does nothing (R418). -/
theorem test_soft_reset :
    (after (.softReset 9 0xD1A5) { State.reset with devclk := 99 }).modes.mode = .footing ∧
    (after (.softReset 9 0xD1A5) { State.reset with devclk := 99 }).devclk = 99 ∧
    (after (.softReset 9 0xD1A4) State.reset).modes.mode = .raising := by decide +kernel
/-! ## DMA -/

/-- Channel 127 of DMA[3] in a STATE, with an instruction at hand. -/
def dmaAt (st w : Nat) (f : DmaCh → DmaCh) (s : State) : State :=
  fields [(Reg.DMA.CTL_EN, 3, 1), (Reg.DMA_CH.STATUS_STATE, 127, st)]
    (s.setDch 127 (f { DmaCh.reset with cur := some w, ptr := [(1, 0x1000)] }))

/-- Channel 96, of the same engine and before channel 127 in turn, runs an instruction. -/
def beside (w : Nat) (s : State) : State := fields [(Reg.DMA_CH.STATUS_STATE, 96, 1)] (s.setDch 96 { DmaCh.reset with cur := some w })

/-- An instruction word: OP, bits 59–40 and the bits below. -/
def dmaWord (op hi lo : Nat) : Nat := op * 2 ^ 60 + hi * 2 ^ 40 + lo

def dueIs (w : Nat) (s : State) : Bool := s.dmaReady 127 == some w

/-- MOVE from pointer 0 to pointer 1 of 512 bytes, SI and DI set. -/
def aMove (op : Nat) (paced : Nat) (n : Nat) : Nat := dmaWord op (1 * 2 ^ 14 + 3 * 2 ^ 12 + paced * 2 ^ 11) n

def moving (op paced n : Nat) : State := dmaAt 1 (aMove op paced n) id State.reset

/-- A RING of LOG2 8 with its owner's memory in reach. -/
def ringOn (s : State) : State := fields [(Reg.DMA.RING_CFG_LOG2 15, 3, 8), (Reg.DMA.RING_CFG_FN 15, 3, 15), (Reg.PCIE.STATUS_LINK_UP, 0, 1),
  (Reg.PCIE_FN.STATUS_BME, 15, 1)] s

theorem witness_ChannelInstructions :
    (∀ w ∈ [dmaWord 0 0 0, dmaWord 3 0 0, dmaWord 3 0 5, dmaWord 15 0 0], dueIs w (dmaAt 1 w id State.reset) = true) ∧
    (∀ op ∈ [1, 2], ∀ n ∈ [0, 16, 512], ∀ p ∈ [0, 1], dueIs (aMove op p n) (moving op p n) = true ∧ ((moving op p n).dch 127).mv = none) ∧
    (∀ op ∈ [1, 2], let s := moving op 0 512
      let b := (s.dmaGranted 127).dmaBegin 127 (aMove op 0 512)
      dmaBits (aMove op 0 512) 51 51 = 0 ∧ dmaBits (aMove op 0 512) 59 57 = 0 ∧ dmaBits (aMove op 0 512) 56 54 = 1 ∧
      s.region 0 ≠ .csr ∧ s.region 0x1000 ≠ .csr ∧ (b.dmaRead 127 0 512).1 = .ok ∧
      ((b.dmaRead 127 0 512).2.2.dmaPut 127 0x1000 ((b.dmaRead 127 0 512).2.1.take 512)).1 = .ok ∧
      (s.dch 127).wrapAt (op == 2) 0 = none) ∧
    Claims.OnePiece DmaCh.reset false 0 (4096 - 512) 512 ∧
    (((dmaAt 1 (aMove 1 0 16) (fun x => { x with ptr := [(0, 0x50000000)] }) State.reset).dmaRead 127 0x50000000 16).1 ≠ .ok) ∧
    (∀ n ∈ [1, 2], dueIs (dmaWord 4 0 0) (dmaAt 1 (dmaWord 4 0 0) (fun x => { x with loops := [(n, 64)] }) State.reset) = true) ∧
    (∀ k ∈ [0, 1, 2, 3], dueIs (dmaWord 5 (k * 2 ^ 17) 0) (dmaAt 1 (dmaWord 5 (k * 2 ^ 17) 0) id State.reset) = true) ∧
    (State.reset.dmaFlag 0 = false ∧ (State.reset.setFlag 255).dmaFlag 255 = true ∧ State.reset.dmaLine 3 63 = false ∧
      (fields [(Reg.DMA.REQ_SW_LEVEL 1, 3, 0x80000000)] State.reset).dmaLine 3 63 = true ∧ State.reset.timeReached 127 0 = false ∧
      timed.timeReached 127 3 = true ∧ (State.reset.key 8191).count = 0 ∧ (State.reset.setKey 8191 ⟨1, 0, true, false⟩).key 8191 = ⟨1, 0, true, false⟩) ∧
    (∀ k ∈ [0, 1, 2, 3, 4], dueIs (dmaWord 6 (k * 2 ^ 17) 0) (dmaAt 1 (dmaWord 6 (k * 2 ^ 17) 0) id State.reset) = true ∧
      ((dmaAt 1 (dmaWord 6 (k * 2 ^ 17) 0) id State.reset).dch 127).outs = []) ∧
    (State.reset.flagWaiters 9 = [] ∧ (fields [(Reg.DMA_CH.STATUS_WAIT_KIND, 127, 0)] (dmaAt 2 (dmaWord 5 0 9) id State.reset)).flagWaiters 9 = [127] ∧
      State.reset.ringFull 63 = true ∧ (ringOn State.reset).ringFull 63 = false ∧ (ringOn State.reset).hostUp 15 = true ∧
      (let r := dmaWord 6 (4 * 2 ^ 17) 63
       let s := ringOn (dmaAt 1 r id State.reset)
       ((s.dmaGranted 127).dmaRead 127 0 32).1 = .ok ∧ s.dataRingTurn 63 127 = true ∧
         (beside r s).dataRingTurn 63 127 = false)) ∧
    (∀ m ∈ [0, 1, 2], ∀ r ∈ [0, 7, 8, 11, 12, 15, 16, 17],
      dueIs (dmaWord 7 (r * 2 ^ 15 + m * 2 ^ 13) 0) (dmaAt 1 (dmaWord 7 (r * 2 ^ 15 + m * 2 ^ 13) 0) id State.reset) = true) ∧
    (((dmaAt 1 (dmaWord 7 (2 * 2 ^ 13) 0) id State.reset).dmaRead 127 0 16).1 = .ok) ∧
    (let s := dmaAt 1 (dmaWord 14 0 0) id State.reset
     s.dmaMay 127 = true ∧ s.dmaState 127 = dmaRunning ∧ s.dmaInstr 127 = some (dmaWord 14 0 0) ∧ s.dmaCheck 127 (dmaWord 14 0 0) = some 3) := by
  and_intros <;> decide +kernel

/-- TTC one below a second and ADD 1: TTC 0 and TSEC 1 more (R267). -/
theorem test_setptr_ttc :
    let w := dmaWord 7 (17 * 2 ^ 15 + 1 * 2 ^ 13) 1
    let s := after (.setptrAdd 127) (dmaAt 1 w (fun x => { x with ttc := 1966079999 }) State.reset)
    s.dmaReg 127 17 = 0 ∧ s.dmaReg 127 16 = 1 := by decide +kernel

/-- The engine's first error not yet acted on. -/
def dmaFailed : State := { dmaAt 1 (aMove 1 0 16) id State.reset with dma := { (dmaAt 1 (aMove 1 0 16) id State.reset).dma with
  errs := [(3, [⟨127, 0, 0x7FFFFFFFFF, 1⟩])] } }

theorem witness_DmaEngineEvents :
    (Claims.Hits State.reset 9 0x41 127 0x000 127 ∧ ∀ st ∈ [0, 1, 2, 3, 4], (dmaAt st 0 id State.reset).dmaState 127 = st) ∧
    (let s := dmaAt 1 (aMove 1 1 512) (fun x => { x with mv := some 0 }) State.reset
     s.dmaMay 127 = true ∧ s.dmaInstr 127 = some (aMove 1 1 512) ∧ (s.dch 127).mv.isSome = true ∧ dmaBits (aMove 1 1 512) 51 51 = 1 ∧
     s.postStands 127 = false ∧ s.dmaState 127 = dmaRunning ∧ s.dmaCheck 127 (aMove 1 1 512) = none ∧
     s.dmaLine 3 (dmaBits (aMove 1 1 512) 50 45) = false ∧ (let u := fields [(Reg.DMA.REQ_SW_LEVEL 0, 3, 1)] s
      u.dmaLine 3 0 = true ∧ u.dmaTurn 127 = true ∧ (beside (dmaWord 15 0 0) u).dmaTurn 127 = false ∧
        (let v := fields [(Reg.DMA_CH.STATUS_STATE, 127, 2), (Reg.DMA_CH.STATUS_WAIT_KIND, 127, 5)] u
         v.dmaTurn 127 = true ∧ v.dmaState 127 = dmaWaiting))) ∧
    (∀ k ∈ [0, 1, 2, 3, 4], let s := fields [(Reg.DMA_CH.STATUS_WAIT_KIND, 127, k)] (dmaAt 2 0 id State.reset)
      s.dmaState 127 = dmaWaiting ∧ s.dmaOn 127 = true ∧ s.fld Reg.DMA_CH.STATUS_WAIT_KIND 127 = k) ∧
    (((dmaAt 1 0 (fun x => { x with outs := [⟨512, true⟩] }) State.reset).dch 127).outs = [⟨512, true⟩] ∧ State.reset.postStands 127 = false ∧
      ({ State.reset with disp := { State.reset.disp with held := [(13, [⟨0, 0, 0, false, some 127⟩])] } } : State).postStands 127 = true) ∧
    (let s := dmaAt 1 0 (fun x => { x with cur := none }) State.reset
     s.dmaMay 127 = true ∧ s.dmaState 127 = dmaRunning ∧ (s.dch 127).cur = none ∧ s.dmaFetched 3 (s.dmaPc 127) = none ∧ s.region 0 ≠ .csr ∧
     (s.dmaRead 127 0 64).1 = .ok ∧ ((s.setDmaPc 127 0x50000000).dmaRead 127 0x50000000 64).1 ≠ .ok) ∧
    (tget [] dmaFailed.dma.errs 3 = [⟨127, 0, 0x7FFFFFFFFF, 1⟩] ∧ dmaFailed.fld Reg.DMA.STATUS_STOPPED 3 = 0 ∧
      (fields [(Reg.DMA.STATUS_STOPPED, 3, 1)] dmaFailed).fld Reg.DMA.STATUS_STOPPED 3 = 1) ∧
    (Claims.Hits State.reset 9 0x40 3 0x024 3 ∧ Claims.Hits State.reset 9 0x40 3 0x02C 3 ∧ Claims.Hits State.reset 9 0x40 3 0x044 3) ∧
    (Claims.Hits State.reset 9 0x41 127 0x01C 127 ∧ (State.reset.heldFor 9 0x41 127 0x014).toNat % 32 = 0) ∧
    (State.reset.ringSlots 63 = 0 ∧ (ringOn State.reset).ringSlots 63 = 256 ∧ (ringOn State.reset).fld (Reg.DMA.RING_CFG_FN 15) 3 = 15) := by
  and_intros <;> decide +kernel

/-- The first bus error stops its engine's running channels (R278). -/
theorem test_bus_error : let s := after (.busError 3) dmaFailed
    s.dmaState 127 = 4 ∧ s.fld Reg.DMA_CH.STATUS_CODE 127 = 7 ∧ s.fld Reg.DMA.STATUS_ERR_COUNT 3 = 1 := by decide +kernel
/-! ## Packets -/

/-- Dvorys serves the PF's ring, which stands in host memory from 0x40000 on, its completions from 0x80000 on. -/
def serving (s : State) : State :=
  (fields [(Reg.SYS.RAISE_STATUS_DVORYS_UP, 0, 1), (Reg.DVORYS.PAIR_STATUS_ROLE, 0, 2), (Reg.DVORYS.PAIR_STATUS_ROLE, 1, 1),
    (Reg.SYS.RAISE_STATUS_BULK_FILLED, 0, 1), (Reg.PCIE.STATUS_LINK_UP, 0, 1), (Reg.PCIE_FN.STATUS_BME, 0, 1)] s).setPage 0
    { RingPage.reset with enable := true, sqBase := 0x40000, cqBase := 0x80000, sqTail := 8 }

/-- The words of a packet (R32): OPCODE, VERSION 1, TAG 7, TARGET, its parameter words. -/
def packetBytes (op target : Nat) (params : List Nat) : List Byte :=
  wordsToBytes ((BitVec.ofNat 32 (op + 2 ^ 24) :: 7 :: BitVec.ofNat 32 target :: BitVec.ofNat 32 params.length :: []) ++
    params.map (BitVec.ofNat 32))

/-- That packet at the head of the PF's ring, in Service. -/
def packet (op target : Nat) (params : List Nat) : State :=
  let s := serving (inMode .service State.reset)
  { s with host := mwrites s.host 0x40000 (packetBytes op target params) }

/-- Whether the PF's next packet is of an opcode and passes every check. -/
def readyIs (op : Nat) (s : State) : Bool :=
  let p := (s.packetAt 0).1
  s.nextRing == some 0 && p.ver == 1 && p.op == op && ((s.packetAt 0).2.takeSlots 0 (packetSlots p.pw)).refusal p == none

theorem ready_of {op : Nat} {s : State} (h : readyIs op s = true) :
    Claims.Ready s 0 op (s.packetAt 0).1 ((s.packetAt 0).2.takeSlots 0 (packetSlots (s.packetAt 0).1.pw)) := by
  simp only [readyIs, Bool.and_eq_true, beq_iff_eq] at h
  exact ⟨⟨h.1.1.1, rfl, h.1.1.2, h.1.2, rfl⟩, h.2⟩

/-- What each opcode's packet is tried with: TARGET and parameter words, at the ends of what its row of R44 admits. -/
def tried : List (Nat × Nat × List Nat) :=
  let dev := 0xFF
  let one (cls i : Nat) := cls + 256 * i
  [(0x0001, dev, []), (0x0002, dev, []), (0x0003, dev, []), (0x0004, dev, [7]), (0x0005, dev, [0]), (0x0006, dev, [15, 0xFFFF]),
    (0x0007, dev, [1]), (0x0008, dev, [0]), (0x1001, one 0x22 0, [0]), (0x1002, one 0x22 31, [0x0FFF0300]), (0x1003, one 0x22 31, [0x300, 0]),
    (0x1004, one 0x22 31, [0x300, 0, 0]), (0x1005, one 0x22 31, [0, 0, 0]), (0x1006, one 0x08 511, [0]), (0x1007, one 0x09 511, []),
    (0x1008, one 0x10 23, []), (0x1009, one 0x10 23, []), (0x2001, one 0x2A 63, [0]), (0x2002, one 0x2A 63, []), (0x2003, one 0x28 0, [0]),
    (0x2004, one 0x28 0, [0]), (0x2005, one 0x29 47, []), (0x3001, one 0x21 255, [0]), (0x3002, one 0x21 0, List.replicate 16 0),
    (0x3003, one 0x22 0, [0, 0]), (0x3004, one 0x22 0, [0]), (0x3005, one 0x21 0, [])]

def tried2 : List (Nat × Nat × List Nat) :=
  let dev := 0xFF
  let one (cls i : Nat) := cls + 256 * i
  [(0x4001, one 0x30 0, [0]), (0x4002, one 0x31 127, [0]), (0x4003, one 0x30 0, []), (0x4004, one 0x30 0, List.replicate 6 0),
    (0x4005, one 0x32 15, [0]), (0x4006, one 0x32 15, [0, 0]), (0x4007, one 0x30 0, []), (0x5001, one 0x60 3, []),
    (0x5002, one 0x60 3, [0, 0, 0, 0]), (0x5003, one 0x60 3, [0]), (0x5004, one 0x60 3, [0, 0, 0]), (0x5005, one 0x62 15, [0, 0]),
    (0x5006, one 0x61 0, [0]), (0x6001, dev, [0, 0, 12]), (0x6002, dev, [0, 0, 5]), (0x6003, dev, [0, 0, 0, 0, 0]), (0x6004, one 0x4A 0, [0]),
    (0x6005, one 0x49 3, [0, 0]), (0x6006, one 0x49 3, [0]), (0x6007, one 0x48 15, [0]), (0x6008, dev, [63, 0, 0, 8, 15, 0]),
    (0x7001, one 0x50 11, [0]), (0x7002, one 0x51 47, [0]), (0x7003, one 0x51 47, []), (0x7004, one 0x51 47, []), (0x7005, one 0x52 11, [0]),
    (0x7006, one 0x58 23, [0]), (0x7007, one 0x59 0, [0, 0]), (0x7008, one 0x58 23, [0, 0]), (0x7008, one 0x52 11, [0, 0]),
    (0x8001, dev, [0, 0, 0, 0, 0]), (0x8002, dev, [0]), (0x8003, 0x70 + 256 * 0x3FF, []), (0x8003, one 0x18 0, []), (0x8004, dev, [0, 0]),
    (0x8005, dev, [0]), (0x9001, one 0x10 23, [0, 0]), (0x9002, one 0x10 23, [0xFF]), (0x9003, one 0x78 0, [0, 0, 0, 0]),
    (0x9004, one 0x79 0, [0]), (0x9005, one 0x01 0, [0])]

theorem witness_packets : ∀ x ∈ tried, readyIs x.1 (packet x.1 x.2.1 x.2.2) = true := by decide +kernel

theorem witness_packets2 : ∀ x ∈ tried2, readyIs x.1 (packet x.1 x.2.1 x.2.2) = true := by decide +kernel

/-- The PF's packet at the head, and the state that has taken it. -/
def headOf (s : State) : Packet := (s.packetAt 0).1
def takenOf (s : State) : State := (s.packetAt 0).2.takeSlots 0 (packetSlots (headOf s).pw)

/-- A packet of the ring served that is taken, as a test. -/
def takenIs (op : Nat) (s : State) : Bool := s.nextRing == some 0 && (headOf s).ver == 1 && (headOf s).op == op

theorem taken_of {op : Nat} {s : State} (h : takenIs op s = true) : Claims.Taken s 0 op (headOf s) (takenOf s) := by
  simp only [takenIs, Bool.and_eq_true, beq_iff_eq] at h
  exact ⟨h.1.1, rfl, h.1.2, h.2, rfl⟩

/-- A completion ring without a result's place, an operation under way, a posted task. -/
def anOp (op : BitVec 16) (k : LrKind) (cls sel : Nat) (params : List Word) : LrOp := ⟨op, 0, 7, 0, false, k, cls, sel, params, 0, false, false, 0⟩
def withOp (o : LrOp) (s : State) : State := { s with dvorys := { s.dvorys with ops := [o] } }

/-- Requester 3 stands at the post port before Dvorys. -/
def rival (s : State) : State := { s with disp := { s.disp with held := [(3, [⟨0, 0, 0, false, none⟩])] } }

theorem witness_PacketsAreCheckedAndAnswered :
    (Claims.PacketOf (.nop 15) 15 1 ∧ Claims.PacketOf (.journalRead 15) 15 0x9005 ∧ State.reset.nextRing ≠ some 15) ∧
    (takenIs 0x0004 (packet 0x0004 0xFF []) = true ∧ ((takenOf (packet 0x0004 0xFF [])).refusal (headOf (packet 0x0004 0xFF []))).isSome = true) ∧
    ((packet 0x0009 0xFF []).nextRing = some 0 ∧ opRow (headOf (packet 0x0009 0xFF [])).op = none) ∧
    (let p (fn op target pw : Nat) : Packet := ⟨fn, op, false, false, 1, 0, BitVec.ofNat 32 target, pw, 0, []⟩
     (opRow 0x0004).isSome = true ∧ (p 0 0x0004 0xFF 0).pw < 1 ∧ 1 < (p 0 0x0004 0xFF 2).pw ∧ State.reset.granted (p 15 0x0004 0xFF 1) = false ∧
       State.reset.granted (p 0 0x3002 0x21 16) = true ∧ State.reset.modeServes 0x3002 = false ∧ State.reset.modeServes 0x0004 = true ∧
       (∀ r ∈ opRow 0x0004, targetOk r (p 0 0x0004 0x1FF 1).cls (p 0 0x0004 0x1FF 1).sel = false)) ∧
    ([] : List Word).length ≤ 12 ∧ (List.replicate 12 (0 : Word)).length ≤ 12 ∧
    (let s := packet 0x3002 0x21 (List.replicate 16 0)
     takenIs 0x3002 s = true ∧ s.refusal (headOf s) = none ∧ s.postRoom (headOf s).sel = true ∧ s.taskPostTurn = true ∧
       (takenOf s).refusal (headOf s) = none ∧
       takenIs 0x3002 (inMode .raising s) = true ∧ ((inMode .raising s).refusal (headOf s)).isSome = true ∧
       ((takenOf (inMode .raising s)).refusal (headOf s)).isSome = true ∧ (rival s).taskPostTurn = false ∧
       (fields [(Reg.DQUEUE.LIMIT_MAX_TASKS, 0, 1)] (s.putTask 5 (aTask 0 0))).postRoom 0 = false) ∧
    (let s := packet 0x3002 0x21 (List.replicate 16 0)
     tget false ({ s with dvorys := { s.dvorys with heldPacket := [(0, true)] } } : State).dvorys.heldPacket 0 = true ∧
       (s.serves && s.postMode && s.postRoom (s.packetAt 0).1.sel && s.taskPostTurn) = true ∧
       (inMode .raising s).postMode = false) ∧
    (∀ o ∈ (withOp (anOp 5 .memCopy 0xFF 0 []) State.reset).dvorys.ops, o.opId = 5) := by
  and_intros <;> first
    | decide +kernel
    | simp [Claims.PacketOf]

/-- A packet of every opcode passes its checks somewhere. -/
theorem witness_ready : ∀ x ∈ tried ++ tried2, ∃ p u, Claims.Ready (packet x.1 x.2.1 x.2.2) 0 x.1 p u := by
  intro x hx
  refine ⟨_, _, ready_of ?_⟩
  rcases List.mem_append.1 hx with h | h
  · exact witness_packets x h
  · exact witness_packets2 x h

theorem witness_ConfigurationPacketsWriteRegisters :
    (∀ op ∈ [0x2001, 0x2004, 0x3001, 0x4001, 0x4002, 0x4005, 0x5002, 0x5003, 0x5004, 0x5005, 0x5006, 0x6007, 0x7002, 0x7005, 0x7006, 0x9004,
      0x1003, 0x3003, 0x4006, 0x7007, 0x7008, 0x9001, 0x1004, 0x6008], op ∈ (tried ++ tried2).map (·.1)) ∧
    (headOf (packet 0x1004 (0x22 + 256 * 31) [0x300, 0, 0])).sel < 0x200 ∧
    (let s := packet 0x6008 0xFF [63, 0, 0, 8, 15, 0]
     (takenOf s).modeTakes 0x40 (0x208 + 0x10 * (63 % 16)) = true ∧ (takenOf s).hubTakes 8 = true ∧
       (takenOf s).writeTargets 0x40 (63 / 16) (0x208 + 0x10 * (63 % 16)) = [63 / 16]) := by
  and_intros <;> decide +kernel

theorem witness_ReadingPacketsAnswer :
    (∀ op ∈ [0x2002, 0x7004, 0x3005, 0x1002, 0x3004, 0x6004, 0x5001, 0x1007, 0x4007, 0x0001, 0x0002, 0x0003, 0x1001, 0x6001, 0x9002, 0x2003,
      0x9005, 0x8005], op ∈ (tried ++ tried2).map (·.1)) ∧
    (∀ n ∈ [0, 1, 12, 13], readyIs 0x6001 (packet 0x6001 0xFF [0, 0, n]) = true) ∧
    ((takenOf (packet 0x6001 0xFF [0, 0, 12])).pairRead 0 48).1 = .ok ∧
    ((takenOf (packet 0x6001 0xFF [0x50000000, 0, 1])).pairRead 0x50000000 4).1 = .decodeError ∧
    (let s := (packet 0x6001 0xFF [0, 0, 1]).setNiFence 63 (32 * 4) true
     readyIs 0x6001 s = true ∧ ((takenOf s).pairRead 0 4).1 = .fenced) ∧
    (let s := (packet 0x6001 0xFF [0, 0, 1]).setRoute 63 0 32 ⟨0, 0, false⟩
     readyIs 0x6001 s = true ∧ ((takenOf s).pairRead 0 4).1 = .targetError) ∧
    (let s := packet 0x9002 (0x10 + 256 * 23) [0xFF]
     (takenOf s).readTarget 0x10 23 0x3C0 = some 23 ∧ (takenOf s).powered 0x10 23 = true ∧ (takenOf s).fencedUnit 0x10 23 = false) ∧
    (headOf (packet 0x2003 0x28 [0])).cls = 0x28 ∧
    readyIs 0x2003 (packet 0x2003 (0x2A + 256 * 63) [13]) = true := by
  and_intros <;> decide +kernel

/-- The same packet with an operation under way, a fence, a region, a page or a grant. -/
theorem witness_ActingPacketsAct :
    (∀ op ∈ [0x0004, 0x0005, 0x0006, 0x0007, 0x0008, 0x1006, 0x1008, 0x1009, 0x2005, 0x4003, 0x4004, 0x6002, 0x1005, 0x6003, 0x8002, 0x8004,
      0x6005, 0x6006, 0x7001, 0x7003, 0x8001, 0x8003, 0x9003], op ∈ (tried ++ tried2).map (·.1)) ∧
    (let v (m : Nat) := (takenOf (packet 0x0004 0xFF [m])).modeVerdict (Mode.ofCode m) true
     v 0 = none ∧ v 3 = some false ∧ v 7 = some true) ∧
    (readyIs 0x0006 (packet 0x0006 0xFF (15 :: List.replicate 9 0xFFFFFFFF)) = true ∧
      (headOf (packet 0x0006 0xFF (15 :: List.replicate 9 0xFFFFFFFF))).pw = 10 ∧
      (headOf (packet 0x0006 0xFF (15 :: List.replicate 9 0xFFFFFFFF))).params.length = 10) ∧
    (∀ k ∈ [LrKind.memCopy, .pageRetire], readyIs 0x0008 (withOp (anOp 9 k 0x78 0 []) (packet 0x0008 0xFF [9])) = true ∧
      ((takenOf (withOp (anOp 9 k 0x78 0 []) (packet 0x0008 0xFF [9]))).dvorys.ops.find? (fun x => x.opId.toNat == 9)).isSome = true) ∧
    (LrKind.memCopy.abortable = true ∧ LrKind.pageRetire.abortable = false) ∧
    (∀ cls ∈ [0x08, 0x09], readyIs 0x1006 (packet 0x1006 (cls + 256 * 511) [0]) = true) ∧
    (23 ∈ (takenOf (packet 0x1008 (0x10 + 256 * 23) [])).members (headOf (packet 0x1008 (0x10 + 256 * 23) []))) ∧
    (let s := (packet 0x1009 (0x10 + 256 * 23) []).addFence 0x10 23 .command .waiting
     readyIs 0x1009 s = true ∧ ((takenOf s).fenceOf 0x10 23).map (·.phase) = some .waiting) ∧
    ((takenOf (packet 0x2005 (0x29 + 256 * 47) [])).members (headOf (packet 0x2005 (0x29 + 256 * 47) [])) = [47] ∧
      readyIs 0x2005 (packet 0x2005 (0x29 + 256 * 0x23F) []) = true ∧
      (takenOf (packet 0x2005 (0x29 + 256 * 0x23F) [])).members (headOf (packet 0x2005 (0x29 + 256 * 0x23F) [])) = []) ∧
    (let s := fields [(Reg.VAULT.RGN_STATE 15, 0, 1)] (packet 0x4004 0x30 [15, 0, 0, 0, 0, 0])
     readyIs 0x4004 s = true ∧ (takenOf s).rgnState 15 = 1 ∧ (takenOf (packet 0x4004 0x30 (List.replicate 6 0))).rgnState 0 = 0) ∧
    (((takenOf (packet 0x6002 0xFF [0, 0, 5])).reqWrite 8 63 0 0 (clean (leBytes 4 5))).1 = .ok) ∧
    (let s := inMode .raising (packet 0x6002 0xFF [0x80000000 + 0x20 * 2 ^ 20 + 0x014, 0, 5])
     let a := 0x80000000 + 0x20 * 2 ^ 20 + 0x014
     readyIs 0x6002 s = true ∧ ((takenOf s).reqWrite 8 63 0 a (clean (leBytes 4 5))).1 = .ok ∧ (takenOf s).region a = .csr ∧
       (takenOf s).modeTakes 0x20 0x014 = false ∧ (takenOf s).writeTargets 0x20 0 0x014 ≠ []) ∧
    ((takenOf (packet 0x6006 (0x49 + 256 * 3) [0])).members (headOf (packet 0x6006 (0x49 + 256 * 3) [0])) = [3]) ∧
    ((takenOf (packet 0x8003 (0x70 + 256 * 0x3FF) [])).fld Reg.DVORYS.PAIR_STATUS_ROLE 1 = 1) := by
  and_intros <;> decide +kernel

/-- A NOP is answered in the completion ring: one slot, whose word 0 is OK with PHASE and word 1 the TAG (R37). -/
theorem test_nop_reply : let t := after (.nop 0) (packet 0x0001 0xFF [])
    (t.page 0).cqTail = 1 ∧ (t.page 0).sqHead = 1 ∧ mreads t.host 0x80000 8 = [0, 0, 0, 0x80, 7, 0, 0, 0] := by decide +kernel
/-! ## Long-running operations -/

def live (k : LrKind) (cls sel : Nat) (params : List Word) (s : State) : State := withOp (anOp 5 k cls sel params) s
def liveIs (k : LrKind) (params : List Word) : Bool :=
  (live k 0xFF 0 params State.reset).liveOp 5 k == some (anOp 5 k 0xFF 0 params)
def aborting (k : LrKind) : State := withOp { anOp 5 k 0xFF 0 [] with aborting := true } State.reset

/-- REG_BLOCK's one pair in a Treasury word in error. -/
def badPair : State := State.reset.writeMem 0 ((List.replicate 16 0).map (fun b => (b, true)))

/-- A fence of Course 23 in a phase. -/
def fenced (ph : FencePhase) (met : Bool) : State := { State.reset with fences := [⟨0x10, 23, .command, ph, false, met, 0⟩] }

/-- Two channels re-mapped, one being evacuated, migration at a page. -/
def evacuating (ptr : Nat) : State :=
  { live .evacuate 0x49 3 [3] State.reset with memSys := { State.reset.memSys with ilvOld := some (2, 2), migPtr := ptr, evacCh := some 3 } }

def stageIs (st : StageState) (s : State) : State := { s with dvorys := { s.dvorys with images := { s.dvorys.images with stage := st } } }

def pairs (r0 r1 : Nat) : State := fields [(Reg.DVORYS.PAIR_STATUS_ROLE, 0, r0), (Reg.DVORYS.PAIR_STATUS_ROLE, 1, r1)] State.reset

def aCollect (period sweep : Nat) (failed : Bool) : Collect := ⟨0, 1, 0x1000, period, 0, sweep, 0, failed⟩
def collecting (c : Collect) : State :=
  { live .collect 0x78 0 [] State.reset with observe := { State.reset.observe with collect := some c } }

theorem witness_LongOperationsEnd :
    (liveIs .regBlock [0, 0, 0] = true ∧ liveIs .regBlock [0, 0, 1] = true ∧ liveIs .regBlock [0, 0, 0xFFFF] = true ∧
      (State.reset.pairRead 0 8).1 = .ok ∧ (State.reset.pairRead 0 8).2.1.any Prod.snd = false ∧
      (badPair.pairRead 0 8).1 = .ok ∧ (badPair.pairRead 0 8).2.1.any Prod.snd = true ∧
      State.reset.modeTakes 0x20 0x014 = false ∧ State.reset.writeTargets 0x20 0 0x014 ≠ [] ∧
      (let s := State.reset.writeMem 0 (clean (leBytes 4 0x014))
       (bytesToWords 2 ((s.pairRead 0 8).2.1.map Prod.fst)).headD 0 = 0x014)) ∧
    (liveIs .memCopy [0, 0, 0x1000, 0, 15] = true ∧ liveIs .memCopy [0, 0, 0x1000, 0, 16] = true ∧
      (State.reset.pairRead 0 16).1 = .ok ∧ ((State.reset.pairRead 0 16).2.2.reqWrite 8 63 0 0x1000
        (State.reset.pairRead 0 16).2.1).1 = .ok) ∧
    ((fenced .done false).fenceOf 0x10 23 = some ⟨0x10, 23, .command, .done, false, false, 0⟩ ∧
      (anOp 5 .fenceUnit 0x10 23 [23]).members 0 = [23] ∧ (fenced .drained false).fenceOf 0x10 22 = none) ∧
    ((fenced .refilled false).mayLift ⟨0x10, 23, .command, .refilled, false, false, 0⟩ = true ∧
      ∀ ph ∈ [FencePhase.powering, .powerQueued, .done], ∃ f, (fenced ph true).fenceOf 0x10 23 = some f ∧ f.phase = ph ∧
        f.faultMet = true) ∧
    (liveIs .meterCal [47] = true ∧ (anOp 5 .meterCal 0x29 47 [47]).members 0 = [47]) ∧
    (liveIs .vaultExport [0, 0, 0, 0, 0, 0] = true ∧
      ((live .vaultExport 0x30 0 [15] State.reset).exportLeft (anOp 5 .vaultExport 0x30 0 [15]) = []) ∧ State.reset.rgnState 15 ≠ 1 ∧
      (fields [(Reg.VAULT.RGN_STATE 15, 0, 1)] State.reset).rgnState 15 = 1) ∧
    (liveIs .pageRetire [0xFFFFF000, 0x1F, 3] = true ∧ (anOp 5 .pageRetire 0x49 3 [0, 0, 3]).members 2 = [3] ∧
      (State.reset.retirePage 3 0).isSome = true ∧
      ({ State.reset with memSys := { State.reset.memSys with retired := (List.range 256).map (fun n => (768 + n, n, n)) } } : State).retirePage 3
        256 = none) ∧
    (∀ n ∈ [0, 4095, 4096], ((evacuating n).liveOp 5 .evacuate).isSome = true ∧ (evacuating n).memSys.ilvOld.isSome = true ∧
      (evacuating n).memSys.migPtr = n) ∧
    (liveIs .imageStage [0, 0, 0, 0, 0] = true ∧ liveIs .imageStage [0, 3, 0, 0, 0xFFFFFFFF] = true ∧ State.reset.hostUp 0 = false) ∧
    (liveIs .imageVerify [0] = true ∧ ∀ st ∈ [StageState.empty, .staging, .staged, .verified],
      (stageIs st (live .imageVerify 0xFF 0 [0] State.reset)).images.stage = st) ∧
    (((live .imageActivate 0x70 0x3FF [] (pairs 2 3)).findOp 5 .imageActivate).map (·.cls) = some 0x70 ∧
      (pairs 2 3).fld Reg.DVORYS.PAIR_STATUS_ROLE (1 - (pairs 2 3).activePair) = 3 ∧
      (stageIs .verified (pairs 2 3)).verifiedImage.1 = 0 ∧ (pairs 2 3).verifiedImage.1 ≠ 0) ∧
    (liveIs .flashWrite [0, 1] = true ∧ liveIs .flashWrite [0, 2] = true) ∧
    (∀ c ∈ [aCollect 0 0 false, aCollect 0 1 false, aCollect 5 1 true], ((collecting c).liveOp 5 .collect).isSome = true ∧
      (collecting c).observe.collect = some c) ∧
    (∀ k ∈ [LrKind.pageRetire, .imageStage, .collect, .vaultExport, .evacuate, .memCopy, .regBlock],
      ((aborting k).dvorys.ops.find? (fun x => x.opId == 5 && x.aborting)).map (·.kind) = some k) ∧
    ((pairs 2 1).fld Reg.DVORYS.PAIR_STATUS_ROLE (pairs 2 1).activePair = 2 ∧
      (pairs 0 2).fld Reg.DVORYS.PAIR_STATUS_ROLE (pairs 0 2).activePair = 2) ∧
    ((pairs 0 2).fld Reg.DVORYS.PAIR_STATUS_ROLE 0 = 0 ∧ (pairs 0 2).fld Reg.DVORYS.PAIR_STATUS_ROLE 1 ≠ 0 ∧
      (pairs 0 1).fld Reg.DVORYS.PAIR_STATUS_ROLE 0 = 0 ∧
      (fields [(Reg.SYS.RAISE_STATUS_DVORYS_UP, 0, 1)] (pairs 0 2)).fld Reg.SYS.RAISE_STATUS_DVORYS_UP 0 = 1) := by
  and_intros <;> decide +kernel

/-- A MEM_COPY of 16 bytes copies them and answers with their number (R44). -/
theorem test_mem_copy :
    let s := withOp (anOp 5 .memCopy 0xFF 0 [0x20, 0, 0x100, 0, 31]) (State.reset.writeMem 0x20 (clean (List.replicate 16 9)))
    let t := after (.memCopyDone 5) s
    mread t.mem 0x100 = 9 ∧ mread t.mem 0x110 = 0 ∧ t.dvorys.ops = [] := by decide +kernel

theorem witness_CollectorSamplesAndTrace :
    ((collecting (aCollect 5 1 false)).observe.collect = some (aCollect 5 1 false) ∧
      (collecting (aCollect 0 1 false)).observe.collect = some (aCollect 0 1 false) ∧ State.reset.observe.collect = none ∧
      1 * 5 * 24576 ≤ 100 * (({ State.reset with time := { State.reset.time with tcnt := 1229 } } : State).time.tcnt.toNat - 0) ∧
      ¬ 1 * 5 * 24576 ≤ 100 * (State.reset.time.tcnt.toNat - 0) ∧
      ∃ o ∈ (aborting .collect).dvorys.ops, o.kind = .collect ∧ o.aborting = true) ∧
    (let s : State := { State.reset with observe := { State.reset.observe with sampBuf := [(23, [List.replicate 8 7])] } }
     tget [] s.observe.sampBuf 23 = [List.replicate 8 7] ∧ s.running 0x10 23 = true ∧
     (fields [(Reg.PWR.STATUS_STATE, 27, 0)] s).running 0x10 23 = false ∧
     ¬ (s.fld Reg.COURSE.SAMP_WR_WR 23 + 2 ^ 21 - s.fld Reg.COURSE.SAMP_RD_RD 23) % 2 ^ 21 = (s.sampGeo 23).2 ∧
     (let u := fields [(Reg.COURSE.SAMP_WR_WR, 23, (s.sampGeo 23).2)] s
      (u.fld Reg.COURSE.SAMP_WR_WR 23 + 2 ^ 21 - u.fld Reg.COURSE.SAMP_RD_RD 23) % 2 ^ 21 = (u.sampGeo 23).2) ∧
     (s.busPut 23 0 (s.sampGeo 23).1 (clean (wordsToBytes (List.replicate 8 7)))).1 = .ok ∧
     ((fields [(Reg.COURSE.SAMP_BASE_LO_BASE_LO, 23, 0x50000000)] s).busPut 23 0 ((fields [(Reg.COURSE.SAMP_BASE_LO_BASE_LO, 23, 0x50000000)] s).sampGeo 23).1
       (clean (wordsToBytes (List.replicate 8 7)))).1 ≠ .ok) ∧
    (let s : State := { State.reset with observe := { State.reset.observe with fifo := [[0x64, 1, 2, 3, 4, 5, 6]], sinceSync := 4089 } }
     s.observe.fifo = [[0x64, 1, 2, 3, 4, 5, 6]] ∧ 4096 ≤ s.observe.sinceSync + 7 ∧ s.fld Reg.TRACE.CTL_EN 0 = 0 ∧
       (fields [(Reg.TRACE.CTL_EN, 0, 1)] s).fld Reg.TRACE.CTL_EN 0 = 1 ∧ s.observe.lost = 0 ∧
       ({ s with observe := { s.observe with lost := 70000 } } : State).observe.lost = 70000 ∧
       ([] : List (List Nat)).length ≤ 2045 ∧ 2045 < ([List.replicate 2046 0].map List.length).sum) := by
  and_intros <;> decide +kernel
/-! ## The host, modes, faults and power -/

/-- The host's link is up and function 15 a bus master with MSI-X. -/
def linked : State := fields [(Reg.PCIE.STATUS_LINK_UP, 0, 1), (Reg.PCIE_FN.STATUS_BME, 15, 1), (Reg.PCIE_FN.STATUS_MSIX_EN, 15, 1)] State.reset

/-- Aperture 15 onto Treasury memory; onto a hole. -/
def windowAt (lo : Nat) : State := (linked.setReg 0x68 0 0x0BC 0).setReg 0x68 0 0x0B8 (BitVec.ofNat 32 (lo + 1))

/-- A read of host memory that waits for the host. -/
def hostRead_ : Flit := ⟨.ejected 58, 0, 0, 12, 232, false, [], 9, .request 0 0 1 0 0x8000000000⟩

theorem witness_TheHostActs :
    (linked.hostReach = true ∧ State.reset.hostReach = false) ∧
    (linked.pageTakes = true ∧ (inMode .banked linked).pageTakes = false ∧ (inMode .banked linked).hostReach = true ∧
      (linked.page 15).enable = false ∧ ((linked.setPage 15 { RingPage.reset with enable := true }).page 15).enable = true) ∧
    ((fields [(Reg.PCIE_FN.STATUS_FLR_BUSY, 15, 1)] State.reset).fld Reg.PCIE_FN.STATUS_FLR_BUSY 15 = 1 ∧
      State.reset.fld Reg.PCIE_FN.STATUS_FLR_BUSY 15 = 0 ∧ ((State.reset.setPage 15 { RingPage.reset with quiescing := true }).page 15).quiescing = true ∧
      State.reset.eventsOwed 15 = 0 ∧ (withOp { anOp 5 .memCopy 0xFF 0 [] with fn := 15 } State.reset).eventsOwed 15 ≠ 0) ∧
    (let s : State := { State.reset.setPage 15 { RingPage.reset with irqEn := true, coalTime := 1, unsignalled := 1 } with devclk := 100 }
     let p := s.page 15
     p.irqEn = true ∧ p.coalTime ≠ 0 ∧ 0 < p.unsignalled ∧ p.coalSince + 100 * p.coalTime.toNat ≤ s.devclk.toNat) ∧
    (∀ b ∈ [0, 1], let s := fields [(Reg.DVORYS.BAR0_CTL_OPEN, 0, b)] linked
      s.hostReach = true ∧ s.fld Reg.DVORYS.BAR0_CTL_OPEN 0 = b) ∧
    (∀ wr : Bool, ((windowAt 0).bar2Check wr 0xF00000000 4).1 = 0 ∧ ((windowAt 0x48000000).bar2Check wr 0xF00000000 4).1 = 1 ∧
      (windowAt 0).hostReach = true ∧ (((windowAt 0).setNiFence 58 (32 * 4) true).bar2Check wr 0xF00000000 4).1 = 2) ∧
    (let s := linked.setVec 1856 ⟨0xFEE00000, 7, false, true⟩
     (s.vec 1856).pending = true ∧ s.vecSendable 1856 = true) ∧
    (State.reset.hostRequest 0 0 = none ∧
      (let s : State := { State.reset with mortar := { State.reset.mortar with hostWait := [hostRead_] } }
       s.hostRequest 0 0 = some hostRead_)) ∧
    (let s : State := { State.reset with pcie := { State.reset.pcie with training := true } }
     s.pcie.training = true ∧ s.pcie.perstN = true ∧ s.linkMode = true ∧ s.modes.mode = .raising) ∧
    (linked.fld Reg.PCIE.STATUS_LINK_UP 0 = 1 ∧ linked.pcie.perstN = true ∧ linked.linkMode = true) ∧
    (let s : State := { State.reset with pcie := { State.reset.pcie with perstN := false } }
     s.pcie.perstN = false ∧ s.linkMode = true) := by
  and_intros <;> decide +kernel

/-- Bits 11–4 of a BAR0 access with a part of a dword are counted and change nothing (R378). -/
theorem test_bar0_partial :
    let s := after (.bar0Write 0x60010 [(5, 3)]) (fields [(Reg.DVORYS.BAR0_CTL_OPEN, 0, 1)] linked)
    s.fld Reg.PCIE.BAR0_PARTIAL_COUNT 0 = 1 := by decide +kernel

/-- A mode transition under way. -/
def towards (m : Mode) (s : State) : State := { s with modes := { s.modes with target := some m } }

/-- Service on the way to Banked, the work done. -/
def banking : State := towards .banked (inMode .service State.reset)

theorem witness_ModesAndBringUp :
    (let s := fields [(Reg.SYS.MODE_RESULT_RESULT, 0, 3)] (towards .service State.reset)
     let u := fields [(Reg.SYS.MODE_RESULT_RESULT, 0, 3), (Reg.PWR.STATUS_STATE, 44, 5)] banking
     s.fld Reg.SYS.MODE_RESULT_RESULT 0 = 3 ∧ s.modes.mendingCause = none ∧ s.transitionReady .service = true ∧
       u.fld Reg.SYS.MODE_RESULT_RESULT 0 = 3 ∧ ({ u with modes := { u.modes with mendingCause := some 5 } } : State).transitionReady .banked = true) ∧
    ((towards .service State.reset).transitionReady .service = true ∧ banking.transitionReady .banked = false ∧
      (fields [(Reg.PWR.STATUS_STATE, 44, 5)] banking).transitionReady .banked = true ∧ State.reset.modes.target = none ∧
      State.reset.mendingAfter = none ∧
      ({ State.reset with fences := [⟨0x10, 23, .command, .done, false, false, 0⟩] } : State).mendingAfter = some 4 ∧
      (let s := fields [(Reg.PWR.STATUS_STATE, 44, 5)] banking
       ({ s with modes := { s.modes with mendingCause := some 5 } } : State).transitionReady .banked = true)) ∧
    (banking.workDone = true ∧ (fields [(Reg.KEEP.STATUS_RUNNING, 7, 1)] banking).keepAwake 7 = true) ∧
    (banking.modes.target = some .banked ∧ banking.domState 44 ≠ 5 ∧ (∀ k < 8, banking.keepAwake k = false) ∧
      (∀ c < 128, banking.dmaBusy c = false) ∧ banking.channelsStopped = true ∧ banking.vaultStopped = true) ∧
    (State.reset.power.resetN = true ∧ ({ State.reset with power := { State.reset.power with resetN := false } } : State).power.resetN = false) ∧
    (let s : State := { inMode .footing State.reset with power := { State.reset.power with resetN := false } }
     s.modes.mode = .footing ∧ s.power.hot = false ∧ (inMode .footing State.reset).power.resetN = true ∧
       (inMode .footing State.reset).power.ioLow = false ∧ (inMode .footing State.reset).power.fusing = false ∧
       State.reset.power.footAt + 1000 ≤ ({ State.reset with devclk := 1000 } : State).devclk.toNat ∧
       State.reset.devclk.toNat < State.reset.power.footAt + 1000) ∧
    ((inMode .bedding State.reset).modes.mode = .bedding ∧ (inMode .bedding State.reset).fld Reg.SYS.BOOT_STATUS_BIST_FAIL 0 = 0 ∧
      4 ≤ (4 : BitVec 3).toNat) ∧
    (State.reset.booting = true ∧ State.reset.fld Reg.SYS.BOOT_STATUS_WAITING_HOST 0 = 0 ∧ State.reset.bootSources = [0, 1] ∧
      (fields [(Reg.SYS.BOOT_STATUS_BOOT_MODE, 0, 3)] State.reset).bootSources = []) ∧
    (let s := fields [(Reg.SYS.RAISE_STATUS_DVORYS_UP, 0, 1)] State.reset
     s.raiseDue Reg.SYS.RAISE_STATUS_BULK_TRAINED true = true ∧ State.reset.raiseDue Reg.SYS.RAISE_STATUS_BULK_TRAINED true = false ∧
       (let t := fields [(Reg.SYS.RAISE_STATUS_BULK_TRAINED, 0, 1), (Reg.BULK.STATUS_TRAINED, 3, 1)] s
        t.raiseDue Reg.SYS.RAISE_STATUS_BULK_FILLED true = true ∧ t.fld Reg.BULK.STATUS_TRAINED 3 = 1) ∧
       s.raiseDue Reg.SYS.RAISE_STATUS_AVS_CAL false = true ∧
       (fields [(Reg.SYS.RAISE_STATUS_AVS_CAL, 0, 1)] s).raiseDue Reg.SYS.RAISE_STATUS_AVS_CAL false = false ∧
       s.raiseDue Reg.SYS.RAISE_STATUS_METERS_CAL true = true) := by
  and_intros <;> decide +kernel

/-- The end of a transition: CODE is the target's, and BAR0 closes on the way into Service (R48, R56). -/
theorem test_transition :
    let s := after .modeTransitionDone (fields [(Reg.DVORYS.BAR0_CTL_OPEN, 0, 1)] (towards .service State.reset))
    s.modes.mode = .service ∧ s.modes.target = none ∧ s.fld Reg.DVORYS.BAR0_CTL_OPEN 0 = 0 := by decide +kernel

/-- Course 23's domain with a fence of it in a phase. -/
def domainAt (st : Nat) (ph : FencePhase) (met : Bool) : State := fields [(Reg.PWR.STATUS_STATE, 27, st)] (fenced ph met)

def sequencer (ramping : Option Nat) (up : List Nat) (s : State) : State :=
  { s with power := { s.power with ramping := ramping, waitingUp := up } }

theorem witness_FaultsAndPower :
    (let s : State := { State.reset.setCore 191 { Core.reset with ending := some (.exc 8) } with devclk := 200 }
     let u : State := { s with faults := { s.faults with recoveries := [⟨2, 0x11, 191, 0⟩] } }
     s.running 0x11 191 = true ∧ (s.core 191).ending = some (.exc 8) ∧ s.faults.recoveries = [] ∧ s.faults.held = false ∧
       (∀ r ∈ u.faults.recoveries, r.since + 200 ≤ u.devclk.toNat) ∧
       (∃ r ∈ ({ u with devclk := 199 } : State).faults.recoveries, ¬ r.since + 200 ≤ ({ u with devclk := 199 } : State).devclk.toNat)) ∧
    (let s := State.reset.setEng 231 { State.reset.eng 231 with hung := some 5 }
     (s.eng (192 + 39)).hung.isSome = true ∧ s.running (unitOf (192 + 39)).1 (unitOf (192 + 39)).2 = true) ∧
    (State.reset.setSlot 231 [5]).slot 231 = [5] ∧
    (State.reset.unitOn 231 = true ∧ (fields [(Reg.PWR.STATUS_STATE, 4, 0)] State.reset).unitOn 0 = false) ∧
    ((carrying (ejected 0 0 0 12 0 (.request 0 0 1 0 0x40000000)) State.reset).ejectedAt 0 (fun f => f.plane == 0)).isSome = true ∧
    ((fenced .waiting false).fenceOf 0x10 23 = some ⟨0x10, 23, .command, .waiting, false, false, 0⟩ ∧ State.reset.fenceOf 0x10 23 = none ∧
      (fenced .draining false).fenceOf 0x10 23 = some ⟨0x10, 23, .command, .draining, false, false, 0⟩) ∧
    (let s := { fenced .waiting false with devclk := 5000 }
     0 + 5000 ≤ s.devclk.toNat ∧ State.reset.devclk.toNat < 0 + 5000) ∧
    ((domainAt 6 .drained false).domState 27 = 6 ∧ (domainAt 6 .drained false).fencesIn 27 = [⟨0x10, 23, .command, .drained, false, false, 0⟩] ∧
      ({ domainAt 6 .drained false with fences := [⟨0x10, 23, .command, .drained, true, false, 0⟩] } : State).fencesIn 27 =
        [⟨0x10, 23, .command, .drained, true, false, 0⟩]) ∧
    (let s := sequencer none [27] (domainAt 0 .powerQueued false)
     s.power.ramping = none ∧ rrPick 78 s.power.lastDomain s.power.waitingUp.contains = some 27 ∧
       (sequencer (some 27) [] s).power.ramping ≠ none) ∧
    (∀ b : Bool, let s := fields [(Reg.PWR.STATUS_AVS_OK, 27, 1)] (sequencer (some 27) [] (domainAt 1 .powering b))
      s.power.ramping = some 27 ∧ s.fld Reg.PWR.STATUS_AVS_OK 27 = 1 ∧
      s.fencesIn 27 = [⟨0x10, 23, .command, .powering, false, b, 0⟩]) ∧
    (State.reset.domState 77 = 3 ∧ (77 : Nat) ∉ State.reset.power.skips ∧ State.reset.fld Reg.CLK.AVS_CTL_EN 0 = 1 ∧
      (fields [(Reg.CLK.AVS_CTL_EN, 0, 0)] State.reset).fld Reg.CLK.AVS_CTL_EN 0 = 0 ∧ (domainAt 0 .done false).domState 27 ≠ 3 ∧
      (77 : Nat) ∈ ({ State.reset with power := { State.reset.power with skips := [77] } } : State).power.skips) ∧
    (State.reset.power.refGone = false ∧ ({ State.reset with power := { State.reset.power with refGone := true } } : State).power.refGone = true) := by
  and_intros <;> decide +kernel

/-- A keystone's parity fault: COUNT takes RELOAD, FAIL is set (R389). -/
theorem test_keystone_parity :
    let s := after (.unitParity 5 8191 false) (State.reset.setKey 8191 ⟨3, 9, false, false⟩)
    (s.key 8191).count = 9 ∧ (s.key 8191).fail = true := by decide +kernel
end Sys2Proof.Tests
end

namespace Sys2Proof.Machine

/-! ## The state after reset -/

/-- An account nothing has moved yet agrees with R203. -/
theorem reset_booksOk : State.reset.booksOk := fun a => by
  simp [State.account, State.reset, Ledger.reset, tget, tfind, Account.balanced, Account.reset]

/-- Settles O6: every table is empty right after reset, and every account reads as its reset value. -/
theorem resetMeetsInvariants : Obligations.ResetMeetsInvariants :=
  ⟨⟨empty_wf _, empty_wf _, empty_wf _⟩, List.Pairwise.nil, reset_booksOk, rfl⟩

/-! ## Writes that the mode ignores (R10) -/

/-- A register whose heading does not list the mode in force takes no write. -/
theorem State.modeTakes_of_findReg {s : State} {cls off : Nat} {r : RegDef} (hr : findReg cls off = some r) :
    s.modeTakes cls off = bitOf r.modes s.modes.mode.code := by
  simp [State.modeTakes, hr]

/-- In a mode that the register does not list no member write happens. -/
theorem State.eachMember_of_modeTakes_eq_false {s : State} {cls off : Nat} (h : s.modeTakes cls off = false) (sel : Nat)
    (f : State → Nat → State) : s.eachMember cls sel off f = s := by
  simp [State.eachMember, h]

/-- In a mode that the register does not list a write changes nothing, whatever its selector. -/
theorem State.csrWrite_of_modeTakes_eq_false {s : State} {cls off : Nat} (h : s.modeTakes cls off = false) (req sel : Nat)
    (v : Word) : s.csrWrite req cls sel off v = s := by
  unfold State.csrWrite State.hubEach
  split
  · rfl
  · split
    · exact State.eachMember_of_modeTakes_eq_false h _ _
    · rfl

/-- Settles O12: no member of the selector is written. -/
theorem modeForbidsRegisterWrite : Obligations.ModeForbidsRegisterWrite := by
  intro req cls sel offset value s r hr hm
  exact congrArg Host.Outcome.next
    (State.csrWrite_of_modeTakes_eq_false ((State.modeTakes_of_findReg hr).trans hm) req sel.toNat value)

/-! ## Storing a word by field type (R6) -/

/-- What a field of a type holds after its bits `x` are written over its bits `o`, in a field of `n` bits (R6). -/
def FieldTy.stored (ty : FieldTy) (n x o : Nat) : Nat :=
  match ty with
  | .rw | .rws => x
  | .w1c => o &&& (2 ^ n - 1 - x)
  | .w1s => o ||| x
  | .ro | .wo => o

theorem FieldTy.stored_lt (ty : FieldTy) {n x o : Nat} (hx : x < 2 ^ n) (ho : o < 2 ^ n) : ty.stored n x o < 2 ^ n := by
  cases ty
  case rw | rws => exact hx
  case ro | wo => exact ho
  case w1c => exact Nat.and_lt_two_pow _ (by omega)
  case w1s => exact Nat.or_lt_two_pow ho hx

theorem wordField_lt (w : Word) (m l : Nat) : wordField w m l < 2 ^ (m + 1 - l) := Nat.mod_lt _ (Nat.two_pow_pos _)

/-- Storing a word stores it into the first field and then into the others. -/
theorem storeFields_cons (f : FieldDef) (fs : List FieldDef) (w v : Word) :
    storeFields (f :: fs) w v = storeFields fs (putField w f.msb f.lsb
      (f.ty.stored (f.msb + 1 - f.lsb) (wordField v f.msb f.lsb) (wordField w f.msb f.lsb))) v := by
  simp only [storeFields]
  cases f.ty <;> rfl

/-- Bits that no field covers keep their value. -/
theorem wordField_storeFields_outside {fs : List FieldDef} {m l : Nat} (hl : l ≤ m)
    (hf : ∀ f ∈ fs, f.lsb ≤ f.msb ∧ f.msb < 32) (hd : ∀ f ∈ fs, m < f.lsb ∨ f.msb < l) (w v : Word) :
    wordField (storeFields fs w v) m l = wordField w m l := by
  induction fs generalizing w with
  | nil => rfl
  | cons f r ih =>
    obtain ⟨⟨hfl, hfm⟩, hr⟩ := List.forall_mem_cons.mp hf
    obtain ⟨hdf, hdr⟩ := List.forall_mem_cons.mp hd
    rw [storeFields_cons, ih hr hdr, wordField_putField_other w _ hfl hfm hl hdf]

/-- A field holds what its type makes of the bits written over it. -/
theorem wordField_storeFields {fs : List FieldDef} (h : Claims.apart fs) (w v : Word) {f : FieldDef} (hf : f ∈ fs) :
    wordField (storeFields fs w v) f.msb f.lsb =
      f.ty.stored (f.msb + 1 - f.lsb) (wordField v f.msb f.lsb) (wordField w f.msb f.lsb) := by
  induction fs generalizing w with
  | nil => cases hf
  | cons g r ih =>
    obtain ⟨hin, hap⟩ := h
    obtain ⟨⟨hgl, hgm⟩, hr⟩ := List.forall_mem_cons.mp hin
    obtain ⟨hg, hap⟩ := List.pairwise_cons.mp hap
    rw [storeFields_cons]
    obtain rfl | hf := List.mem_cons.mp hf
    · rw [wordField_storeFields_outside hgl hr hg, wordField_putField_self w _ hgl hgm,
        Nat.mod_eq_of_lt (FieldTy.stored_lt _ (wordField_lt _ _ _) (wordField_lt _ _ _))]
    · rw [ih ⟨hr, hap⟩ _ hf, wordField_putField_other w _ hgl hgm (hr f hf).1 (hg f hf).symm]

/-- A bit of a word within bits [m:l], as a bit of their number. -/
theorem getLsbD_eq_testBit_wordField (w : Word) {m l k : Nat} (hl : l ≤ k) (hm : k ≤ m) :
    w.getLsbD k = (wordField w m l).testBit (k - l) := by
  rw [wordField, Nat.testBit_mod_two_pow, Nat.testBit_div_two_pow, Nat.sub_add_cancel hl, BitVec.getLsbD,
    decide_eq_true (by omega : k - l < m + 1 - l), Bool.true_and]

/-- The bits of a field that writing 1 clears. -/
theorem testBit_stored_w1c {n x o : Nat} (hx : x < 2 ^ n) {k : Nat} (hk : k < n) :
    (FieldTy.w1c.stored n x o).testBit k = (o.testBit k && !x.testBit k) := by
  have e : 2 ^ n - 1 - x = 2 ^ n - (x + 1) := by omega
  simp only [FieldTy.stored, e, Nat.testBit_and, Nat.testBit_two_pow_sub_succ hx, hk, decide_true, Bool.true_and]

/-- The bits of a field that writing 1 sets. -/
theorem testBit_stored_w1s (n x o k : Nat) : (FieldTy.w1s.stored n x o).testBit k = (o.testBit k || x.testBit k) :=
  Nat.testBit_or ..

/-- Settles O10, by induction on the fields: each is stored apart from the others. -/
theorem fieldTypesDecideTheStore : Obligations.FieldTypesDecideTheStore := by
  intro fs w v h
  refine ⟨fun f hf ht => ?_, fun f hf ht => ?_, fun f hf ht k hl hm => ?_, fun f hf ht k hl hm => ?_, fun k hk => ?_⟩
  · rw [wordField_storeFields h w v hf]
    obtain ht | ht := ht <;> rw [ht] <;> rfl
  · rw [wordField_storeFields h w v hf]
    obtain ht | ht := ht <;> rw [ht] <;> rfl
  · rw [getLsbD_eq_testBit_wordField _ hl hm, wordField_storeFields h w v hf, ht,
      testBit_stored_w1c (wordField_lt _ _ _) (by omega), ← getLsbD_eq_testBit_wordField w hl hm,
      ← getLsbD_eq_testBit_wordField v hl hm]
  · rw [getLsbD_eq_testBit_wordField _ hl hm, wordField_storeFields h w v hf, ht, testBit_stored_w1s,
      ← getLsbD_eq_testBit_wordField w hl hm, ← getLsbD_eq_testBit_wordField v hl hm]
  · rw [getLsbD_eq_testBit_wordField _ le_rfl le_rfl, wordField_storeFields_outside le_rfl h.1 hk,
      ← getLsbD_eq_testBit_wordField w le_rfl le_rfl]

/-! ## The register table (R5, R9) -/

/-- A register that is found is one of its class, a GRP_MEMBER register or one of the counter bank (R15). -/
theorem mem_of_findReg {cls off : Nat} {r : RegDef} (h : findReg cls off = some r) :
    r ∈ classRegs cls ∨ r ∈ regsGroup ∨ r ∈ regsCommon := by
  unfold findReg at h
  split at h
  next e => exact .inl (Option.some.inj h ▸ List.mem_of_find?_eq_some e)
  next =>
    split at h
    next e =>
      have hr := Option.some.inj h ▸ List.mem_of_find?_eq_some e
      split at hr
      · exact .inr (.inl hr)
      · cases hr
    next => exact .inr (.inr (List.mem_of_find?_eq_some h))

/-- Whether the fields of each register of a table lie in the word and apart from each other. -/
def tableApart (l : List RegDef) : Bool :=
  l.all fun r => r.fields.all (fun f => decide (f.lsb ≤ f.msb ∧ f.msb < 32)) &&
    decide (r.fields.Pairwise fun f g => f.msb < g.lsb ∨ g.msb < f.lsb)

theorem apart_of_tableApart {l : List RegDef} (h : tableApart l = true) {r : RegDef} (hr : r ∈ l) : Claims.apart r.fields := by
  have := List.all_eq_true.mp h r hr
  simpa [Claims.apart] using this

/-- Every class's own table is well formed. -/
theorem classRegs_tableApart (cls : Nat) : tableApart (classRegs cls) = true := by
  unfold classRegs
  split <;> decide +kernel

/-- Settles O11: the table of each class, of GRP_MEMBER and of the counter bank, one by one. -/
theorem registerFieldsApart : Obligations.RegisterFieldsApart := by
  intro cls off r h
  obtain hr | hr | hr := mem_of_findReg h
  · exact apart_of_tableApart (classRegs_tableApart cls) hr
  · exact apart_of_tableApart (l := regsGroup) (by decide +kernel) hr
  · exact apart_of_tableApart (l := regsCommon) (by decide +kernel) hr

/-! ## A register that only stores -/

/-- Below the counter bank, a write in a class whose registers only store stores the word. -/
theorem State.writeOne_of_plainClass {cls off : Nat} (hc : Claims.plainClass cls = true) (ho : off < 0x380) (s : State)
    (req i : Nat) (v : Word) : s.writeOne req cls i off v = s.storeReg cls i off v := by
  have hne : ∀ {c}, Claims.plainClass c = false → cls ≠ c := fun h e => by simp [← e, hc] at h
  have hcoding : ¬(0x18 ≤ cls ∧ cls ≤ 0x1C) := fun h => by
    obtain e | e | e | e | e : cls = 0x18 ∨ cls = 0x19 ∨ cls = 0x1A ∨ cls = 0x1B ∨ cls = 0x1C := by omega
    all_goals exact hne (by decide) e
  have hmem : ¬(cls = 0x48 ∨ cls = 0x49) := not_or.mpr ⟨hne (by decide), hne (by decide)⟩
  unfold State.writeOne
  rw [if_neg (by omega), if_neg (by omega)]
  by_cases hg : 0x370 ≤ off ∧ off < 0x400
  · rw [if_pos hg]
  · rw [if_neg hg]
    repeat rw [if_neg (hne (by decide))]
    rw [if_neg hcoding, if_neg hmem]

/-- A single selector of a present, powered unit that is not fenced names that unit alone (R17, R20). -/
theorem State.writeTargets_single {s : State} {cls sel : Nat} (hs : sel < 0x200) (hp : instPresent cls sel = true)
    (hw : s.powered cls sel = true) (hf : s.fencedUnit cls sel = false) (off : Nat) : s.writeTargets cls sel off = [sel] := by
  simp [State.writeTargets, hs, hp, hw, hf]

/-- A write that the hub and the mode take, of a present, powered unit that is not fenced, is the member's write. -/
theorem State.csrWrite_single {s : State} {req cls sel off : Nat} (hs : sel < 0x200) (hp : instPresent cls sel = true)
    (hw : s.powered cls sel = true) (hf : s.fencedUnit cls sel = false) (hh : s.hubTakes req = true)
    (hm : s.modeTakes cls off = true) (v : Word) : s.csrWrite req cls sel off v = s.writeOne req cls sel off v := by
  rw [State.csrWrite, if_neg (by omega), State.hubEach, if_pos hh, State.eachMember, if_pos hm,
    State.writeTargets_single hs hp hw hf, List.foldl_cons, List.foldl_nil]

theorem State.storeReg_of_findReg {cls off : Nat} {r : RegDef} (hr : findReg cls off = some r) (s : State) (i : Nat) (v : Word) :
    s.storeReg cls i off v = s.setReg cls i off (storeFields r.fields (s.reg cls i off) v) := by
  simp [State.storeReg, hr]

/-- Settles O15: the write is one member's, and that member's register only stores. -/
theorem plainRegisterWriteStores : Obligations.PlainRegisterWriteStores := by
  intro req cls sel off v s r hc hal ho hs hp hw hf hh hr hm
  have e : off.toNat / 4 * 4 = off.toNat := by omega
  refine ⟨s.setReg cls.toNat sel.toNat off.toNat (storeFields r.fields (s.reg cls.toNat sel.toNat off.toNat) v), ?_,
    State.reg_setReg_self .., fun c i o h => State.reg_setReg_other _ _ h, rfl⟩
  show Host.Outcome.next (s.csrWrite req cls.toNat sel.toNat (off.toNat / 4 * 4) v) = _
  rw [e, State.csrWrite_single hs hp hw hf hh ((State.modeTakes_of_findReg hr).trans hm), State.writeOne_of_plainClass hc ho,
    State.storeReg_of_findReg hr]

end Sys2Proof.Machine

/-! ## Moves

What a command does to a state is a run of a few kinds of move: a change of fields that no invariant of chapter 0 speaks of,
a register set, registers dropped, bytes written or dropped on the chip, bytes written to host memory, an account moved
within R203, and the restart that Footing is. A command is a composition of operations, so one lemma an operation says that it
moves on from a state that moves have reached. Every invariant is then proved over the moves alone. None of them touches
DEVCLK or the commands that wait: the two commands that set DEVCLK, and the REF cycle that counts it, stand at the end. -/

namespace Sys2Proof.Machine

/-- The state is reached from `s₀` by moves. -/
inductive Moves (s₀ : State) : State → Prop
  | refl : Moves s₀ s₀
  /-- Any change beside memory, registers, accounts, DEVCLK and the queue. -/
  | beside {s t : State} (hs : Moves s₀ s) (hmem : t.mem = s.mem) (hchk : t.chk = s.chk) (hhost : t.host = s.host)
      (hcsr : t.csr = s.csr) (hacc : t.ledger.accounts = s.ledger.accounts) (hclk : t.devclk = s.devclk)
      (hpend : t.pending = s.pending) : Moves s₀ t
  | setReg {s : State} {cls inst off : Nat} {w : Word} (hs : Moves s₀ s) : Moves s₀ (s.setReg cls inst off w)
  | dropRegs {s : State} {f : Nat × Word → Bool} (hs : Moves s₀ s) : Moves s₀ { s with csr := s.csr.filter f }
  | write {s : State} {a b : Nat} {l m : List Byte} (hs : Moves s₀ s) :
      Moves s₀ { s with mem := mwrites s.mem a l, chk := mwrites s.chk b m }
  | writeHost {s : State} {a : Nat} {l : List Byte} (hs : Moves s₀ s) : Moves s₀ { s with host := mwrites s.host a l }
  | dropBytes {s : State} {f g : Host.Cell → Bool} (hs : Moves s₀ s) :
      Moves s₀ { s with mem := s.mem.filter f, chk := s.chk.filter g }
  | setAccount {s : State} {a : Nat} {x : Account} (hs : Moves s₀ s) (hx : (s.account a).balanced → x.balanced) :
      Moves s₀ (s.setAccount a x)
  /-- Footing: memory, registers and accounts as after reset, host memory as it was. -/
  | restart {s t : State} (hs : Moves s₀ s) (hmem : t.mem = []) (hchk : t.chk = []) (hhost : t.host = s.host)
      (hcsr : t.csr = []) (hacc : t.ledger.accounts = []) (hclk : t.devclk = s.devclk)
      (hpend : t.pending = s.pending) : Moves s₀ t

namespace Moves

variable {s₀ s t : State}

/-! ### Branches, pairs and folds -/

theorem ite {c : Prop} [Decidable c] (hs : Moves s₀ s) (ht : Moves s₀ t) : Moves s₀ (if c then s else t) := by
  split <;> assumption

theorem ite_fst {α : Type} {c : Prop} [Decidable c] {x y : State × α} (hx : Moves s₀ x.1) (hy : Moves s₀ y.1) :
    Moves s₀ (if c then x else y).1 := by
  split <;> assumption

theorem ite_snd {α : Type} {c : Prop} [Decidable c] {x y : α × State} (hx : Moves s₀ x.2) (hy : Moves s₀ y.2) :
    Moves s₀ (if c then x else y).2 := by
  split <;> assumption

theorem ite_snd_snd {α β : Type} {c : Prop} [Decidable c] {x y : α × β × State} (hx : Moves s₀ x.2.2)
    (hy : Moves s₀ y.2.2) : Moves s₀ (if c then x else y).2.2 := by
  split <;> assumption

theorem fst {β : Type} {x : State × β} {b : β} (e : x = (s, b)) (hs : Moves s₀ x.1) : Moves s₀ s := by
  rwa [e] at hs

theorem snd {α : Type} {x : α × State} {b : α} (e : x = (b, s)) (hs : Moves s₀ x.2) : Moves s₀ s := by
  rwa [e] at hs

theorem snd_snd {α β : Type} {x : α × β × State} {b : α} {c : β} (e : x = (b, c, s)) (hs : Moves s₀ x.2.2) :
    Moves s₀ s := by
  rwa [e] at hs

theorem foldl {α : Type} {f : State → α → State} {l : List α} (hs : Moves s₀ s)
    (hf : ∀ s x, Moves s₀ s → Moves s₀ (f s x)) : Moves s₀ (l.foldl f s) := by
  induction l generalizing s with
  | nil => exact hs
  | cons x r ih => exact ih (hf s x hs)

theorem foldl_fst {α β : Type} {f : State × β → α → State × β} {l : List α} {a : State × β} (ha : Moves s₀ a.1)
    (hf : ∀ b x, Moves s₀ b.1 → Moves s₀ (f b x).1) : Moves s₀ (l.foldl f a).1 := by
  induction l generalizing a with
  | nil => exact ha
  | cons x r ih => exact ih (hf a x ha)

theorem foldl_snd {α β : Type} {f : β × State → α → β × State} {l : List α} {a : β × State} (ha : Moves s₀ a.2)
    (hf : ∀ b x, Moves s₀ b.2 → Moves s₀ (f b x).2) : Moves s₀ (l.foldl f a).2 := by
  induction l generalizing a with
  | nil => exact ha
  | cons x r ih => exact ih (hf a x ha)

theorem foldl_snd_snd {α β γ : Type} {f : β × γ × State → α → β × γ × State} {l : List α} {a : β × γ × State}
    (ha : Moves s₀ a.2.2) (hf : ∀ b x, Moves s₀ b.2.2 → Moves s₀ (f b x).2.2) : Moves s₀ (l.foldl f a).2.2 := by
  induction l generalizing a with
  | nil => exact ha
  | cons x r ih => exact ih (hf a x ha)

/-- An update of fields beside memory, registers and the queue that keeps the accounts. It names every field of the state, so
that it applies to a structure update as the model writes it. -/
theorem update (hs : Moves s₀ s) {xhold : Tab Word} {xreturned : Tab Word} {xmodes : ModeCtl} {xfences : List Fence}
    {xjournal : Journal} {xdvorys : Dvorys} {xdisp : Disp} {xledger : Ledger} {xmortar : Mortar} {xmemSys : MemSys}
    {xpcie : Pcie} {xfaults : Faults} {xobserve : Observe} {xpower : Power} {xfree : Nat} {xtime : Time}
    {xstreams : Streams} {xlanes : Lanes} {xsett : Sett} {xengines : Engines} {xwitness : Witness} {xdma : Dma} {xeth : Eth}
    (ha : xledger.accounts = s.ledger.accounts) :
    Moves s₀ ⟨s.pending, s.csr, xhold, xreturned, s.mem, s.chk, s.host, s.devclk, xmodes, xfences, xjournal, xdvorys, xdisp,
      xledger, xmortar, xmemSys, xpcie, xfaults, xobserve, xpower, xfree, xtime, xstreams, xlanes, xsett, xengines, xwitness,
      xdma, xeth⟩ :=
  hs.beside rfl rfl rfl rfl ha rfl rfl

/-! ### Outcomes -/

/-- The outcome is a next state, reached from `s₀` by moves. -/
def Ends (s₀ : State) : Host.Outcome State Fault Refusal → Prop
  | .next t => Moves s₀ t
  | _ => False

theorem next (hs : Moves s₀ s) : Ends s₀ (.next s) := hs

theorem ite_ends {c : Prop} [Decidable c] {a b : Host.Outcome State Fault Refusal} (ha : Ends s₀ a) (hb : Ends s₀ b) :
    Ends s₀ (if c then a else b) := by
  split <;> assumption

/-! ### Registers and events -/

theorem setFld {f : Field} {i v : Nat} (hs : Moves s₀ s) : Moves s₀ (s.setFld f i v) := setReg hs

theorem addFld {f : Field} {i n : Nat} (hs : Moves s₀ s) : Moves s₀ (s.addFld f i n) := setFld hs

theorem satFld {f : Field} {i n : Nat} (hs : Moves s₀ s) : Moves s₀ (s.satFld f i n) := setFld hs

theorem maxFld {f : Field} {i n : Nat} (hs : Moves s₀ s) : Moves s₀ (s.maxFld f i n) := setFld hs

theorem setPair {lo hi : Field} {i n : Nat} (hs : Moves s₀ s) : Moves s₀ (s.setPair lo hi i n) := setFld (setFld hs)

theorem holdFor {req cls inst off : Nat} {w : Word} (hs : Moves s₀ s) : Moves s₀ (s.holdFor req cls inst off w) :=
  update hs rfl

theorem giveBack {req : Nat} {w : Word} (hs : Moves s₀ s) : Moves s₀ (s.giveBack req w) := update hs rfl

theorem takeFree {w : Nat} (hs : Moves s₀ s) : Moves s₀ (s.takeFree w).2 := update hs rfl

theorem countEvent {cls inst ev n : Nat} (hs : Moves s₀ s) : Moves s₀ (s.countEvent cls inst ev n) :=
  ite hs (foldl hs fun _ _ hs => ite (ite (setReg (setReg hs)) (setReg (setReg (setReg hs)))) hs)

theorem countLost {cls inst : Nat} (hs : Moves s₀ s) : Moves s₀ (s.countLost cls inst) := countEvent (update hs rfl)

theorem post {cls inst event sev detail : Nat} (hs : Moves s₀ s) : Moves s₀ (s.post cls inst event sev detail) :=
  ite (ite (ite (update hs rfl) (update hs rfl)) (countLost hs)) (ite (countEvent (update hs rfl)) (countLost hs))

theorem raise {fn v : Nat} (hs : Moves s₀ s) : Moves s₀ (s.raise fn v) := ite hs (update hs rfl)

theorem setPage {fn : Nat} {p : RingPage} (hs : Moves s₀ s) : Moves s₀ (s.setPage fn p) := update hs rfl

theorem setFnState {fn : Nat} {f : FnState} (hs : Moves s₀ s) : Moves s₀ (s.setFnState fn f) := update hs rfl

theorem storeWord {k : Nat} {bytes : List Byte} {poison : Bool} (hs : Moves s₀ s) : Moves s₀ (s.storeWord k bytes poison) :=
  hs.write

/-! ### Rings and flow control -/

theorem storeSlot {a : Nat} {bytes : List Byte} (hs : Moves s₀ s) : Moves s₀ (s.storeSlot a bytes) :=
  foldl hs fun _ _ hs => storeWord hs

theorem cqSlot {fn : Nat} {w0 : Nat} {rest : List Word} (hs : Moves s₀ s) : Moves s₀ (s.cqSlot fn w0 rest) :=
  setPage (ite (storeSlot hs) (ite (writeHost hs) hs))

theorem signalRing {fn : Nat} {now : Bool} (hs : Moves s₀ s) : Moves s₀ (s.signalRing fn now) :=
  ite (raise (setPage hs)) (setPage hs)

theorem answer {fn : Nat} {flags : Nat} {st : Status} {tag : Word} {seq : BitVec 16} {head : BitVec 12} {detail : Nat}
    {results : List Word} {intr : Bool} (hs : Moves s₀ s) :
    Moves s₀ (s.answer fn flags st tag seq head detail results intr) :=
  signalRing (cqSlot hs)

theorem notify {fn : Nat} {entry : List Word} (hs : Moves s₀ s) : Moves s₀ (s.notify fn entry) :=
  ite (setFnState (answer hs)) (setFnState hs)

theorem dropOp {op : BitVec 16} (hs : Moves s₀ s) : Moves s₀ (s.dropOp op) := update hs rfl

theorem setOp {o : LrOp} (hs : Moves s₀ s) : Moves s₀ (s.setOp o) := update hs rfl

theorem endOp {o : LrOp} {st : Status} {detail : Nat} {results : List Word} (hs : Moves s₀ s) :
    Moves s₀ (s.endOp o st detail results) :=
  ite (dropOp hs) (answer (dropOp hs))

/-! ### Faults -/

theorem setLevel {n : Nat} (hs : Moves s₀ s) : Moves s₀ (s.setLevel n) := ite hs (post (setFld hs))

theorem syncRecoveries (hs : Moves s₀ s) : Moves s₀ s.syncRecoveries := update (setFld (setFld hs)) rfl

theorem recovered {r : Recovery} (hs : Moves s₀ s) : Moves s₀ (s.recovered r) :=
  syncRecoveries (ite (post (maxFld (setFld (update hs rfl)))) (post (satFld (maxFld (setFld (update hs rfl))))))

theorem reportFault {code cls inst : Nat} {alsoDouble : Bool} (hs : Moves s₀ s) :
    Moves s₀ (s.reportFault code cls inst alsoDouble) := by
  unfold State.reportFault
  extract_lets _ s1 s2 s3 s4 s5 s6 s7 _ _ s8
  have h1 : Moves s₀ s1 := addFld hs
  have h2 : Moves s₀ s2 := ite (addFld h1) h1
  have h3 : Moves s₀ s3 := setFld (setFld (setFld h2))
  have h4 : Moves s₀ s4 := setPair h3
  have h5 : Moves s₀ s5 := post h4
  have h6 : Moves s₀ s6 := ite (post h5) h5
  have h7 : Moves s₀ s7 := setLevel h6
  have h8 : Moves s₀ s8 := syncRecoveries (update h7 rfl)
  exact ite h6 (ite (recovered h8) h8)

theorem aer {bit : Nat} (hs : Moves s₀ s) : Moves s₀ (s.aer bit) := reportFault (post hs)

theorem endRecovery {code cls inst : Nat} (hs : Moves s₀ s) : Moves s₀ (s.endRecovery code cls inst) := by
  unfold State.endRecovery
  split
  · exact recovered hs
  · exact hs

theorem syncFences (hs : Moves s₀ s) : Moves s₀ s.syncFences := foldl (setFld hs) fun _ _ hs => ite hs (setFld hs)

theorem addFence {cls inst : Nat} {o : FenceOrigin} {ph : FencePhase} (hs : Moves s₀ s) :
    Moves s₀ (s.addFence cls inst o ph) := by
  unfold State.addFence
  exact syncFences (setFld (setFld (setFld (update hs rfl))))

theorem setFence {f : Fence} (hs : Moves s₀ s) : Moves s₀ (s.setFence f) := by
  unfold State.setFence
  exact syncFences (update hs rfl)

theorem modeDecision {result requester target : Nat} (hs : Moves s₀ s) : Moves s₀ (s.modeDecision result requester target) :=
  addFld (setFld (setFld (setFld hs)))

theorem toMending {cause : Nat} (hs : Moves s₀ s) : Moves s₀ (s.toMending cause) := update hs rfl

theorem refuseBanked {op : Option (BitVec 16)} (hs : Moves s₀ s) : Moves s₀ (s.refuseBanked op) := by
  unfold State.refuseBanked
  extract_lets s1
  have h1 : Moves s₀ s1 := ite (setFld hs) hs
  split
  · exact endOp h1
  · exact h1

theorem unbank (hs : Moves s₀ s) : Moves s₀ s.unbank := update hs rfl

theorem askMending {cause : Nat} (hs : Moves s₀ s) : Moves s₀ (s.askMending cause) := by
  unfold State.askMending
  have noted (m : ModeCtl) : Moves s₀ { s with modes := m } := update hs rfl
  have mended : Moves s₀ (s.toMending cause) := toMending hs
  refine ite hs ?_
  split
  iterate 3
    · split
      · exact mended
      · exact ite (noted _) (refuseBanked (unbank mended))
      · exact noted _
  iterate 2
    · split
      · exact noted _
      · exact hs
  · exact hs

theorem checkReturn (hs : Moves s₀ s) : Moves s₀ s.checkReturn :=
  ite (ite (setFld (setFld (update hs rfl))) (update hs rfl)) hs

theorem liftFence {cls inst : Nat} (hs : Moves s₀ s) : Moves s₀ (s.liftFence cls inst) :=
  checkReturn (syncFences (update hs rfl))

theorem setPort {d : Nat} {p : Port} (hs : Moves s₀ s) : Moves s₀ (s.setPort d p) := update hs rfl

/-! ### Fences and routes -/

theorem setRoute {ni bank entry : Nat} {r : Route} (hs : Moves s₀ s) : Moves s₀ (s.setRoute ni bank entry r) :=
  update hs rfl

theorem setNiFence {ni d : Nat} {b : Bool} (hs : Moves s₀ s) : Moves s₀ (s.setNiFence ni d b) := setReg hs

theorem setLink {r d v : Nat} (hs : Moves s₀ s) : Moves s₀ (s.setLink r d v) := setReg hs

theorem setFlits {l : List Flit} (hs : Moves s₀ s) : Moves s₀ (s.setFlits l) := update hs rfl

theorem sendFlit {ni plane vc src dest txn : Nat} {load : Load} (hs : Moves s₀ s) :
    Moves s₀ (s.sendFlit ni plane vc src dest txn load) :=
  ite hs (countEvent (setFlits hs))

theorem sendAll {type payload : Nat} (hs : Moves s₀ s) : Moves s₀ (s.sendAll type payload) :=
  update (foldl hs fun _ _ hs => sendFlit hs) rfl

theorem fcBegin {q : FcReq} (hs : Moves s₀ s) : Moves s₀ (s.fcBegin q) := by
  unfold State.fcBegin
  refine sendAll ?_
  split
  · exact setPort hs
  · exact hs
  · exact update hs rfl

theorem fcAdvance (hs : Moves s₀ s) : Moves s₀ s.fcAdvance := by
  unfold State.fcAdvance
  split
  · exact hs
  · split
    · exact hs
    · split
      · exact hs
      · exact fcBegin (update hs rfl)

theorem fcAsk {q : FcReq} (hs : Moves s₀ s) : Moves s₀ (s.fcAsk q) := fcAdvance (update hs rfl)

theorem setFencers {d : Nat} {l : List Nat} (hs : Moves s₀ s) : Moves s₀ (s.setFencers d l) := update hs rfl

theorem askFence {req d : Nat} (hs : Moves s₀ s) : Moves s₀ (s.askFence req d) :=
  ite (fcAsk (setFencers hs)) (setFencers hs)

theorem askUnfence {req d : Nat} (hs : Moves s₀ s) : Moves s₀ (s.askUnfence req d) := fcAsk (setPort (setFencers hs))

/-! ### Memory -/

theorem retirePage_some {c page n : Nat} (e : s.retirePage c page = some (n, t)) (hs : Moves s₀ s) : Moves s₀ t := by
  unfold State.retirePage at e
  generalize List.range 256 = words at e
  dsimp only at e
  split at e
  · cases e
  · cases e
    exact post (setFld (update (foldl hs fun _ _ hs => storeWord hs) rfl))

theorem setSpall {n : Nat} {e : Spall} (hs : Moves s₀ s) : Moves s₀ (s.setSpall n e) := update hs rfl

theorem syncSpall (hs : Moves s₀ s) : Moves s₀ s.syncSpall := setFld (setFld hs)

theorem spallRetired {c page : Nat} (hs : Moves s₀ s) : Moves s₀ (s.spallRetired c page) :=
  syncSpall (foldl hs fun _ _ hs => ite (setSpall hs) hs)

theorem autoRetire {e : Spall} (hs : Moves s₀ s) : Moves s₀ (s.autoRetire e) := by
  unfold State.autoRetire
  split
  · cases e1 : s.retirePage (e.memory - 4) (e.addr / 4096) with
    | none => exact hs
    | some p => exact spallRetired (retirePage_some e1 hs)
  · exact hs

theorem spallHarden {n : Nat} (hs : Moves s₀ s) : Moves s₀ (s.spallHarden n) := ite (autoRetire (post (setSpall hs))) hs

theorem spallNote {k col : Nat} (hs : Moves s₀ s) : Moves s₀ (s.spallNote k col) := by
  unfold State.spallNote
  split
  extract_lets
  split
  · exact ite (syncSpall (spallHarden (setSpall hs))) (ite (syncSpall (spallHarden (setSpall hs))) (setSpall hs))
  · split
    · exact syncSpall (spallHarden (setSpall hs))
    · split
      · exact syncSpall (spallHarden (setSpall hs))
      · exact addFld hs

theorem takeSpare {a : Nat} {column : Bool} (hs : Moves s₀ s) : Moves s₀ (s.takeSpare a column) :=
  update (setReg hs) rfl

theorem copySpare {a col : Nat} {column : Bool} (hs : Moves s₀ s) : Moves s₀ (s.copySpare a col column) := by
  unfold State.copySpare
  refine foldl hs fun _ _ hs => ?_
  split
  split
  · exact ite (storeWord hs) hs
  · exact hs

theorem eraseCheck {m : MemUnit} {col : Nat} (hs : Moves s₀ s) : Moves s₀ (s.eraseCheck m col) :=
  ite (ite (post (setReg hs)) (post (setReg hs))) hs

theorem noteDecode {k : Nat} {o : Decoded} (hs : Moves s₀ s) : Moves s₀ (s.noteDecode k o) := by
  unfold State.noteDecode
  split
  · exact reportFault (ite (eraseCheck (setReg (setReg hs))) (spallNote (eraseCheck (setReg (setReg hs)))))
  · exact reportFault (ite (post (countEvent (setReg hs))) (post (countEvent (setReg hs))))
  · exact hs

theorem readWord {k : Nat} (hs : Moves s₀ s) : Moves s₀ (s.readWord k).2.2 := noteDecode hs

theorem mergeWord {k o : Nat} {bytes : List Byte} {poison : Bool} (hs : Moves s₀ s) :
    Moves s₀ (s.mergeWord k o bytes poison) :=
  ite (storeWord (ite (update hs rfl) hs)) (storeWord (ite (update hs rfl) hs))

theorem readMem {a n : Nat} (hs : Moves s₀ s) : Moves s₀ (s.readMem a n).2 := foldl_snd hs fun _ _ hs => readWord hs

theorem writeMem {a : Nat} {bytes : List (Byte × Bool)} (hs : Moves s₀ s) : Moves s₀ (s.writeMem a bytes) :=
  foldl hs fun _ _ hs => mergeWord hs

theorem atsFill {a : Nat} (hs : Moves s₀ s) : Moves s₀ (s.atsFill a) := by
  unfold State.atsFill
  refine ite ?_ hs
  split
  split
  exact update (snd ‹_› (takeFree (snd ‹_› (takeFree hs)))) rfl

theorem hostRead {a n : Nat} (hs : Moves s₀ s) : Moves s₀ (s.hostRead a n).2.2 :=
  ite_snd_snd (aer hs) (ite_snd_snd (aer hs) (ite_snd_snd (aer (addFld hs)) (ite (aer (addFld hs)) hs)))

theorem hostWrite {a : Nat} {bytes : List (Byte × Bool)} (hs : Moves s₀ s) : Moves s₀ (s.hostWrite a bytes) :=
  writeHost (ite (aer (addFld hs)) hs)

theorem busRead {ni port a n : Nat} (hs : Moves s₀ s) : Moves s₀ (s.busRead ni port a n).2.2 := by
  unfold State.busRead
  split
  · split
    · exact hostRead (atsFill hs)
    · exact readMem hs
  · exact hs

theorem busWrite {ni port a : Nat} {bytes : List (Byte × Bool)} (hs : Moves s₀ s) :
    Moves s₀ (s.busWrite ni port a bytes).2 := by
  unfold State.busWrite
  split
  · split
    · exact hostWrite (atsFill hs)
    · exact writeMem hs
  · exact hs

theorem busPut {ni port a : Nat} {bytes : List (Byte × Bool)} (hs : Moves s₀ s) : Moves s₀ (s.busPut ni port a bytes).2 :=
  foldl_snd hs fun _ _ hs => busWrite hs

theorem busGet {ni port a n : Nat} (hs : Moves s₀ s) : Moves s₀ (s.busGet ni port a n).2.2 :=
  foldl_snd_snd hs fun _ _ hs => busRead hs

theorem took {cls inst a : Nat} {l : List (Byte × Bool)} (hs : Moves s₀ s) : Moves s₀ (s.took cls inst a l) :=
  ite hs (countEvent hs)

theorem unitGet {cls inst ni port a n : Nat} (hs : Moves s₀ s) : Moves s₀ (s.unitGet cls inst ni port a n).2.2 :=
  took (busGet hs)

theorem fillZero {k n : Nat} (hs : Moves s₀ s) : Moves s₀ (s.fillZero k n) := hs.dropBytes

/-! ### The energy ledger -/

theorem unpark {d : Nat} (hs : Moves s₀ s) : Moves s₀ (s.unpark d) := ite (ite (post (setFld hs)) (setFld hs)) hs

theorem grantUnparks (hs : Moves s₀ s) : Moves s₀ s.grantUnparks :=
  ite hs (foldl (update hs rfl) fun _ _ hs => unpark hs)

theorem devMove {i : Int} (hs : Moves s₀ s) : Moves s₀ (s.devMove i) :=
  ite (ite (post (update (update hs rfl) rfl)) (update hs rfl)) hs

theorem charge {a x : Nat} {spread late : Bool} (hs : Moves s₀ s) : Moves s₀ (s.charge a x spread late) := by
  have key (h : (s.account a).balanced) : ((s.account a).move (-(x : Int)) 0 0 x 0).balanced :=
    Account.move_balanced h (by simp [book, BitVec.ofInt_neg])
  exact devMove (setAccount hs fun h => Account.balanced_congr (key h) rfl rfl rfl rfl)

theorem debit {a est : Nat} (hs : Moves s₀ s) : Moves s₀ (s.debit a est) :=
  devMove (setAccount hs fun h => Account.move_balanced h (by simp [book, ← BitVec.ofInt_add]))

/-- A true-up takes as much from CREDIT and OUTSTANDING as it adds to DRAWN (R206). -/
theorem book_trueUp (est accr : Nat) :
    book (256 * est - accr) + book (-(256 * est : Int)) = book 0 - book (accr : Int) := by
  have e : (256 * est - accr : Int) + -(256 * est : Int) = -(accr : Int) := by ring
  rw [book, book, ← BitVec.ofInt_add, e, BitVec.ofInt_neg]
  simp [book]

theorem trueUp {a est accr : Nat} (hs : Moves s₀ s) : Moves s₀ (s.trueUp a est accr) := by
  have key (h : (s.account a).balanced) :
      ((s.account a).move (256 * est - accr : Int) (-(256 * est : Int)) 0 accr (-(accr : Int))).balanced :=
    Account.move_balanced h (book_trueUp est accr)
  unfold State.trueUp
  extract_lets _ _ s1
  have h1 : Moves s₀ s1 := devMove (setAccount hs fun h => Account.balanced_congr (key h) rfl rfl rfl rfl)
  exact ite (grantUnparks h1) h1

theorem accrue {a x : Nat} (hs : Moves s₀ s) : Moves s₀ (s.accrue a x) := by
  have key (h : (s.account a).balanced) : ((s.account a).move 0 0 0 0 x).balanced :=
    Account.move_balanced h (by simp [book])
  exact setAccount hs fun h => Account.balanced_congr (key h) rfl rfl rfl rfl

theorem mint {a amount : Nat} (hs : Moves s₀ s) : Moves s₀ (s.mint a amount) := by
  unfold State.mint
  extract_lets x ceil added forfeit y s1
  have key (h : x.balanced) : y.balanced := Account.move_balanced h (by simp [book])
  have h1 : Moves s₀ s1 := setFld (setAccount hs fun h => Account.balanced_congr (key h) rfl rfl rfl rfl)
  exact ite (post h1) h1

theorem adjust {a : Nat} {v : Int} (hs : Moves s₀ s) : Moves s₀ (s.adjust a v) :=
  setAccount hs fun h => Account.move_balanced h (by simp [book])

theorem debitG0 {a est : Nat} (hs : Moves s₀ s) : Moves s₀ (s.debitG0 a est) := by
  unfold State.debitG0
  extract_lets s1 x s2
  have h1 : Moves s₀ s1 := debit hs
  have h2 : Moves s₀ s2 := addFld h1
  have h3 : Moves s₀ (s2.setAccount a { x with overdraftPosted := true }) :=
    setAccount h2 fun h => Account.balanced_congr h rfl rfl rfl rfl
  exact ite (ite h2 (post h3)) h1

theorem ask {a grade est : Nat} {optional : Bool} (hs : Moves s₀ s) : Moves s₀ (s.ask a grade est optional).2 := by
  unfold State.ask
  dsimp only
  split
  · exact ite (addFld (addFld (debit hs))) (addFld (debit hs))
  · exact addFld hs
  · exact addFld hs

theorem countAct {u i e n : Nat} (hs : Moves s₀ s) : Moves s₀ (s.countAct u i e n) := update hs rfl

theorem lateActs {u i a : Nat} (hs : Moves s₀ s) : Moves s₀ (s.lateActs u i a) := update hs rfl

theorem setMeter {p : Nat} {m : Meter} (hs : Moves s₀ s) : Moves s₀ (s.setMeter p m) := update hs rfl

/-! ### Tasks and queues -/

theorem putTask {i : Nat} {t : Task} (hs : Moves s₀ s) : Moves s₀ (s.putTask i t) := update hs rfl

theorem delTask {i : Nat} (hs : Moves s₀ s) : Moves s₀ (s.delTask i) := update hs rfl

theorem setSlot {u : Nat} {l : List Nat} (hs : Moves s₀ s) : Moves s₀ (s.setSlot u l) :=
  ite (setFld (setFld (update hs rfl))) (update hs rfl)

theorem syncQueue {q : Nat} (hs : Moves s₀ s) : Moves s₀ (s.syncQueue q) := by
  unfold State.syncQueue
  extract_lets _ _ s1 s2 s3
  have h1 : Moves s₀ s1 := setFld (setFld hs)
  have h2 : Moves s₀ s2 := maxFld (maxFld h1)
  have h3 : Moves s₀ s3 := ite (setFld h2) h2
  exact maxFld (setFld h3)

theorem setKey {k : Nat} {x : Keystone} (hs : Moves s₀ s) : Moves s₀ (s.setKey k x) := update hs rfl

theorem creditChange {a : Nat} {all : Bool} (hs : Moves s₀ s) : Moves s₀ (s.creditChange a all) := by
  unfold State.creditChange
  refine foldl hs fun _ _ hs => ite ?_ hs
  split
  · exact ite (setFld hs) hs
  · exact setFld hs

theorem report {i : Nat} {c : Cause} (hs : Moves s₀ s) : Moves s₀ (s.report i c) := update hs rfl

theorem closeTask {i : Nat} {t : Task} {c : Cause} (hs : Moves s₀ s) : Moves s₀ (s.closeTask i t c).2 := by
  unfold State.closeTask
  extract_lets s1 s2 s3 dropped s4 s5
  have h2 : Moves s₀ s2 := ite (addFld hs) (addFld (addFld hs))
  have h3 : Moves s₀ s3 := addFld h2
  have failed {cls i k sev info : Nat} : Moves s₀ ((s3.addFld Reg.DQUEUE.FAILED_COUNT t.queue 1).post cls i k sev info) :=
    post (addFld h3)
  exact syncQueue (delTask (ite (post (addFld h3)) (ite failed (ite h3 failed))))

theorem releaseTask {i : Nat} {t : Task} {mark : Bool} (hs : Moves s₀ s) : Moves s₀ (s.releaseTask i t mark).2 :=
  ite_snd (closeTask hs) (syncQueue (putTask hs))

theorem release {k : Nat} {mark : Bool} (hs : Moves s₀ s) : Moves s₀ (s.release k mark).2 :=
  foldl_snd (update (ite (post (setKey hs)) (setKey hs)) rfl) fun _ _ hs => releaseTask hs

theorem decOnce {k : Nat} {m : Bool} (hs : Moves s₀ s) : Moves s₀ (s.decOnce k m).2 :=
  ite_snd (post (setKey hs)) (ite_snd (release (setKey hs)) (setKey hs))

theorem decAll {n : Nat} {l : List (Nat × Bool)} (hs : Moves s₀ s) : Moves s₀ (State.decAll n l s) := by
  induction n generalizing l s with
  | zero => exact hs
  | succ n ih =>
    match l with
    | [] => exact hs
    | (_, _) :: _ => exact ih (decOnce hs)

theorem decKeys {l : List (Nat × Bool)} (hs : Moves s₀ s) : Moves s₀ (s.decKeys l) := decAll hs

theorem decKey {k : Nat} {m : Bool} (hs : Moves s₀ s) : Moves s₀ (s.decKey k m) := decKeys hs

theorem setCount {k v : Nat} {clear : Bool} (hs : Moves s₀ s) : Moves s₀ (s.setCount k v clear) :=
  ite (decKeys (release (setKey hs))) (setKey hs)

theorem setReload {k v : Nat} (hs : Moves s₀ s) : Moves s₀ (s.setReload k v) := setKey hs

theorem accept {q : Nat} {w : List Word} {tb : Nat → Nat × Nat} (hs : Moves s₀ s) : Moves s₀ (s.accept q w tb).2 :=
  ite_snd (syncQueue (countEvent (putTask (update hs rfl)))) (decKeys (releaseTask (countEvent (putTask (update hs rfl)))))

theorem setBusyAt {d n : Nat} (hs : Moves s₀ s) :
    Moves s₀ { s with ledger := { s.ledger with busyAt := tset 0 s.ledger.busyAt d n } } :=
  update hs rfl

theorem placeEntry {u i : Nat} {t : Task} {allow : Nat} (hs : Moves s₀ s) : Moves s₀ (s.placeEntry u i t allow) := by
  unfold State.placeEntry
  extract_lets t' s1
  have h1 : Moves s₀ s1 := countEvent (syncQueue (setSlot (putTask hs)))
  clear_value s1
  split
  · exact setBusyAt h1
  · exact h1

theorem place {u i : Nat} {t : Task} (hs : Moves s₀ s) : Moves s₀ (s.place u i t) := by
  unfold State.place
  extract_lets done late lateCount
  have closed {c : Cause} {s : State} (hs : Moves s₀ s) : Moves s₀ (done c s) := decKeys (closeTask hs)
  have counted {s : State} (hs : Moves s₀ s) : Moves s₀ (lateCount s) := ite (addFld hs) hs
  refine ite (closed hs) (ite (closed hs) (ite (placeEntry (counted (debitG0 hs))) ?_))
  split
  · exact placeEntry (counted (snd ‹_› (ask hs)))
  · exact countEvent (setFld (update (snd ‹_› (ask hs)) rfl))
  · exact closed (snd ‹_› (ask hs))

theorem reclaim {u i : Nat} (hs : Moves s₀ s) : Moves s₀ (s.reclaim u i) := by
  unfold State.reclaim
  split
  · exact setSlot hs
  · extract_lets s1 s2 _ s3 s4
    have h1 : Moves s₀ s1 := setSlot hs
    have h2 : Moves s₀ s2 := ite (addFld h1) h1
    have h3 : Moves s₀ s3 := ite (trueUp h2) h2
    have h4 : Moves s₀ s4 := ite (creditChange h3) h3
    exact syncQueue (putTask h4)

theorem reclaimAll {u : Nat} (hs : Moves s₀ s) : Moves s₀ (s.reclaimAll u) := foldl hs fun _ _ hs => reclaim hs

theorem complete {i : Nat} {c : Cause} (hs : Moves s₀ s) : Moves s₀ (s.complete i c) := by
  unfold State.complete
  split
  · exact hs
  · refine ite (syncQueue (putTask (post (addFld (lateActs (creditChange (ite (trueUp hs) hs))))))) ?_
    split
    exact decKeys (snd ‹_› (closeTask (lateActs (creditChange (ite (trueUp hs) hs)))))

theorem drop {i : Nat} {t : Task} {c : Cause} (hs : Moves s₀ s) : Moves s₀ (s.drop i t c) := decKeys (closeTask hs)

/-! ### The journal and Footing -/

theorem traceLost (hs : Moves s₀ s) : Moves s₀ s.traceLost := ite (update hs rfl) hs

theorem tracePush {type : Nat} {payload : List Nat} (hs : Moves s₀ s) : Moves s₀ (s.tracePush type payload) :=
  setFld (ite (update hs rfl) (traceLost (addFld (update hs rfl))))

theorem tracePeriod (hs : Moves s₀ s) : Moves s₀ s.tracePeriod := ite hs (post (update hs rfl))

theorem journalWrite {e : JEvent} {stamp : BitVec 64} (hs : Moves s₀ s) : Moves s₀ (s.journalWrite e stamp) := by
  unfold State.journalWrite
  extract_lets _ _ _ _ _ s1 s2 s3 _ s4 s5 s6
  have h1 : Moves s₀ s1 := busWrite hs
  have h2 : Moves s₀ s2 := setFld h1
  have h3 : Moves s₀ s3 := ite (satFld (setFld h2)) h1
  have h4 : Moves s₀ s4 := setFld (setFld h3)
  have h5 : Moves s₀ s5 := ite (raise h4) h4
  have h6 : Moves s₀ s6 := foldl h5 fun _ _ hs => ite (notify hs) hs
  exact ite (tracePush h6) h6

theorem toFooting {bits : Nat} (hs : Moves s₀ s) : Moves s₀ (s.toFooting bits) :=
  foldl (setReg (restart hs rfl rfl rfl rfl rfl rfl rfl)) fun _ _ hs => setFld hs

theorem startTransition {to_ : Mode} {req : Nat} {op : Option (BitVec 16)} (hs : Moves s₀ s) :
    Moves s₀ (s.startTransition to_ req op) :=
  ite (update hs rfl) (update (update hs rfl) rfl)

theorem syncReady (hs : Moves s₀ s) : Moves s₀ s.syncReady := setFld hs

/-! ### Register writes of members -/

theorem storeReg {cls inst off : Nat} {v : Word} (hs : Moves s₀ s) : Moves s₀ (s.storeReg cls inst off v) := by
  unfold State.storeReg
  split
  · exact setReg hs
  · exact hs

theorem eachMember {cls sel off : Nat} {f : State → Nat → State} (hs : Moves s₀ s)
    (hf : ∀ s i, Moves s₀ s → Moves s₀ (f s i)) : Moves s₀ (s.eachMember cls sel off f) :=
  ite (foldl hs hf) hs

theorem hubEach {req cls sel off : Nat} {f : State → Nat → State} (hs : Moves s₀ s)
    (hf : ∀ s i, Moves s₀ s → Moves s₀ (f s i)) : Moves s₀ (s.hubEach req cls sel off f) :=
  ite (eachMember hs hf) hs

/-! ### Time bases -/

theorem setTb {n : Nat} {b : TimeBase} (hs : Moves s₀ s) : Moves s₀ (s.setTb n b) := update hs rfl

theorem timeTick (hs : Moves s₀ s) : Moves s₀ s.timeTick :=
  ite (foldl (update (update hs rfl) rfl) fun _ _ hs => setTb hs) hs

theorem setPin {p : Nat} {x : TddPin} (hs : Moves s₀ s) : Moves s₀ (s.setPin p x) := update hs rfl

theorem setStrm {c : Nat} {x : Strm} (hs : Moves s₀ s) : Moves s₀ (s.setStrm c x) := update hs rfl

theorem syncPin {p : Nat} (hs : Moves s₀ s) : Moves s₀ (s.syncPin p) := setFld (setFld (setFld hs))

theorem quietPins (hs : Moves s₀ s) : Moves s₀ s.quietPins := foldl hs fun _ _ hs => syncPin (setFld hs)

theorem fireEdges {p : Nat} (hs : Moves s₀ s) : Moves s₀ (s.fireEdges p) :=
  ite (ite hs (syncPin (ite (post (addFld (setPin hs))) (setPin hs)))) hs

theorem pushEdge {p : Nat} {level : Bool} (hs : Moves s₀ s) : Moves s₀ (s.pushEdge p level) :=
  ite (post (addFld hs)) (fireEdges (syncPin (setPin hs)))

theorem periodStarts {at_ : Int} {stop : Nat → Int} (hs : Moves s₀ s) : Moves s₀ (s.periodStarts at_ stop) := by
  unfold State.periodStarts
  extract_lets _ _ s1
  have h1 : Moves s₀ s1 := ite (post (update hs rfl)) hs
  exact update h1 rfl

theorem periodLocked (hs : Moves s₀ s) : Moves s₀ s.periodLocked := update hs rfl

theorem periodStepped {passed : Nat} (hs : Moves s₀ s) : Moves s₀ (s.periodStepped passed) :=
  periodStarts (update hs rfl)

theorem periodMoved {passed : Nat} (hs : Moves s₀ s) : Moves s₀ (s.periodMoved passed) := update hs rfl

/-! ### The witness and the Vault -/

theorem setVault {v : Vault} (hs : Moves s₀ s) : Moves s₀ (s.setVault v) := update hs rfl

theorem applyGeometry (hs : Moves s₀ s) : Moves s₀ s.applyGeometry := setVault hs

theorem freezeRgn {r : Nat} (hs : Moves s₀ s) : Moves s₀ (s.freezeRgn r) := post (setFld hs)

theorem freezeAt {stamp : Nat} (hs : Moves s₀ s) : Moves s₀ (s.freezeAt stamp) :=
  foldl hs fun _ _ hs => ite (freezeRgn hs) hs

theorem freeRgn {r : Nat} (hs : Moves s₀ s) : Moves s₀ (s.freeRgn r) := setVault (setFld hs)

theorem releaseRgn {r : Nat} (hs : Moves s₀ s) : Moves s₀ (s.releaseRgn r) := ite hs (ite (setVault hs) (freeRgn hs))

theorem dropLeaf {src : Nat} (hs : Moves s₀ s) : Moves s₀ (s.dropLeaf src) :=
  setVault (foldl (ite (addFld (addFld hs)) (addFld hs)) fun _ _ hs => ite (addFld hs) hs)

theorem vaultFull (hs : Moves s₀ s) : Moves s₀ s.vaultFull := ite hs (post (setFld hs))

theorem vaultPeriod (hs : Moves s₀ s) : Moves s₀ s.vaultPeriod := setVault (ite (post hs) hs)

theorem closeLeaf {x : Leaf} (hs : Moves s₀ s) : Moves s₀ (s.closeLeaf x) :=
  ite (setVault hs) (ite (dropLeaf (setVault hs)) (setVault (setVault hs)))

theorem addUnit {src : Nat} {h : UnitHead} {first : Nat} {u : List (Byte × Bool)} {bad : Bool} (hs : Moves s₀ s) :
    Moves s₀ (s.addUnit src h first u bad) :=
  ite (closeLeaf (setVault hs)) (setVault hs)

theorem raiseTrigger {src : Nat} {tag : Word} (hs : Moves s₀ s) : Moves s₀ (s.raiseTrigger src tag) := setVault hs

theorem commandTrigger {tag : Word} (hs : Moves s₀ s) : Moves s₀ (s.commandTrigger tag) := ite (raiseTrigger hs) hs

theorem summaryTrigger {codes : List Nat} (hs : Moves s₀ s) : Moves s₀ (s.summaryTrigger codes) :=
  ite (raiseTrigger hs) hs

theorem summaryRow {h : UnitHead} {bad : Option Nat} {blocks : List (List Byte)} (hs : Moves s₀ s) :
    Moves s₀ (s.summaryRow h bad blocks) :=
  summaryTrigger (addUnit (update hs rfl))

theorem takeUpset {c n : Nat} (hs : Moves s₀ s) : Moves s₀ (s.takeUpset c n).2 := ite_snd (setVault (takeFree hs)) hs

theorem captureUnits {h : UnitHead} {blocks : List (List Byte)} {bad : Option Nat} {e : Nat × Word} (hs : Moves s₀ s) :
    Moves s₀ (s.captureUnits h blocks bad e) :=
  foldl hs fun _ _ hs => ite (addUnit hs) hs

theorem witBlocks {h : UnitHead} {caps : List (Nat × Word)} {bytes : List Byte} (hs : Moves s₀ s) :
    Moves s₀ (s.witBlocks h caps bytes) := by
  unfold State.witBlocks
  refine ite hs ?_
  split
  extract_lets s1
  have h1 : Moves s₀ s1 := ite (foldl (snd ‹_› (takeUpset hs)) fun _ _ hs => captureUnits hs) (snd ‹_› (takeUpset hs))
  exact ite (summaryRow h1) h1

theorem witSlotEnd {c slot : Nat} {pending : Nat → Bool} (hs : Moves s₀ s) : Moves s₀ (s.witSlotEnd c slot pending) :=
  foldl hs fun _ _ hs => ite (closeLeaf hs) hs

theorem vstreamWrite {i : Nat} (hs : Moves s₀ s) : Moves s₀ (s.vstreamWrite i) := setVault hs

theorem witSlotStart {c : Nat} (hs : Moves s₀ s) : Moves s₀ (s.witSlotStart c) := by
  unfold State.witSlotStart
  refine foldl hs fun _ _ hs => ?_
  dsimp only
  split
  · exact hs
  · exact setFld (setVault hs)

theorem grantLeaf {x : Leaf} (hs : Moves s₀ s) : Moves s₀ (s.grantLeaf x) := by
  unfold State.grantLeaf
  extract_lets _ s1
  have h1 : Moves s₀ s1 := freezeAt hs
  refine ite (dropLeaf h1) ?_
  split
  · exact dropLeaf (vaultFull h1)
  · extract_lets s2 s3
    have h2 : Moves s₀ s2 := setVault h1
    have h3 : Moves s₀ s3 := foldl h2 fun _ _ hs => ite (addFld (ite (setFld hs) hs)) hs
    exact ite (applyGeometry h3) h3

theorem refuseTrigger {src why : Nat} (hs : Moves s₀ s) : Moves s₀ (s.refuseTrigger src why) := post (addFld hs)

theorem grantTrigger {src : Nat} {tag : Word} (hs : Moves s₀ s) : Moves s₀ (s.grantTrigger src tag) := by
  unfold State.grantTrigger
  refine ite (refuseTrigger hs) ?_
  split
  · exact refuseTrigger hs
  · extract_lets _ _ _ s1 s2 _ s3 s4 s5 s6
    have h1 : Moves s₀ s1 := setVault hs
    have h2 : Moves s₀ s2 := setFld (setFld (setFld h1))
    have h3 : Moves s₀ s3 := setFld h2
    have h4 : Moves s₀ s4 := setFld (setFld h3)
    have h5 : Moves s₀ s5 := setFld (setPair h4)
    have h6 : Moves s₀ s6 := post (addFld h5)
    exact ite (freezeRgn h6) h6

theorem triggerStep (hs : Moves s₀ s) : Moves s₀ s.triggerStep := by
  unfold State.triggerStep
  split
  · exact hs
  · split
    · exact hs
    · exact grantTrigger (setVault hs)

theorem gpioLevel {p : Nat} {b : Bool} (hs : Moves s₀ s) : Moves s₀ (s.gpioLevel p b) :=
  ite hs (ite (raiseTrigger (setReg hs)) (setReg hs))

theorem setTally {d : Nat} {t : Tally} (hs : Moves s₀ s) : Moves s₀ (s.setTally d t) := update hs rfl

theorem tallyFeed {d : Nat} {xs : List (Nat × Int × Int)} (hs : Moves s₀ s) : Moves s₀ (s.tallyFeed d xs) :=
  setTally (update hs rfl)

theorem tallySamples {c : Nat} {xs : List (Nat × Int × Int)} (hs : Moves s₀ s) : Moves s₀ (s.tallySamples c xs) :=
  foldl hs fun _ _ hs => ite (tallyFeed hs) hs

theorem tallyAdvance {d fs : Nat} (hs : Moves s₀ s) : Moves s₀ (s.tallyAdvance d fs) := setTally hs

theorem tallyAgc {d : Nat} (hs : Moves s₀ s) : Moves s₀ (s.tallyAgc d) := setTally hs

theorem tallyPut {a : Nat} {bytes : List Byte} (hs : Moves s₀ s) : Moves s₀ (s.tallyPut a bytes) := busPut hs

theorem flushBits {r : Recep} (hs : Moves s₀ s) : Moves s₀ (s.flushBits r) := ite hs (tallyPut hs)

theorem tallyRecord {d : Nat} {words : List Word} (hs : Moves s₀ s) : Moves s₀ (s.tallyRecord d words).2 :=
  ite (addFld (setFld (tallyPut hs))) (setFld (tallyPut hs))

theorem endReception {d : Nat} {r : Recep} {outcome : Nat} (hs : Moves s₀ s) : Moves s₀ (s.endReception d r outcome) := by
  unfold State.endReception
  extract_lets s1
  have h1 : Moves s₀ s1 := flushBits hs
  split
  extract_lets _ s2
  have h2 : Moves s₀ s2 := setTally (snd ‹_› (tallyRecord h1))
  exact ite (addFld h2) (ite (post (addFld h2)) (ite (post (addFld h2)) (addFld h2)))

theorem peakPower {b : Peak} (hs : Moves s₀ s) : Moves s₀ (s.peakPower b).2 := by
  unfold State.peakPower
  refine ite_snd ?_ hs
  split
  exact snd ‹_› (takeFree hs)

theorem peakRho {b : Peak} (hs : Moves s₀ s) : Moves s₀ (s.peakRho b).2 := ite_snd (takeFree hs) hs

theorem peakFreq {b : Peak} {dec : Nat} (hs : Moves s₀ s) : Moves s₀ (s.peakFreq b dec).2 := ite_snd (takeFree hs) hs

theorem startReception {d : Nat} {b : Peak} {power : Int} {rho : Nat} (hs : Moves s₀ s) :
    Moves s₀ (s.startReception d b power rho) := by
  unfold State.startReception
  split
  extract_lets _ _ _ _ _ _ _ s1 s2
  have h1 : Moves s₀ s1 := setTally (snd ‹_› (peakFreq hs))
  have h2 : Moves s₀ s2 := ite (raiseTrigger h1) h1
  exact ite (endReception h2) h2

theorem tallyDetect {d : Nat} {b : Peak} (hs : Moves s₀ s) : Moves s₀ (s.tallyDetect d b) := by
  unfold State.tallyDetect
  extract_lets _ s1
  have h1 : Moves s₀ s1 := addFld (setTally hs)
  split
  rename_i e2
  have h2 := snd e2 (peakPower h1)
  split
  rename_i e3
  have h3 := snd e3 (peakRho h2)
  split
  · exact startReception h3
  · exact ite (startReception (endReception h3)) (addFld (tallyRecord h3))

theorem dataSymbol {r : Recep} {num : Int × Int} {den : Nat} (hs : Moves s₀ s) : Moves s₀ (s.dataSymbol r num den).2 :=
  ite_snd (ite_snd (update hs rfl) (ite (update hs rfl) (tallyPut (update hs rfl)))) (ite_snd (update hs rfl) (tallyPut
    (update hs rfl)))

theorem keepReception {d : Nat} {r : Recep} (hs : Moves s₀ s) : Moves s₀ (s.keepReception d r) :=
  ite (endReception hs) (setTally hs)

theorem tallySymbol {d : Nat} {r : Recep} (hs : Moves s₀ s) : Moves s₀ (s.tallySymbol d r) := by
  unfold State.tallySymbol
  extract_lets _ _ _ _ _ _ _ _ s1
  have h1 : Moves s₀ s1 := ite (update hs rfl) hs
  refine ite (setTally hs) (ite (ite (setTally h1) (ite (keepReception h1) (endReception h1))) ?_)
  split
  exact keepReception (snd ‹_› (dataSymbol hs))

theorem tplData {d : Nat} {v : Word} (hs : Moves s₀ s) : Moves s₀ (s.tplData d v) := setFld (update hs rfl)

theorem tplLenWrite {d n : Nat} (hs : Moves s₀ s) : Moves s₀ (s.tplLenWrite d n) := update hs rfl

/-! ### Streams -/

theorem setS {c : Nat} {f : Field} {v : Nat} (hs : Moves s₀ s) : Moves s₀ (s.setS c f v) := setFld hs

theorem strmEvent {c : Nat} {f : Field} {event sev sym : Nat} (hs : Moves s₀ s) : Moves s₀ (s.strmEvent c f event sev sym) :=
  post (setS hs)

theorem strmSat {c sym : Nat} (hs : Moves s₀ s) : Moves s₀ (s.strmSat c sym) := ite (setS hs) (post (setStrm (setS hs)))

theorem syncSlice {f : Nat} (hs : Moves s₀ s) : Moves s₀ (s.syncSlice f) := setFld (setFld (setFld hs))

theorem setAhn {l : Nat} {x : AhnLane} (hs : Moves s₀ s) : Moves s₀ (s.setAhn l x) := setFld (setFld (update hs rfl))

theorem setTxState {l n : Nat} (hs : Moves s₀ s) : Moves s₀ (s.setTxState l n) :=
  setAhn (setFld (setFld (ite (update hs rfl) hs)))

theorem setRxState {l n : Nat} (hs : Moves s₀ s) : Moves s₀ (s.setRxState l n) := setAhn (setFld hs)

theorem pullStream {l st : Nat} (hs : Moves s₀ s) : Moves s₀ (s.pullStream l st) := by
  unfold State.pullStream
  extract_lets cs
  clear_value cs
  split
  · exact hs
  · extract_lets _ _ s1 _ _ _ _ s2
    have h1 : Moves s₀ s1 := foldl hs fun _ _ hs => setStrm hs
    have h2 : Moves s₀ s2 := ite (foldl h1 fun _ _ hs => strmSat hs) h1
    exact ite (setAhn h2) (setAhn h1)

theorem pushWord {l : Nat} {w : CtlWord} (hs : Moves s₀ s) : Moves s₀ (s.pushWord l w) :=
  ite (setAhn hs) (update hs rfl)

theorem popWord {l : Nat} (hs : Moves s₀ s) : Moves s₀ (s.popWord l) := by
  unfold State.popWord
  dsimp only
  split
  · exact pushWord (update (setAhn hs) rfl)
  · exact setAhn hs

theorem tell {key l st op effect : Nat} (hs : Moves s₀ s) : Moves s₀ (s.tell key l st op effect) :=
  pushWord (update hs rfl)

theorem chWord {c op : Nat} (hs : Moves s₀ s) : Moves s₀ (s.chWord c op) :=
  ite (ite (pullStream hs) (tell (pullStream hs))) hs

theorem syncCommit {c : Nat} (hs : Moves s₀ s) : Moves s₀ (s.syncCommit c) := setS (setS (setS hs))

theorem lockPoint {c : Nat} (hs : Moves s₀ s) : Moves s₀ (s.lockPoint c) := syncCommit (setStrm hs)

theorem commitArrive {c : Nat} {ops : List (BitVec 16)} (hs : Moves s₀ s) : Moves s₀ (s.commitArrive c ops) := by
  unfold State.commitArrive
  extract_lets _ _ s1 s2
  have h1 : Moves s₀ s1 := ite (lockPoint hs) hs
  have h2 : Moves s₀ s2 := setS h1
  exact syncCommit (setStrm (ite (strmEvent (ite (setS h2) h2)) (ite (setS h2) h2)))

theorem commitTold {c code : Nat} {op : BitVec 16} (hs : Moves s₀ s) : Moves s₀ (s.commitTold c code op) := by
  unfold State.commitTold
  split
  · exact hs
  · exact ite (endOp hs) (setOp hs)

theorem inputGap {c sym : Nat} (hs : Moves s₀ s) : Moves s₀ (s.inputGap c sym) := ite hs (setS (strmEvent hs))

theorem applySet {c : Nat} {k : CommitSet} {code : Nat} (hs : Moves s₀ s) : Moves s₀ (s.applySet c k code) := by
  unfold State.applySet
  extract_lets _ _ _ _ _ _ s1 _ _ _ _ _ _ _ _ _ s2 s3 s4 s5 s6 s7
  have h1 : Moves s₀ s1 := setStrm hs
  have h2 : Moves s₀ s2 := setStrm h1
  have h3 : Moves s₀ s3 := ite (inputGap h2) h2
  have h4 : Moves s₀ s4 := setS h3
  have h5 : Moves s₀ s5 := setS (setS h4)
  have h6 : Moves s₀ s6 := ite h5 (post h5)
  have h7 : Moves s₀ s7 := foldl h6 fun _ _ hs => commitTold hs
  exact foldl (syncCommit h7) fun _ _ hs => syncSlice hs

theorem keysigs {c : Nat} {j : SymJob} {mark : Bool} (hs : Moves s₀ s) : Moves s₀ (s.keysigs c j mark) :=
  foldl hs fun _ _ hs => ite (decKey hs) hs

theorem writeErr {c sym : Nat} (hs : Moves s₀ s) : Moves s₀ (s.writeErr c sym) :=
  ite (setS hs) (post (setStrm (setS hs)))

theorem chPut {c a sym : Nat} {bytes : List Byte} (hs : Moves s₀ s) : Moves s₀ (s.chPut c a sym bytes).2 :=
  ite_snd (busPut hs) (writeErr (busPut hs))

theorem gridWrite {c : Nat} {j : SymJob} {blocks : List Byte} (hs : Moves s₀ s) : Moves s₀ (s.gridWrite c j blocks) :=
  setStrm (ite_snd hs (chPut hs))

theorem setFft {e : Nat} {q : List (Nat × SymJob)} (hs : Moves s₀ s) : Moves s₀ (s.setFft e q) :=
  maxFld (setFld (update hs rfl))

theorem prachDone {c : Nat} {j : SymJob} {fail : Bool} (hs : Moves s₀ s) : Moves s₀ (s.prachDone c j fail) :=
  ite (setStrm hs) (setStrm hs)

theorem dropSymbol {e c : Nat} {j : SymJob} (hs : Moves s₀ s) : Moves s₀ (s.dropSymbol e c j) := by
  unfold State.dropSymbol
  extract_lets s1 s2
  have h1 : Moves s₀ s1 := post (satFld hs)
  have h2 : Moves s₀ s2 := strmEvent h1
  exact ite (setStrm h2) (ite (prachDone h2) (setStrm h2))

theorem prachWrite {c : Nat} {j : SymJob} {bins : List Sample} (hs : Moves s₀ s) : Moves s₀ (s.prachWrite c j bins) :=
  prachDone (chPut hs)

theorem endPrach {c : Nat} (hs : Moves s₀ s) : Moves s₀ (s.endPrach c) := setStrm hs

theorem toWitness {c : Nat} {j : SymJob} {blocks : List Byte} (hs : Moves s₀ s) : Moves s₀ (s.toWitness c j blocks) :=
  witBlocks hs

theorem witClose {c : Nat} (hs : Moves s₀ s) : Moves s₀ (s.witClose c) := witSlotEnd hs

theorem prachTake {c : Nat} {ys : List Sample} {miss : List Bool} (hs : Moves s₀ s) : Moves s₀ (s.prachTake c ys miss) :=
  ite (setStrm hs) (ite (strmSat (setStrm hs)) (setStrm hs))

theorem rxSymbol {c : Nat} {stop : Int} (hs : Moves s₀ s) : Moves s₀ (s.rxSymbol c stop) := by
  unfold State.rxSymbol
  extract_lets _ _ _ _ s1
  have h1 : Moves s₀ s1 := update hs rfl
  split
  · exact hs
  · split
    extract_lets s2 s3 s4 s5 _ _ _ _ _ _ _ _ _ _ _ s6
    have h2 : Moves s₀ s2 := tallySamples h1
    have h3 : Moves s₀ s3 := ite (strmSat h2) h2
    have h4 : Moves s₀ s4 := prachTake h3
    have h5 : Moves s₀ s5 := ite h4 (setS (ite (inputGap h4) h4))
    have h6 : Moves s₀ s6 := setStrm h5
    exact ite (ite (toWitness (gridWrite h6)) (setStrm h6)) h6

theorem freqSymbol {c : Nat} {stop : Int} (hs : Moves s₀ s) : Moves s₀ (s.freqSymbol c stop) := by
  unfold State.freqSymbol
  dsimp only
  split
  · exact hs
  · exact tallySamples hs

theorem agcSlot {c : Nat} (hs : Moves s₀ s) : Moves s₀ (s.agcSlot c) :=
  ite (ite (setStrm hs) (ite (setS (setStrm hs)) (setStrm hs))) (setStrm hs)

theorem holdPa {c : Nat} (hs : Moves s₀ s) : Moves s₀ (s.holdPa c) := ite (setStrm hs) hs

theorem endRun {c : Nat} {hard : Bool} (hs : Moves s₀ s) : Moves s₀ (s.endRun c hard) :=
  ite (holdPa hs) (ite (setStrm (ite (chWord hs) hs)) hs)

theorem txOut {c code : Nat} {base : List Sample} {env : Nat → Int} (hs : Moves s₀ s) : Moves s₀ (s.txOut c code base env) :=
  setStrm (ite (strmSat hs) hs)

theorem txActive {c code : Nat} {cp len : Nat} (hs : Moves s₀ s) : Moves s₀ (s.txActive c code cp len) := by
  unfold State.txActive
  refine txOut (setStrm (ite (chWord ?_) ?_))
  · split
    · exact countEvent (ite (countEvent hs) hs)
    · exact countEvent (countEvent (strmEvent hs))
  · split
    · exact countEvent (ite (countEvent hs) hs)
    · exact countEvent (countEvent (strmEvent hs))

theorem txIdle {c code len : Nat} {hard : Bool} (hs : Moves s₀ s) : Moves s₀ (s.txIdle c code len hard) :=
  txOut (setStrm (endRun hs))

theorem txSymbol {c code : Nat} {g : GridAt} {hardStop : Bool} (hs : Moves s₀ s) : Moves s₀ (s.txSymbol c code g hardStop) :=
  ite (txActive hs) (txIdle hs)

theorem chHalt {c : Nat} (hs : Moves s₀ s) : Moves s₀ (s.chHalt c) := setStrm hs

theorem bankChannel {c : Nat} (hs : Moves s₀ s) : Moves s₀ (s.bankChannel c) :=
  setStrm (chHalt (ite (holdPa hs) (endPrach hs)))

theorem chStep {c : Nat} (hs : Moves s₀ s) : Moves s₀ (s.chStep c) := by
  unfold State.chStep
  refine setStrm (chHalt (ite (holdPa (setStrm ?_)) (endPrach (setStrm ?_))))
  · split
    · exact ite (setStrm hs) hs
    · exact hs
  · split
    · exact ite (setStrm hs) hs
    · exact hs

theorem gridMoved {n : Nat} (hs : Moves s₀ s) : Moves s₀ (s.gridMoved n) :=
  foldl (foldl hs fun _ _ hs => ite (chStep hs) hs) fun _ _ hs => ite (fireEdges hs) hs

/-! ### Lanes -/

theorem deliver {l st : Nat} {xs : List (Option Sample)} (hs : Moves s₀ s) : Moves s₀ (s.deliver l st xs) :=
  foldl hs fun _ _ hs => ite (setStrm hs) (ite (inputGap (setStrm hs)) (ite (setStrm hs) (setS (setStrm hs))))

theorem protectSwitch {l : Nat} (hs : Moves s₀ s) : Moves s₀ (s.protectSwitch l) := by
  unfold State.protectSwitch
  refine endRecovery ?_
  split
  · exact ite (post (setFld hs)) hs
  · exact hs

theorem cutStreams {l : Nat} (hs : Moves s₀ s) : Moves s₀ (s.cutStreams l) := by
  unfold State.cutStreams
  split
  · exact foldl hs fun _ _ hs => deliver hs
  · exact hs

theorem rxDown {l : Nat} (hs : Moves s₀ s) : Moves s₀ (s.rxDown l) :=
  ite (protectSwitch (setRxState (cutStreams hs))) (ite hs (setRxState hs))

theorem laneUpdate {l : Nat} (hs : Moves s₀ s) : Moves s₀ (s.laneUpdate l) := by
  unfold State.laneUpdate
  extract_lets _ _ _ s1
  have h1 : Moves s₀ s1 := ite (ite hs (setTxState hs)) (ite (setTxState hs) hs)
  exact ite (ite (rxDown h1) (ite (setRxState h1) h1)) (setFld (setFld (setFld hs)))

theorem startSwitch {q proto : Nat} (hs : Moves s₀ s) : Moves s₀ (s.startSwitch q proto) :=
  foldl (setFld (setFld (setFld (setReg hs)))) fun _ _ hs => setFld (rxDown (setTxState hs))

theorem protoWrite {q : Nat} {v : Word} (hs : Moves s₀ s) : Moves s₀ (s.protoWrite q v) :=
  ite (setFld (update hs rfl)) (startSwitch hs)

theorem recalGo {l : Nat} {v : Word} (hs : Moves s₀ s) : Moves s₀ (s.recalGo l v) := ite (setFld (update hs rfl)) hs

theorem takeFir {l : Nat} (hs : Moves s₀ s) : Moves s₀ (s.takeFir l) := update hs rfl

theorem container {l st : Nat} (hs : Moves s₀ s) : Moves s₀ (s.container l st).2.2 :=
  setAhn (ite (foldl (pullStream hs) fun _ _ hs => strmSat hs) (pullStream hs))

theorem headWord {l : Nat} {k0 : Nat → Nat} {short : Nat} (hs : Moves s₀ s) : Moves s₀ (s.headWord l k0 short).2 := by
  unfold State.headWord
  split
  · exact hs
  · exact ite_snd hs (ite (post (addFld (popWord hs))) (popWord hs))

theorem foretell {l st c key on off : Nat} {want : Nat → Bool} (hs : Moves s₀ s) :
    Moves s₀ (s.foretell l st c key on off want) :=
  ite hs (tell hs)

theorem announce {l : Nat} (hs : Moves s₀ s) : Moves s₀ (s.announce l) := by
  unfold State.announce
  refine foldl hs fun _ _ hs => ?_
  split
  · exact hs
  · exact foldl (ite (foretell hs) hs) fun _ _ hs => ite (foretell hs) hs

theorem sendMultiframe {l : Nat} (hs : Moves s₀ s) : Moves s₀ (s.sendMultiframe l) := by
  unfold State.sendMultiframe
  extract_lets
  split
  rename_i e1
  have h1 := snd_snd e1 (foldl_snd_snd (announce hs) fun _ _ hs => container hs)
  split
  rename_i e2
  have h2 := snd e2 (headWord h1)
  extract_lets x
  split
  exact setAhn h2

theorem fillIdle {l src : Nat} (hs : Moves s₀ s) : Moves s₀ (s.fillIdle l src) :=
  foldl hs fun _ _ hs => foldl hs fun _ _ hs => setStrm hs

theorem ahnLoss {l : Nat} {mflock : Bool} (hs : Moves s₀ s) : Moves s₀ (s.ahnLoss l mflock) :=
  protectSwitch (reportFault (post (setRxState (setAhn (cutStreams hs)))))

theorem takeWord {l stream op arg : Nat} (hs : Moves s₀ s) : Moves s₀ (s.takeWord l stream op arg) :=
  ite (ite (setAhn hs) (addFld hs)) (ite (setAhn hs) (ite (addFld hs) hs))

theorem takeBody {l src short : Nat} {bits : List Bool} {bad : Bool} (hs : Moves s₀ s) :
    Moves s₀ (s.takeBody l src short bits bad) :=
  foldl_snd hs fun _ _ hs => deliver hs

theorem takeMultiframe {l : Nat} {blocks : List (BitVec 66)} (hs : Moves s₀ s) : Moves s₀ (s.takeMultiframe l blocks) := by
  unfold State.takeMultiframe
  extract_lets q x st blocks0 blocks1 fecOn want
  split
  split
  extract_lets hd bits dec fecBad body crcOk mfn good bad runs s1 deliverNow counts word s2 s3
  have h1 : Moves s₀ s1 := setAhn hs
  have delivered {s : State} (hs : Moves s₀ s) : Moves s₀ (deliverNow s) := by
    dsimp only [deliverNow]
    split
    · exact hs
    · exact takeBody hs
  have counted {s : State} (hs : Moves s₀ s) : Moves s₀ (counts s) := by
    clear_value dec
    dsimp -zeta only [counts]
    extract_lets _ _ s'
    have h : Moves s₀ s' := by
      refine ite (update (addFld hs) rfl) ?_
      split
      · exact ite (addFld hs) hs
      · exact hs
    exact ite (addFld h) h
  have told {s : State} (hs : Moves s₀ s) : Moves s₀ (word s) := ite (takeWord hs) hs
  have h2 : Moves s₀ s2 := post (setFld (setRxState h1))
  have h3 : Moves s₀ s3 := by
    dsimp only [s3]
    split
    · exact fillIdle h1
    · exact h1
  clear_value s1 s2 s3 deliverNow counts word mfn want good bad runs
  exact ite (ite (ite (setTxState h2) h2) h1) <|
    ite (ite (ahnLoss h1) (ite (ahnLoss (counted h1)) (told (delivered (counted h1))))) <|
      ite (ite (told (delivered (setRxState h3))) (ahnLoss h1)) h1

theorem txBegin {l n : Nat} (hs : Moves s₀ s) : Moves s₀ (s.txBegin l n) :=
  setTxState (foldl hs fun _ _ hs => pullStream hs)

/-! ### Ethernet rings and flows -/

theorem setFlowWord {e w : Nat} {v : Word} (hs : Moves s₀ s) : Moves s₀ (s.setFlowWord e w v) := update hs rfl

theorem flowCount {e k n : Nat} (hs : Moves s₀ s) : Moves s₀ (s.flowCount e k n) := update hs rfl

theorem flowLate {e n : Nat} (hs : Moves s₀ s) : Moves s₀ (s.flowLate e n) :=
  ite (flowCount hs) (update (flowCount hs) rfl)

theorem flowClear {e : Nat} (hs : Moves s₀ s) : Moves s₀ (s.flowClear e) := update hs rfl

theorem fhPlace {c code prb w : Nat} {b : List Byte} (hs : Moves s₀ s) : Moves s₀ (s.fhPlace c code prb w b) :=
  ite (ite (chPut (ite (strmSat hs) hs)) (setStrm (chPut (ite (strmSat hs) hs)))) hs

theorem uPlane {e tb stamp : Nat} {l : List Byte} (hs : Moves s₀ s) : Moves s₀ (s.uPlane e tb stamp l) := by
  unfold State.uPlane
  refine ite (flowCount hs) ?_
  split
  · exact flowCount hs
  · extract_lets _ s1 _ s2 _ _ _ _ s3
    have h1 : Moves s₀ s1 := ite (flowCount hs) hs
    have h2 : Moves s₀ s2 := update h1 rfl
    have h3 : Moves s₀ s3 := flowCount h2
    exact ite (flowCount h2) (ite (flowLate h2) (ite h3 (foldl h3 fun _ _ hs => ite (foldl hs fun _ _ hs => fhPlace hs) hs)))

theorem roePacket {e tb stamp order : Nat} {payload : List Byte} (hs : Moves s₀ s) :
    Moves s₀ (s.roePacket e tb stamp order payload) :=
  ite hs (setStrm (ite (flowLate hs) hs))

theorem flowTemplate {e : Nat} (hs : Moves s₀ s) : Moves s₀ (s.flowTemplate e).2 := unitGet hs

theorem queueMsg {e : Nat} {bytes : List Byte} (hs : Moves s₀ s) : Moves s₀ (s.queueMsg e bytes) :=
  ite hs (ite (addFld hs) (update hs rfl))

theorem flowSend {c : Nat} {j : SymJob} {blocks : List (List Byte)} (hs : Moves s₀ s) : Moves s₀ (s.flowSend c j blocks) := by
  unfold State.flowSend
  split
  · exact hs
  · refine ite hs ?_
    split
    have h1 := snd ‹_› (flowTemplate hs)
    extract_lets
    exact foldl h1 fun _ _ hs => queueMsg (update hs rfl)

theorem roeDrain {e n : Nat} (hs : Moves s₀ s) : Moves s₀ (s.roeDrain e n) := by
  induction n generalizing s with
  | zero => exact hs
  | succ n ih =>
    unfold State.roeDrain
    extract_lets n
    split
    refine ite hs ?_
    split
    rename_i tpl s1 e1
    exact ih (queueMsg (update (snd e1 (flowTemplate hs)) rfl))

theorem roeSend {c k : Nat} {xs : List Sample} (hs : Moves s₀ s) : Moves s₀ (s.roeSend c k xs) := by
  unfold State.roeSend
  split
  · exact hs
  · extract_lets
    refine ite hs ?_
    split
    exact roeDrain (update hs rfl)

theorem setEthRing {r : Nat} {x : EthRing} (hs : Moves s₀ s) : Moves s₀ (s.setEthRing r x) := update hs rfl

theorem ethCtl {r : Nat} {v : Word} (hs : Moves s₀ s) : Moves s₀ (s.ethCtl r v) :=
  ite (setFld (setFld (storeReg hs))) (setFld (setEthRing (setFld (storeReg hs))))

theorem ethNext {r i : Nat} (hs : Moves s₀ s) : Moves s₀ (s.ethNext r i).2 := ite_snd hs (setFld (setEthRing hs))

theorem ethComplete {r head : Nat} {frame : Bool} (hs : Moves s₀ s) : Moves s₀ (s.ethComplete r head frame) := by
  unfold State.ethComplete
  extract_lets s1 s2 _ _ s3
  have h1 : Moves s₀ s1 := setFld hs
  have h2 : Moves s₀ s2 := ite (addFld h1) h1
  have h3 : Moves s₀ s3 := ite (raise (setEthRing h2)) (setEthRing h2)
  exact ite (decKey h3) h3

theorem ethDiscard {r : Nat} (hs : Moves s₀ s) : Moves s₀ (s.ethDiscard r) := setEthRing (addFld hs)

theorem readDesc {r ni a : Nat} (hs : Moves s₀ s) : Moves s₀ (s.readDesc r ni a).2 := by
  unfold State.readDesc
  split
  exact ite_snd (snd_snd ‹_› (unitGet hs)) (snd_snd ‹_› (unitGet hs))

theorem ethDesc {ni r i : Nat} (hs : Moves s₀ s) : Moves s₀ (s.ethDesc ni r i).2 := readDesc hs

theorem ethFill {ni r n i : Nat} {l : List Byte} {used : List (Nat × Nat)} (hs : Moves s₀ s) :
    Moves s₀ (s.ethFill ni r n i l used).2 := by
  induction n generalizing s i l used with
  | zero => exact hs
  | succ n ih =>
    unfold State.ethFill
    split
    · exact hs
    · split
      · exact snd ‹_› (ethDesc hs)
      · rename_i d s1 e1
        have h1 : Moves s₀ s1 := snd e1 (ethDesc hs)
        extract_lets cap part
        split
        rename_i st s2 e2
        have h2 : Moves s₀ s2 := snd e2 (busPut h1)
        split
        rename_i j s3 e3
        have h3 : Moves s₀ s3 := snd e3 (ethNext h2)
        exact ite_snd (ih h3) h3

theorem toRing {m r : Nat} {l : List Byte} {info : Nat} {w3 : Word} {stamp : List Word} {bad : Bool} (hs : Moves s₀ s) :
    Moves s₀ (s.toRing m r l info w3 stamp bad) := by
  unfold State.toRing
  extract_lets ni start avail
  refine ite (ethDiscard hs) (ite (ethDiscard (addFld hs)) ?_)
  split
  rename_i f s1 e1
  have h1 : Moves s₀ s1 := snd e1 (ethFill hs)
  exact ite (ethDiscard h1) (setEthRing (ite (ethDiscard (ite h1 (addFld h1))) h1))

theorem setPause {m k : Nat} {x : Pause} (hs : Moves s₀ s) : Moves s₀ (s.setPause m k x) := setReg (update hs rfl)

theorem pauseWatch {m k : Nat} (hs : Moves s₀ s) : Moves s₀ (s.pauseWatch m k) := ite (post (addFld (setPause hs))) hs

theorem pauseFor {m k q : Nat} (hs : Moves s₀ s) : Moves s₀ (s.pauseFor m k q) :=
  ite (setPause (pauseWatch hs)) (ite (setPause (pauseWatch hs)) (setPause (pauseWatch hs)))

theorem macControl {m : Nat} {l : List Byte} (hs : Moves s₀ s) : Moves s₀ (s.macControl m l) :=
  ite (ite (pauseFor (addFld hs)) (addFld hs)) (ite (ite (foldl (addFld hs) fun _ _ hs => ite (pauseFor hs) hs) (addFld hs)) hs)

theorem setMacSt {m : Nat} {x : MacSt} (hs : Moves s₀ s) : Moves s₀ (s.setMacSt m x) := update hs rfl

theorem sendPause {m p q : Nat} (hs : Moves s₀ s) : Moves s₀ (s.sendPause m p q) := addFld (setMacSt hs)

theorem macProtectSwitch {h : Nat} {b : Bool} (hs : Moves s₀ s) : Moves s₀ (s.macProtectSwitch h b) :=
  ite hs (post (setFld hs))

theorem macDown {m : Nat} (hs : Moves s₀ s) : Moves s₀ (s.macDown m) :=
  ite (foldl (post (setFld hs)) fun _ _ hs => ite (ite (macProtectSwitch hs) hs) hs) hs

theorem macsCheck (hs : Moves s₀ s) : Moves s₀ s.macsCheck := foldl hs fun _ _ hs => ite (macDown hs) hs

theorem macProtectWrite {h : Nat} {v : Word} (hs : Moves s₀ s) : Moves s₀ (s.macProtectWrite h v) :=
  macProtectSwitch (storeReg hs)

theorem ethPeriod (hs : Moves s₀ s) : Moves s₀ s.ethPeriod :=
  update (foldl (foldl hs fun _ _ hs => post hs) fun _ _ hs => ite (setEthRing (post hs)) hs) rfl

/-! ### DMA engines -/

theorem setDch {c : Nat} {x : DmaCh} (hs : Moves s₀ s) : Moves s₀ (s.setDch c x) :=
  ite (update hs rfl) (setFld (update hs rfl))

theorem setDmaState {c st code : Nat} (hs : Moves s₀ s) : Moves s₀ (s.setDmaState c st code) :=
  setFld (setFld (setFld hs))

theorem setDmaPc {c a : Nat} (hs : Moves s₀ s) : Moves s₀ (s.setDmaPc c a) := setPair hs

theorem dmaWait {c kind : Nat} (hs : Moves s₀ s) : Moves s₀ (s.dmaWait c kind) := setFld (setDmaState (setDch hs))

theorem dmaHalt {c code : Nat} (hs : Moves s₀ s) : Moves s₀ (s.dmaHalt c code) := post (setDmaState (setDch hs))

theorem leaveKey {c : Nat} (hs : Moves s₀ s) : Moves s₀ (s.leaveKey c) := update hs rfl

theorem dmaStart {c : Nat} (hs : Moves s₀ s) : Moves s₀ (s.dmaStart c) := ite (setDmaState (setDch (setDmaPc hs))) hs

theorem dmaAbort {c : Nat} (hs : Moves s₀ s) : Moves s₀ (s.dmaAbort c) := ite hs (setDmaState (leaveKey (setDch hs)))

theorem dmaResume {c : Nat} (hs : Moves s₀ s) : Moves s₀ (s.dmaResume c) := ite (setDmaState (setDch hs)) hs

theorem dmaCtl {c : Nat} {v : Word} (hs : Moves s₀ s) : Moves s₀ (s.dmaCtl c v) := by
  unfold State.dmaCtl
  extract_lets s1 s2
  have h1 : Moves s₀ s1 := ite (dmaStart hs) hs
  have h2 : Moves s₀ s2 := ite (dmaAbort h1) h1
  exact ite (dmaResume h2) h2

theorem regHiWrite {req c : Nat} {v : Word} (hs : Moves s₀ s) : Moves s₀ (s.regHiWrite req c v) := ite (setDch hs) hs

theorem putFlag {n : Nat} {b : Bool} (hs : Moves s₀ s) : Moves s₀ (s.putFlag n b) := setReg hs

theorem setFlag {n : Nat} (hs : Moves s₀ s) : Moves s₀ (s.setFlag n) := by
  unfold State.setFlag
  refine ite (addFld hs) ?_
  dsimp only
  split
  · exact putFlag hs
  · exact setDch (update hs rfl)

theorem eventSet {e w : Nat} {v : Word} (hs : Moves s₀ s) : Moves s₀ (s.eventSet e w v) :=
  foldl hs fun _ _ hs => ite (setFlag hs) hs

theorem eventClr {e w : Nat} {v : Word} (hs : Moves s₀ s) : Moves s₀ (s.eventClr e w v) :=
  foldl hs fun _ _ hs => ite (putFlag hs) hs

theorem ringReset {n : Nat} (hs : Moves s₀ s) : Moves s₀ (s.ringReset n) := update (setFld (setFld (setFld hs))) rfl

theorem ringHead {fn n v : Nat} (hs : Moves s₀ s) : Moves s₀ (s.ringHead fn n v) := ite (setFld hs) hs

theorem dmaErr {c access a status : Nat} (hs : Moves s₀ s) : Moves s₀ (s.dmaErr c access a status) := update hs rfl

theorem dmaStop {c : Nat} (hs : Moves s₀ s) : Moves s₀ (s.dmaStop c) :=
  setDmaState (leaveKey (setDch (ite (setFld (ite (setDmaPc hs) hs)) (ite (setDmaPc hs) hs))))

theorem dmaBusError {e : Nat} {r : DmaErr} (hs : Moves s₀ s) : Moves s₀ (s.dmaBusError e r) :=
  ite (satFld (setFld hs)) (post (setReg (setPair (foldl (satFld (setFld hs)) fun _ _ hs => dmaStop hs))))

/-! ### Operands of the cores -/

theorem setCore {c : Nat} {k : Core} (hs : Moves s₀ s) : Moves s₀ (s.setCore c k) := update hs rfl

/-! ### The Sett cores -/

theorem startHead_some {u i : Nat} {x : Task} (e : s.startHead u = some (i, x, t)) (hs : Moves s₀ s) : Moves s₀ t := by
  unfold State.startHead at e
  split at e
  · cases e
  · split at e
    · cases e
    · extract_lets x' s1 b s2 at e
      have h2 : Moves s₀ s2 := satFld (setSlot (putTask hs))
      simp only [Option.some.injEq, Prod.mk.injEq] at e
      obtain ⟨_, _, rfl⟩ := e
      exact ite (addFld h2) h2

theorem fetch {c : Nat} (hs : Moves s₀ s) : Moves s₀ (s.fetch c) := update (setCore hs) rfl

theorem endTakeWait {c : Nat} (hs : Moves s₀ s) : Moves s₀ (s.endTakeWait c) := ite hs (satFld (update hs rfl))

theorem takeNext {c : Nat} (hs : Moves s₀ s) : Moves s₀ (s.takeNext c) := by
  unfold State.takeNext
  extract_lets wait
  have hw : Moves s₀ (wait s) := ite (update hs rfl) hs
  split
  · split
    · rename_i i x s1 e
      exact countEvent (endTakeWait (setCore (startHead_some e hs)))
    · exact hw
  · exact hw

theorem setCmu {n : Nat} {x : Cmu} (hs : Moves s₀ s) : Moves s₀ (s.setCmu n x) := update hs rfl

theorem syncCmu {n : Nat} (hs : Moves s₀ s) : Moves s₀ (s.syncCmu n) := setFld (setFld hs)

theorem recordExc {c : Nat} {e : CoreExc} {left : Nat} (hs : Moves s₀ s) : Moves s₀ (s.recordExc c e left).2 := by
  unfold State.recordExc
  extract_lets _ _ s1 _ s2 s3 s4 s5
  have h4 : Moves s₀ s4 := setFld (setFld (setFld (setPair (setFld (satFld (setFld (setFld (setCore hs))))))))
  exact ite (post h4) (post h4)

theorem reportTask {c : Nat} {why : Cause} (hs : Moves s₀ s) : Moves s₀ (s.reportTask c why) := by
  unfold State.reportTask
  refine takeNext ?_
  split
  · exact report (setCore hs)
  · exact setCore hs

theorem tryEnd {c : Nat} (hs : Moves s₀ s) : Moves s₀ (s.tryEnd c) := by
  unfold State.tryEnd
  dsimp only
  split
  · exact hs
  · refine ite hs ?_
    split
    · exact reportTask hs
    · exact reportTask hs
    · exact ite hs (ite (reportTask (recordExc (setCmu hs))) (ite (reportTask (recordExc hs)) (reportTask hs)))

theorem raiseExc {c : Nat} {e : CoreExc} (hs : Moves s₀ s) : Moves s₀ (s.raiseExc c e) :=
  tryEnd (setCore (recordExc (setCore hs)))

theorem sampleLost {n : Nat} (hs : Moves s₀ s) : Moves s₀ (s.sampleLost n) := countEvent (addFld hs)

theorem sample {c pc : Nat} {hits : List (Nat × Nat)} {daddr left : Nat} {inRep : Bool} (hs : Moves s₀ s) :
    Moves s₀ (s.sample c pc hits daddr left inRep) := by
  unfold State.sample
  extract_lets
  refine ite ?_ hs
  split
  extract_lets _ _ _ _ s1
  have h1 : Moves s₀ s1 := update (snd ‹_› (ite_snd (takeFree hs) hs)) rfl
  refine ite h1 ?_
  split
  extract_lets _ _ s2
  have h2 : Moves s₀ s2 := update (snd ‹_› (takeFree h1)) rfl
  exact ite (update h2 rfl) (sampleLost h2)

theorem doStores {c : Nat} {l : List (List (Nat × List Byte))} (hs : Moves s₀ s) : Moves s₀ (s.doStores c l) := by
  unfold State.doStores
  refine foldl hs fun _ _ hs => ?_
  split
  · exact hs
  · exact ite (foldl hs fun _ _ hs => writeMem hs) (setCore hs)

theorem cmuWords {c a : Nat} (hs : Moves s₀ s) : Moves s₀ (s.cmuWords c a).2 := by
  unfold State.cmuWords
  refine ite_snd hs ?_
  split
  exact snd ‹_› (takeFree hs)

theorem retire {c : Nat} {loaded : List RegWrite} {held : Bool} (hs : Moves s₀ s) : Moves s₀ (s.retire c loaded held) := by
  unfold State.retire
  extract_lets k st left ws k0 k1 k2 s1 s2 s3 s4 s5
  have h1 : Moves s₀ s1 := doStores (setCore hs)
  have h2 : Moves s₀ s2 := by
    dsimp only [s2]
    split
    · exact syncCmu (setCmu (cmuWords h1))
    · exact h1
  have h3 : Moves s₀ s3 := countEvent (countEvent h2)
  have h4 : Moves s₀ s4 := by
    dsimp only [s4]
    split
    · exact ite h3 (countAct h3)
    · exact h3
  have h5 : Moves s₀ s5 := sample h4
  split
  · exact setCore h5
  · exact tryEnd (setCore h5)
  · exact h5

theorem localRead {c a n : Nat} (hs : Moves s₀ s) : Moves s₀ (s.localRead c a n).2 := took (readMem hs)

theorem cmuqPoison {c a : Nat} {go : State → State} (hs : Moves s₀ s) (hg : Moves s₀ (go s)) :
    Moves s₀ (s.cmuqPoison c a go) :=
  ite (raiseExc (took hs)) hg

theorem finishBundle {c : Nat} (hs : Moves s₀ s) : Moves s₀ (s.finishBundle c) := by
  unfold State.finishBundle
  extract_lets k st
  split
  · refine ite (raiseExc hs) ?_
    split
    · split
      · split
        exact raiseExc (snd ‹_› (localRead hs))
      · exact ite (raiseExc hs) (countEvent (setCore hs))
      · exact raiseExc hs
    · split
      · exact cmuqPoison hs (raiseExc hs)
      · exact raiseExc hs
  · split
    · refine ite ?_ (countEvent (setCore hs))
      split
      have h1 := snd ‹_› (localRead hs)
      exact ite (raiseExc h1) (retire h1)
    · split
      · exact cmuqPoison hs (retire hs)
      · exact retire hs

theorem stageSlot {c slot : Nat} {o : SlotOut} (hs : Moves s₀ s) : Moves s₀ (s.stageSlot c slot o) :=
  setCore (ite (fetch hs) hs)

theorem macOp {c m op : Nat} {f : Core → Nat → SlotOut} (hs : Moves s₀ s) : Moves s₀ (s.macOp c m op f) := by
  unfold State.macOp
  split
  · exact hs
  · exact ite hs (ite (raiseExc (countEvent hs)) (stageSlot hs))

theorem lsOp {c op : Nat} {f : Core → Nat → SlotOut} (hs : Moves s₀ s) : Moves s₀ (s.lsOp c op f) := by
  unfold State.lsOp
  split
  · exact hs
  · exact ite (stageSlot hs) hs

theorem sbOp {c op : Nat} {f : Core → Nat → SlotOut} (hs : Moves s₀ s) : Moves s₀ (s.sbOp c op f) := by
  unfold State.sbOp
  split
  · exact hs
  · exact ite (finishBundle (stageSlot hs)) hs

/-! ### Commands of the Sett cores -/

theorem execVmac {core : Fin 192} {mac : Fin 2} (hs : Moves s₀ s) : Ends s₀ (execVmac core mac s) := next (macOp hs)

theorem execVmsu {core : Fin 192} {mac : Fin 2} (hs : Moves s₀ s) : Ends s₀ (execVmsu core mac s) := next (macOp hs)

theorem execVmul {core : Fin 192} {mac : Fin 2} (hs : Moves s₀ s) : Ends s₀ (execVmul core mac s) := next (macOp hs)

theorem execVcmacL {core : Fin 192} {mac : Fin 2} (hs : Moves s₀ s) : Ends s₀ (execVcmacL core mac s) := next (macOp hs)

theorem execVcmacH {core : Fin 192} {mac : Fin 2} (hs : Moves s₀ s) : Ends s₀ (execVcmacH core mac s) := next (macOp hs)

theorem execVcmacjL {core : Fin 192} {mac : Fin 2} (hs : Moves s₀ s) : Ends s₀ (execVcmacjL core mac s) :=
  next (macOp hs)

theorem execVcmacjH {core : Fin 192} {mac : Fin 2} (hs : Moves s₀ s) : Ends s₀ (execVcmacjH core mac s) :=
  next (macOp hs)

theorem execVaclr {core : Fin 192} {mac : Fin 2} (hs : Moves s₀ s) : Ends s₀ (execVaclr core mac s) := next (macOp hs)

theorem execVald {core : Fin 192} {mac : Fin 2} (hs : Moves s₀ s) : Ends s₀ (execVald core mac s) := next (macOp hs)

theorem execVamov {core : Fin 192} {mac : Fin 2} (hs : Moves s₀ s) : Ends s₀ (execVamov core mac s) := next (macOp hs)

theorem execVared {core : Fin 192} {mac : Fin 2} (hs : Moves s₀ s) : Ends s₀ (execVared core mac s) := next (macOp hs)

theorem execVext {core : Fin 192} {mac : Fin 2} (hs : Moves s₀ s) : Ends s₀ (execVext core mac s) := next (macOp hs)

theorem execVexts {core : Fin 192} {mac : Fin 2} (hs : Moves s₀ s) : Ends s₀ (execVexts core mac s) := next (macOp hs)

theorem execVextr {core : Fin 192} {mac : Fin 2} (hs : Moves s₀ s) : Ends s₀ (execVextr core mac s) := next (macOp hs)

theorem execVextrs {core : Fin 192} {mac : Fin 2} (hs : Moves s₀ s) : Ends s₀ (execVextrs core mac s) := next (macOp hs)

theorem execVadd {core : Fin 192} {mac : Fin 2} (hs : Moves s₀ s) : Ends s₀ (execVadd core mac s) := next (macOp hs)

theorem execVadds {core : Fin 192} {mac : Fin 2} (hs : Moves s₀ s) : Ends s₀ (execVadds core mac s) := next (macOp hs)

theorem execVsub {core : Fin 192} {mac : Fin 2} (hs : Moves s₀ s) : Ends s₀ (execVsub core mac s) := next (macOp hs)

theorem execVsubs {core : Fin 192} {mac : Fin 2} (hs : Moves s₀ s) : Ends s₀ (execVsubs core mac s) := next (macOp hs)

theorem execVmulq {core : Fin 192} {mac : Fin 2} (hs : Moves s₀ s) : Ends s₀ (execVmulq core mac s) := next (macOp hs)

theorem execVshr {core : Fin 192} {mac : Fin 2} (hs : Moves s₀ s) : Ends s₀ (execVshr core mac s) := next (macOp hs)

theorem execVshl {core : Fin 192} {mac : Fin 2} (hs : Moves s₀ s) : Ends s₀ (execVshl core mac s) := next (macOp hs)

theorem execVshls {core : Fin 192} {mac : Fin 2} (hs : Moves s₀ s) : Ends s₀ (execVshls core mac s) := next (macOp hs)

theorem execVand {core : Fin 192} {mac : Fin 2} (hs : Moves s₀ s) : Ends s₀ (execVand core mac s) := next (macOp hs)

theorem execVor {core : Fin 192} {mac : Fin 2} (hs : Moves s₀ s) : Ends s₀ (execVor core mac s) := next (macOp hs)

theorem execVxor {core : Fin 192} {mac : Fin 2} (hs : Moves s₀ s) : Ends s₀ (execVxor core mac s) := next (macOp hs)

theorem execVmax {core : Fin 192} {mac : Fin 2} (hs : Moves s₀ s) : Ends s₀ (execVmax core mac s) := next (macOp hs)

theorem execVmin {core : Fin 192} {mac : Fin 2} (hs : Moves s₀ s) : Ends s₀ (execVmin core mac s) := next (macOp hs)

theorem execVabs {core : Fin 192} {mac : Fin 2} (hs : Moves s₀ s) : Ends s₀ (execVabs core mac s) := next (macOp hs)

theorem execVneg {core : Fin 192} {mac : Fin 2} (hs : Moves s₀ s) : Ends s₀ (execVneg core mac s) := next (macOp hs)

theorem execVconj {core : Fin 192} {mac : Fin 2} (hs : Moves s₀ s) : Ends s₀ (execVconj core mac s) := next (macOp hs)

theorem execVswapiq {core : Fin 192} {mac : Fin 2} (hs : Moves s₀ s) : Ends s₀ (execVswapiq core mac s) :=
  next (macOp hs)

theorem execVcmpgt {core : Fin 192} {mac : Fin 2} (hs : Moves s₀ s) : Ends s₀ (execVcmpgt core mac s) := next (macOp hs)

theorem execVcmpeq {core : Fin 192} {mac : Fin 2} (hs : Moves s₀ s) : Ends s₀ (execVcmpeq core mac s) := next (macOp hs)

theorem execVsel {core : Fin 192} {mac : Fin 2} (hs : Moves s₀ s) : Ends s₀ (execVsel core mac s) := next (macOp hs)

theorem execValign {core : Fin 192} {mac : Fin 2} (hs : Moves s₀ s) : Ends s₀ (execValign core mac s) := next (macOp hs)

theorem execVbcast {core : Fin 192} {mac : Fin 2} (hs : Moves s₀ s) : Ends s₀ (execVbcast core mac s) := next (macOp hs)

theorem execVmov {core : Fin 192} {mac : Fin 2} (hs : Moves s₀ s) : Ends s₀ (execVmov core mac s) := next (macOp hs)

theorem execVnop {core : Fin 192} {mac : Fin 2} (hs : Moves s₀ s) : Ends s₀ (execVnop core mac s) := next (macOp hs)

/-! ### Scalar commands of the Sett cores -/

theorem execVld {core : Fin 192} (hs : Moves s₀ s) : Ends s₀ (execVld core s) := next (lsOp hs)

theorem execVst {core : Fin 192} (hs : Moves s₀ s) : Ends s₀ (execVst core s) := next (lsOp hs)

theorem execVldst {core : Fin 192} (hs : Moves s₀ s) : Ends s₀ (execVldst core s) := next (lsOp hs)

theorem execVldbc {core : Fin 192} (hs : Moves s₀ s) : Ends s₀ (execVldbc core s) := next (lsOp hs)

theorem execLdw {core : Fin 192} (hs : Moves s₀ s) : Ends s₀ (execLdw core s) := next (lsOp hs)

theorem execLdh {core : Fin 192} (hs : Moves s₀ s) : Ends s₀ (execLdh core s) := next (lsOp hs)

theorem execLdhu {core : Fin 192} (hs : Moves s₀ s) : Ends s₀ (execLdhu core s) := next (lsOp hs)

theorem execStw {core : Fin 192} (hs : Moves s₀ s) : Ends s₀ (execStw core s) := next (lsOp hs)

theorem execSth {core : Fin 192} (hs : Moves s₀ s) : Ends s₀ (execSth core s) := next (lsOp hs)

theorem execCmuq {core : Fin 192} (hs : Moves s₀ s) : Ends s₀ (execCmuq core s) := by
  unfold Machine.execCmuq
  split
  · exact next hs
  · exact ite_ends (next (setCore hs)) (next (stageSlot hs))

theorem execAadd {core : Fin 192} (hs : Moves s₀ s) : Ends s₀ (execAadd core s) := next (lsOp hs)

theorem execLnop {core : Fin 192} (hs : Moves s₀ s) : Ends s₀ (execLnop core s) := next (lsOp hs)

theorem execSadd {core : Fin 192} (hs : Moves s₀ s) : Ends s₀ (execSadd core s) := next (sbOp hs)

theorem execSsub {core : Fin 192} (hs : Moves s₀ s) : Ends s₀ (execSsub core s) := next (sbOp hs)

theorem execSmul {core : Fin 192} (hs : Moves s₀ s) : Ends s₀ (execSmul core s) := next (sbOp hs)

theorem execSand {core : Fin 192} (hs : Moves s₀ s) : Ends s₀ (execSand core s) := next (sbOp hs)

theorem execSor {core : Fin 192} (hs : Moves s₀ s) : Ends s₀ (execSor core s) := next (sbOp hs)

theorem execSxor {core : Fin 192} (hs : Moves s₀ s) : Ends s₀ (execSxor core s) := next (sbOp hs)

theorem execSshl {core : Fin 192} (hs : Moves s₀ s) : Ends s₀ (execSshl core s) := next (sbOp hs)

theorem execSshr {core : Fin 192} (hs : Moves s₀ s) : Ends s₀ (execSshr core s) := next (sbOp hs)

theorem execSshru {core : Fin 192} (hs : Moves s₀ s) : Ends s₀ (execSshru core s) := next (sbOp hs)

theorem execSslt {core : Fin 192} (hs : Moves s₀ s) : Ends s₀ (execSslt core s) := next (sbOp hs)

theorem execSsltu {core : Fin 192} (hs : Moves s₀ s) : Ends s₀ (execSsltu core s) := next (sbOp hs)

theorem execSmin {core : Fin 192} (hs : Moves s₀ s) : Ends s₀ (execSmin core s) := next (sbOp hs)

theorem execSmax {core : Fin 192} (hs : Moves s₀ s) : Ends s₀ (execSmax core s) := next (sbOp hs)

theorem execSaddi {core : Fin 192} (hs : Moves s₀ s) : Ends s₀ (execSaddi core s) := next (sbOp hs)

theorem execSmovi {core : Fin 192} (hs : Moves s₀ s) : Ends s₀ (execSmovi core s) := next (sbOp hs)

theorem execSmovhi {core : Fin 192} (hs : Moves s₀ s) : Ends s₀ (execSmovhi core s) := next (sbOp hs)

theorem execMovm {core : Fin 192} (hs : Moves s₀ s) : Ends s₀ (execMovm core s) := next (sbOp hs)

theorem execMovlc {core : Fin 192} (hs : Moves s₀ s) : Ends s₀ (execMovlc core s) := next (sbOp hs)

theorem execMovl {core : Fin 192} (hs : Moves s₀ s) : Ends s₀ (execMovl core s) := next (sbOp hs)

theorem execMovp {core : Fin 192} (hs : Moves s₀ s) : Ends s₀ (execMovp core s) := next (sbOp hs)

theorem execMova {core : Fin 192} (hs : Moves s₀ s) : Ends s₀ (execMova core s) := next (sbOp hs)

theorem execMovb {core : Fin 192} (hs : Moves s₀ s) : Ends s₀ (execMovb core s) := next (sbOp hs)

theorem execMovs {core : Fin 192} (hs : Moves s₀ s) : Ends s₀ (execMovs core s) := next (sbOp hs)

theorem execSatclr {core : Fin 192} (hs : Moves s₀ s) : Ends s₀ (execSatclr core s) := next (sbOp hs)

theorem execBeq {core : Fin 192} (hs : Moves s₀ s) : Ends s₀ (execBeq core s) := next (sbOp hs)

theorem execBne {core : Fin 192} (hs : Moves s₀ s) : Ends s₀ (execBne core s) := next (sbOp hs)

theorem execBlt {core : Fin 192} (hs : Moves s₀ s) : Ends s₀ (execBlt core s) := next (sbOp hs)

theorem execBge {core : Fin 192} (hs : Moves s₀ s) : Ends s₀ (execBge core s) := next (sbOp hs)

theorem execJ {core : Fin 192} (hs : Moves s₀ s) : Ends s₀ (execJ core s) := next (sbOp hs)

theorem execJal {core : Fin 192} (hs : Moves s₀ s) : Ends s₀ (execJal core s) := next (sbOp hs)

theorem execJr {core : Fin 192} (hs : Moves s₀ s) : Ends s₀ (execJr core s) := next (sbOp hs)

theorem execBpany {core : Fin 192} (hs : Moves s₀ s) : Ends s₀ (execBpany core s) := next (sbOp hs)

theorem execBpnone {core : Fin 192} (hs : Moves s₀ s) : Ends s₀ (execBpnone core s) := next (sbOp hs)

theorem execCstep {core : Fin 192} (hs : Moves s₀ s) : Ends s₀ (execCstep core s) := next (sbOp hs)

theorem execCturn {core : Fin 192} (hs : Moves s₀ s) : Ends s₀ (execCturn core s) := next (sbOp hs)

theorem execRep {core : Fin 192} (hs : Moves s₀ s) : Ends s₀ (execRep core s) := next (sbOp hs)

theorem execTake {core : Fin 192} (hs : Moves s₀ s) : Ends s₀ (execTake core s) := next (sbOp hs)

theorem execDone {core : Fin 192} (hs : Moves s₀ s) : Ends s₀ (execDone core s) := next (sbOp hs)

theorem execFence {core : Fin 192} (hs : Moves s₀ s) : Ends s₀ (execFence core s) := next (sbOp hs)

theorem execTrap {core : Fin 192} (hs : Moves s₀ s) : Ends s₀ (execTrap core s) := next (sbOp hs)

theorem execCmuw {core : Fin 192} (hs : Moves s₀ s) : Ends s₀ (execCmuw core s) := by
  unfold Machine.execCmuw
  split
  · exact next hs
  · exact ite_ends (next hs) (ite_ends (next (finishBundle (stageSlot hs))) (ite_ends (next (setCore hs)) (ite_ends (next
      (finishBundle (stageSlot (setCmu hs)))) (next (finishBundle (stageSlot hs))))))

theorem execSnop {core : Fin 192} (hs : Moves s₀ s) : Ends s₀ (execSnop core s) := next (sbOp hs)

theorem execTakeWake {core : Fin 192} (hs : Moves s₀ s) : Ends s₀ (execTakeWake core s) :=
  ite_ends (next (takeNext hs)) (next hs)

theorem execIllegal {core : Fin 192} (hs : Moves s₀ s) : Ends s₀ (execIllegal core s) := by
  unfold Machine.execIllegal
  refine ite_ends ?_ (next hs)
  split
  split
  · exact next (raiseExc (ite (countEvent hs) hs))
  · exact next hs

theorem remoteRead {c a n : Nat} (hs : Moves s₀ s) : Moves s₀ (s.remoteRead c a n).2.2 :=
  ite_snd_snd (readMem hs) (busGet hs)

theorem execRemoteLoadReturn {core : Fin 192} (hs : Moves s₀ s) : Ends s₀ (execRemoteLoadReturn core s) := by
  unfold Machine.execRemoteLoadReturn
  dsimp only
  split
  · exact next hs
  · refine ite_ends (next hs) ?_
    split
    · exact next (raiseExc (took (remoteRead hs)))
    · exact next (retire (took (remoteRead hs)))

theorem execStoreAck {core : Fin 192} (hs : Moves s₀ s) : Ends s₀ (execStoreAck core s) := by
  unfold Machine.execStoreAck
  dsimp only
  split
  · exact next hs
  · exact next (tryEnd (setCore (foldl_snd hs fun _ _ hs => ite_snd (writeMem hs) (busPut hs))))

theorem execHang {core : Fin 192} (hs : Moves s₀ s) : Ends s₀ (execHang core s) :=
  ite_ends (next (raiseExc (reportFault hs))) (next hs)

theorem settCtl {c : Nat} {v : Word} (hs : Moves s₀ s) : Moves s₀ (s.settCtl c v) :=
  ite (setCore (storeReg hs)) (ite (setCore (storeReg hs)) (storeReg hs))

theorem execHaltReq {req : Fin 14} {sel : BitVec 10} {value : Word} (hs : Moves s₀ s) :
    Ends s₀ (execHaltReq req sel value s) :=
  next (hubEach hs fun _ _ hs => settCtl hs)

theorem execStep {req : Fin 14} {sel : BitVec 10} (hs : Moves s₀ s) : Ends s₀ (execStep req sel s) :=
  next (hubEach hs fun _ _ hs => settCtl hs)

theorem execCoreHalt {core : Fin 192} (hs : Moves s₀ s) : Ends s₀ (execCoreHalt core s) :=
  ite_ends (next (reclaimAll (setCore hs))) (next hs)

theorem coreEnWrite {n : Nat} {v : Word} (hs : Moves s₀ s) : Moves s₀ (s.coreEnWrite n v) :=
  foldl (storeReg hs) fun _ _ hs => ite hs (reclaimAll hs)

theorem execCoreEnWrite {req : Fin 14} {sel : BitVec 10} {value : Word} (hs : Moves s₀ s) :
    Ends s₀ (execCoreEnWrite req sel value s) :=
  next (hubEach hs fun _ _ hs => coreEnWrite hs)

/-! ### Commands of the CMUs -/

theorem putElem {a : Nat} {x : Cx} {poison : Bool} (hs : Moves s₀ s) : Moves s₀ (s.putElem a x poison) := writeMem hs

theorem putMatrix {r : CmuRun} {n m : Nat} {f : Nat → Nat → Cx} {bad : Nat → Nat → Bool} (hs : Moves s₀ s) :
    Moves s₀ (s.putMatrix r n m f bad) :=
  foldl hs fun _ _ hs => putElem hs

theorem cmuDone {n : Nat} {r : CmuRun} (hs : Moves s₀ s) : Moves s₀ (s.cmuDone n r) := setCmu hs

theorem cmuProduct {n : Nat} {r : CmuRun} {rows cols : Nat} {f : Nat → Nat → Cx} {bad : Nat → Nat → Bool} (hs : Moves s₀ s) :
    Moves s₀ (s.cmuProduct n r rows cols f bad) :=
  cmuDone (putMatrix hs)

theorem unitChol {n : Nat} {a : Nat → Nat → Cx} (hs : Moves s₀ s) : Moves s₀ (s.unitChol n a).2 := by
  unfold State.unitChol
  split
  split
  · exact update hs rfl
  · exact update hs rfl

theorem unitSolve {n m : Nat} {x : Nat → Nat → Cx} {den lexp : Int} (hs : Moves s₀ s) :
    Moves s₀ (s.unitSolve n m x den lexp).2 := by
  unfold State.unitSolve
  split
  · exact update hs rfl
  · exact ite_snd (update hs rfl) (update hs rfl)

theorem cmuCommand {n op : Nat} {f : CmuRun → State} (hs : Moves s₀ s) (hf : ∀ r, Moves s₀ (f r)) :
    Moves s₀ (s.cmuCommand n op f) := by
  unfold State.cmuCommand
  split
  · exact hs
  · exact ite (countEvent (hf _)) (cmuDone hs)

theorem execCmuCommandStart {course : Fin 24} (hs : Moves s₀ s) : Ends s₀ (execCmuCommandStart course s) := by
  unfold Machine.execCmuCommandStart
  refine ite_ends (next hs) ?_
  split
  · exact next hs
  · split
    · exact next hs
    · exact next (syncCmu (setCmu hs))

theorem execMatmul {course : Fin 24} (hs : Moves s₀ s) : Ends s₀ (execMatmul course s) :=
  next (cmuCommand hs fun _ => cmuProduct hs)

theorem execMatmulH {course : Fin 24} (hs : Moves s₀ s) : Ends s₀ (execMatmulH course s) :=
  next (cmuCommand hs fun _ => cmuProduct hs)

theorem execGram {course : Fin 24} (hs : Moves s₀ s) : Ends s₀ (execGram course s) :=
  next (cmuCommand hs fun _ => cmuDone (putMatrix hs))

theorem execChol {course : Fin 24} (hs : Moves s₀ s) : Ends s₀ (execChol course s) :=
  next (cmuCommand hs fun _ => cmuDone (putMatrix (unitChol hs)))

theorem cmuSolve {n : Nat} {r : CmuRun} {upper : Bool} (hs : Moves s₀ s) : Moves s₀ (s.cmuSolve n r upper) :=
  cmuDone (putMatrix (unitSolve hs))

theorem execTrsvL {course : Fin 24} (hs : Moves s₀ s) : Ends s₀ (execTrsvL course s) :=
  next (cmuCommand hs fun _ => cmuSolve hs)

theorem execTrsvLh {course : Fin 24} (hs : Moves s₀ s) : Ends s₀ (execTrsvLh course s) :=
  next (cmuCommand hs fun _ => cmuSolve hs)

theorem execCholSolve {course : Fin 24} (hs : Moves s₀ s) : Ends s₀ (execCholSolve course s) :=
  next (cmuCommand hs fun _ => cmuDone (putMatrix (unitSolve (unitSolve (unitChol hs)))))

theorem execCmuNoOperation {course : Fin 24} (hs : Moves s₀ s) : Ends s₀ (execCmuNoOperation course s) := by
  unfold Machine.execCmuNoOperation
  split
  · exact ite_ends (next (cmuDone hs)) (next hs)
  · exact next hs

theorem execCmuStatusWrite {course : Fin 24} (hs : Moves s₀ s) : Ends s₀ (execCmuStatusWrite course s) := by
  unfold Machine.execCmuStatusWrite
  extract_lets
  split
  · exact next hs
  · refine ite_ends (next hs) ?_
    split
    extract_lets s1 _ s2 s3 s4 s5 s6 s7
    have h1 : Moves s₀ s1 := ite (writeMem (snd ‹_› (takeFree hs))) (snd ‹_› (takeFree hs))
    have h2 : Moves s₀ s2 := syncCmu (setCmu h1)
    have h3 : Moves s₀ s3 := addFld h2
    have h4 : Moves s₀ s4 := ite (post (setFld h3)) h3
    have h5 : Moves s₀ s5 := ite (post (setFld h4)) h4
    have h6 : Moves s₀ s6 := ite (post (setFld h5)) h5
    have h7 : Moves s₀ s7 := ite (setFld h6) h6
    exact next (tryEnd h7)

/-! ### Draining of fenced units -/

theorem setEng {u : Nat} {e : Engine} (hs : Moves s₀ s) : Moves s₀ (s.setEng u e) := update hs rfl

theorem setE {u : Nat} {f : Field} {v : Nat} (hs : Moves s₀ s) : Moves s₀ (s.setE u f v) := setFld hs

theorem addE {u : Nat} {f : Field} {n : Nat} (hs : Moves s₀ s) : Moves s₀ (s.addE u f n) := addFld hs

theorem setPhase {cls inst : Nat} {p : FencePhase} (hs : Moves s₀ s) : Moves s₀ (s.setPhase cls inst p) := by
  unfold State.setPhase
  split
  · exact setFence hs
  · exact hs

theorem abandon {u : Nat} (hs : Moves s₀ s) : Moves s₀ (s.abandon u) := foldl hs fun _ _ hs => ite (complete hs) hs

theorem endUnitRecoveries {cls inst : Nat} (hs : Moves s₀ s) : Moves s₀ (s.endUnitRecoveries cls inst) :=
  foldl hs fun _ _ hs => recovered hs

theorem unitDrained {cls inst : Nat} (hs : Moves s₀ s) : Moves s₀ (s.unitDrained cls inst) := by
  unfold State.unitDrained
  split
  · exact ite (endUnitRecoveries (foldl (setPhase hs) fun _ _ hs => abandon hs)) hs
  · exact hs

theorem portDrained {d : Nat} (hs : Moves s₀ s) : Moves s₀ (s.portDrained d) :=
  foldl hs fun _ _ hs => ite (unitDrained hs) hs

theorem stopEngine {cls inst : Nat} (hs : Moves s₀ s) : Moves s₀ (s.stopEngine cls inst) := abandon (setE (setEng hs))

theorem beginDrain {cls inst req : Nat} (hs : Moves s₀ s) : Moves s₀ (s.beginDrain cls inst req) := by
  unfold State.beginDrain
  extract_lets s1 s2 s3 s4 _ _ s5 s6
  have h1 : Moves s₀ s1 := foldl hs fun _ _ hs => reclaimAll hs
  have h2 : Moves s₀ s2 := setFld (setPhase h1)
  have h3 : Moves s₀ s3 := stopEngine (setPhase h1)
  have h4 : Moves s₀ s4 := endUnitRecoveries (setPhase h3)
  have h5 : Moves s₀ s5 := setFld (setPhase h1)
  have h6 : Moves s₀ s6 := foldl h5 fun _ _ hs => setFld (rxDown (setTxState hs))
  split
  · extract_lets s7
    have h7 : Moves s₀ s7 := askFence h2
    exact ite (unitDrained h7) h7
  · exact ite (ite (setFld (foldl h4 fun _ _ hs => setPhase hs)) h4) (ite (foldl h6 fun _ _ hs => ite hs (macDown hs)) (macDown
      (setPhase h1)))

theorem startFence {cls inst : Nat} (hs : Moves s₀ s) : Moves s₀ (s.startFence cls inst) := by
  unfold State.startFence
  split
  · exact hs
  · extract_lets s1 s2 s3
    have h1 : Moves s₀ s1 := addFence hs
    have h2 : Moves s₀ s2 := foldl h1 fun _ _ hs => reclaimAll hs
    have h3 : Moves s₀ s3 := ite h2 (beginDrain h2)
    exact askMending h3

theorem autoFence {cls inst : Nat} (hs : Moves s₀ s) : Moves s₀ (s.autoFence cls inst) := by
  unfold State.autoFence
  refine ite hs ?_
  split
  · refine askMending ?_
    split
    · exact beginDrain (addFence hs)
    · exact setFence (addFence hs)
    · exact setFence (addFence hs)
    · exact setFence (addFence hs)
    · exact addFence hs
  · exact askMending (beginDrain (addFence hs))

theorem settleFences (hs : Moves s₀ s) : Moves s₀ s.settleFences := foldl hs fun _ _ hs => ite (beginDrain hs) hs

theorem beginMode {to_ : Mode} {req : Nat} {op : Option (BitVec 16)} (hs : Moves s₀ s) : Moves s₀ (s.beginMode to_ req op) := by
  unfold State.beginMode
  extract_lets s1 _ s2
  have h1 : Moves s₀ s1 := startTransition hs
  have h2 : Moves s₀ s2 := ite (update h1 rfl) h1
  exact ite (foldl h2 fun _ _ hs => reclaimAll hs) h2

/-! ### The code engines -/

theorem engPost {u event sev detail : Nat} (hs : Moves s₀ s) : Moves s₀ (s.engPost u event sev detail) := post hs

theorem engBeat {u : Nat} (hs : Moves s₀ s) : Moves s₀ (s.engBeat u).2 := by
  unfold State.engBeat
  dsimp only
  split
  · exact hs
  · exact hs
  · exact setEng hs

theorem engGet {u a n : Nat} (hs : Moves s₀ s) : Moves s₀ (s.engGet u a n).2.2 :=
  foldl_snd_snd hs fun _ _ hs => ite_snd_snd (ite_snd_snd (took (busRead (engBeat hs))) (engBeat hs)) hs

theorem engPut {u a : Nat} {bytes : List (Byte × Bool)} (hs : Moves s₀ s) : Moves s₀ (s.engPut u a bytes).2 :=
  foldl_snd hs fun _ _ hs => ite_snd (ite_snd (busWrite (engBeat hs)) (engBeat hs)) hs

theorem engKeep {u i : Nat} {r : JobRes} (hs : Moves s₀ s) : Moves s₀ (s.engKeep u i r) :=
  setEng (foldl hs fun _ _ hs => countAct hs)

theorem beginJob_some {u i : Nat} {f : List Word → Nat → State → JobRes × State} {r : JobRes}
    (e : s.beginJob u f = some (i, r, t)) (hs : Moves s₀ s) (hf : ∀ w a s, Moves s₀ s → Moves s₀ (f w a s).2) :
    Moves s₀ t := by
  unfold State.beginJob at e
  split at e
  · cases e
  · rename_i i' x s1 e1
    extract_lets s2 s3 at e
    have h3 : Moves s₀ s3 := countEvent (setE (setE (startHead_some e1 hs)))
    clear_value s3
    split at e
    · cases e
      exact h3
    · split at e
      rename_i ok bytes s4 e4
      have h4 : Moves s₀ s4 := snd_snd e4 (engGet h3)
      split at e
      · simp only [Option.some.injEq, Prod.mk.injEq] at e
        exact snd e.2 (hf _ _ _ h4)
      · cases e
        exact h4

theorem takeJob {u : Nat} {f : List Word → Nat → State → JobRes × State} (hs : Moves s₀ s)
    (hf : ∀ w a s, Moves s₀ s → Moves s₀ (f w a s).2) : Moves s₀ (s.takeJob u f) := by
  unfold State.takeJob
  split
  · exact hs
  · exact engKeep (beginJob_some ‹_› hs hf)

theorem jobRow {u type : Nat} {f : List Word → Nat → State → JobRes × State} (hs : Moves s₀ s)
    (hf : ∀ w a s, Moves s₀ s → Moves s₀ (f w a s).2) : Moves s₀ (s.jobRow u type f) :=
  ite (takeJob hs hf) hs

theorem checked {st : Nat} {tag : Word} {addrs : List Nat} {f : State → JobRes × State} (hs : Moves s₀ s)
    (hf : ∀ s, Moves s₀ s → Moves s₀ (f s).2) : Moves s₀ (s.checked st tag addrs f).2 := by
  unfold State.checked
  split
  · exact hf s hs
  · exact hs

theorem ldpcDecode {u : Nat} {w : List Word} {allow : Nat} (hs : Moves s₀ s) : Moves s₀ (State.ldpcDecode u w allow s).2 :=
  checked hs fun _ hs => ite_snd (engGet hs) (engPut (engGet hs))

theorem execLdpcDecode {engine : Fin 16} (hs : Moves s₀ s) : Ends s₀ (execLdpcDecode engine s) :=
  next (jobRow hs fun _ _ _ hs => ldpcDecode hs)

theorem turboDecode {u : Nat} {w : List Word} {allow : Nat} (hs : Moves s₀ s) : Moves s₀ (State.turboDecode u w allow s).2 := by
  unfold State.turboDecode
  refine checked hs fun s hs => ?_
  extract_lets
  split
  rename_i e1
  have h1 := snd_snd e1 (engGet hs)
  extract_lets
  refine ite_snd h1 ?_
  extract_lets
  split
  split
  exact snd ‹_› (engPut h1)

theorem execTurboDecode {engine : Fin 4} (hs : Moves s₀ s) : Ends s₀ (execTurboDecode engine s) :=
  next (jobRow hs fun _ _ _ hs => turboDecode hs)

theorem polarDecode {u : Nat} {w : List Word} {_allow : Nat} (hs : Moves s₀ s) :
    Moves s₀ (State.polarDecode u w _allow s).2 :=
  checked hs fun _ hs => ite_snd (engGet hs) (engPut (engGet hs))

theorem execPolarDecode {engine : Fin 4} (hs : Moves s₀ s) : Ends s₀ (execPolarDecode engine s) :=
  next (jobRow hs fun _ _ _ hs => polarDecode hs)

theorem ldpcEncode {u : Nat} {w : List Word} {_allow : Nat} (hs : Moves s₀ s) : Moves s₀ (State.ldpcEncode u w _allow s).2 :=
  checked hs fun _ hs => ite_snd (engGet hs) (engPut (update (engGet hs) rfl))

theorem execLdpcEncode {engine : Fin 8} (hs : Moves s₀ s) : Ends s₀ (execLdpcEncode engine s) :=
  next (jobRow hs fun _ _ _ hs => ldpcEncode hs)

theorem turboEncodeJob {u : Nat} {w : List Word} {_allow : Nat} (hs : Moves s₀ s) :
    Moves s₀ (State.turboEncodeJob u w _allow s).2 :=
  checked hs fun _ hs => ite_snd (engGet hs) (engPut (update (engGet hs) rfl))

theorem execTurboEncode {engine : Fin 4} (hs : Moves s₀ s) : Ends s₀ (execTurboEncode engine s) :=
  next (jobRow hs fun _ _ _ hs => turboEncodeJob hs)

theorem polarEncode {u : Nat} {w : List Word} {_allow : Nat} (hs : Moves s₀ s) :
    Moves s₀ (State.polarEncode u w _allow s).2 :=
  checked hs fun _ hs => ite_snd (engGet hs) (engPut (engGet hs))

theorem execPolarEncode {engine : Fin 4} (hs : Moves s₀ s) : Ends s₀ (execPolarEncode engine s) :=
  next (jobRow hs fun _ _ _ hs => polarEncode hs)

theorem segBits {u : Nat} {l : List (Nat × Nat)} {more : Nat} (hs : Moves s₀ s) :
    Moves s₀ (s.segBits u l more).2.2.2.2 := by
  induction l generalizing s with
  | nil => exact hs
  | cons p r ih =>
    obtain ⟨a, n⟩ := p
    cases r with
    | nil => exact engGet hs
    | cons p' r =>
      unfold State.segBits
      split
      rename_i ok l s1 e1
      have h1 : Moves s₀ s1 := snd_snd e1 (engGet hs)
      split
      · exact ih h1
      · exact h1

theorem crcJob {u allow : Nat} {w : List Word} (hs : Moves s₀ s) : Moves s₀ (State.crcJob u w allow s).2 := by
  unfold State.crcJob
  refine checked hs fun s hs => ?_
  extract_lets p check segs
  split
  rename_i ok l s1 e1
  have h1 : Moves s₀ s1 := snd_snd e1 (engGet hs)
  split
  · exact h1
  extract_lets bytes list
  split
  · exact h1
  split
  rename_i bs tail bad ok2 s2 e2
  have h2 := segBits (u := u) (l := list) (more := if check then p.1 else 0) h1
  rwa [e2] at h2

theorem execCrc {engine : Fin 8} (hs : Moves s₀ s) : Ends s₀ (execCrc engine s) :=
  next (jobRow hs fun _ _ _ hs => crcJob hs)

theorem harqCombine {u allow : Nat} {w : List Word} (hs : Moves s₀ s) : Moves s₀ (State.harqCombine u w allow s).2 := by
  unfold State.harqCombine
  extract_lets inst ctx turbo c K full ncb F E src dst cb n stored null k0 i8 S
  clear_value ctx turbo c K full ncb F E src dst cb n stored null k0 i8 S
  refine checked hs fun s hs => ?_
  split
  rename_i ok l s1 e1
  have h1 : Moves s₀ s1 := snd_snd e1 (engGet hs)
  split
  · exact h1
  split
  · exact h1
  extract_lets bytes rec_ srcA dstA
  clear_value bytes rec_ srcA dstA
  split
  · exact h1
  split
  rename_i ok1 half s2 e2
  have h2 : Moves s₀ s2 := by
    split at e2
    · exact snd_snd e2 (engGet h1)
    · cases e2; exact h1
  split
  rename_i ok2 rx s3 e3
  have h3 : Moves s₀ s3 := by
    split at e3
    · cases e3; exact h2
    · exact snd_snd e3 (engGet h2)
  split
  · exact h3
  extract_lets x x' old acc0 acc val poison
  clear_value x x' old acc0 acc val poison
  split
  rename_i wok s4 e4
  have h4 : Moves s₀ s4 := by
    split at e4
    · cases e4; exact h3
    · split at e4
      · exact snd e4 (foldl_snd h3 fun _ _ hb => ite_snd (engPut hb) hb)
      · exact snd e4 (engPut h3)
  split
  rename_i wok2 s5 e5
  split at e5
  · exact snd e5 (engPut h4)
  · cases e5; exact h4

theorem execHarqCombine {engine : Fin 8} (hs : Moves s₀ s) : Ends s₀ (execHarqCombine engine s) :=
  next (jobRow hs fun _ _ _ hs => harqCombine hs)

theorem mismatch {ty : Nat} {w : List Word} {_allow : Nat} (hs : Moves s₀ s) : Moves s₀ (State.mismatch ty w _allow s).2 := by
  unfold State.mismatch
  split
  · exact hs
  · exact ite_snd hs hs

theorem execJobTypeMismatch {engine : Fin 40} (hs : Moves s₀ s) : Ends s₀ (execJobTypeMismatch engine s) := by
  unfold Machine.execJobTypeMismatch
  dsimp only
  split
  · exact next hs
  · exact ite_ends (next hs) (next (takeJob hs fun _ _ _ hs => mismatch hs))

theorem engIdle {u : Nat} (hs : Moves s₀ s) : Moves s₀ (s.engIdle u) := setE hs

theorem execJobEnd {engine : Fin 40} (hs : Moves s₀ s) : Ends s₀ (execJobEnd engine s) := by
  unfold Machine.execJobEnd
  extract_lets
  split
  · exact hs
  · refine ite_ends hs ?_
    split
    rename_i e1
    have h := snd e1 (takeFree hs)
    extract_lets
    split
    rename_i ok s' e2
    have h0 : Moves s₀ s' := by
      refine snd e2 ?_
      split
      · exact engPut h
      · exact h
    extract_lets _ s1 s2 s3 s4 s5 s6 s7 s8 s9 s10 s11 _ s12
    have h1 : Moves s₀ s1 := ite (setE h0) h0
    have h2 : Moves s₀ s2 := ite (setE h1) h1
    have h3 : Moves s₀ s3 := ite (setE h2) h2
    have h4 : Moves s₀ s4 := ite (setE h3) h3
    have h6 : Moves s₀ s6 := addE (addE h4)
    have h7 : Moves s₀ s7 := ite (countEvent h6) h6
    have h8 : Moves s₀ s8 := ite (addE h7) h7
    have h9 : Moves s₀ s9 := ite (addE h8) h8
    have h10 : Moves s₀ s10 := ite (engPost h9) h9
    have h11 : Moves s₀ s11 := ite (engPost h10) h10
    exact report (engIdle (setEng h11))

theorem engHung {u i : Nat} (hs : Moves s₀ s) : Moves s₀ (s.engHung u i) := engPost (setE (setE (setEng hs)))

theorem engRun {u ty a : Nat} {w : List Word} (hs : Moves s₀ s) : Moves s₀ (engRun u ty w a s).2 := by
  unfold Machine.engRun
  split
  · split_ifs
    · exact ldpcDecode hs
    · exact ldpcEncode hs
    · exact crcJob hs
    · exact polarDecode hs
    · exact polarEncode hs
    · exact turboDecode hs
    · exact turboEncodeJob hs
    · exact harqCombine hs
  · exact mismatch hs

theorem execEngineHang {engine : Fin 40} (hs : Moves s₀ s) : Ends s₀ (execEngineHang engine s) := by
  unfold Machine.execEngineHang
  extract_lets u e
  clear_value u
  split
  · exact hs
  split
  · exact engHung hs
  split
  · exact hs
  split
  · split
    rename_i n s1 e1
    have h1 : Moves s₀ s1 := snd e1 (takeFree hs)
    split
    · exact engHung (beginJob_some ‹_› (setEng h1) fun _ _ _ hs => engRun hs)
    · exact h1
  · exact hs

theorem execEngineResetDone {engine : Fin 40} (hs : Moves s₀ s) : Ends s₀ (execEngineResetDone engine s) := by
  unfold Machine.execEngineResetDone
  dsimp only
  split
  · exact next hs
  · exact ite_ends (next hs) (next (report (engIdle (setEng hs))))

theorem engCtl {cls inst : Nat} {v : Word} (hs : Moves s₀ s) : Moves s₀ (s.engCtl cls inst v) :=
  ite (reclaimAll (storeReg hs)) (storeReg hs)

theorem execTakeEnWrite {req : Fin 14} {cls : Fin 5} {sel : BitVec 10} {value : Word} (hs : Moves s₀ s) :
    Ends s₀ (execTakeEnWrite req cls sel value s) :=
  next (hubEach hs fun _ _ hs => engCtl hs)

theorem execUcodeLoadDone {engine : Fin 40} (hs : Moves s₀ s) : Ends s₀ (execUcodeLoadDone engine s) := by
  unfold Machine.execUcodeLoadDone
  dsimp only
  split
  · exact next hs
  · exact ite_ends (next hs) (next (ite (engIdle (setE (setE (setE (setEng hs))))) (setE (setE (setE (setEng hs))))))

theorem execUcodeSwitch {engine : Fin 40} {pass : Bool} {micros : Word} (hs : Moves s₀ s) :
    Ends s₀ (execUcodeSwitch engine pass micros s) := by
  unfold Machine.execUcodeSwitch
  extract_lets u e s1 tell
  split
  · exact hs
  · have h1 : Moves s₀ s1 := setE (setEng hs)
    have told {st : Status} {d : Nat} {r : List Word} {s : State} (hs : Moves s₀ s) : Moves s₀ (tell st d r s) := by
      dsimp only [tell]
      split
      · split
        · exact endOp hs
        · exact hs
      · exact hs
    exact ite_ends hs (ite_ends (told (engPost (setE (setE (setE (setE h1)))))) (told (engPost (setE h1))))

/-! ### Commands of the witness -/

theorem execLeafGrant (hs : Moves s₀ s) : Ends s₀ (execLeafGrant s) := by
  unfold Machine.execLeafGrant
  split
  · exact hs
  cases s.leafTurn with
  | none => exact hs
  | some k =>
    dsimp only
    split
    · exact hs
    · exact grantLeaf (setVault hs)

theorem execLeafWriteDone (hs : Moves s₀ s) : Ends s₀ (execLeafWriteDone s) := by
  unfold Machine.execLeafWriteDone
  split
  · exact hs
  · extract_lets x s1
    have h1 : Moves s₀ s1 := setVault hs
    split
    rename_i s2 e2
    have h2 : Moves s₀ s2 := snd e2 (busPut h1)
    extract_lets here s3 s4 x y s5 s6
    have h4 : Moves s₀ s4 := setFld (ite (addFld h2) h2)
    have h5 : Moves s₀ s5 := ite (setVault h2) h2
    have h6 : Moves s₀ s6 := foldl h5 fun _ _ hs => ite (setFld hs) hs
    refine ite_ends (next (ite ?_ h4)) (dropLeaf h6)
    split
    · exact setVault h4
    · exact h4

theorem vaultCtl {v : Word} (hs : Moves s₀ s) : Moves s₀ (s.vaultCtl v) := by
  unfold State.vaultCtl
  extract_lets _ s1 _ s2
  have h1 : Moves s₀ s1 := storeReg hs
  have h2 : Moves s₀ s2 := ite (applyGeometry h1) h1
  exact ite (setVault h2) (ite (setVault h1) h1)

theorem execVaultEnable {req : Fin 14} {sel : BitVec 10} {value : Word} (hs : Moves s₀ s) :
    Ends s₀ (execVaultEnable req sel value s) :=
  next (hubEach hs fun _ _ hs => vaultCtl hs)

theorem geometryWrite {off : Nat} {v : Word} (hs : Moves s₀ s) : Moves s₀ (s.geometryWrite off v) :=
  ite (applyGeometry (storeReg hs)) (setVault (storeReg hs))

theorem execVaultGeometryWrite {req : Fin 14} {sel : BitVec 10} {which : Fin 3} {value : Word} (hs : Moves s₀ s) :
    Ends s₀ (execVaultGeometryWrite req sel which value s) :=
  next (hubEach hs fun _ _ hs => geometryWrite hs)

theorem execTrigger {req : Fin 14} {sel : BitVec 10} {value : Word} (hs : Moves s₀ s) :
    Ends s₀ (execTrigger req sel value s) :=
  next (hubEach hs fun _ _ hs => commandTrigger hs)

theorem execPinTrigger {pin : Fin 32} {rising : Bool} (hs : Moves s₀ s) : Ends s₀ (execPinTrigger pin rising s) := by
  unfold Machine.execPinTrigger
  refine ite_ends (ite_ends (next (update hs rfl)) ?_) (next (gpioLevel (update hs rfl)))
  split
  exact next (gpioLevel (snd ‹_› (takeFree (update hs rfl))))

theorem execTriggerGrant (hs : Moves s₀ s) : Ends s₀ (execTriggerGrant s) := ite_ends (next (triggerStep hs)) (next hs)

theorem execRegionRelease {req : Fin 14} {sel : BitVec 10} {value : Word} (hs : Moves s₀ s) :
    Ends s₀ (execRegionRelease req sel value s) :=
  next (hubEach hs fun _ _ hs => releaseRgn hs)

theorem tallyEvent {d : Nat} (hs : Moves s₀ s) : Moves s₀ (s.tallyEvent d).2 := ite_snd (tallyAdvance hs) hs

theorem execTallyAgcBlock {detector : Fin 32} (hs : Moves s₀ s) : Ends s₀ (execTallyAgcBlock detector s) :=
  ite_ends (next (tallyAgc (tallyEvent hs))) (next (tallyEvent hs))

theorem execTallyDetection {detector : Fin 32} (hs : Moves s₀ s) : Ends s₀ (execTallyDetection detector s) := by
  unfold Machine.execTallyDetection
  split
  split
  · exact ite_ends (next (tallyDetect (snd ‹_› (tallyEvent hs)))) (next (snd ‹_› (tallyEvent hs)))
  · exact next (snd ‹_› (tallyEvent hs))

theorem execTallySymbol {detector : Fin 32} (hs : Moves s₀ s) : Ends s₀ (execTallySymbol detector s) := by
  unfold Machine.execTallySymbol
  split
  split
  · exact ite_ends (next (tallySymbol (snd ‹_› (tallyEvent hs)))) (next (snd ‹_› (tallyEvent hs)))
  · exact next (snd ‹_› (tallyEvent hs))

theorem execTallyRecordAcked {detector : Fin 32} (hs : Moves s₀ s) : Ends s₀ (execTallyRecordAcked detector s) :=
  ite_ends (next hs) (ite_ends (next (decKey (setTally hs))) (next (setTally hs)))

theorem execTplData {req : Fin 14} {sel : BitVec 10} {value : Word} (hs : Moves s₀ s) :
    Ends s₀ (execTplData req sel value s) :=
  ite_ends (next (hubEach hs fun _ _ hs => tplData hs)) (next hs)

/-! ### Commands of the streams -/

theorem commitWrite {cls sel : Nat} {v : Word} {ops : List (BitVec 16)} (hs : Moves s₀ s) :
    Moves s₀ (s.commitWrite cls sel v ops) :=
  eachMember hs fun _ _ hs => ite (commitArrive hs) hs

theorem execCommitArrive {req : Fin 14} {tx : Bool} {sel : BitVec 10} {value : Word} (hs : Moves s₀ s) :
    Ends s₀ (execCommitArrive req tx sel value s) :=
  next (ite (commitWrite hs) hs)

theorem execCommitLock {ch : Fin 1024} (hs : Moves s₀ s) : Ends s₀ (execCommitLock ch s) :=
  ite_ends (next (lockPoint hs)) (next hs)

theorem txQuiet {c code : Nat} (hs : Moves s₀ s) : Moves s₀ (s.txQuiet c code) :=
  ite (ite (setStrm hs) (ite (setStrm hs) hs)) hs

theorem openPrach {c code : Nat} (hs : Moves s₀ s) : Moves s₀ (s.openPrach c code) := ite (setStrm hs) hs

theorem openWindow {c code : Nat} (hs : Moves s₀ s) : Moves s₀ (s.openWindow c code) := ite (setStrm hs) hs

theorem endSymbol {c : Nat} {start : Int} (hs : Moves s₀ s) : Moves s₀ (s.endSymbol c start) :=
  ite hs (ite (pullStream (ite hs (roeSend hs))) (ite hs (ite (freqSymbol hs) (rxSymbol hs))))

theorem cpDrift {c : Nat} {fresh : Bool} (hs : Moves s₀ s) : Moves s₀ (s.cpDrift c fresh) :=
  ite (setStrm hs) (setStrm hs)

theorem takeSettings {c code : Nat} {start : Int} (hs : Moves s₀ s) : Moves s₀ (s.takeSettings c code start) := by
  unfold State.takeSettings
  refine ite ?_ (setStrm hs)
  split
  · dsimp only
    split
    · exact applySet (setStrm (setStrm hs))
    · exact setStrm (setStrm hs)
  · dsimp only
    split
    · exact applySet (setStrm (setStrm hs))
    · exact setStrm (setStrm hs)

theorem txStart {c code : Nat} {g : GridAt} {hard : Bool} (hs : Moves s₀ s) : Moves s₀ (s.txStart c code g hard) := by
  unfold State.txStart
  extract_lets s1 s2 _ _ s3 _ s4
  have h1 : Moves s₀ s1 := txQuiet hs
  have h2 : Moves s₀ s2 := ite (holdPa h1) h1
  have h3 : Moves s₀ s3 := endRun h1
  have h4 : Moves s₀ s4 := txIdle h1
  exact ite (setStrm h2) (ite (ite (setStrm h1) (setStrm h3)) (ite (setStrm h4) (txSymbol h1)))

theorem rxStart {c code : Nat} (hs : Moves s₀ s) : Moves s₀ (s.rxStart c code) := by
  unfold State.rxStart
  extract_lets s1 s2
  have h1 : Moves s₀ s1 := witClose (ite (witSlotStart hs) hs)
  have h2 : Moves s₀ s2 := openPrach h1
  exact ite (ite (openWindow h2) h2) (ite h1 (endPrach h1))

theorem boundary {c code : Nat} {g : GridAt} (hs : Moves s₀ s) : Moves s₀ (s.boundary c code g) := by
  unfold State.boundary
  extract_lets _ _ s1 s2 _ s3 _ _ _ _ s4 s5 _ _ _ s6 s7 _ s8
  have h1 : Moves s₀ s1 := endSymbol hs
  have h2 : Moves s₀ s2 := agcSlot h1
  have h3 : Moves s₀ s3 := ite (setStrm h2) h1
  have h4 : Moves s₀ s4 := takeSettings h3
  have h5 : Moves s₀ s5 := cpDrift h4
  have h6 : Moves s₀ s6 := setStrm h5
  have h7 : Moves s₀ s7 := ite (setS h6) h6
  have h8 : Moves s₀ s8 := ite (txStart h7) (rxStart h7)
  exact ite (bankChannel h8) h8

theorem passBoundary {c code : Nat} {g : GridAt} (hs : Moves s₀ s) : Moves s₀ (s.passBoundary c code g) :=
  setStrm (endSymbol hs)

theorem execSymbolBoundary {ch : Fin 1024} (hs : Moves s₀ s) : Ends s₀ (execSymbolBoundary ch s) :=
  ite_ends (next hs) (ite_ends (next (passBoundary hs)) (next (boundary hs)))

theorem execFftSymbolArrive {ch : Fin 1024} (hs : Moves s₀ s) : Ends s₀ (execFftSymbolArrive ch s) := by
  unfold Machine.execFftSymbolArrive
  extract_lets c x
  split
  · exact hs
  · extract_lets _ s1 _ s2 _
    have h2 : Moves s₀ s2 := update (setStrm hs) rfl
    exact ite_ends hs (ite_ends (ite (dropSymbol h2) (witClose (dropSymbol h2))) (setFft h2))

theorem execFftTransformDone {engine : Fin 32} (hs : Moves s₀ s) : Ends s₀ (execFftTransformDone engine s) := by
  unfold Machine.execFftTransformDone
  split
  · exact hs
  · refine ite_ends hs ?_
    extract_lets s1 shift seed s2 y s3
    have h2 : Moves s₀ s2 := update (setFft hs) rfl
    have h3 : Moves s₀ s3 := ite (strmSat h2) h2
    exact ite_ends (ite (setStrm h3) h3) (ite_ends (prachWrite h3) (witClose (toWitness (gridWrite h3))))

theorem execGridWritesAcked {ch : Fin 512} (hs : Moves s₀ s) : Ends s₀ (execGridWritesAcked ch s) := by
  unfold Machine.execGridWritesAcked
  dsimp only
  split
  · exact next hs
  · exact ite_ends (next (setStrm (chPut (setStrm hs)))) (next (setStrm (chPut (setStrm hs))))

theorem execHeaderWriteAcked {ch : Fin 512} (hs : Moves s₀ s) : Ends s₀ (execHeaderWriteAcked ch s) := by
  unfold Machine.execHeaderWriteAcked
  extract_lets c x
  split
  · exact hs
  · extract_lets s1 _ s2 s3
    have h1 : Moves s₀ s1 := setStrm hs
    have h2 : Moves s₀ s2 := countEvent h1
    exact ite_ends (ite_ends (decKey h1) h1) (keysigs (ite (countEvent h2) h2))

theorem execPrachOccasion {ch : Fin 512} (hs : Moves s₀ s) : Ends s₀ (execPrachOccasion ch s) := by
  unfold Machine.execPrachOccasion
  dsimp only
  split
  · exact next hs
  · exact ite_ends (next hs) (next (setStrm (update hs rfl)))

theorem execTxGridRead {ch : Fin 512} (hs : Moves s₀ s) : Ends s₀ (execTxGridRead ch s) := by
  unfold Machine.execTxGridRead
  extract_lets
  refine ite_ends (next hs) ?_
  split
  split
  extract_lets _ _ _ s1 _ s2
  have h1 : Moves s₀ s1 := ite (strmEvent (snd_snd ‹_› (unitGet hs))) (snd_snd ‹_› (unitGet hs))
  have h2 : Moves s₀ s2 := ite (strmSat h1) h1
  exact next (setStrm h2)

theorem execTxGridReadDone {ch : Fin 512} (hs : Moves s₀ s) : Ends s₀ (execTxGridReadDone ch s) := by
  unfold Machine.execTxGridReadDone
  extract_lets c x
  split
  · exact hs
  · extract_lets s1
    have h1 : Moves s₀ s1 := keysigs (setStrm hs)
    exact ite_ends (flowSend h1) (ite_ends (ite (setStrm h1) h1) (setStrm h1))

theorem execPaEnableChange {ch : Fin 512} (hs : Moves s₀ s) : Ends s₀ (execPaEnableChange ch s) :=
  ite_ends (next hs) (next (ite (syncPin (ite (chWord (setFld hs)) (setFld hs))) (ite (chWord (setFld hs)) (setFld hs))))

theorem execFftClearMax {req : Fin 14} {sel : BitVec 10} (hs : Moves s₀ s) : Ends s₀ (execFftClearMax req sel s) :=
  next (hubEach hs fun _ _ hs => setFld hs)

theorem execFftClearDrops {req : Fin 14} {sel : BitVec 10} (hs : Moves s₀ s) : Ends s₀ (execFftClearDrops req sel s) :=
  next (hubEach hs fun _ _ hs => setFld hs)

/-! ### Commands of the time bases -/

theorem periodOver_some {a m : Nat} (e : s.periodOver = some (a, m, t)) (hs : Moves s₀ s) : Moves s₀ t := by
  unfold State.periodOver at e
  dsimp only at e
  split at e
  · split at e
    · cases e
      exact update hs rfl
    · cases e
  · split at e
    · cases e
      exact periodStarts hs
    · cases e

theorem periodsOver {n : Nat} (hs : Moves s₀ s) : Moves s₀ (State.periodsOver n s) := by
  induction n generalizing s with
  | zero => exact hs
  | succ n ih =>
    unfold State.periodsOver
    split
    · exact ih (update (periodOver_some ‹_› hs) rfl)
    · exact hs

theorem servoState {n st : Nat} (hs : Moves s₀ s) : Moves s₀ (s.servoState n st) := ite hs (post (setFld hs))

theorem servoBegin {n : Nat} (hs : Moves s₀ s) : Moves s₀ (s.servoBegin n) :=
  ite (servoState (setTb hs)) (servoState hs)

theorem execTimingLock (hs : Moves s₀ s) : Ends s₀ (execTimingLock s) :=
  ite_ends (next hs) (next (periodLocked (update (foldl (syncReady (setFld (setFld hs))) fun _ _ hs => servoBegin
    (setTb hs)) rfl)))

theorem stepTo {n : Nat} {stamp : Int} {servo : Bool} (hs : Moves s₀ s) : Moves s₀ (s.stepTo n stamp servo) := by
  unfold State.stepTo
  extract_lets _ _ _ _ _ s1 _ s2 s3 _ s4
  have h1 : Moves s₀ s1 := ite (periodsOver hs) hs
  have h2 : Moves s₀ s2 := setTb h1
  have h3 : Moves s₀ s3 := addFld h2
  have h4 : Moves s₀ s4 := gridMoved (post h3)
  exact ite (periodStepped h4) h4

theorem stepGo {n : Nat} {v : Word} (hs : Moves s₀ s) : Moves s₀ (s.stepGo n v) :=
  ite (ite (stepTo hs) (ite (stepTo hs) (stepTo hs))) hs

theorem execStepGo {req : Fin 14} {sel : BitVec 10} {value : Word} (hs : Moves s₀ s) :
    Ends s₀ (execStepGo req sel value s) :=
  next (hubEach hs fun _ _ hs => stepGo hs)

theorem gridWrite2 {n off : Nat} {v : Word} (hs : Moves s₀ s) : Moves s₀ (s.gridWrite2 n off v) := by
  unfold State.gridWrite2
  extract_lets _ s1 _ s2 s3
  have h1 : Moves s₀ s1 := ite (periodsOver hs) hs
  have h2 : Moves s₀ s2 := storeReg h1
  have h3 : Moves s₀ s3 := gridMoved h2
  exact ite h2 (ite (periodMoved h3) h3)

theorem execFrameOffsetWrite {req : Fin 14} {sel : BitVec 10} {sfn : Bool} {value : Word} (hs : Moves s₀ s) :
    Ends s₀ (execFrameOffsetWrite req sel sfn value s) :=
  next (hubEach hs fun _ _ hs => gridWrite2 hs)

theorem servoSample {n : Nat} {e : Int} {stepOk : Bool} (hs : Moves s₀ s) : Moves s₀ (s.servoSample n e stepOk) := by
  unfold State.servoSample
  refine ite ?_ hs
  extract_lets s1 x s2 s3 mag s4 y b lim i f lock run s5 s6 s7
  have h2 : Moves s₀ s2 := setTb (setFld hs)
  have h3 : Moves s₀ s3 := ite (servoState h2) h2
  have h6 : Moves s₀ s6 := setFld (setTb h3)
  have h7 : Moves s₀ s7 := ite (servoState h6) h6
  exact ite (servoState (setTb (stepTo h3))) (ite (servoState h7) h7)

theorem offsetGo {n : Nat} {v : Word} (hs : Moves s₀ s) : Moves s₀ (s.offsetGo n v) := ite (servoSample hs) hs

theorem execOffsetGo {req : Fin 14} {sel : BitVec 10} {value : Word} (hs : Moves s₀ s) :
    Ends s₀ (execOffsetGo req sel value s) :=
  next (hubEach hs fun _ _ hs => offsetGo hs)

theorem execPpsInEdge {sub : BitVec 10} (hs : Moves s₀ s) : Ends s₀ (execPpsInEdge sub s) :=
  next (foldl hs fun _ _ hs => ite (ite (addFld hs) (servoSample (addFld (setTb hs)))) hs)

theorem execServoHoldover {tb : Fin 4} (hs : Moves s₀ s) : Ends s₀ (execServoHoldover tb s) :=
  ite_ends (next (reportFault (servoState hs))) (next hs)

theorem servoCtl {n : Nat} {v : Word} (hs : Moves s₀ s) : Moves s₀ (s.servoCtl n v) :=
  ite (storeReg hs) (servoBegin (setTb (storeReg hs)))

theorem execServoSourceWrite {req : Fin 14} {sel : BitVec 10} {value : Word} (hs : Moves s₀ s) :
    Ends s₀ (execServoSourceWrite req sel value s) :=
  next (hubEach hs fun _ _ hs => servoCtl hs)

theorem execRefLost (hs : Moves s₀ s) : Ends s₀ (execRefLost s) :=
  ite_ends (next hs) (next (reportFault (post (setFld hs))))

theorem execRefRestored (hs : Moves s₀ s) : Ends s₀ (execRefRestored s) := ite_ends (next (post (setFld hs))) (next hs)

theorem execEdgePush {req : Fin 14} {sel : BitVec 10} {value : Word} (hs : Moves s₀ s) :
    Ends s₀ (execEdgePush req sel value s) :=
  next (hubEach hs fun _ _ hs => pushEdge hs)

theorem execTddEdgeFire {pin : Fin 16} (hs : Moves s₀ s) : Ends s₀ (execTddEdgeFire pin s) := next (fireEdges hs)

theorem clrQueue {p : Nat} {v : Word} (hs : Moves s₀ s) : Moves s₀ (s.clrQueue p v) := ite (syncPin (setPin hs)) hs

theorem execClrQueue {req : Fin 14} {sel : BitVec 10} {value : Word} (hs : Moves s₀ s) :
    Ends s₀ (execClrQueue req sel value s) :=
  next (hubEach hs fun _ _ hs => clrQueue hs)

theorem execTddOutSlotStart {pin : Fin 16} (hs : Moves s₀ s) : Ends s₀ (execTddOutSlotStart pin s) :=
  ite_ends (ite_ends (next hs) (ite_ends (next (syncPin (setFld (setPin hs)))) (ite_ends (next (syncPin (setFld (setPin hs))))
    (next (setPin hs))))) (next hs)

theorem execPpsOutRise (hs : Moves s₀ s) : Ends s₀ (execPpsOutRise s) := by
  unfold Machine.execPpsOutRise
  split
  · exact next hs
  · exact ite_ends (next hs) (next (setTb (update hs rfl)))

theorem execPpsOutFall (hs : Moves s₀ s) : Ends s₀ (execPpsOutFall s) := by
  unfold Machine.execPpsOutFall
  refine ite_ends (next hs) ?_
  split
  · exact next (update hs rfl)
  · split
    · exact ite_ends (next (update hs rfl)) (next hs)
    · exact next (update hs rfl)

theorem tbLatch {req n : Nat} (hs : Moves s₀ s) : Moves s₀ (s.tbLatch req n) := foldl hs fun _ _ hs => holdFor hs

theorem execTimeSecLoRead {req : Fin 14} {sel : BitVec 10} (hs : Moves s₀ s) : Ends s₀ (execTimeSecLoRead req sel s) := by
  unfold Machine.execTimeSecLoRead
  split
  · exact next (giveBack (tbLatch hs))
  · exact next (giveBack hs)

/-! ### Commands of the lanes -/

theorem execLanesCal (hs : Moves s₀ s) : Ends s₀ (execLanesCal s) :=
  ite_ends (next hs) (next (foldl (syncReady (setFld (foldl hs fun _ _ hs => setFld (setFld hs)))) fun _ _ hs => laneUpdate hs))

theorem execSwitched {quad : Fin 12} (hs : Moves s₀ s) : Ends s₀ (execSwitched quad s) := by
  unfold Machine.execSwitched
  refine ite_ends ?_ (next hs)
  extract_lets s1 _ s2 _ s3 _ s4
  have h1 : Moves s₀ s1 := setFld (setFld (setFld hs))
  have h2 : Moves s₀ s2 := post h1
  have h3 : Moves s₀ s3 := foldl h2 fun _ _ hs => ite (endOp hs) (setOp hs)
  have h4 : Moves s₀ s4 := setFld (update h3 rfl)
  split
  · exact next (startSwitch h4)
  · exact next (foldl h3 fun _ _ hs => laneUpdate hs)

theorem execRecalGo {req : Fin 14} {sel : BitVec 10} {value : Word} (hs : Moves s₀ s) :
    Ends s₀ (execRecalGo req sel value s) :=
  next (hubEach hs fun _ _ hs => recalGo hs)

theorem execRecalDone {lane : Fin 48} {line : Bool} (hs : Moves s₀ s) : Ends s₀ (execRecalDone lane line s) :=
  ite_ends (next (foldl (post (setFld (update hs rfl))) fun _ _ hs => ite (endOp hs) (setOp hs))) (next hs)

theorem execAdaptWindow {lane : Fin 48} {levels : List Nat} {transitions : Nat} {spoiled : Bool} (hs : Moves s₀ s) :
    Ends s₀ (execAdaptWindow lane levels transitions spoiled s) := by
  unfold Machine.execAdaptWindow
  refine ite_ends (ite_ends ?_ (next (addFld (takeFir hs)))) (next (setFld (takeFir hs)))
  split
  split
  exact next (addFld (foldl (setFld (snd ‹_› (takeFree (snd ‹_› (takeFree (takeFir hs)))))) fun _ _ hs => setFld hs))

theorem holdEq {l : Nat} (hs : Moves s₀ s) : Moves s₀ (s.holdEq l) := ite hs (setFld hs)

theorem laneCtl {l : Nat} {v : Word} (hs : Moves s₀ s) : Moves s₀ (s.laneCtl l v) :=
  macsCheck (laneUpdate (holdEq (storeReg hs)))

theorem rxeqWrite {l : Nat} {v : Word} (hs : Moves s₀ s) : Moves s₀ (s.rxeqWrite l v) := holdEq (storeReg hs)

theorem prbsWrite {l : Nat} {v : Word} (hs : Moves s₀ s) : Moves s₀ (s.prbsWrite l v) := storeReg (ite (setFld hs) hs)

theorem execTxEnWrite {req : Fin 14} {sel : BitVec 10} {value : Word} (hs : Moves s₀ s) :
    Ends s₀ (execTxEnWrite req sel value s) :=
  next (hubEach hs fun _ _ hs => laneCtl hs)

theorem execAhnentTxMultiframe {lane : Fin 48} (hs : Moves s₀ s) : Ends s₀ (execAhnentTxMultiframe lane s) := by
  unfold Machine.execAhnentTxMultiframe
  extract_lets _ _ _ _ s1 _ _ s2 _ s3
  have h1 : Moves s₀ s1 := setAhn hs
  have h2 : Moves s₀ s2 := ite (setAhn (setTxState h1)) h1
  have h3 : Moves s₀ s3 := by
    refine ite ?_ h2
    split
    · exact ite (setAhn h2) (sendMultiframe h2)
    · exact sendMultiframe h2
  exact ite_ends (next hs) (next (setAhn h3))

theorem execAhnentRxMultiframe {lane : Fin 48} {blocks : List (BitVec 66)} (hs : Moves s₀ s) :
    Ends s₀ (execAhnentRxMultiframe lane blocks s) := by
  unfold Machine.execAhnentRxMultiframe
  refine ite_ends (next hs) (next (takeMultiframe ?_))
  split
  · exact ite (setFld (update hs rfl)) (post (setFld (update hs rfl)))
  · exact hs

theorem execAhnentTrainDone {lane : Fin 48} {rx : Bool} (hs : Moves s₀ s) : Ends s₀ (execAhnentTrainDone lane rx s) :=
  ite_ends (ite_ends (next (setRxState (setAhn (setFld (setFld hs))))) (next hs)) (ite_ends (next (txBegin hs)) (next hs))

theorem execAhnentAlignTimeout {lane : Fin 48} (hs : Moves s₀ s) : Ends s₀ (execAhnentAlignTimeout lane s) :=
  next (ite (setTxState (ite (setRxState hs) hs)) (ite (setRxState hs) hs))

theorem execIdleEnter {lane : Fin 48} (hs : Moves s₀ s) : Ends s₀ (execIdleEnter lane s) :=
  ite_ends (next (setAhn hs)) (next hs)

theorem execIdleExit {lane : Fin 48} (hs : Moves s₀ s) : Ends s₀ (execIdleExit lane s) :=
  ite_ends (next (txBegin (ite (addFld hs) hs))) (next hs)

theorem execAhnentRxIdle {lane : Fin 48} (hs : Moves s₀ s) : Ends s₀ (execAhnentRxIdle lane s) :=
  ite_ends (ite_ends (next (setRxState (setAhn hs))) (next (ahnLoss hs))) (next hs)

theorem userCw {q : Nat} {v : Word} (hs : Moves s₀ s) : Moves s₀ (s.userCw q v) := pushWord hs

theorem execUserCw {req : Fin 14} {sel : BitVec 10} {value : Word} (hs : Moves s₀ s) :
    Ends s₀ (execUserCw req sel value s) :=
  ite_ends (next (hubEach hs fun _ _ hs => userCw hs)) (next hs)

theorem protectWrite {q : Nat} {v : Word} (hs : Moves s₀ s) : Moves s₀ (s.protectWrite q v) :=
  ite (storeReg hs) (update (storeReg hs) rfl)

theorem execAhnentActiveWrite {req : Fin 14} {sel : BitVec 10} {value : Word} (hs : Moves s₀ s) :
    Ends s₀ (execAhnentActiveWrite req sel value s) :=
  ite_ends (next (hubEach hs fun _ _ hs => protectWrite hs)) (next hs)

theorem rxCwPop {l : Nat} (hs : Moves s₀ s) : Moves s₀ (s.rxCwPop l) := setAhn hs

theorem execRxCwRead {req : Fin 14} {sel : BitVec 10} {lane : Fin 4} (hs : Moves s₀ s) :
    Ends s₀ (execRxCwRead req sel lane s) := by
  unfold Machine.execRxCwRead
  refine ite_ends ?_ (next (giveBack hs))
  split
  · exact next (giveBack (rxCwPop hs))
  · exact next (giveBack hs)

theorem execCdrLoss {lane : Fin 48} (hs : Moves s₀ s) : Ends s₀ (execCdrLoss lane s) :=
  ite_ends (next (ite (ahnLoss (post (setFld hs))) (post (setFld hs)))) (next hs)

/-! ### Commands of the ledger -/

theorem takeCal {p : Nat} (hs : Moves s₀ s) : Moves s₀ (s.takeCal p) := by
  unfold State.takeCal
  split
  · exact setFld (setFld (setMeter hs))
  · exact hs

theorem meterPoint {p raw : Nat} (hs : Moves s₀ s) : Moves s₀ (s.meterPoint p raw) := by
  unfold State.meterPoint
  extract_lets _ _ _ _ _ _ s1 s2 _ _ _ s3
  have h1 : Moves s₀ s1 := setFld (setMeter hs)
  have h2 : Moves s₀ s2 := takeCal (setFld h1)
  have h3 : Moves s₀ s3 := by
    refine foldl h2 fun _ _ hs => ite (charge hs) ?_
    split
    · exact accrue (putTask hs)
    · exact charge hs
  exact ite h2 (ite (charge h3) (charge h2))

theorem stretchStep {total : Nat} (hs : Moves s₀ s) : Moves s₀ (s.stretchStep total) := by
  unfold State.stretchStep
  extract_lets _ _ _ s1 _ s2
  have h1 : Moves s₀ s1 := update hs rfl
  have h2 : Moves s₀ s2 := ite (addFld h1) h1
  exact ite h2 (ite (setLevel h2) (ite (setLevel h2) h2))

theorem execMeterStep {units others : List Nat} (hs : Moves s₀ s) : Ends s₀ (execMeterStep units others s) := by
  unfold Machine.execMeterStep
  generalize List.range 48 = points
  split
  · exact hs
  extract_lets _ s1 total
  have h1 : Moves s₀ s1 := foldl hs fun _ _ hs => meterPoint hs
  clear_value s1 total
  exact stretchStep (update h1 rfl)

theorem meterFault {p cause : Nat} (hs : Moves s₀ s) : Moves s₀ (s.meterFault p cause) := by
  unfold State.meterFault
  exact reportFault (post (setFld (setFld hs)))

theorem execMeterFault {point : Fin 48} {range : Bool} (hs : Moves s₀ s) : Ends s₀ (execMeterFault point range s) :=
  ite_ends (next hs) (ite_ends (next (meterFault hs)) (ite_ends (next (meterFault hs)) (next hs)))

theorem execMeterReferenceCheck {point : Fin 48} {within : Bool} (hs : Moves s₀ s) :
    Ends s₀ (execMeterReferenceCheck point within s) :=
  ite_ends (next hs) (next (meterFault hs))

theorem reconcile {shares : List (Nat × Nat)} {actual nominal a : Nat} (hs : Moves s₀ s) :
    Moves s₀ (s.reconcile shares actual nominal a) := by
  unfold State.reconcile
  extract_lets s1 x s2 s3 s4
  have h1 : Moves s₀ s1 := foldl hs fun _ _ hs => charge hs
  have h3 : Moves s₀ s3 := setFld (setFld h1)
  have h4 : Moves s₀ s4 := setAccount h3 fun h => Account.balanced_congr h rfl rfl rfl rfl
  exact creditChange (mint h4)

theorem thriftPeriod (hs : Moves s₀ s) : Moves s₀ s.thriftPeriod := by
  unfold State.thriftPeriod
  refine ite (grantUnparks (creditChange (devMove (update ?_ rfl)))) (grantUnparks ?_)
  · split
    · exact setFld (update hs rfl)
    · exact hs
  · split
    · exact setFld (update hs rfl)
    · exact hs

theorem closeMeter {p : Nat} (hs : Moves s₀ s) : Moves s₀ (s.closeMeter p) := setMeter (setFld hs)

theorem fecPeriod (hs : Moves s₀ s) : Moves s₀ s.fecPeriod := update (foldl hs fun _ _ hs => post hs) rfl

theorem closePeriod {actual nominal : Nat} (hs : Moves s₀ s) : Moves s₀ (s.closePeriod actual nominal) :=
  tracePeriod (ethPeriod (vaultPeriod (setFld (fecPeriod (thriftPeriod (foldl (foldl (addFld
    (setFld hs)) fun _ _ hs => closeMeter hs) fun _ _ hs => reconcile hs))))))

theorem periodDue_some {a n : Nat} (e : s.periodDue = some (a, n, t)) (hs : Moves s₀ s) : Moves s₀ t := by
  unfold State.periodDue at e
  split at e
  · cases e
    exact update hs rfl
  · exact periodOver_some e hs

theorem execPeriodClose {actual nominal : Nat} {grid : Bool} (hs : Moves s₀ s) :
    Ends s₀ (execPeriodClose actual nominal grid s) := by
  unfold Machine.execPeriodClose
  split
  · exact ite_ends (closePeriod (periodDue_some ‹_› hs)) hs
  · exact hs

theorem execAdjust {req : Fin 14} {sel : BitVec 10} {value : Word} (hs : Moves s₀ s) :
    Ends s₀ (execAdjust req sel value s) :=
  next (hubEach hs fun _ _ hs => adjust hs)

theorem clrAccount {a : Nat} (hs : Moves s₀ s) : Moves s₀ (s.clrAccount a) := foldl hs fun _ _ hs => setReg hs

theorem execAccountClrStats {req : Fin 14} {sel : BitVec 10} (hs : Moves s₀ s) : Ends s₀ (execAccountClrStats req sel s) :=
  next (hubEach hs fun _ _ hs => clrAccount hs)

theorem noteBusy (hs : Moves s₀ s) : Moves s₀ s.noteBusy := update hs rfl

theorem execDomainPark {domain : Fin 78} (hs : Moves s₀ s) : Ends s₀ (execDomainPark domain s) :=
  ite_ends (next (ite (post (addFld (setFld hs))) (addFld (setFld hs)))) (next hs)

theorem execDomainUnpark {domain : Fin 78} (hs : Moves s₀ s) : Ends s₀ (execDomainUnpark domain s) :=
  ite_ends (ite_ends (ite_ends (next (unpark hs)) (next hs)) (ite_ends (next hs) (ite_ends (next (ite hs (update hs rfl)))
    (next (unpark hs))))) (next hs)

/-! ### Commands of the dispatcher -/

theorem setPosts {r : Nat} {l : List HeldPost} (hs : Moves s₀ s) : Moves s₀ (s.setPosts r l) := update hs rfl

theorem postWrite {req queue : Nat} {v : Word} (hs : Moves s₀ s) : Moves s₀ (s.postWrite req queue v) :=
  ite (update (setPosts hs) rfl) hs

theorem execDqueuePost {req : Fin 14} {queue : Fin 256} {value : Word} (hs : Moves s₀ s) :
    Ends s₀ (execDqueuePost req queue value s) :=
  next (postWrite hs)

theorem answerReads {r : Nat} (hs : Moves s₀ s) : Moves s₀ (s.answerReads r) := ite (giveBack (setPosts hs)) hs

theorem rejectPost {r : Nat} {h : HeldPost} (hs : Moves s₀ s) : Moves s₀ (s.rejectPost r h) := by
  unfold State.rejectPost
  split
  · exact dmaErr (setDch (post hs))
  · exact post hs

theorem grantPost {r : Nat} {h : HeldPost} (hs : Moves s₀ s) : Moves s₀ (s.grantPost r h) := by
  unfold State.grantPost
  refine answerReads (ite ?_ (rejectPost (update (setPosts hs) rfl)))
  split
  refine ite ?_ (rejectPost (took (snd_snd ‹_› (busRead (update (setPosts hs) rfl)))))
  split
  exact update (snd ‹_› (accept (took (snd_snd ‹_› (busRead (update (setPosts hs) rfl)))))) rfl

theorem execPostRead {req : Fin 14} {queue : Fin 256} (hs : Moves s₀ s) : Ends s₀ (execPostRead req queue s) :=
  ite_ends (next (giveBack hs)) (next (setPosts hs))

theorem keySetCount {block : Nat} {v : Word} (hs : Moves s₀ s) : Moves s₀ (s.keySetCount block v) := setCount hs

theorem execKeystoneSetCount {req : Fin 14} {block : Fin 32} {value : Word} (hs : Moves s₀ s) :
    Ends s₀ (execKeystoneSetCount req block value s) :=
  next (hubEach hs fun _ _ hs => keySetCount hs)

theorem execKeystoneSetReload {req : Fin 14} {block : Fin 32} {value : Word} (hs : Moves s₀ s) :
    Ends s₀ (execKeystoneSetReload req block value s) :=
  next (hubEach hs fun _ _ hs => setReload hs)

theorem keyDecWrite {req block : Nat} {v : Word} (hs : Moves s₀ s) : Moves s₀ (s.keyDecWrite req block v) :=
  hubEach hs fun _ _ hs => decKey hs

theorem execKeystoneDec {req : Fin 14} {block : Fin 32} {value : Word} (hs : Moves s₀ s) :
    Ends s₀ (execKeystoneDec req block value s) :=
  next (keyDecWrite hs)

theorem execTellerFill (hs : Moves s₀ s) : Ends s₀ (execTellerFill s) := by
  unfold Machine.execTellerFill
  split
  · exact next hs
  · dsimp only
    split
    · exact next (place (update hs rfl))
    · exact next (update hs rfl)

theorem execSlotAgeReclaim {unit : Fin 232} (hs : Moves s₀ s) : Ends s₀ (execSlotAgeReclaim unit s) := by
  unfold Machine.execSlotAgeReclaim
  refine ite_ends (next (foldl hs fun _ _ hs => ?_)) (next hs)
  split
  · exact ite (reclaim hs) hs
  · exact hs

theorem execTaskCompletion {index : BitVec 14} {cause : BitVec 4} (hs : Moves s₀ s) :
    Ends s₀ (execTaskCompletion index cause s) := by
  unfold Machine.execTaskCompletion
  refine ite_ends (next hs) (next (settleFences ?_))
  split
  · exact endRecovery (complete (update hs rfl))
  · exact complete (update hs rfl)

theorem cancelWrite {req : Nat} {v : Word} (hs : Moves s₀ s) : Moves s₀ (s.cancelWrite req v) := by
  unfold State.cancelWrite
  refine ite ?_ hs
  dsimp only
  split
  · exact ite (drop (update hs rfl)) (update hs rfl)
  · exact update hs rfl

theorem execDispCancel {req : Fin 14} {value : Word} (hs : Moves s₀ s) : Ends s₀ (execDispCancel req value s) :=
  next (cancelWrite hs)

theorem dqueueClear {q : Nat} {v : Word} (hs : Moves s₀ s) : Moves s₀ (s.dqueueClear q v) :=
  ite (foldl (ite (setReg hs) hs) fun _ _ hs => setReg hs) (ite (setReg hs) hs)

theorem execDqueueClrMax {req : Fin 14} {sel : BitVec 10} (hs : Moves s₀ s) : Ends s₀ (execDqueueClrMax req sel s) :=
  next (hubEach hs fun _ _ hs => dqueueClear hs)

theorem execDqueueClrHist {req : Fin 14} {sel : BitVec 10} (hs : Moves s₀ s) : Ends s₀ (execDqueueClrHist req sel s) :=
  next (hubEach hs fun _ _ hs => dqueueClear hs)

theorem tellerClear {c : Nat} {v : Word} (hs : Moves s₀ s) : Moves s₀ (s.tellerClear c v) :=
  ite (foldl hs fun _ _ hs => setReg hs) hs

theorem execTellerClrHist {req : Fin 14} {sel : BitVec 10} (hs : Moves s₀ s) : Ends s₀ (execTellerClrHist req sel s) :=
  next (hubEach hs fun _ _ hs => tellerClear hs)

/-! ### Commands of the journal -/

theorem execJournalGrant (hs : Moves s₀ s) : Ends s₀ (execJournalGrant s) := by
  unfold Machine.execJournalGrant
  split
  · exact hs
  cases rrPick 256 s.journal.lastCls (fun c => !(tget [] s.journal.fifo c).isEmpty) with
  | none => exact hs
  | some c =>
    dsimp only
    cases classPick (tget 1023 s.journal.lastInst c) (tget [] s.journal.fifo c) with
    | none => exact hs
    | some e => exact journalWrite (update hs rfl)

theorem execLost {cls : BitVec 8} (hs : Moves s₀ s) : Ends s₀ (execLost cls s) :=
  ite_ends (next hs) (next (update hs rfl))

/-! ### The Mortar -/

theorem setTxns {l : List Txn} (hs : Moves s₀ s) : Moves s₀ (s.setTxns l) := update hs rfl

theorem syncNi {ni : Nat} (hs : Moves s₀ s) : Moves s₀ (s.syncNi ni) := setFld (setFld (setFld hs))

theorem countBytes {ni req n b : Nat} (hs : Moves s₀ s) : Moves s₀ (s.countBytes ni req n b) := update hs rfl

theorem giveResult {ni req status : Nat} {data : List (Byte × Bool)} (hs : Moves s₀ s) :
    Moves s₀ (s.giveResult ni req status data) :=
  update hs rfl

theorem sendData {ni vc src dest txn : Nat} {words : List (List (Byte × Bool))} (hs : Moves s₀ s) :
    Moves s₀ (s.sendData ni vc src dest txn words) :=
  foldl hs fun _ _ hs => sendFlit hs

theorem niSend {ni port : Nat} {q : NiReq} {d n : Nat} (hs : Moves s₀ s) : Moves s₀ (s.niSend ni port q d n) :=
  ite (countBytes (sendFlit (update hs rfl))) (countBytes (sendData (countBytes (sendFlit (update hs rfl)))))

theorem niArrive {ni : Nat} {l : List NiReq} (hs : Moves s₀ s) : Moves s₀ (s.niArrive ni l) := update hs rfl

theorem niGrant {ni k : Nat} {q : NiReq} (hs : Moves s₀ s) : Moves s₀ (s.niGrant ni k q) := by
  unfold State.niGrant
  dsimp only
  split
  · exact giveResult (update hs rfl)
  · exact niSend (update hs rfl)
  · exact update hs rfl

theorem execNiInject {ni : Fin 64} {req : Option (Fin 15)} {more : Bool} {op : BitVec 3} {len : BitVec 5 × BitVec 3}
    {addr : BitVec 40} {data : List (Byte × Bool)} (hs : Moves s₀ s) :
    Ends s₀ (execNiInject ni req more op len addr data s) := by
  unfold Machine.execNiInject
  extract_lets s1
  have h1 : Moves s₀ s1 := niArrive hs
  split
  · exact next (syncNi h1)
  · exact next (syncNi (niGrant h1))

theorem niUpdate {ni : Nat} (hs : Moves s₀ s) : Moves s₀ (s.niUpdate ni) := update hs rfl

theorem drainReport {ni d : Nat} (hs : Moves s₀ s) : Moves s₀ (s.drainReport ni d) :=
  ite (countBytes (niUpdate (sendFlit (setPort hs)))) hs

theorem drainSettle {d : Nat} (hs : Moves s₀ s) : Moves s₀ (s.drainSettle d) := ite (portDrained (post (setPort hs))) hs

theorem endTxn {t : Txn} {status : Nat} {data : List (Byte × Bool)} (hs : Moves s₀ s) : Moves s₀ (s.endTxn t status data) :=
  drainSettle (drainReport (syncNi (giveResult (setTxns hs))))

theorem forceAt {ni d : Nat} (hs : Moves s₀ s) : Moves s₀ (s.forceAt ni d) :=
  update (niUpdate (foldl hs fun _ _ hs => endTxn hs)) rfl

theorem eject {ni : Nat} {f : Flit} (hs : Moves s₀ s) : Moves s₀ (s.eject ni f) := by
  unfold State.eject
  split
  · exact ite (forceAt hs) hs
  · exact ite (setFlits hs) hs
  · exact setFlits hs
  · exact ite (setFlits hs) (post hs)

theorem linkPassed {r d : Nat} (hs : Moves s₀ s) : Moves s₀ (s.linkPassed r d) :=
  ite (setLink (update hs rfl)) (update hs rfl)

theorem moveFlit {f : Flit} (hs : Moves s₀ s) : Moves s₀ (s.moveFlit f) := by
  unfold State.moveFlit
  split
  · exact hs
  · extract_lets x s1 s2
    have h1 : Moves s₀ s1 := update hs rfl
    have h2 : Moves s₀ s2 := by
      dsimp only [s2]
      split
      · exact linkPassed (countEvent h1)
      · exact countEvent h1
      · exact h1
    split
    · exact setFlits h2
    · exact eject h2
    · exact h2

theorem fcFinish (hs : Moves s₀ s) : Moves s₀ s.fcFinish := by
  unfold State.fcFinish
  split
  · exact hs
  · exact ite hs (fcAdvance (update hs rfl))

theorem forceFinish (hs : Moves s₀ s) : Moves s₀ s.forceFinish :=
  foldl hs fun _ _ hs => ite (ite (portDrained (post (setPort (update hs rfl)))) (update hs rfl)) hs

theorem meshCycle (hs : Moves s₀ s) : Moves s₀ s.meshCycle :=
  forceFinish (fcFinish (foldl hs fun _ _ hs => moveFlit hs))

theorem meshRun {goal : State → Bool} {n : Nat} (hs : Moves s₀ s) : Moves s₀ (State.meshRun goal n s) := by
  induction n generalizing s with
  | zero => exact hs
  | succ n ih => exact ite hs (ih (meshCycle hs))

theorem meshUntil {goal : State → Bool} (hs : Moves s₀ s) : Moves s₀ (s.meshUntil goal) := meshRun hs

theorem takeFlit {f : Flit} (hs : Moves s₀ s) : Moves s₀ (s.takeFlit f) := setFlits hs

theorem countLatency {ni req c : Nat} (hs : Moves s₀ s) : Moves s₀ (s.countLatency ni req c) := update hs rfl

theorem execResponseArrive {ni : Fin 64} {port : Fin 4} {txn : BitVec 10} {latency : Nat} (hs : Moves s₀ s) :
    Ends s₀ (execResponseArrive ni port txn latency s) := by
  unfold Machine.execResponseArrive
  extract_lets s1
  have h1 : Moves s₀ s1 := meshUntil hs
  split
  · exact next h1
  · extract_lets s2
    have h2 : Moves s₀ s2 := foldl h1 fun _ _ hs => takeFlit hs
    split
    · exact next (addFld h2)
    · extract_lets s3 s4
      have h3 : Moves s₀ s3 := countBytes h2
      have h4 : Moves s₀ s4 := ite h3 (countBytes h3)
      exact next (endTxn (countLatency h4))

theorem execTxnTimeout {ni : Fin 64} {port : Fin 4} {txn : BitVec 10} (hs : Moves s₀ s) :
    Ends s₀ (execTxnTimeout ni port txn s) := by
  unfold Machine.execTxnTimeout
  split
  · exact next hs
  · exact ite_ends (next hs) (next (post (endTxn hs)))

theorem dropData {f : Flit} (hs : Moves s₀ s) : Moves s₀ (s.dropData f) := setFlits hs

theorem badHeader {ni : Nat} {f : Flit} (hs : Moves s₀ s) : Moves s₀ (s.badHeader ni f) :=
  endRecovery (reportFault (post (dropData (takeFlit hs))))

theorem execLinkReplay {router : Fin 256} {dir : Fin 4} (hs : Moves s₀ s) : Ends s₀ (execLinkReplay router dir s) :=
  ite_ends (next hs) (next (addFld (setLink (update hs rfl))))

theorem divertAt {r : Nat} (hs : Moves s₀ s) : Moves s₀ (s.divertAt r) := setFlits hs

theorem execLinkFailed {router : Fin 256} {dir : Fin 4} (hs : Moves s₀ s) : Ends s₀ (execLinkFailed router dir s) := by
  unfold Machine.execLinkFailed
  refine ite_ends (next hs) ?_
  split
  · exact next hs
  · exact next (sendAll (reportFault (post (divertAt (divertAt (update (setLink (setLink hs)) rfl))))))

theorem takeSnoop {ni type : Nat} {p : Nat → Bool} (hs : Moves s₀ s) : Moves s₀ (s.takeSnoop ni type p).2 := by
  unfold State.takeSnoop
  dsimp only
  split
  · exact countBytes (takeFlit (meshUntil hs))
  · exact meshUntil hs

theorem execNiLinkDown {ni : Fin 64} {plane : Fin 4} {position : Fin 64} {dir : Fin 4} (hs : Moves s₀ s) :
    Ends s₀ (execNiLinkDown ni plane position dir s) := by
  unfold Machine.execNiLinkDown
  dsimp only
  split
  · exact next (update (snd ‹_› (takeSnoop hs)) rfl)
  · exact next (snd ‹_› (takeSnoop hs))

theorem copyBank {ni : Nat} (hs : Moves s₀ s) : Moves s₀ (s.copyBank ni) := foldl hs fun _ _ hs => setRoute hs

theorem flipEpoch {ni : Nat} (hs : Moves s₀ s) : Moves s₀ (s.flipEpoch ni) := syncNi (niUpdate (setFld hs))

theorem execDetour {ni : Fin 64} {plane : Fin 4} {position : Fin 64} {dir : Fin 4} (hs : Moves s₀ s) :
    Ends s₀ (execDetour ni plane position dir s) := by
  unfold Machine.execDetour
  extract_lets _ _ s1 _ s2 s3 _ s4 _ s5
  have h1 : Moves s₀ s1 := copyBank hs
  have h2 : Moves s₀ s2 := foldl h1 fun _ _ hs => setRoute hs
  have h3 : Moves s₀ s3 := flipEpoch h2
  have h4 : Moves s₀ s4 := update h3 rfl
  have h5 : Moves s₀ s5 := post h4
  refine ite_ends (next (ite h4 ?_)) (next hs)
  split
  · exact recovered h5
  · exact h5

theorem execFenceReq {req : Fin 14} {ni : Fin 64} {port : BitVec 2} (hs : Moves s₀ s) :
    Ends s₀ (execFenceReq req ni port s) :=
  next (hubEach hs fun _ _ hs => askFence hs)

theorem reqUnfence {d : Nat} (hs : Moves s₀ s) : Moves s₀ (s.reqUnfence d) := ite (askUnfence hs) hs

theorem execUnfenceReq {req : Fin 14} {ni : Fin 64} {port : BitVec 2} (hs : Moves s₀ s) :
    Ends s₀ (execUnfenceReq req ni port s) :=
  next (hubEach hs fun _ _ hs => reqUnfence hs)

theorem execNiFence {ni : Fin 64} (hs : Moves s₀ s) : Ends s₀ (execNiFence ni s) := by
  unfold Machine.execNiFence
  split
  · exact next (drainReport (niUpdate (setNiFence (snd ‹_› (takeSnoop hs)))))
  · exact next (snd ‹_› (takeSnoop hs))

theorem execDrainDone {dest : BitVec 8} {ni : Fin 64} (hs : Moves s₀ s) : Ends s₀ (execDrainDone dest ni s) := by
  unfold Machine.execDrainDone
  dsimp only
  split
  · exact next (snd ‹_› (takeSnoop hs))
  · exact ite_ends (next (drainSettle (setPort (snd ‹_› (takeSnoop hs))))) (next (snd ‹_› (takeSnoop hs)))

theorem execForceDrain {dest : BitVec 8} (hs : Moves s₀ s) : Ends s₀ (execForceDrain dest s) :=
  ite_ends (next (meshUntil (ite hs (fcAsk hs)))) (next hs)

theorem execNiUnfence {ni : Fin 64} (hs : Moves s₀ s) : Ends s₀ (execNiUnfence ni s) := by
  unfold Machine.execNiUnfence
  split
  · extract_lets s1
    have h1 : Moves s₀ s1 := niUpdate (setNiFence (snd ‹_› (takeSnoop hs)))
    exact next (ite (setPort (setFlits h1)) h1)
  · exact next (snd ‹_› (takeSnoop hs))

theorem execEpochFlip {req : Fin 14} {sel : BitVec 10} (hs : Moves s₀ s) : Ends s₀ (execEpochFlip req sel s) :=
  next (hubEach hs fun _ _ hs => flipEpoch hs)

theorem startCopy {ni : Nat} (hs : Moves s₀ s) : Moves s₀ (s.startCopy ni) := niUpdate (setFld hs)

theorem execCopy {req : Fin 14} {sel : BitVec 10} (hs : Moves s₀ s) : Ends s₀ (execCopy req sel s) :=
  next (hubEach hs fun _ _ hs => startCopy hs)

theorem execCopyDone {ni : Fin 64} (hs : Moves s₀ s) : Ends s₀ (execCopyDone ni s) :=
  ite_ends (next (setFld (copyBank hs))) (next hs)

theorem writeRouteHi {req ni : Nat} {v : Word} (hs : Moves s₀ s) : Moves s₀ (s.writeRouteHi req ni v) :=
  niUpdate (setRoute hs)

theorem execRouteHiWrite {req : Fin 14} {sel : BitVec 10} {value : Word} (hs : Moves s₀ s) :
    Ends s₀ (execRouteHiWrite req sel value s) :=
  next (hubEach hs fun _ _ hs => writeRouteHi hs)

theorem applyLinkEn {r : Nat} (hs : Moves s₀ s) : Moves s₀ (s.applyLinkEn r) :=
  foldl hs fun _ _ hs => ite (setLink (update hs rfl)) (ite (setLink (update hs rfl)) hs)

theorem writeRouterCtl {r : Nat} {v : Word} (hs : Moves s₀ s) : Moves s₀ (s.writeRouterCtl r v) :=
  ite (applyLinkEn (ite (storeReg hs) (update (storeReg hs) rfl))) (storeReg hs)

theorem execInServiceWrite {req : Fin 14} {sel : BitVec 10} {value : Word} (hs : Moves s₀ s) :
    Ends s₀ (execInServiceWrite req sel value s) :=
  next (hubEach hs fun _ _ hs => writeRouterCtl hs)

theorem execLinkEnWrite {req : Fin 14} {sel : BitVec 10} {value : Word} (hs : Moves s₀ s) :
    Ends s₀ (execLinkEnWrite req sel value s) :=
  next (hubEach hs fun _ _ hs => writeRouterCtl hs)

theorem execLinkRetrainDone {router : Fin 256} {dir : Fin 4} {pass : Bool} (hs : Moves s₀ s) :
    Ends s₀ (execLinkRetrainDone router dir pass s) :=
  ite_ends (next (setLink (update hs rfl))) (next hs)

theorem clrNiHist {ni : Nat} (hs : Moves s₀ s) : Moves s₀ (s.clrNiHist ni) := update hs rfl

theorem clrNiBytes {ni : Nat} (hs : Moves s₀ s) : Moves s₀ (s.clrNiBytes ni) := update hs rfl

theorem execNiClrHist {req : Fin 14} {sel : BitVec 10} (hs : Moves s₀ s) : Ends s₀ (execNiClrHist req sel s) :=
  next (hubEach hs fun _ _ hs => clrNiHist hs)

theorem execNiClrBytes {req : Fin 14} {sel : BitVec 10} (hs : Moves s₀ s) : Ends s₀ (execNiClrBytes req sel s) :=
  next (hubEach hs fun _ _ hs => clrNiBytes hs)

/-! ### Commands of the memories -/

theorem execScrubRead {scrubber : Fin 44} (hs : Moves s₀ s) : Ends s₀ (execScrubRead scrubber s) := by
  unfold Machine.execScrubRead
  refine ite_ends (next hs) (ite_ends (next (ite (setReg (update hs rfl)) (update hs rfl))) ?_)
  split
  extract_lets _ s1
  have h1 : Moves s₀ s1 := noteDecode (ite (setReg (update hs rfl)) (update hs rfl))
  split
  · exact next (update h1 rfl)
  · exact next (update h1 rfl)
  · exact next h1

theorem spallRewritten {k : Nat} (hs : Moves s₀ s) : Moves s₀ (s.spallRewritten k) := by
  unfold State.spallRewritten
  split
  split
  · exact setSpall hs
  · exact hs

theorem execScrubRewrite {scrubber : Fin 44} (hs : Moves s₀ s) : Ends s₀ (execScrubRewrite scrubber s) := by
  unfold Machine.execScrubRewrite
  refine ite_ends (next hs) (ite_ends (next (update hs rfl)) ?_)
  split
  split
  · exact next (spallRewritten (storeWord (update hs rfl)))
  · exact next (spallRewritten (storeWord (update hs rfl)))
  · exact next (update hs rfl)

theorem execRepaired {entry : Fin 256} (hs : Moves s₀ s) : Ends s₀ (execRepaired entry s) :=
  ite_ends (ite_ends (next (post (syncSpall (setSpall (copySpare (takeSpare hs)))))) (next (post (syncSpall (setSpall hs)))))
    (next hs)

theorem setTestData {cls i : Nat} {d : List Byte} (hs : Moves s₀ s) : Moves s₀ (s.setTestData cls i d) :=
  foldl hs fun _ _ hs => setReg hs

theorem rawRead {cls i : Nat} (hs : Moves s₀ s) : Moves s₀ (s.rawRead cls i) := setReg (setTestData hs)

theorem rawWrite {cls i : Nat} (hs : Moves s₀ s) : Moves s₀ (s.rawWrite cls i) := hs.write

theorem decodedRead {cls i : Nat} (hs : Moves s₀ s) : Moves s₀ (s.decodedRead cls i) :=
  setReg (setReg (setTestData (noteDecode hs)))

theorem testOp {cls i op : Nat} {skip : Bool} (hs : Moves s₀ s) : Moves s₀ (s.testOp cls i op skip) :=
  ite (rawRead (setReg hs)) (ite (rawWrite (setReg hs)) (ite (decodedRead (setReg hs)) (setReg hs)))

theorem execRawRead {req : Fin 14} {cls : BitVec 8} {sel : BitVec 10} {skip : Bool} (hs : Moves s₀ s) :
    Ends s₀ (execRawRead req cls sel skip s) :=
  ite_ends (next (hubEach hs fun _ _ hs => testOp hs)) (next hs)

theorem execRawWrite {req : Fin 14} {cls : BitVec 8} {sel : BitVec 10} {skip : Bool} (hs : Moves s₀ s) :
    Ends s₀ (execRawWrite req cls sel skip s) :=
  ite_ends (next (hubEach hs fun _ _ hs => testOp hs)) (next hs)

theorem execDecodedRead {req : Fin 14} {cls : BitVec 8} {sel : BitVec 10} {skip : Bool} (hs : Moves s₀ s) :
    Ends s₀ (execDecodedRead req cls sel skip s) :=
  ite_ends (next (hubEach hs fun _ _ hs => testOp hs)) (next hs)

theorem clrCounts {cls i : Nat} (hs : Moves s₀ s) : Moves s₀ (s.clrCounts cls i) :=
  foldl (setReg (setReg hs)) fun _ _ hs => setReg hs

theorem clrErase {cls i : Nat} (hs : Moves s₀ s) : Moves s₀ (s.clrErase cls i) := setReg hs

theorem execClrCounts {req : Fin 14} {cls : BitVec 8} {sel : BitVec 10} (hs : Moves s₀ s) :
    Ends s₀ (execClrCounts req cls sel s) :=
  ite_ends (next (hubEach hs fun _ _ hs => clrCounts hs)) (next hs)

theorem execClrErase {req : Fin 14} {cls : BitVec 8} {sel : BitVec 10} (hs : Moves s₀ s) :
    Ends s₀ (execClrErase req cls sel s) :=
  ite_ends (next (hubEach hs fun _ _ hs => clrErase hs)) (next hs)

theorem setMigPtr {p : Nat} (hs : Moves s₀ s) : Moves s₀ (s.setMigPtr p) := setPair (update hs rfl)

theorem startEvacuation {c : Nat} (hs : Moves s₀ s) : Moves s₀ (s.startEvacuation c) :=
  ite hs (ite (setMigPtr (update hs rfl)) (setMigPtr (setFld (setFld (setFld (update hs rfl))))))

theorem movePage (hs : Moves s₀ s) : Moves s₀ s.movePage := foldl (setMigPtr hs) fun _ _ hs => storeWord hs

/-! ### Commands of Ethernet -/

theorem deliverFrame {m stamp : Nat} {l : List Byte} {bad : Bool} (hs : Moves s₀ s) :
    Moves s₀ (s.deliverFrame m stamp l bad) := by
  unfold State.deliverFrame
  extract_lets
  split
  · refine ite (toRing hs) (ite hs ?_)
    split
    · exact uPlane hs
    · exact roePacket hs
    · exact hs
  · exact ite (toRing hs) (ite hs (addFld hs))

theorem execMacFrameRx {mac : Fin 24} {frame : List Byte} {sub : BitVec 20} {corrected uncorrected : Nat} (hs : Moves s₀ s) :
    Ends s₀ (execMacFrameRx mac frame sub corrected uncorrected s) := by
  unfold Machine.execMacFrameRx
  extract_lets _ s1 _ _ _ _ s2
  have h1 : Moves s₀ s1 := addFld (addFld hs)
  have h2 : Moves s₀ s2 := addFld h1
  exact ite_ends hs <| ite_ends (addFld h1) <| ite_ends (ite (deliverFrame h2) h2) <|
    ite_ends (macControl (countEvent (addFld h1))) <| ite_ends (deliverFrame (countEvent (addFld h1))) h1

theorem execRxDescDone {ring : Fin 256} (hs : Moves s₀ s) : Ends s₀ (execRxDescDone ring s) := by
  unfold Machine.execRxDescDone
  dsimp only
  split
  · exact next hs
  · exact next (ethComplete (foldl (setEthRing hs) fun _ _ hs => busPut (busPut hs)))

theorem txScan {ni r n i : Nat} {acc : List (Nat × List Word)} (hs : Moves s₀ s) : Moves s₀ (s.txScan ni r n i acc).2 := by
  induction n generalizing s i acc with
  | zero => exact hs
  | succ n ih =>
    unfold State.txScan
    split
    · exact ethNext (snd ‹_› (ethDesc hs))
    · rename_i d s1 e1
      split
      rename_i j s2 e2
      have h2 : Moves s₀ s2 := snd e2 (ethNext (snd e1 (ethDesc hs)))
      exact ite_snd h2 (ih h2)

theorem txNext {r : Nat} (hs : Moves s₀ s) : Moves s₀ (s.txNext r).2 := txScan hs

theorem txBytes {m ni : Nat} {ds : List (Nat × List Word)} (hs : Moves s₀ s) : Moves s₀ (s.txBytes m ni ds).2.2 := by
  unfold State.txBytes
  refine foldl_snd_snd hs fun _ _ hs => ite_snd_snd hs ?_
  split
  exact snd_snd ‹_› (unitGet hs)

theorem finishFrame {m stamp : Nat} {flags : Word} {l : List Byte} (hs : Moves s₀ s) :
    Moves s₀ (s.finishFrame m stamp flags l).2 := by
  unfold State.finishFrame
  dsimp only
  split
  · exact ite_snd (addFld hs) hs
  · exact hs

theorem txWriteBack {ni r stamp : Nat} {slots : List (Nat × Bool)} {aborted : Bool} (hs : Moves s₀ s) :
    Moves s₀ (s.txWriteBack ni r stamp slots aborted) :=
  foldl hs fun _ _ hs => busPut (ite (busPut hs) hs)

theorem grantRing {m r stamp : Nat} (hs : Moves s₀ s) : Moves s₀ (s.grantRing m r stamp) := by
  unfold State.grantRing
  split
  · exact snd ‹_› (txNext hs)
  · extract_lets _ _ s1
    have h1 : Moves s₀ s1 := setEthRing (snd ‹_› (txNext hs))
    refine ite (setFld (ethDiscard h1)) ?_
    split
    refine ite (ethComplete (addFld (txWriteBack (snd_snd ‹_› (txBytes h1))))) ?_
    split
    exact setMacSt (snd ‹_› (finishFrame (snd_snd ‹_› (txBytes h1))))

theorem execMacTxGrant {mac : Fin 24} {sub : BitVec 20} (hs : Moves s₀ s) : Ends s₀ (execMacTxGrant mac sub s) := by
  unfold Machine.execMacTxGrant
  refine ite_ends (next hs) ?_
  split
  · exact next hs
  · refine ite_ends ?_ (next (grantRing (setMacSt hs)))
    split
    · exact next (setMacSt (update (setMacSt hs) rfl))
    · exact next (setMacSt hs)

theorem execMacTxDone {mac : Fin 24} (hs : Moves s₀ s) : Ends s₀ (execMacTxDone mac s) := by
  unfold Machine.execMacTxDone
  extract_lets
  split
  · exact next hs
  · extract_lets _ s1 s2 s3
    have h1 : Moves s₀ s1 := addFld (setMacSt hs)
    have h2 : Moves s₀ s2 := countEvent h1
    have h3 : Moves s₀ s3 := ite (post (addFld h2)) h2
    exact ite_ends (next h3) (next (ethComplete (txWriteBack h3)))

theorem execPauseExpire {mac : Fin 24} {state : Fin 9} (hs : Moves s₀ s) : Ends s₀ (execPauseExpire mac state s) := by
  unfold Machine.execPauseExpire
  dsimp only
  split
  · exact ite_ends (next (setPause hs)) (next hs)
  · exact next hs

theorem execPauseBreak {mac : Fin 24} {state : Fin 9} (hs : Moves s₀ s) : Ends s₀ (execPauseBreak mac state s) :=
  next (pauseWatch hs)

theorem execPauseBreakEnd {mac : Fin 24} {state : Fin 9} (hs : Moves s₀ s) : Ends s₀ (execPauseBreakEnd mac state s) := by
  unfold Machine.execPauseBreakEnd
  dsimp only
  split
  · exact ite_ends (next (setPause hs)) (next hs)
  · exact next hs

theorem setXoff {m p n : Nat} (hs : Moves s₀ s) : Moves s₀ (s.setXoff m p n) := setMacSt hs

theorem execPfcXoff {mac : Fin 24} {prio : Fin 8} (hs : Moves s₀ s) : Ends s₀ (execPfcXoff mac prio s) :=
  ite_ends (next hs) (ite_ends (next (setXoff (sendPause hs))) (ite_ends (next (setXoff (sendPause hs))) (next hs)))

theorem execPfcRepeat {mac : Fin 24} {prio : Fin 8} (hs : Moves s₀ s) : Ends s₀ (execPfcRepeat mac prio s) :=
  ite_ends (next (setXoff (sendPause hs))) (next hs)

theorem execMacLinkLoss {mac : Fin 24} {localFault remoteFault : Bool} (hs : Moves s₀ s) :
    Ends s₀ (execMacLinkLoss mac localFault remoteFault s) :=
  ite_ends (next (endRecovery (macDown (reportFault (setFld (setFld hs)))))) (next hs)

theorem execMacLinkUp {mac : Fin 24} (hs : Moves s₀ s) : Ends s₀ (execMacLinkUp mac s) := by
  unfold Machine.execMacLinkUp
  refine ite_ends (next hs) ?_
  split
  extract_lets s1
  have h1 : Moves s₀ s1 := foldl hs fun _ _ hs => setFld (setFld hs)
  split
  extract_lets s2 s3
  have h2 : Moves s₀ s2 := setFld (setFld (snd ‹_› (takeFree h1)))
  have h3 : Moves s₀ s3 := setFld (setFld (setFld h2))
  exact next (post h3)

theorem tailWrite {r : Nat} {v : Word} (hs : Moves s₀ s) : Moves s₀ (s.tailWrite r v) := setFld hs

theorem tailBar4 {fn r : Nat} {v : Word} (hs : Moves s₀ s) : Moves s₀ (s.tailBar4 fn r v) := ite (tailWrite hs) hs

theorem execEthRingTail {req : Fin 14} {sel : BitVec 10} {bar4 : Option (Fin 16)} {value : Word} (hs : Moves s₀ s) :
    Ends s₀ (execEthRingTail req sel bar4 value s) := by
  unfold Machine.execEthRingTail
  split
  · exact next (tailBar4 hs)
  · exact next (hubEach hs fun _ _ hs => tailWrite hs)

theorem execFlowDataWrite {req : Fin 14} {sel : BitVec 10} {w : Fin 8} {value : Word} (hs : Moves s₀ s) :
    Ends s₀ (execFlowDataWrite req sel w value s) :=
  next (hubEach hs fun _ _ hs => setFlowWord hs)

theorem execFlowClrStats {req : Fin 14} {sel : BitVec 10} {value : Word} (hs : Moves s₀ s) :
    Ends s₀ (execFlowClrStats req sel value s) :=
  next (hubEach hs fun _ _ hs => ite (flowClear hs) hs)

theorem execMacActiveWrite {req : Fin 14} {sel : BitVec 10} {value : Word} (hs : Moves s₀ s) :
    Ends s₀ (execMacActiveWrite req sel value s) :=
  ite_ends (next (hubEach hs fun _ _ hs => macProtectWrite hs)) (next hs)

theorem closeWindow {c : Nat} {j : SymJob} (hs : Moves s₀ s) : Moves s₀ (s.closeWindow c j) := by
  unfold State.closeWindow
  dsimp only
  split
  · refine witClose (toWitness (setStrm (foldl_snd hs fun _ _ hs => ?_)))
    split
    · exact hs
    · exact chPut hs
  · refine witClose (toWitness (setStrm (chPut (foldl_snd hs fun _ _ hs => ?_))))
    split
    · exact hs
    · exact chPut hs

theorem execRxWindowClose {ch : Fin 512} (hs : Moves s₀ s) : Ends s₀ (execRxWindowClose ch s) := by
  unfold Machine.execRxWindowClose
  dsimp only
  split
  · exact next (closeWindow (setStrm hs))
  · split
    · exact next hs
    · exact ite_ends (next hs) (next (ite (closeWindow (setStrm hs)) (setStrm hs)))

/-! ### Views of registers -/

theorem readOne {req cls i off : Nat} (hs : Moves s₀ s) : Moves s₀ (s.readOne req cls i off).2 := by
  unfold State.readOne
  split
  · exact hs
  · exact ite (rxCwPop (foldl hs fun _ _ hs => holdFor hs)) (foldl hs fun _ _ hs => holdFor hs)

theorem csrRead {req cls sel off : Nat} (hs : Moves s₀ s) : Moves s₀ (s.csrRead req cls sel off).2 := by
  unfold State.csrRead
  refine ite_snd hs ?_
  split
  · exact readOne hs
  · exact hs

/-! ### Images -/

theorem bytesAt {a n : Nat} (hs : Moves s₀ s) : Moves s₀ (s.bytesAt a n).2 := readMem hs

theorem setImages {x : Images} (hs : Moves s₀ s) : Moves s₀ (s.setImages x) := update hs rfl

theorem dvorysUp {slot version : Nat} {host : Bool} (hs : Moves s₀ s) : Moves s₀ (s.dvorysUp slot version host) :=
  syncReady (setFld (setFld (setFld (setFld (setFld (setFld (setFld (setFld (setFld hs)))))))))

theorem bootSlotCheck {k : Nat} (hs : Moves s₀ s) : Moves s₀ (s.bootSlotCheck k) :=
  ite (dvorysUp (setFld (writeMem hs))) (ite (setFld (setFld (writeMem hs))) (setFld (writeMem hs)))

theorem bootPush {v : Word} (hs : Moves s₀ s) : Moves s₀ (s.bootPush v) :=
  ite (ite (dvorysUp (setFld (setFld (bytesAt hs)))) (setFld (bytesAt hs))) hs

/-! ### The CSR hub -/

theorem clrCounter {cls i k : Nat} (hs : Moves s₀ s) : Moves s₀ (s.clrCounter cls i k) := setReg (setReg hs)

theorem cntSelWrite {cls i off : Nat} {v : Word} (hs : Moves s₀ s) : Moves s₀ (s.cntSelWrite cls i off v) :=
  ite (storeReg hs) (clrCounter (storeReg hs))

theorem cntCtlWrite {cls i : Nat} {v : Word} (hs : Moves s₀ s) : Moves s₀ (s.cntCtlWrite cls i v) :=
  foldl (storeReg hs) fun _ _ hs => ite (clrCounter hs) hs

theorem modeReq {req : Nat} {v : Word} (hs : Moves s₀ s) : Moves s₀ (s.modeReq req v) := by
  unfold State.modeReq
  dsimp only
  split
  · exact modeDecision hs
  · exact modeDecision hs
  · exact beginMode (modeDecision hs)

theorem faultClear {v : Word} (hs : Moves s₀ s) : Moves s₀ (s.faultClear v) :=
  ite (foldl (ite (setFld (setFld hs)) hs) fun _ _ hs => setFld hs) (ite (setFld (setFld hs)) hs)

theorem sysWrite {req off : Nat} {v : Word} (hs : Moves s₀ s) : Moves s₀ (s.sysWrite req off v) :=
  ite (ite (modeReq hs) hs) (ite (faultClear hs) (storeReg hs))

theorem journalFit (hs : Moves s₀ s) : Moves s₀ s.journalFit := setFld (setFld (setFld hs))

theorem journalRegWrite {off : Nat} {v : Word} (hs : Moves s₀ s) : Moves s₀ (s.journalRegWrite off v) :=
  ite hs (ite (setFld hs) (ite (journalFit (storeReg hs)) (ite (setFld (storeReg hs)) (storeReg hs))))

theorem clkWrite {off : Nat} {v : Word} (hs : Moves s₀ s) : Moves s₀ (s.clkWrite off v) :=
  ite (ite (toFooting hs) hs) (storeReg hs)

theorem dispWrite {req off : Nat} {v : Word} (hs : Moves s₀ s) : Moves s₀ (s.dispWrite req off v) :=
  ite (cancelWrite hs) (storeReg hs)

theorem queueWrite {req q off : Nat} {v : Word} (hs : Moves s₀ s) : Moves s₀ (s.queueWrite req q off v) :=
  ite (dqueueClear hs) (ite (postWrite hs) (storeReg hs))

theorem keyWrite {req b off : Nat} {v : Word} (hs : Moves s₀ s) : Moves s₀ (s.keyWrite req b off v) :=
  ite (keySetCount hs) (ite (setReload hs) (ite (decKey hs) (ite (holdFor hs) (storeReg hs))))

theorem accountWrite {a off : Nat} {v : Word} (hs : Moves s₀ s) : Moves s₀ (s.accountWrite a off v) :=
  ite (ite (clrAccount hs) hs) (ite (adjust hs) (storeReg hs))

theorem niWrite {req ni off : Nat} {v : Word} (hs : Moves s₀ s) : Moves s₀ (s.niWrite req ni off v) := by
  unfold State.niWrite
  have stored {off : Nat} : Moves s₀ (s.storeReg 0x38 ni off v) := storeReg hs
  have flipped : Moves s₀ (if wordField v 0 0 = 1 then (s.storeReg 0x38 ni 0x000 v).flipEpoch ni else s.storeReg 0x38 ni 0x000
    v) :=
    ite (flipEpoch stored) stored
  have cleared : Moves s₀ (if wordField v 0 0 = 1 then s.clrNiHist ni else s) := ite (clrNiHist hs) hs
  exact ite (syncNi (ite (startCopy flipped) flipped)) <| ite (holdFor hs) <| ite (writeRouteHi hs) <|
    ite (ite (askFence hs) (ite (reqUnfence hs) hs)) <| ite (ite (clrNiBytes cleared) cleared) stored

theorem memCtlWrite {req cls i off : Nat} {v : Word} (hs : Moves s₀ s) : Moves s₀ (s.memCtlWrite req cls i off v) :=
  ite (ite (clrErase (ite (clrCounts hs) hs)) (ite (clrCounts hs) hs)) (ite (testOp hs) (ite (holdFor hs) (storeReg hs)))

theorem sampGeoWrite {n off : Nat} {v : Word} (hs : Moves s₀ s) : Moves s₀ (s.sampGeoWrite n off v) :=
  update (storeReg hs) rfl

theorem courseWrite {req n off : Nat} {v : Word} (hs : Moves s₀ s) : Moves s₀ (s.courseWrite req n off v) :=
  ite (coreEnWrite hs) (ite (sampGeoWrite hs) (memCtlWrite hs))

theorem msixAllocWrite {fn : Nat} {v : Word} (hs : Moves s₀ s) : Moves s₀ (s.msixAllocWrite fn v) :=
  update (storeReg hs) rfl

theorem keepRunWrite {k : Nat} {v : Word} (hs : Moves s₀ s) : Moves s₀ (s.keepRunWrite k v) :=
  ite (storeReg hs) (setReg (storeReg hs))

theorem loWrite {c : Nat} {v : Word} (hs : Moves s₀ s) : Moves s₀ (s.loWrite c v) := setStrm (storeReg hs)

theorem strmWrite {c off : Nat} {v : Word} (hs : Moves s₀ s) : Moves s₀ (s.strmWrite c off v) :=
  ite (loWrite hs) (ite (ite (commitArrive hs) hs) (storeReg hs))

theorem fftClear {e : Nat} {v : Word} (hs : Moves s₀ s) : Moves s₀ (s.fftClear e v) :=
  ite (setFld (ite (setFld hs) hs)) (ite (setFld hs) hs)

theorem tbWrite {n off : Nat} {v : Word} (hs : Moves s₀ s) : Moves s₀ (s.tbWrite n off v) :=
  ite (stepGo hs) (ite (gridWrite2 hs) (ite (servoCtl hs) (ite (offsetGo hs) (storeReg hs))))

theorem tddWrite {p off : Nat} {v : Word} (hs : Moves s₀ s) : Moves s₀ (s.tddWrite p off v) :=
  ite (syncPin (storeReg hs)) (ite (clrQueue hs) (ite (pushEdge hs) (storeReg hs)))

theorem vaultWrite {off : Nat} {v : Word} (hs : Moves s₀ s) : Moves s₀ (s.vaultWrite off v) :=
  ite (vaultCtl hs) (ite (geometryWrite hs) (ite (commandTrigger hs) (ite (releaseRgn hs) (storeReg hs))))

theorem vsWrite {i off : Nat} {v : Word} (hs : Moves s₀ s) : Moves s₀ (s.vsWrite i off v) :=
  ite (vstreamWrite (storeReg hs)) (storeReg hs)

theorem tallyWrite {d off : Nat} {v : Word} (hs : Moves s₀ s) : Moves s₀ (s.tallyWrite d off v) :=
  ite (tplLenWrite hs) (ite (tplData hs) (storeReg hs))

theorem gpioWrite {off : Nat} {v : Word} (hs : Moves s₀ s) : Moves s₀ (s.gpioWrite off v) :=
  ite (foldl (storeReg hs) fun _ _ hs => ite (gpioLevel hs) (gpioLevel hs)) (storeReg hs)

theorem dmaWrite {e off : Nat} {v : Word} (hs : Moves s₀ s) : Moves s₀ (s.dmaWrite e off v) :=
  ite (ite (setFld (storeReg hs)) (storeReg hs)) (ite (eventSet hs) (ite (eventClr hs) (storeReg hs)))

theorem dmaChWrite {req c off : Nat} {v : Word} (hs : Moves s₀ s) : Moves s₀ (s.dmaChWrite req c off v) :=
  ite (dmaCtl hs) (ite (ite (storeReg hs) hs) (ite (holdFor hs) (ite (holdFor hs) (ite (regHiWrite hs) (storeReg hs)))))

theorem macWrite {m off : Nat} {v : Word} (hs : Moves s₀ s) : Moves s₀ (s.macWrite m off v) :=
  ite (macsCheck (storeReg hs)) (ite (macProtectWrite hs) (storeReg hs))

theorem flowWrite {req off : Nat} {v : Word} (hs : Moves s₀ s) : Moves s₀ (s.flowWrite req off v) :=
  ite (holdFor hs) (ite (setFlowWord hs) (ite (ite (flowClear hs) hs) (storeReg hs)))

theorem traceSync (hs : Moves s₀ s) : Moves s₀ s.traceSync := update (tracePush hs) rfl

theorem traceWrite {off : Nat} {v : Word} (hs : Moves s₀ s) : Moves s₀ (s.traceWrite off v) :=
  ite (ite (traceSync (storeReg hs)) (storeReg hs)) (ite (ite (tracePush hs) hs) (storeReg hs))

theorem writeOne {req cls i off : Nat} {v : Word} (hs : Moves s₀ s) : Moves s₀ (s.writeOne req cls i off v) := by
  unfold State.writeOne
  exact ite (cntSelWrite hs) <| ite (cntCtlWrite hs) <| ite (storeReg hs) <| ite (sysWrite hs) <|
    ite (journalRegWrite hs) <| ite (clkWrite hs) <| ite (strmWrite hs) <| ite (strmWrite hs) <|
    ite (ite (fftClear hs) (storeReg hs)) <| ite (courseWrite hs) <| ite (ite (settCtl hs) (storeReg hs)) <|
    ite (ite (engCtl hs) (storeReg hs)) <| ite (dispWrite hs) <| ite (queueWrite hs) <| ite (keyWrite hs) <|
    ite (ite (tellerClear hs) (storeReg hs)) <| ite (accountWrite hs) <| ite (vaultWrite hs) <| ite (vsWrite hs) <|
    ite (tallyWrite hs) <| ite (niWrite hs) <| ite (ite (writeRouterCtl hs) (storeReg hs)) <| ite (dmaWrite hs) <|
    ite (dmaChWrite hs) <| ite (memCtlWrite hs) <| ite (ite (holdFor hs) (storeReg hs)) <|
    ite (ite (macsCheck (protoWrite hs)) (storeReg hs)) <|
    ite (ite (laneCtl hs) (ite (rxeqWrite hs) (ite (prbsWrite hs) (ite (recalGo hs) (storeReg hs))))) <|
    ite (ite (userCw hs) (ite (protectWrite hs) (storeReg hs))) <| ite (macWrite hs) <| ite (flowWrite hs) <|
    ite (ite (ethCtl hs) (ite (tailWrite hs) (storeReg hs))) <| ite (tbWrite hs) <| ite (tddWrite hs) <|
    ite (gpioWrite hs) <| ite (ite (bootPush hs) (storeReg hs)) <| ite (ite (msixAllocWrite hs) (storeReg hs)) <|
    ite (ite (storeReg (storeReg hs)) (storeReg hs)) <| ite (ite (keepRunWrite hs) (storeReg hs)) <|
    ite (traceWrite hs) (storeReg hs)

theorem csrWrite {req cls sel off : Nat} {v : Word} (hs : Moves s₀ s) : Moves s₀ (s.csrWrite req cls sel off v) :=
  ite hs (hubEach hs fun _ _ hs => writeOne hs)

theorem csrReadBytes {req a n : Nat} (hs : Moves s₀ s) : Moves s₀ (s.csrReadBytes req a n).2 :=
  foldl_snd hs fun _ _ hs => csrRead hs

theorem csrWriteBytes {req a : Nat} {l : List (Byte × Bool)} (hs : Moves s₀ s) : Moves s₀ (s.csrWriteBytes req a l) :=
  foldl hs fun _ _ hs => csrWrite hs

theorem reqRead {req ni port a n : Nat} (hs : Moves s₀ s) : Moves s₀ (s.reqRead req ni port a n).2.2 := by
  unfold State.reqRead
  split
  · exact csrReadBytes hs
  · exact hs
  · exact busGet hs

theorem reqWrite {req ni port a : Nat} {l : List (Byte × Bool)} (hs : Moves s₀ s) :
    Moves s₀ (s.reqWrite req ni port a l).2 := by
  unfold State.reqWrite
  split
  · exact csrWriteBytes hs
  · exact hs
  · exact busPut hs

theorem execRegisterWrite {req : Fin 14} {cls : BitVec 8} {sel offset : BitVec 10} {value : Word} (hs : Moves s₀ s) :
    Ends s₀ (execRegisterWrite req cls sel offset value s) :=
  next (csrWrite hs)

theorem execCreditLoRead {req : Fin 14} {sel : BitVec 10} (hs : Moves s₀ s) : Ends s₀ (execCreditLoRead req sel s) :=
  next (giveBack (csrRead hs))

theorem execCntSelWrite {req : Fin 14} {cls : BitVec 8} {sel : BitVec 10} {counter : Fin 8} {value : Word} (hs : Moves s₀ s) :
    Ends s₀ (execCntSelWrite req cls sel counter value s) :=
  next (csrWrite hs)

theorem execCntClr {req : Fin 14} {cls : BitVec 8} {sel : BitVec 10} {value : Word} (hs : Moves s₀ s) :
    Ends s₀ (execCntClr req cls sel value s) :=
  next (csrWrite hs)

theorem execModeReq {req : Fin 14} {target : BitVec 3} (hs : Moves s₀ s) : Ends s₀ (execModeReq req target s) :=
  next (csrWrite hs)

theorem execFaultClrMax {req : Fin 14} (hs : Moves s₀ s) : Ends s₀ (execFaultClrMax req s) := next (csrWrite hs)

theorem execFaultClrCounts {req : Fin 14} (hs : Moves s₀ s) : Ends s₀ (execFaultClrCounts req s) := next (csrWrite hs)

theorem execBootPush {req : Fin 14} {value : Word} (hs : Moves s₀ s) : Ends s₀ (execBootPush req value s) :=
  next (csrWrite hs)

theorem execSoftReset {req : Fin 14} {value : Word} (hs : Moves s₀ s) : Ends s₀ (execSoftReset req value s) :=
  next (csrWrite hs)

theorem execKeepRunWrite {req : Fin 14} {sel : BitVec 10} {value : Word} (hs : Moves s₀ s) :
    Ends s₀ (execKeepRunWrite req sel value s) :=
  next (csrWrite hs)

theorem execKeepCoreWfi {core : Fin 8} (hs : Moves s₀ s) : Ends s₀ (execKeepCoreWfi core s) :=
  ite_ends (next (setFld hs)) (next hs)

theorem execMsixAllocationWrite {req : Fin 14} {sel : BitVec 10} {value : Word} (hs : Moves s₀ s) :
    Ends s₀ (execMsixAllocationWrite req sel value s) :=
  next (csrWrite hs)

theorem execProtoWrite {req : Fin 14} {sel : BitVec 10} {value : Word} (hs : Moves s₀ s) :
    Ends s₀ (execProtoWrite req sel value s) :=
  next (csrWrite hs)

theorem execMark {req : Fin 14} {value : Word} (hs : Moves s₀ s) : Ends s₀ (execMark req value s) := next (csrWrite hs)

theorem execTraceEnable {req : Fin 14} {value : Word} (hs : Moves s₀ s) : Ends s₀ (execTraceEnable req value s) :=
  next (csrWrite hs)

/-! ### Service of transactions -/

theorem respond {ni : Nat} {f : Flit} {status : Nat} {words : List (List (Byte × Bool))} (hs : Moves s₀ s) :
    Moves s₀ (s.respond ni f status words) :=
  sendFlit (sendData hs)

theorem serve {f : Flit} {data : List (List (Byte × Bool))} (hs : Moves s₀ s) : Moves s₀ (s.serve f data).2.2 := by
  unfold State.serve
  split
  · extract_lets n a o bytes at_ reads memory
    have hm : Moves s₀ memory.2.2 := ite_snd_snd (readMem hs) (writeMem hs)
    clear_value memory reads
    refine ite_snd_snd hs (ite_snd_snd hs ?_)
    split
    · exact hm
    · exact hm
    · exact ite_snd_snd hs hm
    · exact ite_snd_snd hs hm
    · exact ite_snd_snd (csrReadBytes hs) (csrWriteBytes hs)
    · exact ite_snd_snd hs (hostWrite (atsFill hs))
    · exact hs
  · exact hs

theorem takeRequest {ni : Nat} {f : Flit} {l : List Flit} (hs : Moves s₀ s) : Moves s₀ (s.takeRequest ni f l) := by
  unfold State.takeRequest
  extract_lets s1 _ s2
  have h1 : Moves s₀ s1 := foldl hs fun _ _ hs => takeFlit hs
  have h2 : Moves s₀ s2 := atsFill h1
  exact ite (respond (dropData h1)) (ite (respond h1) (ite (update h2 rfl) (respond (serve h1))))

theorem execPacketEject {ni : Fin 64} {src : BitVec 8} {cls : BitVec 2} {headerGood : Bool} (hs : Moves s₀ s) :
    Ends s₀ (execPacketEject ni src cls headerGood s) := by
  unfold Machine.execPacketEject
  extract_lets s1
  have h1 : Moves s₀ s1 := meshUntil hs
  split
  · exact next h1
  · exact next (ite (takeRequest h1) (badHeader h1))

/-! ### Commands of the DMA engines -/

theorem ringWrite_some {n c : Nat} {bytes : List (Byte × Bool)} (e : s.ringWrite n c bytes = some t) (hs : Moves s₀ s) :
    Moves s₀ t := by
  unfold State.ringWrite at e
  extract_lets x k fn tail seq ph w7 a s1 next' s2 s3 dm s4 at e
  have h2 : Moves s₀ s2 := setFld (hostWrite hs)
  have h4 : Moves s₀ s4 := update (ite (setFld h2) h2) rfl
  split at e
  · cases e
  · cases e
    exact raise h4

theorem dmaGranted {c : Nat} (hs : Moves s₀ s) : Moves s₀ (s.dmaGranted c) := update hs rfl

theorem dmaGoto {c pc : Nat} (hs : Moves s₀ s) : Moves s₀ (s.dmaGoto c pc) := setDmaPc (setDch hs)

theorem dmaNext {c : Nat} (hs : Moves s₀ s) : Moves s₀ (s.dmaNext c) := dmaGoto hs

theorem dmaPass {c : Nat} (hs : Moves s₀ s) : Moves s₀ (s.dmaPass c) := dmaNext (setDmaState hs)

theorem dmaDo {c op : Nat} {ok : Nat → Bool} {f : State → Nat → State} (hs : Moves s₀ s)
    (hf : ∀ s w, Moves s₀ s → Moves s₀ (f s w)) : Moves s₀ (s.dmaDo c op ok f) := by
  unfold State.dmaDo
  split
  · exact ite (hf _ _ (dmaGranted hs)) hs
  · exact hs

theorem dmaRead {c a n : Nat} (hs : Moves s₀ s) : Moves s₀ (s.dmaRead c a n).2.2 := took (reqRead hs)

theorem tagPost {r c : Nat} (hs : Moves s₀ s) : Moves s₀ (s.tagPost r c) := setPosts hs

theorem dmaPut {c a : Nat} {l : List (Byte × Bool)} (hs : Moves s₀ s) : Moves s₀ (s.dmaPut c a l).2 :=
  ite (tagPost (reqWrite hs)) (reqWrite hs)

theorem dmaCount {c n : Nat} (hs : Moves s₀ s) : Moves s₀ (s.dmaCount c n) := setPair hs

theorem dmaAck {c : Nat} (hs : Moves s₀ s) : Moves s₀ (s.dmaAck c) := by
  unfold State.dmaAck
  dsimp only
  split
  · exact hs
  · exact ite hs (ite (addFld (dmaCount (setDch hs))) (dmaCount (setDch hs)))

theorem dmaIssued {c n : Nat} {current : Bool} (hs : Moves s₀ s) : Moves s₀ (s.dmaIssued c n current) := by
  unfold State.dmaIssued
  refine setDch (ite (dmaAck hs) (ite ?_ hs))
  split
  · exact dmaAck hs
  · exact hs

theorem dmaCopy {c w lim k : Nat} {m : DmaMove} (hs : Moves s₀ s) : Moves s₀ (State.dmaCopy c w lim k m s).2.2 := by
  induction k generalizing s m with
  | zero => exact hs
  | succ k ih =>
    unfold State.dmaCopy
    split
    · exact hs
    extract_lets n
    split
    · exact hs
    split
    rename_i st l s1 e1
    have h1 : Moves s₀ s1 := snd_snd e1 (dmaRead hs)
    split
    · exact dmaErr h1
    split
    rename_i st2 s2 e2
    have h2 : Moves s₀ s2 := snd e2 (dmaPut h1)
    split
    · exact dmaErr h2
    split
    · exact dmaIssued h2
    · exact ih (dmaIssued h2)

theorem dmaBegin {c w : Nat} (hs : Moves s₀ s) : Moves s₀ (s.dmaBegin c w) := ite hs (setDch (setFld hs))

theorem dmaTransfer {c w most : Nat} (hs : Moves s₀ s) : Moves s₀ (s.dmaTransfer c w most) := by
  unfold State.dmaTransfer
  extract_lets s1 x len from_ sp dp m lim
  have h1 : Moves s₀ s1 := dmaBegin hs
  clear_value s1 x len from_ sp dp m lim
  split
  rename_i ok m2 s2 e2
  have h2 : Moves s₀ s2 := snd_snd e2 (dmaCopy h1)
  exact ite (dmaNext (setDch (setDch h2))) (setDch h2)

theorem dmaMove {c w : Nat} (hs : Moves s₀ s) : Moves s₀ (s.dmaMove c w) := ite (dmaBegin hs) (dmaTransfer hs)

theorem dmaBurst {c : Nat} {withdrawn : Bool} (hs : Moves s₀ s) : Moves s₀ (s.dmaBurst c withdrawn) := by
  unfold State.dmaBurst
  extract_lets _ s1 s2
  have h1 : Moves s₀ s1 := addFld (setDmaState (dmaGranted hs))
  have h2 : Moves s₀ s2 := ite (addFld h1) h1
  split
  · exact ite hs (ite (ite hs (dmaTransfer h2)) (ite hs (dmaWait hs)))
  · exact hs

theorem dmaReleased {c w : Nat} {mark : Bool} (hs : Moves s₀ s) : Moves s₀ (s.dmaReleased c w mark) :=
  ite (ite (dmaHalt (setFld (dmaPass hs))) (setFld (dmaPass hs))) (dmaPass hs)

theorem dmaWaitKey {c w : Nat} (hs : Moves s₀ s) : Moves s₀ (s.dmaWaitKey c w) :=
  ite (dmaReleased hs) (dmaWait (update hs rfl))

theorem dmaMet {c : Nat} (hs : Moves s₀ s) : Moves s₀ (s.dmaMet c) := by
  unfold State.dmaMet
  refine ite hs ?_
  split
  · exact ite (dmaPass hs) hs
  · exact ite (dmaPass hs) hs
  · exact ite (dmaPass hs) hs
  · exact ite hs (dmaReleased (update hs rfl))
  · exact ite hs (setDmaState hs)
  · exact ite (setDmaState hs) hs
  · exact hs

theorem dmaSignal {c kind : Nat} {f : State → Nat → State} (hs : Moves s₀ s)
    (hf : ∀ s w, Moves s₀ s → Moves s₀ (f s w)) : Moves s₀ (s.dmaSignal c kind f) :=
  ite (dmaDo hs hf) hs

theorem dmaSignalRing {c w : Nat} (hs : Moves s₀ s) : Moves s₀ (s.dmaSignalRing c w) := by
  unfold State.dmaSignalRing
  extract_lets n p a
  refine ite (dmaWait hs) ?_
  split
  rename_i st l s1 e1
  have h1 : Moves s₀ s1 := snd_snd e1 (dmaRead hs)
  refine ite (dmaErr h1) ?_
  cases e2 : s1.ringWrite n c l with
  | none => exact dmaErr h1
  | some s2 =>
    have h2 (m : Dma) : Moves s₀ { s2 with dma := m } := update (ringWrite_some e2 h1) rfl
    exact dmaNext (dmaCount (ite (setDch (h2 _)) (h2 _)))

theorem dmaSetPtr {c mode : Nat} {f : State → Nat → Nat → State} (hs : Moves s₀ s)
    (hf : ∀ s k w, Moves s₀ s → Moves s₀ (f s k w)) : Moves s₀ (s.dmaSetPtr c mode f) :=
  dmaDo hs fun s _ hs => hf s _ _ hs

theorem dmaLoad {c r w : Nat} (hs : Moves s₀ s) : Moves s₀ (s.dmaLoad c r w) := by
  unfold State.dmaLoad
  extract_lets a
  split
  rename_i st l s1 e1
  have h1 : Moves s₀ s1 := snd_snd e1 (dmaRead hs)
  exact ite (dmaErr h1) (dmaNext (setDch h1))

theorem dmaFetch {c : Nat} (hs : Moves s₀ s) : Moves s₀ (s.dmaFetch c) := by
  unfold State.dmaFetch
  refine ite hs ?_
  extract_lets e pc a
  split
  · exact ite (dmaHalt hs) hs
  · split
    rename_i st l s1 e1
    have h1 : Moves s₀ s1 := snd_snd e1 (dmaRead hs)
    refine ite (dmaErr h1) ?_
    extract_lets old x s2
    have h2 : Moves s₀ s2 := update h1 rfl
    split
    · exact dmaHalt h2
    · exact h2

theorem execStart {req : Fin 14} {sel : BitVec 10} (hs : Moves s₀ s) : Ends s₀ (execStart req sel s) :=
  next (csrWrite hs)

theorem execDmaAbort {req : Fin 14} {sel : BitVec 10} (hs : Moves s₀ s) : Ends s₀ (execDmaAbort req sel s) :=
  next (csrWrite hs)

theorem execResume {req : Fin 14} {sel : BitVec 10} (hs : Moves s₀ s) : Ends s₀ (execResume req sel s) :=
  next (csrWrite hs)

theorem execDmaEnd {ch : Fin 128} (hs : Moves s₀ s) : Ends s₀ (execDmaEnd ch s) :=
  next (dmaDo hs fun _ _ hs => post (setDmaState (setDch hs)))

theorem execMove {ch : Fin 128} (hs : Moves s₀ s) : Ends s₀ (execMove ch s) := next (dmaDo hs fun _ _ hs => dmaMove hs)

theorem execMovec {ch : Fin 128} (hs : Moves s₀ s) : Ends s₀ (execMovec ch s) :=
  next (dmaDo hs fun _ _ hs => dmaMove hs)

theorem execLoop {ch : Fin 128} (hs : Moves s₀ s) : Ends s₀ (execLoop ch s) :=
  next (dmaDo hs fun _ _ hs => ite (dmaGoto hs) (dmaNext (setDch hs)))

theorem execEndloop {ch : Fin 128} (hs : Moves s₀ s) : Ends s₀ (execEndloop ch s) := by
  unfold Machine.execEndloop
  refine next (dmaDo hs fun _ _ hs => ?_)
  split
  · exact ite (dmaNext (setDch hs)) (dmaGoto (setDch hs))
  · exact hs

theorem execWaitEvent {ch : Fin 128} (hs : Moves s₀ s) : Ends s₀ (execWaitEvent ch s) :=
  next (dmaDo hs fun _ _ hs => ite (dmaNext (putFlag hs)) (dmaWait hs))

theorem execWaitReq {ch : Fin 128} (hs : Moves s₀ s) : Ends s₀ (execWaitReq ch s) :=
  next (dmaDo hs fun _ _ hs => ite (dmaNext hs) (dmaWait hs))

theorem execWaitTime {ch : Fin 128} (hs : Moves s₀ s) : Ends s₀ (execWaitTime ch s) :=
  next (dmaDo hs fun _ _ hs => ite (dmaNext hs) (dmaWait hs))

theorem execWaitKey {ch : Fin 128} (hs : Moves s₀ s) : Ends s₀ (execWaitKey ch s) :=
  next (dmaDo hs fun _ _ hs => dmaWaitKey hs)

theorem execDmaWaitMet {ch : Fin 128} (hs : Moves s₀ s) : Ends s₀ (execDmaWaitMet ch s) := next (dmaMet hs)

theorem execSignalEvent {ch : Fin 128} (hs : Moves s₀ s) : Ends s₀ (execSignalEvent ch s) :=
  next (dmaSignal hs fun _ _ hs => dmaNext (setFlag hs))

theorem execSignalKey {ch : Fin 128} (hs : Moves s₀ s) : Ends s₀ (execSignalKey ch s) :=
  next (dmaSignal hs fun _ _ hs => dmaNext (decKey hs))

theorem execSignalJournal {ch : Fin 128} (hs : Moves s₀ s) : Ends s₀ (execSignalJournal ch s) :=
  next (dmaSignal hs fun _ _ hs => dmaNext (post hs))

theorem execSignalIrq {ch : Fin 128} (hs : Moves s₀ s) : Ends s₀ (execSignalIrq ch s) :=
  next (dmaSignal hs fun _ _ hs => dmaNext (raise hs))

theorem execSignalRing {ch : Fin 128} (hs : Moves s₀ s) : Ends s₀ (execSignalRing ch s) :=
  next (ite (dmaSignal hs fun _ _ hs => dmaSignalRing hs) hs)

theorem execSetptrSet {ch : Fin 128} (hs : Moves s₀ s) : Ends s₀ (execSetptrSet ch s) :=
  next (dmaSetPtr hs fun _ _ _ hs => dmaNext (setDch hs))

theorem execSetptrAdd {ch : Fin 128} (hs : Moves s₀ s) : Ends s₀ (execSetptrAdd ch s) :=
  next (dmaSetPtr hs fun _ _ _ hs => dmaNext (setDch hs))

theorem execSetptrLoad {ch : Fin 128} (hs : Moves s₀ s) : Ends s₀ (execSetptrLoad ch s) :=
  next (dmaSetPtr hs fun _ _ _ hs => dmaLoad hs)

theorem execDmaNop {ch : Fin 128} (hs : Moves s₀ s) : Ends s₀ (execDmaNop ch s) :=
  next (dmaDo hs fun _ _ hs => dmaNext hs)

theorem execBadOp {ch : Fin 128} (hs : Moves s₀ s) : Ends s₀ (execBadOp ch s) := by
  unfold Machine.execBadOp
  refine next ?_
  split
  · split
    · exact dmaHalt hs
    · exact hs
  · exact hs

theorem execPacedBurst {ch : Fin 128} {withdrawn : Bool} (hs : Moves s₀ s) : Ends s₀ (execPacedBurst ch withdrawn s) :=
  next (dmaBurst hs)

theorem execDmaWriteAck {ch : Fin 128} (hs : Moves s₀ s) : Ends s₀ (execDmaWriteAck ch s) := next (dmaAck hs)

theorem execBusError {engine : Fin 4} (hs : Moves s₀ s) : Ends s₀ (execBusError engine s) := by
  unfold Machine.execBusError
  refine next ?_
  split
  · exact dmaBusError (update hs rfl)
  · exact hs

theorem execDmaFetchReturn {ch : Fin 128} (hs : Moves s₀ s) : Ends s₀ (execDmaFetchReturn ch s) := next (dmaFetch hs)

theorem execEventSet {req : Fin 14} {sel : BitVec 10} {word : Fin 2} {value : Word} (hs : Moves s₀ s) :
    Ends s₀ (execEventSet req sel word value s) :=
  next (csrWrite hs)

theorem execEventClr {req : Fin 14} {sel : BitVec 10} {word : Fin 2} {value : Word} (hs : Moves s₀ s) :
    Ends s₀ (execEventClr req sel word value s) :=
  next (csrWrite hs)

theorem execReqSwWrite {req : Fin 14} {sel : BitVec 10} {word : Fin 2} {value : Word} (hs : Moves s₀ s) :
    Ends s₀ (execReqSwWrite req sel word value s) :=
  next (csrWrite hs)

theorem execRegHiWrite {req : Fin 14} {sel : BitVec 10} {value : Word} (hs : Moves s₀ s) :
    Ends s₀ (execRegHiWrite req sel value s) :=
  next (csrWrite hs)

theorem execDataRingHead {fn : Fin 16} {ring : Fin 64} {value : BitVec 16} (hs : Moves s₀ s) :
    Ends s₀ (execDataRingHead fn ring value s) :=
  next (ringHead hs)

/-! ### Command packets -/

theorem pairRead {a n : Nat} (hs : Moves s₀ s) : Moves s₀ (s.pairRead a n).2.2 := took (reqRead hs)

theorem sqSlot {fn k : Nat} (hs : Moves s₀ s) : Moves s₀ (s.sqSlot fn k).2 := by
  unfold State.sqSlot
  refine ite_snd ?_ ?_
  · split
    exact snd_snd ‹_› (unitGet hs)
  · split
    exact took (snd_snd ‹_› (hostRead hs))

theorem sqWords {fn k n : Nat} (hs : Moves s₀ s) : Moves s₀ (s.sqWords fn k n).2 := by
  induction n with
  | zero => exact hs
  | succ n ih => exact sqSlot ih

theorem packetAt {fn : Nat} (hs : Moves s₀ s) : Moves s₀ (s.packetAt fn).2 := sqWords hs

theorem passSlots {fn n : Nat} (hs : Moves s₀ s) : Moves s₀ (s.passSlots fn n) := setPage hs

theorem takeSlots {fn n : Nat} (hs : Moves s₀ s) : Moves s₀ (s.takeSlots fn n) := update (passSlots hs) rfl

theorem reply {p : Packet} {st : Status} {detail : Nat} {results : List Word} (hs : Moves s₀ s) :
    Moves s₀ (s.reply p st detail results) :=
  answer hs

theorem replyOk {p : Packet} {results : List Word} (hs : Moves s₀ s) : Moves s₀ (s.replyOk p results) := reply hs

theorem packetRow {fn op : Nat} {f : State → Packet → State} (hs : Moves s₀ s)
    (hf : ∀ s p, Moves s₀ s → Moves s₀ (f s p)) : Moves s₀ (s.packetRow fn op f) := by
  unfold State.packetRow
  split
  · split
    rename_i p s1 e1
    refine ite ?_ hs
    extract_lets s2
    have h2 : Moves s₀ s2 := takeSlots (snd e1 (packetAt hs))
    split
    · exact reply h2
    · exact hf _ _ h2
  · exact hs

theorem acceptOp {p : Packet} {kind : LrKind} {params : List Word} {more : List Word} (hs : Moves s₀ s) :
    Moves s₀ (s.acceptOp p kind params more).2 :=
  reply (update hs rfl)

theorem dvWrite {p : Packet} {i off : Nat} {v : Word} (hs : Moves s₀ s) : Moves s₀ (s.dvWrite p i off v) :=
  ite hs (csrWrite hs)

theorem dvWrites {p : Packet} {l : List (Nat × Word)} (hs : Moves s₀ s) : Moves s₀ (s.dvWrites p l) :=
  foldl hs fun _ _ hs => foldl hs fun _ _ hs => dvWrite hs

theorem replyWritten {p : Packet} {barred : Bool} {results : List Word} (hs : Moves s₀ s) :
    Moves s₀ (s.replyWritten p barred results) :=
  ite (reply hs) (replyOk hs)

theorem configure {p : Packet} (hs : Moves s₀ s) : Moves s₀ (s.configure p) := replyWritten (dvWrites hs)

theorem dvReads {p : Packet} {offs : List Nat} (hs : Moves s₀ s) : Moves s₀ (s.dvReads p offs).2 :=
  foldl_snd hs fun _ _ hs => csrRead hs

theorem replyRegs {p : Packet} {offs : List Nat} (hs : Moves s₀ s) : Moves s₀ (s.replyRegs p offs) :=
  replyOk (dvReads hs)

theorem packetCommit {p : Packet} {ops : List (BitVec 16)} (hs : Moves s₀ s) : Moves s₀ (s.packetCommit p ops).2 := by
  unfold State.packetCommit
  split
  · dsimp only
    split
    · exact foldl hs fun _ _ hs => commitWrite hs
    · exact foldl hs fun _ _ hs => commitWrite hs
  · dsimp only
    split
    · exact foldl hs fun _ _ hs => commitWrite hs
    · exact foldl hs fun _ _ hs => commitWrite hs

theorem startUnfence {cls inst : Nat} (hs : Moves s₀ s) : Moves s₀ (s.startUnfence cls inst) := by
  unfold State.startUnfence
  split
  · exact hs
  · refine ite ?_ (ite (setFence hs) hs)
    split
    · refine ite (ite (setFence hs) (update (setFence hs) rfl)) (ite (setFence hs) ?_)
      split
      · exact ite (setFence hs) (askUnfence (setFence hs))
      · exact setFence hs
    · exact setFence hs

/-! ### Commands that answer packets -/

theorem execBadOpcode {fn : Fin 16} (hs : Moves s₀ s) : Ends s₀ (execBadOpcode fn s) :=
  ite_ends (ite_ends (next hs) (next (reply (takeSlots (packetAt hs))))) (next hs)

theorem execNop {fn : Fin 16} (hs : Moves s₀ s) : Ends s₀ (execNop fn s) := next (packetRow hs fun _ _ hs => replyOk hs)

theorem execIdentify {fn : Fin 16} (hs : Moves s₀ s) : Ends s₀ (execIdentify fn s) :=
  next (packetRow hs fun _ _ hs => replyOk hs)

theorem execModeGet {fn : Fin 16} (hs : Moves s₀ s) : Ends s₀ (execModeGet fn s) :=
  next (packetRow hs fun _ _ hs => replyOk hs)

theorem modeSet {p : Packet} (hs : Moves s₀ s) : Moves s₀ (s.modeSet p) := by
  unfold State.modeSet
  split
  dsimp only
  split
  · exact endOp (modeDecision (snd ‹_› (acceptOp hs)))
  · exact endOp (modeDecision (snd ‹_› (acceptOp hs)))
  · exact beginMode (modeDecision (snd ‹_› (acceptOp hs)))

theorem execModeSet {fn : Fin 16} (hs : Moves s₀ s) : Ends s₀ (execModeSet fn s) :=
  next (packetRow hs fun _ _ hs => modeSet hs)

theorem subscribe {p : Packet} (hs : Moves s₀ s) : Moves s₀ (s.subscribe p) := replyOk (setFnState hs)

theorem execEventSubscribe {fn : Fin 16} (hs : Moves s₀ s) : Ends s₀ (execEventSubscribe fn s) :=
  next (packetRow hs fun _ _ hs => subscribe hs)

theorem fnGrant {p : Packet} (hs : Moves s₀ s) : Moves s₀ (s.fnGrant p) := ite (setFnState (replyOk hs)) (replyOk hs)

theorem execFnGrant {fn : Fin 16} (hs : Moves s₀ s) : Ends s₀ (execFnGrant fn s) :=
  next (packetRow hs fun _ _ hs => fnGrant hs)

theorem setDiag {v : Nat} (hs : Moves s₀ s) : Moves s₀ (s.setDiag v) := setFld (setFld hs)

theorem diagWindow {p : Packet} (hs : Moves s₀ s) : Moves s₀ (s.diagWindow p) := replyOk (setDiag hs)

theorem execDiagWindow {fn : Fin 16} (hs : Moves s₀ s) : Ends s₀ (execDiagWindow fn s) :=
  next (packetRow hs fun _ _ hs => diagWindow hs)

theorem abortOp {p : Packet} (hs : Moves s₀ s) : Moves s₀ (s.abortOp p) := by
  unfold State.abortOp
  split
  · exact replyOk hs
  · exact ite (replyOk (setOp hs)) (replyOk hs)

theorem execAbort {fn : Fin 16} (hs : Moves s₀ s) : Ends s₀ (execAbort fn s) :=
  next (packetRow hs fun _ _ hs => abortOp hs)

theorem enumerate {p : Packet} (hs : Moves s₀ s) : Moves s₀ (s.enumerate p) := replyOk hs

theorem execEnumerate {fn : Fin 16} (hs : Moves s₀ s) : Ends s₀ (execEnumerate fn s) :=
  next (packetRow hs fun _ _ hs => enumerate hs)

theorem regRead {p : Packet} (hs : Moves s₀ s) : Moves s₀ (s.regRead p) := replyRegs hs

theorem execRegRead {fn : Fin 16} (hs : Moves s₀ s) : Ends s₀ (execRegRead fn s) :=
  next (packetRow hs fun _ _ hs => regRead hs)

theorem execRegWrite {fn : Fin 16} (hs : Moves s₀ s) : Ends s₀ (execRegWrite fn s) :=
  next (packetRow hs fun _ _ hs => configure hs)

theorem regModify {p : Packet} (hs : Moves s₀ s) : Moves s₀ (s.regModify p) :=
  replyWritten (foldl_snd hs fun _ _ hs => dvWrite (ite_snd hs (csrRead hs)))

theorem execRegModify {fn : Fin 16} (hs : Moves s₀ s) : Ends s₀ (execRegModify fn s) :=
  next (packetRow hs fun _ _ hs => regModify hs)

theorem execRegBlock {fn : Fin 16} (hs : Moves s₀ s) : Ends s₀ (execRegBlock fn s) :=
  next (packetRow hs fun _ _ hs => acceptOp hs)

theorem commitPacket {p : Packet} (hs : Moves s₀ s) : Moves s₀ (s.commitPacket p) :=
  ite (ite (endOp (reply (packetCommit (update hs rfl)))) (reply (packetCommit (update hs rfl)))) (replyOk (packetCommit hs))

theorem execCommit {fn : Fin 16} (hs : Moves s₀ s) : Ends s₀ (execCommit fn s) :=
  next (packetRow hs fun _ _ hs => commitPacket hs)

theorem commitStatePacket {p : Packet} (hs : Moves s₀ s) : Moves s₀ (s.commitStatePacket p) := by
  unfold State.commitStatePacket
  split
  exact replyOk (snd ‹_› (dvReads hs))

theorem execCommitState {fn : Fin 16} (hs : Moves s₀ s) : Ends s₀ (execCommitState fn s) :=
  next (packetRow hs fun _ _ hs => commitStatePacket hs)

theorem fencePacket {p : Packet} (hs : Moves s₀ s) : Moves s₀ (s.fencePacket p) :=
  foldl (acceptOp hs) fun _ _ hs => startFence hs

theorem execFenceUnit {fn : Fin 16} (hs : Moves s₀ s) : Ends s₀ (execFenceUnit fn s) :=
  next (packetRow hs fun _ _ hs => fencePacket hs)

theorem unfencePacket {p : Packet} (hs : Moves s₀ s) : Moves s₀ (s.unfencePacket p) :=
  ite (endOp (acceptOp hs)) (foldl (acceptOp hs) fun _ _ hs => startUnfence hs)

theorem execUnfenceUnit {fn : Fin 16} (hs : Moves s₀ s) : Ends s₀ (execUnfenceUnit fn s) :=
  next (packetRow hs fun _ _ hs => unfencePacket hs)

theorem execAccountSet {fn : Fin 16} (hs : Moves s₀ s) : Ends s₀ (execAccountSet fn s) :=
  next (packetRow hs fun _ _ hs => configure hs)

theorem execAccountRead {fn : Fin 16} (hs : Moves s₀ s) : Ends s₀ (execAccountRead fn s) :=
  next (packetRow hs fun _ _ hs => replyRegs hs)

theorem plan {p : Packet} (hs : Moves s₀ s) : Moves s₀ (s.plan p) := replyOk hs

theorem execPlan {fn : Fin 16} (hs : Moves s₀ s) : Ends s₀ (execPlan fn s) := next (packetRow hs fun _ _ hs => plan hs)

theorem execLedgerSet {fn : Fin 16} (hs : Moves s₀ s) : Ends s₀ (execLedgerSet fn s) :=
  next (packetRow hs fun _ _ hs => configure hs)

theorem calibrate {p : Packet} (hs : Moves s₀ s) : Moves s₀ (s.calibrate p) :=
  ite (endOp (acceptOp hs)) (foldl (acceptOp hs) fun _ _ hs => setFld hs)

theorem execMeterCalibrate {fn : Fin 16} (hs : Moves s₀ s) : Ends s₀ (execMeterCalibrate fn s) :=
  next (packetRow hs fun _ _ hs => calibrate hs)

theorem execQueueSet {fn : Fin 16} (hs : Moves s₀ s) : Ends s₀ (execQueueSet fn s) :=
  next (packetRow hs fun _ _ hs => configure hs)

theorem postTask {p : Packet} (hs : Moves s₀ s) : Moves s₀ (s.postTask p) := by
  unfold State.postTask
  split
  exact update (replyOk (snd ‹_› (accept hs))) rfl

theorem execTaskPost {fn : Fin 16} (hs : Moves s₀ s) : Ends s₀ (execTaskPost fn s) :=
  ite_ends (next (update (setPage hs) rfl)) (next (packetRow hs fun _ _ hs => postTask hs))

theorem retryPost {fn : Nat} (hs : Moves s₀ s) : Moves s₀ (s.retryPost fn) :=
  postTask (update (setPage (passSlots (packetAt hs))) rfl)

theorem execTaskPostRetry {fn : Fin 16} (hs : Moves s₀ s) : Ends s₀ (execTaskPostRetry fn s) :=
  next (ite (retryPost hs) hs)

theorem execPostAccept (hs : Moves s₀ s) : Ends s₀ (execPostAccept s) := by
  unfold Machine.execPostAccept
  refine ite_ends ?_ (next hs)
  split
  · split
    · exact next (grantPost hs)
    · split
      · exact next (retryPost hs)
      · exact next hs
  · exact next hs

theorem execKeystoneSet {fn : Fin 16} (hs : Moves s₀ s) : Ends s₀ (execKeystoneSet fn s) :=
  next (packetRow hs fun _ _ hs => configure hs)

theorem execKeystoneRead {fn : Fin 16} (hs : Moves s₀ s) : Ends s₀ (execKeystoneRead fn s) :=
  next (packetRow hs fun _ _ hs => replyRegs (dvWrites hs))

theorem execQueueStats {fn : Fin 16} (hs : Moves s₀ s) : Ends s₀ (execQueueStats fn s) :=
  next (packetRow hs fun _ _ hs => replyRegs hs)

theorem execVaultSet {fn : Fin 16} (hs : Moves s₀ s) : Ends s₀ (execVaultSet fn s) :=
  next (packetRow hs fun _ _ hs => configure hs)

theorem execVstreamSet {fn : Fin 16} (hs : Moves s₀ s) : Ends s₀ (execVstreamSet fn s) :=
  next (packetRow hs fun _ _ hs => configure hs)

theorem untilGranted {n : Nat} (hs : Moves s₀ s) : Moves s₀ (State.untilGranted n s) := by
  induction n generalizing s with
  | zero => exact hs
  | succ n ih => exact ite (ih (triggerStep hs)) hs

theorem triggerPacket {p : Packet} (hs : Moves s₀ s) : Moves s₀ (s.triggerPacket p) := by
  unfold State.triggerPacket
  split
  · exact replyOk (untilGranted (commandTrigger hs))
  · split
    exact replyOk (snd ‹_› (takeFree hs))

theorem execVaultTrigger {fn : Fin 16} (hs : Moves s₀ s) : Ends s₀ (execVaultTrigger fn s) :=
  next (packetRow hs fun _ _ hs => triggerPacket hs)

theorem exportPacket {p : Packet} (hs : Moves s₀ s) : Moves s₀ (s.exportPacket p) :=
  ite (endOp (post (acceptOp hs))) (setFld (setFld (acceptOp hs)))

theorem execVaultExport {fn : Fin 16} (hs : Moves s₀ s) : Ends s₀ (execVaultExport fn s) :=
  next (packetRow hs fun _ _ hs => exportPacket hs)

theorem execTallySet {fn : Fin 16} (hs : Moves s₀ s) : Ends s₀ (execTallySet fn s) :=
  next (packetRow hs fun _ _ hs => configure hs)

theorem execTemplateLoad {fn : Fin 16} (hs : Moves s₀ s) : Ends s₀ (execTemplateLoad fn s) :=
  next (packetRow hs fun _ _ hs => configure hs)

theorem execVaultStatus {fn : Fin 16} (hs : Moves s₀ s) : Ends s₀ (execVaultStatus fn s) := by
  unfold Machine.execVaultStatus
  refine packetRow hs fun s p hs => ?_
  split
  exact replyOk (snd ‹_› (dvReads hs))

theorem execTbRead {fn : Fin 16} (hs : Moves s₀ s) : Ends s₀ (execTbRead fn s) := by
  unfold Machine.execTbRead
  refine packetRow hs fun s p hs => ?_
  split
  exact replyOk (snd ‹_› (dvReads hs))

theorem execTbStep {fn : Fin 16} (hs : Moves s₀ s) : Ends s₀ (execTbStep fn s) :=
  next (packetRow hs fun _ _ hs => configure hs)

theorem execServoSet {fn : Fin 16} (hs : Moves s₀ s) : Ends s₀ (execServoSet fn s) :=
  next (packetRow hs fun _ _ hs => configure hs)

theorem execServoOffset {fn : Fin 16} (hs : Moves s₀ s) : Ends s₀ (execServoOffset fn s) :=
  next (packetRow hs fun _ _ hs => configure hs)

theorem execTddEdgeSet {fn : Fin 16} (hs : Moves s₀ s) : Ends s₀ (execTddEdgeSet fn s) :=
  next (packetRow hs fun _ _ hs => configure hs)

theorem execPtpPortSet {fn : Fin 16} (hs : Moves s₀ s) : Ends s₀ (execPtpPortSet fn s) :=
  next (packetRow hs fun _ _ hs => configure hs)

theorem memReadPacket {p : Packet} (hs : Moves s₀ s) : Moves s₀ (s.memReadPacket p) := by
  unfold State.memReadPacket
  extract_lets
  split
  have h1 := snd_snd ‹_› (pairRead hs)
  exact ite (reply h1) (reply h1)

theorem execMemRead {fn : Fin 16} (hs : Moves s₀ s) : Ends s₀ (execMemRead fn s) :=
  next (packetRow hs fun _ _ hs => memReadPacket hs)

theorem putWords {l : List (Nat × List (Byte × Bool))} {n : Nat} (hs : Moves s₀ s) : Moves s₀ (s.putWords l n).2.2 := by
  induction l generalizing s n with
  | nil => exact hs
  | cons p r ih =>
    obtain ⟨a, b⟩ := p
    unfold State.putWords
    split
    rename_i st s1 e1
    have h1 : Moves s₀ s1 := snd e1 (reqWrite hs)
    split
    · exact ih h1
    · exact h1

theorem memWritePacket {p : Packet} (hs : Moves s₀ s) : Moves s₀ (s.memWritePacket p) := by
  unfold State.memWritePacket
  extract_lets a
  split
  rename_i st n s1 e1
  have h1 : Moves s₀ s1 := snd_snd e1 (putWords hs)
  exact ite (replyWritten h1) (reply h1)

theorem execMemWrite {fn : Fin 16} (hs : Moves s₀ s) : Ends s₀ (execMemWrite fn s) :=
  next (packetRow hs fun _ _ hs => memWritePacket hs)

theorem execMemCopy {fn : Fin 16} (hs : Moves s₀ s) : Ends s₀ (execMemCopy fn s) :=
  next (packetRow hs fun _ _ hs => acceptOp hs)

theorem execSpallRead {fn : Fin 16} (hs : Moves s₀ s) : Ends s₀ (execSpallRead fn s) :=
  next (packetRow hs fun _ _ hs => replyRegs (dvWrites hs))

theorem execPageRetire {fn : Fin 16} (hs : Moves s₀ s) : Ends s₀ (execPageRetire fn s) :=
  next (packetRow hs fun _ _ hs => acceptOp hs)

theorem evacuatePacket {p : Packet} (hs : Moves s₀ s) : Moves s₀ (s.evacuatePacket p) := by
  unfold State.evacuatePacket
  dsimp only
  split
  · exact endOp (acceptOp hs)
  · exact startEvacuation (acceptOp hs)

theorem execChannelEvacuate {fn : Fin 16} (hs : Moves s₀ s) : Ends s₀ (execChannelEvacuate fn s) :=
  next (packetRow hs fun _ _ hs => evacuatePacket hs)

theorem execScrubSet {fn : Fin 16} (hs : Moves s₀ s) : Ends s₀ (execScrubSet fn s) :=
  next (packetRow hs fun _ _ hs => configure hs)

theorem ringWrites {p : Packet} (hs : Moves s₀ s) : Moves s₀ (s.ringWrites p) := csrWrite (csrWrite (csrWrite hs))

theorem dataRingSet {p : Packet} (hs : Moves s₀ s) : Moves s₀ (s.dataRingSet p) := replyOk (ringReset (ringWrites hs))

theorem execDataRingSet {fn : Fin 16} (hs : Moves s₀ s) : Ends s₀ (execDataRingSet fn s) :=
  next (packetRow hs fun _ _ hs => dataRingSet hs)

theorem quadPacket {p : Packet} (hs : Moves s₀ s) : Moves s₀ (s.quadPacket p) :=
  ite (endOp (acceptOp hs)) (foldl (acceptOp hs) fun _ _ hs => dvWrite hs)

theorem execQuadProtocolSet {fn : Fin 16} (hs : Moves s₀ s) : Ends s₀ (execQuadProtocolSet fn s) :=
  next (packetRow hs fun _ _ hs => quadPacket hs)

theorem execLaneSet {fn : Fin 16} (hs : Moves s₀ s) : Ends s₀ (execLaneSet fn s) :=
  next (packetRow hs fun _ _ hs => configure hs)

theorem recalPacket {p : Packet} (hs : Moves s₀ s) : Moves s₀ (s.recalPacket p) :=
  ite (endOp (acceptOp hs)) (foldl (acceptOp hs) fun _ _ hs => dvWrite hs)

theorem execLaneRecal {fn : Fin 16} (hs : Moves s₀ s) : Ends s₀ (execLaneRecal fn s) :=
  next (packetRow hs fun _ _ hs => recalPacket hs)

theorem execLaneStatus {fn : Fin 16} (hs : Moves s₀ s) : Ends s₀ (execLaneStatus fn s) :=
  next (packetRow hs fun _ _ hs => replyRegs hs)

theorem execAhnentSet {fn : Fin 16} (hs : Moves s₀ s) : Ends s₀ (execAhnentSet fn s) :=
  next (packetRow hs fun _ _ hs => configure hs)

theorem execMacSet {fn : Fin 16} (hs : Moves s₀ s) : Ends s₀ (execMacSet fn s) :=
  next (packetRow hs fun _ _ hs => configure hs)

theorem execFlowWrite {fn : Fin 16} (hs : Moves s₀ s) : Ends s₀ (execFlowWrite fn s) :=
  next (packetRow hs fun _ _ hs => configure hs)

theorem execProtectSet {fn : Fin 16} (hs : Moves s₀ s) : Ends s₀ (execProtectSet fn s) :=
  next (packetRow hs fun _ _ hs => configure hs)

theorem stagePacket {p : Packet} (hs : Moves s₀ s) : Moves s₀ (s.stagePacket p) := setImages (acceptOp hs)

theorem execImageStage {fn : Fin 16} (hs : Moves s₀ s) : Ends s₀ (execImageStage fn s) :=
  next (packetRow hs fun _ _ hs => stagePacket hs)

theorem execImageVerify {fn : Fin 16} (hs : Moves s₀ s) : Ends s₀ (execImageVerify fn s) :=
  next (packetRow hs fun _ _ hs => acceptOp hs)

theorem activatePacket {p : Packet} (hs : Moves s₀ s) : Moves s₀ (s.activatePacket p) :=
  ite (ite (setFld (acceptOp hs)) (reply hs)) (setE (setEng (acceptOp hs)))

theorem execImageActivate {fn : Fin 16} (hs : Moves s₀ s) : Ends s₀ (execImageActivate fn s) :=
  next (packetRow hs fun _ _ hs => activatePacket hs)

theorem execImageFlashWrite {fn : Fin 16} (hs : Moves s₀ s) : Ends s₀ (execImageFlashWrite fn s) :=
  next (packetRow hs fun _ _ hs => acceptOp hs)

theorem execImageStatus {fn : Fin 16} (hs : Moves s₀ s) : Ends s₀ (execImageStatus fn s) := by
  unfold Machine.execImageStatus
  refine next (packetRow hs fun _ _ hs => ?_)
  split
  exact replyOk (snd ‹_› (takeFree hs))

theorem execCounterSelect {fn : Fin 16} (hs : Moves s₀ s) : Ends s₀ (execCounterSelect fn s) :=
  next (packetRow hs fun _ _ hs => configure hs)

theorem counterPacket {p : Packet} (hs : Moves s₀ s) : Moves s₀ (s.counterPacket p) := replyOk hs

theorem execCounterRead {fn : Fin 16} (hs : Moves s₀ s) : Ends s₀ (execCounterRead fn s) :=
  next (packetRow hs fun _ _ hs => counterPacket hs)

theorem collectPacket {p : Packet} (hs : Moves s₀ s) : Moves s₀ (s.collectPacket p) := setFld (update (acceptOp hs) rfl)

theorem execCollectStart {fn : Fin 16} (hs : Moves s₀ s) : Ends s₀ (execCollectStart fn s) :=
  next (packetRow hs fun _ _ hs => collectPacket hs)

theorem execTraceSet {fn : Fin 16} (hs : Moves s₀ s) : Ends s₀ (execTraceSet fn s) :=
  next (packetRow hs fun _ _ hs => configure hs)

theorem journalPacket {p : Packet} (hs : Moves s₀ s) : Moves s₀ (s.journalPacket p) := by
  unfold State.journalPacket
  extract_lets n
  generalize List.range 3 = slots
  split
  refine reply (snd ‹_› (foldl_snd (a := ([], s)) hs fun b _ hb => ?_))
  split
  exact snd_snd ‹_› (unitGet hb)

theorem execJournalRead {fn : Fin 16} (hs : Moves s₀ s) : Ends s₀ (execJournalRead fn s) :=
  next (packetRow hs fun _ _ hs => journalPacket hs)

/-! ### Long-running operations -/

theorem blockRun {n : Nat} {o : LrOp} (hs : Moves s₀ s) : Moves s₀ (State.blockRun n o s).2.2 := by
  induction n generalizing s o with
  | zero => exact hs
  | succ n ih =>
    unfold State.blockRun
    split
    rename_i st l s1 e1
    have h1 : Moves s₀ s1 := snd_snd e1 (pairRead hs)
    split
    · exact h1
    split
    · exact h1
    · exact ih (csrWrite h1)

theorem execRegBlockDone {op : BitVec 16} (hs : Moves s₀ s) : Ends s₀ (execRegBlockDone op s) := by
  unfold Machine.execRegBlockDone
  split
  · exact next hs
  · exact next (endOp (blockRun hs))

theorem copyRun {n : Nat} {o : LrOp} (hs : Moves s₀ s) : Moves s₀ (State.copyRun n o s).2.2 := by
  induction n generalizing s o with
  | zero => exact hs
  | succ n ih =>
    unfold State.copyRun
    extract_lets k src dst
    split
    · exact hs
    split
    rename_i st l s1 e1
    have h1 : Moves s₀ s1 := snd_snd e1 (pairRead hs)
    split
    · exact h1
    split
    rename_i st2 s2 e2
    have h2 : Moves s₀ s2 := snd e2 (reqWrite h1)
    split
    · exact h2
    · exact ih h2

theorem execMemCopyDone {op : BitVec 16} (hs : Moves s₀ s) : Ends s₀ (execMemCopyDone op s) := by
  unfold Machine.execMemCopyDone
  split
  · exact hs
  · split
    exact endOp (snd_snd ‹_› (copyRun hs))

theorem execFenceUnitDone {op : BitVec 16} (hs : Moves s₀ s) : Ends s₀ (execFenceUnitDone op s) := by
  unfold Machine.execFenceUnitDone
  split
  · exact next hs
  · exact ite_ends (next (endOp hs)) (next hs)

theorem execUnfenceUnitDone {op : BitVec 16} (hs : Moves s₀ s) : Ends s₀ (execUnfenceUnitDone op s) := by
  unfold Machine.execUnfenceUnitDone
  split
  · exact hs
  · extract_lets step
    have moved {x : State × Bool × Bool} {i : Nat} (hx : Moves s₀ x.1) : Moves s₀ (step x i).1 := by
      obtain ⟨s, left, fault⟩ := x
      have hs : Moves s₀ s := hx
      dsimp only [step]
      split
      · exact hs
      · refine ite_fst (liftFence hs) (ite_fst ?_ (ite_fst hs hs))
        dsimp only
        exact setFence hs
    clear_value step
    split
    have h1 := fst ‹_› (foldl_fst hs fun _ _ hx => moved hx)
    exact ite_ends h1 (endOp h1)

theorem execMeterCalibrateDone {op : BitVec 16} {ok : Bool} {constants : List (BitVec 16 × BitVec 16)} (hs : Moves s₀ s) :
    Ends s₀ (execMeterCalibrateDone op ok constants s) := by
  unfold Machine.execMeterCalibrateDone
  split
  · exact next hs
  · extract_lets _ s1 s2
    have h1 : Moves s₀ s1 := foldl hs fun _ _ hs => setFld hs
    have h2 : Moves s₀ s2 := foldl h1 fun _ _ hs => post (setFld (setFld (setMeter hs)))
    exact ite_ends (next (endOp h2)) (next (endOp (foldl h1 fun _ _ hs => meterFault hs)))

theorem exportLeaf {o : LrOp} {x : Nat × Nat × RingLeaf} (hs : Moves s₀ s) : Moves s₀ (s.exportLeaf o x).2.2 := by
  unfold State.exportLeaf
  extract_lets ni a o'
  split
  rename_i st l s1 e1
  have h1 : Moves s₀ s1 := snd_snd e1 (unitGet hs)
  refine ite_snd_snd h1 (ite_snd_snd ?_ (ite_snd_snd (hostWrite h1) h1))
  split
  have h2 := snd ‹_› (busPut h1)
  exact ite_snd_snd h2 h2

theorem exportRun {o : LrOp} {n : Nat} (hs : Moves s₀ s) : Moves s₀ (s.exportRun o n).2.2 :=
  foldl_snd_snd hs fun _ _ hs => ite_snd_snd hs (exportLeaf hs)

theorem endExport {o : LrOp} {st : Status} {detail : Nat} (hs : Moves s₀ s) : Moves s₀ (s.endExport o st detail) :=
  ite (freeRgn (endOp (post (setFld (setFld hs))))) (endOp (post (setFld (setFld hs))))

theorem execExportDone {op : BitVec 16} (hs : Moves s₀ s) : Ends s₀ (execExportDone op s) := by
  unfold Machine.execExportDone
  split
  · exact next hs
  · exact ite_ends (next hs) (next (endExport (exportRun hs)))

theorem execPageRetireDone {op : BitVec 16} (hs : Moves s₀ s) : Ends s₀ (execPageRetireDone op s) := by
  unfold Machine.execPageRetireDone
  split
  · exact hs
  · rename_i o e
    extract_lets page
    split
    rename_i st n s1 e1
    refine endOp (snd_snd e1 (foldl_snd_snd hs fun b x hb => ?_))
    cases e2 : b.2.2.retirePage x page with
    | none => exact hb
    | some p => exact spallRetired (retirePage_some e2 hb)

theorem execEvacuatePageMove {op : BitVec 16} (hs : Moves s₀ s) : Ends s₀ (execEvacuatePageMove op s) := by
  unfold Machine.execEvacuatePageMove
  split
  · exact next hs
  · exact ite_ends (next (setOp (movePage hs))) (next hs)

theorem evacuatedCh {c : Nat} (hs : Moves s₀ s) : Moves s₀ (s.evacuatedCh c) :=
  setImages (setFld (setFld (setFld (update hs rfl))))

theorem execEvacuated {op : BitVec 16} (hs : Moves s₀ s) : Ends s₀ (execEvacuated op s) := by
  unfold Machine.execEvacuated
  split
  · exact next hs
  · refine ite_ends ?_ (next hs)
    split
    · exact next (endOp hs)
    · split
      · exact next (endOp (evacuatedCh hs))
      · exact next (startEvacuation (setOp (evacuatedCh hs)))

theorem execImageStageDone {op : BitVec 16} (hs : Moves s₀ s) : Ends s₀ (execImageStageDone op s) := by
  unfold Machine.execImageStageDone
  split
  · exact hs
  · extract_lets
    split
    rename_i e1
    have h1 := snd_snd e1 (ite_snd_snd hs (ite_snd_snd hs (hostRead hs)))
    split
    rename_i e2
    have h2 := snd e2 (ite_snd (busPut h1) h1)
    split
    have h3 := snd ‹_› (takeFree h2)
    exact ite_ends (endOp (setImages h3)) (endOp (setImages h3))

theorem execImageVerifyDone {op : BitVec 16} (hs : Moves s₀ s) : Ends s₀ (execImageVerifyDone op s) := by
  unfold Machine.execImageVerifyDone
  split
  · exact next hs
  · refine ite_ends ?_ (next (endOp hs))
    split
    refine ite_ends ?_ (next (endOp (setImages (snd ‹_› (bytesAt hs)))))
    split
    exact next (endOp (setImages (snd ‹_› (takeFree (snd ‹_› (bytesAt hs))))))

theorem reloadPair {p : Nat} (hs : Moves s₀ s) : Moves s₀ (s.reloadPair p) := setFld (setFld hs)

theorem execDvorysSwitch {op : BitVec 16} {pass : Bool} {micros : Word} (hs : Moves s₀ s) :
    Ends s₀ (execDvorysSwitch op pass micros s) := by
  unfold Machine.execDvorysSwitch
  split
  · exact next hs
  · exact ite_ends (next (endOp (satFld (setFld (setFld (setFld hs)))))) (next (endOp (ite (setFld (reloadPair hs)) hs)))

theorem execImageFlashWriteDone {op : BitVec 16} (hs : Moves s₀ s) : Ends s₀ (execImageFlashWriteDone op s) := by
  unfold Machine.execImageFlashWriteDone
  split
  · exact next hs
  · split
    refine ite_ends ?_ (next (endOp (snd ‹_› (takeFree hs))))
    split
    extract_lets _ _ s1 _ s2
    have h1 : Moves s₀ s1 := update (snd ‹_› (bytesAt (snd ‹_› (takeFree hs)))) rfl
    have h2 : Moves s₀ s2 := ite (setImages h1) h1
    exact next (endOp h2)

theorem collectList {c : Collect} (hs : Moves s₀ s) : Moves s₀ (s.collectList c).2 := by
  unfold State.collectList
  refine foldl_snd hs fun _ _ hs => ?_
  split
  exact snd_snd ‹_› (unitGet hs)

theorem putRecord {c : Collect} {a : Nat} {ws : List Word} (hs : Moves s₀ s) : Moves s₀ (s.putRecord c a ws).2 :=
  ite_snd hs (ite_snd (ite (tracePush (addFld (busPut hs))) (addFld (busPut hs))) (busPut hs))

theorem sweep {c : Collect} {n : Nat} (hs : Moves s₀ s) : Moves s₀ (s.sweep c n).2 := by
  unfold State.sweep
  split
  rename_i l s1 e1
  have h1 : Moves s₀ s1 := snd e1 (collectList hs)
  extract_lets reads base
  split
  exact foldl_snd (snd ‹_› (putRecord h1)) fun _ _ hs => putRecord hs

theorem setCollect {c : Option Collect} (hs : Moves s₀ s) : Moves s₀ (s.setCollect c) := update hs rfl

theorem execCollectSweep {late : Bool} (hs : Moves s₀ s) : Ends s₀ (execCollectSweep late s) := by
  unfold Machine.execCollectSweep
  split
  · exact next hs
  · exact ite_ends (next hs) (next (setCollect (sweep (ite (post (addFld hs)) hs))))

theorem endCollect {o : LrOp} {c : Collect} {st : Status} {detail : Nat} (hs : Moves s₀ s) :
    Moves s₀ (s.endCollect o c st detail) :=
  endOp (setFld (setCollect hs))

theorem execCollectDone {op : BitVec 16} (hs : Moves s₀ s) : Ends s₀ (execCollectDone op s) := by
  unfold Machine.execCollectDone
  split
  · exact ite_ends (next (endCollect hs)) (ite_ends (next (endCollect hs)) (next hs))
  · exact next hs

theorem execLrSafePointStop {op : BitVec 16} {units : Nat} (hs : Moves s₀ s) : Ends s₀ (execLrSafePointStop op units s) := by
  unfold Machine.execLrSafePointStop
  split
  · exact hs
  · split
    · split
      exact next (endOp (snd_snd ‹_› (blockRun hs)))
    · split
      split
      exact next (endOp (snd_snd ‹_› (copyRun hs)))
    · extract_lets
      split
      exact next (endExport (snd_snd ‹_› (exportRun hs)))
    · exact next (endOp (foldl hs fun _ _ hs => ite (movePage hs) hs))
    · split
      exact next (endOp (setImages (snd ‹_› (takeFree hs))))
    · split
      · split
        split
        exact next (endCollect (snd ‹_› (ite_snd hs (sweep hs))))
      · exact next (endOp hs)
    all_goals exact hs

theorem partMember {p : Packet} {n i : Nat} (hs : Moves s₀ s) : Moves s₀ (s.partMember p n i).2 :=
  foldl hs fun _ _ hs => dvWrite hs

theorem partWrites {p : Packet} {n m : Nat} (hs : Moves s₀ s) : Moves s₀ (s.partWrites p n m).2.2 := by
  unfold State.partWrites
  refine ite_snd_snd (putWords hs) (ite_snd_snd ?_ (ite_snd_snd (ite_snd_snd (setDiag hs) hs) (ite_snd_snd ?_ ?_)))
  · extract_lets _ _ s1 s2
    have h1 : Moves s₀ s1 := ite (csrWrite hs) hs
    exact ite_snd_snd (ringReset (ringWrites hs)) (ite (csrWrite h1) h1)
  · split
    exact snd ‹_› (partMember hs)
  · extract_lets _ before s1 s2
    have h1 : Moves s₀ s1 := foldl hs fun _ _ hs => partMember hs
    exact ite (partMember h1) h1

theorem cutPacket {n m : Nat} (hs : Moves s₀ s) : Moves s₀ (s.cutPacket n m) := by
  unfold State.cutPacket
  split
  · exact hs
  · refine ite hs ?_
    dsimp only
    split
    · exact reply (takeSlots (sqWords hs))
    · exact reply (partWrites (takeSlots (sqWords hs)))

theorem execPairMismatch {executing : Bool} {words : Nat} {member : BitVec 10} (hs : Moves s₀ s) :
    Ends s₀ (execPairMismatch executing words member s) := by
  unfold Machine.execPairMismatch
  extract_lets _ _ s1 _ s2 s3 s4 s5 s6
  have h1 : Moves s₀ s1 := satFld hs
  have h2 : Moves s₀ s2 := reportFault h1
  have h3 : Moves s₀ s3 := ite (cutPacket h2) h2
  have h4 : Moves s₀ s4 := setFld h3
  have h5 : Moves s₀ s5 := satFld (setFld h4)
  have h6 : Moves s₀ s6 := ite h5 (askMending (addFence h5))
  exact ite_ends (next hs) (ite_ends (next (endRecovery h6)) (next h4))

theorem execPairReloadDone {pass : Bool} (hs : Moves s₀ s) : Ends s₀ (execPairReloadDone pass s) := by
  unfold Machine.execPairReloadDone
  split
  · exact hs
  · extract_lets _ s1 s2 s3
    have h2 : Moves s₀ s2 := setFld (ite hs (reloadPair hs))
    have h3 : Moves s₀ s3 := ite (endRecovery h2) h2
    exact ite_ends hs (ite (liftFence h3) h3)

/-! ### The host interface -/

theorem sqTailWrite {fn : Nat} {v : BitVec 12} (hs : Moves s₀ s) : Moves s₀ (s.sqTailWrite fn v) := ite (setPage hs) hs

theorem cqHeadWrite {fn : Nat} {v : BitVec 12} (hs : Moves s₀ s) : Moves s₀ (s.cqHeadWrite fn v) := ite (setPage hs) hs

theorem stopRingOps {fn : Nat} {mute : Bool} (hs : Moves s₀ s) : Moves s₀ (s.stopRingOps fn mute) := update hs rfl

theorem ringCtlWrite {fn : Nat} {v : Word} (hs : Moves s₀ s) : Moves s₀ (s.ringCtlWrite fn v) :=
  ite (ite hs (stopRingOps (setPage hs))) (setPage hs)

theorem execSqTailDoorbell {fn : Fin 16} {index : BitVec 12} (hs : Moves s₀ s) : Ends s₀ (execSqTailDoorbell fn index s) :=
  next (sqTailWrite hs)

theorem execCqHeadDoorbell {fn : Fin 16} {index : BitVec 12} (hs : Moves s₀ s) : Ends s₀ (execCqHeadDoorbell fn index s) :=
  next (cqHeadWrite hs)

theorem execRingDisable {fn : Fin 16} (hs : Moves s₀ s) : Ends s₀ (execRingDisable fn s) :=
  next (ite (ringCtlWrite hs) hs)

theorem execQuiesced {fn : Fin 16} (hs : Moves s₀ s) : Ends s₀ (execQuiesced fn s) :=
  ite_ends (next (setFld hs)) (ite_ends (next (setPage hs)) (next hs))

theorem setVec {p : Nat} {v : MsixVec} (hs : Moves s₀ s) : Moves s₀ (s.setVec p v) := update hs rfl

theorem resetFn {fn : Nat} (hs : Moves s₀ s) : Moves s₀ (s.resetFn fn) :=
  setFld (setFld (update (foldl (setPage (stopRingOps hs)) fun _ _ hs => setVec hs) rfl))

theorem execFlr {fn : Fin 16} (hs : Moves s₀ s) : Ends s₀ (execFlr fn s) :=
  ite_ends (next (post (setFld (resetFn hs)))) (next hs)

theorem execIrqCoalTimer {fn : Fin 16} (hs : Moves s₀ s) : Ends s₀ (execIrqCoalTimer fn s) :=
  ite_ends (next (raise (setPage hs))) (next hs)

theorem msixTableWrite {fn off : Nat} {v : Word} (hs : Moves s₀ s) : Moves s₀ (s.msixTableWrite fn off v) :=
  ite (setVec hs) hs

theorem bar4Write {fn off : Nat} {v : Word} (hs : Moves s₀ s) : Moves s₀ (s.bar4Write fn off v) := by
  unfold State.bar4Write
  exact ite (msixTableWrite hs) <| ite (sqTailWrite hs) <| ite (cqHeadWrite hs) <| ite (ringHead hs) <| ite (tailBar4 hs) <|
    ite (tailBar4 hs) <| ite hs <| ite (ringCtlWrite hs) <| ite (setPage hs) <| ite hs <| ite (setPage hs) <|
    ite (setPage hs) hs

theorem execBar4RingPageWrite {fn : Fin 16} {offset : BitVec 16} {value : Word} (hs : Moves s₀ s) :
    Ends s₀ (execBar4RingPageWrite fn offset value s) :=
  ite_ends (next (bar4Write hs)) (next hs)

theorem bar0Blocked (hs : Moves s₀ s) : Moves s₀ s.bar0Blocked := satFld (satFld hs)

theorem setReply {status : Nat} {l : List (Byte × Bool)} (hs : Moves s₀ s) : Moves s₀ (s.setReply status l) :=
  update hs rfl

theorem execBar0Read {offset : BitVec 28} {dwords : Nat} (hs : Moves s₀ s) : Ends s₀ (execBar0Read offset dwords s) := by
  unfold Machine.execBar0Read
  refine ite_ends (next hs) (ite_ends ?_ (next (giveBack (setReply (bar0Blocked hs)))))
  split
  refine next (giveBack (setReply (snd ‹_› (foldl_snd hs fun _ _ hs => ?_))))
  split
  split
  exact snd ‹_› (csrRead hs)

theorem execBar0Write {offset : BitVec 28} {dwords : List (Word × BitVec 4)} (hs : Moves s₀ s) :
    Ends s₀ (execBar0Write offset dwords s) := by
  unfold Machine.execBar0Write
  refine ite_ends (next hs) (ite_ends (next (foldl hs fun _ _ hs => ?_)) (next (bar0Blocked hs)))
  split
  split
  exact ite (csrWrite hs) (addFld hs)

theorem bar2Refuse {k : Nat} (hs : Moves s₀ s) : Moves s₀ (s.bar2Refuse k) := ite (aer (addFld hs)) (aer (addFld hs))

theorem execBar2Read {offset : BitVec 36} {bytes : Nat} (hs : Moves s₀ s) : Ends s₀ (execBar2Read offset bytes s) := by
  unfold Machine.execBar2Read
  refine ite_ends (next hs) ?_
  split
  refine ite_ends (next (setReply (bar2Refuse hs))) ?_
  split
  split
  exact next (setReply (foldl (snd_snd ‹_› (unitGet hs)) fun _ _ hs => aer (addFld hs)))

theorem execBar2Write {offset : BitVec 36} {data : List Byte} {ep : Bool} (hs : Moves s₀ s) :
    Ends s₀ (execBar2Write offset data ep s) :=
  ite_ends (next hs) (ite_ends (next (bar2Refuse hs)) (next (busPut (ite (aer (addFld hs)) hs))))

theorem execMsixSend {vector : Fin 2048} (hs : Moves s₀ s) : Ends s₀ (execMsixSend vector s) :=
  ite_ends (writeHost (s := s.setVec _ _) (setVec hs)) hs

theorem hostAnswer {f : Flit} {status : Nat} {words : List (List (Byte × Bool))} (hs : Moves s₀ s) :
    Moves s₀ (s.hostAnswer f status words) :=
  respond (update hs rfl)

theorem hostGone (hs : Moves s₀ s) : Moves s₀ s.hostGone := foldl hs fun _ _ hs => hostAnswer hs

theorem setAnswers {a n : Nat} {x : HostAnswer} (hs : Moves s₀ s) : Moves s₀ (s.setAnswers a n x) := update hs rfl

theorem execPcieReadCompletion {fn : Fin 16} {addr : BitVec 64} {data : List Byte} {ep : Bool} (hs : Moves s₀ s) :
    Ends s₀ (execPcieReadCompletion fn addr data ep s) := by
  unfold Machine.execPcieReadCompletion
  split
  · exact next (ite (aer (addFld (hostAnswer hs))) (hostAnswer hs))
  · exact ite_ends (next hs) (next (setAnswers (writeHost hs)))

theorem execCplTimeout {fn : Fin 16} {addr : BitVec 64} {kind : Fin 3} (hs : Moves s₀ s) :
    Ends s₀ (execCplTimeout fn addr kind s) := by
  unfold Machine.execCplTimeout
  split
  · exact next (ite (aer (addFld (hostAnswer hs))) (ite (aer (hostAnswer hs)) (aer (hostAnswer hs))))
  · exact next (setAnswers hs)

theorem execAtsInvalidation {page : BitVec 64} {bytes : Nat} (hs : Moves s₀ s) :
    Ends s₀ (execAtsInvalidation page bytes s) :=
  next (update hs rfl)

theorem execPcieConfigWrite {fn : Fin 16} {bme msixEn : Bool} {timeout : BitVec 4} {ats : Bool} (hs : Moves s₀ s) :
    Ends s₀ (execPcieConfigWrite fn bme msixEn timeout ats s) :=
  ite_ends (next (update (setFld (setFld hs)) rfl)) (next hs)

theorem execPcieLinkUp {speed : BitVec 3} {width : BitVec 5} (hs : Moves s₀ s) : Ends s₀ (execPcieLinkUp speed width s) :=
  ite_ends (next (post (ite (setFld (setFld (setFld (setFld (update hs rfl))))) (setFld (setFld (setFld (update hs rfl)))))))
    (next hs)

theorem execPcieLinkDown (hs : Moves s₀ s) : Ends s₀ (execPcieLinkDown s) :=
  ite_ends (next (reportFault (post (update (hostGone (addFld (setFld hs))) rfl)))) (next hs)

theorem resetClass {cls : Nat} {insts : List Nat} (hs : Moves s₀ s) : Moves s₀ (s.resetClass cls insts) := hs.dropRegs

theorem execPerstNLow (hs : Moves s₀ s) : Ends s₀ (execPerstNLow s) := by
  unfold Machine.execPerstNLow
  refine ite_ends ?_ hs
  extract_lets s1 s2 s3 _ s4
  have h1 : Moves s₀ s1 := ite (post hs) hs
  have h2 : Moves s₀ s2 := foldl h1 fun _ _ hs => post (resetFn hs)
  have h3 : Moves s₀ s3 := resetClass (resetClass h2)
  have h4 : Moves s₀ s4 := hostGone (update h3 rfl)
  exact ite (post (setFld h4)) h4

theorem execPerstNHigh (hs : Moves s₀ s) : Ends s₀ (execPerstNHigh s) :=
  ite_ends (next hs) (next (ite (post (addFld (setFld (update hs rfl)))) (update hs rfl)))

/-! ### Modes -/

theorem moveDomains {p : Nat → Bool} {to_ : Nat} (hs : Moves s₀ s) : Moves s₀ (s.moveDomains p to_) :=
  foldl hs fun _ _ hs => ite (setFld hs) hs

theorem execBankedWfiTimeout (hs : Moves s₀ s) : Ends s₀ (execBankedWfiTimeout s) :=
  ite_ends (next (update hs rfl)) (next hs)

theorem execBankedEntry (hs : Moves s₀ s) : Ends s₀ (execBankedEntry s) := by
  unfold Machine.execBankedEntry
  exact ite_ends (moveDomains (quietPins (foldl (foldl (setVault hs) fun _ _ hs => macDown hs) fun _ _ hs =>
    setFld (setRxState (setTxState hs))))) hs

theorem wakeUp (hs : Moves s₀ s) : Moves s₀ s.wakeUp :=
  foldl (foldl (update (moveDomains hs) rfl) fun _ _ hs => setStrm hs) fun _ _ hs => laneUpdate hs

theorem writeAon (hs : Moves s₀ s) : Moves s₀ s.writeAon := by
  unfold State.writeAon
  extract_lets _ _ _ s1 s2
  have h1 : Moves s₀ s1 := update hs rfl
  have h2 : Moves s₀ s2 := ite (foldl h1 fun _ _ hs => journalWrite hs) (foldl h1 fun _ _ hs => countLost hs)
  exact update h2 rfl

theorem enterMode {t : Mode} (hs : Moves s₀ s) : Moves s₀ (s.enterMode t) := by
  unfold State.enterMode
  extract_lets _ _ s1 _ s2
  have h1 : Moves s₀ s1 := update hs rfl
  have h2 : Moves s₀ s2 := ite (update h1 rfl) h1
  exact ite (setFld (setFld h2)) h2

theorem abandonBanked {cause : Nat} (hs : Moves s₀ s) : Moves s₀ (s.abandonBanked cause) :=
  refuseBanked (wakeUp (toMending hs))

theorem execModeTransitionDone (hs : Moves s₀ s) : Ends s₀ (execModeTransitionDone s) := by
  unfold Machine.execModeTransitionDone
  split
  · exact hs
  · extract_lets next' op was s1 s2 s3 s4 s5
    have h1 : Moves s₀ s1 := ite (wakeUp hs) hs
    have h2 : Moves s₀ s2 := enterMode h1
    have h3 : Moves s₀ s3 := ite (writeAon h2) h2
    have h4 : Moves s₀ s4 := ite (setFld h3) h3
    have h5 : Moves s₀ s5 := by
      dsimp only [s5]
      split
      · exact endOp h4
      · exact h4
    refine ite_ends hs (ite_ends (abandonBanked hs) (next ?_))
    clear_value next'
    split
    · exact ite h5 (toMending h5)
    · exact h5

theorem execResetNLow (hs : Moves s₀ s) : Ends s₀ (execResetNLow s) :=
  ite_ends (next (update (toFooting hs) rfl)) (next hs)

theorem execThermalReset (hs : Moves s₀ s) : Ends s₀ (execThermalReset s) := next (update (toFooting hs) rfl)

theorem execDroopReset (hs : Moves s₀ s) : Ends s₀ (execDroopReset s) := next (toFooting hs)

theorem execVddIo18Low (hs : Moves s₀ s) : Ends s₀ (execVddIo18Low s) := next (update (toFooting hs) rfl)

theorem sampleBoot {pins : BitVec 3} (hs : Moves s₀ s) : Moves s₀ (s.sampleBoot pins) := update hs rfl

theorem execResetNRise {pins : BitVec 3} (hs : Moves s₀ s) : Ends s₀ (execResetNRise pins s) :=
  ite_ends (next hs) (next (ite (sampleBoot (update hs rfl)) (update hs rfl)))

theorem execInternalFootingEnd {pins : BitVec 3} (hs : Moves s₀ s) : Ends s₀ (execInternalFootingEnd pins s) :=
  ite_ends (next (sampleBoot (update hs rfl))) (next hs)

theorem bistFence {cls inst : Nat} (hs : Moves s₀ s) : Moves s₀ (s.bistFence cls inst) := by
  unfold State.bistFence
  refine ite ?_ hs
  split
  · exact update (setPort (foldl (addFence hs) fun _ _ hs => setNiFence hs)) rfl
  · exact addFence hs

theorem bedded (hs : Moves s₀ s) : Moves s₀ s.bedded := by
  unfold State.bedded
  extract_lets _ _ _ s1 s2 s3 s4
  have h1 : Moves s₀ s1 := restart hs rfl rfl rfl rfl rfl rfl rfl
  have h4 : Moves s₀ s4 := setFld (setFld (setReg h1))
  exact ite h4 (setFld h4)

theorem bistRepair {a : Nat} {column : Bool} (hs : Moves s₀ s) : Moves s₀ (s.bistRepair a column) :=
  ite (takeSpare hs) hs

theorem execBeddingDone {found : BistFound} {coreFail : Bool} (hs : Moves s₀ s) :
    Ends s₀ (execBeddingDone found coreFail s) := by
  unfold Machine.execBeddingDone
  refine ite_ends hs ?_
  extract_lets bist s1
  have h1 : Moves s₀ s1 := ite (foldl (bedded hs) fun _ _ hs => bistRepair hs) (bedded hs)
  exact ite_ends (setFld hs) (ite_ends (setFld (foldl h1 fun _ _ hs => bistFence hs)) h1)

theorem execBootImageCheck {source : Fin 3} (hs : Moves s₀ s) : Ends s₀ (execBootImageCheck source s) := by
  unfold Machine.execBootImageCheck
  refine ite_ends (next hs) ?_
  split
  · exact ite_ends (next (bootSlotCheck hs)) (next hs)
  · exact ite_ends (next (setFld hs)) (next hs)

theorem execBulkTrained {found : List (Bool × Bool × BitVec 3 × Nat)} (hs : Moves s₀ s) :
    Ends s₀ (execBulkTrained found s) := by
  unfold Machine.execBulkTrained
  refine ite_ends ?_ hs
  extract_lets _ l s1 s2 _ _ s3
  have h1 : Moves s₀ s1 := foldl hs fun _ _ hs => setFld (setFld (setFld (setFld hs)))
  have h3 : Moves s₀ s3 := update (ite h1 (setFld (setFld h1))) rfl
  exact syncReady (setFld (setFld h3))

theorem execBulkFilled (hs : Moves s₀ s) : Ends s₀ (execBulkFilled s) :=
  ite_ends (next (syncReady (setFld (foldl hs fun _ _ hs => ite (setFld (fillZero hs)) hs)))) (next hs)

theorem execAvsCal (hs : Moves s₀ s) : Ends s₀ (execAvsCal s) := ite_ends (next (syncReady (setFld hs))) (next hs)

theorem execMetersCal {constants : List (BitVec 16 × BitVec 16)} (hs : Moves s₀ s) : Ends s₀ (execMetersCal constants s) :=
  ite_ends (next (syncReady (setFld (foldl (foldl hs fun _ _ hs => setFld (setFld hs)) fun _ _ hs => setFld hs)))) (next hs)

/-! ### Commands of faults -/

theorem coreFault {c : Nat} (hs : Moves s₀ s) : Moves s₀ (s.coreFault c) := autoFence (reportFault hs)

theorem engineFault {u : Nat} (hs : Moves s₀ s) : Moves s₀ (s.engineFault u) := autoFence (reportFault hs)

theorem execCoreFault {core : Fin 192} (hs : Moves s₀ s) : Ends s₀ (execCoreFault core s) :=
  ite_ends (next (coreFault hs)) (next hs)

theorem execEngineFault {engine : Fin 40} (hs : Moves s₀ s) : Ends s₀ (execEngineFault engine s) :=
  ite_ends (next (engineFault hs)) (next hs)

theorem execCourseFenceAllowance {course : Fin 24} (hs : Moves s₀ s) : Ends s₀ (execCourseFenceAllowance course s) := by
  unfold Machine.execCourseFenceAllowance
  split
  · exact ite_ends (next (beginDrain hs)) (next hs)
  · exact next hs

theorem parityFault {cls inst : Nat} (hs : Moves s₀ s) : Moves s₀ (s.parityFault cls inst) :=
  endRecovery (reportFault hs)

theorem slotParity {u : Nat} (hs : Moves s₀ s) : Moves s₀ (s.slotParity u) := by
  unfold State.slotParity
  extract_lets s1
  have h1 : Moves s₀ s1 := ite (parityFault hs) (parityFault hs)
  split
  · exact reclaim h1
  · exact h1

theorem hubParity {req : Nat} (hs : Moves s₀ s) : Moves s₀ (s.hubParity req) := by
  unfold State.hubParity
  refine ite ?_ (ite (giveBack (parityFault hs)) (parityFault hs))
  split
  · exact ite (reply (takeSlots (packetAt (parityFault hs)))) (packetAt (parityFault hs))
  · exact parityFault hs

theorem fifoParity {cls : Nat} (hs : Moves s₀ s) : Moves s₀ (s.fifoParity cls) := by
  unfold State.fifoParity
  dsimp only
  split
  · exact countLost (update (parityFault hs) rfl)
  · exact parityFault hs

theorem lineParity {c : Nat} {again : Bool} (hs : Moves s₀ s) : Moves s₀ (s.lineParity c again) :=
  ite (dmaErr (update (parityFault hs) rfl)) (update (parityFault hs) rfl)

theorem descriptorParity {i : Nat} (hs : Moves s₀ s) : Moves s₀ (s.descriptorParity i) := by
  unfold State.descriptorParity
  dsimp only
  split
  · exact complete (putTask (foldl (parityFault hs) fun _ _ hs => ite (setSlot hs) hs))
  · exact parityFault hs

theorem keyParity {k : Nat} (hs : Moves s₀ s) : Moves s₀ (s.keyParity k) := setKey (parityFault hs)

theorem execUnitParity {entry : Fin 9} {index : Nat} {again : Bool} (hs : Moves s₀ s) :
    Ends s₀ (execUnitParity entry index again s) := by
  unfold Machine.execUnitParity
  refine next ?_
  split
  · exact ite (slotParity hs) hs
  · exact hubParity hs
  · exact fifoParity hs
  · exact ite (lineParity hs) hs
  · exact descriptorParity hs
  · exact ite (keyParity hs) hs
  · exact ite hs (ite (coreFault hs) (ite (engineFault hs) hs))
  · exact ite (setVault hs) hs
  · split
    · exact badHeader hs
    · exact hs

theorem execFaultStateDisagreement (hs : Moves s₀ s) : Ends s₀ (execFaultStateDisagreement s) :=
  next (update (setLevel (post (post (setPair (setFld (setFld (setFld (addFld hs)))))))) rfl)

/-! ### Power -/

theorem clearCourse {n : Nat} (hs : Moves s₀ s) : Moves s₀ (s.clearCourse n) := update hs rfl

theorem clearCode {c : Nat} (hs : Moves s₀ s) : Moves s₀ (s.clearCode c) := by
  unfold State.clearCode
  refine foldl hs fun _ _ hs => update ?_ rfl
  split
  · exact endOp hs
  · exact hs

theorem clearQuad {q : Nat} (hs : Moves s₀ s) : Moves s₀ (s.clearQuad q) := update hs rfl

theorem clearBulk {c : Nat} (hs : Moves s₀ s) : Moves s₀ (s.clearBulk c) := by
  unfold State.clearBulk
  extract_lets keep sel s1 ms s2 s3
  have h1 : Moves s₀ s1 := hs.dropRegs
  have h3 : Moves s₀ s3 := setFld (setFld (update h1 rfl))
  exact setFld (setFld (setFld h3))

theorem clearDomain {d : Nat} (hs : Moves s₀ s) : Moves s₀ (s.clearDomain d) := by
  unfold State.clearDomain
  extract_lets s1
  have h1 : Moves s₀ s1 := foldl hs fun _ _ hs => resetClass hs
  exact ite (clearCourse h1) (ite (clearCode h1) (ite (clearBulk h1) (ite (clearQuad h1) (ite (update h1 rfl) h1))))

theorem queuePower {d : Nat} (hs : Moves s₀ s) : Moves s₀ (s.queuePower d) := ite hs (update hs rfl)

theorem execPoweredOff {domain : Fin 78} (hs : Moves s₀ s) : Ends s₀ (execPoweredOff domain s) := by
  unfold Machine.execPoweredOff
  extract_lets d l s1 s2 s3
  have h1 : Moves s₀ s1 := setFld (setFld (clearDomain hs))
  have h3 : Moves s₀ s3 := foldl (post h1) fun _ _ hs => setFence hs
  exact ite_ends (ite (queuePower h3) h3) hs

theorem execPowerUpGrant {monitorsPass : Bool} (hs : Moves s₀ s) : Ends s₀ (execPowerUpGrant monitorsPass s) := by
  unfold Machine.execPowerUpGrant
  split
  · exact next (foldl (setFld (setFld (update hs rfl))) fun _ _ hs => ite (setFence hs) hs)
  · exact next hs

theorem reloadCode {c : Nat} (hs : Moves s₀ s) : Moves s₀ (s.reloadCode c) :=
  foldl hs fun _ _ hs => setE (setE (setE hs))

theorem refill {d : Nat} (hs : Moves s₀ s) : Moves s₀ (s.refill d) :=
  ite (reloadCode hs) (ite (foldl (fillZero hs) fun _ _ hs => fillZero hs) (ite (setFld (fillZero hs)) (ite (fillZero hs) hs)))

theorem upFence {f : Fence} (hs : Moves s₀ s) : Moves s₀ (s.upFence f) := by
  unfold State.upFence
  refine ite (ite (setFence hs) ?_) hs
  split
  · exact ite (setFence hs) (askUnfence (setFence hs))
  · exact setFence hs

theorem execPoweredUp {domain : Fin 78} (hs : Moves s₀ s) : Ends s₀ (execPoweredUp domain s) := by
  unfold Machine.execPoweredUp
  extract_lets _ _ _ s1 s2 s3 s4 s5 s6 s7
  have h1 : Moves s₀ s1 := update hs rfl
  have h2 : Moves s₀ s2 := addFld (refill h1)
  have h3 : Moves s₀ s3 := ite (setFld h2) h2
  have h4 : Moves s₀ s4 := post (setFld h3)
  have h5 : Moves s₀ s5 := foldl h4 fun _ _ hs => upFence hs
  have h6 : Moves s₀ s6 := ite (startSwitch h5) h5
  have h7 : Moves s₀ s7 := setFld h6
  exact ite_ends (ite_ends (next (foldl h7 fun _ _ hs => setFence hs)) (next h6)) (next hs)

theorem execAvsUpdate {millivolts : Nat} (hs : Moves s₀ s) : Ends s₀ (execAvsUpdate millivolts s) :=
  next (foldl (setFld hs) fun _ _ hs => ite (setFld hs) hs)

theorem execAvsAlarm {domain : Fin 78} (hs : Moves s₀ s) : Ends s₀ (execAvsAlarm domain s) :=
  ite_ends (next (post (update (setFld (addFld hs)) rfl))) (next hs)

theorem execAvsSettled {domain : Fin 78} (hs : Moves s₀ s) : Ends s₀ (execAvsSettled domain s) :=
  ite_ends (next (setFld (update hs rfl))) (next hs)

theorem execRefMissing (hs : Moves s₀ s) : Ends s₀ (execRefMissing s) :=
  ite_ends (next hs) (next (post (setFld (update hs rfl))))

theorem execRootRefRestored (hs : Moves s₀ s) : Ends s₀ (execRootRefRestored s) :=
  ite_ends (next (post (setFld (update hs rfl)))) (next hs)

/-! ### Counters, sampling and trace -/

theorem traceSample {n : Nat} {r : List Word} (hs : Moves s₀ s) : Moves s₀ (s.traceSample n r) := ite (tracePush hs) hs

theorem execSampleRingWrite {course : Fin 24} (hs : Moves s₀ s) : Ends s₀ (execSampleRingWrite course s) := by
  unfold Machine.execSampleRingWrite
  extract_lets n
  split
  · exact hs
  · extract_lets s1
    have h1 : Moves s₀ s1 := update hs rfl
    refine ite_ends hs ?_
    split
    split
    · exact sampleLost h1
    · split
      rename_i s2 e2
      have h2 : Moves s₀ s2 := snd e2 (busPut h1)
      extract_lets s3 _ s4
      have h3 : Moves s₀ s3 := setFld h2
      exact ite_ends (sampleLost h2) (traceSample (ite (update h3 rfl) h3))

theorem execTracePacketSend (hs : Moves s₀ s) : Ends s₀ (execTracePacketSend s) := by
  unfold Machine.execTracePacketSend
  split
  · exact next (setFld (traceLost (update hs rfl)))
  · exact next hs

theorem rootCycle (hs : Moves s₀ s) : Moves s₀ s.rootCycle := by
  unfold State.rootCycle
  refine ite hs (ite (update (ite hs (setFld (setFld hs))) rfl) ?_)
  split
  · split
    exact update (snd ‹_› (takeFree (ite hs (setFld (setFld hs))))) rfl
  · exact ite (setFld (update (ite hs (setFld (setFld hs))) rfl)) (ite hs (setFld (setFld hs)))

/-! ### The dispatch of commands -/

/-- Every command but the two that set DEVCLK ends in a next state, by moves alone. -/
theorem exec_ends {c : Instr} (hp : c ≠ .powerOnReset) (hf : c ≠ .fuseReadDone) (hs : Moves s₀ s) : Ends s₀ (exec c s) := by
  cases c with
  | registerWrite => exact execRegisterWrite (s := s) hs
  | journalGrant => exact execJournalGrant (s := s) hs
  | lost => exact execLost (s := s) hs
  | sqTailDoorbell => exact execSqTailDoorbell (s := s) hs
  | cqHeadDoorbell => exact execCqHeadDoorbell (s := s) hs
  | ringDisable => exact execRingDisable (s := s) hs
  | quiesced => exact execQuiesced (s := s) hs
  | flr => exact execFlr (s := s) hs
  | irqCoalTimer => exact execIrqCoalTimer (s := s) hs
  | badOpcode => exact execBadOpcode (s := s) hs
  | nop => exact execNop (s := s) hs
  | identify => exact execIdentify (s := s) hs
  | modeGet => exact execModeGet (s := s) hs
  | modeSet => exact execModeSet (s := s) hs
  | eventSubscribe => exact execEventSubscribe (s := s) hs
  | fnGrant => exact execFnGrant (s := s) hs
  | diagWindow => exact execDiagWindow (s := s) hs
  | abort => exact execAbort (s := s) hs
  | lrSafePointStop => exact execLrSafePointStop (s := s) hs
  | enumerate => exact execEnumerate (s := s) hs
  | regRead => exact execRegRead (s := s) hs
  | regWrite => exact execRegWrite (s := s) hs
  | regModify => exact execRegModify (s := s) hs
  | regBlock => exact execRegBlock (s := s) hs
  | regBlockDone => exact execRegBlockDone (s := s) hs
  | commit => exact execCommit (s := s) hs
  | commitState => exact execCommitState (s := s) hs
  | fenceUnit => exact execFenceUnit (s := s) hs
  | fenceUnitDone => exact execFenceUnitDone (s := s) hs
  | unfenceUnit => exact execUnfenceUnit (s := s) hs
  | unfenceUnitDone => exact execUnfenceUnitDone (s := s) hs
  | accountSet => exact execAccountSet (s := s) hs
  | accountRead => exact execAccountRead (s := s) hs
  | plan => exact execPlan (s := s) hs
  | ledgerSet => exact execLedgerSet (s := s) hs
  | meterCalibrate => exact execMeterCalibrate (s := s) hs
  | meterCalibrateDone => exact execMeterCalibrateDone (s := s) hs
  | queueSet => exact execQueueSet (s := s) hs
  | taskPost => exact execTaskPost (s := s) hs
  | taskPostRetry => exact execTaskPostRetry (s := s) hs
  | keystoneSet => exact execKeystoneSet (s := s) hs
  | keystoneRead => exact execKeystoneRead (s := s) hs
  | queueStats => exact execQueueStats (s := s) hs
  | vaultSet => exact execVaultSet (s := s) hs
  | vstreamSet => exact execVstreamSet (s := s) hs
  | vaultTrigger => exact execVaultTrigger (s := s) hs
  | vaultExport => exact execVaultExport (s := s) hs
  | exportDone => exact execExportDone (s := s) hs
  | tallySet => exact execTallySet (s := s) hs
  | templateLoad => exact execTemplateLoad (s := s) hs
  | vaultStatus => exact execVaultStatus (s := s) hs
  | tbRead => exact execTbRead (s := s) hs
  | tbStep => exact execTbStep (s := s) hs
  | servoSet => exact execServoSet (s := s) hs
  | servoOffset => exact execServoOffset (s := s) hs
  | tddEdgeSet => exact execTddEdgeSet (s := s) hs
  | ptpPortSet => exact execPtpPortSet (s := s) hs
  | memRead => exact execMemRead (s := s) hs
  | memWrite => exact execMemWrite (s := s) hs
  | memCopy => exact execMemCopy (s := s) hs
  | memCopyDone => exact execMemCopyDone (s := s) hs
  | spallRead => exact execSpallRead (s := s) hs
  | pageRetire => exact execPageRetire (s := s) hs
  | pageRetireDone => exact execPageRetireDone (s := s) hs
  | channelEvacuate => exact execChannelEvacuate (s := s) hs
  | evacuatePageMove => exact execEvacuatePageMove (s := s) hs
  | evacuated => exact execEvacuated (s := s) hs
  | scrubSet => exact execScrubSet (s := s) hs
  | dataRingSet => exact execDataRingSet (s := s) hs
  | quadProtocolSet => exact execQuadProtocolSet (s := s) hs
  | laneSet => exact execLaneSet (s := s) hs
  | laneRecal => exact execLaneRecal (s := s) hs
  | laneStatus => exact execLaneStatus (s := s) hs
  | ahnentSet => exact execAhnentSet (s := s) hs
  | macSet => exact execMacSet (s := s) hs
  | flowWrite => exact execFlowWrite (s := s) hs
  | protectSet => exact execProtectSet (s := s) hs
  | imageStage => exact execImageStage (s := s) hs
  | imageStageDone => exact execImageStageDone (s := s) hs
  | imageVerify => exact execImageVerify (s := s) hs
  | imageVerifyDone => exact execImageVerifyDone (s := s) hs
  | imageActivate => exact execImageActivate (s := s) hs
  | dvorysSwitch => exact execDvorysSwitch (s := s) hs
  | imageFlashWrite => exact execImageFlashWrite (s := s) hs
  | imageFlashWriteDone => exact execImageFlashWriteDone (s := s) hs
  | imageStatus => exact execImageStatus (s := s) hs
  | counterSelect => exact execCounterSelect (s := s) hs
  | counterRead => exact execCounterRead (s := s) hs
  | collectStart => exact execCollectStart (s := s) hs
  | collectDone => exact execCollectDone (s := s) hs
  | traceSet => exact execTraceSet (s := s) hs
  | journalRead => exact execJournalRead (s := s) hs
  | pairMismatch => exact execPairMismatch (s := s) hs
  | pairReloadDone => exact execPairReloadDone (s := s) hs
  | modeReq => exact execModeReq (s := s) hs
  | modeTransitionDone => exact execModeTransitionDone (s := s) hs
  | bankedWfiTimeout => exact execBankedWfiTimeout (s := s) hs
  | bankedEntry => exact execBankedEntry (s := s) hs
  | powerOnReset => exact absurd rfl hp
  | resetNLow => exact execResetNLow (s := s) hs
  | resetNRise => exact execResetNRise (s := s) hs
  | softReset => exact execSoftReset (s := s) hs
  | thermalReset => exact execThermalReset (s := s) hs
  | droopReset => exact execDroopReset (s := s) hs
  | internalFootingEnd => exact execInternalFootingEnd (s := s) hs
  | fuseReadDone => exact absurd rfl hf
  | beddingDone => exact execBeddingDone (s := s) hs
  | bootImageCheck => exact execBootImageCheck (s := s) hs
  | bootPush => exact execBootPush (s := s) hs
  | timingLock => exact execTimingLock (s := s) hs
  | bulkTrained => exact execBulkTrained (s := s) hs
  | bulkFilled => exact execBulkFilled (s := s) hs
  | avsCal => exact execAvsCal (s := s) hs
  | metersCal => exact execMetersCal (s := s) hs
  | lanesCal => exact execLanesCal (s := s) hs
  | commitArrive => exact execCommitArrive (s := s) hs
  | commitLock => exact execCommitLock (s := s) hs
  | symbolBoundary => exact execSymbolBoundary (s := s) hs
  | fftSymbolArrive => exact execFftSymbolArrive (s := s) hs
  | fftTransformDone => exact execFftTransformDone (s := s) hs
  | gridWritesAcked => exact execGridWritesAcked (s := s) hs
  | headerWriteAcked => exact execHeaderWriteAcked (s := s) hs
  | rxWindowClose => exact execRxWindowClose (s := s) hs
  | prachOccasion => exact execPrachOccasion (s := s) hs
  | txGridRead => exact execTxGridRead (s := s) hs
  | txGridReadDone => exact execTxGridReadDone (s := s) hs
  | paEnableChange => exact execPaEnableChange (s := s) hs
  | fftClearMax => exact execFftClearMax (s := s) hs
  | fftClearDrops => exact execFftClearDrops (s := s) hs
  | vmac => exact execVmac (s := s) hs
  | vmsu => exact execVmsu (s := s) hs
  | vmul => exact execVmul (s := s) hs
  | vcmacL => exact execVcmacL (s := s) hs
  | vcmacH => exact execVcmacH (s := s) hs
  | vcmacjL => exact execVcmacjL (s := s) hs
  | vcmacjH => exact execVcmacjH (s := s) hs
  | vaclr => exact execVaclr (s := s) hs
  | vald => exact execVald (s := s) hs
  | vamov => exact execVamov (s := s) hs
  | vared => exact execVared (s := s) hs
  | vext => exact execVext (s := s) hs
  | vexts => exact execVexts (s := s) hs
  | vextr => exact execVextr (s := s) hs
  | vextrs => exact execVextrs (s := s) hs
  | vadd => exact execVadd (s := s) hs
  | vadds => exact execVadds (s := s) hs
  | vsub => exact execVsub (s := s) hs
  | vsubs => exact execVsubs (s := s) hs
  | vmulq => exact execVmulq (s := s) hs
  | vshr => exact execVshr (s := s) hs
  | vshl => exact execVshl (s := s) hs
  | vshls => exact execVshls (s := s) hs
  | vand => exact execVand (s := s) hs
  | vor => exact execVor (s := s) hs
  | vxor => exact execVxor (s := s) hs
  | vmax => exact execVmax (s := s) hs
  | vmin => exact execVmin (s := s) hs
  | vabs => exact execVabs (s := s) hs
  | vneg => exact execVneg (s := s) hs
  | vconj => exact execVconj (s := s) hs
  | vswapiq => exact execVswapiq (s := s) hs
  | vcmpgt => exact execVcmpgt (s := s) hs
  | vcmpeq => exact execVcmpeq (s := s) hs
  | vsel => exact execVsel (s := s) hs
  | valign => exact execValign (s := s) hs
  | vbcast => exact execVbcast (s := s) hs
  | vmov => exact execVmov (s := s) hs
  | vnop => exact execVnop (s := s) hs
  | vld => exact execVld (s := s) hs
  | vst => exact execVst (s := s) hs
  | vldst => exact execVldst (s := s) hs
  | vldbc => exact execVldbc (s := s) hs
  | ldw => exact execLdw (s := s) hs
  | ldh => exact execLdh (s := s) hs
  | ldhu => exact execLdhu (s := s) hs
  | stw => exact execStw (s := s) hs
  | sth => exact execSth (s := s) hs
  | cmuq => exact execCmuq (s := s) hs
  | aadd => exact execAadd (s := s) hs
  | lnop => exact execLnop (s := s) hs
  | sadd => exact execSadd (s := s) hs
  | ssub => exact execSsub (s := s) hs
  | smul => exact execSmul (s := s) hs
  | sand => exact execSand (s := s) hs
  | sor => exact execSor (s := s) hs
  | sxor => exact execSxor (s := s) hs
  | sshl => exact execSshl (s := s) hs
  | sshr => exact execSshr (s := s) hs
  | sshru => exact execSshru (s := s) hs
  | sslt => exact execSslt (s := s) hs
  | ssltu => exact execSsltu (s := s) hs
  | smin => exact execSmin (s := s) hs
  | smax => exact execSmax (s := s) hs
  | saddi => exact execSaddi (s := s) hs
  | smovi => exact execSmovi (s := s) hs
  | smovhi => exact execSmovhi (s := s) hs
  | movm => exact execMovm (s := s) hs
  | movlc => exact execMovlc (s := s) hs
  | movl => exact execMovl (s := s) hs
  | movp => exact execMovp (s := s) hs
  | mova => exact execMova (s := s) hs
  | movb => exact execMovb (s := s) hs
  | movs => exact execMovs (s := s) hs
  | satclr => exact execSatclr (s := s) hs
  | beq => exact execBeq (s := s) hs
  | bne => exact execBne (s := s) hs
  | blt => exact execBlt (s := s) hs
  | bge => exact execBge (s := s) hs
  | j => exact execJ (s := s) hs
  | jal => exact execJal (s := s) hs
  | jr => exact execJr (s := s) hs
  | bpany => exact execBpany (s := s) hs
  | bpnone => exact execBpnone (s := s) hs
  | cstep => exact execCstep (s := s) hs
  | rep => exact execRep (s := s) hs
  | cturn => exact execCturn (s := s) hs
  | take => exact execTake (s := s) hs
  | takeWake => exact execTakeWake (s := s) hs
  | done => exact execDone (s := s) hs
  | fence => exact execFence (s := s) hs
  | trap => exact execTrap (s := s) hs
  | cmuw => exact execCmuw (s := s) hs
  | snop => exact execSnop (s := s) hs
  | illegal => exact execIllegal (s := s) hs
  | remoteLoadReturn => exact execRemoteLoadReturn (s := s) hs
  | storeAck => exact execStoreAck (s := s) hs
  | hang => exact execHang (s := s) hs
  | haltReq => exact execHaltReq (s := s) hs
  | coreHalt => exact execCoreHalt (s := s) hs
  | step => exact execStep (s := s) hs
  | coreEnWrite => exact execCoreEnWrite (s := s) hs
  | cmuCommandStart => exact execCmuCommandStart (s := s) hs
  | matmul => exact execMatmul (s := s) hs
  | matmulH => exact execMatmulH (s := s) hs
  | gram => exact execGram (s := s) hs
  | chol => exact execChol (s := s) hs
  | trsvL => exact execTrsvL (s := s) hs
  | trsvLh => exact execTrsvLh (s := s) hs
  | cholSolve => exact execCholSolve (s := s) hs
  | cmuNoOperation => exact execCmuNoOperation (s := s) hs
  | cmuStatusWrite => exact execCmuStatusWrite (s := s) hs
  | ldpcDecode => exact execLdpcDecode (s := s) hs
  | ldpcEncode => exact execLdpcEncode (s := s) hs
  | crc => exact execCrc (s := s) hs
  | polarDecode => exact execPolarDecode (s := s) hs
  | polarEncode => exact execPolarEncode (s := s) hs
  | turboDecode => exact execTurboDecode (s := s) hs
  | turboEncode => exact execTurboEncode (s := s) hs
  | harqCombine => exact execHarqCombine (s := s) hs
  | jobTypeMismatch => exact execJobTypeMismatch (s := s) hs
  | jobEnd => exact execJobEnd (s := s) hs
  | engineHang => exact execEngineHang (s := s) hs
  | engineResetDone => exact execEngineResetDone (s := s) hs
  | takeEnWrite => exact execTakeEnWrite (s := s) hs
  | ucodeLoadDone => exact execUcodeLoadDone (s := s) hs
  | ucodeSwitch => exact execUcodeSwitch (s := s) hs
  | dqueuePost => exact execDqueuePost (s := s) hs
  | postAccept => exact execPostAccept (s := s) hs
  | postRead => exact execPostRead (s := s) hs
  | keystoneSetCount => exact execKeystoneSetCount (s := s) hs
  | keystoneSetReload => exact execKeystoneSetReload (s := s) hs
  | keystoneDec => exact execKeystoneDec (s := s) hs
  | tellerFill => exact execTellerFill (s := s) hs
  | slotAgeReclaim => exact execSlotAgeReclaim (s := s) hs
  | taskCompletion => exact execTaskCompletion (s := s) hs
  | dispCancel => exact execDispCancel (s := s) hs
  | dqueueClrMax => exact execDqueueClrMax (s := s) hs
  | dqueueClrHist => exact execDqueueClrHist (s := s) hs
  | tellerClrHist => exact execTellerClrHist (s := s) hs
  | meterStep => exact execMeterStep (s := s) hs
  | meterFault => exact execMeterFault (s := s) hs
  | meterReferenceCheck => exact execMeterReferenceCheck (s := s) hs
  | periodClose => exact execPeriodClose (s := s) hs
  | adjust => exact execAdjust (s := s) hs
  | accountClrStats => exact execAccountClrStats (s := s) hs
  | domainPark => exact execDomainPark (s := s) hs
  | domainUnpark => exact execDomainUnpark (s := s) hs
  | leafGrant => exact execLeafGrant (s := s) hs
  | leafWriteDone => exact execLeafWriteDone (s := s) hs
  | vaultEnable => exact execVaultEnable (s := s) hs
  | vaultGeometryWrite => exact execVaultGeometryWrite (s := s) hs
  | trigger => exact execTrigger (s := s) hs
  | pinTrigger => exact execPinTrigger (s := s) hs
  | triggerGrant => exact execTriggerGrant (s := s) hs
  | regionRelease => exact execRegionRelease (s := s) hs
  | tallyAgcBlock => exact execTallyAgcBlock (s := s) hs
  | tallyDetection => exact execTallyDetection (s := s) hs
  | tallySymbol => exact execTallySymbol (s := s) hs
  | tallyRecordAcked => exact execTallyRecordAcked (s := s) hs
  | tplData => exact execTplData (s := s) hs
  | niInject => exact execNiInject (s := s) hs
  | packetEject => exact execPacketEject (s := s) hs
  | responseArrive => exact execResponseArrive (s := s) hs
  | linkReplay => exact execLinkReplay (s := s) hs
  | linkFailed => exact execLinkFailed (s := s) hs
  | niLinkDown => exact execNiLinkDown (s := s) hs
  | detour => exact execDetour (s := s) hs
  | txnTimeout => exact execTxnTimeout (s := s) hs
  | fenceReq => exact execFenceReq (s := s) hs
  | unfenceReq => exact execUnfenceReq (s := s) hs
  | niFence => exact execNiFence (s := s) hs
  | drainDone => exact execDrainDone (s := s) hs
  | forceDrain => exact execForceDrain (s := s) hs
  | niUnfence => exact execNiUnfence (s := s) hs
  | epochFlip => exact execEpochFlip (s := s) hs
  | copy => exact execCopy (s := s) hs
  | copyDone => exact execCopyDone (s := s) hs
  | routeHiWrite => exact execRouteHiWrite (s := s) hs
  | inServiceWrite => exact execInServiceWrite (s := s) hs
  | linkEnWrite => exact execLinkEnWrite (s := s) hs
  | linkRetrainDone => exact execLinkRetrainDone (s := s) hs
  | niClrHist => exact execNiClrHist (s := s) hs
  | niClrBytes => exact execNiClrBytes (s := s) hs
  | start => exact execStart (s := s) hs
  | dmaAbort => exact execDmaAbort (s := s) hs
  | resume => exact execResume (s := s) hs
  | dmaEnd => exact execDmaEnd (s := s) hs
  | move => exact execMove (s := s) hs
  | movec => exact execMovec (s := s) hs
  | loop => exact execLoop (s := s) hs
  | endloop => exact execEndloop (s := s) hs
  | waitEvent => exact execWaitEvent (s := s) hs
  | waitReq => exact execWaitReq (s := s) hs
  | waitTime => exact execWaitTime (s := s) hs
  | waitKey => exact execWaitKey (s := s) hs
  | dmaWaitMet => exact execDmaWaitMet (s := s) hs
  | signalEvent => exact execSignalEvent (s := s) hs
  | signalKey => exact execSignalKey (s := s) hs
  | signalJournal => exact execSignalJournal (s := s) hs
  | signalIrq => exact execSignalIrq (s := s) hs
  | signalRing => exact execSignalRing (s := s) hs
  | setptrSet => exact execSetptrSet (s := s) hs
  | setptrAdd => exact execSetptrAdd (s := s) hs
  | setptrLoad => exact execSetptrLoad (s := s) hs
  | dmaNop => exact execDmaNop (s := s) hs
  | badOp => exact execBadOp (s := s) hs
  | pacedBurst => exact execPacedBurst (s := s) hs
  | dmaWriteAck => exact execDmaWriteAck (s := s) hs
  | busError => exact execBusError (s := s) hs
  | dmaFetchReturn => exact execDmaFetchReturn (s := s) hs
  | eventSet => exact execEventSet (s := s) hs
  | eventClr => exact execEventClr (s := s) hs
  | reqSwWrite => exact execReqSwWrite (s := s) hs
  | regHiWrite => exact execRegHiWrite (s := s) hs
  | dataRingHead => exact execDataRingHead (s := s) hs
  | scrubRead => exact execScrubRead (s := s) hs
  | scrubRewrite => exact execScrubRewrite (s := s) hs
  | repaired => exact execRepaired (s := s) hs
  | rawRead => exact execRawRead (s := s) hs
  | rawWrite => exact execRawWrite (s := s) hs
  | decodedRead => exact execDecodedRead (s := s) hs
  | clrCounts => exact execClrCounts (s := s) hs
  | clrErase => exact execClrErase (s := s) hs
  | protoWrite => exact execProtoWrite (s := s) hs
  | switched => exact execSwitched (s := s) hs
  | recalGo => exact execRecalGo (s := s) hs
  | recalDone => exact execRecalDone (s := s) hs
  | adaptWindow => exact execAdaptWindow (s := s) hs
  | txEnWrite => exact execTxEnWrite (s := s) hs
  | ahnentTxMultiframe => exact execAhnentTxMultiframe (s := s) hs
  | ahnentRxMultiframe => exact execAhnentRxMultiframe (s := s) hs
  | ahnentTrainDone => exact execAhnentTrainDone (s := s) hs
  | ahnentAlignTimeout => exact execAhnentAlignTimeout (s := s) hs
  | idleEnter => exact execIdleEnter (s := s) hs
  | idleExit => exact execIdleExit (s := s) hs
  | ahnentRxIdle => exact execAhnentRxIdle (s := s) hs
  | userCw => exact execUserCw (s := s) hs
  | ahnentActiveWrite => exact execAhnentActiveWrite (s := s) hs
  | rxCwRead => exact execRxCwRead (s := s) hs
  | macFrameRx => exact execMacFrameRx (s := s) hs
  | rxDescDone => exact execRxDescDone (s := s) hs
  | macTxGrant => exact execMacTxGrant (s := s) hs
  | macTxDone => exact execMacTxDone (s := s) hs
  | pauseExpire => exact execPauseExpire (s := s) hs
  | pauseBreak => exact execPauseBreak (s := s) hs
  | pauseBreakEnd => exact execPauseBreakEnd (s := s) hs
  | pfcXoff => exact execPfcXoff (s := s) hs
  | pfcRepeat => exact execPfcRepeat (s := s) hs
  | macLinkLoss => exact execMacLinkLoss (s := s) hs
  | ethRingTail => exact execEthRingTail (s := s) hs
  | flowDataWrite => exact execFlowDataWrite (s := s) hs
  | flowClrStats => exact execFlowClrStats (s := s) hs
  | macActiveWrite => exact execMacActiveWrite (s := s) hs
  | stepGo => exact execStepGo (s := s) hs
  | frameOffsetWrite => exact execFrameOffsetWrite (s := s) hs
  | offsetGo => exact execOffsetGo (s := s) hs
  | ppsInEdge => exact execPpsInEdge (s := s) hs
  | servoHoldover => exact execServoHoldover (s := s) hs
  | servoSourceWrite => exact execServoSourceWrite (s := s) hs
  | refLost => exact execRefLost (s := s) hs
  | refRestored => exact execRefRestored (s := s) hs
  | edgePush => exact execEdgePush (s := s) hs
  | tddEdgeFire => exact execTddEdgeFire (s := s) hs
  | clrQueue => exact execClrQueue (s := s) hs
  | ppsOutRise => exact execPpsOutRise (s := s) hs
  | ppsOutFall => exact execPpsOutFall (s := s) hs
  | timeSecLoRead => exact execTimeSecLoRead (s := s) hs
  | creditLoRead => exact execCreditLoRead (s := s) hs
  | bar0Read => exact execBar0Read (s := s) hs
  | bar0Write => exact execBar0Write (s := s) hs
  | bar2Read => exact execBar2Read (s := s) hs
  | bar2Write => exact execBar2Write (s := s) hs
  | msixSend => exact execMsixSend (s := s) hs
  | msixAllocationWrite => exact execMsixAllocationWrite (s := s) hs
  | pcieReadCompletion => exact execPcieReadCompletion (s := s) hs
  | cplTimeout => exact execCplTimeout (s := s) hs
  | perstNLow => exact execPerstNLow (s := s) hs
  | pcieLinkUp => exact execPcieLinkUp (s := s) hs
  | pcieLinkDown => exact execPcieLinkDown (s := s) hs
  | coreFault => exact execCoreFault (s := s) hs
  | engineFault => exact execEngineFault (s := s) hs
  | unitParity => exact execUnitParity (s := s) hs
  | faultClrMax => exact execFaultClrMax (s := s) hs
  | faultClrCounts => exact execFaultClrCounts (s := s) hs
  | cntSelWrite => exact execCntSelWrite (s := s) hs
  | cntClr => exact execCntClr (s := s) hs
  | collectSweep => exact execCollectSweep (s := s) hs
  | sampleRingWrite => exact execSampleRingWrite (s := s) hs
  | mark => exact execMark (s := s) hs
  | traceEnable => exact execTraceEnable (s := s) hs
  | tracePacketSend => exact execTracePacketSend (s := s) hs
  | refMissing => exact execRefMissing (s := s) hs
  | rootRefRestored => exact execRootRefRestored (s := s) hs
  | avsUpdate => exact execAvsUpdate (s := s) hs
  | avsAlarm => exact execAvsAlarm (s := s) hs
  | avsSettled => exact execAvsSettled (s := s) hs
  | poweredOff => exact execPoweredOff (s := s) hs
  | powerUpGrant => exact execPowerUpGrant (s := s) hs
  | poweredUp => exact execPoweredUp (s := s) hs
  | keepRunWrite => exact execKeepRunWrite (s := s) hs
  | keepCoreWfi => exact execKeepCoreWfi (s := s) hs
  | courseFenceAllowance => exact execCourseFenceAllowance (s := s) hs
  | tddOutSlotStart => exact execTddOutSlotStart (s := s) hs
  | perstNHigh => exact execPerstNHigh (s := s) hs
  | pcieConfigWrite => exact execPcieConfigWrite (s := s) hs
  | bar4RingPageWrite => exact execBar4RingPageWrite (s := s) hs
  | atsInvalidation => exact execAtsInvalidation (s := s) hs
  | macLinkUp => exact execMacLinkUp (s := s) hs
  | cdrLoss => exact execCdrLoss (s := s) hs
  | faultStateDisagreement => exact execFaultStateDisagreement (s := s) hs
  | vddIo18Low => exact execVddIo18Low (s := s) hs

/-! ### What moves keep

The canonical form; and, each with the clause of `Moves` that is there for it, the queue, DEVCLK and the books of R203. -/

/-- Memory, check bytes, host memory and the register table stay in their canonical form. -/
theorem canonical (h : Moves s t) (hs : s.memOk ∧ s.regsOk) : t.memOk ∧ t.regsOk := by
  induction h with
  | refl => exact hs
  | beside _ hmem hchk hhost hcsr _ _ _ ih => simpa [State.memOk, State.regsOk, hmem, hchk, hhost, hcsr] using ih
  | setReg _ ih => exact ⟨ih.1, tset_sorted _ ih.2 _ _⟩
  | dropRegs _ ih => exact ⟨ih.1, ih.2.filter _⟩
  | write _ ih =>
    obtain ⟨⟨hmem, hchk, hhost⟩, hcsr⟩ := ih
    exact ⟨⟨mwrites_canonical _ hmem _ _, mwrites_canonical _ hchk _ _, hhost⟩, hcsr⟩
  | writeHost _ ih =>
    obtain ⟨⟨hmem, hchk, hhost⟩, hcsr⟩ := ih
    exact ⟨⟨hmem, hchk, mwrites_canonical _ hhost _ _⟩, hcsr⟩
  | dropBytes _ ih =>
    obtain ⟨⟨hmem, hchk, hhost⟩, hcsr⟩ := ih
    exact ⟨⟨filter_wf hmem _, filter_wf hchk _, hhost⟩, hcsr⟩
  | setAccount _ _ ih => exact ih
  | restart _ hmem hchk hhost hcsr _ _ _ ih =>
    obtain ⟨⟨-, -, hw⟩, -⟩ := ih
    rw [State.memOk, State.regsOk, hmem, hchk, hhost, hcsr]
    exact ⟨⟨empty_wf _, empty_wf _, hw⟩, .nil⟩

theorem pending (h : Moves s t) : t.pending = s.pending := by
  induction h with
  | beside _ _ _ _ _ _ _ hpend ih | restart _ _ _ _ _ _ _ hpend ih => exact hpend.trans ih
  | refl => rfl
  | setReg _ ih | dropRegs _ ih | write _ ih | writeHost _ ih | dropBytes _ ih | setAccount _ _ ih => exact ih

theorem devclk (h : Moves s t) : t.devclk = s.devclk := by
  induction h with
  | beside _ _ _ _ _ _ hclk _ ih | restart _ _ _ _ _ _ hclk _ ih => exact hclk.trans ih
  | refl => rfl
  | setReg _ ih | dropRegs _ ih | write _ ih | writeHost _ ih | dropBytes _ ih | setAccount _ _ ih => exact ih

/-- The books of R203 stay in agreement. -/
theorem booksOk (h : Moves s t) (hs : s.booksOk) : t.booksOk := by
  induction h with
  | refl => exact hs
  | beside _ _ _ _ _ hacc _ _ ih => simpa [State.booksOk, State.account, hacc] using ih
  | setReg _ ih | dropRegs _ ih | write _ ih | writeHost _ ih | dropBytes _ ih => exact ih
  | @setAccount s a x _ hx ih =>
    intro b
    by_cases hb : b = a
    · subst hb
      simpa [State.setAccount, State.account, tget_tset_self] using hx (ih b)
    · simpa [State.setAccount, State.account, tget_tset_other _ _ _ _ hb] using ih b
  | restart _ _ _ _ _ hacc _ _ ih =>
    intro b
    simpa [State.account, hacc, tget, tfind] using Account.reset_balanced

theorem of_ends {x : Host.Outcome State Fault Refusal} (h : Ends s x) (e : x = .next t) : Moves s t := by
  rwa [e] at h

end Moves

/-! ### The commands that set DEVCLK, and the cycle that counts it -/

theorem execPowerOnReset_eq (s : State) :
    ∃ r p, Moves s r ∧ execPowerOnReset s = .next { r with devclk := 0, power := p } :=
  ⟨_, _, .setReg (.toFooting .refl), rfl⟩

theorem execFuseReadDone_ends (s : State) : ∃ d, Moves.Ends { s with devclk := d } (execFuseReadDone s) := by
  unfold execFuseReadDone
  split
  · exact ⟨if s.power.por then 0 else s.devclk, .foldl (.update (.update .refl rfl) rfl) fun _ _ hs => .ite (.setFld hs) hs⟩
  · exact ⟨s.devclk, .refl⟩

theorem refCycle_moves (s : State) : ∃ r, Moves s r ∧ Moves { r with devclk := s.devclk + 1 } s.refCycle :=
  ⟨_, .timeTick .refl, .meshRun (.noteBusy (.rootCycle .refl))⟩

/-! ### The canonical form -/

theorem exec_canonical {c : Instr} {s t : State} (e : exec c s = .next t) (hs : s.memOk ∧ s.regsOk) :
    t.memOk ∧ t.regsOk := by
  by_cases hp : c = .powerOnReset
  · subst hp
    obtain ⟨r, p, hr, he⟩ := execPowerOnReset_eq s
    cases he.symm.trans e
    exact hr.canonical hs
  by_cases hf : c = .fuseReadDone
  · subst hf
    obtain ⟨d, hd⟩ := execFuseReadDone_ends s
    exact (Moves.of_ends hd e).canonical hs
  exact (Moves.of_ends (Moves.exec_ends hp hf .refl) e).canonical hs

theorem refCycle_canonical {s : State} (hs : s.memOk ∧ s.regsOk) : s.refCycle.memOk ∧ s.refCycle.regsOk := by
  obtain ⟨r, hr, ht⟩ := refCycle_moves s
  exact ht.canonical (hr.canonical hs)

/-- Settles O4: a step is a REF cycle or a command, and both come about by moves and a change of DEVCLK. -/
theorem canonicalFormKept : Obligations.CanonicalFormKept := by
  intro s t hs e
  unfold step at e
  split at e
  · cases e
    exact refCycle_canonical hs
  · exact exec_canonical e hs

end Sys2Proof.Machine

namespace Sys2Proof.Machine

/-! ## The arbiter (R29) -/

/-- The requester in place `i` after the last granted stands `i` places after it. -/
theorem place_of_requester {n last i : Nat} (hl : last < n) (hi : i < n) :
    ((last + 1 + i) % n + n - last - 1) % n = i := by
  rw [Nat.sub_sub, Nat.add_sub_assoc (by omega : last + 1 ≤ n), Nat.mod_add_mod,
    (by omega : last + 1 + i + (n - (last + 1)) = i + n), Nat.add_mod_right, Nat.mod_eq_of_lt hi]

/-- Every requester stands in some place after the last granted. -/
theorem requester_of_place {n last k : Nat} (hl : last < n) (hk : k < n) :
    (last + 1 + (k + n - last - 1) % n) % n = k := by
  rw [Nat.add_mod_mod, (by omega : last + 1 + (k + n - last - 1) = k + n), Nat.add_mod_right, Nat.mod_eq_of_lt hk]

/-- The places after the last granted, in the order in which the arbiter looks at them, are all the requesters. -/
theorem rrPick_eq_none_iff {n last : Nat} {asks : Nat → Bool} (hl : last < n) :
    rrPick n last asks = none ↔ ∀ k, k < n → asks k = false := by
  simp only [rrPick, List.find?_eq_none, List.forall_mem_map, List.mem_range, Bool.not_eq_true]
  refine ⟨fun h k hk => ?_, fun h i _ => h _ (Nat.mod_lt _ (by omega))⟩
  rw [← requester_of_place hl hk]
  exact h _ (Nat.mod_lt _ (by omega))

/-- The grant goes to the first place whose requester asks. -/
theorem rrPick_eq_some {n last k : Nat} {asks : Nat → Bool} (h : rrPick n last asks = some k) :
    ∃ i < n, (last + 1 + i) % n = k ∧ asks k = true ∧ ∀ j < i, asks ((last + 1 + j) % n) = false := by
  rw [rrPick, List.find?_map] at h
  obtain ⟨i, hi, rfl⟩ := Option.map_eq_some_iff.mp h
  obtain ⟨ha, hin, hb⟩ := List.find?_range_eq_some.mp hi
  exact ⟨i, List.mem_range.mp hin, rfl, ha, fun j hj => by simpa using hb j hj⟩

/-- Settles O9: the arbiter looks at the places after the last granted in rising order. -/
theorem arbiterIsRoundRobin : Obligations.ArbiterIsRoundRobin := by
  refine ⟨fun n last asks hl => rrPick_eq_none_iff hl, fun n last k asks hl h => ?_, fun n asks hn h0 => ?_⟩
  · obtain ⟨i, hi, rfl, ha, hb⟩ := rrPick_eq_some h
    refine ⟨Nat.mod_lt _ (by omega), ha, fun j hj hja => ?_⟩
    rw [place_of_requester hl hi]
    refine Nat.le_of_not_lt fun hlt => ?_
    have := hb _ hlt
    rw [requester_of_place hl hj, hja] at this
    cases this
  · obtain ⟨m, rfl⟩ := Nat.exists_eq_succ_of_ne_zero hn.ne'
    simp [rrPick, List.range_succ_eq_map, h0]

/-! ## Writes in Banked (R54, R66) -/

/-- A write that the hub does not carry out changes nothing. -/
theorem State.csrWrite_of_hubTakes_eq_false {s : State} {req : Nat} (h : s.hubTakes req = false) (cls sel off : Nat) (v : Word) :
    s.csrWrite req cls sel off v = s := by
  simp [State.csrWrite, State.hubEach, h]

/-- In Banked the hub carries out nothing but the BAR0 window's accesses. -/
theorem State.hubTakes_of_banked {s : State} {req : Nat} (hm : s.modes.mode = .banked) (hr : req ≠ 9) : s.hubTakes req = false := by
  simp [State.hubTakes, hm, hr]

/-- Settles O14: the hub does not carry the write out. -/
theorem bankedHubIsClosed : Obligations.BankedHubIsClosed := by
  intro req cls sel offset value s hm hr
  exact congrArg Host.Outcome.next (State.csrWrite_of_hubTakes_eq_false (State.hubTakes_of_banked hm hr) cls.toNat sel.toNat _ value)

/-! ## Writes of groups (R19, R20) -/

/-- Outside Banked the hub carries out every requester's accesses. -/
theorem State.hubTakes_of_ne_banked {s : State} (hm : s.modes.mode ≠ .banked) (req : Nat) : s.hubTakes req = true := by
  simp [State.hubTakes, hm]

/-- A write that the hub and the mode take is one member write after another. -/
theorem State.csrWrite_eq_foldl {s : State} {req cls sel off : Nat} (hs : ¬(0x200 ≤ sel ∧ singleOnly cls off = true))
    (hh : s.hubTakes req = true) (hm : s.modeTakes cls off = true) (v : Word) :
    s.csrWrite req cls sel off v = (s.writeTargets cls sel off).foldl (fun t i => t.writeOne req cls i off v) s := by
  rw [State.csrWrite, if_neg hs, State.hubEach, if_pos hh, State.eachMember, if_pos hm]

/-- A group selector names the group's members. -/
theorem State.writeTargets_group (s : State) (cls off : Nat) {g : Nat} (hg : g < 64) :
    s.writeTargets cls (0x200 + g) off = s.groupMembers cls g := by
  rw [State.writeTargets, if_neg (by omega), if_pos (by omega), Nat.add_sub_cancel_left]

/-- A single selector of a unit that is absent, unpowered or fenced names nobody. -/
theorem State.writeTargets_eq_nil {s : State} {cls sel off : Nat} (hs : sel < 0x200) (hc : cls ≠ 0x03) (ho : isGrpOff off = false)
    (h : instPresent cls sel = false ∨ s.powered cls sel = false ∨ s.fencedUnit cls sel = true) :
    s.writeTargets cls sel off = [] := by
  rw [State.writeTargets, if_pos hs, if_neg]
  obtain h | h | h := h <;> simp [h, hc, ho]

/-- A write whose selector names nobody changes nothing. -/
theorem State.csrWrite_of_writeTargets_eq_nil {s : State} {cls sel off : Nat} (h : s.writeTargets cls sel off = []) (req : Nat)
    (v : Word) : s.csrWrite req cls sel off v = s := by
  simp [State.csrWrite, State.hubEach, State.eachMember, h]

/-- The instances of a class rise. -/
theorem instances_pairwise (cls : Nat) : (instances cls).Pairwise (· < ·) := by
  unfold instances
  split
  · exact List.pairwise_lt_range
  · exact .nil

theorem State.mem_groupMembers {s : State} {cls g i : Nat} :
    i ∈ s.groupMembers cls g ↔ classGroup cls = true ∧ i ∈ instances cls ∧ s.powered cls i = true ∧
      s.fencedUnit cls i = false ∧ bitOf (s.reg cls i (0x370 + 4 * (g / 32))).toNat (g % 32) = true := by
  rw [State.groupMembers]
  split
  next h => simp [h, and_assoc]
  next h => simp [h]

theorem State.groupMembers_pairwise (s : State) (cls g : Nat) : (s.groupMembers cls g).Pairwise (· < ·) := by
  rw [State.groupMembers]
  split
  · exact (instances_pairwise cls).filter _
  · exact .nil

/-- Settles O13: a group's selector names its members, and the single selector of a unit out of reach nobody. -/
theorem groupWriteReachesItsMembers : Obligations.GroupWriteReachesItsMembers := by
  refine ⟨fun req cls g off v s _ hs hm ht => ?_, fun _ _ _ _ => State.mem_groupMembers, fun cls g s => s.groupMembers_pairwise cls g,
    fun req cls sel off v s hs hc ho h => congrArg Host.Outcome.next
      (State.csrWrite_of_writeTargets_eq_nil (State.writeTargets_eq_nil hs hc ho h) req v)⟩
  have hg : (BitVec.ofNat 10 (0x200 + g.val)).toNat = 0x200 + g.val := by rw [BitVec.toNat_ofNat]; omega
  refine congrArg Host.Outcome.next ?_
  rw [hg, State.csrWrite_eq_foldl (by simp [hs]) (State.hubTakes_of_ne_banked hm _) ht, State.writeTargets_group s _ _ g.isLt]

/-! ## DEVCLK and the resets (R26, R418) -/

/-- A command that is neither POWER_ON_RESET nor FUSE_READ_DONE leaves DEVCLK. -/
theorem exec_devclk {c : Instr} {s t : State} (hp : c ≠ .powerOnReset) (hf : c ≠ .fuseReadDone) (e : exec c s = .next t) :
    t.devclk = s.devclk :=
  (Moves.of_ends (Moves.exec_ends hp hf .refl) e).devclk

/-- Footing begins in mode FOOTING. -/
theorem State.toFooting_modes (s : State) (bits : Nat) : (s.toFooting bits).modes.mode = .footing :=
  foldl_leaves (fun t : State => t.modes.mode) _ _ fun _ _ _ => rfl

/-- A register's word is a matter of the register table alone. -/
theorem State.reg_congr {s t : State} (h : t.csr = s.csr) (cls inst off : Nat) : t.reg cls inst off = s.reg cls inst off := by
  rw [State.reg, State.reg, h]

/-- RESET_CAUSE after POR is set there, whatever DEVCLK and the pins are given. -/
theorem State.reg_resetCause_por (r : State) (p : Power) :
    ({ r.setReg Reg.CLK.cls 0 0x00C 1 with devclk := 0, power := p } : State).reg 0x02 0 0x00C = 1 :=
  (State.reg_congr (s := r.setReg Reg.CLK.cls 0 0x00C 1) (by rfl) ..).trans (State.reg_setReg_self ..)

/-- POWER_ON_RESET: Footing, with DEVCLK zero and POR the only cause. -/
theorem execPowerOnReset_footing (s : State) :
    ∃ t, execPowerOnReset s = .next t ∧ t.devclk = 0 ∧ t.modes.mode = .footing ∧ t.reg 0x02 0 0x00C = 1 := by
  obtain ⟨r, hr⟩ : ∃ r, r = s.toFooting 0 := ⟨_, rfl⟩
  have hm := s.toFooting_modes 0
  unfold execPowerOnReset
  rw [← hr] at hm ⊢
  exact ⟨_, rfl, rfl, hm, State.reg_resetCause_por ..⟩

/-- A domain's state set where a condition asks for it changes registers only. -/
theorem State.setDomains_is (l : List Nat) (p : Nat → Bool) (n : Nat) (s : State) :
    ∃ r, l.foldl (fun s d => if p d then s.setFld Reg.PWR.STATUS_STATE d n else s) s = { s with csr := r } :=
  foldl_csr l s fun s d => by
    split
    · exact ⟨_, rfl⟩
    · exact ⟨s.csr, rfl⟩

/-- FUSE_READ_DONE while the fuse read is under way: Bedding. -/
theorem execFuseReadDone_of_fusing {s : State} (hm : s.modes.mode = .footing) (hf : s.power.fusing = true) :
    ∃ t, execFuseReadDone s = .next t ∧ t.modes.mode = .bedding ∧ t.power.fusing = false ∧
      t.devclk = if s.power.por then 0 else s.devclk := by
  rw [execFuseReadDone, if_pos ⟨hm, hf⟩]
  refine ⟨_, rfl, ?_⟩
  dsimp only
  obtain ⟨r, e⟩ := State.setDomains_is (List.range 78) beddingDomain 3 _
  rw [e]
  exact ⟨rfl, rfl, rfl⟩

/-- Settles O7: every other command comes about by moves, and no move touches DEVCLK. -/
theorem devclkResetOnlyByPowerOn : Obligations.DevclkResetOnlyByPowerOn := by
  refine ⟨fun c s t hp hf e => exec_devclk hp hf e, fun s hm hf => execFuseReadDone_of_fusing hm hf, fun s h => if_neg ?_,
    execPowerOnReset_footing⟩
  rintro ⟨hm, hf⟩
  exact h.elim (· hm) fun h => by simp [h] at hf

/-! ## A REF cycle (R26, R246, R410, R412) -/

/-- With no flit, no fence request and no forced drain the network stands still. -/
theorem State.meshStill_of_quiet {s : State} (hf : s.mortar.flits = []) (hc : s.mortar.fc = none) (hd : s.mortar.forcing = []) :
    s.meshStill = true := by
  simp [State.meshStill, State.movers, headFlits, hf, hc, hd]

/-- A network that stands still is left as it is. -/
theorem State.meshRun_of_meshStill {s : State} (h : s.meshStill = true) (goal : State → Bool) (n : Nat) :
    State.meshRun goal n s = s := by
  cases n with
  | zero => rfl
  | succ n => rw [State.meshRun, h, Bool.or_true, if_pos rfl]

/-- Time bases set one after another change the time alone. -/
theorem State.foldl_setTb_is (f : State → Nat → TimeBase) (l : List Nat) (s : State) :
    ∃ x, l.foldl (fun s n => s.setTb n (f s n)) s = { s with time := x } := by
  induction l generalizing s with
  | nil => exact ⟨s.time, rfl⟩
  | cons n l ih =>
    obtain ⟨x, e⟩ := ih (s.setTb n (f s n))
    exact ⟨x, e⟩

/-- The time that passes changes the time bases, TCNT and DLCLK. -/
theorem State.timeTick_is (s : State) : ∃ x d, s.timeTick = { s with time := x, disp := d } := by
  unfold State.timeTick
  split
  · obtain ⟨x, e⟩ := State.foldl_setTb_is _ _ _
    exact ⟨x, _, e⟩
  · exact ⟨_, _, rfl⟩

/-- REF is there, and the root PLL shows it. -/
def State.showRef (s : State) : State :=
  if s.power.refGone ∨ s.bit Reg.CLK.STATUS_REF_PRESENT 0 then s
  else (s.setFld Reg.CLK.STATUS_REF_PRESENT 0 1).setFld Reg.CLK.STATUS_ROOT_LOCK 0 1

/-- The depth of the spread that comes into effect. -/
def State.turnSpread (s : State) : State :=
  let want := min 2 (s.fld Reg.CLK.CTL_SPREAD 0)
  if s.fld Reg.CLK.STATUS_SPREAD_NOW 0 = want then { s with power := { s.power with spreadAt := none } }
  else
    match s.power.spreadAt with
    | none =>
      let (n, s) := s.takeFree 12
      { s with power := { s.power with spreadAt := some (s.devclk.toNat + n % 3342) } }
    | some t =>
      if t ≤ s.devclk.toNat then
        ({ s with power := { s.power with spreadAt := none } }).setFld Reg.CLK.STATUS_SPREAD_NOW 0 want
      else s

theorem State.rootCycle_of_linkMode {s : State} (h : s.linkMode = true) : s.rootCycle = s.showRef.turnSpread := by
  rw [State.rootCycle, h]
  rfl

theorem State.rootCycle_of_not_linkMode {s : State} (h : s.linkMode = false) : s.rootCycle = s := by
  rw [State.rootCycle, h]
  rfl

theorem State.showRef_eq (s : State) :
    s.showRef = s ∨ s.showRef = (s.setFld Reg.CLK.STATUS_REF_PRESENT 0 1).setFld Reg.CLK.STATUS_ROOT_LOCK 0 1 := by
  unfold State.showRef
  split
  · exact .inl rfl
  · exact .inr rfl

/-- The spread changes SPREAD_NOW, the time of its next change, and the count of free values taken. -/
theorem State.turnSpread_eq (s : State) : ∃ p n, s.turnSpread = { s with power := p, free := n } ∨
    ∃ v, s.turnSpread = { s.setFld Reg.CLK.STATUS_SPREAD_NOW 0 v with power := p, free := n } := by
  unfold State.turnSpread
  dsimp only
  split
  · exact ⟨_, s.free, .inl rfl⟩
  split
  · exact ⟨_, _, .inl rfl⟩
  split
  · exact ⟨_, s.free, .inr ⟨_, rfl⟩⟩
  · exact ⟨s.power, s.free, .inl rfl⟩

/-- A field of CLK.STATUS set leaves every other register. -/
theorem State.setStatus_reg {f : Field} (hc : f.cls = Reg.CLK.cls) (ho : f.off = 0x004) (s : State) (v : Nat) {c i o : Nat}
    (h : csrKey c i o ≠ csrKey Reg.CLK.cls 0 0x004) : (s.setFld f 0 v).reg c i o = s.reg c i o := by
  rw [State.setFld, hc, ho]
  exact State.reg_setReg_other _ _ h

/-- The root PLL changes no register but CLK.STATUS. -/
theorem State.rootCycle_reg (s : State) {c i o : Nat} (h : csrKey c i o ≠ csrKey Reg.CLK.cls 0 0x004) :
    s.rootCycle.reg c i o = s.reg c i o := by
  by_cases hl : s.linkMode = true
  · have hr : s.showRef.reg c i o = s.reg c i o := by
      obtain e | e := s.showRef_eq
      · rw [e]
      · rw [e, State.setStatus_reg rfl rfl _ _ h, State.setStatus_reg rfl rfl _ _ h]
    rw [State.rootCycle_of_linkMode hl, ← hr]
    obtain ⟨p, n, e | ⟨v, e⟩⟩ := s.showRef.turnSpread_eq
    · exact State.reg_congr (by rw [e]) ..
    · exact (State.reg_congr (s := s.showRef.setFld Reg.CLK.STATUS_SPREAD_NOW 0 v) (by rw [e]) ..).trans
        (State.setStatus_reg rfl rfl _ _ h)
  · rw [State.rootCycle_of_not_linkMode (Bool.eq_false_iff.mpr hl)]

/-- The root PLL changes registers, its own state, and the count of free values taken. -/
theorem State.rootCycle_is (s : State) : ∃ r p n, s.rootCycle = { s with csr := r, power := p, free := n } := by
  by_cases hl : s.linkMode = true
  · rw [State.rootCycle_of_linkMode hl]
    obtain ⟨r, hr⟩ : ∃ r, s.showRef = { s with csr := r } := by
      obtain e | e := s.showRef_eq
      · exact ⟨s.csr, e⟩
      · exact ⟨_, e⟩
    obtain ⟨p, n, e | ⟨v, e⟩⟩ := s.showRef.turnSpread_eq
    · exact ⟨_, p, n, by rw [e, hr]⟩
    · exact ⟨_, p, n, by rw [e, hr]; rfl⟩
  · exact ⟨_, _, _, State.rootCycle_of_not_linkMode (Bool.eq_false_iff.mpr hl)⟩

/-- A field beside SPREAD_NOW keeps its value as the spread turns. -/
theorem State.fld_turnSpread {f : Field} (hc : f.cls = Reg.CLK.cls) (ho : f.off = 0x004) (hf : f.lsb ≤ f.msb) (hm : f.msb < 4)
    (s : State) : s.turnSpread.fld f 0 = s.fld f 0 := by
  obtain ⟨p, n, e | ⟨v, e⟩⟩ := s.turnSpread_eq
  · rw [e]; rfl
  · rw [e]
    exact State.fld_setFld_beside s _ _ 0 v (by decide) (by decide) hf hc ho (.inl hm)

/-- From Raising on, with REF there and not shown yet, the cycle shows REF and the lock. -/
theorem State.rootCycle_shows {s : State} (hl : s.linkMode = true) (hg : s.power.refGone = false)
    (hp : s.fld Reg.CLK.STATUS_REF_PRESENT 0 = 0) :
    s.rootCycle.fld Reg.CLK.STATUS_REF_PRESENT 0 = 1 ∧ s.rootCycle.fld Reg.CLK.STATUS_ROOT_LOCK 0 = 1 := by
  have e : s.showRef = (s.setFld Reg.CLK.STATUS_REF_PRESENT 0 1).setFld Reg.CLK.STATUS_ROOT_LOCK 0 1 :=
    if_neg (by simp [State.bit, hg, hp])
  rw [State.rootCycle_of_linkMode hl, State.fld_turnSpread rfl rfl (by decide) (by decide),
    State.fld_turnSpread rfl rfl (by decide) (by decide), e]
  refine ⟨?_, State.fld_setFld_self _ _ 0 1 (by decide) (by decide)⟩
  rw [State.fld_setFld_beside _ Reg.CLK.STATUS_ROOT_LOCK Reg.CLK.STATUS_REF_PRESENT 0 1 (by decide) (by decide) (by decide)
    rfl rfl (by decide)]
  exact State.fld_setFld_self _ _ 0 1 (by decide) (by decide)

/-- The state at the root PLL's turn in a REF cycle: time has passed, and DEVCLK has counted. -/
def State.counted (s : State) : State := { s.timeTick with devclk := s.devclk + 1 }

theorem State.counted_is (s : State) : ∃ x d, s.counted = { s with time := x, disp := d, devclk := s.devclk + 1 } := by
  obtain ⟨x, d, e⟩ := s.timeTick_is
  exact ⟨x, d, by rw [State.counted, e]⟩

@[simp] theorem State.counted_csr (s : State) : s.counted.csr = s.csr := by
  obtain ⟨x, d, e⟩ := s.counted_is
  rw [e]

@[simp] theorem State.counted_power (s : State) : s.counted.power = s.power := by
  obtain ⟨x, d, e⟩ := s.counted_is
  rw [e]

@[simp] theorem State.counted_linkMode (s : State) : s.counted.linkMode = s.linkMode := by
  obtain ⟨x, d, e⟩ := s.counted_is
  rw [e]
  rfl

/-- What a REF cycle changes, where the network stands still. -/
theorem State.counted_noteBusy_is (s : State) : ∃ x d r p n l, s.counted.rootCycle.noteBusy =
    { s with time := x, disp := d, devclk := s.devclk + 1, csr := r, power := p, free := n, ledger := { s.ledger with busyAt := l } } := by
  obtain ⟨x, d, e⟩ := s.counted_is
  obtain ⟨r, p, n, e'⟩ := s.counted.rootCycle_is
  exact ⟨x, d, r, p, n, _, by rw [e', e]; rfl⟩

/-- A REF cycle with a quiet network. -/
theorem State.refCycle_of_quiet {s : State} (hf : s.mortar.flits = []) (hc : s.mortar.fc = none) (hd : s.mortar.forcing = []) :
    s.refCycle = s.counted.rootCycle.noteBusy := by
  obtain ⟨x, d, r, p, n, l, e⟩ := s.counted_noteBusy_is
  refine State.meshRun_of_meshStill (s := s.counted.rootCycle.noteBusy) (State.meshStill_of_quiet ?_ ?_ ?_) _ _
  · rw [e]; exact hf
  · rw [e]; exact hc
  · rw [e]; exact hd

theorem refCycle_devclk (s : State) : s.refCycle.devclk = s.devclk + 1 := by
  obtain ⟨r, -, h⟩ := refCycle_moves s
  exact h.devclk

theorem refCycle_pending (s : State) : s.refCycle.pending = s.pending := by
  obtain ⟨r, hr, h⟩ := refCycle_moves s
  exact h.pending.trans hr.pending

/-- Settles O2: where the network is quiet the cycle is the root PLL's, and the rest is the moves of a REF cycle. -/
theorem idleStepCountsDevclk : Obligations.IdleStepCountsDevclk := by
  intro s hq
  refine ⟨s.refCycle, by rw [step, hq], refCycle_devclk s, (refCycle_pending s).trans hq, fun hf hc hd => ?_⟩
  rw [State.refCycle_of_quiet hf hc hd]
  have hreg {c i o : Nat} : s.counted.reg c i o = s.reg c i o := State.reg_congr s.counted_csr ..
  have still (h : s.linkMode = false) : s.counted.rootCycle.csr = s.csr := by
    rw [State.rootCycle_of_not_linkMode (s.counted_linkMode.trans h), State.counted_csr]
  have shows (h : s.linkMode = true) (hp : s.power.refGone = false) (h0 : s.fld Reg.CLK.STATUS_REF_PRESENT 0 = 0) :=
    State.rootCycle_shows (s.counted_linkMode.trans h) (by rwa [State.counted_power]) (by rwa [State.fld, hreg])
  obtain ⟨x, d, r, p, n, l, e⟩ := s.counted_noteBusy_is
  refine ⟨?_, ?_, ?_, ?_, ?_, ?_, ?_, ?_, fun c i o h => (s.counted.rootCycle_reg h).trans hreg, still, shows⟩
  all_goals rw [e]

end Sys2Proof.Machine

namespace Sys2Proof.Machine

/-! ## What a command leaves of the stream channels

`OnStreams p s` says `p` of the working state of the stream channels. Most operations do not touch that state, whatever `p`;
of those that do, most leave a channel's commits. One lemma an operation, as for `Moves`. -/

/-- `p` holds of the stream channels' working state. -/
def OnStreams (p : Streams → Prop) (s : State) : Prop := p s.streams

namespace OnStreams

variable {p : Streams → Prop} {s t : State}

/-! ### Branches, pairs and folds -/

theorem ite {c : Prop} [Decidable c] (hs : OnStreams p s) (ht : OnStreams p t) : OnStreams p (if c then s else t) := by
  split <;> assumption

theorem ite_snd {α : Type} {c : Prop} [Decidable c] {x y : α × State} (hx : OnStreams p x.2) (hy : OnStreams p y.2) :
    OnStreams p (if c then x else y).2 := by
  split <;> assumption

theorem ite_snd_snd {α β : Type} {c : Prop} [Decidable c] {x y : α × β × State} (hx : OnStreams p x.2.2)
    (hy : OnStreams p y.2.2) : OnStreams p (if c then x else y).2.2 := by
  split <;> assumption

theorem snd {α : Type} {x : α × State} {b : α} (e : x = (b, s)) (hs : OnStreams p x.2) : OnStreams p s := by
  rwa [e] at hs

theorem foldl {α : Type} {f : State → α → State} {l : List α} (hs : OnStreams p s)
    (hf : ∀ s x, OnStreams p s → OnStreams p (f s x)) : OnStreams p (l.foldl f s) := by
  induction l generalizing s with
  | nil => exact hs
  | cons x r ih => exact ih (hf s x hs)

theorem foldl_snd {α β : Type} {f : β × State → α → β × State} {l : List α} {a : β × State} (ha : OnStreams p a.2)
    (hf : ∀ b x, OnStreams p b.2 → OnStreams p (f b x).2) : OnStreams p (l.foldl f a).2 := by
  induction l generalizing a with
  | nil => exact ha
  | cons x r ih => exact ih (hf a x ha)

theorem foldl_snd_snd {α β γ : Type} {f : β × γ × State → α → β × γ × State} {l : List α} {a : β × γ × State}
    (ha : OnStreams p a.2.2) (hf : ∀ b x, OnStreams p b.2.2 → OnStreams p (f b x).2.2) :
    OnStreams p (l.foldl f a).2.2 := by
  induction l generalizing a with
  | nil => exact ha
  | cons x r ih => exact ih (hf a x ha)

/-- An update of any fields beside the stream channels. It names every field of the state, so that it applies to a structure
update as the model writes it. -/
theorem update (hs : OnStreams p s) {xpending : List Instr} {xcsr xhold xreturned : Tab Word} {xmem xchk xhost : List Host.Cell}
    {xdevclk : BitVec 64} {xmodes : ModeCtl} {xfences : List Fence} {xjournal : Journal} {xdvorys : Dvorys} {xdisp : Disp}
    {xledger : Ledger} {xmortar : Mortar} {xmemSys : MemSys} {xpcie : Pcie} {xfaults : Faults} {xobserve : Observe}
    {xpower : Power} {xfree : Nat} {xtime : Time} {xlanes : Lanes} {xsett : Sett} {xengines : Engines} {xwitness : Witness}
    {xdma : Dma} {xeth : Eth} :
    OnStreams p ⟨xpending, xcsr, xhold, xreturned, xmem, xchk, xhost, xdevclk, xmodes, xfences, xjournal, xdvorys, xdisp,
      xledger, xmortar, xmemSys, xpcie, xfaults, xobserve, xpower, xfree, xtime, s.streams, xlanes, xsett, xengines, xwitness,
      xdma, xeth⟩ := hs

/-! ### Registers, events and faults -/

theorem setReg {cls inst off : Nat} {w : Word} (hs : OnStreams p s) : OnStreams p (s.setReg cls inst off w) := update hs

theorem setFld {f : Field} {i v : Nat} (hs : OnStreams p s) : OnStreams p (s.setFld f i v) := setReg hs

theorem addFld {f : Field} {i n : Nat} (hs : OnStreams p s) : OnStreams p (s.addFld f i n) := setFld hs

theorem satFld {f : Field} {i n : Nat} (hs : OnStreams p s) : OnStreams p (s.satFld f i n) := setFld hs

theorem maxFld {f : Field} {i n : Nat} (hs : OnStreams p s) : OnStreams p (s.maxFld f i n) := setFld hs

theorem setPair {lo hi : Field} {i n : Nat} (hs : OnStreams p s) : OnStreams p (s.setPair lo hi i n) := setFld (setFld hs)

theorem takeFree {w : Nat} (hs : OnStreams p s) : OnStreams p (s.takeFree w).2 := update hs

theorem countEvent {cls inst ev n : Nat} (hs : OnStreams p s) : OnStreams p (s.countEvent cls inst ev n) := by
  rwa [OnStreams, State.countEvent_streams]

theorem post {cls inst event sev detail : Nat} (hs : OnStreams p s) : OnStreams p (s.post cls inst event sev detail) := by
  rwa [OnStreams, State.post_streams]

theorem setLevel {n : Nat} (hs : OnStreams p s) : OnStreams p (s.setLevel n) := ite hs (post (setFld hs))

theorem syncRecoveries (hs : OnStreams p s) : OnStreams p s.syncRecoveries := update (setFld (setFld hs))

theorem recovered {r : Recovery} (hs : OnStreams p s) : OnStreams p (s.recovered r) :=
  syncRecoveries (ite (post (maxFld (setFld (update hs)))) (post (satFld (maxFld (setFld (update hs))))))

theorem reportFault {code cls inst : Nat} {alsoDouble : Bool} (hs : OnStreams p s) :
    OnStreams p (s.reportFault code cls inst alsoDouble) := by
  unfold State.reportFault
  extract_lets _ s1 s2 s3 s4 s5 s6 s7 _ _ s8
  have h2 : OnStreams p s2 := ite (addFld (addFld hs)) (addFld hs)
  have h5 : OnStreams p s5 := post (setPair (setFld (setFld (setFld h2))))
  have h6 : OnStreams p s6 := ite (post h5) h5
  have h8 : OnStreams p s8 := syncRecoveries (update (setLevel h6))
  exact ite h6 (ite (recovered h8) h8)

theorem aer {bit : Nat} (hs : OnStreams p s) : OnStreams p (s.aer bit) := reportFault (post hs)

/-! ### Memory -/

theorem storeWord {k : Nat} {bytes : List Byte} {poison : Bool} (hs : OnStreams p s) :
    OnStreams p (s.storeWord k bytes poison) := update hs

theorem retirePage_some {c page n : Nat} (e : s.retirePage c page = some (n, t)) (hs : OnStreams p s) : OnStreams p t := by
  unfold State.retirePage at e
  generalize List.range 256 = words at e
  dsimp only at e
  split at e
  · cases e
  · cases e
    exact post (setFld (update (foldl hs fun _ _ hs => storeWord hs)))

theorem setSpall {n : Nat} {e : Spall} (hs : OnStreams p s) : OnStreams p (s.setSpall n e) := update hs

theorem syncSpall (hs : OnStreams p s) : OnStreams p s.syncSpall := setFld (setFld hs)

theorem spallRetired {c page : Nat} (hs : OnStreams p s) : OnStreams p (s.spallRetired c page) :=
  syncSpall (foldl hs fun _ _ hs => ite (setSpall hs) hs)

theorem autoRetire {e : Spall} (hs : OnStreams p s) : OnStreams p (s.autoRetire e) := by
  unfold State.autoRetire
  split
  · cases e1 : s.retirePage (e.memory - 4) (e.addr / 4096) with
    | none => exact hs
    | some p => exact spallRetired (retirePage_some e1 hs)
  · exact hs

theorem spallHarden {n : Nat} (hs : OnStreams p s) : OnStreams p (s.spallHarden n) :=
  ite (autoRetire (post (setSpall hs))) hs

theorem spallNote {k col : Nat} (hs : OnStreams p s) : OnStreams p (s.spallNote k col) := by
  have hh {n e} : OnStreams p ((s.setSpall n e).spallHarden n).syncSpall := syncSpall (spallHarden (setSpall hs))
  unfold State.spallNote
  split
  extract_lets
  split
  · exact ite hh (ite hh (setSpall hs))
  · split
    · exact hh
    · split
      · exact hh
      · exact addFld hs

theorem eraseCheck {m : MemUnit} {col : Nat} (hs : OnStreams p s) : OnStreams p (s.eraseCheck m col) :=
  ite (ite (post (setReg hs)) (post (setReg hs))) hs

theorem noteDecode {k : Nat} {o : Decoded} (hs : OnStreams p s) : OnStreams p (s.noteDecode k o) := by
  unfold State.noteDecode
  split
  · exact reportFault (ite (eraseCheck (setReg (setReg hs))) (spallNote (eraseCheck (setReg (setReg hs)))))
  · exact reportFault (ite (post (countEvent (setReg hs))) (post (countEvent (setReg hs))))
  · exact hs

theorem readWord {k : Nat} (hs : OnStreams p s) : OnStreams p (s.readWord k).2.2 := noteDecode hs

theorem mergeWord {k o : Nat} {bytes : List Byte} {poison : Bool} (hs : OnStreams p s) :
    OnStreams p (s.mergeWord k o bytes poison) :=
  ite (storeWord (ite (update hs) hs)) (storeWord (ite (update hs) hs))

theorem readMem {a n : Nat} (hs : OnStreams p s) : OnStreams p (s.readMem a n).2 := foldl_snd hs fun _ _ hs => readWord hs

theorem writeMem {a : Nat} {bytes : List (Byte × Bool)} (hs : OnStreams p s) : OnStreams p (s.writeMem a bytes) :=
  foldl hs fun _ _ hs => mergeWord hs

theorem atsFill {a : Nat} (hs : OnStreams p s) : OnStreams p (s.atsFill a) := by
  unfold State.atsFill
  refine ite ?_ hs
  split
  split
  exact update (snd ‹_› (takeFree (snd ‹_› (takeFree hs))))

theorem hostRead {a n : Nat} (hs : OnStreams p s) : OnStreams p (s.hostRead a n).2.2 :=
  ite_snd_snd (aer hs) (ite_snd_snd (aer hs) (ite_snd_snd (aer (addFld hs)) (ite (aer (addFld hs)) hs)))

theorem hostWrite {a : Nat} {bytes : List (Byte × Bool)} (hs : OnStreams p s) : OnStreams p (s.hostWrite a bytes) :=
  update (ite (aer (addFld hs)) hs)

theorem busRead {ni port a n : Nat} (hs : OnStreams p s) : OnStreams p (s.busRead ni port a n).2.2 := by
  unfold State.busRead
  split
  · split
    · exact hostRead (atsFill hs)
    · exact readMem hs
  · exact hs

theorem busWrite {ni port a : Nat} {bytes : List (Byte × Bool)} (hs : OnStreams p s) :
    OnStreams p (s.busWrite ni port a bytes).2 := by
  unfold State.busWrite
  split
  · split
    · exact hostWrite (atsFill hs)
    · exact writeMem hs
  · exact hs

theorem busPut {ni port a : Nat} {bytes : List (Byte × Bool)} (hs : OnStreams p s) :
    OnStreams p (s.busPut ni port a bytes).2 := foldl_snd hs fun _ _ hs => busWrite hs

theorem busGet {ni port a n : Nat} (hs : OnStreams p s) : OnStreams p (s.busGet ni port a n).2.2 :=
  foldl_snd_snd hs fun _ _ hs => busRead hs

theorem unitGet {cls inst ni port a n : Nat} (hs : OnStreams p s) : OnStreams p (s.unitGet cls inst ni port a n).2.2 :=
  ite (busGet hs) (countEvent (busGet hs))

/-! ### Operations told to the host -/

theorem setPage {fn : Nat} {x : RingPage} (hs : OnStreams p s) : OnStreams p (s.setPage fn x) := update hs

theorem cqSlot {fn : Nat} {w0 : Nat} {rest : List Word} (hs : OnStreams p s) : OnStreams p (s.cqSlot fn w0 rest) :=
  setPage (ite (foldl hs fun _ _ hs => storeWord hs) (ite (update hs) hs))

theorem signalRing {fn : Nat} {now : Bool} (hs : OnStreams p s) : OnStreams p (s.signalRing fn now) :=
  ite (ite (setPage hs) (update (setPage hs))) (setPage hs)

theorem endOp {o : LrOp} {st : Status} {detail : Nat} {results : List Word} (hs : OnStreams p s) :
    OnStreams p (s.endOp o st detail results) :=
  have hd : OnStreams p (s.dropOp o.opId) := update hs
  ite hd (signalRing (cqSlot hd))

theorem commitTold {c code : Nat} {op : BitVec 16} (hs : OnStreams p s) : OnStreams p (s.commitTold c code op) := by
  unfold State.commitTold
  split
  · exact hs
  · exact ite (endOp hs) (update hs)

/-! ### Witness -/

theorem tallySamples {c : Nat} {xs : List (Nat × Int × Int)} (hs : OnStreams p s) : OnStreams p (s.tallySamples c xs) :=
  foldl hs fun _ _ hs => ite (update (update hs)) hs

theorem setVault {v : Vault} (hs : OnStreams p s) : OnStreams p (s.setVault v) := update hs

theorem dropLeaf {src : Nat} (hs : OnStreams p s) : OnStreams p (s.dropLeaf src) :=
  setVault (foldl (ite (addFld (addFld hs)) (addFld hs)) fun _ _ hs => ite (addFld hs) hs)

theorem closeLeaf {x : Leaf} (hs : OnStreams p s) : OnStreams p (s.closeLeaf x) :=
  ite (setVault hs) (ite (dropLeaf (setVault hs)) (setVault (setVault hs)))

theorem addUnit {src : Nat} {h : UnitHead} {first : Nat} {u : List (Byte × Bool)} {bad : Bool} (hs : OnStreams p s) :
    OnStreams p (s.addUnit src h first u bad) := ite (closeLeaf (setVault hs)) (setVault hs)

theorem takeUpset {c n : Nat} (hs : OnStreams p s) : OnStreams p (s.takeUpset c n).2 := ite_snd (setVault (takeFree hs)) hs

theorem summaryRow {h : UnitHead} {bad : Option Nat} {blocks : List (List Byte)} (hs : OnStreams p s) :
    OnStreams p (s.summaryRow h bad blocks) := ite (setVault (addUnit (update hs))) (addUnit (update hs))

theorem captureUnits {h : UnitHead} {blocks : List (List Byte)} {bad : Option Nat} {e : Nat × Word} (hs : OnStreams p s) :
    OnStreams p (s.captureUnits h blocks bad e) := foldl hs fun _ _ hs => ite (addUnit hs) hs

theorem witBlocks {h : UnitHead} {caps : List (Nat × Word)} {bytes : List Byte} (hs : OnStreams p s) :
    OnStreams p (s.witBlocks h caps bytes) := by
  unfold State.witBlocks
  refine ite hs ?_
  split
  extract_lets s1
  have h0 := snd ‹_› (takeUpset hs)
  have h1 : OnStreams p s1 := ite (foldl h0 fun _ _ hs => captureUnits hs) h0
  exact ite (summaryRow h1) h1

theorem witClose {c : Nat} (hs : OnStreams p s) : OnStreams p (s.witClose c) := foldl hs fun _ _ hs => ite (closeLeaf hs) hs

theorem witSlotStart {c : Nat} (hs : OnStreams p s) : OnStreams p (s.witSlotStart c) := by
  unfold State.witSlotStart
  refine foldl hs fun _ _ hs => ?_
  dsimp only
  split
  · exact hs
  · exact setFld (setVault hs)

/-! ### RoE flows and Ahnent streams -/

theorem queueMsg {e : Nat} {bytes : List Byte} (hs : OnStreams p s) : OnStreams p (s.queueMsg e bytes) :=
  ite hs (ite (addFld hs) (update hs))

theorem roeDrain {e n : Nat} (hs : OnStreams p s) : OnStreams p (s.roeDrain e n) := by
  induction n generalizing s with
  | zero => exact hs
  | succ n ih =>
    unfold State.roeDrain
    extract_lets n
    split
    refine ite hs ?_
    split
    rename_i tpl s1 e1
    exact ih (queueMsg (update (snd e1 (unitGet hs))))

theorem roeSend {c k : Nat} {xs : List Sample} (hs : OnStreams p s) : OnStreams p (s.roeSend c k xs) := by
  unfold State.roeSend
  split
  · exact hs
  · extract_lets
    refine ite hs ?_
    split
    exact roeDrain (update hs)

theorem setAhn {l : Nat} {x : AhnLane} (hs : OnStreams p s) : OnStreams p (s.setAhn l x) := setFld (setFld (update hs))

theorem pushWord {l : Nat} {w : CtlWord} (hs : OnStreams p s) : OnStreams p (s.pushWord l w) := ite (setAhn hs) (update hs)

/-! ### A channel's registers -/

theorem setS {c : Nat} {f : Field} {v : Nat} (hs : OnStreams p s) : OnStreams p (s.setS c f v) := setFld hs

theorem strmEvent {c : Nat} {f : Field} {event sev sym : Nat} (hs : OnStreams p s) :
    OnStreams p (s.strmEvent c f event sev sym) := post (setS hs)

theorem inputGap {c sym : Nat} (hs : OnStreams p s) : OnStreams p (s.inputGap c sym) := ite hs (setS (strmEvent hs))

theorem syncCommit {c : Nat} (hs : OnStreams p s) : OnStreams p (s.syncCommit c) := setS (setS (setS hs))

theorem syncSlice {f : Nat} (hs : OnStreams p s) : OnStreams p (s.syncSlice f) := setFld (setFld (setFld hs))

end OnStreams

/-! ## Commits (R90-R95) -/

/-- What the commits of a channel have left in it: the set in effect, the sets that wait, the lock, and whether the channel waits
for a boundary. -/
structure CommitView where
  eff : Tab Word
  pend : Option CommitSet
  queued : Option CommitSet
  locked : Bool
  lockDone : Bool
  waiting : Bool

def Strm.commitView (x : Strm) : CommitView := ⟨x.eff, x.pend, x.queued, x.locked, x.lockDone, x.waiting⟩

/-- What the commits have left in each channel is `k`. -/
def Streams.CommitsAre (k : Nat → CommitView) (x : Streams) : Prop := ∀ c, (tget Strm.reset x.ch c).commitView = k c

namespace OnStreams

variable {k : Nat → CommitView} {s : State}

theorem commitView (hs : OnStreams (Streams.CommitsAre k) s) (c : Nat) : (s.strm c).commitView = k c := hs c

/-- A change of other fields of a channel leaves its commits. -/
theorem setStrm_of_commitView {c : Nat} {x : Strm} (hs : OnStreams (Streams.CommitsAre k) s)
    (hx : x.commitView = (s.strm c).commitView) :
    OnStreams (Streams.CommitsAre k) (s.setStrm c x) := by
  intro d
  change ((s.setStrm c x).strm d).commitView = k d
  by_cases h : d = c
  · rw [h, State.strm_setStrm_self, hx]
    exact hs c
  · rw [State.strm_setStrm_other _ _ h]
    exact hs d

/-- The same, of any change of other fields as the model writes it. -/
theorem setStrm {c : Nat} (hs : OnStreams (Streams.CommitsAre k) s)
    {xlo : Word} {xloNext xloAfter : Option Word} {xcur xreadSym xrunPos xfhClosed : Option Nat} {xstartAt xgain
    xfhFrom xdriftBase xdrift xcpAdj : Int} {xresume xagcSum xagcN xagcSlots xphase xprPhase xoutTaken xpaHold : Nat}
    {xbySlot xstopped xagcOn xsatSlot xerrSlot : Bool} {xinBuf : List (Nat × Option (Int × Int))} {xtail xout : List
    (Int × Int)} {xtailMiss : List Bool} {xheaders : List (Nat × Nat × Nat)} {xtoFft xwriting xheaded xreading xready
    xfhOpen : List SymJob} {xprach : List Prach} {xprFail : List Nat} {xfhPlaced : List Placed} :
    OnStreams (Streams.CommitsAre k) (s.setStrm c
      ⟨(s.strm c).eff, (s.strm c).pend, (s.strm c).locked, (s.strm c).queued, (s.strm c).lockDone, xlo, xloNext,
      xloAfter, xcur, xstartAt, (s.strm c).waiting, xresume, xbySlot, xstopped, xgain, xagcOn, xagcSum, xagcN,
      xagcSlots, xphase, xprPhase, xinBuf, xtail, xtailMiss, xheaders, xsatSlot, xerrSlot, xtoFft, xwriting,
      xheaded, xprach, xprFail, xreadSym, xreading, xready, xout, xoutTaken, xrunPos, xpaHold, xfhPlaced,
      xfhOpen, xfhClosed, xfhFrom, xdriftBase, xdrift, xcpAdj⟩) := setStrm_of_commitView hs rfl

theorem strmSat {c sym : Nat} (hs : OnStreams (Streams.CommitsAre k) s) : OnStreams (Streams.CommitsAre k) (s.strmSat c sym) :=
  ite (setS hs) (post (setStrm (setS hs)))

theorem pullStream {l st : Nat} (hs : OnStreams (Streams.CommitsAre k) s) :
    OnStreams (Streams.CommitsAre k) (s.pullStream l st) := by
  unfold State.pullStream
  extract_lets cs
  clear_value cs
  split
  · exact hs
  · extract_lets _ _ s1 _ _ _ _ s2
    have h1 : OnStreams (Streams.CommitsAre k) s1 := foldl hs fun _ _ hs => setStrm hs
    have h2 : OnStreams (Streams.CommitsAre k) s2 := ite (foldl h1 fun _ _ hs => strmSat hs) h1
    exact ite (setAhn h2) (setAhn h1)

theorem tell {key l st op effect : Nat} (hs : OnStreams (Streams.CommitsAre k) s) :
    OnStreams (Streams.CommitsAre k) (s.tell key l st op effect) := pushWord hs

theorem chWord {c op : Nat} (hs : OnStreams (Streams.CommitsAre k) s) : OnStreams (Streams.CommitsAre k) (s.chWord c op) :=
  ite (ite (pullStream hs) (tell (pullStream hs))) hs

theorem writeErr {c sym : Nat} (hs : OnStreams (Streams.CommitsAre k) s) : OnStreams (Streams.CommitsAre k) (s.writeErr c sym) :=
  ite (setS hs) (post (setStrm (setS hs)))

theorem chPut {c a sym : Nat} {bytes : List Byte} (hs : OnStreams (Streams.CommitsAre k) s) :
    OnStreams (Streams.CommitsAre k) (s.chPut c a sym bytes).2 := ite_snd (busPut hs) (writeErr (busPut hs))

theorem gridWrite {c : Nat} {j : SymJob} {blocks : List Byte} (hs : OnStreams (Streams.CommitsAre k) s) :
    OnStreams (Streams.CommitsAre k) (s.gridWrite c j blocks) := setStrm (ite_snd hs (chPut hs))

theorem prachTake {c : Nat} {ys : List Sample} {miss : List Bool} (hs : OnStreams (Streams.CommitsAre k) s) :
    OnStreams (Streams.CommitsAre k) (s.prachTake c ys miss) :=
  ite (setStrm hs) (ite (strmSat (setStrm hs)) (setStrm hs))

theorem rxSymbol {c : Nat} {stop : Int} (hs : OnStreams (Streams.CommitsAre k) s) :
    OnStreams (Streams.CommitsAre k) (s.rxSymbol c stop) := by
  unfold State.rxSymbol
  extract_lets _ _ _ _ s1
  have h1 : OnStreams (Streams.CommitsAre k) s1 := update hs
  split
  · exact hs
  · split
    extract_lets s2 s3 s4 s5 _ _ _ _ _ _ _ _ _ _ _ s6
    have h2 : OnStreams (Streams.CommitsAre k) s2 := tallySamples h1
    have h3 : OnStreams (Streams.CommitsAre k) s3 := ite (strmSat h2) h2
    have h4 : OnStreams (Streams.CommitsAre k) s4 := prachTake h3
    have h5 : OnStreams (Streams.CommitsAre k) s5 := ite h4 (setS (ite (inputGap h4) h4))
    have h6 : OnStreams (Streams.CommitsAre k) s6 := setStrm h5
    exact ite (ite (witBlocks (gridWrite h6)) (setStrm h6)) h6

theorem freqSymbol {c : Nat} {stop : Int} (hs : OnStreams (Streams.CommitsAre k) s) :
    OnStreams (Streams.CommitsAre k) (s.freqSymbol c stop) := by
  unfold State.freqSymbol
  dsimp only
  split
  · exact hs
  · exact tallySamples hs

theorem endSymbol {c : Nat} {start : Int} (hs : OnStreams (Streams.CommitsAre k) s) :
    OnStreams (Streams.CommitsAre k) (s.endSymbol c start) :=
  ite hs (ite (pullStream (ite hs (roeSend hs))) (ite hs (ite (freqSymbol hs) (rxSymbol hs))))

theorem agcSlot {c : Nat} (hs : OnStreams (Streams.CommitsAre k) s) : OnStreams (Streams.CommitsAre k) (s.agcSlot c) :=
  ite (ite (setStrm hs) (ite (setS (setStrm hs)) (setStrm hs))) (setStrm hs)

theorem cpDrift {c : Nat} {fresh : Bool} (hs : OnStreams (Streams.CommitsAre k) s) :
    OnStreams (Streams.CommitsAre k) (s.cpDrift c fresh) := ite (setStrm hs) (setStrm hs)

theorem holdPa {c : Nat} (hs : OnStreams (Streams.CommitsAre k) s) : OnStreams (Streams.CommitsAre k) (s.holdPa c) :=
  ite (setStrm hs) hs

theorem endRun {c : Nat} {hard : Bool} (hs : OnStreams (Streams.CommitsAre k) s) :
    OnStreams (Streams.CommitsAre k) (s.endRun c hard) := ite (holdPa hs) (ite (setStrm (ite (chWord hs) hs)) hs)

theorem txOut {c code : Nat} {base : List Sample} {env : Nat → Int} (hs : OnStreams (Streams.CommitsAre k) s) :
    OnStreams (Streams.CommitsAre k) (s.txOut c code base env) := setStrm (ite (strmSat hs) hs)

theorem txActive {c code : Nat} {cp len : Nat} (hs : OnStreams (Streams.CommitsAre k) s) :
    OnStreams (Streams.CommitsAre k) (s.txActive c code cp len) := by
  unfold State.txActive
  extract_lets x L unit s1 _ _ _ s2
  have h1 : OnStreams (Streams.CommitsAre k) s1 := by
    dsimp only [s1]
    split
    · exact countEvent (ite (countEvent hs) hs)
    · exact countEvent (countEvent (strmEvent hs))
  exact txOut (setStrm (ite (chWord h1) h1))

theorem txIdle {c code len : Nat} {hard : Bool} (hs : OnStreams (Streams.CommitsAre k) s) :
    OnStreams (Streams.CommitsAre k) (s.txIdle c code len hard) := txOut (setStrm (endRun hs))

theorem txSymbol {c code : Nat} {g : GridAt} {hardStop : Bool} (hs : OnStreams (Streams.CommitsAre k) s) :
    OnStreams (Streams.CommitsAre k) (s.txSymbol c code g hardStop) := ite (txActive hs) (txIdle hs)

theorem txQuiet {c code : Nat} (hs : OnStreams (Streams.CommitsAre k) s) : OnStreams (Streams.CommitsAre k) (s.txQuiet c code) :=
  ite (ite (setStrm hs) (ite (setStrm hs) hs)) hs

theorem txStart {c code : Nat} {g : GridAt} {hard : Bool} (hs : OnStreams (Streams.CommitsAre k) s) :
    OnStreams (Streams.CommitsAre k) (s.txStart c code g hard) := by
  unfold State.txStart
  extract_lets s1 s2 _ _ s3 _ s4
  have h1 : OnStreams (Streams.CommitsAre k) s1 := txQuiet hs
  have h2 : OnStreams (Streams.CommitsAre k) s2 := ite (holdPa h1) h1
  have h3 : OnStreams (Streams.CommitsAre k) s3 := endRun h1
  have h4 : OnStreams (Streams.CommitsAre k) s4 := txIdle h1
  exact ite (setStrm h2) (ite (ite (setStrm h1) (setStrm h3)) (ite (setStrm h4) (txSymbol h1)))

theorem openPrach {c code : Nat} (hs : OnStreams (Streams.CommitsAre k) s) :
    OnStreams (Streams.CommitsAre k) (s.openPrach c code) := ite (setStrm hs) hs

theorem openWindow {c code : Nat} (hs : OnStreams (Streams.CommitsAre k) s) :
    OnStreams (Streams.CommitsAre k) (s.openWindow c code) := ite (setStrm hs) hs

theorem endPrach {c : Nat} (hs : OnStreams (Streams.CommitsAre k) s) : OnStreams (Streams.CommitsAre k) (s.endPrach c) :=
  setStrm hs

theorem rxStart {c code : Nat} (hs : OnStreams (Streams.CommitsAre k) s) :
    OnStreams (Streams.CommitsAre k) (s.rxStart c code) := by
  unfold State.rxStart
  extract_lets s1 s2
  have h1 : OnStreams (Streams.CommitsAre k) s1 := witClose (ite (witSlotStart hs) hs)
  have h2 : OnStreams (Streams.CommitsAre k) s2 := openPrach h1
  exact ite (ite (openWindow h2) h2) (ite h1 (endPrach h1))

end OnStreams

/-- What commits have left in the channels of a state. -/
def State.commitViews (s : State) (c : Nat) : CommitView := (s.strm c).commitView

theorem OnStreams.commitViews (s : State) : OnStreams (Streams.CommitsAre s.commitViews) s := fun _ => rfl

/-- Which set applies at a hand-over is a matter of what the commits have left. -/
theorem Strm.applies_congr {x y : Strm} (h : x.commitView = y.commitView) : x.applies = y.applies := by
  obtain ⟨-, hp, -, hl, hd, -⟩ := CommitView.mk.inj h
  funext slotWise stepped code
  rw [Strm.applies, Strm.applies, hp, hl, hd]

/-- A channel's field in effect is a matter of the set in effect. -/
theorem State.sfld_congr {s t : State} {c : Nat} (h : (t.strm c).eff = (s.strm c).eff) (f : Field) : t.sfld c f = s.sfld c f := by
  rw [State.sfld, State.sfld, h]

theorem State.sbit_congr {s t : State} {c : Nat} (h : (t.strm c).eff = (s.strm c).eff) (f : Field) : t.sbit c f = s.sbit c f := by
  rw [State.sbit, State.sbit, State.sfld_congr h]

/-- A set applies with every field at once, and the hand-over stays marked or unmarked (R91, R94). -/
theorem State.applySet_commits (s : State) (c : Nat) (k : CommitSet) (code : Nat) :
    ((s.applySet c k code).strm c).eff = k.words ∧ ((s.applySet c k code).strm c).lockDone = (s.strm c).lockDone := by
  unfold State.applySet
  extract_lets x _ _ _ _ _ s1 now agc x1 x2 x3 x4 _ _ _ s2 s3 s4 s5 s6 s7
  have hx : x4.eff = k.words ∧ x4.lockDone = x.lockDone := by
    have e1 : x1 = { x with eff := k.words, pend := x.queued, queued := none, locked := false } := State.strm_setStrm_self ..
    have h2 : x2.eff = x1.eff ∧ x2.lockDone = x1.lockDone := by dsimp only [x2]; split <;> exact ⟨rfl, rfl⟩
    have h3 : x3.eff = x2.eff ∧ x3.lockDone = x2.lockDone := by dsimp only [x3]; split <;> exact ⟨rfl, rfl⟩
    have h4 : x4.eff = x3.eff ∧ x4.lockDone = x3.lockDone := by dsimp only [x4]; split <;> exact ⟨rfl, rfl⟩
    rw [h4.1, h4.2, h3.1, h3.2, h2.1, h2.2, e1]
    exact ⟨rfl, rfl⟩
  have h3 : OnStreams (Streams.CommitsAre s2.commitViews) s3 := .ite (.inputGap (.commitViews s2)) (.commitViews s2)
  have h5 : OnStreams (Streams.CommitsAre s2.commitViews) s5 := .setS (.setS (.setS h3))
  have h7 : OnStreams (Streams.CommitsAre s2.commitViews) s7 := .foldl (.ite h5 (.post h5)) fun _ _ hs => .commitTold hs
  have h8 := OnStreams.foldl (l := List.range 8) (OnStreams.syncCommit (c := c) h7) fun s f hs => OnStreams.syncSlice (f := f) hs
  obtain ⟨he, -, -, -, hd, -⟩ := CommitView.mk.inj (h8.commitView c)
  have e2 : s2.strm c = _ := State.strm_setStrm_self ..
  rw [he, hd, e2]
  exact hx

/-- At a hand-over the set that applies is in effect with every field, else what was in effect stays (R91). -/
theorem State.takeSettings_handOver {s : State} {c code : Nat} (hw : (s.strm c).waiting = false)
    (h : s.sbit c Reg.STRM_RX.CTL_COMMIT_SLOT = false ∨ codeSym code = 0) (start : Int) :
    ((s.takeSettings c code start).strm c).lockDone = false ∧ ((s.takeSettings c code start).strm c).eff =
      ((s.strm c).applies (s.sbit c Reg.STRM_RX.CTL_COMMIT_SLOT) false code).elim (s.strm c).eff (·.words) := by
  unfold State.takeSettings
  extract_lets y stepped s1 slotWise k _ s2
  have e1 : s1.strm c = _ := State.strm_setStrm_self ..
  have e2 : s2.strm c = { s1.strm c with lockDone := false } := State.strm_setStrm_self ..
  have hslot : slotWise = s.sbit c Reg.STRM_RX.CTL_COMMIT_SLOT := State.sbit_congr (by rw [e1]) _
  have hk : k = (s.strm c).applies slotWise false code := by
    have hstep : stepped = false := by simp [stepped, y, hw]
    have hv : (s1.strm c).commitView = (s.strm c).commitView := by rw [e1, Strm.commitView, Strm.commitView, hw]
    simp only [k, hstep, Strm.applies_congr hv]
  rw [if_pos (h.imp (by simp [hslot, ·]) .inl), ← hslot, ← hk]
  cases k with
  | none => exact ⟨by rw [e2], by rw [e2, e1]; rfl⟩
  | some k =>
    obtain ⟨he, hd⟩ := s2.applySet_commits c k code
    exact ⟨by rw [hd, e2], he⟩

/-- Between the hand-overs of a channel with COMMIT_SLOT nothing applies (R91). -/
theorem State.takeSettings_between {s : State} {c code : Nat} (hw : (s.strm c).waiting = false)
    (hs : s.sbit c Reg.STRM_RX.CTL_COMMIT_SLOT = true) (hc : codeSym code ≠ 0) (start : Int) :
    ((s.takeSettings c code start).strm c).commitView = (s.strm c).commitView := by
  unfold State.takeSettings
  extract_lets y stepped s1 slotWise k _ s2
  have e1 : s1.strm c = _ := State.strm_setStrm_self ..
  have hslot : slotWise = true := (State.sbit_congr (by rw [e1]) _).trans hs
  rw [if_neg (by simp [hslot, hc, y, hw]), e1, Strm.commitView, Strm.commitView, hw]

/-- A channel that halts keeps the sets, and its next hand-over is not marked yet. -/
theorem State.bankChannel_commits (s : State) (c : Nat) : ((s.bankChannel c).strm c).eff = (s.strm c).eff ∧
    ((s.bankChannel c).strm c).pend = (s.strm c).pend ∧ ((s.bankChannel c).strm c).lockDone = false := by
  have h : OnStreams (Streams.CommitsAre s.commitViews) (if isTx c then s.holdPa c else s.endPrach c) :=
    .ite (.holdPa (.commitViews s)) (.endPrach (.commitViews s))
  obtain ⟨he, hp, -⟩ := CommitView.mk.inj (h.commitView c)
  unfold State.bankChannel State.chHalt
  simp only [State.strm_setStrm_self]
  exact ⟨he, hp, trivial⟩

/-- What a boundary leaves of the commits is what the settings taken at it leave, but for the mark of a channel that stops there. -/
theorem State.boundary_commits (s : State) (c code : Nat) (g : GridAt) :
    ∃ (s₁ : State) (start : Int), s₁.commitViews c = s.commitViews c ∧
    ((s.boundary c code g).strm c).eff = ((s₁.takeSettings c code start).strm c).eff ∧
    ((s.boundary c code g).strm c).pend = ((s₁.takeSettings c code start).strm c).pend ∧
    (((s₁.takeSettings c code start).strm c).lockDone = false → ((s.boundary c code g).strm c).lockDone = false) := by
  unfold State.boundary
  extract_lets start _ s1 s2 _ s3 _ _ _ _ s4 s5 _ _ _ s6 s7 _ s8
  have h1 : OnStreams (Streams.CommitsAre s.commitViews) s1 := .endSymbol (.commitViews s)
  have h3 : OnStreams (Streams.CommitsAre s.commitViews) s3 := .ite (.setStrm (.agcSlot h1)) h1
  have h6 : OnStreams (Streams.CommitsAre s4.commitViews) s6 := .setStrm (.cpDrift (.commitViews s4))
  have h7 : OnStreams (Streams.CommitsAre s4.commitViews) s7 := .ite (.setS h6) h6
  have h8 : OnStreams (Streams.CommitsAre s4.commitViews) s8 := .ite (.txStart h7) (.rxStart h7)
  obtain ⟨he, hp, -, -, hd, -⟩ := CommitView.mk.inj (h8.commitView c)
  refine ⟨s3, start, h3.commitView c, ?_⟩
  split
  · obtain ⟨hbe, hbp, hbd⟩ := s8.bankChannel_commits c
    exact ⟨hbe.trans he, hbp.trans hp, fun _ => hbd⟩
  · exact ⟨he, hp, hd.trans⟩

/-- SYMBOL_BOUNDARY of a channel that waits for nothing and has not this symbol is the boundary. -/
theorem execSymbolBoundary_of_due {ch : Fin 1024} {s : State} (ht : s.timeRuns = true)
    (hr : s.running (strmUnit ch).1 (strmInst ch) = true) (hw : (s.strm ch).waiting = false)
    (hc : (s.strm ch).cur ≠ some (s.chCode ch (s.chGrid ch 0))) :
    execSymbolBoundary ch s = .next (s.boundary ch (s.chCode ch (s.chGrid ch 0)) (s.chGrid ch 0)) := by
  unfold execSymbolBoundary
  dsimp only
  rw [if_neg (by simp [ht, hr, hc]), if_neg (by simp [hw])]

/-! ### The fields of COMMIT_STATE -/

theorem State.getS_setS_self (s : State) (c : Nat) (f : Field) (v : Nat) (hl : f.lsb ≤ f.msb) (hm : f.msb < 32) :
    (s.setS c f v).getS c f = v % 2 ^ (f.msb + 1 - f.lsb) := State.fld_setFld_self s (strmField c f) (strmInst c) v hl hm

/-- A field of the same register of the channel, beside the one written. -/
theorem State.getS_setS_beside (s : State) (c : Nat) {f g : Field} (v : Nat) (hl : f.lsb ≤ f.msb) (hm : f.msb < 32)
    (hl' : g.lsb ≤ g.msb) (ho : g.off = f.off) (hd : g.msb < f.lsb ∨ f.msb < g.lsb) :
    (s.setS c f v).getS c g = s.getS c g :=
  State.fld_setFld_beside s (strmField c f) (strmField c g) (strmInst c) v hl hm hl' rfl ho hd

/-- A field of COMMIT_STATE above QUEUED is none of those that follow the waiting sets. -/
theorem State.getS_syncCommit (s : State) (c : Nat) {f : Field} (ho : f.off = 0x068) (hl : f.lsb ≤ f.msb) (h : 3 < f.lsb) :
    (s.syncCommit c).getS c f = s.getS c f := by
  unfold State.syncCommit
  rw [State.getS_setS_beside _ _ _ (by decide) (by decide) hl ho (.inr (by simp; omega)),
    State.getS_setS_beside _ _ _ (by decide) (by decide) hl ho (.inr (by simp; omega)),
    State.getS_setS_beside _ _ _ (by decide) (by decide) hl ho (.inr (by simp; omega))]

/-- LOCKED shows the lock. -/
theorem State.getS_locked_syncCommit (s : State) (c : Nat) :
    (s.syncCommit c).getS c Reg.STRM_RX.COMMIT_STATE_LOCKED = b2n (s.strm c).locked := by
  unfold State.syncCommit
  extract_lets
  rw [State.getS_setS_beside _ _ (f := Reg.STRM_RX.COMMIT_STATE_QUEUED)
      (g := Reg.STRM_RX.COMMIT_STATE_LOCKED) _ (by decide) (by decide) (by decide) rfl (.inl (by decide)),
    State.getS_setS_self _ _ _ _ (by decide) (by decide)]
  cases (s.strm c).locked <;> rfl

@[simp] theorem State.strm_syncCommit (s : State) (c d : Nat) : (s.syncCommit c).strm d = s.strm d := rfl

@[simp] theorem State.strm_strmEvent (s : State) (c : Nat) (f : Field) (event sev sym d : Nat) :
    (s.strmEvent c f event sev sym).strm d = s.strm d := by
  rw [State.strm, State.strmEvent, State.post_streams]
  rfl

/-- An event of a channel leaves COMMIT_STATE. -/
theorem State.getS_strmEvent {f g : Field} (hf : f.off = 0x078) (hg : g.off = 0x068) (s : State) (c event sev sym : Nat) :
    (s.strmEvent c f event sev sym).getS c g = s.getS c g := by
  have hg' : (strmField c g).off = 0x068 := hg
  have hf' : (strmField c f).off = 0x078 := hf
  exact (State.post_fld _ _ _ _ _ _ _ _ (by rw [hg']; decide)).trans (State.fld_setFld_other _ _ _ _ _ _ (by
    rw [hg', hf']
    unfold csrKey
    omega))

/-! ### The lock point (R92) -/

/-- Whether the pending set of a channel fits the coming hand-over. -/
def State.pendFits (s : State) (c : Nat) : Bool :=
  match (s.strm c).pend with
  | some k => k.fits (s.sbit c Reg.STRM_RX.CTL_COMMIT_SLOT) (s.handOver c).2
  | none => false

theorem State.pendFits_iff {s : State} {c : Nat} : s.pendFits c = true ↔
    ∃ k, (s.strm c).pend = some k ∧ k.fits (s.sbit c Reg.STRM_RX.CTL_COMMIT_SLOT) (s.handOver c).2 = true := by
  unfold State.pendFits
  split
  next k h => simp [h]
  next h => simp [h]

/-- The lock point marks the hand-over and locks the pending set where it fits. -/
theorem State.strm_lockPoint (s : State) (c : Nat) : (s.lockPoint c).strm c =
    { s.strm c with lockDone := true, locked := (s.strm c).locked || s.pendFits c } := by
  unfold State.lockPoint
  rw [State.strm_syncCommit]
  exact State.strm_setStrm_self ..

theorem State.getS_locked_lockPoint (s : State) (c : Nat) :
    (s.lockPoint c).getS c Reg.STRM_RX.COMMIT_STATE_LOCKED = b2n ((s.lockPoint c).strm c).locked := by
  unfold State.lockPoint
  extract_lets
  rw [State.strm_syncCommit]
  exact State.getS_locked_syncCommit ..

theorem b2n_eq_one_iff {b : Bool} : b2n b = 1 ↔ b = true := by cases b <;> decide

/-- COMMIT_LOCK at its time is the lock point. -/
theorem execCommitLock_of_due {ch : Fin 1024} {s : State} (ht : s.timeRuns = true) (hl : (s.strm ch).lockDone = false)
    (hd : (s.handOver ch).1 ≤ 256) : execCommitLock ch s = .next (s.lockPoint ch) :=
  if_pos ⟨ht, by simp [hl], hd⟩

/-! ### What the arrival of a commit reads -/

/-- From `s` to `t` nothing has changed that the target and the set of an arriving commit of channel `c` are taken from: the
settings in effect, time, and the registers beside COMMIT_STATE, EVENTS and the counter banks. -/
structure SameSettings (c : Nat) (s t : State) : Prop where
  eff : (t.strm c).eff = (s.strm c).eff
  time : t.time = s.time
  reg : ∀ cls i o, o < 0x3A4 → o ≠ 0x068 → o ≠ 0x078 → t.reg cls i o = s.reg cls i o

namespace SameSettings

variable {c : Nat} {s t u : State}

theorem refl : SameSettings c s s := ⟨rfl, rfl, fun _ _ _ _ _ _ => rfl⟩

theorem trans (h : SameSettings c s t) (h' : SameSettings c t u) : SameSettings c s u where
  eff := h'.eff.trans h.eff
  time := h'.time.trans h.time
  reg cls i o ho h1 h2 := (h'.reg cls i o ho h1 h2).trans (h.reg cls i o ho h1 h2)

theorem setStrm {x : Strm} (hx : x.eff = (s.strm c).eff) : SameSettings c s (s.setStrm c x) where
  eff := by rw [State.strm_setStrm_self, hx]
  time := rfl
  reg _ _ _ _ _ _ := rfl

/-- A field of COMMIT_STATE or EVENTS. -/
theorem setS {d v : Nat} {f : Field} (hf : f.off = 0x068 ∨ f.off = 0x078) : SameSettings c s (s.setS d f v) where
  eff := rfl
  time := rfl
  reg cls i o ho h1 h2 := State.reg_setReg_other _ _ (by
    have : (strmField d f).off = f.off := rfl
    unfold csrKey
    omega)

theorem post {cls inst event sev detail : Nat} : SameSettings c s (s.post cls inst event sev detail) where
  eff := by rw [State.strm, State.post_streams, State.strm]
  time := State.post_time ..
  reg cl i o ho _ _ := by
    have h := State.post_fld s cls inst event sev detail i ⟨cl, o, 31, 0⟩ ho
    refine BitVec.eq_of_toNat_eq ?_
    have hw (w : Word) : wordField w 31 0 = w.toNat := by
      rw [wordField, Nat.pow_zero, Nat.div_one]
      exact Nat.mod_eq_of_lt w.isLt
    simpa only [State.fld, hw] using h

theorem strmEvent {event sev sym : Nat} {f : Field} (hf : f.off = 0x078) :
    SameSettings c s (s.strmEvent c f event sev sym) := (setS (.inr hf)).trans post

theorem syncCommit : SameSettings c s (s.syncCommit c) := by
  unfold State.syncCommit
  extract_lets
  exact ((setS (.inl rfl)).trans (setS (.inl rfl))).trans (setS (.inl rfl))

theorem lockPoint : SameSettings c s (s.lockPoint c) := by
  unfold State.lockPoint
  extract_lets
  exact (setStrm (by rfl)).trans syncCommit

/-! What is read through them. -/

theorem fld (h : SameSettings c s t) {f : Field} (ho : f.off < 0x3A4) (h1 : f.off ≠ 0x068) (h2 : f.off ≠ 0x078) (i : Nat) :
    t.fld f i = s.fld f i := by
  rw [State.fld, State.fld, h.reg _ _ _ ho h1 h2]

theorem sfld (h : SameSettings c s t) (f : Field) : t.sfld c f = s.sfld c f := State.sfld_congr h.eff f

theorem sbit (h : SameSettings c s t) (f : Field) : t.sbit c f = s.sbit c f := State.sbit_congr h.eff f

theorem timeRuns (h : SameSettings c s t) : t.timeRuns = s.timeRuns := by
  rw [State.timeRuns, State.bit, h.fld (by decide) (by decide) (by decide), ← State.bit, ← State.timeRuns]

theorem chGrid (h : SameSettings c s t) (d : Int) : t.chGrid c d = s.chGrid c d := by
  have htb (n : Nat) : t.gridTime n = s.gridTime n := by
    rw [State.gridTime, State.gridTime, State.tb, State.tb, h.time, h.fld (by decide) (by decide) (by decide)]
  simp only [State.chGrid, State.chMu, State.chExt, State.sInt, h.sfld, h.sbit, htb]

theorem commitTarget (h : SameSettings c s t) : t.commitTarget c = s.commitTarget c := by
  have hr (cls i : Nat) : t.reg cls i 0x064 = s.reg cls i 0x064 := h.reg _ _ _ (by decide) (by decide) (by decide)
  have hsfn (i : Nat) : t.fld Reg.TB.GRID_CFG_SFN_OFFSET i = s.fld Reg.TB.GRID_CFG_SFN_OFFSET i :=
    h.fld (by decide) (by decide) (by decide) i
  have hmu : t.chMu c = s.chMu c := by rw [State.chMu, State.chMu, h.sfld]
  have hext : t.chExt c = s.chExt c := h.sbit _
  unfold State.commitTarget
  simp only [hr, hmu, hext, h.sfld, h.sbit, h.timeRuns, h.chGrid, hsfn]

theorem shadowSet (h : SameSettings c s t) : t.shadowSet c = s.shadowSet c := by
  have ho : ∀ o ∈ rwsOffsets c, o < 0x3A4 ∧ o ≠ 0x068 ∧ o ≠ 0x078 := by
    unfold rwsOffsets
    cases isTx c <;> decide
  unfold State.shadowSet
  refine List.foldl_ext _ _ _ fun x o hm => ?_
  obtain ⟨h0, h1, h2⟩ := ho o hm
  rw [h.reg _ _ _ h0 h1 h2]

end SameSettings

/-! ### The arrival of a commit (R90-R93) -/

/-- At or after the lock point of the coming hand-over an arriving commit finds that point taken. -/
def State.lockIfNear (s : State) (c : Nat) : State :=
  let near := if s.timeRuns then
      let (d, _) := s.handOver c
      decide (d < 256) || (decide (d = 256) && (s.strm c).pend.isSome)
    else false
  if near && !(s.strm c).lockDone then s.lockPoint c else s

/-- A commit's arrival is counted. -/
def State.numberCommit (s : State) (c : Nat) : State :=
  s.setS c Reg.STRM_RX.COMMIT_STATE_COMMIT_NUM (s.getS c Reg.STRM_RX.COMMIT_STATE_COMMIT_NUM + 1)

/-- The whole shadow set joins the channel: as the pending set, or as the queued one of a channel with a locked set. -/
def State.joinCommit (s : State) (c : Nat) (target : Option Nat) (ops : List (BitVec 16)) : State :=
  let x := s.strm c
  let old (k : Option CommitSet) := (k.map (·.ops)).getD []
  let k (more : List (BitVec 16)) : CommitSet := ⟨s.shadowSet c, target, more ++ ops⟩
  let x := if x.locked then { x with queued := some (k (old x.queued)) } else { x with pend := some (k (old x.pend)) }
  (s.setStrm c x).syncCommit c

/-- What LATE and its event tell of a target. -/
def State.tellLate (s : State) (c : Nat) : Option (Option Nat) → State
  | none => s
  | some (some _) => s.setS c Reg.STRM_RX.COMMIT_STATE_LATE 0
  | some none =>
    let s := s.setS c Reg.STRM_RX.COMMIT_STATE_LATE 1
    s.strmEvent c Reg.STRM_RX.EVENTS_COMMIT_LATE 0x005 1 ((s.strm c).cur.getD 0)

theorem State.commitArrive_eq (s : State) (c : Nat) (ops : List (BitVec 16)) : s.commitArrive c ops =
    let s := (s.lockIfNear c).numberCommit c
    (s.tellLate c (s.commitTarget c)).joinCommit c (s.commitTarget c).join ops := by
  unfold State.commitArrive
  extract_lets x near s1 s2 _ s3
  have e : s2 = s3 := rfl
  clear_value s2 s3
  subst e
  cases s2.commitTarget c with
  | none =>
    simp only [Option.isSome_none, Bool.or_self, Bool.false_eq_true, if_false]
    rfl
  | some y =>
    cases y with
    | none =>
      simp only [Bool.true_or, if_true]
      rfl
    | some n =>
      simp only [Option.isSome_some, Bool.or_true, Bool.false_eq_true, if_true, if_false]
      rfl

/-- The lock point leaves the sets that wait, what is in effect, LATE and COMMIT_NUM. -/
theorem State.lockIfNear_leaves (s : State) (c : Nat) : SameSettings c s (s.lockIfNear c) ∧
    ((s.lockIfNear c).strm c).pend = (s.strm c).pend ∧ ((s.lockIfNear c).strm c).queued = (s.strm c).queued ∧
    ∀ f : Field, f.off = 0x068 → f.lsb ≤ f.msb → 3 < f.lsb → (s.lockIfNear c).getS c f = s.getS c f := by
  unfold State.lockIfNear
  extract_lets near
  split
  · exact ⟨.lockPoint, by rw [State.strm_lockPoint], by rw [State.strm_lockPoint],
      fun f ho hl h3 => State.getS_syncCommit _ c ho hl h3⟩
  · exact ⟨.refl, rfl, rfl, fun _ _ _ _ => rfl⟩

/-- LATE and its event are told; the channel, its settings and COMMIT_NUM stand. -/
theorem State.tellLate_leaves (s : State) (c : Nat) (x : Option (Option Nat)) : SameSettings c s (s.tellLate c x) ∧
    (s.tellLate c x).strm c = s.strm c ∧
    (s.tellLate c x).getS c Reg.STRM_RX.COMMIT_STATE_COMMIT_NUM = s.getS c Reg.STRM_RX.COMMIT_STATE_COMMIT_NUM := by
  have hnum (v : Nat) : (s.setS c Reg.STRM_RX.COMMIT_STATE_LATE v).getS c Reg.STRM_RX.COMMIT_STATE_COMMIT_NUM =
      s.getS c Reg.STRM_RX.COMMIT_STATE_COMMIT_NUM :=
    State.getS_setS_beside _ _ _ (by decide) (by decide) (by decide) rfl (by decide)
  unfold State.tellLate
  split
  · exact ⟨.refl, rfl, rfl⟩
  · exact ⟨.setS (.inl rfl), rfl, hnum 0⟩
  · refine ⟨(SameSettings.setS (.inl rfl)).trans (.strmEvent rfl), State.strm_strmEvent .., ?_⟩
    exact (State.getS_strmEvent rfl (by decide) ..).trans (hnum 1)

/-- What LATE reads once a target is told: it stands without one, and else it is 1 of a target outside the window (R93). -/
theorem State.getS_late_tellLate (s : State) (c : Nat) (x : Option (Option Nat)) :
    (s.tellLate c x).getS c Reg.STRM_RX.COMMIT_STATE_LATE =
      x.elim (s.getS c Reg.STRM_RX.COMMIT_STATE_LATE) (fun t => b2n t.isNone) := by
  have hlate (v : Nat) : (s.setS c Reg.STRM_RX.COMMIT_STATE_LATE v).getS c Reg.STRM_RX.COMMIT_STATE_LATE = v % 2 :=
    State.getS_setS_self _ _ _ _ (by decide) (by decide)
  unfold State.tellLate
  split
  · rfl
  · exact hlate 0
  · exact (State.getS_strmEvent rfl (by decide) ..).trans (hlate 1)

/-- The set that joins is the whole shadow set: pending, or queued behind a locked one (R90, R92). -/
theorem State.joinCommit_strm (s : State) (c : Nat) (target : Option Nat) (ops : List (BitVec 16)) :
    ∃ k : CommitSet, k.words = s.shadowSet c ∧ (s.joinCommit c target ops).strm c =
      if (s.strm c).locked then { s.strm c with queued := some k } else { s.strm c with pend := some k } := by
  unfold State.joinCommit
  extract_lets x old k x'
  rw [State.strm_syncCommit, State.strm_setStrm_self]
  by_cases h : (s.strm c).locked = true
  · exact ⟨⟨s.shadowSet c, target, old x.queued ++ ops⟩, by dsimp only, (if_pos h).trans (if_pos h).symm⟩
  · exact ⟨⟨s.shadowSet c, target, old x.pend ++ ops⟩, by dsimp only, (if_neg h).trans (if_neg h).symm⟩

/-- Joining leaves LATE and COMMIT_NUM. -/
theorem State.getS_joinCommit (s : State) (c : Nat) (target : Option Nat) (ops : List (BitVec 16)) {f : Field}
    (ho : f.off = 0x068) (hl : f.lsb ≤ f.msb) (h : 3 < f.lsb) : (s.joinCommit c target ops).getS c f = s.getS c f :=
  State.getS_syncCommit _ c ho hl h

/-- What a commit's arrival does to its channel, and what it leaves (R90-R93). -/
theorem State.commitArrive_spec (s : State) (c : Nat) (ops : List (BitVec 16)) :
    ((s.commitArrive c ops).strm c).eff = (s.strm c).eff ∧
    (s.commitArrive c ops).getS c Reg.STRM_RX.COMMIT_STATE_COMMIT_NUM =
      (s.getS c Reg.STRM_RX.COMMIT_STATE_COMMIT_NUM + 1) % 2 ^ 16 ∧
    (s.commitArrive c ops).getS c Reg.STRM_RX.COMMIT_STATE_LATE =
      (s.commitTarget c).elim (s.getS c Reg.STRM_RX.COMMIT_STATE_LATE) (fun t => b2n t.isNone) ∧
    (((s.commitArrive c ops).strm c).locked = false → ((s.commitArrive c ops).strm c).queued = (s.strm c).queued ∧
      ∃ k, ((s.commitArrive c ops).strm c).pend = some k ∧ k.words = s.shadowSet c) ∧
    (((s.commitArrive c ops).strm c).locked = true → ((s.commitArrive c ops).strm c).pend = (s.strm c).pend ∧
      ∃ k, ((s.commitArrive c ops).strm c).queued = some k ∧ k.words = s.shadowSet c) := by
  rw [State.commitArrive_eq]
  extract_lets s1
  obtain ⟨hset, hpend, hqueued, hfld⟩ := s.lockIfNear_leaves c
  have hset1 : SameSettings c s s1 := hset.trans (.setS (.inl rfl))
  rw [hset1.commitTarget]
  obtain ⟨hset2, hstrm, hnum⟩ := s1.tellLate_leaves c (s.commitTarget c)
  have hlate := s1.getS_late_tellLate c (s.commitTarget c)
  generalize s1.tellLate c (s.commitTarget c) = s2 at *
  obtain ⟨k, hk, hjoin⟩ := s2.joinCommit_strm c (s.commitTarget c).join ops
  rw [State.getS_joinCommit s2 c _ ops rfl (by decide) (by decide), State.getS_joinCommit s2 c _ ops rfl (by decide) (by decide),
    hnum, hlate, hjoin, hstrm]
  rw [(hset1.trans hset2).shadowSet] at hk
  have hnum1 : s1.getS c Reg.STRM_RX.COMMIT_STATE_COMMIT_NUM = (s.getS c Reg.STRM_RX.COMMIT_STATE_COMMIT_NUM + 1) % 2 ^ 16 := by
    rw [← hfld Reg.STRM_RX.COMMIT_STATE_COMMIT_NUM rfl (by decide) (by decide)]
    exact State.getS_setS_self _ _ _ _ (by decide) (by decide)
  have hlate1 : s1.getS c Reg.STRM_RX.COMMIT_STATE_LATE = s.getS c Reg.STRM_RX.COMMIT_STATE_LATE := by
    rw [← hfld Reg.STRM_RX.COMMIT_STATE_LATE rfl (by decide) (by decide)]
    exact State.getS_setS_beside _ _ _ (by decide) (by decide) (by decide) rfl (by decide)
  rw [hnum1, hlate1]
  by_cases hl : (s1.strm c).locked = true
  · rw [if_pos hl]
    exact ⟨hset1.eff, rfl, rfl, fun h => absurd (hl.symm.trans h) (by decide), fun _ => ⟨hpend, k, rfl, hk⟩⟩
  · rw [if_neg hl]
    exact ⟨hset1.eff, rfl, rfl, fun _ => ⟨hqueued, k, rfl, hk⟩, fun h => absurd h hl⟩

/-- A write of COMMIT that reaches one channel with GO = 1 is that channel's commit (R90). -/
theorem execCommitArrive_of_hits {req : Fin 14} {tx : Bool} {sel : BitVec 10} {v : Word} {s : State} {i : Nat}
    (h : Claims.Hits s req (if tx then 0x09 else 0x08) sel.toNat 0x060 i) (hv : v.getLsbD 0 = true) :
    execCommitArrive req tx sel v s = .next (s.commitArrive (if tx then 512 + i else i) []) := by
  obtain ⟨hh, hm, ht⟩ := h
  have hgo : wordField v 0 0 = 1 := by
    rw [getLsbD_eq_testBit_wordField v le_rfl le_rfl, Nat.sub_self, Nat.testBit_zero] at hv
    have := wordField_lt v 0 0
    have hodd : wordField v 0 0 % 2 = 1 := of_decide_eq_true hv
    omega
  rw [execCommitArrive, if_pos hh, State.commitWrite, State.eachMember, if_pos hm, ht, List.foldl_cons, List.foldl_nil, if_pos hgo]
  cases tx <;> rfl

/-- Settles O35: the arrival, the lock point and the boundary, each by what it leaves of the channel's commits. -/
theorem commitsApplyWhole : Obligations.CommitsApplyWhole := by
  refine ⟨?_, fun ch s ht hl hd => ?_, ?_⟩
  · intro req tx sel v s i h hv c
    obtain ⟨heff, hnum, hlate, hpend, hqueued⟩ := s.commitArrive_spec c []
    refine ⟨_, execCommitArrive_of_hits h hv, heff, hnum, fun ht => by rw [hlate, ht]; rfl, fun x ht => ?_, hpend, hqueued⟩
    rw [hlate, ht, Option.elim_some, b2n_eq_one_iff, Option.isNone_iff_eq_none]
  · refine ⟨_, execCommitLock_of_due ht hl hd, ?_⟩
    rw [State.getS_locked_lockPoint, b2n_eq_one_iff, State.strm_lockPoint]
    exact ⟨rfl, rfl, rfl, by rw [Bool.or_eq_true, State.pendFits_iff], .rfl⟩
  · intro ch s ht hr hw hc code slotWise
    obtain ⟨s₁, start, hview, heff, hpend, hmark⟩ := s.boundary_commits ch code (s.chGrid ch 0)
    obtain ⟨heff₁, hpend₁, -, -, -, hw₁⟩ := CommitView.mk.inj hview
    have hslot : s₁.sbit ch Reg.STRM_RX.CTL_COMMIT_SLOT = slotWise := State.sbit_congr heff₁ _
    refine ⟨_, execSymbolBoundary_of_due ht hr hw hc, fun h => ?_, fun h0 h1 => ?_⟩
    · obtain ⟨hd, he⟩ := State.takeSettings_handOver (hw₁.trans hw) (hslot ▸ h) start
      refine ⟨hmark hd, heff.trans (he.trans ?_)⟩
      rw [Strm.applies_congr hview, hslot, heff₁]
      cases (s.strm ch).applies slotWise false code <;> rfl
    · obtain ⟨he, hp, -⟩ := CommitView.mk.inj (State.takeSettings_between (hw₁.trans hw) (hslot.trans h0) h1 start)
      exact ⟨heff.trans (he.trans heff₁), hpend.trans (hp.trans hpend₁)⟩

end Sys2Proof.Machine

namespace Sys2Proof.Machine

/-! ## A packet row (R38, R41) -/

/-- A row does nothing but for the ring served next. -/
theorem State.packetRow_of_nextRing_ne {s : State} {fn : Nat} (h : s.nextRing ≠ some fn) (op : Nat)
    (f : State → Packet → State) : s.packetRow fn op f = s :=
  if_neg h

/-- A packet of the row's opcode is taken: refused with the first check that fails, else carried out. -/
theorem State.packetRow_of_taken {s u : State} {fn : Fin 16} {op : Nat} {p : Packet} (h : Claims.Taken s fn op p u)
    (f : State → Packet → State) :
    s.packetRow fn op f = (u.refusal p).elim (f u p) (fun x => u.reply p x.1 x.2 []) := by
  obtain ⟨hn, rfl, hv, ho, rfl⟩ := h
  rw [State.packetRow, if_pos hn]
  generalize s.packetAt fn = x at *
  obtain ⟨p, t⟩ := x
  dsimp only at hv ho ⊢
  rw [if_pos ⟨hv, ho⟩]
  cases State.refusal _ _ <;> rfl

/-- A packet that fails a check gets that check's reply. -/
theorem State.packetRow_of_refused {s u : State} {fn : Fin 16} {op d : Nat} {p : Packet} {st : Status}
    (h : Claims.Taken s fn op p u) (hr : u.refusal p = some (st, d)) (f : State → Packet → State) :
    s.packetRow fn op f = u.reply p st d [] := by
  rw [State.packetRow_of_taken h, hr, Option.elim_some]

/-- A packet that passes every check is carried out. -/
theorem State.packetRow_of_ready {s u : State} {fn : Fin 16} {op : Nat} {p : Packet} (h : Claims.Ready s fn op p u)
    (f : State → Packet → State) : s.packetRow fn op f = f u p := by
  rw [State.packetRow_of_taken h.1, h.2, Option.elim_none]

/-- The packet at a ring's head is of that ring's function. -/
theorem State.packetAt_fn (s : State) (fn : Nat) : (s.packetAt fn).1.fn = fn := rfl

theorem fn_eq_of_taken {s u : State} {fn : Fin 16} {op : Nat} {p : Packet} (h : Claims.Taken s fn op p u) : p.fn = fn := by
  obtain ⟨-, rfl, -, -, -⟩ := h
  exact s.packetAt_fn fn

/-- A row whose meaning is `f` leaves what `f` makes of the packet that passed. -/
theorem exec_of_ready {c : Instr} {s u : State} {fn : Fin 16} {op : Nat} {p : Packet} {f : State → Packet → State} {t : State}
    (h : Claims.Ready s fn op p u) (hc : exec c s = .next (s.packetRow fn op f)) (ht : f u p = t) : exec c s = .next t := by
  rw [hc, State.packetRow_of_ready h, ht]

/-! ## Bits, bytes and words -/

theorem bitOf_eq_testBit (n k : Nat) : bitOf n k = n.testBit k := by
  rw [bitOf, Nat.testBit_eq_decide_div_mod_eq, beq_eq_decide]

theorem bitOf_eq_getLsbD (w : Word) (k : Nat) : bitOf w.toNat k = w.getLsbD k := bitOf_eq_testBit ..

@[simp] theorem wordField_zero (w : Word) (m : Nat) : wordField w m 0 = w.toNat % 2 ^ (m + 1) := by
  simp [wordField]

/-- The top bits of a word. -/
theorem wordField_top (w : Word) {l : Nat} (hl : l ≤ 32) : wordField w 31 l = w.toNat / 2 ^ l := by
  refine Nat.mod_eq_of_lt (Nat.div_lt_of_lt_mul ?_)
  rw [← Nat.pow_add, Nat.add_sub_cancel' hl]
  exact w.isLt

/-- A number gathered bit by bit is below its power of two and has the bits it was gathered from. -/
theorem sum_bits (f : Nat → Bool) (n : Nat) : ((List.range n).map (fun k => b2n (f k) * 2 ^ k)).sum < 2 ^ n ∧
    ∀ k, (((List.range n).map (fun k => b2n (f k) * 2 ^ k)).sum).testBit k = (decide (k < n) && f k) := by
  have e : ((List.range n).map (fun k => b2n (f k) * 2 ^ k)).sum =
      (List.range n).foldl (fun a i => if f i then a + 2 ^ i else a) 0 := by
    rw [List.sum_eq_foldl, List.foldl_map]
    refine List.foldl_ext _ _ _ fun a i _ => ?_
    cases f i <;> simp [b2n]
  rw [e]
  exact foldBits f n

/-! ## Reading packets (R44) -/

/-- A register access's offset `k` (R44). -/
theorem offAt_eq (w : Word) (k : Nat) : offAt w k = (w.toNat % 2 ^ 10 / 4 * 4 + 4 * k) % 0x400 := by
  rw [offAt, wordField_zero]

theorem loWord_eq (n : Nat) : loWord n = BitVec.ofNat 32 n := BitVec.eq_of_toNat_eq (by simp [loWord, w32])

/-- Bit `j` of word `k` of ENUMERATE. -/
theorem getLsbD_presence (f : Nat → Bool) {j : Nat} (hj : j < 32) :
    (w32 ((List.range 32).map (fun j => b2n (f j) * 2 ^ j)).sum).getLsbD j = f j := by
  rw [w32, BitVec.getLsbD_ofNat, (sum_bits f 32).2 j]
  simp [hj]

theorem State.enumerate_spec (u : State) (p : Packet) : ∃ l : List Word, u.enumerate p = u.replyOk p l ∧ l.length = 12 ∧
    l.getD 0 0 = BitVec.ofNat 32 (instances p.cls).length ∧ l.getD 1 0 = BitVec.ofNat 32 (b2n (classGroup p.cls)) ∧
    ∀ i, i < 320 → (l.getD (2 + i / 32) 0).getLsbD (i % 32) =
      decide ((p.w 0).toNat / 32 * 32 + i < (instances p.cls).length) := by
  refine ⟨_, rfl, by simp, rfl, rfl, fun i hi => ?_⟩
  have hk : i / 32 < 10 := by omega
  rw [List.getD_append_right _ _ _ _ (by simp), List.getD_eq_getElem _ _ (by simpa using hk)]
  simp only [List.length_cons, List.length_nil, Nat.zero_add, Nat.reduceAdd, Nat.add_sub_cancel_left, List.getElem_map,
    List.getElem_range]
  rw [getLsbD_presence _ (Nat.mod_lt _ (by decide)), Nat.add_assoc, Nat.div_add_mod]

/-- Whether word `k` of bytes read holds poison. -/
def poisonAt (l : List (Byte × Bool)) (k : Nat) : Bool := ((l.drop (4 * k)).take 4).any Prod.snd

/-- The `n` words of bytes read, a poisoned one as zero, and the bits of the poisoned ones, as replies give them (R44). -/
def replyWords (l : List (Byte × Bool)) (n : Nat) : List Word :=
  (List.range n).map fun k => if poisonAt l k then 0 else w32 (leNat (((l.drop (4 * k)).take 4).map Prod.fst))

def poisonMask (l : List (Byte × Bool)) (n : Nat) : Nat := ((List.range n).map fun k => b2n (poisonAt l k) * 2 ^ k).sum

@[simp] theorem replyWords_length (l : List (Byte × Bool)) (n : Nat) : (replyWords l n).length = n := by simp [replyWords]

theorem replyWords_getD (l : List (Byte × Bool)) {n k : Nat} (h : k < n) : (replyWords l n).getD k 0 =
    if poisonAt l k then 0 else w32 (leNat (((l.drop (4 * k)).take 4).map Prod.fst)) := by
  rw [List.getD_eq_getElem _ _ (by simpa using h)]
  simp [replyWords]

theorem poisonMask_testBit (l : List (Byte × Bool)) {n k : Nat} (h : k < n) : (poisonMask l n).testBit k = poisonAt l k := by
  rw [poisonMask, (sum_bits _ n).2, decide_eq_true h, Bool.true_and]

/-- What Dvorys answers to a MEM_READ whose access ends with `st`. -/
def memReadReply (p : Packet) (a n : Nat) (st : BusStatus) (l : List (Byte × Bool)) (v : State) : State :=
  if st = .ok then v.reply p (if poisonMask l n = 0 then .ok else .poisoned) (poisonMask l n) (replyWords l n)
  else v.reply p (busAnswer st) (v.busDetail st a 0 0) []

theorem State.memReadPacket_eq {u v : State} {p : Packet} {a n : Nat} {st : BusStatus} {l : List (Byte × Bool)}
    (ha : addr40 (p.w 0) (p.w 1) / 4 * 4 = a) (hn : readCount (p.w 2).toNat = n) (h : u.pairRead a (4 * n) = (st, l, v)) :
    u.memReadPacket p = memReadReply p a n st l v := by
  subst ha hn
  unfold State.memReadPacket
  dsimp only
  rw [h]
  rfl

/-- The projected draws of `n` periods are `n`. -/
theorem State.planDraws_length (s : State) (n : Nat) (f : Nat → Bool) : (s.planDraws n f).length = n := by
  simp [State.planDraws]

/-- PLAN answers its count of draws, those of the whole device where it names the ledger. -/
theorem State.plan_spec (u : State) (p : Packet) : ∃ l : List Word, u.plan p = u.replyOk p l ∧ l.length = readCount (p.w 0).toNat ∧
    (p.cls = 0x28 → l = (u.planDraws l.length (fun _ => true)).map (fun x => BitVec.ofNat 32 (min 0xFFFFFFFF (x / 256)))) := by
  have hl (f : Nat → Bool) := u.planDraws_length (readCount (p.w 0).toNat) f
  unfold State.plan
  extract_lets n l
  have hn : l.length = n := by
    by_cases hc : p.cls = 0x28
    · simp only [l, if_pos hc]; exact hl _
    · simp only [l, if_neg hc]
      split
      · exact hl _
      · exact List.length_replicate
  refine ⟨_, rfl, by rw [List.length_map, hn], fun hc => ?_⟩
  rw [List.length_map, hn]
  simp only [l, if_pos hc, n]
  rfl

theorem State.readCounter_of_powered {u : State} {cls i : Nat} (hp : u.powered cls i = true) (hf : u.fencedUnit cls i = false)
    (k : Nat) : u.readCounter cls i k = (u.counter cls i k, bitOf (u.reg cls i 0x3A4).toNat k, false) := by
  rw [State.readCounter, hp, hf]
  rfl

theorem b2n_bitOf (n k : Nat) : b2n (bitOf n k) = n / 2 ^ k % 2 := by
  unfold bitOf
  obtain h | h := Nat.mod_two_eq_zero_or_one (n / 2 ^ k) <;> rw [h] <;> rfl

/-- COUNTER_READ answers with three words for each of the four lowest counters of its mask. -/
theorem State.counterPacket_eq {u : State} {p : Packet} {i : Nat} (ht : u.readTarget p.cls p.sel 0x3C0 = some i)
    (hp : u.powered p.cls i = true) (hf : u.fencedUnit p.cls i = false) :
    u.counterPacket p = u.replyOk p ((((List.range 8).filter (fun k => (p.w 0).getLsbD k)).take 4).flatMap fun k =>
      [BitVec.ofNat 32 (u.counter p.cls i k),
        BitVec.ofNat 32 (u.counter p.cls i k / 2 ^ 32 + 2 ^ 31 * ((u.reg p.cls i 0x3A4).toNat / 2 ^ k % 2)),
        loWord u.time.tcnt.toNat]) := by
  have hm : (fun k => bitOf (p.w 0).toNat k) = fun k => (p.w 0).getLsbD k := funext fun k => bitOf_eq_getLsbD _ k
  unfold State.counterPacket
  rw [hm]
  refine congrArg (u.replyOk p) (congrArg (List.flatMap · _) (funext fun k => ?_))
  simp only [ht, State.readCounter_of_powered hp hf, b2n_bitOf, loWord_eq (u.counter p.cls i k)]
  rfl

/-- A counter of no cycles reads what its two registers hold. -/
theorem State.counter_of_event {u : State} {cls i k : Nat}
    (h : cycleEvent cls ((u.reg cls i (0x380 + 4 * k)).toNat % 2 ^ 10) = false) :
    u.counter cls i k = (u.reg cls i (0x3C0 + 8 * k)).toNat + 2 ^ 32 * ((u.reg cls i (0x3C4 + 8 * k)).toNat % 2 ^ 16) := by
  rw [State.counter, wordField_zero, if_neg (by rw [h]; decide)]

/-- JOURNAL_READ answers twelve words of the bytes it read. -/
theorem State.journalPacket_eq (u : State) (p : Packet) : ∃ (l : List (Byte × Bool)) (v : State),
    u.journalPacket p = v.reply p (if poisonMask l 12 = 0 then .ok else .poisoned) (poisonMask l 12) (replyWords l 12) :=
  ⟨_, _, rfl⟩

/-- A poisoned word is answered as zero. -/
theorem replyWords_of_poisoned {l : List (Byte × Bool)} {n k : Nat} (hk : k < n) (h : (poisonMask l n).testBit k = true) :
    (replyWords l n).getD k 0 = 0 := by
  rw [replyWords_getD l hk, if_pos (poisonMask_testBit l hk ▸ h)]

theorem State.regRead_eq (u : State) (p : Packet) : u.regRead p = Claims.answered u p
    ((List.range (if (p.w 0).toNat / 2 ^ 16 % 2 ^ 12 = 0 then 1 else min ((p.w 0).toNat / 2 ^ 16 % 2 ^ 12) 12)).map
      (fun k => ((p.w 0).toNat % 2 ^ 10 / 4 * 4 + 4 * k) % 0x400)) := by
  rw [State.regRead, funext (offAt_eq (p.w 0))]
  rfl

theorem State.commitStatePacket_eq (u : State) (p : Packet) : u.commitStatePacket p =
    let r := u.dvReads p [0x068, 0x06C]
    r.2.replyOk p [BitVec.ofNat 32 ((r.1.headD 0).toNat % 4), BitVec.ofNat 32 ((r.1.headD 0).toNat / 2 ^ 16), r.1.getD 1 0] := by
  unfold State.commitStatePacket
  generalize u.dvReads p [0x068, 0x06C] = r
  obtain ⟨l, v⟩ := r
  dsimp only
  rw [wordField_zero, wordField_top _ (by decide)]
  rfl

/-- Settles O54: a packet that passed its checks is what its row makes of it, each row with its answer. -/
theorem readingPacketsAnswer : Obligations.ReadingPacketsAnswer := by
  refine ⟨fun fn c op offs p s u h hc => ?regs, fun fn p s u h => exec_of_ready h rfl rfl, fun fn p s u h => exec_of_ready h rfl rfl,
    fun fn p s u h => exec_of_ready h rfl rfl, fun fn p s u h => exec_of_ready h rfl (u.commitStatePacket_eq p),
    fun fn p s u h => exec_of_ready h rfl rfl,
    fun fn p s u h => exec_of_ready h rfl rfl, fun fn p s u h => ⟨_, exec_of_ready h rfl rfl, rfl, rfl, rfl, rfl, ?fn⟩,
    fun fn p s u h => exec_of_ready h rfl ?mode, fun fn p s u h => ?enumerate, ?memory, ?counters,
    fun fn p s u h => ?plan, fun fn p s u h => ?journal, fun fn p s u h => ⟨_, _, exec_of_ready h rfl rfl, rfl, rfl, rfl, rfl⟩⟩
  case regs =>
    simp only [List.mem_cons, Prod.mk.injEq, List.not_mem_nil, or_false] at hc
    obtain ⟨rfl, rfl, rfl⟩ | ⟨rfl, rfl, rfl⟩ | ⟨rfl, rfl, rfl⟩ | ⟨rfl, rfl, rfl⟩ := hc
    · exact exec_of_ready h rfl rfl
    · exact exec_of_ready h rfl rfl
    · exact exec_of_ready h rfl rfl
    · exact exec_of_ready h rfl (u.regRead_eq p)
  case fn => exact congrArg (BitVec.ofNat 32) (fn_eq_of_taken h.1)
  case mode => cases u.modes.target <;> rfl
  case enumerate =>
    obtain ⟨l, hl, hs⟩ := u.enumerate_spec p
    exact ⟨l, exec_of_ready h rfl hl, hs⟩
  case memory =>
    intro fn p s u v st l h n a hr
    have he := exec_of_ready (c := .memRead fn) h rfl (State.memReadPacket_eq rfl rfl hr)
    refine ⟨fun hst => ?_, fun hst => ?_, fun hst => ?_, fun hst => ?_⟩ <;> subst hst
    · exact he
    · exact he
    · exact he
    · exact ⟨_, _, he, replyWords_length l n, (sum_bits _ n).1,
        fun k hk => ⟨poisonMask_testBit l hk, replyWords_getD l hk⟩⟩
  case counters =>
    intro fn p s u i h ht hp hf ks
    exact ⟨_, fun k => State.counter_of_event, exec_of_ready h rfl (State.counterPacket_eq ht hp hf)⟩
  case plan =>
    obtain ⟨l, hl, hs⟩ := u.plan_spec p
    exact ⟨l, exec_of_ready h rfl hl, hs⟩
  case journal =>
    obtain ⟨l, v, hl⟩ := u.journalPacket_eq p
    exact ⟨_, _, v, exec_of_ready h rfl hl, replyWords_length l 12, fun k => replyWords_of_poisoned⟩

end Sys2Proof.Machine

namespace Sys2Proof.Machine

/-! ## Configuration packets (R39) -/

/-- The mode bars a packet where it names a member and some register it writes takes no write (R10). -/
theorem State.modeBars_iff (u : State) (p : Packet) (offs : List Nat) :
    u.modeBars p offs = true ↔ u.members p ≠ [] ∧ ∃ o ∈ offs, u.modeTakes p.cls o = false := by
  simp [State.modeBars, List.any_eq_true]

/-- A packet that wrote registers ends as R39 and R10 say. -/
theorem State.replyWritten_eq_endedAt (u v : State) (p : Packet) (offs : List Nat) (res : List Word) :
    v.replyWritten p (u.modeBars p offs) res = Claims.endedAt u v p offs res :=
  if_congr (u.modeBars_iff p offs) rfl rfl

/-- A configuration packet that makes the writes `l` is carried out and answered as `wrote` says. -/
theorem State.configure_eq_wrote {u : State} {p : Packet} {l : List (Nat × Word)} (h : u.configWrites p = l) :
    u.configure p = Claims.wrote u p l := by
  subst h
  exact u.replyWritten_eq_endedAt ..

/-- A row of a configuration opcode, by the writes its opcode makes. -/
theorem exec_configure {c : Instr} {fn : Fin 16} {op : Nat} {p : Packet} {s u : State} {l : List (Nat × Word)}
    (h : Claims.Ready s fn op p u) (hc : exec c s = .next (s.packetRow fn op State.configure))
    (hl : p.op = op → u.configWrites p = l) : exec c s = .next (Claims.wrote u p l) := by
  have hop : p.op = op := by obtain ⟨⟨-, -, -, h, -⟩, -⟩ := h; exact h
  exact exec_of_ready h hc (State.configure_eq_wrote (hl hop))

/-- The bits of PROTECT as PROTECT_SET writes them. -/
theorem State.protectWord_spec (u : State) (p : Packet) :
    (u.protectWord p).toNat % 2 ^ 6 = (p.w 0).toNat % 2 ^ 6 ∧ (u.protectWord p).toNat / 2 ^ 8 % 2 ^ 6 = (p.w 1).toNat % 2 ^ 6 ∧
    (u.protectWord p).toNat / 2 ^ 16 % 2 = (p.w 1).toNat / 2 ^ 8 % 2 ∧
    (u.protectWord p).toNat / 2 ^ 17 =
      if p.cls = 0x58 then u.fld Reg.MAC.PROTECT_ACTIVE p.sel else u.fld Reg.AHNENT.PROTECT_ACTIVE p.sel := by
  have hact : (if p.cls = 0x58 then u.fld Reg.MAC.PROTECT_ACTIVE p.sel else u.fld Reg.AHNENT.PROTECT_ACTIVE p.sel) < 2 := by
    split
    · exact wordField_lt ..
    · exact wordField_lt ..
  unfold State.protectWord
  generalize (if p.cls = 0x58 then u.fld Reg.MAC.PROTECT_ACTIVE p.sel else u.fld Reg.AHNENT.PROTECT_ACTIVE p.sel) = act at *
  simp only [w32, wordField, BitVec.toNat_ofNat]
  omega

theorem State.regModify_single {u : State} {p : Packet} (hs : p.sel < 0x200) :
    let off := (p.w 0).toNat % 2 ^ 10 / 4 * 4 % 0x400
    let r := u.csrRead 8 p.cls p.sel off
    u.regModify p = Claims.endedAt u (r.2.csrWrite 8 p.cls p.sel off ((r.1 &&& ~~~(p.w 1)) ||| (p.w 2 &&& p.w 1))) p [off] [r.1] := by
  intro off r
  have ho : offAt (p.w 0) 0 = off := offAt_eq ..
  have hn : ¬(0x200 ≤ p.sel ∧ singleOnly p.cls off = true) := fun h => absurd h.1 (by omega)
  unfold State.regModify
  rw [ho, State.members, if_pos hs]
  simp only [List.foldl_cons, List.foldl_nil, State.dvWrite, if_neg hn, List.nil_append, List.headD_cons]
  exact u.replyWritten_eq_endedAt ..

/-! ## Completion rings (R34, R37) -/

theorem State.storeSlot_is (s : State) (a : Nat) (bytes : List Byte) : ∃ m c, s.storeSlot a bytes = { s with mem := m, chk := c } := by
  unfold State.storeSlot
  induction List.range 4 generalizing s with
  | nil => exact ⟨_, _, rfl⟩
  | cons k ks ih =>
    obtain ⟨m, c, h⟩ := ih (s.storeWord (a + 16 * k) ((bytes.drop (16 * k)).take 16) false)
    exact ⟨m, c, h⟩

/-- A ring's page after a slot was written: CQ_TAIL moves on, PHASE inverts at the wrap. -/
def RingPage.advanced (g : RingPage) : RingPage :=
  { g with cqTail := g.cqTail + 1, phase := if g.cqTail = 4095 then !g.phase else g.phase }

/-- The words of one slot: its first with PHASE in bit 31, then the rest. -/
def slotWords (w0 : Nat) (phase : Bool) (rest : List Word) : List Word :=
  (List.range 16).map fun i => if i = 0 then BitVec.ofNat 32 (w0 % 2 ^ 31 + 2 ^ 31 * b2n phase) else rest.getD (i - 1) 0

theorem State.cqSlot_eq (s : State) (fn w0 : Nat) (rest : List Word) : s.cqSlot fn w0 rest =
    let g := s.page fn
    let a := ringBase g.cqBase g.cqTreasury + 64 * g.cqTail.toNat
    let bytes := wordsToBytes (slotWords w0 g.phase rest)
    State.setPage (if g.cqTreasury then s.storeSlot a bytes else if s.hostUp fn then { s with host := mwrites s.host a bytes } else s)
      fn g.advanced :=
  rfl

/-- A slot of a host ring goes to the host, where it can be reached. -/
theorem State.cqSlot_host {s : State} {fn : Nat} (h : (s.page fn).cqTreasury = false) (w0 : Nat) (rest : List Word) :
    s.cqSlot fn w0 rest = State.setPage
      { s with
        host :=
          if s.hostUp fn then mwrites s.host (ringBase (s.page fn).cqBase false + 64 * (s.page fn).cqTail.toNat)
            (wordsToBytes (slotWords w0 (s.page fn).phase rest))
          else s.host }
      fn (s.page fn).advanced := by
  rw [State.cqSlot_eq]
  dsimp only
  rw [if_neg (by rw [h]; decide), h]
  cases s.hostUp fn <;> rfl

/-- A slot of a Treasury ring is stored with its check bits. -/
theorem State.cqSlot_treasury {s : State} {fn : Nat} (h : (s.page fn).cqTreasury = true) (w0 : Nat) (rest : List Word) :
    ∃ m c, s.cqSlot fn w0 rest = State.setPage { s with mem := m, chk := c } fn (s.page fn).advanced := by
  rw [State.cqSlot_eq]
  dsimp only
  rw [if_pos h]
  obtain ⟨m, c, he⟩ := s.storeSlot_is (ringBase (s.page fn).cqBase (s.page fn).cqTreasury + 64 * (s.page fn).cqTail.toNat)
    (wordsToBytes (slotWords w0 (s.page fn).phase rest))
  exact ⟨m, c, congrArg (State.setPage · fn _) he⟩

theorem State.cqSlot_is (s : State) (fn w0 : Nat) (rest : List Word) :
    ∃ m c h, s.cqSlot fn w0 rest = State.setPage { s with mem := m, chk := c, host := h } fn (s.page fn).advanced := by
  cases hc : (s.page fn).cqTreasury
  · exact ⟨_, _, _, State.cqSlot_host hc w0 rest⟩
  · obtain ⟨m, c, h⟩ := State.cqSlot_treasury hc w0 rest
    exact ⟨m, c, _, h⟩

theorem State.raise_is (s : State) (fn v : Nat) : ∃ x, s.raise fn v = { s with pcie := { s.pcie with vecs := x } } := by
  unfold State.raise
  split
  · exact ⟨_, rfl⟩
  · exact ⟨_, rfl⟩

theorem State.signalRing_is (s : State) (fn : Nat) (now : Bool) : ∃ n k v, s.signalRing fn now =
    State.setPage { s with pcie := { s.pcie with vecs := v } } fn { s.page fn with unsignalled := n, coalSince := k } := by
  unfold State.signalRing
  extract_lets g n
  split
  · obtain ⟨v, h⟩ := (s.setPage fn { g with unsignalled := 0 }).raise_is fn g.vector.toNat
    exact ⟨0, g.coalSince, v, h⟩
  · exact ⟨_, _, _, rfl⟩

/-- A reply: one slot in its ring's memory or the host's, the ring's page moved on, and perhaps a vector raised. -/
theorem State.reply_is (u : State) (p : Packet) (st : Status) (d : Nat) (l : List Word) : ∃ m c h v n k,
    u.reply p st d l = ((State.setPage { u with mem := m, chk := c, host := h, pcie := { u.pcie with vecs := v } } p.fn
      (u.page p.fn).advanced).setPage p.fn { (u.page p.fn).advanced with unsignalled := n, coalSince := k }) := by
  unfold State.reply State.answer
  extract_lets w2 s
  obtain ⟨m, c, h, hs⟩ := u.cqSlot_is p.fn (st.code + 2 ^ 16 * (min 12 l.length) + 2 ^ 20 * 0) (p.tag :: w2 :: BitVec.ofNat 32 d :: l.take 12)
  obtain ⟨n, k, v, ht⟩ := s.signalRing_is p.fn p.intr
  refine ⟨m, c, h, v, n, k, ht.trans ?_⟩
  simp only [s, hs, State.page_setPage_self]
  rfl

@[simp] theorem State.reply_csr (u : State) (p : Packet) (st : Status) (d : Nat) (l : List Word) : (u.reply p st d l).csr = u.csr := by
  obtain ⟨m, c, h, v, n, k, e⟩ := u.reply_is p st d l
  rw [e, State.setPage_csr, State.setPage_csr]

@[simp] theorem State.reply_dma (u : State) (p : Packet) (st : Status) (d : Nat) (l : List Word) : (u.reply p st d l).dma = u.dma := by
  obtain ⟨m, c, h, v, n, k, e⟩ := u.reply_is p st d l
  rw [e, State.setPage_dma, State.setPage_dma]

/-! ## DATA_RING_SET (R45, R275) -/

/-- The registers of a DMA engine's data rings only store. -/
theorem State.writeOne_ring {o : Nat} (h : 0x200 ≤ o) (h' : o < 0x300) (s : State) (req e : Nat) (v : Word) :
    s.writeOne req 0x40 e o v = s.storeReg 0x40 e o v := by
  have : s.writeOne req 0x40 e o v = s.dmaWrite e o v := by
    unfold State.writeOne
    rw [if_neg (by omega), if_neg (by omega), if_neg (by omega)]
    rfl
  rw [this, State.dmaWrite, if_neg (by omega), if_neg (by omega), if_neg (by omega)]

theorem State.storeReg_csr_only (s : State) (cls i o : Nat) (v : Word) : ∃ r, s.storeReg cls i o v = { s with csr := r } := by
  unfold State.storeReg
  cases findReg cls o
  · exact ⟨_, rfl⟩
  · exact ⟨_, rfl⟩

/-- A write of a data ring's register changes registers alone. -/
theorem State.csrWrite_ring_csr_only {o : Nat} (h : 0x200 ≤ o) (h' : o < 0x300) (s : State) (req e : Nat) (v : Word) :
    ∃ r, s.csrWrite req 0x40 e o v = { s with csr := r } := by
  unfold State.csrWrite State.hubEach State.eachMember
  have hw (s : State) (i : Nat) : ∃ r, s.writeOne req 0x40 i o v = { s with csr := r } := by
    rw [State.writeOne_ring h h']
    exact s.storeReg_csr_only ..
  split
  · exact ⟨_, rfl⟩
  · split
    · split
      · exact foldl_csr _ s hw
      · exact ⟨_, rfl⟩
    · exact ⟨_, rfl⟩

/-- Whom a write of one DMA engine's register names does not hang on registers. -/
theorem State.writeTargets_dma_csr (s : State) (r : Tab Word) {e : Nat} (he : e < 0x200) (o : Nat) :
    State.writeTargets { s with csr := r } 0x40 e o = s.writeTargets 0x40 e o := by
  simp only [State.writeTargets, if_pos he]
  rfl

/-- A taken write of a data ring's register stores its word. -/
theorem State.csrWrite_ring {s : State} {e o : Nat} (h : 0x200 ≤ o) (h' : o < 0x300) (he : e < 0x200)
    (hm : s.modeTakes 0x40 o = true) {req : Nat} (hh : s.hubTakes req = true) (ht : s.writeTargets 0x40 e o = [e]) (v : Word) :
    s.csrWrite req 0x40 e o v = s.storeReg 0x40 e o v := by
  rw [State.csrWrite_eq_foldl (by omega) hh hm, ht, List.foldl_cons, List.foldl_nil, State.writeOne_ring h h']

/-- The fields LOG2, FN and VECTOR of each ring's configuration register take their bits. -/
theorem findReg_ringCfg : ∀ k : Fin 16, ∃ r, findReg 0x40 (0x208 + 0x10 * k.val) = some r ∧
    ∀ x ∈ [(4, 0), (11, 8), (26, 16)], ∃ f ∈ r.fields, f.msb = x.1 ∧ f.lsb = x.2 ∧ f.ty = .rw := by
  decide +kernel

/-- What a data ring's configuration register holds of a word stored into it. -/
theorem State.fld_storeReg_ringCfg (s : State) {k : Nat} (hk : k < 16) (e : Nat) (v : Word) {m l : Nat}
    (hx : (m, l) ∈ [(4, 0), (11, 8), (26, 16)]) :
    wordField ((s.storeReg 0x40 e (0x208 + 0x10 * k) v).reg 0x40 e (0x208 + 0x10 * k)) m l = wordField v m l := by
  obtain ⟨r, hr, hf⟩ := findReg_ringCfg ⟨k, hk⟩
  obtain ⟨f, hf, rfl, rfl, ht⟩ := hf _ hx
  rw [State.storeReg_of_findReg hr, State.reg_setReg_self, wordField_storeFields (registerFieldsApart _ _ _ hr) _ _ hf, ht]
  rfl

/-- The configuration word of DATA_RING_SET. -/
def ringCfgWord (p : Packet) : Word :=
  w32 (wordField (p.w 3) 4 0 + wordField (p.w 4) 3 0 * 2 ^ 8 + 2 ^ 16 * wordField (p.w 5) 10 0)

theorem wordField_ringCfgWord (p : Packet) : wordField (ringCfgWord p) 4 0 = (p.w 3).toNat % 2 ^ 5 ∧
    wordField (ringCfgWord p) 11 8 = (p.w 4).toNat % 2 ^ 4 ∧ wordField (ringCfgWord p) 26 16 = (p.w 5).toNat % 2 ^ 11 := by
  simp only [ringCfgWord, w32, wordField, BitVec.toNat_ofNat]
  omega

/-- DATA_RING_SET's last write is of the configuration register, in a state whose registers alone changed. -/
theorem State.ringWrites_is (u : State) (p : Packet) : ∃ r, u.ringWrites p = State.csrWrite { u with csr := r } 8 0x40
    ((p.w 0).toNat % 64 / 16) (0x208 + 0x10 * ((p.w 0).toNat % 64 % 16)) (ringCfgWord p) := by
  have hn : wordField (p.w 0) 5 0 = (p.w 0).toNat % 64 := wordField_zero ..
  unfold State.ringWrites
  rw [hn]
  dsimp only
  generalize (p.w 0).toNat % 64 = n
  obtain ⟨r₁, e₁⟩ := u.csrWrite_ring_csr_only (o := 0x200 + 0x10 * (n % 16)) (by omega) (by omega) 8 (n / 16) (p.w 1)
  obtain ⟨r₂, e₂⟩ := State.csrWrite_ring_csr_only (o := 0x200 + 0x10 * (n % 16) + 4) (by omega) (by omega) { u with csr := r₁ } 8 (n / 16) (p.w 2)
  refine ⟨r₂, ?_⟩
  rw [e₁, e₂, show 0x200 + 0x10 * (n % 16) + 8 = 0x208 + 0x10 * (n % 16) by omega]
  rfl

/-- The configuration register holds what DATA_RING_SET names, where its write is taken. -/
theorem State.fld_ringWrites {u : State} {p : Packet} {n : Nat} (hn : (p.w 0).toNat % 64 = n)
    (hm : u.modeTakes 0x40 (0x208 + 0x10 * (n % 16)) = true) (hh : u.hubTakes 8 = true)
    (ht : u.writeTargets 0x40 (n / 16) (0x208 + 0x10 * (n % 16)) = [n / 16]) {m l : Nat} (hx : (m, l) ∈ [(4, 0), (11, 8), (26, 16)]) :
    wordField ((u.ringWrites p).reg 0x40 (n / 16) (0x208 + 0x10 * (n % 16))) m l = wordField (ringCfgWord p) m l := by
  obtain ⟨r, e⟩ := u.ringWrites_is p
  rw [hn] at e
  have ew := State.csrWrite_ring (s := { u with csr := r }) (by omega) (by omega) (by omega) hm hh
    ((u.writeTargets_dma_csr r (by omega) _).trans ht) (ringCfgWord p)
  rw [e, ew, State.fld_storeReg_ringCfg _ (Nat.mod_lt _ (by decide)) _ _ hx]

theorem State.fld_congr {s t : State} (h : t.csr = s.csr) (f : Field) (i : Nat) : t.fld f i = s.fld f i :=
  congrArg (wordField · f.msb f.lsb) (State.reg_congr h f.cls i f.off)

/-- A ring configured starts empty, and its configuration keeps the fields below PHASE. -/
theorem State.ringReset_spec (s : State) (n : Nat) :
    tget 0 (s.ringReset n).dma.ringSeq n = 0 ∧ (s.ringReset n).fld (Reg.DMA.RING_CFG_PHASE (n % 16)) (n / 16) = 1 ∧
    (s.ringReset n).fld (Reg.DMA.RING_PTR_TAIL (n % 16)) (n / 16) = 0 ∧ (s.ringReset n).fld (Reg.DMA.RING_PTR_HEAD (n % 16)) (n / 16) = 0 ∧
    ∀ f : Field, f.cls = 0x40 → f.off = 0x208 + 0x10 * (n % 16) → f.lsb ≤ f.msb → f.msb < 31 →
      (s.ringReset n).fld f (n / 16) = s.fld f (n / 16) := by
  have hcsr : (s.ringReset n).csr = (((s.setFld (Reg.DMA.RING_PTR_TAIL (n % 16)) (n / 16) 0).setFld
      (Reg.DMA.RING_PTR_HEAD (n % 16)) (n / 16) 0).setFld (Reg.DMA.RING_CFG_PHASE (n % 16)) (n / 16) 1).csr := by
    unfold State.ringReset
    dsimp only
  have hseq : tget 0 (s.ringReset n).dma.ringSeq n = 0 := by
    unfold State.ringReset
    dsimp only
    rw [tget_tset_self]
  have hkey : csrKey 0x40 (n / 16) (0x208 + 0x10 * (n % 16)) ≠ csrKey 0x40 (n / 16) (0x20C + 0x10 * (n % 16)) := by
    unfold csrKey
    omega
  simp only [State.fld_congr hcsr]
  refine ⟨hseq, ?_, ?_, ?_, fun f hc ho hl hm => ?_⟩
  · rw [State.fld_setFld_self _ _ _ _ (by simp) (by simp)]
    simp
  · rw [State.fld_setFld_other _ (Reg.DMA.RING_CFG_PHASE (n % 16)) (Reg.DMA.RING_PTR_TAIL (n % 16)) _ _ _ hkey.symm,
      State.fld_setFld_beside _ (Reg.DMA.RING_PTR_HEAD (n % 16)) (Reg.DMA.RING_PTR_TAIL (n % 16)) _ _ (by simp) (by simp) (by simp) rfl rfl
        (by simp),
      State.fld_setFld_self _ _ _ _ (by simp) (by simp), Nat.zero_mod]
  · rw [State.fld_setFld_other _ (Reg.DMA.RING_CFG_PHASE (n % 16)) (Reg.DMA.RING_PTR_HEAD (n % 16)) _ _ _ hkey.symm,
      State.fld_setFld_self _ _ _ _ (by simp) (by simp), Nat.zero_mod]
  · have hf : csrKey f.cls (n / 16) f.off ≠ csrKey 0x40 (n / 16) (0x20C + 0x10 * (n % 16)) := by
      rw [hc, ho]
      exact hkey
    rw [State.fld_setFld_beside _ (Reg.DMA.RING_CFG_PHASE (n % 16)) f _ _ (by simp) (by simp) hl hc ho (.inl hm),
      State.fld_setFld_other _ (Reg.DMA.RING_PTR_HEAD (n % 16)) f _ _ _ hf,
      State.fld_setFld_other _ (Reg.DMA.RING_PTR_TAIL (n % 16)) f _ _ _ hf]

theorem State.dataRingSet_spec (u : State) (p : Packet) :
    let n := (p.w 0).toNat % 64
    let t := u.dataRingSet p
    tget 0 t.dma.ringSeq n = 0 ∧ t.fld (Reg.DMA.RING_CFG_PHASE (n % 16)) (n / 16) = 1 ∧
    t.fld (Reg.DMA.RING_PTR_TAIL (n % 16)) (n / 16) = 0 ∧ t.fld (Reg.DMA.RING_PTR_HEAD (n % 16)) (n / 16) = 0 ∧
    (u.modeTakes 0x40 (0x208 + 0x10 * (n % 16)) = true → u.hubTakes 8 = true →
      u.writeTargets 0x40 (n / 16) (0x208 + 0x10 * (n % 16)) = [n / 16] →
      t.fld (Reg.DMA.RING_CFG_LOG2 (n % 16)) (n / 16) = (p.w 3).toNat % 2 ^ 5 ∧
      t.fld (Reg.DMA.RING_CFG_FN (n % 16)) (n / 16) = (p.w 4).toNat % 2 ^ 4 ∧
      t.fld (Reg.DMA.RING_CFG_VECTOR (n % 16)) (n / 16) = (p.w 5).toNat % 2 ^ 11) := by
  intro n t
  have hn : wordField (p.w 0) 5 0 = n := wordField_zero ..
  obtain ⟨hseq, hphase, htail, hhead, hcfg⟩ := (u.ringWrites p).ringReset_spec n
  have hcsr : t.csr = ((u.ringWrites p).ringReset n).csr := by rw [← hn]; exact State.reply_csr ..
  have hdma : t.dma = ((u.ringWrites p).ringReset n).dma := by rw [← hn]; exact State.reply_dma ..
  simp only [hdma, State.fld_congr hcsr]
  refine ⟨hseq, hphase, htail, hhead, fun hm hh ht => ?_⟩
  obtain ⟨hlog, hfn, hvec⟩ := wordField_ringCfgWord p
  refine ⟨(hcfg _ rfl rfl (by simp) (by simp)).trans (.trans ?_ hlog), (hcfg _ rfl rfl (by simp) (by simp)).trans (.trans ?_ hfn),
    (hcfg _ rfl rfl (by simp) (by simp)).trans (.trans ?_ hvec)⟩
  · exact State.fld_ringWrites rfl hm hh ht (by simp)
  · exact State.fld_ringWrites rfl hm hh ht (by simp)
  · exact State.fld_ringWrites rfl hm hh ht (by simp)

/-- Settles O53: each row makes its opcode's writes and answers as R10 and R39 say; the rows with an action of their own by what it leaves. -/
theorem configurationPacketsWriteRegisters : Obligations.ConfigurationPacketsWriteRegisters := by
  refine ⟨fun fn c op base p s u h hc => ?listed, fun fn p s u h => ?write, fun fn p s u h => ?keystone, fun fn p s u h => ?template,
    fun fn p s u h => ?flow, fun fn p s u h => ⟨_, ?protect, u.protectWord_spec p⟩, fun fn p s u h => ?select,
    fun fn p s u h hs => exec_of_ready h rfl (State.regModify_single hs), fun fn p s u h => ?rings⟩
  case listed =>
    simp only [List.mem_cons, Prod.mk.injEq, List.not_mem_nil, or_false] at hc
    rcases hc with ⟨rfl, rfl, rfl⟩ | ⟨rfl, rfl, rfl⟩ | ⟨rfl, rfl, rfl⟩ | ⟨rfl, rfl, rfl⟩ | ⟨rfl, rfl, rfl⟩ | ⟨rfl, rfl, rfl⟩ |
      ⟨rfl, rfl, rfl⟩ | ⟨rfl, rfl, rfl⟩ | ⟨rfl, rfl, rfl⟩ | ⟨rfl, rfl, rfl⟩ | ⟨rfl, rfl, rfl⟩ | ⟨rfl, rfl, rfl⟩ |
      ⟨rfl, rfl, rfl⟩ | ⟨rfl, rfl, rfl⟩ | ⟨rfl, rfl, rfl⟩ | ⟨rfl, rfl, rfl⟩ <;>
    exact exec_configure h rfl fun hop => by rw [State.configWrites, hop]; rfl
  case write =>
    refine exec_configure h rfl fun hop => ?_
    rw [State.configWrites, hop, funext (offAt_eq (p.w 0))]
    rfl
  case keystone =>
    refine exec_configure h rfl fun hop => ?_
    rw [State.configWrites, hop, wordField_zero, wordField_zero, wordField_top _ (by decide), Nat.mul_comm (_ % _)]
    rfl
  case template =>
    refine exec_configure h rfl fun hop => ?_
    rw [State.configWrites, hop, ← wordField_zero (p.w 0) 5, ← wordField_zero (p.w 1) 10]
    rfl
  case flow => exact exec_configure h rfl fun hop => by rw [State.configWrites, hop]; rfl
  case protect => exact exec_configure h rfl fun hop => by rw [State.configWrites, hop]; rfl
  case select =>
    refine exec_configure h rfl fun hop => ?_
    rw [State.configWrites, hop]
    simp
  case rings => exact ⟨_, exec_of_ready h rfl rfl, u.dataRingSet_spec p⟩

end Sys2Proof.Machine

namespace Sys2Proof.Machine

/-! ## What Dvorys keeps is left by memory reads (R292, R387) -/

@[simp] theorem State.maxFld_dvorys (s : State) (f : Field) (i n : Nat) : (s.maxFld f i n).dvorys = s.dvorys := by
  rw [State.maxFld, State.setFld_dvorys]

@[simp] theorem State.setLevel_dvorys (s : State) (n : Nat) : (s.setLevel n).dvorys = s.dvorys := by
  simp [State.setLevel, apply_ite State.dvorys]

@[simp] theorem State.syncRecoveries_dvorys (s : State) : s.syncRecoveries.dvorys = s.dvorys := by
  unfold State.syncRecoveries
  dsimp only
  rw [State.setFld_dvorys, State.setFld_dvorys]

@[simp] theorem State.recovered_dvorys (s : State) (r : Recovery) : (s.recovered r).dvorys = s.dvorys := by
  unfold State.recovered
  dsimp only
  rw [State.syncRecoveries_dvorys]
  split
  · rw [State.post_dvorys, State.maxFld_dvorys, State.setFld_dvorys]
  · rw [State.post_dvorys, State.satFld_dvorys, State.maxFld_dvorys, State.setFld_dvorys]

@[simp] theorem State.reportFault_dvorys (s : State) (code cls inst : Nat) (b : Bool) :
    (s.reportFault code cls inst b).dvorys = s.dvorys := by
  unfold State.reportFault
  extract_lets dbl s₁ s₂ s₃ s₄ s₅ s₆ s₇ r
  have h₂ : s₂.dvorys = s.dvorys := by
    rw [apply_ite State.dvorys, State.addFld_dvorys, ite_self, State.addFld_dvorys]
  have h₆ : s₆.dvorys = s.dvorys := by
    rw [apply_ite State.dvorys, State.post_dvorys, ite_self, State.post_dvorys, State.setPair_dvorys, State.setFld_dvorys,
      State.setFld_dvorys, State.setFld_dvorys, h₂]
  split
  · exact h₆
  · rw [apply_ite State.dvorys, State.recovered_dvorys, ite_self, State.syncRecoveries_dvorys, State.setLevel_dvorys, h₆]

@[simp] theorem State.aer_dvorys (s : State) (b : Nat) : (s.aer b).dvorys = s.dvorys := by simp [State.aer]

@[simp] theorem State.syncSpall_dvorys (s : State) : s.syncSpall.dvorys = s.dvorys := by
  rw [State.syncSpall, State.setFld_dvorys, State.setFld_dvorys]

theorem State.retirePage_dvorys {s t : State} {c page n : Nat} (h : s.retirePage c page = some (n, t)) : t.dvorys = s.dvorys := by
  unfold State.retirePage at h
  dsimp only at h
  split at h
  · cases h
  · obtain ⟨-, rfl⟩ := Prod.mk.inj (Option.some.inj h)
    rw [State.post_dvorys, State.setFld_dvorys]
    generalize List.range 256 = l
    exact foldl_leaves State.dvorys l s fun s w _ => State.storeWord_dvorys ..

@[simp] theorem State.spallRetired_dvorys (s : State) (c page : Nat) : (s.spallRetired c page).dvorys = s.dvorys := by
  unfold State.spallRetired
  rw [State.syncSpall_dvorys]
  generalize List.range 256 = l
  refine foldl_leaves State.dvorys l s fun s n _ => ?_
  dsimp only
  split
  · rw [State.setSpall_dvorys]
  · rfl

@[simp] theorem State.autoRetire_dvorys (s : State) (e : Spall) : (s.autoRetire e).dvorys = s.dvorys := by
  unfold State.autoRetire
  split
  · split
    next h => rw [State.spallRetired_dvorys, State.retirePage_dvorys h]
    next => rfl
  · rfl

@[simp] theorem State.spallHarden_dvorys (s : State) (n : Nat) : (s.spallHarden n).dvorys = s.dvorys := by
  simp [State.spallHarden, apply_ite State.dvorys]

@[simp] theorem State.spallNote_dvorys (s : State) (k col : Nat) : (s.spallNote k col).dvorys = s.dvorys := by
  unfold State.spallNote
  generalize s.spallPlace k = x
  obtain ⟨m, a⟩ := x
  dsimp only
  split
  · simp [apply_ite State.dvorys]
  · split
    · simp
    · split <;> simp

@[simp] theorem State.eraseCheck_dvorys (s : State) (m : MemUnit) (col : Nat) : (s.eraseCheck m col).dvorys = s.dvorys := by
  simp [State.eraseCheck, apply_ite State.dvorys]

@[simp] theorem State.noteDecode_dvorys (s : State) (k : Nat) (o : Decoded) : (s.noteDecode k o).dvorys = s.dvorys := by
  unfold State.noteDecode
  split
  · simp [apply_ite State.dvorys]
  · simp [apply_ite State.dvorys]
  · rfl

@[simp] theorem State.readWord_dvorys (s : State) (k : Nat) : (s.readWord k).2.2.dvorys = s.dvorys := by
  simp [State.readWord]

@[simp] theorem State.readMem_dvorys (s : State) (a n : Nat) : (s.readMem a n).2.dvorys = s.dvorys :=
  foldl_leaves (fun acc : List (Byte × Bool) × State => acc.2.dvorys) _ _ fun _ _ _ => State.readWord_dvorys ..

@[simp] theorem State.atsFill_dvorys (s : State) (a : Nat) : (s.atsFill a).dvorys = s.dvorys := by
  unfold State.atsFill
  extract_lets bus on
  split <;> rfl

@[simp] theorem State.hostRead_dvorys (s : State) (a n : Nat) : (s.hostRead a n).2.2.dvorys = s.dvorys := by
  simp [State.hostRead, apply_ite (fun x : BusStatus × List (Byte × Bool) × State => x.2.2.dvorys), apply_ite State.dvorys]

@[simp] theorem State.busRead_dvorys (s : State) (ni port a n : Nat) : (s.busRead ni port a n).2.2.dvorys = s.dvorys := by
  unfold State.busRead
  split
  · split
    · simp
    · exact s.readMem_dvorys a n
  · rfl

@[simp] theorem State.busGet_dvorys (s : State) (ni port a n : Nat) : (s.busGet ni port a n).2.2.dvorys = s.dvorys :=
  foldl_leaves (fun acc : BusStatus × List (Byte × Bool) × State => acc.2.2.dvorys) _ _ fun _ _ _ => State.busRead_dvorys ..

@[simp] theorem State.took_dvorys (s : State) (cls inst a : Nat) (l : List (Byte × Bool)) : (s.took cls inst a l).dvorys = s.dvorys := by
  simp [State.took, apply_ite State.dvorys]

@[simp] theorem State.unitGet_dvorys (s : State) (cls inst ni port a n : Nat) : (s.unitGet cls inst ni port a n).2.2.dvorys = s.dvorys :=
  (State.took_dvorys ..).trans (s.busGet_dvorys ni port a n)

@[simp] theorem State.sqSlot_dvorys (s : State) (fn k : Nat) : (s.sqSlot fn k).2.dvorys = s.dvorys := by
  simp [State.sqSlot, apply_ite (fun x : List Word × State => x.2.dvorys)]

@[simp] theorem State.sqWords_dvorys (s : State) (fn k n : Nat) : (s.sqWords fn k n).2.dvorys = s.dvorys := by
  induction n with
  | zero => rfl
  | succ n ih => exact (State.sqSlot_dvorys ..).trans ih

/-- Reading the packet at a ring's head leaves the rings as they are. -/
@[simp] theorem State.packetAt_dvorys (s : State) (fn : Nat) : (s.packetAt fn).2.dvorys = s.dvorys :=
  State.sqWords_dvorys ..

/-! ## What Dvorys keeps is left by posts (R175-R182) -/

@[simp] theorem State.syncQueue_dvorys (s : State) (q : Nat) : (s.syncQueue q).dvorys = s.dvorys := by
  unfold State.syncQueue
  dsimp only
  rw [State.maxFld_dvorys, State.setFld_dvorys]
  split
  · rw [State.setFld_dvorys, State.maxFld_dvorys, State.maxFld_dvorys, State.setFld_dvorys, State.setFld_dvorys]
  · rw [State.maxFld_dvorys, State.maxFld_dvorys, State.setFld_dvorys, State.setFld_dvorys]

@[simp] theorem State.closeTask_dvorys (s : State) (i : Nat) (t : Task) (c : Cause) : (s.closeTask i t c).2.dvorys = s.dvorys := by
  simp [State.closeTask, apply_ite State.dvorys]

@[simp] theorem State.releaseTask_dvorys (s : State) (i : Nat) (t : Task) (m : Bool) : (s.releaseTask i t m).2.dvorys = s.dvorys := by
  unfold State.releaseTask
  split <;> simp

@[simp] theorem State.release_dvorys (s : State) (k : Nat) (m : Bool) : (s.release k m).2.dvorys = s.dvorys := by
  unfold State.release
  dsimp only
  refine (foldl_leaves (fun acc : List (Nat × Bool) × State => acc.2.dvorys) _ _ fun acc p _ =>
    acc.2.releaseTask_dvorys p.1 p.2 m).trans ?_
  simp [apply_ite State.dvorys]

@[simp] theorem State.decOnce_dvorys (s : State) (k : Nat) (m : Bool) : (s.decOnce k m).2.dvorys = s.dvorys := by
  simp [State.decOnce, apply_ite (fun x : List (Nat × Bool) × State => x.2.dvorys)]

theorem State.decAll_dvorys (n : Nat) (l : List (Nat × Bool)) (s : State) : (State.decAll n l s).dvorys = s.dvorys := by
  induction n generalizing l s with
  | zero => rfl
  | succ n ih =>
    obtain _ | ⟨⟨k, m⟩, r⟩ := l
    · rfl
    · exact (ih _ _).trans (s.decOnce_dvorys k m)

@[simp] theorem State.decKeys_dvorys (s : State) (l : List (Nat × Bool)) : (s.decKeys l).dvorys = s.dvorys := State.decAll_dvorys ..

/-- A task accepted leaves the rings as they are. -/
@[simp] theorem State.accept_dvorys (s : State) (q : Nat) (w : List Word) (tb : Nat → Nat × Nat) : (s.accept q w tb).2.dvorys = s.dvorys := by
  simp [State.accept, apply_ite (fun x : Nat × State => x.2.dvorys)]

/-! ## The checks and the reply (R37, R38) -/

/-- Each packet row but TASK_POST is its opcode's packet row. -/
theorem exec_of_packetOf {c : Instr} {fn : Fin 16} {op : Nat} (h : Claims.PacketOf c fn op) (hop : op ≠ 0x3002) :
    ∃ f, ∀ s, exec c s = .next (s.packetRow fn op f) := by
  simp only [Claims.PacketOf, List.mem_cons, Prod.mk.injEq, List.not_mem_nil, or_false] at h
  casesm* _ ∨ _
  all_goals
    obtain ⟨rfl, rfl⟩ := ‹_ ∧ _›
  -- TASK_POST, the second row of group 0x3, is held by back-pressure and stands apart.
  case inr.inr.inr.inl.inr.inl => exact absurd rfl hop
  all_goals exact ⟨_, fun _ => rfl⟩

/-- TASK_POST is its packet row, but for a packet that it holds. -/
theorem exec_taskPost_of_refused {s : State} {fn : Fin 16} (h : s.refusal (s.packetAt fn).1 ≠ none) :
    exec (.taskPost fn) s = .next (s.packetRow fn 0x3002 State.postTask) :=
  if_neg fun ⟨_, _, _, hr, _⟩ => h hr

theorem exec_taskPost_of_nextRing_ne {s : State} {fn : Fin 16} (h : s.nextRing ≠ some fn.val) :
    exec (.taskPost fn) s = .next s :=
  (if_neg fun ⟨hn, _⟩ => h hn).trans (congrArg Host.Outcome.next (State.packetRow_of_nextRing_ne h _ _))

theorem State.refusal_spec (s : State) (p : Packet) : (p.ver ≠ 1 ∨ opRow p.op = none → s.refusal p = some (.badOpcode, p.op)) ∧
    ∀ r, p.ver = 1 → opRow p.op = some r →
      (p.pw < r.lo ∨ r.hi < p.pw → s.refusal p = some (.badLength, p.pw)) ∧
      (r.lo ≤ p.pw → p.pw ≤ r.hi →
        (s.granted p = false ∨ r.pf = true ∧ p.fn ≠ 0 → s.refusal p = some (.denied, p.fn)) ∧
        (s.granted p = true → (r.pf = true → p.fn = 0) →
          (s.modeServes p.op = false → s.refusal p = some (.modeForbids, s.modes.mode.code)) ∧
          (s.modeServes p.op = true → targetOk r p.cls p.sel = false → s.refusal p = some (.badTarget, p.target.toNat)))) := by
  refine ⟨fun h => ?_, fun r hv hr => ?_⟩
  · have : (if p.ver = 1 then opRow p.op else none) = none := by
      split
      next hv => exact h.resolve_left (not_not_intro hv)
      next => rfl
    rw [State.refusal, this]
  · have hrow : (if p.ver = 1 then opRow p.op else none) = some r := by rw [if_pos hv, hr]
    unfold State.refusal
    rw [hrow]
    dsimp only
    refine ⟨fun h => if_pos h, fun hlo hhi => ?_⟩
    rw [if_neg (by omega)]
    refine ⟨fun h => if_pos (by simpa using h), fun hg hpf => ?_⟩
    rw [if_neg (by simpa [hg] using hpf)]
    refine ⟨fun h => if_pos (by simp [h]), fun hm ht => ?_⟩
    rw [if_neg (by simp [hm]), if_pos (by simp [ht])]

/-- Words short of a slot's end are followed by zeros. -/
theorem slotWords_of_le (w0 : Nat) (phase : Bool) {rest : List Word} (h : rest.length ≤ 15) :
    slotWords w0 phase rest = BitVec.ofNat 32 (w0 % 2 ^ 31 + 2 ^ 31 * b2n phase) :: rest ++ List.replicate (15 - rest.length) 0 := by
  refine List.ext_getElem (by simp [slotWords]; omega) fun i h₁ h₂ => ?_
  have hi : i < 16 := by simpa [slotWords] using h₁
  obtain _ | i := i
  · simp [slotWords]
  · by_cases hr : i < rest.length
    · simp [slotWords, List.getElem_append_left, hr]
    · simp [slotWords, List.getElem_append_right, hr, Nat.le_of_not_lt hr]

/-- The page a reply leaves in its ring. -/
theorem State.page_reply (u : State) (p : Packet) (st : Status) (d : Nat) (l : List Word) : ∃ n k,
    (u.reply p st d l).page p.fn = { (u.page p.fn).advanced with unsignalled := n, coalSince := k } := by
  obtain ⟨m, c, h, v, n, k, e⟩ := u.reply_is p st d l
  exact ⟨n, k, by rw [e, State.page_setPage_self]⟩

@[simp] theorem State.reply_disp (u : State) (p : Packet) (st : Status) (d : Nat) (l : List Word) : (u.reply p st d l).disp = u.disp := by
  obtain ⟨m, c, h, v, n, k, e⟩ := u.reply_is p st d l
  rw [e, State.setPage_disp, State.setPage_disp]

/-- A reply leaves what Dvorys keeps but for the ring's page. -/
theorem State.reply_dvorys (u : State) (p : Packet) (st : Status) (d : Nat) (l : List Word) : ∃ x,
    (u.reply p st d l).dvorys = { u.dvorys with pages := x } := by
  obtain ⟨m, c, h, v, n, k, e⟩ := u.reply_is p st d l
  exact ⟨_, by rw [e]; rfl⟩

/-- A vector raised depends on registers and the endpoint alone. -/
theorem State.raise_pcie_congr {s t : State} (hc : t.csr = s.csr) (hp : t.pcie = s.pcie) (fn v : Nat) :
    (t.raise fn v).pcie = (s.raise fn v).pcie := by
  have hf (f : Field) (i : Nat) : t.fld f i = s.fld f i := State.fld_congr hc f i
  have hb (f : Field) (i : Nat) : t.bit f i = s.bit f i := by rw [State.bit, State.bit, hf]
  have hv : t.physVector fn v = s.physVector fn v := by simp only [State.physVector, State.msixAlloc, hf, hp]
  unfold State.raise
  rw [hb, hv, hp]
  split <;> simp [hp]

theorem State.signalRing_now {s : State} {fn : Nat} (h : (s.page fn).irqEn = true) :
    s.signalRing fn true = (s.setPage fn { s.page fn with unsignalled := 0 }).raise fn (s.page fn).vector.toNat := by
  unfold State.signalRing
  dsimp only
  rw [if_pos (by rw [h]; rfl)]

theorem Status.code_lt (st : Status) : st.code < 2 ^ 16 := by cases st <;> decide

/-- A reply of at most twelve results to a host ring. -/
theorem State.reply_host {u : State} {p : Packet} (h : (u.page p.fn).cqTreasury = false) (st : Status) (d : Nat) {l : List Word}
    (hl : l.length ≤ 12) : (u.reply p st d l).mem = u.mem ∧ (u.reply p st d l).host = if u.hostUp p.fn then
      mwrites u.host (ringBase (u.page p.fn).cqBase false + 64 * (u.page p.fn).cqTail.toNat) (wordsToBytes
        (BitVec.ofNat 32 (st.code + 2 ^ 16 * l.length + 2 ^ 31 * b2n (u.page p.fn).phase) :: p.tag ::
          BitVec.ofNat 32 (p.seq.toNat + 2 ^ 16 * (u.page p.fn).sqHead.toNat) :: BitVec.ofNat 32 d :: l ++
          List.replicate (12 - l.length) 0)) else u.host := by
  have hst := st.code_lt
  unfold State.reply State.answer
  extract_lets w2 s
  obtain ⟨n, k, v, ht⟩ := s.signalRing_is p.fn p.intr
  rw [ht]
  simp only [s]
  rw [State.cqSlot_host h, slotWords_of_le _ _ (by simp; omega), List.take_of_length_le hl]
  refine ⟨rfl, ?_⟩
  have hw : (st.code + 2 ^ 16 * min 12 l.length + 2 ^ 20 * 0) % 2 ^ 31 = st.code + 2 ^ 16 * l.length := by omega
  have hn : 15 - (p.tag :: w2 :: BitVec.ofNat 32 d :: l).length = 12 - l.length := by simp only [List.length_cons]; omega
  rw [hw, hn]
  rfl

theorem State.reply_pcie_of_intr {u : State} {p : Packet} (hi : (u.page p.fn).irqEn = true) (hp : p.intr = true) (st : Status) (d : Nat)
    (l : List Word) : (u.reply p st d l).pcie = (u.raise p.fn (u.page p.fn).vector.toNat).pcie := by
  unfold State.reply State.answer
  extract_lets w2 s
  obtain ⟨m, c, h, hs⟩ := u.cqSlot_is p.fn (st.code + 2 ^ 16 * (min 12 l.length) + 2 ^ 20 * 0) (p.tag :: w2 :: BitVec.ofNat 32 d :: l.take 12)
  have hg : s.page p.fn = (u.page p.fn).advanced := by
    simp only [s, hs, State.page_setPage_self]
  have hc : s.csr = u.csr := by
    simp only [s, hs, State.setPage_csr]
  have hpc : s.pcie = u.pcie := by
    simp only [s, hs, State.setPage_pcie]
  rw [hp, State.signalRing_now (by rw [hg]; exact hi), hg]
  exact State.raise_pcie_congr (s := u) (by rw [State.setPage_csr, hc]) (by rw [State.setPage_pcie, hpc]) ..

/-! ## The operation table (R42) -/

/-- Numbers one after another from a 16-bit number on are distinct as long as they do not go round. -/
theorem nodup_opIds (x : BitVec 16) {n : Nat} (h : n < 2 ^ 16) : ((List.range n).map fun i => x + BitVec.ofNat 16 (i + 1)).Nodup := by
  refine List.Nodup.map_on (fun i hi j hj e => ?_) List.nodup_range
  have hi := List.mem_range.mp hi
  have hj := List.mem_range.mp hj
  have := congrArg BitVec.toNat ((BitVec.add_right_inj x).mp e)
  simp only [BitVec.toNat_ofNat] at this
  omega

/-- Of more numbers than operations one is no operation's. -/
theorem exists_free_opId {ops : List LrOp} {l : List (BitVec 16)} (hl : l.Nodup) (h : ops.length < l.length) :
    ∃ x ∈ l, !ops.any (fun o => o.opId == x) := by
  by_contra hc
  push Not at hc
  have hsub : l ⊆ ops.map (·.opId) := fun x hx => by
    have := hc x hx
    simpa using this
  have := (List.subperm_of_subset hl hsub).length_le
  rw [List.length_map] at this
  omega

/-- With room in the table the next OP_ID is no operation's. -/
theorem State.nextOpId_fresh {u : State} (h : u.dvorys.ops.length ≤ 256) : ∀ o ∈ u.dvorys.ops, o.opId ≠ u.nextOpId := by
  obtain ⟨x, hx, hfree⟩ := exists_free_opId (nodup_opIds u.dvorys.lastOp (n := 257) (by decide))
    (by simpa using Nat.lt_succ_of_le h)
  unfold State.nextOpId
  dsimp only
  obtain ⟨y, hy⟩ := Option.isSome_iff_exists.mp (List.find?_isSome (p := fun x => !u.dvorys.ops.any (fun o => o.opId == x)).mpr ⟨x, hx, hfree⟩)
  rw [hy, Option.getD_some]
  intro o ho e
  have := List.find?_some hy
  simp only [Bool.not_eq_true', List.any_eq_false, beq_iff_eq] at this
  exact this o ho e

theorem State.acceptOp_spec (u : State) (p : Packet) (k : LrKind) (params more : List Word) :
    (u.acceptOp p k params more).2.dvorys.ops = u.dvorys.ops ++ [(u.acceptOp p k params more).1] ∧
    ((u.acceptOp p k params more).2.page p.fn).cqTail = (u.page p.fn).cqTail + 1 := by
  unfold State.acceptOp
  dsimp only
  generalize u.nextOpId = id
  generalize [w32 id.toNat, w32 (estimateUs (lrBound p.op) p.op (p.w 4).toNat)] ++ more = l
  generalize LrOp.mk id p.fn p.tag p.seq p.intr k p.cls p.sel params 0 false false (u.page p.fn).sqHead = o
  constructor
  · obtain ⟨x, e⟩ := State.reply_dvorys { u with dvorys := { u.dvorys with lastOp := id, ops := u.dvorys.ops ++ [o] } } p .accepted 0 l
    rw [e]
  · obtain ⟨n, m, e⟩ := State.page_reply { u with dvorys := { u.dvorys with lastOp := id, ops := u.dvorys.ops ++ [o] } } p .accepted 0 l
    rw [e]
    rfl

theorem eq_taskPost_of_packetOf {c : Instr} {fn : Fin 16} (h : Claims.PacketOf c fn 0x3002) : c = .taskPost fn := by
  simpa [Claims.PacketOf] using h

theorem exec_badOpcode_of_bad {s : State} {fn : Fin 16} (hn : s.nextRing = some fn.val)
    (h : (s.packetAt fn).1.ver ≠ 1 ∨ opRow (s.packetAt fn).1.op = none) : exec (.badOpcode fn) s =
      .next (((s.packetAt fn).2.takeSlots fn (packetSlots (s.packetAt fn).1.pw)).reply (s.packetAt fn).1 .badOpcode (s.packetAt fn).1.op []) := by
  show execBadOpcode fn s = _
  rw [execBadOpcode, if_pos hn]
  generalize s.packetAt fn = x at *
  obtain ⟨p, t⟩ := x
  dsimp only at h ⊢
  rw [if_neg (by rintro ⟨hv, ho⟩; obtain h | h := h <;> simp_all)]

/-! ## TASK_POST (R43, R176, R178) -/

/-- A ring held by back-pressure with its TASK_POST, the ring granted last. -/
def State.holdPost (s : State) (fn : Nat) : State :=
  let s := s.setPage fn { s.page fn with stalledBp := true }
  { s with dvorys := { s.dvorys with heldPacket := tset false s.dvorys.heldPacket fn true, lastRing := fn } }

theorem State.holdPost_spec (s : State) (fn : Nat) : (s.holdPost fn).dvorys.heldPacket = tset false s.dvorys.heldPacket fn true ∧
    (s.holdPost fn).dvorys.lastRing = fn ∧ (s.holdPost fn).page fn = { s.page fn with stalledBp := true } ∧
    (s.holdPost fn).disp = s.disp :=
  ⟨rfl, rfl, tget_tset_self .., rfl⟩

/-- A TASK_POST without room, or while the arbiter is at another requester, is held with its ring. -/
theorem exec_taskPost_of_held {s u : State} {fn : Fin 16} {p : Packet} (h : Claims.Taken s fn 0x3002 p u) (hr : s.refusal p = none)
    (hn : s.postRoom p.sel = false ∨ s.taskPostTurn = false) : exec (.taskPost fn) s = .next (s.holdPost fn) := by
  obtain ⟨hring, rfl, hv, ho, -⟩ := h
  exact if_pos ⟨hring, hv, ho, hr, by obtain h | h := hn <;> simp [h]⟩

/-- A TASK_POST with room, when the arbiter is at Dvorys, is a packet like others. -/
theorem exec_taskPost_of_turn {s u : State} {fn : Fin 16} {p : Packet} (h : Claims.Taken s fn 0x3002 p u)
    (hroom : s.postRoom p.sel = true) (hturn : s.taskPostTurn = true) :
    exec (.taskPost fn) s = .next (s.packetRow fn 0x3002 State.postTask) := by
  obtain ⟨-, rfl, -, -, -⟩ := h
  exact if_neg fun ⟨_, _, _, _, hb⟩ => by simp [hroom, hturn] at hb

/-- What an accepted post leaves of the dispatcher and of its ring. -/
theorem State.postTask_spec (u : State) (p : Packet) :
    let r := u.accept p.sel ((List.range 16).map p.w) u.secTc
    (u.postTask p).disp = { r.2.disp with lastPost := 8, lastIndex := tset 0 r.2.disp.lastIndex 8 r.1 } ∧
    (∃ x, (u.postTask p).dvorys = { u.dvorys with pages := x }) ∧
    ∃ n k, (u.postTask p).page p.fn = { (u.page p.fn).advanced with unsignalled := n, coalSince := k } := by
  have hd : (u.accept p.sel ((List.range 16).map p.w) u.secTc).2.dvorys = u.dvorys := State.accept_dvorys ..
  unfold State.postTask
  generalize u.accept p.sel ((List.range 16).map p.w) u.secTc = r at *
  obtain ⟨i, v⟩ := r
  dsimp only at hd ⊢
  obtain ⟨x, hx⟩ := v.reply_dvorys p .ok 0 [w32 i]
  obtain ⟨n, k, hp⟩ := v.page_reply p .ok 0 [w32 i]
  have hdisp : (v.replyOk p [w32 i]).disp = v.disp := State.reply_disp ..
  rw [hdisp]
  rw [hd] at hx
  rw [State.page, State.page, hd, ← State.page, ← State.page] at hp
  exact ⟨rfl, ⟨x, hx⟩, n, k, hp⟩

/-- A ring whose page alone was set has that page. -/
theorem State.page_of_pages {s : State} {t : Tab RingPage} {fn : Nat} {g : RingPage} (h : s.dvorys.pages = tset RingPage.reset t fn g) :
    s.page fn = g := by
  rw [State.page, h, tget_tset_self]

/-- A ring that a held TASK_POST leaves: past the packet, no longer held. -/
def State.unheld (t : State) (fn n : Nat) : State :=
  let t := t.passSlots fn n
  let t := t.setPage fn { t.page fn with stalledBp := false }
  { t with dvorys := { t.dvorys with heldPacket := tset false t.dvorys.heldPacket fn false } }

theorem State.retryPost_eq (s : State) (fn : Nat) : s.retryPost fn =
    ((s.packetAt fn).2.unheld fn (packetSlots (s.packetAt fn).1.pw)).postTask (s.packetAt fn).1 := rfl

theorem State.unheld_spec (t : State) (fn n : Nat) : (t.unheld fn n).dvorys.heldPacket = tset false t.dvorys.heldPacket fn false ∧
    (t.unheld fn n).dvorys.lastRing = t.dvorys.lastRing ∧
    (t.unheld fn n).page fn = { t.page fn with sqHead := (t.page fn).sqHead + BitVec.ofNat 12 n, stalledBp := false } := by
  refine ⟨rfl, rfl, (State.page_of_pages rfl).trans ?_⟩
  rw [State.passSlots, State.page_setPage_self]

/-- What a held TASK_POST, once accepted, leaves of its ring. -/
theorem State.retryPost_spec (s : State) (fn : Nat) :
    let t := s.retryPost fn
    tget false t.dvorys.heldPacket fn = false ∧ (t.page fn).stalledBp = false ∧ t.disp.lastPost = 8 ∧
    t.dvorys.lastRing = s.dvorys.lastRing ∧
    (t.page fn).sqHead = (s.page fn).sqHead + BitVec.ofNat 12 (packetSlots (s.packetAt fn).1.pw) := by
  have hd := s.packetAt_dvorys fn
  have hf := s.packetAt_fn fn
  rw [State.retryPost_eq]
  generalize s.packetAt fn = x at *
  obtain ⟨p, v⟩ := x
  dsimp only at hd hf ⊢
  obtain ⟨hheld, hlast, hpage⟩ := v.unheld_spec fn (packetSlots p.pw)
  obtain ⟨hdisp, ⟨x, hdv⟩, n, k, hp⟩ := (v.unheld fn (packetSlots p.pw)).postTask_spec p
  rw [hf, hpage] at hp
  refine ⟨?_, by rw [hp]; rfl, by rw [hdisp], ?_, ?_⟩
  · rw [hdv]
    dsimp only
    rw [hheld, tget_tset_self]
  · rw [hdv]
    dsimp only
    rw [hlast, hd]
  · rw [hp, State.page, hd]
    rfl

theorem State.retryTurn_of_held {s : State} {fn : Nat} (h : tget false s.dvorys.heldPacket fn = true) :
    s.retryTurn fn = (s.serves && s.postMode && s.postRoom (s.packetAt fn).1.sel && s.taskPostTurn) := by
  rw [State.retryTurn, h, Bool.true_and]

/-- Settles O52: the rows, the checks, the reply, the operation table, and a TASK_POST held and taken, each by its own lemma. -/
theorem packetsAreCheckedAndAnswered : Obligations.PacketsAreCheckedAndAnswered := by
  refine ⟨fun c fn op s hc => ?row, fun fn s hn => ?bad, State.refusal_spec, fun u p st d l hl => ?reply,
    fun u p k params more => ?accept, fun fn p s u h hr => ?post, fun fn s h => ?retry⟩
  case row =>
    by_cases hop : op = 0x3002
    · subst hop
      obtain rfl := eq_taskPost_of_packetOf hc
      refine ⟨exec_taskPost_of_nextRing_ne, fun p u st d ht hr hs => ?_⟩
      have hne : s.refusal (s.packetAt fn).1 ≠ none := by
        obtain ⟨-, rfl, -⟩ := ht
        rw [hs rfl]
        nofun
      exact (exec_taskPost_of_refused hne).trans (congrArg _ (State.packetRow_of_refused ht hr _))
    · obtain ⟨f, hf⟩ := exec_of_packetOf hc hop
      exact ⟨fun hn => (hf s).trans (congrArg _ (State.packetRow_of_nextRing_ne hn _ _)),
        fun p u st d ht hr _ => (hf s).trans (congrArg _ (State.packetRow_of_refused ht hr _))⟩
  case bad => exact exec_badOpcode_of_bad hn
  case reply =>
    obtain ⟨n, k, hp⟩ := u.page_reply p st d l
    refine ⟨by rw [hp]; rfl, by rw [hp]; rfl, u.reply_csr .., fun h => State.reply_host h st d hl,
      fun hi hp => State.reply_pcie_of_intr hi hp st d l⟩
  case accept =>
    obtain ⟨hops, htail⟩ := u.acceptOp_spec p k params more
    exact ⟨hops, rfl, rfl, rfl, rfl, htail, State.nextOpId_fresh⟩
  case post =>
    have hf := fn_eq_of_taken h
    refine ⟨fun hn => ⟨_, exec_taskPost_of_held h hr hn, ?_⟩, fun hroom hturn hu => ?_⟩
    · obtain ⟨hheld, hlast, hpage, hdisp⟩ := s.holdPost_spec fn
      exact ⟨by rw [hpage], by rw [hheld, tget_tset_self], by rw [hpage], hlast, hdisp⟩
    · obtain ⟨hdisp, -, n, k, hp⟩ := u.postTask_spec p
      rw [hf] at hp
      exact ⟨_, (exec_taskPost_of_turn h hroom hturn).trans (congrArg _ (State.packetRow_of_ready ⟨h, hu⟩ _)), hdisp, by rw [hp]; rfl⟩
  case retry =>
    refine ⟨_, rfl, fun ht => ?_, fun ht => ?_⟩
    · exact if_neg (by rw [State.retryTurn_of_held h, ht]; decide)
    · rw [if_pos (by rw [State.retryTurn_of_held h, ht])]
      exact s.retryPost_spec fn

end Sys2Proof.Machine

namespace Sys2Proof.Machine

/-! ## A VAULT_EXPORT without parameters (R227) -/

@[simp] theorem State.answer_csr (s : State) (fn flags : Nat) (st : Status) (tag : Word) (seq : BitVec 16) (head : BitVec 12) (d : Nat)
    (l : List Word) (intr : Bool) : (s.answer fn flags st tag seq head d l intr).csr = s.csr := by
  unfold State.answer
  extract_lets w2 u
  obtain ⟨n, k, v, e⟩ := u.signalRing_is fn intr
  obtain ⟨m, c, h, eu⟩ := s.cqSlot_is fn (st.code + 2 ^ 16 * (min 12 l.length) + 2 ^ 20 * flags) (tag :: w2 :: BitVec.ofNat 32 d :: l.take 12)
  have hu : u.csr = s.csr := by
    simp only [u]
    rw [eu, State.setPage_csr]
  rw [e, State.setPage_csr, hu]

@[simp] theorem State.endOp_csr (s : State) (o : LrOp) (st : Status) (d : Nat) (l : List Word) : (s.endOp o st d l).csr = s.csr := by
  unfold State.endOp
  dsimp only
  rw [apply_ite State.csr, State.answer_csr, ite_self, State.dropOp_csr]

theorem State.freeRgn_csr (s : State) (r : Nat) : (s.freeRgn r).csr = (s.setFld (Reg.VAULT.RGN_STATE r) 0 0).csr := rfl

/-- The end of a VAULT_EXPORT leaves the flag of a region that is not its own. -/
theorem State.endExport_exporting {o : LrOp} {r : Nat} (h : exportRegion o ≠ r) (hr : r < 16) (s : State) (st : Status) (d : Nat) :
    (s.endExport o st d).fld (Reg.VAULT.RGN_EXPORTING r) 0 = s.fld (Reg.VAULT.RGN_EXPORTING r) 0 := by
  have ho : exportRegion o < 16 := wordField_lt ..
  have hq : csrKey 0x30 0 (0x100 + 0x20 * r) ≠ csrKey 0x30 0 (0x100 + 0x20 * exportRegion o) := by
    unfold csrKey
    omega
  have hoff : (Reg.VAULT.RGN_EXPORTING r).off < 0x3A4 := by
    show 0x100 + 0x20 * r < 0x3A4
    omega
  have hst : csrKey 0x30 0 (0x100 + 0x20 * r) ≠ csrKey 0x30 0 0x054 := by
    unfold csrKey
    omega
  unfold State.endExport
  extract_lets q code next s₁ s₂
  have h₁ : s₁.fld (Reg.VAULT.RGN_EXPORTING r) 0 = s.fld (Reg.VAULT.RGN_EXPORTING r) 0 := by
    simp only [s₁]
    rw [State.post_fld _ _ _ _ _ _ _ _ hoff, State.fld_setFld_other _ Reg.VAULT.STATUS_EXPORTING (Reg.VAULT.RGN_EXPORTING r) _ _ _ hst,
      State.fld_setFld_other _ (Reg.VAULT.RGN_EXPORTING q) (Reg.VAULT.RGN_EXPORTING r) _ _ _ hq]
  have h₂ : s₂.fld (Reg.VAULT.RGN_EXPORTING r) 0 = s.fld (Reg.VAULT.RGN_EXPORTING r) 0 := by
    rw [State.fld_congr (s := s₁) (State.endOp_csr ..), h₁]
  split
  · rw [State.fld_congr (State.freeRgn_csr s₂ q),
      State.fld_setFld_other _ (Reg.VAULT.RGN_STATE q) (Reg.VAULT.RGN_EXPORTING r) _ _ _ hq, h₂]
  · exact h₂

/-- A read of host memory that the host answers with its data. -/
theorem State.hostRead_of_answers {s : State} (h : s.pcie.answers = []) (a n : Nat) :
    s.hostRead a n = (.ok, (List.range n).map (fun i => (mread s.host (a + i), false)), s) := by
  have hw (w : Nat) : tget HostAnswer.data s.pcie.answers w = .data := by rw [h]; rfl
  unfold State.hostRead
  simp [hw]

theorem State.atsFill_of_off {s : State} (h : s.bit Reg.PCIE.CTL_ATS_EN 0 = false) (a : Nat) : s.atsFill a = s := by
  unfold State.atsFill
  dsimp only
  rw [if_neg (by rw [h]; simp)]

/-- Pieces of an access by lines lie within it. -/
theorem mem_lines {α : Type} {a n : Nat} {l : List α} {p : Nat × List α} (h : p ∈ lines a n l) : a ≤ p.1 ∧ p.1 < a + l.length := by
  induction n generalizing a l with
  | zero => cases h
  | succ n ih =>
    unfold lines at h
    split at h
    · cases h
    next hl =>
      have hpos : 0 < l.length := List.length_pos_iff.mpr (by simpa using hl)
      obtain rfl | h := List.mem_cons.mp h
      · exact ⟨le_rfl, by simpa using hpos⟩
      · have := ih h
        rw [List.length_drop] at this
        omega

/-- Bytes without poison, read without a trace. -/
def State.ReadsClean (s : State) (r : BusStatus × List (Byte × Bool) × State) : Prop :=
  r.1 = .ok ∧ r.2.2 = s ∧ ∀ x ∈ r.2.1, x.2 = false

theorem State.busRead_host {s : State} {ni port a : Nat} (hacc : s.access false ni port a = .ok) (hreg : s.region a = .host)
    (hats : s.bit Reg.PCIE.CTL_ATS_EN 0 = false) (hans : s.pcie.answers = []) (n : Nat) : s.ReadsClean (s.busRead ni port a n) := by
  unfold State.busRead
  rw [hacc]
  dsimp only
  rw [hreg]
  dsimp only
  rw [State.atsFill_of_off hats, State.hostRead_of_answers hans]
  exact ⟨rfl, rfl, by simp⟩

theorem State.busGet_clean {s : State} {ni port a n : Nat} (h : ∀ b, a ≤ b → b < a + n → ∀ k, s.ReadsClean (s.busRead ni port b k)) :
    s.ReadsClean (s.busGet ni port a n) := by
  have hl : ∀ p ∈ lines a (n / 256 + 2) (List.replicate n ()), s.ReadsClean (s.busRead ni port p.1 p.2.length) := fun p hp => by
    obtain ⟨h₁, h₂⟩ := mem_lines hp
    exact h p.1 h₁ (by simpa using h₂) _
  unfold State.busGet
  suffices hs : ∀ (l : List (Nat × List Unit)) (acc : List (Byte × Bool)), (∀ x ∈ acc, x.2 = false) →
      (∀ p ∈ l, s.ReadsClean (s.busRead ni port p.1 p.2.length)) →
      s.ReadsClean (l.foldl (fun acc p =>
        let (st, l, s) := acc.2.2.busRead ni port p.1 p.2.length
        (if acc.1 = .ok then st else acc.1, acc.2.1 ++ l, s)) (BusStatus.ok, acc, s)) from hs _ [] (by simp) hl
  intro l
  induction l with
  | nil => exact fun acc hacc _ => ⟨rfl, rfl, hacc⟩
  | cons p r ih =>
    intro acc hacc hl
    obtain ⟨hp, hr⟩ := List.forall_mem_cons.mp hl
    rw [List.foldl_cons]
    generalize s.busRead ni port p.1 p.2.length = x at *
    obtain ⟨st, l, t⟩ := x
    obtain ⟨rfl, rfl, hc⟩ := hp
    exact ih (acc ++ l) (fun x hx => (List.mem_append.mp hx).elim (hacc x) (hc x)) hr

/-- Bytes without poison hold no poisoned word. -/
theorem poisonWords_of_clean {l : List (Byte × Bool)} (h : ∀ x ∈ l, x.2 = false) (a : Nat) : poisonWords a l = 0 := by
  have : (List.range l.length).filter (fun i => (l.getD i (0, false)).2) = [] := by
    rw [List.filter_eq_nil_iff]
    intro i hi
    have hi := List.mem_range.mp hi
    rw [List.getD_eq_getElem _ _ hi, h _ (List.getElem_mem hi)]
    decide
  rw [poisonWords, this]
  rfl

theorem State.unitGet_clean {s : State} {cls inst ni port a n : Nat} (h : s.ReadsClean (s.busGet ni port a n)) :
    s.ReadsClean (s.unitGet cls inst ni port a n) := by
  unfold State.unitGet
  generalize s.busGet ni port a n = x at *
  obtain ⟨st, l, t⟩ := x
  obtain ⟨hst, ht, hc⟩ := h
  refine ⟨hst, ?_, hc⟩
  dsimp only at ht hc ⊢
  rw [State.took, if_pos (poisonWords_of_clean hc a), ht]

/-- Clean bytes written to the host change host memory alone. -/
theorem State.hostWrite_clean {l : List (Byte × Bool)} (h : ∀ x ∈ l, x.2 = false) (s : State) (a : Nat) :
    s.hostWrite a l = { s with host := mwrites s.host a (l.map (·.1)) } := by
  have : l.any (·.2) = false := by simpa using h
  unfold State.hostWrite
  rw [this]
  rfl

/-- A leaf read clean and written to a host that is up: the operation goes on with the offset past the leaf after its first six
parameters, and registers are as they were. -/
theorem State.exportLeaf_host {s : State} {o : LrOp} {x : Nat × Nat × RingLeaf}
    (h : s.ReadsClean (s.unitGet 0x30 0 (56 + x.2.2.seq % 2) 0 (s.vault.base + 4096 * x.2.1) 4096)) (hw : wordField (o.w 5) 0 0 ≠ 1)
    (hup : s.hostUp o.fn = true) : ∃ t : State, s.exportLeaf o x =
      (true, { o with progress := o.progress + 1, params := o.params.take 6 ++ [w32 (x.1 + 1)] }, t) ∧ t.csr = s.csr := by
  unfold State.exportLeaf
  dsimp only
  generalize s.unitGet 0x30 0 (56 + x.2.2.seq % 2) 0 (s.vault.base + 4096 * x.2.1) 4096 = r at *
  obtain ⟨st, l, t⟩ := r
  obtain ⟨rfl, ht, hc⟩ := h
  dsimp only at ht hc ⊢
  subst ht
  rw [if_neg (by simp), if_neg hw, if_pos hup]
  exact ⟨_, rfl, by rw [State.hostWrite_clean hc]⟩

/-- Whether a unit behind port 0 of NI `ni` reads host memory behind NI `58 + k`. -/
theorem State.access_host {s : State} {ni a : Nat} (hlo : 0x8000000000 ≤ a) (hhi : a < 0x8000001000)
    (hdr : (s.port (ni * 4 + 0)).drained = false) (hf : s.niFenced ni (58 * 4) = false) (he : (s.entry ni 0 58).invalid = false)
    (hc : s.carries false ni 58 = true) (hup : s.hostUp (s.fld Reg.PCIE.CTL_HOSTWIN_FN 0) = true) :
    s.region a = .host ∧ s.access false ni 0 a = .ok := by
  have hb : bulkBase ≤ 0x8000000000 := by decide
  have hreg : s.region a = .host := by
    unfold State.region
    repeat rw [if_neg (by omega)]
    rw [if_pos (by omega)]
  refine ⟨hreg, ?_⟩
  have hd : s.destOf a = some (58 * 4) := by
    have h0 : a / 2 ^ 12 % 2 = 0 := by omega
    rw [State.destOf, hreg]
    dsimp only
    rw [h0]
  unfold State.access
  rw [if_neg (by omega), hd]
  dsimp only
  rw [hdr, hf]
  simp [he, hc, hreg, hup]

/-- A VAULT_EXPORT in the table of operations without a parameter word, of region 0. -/
def bareExport : LrOp := ⟨1, 0, 0, 0, false, .vaultExport, 0x30, 0, [], 0, false, false, 0⟩

/-- The host up, region 0 frozen and EXPORTING, one written leaf of it in a Vault whose ring stands in host memory. -/
def bareExportState : State :=
  let s : State := { State.reset with
    dvorys := { State.reset.dvorys with ops := [bareExport] }
    witness := { State.reset.witness with
      vault := { State.reset.witness.vault with
        base := 0x8000000000, len := 1, ring := [(0, ⟨0, 0, 0, true⟩)], windows := [(0, (0, 1))] } } }
  ((s.setReg 0x30 0 0x100 258).setReg 0x68 0 0x00C 1).setReg 0x69 0 0x004 1

theorem bareExportState_live : bareExportState.liveOp 1 .vaultExport = some bareExport := by decide +kernel

theorem bareExportState_left : bareExportState.exportLeft bareExport = [(0, 0, ⟨0, 0, 0, true⟩)] := by decide +kernel

theorem bareExportState_flags : bareExportState.rgnState 0 = 2 ∧ bareExportState.fld (Reg.VAULT.RGN_EXPORTING 0) 0 = 1 ∧
    bareExportState.hostUp 0 = true := by decide +kernel

/-- The leaf's place is read without a trace. -/
theorem bareExportState_reads : bareExportState.ReadsClean (bareExportState.unitGet 0x30 0 56 0 0x8000000000 4096) := by
  refine State.unitGet_clean (State.busGet_clean fun b hlo hhi k => ?_)
  obtain ⟨hreg, hacc⟩ := State.access_host (s := bareExportState) (ni := 56) hlo hhi (by decide +kernel) (by decide +kernel)
    (by decide +kernel) (by decide +kernel) (by decide +kernel)
  exact State.busRead_host hacc hreg (by decide +kernel) (by decide +kernel) k

theorem State.exportRun_one {s t : State} {o o' : LrOp} {x : Nat × Nat × RingLeaf} (hl : s.exportLeft o = [x])
    (h : s.exportLeaf o x = (true, o', t)) : s.exportRun o 1 = (false, o', t) := by
  unfold State.exportRun
  rw [hl]
  simp [h]

theorem exec_exportDone_of_written {op : BitVec 16} {s t : State} {o o' : LrOp} {bad : Bool} (h : s.liveOp op .vaultExport = some o)
    (hst : s.rgnState (exportRegion o) ≠ 1) (hw : ∀ x ∈ s.exportLeft o, x.2.2.written = true)
    (hrun : s.exportRun o (s.exportLeft o).length = (bad, o', t)) :
    exec (.exportDone op) s = .next (t.endExport o' (if bad then .unitFault else .ok) 0) := by
  have hw' : (s.exportLeft o).any (fun x => !x.2.2.written) = false := by simpa using hw
  show execExportDone op s = _
  unfold execExportDone
  rw [h]
  dsimp only
  rw [if_neg (by simp [hst, hw']), hrun]

/-- The operation copies its leaf and then takes the offset past it for its region: region 0 stays EXPORTING. -/
theorem bareExport_exporting : ∃ t, exec (.exportDone 1) bareExportState = .next t ∧ t.fld (Reg.VAULT.RGN_EXPORTING 0) 0 = 1 := by
  obtain ⟨hst, hex, hup⟩ := bareExportState_flags
  obtain ⟨t, ht, hcsr⟩ := State.exportLeaf_host (s := bareExportState) (o := bareExport) (x := (0, 0, ⟨0, 0, 0, true⟩))
    bareExportState_reads (by decide) hup
  have hleft := bareExportState_left
  have hrun : bareExportState.exportRun bareExport (bareExportState.exportLeft bareExport).length =
      (false, { bareExport with progress := 1, params := [w32 1] }, t) := by
    rw [hleft]
    exact State.exportRun_one hleft ht
  refine ⟨_, exec_exportDone_of_written bareExportState_live (fun e => absurd (hst.symm.trans e) (by decide)) (by simp [hleft]) hrun, ?_⟩
  rw [State.endExport_exporting (by decide) (by decide), State.fld_congr hcsr, hex]

/-- Refutes O56: a VAULT_EXPORT in the table without parameter words (R227's packet carries six) copies a leaf, keeps the offset past it as
its only parameter word, and clears EXPORTING of the region that word names, not of its own. -/
theorem not_longOperationsEnd : ¬ Obligations.LongOperationsEnd := by
  intro h
  obtain ⟨-, -, -, -, -, h, -⟩ := h
  obtain ⟨hst, -, -⟩ := bareExportState_flags
  obtain ⟨t, ht, hflag⟩ := bareExport_exporting
  obtain ⟨u, hu, -, -, hoff⟩ := (h 1 bareExportState bareExport bareExportState_live).2
    ⟨.inl fun e => absurd (hst.symm.trans e) (by decide), by simp [bareExportState_left]⟩
  obtain rfl : t = u := by rw [ht] at hu; exact Host.Outcome.next.inj hu
  exact absurd (hflag.symm.trans hoff) (by decide)

/-! ## Errors reported (R383, R387) -/

/-- A state that reports were made in: registers and the journal alone changed, and below the counter banks none but SYS's. -/
def State.Noted (s t : State) : Prop :=
  (∃ r j, t = { s with csr := r, journal := j }) ∧ ∀ (f : Field) (i : Nat), f.cls ≠ 0 → f.off < 0x3A4 → t.fld f i = s.fld f i

theorem State.Noted.refl (s : State) : s.Noted s := ⟨⟨_, _, rfl⟩, fun _ _ _ _ => rfl⟩

theorem State.Noted.post {s t : State} (h : s.Noted t) (cls inst event sev d : Nat) : s.Noted (t.post cls inst event sev d) := by
  obtain ⟨⟨r, j, rfl⟩, hf⟩ := h
  refine ⟨?_, fun f i hc ho => (State.post_fld _ _ _ _ _ _ i f ho).trans (hf f i hc ho)⟩
  obtain ⟨r', j', e⟩ := State.post_is { s with csr := r, journal := j } cls inst event sev d
  exact ⟨r', j', e⟩

/-- A field of SYS set. -/
theorem State.Noted.setFld {s t : State} (h : s.Noted t) (g : Field) (hg : g.cls = 0) (ho : g.off < 0x400) (v : Nat) :
    s.Noted (t.setFld g 0 v) := by
  obtain ⟨⟨r, j, rfl⟩, hf⟩ := h
  refine ⟨⟨_, j, rfl⟩, fun f i hc hf' => (State.fld_setFld_other _ g f _ _ _ ?_).trans (hf f i hc hf')⟩
  unfold csrKey
  omega

/-- The time of detection set. -/
theorem State.Noted.setPair {s t : State} (h : s.Noted t) (v : Nat) :
    s.Noted (t.setPair Reg.SYS.FAULT_DETECT_LO_DETECT Reg.SYS.FAULT_DETECT_HI_DETECT 0 v) :=
  (h.setFld Reg.SYS.FAULT_DETECT_LO_DETECT rfl (by decide) _).setFld Reg.SYS.FAULT_DETECT_HI_DETECT rfl (by decide) _

theorem State.Noted.ite {s t u : State} (ht : s.Noted t) (hu : s.Noted u) (b : Bool) : s.Noted (if b then t else u) := by
  split
  · exact ht
  · exact hu

/-- A fault of the endpoint is recorded and starts no recovery (R383). -/
theorem State.Noted.reportFault {s t : State} (h : s.Noted t) (cls inst : Nat) : s.Noted (t.reportFault 7 cls inst) := by
  unfold State.reportFault
  rw [if_pos rfl]
  generalize (false || t.faults.recoveries.any fun r => sameUnit r 7 cls inst) = b
  have add {t : State} (h : s.Noted t) (k : Nat) (hk : k < 16) : s.Noted (t.addFld (Reg.SYS.FAULT_COUNT_COUNT k) 0 1) :=
    h.setFld _ rfl (by simp; omega) _
  have h₁ := add h 7 (by decide)
  have h₂ := (add h₁ 13 (by decide)).ite h₁ b
  have h₃ := ((h₂.setFld Reg.SYS.FAULT_LAST_CODE rfl (by decide) 7).setFld Reg.SYS.FAULT_LAST_CLASS rfl (by decide) cls).setFld
    Reg.SYS.FAULT_LAST_SELECTOR rfl (by decide) inst
  exact .ite (((h₃.setPair _).post ..).post ..) ((h₃.setPair _).post ..) b

theorem State.Noted.aer {s t : State} (h : s.Noted t) (b : Nat) : s.Noted (t.aer b) := (h.post ..).reportFault ..

theorem State.noted_aer (s : State) (b : Nat) : s.Noted (s.aer b) := (State.Noted.refl s).aer b

theorem State.Noted.mem {s t : State} (h : s.Noted t) : t.mem = s.mem := by
  obtain ⟨⟨r, j, rfl⟩, -⟩ := h
  rfl

theorem State.Noted.pcie {s t : State} (h : s.Noted t) : t.pcie = s.pcie := by
  obtain ⟨⟨r, j, rfl⟩, -⟩ := h
  rfl

theorem State.Noted.mortar {s t : State} (h : s.Noted t) : t.mortar = s.mortar := by
  obtain ⟨⟨r, j, rfl⟩, -⟩ := h
  rfl

/-! ## Responses of an NI (R239, R245) -/

/-- A state that packets were sent in: registers of the counter banks and Mortar alone changed. -/
def State.Sent (s t : State) : Prop :=
  (∃ r m, t = { s with csr := r, mortar := m }) ∧ ∀ (f : Field) (i : Nat), f.off < 0x3A4 → t.fld f i = s.fld f i

theorem State.Sent.refl (s : State) : s.Sent s := ⟨⟨_, _, rfl⟩, fun _ _ _ => rfl⟩

theorem State.Sent.trans {s t u : State} (h : s.Sent t) (h' : t.Sent u) : s.Sent u := by
  obtain ⟨⟨r, m, rfl⟩, hf⟩ := h
  obtain ⟨⟨r', m', rfl⟩, hf'⟩ := h'
  exact ⟨⟨r', m', rfl⟩, fun f i ho => (hf' f i ho).trans (hf f i ho)⟩

theorem State.sent_foldl {α : Type} {g : State → α → State} (l : List α) (s : State) (h : ∀ (s : State) x, s.Sent (g s x)) :
    s.Sent (l.foldl g s) := by
  induction l generalizing s with
  | nil => exact .refl s
  | cons x l ih => exact (h s x).trans (ih (g s x))

theorem State.sent_sendFlit (s : State) (ni plane vc src dest txn : Nat) (load : Load) :
    s.Sent (s.sendFlit ni plane vc src dest txn load) := by
  unfold State.sendFlit
  extract_lets r f
  split
  · exact .refl s
  · obtain ⟨c, e⟩ := (s.setFlits (s.mortar.flits ++ [f])).countEvent_is 0x38 ni 0x010 f.size
    exact ⟨⟨c, _, e⟩, fun g i ho => State.countEvent_fld _ _ _ _ _ i g ho⟩

theorem State.sent_respond (s : State) (ni : Nat) (f : Flit) (status : Nat) (words : List (List (Byte × Bool))) :
    s.Sent (s.respond ni f status words) :=
  .trans (State.sent_foldl _ s fun s _ => s.sent_sendFlit ..) (State.sent_sendFlit ..)

theorem State.sent_hostAnswer (s : State) (f : Flit) (status : Nat) (words : List (List (Byte × Bool))) :
    s.Sent (s.hostAnswer f status words) :=
  .trans ⟨⟨s.csr, _, rfl⟩, fun _ _ _ => rfl⟩ (State.sent_respond ..)

/-- Where the link goes, the reads sent out to the host end. -/
theorem State.sent_hostGone (s : State) : s.Sent s.hostGone := State.sent_foldl _ s fun s f => s.sent_hostAnswer f 3 []

/-! ## Ring pages and doorbells (R31-R36) -/

theorem State.page_setPage_fin (s : State) {fn f : Fin 16} (g : RingPage) (h : f ≠ fn) : (s.setPage fn g).page f = s.page f :=
  s.page_setPage_other g fun e => h (Fin.ext e)

/-- A one-bit field read as a Boolean. -/
theorem wordField_beq_one (v : Word) (k : Nat) : (wordField v k k == 1) = v.getLsbD k := by
  have hlt := wordField_lt v k k
  rw [getLsbD_eq_testBit_wordField v le_rfl le_rfl, Nat.sub_self, Nat.testBit_zero]
  rw [Nat.add_sub_cancel_left] at hlt
  generalize wordField v k k = x at *
  interval_cases x <;> rfl

/-- The doorbells store their index from Raising on with the link up. -/
theorem doorbells_spec (fn : Fin 16) (v : BitVec 12) (s : State) : (∃ t, exec (.sqTailDoorbell fn v) s = .next t ∧
      (s.hostReach = false → t = s) ∧ (s.hostReach = true → (t.page fn).sqTail = v ∧ (t.page fn).sqHead = (s.page fn).sqHead ∧
        t.csr = s.csr ∧ ∀ f : Fin 16, f ≠ fn → t.page f = s.page f)) ∧
    (∃ t, exec (.cqHeadDoorbell fn v) s = .next t ∧
      (s.hostReach = false → t = s) ∧ (s.hostReach = true → (t.page fn).cqHead = v ∧ (t.page fn).cqTail = (s.page fn).cqTail ∧
        t.csr = s.csr ∧ ∀ f : Fin 16, f ≠ fn → t.page f = s.page f)) := by
  refine ⟨⟨s.sqTailWrite fn v, rfl, fun h => ?_, fun h => ?_⟩, ⟨s.cqHeadWrite fn v, rfl, fun h => ?_, fun h => ?_⟩⟩
  · rw [State.sqTailWrite, if_neg (by simp [h])]
  · rw [State.sqTailWrite, if_pos h, State.page_setPage_self]
    exact ⟨rfl, rfl, rfl, fun f hf => s.page_setPage_fin _ hf⟩
  · rw [State.cqHeadWrite, if_neg (by simp [h])]
  · rw [State.cqHeadWrite, if_pos h, State.page_setPage_self]
    exact ⟨rfl, rfl, rfl, fun f hf => s.page_setPage_fin _ hf⟩

theorem State.bar4Write_of_low {s : State} {off : Nat} (h : off < 0x028) (fn : Nat) (v : Word) : s.bar4Write fn off v =
    if !s.pageTakes then s
    else if off = 0x010 then s.ringCtlWrite fn v
    else if off = 0x020 then
      s.setPage fn { s.page fn with
        vector := BitVec.ofNat 11 (wordField v 10 0), irqEn := wordField v 11 11 == 1,
        coalCount := BitVec.ofNat 8 (wordField v 23 16), coalTime := BitVec.ofNat 8 (wordField v 31 24) }
    else if (s.page fn).enable then s
    else if off = 0x000 ∨ off = 0x004 then s.setPage fn { s.page fn with sqBase := putHalf (s.page fn).sqBase (off == 0x004) v }
    else if off = 0x008 ∨ off = 0x00C then s.setPage fn { s.page fn with cqBase := putHalf (s.page fn).cqBase (off == 0x00C) v }
    else s := by
  unfold State.bar4Write
  dsimp only
  repeat rw [if_neg (show ¬_ by omega)]

theorem exec_bar4_of_reach {s : State} (h : s.hostReach = true) (fn : Fin 16) (off : BitVec 16) (v : Word) :
    exec (.bar4RingPageWrite fn off v) s = .next (s.bar4Write fn (off.toNat / 4 * 4) v) := if_pos h

theorem exec_bar4_of_not_reach {s : State} (h : s.hostReach = false) (fn : Fin 16) (off : BitVec 16) (v : Word) :
    exec (.bar4RingPageWrite fn off v) s = .next s := if_neg (by simp [h])

/-- A write of a ring's registers while the ring is off. -/
theorem State.bar4Write_of_disabled {s : State} {fn : Nat} (ht : s.pageTakes = true) (he : (s.page fn).enable = false) (v : Word) :
    s.bar4Write fn 0x000 v = s.setPage fn { s.page fn with sqBase := putHalf (s.page fn).sqBase false v } ∧
    s.bar4Write fn 0x004 v = s.setPage fn { s.page fn with sqBase := putHalf (s.page fn).sqBase true v } ∧
    s.bar4Write fn 0x008 v = s.setPage fn { s.page fn with cqBase := putHalf (s.page fn).cqBase false v } ∧
    s.bar4Write fn 0x00C v = s.setPage fn { s.page fn with cqBase := putHalf (s.page fn).cqBase true v } ∧
    s.bar4Write fn 0x010 v = s.ringCtlWrite fn v := by
  have ht' : ¬(!s.pageTakes) = true := by simp [ht]
  have he' : ¬(s.page fn).enable = true := by simp [he]
  refine ⟨?_, ?_, ?_, ?_, ?_⟩ <;> rw [State.bar4Write_of_low (by decide), if_neg ht']
  · exact if_neg he'
  · exact if_neg he'
  · exact if_neg he'
  · exact if_neg he'
  · exact if_pos rfl

theorem bar4_spec (fn : Fin 16) (off : BitVec 16) (v : Word) (s : State) : ∃ t, exec (.bar4RingPageWrite fn off v) s = .next t ∧
      (s.hostReach = false → t = s) ∧ (s.modes.mode = .banked → off.toNat < 0x028 → t = s) ∧
      (s.pageTakes = true → (s.page fn).enable = true → off.toNat < 0x010 → t = s) ∧
      (s.pageTakes = true → (s.page fn).enable = false →
        (off = 0x000 → (t.page fn).sqBase = BitVec.ofNat 64 (2 ^ 32 * ((s.page fn).sqBase.toNat / 2 ^ 32) + v.toNat)) ∧
        (off = 0x004 → (t.page fn).sqBase = BitVec.ofNat 64 ((s.page fn).sqBase.toNat % 2 ^ 32 + 2 ^ 32 * v.toNat)) ∧
        (off = 0x008 → (t.page fn).cqBase = BitVec.ofNat 64 (2 ^ 32 * ((s.page fn).cqBase.toNat / 2 ^ 32) + v.toNat)) ∧
        (off = 0x00C → (t.page fn).cqBase = BitVec.ofNat 64 ((s.page fn).cqBase.toNat % 2 ^ 32 + 2 ^ 32 * v.toNat)) ∧
        (off = 0x010 → (t.page fn).enable = v.getLsbD 0 ∧ (t.page fn).sqTreasury = v.getLsbD 1 ∧
          (t.page fn).cqTreasury = v.getLsbD 2)) ∧
      (s.pageTakes = true → off = 0x020 → (t.page fn).vector.toNat = v.toNat % 2 ^ 11 ∧ (t.page fn).irqEn = v.getLsbD 11) := by
  cases hr : s.hostReach
  · have ht : s.pageTakes = false := by simp [State.pageTakes, hr]
    refine ⟨s, exec_bar4_of_not_reach hr .., fun _ => rfl, fun _ _ => rfl, fun _ _ _ => rfl, fun h => ?_, fun h => ?_⟩
    · rw [ht] at h; cases h
    · rw [ht] at h; cases h
  · refine ⟨_, exec_bar4_of_reach hr .., nofun, fun hb ho => ?_, fun ht he ho => ?_, fun ht he => ?_, fun ht ho => ?_⟩
    · have ht : s.pageTakes = false := by simp [State.pageTakes, hb]
      rw [State.bar4Write_of_low (by omega), if_pos (by simp [ht])]
    · rw [State.bar4Write_of_low (by omega), if_neg (by simp [ht]), if_neg (by omega), if_neg (by omega), if_pos he]
    · obtain ⟨h0, h4, h8, hC, h10⟩ := State.bar4Write_of_disabled ht he v
      refine ⟨?_, ?_, ?_, ?_, ?_⟩ <;> rintro rfl
      · exact congrArg RingPage.sqBase ((congrArg (State.page · fn) h0).trans (State.page_setPage_self ..))
      · exact congrArg RingPage.sqBase ((congrArg (State.page · fn) h4).trans (State.page_setPage_self ..))
      · exact congrArg RingPage.cqBase ((congrArg (State.page · fn) h8).trans (State.page_setPage_self ..))
      · exact congrArg RingPage.cqBase ((congrArg (State.page · fn) hC).trans (State.page_setPage_self ..))
      · have hpage : ((s.ringCtlWrite fn v).page fn) = { s.page fn with
            enable := wordField v 0 0 == 1, sqTreasury := wordField v 1 1 == 1, cqTreasury := wordField v 2 2 == 1,
            quiesced := (s.page fn).quiesced && wordField v 0 0 == 0 } := by
          rw [State.ringCtlWrite, if_neg (by simp [he]), State.page_setPage_self]
        have e := (congrArg (State.page · fn) h10).trans hpage
        simp only [wordField_beq_one] at e
        exact ⟨congrArg RingPage.enable e, congrArg RingPage.sqTreasury e, congrArg RingPage.cqTreasury e⟩
    · subst ho
      rw [State.bar4Write_of_low (by decide), if_neg (by simp [ht])]
      rw [if_neg (by decide), if_pos (by decide), State.page_setPage_self]
      refine ⟨?_, wordField_beq_one v 11⟩
      rw [wordField_zero, BitVec.toNat_ofNat, Nat.mod_mod]

/-! ## Rings disabled and quiesced (R36) -/

theorem State.stopRingOps_page (s : State) (fn : Nat) (mute : Bool) (f : Nat) : (s.stopRingOps fn mute).page f = s.page f := rfl

/-- What a stop asks of a function's operations. -/
theorem State.mem_stopRingOps {s : State} {fn : Nat} {mute : Bool} {o : LrOp} (h : o ∈ (s.stopRingOps fn mute).dvorys.ops)
    (hf : o.fn = fn) : (∃ x ∈ s.dvorys.ops, x.mute = false ∧ o = { x with aborting := x.aborting || x.kind.abortable, mute := mute }) ∨
      o.mute = true := by
  obtain ⟨x, hx, rfl⟩ := List.mem_map.mp h
  split
  next hc => exact .inl ⟨x, hx, by simpa using hc.2, rfl⟩
  next hc =>
    rw [if_neg hc] at hf
    exact .inr (by simpa [hf] using hc)

theorem ringDisable_spec (fn : Fin 16) (s : State) : ∃ t, exec (.ringDisable fn) s = .next t ∧
    (s.pageTakes = true → (s.page fn).enable = true → (t.page fn).enable = false ∧ (t.page fn).quiescing = true ∧
      (∀ o ∈ t.dvorys.ops, o.fn = fn.val → o.mute = false → o.kind.abortable = true → o.aborting = true) ∧
      t.dvorys.ops.length = s.dvorys.ops.length) ∧
    (s.pageTakes = false ∨ (s.page fn).enable = false → t = s) := by
  refine ⟨_, rfl, fun ht he => ?_, fun h => if_neg (by obtain h | h := h <;> simp [h])⟩
  rw [if_pos (by rw [ht, he]; rfl), State.ringCtlWrite, if_pos he, if_neg (by decide), State.stopRingOps_page, State.page_setPage_self]
  refine ⟨rfl, rfl, fun o ho hf hm hab => ?_, List.length_map _⟩
  obtain ⟨x, -, -, rfl⟩ | hmute := State.mem_stopRingOps ho hf
  · exact Bool.or_eq_true_iff.mpr (.inr hab)
  · rw [hm] at hmute
    cases hmute

theorem quiesced_spec (fn : Fin 16) (s : State) : ∃ t, exec (.quiesced fn) s = .next t ∧
    (s.fld Reg.PCIE_FN.STATUS_FLR_BUSY fn = 1 → t.fld Reg.PCIE_FN.STATUS_FLR_BUSY fn = 0) ∧
    (s.fld Reg.PCIE_FN.STATUS_FLR_BUSY fn = 0 → (s.page fn).quiescing = true → s.eventsOwed fn = 0 →
      let p := t.page fn
      p.quiescing = false ∧ p.sqHead = 0 ∧ p.cqTail = 0 ∧ p.sqTail = 0 ∧ p.cqHead = 0 ∧ p.phase = true ∧
        ((s.page fn).enable = false → p.quiesced = true)) ∧
    (s.fld Reg.PCIE_FN.STATUS_FLR_BUSY fn = 0 → (s.page fn).quiescing = false ∨ s.eventsOwed fn ≠ 0 → t = s) := by
  have hb : s.fld Reg.PCIE_FN.STATUS_FLR_BUSY fn = 1 ∨ s.fld Reg.PCIE_FN.STATUS_FLR_BUSY fn = 0 := by
    have : s.fld Reg.PCIE_FN.STATUS_FLR_BUSY fn < 2 := wordField_lt ..
    omega
  show ∃ t, execQuiesced fn s = .next t ∧ _
  unfold execQuiesced
  obtain hb | hb := hb
  · rw [if_pos (by simp [State.bit, hb])]
    refine ⟨_, rfl, fun _ => ?_, fun h => ?_, fun h => ?_⟩
    · rw [State.fld_setFld_self _ _ _ _ (by decide) (by decide), Nat.zero_mod]
    · omega
    · omega
  · rw [if_neg (by simp [State.bit, hb])]
    dsimp only
    by_cases hq : (s.page fn).quiescing = true ∧ s.eventsOwed fn = 0
    · rw [if_pos hq]
      refine ⟨_, rfl, fun h => by omega, fun _ _ _ => ?_, fun _ h => ?_⟩
      · rw [State.page_setPage_self]
        exact ⟨rfl, rfl, rfl, rfl, rfl, rfl, fun h => by simp [h]⟩
      · obtain h | h := h
        · rw [hq.1] at h; cases h
        · exact absurd hq.2 h
    · rw [if_neg hq]
      exact ⟨s, rfl, fun h => by omega, fun _ h h' => absurd ⟨h, h'⟩ hq, fun _ _ => rfl⟩

/-! ## Function resets (R36, R381) -/

/-- Dropping vectors leaves everything beside the endpoint. -/
theorem State.foldl_setVec_is (l : List Nat) (s : State) : ∃ x, l.foldl (fun s p => s.setVec p MsixVec.reset) s =
    { s with pcie := { s.pcie with vecs := x } } := by
  induction l generalizing s with
  | nil => exact ⟨_, rfl⟩
  | cons p l ih =>
    obtain ⟨x, e⟩ := ih (s.setVec p MsixVec.reset)
    exact ⟨x, e⟩

/-- A function reset: the ring page and the function's registers, vectors and operations, nothing else. -/
theorem State.resetFn_is (s : State) (fn : Nat) : ∃ x, s.resetFn fn = (State.setFld { (s.stopRingOps fn true).setPage fn RingPage.reset with
    pcie := x } Reg.PCIE_FN.STATUS_BME fn 0).setFld Reg.PCIE_FN.STATUS_MSIX_EN fn 0 := by
  unfold State.resetFn
  obtain ⟨x, e⟩ := State.foldl_setVec_is (((s.stopRingOps fn true).setPage fn RingPage.reset).fnVectors fn)
    ((s.stopRingOps fn true).setPage fn RingPage.reset)
  dsimp only
  rw [e]
  exact ⟨_, rfl⟩

@[simp] theorem State.resetFn_mem (s : State) (fn : Nat) : (s.resetFn fn).mem = s.mem := by
  obtain ⟨x, e⟩ := s.resetFn_is fn
  rw [e, State.setFld_mem, State.setFld_mem]
  rfl

theorem State.resetFn_dvorys (s : State) (fn : Nat) : (s.resetFn fn).dvorys = ((s.stopRingOps fn true).setPage fn RingPage.reset).dvorys := by
  obtain ⟨x, e⟩ := s.resetFn_is fn
  rw [e, State.setFld_dvorys, State.setFld_dvorys]

theorem State.page_congr {s t : State} (h : t.dvorys = s.dvorys) (fn : Nat) : t.page fn = s.page fn := by
  rw [State.page, State.page, h]

theorem State.page_resetFn_self (s : State) (fn : Nat) : (s.resetFn fn).page fn = RingPage.reset := by
  rw [State.page_congr (s.resetFn_dvorys fn), State.page_setPage_self]

theorem State.page_resetFn_other (s : State) {fn f : Nat} (h : f ≠ fn) : (s.resetFn fn).page f = s.page f := by
  rw [State.page_congr (s.resetFn_dvorys fn), State.page_setPage_other _ _ h, State.stopRingOps_page]

/-- BME and MSI-X enable are 0 after a function reset; other registers keep. -/
theorem State.resetFn_fld (s : State) (fn : Nat) : (s.resetFn fn).fld Reg.PCIE_FN.STATUS_BME fn = 0 ∧
    (s.resetFn fn).fld Reg.PCIE_FN.STATUS_MSIX_EN fn = 0 := by
  obtain ⟨x, e⟩ := s.resetFn_is fn
  rw [e]
  refine ⟨?_, ?_⟩
  · rw [State.fld_setFld_beside _ Reg.PCIE_FN.STATUS_MSIX_EN Reg.PCIE_FN.STATUS_BME _ _ (by decide) (by decide) (by decide) rfl rfl
          (by decide),
      State.fld_setFld_self _ _ _ _ (by decide) (by decide), Nat.zero_mod]
  · rw [State.fld_setFld_self _ _ _ _ (by decide) (by decide), Nat.zero_mod]

theorem flr_spec (fn : Fin 16) (s : State) : ∃ t, exec (.flr fn) s = .next t ∧ (s.hostReach = false → t = s) ∧
    (s.hostReach = true → t.page fn = RingPage.reset ∧ t.fld Reg.PCIE_FN.STATUS_FLR_BUSY fn = 1 ∧
      t.fld Reg.PCIE_FN.STATUS_BME fn = 0 ∧ t.fld Reg.PCIE_FN.STATUS_MSIX_EN fn = 0 ∧ t.mem = s.mem ∧
      (∀ o ∈ t.dvorys.ops, o.fn = fn.val → o.mute = true) ∧ ∀ f : Fin 16, f ≠ fn → t.page f = s.page f) := by
  show ∃ t, execFlr fn s = .next t ∧ _
  unfold execFlr
  cases hr : s.hostReach
  · exact ⟨s, rfl, fun _ => rfl, nofun⟩
  · rw [if_pos rfl]
    refine ⟨_, rfl, nofun, fun _ => ?_⟩
    have hd : (((s.resetFn fn).setFld Reg.PCIE_FN.STATUS_FLR_BUSY fn 1).post 0x68 0 0x004 0 fn).dvorys =
        ((s.stopRingOps fn true).setPage fn RingPage.reset).dvorys := by
      rw [State.post_dvorys, State.setFld_dvorys, State.resetFn_dvorys]
    obtain ⟨hbme, hen⟩ := s.resetFn_fld fn
    refine ⟨?_, ?_, ?_, ?_, ?_, ?_, fun f hf => ?_⟩
    · rw [State.page_congr hd, State.page_setPage_self]
    · rw [State.post_fld _ _ _ _ _ _ _ _ (by decide), State.fld_setFld_self _ _ _ _ (by decide) (by decide)]
      rfl
    · rw [State.post_fld _ _ _ _ _ _ _ _ (by decide),
        State.fld_setFld_beside _ Reg.PCIE_FN.STATUS_FLR_BUSY Reg.PCIE_FN.STATUS_BME _ _ (by decide) (by decide) (by decide) rfl rfl
          (by decide), hbme]
    · rw [State.post_fld _ _ _ _ _ _ _ _ (by decide),
        State.fld_setFld_beside _ Reg.PCIE_FN.STATUS_FLR_BUSY Reg.PCIE_FN.STATUS_MSIX_EN _ _ (by decide) (by decide) (by decide) rfl rfl
          (by decide), hen]
    · rw [State.post_mem, State.setFld_mem, State.resetFn_mem]
    · intro o ho hf
      rw [hd] at ho
      obtain ⟨x, -, -, rfl⟩ | hm := State.mem_stopRingOps (s := s) ho hf
      · rfl
      · exact hm
    · rw [State.page_congr hd, State.page_setPage_fin _ _ hf, State.stopRingOps_page]

theorem irqCoalTimer_spec (fn : Fin 16) (s : State) :
    let p := s.page fn
    let due := p.irqEn = true ∧ p.coalTime ≠ 0 ∧ 0 < p.unsignalled ∧ p.coalSince + 100 * p.coalTime.toNat ≤ s.devclk.toNat
    ∃ t, exec (.irqCoalTimer fn) s = .next t ∧ (¬ due → t = s) ∧
      (due → (t.page fn).unsignalled = 0 ∧ t.pcie = (s.raise fn p.vector.toNat).pcie) := by
  intro p due
  show ∃ t, execIrqCoalTimer fn s = .next t ∧ _
  unfold execIrqCoalTimer
  dsimp only
  by_cases h : due
  · rw [if_pos h]
    refine ⟨_, rfl, fun hn => absurd h hn, fun _ => ⟨?_,
      State.raise_pcie_congr (s := s) (State.setPage_csr ..) (State.setPage_pcie ..) fn _⟩⟩
    obtain ⟨x, e⟩ := (s.setPage fn { s.page fn with unsignalled := 0 }).raise_is fn (s.page fn).vector.toNat
    have hd : ((s.setPage fn { s.page fn with unsignalled := 0 }).raise fn (s.page fn).vector.toNat).dvorys =
        (s.setPage fn { s.page fn with unsignalled := 0 }).dvorys := by rw [e]
    rw [State.page_congr hd, State.page_setPage_self]
  · rw [if_neg h]
    exact ⟨s, rfl, fun _ => rfl, fun hd => absurd hd h⟩

/-! ## The BAR0 window (R379) -/

/-- The four bytes of a word are its number. -/
theorem leNat_leBytes_word (w : Word) : leNat (leBytes 4 w.toNat) = w.toNat := by
  have := w.isLt
  simp only [leBytes, leNat, BitVec.toNat_ofNat]
  omega

/-- A 32-bit count of events that stops at its end. -/
theorem State.fld_satFld_count (s : State) (f : Field) (i : Nat) (hl : f.lsb = 0) (hm : f.msb = 31) :
    (s.satFld f i 1).fld f i = min (2 ^ 32 - 1) (s.fld f i + 1) := by
  rw [State.satFld, State.fld_setFld_self _ _ _ _ (by omega) (by omega), hl, hm]
  exact Nat.mod_eq_of_lt (by omega)

/-- A 32-bit count of events that goes round. -/
theorem State.fld_addFld_count (s : State) (f : Field) (i : Nat) (hl : f.lsb = 0) (hm : f.msb = 31) :
    (s.addFld f i 1).fld f i = (s.fld f i + 1) % 2 ^ 32 := by
  rw [State.addFld, State.fld_setFld_self _ _ _ _ (by omega) (by omega), hl, hm]

/-- Accesses by a closed window are counted for both pairs. -/
theorem State.bar0Blocked_count (s : State) : s.bar0Blocked.fld Reg.DVORYS.BAR0_BLOCKED_COUNT 0 =
    min (2 ^ 32 - 1) (s.fld Reg.DVORYS.BAR0_BLOCKED_COUNT 0 + 1) := by
  have other (t : State) : (t.satFld Reg.DVORYS.BAR0_BLOCKED_COUNT 1 1).fld Reg.DVORYS.BAR0_BLOCKED_COUNT 0 =
      t.fld Reg.DVORYS.BAR0_BLOCKED_COUNT 0 := State.fld_setFld_other _ _ _ _ _ _ (by decide)
  rw [State.bar0Blocked, other, State.fld_satFld_count _ _ _ rfl rfl]

theorem State.tget_giveBack (s : State) (req : Nat) (w : Word) : tget 0 (s.giveBack req w).returned req = w := tget_tset_self ..

theorem bar0At_zero (off : BitVec 28) : bar0At off.toNat 0 =
    (off.toNat / 4 * 4 / 2 ^ 20, off.toNat / 4 * 4 / 2 ^ 10 % 2 ^ 10, off.toNat / 4 * 4 % 2 ^ 10) := by
  have h : (off.toNat / 4 * 4 + 4 * 0) % 2 ^ 28 = off.toNat / 4 * 4 := by omega
  unfold bar0At
  rw [h]

theorem exec_bar0Read_open {s : State} (hr : s.hostReach = true) (ho : s.bit Reg.DVORYS.BAR0_CTL_OPEN 0 = true) (off : BitVec 28) :
    let a := off.toNat / 4 * 4
    let r := s.csrRead 9 (a / 2 ^ 20) (a / 2 ^ 10 % 2 ^ 10) (a % 2 ^ 10)
    exec (.bar0Read off 1) s = .next ((r.2.setReply 0 (clean (leBytes 4 r.1.toNat))).giveBack 9 r.1) := by
  intro a r
  show execBar0Read off 1 s = _
  unfold execBar0Read
  rw [if_neg (by simp [hr]), if_pos ho]
  simp only [List.range_one, List.foldl_cons, List.foldl_nil, bar0At_zero, List.nil_append, Nat.sub_self, Nat.mul_zero, List.drop_zero,
    leNat_leBytes_word]
  rw [w32, BitVec.ofNat_toNat, BitVec.setWidth_eq]

theorem exec_bar0Write_open {s : State} (hr : s.hostReach = true) (ho : s.bit Reg.DVORYS.BAR0_CTL_OPEN 0 = true) (off : BitVec 28)
    (v : Word) (be : BitVec 4) :
    let a := off.toNat / 4 * 4
    exec (.bar0Write off [(v, be)]) s = .next (if be = 15 then s.csrWrite 9 (a / 2 ^ 20) (a / 2 ^ 10 % 2 ^ 10) (a % 2 ^ 10) v
      else s.addFld Reg.PCIE.BAR0_PARTIAL_COUNT 0 1) := by
  intro a
  show execBar0Write off [(v, be)] s = _
  unfold execBar0Write
  rw [if_neg (by simp [hr]), if_pos ho]
  simp only [List.length_singleton, List.range_one, List.foldl_cons, List.foldl_nil, bar0At_zero]
  rfl

theorem exec_bar0_closed {s : State} (hr : s.hostReach = true) (ho : s.bit Reg.DVORYS.BAR0_CTL_OPEN 0 = false) (off : BitVec 28)
    (n : Nat) (l : List (Word × BitVec 4)) :
    exec (.bar0Read off n) s = .next ((s.bar0Blocked.setReply 0 (List.replicate (4 * n) (0, false))).giveBack 9 0) ∧
    exec (.bar0Write off l) s = .next s.bar0Blocked := by
  constructor
  · show execBar0Read off n s = _
    unfold execBar0Read
    rw [if_neg (by simp [hr]), if_neg (by simp [ho])]
  · show execBar0Write off l s = _
    unfold execBar0Write
    rw [if_neg (by simp [hr]), if_neg (by simp [ho])]

theorem bar0_spec (off : BitVec 28) (v : Word) (be : BitVec 4) (s : State) (hr : s.hostReach = true) :
    let a := off.toNat / 4 * 4
    let cls := a / 2 ^ 20
    let sel := a / 2 ^ 10 % 2 ^ 10
    let o := a % 2 ^ 10
    (s.fld Reg.DVORYS.BAR0_CTL_OPEN 0 = 1 →
      (∃ t, exec (.bar0Read off 1) s = .next t ∧ tget 0 t.returned 9 = (s.csrRead 9 cls sel o).1 ∧
        t.pcie.reply = ⟨0, clean (leBytes 4 (s.csrRead 9 cls sel o).1.toNat)⟩) ∧
      (be = 15 → exec (.bar0Write off [(v, be)]) s = .next (s.csrWrite 9 cls sel o v)) ∧
      (be ≠ 15 → exec (.bar0Write off [(v, be)]) s = .next (s.addFld Reg.PCIE.BAR0_PARTIAL_COUNT 0 1))) ∧
    (s.fld Reg.DVORYS.BAR0_CTL_OPEN 0 = 0 →
      (∃ t, exec (.bar0Read off 1) s = .next t ∧ tget 0 t.returned 9 = 0 ∧ t.dvorys = s.dvorys ∧
        t.fld Reg.DVORYS.BAR0_BLOCKED_COUNT 0 = min (2 ^ 32 - 1) (s.fld Reg.DVORYS.BAR0_BLOCKED_COUNT 0 + 1)) ∧
      (∃ t, exec (.bar0Write off [(v, be)]) s = .next t ∧
        t.fld Reg.DVORYS.BAR0_BLOCKED_COUNT 0 = min (2 ^ 32 - 1) (s.fld Reg.DVORYS.BAR0_BLOCKED_COUNT 0 + 1) ∧
        t.mem = s.mem ∧ t.disp = s.disp ∧ t.modes = s.modes)) := by
  intro a cls sel o
  refine ⟨fun h => ?_, fun h => ?_⟩
  · have ho : s.bit Reg.DVORYS.BAR0_CTL_OPEN 0 = true := by rw [State.bit, h]; rfl
    have hw := exec_bar0Write_open hr ho off v be
    refine ⟨⟨_, exec_bar0Read_open hr ho off, State.tget_giveBack .., rfl⟩, fun hb => ?_, fun hb => ?_⟩
    · rw [hw, if_pos hb]
    · rw [hw, if_neg hb]
  · have ho : s.bit Reg.DVORYS.BAR0_CTL_OPEN 0 = false := by rw [State.bit, h]; rfl
    obtain ⟨hrd, hwr⟩ := exec_bar0_closed hr ho off 1 [(v, be)]
    refine ⟨⟨_, hrd, State.tget_giveBack .., rfl, ?_⟩, ⟨_, hwr, s.bar0Blocked_count, rfl, rfl, rfl⟩⟩
    exact (State.fld_congr (s := s.bar0Blocked) rfl _ _).trans s.bar0Blocked_count

/-! ## BAR2 (R380, R382) -/

/-- The bytes of a read's completions are the bytes read, as far as the completions go. -/
theorem epPackets_fst (a m : Nat) (l : List (Byte × Bool)) :
    (epPackets a m l).1.map Prod.fst = (l.take (64 * m - a % 64)).map Prod.fst := by
  induction m generalizing a l with
  | zero => simp [epPackets]
  | succ m ih =>
    unfold epPackets
    split
    next hl => simp [List.isEmpty_iff.mp hl]
    next =>
      have hk : 64 * (m + 1) - a % 64 = (64 - a % 64) + (64 * m - (a + (64 - a % 64)) % 64) := by omega
      dsimp only
      rw [List.map_append, ih, hk, List.take_add, List.map_append, List.map_map]
      rfl

theorem exec_bar2Read_refused {s : State} (hr : s.hostReach = true) (off : BitVec 36) (n : Nat)
    (h : (s.bar2Check false off.toNat n).1 = 1) :
    exec (.bar2Read off n) s = .next (((s.addFld Reg.PCIE.UR_SENT_COUNT 0 1).aer 20).setReply 1 []) := by
  show execBar2Read off n s = _
  unfold execBar2Read
  rw [if_neg (by simp [hr])]
  generalize s.bar2Check false off.toNat n = x at *
  obtain ⟨k, a⟩ := x
  dsimp only at h ⊢
  rw [h, if_pos (by decide), State.bar2Refuse, if_pos rfl]

theorem exec_bar2Read_served {s : State} (hr : s.hostReach = true) (off : BitVec 36) (n : Nat)
    (h : (s.bar2Check false off.toNat n).1 = 0) :
    let a := (s.bar2Check false off.toNat n).2
    ∃ t : State, exec (.bar2Read off n) s =
      .next (t.setReply 0 (epPackets a (n / 64 + 2) (s.unitGet 0x68 0 (58 + a / 2 ^ 12 % 2) 0 a n).2.1).1) := by
  show ∃ t : State, execBar2Read off n s = _
  unfold execBar2Read
  rw [if_neg (by simp [hr])]
  generalize s.bar2Check false off.toNat n = x at *
  obtain ⟨k, a⟩ := x
  dsimp only at h ⊢
  rw [if_neg (by simp [h])]
  exact ⟨_, rfl⟩

theorem exec_bar2Write {s : State} (hr : s.hostReach = true) (off : BitVec 36) (data : List Byte) (ep : Bool) :
    let x := s.bar2Check true off.toNat data.length
    (x.1 = 0 → ep = false → exec (.bar2Write off data ep) s = .next (s.busPut (58 + x.2 / 2 ^ 12 % 2) 0 x.2 (clean data)).2) ∧
    (x.1 = 2 → exec (.bar2Write off data ep) s = .next ((s.addFld Reg.PCIE.CA_SENT_COUNT 0 1).aer 15)) := by
  show let x := s.bar2Check true off.toNat data.length
    (x.1 = 0 → ep = false → execBar2Write off data ep s = _) ∧ (x.1 = 2 → execBar2Write off data ep s = _)
  unfold execBar2Write
  rw [if_neg (by simp [hr])]
  generalize s.bar2Check true off.toNat data.length = x
  obtain ⟨k, a⟩ := x
  dsimp only
  refine ⟨fun h hep => ?_, fun h => ?_⟩
  · subst hep
    rw [if_neg (by simp [h]), if_neg (by decide)]
    rfl
  · rw [if_pos (by rw [h]; decide), State.bar2Refuse, if_neg (by rw [h]; decide)]

theorem bar2_spec (off : BitVec 36) (n : Nat) (data : List Byte) (s : State) (hr : s.hostReach = true) :
    ((s.bar2Check false off.toNat n).1 = 1 → ∃ t, exec (.bar2Read off n) s = .next t ∧ t.pcie.reply = ⟨1, []⟩ ∧
      t.fld Reg.PCIE.UR_SENT_COUNT 0 = (s.fld Reg.PCIE.UR_SENT_COUNT 0 + 1) % 2 ^ 32 ∧ t.mem = s.mem) ∧
    ((s.bar2Check false off.toNat n).1 = 0 → ∃ (t : State) (l : List (Byte × Bool)), exec (.bar2Read off n) s = .next t ∧
      t.pcie.reply = ⟨0, l⟩ ∧
      let a := (s.bar2Check false off.toNat n).2
      l.map Prod.fst = ((s.unitGet 0x68 0 (58 + a / 2 ^ 12 % 2) 0 a n).2.1.take (64 * (n / 64 + 2) - a % 64)).map Prod.fst) ∧
    ((s.bar2Check true off.toNat data.length).1 = 0 →
      let a := (s.bar2Check true off.toNat data.length).2
      exec (.bar2Write off data false) s = .next (s.busPut (58 + a / 2 ^ 12 % 2) 0 a (clean data)).2) ∧
    ((s.bar2Check true off.toNat data.length).1 = 2 → ∀ ep, ∃ t, exec (.bar2Write off data ep) s = .next t ∧ t.mem = s.mem ∧
      t.fld Reg.PCIE.CA_SENT_COUNT 0 = (s.fld Reg.PCIE.CA_SENT_COUNT 0 + 1) % 2 ^ 32) := by
  refine ⟨fun h => ?_, fun h => ?_, fun h => (exec_bar2Write hr off data false).1 h rfl, fun h ep => ?_⟩
  · obtain ⟨hx, hf⟩ := (s.addFld Reg.PCIE.UR_SENT_COUNT 0 1).noted_aer 20
    refine ⟨_, exec_bar2Read_refused hr off n h, rfl, ?_, ?_⟩
    · rw [State.fld_congr (State.setReply_csr ..), hf _ _ (by decide) (by decide), State.fld_addFld_count _ _ _ rfl rfl]
    · rw [State.setReply_mem, (State.noted_aer _ 20).mem, State.addFld_mem]
  · obtain ⟨t, ht⟩ := exec_bar2Read_served hr off n h
    exact ⟨_, _, ht, rfl, epPackets_fst ..⟩
  · obtain ⟨hx, hf⟩ := (s.addFld Reg.PCIE.CA_SENT_COUNT 0 1).noted_aer 15
    refine ⟨_, (exec_bar2Write hr off data ep).2 h, ?_, ?_⟩
    · rw [(State.noted_aer _ 15).mem, State.addFld_mem]
    · rw [hf _ _ (by decide) (by decide), State.fld_addFld_count _ _ _ rfl rfl]

/-! ## Interrupts and the host's answers (R381-R383) -/

theorem msixSend_spec (k : Fin 2048) (s : State) :
    let go := (s.vec k).pending = true ∧ s.vecSendable k = true
    ∃ t, exec (.msixSend k) s = .next t ∧ (¬ go → t = s) ∧
      (go → (t.vec k).pending = false ∧ t.host = mwrites s.host (s.vec k).addr.toNat (leBytes 4 (s.vec k).data.toNat) ∧
        ∀ j : Fin 2048, j ≠ k → t.vec j = s.vec j) := by
  intro go
  show ∃ t, execMsixSend k s = .next t ∧ _
  unfold execMsixSend
  dsimp only
  by_cases h : go
  · rw [if_pos h]
    refine ⟨_, rfl, fun hn => absurd h hn, fun _ => ⟨?_, rfl, fun j hj => ?_⟩⟩
    · exact congrArg MsixVec.pending (s.vec_setVec_self k { s.vec k with pending := false })
    · exact s.vec_setVec_other _ fun e => hj (Fin.ext e)
  · rw [if_neg h]
    exact ⟨s, rfl, fun _ => rfl, fun hg => absurd hg h⟩

/-- A value set at every number of a list stands at each of them. -/
theorem tget_foldl_tset {α : Type} [DecidableEq α] (d x : α) (f : Nat → Nat) {l : List Nat} (t : Tab α) {k : Nat} (h : k ∈ l) :
    tget d (l.foldl (fun t w => tset d t (f w) x) t) (f k) = x := by
  suffices hs : ∀ t : Tab α, k ∈ l ∨ tget d t (f k) = x → tget d (l.foldl (fun t w => tset d t (f w) x) t) (f k) = x from hs t (.inl h)
  clear h t
  induction l with
  | nil => exact fun t h => h.resolve_left List.not_mem_nil
  | cons w l ih =>
    intro t h
    rw [List.foldl_cons]
    refine ih _ ?_
    by_cases hw : f k = f w
    · exact .inr (by rw [hw, tget_tset_self])
    · obtain h | h := h
      · obtain rfl | h := List.mem_cons.mp h
        · exact absurd rfl hw
        · exact .inl h
      · exact .inr (by rw [tget_tset_other _ _ _ _ hw, h])

/-- From now on the host answers so for the first byte. -/
theorem State.answers_setAnswers (s : State) (a n : Nat) (x : HostAnswer) :
    tget HostAnswer.data (s.setAnswers a n x).pcie.answers (a / 16) = x :=
  tget_foldl_tset HostAnswer.data x (a / 16 + ·) s.pcie.answers (List.mem_range.mpr (Nat.succ_pos _))

theorem hostAnswers_spec (fn : Fin 16) (a : BitVec 64) (data : List Byte) (ep : Bool) (kind : Fin 3) (s : State) :
    (s.hostRequest fn a.toNat = none → data ≠ [] → ∃ t, exec (.pcieReadCompletion fn a data ep) s = .next t ∧
      t.host = mwrites s.host a.toNat data ∧
      tget HostAnswer.data t.pcie.answers (a.toNat / 16) = (if ep then HostAnswer.poison else HostAnswer.data)) ∧
    (s.hostRequest fn a.toNat = none → ∃ t, exec (.cplTimeout fn a kind) s = .next t ∧ t.host = s.host ∧
      tget HostAnswer.data t.pcie.answers (a.toNat / 16) =
        (if kind = 0 then HostAnswer.silent else if kind = 1 then HostAnswer.ur else HostAnswer.ca)) ∧
    (∀ x, s.hostRequest fn a.toNat = some x →
      let u := { s with mortar := { s.mortar with hostWait := s.mortar.hostWait.erase x } }
      exec (.pcieReadCompletion fn a data false) s = .next (u.respond (x.dest / 4) x 0 (chunks 16 32 (data.map (fun b => (b, false))))) ∧
      ∃ t, exec (.cplTimeout fn a 0) s = .next t ∧ t.mortar = (u.respond (x.dest / 4) x 3 []).mortar ∧
        t.fld Reg.PCIE.CPL_TIMEOUT_COUNT 0 = (s.fld Reg.PCIE.CPL_TIMEOUT_COUNT 0 + 1) % 2 ^ 32) := by
  refine ⟨fun h hd => ?_, fun h => ?_, fun x h => ?_⟩
  · show ∃ t, execPcieReadCompletion fn a data ep s = .next t ∧ _
    unfold execPcieReadCompletion
    rw [h]
    dsimp only
    rw [if_neg (by simpa using hd)]
    exact ⟨_, rfl, rfl, State.answers_setAnswers ..⟩
  · show ∃ t, execCplTimeout fn a kind s = .next t ∧ _
    unfold execCplTimeout
    rw [h]
    exact ⟨_, rfl, rfl, State.answers_setAnswers ..⟩
  · intro u
    refine ⟨?_, ?_⟩
    · show execPcieReadCompletion fn a data false s = _
      unfold execPcieReadCompletion
      rw [h]
      rfl
    have e : exec (.cplTimeout fn a 0) s = .next (((u.respond (x.dest / 4) x 3 []).addFld Reg.PCIE.CPL_TIMEOUT_COUNT 0 1).aer 14) := by
      show execCplTimeout fn a 0 s = _
      unfold execCplTimeout
      rw [h]
      dsimp only
      rw [if_pos rfl]
      rfl
    obtain ⟨-, hf⟩ := ((u.respond (x.dest / 4) x 3 []).addFld Reg.PCIE.CPL_TIMEOUT_COUNT 0 1).noted_aer 14
    obtain ⟨-, hs⟩ := u.sent_respond (x.dest / 4) x 3 []
    refine ⟨_, e, ?_, ?_⟩
    · rw [(State.noted_aer _ 14).mortar, State.addFld_mortar]
    · rw [hf _ _ (by decide) (by decide), State.fld_addFld_count _ _ _ rfl rfl, hs _ _ (by decide)]
      rfl

theorem atsInvalidation_spec (page : BitVec 64) (n : Nat) (s : State) : ∃ t, exec (.atsInvalidation page n) s = .next t ∧ t.csr = s.csr ∧
    ∀ e, e ∈ t.pcie.atc ↔ e ∈ s.pcie.atc ∧ ¬ (e.1 < page.toNat + n ∧ page.toNat < e.1 + e.2.1) := by
  refine ⟨_, rfl, rfl, fun e => ?_⟩
  dsimp only
  rw [List.mem_filter, Bool.not_eq_true', ← Bool.not_eq_true, Bool.and_eq_true, decide_eq_true_iff, decide_eq_true_iff]

/-! ## The link (R374, R375) -/

theorem State.fld_with_pcie (s : State) (x : Pcie) (f : Field) (i : Nat) : State.fld { s with pcie := x } f i = s.fld f i := rfl

theorem pcieConfigWrite_spec (fn : Fin 16) (bme en : Bool) (tmo : BitVec 4) (ats : Bool) (s : State) (hr : s.hostReach = true) :
    ∃ t, exec (.pcieConfigWrite fn bme en tmo ats) s = .next t ∧ t.fld Reg.PCIE_FN.STATUS_BME fn = b2n bme ∧
      t.fld Reg.PCIE_FN.STATUS_MSIX_EN fn = b2n en ∧ tget (0, false) t.pcie.devCtl2 fn = (tmo.toNat, ats) := by
  have hb (b : Bool) : b2n b % 2 = b2n b := by cases b <;> rfl
  refine ⟨_, if_pos hr, ?_, ?_, tget_tset_self ..⟩
  · rw [State.fld_with_pcie,
      State.fld_setFld_beside _ Reg.PCIE_FN.STATUS_MSIX_EN Reg.PCIE_FN.STATUS_BME _ _ (by decide) (by decide) (by decide) rfl rfl (by decide),
      State.fld_setFld_self _ _ _ _ (by decide) (by decide)]
    exact hb bme
  · rw [State.fld_with_pcie,
      State.fld_setFld_self _ _ _ _ (by decide) (by decide)]
    exact hb en

/-- STATUS of the endpoint as a link that came up leaves it. -/
def State.linkStatus (s : State) (speed : BitVec 3) (width : BitVec 5) : State :=
  ((s.setFld Reg.PCIE.STATUS_LINK_UP 0 1).setFld Reg.PCIE.STATUS_SPEED 0 speed.toNat).setFld Reg.PCIE.STATUS_WIDTH 0 width.toNat

theorem State.linkStatus_fld (s : State) (speed : BitVec 3) (width : BitVec 5) :
    (s.linkStatus speed width).fld Reg.PCIE.STATUS_LINK_UP 0 = 1 ∧ (s.linkStatus speed width).fld Reg.PCIE.STATUS_SPEED 0 = speed.toNat ∧
    (s.linkStatus speed width).fld Reg.PCIE.STATUS_WIDTH 0 = width.toNat := by
  unfold State.linkStatus
  refine ⟨?_, ?_, ?_⟩
  · rw [State.fld_setFld_beside _ Reg.PCIE.STATUS_WIDTH Reg.PCIE.STATUS_LINK_UP _ _ (by decide) (by decide) (by decide) rfl rfl (by decide),
      State.fld_setFld_beside _ Reg.PCIE.STATUS_SPEED Reg.PCIE.STATUS_LINK_UP _ _ (by decide) (by decide) (by decide) rfl rfl (by decide),
      State.fld_setFld_self _ _ _ _ (by decide) (by decide)]
    rfl
  · rw [State.fld_setFld_beside _ Reg.PCIE.STATUS_WIDTH Reg.PCIE.STATUS_SPEED _ _ (by decide) (by decide) (by decide) rfl rfl (by decide),
      State.fld_setFld_self _ _ _ _ (by decide) (by decide)]
    exact Nat.mod_eq_of_lt speed.isLt
  · rw [State.fld_setFld_self _ _ _ _ (by decide) (by decide)]
    exact Nat.mod_eq_of_lt width.isLt

theorem pcieLinkUp_spec (speed : BitVec 3) (width : BitVec 5) (s : State) (ht : s.pcie.training = true) (hp : s.pcie.perstN = true)
    (hm : s.linkMode = true) : ∃ t, exec (.pcieLinkUp speed width) s = .next t ∧ t.fld Reg.PCIE.STATUS_LINK_UP 0 = 1 ∧
      t.fld Reg.PCIE.STATUS_SPEED 0 = speed.toNat ∧ t.fld Reg.PCIE.STATUS_WIDTH 0 = width.toNat ∧ t.pcie.training = false ∧
      (s.modes.mode = .raising → t.fld Reg.SYS.RAISE_STATUS_PCIE_UP 0 = 1) := by
  obtain ⟨hup, hspeed, hwidth⟩ := State.linkStatus_fld { s with pcie := { s.pcie with training := false } } speed width
  have e : exec (.pcieLinkUp speed width) s = .next ((if s.modes.mode = .raising then
      (State.linkStatus { s with pcie := { s.pcie with training := false } } speed width).setFld Reg.SYS.RAISE_STATUS_PCIE_UP 0 1 else
      State.linkStatus { s with pcie := { s.pcie with training := false } } speed width).post 0x68 0 0x002 0
        (speed.toNat + width.toNat * 2 ^ 4)) := by
    show execPcieLinkUp speed width s = _
    unfold execPcieLinkUp
    rw [if_pos ⟨ht, hp, hm⟩]
    rfl
  have hpc : (State.linkStatus { s with pcie := { s.pcie with training := false } } speed width).pcie.training = false := rfl
  generalize State.linkStatus { s with pcie := { s.pcie with training := false } } speed width = u at *
  rw [e]
  refine ⟨_, rfl, ?_⟩
  simp only [State.post_fld _ _ _ _ _ _ _ Reg.PCIE.STATUS_LINK_UP (by decide), State.post_fld _ _ _ _ _ _ _ Reg.PCIE.STATUS_SPEED (by decide),
    State.post_fld _ _ _ _ _ _ _ Reg.PCIE.STATUS_WIDTH (by decide), State.post_fld _ _ _ _ _ _ _ Reg.SYS.RAISE_STATUS_PCIE_UP (by decide),
    State.post_pcie]
  split
  · simp only [State.fld_setFld_other _ Reg.SYS.RAISE_STATUS_PCIE_UP Reg.PCIE.STATUS_LINK_UP 0 0 _ (by decide),
      State.fld_setFld_other _ Reg.SYS.RAISE_STATUS_PCIE_UP Reg.PCIE.STATUS_SPEED 0 0 _ (by decide),
      State.fld_setFld_other _ Reg.SYS.RAISE_STATUS_PCIE_UP Reg.PCIE.STATUS_WIDTH 0 0 _ (by decide), State.setFld_pcie]
    exact ⟨hup, hspeed, hwidth, hpc, fun _ => State.fld_setFld_self _ _ _ _ (by decide) (by decide)⟩
  next h => exact ⟨hup, hspeed, hwidth, hpc, fun h' => absurd h' h⟩

theorem pcieLinkDown_spec (s : State) (hl : s.fld Reg.PCIE.STATUS_LINK_UP 0 = 1) (hp : s.pcie.perstN = true) :
    ∃ t, exec .pcieLinkDown s = .next t ∧ t.fld Reg.PCIE.STATUS_LINK_UP 0 = 0 ∧ t.pcie.training = true ∧ t.mem = s.mem ∧
    t.fld Reg.PCIE.LINK_DOWNS_COUNT 0 = (s.fld Reg.PCIE.LINK_DOWNS_COUNT 0 + 1) % 2 ^ 32 := by
  have hb : s.bit Reg.PCIE.STATUS_LINK_UP 0 = true := by rw [State.bit, hl]; rfl
  refine ⟨_, if_pos ⟨hb, hp⟩, ?_⟩
  generalize hu : (s.setFld Reg.PCIE.STATUS_LINK_UP 0 0).addFld Reg.PCIE.LINK_DOWNS_COUNT 0 1 = u
  obtain ⟨⟨r, m, ev⟩, hv⟩ := u.sent_hostGone
  generalize u.hostGone = v at *
  have hn := ((State.Noted.refl { v with pcie := { v.pcie with training := true } }).post 0x68 0 0x001 3 0).reportFault 0x68 0
  have hf := hn.2
  refine ⟨?_, by rw [hn.pcie], ?_, ?_⟩
  · rw [hf _ _ (by decide) (by decide), State.fld_with_pcie, hv _ _ (by decide), ← hu, State.addFld,
      State.fld_setFld_other _ Reg.PCIE.LINK_DOWNS_COUNT Reg.PCIE.STATUS_LINK_UP _ _ _ (by decide),
      State.fld_setFld_self _ _ _ _ (by decide) (by decide)]
    rfl
  · rw [hn.mem, ev, ← hu]
    rfl
  · rw [hf _ _ (by decide) (by decide), State.fld_with_pcie, hv _ _ (by decide), ← hu, State.fld_addFld_count _ _ _ rfl rfl,
      State.fld_setFld_other _ Reg.PCIE.STATUS_LINK_UP Reg.PCIE.LINK_DOWNS_COUNT _ _ _ (by decide)]

/-! ## PERST_N (R375) -/

/-- A register without an entry reads as its reset value. -/
theorem State.reg_of_absent {s : State} {cls i o : Nat} (h : ∀ e ∈ s.csr, e.1 ≠ csrKey cls i o) : s.reg cls i o = resetWord cls i o := by
  rw [State.reg, tget, tfind_none_of_absent _ _ h]
  rfl

/-- A class reset keeps no entry of the instances it names, but for GRP_MEMBER. -/
theorem State.absent_resetClass (s : State) {cls i o : Nat} {l : List Nat} (hi : i ∈ l) (hlt : i < 1024) (ho : o < 1024)
    (hg : isGrpOff o = false) : ∀ e ∈ (s.resetClass cls l).csr, e.1 ≠ csrKey cls i o := by
  rintro ⟨k, w⟩ he rfl
  have hp := (List.mem_filter.mp he).2
  have hc : csrKey cls i o / 0x100000 = cls := by unfold csrKey; omega
  have hx : csrKey cls i o / 0x400 % 0x400 = i := by unfold csrKey; omega
  have hy : csrKey cls i o % 0x400 = o := by unfold csrKey; omega
  dsimp only at hp
  rw [hc, hx, hy, hg] at hp
  simp [hi] at hp

/-- A further class reset brings no entry back. -/
theorem State.absent_resetClass_of_absent {s : State} {k : Nat} (h : ∀ e ∈ s.csr, e.1 ≠ k) (cls : Nat) (l : List Nat) :
    ∀ e ∈ (s.resetClass cls l).csr, e.1 ≠ k :=
  fun e he => h e (List.mem_filter.mp he).1

/-- Every function reset and journalled. -/
def State.resetFns (s : State) (l : List Nat) : State := l.foldl (fun s fn => (s.resetFn fn).post 0x68 0 0x004 0 fn) s

theorem State.resetFn_modes (s : State) (fn : Nat) : (s.resetFn fn).modes = s.modes := by
  obtain ⟨x, e⟩ := s.resetFn_is fn
  rw [e, State.setFld_modes, State.setFld_modes]
  rfl

theorem State.resetFns_mem (s : State) (l : List Nat) : (s.resetFns l).mem = s.mem :=
  foldl_leaves State.mem l s fun s fn _ => by rw [State.post_mem, State.resetFn_mem]

theorem State.resetFns_modes (s : State) (l : List Nat) : (s.resetFns l).modes = s.modes :=
  foldl_leaves State.modes l s fun s fn _ => by rw [State.post_modes, State.resetFn_modes]

/-- The pages of functions reset are as after reset. -/
theorem State.page_resetFns (s : State) {l : List Nat} {fn : Nat} (h : fn ∈ l) : (s.resetFns l).page fn = RingPage.reset := by
  suffices hs : ∀ s : State, fn ∈ l ∨ s.page fn = RingPage.reset → (s.resetFns l).page fn = RingPage.reset from hs s (.inl h)
  clear h s
  unfold State.resetFns
  induction l with
  | nil => exact fun s h => h.resolve_left List.not_mem_nil
  | cons x l ih =>
    intro s h
    rw [List.foldl_cons]
    refine ih _ ?_
    rw [State.page_congr (State.post_dvorys ..)]
    by_cases hx : fn = x
    · exact .inr (by rw [hx, State.page_resetFn_self])
    · rw [State.page_resetFn_other _ hx]
      exact h.imp_left fun h => (List.mem_cons.mp h).resolve_left hx

/-- The endpoint as PERST_N leaves it: functions and registers reset, no link. -/
def State.perstReset (s : State) : State :=
  let s := if s.bit Reg.PCIE.STATUS_LINK_UP 0 then s.post 0x68 0 0x001 3 0 else s
  let s := s.resetFns (List.range 16)
  let s := (s.resetClass 0x68 [0]).resetClass 0x69 (List.range 16)
  { s with pcie := { s.pcie with perstN := false, training := false, alloc := [], atc := [] } }

theorem exec_perstNLow_of_high {s : State} (h : s.pcie.perstN = true) : exec .perstNLow s =
    .next (if s.perstReset.hostGone.linkMode then (s.perstReset.hostGone.setFld Reg.PWR.STATUS_STATE 61 0).post 0x03 61 0x001 0 61
      else s.perstReset.hostGone) := by
  show execPerstNLow s = _
  unfold execPerstNLow State.perstReset State.resetFns
  generalize List.range 16 = l
  rw [if_pos h]

theorem State.perstReset_spec (s : State) : s.perstReset.mem = s.mem ∧ s.perstReset.modes = s.modes ∧ s.perstReset.pcie.perstN = false ∧
    s.perstReset.fld Reg.PCIE.STATUS_LINK_UP 0 = 0 ∧
    ∀ fn : Fin 16, s.perstReset.page fn = RingPage.reset ∧ s.perstReset.fld Reg.PCIE_FN.STATUS_BME fn = 0 := by
  unfold State.perstReset
  extract_lets s₁ s₂ s₃ p
  have hmem : s₁.mem = s.mem := by
    simp only [s₁]
    rw [apply_ite State.mem, State.post_mem, ite_self]
  have hmodes : s₁.modes = s.modes := by
    simp only [s₁]
    rw [apply_ite State.modes, State.post_modes, ite_self]
  have hlink : s₃.fld Reg.PCIE.STATUS_LINK_UP 0 = 0 := by
    rw [State.fld, State.reg_of_absent (State.absent_resetClass_of_absent (s₂.absent_resetClass (cls := 0x68) (i := 0) (l := [0])
      (List.mem_singleton.mpr rfl) (by decide) (by decide) (by decide)) 0x69 (List.range 16))]
    decide +kernel
  have hpage : ∀ fn : Fin 16, s₂.page fn = RingPage.reset := fun fn => s₁.page_resetFns (List.mem_range.mpr fn.isLt)
  have hmem₂ : s₂.mem = s.mem := (s₁.resetFns_mem _).trans hmem
  have hmodes₂ : s₂.modes = s.modes := (s₁.resetFns_modes _).trans hmodes
  clear_value s₂
  refine ⟨hmem₂, hmodes₂, rfl, (State.fld_with_pcie ..).trans hlink, fun fn => ⟨hpage fn, (State.fld_with_pcie ..).trans ?_⟩⟩
  rw [State.fld, State.reg_of_absent (State.absent_resetClass _ (List.mem_range.mpr fn.isLt) (by omega) (by decide) (by decide))]
  have hr : ∀ fn : Fin 16, wordField (resetWord Reg.PCIE_FN.STATUS_BME.cls fn Reg.PCIE_FN.STATUS_BME.off) 0 0 = 0 := by decide +kernel
  exact hr fn

theorem perstNLow_spec (s : State) (hp : s.pcie.perstN = true) (hm : s.linkMode = true) :
    ∃ t, exec .perstNLow s = .next t ∧ t.pcie.perstN = false ∧
    t.fld Reg.PCIE.STATUS_LINK_UP 0 = 0 ∧ t.fld Reg.PWR.STATUS_STATE 61 = 0 ∧ t.mem = s.mem ∧
    ∀ fn : Fin 16, t.page fn = RingPage.reset ∧ t.fld Reg.PCIE_FN.STATUS_BME fn = 0 := by
  refine ⟨_, exec_perstNLow_of_high hp, ?_⟩
  obtain ⟨hmem, hmodes, hpn, hlink, hfn⟩ := s.perstReset_spec
  generalize s.perstReset = u at *
  obtain ⟨⟨r, m, ev⟩, hv⟩ := u.sent_hostGone
  generalize u.hostGone = v at *
  have hl : v.linkMode = true := by rw [← hm, State.linkMode, State.linkMode, ev, hmodes]
  have hd : v.dvorys = u.dvorys := by rw [ev]
  have other {f : Field} {i : Nat} (hc : f.cls ≠ 0x03) (ho : f.off < 0x3A4) (hi : i < 64) :
      ((v.setFld Reg.PWR.STATUS_STATE 61 0).post 0x03 61 0x001 0 61).fld f i = u.fld f i := by
    rw [State.post_fld _ _ _ _ _ _ _ _ ho, State.fld_setFld_other _ Reg.PWR.STATUS_STATE f _ _ _ fun e =>
      hc (csrKey_inj (by omega) (by omega) (by decide) (by decide) e).1, hv _ _ ho]
  rw [if_pos hl]
  refine ⟨?_, ?_, ?_, ?_, fun fn => ⟨?_, ?_⟩⟩
  · rw [State.post_pcie, State.setFld_pcie, ev]
    exact hpn
  · rw [other (by decide) (by decide) (by decide), hlink]
  · rw [State.post_fld _ _ _ _ _ _ _ _ (by decide), State.fld_setFld_self _ _ _ _ (by decide) (by decide), Nat.zero_mod]
  · rw [State.post_mem, State.setFld_mem, ev]
    exact hmem
  · rw [State.page_congr (s := v) (by rw [State.post_dvorys, State.setFld_dvorys]), State.page_congr hd]
    exact (hfn fn).1
  · rw [other (by decide) (by decide) (by omega)]
    exact (hfn fn).2

theorem perstNHigh_spec (s : State) (hp : s.pcie.perstN = false) (hm : s.linkMode = true) : ∃ t, exec .perstNHigh s = .next t ∧
    t.pcie.perstN = true ∧ t.pcie.training = true ∧ t.fld Reg.PWR.STATUS_STATE 61 = 3 := by
  have e : exec .perstNHigh s = .next (((State.setFld { s with pcie := { s.pcie with perstN := true, training := true } }
      Reg.PWR.STATUS_STATE 61 3).addFld Reg.PWR.STATUS_CYCLES 61 1).post 0x03 61 0x002 0 61) := by
    show execPerstNHigh s = _
    unfold execPerstNHigh
    rw [if_neg (by simp [hp]), hm]
    exact congrArg Host.Outcome.next (if_pos hm)
  refine ⟨_, e, ?_, ?_, ?_⟩
  · rw [State.post_pcie]
    rfl
  · rw [State.post_pcie]
    rfl
  · rw [State.post_fld _ _ _ _ _ _ _ _ (by decide), State.addFld,
      State.fld_setFld_beside _ Reg.PWR.STATUS_CYCLES Reg.PWR.STATUS_STATE _ _ (by decide) (by decide) (by decide) rfl rfl (by decide),
      State.fld_setFld_self _ _ _ _ (by decide) (by decide)]
    rfl

/-- Settles O57: each act of the host by the lemma that says what it leaves. -/
theorem theHostActs : Obligations.TheHostActs :=
  ⟨doorbells_spec, bar4_spec, ringDisable_spec, quiesced_spec, flr_spec, irqCoalTimer_spec, bar0_spec, bar2_spec, msixSend_spec,
    hostAnswers_spec, atsInvalidation_spec, pcieConfigWrite_spec, pcieLinkUp_spec, pcieLinkDown_spec, perstNLow_spec, perstNHigh_spec⟩

end Sys2Proof.Machine

namespace Sys2Proof.Machine

/-! Modes, bring-up and the registers that act (O49, O58). Many short proofs follow one another here: elaborated side by side they hold as
many thread stacks at once, so each is finished before the next. -/

set_option Elab.async false

/-! ## Registers that stand (R54, R60, R61, R413) -/

/-- The places of MODE_RESULT, RAISE_STATUS and BOOT_STATUS and of the clock registers: what the modes and bring-up show. -/
def bringUpKey (k : Nat) : Prop := (0x008 ≤ k ∧ k ≤ 0x010) ∨ (0x200000 ≤ k ∧ k < 0x300000)

/-- The places that no act of a lane or of a MAC link writes: those of bring-up, the power domains' and the quads'. -/
def stillKey (k : Nat) : Prop := bringUpKey k ∨ (0x300000 ≤ k ∧ k < 0x400000) ∨ (0x5000000 ≤ k ∧ k < 0x5100000)

/-- Lanes, Ahnent, MACs, pins: every class from LANE on. -/
theorem not_stillKey_of_lane_le {c : Nat} (h : 0x51 ≤ c) (i o : Nat) : ¬ stillKey (csrKey c i o) := by
  unfold stillKey bringUpKey csrKey
  omega

/-- SYS beside bring-up: Mending and the fault manager. -/
theorem not_stillKey_of_sys {o : Nat} (h : 0x014 ≤ o) (h' : o < 0x400) : ¬ stillKey (csrKey 0 0 o) := by
  unfold stillKey bringUpKey csrKey
  omega

/-- Stream channels. -/
theorem not_stillKey_of_strm {c i o : Nat} (hc : c = 0x08 ∨ c = 0x09) (hi : i < 512) (ho : o < 0x400) : ¬ stillKey (csrKey c i o) := by
  unfold stillKey bringUpKey csrKey
  omega

/-- Every class from PWR on. -/
theorem not_bringUpKey_of_pwr_le {c : Nat} (h : 3 ≤ c) (i o : Nat) : ¬ bringUpKey (csrKey c i o) := by
  unfold bringUpKey csrKey
  omega

/-- The journal. -/
theorem not_bringUpKey_of_journal {o : Nat} (h : o < 0x400) : ¬ bringUpKey (csrKey 1 0 o) := by
  unfold bringUpKey csrKey
  omega

/-- The modes, and the registers at the places `K` below the counter banks, are as in `s₀`. -/
structure Stands (K : Nat → Prop) (s₀ s : State) : Prop where
  modes : s.modes = s₀.modes
  reg : ∀ c i o, o < 0x3A4 → K (csrKey c i o) → s.reg c i o = s₀.reg c i o

namespace Stands

variable {K : Nat → Prop} {s₀ s t : State}

theorem refl : Stands K s s := ⟨rfl, fun _ _ _ _ _ => rfl⟩

theorem trans (hs : Stands K s₀ s) (ht : Stands K s t) : Stands K s₀ t :=
  ⟨ht.modes.trans hs.modes, fun c i o ho hk => (ht.reg c i o ho hk).trans (hs.reg c i o ho hk)⟩

/-- What an act leaves at more places it leaves at fewer. -/
theorem narrow (hs : Stands bringUpKey s₀ s) (ht : Stands stillKey s t) : Stands bringUpKey s₀ t :=
  hs.trans ⟨ht.modes, fun c i o ho hk => ht.reg c i o ho (.inl hk)⟩

theorem fld (hs : Stands K s₀ s) {f : Field} {i : Nat} (ho : f.off < 0x3A4) (hk : K (csrKey f.cls i f.off)) :
    s.fld f i = s₀.fld f i := by
  rw [State.fld, State.fld, hs.reg _ _ _ ho hk]

/-- An update of fields beside modes and registers. It names every field of the state, so that it applies to a structure update as
the model writes it. -/
theorem update (hs : Stands K s₀ s) {xpending : List Instr} {xhold xreturned : Tab Word} {xmem xchk xhost : List Host.Cell}
    {xdevclk : BitVec 64} {xfences : List Fence} {xjournal : Journal} {xdvorys : Dvorys} {xdisp : Disp} {xledger : Ledger}
    {xmortar : Mortar} {xmemSys : MemSys} {xpcie : Pcie} {xfaults : Faults} {xobserve : Observe} {xpower : Power} {xfree : Nat}
    {xtime : Time} {xstreams : Streams} {xlanes : Lanes} {xsett : Sett} {xengines : Engines} {xwitness : Witness} {xdma : Dma}
    {xeth : Eth} :
    Stands K s₀ ⟨xpending, s.csr, xhold, xreturned, xmem, xchk, xhost, xdevclk, s.modes, xfences, xjournal, xdvorys, xdisp, xledger,
      xmortar, xmemSys, xpcie, xfaults, xobserve, xpower, xfree, xtime, xstreams, xlanes, xsett, xengines, xwitness, xdma, xeth⟩ :=
  ⟨hs.modes, hs.reg⟩

theorem ite {c : Prop} [Decidable c] (hs : Stands K s₀ s) (ht : Stands K s₀ t) : Stands K s₀ (if c then s else t) := by
  split <;> assumption

theorem foldl {α : Type} {f : State → α → State} {l : List α} (hs : Stands K s₀ s)
    (hf : ∀ s x, Stands K s₀ s → Stands K s₀ (f s x)) : Stands K s₀ (l.foldl f s) := by
  induction l generalizing s with
  | nil => exact hs
  | cons x r ih => exact ih (hf s x hs)

theorem foldl_snd {α β : Type} {f : β × State → α → β × State} {l : List α} {a : β × State} (ha : Stands K s₀ a.2)
    (hf : ∀ b x, Stands K s₀ b.2 → Stands K s₀ (f b x).2) : Stands K s₀ (l.foldl f a).2 := by
  induction l generalizing a with
  | nil => exact ha
  | cons x r ih => exact ih (hf a x ha)

theorem setReg {cls inst off : Nat} {w : Word} (hs : Stands K s₀ s) (h : ¬ K (csrKey cls inst off)) :
    Stands K s₀ (s.setReg cls inst off w) :=
  hs.trans ⟨rfl, fun _ _ _ _ hk => State.reg_setReg_other _ _ fun e => h (e ▸ hk)⟩

theorem countEvent {cls inst ev n : Nat} (hs : Stands K s₀ s) : Stands K s₀ (s.countEvent cls inst ev n) :=
  hs.trans ⟨State.countEvent_modes .., fun _ _ _ ho _ => State.countEvent_reg _ _ _ _ _ _ _ _ ho⟩

theorem countLost {cls inst : Nat} (hs : Stands K s₀ s) : Stands K s₀ (s.countLost cls inst) := countEvent (update hs)

theorem post {cls inst event sev detail : Nat} (hs : Stands K s₀ s) : Stands K s₀ (s.post cls inst event sev detail) :=
  ite (ite (ite (update hs) (update hs)) (countLost hs)) (ite (countEvent (update hs)) (countLost hs))

/-! ### Lanes, links and pins -/

/-- A field of a class from LANE on. -/
theorem setFar {f : Field} {i v : Nat} (hs : Stands stillKey s₀ s) (h : 0x51 ≤ f.cls := by exact Nat.le_of_ble_eq_true rfl) :
    Stands stillKey s₀ (s.setFld f i v) :=
  setReg hs (not_stillKey_of_lane_le h _ _)

/-- A field of SYS beside bring-up. -/
theorem setSys {f : Field} {v : Nat} (hs : Stands K s₀ s) (hK : ∀ k, K k → stillKey k) (hc : f.cls = 0 := by rfl)
    (h : 0x014 ≤ f.off := by exact Nat.le_of_ble_eq_true rfl) (h' : f.off < 0x400 := by exact Nat.le_of_ble_eq_true rfl) :
    Stands K s₀ (s.setFld f 0 v) :=
  setReg hs fun hk => by
    rw [hc] at hk
    exact not_stillKey_of_sys h h' (hK _ hk)

theorem syncRecoveries (hs : Stands K s₀ s) (hK : ∀ k, K k → stillKey k) : Stands K s₀ s.syncRecoveries :=
  update (setSys (f := Reg.SYS.FAULT_STATUS_IN_PROGRESS) (setSys (f := Reg.SYS.FAULT_STATUS_RECOVERING) hs hK) hK)

theorem recovered {r : Recovery} (hs : Stands K s₀ s) (hK : ∀ k, K k → stillKey k) : Stands K s₀ (s.recovered r) := by
  unfold State.recovered
  extract_lets _ _ s1 s2
  have h1 : Stands K s₀ s1 := update hs
  have h2 : Stands K s₀ s2 := setSys (f := Reg.SYS.FAULT_MAX_MAX) (setSys (f := Reg.SYS.FAULT_DURATION_DURATION) h1 hK) hK
  exact syncRecoveries (ite (post h2) (post (setSys (f := Reg.SYS.FAULT_STATUS_OVER_BOUND) h2 hK))) hK

theorem endRecovery {code cls inst : Nat} (hs : Stands stillKey s₀ s) : Stands stillKey s₀ (s.endRecovery code cls inst) := by
  unfold State.endRecovery
  split
  · exact recovered hs fun _ => id
  · exact hs

theorem setAhn {l : Nat} {x : AhnLane} (hs : Stands stillKey s₀ s) : Stands stillKey s₀ (s.setAhn l x) :=
  setFar (setFar (update hs))

theorem setTxState {l n : Nat} (hs : Stands stillKey s₀ s) : Stands stillKey s₀ (s.setTxState l n) :=
  setAhn (setFar (setFar (ite (update hs) hs)))

theorem setRxState {l n : Nat} (hs : Stands stillKey s₀ s) : Stands stillKey s₀ (s.setRxState l n) := setAhn (setFar hs)

theorem setStrm {c : Nat} {x : Strm} (hs : Stands stillKey s₀ s) : Stands stillKey s₀ (s.setStrm c x) := update hs

theorem strmUnit_cls (c : Nat) : (strmUnit c).1 = 0x08 ∨ (strmUnit c).1 = 0x09 := by
  unfold strmUnit
  split
  · exact .inl rfl
  · exact .inr rfl

theorem setS {c : Nat} {f : Field} {v : Nat} (hs : Stands stillKey s₀ s) (h : f.off < 0x400) :
    Stands stillKey s₀ (s.setS c f v) :=
  setReg hs (not_stillKey_of_strm (strmUnit_cls c) (Nat.mod_lt _ (by decide)) h)

theorem inputGap {c sym : Nat} (hs : Stands stillKey s₀ s) : Stands stillKey s₀ (s.inputGap c sym) :=
  ite hs (setS (post (setS hs (by decide))) (by decide))

theorem deliver {l st : Nat} {xs : List (Option Sample)} (hs : Stands stillKey s₀ s) : Stands stillKey s₀ (s.deliver l st xs) :=
  foldl hs fun _ _ hs => ite (setStrm hs) (ite (inputGap (setStrm hs)) (ite (setStrm hs) (setS (setStrm hs) (by decide))))

theorem cutStreams {l : Nat} (hs : Stands stillKey s₀ s) : Stands stillKey s₀ (s.cutStreams l) := by
  unfold State.cutStreams
  split
  · exact foldl hs fun _ _ hs => deliver hs
  · exact hs

theorem protectSwitch {l : Nat} (hs : Stands stillKey s₀ s) : Stands stillKey s₀ (s.protectSwitch l) := by
  unfold State.protectSwitch
  refine endRecovery ?_
  split
  · exact ite (post (setFar hs)) hs
  · exact hs

theorem rxDown {l : Nat} (hs : Stands stillKey s₀ s) : Stands stillKey s₀ (s.rxDown l) :=
  ite (protectSwitch (setRxState (cutStreams hs))) (ite hs (setRxState hs))

theorem laneUpdate {l : Nat} (hs : Stands stillKey s₀ s) : Stands stillKey s₀ (s.laneUpdate l) := by
  unfold State.laneUpdate
  extract_lets _ _ _ s1
  have h1 : Stands stillKey s₀ s1 := ite (ite hs (setTxState hs)) (ite (setTxState hs) hs)
  exact ite (ite (rxDown h1) (ite (setRxState h1) h1)) (setFar (setFar (setFar hs)))

theorem macProtectSwitch {h : Nat} {b : Bool} (hs : Stands stillKey s₀ s) : Stands stillKey s₀ (s.macProtectSwitch h b) :=
  ite hs (post (setFar hs))

theorem macDown {m : Nat} (hs : Stands stillKey s₀ s) : Stands stillKey s₀ (s.macDown m) :=
  ite (foldl (post (setFar hs)) fun _ _ hs => ite (ite (macProtectSwitch hs) hs) hs) hs

theorem macsCheck (hs : Stands stillKey s₀ s) : Stands stillKey s₀ s.macsCheck := foldl hs fun _ _ hs => ite (macDown hs) hs

theorem quietPins (hs : Stands stillKey s₀ s) : Stands stillKey s₀ s.quietPins :=
  foldl hs fun _ _ hs => setFar (setFar (setFar (setFar hs)))

/-! ### Faults and memory -/

/-- A field of a class from PWR on. -/
theorem setFld {f : Field} {i v : Nat} (hs : Stands bringUpKey s₀ s) (h : 3 ≤ f.cls := by exact Nat.le_of_ble_eq_true rfl) :
    Stands bringUpKey s₀ (s.setFld f i v) :=
  setReg hs (not_bringUpKey_of_pwr_le h _ _)

theorem setLevel {n : Nat} (hs : Stands bringUpKey s₀ s) : Stands bringUpKey s₀ (s.setLevel n) := ite hs (post (setFld hs))

theorem reportFault {code cls inst : Nat} {alsoDouble : Bool} (hs : Stands bringUpKey s₀ s) (h : code < 14) :
    Stands bringUpKey s₀ (s.reportFault code cls inst alsoDouble) := by
  have hK : ∀ k, bringUpKey k → stillKey k := fun _ => .inl
  unfold State.reportFault
  extract_lets _ s1 s2 s3 s4 s5 s6 s7 _ _ s8
  have count {s : State} (hs : Stands bringUpKey s₀ s) (k v : Nat) (hk : k < 14) :
      Stands bringUpKey s₀ (s.setFld (Reg.SYS.FAULT_COUNT_COUNT k) 0 v) :=
    setSys hs hK rfl (by simp; omega) (by simp; omega)
  have h1 : Stands bringUpKey s₀ s1 := count hs _ _ h
  have h2 : Stands bringUpKey s₀ s2 := ite (count h1 _ _ (by decide)) h1
  have h3 : Stands bringUpKey s₀ s3 := setSys (f := Reg.SYS.FAULT_LAST_SELECTOR)
    (setSys (f := Reg.SYS.FAULT_LAST_CLASS) (setSys (f := Reg.SYS.FAULT_LAST_CODE) h2 hK) hK) hK
  have h4 : Stands bringUpKey s₀ s4 :=
    setSys (f := Reg.SYS.FAULT_DETECT_HI_DETECT) (setSys (f := Reg.SYS.FAULT_DETECT_LO_DETECT) h3 hK) hK
  have h6 : Stands bringUpKey s₀ s6 := ite (post (post h4)) (post h4)
  have h7 : Stands bringUpKey s₀ s7 := setLevel h6
  have h8 : Stands bringUpKey s₀ s8 := syncRecoveries (update h7) hK
  exact ite h6 (ite (recovered h8 hK) h8)

theorem storeWord {k : Nat} {bytes : List Byte} {poison : Bool} (hs : Stands K s₀ s) : Stands K s₀ (s.storeWord k bytes poison) :=
  update hs

theorem retirePage_some {c page n : Nat} (e : s.retirePage c page = some (n, t)) (hs : Stands bringUpKey s₀ s) :
    Stands bringUpKey s₀ t := by
  unfold State.retirePage at e
  generalize List.range 256 = words at e
  dsimp only at e
  split at e
  · cases e
  · cases e
    exact post (setFld (update (foldl hs fun _ _ hs => storeWord hs)))

theorem syncSpall (hs : Stands bringUpKey s₀ s) : Stands bringUpKey s₀ s.syncSpall := setFld (setFld hs)

theorem setSpall {n : Nat} {e : Spall} (hs : Stands bringUpKey s₀ s) : Stands bringUpKey s₀ (s.setSpall n e) := update hs

theorem autoRetire {e : Spall} (hs : Stands bringUpKey s₀ s) : Stands bringUpKey s₀ (s.autoRetire e) := by
  unfold State.autoRetire
  split
  · cases e1 : s.retirePage (e.memory - 4) (e.addr / 4096) with
    | none => exact hs
    | some p => exact syncSpall (foldl (retirePage_some e1 hs) fun _ _ hs => ite (setSpall hs) hs)
  · exact hs

theorem spallHarden {n : Nat} (hs : Stands bringUpKey s₀ s) : Stands bringUpKey s₀ (s.spallHarden n) :=
  ite (autoRetire (post (setSpall hs))) hs

theorem spallNote {k col : Nat} (hs : Stands bringUpKey s₀ s) : Stands bringUpKey s₀ (s.spallNote k col) := by
  have entry (n : Nat) (e : Spall) : Stands bringUpKey s₀ ((s.setSpall n e).spallHarden n).syncSpall :=
    syncSpall (spallHarden (setSpall hs))
  unfold State.spallNote
  split
  extract_lets
  split
  · exact ite (entry ..) (ite (entry ..) (setSpall hs))
  · split
    · exact entry ..
    · split
      · exact entry ..
      · exact setFld hs

/-- The controller of every memory is of a class from COURSE on. -/
theorem memUnitOf_cls (k : Nat) : 0x10 ≤ (memUnitOf k).cls := by
  unfold memUnitOf
  repeat' split
  all_goals exact Nat.le_of_ble_eq_true rfl

theorem setMemReg {k off : Nat} {w : Word} (hs : Stands bringUpKey s₀ s) :
    Stands bringUpKey s₀ (s.setReg (memUnitOf k).cls (memUnitOf k).inst off w) :=
  setReg hs (not_bringUpKey_of_pwr_le (le_trans (by decide) (memUnitOf_cls k)) _ _)

theorem eraseCheck {k col : Nat} (hs : Stands bringUpKey s₀ s) : Stands bringUpKey s₀ (s.eraseCheck (memUnitOf k) col) :=
  ite (ite (post (setMemReg hs)) (post (setMemReg hs))) hs

theorem noteDecode {k : Nat} {o : Decoded} (hs : Stands bringUpKey s₀ s) : Stands bringUpKey s₀ (s.noteDecode k o) := by
  unfold State.noteDecode
  split
  · exact reportFault (ite (eraseCheck (setMemReg (setMemReg hs))) (spallNote (eraseCheck (setMemReg (setMemReg hs))))) (by decide)
  · exact reportFault (ite (post (countEvent (setMemReg hs))) (post (countEvent (setMemReg hs)))) (by decide)
  · exact hs

theorem mergeWord {k o : Nat} {bytes : List Byte} {poison : Bool} (hs : Stands bringUpKey s₀ s) :
    Stands bringUpKey s₀ (s.mergeWord k o bytes poison) := by
  unfold State.mergeWord
  extract_lets _ s1
  have h1 : Stands bringUpKey s₀ s1 := ite (update hs) hs
  exact ite (storeWord h1) (storeWord h1)

theorem readMem {a n : Nat} (hs : Stands bringUpKey s₀ s) : Stands bringUpKey s₀ (s.readMem a n).2 :=
  foldl_snd hs fun _ _ hs => noteDecode hs

theorem writeMem {a : Nat} {bytes : List (Byte × Bool)} (hs : Stands bringUpKey s₀ s) : Stands bringUpKey s₀ (s.writeMem a bytes) :=
  foldl hs fun _ _ hs => mergeWord hs

theorem hostWrite {a : Nat} {bytes : List (Byte × Bool)} (hs : Stands bringUpKey s₀ s) : Stands bringUpKey s₀ (s.hostWrite a bytes) :=
  update (ite (reportFault (post (setFld hs)) (by decide)) hs)

theorem atsFill {a : Nat} (hs : Stands bringUpKey s₀ s) : Stands bringUpKey s₀ (s.atsFill a) := by
  unfold State.atsFill
  exact ite (update hs) hs

theorem busWrite {ni port a : Nat} {bytes : List (Byte × Bool)} (hs : Stands bringUpKey s₀ s) :
    Stands bringUpKey s₀ (s.busWrite ni port a bytes).2 := by
  unfold State.busWrite
  split
  · split
    · exact hostWrite (atsFill hs)
    · exact writeMem hs
  · exact hs

/-! ### Rings and the journal -/

theorem raise {fn v : Nat} (hs : Stands K s₀ s) : Stands K s₀ (s.raise fn v) := ite hs (update hs)

theorem answer {fn flags : Nat} {st : Status} {tag : Word} {seq : BitVec 16} {head : BitVec 12} {detail : Nat}
    {results : List Word} {intr : Bool} (hs : Stands K s₀ s) :
    Stands K s₀ (s.answer fn flags st tag seq head detail results intr) := by
  have slot {w0 : Nat} {rest : List Word} : Stands K s₀ (s.cqSlot fn w0 rest) :=
    update (ite (foldl hs fun _ _ hs => storeWord hs) (ite (update hs) hs))
  exact ite (raise (update slot)) (update slot)

theorem notify {fn : Nat} {entry : List Word} (hs : Stands K s₀ s) : Stands K s₀ (s.notify fn entry) :=
  ite (update (answer hs)) (update hs)

theorem endOp {o : LrOp} {st : Status} {detail : Nat} {results : List Word} (hs : Stands K s₀ s) :
    Stands K s₀ (s.endOp o st detail results) :=
  ite (update hs) (answer (update hs))

theorem tracePush {type : Nat} {payload : List Nat} (hs : Stands bringUpKey s₀ s) : Stands bringUpKey s₀ (s.tracePush type payload) := by
  have lost {t : State} (ht : Stands bringUpKey s₀ t) : Stands bringUpKey s₀ t.traceLost := ite (update ht) ht
  exact setFld (ite (update hs) (lost (setFld (update hs))))

/-- A field of the journal. -/
theorem setJournal {f : Field} {v : Nat} (hs : Stands bringUpKey s₀ s) (hc : f.cls = 1 := by rfl)
    (h : f.off < 0x400 := by exact Nat.le_of_ble_eq_true rfl) : Stands bringUpKey s₀ (s.setFld f 0 v) :=
  setReg hs (by rw [hc]; exact not_bringUpKey_of_journal h)

theorem journalWrite {e : JEvent} {stamp : BitVec 64} (hs : Stands bringUpKey s₀ s) : Stands bringUpKey s₀ (s.journalWrite e stamp) := by
  unfold State.journalWrite
  extract_lets _ _ _ _ _ s1 s2 s3 _ s4 s5 s6
  have h1 : Stands bringUpKey s₀ s1 := busWrite hs
  have h2 : Stands bringUpKey s₀ s2 := setJournal (f := Reg.JOURNAL.RD_INDEX_RD_INDEX) h1
  have h3 : Stands bringUpKey s₀ s3 :=
    ite (setJournal (f := Reg.JOURNAL.STATUS_OVERRUN_COUNT) (setJournal (f := Reg.JOURNAL.STATUS_OVERRUN) h2)) h1
  have h4 : Stands bringUpKey s₀ s4 := setJournal (f := Reg.JOURNAL.STATUS_LAP) (setJournal (f := Reg.JOURNAL.WR_INDEX_WR_INDEX) h3)
  have h5 : Stands bringUpKey s₀ s5 := ite (raise h4) h4
  have h6 : Stands bringUpKey s₀ s6 := foldl h5 fun _ _ hs => ite (notify hs) hs
  exact ite (tracePush h6) h6

/-! ### Slots of the dispatcher -/

theorem setSlot {u : Nat} {l : List Nat} (hs : Stands bringUpKey s₀ s) : Stands bringUpKey s₀ (s.setSlot u l) :=
  ite (setFld (setFld (update hs))) (update hs)

theorem unpark {d : Nat} (hs : Stands bringUpKey s₀ s) : Stands bringUpKey s₀ (s.unpark d) :=
  ite (ite (post (setFld hs)) (setFld hs)) hs

theorem devMove {i : Int} (hs : Stands bringUpKey s₀ s) : Stands bringUpKey s₀ (s.devMove i) :=
  ite (ite (post (update hs)) (update hs)) hs

theorem trueUp {a est accr : Nat} (hs : Stands bringUpKey s₀ s) : Stands bringUpKey s₀ (s.trueUp a est accr) := by
  unfold State.trueUp
  extract_lets _ _ s1
  have h1 : Stands bringUpKey s₀ s1 := devMove (update hs)
  exact ite (ite h1 (foldl (update h1) fun _ _ hs => unpark hs)) h1

theorem creditChange {a : Nat} {all : Bool} (hs : Stands bringUpKey s₀ s) : Stands bringUpKey s₀ (s.creditChange a all) := by
  unfold State.creditChange
  refine foldl hs fun _ _ hs => ite ?_ hs
  split
  · exact ite (setFld hs) hs
  · exact setFld hs

theorem syncQueue {q : Nat} (hs : Stands bringUpKey s₀ s) : Stands bringUpKey s₀ (s.syncQueue q) := by
  unfold State.syncQueue
  extract_lets _ _ s1 s2 s3
  have h2 : Stands bringUpKey s₀ s2 := setFld (setFld (setFld (setFld hs)))
  have h3 : Stands bringUpKey s₀ s3 := ite (setFld h2) h2
  exact setFld (setFld h3)

theorem reclaim {u i : Nat} (hs : Stands bringUpKey s₀ s) : Stands bringUpKey s₀ (s.reclaim u i) := by
  unfold State.reclaim
  split
  · exact setSlot hs
  · extract_lets s1 s2 _ s3 s4
    have h1 : Stands bringUpKey s₀ s1 := setSlot hs
    have h2 : Stands bringUpKey s₀ s2 := ite (setFld h1) h1
    have h3 : Stands bringUpKey s₀ s3 := ite (trueUp h2) h2
    have h4 : Stands bringUpKey s₀ s4 := ite (creditChange h3) h3
    exact syncQueue (update h4)

/-! ### Banked and its end (R65, R66) -/

theorem wakeUp (hs : Stands bringUpKey s₀ s) : Stands bringUpKey s₀ s.wakeUp :=
  foldl (foldl (update (foldl hs fun _ _ hs => ite (setFld hs) hs)) fun _ _ hs => update hs)
    fun _ _ hs => hs.narrow (laneUpdate .refl)

theorem writeAon (hs : Stands bringUpKey s₀ s) : Stands bringUpKey s₀ s.writeAon := by
  unfold State.writeAon
  extract_lets _ _ _ s1 s2
  have h1 : Stands bringUpKey s₀ s1 := update hs
  have h2 : Stands bringUpKey s₀ s2 := ite (foldl h1 fun _ _ hs => journalWrite hs) (foldl h1 fun _ _ hs => countLost hs)
  exact update h2

end Stands

/-! ## Fields of one unit -/

/-- Two fields of one unit of a class each lie in a word of the window and share no bit. -/
def Field.apart (f g : Field) : Bool :=
  decide (f.lsb ≤ f.msb ∧ f.msb < 32 ∧ g.lsb ≤ g.msb ∧ f.off < 0x400 ∧ g.off < 0x400) &&
    (f.cls != g.cls || f.off != g.off || decide (g.msb < f.lsb ∨ f.msb < g.lsb))

/-- A field of the same unit that shares no bit with the one written. -/
theorem State.fld_setFld_apart {f g : Field} (h : f.apart g = true) (s : State) (i v : Nat) : (s.setFld f i v).fld g i = s.fld g i := by
  simp only [Field.apart, Bool.and_eq_true, Bool.or_eq_true, bne_iff_ne, decide_eq_true_eq] at h
  obtain ⟨⟨hfl, hfm, hgl, hfo, hgo⟩, h⟩ := h
  by_cases hk : g.cls = f.cls ∧ g.off = f.off
  · exact State.fld_setFld_beside _ _ _ _ _ hfl hfm hgl hk.1 hk.2 (h.resolve_left fun h => h.elim (· hk.1.symm) (· hk.2.symm))
  · refine State.fld_setFld_other _ _ _ _ _ _ fun e => hk ?_
    unfold csrKey at e
    omega

/-- Fields of two units of a class. -/
theorem State.fld_setFld_instance {f g : Field} {i j : Nat} (s : State) (v : Nat) (h : j ≠ i) (hi : i < 1024) (hj : j < 1024)
    (hf : f.off < 0x400) (hg : g.off < 0x400) : (s.setFld f i v).fld g j = s.fld g j :=
  State.fld_setFld_other _ _ _ _ _ _ fun e => h (csrKey_inj hj hg hi hf e).2.1

/-! ## A write that reaches one unit (R17, R20) -/

theorem State.csrWrite_of_hits {s : State} {req : Fin 14} {cls sel off i : Nat} (h : Claims.Hits s req cls sel off i)
    (hs : singleOnly cls off = false) (v : Word) : s.csrWrite req cls sel off v = s.writeOne req cls i off v := by
  obtain ⟨hh, hm, ht⟩ := h
  rw [State.csrWrite_eq_foldl (by simp [hs]) hh hm, ht]
  rfl

/-- Every class has at most 512 units (R14). -/
theorem lt_of_mem_instances {cls i : Nat} (h : i ∈ instances cls) : i < 512 := by
  have hall : classTable.all (fun c => decide (c.count ≤ 512)) = true := by decide
  unfold instances at h
  split at h
  next c hc =>
    have := List.all_eq_true.mp hall c (List.mem_of_find?_eq_some hc)
    exact lt_of_lt_of_le (List.mem_range.mp h) (of_decide_eq_true this)
  · cases h

theorem State.lt_of_mem_writeTargets {s : State} {cls sel off i : Nat} (h : i ∈ s.writeTargets cls sel off) : i < 512 := by
  unfold State.writeTargets at h
  split at h
  · split at h
    · rw [List.mem_singleton.mp h]
      assumption
    · cases h
  · split at h
    · exact lt_of_mem_instances (State.mem_groupMembers.mp h).2.1
    · split at h
      · exact lt_of_mem_instances (List.mem_of_mem_filter h)
      · cases h

theorem lt_of_hits {s : State} {req : Fin 14} {cls sel off i : Nat} (h : Claims.Hits s req cls sel off i) : i < 512 :=
  State.lt_of_mem_writeTargets (s := s) (cls := cls) (sel := sel) (off := off) (by rw [h.2.2]; exact List.mem_singleton_self i)

/-- The word a register of a window's table stores, by its fields. -/
theorem State.wordField_storeReg {cls off : Nat} {r : RegDef} (hr : findReg cls off = some r) {f : FieldDef} (hf : f ∈ r.fields)
    (s : State) (i : Nat) (v : Word) : wordField ((s.storeReg cls i off v).reg cls i off) f.msb f.lsb =
      f.ty.stored (f.msb + 1 - f.lsb) (wordField v f.msb f.lsb) (wordField (s.reg cls i off) f.msb f.lsb) := by
  rw [State.storeReg_of_findReg hr, State.reg_setReg_self]
  exact wordField_storeFields (registerFieldsApart cls off r hr) _ _ hf

/-- Storing a word reaches one register. -/
theorem State.reg_storeReg_other {cls inst off c i o : Nat} (s : State) (v : Word) (h : csrKey c i o ≠ csrKey cls inst off) :
    (s.storeReg cls inst off v).reg c i o = s.reg c i o := by
  unfold State.storeReg
  split
  · exact State.reg_setReg_other _ _ h
  · rfl

theorem State.storeReg_is (s : State) (cls inst off : Nat) (v : Word) : ∃ r, s.storeReg cls inst off v = { s with csr := r } := by
  unfold State.storeReg
  split
  · exact ⟨_, rfl⟩
  · exact ⟨s.csr, rfl⟩

/-! ## The latched books (R202) -/

/-- What the hub holds for a requester is held at a place of its own for each register of a unit. -/
theorem State.heldFor_holdFor_other (s : State) {req cls inst off r c i o : Nat} (w : Word) (h : holdKey r c i o ≠ holdKey req cls inst off) :
    (s.holdFor req cls inst off w).heldFor r c i o = s.heldFor r c i o := tget_tset_other _ _ _ _ h

/-- The latches a read of a low word sets. -/
theorem State.heldFor_latched {req cls i o : Nat} {l : List Nat} (h : o ∈ l) (w : Nat → Word) (s : State) :
    (l.foldl (fun t h => t.holdFor req cls i h (w h)) s).heldFor req cls i o = w o := by
  suffices hs : ∀ s : State, o ∈ l ∨ s.heldFor req cls i o = w o →
      (l.foldl (fun t h => t.holdFor req cls i h (w h)) s).heldFor req cls i o = w o from hs s (.inl h)
  clear h s
  induction l with
  | nil => exact fun s h => h.resolve_left List.not_mem_nil
  | cons x l ih =>
    intro s h
    refine ih _ ?_
    by_cases hx : o = x
    · exact .inr (by rw [hx, State.heldFor_holdFor_self])
    · rw [State.heldFor_holdFor_other _ _ (by unfold holdKey csrKey; omega)]
      exact h.imp_left fun h => (List.mem_cons.mp h).resolve_left hx

/-- A word of the books as ACCOUNT shows it. -/
theorem State.shown_book (s : State) (req a : Nat) {k : Nat} (hk : k < 5) :
    s.shown req 0x2A a (0x040 + 8 * k) =
      loWord ([(s.account a).credit, (s.account a).outstanding, (s.account a).minted, (s.account a).drawn, (s.account a).accrued].getD k 0).toNat ∧
    s.shown req 0x2A a (0x044 + 8 * k) =
      hiWord ([(s.account a).credit, (s.account a).outstanding, (s.account a).minted, (s.account a).drawn,
        (s.account a).accrued].getD k 0).toNat := by
  have view (off : Nat) (h : off < 0x3C0) : s.viewWord req 0x2A a off = s.bookView a off := by
    rw [State.viewWord, if_neg (by omega)]
    rfl
  rw [State.shown, State.shown, view _ (by omega), view _ (by omega), State.bookView, State.bookView, if_pos (by omega), if_pos (by omega)]
  have e₁ : (0x040 + 8 * k) % 8 = 0 := by omega
  have e₂ : (0x044 + 8 * k) % 8 ≠ 0 := by omega
  have e₃ : (0x040 + 8 * k - 0x040) / 8 = k := by omega
  have e₄ : (0x044 + 8 * k - 0x040) / 8 = k := by omega
  dsimp only
  rw [if_pos e₁, if_neg e₂, e₃, e₄]
  exact ⟨rfl, rfl⟩

/-- Every word of an account's books but the first latched for a requester. -/
def State.latchBooks (s : State) (req a : Nat) : State :=
  (latchedBy 0x2A 0x040).foldl (fun t o => t.holdFor req 0x2A a o (s.shown req 0x2A a o)) s

theorem mem_latchedBy_books {o : Nat} : o ∈ latchedBy 0x2A 0x040 ↔ ∃ k, k < 9 ∧ o = 0x044 + 4 * k := by
  have e : latchedBy 0x2A 0x040 = (List.range 9).map (fun k => 0x044 + 4 * k) := rfl
  rw [e, List.mem_map]
  exact exists_congr fun k => by rw [List.mem_range, eq_comm (a := o)]

/-- A read of CREDIT_LO: the word shown, with every other word of the books latched. -/
theorem exec_creditLoRead {s : State} {sel : BitVec 10} {a : Nat} (h : s.readTarget 0x2A sel.toNat 0x040 = some a) (req : Fin 14) :
    exec (.creditLoRead req sel) s = .next ((s.latchBooks req a).giveBack req (s.shown req 0x2A a 0x040)) := by
  show execCreditLoRead req sel s = _
  unfold execCreditLoRead State.csrRead
  rw [if_neg (by omega), h]
  rfl

theorem State.heldFor_giveBack (s : State) (r : Nat) (w : Word) (req cls i o : Nat) :
    (s.giveBack r w).heldFor req cls i o = s.heldFor req cls i o := rfl

theorem State.heldFor_latchBooks_self (s : State) (req a : Nat) {k : Nat} (hk : k < 9) :
    (s.latchBooks req a).heldFor req 0x2A a (0x044 + 4 * k) = s.shown req 0x2A a (0x044 + 4 * k) :=
  State.heldFor_latched (mem_latchedBy_books.mpr ⟨k, hk, rfl⟩) (fun o => s.shown req 0x2A a o) s

theorem State.heldFor_latchBooks_other (s : State) {req r : Fin 14} (h : r ≠ req) {a o : Nat} (ho : o < 0x400) :
    (s.latchBooks req a).heldFor r 0x2A a o = s.heldFor r 0x2A a o := by
  have hr : r.val ≠ req.val := fun e => h (Fin.ext e)
  refine foldl_leaves (fun t : State => t.heldFor r 0x2A a o) _ s fun t o' ho' => State.heldFor_holdFor_other _ _ ?_
  obtain ⟨k, hk, rfl⟩ := mem_latchedBy_books.mp ho'
  unfold holdKey csrKey
  omega

theorem State.latchBooks_ledger (s : State) (req a : Nat) : (s.latchBooks req a).ledger = s.ledger :=
  foldl_leaves State.ledger _ s fun _ _ _ => rfl

theorem State.latchBooks_csr (s : State) (req a : Nat) : (s.latchBooks req a).csr = s.csr :=
  foldl_leaves State.csr _ s fun _ _ _ => rfl

theorem creditLoRead_spec (req : Fin 14) (sel : BitVec 10) (s : State) (a : Nat) (h : s.readTarget 0x2A sel.toNat 0x040 = some a) :
    let x := s.account a
    let books := [x.credit, x.outstanding, x.minted, x.drawn, x.accrued]
    ∃ t, exec (.creditLoRead req sel) s = .next t ∧ t.ledger = s.ledger ∧ t.csr = s.csr ∧
      tget 0 t.returned req = loWord x.credit.toNat ∧
      (∀ k, k < 5 → t.heldFor req 0x2A a (0x044 + 8 * k) = hiWord (books.getD k 0).toNat ∧
        (k ≠ 0 → t.heldFor req 0x2A a (0x040 + 8 * k) = loWord (books.getD k 0).toNat)) ∧
      ∀ r : Fin 14, r ≠ req → ∀ k, k < 10 → t.heldFor r 0x2A a (0x040 + 4 * k) = s.heldFor r 0x2A a (0x040 + 4 * k) := by
  refine ⟨_, exec_creditLoRead h req, ?_, ?_, ?_, fun k hk => ?_, fun r hr k hk => ?_⟩
  · rw [State.giveBack_ledger, State.latchBooks_ledger]
  · rw [State.giveBack_csr, State.latchBooks_csr]
  · rw [State.tget_giveBack]
    exact (s.shown_book req a (k := 0) (by decide)).1
  · obtain ⟨hlo, hhi⟩ := s.shown_book req a hk
    refine ⟨?_, fun hk0 => ?_⟩
    · have e : 0x044 + 8 * k = 0x044 + 4 * (2 * k) := by omega
      rw [State.heldFor_giveBack, ← hhi, e, State.heldFor_latchBooks_self _ _ _ (by omega)]
    · have e : 0x040 + 8 * k = 0x044 + 4 * (2 * k - 1) := by omega
      rw [State.heldFor_giveBack, ← hlo, e, State.heldFor_latchBooks_self _ _ _ (by omega)]
  · rw [State.heldFor_giveBack, State.heldFor_latchBooks_other _ hr (by omega)]

/-! ## The counter bank (R401) -/

/-- Whether no register of a table lies on CNT_SELk or CNT_CTL. -/
def leavesCounters (l : List RegDef) : Bool := l.all fun r => (List.range 9).all fun k => !r.covers (0x380 + 4 * k)

theorem classRegs_leavesCounters (cls : Nat) : leavesCounters (classRegs cls) = true := by
  unfold classRegs
  split <;> decide +kernel

theorem find?_covers_of_leavesCounters {l : List RegDef} (h : leavesCounters l = true) {k : Nat} (hk : k < 9) :
    l.find? (fun r => r.covers (0x380 + 4 * k)) = none := by
  refine List.find?_eq_none.mpr fun r hr => ?_
  have := List.all_eq_true.mp (List.all_eq_true.mp h r hr) k (List.mem_range.mpr hk)
  simpa using this

/-- CNT_SELk and CNT_CTL are the same in every class. -/
theorem findReg_counters (cls : Nat) {k : Nat} (hk : k < 9) :
    findReg cls (0x380 + 4 * k) = regsCommon.find? (fun r => r.covers (0x380 + 4 * k)) := by
  have hg : leavesCounters (if classGroup cls then regsGroup else []) = true := by
    split <;> decide
  rw [findReg, find?_covers_of_leavesCounters (classRegs_leavesCounters cls) hk, find?_covers_of_leavesCounters hg hk]

theorem findReg_cntSel (cls : Nat) (k : Fin 8) : findReg cls (0x380 + 4 * k.val) =
    some ⟨0x380, 4, 8, commonModes, [⟨.rw, 9, 0, 0⟩, ⟨.rw, 16, 16, 0⟩]⟩ := by
  rw [findReg_counters cls (by omega)]
  revert k
  decide

theorem State.clrCounter_self (s : State) (cls i k : Nat) : (s.clrCounter cls i k).reg cls i (0x3C0 + 8 * k) = 0 ∧
    (s.clrCounter cls i k).reg cls i (0x3C4 + 8 * k) = 0 := by
  unfold State.clrCounter
  refine ⟨?_, State.reg_setReg_self ..⟩
  rw [State.reg_setReg_other _ _ (by unfold csrKey; omega), State.reg_setReg_self]

theorem State.clrCounter_other (s : State) {cls i k o : Nat} (h : o ≠ 0x3C0 + 8 * k) (h' : o ≠ 0x3C4 + 8 * k) :
    (s.clrCounter cls i k).reg cls i o = s.reg cls i o := by
  unfold State.clrCounter
  rw [State.reg_setReg_other _ _ (by unfold csrKey; omega), State.reg_setReg_other _ _ (by unfold csrKey; omega)]

/-- The counters of a list that a condition picks cleared. -/
def State.clrCounters (s : State) (p : Nat → Bool) (cls i : Nat) (l : List Nat) : State :=
  l.foldl (fun s k => if p k then s.clrCounter cls i k else s) s

theorem State.clrCounters_reg (p : Nat → Bool) (cls i j : Nat) (l : List Nat) (s : State) :
    (s.clrCounters p cls i l).reg cls i (0x3C0 + 8 * j) = (if j ∈ l ∧ p j = true then 0 else s.reg cls i (0x3C0 + 8 * j)) ∧
      (s.clrCounters p cls i l).reg cls i (0x3C4 + 8 * j) = (if j ∈ l ∧ p j = true then 0 else s.reg cls i (0x3C4 + 8 * j)) := by
  induction l generalizing s with
  | nil => simp [State.clrCounters]
  | cons x l ih =>
    have hx : s.clrCounters p cls i (x :: l) = (if p x then s.clrCounter cls i x else s).clrCounters p cls i l := rfl
    obtain ⟨h₁, h₂⟩ := ih (if p x then s.clrCounter cls i x else s)
    rw [hx, h₁, h₂]
    by_cases hx : j = x
    · subst hx
      obtain ⟨c₁, c₂⟩ := s.clrCounter_self cls i j
      cases hp : p j <;> simp [c₁, c₂]
    · have e (o : Nat) (ho : o = 0x3C0 + 8 * j ∨ o = 0x3C4 + 8 * j) :
          (if p x then s.clrCounter cls i x else s).reg cls i o = s.reg cls i o := by
        split
        · exact s.clrCounter_other (by omega) (by omega)
        · rfl
      rw [e _ (.inl rfl), e _ (.inr rfl)]
      simp [hx]

/-- A register of the counter bank is written there, in every class. -/
theorem State.writeOne_cntSel (s : State) (req cls i : Nat) (k : Fin 8) (v : Word) :
    s.writeOne req cls i (0x380 + 4 * k.val) v = s.cntSelWrite cls i (0x380 + 4 * k.val) v := if_pos (by omega)

theorem State.writeOne_cntCtl (s : State) (req cls i : Nat) (v : Word) : s.writeOne req cls i 0x3A0 v = s.cntCtlWrite cls i v := by
  rw [State.writeOne, if_neg (by decide), if_pos rfl]

theorem singleOnly_counters (cls : Nat) {k : Nat} (hk : k < 9) : singleOnly cls (0x380 + 4 * k) = false := by
  simp [singleOnly]
  omega

theorem cntSelWrite_spec (req : Fin 14) (cls : BitVec 8) (sel : BitVec 10) (k : Fin 8) (v : Word) (s : State) (i : Nat)
    (h : Claims.Hits s req cls.toNat sel.toNat (0x380 + 4 * k.val) i) :
    ∃ t, exec (.cntSelWrite req cls sel k v) s = .next t ∧
      wordField (t.reg cls.toNat i (0x380 + 4 * k.val)) 9 0 = v.toNat % 2 ^ 10 ∧
      wordField (t.reg cls.toNat i (0x380 + 4 * k.val)) 16 16 = v.toNat / 2 ^ 16 % 2 ∧
      let same := wordField v 9 0 = wordField (s.reg cls.toNat i (0x380 + 4 * k.val)) 9 0
      ∀ j, j < 8 → t.reg cls.toNat i (0x3C0 + 8 * j) = (if j = k.val ∧ ¬ same then 0 else s.reg cls.toNat i (0x3C0 + 8 * j)) ∧
        t.reg cls.toNat i (0x3C4 + 8 * j) = (if j = k.val ∧ ¬ same then 0 else s.reg cls.toNat i (0x3C4 + 8 * j)) := by
  obtain ⟨hsel, hen⟩ : wordField ((s.storeReg cls.toNat i (0x380 + 4 * k.val) v).reg cls.toNat i (0x380 + 4 * k.val)) 9 0 = wordField v 9 0 ∧
      wordField ((s.storeReg cls.toNat i (0x380 + 4 * k.val) v).reg cls.toNat i (0x380 + 4 * k.val)) 16 16 = wordField v 16 16 :=
    ⟨State.wordField_storeReg (findReg_cntSel _ k) (f := ⟨.rw, 9, 0, 0⟩) (by simp) s i v,
      State.wordField_storeReg (findReg_cntSel _ k) (f := ⟨.rw, 16, 16, 0⟩) (by simp) s i v⟩
  have e : exec (.cntSelWrite req cls sel k v) s = .next (s.cntSelWrite cls.toNat i (0x380 + 4 * k.val) v) := by
    show Host.Outcome.next (s.csrWrite req cls.toNat sel.toNat (0x380 + 4 * k.val) v) = _
    rw [State.csrWrite_of_hits h (singleOnly_counters _ (by omega)), State.writeOne_cntSel]
  have hcnt (o : Nat) (ho : 0x3C0 ≤ o) : (s.storeReg cls.toNat i (0x380 + 4 * k.val) v).reg cls.toNat i o = s.reg cls.toNat i o :=
    s.reg_storeReg_other v (by unfold csrKey; omega)
  have ek : (0x380 + 4 * k.val - 0x380) / 4 = k.val := by omega
  refine ⟨_, e, ?_⟩
  unfold State.cntSelWrite
  dsimp only
  rw [hsel, ek]
  by_cases hsame : wordField v 9 0 = wordField (s.reg cls.toNat i (0x380 + 4 * k.val)) 9 0
  · rw [if_pos hsame, hsel, hen]
    refine ⟨wordField_zero v 9, rfl, fun j hj => ?_⟩
    rw [hcnt _ (by omega), hcnt _ (by omega), if_neg fun h => h.2 hsame, if_neg fun h => h.2 hsame]
    exact ⟨rfl, rfl⟩
  · rw [if_neg hsame, State.clrCounter_other _ (by omega) (by omega), hsel, hen]
    refine ⟨wordField_zero v 9, rfl, fun j hj => ?_⟩
    by_cases hjk : j = k.val
    · subst hjk
      rw [if_pos ⟨rfl, hsame⟩, if_pos ⟨rfl, hsame⟩]
      exact State.clrCounter_self ..
    · rw [State.clrCounter_other _ (by omega) (by omega), State.clrCounter_other _ (by omega) (by omega), hcnt _ (by omega),
        hcnt _ (by omega), if_neg fun h => hjk h.1, if_neg fun h => hjk h.1]
      exact ⟨rfl, rfl⟩

theorem cntClr_spec (req : Fin 14) (cls : BitVec 8) (sel : BitVec 10) (v : Word) (s : State) (i : Nat)
    (h : Claims.Hits s req cls.toNat sel.toNat 0x3A0 i) : ∃ t, exec (.cntClr req cls sel v) s = .next t ∧ ∀ j, j < 8 →
      t.reg cls.toNat i (0x3C0 + 8 * j) = (if v.getLsbD j then 0 else s.reg cls.toNat i (0x3C0 + 8 * j)) ∧
      t.reg cls.toNat i (0x3C4 + 8 * j) = (if v.getLsbD j then 0 else s.reg cls.toNat i (0x3C4 + 8 * j)) := by
  have e : exec (.cntClr req cls sel v) s =
      .next ((s.storeReg cls.toNat i 0x3A0 v).clrCounters (bitOf v.toNat) cls.toNat i (List.range 8)) := by
    show Host.Outcome.next (s.csrWrite req cls.toNat sel.toNat 0x3A0 v) = _
    rw [State.csrWrite_of_hits h (singleOnly_counters _ (k := 8) (by decide)), State.writeOne_cntCtl]
    rfl
  refine ⟨_, e, fun j hj => ?_⟩
  obtain ⟨h₁, h₂⟩ := State.clrCounters_reg (bitOf v.toNat) cls.toNat i j (List.range 8) (s.storeReg cls.toNat i 0x3A0 v)
  have hcnt (o : Nat) (ho : 0x3C0 ≤ o) : (s.storeReg cls.toNat i 0x3A0 v).reg cls.toNat i o = s.reg cls.toNat i o :=
    s.reg_storeReg_other v (by unfold csrKey; omega)
  rw [h₁, h₂, hcnt _ (by omega), hcnt _ (by omega), bitOf_eq_getLsbD]
  simp only [List.mem_range, hj, true_and]

/-! ## Folds that reach one place once -/

/-- What one element of a fold over a list without repetitions does at a place that the others leave alone. -/
theorem foldl_once {α β γ : Type} (g : β → γ) (F : γ → γ) {f : β → α → β} {l : List α} {x : α} (hl : l.Nodup) (hx : x ∈ l)
    (hset : ∀ s, g (f s x) = F (g s)) (hkeep : ∀ s y, y ∈ l → y ≠ x → g (f s y) = g s) (s : β) : g (l.foldl f s) = F (g s) := by
  induction l generalizing s with
  | nil => cases hx
  | cons y l ih =>
    obtain ⟨hy, hl⟩ := List.nodup_cons.mp hl
    rw [List.foldl_cons]
    obtain rfl | hx := List.mem_cons.mp hx
    · rw [foldl_leaves g l _ fun s z hz => hkeep s z (List.mem_cons_of_mem _ hz) fun e => hy (e ▸ hz), hset]
    · rw [ih hl hx (fun s z hz => hkeep s z (List.mem_cons_of_mem _ hz)), hkeep s y List.mem_cons_self fun e => hy (e ▸ hx)]

theorem State.fld_lt (s : State) (f : Field) (i : Nat) : s.fld f i < 2 ^ (f.msb + 1 - f.lsb) := wordField_lt ..

/-- A field of one bit by its truth value. -/
theorem State.bit_eq_decide (s : State) {f : Field} {i : Nat} (h : f.msb = f.lsb) : s.bit f i = decide (s.fld f i = 1) := by
  have := s.fld_lt f i
  rw [h, Nat.add_sub_cancel_left] at this
  obtain h | h : s.fld f i = 0 ∨ s.fld f i = 1 := by omega
  all_goals rw [State.bit, h]; rfl

/-! ## MODE_REQ (R58) -/

theorem exec_modeReq {s : State} {req : Fin 14} (h : Claims.Hits s req 0 0 0x004 0) (target : BitVec 3) :
    exec (.modeReq req target) s = .next (if req.val < 8 then s.modeReq req (w32 target.toNat) else s) := by
  show Host.Outcome.next (s.csrWrite req 0 0 0x004 (w32 target.toNat)) = _
  rw [State.csrWrite_of_hits h rfl]
  rfl

/-- A decision as MODE_RESULT shows it. -/
theorem State.modeDecision_fld (s : State) {result requester target : Nat} (hr : result < 4) (hq : requester < 16) (ht : target < 8) :
    (s.modeDecision result requester target).fld Reg.SYS.MODE_RESULT_RESULT 0 = result ∧
    (s.modeDecision result requester target).fld Reg.SYS.MODE_RESULT_REQUESTER 0 = requester ∧
    (s.modeDecision result requester target).fld Reg.SYS.MODE_RESULT_TARGET 0 = target ∧
    (s.modeDecision result requester target).fld Reg.SYS.MODE_RESULT_DECISIONS 0 = (s.fld Reg.SYS.MODE_RESULT_DECISIONS 0 + 1) % 2 ^ 16 := by
  unfold State.modeDecision State.addFld
  simp (disch := decide) only [State.fld_setFld_apart, State.fld_setFld_self]
  exact ⟨Nat.mod_eq_of_lt hr, Nat.mod_eq_of_lt hq, Nat.mod_eq_of_lt ht, trivial⟩

theorem State.modeDecision_modes (s : State) (result requester target : Nat) : (s.modeDecision result requester target).modes = s.modes := by
  rw [State.modeDecision, State.addFld_modes, State.setFld_modes, State.setFld_modes, State.setFld_modes]

/-- A transition accepted: its target stands, the mode and what bring-up shows are as before. -/
theorem State.beginMode_spec (s : State) (m : Mode) (req : Nat) (op : Option (BitVec 16)) :
    (s.beginMode m req op).modes.target = some m ∧ (s.beginMode m req op).modes.mode = s.modes.mode ∧
    ∀ f : Field, f.cls = 0 → f.off = 0x008 → (s.beginMode m req op).fld f 0 = s.fld f 0 := by
  have hcsr : (s.startTransition m req op).csr = s.csr := by
    unfold State.startTransition
    dsimp only
    split <;> rfl
  have hmodes : (s.startTransition m req op).modes.target = some m ∧ (s.startTransition m req op).modes.mode = s.modes.mode := by
    unfold State.startTransition
    dsimp only
    split <;> exact ⟨rfl, rfl⟩
  have hs : Stands bringUpKey (s.startTransition m req op) (s.beginMode m req op) := by
    unfold State.beginMode
    extract_lets t _ u
    have hu : Stands bringUpKey t u := .ite (.update .refl) .refl
    exact .ite (.foldl hu fun _ _ hs => .foldl hs fun _ _ hs => .reclaim hs) hu
  refine ⟨by rw [hs.modes, hmodes.1], by rw [hs.modes, hmodes.2], fun f hc ho => ?_⟩
  rw [hs.fld (by omega) (by rw [hc, ho]; exact .inl ⟨by decide, by decide⟩), State.fld, State.fld, State.reg_congr hcsr]

theorem Mode.ofCode_of_code (x : BitVec 3) : ∃ m, Mode.ofCode x.toNat = some m :=
  Option.isSome_iff_exists.mp (by revert x; decide)

theorem wordField_w32_target (x : BitVec 3) : wordField (w32 x.toNat) 2 0 = x.toNat := by
  rw [wordField_zero, w32, BitVec.toNat_ofNat]
  omega

theorem modeReq_spec (req : Fin 14) (target : BitVec 3) (s : State) (h : Claims.Hits s req 0 0 0x004 0) :
    ∃ t, exec (.modeReq req target) s = .next t ∧
    (8 ≤ req.val → t = s) ∧
    (req.val < 8 → t.fld Reg.SYS.MODE_RESULT_REQUESTER 0 = 2 + req.val ∧ t.fld Reg.SYS.MODE_RESULT_TARGET 0 = target.toNat ∧
      t.fld Reg.SYS.MODE_RESULT_DECISIONS 0 = (s.fld Reg.SYS.MODE_RESULT_DECISIONS 0 + 1) % 2 ^ 16 ∧ t.modes.mode = s.modes.mode ∧
      t.fld Reg.SYS.MODE_RESULT_RESULT 0 = (match s.modeVerdict (Mode.ofCode target.toNat) false with
        | none => 2
        | some false => 1
        | some true => 3) ∧
      t.modes.target = (if s.modeVerdict (Mode.ofCode target.toNat) false = some true then Mode.ofCode target.toNat
        else s.modes.target)) := by
  refine ⟨_, exec_modeReq h target, fun hr => if_neg (by omega), fun hr => ?_⟩
  rw [if_pos hr, State.modeReq, wordField_w32_target]
  obtain ⟨m, hm⟩ := Mode.ofCode_of_code target
  have decided {r : Nat} (h : r < 4) := s.modeDecision_fld h (by omega : 2 + req.val < 16) target.isLt
  cases hv : s.modeVerdict (Mode.ofCode target.toNat) false with
  | none =>
    obtain ⟨hres, hreq, htar, hdec⟩ := decided (r := 2) (by decide)
    have hmodes := s.modeDecision_modes 2 (2 + req.val) target.toNat
    exact ⟨hreq, htar, hdec, congrArg ModeCtl.mode hmodes, hres, congrArg ModeCtl.target hmodes⟩
  | some b =>
    cases b with
    | false =>
      obtain ⟨hres, hreq, htar, hdec⟩ := decided (r := 1) (by decide)
      have hmodes := s.modeDecision_modes 1 (2 + req.val) target.toNat
      exact ⟨hreq, htar, hdec, congrArg ModeCtl.mode hmodes, hres, congrArg ModeCtl.target hmodes⟩
    | true =>
      obtain ⟨hres, hreq, htar, hdec⟩ := decided (r := 3) (by decide)
      obtain ⟨ht, hmode, hf⟩ := (s.modeDecision 3 (2 + req.val) target.toNat).beginMode_spec ((Mode.ofCode target.toNat).getD .service)
        (2 + req.val) none
      refine ⟨(hf _ rfl rfl).trans hreq, (hf _ rfl rfl).trans htar, (hf _ rfl rfl).trans hdec,
        hmode.trans (congrArg ModeCtl.mode (s.modeDecision_modes ..)), (hf _ rfl rfl).trans hres, ?_⟩
      dsimp only
      rw [ht, if_pos rfl, hm]
      rfl

/-! ## FAULT_CLEAR (R6) -/

theorem exec_faultClrMax {s : State} {req : Fin 14} (h : Claims.Hits s req 0 0 0x058 0) : exec (.faultClrMax req) s =
    .next ((s.setFld Reg.SYS.FAULT_MAX_MAX 0 0).setFld Reg.SYS.FAULT_STATUS_OVER_BOUND 0 0) := by
  show Host.Outcome.next (s.csrWrite req 0 0 0x058 1) = _
  rw [State.csrWrite_of_hits h rfl]
  rfl

theorem exec_faultClrCounts {s : State} {req : Fin 14} (h : Claims.Hits s req 0 0 0x058 0) : exec (.faultClrCounts req) s =
    .next ((List.range 14).foldl (fun s k => s.setFld (Reg.SYS.FAULT_COUNT_COUNT k) 0 0) s) := by
  show Host.Outcome.next (s.csrWrite req 0 0 0x058 2) = _
  rw [State.csrWrite_of_hits h rfl]
  rfl

/-- The counters of the fault manager share no bit with each other or with another register of it. -/
theorem apart_faultCount {f : Field} (h : f.lsb ≤ f.msb) (h' : f.msb < 32) (ho : f.off < 0x080) (k : Fin 14) :
    f.apart (Reg.SYS.FAULT_COUNT_COUNT k) = true ∧ (Reg.SYS.FAULT_COUNT_COUNT k).apart f = true := by
  simp [Field.apart]
  omega

theorem faultClear_spec (req : Fin 14) (s : State) (h : Claims.Hits s req 0 0 0x058 0) :
    (∃ t, exec (.faultClrMax req) s = .next t ∧ t.fld Reg.SYS.FAULT_MAX_MAX 0 = 0 ∧ t.fld Reg.SYS.FAULT_STATUS_OVER_BOUND 0 = 0 ∧
      ∀ k : Fin 14, t.fld (Reg.SYS.FAULT_COUNT_COUNT k) 0 = s.fld (Reg.SYS.FAULT_COUNT_COUNT k) 0) ∧
    (∃ t, exec (.faultClrCounts req) s = .next t ∧ t.fld Reg.SYS.FAULT_MAX_MAX 0 = s.fld Reg.SYS.FAULT_MAX_MAX 0 ∧
      ∀ k : Fin 14, t.fld (Reg.SYS.FAULT_COUNT_COUNT k) 0 = 0) := by
  refine ⟨⟨_, exec_faultClrMax h, ?_, ?_, fun k => ?_⟩, ⟨_, exec_faultClrCounts h, ?_, fun k => ?_⟩⟩
  · simp (disch := decide) only [State.fld_setFld_apart, State.fld_setFld_self, Nat.zero_mod]
  · simp (disch := decide) only [State.fld_setFld_self, Nat.zero_mod]
  · rw [State.fld_setFld_apart (apart_faultCount (by decide) (by decide) (by decide) k).1,
      State.fld_setFld_apart (apart_faultCount (by decide) (by decide) (by decide) k).1]
  · exact foldl_leaves (fun t : State => t.fld Reg.SYS.FAULT_MAX_MAX 0) _ s fun t k hk =>
      State.fld_setFld_apart (apart_faultCount (by decide) (by decide) (by decide) ⟨k, List.mem_range.mp hk⟩).2 ..
  · refine foldl_once (fun t : State => t.fld (Reg.SYS.FAULT_COUNT_COUNT k) 0) (fun _ => 0) List.nodup_range (List.mem_range.mpr k.isLt)
      (fun t => State.fld_setFld_self _ _ _ _ (Nat.zero_le 31) (Nat.lt_succ_self 31)) (fun t j _ hj => State.fld_setFld_other _ _ _ _ _ _ ?_) s
    dsimp only [csrKey]
    omega

/-! ## The boot ROM (R62, R384) -/

/-- A result code of R62 fits its field. -/
theorem imageResult_lt (type : Nat) (l : List Byte) : imageResult type l < 8 := by
  unfold imageResult
  dsimp only
  repeat' split
  all_goals decide

/-- Dvorys started: the pair's roles, the source, DVORYS_UP. -/
theorem State.dvorysUp_spec (s : State) (slot version : Nat) (host : Bool) :
    (s.dvorysUp slot version host).fld Reg.SYS.RAISE_STATUS_DVORYS_UP 0 = 1 ∧
    (s.dvorysUp slot version host).fld Reg.SYS.BOOT_STATUS_FROM_HOST 0 = b2n host ∧
    (s.dvorysUp slot version host).fld Reg.DVORYS.PAIR_STATUS_ROLE 0 = 2 ∧
    (s.dvorysUp slot version host).fld Reg.DVORYS.PAIR_STATUS_ROLE 1 = 1 := by
  have hb : b2n host % 2 = b2n host := by cases host <;> rfl
  unfold State.dvorysUp State.syncReady
  simp (disch := decide) only [State.fld_setFld_apart, State.fld_setFld_other, State.fld_setFld_self, Nat.reduceAdd, Nat.reduceSub,
    Nat.reducePow, Nat.reduceMod, hb, and_self]

/-- What the boot ROM found of its sources is no matter of starting Dvorys. -/
theorem State.dvorysUp_fld (s : State) (slot version : Nat) (host : Bool) {f : Field}
    (h : f = Reg.SYS.BOOT_STATUS_SLOT_A_RESULT ∨ f = Reg.SYS.BOOT_STATUS_SLOT_B_RESULT ∨ f = Reg.SYS.BOOT_STATUS_HOST_RESULT ∨
      f = Reg.SYS.BOOT_STATUS_WAITING_HOST) : (s.dvorysUp slot version host).fld f 0 = s.fld f 0 := by
  unfold State.dvorysUp State.syncReady
  obtain rfl | rfl | rfl | rfl := h <;>
    simp (disch := decide) only [State.fld_setFld_apart, State.fld_setFld_other]

theorem exec_bootPush {s : State} {req : Fin 14} (h : Claims.Hits s req 0x68 0 0x0C0 0) (v : Word) :
    exec (.bootPush req v) s = .next (s.bootPush v) := by
  show Host.Outcome.next (s.csrWrite req 0x68 0 0x0C0 v) = _
  rw [State.csrWrite_of_hits h rfl]
  rfl

theorem bootPush_spec (req : Fin 14) (v : Word) (s : State) (h : Claims.Hits s req 0x68 0 0x0C0 0) :
    let l := (s.bytesAt bootArea (min (2 ^ 24) (v.toNat % 2 ^ 25))).1
    ∃ t, exec (.bootPush req v) s = .next t ∧
      (s.fld Reg.SYS.BOOT_STATUS_WAITING_HOST 0 = 0 ∨ v.getLsbD 31 = false → t = s) ∧
      (s.fld Reg.SYS.BOOT_STATUS_WAITING_HOST 0 = 1 → v.getLsbD 31 = true →
        t.fld Reg.SYS.BOOT_STATUS_HOST_RESULT 0 = imageResult 0 l ∧
        (imageResult 0 l = 1 → t.fld Reg.SYS.RAISE_STATUS_DVORYS_UP 0 = 1 ∧ t.fld Reg.SYS.BOOT_STATUS_WAITING_HOST 0 = 0 ∧
          t.fld Reg.SYS.BOOT_STATUS_FROM_HOST 0 = 1) ∧
        (imageResult 0 l ≠ 1 → t.fld Reg.SYS.BOOT_STATUS_WAITING_HOST 0 = 1 ∧
          t.fld Reg.SYS.RAISE_STATUS_DVORYS_UP 0 = s.fld Reg.SYS.RAISE_STATUS_DVORYS_UP 0)) := by
  intro l
  have hbit : wordField v 31 31 = 1 ↔ v.getLsbD 31 = true := by
    rw [← wordField_beq_one, beq_iff_eq]
  refine ⟨_, exec_bootPush h v, fun hn => ?_, fun hw hv => ?_⟩
  · rw [State.bootPush, if_neg]
    rintro ⟨hw, hv⟩
    rw [hbit] at hv
    rw [State.bit_eq_decide _ rfl, decide_eq_true_eq] at hw
    obtain hn | hn := hn
    · omega
    · rw [hv] at hn
      cases hn
  · have hlen : min 0x1000000 (wordField v 24 0) = min (2 ^ 24) (v.toNat % 2 ^ 25) := by rw [wordField_zero]; rfl
    rw [State.bootPush, if_pos ⟨by rw [State.bit_eq_decide _ rfl, hw]; rfl, hbit.mpr hv⟩, hlen]
    have hs : Stands bringUpKey s (s.bytesAt bootArea (min (2 ^ 24) (v.toNat % 2 ^ 25))).2 := .readMem .refl
    have hr := imageResult_lt 0 l
    generalize hb : s.bytesAt bootArea (min (2 ^ 24) (v.toNat % 2 ^ 25)) = b at *
    obtain ⟨bytes, u⟩ := b
    have hl : l = bytes := congrArg Prod.fst hb
    rw [hl] at hr ⊢
    have hwu : u.fld Reg.SYS.BOOT_STATUS_WAITING_HOST 0 = 1 := (hs.fld (by decide) (.inl (by decide))).trans hw
    have hup : u.fld Reg.SYS.RAISE_STATUS_DVORYS_UP 0 = s.fld Reg.SYS.RAISE_STATUS_DVORYS_UP 0 := hs.fld (by decide) (.inl (by decide))
    dsimp only
    by_cases h1 : imageResult 0 bytes = 1
    · rw [if_pos h1]
      obtain ⟨hd, hf, -, -⟩ := (((u.setFld Reg.SYS.BOOT_STATUS_HOST_RESULT 0 (imageResult 0 bytes)).setFld
        Reg.SYS.BOOT_STATUS_WAITING_HOST 0 0).dvorysUp_spec 0 (imgVersion bytes) true)
      refine ⟨?_, fun _ => ⟨hd, ?_, hf⟩, fun h => absurd h1 h⟩
      · rw [State.dvorysUp_fld _ _ _ _ (by simp)]
        simp (disch := decide) only [State.fld_setFld_apart, State.fld_setFld_self]
        exact Nat.mod_eq_of_lt hr
      · rw [State.dvorysUp_fld _ _ _ _ (by simp), State.fld_setFld_self _ _ _ _ (by decide) (by decide), Nat.zero_mod]
    · rw [if_neg h1]
      simp (disch := decide) only [State.fld_setFld_apart, State.fld_setFld_self]
      exact ⟨Nat.mod_eq_of_lt hr, fun h => absurd h h1, fun _ => ⟨hwu, hup⟩⟩

/-! ## Footing (R418) -/

theorem State.toFooting_devclk (s : State) (bits : Nat) : (s.toFooting bits).devclk = s.devclk :=
  foldl_leaves State.devclk _ _ fun _ _ _ => rfl

theorem State.toFooting_pending (s : State) (bits : Nat) : (s.toFooting bits).pending = s.pending :=
  foldl_leaves State.pending _ _ fun _ _ _ => rfl

theorem State.toFooting_mem (s : State) (bits : Nat) : (s.toFooting bits).mem = State.reset.mem :=
  foldl_leaves State.mem _ _ fun _ _ _ => rfl

theorem State.toFooting_faults (s : State) (bits : Nat) : (s.toFooting bits).faults = State.reset.faults :=
  foldl_leaves State.faults _ _ fun _ _ _ => rfl

/-- RESET_CAUSE keeps what it held and gains the source's bit (R418). -/
theorem State.toFooting_cause (s : State) (bits : Nat) :
    (s.toFooting bits).reg 0x02 0 0x00C = s.reg 0x02 0 0x00C ||| BitVec.ofNat 32 bits := by
  unfold State.toFooting
  extract_lets cause
  refine (foldl_leaves (fun t : State => t.reg 0x02 0 0x00C) _ _ fun t d hd => ?_).trans (State.reg_setReg_self ..)
  have hd := List.mem_range.mp hd
  exact State.reg_setReg_other _ _ (by simp [csrKey]; omega)

/-- Every domain but the always-on one is off in Footing (R60). -/
theorem State.toFooting_domain (s : State) (bits : Nat) (d : Fin 77) : (s.toFooting bits).fld Reg.PWR.STATUS_STATE (d.val + 1) = 0 := by
  unfold State.toFooting
  refine foldl_once (fun t : State => t.fld Reg.PWR.STATUS_STATE (d.val + 1)) (fun _ => 0) List.nodup_range (List.mem_range.mpr d.isLt)
    (fun t => State.fld_setFld_self _ _ _ _ (by decide) (by decide)) (fun t e he hed => ?_) _
  have he := List.mem_range.mp he
  exact State.fld_setFld_instance _ _ (by omega) (by omega) (by omega) (by decide) (by decide)

theorem exec_softReset {s : State} {req : Fin 14} (h : Claims.Hits s req 0x02 0 0x008 0) (v : Word) :
    exec (.softReset req v) s = .next (if v.toNat % 2 ^ 16 = 0xD1A5 then s.toFooting 4 else s) := by
  show Host.Outcome.next (s.csrWrite req 0x02 0 0x008 v) = _
  rw [State.csrWrite_of_hits h rfl, ← wordField_zero v 15]
  rfl

theorem softReset_spec (req : Fin 14) (v : Word) (s : State) (h : Claims.Hits s req 0x02 0 0x008 0) :
    ∃ t, exec (.softReset req v) s = .next t ∧
    (v.toNat % 2 ^ 16 ≠ 0xD1A5 → t = s) ∧
    (v.toNat % 2 ^ 16 = 0xD1A5 → t.modes.mode = .footing ∧ t.devclk = s.devclk ∧ t.pending = s.pending ∧
      t.reg 0x02 0 0x00C = s.reg 0x02 0 0x00C ||| 4 ∧ t.mem = State.reset.mem ∧ t.faults = State.reset.faults ∧
      ∀ d : Fin 77, t.fld Reg.PWR.STATUS_STATE (d.val + 1) = 0) := by
  refine ⟨_, exec_softReset h v, fun hn => if_neg hn, fun hk => ?_⟩
  rw [if_pos hk]
  exact ⟨s.toFooting_modes 4, s.toFooting_devclk 4, s.toFooting_pending 4, s.toFooting_cause 4, s.toFooting_mem 4, s.toFooting_faults 4,
    s.toFooting_domain 4⟩

/-! ## Keep cores (R21, R65) -/

theorem exec_keepRunWrite {s : State} {req : Fin 14} {sel : BitVec 10} {k : Nat} (h : Claims.Hits s req 0x71 sel.toNat 0x000 k) (v : Word) :
    exec (.keepRunWrite req sel v) s = .next (s.keepRunWrite k v) := by
  show Host.Outcome.next (s.csrWrite req 0x71 sel.toNat 0x000 v) = _
  rw [State.csrWrite_of_hits h rfl]
  rfl

theorem State.fld_storeReg_keepRun (s : State) (k : Nat) (v : Word) : (s.storeReg 0x71 k 0x000 v).fld Reg.KEEP.CTL_RUN k = v.toNat % 2 :=
  (State.wordField_storeReg (r := ⟨0x000, 0, 1, commonModes, [⟨.rw, 0, 0, 0⟩]⟩) (f := ⟨.rw, 0, 0, 0⟩) (by decide) (by simp) s k v).trans
    (wordField_zero v 0)

theorem keepRunWrite_spec (req : Fin 14) (sel : BitVec 10) (v : Word) (s : State) (k : Nat) (h : Claims.Hits s req 0x71 sel.toNat 0x000 k) :
    ∃ t, exec (.keepRunWrite req sel v) s = .next t ∧ t.fld Reg.KEEP.CTL_RUN k = v.toNat % 2 ∧
      t.reg 0x71 k 0x00C = if v.toNat % 2 = s.fld Reg.KEEP.CTL_RUN k then s.reg 0x71 k 0x00C else BitVec.ofNat 32 (v.toNat % 2) := by
  refine ⟨_, exec_keepRunWrite h v, ?_⟩
  have hrun := s.fld_storeReg_keepRun k v
  have hne (o : Nat) (ho : o ≠ 0x000) : (s.storeReg 0x71 k 0x000 v).reg 0x71 k o = s.reg 0x71 k o :=
    s.reg_storeReg_other v (by unfold csrKey; omega)
  have hlt := s.fld_lt Reg.KEEP.CTL_RUN k
  unfold State.keepRunWrite
  dsimp only
  rw [State.bit_eq_decide _ rfl, State.bit_eq_decide _ rfl, hrun]
  by_cases hsame : v.toNat % 2 = s.fld Reg.KEEP.CTL_RUN k
  · rw [if_pos (by rw [hsame]), if_pos hsame]
    exact ⟨hrun, hne _ (by decide)⟩
  · have hbits : ¬ decide (v.toNat % 2 = 1) = decide (s.fld Reg.KEEP.CTL_RUN k = 1) := fun e => by
      have := decide_eq_decide.mp e
      change _ < 2 at hlt
      omega
    rw [if_neg hbits, if_neg hsame, State.reg_setReg_self, wordField_zero,
      State.fld_setReg_other _ _ _ _ _ _ _ (by unfold csrKey; simp)]
    exact ⟨hrun, rfl⟩

theorem keepCoreWfi_spec (k : Fin 8) (s : State) : ∃ t, exec (.keepCoreWfi k) s = .next t ∧
    (s.fld Reg.KEEP.STATUS_RUNNING k = 1 → t.fld Reg.KEEP.STATUS_WFI k = 1) ∧
    (s.fld Reg.KEEP.STATUS_RUNNING k = 0 → t = s) ∧
    ∀ j : Fin 8, j ≠ k → t.fld Reg.KEEP.STATUS_WFI j = s.fld Reg.KEEP.STATUS_WFI j := by
  by_cases hr : s.bit Reg.KEEP.STATUS_RUNNING k = true
  · refine ⟨_, if_pos hr, fun _ => State.fld_setFld_self _ _ _ _ (by decide) (by decide), fun h0 => ?_, fun j hj => ?_⟩
    · rw [State.bit, h0] at hr
      cases hr
    · exact State.fld_setFld_instance _ _ (fun e => hj (Fin.ext e)) (by omega) (by omega) (by decide) (by decide)
  · refine ⟨_, if_neg hr, fun h1 => ?_, fun _ => rfl, fun _ _ => rfl⟩
    exact absurd (by rw [State.bit, h1]; rfl) hr

/-! ## MSI-X allocation (R381) -/

theorem exec_msixAllocationWrite {s : State} {req : Fin 14} {sel : BitVec 10} {fn : Nat} (h : Claims.Hits s req 0x69 sel.toNat 0x000 fn)
    (v : Word) : exec (.msixAllocationWrite req sel v) s = .next (s.msixAllocWrite fn v) := by
  show Host.Outcome.next (s.csrWrite req 0x69 sel.toNat 0x000 v) = _
  rw [State.csrWrite_of_hits h rfl]
  rfl

theorem State.fld_storeReg_msix (s : State) (fn : Nat) (v : Word) :
    (s.storeReg 0x69 fn 0x000 v).fld Reg.PCIE_FN.MSIX_MSIX_BASE fn = v.toNat % 2 ^ 11 ∧
    (s.storeReg 0x69 fn 0x000 v).fld Reg.PCIE_FN.MSIX_MSIX_COUNT fn = v.toNat / 2 ^ 16 % 2 ^ 12 ∧
    (s.storeReg 0x69 fn 0x000 v).fld Reg.PCIE_FN.STATUS_MSIX_EN fn = s.fld Reg.PCIE_FN.STATUS_MSIX_EN fn := by
  obtain ⟨r, hr⟩ : ∃ r, findReg 0x69 0x000 = some r := ⟨_, rfl⟩
  have hfields : ⟨.rw, 10, 0, 0⟩ ∈ r.fields ∧ ⟨.rw, 27, 16, 0⟩ ∈ r.fields := by
    cases hr
    decide
  refine ⟨(State.wordField_storeReg hr hfields.1 s fn v).trans (wordField_zero v 10), State.wordField_storeReg hr hfields.2 s fn v, ?_⟩
  rw [State.fld, State.fld, State.reg_storeReg_other _ _ (by simp [csrKey])]

theorem State.msixAlloc_with_pcie (s : State) (x : Pcie) (fn : Nat) : State.msixAlloc { s with pcie := x } fn =
    tget (s.fld Reg.PCIE_FN.MSIX_MSIX_BASE fn, s.fld Reg.PCIE_FN.MSIX_MSIX_COUNT fn) x.alloc fn := rfl

/-- The window's word stored, and the allocation in effect held where MSI-X is enabled. -/
theorem State.msixAllocWrite_is (s : State) (fn : Nat) (v : Word) : ∃ x : Pcie,
    s.msixAllocWrite fn v = { s.storeReg 0x69 fn 0x000 v with pcie := x } ∧
    x.alloc = if (s.storeReg 0x69 fn 0x000 v).bit Reg.PCIE_FN.STATUS_MSIX_EN fn
      then tins (s.storeReg 0x69 fn 0x000 v).pcie.alloc fn (s.msixAlloc fn) else tdel (s.storeReg 0x69 fn 0x000 v).pcie.alloc fn :=
  ⟨_, rfl, rfl⟩

theorem msixAllocationWrite_spec (req : Fin 14) (sel : BitVec 10) (v : Word) (s : State) (fn : Nat)
    (h : Claims.Hits s req 0x69 sel.toNat 0x000 fn) :
    ∃ t, exec (.msixAllocationWrite req sel v) s = .next t ∧ t.fld Reg.PCIE_FN.MSIX_MSIX_BASE fn = v.toNat % 2 ^ 11 ∧
      t.fld Reg.PCIE_FN.MSIX_MSIX_COUNT fn = v.toNat / 2 ^ 16 % 2 ^ 12 ∧
      t.msixAlloc fn = if s.bit Reg.PCIE_FN.STATUS_MSIX_EN fn then s.msixAlloc fn
        else (v.toNat % 2 ^ 11, v.toNat / 2 ^ 16 % 2 ^ 12) := by
  obtain ⟨hbase, hcount, hen⟩ := s.fld_storeReg_msix fn v
  have hbit : (s.storeReg 0x69 fn 0x000 v).bit Reg.PCIE_FN.STATUS_MSIX_EN fn = s.bit Reg.PCIE_FN.STATUS_MSIX_EN fn := by
    rw [State.bit, State.bit, hen]
  obtain ⟨x, hx, hx'⟩ := s.msixAllocWrite_is fn v
  refine ⟨_, exec_msixAllocationWrite h v, ?_⟩
  have hfld (f : Field) : (s.msixAllocWrite fn v).fld f fn = (s.storeReg 0x69 fn 0x000 v).fld f fn := by
    rw [hx]
    exact State.fld_with_pcie ..
  refine ⟨(hfld _).trans hbase, (hfld _).trans hcount, ?_⟩
  rw [hx, State.msixAlloc_with_pcie, hbase, hcount, hx', hbit]
  by_cases hb : s.bit Reg.PCIE_FN.STATUS_MSIX_EN fn = true
  · rw [if_pos hb, if_pos hb, tget, tfind_tins_self]
    rfl
  · rw [if_neg hb, if_neg hb, tget, tfind_tdel_self]
    rfl

/-! ## PROTO (R308) -/

theorem stillKey_quad {q o : Nat} (hq : q < 512) (ho : o < 0x400) : stillKey (csrKey 0x50 q o) := by
  unfold stillKey csrKey
  omega

theorem exec_protoWrite {s : State} {req : Fin 14} {sel : BitVec 10} {q : Nat} (h : Claims.Hits s req 0x50 sel.toNat 0x000 q) (v : Word) :
    exec (.protoWrite req sel v) s = .next (s.protoWrite q v).macsCheck := by
  show Host.Outcome.next (s.csrWrite req 0x50 sel.toNat 0x000 v) = _
  rw [State.csrWrite_of_hits h rfl]
  rfl

/-- Registers and the journal's FIFOs changed, and nothing else. -/
def State.Noticed (s t : State) : Prop := ∃ r j, t = { s with csr := r, journal := j }

theorem State.Noticed.refl (s : State) : s.Noticed s := ⟨_, _, rfl⟩

theorem State.Noticed.trans {s t u : State} (h : s.Noticed t) (h' : t.Noticed u) : s.Noticed u := by
  obtain ⟨r, j, rfl⟩ := h
  obtain ⟨r', j', rfl⟩ := h'
  exact ⟨r', j', rfl⟩

theorem State.Noticed.foldl {α : Type} {f : State → α → State} (l : List α) (s : State) (h : ∀ s x, State.Noticed s (f s x)) :
    s.Noticed (l.foldl f s) :=
  List.foldlRecOn l f (.refl s) fun t ht x _ => ht.trans (h t x)

theorem State.Noticed.ite {s t u : State} {c : Prop} [Decidable c] (ht : s.Noticed t) (hu : s.Noticed u) :
    s.Noticed (if c then t else u) := by
  split <;> assumption

theorem State.noticed_setFld (s : State) (f : Field) (i v : Nat) : s.Noticed (s.setFld f i v) := ⟨_, _, rfl⟩

theorem State.noticed_post (s : State) (cls inst event sev detail : Nat) : s.Noticed (s.post cls inst event sev detail) :=
  s.post_is cls inst event sev detail

theorem State.noticed_macDown (s : State) (m : Nat) : s.Noticed (s.macDown m) := by
  have switch (s : State) (h : Nat) (b : Bool) : s.Noticed (s.macProtectSwitch h b) :=
    .ite (.refl s) ((s.noticed_setFld ..).trans (State.noticed_post ..))
  exact .ite (((s.noticed_setFld ..).trans (State.noticed_post ..)).trans
    (.foldl _ _ fun s h => .ite (.ite (switch ..) (.refl s)) (.refl s))) (.refl s)

theorem State.noticed_macsCheck (s : State) : s.Noticed s.macsCheck :=
  .foldl _ _ fun s m => .ite (s.noticed_macDown m) (.refl s)

/-- A switch begins: the new protocol stands, and the quad has neither lock nor calibration. -/
theorem State.startSwitch_spec (s : State) {q : Nat} (hq : q < 512) (proto : Nat) :
    (s.startSwitch q proto).reg 0x50 q 0x000 = BitVec.ofNat 32 (proto % 8) ∧ (s.startSwitch q proto).fld Reg.LANEQ.STATUS_SWITCHING q = 1 ∧
    (s.startSwitch q proto).fld Reg.LANEQ.STATUS_PLL_LOCK q = 0 ∧ (s.startSwitch q proto).fld Reg.LANEQ.STATUS_CAL_DONE q = 0 := by
  unfold State.startSwitch
  extract_lets s1 s2
  have hs : Stands stillKey s2 ((List.range 4).foldl (fun s k => ((s.setTxState (4 * q + k) 0).rxDown (4 * q + k)).setFld
      Reg.LANE.STATUS_CDR_LOCK (4 * q + k) 0) s2) :=
    .foldl .refl fun _ _ hs => .setFar (.rxDown (.setTxState hs))
  have hreg : s2.reg 0x50 q 0x000 = BitVec.ofNat 32 (proto % 8) := by
    simp only [s2, s1, State.setFld]
    rw [State.reg_setReg_other _ _ (by simp [csrKey]), State.reg_setReg_other _ _ (by simp [csrKey]),
      State.reg_setReg_other _ _ (by simp [csrKey]), State.reg_setReg_self]
  have hfld : s2.fld Reg.LANEQ.STATUS_SWITCHING q = 1 ∧ s2.fld Reg.LANEQ.STATUS_PLL_LOCK q = 0 ∧ s2.fld Reg.LANEQ.STATUS_CAL_DONE q = 0 := by
    simp (disch := decide) only [s2, State.fld_setFld_apart, State.fld_setFld_self]
    decide
  have key {f : Field} (hc : f.cls = 0x50) (ho : f.off < 0x3A4) := hs.fld (i := q) ho (by rw [hc]; exact stillKey_quad hq (by omega))
  rw [hs.reg _ _ _ (by decide) (stillKey_quad hq (by decide)), key rfl (by decide), key rfl (by decide), key rfl (by decide)]
  exact ⟨hreg, hfld⟩

theorem protoWrite_spec (req : Fin 14) (sel : BitVec 10) (v : Word) (s : State) (q : Nat) (h : Claims.Hits s req 0x50 sel.toNat 0x000 q) :
    ∃ t, exec (.protoWrite req sel v) s = .next t ∧ t.fld Reg.LANEQ.STATUS_SWITCHING q = 1 ∧
      (s.fld Reg.LANEQ.STATUS_SWITCHING q = 0 → (t.reg 0x50 q 0x000).toNat = v.toNat % 8 ∧ t.fld Reg.LANEQ.STATUS_PLL_LOCK q = 0 ∧
        t.fld Reg.LANEQ.STATUS_CAL_DONE q = 0) ∧
      (s.fld Reg.LANEQ.STATUS_SWITCHING q = 1 → t.reg 0x50 q 0x000 = s.reg 0x50 q 0x000 ∧
        tget none t.lanes.held q = some (v.toNat % 8) ∧ t.fld Reg.LANEQ.STATUS_HELD q = 1) := by
  have hq := lt_of_hits h
  have hs : Stands stillKey (s.protoWrite q v) (s.protoWrite q v).macsCheck := .macsCheck .refl
  obtain ⟨r, j, hm⟩ := (s.protoWrite q v).noticed_macsCheck
  have hlanes : (s.protoWrite q v).macsCheck.lanes = (s.protoWrite q v).lanes := by rw [hm]
  have key {f : Field} (hc : f.cls = 0x50) (ho : f.off < 0x3A4) := hs.fld (i := q) ho (by rw [hc]; exact stillKey_quad hq (by omega))
  refine ⟨_, exec_protoWrite h v, ?_⟩
  rw [key rfl (by decide), key rfl (by decide), key rfl (by decide), key rfl (by decide),
    hs.reg _ _ _ (by decide) (stillKey_quad hq (by decide)), hlanes]
  have hbit := s.bit_eq_decide (f := Reg.LANEQ.STATUS_SWITCHING) (i := q) rfl
  unfold State.protoWrite
  by_cases hsw : s.fld Reg.LANEQ.STATUS_SWITCHING q = 1
  · rw [if_pos (by rw [hbit]; exact decide_eq_true hsw), wordField_zero]
    refine ⟨?_, fun h0 => by omega, fun _ => ⟨?_, ?_, State.fld_setFld_self _ _ _ _ (by decide) (by decide)⟩⟩
    · rw [State.fld_setFld_apart (by decide)]
      exact hsw
    · exact State.reg_setReg_other _ _ (by simp [csrKey])
    · show tget none (tset none s.lanes.held q (some _)) q = _
      rw [tget_tset_self]
      rfl
  · obtain ⟨hreg, hswitch, hlock, hcal⟩ := s.startSwitch_spec hq (wordField v 2 0)
    rw [if_neg (by rw [hbit]; simpa using hsw)]
    refine ⟨hswitch, fun _ => ⟨?_, hlock, hcal⟩, fun h1 => absurd h1 hsw⟩
    rw [hreg, BitVec.toNat_ofNat, wordField_zero]
    omega

/-! ## The trace port (R407) -/

/-- A packet that fits a FIFO with nothing lost joins it, and no register but the level changes. -/
theorem State.tracePush_fits {s : State} {payload : List Nat} (hl : s.observe.lost = 0)
    (hroom : fifoWords s.observe.fifo + (payload.length + 1) ≤ 2048) (type : Nat) :
    (s.tracePush type payload).observe = { s.observe with fifo := s.observe.fifo ++ [(type + payload.length * 16) :: payload] } ∧
    (s.tracePush type payload).fld Reg.TRACE.CTL_EN 0 = s.fld Reg.TRACE.CTL_EN 0 := by
  unfold State.tracePush
  dsimp only
  rw [if_pos ⟨by omega, hl⟩]
  exact ⟨rfl, State.fld_setFld_apart (by decide) ..⟩

theorem exec_mark {s : State} {req : Fin 14} (h : Claims.Hits s req 0x79 0 0x008 0) (v : Word) : exec (.mark req v) s =
    .next (if s.traceOn 3 then s.tracePush 4 (halves [v, loWord s.time.tcnt.toNat, hiWord s.time.tcnt.toNat]) else s) := by
  show Host.Outcome.next (s.csrWrite req 0x79 0 0x008 v) = _
  rw [State.csrWrite_of_hits h rfl]
  rfl

theorem mark_spec (req : Fin 14) (v : Word) (s : State) (h : Claims.Hits s req 0x79 0 0x008 0) (hl : s.observe.lost = 0)
    (hroom : fifoWords s.observe.fifo + 7 ≤ 2048) : ∃ t, exec (.mark req v) s = .next t ∧
      t.observe.fifo = s.observe.fifo ++ (if s.traceOn 3 then
        [(4 + 6 * 16) :: halves [v, loWord s.time.tcnt.toNat, hiWord s.time.tcnt.toNat]] else []) := by
  refine ⟨_, exec_mark h v, ?_⟩
  split
  · rw [(State.tracePush_fits (payload := halves [v, _, _]) hl hroom 4).1]
    rfl
  · exact (List.append_nil _).symm

theorem exec_traceEnable {s : State} {req : Fin 14} (h : Claims.Hits s req 0x79 0 0x000 0) (v : Word) : exec (.traceEnable req v) s =
    .next (if (s.storeReg 0x79 0 0x000 v).bit Reg.TRACE.CTL_EN 0 && !s.bit Reg.TRACE.CTL_EN 0 then (s.storeReg 0x79 0 0x000 v).traceSync
      else s.storeReg 0x79 0 0x000 v) := by
  show Host.Outcome.next (s.csrWrite req 0x79 0 0x000 v) = _
  rw [State.csrWrite_of_hits h rfl]
  rfl

theorem State.fld_storeReg_traceEn (s : State) (v : Word) : (s.storeReg 0x79 0 0x000 v).fld Reg.TRACE.CTL_EN 0 = v.toNat % 2 := by
  obtain ⟨r, hr⟩ : ∃ r, findReg 0x79 0x000 = some r := ⟨_, rfl⟩
  have hf : ⟨.rw, 0, 0, 0⟩ ∈ r.fields := by
    cases hr
    decide
  exact (State.wordField_storeReg hr hf s 0 v).trans (wordField_zero v 0)

/-- A SYNC with room in the FIFO: the packet joins, and EN stays. -/
theorem State.traceSync_spec {s : State} (hl : s.observe.lost = 0) (hroom : fifoWords s.observe.fifo + 9 ≤ 2048) :
    s.traceSync.fld Reg.TRACE.CTL_EN 0 = s.fld Reg.TRACE.CTL_EN 0 ∧ s.traceSync.observe.fifo = s.observe.fifo ++
      [(15 + 8 * 16) :: halves [loWord s.time.tcnt.toNat, hiWord s.time.tcnt.toNat, loWord s.devclk.toNat, hiWord s.devclk.toNat]] := by
  obtain ⟨hobs, hen⟩ := State.tracePush_fits
    (payload := halves [loWord s.time.tcnt.toNat, hiWord s.time.tcnt.toNat, loWord s.devclk.toNat, hiWord s.devclk.toNat]) hl hroom 15
  exact ⟨hen, congrArg Observe.fifo hobs⟩

theorem traceEnable_spec (req : Fin 14) (v : Word) (s : State) (h : Claims.Hits s req 0x79 0 0x000 0) (hl : s.observe.lost = 0)
    (hroom : fifoWords s.observe.fifo + 9 ≤ 2048) :
    ∃ t, exec (.traceEnable req v) s = .next t ∧ t.fld Reg.TRACE.CTL_EN 0 = v.toNat % 2 ∧
      t.observe.fifo = s.observe.fifo ++ (if v.toNat % 2 = 1 ∧ s.fld Reg.TRACE.CTL_EN 0 = 0 then
        [(15 + 8 * 16) :: halves [loWord s.time.tcnt.toNat, hiWord s.time.tcnt.toNat, loWord s.devclk.toNat,
          hiWord s.devclk.toNat]] else []) := by
  refine ⟨_, exec_traceEnable h v, ?_⟩
  have hen := s.fld_storeReg_traceEn v
  have hlt := s.fld_lt Reg.TRACE.CTL_EN 0
  change _ < 2 at hlt
  obtain ⟨r, hr⟩ := s.storeReg_is 0x79 0 0x000 v
  rw [State.bit_eq_decide _ rfl, State.bit_eq_decide _ rfl, hen]
  by_cases hrise : v.toNat % 2 = 1 ∧ s.fld Reg.TRACE.CTL_EN 0 = 0
  · obtain ⟨hfld, hfifo⟩ := State.traceSync_spec (s := s.storeReg 0x79 0 0x000 v) (by rw [hr]; exact hl) (by rw [hr]; exact hroom)
    rw [if_pos (by simp [hrise]), if_pos hrise, hfld, hen, hfifo, hr]
    exact ⟨rfl, rfl⟩
  · rw [if_neg (by simp; omega), if_neg hrise, List.append_nil, hen, hr]
    exact ⟨rfl, rfl⟩

/-- Settles O49: each register with the lemma that says what its access leaves. -/
theorem registersThatAct : Obligations.RegistersThatAct :=
  ⟨creditLoRead_spec, cntSelWrite_spec, cntClr_spec, modeReq_spec, faultClear_spec, bootPush_spec, softReset_spec, keepRunWrite_spec,
    keepCoreWfi_spec, msixAllocationWrite_spec, protoWrite_spec, mark_spec, traceEnable_spec⟩

/-! ## A transition's end (R56, R59) -/

/-- What the commands of bring-up show at SYS: MODE_RESULT, RAISE_STATUS, BOOT_STATUS. -/
theorem Stands.shown {s₀ s : State} (hs : Stands bringUpKey s₀ s) {f : Field} (hc : f.cls = 0) (h : 0x008 ≤ f.off) (h' : f.off ≤ 0x010) :
    s.fld f 0 = s₀.fld f 0 :=
  hs.fld (by omega) (by unfold bringUpKey csrKey; omega)

theorem State.enterMode_spec (s : State) (m : Mode) : (s.enterMode m).modes.mode = m ∧ (s.enterMode m).modes.target = none ∧
    (s.enterMode m).fld Reg.SYS.MODE_RESULT_RESULT 0 = s.fld Reg.SYS.MODE_RESULT_RESULT 0 := by
  unfold State.enterMode
  extract_lets _ x r _ u
  have hu : u.modes = x ∧ u.csr = s.csr := by
    simp only [u]
    split <;> exact ⟨rfl, rfl⟩
  obtain ⟨hm, hc⟩ := hu
  have hx : x.mode = m ∧ x.target = none := ⟨rfl, rfl⟩
  have hf : u.fld Reg.SYS.MODE_RESULT_RESULT 0 = s.fld Reg.SYS.MODE_RESULT_RESULT 0 := by
    rw [State.fld, State.fld, State.reg_congr hc]
  clear_value x u
  subst hm
  split
  · simp (disch := decide) only [State.fld_setFld_other]
    exact ⟨hx.1, hx.2, hf⟩
  · exact ⟨hx.1, hx.2, hf⟩

/-- A decision still open is closed with another code, and its request gets its event. -/
theorem State.close_spec {s u t : State} {code : Nat} (hc : code < 4)
    (hu : u = if s.fld Reg.SYS.MODE_RESULT_RESULT 0 = 3 then s.setFld Reg.SYS.MODE_RESULT_RESULT 0 code else s)
    (ht : Stands bringUpKey u t) :
    t.modes = s.modes ∧ (s.fld Reg.SYS.MODE_RESULT_RESULT 0 = 3 → t.fld Reg.SYS.MODE_RESULT_RESULT 0 = code) := by
  refine ⟨ht.modes.trans (by rw [hu]; split <;> rfl), fun h => ?_⟩
  rw [ht.shown rfl (by decide) (by decide), hu, if_pos h, State.fld_setFld_self _ _ _ _ (by decide) (by decide)]
  exact Nat.mod_eq_of_lt hc

theorem State.refuseBanked_spec (s : State) (op : Option (BitVec 16)) : (s.refuseBanked op).modes = s.modes ∧
    (s.fld Reg.SYS.MODE_RESULT_RESULT 0 = 3 → (s.refuseBanked op).fld Reg.SYS.MODE_RESULT_RESULT 0 = 2) := by
  unfold State.refuseBanked
  extract_lets u
  refine State.close_spec (u := u) (by decide) rfl ?_
  split
  · exact .endOp .refl
  · exact .refl

/-- A transition into Banked that a fence ends: Mending from the mode it left, and the request refused. -/
theorem State.abandonBanked_spec (s : State) (cause : Nat) : (s.abandonBanked cause).modes.mode = .mending ∧
    (s.abandonBanked cause).modes.returnMode = s.modes.mode ∧ (s.abandonBanked cause).modes.target = none ∧
    (s.fld Reg.SYS.MODE_RESULT_RESULT 0 = 3 → (s.abandonBanked cause).fld Reg.SYS.MODE_RESULT_RESULT 0 = 2) := by
  have hs : Stands bringUpKey (s.toMending cause) (s.toMending cause).wakeUp := .wakeUp .refl
  obtain ⟨hm, hr⟩ := (s.toMending cause).wakeUp.refuseBanked_spec s.modes.opId
  unfold State.abandonBanked
  rw [hm, hs.modes]
  refine ⟨rfl, rfl, rfl, fun h => hr ?_⟩
  rw [hs.shown rfl (by decide) (by decide)]
  exact h

/-- The state at the end of a transition that nothing abandons, before a fence that waited makes it Mending. -/
def State.arrived (s : State) (m : Mode) : State :=
  let was := s.modes.mode
  let op := s.modes.opId
  let s := if was = .banked then s.wakeUp else s
  let s := s.enterMode m
  let s := if was = .banked then s.writeAon else s
  let s := if s.fld Reg.SYS.MODE_RESULT_RESULT 0 = 3 then s.setFld Reg.SYS.MODE_RESULT_RESULT 0 1 else s
  match op.bind (fun i => s.findOp i .modeSet) with
  | some o => s.endOp o .ok 0 [w32 m.code]
  | none => s

theorem State.arrived_spec (s : State) (m : Mode) : (s.arrived m).modes.mode = m ∧ (s.arrived m).modes.target = none ∧
    (s.fld Reg.SYS.MODE_RESULT_RESULT 0 = 3 → (s.arrived m).fld Reg.SYS.MODE_RESULT_RESULT 0 = 1) := by
  unfold State.arrived
  extract_lets was op s1 s2 s3 s4
  have h1 : Stands bringUpKey s s1 := .ite (.wakeUp .refl) .refl
  have h3 : Stands bringUpKey s2 s3 := .ite (.writeAon .refl) .refl
  obtain ⟨hmode, htarget, hres⟩ := s1.enterMode_spec m
  suffices h : ∀ t, Stands bringUpKey s4 t → t.modes.mode = m ∧ t.modes.target = none ∧
      (s.fld Reg.SYS.MODE_RESULT_RESULT 0 = 3 → t.fld Reg.SYS.MODE_RESULT_RESULT 0 = 1) by
    split
    · exact h _ (.endOp .refl)
    · exact h _ .refl
  intro t ht
  obtain ⟨hm, hr⟩ := State.close_spec (s := s3) (code := 1) (by decide) rfl ht
  rw [hm, h3.modes]
  refine ⟨hmode, htarget, fun h => hr ?_⟩
  rw [h3.shown rfl (by decide) (by decide), hres, h1.shown rfl (by decide) (by decide), h]

theorem execModeTransitionDone_abandoned {s : State} (ht : s.modes.target = some .banked) (hr : s.transitionReady .banked = true) {c : Nat}
    (hc : s.modes.mendingCause = some c) : exec .modeTransitionDone s = .next (s.abandonBanked c) := by
  show Machine.execModeTransitionDone s = _
  unfold Machine.execModeTransitionDone
  rw [ht]
  dsimp only
  rw [hr, hc]
  rfl

theorem execModeTransitionDone_arrived {s : State} {m : Mode} (ht : s.modes.target = some m) (hr : s.transitionReady m = true)
    (hc : m ≠ .banked ∨ s.modes.mendingCause = none) : exec .modeTransitionDone s =
      .next (match s.mendingAfter with
        | some c => if m = .banked then s.arrived m else (s.arrived m).toMending c
        | none => s.arrived m) := by
  show Machine.execModeTransitionDone s = _
  unfold Machine.execModeTransitionDone
  rw [ht]
  dsimp only
  rw [hr, if_neg (by decide), if_neg (by rintro ⟨h, h'⟩; obtain hc | hc := hc; exacts [hc h, by rw [hc] at h'; cases h'])]
  rfl

theorem modeTransitionDone_spec (s : State) :
    (s.modes.target = none → exec .modeTransitionDone s = .next s) ∧
    (∀ m, s.modes.target = some m → s.transitionReady m = false → exec .modeTransitionDone s = .next s) ∧
    (∀ m, s.modes.target = some m → s.transitionReady m = true → ∃ t, exec .modeTransitionDone s = .next t ∧ t.modes.target = none ∧
      (m = .banked → ∀ c, s.modes.mendingCause = some c → t.modes.mode = .mending ∧ t.modes.returnMode = s.modes.mode) ∧
      (m = .banked → s.modes.mendingCause = none → t.modes.mode = .banked) ∧
      (m ≠ .banked → s.mendingAfter = none → t.modes.mode = m) ∧
      (m ≠ .banked → ∀ c, s.mendingAfter = some c → t.modes.mode = .mending ∧ t.modes.returnMode = m ∧ t.modes.cause = c) ∧
      (m ≠ .banked ∨ s.modes.mendingCause = none → s.fld Reg.SYS.MODE_RESULT_RESULT 0 = 3 →
        t.fld Reg.SYS.MODE_RESULT_RESULT 0 = 1) ∧
      (m = .banked → s.modes.mendingCause.isSome = true → s.fld Reg.SYS.MODE_RESULT_RESULT 0 = 3 →
        t.fld Reg.SYS.MODE_RESULT_RESULT 0 = 2)) := by
  refine ⟨fun h => ?_, fun m h hr => ?_, fun m h hr => ?_⟩
  · show Machine.execModeTransitionDone s = _
    rw [Machine.execModeTransitionDone, h]
  · show Machine.execModeTransitionDone s = _
    rw [Machine.execModeTransitionDone, h]
    dsimp only
    rw [hr]
    rfl
  by_cases hc : m ≠ .banked ∨ s.modes.mendingCause = none
  · obtain ⟨hmode, htarget, hres⟩ := s.arrived_spec m
    have hcause : m = .banked → s.modes.mendingCause = none := fun e => hc.resolve_left fun h => h e
    refine ⟨_, execModeTransitionDone_arrived h hr hc, ?_⟩
    cases ha : s.mendingAfter with
    | none =>
      refine ⟨htarget, fun e c h => ?_, fun e _ => by rw [← e]; exact hmode, fun _ _ => hmode, (fun _ _ h => by cases h), fun _ => hres,
        fun e h => ?_⟩
      all_goals
        rw [hcause e] at h
        cases h
    | some c =>
      dsimp only
      by_cases hb : m = .banked
      · rw [if_pos hb]
        refine ⟨htarget, fun e c h => ?_, fun e _ => by rw [← e]; exact hmode, fun h => absurd hb h, fun h => absurd hb h,
          fun _ => hres, fun e h => ?_⟩
        all_goals
          rw [hcause e] at h
          cases h
      · rw [if_neg hb]
        refine ⟨rfl, fun e => absurd e hb, fun e => absurd e hb, (fun _ h => by cases h), fun _ c' h => ?_, fun _ => hres, fun e => absurd e hb⟩
        cases h
        exact ⟨rfl, hmode, rfl⟩
  · obtain ⟨rfl, hn⟩ := not_or.mp hc |>.imp_left not_not.mp
    obtain ⟨c, hcause⟩ := Option.ne_none_iff_exists'.mp hn
    obtain ⟨hmode, hreturn, htarget, hres⟩ := s.abandonBanked_spec c
    exact ⟨_, execModeTransitionDone_abandoned h hr hcause, htarget, fun _ _ _ => ⟨hmode, hreturn⟩, fun _ h => absurd h hn,
      fun h => absurd rfl h, fun h => absurd rfl h, fun h => absurd h hc, fun _ _ => hres⟩

/-! ## Banked (R65) -/

theorem State.keepAwake_iff (s : State) (k : Nat) : (s.bankedIrq k && s.keepAwake k) = true ↔
    s.modes.target = some .banked ∧ s.workDone = true ∧ s.keepAwake k = true := by
  simp only [State.bankedIrq, State.keepAwake, Bool.and_eq_true, beq_iff_eq]
  tauto

theorem State.anyAwake_iff (s : State) : ((List.range 8).any fun k => s.bankedIrq k && s.keepAwake k) = true ↔
    s.modes.target = some .banked ∧ s.workDone = true ∧ ∃ k, k < 8 ∧ s.keepAwake k = true := by
  simp only [List.any_eq_true, List.mem_range, s.keepAwake_iff]
  constructor
  · rintro ⟨k, hk, ht, hw, ha⟩
    exact ⟨ht, hw, k, hk, ha⟩
  · rintro ⟨ht, hw, k, hk, ha⟩
    exact ⟨k, hk, ht, hw, ha⟩

theorem bankedWfiTimeout_spec (s : State) :
    let due := s.modes.target = some .banked ∧ s.workDone = true ∧ ∃ k, k < 8 ∧ s.keepAwake k = true
    ∃ t, exec .bankedWfiTimeout s = .next t ∧ (due → t.modes.bankedGated = true ∧ t.csr = s.csr) ∧ (¬ due → t = s) := by
  intro due
  by_cases h : due
  · exact ⟨_, if_pos (s.anyAwake_iff.mpr h), fun _ => ⟨rfl, rfl⟩, fun h' => absurd h h'⟩
  · exact ⟨_, if_neg (mt s.anyAwake_iff.mp h), fun h' => absurd h' h, fun _ => rfl⟩

theorem State.banking_iff (s : State) : s.banking = true ↔ s.modes.target = some .banked ∧ s.workDone = true ∧
    (s.modes.bankedGated = true ∨ ∀ k, k < 8 → s.keepAwake k = false) := by
  simp only [State.banking, Bool.and_eq_true, Bool.or_eq_true, beq_iff_eq, Bool.not_eq_true', and_assoc]
  refine and_congr_right fun ht => and_congr_right fun hw => or_congr_right ?_
  rw [← Bool.not_eq_true, s.anyAwake_iff]
  simp [ht, hw]

/-- What entry into Banked waits for. -/
def State.bankedReady (s : State) : Prop :=
  s.modes.target = some .banked ∧ s.domState 44 ≠ 5 ∧ s.workDone = true ∧
    (s.modes.bankedGated = true ∨ ∀ k, k < 8 → s.keepAwake k = false) ∧ (∀ c, c < 128 → s.dmaBusy c = false) ∧
    s.channelsStopped = true ∧ s.vaultStopped = true

theorem State.bankedReady_iff (s : State) : s.bankedReady ↔
    s.banking = true ∧ s.domState 44 ≠ 5 ∧ (!(List.range 128).any s.dmaBusy) = true ∧ s.channelsStopped = true ∧ s.vaultStopped = true := by
  have hdma : (!(List.range 128).any s.dmaBusy) = true ↔ ∀ c, c < 128 → s.dmaBusy c = false := by simp
  rw [State.bankedReady, s.banking_iff, hdma]
  tauto

/-- A stream channel that runs has stopped at its slot start. -/
theorem State.stopped_of_channelsStopped {s : State} (h : s.channelsStopped = true) : ∀ e ∈ s.streams.ch, s.chRuns e.1 = true →
    e.2.waiting = true ∧ e.2.bySlot = true := by
  intro e he hr
  simp only [State.channelsStopped, Bool.and_eq_true, List.all_eq_true, Bool.or_eq_true, Bool.not_eq_true'] at h
  obtain ⟨⟨⟨h | h, -⟩, -⟩, -⟩ := h.1 e he
  · exact absurd (h ▸ hr) (by decide)
  · exact h

theorem State.vault_of_vaultStopped {s : State} (h : s.vaultStopped = true) :
    s.vault.forming = [] ∧ s.vault.formed = [] ∧ s.vault.staged = [] := by
  simpa [State.vaultStopped, and_assoc] using h

/-- A domain whose state the condition names is taken to another state, and no other domain. -/
theorem State.domState_moveDomains (s : State) (p : Nat → Bool) {n d : Nat} (hn : n < 8) (hd : d < 78) :
    (s.moveDomains p n).domState d = if (retained d && p (s.domState d)) = true then n else s.domState d := by
  unfold State.moveDomains
  refine foldl_once (fun t : State => t.domState d) (fun x => if (retained d && p x) = true then n else x) List.nodup_range
    (List.mem_range.mpr hd) (fun t => ?_) (fun t e he hne => ?_) s
  · split
    · exact (State.fld_setFld_self _ _ _ _ (by decide) (by decide)).trans (Nat.mod_eq_of_lt hn)
    · rfl
  · have he := List.mem_range.mp he
    split
    · exact State.fld_setFld_instance _ _ (Ne.symm hne) (by omega) (by omega) (by decide) (by decide)
    · rfl

theorem State.moveDomains_csr (s : State) (p : Nat → Bool) (n : Nat) : ∃ r, s.moveDomains p n = { s with csr := r } :=
  foldl_csr _ s fun s d => by
    split
    · exact ⟨_, rfl⟩
    · exact ⟨s.csr, rfl⟩

/-- One lane taken to IDLE, its clock recovery unlocked (R65). -/
def State.idleLane (s : State) (l : Nat) : State := ((s.setTxState l 0).setRxState l 0).setFld Reg.LANE.STATUS_CDR_LOCK l 0

/-- Registers, the journal's FIFOs and the lanes changed, and nothing else. -/
def State.Idled (s t : State) : Prop := ∃ r j x, t = { s with csr := r, journal := j, lanes := x }

theorem State.Idled.refl (s : State) : s.Idled s := ⟨_, _, _, rfl⟩

theorem State.Idled.trans {s t u : State} (h : s.Idled t) (h' : t.Idled u) : s.Idled u := by
  obtain ⟨r, j, x, rfl⟩ := h
  obtain ⟨r', j', x', rfl⟩ := h'
  exact ⟨r', j', x', rfl⟩

theorem State.Noticed.idled {s t : State} (h : s.Noticed t) : s.Idled t := by
  obtain ⟨r, j, rfl⟩ := h
  exact ⟨r, j, s.lanes, rfl⟩

theorem State.idled_setFld (s : State) (f : Field) (i v : Nat) : s.Idled (s.setFld f i v) := (s.noticed_setFld f i v).idled

theorem State.idled_setAhn (s : State) (l : Nat) (x : AhnLane) : s.Idled (s.setAhn l x) := ⟨_, _, _, rfl⟩

theorem State.idled_setTxState (s : State) (l n : Nat) : s.Idled (s.setTxState l n) := by
  unfold State.setTxState
  extract_lets _ u
  have hu : s.Idled u := by
    simp only [u]
    split <;> exact ⟨_, _, _, rfl⟩
  exact hu.trans ((u.idled_setFld ..).trans ((State.idled_setFld ..).trans (State.idled_setAhn ..)))

theorem State.idled_idleLane (s : State) (l : Nat) : s.Idled (s.idleLane l) :=
  (s.idled_setTxState l 0).trans ((State.idled_setFld ..).trans ((State.idled_setAhn ..).trans (State.idled_setFld ..)))

/-- Fields of two classes. -/
theorem State.fld_setFld_class {f g : Field} {i j : Nat} (s : State) (v : Nat) (h : g.cls ≠ f.cls) (hi : i < 1024) (hj : j < 1024)
    (hf : f.off < 0x400) (hg : g.off < 0x400) : (s.setFld f i v).fld g j = s.fld g j :=
  State.fld_setFld_other _ _ _ _ _ _ fun e => h (csrKey_inj hj hg hi hf e).1

theorem State.setAhn_fld_lane (s : State) {l m : Nat} (x : AhnLane) {f : Field} (hl : l < 48) (hm : m < 48) (hc : f.cls = 0x51)
    (ho : f.off < 0x400) : (s.setAhn l x).fld f m = s.fld f m := by
  unfold State.setAhn
  rw [State.fld_setFld_class _ _ (by simp [hc]) (by omega) (by omega) (by simp; omega) ho,
    State.fld_setFld_class _ _ (by simp [hc]) (by omega) (by omega) (by simp; omega) ho]
  rfl

/-- The lock of another lane's clock recovery. -/
theorem State.idleLane_fld_other (s : State) {l m : Nat} (hl : l < 48) (hm : m < 48) (h : m ≠ l) :
    (s.idleLane l).fld Reg.LANE.STATUS_CDR_LOCK m = s.fld Reg.LANE.STATUS_CDR_LOCK m := by
  unfold State.idleLane State.setRxState State.setTxState
  rw [State.fld_setFld_instance _ _ h (by omega) (by omega) (by decide) (by decide),
    State.setAhn_fld_lane _ _ hl hm rfl (by decide),
    State.fld_setFld_class _ _ (by simp) (by omega) (by omega) (by simp; omega) (by decide),
    State.setAhn_fld_lane _ _ hl hm rfl (by decide),
    State.fld_setFld_instance _ _ h (by omega) (by omega) (by decide) (by decide),
    State.fld_setFld_class _ _ (by simp) (by omega) (by omega) (by simp; omega) (by decide)]
  split <;> rfl

theorem State.idleLanes_fld (s : State) (l : Fin 48) : ((List.range 48).foldl State.idleLane s).fld Reg.LANE.STATUS_CDR_LOCK l = 0 :=
  foldl_once (fun t : State => t.fld Reg.LANE.STATUS_CDR_LOCK l) (fun _ => 0) List.nodup_range (List.mem_range.mpr l.isLt)
    (fun _ => State.fld_setFld_self _ _ _ _ (by decide) (by decide))
    (fun t _ hm h => t.idleLane_fld_other (List.mem_range.mp hm) l.isLt h.symm) s

theorem State.quietPins_fld_lane (s : State) (l : Fin 48) : s.quietPins.fld Reg.LANE.STATUS_CDR_LOCK l = s.fld Reg.LANE.STATUS_CDR_LOCK l := by
  refine foldl_leaves (fun t : State => t.fld Reg.LANE.STATUS_CDR_LOCK l) _ s fun t p hp => ?_
  have hp := List.mem_range.mp hp
  have key (t : State) {f : Field} (v : Nat) (hc : f.cls = 0x62) (ho : f.off < 0x400) :
      (t.setFld f p v).fld Reg.LANE.STATUS_CDR_LOCK l = t.fld Reg.LANE.STATUS_CDR_LOCK l :=
    State.fld_setFld_class _ _ (by simp [hc]) (by omega) (by omega) ho (by decide)
  exact (key _ _ rfl (by decide)).trans ((key _ _ rfl (by decide)).trans ((key _ _ rfl (by decide)).trans (key _ _ rfl (by decide))))

theorem State.moveDomains_fld_lane (s : State) (p : Nat → Bool) (n : Nat) (l : Fin 48) :
    (s.moveDomains p n).fld Reg.LANE.STATUS_CDR_LOCK l = s.fld Reg.LANE.STATUS_CDR_LOCK l := by
  refine foldl_leaves (fun t : State => t.fld Reg.LANE.STATUS_CDR_LOCK l) _ s fun t d hd => ?_
  have hd := List.mem_range.mp hd
  split
  · exact State.fld_setFld_class _ _ (by decide) (by omega) (by omega) (by decide) (by decide)
  · rfl

/-- The links down, the lanes idle and the pins quiet, before the domains go to retention. -/
def State.quieted (s : State) : State := ((List.range 48).foldl State.idleLane ((List.range 24).foldl State.macDown s)).quietPins

theorem State.idled_quieted (s : State) : s.Idled s.quieted :=
  have macs : s.Idled ((List.range 24).foldl State.macDown s) :=
    List.foldlRecOn _ _ (.refl s) fun t ht m _ => ht.trans (t.noticed_macDown m).idled
  have lanes : s.Idled ((List.range 48).foldl State.idleLane ((List.range 24).foldl State.macDown s)) :=
    List.foldlRecOn _ _ macs fun t ht l _ => ht.trans (t.idled_idleLane l)
  List.foldlRecOn _ _ lanes fun _ ht _ _ => ht.trans ((State.idled_setFld ..).trans
    ((State.idled_setFld ..).trans ((State.idled_setFld ..).trans (State.idled_setFld ..))))

theorem State.quieted_stands (s : State) : Stands stillKey s s.quieted :=
  .quietPins (.foldl (.foldl .refl fun _ _ hs => .macDown hs) fun _ _ hs => .setFar (.setRxState (.setTxState hs)))

theorem State.quieted_domState (s : State) {d : Nat} (hd : d < 78) : s.quieted.domState d = s.domState d :=
  s.quieted_stands.fld (by decide) (.inr (.inl (by unfold csrKey; simp; omega)))

/-- A Vault that owes no leaf of the slot it is in. -/
def Vault.stale (v : Vault) : Vault := { v with fresh := [] }

theorem exec_bankedEntry {s : State} (h : s.bankedReady) :
    exec .bankedEntry s = .next ((s.setVault s.vault.stale).quieted.moveDomains (fun st => st == 3 || st == 4) 5) := by
  show execBankedEntry s = _
  rw [execBankedEntry, if_pos (s.bankedReady_iff.mp h)]
  rfl

/-- What the last step of the entry leaves of a state that is quiet. -/
theorem State.toRetention_spec {s u : State} {v : Vault} (hu : (s.setVault v).Idled u) (hdom : ∀ d, d < 78 → u.domState d = s.domState d) :
    (u.moveDomains (fun st => st == 3 || st == 4) 5).mem = s.mem ∧ (u.moveDomains (fun st => st == 3 || st == 4) 5).modes = s.modes ∧
    (u.moveDomains (fun st => st == 3 || st == 4) 5).vault = v ∧
    ∀ d, d < 78 → (u.moveDomains (fun st => st == 3 || st == 4) 5).domState d =
      if retained d = true ∧ (s.domState d = 3 ∨ s.domState d = 4) then 5 else s.domState d := by
  obtain ⟨r, hr⟩ := u.moveDomains_csr (fun st => st == 3 || st == 4) 5
  have hd (d : Nat) (hd : d < 78) := State.domState_moveDomains u (fun st => st == 3 || st == 4) (n := 5) (by decide) hd
  simp only [Bool.and_eq_true, Bool.or_eq_true, beq_iff_eq] at hd
  refine ⟨?_, ?_, ?_, fun d hlt => by rw [hd d hlt, hdom d hlt]⟩
  all_goals
    obtain ⟨_, _, _, rfl⟩ := hu
    rw [hr]
    rfl

theorem bankedEntry_spec (s : State) :
    let ready := s.modes.target = some .banked ∧ s.domState 44 ≠ 5 ∧ s.workDone = true ∧
      (s.modes.bankedGated = true ∨ ∀ k, k < 8 → s.keepAwake k = false) ∧ (∀ c, c < 128 → s.dmaBusy c = false) ∧
      s.channelsStopped = true ∧ s.vaultStopped = true
    (¬ ready → exec .bankedEntry s = .next s) ∧
    (ready → (∀ e ∈ s.streams.ch, s.chRuns e.1 = true → e.2.waiting = true ∧ e.2.bySlot = true) ∧
      ∃ t, exec .bankedEntry s = .next t ∧ t.mem = s.mem ∧ t.modes = s.modes ∧
      (∀ d, d < 78 → t.domState d = if retained d = true ∧ (s.domState d = 3 ∨ s.domState d = 4) then 5 else s.domState d) ∧
      t.vault.forming = [] ∧ t.vault.formed = [] ∧ t.vault.staged = [] ∧
      ∀ l : Fin 48, t.fld Reg.LANE.STATUS_CDR_LOCK l = 0) := by
  refine ⟨fun h => if_neg (mt s.bankedReady_iff.mpr h), fun h => ?_⟩
  obtain ⟨hforming, hformed, hstaged⟩ := State.vault_of_vaultStopped h.2.2.2.2.2.2
  refine ⟨State.stopped_of_channelsStopped h.2.2.2.2.2.1, _, exec_bankedEntry h, ?_⟩
  obtain ⟨hmem, hmodes, hvault, hdom⟩ := State.toRetention_spec (s.setVault s.vault.stale).idled_quieted
    fun d hd => State.quieted_domState _ hd
  refine ⟨hmem, hmodes, hdom, by rw [hvault]; exact hforming, by rw [hvault]; exact hformed, by rw [hvault]; exact hstaged, fun l => ?_⟩
  rw [State.moveDomains_fld_lane, State.quieted, State.quietPins_fld_lane, State.idleLanes_fld]

/-! ## The reset sources and Footing's end (R60, R61, R418) -/

/-- A state with another account of its pins and of Tj shows the same mode, DEVCLK and RESET_CAUSE. -/
theorem State.withPower_shows {r : State} {m : Mode} {d : BitVec 64} {w : Word} (hm : r.modes.mode = m) (hd : r.devclk = d)
    (hc : r.reg 0x02 0 0x00C = w) (p : Power) : ({ r with power := p } : State).modes.mode = m ∧ ({ r with power := p } : State).devclk = d ∧
    ({ r with power := p } : State).reg 0x02 0 0x00C = w :=
  ⟨hm, hd, hc⟩

/-- The same of the Footing that a reset source leads to. -/
theorem State.toFooting_withPower (s : State) (bits : Nat) (p : Power) :
    ({ s.toFooting bits with power := p } : State).modes.mode = .footing ∧ ({ s.toFooting bits with power := p } : State).devclk = s.devclk ∧
    ({ s.toFooting bits with power := p } : State).reg 0x02 0 0x00C = s.reg 0x02 0 0x00C ||| BitVec.ofNat 32 bits :=
  State.withPower_shows (s.toFooting_modes bits) (s.toFooting_devclk bits) (s.toFooting_cause bits) p

theorem resetSources_spec (s : State) :
    (∃ t, exec .resetNLow s = .next t ∧ (s.power.resetN = false → t = s) ∧ (s.power.resetN = true → t.modes.mode = .footing ∧
      t.power.resetN = false ∧ t.devclk = s.devclk ∧ t.reg 0x02 0 0x00C = s.reg 0x02 0 0x00C ||| 2)) ∧
    (∃ t, exec .thermalReset s = .next t ∧ t.modes.mode = .footing ∧ t.power.hot = true ∧ t.devclk = s.devclk ∧
      t.reg 0x02 0 0x00C = s.reg 0x02 0 0x00C ||| 8) ∧
    (∃ t, exec .droopReset s = .next t ∧ t.modes.mode = .footing ∧ t.devclk = s.devclk ∧
      t.reg 0x02 0 0x00C = s.reg 0x02 0 0x00C ||| 16) ∧
    (∃ t, exec .vddIo18Low s = .next t ∧ t.modes.mode = .footing ∧ t.power.ioLow = true ∧ t.devclk = s.devclk ∧
      t.reg 0x02 0 0x00C = s.reg 0x02 0 0x00C) := by
  refine ⟨?_, ?_, ⟨_, rfl, s.toFooting_modes 16, s.toFooting_devclk 16, s.toFooting_cause 16⟩, ?_⟩
  · cases hn : s.power.resetN with
    | true =>
      obtain ⟨hmode, hclk, hcause⟩ := s.toFooting_withPower 2 { (s.toFooting 2).power with resetN := false }
      exact ⟨_, if_pos hn, (fun h => by cases h), fun _ => ⟨hmode, rfl, hclk, hcause⟩⟩
    | false => exact ⟨s, if_neg (by simp [hn]), fun _ => rfl, fun h => by cases h⟩
  · obtain ⟨hmode, hclk, hcause⟩ := s.toFooting_withPower 8 { (s.toFooting 8).power with hot := true }
    exact ⟨_, rfl, hmode, rfl, hclk, hcause⟩
  · obtain ⟨hmode, hclk, hcause⟩ := s.toFooting_withPower 0 { (s.toFooting 0).power with ioLow := true }
    exact ⟨_, rfl, hmode, rfl, hclk, hcause.trans (BitVec.or_zero ..)⟩

theorem footingEnd_spec (pins : BitVec 3) (s : State) :
    (∃ t, exec (.resetNRise pins) s = .next t ∧ (s.power.resetN = true → t = s) ∧ (s.power.resetN = false →
      t.power.resetN = true ∧ t.power.ioLow = false ∧ t.modes = s.modes ∧
      (s.modes.mode = .footing → s.power.hot = false → t.power.bootPins = pins ∧ t.power.fusing = true))) ∧
    (let due := s.modes.mode = .footing ∧ s.power.resetN = true ∧ s.power.ioLow = false ∧ s.power.fusing = false ∧
       s.power.footAt + 1000 ≤ s.devclk.toNat
     ∃ t, exec (.internalFootingEnd pins) s = .next t ∧ (¬ due → t = s) ∧
       (due → t.power.hot = false ∧ t.power.bootPins = pins ∧ t.power.fusing = true)) := by
  refine ⟨?_, ?_⟩
  · cases hn : s.power.resetN with
    | true => exact ⟨s, if_pos hn, fun _ => rfl, fun h => by cases h⟩
    | false =>
      refine ⟨_, if_neg (by simp [hn]), (fun h => by cases h), fun _ => ?_⟩
      by_cases hb : s.modes.mode = .footing ∧ (!s.power.hot) = true
      · rw [if_pos hb]
        exact ⟨rfl, rfl, rfl, fun _ _ => ⟨rfl, rfl⟩⟩
      · rw [if_neg hb]
        exact ⟨rfl, rfl, rfl, fun hm hh => absurd ⟨hm, by rw [hh]; rfl⟩ hb⟩
  · intro due
    have hdue : due ↔ s.modes.mode = .footing ∧ s.power.resetN = true ∧ (!s.power.ioLow) = true ∧ (!s.power.fusing) = true ∧
        s.power.footAt + 1000 ≤ s.devclk.toNat := by
      simp only [due, Bool.not_eq_true']
    by_cases h : due
    · exact ⟨_, if_pos (hdue.mp h), fun h' => absurd h h', fun _ => ⟨rfl, rfl, rfl⟩⟩
    · exact ⟨s, if_neg (mt hdue.mpr h), fun _ => rfl, fun h' => absurd h' h⟩

/-! ## Bedding (R61) -/

theorem State.bedded_fields (s : State) : s.bedded.modes.mode = .raising ∧ s.bedded.mem = State.reset.mem ∧ s.bedded.host = s.host ∧
    s.bedded.devclk = s.devclk := by
  unfold State.bedded
  split <;> exact ⟨rfl, rfl, rfl, rfl⟩

/-- Bedding's registers: those of a reset, with RESET_CAUSE, BOOT_MODE and BIST_RAN, and the PCIE domain off while PERST_N is low. -/
theorem State.bedded_is (s : State) : ∃ u : State,
    (s.bedded =
      let r := ((u.setReg 0x02 0 0x00C (s.reg 0x02 0 0x00C)).setFld Reg.SYS.BOOT_STATUS_BOOT_MODE 0 (s.power.bootPins.toNat % 4)).setFld
        Reg.SYS.BOOT_STATUS_BIST_RAN 0 (s.power.bootPins.toNat / 4)
      if s.pcie.perstN then r else r.setFld Reg.PWR.STATUS_STATE 61 0) ∧ u.csr = State.reset.csr := by
  unfold State.bedded
  exact ⟨_, rfl, rfl⟩

theorem State.bedded_spec (s : State) : s.bedded.fld Reg.SYS.BOOT_STATUS_BOOT_MODE 0 = s.power.bootPins.toNat % 4 ∧
    s.bedded.fld Reg.SYS.BOOT_STATUS_BIST_FAIL 0 = 0 ∧ s.bedded.reg 0x02 0 0x00C = s.reg 0x02 0 0x00C := by
  obtain ⟨u, hb, hu⟩ := s.bedded_is
  rw [hb]
  extract_lets r
  have hfail : u.fld Reg.SYS.BOOT_STATUS_BIST_FAIL 0 = 0 := by
    rw [State.fld, State.reg_congr hu]
    rfl
  have hr : r.fld Reg.SYS.BOOT_STATUS_BOOT_MODE 0 = s.power.bootPins.toNat % 4 ∧ r.fld Reg.SYS.BOOT_STATUS_BIST_FAIL 0 = 0 ∧
      r.reg 0x02 0 0x00C = s.reg 0x02 0 0x00C := by
    refine ⟨?_, ?_, ?_⟩
    · simp (disch := decide) only [r, State.fld_setFld_apart, State.fld_setFld_self]
      exact Nat.mod_mod ..
    · simp (disch := decide) only [r, State.fld_setFld_apart, State.fld_setReg_other]
      exact hfail
    · exact (State.reg_setReg_other _ _ (by decide)).trans ((State.reg_setReg_other _ _ (by decide)).trans (State.reg_setReg_self ..))
  clear_value r
  split
  · exact hr
  · rw [State.fld_setFld_other _ _ _ _ _ _ (by decide), State.fld_setFld_other _ _ _ _ _ _ (by decide)]
    exact ⟨hr.1, hr.2.1, (State.reg_setReg_other _ _ (by decide)).trans hr.2.2⟩

/-- What the repairs and fences of BIST leave: the modes, the registers of bring-up, both memories and DEVCLK. -/
structure BistKeeps (s t : State) : Prop where
  stands : Stands bringUpKey s t
  mem : t.mem = s.mem
  host : t.host = s.host
  devclk : t.devclk = s.devclk

namespace BistKeeps

variable {s t u : State}

theorem refl : BistKeeps s s := ⟨.refl, rfl, rfl, rfl⟩

theorem trans (h : BistKeeps s t) (h' : BistKeeps t u) : BistKeeps s u :=
  ⟨h.stands.trans h'.stands, h'.mem.trans h.mem, h'.host.trans h.host, h'.devclk.trans h.devclk⟩

theorem setReg {cls i off : Nat} {w : Word} (h : ¬ bringUpKey (csrKey cls i off)) : BistKeeps s (s.setReg cls i off w) :=
  ⟨.setReg .refl h, rfl, rfl, rfl⟩

theorem bistRepair {a : Nat} {column : Bool} : BistKeeps s (s.bistRepair a column) := by
  unfold State.bistRepair
  split
  · exact ⟨.update (.setMemReg .refl), rfl, rfl, rfl⟩
  · exact refl

theorem syncFences : BistKeeps s s.syncFences :=
  have sys : BistKeeps s (s.setFld Reg.SYS.MENDING_CAUSE_FENCED_COUNT 0 s.fences.length) := setReg (by unfold bringUpKey; decide)
  List.foldlRecOn _ _ sys fun t ht d _ => ht.trans (by
    dsimp only
    split
    · exact refl
    · exact setReg (not_bringUpKey_of_pwr_le (by decide) _ _))

theorem addFence {cls inst : Nat} {o : FenceOrigin} {ph : FencePhase} : BistKeeps s (s.addFence cls inst o ph) := by
  unfold State.addFence
  extract_lets _ f u v
  have hu : BistKeeps s u := ⟨.update .refl, rfl, rfl, rfl⟩
  have hv : BistKeeps u v := ((setReg (by unfold bringUpKey; decide)).trans (setReg (by unfold bringUpKey; decide))).trans
    (setReg (by unfold bringUpKey; decide))
  exact (hu.trans hv).trans syncFences

theorem setNiFence {ni d : Nat} {b : Bool} : BistKeeps s (s.setNiFence ni d b) := setReg (not_bringUpKey_of_pwr_le (by decide) _ _)

theorem setNiFences {l : List Nat} {d : Nat} : BistKeeps s (l.foldl (fun s ni => s.setNiFence ni d true) s) :=
  List.foldlRecOn _ _ refl fun _ ht _ _ => ht.trans setNiFence

theorem fencePort {d : Nat} : BistKeeps s (
    let s := s.setPort d { Port.reset with fenced := true, drained := true }
    { s with mortar := { s.mortar with fencers := tset [] s.mortar.fencers d [0] } }) := ⟨.update .refl, rfl, rfl, rfl⟩

theorem bistFence {cls inst : Nat} : BistKeeps s (s.bistFence cls inst) := by
  unfold State.bistFence
  split
  · split
    · exact (addFence.trans setNiFences).trans fencePort
    · exact addFence
  · exact refl

end BistKeeps

/-- What Bedding leaves whatever its BIST repaired and fenced. -/
theorem BistKeeps.raised {s t : State} (h : BistKeeps s.bedded t) : t.devclk = s.devclk ∧ t.host = s.host ∧ t.modes.mode = .raising ∧
    t.mem = State.reset.mem ∧ t.fld Reg.SYS.BOOT_STATUS_BOOT_MODE 0 = s.power.bootPins.toNat % 4 ∧
    t.reg 0x02 0 0x00C = s.reg 0x02 0 0x00C ∧ t.fld Reg.SYS.BOOT_STATUS_BIST_FAIL 0 = 0 := by
  obtain ⟨hmode, hmem, hhost, hclk⟩ := s.bedded_fields
  obtain ⟨hboot, hfail, hcause⟩ := s.bedded_spec
  exact ⟨h.devclk.trans hclk, h.host.trans hhost, (congrArg ModeCtl.mode h.stands.modes).trans hmode, h.mem.trans hmem,
    (h.stands.shown rfl (by decide) (by decide)).trans hboot,
    (h.stands.reg _ _ _ (by decide) (by unfold bringUpKey; decide)).trans hcause, (h.stands.shown rfl (by decide) (by decide)).trans hfail⟩

/-- The device out of Bedding, as its BIST repaired it. -/
def State.bistRepaired (s : State) (found : BistFound) : State :=
  if 4 ≤ s.power.bootPins.toNat then found.repairs.foldl (fun s x => s.bistRepair x.1.toNat x.2) s.bedded else s.bedded

theorem State.bistRepaired_keeps (s : State) (found : BistFound) : BistKeeps s.bedded (s.bistRepaired found) := by
  unfold State.bistRepaired
  split
  · exact List.foldlRecOn _ _ .refl fun t ht _ _ => ht.trans .bistRepair
  · exact .refl

theorem exec_beddingDone {s : State} (hm : s.modes.mode = .bedding) (hf : s.fld Reg.SYS.BOOT_STATUS_BIST_FAIL 0 = 0) (found : BistFound)
    (coreFail : Bool) : exec (.beddingDone found coreFail) s = .next (
      if 4 ≤ s.power.bootPins.toNat ∧ coreFail = true then s.setFld Reg.SYS.BOOT_STATUS_BIST_FAIL 0 1
      else if 4 ≤ s.power.bootPins.toNat ∧ found.failed ≠ [] then
        (found.failed.foldl (fun s x => s.bistFence x.1.toNat x.2.toNat) (s.bistRepaired found)).setFld Reg.SYS.BOOT_STATUS_BIST_FAIL 0 1
      else s.bistRepaired found) := by
  show execBeddingDone found coreFail s = _
  unfold execBeddingDone
  rw [if_neg (by simp [hm, State.bit, hf])]
  simp only [State.bistRepaired, Bool.and_eq_true, decide_eq_true_eq, Bool.not_eq_true', List.isEmpty_eq_false_iff]
  split
  · rfl
  · split <;> rfl

theorem beddingDone_spec (found : BistFound) (coreFail : Bool) (s : State) :
    let bist := 4 ≤ s.power.bootPins.toNat
    (s.modes.mode ≠ .bedding → exec (.beddingDone found coreFail) s = .next s) ∧
    (s.modes.mode = .bedding → s.fld Reg.SYS.BOOT_STATUS_BIST_FAIL 0 = 0 →
      ∃ t, exec (.beddingDone found coreFail) s = .next t ∧ t.devclk = s.devclk ∧ t.host = s.host ∧
        (bist → coreFail = true → t.modes.mode = .bedding ∧ t.fld Reg.SYS.BOOT_STATUS_BIST_FAIL 0 = 1) ∧
        (¬ bist ∨ coreFail = false → t.modes.mode = .raising ∧ t.mem = State.reset.mem ∧
          t.fld Reg.SYS.BOOT_STATUS_BOOT_MODE 0 = s.power.bootPins.toNat % 4 ∧ t.reg 0x02 0 0x00C = s.reg 0x02 0 0x00C ∧
          t.fld Reg.SYS.BOOT_STATUS_BIST_FAIL 0 = if bist ∧ found.failed ≠ [] then 1 else 0)) := by
  refine ⟨fun h => if_pos (.inl h), fun hm hf => ⟨_, exec_beddingDone hm hf found coreFail, ?_⟩⟩
  by_cases hcore : 4 ≤ s.power.bootPins.toNat ∧ coreFail = true
  · rw [if_pos hcore]
    refine ⟨rfl, rfl, fun _ _ => ⟨hm, State.fld_setFld_self _ _ _ _ (by decide) (by decide)⟩, fun h => ?_⟩
    obtain h | h := h
    · exact absurd hcore.1 h
    · exact absurd (hcore.2.symm.trans h) (by decide)
  rw [if_neg hcore]
  by_cases hfail : 4 ≤ s.power.bootPins.toNat ∧ found.failed ≠ []
  · have hk : BistKeeps s.bedded (found.failed.foldl (fun s x => s.bistFence x.1.toNat x.2.toNat) (s.bistRepaired found)) :=
      List.foldlRecOn _ _ (s.bistRepaired_keeps found) fun t ht _ _ => ht.trans .bistFence
    obtain ⟨hclk, hhost, hmode, hmem, hboot, hcause, -⟩ := hk.raised
    rw [if_pos hfail, if_pos hfail]
    exact ⟨hclk, hhost, fun h h' => absurd ⟨h, h'⟩ hcore, fun _ => ⟨hmode, hmem, (State.fld_setFld_apart (by decide) ..).trans hboot,
      (State.reg_setReg_other _ _ (by decide)).trans hcause, State.fld_setFld_self _ _ _ _ (by decide) (by decide)⟩⟩
  · obtain ⟨hclk, hhost, hmode, hmem, hboot, hcause, hbist⟩ := (s.bistRepaired_keeps found).raised
    rw [if_neg hfail, if_neg hfail]
    exact ⟨hclk, hhost, fun h h' => absurd ⟨h, h'⟩ hcore, fun _ => ⟨hmode, hmem, hboot, hcause, hbist⟩⟩

/-! ## The boot ROM (R62) -/

/-- The result field of the boot ROM for an SPI slot. -/
def slotField (k : Nat) : Field := if k = 0 then Reg.SYS.BOOT_STATUS_SLOT_A_RESULT else Reg.SYS.BOOT_STATUS_SLOT_B_RESULT

theorem slotField_eq (k : Nat) : slotField k = Reg.SYS.BOOT_STATUS_SLOT_A_RESULT ∨ slotField k = Reg.SYS.BOOT_STATUS_SLOT_B_RESULT := by
  unfold slotField
  split
  · exact .inl rfl
  · exact .inr rfl

/-- A slot's result shown in its field, with no other field of bring-up changed. -/
theorem State.fld_setFld_slot (s : State) (k : Nat) {r : Nat} (hr : r < 8) : (s.setFld (slotField k) 0 r).fld (slotField k) 0 = r ∧
    (s.setFld (slotField k) 0 r).fld Reg.SYS.RAISE_STATUS_DVORYS_UP 0 = s.fld Reg.SYS.RAISE_STATUS_DVORYS_UP 0 := by
  obtain h | h := slotField_eq k <;>
    · rw [h, State.fld_setFld_self _ _ _ _ (by decide) (by decide), State.fld_setFld_apart (by decide)]
      exact ⟨Nat.mod_eq_of_lt hr, rfl⟩

theorem State.bootSlotCheck_spec (s : State) (k : Nat) : (s.bootSlotCheck k).fld (slotField k) 0 = imageResult 0 (s.spiSlot k) ∧
    (imageResult 0 (s.spiSlot k) = 1 → (s.bootSlotCheck k).fld Reg.SYS.RAISE_STATUS_DVORYS_UP 0 = 1 ∧
      (s.bootSlotCheck k).fld Reg.DVORYS.PAIR_STATUS_ROLE 0 = 2 ∧ (s.bootSlotCheck k).fld Reg.DVORYS.PAIR_STATUS_ROLE 1 = 1) ∧
    (imageResult 0 (s.spiSlot k) ≠ 1 →
      (s.bootSlotCheck k).fld Reg.SYS.RAISE_STATUS_DVORYS_UP 0 = s.fld Reg.SYS.RAISE_STATUS_DVORYS_UP 0) := by
  unfold State.bootSlotCheck
  extract_lets l u r v
  have hu : Stands bringUpKey s u := .writeMem .refl
  obtain ⟨hres, hup⟩ := u.fld_setFld_slot k (imageResult_lt 0 l)
  rw [hu.shown rfl (by decide) (by decide)] at hup
  change v.fld _ 0 = r at hres
  change v.fld _ 0 = _ at hup
  by_cases h1 : r = 1
  · rw [if_pos h1]
    obtain ⟨hd, -, h0, h1'⟩ := v.dvorysUp_spec k (imgVersion l) false
    refine ⟨(v.dvorysUp_fld _ _ _ ?_).trans hres, fun _ => ⟨hd, h0, h1'⟩, fun h => absurd h1 h⟩
    obtain h | h := slotField_eq k
    · exact .inl h
    · exact .inr (.inl h)
  · rw [if_neg h1]
    refine ⟨?_, fun h => absurd h h1, fun _ => ?_⟩
    all_goals split
    · refine (State.fld_setFld_apart ?_ ..).trans hres
      obtain h | h := slotField_eq k <;> rw [h] <;> decide
    · exact hres
    · exact (State.fld_setFld_apart (by decide) ..).trans hup
    · exact hup

theorem bootImageCheck_spec (src : Fin 3) (s : State) (hb : s.booting = true) (hw : s.fld Reg.SYS.BOOT_STATUS_WAITING_HOST 0 = 0) :
    ∃ t, exec (.bootImageCheck src) s = .next t ∧
      (s.bootSources = [] → src = 2 → t.fld Reg.SYS.BOOT_STATUS_WAITING_HOST 0 = 1) ∧
      (∀ k l, s.bootSources = k :: l → (k ≠ src.val → t = s) ∧ (k = src.val →
        let r := imageResult 0 (s.spiSlot k)
        t.fld (if k = 0 then Reg.SYS.BOOT_STATUS_SLOT_A_RESULT else Reg.SYS.BOOT_STATUS_SLOT_B_RESULT) 0 = r ∧
        (r = 1 → t.fld Reg.SYS.RAISE_STATUS_DVORYS_UP 0 = 1 ∧ t.fld Reg.DVORYS.PAIR_STATUS_ROLE 0 = 2 ∧
          t.fld Reg.DVORYS.PAIR_STATUS_ROLE 1 = 1) ∧
        (r ≠ 1 → t.fld Reg.SYS.RAISE_STATUS_DVORYS_UP 0 = s.fld Reg.SYS.RAISE_STATUS_DVORYS_UP 0))) := by
  have hgo : ¬ ((!s.booting) = true ∨ s.bit Reg.SYS.BOOT_STATUS_WAITING_HOST 0 = true) := by
    simp [hb, State.bit, hw]
  have he : exec (.bootImageCheck src) s = match s.bootSources with
      | k :: _ => if k = src.val then .next (s.bootSlotCheck k) else .next s
      | [] => if src = 2 then .next (s.setFld Reg.SYS.BOOT_STATUS_WAITING_HOST 0 1) else .next s := if_neg hgo
  rw [he]
  cases hs : s.bootSources with
  | nil =>
    by_cases h2 : src = 2
    · exact ⟨_, if_pos h2, fun _ _ => State.fld_setFld_self _ _ _ _ (by decide) (by decide), fun _ _ h => by cases h⟩
    · exact ⟨_, if_neg h2, fun _ h => absurd h h2, fun _ _ h => by cases h⟩
  | cons k l =>
    by_cases hk : k = src.val
    · refine ⟨_, if_pos hk, (fun h => by cases h), fun _ _ h => ?_⟩
      cases h
      exact ⟨fun h => absurd hk h, fun _ => s.bootSlotCheck_spec k⟩
    · refine ⟨_, if_neg hk, (fun h => by cases h), fun _ _ h => ?_⟩
      cases h
      exact ⟨fun _ => rfl, fun h => absurd h hk⟩

/-! ## The steps of Raising (R63, R199, R285, R294, R416) -/

/-- Fields at two places of a class. -/
theorem State.fld_setFld_off {f g : Field} {i j : Nat} (s : State) (v : Nat) (h : g.off ≠ f.off) (hi : i < 1024) (hj : j < 1024)
    (hf : f.off < 0x400) (hg : g.off < 0x400) : (s.setFld f i v).fld g j = s.fld g j :=
  State.fld_setFld_other _ _ _ _ _ _ fun e => h (csrKey_inj hj hg hi hf e).2.2

/-- A step of Raising shown done. -/
def State.raiseBit (s : State) (f : Field) : State := (s.setFld f 0 1).syncReady

theorem State.raiseBit_self (s : State) {f : Field} (hr : Reg.SYS.RAISE_STATUS_READY.apart f = true) (hf : f.msb < 32)
    (hl : f.msb = f.lsb) : (s.raiseBit f).fld f 0 = 1 := by
  have hself := State.fld_setFld_self s f 0 1 (by omega) hf
  rw [hl, Nat.add_sub_cancel_left] at hself
  exact (State.fld_setFld_apart hr ..).trans hself

theorem State.raiseBit_mem (s : State) (f : Field) : (s.raiseBit f).mem = s.mem := by
  rw [State.raiseBit, State.syncReady, State.setFld_mem, State.setFld_mem]

/-- Registers outside SYS. -/
theorem State.raiseBit_fld (s : State) {f g : Field} (hf : f.cls = 0 ∧ f.off < 0x400) (hc : g.cls ≠ 0) {j : Nat} (hg : g.off < 0x400)
    (hj : j < 1024) : (s.raiseBit f).fld g j = s.fld g j :=
  (State.fld_setFld_class _ _ hc (by decide) hj (by decide) hg).trans
    (State.fld_setFld_class _ _ (by rw [hf.1]; exact hc) (by decide) hj hf.2 hg)

theorem avsCal_spec (s : State) : (s.raiseDue Reg.SYS.RAISE_STATUS_AVS_CAL false = true → ∃ t, exec .avsCal s = .next t ∧
      t.fld Reg.SYS.RAISE_STATUS_AVS_CAL 0 = 1 ∧ t.mem = s.mem) ∧
    (s.raiseDue Reg.SYS.RAISE_STATUS_AVS_CAL false = false → exec .avsCal s = .next s) :=
  ⟨fun h => ⟨s.raiseBit Reg.SYS.RAISE_STATUS_AVS_CAL, if_pos h, s.raiseBit_self (by decide) (by decide) rfl, s.raiseBit_mem _⟩,
    fun h => if_neg (by rw [h]; decide)⟩

/-! ### Meters -/

/-- The constants of one metering point. -/
def State.setCal (s : State) (p : Nat) (x : BitVec 16 × BitVec 16) : State :=
  (s.setFld Reg.METER.CAL_GAIN_GAIN p x.1.toNat).setFld Reg.METER.CAL_OFFSET_OFFSET p x.2.toNat

theorem State.setCal_self (s : State) {p : Nat} (hp : p < 48) (x : BitVec 16 × BitVec 16) :
    (s.setCal p x).fld Reg.METER.CAL_GAIN_GAIN p = x.1.toNat ∧ (s.setCal p x).fld Reg.METER.CAL_OFFSET_OFFSET p = x.2.toNat := by
  unfold State.setCal
  rw [State.fld_setFld_off _ _ (by decide) (by omega) (by omega) (by decide) (by decide),
    State.fld_setFld_self _ _ _ _ (by decide) (by decide), State.fld_setFld_self _ _ _ _ (by decide) (by decide)]
  exact ⟨Nat.mod_eq_of_lt x.1.isLt, Nat.mod_eq_of_lt x.2.isLt⟩

theorem State.setCal_other (s : State) {p q : Nat} (hp : p < 48) (hq : q < 48) (h : q ≠ p) (x : BitVec 16 × BitVec 16) {f : Field}
    (hf : f.off < 0x400) : (s.setCal p x).fld f q = s.fld f q := by
  unfold State.setCal
  rw [State.fld_setFld_instance _ _ h (by omega) (by omega) (by decide) hf,
    State.fld_setFld_instance _ _ h (by omega) (by omega) (by decide) hf]

/-- The points whose constants are given take them. -/
def State.setCals (s : State) (l : List (BitVec 16 × BitVec 16)) : State :=
  (List.range (min 48 l.length)).foldl (fun s p => s.setCal p (l.getD p (0, 0))) s

theorem State.setCals_given (s : State) (l : List (BitVec 16 × BitVec 16)) {p : Nat} (hp : p < 48) (hl : p < l.length) :
    (s.setCals l).fld Reg.METER.CAL_GAIN_GAIN p = (l.getD p (0, 0)).1.toNat ∧
    (s.setCals l).fld Reg.METER.CAL_OFFSET_OFFSET p = (l.getD p (0, 0)).2.toNat := by
  have hm : p ∈ List.range (min 48 l.length) := List.mem_range.mpr (by omega)
  have keep {f : Field} (hf : f.off < 0x400) (t : State) (q : Nat) (hq : q ∈ List.range (min 48 l.length)) (hne : q ≠ p) :
      (t.setCal q (l.getD q (0, 0))).fld f p = t.fld f p :=
    have hq := List.mem_range.mp hq
    t.setCal_other (by omega) hp hne.symm _ hf
  have set (t : State) := t.setCal_self hp (l.getD p (0, 0))
  unfold State.setCals
  constructor
  · refine foldl_once (fun t : State => t.fld Reg.METER.CAL_GAIN_GAIN p) (fun _ => (l.getD p (0, 0)).1.toNat) List.nodup_range hm ?_ ?_ s
    · exact fun t => (set t).1
    · exact keep (by decide)
  · refine foldl_once (fun t : State => t.fld Reg.METER.CAL_OFFSET_OFFSET p) (fun _ => (l.getD p (0, 0)).2.toNat) List.nodup_range hm ?_ ?_ s
    · exact fun t => (set t).2
    · exact keep (by decide)

theorem State.setCals_rest (s : State) (l : List (BitVec 16 × BitVec 16)) {p : Nat} (hp : p < 48) (hl : l.length ≤ p) :
    (s.setCals l).fld Reg.METER.CAL_GAIN_GAIN p = s.fld Reg.METER.CAL_GAIN_GAIN p :=
  foldl_leaves (fun t : State => t.fld Reg.METER.CAL_GAIN_GAIN p) _ s fun t q hq =>
    have hq := List.mem_range.mp hq
    t.setCal_other (by omega) hp (by omega) _ (by decide)

/-- Every metering point calibrated. -/
def State.calDone (s : State) : State := (List.range 48).foldl (fun s p => s.setFld Reg.METER.STATUS_CAL_DONE p 1) s

theorem State.calDone_self (s : State) {p : Nat} (hp : p < 48) : s.calDone.fld Reg.METER.STATUS_CAL_DONE p = 1 :=
  foldl_once (fun t : State => t.fld Reg.METER.STATUS_CAL_DONE p) (fun _ => 1) List.nodup_range (List.mem_range.mpr hp)
    (fun _ => State.fld_setFld_self _ _ _ _ (by decide) (by decide))
    (fun _ q hq hne => State.fld_setFld_instance _ _ hne.symm (by have := List.mem_range.mp hq; omega) (by omega) (by decide) (by decide)) s

theorem State.calDone_fld (s : State) {f : Field} (hf : f.off < 0x01C) {p : Nat} (hp : p < 48) : s.calDone.fld f p = s.fld f p :=
  foldl_leaves (fun t : State => t.fld f p) _ s fun _ q hq =>
    State.fld_setFld_off _ _ (by simp; omega) (by have := List.mem_range.mp hq; omega) (by omega) (by decide) (by omega)

theorem metersCal_spec (l : List (BitVec 16 × BitVec 16)) (s : State) (h : s.raiseDue Reg.SYS.RAISE_STATUS_METERS_CAL true = true) :
    ∃ t, exec (.metersCal l) s = .next t ∧ t.fld Reg.SYS.RAISE_STATUS_METERS_CAL 0 = 1 ∧
      ∀ p : Fin 48, t.fld Reg.METER.STATUS_CAL_DONE p = 1 ∧ (p.val < l.length →
        t.fld Reg.METER.CAL_GAIN_GAIN p = (l.getD p (0, 0)).1.toNat ∧
        t.fld Reg.METER.CAL_OFFSET_OFFSET p = (l.getD p (0, 0)).2.toNat) ∧
      (l.length ≤ p.val → t.fld Reg.METER.CAL_GAIN_GAIN p = s.fld Reg.METER.CAL_GAIN_GAIN p) := by
  have he : exec (.metersCal l) s = .next ((s.setCals l).calDone.raiseBit Reg.SYS.RAISE_STATUS_METERS_CAL) := if_pos h
  refine ⟨_, he, State.raiseBit_self _ (by decide) (by decide) rfl, fun p => ?_⟩
  have shown {f : Field} (hc : f.cls = 0x29) (ho : f.off < 0x400) :
      ((s.setCals l).calDone.raiseBit Reg.SYS.RAISE_STATUS_METERS_CAL).fld f p = (s.setCals l).calDone.fld f p :=
    State.raiseBit_fld _ (by decide) (by rw [hc]; decide) ho (by omega)
  rw [shown rfl (by decide), shown rfl (by decide), shown rfl (by decide), State.calDone_self _ p.isLt,
    State.calDone_fld _ (by decide) p.isLt, State.calDone_fld _ (by decide) p.isLt]
  exact ⟨rfl, s.setCals_given l p.isLt, s.setCals_rest l p.isLt⟩

/-! ### Bulk memory -/

/-- What training finds of a channel, shown. -/
def State.trainChannel (s : State) (c : Nat) (x : Bool × Bool × BitVec 3 × Nat) : State :=
  (((s.setFld Reg.BULK.STATUS_TRAINED c 1).setFld Reg.BULK.STATUS_X8 c (b2n x.2.1)).setFld Reg.BULK.STATUS_RANKS c x.2.2.1.toNat).setFld
    Reg.BULK.CAPACITY_MB c x.2.2.2

theorem State.trainChannel_self (s : State) (c : Nat) (x : Bool × Bool × BitVec 3 × Nat) :
    (s.trainChannel c x).fld Reg.BULK.STATUS_TRAINED c = 1 ∧ (s.trainChannel c x).fld Reg.BULK.STATUS_RANKS c = x.2.2.1.toNat := by
  unfold State.trainChannel
  simp (disch := decide) only [State.fld_setFld_apart, State.fld_setFld_self]
  exact ⟨rfl, Nat.mod_eq_of_lt x.2.2.1.isLt⟩

theorem State.trainChannel_other (s : State) {c d : Nat} (hc : c < 4) (hd : d < 4) (h : d ≠ c) (x : Bool × Bool × BitVec 3 × Nat) {f : Field}
    (hf : f.off < 0x400) : (s.trainChannel c x).fld f d = s.fld f d := by
  have keep (t : State) {g : Field} (v : Nat) (hg : g.off < 0x400) : (t.setFld g c v).fld f d = t.fld f d :=
    State.fld_setFld_instance _ _ h (by omega) (by omega) hg hf
  exact (keep _ _ (by decide)).trans ((keep _ _ (by decide)).trans ((keep _ _ (by decide)).trans (keep _ _ (by decide))))

/-- Training's account of a channel: none where the list ends. -/
def channelFound (found : List (Bool × Bool × BitVec 3 × Nat)) (c : Nat) : Bool × Bool × BitVec 3 × Nat := found.getD c (false, false, 0, 0)

/-- The channels that training found. -/
def channelsFound (found : List (Bool × Bool × BitVec 3 × Nat)) : List Nat := (List.range 4).filter fun c => (channelFound found c).1

/-- The trained channels shown, and their interleaving. -/
def State.trainBulk (s : State) (found : List (Bool × Bool × BitVec 3 × Nat)) : State :=
  let l := channelsFound found
  let s := l.foldl (fun s c => s.trainChannel c (channelFound found c)) s
  if l.isEmpty then s else (s.setFld Reg.BULK.ILV_MODE 0 (4 - l.length)).setFld Reg.BULK.ILV_MAP 0 (packMap l)

theorem State.trainBulk_mem (s : State) (found : List (Bool × Bool × BitVec 3 × Nat)) : (s.trainBulk found).mem = s.mem := by
  unfold State.trainBulk
  extract_lets l u
  have hu : u.mem = s.mem := foldl_leaves State.mem l s fun _ _ _ => rfl
  clear_value u
  split <;> exact hu

theorem State.trainBulk_channel (s : State) (found : List (Bool × Bool × BitVec 3 × Nat)) {c : Nat} (hc : c < 4)
    (h : (channelFound found c).1 = true) : (s.trainBulk found).fld Reg.BULK.STATUS_TRAINED c = 1 ∧
      (s.trainBulk found).fld Reg.BULK.STATUS_RANKS c = (channelFound found c).2.2.1.toNat := by
  unfold State.trainBulk
  extract_lets l u
  have hl : l.Nodup := List.nodup_range.filter _
  have hm : c ∈ l := List.mem_filter.mpr ⟨List.mem_range.mpr hc, h⟩
  have keep {f : Field} (hf : f.off < 0x400) (t : State) (d : Nat) (hd : d ∈ l) (hne : d ≠ c) :
      (t.trainChannel d (channelFound found d)).fld f c = t.fld f c :=
    t.trainChannel_other (List.mem_range.mp (List.mem_of_mem_filter hd)) hc hne.symm _ hf
  have set (t : State) := t.trainChannel_self c (channelFound found c)
  have hu : u.fld Reg.BULK.STATUS_TRAINED c = 1 ∧ u.fld Reg.BULK.STATUS_RANKS c = (channelFound found c).2.2.1.toNat := by
    constructor
    · refine foldl_once (fun t : State => t.fld Reg.BULK.STATUS_TRAINED c) (fun _ => 1) hl hm ?_ ?_ s
      · exact fun t => (set t).1
      · exact keep (by decide)
    · refine foldl_once (fun t : State => t.fld Reg.BULK.STATUS_RANKS c) (fun _ => (channelFound found c).2.2.1.toNat) hl hm ?_ ?_ s
      · exact fun t => (set t).2
      · exact keep (by decide)
  clear_value u
  have ilv (t : State) {f g : Field} (v : Nat) (hf : f.off = 0x050) (hg : g.off = 0x004) : (t.setFld f 0 v).fld g c = t.fld g c :=
    State.fld_setFld_off _ _ (by omega) (by decide) (by omega) (by omega) (by omega)
  split
  · exact hu
  · rw [ilv _ _ rfl rfl, ilv _ _ rfl rfl, ilv _ _ rfl rfl, ilv _ _ rfl rfl]
    exact hu

/-- The capacity that training leaves: the channels at the size of the smallest. -/
def State.setCapacity (s : State) (l : List Nat) : State :=
  { s with memSys := { s.memSys with capacity := 2 ^ 20 * (l.length * (l.map (fun c => s.fld Reg.BULK.CAPACITY_MB c)).min?.getD 0) } }

theorem exec_bulkTrained {s : State} (h : s.raiseDue Reg.SYS.RAISE_STATUS_BULK_TRAINED true = true)
    (found : List (Bool × Bool × BitVec 3 × Nat)) : exec (.bulkTrained found) s =
      .next (((((s.trainBulk found).setCapacity (channelsFound found)).setFld Reg.SYS.RAISE_STATUS_BULK_TRAINED 0 1).setFld
        Reg.CLK.STATUS_BULK_LOCK 0 1).syncReady) := if_pos h

theorem bulkTrained_spec (found : List (Bool × Bool × BitVec 3 × Nat)) (s : State) :
    (s.raiseDue Reg.SYS.RAISE_STATUS_BULK_TRAINED true = false → exec (.bulkTrained found) s = .next s) ∧
    (s.raiseDue Reg.SYS.RAISE_STATUS_BULK_TRAINED true = true → ∃ t, exec (.bulkTrained found) s = .next t ∧
      t.fld Reg.SYS.RAISE_STATUS_BULK_TRAINED 0 = 1 ∧ t.fld Reg.CLK.STATUS_BULK_LOCK 0 = 1 ∧ t.mem = s.mem ∧
      ∀ c : Fin 4, (found.getD c (false, false, 0, 0)).1 = true → t.fld Reg.BULK.STATUS_TRAINED c = 1 ∧
        t.fld Reg.BULK.STATUS_RANKS c = (found.getD c (false, false, 0, 0)).2.2.1.toNat) := by
  refine ⟨fun h => if_neg (by rw [h]; decide), fun h => ⟨_, exec_bulkTrained h found, ?_⟩⟩
  have hmem : ((s.trainBulk found).setCapacity (channelsFound found)).mem = s.mem := s.trainBulk_mem found
  have hch (c : Fin 4) (hc : (channelFound found c).1 = true) :
      ((s.trainBulk found).setCapacity (channelsFound found)).fld Reg.BULK.STATUS_TRAINED c = 1 ∧
      ((s.trainBulk found).setCapacity (channelsFound found)).fld Reg.BULK.STATUS_RANKS c = (channelFound found c).2.2.1.toNat :=
    s.trainBulk_channel found c.isLt hc
  revert hmem hch
  generalize (s.trainBulk found).setCapacity (channelsFound found) = u
  intro hmem hch
  have other {f : Field} (hf : f.cls = 0x49) (ho : f.off < 0x400) (c : Fin 4) :
      (((u.setFld Reg.SYS.RAISE_STATUS_BULK_TRAINED 0 1).setFld Reg.CLK.STATUS_BULK_LOCK 0 1).syncReady).fld f c = u.fld f c := by
    have key {g : Field} (t : State) (v : Nat) (hg : g.cls ≠ 0x49) (hgo : g.off < 0x400) : (t.setFld g 0 v).fld f c = t.fld f c :=
      State.fld_setFld_class _ _ (by omega) (by decide) (by omega) hgo ho
    exact (key _ _ (by decide) (by decide)).trans ((key _ _ (by decide) (by decide)).trans (key _ _ (by decide) (by decide)))
  refine ⟨?_, ?_, ?_, fun c hc => by rw [other rfl (by decide), other rfl (by decide)]; exact hch c hc⟩
  case refine_3 =>
    rw [State.syncReady, State.setFld_mem, State.setFld_mem, State.setFld_mem]
    exact hmem
  all_goals
    unfold State.syncReady
    simp (disch := decide) only [State.fld_setFld_apart, State.fld_setFld_self]
    rfl

theorem tfind_filter {α : Type} (p : Nat → Bool) (t : Tab α) (k : Nat) :
    tfind (t.filter fun c => p c.1) k = if p k then tfind t k else none := by
  induction t with
  | nil => simp [tfind]
  | cons c t ih =>
    obtain ⟨j, v⟩ := c
    by_cases hj : j = k
    · subst hj
      cases hp : p j <;> simp [tfind, hp, ih]
    · cases hp : p j <;> simp [tfind, hp, hj, ih]

/-- A byte of memory after a range of it was filled with zero. -/
theorem State.mread_fillZero (s : State) (k n a : Nat) :
    mread (s.fillZero k n).mem a = if k ≤ a ∧ a < k + n then 0 else mread s.mem a := by
  show (tfind (s.mem.filter fun c => !(decide (k ≤ c.1) && decide (c.1 < k + n))) a).getD 0 = _
  rw [tfind_filter (fun x => !(decide (k ≤ x) && decide (x < k + n)))]
  by_cases h : k ≤ a ∧ a < k + n
  · rw [if_pos h, if_neg (by simp [h])]
    rfl
  · rw [if_neg h, if_pos (by simp; omega)]
    rfl

/-- Channel `c` filled, where it is trained. -/
def State.fillChannel (s : State) (c : Nat) : State :=
  if s.bit Reg.BULK.STATUS_TRAINED c then (s.fillZero (2 ^ 40 + 2 ^ 37 * c) (2 ^ 37)).setFld Reg.BULK.STATUS_FILLED c 1 else s

/-- TRAINED and FILLED of a channel, and a byte of memory. -/
def State.channelView (s : State) (c a : Nat) : Nat × Nat × Byte :=
  (s.fld Reg.BULK.STATUS_TRAINED c, s.fld Reg.BULK.STATUS_FILLED c, mread s.mem a)

/-- What filling does to a trained channel. -/
def filledView (x : Nat × Nat × Byte) : Nat × Nat × Byte := if x.1 = 1 then (x.1, 1, 0) else x

theorem State.fillChannel_self (s : State) {c a : Nat} (ha : a < 2 ^ 37) :
    (s.fillChannel c).channelView c (2 ^ 40 + 2 ^ 37 * c + a) = filledView (s.channelView c (2 ^ 40 + 2 ^ 37 * c + a)) := by
  unfold State.fillChannel
  rw [State.bit_eq_decide _ rfl]
  by_cases h : s.fld Reg.BULK.STATUS_TRAINED c = 1
  · have hf : filledView (s.channelView c (2 ^ 40 + 2 ^ 37 * c + a)) = (s.fld Reg.BULK.STATUS_TRAINED c, 1, 0) := if_pos h
    rw [if_pos (decide_eq_true h), hf]
    refine Prod.ext ?_ (Prod.ext ?_ ?_)
    · exact State.fld_setFld_apart (by decide) ..
    · exact State.fld_setFld_self _ _ _ _ (by decide) (by decide)
    · exact (s.mread_fillZero ..).trans (if_pos (by omega))
  · rw [if_neg (by simpa using h)]
    exact (if_neg h).symm

theorem State.fillChannel_other (s : State) {c d a : Nat} (hc : c < 4) (hd : d < 4) (h : d ≠ c) (ha : a < 2 ^ 37) :
    (s.fillChannel d).channelView c (2 ^ 40 + 2 ^ 37 * c + a) = s.channelView c (2 ^ 40 + 2 ^ 37 * c + a) := by
  unfold State.fillChannel
  split
  · refine Prod.ext ?_ (Prod.ext ?_ ?_)
    · exact State.fld_setFld_instance _ _ h.symm (by omega) (by omega) (by decide) (by decide)
    · exact State.fld_setFld_instance _ _ h.symm (by omega) (by omega) (by decide) (by decide)
    · exact (s.mread_fillZero ..).trans (if_neg (by omega))
  · rfl

theorem bulkFilled_spec (s : State) (h : s.raiseDue Reg.SYS.RAISE_STATUS_BULK_FILLED true = true)
    (ht : s.fld Reg.SYS.RAISE_STATUS_BULK_TRAINED 0 = 1) :
    ∃ t, exec .bulkFilled s = .next t ∧ t.fld Reg.SYS.RAISE_STATUS_BULK_FILLED 0 = 1 ∧
      ∀ c : Fin 4, s.fld Reg.BULK.STATUS_TRAINED c = 1 → t.fld Reg.BULK.STATUS_FILLED c = 1 ∧
        ∀ a, a < 2 ^ 37 → mread t.mem (2 ^ 40 + 2 ^ 37 * c.val + a) = 0 := by
  have he : exec .bulkFilled s = .next (((List.range 4).foldl State.fillChannel s).raiseBit Reg.SYS.RAISE_STATUS_BULK_FILLED) :=
    if_pos ⟨h, by rw [State.bit, ht]; rfl⟩
  refine ⟨_, he, State.raiseBit_self _ (by decide) (by decide) rfl, fun c hc => ?_⟩
  have hv (a : Nat) (ha : a < 2 ^ 37) : ((List.range 4).foldl State.fillChannel s).channelView c (2 ^ 40 + 2 ^ 37 * c.val + a) =
      (s.fld Reg.BULK.STATUS_TRAINED c, 1, 0) :=
    (foldl_once (fun t : State => t.channelView c (2 ^ 40 + 2 ^ 37 * c.val + a)) filledView List.nodup_range (List.mem_range.mpr c.isLt)
      (fun t => t.fillChannel_self ha) (fun t _ hd hne => t.fillChannel_other c.isLt (List.mem_range.mp hd) hne ha) s).trans (if_pos hc)
  rw [State.raiseBit_fld _ (by decide) (by decide) (by decide) (by omega), State.raiseBit_mem]
  exact ⟨congrArg (fun x => x.2.1) (hv 0 (by decide)), fun a ha => congrArg (fun x => x.2.2) (hv a ha)⟩

/-- Settles O58: each command of bring-up with the lemma that says what it leaves. -/
theorem modesAndBringUp : Obligations.ModesAndBringUp :=
  ⟨modeTransitionDone_spec, bankedWfiTimeout_spec, bankedEntry_spec, resetSources_spec, footingEnd_spec, beddingDone_spec,
    bootImageCheck_spec, bulkTrained_spec, bulkFilled_spec, avsCal_spec, metersCal_spec⟩

end Sys2Proof.Machine


namespace Sys2Proof.Machine

/-! Sett cores and the Course matrix unit (O16, O17, O19 to O28). Many short proofs follow one another here too: each is finished before
the next. -/

set_option Elab.async false

/-! ## Words and lanes (R104, R128, R133) -/

theorem macImm_mod {w n : Nat} (h : n ∣ 64) : macImm w % n = w % n := by
  simpa [macImm, bits] using Nat.mod_mod_of_dvd w h

/-- The bits of a lane that a predicate selects are all of its bits. -/
theorem vMask_lane (p : Word) {i : Nat} (h : i < 32) :
    (vMask p).extractLsb' (16 * i) 16 = if p.getLsbD i then BitVec.allOnes 16 else 0 := by
  refine BitVec.eq_of_toInt_eq ((lane_ofLanes _ i h).trans ?_)
  cases p.getLsbD i <;> rfl

theorem vaMask_lane (p : Word) {i : Nat} (h : i < 32) :
    (vaMask p).extractLsb' (40 * i) 40 = if p.getLsbD i then BitVec.allOnes 40 else 0 := by
  refine BitVec.eq_of_toInt_eq ((accLane_ofAccLanes _ i h).trans ?_)
  cases p.getLsbD i <;> rfl

/-- The bits of a merged word are the merged bits. -/
theorem extractLsb'_merge {w n : Nat} (old x m : BitVec w) (i : Nat) (h : i + n ≤ w) :
    (merge old x m).extractLsb' i n = merge (old.extractLsb' i n) (x.extractLsb' i n) (m.extractLsb' i n) := by
  ext k hk
  have : i + k < w := by omega
  simp [merge, this]

theorem merge_ite {w : Nat} (old x : BitVec w) (b : Bool) :
    merge old x (if b then BitVec.allOnes w else 0) = if b then x else old := by
  cases b <;> simp [merge]

theorem lane_merge (old x : BitVec 512) (p : Word) {i : Nat} (h : i < 32) :
    lane (merge old x (vMask p)) i = if p.getLsbD i then lane x i else lane old i := by
  unfold lane
  rw [extractLsb'_merge _ _ _ _ (by omega), vMask_lane p h, merge_ite]
  exact apply_ite ..

theorem accLane_merge (old x : BitVec 1280) (p : Word) {i : Nat} (h : i < 32) :
    accLane (merge old x (vaMask p)) i = if p.getLsbD i then accLane x i else accLane old i := by
  unfold accLane
  rw [extractLsb'_merge _ _ _ _ (by omega), vaMask_lane p h, merge_ite]
  exact apply_ite ..

/-- A saturated value fits its lane. -/
theorem toInt_ofInt_sat16 (x : Int) : (BitVec.ofInt 16 (sat16 x)).toInt = max (-32768) (min 32767 x) := by
  rw [BitVec.toInt_ofInt, sat16_eq]
  exact Int.bmod_eq_of_le (by omega) (by omega)

/-- Settles O21: a write merges bit by bit under its mask, and a lane's bits of a mask are all alike. -/
theorem settWritesMergeByLane : Obligations.SettWritesMergeByLane := by
  refine ⟨fun k n j x p => ⟨fun i hi => ?_, fun h => tget_tset_other _ _ _ _ h⟩,
    fun k n j x p => ⟨fun i hi => ?_, fun h => tget_tset_other _ _ _ _ h⟩, fun k x m => ⟨rfl, rfl⟩⟩
  · rw [Core.put, tget_tset_self, lane_merge _ _ _ hi]
  · rw [Core.put, tget_tset_self, accLane_merge _ _ _ hi]

/-! ## The MAC slot (R131, R134, R135) -/

/-- A MAC slot's turn stages what the instruction makes of the core and the slot's word. -/
theorem State.macOp_of_turn {s : State} {c m op w : Nat} (h : Claims.Turn s c m op w) (f : Core → Nat → SlotOut) :
    s.macOp c m op f = s.stageSlot c m (f (s.core c) w) := by
  obtain ⟨b, hb, rfl, hop, hp⟩ := h
  simp [State.macOp, hb, hop, hp]

/-- Every wrapping row runs the form of a vector result without saturation. -/
theorem exec_wrapRow : ∀ r ∈ Claims.wrapRows, ∀ (c : Fin 192) (m : Fin 2) (s : State), exec (r.cmd c m) s =
    .next (s.macOp c m r.op fun k w => vecOut k w r.lat (macPred k w) false (r.val k w) r.macs) := by
  have ext (w : Nat) : min 31 (macImm w % 32) = w % 32 := by rw [macImm_mod (by decide)]; omega
  simp only [Claims.wrapRows, List.forall_mem_cons, List.not_mem_nil, false_imp_iff, implies_true, and_true]
  refine ⟨fun _ _ _ => rfl, fun _ _ _ => rfl, fun c m s => ?_, fun c m s => ?_, fun _ _ _ => rfl, fun _ _ _ => rfl, fun _ _ _ => rfl,
    fun c m s => ?_, fun _ _ _ => rfl, fun _ _ _ => rfl, fun c m s => ?_, fun _ _ _ => rfl⟩
  · show execVshr c m s = _
    simp only [execVshr, macImm_mod (by decide : 16 ∣ 64)]
    rfl
  · show execVshl c m s = _
    simp only [execVshl, macImm_mod (by decide : 16 ∣ 64)]
    rfl
  · show execValign c m s = _
    simp only [execValign, macImm_mod (by decide : 32 ∣ 64)]
    rfl
  · show execVext c m s = _
    simp only [execVext, extract, shiftDown, ext]
    rfl

/-- Settles O16: each row is one form, and each lane of its result is the exact value wrapped. -/
theorem settWrappingVectorLanes : Obligations.SettWrappingVectorLanes := fun r hr c m s w h =>
  ⟨ofLanes (r.val (s.core c) w), (exec_wrapRow r hr c m s).trans (congrArg _ (State.macOp_of_turn h _)),
    fun i hi => lane_ofLanes _ i hi⟩

/-- Every saturating row runs the form of a vector result with saturation. -/
theorem exec_satRow : ∀ r ∈ Claims.satRows, ∀ (c : Fin 192) (m : Fin 2) (s : State), exec (r.cmd c m) s =
    .next (s.macOp c m r.op fun k w => vecOut k w r.lat (macPred k w) true (r.val k w) r.macs) := by
  have ext (w : Nat) : min 31 (macImm w % 32) = w % 32 := by rw [macImm_mod (by decide)]; omega
  have abs (x : Int) : |x| = if x < 0 then -x else x := by
    split
    · exact abs_of_neg ‹_›
    · exact abs_of_nonneg (by omega)
  simp only [Claims.satRows, List.forall_mem_cons, List.not_mem_nil, false_imp_iff, implies_true, and_true]
  refine ⟨fun _ _ _ => rfl, fun _ _ _ => rfl, fun _ _ _ => rfl, fun c m s => ?_, fun _ _ _ => ?_, fun _ _ _ => rfl, fun _ _ _ => rfl,
    fun c m s => ?_, fun _ _ _ => rfl⟩
  · show execVshls c m s = _
    simp only [execVshls, macImm_mod (by decide : 16 ∣ 64)]
    rfl
  · simp only [abs]
    rfl
  · show execVexts c m s = _
    simp only [execVexts, extract, shiftDown, ext]
    rfl

/-- Settles O17: each row is one form, whose lanes saturate and whose SAT write hangs on a selected lane outside int16. -/
theorem settSaturatingVectorLanes : Obligations.SettSaturatingVectorLanes := by
  intro r hr c m s w h
  let sat : List (Nat × RegWrite) := if anySat (macPred (s.core c) w) (r.val (s.core c) w) then [(3, .sat true)] else []
  refine ⟨ofLanes fun i => sat16 (r.val (s.core c) w i), sat, (exec_satRow r hr c m s).trans (congrArg _ (State.macOp_of_turn h _)),
    fun i hi => (lane_ofLanes _ i hi).trans (toInt_ofInt_sat16 _), fun ho => if_pos ((anySat_iff _ _).mpr ho), fun hn => if_neg ?_⟩
  rw [anySat_iff]
  rintro ⟨i, hi, hp, ho⟩
  have := hn i hi hp
  omega

/-! ### Accumulators (R110) -/

/-- OV is set by a selected lane that 40 bits cannot hold. -/
theorem anyOver_iff_fits (p : Word) (f : Nat → Int) :
    anyOver p f = true ↔ ∃ i, i < 32 ∧ p.getLsbD i = true ∧ ¬ Claims.fits40 (f i) := by
  have hf (x : Int) : x < -(2 ^ 39) ∨ 2 ^ 39 ≤ x ↔ ¬ Claims.fits40 x := by
    unfold Claims.fits40
    omega
  simp only [anyOver_iff, hf]

theorem anyOver_eq_false {p : Word} {f : Nat → Int} (h : ∀ i, i < 32 → p.getLsbD i = true → Claims.fits40 (f i)) :
    anyOver p f = false :=
  Bool.eq_false_iff.mpr fun ho => by
    obtain ⟨i, hi, hp, hf⟩ := (anyOver_iff_fits p f).mp ho
    exact hf (h i hi hp)

theorem Core.rVA_mod (k : Core) (n : Nat) : k.rVA (n % 8) = k.rVA n := by rw [Core.rVA, Core.rVA, Nat.mod_mod]

/-- The terms of the complex forms are the products of R135. -/
theorem cTerm_eq_cplx (k : Core) (w : Nat) (conj : Bool) :
    cTerm (k.rV (macA w)) (k.rV (macB w)) conj = Claims.cplx k w conj := by
  funext i
  cases conj <;> simp [cTerm, Claims.cplx, Claims.srcA, Claims.srcB, Nat.mul_comm 2 (i / 2)]

/-- The lanes that a row of accumulation writes: all that the predicate selects, or those of its half. -/
def accMask (r : Claims.AccRow) (k : Core) (w : Nat) : Word :=
  if r.count = 32 then macPred k w else halfMask (macPred k w) r.first

theorem accMask_bit : ∀ r ∈ Claims.accRows, ∀ (k : Core) (w i : Nat), i < 32 →
    ((accMask r k w).getLsbD i = true ↔ r.first ≤ i ∧ i < r.first + r.count ∧ Claims.pred k w i = true) := by
  have all (k : Core) (w i : Nat) (hi : i < 32) :
      (macPred k w).getLsbD i = true ↔ 0 ≤ i ∧ i < 0 + 32 ∧ Claims.pred k w i = true := by
    simp [hi, Claims.pred, macPred]
  have half (lo : Nat) (k : Core) (w i : Nat) (hi : i < 32) :
      (halfMask (macPred k w) lo).getLsbD i = true ↔ lo ≤ i ∧ i < lo + 16 ∧ Claims.pred k w i = true := by
    simp [halfMask_bit _ _ _ hi, Claims.pred, macPred, and_assoc]
  simp only [Claims.accRows, List.forall_mem_cons, List.not_mem_nil, false_imp_iff, implies_true, and_true]
  exact ⟨all, all, half 0, half 16, half 0, half 16⟩

/-- Every accumulating row runs one form, with its own lanes and term. -/
theorem exec_accRow : ∀ r ∈ Claims.accRows, ∀ (c : Fin 192) (m : Fin 2) (s : State), exec (r.cmd c m) s =
    .next (s.macOp c m r.op fun k w => accumulate k w (accMask r k w) (r.term k w)) := by
  have cmac_eq (lo : Nat) (conj : Bool) : (fun k w => cmac k w lo conj) =
      fun k w => accumulate k w (halfMask (macPred k w) lo) (Claims.cplx k w conj) := by
    funext k w
    rw [cmac, cTerm_eq_cplx]
    rfl
  have complex (c : Fin 192) (m : Fin 2) (s : State) (op lo : Nat) (conj : Bool) :
      Host.Outcome.next (φ := Fault) (ρ := Refusal) (s.macOp c m op fun k w => cmac k w lo conj) =
        .next (s.macOp c m op fun k w => accumulate k w (halfMask (macPred k w) lo) (Claims.cplx k w conj)) := by rw [cmac_eq]
  simp only [Claims.accRows, List.forall_mem_cons, List.not_mem_nil, false_imp_iff, implies_true, and_true]
  exact ⟨fun _ _ _ => rfl, fun _ _ _ => rfl, fun c m s => complex c m s 4 0 false, fun c m s => complex c m s 5 16 false,
    fun c m s => complex c m s 6 0 true, fun c m s => complex c m s 7 16 true⟩

/-- Settles O19: each row adds its term to the lanes of its mask, and OV hangs on a sum that 40 bits cannot hold. -/
theorem settAccumulate : Obligations.SettAccumulate := by
  intro r hr c m s w h k d sum on
  have hsum : sum = fun i => accLane (k.rVA (macD w)) i + r.term k w i := by
    funext i
    rw [← Core.rVA_mod]
  have hon (i : Nat) (hi : i < 32) : (accMask r k w).getLsbD i = true ↔ on i := accMask_bit r hr k w i hi
  refine ⟨ofAccLanes sum, vaMask (accMask r k w), ovSet (macD w) (anyOver (accMask r k w) sum), ?_, fun i hi => accLane_ofAccLanes _ i hi,
    fun i hi => ?_, fun ⟨i, hi, ho, hf⟩ => ?_, fun ha => ?_⟩
  · rw [exec_accRow r hr, State.macOp_of_turn h, accumulate, hsum]
    rfl
  · rw [Claims.laneBits, vaMask_lane _ hi]
    exact ⟨fun ho => if_pos ((hon i hi).mpr ho), fun ho => if_neg fun hb => ho ((hon i hi).mp hb)⟩
  · rw [(anyOver_iff_fits _ _).mpr ⟨i, hi, (hon i hi).mpr ho, hf⟩]
    rfl
  · rw [anyOver_eq_false fun i hi hb => ha i hi ((hon i hi).mp hb)]
    rfl

/-- Every row that loads an accumulator runs one form. -/
theorem exec_accLoadRow : ∀ r ∈ Claims.accLoadRows, ∀ (c : Fin 192) (m : Fin 2) (s : State), exec (r.cmd c m) s =
    .next (s.macOp c m r.op fun k w => loadAcc w (macPred k w) (r.val k w) r.macs) := by
  simp only [Claims.accLoadRows, List.forall_mem_cons, List.not_mem_nil, false_imp_iff, implies_true, and_true]
  refine ⟨fun _ _ _ => rfl, fun _ _ _ => rfl, fun c m s => ?_, fun _ _ _ => rfl⟩
  show execVald c m s = _
  simp only [execVald, macImm_mod (by decide : 32 ∣ 64)]
  rfl

/-- VARED: the sums under the predicate, and OV from OV[a] or a sum that 40 bits cannot hold. -/
theorem vared_spec (c : Fin 192) (m : Fin 2) (s : State) (w : Nat) (h : Claims.Turn s c m 0x0B w) :
    let k := s.core c
    let p := macPred k w
    let f := redSum (k.rVX (macA w)) (w % 2 == 1)
    exec (.vared c m) s = .next (s.stageSlot c m
      { writes := [(4, .va (macD w % 8) (ofAccLanes f) (vaMask p)), (4, .vx (macD w % 8) (ofAccLanes f) (vaMask p))] ++
          ovPut (macD w % 8) (k.ov.getLsbD (macA w % 8) || anyOver p f) }) := by
  intro k p f
  show execVared c m s = _
  rw [execVared, State.macOp_of_turn h]
  simp only [macImm_mod (by decide : 2 ∣ 64)]
  rfl

/-- Settles O20: the rows are one form, whose OV write clears; VARED's lanes are the sums of R134. -/
theorem settAccumulatorLoads : Obligations.SettAccumulatorLoads := by
  refine ⟨fun r hr c m s w h => ⟨ofAccLanes (r.val (s.core c) w), ?_, fun i hi => accLane_ofAccLanes _ i hi⟩, ?_⟩
  · rw [exec_accLoadRow r hr, State.macOp_of_turn h]
    rfl
  intro c m s w h k half sum
  have hsum : redSum (k.rVX (macA w)) (w % 2 == 1) = sum := by
    funext i
    simp only [redSum, beq_iff_eq]
    rfl
  have hmod : macD w % 8 % 8 = macD w % 8 := Nat.mod_mod ..
  refine ⟨ofAccLanes sum, if (k.ov.getLsbD (macA w % 8) || anyOver (macPred k w) sum) then BitVec.ofNat 8 (2 ^ (macD w % 8)) else 0,
    ?_, fun i hi => accLane_ofAccLanes _ i hi, fun ho => if_pos ?_, fun ⟨hv, hn⟩ => if_neg ?_⟩
  · rw [vared_spec c m s w h, hsum, ovPut, hmod]
    rfl
  · rwa [Bool.or_eq_true, anyOver_iff_fits]
  · simpa [hv] using anyOver_eq_false (p := macPred k w) hn

/-! ## The load/store slot (R106, R136) -/

theorem bmod_emod_40 (x : Int) : x.bmod (2 ^ 40) % 2 ^ 40 = x % 2 ^ 40 := by
  exact_mod_cast Int.bmod_emod (x := x) (m := 2 ^ 40)

theorem addr_toNat_eq_emod (x : BitVec 40) : (x.toNat : Int) = x.toInt % 2 ^ 40 := by
  have := x.isLt
  rw [BitVec.toInt_eq_toNat_bmod, bmod_emod_40]
  omega

/-- An + Mm as an exact sum modulo 2^40. -/
theorem Core.cast_stepped (k : Core) (n m : Nat) :
    ((k.rA n + (k.rM m).signExtend 40).toNat : Int) = ((k.rA n).toInt + (k.rM m).toInt) % 2 ^ 40 := by
  rw [addr_toNat_eq_emod, BitVec.toInt_add, BitVec.toInt_signExtend_of_le (by decide), bmod_emod_40]

theorem length_toNat (x : BitVec 24) : (x.zeroExtend 40).toNat = x.toNat := by
  rw [BitVec.toNat_setWidth]
  omega

/-- Settles O23: one correction by L, which is below 2^40. -/
theorem settPostModify : Obligations.SettPostModify := by
  refine ⟨?_, fun k hB hL => ⟨fun hA m hm => ?_, fun hA m hm => ?_⟩⟩
  · intro k n m hn t B L
    have ht : ((k.rA n + (k.rM m).signExtend 40).toNat : Int) = t := k.cast_stepped n m
    have hL : (k.rL n).toNat < 2 ^ 24 := (k.rL n).isLt
    have hT : (k.rA n + (k.rM m).signExtend 40).toNat < 2 ^ 40 := BitVec.isLt _
    have hL0 : k.rL n ≠ 0 ↔ (k.rL n).toNat ≠ 0 := by simp [← BitVec.toNat_inj]
    have hsub : (k.rA n + (k.rM m).signExtend 40 - (k.rL n).zeroExtend 40).toNat =
        (2 ^ 40 - (k.rL n).toNat + (k.rA n + (k.rM m).signExtend 40).toNat) % 2 ^ 40 := by rw [BitVec.toNat_sub, length_toNat]
    have hadd : (k.rA n + (k.rM m).signExtend 40 + (k.rL n).zeroExtend 40).toNat =
        ((k.rA n + (k.rM m).signExtend 40).toNat + (k.rL n).toNat) % 2 ^ 40 := by rw [BitVec.toNat_add, length_toNat]
    simp only [Core.postMod, hL0, B, L, ← ht]
    split_ifs <;> omega
  · simp [Core.postMod, hB, hL, hA, hm]
  · simp [Core.postMod, hB, hL, hA, hm]

/-- The LS slot's turn stages what the instruction makes of the core and the slot's word. -/
theorem State.lsOp_of_turn {s : State} {c op w : Nat} (h : Claims.Turn s c 2 op w) (f : Core → Nat → SlotOut) :
    s.lsOp c op f = s.stageSlot c 2 (f (s.core c) w) := by
  obtain ⟨b, hb, rfl, hop, -⟩ := h
  simp [State.lsOp, hb, hop]

theorem State.lsTurn_of_turn {s : State} {c op w : Nat} (h : Claims.Turn s c 2 op w) : s.lsTurn c op = some w := by
  obtain ⟨b, hb, rfl, hop, -⟩ := h
  simp [State.lsTurn, hb, hop]

/-- The write of An that bit 20 of the word asks for. -/
theorem Core.postWrite_lsMod (k : Core) (w n m : Nat) :
    k.postWrite (lsMod w) n m = if w / 2 ^ 20 % 2 = 1 then [(1, .a n (k.postMod n m))] else [] := by
  simp [Core.postWrite, lsMod, bits]

theorem Core.postWrite_lsModk (k : Core) (w n m : Nat) :
    k.postWrite (lsModk w) n m = if w / 2 ^ 6 % 2 = 1 then [(1, .a n (k.postMod n m))] else [] := by
  simp [Core.postWrite, lsModk, bits]

/-- Every load runs one form. -/
theorem exec_loadRow : ∀ r ∈ Claims.loadRows, ∀ (c : Fin 192) (s : State), exec (r.cmd c) s =
    .next (s.lsOp c r.op fun k w => loadForm s c k w r.size r.kind (k.phys (lsR w)) (r.mask k w)) := by
  simp only [Claims.loadRows, List.forall_mem_cons, List.not_mem_nil, false_imp_iff, implies_true, and_true]
  exact ⟨fun _ _ => rfl, fun _ _ => rfl, fun _ _ => rfl, fun _ _ => rfl, fun _ _ => rfl⟩

/-! ### Exceptions before an access (R107, R120) -/

/-- What the place of an address raises, whatever its alignment. -/
def State.placeExcs (s : State) (c a : Nat) : List CoreExc :=
  match s.whereIs c a with
  | .prog => [CoreExc.mk 0x06 2 a 0]
  | .bad => [CoreExc.mk 0x04 2 a 0]
  | .far => if (s.core c).rep.isSome then [CoreExc.mk 0x07 2 a 0] else []
  | .local_ => []

theorem State.accessExcs_eq (s : State) (c a n : Nat) :
    s.accessExcs c a n = (if a % n = 0 then [] else [CoreExc.mk 0x02 2 a 0]) ++ s.placeExcs c a := rfl

/-- An aligned access raises only what its place does. -/
theorem State.accessExcs_of_aligned {s : State} {c a n : Nat} (h : a % n = 0) : s.accessExcs c a n = s.placeExcs c a := by
  rw [State.accessExcs_eq, if_pos h, List.nil_append]

theorem State.misalign_not_mem_placeExcs (s : State) (c a : Nat) : ⟨0x02, 2, a, 0⟩ ∉ s.placeExcs c a := by
  unfold State.placeExcs
  split
  · simp
  · simp
  · split <;> simp
  · simp

/-- MISALIGN is raised exactly at an address that the size does not divide. -/
theorem State.misalign_mem_accessExcs (s : State) (c a n : Nat) : ⟨0x02, 2, a, 0⟩ ∈ s.accessExcs c a n ↔ a % n ≠ 0 := by
  rw [State.accessExcs_eq, List.mem_append, or_iff_left (s.misalign_not_mem_placeExcs c a)]
  split <;> simp [*]

/-- CMUQ at its turn: it waits while the core's queue is full and its address raises nothing, and else stages the command's address. -/
theorem cmuq_spec {c : Fin 192} {s : State} {w : Nat} (h : Claims.Turn s c 2 0x0A w) :
    let k := s.core c
    let a := Claims.lsAddr k w
    exec (.cmuq c) s = if s.accessExcs c a 64 = [] ∧ 4 ≤ (s.cmu (c.val / 8)).depth (c.val % 8)
      then .next (s.setCore c { k with waiting := true })
      else .next (s.stageSlot c 2
        { writes := k.postWrite (lsMod w) (lsA w) (lsM w), excs := s.accessExcs c a 64, cmuq := some a, daddr := a }) := by
  intro k a
  show execCmuq c s = _
  simp only [execCmuq, State.lsTurn_of_turn h, List.isEmpty_iff]
  rfl

/-- Settles O22: each form stages its access at the old An with the exceptions of its place. -/
theorem settLoadStoreSlot : Obligations.SettLoadStoreSlot := by
  intro c s w k a post
  have hpost (n m : Nat) : k.postWrite (lsMod w) n m = if w / 2 ^ 20 % 2 = 1 then [(1, .a n (k.postMod n m))] else [] :=
    k.postWrite_lsMod w n m
  refine ⟨fun r hr h => ?_, fun h => ?_, fun h => ?_, fun h => ?_, fun h => ?_, fun h => ?_, fun h => ?_, fun h => ?_,
    s.misalign_mem_accessExcs c a, fun n hn hw => ?_, fun n hn hw => ?_, fun n hn hw => ?_⟩
  · rw [exec_loadRow r hr, State.lsOp_of_turn h, loadForm, hpost]
    rfl
  · show execVst c s = _
    rw [execVst, State.lsOp_of_turn h, storeForm, hpost]
    rfl
  · show execStw c s = _
    rw [execStw, State.lsOp_of_turn h, storeForm, hpost]
    rfl
  · show execSth c s = _
    rw [execSth, State.lsOp_of_turn h, storeForm, hpost]
    rfl
  · show execVldst c s = _
    rw [execVldst, State.lsOp_of_turn h, loadForm, hpost, Core.postWrite_lsModk]
    rfl
  · rw [cmuq_spec h, hpost]
  · show execAadd c s = _
    rw [execAadd, State.lsOp_of_turn h]
    rfl
  · show execLnop c s = _
    rw [execLnop, State.lsOp_of_turn h]
  · rw [State.accessExcs_of_aligned hn, State.placeExcs, hw]
  · rw [State.accessExcs_of_aligned hn, State.placeExcs, hw]
  · rw [State.accessExcs_of_aligned hn, State.placeExcs, hw]

end Sys2Proof.Machine

namespace Sys2Proof.Machine

set_option Elab.async false

/-! ## The Course matrix unit's products (R122-R124) -/

/-- The signed reading of a number is that of its word. -/
theorem signedOf_eq_toInt {w : Nat} (hw : 0 < w) (n : Nat) : signedOf w n = (BitVec.ofNat w n).toInt := by
  have hp : 2 ^ w = 2 * 2 ^ (w - 1) := by rw [← pow_succ', Nat.sub_add_cancel hw]
  rw [BitVec.toInt_eq_toNat_cond, BitVec.toNat_ofNat]
  unfold signedOf
  dsimp only
  split_ifs <;> omega

theorem signedOf_toBits {w : Nat} (hw : 0 < w) (x : Int) : signedOf w (toBits w x) = Claims.wrapped w x := by
  rw [signedOf_eq_toInt hw, ← ofInt_toNat, BitVec.ofNat_toNat, BitVec.setWidth_eq]
  rfl

/-- The extraction of a lane, its clamping aside. -/
theorem cmuExtract_fst (r : CmuRun) (x : Int) : (cmuExtract r x).1 = Claims.cmuOut r x := by
  have hsh : min 31 (r.f 0 26 22) = r.f 0 26 22 := by
    have : r.f 0 26 22 < 2 ^ (26 + 1 - 22) := wordField_lt _ _ _
    omega
  unfold cmuExtract Claims.cmuOut shiftDown wrap40
  rw [signedOf_toBits (by decide), hsh]
  dsimp only
  split
  · exact sat16_eq _
  · exact signedOf_toBits (by decide) _

/-! ### Sums -/

theorem foldl_cxAdd (l : List Cx) (a : Cx) : l.foldl cxAdd a = (a.1 + (l.map Prod.fst).sum, a.2 + (l.map Prod.snd).sum) := by
  induction l generalizing a with
  | nil => simp
  | cons x r ih => simp [ih, cxAdd, add_assoc]

/-- A complex sum of products, part by part. -/
theorem rowDot_eq (K : Nat) (a b : Nat → Cx) : rowDot K a b =
    (Claims.sumTo K fun k => (a k).1 * (b k).1 - (a k).2 * (b k).2, Claims.sumTo K fun k => (a k).1 * (b k).2 + (a k).2 * (b k).1) := by
  simp [rowDot, cxSum, foldl_cxAdd, Claims.sumTo, cxMul, Function.comp_def]

theorem sumTo_congr {K : Nat} {f g : Nat → Int} (h : ∀ k, k < K → f k = g k) : Claims.sumTo K f = Claims.sumTo K g :=
  congrArg List.sum (List.map_congr_left fun k hk => h k (List.mem_range.mp hk))

theorem any_range_congr {K : Nat} {f g : Nat → Bool} (h : ∀ k, k < K → f k = g k) : (List.range K).any f = (List.range K).any g := by
  rw [Bool.eq_iff_iff]
  simp only [List.any_eq_true, List.mem_range]
  exact exists_congr fun k => and_congr_right fun hk => by rw [h k hk]

/-! ### Matrices -/

theorem mem_pairs {n m : Nat} {p : Nat × Nat} : p ∈ pairs n m ↔ p.1 < n ∧ p.2 < m := by
  obtain ⟨i, j⟩ := p
  simp [pairs]

theorem any_pairs_congr {n m : Nat} {f g : Nat → Nat → Bool} (h : ∀ i j, i < n → j < m → f i j = g i j) :
    ((pairs n m).any fun p => f p.1 p.2) = (pairs n m).any fun p => g p.1 p.2 := by
  rw [Bool.eq_iff_iff]
  simp only [List.any_eq_true]
  refine exists_congr fun p => and_congr_right fun hp => ?_
  obtain ⟨hi, hj⟩ := mem_pairs.mp hp
  rw [h _ _ hi hj]

/-- An element of a matrix read whole is the element in memory. -/
theorem matrix_getD (s : State) (r : CmuRun) (w : Nat) {n m i j : Nat} (hi : i < n) (hj : j < m) :
    ((s.matrix r w n m).getD i []).getD j ((0, 0), false) = s.elemAt (r.elem w i j) := by
  simp [State.matrix, hi, hj]

theorem mget_matrix (s : State) (r : CmuRun) (w : Nat) {n m i j : Nat} (hi : i < n) (hj : j < m) :
    mget (s.matrix r w n m) i j = (Claims.elemRe s r w i j, Claims.elemIm s r w i j) := by
  rw [mget, matrix_getD s r w hi hj]
  rfl

theorem mbad_matrix (s : State) (r : CmuRun) (w : Nat) {n m i j : Nat} (hi : i < n) (hj : j < m) :
    mbad (s.matrix r w n m) i j = Claims.elemBad s r w i j := by
  rw [mbad, matrix_getD s r w hi hj]
  rfl

/-! ### Commands -/

/-- A command in execution with its addresses inside is computed, and the poison it read counted. -/
theorem State.cmuCommand_of_runs {s : State} {n op : Nat} {r : CmuRun} (h : Claims.CmuRuns s n op r) (f : CmuRun → State) :
    s.cmuCommand n op f = Claims.counted s n r (f r) := by
  obtain ⟨hcur, hop, hcomp, hrun, hin⟩ := h
  have ht : s.cmuTurn n op = some r := by simp [State.cmuTurn, hcur, hop, hcomp, hrun]
  rw [State.cmuCommand, ht]
  exact if_pos hin

/-- Whether a saturating extract clamped a component of a product. -/
def productSat (r : CmuRun) (rows cols : Nat) (f : Nat → Nat → Cx) : Bool :=
  (pairs rows cols).any fun p => (cmuExtract r (f p.1 p.2).1).2 || (cmuExtract r (f p.1 p.2).2).2

/-- A product without ACC leaves its sums extracted, each marked where it depends on poison. -/
theorem State.cmuProduct_of_plain {r : CmuRun} (h : r.f 0 28 28 = 0) (s : State) (n rows cols : Nat) (f : Nat → Nat → Cx)
    (bad : Nat → Nat → Bool) : s.cmuProduct n r rows cols f bad =
      (s.putMatrix r rows cols (fun i j => (Claims.cmuOut r (f i j).1, Claims.cmuOut r (f i j).2)) bad).cmuDone n
        { r with sat := productSat r rows cols f, poison := (pairs rows cols).any fun p => bad p.1 p.2 } := by
  have hacc : (r.f 0 28 28 == 1) = false := by simp [h]
  simp only [State.cmuProduct, hacc, Bool.false_and, Bool.or_false, Bool.false_eq_true, if_false, cxAdd, add_zero, cmuExtract_fst,
    productSat]

/-- A product is the matrix of its claim where its sums and marks are those of the claim. -/
theorem cmuProduct_of_sums {s : State} {n : Nat} {cmd : Instr} {r : CmuRun} {rows cols : Nat} {f : Nat → Nat → Cx}
    {re im : Nat → Nat → Int} {bad bad' : Nat → Nat → Bool} (hacc : r.f 0 28 28 = 0)
    (he : exec cmd s = .next (Claims.counted s n r (s.cmuProduct n r rows cols f bad)))
    (hf : ∀ i j, i < rows → j < cols → f i j = (re i j, im i j)) (hb : ∀ i j, i < rows → j < cols → bad i j = bad' i j) :
    Claims.CmuProduct s n cmd r rows cols re im bad' := by
  refine ⟨fun i j => (Claims.cmuOut r (f i j).1, Claims.cmuOut r (f i j).2), bad, productSat r rows cols f, ?_,
    fun i j hi hj => ⟨by simp only [hf i j hi hj], hb i j hi hj⟩⟩
  rw [he, State.cmuProduct_of_plain hacc, any_pairs_congr hb]

theorem matmul_spec (n : Fin 24) (s : State) (r : CmuRun) (h : Claims.CmuRuns s n 0 r) (hacc : r.f 0 28 28 = 0) :
    Claims.CmuProduct s n (.matmul n) r r.M r.N
      (fun i j => Claims.sumTo r.K fun k => Claims.elemRe s r 1 i k * Claims.elemRe s r 3 k j
        - Claims.elemIm s r 1 i k * Claims.elemIm s r 3 k j)
      (fun i j => Claims.sumTo r.K fun k => Claims.elemRe s r 1 i k * Claims.elemIm s r 3 k j
        + Claims.elemIm s r 1 i k * Claims.elemRe s r 3 k j)
      (fun i j => (List.range r.K).any fun k => Claims.elemBad s r 1 i k || Claims.elemBad s r 3 k j) := by
  refine cmuProduct_of_sums hacc (congrArg _ (State.cmuCommand_of_runs h _)) (fun i j hi hj => ?_) fun i j hi hj => ?_
  · rw [rowDot_eq]
    exact Prod.ext (sumTo_congr fun k hk => by rw [mget_matrix s r 1 hi hk, mget_matrix s r 3 hk hj])
      (sumTo_congr fun k hk => by rw [mget_matrix s r 1 hi hk, mget_matrix s r 3 hk hj])
  · exact any_range_congr fun k hk => by rw [mbad_matrix s r 1 hi hk, mbad_matrix s r 3 hk hj]

theorem matmulH_spec (n : Fin 24) (s : State) (r : CmuRun) (h : Claims.CmuRuns s n 1 r) (hacc : r.f 0 28 28 = 0) :
    Claims.CmuProduct s n (.matmulH n) r r.M r.N
      (fun i j => Claims.sumTo r.K fun k => Claims.elemRe s r 1 i k * Claims.elemRe s r 3 j k
        + Claims.elemIm s r 1 i k * Claims.elemIm s r 3 j k)
      (fun i j => Claims.sumTo r.K fun k => Claims.elemIm s r 1 i k * Claims.elemRe s r 3 j k
        - Claims.elemRe s r 1 i k * Claims.elemIm s r 3 j k)
      (fun i j => (List.range r.K).any fun k => Claims.elemBad s r 1 i k || Claims.elemBad s r 3 j k) := by
  refine cmuProduct_of_sums hacc (congrArg _ (State.cmuCommand_of_runs h _)) (fun i j hi hj => ?_) fun i j hi hj => ?_
  · rw [rowDot_eq]
    refine Prod.ext (sumTo_congr fun k hk => ?_) (sumTo_congr fun k hk => ?_)
    all_goals
      rw [mget_matrix s r 1 hi hk, mget_matrix s r 3 hj hk, cxConj]
      ring
  · exact any_range_congr fun k hk => by rw [mbad_matrix s r 1 hi hk, mbad_matrix s r 3 hj hk]

/-! ### GRAM -/

/-- The exact sum of an element of GRAM's lower triangle: Σ_k conj A(k,i)·A(k,j), with DIAG on the diagonal. -/
def gramSum (s : State) (r : CmuRun) (i j : Nat) : Cx :=
  (Claims.sumTo r.K (fun k => Claims.elemRe s r 1 k i * Claims.elemRe s r 1 k j + Claims.elemIm s r 1 k i * Claims.elemIm s r 1 k j) +
      if i = j then (BitVec.ofNat 32 (r.f 7 31 0)).toInt else 0,
    Claims.sumTo r.K fun k => Claims.elemRe s r 1 k i * Claims.elemIm s r 1 k j - Claims.elemIm s r 1 k i * Claims.elemRe s r 1 k j)

/-- The sum as the unit forms it from the matrix it has read. -/
theorem gramSum_eq (s : State) (r : CmuRun) {i j : Nat} (hi : i < r.N) (hj : j < r.N) :
    cxAdd (rowDot r.K (fun k => cxConj (mget (s.matrix r 1 r.K r.N) k i)) (fun k => mget (s.matrix r 1 r.K r.N) k j))
      (if i = j then (signedOf 32 (r.f 7 31 0), 0) else (0, 0)) = gramSum s r i j := by
  have hdiag : (if i = j then (signedOf 32 (r.f 7 31 0), 0) else ((0, 0) : Cx)) =
      (if i = j then (BitVec.ofNat 32 (r.f 7 31 0)).toInt else 0, 0) := by
    split
    · rw [signedOf_eq_toInt (by decide)]
    · rfl
  rw [rowDot_eq, hdiag]
  refine Prod.ext (congrArg (· + _) (sumTo_congr fun k hk => ?_)) ((add_zero _).trans (sumTo_congr fun k hk => ?_))
  all_goals
    rw [mget_matrix s r 1 hk hi, mget_matrix s r 1 hk hj, cxConj]
    ring

theorem cxAdd_zero (a : Cx) : cxAdd a (0, 0) = a := Prod.ext (add_zero _) (add_zero _)

/-- The extracted element of GRAM's lower triangle. -/
def gramLow (s : State) (r : CmuRun) (i j : Nat) : Cx := (Claims.cmuOut r (gramSum s r i j).1, Claims.cmuOut r (gramSum s r i j).2)

/-- GRAM without ACC: the lower triangle extracted, the upper its conjugate bit for bit. -/
theorem gram_spec (n : Fin 24) (s : State) (r : CmuRun) (h : Claims.CmuRuns s n 2 r) (hacc : r.f 0 28 28 = 0) :
    ∃ C bad sat poison, exec (.gram n) s =
        .next (Claims.counted s n r ((s.putMatrix r r.N r.N C bad).cmuDone n { r with sat := sat, poison := poison })) ∧
      (∀ i j, i < r.N → j ≤ i → C i j = gramLow s r i j) ∧
      (∀ i j, i < r.N → j < i → C j i = ((C i j).1, Claims.wrapped 16 (-(C i j).2))) ∧
      (∀ i j, i < r.N → j ≤ i → bad i j = (List.range r.K).any fun k => Claims.elemBad s r 1 k i || Claims.elemBad s r 1 k j) := by
  have hacc' : (r.f 0 28 28 == 1) = false := by simp [hacc]
  refine ⟨_, _, _, _, congrArg _ (State.cmuCommand_of_runs h _), fun i j hi hj => ?_, fun i j hi hj => ?_, fun i j hi hj => ?_⟩
  · simp only [if_pos hj, cmuExtract_fst, hacc', Bool.false_eq_true, if_false, cxAdd_zero, gramSum_eq s r hi (by omega : j < r.N)]
    rfl
  · simp only [if_neg (by omega : ¬ i ≤ j), if_pos hj.le, signedOf_toBits (by decide : 0 < 16)]
  · simp only [if_pos hj, hacc', Bool.false_and, Bool.or_false]
    exact any_range_congr fun k hk => by rw [mbad_matrix s r 1 hk hi, mbad_matrix s r 1 hk (by omega)]

/-- Settles O28, by the matrices that the three commands leave. -/
theorem cmuProductsAreExact : Obligations.CmuProductsAreExact := ⟨matmul_spec, matmulH_spec, gram_spec⟩

end Sys2Proof.Machine

namespace Sys2Proof.Machine

set_option Elab.async false

/-! ## Memory and the cores (R98, R108)

What the memory system and the fault manager do neither reads the cores nor changes them: each operation gives the same with any cores
put in the place of the state's own. -/

/-- The state with other cores and matrix units. -/
def State.withSett (s : State) (x : Sett) : State := { s with sett := x }

theorem State.setCore_eq_withSett (s : State) (c : Nat) (k : Core) :
    s.setCore c k = s.withSett { s.sett with cores := tset Core.reset s.sett.cores c k } := rfl

section WithSett

variable {s : State} {x : Sett}

/-! ### Branches and folds -/

theorem ite_withSett {p q : Prop} [Decidable p] [Decidable q] {a b a' b' : State} (h : p ↔ q) (ha : a' = a.withSett x)
    (hb : b' = b.withSett x) : (if p then a' else b') = (if q then a else b).withSett x := by
  rw [ha, hb, apply_ite (State.withSett · x)]
  exact if_congr h rfl rfl

theorem foldl_withSett {α : Type} {f : State → α → State} (h : ∀ s y, f (s.withSett x) y = (f s y).withSett x) (l : List α)
    (s : State) : l.foldl f (s.withSett x) = (l.foldl f s).withSett x :=
  List.foldl_hom (State.withSett · x) h

/-- An operation that gives the same with other cores leaves the cores as they are. -/
theorem sett_of_withSett {s t : State} (h : t = t.withSett s.sett) : t.sett = s.sett := by
  rw [h]
  rfl

/-! ### Fields -/

@[simp] theorem State.withSett_devclk : (s.withSett x).devclk = s.devclk := rfl
@[simp] theorem State.withSett_faults : (s.withSett x).faults = s.faults := rfl
@[simp] theorem State.withSett_memSys : (s.withSett x).memSys = s.memSys := rfl
@[simp] theorem State.reg_withSett (cls i o : Nat) : (s.withSett x).reg cls i o = s.reg cls i o := rfl
@[simp] theorem State.setReg_withSett (cls i o : Nat) (w : Word) :
    (s.withSett x).setReg cls i o w = (s.setReg cls i o w).withSett x := rfl
@[simp] theorem State.setFld_withSett (f : Field) (i v : Nat) : (s.withSett x).setFld f i v = (s.setFld f i v).withSett x := rfl
@[simp] theorem State.addFld_withSett (f : Field) (i n : Nat) : (s.withSett x).addFld f i n = (s.addFld f i n).withSett x := rfl
@[simp] theorem State.satFld_withSett (f : Field) (i n : Nat) : (s.withSett x).satFld f i n = (s.satFld f i n).withSett x := rfl
@[simp] theorem State.setPair_withSett (lo hi : Field) (i n : Nat) :
    (s.withSett x).setPair lo hi i n = (s.setPair lo hi i n).withSett x := rfl

/-! ### Events and faults -/

@[simp] theorem State.countEvent_withSett (cls inst ev n : Nat) :
    (s.withSett x).countEvent cls inst ev n = (s.countEvent cls inst ev n).withSett x := by
  unfold State.countEvent
  refine ite_withSett .rfl rfl (foldl_withSett (fun s k => ?_) _ s)
  dsimp only
  exact ite_withSett .rfl (ite_withSett .rfl rfl rfl) rfl

@[simp] theorem State.countLost_withSett (cls inst : Nat) : (s.withSett x).countLost cls inst = (s.countLost cls inst).withSett x :=
  State.countEvent_withSett (s := { s with journal := { s.journal with
    lost := tset 0 s.journal.lost cls (satAdd allOnes32 (tget 0 s.journal.lost cls) 1) } }) ..

@[simp] theorem State.post_withSett (cls inst event sev detail : Nat) :
    (s.withSett x).post cls inst event sev detail = (s.post cls inst event sev detail).withSett x :=
  ite_withSett .rfl (ite_withSett .rfl (ite_withSett .rfl rfl rfl) (State.countLost_withSett ..))
    (ite_withSett .rfl (State.countEvent_withSett (s := { s with journal := { s.journal with
      fifo := tset [] s.journal.fifo cls (tget [] s.journal.fifo cls ++ [⟨cls, inst, event, sev, BitVec.ofNat 32 detail⟩]) } }) ..)
      (State.countLost_withSett ..))

@[simp] theorem State.setLevel_withSett (n : Nat) : (s.withSett x).setLevel n = (s.setLevel n).withSett x :=
  ite_withSett .rfl rfl (State.post_withSett (s := s.setFld Reg.LEDGER.STATUS_LEVEL 0 n) ..)

/-- What a recovery's end writes before its event: the recovery is gone, its duration shows. -/
def State.timed (s : State) (r : Recovery) : State :=
  let dur := min allOnes32 (s.devclk.toNat - r.since)
  (({ s with faults := { s.faults with recoveries := s.faults.recoveries.erase r } }).setFld
    Reg.SYS.FAULT_DURATION_DURATION 0 dur).maxFld Reg.SYS.FAULT_MAX_MAX 0 dur

theorem State.recovered_eq (s : State) (r : Recovery) : s.recovered r =
    let dur := min allOnes32 (s.devclk.toNat - r.since)
    let d := r.code + (min (2 ^ 27 - 1) dur) * 2 ^ 5
    State.syncRecoveries (if dur ≤ 4000 then (s.timed r).post 0 0 0x011 0 d
      else ((s.timed r).satFld Reg.SYS.FAULT_STATUS_OVER_BOUND 0 1).post 0 0 0x012 3 d) := rfl

@[simp] theorem State.syncRecoveries_withSett : (s.withSett x).syncRecoveries = s.syncRecoveries.withSett x := rfl

@[simp] theorem State.recovered_withSett (r : Recovery) : (s.withSett x).recovered r = (s.recovered r).withSett x := by
  have ht : (s.withSett x).timed r = (s.timed r).withSett x := rfl
  rw [State.recovered_eq, State.recovered_eq, ht]
  dsimp only
  rw [← State.syncRecoveries_withSett, State.satFld_withSett, State.post_withSett, State.post_withSett]
  refine congrArg State.syncRecoveries ?_
  refine ite_withSett ?_ rfl rfl
  rfl

/-- What the fault manager records of a fault: counts, FAULT_LAST and FAULT_DETECT, and its events. -/
def State.faultNoted (s : State) (code cls inst : Nat) (dbl : Bool) : State :=
  let s := s.addFld (Reg.SYS.FAULT_COUNT_COUNT code) 0 1
  let s := if dbl then s.addFld (Reg.SYS.FAULT_COUNT_COUNT 13) 0 1 else s
  let s := ((s.setFld Reg.SYS.FAULT_LAST_CODE 0 code).setFld Reg.SYS.FAULT_LAST_CLASS 0 cls).setFld
    Reg.SYS.FAULT_LAST_SELECTOR 0 inst
  let s := s.setPair Reg.SYS.FAULT_DETECT_LO_DETECT Reg.SYS.FAULT_DETECT_HI_DETECT 0 s.devclk.toNat
  let s := s.post 0 0 0x010 (faultSeverity code) (code + cls * 2 ^ 5 + 2 ^ 13 * inst)
  if dbl then s.post 0 0 0x013 3 code else s

/-- A recovery opened. -/
def State.recovering (s : State) (r : Recovery) : State :=
  ({ s with faults := { s.faults with recoveries := r :: s.faults.recoveries } }).syncRecoveries

theorem State.reportFault_eq (s : State) (code cls inst : Nat) (b : Bool) : s.reportFault code cls inst b =
    let t := s.faultNoted code cls inst (b || s.faults.recoveries.any fun r => sameUnit r code cls inst)
    let r : Recovery := ⟨code, cls, inst, (t.setLevel 0).devclk.toNat⟩
    if code = 7 then t
    else if [0, 1, 8, 9, 11].contains code then ((t.setLevel 0).recovering r).recovered r else (t.setLevel 0).recovering r := rfl

@[simp] theorem State.faultNoted_withSett (code cls inst : Nat) (dbl : Bool) :
    (s.withSett x).faultNoted code cls inst dbl = (s.faultNoted code cls inst dbl).withSett x := by
  cases dbl <;> simp [State.faultNoted]

@[simp] theorem State.recovering_withSett (r : Recovery) : (s.withSett x).recovering r = (s.recovering r).withSett x := rfl

@[simp] theorem State.reportFault_withSett (code cls inst : Nat) (b : Bool) :
    (s.withSett x).reportFault code cls inst b = (s.reportFault code cls inst b).withSett x := by
  rw [State.reportFault_eq, State.reportFault_eq]
  simp only [State.withSett_faults, State.withSett_devclk, State.faultNoted_withSett, State.setLevel_withSett,
    State.recovering_withSett, State.recovered_withSett]
  exact ite_withSett .rfl rfl (ite_withSett .rfl rfl rfl)

/-! ### Memory -/

@[simp] theorem State.decodeAt_withSett (k : Nat) : (s.withSett x).decodeAt k = s.decodeAt k := rfl
@[simp] theorem State.memKey_withSett (a : Nat) : (s.withSett x).memKey a = s.memKey a := rfl
@[simp] theorem State.bulkKey_withSett (c l : Nat) : (s.withSett x).bulkKey c l = s.bulkKey c l := rfl
@[simp] theorem State.fld_withSett (f : Field) (i : Nat) : (s.withSett x).fld f i = s.fld f i := rfl
@[simp] theorem State.spallAt_withSett (n : Nat) : (s.withSett x).spallAt n = s.spallAt n := rfl
@[simp] theorem State.spallPlace_withSett (k : Nat) : (s.withSett x).spallPlace k = s.spallPlace k := rfl
@[simp] theorem State.spallStamp_withSett : (s.withSett x).spallStamp = s.spallStamp := rfl
@[simp] theorem State.spallThresh_withSett : (s.withSett x).spallThresh = s.spallThresh := rfl
@[simp] theorem State.spallWindow_withSett : (s.withSett x).spallWindow = s.spallWindow := rfl
@[simp] theorem State.retiredCount_withSett (c : Nat) : (s.withSett x).retiredCount c = s.retiredCount c := rfl
@[simp] theorem State.erasedCol_withSett (m : MemUnit) : (s.withSett x).erasedCol m = s.erasedCol m := rfl
@[simp] theorem State.setSpall_withSett (n : Nat) (e : Spall) : (s.withSett x).setSpall n e = (s.setSpall n e).withSett x := rfl
@[simp] theorem State.syncSpall_withSett : (s.withSett x).syncSpall = s.syncSpall.withSett x := rfl

/-- What a page's retirement leaves to do once its words are copied: the entry in the table, the count and the event. -/
def State.pageRetired (t : State) (c n page : Nat) : State :=
  (({ t with memSys := { t.memSys with retired := tins t.memSys.retired (256 * c + n) (page, n) } }).setFld
    Reg.BULK.STATUS_RETIRED c (n + 1)).post 0x49 c 0x003 0 (page % 2 ^ 24 + 2 ^ 24 * n)

@[simp] theorem State.pageRetired_withSett (c n page : Nat) :
    (s.withSett x).pageRetired c n page = (s.pageRetired c n page).withSett x := by
  unfold State.pageRetired
  rw [← State.post_withSett, ← State.setFld_withSett]
  rfl

theorem State.retirePage_eq (s : State) (c page : Nat) : s.retirePage c page =
    if 256 ≤ s.retiredCount c then none
    else some (s.retiredCount c, ((List.range 256).foldl (fun t w =>
      t.storeWord (2 ^ 40 + 2 ^ 37 * c + 2 ^ 20 * s.fld Reg.BULK.CAPACITY_MB c + s.retiredCount c * 4096 + 16 * w)
        (t.decodeAt (s.bulkKey c (page * 4096 + 16 * w))).2.2.2
        (t.decodeAt (s.bulkKey c (page * 4096 + 16 * w))).2.2.1.bad) s).pageRetired c (s.retiredCount c) page) := rfl

theorem State.retirePage_withSett (c page : Nat) :
    (s.withSett x).retirePage c page = (s.retirePage c page).map fun r => (r.1, r.2.withSett x) := by
  rw [State.retirePage_eq, State.retirePage_eq, foldl_withSett (fun _ _ => rfl), State.pageRetired_withSett]
  by_cases h : 256 ≤ s.retiredCount c
  · have h' : 256 ≤ (s.withSett x).retiredCount c := h
    rw [if_pos h, if_pos h']
    rfl
  · have h' : ¬ 256 ≤ (s.withSett x).retiredCount c := h
    rw [if_neg h, if_neg h', Option.map_some]
    simp only [State.retiredCount_withSett, State.bulkKey_withSett, State.fld_withSett]

@[simp] theorem State.spallRetired_withSett (c page : Nat) :
    (s.withSett x).spallRetired c page = (s.spallRetired c page).withSett x := by
  unfold State.spallRetired
  rw [foldl_withSett, State.syncSpall_withSett]
  exact fun _ _ => ite_withSett .rfl rfl rfl

@[simp] theorem State.autoRetire_withSett (e : Spall) : (s.withSett x).autoRetire e = (s.autoRetire e).withSett x := by
  unfold State.autoRetire
  rw [State.retirePage_withSett]
  cases s.retirePage (e.memory - 4) (e.addr / 4096) with
  | none => exact ite_withSett .rfl rfl rfl
  | some r => exact ite_withSett .rfl (State.spallRetired_withSett ..) rfl

@[simp] theorem State.spallHarden_withSett (n : Nat) : (s.withSett x).spallHarden n = (s.spallHarden n).withSett x := by
  unfold State.spallHarden
  simp only [State.spallAt_withSett, State.spallThresh_withSett, State.setSpall_withSett, State.post_withSett, State.autoRetire_withSett]
  exact ite_withSett .rfl rfl rfl

@[simp] theorem State.spallNote_withSett (k col : Nat) : (s.withSett x).spallNote k col = (s.spallNote k col).withSett x := by
  unfold State.spallNote
  simp only [State.spallPlace_withSett, State.spallStamp_withSett, State.spallWindow_withSett, State.withSett_memSys,
    State.withSett_devclk, State.spallAt_withSett, State.setSpall_withSett, State.spallHarden_withSett, State.syncSpall_withSett,
    State.addFld_withSett]
  generalize List.find? _ s.memSys.spall = used
  cases used with
  | some p => exact ite_withSett .rfl rfl (ite_withSett .rfl rfl rfl)
  | none =>
    generalize List.find? _ (List.range 256) = free
    cases free with
    | some n => rfl
    | none =>
      dsimp only
      split
      next n h =>
        erw [h]
      next h =>
        erw [h]

@[simp] theorem State.eraseCheck_withSett (m : MemUnit) (col : Nat) :
    (s.withSett x).eraseCheck m col = (s.eraseCheck m col).withSett x := by
  unfold State.eraseCheck
  simp only [State.reg_withSett, State.erasedCol_withSett, State.setReg_withSett, State.post_withSett]
  exact ite_withSett .rfl (ite_withSett .rfl rfl rfl) rfl

/-- A correction is noted alike, whether or not it was confined to the erased column. -/
theorem State.spallNote_ite_withSett (b : Bool) (k col : Nat) :
    (if b then s.withSett x else (s.withSett x).spallNote k col) = (if b then s else s.spallNote k col).withSett x :=
  ite_withSett .rfl rfl (State.spallNote_withSett ..)

/-- The event of an uncorrectable word, of a Course or another memory. -/
theorem State.post_ite_withSett (p : Prop) [Decidable p] (c i e v d c' i' e' v' d' : Nat) :
    (if p then (s.withSett x).post c i e v d else (s.withSett x).post c' i' e' v' d') =
      (if p then s.post c i e v d else s.post c' i' e' v' d').withSett x :=
  ite_withSett .rfl (State.post_withSett ..) (State.post_withSett ..)

@[simp] theorem State.noteDecode_withSett (k : Nat) (o : Decoded) : (s.withSett x).noteDecode k o = (s.noteDecode k o).withSett x := by
  unfold State.noteDecode
  cases o with
  | clean => rfl
  | poison => rfl
  | corrected c =>
    simp only [State.reg_withSett, State.erasedCol_withSett, State.setReg_withSett, State.eraseCheck_withSett,
      State.spallNote_ite_withSett, State.reportFault_withSett]
  | uncorrectable =>
    simp only [State.reg_withSett, State.setReg_withSett, State.countEvent_withSett, State.spallPlace_withSett,
      State.post_ite_withSett, State.reportFault_withSett]

@[simp] theorem State.readWord_withSett (k : Nat) :
    (s.withSett x).readWord k = ((s.readWord k).1, (s.readWord k).2.1, (s.readWord k).2.2.withSett x) := by
  unfold State.readWord
  simp

/-- One word of a read, joined to the bytes read so far. -/
def State.readPart (a n : Nat) (acc : List (Byte × Bool) × State) (w : Nat) : List (Byte × Bool) × State :=
  let (d, p, s) := acc.2.readWord (acc.2.memKey w)
  (acc.1 ++ (List.range 16).filterMap (fun i => if a ≤ w + i ∧ w + i < a + n then some (d.getD i 0, p) else none), s)

theorem State.readMem_eq (s : State) (a n : Nat) : s.readMem a n = (wordsOf a n).foldl (State.readPart a n) ([], s) := rfl

theorem State.readPart_withSett (a n : Nat) (l : List (Byte × Bool)) (w : Nat) :
    State.readPart a n (l, s.withSett x) w =
      ((State.readPart a n (l, s) w).1, (State.readPart a n (l, s) w).2.withSett x) := by
  simp only [State.readPart, State.memKey_withSett, State.readWord_withSett]

/-- Reading memory does not depend on the cores. -/
@[simp] theorem State.readMem_withSett (a n : Nat) :
    (s.withSett x).readMem a n = ((s.readMem a n).1, (s.readMem a n).2.withSett x) := by
  rw [State.readMem_eq, State.readMem_eq]
  exact List.foldl_hom (fun r : List (Byte × Bool) × State => (r.1, r.2.withSett x))
    (fun r w => State.readPart_withSett a n r.1 w) (init := ([], s))

/-- A scrubber's hold of a word, noted as overtaken by a write of it. -/
def State.staleNoted (s : State) (k : Nat) : State :=
  if s.memSys.scrubHeld.any (fun p => p.2 == k) ∧ !s.memSys.staleWrite.contains k then
    { s with memSys := { s.memSys with staleWrite := k :: s.memSys.staleWrite } }
  else s

@[simp] theorem State.staleNoted_withSett (k : Nat) : (s.withSett x).staleNoted k = (s.staleNoted k).withSett x :=
  ite_withSett .rfl rfl rfl

theorem State.mergeWord_eq (s : State) (k o : Nat) (bytes : List Byte) (poison : Bool) : s.mergeWord k o bytes poison =
    if o = 0 ∧ bytes.length = 16 then (s.staleNoted k).storeWord k bytes poison
    else (s.staleNoted k).storeWord k
      ((List.range 16).map (fun i => if o ≤ i ∧ i < o + bytes.length then bytes.getD (i - o) 0
        else ((s.staleNoted k).decodeAt k).2.2.2.getD i 0))
      (poison || ((s.staleNoted k).decodeAt k).2.2.1.bad) := rfl

@[simp] theorem State.mergeWord_withSett (k o : Nat) (bytes : List Byte) (poison : Bool) :
    (s.withSett x).mergeWord k o bytes poison = (s.mergeWord k o bytes poison).withSett x := by
  rw [State.mergeWord_eq, State.mergeWord_eq, State.staleNoted_withSett]
  exact ite_withSett .rfl rfl rfl

@[simp] theorem State.writeMem_withSett (a : Nat) (bytes : List (Byte × Bool)) :
    (s.withSett x).writeMem a bytes = (s.writeMem a bytes).withSett x := by
  unfold State.writeMem
  refine foldl_withSett (fun _ _ => ?_) _ s
  simp only [State.memKey_withSett, State.mergeWord_withSett]

@[simp] theorem State.took_withSett (cls inst a : Nat) (l : List (Byte × Bool)) :
    (s.withSett x).took cls inst a l = (s.took cls inst a l).withSett x := by
  unfold State.took
  exact ite_withSett .rfl rfl (State.countEvent_withSett ..)

/-! ### Host memory and the bus -/

@[simp] theorem State.atsFill_withSett (a : Nat) : (s.withSett x).atsFill a = (s.atsFill a).withSett x := by
  unfold State.atsFill
  exact ite_withSett .rfl rfl rfl

@[simp] theorem State.aer_withSett (b : Nat) : (s.withSett x).aer b = (s.aer b).withSett x := by
  unfold State.aer
  rw [State.post_withSett, State.reportFault_withSett]

end WithSett

/-! ### What keeps the cores -/

theorem State.readMem_sett (s : State) (a n : Nat) : (s.readMem a n).2.sett = s.sett :=
  sett_of_withSett (congrArg Prod.snd (State.readMem_withSett (s := s) (x := s.sett) a n))

theorem State.writeMem_sett (s : State) (a : Nat) (bytes : List (Byte × Bool)) : (s.writeMem a bytes).sett = s.sett :=
  sett_of_withSett (State.writeMem_withSett (s := s) (x := s.sett) ..)

theorem State.took_sett (s : State) (cls inst a : Nat) (l : List (Byte × Bool)) : (s.took cls inst a l).sett = s.sett :=
  sett_of_withSett (State.took_withSett (s := s) (x := s.sett) ..)

theorem State.atsFill_sett (s : State) (a : Nat) : (s.atsFill a).sett = s.sett :=
  sett_of_withSett (State.atsFill_withSett (s := s) (x := s.sett) ..)

theorem State.aer_sett (s : State) (b : Nat) : (s.aer b).sett = s.sett :=
  sett_of_withSett (State.aer_withSett (s := s) (x := s.sett) ..)

theorem State.hostWrite_sett (s : State) (a : Nat) (bytes : List (Byte × Bool)) : (s.hostWrite a bytes).sett = s.sett := by
  unfold State.hostWrite
  cases bytes.any (·.2) with
  | false => rfl
  | true => exact State.aer_sett ..

theorem State.busWrite_sett (s : State) (ni port a : Nat) (bytes : List (Byte × Bool)) : (s.busWrite ni port a bytes).2.sett = s.sett := by
  unfold State.busWrite
  split
  · split
    · exact (State.hostWrite_sett ..).trans (State.atsFill_sett ..)
    · exact State.writeMem_sett ..
  · rfl

/-- One line of a write, after those before it. -/
def State.putPart (ni port : Nat) (acc : BusStatus × State) (p : Nat × List (Byte × Bool)) : BusStatus × State :=
  let (st, s) := acc.2.busWrite ni port p.1 p.2
  (if acc.1 = .ok then st else acc.1, s)

theorem State.busPut_eq (s : State) (ni port a : Nat) (bytes : List (Byte × Bool)) :
    s.busPut ni port a bytes = (lines a (bytes.length / 256 + 2) bytes).foldl (State.putPart ni port) (.ok, s) := rfl

theorem State.busPut_sett (s : State) (ni port a : Nat) (bytes : List (Byte × Bool)) : (s.busPut ni port a bytes).2.sett = s.sett := by
  rw [State.busPut_eq]
  refine List.foldlRecOn (motive := fun (r : BusStatus × State) => r.2.sett = s.sett) _ _ rfl fun r hr p _ => ?_
  exact (State.busWrite_sett ..).trans hr

/-- What a read of memory gives does not depend on the cores. -/
theorem State.readMem_setCore (s : State) (c : Nat) (k : Core) (a n : Nat) : ((s.setCore c k).readMem a n).1 = (s.readMem a n).1 := by
  rw [State.setCore_eq_withSett, State.readMem_withSett]

end Sys2Proof.Machine

namespace Sys2Proof.Machine

set_option Elab.async false

/-! ## A bundle's retirement (R108, R113, R130, R137) -/

/-! ### The address map of the cores -/

/-- Outside bulk memory the address map is fixed (R16). -/
theorem State.region_eq_of_not_bulk (s t : State) {a : Nat} (h : a < bulkBase ∨ 0x4100000000 ≤ a) : s.region a = t.region a := by
  rcases h with h | h
  · simp only [State.region, if_pos h]
  · have hb : ¬ a < bulkBase := by unfold bulkBase; omega
    simp only [State.region, if_neg hb, if_neg (Nat.not_lt.2 h)]

/-- A place in bulk memory is bulk memory or unmapped. -/
theorem State.region_of_bulk (s : State) {a : Nat} (h : bulkBase ≤ a) (h' : a < 0x4100000000) :
    s.region a = .unmapped ∨ ∃ d l, s.region a = .bulk d l := by
  have hb : ∀ n, n ≤ bulkBase → ¬ a < n := fun n hn => Nat.not_lt.2 (hn.trans h)
  unfold State.region
  rw [if_neg (hb _ (by decide)), if_neg (hb _ (by decide)), if_neg (hb _ (by decide)), if_neg (hb _ (by decide)),
    if_neg (hb _ (by decide)), if_neg (hb _ (by decide)), if_neg (hb _ (by decide)), if_neg (hb _ le_rfl), if_pos h']
  split
  · exact .inl rfl
  · exact .inr ⟨_, _, rfl⟩

theorem State.whereIs_bulk (s : State) (c : Nat) {a : Nat} (h : bulkBase ≤ a) (h' : a < 0x4100000000) : s.whereIs c a ≠ .local_ := by
  obtain hr | ⟨d, l, hr⟩ := s.region_of_bulk h h' <;> simp [State.whereIs, hr]

/-- Whether an address lies in a core's own local data does not depend on the state. -/
theorem State.whereIs_local_congr (s t : State) (c a : Nat) : s.whereIs c a = .local_ ↔ t.whereIs c a = .local_ := by
  by_cases h : bulkBase ≤ a ∧ a < 0x4100000000
  · exact iff_of_false (s.whereIs_bulk c h.1 h.2) (t.whereIs_bulk c h.1 h.2)
  · unfold State.whereIs
    rw [s.region_eq_of_not_bulk t (by omega)]

/-! ### The writes of a bundle as they land -/

theorem State.core_of_sett {s t : State} (h : t.sett = s.sett) (c : Nat) : t.core c = s.core c := by
  rw [State.core, State.core, h]

/-- A register write leaves the rest of the core as it is. -/
theorem Core.put_control (k : Core) (w : RegWrite) : (k.put w).pc = k.pc ∧ (k.put w).rep = k.rep ∧ (k.put w).stepping = k.stepping ∧
    (k.put w).stores = k.stores := by
  cases w with
  | p n x m =>
    dsimp only [Core.put]
    split <;> exact ⟨rfl, rfl, rfl, rfl⟩
  | _ => exact ⟨rfl, rfl, rfl, rfl⟩

theorem Core.putAll_control (k : Core) (l : List (Nat × RegWrite)) : (k.putAll l).pc = k.pc ∧ (k.putAll l).rep = k.rep ∧
    (k.putAll l).stepping = k.stepping ∧ (k.putAll l).stores = k.stores :=
  List.foldlRecOn (motive := fun j : Core => j.pc = k.pc ∧ j.rep = k.rep ∧ j.stepping = k.stepping ∧ j.stores = k.stores) l _
    ⟨rfl, rfl, rfl, rfl⟩ fun j hj w _ => by
      obtain ⟨h₁, h₂, h₃, h₄⟩ := j.put_control w.2
      obtain ⟨g₁, g₂, g₃, g₄⟩ := hj
      exact ⟨h₁.trans g₁, h₂.trans g₂, h₃.trans g₃, h₄.trans g₄⟩

@[simp] theorem Core.putAll_rep (k : Core) (l : List (Nat × RegWrite)) : (k.putAll l).rep = k.rep := (k.putAll_control l).2.1
@[simp] theorem Core.putAll_stepping (k : Core) (l : List (Nat × RegWrite)) : (k.putAll l).stepping = k.stepping :=
  (k.putAll_control l).2.2.1
@[simp] theorem Core.putAll_stores (k : Core) (l : List (Nat × RegWrite)) : (k.putAll l).stores = k.stores :=
  (k.putAll_control l).2.2.2

/-- A core whose bundle in execution is `st`. -/
def Core.staged (k : Core) (st : Stage) (b : Bool) : Core := { k with stage := st, waiting := b }

theorem Core.put_staged (k : Core) (st : Stage) (b : Bool) (w : RegWrite) : (k.staged st b).put w = (k.put w).staged st b := by
  cases w with
  | p n x m =>
    dsimp only [Core.put]
    split <;> rfl
  | _ => rfl

theorem Core.putAll_staged (k : Core) (st : Stage) (b : Bool) (l : List (Nat × RegWrite)) :
    (k.staged st b).putAll l = (k.putAll l).staged st b :=
  List.foldl_hom (Core.staged · st b) fun k w => k.put_staged st b w.2

/-- What a write lands as does not depend on its latency. -/
theorem Core.putAll_map (k : Core) (l : List (Nat × RegWrite)) : k.putAll (l.map fun w => (w.1 - 1, w.2)) = k.putAll l :=
  List.foldl_map

theorem Core.advance_staged (k : Core) (st : Stage) (b : Bool) (ws : List (Nat × RegWrite)) (act : SbAct) (held : Bool) :
    (k.staged st b).advance ws act held = (k.advance ws act held).staged st b := by
  have hrep : (k.staged st b).rep = k.rep := rfl
  unfold Core.advance
  simp only [Core.putAll_staged, hrep]
  cases k.rep with
  | some r =>
    dsimp only
    split <;> rfl
  | none =>
    cases act with
    | rep n => cases n <;> rfl
    | _ => rfl

/-- What a bundle changes of a core as it retires is its registers, PC, ROT, LC and run. -/
theorem Core.advance_control (k : Core) (ws : List (Nat × RegWrite)) (act : SbAct) (held : Bool) :
    (k.advance ws act held).stepping = k.stepping ∧ (k.advance ws act held).stores = k.stores := by
  unfold Core.advance
  cases k.rep with
  | some r =>
    dsimp only
    split <;> exact ⟨Core.putAll_stepping .., Core.putAll_stores ..⟩
  | none =>
    cases act with
    | rep n => cases n <;> exact ⟨Core.putAll_stepping .., Core.putAll_stores ..⟩
    | _ => exact ⟨Core.putAll_stepping .., Core.putAll_stores ..⟩

/-- A step by the debugger ends with the bundle, or with the run the bundle is in (R112). -/
theorem Core.stepped_eq (k : Core) : (if k.stepping ∧ k.rep.isNone then { k with stepping := false } else k) =
    { k with stepping := k.stepping && k.rep.isSome } := by
  split
  · next h =>
    obtain ⟨_, hr⟩ := h
    rw [Option.isNone_iff_eq_none.1 hr, Option.isSome_none, Bool.and_false]
  · next h =>
    have hk : (k.stepping && k.rep.isSome) = k.stepping := by
      cases hs : k.stepping <;> cases hr : k.rep <;> simp_all
    rw [hk]

/-! ### Stores leave the core -/

/-- Whether a run of stores goes outside the core's own local data. -/
def State.isFar (s : State) (c : Nat) (runs : List (Nat × List Byte)) : Bool :=
  match runs with
  | [] => false
  | (a, _) :: _ => decide (s.whereIs c a ≠ .local_)

theorem State.isFar_congr (s t : State) (c : Nat) : s.isFar c = t.isFar c := by
  funext runs
  unfold State.isFar
  cases runs with
  | nil => rfl
  | cons r l => exact decide_eq_decide.2 (not_congr (s.whereIs_local_congr t c r.1))

theorem State.farStores_eq (s : State) (c : Nat) : Claims.farStores s c = (s.core c).stage.stores.filter (s.isFar c) := rfl

/-- Stores to the own local data leave the cores as they are. -/
theorem State.localStores_sett (s : State) (runs : List (Nat × List Byte)) :
    (runs.foldl (fun s r => s.writeMem r.1 (clean r.2)) s).sett = s.sett :=
  List.foldlRecOn (motive := fun t : State => t.sett = s.sett) runs _ rfl fun _ ht _ _ => (State.writeMem_sett ..).trans ht

/-- The other stores join the outstanding ones in their order. -/
theorem State.doStores_core (s v : State) (c : Nat) (l : List (List (Nat × List Byte))) :
    (v.doStores c l).core c = { v.core c with stores := (v.core c).stores ++ l.filter (s.isFar c) } := by
  induction l generalizing v with
  | nil => rw [List.filter_nil, List.append_nil]; rfl
  | cons runs l ih =>
    unfold State.doStores at ih ⊢
    rw [List.foldl_cons, ih]
    cases runs with
    | nil => rfl
    | cons r runs =>
      dsimp only
      by_cases h : v.whereIs c r.1 = .local_
      · have hf : s.isFar c (r :: runs) = false := decide_eq_false (not_not.2 ((s.whereIs_local_congr v c r.1).2 h))
        rw [if_pos h, State.core_of_sett (State.localStores_sett v (r :: runs)), List.filter_cons_of_neg (by simp [hf])]
      · have hf : s.isFar c (r :: runs) = true := decide_eq_true (mt (s.whereIs_local_congr v c r.1).1 h)
        rw [if_neg h, State.core_setCore_self, List.filter_cons_of_pos hf, List.append_assoc]
        rfl

/-! ### What follows the writes -/

theorem State.countAct_sett (s : State) (u i e n : Nat) : (s.countAct u i e n).sett = s.sett := rfl

theorem State.sampleLost_sett (s : State) (n : Nat) : (s.sampleLost n).sett = s.sett := State.countEvent_sett ..

/-- A core's occurrences of the sampled event joined to its count, and recorded at the Nth. -/
def State.sampled (s : State) (c pc ev : Nat) (hits : List (Nat × Nat)) (daddr left : Nat) (inRep : Bool) (cycles : Nat) : State :=
  let n := c / 8
  let h := ((hits.filter (fun p => p.1 == ev)).map (·.2)).sum + cycles
  let N := max 1 (s.fld Reg.COURSE.SAMP_PERIOD_N n)
  let t := tget 0 s.observe.sampCount c + h
  let s := { s with observe := { s.observe with sampCount := tset 0 s.observe.sampCount c (t % N) } }
  if t < N then s
  else
    let (lat, s) := s.takeFree 16
    let rec_ := s.sampleRecord c pc ev daddr left inRep lat
    let s := { s with observe := { s.observe with sampSeq := tset 0 s.observe.sampSeq n ((tget 0 s.observe.sampSeq n + 1) % 2 ^ 32) } }
    let buf := tget [] s.observe.sampBuf n
    if buf.length < 64 then { s with observe := { s.observe with sampBuf := tset [] s.observe.sampBuf n (buf ++ [rec_]) } }
    else s.sampleLost n

theorem State.sampled_sett (s : State) (c pc ev : Nat) (hits : List (Nat × Nat)) (daddr left : Nat) (inRep : Bool) (cycles : Nat) :
    (s.sampled c pc ev hits daddr left inRep cycles).sett = s.sett := by
  unfold State.sampled
  dsimp only
  split
  · rfl
  · split
    · rfl
    · exact State.sampleLost_sett ..

theorem State.sample_eq (s : State) (c pc : Nat) (hits : List (Nat × Nat)) (daddr left : Nat) (inRep : Bool) :
    s.sample c pc hits daddr left inRep =
      let ev := if s.fld Reg.COURSE.SAMP_CTL_MODE (c / 8) = 1 then 0x010 else s.fld Reg.COURSE.SAMP_CTL_EVENT (c / 8)
      if s.bit Reg.COURSE.SAMP_CTL_EN (c / 8) ∧ bitOf (s.fld Reg.COURSE.SAMP_CTL_CORES (c / 8)) (c % 8) then
        let r := if cycleEvent 0x11 ev && ev != 0x015 then s.takeFree 16 else (0, s)
        r.2.sampled c pc ev hits daddr left inRep r.1
      else s := rfl

theorem State.sample_sett (s : State) (c pc : Nat) (hits : List (Nat × Nat)) (daddr left : Nat) (inRep : Bool) :
    (s.sample c pc hits daddr left inRep).sett = s.sett := by
  rw [State.sample_eq]
  dsimp only
  split
  · rw [State.sampled_sett, apply_ite Prod.snd, apply_ite State.sett]
    exact ite_self _
  · rfl

/-- The counts and the sample of a bundle that retires, `k` being its core before it. -/
def State.bundleCounted (s : State) (c : Nat) (k : Core) (held : Bool) : State :=
  let s := (s.countEvent 0x11 c 0x010 1).countEvent 0x11 c 0x011 k.stage.macs
  let s := match k.task with
    | some i => if k.stage.macs = 0 then s else s.countAct c i 0 k.stage.macs
    | none => s
  s.sample c k.pc.toNat ([(0x010, 1), (0x011, k.stage.macs)] ++ if held then [(0x013, 1)] else []) k.stage.daddr
    (match k.rep with
      | some r => r.left - 1
      | none => 0) k.rep.isSome

theorem State.bundleCounted_sett (s : State) (c : Nat) (k : Core) (held : Bool) : (s.bundleCounted c k held).sett = s.sett := by
  unfold State.bundleCounted
  dsimp only
  rw [State.sample_sett]
  cases k.task with
  | none => simp only [State.countEvent_sett]
  | some i =>
    dsimp only
    split <;> simp only [State.countAct_sett, State.countEvent_sett]

/-- The end of a bundle's retirement: a FENCE holds the core while stores are outstanding, DONE and TAKE end the task. -/
def State.acted (v : State) (c : Nat) : SbAct → State
  | .fence => v.setCore c { v.core c with fenceHold := !(v.core c).stores.isEmpty }
  | .endTask b => (v.setCore c { v.core c with ending := some (.done b) }).tryEnd c
  | _ => v

/-- The core that a bundle leaves as it retires, before its stores; its load's writes are `loaded`. -/
def Core.retiredWith (k : Core) (loaded : List RegWrite) (held : Bool) : Core :=
  let k' := { k.advance (k.stage.writes ++ loaded.map fun w => (4, w)) k.stage.act held with
    stage := .reset, remote := false, waiting := false }
  if k'.stepping ∧ k'.rep.isNone then { k' with stepping := false } else k'

theorem Core.retiredWith_eq (k : Core) (loaded : List RegWrite) (held : Bool) : k.retiredWith loaded held =
    let n := k.advance (k.stage.writes ++ loaded.map fun w => (4, w)) k.stage.act held
    { n with stage := .reset, remote := false, waiting := false, stepping := n.stepping && n.rep.isSome } :=
  Core.stepped_eq _

theorem State.retire_eq (u : State) (c : Nat) (loaded : List RegWrite) (held : Bool) (hq : (u.core c).stage.cmuq = none) :
    u.retire c loaded held = (((u.setCore c ((u.core c).retiredWith loaded held)).doStores c (u.core c).stage.stores).bundleCounted c
      (u.core c) held).acted c (u.core c).stage.act := by
  dsimp only [State.retire, Core.retiredWith, State.bundleCounted]
  rw [hq]
  cases (u.core c).stage.act <;> rfl

/-- What a bundle leaves of its core: the registers, PC, ROT, LC and run as `Core.advance` says, the next bundle unread, and the
stores outside the own local data joined to the outstanding ones. -/
theorem State.retire_core (s u : State) (c : Nat) (loaded : List RegWrite) (held : Bool) (hq : (u.core c).stage.cmuq = none) :
    ∃ v : State, u.retire c loaded held = v.acted c (u.core c).stage.act ∧
      v.core c = { (u.core c).retiredWith loaded held with
        stores := (u.core c).stores ++ (u.core c).stage.stores.filter (s.isFar c) } := by
  refine ⟨_, u.retire_eq c loaded held hq, ?_⟩
  rw [State.core_of_sett (State.bundleCounted_sett ..), State.doStores_core s, State.core_setCore_self]
  rw [Core.retiredWith_eq]
  dsimp only
  rw [(Core.advance_control ..).2]

/-! ### A clean bundle at the SB slot's turn -/

/-- The register writes that the load of the bundle in execution makes, without their latency. -/
def State.loadedRegs (s : State) (c : Nat) : List RegWrite :=
  match (s.core c).stage.load with
  | none => []
  | some l => l.results ((s.readMem l.addr l.len).1.map (·.1))

theorem State.loadedWrites_eq (s : State) (c : Nat) : Claims.loadedWrites s c = (s.loadedRegs c).map fun w => (4, w) := by
  unfold Claims.loadedWrites State.loadedRegs
  cases (s.core c).stage.load <;> rfl

theorem State.loadedRegs_setCore {s : State} {c : Nat} {k : Core} (h : k.stage.load = (s.core c).stage.load) :
    (s.setCore c k).loadedRegs c = s.loadedRegs c := by
  unfold State.loadedRegs
  rw [State.core_setCore_self, h]
  cases (s.core c).stage.load with
  | none => rfl
  | some l =>
    dsimp only
    rw [State.readMem_setCore]

/-- A clean bundle with a load from its own local data retires with what the read delivers. -/
theorem State.finishBundle_local {v : State} {c : Nat} {l : CoreLoad} (h : Claims.CleanBundle v c)
    (hl : (v.core c).stage.load = some l) : v.finishBundle c =
      (v.localRead c l.addr l.len).2.retire c (l.results ((v.readMem l.addr l.len).1.map (·.1))) false := by
  obtain ⟨hx, -, hc⟩ := h
  obtain ⟨hw, hp⟩ := hc l hl
  unfold State.finishBundle
  dsimp only
  rw [hx, hl]
  dsimp only [firstExc]
  rw [if_pos hw]
  exact if_neg (Bool.eq_false_iff.1 hp)

/-- A clean bundle retires with its load's data. -/
theorem State.finishBundle_clean {v : State} {c : Nat} (h : Claims.CleanBundle v c) :
    ∃ u : State, v.finishBundle c = u.retire c (v.loadedRegs c) false ∧ u.sett = v.sett := by
  unfold State.loadedRegs
  cases hl : (v.core c).stage.load with
  | none =>
    obtain ⟨hx, hq, -⟩ := h
    refine ⟨v, ?_, rfl⟩
    unfold State.finishBundle
    dsimp only
    rw [hx, hl, hq]
    rfl
  | some l => exact ⟨_, State.finishBundle_local h hl, (State.took_sett ..).trans (State.readMem_sett ..)⟩

theorem State.sbOp_of_turn {s : State} {c op w : Nat} (h : Claims.Turn s c 3 op w) (f : Core → Nat → SlotOut) :
    s.sbOp c op f = (s.stageSlot c 3 (f (s.core c) w)).finishBundle c := by
  obtain ⟨b, hb, rfl, ho, -⟩ := h
  simp only [State.sbOp, hb, if_pos ho]

/-- The SB slot's part joins its core's bundle and nothing else. -/
theorem State.stageSlot_sb (s : State) (c : Nat) (o : SlotOut) :
    s.stageSlot c 3 o = s.setCore c ((s.core c).staged ((s.core c).stage.add o 3) false) := rfl

theorem State.stageSlot_excs {s : State} {c : Nat} (h : (s.core c).stage.excs = []) (o : SlotOut) :
    ((s.stageSlot c 3 o).core c).stage.excs = o.excs := by
  rw [State.stageSlot_sb, State.core_setCore_self]
  exact congrArg (· ++ o.excs) h

/-- A bundle's load reads the same once the SB slot's part has joined it. -/
theorem State.stageSlot_load {s : State} {c : Nat} (h : Claims.CleanBundle s c) (o : SlotOut) (l : CoreLoad)
    (hl : ((s.stageSlot c 3 o).core c).stage.load = some l) : (s.stageSlot c 3 o).whereIs c l.addr = .local_ ∧
      ((s.stageSlot c 3 o).readMem l.addr l.len).1.any (·.2) = false := by
  rw [State.stageSlot_sb] at hl ⊢
  rw [State.core_setCore_self] at hl
  obtain ⟨-, -, hc⟩ := h
  obtain ⟨hw, hp⟩ := hc l hl
  exact ⟨hw, by rw [State.readMem_setCore, hp]⟩

/-- The core that a clean bundle leaves whose SB slot writes `w₀` and acts as `act`. -/
def State.afterBundle (s : State) (c : Nat) (w₀ : List (Nat × RegWrite)) (act : SbAct) : Core :=
  let k := s.core c
  let n := k.advance (w₀ ++ k.stage.writes ++ Claims.loadedWrites s c) act false
  { n with stage := .reset, remote := false, waiting := false, stepping := n.stepping && n.rep.isSome,
           stores := k.stores ++ Claims.farStores s c }

/-- A clean bundle whose SB slot only writes and acts retires. -/
theorem State.sbOp_clean {s : State} {c op w : Nat} {f : Core → Nat → SlotOut} (ht : Claims.Turn s c 3 op w)
    (hc : Claims.CleanBundle s c) {w₀ : List (Nat × RegWrite)} {act : SbAct} (ho : f (s.core c) w = { writes := w₀, act := act }) :
    ∃ v : State, s.sbOp c op f = v.acted c act ∧ v.core c = s.afterBundle c w₀ act := by
  rw [State.sbOp_of_turn ht, ho, State.stageSlot_sb]
  set v := s.setCore c ((s.core c).staged ((s.core c).stage.add { writes := w₀, act := act } 3) false) with hv
  have hk : v.core c = (s.core c).staged ((s.core c).stage.add { writes := w₀, act := act } 3) false := State.core_setCore_self ..
  have hclean : Claims.CleanBundle v c := ⟨State.stageSlot_excs hc.1 _, by rw [hk]; exact hc.2.1, State.stageSlot_load hc _⟩
  have hload : v.loadedRegs c = s.loadedRegs c := State.loadedRegs_setCore rfl
  obtain ⟨u, hu, hs⟩ := State.finishBundle_clean hclean
  have hku := State.core_of_sett hs c
  obtain ⟨t, ht, hcore⟩ := State.retire_core s u c (v.loadedRegs c) false (by rw [hku]; exact hclean.2.1)
  rw [hku, hk] at ht hcore
  refine ⟨t, hu.trans ht, hcore.trans ?_⟩
  rw [hload]
  unfold State.afterBundle
  rw [Core.retiredWith_eq, Core.advance_staged, State.loadedWrites_eq, State.farStores_eq]
  dsimp only [Core.staged, Stage.add]
  rw [List.append_nil]
  rfl

/-! ## CSTEP, CTURN, FENCE, REP and runs (R109, R112, R113, R115, R138) -/

theorem landInto_perm (x : Nat × RegWrite) (l : List (Nat × RegWrite)) : (landInto x l).Perm (x :: l) := by
  induction l with
  | nil => exact .refl _
  | cons y r ih =>
    unfold landInto
    split
    · exact .refl _
    · exact (ih.cons y).trans (.swap x y r)

theorem inOrder_perm (l : List (Nat × RegWrite)) : (inOrder l).Perm l := by
  induction l with
  | nil => exact .refl _
  | cons x r ih => exact (landInto_perm x _).trans (ih.cons x)

theorem landInto_pairwise (x : Nat × RegWrite) {l : List (Nat × RegWrite)} (h : l.Pairwise fun x y => x.1 ≤ y.1) :
    (landInto x l).Pairwise fun x y => x.1 ≤ y.1 := by
  induction l with
  | nil => exact List.pairwise_singleton ..
  | cons y r ih =>
    obtain ⟨hy, hr⟩ := List.pairwise_cons.1 h
    unfold landInto
    split
    · next hx => exact List.pairwise_cons.2 ⟨fun z hz => (List.mem_cons.1 hz).elim (· ▸ hx) fun hz => hx.trans (hy z hz), h⟩
    · next hx =>
      refine List.pairwise_cons.2 ⟨fun z hz => ?_, ih hr⟩
      obtain rfl | hz := List.mem_cons.1 ((landInto_perm x r).mem_iff.1 hz)
      · omega
      · exact hy z hz

theorem inOrder_pairwise (l : List (Nat × RegWrite)) : (inOrder l).Pairwise fun x y => x.1 ≤ y.1 := by
  induction l with
  | nil => exact .nil
  | cons x r ih => exact landInto_pairwise x ih

theorem ofNat_pc_add (p : BitVec 16) (n : Nat) : BitVec.ofNat 16 (p.toNat + n) = p + BitVec.ofNat 16 n := by
  rw [BitVec.ofNat_add, BitVec.ofNat_toNat, BitVec.setWidth_eq]

theorem bits_one (w n : Nat) : bits w n n = w / 2 ^ n % 2 := by rw [bits, Nat.add_sub_cancel_left, pow_one]

theorem bits_zero (w n : Nat) : bits w n 0 = w % 2 ^ (n + 1) := by rw [bits, pow_zero, Nat.div_one]; rfl

theorem sub_one_eq_zero_iff (x : Word) : x - 1 = 0 ↔ x = 1 := sub_eq_zero

/-- CTURN's core: LC counts down, ROT up, and the turn is taken while LC is not 0 after it. -/
theorem State.afterBundle_cturn {s : State} {c : Nat} (hr : (s.core c).rep = none) (w : Nat) :
    s.afterBundle c [] (.cturn (sbTarget w)) = { Claims.retired s c ((s.core c).stage.writes ++ Claims.loadedWrites s c) with
      pc := if (s.core c).lc = 1 then (s.core c).pc + 16 else Claims.target (s.core c) w
      rot := (s.core c).rot + 1, lc := (s.core c).lc - 1 } := by
  simp only [State.afterBundle, Core.advance, hr, List.nil_append, Claims.retired, Core.putAll_rep, Option.isSome_none, Bool.and_false,
    ofNat_pc_add, sub_one_eq_zero_iff, sbTarget, bits_zero]
  rfl

/-- The writes that a bundle with REP lets land at once are those of latency 1 or less. -/
theorem landed_rep (ws : List (Nat × RegWrite)) : landed 0 (ws.map fun w => (w.1 - 1, w.2)) =
    ((ws.filter fun x => decide (x.1 ≤ 1)).map (fun w => (w.1 - 1, w.2)),
      (ws.filter fun x => decide (1 < x.1)).map fun x => (x.1 - 1, x.2)) := by
  unfold landed
  rw [List.filter_map, List.filter_map]
  refine congrArg₂ Prod.mk (congrArg (List.map _) (List.filter_congr fun x _ => ?_))
    (congrArg (List.map _) (List.filter_congr fun x _ => ?_))
  · exact decide_eq_decide.2 (by dsimp only; omega)
  · exact decide_eq_decide.2 (by dsimp only; omega)

/-- A bundle's own cause of 2 or less comes before what its load and its command could raise (R120, R141). -/
theorem State.finishBundle_early {v : State} {c : Nat} {e : CoreExc} (h : (v.core c).stage.excs = [e]) (he : e.cause ≤ 2) :
    v.finishBundle c = v.raiseExc c e := by
  unfold State.finishBundle
  simp only [h, firstExc, if_pos he]

/-- What the SB slot of a bundle with REP leaves for its retirement. -/
theorem State.exec_rep (s : State) (c : Fin 192) : exec (.rep c) s = .next (s.sbOp c 0x23 fun k w =>
    { act := .rep (if bits w 14 14 = 1 then min 16383 k.lc.toNat else bits w 13 0)
      excs := if !(s.bundleNext c).2 && repForbids (s.bundleNext c).1 then [⟨0x01, 3, 0, 0⟩] else [] }) := rfl

/-- Settles O25: a clean bundle retires with its slot's action (`State.sbOp_clean`), and `Core.advance` says what that does to PC, ROT,
LC and the run. -/
theorem settLoopsAndFence : Obligations.SettLoopsAndFence := by
  intro c s w hc k ws count following
  have hcount : (if bits w 14 14 = 1 then min 16383 k.lc.toNat else bits w 13 0) = count := by rw [bits_one, bits_zero]
  have hallowed (h : following.2 = true ∨ repForbids following.1 = false) :
      (if !(s.bundleNext c).2 && repForbids (s.bundleNext c).1 then [CoreExc.mk 0x01 3 0 0] else []) = [] := by
    refine if_neg ?_
    obtain h | h := h <;> simp [following] at h <;> simp [h]
  refine ⟨fun hr ht => ?cstep, fun hr ht _ => ?cturn, fun hr ht => ?fence, fun hr ht hf h0 => ?skip, fun hr ht hf hp => ?rep,
    fun hr ht hp hf => ?forbidden, fun r hr ht hl => ?iteration, fun r hr ht hl => ?last,
    fun l => ⟨inOrder_perm l, inOrder_pairwise l⟩⟩
  case cstep =>
    obtain ⟨v, hv, hk⟩ := State.sbOp_clean (f := fun _ _ => { act := .cstep }) ht hc rfl
    refine ⟨v, congrArg Host.Outcome.next hv, hk.trans ?_⟩
    simp only [State.afterBundle, Core.advance, show (s.core c).rep = none from hr, List.nil_append, Claims.retired, Core.putAll_rep,
      Option.isSome_none, Bool.and_false, ofNat_pc_add]
    rfl
  case cturn =>
    obtain ⟨v, hv, hk⟩ := State.sbOp_clean (f := fun _ w => { act := .cturn (sbTarget w) }) ht hc rfl
    exact ⟨v, congrArg Host.Outcome.next hv, hk.trans (State.afterBundle_cturn hr w)⟩
  case fence =>
    obtain ⟨v, hv, hk⟩ := State.sbOp_clean (f := fun _ _ => { act := .fence }) ht hc rfl
    refine ⟨_, congrArg Host.Outcome.next hv, (State.core_setCore_self ..).trans ?_⟩
    rw [hk]
    simp only [State.afterBundle, Core.advance, show (s.core c).rep = none from hr, List.nil_append, Claims.retired, Core.putAll_rep,
      Option.isSome_none, Bool.and_false, ofNat_pc_add]
    rfl
  case skip =>
    obtain ⟨v, hv, hk⟩ := State.sbOp_clean (w₀ := []) (act := .rep 0) ht hc
      (f := fun k w => { act := .rep (if bits w 14 14 = 1 then min 16383 k.lc.toNat else bits w 13 0)
                         excs := if !(s.bundleNext c).2 && repForbids (s.bundleNext c).1 then [⟨0x01, 3, 0, 0⟩] else [] })
      (by rw [hallowed hf, hcount, h0])
    refine ⟨v, congrArg Host.Outcome.next hv, hk.trans ?_⟩
    simp only [State.afterBundle, Core.advance, show (s.core c).rep = none from hr, List.nil_append, Claims.retired, Core.putAll_rep,
      Option.isSome_none, Bool.and_false, ofNat_pc_add]
    rfl
  case rep =>
    obtain ⟨n, hn⟩ := Nat.exists_eq_succ_of_ne_zero hp.ne'
    obtain ⟨v, hv, hk⟩ := State.sbOp_clean (w₀ := []) (act := .rep (n + 1)) ht hc
      (f := fun k w => { act := .rep (if bits w 14 14 = 1 then min 16383 k.lc.toNat else bits w 13 0)
                         excs := if !(s.bundleNext c).2 && repForbids (s.bundleNext c).1 then [⟨0x01, 3, 0, 0⟩] else [] })
      (by rw [hallowed hf, hcount, hn])
    refine ⟨v, _, _, congrArg Host.Outcome.next hv, hk.trans ?_, rfl, rfl⟩
    simp only [State.afterBundle, Core.advance, show (s.core c).rep = none from hr, List.nil_append, Claims.retired, Option.isSome_some,
      Bool.and_true, Core.putAll_stepping, ofNat_pc_add, Bool.false_eq_true, if_false, landed_rep, Core.putAll_map, hn]
    rfl
  case forbidden =>
    refine ⟨s.stageSlot c 3 { act := .rep count, excs := [⟨0x01, 3, 0, 0⟩] }, ?_, rfl, rfl, ?_⟩
    · have hx : (if !(s.bundleNext c).2 && repForbids (s.bundleNext c).1 then [CoreExc.mk 0x01 3 0 0] else []) =
          [⟨0x01, 3, 0, 0⟩] := if_pos (Bool.and_eq_true_iff.2 ⟨congrArg (!·) hp, hf⟩)
      rw [State.exec_rep, State.sbOp_of_turn ht, hcount, hx]
      exact congrArg _ (State.finishBundle_early (State.stageSlot_excs hc.1 _) (by decide))
    · rw [State.stageSlot_sb, State.core_setCore_self]
      exact ⟨rfl, rfl, rfl, rfl⟩
  case iteration =>
    obtain ⟨v, hv, hk⟩ := State.sbOp_clean (f := fun _ _ => {}) (w₀ := []) (act := .next) ht hc rfl
    refine ⟨v, congrArg Host.Outcome.next hv, hk.trans ?_⟩
    simp only [State.afterBundle, Core.advance, show (s.core c).rep = some r from hr, if_neg (Nat.not_le.2 hl), List.nil_append,
      Claims.retired, Option.isSome_some, Bool.and_true, Core.putAll_stepping, landed]
    rfl
  case last =>
    obtain ⟨v, hv, hk⟩ := State.sbOp_clean (f := fun _ _ => {}) (w₀ := []) (act := .next) ht hc rfl
    refine ⟨v, congrArg Host.Outcome.next hv, hk.trans ?_⟩
    simp only [State.afterBundle, Core.advance, show (s.core c).rep = some r from hr, if_pos hl, List.nil_append,
      Claims.retired, Option.isSome_none, Bool.and_false, ofNat_pc_add]
    rfl

/-! ## Ends of tasks and exceptions (R117, R119, R120, R122, R124) -/

/-- A bundle's own cause above 2 beside a clean load, or none: it is raised once the load is read. -/
theorem State.finishBundle_late {v : State} {c : Nat} {e : CoreExc} (hx : (v.core c).stage.excs = [e]) (he : 2 < e.cause)
    (hq : (v.core c).stage.cmuq = none) (hl : ∀ l, (v.core c).stage.load = some l →
      v.whereIs c l.addr = .local_ ∧ (v.readMem l.addr l.len).1.any (·.2) = false) :
    ∃ u : State, v.finishBundle c = u.raiseExc c e ∧ u.sett = v.sett ∧ ((v.core c).stage.load = none → u = v) := by
  unfold State.finishBundle
  simp only [hx, firstExc, if_neg (Nat.not_le.2 he), hq]
  cases h : (v.core c).stage.load with
  | none => exact ⟨v, rfl, rfl, fun _ => rfl⟩
  | some l =>
    obtain ⟨hw, hp⟩ := hl l h
    refine ⟨(v.localRead c l.addr l.len).2, ?_, (State.took_sett ..).trans (State.readMem_sett ..), nofun⟩
    simp only [hw]
    exact congrArg _ (if_neg (Bool.eq_false_iff.1 hp))

/-- Outside a run, a bundle's own cause above 2 waits for a far load. -/
theorem State.finishBundle_far {v : State} {c : Nat} {e : CoreExc} {l : CoreLoad} (hx : (v.core c).stage.excs = [e]) (he : 2 < e.cause)
    (hl : (v.core c).stage.load = some l) (hw : v.whereIs c l.addr = .far) (hr : (v.core c).rep = none) :
    v.finishBundle c = (v.setCore c { v.core c with remote := true }).countEvent 0x11 c 0x013 1 := by
  unfold State.finishBundle
  simp only [hx, firstExc, if_neg (Nat.not_le.2 he), hl, hw, hr, Option.isSome_none, Bool.false_eq_true, if_false]

/-- A slot has its turn on a core that no end holds. -/
theorem State.ending_of_turn {s : State} {c j op w : Nat} (h : Claims.Turn s c j op w) : (s.core c).ending = none := by
  obtain ⟨b, hb, -⟩ := h
  unfold State.slotDue at hb
  dsimp only at hb
  split at hb
  · next h => exact Option.isNone_iff_eq_none.1 h.2.2.1
  · cases hb

theorem cmuw_spec {s : State} {c : Fin 192} {w : Nat} (h : Claims.Turn s c 3 0x29 w) : exec (.cmuw c) s =
    if 4 ≤ w % 8 then .next ((s.stageSlot c 3 {}).finishBundle c)
    else if w % 8 < (s.cmu (c.val / 8)).depth (c.val % 8) then .next (s.setCore c { s.core c with waiting := true })
    else if tget false (s.cmu (c.val / 8)).addrErr (c.val % 8) then
      .next (((s.setCmu (c.val / 8) { s.cmu (c.val / 8) with
        addrErr := tset false (s.cmu (c.val / 8)).addrErr (c.val % 8) false }).stageSlot c 3 { excs := [⟨0x0B, 3, 0, 0⟩] }).finishBundle c)
    else .next ((s.stageSlot c 3 {}).finishBundle c) := by
  obtain ⟨b, hb, rfl, ho, -⟩ := h
  show execCmuw c s = _
  unfold execCmuw
  simp only [hb, ho, ne_eq, not_true_eq_false, if_false, bits_zero]
  rfl

/-- The exception registers of R119, R120 and R127. -/
def State.excFields (s : State) (c : Nat) (e : CoreExc) (pc left : Nat) : State :=
  let s := ((s.setFld Reg.SETT.EXC_CAUSE c e.cause).setFld Reg.SETT.EXC_NEW c 1).satFld Reg.SETT.EXC_COUNT c 1
  let s := (s.setFld Reg.SETT.EXC_PC_EXC_PC c pc).setPair Reg.SETT.EXC_ADDR_LO_ADDR_LO Reg.SETT.EXC_ADDR_HI_ADDR_HI c e.addr
  ((s.setFld Reg.SETT.EXC_INFO_REP_LEFT c left).setFld Reg.SETT.EXC_INFO_SLOT c e.slot).setFld Reg.SETT.EXC_INFO_TRAP_CODE c e.trap

theorem State.excFields_fld (s : State) (c : Nat) {e : CoreExc} {pc : BitVec 16} (left : Nat) (hc : e.cause < 256) (hs : e.slot < 4)
    (ha : e.addr < 2 ^ 40) : let u := s.excFields c e pc.toNat left
    u.fld Reg.SETT.EXC_CAUSE c = e.cause ∧ u.fld Reg.SETT.EXC_NEW c = 1 ∧ u.fld Reg.SETT.EXC_PC_EXC_PC c = pc.toNat ∧
      u.pair Reg.SETT.EXC_ADDR_LO_ADDR_LO Reg.SETT.EXC_ADDR_HI_ADDR_HI c = e.addr ∧ u.fld Reg.SETT.EXC_INFO_SLOT c = e.slot := by
  have hpc := pc.isLt
  simp (disch := decide) only [State.excFields, State.setPair, State.satFld, State.pair, State.fld_setFld_apart, State.fld_setFld_self,
    Nat.reduceAdd, Nat.reduceSub]
  refine ⟨?_, ?_, ?_, ?_, ?_⟩ <;> omega

/-- An exception where no posted store has failed and no run is on: the registers are written, and its event is posted. -/
theorem State.recordExc_eq {s : State} {c : Nat} (e : CoreExc) (left : Nat) (he : (s.core c).storeErr = none)
    (hr : (s.core c).rep = none) : s.recordExc c e left =
      (e.cause,
        if e.cause = 0x08 then ((s.setCore c { s.core c with storeErr := none }).excFields c e (s.core c).pc.toNat left).post
          0x11 c 0x002 3 ((s.core c).pc.toNat * 256)
        else ((s.setCore c { s.core c with storeErr := none }).excFields c e (s.core c).pc.toNat left).post
          0x11 c 0x001 2 (e.cause + (s.core c).pc.toNat * 256)) := by
  unfold State.recordExc
  simp only [he, hr]
  rfl

/-- The event of an exception leaves the exception registers and the cores. -/
theorem State.excPosted (u : State) (c pc : Nat) (e : CoreExc) {v : State} (hv : v = if e.cause = 0x08 then u.post 0x11 c 0x002 3 (pc * 256)
    else u.post 0x11 c 0x001 2 (e.cause + pc * 256)) :
    v.sett = u.sett ∧ ∀ (f : Field) (i : Nat), f.off < 0x3A4 → v.fld f i = u.fld f i := by
  subst hv
  split <;> exact ⟨State.post_sett .., fun f i h => State.post_fld _ _ _ _ _ _ _ _ h⟩

theorem State.excFields_sett (s : State) (c : Nat) (e : CoreExc) (pc left : Nat) : (s.excFields c e pc left).sett = s.sett := by
  simp only [State.excFields, State.setFld_sett, State.satFld_sett, State.setPair_sett]

/-- A core whose task ends by an exception. -/
def Core.failed (k : Core) (cause : Nat) : Core :=
  { k with
    ending := some (.exc cause), stage := .reset, remote := false, waiting := false, fenceHold := false, rep := none }

/-- Outside a run, an exception is recorded and its task's end is tried. -/
theorem State.raiseExc_eq {s : State} {c : Nat} (e : CoreExc) (hr : (s.core c).rep = none) {cause : Nat} {v : State}
    (h : (s.setCore c (s.core c)).recordExc c e 0 = (cause, v)) :
    s.raiseExc c e = (v.setCore c ((v.core c).failed cause)).tryEnd c := by
  unfold State.raiseExc
  simp only [hr, h]
  rfl

theorem raiseExc_spec (s : State) (c : Nat) (e : CoreExc) (hc : e.cause < 256) (hs : e.slot < 4) (ha : e.addr < 2 ^ 40)
    (he : (s.core c).storeErr = none) (hr : (s.core c).rep = none) :
    ∃ u : State, s.raiseExc c e = u.tryEnd c ∧ u.fld Reg.SETT.EXC_CAUSE c = e.cause ∧ u.fld Reg.SETT.EXC_NEW c = 1 ∧
      u.fld Reg.SETT.EXC_PC_EXC_PC c = (s.core c).pc.toNat ∧
      u.pair Reg.SETT.EXC_ADDR_LO_ADDR_LO Reg.SETT.EXC_ADDR_HI_ADDR_HI c = e.addr ∧ u.fld Reg.SETT.EXC_INFO_SLOT c = e.slot ∧
      u.core c = { s.core c with
        ending := some (.exc e.cause), stage := .reset, remote := false, waiting := false, fenceHold := false } := by
  set s' := s.setCore c (s.core c) with hs'
  have hk : s'.core c = s.core c := State.core_setCore_self ..
  set u := (s'.setCore c { s'.core c with storeErr := none }).excFields c e (s'.core c).pc.toNat 0 with hu
  obtain ⟨v, hv⟩ : ∃ v, v = if e.cause = 0x08 then u.post 0x11 c 0x002 3 ((s'.core c).pc.toNat * 256)
      else u.post 0x11 c 0x001 2 (e.cause + (s'.core c).pc.toNat * 256) := ⟨_, rfl⟩
  obtain ⟨hsett, hfld⟩ := State.excPosted u c _ e hv
  have hcore : v.core c = { s.core c with storeErr := none } := by
    rw [State.core_of_sett (hsett.trans (State.excFields_sett ..)), State.core_setCore_self, hk]
  obtain ⟨hcause, hnew, hpc, haddr, hslot⟩ := State.excFields_fld (s'.setCore c { s'.core c with storeErr := none }) c
    (pc := (s'.core c).pc) 0 hc hs ha
  refine ⟨v.setCore c ((v.core c).failed e.cause), ?_, (hfld _ _ (by decide)).trans hcause, (hfld _ _ (by decide)).trans hnew,
    ((hfld _ _ (by decide)).trans hpc).trans (by rw [hk]), ?_, (hfld _ _ (by decide)).trans hslot, ?_⟩
  · exact State.raiseExc_eq e hr (by rw [← hs', State.recordExc_eq e 0 (by rw [hk, he]) (by rw [hk, hr]), ← hu, ← hv])
  · rw [← haddr, State.pair, State.pair, ← hfld _ _ (by decide), ← hfld _ _ (by decide)]
    rfl
  · rw [State.core_setCore_self, hcore]
    unfold Core.failed
    rw [← he, ← hr]

theorem tryEnd_of_stores {s : State} {c : Nat} {e : Ending} (he : (s.core c).ending = some e) (hs : (s.core c).stores ≠ []) :
    s.tryEnd c = s := by
  have hne : (!(s.core c).stores.isEmpty) = true := by simpa using hs
  unfold State.tryEnd
  simp only [he, if_pos hne]

theorem tryEnd_done {s : State} {c : Nat} {f : Bool} (he : (s.core c).ending = some (.done f)) (hs : (s.core c).stores = []) :
    s.tryEnd c =
      if (s.cmu (c / 8)).depth (c % 8) ≠ 0 then s
      else if tget false (s.cmu (c / 8)).addrErr (c % 8) then
        ((s.setCmu (c / 8) { s.cmu (c / 8) with addrErr := tset false (s.cmu (c / 8)).addrErr (c % 8) false }).recordExc c
          ⟨0x0B, 3, 0, 0⟩ 0).2.reportTask c .task
      else if (s.core c).storeErr.isSome then
        (s.recordExc c ⟨0x09, 2, (s.core c).storeErr.getD 0, 0⟩ 0).2.reportTask c .task
      else s.reportTask c (if f then .task else .success) := by
  unfold State.tryEnd
  simp only [he, hs, List.isEmpty_nil, Bool.not_true, Bool.false_eq_true, if_false]

/-- A clean bundle that ends its task: its writes land, the PC stays, and the end is tried. -/
theorem State.sbOp_endTask {s : State} {c op w : Nat} {f : Core → Nat → SlotOut} {b : Bool} (hr : (s.core c).rep = none)
    (ht : Claims.Turn s c 3 op w) (hc : Claims.CleanBundle s c) (ho : f (s.core c) w = { act := .endTask b }) :
    ∃ u : State, s.sbOp c op f = u.tryEnd c ∧ u.core c =
      { Claims.retired s c ((s.core c).stage.writes ++ Claims.loadedWrites s c) with ending := some (.done b) } := by
  obtain ⟨v, hv, hk⟩ := State.sbOp_clean ht hc ho
  refine ⟨_, hv, (State.core_setCore_self ..).trans ?_⟩
  rw [hk]
  simp only [State.afterBundle, Core.advance, hr, List.nil_append, Claims.retired, Core.putAll_rep, Option.isSome_none, Bool.and_false]

/-- Settles O26: DONE and TAKE retire their bundle and end the task (`State.sbOp_clean`), TRAP and CMU_ERR are causes of the bundle
(`State.finishBundle_late`), and `raiseExc_spec` says what an exception records. -/
theorem settTaskEndsAndTraps : Obligations.SettTaskEndsAndTraps := by
  intro c s k ws
  refine ⟨fun w hr hc ht => ?done, fun w hr hc ht => ?take, fun w hc ht => ?trap, fun w l hr hx hl hw ht => ?far,
    fun w ht => ⟨fun h => ?pass, fun h4 h => ?wait, fun h4 h he => ?error⟩, fun e he hs => tryEnd_of_stores he hs,
    fun f he hs hd => ?queued, fun f he hs hd ha hn => ?report, fun e hc hs ha he hr => raiseExc_spec s c e hc hs ha he hr⟩
  case done =>
    obtain ⟨u, hu, hk⟩ := State.sbOp_endTask (f := fun k w => { act := .endTask ((k.rS (sbA w)).getLsbD 0) }) hr ht hc rfl
    exact ⟨u, congrArg Host.Outcome.next hu, hk⟩
  case take =>
    obtain ⟨u, hu, hk⟩ := State.sbOp_endTask (f := fun _ _ => { act := .endTask false }) hr ht hc rfl
    exact ⟨u, congrArg Host.Outcome.next hu, hk⟩
  case trap =>
    obtain ⟨u, hu, hs, hn⟩ := State.finishBundle_late (State.stageSlot_excs hc.1 { excs := [⟨0x0A, 3, 0, w % 2 ^ 14⟩] }) (by simp)
      (by rw [State.stageSlot_sb, State.core_setCore_self]; exact hc.2.1) (State.stageSlot_load hc _)
    refine ⟨u, ?_, State.core_of_sett hs c, fun hl => hn (by rw [State.stageSlot_sb, State.core_setCore_self]; exact hl)⟩
    have ht' := State.sbOp_of_turn ht fun _ w => { excs := [⟨0x0A, 3, 0, bits w 13 0⟩] }
    rw [bits_zero] at ht'
    exact congrArg Host.Outcome.next (ht'.trans hu)
  case far =>
    have ht' := State.sbOp_of_turn ht fun _ w => { excs := [⟨0x0A, 3, 0, bits w 13 0⟩] }
    have hfar := State.finishBundle_far (State.stageSlot_excs hx { excs := [⟨0x0A, 3, 0, bits w 13 0⟩] }) (by simp)
      (by rw [State.stageSlot_sb, State.core_setCore_self]; exact hl) hw (by rw [State.stageSlot_sb, State.core_setCore_self]; exact hr)
    refine ⟨_, congrArg Host.Outcome.next (ht'.trans hfar), ?_⟩
    rw [State.core_of_sett (State.countEvent_sett ..), State.core_setCore_self, State.stageSlot_sb, State.core_setCore_self]
    exact ⟨rfl, State.ending_of_turn ht⟩
  case pass =>
    rw [cmuw_spec ht]
    obtain h | ⟨hd, ha⟩ := h
    · rw [if_pos h]
    · simp only [if_neg (Nat.not_lt.2 hd), ha, Bool.false_eq_true, if_false, ite_self]
  case wait => rw [cmuw_spec ht, if_neg (Nat.not_le.2 h4), if_pos h]
  case error => rw [cmuw_spec ht, if_neg (Nat.not_le.2 h4), if_neg (Nat.not_lt.2 h), if_pos he]
  case queued => rw [tryEnd_done he hs, if_pos hd]
  case report => rw [tryEnd_done he hs, if_neg (not_not.2 hd), ha, if_neg Bool.false_ne_true, hn]; rfl

end Sys2Proof.Machine

namespace Sys2Proof.Machine

set_option Elab.async false

/-! ## Events of a core (R105, R112, R116, R118, R120, R121) -/

/-! ### A task's start -/

theorem State.setSlot_sett (s : State) (u : Nat) (l : List Nat) : (s.setSlot u l).sett = s.sett := by
  unfold State.setSlot
  dsimp only
  split <;> rfl

theorem State.startHead_sett {s u : State} {c i : Nat} {t : Task} (h : s.startHead c = some (i, t, u)) : u.sett = s.sett := by
  unfold State.startHead at h
  split at h
  · cases h
  · split at h
    · cases h
    · simp only [Option.some.injEq, Prod.mk.injEq] at h
      obtain ⟨-, -, rfl⟩ := h
      split <;> simp only [State.addFld_sett, State.satFld_sett, State.setSlot_sett, State.putTask_sett]

theorem State.endTakeWait_sett (s : State) (c : Nat) : (s.endTakeWait c).sett = s.sett := by
  unfold State.endTakeWait
  dsimp only
  split <;> rfl

theorem merge_full (x y : Word) : merge x y 0xFFFFFFFF = y := merge_ite x y true

theorem b2n_mul_eq_ite (b : Bool) (n : Nat) : n * b2n b = if b then n else 0 := by cases b <;> simp [b2n]

theorem takeWake_spec {c : Fin 192} {s u : State} {i : Nat} {t : Task} (hn : (s.core c).task = none) (hm : s.mayStart c = true)
    (h : s.startHead c = some (i, t, u)) : ∃ z, exec (.takeWake c) s = .next z ∧ z.core c = (s.core c).begin_ i t := by
  refine ⟨((u.setCore c ((u.core c).begin_ i t)).endTakeWait c).countEvent 0x11 c 0x016 1, ?_, ?_⟩
  · show execTakeWake c s = _
    unfold execTakeWake State.takeNext
    rw [hn, if_pos Option.isNone_none, if_pos hm, h]
  · rw [State.core_of_sett (State.countEvent_sett ..), State.core_of_sett (State.endTakeWait_sett ..), State.core_setCore_self,
      State.core_of_sett (State.startHead_sett h)]

theorem Core.begin_eq (k : Core) (i : Nat) (t : Task) : k.begin_ i t = { k with
    a := tset 0 k.a 0 t.arg
    s := tset 0 (tset 0 k.s 0 (BitVec.ofNat 32 i)) 1
      (BitVec.ofNat 32 (t.grade % 4 + (if t.idempotent then 4 else 0) + if t.mark then 8 else 0))
    pc := BitVec.ofNat 16 (t.target.toNat / 16 * 16), cobble := decide (t.target.toNat % 2 = 1), rot := 0
    task := some i, lastTask := i, stage := .reset, remote := false, waiting := false, fenceHold := false
    rep := none, ending := none, fetched := none, ahead := [] } := by
  simp only [Core.begin_, Core.put, merge_full, taskFlags, b2n_mul_eq_ite]
  rfl

/-! ### The exception of a bundle (R141) -/

theorem firstExc_spec {l : List CoreExc} (h : l ≠ []) : ∃ e ∈ l, firstExc l = some e ∧ ∀ x ∈ l, e.cause ≤ x.cause := by
  induction l with
  | nil => exact absurd rfl h
  | cons a r ih =>
    unfold firstExc
    by_cases hr : r = []
    · subst hr
      exact ⟨a, List.mem_singleton_self a, rfl, fun x hx => (List.mem_singleton.1 hx) ▸ le_rfl⟩
    · obtain ⟨f, hf, he, hmin⟩ := ih hr
      rw [he]
      dsimp only
      split
      · next hlt => exact ⟨f, List.mem_cons_of_mem _ hf, rfl, List.forall_mem_cons.2 ⟨by omega, hmin⟩⟩
      · next hge => exact ⟨a, List.mem_cons_self, rfl, List.forall_mem_cons.2 ⟨le_rfl, fun x hx => by have := hmin x hx; omega⟩⟩

/-! ### Stores of a core acknowledged -/

/-- Whether an address lies in a Course's store does not depend on the state. -/
theorem State.region_course_congr {s : State} (t : State) {a n : Nat} (h : s.region a = .course n) : t.region a = .course n := by
  by_cases hb : a < bulkBase ∨ 0x4100000000 ≤ a
  · rwa [t.region_eq_of_not_bulk s hb]
  · obtain hr | ⟨d, l, hr⟩ := s.region_of_bulk (a := a) (by omega) (by omega) <;> rw [hr] at h <;> cases h

/-- One run of a posted store made at its target; `acc` keeps the first address that failed. -/
def State.ackRun (n : Nat) (acc : Option Nat × State) (r : Nat × List Byte) : Option Nat × State :=
  if acc.2.region r.1 = .course n then (acc.1, acc.2.writeMem r.1 (clean r.2))
  else
    let (st, s) := acc.2.busPut n 0 r.1 (clean r.2)
    (if acc.1.isNone ∧ st ≠ .ok then some r.1 else acc.1, s)

theorem State.ackRun_sett (n : Nat) (acc : Option Nat × State) (r : Nat × List Byte) : (State.ackRun n acc r).2.sett = acc.2.sett := by
  unfold State.ackRun
  split
  · exact State.writeMem_sett ..
  · exact State.busPut_sett ..

theorem State.ackRuns_course {n : Nat} {runs : List (Nat × List Byte)} {s : State} (h : ∀ x ∈ runs, s.region x.1 = .course n)
    (bad : Option Nat) : runs.foldl (State.ackRun n) (bad, s) = (bad, runs.foldl (fun v x => v.writeMem x.1 (clean x.2)) s) := by
  induction runs generalizing s with
  | nil => rfl
  | cons r l ih =>
    obtain ⟨hr, hl⟩ := List.forall_mem_cons.1 h
    rw [List.foldl_cons, State.ackRun, if_pos hr]
    exact ih fun x hx => State.region_course_congr _ (hl x hx)

/-- A core whose oldest store has been acknowledged, `bad` being the address of it that failed. -/
def Core.acked (k : Core) (rest : List (List (Nat × List Byte))) (bad : Option Nat) : Core :=
  { k with
    stores := rest, storeErr := if k.storeErr.isNone then bad else k.storeErr, fenceHold := k.fenceHold && !rest.isEmpty }

theorem storeAck_eq {c : Fin 192} {s : State} {runs : List (Nat × List Byte)} {rest : List (List (Nat × List Byte))}
    (h : (s.core c).stores = runs :: rest) : exec (.storeAck c) s =
      .next (((runs.foldl (State.ackRun (c.val / 8)) (none, s)).2.setCore c
        (((runs.foldl (State.ackRun (c.val / 8)) (none, s)).2.core c).acked rest
          (runs.foldl (State.ackRun (c.val / 8)) (none, s)).1)).tryEnd c) := by
  show execStoreAck c s = _
  unfold execStoreAck
  dsimp only
  rw [h]
  rfl

theorem storeAck_spec (c : Fin 192) (s : State) (runs : List (Nat × List Byte)) (rest : List (List (Nat × List Byte)))
    (h : (s.core c).stores = runs :: rest) : ∃ u : State, ∃ bad, exec (.storeAck c) s = .next (u.tryEnd c) ∧
      u.core c = { s.core c with
        stores := rest, fenceHold := (s.core c).fenceHold && !rest.isEmpty
        storeErr := if (s.core c).storeErr = none then bad else (s.core c).storeErr } ∧
      ((∀ x ∈ runs, s.region x.1 = .course (c.val / 8)) →
        bad = none ∧ u.mem = (runs.foldl (fun v x => v.writeMem x.1 (clean x.2)) s).mem) := by
  obtain ⟨bad, v, hv⟩ : ∃ bad v, runs.foldl (State.ackRun (c.val / 8)) (none, s) = (bad, v) := ⟨_, _, rfl⟩
  have hs : v.sett = s.sett := by
    have := List.foldlRecOn (motive := fun r : Option Nat × State => r.2.sett = s.sett) runs (State.ackRun (c.val / 8)) (b := (none, s))
      rfl fun acc ha r _ => (State.ackRun_sett ..).trans ha
    rwa [hv] at this
  refine ⟨v.setCore c ((v.core c).acked rest bad), bad, ?_, ?_, fun hr => ?_⟩
  · rw [storeAck_eq h, hv]
  · rw [State.core_setCore_self, State.core_of_sett hs]
    simp only [Core.acked, Option.isNone_iff_eq_none]
  · rw [State.ackRuns_course hr] at hv
    obtain ⟨rfl, rfl⟩ := Prod.mk.inj hv
    exact ⟨rfl, rfl⟩

/-! ### Writes of SETT.CTL and COURSE.CTL -/

/-- A write that reaches one unit of a class whose writes act. -/
theorem State.hubEach_of_hits {s : State} {req : Fin 14} {cls sel off i : Nat} (h : Claims.Hits s req cls sel off i)
    (f : State → Nat → State) : s.hubEach req cls sel off f = f s i := by
  obtain ⟨hh, hm, ht⟩ := h
  rw [State.hubEach, if_pos hh, State.eachMember, if_pos hm, ht]
  rfl

theorem State.settCtl_csr (s : State) (i : Nat) (v : Word) : (s.settCtl i v).csr = (s.storeReg 0x11 i 0x000 v).csr := by
  unfold State.settCtl
  dsimp only
  split
  · rfl
  · split <;> rfl

theorem State.fld_storeReg_ctl (s : State) (i : Nat) (v : Word) :
    (s.storeReg 0x11 i 0x000 v).fld Reg.SETT.CTL_HALT_REQ i = v.toNat % 2 ∧
      (s.storeReg 0x11 i 0x000 v).fld Reg.SETT.CTL_WDOG_EN i = v.toNat / 4 % 2 := by
  have hr : findReg 0x11 0x000 = some ⟨0x000, 0, 1, commonModes, [⟨.rw, 0, 0, 0⟩, ⟨.wo, 1, 1, 0⟩, ⟨.rw, 2, 2, 1⟩]⟩ := by decide
  exact ⟨(State.wordField_storeReg hr (f := ⟨.rw, 0, 0, 0⟩) (by simp) s i v).trans (wordField_zero v 0),
    (State.wordField_storeReg hr (f := ⟨.rw, 2, 2, 1⟩) (by simp) s i v).trans (bits_one v.toNat 2)⟩

/-- A write of a core's SETT.CTL: HALT_REQ and WDOG_EN take their bits, and the core halts, resumes or steps as they say. -/
theorem State.settCtl_spec (s : State) (i : Nat) (v : Word) :
    (s.settCtl i v).fld Reg.SETT.CTL_HALT_REQ i = v.toNat % 2 ∧ (s.settCtl i v).fld Reg.SETT.CTL_WDOG_EN i = v.toNat / 4 % 2 ∧
      (s.settCtl i v).core i = { s.core i with
        halted := decide (v.toNat % 2 = 1) && (s.core i).halted
        stepping := decide (v.toNat % 2 = 1) && ((s.core i).stepping || (decide (v.toNat / 2 % 2 = 1) && (s.core i).halted)) } := by
  have hcore : (s.storeReg 0x11 i 0x000 v).core i = s.core i := by
    obtain ⟨r, hr⟩ := s.storeReg_is 0x11 i 0x000 v
    rw [hr]
    rfl
  refine ⟨(State.fld_congr (s.settCtl_csr i v) _ i).trans (s.fld_storeReg_ctl i v).1,
    (State.fld_congr (s.settCtl_csr i v) _ i).trans (s.fld_storeReg_ctl i v).2, ?_⟩
  unfold State.settCtl
  dsimp only
  rw [hcore, wordField_zero, show wordField v 1 1 = v.toNat / 2 % 2 from bits_one ..]
  split
  · next h0 =>
    have h1 : v.toNat % 2 = 0 := h0
    rw [State.core_setCore_self, h1]
    rfl
  · next h0 =>
    have h1 : v.toNat % 2 = 1 := Nat.mod_two_ne_zero.1 h0
    split
    · next h =>
      obtain ⟨hs, hh⟩ := h
      simp only [State.core_setCore_self, h1, hs, hh, decide_true, Bool.true_and, Bool.or_true]
    · next h =>
      have hn : (decide (v.toNat / 2 % 2 = 1) && (s.core i).halted) = false := by simpa using h
      simp only [hcore, h1, hn, decide_true, Bool.true_and, Bool.or_false]

theorem haltReq_spec {req : Fin 14} {sel : BitVec 10} {s : State} {i : Nat} (h : Claims.Hits s req 0x11 sel.toNat 0x000 i) (v : Word) :
    exec (.haltReq req sel v) s = .next (s.settCtl i v) :=
  congrArg Host.Outcome.next (State.hubEach_of_hits h fun s c => s.settCtl c v)

theorem step_spec {req : Fin 14} {sel : BitVec 10} {s : State} {i : Nat} (h : Claims.Hits s req 0x11 sel.toNat 0x000 i) :
    exec (.step req sel) s = .next (s.settCtl i (BitVec.ofNat 32 (3 + 4 * s.fld Reg.SETT.CTL_WDOG_EN i))) :=
  congrArg Host.Outcome.next (State.hubEach_of_hits h fun s c => s.settCtl c (BitVec.ofNat 32 (3 + 4 * s.fld Reg.SETT.CTL_WDOG_EN c)))

theorem coreEnWrite_spec {req : Fin 14} {sel : BitVec 10} {s : State} {n : Nat} (h : Claims.Hits s req 0x10 sel.toNat 0x000 n) (v : Word) :
    exec (.coreEnWrite req sel v) s = .next
      (((List.range 8).filter (fun j => !v.getLsbD j)).foldl (fun u j => u.reclaimAll (8 * n + j)) (s.storeReg 0x10 n 0x000 v)) := by
  refine congrArg Host.Outcome.next ((State.hubEach_of_hits h fun s n => s.coreEnWrite n v).trans ?_)
  rw [List.foldl_filter]
  unfold State.coreEnWrite
  dsimp only
  refine congrArg (List.foldl · _ _) (funext fun u => funext fun j => ?_)
  rw [bitOf_eq_getLsbD]
  cases v.getLsbD j <;> rfl

/-! ### A bundle that is illegal, a remote load's return, a hang and a halt -/

theorem illegal_spec {c : Fin 192} {s : State} {j : Nat} (hb : Claims.Busy s c) (h0 : (s.core c).stage.slot = 0)
    (hm : s.mayIssue c = true) (hj : (s.core c).illegalSlot (s.bundleNow c).1 = some j) :
    exec (.illegal c) s = .next (if (s.bundleNow c).2
      then (s.countEvent 0x11 c 0x004 1).raiseExc c ⟨0x03, 0, bundleAddr c (s.core c).pc.toNat, 0⟩
      else s.raiseExc c ⟨0x01, j, 0, 0⟩) := by
  obtain ⟨hr, ht, he, hm'⟩ := hb
  show execIllegal c s = _
  unfold execIllegal
  dsimp only
  rw [if_pos ⟨hr, ht, by rw [he]; rfl, by rw [hm']; rfl, h0, hm⟩, hj]
  dsimp only
  cases (s.bundleNow c).2 <;> rfl

/-- What a remote load's answer does to its bundle. -/
theorem remoteLoadReturn_eq {c : Fin 192} {s u : State} {l : CoreLoad} {st : BusStatus} {bytes : List (Byte × Bool)}
    (hr : s.running 0x11 c = true) (hm : (s.core c).remote = true) (hl : (s.core c).stage.load = some l)
    (hs : ∀ r ∈ (s.core c).stores, ∀ x ∈ r, x.1 / 64 ≠ l.addr / 64) (hb : s.remoteRead c l.addr l.len = (st, bytes, u)) :
    exec (.remoteLoadReturn c) s =
      match firstExc (loadExc l.addr st (bytes.any (·.2)) ++ (s.core c).stage.excs) with
      | some e => .next ((u.took 0x11 c l.addr bytes).raiseExc c e)
      | none => .next ((u.took 0x11 c l.addr bytes).retire c (l.results (bytes.map (·.1))) true) := by
  have hany : ((s.core c).stores.any fun r => r.any fun x => x.1 / 64 == l.addr / 64) = false := by
    simpa using hs
  show execRemoteLoadReturn c s = _
  unfold execRemoteLoadReturn
  dsimp only
  rw [hl]
  dsimp only
  rw [if_neg (by rw [hr, hm, hany]; decide), hb] <;> rfl

theorem hang_spec {c : Fin 192} {s : State} (hr : s.running 0x11 c = true) (ht : (s.core c).task.isSome = true)
    (hw : s.bit Reg.SETT.CTL_WDOG_EN c = true) (hh : (s.core c).halted = false) (hn : (s.core c).rep = none)
    (he : (s.core c).ending ≠ some (.exc 0x08)) :
    exec (.hang c) s = .next ((s.reportFault 2 0x11 c).raiseExc c ⟨0x08, 0, 0, 0⟩) :=
  if_pos ⟨hr, ht, hw, by rw [hh]; rfl, by rw [hn]; rfl, he⟩

theorem coreHalt_spec {c : Fin 192} {s : State} (ha : s.bit Reg.SETT.CTL_HALT_REQ c = true) (hh : (s.core c).halted = false)
    (hr : s.running 0x11 c = true) (h0 : (s.core c).stage.slot = 0) (hm : (s.core c).remote = false) (hn : (s.core c).rep = none) :
    exec (.coreHalt c) s = .next ((s.setCore c { s.core c with halted := true, fetched := none, ahead := [] }).reclaimAll c) :=
  if_pos ⟨ha, by rw [hh]; rfl, hr, h0, by rw [hm]; rfl, by rw [hn]; rfl⟩

/-- Settles O27, one event's lemma after the other. -/
theorem settCoreEvents : Obligations.SettCoreEvents := by
  refine ⟨fun c s u i t hn hm h => ?takeWake, fun c s j hb h0 hm hj => illegal_spec hb h0 hm hj,
    fun c s u l st bytes hr hm hl hs hb => ⟨fun hx => ?clean, fun hx => ?faulty⟩, storeAck_spec,
    fun c s hr ht hw hh hn he => hang_spec hr ht hw hh hn he, fun req sel v s i h => ⟨_, haltReq_spec h v, s.settCtl_spec i v⟩,
    fun req sel s i h => ⟨_, step_spec h, ?step⟩, fun c s ha hh hr h0 hm hn => coreHalt_spec ha hh hr h0 hm hn,
    fun req sel v s n h => coreEnWrite_spec h v⟩
  case takeWake =>
    obtain ⟨z, hz, hk⟩ := takeWake_spec hn hm h
    exact ⟨z, hz, hk.trans (Core.begin_eq ..)⟩
  case clean =>
    rw [remoteLoadReturn_eq hr hm hl hs hb, hx, List.append_nil]
    cases st with
    | ok => cases h : bytes.any (·.2) <;> rfl
    | decodeError | fenced | targetError => rfl
  case faulty =>
    obtain ⟨e, he, hf, hmin⟩ := firstExc_spec (l := loadExc l.addr st (bytes.any (·.2)) ++ (s.core c).stage.excs) (by simp [hx])
    refine ⟨e, he, ?_, hmin⟩
    rw [remoteLoadReturn_eq hr hm hl hs hb, hf]
  case step =>
    have hx : s.fld Reg.SETT.CTL_WDOG_EN i < 2 := wordField_lt ..
    have hv : (BitVec.ofNat 32 (3 + 4 * s.fld Reg.SETT.CTL_WDOG_EN i)).toNat = 3 + 4 * s.fld Reg.SETT.CTL_WDOG_EN i :=
      Nat.mod_eq_of_lt (by omega)
    obtain ⟨h₁, h₂, h₃⟩ := s.settCtl_spec i (BitVec.ofNat 32 (3 + 4 * s.fld Reg.SETT.CTL_WDOG_EN i))
    rw [hv] at h₁ h₂ h₃
    refine ⟨h₁.trans (by omega), h₂.trans (by omega), h₃.trans ?_⟩
    rw [show (3 + 4 * s.fld Reg.SETT.CTL_WDOG_EN i) % 2 = 1 by omega, show (3 + 4 * s.fld Reg.SETT.CTL_WDOG_EN i) / 2 % 2 = 1 by omega]
    simp only [decide_true, Bool.true_and]

end Sys2Proof.Machine

namespace Sys2Proof.Machine

set_option Elab.async false

/-! ## A load without an end (R61, R130, R300)

O24 bounds neither a load's length nor where it ends, and the read of a word of bulk memory may retire that word's page. -/

/-! ### Words that read as they stand -/

/-- The word at an address reads without poison and changes nothing. -/
def State.quietAt (s : State) (w : Nat) : Prop := (s.readWord (s.memKey w)).2 = (false, s)

theorem gfXn_of_zero (n : Nat) : gfXn n 0 = 0 := by
  induction n with
  | zero => rfl
  | succ n ih => exact ih

/-- A word of zeros is a codeword, whichever column is marked erased. -/
theorem jointRule_zero (e : Option Nat) : jointRule e (0, 0) (0, 0) = .clean := by
  cases e with
  | none => decide
  | some c => simp [jointRule, gfXn_of_zero]

theorem decodeWord_zero (e : Option Nat) : (decodeWord e (List.replicate 16 0) (List.replicate 4 0)).2.2.1 = .clean ∧
    (decodeWord e (List.replicate 16 0) (List.replicate 4 0)).2.2.2 = List.replicate 16 0 := by
  have h : ∀ j, j < 2 → syndromes (codeSymbols (List.replicate 16 0) (List.replicate 4 0) j) = (0, 0) := by decide
  simp only [decodeWord, h 0 (by decide), h 1 (by decide), jointRule_zero, and_self]

theorem State.memKey_of_lt (s : State) {a : Nat} (h : a < bulkBase) : s.memKey a = a := by
  have hr : ∀ c l, s.region a ≠ .bulk c l := fun c l => by
    unfold State.region
    rw [if_pos h]
    dsimp only
    split_ifs <;> exact Region.noConfusion
  unfold State.memKey
  split
  · next c l hb => exact absurd hb (hr c l)
  · rfl

/-- A word that reads without poison adds none to the bytes read. -/
theorem State.readPart_of_clean {s : State} (a n : Nat) {w : Nat} (h : (s.readWord (s.memKey w)).2.1 = false) {bs : List (Byte × Bool)}
    (hb : bs.any (·.2) = false) :
    ∃ bs', State.readPart a n (bs, s) w = (bs', (s.readWord (s.memKey w)).2.2) ∧ bs'.any (·.2) = false := by
  refine ⟨_, rfl, ?_⟩
  rw [List.any_append, hb, Bool.false_or, List.any_eq_false]
  intro x hx
  obtain ⟨i, -, hi⟩ := List.mem_filterMap.1 hx
  split at hi
  · obtain rfl := Option.some.inj hi
    exact Bool.eq_false_iff.1 h
  · cases hi

/-- A read whose words all read as they stand. -/
theorem State.readParts_quiet {s : State} (a n : Nat) {l : List Nat} (h : ∀ w ∈ l, s.quietAt w) {bs : List (Byte × Bool)}
    (hb : bs.any (·.2) = false) : ∃ bs', l.foldl (State.readPart a n) (bs, s) = (bs', s) ∧ bs'.any (·.2) = false := by
  induction l generalizing bs with
  | nil => exact ⟨bs, rfl, hb⟩
  | cons w l ih =>
    obtain ⟨hw, hl⟩ := List.forall_mem_cons.1 h
    obtain ⟨bs', hp, hb'⟩ := State.readPart_of_clean a n (Prod.ext_iff.1 hw).1 hb
    rw [List.foldl_cons, hp, (Prod.ext_iff.1 hw).2]
    exact ih hl hb'

/-- The words of a read, the last apart. -/
theorem wordsOf_eq {a n m : Nat} (hn : n ≠ 0) (hm : (a + n - 1) / 16 - a / 16 = m) :
    wordsOf a n = (List.range m).map (fun i => (a / 16 + i) * 16) ++ [(a / 16 + m) * 16] := by
  rw [wordsOf, if_neg hn, hm, List.range_succ, List.map_append, List.map_singleton]

/-- A read whose words all read as they stand but the last, which reads without poison. -/
theorem State.readMem_quiet {s : State} {a n m e : Nat} (hn : n ≠ 0) (hm : (a + n - 1) / 16 - a / 16 = m) (he : (a / 16 + m) * 16 = e)
    (hq : ∀ i, i < m → s.quietAt ((a / 16 + i) * 16)) (hl : (s.readWord (s.memKey e)).2.1 = false) :
    (s.readMem a n).1.any (·.2) = false ∧ (s.readMem a n).2 = (s.readWord (s.memKey e)).2.2 := by
  rw [State.readMem_eq, wordsOf_eq hn hm, List.foldl_append, he]
  obtain ⟨bs, hbs, hb⟩ := State.readParts_quiet a n (s := s) (bs := []) (l := (List.range m).map fun i => (a / 16 + i) * 16)
    (by simpa using hq) rfl
  obtain ⟨bs', hbs', hb'⟩ := State.readPart_of_clean a n hl hb
  rw [hbs, List.foldl_cons, List.foldl_nil, hbs']
  exact ⟨hb', rfl⟩

/-! ### A bundle that stores nothing leaves memory as it is once its load is read -/

theorem State.took_mem (s : State) (cls inst a : Nat) (l : List (Byte × Bool)) : (s.took cls inst a l).mem = s.mem := by
  unfold State.took
  split
  · rfl
  · exact State.countEvent_mem ..

theorem State.sampled_mem (s : State) (c pc ev : Nat) (hits : List (Nat × Nat)) (daddr left : Nat) (inRep : Bool) (cycles : Nat) :
    (s.sampled c pc ev hits daddr left inRep cycles).mem = s.mem := by
  unfold State.sampled
  dsimp only
  split
  · rfl
  · split
    · rfl
    · exact State.countEvent_mem ..

theorem State.sample_mem (s : State) (c pc : Nat) (hits : List (Nat × Nat)) (daddr left : Nat) (inRep : Bool) :
    (s.sample c pc hits daddr left inRep).mem = s.mem := by
  rw [State.sample_eq]
  dsimp only
  split
  · rw [State.sampled_mem, apply_ite Prod.snd, apply_ite State.mem]
    exact ite_self _
  · rfl

theorem State.bundleCounted_mem (s : State) (c : Nat) (k : Core) (held : Bool) : (s.bundleCounted c k held).mem = s.mem := by
  unfold State.bundleCounted
  dsimp only
  rw [State.sample_mem]
  cases k.task with
  | none => simp only [State.countEvent_mem]
  | some i =>
    dsimp only
    split
    · simp only [State.countEvent_mem]
    · exact (State.countEvent_mem ..).trans (State.countEvent_mem ..)

theorem State.retire_mem {u : State} {c : Nat} (loaded : List RegWrite) (held : Bool) (hq : (u.core c).stage.cmuq = none)
    (hs : (u.core c).stage.stores = []) (ha : (u.core c).stage.act = .next) : (u.retire c loaded held).mem = u.mem := by
  rw [State.retire_eq u c loaded held hq, hs, ha]
  exact State.bundleCounted_mem ..

theorem State.readMem_setCore_mem (s : State) (c : Nat) (k : Core) (a n : Nat) :
    ((s.setCore c k).readMem a n).2.mem = (s.readMem a n).2.mem := by
  rw [State.setCore_eq_withSett, State.readMem_withSett]
  rfl

/-- SNOP in a clean bundle with a load and no store: memory is as the load leaves it. -/
theorem exec_snop_mem {s : State} {c : Fin 192} {w : Nat} {l : CoreLoad} (ht : Claims.Turn s c 3 0x3F w) (hc : Claims.CleanBundle s c)
    (hl : (s.core c).stage.load = some l) (hs : (s.core c).stage.stores = []) :
    ∃ t : State, exec (.snop c) s = .next t ∧ t.mem = (s.readMem l.addr l.len).2.mem := by
  set v := s.stageSlot c 3 {} with hv
  have hk : v.core c = (s.core c).staged ((s.core c).stage.add {} 3) false := State.core_setCore_self ..
  have hclean : Claims.CleanBundle v c := ⟨State.stageSlot_excs hc.1 _, by rw [hk]; exact hc.2.1, State.stageSlot_load hc _⟩
  have hu : ((v.localRead c l.addr l.len).2.core c) = v.core c :=
    State.core_of_sett ((State.took_sett ..).trans (State.readMem_sett ..)) c
  refine ⟨_, congrArg Host.Outcome.next ((State.sbOp_of_turn ht fun _ _ => {}).trans
    (State.finishBundle_local hclean (l := l) (by rw [hk]; exact hl))), ?_⟩
  rw [State.retire_mem _ _ (by rw [hu]; exact hclean.2.1) (by rw [hu, hk]; exact (List.append_nil _).trans hs) (by rw [hu, hk]; rfl)]
  exact (State.took_mem ..).trans (State.readMem_setCore_mem s c _ l.addr l.len)

/-! ### A correction that retires its page (R289, R297, R298, R300) -/

theorem State.setLevel_mem (s : State) (n : Nat) : (s.setLevel n).mem = s.mem := by
  unfold State.setLevel
  split
  · rfl
  · exact State.post_mem ..

theorem State.recovered_mem (s : State) (r : Recovery) : (s.recovered r).mem = s.mem := by
  have ht : (s.timed r).mem = s.mem := rfl
  rw [State.recovered_eq, ← ht]
  dsimp only [State.syncRecoveries]
  split <;> exact State.post_mem ..

theorem State.faultNoted_mem (s : State) (code cls inst : Nat) (dbl : Bool) : (s.faultNoted code cls inst dbl).mem = s.mem := by
  cases dbl <;> simp only [State.faultNoted, Bool.false_eq_true, if_false, if_true, State.post_mem] <;> rfl

theorem State.reportFault_mem (s : State) (code cls inst : Nat) (b : Bool) : (s.reportFault code cls inst b).mem = s.mem := by
  have hr (u : State) (r : Recovery) : (u.recovering r).mem = u.mem := rfl
  rw [State.reportFault_eq]
  dsimp only
  split
  · exact State.faultNoted_mem ..
  · split <;> simp only [State.recovered_mem, hr, State.setLevel_mem, State.faultNoted_mem]

/-- A correction in a column, counted at its memory's controller. -/
def State.correctionCounted (s : State) (m : MemUnit) (c : Nat) : State :=
  let s := s.setReg m.cls m.inst m.ce (s.reg m.cls m.inst m.ce + 1)
  (s.setReg m.cls m.inst (m.col + 4 * c)
    (BitVec.ofNat 32 (satAdd allOnes32 (s.reg m.cls m.inst (m.col + 4 * c)).toNat 1))).eraseCheck m c

theorem State.noteDecode_corrected {s : State} {k c : Nat} (h : (s.erasedCol (memUnitOf k) == some c) = false) :
    s.noteDecode k (.corrected c) =
      ((s.correctionCounted (memUnitOf k) c).spallNote k c).reportFault 0 (memUnitOf k).cls (memUnitOf k).inst := by
  unfold State.noteDecode
  simp only [h]
  rfl

/-- The first correction of a word takes a free entry of the spall table. -/
theorem State.spallNote_fresh {s : State} {k col n : Nat} {e : Spall} (hu : s.memSys.spall.isEmpty = true)
    (hf : (List.range 256).find? (fun n => (s.spallAt n).st == 0) = some n)
    (he : ⟨(s.spallPlace k).2, col, 1, 1, false, (s.spallPlace k).1, s.spallStamp, s.spallStamp⟩ = e) :
    s.spallNote k col = ((s.setSpall n e).spallHarden n).syncSpall := by
  unfold State.spallNote
  simp only [List.isEmpty_iff.1 hu, List.find?_nil, hf, he]

/-- An entry of the spall table made HARD, with its event. -/
def State.hardened (s : State) (n : Nat) : State := (s.setSpall n { s.spallAt n with st := 2 }).post 0x4A 0 0x001 1 n

theorem State.syncSpall_mem (s : State) : s.syncSpall.mem = s.mem := rfl

theorem State.spallRetired_mem (s : State) (c page : Nat) : (s.spallRetired c page).mem = s.mem := by
  unfold State.spallRetired
  rw [State.syncSpall_mem]
  exact List.foldlRecOn (motive := fun t : State => t.mem = s.mem) _ _ rfl fun t ht n _ => by
    dsimp only
    split
    · exact ht
    · exact ht

theorem State.pageRetired_mem (t : State) (c n page : Nat) : (t.pageRetired c n page).mem = t.mem := by
  unfold State.pageRetired
  exact State.post_mem ..

/-- A HARD entry of bulk memory whose page is retired: memory is as the retirement leaves it. -/
theorem State.spallHarden_retires {s t : State} {n i c page : Nat} {e : Spall} (hs : s.spallAt n = e)
    (h : e.st = 1 ∧ s.spallThresh ≤ e.count) (hm : e.memory = c + 4) (hp : e.addr / 4096 = page)
    (ha : (s.hardened n).bit Reg.BULK.CTL_AUTO_RETIRE c = true) (ht : (s.hardened n).retirePage c page = some (i, t)) :
    (s.spallHarden n).syncSpall.mem = t.mem := by
  subst hs
  have hc : (s.spallAt n).memory - 4 = c := by omega
  have he : s.spallHarden n = (s.hardened n).autoRetire (s.spallAt n) := if_pos h
  have hr : (s.hardened n).autoRetire (s.spallAt n) = t.spallRetired c page := by
    unfold State.autoRetire
    rw [hc, hp, if_pos ⟨by omega, ha⟩, ht]
  rw [State.syncSpall_mem, he, hr, State.spallRetired_mem]

/-- Zeros stored where nothing is listed list nothing. -/
theorem mwrites_zero (k n : Nat) : mwrites [] k (List.replicate n 0) = [] := by
  induction n generalizing k with
  | zero => rfl
  | succ n ih => exact ih (k + 1)

/-- A word copied within memory that is all zeros leaves it so. -/
theorem State.copied_word {t : State} (ht : t.mem = [] ∧ t.chk = []) (src dst : Nat) :
    (t.storeWord dst (t.decodeAt src).2.2.2 (t.decodeAt src).2.2.1.bad).mem = [] ∧
      (t.storeWord dst (t.decodeAt src).2.2.2 (t.decodeAt src).2.2.1.bad).chk = [] := by
  obtain ⟨hm, hc⟩ := ht
  have hw : t.wordAt src = List.replicate 16 0 := by rw [State.wordAt, hm]; rfl
  have hk : t.checkAt src = List.replicate 4 0 := by rw [State.checkAt, hc]; rfl
  have hd : (t.decodeAt src).2.2.1 = .clean ∧ (t.decodeAt src).2.2.2 = List.replicate 16 0 := by
    rw [State.decodeAt, hw, hk]
    exact decodeWord_zero _
  rw [hd.1, hd.2]
  have hz : (List.range 16).map (fun i => (List.replicate 16 (0 : Byte)).getD i 0) = List.replicate 16 0 := by decide
  have hz' : checkBytes (List.replicate 16 0) false = List.replicate 4 0 := by decide
  simp only [State.storeWord, Decoded.bad, hz, hz', hm, hc, mwrites_zero, and_self]

/-- Words copied one after the other, the first of which leaves memory all zeros. -/
theorem State.copied_zero {s : State} (src dst : Nat → Nat)
    (h : (s.storeWord (dst 0) (s.decodeAt (src 0)).2.2.2 (s.decodeAt (src 0)).2.2.1.bad).mem = [] ∧
      (s.storeWord (dst 0) (s.decodeAt (src 0)).2.2.2 (s.decodeAt (src 0)).2.2.1.bad).chk = []) {n N : Nat} (hN : N = n + 1) :
    let t := (List.range N).foldl (fun t w => t.storeWord (dst w) (t.decodeAt (src w)).2.2.2 (t.decodeAt (src w)).2.2.1.bad) s
    t.mem = [] ∧ t.chk = [] := by
  rw [hN, List.range_succ_eq_map, List.foldl_cons]
  exact List.foldlRecOn (motive := fun t : State => t.mem = [] ∧ t.chk = []) _ _ h fun t ht w _ => State.copied_word ht ..

/-! ### The counterexample -/

/-- A bundle of four NOPs (R128). -/
def nopBundle : Nat := 0x3F * 2 ^ 24 * 2 ^ 98 + 0x3F * 2 ^ 24 * 2 ^ 68 + 0x3F * 2 ^ 34 * 2 ^ 28 + 0x3F * 2 ^ 22

/-- Core 0 at the SB slot of a bundle of NOPs, with a load from its local data that runs on to the first word of bulk memory. One bit of
that word is wrong, and its channel retires the page of a word once corrected. -/
def overlongLoad : State :=
  { (State.reset.setFld Reg.BULK.CTL_AUTO_RETIRE 0 1).setFld Reg.SPALL.CTL_THRESH 0 1 with
    mem := [(2 ^ 40, 1)] }.setCore 0 { Core.reset with
      task := some 0, fetched := some (0, nopBundle, false)
      stage := { Stage.reset with slot := 3, load := some ⟨0x60000000, 0xA0000010, .word, 0, 0⟩ } }

theorem overlongLoad_mem_ne : overlongLoad.mem ≠ [] := List.cons_ne_nil _ _

theorem overlongLoad_core : overlongLoad.core 0 = { Core.reset with
    task := some 0, fetched := some (0, nopBundle, false)
    stage := { Stage.reset with slot := 3, load := some ⟨0x60000000, 0xA0000010, .word, 0, 0⟩ } } := State.core_setCore_self ..

theorem overlongLoad_load : (overlongLoad.core 0).stage.load = some ⟨0x60000000, 0xA0000010, .word, 0, 0⟩ := by
  rw [overlongLoad_core]

theorem overlongLoad_stores : (overlongLoad.core 0).stage.stores = [] := by
  rw [overlongLoad_core]
  rfl

theorem overlongLoad_rep : (overlongLoad.core 0).rep = none := by
  rw [overlongLoad_core]
  rfl

theorem overlongLoad_turn : Claims.Turn overlongLoad 0 3 0x3F (slotWord nopBundle 3) :=
  ⟨nopBundle, by decide +kernel, rfl, by decide +kernel, by decide +kernel⟩

/-- Every word below bulk memory is zero and reads so. -/
theorem overlongLoad_quiet {w : Nat} (h : w < bulkBase) : overlongLoad.quietAt w := by
  have hz (i : Nat) (hi : i < 16) : mread overlongLoad.mem (w + i) = 0 := by
    have hne : (2 ^ 40 : Nat) ≠ w + i := by unfold bulkBase at h; omega
    exact congrArg (Option.getD · 0) (if_neg hne)
  have hw : overlongLoad.wordAt w = List.replicate 16 0 := List.map_eq_replicate_iff.2 fun i hi => hz i (List.mem_range.1 hi)
  have hc : overlongLoad.checkAt w = List.replicate 4 0 := rfl
  have hd : (overlongLoad.decodeAt w).2.2.1 = .clean := by
    rw [State.decodeAt, hw, hc, (decodeWord_zero _).1]
  unfold State.quietAt
  rw [State.memKey_of_lt _ h]
  simp only [State.readWord, hd]
  rfl

/-- The last word's correction with its entry in the spall table, which reaches the threshold. -/
def overlongSpall : Spall := ⟨0, 0, 1, 1, false, 4, overlongLoad.spallStamp, overlongLoad.spallStamp⟩

/-- The last word's correction counted and entered in the spall table. -/
def overlongSpalled : State := (overlongLoad.correctionCounted (memUnitOf (2 ^ 40)) 0).setSpall 0 overlongSpall

theorem overlongSpalled_retires : ∃ t, (overlongSpalled.hardened 0).retirePage 0 0 = some (0, t) ∧ t.mem = [] := by
  have hn : (overlongSpalled.hardened 0).retiredCount 0 = 0 := by decide +kernel
  refine ⟨_, by rw [State.retirePage_eq, hn, if_neg (by decide)], ?_⟩
  rw [State.pageRetired_mem]
  exact (State.copied_zero (fun w => (overlongSpalled.hardened 0).bulkKey 0 (0 * 4096 + 16 * w))
    (fun w => 2 ^ 40 + 2 ^ 37 * 0 + 2 ^ 20 * (overlongSpalled.hardened 0).fld Reg.BULK.CAPACITY_MB 0 + 0 * 4096 + 16 * w)
    (by decide +kernel) (n := 255) rfl).1

/-- The last word is corrected, and its page retired into the reserve page: it is stored anew. -/
theorem overlongLoad_last : (overlongLoad.readWord (overlongLoad.memKey 0x100000000)).2.1 = false ∧
    (overlongLoad.readWord (overlongLoad.memKey 0x100000000)).2.2.mem = [] := by
  have hk : overlongLoad.memKey 0x100000000 = 2 ^ 40 := by decide +kernel
  have hd : (overlongLoad.decodeAt (2 ^ 40)).2.2.1 = .corrected 0 := by decide +kernel
  obtain ⟨t, ht, hm⟩ := overlongSpalled_retires
  rw [hk]
  simp only [State.readWord, hd]
  refine ⟨rfl, ?_⟩
  rw [State.noteDecode_corrected (by decide +kernel), State.reportFault_mem,
    State.spallNote_fresh (n := 0) (e := overlongSpall) (by decide +kernel) (by decide +kernel) (by decide +kernel)]
  have hr := State.spallHarden_retires (s := overlongSpalled) (n := 0) (c := 0) (page := 0) (e := overlongSpall) (by decide +kernel)
    (by decide +kernel) rfl rfl (by decide +kernel) ht
  exact hr.trans hm

theorem overlongLoad_readMem : (overlongLoad.readMem 0x60000000 0xA0000010).1.any (·.2) = false ∧
    (overlongLoad.readMem 0x60000000 0xA0000010).2.mem = [] := by
  obtain ⟨hp, hm⟩ := overlongLoad_last
  obtain ⟨h, ht⟩ := State.readMem_quiet (s := overlongLoad) (a := 0x60000000) (n := 0xA0000010) (m := 0xA000000) (e := 0x100000000)
    (by decide) (by decide) (by decide) (fun i hi => overlongLoad_quiet (by unfold bulkBase; omega)) hp
  exact ⟨h, (congrArg State.mem ht).trans hm⟩

theorem overlongLoad_clean : Claims.CleanBundle overlongLoad 0 := by
  refine ⟨by rw [overlongLoad_core]; rfl, by rw [overlongLoad_core]; rfl, fun l hl => ?_⟩
  obtain rfl := Option.some.inj (overlongLoad_load.symm.trans hl)
  exact ⟨by decide +kernel, overlongLoad_readMem.1⟩

/-- Refutes O24: `overlongLoad` is a clean bundle that stores nothing, and it changes memory. -/
theorem not_settScalarBundleRetires : ¬ Obligations.SettScalarBundleRetires := by
  unfold Obligations.SettScalarBundleRetires
  intro h
  have hr : ⟨.snop, 0x3F, fun _ _ => [], Claims.nextPc⟩ ∈ Claims.arithmeticRows ++ Claims.moveRows ++ Claims.branchRows := by
    simp [Claims.moveRows]
  obtain ⟨t, ht, -, -, -, -, hmem⟩ := h _ hr 0 overlongLoad _ overlongLoad_turn overlongLoad_rep overlongLoad_clean
  obtain ⟨u, hu, hum⟩ := exec_snop_mem (c := 0) overlongLoad_turn overlongLoad_clean overlongLoad_load overlongLoad_stores
  obtain rfl := Host.Outcome.next.inj (ht.symm.trans hu)
  dsimp only at hum
  rw [overlongLoad_readMem.2] at hum
  exact absurd ((hmem overlongLoad_stores).1.symm.trans hum) overlongLoad_mem_ne

end Sys2Proof.Machine
